-- ==== Sys2Proof/Word.lean ====
section
/-! DEFINITION. The word types of the Axoskol: 32-bit general registers and instruction words, 64-bit
register pairs, floating-point registers and dictionary slots, and the bytes of its memories (R5, R65). -/

namespace Sys2Proof

/-- A 32-bit general or special register (R65). -/
abbrev Word := BitVec 32

/-- A register pair under WIDE, or a floating-point register (R65). -/
abbrev DWord := BitVec 64

/-- A byte of any memory of the package (R5). -/
abbrev Byte := BitVec 8

end Sys2Proof
end

