-- ==== Sys2Proof/Syntax.lean ====
section
/-! DEFINITION. The commands of the Axoskol: one constructor for each row of the table of operations and
events. The operands are what the row's rule of the spec says comes from outside the block: the session of
a dictionary request, the value written, the fields of a received frame, the measured quantity. What the
rules compute is no operand.

Sessions (R37) are numbered 0–383 for the hardware contexts (16 × global core + context, so 0 is task 0's),
384–415 for the Huatur service sessions and 416–419 for the SDO servers. -/

namespace Sys2Proof

/-- One Voxrax instruction as fetched, less its opcode, which the row names (R75–R79). Every field is the
raw field of the encoding, so an encoding that R80 calls ILLEGAL can be written too. -/
structure Enc where
  /-- Prefix bytes in order (R76). -/
  pfx : List Nat
  /-- Register field rb, bits [4:0] of the last opcode byte (R78). -/
  rb : Nat
  /-- Register field ra, bits [7:3] of the operand byte (R79). -/
  ra : Nat
  /-- Operand mode AM, bits [2:0] of the operand byte (R79). -/
  am : Nat
  /-- The displacement as its unsigned little-endian value. -/
  disp : Nat
  /-- The immediate as its unsigned little-endian value. -/
  imm : Nat
  deriving DecidableEq, Repr

/-- The header of an IPv4 datagram on an engineering port: a fragment, IP options, a good header checksum, a broadcast address
as its destination (R291). -/
structure IpInfo where
  fragment : Bool
  options : Bool
  hdrOk : Bool
  broadcast : Bool
  deriving DecidableEq, Repr

/-- The UDP part of a datagram on an engineering port (R291). -/
structure UdpInfo where
  udpOk : Bool
  srcIp : Nat
  srcPort : Nat
  dstIp : Nat
  dstPort : Nat
  deriving DecidableEq, Repr

/-- A received frame up to the end of its Huatur header, and a service body: what the ingress checks of R263, R269 and R291 look
at, and where an answer goes (R264). -/
structure Rx where
  /-- Port 0–15 field, 16–17 E0–E1. -/
  port : Nat
  /-- Destination and source address. -/
  dst : Nat
  src : Nat
  etype : Nat
  /-- The 802.1Q tag, if the frame carries one: PCP and VID. -/
  vid : Option Nat
  fcsOk : Bool
  /-- LENGTH agrees with the frame. -/
  lenOk : Bool
  /-- The 24 bytes of the Huatur header, in network byte order (R267, R268); none in another frame. -/
  hdr : List Byte
  /-- Bytes from destination address to FCS (R499). -/
  bytes : Nat
  /-- The IPv4 header of a frame of EtherType 0x0800. -/
  ip : Option IpInfo
  udp : Option UdpInfo
  /-- The body of a service request or response, in network byte order (R5, R267, R287); none in another frame. -/
  svc : List Byte
  deriving DecidableEq, Repr

/-- One segment of an EBB or SLACK body (R271). -/
structure Seg where
  station : Nat
  done : Bool
  err : Bool
  evt : Bool
  status : Nat
  data : List Byte
  deriving DecidableEq, Repr

/-- The fields of a Huatur header (R268). -/
structure Hdr where
  version : Nat
  typ : Nat
  grant : Bool
  partner : Nat
  dir : Nat
  last : Bool
  turned : Bool
  tide : Nat
  pair : Nat
  index : Nat
  seq : Nat
  point : Nat
  turn : Nat
  count : Nat
  deriving DecidableEq, Repr

/-- A CAN frame on the wire (R386, R389). -/
structure CanFrame where
  ext : Bool
  id : Nat
  remote : Bool
  fd : Bool
  switch : Bool
  passive : Bool
  dlc : Nat
  data : List Byte
  /-- A recessive res bit (R386). -/
  res : Bool
  deriving DecidableEq, Repr

/-- The class 1 status message of the mooring links (R333). -/
structure Status where
  role : Nat
  pair : Nat
  grant : Bool
  tide : Nat
  /-- For each port, one more than the index of the last slack frame completed. -/
  done : List Nat
  part : Nat
  fitted : Nat
  pairId : Nat
  id : Nat
  pref : Nat
  deriving DecidableEq, Repr

/-- One dictated input of R338. -/
inductive Dict where
  | inputLine (bytes : List Byte)
  | edge (input : Nat) (rising : Bool) (stamp : Nat)
  | can (ctl : Nat) (f : CanFrame) (stamp : Nat)
  | txDone (ctl buf result cause stamp : Nat)
  | ebbCount (count : Nat)
  | release (cls num tide order : Nat)
  deriving DecidableEq, Repr

/-- A sparse table: a list of key and value pairs, keys strictly rising, no value equal to its default. -/
abbrev SMap (α : Type) := List (Nat × α)

/-- A force entry (R193). -/
structure Force where
  key : Nat
  val : Nat
  en : Bool
  orphan : Bool
  deriving DecidableEq, Repr

def Force.init : Force := { key := 0, val := 0, en := false, orphan := false }

/-- A force change (R196, R198, R203). -/
inductive FChange where
  | set (n key val : Nat)
  | clear (n : Nat)
  | clearAll
  | enable (b : Bool)
  | table (t : SMap Force)
  deriving DecidableEq, Repr

/-- A replicated command of R340: a write, or a force change. -/
inductive Repl where
  | write (idx sub v : Nat)
  | force (c : FChange)
  deriving DecidableEq, Repr

/-- A block of resynchronisation data (R355, R356): 4 KiB of memory, numbered by memory key ÷ 4,096; an object; a
domain; the force table; the owner tag of a line; whether a task is DISABLED; and at the end TDS.TIDE64. -/
inductive Resync where
  | mem (block : Nat) (data : List Byte)
  | obj (idx sub v : Nat)
  | dom (idx sub : Nat) (data : List Byte)
  | forces (t : SMap Force)
  | owner (line v : Nat)
  | task (t : Nat) (disabled : Bool)
  | tide (tide64 : Nat)
  deriving DecidableEq, Repr

/-- A field-side status report over C1 (R364): one bit per channel in each mask. -/
structure C1 where
  /-- Raw input levels that the field side reports. -/
  rawIn : Nat
  /-- Levels the logic side sees on the input couplers at the report. -/
  couplerIn : Nat
  /-- Levels the field side received on the output couplers. -/
  outSeen : Nat
  /-- Output voltage in mV, per channel. -/
  volt : List Nat
  /-- Channels in current limit. -/
  limit : Nat
  deriving DecidableEq, Repr

/-- How a transmit attempt ended (R398). -/
inductive TxEnd where
  | success | arbLost | error (lec : Nat)
  deriving DecidableEq, Repr

/-- One command: a row of the table of operations and events.
(DESIGN CHOICE, unsafe: log 54.) -/
inductive Instr where
  -- dictionary
  | objectWrite (ses idx sub width v : Nat)
  | login (ses v : Nat)
  | lockoutEnd (path : Nat)
  | sessionIdleClose (ses : Nat)
  | txnBegin (ses : Nat)
  | txnCommit (ses : Nat)
  | txnDiscard (ses : Nat)
  | dieVote (ses die : Nat)
  | handshakeTimeout (kind ses die : Nat)
  | txnApply (ses die : Nat)
  | applyConfirm (ses die : Nat)
  | txnExpired (ses : Nat)
  | domOpen (ses v : Nat)
  | domApertureAccess (ses : Nat) (write : Bool) (at_ width v : Nat)
  | domCloseCommit (ses : Nat)
  | domCloseAbandon (ses : Nat)
  | oemRequest (ses idx sub : Nat) (write : Bool) (v : Nat)
  | oemReqTake
  | oemAnswer (tag status data : Nat)
  | oemTimeout (tag : Nat)
  | serviceOpen (fr : Rx) (tag : Nat)
  | serviceClose (fr : Rx) (ses tag : Nat)
  | serviceRead (fr : Rx) (ses tag idx sub : Nat)
  | serviceWrite (fr : Rx) (ses tag idx sub v : Nat)
  | serviceDomRead (fr : Rx) (ses tag off len : Nat)
  | serviceDomWrite (fr : Rx) (ses tag off : Nat) (data : List Byte)
  -- Voxrax
  | ld (c : Nat) (e : Enc)
  | st (c : Nat) (e : Enc)
  | mov (c : Nat) (e : Enc)
  | add (c : Nat) (e : Enc)
  | ldx (c : Nat) (e : Enc)
  | stx (c : Nat) (e : Enc)
  | bnz (c : Nat) (e : Enc)
  | sub (c : Nat) (e : Enc)
  | neg (c : Nat) (e : Enc)
  | mul (c : Nat) (e : Enc)
  | mulh (c : Nat) (e : Enc)
  | div (c : Nat) (e : Enc)
  | divu (c : Nat) (e : Enc)
  | rem (c : Nat) (e : Enc)
  | remu (c : Nat) (e : Enc)
  | and (c : Nat) (e : Enc)
  | or (c : Nat) (e : Enc)
  | xor (c : Nat) (e : Enc)
  | andn (c : Nat) (e : Enc)
  | not (c : Nat) (e : Enc)
  | shl (c : Nat) (e : Enc)
  | shr (c : Nat) (e : Enc)
  | sar (c : Nat) (e : Enc)
  | adds (c : Nat) (e : Enc)
  | subs (c : Nat) (e : Enc)
  | abs (c : Nat) (e : Enc)
  | abss (c : Nat) (e : Enc)
  | min (c : Nat) (e : Enc)
  | max (c : Nat) (e : Enc)
  | rol (c : Nat) (e : Enc)
  | ror (c : Nat) (e : Enc)
  | ceq (c : Nat) (e : Enc)
  | clt (c : Nat) (e : Enc)
  | cle (c : Nat) (e : Enc)
  | cltu (c : Nat) (e : Enc)
  | cleu (c : Nat) (e : Enc)
  | tst (c : Nat) (e : Enc)
  | cova (c : Nat) (e : Enc)
  | covs (c : Nat) (e : Enc)
  | ldb (c : Nat) (e : Enc)
  | ldbu (c : Nat) (e : Enc)
  | ldh (c : Nat) (e : Enc)
  | ldhu (c : Nat) (e : Enc)
  | stb (c : Nat) (e : Enc)
  | sth (c : Nat) (e : Enc)
  | lea (c : Nat) (e : Enc)
  | xchg (c : Nat) (e : Enc)
  | bz (c : Nat) (e : Enc)
  | br (c : Nat) (e : Enc)
  | call (c : Nat) (e : Enc)
  | ret (c : Nat) (e : Enc)
  | dbnz (c : Nat) (e : Enc)
  | swtrap (c : Nat) (e : Enc)
  | fadd (c : Nat) (e : Enc)
  | fsub (c : Nat) (e : Enc)
  | fmul (c : Nat) (e : Enc)
  | fdiv (c : Nat) (e : Enc)
  | fsqrt (c : Nat) (e : Enc)
  | fmov (c : Nat) (e : Enc)
  | fneg (c : Nat) (e : Enc)
  | fabs (c : Nat) (e : Enc)
  | fceq (c : Nat) (e : Enc)
  | fclt (c : Nat) (e : Enc)
  | fcle (c : Nat) (e : Enc)
  | ftoi (c : Nat) (e : Enc)
  | itof (c : Nat) (e : Enc)
  | fcvt (c : Nat) (e : Enc)
  | fld (c : Nat) (e : Enc)
  | fst (c : Nat) (e : Enc)
  | movb (c : Nat) (e : Enc)
  | movh (c : Nat) (e : Enc)
  | movw (c : Nat) (e : Enc)
  | fillw (c : Nat) (e : Enc)
  | scanw (c : Nat) (e : Enc)
  | cmpw (c : Nat) (e : Enc)
  | bld (c : Nat) (e : Enc)
  | bst (c : Nat) (e : Enc)
  | bset (c : Nat) (e : Enc)
  | brst (c : Nat) (e : Enc)
  | band (c : Nat) (e : Enc)
  | bor (c : Nat) (e : Enc)
  | bandn (c : Nat) (e : Enc)
  | born (c : Nat) (e : Enc)
  | gatb (c : Nat) (e : Enc)
  | rung (c : Nat) (e : Enc)
  | edgr (c : Nat) (e : Enc)
  | edgf (c : Nat) (e : Enc)
  | ton (c : Nat) (e : Enc)
  | tof (c : Nat) (e : Enc)
  | tp (c : Nat) (e : Enc)
  | trst (c : Nat) (e : Enc)
  | trd (c : Nat) (e : Enc)
  | cnt64 (c : Nat) (e : Enc)
  | syncW (c : Nat) (e : Enc)
  | fence (c : Nat) (e : Enc)
  | mfs (c : Nat) (e : Enc)
  | mts (c : Nat) (e : Enc)
  | nop (c : Nat) (e : Enc)
  | endSection (c : Nat) (e : Enc)
  | chkin (c : Nat) (e : Enc)
  | signal (c : Nat) (e : Enc)
  -- core events
  | bracketLimit (c : Nat)
  | loadDataReturn (c : Nat)
  | writeBufferRoom (c : Nat)
  | writeBufferDrain (c : Nat)
  | drainAck (c ctx : Nat)
  | cpuCtlWrite (ses c v : Nat)
  -- tide and tasks
  | tdsStart (ses : Nat)
  | tdsStop (ses : Nat)
  | tdsHalt (ses : Nat)
  | tdsClear (ses : Nat)
  | rebaseDone (strand : Nat)
  | ebbPoint
  | inDeadline
  | floodStart
  | floodLatestReached
  | trigger
  | copyInDone (t sec : Nat)
  | completionFlag (t sec : Nat)
  | publish (t : Nat)
  | tskEnable (ses t : Nat)
  | tskDisable (ses t : Nat)
  | tskResume (ses t : Nat)
  | tskAbandon (ses t : Nat)
  | tskRelease (ses t : Nat)
  | keventsRead (ses : Nat)
  -- image
  | cut
  | cutCopyEnd
  | transmitWindowClose
  | launch
  | slackPoint
  | slackWindowEnd
  | forceSet (ses : Nat)
  | forceClear (ses : Nat)
  | forceRead (ses : Nat)
  | forceClearAll (ses : Nat)
  | imgCtlWrite (ses v : Nat)
  | retBlockSave (strand block : Nat)
  -- online change
  | olcLoad (ses : Nat)
  | olcLoadDone (ses : Nat)
  | olcVerify (ses : Nat)
  | verifyDone
  | olcPrepare (ses : Nat)
  | prepareVote (die : Nat) (yes : Bool)
  | olcCommit (ses : Nat)
  | olcAbort (ses : Nat)
  | olcRelease (ses : Nat)
  | olcRetreat (ses : Nat)
  | noQuiesce
  | bankSwitch (strand : Nat)
  | bankConfirm (strand : Nat)
  | confirmLost (strand : Nat)
  | olcCompletion
  | cutTideReceive (tide : Nat)
  | standbyVoteReceive (tide : Nat) (yes : Bool)
  | standbyVoteLate
  | partnerCommitToken (tide : Nat)
  | commitTokenMissing
  -- starts
  | resetRelease (bistOk : Bool) (flash0 flash1 : List Byte)
  | timeWaitExpiry
  | ntmLockWrite (ses v : Nat)
  | startConfirm
  | strColdNext (ses : Nat)
  | strRestartCold (ses : Nat)
  | strRestartWarm (ses : Nat)
  | strClearFails (ses : Nat)
  | secProvision (ses : Nat) (data : List Byte)
  -- field network
  | ebbTrainLaunch
  | armedSchedule
  | ebbFrameReceive (fr : Rx) (body : List Byte)
  | slackFrameReceive (fr : Rx) (body : List Byte)
  | transitFrame (fr : Rx) (cls : Nat) (body : List Byte)
  | eventFrame (fr : Rx) (body : List Byte)
  | serviceRoute (fr : Rx) (ses tag idx sub off : Nat) (data : List Byte)
  | serviceResponse (fr : Rx) (rid status reason : Nat) (data : List Byte)
  | routeTimeout (rid : Nat)
  | relayedServiceRequest (src tag port pos ses op idx sub off : Nat) (data : List Byte)
  | arpRequest (fr : Rx) (ip srcIp : Nat)
  | icmpEcho (fr : Rx) (ip srcIp : Nat) (data : List Byte)
  | hnwScan (ses : Nat)
  | hnwConfigure (ses : Nat)
  | hnwCmdDone
  | positionProbe (station : Nat)
  | portLinkChange (port : Nat) (up : Bool) (reg0 reg1 : Nat)
  -- network time
  | timeToken
  | ntmIncrWrite (ses v : Nat)
  | ntmSet (ses : Nat) (data : List Byte)
  | ntmOffset (ses v : Nat)
  | ntmOffsetForce (ses v : Nat)
  | ntmNsecRead (ses : Nat)
  | ptpReceive (fr : Rx) (frame : List Byte)
  | ptpRxRead (ses : Nat)
  | ptpTxSubmit (ses : Nat) (data : List Byte)
  | txStampRead (ses : Nat)
  | frameLaunch (port : Nat)
  | launchMiss (port : Nat)
  | gateChange (port : Nat)
  | gclActivate (ses port v : Nat)
  -- hot standby
  | mooringStatusSend
  | mooringStatusReceive (link : Nat) (m : Status)
  | peerAbsent
  | mooringLinkDown (link : Nat)
  | mooringRetrain (link lanes : Nat)
  | digestReceive (tide image : Nat) (parts : List Nat)
  | partitionReceive (tide part : Nat) (data : List Byte)
  | agreedReceive (tide : Nat)
  | dictationReceive (d : Dict)
  | replicatedWriteReceive (m : Repl)
  | outputDigestReceive (tide image : Nat) (parts : List Nat)
  | grantPairChange (grant grantN : Bool)
  | witnessStart
  | witnessHbTimeout (p : Nat)
  | witnessClaimAccept (p : Nat) (level : Bool)
  | witnessGrantDrive
  | witnessFault
  | redLeave (ses : Nat)
  | redResync (ses : Nat)
  | redSwitchover (ses : Nat)
  | redDrill (ses : Nat)
  | resyncPassEnd (left : Nat)
  | swapTokenReceive (tide : Nat)
  | switchoverDecide
  | drillTimer
  | returnHoldoffExpiry
  -- Breakwater
  | inputEdgeAccept (n : Nat) (rising : Bool) (stamp : Nat)
  | c1Status (r : C1)
  | diagSettleEnd (n : Nat)
  | fieldSupplyChange (grp : Nat) (present : Bool)
  | fieldConfigMessage (item v : Nat)
  | fieldRefresh
  | fieldPark
  | fieldRecover
  | silenceExpiry
  | fioPark (ses : Nat)
  | fioRecover (ses : Nat)
  | fioClearOvl (ses : Nat)
  | ovlSwitchOff (n : Nat)
  | thermalShutdown (n : Nat)
  | thermalRelease (n : Nat)
  | ovlRetry (n : Nat)
  | edgeLogRead (ses : Nat)
  -- message bus
  | mbcStart (ses k : Nat)
  | busIdleDetect (k : Nat)
  | mbcStop (ses k : Nat)
  | mbcRecover (ses k : Nat)
  | busRecovered (k : Nat)
  | mbcUnlock (ses k : Nat)
  | canFrameReceive (k : Nat) (f : CanFrame) (stamp : Nat)
  | sdoRequest (k : Nat) (data : List Byte)
  | sdoTimeout (k : Nat)
  | rdPop (ses k v : Nat)
  | rdLastWordRead (ses k : Nat)
  | txReq (ses k v : Nat)
  | txCancel (ses k v : Nat)
  | txStartOfFrame (k : Nat)
  | txAttemptEnd (k : Nat) (r : TxEnd)
  -- DMA
  | dmaStart (ses ch : Nat)
  | dmaStop (ses ch : Nat)
  | dmaPause (ses ch : Nat)
  | dmaResume (ses ch : Nat)
  | dmaAbort (ses ch : Nat)
  | dmaClear (ses ch : Nat)
  | dmaMove (ch : Nat)
  | dmaLoop (ch : Nat)
  | dmaWait (ch : Nat)
  | dmaSignal (ch : Nat)
  | dmaFence (ch : Nat)
  | dmaEnd (ch : Nat)
  | dmaReadbackDone (ch : Nat)
  | dmaWaitRelease (ch : Nat)
  | dmaWaitTimeout (ch : Nat)
  | dmaPauseDrained (ch : Nat)
  | dmaEventSet (ses v : Nat)
  -- Bedrock
  | bdrTxnBegin (ses : Nat)
  | bdrTxnCommit (ses : Nat)
  | bdrTxnDiscard (ses : Nat)
  | bdrCommitApplied
  | bdrUnlock (ses v : Nat)
  | bdrLock (ses v : Nat)
  | recDataRead (ses : Nat)
  | recDataWrite (ses : Nat) (data : List Byte)
  | inhibitChange (level : Bool)
  | wearSave
  -- calendar and reserve cell
  | bkPowerUp (ident : List Byte)
  | calCountWrite (ses v : Nat)
  | calShiftWrite (ses v : Nat)
  | shiftEnd
  | calEnd
  | convDateWrite (ses v : Nat)
  | convTicksWrite (ses v : Nat)
  | alarmArm (ses n v : Nat)
  | alarmFire (n : Nat)
  | calSupplyOn (ses : Nat)
  | calSupplyOff (ses : Nat)
  | wake
  | rsvTest (ses : Nat)
  | rsvReread (ses : Nat)
  | rsvTestInterval
  | rsvTestEnd (dv1 dv2 : Nat)
  | rsvTestAbort
  | stressUpdate (tempC volt : Int)
  | stressSave
  -- supervision
  | wdgKey (ses n v : Nat)
  | wdgCfgWrite (ses n : Nat) (period : Bool) (v : Nat)
  | wdgExpiry (n : Nat)
  | clockLoss (k : Nat)
  | clockRestored (k : Nat)
  | chkPeriodWrite (ses n v : Nat)
  | checkinArrival
  | checkinPeriodEnd
  | rawRecord
  | foldClose
  | notifyGapEnd
  | fltClearOut (ses : Nat)
  | fltFlush (ses : Nat)
  | fltRaise (ses v : Nat)
  | linkDown (die : Nat)
  -- observation
  | bwWindowEnd
  | bwWindowWrite (ses v : Nat)
  | tempSample (temps : List Int)
  | lifeSample
  | staRecordRead (ses : Nat)
  | staFreeze (ses : Nat)
  | staThaw (ses : Nat)
  | freezeMaxExpiry
  | staRaise (ses v : Nat)
  | snpFire (ses : Nat)
  | snpRelease (ses : Nat)
  | snpReleaseAll (ses : Nat)
  | tmkInEdge
  | snpAtReached
  | tidemarkLatch (die island : Nat)
  | tidemarkAck (die : Nat)
  | tmkOutEnd
  | hltTestReq (ses v : Nat)
  | healthTestSlice (failAt : Option Nat)
  | ageMeasure (ages : List Nat)
  -- power, clocks and reset
  | pwrDomainOff (ses d : Nat)
  | pdDrained (d : Nat)
  | pdDrainTimeout (d : Nat)
  | domainOffDone (d : Nat)
  | pwrDomainOn (ses d : Nat)
  | domainOnDone (d : Nat)
  | pwrReset (ses : Nat)
  | pwrSleep (ses : Nat)
  | coreFreqWrite (ses n v : Nat)
  | powerOn
  | resetPin (porst : Bool)
  | debugReset
  | brownout (rail : Nat)
  | refclkLoss
  | sdclkLoss
  | dieLinkRetrained (die : Nat)
  | regionLockoutEnd (r : Nat)
  | calTick
  | backupSupplyChange (present : Bool)
  | refclkRestored
  | sdclkRestored
  | witnessHbReturn (p : Nat)
  | scanNoAnswer (port : Nat)
  | relayedServiceResponse (rid status reason : Nat) (data : List Byte)
  | resyncDataReceive (x : Resync)
  | partnerPrepareReceive (hash : List Byte)
  | partnerDiscardToken
  | canRxError (k lec : Nat)
  deriving DecidableEq, Repr

end Sys2Proof
end

