-- ==== Sys2Proof/Config.lean ====
section
/-! DEFINITION. What a device fixes at manufacture and the spec does not number, and the free values: constants with
no body, so that nothing proved leans on a number chosen here. A function named "draw" is applied to the state's
count of draws, one value each. -/

namespace Sys2Proof

/-! ### The device -/

/-- Bytes of the boot ROM by offset (R20).
(DESIGN CHOICE, safe: log 73.) -/
opaque Config.romByte : Nat → Byte
/-- IDN.STEPPING (R25).
(DESIGN CHOICE, safe: log 73.) -/
opaque Config.stepping : Nat
/-- Stepping field of the debug port's IDCODE for a stepping after A1 (R557).
(DESIGN CHOICE, safe: log 73.) -/
opaque Config.idcodeStep : Nat
/-- IDN.SERIAL (R25).
(DESIGN CHOICE, safe: log 73.) -/
opaque Config.serial : Nat
/-- IDN.DIE_SERIAL by die bit (R25).
(DESIGN CHOICE, safe: log 73.) -/
opaque Config.dieSerial : Nat → Nat
/-- Default of HNW.MAC, derived from IDN.SERIAL by a rule the spec does not give (R299).
(DESIGN CHOICE, safe: log 73.) -/
opaque Config.mac : Nat → Nat
/-- Event numbers of a block that are given before any other, and the order in which its counters take them, by key (R495).
(DESIGN CHOICE, safe: log 67.) -/
opaque Config.eventLow : Nat → Nat → Bool
opaque Config.eventRank : Nat → Nat
/-- The 12-byte name of an event in PMC.CATALOG (R495).
(DESIGN CHOICE, safe: log 67.) -/
opaque Config.eventName : Nat → List Byte
/-- What an island of a die holds: 0 counters only, 1 sequencer, 2 core 0–3 of the die + 0x10, 3 DMA, 4 network time,
5 mooring, 6 fault collector, 7 Breakwater logic side (R510).
(DESIGN CHOICE, safe: log 68.) -/
opaque Config.islandKind : Nat → Nat → Nat
/-- The islands of a die, and the island of the die where a counter is whose block names none (R510).
(DESIGN CHOICE, safe: log 68.) -/
opaque Config.islands : Nat → List Nat
opaque Config.counterIsland : Nat → Nat
/-- The order of the values in an island's section, by the key of their object: die, island and key (R510).
(DESIGN CHOICE, safe: log 68.) -/
opaque Config.slotRank : Nat → Nat → Nat → Nat
/-- SNP.MAP of the die bit, number and objects of each island: R510 says what it holds and not how it is laid out.
(DESIGN CHOICE, safe: log 68.) -/
opaque Config.snpMap : List (Nat × Nat × List Nat) → List Byte
/-- Clocks of a span in which an occupancy that lies between two commands only in part exceeds its limit, by SRC, TARGET and N
(R497).
(DESIGN CHOICE, safe: log 129.) -/
opaque Config.busyClocks : Nat → Nat → Nat → Nat → Nat
/-- The content bytes of an island's section, from the values that SNP.MAP lists for it: R510 gives no widths.
(DESIGN CHOICE, safe: log 68.) -/
opaque Config.sectionBytes : Nat → Nat → List Nat → List Byte
/-- Slices of a SCRUB or MARCH of a die, whose SRAM the spec sizes only in part (R514).
(DESIGN CHOICE, safe: log 82.) -/
opaque Config.testSlices : Nat → Nat → Nat
/-- The slice of a SCRUB that covers a 64 KiB block of a die's SRAM, by the block's key (R514).
(DESIGN CHOICE, safe: log 82.) -/
opaque Config.scrubSlice : Nat → Nat
/-- The bytes of DIC.OEM_REQ from tag, session, role, index, subindex, operation and data, and the tag, status and data
that bytes written to DIC.OEM_ANS name: R58 lists their contents and gives no layout.
(DESIGN CHOICE, safe: log 29.) -/
opaque Config.oemReqBytes : List Nat → List Byte
opaque Config.oemAnsOf : List Byte → Option (Nat × Nat × Nat)
/-- Objects beyond the least of R510 that an island's section holds.
(DESIGN CHOICE, safe: log 68.) -/
opaque Config.islandExtra : Nat → Nat → List Nat

/-- The REASON code of HOLDUP, which R439 names and R60 gives no number.
(DESIGN CHOICE, safe: log 59.) -/
opaque Config.reasonHoldup : Nat

/-- The line or ring that a position-addressed request from an engineering port or from the partner goes to: its TARGET
names no port and R289 says no more.
(DESIGN CHOICE, safe: log 45.) -/
opaque Config.positionPort : Nat → Nat

/-- Further additions of 8 to an error count of a bus controller for dominant bits after an error flag, and whether a stuff
error fell into the arbitration field, where it adds nothing (R386): no row of the table tells either.
(PRESUMED, unsafe: log 57.) -/
opaque Config.busMore : Nat → Nat
opaque Config.arbStuff : Nat → Bool

/-- Replays of a mooring link in the last second (R363): no row of the table delivers them.
(DESIGN CHOICE, safe: log 51.) -/
opaque Config.linkReplays : Nat → Nat

/-- OLC.ACTIVE_HASH of a peer in RESYNC (R355): no message of R333 tells it.
(DESIGN CHOICE, safe: log 122.) -/
opaque Config.peerHash : Nat → List (BitVec 8)

/-- The status code that OLC.RESULT records beside a reason where no command returned one (R234, R258).
(DESIGN CHOICE, safe: log 81.) -/
opaque Config.olcStatus : Nat → Nat

/-- Whether the floating-point unit detects tininess after rounding: IEEE 754 lets each implementation choose (R120).
(DESIGN CHOICE, safe: log 19.) -/
opaque Config.tinyAfter : Bool

/-! ### Free values -/

/-- How much of the MOVE at its PC a channel has done when a command stops it (R422, R423, R425).
(DESIGN CHOICE, safe: log 58.) -/
opaque Config.dmaPart : Nat → Nat
/-- How many accesses of the 32 bytes of stream from DP a die that stopped answering has taken (R426).
(DESIGN CHOICE, safe: log 58.) -/
opaque Config.dmaTail : Nat → Nat

/-- Which page of its part of the device area a record of the device's own lies in (R432, R445).
(DESIGN CHOICE, safe: log 114.) -/
opaque Config.devicePage : Nat → Nat
/-- Addresses of the sequencer's programs on channels 0–7, and of memories that appear in no map (R408, R420).
(DESIGN CHOICE, safe: log 137.) -/
opaque Config.seqAddr : Nat → Nat

/-- Delay from a cut to the copy of its first line, in ns (R191).
(DESIGN CHOICE, safe: log 101.) -/
opaque Config.cutDelay : Nat → Nat
/-- Identification and time to live of a datagram that the switch sends (R291).
(DESIGN CHOICE, safe: log 98.) -/
opaque Config.ipIdent : Nat → Nat
opaque Config.ipTtl : Nat → Nat
/-- Address of the gateway of HNW.GATEWAY, and of a station or position that a request goes to: no rule tells how the switch
knows them (R264, R289, R291).
(DESIGN CHOICE, safe: log 98.) -/
opaque Config.gatewayMac : Nat → Nat
opaque Config.stationMac : Nat → Nat → Nat
/-- DATA of a response to a READ or WRITE that carries no value, by OP and STATUS (R287).
(DESIGN CHOICE, safe: log 100.) -/
opaque Config.rspData : Nat → Nat → Nat

/-- Delay between a flood start or trigger and the release decision, in ns (R149, R501).
(DESIGN CHOICE, safe: log 33.) -/
opaque Config.releaseDelay : Nat → Nat
/-- Delay of a cell's visit by a rebase after its START, in µs (R213).
(DESIGN CHOICE, safe: log 39.) -/
opaque Config.rebaseVisit : Nat → Nat → Nat
/-- Whether two instants no more than 1 ns apart lie in the same Headland clock: instants count whole nanoseconds (R491).
(DESIGN CHOICE, safe: log 66.) -/
opaque Config.sameClock : Nat → Nat → Bool
/-- Which way of a set an allocation of the instruction or data cache replaces (R88, R89).
(DESIGN CHOICE, safe: log 20.)
(DESIGN CHOICE, safe: log 21.) -/
opaque Config.victim : Nat → Nat

end Sys2Proof
end

