-- ==== Sys2Proof/Machine/State.lean ====
section
/-! DEFINITION. The state of one Axoskol package as plain data, the reasons a step can stop, and the state
after reset. Tables that are mostly at their default (registers, memories, objects, stations, sessions) are
sparse maps in one canonical form: keys strictly rising, no entry equal to the default of its key. -/

namespace Sys2Proof.Machine

/-- Why a step stops with a fault. No meaning of this model raises one: every event the spec lists has an
effect it describes. Safe: nothing is claimed of a machine that stopped. -/
inductive Fault where
  /-- Raised by no meaning. Kept so that the interface has a named reason. Safe. -/
  | unreachable
  deriving DecidableEq, Repr

/-- Why a step gives no meaning. -/
inductive Refusal where
  /-- Raised by an arm of exec whose row has no meaning yet. Safe: nothing is claimed of it. -/
  | notModelled (mnemonic : String)
  deriving DecidableEq, Repr

/-- The five variants (R1). Fixed for a device: no command changes it. -/
inductive Part where
  | axk2l | axk4 | axk4f | axk7 | axk8f
  deriving DecidableEq, Repr

/-! ### Voxrax cores (R61–R136) -/

/-- CSTATE of R73. -/
inductive CState where
  | free | ready | running | preempted | gated | halted
  deriving DecidableEq, Repr

/-- What a context's next instruction waits for (R91, R93); loads: a FENCE that has its drain acknowledgement, and waits for loads
of its context. -/
inductive Wait where
  | none | sync | fence | loads | endSection | store
  deriving DecidableEq, Repr

/-- One byte of a write-buffer entry: its offset in the word, its value, the context that stored it, the address stored
to, the store instruction's address, and the task section it ran for (R91). -/
structure WbByte where
  off : Nat
  val : Byte
  ctx : Nat
  addr : Nat
  pc : Word
  task : Nat
  sec : Nat
  deriving DecidableEq, Repr

/-- A write-buffer entry: one aligned 8-byte word with the bytes in its mask, the latest written last; `begun` where it has begun to
drain and the image store holds it back (R91, R190). -/
structure WbEntry where
  word : Nat
  bytes : List WbByte
  begun : Bool
  deriving DecidableEq, Repr

/-- One hardware context (R65, R66, R69, R73). -/
structure Ctx where
  g : SMap Word
  f : SMap DWord
  pc : Word
  /-- STATUS s1, TRAPMASK s2, FPCR s3, STKLO s7, STKHI s8, KFV s9, MBASE s12–15, MLEN s16–19, BCNT s20,
  BSRC s21, BDST s22, BSTEP s23, TIMEH s25, under their numbers of R66. -/
  sr : SMap Word
  task : Nat
  sec : Nat
  npOpen : Bool
  npcnt : Nat
  finfo : Word
  fpc : Word
  faddr : Word
  cs : CState
  wait : Wait
  /-- Entries that a store is waiting for room to make (R91). -/
  stall : List WbEntry
  /-- General registers before a store that waits for room: it is not complete until it has entered (R91, R473). -/
  prior : SMap Word
  /-- Delayed bus errors, each with FPC and FADDR, that wait for the end of the instruction the context is in (R91). -/
  late : List (Word × Nat)
  /-- Order of the release that loaded the context (R152). -/
  relSeq : Nat
  /-- The instruction at PC is an RPT instruction that has begun (R87). -/
  rep : Bool
  /-- Address of the latest instruction executed. -/
  lastPc : Word
  deriving DecidableEq, Repr

/-- A context as it stands after reset: every register 0, FREE.
(DESIGN CHOICE, unsafe: log 2.) -/
def Ctx.init : Ctx :=
  { g := [], f := [], pc := 0, sr := [], task := 0, sec := 0, npOpen := false, npcnt := 0, finfo := 0,
    fpc := 0, faddr := 0, cs := .free, wait := .none, stall := [], prior := [], late := [], relSeq := 0, rep := false,
    lastPc := 0 }

/-- A load whose data has not returned: destination 0–31 a g register, 32–47 an f register (R70, R93). -/
structure Flight where
  ctx : Nat
  dst : Nat
  wide : Bool
  val : Nat
  /-- Address of the load, and the address it reads. -/
  pc : Word
  addr : Nat
  /-- Its width in bytes, and the bits its value is sign-extended from, 0 for none (R115). -/
  n : Nat
  ext : Nat
  /-- The request of the OEM range whose answer it waits for (R57). -/
  tag : Option Nat
  /-- General registers before the instruction: a bus error leaves no effect of it (R97). -/
  before : SMap Word
  deriving DecidableEq, Repr

/-- What one core holds beside its contexts: the write buffer, loads in flight and the resident lines of its
caches, most recently used first (R63, R88, R89, R91). -/
structure CoreSt where
  wbuf : List WbEntry
  flight : List Flight
  icache : List Nat
  dcache : List Nat
  bcache : List Nat
  /-- Lines whose copy in a cache has a parity error, and those whose copy holds a double-bit error of SRAM (R90). -/
  parity : List Nat
  double : List Nat
  deriving DecidableEq, Repr

def CoreSt.init : CoreSt :=
  { wbuf := [], flight := [], icache := [], dcache := [], bcache := [], parity := [], double := [] }

/-! ### Dictionary engine (R28–R60, R563) -/

/-- DIC.TXN read states of R60. -/
inductive TxnSt where
  | idle | open | voting | pending | done | failed
  deriving DecidableEq, Repr

/-- A staged write (R46). -/
structure Staged where
  idx : Nat
  sub : Nat
  width : Nat
  v : Nat
  deriving DecidableEq, Repr

/-- A domain transfer (R55): the object, its direction, the record it captured at its opening where the
object is a queue, and the bytes written so far. -/
structure Xfer where
  key : Nat
  write : Bool
  cap : Option (List Byte)
  wr : SMap (Option Byte)
  deriving DecidableEq, Repr

/-- Where a response goes: the requester's MAC address, and its IP address and UDP port where the request came in a datagram
(R264, R291). -/
structure Peer where
  mac : Nat
  udp : Option (Nat × Nat)
  deriving DecidableEq, Repr

/-- A service request as its response repeats it: the port it came in on, its sender, its OP, INDEX and SUB as a key, and OFFSET
(R287). -/
structure Svc where
  port : Nat
  peer : Peer
  tag : Nat
  op : Nat
  key : Nat
  off : Nat
  deriving DecidableEq, Repr

/-- One session (R37): everything the spec marks "own session". -/
structure Ses where
  open_ : Bool
  /-- Path of R35: the source of a Huatur session. -/
  path : Nat
  role : Nat
  result : Nat
  txn : TxnSt
  staged : List Staged
  conflict : List Nat
  dies : List Nat
  yes : List Nat
  /-- Dies that refused, each with its reason (R49) and the object refused. -/
  no : List (Nat × Nat × Nat)
  /-- Order in which the engine received the COMMIT (R54). -/
  order : Nat
  slack : Bool
  applied : List Nat
  confirmed : List Nat
  dom : Option Xfer
  domOff : Nat
  /-- TAG of the previous request, the requests whose response is still due, and the last response's body (R288). -/
  lastTag : Option Nat
  due : List Svc
  rsp : List Byte
  /-- mono of the session's latest request, and of its BEGIN or COMMIT (R37, R48, R52). -/
  idleAt : Nat
  txnAt : Nat
  sec : Nat
  forceSel : Nat
  forceKey : Nat
  forceVal : Nat
  recSel : Nat
  recStatus : Nat
  convDate : Nat
  convTicks : Nat
  pmcSel : Nat
  cursor : Nat
  gap : Nat
  raiseClass : Nat
  snpSel : Nat
  bdrRead : Nat
  bdrWrite : Nat
  deriving DecidableEq, Repr

/-- CAL.CONV_DATE of 2000-01-01 (R454). -/
def dateDefault : Nat := 2000 * 2 ^ 48 + 1 * 2 ^ 44 + 1 * 2 ^ 39 + 5 * 2 ^ 19

/-- A session as it opens: Observer, nothing staged (R33, R37). -/
def Ses.init : Ses :=
  { open_ := false, path := 0, role := 0, result := 0, txn := .idle, staged := [], conflict := [], dies := [],
    yes := [], no := [], order := 0, slack := false, applied := [], confirmed := [], dom := none, domOff := 0, lastTag := none,
    due := [], rsp := [], idleAt := 0, txnAt := 0, sec := 0, forceSel := 0, forceKey := 0, forceVal := 0,
    recSel := 0, recStatus := 0, convDate := dateDefault, convTicks := 0, pmcSel := 0, cursor := 0, gap := 0,
    raiseClass := 0, snpSel := 0, bdrRead := 0, bdrWrite := 0 }

/-- A request in the OEM queue, taken or not (R57). -/
structure OemReq where
  tag : Nat
  ses : Nat
  role : Nat
  idx : Nat
  sub : Nat
  write : Bool
  v : Nat
  taken : Bool
  /-- mono at which it entered. -/
  at_ : Nat
  deriving DecidableEq, Repr

/-- Failed logins and lockouts of one path (R35): mono of each failure in the window, or of the lockout. -/
structure Path where
  fails : List Nat
  locked : Bool
  deriving DecidableEq, Repr

def Path.init : Path := { fails := [], locked := false }

/-- What the dictionary engine holds beside its sessions: the OEM queue, its next tag, and the paths of R35. -/
structure Dic where
  oem : List OemReq
  oemTag : Nat
  paths : SMap Path
  deriving DecidableEq, Repr

/-! ### Tide sequencer and image store (R137–R203, R564) -/

/-- TDS.STATE.STATE of R169. -/
inductive TideSt where
  | stopped | armed | running | stopping | halted
  deriving DecidableEq, Repr

/-- TSK.STATE.STATE of R167. -/
inductive TaskSt where
  | disabled | idle | copyIn | active | copyBack | halted
  deriving DecidableEq, Repr

/-- One task's own state (R162–R167, R174). -/
structure Task where
  st : TaskSt
  flags : Nat
  /-- Held releases: ns count of the flood start or trigger behind each (R162, R501). -/
  held : List Nat
  hsec : Nat
  disPend : Bool
  relSeq : Nat
  relAt : Nat
  relTide : Nat
  /-- Sections whose copy-in has completed. -/
  inDone : List Nat
  /-- Order of the copy-back in progress. -/
  cbSeq : Nat
  /-- The copy-back has met a dirty line in the transmit window and is held (R190). -/
  cbHeld : Bool
  /-- Sections whose END has its drain acknowledgement and whose flag is due (R158). -/
  ended : List Nat
  /-- A HALT of the tide halted the task: no section of it starts (R145). -/
  tideHalt : Bool
  deriving DecidableEq, Repr

def Task.init : Task :=
  { st := .disabled, flags := 0, held := [], hsec := 0, disPend := false, relSeq := 0, relAt := 0, relTide := 0,
    inDone := [], cbSeq := 0, cbHeld := false, ended := [], tideHalt := false }

/-- A copy-in decided and not yet complete (R155). -/
structure CopyIn where
  task : Nat
  sec : Nat
  seq : Nat
  /-- Input lines that a later flood start has replaced, as they stood at the release. -/
  old : List (Nat × List Byte)
  deriving DecidableEq, Repr

/-- A rebase of one Strand's timers under way: the microsecond count at its START, the draw that fixes its visits, the cell
it visits next and the count at its latest visit (R213). -/
structure Rebase where
  strand : Nat
  start : Nat
  seed : Nat
  next : Nat
  last : Nat
  deriving DecidableEq, Repr

/-- An operation that the image store holds for the transmit window (R190, R564). -/
inductive HeldOp where
  | write (off : Nat) (bytes : List Byte)
  | publish (t : Nat)
  | force (c : FChange)
  deriving DecidableEq, Repr

/-- The sequencer's own state. -/
structure Tds where
  st : TideSt
  phase : Nat
  swin : Bool
  /-- The slack point of this tide has passed. -/
  slacked : Bool
  /-- ns count of the latest ebb point, and of the next. -/
  ebbAt : Nat
  nextEbb : Nat
  /-- No ebb point has passed since the START. -/
  first : Bool
  stopEbbs : Nat
  inputDone : Bool
  agreed : Bool
  flooded : Bool
  cutDone : Bool
  launched : Bool
  rebase : List Rebase
  /-- TIDE64 + 1 of the latest cut. -/
  lastCut : Nat
  sharingSeen : List (Nat × Nat)
  seq : Nat
  hold : Bool
  /-- Triggers that a commit holds back, each with the ns count at which it reached the Headland (R240). -/
  heldEv : List (Nat × Nat × Nat)
  copyIns : List CopyIn
  forceQ : List (Nat × FChange)
  trigQ : List (Nat × Nat)
  /-- mono at which TDS.STATE became RUNNING. -/
  runSince : Nat
  deriving DecidableEq, Repr

/-- A cut that waits behind the one in progress: its tide, its instant, the lines dirty at it, and the instant from which they may
be copied (R191, R564). -/
structure CutWait where
  tide : Nat
  at_ : Nat
  lines : List Nat
  copyAt : Nat
  deriving DecidableEq, Repr

/-- The image store: lines waiting to merge, dirty lines, the transmit window, the cut in progress with the lines it has yet to
copy and those behind it, what it holds back, and the force table (R180, R189, R190, R193). -/
structure Img where
  pend : List Nat
  dirty : List Nat
  txw : Bool
  cutWait : Bool
  cutLines : List Nat
  cutAt : Nat
  copying : Bool
  /-- TDS.TIDE of the cut, the ns count from which its lines are copied, and how many have been (R191, R564). -/
  cutTide : Nat
  copyAt : Nat
  copyN : Nat
  cutNext : List CutWait
  /-- Operations held back, in their order; with the place among releases and publishes of one that waits only for copy-ins
  decided before the window let it go (R155, R187). -/
  held : List (Option Nat × HeldOp)
  forces : SMap Force
  /-- ORPHAN of every entry that the table does not list (R199). -/
  orphan0 : Bool
  deriving DecidableEq, Repr

/-! ### Online change and starts (R225–R261) -/

/-- OLC.STATE.STATE of R257. -/
inductive OlcSt where
  | idle | loading | loaded | verifying | verified | prepared | committing | committed | retreating
  deriving DecidableEq, Repr

/-- An EDGE_INIT entry that waits for its task's first copy-in (R222, R231). -/
structure EdgeInit where
  flags : Nat
  obit : Nat
  nbit : Nat
  old : Nat
  new_ : Nat
  task : Nat
  deriving DecidableEq, Repr

/-- The online-change unit (R234–R246, R257, R258). -/
structure Olc where
  st : OlcSt
  abortLate : Bool
  retreatOk : Bool
  status : Nat
  reason : Nat
  detail : Nat
  dies : Nat
  disabled : Nat
  /-- Image bytes written: first and one past the last, in the order written. -/
  written : List (Nat × Nat)
  bankWritten : List Nat
  ask : List Nat
  yes : List Nat
  /-- Refusing dies, each with the order of its reason in R237: 1 DOMAIN_OFF, 2 BANK_WRITTEN, 3 KIND_CHANGE,
  4 VOTE_TIMEOUT, 5 PARTNER. -/
  no : List (Nat × Nat)
  /-- Session whose PREPARE waits for the votes. -/
  asker : Option Nat
  tested : Nat
  /-- A tide has begun since COMMIT or RETREAT was accepted (R239). -/
  nextTide : Bool
  retreat : Bool
  cand : Option Nat
  point : Bool
  /-- Strands that have switched, those whose confirmation is in, and those that did not confirm. -/
  switched : List Nat
  confirmed : List Nat
  lost : List Nat
  /-- The moves and relocations of R241 are made. -/
  moved : Bool
  late : Bool
  token : Option Nat
  voted : Bool
  edgeInits : List EdgeInit
  /-- Active bank of each Strand, one bit a Strand: 0 bank A, 1 bank B. -/
  active : Nat
  /-- Strands whose active bank holds no code since their power-up (R523), one bit a Strand. -/
  blank : Nat
  prevObjs : SMap Nat
  prevDoms : SMap (List Byte)
  prevOwners : SMap Nat
  prevRetain : Nat
  prevMapBed : List (Nat × Nat)
  /-- Bedrock ranges, offset and length, that the running program's state map fills (R233). -/
  mapBed : List (Nat × Nat)
  deriving DecidableEq, Repr

/-- One start attempt of STR.RECORD (R254, R259). -/
structure Attempt where
  secs : Nat
  typ : Nat
  result : Nat
  step : Nat
  reason : Nat
  hash : List Byte
  deriving DecidableEq, Repr

/-- The start sequence: its step and type, its record, the flashes it reads, fuses and keys, and what Bedrock retains for it
(R247–R261). -/
structure Str where
  step : Nat
  typ : Nat
  notime : Bool
  service : Bool
  reason : Nat
  coldNext : Bool
  keeper : Bool
  recs : List Attempt
  flash0 : List Byte
  flash1 : List Byte
  bistOk : Bool
  fuses : Nat
  keyBoot : List Byte
  keyProg : List Byte
  retainValid : Bool
  retainId : Nat
  retainObjs : SMap Nat
  /-- Retained octet strings and domains. -/
  retainDoms : SMap (List Byte)
  cfgValid : Bool
  cfgObjs : SMap Nat
  retainForces : SMap Force
  deriving DecidableEq, Repr

/-! ### Field network and network time (R262–R330) -/

/-- HST.STATE.STATE of R283. -/
inductive StaSt where
  | absent | configuring | operational | lost | mismatch | returned
  deriving DecidableEq, Repr

/-- One station as the switch sees it. -/
structure Sta where
  st : StaSt
  status : Nat
  accepted : Bool
  /-- Consecutive tides with no accepted segment. -/
  miss : Nat
  /-- A returned SLACK segment has been seen this tide, and one with DONE. -/
  outSeen : Bool
  outDone : Bool
  /-- HST.EXPECT has been written since the station read MISMATCH. -/
  expectNew : Bool
  deriving DecidableEq, Repr

def Sta.init : Sta :=
  { st := .absent, status := 0, accepted := false, miss := 0, outSeen := false, outDone := false,
    expectNew := false }

/-- What a frame waiting at a port is. -/
inductive FKind where
  | ebb | slack | schedule | transit | service | ptp | arp | icmp
  deriving DecidableEq, Repr

/-- A frame waiting at a port: its addresses, tag and EtherType, the fields of its Huatur header, and its body (R264, R267, R268,
R312, R320). -/
structure TxF where
  cls : Nat
  kind : FKind
  launch : Option Nat
  /-- Bytes from destination address to FCS. -/
  len : Nat
  dst : Nat
  src : Nat
  /-- PCP and VID of its 802.1Q tag. -/
  vtag : Option Nat
  etype : Nat
  typ : Nat
  pair : Nat
  partner : Nat
  turned : Bool
  turn : Nat
  count : Nat
  tide : Nat
  index : Nat
  seq : Nat
  /-- The counter that its SEQ is taken from as it leaves; none where it has its number, or has none (R270). -/
  seqOf : Option Nat
  point : Nat
  last : Bool
  grant : Bool
  dir : Bool
  stamp : Bool
  oneStep : Bool
  tag : Nat
  /-- Stations of its segments with the data of each. -/
  segs : List (Nat × List Byte)
  body : List Byte
  /-- IP address and UDP port that a response goes to (R291). -/
  udp : Option (Nat × Nat)
  /-- The port that a frame in transit came in on, and its ingress timestamp (R315). -/
  inPort : Nat
  inAt : Nat
  /-- Its launch time had passed as it was queued (R321). -/
  late : Bool
  /-- A frame held at its launch until the cut's copies are made (R191). -/
  held : Bool
  /-- Its bytes from the destination address on, without FCS, as it left. -/
  wire : List Byte
  deriving DecidableEq, Repr

def TxF.init : TxF :=
  { cls := 3, kind := .service, launch := none, len := 64, dst := 0, src := 0, vtag := none, etype := 0, typ := 0, pair := 0,
    partner := 0, turned := false, turn := 0, count := 0, tide := 0, index := 0, seq := 0, seqOf := none, point := 0,
    last := false, grant := false, dir := false, stamp := false, oneStep := false, tag := 0, segs := [], body := [], udp := none,
    inPort := 0, inAt := 0, late := false, held := false, wire := [] }

/-- A routed request (R289). -/
structure Route where
  rid : Nat
  src : Nat
  /-- The port that an engineering request came in on, and its sender. -/
  eng : Nat
  peer : Peer
  tag : Nat
  /-- 0 an engineering port's request, 1 SCAN, 2 CONFIGURE, 3 a probe, 4 one relayed for the partner. -/
  use : Nat
  /-- Line port, or port 2k of a ring, that it leaves by. -/
  port : Nat
  /-- Addressed by position rather than by station number, and the number. -/
  byPos : Bool
  num : Nat
  ses : Nat
  op : Nat
  idx : Nat
  sub : Nat
  off : Nat
  data : List Byte
  deriving DecidableEq, Repr

/-- A running SCAN: its line or ring's port, the position read and the values so far (R286). -/
structure Scan where
  port : Nat
  pos : Nat
  /-- 0 reading vendor, 1 product, 2 number. -/
  stage : Nat
  vendor : Nat
  product : Nat
  deriving DecidableEq, Repr

/-- The station that CONFIGURE is at: its step in R286's order, and the identity read so far. -/
structure Conf where
  station : Nat
  stage : Nat
  vendor : Nat
  deriving DecidableEq, Repr

/-- What the requester of a routed service request was answered (R289): requester, tag, status, reason, data. -/
structure Answer where
  src : Nat
  tag : Nat
  status : Nat
  reason : Nat
  data : List Byte
  deriving DecidableEq, Repr

/-- The field network switch: stations, queues, rings, SCAN and CONFIGURE, routed requests, and links (R262–R300). -/
structure Hnw where
  sta : SMap Sta
  txq : SMap (List TxF)
  /-- The latest frame each port sent. -/
  lastTx : SMap TxF
  seqs : SMap Nat
  /-- HNW.CMD_STATE (R299). -/
  cmd : Nat
  scans : List Scan
  /-- Stations CONFIGURE has still to visit, and the one it is at. -/
  conf : List Nat
  confAt : List Conf
  mism : Bool
  routes : List Route
  nextRid : Nat
  /-- Position-addressed requests partner B has passed to partner A (R290). -/
  relayed : List Route
  answers : List Answer
  /-- Ports whose link is up, and the PHY registers read at the latest change (R554). -/
  up : Nat
  phy : SMap Nat
  /-- One more than the station that turns frames sent on port 2k, and on port 2k+1, by ring (R295). -/
  turn0 : SMap Nat
  turn1 : SMap Nat
  ringSt : SMap Nat
  /-- HNW.RING of each ring as the latest RING_BROKEN or RING_RESTORED record told it (R295). -/
  ringTold : SMap Nat
  /-- Elapsed time at which each port's latest frame ends on the wire, and the class of that frame (R293, R321). -/
  busyTo : SMap Nat
  busyCls : SMap Nat
  /-- One more than EVSEQ of the latest accepted EVENT of each station. -/
  evseq : SMap Nat
  /-- Slack frames of this tide that have left: elapsed time at the last byte, port, one more than the index (R333). -/
  ackIndex : List (Nat × Nat × Nat)
  /-- ns count of the latest accepted EBB segment of this tide, by the port it came in on, plus one (R501). -/
  ebbLast : SMap Nat
  /-- The ebb trains of this tide have been queued (R274). -/
  ebbSent : Bool
  deriving DecidableEq, Repr

/-- A receive record of R311. -/
structure PtpRec where
  port : Nat
  stepgen : Nat
  len : Nat
  sec : Nat
  nsec : Nat
  frame : List Byte
  deriving DecidableEq, Repr

/-- An egress timestamp record of R313. -/
structure Stamp where
  tag : Nat
  stepgen : Nat
  port : Nat
  sec : Nat
  nsec : Nat
  deriving DecidableEq, Repr

/-- The operating gate control list of one port, and its gates (R323–R326). -/
structure Gate where
  oper : List Byte
  base : Nat
  cycle : Nat
  pending : Bool
  /-- First cycle start of the schedule that waits (R326). -/
  swapAt : Nat
  g2 : Bool
  g3 : Bool
  deriving DecidableEq, Repr

def Gate.init : Gate :=
  { oper := [], base := 0, cycle := 1000000, pending := false, swapAt := 0, g2 := true, g3 := true }

/-- The network time clock (R301, R207) and what hangs on it. -/
structure Ntm where
  sec : Nat
  nsec : Nat
  frac : Nat
  usec : Nat
  /-- Local copies of the microsecond count, by die of IDN.FITTED (R18). -/
  die : SMap Nat
  /-- One more than the µs of the latest time token (R18). -/
  tok : Nat
  /-- ns that have passed since AO powered up: what watchdogs and time limits are measured by (R469). -/
  mono : Nat
  rx : List PtpRec
  stamps : List Stamp
  gates : SMap Gate
  /-- Accepted steps, as INTEGER64 values in their order, that the next tick adds (R305, R307). -/
  steps : List Nat
  deriving DecidableEq, Repr

/-! ### Hot standby (R331–R363) -/

/-- RED.STATE.ROLE of R361. -/
inductive Role where
  | off | joining | unsynced | resync | standby | active | witness
  deriving DecidableEq, Repr

/-- A grant pair state (R345). -/
inductive PairSt where
  | denied | valid | invalid
  deriving DecidableEq, Repr

/-- HOLDER of R347. -/
inductive Holder where
  | none | a | b
  deriving DecidableEq, Repr

/-- A release, frame or edge of the standby's own, kept for 50 µs (R338, R351). -/
structure OwnEv where
  at_ : Nat
  ev : Dict
  deriving DecidableEq, Repr

/-- The witness of R347 and R349. -/
structure Wit where
  holder : Holder
  started : Bool
  /-- The two copies have disagreed: both pairs stay INVALID. -/
  fault : Bool
  aliveA : Bool
  aliveB : Bool
  claimA : Bool
  claimB : Bool
  pairA : PairSt
  pairB : PairSt
  /-- A move waits for the new holder's VALID. -/
  move : Bool
  deriving DecidableEq, Repr

/-- A message of classes 3 to 5 on the mooring links (R333): a tide's input digests, a partition of the image with its bytes,
AGREED, a tide's output digests; a swap token, PREPARE with the image hash and the answer to it, the tide of a candidate cut and
the vote for it, the commit and discard tokens; and what a resynchronisation pass copies. -/
inductive MoorMsg where
  | inDigest (tide image : Nat) (parts : List Nat)
  | partition (tide part : Nat) (data : List Byte)
  | agreed (tide : Nat)
  | outDigest (tide image : Nat) (parts : List Nat)
  | swapToken (tide : Nat)
  | prepare (hash : List Byte)
  | prepareVote (yes : Bool)
  | cutTide (tide : Nat)
  | vote (tide : Nat) (yes : Bool)
  | commitToken (tide : Nat)
  | discardToken
  | pass (n : Nat) (data : List Resync)
  deriving DecidableEq, Repr

/-- A partner of a pair: its role, its grant, what it has sent and received this tide, and the witness (R331–R363). -/
structure Red where
  role : Role
  reason : Nat
  pair : PairSt
  grant : Bool
  frozen : Bool
  fenced : Bool
  hb : Bool
  claim : Bool
  peer : Bool
  peerSt : Status
  /-- The latest status message sent (R333). -/
  mine : Option Status
  /-- Elapsed time at which the return hold-off ends (R358), and at which the next drill is due (R357). -/
  holdoff : Option Nat
  drillAt : Option Nat
  /-- Tide named by a swap token, and the handover from its slack point on (R357). -/
  swap : Option Nat
  /-- The slack point has passed, and frames of the active partner's last trains have still to leave. -/
  swapDue : Bool
  /-- From then on: the partner gives its grant up, or asks for it. -/
  giving : Bool
  taking : Bool
  /-- Tide in which the pair's changeover keeps this partner from dictating. -/
  mute : Option Nat
  /-- A drill or return postponed to the next tide. -/
  swapWant : Bool
  /-- State (0 DOWN, 1 TRAINING, 2 UP) and lanes of link 0 and link 1 (R363). -/
  linkSt : SMap Nat
  lanes : SMap Nat
  /-- Links that have gone down and not come back. -/
  wasDown : Nat
  peerDig : Option (Nat × Nat × List Nat)
  outDig : Option (Nat × Nat × List Nat)
  myOut : Option (Nat × Nat × List Nat)
  /-- Tide whose input digests have been sent, and the tide for which AGREED has been sent. -/
  digSent : Option Nat
  agreedSent : Option Nat
  divTide : Option Nat
  /-- Tide of a failover or a planned switchover, and of the switchover alone. -/
  changeTide : Option Nat
  swapTide : Option Nat
  /-- Δ of this tide's takeover in ns (R352). -/
  shift : Nat
  lateTide : Option Nat
  own : List OwnEv
  dictated : List OwnEv
  repl : List Repl
  /-- Messages of class 2, and of classes 3 to 5, sent since the latest status message. -/
  sent : List Dict
  replSent : List Repl
  msgs : List MoorMsg
  /-- The active partner's memory as the present pass began: a block is dirty that differs from it (R356). -/
  passMem : List Host.Cell
  /-- The peer's OLC.ACTIVE_HASH differs: banks, owner tags and task tables are copied too (R355). -/
  progSync : Bool
  /-- RESYNC passes ended, and the final pass waits for its quiescent cut. -/
  pass : Nat
  finalWait : Bool
  /-- HB_STOP of R490. -/
  stop : Bool
  wit : Wit
  deriving DecidableEq, Repr

/-! ### Breakwater, message bus, DMA, Bedrock (R364–R450) -/

/-- What the latest C1 report that the logic side received said of the field side (R364, R371, R383, R385). -/
structure FioRep where
  fstate : Nat
  la : Bool
  lb : Bool
  off : Nat
  thermal : Nat
  /-- Levels applied. -/
  applied : Nat
  deriving DecidableEq, Repr

/-- Breakwater: the logic side, the couplers and the field side (R364–R385). -/
structure Fio where
  /-- FSTATE of R373: 0 PARKED, 1 RUN, 2 SAFE, 3 UNPOWERED. -/
  fstate : Nat
  la : Bool
  lb : Bool
  /-- Configuration items sent over C0 and not yet acknowledged (R367). -/
  cfgPend : List Nat
  /-- The field side's copy of each item, plus one; 0 where it holds none. -/
  fieldCfg : SMap Nat
  holdPark : Bool
  overlap : Bool
  /-- Raw levels of the input couplers as sampled at the latest C1 report, and the microsecond count of that sample (R368). -/
  raw : Nat
  rawAt : Nat
  /-- For each input, the microsecond count of the first sample that a run of its filter may begin with (R369). -/
  runFrom : SMap Nat
  filt : Nat
  /-- Edges accepted since the latest latch. -/
  rise : Nat
  fall : Nat
  log : List (Nat × Nat × Bool)
  line : List Byte
  dictLine : Option (List Byte)
  out : Nat
  /-- Channel 7's read of the latest cut's output line halted: no refresh takes it (R374, R410). -/
  outBad : Bool
  couplers : Nat
  /-- Messages on C0 not yet received: 1 REFRESH, 2 PARK, 3 RECOVER. -/
  c0 : List Nat
  /-- The level the field side commands on each channel: its latched couplers in RUN, its safe states in SAFE. -/
  cmd : Nat
  /-- RECOVER received: the next REFRESH returns to RUN. -/
  recovered : Bool
  limit : Nat
  thermal : Nat
  off : Nat
  /-- Channels switched off whose command has since been 0 at a refresh. -/
  offSeen0 : Nat
  /-- COUPLER of the input couplers, and from bit 16 of the output couplers (R365). -/
  coupler : Nat
  misIn : SMap Nat
  misOut : SMap Nat
  volt : SMap Nat
  /-- For each channel, the mono at which the suppression of its diagnostics ends (R381). -/
  settle : SMap Nat
  wb : Nat
  ext : Nat
  /-- FIO.OUT_DIAG as latched at the latest ebb point. -/
  diag : SMap Nat
  /-- mono of the latest REFRESH received. -/
  refAt : Nat
  /-- One more than the mono since which a channel is in current limit, and at which one was switched off for it (R377). -/
  limitAt : SMap Nat
  offAt : SMap Nat
  /-- What the field side has still to report over C1: its power-up, entries into SAFE, and switch-offs with their causes. -/
  upNew : Bool
  safeDue : Nat
  ovlDue : List (Nat × Nat)
  rep : FioRep
  deriving DecidableEq, Repr

/-- MBC.STATE.MODE of R404. -/
inductive MbcMode where
  | config | run | busOff | recovering
  deriving DecidableEq, Repr

/-- A stored element of the message RAM (R389). -/
structure Elem where
  stamp : Nat
  id : Nat
  form : Nat
  data : List Byte
  deriving DecidableEq, Repr

/-- A transmit buffer's state (R397–R399, R407); `ended` marks a standby's buffer that its own controller has ended (R402). -/
structure TxBuf where
  pend : Bool
  result : Nat
  late : Bool
  cause : Nat
  fails : Nat
  ended : Bool
  deriving DecidableEq, Repr

def TxBuf.init : TxBuf := { pend := false, result := 0, late := false, cause := 0, fails := 0, ended := false }

/-- A segmented SDO transfer (R400). -/
structure SdoXfer where
  key : Nat
  down : Bool
  toggle : Bool
  data : List Byte
  deriving DecidableEq, Repr

/-- One message bus controller (R386–R407). -/
structure Mbc where
  mode : MbcMode
  /-- START accepted and 11 recessive bits not yet seen. -/
  starting : Bool
  /-- STOP accepted while a frame of its own is in progress. -/
  stopping : Bool
  tec : Nat
  recCnt : Nat
  lec : Nat
  ded : SMap (Option Elem)
  fifo0 : List Elem
  fifo1 : List Elem
  /-- The window's element, whether its last word is unread, and its source where it is locked. -/
  win : Option Elem
  winUnread : Bool
  locked : Option Nat
  /-- Transmit buffers 0–2, and 3 the SDO response slot. -/
  tx : SMap TxBuf
  /-- The buffer whose attempt is on the bus, and the ns count of its start of frame. -/
  cur : Option Nat
  curAt : Nat
  sdo : Option SdoXfer
  /-- The engine's answer that the SDO server waits for: key, and the response to an accepted download; none for an upload
  (R401). -/
  sdoWait : Option (Nat × Option (List Byte))
  /-- mono of the latest segment. -/
  sdoAt : Nat
  rsp : List (List Byte)
  deriving DecidableEq, Repr

def Mbc.init : Mbc :=
  { mode := .config, starting := false, stopping := false, tec := 0, recCnt := 0, lec := 0, ded := [], fifo0 := [],
    fifo1 := [], win := none, winUnread := false, locked := none, tx := [], cur := none, curAt := 0, sdo := none,
    sdoWait := none, sdoAt := 0, rsp := [] }

/-- DMA.STATE.STATE of R430. -/
inductive DmaSt where
  | idle | running | waiting | pausing | paused | stopped | done | halted
  deriving DecidableEq, Repr

/-- What a channel's FENCE, SIGNAL or END waits for (R417). -/
inductive DmaFin where
  | none | fence | signal (code : Nat) | fin
  deriving DecidableEq, Repr

/-- One DMA channel (R408–R431). -/
structure Dma where
  st : DmaSt
  abortIgn : Bool
  pwr : Bool
  /-- Domains whose power-down requests have paused the channel (R427). -/
  pwrFor : List Nat
  pc : Nat
  sp : Nat
  dp : Nat
  rem : Nat
  lc0 : Nat
  lc1 : Nat
  err : Nat
  fin : DmaFin
  stopReq : Bool
  /-- WAIT: mono and network time at which it began; while paused in a WAIT, the time of its timeout already used. -/
  waitMono : Nat
  waitNs : Nat
  waitPaused : Bool
  /-- Address written last, which a FENCE, SIGNAL or END reads back (R417). -/
  lastW : Nat
  /-- Bytes of the instruction in progress, as fetched when it began (R411). -/
  ins : List Byte
  task0 : Bool
  rd : Nat
  wr : Nat
  deriving DecidableEq, Repr

def Dma.init : Dma :=
  { st := .idle, abortIgn := false, pwr := false, pwrFor := [], pc := 0, sp := 0, dp := 0, rem := 0, lc0 := 0, lc1 := 0,
    err := 0, fin := .none, stopReq := false, waitMono := 0, waitNs := 0,
    waitPaused := false, lastW := 0, ins := [], task0 := false, rd := 0, wr := 0 }

/-- One journal slot (R438): its commit mark, and the staged bytes by Bedrock offset. -/
structure Slot where
  marked : Bool
  used : Bool
  bytes : SMap (Option Byte)
  deriving DecidableEq, Repr

/-- Bedrock beside its bytes: the open transaction, the journal, wear, and lockouts (R432–R450). -/
structure Bdr where
  owner : Option Nat
  failed : Bool
  staged : SMap (Option Byte)
  inhibit : Bool
  slots : SMap Slot
  next : Nat
  wear : SMap Nat
  wearSaved : SMap Nat
  pwFails : SMap Path
  dupRaised : List Nat
  deriving DecidableEq, Repr

/-! ### Backup domain (R451–R468) -/

/-- The calendar (R451–R460, R466). -/
structure Cal where
  count : Nat
  valid : Bool
  wr : Option Nat
  shift : Int
  shiftPhase : Nat
  cut : Bool
  end_ : Bool
  supply : Bool
  supKept : Bool
  offReq : Bool
  /-- SUPPLY_EN has been asserted since the latest tick of the calendar (R460). -/
  asserted : Bool
  onCell : Bool
  deriving DecidableEq, Repr

/-- One stress copy of the cell's identity memory (R462). -/
structure Stress where
  seq : Nat
  hours : Nat
  tests : Nat
  cap : Nat
  esr : Nat
  at_ : Nat
  ok : Bool
  deriving DecidableEq, Repr

/-- The reserve cell: its identity memory as read and as it is, its copies of stress, and its tests (R461–R464, R468). -/
structure Rsv where
  ident : List Byte
  memory : List Byte
  present : Bool
  idBad : Bool
  stressBad : Bool
  eol : Bool
  testing : Bool
  last : Nat
  /-- STRESS_H in units of 2^-32 equivalent hours (R462). -/
  stress : Nat
  a : Stress
  b : Stress
  history : List (Nat × Nat × Nat)
  daily : List Nat
  deriving DecidableEq, Repr

/-! ### Supervision (R469–R493) -/

/-- One watchdog (R469–R474). -/
structure Wdg where
  /-- mono at which the count was 0. -/
  zero : Nat
  last : Nat
  lost : Bool
  /-- Count at which a lost clock stopped it. -/
  froze : Nat
  deriving DecidableEq, Repr

def Wdg.init : Wdg := { zero := 0, last := 0, lost := false, froze := 0 }

/-- A raw record on its way to the fault collector (R483, R485). -/
structure Raw where
  cls : Nat
  key : Nat
  src : Nat
  root : Nat
  detail : Nat
  extra : Nat
  deriving DecidableEq, Repr

/-- A fold, one entry of FLT.LOG (R484), with its closing instant. -/
structure Fold where
  seq : Nat
  cls : Nat
  isOpen : Bool
  multi : Bool
  early : Bool
  sat : Bool
  key : Nat
  count : Nat
  src : Nat
  root : Nat
  detail : Nat
  extra : Nat
  first : Nat
  last : Nat
  close : Nat
  deriving DecidableEq, Repr

/-- The fault collector: raw records waiting, the log, FAULT_N, and notifications (R483–R493). -/
structure Flt where
  queue : List Raw
  log : List Fold
  out : Bool
  outKept : Bool
  /-- mono of the latest assertion of FAULT_N and of the latest CLEAR_OUT (R491). -/
  outAt : Option Nat
  clrAt : Option Nat
  /-- mono of the latest setting of KEVENTS.FLT, and notifications waiting for the gap's end (R489). -/
  notified : Option Nat
  waiting : Nat
  deriving DecidableEq, Repr

/-- Task check-in (R477–R479). -/
structure Chk where
  /-- Check-ins counted in the current period, by slot. -/
  count : SMap Nat
  /-- µs count at which each slot's current period ends. -/
  due : SMap Nat
  /-- Check-ins under way, oldest first: the task, and the Strand whose link carries each. -/
  queue : List (Nat × Nat)
  deriving DecidableEq, Repr

/-! ### Observation and health (R494–R519) -/

/-- One Strata record (R500). -/
structure SRec where
  seq : Nat
  cls : Nat
  key : Nat
  isOpen : Bool
  gap : Bool
  sat : Bool
  shift : Nat
  first : Nat
  last : Nat
  count : Nat
  min : Int
  max : Int
  sum : Int
  hist : SMap Nat
  /-- A sample was missed while frozen (R506). -/
  missed : Bool
  deriving DecidableEq, Repr

/-- Strata (R500–R506, R517). -/
structure Sta2 where
  recs : List SRec
  newest : Nat
  frozen : Bool
  /-- mono of the latest FREEZE. -/
  frzAt : Nat
  expired : Bool
  deriving DecidableEq, Repr

/-- One section of a snapshot as latched (R510): its die bit, its island and its content. -/
structure Section where
  die : Nat
  island : Nat
  bytes : List Byte
  deriving DecidableEq, Repr

/-- One snapshot buffer (R511, R512). -/
structure Snap where
  seq : Nat
  source : Nat
  merged : Bool
  incomplete : Bool
  cls : Nat
  stamp : Nat
  expect : Nat
  acked : Nat
  /-- Dies whose acknowledgement timed out (R19). -/
  gone : Nat
  tide64 : Nat
  fold : Nat
  /-- Complete and not released. -/
  held : Bool
  sections : List Section
  deriving DecidableEq, Repr

/-- The tidemark unit (R507–R512, R518). -/
structure Snp where
  /-- The four buffers, each empty or holding a snapshot. -/
  bufs : SMap (Option Snap)
  /-- The buffer that is collecting. -/
  busy : Option Nat
  tmkOut : Bool
  deriving DecidableEq, Repr

/-- The health monitor (R513–R515, R519). -/
structure Hlt where
  running : Bool
  kind : Nat
  target : Nat
  left : Nat
  result : Nat
  reason : Nat
  /-- HLT.AGE of each die, and BDR.WEAR_MAX, at the end of each of the last 31 days, latest first (R513). -/
  ages : SMap (List Nat)
  wearDays : List Nat
  deriving DecidableEq, Repr

/-- The bandwidth window in progress: bytes by port, and its end (R499). -/
structure Bw where
  rx : SMap Nat
  /-- Frames sent: the microsecond count as the last byte passes, port, bytes. -/
  sent : List (Nat × Nat × Nat)
  due : Nat
  deriving DecidableEq, Repr

/-- What the performance counters hold beside their objects. -/
structure Pmc where
  bw : Bw
  deriving DecidableEq, Repr

/-! ### Power, clocks and reset (R520–R537) -/

/-- PWR.DOMAIN.STATE of R537. -/
inductive DomSt where
  | off | ramping | on | draining | goingOff
  deriving DecidableEq, Repr

/-- The power, clock and reset controller (R520–R537). -/
structure Pwr where
  dom : SMap DomSt
  /-- mono at which a domain entered its present state (R522, R523). -/
  since : SMap Nat
  reason : SMap Nat
  refLost : Bool
  sdLost : Bool
  railsOk : Bool
  sleeping : Bool
  inReset : Bool
  /-- mono at which the latest reset was released: RESET_OUT_N stays low for 1 ms after it (R534). -/
  relAt : Option Nat
  /-- Dies whose link is DOWN, by bit of IDN.FITTED (R15). -/
  linkDown : Nat
  /-- WDG clocks lost: fabric clocks by die bit (R476). -/
  fabricLost : Nat
  saved : SMap Nat
  deriving DecidableEq, Repr

/-! ### The whole package -/

/-- The state of one package. -/
structure State where
  /-- Which variant this device is (R1). -/
  part : Part
  /-- Every dictionary object that holds a value of its own, by index × 256 + subindex (R28). -/
  objs : SMap Nat
  /-- Contents of DOMAIN and OCTET_STRING objects that hold bytes of their own, by the same key (R55). -/
  doms : SMap (List Byte)
  /-- Every memory of the package, by memory number × 2^32 + byte offset (R20). -/
  mem : List Host.Cell
  /-- SRAM bytes in error, by the key of mem: 1 a single-bit error, 2 a double-bit error (R90). -/
  ecc : SMap Nat
  /-- Owner tags of marker lines (R160). -/
  owners : SMap Nat
  sess : SMap Ses
  dic : Dic
  ctxs : SMap Ctx
  cores : SMap CoreSt
  tds : Tds
  tasks : SMap Task
  img : Img
  /-- Retained timer blocks: µs count of the latest save of block b of Strand n at 4n + b, and the next block of the
  round (R215). -/
  retAt : SMap Nat
  retNext : Nat
  olc : Olc
  str : Str
  hnw : Hnw
  ntm : Ntm
  red : Red
  fio : Fio
  mbc : SMap Mbc
  dma : SMap Dma
  bdr : Bdr
  cal : Cal
  rsv : Rsv
  wdg : SMap Wdg
  chk : Chk
  flt : Flt
  sta : Sta2
  snp : Snp
  hlt : Hlt
  pmc : Pmc
  pwr : Pwr
  /-- Draws taken from the free values of Config: the model's own field, no register of the spec. -/
  fresh : Nat
  /-- Commands waiting, first in, first out. -/
  pending : List Instr
  deriving DecidableEq, Repr

/-- Right after reset, with the start sequence not yet begun (R533): every object at its default, memories
cleared, nothing in flight.
(DESIGN CHOICE, unsafe: log 3.)
(DESIGN CHOICE, unsafe: log 4.)
(DESIGN CHOICE, unsafe: log 5.) -/
def State.reset : State :=
  { part := .axk8f, objs := [], doms := [], mem := [], ecc := [], owners := [], sess := [],
    dic := { oem := [], oemTag := 0, paths := [] },
    ctxs := [], cores := [],
    tds := { st := .stopped, phase := 0, swin := false, slacked := false, ebbAt := 0, nextEbb := 0, first := false,
             stopEbbs := 0, inputDone := false, agreed := false, flooded := false, cutDone := false,
             launched := false, rebase := [], lastCut := 0, sharingSeen := [], seq := 0, hold := false,
             heldEv := [], copyIns := [], forceQ := [], trigQ := [], runSince := 0 },
    tasks := [],
    img := { pend := [], dirty := [], txw := false, cutWait := false, cutLines := [], cutAt := 0,
             copying := false, cutTide := 0, copyAt := 0, copyN := 0, cutNext := [], held := [], forces := [], orphan0 := false },
    retAt := [], retNext := 0,
    olc := { st := .idle, abortLate := false, retreatOk := false, status := 0, reason := 0, detail := 0,
             dies := 0, disabled := 0, written := [], bankWritten := [], ask := [], yes := [], no := [], asker := none,
             tested := 0, nextTide := false, retreat := false, cand := none, point := false, switched := [], confirmed := [], lost := [],
             moved := false, late := false, token := none, voted := false, edgeInits := [], active := 0, blank := 0,
             prevObjs := [], prevDoms := [], prevOwners := [], prevRetain := 0, prevMapBed := [], mapBed := [] },
    str := { step := 1, typ := 0, notime := false, service := false, reason := 0, coldNext := false,
             keeper := false, recs := [], flash0 := [], flash1 := [], bistOk := true, fuses := 0,
             keyBoot := [], keyProg := [], retainValid := false, retainId := 0,
             retainObjs := [], retainDoms := [], cfgValid := false, cfgObjs := [], retainForces := [] },
    hnw := { sta := [], txq := [], lastTx := [], seqs := [], cmd := 0, scans := [], conf := [], confAt := [],
             mism := false, routes := [], nextRid := 0, relayed := [], answers := [], up := 0, phy := [],
             turn0 := [], turn1 := [], ringSt := [], ringTold := [], busyTo := [], busyCls := [], evseq := [],
             ackIndex := [], ebbLast := [], ebbSent := false },
    ntm := { sec := 0, nsec := 0, frac := 0, usec := 0, die := [], tok := 0, mono := 0, rx := [],
             stamps := [], gates := [], steps := [] },
    red := { role := .off, reason := 0, pair := .denied, grant := false, frozen := false, fenced := false,
             hb := false, claim := false, peer := false,
             peerSt := { role := 0, pair := 0, grant := false, tide := 0, done := [], part := 0, fitted := 0,
                         pairId := 0, id := 0, pref := 0 },
             mine := none, holdoff := none, drillAt := none, swap := none, swapDue := false, giving := false,
             taking := false, mute := none, swapWant := false,
             linkSt := [], lanes := [], wasDown := 0, peerDig := none, outDig := none, myOut := none,
             digSent := none, agreedSent := none, divTide := none, changeTide := none, swapTide := none, shift := 0,
             lateTide := none, own := [],
             dictated := [], repl := [], sent := [], replSent := [], msgs := [], passMem := [], progSync := false, pass := 0,
             finalWait := false, stop := false,
             wit := { holder := .none, started := false, fault := false, aliveA := false,
                      aliveB := false, claimA := false, claimB := false, pairA := .invalid, pairB := .invalid,
                      move := false } },
    fio := { fstate := 3, la := false, lb := false, cfgPend := [], fieldCfg := [], holdPark := false,
             overlap := false, raw := 0, rawAt := 0, runFrom := [], filt := 0, rise := 0, fall := 0, log := [], line := [],
             dictLine := none, out := 0, outBad := false, couplers := 0, c0 := [], cmd := 0, recovered := false, limit := 0,
             thermal := 0, off := 0, offSeen0 := 0, coupler := 0, misIn := [], misOut := [], volt := [],
             settle := [], wb := 0, ext := 0, diag := [], refAt := 0, limitAt := [], offAt := [], upNew := false, safeDue := 0,
             ovlDue := [], rep := { fstate := 3, la := false, lb := false, off := 0, thermal := 0, applied := 0 } },
    mbc := [], dma := [],
    bdr := { owner := none, failed := false, staged := [], inhibit := false, slots := [], next := 0, wear := [],
             wearSaved := [], pwFails := [], dupRaised := [] },
    cal := { count := 0, valid := false, wr := none, shift := 0, shiftPhase := 0, cut := false, end_ := false,
             supply := true, supKept := false, offReq := false, asserted := false,
             onCell := false },
    rsv := { ident := [], memory := [], present := false, idBad := false, stressBad := false, eol := false,
             testing := false, last := 0, stress := 0,
             a := { seq := 0, hours := 0, tests := 0, cap := 0, esr := 0, at_ := 0, ok := false },
             b := { seq := 0, hours := 0, tests := 0, cap := 0, esr := 0, at_ := 0, ok := false },
             history := [], daily := [] },
    wdg := [],
    chk := { count := [], due := [], queue := [] },
    flt := { queue := [], log := [], out := false, outKept := false, outAt := none, clrAt := none, notified := none, waiting := 0 },
    sta := { recs := [], newest := 0, frozen := false, frzAt := 0, expired := false },
    snp := { bufs := [], busy := none, tmkOut := false },
    hlt := { running := false, kind := 0, target := 0, left := 0, result := 0, reason := 0, ages := [], wearDays := [] },
    pmc := { bw := { rx := [], sent := [], due := 1000 } },
    pwr := { dom := [], since := [], reason := [], refLost := false, sdLost := false, railsOk := true, sleeping := false,
             inReset := false, relAt := none, linkDown := 0, fabricLost := 0, saved := [] },
    fresh := 0, pending := [] }

end Sys2Proof.Machine
end

