-- ==== Sys2Proof/Machine/Objects.lean ====
section
/-! DEFINITION. The object dictionary's table (R28–R32, R44, R56): one row for each object of spec/ 01–19, with
its type, access kind, minimum role, default, writable bits, plain range and length limit, and the name of its
key, index × 256 + subindex. Rows are grouped by the high byte of their index (R29). -/

namespace Sys2Proof.Machine

/-- Data types of R30. -/
inductive Ty where
  | bool | i8 | i16 | i32 | u8 | u16 | u32 | r32 | str | oct | dom | r64 | i64 | u64
  deriving DecidableEq, Repr

/-- Access kinds of R31. -/
inductive Acc where
  | ro | rw | wo | rws | const
  deriving DecidableEq, Repr

/-- The range of a value that needs no other object: any, a closed range, multiples of m in a closed range
(RANGE otherwise), or a list of the encodings that are not reserved (RESERVED otherwise). -/
inductive VChk where
  | any
  | rng (lo hi : Int)
  | mult (lo hi m : Nat)
  | oneOf (l : List Nat)
  deriving DecidableEq, Repr

/-- Length limits of R56. -/
inductive Len where
  | none
  | fixed (n : Nat)
  | upto (max unit : Nat)
  deriving DecidableEq, Repr

/-- One row: a range of indices and subindices that share everything else. -/
structure ObjRow where
  ilo : Nat
  ihi : Nat
  slo : Nat
  shi : Nat
  ty : Ty
  acc : Acc
  /-- Minimum role of the access the kind governs: reads of RO and CONST, writes of the others (R32). -/
  role : Nat
  dflt : Nat
  /-- Writable bits; the others are reserved and ignored (R43). -/
  mask : Nat
  chk : VChk
  len : Len
  /-- An event counter: never reset (R44, R494). -/
  counter : Bool
  /-- Marked retained (R44). -/
  retained : Bool
  deriving DecidableEq, Repr

/-! ### Keys -/

/-- IDN.VENDOR (R25). -/
def K.IDN_VENDOR : Nat := 0x100001
/-- IDN.PART (R25). -/
def K.IDN_PART : Nat := 0x100002
/-- IDN.STEPPING (R25). -/
def K.IDN_STEPPING : Nat := 0x100003
/-- IDN.SERIAL (R25). -/
def K.IDN_SERIAL : Nat := 0x100004
/-- IDN.DIE_SERIAL, subindex n (R25). -/
def K.IDN_DIE_SERIAL (n : Nat) : Nat := 0x100100 + n
/-- IDN.FITTED (R25). -/
def K.IDN_FITTED : Nat := 0x100200
/-- DIC.RESULT (R58). -/
def K.DIC_RESULT : Nat := 0x110001
/-- DIC.ROLE (R58). -/
def K.DIC_ROLE : Nat := 0x110002
/-- DIC.LOGIN (R58). -/
def K.DIC_LOGIN : Nat := 0x110101
/-- DIC.KEY_OPERATOR (R58). -/
def K.DIC_KEY_OPERATOR : Nat := 0x110102
/-- DIC.KEY_ENGINEER (R58). -/
def K.DIC_KEY_ENGINEER : Nat := 0x110103
/-- DIC.KEY_KEEPER (R58). -/
def K.DIC_KEY_KEEPER : Nat := 0x110104
/-- DIC.LOGIN_FAILS (R58). -/
def K.DIC_LOGIN_FAILS : Nat := 0x110105
/-- DIC.LOCKOUT.FAILS (R58). -/
def K.DIC_LOCKOUT_FAILS : Nat := 0x110106
/-- DIC.LOCKOUT.WINDOW (R58). -/
def K.DIC_LOCKOUT_WINDOW : Nat := 0x110107
/-- DIC.SESSION_IDLE (R58). -/
def K.DIC_SESSION_IDLE : Nat := 0x110108
/-- DIC.TXN (R58). -/
def K.DIC_TXN : Nat := 0x110201
/-- DIC.TXN_COUNT (R58). -/
def K.DIC_TXN_COUNT : Nat := 0x110202
/-- DIC.TXN_TIMEOUT (R58). -/
def K.DIC_TXN_TIMEOUT : Nat := 0x110203
/-- DIC.DOM_OPEN (R58). -/
def K.DIC_DOM_OPEN : Nat := 0x110301
/-- DIC.DOM_OFFSET (R58). -/
def K.DIC_DOM_OFFSET : Nat := 0x110302
/-- DIC.DOM_LENGTH (R58). -/
def K.DIC_DOM_LENGTH : Nat := 0x110303
/-- DIC.DOM_CLOSE (R58). -/
def K.DIC_DOM_CLOSE : Nat := 0x110304
/-- DIC.OEM_TIMEOUT (R58). -/
def K.DIC_OEM_TIMEOUT : Nat := 0x110401
/-- DIC.OEM_REQ (R58). -/
def K.DIC_OEM_REQ : Nat := 0x110402
/-- DIC.OEM_ANS (R58). -/
def K.DIC_OEM_ANS : Nat := 0x110403
/-- DIC.DOM_APERTURE, subindex n (R58). -/
def K.DIC_DOM_APERTURE (n : Nat) : Nat := 0x118000 + n
/-- CPU.STATE, subindex n (R100). -/
def K.CPU_STATE (n : Nat) : Nat := 0x280000 + n
/-- CPU.CTL, subindex n (R100). -/
def K.CPU_CTL (n : Nat) : Nat := 0x280100 + n
/-- CPU.FAULT, subindex n (R100). -/
def K.CPU_FAULT (n : Nat) : Nat := 0x280200 + n
/-- CPU.FAULT_PC, subindex n (R100). -/
def K.CPU_FAULT_PC (n : Nat) : Nat := 0x280300 + n
/-- CPU.FAULT_ADDR, subindex n (R100). -/
def K.CPU_FAULT_ADDR (n : Nat) : Nat := 0x280400 + n
/-- CPU.FAULTS, subindex n (R100). -/
def K.CPU_FAULTS (n : Nat) : Nat := 0x280500 + n
/-- CPU.ECC_CORR, subindex n (R100). -/
def K.CPU_ECC_CORR (n : Nat) : Nat := 0x280600 + n
/-- CPU.CTX, i-th index, subindex n (R100). -/
def K.CPU_CTX (i n : Nat) : Nat := (0x2810 + i) * 256 + n
/-- TDS.STATE (R168). -/
def K.TDS_STATE : Nat := 0x200001
/-- TDS.CMD (R168). -/
def K.TDS_CMD : Nat := 0x200002
/-- TDS.START_ERR (R168). -/
def K.TDS_START_ERR : Nat := 0x200003
/-- TDS.KEVENTS (R168). -/
def K.TDS_KEVENTS : Nat := 0x200004
/-- TDS.PERIOD (R168). -/
def K.TDS_PERIOD : Nat := 0x200101
/-- TDS.OFFSET (R168). -/
def K.TDS_OFFSET : Nat := 0x200102
/-- TDS.IN_DEADLINE (R168). -/
def K.TDS_IN_DEADLINE : Nat := 0x200103
/-- TDS.FLOOD (R168). -/
def K.TDS_FLOOD : Nat := 0x200104
/-- TDS.FLOOD_LATEST (R168). -/
def K.TDS_FLOOD_LATEST : Nat := 0x200105
/-- TDS.CUT (R168). -/
def K.TDS_CUT : Nat := 0x200106
/-- TDS.LAUNCH (R168). -/
def K.TDS_LAUNCH : Nat := 0x200107
/-- TDS.SLACK_PT (R168). -/
def K.TDS_SLACK_PT : Nat := 0x200108
/-- TDS.GUARD (R168). -/
def K.TDS_GUARD : Nat := 0x200109
/-- TDS.TIDE_START (R168). -/
def K.TDS_TIDE_START : Nat := 0x20010A
/-- TDS.KPRIO (R168). -/
def K.TDS_KPRIO : Nat := 0x20010B
/-- TDS.KTIDE (R168). -/
def K.TDS_KTIDE : Nat := 0x20010C
/-- TDS.TIDE (R168). -/
def K.TDS_TIDE : Nat := 0x200201
/-- TDS.TIDE64 (R168). -/
def K.TDS_TIDE64 : Nat := 0x200202
/-- TDS.SLACK_BUDGET (R168). -/
def K.TDS_SLACK_BUDGET : Nat := 0x200203
/-- TDS.LAST_FLOOD (R168). -/
def K.TDS_LAST_FLOOD : Nat := 0x200204
/-- TDS.FLOOD_LATE (R168). -/
def K.TDS_FLOOD_LATE : Nat := 0x200301
/-- TDS.OVERRUNS (R168). -/
def K.TDS_OVERRUNS : Nat := 0x200302
/-- TDS.LATE_PUBLISH (R168). -/
def K.TDS_LATE_PUBLISH : Nat := 0x200303
/-- TDS.SHARING (R168). -/
def K.TDS_SHARING : Nat := 0x200304
/-- TDS.LAST_SHARING (R168). -/
def K.TDS_LAST_SHARING : Nat := 0x200305
/-- TDS.OWNERS (R168). -/
def K.TDS_OWNERS : Nat := 0x200400
/-- TSK.STATE, subindex n (R172). -/
def K.TSK_STATE (n : Nat) : Nat := 0x210000 + n
/-- TSK.CFG, subindex n (R172). -/
def K.TSK_CFG (n : Nat) : Nat := 0x210100 + n
/-- TSK.PERIOD, subindex n (R172). -/
def K.TSK_PERIOD (n : Nat) : Nat := 0x210200 + n
/-- TSK.TRIGGER, subindex n (R172). -/
def K.TSK_TRIGGER (n : Nat) : Nat := 0x210300 + n
/-- TSK.TRAPMASK, subindex n (R172). -/
def K.TSK_TRAPMASK (n : Nat) : Nat := 0x210400 + n
/-- TSK.SECTIONS, subindex n (R172). -/
def K.TSK_SECTIONS (n : Nat) : Nat := 0x210500 + n
/-- TSK.LISTS, subindex n (R172). -/
def K.TSK_LISTS (n : Nat) : Nat := 0x210600 + n
/-- TSK.CMD, subindex n (R172). -/
def K.TSK_CMD (n : Nat) : Nat := 0x210700 + n
/-- TSK.RELEASES, subindex n (R172). -/
def K.TSK_RELEASES (n : Nat) : Nat := 0x210800 + n
/-- TSK.OVERRUNS, subindex n (R172). -/
def K.TSK_OVERRUNS (n : Nat) : Nat := 0x210900 + n
/-- TSK.LATES, subindex n (R172). -/
def K.TSK_LATES (n : Nat) : Nat := 0x210A00 + n
/-- TSK.FAULTS, subindex n (R172). -/
def K.TSK_FAULTS (n : Nat) : Nat := 0x210B00 + n
/-- TSK.SHARING, subindex n (R172). -/
def K.TSK_SHARING (n : Nat) : Nat := 0x210C00 + n
/-- TSK.LAST_EXEC, subindex n (R172). -/
def K.TSK_LAST_EXEC (n : Nat) : Nat := 0x210D00 + n
/-- TSK.MAX_EXEC, subindex n (R172). -/
def K.TSK_MAX_EXEC (n : Nat) : Nat := 0x210E00 + n
/-- TSK.LAST_RELEASE, subindex n (R172). -/
def K.TSK_LAST_RELEASE (n : Nat) : Nat := 0x210F00 + n
/-- IMG.CTL (R201). -/
def K.IMG_CTL : Nat := 0x220001
/-- IMG.FORCES (R201). -/
def K.IMG_FORCES : Nat := 0x220100
/-- IMG.FORCE_SEL (R201). -/
def K.IMG_FORCE_SEL : Nat := 0x220201
/-- IMG.FORCE_KEY (R201). -/
def K.IMG_FORCE_KEY : Nat := 0x220202
/-- IMG.FORCE_VAL (R201). -/
def K.IMG_FORCE_VAL : Nat := 0x220203
/-- IMG.FORCE_CMD (R201). -/
def K.IMG_FORCE_CMD : Nat := 0x220204
/-- IMG.FORCE_COUNT (R201). -/
def K.IMG_FORCE_COUNT : Nat := 0x220301
/-- IMG.ORPHANS (R201). -/
def K.IMG_ORPHANS : Nat := 0x220302
/-- IMG.IN_DIGEST (R201). -/
def K.IMG_IN_DIGEST : Nat := 0x220400
/-- IMG.IN_DIGEST_ALL (R201). -/
def K.IMG_IN_DIGEST_ALL : Nat := 0x220401
/-- IMG.OUT_DIGEST (R201). -/
def K.IMG_OUT_DIGEST : Nat := 0x220402
/-- IMG.IN_LATE (R201). -/
def K.IMG_IN_LATE : Nat := 0x220501
/-- IMG.CUT_LINES (R201). -/
def K.IMG_CUT_LINES : Nat := 0x220502
/-- IMG.CUT_TIME (R201). -/
def K.IMG_CUT_TIME : Nat := 0x220503
/-- IMG.CUT_OVERRUN (R201). -/
def K.IMG_CUT_OVERRUN : Nat := 0x220504
/-- IMG.OVERWRITE_HELD (R201). -/
def K.IMG_OVERWRITE_HELD : Nat := 0x220505
/-- IMG.IMAGE, subindex n (R201). -/
def K.IMG_IMAGE (n : Nat) : Nat := 0x220600 + n
/-- TMR.CTL, subindex n (R223). -/
def K.TMR_CTL (n : Nat) : Nat := 0x230000 + n
/-- TMR.CELLS, subindex n (R223). -/
def K.TMR_CELLS (n : Nat) : Nat := 0x230100 + n
/-- TMR.RET_SAVES, subindex n (R223). -/
def K.TMR_RET_SAVES (n : Nat) : Nat := 0x230200 + n
/-- TMR.RET_SKIPS, subindex n (R223). -/
def K.TMR_RET_SKIPS (n : Nat) : Nat := 0x230300 + n
/-- TMR.BAD_KIND, subindex n (R223). -/
def K.TMR_BAD_KIND (n : Nat) : Nat := 0x230400 + n
/-- TMR.LAST_SAVE, subindex n (R223). -/
def K.TMR_LAST_SAVE (n : Nat) : Nat := 0x230500 + n
/-- OLC.STATE (R256). -/
def K.OLC_STATE : Nat := 0x240001
/-- OLC.CMD (R256). -/
def K.OLC_CMD : Nat := 0x240002
/-- OLC.RESULT (R256). -/
def K.OLC_RESULT : Nat := 0x240003
/-- OLC.IMAGE_AT (R256). -/
def K.OLC_IMAGE_AT : Nat := 0x240101
/-- OLC.COMMIT_TIDE (R256). -/
def K.OLC_COMMIT_TIDE : Nat := 0x240102
/-- OLC.COMMIT_WINDOW (R256). -/
def K.OLC_COMMIT_WINDOW : Nat := 0x240103
/-- OLC.STAGE_BASE (R256). -/
def K.OLC_STAGE_BASE : Nat := 0x240104
/-- OLC.IMAGE (R256). -/
def K.OLC_IMAGE : Nat := 0x240200
/-- OLC.HASH (R256). -/
def K.OLC_HASH : Nat := 0x240301
/-- OLC.ACTIVE_HASH (R256). -/
def K.OLC_ACTIVE_HASH : Nat := 0x240302
/-- OLC.RELOC_TIME (R256). -/
def K.OLC_RELOC_TIME : Nat := 0x240303
/-- OLC.COMMITS (R256). -/
def K.OLC_COMMITS : Nat := 0x240401
/-- OLC.COMMIT_AT (R256). -/
def K.OLC_COMMIT_AT : Nat := 0x240402
/-- OLC.HELD_EVENTS (R256). -/
def K.OLC_HELD_EVENTS : Nat := 0x240403
/-- OLC.DEFERRALS (R256). -/
def K.OLC_DEFERRALS : Nat := 0x240404
/-- STR.STATE (R259). -/
def K.STR_STATE : Nat := 0x130001
/-- STR.CMD (R259). -/
def K.STR_CMD : Nat := 0x130002
/-- STR.CFG (R259). -/
def K.STR_CFG : Nat := 0x130101
/-- STR.TIME_WAIT (R259). -/
def K.STR_TIME_WAIT : Nat := 0x130102
/-- STR.OK_TIME (R259). -/
def K.STR_OK_TIME : Nat := 0x130103
/-- STR.RECORD (R259). -/
def K.STR_RECORD : Nat := 0x130200
/-- STR.FAILS (R259). -/
def K.STR_FAILS : Nat := 0x130201
/-- STR.STARTS (R259). -/
def K.STR_STARTS : Nat := 0x130202
/-- SEC.FUSES (R259). -/
def K.SEC_FUSES : Nat := 0x140001
/-- SEC.KEYHASH_BOOT (R259). -/
def K.SEC_KEYHASH_BOOT : Nat := 0x140002
/-- SEC.KEYHASH_PROG (R259). -/
def K.SEC_KEYHASH_PROG : Nat := 0x140003
/-- SEC.PROVISION (R259). -/
def K.SEC_PROVISION : Nat := 0x140004
/-- SEC.CFG (R259). -/
def K.SEC_CFG : Nat := 0x140101
/-- SEC.BOOT_SRC (R259). -/
def K.SEC_BOOT_SRC : Nat := 0x140201
/-- SEC.IMAGE_HASH (R259). -/
def K.SEC_IMAGE_HASH : Nat := 0x140202
/-- SEC.AUTH_FAILS (R259). -/
def K.SEC_AUTH_FAILS : Nat := 0x140203
/-- SEC.AUTH_SKIPPED (R259). -/
def K.SEC_AUTH_SKIPPED : Nat := 0x140204
/-- HST.CFG of station n (R280). -/
def K.HST_CFG (n : Nat) : Nat := (0x4000 + n) * 256 + 1
/-- HST.IN of station n (R280). -/
def K.HST_IN (n : Nat) : Nat := (0x4000 + n) * 256 + 2
/-- HST.OUT of station n (R280). -/
def K.HST_OUT (n : Nat) : Nat := (0x4000 + n) * 256 + 3
/-- HST.HOLD of station n (R280). -/
def K.HST_HOLD (n : Nat) : Nat := (0x4000 + n) * 256 + 4
/-- HST.EXPECT of station n (R280). -/
def K.HST_EXPECT (n : Nat) : Nat := (0x4000 + n) * 256 + 5
/-- HST.IDENT of station n (R280). -/
def K.HST_IDENT (n : Nat) : Nat := (0x4000 + n) * 256 + 6
/-- HST.STATE of station n (R280). -/
def K.HST_STATE (n : Nat) : Nat := (0x4000 + n) * 256 + 7
/-- HST.FWD of station n (R280). -/
def K.HST_FWD (n : Nat) : Nat := (0x4000 + n) * 256 + 8
/-- HST.IN_MISS of station n (R280). -/
def K.HST_IN_MISS (n : Nat) : Nat := (0x4000 + n) * 256 + 9
/-- HST.OUT_MISS of station n (R280). -/
def K.HST_OUT_MISS (n : Nat) : Nat := (0x4000 + n) * 256 + 10
/-- HST.LOSSES of station n (R280). -/
def K.HST_LOSSES (n : Nat) : Nat := (0x4000 + n) * 256 + 11
/-- HST.EVENT_DATA of station n (R280). -/
def K.HST_EVENT_DATA (n : Nat) : Nat := (0x4000 + n) * 256 + 12
/-- HST.EVENT_STAMP of station n (R280). -/
def K.HST_EVENT_STAMP (n : Nat) : Nat := (0x4000 + n) * 256 + 13
/-- HNW.ETHERTYPE (R299). -/
def K.HNW_ETHERTYPE : Nat := 0x300001
/-- HNW.PAIR_ID (R299). -/
def K.HNW_PAIR_ID : Nat := 0x300002
/-- HNW.VLAN (R299). -/
def K.HNW_VLAN : Nat := 0x300003
/-- HNW.MAC (R299). -/
def K.HNW_MAC : Nat := 0x300004
/-- HNW.GROUP_MAC (R299). -/
def K.HNW_GROUP_MAC : Nat := 0x300005
/-- HNW.PORT_CFG, subindex n (R299). -/
def K.HNW_PORT_CFG (n : Nat) : Nat := 0x300100 + n
/-- HNW.EBB_LAUNCH (R299). -/
def K.HNW_EBB_LAUNCH : Nat := 0x300201
/-- HNW.LOSS_TIDES (R299). -/
def K.HNW_LOSS_TIDES : Nat := 0x300202
/-- HNW.CFG (R299). -/
def K.HNW_CFG : Nat := 0x300203
/-- HNW.VALID_AT (R299). -/
def K.HNW_VALID_AT : Nat := 0x300204
/-- HNW.IN_VALID (R299). -/
def K.HNW_IN_VALID : Nat := 0x300300
/-- HNW.RING, subindex n (R299). -/
def K.HNW_RING (n : Nat) : Nat := 0x300300 + n
/-- HNW.CMD (R299). -/
def K.HNW_CMD : Nat := 0x300401
/-- HNW.CMD_STATE (R299). -/
def K.HNW_CMD_STATE : Nat := 0x300402
/-- HNW.SCAN (R299). -/
def K.HNW_SCAN : Nat := 0x300403
/-- HNW.RX_FRAMES, subindex n (R299). -/
def K.HNW_RX_FRAMES (n : Nat) : Nat := 0x300500 + n
/-- HNW.TX_FRAMES, subindex n (R299). -/
def K.HNW_TX_FRAMES (n : Nat) : Nat := 0x300600 + n
/-- HNW.DROPS, subindex n (R299). -/
def K.HNW_DROPS (n : Nat) : Nat := 0x300700 + n
/-- HNW.FCS_ERR, subindex n (R299). -/
def K.HNW_FCS_ERR (n : Nat) : Nat := 0x300800 + n
/-- HNW.RX_STALE (R299). -/
def K.HNW_RX_STALE : Nat := 0x300901
/-- HNW.IP (R299). -/
def K.HNW_IP : Nat := 0x300A01
/-- HNW.NETMASK (R299). -/
def K.HNW_NETMASK : Nat := 0x300A02
/-- HNW.GATEWAY (R299). -/
def K.HNW_GATEWAY : Nat := 0x300A03
/-- HNW.UDP_PORT (R299). -/
def K.HNW_UDP_PORT : Nat := 0x300A04
/-- HNW.TRAIN_LEN, subindex n (R299). -/
def K.HNW_TRAIN_LEN (n : Nat) : Nat := 0x300B00 + n
/-- NTM.SEC (R328). -/
def K.NTM_SEC : Nat := 0x320001
/-- NTM.NSEC (R328). -/
def K.NTM_NSEC : Nat := 0x320002
/-- NTM.USEC (R328). -/
def K.NTM_USEC : Nat := 0x320003
/-- NTM.INCR (R328). -/
def K.NTM_INCR : Nat := 0x320101
/-- NTM.OFFSET (R328). -/
def K.NTM_OFFSET : Nat := 0x320102
/-- NTM.OFFSET_FORCE (R328). -/
def K.NTM_OFFSET_FORCE : Nat := 0x320103
/-- NTM.JUMP_LIMIT (R328). -/
def K.NTM_JUMP_LIMIT : Nat := 0x320104
/-- NTM.SET (R328). -/
def K.NTM_SET : Nat := 0x320105
/-- NTM.LOCK (R328). -/
def K.NTM_LOCK : Nat := 0x320106
/-- NTM.LATE_LIMIT (R328). -/
def K.NTM_LATE_LIMIT : Nat := 0x320107
/-- NTM.CFG (R328). -/
def K.NTM_CFG : Nat := 0x320108
/-- NTM.STATUS (R328). -/
def K.NTM_STATUS : Nat := 0x320201
/-- NTM.STEPS (R328). -/
def K.NTM_STEPS : Nat := 0x320202
/-- NTM.REFUSED (R328). -/
def K.NTM_REFUSED : Nat := 0x320203
/-- NTM.LAST_REFUSED (R328). -/
def K.NTM_LAST_REFUSED : Nat := 0x320204
/-- NTM.FIELD_DOMAIN (R328). -/
def K.NTM_FIELD_DOMAIN : Nat := 0x320301
/-- NTM.CLOCK_ID (R328). -/
def K.NTM_CLOCK_ID : Nat := 0x320302
/-- NTM.GM_BLOCKED (R328). -/
def K.NTM_GM_BLOCKED : Nat := 0x320303
/-- NTM.PORT_LAT, subindex n (R328). -/
def K.NTM_PORT_LAT (n : Nat) : Nat := 0x320400 + n
/-- NTM.LINK_DELAY, subindex n (R328). -/
def K.NTM_LINK_DELAY (n : Nat) : Nat := 0x320500 + n
/-- NTM.PTP_RX (R328). -/
def K.NTM_PTP_RX : Nat := 0x320600
/-- NTM.PTP_TX (R328). -/
def K.NTM_PTP_TX : Nat := 0x320601
/-- NTM.TX_STAMP (R328). -/
def K.NTM_TX_STAMP : Nat := 0x320602
/-- NTM.PTP_DROPS (R328). -/
def K.NTM_PTP_DROPS : Nat := 0x320603
/-- NTM.LAST_SYNC, subindex n (R328). -/
def K.NTM_LAST_SYNC (n : Nat) : Nat := 0x320700 + n
/-- NTM.LAUNCH_LATE, subindex n (R328). -/
def K.NTM_LAUNCH_LATE (n : Nat) : Nat := 0x320800 + n
/-- NTM.LAUNCH_MISS, subindex n (R328). -/
def K.NTM_LAUNCH_MISS (n : Nat) : Nat := 0x320900 + n
/-- NTM.GCL_CFG, subindex n (R328). -/
def K.NTM_GCL_CFG (n : Nat) : Nat := 0x320A00 + n
/-- NTM.GCL_BASE, subindex n (R328). -/
def K.NTM_GCL_BASE (n : Nat) : Nat := 0x320B00 + n
/-- NTM.GCL_CYCLE, subindex n (R328). -/
def K.NTM_GCL_CYCLE (n : Nat) : Nat := 0x320C00 + n
/-- NTM.GCL_ADMIN, subindex n (R328). -/
def K.NTM_GCL_ADMIN (n : Nat) : Nat := 0x320D00 + n
/-- NTM.GCL_OPER, subindex n (R328). -/
def K.NTM_GCL_OPER (n : Nat) : Nat := 0x320E00 + n
/-- NTM.GATE_DROPS, subindex n (R328). -/
def K.NTM_GATE_DROPS (n : Nat) : Nat := 0x320F00 + n
/-- RED.STATE (R360). -/
def K.RED_STATE : Nat := 0x340001
/-- RED.CMD (R360). -/
def K.RED_CMD : Nat := 0x340002
/-- RED.LINKS (R360). -/
def K.RED_LINKS : Nat := 0x340003
/-- RED.CFG (R360). -/
def K.RED_CFG : Nat := 0x340101
/-- RED.RETURN_HOLDOFF (R360). -/
def K.RED_RETURN_HOLDOFF : Nat := 0x340102
/-- RED.DRILL_INTERVAL (R360). -/
def K.RED_DRILL_INTERVAL : Nat := 0x340103
/-- RED.RESYNC_SHARE (R360). -/
def K.RED_RESYNC_SHARE : Nat := 0x340104
/-- RED.RESYNC_PASSES (R360). -/
def K.RED_RESYNC_PASSES : Nat := 0x340105
/-- RED.FAILOVERS (R360). -/
def K.RED_FAILOVERS : Nat := 0x340201
/-- RED.SWITCHOVERS (R360). -/
def K.RED_SWITCHOVERS : Nat := 0x340202
/-- RED.SWAP_FAILS (R360). -/
def K.RED_SWAP_FAILS : Nat := 0x340203
/-- RED.SWAP_DEFERRED (R360). -/
def K.RED_SWAP_DEFERRED : Nat := 0x340204
/-- RED.DIVERGENCES (R360). -/
def K.RED_DIVERGENCES : Nat := 0x340205
/-- RED.AGREE_PARTS (R360). -/
def K.RED_AGREE_PARTS : Nat := 0x340206
/-- RED.AGREE_LATE (R360). -/
def K.RED_AGREE_LATE : Nat := 0x340207
/-- RED.DUAL_EXPECTED (R360). -/
def K.RED_DUAL_EXPECTED : Nat := 0x340208
/-- RED.BW_XCHECK (R360). -/
def K.RED_BW_XCHECK : Nat := 0x340209
/-- RED.LAST_FAILOVER (R360). -/
def K.RED_LAST_FAILOVER : Nat := 0x340301
/-- RED.LAST_DIV (R360). -/
def K.RED_LAST_DIV : Nat := 0x340302
/-- RED.DIV_PARTS (R360). -/
def K.RED_DIV_PARTS : Nat := 0x340303
/-- RED.WIT (R360). -/
def K.RED_WIT : Nat := 0x340401
/-- RED.WIT_MOVES (R360). -/
def K.RED_WIT_MOVES : Nat := 0x340402
/-- FIO.STATE (R382). -/
def K.FIO_STATE : Nat := 0x360001
/-- FIO.CMD (R382). -/
def K.FIO_CMD : Nat := 0x360002
/-- FIO.CFG (R382). -/
def K.FIO_CFG : Nat := 0x360101
/-- FIO.SILENCE (R382). -/
def K.FIO_SILENCE : Nat := 0x360102
/-- FIO.PARALLEL (R382). -/
def K.FIO_PARALLEL : Nat := 0x360103
/-- FIO.IN_AT (R382). -/
def K.FIO_IN_AT : Nat := 0x360104
/-- FIO.OUT_AT (R382). -/
def K.FIO_OUT_AT : Nat := 0x360105
/-- FIO.DIAG_SETTLE (R382). -/
def K.FIO_DIAG_SETTLE : Nat := 0x360106
/-- FIO.OVL_TIME (R382). -/
def K.FIO_OVL_TIME : Nat := 0x360107
/-- FIO.IN_CFG, subindex n (R382). -/
def K.FIO_IN_CFG (n : Nat) : Nat := 0x360200 + n
/-- FIO.OUT_CH, subindex n (R382). -/
def K.FIO_OUT_CH (n : Nat) : Nat := 0x360300 + n
/-- FIO.OUT_DIAG, subindex n (R382). -/
def K.FIO_OUT_DIAG (n : Nat) : Nat := 0x360400 + n
/-- FIO.LAST_RISE, subindex n (R382). -/
def K.FIO_LAST_RISE (n : Nat) : Nat := 0x360500 + n
/-- FIO.LAST_FALL, subindex n (R382). -/
def K.FIO_LAST_FALL (n : Nat) : Nat := 0x360600 + n
/-- FIO.EDGE_LOG (R382). -/
def K.FIO_EDGE_LOG : Nat := 0x360700
/-- FIO.LOCAL (R382). -/
def K.FIO_LOCAL : Nat := 0x360701
/-- FIO.EDGE_DROPS (R382). -/
def K.FIO_EDGE_DROPS : Nat := 0x360801
/-- FIO.SAFE_ENTRIES (R382). -/
def K.FIO_SAFE_ENTRIES : Nat := 0x360802
/-- FIO.COUPLER_ERR (R382). -/
def K.FIO_COUPLER_ERR : Nat := 0x360803
/-- FIO.OVL_COUNT, subindex n (R382). -/
def K.FIO_OVL_COUNT (n : Nat) : Nat := 0x360900 + n
/-- FIO.WB_COUNT, subindex n (R382). -/
def K.FIO_WB_COUNT (n : Nat) : Nat := 0x360A00 + n
/-- FIO.EXT_COUNT, subindex n (R382). -/
def K.FIO_EXT_COUNT (n : Nat) : Nat := 0x360B00 + n
/-- MBC.STATE, subindex n (R403). -/
def K.MBC_STATE (n : Nat) : Nat := 0x380000 + n
/-- MBC.CMD, subindex n (R403). -/
def K.MBC_CMD (n : Nat) : Nat := 0x380100 + n
/-- MBC.CFG, subindex n (R403). -/
def K.MBC_CFG (n : Nat) : Nat := 0x380200 + n
/-- MBC.NBT, subindex n (R403). -/
def K.MBC_NBT (n : Nat) : Nat := 0x380300 + n
/-- MBC.DBT, subindex n (R403). -/
def K.MBC_DBT (n : Nat) : Nat := 0x380400 + n
/-- MBC.RULES_STD, subindex n (R403). -/
def K.MBC_RULES_STD (n : Nat) : Nat := 0x380500 + n
/-- MBC.RULES_EXT, subindex n (R403). -/
def K.MBC_RULES_EXT (n : Nat) : Nat := 0x380600 + n
/-- MBC.LEVELS, subindex n (R403). -/
def K.MBC_LEVELS (n : Nat) : Nat := 0x380700 + n
/-- MBC.BUF_FULL, subindex n (R403). -/
def K.MBC_BUF_FULL (n : Nat) : Nat := 0x380800 + n
/-- MBC.BUF_OVR, subindex n (R403). -/
def K.MBC_BUF_OVR (n : Nat) : Nat := 0x380900 + n
/-- MBC.RD_POP, subindex n (R403). -/
def K.MBC_RD_POP (n : Nat) : Nat := 0x380A00 + n
/-- MBC.RD, i-th index, subindex n (R403). -/
def K.MBC_RD (i n : Nat) : Nat := (0x3810 + i) * 256 + n
/-- MBC.TXBUF, i-th index, subindex n (R403). -/
def K.MBC_TXBUF (i n : Nat) : Nat := (0x3820 + i) * 256 + n
/-- MBC.TX_REQ, subindex n (R403). -/
def K.MBC_TX_REQ (n : Nat) : Nat := 0x382300 + n
/-- MBC.TX_CANCEL, subindex n (R403). -/
def K.MBC_TX_CANCEL (n : Nat) : Nat := 0x382400 + n
/-- MBC.TX_STATE, subindex n (R403). -/
def K.MBC_TX_STATE (n : Nat) : Nat := 0x382500 + n
/-- MBC.SDO, subindex n (R403). -/
def K.MBC_SDO (n : Nat) : Nat := 0x383000 + n
/-- MBC.RX_FRAMES, subindex n (R403). -/
def K.MBC_RX_FRAMES (n : Nat) : Nat := 0x384000 + n
/-- MBC.TX_FRAMES, subindex n (R403). -/
def K.MBC_TX_FRAMES (n : Nat) : Nat := 0x384100 + n
/-- MBC.RX_LOST, subindex n (R403). -/
def K.MBC_RX_LOST (n : Nat) : Nat := 0x384200 + n
/-- MBC.RD_DISCARD, subindex n (R403). -/
def K.MBC_RD_DISCARD (n : Nat) : Nat := 0x384300 + n
/-- MBC.ARB_LOST, subindex n (R403). -/
def K.MBC_ARB_LOST (n : Nat) : Nat := 0x384400 + n
/-- MBC.ERRORS, subindex n (R403). -/
def K.MBC_ERRORS (n : Nat) : Nat := 0x384500 + n
/-- MBC.BUS_OFFS, subindex n (R403). -/
def K.MBC_BUS_OFFS (n : Nat) : Nat := 0x384600 + n
/-- MBC.RTR_REJECT, subindex n (R403). -/
def K.MBC_RTR_REJECT (n : Nat) : Nat := 0x384700 + n
/-- MBC.PROT_EXC, subindex n (R403). -/
def K.MBC_PROT_EXC (n : Nat) : Nat := 0x384800 + n
/-- DMA.STATE, subindex n (R429). -/
def K.DMA_STATE (n : Nat) : Nat := 0x3A0000 + n
/-- DMA.CMD, subindex n (R429). -/
def K.DMA_CMD (n : Nat) : Nat := 0x3A0100 + n
/-- DMA.PROG, subindex n (R429). -/
def K.DMA_PROG (n : Nat) : Nat := 0x3A0200 + n
/-- DMA.CH_CFG, subindex n (R429). -/
def K.DMA_CH_CFG (n : Nat) : Nat := 0x3A0300 + n
/-- DMA.PC, subindex n (R429). -/
def K.DMA_PC (n : Nat) : Nat := 0x3A0400 + n
/-- DMA.SP, subindex n (R429). -/
def K.DMA_SP (n : Nat) : Nat := 0x3A0500 + n
/-- DMA.DP, subindex n (R429). -/
def K.DMA_DP (n : Nat) : Nat := 0x3A0600 + n
/-- DMA.REM, subindex n (R429). -/
def K.DMA_REM (n : Nat) : Nat := 0x3A0700 + n
/-- DMA.LC, subindex n (R429). -/
def K.DMA_LC (n : Nat) : Nat := 0x3A0800 + n
/-- DMA.MOVES, subindex n (R429). -/
def K.DMA_MOVES (n : Nat) : Nat := 0x3A0900 + n
/-- DMA.ERR, subindex n (R429). -/
def K.DMA_ERR (n : Nat) : Nat := 0x3A0A00 + n
/-- DMA.BYTES, subindex n (R429). -/
def K.DMA_BYTES (n : Nat) : Nat := 0x3A0B00 + n
/-- DMA.EVENTS (R429). -/
def K.DMA_EVENTS : Nat := 0x3A1001
/-- DMA.EVENT_SET (R429). -/
def K.DMA_EVENT_SET : Nat := 0x3A1002
/-- DMA.PD_TIMEOUT (R429). -/
def K.DMA_PD_TIMEOUT : Nat := 0x3A1003
/-- DMA.HALTS (R429). -/
def K.DMA_HALTS : Nat := 0x3A1101
/-- DMA.PD_REFUSALS (R429). -/
def K.DMA_PD_REFUSALS : Nat := 0x3A1102
/-- BDR.STATE (R446). -/
def K.BDR_STATE : Nat := 0x3C0001
/-- BDR.CFG (R446). -/
def K.BDR_CFG : Nat := 0x3C0002
/-- BDR.TXN (R446). -/
def K.BDR_TXN : Nat := 0x3C0101
/-- BDR.TXN_LINES (R446). -/
def K.BDR_TXN_LINES : Nat := 0x3C0102
/-- BDR.REGION, subindex n (R446). -/
def K.BDR_REGION (n : Nat) : Nat := 0x3C0200 + n
/-- BDR.RPW, subindex n (R446). -/
def K.BDR_RPW (n : Nat) : Nat := 0x3C0300 + n
/-- BDR.WPW, subindex n (R446). -/
def K.BDR_WPW (n : Nat) : Nat := 0x3C0400 + n
/-- BDR.UNLOCK (R446). -/
def K.BDR_UNLOCK : Nat := 0x3C0501
/-- BDR.LOCK (R446). -/
def K.BDR_LOCK : Nat := 0x3C0502
/-- BDR.UNLOCKED (R446). -/
def K.BDR_UNLOCKED : Nat := 0x3C0503
/-- BDR.PW_FAILS (R446). -/
def K.BDR_PW_FAILS : Nat := 0x3C0504
/-- BDR.REC_DESC, subindex n (R446). -/
def K.BDR_REC_DESC (n : Nat) : Nat := 0x3C0600 + n
/-- BDR.REC_SEL (R446). -/
def K.BDR_REC_SEL : Nat := 0x3C0701
/-- BDR.REC_DATA (R446). -/
def K.BDR_REC_DATA : Nat := 0x3C0702
/-- BDR.REC_STATUS (R446). -/
def K.BDR_REC_STATUS : Nat := 0x3C0703
/-- BDR.TXN_COMMITS (R446). -/
def K.BDR_TXN_COMMITS : Nat := 0x3C0801
/-- BDR.TXN_DISCARDS (R446). -/
def K.BDR_TXN_DISCARDS : Nat := 0x3C0802
/-- BDR.RECOVERED (R446). -/
def K.BDR_RECOVERED : Nat := 0x3C0803
/-- BDR.ROLLED_BACK (R446). -/
def K.BDR_ROLLED_BACK : Nat := 0x3C0804
/-- BDR.INHIBITED (R446). -/
def K.BDR_INHIBITED : Nat := 0x3C0805
/-- BDR.DUPSEQ (R446). -/
def K.BDR_DUPSEQ : Nat := 0x3C0806
/-- BDR.CRC_BAD (R446). -/
def K.BDR_CRC_BAD : Nat := 0x3C0807
/-- BDR.WEAR (R446). -/
def K.BDR_WEAR : Nat := 0x3C0900
/-- BDR.WEAR_MAX (R446). -/
def K.BDR_WEAR_MAX : Nat := 0x3C0901
/-- BDR.WEAR_PAGE (R446). -/
def K.BDR_WEAR_PAGE : Nat := 0x3C0902
/-- CAL.STATE (R465). -/
def K.CAL_STATE : Nat := 0x3D0001
/-- CAL.CMD (R465). -/
def K.CAL_CMD : Nat := 0x3D0002
/-- CAL.COUNT (R465). -/
def K.CAL_COUNT : Nat := 0x3D0101
/-- CAL.SHIFT (R465). -/
def K.CAL_SHIFT : Nat := 0x3D0102
/-- CAL.EBB_COUNT (R465). -/
def K.CAL_EBB_COUNT : Nat := 0x3D0103
/-- CAL.CONV_DATE (R465). -/
def K.CAL_CONV_DATE : Nat := 0x3D0201
/-- CAL.CONV_TICKS (R465). -/
def K.CAL_CONV_TICKS : Nat := 0x3D0202
/-- CAL.ALARM, subindex n (R465). -/
def K.CAL_ALARM (n : Nat) : Nat := 0x3D0300 + n
/-- CAL.ALARM_CTL, subindex n (R465). -/
def K.CAL_ALARM_CTL (n : Nat) : Nat := 0x3D0400 + n
/-- CAL.WAKES (R465). -/
def K.CAL_WAKES : Nat := 0x3D0501
/-- RSV.STATE (R467). -/
def K.RSV_STATE : Nat := 0x3E0001
/-- RSV.CMD (R467). -/
def K.RSV_CMD : Nat := 0x3E0002
/-- RSV.IDENT (R467). -/
def K.RSV_IDENT : Nat := 0x3E0100
/-- RSV.CAP (R467). -/
def K.RSV_CAP : Nat := 0x3E0201
/-- RSV.ESR (R467). -/
def K.RSV_ESR : Nat := 0x3E0202
/-- RSV.STRESS (R467). -/
def K.RSV_STRESS : Nat := 0x3E0203
/-- RSV.EOL_DAYS (R467). -/
def K.RSV_EOL_DAYS : Nat := 0x3E0204
/-- RSV.VOLT (R467). -/
def K.RSV_VOLT : Nat := 0x3E0205
/-- RSV.TEST_CFG (R467). -/
def K.RSV_TEST_CFG : Nat := 0x3E0301
/-- RSV.TESTS (R467). -/
def K.RSV_TESTS : Nat := 0x3E0302
/-- RSV.ABORTS (R467). -/
def K.RSV_ABORTS : Nat := 0x3E0303
/-- WDG.CFG, subindex n (R480). -/
def K.WDG_CFG (n : Nat) : Nat := 0x500000 + n
/-- WDG.PERIOD, subindex n (R480). -/
def K.WDG_PERIOD (n : Nat) : Nat := 0x500100 + n
/-- WDG.KEY, subindex n (R480). -/
def K.WDG_KEY (n : Nat) : Nat := 0x500200 + n
/-- WDG.STATE, subindex n (R480). -/
def K.WDG_STATE (n : Nat) : Nat := 0x500300 + n
/-- WDG.COUNT, subindex n (R480). -/
def K.WDG_COUNT (n : Nat) : Nat := 0x500400 + n
/-- WDG.EXPIRIES, subindex n (R480). -/
def K.WDG_EXPIRIES (n : Nat) : Nat := 0x500500 + n
/-- WDG.EARLY, subindex n (R480). -/
def K.WDG_EARLY (n : Nat) : Nat := 0x500600 + n
/-- WDG.LATE, subindex n (R480). -/
def K.WDG_LATE (n : Nat) : Nat := 0x500700 + n
/-- WDG.BADKEY, subindex n (R480). -/
def K.WDG_BADKEY (n : Nat) : Nat := 0x500800 + n
/-- WDG.CLKMON, subindex n (R480). -/
def K.WDG_CLKMON (n : Nat) : Nat := 0x500900 + n
/-- WDG.CHK_PERIOD, subindex n (R480). -/
def K.WDG_CHK_PERIOD (n : Nat) : Nat := 0x501000 + n
/-- WDG.CHK_MISSES, subindex n (R480). -/
def K.WDG_CHK_MISSES (n : Nat) : Nat := 0x501100 + n
/-- WDG.CHK_DUPS, subindex n (R480). -/
def K.WDG_CHK_DUPS (n : Nat) : Nat := 0x501200 + n
/-- WDG.CHK_LAST (R480). -/
def K.WDG_CHK_LAST : Nat := 0x501300
/-- WDG.CHK_STRAY (R480). -/
def K.WDG_CHK_STRAY : Nat := 0x501301
/-- WDG.CHK_CFG (R480). -/
def K.WDG_CHK_CFG : Nat := 0x501302
/-- FLT.STATE (R492). -/
def K.FLT_STATE : Nat := 0x510001
/-- FLT.CMD (R492). -/
def K.FLT_CMD : Nat := 0x510002
/-- FLT.FOLD_WINDOW (R492). -/
def K.FLT_FOLD_WINDOW : Nat := 0x510101
/-- FLT.NOTIFY_GAP (R492). -/
def K.FLT_NOTIFY_GAP : Nat := 0x510102
/-- FLT.LOG (R492). -/
def K.FLT_LOG : Nat := 0x510200
/-- FLT.LOG_SEQ (R492). -/
def K.FLT_LOG_SEQ : Nat := 0x510201
/-- FLT.RECORDS (R492). -/
def K.FLT_RECORDS : Nat := 0x510301
/-- FLT.FOLDED (R492). -/
def K.FLT_FOLDED : Nat := 0x510302
/-- FLT.NOTIFY_MERGED (R492). -/
def K.FLT_NOTIFY_MERGED : Nat := 0x510303
/-- FLT.EARLY_CLOSE (R492). -/
def K.FLT_EARLY_CLOSE : Nat := 0x510304
/-- FLT.RAISE (R492). -/
def K.FLT_RAISE : Nat := 0x510401
/-- FLT.POLICY, subindex n (R492). -/
def K.FLT_POLICY (n : Nat) : Nat := 0x511000 + n
/-- FLT.COUNT, subindex n (R492). -/
def K.FLT_COUNT (n : Nat) : Nat := 0x511100 + n
/-- PMC.SEL (R516). -/
def K.PMC_SEL : Nat := 0x530001
/-- PMC.VALUE (R516). -/
def K.PMC_VALUE : Nat := 0x530002
/-- PMC.CATALOG (R516). -/
def K.PMC_CATALOG : Nat := 0x530100
/-- PMC.BLOCK, subindex n (R516). -/
def K.PMC_BLOCK (n : Nat) : Nat := 0x530200 + n
/-- PMC.THR_CFG, subindex n (R516). -/
def K.PMC_THR_CFG (n : Nat) : Nat := 0x530300 + n
/-- PMC.THR, subindex n (R516). -/
def K.PMC_THR (n : Nat) : Nat := 0x530400 + n
/-- PMC.BW_WINDOW (R516). -/
def K.PMC_BW_WINDOW : Nat := 0x530501
/-- PMC.BW_END (R516). -/
def K.PMC_BW_END : Nat := 0x530502
/-- PMC.BW_RX, subindex n (R516). -/
def K.PMC_BW_RX (n : Nat) : Nat := 0x530600 + n
/-- PMC.BW_TX, subindex n (R516). -/
def K.PMC_BW_TX (n : Nat) : Nat := 0x530700 + n
/-- STA.STATE (R516). -/
def K.STA_STATE : Nat := 0x520001
/-- STA.CMD (R516). -/
def K.STA_CMD : Nat := 0x520002
/-- STA.CURSOR (R516). -/
def K.STA_CURSOR : Nat := 0x520101
/-- STA.RECORD (R516). -/
def K.STA_RECORD : Nat := 0x520102
/-- STA.NEWEST (R516). -/
def K.STA_NEWEST : Nat := 0x520103
/-- STA.GAP (R516). -/
def K.STA_GAP : Nat := 0x520104
/-- STA.MISSED (R516). -/
def K.STA_MISSED : Nat := 0x520201
/-- STA.FREEZE_MAX (R516). -/
def K.STA_FREEZE_MAX : Nat := 0x520202
/-- STA.REPEAT_GAP (R516). -/
def K.STA_REPEAT_GAP : Nat := 0x520203
/-- STA.GROUP_CFG, subindex n (R516). -/
def K.STA_GROUP_CFG (n : Nat) : Nat := 0x520300 + n
/-- STA.RAISE_CLASS (R516). -/
def K.STA_RAISE_CLASS : Nat := 0x520401
/-- STA.RAISE (R516). -/
def K.STA_RAISE : Nat := 0x520402
/-- SNP.STATE (R516). -/
def K.SNP_STATE : Nat := 0x540001
/-- SNP.CMD (R516). -/
def K.SNP_CMD : Nat := 0x540002
/-- SNP.CFG (R516). -/
def K.SNP_CFG : Nat := 0x540101
/-- SNP.AT (R516). -/
def K.SNP_AT : Nat := 0x540102
/-- SNP.BASE (R516). -/
def K.SNP_BASE : Nat := 0x540103
/-- SNP.SEQ (R516). -/
def K.SNP_SEQ : Nat := 0x540201
/-- SNP.SEL (R516). -/
def K.SNP_SEL : Nat := 0x540202
/-- SNP.DATA (R516). -/
def K.SNP_DATA : Nat := 0x540203
/-- SNP.MAP (R516). -/
def K.SNP_MAP : Nat := 0x540204
/-- SNP.FIRED (R516). -/
def K.SNP_FIRED : Nat := 0x540301
/-- SNP.MERGED (R516). -/
def K.SNP_MERGED : Nat := 0x540302
/-- SNP.REFUSED (R516). -/
def K.SNP_REFUSED : Nat := 0x540303
/-- SNP.INCOMPLETE (R516). -/
def K.SNP_INCOMPLETE : Nat := 0x540304
/-- HLT.STATE (R516). -/
def K.HLT_STATE : Nat := 0x550001
/-- HLT.TEMP, subindex n (R516). -/
def K.HLT_TEMP (n : Nat) : Nat := 0x550100 + n
/-- HLT.AGE, subindex n (R516). -/
def K.HLT_AGE (n : Nat) : Nat := 0x550200 + n
/-- HLT.LIFE, subindex n (R516). -/
def K.HLT_LIFE (n : Nat) : Nat := 0x550300 + n
/-- HLT.AGE_LIMIT (R516). -/
def K.HLT_AGE_LIMIT : Nat := 0x550401
/-- HLT.WARN_DAYS (R516). -/
def K.HLT_WARN_DAYS : Nat := 0x550402
/-- HLT.TEMP_LIMIT (R516). -/
def K.HLT_TEMP_LIMIT : Nat := 0x550403
/-- HLT.TEST_REQ (R516). -/
def K.HLT_TEST_REQ : Nat := 0x550501
/-- HLT.TEST_STATE (R516). -/
def K.HLT_TEST_STATE : Nat := 0x550502
/-- HLT.TEST_FADDR (R516). -/
def K.HLT_TEST_FADDR : Nat := 0x550503
/-- HLT.TEST_SLICES (R516). -/
def K.HLT_TEST_SLICES : Nat := 0x550504
/-- PWR.STATE (R536). -/
def K.PWR_STATE : Nat := 0x120001
/-- PWR.CMD (R536). -/
def K.PWR_CMD : Nat := 0x120002
/-- PWR.DOMAIN, subindex n (R536). -/
def K.PWR_DOMAIN (n : Nat) : Nat := 0x120100 + n
/-- PWR.DOMAIN_CMD, subindex n (R536). -/
def K.PWR_DOMAIN_CMD (n : Nat) : Nat := 0x120200 + n
/-- PWR.RESET_CAUSE (R536). -/
def K.PWR_RESET_CAUSE : Nat := 0x120301
/-- PWR.RESETS (R536). -/
def K.PWR_RESETS : Nat := 0x120302
/-- PWR.PD_REFUSALS (R536). -/
def K.PWR_PD_REFUSALS : Nat := 0x120303
/-- PWR.CORE_FREQ, subindex n (R536). -/
def K.PWR_CORE_FREQ (n : Nat) : Nat := 0x120400 + n
/-- PWR.REF_LOSSES (R536). -/
def K.PWR_REF_LOSSES : Nat := 0x120501

/-! ### Rows -/

/-- Objects of block IDN. -/
def rowsIDN : List ObjRow :=
  [⟨0x1000, 0x1000, 0x01, 0x01, .u32, .const, 0, 0xD10A, 0xFFFFFFFF, .any, .none, false, false⟩,
   ⟨0x1000, 0x1000, 0x02, 0x02, .u32, .const, 0, 0, 0xFFFFFFFF, .any, .none, false, false⟩,
   ⟨0x1000, 0x1000, 0x03, 0x03, .u16, .const, 0, 0, 0xFFFF, .any, .none, false, false⟩,
   ⟨0x1000, 0x1000, 0x04, 0x04, .u64, .const, 0, 0, 0xFFFFFFFFFFFFFFFF, .any, .none, false, false⟩,
   ⟨0x1001, 0x1001, 0x01, 0x08, .u64, .const, 0, 0, 0xFFFFFFFFFFFFFFFF, .any, .none, false, false⟩,
   ⟨0x1002, 0x1002, 0x00, 0x00, .u16, .const, 0, 0, 0xFFFF, .any, .none, false, false⟩]
/-- Objects of block DIC. -/
def rowsDIC : List ObjRow :=
  [⟨0x1100, 0x1100, 0x01, 0x01, .u64, .ro, 0, 0, 0xFFFFFFFFFFFFFFFF, .any, .none, false, false⟩,
   ⟨0x1100, 0x1100, 0x02, 0x02, .u8, .ro, 0, 0, 0xFF, .any, .none, false, false⟩,
   ⟨0x1101, 0x1101, 0x01, 0x01, .u64, .wo, 0, 0, 0xFFFFFFFFFF, .any, .none, false, false⟩,
   ⟨0x1101, 0x1101, 0x02, 0x02, .u32, .wo, 3, 0, 0xFFFFFFFF, .any, .none, false, false⟩,
   ⟨0x1101, 0x1101, 0x03, 0x03, .u32, .wo, 3, 0, 0xFFFFFFFF, .any, .none, false, false⟩,
   ⟨0x1101, 0x1101, 0x04, 0x04, .u32, .wo, 3, 0, 0xFFFFFFFF, .any, .none, false, false⟩,
   ⟨0x1101, 0x1101, 0x05, 0x05, .u64, .ro, 0, 0, 0xFFFFFFFFFFFFFFFF, .any, .none, false, false⟩,
   ⟨0x1101, 0x1101, 0x06, 0x06, .u8, .rw, 3, 8, 0xFF, .rng 1 255, .none, false, false⟩,
   ⟨0x1101, 0x1101, 0x07, 0x07, .u16, .rw, 3, 0x3C, 0xFFFF, .rng 1 3600, .none, false, false⟩,
   ⟨0x1101, 0x1101, 0x08, 0x08, .u16, .rw, 2, 0x3C, 0xFFFF, .rng 1 3600, .none, false, false⟩,
   ⟨0x1102, 0x1102, 0x01, 0x01, .u8, .rw, 0, 0, 0xFF, .oneOf [1, 2, 3], .none, false, false⟩,
   ⟨0x1102, 0x1102, 0x02, 0x02, .u8, .ro, 0, 0, 0xFF, .any, .none, false, false⟩]
  ++ [⟨0x1102, 0x1102, 0x03, 0x03, .u32, .rw, 2, 0x2710, 0xFFFFFFFF, .rng 100 600000, .none, false, false⟩,
   ⟨0x1103, 0x1103, 0x01, 0x01, .u64, .wo, 0, 0, 0xFFFFFFFF0000, .any, .none, false, false⟩,
   ⟨0x1103, 0x1103, 0x02, 0x02, .u32, .rw, 0, 0, 0xFFFFFFFF, .any, .none, false, false⟩,
   ⟨0x1103, 0x1103, 0x03, 0x03, .u32, .ro, 0, 0, 0xFFFFFFFF, .any, .none, false, false⟩,
   ⟨0x1103, 0x1103, 0x04, 0x04, .u8, .wo, 0, 0, 0xFF, .oneOf [1, 2], .none, false, false⟩,
   ⟨0x1104, 0x1104, 0x01, 0x01, .u32, .rw, 3, 0x3E8, 0xFFFFFFFF, .rng 10 1000000, .none, false, false⟩,
   ⟨0x1104, 0x1104, 0x02, 0x02, .oct, .ro, 3, 0, 0xFFFFFFFFFFFFFFFF, .any, .none, false, false⟩,
   ⟨0x1104, 0x1104, 0x03, 0x03, .oct, .wo, 3, 0, 0xFFFFFFFFFFFFFFFF, .any, .upto 16777216 1, false, false⟩,
   ⟨0x1180, 0x1180, 0x00, 0xFF, .u64, .rw, 0, 0, 0xFFFFFFFFFFFFFFFF, .any, .none, false, false⟩]
/-- Objects of block PWR. -/
def rowsPWR : List ObjRow :=
  [⟨0x1200, 0x1200, 0x01, 0x01, .u32, .ro, 0, 1, 0xFFFFFFFF, .any, .none, false, false⟩,
   ⟨0x1200, 0x1200, 0x02, 0x02, .u8, .wo, 3, 0, 0xFF, .oneOf [1, 2], .none, false, false⟩,
   ⟨0x1201, 0x1201, 0x01, 0x0F, .u32, .ro, 0, 0, 0xFFFFFFFF, .any, .none, false, false⟩,
   ⟨0x1202, 0x1202, 0x01, 0x0F, .u8, .wo, 3, 0, 0xFF, .oneOf [1, 2], .none, false, false⟩,
   ⟨0x1203, 0x1203, 0x01, 0x01, .u8, .ro, 0, 1, 0xFF, .any, .none, false, false⟩,
   ⟨0x1203, 0x1203, 0x02, 0x02, .u64, .ro, 0, 0, 0xFFFFFFFFFFFFFFFF, .any, .none, true, false⟩,
   ⟨0x1203, 0x1203, 0x03, 0x03, .u64, .ro, 0, 0, 0xFFFFFFFFFFFFFFFF, .any, .none, true, false⟩,
   ⟨0x1204, 0x1204, 0x01, 0x06, .u16, .rws, 3, 0x4E2, 0xFFFF, .mult 250 1250 25, .none, false, true⟩,
   ⟨0x1205, 0x1205, 0x01, 0x01, .u64, .ro, 0, 0, 0xFFFFFFFFFFFFFFFF, .any, .none, true, false⟩]
/-- Objects of block STR. -/
def rowsSTR : List ObjRow :=
  [⟨0x1300, 0x1300, 0x01, 0x01, .u32, .ro, 0, 0, 0xFFFFFFFF, .any, .none, false, false⟩,
   ⟨0x1300, 0x1300, 0x02, 0x02, .u8, .wo, 2, 0, 0xFF, .oneOf [1, 2, 3, 4], .none, false, false⟩,
   ⟨0x1301, 0x1301, 0x01, 0x01, .u32, .rw, 3, 0x2583000, 0xFFFFF007, .any, .none, false, true⟩,
   ⟨0x1301, 0x1301, 0x02, 0x02, .u16, .rw, 3, 0xA, 0xFFFF, .rng 1 600, .none, false, true⟩,
   ⟨0x1301, 0x1301, 0x03, 0x03, .u16, .rw, 3, 0x3C, 0xFFFF, .rng 1 3600, .none, false, true⟩,
   ⟨0x1302, 0x1302, 0x00, 0x00, .dom, .ro, 0, 0, 0xFFFFFFFFFFFFFFFF, .any, .none, false, false⟩,
   ⟨0x1302, 0x1302, 0x01, 0x01, .u8, .ro, 0, 0, 0xFF, .any, .none, false, false⟩,
   ⟨0x1302, 0x1302, 0x02, 0x02, .u64, .ro, 0, 0, 0xFFFFFFFFFFFFFFFF, .any, .none, false, true⟩]
/-- Objects of block SEC. -/
def rowsSEC : List ObjRow :=
  [⟨0x1400, 0x1400, 0x01, 0x01, .u32, .const, 0, 0, 0xFFFFFFFF, .any, .none, false, false⟩,
   ⟨0x1400, 0x1400, 0x02, 0x02, .oct, .const, 0, 0, 0xFFFFFFFFFFFFFFFF, .any, .none, false, false⟩,
   ⟨0x1400, 0x1400, 0x03, 0x03, .oct, .const, 0, 0, 0xFFFFFFFFFFFFFFFF, .any, .none, false, false⟩,
   ⟨0x1400, 0x1400, 0x04, 0x04, .oct, .wo, 3, 0, 0xFFFFFFFFFFFFFFFF, .any, .fixed 33, false, false⟩,
   ⟨0x1401, 0x1401, 0x01, 0x01, .u32, .rw, 3, 3, 0x3, .any, .none, false, true⟩,
   ⟨0x1402, 0x1402, 0x01, 0x01, .u8, .ro, 0, 0, 0xFF, .any, .none, false, false⟩,
   ⟨0x1402, 0x1402, 0x02, 0x02, .oct, .ro, 0, 0, 0xFFFFFFFFFFFFFFFF, .any, .none, false, true⟩,
   ⟨0x1402, 0x1402, 0x03, 0x03, .u64, .ro, 0, 0, 0xFFFFFFFFFFFFFFFF, .any, .none, false, false⟩,
   ⟨0x1402, 0x1402, 0x04, 0x04, .bool, .ro, 0, 0, 0x1, .any, .none, false, false⟩]
/-- Objects of block TDS. -/
def rowsTDS : List ObjRow :=
  [⟨0x2000, 0x2000, 0x01, 0x01, .u32, .ro, 0, 0, 0xFFFFFFFF, .any, .none, false, false⟩,
   ⟨0x2000, 0x2000, 0x02, 0x02, .u8, .wo, 2, 0, 0xFF, .oneOf [1, 2, 3, 4], .none, false, false⟩,
   ⟨0x2000, 0x2000, 0x03, 0x03, .u32, .ro, 0, 0, 0xFFFFFFFF, .any, .none, false, false⟩,
   ⟨0x2000, 0x2000, 0x04, 0x04, .u32, .ro, 3, 0, 0xFFFFFFFF, .any, .none, false, false⟩,
   ⟨0x2001, 0x2001, 0x01, 0x01, .u16, .rws, 2, 0x20, 0xFFFF, .rng 2 32768, .none, false, false⟩,
   ⟨0x2001, 0x2001, 0x02, 0x02, .u32, .rws, 2, 0, 0xFFFFFFFF, .any, .none, false, false⟩,
   ⟨0x2001, 0x2001, 0x03, 0x03, .u32, .rws, 2, 0xBB80, 0xFFFFFFFF, .mult 0 4294967292 4, .none, false, false⟩,
   ⟨0x2001, 0x2001, 0x04, 0x04, .u32, .rws, 2, 0xF618, 0xFFFFFFFF, .mult 0 4294967292 4, .none, false, false⟩,
   ⟨0x2001, 0x2001, 0x05, 0x05, .u32, .rws, 2, 0x186A0, 0xFFFFFFFF, .mult 0 4294967292 4, .none, false, false⟩,
   ⟨0x2001, 0x2001, 0x06, 0x06, .u32, .rws, 2, 0xD4670, 0xFFFFFFFF, .mult 0 4294967292 4, .none, false, false⟩,
   ⟨0x2001, 0x2001, 0x07, 0x07, .u32, .rws, 2, 0xD6D80, 0xFFFFFFFF, .mult 0 4294967292 4, .none, false, false⟩,
   ⟨0x2001, 0x2001, 0x08, 0x08, .u32, .rws, 2, 0xE57E0, 0xFFFFFFFF, .mult 0 4294967292 4, .none, false, false⟩]
  ++ [⟨0x2001, 0x2001, 0x09, 0x09, .u32, .rws, 2, 0x1388, 0xFFFFFFFF, .mult 0 4294967292 4, .none, false, false⟩,
   ⟨0x2001, 0x2001, 0x0A, 0x0A, .u32, .rws, 2, 0, 0xFFFFFFFF, .any, .none, false, false⟩,
   ⟨0x2001, 0x2001, 0x0B, 0x0B, .u8, .rws, 3, 0x40, 0xFF, .rng 0 64, .none, false, false⟩,
   ⟨0x2001, 0x2001, 0x0C, 0x0C, .bool, .rw, 3, 0, 0x1, .any, .none, false, false⟩,
   ⟨0x2002, 0x2002, 0x01, 0x01, .u32, .ro, 0, 0, 0xFFFFFFFF, .any, .none, false, false⟩,
   ⟨0x2002, 0x2002, 0x02, 0x02, .u64, .ro, 0, 0, 0xFFFFFFFFFFFFFFFF, .any, .none, false, false⟩,
   ⟨0x2002, 0x2002, 0x03, 0x03, .u32, .ro, 0, 0xD6D8, 0xFFFFFFFF, .any, .none, false, false⟩,
   ⟨0x2002, 0x2002, 0x04, 0x04, .u32, .ro, 0, 0, 0xFFFFFFFF, .any, .none, false, false⟩,
   ⟨0x2003, 0x2003, 0x01, 0x01, .u64, .ro, 0, 0, 0xFFFFFFFFFFFFFFFF, .any, .none, true, false⟩,
   ⟨0x2003, 0x2003, 0x02, 0x02, .u64, .ro, 0, 0, 0xFFFFFFFFFFFFFFFF, .any, .none, true, false⟩,
   ⟨0x2003, 0x2003, 0x03, 0x03, .u64, .ro, 0, 0, 0xFFFFFFFFFFFFFFFF, .any, .none, true, false⟩,
   ⟨0x2003, 0x2003, 0x04, 0x04, .u64, .ro, 0, 0, 0xFFFFFFFFFFFFFFFF, .any, .none, true, false⟩]
  ++ [⟨0x2003, 0x2003, 0x05, 0x05, .u64, .ro, 0, 0, 0xFFFFFFFFFFFFFFFF, .any, .none, false, false⟩,
   ⟨0x2004, 0x2004, 0x00, 0x00, .dom, .rws, 3, 0, 0xFFFFFFFFFFFFFFFF, .any, .fixed 32768, false, false⟩]
/-- Objects of block TSK. -/
def rowsTSK : List ObjRow :=
  [⟨0x2100, 0x2100, 0x00, 0xFF, .u32, .ro, 0, 0, 0xFFFFFFFF, .any, .none, false, false⟩,
   ⟨0x2101, 0x2101, 0x00, 0xFF, .u32, .rws, 2, 0, 0x3FFFFF00, .any, .none, false, false⟩,
   ⟨0x2102, 0x2102, 0x00, 0xFF, .u32, .rws, 2, 1, 0xFFFFFFFF, .any, .none, false, false⟩,
   ⟨0x2103, 0x2103, 0x00, 0xFF, .u16, .rws, 2, 0, 0xFFFF, .any, .none, false, false⟩,
   ⟨0x2104, 0x2104, 0x00, 0xFF, .u32, .rws, 2, 0, 0xFFFFFFFF, .any, .none, false, false⟩,
   ⟨0x2105, 0x2105, 0x00, 0xFF, .dom, .rws, 2, 0, 0xFFFFFFFFFFFFFFFF, .any, .upto 512 32, false, false⟩,
   ⟨0x2106, 0x2106, 0x00, 0xFF, .dom, .rws, 2, 0, 0xFFFFFFFFFFFFFFFF, .any, .upto 4096 8, false, false⟩,
   ⟨0x2107, 0x2107, 0x00, 0xFF, .u8, .wo, 2, 0, 0xFF, .any, .none, false, false⟩,
   ⟨0x2108, 0x2108, 0x00, 0xFF, .u64, .ro, 0, 0, 0xFFFFFFFFFFFFFFFF, .any, .none, true, false⟩,
   ⟨0x2109, 0x2109, 0x00, 0xFF, .u64, .ro, 0, 0, 0xFFFFFFFFFFFFFFFF, .any, .none, true, false⟩,
   ⟨0x210A, 0x210A, 0x00, 0xFF, .u64, .ro, 0, 0, 0xFFFFFFFFFFFFFFFF, .any, .none, true, false⟩,
   ⟨0x210B, 0x210B, 0x00, 0xFF, .u64, .ro, 0, 0, 0xFFFFFFFFFFFFFFFF, .any, .none, true, false⟩]
  ++ [⟨0x210C, 0x210C, 0x00, 0xFF, .u64, .ro, 0, 0, 0xFFFFFFFFFFFFFFFF, .any, .none, true, false⟩,
   ⟨0x210D, 0x210D, 0x00, 0xFF, .u32, .ro, 0, 0, 0xFFFFFFFF, .any, .none, false, false⟩,
   ⟨0x210E, 0x210E, 0x00, 0xFF, .u32, .rw, 2, 0, 0xFFFFFFFF, .rng 0 0, .none, false, false⟩,
   ⟨0x210F, 0x210F, 0x00, 0xFF, .u64, .ro, 0, 0, 0xFFFFFFFFFFFFFFFF, .any, .none, false, false⟩]
/-- Objects of block IMG. -/
def rowsIMG : List ObjRow :=
  [⟨0x2200, 0x2200, 0x01, 0x01, .u32, .rw, 2, 1, 0x1, .any, .none, false, false⟩,
   ⟨0x2201, 0x2201, 0x00, 0x00, .dom, .rw, 2, 0, 0xFFFFFFFFFFFFFFFF, .any, .upto 131072 16, false, true⟩,
   ⟨0x2202, 0x2202, 0x01, 0x01, .u16, .rw, 0, 0, 0xFFFF, .rng 0 8191, .none, false, false⟩,
   ⟨0x2202, 0x2202, 0x02, 0x02, .u32, .rw, 0, 0, 0xFF0FFFFF, .any, .none, false, false⟩,
   ⟨0x2202, 0x2202, 0x03, 0x03, .u64, .rw, 0, 0, 0xFFFFFFFFFFFFFFFF, .any, .none, false, false⟩,
   ⟨0x2202, 0x2202, 0x04, 0x04, .u8, .wo, 2, 0, 0xFF, .any, .none, false, false⟩,
   ⟨0x2203, 0x2203, 0x01, 0x01, .u16, .ro, 0, 0, 0xFFFF, .any, .none, false, false⟩,
   ⟨0x2203, 0x2203, 0x02, 0x02, .u16, .ro, 0, 0, 0xFFFF, .any, .none, false, false⟩,
   ⟨0x2204, 0x2204, 0x00, 0x00, .dom, .ro, 0, 0, 0xFFFFFFFFFFFFFFFF, .any, .none, false, false⟩,
   ⟨0x2204, 0x2204, 0x01, 0x01, .u32, .ro, 0, 0, 0xFFFFFFFF, .any, .none, false, false⟩,
   ⟨0x2204, 0x2204, 0x02, 0x02, .u32, .ro, 0, 0, 0xFFFFFFFF, .any, .none, false, false⟩,
   ⟨0x2205, 0x2205, 0x01, 0x01, .u64, .ro, 0, 0, 0xFFFFFFFFFFFFFFFF, .any, .none, true, false⟩]
  ++ [⟨0x2205, 0x2205, 0x02, 0x02, .u32, .ro, 0, 0, 0xFFFFFFFF, .any, .none, false, false⟩,
   ⟨0x2205, 0x2205, 0x03, 0x03, .u32, .ro, 0, 0, 0xFFFFFFFF, .any, .none, false, false⟩,
   ⟨0x2205, 0x2205, 0x04, 0x04, .u64, .ro, 0, 0, 0xFFFFFFFFFFFFFFFF, .any, .none, true, false⟩,
   ⟨0x2205, 0x2205, 0x05, 0x05, .u64, .ro, 0, 0, 0xFFFFFFFFFFFFFFFF, .any, .none, true, false⟩,
   ⟨0x2206, 0x2206, 0x01, 0x03, .dom, .ro, 0, 0, 0xFFFFFFFFFFFFFFFF, .any, .none, false, false⟩]
/-- Objects of block TMR. -/
def rowsTMR : List ObjRow :=
  [⟨0x2300, 0x2300, 0x01, 0x06, .u32, .rws, 2, 0, 0x1FF0707, .any, .none, false, true⟩,
   ⟨0x2301, 0x2301, 0x01, 0x06, .dom, .rws, 3, 0, 0xFFFFFFFFFFFFFFFF, .any, .fixed 262144, false, false⟩,
   ⟨0x2302, 0x2302, 0x01, 0x06, .u64, .ro, 0, 0, 0xFFFFFFFFFFFFFFFF, .any, .none, true, false⟩,
   ⟨0x2303, 0x2303, 0x01, 0x06, .u64, .ro, 0, 0, 0xFFFFFFFFFFFFFFFF, .any, .none, true, false⟩,
   ⟨0x2304, 0x2304, 0x01, 0x06, .u64, .ro, 0, 0, 0xFFFFFFFFFFFFFFFF, .any, .none, true, false⟩,
   ⟨0x2305, 0x2305, 0x01, 0x06, .u64, .ro, 0, 0, 0xFFFFFFFFFFFFFFFF, .any, .none, false, false⟩]
/-- Objects of block OLC. -/
def rowsOLC : List ObjRow :=
  [⟨0x2400, 0x2400, 0x01, 0x01, .u32, .ro, 0, 0, 0xFFFFFFFF, .any, .none, false, false⟩,
   ⟨0x2400, 0x2400, 0x02, 0x02, .u8, .wo, 2, 0, 0xFF, .oneOf [1, 2, 3, 4, 5, 6, 7, 8], .none, false, false⟩,
   ⟨0x2400, 0x2400, 0x03, 0x03, .u64, .ro, 0, 0, 0xFFFFFFFFFFFFFFFF, .any, .none, false, false⟩,
   ⟨0x2401, 0x2401, 0x01, 0x01, .u32, .rw, 2, 0, 0xFFFFFFFF, .any, .none, false, false⟩,
   ⟨0x2401, 0x2401, 0x02, 0x02, .u32, .rw, 2, 0, 0xFFFFFFFF, .any, .none, false, false⟩,
   ⟨0x2401, 0x2401, 0x03, 0x03, .u16, .rw, 2, 0x40, 0xFFFF, .rng 1 65535, .none, false, false⟩,
   ⟨0x2401, 0x2401, 0x04, 0x04, .u32, .rws, 2, 0x20E00000, 0xFFFFFFFF, .mult 0x20200000 0x20E00000 65536, .none, false, false⟩,
   ⟨0x2402, 0x2402, 0x00, 0x00, .dom, .wo, 2, 0, 0xFFFFFFFFFFFFFFFF, .any, .upto 16777216 1, false, false⟩,
   ⟨0x2403, 0x2403, 0x01, 0x01, .oct, .ro, 0, 0, 0xFFFFFFFFFFFFFFFF, .any, .none, false, false⟩,
   ⟨0x2403, 0x2403, 0x02, 0x02, .oct, .ro, 0, 0, 0xFFFFFFFFFFFFFFFF, .any, .none, false, true⟩,
   ⟨0x2403, 0x2403, 0x03, 0x03, .u32, .ro, 0, 0, 0xFFFFFFFF, .any, .none, false, false⟩,
   ⟨0x2404, 0x2404, 0x01, 0x01, .u64, .ro, 0, 0, 0xFFFFFFFFFFFFFFFF, .any, .none, false, false⟩]
  ++ [⟨0x2404, 0x2404, 0x02, 0x02, .u32, .ro, 0, 0, 0xFFFFFFFF, .any, .none, false, false⟩,
   ⟨0x2404, 0x2404, 0x03, 0x03, .u64, .ro, 0, 0, 0xFFFFFFFFFFFFFFFF, .any, .none, false, false⟩,
   ⟨0x2404, 0x2404, 0x04, 0x04, .u64, .ro, 0, 0, 0xFFFFFFFFFFFFFFFF, .any, .none, false, false⟩]
/-- Objects of block CPU. -/
def rowsCPU : List ObjRow :=
  [⟨0x2800, 0x2800, 0x01, 0x18, .u32, .ro, 0, 0, 0xFFFFFFFF, .any, .none, false, false⟩,
   ⟨0x2801, 0x2801, 0x01, 0x18, .u32, .rw, 2, 7, 0x7, .any, .none, false, false⟩,
   ⟨0x2802, 0x2802, 0x01, 0x18, .u64, .ro, 0, 0, 0xFFFFFFFFFFFFFFFF, .any, .none, false, false⟩,
   ⟨0x2803, 0x2803, 0x01, 0x18, .u32, .ro, 0, 0, 0xFFFFFFFF, .any, .none, false, false⟩,
   ⟨0x2804, 0x2804, 0x01, 0x18, .u32, .ro, 0, 0, 0xFFFFFFFF, .any, .none, false, false⟩,
   ⟨0x2805, 0x2805, 0x01, 0x18, .u64, .ro, 0, 0, 0xFFFFFFFFFFFFFFFF, .any, .none, true, false⟩,
   ⟨0x2806, 0x2806, 0x01, 0x18, .u64, .ro, 0, 0, 0xFFFFFFFFFFFFFFFF, .any, .none, false, false⟩,
   ⟨0x2810, 0x281F, 0x01, 0x18, .dom, .rw, 3, 0, 0xFFFFFFFFFFFFFFFF, .any, .fixed 512, false, false⟩]
/-- Objects of block HNW. -/
def rowsHNW : List ObjRow :=
  [⟨0x3000, 0x3000, 0x01, 0x01, .u16, .rws, 2, 0x88B5, 0xFFFF, .rng 0x0600 0xFFFF, .none, false, true⟩,
   ⟨0x3000, 0x3000, 0x02, 0x02, .u8, .rws, 2, 1, 0xFF, .rng 1 255, .none, false, true⟩,
   ⟨0x3000, 0x3000, 0x03, 0x03, .u16, .rws, 2, 0, 0xFFFF, .any, .none, false, false⟩,
   ⟨0x3000, 0x3000, 0x04, 0x04, .u64, .rws, 3, 0, 0xFFFFFFFFFFFF, .any, .none, false, true⟩,
   ⟨0x3000, 0x3000, 0x05, 0x05, .u64, .rws, 2, 0x30000000001, 0xFFFFFFFFFFFF, .any, .none, false, false⟩,
   ⟨0x3001, 0x3001, 0x01, 0x12, .u32, .rws, 2, 0, 0x1F, .any, .none, false, false⟩,
   ⟨0x3002, 0x3002, 0x01, 0x01, .u32, .rws, 2, 0x7D0, 0xFFFFFFFF, .mult 0 4294967292 4, .none, false, false⟩,
   ⟨0x3002, 0x3002, 0x02, 0x02, .u8, .rw, 2, 1, 0xFF, .rng 1 255, .none, false, false⟩,
   ⟨0x3002, 0x3002, 0x03, 0x03, .u32, .rw, 2, 0, 0x3, .any, .none, false, false⟩,
   ⟨0x3002, 0x3002, 0x04, 0x04, .u32, .rws, 2, 0x7FE00, 0xFFFFFFFF, .mult 0 0x7FE00 64, .none, false, false⟩,
   ⟨0x3003, 0x3003, 0x00, 0x00, .dom, .ro, 0, 0, 0xFFFFFFFFFFFFFFFF, .any, .none, false, false⟩,
   ⟨0x3003, 0x3003, 0x01, 0x08, .u32, .ro, 0, 0, 0xFFFFFFFF, .any, .none, false, false⟩]
  ++ [⟨0x3004, 0x3004, 0x01, 0x01, .u8, .wo, 2, 0, 0xFF, .oneOf [1, 2], .none, false, false⟩,
   ⟨0x3004, 0x3004, 0x02, 0x02, .u8, .ro, 0, 0, 0xFF, .any, .none, false, false⟩,
   ⟨0x3004, 0x3004, 0x03, 0x03, .dom, .ro, 0, 0, 0xFFFFFFFFFFFFFFFF, .any, .none, false, false⟩,
   ⟨0x3005, 0x3005, 0x01, 0x12, .u64, .ro, 0, 0, 0xFFFFFFFFFFFFFFFF, .any, .none, true, false⟩,
   ⟨0x3006, 0x3006, 0x01, 0x12, .u64, .ro, 0, 0, 0xFFFFFFFFFFFFFFFF, .any, .none, true, false⟩,
   ⟨0x3007, 0x3007, 0x01, 0x12, .u64, .ro, 0, 0, 0xFFFFFFFFFFFFFFFF, .any, .none, true, false⟩,
   ⟨0x3008, 0x3008, 0x01, 0x12, .u64, .ro, 0, 0, 0xFFFFFFFFFFFFFFFF, .any, .none, true, false⟩,
   ⟨0x3009, 0x3009, 0x01, 0x01, .u64, .ro, 0, 0, 0xFFFFFFFFFFFFFFFF, .any, .none, true, false⟩,
   ⟨0x300A, 0x300A, 0x01, 0x01, .u32, .rw, 3, 0, 0xFFFFFFFF, .any, .none, false, true⟩,
   ⟨0x300A, 0x300A, 0x02, 0x02, .u32, .rw, 3, 0xFFFFFF00, 0xFFFFFFFF, .any, .none, false, true⟩,
   ⟨0x300A, 0x300A, 0x03, 0x03, .u32, .rw, 3, 0, 0xFFFFFFFF, .any, .none, false, true⟩,
   ⟨0x300A, 0x300A, 0x04, 0x04, .u16, .rw, 3, 0xC350, 0xFFFF, .rng 1024 65535, .none, false, true⟩]
  ++ [⟨0x300B, 0x300B, 0x01, 0x10, .u32, .ro, 0, 0, 0xFFFFFFFF, .any, .none, false, false⟩]
/-- Objects of block NTM. -/
def rowsNTM : List ObjRow :=
  [⟨0x3200, 0x3200, 0x01, 0x01, .u64, .ro, 0, 0, 0xFFFFFFFFFFFFFFFF, .any, .none, false, false⟩,
   ⟨0x3200, 0x3200, 0x02, 0x02, .u32, .ro, 0, 0, 0xFFFFFFFF, .any, .none, false, false⟩,
   ⟨0x3200, 0x3200, 0x03, 0x03, .u64, .ro, 0, 0, 0xFFFFFFFFFFFFFFFF, .any, .none, false, false⟩,
   ⟨0x3201, 0x3201, 0x01, 0x01, .u64, .rw, 3, 0x400000000, 0xFFFFFFFFFFFFFFFF, .any, .none, false, false⟩,
   ⟨0x3201, 0x3201, 0x02, 0x02, .i64, .wo, 3, 0, 0xFFFFFFFFFFFFFFFF, .any, .none, false, false⟩,
   ⟨0x3201, 0x3201, 0x03, 0x03, .i64, .wo, 3, 0, 0xFFFFFFFFFFFFFFFF, .any, .none, false, false⟩,
   ⟨0x3201, 0x3201, 0x04, 0x04, .u32, .rw, 3, 0x3E8, 0xFFFFFFFF, .rng 0 1000000000, .none, false, true⟩,
   ⟨0x3201, 0x3201, 0x05, 0x05, .oct, .wo, 3, 0, 0xFFFFFFFFFFFFFFFF, .any, .fixed 10, false, false⟩,
   ⟨0x3201, 0x3201, 0x06, 0x06, .bool, .rw, 3, 0, 0x1, .any, .none, false, false⟩,
   ⟨0x3201, 0x3201, 0x07, 0x07, .u32, .rw, 2, 0x3E8, 0xFFFFFFFF, .rng 0 1000000, .none, false, false⟩,
   ⟨0x3201, 0x3201, 0x08, 0x08, .u32, .rws, 3, 0, 0x1, .any, .none, false, false⟩,
   ⟨0x3202, 0x3202, 0x01, 0x01, .u32, .ro, 0, 0, 0xFFFFFFFF, .any, .none, false, false⟩]
  ++ [⟨0x3202, 0x3202, 0x02, 0x02, .u64, .ro, 0, 0, 0xFFFFFFFFFFFFFFFF, .any, .none, true, false⟩,
   ⟨0x3202, 0x3202, 0x03, 0x03, .u64, .ro, 0, 0, 0xFFFFFFFFFFFFFFFF, .any, .none, true, false⟩,
   ⟨0x3202, 0x3202, 0x04, 0x04, .i64, .ro, 0, 0, 0xFFFFFFFFFFFFFFFF, .any, .none, false, false⟩,
   ⟨0x3203, 0x3203, 0x01, 0x01, .u8, .rws, 3, 0x14, 0xFF, .rng 0 127, .none, false, true⟩,
   ⟨0x3203, 0x3203, 0x02, 0x02, .u64, .ro, 0, 0, 0xFFFFFFFFFFFFFFFF, .any, .none, false, false⟩,
   ⟨0x3203, 0x3203, 0x03, 0x03, .u64, .ro, 0, 0, 0xFFFFFFFFFFFFFFFF, .any, .none, true, false⟩,
   ⟨0x3204, 0x3204, 0x01, 0x12, .u32, .rw, 3, 0, 0xFFFFFFFF, .any, .none, false, true⟩,
   ⟨0x3205, 0x3205, 0x01, 0x12, .u32, .rw, 3, 0, 0xFFFFFFFF, .any, .none, false, false⟩,
   ⟨0x3206, 0x3206, 0x00, 0x00, .dom, .ro, 3, 0, 0xFFFFFFFFFFFFFFFF, .any, .none, false, false⟩,
   ⟨0x3206, 0x3206, 0x01, 0x01, .dom, .wo, 3, 0, 0xFFFFFFFFFFFFFFFF, .any, .upto 528 1, false, false⟩,
   ⟨0x3206, 0x3206, 0x02, 0x02, .oct, .ro, 3, 0, 0xFFFFFFFFFFFFFFFF, .any, .none, false, false⟩,
   ⟨0x3206, 0x3206, 0x03, 0x03, .u64, .ro, 0, 0, 0xFFFFFFFFFFFFFFFF, .any, .none, true, false⟩]
  ++ [⟨0x3207, 0x3207, 0x01, 0x12, .u64, .ro, 0, 0, 0xFFFFFFFFFFFFFFFF, .any, .none, false, false⟩,
   ⟨0x3208, 0x3208, 0x01, 0x12, .u64, .ro, 0, 0, 0xFFFFFFFFFFFFFFFF, .any, .none, true, false⟩,
   ⟨0x3209, 0x3209, 0x01, 0x12, .u64, .ro, 0, 0, 0xFFFFFFFFFFFFFFFF, .any, .none, true, false⟩,
   ⟨0x320A, 0x320A, 0x01, 0x12, .u32, .rw, 2, 0, 0x1FF0003, .any, .none, false, false⟩,
   ⟨0x320B, 0x320B, 0x01, 0x12, .u64, .rw, 2, 0, 0xFFFFFFFFFFFFFFFF, .any, .none, false, false⟩,
   ⟨0x320C, 0x320C, 0x01, 0x12, .u32, .rw, 2, 0xF4240, 0xFFFFFFFF, .mult 1000 1024000000 4, .none, false, false⟩,
   ⟨0x320D, 0x320D, 0x01, 0x12, .dom, .rw, 2, 0, 0xFFFFFFFFFFFFFFFF, .any, .upto 2048 8, false, false⟩,
   ⟨0x320E, 0x320E, 0x01, 0x12, .dom, .ro, 0, 0, 0xFFFFFFFFFFFFFFFF, .any, .none, false, false⟩,
   ⟨0x320F, 0x320F, 0x01, 0x12, .u64, .ro, 0, 0, 0xFFFFFFFFFFFFFFFF, .any, .none, true, false⟩]
/-- Objects of block RED. -/
def rowsRED : List ObjRow :=
  [⟨0x3400, 0x3400, 0x01, 0x01, .u32, .ro, 0, 0, 0xFFFFFFFF, .any, .none, false, false⟩,
   ⟨0x3400, 0x3400, 0x02, 0x02, .u8, .wo, 2, 0, 0xFF, .oneOf [1, 2, 3, 4], .none, false, false⟩,
   ⟨0x3400, 0x3400, 0x03, 0x03, .u32, .ro, 0, 0, 0xFFFFFFFF, .any, .none, false, false⟩,
   ⟨0x3401, 0x3401, 0x01, 0x01, .u32, .rws, 3, 0, 0xFFC, .any, .none, false, true⟩,
   ⟨0x3401, 0x3401, 0x02, 0x02, .u32, .rw, 3, 0x3C, 0xFFFFFFFF, .rng 10 86400, .none, false, true⟩,
   ⟨0x3401, 0x3401, 0x03, 0x03, .u16, .rw, 3, 0, 0xFFFF, .rng 0 8760, .none, false, true⟩,
   ⟨0x3401, 0x3401, 0x04, 0x04, .u8, .rw, 2, 0x32, 0xFF, .rng 10 90, .none, false, false⟩,
   ⟨0x3401, 0x3401, 0x05, 0x05, .u8, .rw, 2, 0x10, 0xFF, .rng 1 255, .none, false, false⟩,
   ⟨0x3402, 0x3402, 0x01, 0x01, .u64, .ro, 0, 0, 0xFFFFFFFFFFFFFFFF, .any, .none, true, false⟩,
   ⟨0x3402, 0x3402, 0x02, 0x02, .u64, .ro, 0, 0, 0xFFFFFFFFFFFFFFFF, .any, .none, true, false⟩,
   ⟨0x3402, 0x3402, 0x03, 0x03, .u64, .ro, 0, 0, 0xFFFFFFFFFFFFFFFF, .any, .none, true, false⟩,
   ⟨0x3402, 0x3402, 0x04, 0x04, .u64, .ro, 0, 0, 0xFFFFFFFFFFFFFFFF, .any, .none, true, false⟩]
  ++ [⟨0x3402, 0x3402, 0x05, 0x05, .u64, .ro, 0, 0, 0xFFFFFFFFFFFFFFFF, .any, .none, true, false⟩,
   ⟨0x3402, 0x3402, 0x06, 0x06, .u64, .ro, 0, 0, 0xFFFFFFFFFFFFFFFF, .any, .none, true, false⟩,
   ⟨0x3402, 0x3402, 0x07, 0x07, .u64, .ro, 0, 0, 0xFFFFFFFFFFFFFFFF, .any, .none, true, false⟩,
   ⟨0x3402, 0x3402, 0x08, 0x08, .u64, .ro, 0, 0, 0xFFFFFFFFFFFFFFFF, .any, .none, true, false⟩,
   ⟨0x3402, 0x3402, 0x09, 0x09, .u64, .ro, 0, 0, 0xFFFFFFFFFFFFFFFF, .any, .none, true, false⟩,
   ⟨0x3403, 0x3403, 0x01, 0x01, .u32, .ro, 0, 0, 0xFFFFFFFF, .any, .none, false, false⟩,
   ⟨0x3403, 0x3403, 0x02, 0x02, .u32, .ro, 0, 0, 0xFFFFFFFF, .any, .none, false, false⟩,
   ⟨0x3403, 0x3403, 0x03, 0x03, .oct, .ro, 0, 0, 0xFFFFFFFFFFFFFFFF, .any, .none, false, false⟩,
   ⟨0x3404, 0x3404, 0x01, 0x01, .u32, .ro, 0, 0, 0xFFFFFFFF, .any, .none, false, false⟩,
   ⟨0x3404, 0x3404, 0x02, 0x02, .u64, .ro, 0, 0, 0xFFFFFFFFFFFFFFFF, .any, .none, true, false⟩]
/-- Objects of block FIO. -/
def rowsFIO : List ObjRow :=
  [⟨0x3600, 0x3600, 0x01, 0x01, .u32, .ro, 0, 3, 0xFFFFFFFF, .any, .none, false, false⟩,
   ⟨0x3600, 0x3600, 0x02, 0x02, .u8, .wo, 2, 0, 0xFF, .oneOf [1, 2, 3], .none, false, false⟩,
   ⟨0x3601, 0x3601, 0x01, 0x01, .u32, .rw, 2, 0, 0x3, .any, .none, false, true⟩,
   ⟨0x3601, 0x3601, 0x02, 0x02, .u32, .rws, 2, 0x2710, 0xFFFFFFFF, .rng 100 2000000, .none, false, true⟩,
   ⟨0x3601, 0x3601, 0x03, 0x03, .u16, .rws, 2, 0, 0xFFF, .any, .none, false, true⟩,
   ⟨0x3601, 0x3601, 0x04, 0x04, .u32, .rws, 2, 0x7FDC0, 0xFFFFFFFF, .mult 0 0x7FFC0 64, .none, false, false⟩,
   ⟨0x3601, 0x3601, 0x05, 0x05, .u32, .rws, 2, 0x7FFC0, 0xFFFFFFFF, .mult 0 0x7FFC0 64, .none, false, false⟩,
   ⟨0x3601, 0x3601, 0x06, 0x06, .u16, .rw, 2, 0x3E8, 0xFFFF, .any, .none, false, false⟩,
   ⟨0x3601, 0x3601, 0x07, 0x07, .u16, .rw, 2, 0x1388, 0xFFFF, .rng 100 65535, .none, false, false⟩,
   ⟨0x3602, 0x3602, 0x01, 0x10, .u32, .rw, 2, 3, 0x3FFFF, .any, .none, false, true⟩,
   ⟨0x3603, 0x3603, 0x01, 0x10, .u32, .rw, 2, 2, 0xE, .any, .none, false, true⟩,
   ⟨0x3604, 0x3604, 0x01, 0x10, .u32, .ro, 0, 0, 0xFFFFFFFF, .any, .none, false, false⟩]
  ++ [⟨0x3605, 0x3605, 0x01, 0x10, .u64, .ro, 0, 0, 0xFFFFFFFFFFFFFFFF, .any, .none, false, false⟩,
   ⟨0x3606, 0x3606, 0x01, 0x10, .u64, .ro, 0, 0, 0xFFFFFFFFFFFFFFFF, .any, .none, false, false⟩,
   ⟨0x3607, 0x3607, 0x00, 0x00, .dom, .ro, 3, 0, 0xFFFFFFFFFFFFFFFF, .any, .none, false, false⟩,
   ⟨0x3607, 0x3607, 0x01, 0x01, .u64, .ro, 0, 0, 0xFFFFFFFFFFFFFFFF, .any, .none, false, false⟩,
   ⟨0x3608, 0x3608, 0x01, 0x01, .u64, .ro, 0, 0, 0xFFFFFFFFFFFFFFFF, .any, .none, true, false⟩,
   ⟨0x3608, 0x3608, 0x02, 0x02, .u64, .ro, 0, 0, 0xFFFFFFFFFFFFFFFF, .any, .none, true, false⟩,
   ⟨0x3608, 0x3608, 0x03, 0x03, .u64, .ro, 0, 0, 0xFFFFFFFFFFFFFFFF, .any, .none, true, false⟩,
   ⟨0x3609, 0x3609, 0x01, 0x10, .u64, .ro, 0, 0, 0xFFFFFFFFFFFFFFFF, .any, .none, true, false⟩,
   ⟨0x360A, 0x360A, 0x01, 0x10, .u64, .ro, 0, 0, 0xFFFFFFFFFFFFFFFF, .any, .none, true, false⟩,
   ⟨0x360B, 0x360B, 0x01, 0x10, .u64, .ro, 0, 0, 0xFFFFFFFFFFFFFFFF, .any, .none, true, false⟩]
/-- Objects of block MBC. -/
def rowsMBC : List ObjRow :=
  [⟨0x3800, 0x3800, 0x01, 0x04, .u32, .ro, 0, 0, 0xFFFFFFFF, .any, .none, false, false⟩,
   ⟨0x3801, 0x3801, 0x01, 0x04, .u8, .wo, 2, 0, 0xFF, .oneOf [1, 2, 3, 4], .none, false, false⟩,
   ⟨0x3802, 0x3802, 0x01, 0x04, .u32, .rw, 2, 0x3C00F, 0x7FFFF, .any, .none, false, true⟩,
   ⟨0x3803, 0x3803, 0x01, 0x04, .u32, .rw, 2, 0x1502020, 0xFFFFFFFF, .any, .none, false, true⟩,
   ⟨0x3804, 0x3804, 0x01, 0x04, .u32, .rw, 2, 0xD1041E0, 0xFFFFFFF0, .any, .none, false, true⟩,
   ⟨0x3805, 0x3805, 0x01, 0x04, .dom, .rw, 2, 0, 0xFFFFFFFFFFFFFFFF, .any, .fixed 1536, false, true⟩,
   ⟨0x3806, 0x3806, 0x01, 0x04, .dom, .rw, 2, 0, 0xFFFFFFFFFFFFFFFF, .any, .fixed 768, false, true⟩,
   ⟨0x3807, 0x3807, 0x01, 0x04, .u32, .ro, 0, 0, 0xFFFFFFFF, .any, .none, false, false⟩,
   ⟨0x3808, 0x3808, 0x01, 0x04, .u32, .ro, 0, 0, 0xFFFFFFFF, .any, .none, false, false⟩,
   ⟨0x3809, 0x3809, 0x01, 0x04, .u32, .ro, 0, 0, 0xFFFFFFFF, .any, .none, false, false⟩,
   ⟨0x380A, 0x380A, 0x01, 0x04, .u8, .wo, 2, 0, 0xFF, .any, .none, false, false⟩,
   ⟨0x3810, 0x3819, 0x01, 0x04, .u64, .ro, 0, 0, 0xFFFFFFFFFFFFFFFF, .any, .none, false, false⟩]
  ++ [⟨0x3820, 0x3822, 0x01, 0x04, .dom, .rw, 2, 0, 0xFFFFFFFFFFFFFFFF, .any, .fixed 80, false, false⟩,
   ⟨0x3823, 0x3823, 0x01, 0x04, .u8, .wo, 2, 0, 0x7, .any, .none, false, false⟩,
   ⟨0x3824, 0x3824, 0x01, 0x04, .u8, .wo, 2, 0, 0x7, .any, .none, false, false⟩,
   ⟨0x3825, 0x3825, 0x01, 0x04, .u32, .ro, 0, 0, 0xFFFFFFFF, .any, .none, false, false⟩,
   ⟨0x3830, 0x3830, 0x01, 0x04, .u32, .rw, 3, 0x3E80000, 0xFFFF00FF, .any, .none, false, true⟩,
   ⟨0x3840, 0x3840, 0x01, 0x04, .u64, .ro, 0, 0, 0xFFFFFFFFFFFFFFFF, .any, .none, true, false⟩,
   ⟨0x3841, 0x3841, 0x01, 0x04, .u64, .ro, 0, 0, 0xFFFFFFFFFFFFFFFF, .any, .none, true, false⟩,
   ⟨0x3842, 0x3842, 0x01, 0x04, .u64, .ro, 0, 0, 0xFFFFFFFFFFFFFFFF, .any, .none, true, false⟩,
   ⟨0x3843, 0x3843, 0x01, 0x04, .u64, .ro, 0, 0, 0xFFFFFFFFFFFFFFFF, .any, .none, true, false⟩,
   ⟨0x3844, 0x3844, 0x01, 0x04, .u64, .ro, 0, 0, 0xFFFFFFFFFFFFFFFF, .any, .none, true, false⟩,
   ⟨0x3845, 0x3845, 0x01, 0x04, .u64, .ro, 0, 0, 0xFFFFFFFFFFFFFFFF, .any, .none, true, false⟩,
   ⟨0x3846, 0x3846, 0x01, 0x04, .u64, .ro, 0, 0, 0xFFFFFFFFFFFFFFFF, .any, .none, true, false⟩]
  ++ [⟨0x3847, 0x3847, 0x01, 0x04, .u64, .ro, 0, 0, 0xFFFFFFFFFFFFFFFF, .any, .none, true, false⟩,
   ⟨0x3848, 0x3848, 0x01, 0x04, .u64, .ro, 0, 0, 0xFFFFFFFFFFFFFFFF, .any, .none, true, false⟩]
/-- Objects of block DMA. -/
def rowsDMA : List ObjRow :=
  [⟨0x3A00, 0x3A00, 0x01, 0x20, .u32, .ro, 0, 0, 0xFFFFFFFF, .any, .none, false, false⟩,
   ⟨0x3A01, 0x3A01, 0x01, 0x20, .u8, .wo, 2, 0, 0xFF, .oneOf [1, 2, 3, 4, 5, 6], .none, false, false⟩,
   ⟨0x3A02, 0x3A02, 0x01, 0x20, .u32, .rw, 2, 0x20000000, 0xFFFFFFFF, .mult 0x20000000 0x20FFFFF8 8, .none, false, false⟩,
   ⟨0x3A03, 0x3A03, 0x01, 0x20, .u32, .rw, 2, 3, 0x3, .any, .none, false, false⟩,
   ⟨0x3A04, 0x3A04, 0x01, 0x20, .u32, .ro, 0, 0, 0xFFFFFFFF, .any, .none, false, false⟩,
   ⟨0x3A05, 0x3A05, 0x01, 0x20, .u32, .ro, 0, 0, 0xFFFFFFFF, .any, .none, false, false⟩,
   ⟨0x3A06, 0x3A06, 0x01, 0x20, .u32, .ro, 0, 0, 0xFFFFFFFF, .any, .none, false, false⟩,
   ⟨0x3A07, 0x3A07, 0x01, 0x20, .u32, .ro, 0, 0, 0xFFFFFFFF, .any, .none, false, false⟩,
   ⟨0x3A08, 0x3A08, 0x01, 0x20, .u64, .ro, 0, 0, 0xFFFFFFFFFFFFFFFF, .any, .none, false, false⟩,
   ⟨0x3A09, 0x3A09, 0x01, 0x20, .u64, .ro, 0, 0, 0xFFFFFFFFFFFFFFFF, .any, .none, false, false⟩,
   ⟨0x3A0A, 0x3A0A, 0x01, 0x20, .u64, .ro, 0, 0, 0xFFFFFFFFFFFFFFFF, .any, .none, false, false⟩,
   ⟨0x3A0B, 0x3A0B, 0x01, 0x20, .u64, .ro, 0, 0, 0xFFFFFFFFFFFFFFFF, .any, .none, true, false⟩]
  ++ [⟨0x3A10, 0x3A10, 0x01, 0x01, .u32, .ro, 0, 0, 0xFFFFFFFF, .any, .none, false, false⟩,
   ⟨0x3A10, 0x3A10, 0x02, 0x02, .u32, .wo, 2, 0, 0xFFFFFFFF, .any, .none, false, false⟩,
   ⟨0x3A10, 0x3A10, 0x03, 0x03, .u32, .rw, 3, 0x14, 0xFFFFFFFF, .rng 1 10000, .none, false, false⟩,
   ⟨0x3A11, 0x3A11, 0x01, 0x01, .u64, .ro, 0, 0, 0xFFFFFFFFFFFFFFFF, .any, .none, true, false⟩,
   ⟨0x3A11, 0x3A11, 0x02, 0x02, .u64, .ro, 0, 0, 0xFFFFFFFFFFFFFFFF, .any, .none, true, false⟩]
/-- Objects of block BDR. -/
def rowsBDR : List ObjRow :=
  [⟨0x3C00, 0x3C00, 0x01, 0x01, .u32, .ro, 0, 0, 0xFFFFFFFF, .any, .none, false, false⟩,
   ⟨0x3C00, 0x3C00, 0x02, 0x02, .u32, .rw, 3, 0, 0x1, .any, .none, false, true⟩,
   ⟨0x3C01, 0x3C01, 0x01, 0x01, .u8, .rw, 0, 0, 0xFF, .oneOf [1, 2, 3], .none, false, false⟩,
   ⟨0x3C01, 0x3C01, 0x02, 0x02, .u8, .ro, 0, 0, 0xFF, .any, .none, false, false⟩,
   ⟨0x3C02, 0x3C02, 0x01, 0x01, .u32, .rws, 3, 0x1BF0000, 0x1FF01FF, .any, .none, false, true⟩,
   ⟨0x3C02, 0x3C02, 0x02, 0x07, .u32, .rws, 3, 1, 0x1FF01FF, .any, .none, false, true⟩,
   ⟨0x3C02, 0x3C02, 0x08, 0x08, .u32, .const, 0, 0x1FF01C0, 0x1FF01FF, .any, .none, false, false⟩,
   ⟨0x3C03, 0x3C03, 0x01, 0x07, .u32, .wo, 3, 0, 0xFFFFFFFF, .any, .none, false, true⟩,
   ⟨0x3C04, 0x3C04, 0x01, 0x07, .u32, .wo, 3, 0, 0xFFFFFFFF, .any, .none, false, true⟩,
   ⟨0x3C05, 0x3C05, 0x01, 0x01, .u64, .wo, 0, 0, 0x87FFFFFFFF, .any, .none, false, false⟩,
   ⟨0x3C05, 0x3C05, 0x02, 0x02, .u16, .wo, 0, 0, 0x7F7F, .any, .none, false, false⟩,
   ⟨0x3C05, 0x3C05, 0x03, 0x03, .u16, .ro, 0, 0, 0xFFFF, .any, .none, false, false⟩]
  ++ [⟨0x3C05, 0x3C05, 0x04, 0x04, .u64, .ro, 0, 0, 0xFFFFFFFFFFFFFFFF, .any, .none, true, false⟩,
   ⟨0x3C06, 0x3C06, 0x01, 0x10, .u64, .rws, 3, 0, 0xFFC03FFFFFFFF, .any, .none, false, true⟩,
   ⟨0x3C07, 0x3C07, 0x01, 0x01, .u8, .rw, 0, 0, 0xFF, .rng 0 15, .none, false, false⟩,
   ⟨0x3C07, 0x3C07, 0x02, 0x02, .dom, .rw, 2, 0, 0xFFFFFFFFFFFFFFFF, .any, .upto 4080 1, false, false⟩,
   ⟨0x3C07, 0x3C07, 0x03, 0x03, .u64, .ro, 0, 0, 0xFFFFFFFFFFFFFFFF, .any, .none, false, false⟩,
   ⟨0x3C08, 0x3C08, 0x01, 0x01, .u64, .ro, 0, 0, 0xFFFFFFFFFFFFFFFF, .any, .none, true, false⟩,
   ⟨0x3C08, 0x3C08, 0x02, 0x02, .u64, .ro, 0, 0, 0xFFFFFFFFFFFFFFFF, .any, .none, true, false⟩,
   ⟨0x3C08, 0x3C08, 0x03, 0x03, .u64, .ro, 0, 0, 0xFFFFFFFFFFFFFFFF, .any, .none, true, false⟩,
   ⟨0x3C08, 0x3C08, 0x04, 0x04, .u64, .ro, 0, 0, 0xFFFFFFFFFFFFFFFF, .any, .none, true, false⟩,
   ⟨0x3C08, 0x3C08, 0x05, 0x05, .u64, .ro, 0, 0, 0xFFFFFFFFFFFFFFFF, .any, .none, true, false⟩,
   ⟨0x3C08, 0x3C08, 0x06, 0x06, .u64, .ro, 0, 0, 0xFFFFFFFFFFFFFFFF, .any, .none, true, false⟩,
   ⟨0x3C08, 0x3C08, 0x07, 0x07, .u64, .ro, 0, 0, 0xFFFFFFFFFFFFFFFF, .any, .none, true, false⟩]
  ++ [⟨0x3C09, 0x3C09, 0x00, 0x00, .dom, .ro, 0, 0, 0xFFFFFFFFFFFFFFFF, .any, .none, false, true⟩,
   ⟨0x3C09, 0x3C09, 0x01, 0x01, .u64, .ro, 0, 0, 0xFFFFFFFFFFFFFFFF, .any, .none, false, false⟩,
   ⟨0x3C09, 0x3C09, 0x02, 0x02, .u16, .ro, 0, 0, 0xFFFF, .any, .none, false, false⟩]
/-- Objects of block CAL. -/
def rowsCAL : List ObjRow :=
  [⟨0x3D00, 0x3D00, 0x01, 0x01, .u32, .ro, 0, 8, 0xFFFFFFFF, .any, .none, false, false⟩,
   ⟨0x3D00, 0x3D00, 0x02, 0x02, .u8, .wo, 3, 0, 0xFF, .oneOf [1, 2], .none, false, false⟩,
   ⟨0x3D01, 0x3D01, 0x01, 0x01, .u64, .rw, 3, 0, 0xFFFFFFFFFFFFFFFF, .rng 0 0x7FFFFFFFFFFF, .none, false, false⟩,
   ⟨0x3D01, 0x3D01, 0x02, 0x02, .i16, .rw, 3, 0, 0xFFFF, .any, .none, false, false⟩,
   ⟨0x3D01, 0x3D01, 0x03, 0x03, .u64, .ro, 0, 0, 0xFFFFFFFFFFFFFFFF, .any, .none, false, false⟩,
   ⟨0x3D02, 0x3D02, 0x01, 0x01, .u64, .rw, 0, 0, 0xFFFFFFFFFFFFFFFF, .any, .none, false, false⟩,
   ⟨0x3D02, 0x3D02, 0x02, 0x02, .u64, .rw, 0, 0, 0xFFFFFFFFFFFFFFFF, .any, .none, false, false⟩,
   ⟨0x3D03, 0x3D03, 0x01, 0x02, .u64, .rw, 2, 0, 0xFFFFFFFFFFFFFFFF, .rng 0 0x7FFFFFFFFFFF, .none, false, false⟩,
   ⟨0x3D04, 0x3D04, 0x01, 0x02, .u32, .rw, 2, 0, 0x3, .any, .none, false, false⟩,
   ⟨0x3D05, 0x3D05, 0x01, 0x01, .u64, .ro, 0, 0, 0xFFFFFFFFFFFFFFFF, .any, .none, true, false⟩]
/-- Objects of block RSV. -/
def rowsRSV : List ObjRow :=
  [⟨0x3E00, 0x3E00, 0x01, 0x01, .u32, .ro, 0, 0, 0xFFFFFFFF, .any, .none, false, false⟩,
   ⟨0x3E00, 0x3E00, 0x02, 0x02, .u8, .wo, 3, 0, 0xFF, .oneOf [1, 2], .none, false, false⟩,
   ⟨0x3E01, 0x3E01, 0x00, 0x00, .dom, .ro, 0, 0, 0xFFFFFFFFFFFFFFFF, .any, .none, false, false⟩,
   ⟨0x3E02, 0x3E02, 0x01, 0x01, .u32, .ro, 0, 0, 0xFFFFFFFF, .any, .none, false, false⟩,
   ⟨0x3E02, 0x3E02, 0x02, 0x02, .u32, .ro, 0, 0, 0xFFFFFFFF, .any, .none, false, false⟩,
   ⟨0x3E02, 0x3E02, 0x03, 0x03, .u32, .ro, 0, 0, 0xFFFFFFFF, .any, .none, false, false⟩,
   ⟨0x3E02, 0x3E02, 0x04, 0x04, .u32, .ro, 0, 0xFFFFFFFF, 0xFFFFFFFF, .any, .none, false, false⟩,
   ⟨0x3E02, 0x3E02, 0x05, 0x05, .u16, .ro, 0, 0, 0xFFFF, .any, .none, false, false⟩,
   ⟨0x3E03, 0x3E03, 0x01, 0x01, .u32, .rw, 3, 0x18000A, 0xFFFFFFFF, .any, .none, false, false⟩,
   ⟨0x3E03, 0x3E03, 0x02, 0x02, .u64, .ro, 0, 0, 0xFFFFFFFFFFFFFFFF, .any, .none, true, false⟩,
   ⟨0x3E03, 0x3E03, 0x03, 0x03, .u64, .ro, 0, 0, 0xFFFFFFFFFFFFFFFF, .any, .none, true, false⟩]
/-- Objects of block HST. -/
def rowsHST : List ObjRow :=
  [⟨0x4000, 0x4FFF, 0x01, 0x01, .u32, .rws, 2, 0, 0x8F3FF1FF, .any, .none, false, false⟩,
   ⟨0x4000, 0x4FFF, 0x02, 0x02, .u32, .rws, 2, 0, 0x7FF7FFFF, .any, .none, false, false⟩,
   ⟨0x4000, 0x4FFF, 0x03, 0x03, .u32, .rws, 2, 0, 0x7FF7FFFF, .any, .none, false, false⟩,
   ⟨0x4000, 0x4FFF, 0x04, 0x04, .u32, .rws, 2, 0x186A0, 0xFFFFFFFF, .rng 1000 10000000, .none, false, false⟩,
   ⟨0x4000, 0x4FFF, 0x05, 0x05, .u64, .rws, 2, 0, 0xFFFFFFFFFFFFFFFF, .any, .none, false, false⟩,
   ⟨0x4000, 0x4FFF, 0x06, 0x06, .u64, .ro, 0, 0, 0xFFFFFFFFFFFFFFFF, .any, .none, false, false⟩,
   ⟨0x4000, 0x4FFF, 0x07, 0x07, .u32, .ro, 0, 0, 0xFFFFFFFF, .any, .none, false, false⟩,
   ⟨0x4000, 0x4FFF, 0x08, 0x08, .u16, .ro, 0, 0, 0xFFFF, .any, .none, false, false⟩,
   ⟨0x4000, 0x4FFF, 0x09, 0x09, .u64, .ro, 0, 0, 0xFFFFFFFFFFFFFFFF, .any, .none, true, false⟩,
   ⟨0x4000, 0x4FFF, 0x0A, 0x0A, .u64, .ro, 0, 0, 0xFFFFFFFFFFFFFFFF, .any, .none, true, false⟩,
   ⟨0x4000, 0x4FFF, 0x0B, 0x0B, .u64, .ro, 0, 0, 0xFFFFFFFFFFFFFFFF, .any, .none, true, false⟩,
   ⟨0x4000, 0x4FFF, 0x0C, 0x0C, .u64, .ro, 0, 0, 0xFFFFFFFFFFFFFFFF, .any, .none, false, false⟩]
  ++ [⟨0x4000, 0x4FFF, 0x0D, 0x0D, .u64, .ro, 0, 0, 0xFFFFFFFFFFFFFFFF, .any, .none, false, false⟩]
/-- Objects of block WDG. -/
def rowsWDG : List ObjRow :=
  [⟨0x5000, 0x5000, 0x01, 0x19, .u32, .rw, 3, 0, 0x1F, .any, .none, false, false⟩,
   ⟨0x5001, 0x5001, 0x01, 0x19, .u64, .rw, 3, 0x186A00000C350, 0xFFFFFFFFFFFFFFFF, .any, .none, false, false⟩,
   ⟨0x5002, 0x5002, 0x01, 0x19, .u32, .wo, 2, 0, 0xFFFFFFFF, .any, .none, false, false⟩,
   ⟨0x5003, 0x5003, 0x01, 0x19, .u32, .ro, 0, 0, 0xFFFFFFFF, .any, .none, false, false⟩,
   ⟨0x5004, 0x5004, 0x01, 0x19, .u32, .ro, 0, 0, 0xFFFFFFFF, .any, .none, false, false⟩,
   ⟨0x5005, 0x5005, 0x01, 0x19, .u64, .ro, 0, 0, 0xFFFFFFFFFFFFFFFF, .any, .none, true, false⟩,
   ⟨0x5006, 0x5006, 0x01, 0x19, .u64, .ro, 0, 0, 0xFFFFFFFFFFFFFFFF, .any, .none, true, false⟩,
   ⟨0x5007, 0x5007, 0x01, 0x19, .u64, .ro, 0, 0, 0xFFFFFFFFFFFFFFFF, .any, .none, true, false⟩,
   ⟨0x5008, 0x5008, 0x01, 0x19, .u64, .ro, 0, 0, 0xFFFFFFFFFFFFFFFF, .any, .none, true, false⟩,
   ⟨0x5009, 0x5009, 0x01, 0x08, .u8, .ro, 0, 0, 0xFF, .any, .none, false, false⟩,
   ⟨0x5010, 0x5010, 0x01, 0xFF, .u32, .rw, 3, 0, 0xFFFFFFFF, .any, .none, false, false⟩,
   ⟨0x5011, 0x5011, 0x01, 0xFF, .u64, .ro, 0, 0, 0xFFFFFFFFFFFFFFFF, .any, .none, true, false⟩]
  ++ [⟨0x5012, 0x5012, 0x01, 0xFF, .u64, .ro, 0, 0, 0xFFFFFFFFFFFFFFFF, .any, .none, true, false⟩,
   ⟨0x5013, 0x5013, 0x00, 0x00, .dom, .ro, 0, 0, 0xFFFFFFFFFFFFFFFF, .any, .none, false, false⟩,
   ⟨0x5013, 0x5013, 0x01, 0x01, .u64, .ro, 0, 0, 0xFFFFFFFFFFFFFFFF, .any, .none, true, false⟩,
   ⟨0x5013, 0x5013, 0x02, 0x02, .u32, .rw, 3, 1, 0x1, .any, .none, false, false⟩]
/-- Objects of block FLT. -/
def rowsFLT : List ObjRow :=
  [⟨0x5100, 0x5100, 0x01, 0x01, .u32, .ro, 0, 0, 0xFFFFFFFF, .any, .none, false, false⟩,
   ⟨0x5100, 0x5100, 0x02, 0x02, .u8, .wo, 3, 0, 0xFF, .oneOf [1, 2], .none, false, false⟩,
   ⟨0x5101, 0x5101, 0x01, 0x01, .u32, .rw, 3, 0x32, 0xFFFFFFFF, .rng 0 10000, .none, false, true⟩,
   ⟨0x5101, 0x5101, 0x02, 0x02, .u32, .rw, 3, 0x64, 0xFFFFFFFF, .rng 0 1000000, .none, false, true⟩,
   ⟨0x5102, 0x5102, 0x00, 0x00, .dom, .ro, 0, 0, 0xFFFFFFFFFFFFFFFF, .any, .none, false, false⟩,
   ⟨0x5102, 0x5102, 0x01, 0x01, .u32, .ro, 0, 0, 0xFFFFFFFF, .any, .none, false, false⟩,
   ⟨0x5103, 0x5103, 0x01, 0x01, .u64, .ro, 0, 0, 0xFFFFFFFFFFFFFFFF, .any, .none, true, false⟩,
   ⟨0x5103, 0x5103, 0x02, 0x02, .u64, .ro, 0, 0, 0xFFFFFFFFFFFFFFFF, .any, .none, true, false⟩,
   ⟨0x5103, 0x5103, 0x03, 0x03, .u64, .ro, 0, 0, 0xFFFFFFFFFFFFFFFF, .any, .none, true, false⟩,
   ⟨0x5103, 0x5103, 0x04, 0x04, .u64, .ro, 0, 0, 0xFFFFFFFFFFFFFFFF, .any, .none, true, false⟩,
   ⟨0x5104, 0x5104, 0x01, 0x01, .u64, .wo, 3, 0, 0xFFFFFFFFFF, .any, .none, false, false⟩,
   ⟨0x5110, 0x5110, 0x01, 0xFF, .u32, .rw, 3, 1, 0x7F, .any, .none, false, true⟩]
  ++ [⟨0x5111, 0x5111, 0x01, 0xFF, .u64, .ro, 0, 0, 0xFFFFFFFFFFFFFFFF, .any, .none, true, false⟩]
/-- Objects of block STA. -/
def rowsSTA : List ObjRow :=
  [⟨0x5200, 0x5200, 0x01, 0x01, .u32, .ro, 0, 0, 0xFFFFFFFF, .any, .none, false, false⟩,
   ⟨0x5200, 0x5200, 0x02, 0x02, .u8, .wo, 2, 0, 0xFF, .oneOf [1, 2], .none, false, false⟩,
   ⟨0x5201, 0x5201, 0x01, 0x01, .u32, .rw, 0, 0, 0xFFFFFFFF, .any, .none, false, false⟩,
   ⟨0x5201, 0x5201, 0x02, 0x02, .dom, .ro, 0, 0, 0xFFFFFFFFFFFFFFFF, .any, .none, false, false⟩,
   ⟨0x5201, 0x5201, 0x03, 0x03, .u32, .ro, 0, 0, 0xFFFFFFFF, .any, .none, false, false⟩,
   ⟨0x5201, 0x5201, 0x04, 0x04, .u32, .ro, 0, 0, 0xFFFFFFFF, .any, .none, false, false⟩,
   ⟨0x5202, 0x5202, 0x01, 0x01, .u64, .ro, 0, 0, 0xFFFFFFFFFFFFFFFF, .any, .none, true, false⟩,
   ⟨0x5202, 0x5202, 0x02, 0x02, .u16, .rw, 2, 0x64, 0xFFFF, .rng 1 10000, .none, false, false⟩,
   ⟨0x5202, 0x5202, 0x03, 0x03, .u32, .rw, 2, 0x3E8, 0xFFFFFFFF, .rng 1 86400000, .none, false, false⟩,
   ⟨0x5203, 0x5203, 0x01, 0x07, .u32, .rw, 2, 0x800003E8, 0x803FFFFF, .any, .none, false, true⟩,
   ⟨0x5204, 0x5204, 0x01, 0x01, .u8, .rw, 2, 0, 0xFF, .any, .none, false, false⟩,
   ⟨0x5204, 0x5204, 0x02, 0x02, .i64, .wo, 2, 0, 0xFFFFFFFFFFFFFFFF, .any, .none, false, false⟩]
/-- Objects of block PMC. -/
def rowsPMC : List ObjRow :=
  [⟨0x5300, 0x5300, 0x01, 0x01, .u16, .rw, 0, 0, 0xFFFF, .any, .none, false, false⟩,
   ⟨0x5300, 0x5300, 0x02, 0x02, .u64, .ro, 0, 0, 0xFFFFFFFFFFFFFFFF, .any, .none, false, false⟩,
   ⟨0x5301, 0x5301, 0x00, 0x00, .dom, .ro, 0, 0, 0xFFFFFFFFFFFFFFFF, .any, .none, false, false⟩,
   ⟨0x5302, 0x5302, 0x10, 0x55, .dom, .ro, 0, 0, 0xFFFFFFFFFFFFFFFF, .any, .none, false, false⟩,
   ⟨0x5303, 0x5303, 0x01, 0x10, .u32, .rw, 2, 0, 0x8FFFFFFF, .any, .none, false, false⟩,
   ⟨0x5304, 0x5304, 0x01, 0x10, .u64, .ro, 0, 0, 0xFFFFFFFFFFFFFFFF, .any, .none, true, false⟩,
   ⟨0x5305, 0x5305, 0x01, 0x01, .u32, .rw, 2, 0x3E8, 0xFFFFFFFF, .rng 1 1000000, .none, false, false⟩,
   ⟨0x5305, 0x5305, 0x02, 0x02, .u64, .ro, 0, 0, 0xFFFFFFFFFFFFFFFF, .any, .none, false, false⟩,
   ⟨0x5306, 0x5306, 0x01, 0x12, .u64, .ro, 0, 0, 0xFFFFFFFFFFFFFFFF, .any, .none, false, false⟩,
   ⟨0x5307, 0x5307, 0x01, 0x12, .u64, .ro, 0, 0, 0xFFFFFFFFFFFFFFFF, .any, .none, false, false⟩]
/-- Objects of block SNP. -/
def rowsSNP : List ObjRow :=
  [⟨0x5400, 0x5400, 0x01, 0x01, .u32, .ro, 0, 0, 0xFFFFFFFF, .any, .none, false, false⟩,
   ⟨0x5400, 0x5400, 0x02, 0x02, .u8, .wo, 2, 0, 0xFF, .oneOf [1, 2, 3], .none, false, false⟩,
   ⟨0x5401, 0x5401, 0x01, 0x01, .u32, .rw, 3, 0, 0x7, .any, .none, false, true⟩,
   ⟨0x5401, 0x5401, 0x02, 0x02, .u64, .rw, 3, 0, 0xFFFFFFFFFFFFFFFF, .any, .none, false, false⟩,
   ⟨0x5401, 0x5401, 0x03, 0x03, .u32, .rws, 3, 0x20D80000, 0xFFFFFFFF, .mult 0x20200000 0x20FC0000 65536, .none, false, false⟩,
   ⟨0x5402, 0x5402, 0x01, 0x01, .u32, .ro, 0, 0, 0xFFFFFFFF, .any, .none, false, false⟩,
   ⟨0x5402, 0x5402, 0x02, 0x02, .u32, .rw, 0, 0, 0xFFFFFFFF, .any, .none, false, false⟩,
   ⟨0x5402, 0x5402, 0x03, 0x03, .dom, .ro, 0, 0, 0xFFFFFFFFFFFFFFFF, .any, .none, false, false⟩,
   ⟨0x5402, 0x5402, 0x04, 0x04, .dom, .ro, 0, 0, 0xFFFFFFFFFFFFFFFF, .any, .none, false, false⟩,
   ⟨0x5403, 0x5403, 0x01, 0x01, .u64, .ro, 0, 0, 0xFFFFFFFFFFFFFFFF, .any, .none, true, false⟩,
   ⟨0x5403, 0x5403, 0x02, 0x02, .u64, .ro, 0, 0, 0xFFFFFFFFFFFFFFFF, .any, .none, true, false⟩,
   ⟨0x5403, 0x5403, 0x03, 0x03, .u64, .ro, 0, 0, 0xFFFFFFFFFFFFFFFF, .any, .none, true, false⟩]
  ++ [⟨0x5403, 0x5403, 0x04, 0x04, .u64, .ro, 0, 0, 0xFFFFFFFFFFFFFFFF, .any, .none, true, false⟩]
/-- Objects of block HLT. -/
def rowsHLT : List ObjRow :=
  [⟨0x5500, 0x5500, 0x01, 0x01, .u32, .ro, 0, 0, 0xFFFFFFFF, .any, .none, false, false⟩,
   ⟨0x5501, 0x5501, 0x01, 0x08, .i32, .ro, 0, 0, 0xFFFFFFFF, .any, .none, false, false⟩,
   ⟨0x5502, 0x5502, 0x01, 0x08, .u32, .ro, 0, 0, 0xFFFFFFFF, .any, .none, false, true⟩,
   ⟨0x5503, 0x5503, 0x01, 0x0A, .u32, .ro, 0, 0xFFFFFFFF, 0xFFFFFFFF, .any, .none, false, false⟩,
   ⟨0x5504, 0x5504, 0x01, 0x01, .u32, .rw, 3, 0x7530, 0xFFFFFFFF, .rng 1000 200000, .none, false, true⟩,
   ⟨0x5504, 0x5504, 0x02, 0x02, .u32, .rw, 3, 0x16D, 0xFFFFFFFF, .any, .none, false, true⟩,
   ⟨0x5504, 0x5504, 0x03, 0x03, .i32, .rw, 3, 0x19A28, 0xFFFFFFFF, .any, .none, false, true⟩,
   ⟨0x5505, 0x5505, 0x01, 0x01, .u16, .wo, 3, 0, 0xFFFF, .any, .none, false, false⟩,
   ⟨0x5505, 0x5505, 0x02, 0x02, .u32, .ro, 0, 0, 0xFFFFFFFF, .any, .none, false, false⟩,
   ⟨0x5505, 0x5505, 0x03, 0x03, .u32, .ro, 0, 0, 0xFFFFFFFF, .any, .none, false, false⟩,
   ⟨0x5505, 0x5505, 0x04, 0x04, .u64, .ro, 0, 0, 0xFFFFFFFFFFFFFFFF, .any, .none, true, false⟩]

/-- The rows of a block, by the high byte of the index (R29). -/
def blockRows (hi : Nat) : List ObjRow :=
  match hi with
  | 0x10 => rowsIDN
  | 0x11 => rowsDIC
  | 0x12 => rowsPWR
  | 0x13 => rowsSTR
  | 0x14 => rowsSEC
  | 0x20 => rowsTDS
  | 0x21 => rowsTSK
  | 0x22 => rowsIMG
  | 0x23 => rowsTMR
  | 0x24 => rowsOLC
  | 0x28 => rowsCPU
  | 0x30 => rowsHNW
  | 0x32 => rowsNTM
  | 0x34 => rowsRED
  | 0x36 => rowsFIO
  | 0x38 => rowsMBC
  | 0x3A => rowsDMA
  | 0x3C => rowsBDR
  | 0x3D => rowsCAL
  | 0x3E => rowsRSV
  | 0x50 => rowsWDG
  | 0x51 => rowsFLT
  | 0x52 => rowsSTA
  | 0x53 => rowsPMC
  | 0x54 => rowsSNP
  | 0x55 => rowsHLT
  | _ => if 0x40 ≤ hi ∧ hi ≤ 0x4F then rowsHST else []

def ObjRow.has (r : ObjRow) (idx sub : Nat) : Bool :=
  decide (r.ilo ≤ idx) && decide (idx ≤ r.ihi) && decide (r.slo ≤ sub) && decide (sub ≤ r.shi)

/-- Keys of a row's objects under one high byte. -/
def ObjRow.keysIn (r : ObjRow) (hi : Nat) : List Nat :=
  (List.range (r.ihi + 1 - r.ilo)).flatMap fun i =>
    if (r.ilo + i) / 256 = hi then (List.range (r.shi + 1 - r.slo)).map fun k => (r.ilo + i) * 256 + r.slo + k else []

/-- The table's row of an object, by its key. -/
def objRow (key : Nat) : Option ObjRow :=
  (blockRows (key / 65536)).find? fun r => r.has (key / 256) (key % 256)

/-- The default of an object (R44), and 0 for a key that names none. That of HNW.MAC is the device's (R299). -/
def objDefault (key : Nat) : Nat :=
  if key = K.HNW_MAC then Config.mac Config.serial % 2 ^ 40 + 2 ^ 41 + Config.mac Config.serial / 2 ^ 42 % 64 * 2 ^ 42
  else match objRow key with
    | some r => r.dflt
    | none => 0

/-- A counter that is never reset (R494). -/
def isCounter (key : Nat) : Bool :=
  match objRow key with
  | some r => r.counter
  | none => false

/-- An object marked retained (R44). -/
def isRetained (key : Nat) : Bool :=
  match objRow key with
  | some r => r.retained
  | none => false

end Sys2Proof.Machine
end

