-- ==== Sys2Proof/Machine/Ops.lean ====
section
/-! DEFINITION. The shared operations over sparse maps, bit fields, memories, objects and the tables of State. -/

namespace Sys2Proof.Machine

/-! ### Sparse maps -/

/-- The value at a key, the default where the key is not listed.
(DESIGN CHOICE, safe: log 77.) -/
def mget {α : Type} (d : Nat → α) : SMap α → Nat → α
  | [], k => d k
  | (k', v) :: t, k => if k' = k then v else mget d t k

/-- The map without a key. -/
def merase {α : Type} : SMap α → Nat → SMap α
  | [], _ => []
  | (k', v') :: t, k => if k' = k then merase t k else (k', v') :: merase t k

/-- The map with a key listed under a value. -/
def minsert {α : Type} : SMap α → Nat → α → SMap α
  | [], k, v => [(k, v)]
  | (k', v') :: t, k, v =>
    if k < k' then (k, v) :: (k', v') :: t
    else if k' = k then (k, v) :: t
    else (k', v') :: minsert t k v

/-- The map with one value changed; a value equal to its default leaves the list.
(DESIGN CHOICE, safe: log 77.) -/
def mput {α : Type} [DecidableEq α] (d : Nat → α) (m : SMap α) (k : Nat) (v : α) : SMap α :=
  if v = d k then merase m k else minsert m k v

/-- Every key of the list is above a bound, the keys rise, and no entry is its default. -/
def mwfFrom {α : Type} [DecidableEq α] (d : Nat → α) : Nat → SMap α → Bool
  | _, [] => true
  | lo, (k, v) :: t => decide (lo ≤ k) && decide (v ≠ d k) && mwfFrom d (k + 1) t

/-- The canonical form of a sparse map. -/
def mwf {α : Type} [DecidableEq α] (d : Nat → α) (m : SMap α) : Bool := mwfFrom d 0 m

/-! ### Numbers and fields -/

/-- Bits hi..lo of a number. -/
def bits (v hi lo : Nat) : Nat := v / 2 ^ lo % 2 ^ (hi + 1 - lo)

/-- Bit n of a number. -/
def bit (v n : Nat) : Bool := v.testBit n

def b2n (b : Bool) : Nat := if b then 1 else 0

/-- Number v with bit n set to b. -/
def putBit (v n : Nat) (b : Bool) : Nat :=
  if v.testBit n = b then v else if b then v + 2 ^ n else v - 2 ^ n

/-- The bits of a mask below w, rising. -/
def bitList (w v : Nat) : List Nat := (List.range w).filter fun i => v.testBit i

/-- A mask with the listed bits. -/
def maskOf (l : List Nat) : Nat := l.foldl (fun a i => putBit a i true) 0

/-- Two's complement of width w read as an integer. -/
def toS (w v : Nat) : Int := if 2 ^ (w - 1) ≤ v % 2 ^ w then (v % 2 ^ w : Nat) - (2 ^ w : Nat) else (v % 2 ^ w : Nat)

/-- An integer as two's complement of width w. -/
def ofS (w : Nat) (i : Int) : Nat := (i % (2 ^ w : Nat)).toNat

/-- n bytes of a number, least significant first (R5). -/
def leBytes : Nat → Nat → List Byte
  | 0, _ => []
  | n + 1, v => BitVec.ofNat 8 v :: leBytes n (v / 256)

/-- The number that bytes hold, least significant first (R5). -/
def leNat : List Byte → Nat
  | [] => 0
  | b :: t => b.toNat + 256 * leNat t

/-- n bytes of a number, most significant first: network byte order (R5, R267). -/
def beBytes (n v : Nat) : List Byte := (leBytes n v).reverse

/-- Bytes at..at+n of a list, zeros past its end. -/
def slice (l : List Byte) (at_ n : Nat) : List Byte :=
  let t := (l.drop at_).take n
  t ++ List.replicate (n - t.length) 0

def leAt (l : List Byte) (at_ n : Nat) : Nat := leNat (slice l at_ n)

def beAt (l : List Byte) (at_ n : Nat) : Nat := leNat (slice l at_ n).reverse

/-- A list with bytes put at an offset; the list is first padded with zeros to reach it. -/
def patch (l : List Byte) (at_ : Nat) (b : List Byte) : List Byte :=
  let l' := l ++ List.replicate (at_ + b.length - l.length) 0
  l'.take at_ ++ b ++ l'.drop (at_ + b.length)

def satAdd (lim a b : Nat) : Nat := Nat.min lim (a + b)

/-- One value more than the last of a FIFO, dropped at the front until at most n stay. -/
def keepLast {α : Type} (n : Nat) (l : List α) : List α := l.drop (l.length - n)

/-- The smallest multiple of p above v, and v itself plus one where p is 0. -/
def nextMultiple (p v : Nat) : Nat := if p = 0 then v + 1 else (v / p + 1) * p

/-! ### The device -/

/-- IDN.FITTED of R26, one bit a die: Headland, S1–S6, Breakwater.
(DESIGN CHOICE, unsafe: log 4.) -/
def Part.fitted : Part → Nat
  | .axk2l => 0x0003
  | .axk4 => 0x000F
  | .axk4f => 0x008F
  | .axk7 => 0x007F
  | .axk8f => 0x00FF

/-- IDN.PART of R26.
(DESIGN CHOICE, unsafe: log 4.) -/
def Part.code : Part → Nat
  | .axk2l => 0x20
  | .axk4 => 0x40
  | .axk4f => 0x41
  | .axk7 => 0x70
  | .axk8f => 0x81

/-- Strand n (1–6) is fitted (R1). -/
def State.strandFitted (s : State) (n : Nat) : Bool := decide (1 ≤ n) && decide (n ≤ 6) && bit s.part.fitted n

/-- Breakwater is fitted (R1). -/
def State.bwFitted (s : State) : Bool := bit s.part.fitted 7

/-- Strand of a global core number (R4). -/
def strandOf (c : Nat) : Nat := c / 4 + 1

def State.coreFitted (s : State) (c : Nat) : Bool := decide (c < 24) && s.strandFitted (strandOf c)

/-- Global cores of the device. -/
def State.cores24 (s : State) : List Nat := (List.range 24).filter s.coreFitted

/-- Strands of the device. -/
def State.strands (s : State) : List Nat := (List.range 7).filter s.strandFitted

/-! ### Memories: memory number × 2^32 + offset -/

def memBase (m : Nat) : Nat := m * 2 ^ 32

/-- Program bank A of Strand n. -/
def mBankA (n : Nat) : Nat := memBase (0x10 + n)
/-- Program bank B of Strand n. -/
def mBankB (n : Nat) : Nat := memBase (0x20 + n)
/-- Data SRAM of Strand n. -/
def mData (n : Nat) : Nat := memBase (0x30 + n)
/-- Timer array of Strand n. -/
def mTimer (n : Nat) : Nat := memBase (0x40 + n)
/-- Headland image and global SRAM. -/
def mHead : Nat := memBase 0x50
/-- Bedrock. -/
def mBed : Nat := memBase 0x51
/-- The input assembly region (R179). -/
def mAsm : Nat := memBase 0x52
/-- The frame image (R189). -/
def mFrame : Nat := memBase 0x53

/-- The active bank of a Strand: 0 A, 1 B. -/
def State.activeBank (s : State) (n : Nat) : Nat := if bit s.olc.active n then mBankB n else mBankA n
def State.altBank (s : State) (n : Nat) : Nat := if bit s.olc.active n then mBankA n else mBankB n

/-- What a byte that memory does not list reads as: zero, as SRAM is written with at power-up (R523).
(DESIGN CHOICE, unsafe: log 5.) -/
def memDflt : Nat → Byte := fun _ => 0

/-- The canonical form of memory: addresses rise, and no entry equals what an unlisted address reads as. -/
abbrev Memory.wf (m : List Host.Cell) : Bool := mwf memDflt m

def State.byte (s : State) (a : Nat) : Byte := mget memDflt s.mem a

def State.setByte (s : State) (a : Nat) (v : Byte) : State := { s with mem := mput memDflt s.mem a v }

/-- n bytes from an address. -/
def State.bytesAt (s : State) (a n : Nat) : List Byte := (List.range n).map fun i => s.byte (a + i)

/-- The little-endian number in n bytes (R5). -/
def State.rd (s : State) (a n : Nat) : Nat := leNat (s.bytesAt a n)

/-- Bytes stored from an address on. -/
def State.putBytes (s : State) : Nat → List Byte → State
  | _, [] => s
  | a, b :: t => State.putBytes (s.setByte a b) (a + 1) t

/-- A little-endian number stored in n bytes (R5). -/
def State.wr (s : State) (a n v : Nat) : State := s.putBytes a (leBytes n v)

/-- Memory with a range of n bytes cleared. -/
def State.clearMem (s : State) (a n : Nat) : State :=
  { s with mem := s.mem.filter fun c => decide (c.1 < a) || decide (a + n ≤ c.1) }

/-- n bytes copied between ranges that do not overlap. -/
def State.blit (s : State) (src dst n : Nat) : State :=
  let l := s.mem.filter fun c => decide (src ≤ c.1) && decide (c.1 < src + n)
  l.foldl (fun s c => s.setByte (dst + (c.1 - src)) c.2) (s.clearMem dst n)

/-! ### Errors in SRAM (R90) -/

/-- The worst error in n bytes: 0 none, 1 corrected, 2 a double-bit error.
(DESIGN CHOICE, unsafe: log 76.) -/
def State.eccOf (s : State) (key n : Nat) : Nat :=
  s.ecc.foldl (fun a e => if key ≤ e.1 ∧ e.1 < key + n then Nat.max a e.2 else a) 0

/-- A write leaves no error in the bytes it writes. -/
def State.eccClear (s : State) (key n : Nat) : State :=
  if s.ecc = [] then s
  else { s with ecc := s.ecc.filter fun e => decide (e.1 < key) || decide (key + n ≤ e.1) }

/-! ### Objects -/

/-- Value of an object that holds one of its own.
(DESIGN CHOICE, safe: log 77.) -/
def State.ob (s : State) (key : Nat) : Nat := mget objDefault s.objs key

def State.setOb (s : State) (key v : Nat) : State := { s with objs := mput objDefault s.objs key v }

/-- A 64-bit counter advanced by n (R494). -/
def State.addOb (s : State) (key n : Nat) : State := s.setOb key ((s.ob key + n) % 2 ^ 64)

def State.incOb (s : State) (key : Nat) : State := s.addOb key 1

/-! ### What the errors in SRAM leave (R90, R420) -/

/-- Single-bit errors in n bytes. -/
def State.singles (s : State) (key n : Nat) : Nat :=
  (s.ecc.filter fun e => decide (key ≤ e.1) && decide (e.1 < key + n) && decide (e.2 = 1)).length

/-- Corrected single-bit errors are counted (R90).
(DESIGN CHOICE, unsafe: log 76.) -/
def State.countCorr (s : State) (c key n : Nat) : State :=
  if s.singles key n ≠ 0 then s.addOb (K.CPU_ECC_CORR (c + 1)) (s.singles key n) else s

/-- What a channel reads of a Strand's memory: the spec names no core for it, and the Strand's first one counts (R90, R420).
(DESIGN CHOICE, unsafe: log 76.) -/
def State.strandCorr (s : State) (n key len : Nat) : State := s.countCorr (4 * (n - 1)) key len

/-- Offset of the 16-byte access of a transfer of n bytes from key on that meets its first double-bit error. -/
def State.badAt (s : State) (key n : Nat) : Option Nat :=
  (((s.ecc.filter fun e => decide (key ≤ e.1) && decide (e.1 < key + n) && decide (e.2 = 2)).map fun e => e.1 - key).min?).map
    fun o => o / 16 * 16

/-- Bytes of a domain or octet string that holds its own. -/
def State.dom (s : State) (key : Nat) : List Byte := mget (fun _ => []) s.doms key

def State.setDom (s : State) (key : Nat) (b : List Byte) : State :=
  { s with doms := mput (fun _ => []) s.doms key b }

/-! ### Tables of State -/

def State.ses (s : State) (n : Nat) : Ses := mget (fun _ => Ses.init) s.sess n
def State.setSes (s : State) (n : Nat) (x : Ses) : State := { s with sess := mput (fun _ => Ses.init) s.sess n x }
def State.ctx (s : State) (g : Nat) : Ctx := mget (fun _ => Ctx.init) s.ctxs g
def State.setCtx (s : State) (g : Nat) (x : Ctx) : State := { s with ctxs := mput (fun _ => Ctx.init) s.ctxs g x }
def State.core (s : State) (c : Nat) : CoreSt := mget (fun _ => CoreSt.init) s.cores c
def State.setCore (s : State) (c : Nat) (x : CoreSt) : State :=
  { s with cores := mput (fun _ => CoreSt.init) s.cores c x }
def State.task (s : State) (t : Nat) : Task := mget (fun _ => Task.init) s.tasks t
def State.setTask (s : State) (t : Nat) (x : Task) : State :=
  { s with tasks := mput (fun _ => Task.init) s.tasks t x }
def State.stn (s : State) (n : Nat) : Sta := mget (fun _ => Sta.init) s.hnw.sta n
def State.setStn (s : State) (n : Nat) (x : Sta) : State :=
  { s with hnw := { s.hnw with sta := mput (fun _ => Sta.init) s.hnw.sta n x } }
def State.mb (s : State) (k : Nat) : Mbc := mget (fun _ => Mbc.init) s.mbc k
def State.setMb (s : State) (k : Nat) (x : Mbc) : State := { s with mbc := mput (fun _ => Mbc.init) s.mbc k x }
def State.ch (s : State) (k : Nat) : Dma := mget (fun _ => Dma.init) s.dma k
def State.setCh (s : State) (k : Nat) (x : Dma) : State := { s with dma := mput (fun _ => Dma.init) s.dma k x }
def State.wd (s : State) (n : Nat) : Wdg := mget (fun _ => Wdg.init) s.wdg n
def State.setWd (s : State) (n : Nat) (x : Wdg) : State := { s with wdg := mput (fun _ => Wdg.init) s.wdg n x }
def State.owner (s : State) (line : Nat) : Nat := mget (fun _ => 0) s.owners line
def State.setOwner (s : State) (line v : Nat) : State := { s with owners := mput (fun _ => 0) s.owners line v }

/-! ### Power domains (R520) -/

def dBK : Nat := 1
def dAO : Nat := 2
def dHC : Nat := 3
def dNV : Nat := 4
def dNW : Nat := 5
def dRL : Nat := 6
def dMB : Nat := 7
def dDM : Nat := 8
/-- Domain of Strand n. -/
def dS (n : Nat) : Nat := 8 + n
def dFL : Nat := 15

/-- The domain exists in this variant (R520). -/
def State.domFitted (s : State) (d : Nat) : Bool :=
  if 9 ≤ d ∧ d ≤ 14 then s.strandFitted (d - 8) else if d = 15 then s.bwFitted else decide (1 ≤ d) && decide (d ≤ 8)

def State.domSt (s : State) (d : Nat) : DomSt := mget (fun _ => DomSt.on) s.pwr.dom d
def State.setDomSt (s : State) (d : Nat) (x : DomSt) : State :=
  { s with pwr := { s.pwr with
    dom := mput (fun _ => DomSt.on) s.pwr.dom d x
    since := mput (fun _ => 0) s.pwr.since d s.ntm.mono } }

/-- Objects of the domain can be reached: it reads ON (R11, R522). -/
def State.domOn (s : State) (d : Nat) : Bool := s.domFitted d && decide (s.domSt d = .on)

/-- A memory of the domain can be reached: the domain has not yet been cut off (R11, R522). -/
def State.domMem (s : State) (d : Nat) : Bool :=
  s.domFitted d && (decide (s.domSt d = .on) || decide (s.domSt d = .draining))

/-- The link of a die is up (R15); the Headland has none. -/
def State.linkUp (s : State) (die : Nat) : Bool := !bit s.pwr.linkDown die

/-- A Strand's memories answer over its link (R11, R12, R15). -/
def State.strandUp (s : State) (n : Nat) : Bool := s.strandFitted n && s.domMem (dS n) && s.linkUp n

/-- The domain that holds a block's objects, by the high byte of the index and the subindex (R10).
(DEDUCED, unsafe: log 87.)
(DESIGN CHOICE, unsafe: log 88.) -/
def blockDomain (key : Nat) : Nat :=
  let hi := key / 65536
  let sub := key % 256
  match hi with
  | 0x10 => dAO
  | 0x12 => dAO
  | 0x13 => dAO
  | 0x14 => dAO
  | 0x23 => dS sub
  | 0x28 => dS ((sub - 1) / 4 + 1)
  | 0x30 => dNW
  | 0x34 => dRL
  | 0x36 => dFL
  | 0x38 => dMB
  | 0x3A => dDM
  | 0x3C => dNV
  | 0x3D => dBK
  | 0x3E => dBK
  | 0x50 => if key / 256 ≤ 0x5008 ∧ sub ≤ 0x18 then dS ((sub - 1) / 4 + 1) else dAO
  | 0x51 => dAO
  | 0x52 => dAO
  | 0x53 => dAO
  | 0x54 => dAO
  | 0x55 => dAO
  | _ => if 0x40 ≤ hi ∧ hi ≤ 0x4F then dNW else dHC

/-! ### Free values -/

/-- One more draw from the free values of Config.
(DESIGN CHOICE, safe: log 20.)
(DESIGN CHOICE, safe: log 21.) -/
def State.draw (s : State) : State := { s with fresh := s.fresh + 1 }

/-! ### Time (R301, R207) -/

/-- The clock's seconds and nanoseconds as one number (R301). -/
def State.clockNs (s : State) : Nat := s.ntm.sec * 1000000000 + s.ntm.nsec

/-- The ns count of every launch time, gate base and POINT: modulo 2^64 (R301). -/
def State.ns (s : State) : Nat := s.clockNs % 2 ^ 64

/-- The microsecond count of R207. -/
def State.us (s : State) : Nat := s.ntm.usec

/-- A die's local copy of the microsecond count, as its latest token set it (R18). -/
def State.dieUs (s : State) (die : Nat) : Nat := mget (fun _ => 0) s.ntm.die die

/-! ### Combinators -/

/-- A change made where a condition holds.
(DESIGN CHOICE, unsafe: log 7.) -/
def State.when (s : State) (c : Bool) (f : State → State) : State := if c then f s else s

/-- A change made for each element in turn. -/
def State.each {α : Type} (s : State) (l : List α) (f : State → α → State) : State := l.foldl f s

/-- The die that keeps an object, by the bit of IDN.FITTED. -/
def dieOf (key : Nat) : Nat :=
  let d := blockDomain key
  if 9 ≤ d ∧ d ≤ 14 then d - 8 else if d = dFL then 7 else 0

/-- The key of the object a staged write names. -/
def Staged.key (w : Staged) : Nat := w.idx * 256 + w.sub

/-- Bits of STATUS and TRAPMASK that exist. -/
def statusMask : Nat := 0x7F

end Sys2Proof.Machine
end

