-- ==== Sys2Proof/Machine/Record.lean ====
section
/-! DEFINITION. Raw fault records on their way to the collector (R483, R485), and Strata samples (R500–R506). -/

namespace Sys2Proof.Machine

/-- A source delivers one raw record; it waits until the collector accepts it (R483). -/
def State.raise (s : State) (cls key src root detail extra : Nat) : State :=
  { s with flt := { s.flt with queue := s.flt.queue ++
      [{ cls := cls, key := key % 65536, src := src % 65536, root := root % 65536, detail := detail % 2 ^ 32,
         extra := extra % 2 ^ 32 }] } }

/-- A record keyed by "source, state" (R485). -/
def State.raiseSt (s : State) (cls src : Nat) (up : Bool) (detail : Nat) : State :=
  s.raise cls (2 * src + b2n up) src 0 detail 0

/-! ### Strata -/

/-- The histogram bin of a value (R503). -/
def strataBin (shift : Nat) (v : Int) : Nat :=
  let u := if 0 < v then v.toNat / 2 ^ shift else 0
  if u = 0 then 0 else Nat.min 15 (1 + Nat.log2 u)

def int64Min : Int := -(2 ^ 63 : Nat)
def int64Max : Int := (2 ^ 63 : Nat) - 1

def clampTo (lo hi v : Int) : Int := if v < lo then lo else if hi < v then hi else v

/-- A record with one more sample (R502), closed once its count reaches the group's SAMPLES. -/
def SRec.join (r : SRec) (v : Int) (now samples : Nat) : SRec :=
  let bin := strataBin r.shift v
  let h := mget (fun _ => 0) r.hist bin
  let sum := clampTo int64Min int64Max (r.sum + v)
  { r with
    last := now
    count := r.count + 1
    min := if v < r.min then v else r.min
    max := if r.max < v then v else r.max
    sum := sum
    sat := r.sat || decide (sum ≠ r.sum + v)
    hist := mput (fun _ => 0) r.hist bin (satAdd (2 ^ 32 - 1) h 1)
    isOpen := r.isOpen && decide (r.count + 1 < samples) }

/-- A record opened by its first sample (R502, R504). -/
def SRec.start (seq cls key shift : Nat) (v : Int) (now samples : Nat) : SRec :=
  { seq := seq, cls := cls, key := key, isOpen := decide (1 < samples), gap := false, sat := false, shift := shift,
    first := now, last := now, count := 1, min := v, max := v, sum := v,
    hist := mput (fun _ => 0) [] (strataBin shift v) 1, missed := false }

/-- The newest record of a class and key. -/
def State.newestRec (s : State) (cls key : Nat) : Option SRec :=
  s.sta.recs.find? fun r => decide (r.cls = cls) && decide (r.key = key)

/-- Records with the one of a sequence number replaced. -/
def setRec (l : List SRec) (x : SRec) : List SRec := l.map fun r => if r.seq = x.seq then x else r

/-- The open record with the lowest sequence number is closed. -/
def closeLowest (l : List SRec) : List SRec :=
  match (l.filter fun r => r.isOpen).getLast? with
  | some x => setRec l { x with isOpen := false }
  | none => l

/-- A record whose KEY and CLASS the group records: group enabled, samples and shift of STA.GROUP_CFG (R516). -/
def State.sample (s : State) (cls key : Nat) (v : Int) : State :=
  let cfg := s.ob (K.STA_GROUP_CFG (cls / 256 + 1))
  let samples := bits cfg 15 0
  let now := s.ns
  if bit cfg 31 = false then s
  else
    let old := s.newestRec cls key
    let joins := match old with
      | some r => r.isOpen && decide (r.count < samples) &&
          decide (now ≤ r.last + s.ob K.STA_REPEAT_GAP * 1000000)
      | none => false
    if s.sta.frozen then
      let s := s.incOb K.STA_MISSED
      match old with
      | some r => if r.isOpen then
          { s with sta := { s.sta with recs := setRec s.sta.recs { r with missed := true } } } else s
      | none => s
    else
      match joins, old with
      | true, some r => { s with sta := { s.sta with recs := setRec s.sta.recs (r.join v now samples) } }
      | _, _ =>
        let n := (s.sta.newest + 1) % 2 ^ 32
        let l := if 1024 ≤ (s.sta.recs.filter fun r => r.isOpen).length then closeLowest s.sta.recs
          else s.sta.recs
        let r := SRec.start n cls key (bits cfg 21 16) v now samples
        { s with sta := { s.sta with recs := (r :: l).take 2048, newest := n } }

end Sys2Proof.Machine
end

