-- ==== Sys2Proof/Machine/Journal.lean ====
section
/-! DEFINITION. Bedrock's wear counts and its journal: every transaction goes through it, the software's, the device's own and
those of CNT64 (R438, R440, R445). -/

namespace Sys2Proof.Machine

def State.setBdr (s : State) (f : Bdr → Bdr) : State := { s with bdr := f s.bdr }

/-- Line writes counted on a page (R445). -/
def State.wear (s : State) (page n : Nat) : State :=
  s.setBdr fun b => { b with wear := mput (fun _ => 0) b.wear page (mget (fun _ => 0) b.wear page + n) }

/-- One line write counted for each line of a range. -/
def State.wearLines (s : State) (off n : Nat) : State :=
  s.each (List.range ((off % 64 + n + 63) / 64)) fun s i => s.wear ((off / 64 + i) / 64) 1

/-- Lines that hold a staged byte, rising. -/
def stagedLines (m : SMap (Option Byte)) : List Nat :=
  (m.map fun e => e.1 / 64).foldr (fun l t => if t.head? = some l then t else l :: t) []

def stageBytes (m : SMap (Option Byte)) : Nat → List Byte → SMap (Option Byte)
  | _, [] => m
  | off, b :: t => stageBytes (mput (fun _ => none) m off (some b)) (off + 1) t

/-! ### Journal -/

def Slot.init : Slot := { marked := false, used := false, bytes := [] }

def State.slot (s : State) (k : Nat) : Slot := mget (fun _ => Slot.init) s.bdr.slots k
def State.setSlot (s : State) (k : Nat) (x : Slot) : State :=
  s.setBdr fun b => { b with slots := mput (fun _ => Slot.init) b.slots k x }

/-- Staged bytes applied to their targets (R438, step 3). -/
def State.applyBytes (s : State) (m : SMap (Option Byte)) : State :=
  let s := s.each m fun s e => match e.2 with | some b => s.setByte (mBed + e.1) b | none => s
  s.each (stagedLines m) fun s l => s.wear (l / 64) 1

/-- A marked slot is applied whole and its mark cleared (R438, R441).
(DEDUCED, unsafe: log 60.) -/
def State.applySlot (s : State) (k : Nat) : State :=
  ((s.applyBytes (s.slot k).bytes).wear (448 + 2 * k) 1).setSlot k Slot.init

/-- The slot whose commit is being applied (R447). -/
def State.applying (s : State) : Option Nat := (List.range 8).find? fun k => (s.slot k).marked

/-- The commit in progress, if any, completes (R438, R440). -/
def State.finishApply (s : State) : State :=
  match s.applying with
  | some k => (s.applySlot k).incOb K.BDR_TXN_COMMITS
  | none => s

/-- Lines written into the next slot and its mark written (R438, steps 1 and 2). -/
def State.journal (s : State) (m : SMap (Option Byte)) : State :=
  let s := s.finishApply
  let k := s.bdr.next
  let s := (s.wear (448 + 2 * k) 14).wear (449 + 2 * k) (stagedLines m).length
  (s.setSlot k { marked := true, used := true, bytes := m }).setBdr fun b => { b with next := (k + 1) % 8 }

/-- A transaction of the device's own, committed and applied in turn (R440); false under INHIBIT. -/
def State.bedTxn (s : State) (m : SMap (Option Byte)) : State × Bool :=
  if s.bdr.inhibit then (s.incOb K.BDR_INHIBITED, false) else ((s.journal m).finishApply, true)

/-- A record of the device's own, written as a transaction of one line in one of the pages from first on: which, the spec does not
say (R432, R440). What the record then holds is f's; under INHIBIT nothing is written, and the refusal counts (R437).
(DESIGN CHOICE, safe: log 114.) -/
def State.devTxn (s : State) (first pages : Nat) (f : State → State) : State :=
  if s.domOn dNV = false then s
  else if s.bdr.inhibit then s.incOb K.BDR_INHIBITED
  else
    let s := s.finishApply
    let data := 449 + 2 * s.bdr.next
    f ((((s.journal []).finishApply).wear data 1).wear (first + Config.devicePage s.fresh % pages) 1).draw

/-- The same in the pages of the device records (R432). -/
def State.devRecord (s : State) (f : State → State) : State := s.devTxn 496 16 f

end Sys2Proof.Machine
end

