-- ==== Sys2Proof/Machine/Sched.lean ====
section
/-! DEFINITION. Contexts, their scheduling on each core (R69–R72, R152), and the events of
Keeper firmware (R146, R171). -/

namespace Sys2Proof.Machine

/-! ### Tasks and their tables (R172–R175) -/

def State.tskCfg (s : State) (t : Nat) : Nat := s.ob (K.TSK_CFG t)

/-- KIND of TSK.CFG: 0 unused, 1 cyclic, 2 event (R173). -/
def State.tskKind (s : State) (t : Nat) : Nat := bits (s.tskCfg t) 15 14

def State.tskUsed (s : State) (t : Nat) : Bool := decide (t ≠ 0) && decide (s.tskKind t ≠ 0)

/-- Number of sections (R173). -/
def State.tskNsec (s : State) (t : Nat) : Nat := bits (s.tskCfg t) 19 16 + 1

def State.tskFpol (s : State) (t : Nat) : Nat := bits (s.tskCfg t) 29 28

/-- Priority of a task: TDS.KPRIO for task 0 (R146). -/
def State.tskPrio (s : State) (t : Nat) : Nat :=
  if t = 0 then s.ob K.TDS_KPRIO else bits (s.tskCfg t) 13 8

/-- One section entry (R175). -/
structure SecEntry where
  core : Nat
  ctx : Nat
  pred : Nat
  entry : Nat
  stkLo : Nat
  stkHi : Nat
  inFirst : Nat
  inCount : Nat
  outFirst : Nat
  outCount : Nat
  arg : Nat
  deriving DecidableEq, Repr

/-- Section entries that TSK.SECTIONS holds (R175). -/
def State.secHeld (s : State) (t : Nat) : Nat := (s.dom (K.TSK_SECTIONS t)).length / 32

def State.secEntry (s : State) (t i : Nat) : SecEntry :=
  let b := (s.dom (K.TSK_SECTIONS t)).drop (32 * i)
  { core := leAt b 0 1, ctx := leAt b 1 1, pred := leAt b 2 2, entry := leAt b 4 4, stkLo := leAt b 8 4,
    stkHi := leAt b 12 4, inFirst := leAt b 16 2, inCount := leAt b 18 2, outFirst := leAt b 20 2,
    outCount := leAt b 22 2, arg := leAt b 24 4 }

def State.secs (s : State) (t : Nat) : List Nat := List.range (s.tskNsec t)

/-- Context of a section, as 16 × core + context. -/
def State.secCtx (s : State) (t i : Nat) : Nat := let e := s.secEntry t i; 16 * e.core + e.ctx

/-- One entry of TSK.LISTS (R153). -/
structure ListEntry where
  area : Nat
  len : Nat
  dst : Nat
  src : Nat
  deriving DecidableEq, Repr

/-- Entry j of TSK.LISTS; one that it does not hold reads as zeros.
(DESIGN CHOICE, unsafe: log 95.) -/
def State.listEntry (s : State) (t j : Nat) : ListEntry :=
  let v := leAt ((s.dom (K.TSK_LISTS t)).drop (8 * j)) 0 8
  { area := bits v 63 62, len := bits v 61 46, dst := bits v 31 16, src := bits v 15 0 }

def State.inEntries (s : State) (t i : Nat) : List ListEntry :=
  let e := s.secEntry t i
  (List.range e.inCount).map fun j => s.listEntry t (e.inFirst + j)

def State.outEntries (s : State) (t i : Nat) : List ListEntry :=
  let e := s.secEntry t i
  (List.range e.outCount).map fun j => s.listEntry t (e.outFirst + j)

/-- Every task that is not unused. -/
def State.usedTasks (s : State) : List Nat := (List.range 256).filter s.tskUsed

def State.modTask (s : State) (t : Nat) (f : Task → Task) : State := s.setTask t (f (s.task t))
def State.modCtx (s : State) (g : Nat) (f : Ctx → Ctx) : State := s.setCtx g (f (s.ctx g))

/-! ### Registers of a context -/

/-- g register n; g0 reads as 0 (R65). -/
def Ctx.gr (x : Ctx) (n : Nat) : Word := if n = 0 then 0 else mget (fun _ => (0 : Word)) x.g n

/-- A write of g register n; one to g0 is discarded (R65). -/
def Ctx.setG (x : Ctx) (n : Nat) (v : Word) : Ctx :=
  if n = 0 then x else { x with g := mput (fun _ => (0 : Word)) x.g n v }

def Ctx.fr (x : Ctx) (n : Nat) : DWord := mget (fun _ => (0 : DWord)) x.f n
def Ctx.setF (x : Ctx) (n : Nat) (v : DWord) : Ctx := { x with f := mput (fun _ => (0 : DWord)) x.f n v }

/-- Special register n where the context holds it under that number (R66). -/
def Ctx.sreg (x : Ctx) (n : Nat) : Word := mget (fun _ => (0 : Word)) x.sr n
def Ctx.setS (x : Ctx) (n : Nat) (v : Word) : Ctx := { x with sr := mput (fun _ => (0 : Word)) x.sr n v }

/-- The pair g n and g n+1 as one 64-bit value (R65). -/
def Ctx.pair (x : Ctx) (n : Nat) : DWord := x.gr (n + 1) ++ x.gr n
def Ctx.setPair (x : Ctx) (n : Nat) (v : DWord) : Ctx :=
  (x.setG n (v.extractLsb' 0 32)).setG (n + 1) (v.extractLsb' 32 32)

/-- Sticky bits set in STATUS (R67). -/
def Ctx.stick (x : Ctx) (m : Nat) : Ctx := x.setS 1 (x.sreg 1 ||| BitVec.ofNat 32 m)

/-! ### The running context -/

/-- Contexts of a core. -/
def ctxsOf (c : Nat) : List Nat := (List.range 16).map fun n => 16 * c + n

/-- The running context of a core, as 16 × core + context. -/
def State.running (s : State) (c : Nat) : Option Nat := (ctxsOf c).find? fun g => (s.ctx g).cs = .running

/-- Context a comes before context b by priority, release, task and section (R152). -/
def State.before (s : State) (a b : Nat) : Bool :=
  let x := s.ctx a
  let y := s.ctx b
  let p := s.tskPrio x.task
  let q := s.tskPrio y.task
  decide (p < q) || (decide (p = q) && (decide (x.relSeq < y.relSeq) || (decide (x.relSeq = y.relSeq) &&
    (decide (x.task < y.task) || (decide (x.task = y.task) && decide (x.sec < y.sec))))))

/-- The READY or PREEMPTED context that comes first on a core (R152). -/
def State.bestCtx (s : State) (c : Nat) : Option Nat :=
  let l := (ctxsOf c).filter fun g => (s.ctx g).cs = .ready || (s.ctx g).cs = .preempted
  l.foldl (fun b g => match b with | none => some g | some h => if s.before g h then some g else some h) none

/-- The core takes up the context that R152 names; an open bracket defers a preemption (R71). -/
def State.resched (s : State) (c : Nat) : State :=
  match s.running c, s.bestCtx c with
  | none, some b => s.modCtx b fun x => { x with cs := .running }
  | some r, some b =>
    if !(s.ctx r).npOpen && decide ((s.ctx r).wait ≠ .store) && decide (s.tskPrio (s.ctx b).task < s.tskPrio (s.ctx r).task) then
      (s.modCtx r fun x => { x with cs := .preempted }).modCtx b fun x => { x with cs := .running }
    else s
  | _, none => s

/-! ### Keeper events (R146, R171) -/

def kOEM : Nat := 0
def kFLT : Nat := 1
def kTDS : Nat := 2
def kHALT : Nat := 3
def kTIDE : Nat := 4

/-- A suspended context 0 continues while any bit of TDS.KEVENTS is set (R146). -/
def State.keeperWake (s : State) : State :=
  if s.ob K.TDS_KEVENTS ≠ 0 ∧ (s.ctx 0).cs = .gated ∧ (s.ctx 0).task = 0 then
    (s.modCtx 0 fun x => { x with cs := .ready }).resched 0
  else s

/-- One bit of TDS.KEVENTS is set, and wakes task 0. -/
def State.kevent (s : State) (n : Nat) : State :=
  (s.setOb K.TDS_KEVENTS (putBit (s.ob K.TDS_KEVENTS) n true)).keeperWake

/-! ### TDS.STATE -/

def State.setTds (s : State) (f : Tds → Tds) : State := { s with tds := f s.tds }

/-- TDS.STATE takes a new state and KEVENTS.TDS is set (R145, R171). -/
def State.toTide (s : State) (st : TideSt) : State :=
  if s.tds.st = st then s else (s.setTds fun t => { t with
    st := st
    runSince := if st = .running then s.ntm.mono else t.runSince }).kevent kTDS

/-- Every core takes up the context that R152 names. -/
def State.reschedAll (s : State) : State := s.each (List.range 24) State.resched

def State.modCore (s : State) (c : Nat) (f : CoreSt → CoreSt) : State := s.setCore c (f (s.core c))

/-- Destination of the answer to an OEM request that no register takes: the instruction that made it waits for it. -/
def heldDst : Nat := 48

/-- A loaded value of n bits extended with its sign, or with zeros where ext is 0 (R115). -/
def extend (ext v : Nat) : Nat := if ext = 0 then v else ofS 32 (toS ext v)

/-- A FENCE that has its drain acknowledgement ends once no load of its context is in flight (R93). -/
def State.loadsDone (s : State) (g : Nat) : State :=
  if (s.ctx g).wait = .loads ∧ ((s.core (g / 16)).flight.all fun f => decide (f.ctx ≠ g)) = true then
    s.modCtx g fun x => { x with wait := .none }
  else s

end Sys2Proof.Machine
end

