-- ==== Sys2Proof/Machine/ImageOps.lean ====
section
/-! DEFINITION. The process image: lines, digests (R184), forces (R193–R199), overwrites of dirty lines (R190, R564)
and the copies of copy-in and copy-back (R186, R187). Offsets are from 0x2000_0000. -/

namespace Sys2Proof.Machine

/-! ### CRC -/

/-- One bit of a reflected CRC of width 32. -/
def crcBit (poly c : Nat) : Nat := if c % 2 = 1 then (c / 2) ^^^ poly else c / 2

def crcBits (poly : Nat) : Nat → Nat → Nat
  | 0, c => c
  | n + 1, c => crcBits poly n (crcBit poly c)

/-- A reflected CRC-32 with initial value and final XOR of all ones. -/
def crc32 (poly : Nat) (l : List Byte) : Nat :=
  (l.foldl (fun c b => crcBits poly 8 (c ^^^ b.toNat)) 0xFFFFFFFF) ^^^ 0xFFFFFFFF

/-- CRC-32C (R184). -/
def crc32c (l : List Byte) : Nat := crc32 0x82F63B78 l

/-! ### Areas -/

/-- Offset of an area: I, Q, M (R176, R193). -/
def areaBase (a : Nat) : Nat := if a = 0 then 0 else if a = 1 then 0x80000 else 0x100000

/-- Bytes of an area. -/
def areaSize (a : Nat) : Nat := if a = 2 then 0x100000 else 0x80000

/-- Area of an offset below 0x20_0000. -/
def areaOf (off : Nat) : Nat := if off < 0x80000 then 0 else if off < 0x100000 then 1 else 2

/-- Line number of Q at an offset, where the offset lies in Q. -/
def qLine (off : Nat) : Option Nat :=
  if 0x80000 ≤ off ∧ off < 0x100000 then some ((off - 0x80000) / 64) else none

/-- Lines of Q that a range of offsets touches. -/
def qLines (off n : Nat) : List Nat :=
  (List.range ((off % 64 + n + 63) / 64)).filterMap fun i => qLine (off / 64 * 64 + 64 * i)

/-! ### Digests (R184, R185, R192) -/

/-- Digest of a line's 64 bytes. -/
def lineDigest (l : Nat) (b : List Byte) : Nat := crc32c (leBytes 2 l ++ b)

/-- The bytes of input line l that the next flood start makes current (R184). -/
def State.nextLine (s : State) (l : Nat) : List Byte :=
  s.bytesAt ((if s.img.pend.contains l then mAsm else mHead) + 64 * l) 64

def xorAll (l : List Nat) : Nat := l.foldl (fun a b => a ^^^ b) 0

/-- Digest of input partition p. -/
def State.inPart (s : State) (p : Nat) : Nat :=
  xorAll ((List.range 64).map fun i => lineDigest (64 * p + i) (s.nextLine (64 * p + i)))

def State.inParts (s : State) : List Nat := (List.range 128).map s.inPart

/-- IMG.IN_DIGEST_ALL. -/
def State.inDigest (s : State) : Nat := xorAll s.inParts

/-- Digest of partition p of the frame image (R192). -/
def State.outPart (s : State) (p : Nat) : Nat :=
  xorAll ((List.range 64).map fun i => lineDigest (64 * p + i) (s.bytesAt (mFrame + 64 * (64 * p + i)) 64))

def State.outParts (s : State) : List Nat := (List.range 128).map s.outPart

/-! ### Forces -/

/-- AREA of a force key. -/
def fArea (key : Nat) : Nat := bits key 31 30
def fSize (key : Nat) : Nat := bits key 29 27
def fBit (key : Nat) : Nat := bits key 26 24
def fOff (key : Nat) : Nat := bits key 19 0
/-- Bytes a force covers. -/
def fBytes (key : Nat) : Nat := if fSize key = 0 then 1 else 2 ^ (fSize key - 1)
/-- Bits of the value a force may set. -/
def fWidth (key : Nat) : Nat := if fSize key = 0 then 1 else 8 * fBytes key

/-- What an entry that the table does not list reads as: all zero but for ORPHAN, as the latest recomputation left it (R199). -/
def State.noForce (s : State) : Force := { Force.init with orphan := s.img.orphan0 }

def State.force (s : State) (n : Nat) : Force := mget (fun _ => s.noForce) s.img.forces n

/-- IMG.CTL.FORCE_EN. -/
def State.forceEn (s : State) : Bool := bit (s.ob K.IMG_CTL) 0

/-- The entries in effect (R195, R198). -/
def State.forcesOn (s : State) : List Force :=
  if s.forceEn then (s.img.forces.map Prod.snd).filter fun f => f.en else []

/-- Mask and value of a force at byte i of those it covers. -/
def forceAt (f : Force) (i : Nat) : Nat × Nat :=
  if fSize f.key = 0 then (2 ^ fBit f.key, (f.val % 2) * 2 ^ fBit f.key) else (255, f.val / 256 ^ i % 256)

/-- A byte with a force's bits set to their value. -/
def forceByte (m : Nat × Nat) (b : Byte) : Byte :=
  (b &&& ~~~(BitVec.ofNat 8 m.1)) ||| BitVec.ofNat 8 m.2

/-- The forces in effect over a range of an area, applied where the range's bytes are held (R186, R187). -/
def State.forceRange (s : State) (area off n dst : Nat) : State :=
  s.each s.forcesOn fun s f =>
    if fArea f.key = area then
      s.each (List.range (fBytes f.key)) fun s i =>
        let a := fOff f.key + i
        if off ≤ a ∧ a < off + n then
          let k := dst + (a - off)
          s.setByte k (forceByte (forceAt f i) (s.byte k))
        else s
    else s

/-- Two enabled entries share a bit (R194). -/
def shareBits (k1 k2 : Nat) : Bool :=
  decide (fArea k1 = fArea k2) &&
    (let b1 := 8 * fOff k1 + fBit k1
     let b2 := 8 * fOff k2 + fBit k2
     decide (b1 < b2 + fWidth k2) && decide (b2 < b1 + fWidth k1))

/-- Status codes of R42. -/
def stOK : Nat := 0
def stACCESS : Nat := 1
def stRANGE : Nat := 2
def stRESERVED : Nat := 3
def stBUSY : Nat := 4
def stSTATE : Nat := 5
def stNOOBJ : Nat := 6
def stTYPE : Nat := 7
def stCOMMIT : Nat := 8

/-- Fields of a force entry (R194). -/
def forceFields (key val : Nat) : Nat :=
  if fArea key = 3 ∨ 4 < fSize key ∨ (fSize key ≠ 0 ∧ fBit key ≠ 0) ∨ 2 ^ fWidth key ≤ val then stRESERVED
  else if areaSize (fArea key) ≤ fOff key ∨ fOff key % fBytes key ≠ 0 then stRANGE
  else stOK

/-- An enabled entry n beside the other enabled entries of a table (R194). -/
def forceClash (t : SMap Force) (n key : Nat) : Bool :=
  t.any fun e => decide (e.1 ≠ n) && e.2.en && shareBits e.2.key key

/-- Byte off of an area lies in a list entry of a task that is not unused (R199). -/
def State.listCovers (s : State) (area off : Nat) : Bool :=
  s.usedTasks.any fun t => (s.secs t).any fun i => (s.inEntries t i ++ s.outEntries t i).any fun e =>
    decide (e.area = area) && decide (64 * e.src ≤ off) && decide (off < 64 * (e.src + e.len))

/-- ORPHAN of an entry: no list covers it (R199). -/
def State.isOrphan (s : State) (key : Nat) : Bool :=
  !((List.range (fBytes key)).all fun i => s.listCovers (fArea key) (fOff key + i))

/-- Entries in the canonical form of a table whose unlisted entries read as d. -/
def forceForm (d : Force) (t : SMap Force) : SMap Force := t.filter fun e => e.2 ≠ d

/-- Enabled entries with ORPHAN = 1: IMG.ORPHANS (R201). -/
def State.orphans (s : State) : Nat := (s.img.forces.filter fun e => e.2.en && e.2.orphan).length
def State.forceCount (s : State) : Nat := (s.img.forces.filter fun e => e.2.en).length

def State.setImg (s : State) (f : Img → Img) : State := { s with img := f s.img }

/-- A record each time IMG.ORPHANS rises (R199). -/
def State.orphanRise (s : State) (before : Nat) : State :=
  s.when (decide (before < s.orphans)) fun s => s.raise 0x05 0 0 0 s.orphans 0

/-- ORPHAN recomputed for every entry, those that are all zero too: their key is bit 0 of the first input byte (R199). -/
def State.orphanAll (s : State) : State :=
  let n := s.orphans
  let zero := s.isOrphan 0
  (s.setImg fun m => { m with
    orphan0 := zero
    forces := forceForm { Force.init with orphan := zero }
      (m.forces.map fun e => (e.1, { e.2 with orphan := s.isOrphan e.2.key })) }).orphanRise n

/-! ### Overwrites (R190, R564) -/


/-- A dirty line goes into the frame image and loses its mark before it is overwritten (R190). -/
def State.saveLine (s : State) (l : Nat) : State :=
  if s.img.dirty.contains l then
    (s.blit (mHead + 0x80000 + 64 * l) (mFrame + 64 * l) 64).setImg fun m =>
      { m with dirty := m.dirty.filter fun x => x ≠ l }
  else s

/-- The cut's copy as far as it has come: one line each 1.25 ns from its beginning on, in the order of the cut (R191). -/
def State.copyProgress (s : State) : State :=
  if s.img.copying then
    let n := (s.ns - s.img.copyAt) * 4 / 5 - s.img.copyN
    (s.each (s.img.cutLines.take n) State.saveLine).setImg fun m => { m with
      cutLines := m.cutLines.drop n
      copyN := m.copyN + (m.cutLines.length - (m.cutLines.drop n).length) }
  else s

/-- A line of Q is marked dirty (R189). -/
def State.markLine (s : State) (l : Nat) : State :=
  if s.img.dirty.contains l then s else s.setImg fun m => { m with dirty := m.dirty ++ [l] }

/-- Bytes stored into Q or M with forces merged, the lines saved before and marked after (R188, R190). -/
def State.landWrite (s : State) (off : Nat) (b : List Byte) : State :=
  let s := s.each (qLines off b.length) State.saveLine
  let s := s.putBytes (mHead + off) b
  let area := areaOf off
  let s := s.forceRange area (off - areaBase area) b.length (mHead + off)
  s.each (qLines off b.length) State.markLine

/-- Entries whose forced bits in Q and M a force change writes (R196). -/
def State.forceTargets (s : State) : FChange → List Nat
  | .set n _ _ => [n]
  | .clear _ => []
  | .clearAll => []
  | .enable b => if b then (s.img.forces.filter fun e => e.2.en).map Prod.fst else []
  | .table t => (t.filter fun e => e.2.en).map Prod.fst

/-- Bits of a force key that are not reserved (R193). -/
def forceKeyMask : Nat := 0xFF0FFFFF

/-- A table t, whose unlisted entries read as d, after a force change; orph computes ORPHAN for the entries that the change
writes (R196, R199, R203). -/
def forceApply (d : Force) (orph : Nat → Bool) (t : SMap Force) (c : FChange) : SMap Force :=
  match c with
  | .set n k v =>
    mput (fun _ => d) t n { key := k &&& forceKeyMask, val := v, en := true, orphan := orph (k &&& forceKeyMask) }
  | .clear n => let f := mget (fun _ => d) t n; mput (fun _ => d) t n { f with en := false, orphan := orph f.key }
  | .clearAll => forceForm d (t.map fun e => (e.1, { e.2 with en := false, orphan := orph e.2.key }))
  | .enable _ => t
  | .table u => forceForm d (u.map fun e => (e.1, { e.2 with orphan := orph e.2.key }))

/-- ORPHAN of the entries a change leaves unlisted: a whole table and CLEAR_ALL write every entry, so the zero ones too (R199,
R203). -/
def State.noForceAfter (s : State) (c : FChange) : Force :=
  match c with
  | .table _ => { Force.init with orphan := s.isOrphan 0 }
  | .clearAll => { Force.init with orphan := s.isOrphan 0 }
  | _ => s.noForce

/-- The table after a force change. -/
def State.forceTable (s : State) (c : FChange) : SMap Force :=
  forceApply (s.noForceAfter c) s.isOrphan s.img.forces c

/-- Force changes that are accepted and have yet to take effect, in their order: held for the transmit window, behind the
copy-ins decided before them, or until the next flood start of a pair (R190, R196, R340). -/
def State.forcesDue (s : State) : List FChange :=
  (s.img.held.filterMap fun e => match e.2 with | .force c => some c | _ => none) ++ s.tds.forceQ.map Prod.snd ++
    s.red.repl.filterMap fun r => match r with | .force c => some c | _ => none

/-- The table as the accepted changes will leave it: what a new force is judged against (R194). -/
def State.forcesAfter (s : State) : SMap Force := s.forcesDue.foldl (forceApply s.noForce s.isOrphan) s.img.forces

/-- Lines of Q that a force change writes. -/
def State.forceQLines (s : State) (c : FChange) : List Nat :=
  let t := s.forceTable c
  let en := match c with | .enable b => b | _ => s.forceEn
  if en then (s.forceTargets c).flatMap fun n =>
    let k := (mget (fun _ => Force.init) t n).key
    if fArea k = 1 then qLines (0x80000 + fOff k) (fBytes k) else []
  else []

/-! ### Holds (R190, R564) -/

/-- Lines of Q that a task's output lists name. -/
def State.outLines (s : State) (t : Nat) : List Nat :=
  (s.secs t).flatMap fun i => (s.outEntries t i).flatMap fun e =>
    if e.area = 1 then (List.range e.len).map fun j => e.src + j else []

/-- Lines of Q that an operation overwrites. -/
def State.opLines (s : State) : HeldOp → List Nat
  | .write off b => qLines off b.length
  | .publish t => s.outLines t
  | .force c => s.forceQLines c

/-- An operation over this line of Q must wait: the line is dirty in an open transmit window, a cut has yet to copy it, or an
operation accepted earlier waits to overwrite it (R188, R190, R564). -/
def State.lineHeld (s : State) (l : Nat) : Bool :=
  (s.img.txw && s.img.dirty.contains l) || ((s.img.copying || s.img.cutWait) && s.img.cutLines.contains l) ||
    (s.img.cutNext.any fun x => x.lines.contains l) || s.img.held.any fun e => (s.opLines e.2).contains l

/-- A force change waits among the held operations: those after it wait behind it, so that they land in the order in which they were
decided (R194, R196). -/
def State.forceWaits (s : State) : Bool := s.img.held.any fun e => match e.2 with | .force _ => true | _ => false

/-- An operation joins those held back. -/
def State.hold (s : State) (e : Option Nat × HeldOp) : State := s.setImg fun m => { m with held := m.held ++ [e] }

/-- An operation held so far that no line holds any more waits for the copy-ins decided before this instant: its place among
them, taken now where it has none. -/
def State.holdPlace (s : State) (e : Option Nat × HeldOp) : State × Nat :=
  match e.1 with
  | some o => (s, o)
  | none => (s.setTds fun t => { t with seq := t.seq + 1 }, s.tds.seq)

/-- No copy-in decided before a place still has to read (R155, R196). -/
def State.copiesDone (s : State) (o : Nat) : Bool := s.tds.copyIns.all fun k => decide (o ≤ k.seq)

/-- The device record of the force table follows it (R200). -/
def State.retainForceTable (s : State) : State :=
  if s.str.retainForces = s.img.forces then s
  else s.devTxn 464 32 fun s => { s with str := { s.str with retainForces := s.img.forces } }

/-- A force change takes effect whole: the table changes, and forced bits of Q and M are written (R196). -/
def State.landForce (s : State) (c : FChange) : State :=
  let n := s.orphans
  let tg := s.forceTargets c
  let ls := s.forceQLines c
  let t := s.forceTable c
  let zero := (s.noForceAfter c).orphan
  let s := s.each ls State.saveLine
  let s := s.setImg fun m => { m with forces := t, orphan0 := zero }
  let s := match c with
    | .enable b => s.setOb K.IMG_CTL (b2n b)
    | _ => s
  let s := s.each (if s.forceEn then tg else []) fun s i =>
    let f := s.force i
    if fArea f.key = 0 then s
    else s.each (List.range (fBytes f.key)) fun s j =>
      let k := mHead + areaBase (fArea f.key) + fOff f.key + j
      s.setByte k (forceByte (forceAt f j) (s.byte k))
  ((s.each ls State.markLine).orphanRise n).retainForceTable

def State.countHold (s : State) (n : Nat) : State := s.addOb K.IMG_OVERWRITE_HELD n

/-- A write to Q or M lands at once or is held, in its order (R188, R190).
(DESIGN CHOICE, unsafe: log 86.) -/
def State.imgWrite (s : State) (off : Nat) (b : List Byte) : State :=
  let s := s.copyProgress
  let bad := (qLines off b.length).filter s.lineHeld
  if bad.isEmpty then s.landWrite off b else (s.hold (none, .write off b)).countHold bad.length

/-- A force change whose copy-ins have read lands at once or is held (R190, R196).
(DESIGN CHOICE, unsafe: log 86.) -/
def State.imgForce (s : State) (c : FChange) : State :=
  let s := s.copyProgress
  let bad := (s.forceQLines c).filter s.lineHeld
  if bad.isEmpty && !s.forceWaits then s.landForce c else (s.hold (none, .force c)).countHold bad.length

/-- A held force change lands once no line holds it, none decided earlier is held, and no copy-in decided before still reads;
any other held operation stays (R190, R194, R196). -/
def State.landHeldForce (s : State) (e : Option Nat × HeldOp) : State :=
  match e.2 with
  | .force c =>
    if ((s.forceQLines c).filter s.lineHeld).isEmpty && !s.forceWaits then
      let p := s.holdPlace e
      if p.1.copiesDone p.2 then p.1.landForce c else p.1.hold (some p.2, e.2)
    else s.hold (none, e.2)
  | _ => s.hold e

/-- Force changes at the head of the queue take effect, as far as no copy-in decided before them is outstanding, and so do those
that were held (R196).
(DESIGN CHOICE, unsafe: log 35.) -/
def State.pumpForces (s : State) : State :=
  let l := s.img.held
  let s := (s.setImg fun m => { m with held := [] }).each l State.landHeldForce
  let waiting := s.tds.forceQ
  let n := (waiting.takeWhile fun e => s.copiesDone e.1).length
  let go := (waiting.take n).map Prod.snd
  (s.setTds fun t => { t with forceQ := t.forceQ.drop n }).each go State.imgForce

/-- A force change is decided: it takes its place behind the copy-ins decided before it (R196). -/
def State.forceChange (s : State) (c : FChange) : State :=
  (s.setTds fun t => { t with forceQ := t.forceQ ++ [(t.seq, c)], seq := t.seq + 1 }).pumpForces

/-! ### Copies (R186, R187) -/

/-- Cached lines of a range of a Strand's data SRAM leave the data and bit caches of its cores, but for one core
that wrote them itself (R89). -/
def State.invalidate (s : State) (strand off n : Nat) (writer : Option Nat) : State :=
  s.each (List.range 4) fun s m =>
    let c := 4 * (strand - 1) + m
    if writer = some c then s
    else
      let k := s.core c
      let keep := fun l => decide (l + 64 ≤ off) || decide (off + n ≤ l)
      if (k.dcache ++ k.bcache).all keep then s
      else s.setCore c { k with dcache := k.dcache.filter keep, bcache := k.bcache.filter keep }

/-! ### Programs of channels 0–7 (R408) -/

/-- Code, failing address and silent dies of a copy's error (R426, R431), and the bytes of its transfer before it. -/
structure CopyErr where
  code : Nat
  addr : Nat
  dies : Nat
  done : Nat
  deriving DecidableEq, Repr

/-- A program of the sequencer, the OLC unit or Breakwater begins on its channel as at a START; where it lies, the spec does not
say (R408, R421).
(DESIGN CHOICE, safe: log 137.) -/
def State.seqBegin (s : State) (k : Nat) : State :=
  ((s.setCh k { s.ch k with
    st := .running
    abortIgn := false
    pc := 0x20000000 + 8 * (Config.seqAddr s.fresh % 0x200000)
    sp := 0
    dp := 0
    rem := 0
    lc0 := 0
    lc1 := 0
    err := 0 }).setOb (K.DMA_MOVES (k + 1)) 0).draw

/-- A MOVE of n bytes of such a program is done, one for each entry of its list (R414, R429).
(DESIGN CHOICE, unsafe: log 115.) -/
def State.seqMove (s : State) (k src dst n : Nat) : State :=
  ((s.setCh k { s.ch k with sp := (src + n) % 2 ^ 32, dp := (dst + n) % 2 ^ 32, rem := 0 }).addOb (K.DMA_BYTES (k + 1)) n).incOb
    (K.DMA_MOVES (k + 1))

/-- A MOVE of n bytes meets an error: the bytes before it are written, and the pointers name the first that is not (R426). -/
def State.seqStop (s : State) (k src dst n : Nat) (e : CopyErr) : State :=
  (s.setCh k { s.ch k with sp := (src + e.done) % 2 ^ 32, dp := (dst + e.done) % 2 ^ 32, rem := n - e.done }).addOb
    (K.DMA_BYTES (k + 1)) e.done

/-- The program ends (R417). -/
def State.seqEnd (s : State) (k : Nat) : State := if (s.ch k).st = .running then s.setCh k { s.ch k with st := .done } else s

/-- A program of one MOVE. -/
def State.seqLine (s : State) (k src dst n : Nat) : State := ((s.seqBegin k).seqMove k src dst n).seqEnd k

/-- A copy on channel k halts: its state, DMA.ERR, the count and the record (R426, R431). -/
def State.chanHalt (s : State) (k : Nat) (e : CopyErr) : State :=
  let err := e.addr % 2 ^ 32 * 2 ^ 32 + e.code * 2 ^ 24 + e.dies % 256 * 2 ^ 16
  ((s.setCh k { s.ch k with st := .halted, err := err }).incOb K.DMA_HALTS).raise 0x29 k k 0 (err % 2 ^ 32) (err / 2 ^ 32)

/-! ### Copy-ins and copy-backs -/

/-- Input lines that a later flood start has replaced, put back over what the first m bytes of an entry of area I have read
(R155, R186). -/
def State.copyOld (s : State) (e : ListEntry) (dst m : Nat) (old : List (Nat × List Byte)) : State :=
  if e.area = 0 then s.each old fun s o =>
    if e.src ≤ o.1 ∧ o.1 < e.src + e.len then
      s.putBytes (dst + 64 * (o.1 - e.src)) (o.2.take (m - 64 * (o.1 - e.src)))
    else s
  else s

/-- The first m bytes of an input entry read as at the release, with forces applied, and written into its Strand's data SRAM
(R186). -/
def State.copyInEntry (s : State) (n : Nat) (old : List (Nat × List Byte)) (e : ListEntry) (m : Nat) : State :=
  let dst := mData n + 64 * e.dst
  let s := (s.blit (mHead + areaBase e.area + 64 * e.src) dst m).copyOld e dst m old
  ((s.forceRange e.area (64 * e.src) m dst).eccClear dst m).invalidate n (64 * e.dst) m none

/-- Addresses of an entry in the image and in its Strand's data SRAM. -/
def ListEntry.image (e : ListEntry) : Nat := 0x20000000 + areaBase e.area + 64 * e.src
def ListEntry.sram (e : ListEntry) (n : Nat) : Nat := 0x40000000 + n * 0x1000000 + 64 * e.dst

/-- The error that a copy-in's entry meets: its Strand's memory does not answer, or a byte of the image has a double-bit error
(R410, R420, R426). -/
def State.copyInErr (s : State) (n : Nat) (e : ListEntry) : Option CopyErr :=
  if !s.strandUp n then some { code := 3, addr := e.sram n, dies := 2 ^ n, done := 0 }
  else (s.badAt (mHead + areaBase e.area + 64 * e.src) (64 * e.len)).map fun o =>
    { code := 5, addr := e.image + o, dies := 0, done := o }

/-- The error that a copy-back's entry meets. -/
def State.copyBackErr (s : State) (n : Nat) (e : ListEntry) : Option CopyErr :=
  if !s.strandUp n then some { code := 2, addr := e.sram n, dies := 2 ^ n, done := 0 }
  else (s.badAt (mData n + 64 * e.dst) (64 * e.len)).map fun o => { code := 5, addr := e.sram n + o, dies := 0, done := o }

/-- One section's input entries in their order, up to the first that meets an error (R186, R410, R426). -/
def State.copyInSec (s : State) (t i : Nat) (old : List (Nat × List Byte)) : State × Option CopyErr :=
  let n := strandOf (s.secEntry t i).core
  let r := (s.inEntries t i).foldl (fun (p : State × Option CopyErr) e =>
    match p.2 with
    | some _ => p
    | none => match p.1.copyInErr n e with
      | some x => ((p.1.copyInEntry n old e x.done).seqStop (n - 1) e.image (e.sram n) (64 * e.len) x, some x)
      | none => ((p.1.copyInEntry n old e (64 * e.len)).seqMove (n - 1) e.image (e.sram n) (64 * e.len), none))
    (s.seqBegin (n - 1), none)
  (r.1.seqEnd (n - 1), r.2)

/-- The channel reads one section's output entries, up to the first that meets an error (R410, R420, R426). -/
def State.copyBackRun (s : State) (t i : Nat) : State × Option CopyErr :=
  let n := strandOf (s.secEntry t i).core
  let r := (s.outEntries t i).foldl (fun (p : State × Option CopyErr) e =>
    match p.2 with
    | some _ => p
    | none =>
      let q := p.1.strandCorr n (mData n + 64 * e.dst) (64 * e.len)
      match p.1.copyBackErr n e with
      | some x => (q.seqStop (n - 1) (e.sram n) e.image (64 * e.len) x, some x)
      | none => (q.seqMove (n - 1) (e.sram n) e.image (64 * e.len), none)) (s.seqBegin (n - 1), none)
  (r.1.seqEnd (n - 1), r.2)

/-- Sections whose copy-back meets an error, with the error (R410). -/
def State.copyBackBad (s : State) (t : Nat) : List (Nat × CopyErr) :=
  (s.secs t).filterMap fun i =>
    let n := strandOf (s.secEntry t i).core
    ((s.outEntries t i).findSome? (s.copyBackErr n)).map fun x => (i, x)

/-- A copy-back reaches its lines: a dirty one that nothing holds goes into the frame image first (R190).
(DEDUCED, unsafe: log 83.) -/
def State.copyBackReach (s : State) (t : Nat) : State :=
  s.each ((s.outLines t).filter fun l => !s.lineHeld l) State.saveLine

/-- A task's output lists written into Q and M with forces merged (R187). -/
def State.copyBackAll (s : State) (t : Nat) : State :=
  let ls := s.outLines t
  let s := s.each ls State.saveLine
  let s := s.each (s.secs t) fun s i =>
    let n := strandOf (s.secEntry t i).core
    s.each (s.outEntries t i) fun s e =>
      let dst := mHead + areaBase e.area + 64 * e.src
      (s.blit (mData n + 64 * e.dst) dst (64 * e.len)).forceRange e.area (64 * e.src) (64 * e.len) dst
  s.each ls State.markLine

end Sys2Proof.Machine
end

