-- ==== Sys2Proof/Machine/Halt.lean ====
section
/-! DEFINITION. Halts of contexts, of tasks and of the tide (R97, R145, R165). -/

namespace Sys2Proof.Machine

/-! ### Halts -/

/-- A context halts: no bracket stays open, nothing is waited for (R72, R97). -/
def Ctx.halt (x : Ctx) : Ctx := { x with cs := .halted, npOpen := false, npcnt := 0, wait := .none, stall := [], late := [] }

/-- A context halts for the tide at its next instruction boundary: a wait of the instruction it is in goes on (R145). -/
def Ctx.haltAfter (x : Ctx) : Ctx := { x with cs := .halted, npOpen := false, npcnt := 0 }

/-- The lowest section whose completion flag is not set. -/
def State.lowOpen (s : State) (t : Nat) : Nat :=
  ((s.secs t).find? fun i => !bit (s.task t).flags i).getD 0

/-- The open Bedrock transaction is discarded if one of these requesters owns it (R439). -/
def State.bedDrop (s : State) (who : Nat → Bool) : State :=
  match s.bdr.owner with
  | some r =>
    if who r then
      { s.incOb K.BDR_TXN_DISCARDS with bdr := { s.bdr with owner := none, failed := false, staged := [] } }
    else s
  | none => s

/-- The owner is a context of this task. -/
def State.ofTask (s : State) (t r : Nat) : Bool := decide (r < 384) && decide ((s.ctx r).task = t)

/-- A tide HALT for one task: COPY_IN and ACTIVE read HALTED, and its contexts halt in place (R145). -/
def State.haltTaskAt (s : State) (t : Nat) : State :=
  let k := s.task t
  if k.st = .copyIn ∨ k.st = .active then
    ((s.bedDrop (s.ofTask t)).modTask t fun k => { k with st := .halted, hsec := s.lowOpen t, tideHalt := true }).kevent kHALT
  else s.modTask t fun k => if k.st = .halted then { k with tideHalt := true } else k

/-- Every context of tasks 1–255 that could run halts; one that waits in END completes it (R135, R145, R158). -/
def State.haltContexts (s : State) : State :=
  s.each ((List.range 384).filter fun g => decide ((s.ctx g).task ≠ 0) && decide ((s.ctx g).wait ≠ .endSection) &&
      ((s.ctx g).cs = .ready || (s.ctx g).cs = .running || (s.ctx g).cs = .preempted))
    fun s g => s.modCtx g Ctx.haltAfter

/-- HALT of the tide (R145): contexts halt, copy-ins stop, tasks in COPY_IN or ACTIVE read HALTED. -/
def State.tideHalt (s : State) : State :=
  if s.tds.st = .running ∨ s.tds.st = .stopping then
    let s := s.haltContexts
    let s := s.each s.usedTasks State.haltTaskAt
    let s := s.setTds fun t => { t with copyIns := [], swin := false }
    ((s.toTide .halted).reschedAll).pumpForces
  else s

/-- STOPPING ends when every task is IDLE, DISABLED or HALTED (R145). -/
def State.tideSettle (s : State) : State :=
  if s.tds.st = .stopping ∧ (s.usedTasks.all fun t =>
      decide ((s.task t).st = .idle) || decide ((s.task t).st = .disabled) || decide ((s.task t).st = .halted)) then
    (s.setTds fun t => { t with swin := false }).toTide .stopped
  else s

/-- A task enters HALTED because a section of it halted, and follows its FPOL (R165). -/
def State.taskHalt (s : State) (t sec : Nat) : State :=
  let k := s.task t
  let s := s.bedDrop (s.ofTask t)
  let s := s.modTask t fun k => { k with
    st := .halted
    hsec := if k.st = .halted then Nat.min k.hsec sec else sec }
  let s := s.incOb (K.TSK_FAULTS t)
  let s := if k.st = .halted then s else s.kevent kHALT
  if t ≠ 0 ∧ s.tskFpol t = 2 then s.tideHalt else s.tideSettle

/-- Fault and trap codes of R96. -/
def fIllegal : Nat := 1
def fBusErr : Nat := 2
def fAlign : Nat := 3
def fStack : Nat := 4
def fPriv : Nat := 5
def fAddrMode : Nat := 6
def fEcc : Nat := 7
def fDz : Nat := 8
def fFp : Nat := 9
def fBracket : Nat := 10
def fSwtrap : Nat := 11

/-- What a fault of a task in context g leaves beside the context: the core's objects, its count, and the record (R97). STAMP is the
Strand's local copy of the microsecond count (R18, R19).
(DEDUCED, unsafe: log 18.) -/
def State.faultRecord (s : State) (g task code detail : Nat) (fpc faddr : Word) : State :=
  let c := g / 16
  let hi := code * 2 ^ 24 + task * 2 ^ 16 + (g % 16) * 2 ^ 12 + detail
  let s := s.setOb (K.CPU_FAULT (c + 1)) (hi * 2 ^ 32 + s.dieUs (strandOf c) % 2 ^ 32)
  let s := s.setOb (K.CPU_FAULT_PC (c + 1)) fpc.toNat
  let s := s.setOb (K.CPU_FAULT_ADDR (c + 1)) faddr.toNat
  (s.incOb (K.CPU_FAULTS (c + 1))).raise 0x01 task c 0 hi fpc.toNat

/-- FINFO, FPC and FADDR as a fault writes them (R73, R97). -/
def Ctx.withFault (x : Ctx) (code detail : Nat) (fpc faddr : Word) : Ctx :=
  { x with finfo := BitVec.ofNat 32 (code * 2 ^ 24 + detail * 2 ^ 16), fpc := fpc, faddr := faddr }

/-- A fault or trap of context g (R97, R99): the record is written to the context and to the core's objects and
sent; the context halts, or task 0 continues at KFV.
(DEDUCED, unsafe: log 18.) -/
def State.taskFault (s : State) (g code detail : Nat) (fpc faddr pc : Word) : State :=
  let c := g / 16
  let x := s.ctx g
  let hi := code * 2 ^ 24 + x.task * 2 ^ 16 + (g % 16) * 2 ^ 12 + detail
  let s := s.faultRecord g x.task code detail fpc faddr
  let keep := decide (x.task = 0) && decide (x.sreg 9 ≠ 0) && decide (x.finfo = 0) && decide (x.cs ≠ .halted)
  let x' := { x.withFault code detail fpc faddr with pc := pc }
  if keep then
    (s.setCtx g { x' with pc := x.sreg 9, npOpen := false, npcnt := 0, wait := .none, stall := [], rep := false })
      |>.resched c
  else
    let s := s.setCtx g x'.halt
    let s := if x.task = 0 then s.raise 0x02 0 0 0 hi fpc.toNat else s
    (s.taskHalt x.task x.sec).resched c

end Sys2Proof.Machine
end

