-- ==== Sys2Proof/Machine/TimeOps.lean ====
section
/-! DEFINITION. The network time clock (R301–R307), the microsecond count (R207), gate control lists, which
follow it (R323–R327), and timer cells as the Headland sees them (R204–R217). -/

namespace Sys2Proof.Machine

/-! ### Gates -/

def State.setNtm (s : State) (f : Ntm → Ntm) : State := { s with ntm := f s.ntm }

def State.gate (s : State) (p : Nat) : Gate := mget (fun _ => Gate.init) s.ntm.gates p
def State.setGate (s : State) (p : Nat) (g : Gate) : State :=
  s.setNtm fun n => { n with gates := mput (fun _ => Gate.init) n.gates p g }

/-- EN of NTM.GCL_CFG (R330). -/
def State.gclOn (s : State) (p : Nat) : Bool := bit (s.ob (K.NTM_GCL_CFG (p + 1))) 0

/-- Entries of a list: interval, G2, G3 (R323). -/
def gclEntries (b : List Byte) : List (Nat × Bool × Bool) :=
  (List.range (b.length / 8)).map fun i => (leAt b (8 * i) 4, bit (leAt b (8 * i + 4) 1) 0, bit (leAt b (8 * i + 4) 1) 1)

/-- Status of an admin list (R323). -/
def gclCheck (b : List Byte) : Nat :=
  let n := b.length / 8
  if (List.range n).any fun i => decide (4 ≤ leAt b (8 * i + 4) 1) || decide (leAt b (8 * i + 5) 3 ≠ 0) then stRESERVED
  else if (gclEntries b).any fun e => decide (e.1 % 4 ≠ 0) || decide (e.1 < 64) || decide (1024000000 < e.1) then stRANGE
  else stOK

/-- The gates over one cycle: start, end, G2, G3 of each part; the last entry holds to the cycle's end, and what lies
past it is cut (R324). -/
def gclParts : Nat → Nat → List (Nat × Bool × Bool) → List (Nat × Nat × Bool × Bool)
  | _, _, [] => []
  | at_, cyc, [(_, a, b)] => if at_ < cyc then [(at_, cyc, a, b)] else []
  | at_, cyc, (d, a, b) :: t =>
    if at_ < cyc then (at_, Nat.min cyc (at_ + d), a, b) :: gclParts (at_ + d) cyc t else []

def Gate.parts (g : Gate) : List (Nat × Nat × Bool × Bool) := gclParts 0 g.cycle (gclEntries g.oper)

/-- Position of an instant in the cycle (R324). -/
def Gate.phase (g : Gate) (t : Nat) : Nat := (((t : Int) - (g.base : Int)) % (g.cycle : Int)).toNat

/-- The gates at an instant. -/
def Gate.at (g : Gate) (t : Nat) : Bool × Bool :=
  match g.parts.find? fun e => decide (e.1 ≤ g.phase t) && decide (g.phase t < e.2.1) with
  | some e => e.2.2
  | none => (true, true)

/-- G2 for class 2, G3 for class 3. -/
def gateOf (cls : Nat) (e : Bool × Bool) : Bool := if cls = 2 then e.1 else e.2

/-- Time that a class's gate stays open from phase ph on, over parts in order. -/
def openRun (cls : Nat) : Nat → List (Nat × Nat × Bool × Bool) → Nat
  | _, [] => 0
  | ph, (_, e, g) :: t =>
    if e ≤ ph then openRun cls ph t
    else if gateOf cls g then (e - ph) + openRun cls e t else 0

/-- Two cycles of parts, so that an open span may cross the cycle's end. -/
def Gate.twice (g : Gate) : List (Nat × Nat × Bool × Bool) :=
  g.parts ++ g.parts.map fun e => (e.1 + g.cycle, e.2.1 + g.cycle, e.2.2)

/-- A class's gate never closes in the cycle. -/
def Gate.always (g : Gate) (cls : Nat) : Bool := g.parts.all fun e => gateOf cls e.2.2

/-- Time a class's gate stays open from an instant on; none where it never closes. -/
def Gate.openLeft (g : Gate) (cls t : Nat) : Option Nat :=
  if g.always cls then none else some (openRun cls (g.phase t) g.twice)

/-- The longest open span of a class in the cycle; none where the gate never closes (R325). -/
def Gate.longest (g : Gate) (cls : Nat) : Option Nat :=
  if g.always cls then none else some ((g.parts.map fun e => openRun cls e.1 g.twice).foldl Nat.max 0)

/-- The gates of a port act: the list is enabled and holds entries. -/
def State.gated (s : State) (p : Nat) : Bool := s.gclOn p && !(s.gate p).oper.isEmpty && decide ((s.gate p).cycle ≠ 0)

/-- The schedule that waits for its cycle start: the admin list, LENGTH, BASE and CYCLE (R326). -/
def State.gateNext (s : State) (p : Nat) : Gate :=
  { s.gate p with
    oper := (s.dom (K.NTM_GCL_ADMIN (p + 1))).take (8 * bits (s.ob (K.NTM_GCL_CFG (p + 1))) 24 16)
    base := s.ob (K.NTM_GCL_BASE (p + 1))
    cycle := s.ob (K.NTM_GCL_CYCLE (p + 1))
    pending := false }

/-- A span of d ns from now lies within the open span of a class, where the schedule that waits takes over in its course
(R325, R326). -/
def State.spanOpen (s : State) (p cls d : Nat) : Bool :=
  let g := s.gate p
  let fits := fun (x : Option Nat) (d : Nat) => match x with
    | none => true
    | some n => decide (d ≤ n)
  if g.pending && decide (g.swapAt < s.ns + d) then
    fits (g.openLeft cls s.ns) (g.swapAt - s.ns) &&
      fits ((s.gateNext p).openLeft cls (Nat.max s.ns g.swapAt)) (s.ns + d - Nat.max s.ns g.swapAt)
  else fits (g.openLeft cls s.ns) d

/-- A frame of a class that takes d ns may start now (R325). -/
def State.gateOpen (s : State) (p cls d : Nat) : Bool := !s.gclOn p || s.spanOpen p cls d

/-- A frame of a class that takes d ns fits no open span (R325). -/
def State.gateNever (s : State) (p cls d : Nat) : Bool :=
  s.gated p && match (s.gate p).longest cls with
    | none => false
    | some n => decide (n < d)

/-- Both gates open where the list does not act; used when EN changes. -/
def State.gateNow (s : State) (p : Nat) : State :=
  let e := if s.gated p then (s.gate p).at s.ns else (true, true)
  s.setGate p { s.gate p with g2 := e.1, g3 := e.2 }

/-- The gates of every port follow a step of network time (R327). -/
def State.gatesNow (s : State) : State := s.each (s.ntm.gates.map Prod.fst) State.gateNow

/-- Seconds wrap at 2^48 (R301). -/
def nsWrap : Nat := 2 ^ 48 * 1000000000

/-- The clock set to an ns count; the microsecond count follows and never decreases (R207, R301). -/
def State.setNs (s : State) (n : Nat) : State :=
  let n := n % nsWrap
  { s with ntm := { s.ntm with
    sec := n / 1000000000
    nsec := n % 1000000000
    usec := Nat.max s.ntm.usec (n / 1000) } }

/-- Bytes that frames of one share hold at a port: transit frames of class 1, or the frames of the acyclic share (R292). -/
def State.shareFill (s : State) (p : Nat) (transit : Bool) : Nat :=
  (((mget (fun _ => []) s.hnw.txq p).filter fun f =>
    if transit then decide (f.kind = .transit) && decide (f.cls = 1) else decide (f.cls ≠ 1)).map TxF.len).foldl (· + ·) 0

/-- Entries in the queue of a sequencer channel: copy-ins decided, and copy-backs in progress (R154). -/
def State.channelDepth (s : State) (c : Nat) : Nat :=
  (s.tds.copyIns.filter fun k => decide ((s.secEntry k.task k.sec).core / 4 = c)).length +
  ((s.usedTasks.filter fun t => decide ((s.task t).st = .copyBack)).map fun t =>
    ((s.secs t).filter fun i => decide ((s.secEntry t i).core / 4 = c) && decide ((s.secEntry t i).outCount ≠ 0)).length).foldl
      (· + ·) 0

/-- The occupancies whose changes lie between two commands: a link's credits, the requesters at a bank, and the queues of the
channels of online change and of Breakwater (R154, R497). -/
def occHidden (src target : Nat) : Bool := decide (src = 2) || decide (src = 6) || (decide (src = 3) && decide (6 ≤ target))

/-- Every other occupancy that a SRC and TARGET name (R497). -/
def State.occupancy (s : State) (src target : Nat) : Nat :=
  match src with
  | 1 => (s.core target).wbuf.length
  | 3 => s.channelDepth target
  | 4 => (s.shareFill target false + 1023) / 1024
  | 5 => (s.shareFill target true + 1023) / 1024
  | 7 => (s.flt.log.filter Fold.isOpen).length
  | _ => 0

/-- The clock in MHz of the island that owns an occupancy (R497, R530). -/
def State.occMHz (s : State) (src target : Nat) : Nat :=
  if src = 1 then s.ob (K.PWR_CORE_FREQ (target / 4 + 1)) else 800

/-- The domain that owns an occupancy (R494, R497). -/
def occDomain (src target : Nat) : Nat :=
  match src with
  | 1 => dS (target / 4 + 1)
  | 4 => dNW
  | 5 => dNW
  | 7 => dAO
  | _ => dHC

/-- Threshold counter n over a time of elapsed ns from m0 to m1, in which no other occupancy changes. A sender never holds more than
the 64 credits of its link (R14).
(DESIGN CHOICE, safe: log 129.) -/
def State.thrCount (s : State) (m0 m1 n : Nat) : State :=
  let cfg := s.ob (K.PMC_THR_CFG n)
  let src := bits cfg 27 24
  let target := bits cfg 23 16
  let f := s.occMHz src target
  let clocks := m1 * f / 1000 - m0 * f / 1000
  if bit cfg 31 && s.domOn (occDomain src target) then
    if occHidden src target then
      if src = 2 ∧ 64 ≤ bits cfg 15 0 then s
      else s.draw.addOb (K.PMC_THR n) (Config.busyClocks s.fresh src target (bits cfg 15 0) % (clocks + 1))
    else if bits cfg 15 0 < s.occupancy src target then s.addOb (K.PMC_THR n) clocks
    else s
  else s

/-- Elapsed time goes on to m, and the threshold counters count.
(DESIGN CHOICE, unsafe: log 75.)
(DESIGN CHOICE, safe: log 78.) -/
def State.elapse (s : State) (m : Nat) : State :=
  let s := s.each ((List.range 16).map (· + 1)) fun s n => s.thrCount s.ntm.mono m n
  { s with ntm := { s.ntm with mono := m } }

/-- Time passes: the clock counts on, and so does what no step touches (R469).
(DESIGN CHOICE, unsafe: log 8.) -/
def State.advance (s : State) (dt : Nat) : State := (s.setNs (s.clockNs + dt)).elapse (s.ntm.mono + dt)

/-- An accepted step of d ns is added to the clock and counted (R305, R306, R207). -/
def State.stepTime (s : State) (d : Int) : State :=
  (s.setNs (((s.clockNs : Int) + d) % (nsWrap : Int)).toNat).incOb K.NTM_STEPS

/-- The accepted steps are added in their order, and the gates follow the new time (R305, R307, R327). -/
def State.takeSteps (s : State) : State :=
  if s.ntm.steps.isEmpty then s
  else
    let l := s.ntm.steps
    ((s.setNtm fun n => { n with steps := [] }).each l fun s v => s.stepTime (toS 64 v)).gatesNow

/-- One tick of the network time clock: NTM.INCR added to fraction and nanoseconds, and the accepted steps (R301, R302, R305).
(DESIGN CHOICE, unsafe: log 1.) -/
def State.tick (s : State) : State :=
  let f := s.ntm.frac + s.ob K.NTM_INCR
  let s := (s.setNs (s.clockNs + f / 2 ^ 32)).elapse (s.ntm.mono + 4)
  State.takeSteps { s with ntm := { s.ntm with frac := f % 2 ^ 32 } }

/-- Time begins to pass: a step that waits for the next tick comes first. -/
def State.begin_ (s : State) : State := if s.ntm.steps.isEmpty then s else s.tick

/-- An event scheduled at ns count t: time passes up to t, unless it has passed already.
(DESIGN CHOICE, unsafe: log 8.) -/
def State.reach (s : State) (t : Nat) : State :=
  if s.ns < t then
    let s := s.begin_
    if s.ns < t then s.advance (t - s.ns) else s
  else s

/-- An event scheduled at count t of elapsed time.
(DESIGN CHOICE, unsafe: log 8.)
(DESIGN CHOICE, safe: log 78.) -/
def State.reachMono (s : State) (t : Nat) : State :=
  if s.ntm.mono < t then
    let s := s.begin_
    if s.ntm.mono < t then s.advance (t - s.ntm.mono) else s
  else s

/-- Boundaries of check-in periods and of the bandwidth window are judged anew from a count that was loaded or reset: each
ends next at the first multiple above the count (R477, R499).
(DEDUCED, unsafe: log 49.) -/
def State.duesAnew (s : State) : State :=
  { s with
    chk := { s.chk with
      count := []
      due := s.objs.filterMap fun e =>
        if e.1 / 256 = 0x5010 then some (e.1 % 256, nextMultiple e.2 s.us) else none }
    pmc := { s.pmc with bw := { rx := [], sent := [], due := nextMultiple (s.ob K.PMC_BW_WINDOW) s.us } } }

/-- HELD of NTM.STATUS: the count waits for network time after a backward step (R207, R329). -/
def State.usHeld (s : State) : Bool := decide (s.clockNs / 1000 < s.us)

/-- The token reaches every fitted die whose domain is on and whose link is up (R18).
(DEDUCED, unsafe: log 32.) -/
def State.sendToken (s : State) : State :=
  let s := s.each s.strands fun s n =>
    if s.domOn (dS n) && s.linkUp n then
      { s with ntm := { s.ntm with die := mput (fun _ => 0) s.ntm.die n s.us } } else s
  let s := s.when (s.bwFitted && s.domOn dFL && s.linkUp 7) fun s =>
    { s with ntm := { s.ntm with die := mput (fun _ => 0) s.ntm.die 7 s.us } }
  { s with ntm := { s.ntm with tok := s.ns / 1000 + 1 } }

/-! ### Timer cells -/

/-- A cell's words (R131). -/
structure Cell where
  preset : Nat
  elapsed : Nat
  ctrl : Nat
  stamp : Nat
  deriving DecidableEq, Repr

def State.cell (s : State) (a : Nat) : Cell :=
  { preset := s.rd a 4, elapsed := s.rd (a + 4) 4, ctrl := s.rd (a + 8) 4, stamp := s.rd (a + 12) 4 }

def State.setCell (s : State) (a : Nat) (x : Cell) : State :=
  (((s.wr a 4 x.preset).wr (a + 4) 4 x.elapsed).wr (a + 8) 4 x.ctrl).wr (a + 12) 4 x.stamp

/-- KIND of a cell (R205). -/
def Cell.kind (x : Cell) : Nat := bits x.ctrl 11 8

/-- A cell whose timing a rebase or a warm start acts on (R206, R212). -/
def Cell.isTiming (x : Cell) : Bool := decide (1 ≤ x.kind) && decide (x.kind ≤ 3) && bit x.ctrl 1

def sub32 (a b : Nat) : Nat := (a + 2 ^ 32 - b % 2 ^ 32) % 2 ^ 32

/-- Cells of a Strand that are not all zero, rising. -/
def State.usedCells (s : State) (n : Nat) : List Nat :=
  let b := mTimer n
  let l := (s.mem.filter fun c => decide (b ≤ c.1) && decide (c.1 < b + 0x40000)).map fun c => (c.1 - b) / 16
  l.foldr (fun c t => if t.head? = some c then t else c :: t) []

/-- TMR.BAD_KIND counts the cells whose KIND is reserved (R206). -/
def State.countBadKind (s : State) (n : Nat) : State :=
  s.addOb (K.TMR_BAD_KIND n) ((s.usedCells n).filter fun c => decide (6 ≤ (s.cell (mTimer n + 16 * c)).kind)).length

/-- A rebase of one Strand's running timers begins (R212, R213). -/
def State.rebaseBegin (s : State) (n : Nat) : Rebase :=
  { strand := n, start := s.us, seed := s.fresh, next := 0, last := s.us }

/-- Count at which a rebase visits a cell: in rising order of the cells, and within 65.6 µs of the START (R213).
(DESIGN CHOICE, safe: log 39.) -/
def Rebase.visitAt (r : Rebase) (c : Nat) : Nat := Nat.max r.last (r.start + Config.rebaseVisit r.seed c % 66)

/-- One visit of a rebase, where the count has come to it: a running timer's STAMP is written with the now of the visit, which
is the count that the Strand's time tokens carry (R207, R212). -/
def State.rebaseVisit (p : State × Rebase) (c : Nat) : State × Rebase :=
  let r := p.2
  let at_ := r.visitAt c
  if c < r.next ∨ p.1.us < at_ then p
  else
    let a := mTimer r.strand + 16 * c
    let x := p.1.cell a
    let now := Nat.min at_ (p.1.dieUs r.strand)
    (p.1.when x.isTiming fun s => s.setCell a { x with stamp := sub32 now x.elapsed }, { r with next := c + 1, last := at_ })

/-- Cells of a rebase in their order as far as the count has come: none after the first that is not due yet. -/
def State.rebaseDue (s : State) (r : Rebase) : List Nat :=
  let l := (s.usedCells r.strand).filter fun c => decide (r.next ≤ c)
  (l.foldl (fun (p : Rebase × List Nat × Bool) c =>
    let at_ := p.1.visitAt c
    if p.2.2 && decide (at_ ≤ s.us) then ({ p.1 with last := at_ }, p.2.1 ++ [c], true) else (p.1, p.2.1, false)) (r, [], true)).2.1

/-- A rebase under way in a Strand goes on to the present (R213). -/
def State.rebaseTo (s : State) (n : Nat) : State :=
  match s.tds.rebase.find? fun r => decide (r.strand = n) with
  | none => s
  | some r =>
    let p := (s.rebaseDue r).foldl State.rebaseVisit (s, r)
    { p.1 with tds := { p.1.tds with rebase := p.1.tds.rebase.map fun q => if q.strand = n then p.2 else q } }

/-- A rebase ends: every cell has had its visit (R213). -/
def State.rebaseEnd (s : State) (n : Nat) : State :=
  match s.tds.rebase.find? fun r => decide (r.strand = n) with
  | none => s
  | some r =>
    let s := if s.us < r.start + 65 then s.reach ((r.start + 65) * 1000) else s
    let s := s.rebaseTo n
    { s with tds := { s.tds with rebase := s.tds.rebase.filter fun q => decide (q.strand ≠ n) } }

/-- Bytes stored to the timer array, from an offset on: reserved bits of CTRL take 0 (R205). -/
def ctrlMask (off : Nat) (b : List Byte) : List Byte :=
  b.zipIdx.map fun e =>
    match (off + e.2) % 16 with
    | 8 => e.1 &&& 0x07
    | 9 => e.1 &&& 0x0F
    | 10 => 0
    | 11 => 0
    | _ => e.1

/-! ### Bandwidth windows (R499) -/

/-- The microsecond count goes on to u.
(DESIGN CHOICE, unsafe: log 8.) -/
def State.reachUs (s : State) (u : Nat) : State := if s.us < u then s.reach (u * 1000) else s

/-- Bytes that a port has sent in frames whose last byte passed before a microsecond count (R499). -/
def Bw.txBefore (w : Bw) (u p : Nat) : Nat :=
  ((w.sent.filter fun e => decide (e.1 < u) && decide (e.2.1 = p)).map fun e => e.2.2).sum

/-- A bandwidth window ends; a frame that is still leaving counts in a later one (R499). -/
def State.bwEnd (s : State) : State :=
  let s := s.reachUs s.pmc.bw.due
  if s.us < s.pmc.bw.due then s
  else
    let w := s.pmc.bw
    let s := s.each (List.range 18) fun s p =>
      (s.setOb (K.PMC_BW_RX (p + 1)) (mget (fun _ => 0) w.rx p)).setOb (K.PMC_BW_TX (p + 1)) (w.txBefore w.due p)
    let s := s.setOb K.PMC_BW_END w.due
    { s with pmc := { s.pmc with bw := {
      rx := []
      sent := w.sent.filter fun e => decide (w.due ≤ e.1)
      due := nextMultiple (s.ob K.PMC_BW_WINDOW) s.us } } }

/-- A window whose end the microsecond count has reached ends before another frame is counted (R499). -/
def State.bwPast (s : State) : State := if s.pmc.bw.due ≤ s.us then s.bwEnd else s

end Sys2Proof.Machine
end

