-- ==== Sys2Proof/Machine/TideOps.lean ====
section
/-! DEFINITION. The tide sequencer: START and its checks (R140, R145, R150), releases (R147–R151, R162, R163), gates
and flags (R158), publishes (R156, R164) and task commands (R166). -/

namespace Sys2Proof.Machine

/-- P of R137, in ns. -/
def State.tideP (s : State) : Nat := s.ob K.TDS_PERIOD * 31250

/-- TDS.SLACK_BUDGET (R141, R168). -/
def State.slackBudget (s : State) : Nat := s.tideP - s.ob K.TDS_GUARD - s.ob K.TDS_SLACK_PT

/-- The tide is stopped, in the sense of R31 (R145). -/
def State.tideStopped (s : State) : Bool := decide (s.tds.st = .stopped) || decide (s.tds.st = .halted)

/-- RUNNING or STOPPING: tides take place (R145). -/
def State.tideOn (s : State) : Bool := decide (s.tds.st = .running) || decide (s.tds.st = .stopping)


/-- Instant of a phase offset in the current tide. -/
def State.phaseAt (s : State) (key : Nat) : Nat := s.tds.ebbAt + s.ob key

/-! ### Checks of START -/

/-- The conditions on the phase offsets (R140). -/
def State.phaseOk (s : State) : Bool :=
  let ind := s.ob K.TDS_IN_DEADLINE
  let fl := s.ob K.TDS_FLOOD
  let fll := s.ob K.TDS_FLOOD_LATEST
  let cut := s.ob K.TDS_CUT
  let la := s.ob K.TDS_LAUNCH
  let sp := s.ob K.TDS_SLACK_PT
  let g := s.ob K.TDS_GUARD
  decide (0 < ind) && decide (ind ≤ fl) && decide (fl ≤ fll) && decide (fll < cut) && decide (cut + 2000 ≤ la) &&
    decide (la < sp) && decide (1000 ≤ g) && decide (sp + g < s.tideP) && decide (s.ob K.TDS_OFFSET < s.tideP)

/-- A core that START takes as fitted: on a Strand that is fitted and whose active bank holds code (R150, R523). -/
def State.corePlaced (s : State) (c : Nat) : Bool := s.coreFitted c && !bit s.olc.blank (strandOf c)

/-- The first section that fails a check. -/
def State.firstSec (s : State) (t : Nat) (bad : Nat → Bool) : Option Nat := (s.secs t).find? bad

/-- Contexts of the sections before section i of task t, in the order of R150. -/
def State.earlierCtxs (s : State) (t i : Nat) : List Nat :=
  ((s.usedTasks.filter fun u => u < t).flatMap fun u => (s.secs u).map fun j => s.secCtx u j) ++
    ((s.secs t).filter fun j => j < i).map fun j => s.secCtx t j

/-- An entry lies outside its area or outside the data SRAM (R150, R153). -/
def ListEntry.outside (e : ListEntry) : Bool :=
  decide (areaSize e.area < 64 * (e.src + e.len)) || decide (0x400000 < 64 * (e.dst + e.len))

/-- Two entries name a line of one area in common. -/
def ListEntry.overlaps (a b : ListEntry) : Bool :=
  decide (a.area = b.area) && decide (a.src < b.src + b.len) && decide (b.src < a.src + a.len)

/-- TDS.START_ERR with a code, section and task (R168). -/
def startErr (code sec t : Nat) : Nat := code * 2 ^ 24 + sec * 2 ^ 20 + t

/-- The checks of one task in the order of R150. -/
def State.taskErr (s : State) (t : Nat) : Option Nat :=
  if s.secHeld t < s.tskNsec t then some (startErr 8 0 t)
  else
    let e := fun (code : Nat) (bad : Nat → Bool) => (s.firstSec t bad).map fun i => startErr code i t
    let per := s.ob (K.TSK_PERIOD t)
    (e 2 fun i => (s.earlierCtxs t i).contains (s.secCtx t i) || decide (15 < (s.secEntry t i).ctx)) <|>
    (e 2 fun i => decide (s.secCtx t i = 0)) <|>
    (e 3 fun i => !s.corePlaced (s.secEntry t i).core) <|>
    (e 4 fun i => decide (2 ^ i ≤ (s.secEntry t i).pred)) <|>
    (if bits per 15 0 ≤ bits per 31 16 then some (startErr 5 0 t) else none) <|>
    (e 6 fun i => (s.inEntries t i ++ s.outEntries t i).any ListEntry.outside) <|>
    (e 7 fun i => ((s.secs t).filter fun j => j < i).any fun j =>
      (s.outEntries t i).any fun a => (s.outEntries t j).any fun b => a.overlaps b)

/-- TDS.START_ERR of a START now: 0 where every check passes (R140, R150, R170). -/
def State.startCheck (s : State) : Nat :=
  if s.phaseOk = false then startErr 1 0 0 else (s.usedTasks.findSome? s.taskErr).getD 0

/-! ### Sequencer commands -/

/-- The first ebb point after a START accepted at ns count now (R137). -/
def firstEbb (now off p : Nat) : Nat :=
  let lo := now + 62500
  if p = 0 then lo else if lo ≤ off then off - (off - lo) / p * p else off + (lo - off + p - 1) / p * p

/-- A context is set FREE, as it stands otherwise. -/
def Ctx.free (x : Ctx) : Ctx :=
  { x with cs := .free, npOpen := false, npcnt := 0, wait := .none, stall := [], late := [], rep := false }

/-- Tasks that START puts in a state of their own: those with a configuration, or with a state to leave. -/
def State.startTasks (s : State) : List Nat :=
  (List.range 256).filter fun t => decide (t ≠ 0) && (decide (s.tskCfg t ≠ 0) || s.tasks.any fun e => decide (e.1 = t))

/-- START once accepted (R145, R199, R206, R212). -/
def State.tideStart (s : State) : State :=
  let s := s.setOb K.TDS_START_ERR 0
  let s := s.each ((List.range 384).filter fun g => g ≠ 0) fun s g =>
    if (s.ctx g).cs = .free then s else s.modCtx g Ctx.free
  let s := s.each s.startTasks fun s t => s.setTask t { (s.task t) with
    st := if bit (s.tskCfg t) 20 then .idle else .disabled
    flags := 0
    held := []
    hsec := 0
    disPend := false
    inDone := []
    cbHeld := false
    ended := []
    tideHalt := false }
  let s := s.orphanAll
  let s := s.each s.strands State.countBadKind
  let rb := (s.strands.filter fun n => s.domOn (dS n) && bit (s.ob (K.TMR_CTL n)) 0).map s.rebaseBegin
  let s := s.draw.setTds fun t => { t with
    nextEbb := firstEbb s.ns (s.ob K.TDS_OFFSET) s.tideP
    first := true
    stopEbbs := 0
    rebase := rb
    lastCut := 0
    copyIns := []
    phase := 0
    swin := false
    slacked := false
    trigQ := [] }
  (s.toTide .armed).reschedAll

/-- STOP once accepted (R145). -/
def State.tideStop (s : State) : State :=
  match s.tds.st with
  | .armed => s.toTide .stopped
  | .running => ((s.setTds fun t => { t with stopEbbs := 0 }).toTide .stopping).tideSettle
  | _ => s

/-- CLEAR once accepted (R145). -/
def State.tideClear (s : State) : State := if s.tds.st = .halted then s.toTide .stopped else s

/-- A START may begin tides: not in SERVICE (R255), nor in a partner whose tide only a resynchronisation starts (R335). -/
def State.mayStart (s : State) : Bool :=
  !s.str.service && decide (s.red.role ≠ .unsynced) && decide (s.red.role ≠ .resync)

/-- Status of a TDS.CMD value in this state (R145). -/
def State.tdsCmdCheck (s : State) (v : Nat) : Nat :=
  let st := s.tds.st
  match v with
  | 1 => if st ≠ .stopped ∨ s.mayStart = false then stSTATE else if s.startCheck ≠ 0 then stRANGE else stOK
  | 2 => if st = .stopped ∨ st = .halted then stSTATE else stOK
  | 3 => if st = .running ∨ st = .stopping then stOK else stSTATE
  | 4 => if st = .halted then stOK else stSTATE
  | _ => stRESERVED

/-! ### Releases -/

/-- A context as its task's release loads it (R151): every register the task may write is 0 but those named. -/
def Ctx.load (x : Ctx) (t i seq trap : Nat) (e : SecEntry) : Ctx :=
  let keep := fun n => (n, x.sreg n)
  let sr := ([keep 9, keep 25, (7, BitVec.ofNat 32 e.stkLo), (8, BitVec.ofNat 32 e.stkHi),
    (2, BitVec.ofNat 32 (trap &&& statusMask))] : List (Nat × Word)).foldl
      (fun m p => mput (fun _ => (0 : Word)) m p.1 p.2) ([] : SMap Word)
  let y : Ctx := { x with
    late := []
    g := []
    f := []
    sr := sr
    pc := BitVec.ofNat 32 e.entry
    task := t
    sec := i
    npOpen := false
    npcnt := 0
    cs := .gated
    wait := .none
    stall := []
    relSeq := seq
    rep := false }
  (y.setG 1 (BitVec.ofNat 32 e.arg)).setG 31 (BitVec.ofNat 32 e.stkHi)

/-- A GATED section becomes READY; a task in COPY_IN becomes ACTIVE with its first (R155, R158, R167). -/
def State.secReady (s : State) (t i : Nat) : State :=
  let g := s.secCtx t i
  if (s.ctx g).cs = .gated ∧ (s.ctx g).task = t then
    let s := s.modCtx g fun x => { x with cs := .ready }
    let s := if (s.task t).st = .copyIn then s.modTask t fun k => { k with st := .active } else s
    s.resched (g / 16)
  else s

/-- Sections whose copy-in is complete and whose predecessors' flags are set become READY (R158), once the task's EDGE_INIT
entries are applied (R231); none of a task that the tide's HALT halted (R145).
(DEDUCED, unsafe: log 40.) -/
def State.openGates (s : State) (t : Nat) : State :=
  if (s.olc.edgeInits.any fun e => decide (e.task = t)) || (s.task t).tideHalt then s
  else
  s.each ((s.secs t).filter fun i => (s.task t).inDone.contains i &&
      decide ((s.secEntry t i).pred &&& (s.task t).flags = (s.secEntry t i).pred) && !bit (s.task t).flags i)
    fun s i => s.secReady t i

/-- Loads left in flight by a context's earlier release return to no register. -/
def State.dropFlights (s : State) (g : Nat) : State :=
  let k := s.core (g / 16)
  if k.flight.any fun f => decide (f.ctx = g) then
    s.setCore (g / 16) { k with flight := k.flight.filter fun f => decide (f.ctx ≠ g) }
  else s

/-- A release decided delay ns from now, for a flood start or trigger of ns count cause: contexts loaded, flags cleared, copy-ins
decided (R149–R151, R155, R501). -/
def State.takeAt (s : State) (t cause delay : Nat) : State :=
  let seq := s.tds.seq
  let s := s.incOb (K.TSK_RELEASES t)
  let s := s.setOb (K.TSK_LAST_RELEASE t) s.us
  let s := s.setTds fun d => { d with seq := d.seq + 1 }
  let s := s.modTask t fun k => { k with
    st := .copyIn
    flags := 0
    relSeq := seq
    relAt := s.ns + delay
    relTide := s.ob K.TDS_TIDE64 + b2n s.tds.flooded
    inDone := (s.secs t).filter fun i => (s.secEntry t i).inCount = 0
    ended := []
    cbHeld := false
    tideHalt := false }
  let s := s.each (s.secs t) fun s i =>
    let g := s.secCtx t i
    let s := if (s.ses g).bdrRead = 0 ∧ (s.ses g).bdrWrite = 0 then s
      else s.setSes g { s.ses g with bdrRead := 0, bdrWrite := 0 }
    (s.dropFlights g).modCtx g fun x => x.load t i seq (s.ob (K.TSK_TRAPMASK t)) (s.secEntry t i)
  let s := s.setTds fun d => { d with
    copyIns := d.copyIns ++ ((s.secs t).filter fun i => (s.secEntry t i).inCount ≠ 0).map fun i =>
      { task := t, sec := i, seq := seq, old := [] } }
  (s.sample (0x200 + t) 0 ((s.ns + delay : Nat) - (cause : Int))).openGates t

/-- A release taken for a flood start or trigger: the decision comes within 200 ns of now (R149).
(DESIGN CHOICE, safe: log 33.) -/
def State.takeRelease (s : State) (t cause : Nat) : State := s.draw.takeAt t cause (Config.releaseDelay s.fresh % 201)

/-- Every context of a task is set FREE and nothing of its release goes on (R166 ABANDON). -/
def State.abandonTask (s : State) (t : Nat) : State :=
  let s := s.each (s.secs t) fun s i =>
    let g := s.secCtx t i
    if (s.ctx g).task = t then s.modCtx g Ctx.free else s
  let s := s.modTask t fun k => { k with
    st := if k.disPend then .disabled else .idle
    flags := 0
    held := []
    disPend := false
    inDone := []
    ended := []
    cbHeld := false
    tideHalt := false }
  let s := s.setTds fun d => { d with copyIns := d.copyIns.filter fun k => k.task ≠ t }
  (s.each (s.secs t) fun s i => s.resched (s.secEntry t i).core).pumpForces

/-- One overrun counted and sent (R162). -/
def State.overrun (s : State) (t : Nat) : State :=
  ((s.incOb (K.TSK_OVERRUNS t)).incOb K.TDS_OVERRUNS).raise 0x03 t t 0 (s.ob K.TDS_TIDE) 0

/-- A RESTART release of a halted task: the instance is abandoned, and the task released anew; a DISABLE that waited for the
task to become IDLE takes effect between the two, and a DISABLED task's release is ignored (R162, R165, R166).
(DEDUCED, unsafe: log 84.) -/
def State.restart (s : State) (t cause : Nat) : State :=
  let s := s.abandonTask t
  if (s.task t).st = .disabled then s else s.takeRelease t cause

/-- A release of a task for a flood start or trigger of ns count cause (R162, R165). -/
def State.release (s : State) (cause t : Nat) : State :=
  let k := s.task t
  if s.tskUsed t = false then s else
  match k.st with
  | .disabled => s
  | .idle => s.takeRelease t cause
  | .halted => if s.tskFpol t = 1 then s.restart t cause else s.overrun t
  | _ =>
    let s := s.overrun t
    if bit (s.tskCfg t) 21 ∧ k.held.length < bits (s.tskCfg t) 25 22 then
      s.modTask t fun k => { k with held := k.held ++ [cause] }
    else s

/-- Tasks in ascending priority number, then task ID (R149). -/
def State.byPrio (s : State) (l : List Nat) : List Nat :=
  (List.range 64).flatMap fun p => l.filter fun t => s.tskPrio t = p

/-- Releases decided in one decision cycle, for a flood start or trigger of ns count cause (R149). -/
def State.releaseAll (s : State) (cause : Nat) (l : List Nat) : State := s.each (s.byPrio l) fun s t => s.release cause t

/-- Cyclic tasks due in this tide (R147). -/
def State.dueTasks (s : State) : List Nat :=
  s.usedTasks.filter fun t =>
    let per := s.ob (K.TSK_PERIOD t)
    decide (s.tskKind t = 1) && decide (s.ob K.TDS_TIDE64 % bits per 15 0 = bits per 31 16)

/-- Event tasks bound to a trigger (R148). -/
def State.boundTasks (s : State) (cls num : Nat) : List Nat :=
  s.usedTasks.filter fun t => decide (s.tskKind t = 2) && decide (s.ob (K.TSK_TRIGGER t) = cls * 256 + num)

/-- A source fires a trigger, which is on its way to the Headland (R148, R149). A standby's own triggers release
nothing and are only kept (R338). -/
def State.fire (s : State) (cls num : Nat) : State :=
  if s.red.role = .standby then
    { s with red := { s.red with
      own := s.red.own ++ [{ at_ := s.ntm.mono, ev := .release cls num (s.ob K.TDS_TIDE) 0 }] } }
  else s.setTds fun d => { d with trigQ := d.trigQ ++ [(cls, num)] }

/-! ### Copy-in, flags, publish -/

/-- What a release decided at a place waits for before its copy-ins read: publishes that were in progress then and are not held,
force changes decided before it, and held operations that nothing but earlier copy-ins holds any more (R155, R187, R196). -/
def State.readsAfter (s : State) (seq : Nat) : Bool :=
  (s.usedTasks.all fun u =>
    decide ((s.task u).st ≠ .copyBack) || decide (seq < (s.task u).cbSeq) || (s.task u).cbHeld) &&
  (s.tds.forceQ.all fun e => decide (seq < e.1)) &&
  s.img.held.all fun e => match e.1 with
    | some o => decide (seq < o)
    | none => true

/-- The copy-in at the head of its Strand's channel, which may read (R154, R155). -/
def State.copyInFront (s : State) (t i : Nat) : Option CopyIn :=
  let n := strandOf (s.secEntry t i).core
  match s.tds.copyIns.find? fun k => decide (strandOf (s.secEntry k.task k.sec).core = n) with
  | some k => if k.task = t ∧ k.sec = i ∧ s.readsAfter k.seq = true then some k else none
  | none => none

/-- A sequencer's copy on the channel of a Strand halts: DMA.ERR, the count and the record of the halt, then the section's
context is HALTED with code BUSERR, and the task follows its FPOL (R165, R410, R426).
(DEDUCED, unsafe: log 85.) -/
def State.copyHalt (s : State) (t i : Nat) (e : CopyErr) : State :=
  let g := s.secCtx t i
  let s := s.chanHalt (strandOf (g / 16) - 1) e
  let s := s.modCtx g fun x => { x.halt with finfo := BitVec.ofNat 32 (fBusErr * 2 ^ 24) }
  (s.taskHalt t i).resched (g / 16)

/-- Every section's flag is set. -/
def State.allFlags (s : State) (t : Nat) : Bool := (s.secs t).all fun i => bit (s.task t).flags i

/-- Once every flag of an ACTIVE task is set its copy-backs start (R156, R167).
(DEDUCED, unsafe: log 83.) -/
def State.copyBackIf (s : State) (t : Nat) : State :=
  if s.allFlags t ∧ (s.task t).st = .active then
    let s := (s.modTask t fun k => { k with st := .copyBack, cbSeq := s.tds.seq }).setTds fun d => { d with seq := d.seq + 1 }
    s.copyProgress.copyBackReach t
  else s

/-- A section's completion flag is set; after the last the copy-backs start (R156, R158). -/
def State.setFlag (s : State) (t i : Nat) : State :=
  let s := s.modTask t fun k => { k with
    flags := putBit k.flags i true
    ended := k.ended.filter fun j => j ≠ i }
  (s.openGates t).copyBackIf t

/-- The first tide whose flood start comes after a release and releases the task again on its grid (R147, R164). -/
def State.nextDue (s : State) (t : Nat) : Nat :=
  let per := s.ob (K.TSK_PERIOD t)
  let m := bits per 15 0
  let p := bits per 31 16
  let r := (s.task t).relTide
  if m = 0 then r else r + (p + m - r % m) % m

/-- One checked write of a marker line by a section that does not own it (R160, R161). -/
def State.sharing (s : State) (line t i : Nat) : State :=
  let tag := s.owner line
  if bit tag 15 ∧ ¬(bits tag 7 0 = t ∧ bits tag 11 8 = i) then
    let s := (s.incOb K.TDS_SHARING).incOb (K.TSK_SHARING t)
    let s := s.setOb K.TDS_LAST_SHARING (line * 2 ^ 32 + (tag % 4096) * 2 ^ 16 + i * 2 ^ 12 + t)
    let w := t * 16 + i
    if s.tds.sharingSeen.contains (w, line) then s
    else (s.setTds fun d => { d with sharingSeen := d.sharingSeen ++ [(w, line)] }).raise 0x04 line (t * 256 + i) 0 tag
      (s.ob K.TDS_TIDE)
  else s

/-- A reserved channel has work: a copy-in that waits, or a copy-back that has yet to be read (R154, R421). -/
def State.chanBusy (s : State) (k : Nat) : Bool :=
  decide (k < 6) && ((s.tds.copyIns.any fun c => decide (strandOf (s.secEntry c.task c.sec).core = k + 1)) ||
    s.usedTasks.any fun t => decide ((s.task t).st = .copyBack) && !(s.task t).cbHeld &&
      (s.secs t).any fun i => decide (s.outEntries t i ≠ []) && decide (strandOf (s.secEntry t i).core = k + 1))

/-- STATE of a channel (R421): a reserved one runs while it has work. -/
def State.chanSt (s : State) (k : Nat) : DmaSt := if s.chanBusy k then .running else (s.ch k).st

/-- Copy-back writes of marker lines undergo the ownership check (R160). -/
def State.sharingBack (s : State) (t : Nat) : State :=
  s.each (s.secs t) fun s i => s.each (s.outEntries t i) fun s e =>
    if e.area = 2 then s.each (List.range e.len) fun s j => s.sharing (e.src + j) t i else s

/-- The publish has taken effect: counters, deadline, and the task's next state; a held release is taken in this clock (R156, R163,
R164). -/
def State.publishEnd (s : State) (t : Nat) : State :=
  let exec := (s.ns - (s.task t).relAt) % 2 ^ 32
  let s := s.setOb (K.TSK_LAST_EXEC t) exec
  let s := s.when (decide (s.ob (K.TSK_MAX_EXEC t) < exec)) fun s => s.setOb (K.TSK_MAX_EXEC t) exec
  let s := s.when (decide (s.tskKind t = 1) && decide (s.nextDue t ≤ s.tds.lastCut)) fun s => s.incOb (K.TSK_LATES t)
  let s := s.sample (0x100 + t) 0 exec
  let k := s.task t
  let s :=
    if k.disPend then s.setTask t { k with st := .disabled, held := [], disPend := false, cbHeld := false }
    else match k.held with
      | cause :: l =>
        if s.tds.st = .running then (s.setTask t { k with st := .idle, held := l, cbHeld := false }).takeAt t cause 0
        else s.setTask t { k with st := .idle, cbHeld := false }
      | [] => s.setTask t { k with st := .idle, cbHeld := false }
  s.tideSettle

/-- Lines of Q in a task's publish that must wait for the transmit window (R190). -/
def State.publishHeld (s : State) (t : Nat) : List Nat := (s.outLines t).filter s.lineHeld

/-- The publish takes effect whole; where a copy-back meets an error, nothing is published and the section halts (R156, R187,
R410).
(DEDUCED, unsafe: log 85.) -/
def State.landPublish (s : State) (t : Nat) : State :=
  let bad := s.copyBackBad t
  let s := s.each (s.secs t) fun s i => (s.copyBackRun t i).1
  if bad = [] then ((s.sharingBack t).copyBackAll t).publishEnd t
  else (s.modTask t fun k => { k with cbHeld := false }).each bad fun s e => s.copyHalt t e.1 e.2

/-- Strands whose channels run a task's copy-backs (R154). -/
def State.backStrands (s : State) (t : Nat) : List Nat :=
  (((s.secs t).filter fun i => s.outEntries t i ≠ []).map fun i => strandOf (s.secEntry t i).core).dedup

/-- A copy-back that entered a channel of this task's earlier has yet to end there (R154); one that the transmit window holds
has been read and waits in the image store. -/
def State.behindBack (s : State) (t : Nat) : Bool :=
  s.usedTasks.any fun u => decide ((s.task u).st = .copyBack) && !(s.task u).cbHeld &&
    decide ((s.task u).cbSeq < (s.task t).cbSeq) && (s.backStrands u).any (s.backStrands t).contains

/-- No copy-in decided before this copy-back still has to read, and no copy-back is before it on a channel (R154, R155).
(DESIGN CHOICE, unsafe: log 35.) -/
def State.publishFree (s : State) (t : Nat) : Bool := s.copiesDone (s.task t).cbSeq && !s.behindBack t

/-- A publish that nothing but copy-ins holds lands once those decided before it have read (R155, R187). One that was still held
when a START put its task in a state of its own lands all the same (R145).
(DESIGN CHOICE, unsafe: log 35.) -/
def State.landHeldPublish (s : State) (e : Option Nat × HeldOp) (t : Nat) : State :=
  if (s.publishHeld t).isEmpty then
    let p := s.holdPlace e
    if p.1.copiesDone p.2 then
      (if (p.1.task t).st = .copyBack then p.1.landPublish t else (p.1.sharingBack t).copyBackAll t)
    else p.1.hold (some p.2, e.2)
  else s.hold (none, e.2)

/-- An operation held for the transmit window lands if nothing holds it any more (R190, R564). -/
def State.landHeldOp (s : State) (e : Option Nat × HeldOp) : State :=
  match e.2 with
  | .write off b => if ((qLines off b.length).filter s.lineHeld).isEmpty then s.landWrite off b else s.hold e
  | .force _ => s.landHeldForce e
  | .publish t => s.landHeldPublish e t

/-- Held operations land in their order (R190). -/
def State.landHeld (s : State) : State :=
  let l := s.img.held
  (s.setImg fun m => { m with held := [] }).each l State.landHeldOp

/-- An edge entry of task t whose image bit section i's copy-in has delivered takes the bit as it was delivered (R222). -/
def State.edgeDelivered (s : State) (t i : Nat) (e : EdgeInit) : EdgeInit :=
  let off := e.old - 0x20000000
  let o := off - areaBase (areaOf off)
  let hit := (s.inEntries t i).find? fun x =>
    decide (x.area = areaOf off) && decide (64 * x.src ≤ o) && decide (o < 64 * (x.src + x.len))
  match hit with
  | some x =>
    if e.task = t ∧ bit e.flags 1 = false then
      let b := s.byte (mData (strandOf (s.secEntry t i).core) + 64 * x.dst + (o - 64 * x.src))
      { e with flags := putBit (putBit e.flags 1 true) 2 (b.toNat.testBit e.obit) }
    else e
  | none => e

/-- A section's copy-in completes, or halts on an error (R155, R410).
(DESIGN CHOICE, unsafe: log 35.) -/
def State.copyInEnd (s : State) (t i : Nat) (old : List (Nat × List Byte)) : State :=
  let r := s.copyInSec t i old
  let s := r.1.setTds fun d => { d with copyIns := d.copyIns.filter fun k => !(decide (k.task = t) && decide (k.sec = i)) }
  match r.2 with
  | some e => ((s.copyHalt t i e).pumpForces).landHeld
  | none =>
    let l := s.olc.edgeInits.map (s.edgeDelivered t i)
    let s := { s with olc := { s.olc with edgeInits := l } }
    (((s.modTask t fun k => { k with inDone := k.inDone ++ [i] }).openGates t).pumpForces).landHeld

/-- A publish takes effect, or is held for the transmit window (R156, R190). What counts as one hold is a line of Q that holds the
operation.
(DESIGN CHOICE, unsafe: log 86.) -/
def State.publishNow (s : State) (t : Nat) : State :=
  let s := s.copyProgress
  let k := s.task t
  if k.st = .copyBack ∧ k.cbHeld = false ∧ s.publishFree t = true then
    let l := s.publishHeld t
    if l.isEmpty then s.landPublish t
    else ((s.hold (none, .publish t)).countHold l.length).modTask t fun k => { k with cbHeld := true }
  else if k.st = .copyBack ∧ k.cbHeld = true then s.landHeld
  else s

/-! ### Task commands (R166) -/

def State.tskCmdCheck (s : State) (t v : Nat) : Nat :=
  if v = 0 ∨ 5 < v then stRESERVED
  else if (v = 3 ∨ v = 4) ∧ (s.task t).st ≠ .halted then stSTATE
  else if v = 5 ∧ s.tds.st ≠ .running then stSTATE
  else stOK

/-- TSK.CMD once accepted (R166).
(DESIGN CHOICE, unsafe: log 97.) -/
def State.tskCmd (s : State) (t v : Nat) : State :=
  let k := s.task t
  match v with
  | 1 => s.setTask t { k with st := if k.st = .disabled then .idle else k.st, disPend := false }
  | 2 =>
    if k.st = .idle then (s.setTask t { k with st := .disabled }).tideSettle
    else if k.st = .disabled then s
    else s.setTask t { k with held := [], disPend := true }
  | 3 =>
    let s := s.each (s.secs t) fun s i =>
      let g := s.secCtx t i
      if (s.ctx g).cs = .halted ∧ (s.ctx g).task = t then s.modCtx g fun x => { x with cs := .ready } else s
    let s := s.modTask t fun k => { k with st := .active, tideHalt := false }
    let s := s.each (s.secs t) fun s i => s.resched (s.secEntry t i).core
    (s.openGates t).copyBackIf t
  | 4 => (s.abandonTask t).tideSettle
  | _ => s.release s.ns t

end Sys2Proof.Machine
end

