-- ==== Sys2Proof/Machine/BedrockOps.lean ====
section
/-! DEFINITION. Bedrock: regions and passwords (R433, R434), plain writes and INHIBIT (R437), transactions and the
journal (R438–R441), dual-copy records (R442–R444) and wear (R445). Offsets are from 0x3000_0000. -/

namespace Sys2Proof.Machine

/-- REASON codes of R60. -/
def rNONE : Nat := 0
def rDOMAIN_OFF : Nat := 1
def rTIDE_RUNNING : Nat := 2
def rCONFLICT : Nat := 3
def rTIMEOUT : Nat := 4
def rSTAGE_FULL : Nat := 5
def rTXN_EXPIRED : Nat := 6
def rDISCARD_LATE : Nat := 7
def rLOCKOUT : Nat := 8
def rKEEPER_ABSENT : Nat := 9
def rQUEUE_FULL : Nat := 10
def rOEM_TIMEOUT : Nat := 11

/-- Who accesses Bedrock: the session whose transaction it may own, and its read and write unlocks. -/
structure BedReq where
  ses : Option Nat
  rd : Nat
  wr : Nat
  /-- The access goes on in a line that its burst has begun, already counted for wear (R436, R445). -/
  same : Bool
  deriving DecidableEq, Repr

def State.bedReq (s : State) (n : Nat) : BedReq := { ses := some n, rd := (s.ses n).bdrRead, wr := (s.ses n).bdrWrite, same := false }

/-- First and last page of region r, 0–6 (R448). -/
def State.regionFirst (s : State) (r : Nat) : Nat := bits (s.ob (K.BDR_REGION (r + 1))) 8 0
def State.regionLast (s : State) (r : Nat) : Nat := bits (s.ob (K.BDR_REGION (r + 1))) 24 16

/-- The region that holds a page of the integrator's data (R432, R433). -/
def State.regionOf (s : State) (page : Nat) : Option Nat :=
  if 448 ≤ page then none
  else (List.range 7).find? fun r => decide (s.regionFirst r ≤ page) && decide (page ≤ s.regionLast r)

/-- Regions open to a requester for a kind of access: password 0, or unlocked (R433). -/
def State.regionOpen (s : State) (q : BedReq) (write : Bool) (r : Nat) : Bool :=
  if write then decide (s.ob (K.BDR_WPW (r + 1)) = 0) || bit q.wr r
  else decide (s.ob (K.BDR_RPW (r + 1)) = 0) || bit q.rd r

/-- BDR.UNLOCKED (R446). -/
def State.unlockedMask (s : State) (q : BedReq) : Nat :=
  maskOf ((List.range 7).filter (s.regionOpen q false)) + 2 ^ 8 * maskOf ((List.range 7).filter (s.regionOpen q true))

/-- Every page of a range may be accessed by a requester. -/
def State.bedOk (s : State) (q : BedReq) (write : Bool) (off n : Nat) : Bool :=
  (List.range ((off % 4096 + n + 4095) / 4096)).all fun i =>
    match s.regionOf (off / 4096 + i) with
    | some r => s.regionOpen q write r
    | none => false

def State.ownsTxn (s : State) (q : BedReq) : Bool :=
  match s.bdr.owner, q.ses with
  | some a, some b => decide (a = b)
  | _, _ => false

/-- Bytes as a requester reads them: the owner of the transaction sees its staged bytes (R439). -/
def State.bedBytes (s : State) (q : BedReq) (off n : Nat) : List Byte :=
  (List.range n).map fun i =>
    match (if s.ownsTxn q then mget (fun _ => none) s.bdr.staged (off + i) else none) with
    | some b => b
    | none => s.byte (mBed + off + i)

/-- A plain or staged write of an already permitted range; false where it completes as a bus error
(R437, R439). -/
def State.bedStore (s : State) (q : BedReq) (off : Nat) (b : List Byte) : State × Bool :=
  if s.ownsTxn q then
    let m := stageBytes s.bdr.staged off b
    if 64 < (stagedLines m).length then (s.setBdr fun x => { x with failed := true }, false)
    else (s.setBdr fun x => { x with staged := m }, true)
  else if s.bdr.inhibit then (s.incOb K.BDR_INHIBITED, false)
  else ((s.putBytes (mBed + off) b).when (!q.same) fun s => s.wearLines off b.length, true)

/-- A write checked for region and password (R433). -/
def State.bedWrite (s : State) (q : BedReq) (off : Nat) (b : List Byte) : State × Bool :=
  if s.bedOk q true off b.length then s.bedStore q off b else (s, false)

/-! ### Journal -/

/-- Recovery of the journal at start step 2 (R441).
(DEDUCED, unsafe: log 60.) -/
def State.recoverJournal (s : State) : State :=
  s.each (List.range 8) fun s k =>
    let x := s.slot k
    if x.marked then (s.applySlot k).incOb K.BDR_RECOVERED
    else if x.used then (s.setSlot k Slot.init).incOb K.BDR_ROLLED_BACK
    else s

/-- State of the software transaction as the requester reads BDR.TXN (R446). -/
def State.bdrTxnOwn (s : State) (n : Nat) : Nat :=
  if s.bdr.owner = some n then (if s.bdr.failed then 2 else 1) else 0

/-- BDR.STATE (R447). -/
def State.bdrState (s : State) : Nat :=
  16 * b2n s.bdr.inhibit + 8 * b2n s.applying.isSome + 4 * (s.ob K.BDR_CFG % 2) +
    (match s.bdr.owner with | none => 0 | some _ => if s.bdr.failed then 2 else 1)

/-- Status and reason of a BDR.TXN command (R439).
(DESIGN CHOICE, safe: log 59.) -/
def State.bdrTxnCheck (s : State) (n v : Nat) : Nat × Nat :=
  match v with
  | 1 => if s.bdr.owner.isSome then (stBUSY, rNONE) else (stOK, rNONE)
  | 2 =>
    if s.bdr.owner ≠ some n then (stSTATE, rNONE)
    else if s.bdr.inhibit then (stCOMMIT, Config.reasonHoldup)
    else if s.bdr.failed then (stCOMMIT, rSTAGE_FULL)
    else (stOK, rNONE)
  | _ => if s.bdr.owner = some n then (stOK, rNONE) else (stSTATE, rNONE)

def State.bdrTxn (s : State) (n v : Nat) : State :=
  match v with
  | 1 => s.setBdr fun b => { b with owner := some n, failed := false, staged := [] }
  | 2 => (s.journal s.bdr.staged).setBdr fun b => { b with owner := none, failed := false, staged := [] }
  | _ => s.bedDrop fun r => decide (r = n)

/-- A COMMIT that is answered COMMIT closes the transaction, and nothing is written (R439). -/
def State.bdrTxnLost (s : State) : State := s.setBdr fun b => { b with owner := none, failed := false, staged := [] }

/-! ### Unlocks (R434) -/

def State.regionPath (s : State) (r : Nat) : Path := mget (fun _ => Path.init) s.bdr.pwFails r
def State.setRegionPath (s : State) (r : Nat) (x : Path) : State :=
  s.setBdr fun b => { b with pwFails := mput (fun _ => Path.init) b.pwFails r x }

/-- Status and reason of a BDR.UNLOCK value. -/
def State.unlockCheck (s : State) (v : Nat) : Nat × Nat :=
  let r := bits v 34 32
  let pw := if bit v 39 then s.ob (K.BDR_WPW (r + 1)) else s.ob (K.BDR_RPW (r + 1))
  if r = 7 then (stRANGE, rNONE)
  else if (s.regionPath r).locked then (stACCESS, rLOCKOUT)
  else if v % 2 ^ 32 = pw then (stOK, rNONE) else (stACCESS, rNONE)

/-- Failures of a path within the window, with one more now; locked from now on when they reach the limit (R35, R434). -/
def State.pathFail (s : State) (p : Path) : Path :=
  let w := s.ob K.DIC_LOCKOUT_WINDOW * 1000000000
  let l := (p.fails.filter fun t => decide (s.ntm.mono < t + w)) ++ [s.ntm.mono]
  if s.ob K.DIC_LOCKOUT_FAILS ≤ l.length then { fails := [s.ntm.mono], locked := true } else { fails := l, locked := false }

/-- A wrong password (R434). -/
def State.unlockFail (s : State) (v : Nat) : State :=
  let r := bits v 34 32
  if r = 7 ∨ (s.regionPath r).locked then s
  else
    let p := s.pathFail (s.regionPath r)
    let s := (s.incOb K.BDR_PW_FAILS).setRegionPath r p
    s.when p.locked fun s => s.raise 0x08 2 2 0 0 r

def State.unlock (s : State) (n v : Nat) : State :=
  let r := bits v 34 32
  let x := s.ses n
  s.setSes n (if bit v 39 then { x with bdrWrite := putBit x.bdrWrite r true }
    else { x with bdrRead := putBit x.bdrRead r true })

/-- BDR.LOCK (R446). -/
def State.lockRegions (s : State) (n v : Nat) : State :=
  let x := s.ses n
  s.setSes n { x with
    bdrRead := maskOf ((bitList 7 x.bdrRead).filter fun r => !bit v r)
    bdrWrite := maskOf ((bitList 7 x.bdrWrite).filter fun r => !bit v (8 + r)) }

/-! ### Objects' ranges (R448, R449) -/

/-- BDR.REGION of region r: last page in range and no overlap with another region (R448). -/
def State.regionRange (s : State) (r v : Nat) : Nat :=
  let f := bits v 8 0
  let l := bits v 24 16
  if 447 < l then stRANGE
  else if f ≤ l ∧ (List.range 7).any (fun q => decide (q ≠ r) && decide (s.regionFirst q ≤ s.regionLast q) &&
      decide (f ≤ s.regionLast q) && decide (s.regionFirst q ≤ l)) then stRANGE
  else stOK

/-- Offset and length of a record's copies (R442, R449). -/
def descWords (v : Nat) : Nat := bits v 51 42
def descA (v : Nat) : Nat := 16 * bits v 16 0
def descB (v : Nat) : Nat := 16 * bits v 33 17
def descLen (v : Nat) : Nat := 16 + 4 * descWords v

def rangesMeet (a n b m : Nat) : Bool := decide (a < b + m) && decide (b < a + n)

/-- BDR.REC_DESC of record r (R449). -/
def State.descRange (s : State) (r v : Nat) : Nat :=
  let n := descLen v
  if descWords v = 0 ∨ 1020 < descWords v ∨ 448 * 4096 < descA v + n ∨ 448 * 4096 < descB v + n ∨ rangesMeet (descA v) n (descB v) n then
    stRANGE
  else if (List.range 16).any (fun q =>
      let w := s.ob (K.BDR_REC_DESC (q + 1))
      let m := descLen w
      decide (q ≠ r) && decide (descWords w ≠ 0) && (rangesMeet (descA v) n (descA w) m ||
        rangesMeet (descA v) n (descB w) m || rangesMeet (descB v) n (descA w) m ||
        rangesMeet (descB v) n (descB w) m)) then stRANGE
  else stOK

/-! ### Dual-copy records (R442–R444) -/

/-- One copy as read: whether it is valid, its SEQ and its data (R442). -/
structure Copy where
  valid : Bool
  seq : Nat
  data : List Byte
  deriving DecidableEq, Repr

def recMark : Nat := 0x4B524442

def State.readCopy (s : State) (off : Nat) : Copy :=
  let a := mBed + off
  let words := s.rd (a + 8) 4
  let data := s.bytesAt (a + 16) (4 * words % 4096)
  { valid := decide (s.rd a 4 = recMark) && decide (words ≤ 1020) &&
      decide (s.rd (a + 12) 4 = crc32c (s.bytesAt (a + 4) 8 ++ data))
    seq := s.rd (a + 4) 4
    data := data }

/-- Copy A is newer (R443). -/
def seqNewer (a b : Nat) : Bool := let d := sub32 a b; decide (1 ≤ d) && decide (d ≤ 2 ^ 31)

/-- The copy the read rule uses: 0 none, 1 A, 2 B, and whether the two conflict (R443). -/
def chooseCopy (a b : Copy) : Nat × Bool :=
  match a.valid, b.valid with
  | false, false => (0, false)
  | true, false => (1, false)
  | false, true => (2, false)
  | true, true =>
    if a.seq = b.seq then (1, decide (a.data ≠ b.data)) else if seqNewer a.seq b.seq then (1, false) else (2, false)

/-- BDR.REC_STATUS (R450). -/
def recStatus (seq : Nat) (dup : Bool) (a b : Copy) (write : Bool) (used : Nat) : Nat :=
  seq * 2 ^ 32 + b2n dup * 2 ^ 11 + b2n (!b.valid) * 2 ^ 10 + b2n (!a.valid) * 2 ^ 9 + b2n write * 2 ^ 8 + used

/-- A read of the selected record: its data, if any (R443). -/
def State.recRead (s : State) (n : Nat) : State × Option (List Byte) :=
  let s := s.finishApply
  let r := (s.ses n).recSel
  let v := s.ob (K.BDR_REC_DESC (r + 1))
  let a := s.readCopy (descA v)
  let b := s.readCopy (descB v)
  let (u, dup) := chooseCopy a b
  let seq := if u = 1 then a.seq else if u = 2 then b.seq else 0
  let s := s.setSes n { s.ses n with recStatus := recStatus seq dup a b false u }
  let s := s.when (decide (a.valid ≠ b.valid)) fun s => s.incOb K.BDR_CRC_BAD
  let s := s.when dup fun s => s.incOb K.BDR_DUPSEQ
  let s := s.when (dup && !s.bdr.dupRaised.contains r) fun s =>
    (s.raise 0x2A r r 0 seq 0).setBdr fun x => { x with dupRaised := x.dupRaised ++ [r] }
  (s, if u = 1 then some a.data else if u = 2 then some b.data else none)

/-- Status of a write transfer of the selected record (R444). -/
def State.recWriteCheck (s : State) (n len : Nat) : Nat :=
  let v := s.ob (K.BDR_REC_DESC ((s.ses n).recSel + 1))
  let q := s.bedReq n
  if s.bedOk q true (descA v) (descLen v) = false ∨ s.bedOk q true (descB v) (descLen v) = false then stACCESS
  else if s.bdr.inhibit then stSTATE
  else if len ≠ 4 * descWords v then stTYPE
  else stOK

/-- The write of a record into the copy the read rule would not use: its MARK cleared, its data, its MARK, each a line write of its
own (R444, R445). A_BAD, B_BAD and DUPSEQ of REC_STATUS say how the write found the copies.
(DESIGN CHOICE, unsafe: log 116.) -/
def State.recWrite (s : State) (n : Nat) (data : List Byte) : State :=
  let s := s.finishApply
  let r := (s.ses n).recSel
  let v := s.ob (K.BDR_REC_DESC (r + 1))
  let a := s.readCopy (descA v)
  let b := s.readCopy (descB v)
  let (u, dup) := chooseCopy a b
  let seq := if u = 1 then (a.seq + 1) % 2 ^ 32 else if u = 2 then (b.seq + 1) % 2 ^ 32 else 1
  let toB := decide (u = 1)
  let off := if toB then descB v else descA v
  let hd := leBytes 4 seq ++ leBytes 4 (data.length / 4)
  let copy := leBytes 4 recMark ++ hd ++ leBytes 4 (crc32c (hd ++ data)) ++ data
  let s := ((s.putBytes (mBed + off) copy).wearLines off copy.length).wear (off / 4096) 2
  let s := s.setBdr fun x => { x with dupRaised := x.dupRaised.filter fun q => q ≠ r }
  s.setSes n { s.ses n with recStatus := recStatus seq dup a b true (if toB then 2 else 1) }

/-! ### Wear (R445) -/

def State.wearOf (s : State) (p : Nat) : Nat := mget (fun _ => 0) s.bdr.wear p

/-- The lowest page with the highest count, and that count. -/
def State.wearTop (s : State) : Nat × Nat :=
  (List.range 512).foldl (fun b p => if b.2 < s.wearOf p then (p, s.wearOf p) else b) (0, 0)

end Sys2Proof.Machine
end

