-- ==== Sys2Proof/Machine/FabricOps.lean ====
section
/-! DEFINITION. Accesses that reach a memory over the Headland fabric (R20, R420): where an address lies, what a read
returns, and where a write lands. -/

namespace Sys2Proof.Machine

/-- Where an address of the shared map lies; nowhere, with the dies that give the bus error (R431). -/
inductive Place where
  | head (off : Nat)
  | bed (off : Nat)
  | data (strand off : Nat)
  | alt (strand off : Nat)
  | rom (off : Nat)
  | nowhere (dies : Nat)
  deriving DecidableEq, Repr

/-- The shared part of the map (R20, R420); alternate banks for task 0 alone.
(DEDUCED, unsafe: log 16.) -/
def State.place (s : State) (addr : Nat) (task0 : Bool) : Place :=
  if 0x20000000 ≤ addr ∧ addr < 0x21000000 then
    (if s.domMem dHC then .head (addr - 0x20000000) else .nowhere 1)
  else if 0x30000000 ≤ addr ∧ addr < 0x30200000 then
    (if s.domMem dNV then .bed (addr - 0x30000000) else .nowhere 1)
  else if 0xF0000000 ≤ addr ∧ addr < 0xF0010000 then .rom (addr - 0xF0000000)
  else
    let n := (addr - 0x40000000) / 0x1000000
    let off := addr % 0x1000000
    if 0x41000000 ≤ addr ∧ addr < 0x47000000 then
      if off < 0x400000 then (if s.strandUp n then .data n off else .nowhere (2 ^ n))
      else if 0x800000 ≤ off ∧ off < 0xC00000 ∧ task0 = true then
        (if s.strandUp n then .alt n (off - 0x800000) else .nowhere (2 ^ n))
      else .nowhere 0
    else .nowhere 0

/-! ### SRAM -/

/-- SRAM bytes written. -/
def State.sramWrite (s : State) (key : Nat) (b : List Byte) : State := (s.putBytes key b).eccClear key b.length

/-! ### Reads -/

/-- What a read answers: bytes, a bus error with its dies, or a double-bit error. -/
inductive RdAns where
  | ok (b : List Byte)
  | bus (dies : Nat)
  | ecc
  deriving DecidableEq, Repr

def State.sramRead (s : State) (key n : Nat) : RdAns := if s.eccOf key n = 2 then .ecc else .ok (s.bytesAt key n)

/-- A read over the fabric; Bedrock holds it until a commit is applied (R438). -/
def State.fabricRead (s : State) (q : BedReq) (task0 : Bool) (addr n : Nat) : RdAns :=
  match s.place addr task0 with
  | .head off => s.sramRead (mHead + off) n
  | .bed off => if s.bedOk q false off n then .ok (s.finishApply.bedBytes q off n) else .bus 1
  | .data k off => s.sramRead (mData k + off) n
  | .alt k off => s.sramRead (s.altBank k + off) n
  | .rom off => .ok ((List.range n).map fun i => Config.romByte (off + i))
  | .nowhere d => .bus d

/-- Single-bit errors that a channel's read meets are corrected, and counted where the memory's owner counts them (R90, R420). -/
def State.fabricCorr (s : State) (task0 : Bool) (addr n : Nat) : State :=
  match s.place addr task0 with
  | .data k off => s.strandCorr k (mData k + off) n
  | .alt k off => s.strandCorr k (s.altBank k + off) n
  | _ => s

/-! ### Writes; Bedrock holds one until a commit is applied (R438) -/

/-- Headland SRAM: the input image at once (R183), Q and M by the rules of the image (R188), global data plainly. -/
def State.headWrite (s : State) (off : Nat) (b : List Byte) : State :=
  if 0x80000 ≤ off ∧ off < 0x200000 then (s.imgWrite off b).eccClear (mHead + off) b.length
  else s.sramWrite (mHead + off) b

/-- Data SRAM of a Strand; lines leave the caches that did not write them (R89). -/
def State.dataWrite (s : State) (n off : Nat) (b : List Byte) (writer : Option Nat) : State :=
  (s.sramWrite (mData n + off) b).invalidate n off b.length writer

/-- A write of a Strand's alternate bank is kept in mind for VERIFY (R226, R229). -/
def State.bankWrite (s : State) (n off : Nat) (b : List Byte) : State :=
  let s := s.sramWrite (s.altBank n + off) b
  if s.olc.bankWritten.contains n then s
  else { s with olc := { s.olc with bankWritten := s.olc.bankWritten ++ [n] } }

/-- A write over the fabric, and none where it was carried out, else the dies of its bus error. -/
def State.fabricWrite (s : State) (q : BedReq) (task0 : Bool) (writer : Option Nat) (addr : Nat) (b : List Byte) :
    State × Option Nat :=
  match s.place addr task0 with
  | .head off => (s.headWrite off b, none)
  | .bed off => let r := s.finishApply.bedWrite q off b; (r.1, if r.2 then none else some 1)
  | .data k off => (s.dataWrite k off b writer, none)
  | .alt k off => if s.olc.st = .loading then (s.bankWrite k off b, none) else (s, some (2 ^ k))
  | .rom _ => (s, some 0)
  | .nowhere d => (s, some d)

end Sys2Proof.Machine
end

