-- ==== Sys2Proof/Machine/CalendarOps.lean ====
section
/-! DEFINITION. The backup domain: the calendar count, its shift and alarms (R451–R459), the date converter
(R454–R456), SUPPLY_EN (R460), and the reserve cell's identity, stress, test and end of life (R461–R468). -/

namespace Sys2Proof.Machine

/-- The largest count (R451). -/
def calMax : Nat := 0x7FFFFFFFFFFF

def State.setCal (s : State) (f : Cal → Cal) : State := { s with cal := f s.cal }
def State.setRsv (s : State) (f : Rsv → Rsv) : State := { s with rsv := f s.rsv }

/-- A shift is in progress until its end (R457). -/
def Cal.shifting (c : Cal) : Bool := decide (c.shift ≠ 0) || decide (c.shiftPhase ≠ 0)

/-- The count's update at a tick: exactly one of a pending write, a shift's tick, and an advance by 1 (R452, R457).
The eighth tick of each eight is the doubled or unchanged one. -/
def Cal.update (c : Cal) : Cal :=
  match c.wr with
  | some v =>
    { c with
      count := v
      wr := none
      valid := true
      cut := c.cut || c.shifting
      shift := 0
      shiftPhase := 0
      end_ := c.end_ && decide (v = calMax) }
  | none =>
    if c.shift ≠ 0 ∧ c.shiftPhase = 7 then
      { c with
        count := if 0 < c.shift then Nat.min calMax (c.count + 2) else c.count
        shift := if 0 < c.shift then c.shift - 1 else c.shift + 1
        shiftPhase := if c.shift = 1 ∨ c.shift = -1 then 8 else 0 }
    else
      { c with
        count := Nat.min calMax (c.count + 1)
        shiftPhase := if c.shift ≠ 0 then c.shiftPhase + 1 else c.shiftPhase }

/-- A pending SUPPLY_OFF at a tick: an assertion since the latest tick wins over it (R460). -/
def Cal.supplyTick (c : Cal) : Cal :=
  { c with
    supply := c.supply && (!c.offReq || c.asserted)
    supKept := c.supKept || (c.offReq && c.asserted)
    offReq := false
    asserted := false }

/-- SUPPLY_EN is asserted (R460). -/
def Cal.assert (c : Cal) : Cal := { c with supply := true, asserted := true }

/-- CAL.STATE (R466). -/
def Cal.state (c : Cal) : Nat :=
  64 * b2n c.end_ + 32 * b2n c.cut + 16 * b2n c.shifting + 8 * b2n c.supply + 4 * b2n c.supKept + 2 * b2n c.onCell +
    b2n c.valid

/-- A write of CAL.ALARM_CTL: arming clears what the last alarm left (R458, R459). -/
def alarmCtlWrite (old v : Nat) : Nat := if bit v 0 then v % 4 else old / 4 * 4 + v % 4

/-- Alarm n is armed, and this count is at or above its value (R458). -/
def State.alarmReached (s : State) (count n : Nat) : Bool :=
  bit (s.ob (K.CAL_ALARM_CTL (n + 1))) 0 && decide (s.ob (K.CAL_ALARM (n + 1)) ≤ count)

/-- What an alarm does when it fires (R458). -/
def State.alarmFire (s : State) (n : Nat) : State :=
  let ctl := s.ob (K.CAL_ALARM_CTL (n + 1))
  let v := s.ob (K.CAL_ALARM (n + 1))
  let hc := s.domOn dHC
  let s := s.setOb (K.CAL_ALARM_CTL (n + 1))
    (putBit (putBit (putBit (putBit ctl 0 false) 2 true) 3 (decide (s.cal.count ≠ v))) 4 (!hc))
  let s := s.when (bit ctl 1) fun s => s.setCal Cal.assert
  s.when hc fun s => s.fire 0x05 n

/-! ### Dates (R454, R455) -/

/-- A leap year (R455). -/
def leapYear (y : Int) : Bool := decide (y % 4 = 0) && (decide (y % 100 ≠ 0) || decide (y % 400 = 0))

/-- Days of the first m months of a year. -/
def monthStart (leap : Bool) : Nat → Nat
  | 0 => 0
  | m + 1 => monthStart leap m + (if m = 1 then (if leap then 29 else 28) else if m = 3 ∨ m = 5 ∨ m = 8 ∨ m = 10 then 30
    else 31)

/-- Days from 2000-01-01 to the first day of a month. -/
def daysFromEpoch (y : Int) (m : Nat) : Int :=
  365 * (y - 2000) + ((y - 1) / 4 - (y - 1) / 100 + (y - 1) / 400) - (1999 / 4 - 1999 / 100 + 1999 / 400) +
    (monthStart (leapYear y) (m - 1) : Nat)

/-- Ticks of a date in the fields of CAL.CONV_DATE, as an integer (R455). -/
def dateTicks (v : Nat) : Int :=
  let y0 : Int := bits v 63 48
  let m0 := bits v 47 44
  let y := if m0 = 0 then y0 - 1 else if 12 < m0 then y0 + 1 else y0
  let m := if m0 = 0 then 12 else if 12 < m0 then m0 - 12 else m0
  let days := daysFromEpoch y m + (bits v 43 39 : Nat) - 1
  let s := days * 86400 + (bits v 38 34 : Nat) * 3600 + (bits v 33 28 : Nat) * 60 + (bits v 27 22 : Nat)
  s * 32768 + (bits v 14 0 : Nat)

/-- The date's ticks lie in the count's range (R455). -/
def dateOk (v : Nat) : Bool := decide (0 ≤ dateTicks v) && decide (dateTicks v ≤ (calMax : Int))

/-- Year and day of the year of a day after the epoch, years from y on. -/
def yearOf : Nat → Nat → Nat → Nat × Nat
  | 0, y, d => (y, d)
  | f + 1, y, d =>
    let n := if leapYear y then 366 else 365
    if d < n then (y, d) else yearOf f (y + 1) (d - n)

/-- A normal-form date of ticks (R455). -/
def ticksDate (t : Nat) : Nat :=
  let sec := t / 32768
  let day := sec / 86400
  let r := sec % 86400
  let (y, d) := yearOf 140 2000 day
  let m := ((List.range 13).filter fun k => decide (1 ≤ k) && decide (monthStart (leapYear y) (k - 1) ≤ d)).length
  let dom := d - monthStart (leapYear y) (m - 1) + 1
  y * 2 ^ 48 + m * 2 ^ 44 + dom * 2 ^ 39 + r / 3600 * 2 ^ 34 + r / 60 % 60 * 2 ^ 28 + r % 60 * 2 ^ 22 +
    (day + 5) % 7 * 2 ^ 19 + t % 32768

/-! ### Reserve cell -/

def rsvMagic : Nat := 0x31565352

/-- One stress copy as stored (R462). -/
def Stress.bytes (x : Stress) : List Byte :=
  let b := leBytes 4 x.seq ++ leBytes 4 x.hours ++ leBytes 4 x.tests ++ leBytes 4 x.cap ++ leBytes 4 x.esr ++
    leBytes 4 x.at_ ++ leBytes 4 0
  b ++ leBytes 4 (crc32c b)

/-- A stress copy as read. -/
def readStress (m : List Byte) (off : Nat) : Stress :=
  { seq := leAt m off 4, hours := leAt m (off + 4) 4, tests := leAt m (off + 8) 4, cap := leAt m (off + 12) 4,
    esr := leAt m (off + 16) 4, at_ := leAt m (off + 20) 4,
    ok := decide (leAt m (off + 28) 4 = crc32c (slice m off 28)) }

/-- Copy A is the one the device uses (R462). -/
def Rsv.useA (r : Rsv) : Bool := r.a.ok && (!r.b.ok || decide (r.a.seq = r.b.seq) || seqNewer r.a.seq r.b.seq)

/-- The copy in use, empty where both are invalid (R462). -/
def Rsv.best (r : Rsv) : Stress :=
  if r.useA then r.a else if r.b.ok then r.b
  else { seq := 0, hours := 0, tests := 0, cap := 0, esr := 0, at_ := 0, ok := false }

def Rsv.capRated (r : Rsv) : Nat := leAt r.ident 20 4
def Rsv.esrRated (r : Rsv) : Nat := leAt r.ident 24 4
def Rsv.lifeRated (r : Rsv) : Nat := leAt r.ident 28 4
def Rsv.vRated (r : Rsv) : Nat := leAt r.ident 32 2
def Rsv.tRef (r : Rsv) : Nat := leAt r.ident 34 2

/-- The identity memory is read; the stress copies are taken up where the read follows a BK start or a REREAD
(R461, R462). -/
def State.rsvReadId (s : State) (adopt : Bool) : State :=
  let m := s.rsv.memory
  if m.length = 128 then
    let idBad := !(decide (leAt m 0 4 = rsvMagic) && decide (leAt m 4 2 = 1) && decide (leAt m 60 4 = crc32c (m.take 60)))
    s.setRsv fun r =>
      let r := { r with ident := m, present := true, idBad := idBad }
      if adopt then
        let r := { r with a := readStress m 64, b := readStress m 96 }
        { r with stress := r.best.hours * 2 ^ 32, stressBad := !r.a.ok && !r.b.ok }
      else r
  else (s.setRsv fun r => { r with present := false }).raise 0x2C 0 0 0 0 0

/-- The stress copy that is not in use is written, with the next SEQ (R462). -/
def Rsv.saveStress (r : Rsv) (x : Stress) : Rsv :=
  let y := { x with seq := (r.best.seq + 1) % 2 ^ 32, ok := true }
  if r.useA then { r with b := y, memory := patch r.memory 96 y.bytes }
  else { r with a := y, memory := patch r.memory 64 y.bytes }

/-- The largest m below 2^n with m ^ 100 · 60 ^ 100 ≤ lim. -/
def root100 : Nat → Nat → Nat → Nat
  | 0, acc, _ => acc
  | n + 1, acc, lim => root100 n (if (60 * (acc + 2 ^ n)) ^ 100 ≤ lim then acc + 2 ^ n else acc) lim

/-- What a minute adds to the stress accumulator, in units of 2^-32 equivalent hours, rounded down (R462):
(1/60) × 2^(k/100), with k hundredths. -/
def stressRate (k : Int) : Nat :=
  let q := k / 100
  let b := root100 96 0 (2 ^ (9600 + (k % 100).toNat))
  if 64 ≤ q then b else if q ≤ -64 then 0 else b * 2 ^ (q + 64).toNat / 2 ^ 128

/-- The exponent of R462 in hundredths. -/
def Rsv.stressExp (r : Rsv) (tempC volt : Int) : Int := 10 * (tempC - toS 16 r.tRef) + (volt - (r.vRated : Int))

/-- RSV.STRESS (R467). -/
def Rsv.hours (r : Rsv) : Nat := Nat.min (2 ^ 32 - 1) (r.stress / 2 ^ 32)

/-- A criterion of end of life is already reached (R464). -/
def Rsv.atEnd (r : Rsv) : Bool :=
  decide (r.lifeRated ≤ r.hours) ||
    (decide (2 ≤ r.history.length) && (match r.history.getLast? with
      | some (_, c, e) => decide (10 * c ≤ 7 * r.capRated) || decide (2 * r.esrRated ≤ e)
      | none => false))

/-- Days until STRESS_H reaches LIFE_RATED at the mean rate of the last 30 days (R464); none without a rate. -/
def Rsv.stressDays (r : Rsv) : Nat :=
  match r.daily.head?, r.daily.getLast? with
  | some x, some y =>
    if x < y then (r.lifeRated * 2 ^ 32 - r.stress) * (r.daily.length - 1) / (y - x) else 0xFFFFFFFF
  | _, _ => 0xFFFFFFFF

/-- Sum of a measure over a list. -/
def sumOf {α : Type} (f : α → Int) (l : List α) : Int := l.foldl (fun a x => a + f x) 0

/-- Whole days until the least-squares line through the points (seconds from now, value) reaches a level upward: the line is
(a·t + b) / d; 0 where it is there already, no prediction where it does not rise (R464).
(DEDUCED, unsafe: log 62.) -/
def riseDays (pts : List (Int × Int)) (level : Int) : Nat :=
  let n : Int := pts.length
  let st := sumOf (fun p => p.1) pts
  let sv := sumOf (fun p => p.2) pts
  let stt := sumOf (fun p => p.1 * p.1) pts
  let stv := sumOf (fun p => p.1 * p.2) pts
  let d := n * stt - st * st
  let a := n * stv - st * sv
  let b := stt * sv - st * stv
  if d ≤ 0 ∨ a ≤ 0 then 0xFFFFFFFF else (level * d - b).toNat / a.toNat / 86400

/-- Days until C falls to 70 % of CAP_RATED or ESR rises to twice ESR_RATED by the lines through the last tests, in tenths of
their units; a fall is a rise of the negated values (R464).
(DEDUCED, unsafe: log 62.) -/
def Rsv.testDays (r : Rsv) (now : Nat) : Nat :=
  let pts (v : Nat × Nat → Int) : List (Int × Int) := r.history.map fun h => ((h.1 : Int) - now, v h.2)
  Nat.min (riseDays (pts fun x => -10 * x.1) (-7 * r.capRated)) (riseDays (pts fun x => 10 * x.2) (20 * r.esrRated))

/-- RSV.EOL_DAYS at a count of seconds (R464, R467).
(DEDUCED, unsafe: log 62.) -/
def Rsv.eolDays (r : Rsv) (now : Nat) : Nat :=
  if !r.present || r.idBad then 0xFFFFFFFF
  else if r.atEnd then 0
  else
    let e := if 2 ≤ r.history.length then r.testDays now else 0xFFFFFFFF
    Nat.min 0xFFFFFFFF (Nat.min r.stressDays e)

/-- RSV.EOL_DAYS now (R467). -/
def State.eolDays (s : State) : Nat := s.rsv.eolDays (s.cal.count / 32768)

/-- EOL is set when a criterion is reached, with one record (R464). -/
def State.rsvEol (s : State) : State :=
  if s.rsv.present && !s.rsv.idBad && s.rsv.atEnd && !s.rsv.eol then
    (s.setRsv fun r => { r with eol := true }).raise 0x2D 0 0 0 s.eolDays 0
  else s

/-- RSV.STATE (R468). -/
def Rsv.state (r : Rsv) : Nat :=
  256 * r.last + 16 * b2n r.testing + 8 * b2n r.eol + 4 * b2n r.stressBad + 2 * b2n r.idBad + b2n r.present

/-- A test starts: the identity memory is read, and the cell is disconnected (R461, R463). -/
def State.rsvTestStart (s : State) : State :=
  ((s.rsvReadId false).setRsv fun r => { r with testing := true }).incOb K.RSV_TESTS

/-- Check of RSV.CMD in the order of R41 (R463, R467). -/
def State.rsvCmdCheck (s : State) (v : Nat) : Nat :=
  if v = 1 ∧ (s.cal.onCell = true ∨ s.rsv.present = false) then stSTATE
  else if v = 1 ∧ s.rsv.testing = true then stBUSY
  else stOK

/-- Main backup power fails during a test: the test ends ABORTED, and the stress copy is written as after each test (R462, R463). -/
def State.rsvAbort (s : State) : State :=
  if s.rsv.testing then
    let secs := s.cal.count / 32768 % 2 ^ 32
    (s.setRsv fun r => { r with testing := false, last := 2 }.saveStress { r.best with
      hours := r.hours
      tests := (r.best.tests + 1) % 2 ^ 32
      at_ := secs }).incOb K.RSV_ABORTS
  else s

/-- The value lies within 10 %–300 % of its rating (R463). -/
def plausible (v rated : Nat) : Bool := decide (rated ≤ 10 * v) && decide (v ≤ 3 * rated)

/-- The end of a test with drops of dv1 and dv2 µV at I mA (R463). -/
def State.rsvTestDone (s : State) (dv1 dv2 : Nat) : State :=
  if s.rsv.testing = false then s else
  let i := bits (s.ob K.RSV_TEST_CFG) 15 0
  let esr := dv1 / i
  let cap := 990000 * i / dv2
  let secs := s.cal.count / 32768
  let ok := decide (dv2 ≠ 0) && plausible cap s.rsv.capRated && plausible esr s.rsv.esrRated
  let old := s.rsv.best
  let s := s.setRsv fun r => { r with testing := false, last := if ok then 1 else 3 }
  let s := s.when ok fun s =>
    ((s.setOb K.RSV_CAP cap).setOb K.RSV_ESR esr).setRsv fun r =>
      { r with history := keepLast 8 (r.history ++ [(secs, cap, esr)]) }
  let s := s.setRsv fun r => r.saveStress { old with
    hours := r.hours
    tests := (old.tests + 1) % 2 ^ 32
    cap := if ok then cap % 2 ^ 32 else old.cap
    esr := if ok then esr % 2 ^ 32 else old.esr
    at_ := secs % 2 ^ 32 }
  s.rsvEol

/-- The minute's stress is added (R462). -/
def State.stressMinute (s : State) (tempC volt : Int) : State :=
  let s := s.setOb K.RSV_VOLT (ofS 16 volt)
  if s.rsv.present then
    (s.setRsv fun r => { r with stress := Nat.min (2 ^ 64 - 1) (r.stress + stressRate (r.stressExp tempC volt)) }).rsvEol
  else s

/-- The daily save of the stress accumulator (R462). -/
def State.stressDaily (s : State) : State :=
  if s.rsv.present then
    s.setRsv fun r =>
      let r := { r with daily := keepLast 31 (r.daily ++ [r.stress]) }
      r.saveStress { r.best with hours := r.hours }
  else s

/-- Objects of CAL and RSV at their defaults, the converter of every session among them (R453). -/
def State.bkObjects (s : State) : State :=
  let s := { s with
    objs := s.objs.filter fun e => decide (e.1 / 65536 ≠ 0x3D) && decide (e.1 / 65536 ≠ 0x3E) }
  s.each (s.sess.map fun e => e.1) fun s n =>
    s.setSes n { s.ses n with convDate := Ses.init.convDate, convTicks := Ses.init.convTicks }

/-- BK starts from no power, with this identity memory at the cell: an empty one does not answer (R453, R461). -/
def State.bkStart (s : State) (ident : List Byte) : State :=
  let s := s.bkObjects
  let s := { s with
    cal := State.reset.cal
    rsv := { State.reset.rsv with memory := ident } }
  s.rsvReadId true

end Sys2Proof.Machine
end

