-- ==== Sys2Proof/Machine/FioOps.lean ====
section
/-! DEFINITION. Breakwater: couplers and configuration over C0 (R364–R367), inputs and the input line (R369–R371),
outputs, their states, protection and diagnostics (R373–R381, R385). -/

namespace Sys2Proof.Machine

def State.setFio (s : State) (f : Fio → Fio) : State := { s with fio := f s.fio }

/-! ### Configuration items: 0 CFG, 1 SILENCE, 2 PARALLEL, 3 DIAG_SETTLE, 4 OVL_TIME, 16–31 OUT_CH; CLEAR_OVL goes as item 5 -/

def fioItems : List Nat := List.range 5 ++ (List.range 16).map fun n => 16 + n

/-- The object of a configuration item. -/
def fioItemKey (i : Nat) : Nat :=
  match i with
  | 0 => K.FIO_CFG
  | 1 => K.FIO_SILENCE
  | 2 => K.FIO_PARALLEL
  | 3 => K.FIO_DIAG_SETTLE
  | 4 => K.FIO_OVL_TIME
  | _ => K.FIO_OUT_CH (i - 15)

/-- The field side's copy of an item, none where it holds no configuration. -/
def State.fieldItem (s : State) (i : Nat) : Option Nat :=
  match mget (fun _ => 0) s.fio.fieldCfg i with
  | 0 => none
  | v + 1 => some v

def State.fieldVal (s : State) (i : Nat) : Nat := (s.fieldItem i).getD 0

/-- The field side has acknowledged every item (R367). -/
def State.fieldReady (s : State) : Bool := s.fio.cfgPend.isEmpty && fioItems.all fun i => (s.fieldItem i).isSome

/-- A write of a configured object sends its item over C0. -/
def State.fioSend (s : State) (i : Nat) : State :=
  if s.fio.rep.fstate = 3 ∨ s.fio.cfgPend.contains i then s
  else s.setFio fun f => { f with cfgPend := f.cfgPend ++ [i] }

/-! ### Joined channels (R378, R384) -/

/-- The lowest channel of the set that channel n is joined in. -/
def fioLead (par n : Nat) : Nat :=
  if bit par (8 + n / 4) then n / 4 * 4 else if bit par (n / 2) then n / 2 * 2 else n

def fioSet (par n : Nat) : List Nat := (List.range 16).filter fun m => fioLead par m = fioLead par n

def fioMask (par n : Nat) : Nat := maskOf (fioSet par n)

/-- A QUAD bit beside a PAIR bit of its channels is reserved (R378). -/
def parallelReserved (v : Nat) : Bool := (List.range 4).any fun m => bit v (8 + m) && decide (bits v (2 * m + 1) (2 * m) ≠ 0)

/-- Every set of joined channels has one safe state (R378). -/
def safeEqual (par : Nat) (safe : Nat → Nat) : Bool :=
  (List.range 16).all fun n => decide (safe n = safe (fioLead par n))

def State.outSafe (s : State) (n : Nat) : Nat := bits (s.ob (K.FIO_OUT_CH (n + 1))) 3 2

/-- A write of FIO.PARALLEL (R378, R384). -/
def State.parallelCheck (s : State) (v : Nat) : Nat :=
  if parallelReserved v then stRESERVED else if safeEqual v s.outSafe then stOK else stRANGE

/-- A write of FIO.OUT_CH of channel n (R378, R382). -/
def State.outChCheck (s : State) (n v : Nat) : Nat :=
  if bits v 3 2 = 3 then stRESERVED
  else if safeEqual (s.ob K.FIO_PARALLEL) (fun m => if m = n then bits v 3 2 else s.outSafe m) then stOK else stRANGE

/-! ### Outputs -/

/-- Channels whose supply group is present (R366). -/
def State.supplied (s : State) : Nat := 0xFF * b2n s.fio.la + 0xFF00 * b2n s.fio.lb

/-- The levels the field side applies: commanded, supplied and not switched off (R366, R377). -/
def State.fioApplied (s : State) : Nat :=
  maskOf ((List.range 16).filter fun n =>
    bit s.fio.cmd n && bit s.supplied n && !bit s.fio.off n && !bit s.fio.thermal n)

/-- The field side commands new levels; diagnostics of the channels that change are suppressed for FIO.DIAG_SETTLE (R381). -/
def State.fioCommand (s : State) (v : Nat) : State :=
  let ch := maskOf ((List.range 16).filter fun n => bit v n != bit s.fio.cmd n)
  s.setFio fun f => { f with
    cmd := v
    settle := ((List.range 16).filter (bit ch)).foldl (fun m n => mput (fun _ => 0) m n (s.ntm.mono + s.fieldVal 3 * 1000)) f.settle
    wb := maskOf ((List.range 16).filter fun n => bit f.wb n && !bit ch n)
    ext := maskOf ((List.range 16).filter fun n => bit f.ext n && !bit ch n) }

/-- Couplers as the field side latches them: the lowest channel commands its set (R378). -/
def State.latchOut (s : State) : Nat :=
  maskOf ((List.range 16).filter fun n => bit s.fio.couplers (fioLead (s.fieldVal 2) n))

/-- OVL_RETRY of the field side's configuration. -/
def State.ovlRetries (s : State) : Bool := bit (s.fieldVal 0) 0

/-- Switched-off channels at a refresh that latches v: with OVL_RETRY = 0 a command that went to 0 and back to 1 releases them
(R377). -/
def State.refreshOff (s : State) (v : Nat) : State :=
  if s.ovlRetries then s else
  let back := maskOf ((List.range 16).filter fun n => bit s.fio.off n && bit s.fio.offSeen0 n && bit v n)
  let drop := fun (m : Nat) => maskOf ((List.range 16).filter fun n => bit m n && !bit back n)
  s.setFio fun f => { f with
    off := drop f.off
    offSeen0 := drop (f.offSeen0 ||| maskOf ((List.range 16).filter fun n => bit f.off n && !bit v n)) }

/-- The field side receives REFRESH (R373, R377). -/
def State.fieldRefresh (s : State) : State :=
  let s := s.setFio fun f => { f with c0 := f.c0.drop 1, refAt := s.ntm.mono }
  let go := fun (s : State) =>
    let v := s.latchOut
    ((s.refreshOff v).fioCommand v).setFio fun f => { f with fstate := 1, recovered := false }
  match s.fio.fstate with
  | 0 => if s.fieldReady then go s else s
  | 1 => go s
  | 2 => if s.fio.recovered || bit (s.fieldVal 0) 1 then go s else s
  | _ => s

/-- The field side receives PARK: from RUN to PARKED, every output off; SAFE is not left by it (R373). -/
def State.fieldPark (s : State) : State :=
  let s := s.setFio fun f => { f with c0 := f.c0.drop 1 }
  if s.fio.fstate = 3 ∨ s.fio.fstate = 2 then s
  else (s.fioCommand 0).setFio fun f => { f with fstate := 0, recovered := false }

/-- The field side receives RECOVER (R375). -/
def State.fieldRecover (s : State) : State :=
  let s := s.setFio fun f => { f with c0 := f.c0.drop 1 }
  if s.fio.fstate = 2 then s.setFio fun f => { f with recovered := true } else s

/-- FIO.STATE (R383): the field side as the latest C1 report shows it. -/
def State.fioState (s : State) : Nat :=
  4096 * b2n s.fio.overlap + 2048 * b2n (!s.fio.cfgPend.isEmpty) + 1024 * b2n s.fio.rep.lb + 512 * b2n s.fio.rep.la +
    256 * b2n (decide (s.fio.rep.fstate ≠ 3)) + 8 * b2n s.fio.holdPark + s.fio.rep.fstate

/-- The field side's state as a C1 report carries it (R364). -/
def State.fioReport (s : State) : FioRep :=
  { fstate := s.fio.fstate, la := s.fio.la, lb := s.fio.lb, off := s.fio.off, thermal := s.fio.thermal, applied := s.fioApplied }

/-- The logic side learns of the field side: changes of a group bit, entries into SAFE and switch-offs are counted and recorded
(R364, R366, R373, R377). -/
def State.takeReport (s : State) : State :=
  let was := s.fio
  let now := s.fioReport
  let s := s.setFio fun f => { f with rep := now, safeDue := 0, ovlDue := [] }
  let s := s.when (was.rep.la != now.la) fun s => s.raiseSt 0x25 0 now.la (b2n now.la)
  let s := s.when (was.rep.lb != now.lb) fun s => s.raiseSt 0x25 1 now.lb (b2n now.lb)
  let s := s.each (List.range was.safeDue) fun s _ => (s.incOb K.FIO_SAFE_ENTRIES).raise 0x24 0 0 0 s.fioState 0
  s.each was.ovlDue fun s e => (s.incOb (K.FIO_OVL_COUNT (e.1 + 1))).raise 0x21 e.1 e.1 0 e.2 0

/-- Silence of FIO.SILENCE since the last REFRESH: SAFE, each channel in its safe state; the entry is due to be reported (R373). -/
def State.fieldSafe (s : State) : State :=
  let ap := s.fioApplied
  let v := maskOf ((List.range 16).filter fun n =>
    match bits (s.fieldVal (16 + n)) 3 2 with
    | 0 => false
    | 1 => true
    | _ => bit ap n)
  (s.fioCommand v).setFio fun f => { f with fstate := 2, recovered := false, safeDue := f.safeDue + 1 }

/-- The logic side sends PARK and clears the output couplers (R375). -/
def State.sendPark (s : State) : State :=
  if s.bwFitted && s.domOn dFL then s.setFio fun f => { f with c0 := f.c0 ++ [2], couplers := 0 } else s

/-- PARK commanded: held until RECOVER (R375, R490). -/
def State.fioPark (s : State) : State :=
  if s.bwFitted && s.domOn dFL then (s.sendPark).setFio fun f => { f with holdPark := true } else s

/-- RECOVER accepted (R375). -/
def State.fioRecover (s : State) : State :=
  s.setFio fun f => { f with holdPark := false, c0 := if f.rep.fstate = 2 then f.c0 ++ [3] else f.c0 }

/-- CLEAR_OVL crosses C0 as a configuration item (R364, R377).
(DESIGN CHOICE, unsafe: log 125.) -/
def State.fioClearOvl (s : State) : State := s.fioSend 5

/-- The refresh of the slack point, where a grant allows it (R374); none where channel 7's read of the output line halted (R410). -/
def State.fioRefresh (s : State) (grant : Bool) : State :=
  if s.bwFitted && s.domOn dFL && s.linkUp 7 && s.tideOn && grant && !s.fio.holdPark && !s.fio.outBad then
    s.setFio fun f => { f with couplers := f.out, c0 := f.c0 ++ [1] }
  else s

/-- The error that channel 7 meets as it carries the output line from memory byte k to the logic side (R410, R426). -/
def State.outLineErr (s : State) (k : Nat) : Option CopyErr :=
  let addr := 0x20080000 + s.ob K.FIO_OUT_AT % 0x80000
  if !s.linkUp 7 then some { code := 3, addr := addr, dies := 2 ^ 7, done := 0 }
  else (s.badAt k 64).map fun o => { code := 5, addr := addr + o, dies := 0, done := o }

/-- Channel 7 reads the output line of a cut from memory byte k on; a halt is a missed refresh (R374, R410).
(DEDUCED, unsafe: log 37.)
(DEDUCED, unsafe: log 85.)
(DESIGN CHOICE, unsafe: log 115.) -/
def State.outLineRead (s : State) (k : Nat) : State :=
  if s.bwFitted && s.domOn dFL then
    let src := 0x20080000 + s.ob K.FIO_OUT_AT % 0x80000
    let dst := Config.seqAddr (s.fresh + 1)
    match s.outLineErr k with
    | some e => (((s.seqBegin 7).seqStop 7 src dst 64 e).chanHalt 7 e).setFio fun f => { f with outBad := true }
    | none => (s.seqLine 7 src dst 64).setFio fun f => { f with out := s.rd k 2, outBad := false }
  else s

/-! ### Protection (R377) -/

/-- A channel's set is switched off, which is due to be reported: cause 1 limit, 2 thermal. -/
def State.ovlOff (s : State) (n cause : Nat) : State :=
  let m := fioMask (s.fieldVal 2) n
  let all := fun (v : Nat) (t : SMap Nat) => (fioSet (s.fieldVal 2) n).foldl (fun t k => mput (fun _ => 0) t k v) t
  s.setFio fun f => { f with
    off := f.off ||| m
    thermal := if cause = 2 then f.thermal ||| m else f.thermal
    offSeen0 := maskOf ((List.range 16).filter fun k => bit f.offSeen0 k && !bit m k)
    limitAt := all 0 f.limitAt
    offAt := all (if cause = 1 then s.ntm.mono + 1 else 0) f.offAt
    ovlDue := f.ovlDue ++ [(n, cause)] }

/-- Channel n's set switches on again (R377). -/
def State.ovlBack (s : State) (n : Nat) : State :=
  let m := fioMask (s.fieldVal 2) n
  s.setFio fun f => { f with
    off := maskOf ((List.range 16).filter fun k => bit f.off k && !bit m k)
    offAt := (fioSet (s.fieldVal 2) n).foldl (fun t k => mput (fun _ => 0) t k 0) f.offAt }

/-! ### Diagnostics (R365, R380, R381) -/

/-- WB and EXT of an off channel at a voltage in mV (R380). -/
def offDiag (testOn : Bool) (mv : Nat) : Bool × Bool :=
  if 10000 ≤ mv then (false, true)
  else if 4000 ≤ mv then (if testOn then (true, false) else (false, true))
  else (false, false)

/-- The diagnostics of one channel are judged; quiet where the standby raises no EXT record (R381).
(DEDUCED, unsafe: log 55.) -/
def State.judge (s : State) (noTest quiet : Bool) (n : Nat) : State :=
  if s.ntm.mono < mget (fun _ => 0) s.fio.settle n then s
  else
    let on := bit s.fio.cmd n
    let (wb, ext) := if on then (false, false)
      else offDiag (bit (s.fieldVal (16 + n)) 1 && !noTest) (mget (fun _ => 0) s.fio.volt n)
    let wb0 := bit s.fio.wb n
    let ext0 := bit s.fio.ext n
    let s := s.setFio fun f => { f with wb := putBit f.wb n wb, ext := putBit f.ext n ext }
    let s := s.when (wb && !wb0) fun s => (s.incOb (K.FIO_WB_COUNT (n + 1))).raise 0x22 n n 0 0 0
    s.when (ext && !ext0) fun s =>
      let s := s.incOb (K.FIO_EXT_COUNT (n + 1))
      if quiet then s else s.raise 0x23 n n 0 0 0

/-- One coupler compared at a C1 report: its count of consecutive mismatches, and COUPLER at the third (R365). -/
def State.couplerCheck (s : State) (out : Bool) (n : Nat) (bad : Bool) : State :=
  let m := if out then s.fio.misOut else s.fio.misIn
  let c := mget (fun _ => 0) m n
  let c' := if bad then Nat.min 3 (c + 1) else 0
  let m' := mput (fun _ => 0) m n c'
  let k := if out then 16 + n else n
  let s := s.setFio fun f => { f with
    misOut := if out then m' else f.misOut
    misIn := if out then f.misIn else m'
    coupler := putBit f.coupler k (decide (c' = 3)) }
  s.when (decide (c = 2) && bad) fun s => (s.incOb K.FIO_COUPLER_ERR).raise 0x20 k k 0 0 0

/-- The channels that a report gives in current limit, since when (R377): the field side's own count runs from its first report of
it on.
(DEDUCED, unsafe: log 126.) -/
def State.limitSince (s : State) (r : Sys2Proof.C1) : State :=
  s.setFio fun f => { f with
    limitAt := (List.range 16).foldl (fun m n => mput (fun _ => 0) m n
      (if !bit r.limit n then 0 else if mget (fun _ => 0) m n = 0 then s.ntm.mono + 1 else mget (fun _ => 0) m n)) f.limitAt }

/-- A report over C1 reaches the logic side (R364, R365, R367, R368, R381). -/
def State.c1 (s : State) (r : Sys2Proof.C1) (noTest quiet : Bool) : State :=
  let s := s.when s.fio.upNew fun s => s.setFio fun f => { f with cfgPend := fioItems, upNew := false }
  let s := s.each (List.range 16) fun s n => s.couplerCheck false n (bit r.couplerIn n != bit r.rawIn n)
  let s := s.each (List.range 16) fun s n => s.couplerCheck true n (bit s.fio.couplers n != bit r.outSeen n)
  let s := s.setFio fun f => { f with
    raw := r.couplerIn % 65536
    rawAt := s.us
    limit := r.limit % 65536
    volt := (List.range 16).foldl (fun m n => mput (fun _ => 0) m n (r.volt.getD n 0)) [] }
  s.takeReport.each (List.range 16) (State.judge · noTest quiet)

/-- RB of each output: at least 10 V (R380). -/
def State.fioRb (s : State) : Nat := maskOf ((List.range 16).filter fun n => decide (10000 ≤ mget (fun _ => 0) s.fio.volt n))

/-- OVL of each output as the latest report gives it (R371). -/
def State.fioOvl (s : State) : Nat := s.fio.rep.off ||| s.fio.limit ||| s.fio.rep.thermal

/-- FIO.OUT_DIAG of a channel as it would be latched now (R385). -/
def State.outDiag (s : State) (n : Nat) : Nat :=
  128 * b2n (bit s.fio.coupler n || bit s.fio.coupler (16 + n)) + 64 * b2n (bit s.fio.rep.thermal n) +
    32 * b2n (bit s.fio.rep.off n) + 16 * b2n (bit s.fio.limit n) + 8 * b2n (bit s.fio.ext n) +
    4 * b2n (bit s.fio.wb n) + 2 * b2n (bit s.fioRb n) + b2n (bit s.fio.rep.applied n)

/-! ### Inputs -/

/-- The input line as latched now (R371). -/
def State.inputLine (s : State) : List Byte :=
  leBytes 2 s.fio.filt ++ leBytes 2 s.fio.rise ++ leBytes 2 s.fio.fall ++ leBytes 2 s.fioRb ++ leBytes 2 s.fio.wb ++
    leBytes 2 s.fio.ext ++ leBytes 2 s.fioOvl ++
    leBytes 2 (1024 * b2n s.fio.rep.lb + 512 * b2n s.fio.rep.la + 256 * b2n (decide (s.fio.rep.fstate ≠ 3)) + s.fio.rep.fstate) ++
    List.replicate 48 0

/-- The latch of an ebb point: the device's own line, and the diagnostics (R371, R385). -/
def State.latchLine (s : State) : State :=
  let l := s.inputLine
  let d := (List.range 16).foldl (fun m n => mput (fun _ => 0) m n (s.outDiag n)) ([] : SMap Nat)
  s.setFio fun f => { f with line := l, rise := 0, fall := 0, diag := d }

/-- A line written into the input assembly region at FIO.IN_AT, its input line pending (R179, R371). -/
def State.putLine (s : State) (b : List Byte) : State :=
  let at_ := s.ob K.FIO_IN_AT % 0x80000
  let s := s.putBytes (mAsm + at_) b
  s.setImg fun m => { m with pend := if m.pend.contains (at_ / 64) then m.pend else m.pend ++ [at_ / 64] }

/-- Records of FIO.EDGE_LOG (R370). -/
def edgeBytes (e : Nat × Nat × Bool) : List Byte :=
  leBytes 8 e.1 ++ leBytes 1 e.2.1 ++ leBytes 1 (if e.2.2 then 1 else 2) ++ leBytes 6 0

/-- An edge enters the log, or is dropped (R370). -/
def State.logEdge (s : State) (n : Nat) (rising : Bool) (stamp : Nat) : State :=
  let s := s.setOb (if rising then K.FIO_LAST_RISE (n + 1) else K.FIO_LAST_FALL (n + 1)) stamp
  if 128 ≤ s.fio.log.length then s.incOb K.FIO_EDGE_DROPS
  else s.setFio fun f => { f with log := f.log ++ [(stamp, n, rising)] }

/-- EDGE_SEL of an input selects an edge (R370, R382). -/
def State.edgeSel (s : State) (n : Nat) (rising : Bool) : Bool :=
  bit (s.ob (K.FIO_IN_CFG (n + 1))) (if rising then 16 else 17)

/-- FIO.IN_CFG (R369, R382). -/
def inCfgCheck (v : Nat) : Nat := let f := bits v 15 0; if 2 ≤ f ∧ f ≤ 16000 then stOK else stRANGE

/-! ### Field supply (R366, R367) -/

/-- The filter counts of the inputs begin anew with the next sample (R369). -/
def State.runsAnew (s : State) (l : List Nat) : State :=
  s.setFio fun f => { f with runFrom := l.foldl (fun m n => mput (fun _ => 0) m n (s.us + 1)) f.runFrom }

/-- A group's presence changes: 0 L+A, 1 L+B. With both absent every report stops, which the logic side reads as UNPOWERED, and
every input is 0; the power-up is reported over C1.
(DEDUCED, unsafe: log 55.) -/
def State.supplyChange (s : State) (grp : Nat) (present : Bool) : State :=
  let was := if grp = 0 then s.fio.la else s.fio.lb
  if was = present then s else
  let s := s.setFio fun f => if grp = 0 then { f with la := present } else { f with lb := present }
  if !s.fio.la && !s.fio.lb then
    let s := s.setFio fun f => { f with
      fstate := 3, fieldCfg := [], cfgPend := [], cmd := 0, recovered := false, limit := 0, thermal := 0, off := 0, offSeen0 := 0,
      settle := [], wb := 0, ext := 0, volt := [], raw := 0, filt := 0, c0 := [], limitAt := [], offAt := [], upNew := false,
      safeDue := 0, ovlDue := [] }
    s.when (s.domOn dFL) State.takeReport
  else if s.fio.fstate = 3 then
    (s.setFio fun f => { f with fstate := 0, cmd := 0, upNew := true }).runsAnew (List.range 16)
  else s

/-- The field side receives a configuration item and acknowledges it; a value written over since stays pending (R367). CLEAR_OVL
releases the channels latched off (R377).
(DEDUCED, unsafe: log 55.)
(DESIGN CHOICE, unsafe: log 125.) -/
def State.fieldConfig (s : State) (i v : Nat) : State :=
  if s.fio.fstate = 3 then s
  else if i = 5 then
    s.setFio fun f => { f with off := 0, offSeen0 := 0, offAt := [], cfgPend := f.cfgPend.filter fun j => decide (j ≠ 5) }
  else s.setFio fun f => { f with
    fieldCfg := mput (fun _ => 0) f.fieldCfg i (v + 1)
    cfgPend := if v = s.ob (fioItemKey i) then f.cfgPend.filter fun j => j ≠ i else f.cfgPend }

end Sys2Proof.Machine
end

