-- ==== Sys2Proof/Machine/RedBase.lean ====
section
/-! DEFINITION. What the rest of the package asks of the pair: its mode, the grant, the CLAIM level (R344), dictation
(R338, R339), and whether input agreement is complete (R337). -/

namespace Sys2Proof.Machine

def State.setRed (s : State) (f : Red → Red) : State := { s with red := f s.red }

/-- MODE of RED.CFG: 0 OFF, 1 PARTNER, 2 WITNESS (R362). -/
def State.redMode (s : State) : Nat := bits (s.ob K.RED_CFG) 11 10
def State.redId (s : State) : Nat := bits (s.ob K.RED_CFG) 9 9
/-- PREF: 0 none, 1 A, 2 B. -/
def State.redPref (s : State) : Nat := bits (s.ob K.RED_CFG) 8 7
def State.divPol (s : State) : Nat := bits (s.ob K.RED_CFG) 6 5
def State.freezeAlone (s : State) : Bool := bit (s.ob K.RED_CFG) 4
def State.bwWired (s : State) : Bool := bit (s.ob K.RED_CFG) 3
def State.autoResync (s : State) : Bool := bit (s.ob K.RED_CFG) 2

def Role.code : Role → Nat
  | .off => 0
  | .joining => 1
  | .unsynced => 2
  | .resync => 3
  | .standby => 4
  | .active => 5
  | .witness => 6

def PairSt.code : PairSt → Nat
  | .denied => 0
  | .valid => 1
  | .invalid => 2

/-- The grant that a launch or refresh needs; where redundancy is disabled it counts as held (R275, R346). -/
def State.grantHeld (s : State) : Bool := decide (s.redMode ≠ 1) || s.red.grant

/-- The partner takes part in a pair. -/
def State.inPair (s : State) : Bool :=
  decide (s.red.role ≠ .off) && decide (s.red.role ≠ .witness)

/-- The peer is present and reports STANDBY. -/
def State.peerStandby (s : State) : Bool := s.red.peer && decide (s.red.peerSt.role = 4)

/-- The level of CLAIM (R344); nothing is claimed while a mismatch bars the join (R331). -/
def State.claimLevel (s : State) : Bool :=
  !s.red.stop && ((s.red.grant && !s.red.giving) ||
    (decide (s.red.role = .standby) && (!s.red.peer || s.red.taking)) ||
    (decide (s.red.role = .joining) && !(s.red.peer && decide (s.red.peerSt.role = 5)) &&
      decide (s.red.reason ≠ 1) && decide (s.red.reason ≠ 2)))

/-- CLAIM and HB follow the state; HB stops with the clock of its island, which is the Headland's fabric clock (R344, R475).
(DEDUCED, unsafe: log 102.) -/
def State.reclaim (s : State) : State :=
  s.setRed fun r => { r with
    claim := s.claimLevel
    hb := s.inPair && s.domOn dRL && !r.stop && !bit s.pwr.fabricLost 0 }

/-- The mooring unit sends and takes messages: a partner of a pair, domain RL on, and no HB_STOP (R343, R490).
(DEDUCED, unsafe: log 50.) -/
def State.moored (s : State) : Bool := s.inPair && s.domOn dRL && !s.red.stop

/-- A message of classes 3 to 5 is sent (R333). -/
def State.moorSend (s : State) (m : MoorMsg) : State :=
  if s.moored then s.setRed fun r => { r with msgs := r.msgs ++ [m] } else s

/-- RED.STATE (R361). -/
def State.redState (s : State) : Nat :=
  s.red.reason * 2 ^ 24 + s.red.role.code * 2 ^ 16 + s.red.pair.code * 2 ^ 14 + 2 ^ 13 * b2n s.red.grant +
    2 ^ 12 * b2n (s.red.grant && s.red.frozen) + 2 ^ 11 * b2n s.red.fenced + 2 ^ 10 * b2n s.red.claim +
    2 ^ 9 * b2n s.red.peer + 2 ^ 8 * b2n (s.red.peer && s.red.peerSt.grant) + 2 ^ 7 * b2n (s.red.holdoff.isSome &&
        decide (s.red.role = .standby)) +
    2 ^ 6 * b2n s.red.swap.isSome

/-- The active partner dictates: its peer is STANDBY, RESYNC or UNSYNCED (R339), and it has not stopped for a
switchover (R357). -/
def State.dictates (s : State) : Bool :=
  decide (s.red.role = .active) && s.red.peer && decide (2 ≤ s.red.peerSt.role) && decide (s.red.peerSt.role ≤ 4) &&
    !s.red.giving && decide (s.red.mute ≠ some (s.ob K.TDS_TIDE)) && !s.red.stop

/-- A dictated input is sent (R338). -/
def State.dictate (s : State) (d : Sys2Proof.Dict) : State :=
  if s.dictates then s.setRed fun r => { r with sent := r.sent ++ [d] } else s

/-- An input of the standby's own is kept for 50 µs (R338).
(DEDUCED, unsafe: log 52.) -/
def State.keepOwn (s : State) (d : Sys2Proof.Dict) : State :=
  s.setRed fun r => { r with own := r.own ++ [{ at_ := s.ntm.mono, ev := d }] }

/-- Input agreement is complete, or none is waited for (R337). -/
def State.agreementDone (s : State) : Bool :=
  match s.red.role with
  | .active => !s.peerStandby || s.tds.agreed
  | .standby => decide (s.red.agreedSent = some (s.ob K.TDS_TIDE))
  | _ => true

/-- Writes that a pair applies at the next flood start: RW objects and commands of TDS, TSK, IMG and TMR (R340). -/
def replicatedKey (key : Nat) : Bool :=
  let hi := key / 65536
  decide (0x20 ≤ hi) && decide (hi ≤ 0x23)

/-- Retained blocks of a Strand's timer array, and the page of Bedrock that holds them (R214). -/
def State.retBlocks (s : State) (n : Nat) : Nat := bits (s.ob (K.TMR_CTL n)) 10 8
def State.retBase (s : State) (n : Nat) : Nat := bits (s.ob (K.TMR_CTL n)) 24 16

end Sys2Proof.Machine
end

