-- ==== Sys2Proof/Machine/NtmOps.lean ====
section
/-! DEFINITION. Network time requests (R302–R307), PTP queues (R310–R313) and gate control lists (R323–R327). -/

namespace Sys2Proof.Machine

/-! ### Steps and absolute setting -/

/-- |d| of a two's complement step. -/
def stepAbs (v : Nat) : Nat := (toS 64 v).natAbs

/-- A step within the jump limit is accepted (R305). -/
def State.offsetOk (s : State) (v : Nat) : Bool := decide (stepAbs v ≤ s.ob K.NTM_JUMP_LIMIT)

/-- What a refused step leaves (R305). -/
def State.offsetRefused (s : State) (v : Nat) : State :=
  ((s.incOb K.NTM_REFUSED).setOb K.NTM_LAST_REFUSED v).raise 0x09 0 0 0 (v % 2 ^ 32) (v / 2 ^ 32)

/-- NTM.SET: seconds in bytes 0–5, nanoseconds in bytes 6–9 (R303). -/
def ntmSetCheck (b : List Byte) : Nat := if leAt b 6 4 < 1000000000 then stOK else stRANGE

/-! ### Timestamps -/

/-- The timestamp of a frame that arrives at a port now: ingress latency subtracted (R310). -/
def State.ingressNs (s : State) (p : Nat) : Nat :=
  (s.clockNs + nsWrap - bits (s.ob (K.NTM_PORT_LAT (p + 1))) 15 0) % nsWrap

/-- The timestamp of a frame that leaves a port now: egress latency added (R310). -/
def State.egressNs (s : State) (p : Nat) : Nat := (s.clockNs + bits (s.ob (K.NTM_PORT_LAT (p + 1))) 31 16) % nsWrap

def State.stepgen (s : State) : Nat := s.ob K.NTM_STEPS % 256

/-- A receive record (R311). -/
def PtpRec.bytes (r : PtpRec) : List Byte :=
  leBytes 1 r.port ++ leBytes 1 r.stepgen ++ leBytes 2 r.len ++ leBytes 4 0 ++ leBytes 8 r.sec ++ leBytes 4 r.nsec ++
    leBytes 4 0 ++ r.frame

/-- A transmit timestamp record (R313). -/
def Stamp.bytes (r : Stamp) : List Byte :=
  leBytes 2 r.tag ++ leBytes 1 r.stepgen ++ leBytes 1 r.port ++ leBytes 8 r.sec ++ leBytes 4 r.nsec

/-- Where the PTP message begins in a frame: after the EtherType of a tagged or untagged frame. -/
def ptpAt (f : List Byte) : Nat := if beAt f 12 2 = 0x8100 then 18 else 14

def ptpType (f : List Byte) : Nat := leAt f (ptpAt f) 1 % 16

/-- A received PTP frame enters the queue with its timestamp, or is dropped (R311, R318). -/
def State.ptpQueue (s : State) (p len : Nat) (f : List Byte) : State :=
  let s := s.when (decide (ptpType f = 0)) fun s => s.setOb (K.NTM_LAST_SYNC (p + 1)) s.us
  if 64 ≤ s.ntm.rx.length then s.incOb K.NTM_PTP_DROPS
  else
    let t := s.ingressNs p
    s.setNtm fun n => { n with rx := n.rx ++ [{
      port := p
      stepgen := s.stepgen
      len := len
      sec := t / 1000000000
      nsec := t % 1000000000
      frame := f.take 512 }] }

/-- An egress timestamp enters its queue, or is dropped (R313). -/
def State.stampQueue (s : State) (p tag t : Nat) : State :=
  if 16 ≤ s.ntm.stamps.length then s.incOb K.NTM_PTP_DROPS
  else s.setNtm fun n => { n with stamps := n.stamps ++ [{
    tag := tag
    stepgen := s.stepgen
    port := p
    sec := t / 1000000000
    nsec := t % 1000000000 }] }

/-- correctionField, bytes 8–15 of the message, raised by d ns in units of 2^-16 ns (R314, R315). -/
def addCorrection (f : List Byte) (d : Int) : List Byte :=
  let a := ptpAt f + 8
  patch f a (beBytes 8 (ofS 64 ((beAt f a 8 : Int) + d * 65536)))

/-- NTM.CLOCK_ID: HNW.MAC with 0xFF 0xFE after its third byte (R328). -/
def State.clockId (s : State) : Nat :=
  let m := s.ob K.HNW_MAC
  bits m 47 24 * 2 ^ 40 + 0xFFFE * 2 ^ 24 + bits m 23 0

/-- A PTP frame, by its EtherType (R263). -/
def isPtp (f : List Byte) : Bool := decide (beAt f (ptpAt f - 2) 2 = 0x88F7)

/-- An Announce that names the device as grandmaster outside the field domain (R309). -/
def State.gmBlocked (s : State) (f : List Byte) : Bool :=
  let a := ptpAt f
  isPtp f && decide (ptpType f = 11) && decide (beAt f (a + 53) 8 = s.clockId) &&
    decide (leAt f (a + 4) 1 ≠ s.ob K.NTM_FIELD_DOMAIN)

/-! ### Gates -/

/-- Instant of the next entry boundary or cycle start after now. -/
def State.nextBoundary (s : State) (p : Nat) : Nat :=
  let g := s.gate p
  let ph := g.phase s.ns
  match g.parts.find? fun e => decide (ph < e.2.1) with
  | some e => s.ns + (e.2.1 - ph)
  | none => s.ns + (g.cycle - ph)

/-- The first cycle start of a schedule at or after an instant (R326). -/
def cycleStart (base cycle t : Nat) : Nat :=
  if cycle = 0 then t
  else ((t : Int) + (((base : Int) - (t : Int)) % (cycle : Int))).toNat

/-- Status of a write of NTM.GCL_CFG in the order of R41: LENGTH 0 with ACT, LENGTH beyond 256, PENDING (R326, R330). -/
def State.gclCfgCheck (s : State) (p v : Nat) : Nat :=
  let len := bits v 24 16
  if 256 < len ∨ (bit v 1 = true ∧ len = 0) then stRANGE
  else if bit v 1 ∧ (s.gate p).pending = true then stBUSY
  else stOK

/-- An accepted write of NTM.GCL_CFG (R326, R330). -/
def State.gclCfgApply (s : State) (p v : Nat) : State :=
  let s := s.setOb (K.NTM_GCL_CFG (p + 1)) (v % 2 + 2 ^ 16 * bits v 24 16)
  let s := if bit v 1 then
      s.setGate p { s.gate p with
        pending := true
        swapAt := cycleStart (s.ob (K.NTM_GCL_BASE (p + 1))) (s.ob (K.NTM_GCL_CYCLE (p + 1))) s.ns }
    else s
  s.gateNow p

/-- NTM.GCL_CFG as it reads: PENDING beside what was written (R330). -/
def State.gclCfg (s : State) (p : Nat) : Nat := s.ob (K.NTM_GCL_CFG (p + 1)) + 4 * b2n (s.gate p).pending

/-- The admin list, BASE and CYCLE replace the operating ones (R326). -/
def State.gclSwap (s : State) (p : Nat) : State :=
  s.setGate p (s.gateNext p)

/-- A list entry or cycle boundary is reached (R324, R326). -/
def State.gateChange (s : State) (p : Nat) : State :=
  let g := s.gate p
  if !s.gated p && !g.pending then s
  else
    let nb := s.nextBoundary p
    let t := if g.pending then (if s.gated p then Nat.min nb g.swapAt else g.swapAt) else nb
    let s := s.reach t
    let s := s.when (g.pending && decide (g.swapAt ≤ s.ns)) fun s => s.gclSwap p
    let e := if s.gated p then (s.gate p).at s.ns else (true, true)
    s.setGate p { s.gate p with g2 := e.1, g3 := e.2 }

/-- An accepted step waits for the next tick, unless it is 0 (R305, R306). -/
def State.offsetApply (s : State) (v : Nat) : State :=
  if toS 64 v = 0 then s else s.setNtm fun n => { n with steps := n.steps ++ [v % 2 ^ 64] }

/-- The clock and the microsecond count are loaded (R303, R207).
(DEDUCED, unsafe: log 49.) -/
def State.ntmSetApply (s : State) (b : List Byte) : State :=
  let sec := leAt b 0 6
  let nsec := leAt b 6 4
  (s.setNtm fun t => { t with
    sec := sec
    nsec := nsec
    frac := 0
    usec := sec * 1000000 + nsec / 1000
    steps := [] }).gatesNow.duesAnew

end Sys2Proof.Machine
end

