-- ==== Sys2Proof/Machine/HnwOps.lean ====
section
/-! DEFINITION. The field network: ports and the station table (R262–R266, R280–R284, R300), trains and their frames
(R267–R275), launches (R320–R322, R325), returned frames (R276, R277, R295–R298), and service routing (R286–R290). -/

namespace Sys2Proof.Machine

def State.setHnw (s : State) (f : Hnw → Hnw) : State := { s with hnw := f s.hnw }

/-! ### Ports (R262, R265, R300) -/

def State.portMode (s : State) (p : Nat) : Nat := bits (s.ob (K.HNW_PORT_CFG (p + 1))) 4 3

/-- Port p is the second port of a ring. -/
def State.ringSecond (s : State) (p : Nat) : Bool :=
  decide (p < 16) && decide (p % 2 = 1) && decide (bits (s.ob (K.HNW_PORT_CFG p)) 2 1 = 2)

/-- TOPO as it reads: 0 none, 1 line, 2 ring on 2k and 2k+1, 3 second port of a ring. -/
def State.topo (s : State) (p : Nat) : Nat := if s.ringSecond p then 3 else bits (s.ob (K.HNW_PORT_CFG (p + 1))) 2 1

/-- HNW.PORT_CFG as it reads (R300). -/
def State.portCfg (s : State) (p : Nat) : Nat :=
  if s.ringSecond p then s.ob (K.HNW_PORT_CFG p) / 8 * 8 + 6 + s.ob (K.HNW_PORT_CFG p) % 2
  else s.ob (K.HNW_PORT_CFG (p + 1))

/-- Status of a write of HNW.PORT_CFG (R300). -/
def State.portCfgCheck (s : State) (p v : Nat) : Nat :=
  if s.ringSecond p then stSTATE
  else if bits v 4 3 = 3 ∨ (16 ≤ p ∧ bits v 4 3 = 2) ∨ bits v 2 1 = 3 ∨ (bits v 2 1 = 2 ∧ (p % 2 = 1 ∨ 16 ≤ p)) then
    stRESERVED
  else stOK

def State.isRing (s : State) (p : Nat) : Bool := decide (p < 16) && decide (s.topo p = 2)

/-- Line ports and ports 2k of rings. -/
def State.trunks (s : State) : List Nat := (List.range 16).filter fun p => decide (s.topo p = 1) || decide (s.topo p = 2)

/-- The line port or port 2k that a port belongs to. -/
def State.trunkOf (s : State) (p : Nat) : Nat := if s.ringSecond p then p - 1 else p

/-- The ports a train on this trunk leaves by, with DIR of each. -/
def State.trunkPorts (s : State) (p : Nat) : List (Nat × Bool) :=
  if s.isRing p then [(p, false), (p + 1, true)] else [(p, false)]

/-- Time that n bytes on the wire last at a port's rate, in ns (R262). -/
def State.wireNs (s : State) (p n : Nat) : Nat := if s.portMode (s.trunkOf p) = 2 then (n * 16 + 4) / 5 else n * 8

/-! ### Station table (R280–R284) -/

def stEn (v : Nat) : Bool := bit v 31
def stPort (v : Nat) : Nat := bits v 27 24
def stPos (v : Nat) : Nat := bits v 21 12
def segLen (v : Nat) : Nat := bits v 30 20
def segOff (v : Nat) : Nat := bits v 18 0

def State.staEn (s : State) (n : Nat) : Bool := stEn (s.ob (K.HST_CFG n))
def State.staPort (s : State) (n : Nat) : Nat := stPort (s.ob (K.HST_CFG n))
def State.staPos (s : State) (n : Nat) : Nat := stPos (s.ob (K.HST_CFG n))
def State.inLen (s : State) (n : Nat) : Nat := segLen (s.ob (K.HST_IN n))
def State.inOff (s : State) (n : Nat) : Nat := segOff (s.ob (K.HST_IN n))
def State.outLen (s : State) (n : Nat) : Nat := segLen (s.ob (K.HST_OUT n))
def State.outOff (s : State) (n : Nat) : Nat := segOff (s.ob (K.HST_OUT n))

/-- Enabled stations, by number. -/
def State.enabled (s : State) : List Nat :=
  s.objs.filterMap fun e =>
    if 0x40 ≤ e.1 / 65536 ∧ e.1 / 65536 < 0x50 ∧ e.1 % 256 = 1 ∧ stEn e.2 = true then some (e.1 / 256 - 0x4000) else none

/-- A list ordered by a key, in the order of equal keys. -/
def insertBy (f : Nat → Nat) (x : Nat) : List Nat → List Nat
  | [] => [x]
  | y :: t => if f x ≤ f y then x :: y :: t else y :: insertBy f x t

def sortBy (f : Nat → Nat) (l : List Nat) : List Nat := l.foldr (insertBy f) []

/-- Enabled stations of a trunk in ascending position. -/
def State.stasOf (s : State) (p : Nat) : List Nat := sortBy s.staPos (s.enabled.filter fun n => s.staPort n = p)

/-- The station at a position of a trunk. -/
def State.staAt (s : State) (p pos : Nat) : Option Nat :=
  s.enabled.find? fun n => decide (s.staPort n = p) && decide (s.staPos n = pos)

/-- HST.STATE.STATE (R283); a station out of the table reads ABSENT (R284). -/
def StaSt.code : StaSt → Nat
  | .absent => 0
  | .configuring => 1
  | .operational => 2
  | .lost => 3
  | .mismatch => 4
  | .returned => 5

def State.staState (s : State) (n : Nat) : Nat :=
  if s.staEn n then (s.stn n).status * 2 ^ 16 + (s.stn n).st.code else (s.stn n).status * 2 ^ 16

def State.modStn (s : State) (n : Nat) (f : Sta → Sta) : State := s.setStn n (f (s.stn n))

/-! ### Frames -/

/-- Bytes of a frame from destination address to FCS, with a payload of n bytes, padded to the Ethernet minimum (R263, R267). -/
def State.frameLen (s : State) (n : Nat) : Nat := Nat.max 64 (18 + n + 4 * b2n (bit (s.ob K.HNW_VLAN) 15))

/-- PCP and VID of the tag that every frame sent carries while TAG is 1 (R263). -/
def State.vtag (s : State) : Option Nat :=
  if bit (s.ob K.HNW_VLAN) 15 then some (s.ob K.HNW_VLAN % 2 ^ 15) else none

/-- The fields of a Huatur header, from its 24 bytes in network byte order (R268). -/
def hdrOf (b : List Byte) : Hdr :=
  let fl := beAt b 1 1
  { version := bits (beAt b 0 1) 7 4
    typ := bits (beAt b 0 1) 3 0
    grant := bit fl 7
    partner := bits fl 6 6
    dir := bits fl 5 5
    last := bit fl 4
    turned := bit fl 3
    tide := beAt b 4 4
    pair := beAt b 8 1
    index := beAt b 9 1
    seq := beAt b 10 2
    point := beAt b 12 8
    turn := beAt b 20 2
    count := beAt b 22 2 }

/-- The header of a received frame. -/
def rxHeader (fr : Rx) : Hdr := hdrOf fr.hdr

/-! The fields of a received service body, each in network byte order but DATA (R5, R287). -/

def rxTarget (fr : Rx) : Nat := beAt fr.svc 0 2
def rxSession (fr : Rx) : Nat := beAt fr.svc 2 1
def rxOp (fr : Rx) : Nat := beAt fr.svc 3 1
def rxTag (fr : Rx) : Nat := beAt fr.svc 4 2
def rxStatus (fr : Rx) : Nat := beAt fr.svc 6 1
def rxReason (fr : Rx) : Nat := beAt fr.svc 7 1
def rxIndex (fr : Rx) : Nat := beAt fr.svc 8 2
def rxSub (fr : Rx) : Nat := beAt fr.svc 10 1
def rxOffset (fr : Rx) : Nat := beAt fr.svc 12 4
def rxDlen (fr : Rx) : Nat := beAt fr.svc 16 2
def rxData (fr : Rx) : List Byte := slice fr.svc 20 (rxDlen fr)
/-- DATA of a READ or WRITE: the slot contents, little-endian. -/
def rxSlot (fr : Rx) : Nat := leAt fr.svc 20 8

/-- The 24 bytes of a frame's header over a body of n bytes (R268). -/
def TxF.header (f : TxF) (n : Nat) : List Byte :=
  beBytes 1 (16 + f.typ % 16) ++
    beBytes 1 (128 * b2n f.grant + 64 * (f.partner % 2) + 32 * b2n f.dir + 16 * b2n f.last + 8 * b2n f.turned) ++
    beBytes 2 n ++ beBytes 4 f.tide ++ beBytes 1 f.pair ++ beBytes 1 f.index ++ beBytes 2 f.seq ++ beBytes 8 f.point ++
    beBytes 2 (f.turn % 4096) ++ beBytes 2 f.count

/-- A segment as the controller sends it: SID and LEN in network byte order, STATUS and the reserved bytes 0, and the data
(R271). -/
def segBytes (e : Nat × List Byte) : List Byte := beBytes 2 (e.1 % 4096) ++ beBytes 2 e.2.length ++ beBytes 4 0 ++ e.2

/-- COUNT segments of a received body (R271). -/
def readSegs : Nat → List Byte → List Seg
  | 0, _ => []
  | n + 1, b =>
    let sid := beAt b 0 2
    let len := beAt b 2 2
    { station := sid % 4096
      done := bit sid 15
      err := bit sid 14
      evt := bit sid 13
      status := beAt b 4 2
      data := slice b 8 len } :: readSegs n (b.drop (8 + len))

/-- The sum of 16-bit words in network byte order. -/
def wordSum : List Byte → Nat
  | a :: b :: t => 256 * a.toNat + b.toNat + wordSum t
  | [a] => 256 * a.toNat
  | [] => 0

/-- The Internet checksum of a sum of words: the complement of their ones' complement sum. -/
def ipSum (n : Nat) : Nat :=
  let n := n % 65536 + n / 65536
  let n := n % 65536 + n / 65536
  0xFFFF - (n % 65536 + n / 65536) % 65536

/-- An IPv4 datagram of a protocol to an address (R291). Identification and TTL are free.
(DESIGN CHOICE, safe: log 98.) -/
def State.ipBytes (s : State) (proto dst : Nat) (b : List Byte) : List Byte :=
  let h := fun (sum : Nat) => [0x45, 0] ++ beBytes 2 (20 + b.length) ++ beBytes 2 (Config.ipIdent s.fresh) ++ [0, 0] ++
    beBytes 1 (Config.ipTtl s.fresh) ++ beBytes 1 proto ++ beBytes 2 sum ++ beBytes 4 (s.ob K.HNW_IP) ++ beBytes 4 dst
  h (ipSum (wordSum (h 0))) ++ b

/-- A UDP datagram to an address and port, its checksum filled in (R291). -/
def State.udpBytes (s : State) (to_ : Nat × Nat) (b : List Byte) : List Byte :=
  let h := fun (sum : Nat) => beBytes 2 (s.ob K.HNW_UDP_PORT) ++ beBytes 2 to_.2 ++ beBytes 2 (8 + b.length) ++ beBytes 2 sum
  let x := ipSum (wordSum (beBytes 4 (s.ob K.HNW_IP) ++ beBytes 4 to_.1 ++ beBytes 4 (0x110000 + 8 + b.length)) +
    wordSum (h 0) + wordSum b)
  s.ipBytes 17 to_.1 (h (if x = 0 then 0xFFFF else x) ++ b)

/-- Body of a Huatur frame: its segments, or the body it was given. -/
def TxF.content (f : TxF) : List Byte := if f.segs.isEmpty then f.body else f.segs.flatMap segBytes

/-- A frame has a Huatur header that the controller makes; one in transit goes on with the bytes that came. -/
def TxF.isHuatur (f : TxF) : Bool :=
  decide (f.kind = .ebb) || decide (f.kind = .slack) || decide (f.kind = .schedule) || decide (f.kind = .service)

/-- The Ethernet payload of a frame. -/
def State.payload (s : State) (f : TxF) : List Byte :=
  if f.isHuatur then
    (let b := f.header f.content.length ++ f.content
     match f.udp with
     | some u => s.udpBytes u b
     | none => b)
  else f.body

/-- A frame padded to the Ethernet minimum of 64 bytes, of which the FCS is 4 (R267). -/
def padMin (b : List Byte) : List Byte := b ++ List.replicate (60 - b.length) 0

/-- The bytes of a frame from the destination address on, without FCS (R263, R264, R267). A submitted PTP frame leaves with the
controller's source address and, while TAG is 1, with the tag of HNW.VLAN in place of its own; one in transit is what was
received, with the tag where it has none. -/
def State.wireBytes (s : State) (f : TxF) : List Byte :=
  let tagBytes := match f.vtag with
    | some v => beBytes 2 0x8100 ++ beBytes 2 v
    | none => []
  let n := if beAt f.body 12 2 = 0x8100 then 16 else 12
  let own := (f.body.take n).drop 12
  padMin <|
  if f.kind = .ptp then f.body.take 6 ++ beBytes 6 f.src ++ (if f.vtag.isSome then tagBytes else own) ++ f.body.drop n
  else if f.kind = .transit ∧ f.etype = 0x88F7 then f.body.take 12 ++ (if own.isEmpty then tagBytes else own) ++ f.body.drop n
  else beBytes 6 f.dst ++ beBytes 6 f.src ++ tagBytes ++ beBytes 2 (if f.udp.isSome then 0x0800 else f.etype) ++ s.payload f

/-- Segments packed into frames of at most 1,500 bytes of payload, in order (R274). -/
def packSegs : Nat → List Nat → List (Nat × Nat) → List (List Nat)
  | _, [], [] => []
  | _, cur, [] => [cur.reverse]
  | used, cur, (n, l) :: t =>
    if used + 8 + l ≤ 1476 ∨ cur = [] then packSegs (used + 8 + l) (n :: cur) t
    else cur.reverse :: packSegs (8 + l) [n] t

/-- Payload of a frame that carries these segments. -/
def payloadOf (len : Nat → Nat) (l : List Nat) : Nat := 24 + (l.map fun n => 8 + len n).foldl (· + ·) 0

/-- Wire bytes of a train, preamble and gap included (R280). -/
def State.trainBytes (s : State) (len : Nat → Nat) (l : List Nat) : Nat :=
  ((packSegs 0 [] (l.map fun n => (n, len n))).map fun f => s.frameLen (payloadOf len f) + 20).foldl (· + ·) 0

def State.ebbLen (s : State) (n : Nat) : Nat := Nat.max 4 (s.inLen n)

def State.slackStas (s : State) (p : Nat) : List Nat := (s.stasOf p).filter fun n => decide (0 < s.outLen n)

/-- HNW.TRAIN_LEN of a trunk: the larger of its trains (R280, R299). -/
def State.trainLen (s : State) (p : Nat) : Nat :=
  let p := s.trunkOf p
  Nat.max (s.trainBytes s.ebbLen (s.stasOf p)) (s.trainBytes s.outLen (s.slackStas p))

/-- The table's rules for HST.CFG, HST.IN and HST.OUT of a station (R280), with the write already in place. -/
def State.stationRules (s : State) (n : Nat) : Bool :=
  !s.staEn n || (
    (s.enabled.all fun m => decide (m = n) || !(decide (s.staPort m = s.staPort n) && decide (s.staPos m = s.staPos n))) &&
    (s.enabled.all fun m => decide (m = n) || !rangesMeet (s.inOff m) (s.inLen m) (s.inOff n) (s.inLen n) ||
      decide (s.inLen m = 0) || decide (s.inLen n = 0)) &&
    (s.enabled.all fun m => decide (m = n) || !rangesMeet (s.outOff m) (s.outLen m) (s.outOff n) (s.outLen n) ||
      decide (s.outLen m = 0) || decide (s.outLen n = 0)) &&
    decide (s.trainLen (s.staPort n) ≤ 32768))

/-- Status of a write of HST.CFG (R280, R281). -/
def State.hstCfgCheck (s : State) (n v : Nat) : Nat :=
  if (stEn v = true ∧ stPos v = 0) ∨ s.ringSecond (stPort v) = true then stRESERVED
  else if (s.setOb (K.HST_CFG n) v).stationRules n then stOK else stRANGE

/-- Status of a write of HST.IN or HST.OUT (R280, R282). -/
def State.hstSegCheck (s : State) (key n v : Nat) : Nat :=
  if segLen v % 4 ≠ 0 ∨ 1024 < segLen v ∨ segOff v % 4 ≠ 0 ∨ 0x80000 < segOff v + segLen v then stRANGE
  else if (s.setOb key v).stationRules n then stOK else stRANGE

/-- A segment of an enabled station, or the bitmap while VALID_EN is 1, meets 64 bytes at an offset of I (R382). -/
def State.inClash (s : State) (off : Nat) : Bool :=
  (s.enabled.any fun n => decide (0 < s.inLen n) && rangesMeet (s.inOff n) (s.inLen n) off 64) ||
    (bit (s.ob K.HNW_CFG) 1 && rangesMeet (s.ob K.HNW_VALID_AT) 512 off 64)

/-- A segment of an enabled station meets 64 bytes at an offset of Q (R382). -/
def State.outClash (s : State) (off : Nat) : Bool :=
  s.enabled.any fun n => decide (0 < s.outLen n) && rangesMeet (s.outOff n) (s.outLen n) off 64

/-- FIO.STATE.OVERLAP at a START (R382). -/
def State.fioOverlap (s : State) : State :=
  if s.bwFitted && s.domOn dFL then
    let o := s.inClash (s.ob K.FIO_IN_AT) || s.outClash (s.ob K.FIO_OUT_AT)
    let s := s.setFio fun f => { f with overlap := o }
    s.when o fun s => s.raise 0x26 0 0 0 0 0
  else s

/-! ### Queues and trains -/

def State.queue (s : State) (p : Nat) : List TxF := mget (fun _ => []) s.hnw.txq p
def State.setQueue (s : State) (p : Nat) (l : List TxF) : State :=
  s.setHnw fun h => { h with txq := mput (fun _ => []) h.txq p l }
def State.enqueue (s : State) (p : Nat) (f : TxF) : State := s.setQueue p (s.queue p ++ [f])

/-- The next SEQ of a line or ring, or of a service port (32 + port) (R270). -/
def State.takeSeq (s : State) (k : Nat) : State × Nat :=
  let n := mget (fun _ => 0) s.hnw.seqs k
  (s.setHnw fun h => { h with seqs := mput (fun _ => 0) h.seqs k ((n + 1) % 65536) }, n)

/-- The same frame as a ring's other port holds it. -/
def TxF.twin (f g : TxF) : Bool := decide ({ g with dir := f.dir, held := f.held } = f)

/-- A frame that leaves takes its number; the copy that waits at the ring's other port has the same (R270). -/
def State.numberFrame (s : State) (p : Nat) (f : TxF) : State × TxF :=
  match f.seqOf with
  | none => (s, f)
  | some k =>
    let (s, q) := s.takeSeq k
    let num := fun (g : TxF) => { g with seq := q, seqOf := none }
    (s.each ((s.trunkPorts (s.trunkOf p)).map Prod.fst) fun s o =>
      if o = p then s
      else match (s.queue o).find? f.twin with
        | some g => s.setQueue o ((s.queue o).map fun x => if x = g then num x else x)
        | none => s, num f)

/-- A frame of the controller's own: its source address, tag, pair and partner (R263, R264, R268). -/
def State.ownTx (s : State) (f : TxF) : TxF :=
  { f with src := s.ob K.HNW_MAC % 2 ^ 48, vtag := s.vtag, pair := s.ob K.HNW_PAIR_ID, partner := s.redId }

/-- A Huatur frame of the controller's own of a TYPE (R269). -/
def State.huaturTx (s : State) (typ dst : Nat) (f : TxF) : TxF :=
  { s.ownTx f with etype := s.ob K.HNW_ETHERTYPE, typ := typ, dst := dst % 2 ^ 48 }

/-- The slack point of the current tide, as an ns count (R268). -/
def State.slackPointAt (s : State) : Nat := s.phaseAt K.TDS_SLACK_PT

/-- TYPE of a train's frame (R269). -/
def trainType (k : FKind) : Nat := if k = .ebb then 1 else if k = .slack then 2 else 3

/-- One frame of a train, on every port of its trunk; it goes to HNW.GROUP_MAC (R264). -/
def State.sendTrainFrame (s : State) (trunk : Nat) (f : TxF) : State :=
  let f := { s.huaturTx (trainType f.kind) (s.ob K.HNW_GROUP_MAC) f with
    seqOf := some trunk
    late := (match f.launch with
      | some l => decide (f.kind ≠ FKind.schedule) && decide (l < s.ns)
      | none => false) }
  s.each (s.trunkPorts trunk) fun s pd => s.enqueue pd.1 { f with dir := pd.2 }

/-- Frames of a train from a first index on, queued in order (R274, R275). -/
def State.sendFrames (s : State) (trunk : Nat) (kind : FKind) (len : Nat → Nat) (launch point : Nat)
    (frames : List (List Nat)) (from_ : Nat) : State :=
  let n := frames.length
  s.each (frames.zipIdx.drop from_) fun s fi =>
    s.sendTrainFrame trunk { TxF.init with
      cls := 1
      kind := kind
      launch := some launch
      len := s.frameLen (payloadOf len fi.1)
      tide := s.ob K.TDS_TIDE
      index := fi.2
      point := point
      last := decide (fi.2 + 1 = n)
      count := fi.1.length
      segs := fi.1.map fun m => (m, List.replicate (len m) 0) }

/-- The ebb train of every trunk with enabled stations (R274). -/
def State.ebbTrains (s : State) : State :=
  let at_ := s.tds.ebbAt + s.ob K.HNW_EBB_LAUNCH
  s.each s.trunks fun s p =>
    s.sendFrames p .ebb s.ebbLen at_ s.slackPointAt (packSegs 0 [] ((s.stasOf p).map fun n => (n, s.ebbLen n))) 0

/-- SCHEDULE of the next ebb point, on both ports of a ring (R268, R273, R275); behind the frames of a slack train, in the order
of its launch. -/
def State.sendSchedule (s : State) (p : Nat) (behind : Option Nat) : State :=
  let armed := decide (s.tds.st = .armed)
  s.sendTrainFrame p { TxF.init with
    cls := 1
    kind := .schedule
    launch := behind
    len := s.frameLen 40
    tide := if armed then s.ob K.TDS_TIDE_START else (s.ob K.TDS_TIDE + 1) % 2 ^ 32
    point := s.tds.nextEbb
    body := beBytes 4 s.tideP ++ beBytes 4 (s.ob K.TDS_IN_DEADLINE) ++ beBytes 4 (s.ob K.TDS_LAUNCH) ++
      beBytes 4 (s.ob K.TDS_SLACK_PT) }

/-- SCHEDULE frames on every trunk, by the grant holder (R275). -/
def State.schedules (s : State) : State := if s.grantHeld then s.each s.trunks fun s p => s.sendSchedule p none else s

/-- Frames of the slack train of a trunk. -/
def State.slackFrames (s : State) (p : Nat) : List (List Nat) :=
  packSegs 0 [] ((s.slackStas p).map fun n => (n, s.outLen n))

/-- The slack trains of TDS.LAUNCH and the SCHEDULE frame after each (R275). -/
def State.slackTrains (s : State) : State :=
  if s.grantHeld then
    let s := s.setHnw fun h => { h with ackIndex := [] }
    s.each s.trunks fun s p =>
      let l := s.phaseAt K.TDS_LAUNCH
      (s.sendFrames p .slack s.outLen l s.slackPointAt (s.slackFrames p) 0).sendSchedule p (some l)
  else s

/-- The takeover train, from the first frame of each trunk that the old partner had not reported (R352); Δ in ns. -/
def State.takeover (s : State) (done : List Nat) : State × Nat :=
  s.trunks.foldl (fun (r : State × Nat) p =>
    let s := r.1
    let frames := s.slackFrames p
    let k := ((s.trunkPorts p).map fun pd => done.getD pd.1 0).foldl Nat.min frames.length
    let sched := s.phaseAt K.TDS_LAUNCH +
      s.wireNs p (((frames.take k).map fun f => s.frameLen (payloadOf s.outLen f) + 20).foldl (· + ·) 0)
    let d := (s.ns - sched + 999) / 1000 * 1000
    let point := s.slackPointAt + d
    if k < frames.length ∧ point < s.tds.ebbAt + s.tideP - s.ob K.TDS_GUARD then
      ((s.sendFrames p .slack s.outLen s.ns point frames k).sendSchedule p (some s.ns), Nat.max r.2 d)
    else r) (s, 0)

/-! ### Launches (R293, R320–R322, R325) -/

/-- Launch instants of the trains that a port has still to send: this tide's, and the next ebb train (R274, R275). -/
def State.comingLaunches (s : State) (p : Nat) : List Nat :=
  let k := s.trunkOf p
  let ebb := !(s.stasOf k).isEmpty
  let next := decide (s.tds.st = .armed) || decide (s.tds.st = .running) ||
    (decide (s.tds.st = .stopping) && decide (s.tds.stopEbbs = 0))
  (if ebb && s.tideOn && !s.tds.first && !s.hnw.ebbSent then [s.tds.ebbAt + s.ob K.HNW_EBB_LAUNCH] else []) ++
    (if ebb && next then [s.tds.nextEbb + s.ob K.HNW_EBB_LAUNCH] else []) ++
    (if !(s.slackStas k).isEmpty && s.tideOn && !s.tds.first && !s.tds.launched && s.grantHeld then [s.phaseAt K.TDS_LAUNCH]
     else [])

/-- A frame may leave now: its time has come, its gate stays open until its last bit has passed, and it ends, with the gap after
it, before every scheduled class 1 launch, queued or to come (R293, R320, R325). -/
def State.frameReady (s : State) (p : Nat) (q : List TxF) (f : TxF) : Bool :=
  decide (f.launch.getD 0 ≤ s.ns) && (decide (f.cls = 1) ||
    (let d := s.wireNs p (f.len + 20)
     s.gateOpen p f.cls (s.wireNs p (f.len + 8)) && (q.all fun g => decide (g.cls ≠ 1) || decide (s.ns + d ≤ g.launch.getD 0)) &&
       (s.comingLaunches p).all fun l => decide (s.ns + d ≤ l)))

/-- The first of the frames: by class, then by launch time, then by submission (R293, R322). -/
def firstFrame : List TxF → Option TxF
  | [] => none
  | f :: t =>
    match firstFrame t with
    | none => some f
    | some g => if f.cls < g.cls ∨ (f.cls = g.cls ∧ f.launch.getD 0 ≤ g.launch.getD 0) then some f else some g

/-- The frames of a queue that nothing of their own class goes before: of each class the first one without a launch time, and
the one with the earliest (R320, R322). -/
def headFrames (q : List TxF) : List TxF :=
  [1, 2, 3].flatMap fun c =>
    let l := q.filter fun f => decide (f.cls = c)
    (l.find? fun f => f.launch.isNone).toList ++ (firstFrame (l.filter fun f => f.launch.isSome)).toList

/-- The queue without the first frame equal to one. -/
def dropFrame (f : TxF) : List TxF → List TxF
  | [] => []
  | g :: t => if g = f then t else g :: dropFrame f t

/-- Class 2 and 3 frames at the head of their class that fit no open span are dropped (R325). -/
def State.gateDropOne (s : State) (p cls : Nat) : State :=
  match (headFrames (s.queue p)).find? fun f => decide (f.cls = cls) && s.gateNever p cls (s.wireNs p (f.len + 8)) with
  | some f => (s.setQueue p (dropFrame f (s.queue p))).incOb (K.NTM_GATE_DROPS (p + 1))
  | none => s

/-- Station data of a slack frame as the frame image holds it (R275). -/
def State.frameSegs (s : State) (f : TxF) : List (Nat × List Byte) :=
  if f.kind = .slack then f.segs.map fun e => (e.1, s.bytesAt (mFrame + s.outOff e.1) e.2.length) else f.segs

/-- Lines of Q that a slack frame carries. -/
def State.frameLines (s : State) (f : TxF) : List Nat :=
  if f.kind = .slack then f.segs.flatMap fun e => qLines (0x80000 + s.outOff e.1) e.2.length else []

/-- The frame image does not yet hold the lines of a frame's cut (R191, R564). -/
def State.uncopied (s : State) (f : TxF) : Bool :=
  ((s.img.copying || s.img.cutWait) && decide (f.tide = s.img.cutTide) && (s.frameLines f).any s.img.cutLines.contains) ||
    s.img.cutNext.any fun x => decide (f.tide = x.tide) && (s.frameLines f).any x.lines.contains

/-- Elapsed time at which a port's latest frame ends. -/
def State.busyEnd (s : State) (p : Nat) : Nat := mget (fun _ => 0) s.hnw.busyTo p

/-- A class 1 frame leaves late: its launch time had passed as it was queued, or it waited for another reason than a class 1
frame before it (R321). -/
def State.launchLate (s : State) (p : Nat) (f : TxF) : Bool :=
  match f.launch with
  | some l => decide (f.kind ≠ .schedule) && (f.late || f.held ||
      (decide (l < s.ns) && !(decide (mget (fun _ => 0) s.hnw.busyCls p = 1) && decide (s.busyEnd p = s.ntm.mono))))
  | none => false

/-- The transmit timestamp of a frame whose preamble starts now: the first bit after the start-of-frame delimiter passes the
interface eight bytes later (R310, R320). -/
def State.egressAt (s : State) (p : Nat) : Nat := (s.egressNs p + s.wireNs p 8) % nsWrap

/-- The body of a PTP frame as it leaves: one-step and residence corrections (R314, R315). -/
def State.egressBody (s : State) (p : Nat) (f : TxF) : List Byte :=
  if f.kind = .ptp ∧ f.oneStep = true then addCorrection f.body ((s.egressAt p : Int) - (f.launch.getD 0 : Int))
  else if f.kind = .transit ∧ f.etype = 0x88F7 ∧ ptpType f.body < 4 then
    let d := if ptpType f.body = 0 ∧ bit (s.ob K.NTM_CFG) 0 = true then s.ob (K.NTM_LINK_DELAY (f.inPort + 1)) else 0
    addCorrection f.body ((s.egressAt p : Int) - (f.inAt : Int) + (d : Int))
  else f.body

/-- A frame as it goes onto the wire: GRANT as the interlock stands, TIDE of a service frame, and its bytes; a frame in transit
keeps every field of its own (R266, R268, R275). -/
def State.outFrame (s : State) (p : Nat) (f : TxF) : TxF :=
  let out := { f with
    segs := s.frameSegs f
    body := s.egressBody p f
    grant := if f.kind = FKind.transit then f.grant else s.grantHeld
    tide := if f.kind = FKind.service then s.ob K.TDS_TIDE else f.tide }
  { out with wire := s.wireBytes out }

/-- A frame leaves a port (R270, R275, R309, R313–R315, R346). -/
def State.sendFrame (s : State) (p : Nat) (f : TxF) : State :=
  let s := s.copyProgress
  let s0 := s.setQueue p (dropFrame f (s.queue p))
  if (f.kind = .slack ∨ f.kind = .schedule) ∧ s.grantHeld = false then s0
  else if (f.kind = .ptp ∨ f.kind = .transit) ∧ s.gmBlocked f.body = true then s0.incOb K.NTM_GM_BLOCKED
  else if s.uncopied f then
    if f.held then s
    else (s0.setQueue p ({ f with held := true } :: s0.queue p)).incOb K.IMG_CUT_OVERRUN
  else
    let late := s.launchLate p f
    let r := s0.numberFrame p f
    let s := r.1
    let out := s.outFrame p r.2
    let s := s.setHnw fun h => { h with
      lastTx := mput (fun _ => TxF.init) h.lastTx p out
      busyTo := mput (fun _ => 0) h.busyTo p (s.ntm.mono + s.wireNs p (f.len + 20))
      busyCls := mput (fun _ => 0) h.busyCls p f.cls }
    let s := (s.incOb (K.HNW_TX_FRAMES (p + 1))).bwPast
    let s := { s with pmc := { s.pmc with bw := { s.pmc.bw with
      sent := s.pmc.bw.sent ++ [(s.us + (s.clockNs % 1000 + s.wireNs p (f.len + 8)) / 1000, p, f.len)] } } }
    let s := s.when f.udp.isSome State.draw
    let s := s.when (decide (f.cls = 1) && late) fun s => s.incOb (K.NTM_LAUNCH_LATE (p + 1))
    let s := s.when (decide (f.kind = .slack)) fun s =>
      s.setHnw fun h => { h with ackIndex := h.ackIndex ++ [(s.ntm.mono + s.wireNs p (f.len + 8), p, f.index + 1)] }
    s.when f.stamp fun s => s.stampQueue p f.tag (s.egressAt p)

/-- One more than the INDEX of the last slack frame of this tide that has left a port whole; 0 for none (R333). -/
def State.sentIndex (s : State) (p : Nat) : Nat :=
  ((s.hnw.ackIndex.filter fun e => decide (e.2.1 = p) && decide (e.1 ≤ s.ntm.mono)).map fun e => e.2.2).foldl Nat.max 0

/-- The latest instant at which a class 2 or 3 frame with a launch time may start (R321). -/
def State.missAt (s : State) (f : TxF) : Option Nat :=
  match f.launch with
  | some l => if f.cls = 1 then none else some (l + s.ob K.NTM_LATE_LIMIT)
  | none => none

/-- Class 2 and 3 frames whose time is over are dropped and counted (R321). -/
def State.dropMissed (s : State) (p : Nat) : State :=
  s.each (s.queue p) fun s f =>
    match s.missAt f with
    | some t => if t < s.ns then (s.setQueue p (dropFrame f (s.queue p))).incOb (K.NTM_LAUNCH_MISS (p + 1)) else s
    | none => s

/-- The frame that leaves a port first, of those that may leave now. -/
def State.nextFrame (s : State) (p : Nat) : Option TxF :=
  firstFrame ((headFrames (s.queue p)).filter (s.frameReady p (s.queue p)))

/-- The first frame that is ready on a port is sent; those that have missed their launch are dropped (R320–R322). -/
def State.launchReady (s : State) (p : Nat) : State :=
  let s := s.dropMissed p
  match s.nextFrame p with
  | some g => s.sendFrame p g
  | none => s

/-- The next launch of a port, once the frame before has left it: the first ready frame, else time passes to the earliest launch
time (R293, R320–R322). -/
def State.launchNext (s : State) (p : Nat) : State :=
  let s := if (s.queue p).isEmpty then s else s.reachMono (s.busyEnd p)
  let s := ((s.dropMissed p).gateDropOne p 2).gateDropOne p 3
  match s.nextFrame p with
  | some f => s.sendFrame p f
  | none =>
    match (s.queue p).filterMap fun f => f.launch.filter fun l => decide (s.ns < l) with
    | [] => s
    | l :: ls => (s.reach (ls.foldl Nat.min l)).launchReady p

/-- The earliest class 2 or 3 frame that misses its launch is dropped when LATE_LIMIT has passed (R321). -/
def State.launchMiss (s : State) (p : Nat) : State :=
  let l := (s.queue p).filterMap s.missAt
  match l with
  | [] => s
  | t :: ts => (s.reach (ts.foldl Nat.min t + 1)).dropMissed p

/-! ### Ingress (R263, R269, R292) -/

/-- Bytes of the acyclic share in use beyond the 8 KiB that each port has of its own (R292). -/
def State.sharedUsed (s : State) : Nat := ((List.range 18).map fun p => s.shareFill p false - 0x2000).foldl (· + ·) 0

/-- The acyclic share has room for n bytes more of a port: its own 8 KiB, and 368 KiB that the ports share (R292). -/
def State.shareRoom (s : State) (p n : Nat) : Bool :=
  decide (n ≤ (0x2000 - s.shareFill p false) + (0x5C000 - s.sharedUsed))

/-- The frame's header passes R269: VERSION 0x1, a TYPE that is not reserved, LENGTH that agrees, and a good FCS. -/
def rxHeaderOk (fr : Rx) : Bool :=
  fr.fcsOk && decide ((rxHeader fr).version = 1) && decide (1 ≤ (rxHeader fr).typ) && decide ((rxHeader fr).typ ≤ 6) && fr.lenOk

/-- Domain NW is on and a frame arrives: counted, and true where it passes the checks (R263, R269, R291, R292).
(DEDUCED, unsafe: log 43.) -/
def State.ingress (s : State) (fr : Rx) (acyclic : Bool) : State × Bool :=
  let p := fr.port
  let s := (s.incOb (K.HNW_RX_FRAMES (p + 1))).bwPast
  let s := { s with pmc := { s.pmc with bw := { s.pmc.bw with
    rx := mput (fun _ => 0) s.pmc.bw.rx p (mget (fun _ => 0) s.pmc.bw.rx p + fr.bytes) } } }
  let huatur := decide (fr.etype = s.ob K.HNW_ETHERTYPE)
  let typeOk := huatur || decide (fr.etype = 0x88F7) ||
    (decide (16 ≤ p) && (decide (fr.etype = 0x0806) || decide (fr.etype = 0x0800)))
  let vlanOk := match fr.vid with
    | none => true
    | some v => decide (v % 4096 = bits (s.ob K.HNW_VLAN) 11 0)
  let hdrOk := !(huatur || fr.udp.isSome) || rxHeaderOk fr
  let ipOk := match fr.ip with
    | none => true
    | some i => !i.fragment && !i.options && i.hdrOk && !i.broadcast
  let udpOk := match fr.udp with
    | none => true
    | some u => u.udpOk && decide (s.ob K.HNW_IP ≠ 0) && decide (u.dstIp = s.ob K.HNW_IP) && decide (u.dstPort = s.ob K.HNW_UDP_PORT)
  let s := s.when (!fr.fcsOk) fun s => s.incOb (K.HNW_FCS_ERR (p + 1))
  let ok := fr.fcsOk && typeOk && vlanOk && hdrOk && ipOk && udpOk && (!acyclic || s.shareRoom p fr.bytes)
  (s.when (!ok) fun s => s.incOb (K.HNW_DROPS (p + 1)), ok)

/-- A port takes and sends frames: domain NW is on and MODE is not off (R300).
(DEDUCED, unsafe: log 43.) -/
def State.portRuns (s : State) (p : Nat) : Bool := s.domOn dNW && decide (p < 18) && decide (bits (s.portCfg p) 4 3 ≠ 0)

/-- A frame arrives at a port that runs; what follows is for one that passes the checks. -/
def State.arrive (s : State) (fr : Rx) (acyclic : Bool) (f : State → State) : State :=
  if s.portRuns fr.port then (let (s, ok) := s.ingress fr acyclic; if ok then f s else s) else s

/-- Where the answer to a frame goes (R264, R291): the address it came from; for a datagram from off the subnet, the address of
HNW.GATEWAY, which no rule tells how to find.
(DESIGN CHOICE, safe: log 98.) -/
def State.peerOf (s : State) (fr : Rx) (srcIp : Option Nat) : Nat :=
  match srcIp with
  | none => fr.src
  | some i =>
    let m := s.ob K.HNW_NETMASK
    if (i &&& m) = (s.ob K.HNW_IP &&& m) ∨ s.ob K.HNW_GATEWAY = 0 then fr.src else Config.gatewayMac (s.ob K.HNW_GATEWAY)

/-- The sender of a service request. -/
def State.requester (s : State) (fr : Rx) : Peer :=
  { mac := s.peerOf fr (fr.udp.map UdpInfo.srcIp), udp := fr.udp.map fun u => (u.srcIp, u.srcPort) }

/-- The source that a session is opened for, as one number: a MAC address, or an IP address and UDP port (R288). -/
def rxSource (fr : Rx) : Nat :=
  match fr.udp with
  | none => fr.src
  | some u => 2 ^ 48 + u.srcIp * 65536 + u.srcPort

/-- A service response with a ready body leaves by the port its request came in on, for its requester (R264, R287). -/
def State.svcFrame (s : State) (port : Nat) (peer : Peer) (tag : Nat) (body : List Byte) : State :=
  s.enqueue port (s.huaturTx 6 peer.mac { TxF.init with
    cls := 3
    kind := .service
    len := s.frameLen (24 + body.length + if peer.udp.isSome then 28 else 0)
    seqOf := some (32 + port)
    tag := tag
    body := body
    udp := peer.udp })

/-! ### Returned EBB and SLACK frames -/

/-- The frame is the partner's own of the current tide (R276). -/
def State.ownFrame (s : State) (h : Hdr) : Bool :=
  decide (h.pair = s.ob K.HNW_PAIR_ID) && decide (h.partner = s.redId) && decide (h.tide = s.ob K.TDS_TIDE)

/-- Ring state derived from TURNED and TURN of a returned frame (R295). -/
def State.ringSeen (s : State) (port : Nat) (h : Hdr) : State :=
  let p := s.trunkOf port
  if s.isRing p = false then s
  else
    let k := p / 2
    let v := if h.turned then h.turn % 4096 + 1 else 0
    let keep := fun (m : SMap Nat) => if h.turned then mget (fun _ => 0) m k else 0
    s.setHnw fun n => { n with
      turn0 := mput (fun _ => 0) n.turn0 k (if h.dir = 0 then v else keep n.turn0)
      turn1 := mput (fun _ => 0) n.turn1 k (if h.dir = 1 then v else keep n.turn1)
      ringSt := mput (fun _ => 0) n.ringSt k (if h.turned then 2 else 1) }

/-- HNW.RING of ring k (R299). -/
def State.ringReg (s : State) (k : Nat) : Nat :=
  if s.isRing (2 * k) then
    mget (fun _ => 0) s.hnw.ringSt k * 2 ^ 30 + (mget (fun _ => 0) s.hnw.turn0 k - 1) * 2 ^ 16 +
      (mget (fun _ => 0) s.hnw.turn1 k - 1)
  else 0

/-- At the deadline, or at the flood start where that comes first, when the copies of both directions are back, a ring that has
broken, or whose break has moved, sends a record that names the stations which turn frames; one that is whole again names those
that turned them (R295).
(DEDUCED, unsafe: log 99.) -/
def State.ringTell (s : State) (k : Nat) : State :=
  let v := s.ringReg k
  let was := mget (fun _ => 0) s.hnw.ringTold k
  if v = was then s
  else
    let s := s.setHnw fun n => { n with ringTold := mput (fun _ => 0) n.ringTold k v }
    if v / 2 ^ 30 = 2 then s.raise 0x0C k k 0 v 0
    else if v / 2 ^ 30 = 1 ∧ was / 2 ^ 30 = 2 then s.raise 0x0D k k 0 (2 ^ 30 + was % 2 ^ 30) 0
    else s

/-- Every ring (R295). -/
def State.ringsTell (s : State) : State := s.each (List.range 8) State.ringTell

/-- Input lines that a write of n bytes at an offset of I touches become pending (R179). -/
def State.pendLines (s : State) (off n : Nat) : State :=
  let ls := (List.range ((off % 64 + n + 63) / 64)).map fun i => off / 64 + i
  s.setImg fun m => { m with pend := m.pend ++ ls.filter fun l => !m.pend.contains l }

/-- A STATION_RETURNED record (R298). -/
def State.stationBack (s : State) (n : Nat) : State :=
  s.raise 0x0B (s.staPort n) n 0 (s.ob K.TDS_TIDE) (s.staPos n)

/-- One segment of a returned EBB frame of the partner's own (R276, R181, R272, R284). A DUAL_GRANT that a station reports is
expected in the tide of a changeover and in the next, whose EBB segments bring the reports of it (R279, R352).
(DEDUCED, unsafe: log 124.) -/
def State.ebbSeg (s : State) (port : Nat) (own : Bool) (g : Seg) : State :=
  let n := g.station
  if !own || !g.done || !s.staEn n || decide (s.staPort n ≠ s.trunkOf port) then s.incOb K.HNW_RX_STALE
  else if (s.stn n).accepted then s
  else if s.tds.inputDone || s.tds.flooded then s.incOb K.IMG_IN_LATE
  else
    let len := s.inLen n
    let old := s.stn n
    let s := s.putBytes (mAsm + s.inOff n) (slice g.data 0 len)
    let s := if len = 0 then s else s.pendLines (s.inOff n) len
    let s := s.modStn n fun x => { x with
      status := g.status
      accepted := true
      miss := 0
      st := if x.st = .configuring ∨ x.st = .lost then .operational else x.st }
    let s := s.setHnw fun h => { h with ebbLast := mput (fun _ => 0) h.ebbLast port (s.ns + 1) }
    let s := s.when (decide (old.st = .lost)) fun s => s.stationBack n
    if bit g.status 12 ∧ bit old.status 12 = false then
      let t := s.ob K.TDS_TIDE
      if s.red.changeTide = some t ∨ s.red.changeTide = some ((t + (2 ^ 32 - 1)) % 2 ^ 32) then s.incOb K.RED_DUAL_EXPECTED
      else s.raise 0x13 n n 0 (s.ob K.TDS_TIDE) 0
    else s

/-- Every expected input segment has arrived (R142). -/
def State.allArrived (s : State) : Bool := s.enabled.all fun n => (s.stn n).accepted

/-- Segments of a returned SLACK frame (R277). -/
def State.slackSeg (s : State) (g : Seg) : State :=
  if s.staEn g.station then s.modStn g.station fun x => { x with outSeen := true, outDone := x.outDone || g.done } else s

/-- A tide's returned SLACK segments are over: those without DONE in every copy count (R277). -/
def State.outMisses (s : State) : State :=
  s.each s.enabled fun s n =>
    let x := s.stn n
    let s := s.when (x.outSeen && !x.outDone) fun s => s.incOb (K.HST_OUT_MISS n)
    s.modStn n fun x => { x with outSeen := false, outDone := false, accepted := false }

/-! ### The deadline (R277, R284, R296) -/

/-- Station at a position of a trunk is LOST. -/
def State.lostAt (s : State) (p pos : Nat) : Bool :=
  match s.staAt p pos with
  | some n => decide ((s.stn n).st = .lost)
  | none => false

/-- The lowest position of the run of lost positions that ends at pos. -/
def State.runLo (s : State) (p : Nat) : Nat → Nat → Nat
  | 0, pos => pos
  | f + 1, pos => if 1 < pos ∧ s.lostAt p (pos - 1) = true then s.runLo p f (pos - 1) else pos

def State.runHi (s : State) (p n : Nat) : Nat → Nat → Nat
  | 0, pos => pos
  | f + 1, pos => if pos < n ∧ s.lostAt p (pos + 1) = true then s.runHi p n f (pos + 1) else pos

/-- The root candidate of a lost station (R296). -/
def State.rootOf (s : State) (n : Nat) : Nat :=
  let p := s.staPort n
  let pos := s.staPos n
  let m := (s.stasOf p).length
  let lo := s.runLo p m pos
  let hi := s.runHi p m m pos
  let root := if s.isRing p then
      (if Nat.min lo (m + 1 - lo) ≤ Nat.min hi (m + 1 - hi) then lo else hi)
    else if hi = m then lo else pos
  (s.staAt p root).getD n

/-- Each field port's time from the launch of the ebb train to its last accepted segment is a sample (R501). -/
def State.ebbSamples (s : State) : State :=
  let l := s.hnw.ebbLast
  (s.setHnw fun h => { h with ebbLast := [] }).each l fun s e =>
    s.sample (0x0400 + e.1) 0 ((e.2 : Int) - 1 - ((s.tds.ebbAt + s.ob K.HNW_EBB_LAUNCH : Nat) : Int))

/-- The evaluation at the deadline: misses, and stations that enter LOST with their records (R277, R296, R297). -/
def State.deadline (s : State) : State :=
  let lim := s.ob K.HNW_LOSS_TIDES
  let silent := s.enabled.filter fun n => !(s.stn n).accepted
  let s := s.each silent fun s n => (s.incOb (K.HST_IN_MISS n)).modStn n fun x => { x with miss := x.miss + 1 }
  let lost := s.trunks.flatMap fun p => (s.stasOf p).filter fun n =>
    !(s.stn n).accepted && decide ((s.stn n).st = .operational) && decide (lim ≤ (s.stn n).miss)
  let s := s.each lost fun s n => (s.incOb (K.HST_LOSSES n)).modStn n fun x => { x with st := .lost }
  s.each lost fun s n => s.raise 0x0A (s.staPort n) n (s.rootOf n) (s.ob K.TDS_TIDE) (s.staPos n)

/-- The bitmap of stations with an accepted segment (R277). -/
def State.validBitmap (s : State) : List Byte :=
  let ok := s.enabled.filter fun n => (s.stn n).accepted
  (List.range 512).map fun i => BitVec.ofNat 8 (maskOf ((ok.filter fun n => n / 8 = i).map fun n => n % 8))

/-- At input complete the bitmap enters the image that the next flood start makes current (R184, R277). -/
def State.stageBitmap (s : State) : State :=
  if bit (s.ob K.HNW_CFG) 1 then
    let at_ := s.ob K.HNW_VALID_AT % 0x80000
    (s.putBytes (mAsm + at_) s.validBitmap).pendLines at_ 512
  else s

/-- HNW.IN_VALID of the flood start (R277). -/
def State.floodBitmap (s : State) : State := s.setDom K.HNW_IN_VALID s.validBitmap

/-! ### Service routing (R286–R290) -/

/-- Destination of a request that goes onto the field: the spec gives the address of responses, and of requests none.
(DESIGN CHOICE, safe: log 98.) -/
def Route.mac (r : Route) : Nat := Config.stationMac (b2n r.byPos) r.num

/-- DATA of a READ's or WRITE's response that carries no value: eight bytes all the same (R287).
(DESIGN CHOICE, safe: log 100.) -/
def rspData (op status : Nat) (d : List Byte) : List Byte :=
  if op = 3 ∨ op = 4 then (if d.length = 8 then d else leBytes 8 (Config.rspData op status)) else d

/-- A service body (R287). -/
def svcBytes (target num op tag status reason key off : Nat) (d : List Byte) : List Byte :=
  beBytes 2 target ++ beBytes 1 num ++ beBytes 1 op ++ beBytes 2 tag ++ beBytes 1 status ++ beBytes 1 reason ++
    beBytes 2 (key / 256) ++ beBytes 1 key ++ [0] ++ beBytes 4 off ++ beBytes 2 d.length ++ [0, 0] ++ d

/-- TARGET of a routed request. -/
def Route.target (r : Route) : Nat := (if r.byPos then 0x4000 else 0) + r.num % 4096

/-- A service request frame that leaves by these ports with one SEQ (R289). -/
def State.sendService (s : State) (r : Route) : State :=
  let ports := if r.byPos then [(r.port, false)] else s.trunkPorts r.port
  s.each ports fun s pd => s.enqueue pd.1 (s.huaturTx 5 r.mac { TxF.init with
    cls := 3
    kind := .service
    len := s.frameLen (44 + r.data.length)
    seqOf := some (32 + r.port)
    dir := pd.2
    tag := r.rid % 65536
    body := svcBytes r.target r.ses r.op (r.rid % 65536) 0 0 (r.idx * 256 + r.sub) r.off r.data })

/-- Partner B has no counting port: it passes position-addressed requests to partner A (R290). -/
def State.relays (s : State) : Bool := s.inPair && decide (s.redId = 1)

/-- The switch keeps as many routed requests as it can (R289). -/
def State.routesFull (s : State) : Bool := decide (64 ≤ s.hnw.routes.length)

/-- A request is routed: kept, and sent onto the field or to partner A (R289, R290). One that names no way out is only
kept, and ends by its time limit. -/
def State.route (s : State) (r : Route) (out : Bool) : State :=
  let r := { r with rid := s.hnw.nextRid }
  let s := s.setHnw fun h => { h with routes := h.routes ++ [r], nextRid := h.nextRid + 1 }
  if r.byPos && s.relays then s.setHnw fun h => { h with relayed := h.relayed ++ [r] }
  else if out then s.sendService r else s

/-- The body of a routed request's response: the request's fields, the status, the reason and the data (R287). -/
def Route.rspBytes (r : Route) (status reason : Nat) (data : List Byte) : List Byte :=
  svcBytes r.target r.ses r.op (r.tag % 65536) status reason (r.idx * 256 + r.sub) r.off (rspData r.op status data)

/-- What a requester is answered (R289), by the port its request came in on, or over the mooring links; the latest 64
stand in State.
(DESIGN CHOICE, safe: log 46.) -/
def State.answer (s : State) (r : Route) (status reason : Nat) (data : List Byte) : State :=
  let s := s.setHnw fun h => { h with answers := keepLast 64 (h.answers ++
    [{ src := r.src, tag := r.tag, status := status, reason := reason, data := data }]) }
  if r.use = 0 then s.svcFrame r.eng r.peer r.tag (r.rspBytes status reason data) else s

def State.findRoute (s : State) (rid : Nat) : Option Route := s.hnw.routes.find? fun r => r.rid = rid
def State.endRoute (s : State) (rid : Nat) : State :=
  s.setHnw fun h => { h with
    routes := h.routes.filter fun r => r.rid ≠ rid
    relayed := h.relayed.filter fun r => r.rid ≠ rid }

/-! #### SCAN (R286) -/

/-- The object a SCAN reads at a stage: STN.VENDOR, STN.PRODUCT, STN.NUMBER (R285). -/
def scanKey (stage : Nat) : Nat × Nat := if stage = 0 then (0x1000, 1) else if stage = 1 then (0x1000, 2) else (0x1001, 1)

/-- A request of the switch's own to a position, of 8 bytes of data (R286, R298). -/
def ownRoute (use_ tag port pos op idx sub v : Nat) : Route :=
  { rid := 0
    src := 0
    eng := 0
    peer := { mac := 0, udp := none }
    tag := tag
    use := use_
    port := port
    byPos := true
    num := pos
    ses := 0
    op := op
    idx := idx
    sub := sub
    off := 0
    data := leBytes 8 v }

/-- SCAN stops on a line or ring. -/
def State.scanEnd (s : State) (p : Nat) : State :=
  s.setHnw fun h => { h with
    scans := h.scans.filter fun x => x.port ≠ p
    routes := h.routes.filter fun r => !(decide (r.use = 1) && decide (r.port = p)) }

/-- The read of a position's object; a position whose request is turned away as BUSY ends SCAN there (R286, R289). -/
def State.scanAsk (s : State) (x : Scan) : State :=
  if s.routesFull then s.scanEnd x.port
  else s.route (ownRoute 1 0 x.port x.pos 3 (scanKey x.stage).1 (scanKey x.stage).2 0) true

/-- SCAN starts on every enabled line and ring. -/
def State.scanStart (s : State) : State :=
  let xs := s.trunks.map fun p => ({ port := p, pos := 1, stage := 0, vendor := 0, product := 0 } : Scan)
  let s := s.setDom K.HNW_SCAN []
  let s := s.setHnw fun h => { h with cmd := 1, scans := xs, mism := false }
  s.each xs State.scanAsk

/-- One entry of HNW.SCAN.
(DEDUCED, unsafe: log 80.) -/
def scanEntry (x : Scan) (number : Nat) : List Byte :=
  leBytes 1 x.port ++ leBytes 1 0 ++ leBytes 2 x.pos ++ leBytes 4 x.vendor ++ leBytes 4 x.product ++ leBytes 2 number ++
    leBytes 2 0

/-- A position answers SCAN with one of its objects. -/
def State.scanStep (s : State) (p v : Nat) : State :=
  match s.hnw.scans.find? fun x => x.port = p with
  | none => s
  | some x =>
    let put := fun (s : State) (y : Scan) =>
      (s.setHnw fun h => { h with scans := h.scans.map fun z => if z.port = p then y else z }).scanAsk y
    match x.stage with
    | 0 => put s { x with vendor := v % 2 ^ 32, stage := 1 }
    | 1 => put s { x with product := v % 2 ^ 32, stage := 2 }
    | _ =>
      let s := s.setDom K.HNW_SCAN (s.dom K.HNW_SCAN ++ scanEntry x (v % 65536))
      let s := match s.staAt p x.pos with
        | some n => s.setOb (K.HST_IDENT n) (x.vendor * 2 ^ 32 + x.product)
        | none => s
      put s { x with pos := x.pos + 1, stage := 0 }

/-! #### CONFIGURE (R284, R286) -/

/-- The request of a stage: reads of identity, writes from the table, the read of STN.FWD_DELAY. -/
def State.confReq (s : State) (x : Conf) : Nat × Nat × Nat × Nat :=
  let n := x.station
  match x.stage with
  | 0 => (3, 0x1000, 1, 0)
  | 1 => (3, 0x1000, 2, 0)
  | 2 => (4, 0x1001, 1, n)
  | 3 => (4, 0x1001, 2, s.ob K.HNW_PAIR_ID)
  | 4 => (4, 0x1001, 3, s.inLen n)
  | 5 => (4, 0x1001, 4, s.outLen n)
  | 6 => (4, 0x1001, 5, s.ob (K.HST_HOLD n))
  | _ => (3, 0x1001, 6, 0)

/-- The request for a station in hand. Where 64 requests are kept it is turned away as BUSY, and so is every other station's: none
of them is configured (R289). -/
def State.confAsk (s : State) (x : Conf) : State :=
  if s.routesFull then s.setHnw fun h => { h with conf := [], confAt := [] }
  else
    let (op, idx, sub, v) := s.confReq x
    s.route (ownRoute 2 x.station (s.staPort x.station) (s.staPos x.station) op idx sub v) true

/-- CONFIGURE visits a station: it is enabled, and in a state that CONFIGURE touches (R284, R286). -/
def State.confTakes (s : State) (n : Nat) : Bool :=
  s.staEn n && match (s.stn n).st with
    | .absent => true
    | .lost => true
    | .returned => true
    | .mismatch => (s.stn n).expectNew && (decide (s.ob (K.HST_EXPECT n) = 0) ||
        decide (s.ob (K.HST_EXPECT n) = s.ob (K.HST_IDENT n)))
    | _ => false

/-- The next station in line that is still to be configured is taken up where none is in hand (R286). -/
def State.confNext (s : State) : State :=
  match s.hnw.confAt, s.hnw.conf.dropWhile fun n => !s.confTakes n with
  | [], n :: t =>
    let x : Conf := { station := n, stage := 0, vendor := 0 }
    (s.setHnw fun h => { h with conf := t, confAt := [x] }).confAsk x
  | [], [] => s.setHnw fun h => { h with conf := [] }
  | _, _ => s

/-- Stations that CONFIGURE visits. -/
def State.confList (s : State) : List Nat := s.enabled.filter s.confTakes

/-- RETURNED stations are configured at once while AUTO_RECONF is 1 (R286, R298). -/
def State.autoConf (s : State) : State :=
  if bit (s.ob K.HNW_CFG) 0 then
    let l := s.enabled.filter fun n => decide ((s.stn n).st = .returned) && !s.hnw.conf.contains n
    (s.setHnw fun h => { h with conf := h.conf ++ l }).confNext
  else s

def State.configureStart (s : State) : State :=
  (s.setHnw fun h => { h with cmd := 1, conf := s.confList, mism := false }).confNext

/-- CONFIGURE leaves the station in hand and goes on. -/
def State.confLeave (s : State) : State := (s.setHnw fun h => { h with confAt := [] }).confNext

/-- The station in hand answers with a value. -/
def State.confStep (s : State) (v : Nat) : State :=
  match s.hnw.confAt with
  | [] => s
  | x :: _ =>
    let go := fun (s : State) (y : Conf) => (s.setHnw fun h => { h with confAt := [y] }).confAsk y
    let n := x.station
    match x.stage with
    | 0 => go s { x with vendor := v % 2 ^ 32, stage := 1 }
    | 1 =>
      let id := x.vendor * 2 ^ 32 + v % 2 ^ 32
      let e := s.ob (K.HST_EXPECT n)
      let s := s.setOb (K.HST_IDENT n) id
      if e ≠ 0 ∧ e ≠ id then
        (if (s.stn n).st = .operational then s.confLeave
         else ((s.modStn n fun y => { y with st := .mismatch, expectNew := false }).setHnw fun h =>
          { h with mism := true }).confLeave)
      else go s { x with stage := 2 }
    | 7 =>
      ((s.setOb (K.HST_FWD n) (v % 65536)).modStn n fun y => { y with
        st := if y.st = .operational then y.st else .configuring
        miss := 0
        expectNew := false }).confLeave
    | k => go s { x with stage := k + 1 }

/-- A running SCAN or CONFIGURE finishes (R286, R299). -/
def State.hnwDone (s : State) : State :=
  if s.hnw.cmd = 1 ∧ s.hnw.scans = [] ∧ s.hnw.conf = [] ∧ s.hnw.confAt = [] then
    s.setHnw fun h => { h with cmd := if h.mism then 3 else 2 }
  else s

/-- Refusals of HNW.CMD: partner B alone, or a command that runs (R286, R290). -/
def State.hnwCmdCheck (s : State) : Nat :=
  if s.relays && !s.red.peer then stSTATE else if s.hnw.cmd = 1 then stBUSY else stOK

/-! #### Responses -/

/-- A probe's answer of 0xFFFF moves a LOST station to RETURNED (R284, R298). -/
def State.probeAnswer (s : State) (n v : Nat) : State :=
  if v % 65536 = 0xFFFF ∧ (s.stn n).st = .lost then
    ((s.modStn n fun x => { x with st := .returned }).stationBack n).autoConf
  else s

/-- A routed request is answered (R286, R289, R290, R298). SCAN takes any answer of a position, and stops only where none
comes. -/
def State.respond (s : State) (r : Route) (status reason : Nat) (data : List Byte) : State :=
  let s := s.endRoute r.rid
  let v := leAt data 0 8
  match r.use with
  | 1 => s.scanStep r.port v
  | 2 => if status = 0 then s.confStep v else s.confLeave
  | 3 => if status = 0 then s.probeAnswer r.tag v else s
  | _ => s.answer r status reason data

/-- A routed request has had no response within its 10 ms (R286, R289). -/
def State.unanswered (s : State) (r : Route) : State :=
  match r.use with
  | 1 => (s.endRoute r.rid).scanEnd r.port
  | _ => s.respond r stBUSY rOEM_TIMEOUT []

/-- The position probe of a LOST station (R298); where 64 requests are kept it is turned away (R289). -/
def State.probe (s : State) (n : Nat) : State :=
  if s.staEn n && decide ((s.stn n).st = .lost) && !(s.relays && !s.red.peer) && !s.routesFull then
    s.route (ownRoute 3 n (s.staPort n) (s.staPos n) 3 0x1001 1 0) true
  else s

end Sys2Proof.Machine
end

