-- ==== Sys2Proof/Machine/MbcOps.lean ====
section
/-! DEFINITION. The message bus controllers: modes and error counts (R386, R387), acceptance rules and storing
(R390–R392, R395), the read window (R393, R394), and transmission (R396–R399). -/

namespace Sys2Proof.Machine

def State.modMb (s : State) (k : Nat) (f : Mbc → Mbc) : State := s.setMb k (f (s.mb k))

/-! ### MBC.CFG (R405) -/

def State.mbCfg (s : State) (k : Nat) : Nat := s.ob (K.MBC_CFG (k + 1))
def cfgCompat (v : Nat) : Bool := bit v 18
def cfgRetry (v : Nat) : Nat := bits v 17 14
def cfgByNumber (v : Nat) : Bool := bit v 13
def cfgLock (v : Nat) : Bool := bit v 12
def cfgOvw (v i : Nat) : Bool := bit v (10 + i)
def cfgNomatch (v : Nat) : Nat := bits v 9 8
def cfgRtrAcc (v : Nat) : Bool := bit v 7
def cfgAutoRecover (v : Nat) : Bool := bit v 6
def cfgTest (v : Nat) : Nat := bits v 5 4

/-- Status of a write of MBC.CFG (R387, R394, R405). -/
def State.mbCfgCheck (s : State) (k v : Nat) : Nat :=
  let m := s.mb k
  let old := s.mbCfg k
  let other := putBit v 12 false
  if (m.mode ≠ .config ∧ other ≠ putBit old 12 false) ∨ (m.locked.isSome ∧ bit v 12 ≠ bit old 12) then stSTATE
  else if bits v 9 8 = 3 ∨ bits v 5 4 = 3 then stRESERVED
  else stOK

/-- MBC.NBT in range (R406). -/
def nbtOk (v : Nat) : Bool :=
  let pre := bits v 31 24
  let q := bits v 23 15
  let sp := bits v 14 6
  let sj := bits v 5 0
  decide (1 ≤ pre) && decide (5 ≤ q) && decide (q ≤ 385) && decide (3 ≤ sp) && decide (sp ≤ 383) && decide (sp + 2 ≤ q) &&
    decide (1 ≤ sj) && decide (sp + sj ≤ q) && decide (80 ≤ pre * q)

/-- MBC.DBT in range (R406). -/
def dbtOk (v : Nat) : Bool :=
  let pre := bits v 31 27
  let q := bits v 26 21
  let sp := bits v 20 15
  let sj := bits v 14 11
  decide (1 ≤ pre) && decide (5 ≤ q) && decide (3 ≤ sp) && decide (sp ≤ 61) && decide (sp + 2 ≤ q) && decide (1 ≤ sj) &&
    decide (sp + sj ≤ q) && decide (10 ≤ pre * q)

/-! ### Modes and error counts -/

def MbcMode.code : MbcMode → Nat
  | .config => 0
  | .run => 1
  | .busOff => 2
  | .recovering => 3

/-- ERRSTATE (R404). -/
def Mbc.errState (m : Mbc) : Nat :=
  if m.mode = .busOff ∨ m.mode = .recovering then 2 else if 128 ≤ m.tec ∨ 128 ≤ m.recCnt then 1 else 0

/-- MBC.STATE (R404). -/
def Mbc.state (m : Mbc) : Nat :=
  Nat.min 255 m.tec * 2 ^ 24 + b2n (decide (128 ≤ m.recCnt)) * 2 ^ 23 + Nat.min 127 m.recCnt * 2 ^ 16 + m.lec % 8 * 2 ^ 8 +
    64 * b2n m.locked.isSome + 16 * m.errState + m.mode.code

def Mbc.buf (m : Mbc) (b : Nat) : TxBuf := mget (fun _ => TxBuf.init) m.tx b
def Mbc.setBuf (m : Mbc) (b : Nat) (x : TxBuf) : Mbc := { m with tx := mput (fun _ => TxBuf.init) m.tx b x }

/-- One byte of MBC.TX_STATE (R407). -/
def TxBuf.code (x : TxBuf) : Nat := 128 * b2n x.pend + 32 * x.result + 16 * b2n x.late + 4 * x.cause

def Mbc.txState (m : Mbc) : Nat := (m.buf 0).code + 256 * (m.buf 1).code + 65536 * (m.buf 2).code

/-- Every pending buffer completes with a result and cause (R387). -/
def Mbc.completeAll (m : Mbc) (result cause : Nat) : Mbc :=
  let m := (List.range 3).foldl (fun m b =>
    let x := m.buf b
    if x.pend then m.setBuf b { x with pend := false, result := result, cause := cause } else m) m
  { m with rsp := [], cur := none, tx := m.tx.filter fun e => e.1 ≠ 3 }

/-- A completion of the active partner's is dictated (R338). -/
def State.dictateTx (s : State) (k b stamp : Nat) : State :=
  let x := (s.mb k).buf b
  s.dictate (.txDone k b x.result x.cause stamp)

/-- A standby's pending buffers wait for their dictated completions, marked as ended here (R402). -/
def Mbc.endAll (m : Mbc) (l : List Nat) : Mbc :=
  l.foldl (fun m b => if (m.buf b).pend then m.setBuf b { m.buf b with ended := true } else m) m

/-- Every completion of pending buffers, dictated (R338, R387); a standby's buffers await the dictated ones (R402).
(DEDUCED, unsafe: log 107.) -/
def State.mbComplete (s : State) (k result cause : Nat) : State :=
  if s.red.role = .standby then
    s.modMb k fun m => { m.endAll [0, 1, 2] with
      rsp := []
      cur := none
      tx := (m.endAll [0, 1, 2]).tx.filter fun e => e.1 ≠ 3 }
  else
  let was := (List.range 3).filter fun b => ((s.mb k).buf b).pend
  (s.modMb k fun m => m.completeAll result cause).each was fun s b => s.dictateTx k b 0

/-- Entry into BUS_OFF (R387). -/
def State.busOff (s : State) (k : Nat) : State :=
  let s := s.mbComplete k 3 3
  let s := s.modMb k fun m => { m with mode := .busOff, stopping := false, sdo := none }
  let s := (s.incOb (K.MBC_BUS_OFFS (k + 1))).raise 0x28 k k 0 (s.mb k).state 0
  s.when (cfgAutoRecover (s.mbCfg k)) fun s => s.modMb k fun m => { m with mode := .recovering }

/-- A transmit error count above 255 in RUN (R387). -/
def State.busOffCheck (s : State) (k : Nat) : State := if 255 < (s.mb k).tec then s.busOff k else s

/-- STOP takes effect: CONFIG, pending buffers CANCELLED (R387). -/
def State.mbStop (s : State) (k : Nat) : State :=
  (s.mbComplete k 2 0).modMb k fun m =>
    { m with mode := .config, starting := false, stopping := false, sdo := none }

/-- STOP waits for the end of a frame in progress (R387). -/
def State.mbStopCmd (s : State) (k : Nat) : State :=
  if (s.mb k).cur.isSome then s.modMb k fun m => { m with stopping := true } else s.mbStop k

/-- Status of MBC.CMD (R387). -/
def State.mbCmdCheck (s : State) (k v : Nat) : Nat :=
  let m := s.mb k
  match v with
  | 1 => if m.mode = .config ∧ m.starting = false then stOK else stSTATE
  | 2 => if m.mode = .config ∧ m.starting = false then stSTATE else stOK
  | 3 => if m.mode = .busOff then stOK else stSTATE
  | _ => stOK

/-- UNLOCK: the frame stays at the head of its source (R394). -/
def Mbc.unlock (m : Mbc) : Mbc := { m with locked := none, winUnread := m.winUnread && m.locked.isNone }

/-! ### Rules and storing -/

/-- Data bytes that DLC gives (R389).
(PRESUMED, unsafe: log 57.) -/
def dlcLen (fd : Bool) (d : Nat) : Nat :=
  if d ≤ 8 then d
  else if !fd then 8
  else [12, 16, 20, 24, 32, 48, 64].getD (d - 9) 64

/-- Fields of the acceptance rule at an offset of its table (R390). -/
def ruleMatch (r : List Byte) (at_ i : Nat) : Bool :=
  let c := leAt r at_ 4
  let lo := leAt r (at_ + 4) 4
  let hi := leAt r (at_ + 8) 4
  match bits c 31 28 with
  | 1 => decide (lo ≤ i) && decide (i ≤ hi)
  | 2 => decide (i = lo) || decide (i = hi)
  | 3 => decide (((i ^^^ lo) &&& hi) = 0)
  | 4 => decide (i = lo)
  | _ => false

/-- A rule table of n rules without its reserved bits, 11-bit where std (R43, R390). -/
def rulesPlain (std : Bool) (n : Nat) (r : List Byte) : List Byte :=
  let id := if std then 0x7FF else 0x1FFFFFFF
  (List.range n).flatMap fun k =>
    leBytes 4 (leAt r (12 * k) 4 &&& 0xF0FF0000) ++ leBytes 4 (leAt r (12 * k + 4) 4 &&& id) ++
      leBytes 4 (leAt r (12 * k + 8) 4 &&& id)

/-- Status of a rule table of n rules without reserved bits (R390): a dedicated buffer is the TARGET of no MODE but EXACT. -/
def rulesCheck (n : Nat) (r : List Byte) : Nat :=
  if (List.range n).any fun k =>
    let c := leAt r (12 * k) 4
    let hi := leAt r (12 * k + 8) 4
    let mode := bits c 31 28
    let target := bits c 23 16
    decide (5 ≤ mode) || (decide (0x22 ≤ target) && decide (target ≠ 0xFE)) || (decide (mode = 4) && decide (hi ≠ 0)) ||
      (decide (target < 0x20) && decide (mode ≠ 4))
  then stRESERVED else stOK

/-- The first rule that matches, and its target (R391). -/
def State.ruleOf (s : State) (k : Nat) (ext : Bool) (id : Nat) : Option (Nat × Nat) :=
  let r := s.dom (if ext then K.MBC_RULES_EXT (k + 1) else K.MBC_RULES_STD (k + 1))
  ((List.range (if ext then 64 else 128)).find? fun n => ruleMatch r (12 * n) id).map fun n =>
    (if ext then 128 + n else n, bits (leAt r (12 * n) 4) 23 16)

/-- The stored element of a frame (R389). -/
def elemOf (f : Sys2Proof.CanFrame) (stamp rule : Nat) : Elem :=
  let n := dlcLen f.fd f.dlc
  { stamp := stamp
    id := f.id
    form := rule * 2 ^ 24 + n * 2 ^ 16 + f.dlc * 2 ^ 12 + 32 * b2n (decide (rule = 255)) + 16 * b2n f.passive +
      8 * b2n f.switch + 4 * b2n f.fd + 2 * b2n f.remote + b2n f.ext
    data := if f.remote then List.replicate 64 0 else slice (slice f.data 0 n) 0 64 }

def Mbc.dedBuf (m : Mbc) (n : Nat) : Option Elem := mget (fun _ => none) m.ded n
def Mbc.setDed (m : Mbc) (n : Nat) (x : Option Elem) : Mbc := { m with ded := mput (fun _ => none) m.ded n x }

/-- MBC.BUF_FULL (R403). -/
def Mbc.bufFull (m : Mbc) : Nat := maskOf ((List.range 32).filter fun n => (m.dedBuf n).isSome)

def Mbc.fifo (m : Mbc) (i : Nat) : List Elem := if i = 0 then m.fifo0 else m.fifo1
def Mbc.setFifo (m : Mbc) (i : Nat) (l : List Elem) : Mbc := if i = 0 then { m with fifo0 := l } else { m with fifo1 := l }

/-- A frame goes to its target: stored, true where it was (R392). -/
def State.canStore (s : State) (k target : Nat) (x : Elem) : State × Bool :=
  let m := s.mb k
  let lost := fun (s : State) => s.incOb (K.MBC_RX_LOST (k + 1))
  if target < 0x20 then
    if m.locked = some target then (lost s, false)
    else if (m.dedBuf target).isSome then
      let s := lost (s.modMb k fun m => m.setDed target (some x))
      (s.setOb (K.MBC_BUF_OVR (k + 1)) (putBit (s.ob (K.MBC_BUF_OVR (k + 1))) target true), true)
    else (s.modMb k fun m => m.setDed target (some x), true)
  else
    let i := target - 0x20
    let l := m.fifo i
    if l.length < 64 then (s.modMb k fun m => m.setFifo i (l ++ [x]), true)
    else if cfgOvw (s.mbCfg k) i && decide (m.locked ≠ some target) then
      (lost (s.modMb k fun m => m.setFifo i (l.drop 1 ++ [x])), true)
    else (lost s, false)

/-- The trigger of a stored frame (R395). -/
def canTrigger (k target : Nat) : Nat := 64 * k + target

/-- A frame filtered and stored, its trigger fired, and dictated where the partner is active (R338, R391, R392, R395). -/
def State.canFilter (s : State) (k : Nat) (f : Sys2Proof.CanFrame) (stamp : Nat) : State :=
  if f.remote && !cfgRtrAcc (s.mbCfg k) then s.incOb (K.MBC_RTR_REJECT (k + 1))
  else
    let (rule, target) := match s.ruleOf k f.ext f.id with
      | some r => r
      | none => (255, if cfgNomatch (s.mbCfg k) = 0 then 0x20 else if cfgNomatch (s.mbCfg k) = 1 then 0x21 else 0xFE)
    if target = 0xFE then s
    else
      let (s, ok) := s.canStore k target (elemOf f stamp rule)
      if ok then (s.fire 3 (canTrigger k target)).dictate (.can k f stamp) else s

/-- A partner that is not ACTIVE takes no request and sends no response (R402). -/
def State.sdoQuiet (s : State) : Bool := s.inPair && decide (s.red.role ≠ .active)

/-- The SDO server takes the frame ahead of the rules (R400, R402). -/
def State.sdoTakes (s : State) (k : Nat) (f : Sys2Proof.CanFrame) : Bool :=
  let v := s.ob (K.MBC_SDO (k + 1))
  bit v 7 && decide (bits v 6 0 ≠ 0) && decide (f.id = 0x600 + bits v 6 0) && !f.ext && !f.fd && !f.remote &&
    decide (f.dlc = 8) && !s.sdoQuiet

/-- The errors that LEC names (R404). -/
def lecOk (lec : Nat) : Bool := decide (1 ≤ lec) && decide (lec ≤ 6)

/-- An error seen while receiving (R386, R404): the count goes up by 1, and by 8 for each dominant bit or run of eight that
follows, which no row tells.
(PRESUMED, unsafe: log 57.) -/
def State.rxError (s : State) (k lec : Nat) : State :=
  ((s.incOb (K.MBC_ERRORS (k + 1))).modMb k fun m => { m with
    lec := lec
    recCnt := Nat.min 255 (m.recCnt + 1 + 8 * Config.busMore s.fresh) }).draw

/-- A frame that passes its CRC arrives (R386, R391, R392, R402). -/
def State.canReceive (s : State) (k : Nat) (f : Sys2Proof.CanFrame) (stamp : Nat) : State :=
  if (s.mb k).mode ≠ .run then s
  else if f.fd && f.res then
    if bit (s.mbCfg k) 0 then s.incOb (K.MBC_PROT_EXC (k + 1)) else s.rxError k 2
  else
    let s := (s.incOb (K.MBC_RX_FRAMES (k + 1))).modMb k fun m => { m with
      recCnt := if 127 < m.recCnt then 127 else m.recCnt - 1 }
    if s.sdoTakes k f then s
    else if s.red.role = .standby then s.keepOwn (.can k f stamp)
    else s.canFilter k f stamp

/-! ### Read window -/

def Elem.len (x : Elem) : Nat := bits x.form 22 16

/-- Index of the window's last word (R393). -/
def Elem.lastWord (x : Elem) : Nat := 1 + (x.len + 7) / 8

/-- MBC.RD0–RD9 (R393). -/
def Mbc.rdWord (m : Mbc) (i : Nat) : Nat :=
  match m.win with
  | none => 0
  | some x => if i = 0 then x.stamp else if i = 1 then x.id + x.form * 2 ^ 32 else leAt x.data (8 * (i - 2)) 8

/-- The oldest frame of a source (R393). -/
def Mbc.oldest (m : Mbc) (src : Nat) : Option Elem :=
  if src < 0x20 then m.dedBuf src else (m.fifo (src - 0x20)).head?

/-- The oldest element of a source is freed. -/
def Mbc.free (m : Mbc) (src : Nat) : Mbc :=
  if src < 0x20 then m.setDed src none else m.setFifo (src - 0x20) ((m.fifo (src - 0x20)).drop 1)

/-- Status of MBC.RD_POP (R393, R394). -/
def State.popCheck (s : State) (k v : Nat) : Nat :=
  if 0x21 < v then stRESERVED
  else if ((s.mb k).oldest v).isNone then stSTATE
  else if (s.mb k).locked.isSome then stBUSY
  else stOK

/-- A POP: by copy, or by lock (R393, R394). -/
def State.pop (s : State) (k v : Nat) : State :=
  let m := s.mb k
  let lock := cfgLock (s.mbCfg k)
  let s := s.when (m.winUnread && !lock) fun s => s.incOb (K.MBC_RD_DISCARD (k + 1))
  let s := if v < 0x20 then s.setOb (K.MBC_BUF_OVR (k + 1)) (putBit (s.ob (K.MBC_BUF_OVR (k + 1))) v false) else s
  s.setMb k (if lock then { m with win := m.oldest v, winUnread := true, locked := some v }
    else { m.free v with win := m.oldest v, winUnread := true })

/-- The last word of the window is read: a locked element is freed, a copy is read (R393, R394). -/
def State.lastWordRead (s : State) (k : Nat) : State :=
  s.modMb k fun m =>
    match m.locked with
    | some v => { m.free v with locked := none, winUnread := false }
    | none => { m with winUnread := false }

/-- The read of a window word (R393, R394). -/
def State.rdRead (s : State) (k i : Nat) : State :=
  match (s.mb k).win with
  | some x => if i = x.lastWord ∧ (s.mb k).winUnread = true then s.lastWordRead k else s
  | none => s

/-! ### Transmission -/

/-- Identifier word and form word of a transmit buffer. -/
def State.txId (s : State) (k b : Nat) : Nat := leAt (s.dom (K.MBC_TXBUF b (k + 1))) 8 4
def State.txForm (s : State) (k b : Nat) : Nat := leAt (s.dom (K.MBC_TXBUF b (k + 1))) 12 4

/-- Status of an element written to a transmit buffer (R396). -/
def State.txBufCheck (s : State) (k b : Nat) (d : List Byte) : Nat :=
  let id := leAt d 8 4
  let f := leAt d 12 4
  let ext := bit f 0
  let fd := bit f 2
  let sw := bit f 3
  if ((s.mb k).buf b).pend then stSTATE
  else if (bit f 1 && fd) || (sw && !fd) || bit f 4 || (!ext && decide (2 ^ 11 ≤ id)) || decide (2 ^ 29 ≤ id) ||
      decide (bits f 31 16 ≠ 0) || decide (bits f 11 5 ≠ 0) then stRESERVED
  else if (fd && !bit (s.mbCfg k) 3) || (sw && !bit (s.mbCfg k) 2) then stRANGE
  else stOK

/-- Arbitration order of a frame: the lower wins (R397). -/
def arbKey (id form : Nat) : Nat :=
  if bit form 0 then bits id 28 18 * 2 ^ 21 + 3 * 2 ^ 19 + bits id 17 0 * 2 + b2n (bit form 1)
  else id % 2 ^ 11 * 2 ^ 21 + b2n (bit form 1) * 2 ^ 20

def txBits : List Nat := [0, 1, 2]

/-- Status of MBC.TX_REQ (R397). -/
def State.txReqCheck (s : State) (k v : Nat) : Nat :=
  if (s.mb k).mode = .config then stSTATE
  else if txBits.any fun b => bit v b && ((s.mb k).buf b).pend then stBUSY
  else stOK

/-- Buffers become pending (R397). -/
def State.txReq (s : State) (k v : Nat) : State :=
  s.modMb k fun m => txBits.foldl (fun m b =>
    if bit v b then m.setBuf b { TxBuf.init with pend := true } else m) m

/-- Status of MBC.TX_CANCEL (R399). -/
def State.txCancelCheck (s : State) (k v : Nat) : Nat :=
  if txBits.any fun b => bit v b && !((s.mb k).buf b).pend then stSTATE else stOK

/-- Buffers are cancelled, or marked where their start of frame has passed (R399); a standby's await the dictated completion
(R402).
(DEDUCED, unsafe: log 107.) -/
def State.txCancel (s : State) (k v : Nat) : State :=
  let hit := txBits.filter fun b => bit v b
  if s.red.role = .standby then s.modMb k fun m => m.endAll hit
  else
  let s := s.modMb k fun m => hit.foldl (fun m b =>
    let x := m.buf b
    if m.cur = some b then m.setBuf b { x with late := true }
    else m.setBuf b { x with pend := false, result := 2, late := false }) m
  s.each (hit.filter fun b => !((s.mb k).buf b).pend) fun s b => s.dictateTx k b 0

/-- The buffer that takes the next opportunity; 3 is the SDO response slot (R397, R400). -/
def State.txChoice (s : State) (k : Nat) : Option Nat :=
  let m := s.mb k
  let l := txBits.filter fun b => (m.buf b).pend
  let key := fun b => arbKey (s.txId k b) (s.txForm k b)
  let best := if cfgByNumber (s.mbCfg k) then l.head?
    else l.foldl (fun a b => match a with | none => some b | some c => if key b < key c then some b else some c) none
  if m.rsp = [] ∨ s.sdoQuiet = true then best
  else
    let slot := arbKey (0x580 + bits (s.ob (K.MBC_SDO (k + 1))) 6 0) 0
    match best with
    | none => some 3
    | some b => if key b ≤ slot then some b else some 3

/-- The controller sends frames: in RUN, not monitoring, not on a standby, and no frame of its own in progress
(R386, R402). -/
def State.txMay (s : State) (k : Nat) : Bool :=
  let m := s.mb k
  decide (m.mode = .run) && !m.stopping && decide (cfgTest (s.mbCfg k) ≠ 1) && decide (s.red.role ≠ .standby) &&
    m.cur.isNone

/-- Start of frame of the next attempt (R397). -/
def State.txStart (s : State) (k : Nat) : State :=
  if s.txMay k then s.modMb k fun m => { m with cur := s.txChoice k, curAt := s.ns } else s

/-- The frame that a transmit buffer sends. -/
def State.txFrame (s : State) (k b : Nat) : Sys2Proof.CanFrame :=
  let f := s.txForm k b
  { ext := bit f 0, id := s.txId k b, remote := bit f 1, fd := bit f 2, switch := bit f 3, passive := false,
    dlc := bits f 15 12, data := ((s.dom (K.MBC_TXBUF b (k + 1))).drop 16).take (dlcLen (bit f 2) (bits f 15 12)),
    res := false }

/-- STAMP of a sent buffer (R389, R398). -/
def State.txStamp (s : State) (k b stamp : Nat) : State :=
  s.setDom (K.MBC_TXBUF b (k + 1)) (patch (s.dom (K.MBC_TXBUF b (k + 1))) 0 (leBytes 8 stamp))

/-- The frame that the SDO response slot sends (R400). -/
def State.rspFrame (s : State) (k : Nat) : Sys2Proof.CanFrame :=
  { ext := false, id := 0x580 + bits (s.ob (K.MBC_SDO (k + 1))) 6 0, remote := false, fd := false, switch := false,
    passive := false, dlc := 8, data := slice ((s.mb k).rsp.headD []) 0 8, res := false }

/-- A successful attempt; in internal loopback the controller receives its own frame (R391, R398). -/
def State.txSuccess (s : State) (k b : Nat) : State :=
  let at_ := (s.mb k).curAt
  let s := s.incOb (K.MBC_TX_FRAMES (k + 1))
  let s := s.modMb k fun m => { m with tec := m.tec - 1, cur := none }
  let own := if b = 3 then s.rspFrame k else s.txFrame k b
  let s := if b = 3 then s.modMb k fun m => { (m.setBuf 3 TxBuf.init) with rsp := m.rsp.drop 1 }
    else
      let s := s.modMb k fun m => m.setBuf b { m.buf b with pend := false, result := 1 }
      (s.txStamp k b at_).dictateTx k b at_
  s.when (decide (cfgTest (s.mbCfg k) = 2)) fun s => s.canReceive k own at_

/-- A failed attempt: lost arbitration (cause 1) or an error (cause 2) (R398, R399, R400).
(PRESUMED, unsafe: log 57.) -/
def State.txFail (s : State) (k b cause : Nat) : State :=
  let cfg := s.mbCfg k
  let x := (s.mb k).buf b
  let x := { x with fails := x.fails + 1 }
  let s := s.modMb k fun m => { m with cur := none }
  if b = 3 then
    if cfgCompat cfg || decide (cfgRetry cfg < x.fails) then s.modMb k fun m => { (m.setBuf 3 TxBuf.init) with rsp := m.rsp.drop 1 }
    else s.modMb k fun m => m.setBuf 3 x
  else if x.late then
    (s.modMb k fun m => m.setBuf b { x with pend := false, result := 2, cause := cause }).dictateTx k b 0
  else if !cfgCompat cfg && decide (cfgRetry cfg < x.fails) then
    (s.modMb k fun m => m.setBuf b { x with pend := false, result := 3, cause := cause }).dictateTx k b 0
  else s.modMb k fun m => m.setBuf b x

/-- What a transmit error adds to the count: nothing for an acknowledgement error when error passive, nor for a stuff error in the
arbitration field; else 8, and 8 more for each run of dominant bits that follows, which no row tells (R386).
(PRESUMED, unsafe: log 57.) -/
def State.tecAdd (s : State) (lec tec : Nat) : Nat :=
  if (lec = 3 ∧ 128 ≤ tec) ∨ (lec = 1 ∧ Config.arbStuff s.fresh = true) then 0 else 8 + 8 * Config.busMore s.fresh

/-- The end of an attempt (R387, R398); an error is one of those that LEC names (R404). -/
def State.txEnd (s : State) (k : Nat) (r : Sys2Proof.TxEnd) : State :=
  match (s.mb k).cur with
  | none => s
  | some b =>
    let s := match r with
      | .success => s.txSuccess k b
      | .arbLost => (s.incOb (K.MBC_ARB_LOST (k + 1))).txFail k b 1
      | .error lec =>
        if lecOk lec then
          let s := s.incOb (K.MBC_ERRORS (k + 1))
          let s := (s.modMb k fun m => { m with lec := lec, tec := m.tec + s.tecAdd lec m.tec }).draw
          s.txFail k b 2
        else s
    if (s.mb k).cur.isSome then s
    else
      let stop := (s.mb k).stopping
      let s := s.busOffCheck k
      if stop then s.mbStop k else s

/-- A dictated completion of a standby's buffer (R402). -/
def State.txDictated (s : State) (k b result cause stamp : Nat) : State :=
  let x := (s.mb k).buf b
  if x.pend then
    let s := s.modMb k fun m => m.setBuf b { x with
      pend := false
      result := result
      cause := cause
      ended := false }
    if result = 1 then s.txStamp k b stamp else s
  else s

/-- A partner that becomes ACTIVE completes the buffers that it ended as a standby and that no dictation completed.
(DEDUCED, unsafe: log 107.) -/
def State.mbEnded (s : State) : State :=
  s.each [0, 1, 2, 3] fun s k => s.each txBits fun s b =>
    if ((s.mb k).buf b).pend && ((s.mb k).buf b).ended then
      s.modMb k fun m => m.setBuf b { m.buf b with
        pend := false
        result := 2
        ended := false }
    else s

/-- The 80 bytes of a transmit element, data beyond the length that DLC gives at 0 (R389). -/
def elemPlain (b : List Byte) : List Byte :=
  let f := leAt b 12 4
  slice ((slice b 0 16) ++ (b.drop 16).take (dlcLen (bit f 2) (bits f 15 12))) 0 80

/-- MBC.SDO (R403). -/
def sdoCfgCheck (v : Nat) : Nat :=
  if bit v 7 ∧ bits v 6 0 = 0 then stRESERVED
  else if bits v 31 16 < 10 ∨ 60000 < bits v 31 16 then stRANGE
  else stOK

end Sys2Proof.Machine
end

