-- ==== Sys2Proof/Machine/RedOps.lean ====
section
/-! DEFINITION. The pair: roles (R335), agreement (R336, R337), dictated inputs (R338), output comparison (R341, R342),
the grant (R346), the witness (R347–R349), failover (R351, R352), resynchronisation (R355, R356), switchovers, drills
and returns (R357, R358). -/

namespace Sys2Proof.Machine

/-! ### Roles -/

/-- The partner is the one that PREF names. -/
def State.preferred (s : State) : Bool := decide (s.redPref = s.redId + 1)

/-- PREF differs between the partners (R358). -/
def State.prefMismatch (s : State) : Bool := s.red.peer && decide (s.red.peerSt.pref ≠ s.redPref)

/-- The return hold-off runs: the preferred partner is STANDBY, and the other one is ACTIVE and knows it (R358). -/
def State.holdoffRuns (s : State) : Bool :=
  !s.prefMismatch && ((decide (s.red.role = .standby) && s.preferred) ||
    (decide (s.red.role = .active) && s.peerStandby && decide (s.redPref ≠ 0) && !s.preferred))

/-- The return hold-off starts again from RED.RETURN_HOLDOFF (R358). -/
def State.reHoldoff (s : State) : State :=
  s.setRed fun r => { r with
    holdoff := if s.holdoffRuns then some (s.ntm.mono + s.ob K.RED_RETURN_HOLDOFF * 1000000000) else none }

/-- The drill timer starts from RED.DRILL_INTERVAL; 0 disables drills (R357, R360).
(DEDUCED, unsafe: log 121.) -/
def State.drillArm (s : State) : State :=
  s.setRed fun r => { r with
    drillAt := if s.ob K.RED_DRILL_INTERVAL = 0 then none
      else some (s.ntm.mono + s.ob K.RED_DRILL_INTERVAL * 3600000000000) }

/-- ROLE takes a new value with a reason (R335). -/
def State.setRole (s : State) (x : Role) (reason : Nat) : State :=
  ((s.setRed fun r => { r with role := x, reason := reason }).reHoldoff).reclaim

/-- UNSYNCED begins a resynchronisation, by command or by itself where AUTO_RESYNC is armed (R335, R355). -/
def State.startResync (s : State) : State :=
  (s.setRed fun r => { r with pass := 0, finalWait := false }).setRole .resync s.red.reason

/-- RESYNC needs an UNSYNCED partner whose peer is ACTIVE (R355). -/
def State.resyncCheck (s : State) : Nat :=
  if s.str.service = false ∧ s.red.role = .unsynced ∧ s.red.peer = true ∧ s.red.peerSt.role = 5 then stOK else stSTATE

def State.maybeResync (s : State) : State :=
  if s.autoResync && decide (s.resyncCheck = stOK) then s.startResync else s

/-- Memories that a resynchronisation copies, as ranges of memory keys: data SRAM and timer array of every fitted Strand, the
Headland's image and global SRAM, and Bedrock's retained ranges and timer pages; program banks only where the partners'
OLC.ACTIVE_HASH differs (R355). -/
def State.syncRanges (s : State) (prog : Bool) : List (Nat × Nat) :=
  (s.strands.flatMap fun n =>
    [(mData n, 0x400000), (mTimer n, 0x40000)] ++ if prog then [(s.activeBank n, 0x400000)] else []) ++
    [(mHead, 0x1000000)] ++ s.olc.mapBed.map (fun r => (mBed + r.1, r.2)) ++
    s.strands.map fun n => (mBed + 4096 * s.retBase n, 4096 * s.retBlocks n)

/-- Blocks of those memories, by memory key ÷ 4,096. -/
def State.syncBlocks (s : State) : List Nat :=
  (s.syncRanges s.red.progSync).flatMap fun r => (List.range ((r.1 % 4096 + r.2 + 4095) / 4096)).map fun i => r.1 / 4096 + i

/-- The blocks written since the present pass began: those whose bytes differ (R356).
(DEDUCED, unsafe: log 104.) -/
def State.dirtyBlocks (s : State) : List Nat :=
  let old := s.red.passMem
  let moved := ((s.mem.filter fun c => !old.contains c) ++ old.filter fun c => !s.mem.contains c).map fun c => c.1 / 4096
  s.syncBlocks.filter moved.contains

/-- One entry of STR.RECORD (R259). -/
def Attempt.bytes (a : Attempt) : List Byte :=
  leBytes 4 a.secs ++ leBytes 1 a.typ ++ leBytes 1 a.result ++ leBytes 1 a.step ++ leBytes 1 a.reason ++ slice a.hash 0 8

/-- OLC.RESULT (R258). -/
def Olc.resultReg (o : Olc) : Nat :=
  o.dies * 2 ^ 40 + Nat.min 255 o.disabled * 2 ^ 32 + o.detail * 2 ^ 24 + o.reason * 2 ^ 16 + o.status % 256

/-- The bytes of STR.RECORD (R259). -/
def Str.recordBytes (r : Str) : List Byte := (r.recs.map Attempt.bytes).flatten ++ List.replicate (256 - 16 * r.recs.length) 0

/-- The scalar objects of the station table, TDS, TSK and TMR (R355). -/
def syncKeys : List Nat :=
  [0x20, 0x21, 0x23, 0x40].flatMap fun hi =>
    ((blockRows hi).filter fun r => decide (r.ty ≠ .dom) && decide (r.ty ≠ .oct) && decide (r.acc ≠ .wo)).flatMap fun r =>
      (List.range (r.ihi + 1 - r.ilo)).flatMap fun i => (List.range (r.shi + 1 - r.slo)).map fun j =>
        (r.ilo + i) * 256 + (r.slo + j)

/-- Owner tags and task tables (R355). -/
def State.progState (s : State) : List Resync :=
  ((List.range 16384).map fun l => Resync.owner l (s.owner l)) ++
    (List.range 256).flatMap fun t =>
      [.dom 0x2105 t (s.dom (K.TSK_SECTIONS t)), .dom 0x2106 t (s.dom (K.TSK_LISTS t))]

/-- What a resynchronisation copies beside memory: the force table, the objects of the station table, TDS, TSK and TMR, and the
STR and OLC records; owner tags and task tables only where OLC.ACTIVE_HASH differs (R355).
(DEDUCED, unsafe: log 53.) -/
def State.syncState (s : State) : List Resync :=
  (syncKeys.map fun k => .obj (k / 256) (k % 256) (s.ob k)) ++
    [.forces s.img.forces, .dom 0x1302 0 s.str.recordBytes, .obj 0x2400 3 s.olc.resultReg,
      .dom 0x2403 2 (s.dom K.OLC_ACTIVE_HASH)] ++ if s.red.progSync then s.progState else []

/-- Blocks of memory as they stand (R356). -/
def State.blockData (s : State) (l : List Nat) : List Resync := l.map fun b => .mem b (s.bytesAt (4096 * b) 4096)

/-- A pass of the active partner begins: what it copies goes to the peer, and what is written from now on is dirty (R356). -/
def State.passSend (s : State) (n : Nat) (data : List Resync) : State :=
  (s.moorSend (.pass n data)).setRed fun r => { r with passMem := s.mem }

/-- The active partner begins pass 0 with a peer in RESYNC: it copies every block, and the state beside memory (R355, R356).
(DESIGN CHOICE, safe: log 122.) -/
def State.passBegin (s : State) : State :=
  if s.red.role = .active then
    let s := (s.setRed fun r => { r with
      pass := 0
      finalWait := false
      progSync := decide (Config.peerHash s.fresh ≠ s.dom K.OLC_ACTIVE_HASH) }).draw
    s.passSend 0 (s.blockData s.syncBlocks ++ s.syncState)
  else s

/-- In the slack window of the final pass the active partner copies the blocks that are left, the state beside memory, the task
states and TDS.TIDE (R355, R356).
(DEDUCED, unsafe: log 53.) -/
def State.finalSend (s : State) : State :=
  s.passSend s.red.pass (s.blockData s.dirtyBlocks ++ s.syncState ++
    ((s.usedTasks.filter fun t => decide (t ≠ 0)).map fun t => .task t (decide ((s.task t).st = .disabled))) ++
    [.tide (s.ob K.TDS_TIDE64)])

/-- UNSYNCED, with the reason recorded (R335). -/
def State.toUnsynced (s : State) (reason : Nat) : State :=
  ((s.setRed fun r => { r with giving := false, taking := false, swapDue := false, swap := none }).setRole .unsynced reason).maybeResync

/-! ### Dictated inputs (R338) -/

/-- What is kept for 50 µs. -/
def recent (now : Nat) (l : List OwnEv) : List OwnEv := l.filter fun e => decide (now ≤ e.at_ + 50000)

def State.noteDictated (s : State) (d : Sys2Proof.Dict) : State :=
  s.setRed fun r => { r with
    own := recent s.ntm.mono r.own
    dictated := recent s.ntm.mono r.dictated ++ [{ at_ := s.ntm.mono, ev := d }] }

/-- The release decision for a trigger that reached the Headland at ns count cause: held during a commit (R240), else its tasks are
released, and the release is dictated (R148, R149, R338). -/
def State.decideTrigger (s : State) (cause cls num : Nat) : State :=
  if s.tds.st ≠ .running then s
  else if s.tds.hold then s.setTds fun d => { d with heldEv := d.heldEv ++ [(cls, num, cause)] }
  else (s.releaseAll cause (s.boundTasks cls num)).dictate (.release cls num (s.ob K.TDS_TIDE) s.tds.seq)

/-- The event hold ends and what it held is decided (R240). -/
def State.releaseHeld (s : State) (count : Bool) : State :=
  let l := s.tds.heldEv
  let s := s.setTds fun d => { d with hold := false, heldEv := [] }
  s.each l fun s e => (if count then s.incOb K.OLC_HELD_EVENTS else s).decideTrigger e.2.2 e.1 e.2.1

/-- The standby takes up a dictated input (R338, R372, R402). -/
def State.takeDictated (s : State) (d : Sys2Proof.Dict) : State :=
  let s := s.noteDictated d
  match d with
  | .inputLine b => (s.setFio fun f => { f with dictLine := some (slice b 0 64) }).putLine (slice b 0 64)
  | .edge n up stamp => s.logEdge n up stamp
  | .can k f stamp => s.canFilter k f stamp
  | .txDone k b result cause stamp => s.txDictated k b result cause stamp
  | .ebbCount c => s.setOb K.CAL_EBB_COUNT c
  | .release cls num _ _ => s.decideTrigger s.ns cls num

def near (lim a b : Nat) : Bool := decide (a ≤ b + lim) && decide (b ≤ a + lim)

/-- An input of the standby's own matches a dictated one (R351). -/
def dictMatch (o e : OwnEv) : Bool :=
  match o.ev, e.ev with
  | .release c n _ _, .release c' n' _ _ => decide (c = c') && decide (n = n') && near 2000 o.at_ e.at_
  | .can k f st, .can k' f' st' => decide (k = k') && decide (f.id = f'.id) && decide (f.ext = f'.ext) &&
      decide (f.data = f'.data) && near 10000 st st'
  | _, _ => false

/-- Triggers and frames of the last 50 µs that match no dictated one are released and stored (R351). -/
def State.ownUnmatched (s : State) : State :=
  let seen := s.red.dictated
  let l := (recent s.ntm.mono s.red.own).filter fun o => !seen.any (dictMatch o)
  let s := s.setRed fun r => { r with own := [], dictated := [] }
  s.each l fun s o =>
    match o.ev with
    | .release c n _ _ => s.decideTrigger s.ns c n
    | .can k f st => s.canFilter k f st
    | _ => s

/-! ### The grant (R345, R346) -/

/-- The slack point of this tide has passed. -/
def State.slackPassed (s : State) : Bool := s.tds.slacked

/-- A standby that has voted for a change and holds no commit token takes the grant with the old program: the change is lost
whole, and the event releases it held are decided (R246).
(DEDUCED, unsafe: log 103.) -/
def State.changeLost (s : State) : State :=
  if s.olc.voted then
    State.releaseHeld { s with olc := { s.olc with
      voted := false
      cand := none
      st := if s.olc.st = .prepared then .idle else s.olc.st } } false
  else s

/-- The outputs of a new active partner refresh at the slack point plus Δ (R352). -/
def State.lateRefresh (s : State) : State := (s.reach (s.slackPointAt + s.red.shift)).fioRefresh s.grantHeld

/-- A standby becomes active: its own unmatched inputs are released and stored, and, unless the change is planned, the takeover
train leaves (R351, R352). -/
def State.becomeActive (s : State) : State :=
  let planned := s.red.taking
  let s := ((s.setRole .active 0).setRed fun r => { r with changeTide := some (s.ob K.TDS_TIDE) }).changeLost.mbEnded.ownUnmatched
  if planned then s
  else
    let s := s.incOb K.RED_FAILOVERS
    let (s, d) := if s.tds.launched then s.takeover s.red.peerSt.done else (s, 0)
    let s := (s.setOb K.RED_LAST_FAILOVER d).setRed fun r => { r with shift := d }
    if s.slackPassed then s.lateRefresh else s

/-- JOINING ends in ACTIVE with a grant in force while the peer is absent or not ACTIVE and no mismatch bars the join (R331,
R335). -/
def State.joinGrant (s : State) : State :=
  if s.red.role = .joining ∧ s.red.grant = true ∧ (s.red.peer && decide (s.red.peerSt.role = 5)) = false ∧
      s.red.reason ≠ 1 ∧ s.red.reason ≠ 2 then s.setRole .active 0
  else s

/-- A grant comes into force (R335, R346). -/
def State.gainGrant (s : State) : State :=
  let s := s.setRed fun r => { r with grant := true, fenced := false, frozen := false }
  match s.red.role with
  | .standby => s.becomeActive.reclaim
  | _ => s.joinGrant.reclaim

/-- The grant in force ends: Breakwater is parked, and an active partner leaves its role, in a tide of a changeover (R335, R346,
R352, R375). -/
def State.loseGrant (s : State) : State :=
  if s.red.grant = false then s
  else
    let planned := s.red.giving || decide (s.red.swapTide = some (s.ob K.TDS_TIDE))
    let s := (s.setRed fun r => { r with
      grant := false
      frozen := false
      changeTide := if r.role = .active then some (s.ob K.TDS_TIDE) else r.changeTide }).sendPark
    if s.red.role = .active then (if planned then s.setRole .standby 0 else s.toUnsynced 0) else s.reclaim

/-- A VALID that waits for the peer's grant to end (R346). -/
def State.unfence (s : State) : State :=
  if s.red.fenced && !(s.red.peer && s.red.peerSt.grant) then s.gainGrant else s

/-- The state of a pair of lines (R345). -/
def pairOf (g gn : Bool) : PairSt :=
  match g, gn with
  | true, false => .valid
  | false, true => .denied
  | _, _ => .invalid

/-- A frozen grant stays in force while the peer is present and reports no VALID pair; with the peer absent it stays only where
FREEZE_ALONE is 1 (R346). -/
def State.frozenHolds (s : State) : Bool :=
  if s.red.peer then decide (s.red.peerSt.pair ≠ 1) else s.freezeAlone

/-- A frozen grant that nothing keeps in force ends (R346). -/
def State.thaw (s : State) : State := if s.red.grant && s.red.frozen && !s.frozenHolds then s.loseGrant else s

/-- A new pair state is accepted, in every role of a partner (R346). -/
def State.pairAccept (s : State) (p : PairSt) : State :=
  if s.redMode ≠ 1 ∨ s.red.pair = p then s
  else
    let was := s.red.pair
    let s := s.setRed fun r => { r with pair := p }
    match p with
    | .valid =>
      if s.red.peer && s.red.peerSt.grant then
        ((s.loseGrant.setRed fun r => { r with fenced := true }).reclaim).raise 0x13 0xFFFF 0xFFFF 0 (s.ob K.TDS_TIDE) 0
      else s.gainGrant
    | .denied => (s.setRed fun r => { r with fenced := false }).loseGrant
    | .invalid =>
      let s := s.setRed fun r => { r with fenced := false, frozen := r.grant && decide (was = .valid) }
      (s.raise 0x14 0 0 0 s.redState 0).thaw

/-! ### Status messages (R333, R334) -/

/-- The status message this partner sends. -/
def State.myStatus (s : State) : Status :=
  { role := s.red.role.code, pair := s.red.pair.code, grant := s.red.grant, tide := s.ob K.TDS_TIDE,
    done := (List.range 16).map fun p => s.sentIndex p, part := s.part.code,
    fitted := s.part.fitted, pairId := s.ob K.HNW_PAIR_ID, id := s.redId, pref := s.redPref }

/-- Reason why two packages form no pair: PART, PAIR_ID, or none (R331). -/
def State.mismatch (s : State) (m : Status) : Nat :=
  if m.part ≠ s.part.code ∨ m.fitted ≠ s.part.fitted then 1
  else if m.pairId ≠ s.ob K.HNW_PAIR_ID ∨ m.id = s.redId then 2
  else 0

/-- The state of a mooring link (R334, R363). -/
def State.linkState (s : State) (link : Nat) : Nat := mget (fun _ => 0) s.red.linkSt link

/-- A DOWN link has trained lanes again: TRAINING until a good message comes over it (R334, R363).
(DEDUCED, unsafe: log 123.) -/
def State.mooringTrained (s : State) (link lanes : Nat) : State :=
  if s.linkState link = 0 then
    s.setRed fun r => { r with
      linkSt := mput (fun _ => 0) r.linkSt link 1
      lanes := mput (fun _ => 0) r.lanes link lanes }
  else s

/-- A link comes up, or back up with a record (R334).
(DEDUCED, unsafe: log 50.) -/
def State.mooringUp (s : State) (link lanes : Nat) : State :=
  if s.linkState link = 2 then s
  else
    let back := bit s.red.wasDown link
    let s := s.setRed fun r => { r with
      linkSt := mput (fun _ => 0) r.linkSt link 2
      lanes := if s.linkState link = 1 then r.lanes else mput (fun _ => 0) r.lanes link lanes
      wasDown := putBit r.wasDown link false }
    s.when back fun s => s.raiseSt 0x11 link true 1

/-- A link goes down, once (R334).
(DEDUCED, unsafe: log 50.) -/
def State.mooringDown (s : State) (link : Nat) : State :=
  if s.linkState link = 0 then s
  else
    let up := decide (s.linkState link = 2)
    let s := s.setRed fun r => { r with
      linkSt := mput (fun _ => 0) r.linkSt link 0
      lanes := mput (fun _ => 0) r.lanes link 0
      wasDown := putBit r.wasDown link true }
    s.when up fun s => s.raiseSt 0x11 link false 0

/-- A good status message (R331, R334, R335, R346).
(DEDUCED, unsafe: log 50.) -/
def State.statusReceive (s : State) (m : Status) : State :=
  if s.inPair = false ∨ s.red.stop then s
  else
    let bad := s.mismatch m
    if bad ≠ 0 then (s.setRed fun r => { r with reason := bad }).reclaim
    else
      let began := decide (m.role = 3) && !(s.red.peer && decide (s.red.peerSt.role = 3))
      let moved := !s.red.peer || decide (s.red.peerSt.role ≠ m.role)
      let s := s.setRed fun r => { r with peer := true, peerSt := m }
      let s := s.when moved State.reHoldoff
      let s := s.when began State.passBegin
      let s := if s.red.role = .joining ∧ (s.red.reason = 1 ∨ s.red.reason = 2) then
        s.setRed fun r => { r with reason := 0 } else s
      let s := if s.prefMismatch then s.setRed fun r => { r with reason := 8, holdoff := none } else s
      let s := if s.red.role = .joining ∧ m.role = 5 then s.setRole .unsynced s.red.reason else s
      let s := s.unfence
      let s := s.thaw
      let s := if s.red.role = .standby ∧ m.role ≠ 5 ∧ s.red.pair ≠ .valid ∧ s.red.taking = false ∧ m.pair ≠ 1 ∧
          m.role ≠ 4 then s.toUnsynced 5 else s
      s.joinGrant.reclaim

/-- The peer is judged absent; the partner that is ACTIVE records nothing of it (R334, R335, R346, R354). -/
def State.peerAbsent (s : State) : State :=
  if s.red.peer = false then s
  else
    let s := s.setRed fun r => { r with peer := false }
    let s := s.when (decide (s.red.role ≠ .active)) fun s => s.raise 0x10 0 0 0 (s.ob K.TDS_TIDE) s.redState
    let s := if s.red.role = .resync then s.toUnsynced 5 else s
    s.thaw.unfence.joinGrant.reclaim

/-- LEAVE: OFF, and the interlock outputs at their reset levels (R335). -/
def State.redLeave (s : State) : State :=
  let s := (s.setRed fun r => { r with grant := false, frozen := false, fenced := false, swap := none, giving := false,
                                       swapDue := false, drillAt := none, taking := false,
                                           finalWait := false }).when s.red.grant State.sendPark
  s.setRole .off 0

/-! ### Input agreement (R336, R337) -/

/-- Partitions whose digests differ. -/
def differing (a b : List Nat) : List Nat :=
  (List.range 128).filter fun p => decide (a.getD p 0 ≠ b.getD p 0)

/-- The 4 KiB of an input partition as the next flood start makes it current (R185). -/
def State.partBytes (s : State) (p : Nat) : List Byte := (List.range 64).flatMap fun i => s.nextLine (64 * p + i)

/-- The active partner sends the partitions that differ, in ascending order, once its own digests and the standby's are there
(R336). -/
def State.agreeSend (s : State) : State :=
  match s.red.peerDig with
  | some (t, _, parts) =>
    if s.red.role = .active ∧ t = s.ob K.TDS_TIDE ∧ s.red.digSent = some t then
      let l := differing s.inParts parts
      let s := (s.addOb K.RED_AGREE_PARTS l.length).setRed fun r => { r with peerDig := none }
      s.each l fun s p => s.moorSend (.partition t p (s.partBytes p))
    else s
  | none => s

/-- The standby sends AGREED once its image digest equals the active partner's. -/
def State.agreeCheck (s : State) : State :=
  match s.red.peerDig with
  | some (t, image, _) =>
    if s.red.role = .standby ∧ t = s.ob K.TDS_TIDE ∧ s.red.digSent = some t ∧ s.tds.flooded = false ∧
        s.inDigest = image then
      (s.setRed fun r => { r with agreedSent := some t }).moorSend (.agreed t)
    else s
  | none => s

/-- Input is complete: the partner sends its digests (R336). -/
def State.inputComplete (s : State) : State :=
  let s := s.stageBitmap.setTds fun d => { d with inputDone := true }
  if s.inPair then
    let t := s.ob K.TDS_TIDE
    let s := s.moorSend (.inDigest t s.inDigest s.inParts)
    ((s.setRed fun r => { r with digSent := some t }).agreeSend).agreeCheck
  else s

/-- Input is complete as soon as every expected frame has arrived (R142). -/
def State.inputCheck (s : State) : State :=
  if s.tideOn && !s.tds.inputDone && !s.tds.flooded && !s.tds.first && s.allArrived then s.inputComplete else s

/-- The peer's input digests arrive. -/
def State.digestReceive (s : State) (t image : Nat) (parts : List Nat) : State :=
  if s.inPair then ((s.setRed fun r => { r with peerDig := some (t, image, parts) }).agreeSend).agreeCheck else s

/-- A partition of the active partner's image replaces the standby's (R336). -/
def State.partReceive (s : State) (t part : Nat) (data : List Byte) : State :=
  if s.red.role = .standby ∧ t = s.ob K.TDS_TIDE ∧ s.tds.flooded = false ∧ part < 128 then
    ((s.putBytes (mAsm + 4096 * part) (slice data 0 4096)).pendLines (4096 * part) 4096).agreeCheck
  else s

/-- An agreement unfinished at FLOOD_LATEST (R337). -/
def State.agreeLate (s : State) : State :=
  if s.agreementDone then s
  else
    let s := s.setRed fun r => { r with lateTide := some (s.ob K.TDS_TIDE) }
    if s.red.role = .standby then (s.incOb K.RED_AGREE_LATE).toUnsynced 3 else s

/-! ### Output comparison (R341, R342) -/

/-- A divergence of tide t, on both partners; kind 1 output hash, 2 commit token missing (R246, R341). -/
def State.divergence (s : State) (t : Nat) (parts : List Nat) (kind : Nat) : State :=
  let s := (s.incOb K.RED_DIVERGENCES).setOb K.RED_LAST_DIV t
  let s := s.setDom K.RED_DIV_PARTS (leBytes 16 (maskOf parts))
  let s := s.setRed fun r => { r with divTide := some t }
  (s.raise 0x12 0 0 0 t kind).reHoldoff

/-- What the standby does about a divergence (R342). -/
def State.divPolicy (s : State) : State :=
  if s.red.role ≠ .standby then s
  else match s.divPol with
    | 1 => s.toUnsynced 4
    | 2 =>
      let s := s.toUnsynced 4
      if s.resyncCheck = stOK then s.startResync else s
    | _ => s

/-- Both partners' digests of a tide are compared once both are there. -/
def State.compareOut (s : State) : State :=
  match s.red.myOut, s.red.outDig with
  | some (t, a, ps), some (u, b, qs) =>
    if t = u then
      let s := s.setRed fun r => { r with outDig := none, myOut := none }
      if s.red.changeTide = some t ∨ s.red.swap = some t ∨ s.red.lateTide = some t ∨ (a = b ∧ differing ps qs = []) then s
      else if s.red.role = .standby ∨ (s.red.role = .active ∧ s.peerStandby = true) then
        (s.divergence t (differing ps qs) 1).divPolicy
      else s
    else s
  | _, _ => s

/-- The partner's digests after the cut copy (R341). -/
def State.outDigestSend (s : State) : State :=
  if s.inPair then
    let p := s.outParts
    let t := s.ob K.TDS_TIDE
    let s := s.moorSend (.outDigest t (xorAll p) p)
    (s.setRed fun r => { r with myOut := some (t, xorAll p, p) }).compareOut
  else s

def State.outDigestReceive (s : State) (t image : Nat) (parts : List Nat) : State :=
  if s.inPair then (s.setRed fun r => { r with outDig := some (t, image, parts) }).compareOut else s

/-! ### Switchovers, drills and returns (R357, R358) -/

/-- A divergence in the last 16 tides. -/
def State.divRecent (s : State) : Bool :=
  match s.red.divTide with
  | some t => decide (sub32 (s.ob K.TDS_TIDE) t < 16)
  | none => false

def State.swapFree (s : State) : Bool :=
  decide (s.red.role = .active) && s.peerStandby && !s.divRecent && decide (s.olc.st ≠ .committing)

/-- The active partner sends a swap token for two tides ahead. -/
def State.swapStart (s : State) : State :=
  let t := (s.ob K.TDS_TIDE + 2) % 2 ^ 32
  (s.setRed fun r => { r with swap := some t, swapWant := false }).moorSend (.swapToken t)

/-- A drill or return: started, or postponed by one tide and counted. -/
def State.drill (s : State) : State :=
  if s.red.role ≠ .active ∨ s.prefMismatch = true then s
  else if s.swapFree then s.swapStart
  else (s.setRed fun r => { r with swapWant := true }).incOb K.RED_SWAP_DEFERRED

/-- A command to RED.CMD (R335, R355, R357). -/
def State.redCmdCheck (s : State) (v : Nat) : Nat :=
  match v with
  | 2 => s.resyncCheck
  | 3 => if s.swapFree then stOK else stSTATE
  | 4 => if s.red.role ≠ .active ∨ s.prefMismatch = true then stSTATE else stOK
  | _ => stOK

def State.redCmd (s : State) (v : Nat) : State :=
  match v with
  | 1 => s.redLeave
  | 2 => s.startResync
  | 3 => s.swapStart
  | _ => s.drill

/-- The swap token names a tide to the standby. -/
def State.swapToken (s : State) (t : Nat) : State :=
  if s.red.role = .standby then s.setRed fun r => { r with swap := some (t % 2 ^ 32) } else s

/-- A SLACK or SCHEDULE frame, of those that need the grant (R346). -/
def TxF.granted (f : TxF) : Bool := decide (f.kind = .slack) || decide (f.kind = .schedule)

/-- Elapsed time at which the last SLACK and SCHEDULE frames have left every field port. -/
def State.framesEnd (s : State) : Nat :=
  (((List.range 16).filter fun p => (mget (fun _ => TxF.init) s.hnw.lastTx p).granted).map s.busyEnd).foldl Nat.max 0

/-- Once its last SLACK and SCHEDULE frames have left, the active partner stops dictating and gives CLAIM up (R357). -/
def State.swapGive (s : State) : State :=
  if s.red.swapDue && (List.range 16).all fun p => !(s.queue p).any TxF.granted then
    let s := s.reachMono s.framesEnd
    (s.setRed fun r => { r with swapDue := false, giving := true, mute := some (s.ob K.TDS_TIDE) }).reclaim
  else s

/-- The slack point of the tide a swap token named: the standby claims, and the active partner is to give up (R357). -/
def State.swapClaim (s : State) : State :=
  if s.red.swap = some (s.ob K.TDS_TIDE) then
    let here := s.ob K.TDS_TIDE
    (s.setRed fun r => { r with
      swapDue := decide (r.role = .active)
      taking := decide (r.role = .standby)
      mute := if r.role = .active then r.mute else some here
      changeTide := some here
      swapTide := some here }).reclaim.swapGive
  else s

/-- The decision 20 µs after the slack point: where the grant has not moved, the old holder claims again. -/
def State.switchoverDecide (s : State) : State :=
  if s.red.giving || s.red.swapDue then
    if s.red.grant then
      let s := s.setRed fun r => { r with giving := false, swapDue := false, swap := none, mute := none, reason := 9 }
      (s.incOb K.RED_SWAP_FAILS).reclaim
    else
      let s := s.setRed fun r => { r with giving := false, swapDue := false, swap := none }
      (if s.red.role = .active then s.setRole .standby 0 else s.reclaim).incOb K.RED_SWITCHOVERS
  else if s.red.taking then
    let s := s.setRed fun r => { r with taking := false, swap := none }
    let s := s.when (decide (s.red.role = .active)) fun s => s.incOb K.RED_SWITCHOVERS
    s.reclaim
  else s

/-- A postponed drill or return is tried again in the next tide. -/
def State.swapRetry (s : State) : State := if s.red.swapWant then s.drill else s

/-- The hold-off of the preferred partner ends, RED.RETURN_HOLDOFF seconds after it began: the active partner starts the return
(R358). -/
def State.holdoffEnd (s : State) : State :=
  match s.red.holdoff with
  | none => s
  | some t =>
    let s := (s.reachMono t).setRed fun r => { r with holdoff := none }
    if s.red.role = .active then s.drill else s

/-- RED.DRILL_INTERVAL hours are over: a drill starts, and the next interval runs (R357).
(DEDUCED, unsafe: log 121.) -/
def State.drillDue (s : State) : State :=
  match s.red.drillAt with
  | none => s
  | some t => (s.reachMono t).drillArm.drill

/-! ### Resynchronisation (R355, R356) -/

/-- Blocks that the slack window takes at the full rate of both links: 48.48 Gb/s (R332, R356). -/
def State.finalFits (s : State) (left : Nat) : Bool :=
  decide (left * 3276800 ≤ (s.slackBudget - 3000) * 4848)

/-- A pass ends with blocks left, which the next pass copies, or the final one in its slack window: those the active partner
finds dirty, and on the partner in RESYNC those it is told of (R356).
(DEDUCED, unsafe: log 53.) -/
def State.passEnd (s : State) (left : Nat) : State :=
  let mine := decide (s.red.role = .resync)
  if !mine && !(decide (s.red.role = .active) && s.red.peer && decide (s.red.peerSt.role = 3)) then s
  else if s.red.finalWait then s
  else
    let dirty := s.dirtyBlocks
    let left := if mine then left else dirty.length
    if s.finalFits left then s.setRed fun r => { r with pass := r.pass + 1, finalWait := true }
    else if s.ob K.RED_RESYNC_PASSES ≤ s.red.pass + 1 then
      let s := s.setRed fun r => { r with pass := 0 }
      if mine then s.setRole .unsynced 6 else s
    else (if mine then s else s.passSend (s.red.pass + 1) (s.blockData dirty)).setRed fun r => { r with pass := r.pass + 1 }

/-- The first grid instant after now (R137). -/
def State.gridNext (s : State) : Nat :=
  let p := s.tideP
  let off := s.ob K.TDS_OFFSET
  if p = 0 then s.ns else off + ((s.ns - off) / p + 1) * p

/-- The partner enters STANDBY and joins the next tide (R356). -/
def State.joinTide (s : State) (tide64 : Nat) : State :=
  let s := (s.setOb K.TDS_TIDE64 tide64).setOb K.TDS_TIDE ((s.ob K.TDS_TIDE_START + tide64) % 2 ^ 32)
  let s := s.setTds fun d => { d with
    nextEbb := s.gridNext
    first := false
    stopEbbs := 0
    rebase := []
    flooded := true
    cutDone := true
    launched := true
    inputDone := true
    phase := 2
    swin := false
    slacked := true }
  ((s.toTide .running).setRed fun r => { r with finalWait := false, pass := 0 }).setRole .standby 0

/-- The attempts that the bytes of STR.RECORD hold, newest first (R259). -/
def attemptsOf (b : List Byte) : List Attempt :=
  ((List.range 16).map fun i => slice b (16 * i) 16).filterMap fun e =>
    if e.all fun x => decide (x = 0) then none
    else some
      { secs := leAt e 0 4
        typ := leAt e 4 1
        result := leAt e 5 1
        step := leAt e 6 1
        reason := leAt e 7 1
        hash := e.drop 8 }

/-- OLC.RESULT loaded from its fields (R258). -/
def Olc.loadResult (o : Olc) (v : Nat) : Olc :=
  { o with
    dies := bits v 47 40
    disabled := bits v 39 32
    detail := bits v 31 24
    reason := bits v 23 16
    status := bits v 7 0 }

/-- A block lies in the state that a resynchronisation copies (R355). -/
def State.syncs (s : State) (b : Nat) : Bool :=
  (s.syncRanges true).any fun r => decide (r.1 / 4096 ≤ b) && decide (b < (r.1 + r.2 + 4095) / 4096)

/-- A block of resynchronisation data (R355, R356). -/
def State.resyncData (s : State) (x : Resync) : State :=
  if s.red.role ≠ .resync then s
  else match x with
    | .mem b data => if s.syncs b then s.putBytes (4096 * b) (slice data 0 4096) else s
    | .obj i j v => if i * 256 + j = K.OLC_RESULT then { s with olc := s.olc.loadResult v } else s.setOb (i * 256 + j) v
    | .dom i j data =>
      if i * 256 + j = 0x130200 then { s with str := { s.str with recs := attemptsOf data } } else s.setDom (i * 256 + j) data
    | .forces t =>
      ((s.setImg fun m => { m with
        forces := forceForm s.noForce (t.map fun e => (e.1,
            { e.2 with orphan := s.isOrphan e.2.key })) }).orphanRise s.orphans).retainForceTable
    | .owner l v => s.setOwner l v
    | .task t off => s.modTask t fun k => { k with st := if off then .disabled else .idle, held := [], disPend := false }
    | .tide n => if s.red.finalWait ∧ s.str.service = false then s.joinTide n else s

/-! ### The witness (R347–R349) -/

def State.setWit (s : State) (f : Wit → Wit) : State := s.setRed fun r => { r with wit := f r.wit }

def Wit.alive (w : Wit) : Holder → Bool
  | .a => w.aliveA
  | .b => w.aliveB
  | .none => false

def Wit.claims (w : Wit) : Holder → Bool
  | .a => w.claimA
  | .b => w.claimB
  | .none => false

def Wit.asks (w : Wit) (h : Holder) : Bool := w.alive h && w.claims h

def Holder.other : Holder → Holder
  | .a => .b
  | .b => .a
  | .none => .none

/-- The next HOLDER (R347). -/
def Wit.next (w : Wit) (pref : Nat) : Holder :=
  match w.holder with
  | .none =>
    match w.asks .a, w.asks .b with
    | true, false => .a
    | false, true => .b
    | true, true => if pref = 2 then .b else .a
    | false, false => .none
  | h => if w.alive h && w.claims h then h else if w.asks h.other then h.other else h

/-- HOLDER's pair driven: VALID to the holder, DENIED to the other. -/
def Wit.drive (w : Wit) : Wit :=
  { w with
    pairA := if w.holder = .a then .valid else .denied
    pairB := if w.holder = .b then .valid else .denied
    move := false }

/-- HOLDER follows the table; on a move the old holder's pair is driven DENIED first (R347). -/
def State.witEval (s : State) : State :=
  let w := s.red.wit
  if s.redMode ≠ 2 ∨ w.started = false ∨ w.fault then s
  else
    let h := w.next s.redPref
    if h = w.holder then s
    else
      let s := s.incOb K.RED_WIT_MOVES
      if w.holder = .none then s.setWit fun w => { w with holder := h }.drive
      else s.setWit fun w => { w with holder := h, pairA := .denied, pairB := .denied, move := true }

/-- The first outputs, 10 µs after reset (R347). -/
def State.witStart (s : State) : State :=
  if s.redMode = 2 ∧ s.red.role = .witness ∧ s.red.wit.started = false then
    ((s.setWit fun w => { w with started := true }.drive).witEval)
  else s

/-- The new holder's pair becomes VALID (R347). -/
def State.witDrive (s : State) : State :=
  if s.red.wit.move && !s.red.wit.fault then s.setWit Wit.drive else s

/-- RED.WIT (R360). -/
def State.redWit (s : State) : Nat :=
  if s.redMode ≠ 2 then 0
  else
    let w := s.red.wit
    (match w.holder with | .none => 0 | .a => 256 | .b => 512) + 8 * b2n w.aliveA + 4 * b2n w.claimA +
      2 * b2n w.aliveB + b2n w.claimB

/-- The two copies of HOLDER disagree (R349). -/
def State.witFault (s : State) : State :=
  if s.redMode = 2 ∧ s.red.role = .witness ∧ s.red.wit.fault = false then
    let s := s.setWit fun w => { w with fault := true, pairA := .invalid, pairB := .invalid, move := false }
    s.raise 0x15 0 0 0 s.redWit 0
  else s

/-- The witness runs from the end of start step 2 (R349). -/
def State.witBoot (s : State) : State :=
  if s.redMode = 2 then s.setRed fun r => { State.reset.red with role := .witness, linkSt := r.linkSt }
  else if s.red.role = .witness then s.setRed fun r => { State.reset.red with linkSt := r.linkSt }
  else s

/-! ### Wired outputs (R359) -/

/-- The standby compares external drive with its own image of the tide before, at an ebb point.
(DEDUCED, safe: log 74.) -/
def State.bwXcheck (s : State) : State :=
  if s.bwWired && decide (s.red.role = .standby) && s.bwFitted && s.domOn dFL &&
      decide (s.red.changeTide ≠ some (s.ob K.TDS_TIDE)) then
    let bad := (List.range 16).filter fun n => bit s.fio.ext n != bit s.fio.out n
    s.each bad fun s n => (s.incOb K.RED_BW_XCHECK).raise 0x16 n n 0 (s.ob K.TDS_TIDE) 0
  else s

/-- RED.LINKS (R363); a link that has not come up since reset has replayed nothing.
(DESIGN CHOICE, safe: log 51.) -/
def State.redLinks (s : State) : Nat :=
  let one := fun l => s.linkState l * 2 ^ 14 + mget (fun _ => 0) s.red.lanes l * 2 ^ 12 +
    if s.linkState l = 0 ∧ bit s.red.wasDown l = false then 0 else Nat.min 4095 (Config.linkReplays (2 * s.fresh + l))
  one 0 + 2 ^ 16 * one 1

end Sys2Proof.Machine
end

