-- ==== Sys2Proof/Machine/DmaOps.lean ====
section
/-! DEFINITION. The DMA engine: instructions and their checks (R411–R419), the stream of a MOVE with its failures
(R414, R426, R436), waits (R416), completion (R417), commands (R421–R425) and power-down (R427). -/

namespace Sys2Proof.Machine

def State.modCh (s : State) (k : Nat) (f : Dma → Dma) : State := s.setCh k (f (s.ch k))

def DmaSt.code : DmaSt → Nat
  | .idle => 0
  | .running => 1
  | .waiting => 2
  | .pausing => 3
  | .paused => 4
  | .stopped => 5
  | .done => 6
  | .halted => 7

/-- DMA.STATE (R430). -/
def Dma.state (d : Dma) : Nat := 32 * b2n d.abortIgn + 16 * b2n d.pwr + d.st.code

/-- Codes of DMA.ERR (R431). -/
def dmIllegal : Nat := 1
def dmBusRead : Nat := 2
def dmBusWrite : Nat := 3
def dmAlign : Nat := 4
def dmEcc : Nat := 5
def dmTimeout : Nat := 6
def dmAborted : Nat := 7
def dmFetch : Nat := 8

def Dma.errCode (d : Dma) : Nat := bits d.err 31 24

/-- A halt for an error: counted and sent (R426). -/
def State.dmaHalt (s : State) (k code faddr dies : Nat) : State :=
  let err := faddr % 2 ^ 32 * 2 ^ 32 + code * 2 ^ 24 + dies % 256 * 2 ^ 16
  let s := s.modCh k fun d => { d with st := .halted, err := err, fin := .none, stopReq := false }
  (s.incOb K.DMA_HALTS).raise 0x29 k k 0 (err % 2 ^ 32) (err / 2 ^ 32)

/-! ### Instructions -/

/-- One instruction as fetched (R412, R413). -/
inductive DmaIns where
  | move (sw dw : Nat) (skeep dkeep : Bool) (count src dst : Nat) (sstep dstep : Int)
  | loop (lvl back count sadj dadj : Nat)
  | wait (kind arg timeout : Nat) (time : Int)
  | signal (code : Nat)
  | fence
  | fin
  | illegal
  deriving DecidableEq, Repr

/-- The instruction in 24 bytes, with what R412–R415 and R419 reserve. -/
def dmaDecode (b : List Byte) : DmaIns :=
  let w := leAt b 0 4
  let w1 := leAt b 4 4
  match bits w 31 28 with
  | 1 =>
    let sw := bits w 27 25
    let dw := bits w 24 22
    let steps := leAt b 16 4
    if 4 < sw ∨ 4 < dw ∨ bits w 19 0 ≠ 0 ∨ leAt b 20 4 ≠ 0 ∨ w1 = 0 ∨ 16777216 < w1 ∨ w1 % 2 ^ sw ≠ 0 ∨ w1 % 2 ^ dw ≠ 0
    then .illegal
    else .move (2 ^ sw) (2 ^ dw) (bit w 21) (bit w 20) w1 (leAt b 8 4) (leAt b 12 4) (toS 16 (bits steps 15 0))
      (toS 16 (bits steps 31 16))
  | 2 =>
    let back := bits w 23 0
    if bits w 26 24 ≠ 0 ∨ back = 0 ∨ back % 8 ≠ 0 ∨ w1 = 0 then .illegal
    else .loop (bits w 27 27) back w1 (leAt b 8 4) (leAt b 12 4)
  | 3 =>
    let kind := bits w 27 24
    let arg := bits w 7 0
    if 3 < kind ∨ bits w 23 8 ≠ 0 ∨ (kind = 0 ∧ 31 < arg) ∨ (kind = 1 ∧ 5 < arg) then .illegal
    else .wait kind arg w1 (toS 64 (leAt b 8 8))
  | 4 => if bits w 27 5 ≠ 0 ∨ w1 ≠ 0 then .illegal else .signal (bits w 4 0)
  | 5 => if bits w 27 0 ≠ 0 ∨ w1 ≠ 0 then .illegal else .fence
  | 6 => if bits w 27 0 ≠ 0 ∨ w1 ≠ 0 then .illegal else .fin
  | _ => .illegal

/-- Length of an instruction by its opcode (R412). -/
def dmaLen (w : Nat) : Nat :=
  match bits w 31 28 with
  | 1 => 24
  | 2 => 16
  | 3 => 16
  | _ => 8

/-- The fetch range (R411). -/
def dmaPcOk (a n : Nat) : Bool := decide (a % 8 = 0) && decide (0x20000000 ≤ a) && decide (a + n ≤ 0x21000000)

/-- The bytes of the instruction at a channel's PC: those of the instruction in progress, else fetched now; none where the fetch
itself fails (R411). -/
def State.dmaBytes (s : State) (k : Nat) : Option (List Byte) :=
  let pc := (s.ch k).pc
  let at_ := mHead + (pc - 0x20000000)
  if (s.ch k).ins ≠ [] then some (s.ch k).ins
  else if dmaPcOk pc 8 = false ∨ s.domMem dHC = false then none
  else if dmaPcOk pc (dmaLen (s.rd at_ 4)) = false then none
  else some (s.bytesAt at_ (dmaLen (s.rd at_ 4)))

/-- The instruction at a channel's PC. -/
def State.dmaFetch (s : State) (k : Nat) : Option DmaIns := (s.dmaBytes k).map dmaDecode

/-- The fetch of the instruction at a channel's PC meets a double-bit error (R420). -/
def State.dmaFetchEcc (s : State) (k : Nat) : Bool :=
  let at_ := mHead + ((s.ch k).pc - 0x20000000)
  decide ((s.ch k).ins = []) && decide (s.eccOf at_ (dmaLen (s.rd at_ 4)) = 2)

/-- The channel may begin an instruction. -/
def Dma.ready (d : Dma) : Bool := decide (d.st = .running) && decide (d.fin = .none)

/-- The instruction boundary that a STOP waits for (R422). -/
def State.dmaBoundary (s : State) (k : Nat) : State :=
  s.modCh k fun d => if d.stopReq ∧ d.st = .running then { d with st := .stopped, stopReq := false } else d

/-- A command for one kind of instruction: the fetch, its faults, and the instruction where it is of that kind. -/
def State.dmaIns (s : State) (k : Nat) (f : DmaIns → Option State) : State :=
  if (s.ch k).ready = false ∨ s.domOn dDM = false then s
  else
    match s.dmaFetch k with
    | none => s.dmaHalt k dmFetch (s.ch k).pc 0
    | some i =>
      if s.dmaFetchEcc k then s.dmaHalt k dmEcc (s.ch k).pc 0
      else if i = .illegal then s.dmaHalt k dmIllegal (s.ch k).pc 0
      else match f i with
        | some s' => s'.dmaBoundary k
        | none => s

/-! ### MOVE -/

def addS (a : Nat) (d : Int) : Nat := (((a : Int) + d) % (2 ^ 32 : Nat)).toNat

/-- Where a stream's next accesses stand. -/
structure Stream where
  sp : Nat
  dp : Nat
  /-- Bytes written since the MOVE began, and destination address its bursts begin at (R436). -/
  done : Nat
  dp0 : Nat
  wrote : Nat
  hold : List Byte
  /-- Source access that supplies the byte at DP. -/
  spDone : Nat
  deriving DecidableEq, Repr

/-- Address of a destination access: in a burst under PAGE_WRAP, what crosses a Bedrock page lands at its start
(R436). -/
def State.burstAddr (s : State) (dw : Nat) (dstep : Int) (x : Stream) : Nat :=
  let start := x.dp0 + x.wrote / 256 * 256
  if s.ob K.BDR_CFG % 2 = 1 ∧ dstep = dw ∧ 0x30000000 ≤ x.dp0 ∧ x.dp < 0x30200000 ∧ x.dp / 4096 ≠ start / 4096 then
    start / 4096 * 4096 + x.dp % 4096
  else x.dp

/-- A destination access that goes on in a line of its burst (R436, R445). -/
def Stream.inLine (x : Stream) (dw : Nat) (dstep : Int) : Bool :=
  decide (dstep = dw) && decide (x.wrote % 256 ≠ 0) && decide (x.dp % 64 ≠ 0)

/-- DMA requester for Bedrock: the unlocks fixed at START; channels 0–7 ignore passwords (R434). -/
def State.dmaReq (s : State) (k : Nat) : BedReq :=
  if k < 8 then { ses := none, rd := 0x7F, wr := 0x7F, same := false }
  else { ses := none, rd := (s.ch k).rd, wr := (s.ch k).wr, same := false }

/-- The stream of a MOVE, access by access; a failure ends it with code, failing address and dies. -/
def State.stream (k sw dw : Nat) (sstep dstep : Int) (count : Nat) :
    Nat → State → Stream → State × Stream × Option (Nat × Nat × Nat)
  | 0, s, x => (s, x, none)
  | f + 1, s, x =>
    if count ≤ x.done then (s, x, none)
    else if dw ≤ x.hold.length then
      if x.dp % dw ≠ 0 then (s, x, some (dmAlign, x.dp, 0))
      else
        let q := { s.dmaReq k with same := x.inLine dw dstep }
        match s.fabricWrite q (s.ch k).task0 none (s.burstAddr dw dstep x) (x.hold.take dw) with
        | (s', some dies) => (s', x, some (dmBusWrite, x.dp, dies))
        | (s', none) =>
          let done := x.done + dw
          let back := (x.hold.length - dw + sw - 1) / sw
          State.stream k sw dw sstep dstep count f (s'.addOb (K.DMA_BYTES (k + 1)) dw) { x with
            dp := addS x.dp dstep
            done := done
            wrote := x.wrote + dw
            hold := x.hold.drop dw
            spDone := addS x.sp (-(back : Int) * sstep) }
    else if x.sp % sw ≠ 0 then (s, x, some (dmAlign, x.sp, 0))
    else
      match s.fabricRead (s.dmaReq k) (s.ch k).task0 x.sp sw with
      | .bus dies => (s, x, some (dmBusRead, x.sp, dies))
      | .ecc => (s, x, some (dmEcc, x.sp, 0))
      | .ok b =>
        let skip := if x.hold = [] then x.done % sw else 0
        State.stream k sw dw sstep dstep count f (s.fabricCorr (s.ch k).task0 x.sp sw) { x with
            sp := addS x.sp sstep,
            hold := x.hold ++ b.drop skip }

/-- Address that the stream wrote last, else the one written last before it (R417). -/
def Stream.lastW (x : Stream) (before : Nat) (dstep : Int) : Nat := if x.wrote = 0 then before else addS x.dp (-dstep)

/-- Where a channel's MOVE stands: at its first byte, or at the pointers where it was left (R414, R421). -/
def Dma.moveAt (d : Dma) (skeep dkeep : Bool) (count src dst : Nat) : Stream :=
  let fresh := decide (d.rem = 0)
  let sp := if fresh && !skeep then src else d.sp
  let dp := if fresh && !dkeep then dst else d.dp
  { sp := sp, dp := dp, done := if fresh then 0 else count - d.rem, dp0 := dp, wrote := 0, hold := [], spDone := sp }

/-- A channel whose MOVE of count bytes, fetched as the bytes b, is left where its stream stands (R423, R426). -/
def Dma.moveLeft (d : Dma) (b : List Byte) (count : Nat) (dstep : Int) (y : Stream) : Dma := { d with
  sp := y.spDone
  dp := y.dp
  rem := count - y.done
  lastW := y.lastW d.lastW dstep
  ins := b }

/-- The holding register filled to one destination access, as far as the source answers. -/
def Stream.fill (s : State) (k sw dw : Nat) (sstep : Int) : Nat → Stream → Option Stream
  | 0, x => some x
  | f + 1, x =>
    if dw ≤ x.hold.length then some x
    else match s.fabricRead (s.dmaReq k) (s.ch k).task0 x.sp sw with
      | .ok b => Stream.fill s k sw dw sstep f { x with sp := addS x.sp sstep, hold := x.hold ++ b }
      | _ => none

/-- A write that left for a die before its link went down. -/
def State.lostWrite (s : State) (addr : Nat) (b : List Byte) : State :=
  let n := (addr - 0x40000000) / 0x1000000
  if 0x41000000 ≤ addr ∧ addr < 0x47000000 ∧ addr % 0x1000000 < 0x400000 ∧ s.domOn (dS n) = true ∧ s.strandFitted n = true then
    s.dataWrite n (addr % 0x1000000) b none
  else s

/-- Accesses from DP on that were under way as the die stopped answering: m of them are written (R426). -/
def State.dmaTail (k sw dw : Nat) (sstep dstep : Int) (count : Nat) : Nat → State → Stream → State
  | 0, s, _ => s
  | m + 1, s, x =>
    match Stream.fill s k sw dw sstep dw x with
    | some y =>
      if count < y.done + dw then s
      else State.dmaTail k sw dw sstep dstep count m ((s.lostWrite y.dp (y.hold.take dw)).addOb (K.DMA_BYTES (k + 1)) dw) { y with
        dp := addS y.dp dstep
        done := y.done + dw
        hold := y.hold.drop dw }
    | none => s

/-- A MOVE that meets an error halts its channel at the MOVE (R426). -/
def State.dmaMoveErr (s : State) (k sw dw : Nat) (sstep dstep : Int) (count : Nat) (ins : List Byte) (y : Stream)
    (e : Nat × Nat × Nat) : State :=
  let s := s.when (decide (e.1 = dmBusWrite)) fun s =>
    (State.dmaTail k sw dw sstep dstep count (Config.dmaTail s.fresh % (32 / dw + 1)) s y).draw
  (s.modCh k fun d => d.moveLeft ins count dstep y).dmaHalt k e.1 e.2.1 e.2.2

/-- A MOVE from where it stands to its end (R414, R421, R426). -/
def State.dmaMoveGo (s : State) (k sw dw : Nat) (skeep dkeep : Bool) (count src dst : Nat) (sstep dstep : Int) :
    State :=
  let ins := (s.dmaBytes k).getD []
  match State.stream k sw dw sstep dstep count (2 * count + 2) s ((s.ch k).moveAt skeep dkeep count src dst) with
  | (s, y, none) =>
    (s.modCh k fun d => { d with
      sp := y.sp
      dp := y.dp
      rem := 0
      pc := d.pc + 24
      ins := []
      lastW := y.lastW d.lastW dstep }).addOb (K.DMA_MOVES (k + 1)) 1
  | (s, y, some e) => s.dmaMoveErr k sw dw sstep dstep count ins y e

/-- A channel runs a MOVE: it runs or pauses, at no FENCE, SIGNAL, END or WAIT. -/
def State.dmaAtMove (s : State) (k : Nat) : Bool :=
  let d := s.ch k
  (decide (d.st = .running) || decide (d.st = .pausing)) && decide (d.fin = .none) && !d.waitPaused && s.domOn dDM &&
    !s.dmaFetchEcc k && (match s.dmaFetch k with
      | some (.move ..) => true
      | _ => false)

/-- A command stops the MOVE that a channel runs: a free part of it is done, whole source and destination accesses for a pause, and
its last access is never among them (R423, R425).
(DESIGN CHOICE, safe: log 58.) -/
def State.dmaPart (s : State) (k : Nat) (pause : Bool) : State :=
  if s.dmaAtMove k then
    match s.dmaFetch k with
    | some (.move sw dw sk dk count src dst ss ds) =>
      let ins := (s.dmaBytes k).getD []
      let x := (s.ch k).moveAt sk dk count src dst
      let u := if pause then Nat.max sw dw else dw
      let lim := (x.done / u + Config.dmaPart s.fresh % (count / u - x.done / u)) * u
      let s := s.draw
      if lim ≤ x.done then s
      else match State.stream k sw dw ss ds lim (2 * count + 2) s x with
        | (s, y, some e) =>
          if pause then s.dmaMoveErr k sw dw ss ds count ins y e else s.modCh k fun d => d.moveLeft ins count ds y
        | (s, y, none) => s.modCh k fun d => d.moveLeft ins count ds y
    | _ => s
  else s

def State.dmaMove (s : State) (k : Nat) : State :=
  s.dmaIns k fun i => match i with
    | .move sw dw sk dk n src dst ss ds => some (s.dmaMoveGo k sw dw sk dk n src dst ss ds)
    | _ => none

/-! ### LOOP -/

/-- A LOOP (R415); a body that would begin below DMA.PROG is ILLEGAL. -/
def State.dmaLoop (s : State) (k : Nat) : State :=
  s.dmaIns k fun i => match i with
    | .loop lvl back count sadj dadj =>
      let d := s.ch k
      if d.pc < s.ob (K.DMA_PROG (k + 1)) + back then some (s.dmaHalt k dmIllegal d.pc 0)
      else
        let lc := if lvl = 0 then d.lc0 else d.lc1
        let lc := (if lc = 0 then count else lc) - 1
        let d := if lvl = 0 then { d with lc0 := lc } else { d with lc1 := lc }
        some (s.setCh k (if lc = 0 then { d with pc := d.pc + 16 }
          else { d with sp := (d.sp + sadj) % 2 ^ 32, dp := (d.dp + dadj) % 2 ^ 32, pc := d.pc - back }))
    | _ => none

/-! ### WAIT (R416) -/

def State.dmaEvents (s : State) : Nat := s.ob K.DMA_EVENTS

/-- The WAIT a channel is in, as its program holds it. -/
def State.dmaWaitOf (s : State) (k : Nat) : Option (Nat × Nat × Nat × Int) :=
  match s.dmaFetch k with
  | some (.wait kind arg lim t) => some (kind, arg, lim, t)
  | _ => none

/-- The channel leaves its WAIT and goes on. -/
def State.dmaPass (s : State) (k : Nat) : State :=
  s.modCh k fun d => { d with st := .running, pc := d.pc + 16, ins := [], waitPaused := false }

/-- A channel waits on a flag, or for a phase instant. -/
def State.dmaWaits (s : State) (k kind arg : Nat) : Bool :=
  decide ((s.ch k).st = .waiting) && (match s.dmaWaitOf k with
    | some (kd, a, _, _) => decide (kd = kind) && decide (a = arg)
    | none => false)

/-- The TIMEOUT of a WAIT halts its channel. -/
def State.dmaTimeUp (s : State) (k lim : Nat) : State :=
  (s.reachMono ((s.ch k).waitMono + lim * 1000)).dmaHalt k dmTimeout (s.ch k).pc 0

/-- TIMEOUT of the WAIT a channel is in, 0 for none. -/
def State.dmaLimit (s : State) (k : Nat) : Nat := ((s.dmaWaitOf k).map fun w => w.2.2.1).getD 0

/-- The TIMEOUT of a channel's WAIT has expired before now (R416). -/
def State.dmaLate (s : State) (k : Nat) : Bool :=
  decide ((s.ch k).st = .waiting) && decide (s.dmaLimit k ≠ 0) && decide ((s.ch k).waitMono + s.dmaLimit k * 1000 < s.ntm.mono)

/-- A channel whose TIMEOUT has expired before now halts; it waits no longer. -/
def State.dmaExpire (s : State) (k : Nat) : State := if s.dmaLate k then s.dmaTimeUp k (s.dmaLimit k) else s

/-- The same on every channel that waits for a kind of condition. -/
def State.dmaExpireAll (s : State) (kind arg : Nat) : State :=
  s.each ((List.range 32).filter fun k => s.dmaWaits k kind arg && s.dmaLate k) State.dmaExpire

/-- Event flag n is set: every channel waiting on it is released, else it stays set (R416). -/
def State.dmaEvent (s : State) (n : Nat) : State :=
  let s := s.dmaExpireAll 0 n
  let l := (List.range 32).filter fun k => s.dmaWaits k 0 n
  if l = [] then s.setOb K.DMA_EVENTS (putBit s.dmaEvents n true) else s.each l State.dmaPass

/-- A phase instant releases the channels that wait for it: 0 ebb point, 1 flood start, 2 cut, 3 launch, 4 slack point,
5 slack window end. -/
def State.dmaPhase (s : State) (arg : Nat) : State :=
  let s := s.dmaExpireAll 1 arg
  s.each ((List.range 32).filter fun k => s.dmaWaits k 1 arg) State.dmaPass

/-- A flag that is already set is consumed at once. -/
def State.dmaTakeFlag (s : State) (k : Nat) : State :=
  let s := s.dmaExpire k
  match s.dmaWaitOf k with
  | some (0, n, _, _) =>
    if (s.ch k).st = .waiting ∧ bit s.dmaEvents n = true then
      (s.setOb K.DMA_EVENTS (putBit s.dmaEvents n false)).dmaPass k
    else s
  | _ => s

/-- A WAIT begins. -/
def State.dmaEnterWait (s : State) (k : Nat) : State :=
  let ins := (s.dmaBytes k).getD []
  (s.modCh k fun d => { d with
    st := .waiting
    ins := ins
    waitMono := s.ntm.mono
    waitNs := s.ns
    waitPaused := false }).dmaTakeFlag k

def State.dmaWait (s : State) (k : Nat) : State :=
  s.dmaIns k fun i => match i with
    | .wait _ _ _ _ => some (s.dmaEnterWait k)
    | _ => none

/-- A WAIT for a network time: the time comes, or the TIMEOUT where that expires first. -/
def State.dmaTimeWait (s : State) (k lim until_ : Nat) : State :=
  if lim ≠ 0 ∧ (s.ch k).waitMono + lim * 1000 + s.ns < until_ + s.ntm.mono then s.dmaTimeUp k lim
  else (s.reach until_).dmaPass k

/-- A time condition comes: time passes up to it; a flag that stands set is consumed. -/
def State.dmaWaitRelease (s : State) (k : Nat) : State :=
  if (s.ch k).st ≠ .waiting then s
  else match s.dmaWaitOf k with
    | some (2, _, lim, t) => s.dmaTimeWait k lim t.toNat
    | some (3, _, lim, t) => s.dmaTimeWait k lim ((s.ch k).waitNs + t.toNat)
    | some (0, _, _, _) => s.dmaTakeFlag k
    | _ => s

/-- The TIMEOUT of a WAIT expires, where no time condition comes before it. -/
def State.dmaWaitTimeout (s : State) (k : Nat) : State :=
  if (s.ch k).st ≠ .waiting then s
  else match s.dmaWaitOf k with
    | some (kind, _, lim, t) =>
      if lim = 0 then s
      else if kind = 2 then s.dmaTimeWait k lim t.toNat
      else if kind = 3 then s.dmaTimeWait k lim ((s.ch k).waitNs + t.toNat)
      else s.dmaTimeUp k lim
    | none => s

/-! ### FENCE, SIGNAL, END (R417) -/

def State.dmaFin (s : State) (k : Nat) (want : DmaIns → Bool) : State :=
  s.dmaIns k fun i =>
    if want i then some (s.modCh k fun d => { d with
      fin := match i with
        | .signal n => .signal n
        | .fin => .fin
        | _ => .fence })
    else none

/-- A fence, signal or end in progress. -/
def Dma.finishing (d : Dma) : Bool := (decide (d.st = .running) || decide (d.st = .pausing)) && decide (d.fin ≠ .none)

/-- A read-back over the link of a die that enters DOWN ends in a bus error (R15, R417). -/
def State.dmaLinkLost (s : State) (die : Nat) : State :=
  s.each ((List.range 32).filter fun k =>
      (s.ch k).finishing && decide (0x40000000 + die * 0x1000000 ≤ (s.ch k).lastW) &&
        decide ((s.ch k).lastW < 0x41000000 + die * 0x1000000))
    fun s k => s.dmaHalt k dmBusRead (s.ch k).lastW (2 ^ die)

/-- STATE once the FENCE or SIGNAL in progress has completed: a channel that pauses does so before the next instruction, and a STOP
takes effect there (R422, R423). -/
def Dma.afterFence (d : Dma) : DmaSt := if d.stopReq then .stopped else if d.st = .pausing then .paused else d.st

/-- The read-back returns: the FENCE, SIGNAL or END completes; an END that a STOP came before leaves the channel STOPPED (R424). -/
def State.dmaReadback (s : State) (k : Nat) : State :=
  let d := s.ch k
  if d.finishing = false then s
  else match d.fin with
    | .fin => s.setCh k { d with st := if d.stopReq then .stopped else .done, fin := .none, stopReq := false }
    | .signal n =>
      let s := s.setCh k { d with fin := .none, pc := d.pc + 8, st := d.afterFence, stopReq := false }
      (s.dmaEvent n).when (decide (8 ≤ k)) fun s => s.fire 0x04 n
    | _ => s.setCh k { d with fin := .none, pc := d.pc + 8, st := d.afterFence, stopReq := false }

/-! ### Commands (R421–R425) -/

/-- Status of a DMA.CMD value on channel k, judged in the state that a TIMEOUT expired before now has left; channels 0–7 take none
(R408, R416, R421). -/
def State.dmaCmdCheck (s : State) (k v : Nat) : Nat :=
  let d := (s.dmaExpire k).ch k
  let inSt := fun (l : List DmaSt) => l.contains d.st
  let ok := match v with
    | 1 => inSt [.idle, .done, .stopped, .halted]
    | 2 => inSt [.running, .waiting, .pausing, .paused, .done]
    | 3 => inSt [.running, .waiting]
    | 4 => inSt [.paused] || (inSt [.halted] && [dmBusRead, dmBusWrite, dmEcc, dmTimeout].contains d.errCode)
    | 5 => inSt [.running, .waiting, .pausing, .paused, .done]
    | _ => inSt [.done, .stopped, .halted]
  if k < 8 then stACCESS else if ok then stOK else stSTATE

def State.dmaStart (s : State) (k ses : Nat) : State :=
  let d := s.ch k
  (s.setCh k { d with
    st := .running
    abortIgn := false
    pwr := false
    pwrFor := []
    pc := s.ob (K.DMA_PROG (k + 1))
    sp := 0
    dp := 0
    rem := 0
    lc0 := 0
    lc1 := 0
    err := 0
    fin := .none
    stopReq := false
    waitPaused := false
    ins := []
    task0 := decide (ses = 0)
    rd := (s.ses ses).bdrRead
    wr := (s.ses ses).bdrWrite }).setOb (K.DMA_MOVES (k + 1)) 0

/-- STOP (R422): at once in a WAIT, at a boundary, or once a FENCE, SIGNAL, MOVE or drain in progress is over; whether the MOVE at
the PC has begun is free.
(DESIGN CHOICE, safe: log 58.) -/
def State.dmaStop (s : State) (k : Nat) : State :=
  let at_ := s.dmaAtMove k
  let begun := at_ && decide (Config.dmaPart s.fresh % 2 = 1)
  let s := s.when at_ State.draw
  s.modCh k fun d =>
    match d.st with
    | .running =>
      if d.fin = .fin then { d with st := .stopped, fin := .none }
      else if d.fin ≠ .none ∨ d.rem ≠ 0 ∨ begun = true then { d with stopReq := true }
      else { d with st := .stopped }
    | .pausing => { d with stopReq := true }
    | .done => { d with abortIgn := true }
    | _ => { d with st := .stopped, waitPaused := false }

/-- PAUSE (R423); a WAIT keeps the time its TIMEOUT has used. -/
def State.dmaPause (s : State) (k : Nat) : State :=
  s.modCh k fun d =>
    if d.st = .waiting then { d with st := .pausing, waitPaused := true, waitMono := s.ntm.mono - d.waitMono }
    else { d with st := .pausing }

/-- The drain of a pause completes; a FENCE or SIGNAL completes first, and so does an END; a MOVE stops where its accesses allow
(R423). -/
def State.dmaDrained (s : State) (k : Nat) : State :=
  if (s.ch k).st ≠ .pausing then s
  else
    let s := if (s.ch k).finishing then s.dmaReadback k else s.dmaPart k true
    s.modCh k fun d =>
      if d.st ≠ .pausing then d
      else if d.stopReq then { d with st := .stopped, stopReq := false, waitPaused := false }
      else { d with st := .paused }

/-- RESUME: from the exact point of the pause, or from the pointers of a halt (R421). -/
def State.dmaResume (s : State) (k : Nat) : State :=
  let d := s.ch k
  if d.st = .halted then
    let s := s.setCh k { d with st := .running, pwr := false, pwrFor := [] }
    if d.errCode = dmTimeout then s.dmaEnterWait k else s
  else if d.waitPaused then
    (s.setCh k { d with
      st := .waiting
      pwr := false
      pwrFor := []
      waitPaused := false
      waitMono := s.ntm.mono - d.waitMono }).dmaTakeFlag k
  else s.setCh k { d with st := .running, pwr := false, pwrFor := [] }

/-- ABORT (R425): a MOVE ends where it stands; no address failed, so none is recorded. -/
def State.dmaAbort (s : State) (k : Nat) : State :=
  (s.dmaPart k false).modCh k fun d =>
    if d.st = .done then { d with abortIgn := true }
    else { d with
      st := .halted
      err := dmAborted * 2 ^ 24
      fin := .none
      stopReq := false
      waitPaused := false }

def State.dmaCmd (s : State) (k ses v : Nat) : State :=
  let s := s.dmaExpire k
  match v with
  | 1 => s.dmaStart k ses
  | 2 => s.dmaStop k
  | 3 => s.dmaPause k
  | 4 => s.dmaResume k
  | 5 => s.dmaAbort k
  | _ => s.modCh k fun d => { d with st := .idle }

/-- Status of a write of DMA.PROG (R429). -/
def State.dmaProgCheck (s : State) (k v : Nat) : Nat :=
  if k < 8 then stACCESS
  else if [DmaSt.idle, .done, .stopped, .halted].contains (s.ch k).st = false then stSTATE
  else if dmaPcOk v 8 then stOK else stRANGE

/-! ### Power-down (R427) -/

/-- Domain of the memory at an address. -/
def addrDom (a : Nat) : Nat :=
  if 0x20000000 ≤ a ∧ a < 0x21000000 then dHC
  else if 0x30000000 ≤ a ∧ a < 0x30200000 then dNV
  else if 0x41000000 ≤ a ∧ a < 0x47000000 then dS ((a - 0x40000000) / 0x1000000)
  else 0

/-- A stream of n accesses from an address with a step may touch a domain. -/
def streamTouches (dom a n : Nat) (step : Int) : Bool :=
  (List.range n).any fun i => decide (addrDom (addS a ((i : Int) * step)) = dom)

/-- The current MOVE, from SP and DP over REM, may still touch a memory of the domain. -/
def State.dmaTouches (s : State) (k dom : Nat) : Bool :=
  [DmaSt.running, .pausing, .paused].contains (s.ch k).st && decide ((s.ch k).fin = .none) && !(s.ch k).waitPaused &&
    (match s.dmaFetch k with
    | some (.move sw dw sk dk count src dst ss ds) =>
      let x := (s.ch k).moveAt sk dk count src dst
      let left := count - x.done
      streamTouches dom x.sp ((left + sw - 1) / sw) ss || streamTouches dom x.dp ((left + dw - 1) / dw) ds
    | _ => false)

/-- Channels that a power-down request meets are paused with PWR set. -/
def State.dmaPdPause (s : State) (dom : Nat) : State :=
  s.each ((List.range 32).filter fun k => s.dmaTouches k dom) fun s k =>
    s.modCh k fun d =>
      match d.st with
      | .running => { d with st := .pausing, pwr := true, pwrFor := [dom] }
      | .pausing => { d with pwr := true, pwrFor := (d.pwrFor ++ [dom]).dedup }
      | _ => d

/-- A refused request: the channels paused for it, and for no other that stands, resume, and the refusal counts. -/
def State.dmaPdRefuse (s : State) (dom : Nat) : State :=
  let s := s.each ((List.range 32).filter fun k => (s.ch k).pwr && (s.ch k).pwrFor.contains dom) fun s k =>
    s.modCh k fun d =>
      let l := d.pwrFor.filter fun x => x ≠ dom
      if l = [] then { d with
        pwr := false
        pwrFor := []
        st := if d.st = .pausing ∨ d.st = .paused then .running else d.st }
      else { d with pwrFor := l }
  s.incOb K.DMA_PD_REFUSALS

/-- A channel that keeps domain DM on. -/
def State.dmaBusy (s : State) : Bool :=
  (List.range 32).any fun k => [DmaSt.running, .waiting, .pausing, .paused].contains (s.chanSt k)

end Sys2Proof.Machine
end

