-- ==== Sys2Proof/Machine/Crypto.lean ====
section
/-! DEFINITION. SHA-256 (FIPS 180-4) and ECDSA verification over P-256 (FIPS 186-5), which R227 names. -/

namespace Sys2Proof.Machine

/-! ### SHA-256 -/

/-- Primes below a bound, rising. -/
def primesBelow (n : Nat) : List Nat :=
  (List.range n).filter fun p => decide (2 ≤ p) && (List.range p).all fun d => decide (d < 2) || decide (p % d ≠ 0)

/-- The largest x with x ^ e at most n, bit by bit from bit k - 1 down. -/
def rootOf (e n : Nat) : Nat → Nat → Nat
  | 0, x => x
  | k + 1, x => rootOf e n k (if (x + 2 ^ k) ^ e ≤ n then x + 2 ^ k else x)

/-- The first 32 bits of the fraction of a root of p: x ^ e ≤ p · 2^(32 e) gives floor (2^32 · root). -/
def rootFrac (e p : Nat) : Word := BitVec.ofNat 32 (rootOf e (p * 2 ^ (32 * e)) 40 0)

/-- Round constants: fractions of the cube roots of the first 64 primes. -/
def shaK : List Word := (primesBelow 312).map (rootFrac 3)

/-- The initial hash value: fractions of the square roots of the first 8 primes. -/
def shaInit : List Word := (primesBelow 20).map (rootFrac 2)

def rotr (x : Word) (n : Nat) : Word := x.rotateRight n

def shaS0 (x : Word) : Word := rotr x 2 ^^^ rotr x 13 ^^^ rotr x 22
def shaS1 (x : Word) : Word := rotr x 6 ^^^ rotr x 11 ^^^ rotr x 25
def shas0 (x : Word) : Word := rotr x 7 ^^^ rotr x 18 ^^^ (x >>> 3)
def shas1 (x : Word) : Word := rotr x 17 ^^^ rotr x 19 ^^^ (x >>> 10)

/-- The message schedule, n words more, latest first. -/
def shaSched : Nat → List Word → List Word
  | 0, w => w
  | n + 1, w => shaSched n ((shas1 (w.getD 1 0) + w.getD 6 0 + shas0 (w.getD 14 0) + w.getD 15 0) :: w)

/-- One round on the eight working variables. -/
def shaRound (v : List Word) (kw : Word × Word) : List Word :=
  match v with
  | [a, b, c, d, e, f, g, h] =>
    let t1 := h + shaS1 e + ((e &&& f) ^^^ (~~~e &&& g)) + kw.1 + kw.2
    let t2 := shaS0 a + ((a &&& b) ^^^ (a &&& c) ^^^ (b &&& c))
    [t1 + t2, a, b, c, d + t1, e, f, g]
  | _ => v

/-- Four bytes as a big-endian word. -/
def beWord : List Byte → Word
  | [a, b, c, d] => a ++ b ++ c ++ d
  | _ => 0

/-- One 64-byte block. -/
def shaBlock (h : List Word) (b : List Byte) : List Word :=
  let w := (List.range 16).map fun i => beWord ((b.drop (4 * i)).take 4)
  let ws := (shaSched 48 w.reverse).reverse
  List.zipWith (· + ·) h ((List.zip shaK ws).foldl shaRound h)

/-- n blocks of a padded message. -/
def shaBlocks : Nat → List Word → List Byte → List Word
  | 0, h, _ => h
  | n + 1, h, b => shaBlocks n (shaBlock h (b.take 64)) (b.drop 64)

/-- n bytes of a number, most significant first. -/
def bigBytes : Nat → Nat → List Byte
  | 0, _ => []
  | n + 1, v => bigBytes n (v / 256) ++ [BitVec.ofNat 8 v]

def sha256 (m : List Byte) : List Byte :=
  let pad := (55 + 64 - m.length % 64) % 64
  let p := m ++ [0x80] ++ List.replicate pad 0 ++ bigBytes 8 (8 * m.length)
  (shaBlocks (p.length / 64) shaInit p).flatMap fun w => bigBytes 4 w.toNat

/-! ### P-256 -/

def p256P : Nat := 0xffffffff00000001000000000000000000000000ffffffffffffffffffffffff
def p256N : Nat := 0xffffffff00000000ffffffffffffffffbce6faada7179e84f3b9cac2fc632551
def p256B : Nat := 0x5ac635d8aa3a93e7b3ebbd55769886bc651d06b0cc53b0f63bce3c3e27d2604b
def p256G : Nat × Nat :=
  (0x6b17d1f2e12c4247f8bce6e563a440f277037d812deb33a0f4a13945d898c296,
   0x4fe342e2fe1a7f9b8ee7eb4a7c0f9e162bce33576b315ececbb6406837bf51f5)

/-- b ^ e modulo m, over the low k bits of e from the top. -/
def powMod (m b e : Nat) : Nat → Nat → Nat
  | 0, acc => acc
  | k + 1, acc => powMod m b e k (let q := acc * acc % m; if e.testBit k then q * b % m else q)

/-- Inverse modulo a prime below 2^256. -/
def invMod (m a : Nat) : Nat := powMod m (a % m) (m - 2) 256 1

def subMod (m a b : Nat) : Nat := (a + m - b % m) % m

/-- The sum of two points; none is the point at infinity. -/
def ecAdd (a b : Option (Nat × Nat)) : Option (Nat × Nat) :=
  match a, b with
  | none, q => q
  | q, none => q
  | some (x1, y1), some (x2, y2) =>
    if x1 = x2 ∧ (y1 + y2) % p256P = 0 then none
    else
      let l := if x1 = x2 then (3 * x1 * x1 + p256P - 3) % p256P * invMod p256P (2 * y1) % p256P
        else subMod p256P y2 y1 * invMod p256P (subMod p256P x2 x1) % p256P
      let x := subMod p256P (subMod p256P (l * l % p256P) x1) x2
      some (x, subMod p256P (l * subMod p256P x1 x % p256P) y1)

/-- k times a point, over the low n bits of k from the top. -/
def ecMul (k : Nat) (q : Option (Nat × Nat)) : Nat → Option (Nat × Nat) → Option (Nat × Nat)
  | 0, acc => acc
  | n + 1, acc => ecMul k q n (let d := ecAdd acc acc; if k.testBit n then ecAdd d q else d)

/-- The signature (r, s) of a hash verifies under the public key (x, y) (R227).
(DEDUCED, unsafe: log 41.) -/
def ecdsaVerify (hash x y r s : Nat) : Bool :=
  let q := some (x, y)
  let onCurve := decide (x < p256P) && decide (y < p256P) &&
    decide (y * y % p256P = (x * x * x + (p256P - 3) * x + p256B) % p256P)
  let w := invMod p256N s
  let a := ecMul (hash * w % p256N) (some p256G) 256 none
  let b := ecMul (r * w % p256N) q 256 none
  decide (1 ≤ r) && decide (r < p256N) && decide (1 ≤ s) && decide (s < p256N) && onCurve &&
    (match ecAdd a b with
     | some (vx, _) => decide (vx % p256N = r)
     | none => false)

end Sys2Proof.Machine
end

