-- ==== Sys2Proof/Machine/Ivnan.lean ====
section
/-! DEFINITION. The Ivnan image: header and directory (R225, R226), authentication (R227), state map and relocation list
(R229–R233), and the program's tables (R226). An image is handled as the list of its bytes. -/

namespace Sys2Proof.Machine

/-! ### Header and directory -/

/-- One directory entry (R226). -/
structure Sect where
  typ : Nat
  target : Nat
  off : Nat
  len : Nat
  crc : Nat
  deriving DecidableEq, Repr

def imLength (b : List Byte) : Nat := leAt b 8 4
def imNsect (b : List Byte) : Nat := leAt b 12 2
def imNoRetreat (b : List Byte) : Bool := decide (leAt b 14 2 % 2 = 1)
def imFitted (b : List Byte) : Nat := leAt b 16 2
def imPeriod (b : List Byte) : Nat := leAt b 18 2
def imKeeperLen (b : List Byte) : Nat := leAt b 20 4
def imRetainId (b : List Byte) : Nat := leAt b 24 8

/-- The directory (R226). -/
def imDir (b : List Byte) : List Sect :=
  (List.range (imNsect b)).map fun i =>
    let e := b.drop (64 + 16 * i)
    { typ := leAt e 0 1, target := leAt e 1 1, off := leAt e 4 4, len := leAt e 8 4, crc := leAt e 12 4 }

def imSect (b : List Byte) (typ target : Nat) : Option Sect :=
  (imDir b).find? fun e => decide (e.typ = typ) && decide (e.target = target)

/-- Bytes of a section, none where the image has no such section. -/
def imBytes (b : List Byte) (typ target : Nat) : List Byte :=
  match imSect b typ target with
  | some e => slice b e.off e.len
  | none => []

/-- TYPE and TARGET of R226. -/
def sectTypeOk (e : Sect) : Bool :=
  if e.typ = 1 ∨ e.typ = 6 then decide (1 ≤ e.target) && decide (e.target ≤ 6)
  else decide (e.target = 0) && ((decide (2 ≤ e.typ) && decide (e.typ ≤ 10)) || decide (e.typ = 0xFF))

/-- Task IDs that TASKS does not leave unused, rising (R173, R226). -/
def imUsed (b : List Byte) : List Nat :=
  let t := imBytes b 2 0
  (List.range 256).filter fun i => decide (1 ≤ i) && decide (bits (leAt t (16 * (i - 1)) 4) 15 14 ≠ 0)

/-- A SECTIONS or LISTS section: for each of the task IDs its ID, a length in whole entries, and that many bytes, and no more
(R226). -/
def blobsOk (unit most : Nat) : List Nat → List Byte → Bool
  | [], b => b.isEmpty
  | t :: l, b =>
    let len := leAt b 4 4
    decide (8 + len ≤ b.length) && decide (leAt b 0 4 = t) && decide (len % unit = 0) && decide (len ≤ most) &&
      blobsOk unit most l (b.drop (8 + len))

/-- Length and form of a section by its TYPE (R226). -/
def sectFormOk (b : List Byte) (e : Sect) : Bool :=
  match e.typ with
  | 1 => decide (e.len ≤ 0x400000)
  | 2 => decide (e.len = 255 * 16)
  | 3 => blobsOk 32 512 (imUsed b) (slice b e.off e.len)
  | 4 => blobsOk 8 4096 (imUsed b) (slice b e.off e.len)
  | 5 => decide (e.len = 0x8000)
  | 6 => decide (e.len % 20 = 0)
  | _ => true

/-- Two sections overlap. -/
def sectMeet (a b : Sect) : Bool := decide (0 < a.len) && decide (0 < b.len) && rangesMeet a.off a.len b.off b.len

/-- The rules of the directory (R226): entries, their order, sections apart, and what a kind of image may carry. -/
def dirOk (b : List Byte) : Bool :=
  let d := imDir b
  let n := d.length
  let retreat := d.any fun e => decide (e.typ = 9) || decide (e.typ = 10)
  d.all sectTypeOk &&
    ((List.range n).all fun i => decide (leAt (b.drop (64 + 16 * i)) 2 2 = 0)) &&
    (d.all fun e => decide (64 + 16 * n ≤ e.off) && decide (e.off + e.len ≤ imLength b) && sectFormOk b e) &&
    (d.zipIdx.all fun x => d.zipIdx.all fun y => decide (y.2 ≤ x.2) || !sectMeet x.1 y.1) &&
    (d.zipIdx.all fun x => d.zipIdx.all fun y =>
      decide (y.2 ≤ x.2) || decide (x.1.typ ≠ y.1.typ) || decide (x.1.target ≠ y.1.target)) &&
    (match d.getLast? with
     | some e => decide (e.typ = 0xFF) && decide (e.len = 128) && decide (e.off + 128 = imLength b)
     | none => false) &&
    (decide (leAt b 6 2 ≠ 1) || d.all fun e => !decide (7 ≤ e.typ) || decide (e.typ = 0xFF)) &&
    decide (imNoRetreat b = !retreat)

/-- KIND of an image: 1 BOOT, 2 PROGRAM (R225). -/
def imKind (b : List Byte) : Nat := leAt b 6 2

/-- The rules of the header (R225). -/
def headerOk (b : List Byte) : Bool :=
  decide (leAt b 0 4 = 0x314E5649) && decide (leAt b 4 2 = 1) && (decide (imKind b = 1) || decide (imKind b = 2)) &&
    decide (imLength b ≤ b.length) && decide (2 ≤ imNsect b) && decide (imNsect b ≤ 64) && decide (leAt b 14 2 < 2) &&
    decide (imKeeperLen b % 64 = 0) && decide (imKeeperLen b ≤ (imBytes b 1 1).length) &&
    (slice b 40 24).all (· = 0)

/-! ### Authentication (R227) -/

def imHash (b : List Byte) : List Byte :=
  match imSect b 0xFF 0 with
  | some e => sha256 (slice b 0 e.off)
  | none => []

/-- Every section's CRC32C matches. -/
def imCrcOk (b : List Byte) : Bool := (imDir b).all fun e => decide (crc32c (slice b e.off e.len) = e.crc)

def imKeyOk (b : List Byte) (governing : List Byte) : Bool :=
  decide (sha256 ((imBytes b 0xFF 0).take 64) = governing)

def imSigOk (b : List Byte) : Bool :=
  let g := imBytes b 0xFF 0
  ecdsaVerify (beAt (imHash b) 0 32) (beAt g 0 32) (beAt g 32 32) (beAt g 64 32) (beAt g 96 32)

/-- The key hash that governs an image: a BOOT image, or a PROGRAM image by SEC.FUSES.PROG_KEY (R227). -/
def State.governing (s : State) (im : List Byte) : List Byte :=
  if imKind im = 1 || !bit s.str.fuses 2 then s.str.keyBoot else s.str.keyProg

/-! ### State map and relocation list (R229–R233) -/

structure MapEntry where
  kind : Nat
  flags : Nat
  obit : Nat
  nbit : Nat
  old : Nat
  new_ : Nat
  count : Nat
  deriving DecidableEq, Repr

def mapEntries (m : List Byte) : List MapEntry :=
  (List.range (m.length / 16)).map fun i =>
    let e := m.drop (16 * i)
    { kind := leAt e 0 1, flags := leAt e 1 1, obit := leAt e 2 1, nbit := leAt e 3 1, old := leAt e 4 4,
      new_ := leAt e 8 4, count := leAt e 12 4 }

/-- A state map entry obeys R229; a bit number above 7 and a Strand that no device has are taken as reserved encodings.
(DESIGN CHOICE, unsafe: log 131.) -/
def MapEntry.ok (e : MapEntry) : Bool :=
  decide (1 ≤ e.kind) && decide (e.kind ≤ 5) && decide (e.flags < 8) && decide (e.obit < 8) && decide (e.nbit < 8) &&
    (if e.kind ≤ 2 then decide (bits e.old 18 16 ≠ 0) && decide (bits e.old 18 16 ≠ 7) && decide (bits e.new_ 18 16 ≠ 0) &&
        decide (bits e.new_ 18 16 ≠ 7)
      else if e.kind = 3 then decide (e.count % 4 = 0)
      else if e.kind = 4 then decide (e.count = 0)
      else true)

def mapOk (m : List Byte) : Bool := decide (m.length % 16 = 0) && (mapEntries m).all MapEntry.ok

/-- Relocation entries: address and delta (R230). -/
def relocEntries (m : List Byte) : List (Nat × Nat) :=
  (List.range (m.length / 8)).map fun i => (leAt m (8 * i) 4, leAt m (8 * i + 4) 4)

/-- The memory key of a byte address of the DMA map that instance data may have. -/
def dmaKey (a : Nat) : Option Nat :=
  if 0x20000000 ≤ a ∧ a < 0x21000000 then some (mHead + (a - 0x20000000))
  else if 0x30000000 ≤ a ∧ a < 0x30200000 then some (mBed + (a - 0x30000000))
  else if 0x41000000 ≤ a ∧ a < 0x47000000 ∧ a % 0x1000000 < 0x400000 then
    some (mData ((a - 0x40000000) / 0x1000000) + a % 0x1000000)
  else none

/-- The address lies in a memory that a device with these dies has (R230). -/
def dmaFits (fit a : Nat) : Bool :=
  (dmaKey a).isSome && (decide (a < 0x41000000) || bit fit ((a - 0x40000000) / 0x1000000))

def mapStrand (v : Nat) : Nat := bits v 18 16
def mapCell (v : Nat) : Nat := bits v 13 0

/-- Cells of a TIMER or CNT64 entry. -/
def MapEntry.cells (e : MapEntry) : Nat := if e.kind = 2 then 2 * e.count else e.count

/-- What one end of an entry covers, in bits: first bit and how many; none outside every memory. -/
def MapEntry.range (e : MapEntry) (v b : Nat) : Option (Nat × Nat) :=
  if e.kind ≤ 2 then some (8 * (mTimer (mapStrand v) + 16 * mapCell v), 128 * e.cells)
  else (dmaKey v).map fun k => if e.kind = 3 then (8 * k, 8 * e.count) else (8 * k + b, 1)

def MapEntry.newRange (e : MapEntry) : Option (Nat × Nat) := e.range e.new_ e.nbit
def MapEntry.oldRange (e : MapEntry) : Option (Nat × Nat) :=
  if e.kind = 5 ∨ (e.kind ≤ 2 ∧ bit e.flags 0 = true) then some (0, 0) else e.range e.old e.obit

def optMeet (a b : Option (Nat × Nat)) : Bool :=
  match a, b with
  | some x, some y => decide (0 < x.2) && decide (0 < y.2) && rangesMeet x.1 x.2 y.1 y.2
  | _, _ => false

/-- Both ends of an entry lie in memories of a device with these dies; R232 lists no such check.
(DESIGN CHOICE, unsafe: log 132.) -/
def MapEntry.fits (fit : Nat) (e : MapEntry) : Bool :=
  let one := fun (v : Nat) => if e.kind ≤ 2 then bit fit (mapStrand v) else dmaFits fit v
  one e.new_ && (decide (e.kind = 5) || one e.old)

/-- R230 and R232: addresses inside the device's memories, no NEW range over a later OLD range or another NEW range. -/
def relocOrderOk (fit : Nat) (m : List MapEntry) (r : List (Nat × Nat)) : Bool :=
  let x := m.zipIdx
  (m.all fun e => e.newRange.isSome && e.oldRange.isSome && e.fits fit) &&
    (m.all fun e => decide (2 < e.kind) || (decide (mapCell e.new_ + e.cells ≤ 16384) &&
      decide (mapCell e.old + e.cells ≤ 16384))) &&
    (x.all fun a => x.all fun b => decide (b.2 ≤ a.2) ||
      (!optMeet a.1.newRange b.1.oldRange && !optMeet a.1.newRange b.1.newRange)) &&
    (r.all fun e => decide (e.1 % 4 = 0) && dmaFits fit e.1)

/-- Bedrock ranges, as offset and length, that a map's entries fill. -/
def mapBedrock (m : List MapEntry) : List (Nat × Nat) :=
  m.filterMap fun e =>
    if 2 < e.kind ∧ 0x30000000 ≤ e.new_ ∧ e.new_ < 0x30200000 then
      some (e.new_ - 0x30000000, if e.kind = 3 then e.count else 1)
    else none

/-- Bedrock ranges of the retained timer pages (R214). -/
def State.retPages (s : State) : List (Nat × Nat) :=
  s.strands.map fun n =>
    let v := s.ob (K.TMR_CTL n)
    (4096 * bits v 24 16, 4096 * bits v 10 8)

/-- No DATA entry's NEW lies over retained data of the program that runs before the moves, or over the device's own pages; ran
is what that program's state map covers (R233). -/
def State.retainClear (s : State) (ran : List (Nat × Nat)) (m : List MapEntry) : Bool :=
  let keep := s.retPages ++ ran ++ [(448 * 4096, 64 * 4096)]
  m.all fun e => decide (e.kind ≠ 3) || e.new_ < 0x30000000 || 0x30200000 ≤ e.new_ ||
    keep.all fun k => decide (k.2 = 0) || !rangesMeet k.1 k.2 (e.new_ - 0x30000000) e.count

/-- The initial words of a cell, none where CELL_INIT gives none (R226). -/
def cellInit (im : List Byte) (n cell : Nat) : Option (List Byte) :=
  let c := imBytes im 6 n
  ((List.range (c.length / 20)).find? fun i => decide (leAt c (20 * i) 4 = cell)).map fun i => slice c (20 * i + 4) 16

def cellInit0 (im : List Byte) (n cell : Nat) : List Byte := (cellInit im n cell).getD (List.replicate 16 0)

/-- KIND of a cell's 16 bytes. -/
def cellKind (b : List Byte) : Nat := bits (leAt b 8 4) 11 8

/-- KIND as the Headland takes it: a reserved one is FREE (R206). -/
def kindOf (b : List Byte) : Nat := if 6 ≤ cellKind b then 0 else cellKind b

/-- Strands whose new cells break the KIND rule (R206, R231). -/
def State.kindChange (s : State) (im : List Byte) (m : List MapEntry) (n : Nat) : Bool :=
  m.any fun e => decide (e.kind ≤ 2) && decide (mapStrand e.new_ = n) && !bit e.flags 0 &&
    (List.range e.cells).any fun i =>
      (decide (e.kind = 1) || decide (i % 2 = 0)) &&
      decide (kindOf (cellInit0 im n (mapCell e.new_ + i)) ≠
        kindOf (s.bytesAt (mTimer (mapStrand e.old) + 16 * (mapCell e.old + i)) 16))

/-- T of R238, parts of a ns counted up. -/
def commitTime (m : List MapEntry) (r : List (Nat × Nat)) : Nat :=
  let moved := m.filter fun e => e.kind ≠ 5
  let bytes := fun (e : MapEntry) => if e.kind ≤ 2 then 16 * e.cells else if e.kind = 3 then e.count else 0
  let bed := fun (e : MapEntry) => decide (3 ≤ e.kind) && decide (0x30000000 ≤ e.new_) && decide (e.new_ < 0x30200000)
  let head := fun (e : MapEntry) => decide (3 ≤ e.kind) && decide (e.new_ < 0x30000000)
  let bs := ((moved.filter fun e => !bed e && !head e).map bytes).foldl (· + ·) 0
  let bn := ((moved.filter bed).map bytes).foldl (· + ·) 0
  3000 + 20 * moved.length + (bs + 8 * bn + 31) / 32 + 40 * r.length

/-! ### Moves (R231, R241) -/

/-- Bytes of a move that go to Bedrock: transactions of at most 64 lines; whether the supply let them be made (R437, R438, R440).
(DEDUCED, unsafe: log 60.) -/
def State.bedMove : Nat → State → Nat → List Byte → State × Bool
  | 0, s, _, _ => (s, true)
  | f + 1, s, off, b =>
    if b = [] then (s, true)
    else
      let n := 4096 - off % 64
      match s.bedTxn (stageBytes [] off (b.take n)) with
      | (s, true) => State.bedMove f s (off + n) (b.drop n)
      | r => r

/-- Bytes written at a DMA-map address by the device itself, with no password and no ownership; whether they were taken. -/
def State.moveWrite (s : State) (addr : Nat) (b : List Byte) : State × Bool :=
  match dmaKey addr with
  | none => (s, true)
  | some _ =>
    if addr < 0x30000000 then (s.headWrite (addr - 0x20000000) b, true)
    else if addr < 0x40000000 then State.bedMove (b.length / 4032 + 1) s (addr - 0x30000000) b
    else (s.dataWrite ((addr - 0x40000000) / 0x1000000) (addr % 0x1000000) b none, true)

/-- A carried timer cell: PRESET and KIND of the new image, the rest of the old cell. -/
def carryTimer (old init : List Byte) : List Byte :=
  slice init 0 4 ++ slice old 4 4 ++ leBytes 4 (bits (leAt init 8 4) 11 8 * 256 + bits (leAt old 8 4) 2 0) ++ slice old 12 4

/-- One state map entry's move, and whether its bytes were taken. -/
def State.mapMove (s : State) (im : List Byte) (e : MapEntry) : State × Bool :=
  let os := mTimer (mapStrand e.old) + 16 * mapCell e.old
  let ns := mapStrand e.new_
  let put := fun (s : State) (l : List (List Byte)) => (s.putBytes (mTimer ns + 16 * mapCell e.new_) l.flatten, true)
  let init := fun i => cellInit0 im ns (mapCell e.new_ + i)
  match e.kind with
  | 1 => put s ((List.range e.count).map fun i =>
      if bit e.flags 0 then init i else carryTimer (s.bytesAt (os + 16 * i) 16) (init i))
  | 2 => put s ((List.range (2 * e.count)).map fun i =>
      if bit e.flags 0 then init i
      else if i % 2 = 0 then s.bytesAt (os + 16 * i) 16
      else slice (init i) 0 8 ++ List.replicate 8 0)
  | 3 => match dmaKey e.old with
    | some k => s.moveWrite e.new_ (s.bytesAt k e.count)
    | none => (s, true)
  | 4 => match dmaKey e.old, dmaKey e.new_ with
    | some a, some b =>
      s.moveWrite e.new_ [BitVec.ofNat 8 (putBit (s.byte b).toNat e.nbit ((s.byte a).toNat.testBit e.obit))]
    | _, _ => (s, true)
  | _ => (s, true)

/-- One relocation entry applied (R230), and whether its bytes were taken. -/
def State.relocOne (s : State) (e : Nat × Nat) : State × Bool :=
  match dmaKey e.1 with
  | some k => s.moveWrite e.1 (leBytes 4 ((s.rd k 4 + e.2) % 2 ^ 32))
  | none => (s, true)

/-- An edge bit set at its task's first copy-in: the constant, or the image bit as delivered, with forces (R222). -/
def State.edgeInit (s : State) (e : EdgeInit) : State :=
  let off := e.old - 0x20000000
  let area := areaOf off
  let cur := s.forcesOn.foldl (fun (b : Byte) f =>
    let i := off - areaBase area - fOff f.key
    if fArea f.key = area ∧ fOff f.key ≤ off - areaBase area ∧ i < fBytes f.key then forceByte (forceAt f i) b else b)
    (s.byte (mHead + off))
  let v := if bit e.flags 1 then bit e.flags 2 else cur.toNat.testBit e.obit
  match dmaKey e.new_ with
  | some k =>
    let s := s.finishApply
    (s.moveWrite e.new_ [BitVec.ofNat 8 (putBit (s.byte k).toNat e.nbit v)]).1
  | none => s

/-! ### Tables -/

/-- Task ID and contents of each entry of a SECTIONS or LISTS section (R226). -/
def blobs : Nat → List Byte → List (Nat × List Byte)
  | 0, _ => []
  | n + 1, b =>
    if b.length < 8 then []
    else
      let len := leAt b 4 4
      (leAt b 0 4, slice b 8 len) :: blobs n (b.drop (8 + len))

/-- The new TSK objects and TDS.OWNERS (R241, R248). -/
def State.applyTables (s : State) (im : List Byte) : State :=
  let tasks := imBytes im 2 0
  let secs := blobs 256 (imBytes im 3 0)
  let lists := blobs 256 (imBytes im 4 0)
  let own := imBytes im 5 0
  let s := s.each ((List.range 256).filter fun t => t ≠ 0) fun s t =>
    let e := tasks.drop (16 * (t - 1))
    let of := fun (l : List (Nat × List Byte)) => ((l.find? fun x => x.1 = t).map Prod.snd).getD []
    let s := (s.setOb (K.TSK_CFG t) (leAt e 0 4)).setOb (K.TSK_PERIOD t) (leAt e 4 4)
    let s := (s.setOb (K.TSK_TRIGGER t) (leAt e 8 2)).setOb (K.TSK_TRAPMASK t) (leAt e 12 4)
    (s.setDom (K.TSK_SECTIONS t) (of secs)).setDom (K.TSK_LISTS t) (of lists)
  if own = [] then { s with owners := [] }
  else s.each (List.range 16384) fun s l => s.setOwner l (leAt own (2 * l) 2)

/-- The tables as they stand, kept for a RETREAT (R244). -/
def State.keepTables (s : State) : State :=
  let hi := fun (k : Nat) => k / 65536
  let tsk := fun (k : Nat) => decide (hi k = 0x21) && [K.TSK_CFG (k % 256), K.TSK_PERIOD (k % 256),
    K.TSK_TRIGGER (k % 256), K.TSK_TRAPMASK (k % 256), K.TSK_SECTIONS (k % 256), K.TSK_LISTS (k % 256)].contains k
  { s with olc := { s.olc with
    prevObjs := s.objs.filter fun e => tsk e.1
    prevDoms := s.doms.filter fun e => tsk e.1 || decide (e.1 = K.OLC_ACTIVE_HASH)
    prevOwners := s.owners
    prevRetain := s.str.retainId
    prevMapBed := s.olc.mapBed } }

/-- The kept tables put back. -/
def State.restoreTables (s : State) : State :=
  let o := s.olc
  let s := s.each ((List.range 256).filter fun t => t ≠ 0) fun s t =>
    let s := s.each [K.TSK_CFG t, K.TSK_PERIOD t, K.TSK_TRIGGER t, K.TSK_TRAPMASK t] fun s k =>
      s.setOb k (mget objDefault o.prevObjs k)
    s.each [K.TSK_SECTIONS t, K.TSK_LISTS t] fun s k => s.setDom k (mget (fun _ => []) o.prevDoms k)
  { s with owners := o.prevOwners }

end Sys2Proof.Machine
end

