-- ==== Sys2Proof/Machine/OlcOps.lean ====
section
/-! DEFINITION. Online change (R234–R246): loading and the stage region, verification, preparation, the commit on one
partner and in a pair, completion, and return to the previous program. -/

namespace Sys2Proof.Machine

def State.setOlc (s : State) (f : Olc → Olc) : State := { s with olc := f s.olc }

/-- DIC.RESULT of a session (R59). -/
def resultOf (key st reason dies : Nat) : Nat := key / 256 * 2 ^ 48 + key % 256 * 2 ^ 40 + dies * 2 ^ 24 + reason * 2 ^ 16 + st

def State.setResult (s : State) (n key st reason dies : Nat) : State :=
  s.setSes n { s.ses n with result := resultOf key st reason dies }

def OlcSt.code : OlcSt → Nat
  | .idle => 0
  | .loading => 1
  | .loaded => 2
  | .verifying => 3
  | .verified => 4
  | .prepared => 5
  | .committing => 6
  | .committed => 7
  | .retreating => 8

/-- OLC.STATE (R257). -/
def Olc.state (o : Olc) : Nat := 32 * b2n o.abortLate + 16 * b2n o.retreatOk + o.st.code

/-- REASON codes of R258. -/
def olFORMAT : Nat := 1
def olGAP : Nat := 2
def olHASH : Nat := 3
def olSIGNATURE : Nat := 4
def olKEY : Nat := 5
def olFITTED : Nat := 6
def olTIDE : Nat := 7
def olKEEPER : Nat := 8
def olPLACEMENT : Nat := 9
def olRELOC : Nat := 10
def olBUDGET : Nat := 14
def olNOQUIESCE : Nat := 15
def olABORTLATE : Nat := 16
def olCONFIRM : Nat := 17
def olNORETREAT : Nat := 18

/-- An outcome recorded.
(DESIGN CHOICE, safe: log 81.) -/
def State.olcResult (s : State) (st reason detail dies : Nat) : State :=
  s.setOlc fun o => { o with status := st, reason := reason, detail := detail, dies := dies, disabled := 0 }

/-! ### Loading (R234, R235) -/

/-- Offset of the stage region in Headland SRAM. -/
def State.stageAt (s : State) : Nat := s.ob K.OLC_STAGE_BASE - 0x20000000

/-- Header and directory as the stage region holds them, which begin it. -/
def State.stageHead (s : State) : List Byte := s.bytesAt (mHead + s.stageAt) (64 + 16 * 64)

/-- CODE sections of a directory. -/
def codeSects (h : List Byte) : List Sect := (imDir h).filter fun e => e.typ = 1

/-- Stage offset of an image byte that is not CODE: such bytes lie together in image order (R235).
(DESIGN CHOICE, unsafe: log 133.) -/
def stageOff (h : List Byte) (x : Nat) : Nat :=
  x - ((codeSects h).map fun e => Nat.min e.len (x - e.off)).foldl (· + ·) 0

/-- The bank that holds the loaded image's code: a Strand's alternate bank, and from its switch on its active one (R240, R241). -/
def State.newBank (s : State) (n : Nat) : Nat := if s.olc.switched.contains n then s.activeBank n else s.altBank n

/-- Where the OLC unit places an image byte (R235). -/
def State.imgKey (s : State) (h : List Byte) (x : Nat) : Option Nat :=
  match (codeSects h).find? fun e => decide (e.off ≤ x) && decide (x < e.off + e.len) with
  | some e => if s.strandFitted e.target ∧ x - e.off < 0x400000 then some (s.newBank e.target + (x - e.off)) else none
  | none => let k := stageOff h x; if k < 0x200000 then some (mHead + s.stageAt + k) else none

/-- The loaded image, each byte read back from the place where it lies (R236). -/
def State.loadedImage (s : State) : List Byte :=
  let h := s.stageHead
  (List.range (imLength h)).map fun x =>
    match s.imgKey h x with
    | some k => s.byte k
    | none => 0

/-- A range added to a set of ranges, merged with those it touches. -/
def rangeAdd (r : Nat × Nat) (l : List (Nat × Nat)) : List (Nat × Nat) :=
  let hit := l.filter fun q => decide (q.1 ≤ r.2) && decide (r.1 ≤ q.2)
  let rest := l.filter fun q => !(decide (q.1 ≤ r.2) && decide (r.1 ≤ q.2))
  (hit.foldl (fun a q => (Nat.min a.1 q.1, Nat.max a.2 q.2)) r) :: rest

/-- Every byte of lo..hi lies in the set. -/
def rangeHas (l : List (Nat × Nat)) (lo hi : Nat) : Bool :=
  decide (hi ≤ lo) || l.any fun q => decide (q.1 ≤ lo) && decide (hi ≤ q.2)

/-- The ranges of image bytes that are not CODE. -/
def plainRanges (h : List Byte) : List (Nat × Nat) :=
  let c := codeSects h
  let cuts := 0 :: c.map fun e => e.off + e.len
  cuts.map fun lo =>
    (lo, (c.map fun e => if lo ≤ e.off then e.off else imLength h).foldl Nat.min (imLength h))

/-- Header and directory are whole. -/
def State.headWhole (s : State) (w : List (Nat × Nat)) : Bool :=
  rangeHas w 0 64 && rangeHas w 0 (64 + 16 * imNsect s.stageHead)

/-- LOAD_DONE finds an unwritten byte that is not CODE. -/
def State.loadGap (s : State) : Bool :=
  !s.headWhole s.olc.written || !((plainRanges s.stageHead).all fun r => rangeHas s.olc.written r.1 r.2)

/-- LOAD: alternate banks and stage region cleared (R234). -/
def State.olcLoad (s : State) : State :=
  let s := s.each s.strands fun s n => s.clearMem (s.altBank n) 0x400000
  let s := s.clearMem (mHead + s.stageAt) 0x200000
  (s.setOlc fun o => { o with
    st := .loading
    written := []
    bankWritten := []
    abortLate := false
    retreatOk := false
    asker := none
    ask := []
    cand := none
    voted := false
    token := none }).setDom K.OLC_HASH []

/-- Bytes of a closed OLC.IMAGE transfer, by image offset, placed in order; false where a later byte comes before the
header and the directory (R235). -/
def State.imageClose (s : State) (b : List (Nat × Byte)) : State × Bool :=
  let put := fun (h : List Byte) (s : State) (e : Nat × Byte) =>
    let s := match s.imgKey h e.1 with
      | some k => s.setByte k e.2
      | none => s
    s.setOlc fun o => { o with written := rangeAdd (e.1, e.1 + 1) o.written }
  let first := b.filter fun e => decide (e.1 < 64)
  let s1 := first.foldl (put []) s
  let lim := if rangeHas s1.olc.written 0 64 then 64 + 16 * imNsect s1.stageHead else 64
  let dir := b.filter fun e => decide (64 ≤ e.1) && decide (e.1 < lim)
  let s2 := dir.foldl (put []) s1
  let rest := b.filter fun e => decide (lim ≤ e.1)
  if rest.isEmpty then (s2, true)
  else if s2.headWhole s2.olc.written then
    let h := s2.stageHead
    let s3 := rest.foldl (put h) s2
    let done := fun (s : State) (e : Sect) => rangeHas s.olc.written e.off (e.off + e.len)
    let bad := (imDir h).any fun e => done s3 e && !done s2 e &&
      decide (crc32c (slice s3.loadedImage e.off e.len) ≠ e.crc)
    (if bad then s3.olcResult (Config.olcStatus olHASH) olHASH 0 0 else s3, true)
  else (s, false)

/-! ### VERIFY (R236) -/

/-- The state with the image's tables, as the placement check sees it. -/
def State.placed (s : State) (im : List Byte) : State :=
  (s.applyTables im).setOlc fun o => { o with
    blank := maskOf ((bitList 7 o.blank).filter fun n => (imBytes im 1 n).isEmpty) }

/-- R170 code of the first placement check that fails. -/
def State.placementErr (s : State) (im : List Byte) : Nat :=
  let p := s.placed im
  ((p.usedTasks.findSome? p.taskErr).getD 0) / 2 ^ 24

/-- The first check of VERIFY that fails, 0 where all pass. A RETREAT's moves come while the image's own program runs, so its map is
held to what the image's state map covers (R233).
(DEDUCED, unsafe: log 117.) -/
def State.verifyReason (s : State) (im : List Byte) : Nat :=
  let map := mapEntries (imBytes im 7 0)
  let back := mapEntries (imBytes im 9 0)
  if !(headerOk im && dirOk im && mapOk (imBytes im 7 0) && mapOk (imBytes im 9 0)) then olFORMAT
  else if !imCrcOk im then olHASH
  else if !imKeyOk im (s.governing im) then olKEY
  else if !imSigOk im then olSIGNATURE
  else if imFitted im &&& s.part.fitted ≠ imFitted im then olFITTED
  else if imPeriod im ≠ s.ob K.TDS_PERIOD then olTIDE
  else if (imBytes im 1 1).take (imKeeperLen im) ≠ s.bytesAt (s.activeBank 1) (imKeeperLen im) then olKEEPER
  else if s.placementErr im ≠ 0 then olPLACEMENT
  else if relocOrderOk s.part.fitted map (relocEntries (imBytes im 8 0)) &&
      relocOrderOk s.part.fitted back (relocEntries (imBytes im 10 0)) && s.retainClear s.olc.mapBed map &&
          s.retainClear (mapBedrock map) back then 0
  else olRELOC

/-- The checks of VERIFY end. -/
def State.verifyDone (s : State) : State :=
  if s.olc.st ≠ .verifying then s
  else
    let im := s.loadedImage
    let r := s.verifyReason im
    let s := if r = olFORMAT then s else s.setDom K.OLC_HASH (imHash im)
    if r = 0 then (s.olcResult stOK 0 0 0).setOlc fun o => { o with st := .verified, bankWritten := [] }
    else (s.olcResult (Config.olcStatus r) r (if r = olPLACEMENT then s.placementErr im else 0) 0).setOlc fun o =>
      { o with st := .loaded }

/-! ### PREPARE (R237, R245) -/

/-- The map and relocation list of the change in hand. -/
def State.changeMap (s : State) (im : List Byte) : List MapEntry :=
  mapEntries (imBytes im (if s.olc.retreat then 9 else 7) 0)

def State.changeRelocs (s : State) (im : List Byte) : List (Nat × Nat) :=
  relocEntries (imBytes im (if s.olc.retreat then 10 else 8) 0)

/-- A Strand's vote: 0 yes, else its reason in the order of R237. -/
def State.strandVote (s : State) (n : Nat) : Nat :=
  if s.domOn (dS n) = false then 1
  else if s.olc.bankWritten.contains n then 2
  else if s.kindChange s.loadedImage (mapEntries (imBytes s.loadedImage 7 0)) n then 3
  else 0

/-- Votes asked of every fitted Strand, and of the partner where it is a standby (0). -/
def State.askVotes (s : State) (ses : Option Nat) (partner : Bool) : State :=
  (s.setOlc fun o => { o with
    ask := (if partner then [0] else []) ++ s.strands
    yes := []
    no := []
    asker := ses }).when partner fun s => s.moorSend (.prepare (s.dom K.OLC_HASH))

/-- R258's reason for the order of R237. -/
def prepareReason (k : Nat) : Nat :=
  match k with
  | 1 => 0x13
  | 2 => 0x14
  | 3 => 0x0B
  | 4 => 0x0C
  | _ => 0x0D

/-- Every vote is in; a standby answers the forwarded PREPARE, and the active partner tells the standby of one that failed (R237,
R245).
(DEDUCED, unsafe: log 118.) -/
def State.prepareEnd (s : State) : State :=
  let no := s.olc.no
  let s := s.when (decide (s.red.role = .standby) || (decide (no ≠ []) && s.peerStandby)) fun s => s.moorSend (.prepareVote no.isEmpty)
  if no = [] then
    let s' := (s.olcResult stOK 0 0 0).setOlc fun o => { o with st := .prepared, asker := none }
    match s.olc.asker with
    | some n => s'.setResult n K.OLC_CMD stOK 0 0
    | none => s'
  else
    let dies := maskOf ((no.filter fun e => e.1 ≠ 0).map Prod.fst)
    let k := (no.map Prod.snd).foldl Nat.min 5
    let s' := (s.olcResult stCOMMIT (prepareReason k) 0 dies).setOlc fun o => { o with asker := none }
    match s.olc.asker with
    | some n => s'.setResult n K.OLC_CMD stCOMMIT 0 dies
    | none => s'

/-- One vote arrives, or is taken as a refusal: die 0 is the partner. -/
def State.prepareTake (s : State) (die k : Nat) : State :=
  if s.olc.st = .verified ∧ s.olc.ask.contains die then
    let s := s.setOlc fun o => { o with
      ask := o.ask.filter fun d => d ≠ die
      yes := if k = 0 then o.yes ++ [die] else o.yes
      no := if k = 0 then o.no else o.no ++ [(die, k)] }
    if s.olc.ask = [] then s.prepareEnd else s
  else s

/-- A vote; the partner's no to a standby that is PREPARED takes that back, since no Strand is prepared then (R237).
(DEDUCED, unsafe: log 118.) -/
def State.prepareVote (s : State) (die : Nat) (yes : Bool) : State :=
  if s.red.role = .standby ∧ die = 0 ∧ yes = false ∧ s.olc.st = .prepared then
    s.setOlc fun o => { o with st := .verified, ask := [] }
  else
  s.prepareTake die (if die = 0 then (if yes then 0 else 5) else s.strandVote die)

/-- The standby receives the forwarded PREPARE (R245). -/
def State.partnerPrepare (s : State) (hash : List Byte) : State :=
  if s.red.role ≠ .standby then s
  else if (s.olc.st = .verified ∨ s.olc.st = .prepared) ∧ s.dom K.OLC_HASH = hash then
    (s.setOlc fun o => { o with st := .verified }).askVotes none false
  else s.moorSend (.prepareVote false)

/-! ### COMMIT (R238–R240) -/

/-- The partner that holds the grant is not needed, or is this one (R245). -/
def State.olcHere (s : State) : Bool := !s.inPair || s.red.grant

/-- A quiescent cut (R239). -/
def State.quiescent (s : State) : Bool :=
  decide (s.tds.st = .running) && s.tds.copyIns.isEmpty &&
    s.usedTasks.all fun t => (decide ((s.task t).st = .idle) || decide ((s.task t).st = .disabled)) &&
      decide ((s.task t).held = [])

/-- T of the change in hand. -/
def State.relocTime (s : State) (back : Bool) : Nat :=
  let im := s.loadedImage
  commitTime (mapEntries (imBytes im (if back then 9 else 7) 0)) (relocEntries (imBytes im (if back then 10 else 8) 0))

/-- The commit point: tokens name the slack point of this tide, the standby's among them (R240, R245). -/
def State.commitPoint (s : State) : State :=
  ((s.setOlc fun o => { o with point := true }).setOb K.OLC_COMMIT_AT (s.ob K.TDS_TIDE)).when s.peerStandby fun s =>
    s.moorSend (.commitToken (s.ob K.TDS_TIDE))

/-- A change begins to look for its commit tide; while the tide is stopped it switches at once. -/
def State.beginCommit (s : State) (back : Bool) : State :=
  let s := s.setOb K.OLC_RELOC_TIME (s.relocTime back)
  let now := decide (s.tds.st = .stopped)
  let s := (s.olcResult stOK 0 0 0).setOlc fun o => { o with
    st := if back then .retreating else .committing
    retreat := back
    tested := 0
    nextTide := false
    cand := none
    point := false
    switched := []
    moved := false
    confirmed := []
    lost := []
    late := false }
  if now then s.commitPoint else s

/-- A change looks for its cut. -/
def Olc.seeking (o : Olc) : Bool := (decide (o.st = .committing) || decide (o.st = .retreating)) && !o.point

/-- The cut of this tide is tested: the tide is at or after OLC.COMMIT_TIDE, in the count that wraps, or has begun after the COMMIT
where that is 0 (R139, R239).
(DEDUCED, unsafe: log 119.) -/
def State.seekHere (s : State) : Bool :=
  if s.ob K.OLC_COMMIT_TIDE = 0 then s.olc.nextTide
  else decide (sub32 (s.ob K.TDS_TIDE) (s.ob K.OLC_COMMIT_TIDE) < 2 ^ 31)

/-- The test of a cut (R239, R240, R245); a standby keeps whether its own cut of the tide was quiescent. -/
def State.cutTest (s : State) : State :=
  let t := s.ob K.TDS_TIDE
  if s.red.role = .standby then
    s.setOlc fun o => { o with cand := if s.quiescent then some t else none }
  else if s.olc.seeking = true ∧ s.seekHere = true ∧ s.olc.tested < s.ob K.OLC_COMMIT_WINDOW then
    let s := s.setOlc fun o => { o with tested := o.tested + 1 }
    if s.quiescent then
      let s := s.setTds fun d => { d with hold := true }
      if s.peerStandby then (s.setOlc fun o => { o with cand := some t }).moorSend (.cutTide t) else s.commitPoint
    else s
  else s

/-- A cut is passed over; the held releases are decided. -/
def State.passCut (s : State) : State := (s.setOlc fun o => { o with cand := none }).releaseHeld false

/-- No quiescent cut within the window: back to PREPARED, or to COMMITTED for a retreat (R239). -/
def State.noQuiesce (s : State) : State :=
  if s.olc.seeking ∧ s.olc.cand = none ∧ s.ob K.OLC_COMMIT_WINDOW ≤ s.olc.tested then
    (s.olcResult (Config.olcStatus olNOQUIESCE) olNOQUIESCE 0 0).setOlc fun o => { o with
      st := if o.retreat then .committed else .prepared, retreat := false }
  else s

/-- The standby's vote on the candidate cut. -/
def State.standbyVote (s : State) (t : Nat) (yes : Bool) : State :=
  if s.olc.seeking ∧ s.olc.cand = some t then (if yes then s.commitPoint else s.passCut) else s

/-- No vote 10 µs after the cut (R245). -/
def State.standbyLate (s : State) : State :=
  if s.olc.seeking && s.olc.cand.isSome then s.passCut.incOb K.OLC_DEFERRALS else s

/-- A standby has a change that the active partner may commit: a PREPARED one, or a COMMITTED one to retreat from (R244, R245). -/
def Olc.mayFollow (o : Olc) : Bool := decide (o.st = .prepared) || (decide (o.st = .committed) && o.retreatOk)

/-- The standby votes on its own cut of the tide (R245); a yes holds its event releases (R240). -/
def State.cutTide (s : State) (t : Nat) : State :=
  if s.red.role ≠ .standby then s
  else if s.olc.mayFollow = true ∧ s.olc.cand = some t then
    ((s.setOlc fun o => { o with voted := true, token := none }).setTds fun d => { d with hold := true }).moorSend (.vote t true)
  else s.moorSend (.vote t false)

/-- The active partner's commit token, for a change or for its RETREAT; with the tide stopped no cut has been voted on (R238, R244,
R245). -/
def State.partnerToken (s : State) (t : Nat) : State :=
  if s.red.role = .standby ∧ (s.olc.voted = true ∨ (s.tideStopped = true ∧ s.olc.mayFollow = true)) then
    (s.setOlc fun o => { o with
      st := if o.st = .committed then .retreating else .committing
      token := some t
      voted := false
      retreat := decide (o.st = .committed)
      switched := []
      moved := false
      confirmed := []
      lost := []
      late := false }).commitPoint
  else s

/-- No commit token 2 µs before the slack point (R246). -/
def State.tokenMissing (s : State) : State :=
  if s.red.role = .standby ∧ s.olc.voted then
    let s := (s.setOlc fun o => { o with voted := false, cand := none }).setTds fun d => { d with hold := false, heldEv := [] }
    let s := (s.divergence (s.ob K.TDS_TIDE) [] 2).toUnsynced 7
    if s.resyncCheck = stOK then s.startResync else s
  else s

/-- The discard token of an aborted change (R242).
(DEDUCED, unsafe: log 41.) -/
def State.partnerDiscard (s : State) : State :=
  if s.red.role = .standby ∧ s.olc.point = false ∧ s.olc.st ≠ .committed then
    ((s.setOlc fun o => { o with st := .idle, voted := false, cand := none, ask := [], retreatOk := false })).releaseHeld
      false
  else s

/-! ### Switch and completion (R240, R241, R243) -/

/-- Instant at which the slack window ends (R144). -/
def State.windowEndAt (s : State) : Nat := s.tds.ebbAt + s.tideP - s.ob K.TDS_GUARD

/-- Background work may run: in the slack window, or with the tide stopped (R144, R238). -/
def State.slackOk (s : State) : Bool := s.tds.swin || s.tideStopped

/-- The commit's piece of work has begun, or ends by P − GUARD (R144, R238). -/
def State.commitFits (s : State) : Bool :=
  decide (s.olc.switched ≠ []) || s.tideStopped || decide (s.ns + s.relocTime s.olc.retreat ≤ s.windowEndAt)

/-- A Strand's banks change places and its instruction caches are invalidated; its confirmation is on its way. -/
def State.bankSwitch (s : State) (n : Nat) : State :=
  if (s.olc.st = .committing ∨ s.olc.st = .retreating) ∧ s.olc.point ∧ s.strandFitted n ∧ s.strandUp n ∧
      ¬(s.olc.switched.contains n) ∧ s.slackOk = true ∧ s.commitFits = true then
    let s := s.setOlc fun o => { o with
      active := putBit o.active n (!bit o.active n)
      blank := putBit o.blank n false
      switched := o.switched ++ [n] }
    s.each (List.range 4) fun s m =>
      let c := 4 * (n - 1) + m
      if (s.core c).icache = [] then s else s.setCore c { s.core c with icache := [] }
  else s

/-- Every Strand has confirmed or is lost. -/
def State.allConfirmed (s : State) : Bool := s.strands.all fun n => s.olc.confirmed.contains n || s.olc.lost.contains n

/-- A Strand is recorded as one that does not confirm, and the fault collector told (R243). -/
def State.strandLost (s : State) (n : Nat) : State :=
  (s.setOlc fun o => { o with
    lost := o.lost ++ [n]
    dies := putBit o.dies n true
    reason := olCONFIRM
    status := Config.olcStatus olCONFIRM }).raise 0x07 n n 0 4 0

/-- Strand whose data SRAM an address lies in, 0 for none. -/
def addrStrand (a : Nat) : Nat := if 0x41000000 ≤ a ∧ a < 0x47000000 then (a - 0x40000000) / 0x1000000 else 0

/-- Strands that the two ends of a state map entry lie on, with the memory and the bytes that lie there. -/
def MapEntry.ends (e : MapEntry) : List (Nat × Nat × Nat) :=
  if e.kind ≤ 2 then
    [(mapStrand e.old, mTimer (mapStrand e.old) + 16 * mapCell e.old, 16 * e.cells),
     (mapStrand e.new_, mTimer (mapStrand e.new_) + 16 * mapCell e.new_, 16 * e.cells)]
  else
    let n := if e.kind = 3 then e.count else 1
    ([e.old, e.new_].filter fun a => decide (addrStrand a ≠ 0)).map fun a =>
      (addrStrand a, mData (addrStrand a) + a % 0x1000000, n)

/-- The error of a read of n bytes that channel 6 makes at an address, and of a write there (R420, R426). -/
def State.moveReadErr (s : State) (a n : Nat) : Option CopyErr :=
  let ecc := fun key => (s.badAt key n).map fun o => { code := 5, addr := a + o, dies := 0, done := o }
  match s.place a false with
  | .nowhere d => some { code := 2, addr := a, dies := d, done := 0 }
  | .head off => ecc (mHead + off)
  | .data k off => ecc (mData k + off)
  | _ => none

def State.moveWriteErr (s : State) (a : Nat) : Option CopyErr :=
  match s.place a false with
  | .nowhere d => some { code := 3, addr := a, dies := d, done := 0 }
  | _ => none

/-- The same for cells of a timer array, whose address appears in no map (R420). -/
def State.cellReadErr (s : State) (v n : Nat) : Option CopyErr :=
  let k := mapStrand v
  if !s.strandUp k then some { code := 2, addr := Config.seqAddr s.fresh, dies := 2 ^ k, done := 0 }
  else (s.badAt (mTimer k + 16 * mapCell v) n).map fun o => { code := 5, addr := Config.seqAddr s.fresh, dies := 0, done := o }

def State.cellWriteErr (s : State) (v : Nat) : Option CopyErr :=
  if !s.strandUp (mapStrand v) then some { code := 3, addr := Config.seqAddr s.fresh, dies := 2 ^ mapStrand v, done := 0 } else none

/-- Bytes that a state map entry moves. -/
def MapEntry.bytes (e : MapEntry) : Nat := if e.kind ≤ 2 then 16 * e.cells else if e.kind = 3 then e.count else 1

/-- The error that channel 6 meets on a state map entry: at what it reads, then at what it writes (R410, R426). -/
def State.moveErr (s : State) (e : MapEntry) : Option CopyErr :=
  if 5 ≤ e.kind then none
  else if e.kind ≤ 2 then
    (if bit e.flags 0 then none else s.cellReadErr e.old e.bytes).or (s.cellWriteErr e.new_)
  else ((s.moveReadErr e.old e.bytes).or (if e.kind = 4 then s.moveReadErr e.new_ 1 else none)).or (s.moveWriteErr e.new_)

/-- A halt of channel 6: the Strands whose state is then not in place count as ones that do not confirm; where none is concerned,
the package does (R243, R410).
(DESIGN CHOICE, unsafe: log 115.) -/
def State.moveHalt (s : State) (e : CopyErr) (l : List Nat) : State :=
  let l := (l.filter fun n => decide (n ≠ 0)).dedup
  (s.chanHalt 6 e).each ((if l = [] then [0] else l).filter fun n => !s.olc.lost.contains n) State.strandLost

/-- Strands that an entry's target lies on, and that do not answer. -/
def MapEntry.strands (e : MapEntry) (x : CopyErr) : List Nat :=
  (if e.kind ≤ 2 then mapStrand e.new_ else addrStrand e.new_) :: (List.range 7).filter fun n => decide (n ≠ 0) && bit x.dies n

/-- A write of channel 6 that the supply refuses (R437). -/
def supplyErr (a : Nat) : CopyErr := { code := 3, addr := a, dies := 1, done := 0 }

/-- A state map entry on channel 6; what lies on a lost Strand stays as it was (R231, R241, R410). -/
def State.moveOne (im : List Byte) (s : State) (e : MapEntry) : State :=
  if (e.ends.any fun x => s.olc.lost.contains x.1) = true ∨ 5 ≤ e.kind then s
  else match s.moveErr e with
    | some x =>
      let part := if e.kind = 3 then x.done else 0
      let s := if part = 0 then s else (s.mapMove im { e with count := part }).1
      (s.seqStop 6 e.old e.new_ e.bytes { x with done := part }).moveHalt x (e.strands x)
    | none =>
      let s := s.each e.ends fun s x => if x.1 = addrStrand e.old then s.strandCorr x.1 x.2.1 x.2.2 else s
      let r := s.mapMove im e
      if r.2 then r.1.seqMove 6 e.old e.new_ e.bytes else r.1.moveHalt (supplyErr e.new_) [addrStrand e.old]

/-- A relocation entry on channel 6 (R230, R241, R410). -/
def State.relocMove (s : State) (e : Nat × Nat) : State :=
  if s.olc.lost.contains (addrStrand e.1) then s
  else match (s.moveReadErr e.1 4).or (s.moveWriteErr e.1) with
    | some x => (s.seqStop 6 e.1 e.1 4 { x with done := 0 }).moveHalt x [addrStrand e.1]
    | none =>
      let r := (s.fabricCorr false e.1 4).relocOne e
      if r.2 then r.1.seqMove 6 e.1 e.1 4 else r.1.moveHalt (supplyErr e.1) []

/-- Channel 6 makes the moves and applies the relocation entries (R241, steps 1 and 2); what lies on a lost Strand stays
as it was, and a Strand on which the channel halts counts as one that does not confirm (R243, R410). Bedrock holds the moves until a
commit is applied (R438). The moves are part of the piece of work that began with the bank switch at the slack point, and that R238
has fitted into the slack window (R144). -/
def State.olcMoves (s : State) : State :=
  let im := s.loadedImage
  let map := s.changeMap im
  let rel := s.changeRelocs im
  let s := ((s.finishApply.seqBegin 6).each map (State.moveOne im)).each rel State.relocMove
  (s.seqEnd 6).setOlc fun o => { o with moved := true }

/-- The moves begin once every Strand has confirmed or is lost, as background work (R144, R241). -/
def State.confirmCheck (s : State) : State :=
  if (decide (s.olc.st = .committing) || decide (s.olc.st = .retreating)) && s.olc.point && s.slackOk && s.allConfirmed &&
      !s.olc.moved then
    s.olcMoves
  else s

/-- A confirmation arrives over the Strand's link (R15, R241). -/
def State.bankConfirm (s : State) (n : Nat) : State :=
  if s.linkUp n ∧ s.olc.switched.contains n ∧ ¬(s.olc.confirmed.contains n) ∧ ¬(s.olc.lost.contains n) then
    (s.setOlc fun o => { o with confirmed := o.confirmed ++ [n] }).confirmCheck
  else s

/-- No confirmation 10 µs after the slack point (R243). -/
def State.confirmLost (s : State) (n : Nat) : State :=
  if (s.olc.st = .committing ∨ s.olc.st = .retreating) ∧ s.olc.point ∧ s.strandFitted n ∧
      ¬(s.olc.confirmed.contains n) ∧ ¬(s.olc.lost.contains n) then
    (s.strandLost n).confirmCheck
  else s

/-- Tasks as a START sets them, contexts FREE (R145, R241). -/
def State.tasksAnew (s : State) : State :=
  let s := s.each ((List.range 384).filter fun g => decide ((s.ctx g).task ≠ 0)) fun s g =>
    if (s.ctx g).cs = .free then s else s.modCtx g Ctx.free
  s.each s.usedTasks fun s t => s.setTask t { (s.task t) with
    st := if bit (s.tskCfg t) 20 then .idle else .disabled
    flags := 0
    held := []
    hsec := 0
    disPend := false
    inDone := []
    cbHeld := false
    ended := []
    tideHalt := false }

/-- Tasks with a section on a lost Strand are DISABLED and counted (R243). -/
def State.disableLost (s : State) : State :=
  let bad := s.usedTasks.filter fun t => (s.secs t).any fun i => s.olc.lost.contains (strandOf (s.secEntry t i).core)
  (s.each bad fun s t => s.modTask t fun k => { k with st := .disabled }).setOlc fun o => { o with disabled := bad.length }

/-- EDGE_INIT entries wait for their tasks' first copy-in (R231). -/
def edgeInits (m : List MapEntry) : List EdgeInit :=
  (m.filter fun e => e.kind = 5).map fun e =>
    { flags := e.flags, obit := e.obit, nbit := e.nbit, old := e.old, new_ := e.new_, task := e.count % 256 }

/-- Tables, RETAIN_ID and hash of the new program, which one device record takes; the old ones are kept (R241, R244, R440).
(DESIGN CHOICE, safe: log 114.) -/
def State.tablesForward (s : State) (im : List Byte) (map : List MapEntry) : State :=
  let s := s.keepTables.applyTables im
  let s := (s.setDom K.OLC_ACTIVE_HASH (imHash im)).setOlc fun o => { o with mapBed := mapBedrock map }
  let s := s.devRecord fun s => s
  { s with str := { s.str with retainId := imRetainId im } }

/-- The same of the previous program (R244). -/
def State.tablesBack (s : State) : State :=
  let o := s.olc
  let s := s.restoreTables.setDom K.OLC_ACTIVE_HASH (mget (fun _ => []) o.prevDoms K.OLC_ACTIVE_HASH)
  let s := s.setOlc fun o => { o with mapBed := o.prevMapBed }
  let s := s.devRecord fun s => s
  { s with str := { s.str with retainId := o.prevRetain } }

/-- OLC.STATE and OLC.RESULT as a change completes (R234, R242, R243).
(DEDUCED, unsafe: log 41.) -/
def State.olcFinish (s : State) (im : List Byte) (map : List MapEntry) (back : Bool) : State :=
  s.setOlc fun o => { o with
    st := if back then .verified else .committed
    retreatOk := !back && !imNoRetreat im
    abortLate := o.late
    status := if o.lost ≠ [] then o.status else stOK
    reason := if o.lost ≠ [] then olCONFIRM else if o.late then olABORTLATE else 0
    edgeInits := edgeInits map
    point := false
    moved := false
    switched := []
    cand := none
    token := none
    retreat := false
    bankWritten := [] }

/-- The change is complete, in the slack window (R144, R241, steps 3–6). -/
def State.olcComplete (s : State) : State :=
  if (s.olc.st = .committing ∨ s.olc.st = .retreating) ∧ s.olc.moved ∧ s.slackOk = true then
    let im := s.loadedImage
    let back := s.olc.retreat
    let map := s.changeMap im
    let s := if back then s.tablesBack else s.tablesForward im map
    let s := (s.tasksAnew.disableLost).orphanAll
    ((s.incOb K.OLC_COMMITS).olcFinish im map back).releaseHeld true
  else s

/-- Edge bits of a task whose first copy-in ends (R222, R231).
(DEDUCED, unsafe: log 40.) -/
def State.edgeInitsOf (s : State) (t : Nat) : State :=
  let l := s.olc.edgeInits.filter fun e => e.task = t
  if l = [] then s
  else (s.each l State.edgeInit).setOlc fun o => { o with edgeInits := o.edgeInits.filter fun e => e.task ≠ t }

/-! ### Commands (R234, R242, R244) -/

/-- Status of an OLC.CMD value, and the reason that OLC.RESULT records for a refusal that has one. -/
def State.olcCmdCheck (s : State) (v : Nat) : Nat × Nat :=
  let o := s.olc
  let budget := fun (back : Bool) =>
    if s.tds.st ≠ .stopped ∧ s.slackBudget < s.relocTime back then (stSTATE, olBUDGET) else (stOK, 0)
  let here := s.olcHere
  match v with
  | 1 => if o.st = .idle then (stOK, 0) else (stSTATE, 0)
  | 2 => if o.st ≠ .loading then (stSTATE, 0) else if s.loadGap then (stRANGE, olGAP) else (stOK, 0)
  | 3 => if o.st = .loaded then (stOK, 0) else (stSTATE, 0)
  | 4 => if o.st ≠ .verified ∨ here = false then (stSTATE, 0) else if o.ask ≠ [] then (stBUSY, 0) else (stOK, 0)
  | 5 => if o.st ≠ .prepared ∨ here = false then (stSTATE, 0) else budget false
  | 6 => if here = false ∨ o.st = .idle ∨ o.st = .committed ∨ o.st = .retreating then (stSTATE, 0) else (stOK, 0)
  | 7 => if o.st = .committed ∧ here = true then (stOK, 0) else (stSTATE, 0)
  | _ => if o.st ≠ .committed ∨ here = false then (stSTATE, 0)
         else if o.retreatOk = false then (stSTATE, olNORETREAT) else budget true

/-- A PREPARE that an ABORT overtakes is answered COMMIT. -/
def State.askerAborted (s : State) : State :=
  match s.olc.asker with
  | some n => s.setResult n K.OLC_CMD stCOMMIT 0 0
  | none => s

/-- ABORT: before the commit point the change is discarded, after it the change goes on (R242). -/
def State.olcAbort (s : State) : State :=
  if s.olc.st = .committing ∧ s.olc.point = true then s.setOlc fun o => { o with late := true, status := stOK, reason := olABORTLATE }
  else
    (((s.askerAborted.olcResult stOK 0 0 0).setOlc fun o => { o with
      st := .idle
      ask := []
      asker := none
      cand := none
      retreatOk := false }).releaseHeld false).when s.peerStandby fun s => s.moorSend .discardToken

/-- RELEASE: the previous program is discarded (R244). -/
def State.olcRelease (s : State) : State :=
  (s.olcResult stOK 0 0 0).setOlc fun o => { o with
    st := .idle
    retreatOk := false
    prevObjs := []
    prevDoms := []
    prevOwners := []
    prevRetain := 0
    prevMapBed := [] }

def State.olcCmd (s : State) (ses v : Nat) : State :=
  match v with
  | 1 => (s.olcResult stOK 0 0 0).olcLoad
  | 2 => (s.olcResult stOK 0 0 0).setOlc fun o => { o with st := .loaded }
  | 3 => (s.olcResult stOK 0 0 0).setOlc fun o => { o with st := .verifying }
  | 4 => s.askVotes (some ses) s.peerStandby
  | 5 => s.beginCommit false
  | 6 => s.olcAbort
  | 7 => s.olcRelease
  | _ => s.beginCommit true

/-- What a refused command leaves in OLC.RESULT, where the refusal has a reason. -/
def State.olcRefused (s : State) (v : Nat) : State :=
  let r := s.olcCmdCheck v
  if r.2 = 0 then s
  else
    let s := if r.2 = olBUDGET then s.setOb K.OLC_RELOC_TIME (s.relocTime (decide (v = 8))) else s
    s.olcResult r.1 r.2 0 0

end Sys2Proof.Machine
end

