-- ==== Sys2Proof/Machine/ResetOps.lean ====
section
/-! DEFINITION. Power domains, SLEEP and resets (R520–R534): what a domain that goes off loses, what a package reset keeps,
and the checks of a power-down. -/

namespace Sys2Proof.Machine

def State.setPwr (s : State) (f : Pwr → Pwr) : State := { s with pwr := f s.pwr }

/-! ### What a domain loses -/

/-- The image hashes, which are records of Bedrock of their own (R432). -/
def isHash (key : Nat) : Bool := decide (key = K.SEC_IMAGE_HASH) || decide (key = K.OLC_ACTIVE_HASH)

/-- Objects of the domains named take their defaults, but for counters (R44, R494); what Bedrock retains of them comes back with the
next start. -/
def State.dropObjs (s : State) (gone : Nat → Bool) : State :=
  { s with
    objs := s.objs.filter fun e => !gone (blockDomain e.1) || isCounter e.1
    doms := s.doms.filter fun e => !gone (blockDomain e.1) || isHash e.1 }

/-- What a watchdog keeps through a reset of its domain: that its clock is LOST, which AO watches (R475). -/
def keepLost (l : SMap Wdg) (gone : Nat → Bool) : SMap Wdg :=
  l.filterMap fun e =>
    if !gone e.1 then some e else if e.2.lost then some (e.1, { Wdg.init with lost := true }) else none

/-- A Strand's memories, contexts and core state are lost (R522, R523). -/
def State.clearStrand (s : State) (n : Nat) : State :=
  let lost := fun (a : Nat) => let m := a / 2 ^ 32; m = 0x10 + n || m = 0x20 + n || m = 0x30 + n || m = 0x40 + n
  let ofCore := fun (c : Nat) => decide (c < 24) && decide (strandOf c = n)
  { s with
    mem := s.mem.filter fun c => !lost c.1
    ecc := s.ecc.filter fun c => !lost c.1
    ctxs := s.ctxs.filter fun e => !ofCore (e.1 / 16)
    cores := s.cores.filter fun e => !ofCore e.1
    wdg := keepLost s.wdg ofCore
    olc := { s.olc with blank := putBit s.olc.blank n true }
    retAt := s.retAt.filter fun e => decide (e.1 / 4 ≠ n) }

/-- The logic side of Breakwater as it comes up; the field side is its own (R364, R523). -/
def Fio.logicReset (f : Fio) : Fio :=
  { State.reset.fio with
    fstate := f.fstate
    la := f.la
    lb := f.lb
    cfgPend := if f.fstate = 3 then [] else [0, 1, 2, 3, 4] ++ (List.range 16).map fun n => 16 + n
    fieldCfg := f.fieldCfg
    cmd := f.cmd
    recovered := f.recovered
    thermal := f.thermal
    off := f.off
    offSeen0 := f.offSeen0
    settle := f.settle
    refAt := f.refAt
    limitAt := f.limitAt
    offAt := f.offAt
    upNew := f.upNew
    safeDue := f.safeDue
    ovlDue := f.ovlDue }

/-- Bedrock keeps its contents, journal and saved wear counts; what its registers held is lost. -/
def Bdr.powerLoss (b : Bdr) : Bdr :=
  { State.reset.bdr with
    slots := b.slots
    next := b.next
    wear := b.wearSaved
    wearSaved := b.wearSaved
    inhibit := b.inhibit }

/-- Everything that a domain loses by going off. -/
def State.domClear (s : State) (d : Nat) : State :=
  let s := s.dropObjs fun k => decide (k = d)
  if 9 ≤ d ∧ d ≤ 14 then s.clearStrand (d - 8)
  else if d = dNV then { s with bdr := s.bdr.powerLoss }
  else if d = dNW then
    { s with
      hnw := State.reset.hnw
      mem := s.mem.filter fun c => decide (c.1 / 2 ^ 32 ≠ 0x52) && decide (c.1 / 2 ^ 32 ≠ 0x53) }
  else if d = dRL then { s with red := State.reset.red }
  else if d = dMB then { s with mbc := [] }
  else if d = dDM then { s with dma := [] }
  else if d = dFL then { s with fio := s.fio.logicReset }
  else s

/-! ### Resets (R533, R534) -/

/-- A byte of Bedrock. -/
def inBedrock (key : Nat) : Bool := decide (key / 2 ^ 32 = 0x51)

/-- Where tidemark buffer b lies in Headland global data (R511). -/
def State.snapBase (s : State) (b : Nat) : Nat := mHead + (s.ob K.SNP_BASE - 0x20000000) + b * 0x10000

/-- A byte of the four tidemark buffers (R511). -/
def State.inSnapshots (s : State) (key : Nat) : Bool := decide (s.snapBase 0 ≤ key) && decide (key < s.snapBase 4)

/-- The state in a package reset: what R533 keeps, and every other part as it is after reset. -/
def State.rebuilt (s : State) : State :=
  let kept := fun (k : Nat) => (blockDomain k = dAO || blockDomain k = dBK) && !(k / 65536 = 0x50 && k % 256 = 0x19 &&
    decide (k / 256 ≤ 0x5008))
  { State.reset with
    part := s.part
    objs := s.objs.filter fun e => kept e.1 || isCounter e.1
    doms := s.doms.filter fun e => kept e.1 || isHash e.1
    mem := s.mem.filter fun c => inBedrock c.1 || s.inSnapshots c.1
    olc := { State.reset.olc with mapBed := s.olc.mapBed }
    bdr := { State.reset.bdr with
      slots := s.bdr.slots
      next := s.bdr.next
      wear := s.bdr.wear
      wearSaved := s.bdr.wearSaved
      inhibit := s.bdr.inhibit }
    ntm := { State.reset.ntm with mono := s.ntm.mono }
    fio := s.fio.logicReset
    cal := s.cal
    rsv := s.rsv
    chk := s.chk
    wdg := keepLost s.wdg fun _ => true
    flt := s.flt
    sta := s.sta
    snp := s.snp
    hlt := s.hlt
    pmc := s.pmc
    str := { s.str with step := 1, typ := 0, notime := false, service := false, reason := 0, keeper := false }
    pwr := { State.reset.pwr with
      refLost := s.pwr.refLost
      sdLost := s.pwr.sdLost
      railsOk := s.pwr.railsOk
      fabricLost := s.pwr.fabricLost
      inReset := true }
    fresh := s.fresh
    pending := s.pending }

/-- A package reset from the source of one bit of PWR.RESET_CAUSE: a commit in progress completes first (R533); while one
is asserted already, the source only sets its bit (R534).
(DESIGN CHOICE, unsafe: log 9.) -/
def State.packageReset (s : State) (cause : Nat) : State :=
  if s.pwr.inReset then s.setOb K.PWR_RESET_CAUSE (putBit (s.ob K.PWR_RESET_CAUSE) cause true)
  else ((s.finishApply.rebuilt.duesAnew).incOb K.PWR_RESETS).setOb K.PWR_RESET_CAUSE (2 ^ cause)

/-- A power-up of AO (R528, R533): what is left is Bedrock, BK but for its counters (R44, R465), the device records and the
field side. -/
def State.powerUpAO (s : State) : State :=
  let bk := fun (k : Nat) => decide (blockDomain k = dBK)
  let r := s.finishApply.rebuilt
  { r with
    objs := r.objs.filter fun e => (bk e.1 && !isCounter e.1) || decide (e.1 = K.STR_STARTS)
    doms := r.doms.filter fun e => bk e.1 || isHash e.1
    mem := r.mem.filter fun c => inBedrock c.1
    bdr := { r.bdr with wear := s.bdr.wearSaved }
    ntm := State.reset.ntm
    chk := State.reset.chk
    wdg := []
    flt := State.reset.flt
    sta := State.reset.sta
    snp := State.reset.snp
    hlt := State.reset.hlt
    pmc := State.reset.pmc
    pwr := { State.reset.pwr with inReset := true } }

/-- RESET_OUT_N is low from the start of a reset until 1 ms after its release (R534). -/
def State.resetOutLow (s : State) : Bool :=
  s.pwr.inReset || (match s.pwr.relAt with
    | some t => decide (s.ntm.mono < t + 1000000)
    | none => false)

/-! ### Power-down (R521, R522) -/

def State.pwrReason (s : State) (d : Nat) : Nat := mget (fun _ => 0) s.pwr.reason d
def State.setPwrReason (s : State) (d r : Nat) : State :=
  s.setPwr fun p => { p with reason := mput (fun _ => 0) p.reason d r }

def DomSt.code : DomSt → Nat
  | .off => 0
  | .ramping => 1
  | .on => 2
  | .draining => 3
  | .goingOff => 4

/-- A Strand is used: a context not FREE, or a task placed there while the tide is not STOPPED (R521). -/
def State.strandInUse (s : State) (n : Nat) : Bool :=
  ((List.range 64).any fun i => decide ((s.ctx (64 * (n - 1) + i)).cs ≠ .free)) ||
    (decide (s.tds.st ≠ .stopped) &&
      s.usedTasks.any fun t => (s.secs t).any fun i => decide (strandOf (s.secEntry t i).core = n))

/-- The first reason of R521 that refuses a power-down, 0 where none does; R427 refuses one of DM while a channel is busy and
names no reason, and the model gives IN_USE.
(DESIGN CHOICE, unsafe: log 139.) -/
def State.offReason (s : State) (d : Nat) : Nat :=
  let strand := decide (9 ≤ d) && decide (d ≤ 14)
  let st := s.domSt d
  if d = dBK ∨ d = dAO then 1
  else if d = dHC ∨ d = dS 1 then 2
  else if s.str.step ≤ 2 then 3
  else if st = .ramping ∨ st = .draining ∨ st = .goingOff then 4
  else if strand ∧ [OlcSt.prepared, .committing, .committed, .retreating].contains s.olc.st then 5
  else if d = dRL ∧ s.red.role ≠ .off then 6
  else if (strand && s.strandInUse (d - 8)) || ((decide (d = dNW) || decide (d = dDM)) && decide (s.tds.st ≠ .stopped)) ||
      (decide (d = dNV) && (s.bdr.owner.isSome || s.applying.isSome)) ||
      (decide (d = dMB) && (List.range 4).any fun k => decide ((s.mb k).mode ≠ .config)) ||
      (decide (d = dFL) && decide (s.fio.rep.fstate = 1)) then 7
  else if d = dDM ∧ s.dmaBusy then 7
  else 0

/-- Status of PWR.DOMAIN_CMD (R521, R523). -/
def State.domCmdCheck (s : State) (d v : Nat) : Nat :=
  let st := s.domSt d
  if v = 1 then (if st = .draining ∨ st = .goingOff then stBUSY else stOK)
  else if st = .off then stOK
  else if s.offReason d = 0 then stOK else stSTATE

/-- A refused power-down is recorded and counted (R521). -/
def State.offRefused (s : State) (d : Nat) : State := (s.setPwrReason d (s.offReason d)).incOb K.PWR_PD_REFUSALS

/-- PWR.DOMAIN_CMD once accepted. -/
def State.domCmd (s : State) (d v : Nat) : State :=
  match s.domSt d with
  | .off => if v = 1 then s.setDomSt d .ramping else s
  | .on => if v = 1 then s else (s.setDomSt d .draining).dmaPdPause d
  | _ => s

/-- A channel concerned in a power-down has yet to drain (R427, R522). -/
def State.pdDraining (s : State) (d : Nat) : Bool :=
  (List.range 32).any fun k => (s.ch k).pwrFor.contains d && decide ((s.ch k).st = .pausing)

/-- Writes to the domain that the engine accepted before the request have yet to be made (R45, R50). -/
def State.pdWrites (s : State) (d : Nat) : Bool :=
  s.sess.any fun e => decide (e.2.txn = .pending) &&
    e.2.staged.any fun w => decide (blockDomain w.key = d) && !e.2.applied.contains (dieOf w.key)

/-- The writes accepted before the request are made, and the channels concerned have drained: steps 3 and 4, and the clamp
(R522). -/
def State.pdDrained (s : State) (d : Nat) : State :=
  if s.domSt d = .draining ∧ s.pdDraining d = false ∧ s.pdWrites d = false then
    (s.setDomSt d .goingOff).domClear d
  else s

/-- mono at which a domain entered its present state. -/
def State.domSince (s : State) (d : Nat) : Nat := mget (fun _ => 0) s.pwr.since d

/-- A channel fails to drain within DMA.PD_TIMEOUT: the request is refused with DRAIN (R427, R522). -/
def State.pdTimeout (s : State) (d : Nat) : State :=
  if s.domSt d = .draining ∧ s.pdDraining d = true then
    ((((s.reachMono (s.domSince d + s.ob K.DMA_PD_TIMEOUT * 1000)).dmaPdRefuse d).setDomSt d .on).setPwrReason d 8).incOb K.PWR_PD_REFUSALS
  else s

/-- The domain reads OFF 10 µs after its gate opens (R522).
(DESIGN CHOICE, unsafe: log 138.) -/
def State.domOff (s : State) (d : Nat) : State :=
  if s.domSt d = .goingOff then (s.reachMono (s.domSince d + 10000)).setDomSt d .off else s

/-- Time of the power-up steps in ns (R523). -/
def rampNs (d : Nat) : Nat :=
  if 9 ≤ d ∧ d ≤ 14 then 375000 else if d = dNW then 145000 else if d = dFL then 45000 else 25000

/-- The power-up steps end (R523); Breakwater sends its configuration first (R367). -/
def State.domOnDone (s : State) (d : Nat) : State :=
  if s.domSt d = .ramping then
    let s := (s.reachMono (s.domSince d + rampNs d)).setDomSt d .on
    if 9 ≤ d ∧ d ≤ 14 then s.setPwr fun p => { p with linkDown := putBit p.linkDown (d - 8) false }
    else if d = dFL then
      (s.setPwr fun p => { p with linkDown := putBit p.linkDown 7 false }).setFio Fio.logicReset
    else s
  else s

/-- PWR.DOMAIN (R537). -/
def State.domReg (s : State) (d : Nat) : Nat :=
  s.pwrReason d * 2 ^ 24 + (s.domSt d).code * 2 ^ 16 + b2n (decide (4 ≤ d) && decide (d ≠ dS 1))

/-! ### SLEEP (R525) -/

def State.sleepOk (s : State) : Bool :=
  decide (s.tds.st = .stopped) && decide (s.red.role = .off) && !s.dmaBusy && s.bdr.owner.isNone

/-- The descent: the field side is parked, and the switchable domains go down in order. -/
def State.sleep (s : State) : State :=
  let s := s.fioPark
  let s := s.when (s.bwFitted && s.domOn dFL) State.fieldPark
  let order := [dFL, dS 6, dS 5, dS 4, dS 3, dS 2, dS 1, dDM, dMB, dRL, dNW, dNV, dHC].filter s.domFitted
  let s := s.each order fun s d => ((s.finishApply).domClear d).setDomSt d .off
  let r := s.rebuilt
  State.duesAnew { s with
    mem := r.mem.filter fun c => inBedrock c.1
    sess := []
    dic := r.dic
    tds := r.tds
    tasks := []
    img := r.img
    owners := []
    ntm := r.ntm
    olc := { r.olc with mapBed := s.olc.mapBed, blank := s.olc.blank }
    pwr := { s.pwr with sleeping := true } }

/-- A wake source ends SLEEP with a reset of cause WAKE (R526). -/
def State.wakeUp (s : State) : State := if s.pwr.sleeping then s.packageReset 5 else s

end Sys2Proof.Machine
end

