-- ==== Sys2Proof/Machine/StartOps.lean ====
section
/-! DEFINITION. The start sequence (R247–R255): the start record, the boot image, placing the program, retained data, and
the waits of steps 8, 10 and 12. -/

namespace Sys2Proof.Machine

def State.setStr (s : State) (f : Str → Str) : State := { s with str := f s.str }

/-! ### Configuration -/

/-- The objects of the start configuration (R253). -/
def startKeys : List Nat :=
  [K.STR_CFG, K.STR_TIME_WAIT, K.STR_OK_TIME, K.SEC_CFG, K.RED_CFG, K.RED_RETURN_HOLDOFF, K.RED_DRILL_INTERVAL]

def State.strCfg (s : State) : Nat := s.ob K.STR_CFG
def State.failWindow (s : State) : Nat := bits s.strCfg 31 16
def State.failLimit (s : State) : Nat := bits s.strCfg 15 12
def State.autostart (s : State) : Bool := bit s.strCfg 2
def State.demote (s : State) : Bool := bit s.strCfg 1
def State.pwronCold (s : State) : Bool := bit s.strCfg 0

/-- The start configuration is read: the record's values, or defaults where no copy is valid (R253). -/
def State.readStartCfg (s : State) : State :=
  s.each startKeys fun s k => s.setOb k (if s.str.cfgValid then mget objDefault s.str.cfgObjs k else objDefault k)

/-- What a device record of retained objects holds after an accepted write of one of them (R44, R253). -/
def State.retain (s : State) (key : Nat) : State :=
  if isRetained key = false then s
  else s.devRecord fun s => s.setStr fun r =>
    if startKeys.contains key then { r with cfgValid := true, cfgObjs := mput objDefault r.cfgObjs key (s.ob key) }
    else { r with retainObjs := mput objDefault r.retainObjs key (s.ob key) }

/-- The same for a retained domain (R44). -/
def State.retainDom (s : State) (key : Nat) : State :=
  if isRetained key = false then s
  else s.devRecord fun s => s.setStr fun r => { r with retainDoms := mput (fun _ => []) r.retainDoms key (s.dom key) }

/-- An object that the device measures and retains takes a value (R44). -/
def State.keepOb (s : State) (key v : Nat) : State := (s.setOb key v).retain key

/-! ### The record (R254, R259) -/

def State.calSecs (s : State) : Nat := s.cal.count / 32768 % 2 ^ 32

/-- The newest attempt changed: the start unit's copy, and the device record behind it (R254, R440).
(DESIGN CHOICE, safe: log 114.) -/
def State.modAttempt (s : State) (f : Attempt → Attempt) : State :=
  (s.devRecord fun s => s).setStr fun r => { r with recs := match r.recs with
    | [] => []
    | x :: t => f x :: t }

/-- FAILED warm starts within FAIL_WINDOW of now (R254). -/
def State.warmFails (s : State) : Nat :=
  (s.str.recs.filter fun a => decide (a.result = 2) && decide (a.typ = 2) &&
    near s.failWindow a.secs s.calSecs).length

/-- A step begins. -/
def State.atStep (s : State) (n : Nat) : State :=
  (s.setStr fun r => { r with step := n }).modAttempt fun a => { a with step := n }

/-- The tide is stopped, and no program or Keeper firmware runs (R255). -/
def State.serviceStop (s : State) : State :=
  let s := s.toTide .stopped
  let s := s.each ((List.range 384).filter fun g => decide ((s.ctx g).cs ≠ .free)) fun s g => s.modCtx g Ctx.free
  { s with
    tasks := []
    tds := { State.reset.tds with seq := s.tds.seq } }

/-- SERVICE (R249, R255). -/
def State.toService (s : State) (reason : Nat) : State :=
  ((s.setStr fun r => { r with service := true, reason := reason, keeper := false }).modAttempt fun a =>
    { a with result := 3, reason := reason }).serviceStop

/-! ### Steps 1 to 3 -/

/-- A valid retained set (R247). -/
def State.retainedOk (s : State) : Bool := s.str.retainValid && decide (s.str.retainId ≠ 0)

/-- The type of this start (R247).
(DEDUCED, unsafe: log 79.) -/
def State.startType (s : State) (cold : Bool) : Nat :=
  if cold || s.pwronCold || s.str.coldNext || !s.retainedOk then 1 else 2

/-- Steps 1 and 2: domains up, journal recovered, start configuration read, and the witness started (R248, R349). -/
def State.startPower (s : State) : State :=
  let s := s.setPwr fun p => { p with
    dom := [], inReset := false, relAt := some s.ntm.mono, linkDown := 0, sleeping := false, railsOk := true }
  let s := s.setStr fun r => { r with service := false, notime := false, reason := 0, keeper := false }
  ((s.recoverJournal).readStartCfg).witBoot

/-- Step 3: earlier attempts that did not finish have FAILED, and a new one is recorded (R254). -/
def State.startRecord (s : State) (typ : Nat) : State :=
  let s := ((s.incOb K.STR_STARTS).setOb K.SEC_AUTH_SKIPPED 0).devRecord fun s => s
  let s := s.setStr fun r => { r with
    step := 3
    typ := typ
    recs := ({ secs := s.calSecs, typ := typ, result := 0, step := 3, reason := 0, hash := [] } ::
      r.recs.map fun a => if a.result = 0 then { a with result := 2 } else a).take 16
    coldNext := r.coldNext && decide (typ = 2) }
  s

/-- Warm starts that failed too often become cold or stop (R254). -/
def State.startLimit (s : State) : State :=
  if s.str.typ = 2 ∧ s.failLimit ≤ s.warmFails then
    if s.demote then (s.setStr fun r => { r with typ := 1 }).modAttempt fun a => { a with typ := 1, result := 4 }
    else s.toService 5
  else s

/-! ### Steps 4 to 7 -/

/-- The boot image of one flash. -/
def State.flash (s : State) (n : Nat) : List Byte := if n = 1 then s.str.flash0 else s.str.flash1

/-- Header, directory and state map entries of an image at a start obey their rules; R225 ties neither KIND to a
use, so either passes (R226, R229, R244).
(DESIGN CHOICE, unsafe: log 134.) -/
def bootForm (b : List Byte) : Bool := headerOk b && dirOk b && mapOk (imBytes b 7 0) && mapOk (imBytes b 9 0)

/-- A boot image passes: 0, or the reason that fails it; the key and signature are skipped for a warm start with a known
image (R250). -/
def State.bootCheck (s : State) (b : List Byte) : Bool × Bool :=
  let form := bootForm b && imCrcOk b
  let skip := decide (s.str.typ = 2) && decide (s.dom K.SEC_IMAGE_HASH = imHash b) && bit (s.ob K.SEC_CFG) 1
  let auth := bit s.str.fuses 1 && imKeyOk b (s.governing b) && imSigOk b
  (form && (skip || auth), skip)

/-- Code into the active banks, the rest into the stage region, as the image is read (R248); nothing of an image without a sound
header and directory. -/
def State.placeImage (s : State) (b : List Byte) : State :=
  if bootForm b = false then s
  else
  let s := s.each s.strands fun s n => (s.clearMem (s.activeBank n) 0x400000).putBytes (s.activeBank n) (imBytes b 1 n)
  let s := s.clearMem (mHead + s.stageAt) 0x200000
  let s := (plainRanges b).foldl (fun (s : State) r =>
    let len := Nat.min (r.2 - r.1) (0x200000 - stageOff b r.1)
    s.putBytes (mHead + s.stageAt + stageOff b r.1) (slice b r.1 len)) s
  s.setOlc fun o => { o with blank := maskOf (s.strands.filter fun n => (imBytes b 1 n).isEmpty) }

/-- Task 0 is released at the Keeper entry. -/
def State.releaseKeeper (s : State) : State :=
  ((s.setCtx 0 { Ctx.init with cs := .ready, relSeq := s.tds.seq }).resched 0).setStr fun r => { r with keeper := true }

/-- Steps 5 to 7 with the first image that passes (R248, R250). -/
def State.startImage (s : State) : State :=
  let s := s.atStep 5
  let p := s.bootCheck (s.flash 1)
  let q := s.bootCheck (s.flash 2)
  let second := bit (s.ob K.SEC_CFG) 0
  let n := if p.1 then 1 else if second && q.1 then 2 else 3
  let fails := if p.1 then 0 else if second then (if q.1 then 1 else 2) else 1
  let s := (s.addOb K.SEC_AUTH_FAILS fails).setOb K.SEC_BOOT_SRC n
  let s := (s.placeImage (s.flash 1)).when (!p.1 && second) fun s => s.placeImage (s.flash 2)
  if n = 3 then (s.atStep 6).toService 2
  else
    let b := s.flash n
    let skip := if n = 1 then p.2 else q.2
    let s := (s.atStep 6).setOb K.SEC_AUTH_SKIPPED (b2n skip)
    let s := if skip then s else (s.devRecord fun s => s).setDom K.SEC_IMAGE_HASH (imHash b)
    let s := s.modAttempt fun a => { a with hash := (imHash b).take 8 }
    let s := (s.atStep 7).applyTables b
    let s := s.setOlc fun o => { o with mapBed := mapBedrock (mapEntries (imBytes b 7 0)) }
    (((s.devRecord fun s => s).setDom K.OLC_ACTIVE_HASH (imHash b)).releaseKeeper).atStep 8

/-- The image that booted. -/
def State.bootImage (s : State) : List Byte := s.flash (s.ob K.SEC_BOOT_SRC)

/-! ### Step 9 (R252, R216, R217) -/

/-- Cells of a Strand as the image's CELL_INIT gives them, the reserved bits of CTRL among them, and 0 elsewhere (R205, R252).
(DESIGN CHOICE, unsafe: log 130.) -/
def State.initCells (s : State) (b : List Byte) (n : Nat) : State :=
  let c := imBytes b 6 n
  (s.clearMem (mTimer n) 0x40000).each (List.range (c.length / 20)) fun s i =>
    let k := leAt c (20 * i) 4
    if k < 16384 then s.putBytes (mTimer n + 16 * k) (slice c (20 * i + 4) 16) else s

/-- The warm treatment of one restored cell (R216). -/
def State.warmCell (s : State) (a mode : Nat) : State :=
  let x := s.cell a
  if x.isTiming = false then s
  else if mode = 1 then s.setCell a { x with stamp := sub32 s.us x.elapsed }
  else if mode = 2 then s.setCell a { x with elapsed := 0, ctrl := x.ctrl / 8 * 8 }
  else s

/-- A Strand's retained region is restored and treated. -/
def State.restoreTimers (s : State) (n : Nat) : State :=
  let cells := 256 * s.retBlocks n
  let s := s.blit (mBed + 4096 * s.retBase n) (mTimer n) (16 * cells)
  let w := bits (s.ob (K.TMR_CTL n)) 2 1
  let mode := if w = 0 ∧ s.str.notime then 1 else w
  s.each ((s.usedCells n).filter fun c => c < cells) fun s c => s.warmCell (mTimer n + 16 * c) mode

/-- Objects that step 9 leaves as they stand: those not retained, the start configuration, counters, and the number of starts
since manufacture (R252, R259). -/
def stands (key : Nat) : Bool := !isRetained key || startKeys.contains key || isCounter key || decide (key = K.STR_STARTS)

/-- Retained domains and octet strings that step 9 restores or clears: all but the hashes that steps 6 and 7 have written. -/
def restored (key : Nat) : Bool := isRetained key && decide (key ≠ K.SEC_IMAGE_HASH) && decide (key ≠ K.OLC_ACTIVE_HASH)

/-- Edge entries of the image's state map wait for their tasks' first copy-in; edge bits in Bedrock stay as a warm start finds
them (R222, R252).
(DEDUCED, unsafe: log 40.) -/
def State.startEdges (s : State) (warm : Bool) : State :=
  let l := edgeInits (mapEntries (imBytes s.bootImage 7 0))
  s.setOlc fun o => { o with
    edgeInits := l.filter fun e => !(warm && decide (0x30000000 ≤ e.new_) && decide (e.new_ < 0x30200000)) }

/-- A warm start's step 9: retained objects, the force table and the timers. -/
def State.retainWarm (s : State) : State :=
  let s := { s with
    objs := s.objs.filter fun e => stands e.1
    doms := s.doms.filter fun e => !restored e.1 }
  let s := s.each s.str.retainObjs fun s e => s.setOb e.1 e.2
  let s := s.each s.str.retainDoms fun s e => s.setDom e.1 e.2
  let s := s.setImg fun m => { m with
    orphan0 := false
    forces := forceForm Force.init (s.str.retainForces.map fun e => (e.1, { e.2 with orphan := false })) }
  (s.each s.strands fun s n => (s.initCells s.bootImage n).restoreTimers n).startEdges true

/-- A cold start's step 9: defaults, no force, timers by the image, and the records written. -/
def State.retainCold (s : State) : State :=
  let s := { s with
    objs := s.objs.filter fun e => stands e.1
    doms := s.doms.filter fun e => !restored e.1 }
  let s := s.setImg fun m => { m with forces := [], orphan0 := false }
  let s := (s.each s.strands fun s n => s.initCells s.bootImage n).startEdges false
  s.setStr fun r => { r with
    retainValid := true
    retainObjs := []
    retainDoms := []
    retainForces := []
    retainId := imRetainId s.bootImage }

/-- Step 9, with the RETAIN_ID check of a warm start. -/
def State.startRetain (s : State) : State :=
  let s := s.atStep 9
  if s.str.typ = 1 then s.retainCold
  else if imRetainId s.bootImage = s.str.retainId then s.retainWarm
  else if s.demote then
    ((s.setStr fun r => { r with typ := 1 }).modAttempt fun a => { a with typ := 1, result := 4 }).retainCold
  else s.toService 4

/-! ### Steps 10 to 12 -/

/-- Step 11: AUTOSTART (R248); a partner in UNSYNCED starts its tide only after a resynchronisation (R335). -/
def State.startTide (s : State) : State :=
  let s := s.atStep 11
  let s :=
    if s.autostart ∧ s.mayStart = true ∧ s.tds.st = .stopped then
      (if s.startCheck = 0 then s.tideStart.fioOverlap else s.setOb K.TDS_START_ERR s.startCheck)
    else s
  s.atStep 12

/-- Step 10 goes on once the role is ACTIVE or UNSYNCED (R335). -/
def State.startPair (s : State) : State :=
  if s.str.step = 10 ∧ s.str.service = false ∧ (s.red.role = .active ∨ s.red.role = .unsynced) then s.startTide else s

/-- Step 10: the pair is joined from OFF where RED is enabled (R335). -/
def State.startJoin (s : State) : State :=
  let s := s.atStep 10
  if s.redMode = 1 then ((s.when (decide (s.red.role = .off)) fun s => s.setRole .joining 0).joinGrant.drillArm).startPair
  else s.startTide

/-- Steps 9 and on, after the wait for time.
(DEDUCED, unsafe: log 79.) -/
def State.startGoOn (s : State) : State :=
  let s := s.startRetain
  if s.str.service then s else s.startJoin

/-- A start from step 1 up to its first wait (R248).
(DESIGN CHOICE, safe: log 42.)
(DEDUCED, unsafe: log 79.) -/
def State.startRun (s : State) (cold : Bool) : State :=
  let s := s.startPower
  let s := (s.startRecord (s.startType cold)).startLimit
  if s.str.service then s
  else
    let s := if s.str.typ = 1 then s.atStep 4 else s
    if s.str.typ = 1 ∧ s.str.bistOk = false then s.toService 1
    else
      let s := s.startImage
      if s.str.service then s
      else if s.ob K.NTM_LOCK = 1 then s.startGoOn else s

/-- Step 8 ends by NTM.LOCK (R251, R318). -/
def State.timeLocked (s : State) : State :=
  if s.str.step = 8 ∧ s.str.service = false then s.startGoOn else s

/-- Keeper firmware runs: context 0 holds task 0 and is not halted (R249). -/
def State.keeperRuns (s : State) : Bool :=
  s.str.keeper && !s.str.service && decide ((s.ctx 0).cs ≠ .free) && decide ((s.ctx 0).cs ≠ .halted)

/-- Step 8 ends by STR.TIME_WAIT (R249, R251). -/
def State.timeExpired (s : State) : State :=
  if s.str.step = 8 ∧ s.str.service = false then
    (if s.keeperRuns then (s.setStr fun r => { r with notime := true }).startGoOn else s.toService 3)
  else s

/-- The attempt is marked OK (R254). -/
def State.startConfirm (s : State) : State :=
  if s.str.step = 12 ∧ s.str.service = false ∧ s.tds.st = .running then
    (s.reachMono (s.tds.runSince + s.ob K.STR_OK_TIME * 1000000000)).modAttempt fun a =>
      { a with result := if a.result = 0 then 1 else a.result }
  else s

/-- Tide and programs stop where a start begins anew (R255). -/
def State.stopAll (s : State) : State :=
  { s with
    ctxs := []
    cores := s.cores.map fun e => (e.1, { e.2 with wbuf := [], flight := [] })
    tasks := []
    tds := { State.reset.tds with seq := s.tds.seq }
    img := { State.reset.img with forces := s.img.forces, orphan0 := s.img.orphan0 }
    olc := { State.reset.olc with mapBed := s.olc.mapBed } }

/-- STR.CMD (R247, R254, R255). -/
def State.strCmd (s : State) (v : Nat) : State :=
  match v with
  | 1 => s.setStr fun r => { r with coldNext := true }
  | 2 => s.stopAll.startRun true
  | 3 => s.stopAll.startRun false
  | _ => s.setStr fun r => { r with recs := r.recs.map fun a => if a.result = 2 then { a with result := 5 } else a }

/-- STR.STATE (R259). -/
def State.strState (s : State) : Nat :=
  s.str.reason * 2 ^ 24 + s.str.step * 2 ^ 8 + s.str.typ * 64 + 2 * b2n s.str.notime + b2n s.str.service

/-! ### Fuses (R259, R261) -/

/-- Status of SEC.PROVISION. -/
def State.provisionCheck (s : State) (b : List Byte) : Nat :=
  let t := leAt b 0 1
  if s.str.service = false ∨ bit s.str.fuses 0 then stSTATE
  else if t = 0 ∨ 4 < t then stRESERVED
  else if bit s.str.fuses (if t = 1 then 1 else if t = 2 then 2 else if t = 3 then 3 else 0) then stSTATE
  else stOK

def State.provision (s : State) (b : List Byte) : State :=
  let t := leAt b 0 1
  s.setStr fun r => { r with
    fuses := putBit r.fuses (if t = 1 then 1 else if t = 2 then 2 else if t = 3 then 3 else 0) true
    keyBoot := if t = 1 then slice b 1 32 else r.keyBoot
    keyProg := if t = 2 then slice b 1 32 else r.keyProg }

end Sys2Proof.Machine
end

