-- ==== Sys2Proof/Machine/ObsOps.lean ====
section
/-! DEFINITION. Observation and health: counters and bandwidth windows (R494–R499), reading Strata (R500–R506), tidemarks
(R507–R512) and the health monitor (R513–R515, R519). -/

namespace Sys2Proof.Machine

/-! ### Counters (R495–R499) -/

/-- An occupancy that PMC.THR_CFG may name (R497). -/
def thrCfgCheck (v : Nat) : Nat :=
  let t := bits v 23 16
  match bits v 27 24 with
  | 1 => if t < 24 then stOK else stRESERVED
  | 2 => if 1 ≤ t ∧ t ≤ 6 then stOK else stRESERVED
  | 3 => if t < 8 then stOK else stRESERVED
  | 4 => if t < 18 then stOK else stRESERVED
  | 5 => if t < 16 then stOK else stRESERVED
  | 6 => if t < 8 then stOK else stRESERVED
  | 7 => if t = 0 then stOK else stRESERVED
  | _ => stRESERVED

/-- An accepted write of PMC.BW_WINDOW discards the window in progress; a frame that is still leaving counts in the next (R499). -/
def State.bwWindow (s : State) (v : Nat) : State :=
  let s := s.setOb K.PMC_BW_WINDOW v
  { s with pmc := { s.pmc with bw := {
    rx := []
    sent := s.pmc.bw.sent.filter fun e => decide (s.us ≤ e.1)
    due := nextMultiple v s.us } } }

/-! ### Strata (R500–R506, R517) -/

/-- A record as its 128 bytes (R500).
(DEDUCED, unsafe: log 80.) -/
def SRec.bytes (r : SRec) : List Byte :=
  leBytes 4 0x41545253 ++ leBytes 4 r.seq ++ leBytes 2 r.cls ++ leBytes 2 r.key ++
  leBytes 1 (b2n r.isOpen + 2 * b2n r.gap + 4 * b2n r.sat) ++ leBytes 1 r.shift ++ leBytes 2 0 ++
  leBytes 8 r.first ++ leBytes 8 r.last ++ leBytes 8 r.count ++ leBytes 8 (ofS 64 r.min) ++ leBytes 8 (ofS 64 r.max) ++
  leBytes 8 (ofS 64 r.sum) ++ ((List.range 16).map fun k => leBytes 4 (mget (fun _ => 0) r.hist k)).flatten

/-- The record that a read transfer on STA.RECORD captures, the oldest held where the cursor's is overwritten; none where
the cursor is above STA.NEWEST (R505). -/
def State.strataAt (s : State) (c : Nat) : Option SRec :=
  if s.sta.newest < c then none
  else match s.sta.recs.find? fun r => decide (r.seq = c) with
    | some r => some r
    | none => s.sta.recs.getLast?

/-- The read transfer of a session opened on STA.RECORD (R505). -/
def State.strataRead (s : State) (n : Nat) : State × List Byte :=
  let x := s.ses n
  match s.strataAt x.cursor with
  | some r => (s.setSes n { x with cursor := (r.seq + 1) % 2 ^ 32, gap := r.seq - x.cursor }, r.bytes)
  | none => (s.setResult n K.STA_RECORD stRANGE 0 0, [])

def State.setSta (s : State) (f : Sta2 → Sta2) : State := { s with sta := f s.sta }

/-- Recording stops (R506). -/
def State.strataFreeze (s : State) : State :=
  s.setSta fun t => { t with frozen := true, frzAt := s.ntm.mono, expired := false }

/-- Recording resumes, and open records that missed a sample say so (R506). -/
def State.strataThaw (s : State) : State :=
  if s.sta.frozen then s.setSta fun t => { t with
    frozen := false
    recs := t.recs.map fun r => { r with gap := r.gap || r.missed, missed := false } }
  else s

/-- STA.FREEZE_MAX passes (R506). -/
def State.freezeEnd (s : State) : State :=
  if s.sta.frozen then
    ((s.reachMono (s.sta.frzAt + s.ob K.STA_FREEZE_MAX * 1000000)).strataThaw).setSta fun t => { t with expired := true }
  else s

def Sta2.state (t : Sta2) : Nat := (t.recs.filter SRec.isOpen).length * 2 ^ 16 + 2 * b2n t.expired + b2n t.frozen

/-! ### Tidemarks (R507–R512, R518) -/

def State.setSnp (s : State) (f : Snp → Snp) : State := { s with snp := f s.snp }

def State.snap (s : State) (b : Nat) : Option Snap := mget (fun _ => none) s.snp.bufs b
def State.setSnap (s : State) (b : Nat) (x : Option Snap) : State :=
  s.setSnp fun p => { p with bufs := mput (fun _ => none) p.bufs b x }

/-- Bytes of the sections, each with its header (R511). -/
def Snap.body (x : Snap) : List Byte :=
  (x.sections.map fun c =>
    leBytes 2 (c.die * 256 + c.island) ++ leBytes 2 c.bytes.length ++ leBytes 4 x.seq ++ c.bytes).flatten

/-- The header of a snapshot (R511). -/
def Snap.head (x : Snap) (source : Nat) : List Byte :=
  leBytes 4 x.seq ++ leBytes 1 source ++ leBytes 1 (b2n x.incomplete + 2 * b2n x.merged) ++ leBytes 2 x.cls ++
  leBytes 8 x.stamp ++ leBytes 2 x.expect ++ leBytes 2 x.acked ++ leBytes 4 (64 + x.body.length) ++ leBytes 8 x.tide64 ++
  leBytes 4 x.fold ++ List.replicate 28 0

def Snap.bytes (x : Snap) : List Byte := (x.head x.source ++ x.body).take 0x10000

/-- The buffer takes a snapshot, as its bytes and as what the unit holds of it. -/
def State.putSnap (s : State) (b : Nat) (x : Snap) : State := (s.setSnap b (some x)).sramWrite (s.snapBase b) x.bytes

/-- Dies that the token is sent to: fitted, and their domain is on (R509).
(DEDUCED, unsafe: log 69.) -/
def State.snapDies (s : State) : List Nat :=
  (List.range 8).filter fun d => bit s.part.fitted d &&
    (if d = 0 then s.domOn dHC else if d = 7 then s.domOn dFL else s.domOn (dS d))

/-- SEQ of the snapshot that a buffer holds, and one more; 0 where it holds none. -/
def State.bufRank (s : State) (b : Nat) : Nat := match s.snap b with
  | some x => x.seq + 1
  | none => 0

/-- The buffer of the lowest SEQ (R512).
(DEDUCED, unsafe: log 69.) -/
def State.lowBuf (s : State) : Nat :=
  (List.range 4).foldl (fun a b => if s.bufRank b < s.bufRank a then b else a) 0

def State.allHeld (s : State) : Bool := (List.range 4).all fun b => match s.snap b with
  | some x => x.held
  | none => false

/-- A tidemark starts (R507–R509). -/
def State.tidemarkStart (s : State) (source cls fold : Nat) : State :=
  let seq := (s.ob K.SNP_SEQ + 1) % 2 ^ 32
  let b := s.lowBuf
  let x : Snap := {
    seq := seq, source := source, merged := false, incomplete := false, cls := cls, stamp := s.ns
    expect := maskOf s.snapDies, acked := 0, gone := 0, tide64 := s.ob K.TDS_TIDE64, fold := fold, held := false
    sections := [] }
  let s := (s.setOb K.SNP_SEQ seq).incOb K.SNP_FIRED
  let s := s.setSnp fun p => { p with
    busy := some b
    tmkOut := p.tmkOut || (bit (s.ob K.SNP_CFG) 1 && decide (source ≠ 3)) }
  s.putSnap b x

/-- A request for a tidemark: source 1 a fault, 2 software, 3 TMK_IN, 4 time (R507, R512). -/
def State.tidemark (s : State) (source cls fold : Nat) : State :=
  match s.snp.busy with
  | some b =>
    let s := s.incOb K.SNP_MERGED
    match s.snap b with
    | some x => s.putSnap b { x with merged := true }
    | none => s
  | none =>
    if bit (s.ob K.SNP_CFG) 2 && s.allHeld then s.incOb K.SNP_REFUSED else s.tidemarkStart source cls fold

/-- The snapshot is complete once every die has acknowledged or timed out (R509). -/
def State.snapCheck (s : State) (b : Nat) : State :=
  match s.snap b with
  | some x =>
    if x.acked ||| x.gone = x.expect then
      let x := { x with held := true }
      let s := (s.putSnap b x).setSnp fun p => { p with busy := none }
      s.when x.incomplete fun s => s.incOb K.SNP_INCOMPLETE
    else s
  | none => s

/-- The die is waited for by the snapshot that collects. -/
def Snap.waits (x : Snap) (die : Nat) : Bool := bit x.expect die && !bit x.acked die && !bit x.gone die

/-- A die's acknowledgement arrives (R509). -/
def State.tidemarkAck (s : State) (die : Nat) : State :=
  match s.snp.busy with
  | some b => match s.snap b with
    | some x => if x.waits die && s.linkUp die then
        (s.putSnap b { x with acked := putBit x.acked die true }).snapCheck b else s
    | none => s
  | none => s

/-- A die does not acknowledge within 10 µs (R19, R509). -/
def State.tidemarkLost (s : State) (die : Nat) : State :=
  match s.snp.busy with
  | some b => match s.snap b with
    | some x => if x.waits die then
        ((s.raise 0x07 die die 0 1 0).putSnap b { x with
          gone := putBit x.gone die true
          incomplete := true
          sections := x.sections.filter fun c => decide (c.die ≠ die) }).snapCheck b
      else s
    | none => s
  | none => s

/-- An island latches its section (R509, R510). -/
def State.sectionIn (s : State) (die island : Nat) (content : List Byte) : State :=
  match s.snp.busy with
  | some b => match s.snap b with
    | some x => if x.waits die && s.linkUp die && !(x.sections.any fun c => decide (c.die = die) && decide (c.island = island))
        then s.putSnap b { x with sections := x.sections ++ [{ die := die, island := island, bytes := content }] }
        else s
    | none => s
  | none => s

/-- A buffer that holds an unreleased snapshot is freed (R512). -/
def State.freeBuf (s : State) (b : Nat) : State := match s.snap b with
  | some x => if x.held then s.setSnap b none else s
  | none => s

/-- The buffer that holds a SEQ. -/
def State.bufOf (s : State) (seq : Nat) : Option Nat :=
  (List.range 4).find? fun b => match s.snap b with
    | some x => x.held && decide (x.seq = seq)
    | none => false

/-- SNP.CMD RELEASE of a session (R512). -/
def State.snpRelease (s : State) (n : Nat) : State := match s.bufOf (s.ses n).snpSel with
  | some b => s.freeBuf b
  | none => s

def State.snpReleaseAll (s : State) : State := s.each (List.range 4) State.freeBuf

/-- SNP.DATA of a SEQ: none where it is not held (R512). -/
def State.snpData (s : State) (seq : Nat) : Option (List Byte) := match s.bufOf seq with
  | some b => (s.snap b).map fun x => s.bytesAt (s.snapBase b) x.bytes.length
  | none => none

/-- SNP.STATE (R518). -/
def State.snpState (s : State) : Nat :=
  16 * maskOf ((List.range 4).filter fun b => match s.snap b with
    | some x => x.held
    | none => false) + b2n s.snp.busy.isSome

/-- The ns count reaches SNP.AT (R507). -/
def State.snpAt (s : State) : State :=
  let t := s.ob K.SNP_AT
  let s := s.reach t
  if t = 0 ∨ s.ns < t then s else (s.setOb K.SNP_AT 0).tidemark 4 0 0

/-! ### Health (R513–R515, R519) -/

def State.setHlt (s : State) (f : Hlt → Hlt) : State := { s with hlt := f s.hlt }

/-- No prediction is made. -/
def noDays : Nat := 0xFFFFFFFF

/-- Days until a value reaches a limit at the mean daily rise of a history, latest first; none without a rise. -/
def daysTo (limit now : Nat) (h : List Nat) : Nat :=
  let first := h.getLast?.getD 0
  let last := h.head?.getD 0
  let rise := last - first
  if limit ≤ now then 0
  else if rise = 0 then noDays
  else Nat.min (noDays - 1) ((limit - now) * (h.length - 1) / rise)

/-- HLT.LIFE of an item (R513).
(DEDUCED, unsafe: log 70.) -/
def State.life (s : State) (i : Nat) : Nat :=
  if i = 10 then s.eolDays
  else if i = 9 then daysTo (10 ^ 12) s.wearTop.2 s.hlt.wearDays
  else
    let h := mget (fun _ => []) s.hlt.ages i
    if h.length < 7 then noDays else daysTo (s.ob K.HLT_AGE_LIMIT) (s.ob (K.HLT_AGE i)) h

/-- Items of the device: fitted dies, Bedrock and the reserve cell. -/
def State.lifeItems (s : State) : List Nat :=
  ((List.range 8).filter fun d => bit s.part.fitted d).map (· + 1) ++ [9, 10]

/-- HLT.STATE (R513, R516). -/
def State.hltState (s : State) : Nat :=
  b2n (s.lifeItems.any fun i => decide (s.life i < s.ob K.HLT_WARN_DAYS)) +
  2 * b2n ((List.range 8).any fun d => bit s.part.fitted d &&
    decide (toS 32 (s.ob K.HLT_TEMP_LIMIT) < toS 32 (s.ob (K.HLT_TEMP (d + 1)))))

/-- The domain of a die. -/
def dieDomain (d : Nat) : Nat := if d = 0 then dHC else if d = 7 then dFL else dS d

/-- Each fitted die whose domain is on, with its place among the dies. -/
def State.livedDies (s : State) : List Nat := (List.range 8).filter fun d => s.domOn (dieDomain d) && bit s.part.fitted d

/-- Once a second each die's temperature is taken (R501). -/
def State.temps (s : State) (l : List Int) : State :=
  s.each s.livedDies fun s d =>
    (s.setOb (K.HLT_TEMP (d + 1)) (ofS 32 (l.getD d 0))).sample (0x0500 + d) 0 (l.getD d 0)

/-- Each hour the ageing oscillators are measured (R513). -/
def State.agesMeasured (s : State) (l : List Nat) : State :=
  s.each s.livedDies fun s d => s.keepOb (K.HLT_AGE (d + 1)) (l.getD d 0)

/-- Once a day: the day is recorded, and each item's days are a sample (R501, R513).
(DEDUCED, unsafe: log 70.) -/
def State.lifeDay (s : State) : State :=
  let s := s.each s.livedDies fun s d => s.setHlt fun h => { h with
    ages := mput (fun _ => []) h.ages (d + 1) ((s.ob (K.HLT_AGE (d + 1)) :: mget (fun _ => []) h.ages (d + 1)).take 31) }
  let s := s.setHlt fun h => { h with wearDays := (s.wearTop.2 :: h.wearDays).take 31 }
  s.each s.lifeItems fun s i => s.sample (0x0510 + i - 1) 0 (s.life i)

/-- Length of a slice in ns (R514). -/
def sliceNs (kind : Nat) : Nat := match kind with
  | 0 => 2000
  | 1 => 3000
  | 2 => 8000
  | 3 => 5000
  | _ => 6000

/-- Slices of a test (R514): 64 of 64 KiB for a program bank.
(DESIGN CHOICE, safe: log 82.) -/
def testSlices (kind target : Nat) : Nat := match kind with
  | 0 => Nat.max 1 (Config.testSlices 0 target)
  | 1 => Nat.max 1 (Config.testSlices 1 target)
  | 3 => 64
  | _ => 1

/-- A TARGET that the test may name and the device has (R514). -/
def State.testTarget (s : State) (kind target : Nat) : Bool :=
  if kind = 3 then s.strandFitted target
  else if kind = 4 then s.strandFitted target || (decide (target = 7) && s.bwFitted)
  else decide (target < 8) && bit s.part.fitted target

/-- REASON for which a test is refused with BUSY, 0 where it is not (R515). -/
def State.testBusy (s : State) (kind target : Nat) : Nat :=
  if s.slackBudget < sliceNs kind then 1
  else if s.hlt.running then 2
  else if kind = 3 ∧ s.olc.st ≠ .idle then 3
  else if s.domOn (dieDomain target) then 0 else 4

/-- Status of HLT.TEST_REQ (R514, R515). -/
def State.testReqCheck (s : State) (v : Nat) : Nat :=
  let kind := bits v 15 8
  let target := bits v 7 0
  if 4 < kind then stRESERVED
  else if !s.testTarget kind target then stRANGE
  else if s.testBusy kind target ≠ 0 then stBUSY
  else stOK

/-- A request refused with BUSY leaves its reason (R515). -/
def State.testRefused (s : State) (v : Nat) : State :=
  s.setHlt fun h => { h with reason := s.testBusy (bits v 15 8) (bits v 7 0) }

/-- A test is in progress (R514). -/
def State.testStart (s : State) (v : Nat) : State :=
  let kind := bits v 15 8
  let target := bits v 7 0
  s.setHlt fun h => { h with
    running := true
    kind := kind
    target := target
    left := testSlices kind target
    result := 0 }

/-- A test ends: 1 PASS, 2 FAIL, 3 ABORTED (R501, R515). -/
def State.testEnd (s : State) (r : Nat) : State :=
  let k := s.hlt.kind
  ((s.setHlt fun h => { h with running := false, left := 0, result := r }).incOb K.HLT_TEST_SLICES).sample (0x0520 + k) 0
    ((r - 1 : Nat) : Int)

/-- One slice of a scrub pass corrects the single-bit errors of the SRAM it covers; those of a Strand are counted (R90, R514).
(DESIGN CHOICE, unsafe: log 76.)
(DESIGN CHOICE, safe: log 82.) -/
def State.scrubbed (s : State) (die slice : Nat) : State :=
  let own := fun (key : Nat) => let m := key / 2 ^ 32
    if die = 0 then decide (m = 0x50) || decide (m = 0x52) || decide (m = 0x53)
    else decide (m % 16 = die) && decide (0x10 < m) && decide (m < 0x50)
  let met := fun (e : Nat × Nat) => decide (e.2 = 1) && own e.1 &&
    decide (Config.scrubSlice (e.1 / 65536) % testSlices 0 die = slice)
  let n := (s.ecc.filter met).length
  let s := { s with ecc := s.ecc.filter fun e => !met e }
  if n ≠ 0 ∧ 1 ≤ die ∧ die ≤ 6 then s.addOb (K.CPU_ECC_CORR (4 * (die - 1) + 1)) n else s

/-- What one slice does to the memory it tests (R514).
(DEDUCED, unsafe: log 70.) -/
def State.sliceDo (s : State) : State :=
  let h := s.hlt
  match h.kind with
  | 0 => s.scrubbed h.target (testSlices 0 h.target - h.left)
  | 3 => (s.clearMem (s.altBank h.target + (64 - h.left) * 0x10000) 0x10000).eccClear
      (s.altBank h.target + (64 - h.left) * 0x10000) 0x10000
  | _ => s

/-- A slice can run now: the tide is stopped, or the slack window holds it whole (R144, R515). -/
def State.sliceFits (s : State) : Bool :=
  s.tideStopped || (s.tds.swin && decide (s.ns + sliceNs s.hlt.kind ≤ s.tds.ebbAt + s.tideP - s.ob K.TDS_GUARD))

/-- A test slice runs; a failure at an address ends the test (R515). -/
def State.testSlice (s : State) (failAt : Option Nat) : State :=
  let h := s.hlt
  if !h.running || !s.sliceFits then s
  else if !s.domOn (dieDomain h.target) || (decide (h.kind = 3) && decide (s.olc.st ≠ .idle)) then s.testEnd 3
  else
    let s := s.sliceDo
    match failAt with
    | some a =>
      let s := s.when (decide (h.kind = 1) || decide (h.kind = 3)) fun s => s.setOb K.HLT_TEST_FADDR (a % 2 ^ 32)
      let s := s.when (decide (h.kind = 3)) fun s => s.clearMem (s.altBank h.target) 0x400000
      s.testEnd 2
    | none =>
      if h.left ≤ 1 then s.testEnd 1 else s.setHlt fun h => { h with left := h.left - 1 }

/-- HLT.TEST_STATE (R519). -/
def Hlt.state (h : Hlt) : Nat :=
  h.reason * 2 ^ 24 + h.kind * 2 ^ 16 + h.target * 2 ^ 8 + 2 * h.result + b2n h.running

end Sys2Proof.Machine
end

