-- ==== Sys2Proof/Machine/SupOps.lean ====
section
/-! DEFINITION. Supervision: watchdogs (R469–R474, R480–R482), clock loss (R475, R476), task check-in (R477–R479), and the
fault collector with its folds, policies and notification (R483–R493). -/

namespace Sys2Proof.Machine

/-! ### Watchdogs -/

def wdgSys : Nat := 24

def State.wdgCfg (s : State) (n : Nat) : Nat := s.ob (K.WDG_CFG (n + 1))
def State.wdgEn (s : State) (n : Nat) : Bool := bit (s.wdgCfg n) 0
def State.wdgPol (s : State) (n : Nat) : Nat := bits (s.wdgCfg n) 2 1
def State.wdgLimit (s : State) (n : Nat) : Nat := bits (s.ob (K.WDG_PERIOD (n + 1))) 63 32
def State.wdgOpenAt (s : State) (n : Nat) : Nat := bits (s.ob (K.WDG_PERIOD (n + 1))) 31 0

/-- The count c in µs (R469, R470). -/
def State.wdgCount (s : State) (n : Nat) : Nat :=
  if !s.wdgEn n then 0
  else if (s.wd n).lost then (s.wd n).froze else (s.ntm.mono - (s.wd n).zero) / 1000

/-- The window is open (R470). -/
def State.wdgOpen (s : State) (n : Nat) : Bool :=
  s.wdgEn n && decide (s.wdgOpenAt n ≤ s.wdgCount n) && decide (s.wdgCount n < s.wdgLimit n)

/-- The count restarts at 0. -/
def State.wdgRestart (s : State) (n : Nat) : State := s.setWd n { s.wd n with zero := s.ntm.mono, froze := 0 }

/-- LAST of WDG.STATE (R482): 1 ACCEPTED, 2 EARLY, 3 BADKEY, 4 LATE, 5 EXPIRED. -/
def State.wdgLast (s : State) (n e : Nat) : State := s.setWd n { s.wd n with last := e }

/-- An instant of the past lies in the present Headland clock (R491).
(DESIGN CHOICE, safe: log 66.) -/
def State.inClock (s : State) (at_ : Option Nat) : Bool :=
  match at_ with
  | some t => decide (s.ntm.mono ≤ t + 1) && Config.sameClock t s.ntm.mono
  | none => false

/-- FAULT_N is asserted, and wins over a CLEAR_OUT of the same clock (R491). -/
def State.assertOut (s : State) : State :=
  { s with flt := { s.flt with
    out := true
    outKept := s.flt.outKept || s.inClock s.flt.clrAt
    outAt := some s.ntm.mono } }

/-- The lowest section of a task whose context this core reset halts. -/
def State.resetSec (s : State) (l : List Nat) (t : Nat) : Nat :=
  ((l.filter fun g => decide ((s.ctx g).task = t)).map fun g => (s.ctx g).sec).foldl Nat.min 16

/-- A context at its first instruction that is not complete: the earliest with a load in flight, or the one that waits. The general
registers are those before it.
(DEDUCED, unsafe: log 128.) -/
def Ctx.atIncomplete (x : Ctx) (flights : List Flight) : Ctx :=
  match flights.head? with
  | some f => { x with pc := f.pc, g := f.before }
  | none =>
    match x.wait with
    | .none => x
    | .store => { x with pc := x.lastPc, g := x.prior }
    | _ => { x with pc := x.lastPc }

/-- A core reset (R473): the write buffer and the caches are lost, every context that is not FREE halts at its first incomplete
instruction, and its task enters HALTED. -/
def State.coreReset (s : State) (c : Nat) : State :=
  let flights := (s.core c).flight
  let live := (ctxsOf c).filter fun g => decide ((s.ctx g).cs ≠ .free)
  let newly := live.filter fun g => decide ((s.ctx g).cs ≠ .halted)
  let tasks := (List.range 256).filter fun t => newly.any fun g => decide ((s.ctx g).task = t)
  let at_ := fun t => s.resetSec newly t
  let s := s.setCore c CoreSt.init
  let s := s.each live fun s g => s.modCtx g fun x =>
    { (x.atIncomplete (flights.filter fun f => decide (f.ctx = g))).halt with finfo := 0, rep := false }
  s.each tasks fun s t => s.taskHalt t (at_ t)

/-- The lost clock of a watchdog island runs again, its watchdog counts on, and the change is recorded (R475, R476). -/
def State.islandBack (s : State) (n : Nat) : State :=
  if (s.wd n).lost then
    (s.setWd n { s.wd n with lost := false, zero := s.ntm.mono - (s.wd n).froze * 1000 }).raiseSt 0x32 n true 1
  else s

/-- The POL action of a watchdog: a RESET restarts its island clock as well (R472, R476). -/
def State.wdgAct (s : State) (n : Nat) : State :=
  match s.wdgPol n with
  | 1 => s.assertOut
  | 2 => (if n = wdgSys then s.packageReset 2 else s.coreReset n).islandBack n
  | _ => s

/-- Write-buffer entries that a RESET discards (R473). -/
def State.wdgDiscards (s : State) (n : Nat) : Nat := if s.wdgPol n = 2 ∧ n ≠ wdgSys then (s.core n).wbuf.length else 0

/-- An expiry: counted and recorded, the count restarts, and POL is applied (R470, R472). -/
def State.wdgExpire (s : State) (n : Nat) : State :=
  let s := s.incOb (K.WDG_EXPIRIES (n + 1))
  let s := s.raise 0x30 n n 0 (s.wdgPol n) (s.wdgDiscards n)
  ((s.wdgRestart n).wdgLast n 5).wdgAct n

/-- The count reaches LIMIT (R470). -/
def State.wdgDue (s : State) (n : Nat) : State :=
  if s.wdgEn n && !(s.wd n).lost then
    (s.reachMono ((s.wd n).zero + s.wdgLimit n * 1000)).wdgExpire n
  else s

/-- An EARLY or BADKEY violation: 1 EARLY, 2 BADKEY (R471, R472). -/
def State.wdgViolation (s : State) (n k : Nat) : State :=
  let s := s.incOb (if k = 1 then K.WDG_EARLY (n + 1) else K.WDG_BADKEY (n + 1))
  let s := (s.raise 0x31 n n 0 k (s.wdgCount n)).wdgLast n (k + 1)
  if bit (s.wdgCfg n) 4 then (s.wdgRestart n).wdgAct n else s

/-- A key once the requester and EN allow it (R471). -/
def State.wdgKey (s : State) (n v : Nat) : State :=
  if v ≠ 0xA5C3 then s.wdgViolation n 2
  else if s.wdgCount n < s.wdgOpenAt n then s.wdgViolation n 1
  else if s.wdgCount n < s.wdgLimit n then (s.wdgRestart n).wdgLast n 1
  else
    let s := s.incOb (K.WDG_LATE (n + 1))
    (s.raise 0x31 n n 0 3 (s.wdgCount n)).wdgExpire n

/-- A requester that may write the key: for a core watchdog, a context of that core (R471). -/
def wdgKeyFrom (ses n : Nat) : Bool := decide (n = wdgSys) || (decide (ses < 384) && decide (ses / 16 = n))

/-- WDG.CFG or WDG.PERIOD is refused with STATE (R474). -/
def State.wdgCfgState (s : State) (n : Nat) (period : Bool) (v : Nat) : Bool :=
  s.wdgEn n && (!s.wdgOpen n || (!period && bit (s.wdgCfg n) 3 && !bit v 0))

/-- Encodings and ranges of WDG.CFG and WDG.PERIOD (R472, R480). -/
def wdgCfgValue (n : Nat) (period : Bool) (v : Nat) : Nat :=
  if period then
    (if 10 ≤ bits v 63 32 ∧ bits v 63 32 ≤ 10000000 ∧ bits v 31 0 < bits v 63 32 then stOK else stRANGE)
  else if bits v 2 1 = 3 ∨ (bits v 2 1 = 2 ∧ n = 0) then stRESERVED else stOK

/-- An accepted write restarts the count; a LOCK set once holds until the watchdog's domain is next reset (R474). -/
def State.wdgCfgApply (s : State) (n : Nat) (period : Bool) (v : Nat) : State :=
  let was := s.wdgEn n
  let locked := was && bit (s.wdgCfg n) 3
  let s := if period then s.setOb (K.WDG_PERIOD (n + 1)) v else s.setOb (K.WDG_CFG (n + 1)) (if locked then putBit v 3 true else v)
  if was || s.wdgEn n then s.wdgRestart n else s

/-- WDG.STATE (R482). -/
def State.wdgState (s : State) (n : Nat) : Nat :=
  2 ^ 11 * b2n (s.wd n).lost + 2 ^ 8 * (s.wd n).last + 2 * b2n (s.wdgOpen n) + b2n (s.wdgEn n)

/-! ### Clock loss -/

/-- A watchdog island is watched: its core is fitted and its domain on (R475). -/
def State.wdgWatched (s : State) (n : Nat) : Bool :=
  decide (n = wdgSys) || (decide (n < 24) && s.coreFitted n && s.domOn (dS (strandOf n)))

/-- The fabric clock of a fitted die, watched as k = 0x20 + its bit. -/
def State.fabricWatched (s : State) (k : Nat) : Bool := decide (0x20 ≤ k) && decide (k < 0x28) && bit s.part.fitted (k - 0x20)

/-- A monitored clock is LOST (R476); the heartbeat stops with the clock of the mooring island (R344).
(DEDUCED, unsafe: log 63.) -/
def State.clockLost (s : State) (k : Nat) : State :=
  if s.wdgWatched k && !(s.wd k).lost then
    let c := s.wdgCount k
    let s := s.setWd k { s.wd k with lost := true, froze := c }
    (s.raiseSt 0x32 k false 0).wdgExpire k
  else if s.fabricWatched k && !bit s.pwr.fabricLost (k - 0x20) then
    ((s.setPwr fun p => { p with fabricLost := putBit p.fabricLost (k - 0x20) true }).raiseSt 0x32 k false 0).reclaim
  else s

/-- A LOST clock is RESTORED, and its watchdog counts on (R475, R476). -/
def State.clockBack (s : State) (k : Nat) : State :=
  if s.wdgWatched k && (s.wd k).lost then s.islandBack k
  else if s.fabricWatched k && bit s.pwr.fabricLost (k - 0x20) then
    ((s.setPwr fun p => { p with fabricLost := putBit p.fabricLost (k - 0x20) false }).raiseSt 0x32 k true 1).reclaim
  else s

/-- WDG.CLKMON of the die with bit d (R480).
(DEDUCED, unsafe: log 65.) -/
def State.clkMon (s : State) (d : Nat) : Nat :=
  if !bit s.part.fitted d then 0 else if bit s.pwr.fabricLost d then 2 else 1

/-! ### Task check-in -/

def State.setChk (s : State) (f : Chk → Chk) : State := { s with chk := f s.chk }

def State.chkPeriod (s : State) (t : Nat) : Nat := s.ob (K.WDG_CHK_PERIOD t)

/-- An accepted write of WDG.CHK_PERIOD abandons the slot's period (R477). -/
def State.chkPeriodSet (s : State) (t v : Nat) : State :=
  (s.setOb (K.WDG_CHK_PERIOD t) v).setChk fun c => { c with
    count := mput (fun _ => 0) c.count t 0
    due := mput (fun _ => 0) c.due t (if v = 0 then 0 else nextMultiple v s.us) }

/-- Tasks 1–255 as a bitmap of 32 bytes. -/
def taskBitmap (l : List Nat) : List Byte := leBytes 32 (maskOf l)

/-- Periods of these slots end, counted and reported together (R478).
(DEDUCED, unsafe: log 64.) -/
def State.chkJudge (s : State) (l : List Nat) : State :=
  let k := fun t => mget (fun _ => 0) s.chk.count t
  let missed := l.filter fun t => decide (k t = 0)
  let dup := l.filter fun t => decide (2 ≤ k t)
  let dups := (dup.map fun t => k t - 1).foldl (· + ·) 0
  let s := s.each missed fun s t => s.incOb (K.WDG_CHK_MISSES t)
  let s := s.each dup fun s t => s.addOb (K.WDG_CHK_DUPS t) (k t - 1)
  if missed = [] ∧ dup = [] then s
  else (s.setDom K.WDG_CHK_LAST (taskBitmap missed ++ taskBitmap dup)).raise 0x33 0 0 0 missed.length dups

/-- The next boundary of any slot. -/
def State.chkDue (s : State) : Option Nat := (s.chk.due.map Prod.snd).min?

/-- Every period that ends at the next boundary ends (R477–R479). -/
def State.chkEnd (s : State) : State :=
  match s.chkDue with
  | none => s
  | some d =>
    let s := s.reachUs d
    if s.us < d then s
    else
      let l := (s.chk.due.filter fun e => decide (e.2 = d)).map Prod.fst
      let s := if bit (s.ob K.WDG_CHK_CFG) 0 && decide (s.tds.st ≠ .running) then s else s.chkJudge l
      s.each l fun s t => s.setChk fun c => { c with
        count := mput (fun _ => 0) c.count t 0
        due := mput (fun _ => 0) c.due t (nextMultiple (s.chkPeriod t) s.us) }

/-- The boundaries that the microsecond count has reached are judged. -/
def State.chkPast (s : State) : State :=
  s.each s.chk.due fun s _ => match s.chkDue with
    | some d => if d ≤ s.us then s.chkEnd else s
    | none => s

/-- A CHKIN of a task arrives; one that arrives at a boundary belongs to the new period (R477, R479). -/
def State.checkIn (s : State) (t : Nat) : State :=
  if t = 0 ∨ s.chkPeriod t = 0 then s.incOb K.WDG_CHK_STRAY
  else s.chkPast.setChk fun c => { c with count := mput (fun _ => 0) c.count t (mget (fun _ => 0) c.count t + 1) }

/-! ### Folds -/

def State.setFlt (s : State) (f : Flt → Flt) : State := { s with flt := f s.flt }

/-- A fold's 40 bytes (R484). -/
def Fold.bytes (f : Fold) : List Byte :=
  leBytes 4 f.seq ++ leBytes 1 f.cls ++ leBytes 1 (b2n f.isOpen + 2 * b2n f.multi + 4 * b2n f.early + 8 * b2n f.sat) ++
  leBytes 2 f.key ++ leBytes 4 f.count ++ leBytes 2 f.src ++ leBytes 2 f.root ++ leBytes 4 f.detail ++ leBytes 4 f.extra ++
  leBytes 8 f.first ++ leBytes 8 f.last

/-- FLT.LOG (R492). -/
def State.fltLog (s : State) : List Byte := (s.flt.log.map Fold.bytes).flatten

/-- Open folds, oldest first. -/
def State.openFolds (s : State) : List Fold := (s.flt.log.filter Fold.isOpen).reverse

/-- FLT.STATE (R493).
(DESIGN CHOICE, safe: log 66.) -/
def State.fltState (s : State) : Nat := 2 ^ 9 * b2n s.flt.outKept + 2 ^ 8 * b2n s.flt.out + s.openFolds.length

def State.putFold (s : State) (f : Fold) : State :=
  s.setFlt fun t => { t with log := t.log.map fun g => if g.seq = f.seq then f else g }

/-- A fold closes and is passed to Strata (R486, R501). -/
def State.foldEnd (s : State) (f : Fold) (early : Bool) : State :=
  let s := (s.putFold { f with isOpen := false, early := early }).when early fun s => s.incOb K.FLT_EARLY_CLOSE
  s.sample f.cls f.key f.count

/-- Every open fold whose closing instant has come closes, oldest first (R486). -/
def State.foldsDue (s : State) : State :=
  s.each (s.openFolds.filter fun f => decide (f.close ≤ s.ns)) fun s f => s.foldEnd f false

/-- The fold that closes next reaches its instant (R486). -/
def State.foldClose (s : State) : State :=
  match (s.openFolds.map Fold.close).min? with
  | some t => (s.reach t).foldsDue
  | none => s

/-- KEVENTS.FLT is set. -/
def State.notifyNow (s : State) : State := (s.setFlt fun t => { t with notified := some s.ntm.mono }).kevent kFLT

/-- End of the gap after the latest notification, in elapsed time (R489). -/
def State.gapEnd (s : State) : Nat := match s.flt.notified with
  | some t => t + s.ob K.FLT_NOTIFY_GAP * 1000
  | none => 0

/-- A notification falls due (R489). -/
def State.notify (s : State) : State :=
  if s.flt.waiting = 0 ∧ s.gapEnd ≤ s.ntm.mono then s.notifyNow
  else s.setFlt fun t => { t with waiting := t.waiting + 1 }

/-- The gap ends: what waited is made as one (R489). -/
def State.notifyEnd (s : State) : State :=
  if s.flt.waiting = 0 then s
  else
    let s := s.reachMono s.gapEnd
    let s := s.addOb K.FLT_NOTIFY_MERGED (s.flt.waiting - 1)
    (s.setFlt fun t => { t with waiting := 0 }).notifyNow

/-- A die-to-die link comes up again (R15). -/
def State.linkBack (s : State) (die : Nat) : State :=
  if bit s.pwr.linkDown die then
    (s.setPwr fun p => { p with linkDown := putBit p.linkDown die false }).raiseSt 0x06 die true 1
  else s

/-- The actions armed in FLT.POLICY of the class of a fold that opens (R489, R490). -/
def State.policy (s : State) (f : Fold) : State :=
  let p := s.ob (K.FLT_POLICY f.cls)
  let s := s.when (bit p 0) State.notify
  let s := s.when (bit p 1) State.assertOut
  let s := s.when (bit p 2) fun s => s.tidemark 1 f.cls f.seq
  let s := s.when (bit p 3 && decide (s.red.role = .active)) fun s => (s.setRed fun r => { r with stop := true }).reclaim
  let s := s.when (bit p 4) State.fioPark
  let s := s.when (bit p 5) State.tideHalt
  s.when (bit p 6 && decide (f.cls = 0x06) && decide (f.detail = 0)) fun s => s.linkBack f.src

/-- A raw record joins its open fold (R486, R487). -/
def Fold.join (f : Fold) (r : Raw) (now : Nat) : Fold :=
  { f with
    count := Nat.min (2 ^ 32 - 1) (f.count + 1)
    sat := f.sat || decide (f.count = 2 ^ 32 - 1)
    multi := f.multi || (decide (f.cls = 0x0A) && decide (f.root ≠ r.root))
    last := now }

/-- Room for one more open fold and one more entry (R488). -/
def State.foldRoom (s : State) : State :=
  let s := match s.openFolds with
    | f :: _ => s.when (decide (16 ≤ s.openFolds.length)) fun s => s.foldEnd f true
    | [] => s
  match s.flt.log.getLast? with
  | some f => s.when (f.isOpen && decide (256 ≤ s.flt.log.length)) fun s => s.foldEnd f true
  | none => s

/-- A raw record opens a new fold, and the armed actions are taken (R486, R489). -/
def State.foldOpen (s : State) (r : Raw) : State :=
  let s := s.foldRoom
  let seq := (s.ob K.FLT_LOG_SEQ + 1) % 2 ^ 32
  let win := s.ob K.FLT_FOLD_WINDOW
  let f : Fold := {
    seq := seq, cls := r.cls, isOpen := true, multi := false, early := false, sat := false, key := r.key, count := 1
    src := r.src, root := if r.cls = 0x0A then r.root else 0, detail := r.detail, extra := r.extra, first := s.ns
    last := s.ns, close := s.ns + win * 1000 }
  let s := (s.setOb K.FLT_LOG_SEQ seq).setFlt fun t => { t with log := (f :: t.log).take 256 }
  let s := s.policy f
  if win = 0 then s.foldEnd f false else s

/-- The collector accepts the raw record at the front (R483, R486). -/
def State.acceptRaw (s : State) : State :=
  match s.flt.queue with
  | [] => s
  | r :: t =>
    let s := (s.setFlt fun x => { x with queue := t }).foldsDue
    let s := (s.incOb K.FLT_RECORDS).incOb (K.FLT_COUNT r.cls)
    match s.openFolds.find? fun f => decide (f.cls = r.cls) && decide (f.key = r.key) with
    | some f => (s.putFold (f.join r s.ns)).incOb K.FLT_FOLDED
    | none => s.foldOpen r

/-- FLT.CMD CLEAR_OUT, which loses to an assertion of the same clock (R491). -/
def State.clearOut (s : State) : State :=
  let lost := s.flt.out && s.inClock s.flt.outAt
  s.setFlt fun t => { t with out := lost, outKept := lost, clrAt := some s.ntm.mono }

/-- FLT.CMD FLUSH: every open fold closes (R492). -/
def State.fltFlush (s : State) : State := s.each s.openFolds fun s f => s.foldEnd f false

/-- FLT.RAISE (R485, R492). -/
def fltRaiseCheck (v : Nat) : Nat := if 0xF0 ≤ bits v 39 32 then stOK else stRANGE

def State.fltRaise (s : State) (v : Nat) : State := s.raise (bits v 39 32) 0 0 0 (bits v 31 0) 0

/-- Classes of R485. -/
def fltClasses : List Nat :=
  (List.range 13).map (· + 1) ++ (List.range 7).map (· + 0x10) ++ (List.range 7).map (· + 0x20) ++
  (List.range 6).map (· + 0x28) ++ (List.range 4).map (· + 0x30) ++ (List.range 16).map (· + 0xF0)

/-- FLT.POLICY as written: RETRAIN is a reserved bit but in DIE_LINK (R490, R43). -/
def policyValue (cls v : Nat) : Nat := if cls = 0x06 then v else putBit v 6 false

end Sys2Proof.Machine
end

