-- ==== Sys2Proof/Machine/DictRead.lean ====
section
/-! DEFINITION. What objects of the dictionary read as (R30, R39): the fields of the state behind the objects that hold
no value of their own, block by block, and the bytes of domains. -/

namespace Sys2Proof.Machine

/-! ### Objects that exist (R12, R28, R485, R520) -/

/-- The object belongs to a die, domain, class or block that this variant has.
(DEDUCED, unsafe: log 65.) -/
def State.onDevice (s : State) (idx sub : Nat) : Bool :=
  match idx / 256 with
  | 0x12 => if idx = 0x1204 then s.strandFitted sub else if idx = 0x1201 ∨ idx = 0x1202 then s.domFitted sub else true
  | 0x23 => s.strandFitted sub
  | 0x28 => s.coreFitted (sub - 1)
  | 0x36 => s.bwFitted
  | 0x50 => if idx ≤ 0x5008 ∧ sub ≤ 0x18 then s.coreFitted (sub - 1) else true
  | 0x51 => if idx = 0x5110 ∨ idx = 0x5111 then fltClasses.contains sub else true
  | 0x53 => if idx = 0x5302 then !(blockRows sub).isEmpty else true
  | _ => true

/-- The row of an object of this device. -/
def State.rowOf (s : State) (key : Nat) : Option ObjRow :=
  if s.onDevice (key / 256) (key % 256) then objRow key else none

/-! ### Counters (R495–R499) -/

/-- The counters of a block that this device has, row by row, and the bandwidths of PMC's windows with them where asked (R494,
R495). -/
def State.counterRows (s : State) (hi : Nat) (bw : Bool) : List (List Nat) :=
  (((blockRows hi).filter fun r => r.counter || (bw && (decide (r.ilo = 0x5306) || decide (r.ilo = 0x5307)))).map fun r =>
    (r.keysIn hi).filter fun k => s.onDevice (k / 256) (k % 256)).filter fun l => !l.isEmpty

/-- An element placed in a list by its rank, before those of a greater one. -/
def placeBy {α : Type} (rank : α → Nat) (x : α) : List α → List α
  | [] => [x]
  | y :: t => if rank x ≤ rank y then x :: y :: t else y :: placeBy rank x t

/-- A list in the order of its ranks. -/
def orderBy {α : Type} (rank : α → Nat) (l : List α) : List α := l.foldr (placeBy rank) []

/-- The events of a block in the order of their numbers, each as the counters it names: one counter each where the block's fit
its 256 numbers, and otherwise all of one name, which count together (R495).
(DESIGN CHOICE, unsafe: log 135.) -/
def State.blockEvents (s : State) (bb : Nat) : List (List Nat) :=
  let rows := s.counterRows bb true
  let l := if rows.flatten.length ≤ 256 then rows.flatten.map fun k => [k] else rows
  orderBy (fun g => Config.eventRank (g.headD 0)) l

/-- A block's event numbers with the counters each names: as many numbers as events, rising (R495).
(DESIGN CHOICE, safe: log 67.) -/
def State.numbered (s : State) (bb : Nat) : List (Nat × List Nat) :=
  let l := s.blockEvents bb
  let all := List.range 256
  let used := (all.filter (Config.eventLow bb) ++ all.filter fun n => !Config.eventLow bb n).take l.length
  ((all.filter used.contains).map fun n => bb * 256 + n).zip l

/-- The counters that an event number names; empty where the catalogue has no such event (R495). -/
def State.eventOf (s : State) (n : Nat) : List Nat :=
  (((s.numbered (n / 256)).find? fun e => decide (e.1 = n)).map fun e => e.2).getD []

/-- The value of an event's counters, modulo 2^64. -/
def State.eventValue (s : State) (l : List Nat) : Nat := (l.foldl (fun a k => a + s.ob k) 0) % 2 ^ 64

/-- KIND of an event by the object that holds it: 1 threshold, 2 bandwidth, 0 event. -/
def eventKind (key : Nat) : Nat := if key / 256 = 0x5304 then 1 else if key / 256 = 0x5306 ∨ key / 256 = 0x5307 then 2 else 0

/-- PMC.CATALOG (R495).
(DESIGN CHOICE, safe: log 67.) -/
def State.catalog (s : State) : List Byte :=
  ((List.range 256).flatMap fun bb => (s.numbered bb).map fun e =>
    leBytes 2 e.1 ++ leBytes 1 (eventKind (e.2.headD 0)) ++ [0] ++ slice (Config.eventName e.1) 0 12).flatten

/-- PMC.BLOCK of a block (R496). -/
def State.blockCounters (s : State) (bb : Nat) : List Byte :=
  ((s.numbered bb).map fun e => leBytes 8 (s.eventValue e.2)).flatten

/-- State of a context in CSTATE (R73). -/
def CState.code : CState → Nat
  | .free => 0
  | .ready => 1
  | .running => 2
  | .preempted => 3
  | .gated => 4
  | .halted => 5

/-! ### Islands (R510) -/

/-- The objects that an island's section holds at the least, by what the island is (R510). -/
def islandKeys (die kind : Nat) : List Nat :=
  match kind with
  | 1 => [K.TDS_STATE, K.TDS_TIDE64] ++ (List.range 255).map fun t => K.TSK_STATE (t + 1)
  | 3 => (List.range 32).flatMap fun k =>
      [K.DMA_STATE (k + 1), K.DMA_PC (k + 1), K.DMA_SP (k + 1), K.DMA_DP (k + 1), K.DMA_REM (k + 1)]
  | 5 => [K.RED_STATE, K.RED_LINKS]
  | 6 => [K.FLT_STATE, K.FLT_LOG_SEQ]
  | 7 => K.FIO_STATE :: (List.range 16).map fun n => K.FIO_OUT_DIAG (n + 1)
  | k => if 0x10 ≤ k ∧ k < 0x14 ∧ 1 ≤ die then [K.CPU_STATE (4 * (die - 1) + (k - 0x10) + 1)] else []

/-- The die of a counter and what its island is, where the counter's block or the occupancy it watches says so (R497, R510).
(DESIGN CHOICE, unsafe: log 136.) -/
def State.counterHome (s : State) (key : Nat) : Nat × Option Nat :=
  let core := fun c => (strandOf c, some (0x10 + c % 4))
  match key / 65536 with
  | 0x20 => (0, some 1)
  | 0x21 => (0, some 1)
  | 0x28 => core (key % 256 - 1)
  | 0x32 => (0, some 4)
  | 0x34 => (0, some 5)
  | 0x36 => (7, some 7)
  | 0x3A => (0, some 3)
  | 0x51 => (0, some 6)
  | 0x53 =>
    let cfg := s.ob (K.PMC_THR_CFG (key % 256))
    (match bits cfg 27 24 with
    | 1 => core (bits cfg 23 16)
    | 3 => (0, some 1)
    | 7 => (0, some 6)
    | _ => (0, none))
  | _ => (dieOf key, none)

/-- The event and threshold counters of an island (R494, R497, R510). -/
def State.islandCounters (s : State) (die island : Nat) : List Nat :=
  ((List.range 256).flatMap fun hi => (s.counterRows hi false).flatten).filter fun k =>
    let h := s.counterHome k
    decide (h.1 = die) && (match h.2 with
      | some kind => decide (Config.islandKind die island = kind)
      | none => decide (Config.counterIsland k = island))

/-- What a section holds that is only a part of an object, with its value: PC and CSTATE of a core's contexts, or network time at
receipt (R510). -/
def State.islandOwn (s : State) (die kind : Nat) : List (Nat × Option Nat) :=
  if kind = 4 then [(K.NTM_SEC, some s.ntm.sec), (K.NTM_NSEC, some s.ntm.nsec)]
  else if 0x10 ≤ kind ∧ kind < 0x14 ∧ 1 ≤ die then
    (ctxsOf (4 * (die - 1) + (kind - 0x10))).flatMap fun g =>
      let key := K.CPU_CTX (g % 16) (g / 16 + 1)
      [(key, some (s.ctx g).pc.toNat), (key, some (s.ctx g).cs.code)]
  else []

/-- The objects of an island's section in order, some with the value that is taken of them: the least of R510, the island's
counters, and what else SNP.MAP lists. -/
def State.islandSlots (s : State) (die island : Nat) : List (Nat × Option Nat) :=
  let kind := Config.islandKind die island
  orderBy (fun x => Config.slotRank die island x.1)
    (((islandKeys die kind ++ s.islandCounters die island ++ Config.islandExtra die island).map fun k => (k, none)) ++
      s.islandOwn die kind)

/-- SNP.MAP: of each island of a fitted die, the objects of its section in their order (R510).
(DESIGN CHOICE, safe: log 68.) -/
def State.snpMap (s : State) : List Byte :=
  Config.snpMap (((List.range 8).filter fun d => bit s.part.fitted d).flatMap fun d =>
    (Config.islands d).map fun i => (d, i, (s.islandSlots d i).map fun x => x.1))

/-! ### Contexts (R73, R101) -/

/-- The 512 bytes of CPU.CTXn (R73). -/
def Ctx.bytes (x : Ctx) : List Byte :=
  let w := fun (v : Word) => leBytes 4 v.toNat
  ((List.range 32).map fun n => w (x.gr n)).flatten ++ ((List.range 16).map fun n => leBytes 8 (x.fr n).toNat).flatten ++
  w x.pc ++ w (x.sreg 1) ++ w (x.sreg 2) ++ w (x.sreg 3) ++
  ((List.range 8).map fun n => w (x.sreg (12 + n))).flatten ++ ((List.range 4).map fun n => w (x.sreg (20 + n))).flatten ++
  w (x.sreg 7) ++ w (x.sreg 8) ++ leBytes 4 (x.task * 2 ^ 16 + x.npcnt * 2 ^ 8 + x.cs.code) ++ w x.finfo ++ w x.fpc ++
  w x.faddr ++ List.replicate 168 0

/-- A context with the bytes of a write to CPU.CTXn: those from 0x148 on are ignored (R74). -/
def Ctx.ofBytes (x : Ctx) (b : List Byte) : Ctx :=
  let w := fun at_ => BitVec.ofNat 32 (leAt b at_ 4)
  let x := (List.range 32).foldl (fun x n => x.setG n (w (4 * n))) x
  let x := (List.range 16).foldl (fun x n => x.setF n (BitVec.ofNat 64 (leAt b (0x80 + 8 * n) 8))) x
  let x := { x with pc := w 0x100, rep := false }
  let sr := [(1, 0x104), (2, 0x108), (3, 0x10C), (7, 0x140), (8, 0x144)] ++
    ((List.range 12).map fun n => (12 + n, 0x110 + 4 * n))
  let mask := fun (n : Nat) => if n = 1 ∨ n = 2 then (0x7F : Word) else if n = 3 then 3 else 0xFFFFFFFF
  sr.foldl (fun x e => x.setS e.1 (w e.2 &&& mask e.1)) x

/-- CPU.STATE of a core (R101). -/
def State.cpuState (s : State) (c : Nat) : Nat :=
  let busy := maskOf ((List.range 16).filter fun n => decide ((s.ctx (16 * c + n)).cs ≠ .free))
  match s.running c with
  | none => busy * 2 ^ 16
  | some g => busy * 2 ^ 16 + g % 16 * 2 ^ 12 + 2 ^ 11 + 2 ^ 10 * b2n (s.ctx g).npOpen + (s.ctx g).task % 256

/-! ### Values, block by block: none where the object holds its own -/

def TxnSt.code : TxnSt → Nat
  | .idle => 0
  | .open => 1
  | .voting => 2
  | .pending => 3
  | .done => 4
  | .failed => 5

/-- Role of a session: Keeper for task 0 in context 0, the task table's for any other context (R33).
(DESIGN CHOICE, safe: log 24.) -/
def State.roleOf (s : State) (n : Nat) : Nat :=
  if 384 ≤ n then (s.ses n).role
  else if n = 0 ∧ (s.ctx 0).task = 0 then 3
  else bits (s.tskCfg (s.ctx n).task) 27 26

def State.idnVal (s : State) (idx sub : Nat) : Option Nat :=
  match idx, sub with
  | 0x1000, 2 => some s.part.code
  | 0x1000, 3 => some (Config.stepping % 2 ^ 16)
  | 0x1000, 4 => some (Config.serial % 2 ^ 64)
  | 0x1001, _ => some (if bit s.part.fitted (sub - 1) then Config.dieSerial (sub - 1) % 2 ^ 64 else 0)
  | 0x1002, _ => some s.part.fitted
  | _, _ => none

/-- DIC.DOM_LENGTH: highest byte written plus 1 of a write transfer (R58). -/
def Xfer.written (x : Xfer) : Nat := (x.wr.map fun e => e.1 + 1).foldl Nat.max 0

def State.dicVal (s : State) (n idx sub : Nat) (domLen : Nat) : Option Nat :=
  let x := s.ses n
  match idx, sub with
  | 0x1100, 1 => some x.result
  | 0x1100, 2 => some (s.roleOf n)
  | 0x1102, 1 => some x.txn.code
  | 0x1102, 2 => some x.staged.length
  | 0x1103, 2 => some x.domOff
  | 0x1103, 3 => some domLen
  | _, _ => none

def State.pwrVal (s : State) (idx sub : Nat) : Option Nat :=
  match idx, sub with
  | 0x1200, 1 => some (4 * b2n s.pwr.sdLost + 2 * b2n s.pwr.refLost + b2n s.pwr.railsOk)
  | 0x1201, _ => some (s.domReg sub)
  | _, _ => none

def State.startVal (s : State) (idx sub : Nat) : Option Nat :=
  match idx, sub with
  | 0x1300, 1 => some s.strState
  | 0x1302, 1 => some (Nat.min 255 s.warmFails)
  | 0x1400, 1 => some s.str.fuses
  | _, _ => none

def TideSt.code : TideSt → Nat
  | .stopped => 0
  | .armed => 1
  | .running => 2
  | .stopping => 3
  | .halted => 4

/-- The flood start is past FLOOD and waits for input ready (R142). -/
def State.floodWaits (s : State) : Bool :=
  s.tideOn && !s.tds.first && !s.tds.flooded && decide (s.phaseAt K.TDS_FLOOD < s.ns)

/-- TDS.STATE (R169). -/
def State.tdsState (s : State) : Nat :=
  2 ^ 11 * b2n s.floodWaits + (if s.tideOn then s.tds.phase * 2 ^ 9 else 0) + 2 ^ 8 * b2n s.tds.swin + s.tds.st.code

def TaskSt.code : TaskSt → Nat
  | .disabled => 0
  | .idle => 1
  | .copyIn => 2
  | .active => 3
  | .copyBack => 4
  | .halted => 5

/-- State of task 0 (R167): ACTIVE while context 0 runs or is ready, IDLE while END holds it suspended; DISABLED while it is FREE,
and HALTED while it is halted.
(DESIGN CHOICE, unsafe: log 96.) -/
def State.task0State (s : State) : TaskSt :=
  match (s.ctx 0).cs with
  | .free => .disabled
  | .gated => .idle
  | .halted => .halted
  | _ => .active

/-- TSK.STATE (R174). -/
def State.tskState (s : State) (t : Nat) : Nat :=
  if t = 0 then s.task0State.code
  else
    let x := s.task t
    x.flags * 2 ^ 16 + x.held.length * 2 ^ 12 + (if x.st = .halted then x.hsec * 2 ^ 8 else 0) + x.st.code

def State.tideVal (s : State) (idx sub : Nat) : Option Nat :=
  match idx, sub with
  | 0x2000, 1 => some s.tdsState
  | 0x2002, 3 => some (s.slackBudget % 2 ^ 32)
  | 0x2100, t => some (s.tskState t)
  | _, _ => none

/-- Network time in µs of the least recent save of a Strand's retained blocks (R215). -/
def State.lastSave (s : State) (n : Nat) : Nat :=
  ((List.range (s.retBlocks n)).map fun b => mget (fun _ => 0) s.retAt (4 * n + b)).min?.getD 0

def State.imgVal (s : State) (n idx sub : Nat) : Option Nat :=
  match idx, sub with
  | 0x2200, 1 => some (2 * b2n s.img.txw + b2n s.forceEn)
  | 0x2202, 1 => some (s.ses n).forceSel
  | 0x2202, 2 => some (s.ses n).forceKey
  | 0x2202, 3 => some (s.ses n).forceVal
  | 0x2203, 1 => some s.forceCount
  | 0x2203, 2 => some s.orphans
  | 0x2204, 1 => some s.inDigest
  | 0x2305, m => some (s.lastSave m)
  | _, _ => none

def State.olcVal (s : State) (idx sub : Nat) : Option Nat :=
  match idx, sub with
  | 0x2400, 1 => some s.olc.state
  | 0x2400, 3 => some s.olc.resultReg
  | 0x2800, c => some (s.cpuState (c - 1))
  | _, _ => none

def State.hnwVal (s : State) (idx sub : Nat) : Option Nat :=
  match idx, sub with
  | 0x3001, p => some (s.portCfg (p - 1))
  | 0x3003, k => some (s.ringReg (k - 1))
  | 0x3004, 2 => some s.hnw.cmd
  | 0x300B, p => some (s.trainLen (p - 1))
  | _, _ => none

/-- Frames in the transmit queue of NTM.PTP_TX (R312). -/
def State.ptpQueued (s : State) : Nat :=
  ((List.range 18).map fun p => ((s.queue p).filter fun f => decide (f.kind = .ptp)).length).foldl (· + ·) 0

/-- NTM.STATUS (R329). -/
def State.ntmStatus (s : State) : Nat :=
  8 * b2n (decide (s.ntm.rx ≠ [])) + 4 * b2n (decide (16 ≤ s.ptpQueued)) + 2 * b2n s.usHeld + b2n (decide (s.ob K.NTM_LOCK = 1))

def State.ntmVal (s : State) (n idx sub : Nat) : Option Nat :=
  match idx, sub with
  | 0x3200, 1 => some (s.ses n).sec
  | 0x3200, 2 => some s.ntm.nsec
  | 0x3200, 3 => some s.us
  | 0x320A, p => some (s.gclCfg (p - 1))
  | 0x3202, 1 => some s.ntmStatus
  | 0x3203, 2 => some s.clockId
  | _, _ => none

/-- The witness runs: every RED object but RED.CFG, RED.WIT, RED.WIT_MOVES and the role in RED.STATE reads its default (R349).
(DEDUCED, unsafe: log 105.) -/
def State.redDefault (s : State) (key : Nat) : Bool :=
  decide (s.redMode = 2) && decide (s.red.role = .witness) && !([K.RED_STATE, K.RED_CFG, K.RED_WIT, K.RED_WIT_MOVES].contains key)

def State.redVal (s : State) (idx sub : Nat) : Option Nat :=
  if s.redDefault (idx * 256 + sub) then some (objDefault (idx * 256 + sub)) else
  match idx, sub with
  | 0x3400, 1 => some (if s.redMode = 2 ∧ s.red.role = .witness then s.red.role.code * 2 ^ 16 else s.redState)
  | 0x3400, 3 => some s.redLinks
  | 0x3404, 1 => some s.redWit
  | _, _ => none

/-- FIO.LOCAL: the line latched on this package, whatever was dictated (R372). -/
def State.fioVal (s : State) (idx sub : Nat) : Option Nat :=
  match idx, sub with
  | 0x3600, 1 => some s.fioState
  | 0x3604, n => some (mget (fun _ => 0) s.fio.diag (n - 1))
  | 0x3607, 1 => some (leAt s.fio.line 0 8)
  | _, _ => none

def State.mbcVal (s : State) (idx sub : Nat) : Option Nat :=
  let m := s.mb (sub - 1)
  match idx with
  | 0x3800 => some m.state
  | 0x3807 => some (m.fifo1.length * 2 ^ 16 + m.fifo0.length)
  | 0x3808 => some m.bufFull
  | 0x3825 => some m.txState
  | _ => if 0x3810 ≤ idx ∧ idx ≤ 0x3819 then some (m.rdWord (idx - 0x3810)) else none

def State.dmaVal (s : State) (idx sub : Nat) : Option Nat :=
  let d := s.ch (sub - 1)
  match idx with
  | 0x3A00 => some { d with st := s.chanSt (sub - 1) }.state
  | 0x3A04 => some d.pc
  | 0x3A05 => some d.sp
  | 0x3A06 => some d.dp
  | 0x3A07 => some d.rem
  | 0x3A08 => some (d.lc1 * 2 ^ 32 + d.lc0)
  | 0x3A0A => some d.err
  | _ => none

def State.bdrVal (s : State) (n idx sub : Nat) : Option Nat :=
  match idx, sub with
  | 0x3C00, 1 => some s.bdrState
  | 0x3C01, 1 => some (s.bdrTxnOwn n)
  | 0x3C01, 2 => some (stagedLines s.bdr.staged).length
  | 0x3C05, 3 => some (s.unlockedMask (s.bedReq n))
  | 0x3C07, 1 => some (s.ses n).recSel
  | 0x3C07, 3 => some (s.ses n).recStatus
  | 0x3C09, 1 => some s.wearTop.2
  | 0x3C09, 2 => some s.wearTop.1
  | _, _ => none

/-- CAL.COUNT as a session reads it: the count latched at the ebb point for tasks 1–255 while the tide runs, the live count for
any other (R338, R453). -/
def State.calCount (s : State) (n : Nat) : Nat :=
  if n < 384 ∧ (s.ctx n).task ≠ 0 ∧ s.tideOn = true then s.ob K.CAL_EBB_COUNT else s.cal.count

def State.calVal (s : State) (n idx sub : Nat) : Option Nat :=
  match idx, sub with
  | 0x3D00, 1 => some s.cal.state
  | 0x3D01, 1 => some (s.calCount n)
  | 0x3D01, 2 => some (ofS 16 s.cal.shift)
  | 0x3D02, 1 => some (s.ses n).convDate
  | 0x3D02, 2 => some (s.ses n).convTicks
  | 0x3E00, 1 => some s.rsv.state
  | 0x3E02, 3 => some s.rsv.hours
  | 0x3E02, 4 => some s.eolDays
  | _, _ => none

def State.wdgVal (s : State) (idx sub : Nat) : Option Nat :=
  match idx with
  | 0x5003 => some (s.wdgState (sub - 1))
  | 0x5004 => some (s.wdgCount (sub - 1) % 2 ^ 32)
  | 0x5009 => some (s.clkMon (sub - 1))
  | _ => none

/-- PMC.VALUE: the counter that the session's PMC.SEL names (R495). -/
def State.pmcValue (s : State) (n : Nat) : Nat := s.eventValue (s.eventOf (s.ses n).pmcSel)

def State.obsVal (s : State) (n idx sub : Nat) : Option Nat :=
  match idx, sub with
  | 0x5100, 1 => some s.fltState
  | 0x5200, 1 => some s.sta.state
  | 0x5201, 1 => some (s.ses n).cursor
  | 0x5201, 3 => some s.sta.newest
  | 0x5201, 4 => some (s.ses n).gap
  | 0x5204, 1 => some (s.ses n).raiseClass
  | 0x5300, 1 => some (s.ses n).pmcSel
  | 0x5300, 2 => some (s.pmcValue n)
  | 0x5400, 1 => some s.snpState
  | 0x5402, 2 => some (s.ses n).snpSel
  | 0x5500, 1 => some s.hltState
  | 0x5503, i => some (s.life i)
  | 0x5505, 2 => some s.hlt.state
  | _, _ => none

/-- Value of an object, less its own: the block's function by the high byte of the index. -/
def State.blockVal (s : State) (n domLen idx sub : Nat) : Option Nat :=
  match idx / 256 with
  | 0x10 => s.idnVal idx sub
  | 0x11 => s.dicVal n idx sub domLen
  | 0x12 => s.pwrVal idx sub
  | 0x13 => s.startVal idx sub
  | 0x14 => s.startVal idx sub
  | 0x20 => s.tideVal idx sub
  | 0x21 => s.tideVal idx sub
  | 0x22 => s.imgVal n idx sub
  | 0x23 => s.imgVal n idx sub
  | 0x24 => s.olcVal idx sub
  | 0x28 => s.olcVal idx sub
  | 0x30 => s.hnwVal idx sub
  | 0x32 => s.ntmVal n idx sub
  | 0x34 => s.redVal idx sub
  | 0x36 => s.fioVal idx sub
  | 0x38 => s.mbcVal idx sub
  | 0x3A => s.dmaVal idx sub
  | 0x3C => s.bdrVal n idx sub
  | 0x3D => s.calVal n idx sub
  | 0x3E => s.calVal n idx sub
  | 0x50 => s.wdgVal idx sub
  | 0x51 => s.obsVal n idx sub
  | 0x52 => s.obsVal n idx sub
  | 0x53 => s.obsVal n idx sub
  | 0x54 => s.obsVal n idx sub
  | 0x55 => s.obsVal n idx sub
  | h => if 0x40 ≤ h ∧ h ≤ 0x4F ∧ sub = 7 then some (s.staState (idx - 0x4000)) else none

/-! ### Bytes of domains -/

/-- One force entry as the table of R193 lays it out. -/
def Force.bytes (f : Force) : List Byte :=
  leBytes 4 f.key ++ leBytes 4 (2 * b2n f.orphan + b2n f.en) ++ leBytes 8 f.val

/-- The area of IMG.IMAGE_x, read as a direct read is (R183, R187). -/
def State.areaBytes (s : State) (a : Nat) : List Byte := s.bytesAt (mHead + areaBase a) (areaSize a)

def State.ownersBytes (s : State) : List Byte := ((List.range 16384).map fun l => leBytes 2 (s.owner l)).flatten

/-- Contents of a domain or octet string, as a read finds them. Objects whose reading takes a record out of a queue are
not among them. -/
def State.domBytes (s : State) (n key : Nat) : List Byte :=
  let idx := key / 256
  let sub := key % 256
  match idx with
  | 0x1302 => s.str.recordBytes
  | 0x1400 => if sub = 2 then slice s.str.keyBoot 0 32 else slice s.str.keyProg 0 32
  | 0x1402 => slice (s.dom key) 0 32
  | 0x2004 => s.ownersBytes
  | 0x2201 => ((List.range 8192).map fun i => Force.bytes (s.force i)).flatten
  | 0x2204 => (s.inParts.map (leBytes 4)).flatten
  | 0x2206 => s.areaBytes (sub - 1)
  | 0x2301 => (s.rebaseTo sub).bytesAt (mTimer sub) 0x40000
  | 0x2403 => slice (s.dom key) 0 32
  | 0x3003 => slice (s.dom key) 0 512
  | 0x320E => (s.gate (sub - 1)).oper
  | 0x3403 => if s.redDefault key then List.replicate 16 0 else slice (s.dom key) 0 16
  | 0x3805 => slice (s.dom key) 0 1536
  | 0x3806 => slice (s.dom key) 0 768
  | 0x3820 => slice (s.dom key) 0 80
  | 0x3821 => slice (s.dom key) 0 80
  | 0x3822 => slice (s.dom key) 0 80
  | 0x3C09 => ((List.range 512).map fun p => leBytes 8 (s.wearOf p)).flatten
  | 0x3E01 => slice s.rsv.ident 0 128
  | 0x5013 => slice (s.dom key) 0 64
  | 0x5102 => s.fltLog
  | 0x5301 => s.catalog
  | 0x5302 => s.blockCounters sub
  | 0x5402 => if sub = 4 then s.snpMap else (s.snpData (s.ses n).snpSel).getD []
  | _ => if 0x2810 ≤ idx ∧ idx ≤ 0x281F then (s.ctx (16 * (sub - 1) + (idx - 0x2810))).bytes else s.dom key

end Sys2Proof.Machine
end

