-- ==== Sys2Proof/Machine/DictCheck.lean ====
section
/-! DEFINITION. The dictionary's checks (R41): which objects exist, what a request's role may do, and each object's own
states, encodings and ranges. -/

namespace Sys2Proof.Machine

/-! ### Order of the checks -/

/-- Place of a status in the order of R41. -/
def rankOf (st : Nat) : Nat :=
  match st with
  | 6 => 0
  | 1 => 1
  | 5 => 2
  | 7 => 3
  | 3 => 4
  | 2 => 5
  | 4 => 6
  | 8 => 7
  | _ => 8

/-- The first check that fails, with its reason. -/
def firstFail (l : List (Nat × Nat)) : Nat × Nat :=
  l.foldl (fun a b => if rankOf b.1 < rankOf a.1 then b else a) (stOK, rNONE)

def plainOf (st : Nat) : Nat × Nat := (st, rNONE)

def failIf (c : Bool) (st : Nat) : Nat × Nat := if c then (st, rNONE) else (stOK, rNONE)

/-! ### Values -/

/-- Bits of a data type, 0 a variable length (R30). -/
def Ty.bits : Ty → Nat
  | .bool => 8
  | .i8 => 8
  | .i16 => 16
  | .i32 => 32
  | .u8 => 8
  | .u16 => 16
  | .u32 => 32
  | .r32 => 32
  | .r64 => 64
  | .i64 => 64
  | .u64 => 64
  | _ => 0

def Ty.signed : Ty → Bool
  | .i8 => true
  | .i16 => true
  | .i32 => true
  | .i64 => true
  | _ => false

/-- Type of a description at 0x00tt:00 (R30). -/
def typeOfCode (c : Nat) : Option Ty :=
  match c with
  | 0x01 => some .bool
  | 0x02 => some .i8
  | 0x03 => some .i16
  | 0x04 => some .i32
  | 0x05 => some .u8
  | 0x06 => some .u16
  | 0x07 => some .u32
  | 0x08 => some .r32
  | 0x09 => some .str
  | 0x0A => some .oct
  | 0x0F => some .dom
  | 0x11 => some .r64
  | 0x15 => some .i64
  | 0x1B => some .u64
  | _ => none

/-- Slot contents of a value: sign- or zero-extended (R30). -/
def slotOf (t : Ty) (v : Nat) : Nat :=
  if t.signed then ofS 64 (toS t.bits v) else v % 2 ^ t.bits

/-- The bits above the object's width equal its extension (R39). -/
def extended (t : Ty) (width v : Nat) : Bool := decide (v % 2 ^ (8 * width) = slotOf t v % 2 ^ (8 * width))

/-- The value that a write of a row carries: its width's bits, less the reserved ones (R43). -/
def ObjRow.value (r : ObjRow) (v : Nat) : Nat := v % 2 ^ r.ty.bits &&& r.mask

/-- Encodings and range that the row itself gives (R43). -/
def ObjRow.judge (r : ObjRow) (v : Nat) : Nat × Nat :=
  let i : Int := if r.ty.signed then toS r.ty.bits v else (v : Int)
  match r.chk with
  | .any => (stOK, rNONE)
  | .rng lo hi => failIf (decide (i < lo) || decide (hi < i)) stRANGE
  | .mult lo hi m => failIf (decide (v < lo) || decide (hi < v) || decide ((v - lo) % m ≠ 0)) stRANGE
  | .oneOf l => failIf (!l.contains v) stRESERVED

/-- The requester's role allows the access (R31, R32). -/
def ObjRow.allows (r : ObjRow) (write : Bool) (role : Nat) : Bool :=
  match r.acc, write with
  | .ro, false => decide (r.role ≤ role)
  | .const, false => decide (r.role ≤ role)
  | .ro, true => false
  | .const, true => false
  | .wo, false => false
  | _, false => true
  | _, true => decide (r.role ≤ role)

/-! ### Objects' own checks, block by block -/

/-- Path of an SDO server of controller k (R35).
(DESIGN CHOICE, safe: log 23.) -/
def sdoPath (k : Nat) : Nat := 2 ^ 49 + k

/-- The path that a session's logins come by: an SDO server, a source MAC address, or a source IP address whatever the UDP port
(R35).
(DESIGN CHOICE, safe: log 23.) -/
def State.loginPath (s : State) (n : Nat) : Nat :=
  let src := (s.ses n).path
  if 416 ≤ n then sdoPath (n - 416) else if 2 ^ 48 ≤ src then 2 ^ 48 + (src - 2 ^ 48) / 65536 else src

/-- LOGIN (R34, R35).
(DEDUCED, unsafe: log 22.) -/
def State.loginCheck (s : State) (n v : Nat) : Nat × Nat :=
  let role := bits v 39 32
  let stored := s.ob (K.DIC_LOGIN + role)
  if n < 384 ∧ s.roleOf n ≠ 3 then (stACCESS, rNONE)
  else if 384 ≤ n ∧ (mget (fun _ => Path.init) s.dic.paths (s.loginPath n)).locked = true then (stACCESS, rLOCKOUT)
  else if role = 0 then (stOK, rNONE)
  else if 3 < role ∨ stored = 0 ∨ stored ≠ v % 2 ^ 32 then (stACCESS, rNONE)
  else (stOK, rNONE)

/-- DIC.TXN (R46, R48, R52). -/
def State.txnCheck (s : State) (n v : Nat) : Nat × Nat :=
  let st := (s.ses n).txn
  match v with
  | 1 => failIf (decide (st = .open) || decide (st = .voting) || decide (st = .pending)) stSTATE
  | 2 => failIf (decide (st ≠ .open)) stSTATE
  | 3 => failIf (decide (st = .idle) || decide (st = .done) || decide (st = .failed)) stSTATE
  | _ => (stOK, rNONE)

/-- A TSK.CFG field (R165, R173). -/
def tskCfgCheck (v : Nat) : Nat :=
  if bits v 29 28 = 3 ∨ bits v 27 26 = 3 ∨ bits v 15 14 = 3 ∨ (bit v 21 = true ∧ bits v 25 22 = 0) then stRESERVED else stOK

/-- TSK.TRIGGER (R148). -/
def triggerCheck (v : Nat) : Nat :=
  let n := v % 256
  match v / 256 with
  | 0 => if n = 0 then stOK else stRANGE
  | 1 => if n < 16 then stOK else stRANGE
  | 2 => stOK
  | 3 => if n % 64 < 34 then stOK else stRANGE
  | 4 => if n < 32 then stOK else stRANGE
  | 5 => if n < 2 then stOK else stRANGE
  | 6 => stOK
  | _ => stRESERVED

def State.taskCheck (s : State) (idx t v : Nat) : Nat × Nat :=
  if t = 0 then (stACCESS, rNONE)
  else plainOf (match idx with
    | 0x2101 => tskCfgCheck v
    | 0x2102 => if v % 65536 = 0 then stRESERVED else stOK
    | 0x2103 => triggerCheck v
    | 0x2107 => s.tskCmdCheck t v
    | _ => stOK)

/-- IMG.FORCE_CMD (R194, R203): a new force is judged against the table that the changes accepted before it will leave. -/
def State.forceCmdCheck (s : State) (n v : Nat) : Nat :=
  let x := s.ses n
  if v = 0 ∨ 4 < v then stRESERVED
  else if v = 1 then
    (let f := forceFields x.forceKey x.forceVal
     if f ≠ stOK then f else if forceClash s.forcesAfter x.forceSel x.forceKey then stRANGE else stOK)
  else stOK

/-- TMR.CTL of a Strand (R214, R224). -/
def State.tmrCtlCheck (s : State) (n v : Nat) : Nat :=
  let k := bits v 10 8
  let p := bits v 24 16
  if 4 < k ∨ bits v 2 1 = 3 then stRESERVED
  else if 0 < k ∧ (512 < p + k ∨ s.strands.any (fun m => decide (m ≠ n) && decide (0 < s.retBlocks m) &&
      rangesMeet p k (s.retBase m) (s.retBlocks m))) then stRANGE
  else stOK

/-- RED.CFG: reserved codes of MODE, PREF and DIV_POL, and BW_WIRED without a Breakwater (R342, R362). -/
def State.redCfgCheck (s : State) (v : Nat) : Nat :=
  if bits v 11 10 = 3 ∨ bits v 8 7 = 3 ∨ bits v 6 5 = 3 ∨ (bit v 3 = true ∧ s.bwFitted = false) then stRESERVED else stOK

/-- An object that MBC takes only in CONFIG (R387). -/
def State.inConfig (s : State) (k : Nat) (st : Nat) : Nat := if (s.mb k).mode = .config then st else stSTATE

def State.mbcCheck (s : State) (idx k v : Nat) : Nat :=
  match idx with
  | 0x3801 => s.mbCmdCheck k v
  | 0x3802 => s.mbCfgCheck k v
  | 0x3803 => s.inConfig k (if nbtOk v then stOK else stRANGE)
  | 0x3804 => s.inConfig k (if dbtOk v then stOK else stRANGE)
  | 0x380A => s.popCheck k v
  | 0x3823 => s.txReqCheck k v
  | 0x3824 => s.txCancelCheck k v
  | 0x3830 => sdoCfgCheck v
  | _ => stOK

/-- DMA: channels 0–7 take no write (R408). -/
def State.dmaCheck (s : State) (idx k v : Nat) : Nat :=
  if idx < 0x3A10 ∧ k < 8 then stACCESS
  else match idx with
    | 0x3A01 => s.dmaCmdCheck k v
    | 0x3A02 => s.dmaProgCheck k v
    | _ => stOK

def State.bdrCheck (s : State) (n idx sub v : Nat) : Nat × Nat :=
  match idx, sub with
  | 0x3C01, 1 => s.bdrTxnCheck n v
  | 0x3C02, r => plainOf (s.regionRange (r - 1) v)
  | 0x3C05, 1 => s.unlockCheck v
  | 0x3C06, r => plainOf (s.descRange (r - 1) v)
  | _, _ => (stOK, rNONE)

/-- The backup domain's objects (R454, R457, R463, R467). -/
def State.calCheck (s : State) (idx sub v : Nat) : Nat :=
  match idx, sub with
  | 0x3D01, 2 => if v = 0x8000 then stRANGE else if s.cal.shifting then stBUSY else stOK
  | 0x3D02, 1 => if dateOk v then stOK else stRANGE
  | 0x3D02, 2 => if v ≤ calMax then stOK else stRANGE
  | 0x3E00, 2 => s.rsvCmdCheck v
  | 0x3E03, 1 => if bits v 31 16 ≤ 8760 ∧ 1 ≤ bits v 15 0 ∧ bits v 15 0 ≤ 100 then stOK else stRANGE
  | _, _ => stOK

/-- Watchdogs and check-in (R471, R474, R480). -/
def State.wdgCheck (s : State) (n idx sub v : Nat) : Nat × Nat :=
  let k := sub - 1
  match idx with
  | 0x5000 => firstFail [failIf (s.wdgCfgState k false v) stSTATE, plainOf (wdgCfgValue k false v)]
  | 0x5001 => firstFail [failIf (s.wdgCfgState k true v) stSTATE, plainOf (wdgCfgValue k true v)]
  | 0x5002 => firstFail [failIf (!wdgKeyFrom n k) stACCESS, failIf (!s.wdgEn k) stSTATE]
  | 0x5010 => failIf (decide (v ≠ 0) && (decide (v < 100) || decide (100000000 < v))) stRANGE
  | _ => (stOK, rNONE)

def State.obsCheck (s : State) (idx sub v : Nat) : Nat :=
  match idx, sub with
  | 0x5104, 1 => fltRaiseCheck v
  | 0x5200, 2 => if v = 1 ∧ s.sta.frozen = true then stBUSY else stOK
  | 0x5203, _ => if v % 65536 = 0 then stRANGE else stOK
  | 0x5300, 1 => if s.eventOf v = [] then stRANGE else stOK
  | 0x5303, _ => thrCfgCheck v
  | 0x5505, 1 => s.testReqCheck v
  | _, _ => stOK

def State.hnwCheck (s : State) (idx sub v : Nat) : Nat :=
  match idx, sub with
  | 0x3001, p => s.portCfgCheck (p - 1) v
  | 0x3002, 1 => if v < s.ob K.TDS_IN_DEADLINE then stOK else stRANGE
  | 0x3004, 1 => s.hnwCmdCheck
  | _, _ => stOK

/-- Network time (R302, R305, R306, R326). -/
def State.ntmCheck (s : State) (idx sub v : Nat) : Nat :=
  match idx, sub with
  | 0x3201, 1 => if 0x3FF7CED92 ≤ v ∧ v ≤ 0x40083126E then stOK else stRANGE
  | 0x3201, 2 => if s.offsetOk v then stOK else stRANGE
  | 0x3201, 3 => if s.tideStopped then stOK else stSTATE
  | 0x320A, p => s.gclCfgCheck (p - 1) v
  | 0x320B, p => if (s.gate (p - 1)).pending then stSTATE else stOK
  | 0x320C, p => if (s.gate (p - 1)).pending then stSTATE else stOK
  | _, _ => stOK

def State.fioCheck (s : State) (idx sub v : Nat) : Nat :=
  match idx, sub with
  | 0x3600, 2 => if v = 2 ∧ s.inPair = true ∧ s.red.grant = false then stSTATE else stOK
  | 0x3601, 3 => s.parallelCheck v
  | 0x3601, 4 => if s.inClash v then stRANGE else stOK
  | 0x3601, 5 => if s.outClash v then stRANGE else stOK
  | 0x3602, _ => inCfgCheck v
  | 0x3603, n => s.outChCheck (n - 1) v
  | _, _ => stOK

def State.hstCheck (s : State) (idx sub v : Nat) : Nat :=
  let n := idx - 0x4000
  match sub with
  | 1 => s.hstCfgCheck n v
  | 2 => s.hstSegCheck (K.HST_IN n) n v
  | 3 => s.hstSegCheck (K.HST_OUT n) n v
  | _ => stOK

/-- STR.CFG (R260). -/
def strCfgCheck (v : Nat) : Nat := if bits v 15 12 = 0 then stRESERVED else if bits v 31 16 < 60 then stRANGE else stOK

def State.tideCheck (s : State) (idx sub v : Nat) : Nat :=
  match idx, sub with
  | 0x2000, 2 => s.tdsCmdCheck v
  | 0x2001, 2 => if v < s.tideP then stOK else stRANGE
  | _, _ => stOK

def State.pwrCheck (s : State) (idx sub v : Nat) : Nat :=
  match idx, sub with
  | 0x1200, 2 => if v = 2 ∧ s.sleepOk = false then stSTATE else stOK
  | 0x1202, d => s.domCmdCheck d v
  | _, _ => stOK

/-- An object's own checks of a value without its reserved bits. -/
def State.ownCheck (s : State) (n key v : Nat) : Nat × Nat :=
  let idx := key / 256
  let sub := key % 256
  match idx / 256 with
  | 0x11 => if key = K.DIC_LOGIN then s.loginCheck n v else if key = K.DIC_TXN then s.txnCheck n v else (stOK, rNONE)
  | 0x12 => plainOf (s.pwrCheck idx sub v)
  | 0x13 => plainOf (if key = K.STR_CFG then strCfgCheck v else stOK)
  | 0x20 => plainOf (s.tideCheck idx sub v)
  | 0x21 => s.taskCheck idx sub v
  | 0x22 => plainOf (if key = K.IMG_FORCE_CMD then s.forceCmdCheck n v else stOK)
  | 0x23 => plainOf (if idx = 0x2300 then s.tmrCtlCheck sub v else stOK)
  | 0x24 => plainOf (if key = K.OLC_CMD then (s.olcCmdCheck v).1 else stOK)
  | 0x30 => plainOf (s.hnwCheck idx sub v)
  | 0x32 => plainOf (s.ntmCheck idx sub v)
  | 0x34 => plainOf (if key = K.RED_CMD then s.redCmdCheck v else if key = K.RED_CFG then s.redCfgCheck v else stOK)
  | 0x36 => plainOf (s.fioCheck idx sub v)
  | 0x38 => plainOf (s.mbcCheck idx (sub - 1) v)
  | 0x3A => plainOf (s.dmaCheck idx (sub - 1) v)
  | 0x3C => s.bdrCheck n idx sub v
  | 0x3D => plainOf (s.calCheck idx sub v)
  | 0x3E => plainOf (s.calCheck idx sub v)
  | 0x50 => s.wdgCheck n idx sub v
  | 0x51 => plainOf (s.obsCheck idx sub v)
  | 0x52 => plainOf (s.obsCheck idx sub v)
  | 0x53 => plainOf (s.obsCheck idx sub v)
  | 0x55 => plainOf (s.obsCheck idx sub v)
  | _ => plainOf (if 0x4000 ≤ idx ∧ idx ≤ 0x4FFF then s.hstCheck idx sub v else stOK)

/-! ### Transactions that hold objects (R563) -/

/-- The range of the first object depends on the second (R140, R150, R194, R214, R280, R305, R382, R384, R563). -/
def rangeOn (a b : Nat) : Bool :=
  let ai := a / 256
  let bi := b / 256
  if a = K.TDS_OFFSET then decide (b = K.TDS_PERIOD)
  else if a = K.HNW_EBB_LAUNCH then decide (b = K.TDS_IN_DEADLINE)
  else if a = K.NTM_OFFSET then decide (b = K.NTM_JUMP_LIMIT)
  else if a = K.IMG_FORCE_CMD then decide (b = K.IMG_FORCES) || decide (b = K.IMG_FORCE_CMD)
  else if a = K.TDS_CMD then decide (bi / 256 = 0x20) || decide (bi / 256 = 0x21)
  else if a = K.FIO_IN_AT then
    (decide (0x4000 ≤ bi) && decide (bi ≤ 0x4FFF)) || decide (b = K.HNW_CFG) || decide (b = K.HNW_VALID_AT)
  else if a = K.FIO_OUT_AT then decide (0x4000 ≤ bi) && decide (bi ≤ 0x4FFF)
  else if ai = 0x2300 then decide (bi = 0x2300)
  else if a = K.FIO_PARALLEL then decide (bi = 0x3603)
  else if ai = 0x3603 then decide (b = K.FIO_PARALLEL) || decide (bi = 0x3603)
  else if ai = 0x3C02 then decide (bi = 0x3C02)
  else if ai = 0x3C06 then decide (bi = 0x3C06)
  else if 0x4000 ≤ ai ∧ ai ≤ 0x4FFF then
    (decide (0x4000 ≤ bi) && decide (bi ≤ 0x4FFF)) || decide (b = K.HNW_VLAN) || decide (bi = 0x3001)
  else false

/-- A die that voted yes and has not applied holds the object for another session (R563). -/
def Ses.holds (x : Ses) (key : Nat) : Bool :=
  (decide (x.txn = .voting) || decide (x.txn = .pending)) &&
    x.staged.any fun w => x.yes.contains (dieOf w.key) && !x.applied.contains (dieOf w.key) &&
      (decide (w.key = key) || rangeOn w.key key)

def State.heldFor (s : State) (n key : Nat) : Bool := s.sess.any fun e => decide (e.1 ≠ n) && e.2.holds key

/-! ### The request (R41) -/

/-- Refused on the standby while the pair runs: RW objects of TDS, TSK, IMG and TMR, TDS.CMD, TSK.CMD and force changes
(R340). -/
def State.standbyKeeps (s : State) (r : ObjRow) (key v : Nat) : Bool :=
  decide (s.red.role = .standby) && replicatedKey key &&
    (decide (r.acc = .rw) || decide (key = K.TDS_CMD) || decide (key / 256 = 0x2107) ||
      (decide (key = K.IMG_FORCE_CMD) && decide (v ≠ 3)))

/-- The domain transfer that an aperture access or DOM_CLOSE needs (R55). -/
def State.xferCheck (s : State) (n key : Nat) (write : Bool) : Nat × Nat :=
  let x := (s.ses n).dom
  if key / 256 = 0x1180 then
    failIf (match x with | some d => d.write != write | none => true) stSTATE
  else if key = K.DIC_DOM_CLOSE then failIf x.isNone stSTATE
  else (stOK, rNONE)

/-- Objects of domain transfers, which an open transaction cannot stage (R46). -/
def isDomObj (key : Nat) : Bool := decide (key / 256 = 0x1103) || decide (key / 256 = 0x1180)

/-- Status and reason of a write of a value of width bytes. -/
def State.writeCheck (s : State) (n key width v : Nat) : Nat × Nat :=
  match s.rowOf key with
  | none => (stNOOBJ, rNONE)
  | some r =>
    let u := v % 2 ^ r.ty.bits
    let w := r.value v
    let txn := (s.ses n).txn = .open
    firstFail [
      failIf (!r.allows true (s.roleOf n) || (decide txn && isDomObj key)) stACCESS,
      failIf (!s.domOn (blockDomain key) || (decide (r.acc = .rws) && !s.tideStopped) || s.standbyKeeps r key w) stSTATE,
      s.xferCheck n key true,
      failIf (decide (r.ty.bits = 0) || decide (8 * width < r.ty.bits)) stTYPE,
      failIf (decide (r.ty = .bool) && decide (1 < u)) stRESERVED,
      failIf (!extended r.ty width v) stRANGE,
      r.judge w,
      s.ownCheck n key w,
      failIf (s.heldFor n key) stBUSY,
      if txn ∧ key ≠ K.DIC_TXN ∧ 64 ≤ (s.ses n).staged.length then (stBUSY, rSTAGE_FULL) else (stOK, rNONE)]

/-- A counter of a block cannot be read: its domain is off (R494). -/
def State.countersOff (s : State) (bb : Nat) : Bool :=
  (!([0x23, 0x28, 0x50].contains bb) && !s.domOn (blockDomain (bb * 65536))) ||
    (s.counterRows bb true).flatten.any fun k => !s.domOn (blockDomain k)

/-- An object's domain is off; PMC.BLOCK of a block is an object of the domain that keeps the block's counters (R10, R11, R494). -/
def State.keyOff (s : State) (key : Nat) : Bool :=
  !s.domOn (blockDomain key) || (decide (key / 256 = 0x5302) && s.countersOff (key % 256))

/-- Domain of the counter that PMC.SEL names is off: PMC.VALUE is an object of that block's domain (R10, R11). -/
def State.pmcCheck (s : State) (n key : Nat) : Nat × Nat :=
  if key = K.PMC_VALUE then
    failIf ((s.eventOf (s.ses n).pmcSel).any fun k => !s.domOn (blockDomain k)) stSTATE
  else (stOK, rNONE)

/-- Status and reason of a read. An object of a die whose link is DOWN is served as with the link up, as a write of it is: R15
gives such a request no status, and only the domain is asked.
(DESIGN CHOICE, unsafe: log 112.) -/
def State.readCheck (s : State) (n key : Nat) : Nat × Nat :=
  match s.rowOf key with
  | none => (stNOOBJ, rNONE)
  | some r =>
    firstFail [
      failIf (!r.allows false (s.roleOf n)) stACCESS,
      failIf (!s.domOn (blockDomain key)) stSTATE,
      s.pmcCheck n key,
      s.xferCheck n key false,
      failIf (decide (r.ty.bits = 0)) stTYPE]

/-- Status of DIC.DOM_OPEN, or of a service transfer, for the object it names (R41, R55). -/
def State.domCheck (s : State) (n key : Nat) (write : Bool) : Nat × Nat :=
  match s.rowOf key with
  | none => (stNOOBJ, rNONE)
  | some r =>
    firstFail [
      failIf (!r.allows write (s.roleOf n) || (write && decide (key / 65536 = 0x21) && decide (key % 256 = 0)) ||
        decide ((s.ses n).txn = .open)) stACCESS,
      failIf (s.keyOff key || (write && decide (r.acc = .rws) && !s.tideStopped) ||
        (write && s.standbyKeeps r key 0)) stSTATE,
      failIf (decide (key = K.OLC_IMAGE) && decide (s.olc.st ≠ .loading)) stSTATE,
      failIf (decide (r.ty.bits ≠ 0)) stTYPE,
      failIf (write && s.heldFor n key) stBUSY]

end Sys2Proof.Machine
end

