-- ==== Sys2Proof/Machine/ReplyOps.lean ====
section
/-! DEFINITION. How a request's outcome leaves on the path it came by: the response of a service frame (R287, R288), and
the response or abort of an SDO server (R42, R400, R401). -/

namespace Sys2Proof.Machine

def State.modSes (s : State) (n : Nat) (f : Ses → Ses) : State := s.setSes n (f (s.ses n))

/-! ### Service frames -/

/-- The body of the response to a request to the controller: its fields, the status, the reason and the data (R287). -/
def Svc.rspBytes (q : Svc) (num st reason : Nat) (data : List Byte) : List Byte :=
  svcBytes 0x8000 num q.op q.tag st reason q.key q.off (rspData q.op st data)

/-- The body of a response of a session, with the status and reason of its DIC.RESULT (R287).
(DEDUCED, unsafe: log 80.) -/
def State.svcBody (s : State) (n : Nat) (q : Svc) (data : List Byte) : List Byte :=
  let r := (s.ses n).result
  q.rspBytes (n - 384) (r % 256) (bits r 23 16) data

/-- The response to a session's request, kept as its last response (R288). -/
def State.svcSend (s : State) (n : Nat) (q : Svc) (data : List Byte) : State :=
  let b := s.svcBody n q data
  (s.modSes n fun x => { x with rsp := b }).svcFrame q.port q.peer q.tag b

/-- The due response to a request for an object leaves. -/
def State.svcDone (s : State) (n key : Nat) (data : List Byte) : State :=
  match (s.ses n).due.find? fun q => decide (q.key = key) with
  | none => s
  | some q => (s.modSes n fun x => { x with due := x.due.erase q }).svcSend n q data

/-! ### SDO (CiA 301) -/

/-- Base abort code of a status (R42). -/
def abortBase (st : Nat) : Nat :=
  match st with
  | 1 => 0x06010000
  | 2 => 0x06090030
  | 3 => 0x08000000
  | 4 => 0x08000021
  | 5 => 0x08000022
  | 6 => 0x06020000
  | 7 => 0x06070010
  | _ => 0x08000020

/-- RANGE of a value beside the limits of its range (R42). -/
def abortOutside (lo hi i : Int) : Nat := if hi < i then 0x06090031 else if i < lo then 0x06090032 else abortBase stRANGE

/-- The limits of a value that another rule or another object gives (R137, R274, R302, R305, R457, R477). -/
def State.limitsOf (s : State) (key : Nat) : Option (Int × Int) :=
  if key = K.NTM_INCR then some (0x3FF7CED92, 0x40083126E)
  else if key = K.NTM_OFFSET then some (-(s.ob K.NTM_JUMP_LIMIT : Int), (s.ob K.NTM_JUMP_LIMIT : Int))
  else if key / 256 = 0x5010 then some (100, 100000000)
  else if key = K.CAL_CONV_TICKS then some (0, (calMax : Int))
  else if key = K.CAL_SHIFT then some (-32767, 32767)
  else if key = K.TDS_OFFSET then some (0, (s.tideP : Int) - 1)
  else if key = K.HNW_EBB_LAUNCH then some (0, (s.ob K.TDS_IN_DEADLINE : Int) - 1)
  else none

/-- The highest number of a trigger class (R148). -/
def triggerTop (cls : Nat) : Nat :=
  match cls with
  | 0 => 0
  | 1 => 15
  | 4 => 31
  | 5 => 1
  | _ => 255

/-- The fields of a value that have limits of their own, each with its limits (R148, R260, R282, R330, R369, R403, R406, R448,
R449, R463, R472, R480, R485, R517). -/
def fieldLimits (key v : Nat) : List (Nat × Nat × Nat) :=
  let idx := key / 256
  match idx with
  | 0x1301 => if key = K.STR_CFG then [(bits v 31 16, 60, 65535)] else []
  | 0x2103 => [(v % 256, 0, triggerTop (v / 256))]
  | 0x320A => [(bits v 24 16, 0, 256)]
  | 0x3602 => [(bits v 15 0, 2, 16000)]
  | 0x3803 => [(bits v 31 24, 1, 255), (bits v 23 15, 5, 385), (bits v 14 6, 3, 383), (bits v 5 0, 1, 63)]
  | 0x3804 => [(bits v 31 27, 1, 31), (bits v 26 21, 5, 63), (bits v 20 15, 3, 61), (bits v 14 11, 1, 15)]
  | 0x3830 => [(bits v 31 16, 10, 60000)]
  | 0x3C02 => [(bits v 24 16, 0, 447)]
  | 0x3C06 => [(descWords v, 1, 1020)]
  | 0x3E03 => [(bits v 31 16, 0, 8760), (bits v 15 0, 1, 100)]
  | 0x5001 => [(bits v 63 32, 10, 10000000), (bits v 31 0, 0, bits v 63 32 - 1)]
  | 0x5104 => [(bits v 39 32, 0xF0, 0xFF)]
  | 0x5203 => [(v % 65536, 1, 65535)]
  | _ => if 0x4000 ≤ idx ∧ idx ≤ 0x4FFF ∧ (key % 256 = 2 ∨ key % 256 = 3) then [(segLen v, 0, 1024)] else []

/-- Abort code of a refused access, refined where R42 refines it. -/
def State.abortCode (s : State) (key : Nat) (write : Bool) (v st : Nat) : Nat :=
  match s.rowOf key with
  | none =>
    if st = stNOOBJ ∧ ((blockRows (key / 65536)).any (fun r => decide (r.ilo ≤ key / 256) && decide (key / 256 ≤ r.ihi) &&
        (List.range 256).any fun i => (s.rowOf (key / 256 * 256 + i)).isSome) || (typeOfCode (key / 256)).isSome) then 0x06090011
    else abortBase st
  | some r =>
    if st = stACCESS ∧ write = false ∧ r.acc = .wo then 0x06010001
    else if st = stACCESS ∧ write = true ∧ (r.acc = .ro ∨ r.acc = .const) then 0x06010002
    else if st = stRANGE ∧ write = true then
      (let i : Int := if r.ty.signed then toS r.ty.bits v else (v : Int)
       let own : Option (Int × Int) := match r.chk with
         | .rng lo hi => some (lo, hi)
         | .mult lo hi _ => some ((lo : Int), (hi : Int))
         | _ => none
       ((((own.toList ++ (s.limitsOf key).toList).map fun l => abortOutside l.1 l.2 i) ++
         (fieldLimits key v).map fun f => abortOutside f.2.1 f.2.2 f.1).find? fun c =>
         decide (c ≠ abortBase stRANGE)).getD (abortBase stRANGE))
    else abortBase st

/-- A response of the SDO server of controller k waits in its slot (R400). -/
def State.sdoSend (s : State) (k : Nat) (d : List Byte) : State := s.modMb k fun m => { m with rsp := m.rsp ++ [slice d 0 8] }

/-- Index and subindex as an SDO frame carries them. -/
def sdoMux (key : Nat) : List Byte := leBytes 2 (key / 256) ++ leBytes 1 key

def State.sdoAbort (s : State) (k key code : Nat) : State :=
  (s.modMb k fun m => { m with sdo := none, sdoWait := none }).sdoSend k ([0x80] ++ sdoMux key ++ leBytes 4 code)

/-- The response to an initiate download that is accepted. -/
def sdoDownAck (key : Nat) : List Byte := [0x60] ++ sdoMux key

/-- The start of an upload: up to four bytes expedited, more as a segmented transfer. -/
def State.sdoUp (s : State) (k key : Nat) (data : List Byte) : State :=
  if 1 ≤ data.length ∧ data.length ≤ 4 then
    s.sdoSend k (leBytes 1 (0x43 + 4 * (4 - data.length)) ++ sdoMux key ++ data)
  else
    (s.modMb k fun m => { m with
      sdo := some { key := key, down := false, toggle := false, data := data }
      sdoAt := s.ntm.mono }).sdoSend k ([0x41] ++ sdoMux key ++ leBytes 4 data.length)

/-- The answer that an SDO server waits for has come. -/
def State.sdoDone (s : State) (n key : Nat) (data : List Byte) : State :=
  let k := n - 416
  match (s.mb k).sdoWait with
  | none => s
  | some (q, ack) =>
    if q ≠ key then s
    else
      let st := (s.ses n).result % 256
      let s := s.modMb k fun m => { m with sdoWait := none }
      if st ≠ stOK then s.sdoAbort k key (abortBase st)
      else match ack with
        | some b => s.sdoSend k b
        | none => s.sdoUp k key data

/-- A request's outcome is known: the response leaves where the path has one due (R48). -/
def State.reply (s : State) (n key : Nat) (data : List Byte) : State :=
  if n < 384 then s else if n < 416 then s.svcDone n key data else s.sdoDone n key data

/-- The votes of an OLC.CMD PREPARE are in: its session's response leaves. -/
def State.olcReply (s : State) : State :=
  s.each (s.sess.map Prod.fst) fun s n => if s.olc.asker = some n then s else s.reply n K.OLC_CMD []

end Sys2Proof.Machine
end

