-- ==== Sys2Proof/Machine/DictApply.lean ====
section
/-! DEFINITION. What an accepted write of a dictionary object does, and what the close of a domain transfer writes. -/

namespace Sys2Proof.Machine

/-! ### Writes -/

/-- The value is stored; a retained object's Bedrock record follows (R44). -/
def State.store (s : State) (key v : Nat) : State := (s.setOb key v).retain key

/-- Accepted writes go to the standby too (R340). -/
def State.replicates (s : State) : Bool := decide (s.red.role = .active) && s.peerStandby

/-- A write of a pair is sent to the standby and takes effect at the next flood start; in a stopped tide, which has none,
at once (R340). -/
def State.replSend (s : State) (m : Repl) (f : State → State) : State :=
  let s := s.setRed fun r => { r with replSent := r.replSent ++ [m] }
  if s.tideStopped then f s else s.setRed fun r => { r with repl := r.repl ++ [m] }

/-- An accepted force change (R196, R340).
(DEDUCED, safe: log 36.) -/
def State.forceReq (s : State) (c : FChange) : State :=
  if s.replicates then s.replSend (.force c) fun s => s.forceChange c else s.forceChange c

/-- IMG.FORCE_CMD (R203). -/
def State.forceCmd (s : State) (n v : Nat) : State :=
  let x := s.ses n
  match v with
  | 1 => s.forceReq (.set x.forceSel x.forceKey x.forceVal)
  | 2 => s.forceReq (.clear x.forceSel)
  | 3 => s.modSes n fun x => { x with
      forceKey := (s.force x.forceSel).key
      forceVal := (s.force x.forceSel).val }
  | _ => s.forceReq .clearAll

/-- CPU.CTL: clearing DCE or BCE invalidates that cache (R102). -/
def State.cpuCtl (s : State) (c v : Nat) : State :=
  let k := s.core c
  (s.setOb (K.CPU_CTL (c + 1)) v).setCore c { k with
    dcache := if bit v 0 then k.dcache else []
    bcache := if bit v 1 then k.bcache else [] }

def State.tdsCmd (s : State) (v : Nat) : State :=
  match v with
  | 1 => s.tideStart.fioOverlap
  | 2 => s.tideStop
  | 3 => s.tideHalt
  | _ => s.tideClear

def State.pwrCmd (s : State) (v : Nat) : State := if v = 1 then s.packageReset 3 else s.sleep

/-- CAL.SHIFT (R457). -/
def State.calShift (s : State) (v : Nat) : State :=
  if v = 0 then s else s.setCal fun c => { c with shift := toS 16 v, shiftPhase := 0, cut := false }

/-- CAL.CMD (R460). -/
def State.calCmd (s : State) (v : Nat) : State :=
  if v = 1 then s.setCal Cal.assert else s.setCal fun c => { c with offReq := true, supKept := false }

def State.mbcCmd (s : State) (k v : Nat) : State :=
  match v with
  | 1 => s.modMb k fun m => { m with starting := true }
  | 2 => s.mbStopCmd k
  | 3 => s.modMb k fun m => { m with mode := .recovering }
  | _ => s.modMb k Mbc.unlock

/-- A field-side item is stored and sent over C0 (R367). -/
def State.fioStore (s : State) (key v : Nat) : State :=
  let s := s.store key v
  match fioItems.find? fun i => decide (fioItemKey i = key) with
  | some i => s.fioSend i
  | none => s

def State.applyNtm (s : State) (idx sub key v : Nat) : State :=
  match idx, sub with
  | 0x3201, 2 => s.offsetApply v
  | 0x3201, 3 => s.offsetApply v
  | 0x3201, 6 => let s := s.setOb key v; if v = 1 then s.timeLocked else s
  | 0x320A, p => s.gclCfgApply (p - 1) v
  | _, _ => s.store key v

def State.applyMbc (s : State) (idx k key v : Nat) : State :=
  match idx with
  | 0x3801 => s.mbcCmd k v
  | 0x380A => s.pop k v
  | 0x3823 => s.txReq k v
  | 0x3824 => s.txCancel k v
  | _ => s.store key v

def State.applyBdr (s : State) (n idx sub key v : Nat) : State :=
  match idx, sub with
  | 0x3C01, 1 => s.bdrTxn n v
  | 0x3C05, 1 => s.unlock n v
  | 0x3C05, 2 => s.lockRegions n v
  | 0x3C07, 1 => s.modSes n fun x => { x with recSel := v }
  | _, _ => s.store key v

def State.applyCal (s : State) (n idx sub key v : Nat) : State :=
  match idx, sub with
  | 0x3D00, 2 => s.calCmd v
  | 0x3D01, 1 => s.setCal fun c => { c with wr := some v }
  | 0x3D01, 2 => s.calShift v
  | 0x3D02, 1 =>
    let t := (dateTicks v).toNat
    s.modSes n fun x => { x with convDate := ticksDate t, convTicks := t }
  | 0x3D02, 2 => s.modSes n fun x => { x with convDate := ticksDate v, convTicks := v }
  | 0x3D04, _ => s.setOb key (alarmCtlWrite (s.ob key) v)
  | 0x3E00, 2 => if v = 1 then s.rsvTestStart else s.rsvReadId true
  | _, _ => s.store key v

/-- Supervision and observation objects (R471, R477, R491, R505–R507, R514). -/
def State.applyObs (s : State) (n idx sub key v : Nat) : State :=
  match idx, sub with
  | 0x5000, k => s.wdgCfgApply (k - 1) false v
  | 0x5001, k => s.wdgCfgApply (k - 1) true v
  | 0x5002, k => s.wdgKey (k - 1) v
  | 0x5010, t => s.chkPeriodSet t v
  | 0x5100, 2 => if v = 1 then s.clearOut else s.fltFlush
  | 0x5104, 1 => s.fltRaise v
  | 0x5110, c => s.store key (policyValue c v)
  | 0x5200, 2 => if v = 1 then s.strataFreeze else s.strataThaw
  | 0x5201, 1 => s.modSes n fun x => { x with cursor := v }
  | 0x5204, 1 => s.modSes n fun x => { x with raiseClass := v }
  | 0x5204, 2 => s.sample (0x600 + (s.ses n).raiseClass) 0 (toS 64 v)
  | 0x5300, 1 => s.modSes n fun x => { x with pmcSel := v }
  | 0x5305, 1 => s.bwWindow v
  | 0x5400, 2 => if v = 1 then s.tidemark 2 0 0 else if v = 2 then s.snpRelease n else s.snpReleaseAll
  | 0x5402, 2 => s.modSes n fun x => { x with snpSel := v }
  | 0x5505, 1 => s.testStart v
  | _, _ => s.store key v

/-- Objects of the tide, tasks, image and online change (R145, R166, R202, R203, R234).
(DEDUCED, safe: log 36.) -/
def State.applyTide (s : State) (n idx sub key v : Nat) : State :=
  match idx, sub with
  | 0x2000, 2 => s.tdsCmd v
  | 0x2107, t => s.tskCmd t v
  | 0x2200, 1 => s.forceReq (.enable (bit v 0))
  | 0x2202, 1 => s.modSes n fun x => { x with forceSel := v }
  | 0x2202, 2 => s.modSes n fun x => { x with forceKey := v }
  | 0x2202, 3 => s.modSes n fun x => { x with forceVal := v }
  | 0x2202, 4 => s.forceCmd n v
  | 0x2400, 2 => s.olcCmd n v
  | 0x2801, c => s.cpuCtl (c - 1) v
  | _, _ => s.store key v

/-- Other objects of the network, the pair and the field I/O; a station taken out of the table reads ABSENT (R284), and
AUTO_RECONF configures those that have returned (R286). -/
def State.applyNet (s : State) (idx sub key v : Nat) : State :=
  match idx, sub with
  | 0x3002, 3 => (s.store key v).autoConf
  | 0x3004, 1 => if v = 1 then s.scanStart else s.configureStart
  | 0x3400, 2 => s.redCmd v
  | 0x3401, 1 => (s.store key v).maybeResync
  | 0x3401, 3 => (s.store key v).drillArm
  | 0x3602, n => (s.store key v).runsAnew [n - 1]
  | 0x3600, 2 => if v = 1 then s.fioPark else if v = 2 then s.fioRecover else s.fioClearOvl
  | _, _ =>
    if 0x4000 ≤ idx ∧ idx ≤ 0x4FFF ∧ sub = 5 then (s.store key v).modStn (idx - 0x4000) fun x => { x with expectNew := true }
    else if 0x4000 ≤ idx ∧ idx ≤ 0x4FFF ∧ sub = 1 then
      (s.store key v).modStn (idx - 0x4000) fun x => if stEn v then x else Sta.init
    else if idx / 256 = 0x36 then s.fioStore key v
    else s.store key v

/-- The effect of an accepted write; v has no reserved bit set. -/
def State.applyOb (s : State) (n key v : Nat) : State :=
  let idx := key / 256
  let sub := key % 256
  match idx / 256 with
  | 0x11 =>
    if key = K.DIC_LOGIN then (if 384 ≤ n then s.modSes n fun x => { x with role := bits v 39 32 } else s)
    else if key = K.DIC_DOM_OFFSET then s.modSes n fun x => { x with domOff := v }
    else s.store key v
  | 0x12 => if key = K.PWR_CMD then s.pwrCmd v else if idx = 0x1202 then s.domCmd sub v else s.store key v
  | 0x13 => if key = K.STR_CMD then s.strCmd v else s.store key v
  | 0x20 => s.applyTide n idx sub key v
  | 0x21 => s.applyTide n idx sub key v
  | 0x22 => s.applyTide n idx sub key v
  | 0x24 => s.applyTide n idx sub key v
  | 0x28 => s.applyTide n idx sub key v
  | 0x32 => s.applyNtm idx sub key v
  | 0x38 => s.applyMbc idx (sub - 1) key v
  | 0x3A =>
    if idx = 0x3A01 then s.dmaCmd (sub - 1) n v
    else if key = K.DMA_EVENT_SET then s.each (bitList 32 v) State.dmaEvent
    else s.store key v
  | 0x3C => s.applyBdr n idx sub key v
  | 0x3D => s.applyCal n idx sub key v
  | 0x3E => s.applyCal n idx sub key v
  | 0x50 => s.applyObs n idx sub key v
  | 0x51 => s.applyObs n idx sub key v
  | 0x52 => s.applyObs n idx sub key v
  | 0x53 => s.applyObs n idx sub key v
  | 0x54 => s.applyObs n idx sub key v
  | 0x55 => s.applyObs n idx sub key v
  | _ => s.applyNet idx sub key v

/-! ### Refusals that leave something behind -/

/-- A failed login on a path (R35).
(DESIGN CHOICE, unsafe: log 89.) -/
def State.loginFail (s : State) (n : Nat) : State :=
  if n < 384 then s
  else
    let path := s.loginPath n
    let p := s.pathFail (mget (fun _ => Path.init) s.dic.paths path)
    let s := s.incOb K.DIC_LOGIN_FAILS
    let s := { s with dic := { s.dic with paths := mput (fun _ => Path.init) s.dic.paths path p } }
    s.when p.locked fun s => s.raise 0x08 (b2n (decide (416 ≤ n))) (b2n (decide (416 ≤ n))) 0 0 path

/-- What a write refused by the object's own check leaves, with that check's status. -/
def State.refusedNote (s : State) (n key v st reason : Nat) : State :=
  if key = K.DIC_LOGIN then (if reason = rLOCKOUT then s else s.loginFail n)
  else if key = K.TDS_CMD ∧ v = 1 ∧ st = stRANGE then s.setOb K.TDS_START_ERR s.startCheck
  else if key = K.NTM_OFFSET then s.offsetRefused v
  else if key = K.OLC_CMD then s.olcRefused v
  else if key / 256 = 0x1202 ∧ v = 2 then s.offRefused (key % 256)
  else if key = K.BDR_UNLOCK then s.unlockFail v
  else if key = K.BDR_TXN ∧ st = stCOMMIT then s.bdrTxnLost
  else if key = K.HLT_TEST_REQ ∧ st = stBUSY then s.testRefused v
  else s

/-! ### Closes of write transfers (R56) -/

/-- The bytes of a transfer with no gap, from byte 0 on. -/
def whole (m : SMap (Option Byte)) : Option (List Byte) :=
  if (m.zipIdx.all fun e => decide (e.1.1 = e.2)) then some (m.map fun e => e.2.getD 0) else none

/-- Length limits of an object (R56). -/
def Len.fits : Len → Nat → Bool
  | .none, _ => true
  | .fixed n, k => decide (k = n)
  | .upto m u, k => decide (k ≤ m) && decide (k % u = 0)

/-- The 8-byte entries of TSK.LISTS. -/
def listWords (b : List Byte) : List Nat := (List.range (b.length / 8)).map fun j => leAt b (8 * j) 8

/-- A section's run of output entries names area I (R153). -/
def State.outNamesI (s : State) (t : Nat) (e : List Nat) : Bool :=
  ((List.range (Nat.min (s.secHeld t) (s.tskNsec t))).flatMap fun i =>
    let x := s.secEntry t i
    (List.range x.outCount).map fun j => x.outFirst + j).any fun j => decide (j < e.length) && decide (bits (e.getD j 0) 63 62 = 0)

/-- TSK.SECTIONS: the close that makes an entry of area I an output entry is refused (R153).
(DESIGN CHOICE, unsafe: log 95.) -/
def State.sectionsCheck (s : State) (t : Nat) (b : List Byte) : Nat :=
  if (s.setDom (K.TSK_SECTIONS t) b).outNamesI t (listWords (s.dom (K.TSK_LISTS t))) then stRESERVED else stOK

/-- TSK.LISTS (R153): area 3, or LEN 0, of any entry; an output entry naming I is found where the sections are known. -/
def State.listsCheck (s : State) (t : Nat) (b : List Byte) : Nat :=
  let e := listWords b
  if (e.any fun v => decide (bits v 63 62 = 3) || decide (bits v 61 46 = 0)) || s.outNamesI t e then stRESERVED
  else if e.any fun v => decide (16384 < bits v 61 46) || (decide (bits v 63 62 < 2) && decide (8191 < bits v 15 0)) ||
    decide (16383 < bits v 15 0) then stRANGE
  else stOK

/-- The table of R193 that bytes hold, EN and the fields of each entry. -/
def forceTableOf (b : List Byte) : SMap Force :=
  ((List.range (b.length / 16)).map fun i =>
    (i, { key := leAt b (16 * i) 4 / 2 ^ 24 * 2 ^ 24 + leAt b (16 * i) 4 % 2 ^ 20
          val := leAt b (16 * i + 8) 8
          en := bit (leAt b (16 * i + 4) 4) 0
          orphan := false : Force })).filter fun e => e.2 ≠ Force.init

/-- IMG.FORCES (R194). -/
def forcesCheck (t : SMap Force) : Nat :=
  let l := t.map fun e => forceFields e.2.key e.2.val
  if l.contains stRESERVED then stRESERVED
  else if l.contains stRANGE || t.any fun e => e.2.en && forceClash t e.1 e.2.key then stRANGE
  else stOK

/-- TMR.CELLS: no cell carries a reserved KIND (R206). -/
def cellsCheck (b : List Byte) : Nat :=
  if (List.range (b.length / 16)).any fun i => decide (5 < cellKind (slice b (16 * i) 16)) then stRESERVED else stOK

/-- NTM.PTP_TX (R312). -/
def State.ptpTxCheck (s : State) (b : List Byte) : Nat :=
  let fl := leAt b 1 1
  if b.length < 34 then stTYPE
  else if 17 < leAt b 0 1 ∨ 8 ≤ fl then stRESERVED
  else if (bit fl 1 = true ∧ bit fl 2 = false) ∨ (bit fl 2 = true ∧ s.ns + 1000000000 < leAt b 8 8) then stRANGE
  else if 16 ≤ s.ptpQueued then stBUSY
  else stOK

/-- The frame of a PTP_TX record enters its port's queue, unless its launch is already missed (R312, R321). -/
def State.ptpTx (s : State) (b : List Byte) : State :=
  let p := leAt b 0 1
  let fl := leAt b 1 1
  let f := b.drop 16
  let l := leAt b 8 8
  if bit fl 2 ∧ l + s.ob K.NTM_LATE_LIMIT < s.ns then s.incOb (K.NTM_LAUNCH_MISS (p + 1))
  else s.enqueue p { TxF.init with
    cls := if ptpType f < 4 then 2 else 3
    kind := .ptp
    launch := if bit fl 2 then some l else none
    len := Nat.max 64 (f.length + 4 + if beAt f 12 2 = 0x8100 then 0 else 4 * b2n s.vtag.isSome)
    src := s.ob K.HNW_MAC % 2 ^ 48
    vtag := s.vtag
    etype := beAt f (ptpAt f - 2) 2
    stamp := bit fl 0
    oneStep := bit fl 1
    tag := leAt b 2 2
    body := f }

/-- A domain's own check of the bytes written, in the order of R41. -/
def State.bytesCheck (s : State) (n key : Nat) (b : List Byte) : Nat :=
  let idx := key / 256
  let sub := key % 256
  match idx with
  | 0x1400 => s.provisionCheck b
  | 0x2105 => s.sectionsCheck sub b
  | 0x2106 => s.listsCheck sub b
  | 0x2201 => forcesCheck (forceTableOf b)
  | 0x2301 => cellsCheck b
  | 0x3201 => ntmSetCheck b
  | 0x3206 => s.ptpTxCheck b
  | 0x320D => gclCheck b
  | 0x3805 => rulesCheck 128 (rulesPlain true 128 b)
  | 0x3806 => rulesCheck 64 (rulesPlain false 64 b)
  | 0x3820 => s.txBufCheck (sub - 1) 0 b
  | 0x3821 => s.txBufCheck (sub - 1) 1 b
  | 0x3822 => s.txBufCheck (sub - 1) 2 b
  | 0x3C07 => s.recWriteCheck n b.length
  | _ => stOK

/-- The states in which a domain takes no close, whatever its bytes (R41): NTM.SET in a running tide (R303), GCL_ADMIN while an
activation waits (R326), the rules of a controller outside CONFIG (R387), a pending transmit buffer (R396), a context neither FREE
nor HALTED (R74). -/
def State.closeState (s : State) (key : Nat) : Bool :=
  let idx := key / 256
  let sub := key % 256
  match idx with
  | 0x3201 => !s.tideStopped
  | 0x320D => (s.gate (sub - 1)).pending
  | 0x3805 => decide (s.inConfig (sub - 1) stOK ≠ stOK)
  | 0x3806 => decide (s.inConfig (sub - 1) stOK ≠ stOK)
  | 0x3820 => ((s.mb (sub - 1)).buf 0).pend
  | 0x3821 => ((s.mb (sub - 1)).buf 1).pend
  | 0x3822 => ((s.mb (sub - 1)).buf 2).pend
  | _ =>
    if 0x2810 ≤ idx ∧ idx ≤ 0x281F then
      (let x := s.ctx (16 * (sub - 1) + (idx - 0x2810))
       decide (x.cs ≠ .free) && decide (x.cs ≠ .halted))
    else false

/-- What a load takes of a slot: its width's bytes from its offset on, extended (R39, R115); an instruction that waits for the
whole answer takes the slot. -/
def Flight.take (f : Flight) (slot : Nat) : Nat :=
  if f.dst = heldDst then slot else extend f.ext (slot / 2 ^ (8 * (f.addr % 8)) % 2 ^ (8 * f.n))

/-- The keeper's answer to a request of the OEM range goes to its requester (R57); a later one is discarded. A load takes its own
bytes of the slot (R39).
(DESIGN CHOICE, safe: log 29.) -/
def State.oemAnswer (s : State) (tag status data : Nat) : State :=
  match s.dic.oem.find? fun r => decide (r.tag = tag) && r.taken with
  | none => s
  | some r =>
    let s := { s with dic := { s.dic with oem := s.dic.oem.filter fun q => decide (q.tag ≠ tag) } }
    let s := s.setResult r.ses (r.idx * 256 + r.sub) (status % 256) rNONE 0
    let v := if status = 0 ∧ r.write = false then data % 2 ^ 64 else 0
    let s := s.reply r.ses (r.idx * 256 + r.sub) (if r.write then [] else leBytes 8 v)
    if r.ses < 384 then
      let land := fun (f : Flight) => if f.tag = some tag then { f with tag := none, val := f.take v } else f
      (s.modCore (r.ses / 16) fun k => { k with flight := k.flight.map land }).loadsDone r.ses
    else s

/-- The bytes of an accepted close become the object's contents. -/
def State.applyBytes2 (s : State) (n key : Nat) (b : List Byte) : State :=
  let idx := key / 256
  let sub := key % 256
  let keep := fun (s : State) => (s.setDom key b).retainDom key
  match idx with
  | 0x1104 => match Config.oemAnsOf b with
    | some (tag, st, d) => s.oemAnswer tag st d
    | none => s
  | 0x1400 => s.provision b
  | 0x2004 => (List.range 16384).foldl (fun s l => s.setOwner l (leAt b (2 * l) 2 % 2 ^ 12 + leAt b (2 * l) 2 / 2 ^ 15 * 2 ^ 15)) s
  | 0x2105 => s.setDom key ((List.range (b.length / 32)).flatMap fun i => slice b (32 * i) 28 ++ [0, 0, 0, 0])
  | 0x2106 => s.setDom key ((listWords b).flatMap fun v => leBytes 8 (v / 2 ^ 46 * 2 ^ 46 + v % 2 ^ 32))
  | 0x2201 => s.forceReq (.table (forceTableOf b))
  | 0x2301 => s.sramWrite (mTimer sub) (ctrlMask 0 b)
  | 0x3201 => s.ntmSetApply b
  | 0x3206 => s.ptpTx b
  | 0x3805 => (s.setDom key (rulesPlain true 128 b)).retainDom key
  | 0x3806 => (s.setDom key (rulesPlain false 64 b)).retainDom key
  | 0x3820 => s.setDom key (elemPlain b)
  | 0x3821 => s.setDom key (elemPlain b)
  | 0x3822 => s.setDom key (elemPlain b)
  | 0x3C07 => s.recWrite n b
  | _ =>
    if 0x2810 ≤ idx ∧ idx ≤ 0x281F then s.modCtx (16 * (sub - 1) + (idx - 0x2810)) fun x => x.ofBytes b
    else keep s

/-- Close of a write transfer with COMMIT: its status, and the state where the object has taken the bytes (R56). -/
def State.xferCommit (s : State) (n key : Nat) (wr : SMap (Option Byte)) : Nat × State :=
  match s.rowOf key with
  | none => (stNOOBJ, s)
  | some r =>
    if s.keyOff key || (decide (r.acc = .rws) && !s.tideStopped) || s.standbyKeeps r key 0 || s.closeState key then
      (stSTATE, s)
    else if key = K.OLC_IMAGE then
      (if s.olc.st ≠ .loading then (stSTATE, s)
       else
         let at_ := s.ob K.OLC_IMAGE_AT
         let (s', ok) := s.imageClose (wr.map fun e => (at_ + e.1, e.2.getD 0))
         match whole wr with
         | none => (stTYPE, s)
         | some _ => if ok then (stOK, s') else (stTYPE, s))
    else match whole wr with
      | none => (stTYPE, s)
      | some b =>
        let own := s.bytesCheck n key b
        let st := (firstFail [failIf (!r.len.fits b.length) stTYPE, plainOf own, failIf (s.heldFor n key) stBUSY]).1
        if st ≠ stOK then (st, s.when (decide (key = K.BDR_REC_DATA) && decide (st = stSTATE)) fun s => s.incOb K.BDR_INHIBITED)
        else (stOK, s.applyBytes2 n key b)

end Sys2Proof.Machine
end

