-- ==== Sys2Proof/Machine/DictTxn.lean ====
section
/-! DEFINITION. Requests to the dictionary as a whole: reads and writes of every kind (R37–R45), transactions (R46–R54,
R563), domain transfers (R55, R56), the OEM range (R57) and the end of a session. -/

namespace Sys2Proof.Machine

/-! ### Sessions (R37) -/

/-- The session's path can bring a request: its core is fitted, its Huatur session is open, or its controller is on. -/
def State.sesAlive (s : State) (n : Nat) : Bool :=
  s.domOn dHC &&
    (if n < 384 then s.coreFitted (n / 16) && s.domMem (dS (strandOf (n / 16)))
     else if n < 416 then (s.ses n).open_
     else decide (n < 420) && s.domOn dMB)

/-- A request of the session has no status yet: a COMMIT in its vote, a PREPARE in its vote, or one in the OEM queue
(R48, R57).
(DEDUCED, safe: log 15.) -/
def State.sesWaits (s : State) (n : Nat) : Bool :=
  decide ((s.ses n).txn = .voting) || decide (s.olc.asker = some n) || s.dic.oem.any fun r => decide (r.ses = n)

/-- A step of a session left a request of it without a status.
(DEDUCED, safe: log 15.) -/
def State.began (s s' : State) (n : Nat) : Bool :=
  (decide ((s.ses n).txn ≠ .voting) && decide ((s'.ses n).txn = .voting)) ||
    (decide (s.olc.asker ≠ some n) && decide (s'.olc.asker = some n)) ||
    decide (s.dic.oem.length < s'.dic.oem.length)

/-- The session's next request is served: a context's waits behind its earlier one (R38, R48). -/
def State.served (s : State) (n : Nat) : Bool := s.sesAlive n && !(decide (n < 384) && s.sesWaits n)

/-! ### The OEM range (R57) -/

def isOem (idx : Nat) : Bool := decide (0x6000 ≤ idx) && decide (idx ≤ 0x7FFF)

/-- The three checks of R57, and R46's for a write in an open transaction. -/
def State.oemCheck (s : State) (n : Nat) (write : Bool) : Nat × Nat :=
  if (n = 0 ∧ (s.ctx 0).task = 0) ∨ (write = true ∧ (s.ses n).txn = .open) then (stACCESS, rNONE)
  else if !s.keeperRuns then (stSTATE, rKEEPER_ABSENT)
  else if 16 ≤ (s.dic.oem.filter fun r => !r.taken).length then (stBUSY, rQUEUE_FULL)
  else (stOK, rNONE)

/-- A request to an index of the OEM range.
(DESIGN CHOICE, unsafe: log 93.) -/
def State.oemEnter (s : State) (n key : Nat) (write : Bool) (v : Nat) : State :=
  let (st, r) := s.oemCheck n write
  if st ≠ stOK then s.setResult n key st r 0
  else
    let q : OemReq := {
      tag := s.dic.oemTag
      ses := n
      role := s.roleOf n
      idx := key / 256
      sub := key % 256
      write := write
      v := v % 2 ^ 64
      taken := false
      at_ := s.ntm.mono }
    State.kevent { s with dic := { s.dic with oemTag := (s.dic.oemTag + 1) % 2 ^ 32, oem := s.dic.oem ++ [q] } } kOEM

def OemReq.bytes (r : OemReq) : List Byte :=
  Config.oemReqBytes [r.tag, r.ses, r.role, r.idx, r.sub, b2n r.write, r.v]

/-- A read of DIC.OEM_REQ takes the oldest request not yet taken.
(DESIGN CHOICE, safe: log 29.) -/
def State.oemTake (s : State) : State × List Byte :=
  match s.dic.oem.find? fun r => !r.taken with
  | none => (s, [])
  | some r =>
    ({ s with dic := { s.dic with oem := s.dic.oem.map fun q => if q.tag = r.tag then { q with taken := true } else q } },
     r.bytes)

/-- DIC.OEM_TIMEOUT passes without an answer. -/
def State.oemExpire (s : State) (tag : Nat) : State :=
  match s.dic.oem.find? fun r => decide (r.tag = tag) with
  | none => s
  | some r =>
    let key := r.idx * 256 + r.sub
    let s := s.reachMono (r.at_ + s.ob K.DIC_OEM_TIMEOUT * 1000)
    let s := { s with dic := { s.dic with oem := s.dic.oem.filter fun q => decide (q.tag ≠ tag) } }
    let s := (s.setResult r.ses key stBUSY rOEM_TIMEOUT 0).reply r.ses key []
    if r.ses < 384 then
      let land := fun (f : Flight) => if f.tag = some tag then { f with tag := none } else f
      (s.modCore (r.ses / 16) fun k => { k with flight := k.flight.map land }).loadsDone r.ses
    else s

/-! ### Domain transfers (R55, R56) -/

/-- The record that opening a read transfer of a queue captures.
(DEDUCED, unsafe: log 27.) -/
def State.domCapture (s : State) (n key : Nat) : State × Option (List Byte) :=
  if key = K.STA_RECORD then let (s, b) := s.strataRead n; (s, some b)
  else if key = K.DIC_OEM_REQ then let (s, b) := s.oemTake; (s, some b)
  else if key = K.NTM_PTP_RX then
    (match s.ntm.rx with
     | [] => (s.setResult n key stRANGE rNONE 0, some [])
     | r :: l => (s.setNtm fun t => { t with rx := l }, some r.bytes))
  else if key = K.NTM_TX_STAMP then
    (match s.ntm.stamps with
     | [] => (s, some [])
     | r :: l => (s.setNtm fun t => { t with stamps := l }, some r.bytes))
  else if key = K.FIO_EDGE_LOG then
    (s.setFio fun f => { f with log := [] }, some (s.fio.log.map edgeBytes).flatten)
  else if key = K.BDR_REC_DATA then
    (match s.recRead n with
     | (s, some b) => (s, some b)
     | (s, none) => (s.setResult n key stRANGE rNONE 0, some []))
  else if key = K.SNP_DATA ∧ s.snpData (s.ses n).snpSel = none then (s.setResult n key stRANGE rNONE 0, none)
  else (s, none)

/-- Object and direction that a value of DIC.DOM_OPEN names. -/
def domKey (v : Nat) : Nat := bits v 47 32 * 256 + bits v 31 24
def domDir (v : Nat) : Nat := bits v 23 16

/-- A write to DIC.DOM_OPEN; a transfer already open is discarded (R55, R56).
(DEDUCED, unsafe: log 27.) -/
def State.domOpen (s : State) (n v : Nat) : State :=
  let key := domKey v
  let w := decide (domDir v = 2)
  let st := (firstFail [s.domCheck n key w, failIf (decide (domDir v = 0) || decide (2 < domDir v)) stRESERVED]).1
  if st ≠ stOK then s.setResult n K.DIC_DOM_OPEN st rNONE 0
  else
    let s := s.setResult n K.DIC_DOM_OPEN stOK rNONE 0
    let (s, cap) := if w then (s, none) else s.domCapture n key
    s.modSes n fun x => { x with dom := some { key := key, write := w, cap := cap, wr := [] } }

/-- The bytes a read transfer reads. -/
def State.xferBytes (s : State) (n : Nat) (x : Xfer) : List Byte := x.cap.getD (s.domBytes n x.key)

/-- DIC.DOM_LENGTH. -/
def State.domLength (s : State) (n : Nat) : Nat :=
  match (s.ses n).dom with
  | none => 0
  | some x => if x.write then x.written else (s.xferBytes n x).length

/-- The longest object (R55). -/
def domMax : Nat := 16 * 2 ^ 20

/-- Bytes of the transfer in a session put from an object byte on. -/
def State.xferPut (s : State) (n at_ : Nat) (b : List Byte) : State :=
  s.modSes n fun x => { x with dom := x.dom.map fun d => { d with
    wr := b.zipIdx.foldl (fun m e => mput (fun _ => none) m (at_ + e.2) (some e.1)) d.wr } }

/-- Status of an aperture access at byte a (R11, R41, R46, R55). Writes narrower than the slot are taken.
(DEDUCED, unsafe: log 91.) -/
def State.apCheck (s : State) (n a width : Nat) (write : Bool) : Nat :=
  let x := s.ses n
  let key := 0x118000 + a / 8 % 256
  (firstFail [
    failIf (write && decide (x.txn = .open)) stACCESS,
    failIf (!write && x.dom.any fun d => s.keyOff d.key) stSTATE,
    s.xferCheck n key write,
    failIf (!([1, 2, 4, 8].contains width) || decide (a % Nat.max 1 width ≠ 0) || decide (2048 < a + width) ||
      (write && decide (domMax < x.domOff + a + width))) stTYPE]).1

def State.apWrite (s : State) (n a width v : Nat) : State :=
  let key := 0x118000 + a / 8 % 256
  let st := s.apCheck n a width true
  let s := s.setResult n key st rNONE 0
  if st ≠ stOK then s else s.xferPut n ((s.ses n).domOff + a) (leBytes width v)

/-- A read past the object's length returns zeros and records RANGE (R56).
(DESIGN CHOICE, unsafe: log 92.) -/
def State.apRead (s : State) (n a width : Nat) : State × Nat :=
  let key := 0x118000 + a / 8 % 256
  let st := s.apCheck n a width false
  if st ≠ stOK then (s.setResult n key st rNONE 0, 0)
  else
    let b := match (s.ses n).dom with
      | some x => s.xferBytes n x
      | none => []
    let at_ := (s.ses n).domOff + a
    (s.setResult n key (if b.length ≤ at_ then stRANGE else stOK) rNONE 0, leNat (slice b at_ width))

/-- A write to DIC.DOM_CLOSE that finds a transfer open: a refused COMMIT leaves it open.
(DEDUCED, unsafe: log 27.)
(DESIGN CHOICE, unsafe: log 90.) -/
def State.domClose (s : State) (n v : Nat) : State :=
  match (s.ses n).dom with
  | none => s.setResult n K.DIC_DOM_CLOSE stSTATE rNONE 0
  | some x =>
    let (st, s) := if v = 1 ∧ x.write = true then s.xferCommit n x.key x.wr else (stOK, s)
    let s := s.setResult n K.DIC_DOM_CLOSE st rNONE 0
    if st = stOK then s.modSes n fun x => { x with dom := none } else s

/-! ### Writes that take effect -/

/-- A session has written an object: transactions that stage it are in conflict (R49). -/
def State.noteWrite (s : State) (key : Nat) : State :=
  { s with sess := s.sess.map fun e =>
      if (e.2.txn = .open ∨ e.2.txn = .voting) ∧ (e.2.staged.any fun w => decide (w.key = key)) then
        (e.1, { e.2 with conflict := e.2.conflict ++ [key] })
      else e }

/-- Objects whose write a pair makes at the next flood start (R340); force changes go as such.
(DEDUCED, unsafe: log 28.) -/
def State.isReplicated (s : State) (key : Nat) : Bool :=
  replicatedKey key && (decide (key = K.TDS_CMD) || decide (key / 256 = 0x2107) ||
    (decide (key / 256 ≠ 0x2202) && decide (key ≠ K.IMG_CTL) &&
      match s.rowOf key with
      | some r => decide (r.acc = .rw)
      | none => false))

/-- An accepted write takes effect. -/
def State.applyWrite (s : State) (n key v : Nat) : State :=
  let s := s.noteWrite key
  if s.replicates && s.isReplicated key then s.replSend (.write (key / 256) (key % 256) v) fun s => s.applyOb n key v
  else s.applyOb n key v

/-! ### Transactions (R46–R54) -/

/-- A value as its object takes it, without reserved bits (R43). -/
def State.valueOf (s : State) (key v : Nat) : Nat :=
  match s.rowOf key with
  | some r => r.value v
  | none => v

def insertNew (l : List Nat) (d : Nat) : List Nat := if l.contains d then l else l ++ [d]

/-- Dies that a transaction involves. -/
def Ses.diesOf (x : Ses) : List Nat := (x.staged.map fun w => dieOf w.key).foldl insertNew []

/-- A transaction ends in a state that shows its outcome. -/
def Ses.endTxn (x : Ses) (t : TxnSt) : Ses :=
  { x with txn := t, staged := [], conflict := [], dies := [], yes := [], no := [], slack := false, applied := [],
           confirmed := [] }

def State.lastOrder (s : State) : Nat := (s.sess.map fun e => e.2.order).foldl Nat.max 0

def State.txnBegin (s : State) (n : Nat) : State :=
  (s.setResult n K.DIC_TXN stOK rNONE 0).modSes n fun x => { x.endTxn .open with txnAt := s.ntm.mono }

/-- COMMIT of a transaction in OPEN (R48); one with nothing staged has no vote to wait for.
(DEDUCED, unsafe: log 26.) -/
def State.txnCommit (s : State) (n : Nat) : State :=
  if (s.ses n).staged = [] then (s.setResult n K.DIC_TXN stOK rNONE 0).modSes n fun x => x.endTxn .done
  else s.modSes n fun x => { x with
    txn := .voting
    dies := x.diesOf
    yes := []
    no := []
    order := s.lastOrder + 1
    txnAt := s.ntm.mono }

/-- DISCARD (R52, R53). -/
def State.txnDiscard (s : State) (n : Nat) : State :=
  match (s.ses n).txn with
  | .open => (s.setResult n K.DIC_TXN stOK rNONE 0).modSes n fun x => x.endTxn .idle
  | .voting =>
    let s := (s.setResult n K.DIC_TXN stCOMMIT rNONE 0).reply n K.DIC_TXN []
    (s.setResult n K.DIC_TXN stOK rNONE 0).modSes n fun x => x.endTxn .idle
  | .pending => s.setResult n K.DIC_TXN stOK rDISCARD_LATE 0
  | _ => s

def State.txnCmd (s : State) (n v : Nat) : State :=
  match v with
  | 1 => s.txnBegin n
  | 2 => s.txnCommit n
  | _ => s.txnDiscard n

/-- The state with a staged write in force, for the checks of a vote (R563). -/
def State.preview (s : State) (n : Nat) (w : Staged) : State :=
  let v := s.valueOf w.key w.v
  if w.idx = 0x2202 ∧ w.sub ≤ 3 then s.applyOb n w.key v
  else if w.key = K.IMG_FORCE_CMD then
    (let x := s.ses n
     if v = 1 then s.setImg fun m => { m with
       forces := mput (fun _ => s.noForce) m.forces x.forceSel { key := x.forceKey, val := x.forceVal, en := true, orphan := false } }
     else if v = 2 then s.setImg fun m => { m with
       forces := mput (fun _ => s.noForce) m.forces x.forceSel { s.force x.forceSel with en := false } }
     else if v = 4 then s.setImg fun m => { m with forces := forceForm s.noForce (m.forces.map fun e => (e.1, { e.2 with en := false })) }
     else s)
  else s.setOb w.key v

/-- Every staged write with the state before it: the writes before it are in force. -/
def State.previews (s : State) (n : Nat) : List Staged → List (State × Staged)
  | [] => []
  | w :: l => (s, w) :: (s.preview n w).previews n l

/-- The state that a staged write is judged in: every write of the transaction in force, but the selections of its session, for
a force command, as they stand before it (R563). -/
def State.voteState (after before : State) (w : Staged) : State :=
  if w.key = K.IMG_FORCE_CMD then { after with sess := before.sess } else after

/-- The reason for which a die refuses, with the object, by the order of R49; NONE where the checks of R563 refuse. -/
def State.voteNo (s : State) (n die : Nat) : Option (Nat × Nat) :=
  let x := s.ses n
  let ws := x.staged.filter fun w => decide (dieOf w.key = die)
  let rws := fun (w : Staged) => match s.rowOf w.key with
    | some r => decide (r.acc = .rws)
    | none => false
  let s' := s.each x.staged fun s w => s.preview n w
  match ws.find? fun w => !s.domOn (blockDomain w.key) with
  | some w => some (rDOMAIN_OFF, w.key)
  | none => match ws.find? fun w => rws w && !s.tideStopped with
    | some w => some (rTIDE_RUNNING, w.key)
    | none => match ws.find? fun w => x.conflict.contains w.key with
      | some w => some (rCONFLICT, w.key)
      | none => match (s.previews n x.staged).find? fun p => decide (dieOf p.2.key = die) &&
            decide (((s'.voteState p.1 p.2).writeCheck n p.2.key p.2.width p.2.v).1 ≠ stOK) with
        | some p => some (rNONE, p.2.key)
        | none => none

/-- Place of a reason in R49, NONE last. -/
def reasonRank (r : Nat) : Nat := if r = 0 then 99 else r

/-- The refusal that DIC.RESULT records. -/
def firstNo (l : List (Nat × Nat × Nat)) : Nat × Nat × Nat :=
  l.tail.foldl (fun a b => if reasonRank b.2.1 < reasonRank a.2.1 then b else a) (l.headD (0, 0, 0))

/-- Every die has voted or is taken to have refused: the engine sends its tokens (R48, R50). -/
def State.txnDecide (s : State) (n : Nat) : State :=
  let x := s.ses n
  if x.dies.all fun d => x.yes.contains d || x.no.any fun e => decide (e.1 = d) then
    match x.no with
    | [] =>
      ((s.setResult n K.DIC_TXN stOK rNONE 0).modSes n fun x => { x with
        txn := .pending
        slack := !s.tideStopped }).reply n K.DIC_TXN []
    | l =>
      let f := firstNo l
      ((s.setResult n f.2.2 stCOMMIT f.2.1 (maskOf (l.map Prod.fst))).modSes n fun x => x.endTxn .failed).reply n K.DIC_TXN []
  else s

/-- No COMMIT that the engine received earlier is still in hand (R54).
(DEDUCED, unsafe: log 26.) -/
def State.txnTurn (s : State) (n : Nat) : Bool :=
  s.sess.all fun e => decide (e.1 = n) || decide ((s.ses n).order < e.2.order) ||
    !(decide (e.2.txn = .voting) || decide (e.2.txn = .pending))

/-- The die can answer: its domain is on and its link up (R11, R15). -/
def State.dieAnswers (s : State) (die : Nat) : Bool :=
  decide (die = 0) || (s.domOn (if die = 7 then dFL else dS die) && s.linkUp die)

/-- A vote of the session is awaited from the die. -/
def State.voteDue (s : State) (n die : Nat) : Bool :=
  let x := s.ses n
  decide (x.txn = .voting) && x.dies.contains die && !x.yes.contains die &&
    !(x.no.any fun e => decide (e.1 = die)) && s.txnTurn n

/-- A die's vote arrives (R49, R563). -/
def State.dieVote (s : State) (n die : Nat) : State :=
  if s.voteDue n die && s.dieAnswers die then
    let s := match s.voteNo n die with
      | none => s.modSes n fun x => { x with yes := x.yes ++ [die] }
      | some e => s.modSes n fun x => { x with no := x.no ++ [(die, e)] }
    s.txnDecide n
  else s

/-- No vote, or no confirmation, within 10 µs (R19): the fault names die and handshake. -/
def State.txnTimeout (s : State) (n die : Nat) : State :=
  if s.voteDue n die then
    let s := (s.reachMono ((s.ses n).txnAt + 10000)).raise 0x07 die die 0 3 0
    let key := ((s.ses n).staged.find? fun w => decide (dieOf w.key = die)).map Staged.key |>.getD 0
    let off := !s.domOn (if die = 7 then dFL else if die = 0 then dHC else dS die)
    (s.modSes n fun x => { x with no := x.no ++ [(die, if off then rDOMAIN_OFF else rTIMEOUT, key)] }).txnDecide n
  else
    let x := s.ses n
    if x.txn = .pending ∧ x.dies.contains die ∧ x.applied.contains die ∧ ¬ x.confirmed.contains die then
      s.raise 0x07 die die 0 3 0
    else s

/-- A die applies its writes, unless it has (R50). -/
def State.dieApply (s : State) (n die : Nat) : State :=
  let x := s.ses n
  if x.txn = .pending ∧ x.dies.contains die ∧ ¬ x.applied.contains die then
    let ws := x.staged.filter fun w => decide (dieOf w.key = die)
    (s.each ws fun s w => s.applyWrite n w.key (s.valueOf w.key w.v)).modSes n fun x => { x with
      applied := x.applied ++ [die]
      slack := false }
  else s

/-- Sessions whose transactions wait for a slack point, in the order of their COMMITs (R50, R54). -/
def State.txnWaiting (s : State) : List Nat :=
  let add := fun (l : List (Nat × Nat)) (e : Nat × Nat) =>
    l.takeWhile (fun f => decide (f.1 ≤ e.1)) ++ [e] ++ l.dropWhile fun f => decide (f.1 ≤ e.1)
  (((s.sess.filter fun e => decide (e.2.txn = .pending) && e.2.slack).map fun e => (e.2.order, e.1)).foldl add []).map Prod.snd

/-- Every die applies what waits for the slack point. -/
def State.txnApplyAll (s : State) : State := s.each s.txnWaiting fun s n => s.each (s.ses n).dies fun s d => s.dieApply n d

/-- The slack point that commit tokens name is reached: every die applies its writes at it, unless an online change commits there
(R50). -/
def State.txnSlack (s : State) (change : Bool) : State := if change then s else s.txnApplyAll

/-- The tide is stopped: every die applies what waited for a slack point at that entry (R50). -/
def State.txnSettle (s : State) : State := if s.tideStopped then s.txnApplyAll else s

/-- A die applies its writes on the commit token of a stopped tide (R50). -/
def State.txnApply (s : State) (n die : Nat) : State := if (s.ses n).slack then s else (s.dieApply n die).txnSettle

/-- A die's confirmation arrives (R15, R48).
(DEDUCED, unsafe: log 26.) -/
def State.txnConfirm (s : State) (n die : Nat) : State :=
  let x := s.ses n
  if x.txn = .pending ∧ x.applied.contains die ∧ ¬ x.confirmed.contains die ∧ s.dieAnswers die = true then
    let c := x.confirmed ++ [die]
    s.modSes n fun x => if x.dies.all c.contains then x.endTxn .done else { x with confirmed := c }
  else s


/-- DIC.TXN_TIMEOUT passes after BEGIN without a COMMIT (R52). -/
def State.txnExpire (s : State) (n : Nat) : State :=
  if (s.ses n).txn = .open then
    let s := s.reachMono ((s.ses n).txnAt + s.ob K.DIC_TXN_TIMEOUT * 1000000)
    (s.setResult n K.DIC_TXN stCOMMIT rTXN_EXPIRED 0).modSes n fun x => x.endTxn .failed
  else s

/-! ### Writes and reads -/

/-- A description of R30. -/
def isTypeDesc (key : Nat) : Bool := decide (key % 256 = 0) && decide (key / 256 ≤ 0xFF) && (typeOfCode (key / 256)).isSome

/-- Objects whose write can stop the tide: commands of the tide and of a task, a watchdog's key, and what begins a start or lets
it go on. -/
def stopsTide (key : Nat) : Bool :=
  decide (key = K.TDS_CMD) || decide (key / 256 = 0x2107) || decide (key / 256 = 0x5002) || decide (key = K.STR_CMD) ||
    decide (key = K.NTM_LOCK)

/-- A write of width bytes at byte off of an object's slot (R39, R41). A type description, which R30 gives no access kind, takes
none.
(DESIGN CHOICE, unsafe: log 113.)
(DEDUCED, unsafe: log 28.)
(DESIGN CHOICE, unsafe: log 93.) -/
def State.dictWrite (s : State) (n key off width v : Nat) : State :=
  if !s.served n then s
  else if isOem (key / 256) then s.oemEnter n key true v
  else if isTypeDesc key then s.setResult n key stACCESS rNONE 0
  else if key / 256 = 0x1180 then s.apWrite n (key % 256 * 8 + off) width v
  else
    let (st, r) := s.writeCheck n key (if off = 0 then width else 0) v
    let u := s.valueOf key v
    if st ≠ stOK then
      (s.when (decide (s.ownCheck n key u = (st, r))) fun s => s.refusedNote n key u st r).setResult n key st r 0
    else if key = K.DIC_TXN then s.txnCmd n u
    else if key = K.DIC_DOM_OPEN then s.domOpen n u
    else if key = K.DIC_DOM_CLOSE then s.domClose n u
    else
      let s := if key = K.OLC_CMD ∧ u = 4 ∧ (s.ses n).txn ≠ .open then s else s.setResult n key stOK rNONE 0
      if (s.ses n).txn = .open then
        s.modSes n fun x => { x with staged := x.staged ++ [{ idx := key / 256, sub := key % 256, width := width, v := v }] }
      else ((s.applyWrite n key u).when (decide (key = K.OLC_CMD)) State.olcReply).when (stopsTide key) State.txnSettle

/-- What a read of an object does beside returning its value (R32, R146, R304, R390). -/
def State.readEffect (s : State) (n key : Nat) : State :=
  if key = K.TDS_KEVENTS then s.setOb key 0
  else if key = K.NTM_NSEC then s.modSes n fun x => { x with sec := s.ntm.sec }
  else if 0x3810 ≤ key / 256 ∧ key / 256 ≤ 0x3819 then s.rdRead (key % 256 - 1) (key / 256 - 0x3810)
  else s

/-- The slot contents of an object (R30, R39). -/
def State.slotValue (s : State) (n key : Nat) : Nat :=
  match s.rowOf key with
  | some r => slotOf r.ty ((s.blockVal n (s.domLength n) (key / 256) (key % 256)).getD (s.ob key))
  | none => 0

/-- A read of an object's slot: the state after it, and the slot contents; a refused read returns 0 (R40). -/
def State.dictRead (s : State) (n key : Nat) : State × Nat :=
  if !s.served n then (s, 0)
  else if isOem (key / 256) then (s.oemEnter n key false 0, 0)
  else if isTypeDesc key then
    (s.setResult n key stOK rNONE 0, match typeOfCode (key / 256) with
      | some t => t.bits
      | none => 0)
  else if key / 256 = 0x1180 then s.apRead n (key % 256 * 8) 8
  else
    let (st, r) := s.readCheck n key
    if st ≠ stOK then (s.setResult n key st r 0, 0)
    else ((s.readEffect n key).setResult n key stOK rNONE 0, s.slotValue n key)

/-! ### The end of a session (R37, R52) -/

/-- A session ends: its transaction and domain transfer are discarded, and a transaction past its tokens completes.
(DEDUCED, unsafe: log 26.) -/
def State.sesClose (s : State) (n : Nat) : State :=
  let x := s.ses n
  let s := s.bedDrop fun r => decide (r = n)
  let s := { s with dic := { s.dic with oem := s.dic.oem.filter fun r => decide (r.ses ≠ n) } }
  if x.txn = .pending then
    s.setSes n { Ses.init with
      txn := .pending
      staged := x.staged
      dies := x.dies
      yes := x.yes
      order := x.order
      slack := x.slack
      applied := x.applied
      confirmed := x.confirmed }
  else s.setSes n Ses.init

/-- A Huatur session idle for DIC.SESSION_IDLE closes. -/
def State.sesIdle (s : State) (n : Nat) : State :=
  if 384 ≤ n ∧ n < 416 ∧ (s.ses n).open_ = true then
    (s.reachMono ((s.ses n).idleAt + s.ob K.DIC_SESSION_IDLE * 1000000000)).sesClose n
  else s

/-- A path's lockout ends (R35). -/
def State.lockoutEnd (s : State) (path : Nat) : State :=
  let p := mget (fun _ => Path.init) s.dic.paths path
  if p.locked then
    let s := s.reachMono (p.fails.headD 0 + s.ob K.DIC_LOCKOUT_WINDOW * 1000000000)
    { s with dic := { s.dic with paths := mput (fun _ => Path.init) s.dic.paths path Path.init } }
  else s

end Sys2Proof.Machine
end

