-- ==== Sys2Proof/Machine/Cmd.lean ====
section
/-! DEFINITION. A write of one whole object, as the rows that are writes of a command object make it (R39, R41). -/

namespace Sys2Proof.Machine

/-- Bytes of an object of fixed size. -/
def State.obBytes (s : State) (key : Nat) : Nat :=
  match s.rowOf key with
  | some r => r.ty.bits / 8
  | none => 8

/-- A write of an object at its own width. -/
def State.setCmd (s : State) (n key v : Nat) : State := s.dictWrite n key 0 (s.obBytes key) v

/-- A write of one object's bytes by a domain transfer of the session: opened, filled and closed with COMMIT (R55, R56). -/
def State.putDomain (s : State) (n key : Nat) (data : List Byte) : State :=
  let s := s.setCmd n K.DIC_DOM_OPEN (key / 256 * 2 ^ 32 + key % 256 * 2 ^ 24 + 2 * 2 ^ 16)
  match (s.ses n).dom with
  | some x => if x.key = key ∧ x.write = true then (s.xferPut n 0 data).setCmd n K.DIC_DOM_CLOSE 1 else s
  | none => s

/-- A read transfer of one object opened in the session. -/
def State.openDomain (s : State) (n key : Nat) : State :=
  s.setCmd n K.DIC_DOM_OPEN (key / 256 * 2 ^ 32 + key % 256 * 2 ^ 24 + 2 ^ 16)

end Sys2Proof.Machine
end

