-- ==== Sys2Proof/Machine/TideEvents.lean ====
section
/-! DEFINITION. The instants of a tide (R137–R144), the cut and its copy (R189–R192, R564), the retained timer blocks (R215),
and the sequencer's own events (R142–R158). -/

namespace Sys2Proof.Machine

/-- EDGE_INIT entries of tasks whose first copy-in is complete are applied, and their sections may become READY (R231). -/
def State.settleEdges (s : State) : State :=
  s.each ((s.olc.edgeInits.map EdgeInit.task).dedup) fun s t =>
    if (s.task t).st = .copyIn ∧ (s.secs t).all (s.task t).inDone.contains then (s.edgeInitsOf t).openGates t else s

/-! ### The ebb point -/

/-- Breakwater's latch, and the input line where its own is used (R338, R371). -/
def State.ebbLatch (s : State) : State :=
  if s.bwFitted && s.domOn dFL && s.linkUp 7 then
    let s := s.latchLine
    if s.red.role = .standby then s
    else
      let s := s.seqLine 7 (Config.seqAddr (s.fresh + 1)) (Config.seqAddr (s.fresh + 2)) 64
      (s.putLine s.fio.line).dictate (.inputLine s.fio.line)
  else s

/-- The calendar count latched at the ebb point; a standby takes the dictated one (R338, R453). -/
def State.ebbCalendar (s : State) : State :=
  if s.red.role = .standby then s
  else (s.setOb K.CAL_EBB_COUNT s.cal.count).dictate (.ebbCount s.cal.count)

/-- The second ebb point after a STOP: every task but those in COPY_BACK is halted, the copy-backs complete, the tide ends, and no
tide begins (R139, R145).
(DEDUCED, unsafe: log 31.) -/
def State.stopEnd (s : State) : State :=
  let s := (s.haltContexts).each s.usedTasks State.haltTaskAt
  let s := s.setTds fun t => { t with copyIns := [] }
  let l := s.usedTasks.filter fun t => decide ((s.task t).st = .copyBack)
  let s := s.each (l.flatMap fun _ => l) State.publishNow
  let s := s.setTds fun t => { t with swin := false }
  ((s.toTide .stopped).reschedAll).pumpForces

/-- An ebb point that begins a tide.
(DEDUCED, safe: log 74.) -/
def State.ebbBegin (s : State) : State :=
  let first := s.tds.first
  let s := (s.when (!first) State.bwXcheck).outMisses
  let at_ := s.tds.nextEbb
  let s := s.setTds fun t => { t with
    ebbAt := at_
    nextEbb := at_ + s.tideP
    first := false
    phase := 0
    swin := false
    slacked := false
    inputDone := false
    agreed := false
    flooded := false
    cutDone := false
    launched := false
    sharingSeen := [] }
  let s := s.setOb K.TDS_TIDE (if first then s.ob K.TDS_TIDE_START else (s.ob K.TDS_TIDE + 1) % 2 ^ 32)
  let s := s.setOb K.TDS_TIDE64 (if first then 0 else s.ob K.TDS_TIDE64 + 1)
  let s := (s.when first fun s => s.toTide .running).setOlc fun o => { o with nextTide := true }
  let s := s.when (s.ob K.TDS_KTIDE ≠ 0) fun s => s.kevent kTIDE
  let s := (s.setHnw fun h => { h with ebbSent := false, ebbLast := [] }).setRed fun r => { r with shift := 0 }
  ((s.ebbCalendar.ebbLatch.swapRetry.dmaPhase 0).pumpForces).inputCheck

/-- The ebb point that comes next, once the tide before has passed its slack window.
(DEDUCED, safe: log 30.) -/
def State.ebbPoint (s : State) : State :=
  if s.tds.st = .armed ∨ (s.tideOn ∧ s.tds.slacked ∧ s.tds.swin = false) then
    let s := s.reach s.tds.nextEbb
    if s.tds.st = .stopping then
      let s := s.setTds fun t => { t with stopEbbs := t.stopEbbs + 1 }
      if 2 ≤ s.tds.stopEbbs then s.stopEnd else s.ebbBegin
    else s.ebbBegin
  else s

/-! ### The deadline and the flood -/

/-- A tide is in its ebb. -/
def State.inEbb (s : State) : Bool := s.tideOn && !s.tds.first && !s.tds.flooded

def State.inDeadline (s : State) : State :=
  if s.inEbb then
    let s := (s.reach (s.phaseAt K.TDS_IN_DEADLINE)).ebbSamples.ringsTell
    if s.tds.inputDone then s else s.deadline.inputComplete
  else s

/-- A write that the pair makes at a flood start (R340). -/
def State.replApply (s : State) (m : Repl) : State :=
  match m with
  | .write i b v => s.applyOb 0 (i * 256 + b) v
  | .force c => s.forceChange c

/-- Every replicated write and force change that waits. -/
def State.replAll (s : State) : State :=
  let l := s.red.repl
  (s.setRed fun r => { r with repl := [] }).each l State.replApply

/-- A copy-in that still has to read keeps the lines that a flood start replaces as they stood at its release (R155, R186). -/
def CopyIn.keep (k : CopyIn) (lines : List (Nat × List Byte)) : CopyIn :=
  { k with old := k.old ++ lines.filter fun e => !(k.old.map Prod.fst).contains e.1 }

/-- Pending lines become current (R180). -/
def State.mergeInput (s : State) : State :=
  let was := if s.tds.copyIns.isEmpty then [] else s.img.pend.map fun l => (l, s.bytesAt (mHead + 64 * l) 64)
  let s := s.setTds fun t => { t with copyIns := t.copyIns.map fun k => k.keep was }
  (s.each s.img.pend fun s l => s.blit (mAsm + 64 * l) (mHead + 64 * l) 64).setImg fun m => { m with pend := [] }

/-- The flood starts now (R142, R147, R180, R340). -/
def State.floodBegin (s : State) : State :=
  let d := (s.ns - s.tds.ebbAt) % 2 ^ 32
  let s := s.ringsTell.setTds fun t => { t with flooded := true, phase := 1 }
  let s := (s.setOb K.TDS_LAST_FLOOD d).when (decide (s.ob K.TDS_FLOOD < d)) fun s => s.incOb K.TDS_FLOOD_LATE
  let s := ((s.sample 0x0300 0 d).mergeInput.floodBitmap).replAll
  let s := s.when (decide (s.tds.st = .running)) fun s => s.releaseAll s.ns s.dueTasks
  (s.dmaPhase 1).pumpForces.settleEdges

/-- Every rebase of the START is complete (R142, R213). -/
def State.rebased (s : State) : Bool := s.tds.rebase.isEmpty

/-- The later of FLOOD and input ready. -/
def State.floodStart (s : State) : State :=
  if s.inEbb && s.rebased && s.tds.inputDone && s.agreementDone then (s.reach (s.phaseAt K.TDS_FLOOD)).floodBegin else s

/-- FLOOD_LATEST (R142, R337). -/
def State.floodLatest (s : State) : State :=
  if s.inEbb && s.rebased && s.tds.inputDone then ((s.reach (s.phaseAt K.TDS_FLOOD_LATEST)).agreeLate).floodBegin else s

/-- The trigger at the front reaches the sequencer; before the first flood start after a START it releases nothing (R145).
(DEDUCED, unsafe: log 34.) -/
def State.triggerNext (s : State) : State :=
  match s.tds.trigQ with
  | [] => s
  | e :: l =>
    let s := s.setTds fun d => { d with trigQ := l }
    if s.tds.flooded || decide (s.ob K.TDS_TIDE64 ≠ 0) then (s.decideTrigger s.ns e.1 e.2).settleEdges else s

/-- A copy-in at the front of its channel completes. -/
def State.copyInDone (s : State) (t i : Nat) : State :=
  match s.copyInFront t i with
  | some k => (s.copyInEnd t i k.old).settleEdges
  | none => s

/-! ### The cut -/

/-- Channel 7 reads the output line of this cut: from Q where the line has yet to be copied (R374, R564). -/
def State.cutLine (s : State) : State :=
  let at_ := s.ob K.FIO_OUT_AT % 0x80000
  s.outLineRead (if s.img.cutLines.contains (at_ / 64) ||
      s.img.cutNext.any fun x => x.lines.contains (at_ / 64) then mHead + 0x80000 + at_ else mFrame + at_)

/-- The final pass of a resynchronisation begins at a quiescent cut: event releases are held (R356).
(DEDUCED, unsafe: log 53.) -/
def State.resyncFinal (s : State) : State :=
  if s.red.role = .active ∧ s.red.finalWait = true ∧ s.quiescent = true then s.setTds fun d => { d with hold := true } else s

/-- Lines of Q in the order in which the slack frames that carry them launch, the frames of the trunks in step, and after them the
lines that no frame carries (R189). -/
def State.launchOrder (s : State) (ls : List Nat) : List Nat :=
  let trains := s.trunks.map s.slackFrames
  let depth := (trains.map List.length).foldl Nat.max 0
  let stations := (List.range depth).flatMap fun i => trains.flatMap fun f => f.getD i []
  let carried := (stations.flatMap fun n =>
    if s.outLen n = 0 then [] else qLines (0x80000 + s.outOff n) (s.outLen n)).foldl insertNew []
  carried.filter ls.contains ++ ls.filter fun l => !carried.contains l

/-- A cut's copy begins, or waits for the transmit window that is open (R564). -/
def Img.beginCut (m : Img) (x : CutWait) : Img :=
  { m with
    cutLines := x.lines
    cutAt := x.at_
    cutTide := x.tide
    copyAt := x.copyAt
    copyN := 0
    cutWait := m.txw
    copying := !m.txw
    txw := true }

/-- The copy of a cut has ended: a cut that came meanwhile waits for the window of this one (R564). -/
def Img.copyEnded (m : Img) : Img :=
  let m := { m with copying := false, cutLines := [] }
  match m.cutNext with
  | [] => m
  | x :: l => { m with cutNext := l }.beginCut x

/-- TDS.CUT; one that finds an earlier one's copy unfinished waits behind it (R143, R189, R191, R564).
(DEDUCED, safe: log 30.)
(DEDUCED, unsafe: log 37.) -/
def State.cut (s : State) : State :=
  if s.tideOn ∧ s.tds.flooded = true ∧ s.tds.cutDone = false then
    let s := s.reach (s.phaseAt K.TDS_CUT)
    let s := s.copyProgress
    let late := (s.usedTasks.filter fun t => decide ((s.task t).st = .copyBack)).length
    let s := (s.addOb K.TDS_LATE_PUBLISH late).setOb K.IMG_CUT_LINES s.img.dirty.length
    let s := s.setTds fun t => { t with cutDone := true, lastCut := s.ob K.TDS_TIDE64 + 1 }
    let x : CutWait := { tide := s.ob K.TDS_TIDE, at_ := s.ns, lines := s.launchOrder s.img.dirty,
                         copyAt := s.ns + Config.cutDelay s.fresh % 201 }
    let s := s.draw.setImg fun m => if m.copying || m.cutWait then { m with cutNext := m.cutNext ++ [x] } else m.beginCut x
    (s.cutLine.cutTest.resyncFinal).dmaPhase 2
  else s

/-- ns count at which the copy of the last line ends: 1.25 ns a line (R191). -/
def Img.copyEnd (m : Img) : Nat := m.copyAt + (5 * (m.copyN + m.cutLines.length) + 3) / 4

/-- The copy of the cut's lines ends; operations that waited only for the copy land (R190–R192, R564). -/
def State.cutCopyEnd (s : State) : State :=
  if s.img.copying then
    let at_ := s.img.copyEnd
    let s := (s.reach at_).copyProgress
    let t := at_ - s.img.cutAt
    let s := (s.setOb K.IMG_CUT_TIME t).setOb K.IMG_OUT_DIGEST (xorAll s.outParts)
    let s := (s.sample 0x0301 0 t).setImg Img.copyEnded
    s.outDigestSend.landHeld.settleEdges
  else s

/-- The transmit window's last output frame has left (R190): no slack frame of the window's tide is queued. While a cut waits for
it, those of that cut's tide and of the cuts behind it are not the window's (R564). -/
def State.windowOver (s : State) : Bool :=
  s.img.txw && !s.img.copying && (s.tds.launched || s.img.cutWait || !s.tds.cutDone || !s.tideOn) &&
    (List.range 16).all fun p => (s.queue p).all fun f =>
      decide (f.kind ≠ .slack) || (s.img.cutWait && (decide (f.tide = s.img.cutTide) ||
          s.img.cutNext.any fun x => decide (f.tide = x.tide)))

def State.windowClose (s : State) : State :=
  if s.windowOver then
    if s.img.cutWait then s.setImg fun m => { m with cutWait := false, copying := true, copyAt := Nat.max m.copyAt s.ns }
    else ((s.setImg fun m => { m with txw := false }).landHeld).settleEdges
  else s

/-! ### Launch and slack -/

/-- TDS.LAUNCH (R141, R275).
(DEDUCED, safe: log 30.) -/
def State.launch (s : State) : State :=
  if s.tideOn && s.tds.cutDone && !s.tds.launched then
    let s := (s.reach (s.phaseAt K.TDS_LAUNCH)).setTds fun t => { t with launched := true, phase := 2 }
    (s.slackTrains).dmaPhase 3
  else s

/-- An online change commits at the slack point of this tide (R50). -/
def State.changeHere (s : State) : Bool :=
  (decide (s.olc.st = .committing) || decide (s.olc.st = .retreating)) && s.olc.point &&
    decide (s.ob K.OLC_COMMIT_AT = s.ob K.TDS_TIDE)

/-- The refresh of a slack point: Δ later in the tide in which this partner took the outputs over (R352, R374). -/
def State.slackRefresh (s : State) : State :=
  if s.red.changeTide = some (s.ob K.TDS_TIDE) ∧ 0 < s.red.shift then s.lateRefresh else s.fioRefresh s.grantHeld

/-- TDS.SLACK_PT (R50, R141, R357, R374).
(DEDUCED, safe: log 30.) -/
def State.slackPoint (s : State) : State :=
  if s.tideOn && s.tds.launched && !s.tds.slacked then
    let s := (s.reach (s.phaseAt K.TDS_SLACK_PT)).setTds fun t => { t with slacked := true, swin := true }
    ((((s.txnSlack s.changeHere).txnSettle).slackRefresh).swapClaim.confirmCheck.dmaPhase 4).pumpForces
  else s

/-- P − GUARD (R144); a final pass of a resynchronisation is sent and over (R356).
(DEDUCED, safe: log 30.) -/
def State.slackEnd (s : State) : State :=
  if s.tideOn && s.tds.swin then
    let s := (s.reach s.windowEndAt).setTds fun t => { t with swin := false }
    let s := if s.red.role = .active ∧ s.red.finalWait = true ∧ s.tds.hold = true ∧ s.olc.point = false ∧ s.olc.cand = none then
        (s.finalSend.setRed fun r => { r with finalWait := false, pass := 0 }).releaseHeld false
      else s
    (s.dmaPhase 5).settleEdges
  else s

/-! ### Retained timer blocks (R215) -/

/-- Retained blocks of every Strand, in the order of the round.
(DEDUCED, unsafe: log 38.) -/
def State.retRound (s : State) : List (Nat × Nat) :=
  s.strands.flatMap fun n => (List.range (s.retBlocks n)).map fun b => (n, b)

/-- The block whose turn it is is saved as one transaction, where one still fits the slack window.
(DEDUCED, unsafe: log 38.) -/
def State.retSave (s : State) (n b : Nat) : State :=
  let l := s.retRound
  let i := s.retNext % Nat.max 1 l.length
  if s.tideOn ∧ s.tds.swin = true ∧ l[i]? = some (n, b) ∧ s.domOn dNV = true ∧ s.domOn (dS n) = true then
    let page := s.retBase n + b
    let go := fun (s : State) => { s with retNext := (i + 1) % l.length }
    if s.windowEndAt < s.ns + 3000 then s.incOb (K.TMR_RET_SKIPS n)
    else if 448 ≤ page then go (s.incOb (K.TMR_RET_SKIPS n))
    else
      let (s, ok) := s.bedTxn (stageBytes [] (4096 * page) (s.bytesAt (mTimer n + 4096 * b) 4096))
      if ok then go { s.incOb (K.TMR_RET_SAVES n) with retAt := mput (fun _ => 0) s.retAt (4 * n + b) s.us } else go s
  else s

end Sys2Proof.Machine
end

