-- ==== Sys2Proof/Machine/BackupRows.lean ====
section
/-! DEFINITION. Rows of Bedrock, of the calendar and of the reserve cell that no session commands (R434–R463), and the two
transfers of
dual-copy records. -/

namespace Sys2Proof.Machine

/-! ### Bedrock -/

/-- BDR_COMMIT_APPLIED (R438). -/
def execBdrCommitApplied (s : State) : Host.Outcome State Fault Refusal := .next s.finishApply

/-- REC_DATA_READ (R443). -/
def execRecDataRead (ses : Nat) (s : State) : Host.Outcome State Fault Refusal := .next (s.openDomain ses K.BDR_REC_DATA)

/-- REC_DATA_WRITE (R444). -/
def execRecDataWrite (ses : Nat) (data : List Byte) (s : State) : Host.Outcome State Fault Refusal :=
  .next (s.putDomain ses K.BDR_REC_DATA data)

/-- INHIBIT_CHANGE (R437). -/
def execInhibitChange (level : Bool) (s : State) : Host.Outcome State Fault Refusal :=
  .next (s.setBdr fun b => { b with inhibit := level })

/-- WEAR_SAVE: a device record, met by INHIBIT as any other (R437, R440, R445).
(DEDUCED, unsafe: log 60.) -/
def execWearSave (s : State) : Host.Outcome State Fault Refusal :=
  .next (s.devRecord fun s => s.setBdr fun b => { b with wearSaved := b.wear })

/-- REGION_LOCKOUT_END: DIC.LOCKOUT.WINDOW after the lockout began (R434). -/
def execRegionLockoutEnd (r : Nat) (s : State) : Host.Outcome State Fault Refusal :=
  .next (
    let p := s.regionPath r
    if p.locked then
      (s.reachMono (p.fails.headD 0 + s.ob K.DIC_LOCKOUT_WINDOW * 1000000000)).setRegionPath r Path.init
    else s)

/-! ### The calendar -/

/-- BK_POWER_UP (R453). -/
def execBkPowerUp (ident : List Byte) (s : State) : Host.Outcome State Fault Refusal := .next (s.bkStart ident)

/-- Alarm n fires where the count has reached it; one that fires in SLEEP ends it (R458, R526). -/
def State.alarmRun (s : State) (n : Nat) : State :=
  if s.alarmReached s.cal.count n then (s.alarmFire n).wakeUp else s

/-- A tick of the calendar: the count's update, the alarms it reaches, and a pending SUPPLY_OFF, which an alarm of the same tick
beats (R452, R458, R460).
(DEDUCED, unsafe: log 61.) -/
def State.calTick (s : State) : State :=
  ((s.setCal Cal.update).each [0, 1] State.alarmRun).setCal Cal.supplyTick

/-- CAL_TICK (R452). -/
def execCalTick (s : State) : Host.Outcome State Fault Refusal := .next s.calTick

/-- SHIFT_END (R457). -/
def execShiftEnd (s : State) : Host.Outcome State Fault Refusal :=
  .next (if s.cal.shift = 0 ∧ s.cal.shiftPhase = 8 then s.setCal fun c => { c with shiftPhase := 0 } else s)

/-- CAL_END (R451). -/
def execCalEnd (s : State) : Host.Outcome State Fault Refusal :=
  .next (if s.cal.count = calMax ∧ s.cal.end_ = false then (s.setCal fun c => { c with end_ := true }).raise 0x2B 0 0 0 0 0
    else s)

/-- ALARM_FIRE: the tick at which the count reaches alarm n; no other tick is this row (R458).
(DEDUCED, unsafe: log 61.) -/
def execAlarmFire (n : Nat) (s : State) : Host.Outcome State Fault Refusal :=
  .next (if s.alarmReached s.cal.update.count n then s.calTick else s)

/-- WAKE (R460, R526). -/
def execWake (s : State) : Host.Outcome State Fault Refusal :=
  .next ((s.setCal Cal.assert).incOb K.CAL_WAKES).wakeUp

/-- BACKUP_SUPPLY_CHANGE: a test under way ends when the supply fails (R463, R466). -/
def execBackupSupplyChange (present : Bool) (s : State) : Host.Outcome State Fault Refusal :=
  .next (
    let s := s.setCal fun c => { c with onCell := !present }
    if present then s else s.rsvAbort)

/-! ### The reserve cell -/

/-- RSV_TEST_INTERVAL: every INTERVAL hours, while a test may run (R463). -/
def execRsvTestInterval (s : State) : Host.Outcome State Fault Refusal :=
  .next (if decide (bits (s.ob K.RSV_TEST_CFG) 31 16 ≠ 0) && s.rsv.present && !s.cal.onCell && !s.rsv.testing then
      s.rsvTestStart
    else s)

/-- RSV_TEST_END (R463). -/
def execRsvTestEnd (dv1 dv2 : Nat) (s : State) : Host.Outcome State Fault Refusal := .next (s.rsvTestDone dv1 dv2)

/-- RSV_TEST_ABORT: main backup power has failed, and the cell feeds BK (R463). -/
def execRsvTestAbort (s : State) : Host.Outcome State Fault Refusal :=
  .next (if s.rsv.testing then (s.setCal fun c => { c with onCell := true }).rsvAbort else s)

/-- STRESS_UPDATE (R462). -/
def execStressUpdate (tempC volt : Int) (s : State) : Host.Outcome State Fault Refusal := .next (s.stressMinute tempC volt)

/-- STRESS_SAVE (R462). -/
def execStressSave (s : State) : Host.Outcome State Fault Refusal := .next s.stressDaily

end Sys2Proof.Machine
end

