-- ==== Sys2Proof/Machine/BusCmd.lean ====
section
/-! DEFINITION. Commands of the message bus controllers: each row is one write of the command object by a session, with every
check of R41 and the effect that its rule gives. -/

namespace Sys2Proof.Machine

/-- MBC.CMD START (R387). -/
def execMbcStart (ses k : Nat) (s : State) : Host.Outcome State Fault Refusal := .next (s.setCmd ses (K.MBC_CMD (k + 1)) 1)

/-- MBC.CMD STOP (R387). -/
def execMbcStop (ses k : Nat) (s : State) : Host.Outcome State Fault Refusal := .next (s.setCmd ses (K.MBC_CMD (k + 1)) 2)

/-- MBC.CMD RECOVER (R387). -/
def execMbcRecover (ses k : Nat) (s : State) : Host.Outcome State Fault Refusal := .next (s.setCmd ses (K.MBC_CMD (k + 1)) 3)

/-- MBC.CMD UNLOCK (R394). -/
def execMbcUnlock (ses k : Nat) (s : State) : Host.Outcome State Fault Refusal := .next (s.setCmd ses (K.MBC_CMD (k + 1)) 4)

/-- MBC.RD_POP (R393). -/
def execRdPop (ses k v : Nat) (s : State) : Host.Outcome State Fault Refusal := .next (s.setCmd ses (K.MBC_RD_POP (k + 1)) v)

/-- MBC.TX_REQ (R397). -/
def execTxReq (ses k v : Nat) (s : State) : Host.Outcome State Fault Refusal := .next (s.setCmd ses (K.MBC_TX_REQ (k + 1)) v)

/-- MBC.TX_CANCEL (R399). -/
def execTxCancel (ses k v : Nat) (s : State) : Host.Outcome State Fault Refusal := .next (s.setCmd ses (K.MBC_TX_CANCEL (k + 1)) v)

end Sys2Proof.Machine
end

