-- ==== Sys2Proof/Machine/BusRows.lean ====
section
/-! DEFINITION. Rows of the message bus controllers that no session commands (R386–R400), and their SDO servers with the frames
of CiA 301
(R400, R401). -/

namespace Sys2Proof.Machine

/-- Dictionary session of controller k's server (R401). -/
def sdoSes (k : Nat) : Nat := 416 + k

/-- Status that the session's latest request left in DIC.RESULT. -/
def State.lastStatus (s : State) (n : Nat) : Nat := (s.ses n).result % 256

/-- The object is reached by a domain transfer (R55, R401). -/
def State.isDomain (s : State) (key : Nat) : Bool :=
  match s.rowOf key with
  | some r => decide (r.ty.bits = 0)
  | none => false

/-- The server ends what it had in hand; a domain transfer of the session is given up. -/
def State.sdoClear (s : State) (k : Nat) : State :=
  (s.modMb k fun m => { m with sdo := none, sdoWait := none }).modSes (sdoSes k) fun x => { x with dom := none }

/-- An abort that ends the transfer. -/
def State.sdoStop (s : State) (k key code : Nat) : State := (s.sdoClear k).sdoAbort k key code

/-- A request whose status is known is answered by `ok` or by its abort; one that the engine has still to answer waits. -/
def State.sdoAfter (s s' : State) (k key : Nat) (ack : Option (List Byte)) (v : Nat) (ok : State → State) : State :=
  let n := sdoSes k
  if s.began s' n then s'.modMb k fun m => { m with sdoWait := some (key, ack) }
  else
    let st := s'.lastStatus n
    if st ≠ stOK then s'.sdoStop k key (s'.abortCode key ack.isSome v st) else ok s'

/-! ### Downloads -/

/-- A download whose bytes are all there: a scalar of exactly its width, or a domain's contents; ack answers one that is accepted
(R401). -/
def State.sdoStore (s : State) (k key : Nat) (b ack : List Byte) : State :=
  let n := sdoSes k
  let ok := fun (s : State) => s.sdoSend k ack
  if s.isDomain key then s.sdoAfter ((s.xferPut n 0 b).setCmd n K.DIC_DOM_CLOSE 1) k key (some ack) 0 ok
  else
    let w := match s.rowOf key with
      | some r => if r.ty.bits = 8 * b.length then b.length else 0
      | none => b.length
    s.sdoAfter (s.dictWrite n key 0 w (leNat b)) k key (some ack) (leNat b) ok

/-- A write transfer for a domain download; scalars need none. -/
def State.sdoOpenDown (s : State) (k key : Nat) : State :=
  if s.isDomain key then
    s.setCmd (sdoSes k) K.DIC_DOM_OPEN (key / 256 * 2 ^ 32 + key % 256 * 2 ^ 24 + 2 * 2 ^ 16)
  else s

/-- Initiate download: expedited, or the start of segments. -/
def State.sdoDown (s : State) (k key cmd : Nat) (d : List Byte) : State :=
  let opened := s.sdoOpenDown k key
  if s.isDomain key && decide (opened.lastStatus (sdoSes k) ≠ stOK) then
    opened.sdoStop k key (opened.abortCode key true 0 (opened.lastStatus (sdoSes k)))
  else if bit cmd 1 then
    opened.sdoStore k key (d.take (if bit cmd 0 then 4 - bits cmd 3 2 else 4)) (sdoDownAck key)
  else
    (opened.modMb k fun m => { m with
      sdo := some { key := key, down := true, toggle := false, data := [] }
      sdoAt := s.ntm.mono }).sdoSend k (sdoDownAck key)

/-- The session's transfer still stands for a domain in hand (R55). -/
def State.sdoXferOk (s : State) (k : Nat) (x : SdoXfer) : Bool :=
  !s.isDomain x.key || (match (s.ses (sdoSes k)).dom with
    | some d => decide (d.key = x.key) && d.write == x.down
    | none => false)

/-- A segment's answer: its command byte with the toggle. -/
def segAck (base : Nat) (x : SdoXfer) : List Byte := leBytes 1 (base + 16 * b2n x.toggle)

/-- Download segment. -/
def State.sdoDownSeg (s : State) (k : Nat) (x : SdoXfer) (cmd : Nat) (d : List Byte) : State :=
  let y := { x with
    toggle := !x.toggle
    data := x.data ++ d.take (7 - bits cmd 3 1) }
  let next := s.modMb k fun m => { m with sdo := some y, sdoAt := s.ntm.mono }
  if bit cmd 0 then
    (s.modMb k fun m => { m with sdo := none }).sdoStore k x.key y.data (segAck 0x20 x)
  else next.sdoSend k (segAck 0x20 x)

/-! ### Uploads -/

/-- Initiate upload: the scalar's bytes at its width, or the domain's contents as they stand now.
(PRESUMED, unsafe: log 56.) -/
def State.sdoUpload (s : State) (k key : Nat) : State :=
  let n := sdoSes k
  if s.isDomain key then
    s.sdoAfter (s.openDomain n key) k key none 0 fun s =>
      let b := match (s.ses n).dom with
        | some x => s.xferBytes n x
        | none => []
      let s := if 1 ≤ b.length ∧ b.length ≤ 4 then s.modSes n fun x => { x with dom := none } else s
      s.sdoUp k key b
  else
    let (s', v) := s.dictRead n key
    s.sdoAfter s' k key none 0 fun s =>
      let w := match s.rowOf key with
        | some r => r.ty.bits / 8
        | none => 8
      s.sdoUp k key (leBytes w v)

/-- Upload segment: up to seven bytes, the last one marked. -/
def State.sdoUpSeg (s : State) (k : Nat) (x : SdoXfer) : State :=
  let b := x.data.take 7
  let rest := x.data.drop 7
  let head := leBytes 1 (16 * b2n x.toggle + 2 * (7 - b.length) + b2n rest.isEmpty)
  let s := if rest.isEmpty then s.sdoClear k
    else s.modMb k fun m => { m with
      sdo := some { x with toggle := !x.toggle, data := rest }
      sdoAt := s.ntm.mono }
  s.sdoSend k (head ++ b)

/-! ### The server -/

/-- A segment request that the transfer in hand does not match.
(PRESUMED, unsafe: log 56.) -/
def State.sdoSegment (s : State) (k cmd : Nat) (down : Bool) (f : SdoXfer → State) : State :=
  match (s.mb k).sdo with
  | none => s.sdoStop k 0 0x05040001
  | some x =>
    if x.down ≠ down then s.sdoStop k x.key 0x05040001
    else if x.toggle ≠ bit cmd 4 then s.sdoStop k x.key 0x05030000
    else if !s.sdoXferOk k x then s.sdoStop k x.key (abortBase stSTATE)
    else f x

/-- One request frame of eight bytes: the command in bits 7–5 of its first byte.
(PRESUMED, unsafe: log 56.) -/
def State.sdoServe (s : State) (k : Nat) (d : List Byte) : State :=
  let cmd := leAt d 0 1
  let key := leAt d 1 2 * 256 + leAt d 3 1
  match bits cmd 7 5 with
  | 0 => s.sdoSegment k cmd true fun x => s.sdoDownSeg k x cmd (slice d 1 7)
  | 1 => (s.sdoClear k).sdoDown k key cmd (slice d 4 4)
  | 2 => (s.sdoClear k).sdoUpload k key
  | 3 => s.sdoSegment k cmd false fun x => s.sdoUpSeg k x
  | 4 => s.sdoClear k
  | _ => s.sdoStop k key 0x05040001

/-- A frame arrives: stored under the rules, or taken by the server (R392, R400). -/
def State.canArrive (s : State) (k : Nat) (f : CanFrame) (stamp : Nat) : State :=
  let run := decide (k < 4) && decide ((s.mb k).mode = .run)
  let s' := if k < 4 then s.canReceive k f stamp else s
  if run && s.sdoTakes k f then s'.sdoServe k f.data else s'

/-- The frame that carries a request to controller k's server. -/
def State.sdoFrame (s : State) (k : Nat) (d : List Byte) : CanFrame :=
  { ext := false, id := 0x600 + bits (s.ob (K.MBC_SDO (k + 1))) 6 0, remote := false, fd := false, switch := false,
    passive := false, dlc := 8, data := slice d 0 8, res := false }

/-- BUS_IDLE_DETECT; in RUN a transmit error count above 255 is BUS_OFF (R387). -/
def execBusIdleDetect (k : Nat) (s : State) : Host.Outcome State Fault Refusal :=
  .next (if (s.mb k).starting = true ∧ (s.mb k).mode = .config then
      (s.modMb k fun m => { m with starting := false, mode := .run }).busOffCheck k
    else s)

/-- BUS_RECOVERED (R387). -/
def execBusRecovered (k : Nat) (s : State) : Host.Outcome State Fault Refusal :=
  .next (if (s.mb k).mode = .recovering then s.modMb k fun m => { m with mode := .run, tec := 0, recCnt := 0 } else s)

/-- CAN_FRAME_RECEIVE (R391, R392, R400). -/
def execCanFrameReceive (k : Nat) (f : CanFrame) (stamp : Nat) (s : State) : Host.Outcome State Fault Refusal :=
  .next (s.canArrive k f stamp)

/-- CAN_RX_ERROR; an error is one of the six that LEC names (R386, R404). -/
def execCanRxError (k lec : Nat) (s : State) : Host.Outcome State Fault Refusal :=
  .next (if (s.mb k).mode = .run ∧ lecOk lec = true then s.rxError k lec else s)

/-- SDO_REQUEST (R400). -/
def execSdoRequest (k : Nat) (data : List Byte) (s : State) : Host.Outcome State Fault Refusal :=
  .next (s.canArrive k (s.sdoFrame k data) s.ns)

/-- SDO_TIMEOUT: MBC.SDO.TIMEOUT ms after the latest segment (R400). -/
def execSdoTimeout (k : Nat) (s : State) : Host.Outcome State Fault Refusal :=
  .next (match (s.mb k).sdo with
    | none => s
    | some x => (s.reachMono ((s.mb k).sdoAt + bits (s.ob (K.MBC_SDO (k + 1))) 31 16 * 1000000)).sdoStop k x.key 0x05040000)

/-- RD_LAST_WORD_READ: a read of the window word that ends the frame (R393, R394). -/
def execRdLastWordRead (ses k : Nat) (s : State) : Host.Outcome State Fault Refusal :=
  .next (match (s.mb k).win with
    | none => s
    | some x => (s.dictRead ses ((0x3810 + x.lastWord) * 256 + (k + 1))).1)

/-- TX_START_OF_FRAME (R397). -/
def execTxStartOfFrame (k : Nat) (s : State) : Host.Outcome State Fault Refusal := .next (s.txStart k)

/-- The data of a request of its own to the server that the attempt in progress carries in internal loopback (R391, R400). -/
def State.loopRequest (s : State) (k : Nat) (r : TxEnd) : Option (List Byte) :=
  match (s.mb k).cur, r with
  | some b, .success =>
    if b ≠ 3 ∧ cfgTest (s.mbCfg k) = 2 ∧ s.sdoTakes k (s.txFrame k b) = true then some (s.txFrame k b).data else none
  | _, _ => none

/-- TX_ATTEMPT_END (R398); in internal loopback the server takes a request of the controller's own (R391, R400). -/
def execTxAttemptEnd (k : Nat) (r : TxEnd) (s : State) : Host.Outcome State Fault Refusal :=
  .next (match s.loopRequest k r with
    | some d => (let t := s.txEnd k r; if (t.mb k).mode = .run then t.sdoServe k d else t)
    | none => s.txEnd k r)

end Sys2Proof.Machine
end

