-- ==== Sys2Proof/Machine/ChangeRows.lean ====
section
/-! DEFINITION. Rows of online change and of the start sequence that no session commands (R236–R256, R533). -/

namespace Sys2Proof.Machine

/-- VERIFY_DONE (R236). -/
def execVerifyDone (s : State) : Host.Outcome State Fault Refusal := .next s.verifyDone

/-- PREPARE_VOTE: a Strand votes by its own checks, the partner (die 0) by its answer (R237, R245). -/
def execPrepareVote (die : Nat) (yes : Bool) (s : State) : Host.Outcome State Fault Refusal :=
  .next (s.prepareVote die yes).olcReply

/-- NO_QUIESCE (R239). -/
def execNoQuiesce (s : State) : Host.Outcome State Fault Refusal := .next s.noQuiesce

/-- BANK_SWITCH (R240). -/
def execBankSwitch (strand : Nat) (s : State) : Host.Outcome State Fault Refusal := .next (s.bankSwitch strand)

/-- BANK_CONFIRM (R241). -/
def execBankConfirm (strand : Nat) (s : State) : Host.Outcome State Fault Refusal := .next (s.bankConfirm strand)

/-- CONFIRM_LOST (R243). -/
def execConfirmLost (strand : Nat) (s : State) : Host.Outcome State Fault Refusal := .next (s.confirmLost strand)

/-- OLC_COMPLETION (R241). -/
def execOlcCompletion (s : State) : Host.Outcome State Fault Refusal := .next s.olcComplete.settleEdges

/-- CUT_TIDE_RECEIVE (R245). -/
def execCutTideReceive (tide : Nat) (s : State) : Host.Outcome State Fault Refusal := .next (s.cutTide tide)

/-- STANDBY_VOTE_RECEIVE (R245). -/
def execStandbyVoteReceive (tide : Nat) (yes : Bool) (s : State) : Host.Outcome State Fault Refusal :=
  .next (s.standbyVote tide yes).settleEdges

/-- STANDBY_VOTE_LATE (R245). -/
def execStandbyVoteLate (s : State) : Host.Outcome State Fault Refusal := .next s.standbyLate.settleEdges

/-- PARTNER_COMMIT_TOKEN (R245). -/
def execPartnerCommitToken (tide : Nat) (s : State) : Host.Outcome State Fault Refusal := .next (s.partnerToken tide)

/-- COMMIT_TOKEN_MISSING (R246). -/
def execCommitTokenMissing (s : State) : Host.Outcome State Fault Refusal := .next s.tokenMissing

/-- PARTNER_PREPARE_RECEIVE (R245). -/
def execPartnerPrepareReceive (hash : List Byte) (s : State) : Host.Outcome State Fault Refusal := .next (s.partnerPrepare hash)

/-- PARTNER_DISCARD_TOKEN (R242). -/
def execPartnerDiscardToken (s : State) : Host.Outcome State Fault Refusal := .next s.partnerDiscard.settleEdges

/-- RESET_RELEASE: the start sequence begins with what the self-test and the boot flashes give it (R248, R533).
(DESIGN CHOICE, safe: log 6.)
(DESIGN CHOICE, unsafe: log 9.)
(DESIGN CHOICE, safe: log 42.) -/
def execResetRelease (bistOk : Bool) (flash0 flash1 : List Byte) (s : State) : Host.Outcome State Fault Refusal :=
  .next (if s.str.step = 1 then
      (s.setStr fun r => { r with
        bistOk := bistOk
        flash0 := flash0
        flash1 := flash1 }).startRun false
    else s)

/-- TIME_WAIT_EXPIRY (R251). -/
def execTimeWaitExpiry (s : State) : Host.Outcome State Fault Refusal := .next s.timeExpired.txnSettle

/-- START_CONFIRM (R254). -/
def execStartConfirm (s : State) : Host.Outcome State Fault Refusal := .next s.startConfirm

/-- SEC_PROVISION (R259, R261). -/
def execSecProvision (ses : Nat) (data : List Byte) (s : State) : Host.Outcome State Fault Refusal :=
  .next (s.putDomain ses K.SEC_PROVISION data)

end Sys2Proof.Machine
end

