-- ==== Sys2Proof/Machine/Float.lean ====
section
/-! DEFINITION. Binary floating point as R120 takes it from IEEE 754-2019: values, rounding, arithmetic, compares and
conversions over binary32 and binary64, each with the exceptions it raises in the bit positions of STATUS (R67). -/

namespace Sys2Proof.Machine

/-- Bits of STATUS that floating point sets (R67). -/
def flNV : Nat := 0x04
def flDZ : Nat := 0x08
def flOF : Nat := 0x10
def flUF : Nat := 0x20
def flNX : Nat := 0x40

/-- A format: precision with the hidden bit, and exponent bits. -/
structure Fmt where
  p : Nat
  w : Nat
  deriving DecidableEq, Repr

def f32 : Fmt := { p := 24, w := 8 }
def f64 : Fmt := { p := 53, w := 11 }

def Fmt.bias (f : Fmt) : Nat := 2 ^ (f.w - 1) - 1

/-- Exponent of the unit in the last place of a subnormal number. -/
def Fmt.low (f : Fmt) : Int := 2 - (f.bias : Int) - f.p

/-- The sign bit's weight. -/
def Fmt.sign (f : Fmt) : Nat := 2 ^ (f.p + f.w - 1)

/-- Infinity of a sign. -/
def Fmt.inf (f : Fmt) (s : Bool) : Nat := b2n s * f.sign + (2 ^ f.w - 1) * 2 ^ (f.p - 1)

/-- The default quiet NaN (R120). -/
def Fmt.nan (f : Fmt) : Nat := (2 ^ f.w - 1) * 2 ^ (f.p - 1) + 2 ^ (f.p - 2)

def Fmt.zero (f : Fmt) (s : Bool) : Nat := b2n s * f.sign

/-- What bits of a format stand for: a finite value is its significand times a power of two. -/
inductive FVal where
  | nan (signalling : Bool)
  | inf (s : Bool)
  | fin (s : Bool) (m : Nat) (e : Int)
  deriving DecidableEq, Repr

def Fmt.decode (f : Fmt) (v : Nat) : FVal :=
  let s := v.testBit (f.p + f.w - 1)
  let e := v / 2 ^ (f.p - 1) % 2 ^ f.w
  let m := v % 2 ^ (f.p - 1)
  if e = 2 ^ f.w - 1 then (if m = 0 then .inf s else .nan (!m.testBit (f.p - 2)))
  else if e = 0 then .fin s m f.low
  else .fin s (m + 2 ^ (f.p - 1)) (f.low + (e - 1 : Nat))

/-- The modes of FPCR: to nearest even, toward zero, toward +∞, toward −∞ (R66). Whether a magnitude goes up, from its
sign, its last bit, and how its remainder compares with half a unit. -/
def roundUp (rm : Nat) (s odd : Bool) (rem half : Nat) : Bool :=
  match rm with
  | 0 => decide (half < rem) || (decide (rem = half) && odd)
  | 1 => false
  | 2 => decide (rem ≠ 0) && !s
  | _ => decide (rem ≠ 0) && s

/-- m × 2^e to a multiple of 2^q: the multiple, and whether it is exact. -/
def toUnit (rm : Nat) (s : Bool) (m : Nat) (e q : Int) : Nat × Bool :=
  if q ≤ e then (m * 2 ^ (e - q).toNat, true)
  else
    let d := (q - e).toNat
    let k := m / 2 ^ d
    let r := m % 2 ^ d
    (if roundUp rm s (k.testBit 0) r (2 ^ (d - 1)) then k + 1 else k, decide (r = 0))

/-- A non-zero magnitude m × 2^e rounded into a format, with its exceptions.
(DESIGN CHOICE, safe: log 19.) -/
def Fmt.round (f : Fmt) (rm : Nat) (s : Bool) (m : Nat) (e : Int) : Nat × Nat :=
  let len : Int := (Nat.log2 m + 1 : Nat)
  let q := max (e + len - f.p) f.low
  let (k, exact) := toUnit rm s m e q
  let b := (q - f.low).toNat * 2 ^ (f.p - 1) + k
  let norm := f.low + f.p - 1
  let q' := e + len - f.p
  let after := (toUnit rm s m e q').1
  let tiny := if Config.tinyAfter then decide (q' + (Nat.log2 after : Nat) < norm) else decide (e + len - 1 < norm)
  if (2 ^ f.w - 1) * 2 ^ (f.p - 1) ≤ b then
    (if rm = 0 ∨ (rm = 2 ∧ s = false) ∨ (rm = 3 ∧ s = true) then f.inf s else f.inf s - 1, flOF + flNX)
  else (b2n s * f.sign + b, if exact then 0 else flNX + (if tiny then flUF else 0))

/-- A NaN operand: the default NaN, invalid where it signals. -/
def Fmt.quiet (f : Fmt) (a b : FVal) : Nat × Nat :=
  (f.nan, if a = .nan true ∨ b = .nan true then flNV else 0)

/-- An invalid operation. -/
def Fmt.invalid (f : Fmt) : Nat × Nat := (f.nan, flNV)

def Fmt.add (f : Fmt) (rm : Nat) (a b : FVal) : Nat × Nat :=
  match a, b with
  | .nan _, _ => f.quiet a b
  | _, .nan _ => f.quiet a b
  | .inf s, .inf t => if s = t then (f.inf s, 0) else f.invalid
  | .inf s, _ => (f.inf s, 0)
  | _, .inf t => (f.inf t, 0)
  | .fin s m e, .fin t n g =>
    let q := min e g
    let x : Int := (m * 2 ^ (e - q).toNat : Nat)
    let y : Int := (n * 2 ^ (g - q).toNat : Nat)
    let z := (if s then -x else x) + (if t then -y else y)
    if z = 0 then (f.zero (if s = t then s else decide (rm = 3)), 0)
    else f.round rm (decide (z < 0)) z.natAbs q

/-- The value with its sign changed: subtraction adds it. -/
def FVal.neg : FVal → FVal
  | .nan q => .nan q
  | .inf s => .inf (!s)
  | .fin s m e => .fin (!s) m e

def Fmt.mul (f : Fmt) (rm : Nat) (a b : FVal) : Nat × Nat :=
  match a, b with
  | .nan _, _ => f.quiet a b
  | _, .nan _ => f.quiet a b
  | .inf s, .inf t => (f.inf (s != t), 0)
  | .inf s, .fin t n _ => if n = 0 then f.invalid else (f.inf (s != t), 0)
  | .fin s m _, .inf t => if m = 0 then f.invalid else (f.inf (s != t), 0)
  | .fin s m e, .fin t n g =>
    if m * n = 0 then (f.zero (s != t), 0) else f.round rm (s != t) (m * n) (e + g)

def Fmt.div (f : Fmt) (rm : Nat) (a b : FVal) : Nat × Nat :=
  match a, b with
  | .nan _, _ => f.quiet a b
  | _, .nan _ => f.quiet a b
  | .inf _, .inf _ => f.invalid
  | .inf s, .fin t _ _ => (f.inf (s != t), 0)
  | .fin s _ _, .inf t => (f.zero (s != t), 0)
  | .fin s m e, .fin t n g =>
    if n = 0 then (if m = 0 then f.invalid else (f.inf (s != t), flDZ))
    else if m = 0 then (f.zero (s != t), 0)
    else
      let k := f.p + 3 + Nat.log2 n
      let x := m * 2 ^ k
      f.round rm (s != t) (2 * (x / n) + b2n (decide (x % n ≠ 0))) (e - g - (k : Int) - 1)

/-- Integer square root of a number below 4^w, highest bit first. -/
def isqrtDown (w n : Nat) : Nat :=
  (List.range w).foldl (fun r i => let t := r + 2 ^ (w - 1 - i); if t * t ≤ n then t else r) 0

def Fmt.sqrt (f : Fmt) (rm : Nat) (a : FVal) : Nat × Nat :=
  match a with
  | .nan _ => f.quiet a a
  | .inf s => if s then f.invalid else (f.inf false, 0)
  | .fin s m e =>
    if m = 0 then (f.zero s, 0)
    else if s then f.invalid
    else
      let k := 2 * (f.p + 2) + (if e % 2 = 0 then 0 else 1)
      let x := m * 2 ^ k
      let r := isqrtDown (2 * f.p + 4) x
      f.round rm false (2 * r + b2n (decide (r * r ≠ x))) ((e - (k : Int)) / 2 - 1)

/-- A finite value as a whole number of the smallest unit of binary64. -/
def FVal.scaled : FVal → Int
  | .fin s m e => let x : Int := (m * 2 ^ (e - f64.low).toNat : Nat); if s then -x else x
  | _ => 0

/-- Order of two numbers: less, equal; neither with a NaN. -/
def FVal.lt (a b : FVal) : Bool :=
  match a, b with
  | .nan _, _ => false
  | _, .nan _ => false
  | .inf s, .inf t => s && !t
  | .inf s, .fin _ _ _ => s
  | .fin _ _ _, .inf t => !t
  | .fin _ _ _, .fin _ _ _ => decide (a.scaled < b.scaled)

def FVal.eq (a b : FVal) : Bool :=
  match a, b with
  | .nan _, _ => false
  | _, .nan _ => false
  | .inf s, .inf t => s == t
  | .inf _, .fin _ _ _ => false
  | .fin _ _ _, .inf _ => false
  | .fin _ _ _, .fin _ _ _ => decide (a.scaled = b.scaled)

def FVal.isNan : FVal → Bool
  | .nan _ => true
  | _ => false

/-- To a signed 32-bit integer (R121). -/
def FVal.toInt (rm : Nat) (a : FVal) : Nat × Nat :=
  match a with
  | .nan _ => (0, flNV)
  | .inf s => (if s then 0x80000000 else 0x7FFFFFFF, flNV)
  | .fin s m e =>
    let (k, exact) := toUnit rm s m e 0
    let i : Int := if s then -(k : Int) else k
    if i < -(2 ^ 31 : Nat) then (0x80000000, flNV)
    else if (2 ^ 31 : Nat) ≤ i then (0x7FFFFFFF, flNV)
    else (ofS 32 i, if exact then 0 else flNX)

/-- From a signed integer. -/
def Fmt.ofInt (f : Fmt) (rm : Nat) (i : Int) : Nat × Nat :=
  if i = 0 then (0, 0) else f.round rm (decide (i < 0)) i.natAbs 0

/-- Into another format.
(DEDUCED, unsafe: log 17.) -/
def Fmt.convert (f : Fmt) (rm : Nat) (a : FVal) : Nat × Nat :=
  match a with
  | .nan _ => f.quiet a a
  | .inf s => (f.inf s, 0)
  | .fin s m e => if m = 0 then (f.zero s, 0) else f.round rm s m e

end Sys2Proof.Machine
end

