-- ==== Sys2Proof/Machine/Operands.lean ====
section
/-! DEFINITION. The encoding rules of R75–R80 as one form for each instruction, its operands (R79, R104–R106), and the
addresses it forms (R81–R84, R109). -/

namespace Sys2Proof.Machine

/-! ### Forms -/

/-- What a register field names: nothing, so that it must be 0; a general register that holds data; a floating-point
register; a special register. A memory operand's rb is a base register whatever the form says. -/
inductive Use where
  | zero | data | fp | special
  deriving DecidableEq, Repr

/-- Operand modes, opcode length, implicit immediate and marks of one instruction (R78, R79, R105). -/
structure Form where
  /-- The opcode: O1 of one byte with rb 0, or O1 × 256 + O2 with rb 0 (R78). -/
  op : Nat
  ams : List Nat
  /-- Bytes of the implicit immediate. -/
  imm : Nat
  wide : Bool
  rpt : Bool
  mod : Bool
  z : Bool
  /-- WIDE pairs the general registers that hold data (R77); not in rows 0xE6 and 0xE7 (R106). -/
  pairs : Bool
  ra : Use
  rb : Use
  /-- rb under IMM8 and IMM32. -/
  rbImm : Use
  /-- The immediate is a bit number (R124). -/
  bitNo : Bool
  deriving DecidableEq, Repr

/-- A form with no marks, operand modes REG. -/
def Form.base : Form :=
  { op := 0, ams := [0], imm := 0, wide := false, rpt := false, mod := false, z := false, pairs := true,
    ra := .data, rb := .data, rbImm := .data, bitNo := false }

def amMem : List Nat := [4, 5, 6, 7]

/-- ALU form (R104): WIDE allowed where the table marks it, Z where it zero-extends. -/
def formAlu (wide z : Bool) : Form := { Form.base with ams := [0, 1, 2, 3], wide := wide, z := z }

/-- Unary form: REG only. -/
def formUnary : Form := { Form.base with wide := true }

/-- MOV: REG, or an immediate with rb g0. -/
def formMov : Form := { Form.base with ams := [0, 2, 3], wide := true, rbImm := .zero }

/-- LD, ST, LDX and STX. -/
def formLd : Form := { Form.base with ams := amMem, wide := true, mod := true }

/-- BNZ. -/
def formBnz : Form := { Form.base with ams := amMem }

/-- Row 0xE4: the four memory modes with M. -/
def formNarrow : Form := { Form.base with ams := amMem, mod := true }

/-- BZ and DBNZ. -/
def formBranch : Form := { Form.base with ams := amMem }

/-- BR and CALL: ra must be g0. -/
def formJump : Form := { formBranch with ra := .zero }

/-- Instructions without operands: REG, ra and rb g0, with an implicit immediate of n bytes. -/
def formNone (n : Nat) : Form := { Form.base with imm := n, ra := .zero, rb := .zero, z := true }

/-- Row 0xE6 with two operands. -/
def formFloat : Form := { Form.base with ams := [0, 1], wide := true, pairs := false, ra := .fp, rb := .fp }

/-- Row 0xE6 with one operand, and FCVT. -/
def formFloat1 : Form := { formFloat with ams := [0] }

/-- FCEQ, FCLT and FCLE: REG3, result in a general register. -/
def formFcmp : Form := { formFloat with ams := [1], ra := .data }

def formFtoi : Form := { formFloat1 with ra := .data }

def formItof : Form := { formFloat1 with rb := .data }

/-- FLD: memory, or IMM32 with rb g0. -/
def formFld : Form := { formFloat with ams := amMem ++ [3], mod := true, rbImm := .zero }

def formFst : Form := { formFloat with ams := amMem, mod := true }

/-- Row 0xE8: REG with R and M. -/
def formString (wide : Bool) (ra rb : Use) : Form :=
  { Form.base with wide := wide, rpt := true, mod := true, ra := ra, rb := rb }

/-- Row 0xE9, EDGR and EDGF: a bit operand. -/
def formBit : Form := { Form.base with ams := amMem, imm := 1, bitNo := true }

def formGatb : Form := { Form.base with ams := amMem, imm := 2 }

def formRung : Form := { Form.base with imm := 2 }

/-- Row 0xEB. -/
def formTimer (ra : Use) : Form := { Form.base with ams := amMem, ra := ra }

/-- MFS and MTS. -/
def formSpecial : Form := { Form.base with rb := .special }

/-! ### The opcode map (R78) -/

/-- A reserved row, or an empty column: no operand mode is allowed, so every encoding of it is ILLEGAL (R80). -/
def formReserved : Form := { Form.base with ams := [] }

/-- O1[7:5] 0 to 6: LD, ST, MOV, ADD, LDX, STX, BNZ (R108). -/
def row1 : List Form := [formLd, formLd, formMov, formAlu true false, formLd, formLd, formBnz]
/-- SUB, NEG, MUL, MULH, DIV, DIVU, REM, REMU (R110). -/
def rowE0 : List Form := [formAlu true false, formUnary, formAlu true false, formAlu false false, formAlu true false,
  formAlu true false, formAlu true false, formAlu true false]
/-- AND, OR, XOR, ANDN, NOT, SHL, SHR, SAR (R112). -/
def rowE1 : List Form := [formAlu true true, formAlu true true, formAlu true true, formAlu true true, formUnary,
  formAlu true true, formAlu true true, formAlu true true]
/-- ADDS, SUBS, ABS, ABSS, MIN, MAX, ROL, ROR (R113). -/
def rowE2 : List Form := [formAlu true false, formAlu true false, formUnary, formUnary, formAlu true false, formAlu true false,
  formAlu true true, formAlu true true]
/-- CEQ, CLT, CLE, CLTU, CLEU, TST, COVA, COVS (R114). -/
def rowE3 : List Form := [formAlu true false, formAlu true false, formAlu true false, formAlu true false, formAlu true false,
  formAlu true true, formAlu true false, formAlu true false]
/-- LDB, LDBU, LDH, LDHU, STB, STH, LEA, XCHG (R115). -/
def rowE4 : List Form := List.replicate 8 formNarrow
/-- BZ, BR, CALL, RET, DBNZ, SWTRAP (R117). -/
def rowE5 : List Form := [formBranch, formJump, formJump, formNone 0, formBranch, formNone 1]
/-- FADD, FSUB, FMUL, FDIV, FSQRT, FMOV, FNEG, FABS (R118). -/
def rowE6 : List Form := [formFloat, formFloat, formFloat, formFloat, formFloat1, formFloat1, formFloat1, formFloat1]
/-- FCEQ, FCLT, FCLE, FTOI, ITOF, FCVT, FLD, FST (R119). -/
def rowE7 : List Form := [formFcmp, formFcmp, formFcmp, formFtoi, formItof, formFloat1, formFld, formFst]
/-- MOVB, MOVH, MOVW, FILLW, SCANW, CMPW (R122). -/
def rowE8 : List Form := [formString false .zero .zero, formString false .zero .zero, formString true .zero .zero,
  formString true .data .zero, formString false .data .data, formString false .data .zero]
/-- BLD, BST, BSET, BRST, BAND, BOR, BANDN, BORN (R125). -/
def rowE9 : List Form := List.replicate 8 formBit
/-- GATB, RUNG, EDGR, EDGF (R128). -/
def rowEA : List Form := [formGatb, formRung, formBit, formBit]
/-- TON, TOF, TP, TRST, TRD, CNT64 (R132). -/
def rowEB : List Form := [formTimer .data, formTimer .data, formTimer .data, formTimer .zero, formTimer .data, formTimer .data]
/-- SYNC.W, FENCE, MFS, MTS, NOP, END, CHKIN, SIGNAL (R135). -/
def rowEC : List Form := [formNone 0, formNone 0, formSpecial, formSpecial, formNone 0, formNone 0, formNone 0, formNone 1]

/-- Rows 0xE0 to 0xEC. -/
def opRows : List (List Form) :=
  [rowE0, rowE1, rowE2, rowE3, rowE4, rowE5, rowE6, rowE7, rowE8, rowE9, rowEA, rowEB, rowEC]

/-- The form of an opcode (R78): O1[7:5], or row O1[3:0] and column O2[7:5]. -/
def formOf (op : Nat) : Form :=
  let f := if op < 256 then row1.getD (op / 32) formReserved
    else (opRows.getD (op / 256 - 0xE0) []).getD (op % 256 / 32) formReserved
  { f with op := op }

end Sys2Proof.Machine

namespace Sys2Proof

/-! ### Prefixes (R76) -/

def Enc.wide (e : Enc) : Bool := e.pfx.contains 0xF8
def Enc.rpt (e : Enc) : Bool := e.pfx.contains 0xF9
def Enc.npb (e : Enc) : Bool := e.pfx.contains 0xFA
def Enc.npe (e : Enc) : Bool := e.pfx.contains 0xFB
/-- Pair of a MOD prefix. -/
def Enc.mods (e : Enc) : Option Nat := (e.pfx.find? fun b => decide (0xF0 ≤ b) && decide (b ≤ 0xF3)).map (· - 0xF0)
/-- Pair of a BRV prefix. -/
def Enc.brv (e : Enc) : Option Nat := (e.pfx.find? fun b => decide (0xF4 ≤ b) && decide (b ≤ 0xF7)).map (· - 0xF4)
/-- A memory operand mode. -/
def Enc.isMem (e : Enc) : Bool := decide (4 ≤ e.am)
/-- rc of REG3 (R79). -/
def Enc.rc (e : Enc) : Nat := e.imm % 32

/-- Width of data in bits: 64 under WIDE. -/
def Enc.w (e : Enc) : Nat := if e.wide then 64 else 32

end Sys2Proof

namespace Sys2Proof.Machine

/-- Class of a prefix byte; none where it is reserved. -/
def pfxClass (b : Nat) : Option Nat :=
  if 0xF0 ≤ b ∧ b ≤ 0xF7 then some 0
  else if b = 0xF8 then some 1
  else if b = 0xF9 then some 2
  else if b = 0xFA ∨ b = 0xFB then some 3
  else none

/-! ### Length and legality -/

def dispLen (am : Nat) : Nat := match am with | 5 => 1 | 6 => 2 | 7 => 4 | _ => 0

def Form.immLen (f : Form) (am : Nat) : Nat := match am with | 1 => 1 | 2 => 1 | 3 => 4 | _ => f.imm

/-- Bytes of an instruction (R75, R79). -/
def Form.length (f : Form) (e : Enc) : Nat :=
  e.pfx.length + (if f.op < 256 then 1 else 2) + 1 + dispLen e.am + f.immLen e.am

/-- Prefixes known, one of a class at most, and each allowed on the instruction (R76, R80, R105). -/
def Form.pfxOk (f : Form) (e : Enc) : Bool :=
  let cl := e.pfx.map pfxClass
  cl.all Option.isSome && decide cl.Nodup &&
    (!cl.contains (some 0) || (f.mod && (e.isMem || f.rpt))) && (!e.wide || f.wide) && (!e.rpt || f.rpt)

/-- A register field as its use wants it (R65, R77, R80, R106). -/
def Use.ok (u : Use) (pair : Bool) (r : Nat) : Bool :=
  match u with
  | .zero => decide (r = 0)
  | .data => decide (r < 32) && (!pair || (decide (r % 2 = 0) && decide (2 ≤ r) && decide (r ≤ 28)))
  | .fp => decide (r < 16)
  | .special => decide (r ≤ 25)

/-- None of the cases of R80. -/
def Form.legal (f : Form) (e : Enc) : Bool :=
  let pair := e.wide && f.pairs
  f.pfxOk e && f.ams.contains e.am && f.ra.ok pair e.ra &&
    (if e.isMem then decide (e.rb < 32)
     else if e.am = 2 ∨ e.am = 3 then f.rbImm.ok pair e.rb
     else f.rb.ok pair e.rb) &&
    (decide (e.am ≠ 1) || (decide (e.imm < 32) && f.rb.ok pair e.rc)) &&
    (!f.bitNo || decide (e.imm < 8)) && decide (f.length e ≤ 15)

/-! ### Encoded bytes (R75–R79) -/

/-- The opcode and rb that bytes begin with, and the bytes after them. -/
def opOf : List Byte → Nat × Nat × List Byte
  | [] => (0xED00, 0, [])
  | a :: t =>
    if a.toNat < 0xE0 then (a.toNat / 32 * 32, a.toNat % 32, t)
    else
      let b := (t.headD 0).toNat
      (a.toNat * 256 + b / 32 * 32, b % 32, t.tail)

/-- The instruction that bytes encode: the form of its opcode, and its fields. Nothing is judged here.
(DESIGN CHOICE, safe: log 11.) -/
def parse (l : List Byte) : Form × Enc :=
  let pfx := (l.takeWhile fun b => decide (0xF0 ≤ b.toNat)).map BitVec.toNat
  let (op, rb, t) := opOf (l.drop pfx.length)
  let f := formOf op
  let am := (t.headD 0).toNat % 8
  (f, { pfx := pfx
        ra := (t.headD 0).toNat / 8
        rb := rb
        am := am
        disp := leAt t 1 (dispLen am)
        imm := leAt t (1 + dispLen am) (f.immLen am) })

/-- The bytes of an instruction (R75, R78, R79). -/
def Form.bytes (f : Form) (e : Enc) : List Byte :=
  e.pfx.map (BitVec.ofNat 8) ++
    (if f.op < 256 then [BitVec.ofNat 8 (f.op + e.rb)] else [BitVec.ofNat 8 (f.op / 256), BitVec.ofNat 8 (f.op % 256 + e.rb)]) ++
    [BitVec.ofNat 8 (8 * e.ra + e.am)] ++ leBytes (dispLen e.am) e.disp ++ leBytes (f.immLen e.am) e.imm

/-! ### Immediates and register operands -/

/-- A value of n bits sign-extended to w bits. -/
def sext (n w v : Nat) : Nat := ofS w (toS n v)

/-- The immediate as an operand of the width (R79). -/
def Form.immOf (f : Form) (e : Enc) : Nat :=
  if e.am = 3 then sext 32 e.w e.imm else if f.z then e.imm % 256 else sext 8 e.w e.imm

/-- The displacement, sign-extended to 32 bits. -/
def dispOf (e : Enc) : Nat :=
  match e.am with
  | 5 => sext 8 32 e.disp
  | 6 => sext 16 32 e.disp
  | 7 => e.disp % 2 ^ 32
  | _ => 0

/-- A general register, or a pair under WIDE, as a number. -/
def Ctx.rdG (x : Ctx) (wide : Bool) (n : Nat) : Nat := if wide then (x.pair n).toNat else (x.gr n).toNat

/-- A result written to a general register, or to a pair under WIDE. -/
def Ctx.wrG (x : Ctx) (wide : Bool) (n v : Nat) : Ctx :=
  if wide then x.setPair n (BitVec.ofNat 64 v) else x.setG n (BitVec.ofNat 32 v)

/-- First operand of the ALU form (R104). -/
def Ctx.opX (x : Ctx) (e : Enc) : Nat := if e.am = 0 then x.rdG e.wide e.ra else x.rdG e.wide e.rb

/-- Second operand of the ALU form (R104). -/
def Ctx.opY (x : Ctx) (f : Form) (e : Enc) : Nat :=
  match e.am with
  | 0 => x.rdG e.wide e.rb
  | 1 => x.rdG e.wide e.rc
  | _ => f.immOf e

/-- A special register's number as a value. -/
def Ctx.sp (x : Ctx) (n : Nat) : Nat := (x.sreg n).toNat
def Ctx.setSp (x : Ctx) (n v : Nat) : Ctx := x.setS n (BitVec.ofNat 32 v)

/-! ### Addresses -/

/-- EA = rb + displacement (R81). -/
def Ctx.ea (x : Ctx) (e : Enc) : Nat := ((x.gr e.rb).toNat + dispOf e) % 2 ^ 32

/-- Target of a branch or CALL (R81). -/
def Ctx.target (x : Ctx) (e : Enc) (next : Word) : Word :=
  if e.rb = 0 then next + BitVec.ofNat 32 (dispOf e) else BitVec.ofNat 32 (x.ea e)

/-- Offset of an address under pair n, 0 to MLEN − 1 (R82). -/
def Ctx.modOff (x : Ctx) (n a : Nat) : Nat :=
  (toS 32 ((a + 2 ^ 32 - x.sp (12 + n)) % 2 ^ 32) % (x.sp (16 + n) : Int)).toNat

/-- Bits k − 1 to w of a number reversed, bits below w kept (R83). -/
def revBits (w k o : Nat) : Nat :=
  (List.range (k - w)).foldl (fun a i => if o.testBit (w + i) then a + 2 ^ (k - 1 - i) else a) (o % 2 ^ w)

/-- MLEN is a power of two. -/
def isPow2 (n : Nat) : Bool := decide (n ≠ 0) && decide (2 ^ Nat.log2 n = n)

/-- Address of an access of size bytes after MODn or BRVn; none where it raises ADDRMODE (R82–R84). -/
def Ctx.locate (x : Ctx) (e : Enc) (a size : Nat) : Option Nat :=
  match e.mods, e.brv with
  | some n, _ =>
    let len := x.sp (16 + n)
    let o := x.modOff n a
    if len = 0 ∨ len < o + size then none else some ((x.sp (12 + n) + o) % 2 ^ 32)
  | none, some n =>
    let len := x.sp (16 + n)
    if isPow2 len = false ∨ len < size then none
    else
      let o := revBits (Nat.log2 size) (Nat.log2 len) (x.modOff n a)
      if len < o + size then none else some ((x.sp (12 + n) + o) % 2 ^ 32)
  | none, none => some a

/-- rb after LDX or STX (R109). -/
def Ctx.postRb (x : Ctx) (e : Sys2Proof.Enc) : Nat :=
  let a := ((x.gr e.rb).toNat + (if e.am = 4 then (if e.wide then 8 else 4) else dispOf e)) % 2 ^ 32
  match e.mods with
  | some n => (x.sp (12 + n) + x.modOff n a) % 2 ^ 32
  | none => a

/-- Bytes of a load or store of data: 8 under WIDE. -/
def wideBytes (e : Sys2Proof.Enc) : Nat := if e.wide then 8 else 4

end Sys2Proof.Machine
end

