-- ==== Sys2Proof/Machine/Flags.lean ====
section
/-! DEFINITION. STATUS and TRAPMASK (R67): what sets a sticky bit, and which trap follows (R96). -/

namespace Sys2Proof.Machine

/-- STATUS.DZ and STATUS.BX. -/
def flDIV : Nat := 0x01
def flBX : Nat := 0x02

/-- Bits of FPCR that exist. -/
def fpcrMask : Nat := 3

/-- Rounding mode (R66). -/
def Ctx.rm (x : Ctx) : Nat := x.sp 3 % 4

/-- The trap that bits set by one instruction call for, with its DETAIL (R96). -/
def Ctx.trapOf (x : Ctx) (raised : Nat) : Option (Nat × Nat) :=
  let m := raised &&& x.sp 2
  if bit m 0 then some (fDz, 0)
  else if m &&& 0x7C ≠ 0 then some (fFp, m &&& 0x7C)
  else none

/-! ### Integer results and the flags they raise (R110–R114) -/

def addW (w x y : Nat) : Nat := (x + y) % 2 ^ w
def subW (w x y : Nat) : Nat := (x + 2 ^ w - y % 2 ^ w) % 2 ^ w

def minS (w : Nat) : Int := -(2 ^ (w - 1) : Nat)
def maxS (w : Nat) : Int := (2 ^ (w - 1) : Nat) - 1

/-- An exact result clamped to the signed range (R113). -/
def clampW (w : Nat) (i : Int) : Nat := ofS w (clampTo (minS w) (maxS w) i)

/-- An exact result lies outside the signed range (R114). -/
def ovf (w : Nat) (i : Int) : Bool := decide (i < minS w) || decide (maxS w < i)

/-- Signed division of R111: quotient, remainder, and the bits of STATUS it sets. -/
def divS (w x y : Nat) : Nat × Nat × Nat :=
  let a := toS w x
  let b := toS w y
  if b = 0 then (ofS w (if a = 0 then 0 else if 0 < a then maxS w else minS w), x % 2 ^ w, flDIV)
  else if a = minS w ∧ b = -1 then (ofS w (minS w), 0, 0)
  else (ofS w (a.tdiv b), ofS w (a.tmod b), 0)

/-- Unsigned division of R111. -/
def divU (w x y : Nat) : Nat × Nat × Nat :=
  if y = 0 then (if x = 0 then 0 else 2 ^ w - 1, x, flDIV) else (x / y, x % y, 0)

/-- Shifts by the full unsigned value of y (R112). -/
def shlW (w x y : Nat) : Nat := if w ≤ y then 0 else x * 2 ^ y % 2 ^ w
def shrW (w x y : Nat) : Nat := if w ≤ y then 0 else x / 2 ^ y
def sarW (w x y : Nat) : Nat := ofS w (toS w x / (2 ^ (if w ≤ y then w - 1 else y) : Nat))

/-- Rotations by y mod w (R113). -/
def rolW (w x y : Nat) : Nat := let k := y % w; (x * 2 ^ k + x / 2 ^ (w - k)) % 2 ^ w
def rorW (w x y : Nat) : Nat := rolW w x (w - y % w)

end Sys2Proof.Machine
end

