-- ==== Sys2Proof/Machine/CoreMem.lean ====
section
/-! DEFINITION. A core's accesses to memory (R20, R38, R63, R88–R95): the caches, the write buffer and its drains with the
ownership check and delayed bus errors, and the loads and stores of instructions. -/

namespace Sys2Proof.Machine

/-! ### Where a core's address lies (R20) -/

inductive Where where
  | bank (off : Nat)
  | own (off : Nat)
  | timer (off : Nat)
  | dict (idx sub off : Nat)
  | far (p : Place)
  deriving DecidableEq, Repr

/-- What an access of core c reaches: what lies beyond its Strand's link answers with a bus error of that die while the link is
DOWN (R15).
(DEDUCED, unsafe: log 16.) -/
def State.coreWhere (s : State) (c addr : Nat) (task0 : Bool) : Where :=
  if addr < 0x400000 then .bank addr
  else if 0x10000000 ≤ addr ∧ addr < 0x10400000 then .own (addr - 0x10000000)
  else if 0x10800000 ≤ addr ∧ addr < 0x10840000 then .timer (addr - 0x10800000)
  else if 0xE0000000 ≤ addr ∧ addr < 0xE8000000 then
    (let o := addr - 0xE0000000
     .dict (o / 0x800) (o % 0x800 / 8) (o % 8))
  else if s.linkUp (strandOf c) = false then .far (.nowhere (2 ^ strandOf c))
  else .far (s.place addr task0)

/-- An access of n bytes that raises ALIGN: a misaligned one to the timer array or to Bedrock's range (R95). -/
def State.alignBad (s : State) (c addr n : Nat) : Bool :=
  decide (addr % n ≠ 0) && (decide (0x30000000 ≤ addr ∧ addr < 0x30200000) ||
    (match s.coreWhere c addr false with
     | .timer _ => true
     | _ => false))

/-! ### Caches: lines by their first byte, most recently used first -/

/-- Key of a line's parity error: instruction, data and bit cache. -/
def parKey (kind line : Nat) : Nat := kind * 2 ^ 32 + line

/-- The list with line at its front, one line of its set leaving where the set is full: the way-th of the set.
(DESIGN CHOICE, safe: log 20.) -/
def cacheAdd (sets ways way : Nat) (l : List Nat) (line : Nat) : List Nat :=
  let set := l.filter fun k => decide (k / 64 % sets = line / 64 % sets)
  let out := if ways ≤ set.length then set.drop (way % ways) |>.take 1 else []
  line :: l.filter fun k => !out.contains k

/-- A parity error of a line's copy is gone with that copy (R90). -/
def CoreSt.parityOff (k : CoreSt) (kind line : Nat) : CoreSt :=
  { k with parity := k.parity.filter fun p => decide (p ≠ parKey kind line) }

/-- A line is looked up: a copy with a parity error is invalidated, counted and fetched anew (R90); a line that is not resident is
fetched, and its new copy has no error. -/
def State.cacheHit (s : State) (c kind line : Nat) (l : List Nat) : State × Bool :=
  if l.contains line then
    (if (s.core c).parity.contains (parKey kind line) then
      ((s.incOb (K.CPU_ECC_CORR (c + 1))).modCore c fun k => k.parityOff kind line, false)
     else (s, true))
  else if (s.core c).parity = [] then (s, false)
  else (s.modCore c fun k => k.parityOff kind line, false)

/-- The 64 bytes at key are read into a line of a cache: their single-bit errors are corrected and counted, and a double-bit
error stays in the copy (R90). -/
def State.lineIn (s : State) (c kind line key : Nat) : State :=
  let bad := decide (s.eccOf key 64 = 2)
  let s := s.countCorr c key 64
  if bad = false ∧ (s.core c).double = [] then s
  else s.modCore c fun k => { k with
    double := (if bad then [parKey kind line] else []) ++ k.double.filter fun p => decide (p ≠ parKey kind line) }

/-- The line, held in SRAM at key, is read through the data cache, or through the bit cache (R63, R89, R102): whether a cache serves
it, which it does not where it is bypassed. -/
def State.cacheTouch (s : State) (c line key : Nat) (bitpipe : Bool) : State × Bool :=
  let ctl := s.ob (K.CPU_CTL (c + 1))
  let k := s.core c
  if bitpipe then
    if bit ctl 1 = false then (s, false)
    else
      let (s, hit) := s.cacheHit c 2 line k.bcache
      let s := if hit then s else s.lineIn c 2 line key
      (s.modCore c fun k => { k with bcache := cacheAdd 8 8 7 (k.bcache.filter fun l => decide (l ≠ line)) line }, true)
  else
    if bit ctl 0 = false then (s, false)
    else
      let (s, hit) := s.cacheHit c 1 line k.dcache
      if hit then (s.modCore c fun k => { k with dcache := line :: k.dcache.filter fun l => decide (l ≠ line) }, true)
      else
        (((s.lineIn c 1 line key).modCore c fun k => { k with
          dcache := cacheAdd 128 4 (Config.victim s.fresh) (k.dcache.filter fun l => decide (l ≠ line)) line }).draw, true)

/-- The instruction cache; key is the line's place in SRAM, none for the boot ROM's (R88). -/
def State.icacheTouch (s : State) (c line : Nat) (key : Option Nat) : State × Bool :=
  let (s, hit) := s.cacheHit c 0 line (s.core c).icache
  if hit then (s.modCore c fun k => { k with icache := line :: k.icache.filter fun l => decide (l ≠ line) }, true)
  else
    let s := match key with
      | some k => s.lineIn c 0 line k
      | none => s
    ((s.modCore c fun k => { k with
      icache := cacheAdd 128 4 (Config.victim s.fresh) (k.icache.filter fun l => decide (l ≠ line)) line }).draw, false)

/-- A byte of a resident line, held in SRAM at key, is returned with a double-bit error (R90). -/
def State.badByte (s : State) (c kind line key : Nat) : Bool :=
  (s.core c).double.contains (parKey kind line) && decide (s.eccOf key 1 = 2)

/-- SRAM read for a core. -/
def State.coreSram (s : State) (c key n : Nat) : State × RdAns := (s.countCorr c key n, s.sramRead key n)

/-! ### Fetching (R88, R126) -/

/-- n bytes over the fetch path; a bus error outside the active bank and the boot ROM.
(DESIGN CHOICE, safe: log 11.) -/
def State.fetchBytes (s : State) (c addr n : Nat) : State × RdAns :=
  let lines := if addr / 64 = (addr + n - 1) / 64 then [addr / 64 * 64] else [addr / 64 * 64, addr / 64 * 64 + 64]
  let bank := s.activeBank (strandOf c)
  let go := lines.foldl (fun (p : State × Bool) l =>
    let (s, h) := p.1.icacheTouch c l (if l < 0x400000 then some (bank + l) else none)
    (s, p.2 && h)) (s, true)
  if addr + n ≤ 0x400000 then
    (if (List.range n).any fun i => go.1.badByte c 0 ((addr + i) / 64 * 64) (bank + addr + i) then (s, .ecc)
     else (go.1, .ok (s.bytesAt (bank + addr) n)))
  else if 0xF0000000 ≤ addr ∧ addr + n ≤ 0xF0010000 ∧ (go.2 || s.linkUp (strandOf c)) then
    (go.1, .ok ((List.range n).map fun i => Config.romByte (addr - 0xF0000000 + i)))
  else (s, .bus 0)

/-- The byte at an address of the fetch path, zero outside it. -/
def State.codeByte (s : State) (c a : Nat) : Byte :=
  if a < 0x400000 then s.byte (s.activeBank (strandOf c) + a)
  else if 0xF0000000 ≤ a ∧ a < 0xF0010000 then Config.romByte (a - 0xF0000000)
  else 0

/-- The bytes from an address that an instruction there may take up (R75). -/
def State.codeBytes (s : State) (c pc : Nat) : List Byte := (List.range 15).map fun i => s.codeByte c (pc + i)

/-! ### The write buffer (R91, R92) -/

/-- The byte that an address names, one number for both aliases of a Strand's SRAM (R22). -/
def State.busKey (s : State) (c addr : Nat) : Nat :=
  let n := (addr - 0x40000000) / 0x1000000
  let off := addr % 0x1000000
  if 0x10000000 ≤ addr ∧ addr < 0x10400000 then mData (strandOf c) + (addr - 0x10000000)
  else if 0x41000000 ≤ addr ∧ addr < 0x47000000 ∧ off < 0x400000 ∧ (n ≠ strandOf c ∨ s.linkUp n = true) then mData n + off
  else memBase 0x60 + addr

/-- The newest buffered value of a byte. -/
def CoreSt.buffered (k : CoreSt) (key : Nat) : Option Byte :=
  k.wbuf.reverse.findSome? fun e =>
    if e.word = key / 8 then (e.bytes.find? fun b => decide (b.off = key % 8)).map WbByte.val else none

/-- Entries that a store fills: its bytes by aligned 8-byte word. -/
def wbEntries : List (Nat × WbByte) → List WbEntry
  | [] => []
  | (w, b) :: t =>
    match wbEntries t with
    | e :: l =>
      if e.word = w then { e with bytes := b :: e.bytes } :: l else { word := w, bytes := [b], begun := false } :: e :: l
    | [] => [{ word := w, bytes := [b], begun := false }]

/-- The newest entry for a word has not begun to drain. -/
def CoreSt.merges (k : CoreSt) (word : Nat) : Bool :=
  match k.wbuf.reverse.find? fun x => decide (x.word = word) with
  | some x => !x.begun
  | none => false

/-- An entry merges into the one for its word that has not begun to drain, or takes a new place; none where all 8 are taken. -/
def CoreSt.wbPut (k : CoreSt) (e : WbEntry) : Option CoreSt :=
  if k.merges e.word then
    some { k with wbuf := k.wbuf.map fun x =>
      if x.word = e.word ∧ x.begun = false then
        { x with bytes := (x.bytes.filter fun b => !(e.bytes.any fun d => decide (d.off = b.off))) ++ e.bytes }
      else x }
  else if k.wbuf.length < 8 then some { k with wbuf := k.wbuf ++ [e] }
  else none

/-- Entries put in order, as far as there is room. -/
def CoreSt.wbFill (k : CoreSt) : List WbEntry → CoreSt × List WbEntry
  | [] => (k, [])
  | e :: t =>
    match k.wbPut e with
    | some k' => CoreSt.wbFill k' t
    | none => (k, e :: t)

/-- A store of context g enters the write buffer; without room the context waits for it. -/
def State.bufStore (s : State) (g addr : Nat) (b : List Byte) : State :=
  let c := g / 16
  let x := s.ctx g
  let l := b.zipIdx.map fun e =>
    let a := (addr + e.2) % 2 ^ 32
    let key := s.busKey c a
    (key / 8, { off := key % 8, val := e.1, ctx := g, addr := a, pc := x.pc, task := x.task, sec := x.sec : WbByte })
  let r := (s.core c).wbFill (wbEntries l)
  let s := s.setCore c r.1
  if r.2 = [] then s else s.modCtx g fun x => { x with wait := .store, stall := r.2, prior := x.g }

/-- Runs of neighbouring bytes of one section, by rising offset. -/
def wbRuns (e : WbEntry) : List (List WbByte) :=
  let l := (List.range 8).filterMap fun o => e.bytes.find? fun b => decide (b.off = o)
  l.foldr (fun b acc =>
    match acc with
    | (d :: r) :: t =>
      if b.off + 1 = d.off ∧ b.ctx = d.ctx ∧ b.task = d.task ∧ b.sec = d.sec then (b :: d :: r) :: t else [b] :: (d :: r) :: t
    | _ => [b] :: acc) []

/-- One run reaches its target; false where it ends in a bus error. A run after the first goes on in the line of its word (R445). -/
def State.wbRun (s : State) (c word : Nat) (first : Bool) (r : List WbByte) : State × Bool :=
  match r with
  | [] => (s, true)
  | b :: _ =>
    let key := word * 8 + b.off
    let bytes := r.map WbByte.val
    let q := { s.bedReq b.ctx with same := !first }
    if key / 2 ^ 32 = 0x30 + strandOf c then (s.dataWrite (strandOf c) (key % 2 ^ 32) bytes (some c), true)
    else
      let addr := if key / 2 ^ 32 = 0x60 then key % 2 ^ 32 else 0x40000000 + (key / 2 ^ 32 - 0x30) * 0x1000000 + key % 2 ^ 32
      if s.linkUp (strandOf c) = false then (s, false)
      else
        let (s, bad) := s.fabricWrite q (decide (b.task = 0)) (some c) addr bytes
        (s, bad.isNone)

/-- Task sections that stored bytes of an entry, and its contexts. -/
def wbSections (e : WbEntry) : List (Nat × Nat) := ((e.bytes.filter fun b => decide (b.task ≠ 0)).map fun b => (b.task, b.sec)).dedup
def wbCtxs (e : WbEntry) : List Nat := (e.bytes.map WbByte.ctx).dedup

/-- Marker line that an entry lies in. -/
def wbMarker (e : WbEntry) : Option Nat :=
  let a := e.word * 8 - memBase 0x60
  if e.word * 8 / 2 ^ 32 = 0x60 ∧ 0x20100000 ≤ a ∧ a < 0x20200000 then some ((a - 0x20100000) / 64) else none

/-- A run that no open transaction stages. -/
def State.plainRun (s : State) (r : List WbByte) : Bool := r.any fun b => !s.ownsTxn (s.bedReq b.ctx)

/-- An entry reaches its target whole, or not at all where a run of it ends in a bus error (R91). -/
def State.wbWrite (s : State) (c : Nat) (e : WbEntry) : State × Bool :=
  match (wbRuns e).find? fun r => !(s.wbRun c e.word true r).2 with
  | some r => ((s.wbRun c e.word true r).1, false)
  | none =>
    let first := fun k => !(((wbRuns e).take k).any s.plainRun)
    let s := s.each (wbRuns e).zipIdx fun s r => (s.wbRun c e.word (first r.2) r.1).1
    let s := match wbMarker e with
      | some l => s.each (wbSections e) fun s p => s.sharing l p.1 p.2
      | none => s
    (s, true)

/-- Room has come: a stalled store of context g goes on (R91). -/
def State.wbRoom (s : State) (g : Nat) : State :=
  let c := g / 16
  let x := s.ctx g
  if x.wait ≠ .store then s
  else
    let r := (s.core c).wbFill x.stall
    (s.setCore c r.1).modCtx g fun x => { x with stall := r.2, wait := if r.2 = [] then .none else .store }

/-- A fault or trap of a context, and what a halt of the tide brings with it (R50, R97). -/
def State.faulted (s : State) (g code detail : Nat) (fpc faddr pc : Word) : State := (s.taskFault g code detail fpc faddr pc).txnSettle

/-- Room has come: a stalled store of context g goes on, and the delayed bus errors that waited for its end are raised (R91). -/
def State.storeGoesOn (s : State) (g : Nat) : State :=
  let s := s.wbRoom g
  let x := s.ctx g
  if x.wait = .store ∨ x.late = [] then s
  else (s.modCtx g fun x => { x with late := [] }).each x.late fun s f =>
    s.faulted g fBusErr 5 f.1 (BitVec.ofNat 32 f.2) (s.ctx g).pc

/-- The delayed bus error of one context: FPC, FADDR, and the PC of the first instruction it has not completed, which is the latest
one where that waits for the failed entry (R91, R97). In a store that still stalls it comes at the store's end; where the
context has since become FREE, nothing halts and the record names the task that stored.
(DESIGN CHOICE, unsafe: log 120.) -/
def State.delayedFault (s : State) (g task : Nat) (pc : Word) (addr : Nat) : State :=
  let faddr := BitVec.ofNat 32 addr
  if (s.ctx g).cs = .free then
    (s.faultRecord g task fBusErr 5 pc faddr).modCtx g fun x => x.withFault fBusErr 5 pc faddr
  else
    let s := s.storeGoesOn g
    let x := s.ctx g
    if x.wait = .store then s.modCtx g fun x => { x with late := x.late ++ [(pc, addr)] }
    else s.faulted g fBusErr 5 pc faddr (if x.wait = .none then x.pc else x.lastPc)

/-- Delayed bus errors of a failed entry, context by context.
(DEDUCED, unsafe: log 16.) -/
def State.wbFailed (s : State) (e : WbEntry) : State :=
  s.each (wbCtxs e) fun s g =>
    let l := e.bytes.filter fun b => decide (b.ctx = g)
    s.delayedFault g ((l.getLast?.map WbByte.task).getD 0) ((l.getLast?.map WbByte.pc).getD 0) ((l.map WbByte.addr).min?.getD 0)

/-- Line of Q that an entry lies in. -/
def wbQLine (e : WbEntry) : Option Nat :=
  let a := e.word * 8 - memBase 0x60
  if e.word * 8 / 2 ^ 32 = 0x60 ∧ 0x20000000 ≤ a then qLine (a - 0x20000000) else none

/-- The image store holds an entry back: it would overwrite a line of Q that waits for the transmit window or a cut's copy
(R190, R564).
Until then its credit is withheld (R14, R91). -/
def State.wbHeld (s : State) (c : Nat) (e : WbEntry) : Bool :=
  match wbQLine e with
  | some l => s.linkUp (strandOf c) && s.domMem dHC && s.lineHeld l
  | none => false

/-- The oldest entry drains, or begins to and is held back (R91, R190). -/
def State.drainOne (s : State) (c : Nat) : State :=
  match (s.core c).wbuf with
  | [] => s
  | e :: t =>
    let s := s.copyProgress
    if s.wbHeld c e then
      (if e.begun then s
       else (s.modCore c fun k => { k with wbuf := { e with begun := true } :: t }).countHold 1)
    else
      let s := s.modCore c fun k => { k with wbuf := t }
      let (s, ok) := s.wbWrite c e
      if ok then s else s.wbFailed e

/-- The n oldest entries drain. -/
def State.drainN (s : State) (c : Nat) : Nat → State
  | 0 => s
  | n + 1 => (s.drainOne c).drainN c n

def State.drainAll (s : State) (c : Nat) : State := s.drainN c (s.core c).wbuf.length

/-! ### Loads -/

/-- How a load ends. -/
inductive LdAns where
  /-- The state after it, the bytes, and whether they come over the fabric. -/
  | ok (s : State) (b : List Byte) (far : Bool)
  /-- A request of the OEM range is on its way, under its tag. -/
  | oem (s : State) (tag : Nat)
  | fault (code detail : Nat)
  /-- The load waits, with the context where it is. -/
  | hold (s : State)

/-- One aligned piece of an access read from its target. -/
def State.readPiece (s : State) (c g addr n : Nat) (bitpipe : Bool) : State × RdAns :=
  let task0 := decide ((s.ctx g).task = 0)
  match s.coreWhere c addr task0 with
  | .bank off => if off + n ≤ 0x400000 then s.coreSram c (s.activeBank (strandOf c) + off) n else (s, .bus 0)
  | .own off =>
    if 0x400000 < off + n then (s, .bus 0)
    else
      let key := mData (strandOf c) + off
      let line := off / 64 * 64
      let (s', cached) := s.cacheTouch c line (mData (strandOf c) + line) bitpipe
      if cached then
        (if (List.range n).any fun i => s'.badByte c (if bitpipe then 2 else 1) line (key + i) then (s, .ecc)
         else (s', .ok (s.bytesAt key n)))
      else s.coreSram c key n
  | .timer off => (s.rebaseTo (strandOf c)).coreSram c (mTimer (strandOf c) + off) n
  | .dict _ _ _ => (s, .bus 0)
  | .far p =>
    let r := s.fabricRead (s.bedReq g) task0 addr n
    let s := match p with
      | .head off => s.countCorr c (mHead + off) n
      | .data k off => s.countCorr c (mData k + off) n
      | .alt k off => s.countCorr c (s.altBank k + off) n
      | _ => s
    (s, r)

/-- The pieces of an access: one where it is aligned, two where it is not (R95). -/
def pieces (addr n : Nat) : List (Nat × Nat) :=
  if addr % n = 0 then [(addr, n)] else [(addr, n - addr % n), ((addr + n - addr % n) % 2 ^ 32, addr % n)]

/-- Pieces read in order: bus errors come before errors in SRAM (R98). -/
def State.readPieces (s : State) (c g : Nat) (bitpipe : Bool) (l : List (Nat × Nat)) : LdAns :=
  let r := l.foldl (fun (p : State × List RdAns) e =>
    let (s, a) := p.1.readPiece c g e.1 e.2 bitpipe
    (s, p.2 ++ [a])) (s, [])
  if r.2.any fun a => match a with | .bus _ => true | _ => false then .fault fBusErr 0
  else if r.2.any fun a => match a with | .ecc => true | _ => false then .fault fEcc 0
  else .ok r.1 (r.2.flatMap fun a => match a with | .ok b => b | _ => []) false

/-- The load goes out over the Strand link (R107). -/
def Where.isFar : Where → Bool
  | .far _ => true
  | .dict _ _ _ => true
  | _ => false

/-- An answer that context g's instruction has waited for (R57). -/
def Flight.heldFor (f : Flight) (g : Nat) : Bool := decide (f.ctx = g) && decide (f.dst = heldDst)

/-- A read of the dictionary window at a width (R38–R40): the bytes of the slot, zeros where it is refused. A load of an instruction
that has waited for its answer takes it (R57). -/
def State.dictLoad (s : State) (g idx sub off n : Nat) : LdAns :=
  let key := idx * 256 + sub
  let k := s.core (g / 16)
  match k.flight.find? fun f => f.heldFor g && f.tag.isNone && decide (f.addr = 0xE0000000 + idx * 0x800 + sub * 8 + off) with
  | some f => .ok (s.setCore (g / 16) { k with flight := k.flight.erase f }) (leBytes n (f.val / 2 ^ (8 * off))) true
  | none =>
  if !s.served g then .hold s
  else if isOem idx then
    (let s' := s.oemEnter g key false 0
     if s.dic.oem.length < s'.dic.oem.length then .oem s' s.dic.oemTag else .ok s' (leBytes n 0) true)
  else if idx = 0x1180 then
    (let (s, v) := s.apRead g (sub * 8 + off) n
     .ok s (leBytes n v) true)
  else if off % n ≠ 0 then
    (let (st, r) := if isTypeDesc key then (stOK, rNONE) else s.readCheck g key
     .ok (s.setResult g key (if st = stOK then stTYPE else st) r 0) (leBytes n 0) true)
  else
    let (s, v) := s.dictRead g key
    .ok s (leBytes n (v / 2 ^ (8 * off))) true

/-- A delayed bus error has struck a context in a drain that its own instruction began: the context has halted, or continues at
KFV, and the instruction is not completed (R91, R99). -/
def State.struck (before after : State) (g : Nat) : Bool :=
  decide ((after.ctx g).cs ≠ .running) || decide ((after.ctx g).finfo ≠ (before.ctx g).finfo)

/-- A load of n bytes by context g of core c (R92, R95).
(DEDUCED, unsafe: log 14.) -/
def State.coreLoad (s : State) (c g addr n : Nat) (bitpipe : Bool) : LdAns :=
  let w := s.coreWhere c addr (decide ((s.ctx g).task = 0))
  match w with
  | .dict idx sub off => if s.linkUp (strandOf c) then s.dictLoad g idx sub off n else .fault fBusErr 0
  | _ =>
    if s.alignBad c addr n then .fault fAlign 0
    else
      let keys := (List.range n).map fun i => s.busKey c ((addr + i) % 2 ^ 32)
      let buf := keys.map (s.core c).buffered
      if buf.all Option.isSome then .ok s (buf.map fun b => b.getD 0) false
      else
        let far := w.isFar
        let wait := (s.core c).wbuf.length - ((s.core c).wbuf.reverse.findIdx fun e => keys.any fun k => decide (k / 8 = e.word))
        let t := if buf.any Option.isSome then s.drainN c wait else s
        if s.struck t g || keys.any fun k => ((t.core c).buffered k).isSome then .hold t
        else
          match t.readPieces c g bitpipe (pieces addr n) with
          | .ok s b _ => .ok s b far
          | r => r

/-! ### Stores -/

inductive StAns where
  | ok (s : State)
  | fault (code detail : Nat)
  | hold (s : State)

/-- A store of context g (R38, R91, R94, R95). -/
def State.coreStore (s : State) (c g addr : Nat) (b : List Byte) : StAns :=
  if s.alignBad c addr b.length then .fault fAlign 0
  else
    match s.coreWhere c addr (decide ((s.ctx g).task = 0)) with
    | .dict idx sub off =>
      if !s.linkUp (strandOf c) then .fault fBusErr 1
      else if !s.served g then .hold s
      else .ok (s.dictWrite g (idx * 256 + sub) off b.length (leNat b))
    | .timer off => .ok ((s.rebaseTo (strandOf c)).sramWrite (mTimer (strandOf c) + off) (ctrlMask off b))
    | _ => .ok (s.bufStore g addr b)

/-! ### Loads in flight (R70, R93) -/

/-- A value written to a destination: 0–31 a general register or pair, 32–47 a floating-point register. -/
def Ctx.setDst (x : Ctx) (dst : Nat) (wide : Bool) (v : Nat) : Ctx :=
  if dst < 32 then x.wrG wide dst v else x.setF (dst - 32) (BitVec.ofNat 64 v)

/-- The data of a load returns to its register.
(DEDUCED, unsafe: log 13.) -/
def State.landFlight (s : State) (f : Flight) : State := s.modCtx f.ctx fun x => x.setDst f.dst f.wide f.val

/-- Loads of context g whose data can return do so before its next instruction.
(DEDUCED, unsafe: log 13.) -/
def State.landCtx (s : State) (g : Nat) : State :=
  let c := g / 16
  let mine := fun (f : Flight) => decide (f.ctx = g) && f.tag.isNone && decide (f.dst < heldDst)
  let l := (s.core c).flight.filter mine
  if l = [] then s
  else (s.each l State.landFlight).modCore c fun k => { k with flight := k.flight.filter fun f => !mine f }

/-- The oldest load in flight whose data can return does so. -/
def State.landOne (s : State) (c : Nat) : State :=
  match (s.core c).flight.find? fun f => f.tag.isNone && decide (f.dst < heldDst) with
  | none => s
  | some f => ((s.landFlight f).modCore c fun k => { k with flight := k.flight.erase f }).loadsDone f.ctx

/-- A load in flight completes as a bus error, and its instruction leaves no effect (R15, R97).
(DEDUCED, unsafe: log 72.) -/
def State.flightLost (s : State) (f : Flight) : State :=
  let s := s.modCore (f.ctx / 16) fun k => { k with flight := k.flight.erase f }
  let x := s.ctx f.ctx
  if x.cs = .free ∨ x.cs = .halted then s
  else (s.modCtx f.ctx fun x => { x with g := f.before }).faulted f.ctx fBusErr 0 f.pc (BitVec.ofNat 32 f.addr) f.pc

/-- A load in flight that the link of a die carries: the requester's own, or that of the memory it reads. -/
def State.flightCrosses (s : State) (die : Nat) (f : Flight) : Bool :=
  decide (strandOf (f.ctx / 16) = die) ||
    (match s.coreWhere (f.ctx / 16) f.addr (decide ((s.ctx f.ctx).task = 0)) with
     | .far (.data n _) => decide (n = die)
     | .far (.alt n _) => decide (n = die)
     | _ => false)

/-- A die's link enters DOWN: what is in flight over it ends, and the check-ins under way are lost (R15).
(DEDUCED, unsafe: log 72.) -/
def State.linkLost (s : State) (die : Nat) : State :=
  let l := (s.cores24.map fun c => (s.core c).flight).flatten.filter (s.flightCrosses die)
  let s := { s with
    pwr := { s.pwr with linkDown := putBit s.pwr.linkDown die true }
    chk := { s.chk with queue := s.chk.queue.filter fun e => decide (e.2 ≠ die) } }
  ((s.raiseSt 0x06 die false 0).each l State.flightLost).dmaLinkLost die

/-- The register of a load that waits for its OEM answer is named by a field of the instruction (R107). -/
def State.flightHolds (s : State) (g : Nat) (e : Sys2Proof.Enc) : Bool :=
  (s.core (g / 16)).flight.any fun f => decide (f.ctx = g) && f.tag.isSome &&
    ([e.ra, e.ra + 1, e.rb, e.rb + 1, e.rc, e.rc + 1, 31].any fun r =>
      (decide (f.dst < 32) && decide (f.dst ≠ 0) && (decide (r = f.dst) || (f.wide && decide (r = f.dst + 1)))) ||
        (decide (32 ≤ f.dst) && decide (f.dst < heldDst) && decide (r = f.dst - 32)))

/-- The instruction waits for the answer to its OEM request. -/
def State.oemHold (s : State) (c g addr tag : Nat) : State :=
  s.modCore c fun k => { k with flight := k.flight ++ [{
    ctx := g
    dst := heldDst
    wide := false
    val := 0
    pc := (s.ctx g).pc
    addr := addr
    n := 8
    ext := 0
    tag := some tag
    before := (s.ctx g).g }] }

end Sys2Proof.Machine
end

