-- ==== Sys2Proof/Machine/Issue.lean ====
section
/-! DEFINITION. How a core runs one instruction of its running context (R61–R103): fetch, the cases of R80, the effect, the
no-preempt bracket, faults and traps, and the shared bodies of the instruction groups. -/

namespace Sys2Proof.Machine

/-- How an instruction's body ends. -/
inductive Res where
  /-- A fault: its code, DETAIL and data address; no effect (R97). -/
  | fault (code detail : Nat) (addr : Nat)
  /-- The same, in a state that has counted the refusal. -/
  | counted (s : State) (code detail : Nat) (addr : Nat)
  /-- Completed: the state, the next PC, the STATUS bits it sets, and the code of a SWTRAP. -/
  | next (s : State) (pc : Word) (raised : Nat) (swtrap : Option Nat)
  /-- One iteration of a repeat completed, with more to come (R87). -/
  | again (s : State)
  /-- The instruction waits, and this is the state. -/
  | hold (s : State)

/-! ### The bracket (R71, R72) -/

/-- The 64th instruction, once it has completed, closes the bracket, sets STATUS.BX, and traps where TRAPMASK.BX is 1. -/
def State.bracketEnd (s : State) (g : Nat) : State :=
  let x := s.ctx g
  if x.npOpen = true ∧ 64 ≤ x.npcnt ∧ x.wait = .none then
    let s := s.modCtx g fun x => { x.stick flBX with npOpen := false, npcnt := 0 }
    if bit (x.sp 2) 1 then s.faulted g fBracket 0 x.lastPc 0 x.pc else s.resched (g / 16)
  else s

/-- A bracket prefix is ILLEGAL in this state (R72); a repeat that has begun has opened its bracket already. -/
def Ctx.bracketBad (x : Ctx) (e : Sys2Proof.Enc) : Bool :=
  !x.rep && ((e.npb && x.npOpen) || (e.npe && !x.npOpen))

/-! ### One instruction -/

/-- What an instruction leaves in its context when it has completed, or one iteration of it. -/
def Ctx.after (x : Ctx) (e : Sys2Proof.Enc) (opens last : Bool) (pc next : Word) (raised : Nat) : Ctx :=
  let x := x.stick raised
  let isOpen := x.npOpen || opens
  let closes := last && e.npe
  { x with
    pc := next
    lastPc := pc
    rep := !last
    npOpen := isOpen && !closes
    npcnt := if isOpen && !closes then x.npcnt + 1 else 0 }

/-- An open bracket's 64th instruction closes it and sets STATUS.BX, whatever trap the instruction takes (R72). -/
def Ctx.fullBracket (x : Ctx) : Ctx :=
  if x.npOpen = true ∧ 64 ≤ x.npcnt then { x.stick flBX with npOpen := false, npcnt := 0 } else x

/-- The end of a completed instruction: the PC, the bracket, and the trap that follows it (R97). A context that the
instruction itself has set FREE keeps what that left. R98 orders no traps among themselves: a 64th bracket instruction that
takes a trap of its own takes no BRACKET trap.
(DESIGN CHOICE, unsafe: log 108.) -/
def State.complete (s : State) (g : Nat) (e : Sys2Proof.Enc) (opens : Bool) (pc next : Word) (raised : Nat)
    (swtrap : Option Nat) : State :=
  if (s.ctx g).cs = .free then s
  else
  let s := s.modCtx g fun x => x.after e opens true pc next raised
  match swtrap, (s.ctx g).trapOf raised with
  | some v, _ => (s.modCtx g Ctx.fullBracket).faulted g fSwtrap v pc 0 next
  | none, some t => (s.modCtx g Ctx.fullBracket).faulted g t.1 t.2 pc 0 next
  | none, none => if e.npe then s.resched (g / 16) else s

/-- What the bytes at PC make of an instruction of the form f and fields e, fetched: a fault of the fetch, an ILLEGAL encoding
(R80), a bracket rule broken (R72), another instruction, or this one.
(DESIGN CHOICE, safe: log 11.) -/
def Ctx.judge (x : Ctx) (f : Form) (e : Sys2Proof.Enc) (code : Form × Sys2Proof.Enc) : Option Bool :=
  if code.1.legal code.2 = false ∨ x.bracketBad code.2 = true then some false
  else if code = (f, e) then some true
  else none

/-- The context that core c issues from: its running one, and none in SERVICE, where no firmware runs (R255). -/
def State.issuer (s : State) (c : Nat) : Option Nat := if s.str.service then none else s.running c

/-- The answers that an instruction has waited for are kept while it waits on, and gone once it ends (R57). -/
def State.keepHeld (was s : State) (c g : Nat) : State :=
  let l := (was.core c).flight.filter fun f => f.heldFor g
  if l = [] then s
  else s.modCore c fun k => { k with flight := l ++ k.flight.filter fun f => !(f.heldFor g && f.tag.isNone) }

def State.dropHeld (was s : State) (c g : Nat) : State :=
  if (was.core c).flight.filter (fun f => f.heldFor g) = [] then s
  else s.modCore c fun k => { k with flight := k.flight.filter fun f => !f.heldFor g }

/-- Core c runs the instruction at its running context's PC: with the bytes of instruction e of form f there, it does what body
says; bytes of no legal instruction are ILLEGAL, and bytes of another one leave the state as it is.
(DESIGN CHOICE, safe: log 11.) -/
def State.issue (s : State) (c : Nat) (e : Sys2Proof.Enc) (f : Form) (body : State → Nat → Ctx → Word → Res) : State :=
  match s.issuer c with
  | none => s
  | some g =>
    if (s.ctx g).wait ≠ .none ∨ s.flightHolds g e = true then s
    else
      let s := s.bracketEnd g
      if (s.ctx g).cs ≠ .running then s
      else
        let s := s.landCtx g
        let x := s.ctx g
        let pc := x.pc
        let code := parse (s.codeBytes c pc.toNat)
        let len := Nat.min 15 (code.1.length code.2)
        match s.fetchBytes c pc.toNat len, x.judge f e code with
        | (_, .bus _), _ => s.faulted g fBusErr 2 pc 0 pc
        | (_, .ecc), _ => s.faulted g fEcc 2 pc 0 pc
        | (s, .ok _), some false => s.faulted g fIllegal 0 pc 0 pc
        | (_, .ok _), none => s
        | (s, .ok _), some true =>
          let opens := e.npb && !x.rep
          match body s g x (pc + BitVec.ofNat 32 (f.length e)) with
          | .fault code detail addr => (s.dropHeld s c g).faulted g code detail pc (BitVec.ofNat 32 addr) pc
          | .counted t code detail addr => (s.dropHeld t c g).faulted g code detail pc (BitVec.ofNat 32 addr) pc
          | .next t next raised swt => (s.dropHeld t c g).complete g e opens pc next raised swt
          | .again t => if (t.ctx g).cs = .free then t else (s.dropHeld t c g).modCtx g fun x => x.after e opens false pc pc 0
          | .hold t => s.keepHeld t c g

/-! ### Bodies that only write registers -/

/-- A result to ra. -/
def State.result (s : State) (g : Nat) (e : Sys2Proof.Enc) (next : Word) (v raised : Nat) : Res :=
  .next (s.modCtx g fun x => x.wrG e.wide e.ra v) next raised none

/-- The ALU form (R104): a function of the width and the two operands. -/
def State.alu (s : State) (c : Nat) (e : Sys2Proof.Enc) (f : Form) (op : Nat → Nat → Nat → Nat × Nat) : State :=
  s.issue c e f fun s g x next => let r := op e.w (x.opX e) (x.opY f e); s.result g e next r.1 r.2

/-- An ALU instruction that sets no status. -/
def State.aluPlain (s : State) (c : Nat) (e : Sys2Proof.Enc) (f : Form) (op : Nat → Nat → Nat → Nat) : State :=
  s.alu c e f fun w x y => (op w x y, 0)

/-- A unary instruction (R104). -/
def State.unary (s : State) (c : Nat) (e : Sys2Proof.Enc) (f : Form) (op : Nat → Nat → Nat) : State :=
  s.issue c e f fun s g x next => s.result g e next (op e.w (x.rdG e.wide e.rb)) 0

/-- A compare (R114). -/
def State.compare (s : State) (c : Nat) (e : Sys2Proof.Enc) (f : Form) (op : Nat → Nat → Nat → Bool) : State :=
  s.aluPlain c e f fun w x y => b2n (op w x y)

/-! ### Loads and stores -/

/-- A load of n bytes into a destination, its value extended; over the fabric it is in flight, and from the OEM range it waits for
its answer (R57, R70, R107).
(DEDUCED, unsafe: log 13.) -/
def State.loadTo (s : State) (c g addr n dst : Nat) (wide bitpipe : Bool) (next : Word) (ext : Nat)
    (post : Ctx → Ctx) : Res :=
  let x := s.ctx g
  match s.coreLoad c g addr n bitpipe with
  | .fault code detail => .fault code detail addr
  | .hold s => .hold s
  | .ok s b far =>
    let s := s.modCtx g post
    let v := extend ext (leNat b)
    if far then
      .next (s.modCore c fun k => { k with flight := k.flight ++ [{
        ctx := g
        dst := dst
        wide := wide
        val := v
        pc := x.pc
        addr := addr
        n := n
        ext := ext
        tag := none
        before := x.g }] }) next 0 none
    else .next (s.modCtx g fun x => x.setDst dst wide v) next 0 none
  | .oem s tag =>
    .next ((s.modCtx g post).modCore c fun k => { k with flight := k.flight ++ [{
      ctx := g
      dst := dst
      wide := wide
      val := 0
      pc := x.pc
      addr := addr
      n := n
      ext := ext
      tag := some tag
      before := x.g }] }) next 0 none

/-- A store of bytes. -/
def State.storeRes (s : State) (c g addr : Nat) (b : List Byte) (next : Word) (post : Ctx → Ctx) : Res :=
  match s.coreStore c g addr b with
  | .fault code detail => .fault code detail addr
  | .hold s => .hold s
  | .ok s => .next (s.modCtx g post) next 0 none

/-- A load from EA, after any MODn or BRVn (R108, R115, R119). FADDR of an ADDRMODE fault is the address before them.
(DESIGN CHOICE, unsafe: log 94.) -/
def State.loadEa (s : State) (c : Nat) (e : Sys2Proof.Enc) (f : Form) (n dst : Nat) (wide : Bool) (ext : Nat) : State :=
  s.issue c e f fun s g x next =>
    match x.locate e (x.ea e) n with
    | none => .fault fAddrMode 0 (x.ea e)
    | some a => s.loadTo c g a n dst wide false next ext id

/-- A store to EA, after any MODn or BRVn.
(DESIGN CHOICE, unsafe: log 94.) -/
def State.storeEa (s : State) (c : Nat) (e : Sys2Proof.Enc) (f : Form) (n : Nat) (value : Ctx → Nat) : State :=
  s.issue c e f fun s g x next =>
    match x.locate e (x.ea e) n with
    | none => .fault fAddrMode 0 (x.ea e)
    | some a => s.storeRes c g a (leBytes n (value x)) next id

/-- The new base of LDX and STX (R109). -/
def Ctx.wrPost (e : Sys2Proof.Enc) (rb : Nat) (x : Ctx) : Ctx := x.setG e.rb (BitVec.ofNat 32 rb)

/-! ### Branches (R81, R85) -/

/-- A conditional branch. -/
def State.branch (s : State) (c : Nat) (e : Sys2Proof.Enc) (f : Form) (cond : Ctx → Bool) (post : Ctx → Ctx) : State :=
  s.issue c e f fun s g x next =>
    .next (s.modCtx g post) (if cond x then x.target e next else next) 0 none

/-- The stack word's checks (R85). -/
def Ctx.stackCheck (x : Ctx) (sp addr : Nat) : Option Nat :=
  if addr < x.sp 7 ∨ x.sp 8 < addr + 4 then some fStack
  else if sp % 4 ≠ 0 then some fAlign
  else none

/-! ### Floating point (R118–R121) -/

def fmtOf (e : Sys2Proof.Enc) : Fmt := if e.wide then f64 else f32

/-- A floating-point register as a value of the format: binary32 in its low half (R65). -/
def Ctx.rdF (x : Ctx) (m : Fmt) (n : Nat) : FVal := m.decode ((x.fr n).toNat % 2 ^ (m.p + m.w))

/-- A result to fa; a binary32 result clears bits 63:32 (R65). -/
def State.fresult (s : State) (g n : Nat) (next : Word) (r : Nat × Nat) : Res :=
  .next (s.modCtx g fun x => x.setF n (BitVec.ofNat 64 r.1)) next r.2 none

/-- Two operands as the ALU form takes them: fa and fb, or fb and fc. -/
def State.float2 (s : State) (c : Nat) (e : Sys2Proof.Enc) (f : Form) (op : Fmt → Nat → FVal → FVal → Nat × Nat) : State :=
  s.issue c e f fun s g x next =>
    let m := fmtOf e
    let a := x.rdF m (if e.am = 0 then e.ra else e.rb)
    let b := x.rdF m (if e.am = 0 then e.rb else e.rc)
    s.fresult g e.ra next (op m x.rm a b)

/-- Bits of fb changed without arithmetic: FMOV, FNEG and FABS. -/
def State.floatBits (s : State) (c : Nat) (e : Sys2Proof.Enc) (f : Form) (op : Fmt → Nat → Nat) : State :=
  s.issue c e f fun s g x next => s.fresult g e.ra next (op (fmtOf e) (x.fr e.rb).toNat, 0)

/-- A compare: FCEQ is invalid only for a signalling NaN, the others for any (R120). -/
def State.fcompare (s : State) (c : Nat) (e : Sys2Proof.Enc) (f : Form) (quiet : Bool) (op : FVal → FVal → Bool) : State :=
  s.issue c e f fun s g x next =>
    let m := fmtOf e
    let a := x.rdF m e.rb
    let b := x.rdF m e.rc
    let bad := if quiet then decide (a = .nan true) || decide (b = .nan true) else a.isNan || b.isNan
    .next (s.modCtx g fun x => x.setG e.ra (BitVec.ofNat 32 (b2n (op a b)))) next (if bad then flNV else 0) none

/-! ### String and move (R86, R87, R122, R123) -/

/-- Block-repeat registers after one iteration (R86). -/
def Ctx.stepBlock (x : Ctx) : Ctx :=
  let st := x.sp 23
  ((x.setSp 21 ((x.sp 21 + sext 16 32 (bits st 15 0)) % 2 ^ 32)).setSp 22
    ((x.sp 22 + sext 16 32 (bits st 31 16)) % 2 ^ 32)).setSp 20 (x.sp 20 - 1)

/-- After an iteration: on to the next under RPT while BCNT is not 0.
(DEDUCED, safe: log 12.) -/
def State.blockNext (s : State) (g : Nat) (e : Sys2Proof.Enc) (next : Word) : Res :=
  let s := s.modCtx g Ctx.stepBlock
  if e.rpt = true ∧ (s.ctx g).sp 20 ≠ 0 then .again s else .next s next 0 none

/-- One iteration of a move from BSRC, or of a fill where src is none: n bytes to BDST.
(DEDUCED, safe: log 12.)
(DESIGN CHOICE, unsafe: log 94.) -/
def State.moveBlock (s : State) (c : Nat) (e : Sys2Proof.Enc) (f : Form) (n : Nat) (fill : Bool) : State :=
  s.issue c e f fun s g x next =>
    if x.sp 20 = 0 then .next s next 0 none
    else
      match x.locate e (x.sp 22) n with
      | none => .fault fAddrMode 0 (x.sp 22)
      | some d =>
        let put := fun (s : State) (b : List Byte) =>
          match s.coreStore c g d b with
          | .fault code detail => Res.fault code detail d
          | .hold s => .hold s
          | .ok s => s.blockNext g e next
        if fill then put s (leBytes n (x.rdG e.wide e.ra))
        else if s.alignBad c (x.sp 21) n = false ∧ s.alignBad c d n = true then .fault fAlign 0 d
        else
          match s.coreLoad c g (x.sp 21) n false with
          | .fault code detail => .fault code detail (x.sp 21)
          | .hold s => .hold s
          | .oem s tag => .hold (s.oemHold c g (x.sp 21) tag)
          | .ok s b _ => put s b

/-- One iteration of a scan or compare: it stops where the rule says, with 1 in ra, and ends with 0 (R123).
(DEDUCED, safe: log 12.) -/
def State.seekBlock (s : State) (g : Nat) (e : Sys2Proof.Enc) (next : Word) (stop : Bool) : Res :=
  let done := fun (s : State) (v : Nat) => Res.next (s.modCtx g fun x => x.setG e.ra (BitVec.ofNat 32 v)) next 0 none
  if stop then done s 1
  else
    let s := s.modCtx g Ctx.stepBlock
    if e.rpt = true ∧ (s.ctx g).sp 20 ≠ 0 then .again s else done s 0

/-! ### Bits (R124–R130) -/

/-- The bit operand's byte read, and what is done with it. A bus error that the read meets has DETAIL bit 0 clear, before a bit
store's write as well.
(DESIGN CHOICE, unsafe: log 109.) -/
def State.bitRead (s : State) (c g : Nat) (a : Nat) (k : State → Byte → Res) : Res :=
  match s.coreLoad c g a 1 true with
  | .fault code detail => .fault code detail a
  | .hold s => .hold s
  | .oem s tag => .hold (s.oemHold c g a tag)
  | .ok s b _ => k s (b.headD 0)

/-- An instruction on a bit operand. -/
def State.bitOp (s : State) (c : Nat) (e : Sys2Proof.Enc) (f : Form) (body : State → Nat → Ctx → Word → Nat → Byte → Res) : State :=
  s.issue c e f fun s g x next => s.bitRead c g (x.ea e) fun s b => body s g x next (x.ea e) b

/-- A bit instruction that combines ra with the bit (R125). -/
def State.bitLogic (s : State) (c : Nat) (e : Sys2Proof.Enc) (f : Form) (op : Bool → Bool → Bool) : State :=
  s.bitOp c e f fun s g _ next _ b =>
    .next (s.modCtx g fun x => x.setG e.ra (BitVec.ofNat 32 (b2n (op (decide (x.gr e.ra ≠ 0)) (b.toNat.testBit e.imm))))) next 0 none

/-- A byte with one bit set to a value. -/
def withBit (b : Byte) (n : Nat) (v : Bool) : Byte := BitVec.ofNat 8 (putBit b.toNat n v)

/-- A bit store: the whole byte is read and written (R124). -/
def State.bitStore (s : State) (c : Nat) (e : Sys2Proof.Enc) (f : Form) : State :=
  s.bitOp c e f fun s g x next a b => s.storeRes c g a [withBit b e.imm (decide (x.gr e.ra ≠ 0))] next id

/-- BSET and BRST, which make no access where ra = 0. -/
def State.bitForce (s : State) (c : Nat) (e : Sys2Proof.Enc) (f : Form) (value : Bool) : State :=
  s.issue c e f fun s g x next =>
    if x.gr e.ra = 0 then .next s next 0 none
    else s.bitRead c g (x.ea e) fun s b => s.storeRes c g (x.ea e) [withBit b e.imm value] next id

/-- An edge against the instance bit, which is written only when it changes (R130). -/
def State.edgeOp (s : State) (c : Nat) (e : Sys2Proof.Enc) (f : Form) (rising : Bool) : State :=
  s.bitOp c e f fun s g x next a b =>
    let cur := decide (x.gr e.ra ≠ 0)
    let prev := b.toNat.testBit e.imm
    let out := if rising then cur && !prev else !cur && prev
    let post := fun (x : Ctx) => x.setG e.ra (BitVec.ofNat 32 (b2n out))
    if cur = prev then .next (s.modCtx g post) next 0 none else s.storeRes c g a [withBit b e.imm cur] next post

/-- Address of a bit table from the next instruction's address (R126). -/
def tableAt (next : Word) (unit bits_ imm : Nat) : Nat :=
  (((next.toNat / unit * unit : Nat) + toS bits_ imm * (unit : Int)) % (2 ^ 32 : Nat)).toNat

/-- Eight bits gathered under a descriptor (R127, R128): each valid entry's byte is read through the bit unit. A bus error comes
before an error in SRAM, wherever they lie (R98).
(DEDUCED, unsafe: log 18.) -/
def State.gather (s : State) (c g base : Nat) (d : List Byte) : LdAns × Nat :=
  (List.range 8).foldl (fun (p : LdAns × Nat) k =>
    let e := leAt d (2 * k) 2
    let a := (base + bits e 14 3) % 2 ^ 32
    if bit e 15 = false then p
    else match p.1 with
    | .ok s _ _ =>
      (match s.coreLoad c g a 1 true with
      | .ok s b _ => (.ok s [] false, p.2 + 2 ^ k * b2n ((b.headD 0).toNat.testBit (e % 8)))
      | r => (r, a))
    | .fault code _ =>
      (match s.coreLoad c g a 1 true with
      | .fault code' detail' => if code = fEcc ∧ code' = fBusErr then (.fault code' detail', a) else p
      | _ => p)
    | _ => p) (.ok s [] false, 0)

/-- The contact network of R129. -/
def rungEval (lo hi v : Nat) (power : Bool) : Bool :=
  let r := (List.range 32).foldl (fun (p : Bool × Bool × Bool) k =>
    let (acc, br, have_) := p
    match bit hi k, bit lo k with
    | true, true => (acc || (br && have_), true, false)
    | false, false => p
    | true, false => (acc, br && !bit v k, true)
    | false, true => (acc, br && bit v k, true)) (false, true, false)
  power && (r.1 || (r.2.1 && r.2.2))

/-! ### Timer cells (R131–R134) -/

/-- now of a core: the microsecond count of its Strand (R132, R18). -/
def State.nowOf (s : State) (c : Nat) : Nat := s.dieUs (strandOf c) % 2 ^ 32

/-- The cell operand of a timer instruction: ALIGN comes before BUSERR (R98). A rebase under way has gone on to the present
(R213), and a corrected error is counted (R90). -/
def State.cellAt (s : State) (c g : Nat) (a align detail : Nat) : Res ⊕ (State × Nat) :=
  if a % align ≠ 0 then .inl (.fault fAlign 0 a)
  else match s.coreWhere c a (decide ((s.ctx g).task = 0)) with
    | .timer off =>
      let k := mTimer (strandOf c) + off
      if s.eccOf k align = 2 then .inl (.fault fEcc 0 a) else .inr ((s.rebaseTo (strandOf c)).countCorr c k align, k)
    | _ => .inl (.fault fBusErr detail a)

/-- CTRL with Q, RUN and PIN set, its other bits unchanged (R131). -/
def ctrlWith (v : Nat) (q run pin : Bool) : Nat := putBit (putBit (putBit v 0 q) 1 run) 2 pin

/-- One evaluation of a timer (R133): the cell after it and Q. -/
def tonEval (x : Cell) (in_ : Bool) (now : Nat) : Cell :=
  let q := bit x.ctrl 0
  let run := bit x.ctrl 1
  let pin := bit x.ctrl 2
  if in_ = false then { x with ctrl := ctrlWith x.ctrl false false pin, elapsed := 0 }
  else if run = false ∧ q = false then
    { x with
      stamp := now
      elapsed := 0
      ctrl := if x.preset = 0 then ctrlWith x.ctrl true run pin else ctrlWith x.ctrl q true pin }
  else if run then
    let t := Nat.min x.preset (sub32 now x.stamp)
    { x with
      elapsed := t
      ctrl := if t = x.preset then ctrlWith x.ctrl true false pin else x.ctrl }
  else x

def tofEval (x : Cell) (in_ : Bool) (now : Nat) : Cell :=
  let q := bit x.ctrl 0
  let run := bit x.ctrl 1
  let pin := bit x.ctrl 2
  if in_ then { x with ctrl := ctrlWith x.ctrl true false pin, elapsed := 0 }
  else if q = true ∧ run = false then
    { x with
      stamp := now
      elapsed := 0
      ctrl := if x.preset = 0 then ctrlWith x.ctrl false run pin else ctrlWith x.ctrl q true pin }
  else if run then
    let t := Nat.min x.preset (sub32 now x.stamp)
    { x with
      elapsed := t
      ctrl := if t = x.preset then ctrlWith x.ctrl false false pin else x.ctrl }
  else x

def tpEval (x : Cell) (in_ : Bool) (now : Nat) : Cell :=
  let q := bit x.ctrl 0
  let run := bit x.ctrl 1
  let pin := bit x.ctrl 2
  let x :=
    if run then
      let t := Nat.min x.preset (sub32 now x.stamp)
      { x with
        elapsed := t
        ctrl := if t = x.preset then ctrlWith x.ctrl false false pin else x.ctrl }
    else if in_ = true ∧ pin = false then
      { x with
        stamp := now
        elapsed := 0
        ctrl := if x.preset ≠ 0 then ctrlWith x.ctrl true true pin else ctrlWith x.ctrl q run pin }
    else x
  let x := if bit x.ctrl 1 = false ∧ in_ = false then { x with elapsed := 0 } else x
  { x with ctrl := putBit x.ctrl 2 in_ }

/-- TON, TOF and TP: IN is ra ≠ 0, and Q is written to ra (R132). -/
def State.timerOp (s : State) (c : Nat) (e : Sys2Proof.Enc) (f : Form) (eval : Cell → Bool → Nat → Cell) : State :=
  s.issue c e f fun s g x next =>
    match s.cellAt c g (x.ea e) 16 1 with
    | .inl r => r
    | .inr (s, k) =>
      let y := eval (s.cell k) (decide (x.gr e.ra ≠ 0)) (s.nowOf c)
      .next ((s.setCell k y).modCtx g fun x => x.setG e.ra (BitVec.ofNat 32 (b2n (bit y.ctrl 0)))) next 0 none

/-- COUNT of a counter pair, and its sum with ra, saturated (R134). -/
def cntSum (count ra : Nat) : Nat := ofS 64 (clampTo int64Min int64Max (toS 64 count + toS 32 ra))

/-! ### Special registers (R66, R136) -/

/-- Registers an MTS may write: for task 0, and for tasks 1–255. -/
def spWritable (task0 : Bool) (n : Nat) : Bool :=
  decide (1 ≤ n ∧ n ≤ 3) || decide (12 ≤ n ∧ n ≤ 23) || (task0 && (decide (7 ≤ n ∧ n ≤ 9) || decide (n = 11)))

/-- Registers an MFS may read. -/
def spReadable (task0 : Bool) (n : Nat) : Bool := task0 || (decide (n ≠ 9) && decide (n ≠ 11))

/-- Value of a special register for an MFS of context g. -/
def State.spValue (s : State) (g n : Nat) : Nat :=
  let x := s.ctx g
  match n with
  | 0 => x.pc.toNat
  | 4 => x.task
  | 5 => g % 16
  | 6 => g / 16
  | 10 => x.npcnt
  | 11 => x.finfo.toNat
  | 24 => s.nowOf (g / 16)
  | _ => x.sp n

/-- A register as an MTS writes it, reserved bits left 0. -/
def Ctx.putSp (x : Ctx) (n v : Nat) : Ctx :=
  match n with
  | 1 => x.setSp 1 (v &&& statusMask)
  | 2 => x.setSp 2 (v &&& statusMask)
  | 3 => x.setSp 3 (v &&& fpcrMask)
  | 11 => if v = 0 then { x with finfo := 0 } else x
  | _ => x.setSp n v

/-! ### XCHG, CMPW and CNT64 -/

/-- The exchange of R116: on data SRAM and the Headland's image and global SRAM alone. It waits for the write buffer, and on a
line of Q that the image store holds (R190) it waits as a whole.
(DEDUCED, unsafe: log 14.) -/
def State.exchange (s : State) (c g a ra : Nat) (next : Word) : Res :=
  let x := s.ctx g
  let ok := match s.coreWhere c a (decide (x.task = 0)) with
    | .own _ => true
    | .far (.data _ _) => true
    | .far (.head _) => true
    | _ => false
  if a % 4 ≠ 0 then .fault fAlign 0 a
  else if ok = false then .fault fBusErr 1 a
  else
    let t := s.drainAll c
    let held := match t.coreWhere c a false with
      | .far (.head off) => (qLines off 4).any t.lineHeld
      | _ => false
    if s.struck t g || decide ((t.core c).wbuf ≠ []) || held then .hold t
    else match t.readPieces c g false [(a, 4)] with
      | .fault code detail => .fault code detail a
      | .hold s => .hold s
      | .oem s _ => .hold s
      | .ok s b _ =>
        let s := ((s.bufStore g a (leBytes 4 (x.gr ra).toNat)).drainAll c)
        .next (s.modCtx g fun y => y.setG ra (BitVec.ofNat 32 (leNat b))) next 0 none

/-- The words at two addresses read and compared; of two faults the one that R98 names first is reported. -/
def State.compareWords (s : State) (c g a d : Nat) (k : State → Bool → Res) : Res :=
  if s.alignBad c a 4 then .fault fAlign 0 a
  else if s.alignBad c d 4 then .fault fAlign 0 d
  else match s.coreLoad c g a 4 false with
  | .fault code detail =>
    match s.coreLoad c g d 4 false with
      | .fault code' detail' => if code = fEcc ∧ code' = fBusErr then .fault code' detail' d else .fault code detail a
      | _ => .fault code detail a
  | .hold s => .hold s
  | .oem s tag => .hold (s.oemHold c g a tag)
  | .ok s b _ => match s.coreLoad c g d 4 false with
    | .fault code detail => .fault code detail d
    | .hold s => .hold s
    | .oem s tag => .hold (s.oemHold c g d tag)
    | .ok s b' _ => k s (decide (b ≠ b'))

/-- CNT64 on a pair of 32 bytes, in the timer array or in Bedrock (R134, R440). One whose transaction INHIBIT refuses raises BUSERR
with DETAIL bit 0 set, and counts.
(DEDUCED, unsafe: log 60.) -/
def State.count64 (s : State) (c g a ra : Nat) (next : Word) : Res :=
  let x := s.ctx g
  let done := fun (s : State) (count preset : Nat) =>
    Res.next (s.modCtx g fun y => y.setG ra (BitVec.ofNat 32 (b2n (decide (toS 64 preset ≤ toS 64 count))))) next 0 none
  if a % 32 ≠ 0 then .fault fAlign 0 a
  else match s.coreWhere c a (decide (x.task = 0)) with
    | .timer _ => match s.cellAt c g a 32 1 with
      | .inl r => r
      | .inr (s, k) =>
        let old := s.rd k 8
        let new := cntSum old (x.gr ra).toNat
        let s := if new = old then s else s.sramWrite k (leBytes 8 new) |>.sramWrite (k + 12) (leBytes 4 (s.nowOf c))
        done s new (s.rd (k + 16) 8)
    | .far (.bed off) =>
      let q := s.bedReq g
      if s.bedOk q false off 32 = false ∨ s.bedOk q true off 32 = false then .fault fBusErr 1 a
      else
        let s := s.finishApply
        let old := s.rd (mBed + off) 8
        let new := cntSum old (x.gr ra).toNat
        if new = old then done s new (s.rd (mBed + off + 16) 8)
        else
          let m := stageBytes (stageBytes [] off (leBytes 8 new)) (off + 12) (leBytes 4 (s.nowOf c))
          let (s, ok) := s.bedTxn m
          if ok then done s new (s.rd (mBed + off + 16) 8) else .counted s fBusErr 1 a
    | _ => .fault fBusErr 1 a

/-! ### The end of a wait (R93, R146, R158) -/

/-- A section's END has its drain acknowledgement: its context is FREE and its flag is due; task 0 is suspended while no bit
of TDS.KEVENTS is set. A Bedrock transaction that the context owns is discarded (R439).
(DEDUCED, unsafe: log 106.) -/
def State.endDone (s : State) (g : Nat) : State :=
  let s := s.bedDrop fun r => decide (r = g)
  let x := s.ctx g
  if x.task = 0 then
    (if s.ob K.TDS_KEVENTS = 0 then (s.modCtx g fun x => { x with wait := .none, cs := .gated }).resched (g / 16)
     else s.modCtx g fun x => { x with wait := .none })
  else ((s.modCtx g Ctx.free).modTask x.task fun k => { k with ended := k.ended ++ [x.sec] }).resched (g / 16)

/-- The drain acknowledgement returns over the Strand link for a context that waits for it; over a link that is DOWN none returns
(R15, R18).
(DEDUCED, unsafe: log 14.) -/
def State.drainAck (s : State) (g : Nat) : State :=
  let k := s.core (g / 16)
  if k.wbuf ≠ [] ∨ s.linkUp (strandOf (g / 16)) = false then s
  else match (s.ctx g).wait with
    | .sync => s.modCtx g fun x => { x with wait := .none }
    | .fence => (s.modCtx g fun x => { x with wait := .loads }).loadsDone g
    | .endSection => s.endDone g
    | _ => s

end Sys2Proof.Machine
end

