-- ==== Sys2Proof/Machine/CoreEvents.lean ====
section
/-! DEFINITION. What a core does beside its instructions (R70, R72, R91, R93, R102). -/

namespace Sys2Proof.Machine

/-- NPCNT reaches 64 (R72). -/
def execBracketLimit (c : Nat) (s : State) : Host.Outcome State Fault Refusal :=
  .next (match s.running c with
    | some g => s.bracketEnd g
    | none => s)

/-- The oldest load in flight returns (R70).
(DEDUCED, unsafe: log 13.) -/
def execLoadDataReturn (c : Nat) (s : State) : Host.Outcome State Fault Refusal := .next (s.landOne c)

/-- A stalled store proceeds as far as the write buffer has room (R91). -/
def execWriteBufferRoom (c : Nat) (s : State) : Host.Outcome State Fault Refusal :=
  .next (match s.running c with
    | some g => if (s.ctx g).wait = .store then (s.storeGoesOn g).resched c else s
    | none => s)

/-- The oldest entry of the write buffer drains (R91). -/
def execWriteBufferDrain (c : Nat) (s : State) : Host.Outcome State Fault Refusal := .next (s.drainOne c)

/-- The drain acknowledgement returns for one context (R18, R93). -/
def execDrainAck (c ctx : Nat) (s : State) : Host.Outcome State Fault Refusal := .next (s.drainAck (16 * c + ctx % 16))

/-- CPU.CTL is written (R102). -/
def execCpuCtlWrite (ses c v : Nat) (s : State) : Host.Outcome State Fault Refusal :=
  .next (s.setCmd ses (K.CPU_CTL (c + 1)) v)

end Sys2Proof.Machine
end

