-- ==== Sys2Proof/Machine/DictRows.lean ====
section
/-! DEFINITION. Rows of the dictionary: object writes, login, transactions, domain transfers and the OEM range (R33–R57). -/

namespace Sys2Proof.Machine

/-- OBJECT_WRITE (R41). -/
def execObjectWrite (ses idx sub width v : Nat) (s : State) : Host.Outcome State Fault Refusal :=
  .next (s.dictWrite ses (idx * 256 + sub) 0 width v)

/-- LOGIN (R34).
(DEDUCED, unsafe: log 22.) -/
def execLogin (ses v : Nat) (s : State) : Host.Outcome State Fault Refusal := .next (s.setCmd ses K.DIC_LOGIN v)

/-- LOCKOUT_END (R35). -/
def execLockoutEnd (path : Nat) (s : State) : Host.Outcome State Fault Refusal := .next (s.lockoutEnd path)

/-- SESSION_IDLE_CLOSE (R37). -/
def execSessionIdleClose (ses : Nat) (s : State) : Host.Outcome State Fault Refusal := .next (s.sesIdle ses)

/-- TXN_BEGIN (R46). -/
def execTxnBegin (ses : Nat) (s : State) : Host.Outcome State Fault Refusal := .next (s.setCmd ses K.DIC_TXN 1)

/-- TXN_COMMIT (R48). -/
def execTxnCommit (ses : Nat) (s : State) : Host.Outcome State Fault Refusal := .next (s.setCmd ses K.DIC_TXN 2)

/-- TXN_DISCARD (R52). -/
def execTxnDiscard (ses : Nat) (s : State) : Host.Outcome State Fault Refusal := .next (s.setCmd ses K.DIC_TXN 3)

/-- DIE_VOTE (R49, R563). -/
def execDieVote (ses die : Nat) (s : State) : Host.Outcome State Fault Refusal := .next (s.dieVote ses die)

/-- HANDSHAKE_TIMEOUT (R19): 1 a tidemark's acknowledgement, 2 a PREPARE's vote, 3 a dictionary commit's vote or
confirmation, 4 a bank switch's confirmation.
(DEDUCED, unsafe: log 26.) -/
def execHandshakeTimeout (kind ses die : Nat) (s : State) : Host.Outcome State Fault Refusal :=
  .next (
    if kind = 1 then s.tidemarkLost die
    else if kind = 2 then
      (if s.olc.st = .verified ∧ s.olc.ask.contains die = true then
         ((s.raise 0x07 die die 0 2 0).prepareTake die (if die = 0 ∨ s.domOn (dS die) = true then 4 else 1)).olcReply
       else s)
    else if kind = 3 then s.txnTimeout ses die
    else s.confirmLost die)

/-- TXN_APPLY (R50). -/
def execTxnApply (ses die : Nat) (s : State) : Host.Outcome State Fault Refusal := .next (s.txnApply ses die)

/-- APPLY_CONFIRM (R48). -/
def execApplyConfirm (ses die : Nat) (s : State) : Host.Outcome State Fault Refusal := .next (s.txnConfirm ses die)

/-- TXN_EXPIRED (R52). -/
def execTxnExpired (ses : Nat) (s : State) : Host.Outcome State Fault Refusal := .next (s.txnExpire ses)

/-- DOM_OPEN (R55). -/
def execDomOpen (ses v : Nat) (s : State) : Host.Outcome State Fault Refusal := .next (s.setCmd ses K.DIC_DOM_OPEN v)

/-- DOM_APERTURE_ACCESS (R55, R56). -/
def execDomApertureAccess (ses : Nat) (write : Bool) (at_ width v : Nat) (s : State) : Host.Outcome State Fault Refusal :=
  .next (if !s.served ses then s else if write then s.apWrite ses at_ width v else (s.apRead ses at_ width).1)

/-- DOM_CLOSE_COMMIT (R56). -/
def execDomCloseCommit (ses : Nat) (s : State) : Host.Outcome State Fault Refusal := .next (s.setCmd ses K.DIC_DOM_CLOSE 1)

/-- DOM_CLOSE_ABANDON (R56). -/
def execDomCloseAbandon (ses : Nat) (s : State) : Host.Outcome State Fault Refusal := .next (s.setCmd ses K.DIC_DOM_CLOSE 2)

/-- OEM_REQUEST (R57). -/
def execOemRequest (ses idx sub : Nat) (write : Bool) (v : Nat) (s : State) : Host.Outcome State Fault Refusal :=
  .next (if isOem idx && s.served ses then s.oemEnter ses (idx * 256 + sub) write v else s)

/-- OEM_REQ_TAKE: task 0 opens a read of DIC.OEM_REQ (R57). -/
def execOemReqTake (s : State) : Host.Outcome State Fault Refusal := .next (s.openDomain 0 K.DIC_OEM_REQ)

/-- OEM_ANSWER (R57). -/
def execOemAnswer (tag status data : Nat) (s : State) : Host.Outcome State Fault Refusal := .next (s.oemAnswer tag status data)

/-- OEM_TIMEOUT (R57). -/
def execOemTimeout (tag : Nat) (s : State) : Host.Outcome State Fault Refusal := .next (s.oemExpire tag)

end Sys2Proof.Machine
end

