-- ==== Sys2Proof/Machine/DmaCmd.lean ====
section
/-! DEFINITION. Commands of the DMA channels: each row is one write of the command object by a session, with every
check of R41 and the effect that its rule gives. -/

namespace Sys2Proof.Machine

/-- DMA.CMD START (R421). -/
def execDmaStart (ses ch : Nat) (s : State) : Host.Outcome State Fault Refusal := .next (s.setCmd ses (K.DMA_CMD (ch + 1)) 1)

/-- DMA.CMD STOP (R422). -/
def execDmaStop (ses ch : Nat) (s : State) : Host.Outcome State Fault Refusal := .next (s.setCmd ses (K.DMA_CMD (ch + 1)) 2)

/-- DMA.CMD PAUSE (R423). -/
def execDmaPause (ses ch : Nat) (s : State) : Host.Outcome State Fault Refusal := .next (s.setCmd ses (K.DMA_CMD (ch + 1)) 3)

/-- DMA.CMD RESUME (R421). -/
def execDmaResume (ses ch : Nat) (s : State) : Host.Outcome State Fault Refusal := .next (s.setCmd ses (K.DMA_CMD (ch + 1)) 4)

/-- DMA.CMD ABORT (R425). -/
def execDmaAbort (ses ch : Nat) (s : State) : Host.Outcome State Fault Refusal := .next (s.setCmd ses (K.DMA_CMD (ch + 1)) 5)

/-- DMA.CMD CLEAR (R421). -/
def execDmaClear (ses ch : Nat) (s : State) : Host.Outcome State Fault Refusal := .next (s.setCmd ses (K.DMA_CMD (ch + 1)) 6)

/-- DMA.EVENT_SET (R416). -/
def execDmaEventSet (ses v : Nat) (s : State) : Host.Outcome State Fault Refusal := .next (s.setCmd ses K.DMA_EVENT_SET v)

end Sys2Proof.Machine
end

