-- ==== Sys2Proof/Machine/DmaRows.lean ====
section
/-! DEFINITION. Rows of the DMA channels' programs (R412–R423). -/

namespace Sys2Proof.Machine

/-- DMA_MOVE (R414). -/
def execDmaMove (ch : Nat) (s : State) : Host.Outcome State Fault Refusal := .next (s.dmaMove ch)

/-- DMA_LOOP (R415). -/
def execDmaLoop (ch : Nat) (s : State) : Host.Outcome State Fault Refusal := .next (s.dmaLoop ch)

/-- DMA_WAIT (R416). -/
def execDmaWait (ch : Nat) (s : State) : Host.Outcome State Fault Refusal := .next (s.dmaWait ch)

/-- DMA_SIGNAL: the fence first, then the flag and trigger at the read-back (R417). -/
def execDmaSignal (ch : Nat) (s : State) : Host.Outcome State Fault Refusal :=
  .next (s.dmaFin ch fun i => match i with
    | .signal _ => true
    | _ => false)

/-- DMA_FENCE (R417). -/
def execDmaFence (ch : Nat) (s : State) : Host.Outcome State Fault Refusal := .next (s.dmaFin ch fun i => decide (i = .fence))

/-- DMA_END (R417). -/
def execDmaEnd (ch : Nat) (s : State) : Host.Outcome State Fault Refusal := .next (s.dmaFin ch fun i => decide (i = .fin))

/-- DMA_READBACK_DONE (R417). -/
def execDmaReadbackDone (ch : Nat) (s : State) : Host.Outcome State Fault Refusal := .next (s.dmaReadback ch)

/-- DMA_WAIT_RELEASE (R416). -/
def execDmaWaitRelease (ch : Nat) (s : State) : Host.Outcome State Fault Refusal := .next (s.dmaWaitRelease ch)

/-- DMA_WAIT_TIMEOUT (R416). -/
def execDmaWaitTimeout (ch : Nat) (s : State) : Host.Outcome State Fault Refusal := .next (s.dmaWaitTimeout ch)

/-- DMA_PAUSE_DRAINED (R423). -/
def execDmaPauseDrained (ch : Nat) (s : State) : Host.Outcome State Fault Refusal := .next (s.dmaDrained ch)

end Sys2Proof.Machine
end

