-- ==== Sys2Proof/Machine/FieldRows.lean ====
section
/-! DEFINITION. Rows of Breakwater that no session commands (R364–R381), and the read of its edge log. -/

namespace Sys2Proof.Machine

/-- The logic side runs. -/
def State.logicRuns (s : State) : Bool := s.bwFitted && s.domOn dFL

/-- The field side has supply (R366). -/
def State.fieldRuns (s : State) : Bool := s.bwFitted && decide (s.fio.fstate ≠ 3)

/-- The standby's test currents are off where the partners' outputs are wired together (R359, R381). -/
def State.wiredStandby (s : State) : Bool := s.bwWired && decide (s.red.role = .standby)

/-! ### Inputs (R369–R372) -/

/-- A run of FILTER samples at a level, from the one stamped on, that ends now or later: it begins where the filter's count may,
and the raw level that the latest C1 report sampled within it does not gainsay it (R368, R369).
(DEDUCED, unsafe: log 127.) -/
def State.runHolds (s : State) (n : Nat) (rising : Bool) (stamp : Nat) : Bool :=
  decide (mget (fun _ => 0) s.fio.runFrom n ≤ stamp) && decide (s.us < stamp + bits (s.ob (K.FIO_IN_CFG (n + 1))) 15 0) &&
    !(decide (stamp ≤ s.fio.rawAt) && (bit s.fio.raw n != rising))

/-- A filtered state takes a new level at the last of its FILTER samples: the edge belongs to the next latch, is logged and
fires its trigger; a standby keeps only the level, since the active partner's edge records stand in place of its own.
(DEDUCED, unsafe: log 52.) -/
def State.edgeAccept (s : State) (n : Nat) (rising : Bool) (stamp : Nat) : State :=
  if s.logicRuns && s.fieldRuns && decide (n < 16) && bit s.fio.filt n != rising && s.runHolds n rising stamp then
    let last := stamp + bits (s.ob (K.FIO_IN_CFG (n + 1))) 15 0 - 1
    let s := (s.reachUs last).setFio fun f => { f with
      runFrom := mput (fun _ => 0) f.runFrom n (last + 1)
      filt := putBit f.filt n rising
      rise := if rising then putBit f.rise n true else f.rise
      fall := if rising then f.fall else putBit f.fall n true }
    let s := if s.red.role = .standby then s else (s.logEdge n rising stamp).dictate (.edge n rising stamp)
    s.when (s.edgeSel n rising) fun s => s.fire 1 n
  else s

/-- INPUT_EDGE_ACCEPT. -/
def execInputEdgeAccept (n : Nat) (rising : Bool) (stamp : Nat) (s : State) : Host.Outcome State Fault Refusal :=
  .next (s.edgeAccept n rising (stamp % 2 ^ 64))

/-! ### The barrier (R364–R367) -/

/-- C1_STATUS; a report is lost while the die's link is DOWN (R385).
(DEDUCED, unsafe: log 126.) -/
def execC1Status (r : C1) (s : State) : Host.Outcome State Fault Refusal :=
  .next (if s.fieldRuns then
      (let s := s.limitSince r
       if s.logicRuns && s.linkUp 7 then s.c1 r s.wiredStandby s.wiredStandby else s)
    else s)

/-- DIAG_SETTLE_END: FIO.DIAG_SETTLE after the change of command; reports judge the channel again from the next one on (R381). -/
def execDiagSettleEnd (n : Nat) (s : State) : Host.Outcome State Fault Refusal :=
  .next (if s.fieldRuns then
      (s.reachMono (mget (fun _ => 0) s.fio.settle n)).setFio fun f => { f with settle := mput (fun _ => 0) f.settle n 0 }
    else s)

/-- FIELD_SUPPLY_CHANGE; group 0 is L+A, 1 is L+B (R366). -/
def execFieldSupplyChange (grp : Nat) (present : Bool) (s : State) : Host.Outcome State Fault Refusal :=
  .next (if s.bwFitted && decide (grp < 2) then s.supplyChange grp present else s)

/-- FIELD_CONFIG_MESSAGE: one of the items that the logic side has sent (R367). -/
def execFieldConfigMessage (item v : Nat) (s : State) : Host.Outcome State Fault Refusal :=
  .next (if s.fieldRuns && s.fio.cfgPend.contains item then s.fieldConfig item v else s)

/-! ### Outputs (R373–R377) -/

/-- The message at the front of C0 is the named one.
(DEDUCED, unsafe: log 55.) -/
def State.c0Is (s : State) (m : Nat) : Bool := s.bwFitted && decide (s.fio.c0.head? = some m)

/-- FIELD_REFRESH. -/
def execFieldRefresh (s : State) : Host.Outcome State Fault Refusal := .next (if s.c0Is 1 then s.fieldRefresh else s)

/-- FIELD_PARK. -/
def execFieldPark (s : State) : Host.Outcome State Fault Refusal := .next (if s.c0Is 2 then s.fieldPark else s)

/-- FIELD_RECOVER. -/
def execFieldRecover (s : State) : Host.Outcome State Fault Refusal := .next (if s.c0Is 3 then s.fieldRecover else s)

/-- SILENCE_EXPIRY: FIO.SILENCE µs after the last REFRESH, in RUN; a PARK that has come is taken first (R373).
(DEDUCED, unsafe: log 55.) -/
def execSilenceExpiry (s : State) : Host.Outcome State Fault Refusal :=
  .next (if s.bwFitted && decide (s.fio.fstate = 1) then
      (let s := s.reachMono (s.fio.refAt + s.fieldVal 1 * 1000)
       if s.c0Is 2 then s.fieldPark else s.fieldSafe)
    else s)

/-- A channel that conducts: only such a channel is in limit or heats up.
(DEDUCED, unsafe: log 55.) -/
def State.conducts (s : State) (n : Nat) : Bool := s.fieldRuns && decide (n < 16) && bit s.fioApplied n

/-- OVL_SWITCH_OFF: FIO.OVL_TIME in current limit (R377).
(DEDUCED, unsafe: log 126.) -/
def execOvlSwitchOff (n : Nat) (s : State) : Host.Outcome State Fault Refusal :=
  .next (match mget (fun _ => 0) s.fio.limitAt n with
    | 0 => s
    | t + 1 => if s.conducts n then (s.reachMono (t + s.fieldVal 4 * 1000)).ovlOff n 1 else s)

/-- THERMAL_SHUTDOWN. -/
def execThermalShutdown (n : Nat) (s : State) : Host.Outcome State Fault Refusal :=
  .next (if s.conducts n then s.ovlOff n 2 else s)

/-- The set of a channel has cooled; with OVL_RETRY it follows its command again (R377).
(DEDUCED, unsafe: log 126.) -/
def State.cooled (s : State) (n : Nat) : State :=
  let m := fioMask (s.fieldVal 2) n
  let s := s.setFio fun f => { f with thermal := maskOf ((List.range 16).filter fun k => bit f.thermal k && !bit m k) }
  if s.ovlRetries then s.ovlBack n else s

/-- THERMAL_RELEASE. -/
def execThermalRelease (n : Nat) (s : State) : Host.Outcome State Fault Refusal :=
  .next (if s.fieldRuns && bit s.fio.thermal n then s.cooled n else s)

/-- OVL_RETRY: 100 ms after a current-limit switch-off the channel follows its command again (R377).
(DEDUCED, unsafe: log 126.) -/
def execOvlRetry (n : Nat) (s : State) : Host.Outcome State Fault Refusal :=
  .next (match mget (fun _ => 0) s.fio.offAt n with
    | 0 => s
    | t + 1 => if s.fieldRuns && s.ovlRetries && bit s.fio.off n then (s.reachMono (t + 100000000)).ovlBack n else s)

/-- EDGE_LOG_READ. -/
def execEdgeLogRead (ses : Nat) (s : State) : Host.Outcome State Fault Refusal := .next (s.openDomain ses K.FIO_EDGE_LOG)

end Sys2Proof.Machine
end

