-- ==== Sys2Proof/Machine/NetCmd.lean ====
section
/-! DEFINITION. Commands of the field network, network time, the pair and the field I/O: each row is one write of the command
object by a session, with every
check of R41 and the effect that its rule gives. -/

namespace Sys2Proof.Machine

/-- HNW.CMD SCAN (R286). -/
def execHnwScan (ses : Nat) (s : State) : Host.Outcome State Fault Refusal := .next (s.setCmd ses K.HNW_CMD 1)

/-- HNW.CMD CONFIGURE (R286). -/
def execHnwConfigure (ses : Nat) (s : State) : Host.Outcome State Fault Refusal := .next (s.setCmd ses K.HNW_CMD 2)

/-- NTM.INCR (R302). -/
def execNtmIncrWrite (ses v : Nat) (s : State) : Host.Outcome State Fault Refusal := .next (s.setCmd ses K.NTM_INCR v)

/-- NTM.OFFSET (R305). -/
def execNtmOffset (ses v : Nat) (s : State) : Host.Outcome State Fault Refusal := .next (s.setCmd ses K.NTM_OFFSET v)

/-- NTM.OFFSET_FORCE (R306). -/
def execNtmOffsetForce (ses v : Nat) (s : State) : Host.Outcome State Fault Refusal := .next (s.setCmd ses K.NTM_OFFSET_FORCE v)

/-- NTM.GCL_CFG (R326). -/
def execGclActivate (ses port v : Nat) (s : State) : Host.Outcome State Fault Refusal := .next (s.setCmd ses (K.NTM_GCL_CFG (port + 1)) v)

/-- RED.CMD LEAVE (R335). -/
def execRedLeave (ses : Nat) (s : State) : Host.Outcome State Fault Refusal := .next (s.setCmd ses K.RED_CMD 1)

/-- RED.CMD RESYNC (R355). -/
def execRedResync (ses : Nat) (s : State) : Host.Outcome State Fault Refusal := .next (s.setCmd ses K.RED_CMD 2)

/-- RED.CMD SWITCHOVER (R357). -/
def execRedSwitchover (ses : Nat) (s : State) : Host.Outcome State Fault Refusal := .next (s.setCmd ses K.RED_CMD 3)

/-- RED.CMD DRILL (R357). -/
def execRedDrill (ses : Nat) (s : State) : Host.Outcome State Fault Refusal := .next (s.setCmd ses K.RED_CMD 4)

/-- FIO.CMD PARK (R375). -/
def execFioPark (ses : Nat) (s : State) : Host.Outcome State Fault Refusal := .next (s.setCmd ses K.FIO_CMD 1)

/-- FIO.CMD RECOVER (R375). -/
def execFioRecover (ses : Nat) (s : State) : Host.Outcome State Fault Refusal := .next (s.setCmd ses K.FIO_CMD 2)

/-- FIO.CMD CLEAR_OVL (R377). -/
def execFioClearOvl (ses : Nat) (s : State) : Host.Outcome State Fault Refusal := .next (s.setCmd ses K.FIO_CMD 3)

end Sys2Proof.Machine
end

