-- ==== Sys2Proof/Machine/NetRows.lean ====
section
/-! DEFINITION. Rows of the field network and of network time that no session commands (R262–R327), and the transfers that read
or fill
its queues. -/

namespace Sys2Proof.Machine

/-! ### Trains -/

/-- The ebb trains of this tide leave for the queues, once (R274).
(DEDUCED, safe: log 48.) -/
def State.ebbTrainsNow (s : State) : State :=
  if s.inEbb && s.domOn dNW && !s.hnw.ebbSent then
    ((s.reach (s.tds.ebbAt + s.ob K.HNW_EBB_LAUNCH)).ebbTrains).setHnw fun h => { h with ebbSent := true }
  else s

/-- EBB_TRAIN_LAUNCH (R274). -/
def execEbbTrainLaunch (s : State) : Host.Outcome State Fault Refusal := .next s.ebbTrainsNow

/-- ARMED_SCHEDULE (R275).
(DEDUCED, safe: log 48.) -/
def execArmedSchedule (s : State) : Host.Outcome State Fault Refusal :=
  .next (if s.tds.st = .armed ∧ s.domOn dNW = true then s.schedules else s)

/-- The frame is one that this partner sent. -/
def State.sentHere (s : State) (h : Hdr) : Bool := decide (h.pair = s.ob K.HNW_PAIR_ID) && decide (h.partner = s.redId)

/-- The frame is of the controller's EtherType and of this TYPE (R263, R269). -/
def State.isType (s : State) (fr : Rx) (typ : Nat) : Bool :=
  decide (fr.etype = s.ob K.HNW_ETHERTYPE) && decide ((rxHeader fr).typ = typ)

/-- The segments of a frame's body, as many as COUNT says and the body can hold (R271). -/
def rxSegs (fr : Rx) (body : List Byte) : List Seg := readSegs (Nat.min (rxHeader fr).count (body.length / 8)) body

/-- EBB_FRAME_RECEIVE: each segment in turn, and the end of input where it is the last one expected (R142, R276); the segments of
a frame that fails R269 are stale. -/
def execEbbFrameReceive (fr : Rx) (body : List Byte) (s : State) : Host.Outcome State Fault Refusal :=
  .next (if s.portRuns fr.port && s.isType fr 1 && !rxHeaderOk fr then
      (s.ingress fr false).1.addOb K.HNW_RX_STALE (rxSegs fr body).length
    else s.arrive fr false fun s =>
      if s.isType fr 1 then
        (let h := rxHeader fr
         let s := s.when (s.sentHere h) fun s => s.ringSeen fr.port h
         (s.each (rxSegs fr body) fun s g => s.ebbSeg fr.port (s.ownFrame h && s.tideOn) g).inputCheck)
      else s)

/-- SLACK_FRAME_RECEIVE (R277, R295). -/
def execSlackFrameReceive (fr : Rx) (body : List Byte) (s : State) : Host.Outcome State Fault Refusal :=
  .next (s.arrive fr false fun s =>
    if s.isType fr 2 then
      (let h := rxHeader fr
       let s := s.when (s.sentHere h) fun s => s.ringSeen fr.port h
       if s.ownFrame h then s.each (rxSegs fr body) State.slackSeg else s)
    else s)

/-! ### Frames of others -/

/-- The port that a transit frame leaves by: the ring's other one, or the one it came in on (R266).
(DEDUCED, safe: log 44.) -/
def State.transitPort (s : State) (p : Nat) : Nat :=
  if s.isRing p then p + 1 else if s.ringSecond p then p - 1 else p

/-- The class that a transit frame leaves in: cyclic frames, PTP event messages, everything else (R293). -/
def transitClass (fr : Rx) (body : List Byte) : Nat :=
  if fr.etype = 0x88F7 then (if ptpType body < 4 then 2 else 3)
  else if 1 ≤ (rxHeader fr).typ ∧ (rxHeader fr).typ ≤ 3 then 1 else 3

/-- A frame that the partner sent (R266): a PTP frame names no partner. -/
def State.ofPartner (s : State) (fr : Rx) : Bool :=
  decide (fr.etype = 0x88F7) || (decide (fr.etype = s.ob K.HNW_ETHERTYPE) &&
    decide ((rxHeader fr).pair = s.ob K.HNW_PAIR_ID) && decide ((rxHeader fr).partner ≠ s.redId))

/-- A frame of the partner as it goes on: every byte of its own; tagged where TAG asks for it and it has no tag (R263, R266). -/
def State.transitTx (s : State) (fr : Rx) (cls : Nat) (body : List Byte) : TxF :=
  let h := rxHeader fr
  { TxF.init with
    cls := cls
    kind := .transit
    len := fr.bytes + if fr.vid.isNone then 4 * b2n s.vtag.isSome else 0
    dst := fr.dst
    src := fr.src
    vtag := if fr.vid.isSome then fr.vid else s.vtag
    etype := fr.etype
    typ := h.typ
    pair := h.pair
    partner := h.partner
    turned := h.turned
    turn := h.turn
    count := h.count
    tide := h.tide
    index := h.index
    seq := h.seq
    point := h.point
    last := h.last
    grant := h.grant
    dir := decide (h.dir = 1)
    body := if fr.etype = 0x88F7 then body else fr.hdr ++ body
    inPort := fr.port
    inAt := s.ingressNs fr.port }

/-- TRANSIT_FRAME: the partner's frame goes on unchanged but for the corrections of its launch (R266, R311, R315); the class
follows from its EtherType and TYPE, and no other class names a frame that comes.
(DEDUCED, safe: log 44.) -/
def execTransitFrame (fr : Rx) (cls : Nat) (body : List Byte) (s : State) : Host.Outcome State Fault Refusal :=
  .next (if cls = transitClass fr body then s.arrive fr (decide (cls ≠ 1)) fun s =>
    if s.inPair && decide (fr.port < 16) && s.ofPartner fr then
      let s := s.when (decide (fr.etype = 0x88F7)) fun s => s.ptpQueue fr.port (fr.bytes - 4) body
      s.enqueue (s.transitPort fr.port) (s.transitTx fr cls body)
    else s
   else s)

/-- EVENT_FRAME: the first copy of an event is accepted, and fires the station's slot where EVEN is 1 (R273, R280, R281).
(DEDUCED, unsafe: log 47.) -/
def execEventFrame (fr : Rx) (body : List Byte) (s : State) : Host.Outcome State Fault Refusal :=
  .next (s.arrive fr true fun s =>
    let station := beAt body 0 2 % 4096
    let evseq := beAt body 2 2
    let stamp := beAt body 4 8
    let data := leAt body 12 8
    if s.isType fr 4 && decide ((rxHeader fr).pair = s.ob K.HNW_PAIR_ID) && s.staEn station &&
        decide (s.staPort station = s.trunkOf fr.port) &&
        decide (mget (fun _ => 0) s.hnw.evseq station ≠ evseq % 65536 + 1) then
      let s := s.setHnw fun n => { n with evseq := mput (fun _ => 0) n.evseq station (evseq % 65536 + 1) }
      let s := (s.setOb (K.HST_EVENT_DATA station) (data % 2 ^ 64)).setOb (K.HST_EVENT_STAMP station) (stamp % 2 ^ 64)
      let v := s.ob (K.HST_CFG station)
      s.when (bit v 8) fun s => s.fire 2 (bits v 7 0)
    else s)

/-! ### Service requests to stations (R287–R290) -/

/-- Where a request to a station or a position goes, and whether there is such a way out.
(DESIGN CHOICE, safe: log 45.) -/
def State.routeWay (s : State) (mode num : Nat) : Nat × Bool :=
  if mode = 0 then (s.staPort num, s.staEn num)
  else (s.trunks.getD (Config.positionPort num % s.trunks.length) 0, !s.trunks.isEmpty)

/-- A routed request, from its TARGET, OP and body: it comes in by an engineering port, or over the mooring links with use 4. -/
def mkRoute (use_ : Nat) (byPos : Bool) (num op tag ses idx sub off : Nat) (data : List Byte) : Route :=
  { rid := 0
    src := 0
    eng := 0
    peer := { mac := 0, udp := none }
    tag := tag
    use := use_
    port := 0
    byPos := byPos
    num := num
    ses := ses
    op := op
    idx := idx
    sub := sub
    off := off
    data := data }

/-- A TARGET or OP that is reserved (R287). -/
def reservedReq (target op : Nat) : Bool :=
  decide (bits target 15 14 = 3) || (decide (bits target 15 14 = 2) && decide (bits target 13 0 ≠ 0)) || decide (op = 0) ||
      decide (6 < op)

/-- A request to a station (mode 0) or a position (mode 1) that came in on an engineering port (R289, R290).
(DESIGN CHOICE, safe: log 45.) -/
def State.routeRequest (s : State) (r : Route) (target : Nat) : State :=
  if reservedReq target r.op then s.answer r stRESERVED rNONE []
  else if 2 ≤ bits target 15 14 then s
  else if r.byPos && s.relays && !s.red.peer then s.answer r stSTATE rNONE []
  else if s.routesFull then s.answer r stBUSY rNONE []
  else
    let (p, out) := s.routeWay (bits target 15 14) r.num
    s.route { r with port := p } out

/-- A SERVICE_REQ or SERVICE_RSP frame: on Ethernet, or in a datagram (R269, R291). -/
def State.isService (s : State) (fr : Rx) (typ : Nat) : Bool :=
  (decide (fr.etype = s.ob K.HNW_ETHERTYPE) || fr.udp.isSome) && decide ((rxHeader fr).typ = typ)

/-- The command's operands are the fields that the frame's body holds. -/
def routeSays (fr : Rx) (ses tag idx sub off : Nat) (data : List Byte) : Bool :=
  decide (rxSession fr = ses) && decide (rxTag fr = tag) && decide (rxIndex fr = idx) && decide (rxSub fr = sub) &&
    decide (rxOffset fr = off) && decide (rxData fr = data)

/-- SERVICE_ROUTE; a command whose operands are not what its frame says names no frame that comes. -/
def execServiceRoute (fr : Rx) (ses tag idx sub off : Nat) (data : List Byte) (s : State) : Host.Outcome State Fault Refusal :=
  .next (if routeSays fr ses tag idx sub off data then s.arrive fr true fun s =>
    let target := rxTarget fr
    if s.isService fr 5 && (decide (16 ≤ fr.port) || decide (2 ≤ bits target 15 14)) then
      s.routeRequest { mkRoute 0 (decide (bits target 15 14 = 1)) (target % 4096) (rxOp fr) tag ses idx sub off data with
        src := rxSource fr
        eng := fr.port
        peer := s.requester fr } target
    else s
   else s)

/-- The command's operands are the fields that the response's body holds; a request of the switch goes out with the low 16 bits of
its number as TAG. -/
def responseSays (fr : Rx) (rid status reason : Nat) (data : List Byte) : Bool :=
  decide (rxTag fr = rid % 65536) && decide (rxStatus fr = status) && decide (rxReason fr = reason) && decide (rxData fr = data)

/-- SERVICE_RESPONSE: the first response to a kept request goes back; a later one is dropped (R289). -/
def execServiceResponse (fr : Rx) (rid status reason : Nat) (data : List Byte) (s : State) : Host.Outcome State Fault Refusal :=
  .next (if responseSays fr rid status reason data then s.arrive fr true fun s =>
    if s.isService fr 6 then
      (match s.findRoute rid with
       | some r => s.respond r status reason data
       | none => s)
    else s
   else s)

/-- ROUTE_TIMEOUT: BUSY, reason OEM_TIMEOUT (R289). -/
def execRouteTimeout (rid : Nat) (s : State) : Host.Outcome State Fault Refusal :=
  .next (match s.findRoute rid with
    | some r => s.unanswered r
    | none => s)

/-- RELAYED_SERVICE_REQUEST: partner A routes it as its own, by the line port or ring that it names (R290). -/
def execRelayedServiceRequest (src tag port pos ses op idx sub off : Nat) (data : List Byte) (s : State) :
    Host.Outcome State Fault Refusal :=
  .next (if s.inPair && decide (s.redId = 0) && s.domOn dNW then
      (let r := { mkRoute 4 true pos op tag ses idx sub off data with
         src := src
         port := port }
       if s.routesFull then s.answer r stBUSY rNONE [] else s.route r (s.trunks.contains port))
    else s)

/-- RELAYED_SERVICE_RESPONSE: partner A's answer to a request that partner B passed to it (R290). -/
def execRelayedServiceResponse (rid status reason : Nat) (data : List Byte) (s : State) : Host.Outcome State Fault Refusal :=
  .next (match s.hnw.relayed.find? fun r => decide (r.rid = rid) with
    | some r => s.respond r status reason data
    | none => s)

/-- SCAN_NO_ANSWER: SCAN stops on the line or ring (R286). -/
def execScanNoAnswer (port : Nat) (s : State) : Host.Outcome State Fault Refusal := .next (s.scanEnd port)

/-- HNW_CMD_DONE (R286). -/
def execHnwCmdDone (s : State) : Host.Outcome State Fault Refusal := .next s.hnwDone

/-- POSITION_PROBE (R298). -/
def execPositionProbe (station : Nat) (s : State) : Host.Outcome State Fault Refusal := .next (s.probe station)

/-! ### The engineering ports (R291) -/

/-- An answer of the switch on the port that asked for HNW.IP: its EtherType, the address it goes to, and its payload. -/
def State.ipAnswer (s : State) (fr : Rx) (etype ip : Nat) (kind : FKind) (dst : State → Nat) (body : State → List Byte) : State :=
  s.arrive fr true fun s =>
    if 16 ≤ fr.port ∧ fr.etype = etype ∧ s.ob K.HNW_IP ≠ 0 ∧ ip = s.ob K.HNW_IP then
      let b := body s
      (s.enqueue fr.port (s.ownTx { TxF.init with
        cls := 3
        kind := kind
        len := s.frameLen b.length
        dst := dst s % 2 ^ 48
        etype := etype
        body := b })).draw
    else s

/-- The ARP reply to a sender. -/
def State.arpBytes (s : State) (mac ip : Nat) : List Byte :=
  beBytes 2 1 ++ beBytes 2 0x0800 ++ [6, 4] ++ beBytes 2 2 ++ beBytes 6 (s.ob K.HNW_MAC) ++ beBytes 4 (s.ob K.HNW_IP) ++
    beBytes 6 mac ++ beBytes 4 ip

/-- The echo reply that carries what the request carried after its checksum. -/
def echoBytes (data : List Byte) : List Byte := [0, 0] ++ beBytes 2 (ipSum (wordSum data)) ++ data

/-- ARP_REQUEST. -/
def execArpRequest (fr : Rx) (ip srcIp : Nat) (s : State) : Host.Outcome State Fault Refusal :=
  .next (s.ipAnswer fr 0x0806 ip .arp (fun _ => fr.src) fun s => s.arpBytes fr.src srcIp)

/-- ICMP_ECHO. -/
def execIcmpEcho (fr : Rx) (ip srcIp : Nat) (data : List Byte) (s : State) : Host.Outcome State Fault Refusal :=
  .next (s.ipAnswer fr 0x0800 ip .icmp (fun s => s.peerOf fr (some srcIp)) fun s => s.ipBytes 1 srcIp (echoBytes data))

/-- PORT_LINK_CHANGE: the switch reads PHY registers 0x00 and 0x01 of the port (R554). -/
def execPortLinkChange (port : Nat) (up : Bool) (reg0 reg1 : Nat) (s : State) : Host.Outcome State Fault Refusal :=
  .next (if port < 18 ∧ s.domOn dNW = true then
      s.setHnw fun h => { h with
        up := putBit h.up port up
        phy := mput (fun _ => 0) h.phy port (reg1 % 65536 * 65536 + reg0 % 65536) }
    else s)

/-! ### Network time -/

/-- The next whole microsecond, at which a token is due (R18).
(DEDUCED, unsafe: log 32.) -/
def State.tokenDue (s : State) : Nat := if s.ntm.tok = 0 then s.ns else s.ntm.tok * 1000

/-- TIME_TOKEN (R18).
(DEDUCED, unsafe: log 32.) -/
def execTimeToken (s : State) : Host.Outcome State Fault Refusal := .next (s.reach s.tokenDue).sendToken

/-- NTM_SET (R303). -/
def execNtmSet (ses : Nat) (data : List Byte) (s : State) : Host.Outcome State Fault Refusal :=
  .next (s.putDomain ses K.NTM_SET data)

/-- NTM_NSEC_READ (R304). -/
def execNtmNsecRead (ses : Nat) (s : State) : Host.Outcome State Fault Refusal := .next (s.dictRead ses K.NTM_NSEC).1

/-- PTP_RECEIVE (R310, R311, R318).
(DEDUCED, safe: log 44.) -/
def execPtpReceive (fr : Rx) (frame : List Byte) (s : State) : Host.Outcome State Fault Refusal :=
  .next (s.arrive fr true fun s => if fr.etype = 0x88F7 then s.ptpQueue fr.port (fr.bytes - 4) frame else s)

/-- PTP_RX_READ (R311). -/
def execPtpRxRead (ses : Nat) (s : State) : Host.Outcome State Fault Refusal := .next (s.openDomain ses K.NTM_PTP_RX)

/-- PTP_TX_SUBMIT (R312). -/
def execPtpTxSubmit (ses : Nat) (data : List Byte) (s : State) : Host.Outcome State Fault Refusal :=
  .next (s.putDomain ses K.NTM_PTP_TX data)

/-- TX_STAMP_READ (R313). -/
def execTxStampRead (ses : Nat) (s : State) : Host.Outcome State Fault Refusal := .next (s.openDomain ses K.NTM_TX_STAMP)

/-- FRAME_LAUNCH (R320); the last SLACK or SCHEDULE frame of a switchover's tide may have left with it (R357). -/
def execFrameLaunch (port : Nat) (s : State) : Host.Outcome State Fault Refusal :=
  .next (if s.portRuns port then (s.launchNext port).swapGive else s)

/-- LAUNCH_MISS (R321). -/
def execLaunchMiss (port : Nat) (s : State) : Host.Outcome State Fault Refusal :=
  .next (if s.domOn dNW then s.launchMiss port else s)

/-- GATE_CHANGE (R324, R326). -/
def execGateChange (port : Nat) (s : State) : Host.Outcome State Fault Refusal :=
  .next (if s.domOn dNW then s.gateChange port else s)

end Sys2Proof.Machine
end

