-- ==== Sys2Proof/Machine/PowerRows.lean ====
section
/-! DEFINITION. Rows of power, clocks and reset that no session commands (R520–R534). -/

namespace Sys2Proof.Machine

/-- PD_DRAINED (R522). -/
def execPdDrained (d : Nat) (s : State) : Host.Outcome State Fault Refusal := .next (s.pdDrained d)

/-- PD_DRAIN_TIMEOUT (R427, R522). -/
def execPdDrainTimeout (d : Nat) (s : State) : Host.Outcome State Fault Refusal := .next (s.pdTimeout d)

/-- DOMAIN_OFF_DONE (R522). -/
def execDomainOffDone (d : Nat) (s : State) : Host.Outcome State Fault Refusal := .next (s.domOff d)

/-- DOMAIN_ON_DONE (R523). -/
def execDomainOnDone (d : Nat) (s : State) : Host.Outcome State Fault Refusal := .next (s.domOnDone d)

/-- POWER_ON: a power-up of AO, from which RESET_RELEASE goes on (R528, R533). -/
def execPowerOn (s : State) : Host.Outcome State Fault Refusal := .next s.powerUpAO

/-- RESET_PIN: PORST_N is a power-up of AO, RESET_N a package reset; in SLEEP either is a wake source as well (R526, R534).
(DEDUCED, unsafe: log 71.) -/
def execResetPin (porst : Bool) (s : State) : Host.Outcome State Fault Refusal :=
  .next (
    let asleep := s.pwr.sleeping
    let t := if porst then s.powerUpAO else s.packageReset 1
    t.when asleep fun t => t.packageReset 5)

/-- DEBUG_RESET: ignored where DEBUG_OFF is 1 (R534); the debug port lies in domain MB (R520).
(DEDUCED, unsafe: log 71.) -/
def execDebugReset (s : State) : Host.Outcome State Fault Refusal :=
  .next (if bit s.str.fuses 3 = false ∧ s.domOn dMB = true then s.packageReset 6 else s)

/-- BROWNOUT of a rail in the order of R527: VDD_AO, rail 0, is a power-up of AO; VBK, rail 8, has no monitor (R529).
(DEDUCED, unsafe: log 71.) -/
def execBrownout (rail : Nat) (s : State) : Host.Outcome State Fault Refusal :=
  .next (if 8 ≤ rail then s
    else (if rail = 0 then s.powerUpAO else s.packageReset 4).setPwr fun p => { p with railsOk := false })

/-- REFCLK_LOSS (R532). -/
def execRefclkLoss (s : State) : Host.Outcome State Fault Refusal :=
  .next (if s.pwr.refLost then s else (s.setPwr fun p => { p with refLost := true }).incOb K.PWR_REF_LOSSES)

/-- REFCLK_RESTORED (R532). -/
def execRefclkRestored (s : State) : Host.Outcome State Fault Refusal := .next (s.setPwr fun p => { p with refLost := false })

/-- SDCLK_LOSS: field and engineering links go down, and both mooring links (R532, R334).
(DEDUCED, unsafe: log 71.) -/
def execSdclkLoss (s : State) : Host.Outcome State Fault Refusal :=
  .next (if s.pwr.sdLost then s
    else
      let s := s.setPwr fun p => { p with sdLost := true }
      let s := s.setHnw fun h => { h with up := 0 }
      (s.mooringDown 0).mooringDown 1)

/-- SDCLK_RESTORED (R532). -/
def execSdclkRestored (s : State) : Host.Outcome State Fault Refusal := .next (s.setPwr fun p => { p with sdLost := false })

end Sys2Proof.Machine
end

