-- ==== Sys2Proof/Machine/ServiceRows.lean ====
section
/-! DEFINITION. Service requests to the controller (R287, R288). -/

namespace Sys2Proof.Machine

/-- The session that an OPEN takes: the lowest that is closed and holds no transaction past its tokens (R37). -/
def State.sesFree (s : State) : Option Nat :=
  ((List.range 32).map fun i => 384 + i).find? fun n => !(s.ses n).open_ && decide ((s.ses n).txn ≠ .pending)

/-- A repeated OPEN finds the session that the first one opened for its source (R288).
(DEDUCED, unsafe: log 25.) -/
def State.openAgain (s : State) (path tag : Nat) : Option Nat :=
  ((List.range 32).map fun i => 384 + i).find? fun n =>
    let x := s.ses n
    x.open_ && decide (x.path = path) && decide (x.lastTag = some tag) && decide (x.rsp.getD 3 0 = 1)

/-- OPEN.
(DESIGN CHOICE, safe: log 23.)
(DEDUCED, unsafe: log 25.) -/
def State.svcOpen (s : State) (path : Nat) (q : Svc) : State :=
  let tag := q.tag
  match s.openAgain path tag with
  | some n => s.svcFrame q.port q.peer tag (s.ses n).rsp
  | none => match s.sesFree with
    | none => s.svcFrame q.port q.peer tag (q.rspBytes 0xFF stBUSY 0 [])
    | some n =>
      (s.setSes n { Ses.init with
        open_ := true
        path := path
        lastTag := some tag
        idleAt := s.ntm.mono }).svcSend n q []

/-- A request of an open session: one with the TAG of the session's previous request is answered from its record. -/
def State.svcEnter (s : State) (num : Nat) (q : Svc) (serve : State → Nat → State) : State :=
  let n := 384 + num
  if 32 ≤ num ∨ (s.ses n).open_ = false then s.svcFrame q.port q.peer q.tag (q.rspBytes num stSTATE 0 [])
  else
    let x := s.ses n
    if x.lastTag = some q.tag then
      (if x.due.any (fun d => decide (d.tag = q.tag)) then s else s.svcFrame q.port q.peer q.tag x.rsp)
    else serve (s.modSes n fun x => { x with lastTag := some q.tag, idleAt := s.ntm.mono }) n

/-- The answer to a request of session n leaves, or is due once its status is known. -/
def State.svcAnswer (s s' : State) (n : Nat) (q : Svc) (data : List Byte) : State :=
  if s.began s' n then s'.modSes n fun x => { x with due := x.due ++ [q] } else s'.svcSend n q data

/-- A transfer of the direction is open, and the length fits a service frame (R287, R288).
(DEDUCED, unsafe: log 25.) -/
def State.svcDomStatus (s : State) (n len : Nat) (write : Bool) : Nat :=
  (firstFail [
    failIf (write && decide ((s.ses n).txn = .open)) stACCESS,
    failIf (!write && (s.ses n).dom.any fun d => s.keyOff d.key) stSTATE,
    s.xferCheck n (K.DIC_DOM_APERTURE 0) write,
    failIf (decide (1024 < len)) stTYPE]).1

/-- A request in a SERVICE_REQ frame whose TARGET is the controller; one with a reserved TARGET is answered with RESERVED (R287,
R288). -/
def State.toController (s : State) (fr : Rx) (q : Svc) (serve : State → State) : State :=
  s.arrive fr true fun s =>
    if !s.isService fr 5 || decide (bits (rxTarget fr) 15 14 < 2) then s
    else if rxTarget fr ≠ 0x8000 then s.svcFrame q.port q.peer q.tag (q.rspBytes (rxSession fr) stRESERVED 0 [])
    else serve s

/-- The fields of a request that its frame and its body give. -/
def State.svcOf (s : State) (fr : Rx) : Svc :=
  { port := fr.port, peer := s.requester fr, tag := rxTag fr, op := rxOp fr, key := rxIndex fr * 256 + rxSub fr, off := rxOffset fr }

/-- The command's operation, session and TAG are what its frame's body holds. -/
def svcSays (fr : Rx) (op ses tag : Nat) : Bool :=
  decide (rxOp fr = op) && decide (rxSession fr = ses) && decide (rxTag fr = tag)

/-- A request to the controller of an operation: served where the operands of the command are what its frame says; a command whose
operands are not names no frame that comes. -/
def State.svcRequest (s : State) (fr : Rx) (same : Bool) (serve : State → Svc → State) : State :=
  if same then s.toController fr (s.svcOf fr) fun s' => serve s' (s.svcOf fr) else s

/-- SERVICE_OPEN: a session for the source address, or the source IP address and UDP port (R288). -/
def execServiceOpen (fr : Rx) (tag : Nat) (s : State) : Host.Outcome State Fault Refusal :=
  .next (s.svcRequest fr (decide (rxOp fr = 1) && decide (rxTag fr = tag)) fun s q => s.svcOpen (rxSource fr) q)

/-- SERVICE_CLOSE. -/
def execServiceClose (fr : Rx) (ses tag : Nat) (s : State) : Host.Outcome State Fault Refusal :=
  .next (s.svcRequest fr (svcSays fr 2 ses tag) fun s q =>
    s.svcEnter ses q fun s n => ((s.modSes n fun x => { x with result := 0 }).svcSend n q []).sesClose n)

/-- SERVICE_READ: the slot contents, eight bytes (R30, R39). -/
def execServiceRead (fr : Rx) (ses tag idx sub : Nat) (s : State) : Host.Outcome State Fault Refusal :=
  .next (s.svcRequest fr (svcSays fr 3 ses tag && decide (rxIndex fr = idx) && decide (rxSub fr = sub)) fun s q =>
    s.svcEnter ses q fun s n => let (s', v) := s.dictRead n q.key; s.svcAnswer s' n q (leBytes 8 v))

/-- SERVICE_WRITE: a write of the whole slot (R39). -/
def execServiceWrite (fr : Rx) (ses tag idx sub v : Nat) (s : State) : Host.Outcome State Fault Refusal :=
  .next (s.svcRequest fr (svcSays fr 4 ses tag && decide (rxIndex fr = idx) && decide (rxSub fr = sub) &&
      decide (rxSlot fr = v)) fun s q =>
    s.svcEnter ses q fun s n => s.svcAnswer (s.dictWrite n q.key 0 8 v) n q [])

/-- SERVICE_DOM_READ: the object's bytes from OFFSET on, as far as they go (R55, R56).
(DEDUCED, unsafe: log 25.) -/
def execServiceDomRead (fr : Rx) (ses tag off len : Nat) (s : State) : Host.Outcome State Fault Refusal :=
  .next (s.svcRequest fr (svcSays fr 5 ses tag && decide (rxOffset fr = off) && decide (rxDlen fr = len)) fun s q =>
    s.svcEnter ses q fun s n =>
      let st := s.svcDomStatus n len false
      let b := match (s.ses n).dom with
        | some x => s.xferBytes n x
        | none => []
      if st ≠ stOK then (s.setResult n (K.DIC_DOM_APERTURE 0) st rNONE 0).svcSend n q []
      else
        let s := s.modSes n fun x => { x with domOff := off }
        (s.setResult n (K.DIC_DOM_APERTURE 0) (if b.length ≤ off then stRANGE else stOK) rNONE 0).svcSend n q ((b.drop off).take len))

/-- SERVICE_DOM_WRITE: bytes staged from OFFSET on (R55, R56). -/
def execServiceDomWrite (fr : Rx) (ses tag off : Nat) (data : List Byte) (s : State) : Host.Outcome State Fault Refusal :=
  .next (s.svcRequest fr (svcSays fr 6 ses tag && decide (rxOffset fr = off) && decide (rxData fr = data)) fun s q =>
    s.svcEnter ses q fun s n =>
      let st := s.svcDomStatus n data.length true
      let st := if st = stOK ∧ domMax < off + data.length then stTYPE else st
      let s := s.setResult n (K.DIC_DOM_APERTURE 0) st rNONE 0
      if st ≠ stOK then s.svcSend n q []
      else ((s.modSes n fun x => { x with domOff := off }).xferPut n off data).svcSend n q [])

end Sys2Proof.Machine
end

