-- ==== Sys2Proof/Machine/StandbyRows.lean ====
section
/-! DEFINITION. Rows of hot standby and of the Lighthouse that no session commands (R333–R358). -/

namespace Sys2Proof.Machine

/-! ### The mooring links (R333, R334) -/

/-- MOORING_STATUS_SEND. -/
def execMooringStatusSend (s : State) : Host.Outcome State Fault Refusal :=
  .next (if s.moored then s.setRed fun r => { r with
      mine := some s.myStatus
      sent := []
      replSent := []
      msgs := [] } else s)

/-- MOORING_STATUS_RECEIVE: a link that brings a good message is up; start step 10 may go on (R335). -/
def execMooringStatusReceive (link : Nat) (m : Status) (s : State) : Host.Outcome State Fault Refusal :=
  .next (if s.moored && decide (link < 2) then (((s.mooringUp link 2).statusReceive m).startPair).maybeResync else s)

/-- PEER_ABSENT. -/
def execPeerAbsent (s : State) : Host.Outcome State Fault Refusal := .next (if s.inPair then s.peerAbsent.startPair else s)

/-- MOORING_LINK_DOWN: one link, or the second after the first (R334, R354). -/
def execMooringLinkDown (link : Nat) (s : State) : Host.Outcome State Fault Refusal :=
  .next (if s.moored && decide (link < 2) then s.mooringDown link else s)

/-- MOORING_RETRAIN: with no lane trained the link stays as it is. -/
def execMooringRetrain (link lanes : Nat) (s : State) : Host.Outcome State Fault Refusal :=
  .next (if s.moored && decide (link < 2) && decide (lanes ≠ 0) then s.mooringTrained link (Nat.min 2 lanes) else s)

/-! ### Agreement, dictation and comparison (R336–R341) -/

/-- DIGEST_RECEIVE. -/
def execDigestReceive (tide image : Nat) (parts : List Nat) (s : State) : Host.Outcome State Fault Refusal :=
  .next (if s.moored then s.digestReceive tide image parts else s)

/-- PARTITION_RECEIVE. -/
def execPartitionReceive (tide part : Nat) (data : List Byte) (s : State) : Host.Outcome State Fault Refusal :=
  .next (if s.moored then s.partReceive tide part data else s)

/-- AGREED_RECEIVE. -/
def execAgreedReceive (tide : Nat) (s : State) : Host.Outcome State Fault Refusal :=
  .next (if s.moored && decide (s.red.role = .active) && decide (tide = s.ob K.TDS_TIDE) then
      s.setTds fun t => { t with agreed := true }
    else s)

/-- DICTATION_RECEIVE. -/
def execDictationReceive (d : Dict) (s : State) : Host.Outcome State Fault Refusal :=
  .next (if s.moored && decide (s.red.role = .standby) then (s.takeDictated d).settleEdges else s)

/-- REPLICATED_WRITE_RECEIVE: applied at the next flood start, and at once where no tide runs (R340).
(DEDUCED, unsafe: log 53.) -/
def execReplicatedWriteReceive (m : Repl) (s : State) : Host.Outcome State Fault Refusal :=
  .next (if s.moored && decide (s.red.role = .standby) then
      (if s.tideStopped then s.replApply m else s.setRed fun r => { r with repl := r.repl ++ [m] })
    else s)

/-- OUTPUT_DIGEST_RECEIVE. -/
def execOutputDigestReceive (tide image : Nat) (parts : List Nat) (s : State) : Host.Outcome State Fault Refusal :=
  .next (if s.moored then s.outDigestReceive tide image parts else s)

/-! ### The interlock and the witness (R345–R349) -/

/-- GRANT_PAIR_CHANGE. -/
def execGrantPairChange (grant grantN : Bool) (s : State) : Host.Outcome State Fault Refusal :=
  .next (s.pairAccept (pairOf grant grantN)).startPair

/-- The package is the witness of a pair. -/
def State.witnesses (s : State) : Bool := decide (s.redMode = 2) && decide (s.red.role = .witness)

/-- WITNESS_START. -/
def execWitnessStart (s : State) : Host.Outcome State Fault Refusal := .next s.witStart

/-- WITNESS_HB_TIMEOUT; partner 0 is A, 1 is B. -/
def execWitnessHbTimeout (p : Nat) (s : State) : Host.Outcome State Fault Refusal :=
  .next (if s.witnesses then
      (s.setWit fun w => { w with
        aliveA := w.aliveA && decide (p ≠ 0)
        aliveB := w.aliveB && decide (p ≠ 1) }).witEval
    else s)

/-- WITNESS_HB_RETURN. -/
def execWitnessHbReturn (p : Nat) (s : State) : Host.Outcome State Fault Refusal :=
  .next (if s.witnesses then
      (s.setWit fun w => { w with
        aliveA := w.aliveA || decide (p = 0)
        aliveB := w.aliveB || decide (p = 1) }).witEval
    else s)

/-- WITNESS_CLAIM_ACCEPT. -/
def execWitnessClaimAccept (p : Nat) (level : Bool) (s : State) : Host.Outcome State Fault Refusal :=
  .next (if s.witnesses then
      (s.setWit fun w => { w with
        claimA := if p = 0 then level else w.claimA
        claimB := if p = 1 then level else w.claimB }).witEval
    else s)

/-- WITNESS_GRANT_DRIVE. -/
def execWitnessGrantDrive (s : State) : Host.Outcome State Fault Refusal := .next (if s.witnesses then s.witDrive else s)

/-- WITNESS_FAULT. -/
def execWitnessFault (s : State) : Host.Outcome State Fault Refusal := .next s.witFault

/-! ### Resynchronisation and switchovers (R355–R358) -/

/-- RESYNC_PASS_END. -/
def execResyncPassEnd (left : Nat) (s : State) : Host.Outcome State Fault Refusal :=
  .next (if s.moored then s.passEnd left else s)

/-- RESYNC_DATA_RECEIVE. -/
def execResyncDataReceive (x : Resync) (s : State) : Host.Outcome State Fault Refusal :=
  .next (if s.moored then s.resyncData x else s)

/-- SWAP_TOKEN_RECEIVE. -/
def execSwapTokenReceive (tide : Nat) (s : State) : Host.Outcome State Fault Refusal :=
  .next (if s.moored then s.swapToken tide else s)

/-- SWITCHOVER_DECIDE: 20 µs after the slack point of the tide. -/
def execSwitchoverDecide (s : State) : Host.Outcome State Fault Refusal :=
  .next (if s.red.giving || s.red.taking || s.red.swapDue then (s.reach (s.phaseAt K.TDS_SLACK_PT + 20000)).switchoverDecide else s)

/-- DRILL_TIMER. -/
def execDrillTimer (s : State) : Host.Outcome State Fault Refusal :=
  .next (if s.inPair then s.drillDue else s)

/-- RETURN_HOLDOFF_EXPIRY. -/
def execReturnHoldoffExpiry (s : State) : Host.Outcome State Fault Refusal := .next (if s.inPair then s.holdoffEnd else s)

end Sys2Proof.Machine
end

