-- ==== Sys2Proof/Machine/StartCmd.lean ====
section
/-! DEFINITION. Commands of online change and the start sequence: each row is one write of the command object by a session, with
every
check of R41 and the effect that its rule gives. -/

namespace Sys2Proof.Machine

/-- OLC.CMD LOAD (R234). -/
def execOlcLoad (ses : Nat) (s : State) : Host.Outcome State Fault Refusal := .next (s.setCmd ses K.OLC_CMD 1)

/-- OLC.CMD LOAD_DONE (R234). -/
def execOlcLoadDone (ses : Nat) (s : State) : Host.Outcome State Fault Refusal := .next (s.setCmd ses K.OLC_CMD 2)

/-- OLC.CMD VERIFY (R236). -/
def execOlcVerify (ses : Nat) (s : State) : Host.Outcome State Fault Refusal := .next (s.setCmd ses K.OLC_CMD 3)

/-- OLC.CMD PREPARE (R237). -/
def execOlcPrepare (ses : Nat) (s : State) : Host.Outcome State Fault Refusal := .next (s.setCmd ses K.OLC_CMD 4)

/-- OLC.CMD COMMIT (R238). -/
def execOlcCommit (ses : Nat) (s : State) : Host.Outcome State Fault Refusal := .next (s.setCmd ses K.OLC_CMD 5)

/-- OLC.CMD ABORT (R242). -/
def execOlcAbort (ses : Nat) (s : State) : Host.Outcome State Fault Refusal := .next (s.setCmd ses K.OLC_CMD 6)

/-- OLC.CMD RELEASE (R244). -/
def execOlcRelease (ses : Nat) (s : State) : Host.Outcome State Fault Refusal := .next (s.setCmd ses K.OLC_CMD 7)

/-- OLC.CMD RETREAT (R244). -/
def execOlcRetreat (ses : Nat) (s : State) : Host.Outcome State Fault Refusal := .next (s.setCmd ses K.OLC_CMD 8)

/-- STR.CMD COLD_NEXT (R247). -/
def execStrColdNext (ses : Nat) (s : State) : Host.Outcome State Fault Refusal := .next (s.setCmd ses K.STR_CMD 1)

/-- STR.CMD RESTART_COLD (R255). -/
def execStrRestartCold (ses : Nat) (s : State) : Host.Outcome State Fault Refusal := .next (s.setCmd ses K.STR_CMD 2)

/-- STR.CMD RESTART_WARM (R255). -/
def execStrRestartWarm (ses : Nat) (s : State) : Host.Outcome State Fault Refusal := .next (s.setCmd ses K.STR_CMD 3)

/-- STR.CMD CLEAR_FAILS (R254). -/
def execStrClearFails (ses : Nat) (s : State) : Host.Outcome State Fault Refusal := .next (s.setCmd ses K.STR_CMD 4)

/-- NTM.LOCK (R318). -/
def execNtmLockWrite (ses v : Nat) (s : State) : Host.Outcome State Fault Refusal := .next (s.setCmd ses K.NTM_LOCK v)

end Sys2Proof.Machine
end

