-- ==== Sys2Proof/Machine/StoreCmd.lean ====
section
/-! DEFINITION. Commands of Bedrock, the calendar and the reserve cell: each row is one write of the command object by a
session, with every
check of R41 and the effect that its rule gives. -/

namespace Sys2Proof.Machine

/-- BDR.TXN BEGIN (R439). -/
def execBdrTxnBegin (ses : Nat) (s : State) : Host.Outcome State Fault Refusal := .next (s.setCmd ses K.BDR_TXN 1)

/-- BDR.TXN COMMIT (R439). -/
def execBdrTxnCommit (ses : Nat) (s : State) : Host.Outcome State Fault Refusal := .next (s.setCmd ses K.BDR_TXN 2)

/-- BDR.TXN DISCARD (R439). -/
def execBdrTxnDiscard (ses : Nat) (s : State) : Host.Outcome State Fault Refusal := .next (s.setCmd ses K.BDR_TXN 3)

/-- BDR.UNLOCK (R434). -/
def execBdrUnlock (ses v : Nat) (s : State) : Host.Outcome State Fault Refusal := .next (s.setCmd ses K.BDR_UNLOCK v)

/-- BDR.LOCK (R434). -/
def execBdrLock (ses v : Nat) (s : State) : Host.Outcome State Fault Refusal := .next (s.setCmd ses K.BDR_LOCK v)

/-- CAL.COUNT (R452). -/
def execCalCountWrite (ses v : Nat) (s : State) : Host.Outcome State Fault Refusal := .next (s.setCmd ses K.CAL_COUNT v)

/-- CAL.SHIFT (R457). -/
def execCalShiftWrite (ses v : Nat) (s : State) : Host.Outcome State Fault Refusal := .next (s.setCmd ses K.CAL_SHIFT v)

/-- CAL.CONV_DATE (R455). -/
def execConvDateWrite (ses v : Nat) (s : State) : Host.Outcome State Fault Refusal := .next (s.setCmd ses K.CAL_CONV_DATE v)

/-- CAL.CONV_TICKS (R454). -/
def execConvTicksWrite (ses v : Nat) (s : State) : Host.Outcome State Fault Refusal := .next (s.setCmd ses K.CAL_CONV_TICKS v)

/-- CAL.ALARM_CTL (R458). -/
def execAlarmArm (ses n v : Nat) (s : State) : Host.Outcome State Fault Refusal := .next (s.setCmd ses (K.CAL_ALARM_CTL (n + 1)) v)

/-- CAL.CMD SUPPLY_ON (R460). -/
def execCalSupplyOn (ses : Nat) (s : State) : Host.Outcome State Fault Refusal := .next (s.setCmd ses K.CAL_CMD 1)

/-- CAL.CMD SUPPLY_OFF (R460). -/
def execCalSupplyOff (ses : Nat) (s : State) : Host.Outcome State Fault Refusal := .next (s.setCmd ses K.CAL_CMD 2)

/-- RSV.CMD TEST (R463). -/
def execRsvTest (ses : Nat) (s : State) : Host.Outcome State Fault Refusal := .next (s.setCmd ses K.RSV_CMD 1)

/-- RSV.CMD REREAD (R461). -/
def execRsvReread (ses : Nat) (s : State) : Host.Outcome State Fault Refusal := .next (s.setCmd ses K.RSV_CMD 2)

end Sys2Proof.Machine
end

