-- ==== Sys2Proof/Machine/SupCmd.lean ====
section
/-! DEFINITION. Commands of supervision, observation and power: each row is one write of the command object by a session, with every
check of R41 and the effect that its rule gives. -/

namespace Sys2Proof.Machine

/-- WDG.KEY (R471). -/
def execWdgKey (ses n v : Nat) (s : State) : Host.Outcome State Fault Refusal := .next (s.setCmd ses (K.WDG_KEY (n + 1)) v)

/-- WDG.CHK_PERIOD (R477). -/
def execChkPeriodWrite (ses n v : Nat) (s : State) : Host.Outcome State Fault Refusal := .next (s.setCmd ses (K.WDG_CHK_PERIOD n) v)

/-- FLT.CMD CLEAR_OUT (R491). -/
def execFltClearOut (ses : Nat) (s : State) : Host.Outcome State Fault Refusal := .next (s.setCmd ses K.FLT_CMD 1)

/-- FLT.CMD FLUSH (R492). -/
def execFltFlush (ses : Nat) (s : State) : Host.Outcome State Fault Refusal := .next (s.setCmd ses K.FLT_CMD 2)

/-- FLT.RAISE (R492). -/
def execFltRaise (ses v : Nat) (s : State) : Host.Outcome State Fault Refusal := .next (s.setCmd ses K.FLT_RAISE v)

/-- PMC.BW_WINDOW (R499). -/
def execBwWindowWrite (ses v : Nat) (s : State) : Host.Outcome State Fault Refusal := .next (s.setCmd ses K.PMC_BW_WINDOW v)

/-- STA.CMD FREEZE (R506). -/
def execStaFreeze (ses : Nat) (s : State) : Host.Outcome State Fault Refusal := .next (s.setCmd ses K.STA_CMD 1)

/-- STA.CMD THAW (R506). -/
def execStaThaw (ses : Nat) (s : State) : Host.Outcome State Fault Refusal := .next (s.setCmd ses K.STA_CMD 2)

/-- STA.RAISE (R501). -/
def execStaRaise (ses v : Nat) (s : State) : Host.Outcome State Fault Refusal := .next (s.setCmd ses K.STA_RAISE v)

/-- SNP.CMD FIRE (R507). -/
def execSnpFire (ses : Nat) (s : State) : Host.Outcome State Fault Refusal := .next (s.setCmd ses K.SNP_CMD 1)

/-- SNP.CMD RELEASE (R512). -/
def execSnpRelease (ses : Nat) (s : State) : Host.Outcome State Fault Refusal := .next (s.setCmd ses K.SNP_CMD 2)

/-- SNP.CMD RELEASE_ALL (R512). -/
def execSnpReleaseAll (ses : Nat) (s : State) : Host.Outcome State Fault Refusal := .next (s.setCmd ses K.SNP_CMD 3)

/-- HLT.TEST_REQ (R514). -/
def execHltTestReq (ses v : Nat) (s : State) : Host.Outcome State Fault Refusal := .next (s.setCmd ses K.HLT_TEST_REQ v)

/-- PWR.DOMAIN_CMD OFF (R522). -/
def execPwrDomainOff (ses d : Nat) (s : State) : Host.Outcome State Fault Refusal := .next (s.setCmd ses (K.PWR_DOMAIN_CMD d) 2)

/-- PWR.DOMAIN_CMD ON (R523). -/
def execPwrDomainOn (ses d : Nat) (s : State) : Host.Outcome State Fault Refusal := .next (s.setCmd ses (K.PWR_DOMAIN_CMD d) 1)

/-- PWR.CMD RESET (R534). -/
def execPwrReset (ses : Nat) (s : State) : Host.Outcome State Fault Refusal := .next (s.setCmd ses K.PWR_CMD 1)

/-- PWR.CMD SLEEP (R525). -/
def execPwrSleep (ses : Nat) (s : State) : Host.Outcome State Fault Refusal := .next (s.setCmd ses K.PWR_CMD 2)

/-- PWR.CORE_FREQ (R531). -/
def execCoreFreqWrite (ses n v : Nat) (s : State) : Host.Outcome State Fault Refusal := .next (s.setCmd ses (K.PWR_CORE_FREQ n) v)

end Sys2Proof.Machine
end

