-- ==== Sys2Proof/Machine/TideCmd.lean ====
section
/-! DEFINITION. Commands of the tide sequencer, the tasks and the force table: each row is one write of the command object by a
session, with every
check of R41 and the effect that its rule gives. -/

namespace Sys2Proof.Machine

/-- TDS.CMD START (R145). -/
def execTdsStart (ses : Nat) (s : State) : Host.Outcome State Fault Refusal := .next (s.setCmd ses K.TDS_CMD 1)

/-- TDS.CMD STOP (R145). -/
def execTdsStop (ses : Nat) (s : State) : Host.Outcome State Fault Refusal := .next (s.setCmd ses K.TDS_CMD 2)

/-- TDS.CMD HALT (R145). -/
def execTdsHalt (ses : Nat) (s : State) : Host.Outcome State Fault Refusal := .next (s.setCmd ses K.TDS_CMD 3)

/-- TDS.CMD CLEAR (R145). -/
def execTdsClear (ses : Nat) (s : State) : Host.Outcome State Fault Refusal := .next (s.setCmd ses K.TDS_CMD 4)

/-- TSK.CMD ENABLE (R166). -/
def execTskEnable (ses t : Nat) (s : State) : Host.Outcome State Fault Refusal := .next (s.setCmd ses (K.TSK_CMD t) 1)

/-- TSK.CMD DISABLE (R166). -/
def execTskDisable (ses t : Nat) (s : State) : Host.Outcome State Fault Refusal := .next (s.setCmd ses (K.TSK_CMD t) 2)

/-- TSK.CMD RESUME (R166). -/
def execTskResume (ses t : Nat) (s : State) : Host.Outcome State Fault Refusal := .next (s.setCmd ses (K.TSK_CMD t) 3)

/-- TSK.CMD ABANDON (R166). -/
def execTskAbandon (ses t : Nat) (s : State) : Host.Outcome State Fault Refusal := .next (s.setCmd ses (K.TSK_CMD t) 4)

/-- TSK.CMD RELEASE (R166). -/
def execTskRelease (ses t : Nat) (s : State) : Host.Outcome State Fault Refusal := .next (s.setCmd ses (K.TSK_CMD t) 5)

/-- IMG.FORCE_CMD SET (R203). -/
def execForceSet (ses : Nat) (s : State) : Host.Outcome State Fault Refusal := .next (s.setCmd ses K.IMG_FORCE_CMD 1)

/-- IMG.FORCE_CMD CLEAR (R203). -/
def execForceClear (ses : Nat) (s : State) : Host.Outcome State Fault Refusal := .next (s.setCmd ses K.IMG_FORCE_CMD 2)

/-- IMG.FORCE_CMD READ (R203). -/
def execForceRead (ses : Nat) (s : State) : Host.Outcome State Fault Refusal := .next (s.setCmd ses K.IMG_FORCE_CMD 3)

/-- IMG.FORCE_CMD CLEAR_ALL (R203). -/
def execForceClearAll (ses : Nat) (s : State) : Host.Outcome State Fault Refusal := .next (s.setCmd ses K.IMG_FORCE_CMD 4)

/-- IMG.CTL (R198). -/
def execImgCtlWrite (ses v : Nat) (s : State) : Host.Outcome State Fault Refusal := .next (s.setCmd ses K.IMG_CTL v)

end Sys2Proof.Machine
end

