-- ==== Sys2Proof/Machine/TideRows.lean ====
section
/-! DEFINITION. Rows of the tide, the tasks and the process image that no session commands (R137–R192, R213, R215). -/

namespace Sys2Proof.Machine

/-- REBASE_DONE (R213). -/
def execRebaseDone (strand : Nat) (s : State) : Host.Outcome State Fault Refusal :=
  .next (s.rebaseEnd strand)

/-- EBB_POINT (R137). -/
def execEbbPoint (s : State) : Host.Outcome State Fault Refusal := .next s.ebbPoint.txnSettle

/-- IN_DEADLINE (R142). -/
def execInDeadline (s : State) : Host.Outcome State Fault Refusal := .next s.inDeadline

/-- FLOOD_START (R142). -/
def execFloodStart (s : State) : Host.Outcome State Fault Refusal := .next s.floodStart.txnSettle

/-- FLOOD_LATEST_REACHED (R142). -/
def execFloodLatestReached (s : State) : Host.Outcome State Fault Refusal := .next s.floodLatest.txnSettle

/-- TRIGGER (R148). -/
def execTrigger (s : State) : Host.Outcome State Fault Refusal := .next s.triggerNext

/-- COPY_IN_DONE (R155). -/
def execCopyInDone (t sec : Nat) (s : State) : Host.Outcome State Fault Refusal := .next (s.copyInDone t sec).txnSettle

/-- COMPLETION_FLAG (R158). -/
def execCompletionFlag (t sec : Nat) (s : State) : Host.Outcome State Fault Refusal :=
  .next (if (s.task t).ended.contains sec then s.setFlag t sec else s)

/-- PUBLISH (R156). -/
def execPublish (t : Nat) (s : State) : Host.Outcome State Fault Refusal := .next (s.publishNow t).settleEdges.txnSettle

/-- KEVENTS_READ (R171). -/
def execKeventsRead (ses : Nat) (s : State) : Host.Outcome State Fault Refusal := .next (s.dictRead ses K.TDS_KEVENTS).1

/-- CUT (R189). -/
def execCut (s : State) : Host.Outcome State Fault Refusal := .next s.cut

/-- CUT_COPY_END (R192). -/
def execCutCopyEnd (s : State) : Host.Outcome State Fault Refusal := .next s.cutCopyEnd.txnSettle

/-- TRANSMIT_WINDOW_CLOSE (R190). -/
def execTransmitWindowClose (s : State) : Host.Outcome State Fault Refusal := .next s.windowClose.txnSettle

/-- LAUNCH (R275). -/
def execLaunch (s : State) : Host.Outcome State Fault Refusal := .next s.launch

/-- SLACK_POINT (R141). -/
def execSlackPoint (s : State) : Host.Outcome State Fault Refusal := .next s.slackPoint

/-- SLACK_WINDOW_END (R144). -/
def execSlackWindowEnd (s : State) : Host.Outcome State Fault Refusal := .next s.slackEnd

/-- RET_BLOCK_SAVE (R215). -/
def execRetBlockSave (strand block : Nat) (s : State) : Host.Outcome State Fault Refusal := .next (s.retSave strand block)

end Sys2Proof.Machine
end

