-- ==== Sys2Proof/Machine/VoxBit.lean ====
section
/-! DEFINITION. Bit instructions, GATB, RUNG and edges of the Voxrax core, rows 0xE9 and 0xEA (R124–R130). -/

namespace Sys2Proof.Machine

/-- BLD: the bit to ra (R125). -/
def execBld (c : Nat) (e : Enc) (s : State) : Host.Outcome State Fault Refusal :=
  .next (s.bitLogic c e (formOf 0xE900) fun _ b => b)

/-- BST: ra ≠ 0 to the bit (R125). -/
def execBst (c : Nat) (e : Enc) (s : State) : Host.Outcome State Fault Refusal :=
  .next (s.bitStore c e (formOf 0xE920))

/-- BSET: if ra ≠ 0, the bit is set (R125). -/
def execBset (c : Nat) (e : Enc) (s : State) : Host.Outcome State Fault Refusal :=
  .next (s.bitForce c e (formOf 0xE940) true)

/-- BRST: if ra ≠ 0, the bit is cleared (R125). -/
def execBrst (c : Nat) (e : Enc) (s : State) : Host.Outcome State Fault Refusal :=
  .next (s.bitForce c e (formOf 0xE960) false)

/-- BAND: ra AND the bit (R125). -/
def execBand (c : Nat) (e : Enc) (s : State) : Host.Outcome State Fault Refusal :=
  .next (s.bitLogic c e (formOf 0xE980) fun a b => a && b)

/-- BOR: ra OR the bit (R125). -/
def execBor (c : Nat) (e : Enc) (s : State) : Host.Outcome State Fault Refusal :=
  .next (s.bitLogic c e (formOf 0xE9A0) fun a b => a || b)

/-- BANDN: ra AND NOT the bit (R125). -/
def execBandn (c : Nat) (e : Enc) (s : State) : Host.Outcome State Fault Refusal :=
  .next (s.bitLogic c e (formOf 0xE9C0) fun a b => a && !b)

/-- BORN: ra OR NOT the bit (R125). -/
def execBorn (c : Nat) (e : Enc) (s : State) : Host.Outcome State Fault Refusal :=
  .next (s.bitLogic c e (formOf 0xE9E0) fun a b => a || !b)

/-- GATB: up to 8 bits into one byte lane of ra (R127, R128). -/
def execGatb (c : Nat) (e : Enc) (s : State) : Host.Outcome State Fault Refusal :=
  .next (s.issue c e (formOf 0xEA00) fun s g x next =>
    match s.fetchBytes c (tableAt next 16 14 e.imm) 16 with
    | (_, .bus _) => .fault fBusErr 2 0
    | (_, .ecc) => .fault fEcc 2 0
    | (s, .ok d) =>
      match s.gather c g (x.ea e) d with
      | (.ok s _ _, v) =>
        let l := bits e.imm 15 14
        let old := (x.gr e.ra).toNat
        .next (s.modCtx g fun y => y.setG e.ra (BitVec.ofNat 32 (old - bits old (8 * l + 7) (8 * l) * 2 ^ (8 * l) + v * 2 ^ (8 * l)))) next 0 none
      | (.fault code detail, a) => .fault code detail a
      | (.hold s, _) => .hold s
      | (.oem s tag, a) => .hold (s.oemHold c g a tag))

/-- RUNG: the contact network of rb under a mask pair, with ra as power-in (R129). -/
def execRung (c : Nat) (e : Enc) (s : State) : Host.Outcome State Fault Refusal :=
  .next (s.issue c e (formOf 0xEA20) fun s g x next =>
    match s.fetchBytes c (tableAt next 8 16 e.imm) 8 with
    | (_, .bus _) => .fault fBusErr 2 0
    | (_, .ecc) => .fault fEcc 2 0
    | (s, .ok d) =>
      let r := rungEval (leAt d 0 4) (leAt d 4 4) (x.gr e.rb).toNat (decide (x.gr e.ra ≠ 0))
      .next (s.modCtx g fun y => y.setG e.ra (BitVec.ofNat 32 (b2n r))) next 0 none)

/-- EDGR: a rising edge against the instance bit (R130). -/
def execEdgr (c : Nat) (e : Enc) (s : State) : Host.Outcome State Fault Refusal :=
  .next (s.edgeOp c e (formOf 0xEA40) true)

/-- EDGF: a falling edge against the instance bit (R130). -/
def execEdgf (c : Nat) (e : Enc) (s : State) : Host.Outcome State Fault Refusal :=
  .next (s.edgeOp c e (formOf 0xEA60) false)

end Sys2Proof.Machine
end

