-- ==== Sys2Proof/Machine/VoxBlock.lean ====
section
/-! DEFINITION. String and move instructions of the Voxrax core, row 0xE8 (R86, R87, R122, R123). -/

namespace Sys2Proof.Machine

/-- MOVB: one byte from BSRC to BDST, repeated under RPT (R122). -/
def execMovb (c : Nat) (e : Enc) (s : State) : Host.Outcome State Fault Refusal :=
  .next (s.moveBlock c e (formOf 0xE800) 1 false)

/-- MOVH: one halfword (R122). -/
def execMovh (c : Nat) (e : Enc) (s : State) : Host.Outcome State Fault Refusal :=
  .next (s.moveBlock c e (formOf 0xE820) 2 false)

/-- MOVW: one word, or 8 bytes under WIDE (R122). -/
def execMovw (c : Nat) (e : Enc) (s : State) : Host.Outcome State Fault Refusal :=
  .next (s.moveBlock c e (formOf 0xE840) (wideBytes e) false)

/-- FILLW: ra, or the pair under WIDE, to BDST (R122). -/
def execFillw (c : Nat) (e : Enc) (s : State) : Host.Outcome State Fault Refusal :=
  .next (s.moveBlock c e (formOf 0xE860) (wideBytes e) true)

/-- SCANW: stops at the first word equal to rb (R123); an addressing prefix applies to BSRC (R77). -/
def execScanw (c : Nat) (e : Enc) (s : State) : Host.Outcome State Fault Refusal :=
  .next (s.issue c e (formOf 0xE880) fun s g x next =>
    if x.sp 20 = 0 then .next (s.modCtx g fun y => y.setG e.ra 0) next 0 none
    else match x.locate e (x.sp 21) 4 with
      | none => .fault fAddrMode 0 (x.sp 21)
      | some a => match s.coreLoad c g a 4 false with
        | .fault code detail => .fault code detail a
        | .hold s => .hold s
        | .oem s tag => .hold (s.oemHold c g a tag)
        | .ok s b _ => s.seekBlock g e next (decide (leNat b = (x.gr e.rb).toNat)))

/-- CMPW: stops at the first difference between BSRC and BDST (R123). -/
def execCmpw (c : Nat) (e : Enc) (s : State) : Host.Outcome State Fault Refusal :=
  .next (s.issue c e (formOf 0xE8A0) fun s g x next =>
    if x.sp 20 = 0 then .next (s.modCtx g fun y => y.setG e.ra 0) next 0 none
    else match x.locate e (x.sp 22) 4 with
      | none => .fault fAddrMode 0 (x.sp 22)
      | some d => s.compareWords c g (x.sp 21) d fun s stop => s.seekBlock g e next stop)

end Sys2Proof.Machine
end

