-- ==== Sys2Proof/Machine/VoxBranch.lean ====
section
/-! DEFINITION. Branches, calls and SWTRAP of the Voxrax core (R85, R117). -/

namespace Sys2Proof.Machine

/-- BNZ: branch if ra ≠ 0 (R108). -/
def execBnz (c : Nat) (e : Enc) (s : State) : Host.Outcome State Fault Refusal :=
  .next (s.branch c e (formOf 0xC0) (fun x => decide (x.gr e.ra ≠ 0)) id)

/-- BZ: branch if ra = 0 (R117). -/
def execBz (c : Nat) (e : Enc) (s : State) : Host.Outcome State Fault Refusal :=
  .next (s.branch c e (formOf 0xE500) (fun x => decide (x.gr e.ra = 0)) id)

/-- BR: branch (R117). -/
def execBr (c : Nat) (e : Enc) (s : State) : Host.Outcome State Fault Refusal :=
  .next (s.branch c e (formOf 0xE520) (fun _ => true) id)

/-- DBNZ: ra − 1, wrapping, and branch if the result is not 0; the target is formed from rb as read at issue (R117). -/
def execDbnz (c : Nat) (e : Enc) (s : State) : Host.Outcome State Fault Refusal :=
  .next (s.branch c e (formOf 0xE580) (fun x => decide (x.gr e.ra - 1 ≠ 0)) fun x => x.setG e.ra (x.gr e.ra - 1))

/-- CALL: the stack word checked, the return address pushed, and on at the target (R85), which is formed from g31 as it was
before the push where rb names it.
(DESIGN CHOICE, unsafe: log 111.) -/
def execCall (c : Nat) (e : Enc) (s : State) : Host.Outcome State Fault Refusal :=
  .next (s.issue c e (formOf 0xE540) fun s g x next =>
    let sp := (x.gr 31).toNat
    let a := (sp + 2 ^ 32 - 4) % 2 ^ 32
    match x.stackCheck sp a with
    | some f => .fault f 0 a
    | none => match s.coreStore c g a (leBytes 4 next.toNat) with
      | .fault code detail => .fault code detail a
      | .hold s => .hold s
      | .ok s => .next (s.modCtx g fun y => y.setG 31 (BitVec.ofNat 32 a)) (x.target e next) 0 none)

/-- RET: the stack word checked, PC loaded from it, and g31 + 4 (R85). -/
def execRet (c : Nat) (e : Enc) (s : State) : Host.Outcome State Fault Refusal :=
  .next (s.issue c e (formOf 0xE560) fun s g x _ =>
    let sp := (x.gr 31).toNat
    match x.stackCheck sp sp with
    | some f => .fault f 0 sp
    | none => match s.coreLoad c g sp 4 false with
      | .fault code detail => .fault code detail sp
      | .hold s => .hold s
      | .oem s tag => .hold (s.oemHold c g sp tag)
      | .ok s b _ => .next (s.modCtx g fun y => y.setG 31 (BitVec.ofNat 32 (sp + 4))) (BitVec.ofNat 32 (leNat b)) 0 none)

/-- SWTRAP: the SWTRAP trap, DETAIL the immediate (R96, R117). -/
def execSwtrap (c : Nat) (e : Enc) (s : State) : Host.Outcome State Fault Refusal :=
  .next (s.issue c e (formOf 0xE5A0) fun s _ _ next => .next s next 0 (some (e.imm % 256)))

end Sys2Proof.Machine
end

