-- ==== Sys2Proof/Machine/VoxFloat.lean ====
section
/-! DEFINITION. Floating-point instructions of the Voxrax core, rows 0xE6 and 0xE7 (R118–R121). -/

namespace Sys2Proof.Machine

/-- FADD (R118). -/
def execFadd (c : Nat) (e : Enc) (s : State) : Host.Outcome State Fault Refusal :=
  .next (s.float2 c e (formOf 0xE600) fun m rm a b => m.add rm a b)

/-- FSUB (R118). -/
def execFsub (c : Nat) (e : Enc) (s : State) : Host.Outcome State Fault Refusal :=
  .next (s.float2 c e (formOf 0xE620) fun m rm a b => m.add rm a b.neg)

/-- FMUL (R118). -/
def execFmul (c : Nat) (e : Enc) (s : State) : Host.Outcome State Fault Refusal :=
  .next (s.float2 c e (formOf 0xE640) fun m rm a b => m.mul rm a b)

/-- FDIV (R118). -/
def execFdiv (c : Nat) (e : Enc) (s : State) : Host.Outcome State Fault Refusal :=
  .next (s.float2 c e (formOf 0xE660) fun m rm a b => m.div rm a b)

/-- FSQRT (R118). -/
def execFsqrt (c : Nat) (e : Enc) (s : State) : Host.Outcome State Fault Refusal :=
  .next (s.issue c e (formOf 0xE680) fun s g x next => s.fresult g e.ra next ((fmtOf e).sqrt x.rm (x.rdF (fmtOf e) e.rb)))

/-- FMOV: all 64 bits of fb, without regard to WIDE (R118). -/
def execFmov (c : Nat) (e : Enc) (s : State) : Host.Outcome State Fault Refusal :=
  .next (s.floatBits c e (formOf 0xE6A0) fun _ v => v)

/-- FNEG: fb with its sign inverted, a NaN's too (R118, R120). -/
def execFneg (c : Nat) (e : Enc) (s : State) : Host.Outcome State Fault Refusal :=
  .next (s.floatBits c e (formOf 0xE6C0) fun m v => let u := v % 2 ^ (m.p + m.w); putBit u (m.p + m.w - 1) (!u.testBit (m.p + m.w - 1)))

/-- FABS: fb with its sign cleared (R118, R120). -/
def execFabs (c : Nat) (e : Enc) (s : State) : Host.Outcome State Fault Refusal :=
  .next (s.floatBits c e (formOf 0xE6E0) fun m v => putBit (v % 2 ^ (m.p + m.w)) (m.p + m.w - 1) false)

/-- FCEQ: 1 if fb = fc (R119). -/
def execFceq (c : Nat) (e : Enc) (s : State) : Host.Outcome State Fault Refusal :=
  .next (s.fcompare c e (formOf 0xE700) true FVal.eq)

/-- FCLT: 1 if fb < fc (R119). -/
def execFclt (c : Nat) (e : Enc) (s : State) : Host.Outcome State Fault Refusal :=
  .next (s.fcompare c e (formOf 0xE720) false FVal.lt)

/-- FCLE: 1 if fb ≤ fc (R119). -/
def execFcle (c : Nat) (e : Enc) (s : State) : Host.Outcome State Fault Refusal :=
  .next (s.fcompare c e (formOf 0xE740) false fun a b => a.lt b || a.eq b)

/-- FTOI: to a signed 32-bit integer (R121). -/
def execFtoi (c : Nat) (e : Enc) (s : State) : Host.Outcome State Fault Refusal :=
  .next (s.issue c e (formOf 0xE760) fun s g x next =>
    let r := (x.rdF (fmtOf e) e.rb).toInt x.rm
    .next (s.modCtx g fun y => y.setG e.ra (BitVec.ofNat 32 r.1)) next r.2 none)

/-- ITOF: from a signed 32-bit integer, rounded (R119). -/
def execItof (c : Nat) (e : Enc) (s : State) : Host.Outcome State Fault Refusal :=
  .next (s.issue c e (formOf 0xE780) fun s g x next => s.fresult g e.ra next ((fmtOf e).ofInt x.rm (toS 32 (x.gr e.rb).toNat)))

/-- FCVT: narrowed to binary32, or widened to binary64 under WIDE (R119). -/
def execFcvt (c : Nat) (e : Enc) (s : State) : Host.Outcome State Fault Refusal :=
  .next (s.issue c e (formOf 0xE7A0) fun s g x next =>
    s.fresult g e.ra next (if e.wide then f64.convert x.rm (x.rdF f32 e.rb) else f32.convert x.rm (x.rdF f64 e.rb)))

/-- FLD: from memory, or the immediate as binary32, converted exactly under WIDE (R119).
(DEDUCED, unsafe: log 17.) -/
def execFld (c : Nat) (e : Enc) (s : State) : Host.Outcome State Fault Refusal :=
  .next (if e.am = 3 then
      s.issue c e (formOf 0xE7C0) fun s g x next =>
        s.fresult g e.ra next (if e.wide then f64.convert x.rm (f32.decode (e.imm % 2 ^ 32)) else (e.imm % 2 ^ 32, 0))
    else s.loadEa c e (formOf 0xE7C0) (wideBytes e) (32 + e.ra % 16) false 0)

/-- FST: the low half of fa, or all of it under WIDE, to memory (R119). -/
def execFst (c : Nat) (e : Enc) (s : State) : Host.Outcome State Fault Refusal :=
  .next (s.storeEa c e (formOf 0xE7E0) (wideBytes e) fun x => (x.fr e.ra).toNat)

end Sys2Proof.Machine
end

