-- ==== Sys2Proof/Machine/VoxInt.lean ====
section
/-! DEFINITION. Integer instructions of the Voxrax core: MOV, ADD and rows 0xE0 to 0xE3 (R108–R114). -/

namespace Sys2Proof.Machine

/-- MOV: rb, or the immediate, to ra (R108). -/
def execMov (c : Nat) (e : Enc) (s : State) : Host.Outcome State Fault Refusal :=
  .next (s.issue c e (formOf 0x40) fun s g x next =>
    s.result g e next (if e.am = 0 then x.rdG e.wide e.rb else (formOf 0x40).immOf e) 0)

/-- ADD: x + y, wrapping (R108). -/
def execAdd (c : Nat) (e : Enc) (s : State) : Host.Outcome State Fault Refusal :=
  .next (s.aluPlain c e (formOf 0x60) addW)

/-- SUB: x − y, wrapping (R110). -/
def execSub (c : Nat) (e : Enc) (s : State) : Host.Outcome State Fault Refusal :=
  .next (s.aluPlain c e (formOf 0xE000) subW)

/-- NEG: 0 − rb, wrapping (R110). -/
def execNeg (c : Nat) (e : Enc) (s : State) : Host.Outcome State Fault Refusal :=
  .next (s.unary c e (formOf 0xE020) fun w y => subW w 0 y)

/-- MUL: the low half of x × y (R110). -/
def execMul (c : Nat) (e : Enc) (s : State) : Host.Outcome State Fault Refusal :=
  .next (s.aluPlain c e (formOf 0xE040) fun w x y => x * y % 2 ^ w)

/-- MULH: bits 63:32 of the signed product (R110). -/
def execMulh (c : Nat) (e : Enc) (s : State) : Host.Outcome State Fault Refusal :=
  .next (s.aluPlain c e (formOf 0xE060) fun w x y => ofS w (toS w x * toS w y / (2 ^ w : Nat)))

/-- DIV: the signed quotient of R111. -/
def execDiv (c : Nat) (e : Enc) (s : State) : Host.Outcome State Fault Refusal :=
  .next (s.alu c e (formOf 0xE080) fun w x y => let r := divS w x y; (r.1, r.2.2))

/-- DIVU: the unsigned quotient of R111. -/
def execDivu (c : Nat) (e : Enc) (s : State) : Host.Outcome State Fault Refusal :=
  .next (s.alu c e (formOf 0xE0A0) fun w x y => let r := divU w x y; (r.1, r.2.2))

/-- REM: the signed remainder of R111. -/
def execRem (c : Nat) (e : Enc) (s : State) : Host.Outcome State Fault Refusal :=
  .next (s.alu c e (formOf 0xE0C0) fun w x y => let r := divS w x y; (r.2.1, r.2.2))

/-- REMU: the unsigned remainder of R111. -/
def execRemu (c : Nat) (e : Enc) (s : State) : Host.Outcome State Fault Refusal :=
  .next (s.alu c e (formOf 0xE0E0) fun w x y => let r := divU w x y; (r.2.1, r.2.2))

/-- AND (R112). -/
def execAnd (c : Nat) (e : Enc) (s : State) : Host.Outcome State Fault Refusal :=
  .next (s.aluPlain c e (formOf 0xE100) fun _ x y => x &&& y)

/-- OR (R112). -/
def execOr (c : Nat) (e : Enc) (s : State) : Host.Outcome State Fault Refusal :=
  .next (s.aluPlain c e (formOf 0xE120) fun _ x y => x ||| y)

/-- XOR (R112). -/
def execXor (c : Nat) (e : Enc) (s : State) : Host.Outcome State Fault Refusal :=
  .next (s.aluPlain c e (formOf 0xE140) fun _ x y => x ^^^ y)

/-- ANDN: x and not y (R112). -/
def execAndn (c : Nat) (e : Enc) (s : State) : Host.Outcome State Fault Refusal :=
  .next (s.aluPlain c e (formOf 0xE160) fun w x y => x &&& (2 ^ w - 1 - y % 2 ^ w))

/-- NOT: rb with every bit inverted (R112). -/
def execNot (c : Nat) (e : Enc) (s : State) : Host.Outcome State Fault Refusal :=
  .next (s.unary c e (formOf 0xE180) fun w y => 2 ^ w - 1 - y % 2 ^ w)

/-- SHL: 0 where y is the width or more (R112). -/
def execShl (c : Nat) (e : Enc) (s : State) : Host.Outcome State Fault Refusal :=
  .next (s.aluPlain c e (formOf 0xE1A0) shlW)

/-- SHR: zero fill, 0 where y is the width or more (R112). -/
def execShr (c : Nat) (e : Enc) (s : State) : Host.Outcome State Fault Refusal :=
  .next (s.aluPlain c e (formOf 0xE1C0) shrW)

/-- SAR: sign fill, all sign bits where y is the width or more (R112). -/
def execSar (c : Nat) (e : Enc) (s : State) : Host.Outcome State Fault Refusal :=
  .next (s.aluPlain c e (formOf 0xE1E0) sarW)

/-- ADDS: x + y clamped (R113). -/
def execAdds (c : Nat) (e : Enc) (s : State) : Host.Outcome State Fault Refusal :=
  .next (s.aluPlain c e (formOf 0xE200) fun w x y => clampW w (toS w x + toS w y))

/-- SUBS: x − y clamped (R113). -/
def execSubs (c : Nat) (e : Enc) (s : State) : Host.Outcome State Fault Refusal :=
  .next (s.aluPlain c e (formOf 0xE220) fun w x y => clampW w (toS w x - toS w y))

/-- ABS: the magnitude of rb, wrapping (R113). -/
def execAbs (c : Nat) (e : Enc) (s : State) : Host.Outcome State Fault Refusal :=
  .next (s.unary c e (formOf 0xE240) fun w y => ofS w (toS w y).natAbs)

/-- ABSS: the magnitude of rb, clamped (R113). -/
def execAbss (c : Nat) (e : Enc) (s : State) : Host.Outcome State Fault Refusal :=
  .next (s.unary c e (formOf 0xE260) fun w y => clampW w (toS w y).natAbs)

/-- MIN: the signed minimum (R113). -/
def execMin (c : Nat) (e : Enc) (s : State) : Host.Outcome State Fault Refusal :=
  .next (s.aluPlain c e (formOf 0xE280) fun w x y => if toS w y < toS w x then y else x)

/-- MAX: the signed maximum (R113). -/
def execMax (c : Nat) (e : Enc) (s : State) : Host.Outcome State Fault Refusal :=
  .next (s.aluPlain c e (formOf 0xE2A0) fun w x y => if toS w x < toS w y then y else x)

/-- ROL: x rotated left by y mod w (R113). -/
def execRol (c : Nat) (e : Enc) (s : State) : Host.Outcome State Fault Refusal :=
  .next (s.aluPlain c e (formOf 0xE2C0) rolW)

/-- ROR: x rotated right by y mod w (R113). -/
def execRor (c : Nat) (e : Enc) (s : State) : Host.Outcome State Fault Refusal :=
  .next (s.aluPlain c e (formOf 0xE2E0) rorW)

/-- CEQ: x = y (R114). -/
def execCeq (c : Nat) (e : Enc) (s : State) : Host.Outcome State Fault Refusal :=
  .next (s.compare c e (formOf 0xE300) fun _ x y => decide (x = y))

/-- CLT: x < y, signed (R114). -/
def execClt (c : Nat) (e : Enc) (s : State) : Host.Outcome State Fault Refusal :=
  .next (s.compare c e (formOf 0xE320) fun w x y => decide (toS w x < toS w y))

/-- CLE: x ≤ y, signed (R114). -/
def execCle (c : Nat) (e : Enc) (s : State) : Host.Outcome State Fault Refusal :=
  .next (s.compare c e (formOf 0xE340) fun w x y => decide (toS w x ≤ toS w y))

/-- CLTU: x < y, unsigned (R114). -/
def execCltu (c : Nat) (e : Enc) (s : State) : Host.Outcome State Fault Refusal :=
  .next (s.compare c e (formOf 0xE360) fun _ x y => decide (x < y))

/-- CLEU: x ≤ y, unsigned (R114). -/
def execCleu (c : Nat) (e : Enc) (s : State) : Host.Outcome State Fault Refusal :=
  .next (s.compare c e (formOf 0xE380) fun _ x y => decide (x ≤ y))

/-- TST: (x & y) ≠ 0 (R114). -/
def execTst (c : Nat) (e : Enc) (s : State) : Host.Outcome State Fault Refusal :=
  .next (s.compare c e (formOf 0xE3A0) fun _ x y => decide (x &&& y ≠ 0))

/-- COVA: x + y overflows the signed range (R114). -/
def execCova (c : Nat) (e : Enc) (s : State) : Host.Outcome State Fault Refusal :=
  .next (s.compare c e (formOf 0xE3C0) fun w x y => ovf w (toS w x + toS w y))

/-- COVS: x − y overflows the signed range (R114). -/
def execCovs (c : Nat) (e : Enc) (s : State) : Host.Outcome State Fault Refusal :=
  .next (s.compare c e (formOf 0xE3E0) fun w x y => ovf w (toS w x - toS w y))

end Sys2Proof.Machine
end

