-- ==== Sys2Proof/Machine/VoxMem.lean ====
section
/-! DEFINITION. Loads, stores, LEA and XCHG of the Voxrax core (R108, R109, R115, R116). -/

namespace Sys2Proof.Machine

/-- LD: mem32, or mem64 into the pair under WIDE (R108). -/
def execLd (c : Nat) (e : Enc) (s : State) : Host.Outcome State Fault Refusal :=
  .next (s.loadEa c e (formOf 0x00) (wideBytes e) e.ra e.wide 0)

/-- ST: ra, or the pair under WIDE, to memory (R108). -/
def execSt (c : Nat) (e : Enc) (s : State) : Host.Outcome State Fault Refusal :=
  .next (s.storeEa c e (formOf 0x20) (wideBytes e) fun x => x.rdG e.wide e.ra)

/-- LDX: a load from rb, then rb is stepped; the loaded value is written last (R109). -/
def execLdx (c : Nat) (e : Enc) (s : State) : Host.Outcome State Fault Refusal :=
  .next (s.issue c e (formOf 0x80) fun s g x next =>
    let a := (x.gr e.rb).toNat
    match x.locate e a (wideBytes e) with
    | none => .fault fAddrMode 0 a
    | some k => s.loadTo c g k (wideBytes e) e.ra e.wide false next 0 (Ctx.wrPost e (x.postRb e)))

/-- STX: a store to rb, then rb is stepped (R109). -/
def execStx (c : Nat) (e : Enc) (s : State) : Host.Outcome State Fault Refusal :=
  .next (s.issue c e (formOf 0xA0) fun s g x next =>
    let a := (x.gr e.rb).toNat
    match x.locate e a (wideBytes e) with
    | none => .fault fAddrMode 0 a
    | some k => s.storeRes c g k (leBytes (wideBytes e) (x.rdG e.wide e.ra)) next (Ctx.wrPost e (x.postRb e)))

/-- LDB: a byte, sign-extended (R115). -/
def execLdb (c : Nat) (e : Enc) (s : State) : Host.Outcome State Fault Refusal :=
  .next (s.loadEa c e (formOf 0xE400) 1 e.ra false 8)

/-- LDBU: a byte, zero-extended (R115). -/
def execLdbu (c : Nat) (e : Enc) (s : State) : Host.Outcome State Fault Refusal :=
  .next (s.loadEa c e (formOf 0xE420) 1 e.ra false 0)

/-- LDH: a halfword, sign-extended (R115). -/
def execLdh (c : Nat) (e : Enc) (s : State) : Host.Outcome State Fault Refusal :=
  .next (s.loadEa c e (formOf 0xE440) 2 e.ra false 16)

/-- LDHU: a halfword, zero-extended (R115). -/
def execLdhu (c : Nat) (e : Enc) (s : State) : Host.Outcome State Fault Refusal :=
  .next (s.loadEa c e (formOf 0xE460) 2 e.ra false 0)

/-- STB: the low byte of ra (R115). -/
def execStb (c : Nat) (e : Enc) (s : State) : Host.Outcome State Fault Refusal :=
  .next (s.storeEa c e (formOf 0xE480) 1 fun x => x.rdG false e.ra)

/-- STH: the low halfword of ra (R115). -/
def execSth (c : Nat) (e : Enc) (s : State) : Host.Outcome State Fault Refusal :=
  .next (s.storeEa c e (formOf 0xE4A0) 2 fun x => x.rdG false e.ra)

/-- LEA: EA after any MODn or BRVn, as for an access 4 bytes wide; no access (R115). -/
def execLea (c : Nat) (e : Enc) (s : State) : Host.Outcome State Fault Refusal :=
  .next (s.issue c e (formOf 0xE4C0) fun s g x next =>
    match x.locate e (x.ea e) 4 with
    | none => .fault fAddrMode 0 (x.ea e)
    | some a => s.result g e next a 0)

/-- XCHG: the write buffer empties, then ra and the aligned word change places as one operation (R116). -/
def execXchg (c : Nat) (e : Enc) (s : State) : Host.Outcome State Fault Refusal :=
  .next (s.issue c e (formOf 0xE4E0) fun s g x next =>
    match x.locate e (x.ea e) 4 with
    | none => .fault fAddrMode 0 (x.ea e)
    | some a => s.exchange c g a e.ra next)

end Sys2Proof.Machine
end

