-- ==== Sys2Proof/Machine/VoxSys.lean ====
section
/-! DEFINITION. System instructions of the Voxrax core, row 0xEC (R93, R135, R136). -/

namespace Sys2Proof.Machine

/-- SYNC.W: the context waits for the drain acknowledgement (R93). -/
def execSyncW (c : Nat) (e : Enc) (s : State) : Host.Outcome State Fault Refusal :=
  .next (s.issue c e (formOf 0xEC00) fun s g _ next => .next (s.modCtx g fun y => { y with wait := .sync }) next 0 none)

/-- FENCE: as SYNC.W, and for every load of the context (R93). -/
def execFence (c : Nat) (e : Enc) (s : State) : Host.Outcome State Fault Refusal :=
  .next (s.issue c e (formOf 0xEC20) fun s g _ next => .next (s.modCtx g fun y => { y with wait := .fence }) next 0 none)

/-- MFS: a special register to ra; a read of TIMEL latches TIMEH (R66). -/
def execMfs (c : Nat) (e : Enc) (s : State) : Host.Outcome State Fault Refusal :=
  .next (s.issue c e (formOf 0xEC40) fun s g x next =>
    if spReadable (decide (x.task = 0)) e.rb = false then .fault fPriv 0 0
    else
      let v := s.spValue g e.rb
      let hi := s.dieUs (strandOf c) / 2 ^ 32
      .next (s.modCtx g fun y => (if e.rb = 24 then y.setSp 25 hi else y).setG e.ra (BitVec.ofNat 32 v)) next 0 none)

/-- MTS: ra to a special register (R66, R136). -/
def execMts (c : Nat) (e : Enc) (s : State) : Host.Outcome State Fault Refusal :=
  .next (s.issue c e (formOf 0xEC60) fun s g x next =>
    if spWritable (decide (x.task = 0)) e.rb = false then .fault fPriv 0 0
    else .next (s.modCtx g fun y => y.putSp e.rb (x.gr e.ra).toNat) next 0 none)

/-- NOP (R135). -/
def execNop (c : Nat) (e : Enc) (s : State) : Host.Outcome State Fault Refusal :=
  .next (s.issue c e (formOf 0xEC80) fun s _ _ next => .next s next 0 none)

/-- END: SYNC.W, then the end of the task or section (R135). -/
def execEndSection (c : Nat) (e : Enc) (s : State) : Host.Outcome State Fault Refusal :=
  .next (s.issue c e (formOf 0xECA0) fun s g _ next => .next (s.modCtx g fun y => { y with wait := .endSection }) next 0 none)

/-- CHKIN: the task's check-in is posted to the supervisor (R135). -/
def execChkin (c : Nat) (e : Enc) (s : State) : Host.Outcome State Fault Refusal :=
  .next (s.issue c e (formOf 0xECC0) fun s _ x next =>
    .next (s.when (s.linkUp (strandOf c)) fun s =>
      { s with chk := { s.chk with queue := s.chk.queue ++ [(x.task, strandOf c)] } }) next 0 none)

/-- SIGNAL: software trigger imm; 0xF0 to 0xFF for task 0 alone (R136). -/
def execSignal (c : Nat) (e : Enc) (s : State) : Host.Outcome State Fault Refusal :=
  .next (s.issue c e (formOf 0xECE0) fun s _ x next =>
    if 0xF0 ≤ e.imm % 256 ∧ x.task ≠ 0 then .fault fPriv 0 0
    else .next (s.when (s.linkUp (strandOf c)) fun s => s.fire 6 (e.imm % 256)) next 0 none)

end Sys2Proof.Machine
end

