-- ==== Sys2Proof/Machine/VoxTimer.lean ====
section
/-! DEFINITION. Timer-cell instructions and CNT64 of the Voxrax core, row 0xEB (R131–R134). -/

namespace Sys2Proof.Machine

/-- TON: on-delay (R133). -/
def execTon (c : Nat) (e : Enc) (s : State) : Host.Outcome State Fault Refusal :=
  .next (s.timerOp c e (formOf 0xEB00) tonEval)

/-- TOF: off-delay (R133). -/
def execTof (c : Nat) (e : Enc) (s : State) : Host.Outcome State Fault Refusal :=
  .next (s.timerOp c e (formOf 0xEB20) tofEval)

/-- TP: pulse (R133). -/
def execTp (c : Nat) (e : Enc) (s : State) : Host.Outcome State Fault Refusal :=
  .next (s.timerOp c e (formOf 0xEB40) tpEval)

/-- TRST: Q, RUN, PIN and ELAPSED cleared (R132). -/
def execTrst (c : Nat) (e : Enc) (s : State) : Host.Outcome State Fault Refusal :=
  .next (s.issue c e (formOf 0xEB60) fun s g x next =>
    match s.cellAt c g (x.ea e) 16 1 with
    | .inl r => r
    | .inr (s, k) =>
      let y := s.cell k
      .next (s.setCell k { y with ctrl := ctrlWith y.ctrl false false false, elapsed := 0 }) next 0 none)

/-- TRD: the elapsed time to ra; the cell is not written (R132). -/
def execTrd (c : Nat) (e : Enc) (s : State) : Host.Outcome State Fault Refusal :=
  .next (s.issue c e (formOf 0xEB80) fun s g x next =>
    match s.cellAt c g (x.ea e) 16 0 with
    | .inl r => r
    | .inr (s, k) =>
      let y := s.cell k
      let v := if bit y.ctrl 1 then Nat.min y.preset (sub32 (s.nowOf c) y.stamp) else y.elapsed
      .next (s.modCtx g fun y => y.setG e.ra (BitVec.ofNat 32 v)) next 0 none)

/-- CNT64: ra added to a counter pair, saturated, in the timer array or as one Bedrock transaction (R134). -/
def execCnt64 (c : Nat) (e : Enc) (s : State) : Host.Outcome State Fault Refusal :=
  .next (s.issue c e (formOf 0xEBA0) fun s g x next => s.count64 c g (x.ea e) e.ra next)

end Sys2Proof.Machine
end

