-- ==== Sys2Proof/Machine/WatchRows.lean ====
section
/-! DEFINITION. Rows of supervision and observation that no session commands (R469–R519), with WDG.CFG and STA.RECORD. -/

namespace Sys2Proof.Machine

/-! ### Watchdogs, clocks and check-in -/

/-- WDG_CFG_WRITE: a write of WDG.PERIOD or of WDG.CFG (R474). -/
def execWdgCfgWrite (ses n : Nat) (period : Bool) (v : Nat) (s : State) : Host.Outcome State Fault Refusal :=
  .next (s.setCmd ses (if period then K.WDG_PERIOD (n + 1) else K.WDG_CFG (n + 1)) v)

/-- WDG_EXPIRY (R470, R472). -/
def execWdgExpiry (n : Nat) (s : State) : Host.Outcome State Fault Refusal := .next (if s.wdgWatched n then s.wdgDue n else s).txnSettle

/-- CLOCK_LOSS: a watchdog's island, or 0x20 and a die bit (R475, R476). -/
def execClockLoss (k : Nat) (s : State) : Host.Outcome State Fault Refusal := .next (s.clockLost k).txnSettle

/-- CLOCK_RESTORED (R476). -/
def execClockRestored (k : Nat) (s : State) : Host.Outcome State Fault Refusal := .next (s.clockBack k)

/-- CHECKIN_ARRIVAL: the CHKIN sent first (R477). R16 orders no two that different Strands' links carry: they arrive in the order of
their issue.
(DESIGN CHOICE, unsafe: log 110.) -/
def execCheckinArrival (s : State) : Host.Outcome State Fault Refusal :=
  .next (match s.chk.queue with
    | [] => s
    | t :: l => (s.setChk fun c => { c with queue := l }).checkIn t.1)

/-- CHECKIN_PERIOD_END (R478). -/
def execCheckinPeriodEnd (s : State) : Host.Outcome State Fault Refusal := .next s.chkEnd

/-! ### The fault collector -/

/-- RAW_RECORD (R483, R486). -/
def execRawRecord (s : State) : Host.Outcome State Fault Refusal := .next s.acceptRaw.txnSettle

/-- FOLD_CLOSE (R486). -/
def execFoldClose (s : State) : Host.Outcome State Fault Refusal := .next s.foldClose

/-- NOTIFY_GAP_END (R489). -/
def execNotifyGapEnd (s : State) : Host.Outcome State Fault Refusal := .next s.notifyEnd

/-- A die-to-die link that exists and runs (R13). -/
def State.dieLink (s : State) (die : Nat) : Bool :=
  decide (1 ≤ die) && decide (die ≤ 7) && bit s.part.fitted die && s.domOn (dieDomain die)

/-- LINK_DOWN (R15). -/
def execLinkDown (die : Nat) (s : State) : Host.Outcome State Fault Refusal :=
  .next (if s.dieLink die && s.linkUp die then s.linkLost die else s)

/-- DIE_LINK_RETRAINED (R15). -/
def execDieLinkRetrained (die : Nat) (s : State) : Host.Outcome State Fault Refusal :=
  .next (if s.dieLink die then s.linkBack die else s)

/-! ### Counters, Strata and tidemarks -/

/-- BW_WINDOW_END (R499). -/
def execBwWindowEnd (s : State) : Host.Outcome State Fault Refusal := .next s.bwEnd

/-- STA_RECORD_READ (R505). -/
def execStaRecordRead (ses : Nat) (s : State) : Host.Outcome State Fault Refusal := .next (s.openDomain ses K.STA_RECORD)

/-- FREEZE_MAX_EXPIRY (R506). -/
def execFreezeMaxExpiry (s : State) : Host.Outcome State Fault Refusal := .next s.freezeEnd

/-- TMK_IN_EDGE: where IN_EN is 1 (R507). -/
def execTmkInEdge (s : State) : Host.Outcome State Fault Refusal :=
  .next (if bit (s.ob K.SNP_CFG) 0 then s.tidemark 3 0 0 else s)

/-- SNP_AT_REACHED (R507). -/
def execSnpAtReached (s : State) : Host.Outcome State Fault Refusal := .next s.snpAt

/-- The values of an island's section in the order of SNP.MAP (R510). -/
def State.islandValues (s : State) (die island : Nat) : List Nat :=
  (s.islandSlots die island).map fun x => x.2.getD (s.slotValue 0 x.1)

/-- TIDEMARK_LATCH (R509, R510).
(DESIGN CHOICE, safe: log 68.) -/
def execTidemarkLatch (die island : Nat) (s : State) : Host.Outcome State Fault Refusal :=
  .next (s.sectionIn die island (Config.sectionBytes die island (s.islandValues die island)))

/-- TIDEMARK_ACK (R509). -/
def execTidemarkAck (die : Nat) (s : State) : Host.Outcome State Fault Refusal := .next (s.tidemarkAck die)

/-- TMK_OUT_END (R508). -/
def execTmkOutEnd (s : State) : Host.Outcome State Fault Refusal := .next (s.setSnp fun p => { p with tmkOut := false })

/-! ### Health -/

/-- TEMP_SAMPLE (R501). -/
def execTempSample (temps : List Int) (s : State) : Host.Outcome State Fault Refusal := .next (s.temps temps)

/-- LIFE_SAMPLE (R501, R513). -/
def execLifeSample (s : State) : Host.Outcome State Fault Refusal := .next s.lifeDay

/-- HEALTH_TEST_SLICE (R514, R515). -/
def execHealthTestSlice (failAt : Option Nat) (s : State) : Host.Outcome State Fault Refusal := .next (s.testSlice failAt)

/-- AGE_MEASURE (R513). -/
def execAgeMeasure (ages : List Nat) (s : State) : Host.Outcome State Fault Refusal := .next (s.agesMeasured ages)

end Sys2Proof.Machine
end

