-- ==== Sys2Proof/Machine/Dispatch.lean ====
section
/-! DEFINITION. One arm per command: a call of its meaning, or its rejection by name. -/

namespace Sys2Proof.Machine

/-- The effect of a command on everything but the queue. -/
def exec (i : Instr) (s : State) : Host.Outcome State Fault Refusal :=
  match i with
  | .objectWrite ses idx sub width v => Sys2Proof.Machine.execObjectWrite ses idx sub width v s
  | .login ses v => Sys2Proof.Machine.execLogin ses v s
  | .lockoutEnd path => Sys2Proof.Machine.execLockoutEnd path s
  | .sessionIdleClose ses => Sys2Proof.Machine.execSessionIdleClose ses s
  | .txnBegin ses => Sys2Proof.Machine.execTxnBegin ses s
  | .txnCommit ses => Sys2Proof.Machine.execTxnCommit ses s
  | .txnDiscard ses => Sys2Proof.Machine.execTxnDiscard ses s
  | .dieVote ses die => Sys2Proof.Machine.execDieVote ses die s
  | .handshakeTimeout kind ses die => Sys2Proof.Machine.execHandshakeTimeout kind ses die s
  | .txnApply ses die => Sys2Proof.Machine.execTxnApply ses die s
  | .applyConfirm ses die => Sys2Proof.Machine.execApplyConfirm ses die s
  | .txnExpired ses => Sys2Proof.Machine.execTxnExpired ses s
  | .domOpen ses v => Sys2Proof.Machine.execDomOpen ses v s
  | .domApertureAccess ses write at_ width v => Sys2Proof.Machine.execDomApertureAccess ses write at_ width v s
  | .domCloseCommit ses => Sys2Proof.Machine.execDomCloseCommit ses s
  | .domCloseAbandon ses => Sys2Proof.Machine.execDomCloseAbandon ses s
  | .oemRequest ses idx sub write v => Sys2Proof.Machine.execOemRequest ses idx sub write v s
  | .oemReqTake => Sys2Proof.Machine.execOemReqTake s
  | .oemAnswer tag status data => Sys2Proof.Machine.execOemAnswer tag status data s
  | .oemTimeout tag => Sys2Proof.Machine.execOemTimeout tag s
  | .serviceOpen fr tag => Sys2Proof.Machine.execServiceOpen fr tag s
  | .serviceClose fr ses tag => Sys2Proof.Machine.execServiceClose fr ses tag s
  | .serviceRead fr ses tag idx sub => Sys2Proof.Machine.execServiceRead fr ses tag idx sub s
  | .serviceWrite fr ses tag idx sub v => Sys2Proof.Machine.execServiceWrite fr ses tag idx sub v s
  | .serviceDomRead fr ses tag off len => Sys2Proof.Machine.execServiceDomRead fr ses tag off len s
  | .serviceDomWrite fr ses tag off data => Sys2Proof.Machine.execServiceDomWrite fr ses tag off data s
  | .ld c e => Sys2Proof.Machine.execLd c e s
  | .st c e => Sys2Proof.Machine.execSt c e s
  | .mov c e => Sys2Proof.Machine.execMov c e s
  | .add c e => Sys2Proof.Machine.execAdd c e s
  | .ldx c e => Sys2Proof.Machine.execLdx c e s
  | .stx c e => Sys2Proof.Machine.execStx c e s
  | .bnz c e => Sys2Proof.Machine.execBnz c e s
  | .sub c e => Sys2Proof.Machine.execSub c e s
  | .neg c e => Sys2Proof.Machine.execNeg c e s
  | .mul c e => Sys2Proof.Machine.execMul c e s
  | .mulh c e => Sys2Proof.Machine.execMulh c e s
  | .div c e => Sys2Proof.Machine.execDiv c e s
  | .divu c e => Sys2Proof.Machine.execDivu c e s
  | .rem c e => Sys2Proof.Machine.execRem c e s
  | .remu c e => Sys2Proof.Machine.execRemu c e s
  | .and c e => Sys2Proof.Machine.execAnd c e s
  | .or c e => Sys2Proof.Machine.execOr c e s
  | .xor c e => Sys2Proof.Machine.execXor c e s
  | .andn c e => Sys2Proof.Machine.execAndn c e s
  | .not c e => Sys2Proof.Machine.execNot c e s
  | .shl c e => Sys2Proof.Machine.execShl c e s
  | .shr c e => Sys2Proof.Machine.execShr c e s
  | .sar c e => Sys2Proof.Machine.execSar c e s
  | .adds c e => Sys2Proof.Machine.execAdds c e s
  | .subs c e => Sys2Proof.Machine.execSubs c e s
  | .abs c e => Sys2Proof.Machine.execAbs c e s
  | .abss c e => Sys2Proof.Machine.execAbss c e s
  | .min c e => Sys2Proof.Machine.execMin c e s
  | .max c e => Sys2Proof.Machine.execMax c e s
  | .rol c e => Sys2Proof.Machine.execRol c e s
  | .ror c e => Sys2Proof.Machine.execRor c e s
  | .ceq c e => Sys2Proof.Machine.execCeq c e s
  | .clt c e => Sys2Proof.Machine.execClt c e s
  | .cle c e => Sys2Proof.Machine.execCle c e s
  | .cltu c e => Sys2Proof.Machine.execCltu c e s
  | .cleu c e => Sys2Proof.Machine.execCleu c e s
  | .tst c e => Sys2Proof.Machine.execTst c e s
  | .cova c e => Sys2Proof.Machine.execCova c e s
  | .covs c e => Sys2Proof.Machine.execCovs c e s
  | .ldb c e => Sys2Proof.Machine.execLdb c e s
  | .ldbu c e => Sys2Proof.Machine.execLdbu c e s
  | .ldh c e => Sys2Proof.Machine.execLdh c e s
  | .ldhu c e => Sys2Proof.Machine.execLdhu c e s
  | .stb c e => Sys2Proof.Machine.execStb c e s
  | .sth c e => Sys2Proof.Machine.execSth c e s
  | .lea c e => Sys2Proof.Machine.execLea c e s
  | .xchg c e => Sys2Proof.Machine.execXchg c e s
  | .bz c e => Sys2Proof.Machine.execBz c e s
  | .br c e => Sys2Proof.Machine.execBr c e s
  | .call c e => Sys2Proof.Machine.execCall c e s
  | .ret c e => Sys2Proof.Machine.execRet c e s
  | .dbnz c e => Sys2Proof.Machine.execDbnz c e s
  | .swtrap c e => Sys2Proof.Machine.execSwtrap c e s
  | .fadd c e => Sys2Proof.Machine.execFadd c e s
  | .fsub c e => Sys2Proof.Machine.execFsub c e s
  | .fmul c e => Sys2Proof.Machine.execFmul c e s
  | .fdiv c e => Sys2Proof.Machine.execFdiv c e s
  | .fsqrt c e => Sys2Proof.Machine.execFsqrt c e s
  | .fmov c e => Sys2Proof.Machine.execFmov c e s
  | .fneg c e => Sys2Proof.Machine.execFneg c e s
  | .fabs c e => Sys2Proof.Machine.execFabs c e s
  | .fceq c e => Sys2Proof.Machine.execFceq c e s
  | .fclt c e => Sys2Proof.Machine.execFclt c e s
  | .fcle c e => Sys2Proof.Machine.execFcle c e s
  | .ftoi c e => Sys2Proof.Machine.execFtoi c e s
  | .itof c e => Sys2Proof.Machine.execItof c e s
  | .fcvt c e => Sys2Proof.Machine.execFcvt c e s
  | .fld c e => Sys2Proof.Machine.execFld c e s
  | .fst c e => Sys2Proof.Machine.execFst c e s
  | .movb c e => Sys2Proof.Machine.execMovb c e s
  | .movh c e => Sys2Proof.Machine.execMovh c e s
  | .movw c e => Sys2Proof.Machine.execMovw c e s
  | .fillw c e => Sys2Proof.Machine.execFillw c e s
  | .scanw c e => Sys2Proof.Machine.execScanw c e s
  | .cmpw c e => Sys2Proof.Machine.execCmpw c e s
  | .bld c e => Sys2Proof.Machine.execBld c e s
  | .bst c e => Sys2Proof.Machine.execBst c e s
  | .bset c e => Sys2Proof.Machine.execBset c e s
  | .brst c e => Sys2Proof.Machine.execBrst c e s
  | .band c e => Sys2Proof.Machine.execBand c e s
  | .bor c e => Sys2Proof.Machine.execBor c e s
  | .bandn c e => Sys2Proof.Machine.execBandn c e s
  | .born c e => Sys2Proof.Machine.execBorn c e s
  | .gatb c e => Sys2Proof.Machine.execGatb c e s
  | .rung c e => Sys2Proof.Machine.execRung c e s
  | .edgr c e => Sys2Proof.Machine.execEdgr c e s
  | .edgf c e => Sys2Proof.Machine.execEdgf c e s
  | .ton c e => Sys2Proof.Machine.execTon c e s
  | .tof c e => Sys2Proof.Machine.execTof c e s
  | .tp c e => Sys2Proof.Machine.execTp c e s
  | .trst c e => Sys2Proof.Machine.execTrst c e s
  | .trd c e => Sys2Proof.Machine.execTrd c e s
  | .cnt64 c e => Sys2Proof.Machine.execCnt64 c e s
  | .syncW c e => Sys2Proof.Machine.execSyncW c e s
  | .fence c e => Sys2Proof.Machine.execFence c e s
  | .mfs c e => Sys2Proof.Machine.execMfs c e s
  | .mts c e => Sys2Proof.Machine.execMts c e s
  | .nop c e => Sys2Proof.Machine.execNop c e s
  | .endSection c e => Sys2Proof.Machine.execEndSection c e s
  | .chkin c e => Sys2Proof.Machine.execChkin c e s
  | .signal c e => Sys2Proof.Machine.execSignal c e s
  | .bracketLimit c => Sys2Proof.Machine.execBracketLimit c s
  | .loadDataReturn c => Sys2Proof.Machine.execLoadDataReturn c s
  | .writeBufferRoom c => Sys2Proof.Machine.execWriteBufferRoom c s
  | .writeBufferDrain c => Sys2Proof.Machine.execWriteBufferDrain c s
  | .drainAck c ctx => Sys2Proof.Machine.execDrainAck c ctx s
  | .cpuCtlWrite ses c v => Sys2Proof.Machine.execCpuCtlWrite ses c v s
  | .tdsStart ses => Sys2Proof.Machine.execTdsStart ses s
  | .tdsStop ses => Sys2Proof.Machine.execTdsStop ses s
  | .tdsHalt ses => Sys2Proof.Machine.execTdsHalt ses s
  | .tdsClear ses => Sys2Proof.Machine.execTdsClear ses s
  | .rebaseDone strand => Sys2Proof.Machine.execRebaseDone strand s
  | .ebbPoint => Sys2Proof.Machine.execEbbPoint s
  | .inDeadline => Sys2Proof.Machine.execInDeadline s
  | .floodStart => Sys2Proof.Machine.execFloodStart s
  | .floodLatestReached => Sys2Proof.Machine.execFloodLatestReached s
  | .trigger => Sys2Proof.Machine.execTrigger s
  | .copyInDone t sec => Sys2Proof.Machine.execCopyInDone t sec s
  | .completionFlag t sec => Sys2Proof.Machine.execCompletionFlag t sec s
  | .publish t => Sys2Proof.Machine.execPublish t s
  | .tskEnable ses t => Sys2Proof.Machine.execTskEnable ses t s
  | .tskDisable ses t => Sys2Proof.Machine.execTskDisable ses t s
  | .tskResume ses t => Sys2Proof.Machine.execTskResume ses t s
  | .tskAbandon ses t => Sys2Proof.Machine.execTskAbandon ses t s
  | .tskRelease ses t => Sys2Proof.Machine.execTskRelease ses t s
  | .keventsRead ses => Sys2Proof.Machine.execKeventsRead ses s
  | .cut => Sys2Proof.Machine.execCut s
  | .cutCopyEnd => Sys2Proof.Machine.execCutCopyEnd s
  | .transmitWindowClose => Sys2Proof.Machine.execTransmitWindowClose s
  | .launch => Sys2Proof.Machine.execLaunch s
  | .slackPoint => Sys2Proof.Machine.execSlackPoint s
  | .slackWindowEnd => Sys2Proof.Machine.execSlackWindowEnd s
  | .forceSet ses => Sys2Proof.Machine.execForceSet ses s
  | .forceClear ses => Sys2Proof.Machine.execForceClear ses s
  | .forceRead ses => Sys2Proof.Machine.execForceRead ses s
  | .forceClearAll ses => Sys2Proof.Machine.execForceClearAll ses s
  | .imgCtlWrite ses v => Sys2Proof.Machine.execImgCtlWrite ses v s
  | .retBlockSave strand block => Sys2Proof.Machine.execRetBlockSave strand block s
  | .olcLoad ses => Sys2Proof.Machine.execOlcLoad ses s
  | .olcLoadDone ses => Sys2Proof.Machine.execOlcLoadDone ses s
  | .olcVerify ses => Sys2Proof.Machine.execOlcVerify ses s
  | .verifyDone => Sys2Proof.Machine.execVerifyDone s
  | .olcPrepare ses => Sys2Proof.Machine.execOlcPrepare ses s
  | .prepareVote die yes => Sys2Proof.Machine.execPrepareVote die yes s
  | .olcCommit ses => Sys2Proof.Machine.execOlcCommit ses s
  | .olcAbort ses => Sys2Proof.Machine.execOlcAbort ses s
  | .olcRelease ses => Sys2Proof.Machine.execOlcRelease ses s
  | .olcRetreat ses => Sys2Proof.Machine.execOlcRetreat ses s
  | .noQuiesce => Sys2Proof.Machine.execNoQuiesce s
  | .bankSwitch strand => Sys2Proof.Machine.execBankSwitch strand s
  | .bankConfirm strand => Sys2Proof.Machine.execBankConfirm strand s
  | .confirmLost strand => Sys2Proof.Machine.execConfirmLost strand s
  | .olcCompletion => Sys2Proof.Machine.execOlcCompletion s
  | .cutTideReceive tide => Sys2Proof.Machine.execCutTideReceive tide s
  | .standbyVoteReceive tide yes => Sys2Proof.Machine.execStandbyVoteReceive tide yes s
  | .standbyVoteLate => Sys2Proof.Machine.execStandbyVoteLate s
  | .partnerCommitToken tide => Sys2Proof.Machine.execPartnerCommitToken tide s
  | .commitTokenMissing => Sys2Proof.Machine.execCommitTokenMissing s
  | .resetRelease bistOk flash0 flash1 => Sys2Proof.Machine.execResetRelease bistOk flash0 flash1 s
  | .timeWaitExpiry => Sys2Proof.Machine.execTimeWaitExpiry s
  | .ntmLockWrite ses v => Sys2Proof.Machine.execNtmLockWrite ses v s
  | .startConfirm => Sys2Proof.Machine.execStartConfirm s
  | .strColdNext ses => Sys2Proof.Machine.execStrColdNext ses s
  | .strRestartCold ses => Sys2Proof.Machine.execStrRestartCold ses s
  | .strRestartWarm ses => Sys2Proof.Machine.execStrRestartWarm ses s
  | .strClearFails ses => Sys2Proof.Machine.execStrClearFails ses s
  | .secProvision ses data => Sys2Proof.Machine.execSecProvision ses data s
  | .ebbTrainLaunch => Sys2Proof.Machine.execEbbTrainLaunch s
  | .armedSchedule => Sys2Proof.Machine.execArmedSchedule s
  | .ebbFrameReceive fr body => Sys2Proof.Machine.execEbbFrameReceive fr body s
  | .slackFrameReceive fr body => Sys2Proof.Machine.execSlackFrameReceive fr body s
  | .transitFrame fr cls body => Sys2Proof.Machine.execTransitFrame fr cls body s
  | .eventFrame fr body => Sys2Proof.Machine.execEventFrame fr body s
  | .serviceRoute fr ses tag idx sub off data => Sys2Proof.Machine.execServiceRoute fr ses tag idx sub off data s
  | .serviceResponse fr rid status reason data => Sys2Proof.Machine.execServiceResponse fr rid status reason data s
  | .routeTimeout rid => Sys2Proof.Machine.execRouteTimeout rid s
  | .relayedServiceRequest src tag port pos ses op idx sub off data => Sys2Proof.Machine.execRelayedServiceRequest src tag port pos ses op idx sub off data s
  | .arpRequest fr ip srcIp => Sys2Proof.Machine.execArpRequest fr ip srcIp s
  | .icmpEcho fr ip srcIp data => Sys2Proof.Machine.execIcmpEcho fr ip srcIp data s
  | .hnwScan ses => Sys2Proof.Machine.execHnwScan ses s
  | .hnwConfigure ses => Sys2Proof.Machine.execHnwConfigure ses s
  | .hnwCmdDone => Sys2Proof.Machine.execHnwCmdDone s
  | .positionProbe station => Sys2Proof.Machine.execPositionProbe station s
  | .portLinkChange port up reg0 reg1 => Sys2Proof.Machine.execPortLinkChange port up reg0 reg1 s
  | .timeToken => Sys2Proof.Machine.execTimeToken s
  | .ntmIncrWrite ses v => Sys2Proof.Machine.execNtmIncrWrite ses v s
  | .ntmSet ses data => Sys2Proof.Machine.execNtmSet ses data s
  | .ntmOffset ses v => Sys2Proof.Machine.execNtmOffset ses v s
  | .ntmOffsetForce ses v => Sys2Proof.Machine.execNtmOffsetForce ses v s
  | .ntmNsecRead ses => Sys2Proof.Machine.execNtmNsecRead ses s
  | .ptpReceive fr frame => Sys2Proof.Machine.execPtpReceive fr frame s
  | .ptpRxRead ses => Sys2Proof.Machine.execPtpRxRead ses s
  | .ptpTxSubmit ses data => Sys2Proof.Machine.execPtpTxSubmit ses data s
  | .txStampRead ses => Sys2Proof.Machine.execTxStampRead ses s
  | .frameLaunch port => Sys2Proof.Machine.execFrameLaunch port s
  | .launchMiss port => Sys2Proof.Machine.execLaunchMiss port s
  | .gateChange port => Sys2Proof.Machine.execGateChange port s
  | .gclActivate ses port v => Sys2Proof.Machine.execGclActivate ses port v s
  | .mooringStatusSend => Sys2Proof.Machine.execMooringStatusSend s
  | .mooringStatusReceive link m => Sys2Proof.Machine.execMooringStatusReceive link m s
  | .peerAbsent => Sys2Proof.Machine.execPeerAbsent s
  | .mooringLinkDown link => Sys2Proof.Machine.execMooringLinkDown link s
  | .mooringRetrain link lanes => Sys2Proof.Machine.execMooringRetrain link lanes s
  | .digestReceive tide image parts => Sys2Proof.Machine.execDigestReceive tide image parts s
  | .partitionReceive tide part data => Sys2Proof.Machine.execPartitionReceive tide part data s
  | .agreedReceive tide => Sys2Proof.Machine.execAgreedReceive tide s
  | .dictationReceive d => Sys2Proof.Machine.execDictationReceive d s
  | .replicatedWriteReceive m => Sys2Proof.Machine.execReplicatedWriteReceive m s
  | .outputDigestReceive tide image parts => Sys2Proof.Machine.execOutputDigestReceive tide image parts s
  | .grantPairChange grant grantN => Sys2Proof.Machine.execGrantPairChange grant grantN s
  | .witnessStart => Sys2Proof.Machine.execWitnessStart s
  | .witnessHbTimeout p => Sys2Proof.Machine.execWitnessHbTimeout p s
  | .witnessClaimAccept p level => Sys2Proof.Machine.execWitnessClaimAccept p level s
  | .witnessGrantDrive => Sys2Proof.Machine.execWitnessGrantDrive s
  | .witnessFault => Sys2Proof.Machine.execWitnessFault s
  | .redLeave ses => Sys2Proof.Machine.execRedLeave ses s
  | .redResync ses => Sys2Proof.Machine.execRedResync ses s
  | .redSwitchover ses => Sys2Proof.Machine.execRedSwitchover ses s
  | .redDrill ses => Sys2Proof.Machine.execRedDrill ses s
  | .resyncPassEnd left => Sys2Proof.Machine.execResyncPassEnd left s
  | .swapTokenReceive tide => Sys2Proof.Machine.execSwapTokenReceive tide s
  | .switchoverDecide => Sys2Proof.Machine.execSwitchoverDecide s
  | .drillTimer => Sys2Proof.Machine.execDrillTimer s
  | .returnHoldoffExpiry => Sys2Proof.Machine.execReturnHoldoffExpiry s
  | .inputEdgeAccept n rising stamp => Sys2Proof.Machine.execInputEdgeAccept n rising stamp s
  | .c1Status r => Sys2Proof.Machine.execC1Status r s
  | .diagSettleEnd n => Sys2Proof.Machine.execDiagSettleEnd n s
  | .fieldSupplyChange grp present => Sys2Proof.Machine.execFieldSupplyChange grp present s
  | .fieldConfigMessage item v => Sys2Proof.Machine.execFieldConfigMessage item v s
  | .fieldRefresh => Sys2Proof.Machine.execFieldRefresh s
  | .fieldPark => Sys2Proof.Machine.execFieldPark s
  | .fieldRecover => Sys2Proof.Machine.execFieldRecover s
  | .silenceExpiry => Sys2Proof.Machine.execSilenceExpiry s
  | .fioPark ses => Sys2Proof.Machine.execFioPark ses s
  | .fioRecover ses => Sys2Proof.Machine.execFioRecover ses s
  | .fioClearOvl ses => Sys2Proof.Machine.execFioClearOvl ses s
  | .ovlSwitchOff n => Sys2Proof.Machine.execOvlSwitchOff n s
  | .thermalShutdown n => Sys2Proof.Machine.execThermalShutdown n s
  | .thermalRelease n => Sys2Proof.Machine.execThermalRelease n s
  | .ovlRetry n => Sys2Proof.Machine.execOvlRetry n s
  | .edgeLogRead ses => Sys2Proof.Machine.execEdgeLogRead ses s
  | .mbcStart ses k => Sys2Proof.Machine.execMbcStart ses k s
  | .busIdleDetect k => Sys2Proof.Machine.execBusIdleDetect k s
  | .mbcStop ses k => Sys2Proof.Machine.execMbcStop ses k s
  | .mbcRecover ses k => Sys2Proof.Machine.execMbcRecover ses k s
  | .busRecovered k => Sys2Proof.Machine.execBusRecovered k s
  | .mbcUnlock ses k => Sys2Proof.Machine.execMbcUnlock ses k s
  | .canFrameReceive k f stamp => Sys2Proof.Machine.execCanFrameReceive k f stamp s
  | .sdoRequest k data => Sys2Proof.Machine.execSdoRequest k data s
  | .sdoTimeout k => Sys2Proof.Machine.execSdoTimeout k s
  | .rdPop ses k v => Sys2Proof.Machine.execRdPop ses k v s
  | .rdLastWordRead ses k => Sys2Proof.Machine.execRdLastWordRead ses k s
  | .txReq ses k v => Sys2Proof.Machine.execTxReq ses k v s
  | .txCancel ses k v => Sys2Proof.Machine.execTxCancel ses k v s
  | .txStartOfFrame k => Sys2Proof.Machine.execTxStartOfFrame k s
  | .txAttemptEnd k r => Sys2Proof.Machine.execTxAttemptEnd k r s
  | .dmaStart ses ch => Sys2Proof.Machine.execDmaStart ses ch s
  | .dmaStop ses ch => Sys2Proof.Machine.execDmaStop ses ch s
  | .dmaPause ses ch => Sys2Proof.Machine.execDmaPause ses ch s
  | .dmaResume ses ch => Sys2Proof.Machine.execDmaResume ses ch s
  | .dmaAbort ses ch => Sys2Proof.Machine.execDmaAbort ses ch s
  | .dmaClear ses ch => Sys2Proof.Machine.execDmaClear ses ch s
  | .dmaMove ch => Sys2Proof.Machine.execDmaMove ch s
  | .dmaLoop ch => Sys2Proof.Machine.execDmaLoop ch s
  | .dmaWait ch => Sys2Proof.Machine.execDmaWait ch s
  | .dmaSignal ch => Sys2Proof.Machine.execDmaSignal ch s
  | .dmaFence ch => Sys2Proof.Machine.execDmaFence ch s
  | .dmaEnd ch => Sys2Proof.Machine.execDmaEnd ch s
  | .dmaReadbackDone ch => Sys2Proof.Machine.execDmaReadbackDone ch s
  | .dmaWaitRelease ch => Sys2Proof.Machine.execDmaWaitRelease ch s
  | .dmaWaitTimeout ch => Sys2Proof.Machine.execDmaWaitTimeout ch s
  | .dmaPauseDrained ch => Sys2Proof.Machine.execDmaPauseDrained ch s
  | .dmaEventSet ses v => Sys2Proof.Machine.execDmaEventSet ses v s
  | .bdrTxnBegin ses => Sys2Proof.Machine.execBdrTxnBegin ses s
  | .bdrTxnCommit ses => Sys2Proof.Machine.execBdrTxnCommit ses s
  | .bdrTxnDiscard ses => Sys2Proof.Machine.execBdrTxnDiscard ses s
  | .bdrCommitApplied => Sys2Proof.Machine.execBdrCommitApplied s
  | .bdrUnlock ses v => Sys2Proof.Machine.execBdrUnlock ses v s
  | .bdrLock ses v => Sys2Proof.Machine.execBdrLock ses v s
  | .recDataRead ses => Sys2Proof.Machine.execRecDataRead ses s
  | .recDataWrite ses data => Sys2Proof.Machine.execRecDataWrite ses data s
  | .inhibitChange level => Sys2Proof.Machine.execInhibitChange level s
  | .wearSave => Sys2Proof.Machine.execWearSave s
  | .bkPowerUp ident => Sys2Proof.Machine.execBkPowerUp ident s
  | .calCountWrite ses v => Sys2Proof.Machine.execCalCountWrite ses v s
  | .calShiftWrite ses v => Sys2Proof.Machine.execCalShiftWrite ses v s
  | .shiftEnd => Sys2Proof.Machine.execShiftEnd s
  | .calEnd => Sys2Proof.Machine.execCalEnd s
  | .convDateWrite ses v => Sys2Proof.Machine.execConvDateWrite ses v s
  | .convTicksWrite ses v => Sys2Proof.Machine.execConvTicksWrite ses v s
  | .alarmArm ses n v => Sys2Proof.Machine.execAlarmArm ses n v s
  | .alarmFire n => Sys2Proof.Machine.execAlarmFire n s
  | .calSupplyOn ses => Sys2Proof.Machine.execCalSupplyOn ses s
  | .calSupplyOff ses => Sys2Proof.Machine.execCalSupplyOff ses s
  | .wake => Sys2Proof.Machine.execWake s
  | .rsvTest ses => Sys2Proof.Machine.execRsvTest ses s
  | .rsvReread ses => Sys2Proof.Machine.execRsvReread ses s
  | .rsvTestInterval => Sys2Proof.Machine.execRsvTestInterval s
  | .rsvTestEnd dv1 dv2 => Sys2Proof.Machine.execRsvTestEnd dv1 dv2 s
  | .rsvTestAbort => Sys2Proof.Machine.execRsvTestAbort s
  | .stressUpdate tempC volt => Sys2Proof.Machine.execStressUpdate tempC volt s
  | .stressSave => Sys2Proof.Machine.execStressSave s
  | .wdgKey ses n v => Sys2Proof.Machine.execWdgKey ses n v s
  | .wdgCfgWrite ses n period v => Sys2Proof.Machine.execWdgCfgWrite ses n period v s
  | .wdgExpiry n => Sys2Proof.Machine.execWdgExpiry n s
  | .clockLoss k => Sys2Proof.Machine.execClockLoss k s
  | .clockRestored k => Sys2Proof.Machine.execClockRestored k s
  | .chkPeriodWrite ses n v => Sys2Proof.Machine.execChkPeriodWrite ses n v s
  | .checkinArrival => Sys2Proof.Machine.execCheckinArrival s
  | .checkinPeriodEnd => Sys2Proof.Machine.execCheckinPeriodEnd s
  | .rawRecord => Sys2Proof.Machine.execRawRecord s
  | .foldClose => Sys2Proof.Machine.execFoldClose s
  | .notifyGapEnd => Sys2Proof.Machine.execNotifyGapEnd s
  | .fltClearOut ses => Sys2Proof.Machine.execFltClearOut ses s
  | .fltFlush ses => Sys2Proof.Machine.execFltFlush ses s
  | .fltRaise ses v => Sys2Proof.Machine.execFltRaise ses v s
  | .linkDown die => Sys2Proof.Machine.execLinkDown die s
  | .bwWindowEnd => Sys2Proof.Machine.execBwWindowEnd s
  | .bwWindowWrite ses v => Sys2Proof.Machine.execBwWindowWrite ses v s
  | .tempSample temps => Sys2Proof.Machine.execTempSample temps s
  | .lifeSample => Sys2Proof.Machine.execLifeSample s
  | .staRecordRead ses => Sys2Proof.Machine.execStaRecordRead ses s
  | .staFreeze ses => Sys2Proof.Machine.execStaFreeze ses s
  | .staThaw ses => Sys2Proof.Machine.execStaThaw ses s
  | .freezeMaxExpiry => Sys2Proof.Machine.execFreezeMaxExpiry s
  | .staRaise ses v => Sys2Proof.Machine.execStaRaise ses v s
  | .snpFire ses => Sys2Proof.Machine.execSnpFire ses s
  | .snpRelease ses => Sys2Proof.Machine.execSnpRelease ses s
  | .snpReleaseAll ses => Sys2Proof.Machine.execSnpReleaseAll ses s
  | .tmkInEdge => Sys2Proof.Machine.execTmkInEdge s
  | .snpAtReached => Sys2Proof.Machine.execSnpAtReached s
  | .tidemarkLatch die island => Sys2Proof.Machine.execTidemarkLatch die island s
  | .tidemarkAck die => Sys2Proof.Machine.execTidemarkAck die s
  | .tmkOutEnd => Sys2Proof.Machine.execTmkOutEnd s
  | .hltTestReq ses v => Sys2Proof.Machine.execHltTestReq ses v s
  | .healthTestSlice failAt => Sys2Proof.Machine.execHealthTestSlice failAt s
  | .ageMeasure ages => Sys2Proof.Machine.execAgeMeasure ages s
  | .pwrDomainOff ses d => Sys2Proof.Machine.execPwrDomainOff ses d s
  | .pdDrained d => Sys2Proof.Machine.execPdDrained d s
  | .pdDrainTimeout d => Sys2Proof.Machine.execPdDrainTimeout d s
  | .domainOffDone d => Sys2Proof.Machine.execDomainOffDone d s
  | .pwrDomainOn ses d => Sys2Proof.Machine.execPwrDomainOn ses d s
  | .domainOnDone d => Sys2Proof.Machine.execDomainOnDone d s
  | .pwrReset ses => Sys2Proof.Machine.execPwrReset ses s
  | .pwrSleep ses => Sys2Proof.Machine.execPwrSleep ses s
  | .coreFreqWrite ses n v => Sys2Proof.Machine.execCoreFreqWrite ses n v s
  | .powerOn => Sys2Proof.Machine.execPowerOn s
  | .resetPin porst => Sys2Proof.Machine.execResetPin porst s
  | .debugReset => Sys2Proof.Machine.execDebugReset s
  | .brownout rail => Sys2Proof.Machine.execBrownout rail s
  | .refclkLoss => Sys2Proof.Machine.execRefclkLoss s
  | .sdclkLoss => Sys2Proof.Machine.execSdclkLoss s
  | .dieLinkRetrained die => Sys2Proof.Machine.execDieLinkRetrained die s
  | .regionLockoutEnd r => Sys2Proof.Machine.execRegionLockoutEnd r s
  | .calTick => Sys2Proof.Machine.execCalTick s
  | .backupSupplyChange present => Sys2Proof.Machine.execBackupSupplyChange present s
  | .refclkRestored => Sys2Proof.Machine.execRefclkRestored s
  | .sdclkRestored => Sys2Proof.Machine.execSdclkRestored s
  | .witnessHbReturn p => Sys2Proof.Machine.execWitnessHbReturn p s
  | .scanNoAnswer port => Sys2Proof.Machine.execScanNoAnswer port s
  | .relayedServiceResponse rid status reason data => Sys2Proof.Machine.execRelayedServiceResponse rid status reason data s
  | .resyncDataReceive x => Sys2Proof.Machine.execResyncDataReceive x s
  | .partnerPrepareReceive hash => Sys2Proof.Machine.execPartnerPrepareReceive hash s
  | .partnerDiscardToken => Sys2Proof.Machine.execPartnerDiscardToken s
  | .canRxError k lec => Sys2Proof.Machine.execCanRxError k lec s

end Sys2Proof.Machine
end

