-- ==== Sys2Proof/Machine/Step.lean ====
section
/-! DEFINITION. One step: the command at the front of the queue runs on the state with the queue's rest; with no
command waiting, one tick of the network time clock passes. -/

namespace Sys2Proof.Machine

/-- One step of the package.
(DESIGN CHOICE, unsafe: log 1.)
(DEDUCED, unsafe: log 10.) -/
def step (s : State) : Host.Outcome State Fault Refusal :=
  match s.pending with
  | [] => .next s.tick
  | c :: rest => exec c { s with pending := rest }

/-- The state with a command put at the front of its queue.
(DESIGN CHOICE, unsafe: log 1.) -/
def State.withPending (s : State) (c : Instr) : State := { s with pending := c :: s.pending }

/-- The state with the command that a word spells at the front of its queue; no word spells one.
(DESIGN CHOICE, safe: log 6.) -/
def State.withFetchWord (s : State) (nbits w : Nat) : State :=
  match Sys2Proof.decodeTableWord nbits w with
  | some c => s.withPending c
  | none => s

end Sys2Proof.Machine
end

