-- ==== Sys2Proof/Machine/BallOps.lean ====
section
/-! DEFINITION. What the balls show of the state: output levels with all rails on (R343, R344, R491, R508, R534, R544), and the
debug
port's instructions and IDCODE (R556, R557). -/

namespace Sys2Proof.Machine

/-- What an output ball does. -/
inductive Drive where
  | low
  | high
  | toggling
  | idle
  deriving DecidableEq, Repr

def driveOf (b : Bool) : Drive := if b then .high else .low

/-- FAULT_N: low where asserted, kept through a package reset (R491, R544). -/
def State.faultN (s : State) : Drive := driveOf (!s.flt.out)

/-- SUPPLY_EN (R460, R544). -/
def State.supplyEn (s : State) : Drive := driveOf s.cal.supply

/-- RESET_OUT_N (R534, R544). -/
def State.resetOutN (s : State) : Drive := driveOf (!s.resetOutLow)

/-- TMK_OUT (R508, R544). -/
def State.tmkOut (s : State) : Drive := driveOf (s.snp.tmkOut && !s.pwr.inReset)

/-- CANn_TX in a package reset: recessive (R544); none where a frame in progress decides it. -/
def State.canTx (s : State) (n : Nat) : Option Drive :=
  if s.pwr.inReset ∨ (s.mb n).cur.isNone then some .high else none

/-- The two lines of a grant pair as a witness drives them (R345, R347). -/
def PairSt.lines : PairSt → List Drive
  | .valid => [.high, .low]
  | .denied => [.low, .high]
  | .invalid => [.low, .low]

/-- ILK_O0–ILK_O3: HB and CLAIM of a partner, or the pairs of a witness (R343, R344); low in a package reset (R544). -/
def State.ilkOut (s : State) : List Drive :=
  if s.pwr.inReset then [.low, .low, .low, .low]
  else if s.red.role = .witness then s.red.wit.pairA.lines ++ s.red.wit.pairB.lines
  else [if s.red.hb then .toggling else .low, driveOf s.red.claim, .low, .low]

/-- SerDes transmitters: electrical idle in a package reset (R544). -/
def State.serdesTx (s : State) : Option Drive := if s.pwr.inReset then some .idle else none

/-! ### The debug port (R556, R557) -/

/-- Instructions of the test access port. -/
inductive TapIns where
  | bypass
  | idcode
  | sample
  | extest
  deriving DecidableEq, Repr

/-- The port has the instruction: with DEBUG_OFF only BYPASS and IDCODE remain (R557). -/
def State.tapHas (s : State) (i : TapIns) : Bool := !bit s.str.fuses 3 || decide (i = .bypass) || decide (i = .idcode)

/-- Bits 31–28 of IDCODE: 1 for A1; the steppings that come later are not named (R557). -/
def idcodeStep : Nat := if Config.stepping = 0x4101 then 1 else Config.idcodeStep % 16

/-- The IDCODE register (R557). -/
def State.idcode (s : State) : Nat := idcodeStep * 2 ^ 28 + s.part.code % 2 ^ 16 * 2 ^ 12 + 0x2B6 * 2 + 1

end Sys2Proof.Machine
end

