-- ==== Sys2Proof/Safety.lean ====
section
/-! DEFINITION. What counts as a safe run, and the terms that statements are made in: when a command completes, when the
dictionary takes a write, when a core issues an instruction, and what an instruction leaves alone. -/

namespace Sys2Proof

/-- A step that neither faults nor refuses. -/
def Machine.State.steps (s : Machine.State) : Prop := ∃ t : Machine.State, Machine.step s = Host.Outcome.next t

/-- A run of k steps that never stops. -/
def Machine.State.runs (s : Machine.State) (k : Nat) : Prop := ∃ t : Machine.State, Sys2Proof.core.run k s = Host.Outcome.next t

end Sys2Proof

namespace Sys2Proof.Machine

/-- The command completes: exec answers a next state, and P holds of it. -/
def Completes (i : Instr) (s : State) (P : State → Prop) : Prop := ∃ t, exec i s = Host.Outcome.next t ∧ P t

/-! ### Writes of the dictionary -/

/-- A session's write of an object at its own width is taken and has its effect at once: the session is served, no check of
R41 fails, no transaction of the session is open, and the pair does not hold the write for its next flood start (R340). -/
structure Takes (s : State) (n key v : Nat) : Prop where
  served : s.served n = true
  passes : s.writeCheck n key (s.obBytes key) v = (stOK, rNONE)
  direct : (s.ses n).txn ≠ .open
  single : (s.replicates && s.isReplicated key) = false

/-- A session's write of an object at its own width is refused with a status other than OK. -/
structure Refuses (s : State) (n key v st reason : Nat) : Prop where
  served : s.served n = true
  plain : isOem (key / 256) = false ∧ isTypeDesc key = false ∧ key / 256 ≠ 0x1180
  fails : s.writeCheck n key (s.obBytes key) v = (st, reason)
  bad : st ≠ stOK

/-- A session's read transfer of an object opens (R55): the session is served, and neither DIC.DOM_OPEN nor the object refuses. -/
structure Opens (s : State) (n key : Nat) : Prop where
  served : s.served n = true
  passes : s.writeCheck n K.DIC_DOM_OPEN (s.obBytes K.DIC_DOM_OPEN) (key / 256 * 2 ^ 32 + key % 256 * 2 ^ 24 + 2 ^ 16) = (stOK, rNONE)
  allowed : (s.domCheck n key false).1 = stOK

/-- The state with a write transfer of an object open in the session and its bytes staged. -/
def State.filled (s : State) (n key : Nat) (data : List Byte) : State :=
  (s.setCmd n K.DIC_DOM_OPEN (key / 256 * 2 ^ 32 + key % 256 * 2 ^ 24 + 2 * 2 ^ 16)).xferPut n 0 data

/-- A session's domain write of an object is taken whole (R55, R56): the transfer opens, and its close with COMMIT passes every
check. -/
structure Delivers (s : State) (n key : Nat) (data : List Byte) : Prop where
  served : s.served n = true
  passes : s.writeCheck n K.DIC_DOM_OPEN (s.obBytes K.DIC_DOM_OPEN) (key / 256 * 2 ^ 32 + key % 256 * 2 ^ 24 + 2 * 2 ^ 16) =
    (stOK, rNONE)
  allowed : (s.domCheck n key true).1 = stOK
  closes : (s.filled n key data).writeCheck n K.DIC_DOM_CLOSE ((s.filled n key data).obBytes K.DIC_DOM_CLOSE) 1 = (stOK, rNONE)
  taken : ∀ x, ((s.filled n key data).ses n).dom = some x → ((s.filled n key data).xferCommit n key x.wr).1 = stOK
  whole_ : ∀ x, ((s.filled n key data).ses n).dom = some x → whole x.wr = some data

/-! ### Instructions -/

/-- Core c issues instruction e, which has form f, in its running context g: no SERVICE, nothing is waited for, the open bracket
has room, the bytes at PC are those of e and are fetched, no answer of R57 that it has waited for is
held, and none of the cases of R80 or R72 holds. s1 is the state after the loads of the context that
could return have returned and the bytes are fetched; x is the context then. -/
structure Issues (s : State) (c : Nat) (e : Enc) (f : Form) (g : Nat) (s1 : State) (x : Ctx) : Prop where
  running : s.issuer c = some g
  waits : (s.ctx g).wait = .none
  answered : s.flightHolds g e = false
  room : (s.ctx g).npOpen = false ∨ (s.ctx g).npcnt < 64
  regs : x = (s.landCtx g).ctx g
  fetched : ∃ b, (s.landCtx g).fetchBytes c x.pc.toNat (f.length e) = (s1, .ok b)
  coded : parse ((s.landCtx g).codeBytes c x.pc.toNat) = (f, e)
  settled : ∀ a ∈ (s1.core c).flight, a.heldFor g = false
  legal : f.legal e = true
  bracket : x.bracketBad e = false

/-- The address after an instruction. -/
def Ctx.nextPc (x : Ctx) (f : Form) (e : Enc) : Word := x.pc + BitVec.ofNat 32 (f.length e)

/-- General register r after the result v is written to register n, a pair under WIDE: g0 reads as 0 and takes no write (R65). -/
def Ctx.grAfter (x : Ctx) (wide : Bool) (n v r : Nat) : Word :=
  if r = 0 then 0
  else if r = n then BitVec.ofNat 32 v
  else if wide = true ∧ r = n + 1 then BitVec.ofNat 32 (v / 2 ^ 32)
  else x.gr r

/-- What an instruction that only writes general registers leaves: the registers of its context as given, the floating-point
registers and the special registers but STATUS as before, every other context's registers as before, every byte of memory and
every object but the count of corrected errors of the fetch as before. -/
structure RegsOnly (s : State) (c g : Nat) (x : Ctx) (gr : Nat → Word) (t : State) : Prop where
  general : ∀ r, (t.ctx g).gr r = gr r
  float : ∀ r, (t.ctx g).fr r = x.fr r
  special : ∀ r, r ≠ 1 → (t.ctx g).sreg r = x.sreg r
  others : ∀ h, h ≠ g → ∀ r, (t.ctx h).gr r = (s.ctx h).gr r ∧ (t.ctx h).fr r = (s.ctx h).fr r ∧ (t.ctx h).sreg r = (s.ctx h).sreg r
  memory : ∀ a, t.byte a = s.byte a
  objects : ∀ k, k ≠ K.CPU_ECC_CORR (c + 1) → t.ob k = s.ob k

/-- The same for an instruction that writes floating-point registers only. -/
structure FloatOnly (s : State) (c g : Nat) (x : Ctx) (fr : Nat → DWord) (t : State) : Prop where
  general : ∀ r, (t.ctx g).gr r = x.gr r
  float : ∀ r, (t.ctx g).fr r = fr r
  special : ∀ r, r ≠ 1 → (t.ctx g).sreg r = x.sreg r
  others : ∀ h, h ≠ g → ∀ r, (t.ctx h).gr r = (s.ctx h).gr r ∧ (t.ctx h).fr r = (s.ctx h).fr r ∧ (t.ctx h).sreg r = (s.ctx h).sreg r
  memory : ∀ a, t.byte a = s.byte a
  objects : ∀ k, k ≠ K.CPU_ECC_CORR (c + 1) → t.ob k = s.ob k

end Sys2Proof.Machine
end

