-- ==== Sys2Proof/Certificates/Slice0/Obligations.lean ====
section
/-! DEFINITION. The statements about the model, each a proposition, with the tables they range over. -/

namespace Sys2Proof.Machine

/-! ### Tables of instructions -/

/-- An ALU instruction: its constructor, its opcode, and its result as a function of the width and the two operands. -/
abbrev AluRow := (Nat → Enc → Instr) × Nat × (Nat → Nat → Nat → Nat)

/-- Results of R108 and R110 to R113 that set no status bit. -/
def integerRows : List AluRow := [
  (.add, 0x60, fun w x y => ofS w ((x : Int) + y)),
  (.sub, 0xE000, fun w x y => ofS w ((x : Int) - y)),
  (.mul, 0xE040, fun w x y => ofS w ((x : Int) * y)),
  (.mulh, 0xE060, fun _ x y => ofS 32 (toS 32 x * toS 32 y / 2 ^ 32)),
  (.and, 0xE100, fun w x y => (BitVec.ofNat w x &&& BitVec.ofNat w y).toNat),
  (.or, 0xE120, fun w x y => (BitVec.ofNat w x ||| BitVec.ofNat w y).toNat),
  (.xor, 0xE140, fun w x y => (BitVec.ofNat w x ^^^ BitVec.ofNat w y).toNat),
  (.andn, 0xE160, fun w x y => (BitVec.ofNat w x &&& ~~~ BitVec.ofNat w y).toNat),
  (.shl, 0xE1A0, fun w x y => (BitVec.ofNat w x <<< y).toNat),
  (.shr, 0xE1C0, fun w x y => (BitVec.ofNat w x >>> y).toNat),
  (.sar, 0xE1E0, fun w x y => ((BitVec.ofNat w x).sshiftRight y).toNat),
  (.adds, 0xE200, fun w x y => ofS w (max (minS w) (min (maxS w) (toS w x + toS w y)))),
  (.subs, 0xE220, fun w x y => ofS w (max (minS w) (min (maxS w) (toS w x - toS w y)))),
  (.min, 0xE280, fun w x y => ofS w (min (toS w x) (toS w y))),
  (.max, 0xE2A0, fun w x y => ofS w (max (toS w x) (toS w y))),
  (.rol, 0xE2C0, fun w x y => ((BitVec.ofNat w x).rotateLeft y).toNat),
  (.ror, 0xE2E0, fun w x y => ((BitVec.ofNat w x).rotateRight y).toNat)]

/-- Compares of R114: the result is 1 where the condition holds and 0 where it does not. -/
def compareRows : List ((Nat → Enc → Instr) × Nat × (Nat → Nat → Nat → Bool)) := [
  (.ceq, 0xE300, fun _ x y => decide (x = y)),
  (.clt, 0xE320, fun w x y => decide (toS w x < toS w y)),
  (.cle, 0xE340, fun w x y => decide (toS w x ≤ toS w y)),
  (.cltu, 0xE360, fun _ x y => decide (x < y)),
  (.cleu, 0xE380, fun _ x y => decide (x ≤ y)),
  (.tst, 0xE3A0, fun w x y => decide (BitVec.ofNat w x &&& BitVec.ofNat w y ≠ 0)),
  (.cova, 0xE3C0, fun w x y => decide (toS w (ofS w (toS w x + toS w y)) ≠ toS w x + toS w y)),
  (.covs, 0xE3E0, fun w x y => decide (toS w (ofS w (toS w x - toS w y)) ≠ toS w x - toS w y))]

/-- Unary results of R110, R112 and R113, from rb. -/
def unaryRows : List ((Nat → Enc → Instr) × Nat × (Nat → Nat → Nat)) := [
  (.neg, 0xE020, fun w y => ofS w (-(y : Int))),
  (.not, 0xE180, fun w y => (~~~ BitVec.ofNat w y).toNat),
  (.abs, 0xE240, fun w y => ofS w |toS w y|),
  (.abss, 0xE260, fun w y => ofS w (min (maxS w) |toS w y|))]

/-- Divisions of R111: opcode, whether the quotient is wanted, and whether they are signed. -/
def divisionRows : List ((Nat → Enc → Instr) × Nat × Bool × Bool) :=
  [(.div, 0xE080, true, true), (.divu, 0xE0A0, true, false), (.rem, 0xE0C0, false, true), (.remu, 0xE0E0, false, false)]

/-- Result of a division by a divisor that is not 0: truncation toward zero, the remainder with the dividend's sign, and the
one quotient that does not fit wraps. -/
def quotient (quot signed : Bool) (w x y : Nat) : Nat :=
  match signed, quot with
  | true, true => ofS w ((toS w x).tdiv (toS w y))
  | true, false => ofS w ((toS w x).tmod (toS w y))
  | false, true => x / y
  | false, false => x % y

/-- Result of a division by 0 (R111). -/
def quotientZero (quot signed : Bool) (w x : Nat) : Nat :=
  if quot = false then x
  else if x = 0 then 0
  else if signed = false then 2 ^ w - 1
  else if toS w x < 0 then ofS w (minS w) else ofS w (maxS w)

/-- Loads from EA (R108, R115): opcode, bytes, and the register value that the bytes' number gives. -/
def loadRows : List ((Nat → Enc → Instr) × Nat × (Enc → Nat) × (Nat → Nat)) := [
  (.ld, 0x00, wideBytes, id),
  (.ldb, 0xE400, fun _ => 1, fun v => ofS 32 (toS 8 v)),
  (.ldbu, 0xE420, fun _ => 1, id),
  (.ldh, 0xE440, fun _ => 2, fun v => ofS 32 (toS 16 v)),
  (.ldhu, 0xE460, fun _ => 2, id)]

/-- Stores to EA (R108, R115, R119): opcode, bytes and the register's value. -/
def storeRows : List ((Nat → Enc → Instr) × Nat × (Enc → Nat) × (Enc → Ctx → Nat)) := [
  (.st, 0x20, wideBytes, fun e x => x.rdG e.wide e.ra),
  (.stb, 0xE480, fun _ => 1, fun e x => (x.gr e.ra).toNat),
  (.sth, 0xE4A0, fun _ => 2, fun e x => (x.gr e.ra).toNat),
  (.fst, 0xE7E0, wideBytes, fun e x => (x.fr e.ra).toNat)]

/-- Bits combined with ra ≠ 0 (R125). -/
def bitRows : List ((Nat → Enc → Instr) × Nat × (Bool → Bool → Bool)) := [
  (.bld, 0xE900, fun _ b => b), (.band, 0xE980, fun a b => a && b), (.bor, 0xE9A0, fun a b => a || b), (.bandn, 0xE9C0, fun a b => a && !b),
  (.born, 0xE9E0, fun a b => a || !b)]

/-- Moves of R122 from BSRC to BDST: opcode and bytes. -/
def moveRows : List ((Nat → Enc → Instr) × Nat × (Enc → Nat)) :=
  [(.movb, 0xE800, fun _ => 1), (.movh, 0xE820, fun _ => 2), (.movw, 0xE840, wideBytes)]

/-- Binary floating-point operations of R118. -/
def floatRows : List ((Nat → Enc → Instr) × Nat × (Fmt → Nat → FVal → FVal → Nat × Nat)) :=
  [(.fadd, 0xE600, Fmt.add), (.fsub, 0xE620, fun m rm a b => m.add rm a b.neg), (.fmul, 0xE640, Fmt.mul), (.fdiv, 0xE660, Fmt.div)]

/-- Compares of R119: whether only a signalling NaN is invalid, and the condition. -/
def fcompareRows : List ((Nat → Enc → Instr) × Nat × Bool × (FVal → FVal → Bool)) :=
  [(.fceq, 0xE700, true, FVal.eq), (.fclt, 0xE720, false, FVal.lt), (.fcle, 0xE740, false, fun a b => a.lt b || a.eq b)]

/-- Every instruction of a core with its opcode: O1 with rb 0, or O1 × 256 + O2 with rb 0 (R78). -/
def coreRows : List ((Nat → Enc → Instr) × Nat) := [
  (.ld, 0x00), (.st, 0x20), (.mov, 0x40), (.add, 0x60), (.ldx, 0x80), (.stx, 0xA0), (.bnz, 0xC0), (.sub, 0xE000),
  (.neg, 0xE020), (.mul, 0xE040), (.mulh, 0xE060), (.div, 0xE080), (.divu, 0xE0A0), (.rem, 0xE0C0), (.remu, 0xE0E0),
  (.and, 0xE100), (.or, 0xE120), (.xor, 0xE140), (.andn, 0xE160), (.not, 0xE180), (.shl, 0xE1A0), (.shr, 0xE1C0),
  (.sar, 0xE1E0), (.adds, 0xE200), (.subs, 0xE220), (.abs, 0xE240), (.abss, 0xE260), (.min, 0xE280), (.max, 0xE2A0),
  (.rol, 0xE2C0), (.ror, 0xE2E0), (.ceq, 0xE300), (.clt, 0xE320), (.cle, 0xE340), (.cltu, 0xE360), (.cleu, 0xE380),
  (.tst, 0xE3A0), (.cova, 0xE3C0), (.covs, 0xE3E0), (.ldb, 0xE400), (.ldbu, 0xE420), (.ldh, 0xE440), (.ldhu, 0xE460),
  (.stb, 0xE480), (.sth, 0xE4A0), (.lea, 0xE4C0), (.xchg, 0xE4E0), (.bz, 0xE500), (.br, 0xE520), (.call, 0xE540),
  (.ret, 0xE560), (.dbnz, 0xE580), (.swtrap, 0xE5A0), (.fadd, 0xE600), (.fsub, 0xE620), (.fmul, 0xE640), (.fdiv, 0xE660),
  (.fsqrt, 0xE680), (.fmov, 0xE6A0), (.fneg, 0xE6C0), (.fabs, 0xE6E0), (.fceq, 0xE700), (.fclt, 0xE720), (.fcle, 0xE740),
  (.ftoi, 0xE760), (.itof, 0xE780), (.fcvt, 0xE7A0), (.fld, 0xE7C0), (.fst, 0xE7E0), (.movb, 0xE800), (.movh, 0xE820),
  (.movw, 0xE840), (.fillw, 0xE860), (.scanw, 0xE880), (.cmpw, 0xE8A0), (.bld, 0xE900), (.bst, 0xE920), (.bset, 0xE940),
  (.brst, 0xE960), (.band, 0xE980), (.bor, 0xE9A0), (.bandn, 0xE9C0), (.born, 0xE9E0), (.gatb, 0xEA00), (.rung, 0xEA20),
  (.edgr, 0xEA40), (.edgf, 0xEA60), (.ton, 0xEB00), (.tof, 0xEB20), (.tp, 0xEB40), (.trst, 0xEB60), (.trd, 0xEB80),
  (.cnt64, 0xEBA0), (.syncW, 0xEC00), (.fence, 0xEC20), (.mfs, 0xEC40), (.mts, 0xEC60), (.nop, 0xEC80),
  (.endSection, 0xECA0), (.chkin, 0xECC0), (.signal, 0xECE0)]

/-! ### Where an access lies -/

/-- n bytes from an address lie in the core's own data SRAM from offset off on, none of them is in the write buffer, and none
has a double-bit error. -/
structure OwnBytes (s : State) (c g a n off : Nat) : Prop where
  own : s.coreWhere c a (decide ((s.ctx g).task = 0)) = .own off
  room : off + n ≤ 0x400000
  drained : ∀ i < n, (s.core c).buffered (mData (strandOf c) + off + i) = none
  sound : s.eccOf (mData (strandOf c) + off) n < 2

/-- A store of n bytes at an address enters the write buffer without waiting: it raises no ALIGN, it does not go to the dictionary
or to a timer array, and two entries have room. -/
structure Buffers (s : State) (c g a n : Nat) : Prop where
  aligned : s.alignBad c a n = false
  place : ∀ w, s.coreWhere c a (decide ((s.ctx g).task = 0)) = w → (∀ i j k, w ≠ .dict i j k) ∧ (∀ k, w ≠ .timer k)
  room : (s.core c).wbuf.length ≤ 6

/-- The write buffer of a core holds n bytes of a value from an address on, least significant first. -/
def Buffered (t : State) (c a n v : Nat) : Prop :=
  ∀ i < n, (t.core c).buffered (t.busKey c ((a + i) % 2 ^ 32)) = some (BitVec.ofNat 8 (v / 256 ^ i))

/-- A timer instruction of this opcode issues, and its operand is the cell at key k of the core's own timer array, sound, with no
rebase of its Strand under way. -/
structure AtCell (s : State) (c : Nat) (e : Enc) (op g : Nat) (s1 : State) (x : Ctx) (k n : Nat) : Prop where
  issues : Issues s c e (formOf op) g s1 x
  aligned : x.ea e % n = 0
  cell : ∃ off, s1.coreWhere c (x.ea e) (decide (x.task = 0)) = .timer off ∧ k = mTimer (strandOf c) + off
  sound : s1.eccOf k n < 2
  rebased : ∀ r ∈ s.tds.rebase, r.strand ≠ strandOf c

/-- A bit instruction of this opcode issues, and its operand is bit e.imm of byte b in the core's own data SRAM, which a store may
enter the write buffer for. -/
structure AtBit (s : State) (c : Nat) (e : Enc) (op g : Nat) (s1 : State) (x : Ctx) (b : Byte) : Prop where
  issues : Issues s c e (formOf op) g s1 x
  own : ∃ off, OwnBytes s1 c g (x.ea e) 1 off ∧ b = s.byte (mData (strandOf c) + off)
  room : Buffers s1 c g (x.ea e) 1

/-- What an iteration of a block instruction leaves: BCNT, BSRC and BDST stepped, general registers as given, and every other
register, every other context's registers and every byte of memory as before (R86). -/
structure Stepped (s : State) (g : Nat) (x : Ctx) (gr : Nat → Word) (t : State) : Prop where
  general : ∀ r, (t.ctx g).gr r = gr r
  float : ∀ r, (t.ctx g).fr r = x.fr r
  count : (t.ctx g).sp 20 = x.sp 20 - 1
  src : (t.ctx g).sp 21 = (x.sp 21 + sext 16 32 (x.sp 23 % 2 ^ 16)) % 2 ^ 32
  dst : (t.ctx g).sp 22 = (x.sp 22 + sext 16 32 (x.sp 23 / 2 ^ 16)) % 2 ^ 32
  special : ∀ r, r ≠ 1 → r ≠ 20 → r ≠ 21 → r ≠ 22 → (t.ctx g).sreg r = x.sreg r
  others : ∀ h, h ≠ g → ∀ r, (t.ctx h).gr r = (s.ctx h).gr r ∧ (t.ctx h).fr r = (s.ctx h).fr r ∧ (t.ctx h).sreg r = (s.ctx h).sreg r
  memory : ∀ a, t.byte a = s.byte a

/-- PC after an iteration that steps: under RPT it stays at the instruction while BCNT is not 0 (R87). -/
def Ctx.pcStep (x : Ctx) (f : Form) (e : Enc) : Word := if e.rpt = true ∧ x.sp 20 ≠ 1 then x.pc else x.nextPc f e

/-- Byte b with bit n set to v. -/
def bitPut (b : Byte) (n : Nat) (v : Bool) : Nat :=
  if v then b.toNat ||| 2 ^ n else (b &&& ~~~ BitVec.ofNat 8 (2 ^ n)).toNat

end Sys2Proof.Machine

open Sys2Proof Sys2Proof.Machine

/-! ### Voxrax cores -/

/-- R108, R110, R112, R113: MOV and the integer instructions that set no status bit write their result to ra and
nothing else, and PC goes on. R114: each compare writes 1 or 0 to ra, under WIDE to the pair, and nothing else. -/
def Obligations.IntegerResults : Prop :=
  ((∀ r ∈ integerRows, ∀ s c e g s1 x, Issues s c e (formOf r.2.1) g s1 x →
     Completes (r.1 c e) s fun t =>
       RegsOnly s c g x (x.grAfter e.wide e.ra (r.2.2 e.w (x.opX e) (x.opY (formOf r.2.1) e))) t ∧
         (t.ctx g).sreg 1 = x.sreg 1 ∧ (t.ctx g).pc = x.nextPc (formOf r.2.1) e) ∧
   (∀ r ∈ unaryRows, ∀ s c e g s1 x, Issues s c e (formOf r.2.1) g s1 x →
     Completes (r.1 c e) s fun t =>
       RegsOnly s c g x (x.grAfter e.wide e.ra (r.2.2 e.w (x.rdG e.wide e.rb))) t ∧
         (t.ctx g).sreg 1 = x.sreg 1 ∧ (t.ctx g).pc = x.nextPc (formOf r.2.1) e) ∧
   (∀ s c e g s1 x, Issues s c e (formOf 0x40) g s1 x →
     Completes (.mov c e) s fun t =>
       RegsOnly s c g x (x.grAfter e.wide e.ra (if e.am = 0 then x.rdG e.wide e.rb else (formOf 0x40).immOf e)) t ∧
         (t.ctx g).sreg 1 = x.sreg 1 ∧ (t.ctx g).pc = x.nextPc (formOf 0x40) e)) ∧
  (∀ r ∈ compareRows, ∀ s c e g s1 x, Issues s c e (formOf r.2.1) g s1 x →
     Completes (r.1 c e) s fun t =>
       RegsOnly s c g x (x.grAfter e.wide e.ra (if r.2.2 e.w (x.opX e) (x.opY (formOf r.2.1) e) then 1 else 0)) t ∧
         (t.ctx g).sreg 1 = x.sreg 1 ∧ (t.ctx g).pc = x.nextPc (formOf r.2.1) e)

/-- R111: division truncates toward zero, its remainder has the dividend's sign, the one quotient that does not fit
wraps; a division by 0 gives the results named and sets STATUS.DZ, and where TRAPMASK.DZ is 0 the context goes on.
R96, R97, R99: where TRAPMASK.DZ is 1 a division by 0 takes the trap after its result: FINFO names DZ, FPC holds the
instruction's address; for a task other than 0, PC holds the next one's and the context is HALTED, and task 0 goes on
at KFV where KFV is not 0 and FINFO was clear. No transaction waits for the tide to stop. R111: NEG of the most
negative value and MUL of it by −1 give it back, and MULH of it with itself gives 0x4000_0000. -/
def Obligations.DivisionResults : Prop :=
  (∀ r ∈ divisionRows, ∀ s c e g s1 x, Issues s c e (formOf r.2.1) g s1 x →
     (x.opY (formOf r.2.1) e ≠ 0 →
       Completes (r.1 c e) s fun t =>
         RegsOnly s c g x (x.grAfter e.wide e.ra (quotient r.2.2.1 r.2.2.2 e.w (x.opX e) (x.opY (formOf r.2.1) e))) t ∧
           (t.ctx g).sreg 1 = x.sreg 1 ∧ (t.ctx g).pc = x.nextPc (formOf r.2.1) e) ∧
     (x.opY (formOf r.2.1) e = 0 → (x.sp 2).testBit 0 = false →
       Completes (r.1 c e) s fun t =>
         RegsOnly s c g x (x.grAfter e.wide e.ra (quotientZero r.2.2.1 r.2.2.2 e.w (x.opX e))) t ∧
           (t.ctx g).sreg 1 = x.sreg 1 ||| 1 ∧ (t.ctx g).pc = x.nextPc (formOf r.2.1) e)) ∧
  (∀ r ∈ divisionRows, ∀ s c e g s1 x, Issues s c e (formOf r.2.1) g s1 x → s.txnWaiting = [] →
     x.opY (formOf r.2.1) e = 0 → (x.sp 2).testBit 0 = true →
     Completes (r.1 c e) s fun t =>
       (∀ n, (t.ctx g).gr n = x.grAfter e.wide e.ra (quotientZero r.2.2.1 r.2.2.2 e.w (x.opX e)) n) ∧
         ((t.ctx g).sreg 1).getLsbD 0 = true ∧ (x.npcnt < 63 → (t.ctx g).sreg 1 = x.sreg 1 ||| 1) ∧
         (t.ctx g).finfo = BitVec.ofNat 32 (8 * 2 ^ 24) ∧ (t.ctx g).fpc = x.pc ∧
         (x.task ≠ 0 → (t.ctx g).pc = x.nextPc (formOf r.2.1) e ∧ (t.ctx g).cs = .halted) ∧
         (x.task = 0 → x.sreg 9 ≠ 0 → x.finfo = 0 → (t.ctx g).pc = x.sreg 9)) ∧
  (∀ s c e g s1 x,
     (Issues s c e (formOf 0xE020) g s1 x → x.rdG e.wide e.rb = ofS e.w (minS e.w) → Completes (.neg c e) s fun t =>
       ∀ n, (t.ctx g).gr n = x.grAfter e.wide e.ra (ofS e.w (minS e.w)) n) ∧
     (Issues s c e (formOf 0xE040) g s1 x → x.opX e = ofS e.w (minS e.w) → x.opY (formOf 0xE040) e = 2 ^ e.w - 1 →
       Completes (.mul c e) s fun t => ∀ n, (t.ctx g).gr n = x.grAfter e.wide e.ra (ofS e.w (minS e.w)) n) ∧
     (Issues s c e (formOf 0xE060) g s1 x → x.opX e = 0x80000000 → x.opY (formOf 0xE060) e = 0x80000000 →
       Completes (.mulh c e) s fun t => ∀ n, (t.ctx g).gr n = x.grAfter e.wide e.ra 0x40000000 n))

/-- R80, R97: bytes at PC that R80 names take the ILLEGAL fault with no effect, whichever instruction the core was
told to run: FINFO names ILLEGAL, PC and FPC stay at the instruction, and a task other than 0 is HALTED. No
transaction waits for the tide to stop. -/
def Obligations.IllegalEncodingFaults : Prop :=
  ∀ r ∈ coreRows, ∀ s c e g s1 x f d b, s.issuer c = some g → (s.ctx g).wait = .none → s.flightHolds g e = false →
    ((s.ctx g).npOpen = false ∨ (s.ctx g).npcnt < 64) → x = (s.landCtx g).ctx g →
    parse ((s.landCtx g).codeBytes c x.pc.toNat) = (f, d) → f.legal d = false →
    (s.landCtx g).fetchBytes c x.pc.toNat (Nat.min 15 (f.length d)) = (s1, .ok b) → x.task ≠ 0 → s.txnWaiting = [] →
    Completes (r.1 c e) s fun t => (∀ n, (t.ctx g).gr n = x.gr n) ∧ (∀ a, t.byte a = s.byte a) ∧
      (t.ctx g).finfo = BitVec.ofNat 32 (1 * 2 ^ 24) ∧ (t.ctx g).fpc = x.pc ∧ (t.ctx g).pc = x.pc ∧ (t.ctx g).cs = .halted

/-- R75, R78, R79: the bytes of every legal encoding of every opcode are read back as that opcode with the same
prefixes and fields, and there are as many of them as its length says. -/
def Obligations.EncodingsReadBack : Prop :=
  ∀ r ∈ coreRows, ∀ e l, (formOf r.2).legal e = true → e.disp < 256 ^ dispLen e.am →
    e.imm < 256 ^ (formOf r.2).immLen e.am →
    parse ((formOf r.2).bytes e ++ l) = (formOf r.2, e) ∧ ((formOf r.2).bytes e).length = (formOf r.2).length e

/-- R108, R109, R115, R119: a load from the core's own data SRAM writes the bytes it read, as a little-endian number
extended as its row says, and nothing else; LDX also steps rb, the loaded value written last. FLD of an immediate
takes it as binary32. -/
def Obligations.LoadResults : Prop :=
  (∀ r ∈ loadRows, ∀ s c e g s1 x a off, Issues s c e (formOf r.2.1) g s1 x →
    x.locate e (x.ea e) (r.2.2.1 e) = some a → OwnBytes s1 c g a (r.2.2.1 e) off →
    Completes (r.1 c e) s fun t =>
      RegsOnly s c g x (x.grAfter e.wide e.ra (r.2.2.2 (leNat (s.bytesAt (mData (strandOf c) + off) (r.2.2.1 e))))) t ∧
        (t.ctx g).pc = x.nextPc (formOf r.2.1) e) ∧
  (∀ s c e g s1 x a off, Issues s c e (formOf 0x80) g s1 x →
    x.locate e (x.gr e.rb).toNat (wideBytes e) = some a → OwnBytes s1 c g a (wideBytes e) off →
    Completes (.ldx c e) s fun t =>
      RegsOnly s c g x ((x.setG e.rb (BitVec.ofNat 32 (x.postRb e))).grAfter e.wide e.ra
        (leNat (s.bytesAt (mData (strandOf c) + off) (wideBytes e)))) t ∧ (t.ctx g).pc = x.nextPc (formOf 0x80) e) ∧
  (∀ s c e g s1 x a off, Issues s c e (formOf 0xE7C0) g s1 x → e.am ≠ 3 →
    x.locate e (x.ea e) (wideBytes e) = some a → OwnBytes s1 c g a (wideBytes e) off →
    Completes (.fld c e) s fun t =>
      FloatOnly s c g x (fun n => if n = e.ra then
        BitVec.ofNat 64 (leNat (s.bytesAt (mData (strandOf c) + off) (wideBytes e))) else x.fr n) t ∧
        (t.ctx g).pc = x.nextPc (formOf 0xE7C0) e) ∧
  (∀ s c e g s1 x, Issues s c e (formOf 0xE7C0) g s1 x → e.am = 3 → e.wide = false →
    Completes (.fld c e) s fun t =>
      FloatOnly s c g x (fun n => if n = e.ra then BitVec.ofNat 64 (e.imm % 2 ^ 32) else x.fr n) t ∧
        (t.ctx g).pc = x.nextPc (formOf 0xE7C0) e)

/-- R91, R94, R108, R109, R115: a store puts the low bytes of its register, least significant first, into the core's
write buffer; registers stay but for STX's rb, and no byte of memory changes yet. -/
def Obligations.StoresEnterBuffer : Prop :=
  (∀ r ∈ storeRows, ∀ s c e g s1 x a, Issues s c e (formOf r.2.1) g s1 x →
    x.locate e (x.ea e) (r.2.2.1 e) = some a → Buffers s1 c g a (r.2.2.1 e) →
    Completes (r.1 c e) s fun t =>
      RegsOnly s c g x x.gr t ∧ Buffered t c a (r.2.2.1 e) (r.2.2.2 e x) ∧ (t.ctx g).pc = x.nextPc (formOf r.2.1) e) ∧
  (∀ s c e g s1 x a, Issues s c e (formOf 0xA0) g s1 x →
    x.locate e (x.gr e.rb).toNat (wideBytes e) = some a → Buffers s1 c g a (wideBytes e) →
    Completes (.stx c e) s fun t =>
      RegsOnly s c g x (x.setG e.rb (BitVec.ofNat 32 (x.postRb e))).gr t ∧
        Buffered t c a (wideBytes e) (x.rdG e.wide e.ra) ∧ (t.ctx g).pc = x.nextPc (formOf 0xA0) e)

/-- R115, R116: LEA writes the address it forms and makes no access; XCHG, with nothing in the write buffer, puts the
word of the core's own data SRAM into ra and what ra held into the word, and changes no other byte. -/
def Obligations.AddressAndExchange : Prop :=
  (∀ s c e g s1 x a, Issues s c e (formOf 0xE4C0) g s1 x → x.locate e (x.ea e) 4 = some a →
    Completes (.lea c e) s fun t =>
      RegsOnly s c g x (x.grAfter e.wide e.ra a) t ∧ (t.ctx g).pc = x.nextPc (formOf 0xE4C0) e) ∧
  (∀ s c e g s1 x a off, Issues s c e (formOf 0xE4E0) g s1 x → x.locate e (x.ea e) 4 = some a → a % 4 = 0 →
    OwnBytes s1 c g a 4 off → (s1.core c).wbuf = [] →
    Completes (.xchg c e) s fun t =>
      (∀ n, (t.ctx g).gr n = x.grAfter false e.ra (leNat (s.bytesAt (mData (strandOf c) + off) 4)) n) ∧
        (∀ k, t.byte k = if mData (strandOf c) + off ≤ k ∧ k < mData (strandOf c) + off + 4 then
            BitVec.ofNat 8 ((x.gr e.ra).toNat / 256 ^ (k - (mData (strandOf c) + off))) else s.byte k) ∧
        (t.ctx g).pc = x.nextPc (formOf 0xE4E0) e)

/-- R81, R108, R117: BNZ, BZ, BR and DBNZ go on at the target where their condition holds and at the next instruction
where it does not; DBNZ writes ra − 1, and its target is formed from rb as read at issue. R85, R96, R117: CALL pushes
the return address at g31 − 4 and goes on at its target, RET loads PC from the word at g31 and adds 4 to g31, each
where the word lies between STKLO and STKHI; SWTRAP of a task other than 0 takes the trap with its immediate as
DETAIL, where no transaction waits for the tide to stop. -/
def Obligations.BranchesAndCalls : Prop :=
  ((∀ s c e g s1 x, Issues s c e (formOf 0xC0) g s1 x → Completes (.bnz c e) s fun t => RegsOnly s c g x x.gr t ∧
     (t.ctx g).pc = if x.gr e.ra ≠ 0 then x.target e (x.nextPc (formOf 0xC0) e) else x.nextPc (formOf 0xC0) e) ∧
   (∀ s c e g s1 x, Issues s c e (formOf 0xE500) g s1 x → Completes (.bz c e) s fun t => RegsOnly s c g x x.gr t ∧
     (t.ctx g).pc = if x.gr e.ra = 0 then x.target e (x.nextPc (formOf 0xE500) e) else x.nextPc (formOf 0xE500) e) ∧
   (∀ s c e g s1 x, Issues s c e (formOf 0xE520) g s1 x → Completes (.br c e) s fun t => RegsOnly s c g x x.gr t ∧
     (t.ctx g).pc = x.target e (x.nextPc (formOf 0xE520) e)) ∧
   (∀ s c e g s1 x, Issues s c e (formOf 0xE580) g s1 x → Completes (.dbnz c e) s fun t =>
     RegsOnly s c g x (x.grAfter false e.ra ((x.gr e.ra).toNat + (2 ^ 32 - 1))) t ∧
     (t.ctx g).pc = if x.gr e.ra ≠ 1 then x.target e (x.nextPc (formOf 0xE580) e) else x.nextPc (formOf 0xE580) e)) ∧
  ((∀ s c e g s1 x a, Issues s c e (formOf 0xE540) g s1 x → a = ((x.gr 31).toNat + 2 ^ 32 - 4) % 2 ^ 32 →
     x.sp 7 ≤ a → a + 4 ≤ x.sp 8 → (x.gr 31).toNat % 4 = 0 → Buffers s1 c g a 4 →
     Completes (.call c e) s fun t =>
       RegsOnly s c g x (x.grAfter false 31 a) t ∧ Buffered t c a 4 (x.nextPc (formOf 0xE540) e).toNat ∧
         (t.ctx g).pc = x.target e (x.nextPc (formOf 0xE540) e)) ∧
   (∀ s c e g s1 x off, Issues s c e (formOf 0xE560) g s1 x → x.sp 7 ≤ (x.gr 31).toNat → (x.gr 31).toNat + 4 ≤ x.sp 8 →
     (x.gr 31).toNat % 4 = 0 → OwnBytes s1 c g (x.gr 31).toNat 4 off →
     Completes (.ret c e) s fun t =>
       RegsOnly s c g x (x.grAfter false 31 ((x.gr 31).toNat + 4)) t ∧
         (t.ctx g).pc = BitVec.ofNat 32 (leNat (s.bytesAt (mData (strandOf c) + off) 4))) ∧
   (∀ s c e g s1 x, Issues s c e (formOf 0xE5A0) g s1 x → x.task ≠ 0 → s.txnWaiting = [] →
     Completes (.swtrap c e) s fun t =>
       (∀ n, (t.ctx g).gr n = x.gr n) ∧ (t.ctx g).finfo = BitVec.ofNat 32 (11 * 2 ^ 24 + e.imm % 256 * 2 ^ 16) ∧
         (t.ctx g).fpc = x.pc ∧ (t.ctx g).pc = x.nextPc (formOf 0xE5A0) e ∧ (t.ctx g).cs = .halted))

/-- R118, R119, R120, R121: floating-point instructions that raise no trap write the value of their operation to fa
and its flags to STATUS; a binary32 result clears bits 63:32, and FMOV, FNEG and FABS raise no flag. -/
def Obligations.FloatResults : Prop :=
  (∀ r ∈ floatRows, ∀ s c e g s1 x v, Issues s c e (formOf r.2.1) g s1 x →
    v = r.2.2 (fmtOf e) x.rm (x.rdF (fmtOf e) (if e.am = 0 then e.ra else e.rb))
      (x.rdF (fmtOf e) (if e.am = 0 then e.rb else e.rc)) → x.trapOf v.2 = none →
    Completes (r.1 c e) s fun t =>
      FloatOnly s c g x (fun n => if n = e.ra then BitVec.ofNat 64 v.1 else x.fr n) t ∧
        (t.ctx g).sreg 1 = x.sreg 1 ||| BitVec.ofNat 32 v.2 ∧ (t.ctx g).pc = x.nextPc (formOf r.2.1) e) ∧
  (∀ s c e g s1 x v, Issues s c e (formOf 0xE680) g s1 x → v = (fmtOf e).sqrt x.rm (x.rdF (fmtOf e) e.rb) → x.trapOf v.2 = none →
    Completes (.fsqrt c e) s fun t =>
      FloatOnly s c g x (fun n => if n = e.ra then BitVec.ofNat 64 v.1 else x.fr n) t ∧
        (t.ctx g).sreg 1 = x.sreg 1 ||| BitVec.ofNat 32 v.2 ∧ (t.ctx g).pc = x.nextPc (formOf 0xE680) e) ∧
  (∀ s c e g s1 x v, Issues s c e (formOf 0xE780) g s1 x → v = (fmtOf e).ofInt x.rm (toS 32 (x.gr e.rb).toNat) →
    x.trapOf v.2 = none →
    Completes (.itof c e) s fun t =>
      FloatOnly s c g x (fun n => if n = e.ra then BitVec.ofNat 64 v.1 else x.fr n) t ∧
        (t.ctx g).sreg 1 = x.sreg 1 ||| BitVec.ofNat 32 v.2 ∧ (t.ctx g).pc = x.nextPc (formOf 0xE780) e) ∧
  (∀ s c e g s1 x v, Issues s c e (formOf 0xE7A0) g s1 x →
    v = (if e.wide then f64.convert x.rm (x.rdF f32 e.rb) else f32.convert x.rm (x.rdF f64 e.rb)) → x.trapOf v.2 = none →
    Completes (.fcvt c e) s fun t =>
      FloatOnly s c g x (fun n => if n = e.ra then BitVec.ofNat 64 v.1 else x.fr n) t ∧
        (t.ctx g).sreg 1 = x.sreg 1 ||| BitVec.ofNat 32 v.2 ∧ (t.ctx g).pc = x.nextPc (formOf 0xE7A0) e) ∧
  (∀ s c e g s1 x, Issues s c e (formOf 0xE6A0) g s1 x → Completes (.fmov c e) s fun t =>
    FloatOnly s c g x (fun n => if n = e.ra then x.fr e.rb else x.fr n) t ∧ (t.ctx g).sreg 1 = x.sreg 1 ∧
      (t.ctx g).pc = x.nextPc (formOf 0xE6A0) e) ∧
  (∀ s c e g s1 x, Issues s c e (formOf 0xE6C0) g s1 x → Completes (.fneg c e) s fun t =>
    FloatOnly s c g x (fun n => if n = e.ra then
      (if e.wide then x.fr e.rb ^^^ (1 <<< 63) else ((x.fr e.rb).setWidth 32 ^^^ (1 <<< 31)).setWidth 64) else x.fr n) t ∧
      (t.ctx g).sreg 1 = x.sreg 1 ∧ (t.ctx g).pc = x.nextPc (formOf 0xE6C0) e) ∧
  (∀ s c e g s1 x, Issues s c e (formOf 0xE6E0) g s1 x → Completes (.fabs c e) s fun t =>
    FloatOnly s c g x (fun n => if n = e.ra then
      (if e.wide then ((x.fr e.rb).setWidth 63).setWidth 64 else ((x.fr e.rb).setWidth 31).setWidth 64) else x.fr n) t ∧
      (t.ctx g).sreg 1 = x.sreg 1 ∧ (t.ctx g).pc = x.nextPc (formOf 0xE6E0) e)

/-- R119, R120, R121: FCEQ, FCLT and FCLE write 1 or 0 to ra, NV raised for a NaN (for FCEQ a signalling one); FTOI
writes the integer that its rounding gives. -/
def Obligations.FloatToInteger : Prop :=
  (∀ r ∈ fcompareRows, ∀ s c e g s1 x nv, Issues s c e (formOf r.2.1) g s1 x →
    nv = (if r.2.2.1 then decide (x.rdF (fmtOf e) e.rb = .nan true) || decide (x.rdF (fmtOf e) e.rc = .nan true)
      else (x.rdF (fmtOf e) e.rb).isNan || (x.rdF (fmtOf e) e.rc).isNan) →
    x.trapOf (if nv then flNV else 0) = none →
    Completes (r.1 c e) s fun t =>
      RegsOnly s c g x (x.grAfter false e.ra (if r.2.2.2 (x.rdF (fmtOf e) e.rb) (x.rdF (fmtOf e) e.rc) then 1 else 0)) t ∧
        (t.ctx g).sreg 1 = x.sreg 1 ||| BitVec.ofNat 32 (if nv then flNV else 0) ∧ (t.ctx g).pc = x.nextPc (formOf r.2.1) e) ∧
  (∀ s c e g s1 x v, Issues s c e (formOf 0xE760) g s1 x → v = (x.rdF (fmtOf e) e.rb).toInt x.rm → x.trapOf v.2 = none →
    Completes (.ftoi c e) s fun t =>
      RegsOnly s c g x (x.grAfter false e.ra v.1) t ∧
        (t.ctx g).sreg 1 = x.sreg 1 ||| BitVec.ofNat 32 v.2 ∧ (t.ctx g).pc = x.nextPc (formOf 0xE760) e)

/-- R86, R87, R122, R123: one iteration of a block instruction, with RPT or without, where BCNT is not 0, steps BSRC,
BDST and BCNT; MOVB, MOVH and MOVW put the bytes of BSRC, FILLW those of ra, into the write buffer at BDST; SCANW and
CMPW that stop write 1 to ra and step nothing, and the last iteration of one that never stops writes 0. R87, R122,
R123: a block instruction that finds BCNT 0 only goes on, and SCANW and CMPW write 0 to ra. -/
def Obligations.BlockInstructions : Prop :=
  ((∀ r ∈ moveRows, ∀ s c e g s1 x d off, Issues s c e (formOf r.2.1) g s1 x → x.sp 20 ≠ 0 →
     x.locate e (x.sp 22) (r.2.2 e) = some d → OwnBytes s1 c g (x.sp 21) (r.2.2 e) off → Buffers s1 c g d (r.2.2 e) →
     Completes (r.1 c e) s fun t => Stepped s g x x.gr t ∧ (t.ctx g).pc = x.pcStep (formOf r.2.1) e ∧
       Buffered t c d (r.2.2 e) (leNat (s.bytesAt (mData (strandOf c) + off) (r.2.2 e)))) ∧
   (∀ s c e g s1 x d, Issues s c e (formOf 0xE860) g s1 x → x.sp 20 ≠ 0 →
     x.locate e (x.sp 22) (wideBytes e) = some d → Buffers s1 c g d (wideBytes e) →
     Completes (.fillw c e) s fun t => Stepped s g x x.gr t ∧ (t.ctx g).pc = x.pcStep (formOf 0xE860) e ∧
       Buffered t c d (wideBytes e) (x.rdG e.wide e.ra)) ∧
   (∀ s c e g s1 x a off, Issues s c e (formOf 0xE880) g s1 x → x.sp 20 ≠ 0 →
     x.locate e (x.sp 21) 4 = some a → OwnBytes s1 c g a 4 off →
     Completes (.scanw c e) s fun t =>
       if leNat (s.bytesAt (mData (strandOf c) + off) 4) = (x.gr e.rb).toNat then
         RegsOnly s c g x (x.grAfter false e.ra 1) t ∧ (t.ctx g).pc = x.nextPc (formOf 0xE880) e
       else Stepped s g x (if e.rpt = true ∧ x.sp 20 ≠ 1 then x.gr else x.grAfter false e.ra 0) t ∧
         (t.ctx g).pc = x.pcStep (formOf 0xE880) e) ∧
   (∀ s c e g s1 x d off off', Issues s c e (formOf 0xE8A0) g s1 x → x.sp 20 ≠ 0 →
     x.locate e (x.sp 22) 4 = some d → OwnBytes s1 c g (x.sp 21) 4 off → OwnBytes s1 c g d 4 off' →
     Completes (.cmpw c e) s fun t =>
       if s.bytesAt (mData (strandOf c) + off) 4 ≠ s.bytesAt (mData (strandOf c) + off') 4 then
         RegsOnly s c g x (x.grAfter false e.ra 1) t ∧ (t.ctx g).pc = x.nextPc (formOf 0xE8A0) e
       else Stepped s g x (if e.rpt = true ∧ x.sp 20 ≠ 1 then x.gr else x.grAfter false e.ra 0) t ∧
         (t.ctx g).pc = x.pcStep (formOf 0xE8A0) e)) ∧
  ((∀ r ∈ moveRows, ∀ s c e g s1 x, Issues s c e (formOf r.2.1) g s1 x → x.sp 20 = 0 →
     Completes (r.1 c e) s fun t => RegsOnly s c g x x.gr t ∧ (t.ctx g).pc = x.nextPc (formOf r.2.1) e) ∧
   (∀ s c e g s1 x, Issues s c e (formOf 0xE860) g s1 x → x.sp 20 = 0 →
     Completes (.fillw c e) s fun t => RegsOnly s c g x x.gr t ∧ (t.ctx g).pc = x.nextPc (formOf 0xE860) e) ∧
   (∀ s c e g s1 x, Issues s c e (formOf 0xE880) g s1 x → x.sp 20 = 0 →
     Completes (.scanw c e) s fun t =>
       RegsOnly s c g x (x.grAfter false e.ra 0) t ∧ (t.ctx g).pc = x.nextPc (formOf 0xE880) e) ∧
   (∀ s c e g s1 x, Issues s c e (formOf 0xE8A0) g s1 x → x.sp 20 = 0 →
     Completes (.cmpw c e) s fun t =>
       RegsOnly s c g x (x.grAfter false e.ra 0) t ∧ (t.ctx g).pc = x.nextPc (formOf 0xE8A0) e))

/-- R124, R125, R130: BLD, BAND, BOR, BANDN and BORN combine ra ≠ 0 with the bit into ra; BST writes ra ≠ 0 to the
bit, BSET and BRST write it only where ra ≠ 0; EDGR and EDGF write the edge to ra, and the new level to the instance
bit where it changes. -/
def Obligations.BitResults : Prop :=
  (∀ r ∈ bitRows, ∀ s c e g s1 x b, AtBit s c e r.2.1 g s1 x b → Completes (r.1 c e) s fun t =>
    RegsOnly s c g x (x.grAfter false e.ra (if r.2.2 (decide (x.gr e.ra ≠ 0)) (b.toNat.testBit e.imm) then 1 else 0)) t ∧
      (t.ctx g).pc = x.nextPc (formOf r.2.1) e) ∧
  (∀ s c e g s1 x b, AtBit s c e 0xE920 g s1 x b → Completes (.bst c e) s fun t =>
    RegsOnly s c g x x.gr t ∧ (t.ctx g).pc = x.nextPc (formOf 0xE920) e ∧
      Buffered t c (x.ea e) 1 (bitPut b e.imm (decide (x.gr e.ra ≠ 0)))) ∧
  (∀ s c e g s1 x b, AtBit s c e 0xE940 g s1 x b → Completes (.bset c e) s fun t =>
    RegsOnly s c g x x.gr t ∧ (t.ctx g).pc = x.nextPc (formOf 0xE940) e ∧
      if x.gr e.ra = 0 then (t.core c).wbuf = (s.core c).wbuf else Buffered t c (x.ea e) 1 (bitPut b e.imm true)) ∧
  (∀ s c e g s1 x b, AtBit s c e 0xE960 g s1 x b → Completes (.brst c e) s fun t =>
    RegsOnly s c g x x.gr t ∧ (t.ctx g).pc = x.nextPc (formOf 0xE960) e ∧
      if x.gr e.ra = 0 then (t.core c).wbuf = (s.core c).wbuf else Buffered t c (x.ea e) 1 (bitPut b e.imm false)) ∧
  (∀ s c e g s1 x b, AtBit s c e 0xEA40 g s1 x b → Completes (.edgr c e) s fun t =>
    RegsOnly s c g x (x.grAfter false e.ra (if x.gr e.ra ≠ 0 ∧ b.toNat.testBit e.imm = false then 1 else 0)) t ∧
      (t.ctx g).pc = x.nextPc (formOf 0xEA40) e ∧
      if decide (x.gr e.ra ≠ 0) = b.toNat.testBit e.imm then (t.core c).wbuf = (s.core c).wbuf
      else Buffered t c (x.ea e) 1 (bitPut b e.imm (decide (x.gr e.ra ≠ 0)))) ∧
  (∀ s c e g s1 x b, AtBit s c e 0xEA60 g s1 x b → Completes (.edgf c e) s fun t =>
    RegsOnly s c g x (x.grAfter false e.ra (if x.gr e.ra = 0 ∧ b.toNat.testBit e.imm = true then 1 else 0)) t ∧
      (t.ctx g).pc = x.nextPc (formOf 0xEA60) e ∧
      if decide (x.gr e.ra ≠ 0) = b.toNat.testBit e.imm then (t.core c).wbuf = (s.core c).wbuf
      else Buffered t c (x.ea e) 1 (bitPut b e.imm (decide (x.gr e.ra ≠ 0))))

/-- R126, R129: RUNG reads its mask pair from the bit table over the fetch path, and writes to ra the power-out that
the contact network of rb's 32 signals passes on from ra ≠ 0. R127, R128: GATB writes to its byte lane of ra the bits
that the valid entries of its table name, and 0 for the others, and leaves the other lanes. -/
def Obligations.GatherAndRung : Prop :=
  (∀ s c e g s1 s2 x d, Issues s c e (formOf 0xEA20) g s1 x →
    s1.fetchBytes c (tableAt (x.nextPc (formOf 0xEA20) e) 8 16 e.imm) 8 = (s2, .ok d) →
    Completes (.rung c e) s fun t =>
      (∀ n, (t.ctx g).gr n = x.grAfter false e.ra
        (if rungEval (leAt d 0 4) (leAt d 4 4) (x.gr e.rb).toNat (decide (x.gr e.ra ≠ 0)) then 1 else 0) n) ∧
        (∀ a, t.byte a = s.byte a) ∧ (t.ctx g).pc = x.nextPc (formOf 0xEA20) e) ∧
  (∀ s c e g s1 s2 x d (off : Nat → Nat), Issues s c e (formOf 0xEA00) g s1 x →
    s1.fetchBytes c (tableAt (x.nextPc (formOf 0xEA00) e) 16 14 e.imm) 16 = (s2, .ok d) →
    (∀ k < 8, (leAt d (2 * k) 2).testBit 15 = true →
      OwnBytes s1 c g ((x.ea e + leAt d (2 * k) 2 % 2 ^ 15 / 8) % 2 ^ 32) 1 (off k)) →
    Completes (.gatb c e) s fun t =>
      (∀ n, n ≠ e.ra → (t.ctx g).gr n = x.gr n) ∧
        (∀ i < 32, e.ra ≠ 0 → ((t.ctx g).gr e.ra).getLsbD i =
          if i / 8 = e.imm / 2 ^ 14 % 4 then (leAt d (2 * (i % 8)) 2).testBit 15 &&
            (s.byte (mData (strandOf c) + off (i % 8))).toNat.testBit (leAt d (2 * (i % 8)) 2 % 8)
          else (x.gr e.ra).getLsbD i) ∧
        (∀ a, t.byte a = s.byte a) ∧ (t.ctx g).pc = x.nextPc (formOf 0xEA00) e)

/-- R131, R132, R133, R134: TON with IN 0 clears Q, RUN and ELAPSED, with IN 1 from rest starts at now, and running
holds the time since STAMP up to PRESET, where Q is set; TOF with IN 1 sets Q, and with IN 0 times its delay; TP with
IN 1 from rest starts its pulse; TRST clears the cell's state; TRD writes no cell and gives ELAPSED of a cell that
does not run; CNT64 adds ra to COUNT, saturated. -/
def Obligations.TimerCells : Prop :=
  (∀ s c e g s1 x k, AtCell s c e 0xEB00 g s1 x k 16 →
    (x.gr e.ra = 0 → Completes (.ton c e) s fun t =>
      (t.ctx g).gr e.ra = 0 ∧ t.rd (k + 4) 4 = 0 ∧ t.rd k 4 = s.rd k 4 ∧ (t.rd (k + 8) 4) % 4 = 0) ∧
    (x.gr e.ra ≠ 0 → s.rd (k + 8) 4 % 4 = 0 → s.rd k 4 ≠ 0 → Completes (.ton c e) s fun t =>
      (t.ctx g).gr e.ra = 0 ∧ t.rd (k + 4) 4 = 0 ∧ t.rd (k + 12) 4 = s1.nowOf c ∧ t.rd (k + 8) 4 % 4 = 2) ∧
    (x.gr e.ra ≠ 0 → s.rd (k + 8) 4 % 4 = 2 → Completes (.ton c e) s fun t =>
      t.rd (k + 4) 4 = min (s.rd k 4) ((s1.nowOf c + 2 ^ 32 - s.rd (k + 12) 4) % 2 ^ 32) ∧
        ((t.ctx g).gr e.ra = 1 ↔ t.rd (k + 4) 4 = s.rd k 4)) ∧
    (x.gr e.ra ≠ 0 → s.rd (k + 8) 4 % 4 = 1 → Completes (.ton c e) s fun t =>
      (t.ctx g).gr e.ra = 1 ∧ t.rd (k + 4) 4 = s.rd (k + 4) 4)) ∧
  (∀ s c e g s1 x k, AtCell s c e 0xEB20 g s1 x k 16 →
    (x.gr e.ra ≠ 0 → Completes (.tof c e) s fun t =>
      (t.ctx g).gr e.ra = 1 ∧ t.rd (k + 4) 4 = 0 ∧ t.rd (k + 8) 4 % 4 = 1) ∧
    (x.gr e.ra = 0 → e.ra ≠ 0 → s.rd (k + 8) 4 % 4 = 1 → s.rd k 4 ≠ 0 → Completes (.tof c e) s fun t =>
      (t.ctx g).gr e.ra = 1 ∧ t.rd (k + 12) 4 = s1.nowOf c ∧ t.rd (k + 8) 4 % 4 = 3)) ∧
  (∀ s c e g s1 x k, AtCell s c e 0xEB40 g s1 x k 16 → x.gr e.ra ≠ 0 → s.rd (k + 8) 4 % 8 = 0 → s.rd k 4 ≠ 0 →
    Completes (.tp c e) s fun t =>
      (t.ctx g).gr e.ra = 1 ∧ t.rd (k + 12) 4 = s1.nowOf c ∧ t.rd (k + 8) 4 % 8 = 7) ∧
  (∀ s c e g s1 x k, AtCell s c e 0xEB60 g s1 x k 16 → Completes (.trst c e) s fun t =>
    t.rd (k + 4) 4 = 0 ∧ t.rd (k + 8) 4 % 8 = 0 ∧ t.rd k 4 = s.rd k 4) ∧
  (∀ s c e g s1 x k, AtCell s c e 0xEB80 g s1 x k 16 → s.rd (k + 8) 4 % 4 < 2 → e.ra ≠ 0 → Completes (.trd c e) s fun t =>
    (t.ctx g).gr e.ra = BitVec.ofNat 32 (s.rd (k + 4) 4) ∧ ∀ a, t.byte a = s.byte a) ∧
  (∀ s c e g s1 x k, AtCell s c e 0xEBA0 g s1 x k 32 → e.ra ≠ 0 → Completes (.cnt64 c e) s fun t =>
    t.rd k 8 = ofS 64 (max (-2 ^ 63) (min (2 ^ 63 - 1) (toS 64 (s.rd k 8) + toS 32 (x.gr e.ra).toNat))) ∧
      ((t.ctx g).gr e.ra = 1 ↔ toS 64 (s.rd (k + 16) 8) ≤ toS 64 (t.rd k 8)))

/-- R66, R93, R135, R136: SYNC.W, FENCE and END leave the context waiting; MFS and MTS move special registers, with
PRIV for one the task may not touch; NOP only goes on; CHKIN posts its task's check-in, and SIGNAL fires its software
trigger, over a link that is not DOWN (R15). -/
def Obligations.SystemInstructions : Prop :=
  (∀ s c e g s1 x, Issues s c e (formOf 0xEC00) g s1 x → Completes (.syncW c e) s fun t =>
    (t.ctx g).wait = .sync ∧ (t.ctx g).pc = x.nextPc (formOf 0xEC00) e ∧ RegsOnly s c g x x.gr t) ∧
  (∀ s c e g s1 x, Issues s c e (formOf 0xEC20) g s1 x → Completes (.fence c e) s fun t =>
    (t.ctx g).wait = .fence ∧ (t.ctx g).pc = x.nextPc (formOf 0xEC20) e ∧ RegsOnly s c g x x.gr t) ∧
  (∀ s c e g s1 x, Issues s c e (formOf 0xECA0) g s1 x → Completes (.endSection c e) s fun t =>
    (t.ctx g).wait = .endSection ∧ (t.ctx g).pc = x.nextPc (formOf 0xECA0) e ∧ RegsOnly s c g x x.gr t) ∧
  (∀ s c e g s1 x, Issues s c e (formOf 0xEC80) g s1 x → Completes (.nop c e) s fun t =>
    (t.ctx g).pc = x.nextPc (formOf 0xEC80) e ∧ RegsOnly s c g x x.gr t) ∧
  (∀ s c e g s1 x, Issues s c e (formOf 0xECC0) g s1 x → Completes (.chkin c e) s fun t =>
    t.chk.queue = (if s.linkUp (strandOf c) = true then s.chk.queue ++ [(x.task, strandOf c)] else s.chk.queue) ∧
      (t.ctx g).pc = x.nextPc (formOf 0xECC0) e ∧ RegsOnly s c g x x.gr t) ∧
  (∀ s c e g s1 x, Issues s c e (formOf 0xEC40) g s1 x →
    (∀ n ∈ [1, 2, 3, 7, 8, 12, 13, 14, 15, 16, 17, 18, 19, 20, 21, 22, 23, 25], e.rb = n →
      Completes (.mfs c e) s fun t => ∀ r, (t.ctx g).gr r = x.grAfter false e.ra (x.sreg n).toNat r) ∧
    (∀ p ∈ [(0, x.pc.toNat), (4, x.task), (5, g % 16), (6, c), (10, x.npcnt), (24, s1.nowOf c)], e.rb = p.1 →
      Completes (.mfs c e) s fun t => ∀ r, (t.ctx g).gr r = x.grAfter false e.ra p.2 r)) ∧
  (∀ s c e g s1 x, Issues s c e (formOf 0xEC60) g s1 x →
    (∀ n ∈ [12, 13, 14, 15, 16, 17, 18, 19, 20, 21, 22, 23], e.rb = n →
      Completes (.mts c e) s fun t => (t.ctx g).sreg n = x.gr e.ra ∧ (∀ r, (t.ctx g).gr r = x.gr r) ∧
        ∀ m, m ≠ n → m ≠ 1 → (t.ctx g).sreg m = x.sreg m) ∧
    (∀ p ∈ [(1, 0x7F), (2, 0x7F), (3, 3)], e.rb = p.1 →
      Completes (.mts c e) s fun t => (t.ctx g).sreg p.1 = x.gr e.ra &&& BitVec.ofNat 32 p.2 ∧ ∀ r, (t.ctx g).gr r = x.gr r) ∧
    (∀ n ∈ [0, 4, 5, 6, 7, 8, 9, 10, 11, 24, 25], e.rb = n → x.task ≠ 0 → s.txnWaiting = [] →
      Completes (.mts c e) s fun t => (t.ctx g).finfo = BitVec.ofNat 32 (5 * 2 ^ 24) ∧ (t.ctx g).cs = .halted)) ∧
  (∀ s c e g s1 x, Issues s c e (formOf 0xECE0) g s1 x → e.imm < 0xF0 → s.red.role ≠ .standby →
    Completes (.signal c e) s fun t => RegsOnly s c g x x.gr t ∧
      t.tds.trigQ = if s.linkUp (strandOf c) = true then s.tds.trigQ ++ [(6, e.imm)] else s.tds.trigQ)

/-- R70, R72, R91, R93, R102: the 64th instruction of a bracket closes it and sets STATUS.BX; the oldest load in
flight writes its register; a stalled store goes on; the oldest entry of the write buffer reaches the core's own SRAM;
the drain acknowledgement ends a SYNC.W, and the END of a section; and CPU.CTL is written. -/
def Obligations.CoreEvents : Prop :=
  (∀ s c g, s.running c = some g → (s.ctx g).npOpen = true → 64 ≤ (s.ctx g).npcnt → (s.ctx g).wait = .none →
    ((s.ctx g).sp 2).testBit 1 = false →
    Completes (.bracketLimit c) s fun t =>
      (t.ctx g).npOpen = false ∧ (t.ctx g).npcnt = 0 ∧ (t.ctx g).sreg 1 = (s.ctx g).sreg 1 ||| 2) ∧
  (∀ s c f l, (s.core c).flight = f :: l → f.tag = none → f.dst < 32 → f.wide = false →
    Completes (.loadDataReturn c) s fun t => (t.core c).flight = l ∧
      ∀ n, (t.ctx f.ctx).gr n = (s.ctx f.ctx).grAfter false f.dst f.val n) ∧
  (∀ s c g w, s.running c = some g → g / 16 = c → (s.ctx g).wait = .store → (s.ctx g).stall = [w] → (s.ctx g).late = [] →
    (s.core c).wbuf.length < 8 → (∀ w' ∈ (s.core c).wbuf, w'.word ≠ w.word) →
    Completes (.writeBufferRoom c) s fun t => (t.ctx g).wait = .none ∧ (t.ctx g).stall = [] ∧
      (t.core c).wbuf = (s.core c).wbuf ++ [w]) ∧
  (∀ s c w l b, (s.core c).wbuf = w :: l → w.bytes = [b] → b.off < 8 → s.img.copying = false →
    (w.word * 8 + b.off) / 2 ^ 32 = 0x30 + strandOf c → strandOf c < 16 →
    Completes (.writeBufferDrain c) s fun t => (t.core c).wbuf = l ∧
      ∀ a, t.byte a = if a = memBase (0x30 + strandOf c) + (w.word * 8 + b.off) % 2 ^ 32 then b.val else s.byte a) ∧
  (∀ s c n, n < 16 → (s.core c).wbuf = [] → s.linkUp (strandOf c) = true → (s.ctx (16 * c + n)).wait = .sync →
    Completes (.drainAck c n) s fun t => (t.ctx (16 * c + n)).wait = .none ∧ (t.ctx (16 * c + n)).pc = (s.ctx (16 * c + n)).pc) ∧
  (∀ s c n x, n < 16 → (s.core c).wbuf = [] → s.linkUp (strandOf c) = true → x = s.ctx (16 * c + n) → x.wait = .endSection → x.task ≠ 0 →
    Completes (.drainAck c n) s fun t => (t.ctx (16 * c + n)).cs = .free ∧
      (t.task x.task).ended = (s.task x.task).ended ++ [x.sec]) ∧
  (∀ s n c v, c < 24 → v < 4 → Takes s n (K.CPU_CTL (c + 1)) v →
    Completes (.cpuCtlWrite n c v) s fun t => t.ob (K.CPU_CTL (c + 1)) = v ∧
      (v.testBit 0 = false → (t.core c).dcache = []) ∧ (v.testBit 1 = false → (t.core c).bcache = []))

/-! ### Tides, tasks and the process image -/

/-- R145: START arms the tide, STOP of an armed tide stops it and of a running one lets it stop, HALT halts it, CLEAR
of a halted one stops it, where no transaction waits for the tide to stop. R145, R41: in a state that does not accept
it each tide command is refused with STATE and changes nothing but the session's result. -/
def Obligations.TideCommands : Prop :=
  (∀ s n, s.txnWaiting = [] →
     (Takes s n K.TDS_CMD 1 → Completes (.tdsStart n) s fun t =>
       t.tds.st = .armed ∧ t.tds.first = true ∧ t.ob K.TDS_START_ERR = 0) ∧
     (Takes s n K.TDS_CMD 2 → s.tds.st = .armed → Completes (.tdsStop n) s fun t => t.tds.st = .stopped) ∧
     (Takes s n K.TDS_CMD 2 → s.tds.st = .running → Completes (.tdsStop n) s fun t =>
       (t.tds.st = .stopping ∨ t.tds.st = .stopped) ∧ t.tds.stopEbbs = 0) ∧
     (Takes s n K.TDS_CMD 3 → Completes (.tdsHalt n) s fun t => t.tds.st = .halted ∧ t.tds.copyIns = []) ∧
     (Takes s n K.TDS_CMD 4 → Completes (.tdsClear n) s fun t => t.tds.st = .stopped)) ∧
  (∀ s n v c, (v, c) ∈ [(1, Instr.tdsStart n), (2, .tdsStop n), (3, .tdsHalt n), (4, .tdsClear n)] →
     Refuses s n K.TDS_CMD v stSTATE rNONE →
     Completes c s fun t => t = s.setResult n K.TDS_CMD stSTATE rNONE 0)

/-- R166: ENABLE of a disabled task makes it idle, DISABLE of an idle one disables it and of a working one waits for
its end, RESUME makes it active again, ABANDON ends it, and RELEASE of an idle task in use counts a release, where no
transaction waits for the tide to stop. -/
def Obligations.TaskCommands : Prop :=
  ∀ s n k, k < 256 → s.txnWaiting = [] →
    (Takes s n (K.TSK_CMD k) 1 → (s.task k).st = .disabled → Completes (.tskEnable n k) s fun t =>
      (t.task k).st = .idle ∧ (t.task k).disPend = false) ∧
    (Takes s n (K.TSK_CMD k) 2 → (s.task k).st = .idle → Completes (.tskDisable n k) s fun t => (t.task k).st = .disabled) ∧
    (Takes s n (K.TSK_CMD k) 2 → (s.task k).st = .active → Completes (.tskDisable n k) s fun t =>
      (t.task k).st = .active ∧ (t.task k).disPend = true ∧ (t.task k).held = []) ∧
    (Takes s n (K.TSK_CMD k) 3 → s.allFlags k = false → Completes (.tskResume n k) s fun t => (t.task k).st = .active) ∧
    (Takes s n (K.TSK_CMD k) 4 → (s.task k).disPend = false → Completes (.tskAbandon n k) s fun t =>
      (t.task k).st = .idle ∧ (t.task k).flags = 0) ∧
    (Takes s n (K.TSK_CMD k) 5 → (s.task k).st = .idle → s.tskUsed k = true → Completes (.tskRelease n k) s fun t =>
      t.ob (K.TSK_RELEASES k) = (s.ob (K.TSK_RELEASES k) + 1) % 2 ^ 64 ∧
        ((t.task k).st = .copyIn ∨ (t.task k).st = .active))

/-- R196, R198, R203, R340: with no change waiting and no line held, FORCE_SET enters the session's key, its reserved
bits as 0, and value as an enabled force, CLEAR disables one and CLEAR_ALL every one; READ gives the session an
entry's key and value; IMG.CTL takes FORCE_EN. The active partner of a pair in a tide keeps the change for the next
flood start. -/
def Obligations.ForceCommands : Prop :=
  (∀ s n, s.tds.copyIns = [] → s.tds.forceQ = [] → s.img.txw = false → s.img.copying = false → s.img.cutWait = false →
    s.img.cutNext = [] → s.img.held = [] → s.replicates = false →
    (Takes s n K.IMG_FORCE_CMD 1 → Completes (.forceSet n) s fun t =>
      (t.force (s.ses n).forceSel).en = true ∧ (t.force (s.ses n).forceSel).key = (s.ses n).forceKey &&& 0xFF0FFFFF ∧
        (t.force (s.ses n).forceSel).val = (s.ses n).forceVal ∧
        ∀ m, m ≠ (s.ses n).forceSel → t.force m = s.force m) ∧
    (Takes s n K.IMG_FORCE_CMD 2 → Completes (.forceClear n) s fun t =>
      (t.force (s.ses n).forceSel).en = false ∧ ∀ m, m ≠ (s.ses n).forceSel → t.force m = s.force m) ∧
    (Takes s n K.IMG_FORCE_CMD 4 → Completes (.forceClearAll n) s fun t => ∀ m, (t.force m).en = false) ∧
    (∀ v < 2, Takes s n K.IMG_CTL v → Completes (.imgCtlWrite n v) s fun t => t.ob K.IMG_CTL = v)) ∧
  (∀ s n, Takes s n K.IMG_FORCE_CMD 3 → Completes (.forceRead n) s fun t =>
    (t.ses n).forceKey = (s.force (s.ses n).forceSel).key ∧ (t.ses n).forceVal = (s.force (s.ses n).forceSel).val) ∧
  (∀ s n, s.replicates = true → s.tideStopped = false → Takes s n K.IMG_FORCE_CMD 1 → Completes (.forceSet n) s fun t =>
    t.red.repl = s.red.repl ++ [.force (.set (s.ses n).forceSel (s.ses n).forceKey (s.ses n).forceVal)] ∧
      ∀ m, t.force m = s.force m)

/-- R137, R139, R142, R145, R213: the first ebb point after START begins the run with the tide number of
TDS.TIDE_START at the instant computed by START, a later one begins the next tide, and the second after a STOP ends
the tide; the deadline completes the input; at the flood start pending lines become current; and a Strand's rebase
ends. R141, R143, R144, R189, R190, R191, R192: the cut is taken once and waits behind an earlier one whose copy is
unfinished, its copy ends, the transmit window opens and closes, the launch and the slack point come, and the slack
window ends. -/
def Obligations.TideInstants : Prop :=
  ((∀ s, s.tds.st = .armed → s.tds.first = true → Completes .ebbPoint s fun t =>
     t.tds.st = .running ∧ t.ob K.TDS_TIDE = s.ob K.TDS_TIDE_START ∧ t.ob K.TDS_TIDE64 = 0 ∧ t.tds.ebbAt = s.tds.nextEbb) ∧
   (∀ s, s.tideOn = true → s.tds.slacked = true → s.tds.swin = false → s.tds.first = false → s.tds.st = .running →
     Completes .ebbPoint s fun t => t.ob K.TDS_TIDE64 = s.ob K.TDS_TIDE64 + 1 ∧
       t.ob K.TDS_TIDE = (s.ob K.TDS_TIDE + 1) % 2 ^ 32 ∧ t.tds.nextEbb = s.tds.nextEbb + s.tideP) ∧
   (∀ s, s.tds.slacked = true → s.tds.swin = false → s.tds.st = .stopping → s.tds.stopEbbs = 1 → s.usedTasks = [] →
     s.txnWaiting = [] → Completes .ebbPoint s fun t => t.tds.st = .stopped) ∧
   (∀ s, s.inEbb = true → s.tds.inputDone = false → Completes .inDeadline s fun t => t.tds.inputDone = true) ∧
   (∀ s, s.inEbb = true → s.tds.rebase = [] → s.tds.inputDone = true → s.agreementDone = true → s.red.repl = [] →
     Completes .floodStart s (fun t => t.tds.flooded = true ∧ t.tds.phase = 1 ∧ t.img.pend = []) ∧
     Completes .floodLatestReached s (fun t => t.tds.flooded = true ∧ t.tds.phase = 1 ∧ t.img.pend = [])) ∧
   (∀ s n, Completes (.rebaseDone n) s fun t =>
     (∀ r ∈ t.tds.rebase, r.strand ≠ n) ∧ ∀ r, r.strand ≠ n → (r ∈ t.tds.rebase ↔ r ∈ s.tds.rebase))) ∧
  ((∀ s, s.tideOn = true → s.tds.flooded = true → s.tds.cutDone = false → Completes .cut s fun t =>
     t.tds.cutDone = true ∧ t.tds.lastCut = s.ob K.TDS_TIDE64 + 1 ∧
       if s.img.copying = true ∨ s.img.cutWait = true then t.img.cutNext.length = s.img.cutNext.length + 1 else t.img.txw = true) ∧
   (∀ s, s.img.copying = true → s.img.cutNext = [] → s.img.held = [] → s.txnWaiting = [] → Completes .cutCopyEnd s fun t =>
     t.img.copying = false ∧ t.img.cutLines = []) ∧
   (∀ s, s.windowOver = true → s.img.held = [] → s.txnWaiting = [] → Completes .transmitWindowClose s fun t =>
     if s.img.cutWait = true then t.img.copying = true ∧ t.img.cutWait = false else t.img.txw = false) ∧
   (∀ s, s.tideOn = true → s.tds.cutDone = true → s.tds.launched = false → Completes .launch s fun t =>
     t.tds.launched = true ∧ t.tds.phase = 2) ∧
   (∀ s, s.tideOn = true → s.tds.launched = true → s.tds.slacked = false → s.txnWaiting = [] → Completes .slackPoint s fun t =>
     t.tds.slacked = true ∧ t.tds.swin = true) ∧
   (∀ s, s.tideOn = true → s.tds.swin = true → Completes .slackWindowEnd s fun t => t.tds.swin = false))

/-- R148, R155, R156, R158, R171, R186, R215: a trigger is taken from the front of its queue; a copy-in that may read
and meets no error completes, its lines copied; END's flag is set; a publish that nothing holds and that meets no
error makes its task idle; a read of TDS.KEVENTS clears it; a retained timer block is saved. -/
def Obligations.TaskEvents : Prop :=
  (∀ s e l, s.tds.trigQ = e :: l → Completes .trigger s fun t => t.tds.trigQ = l) ∧
  (∀ s k i p, s.copyInFront k i = some p → (s.copyInSec k i p.old).2 = none → s.img.held = [] → s.tds.forceQ = [] →
    s.txnWaiting = [] → Completes (.copyInDone k i) s fun t => i ∈ (t.task k).inDone ∧
      (∀ e, s.inEntries k i = [e] → p.old = [] → s.forcesOn = [] → s.olc.edgeInits = [] → Memory.wf s.mem = true →
        ∀ j < 64 * e.len, t.byte (mData (strandOf (s.secEntry k i).core) + 64 * e.dst + j) =
          s.byte (mHead + areaBase e.area + 64 * e.src + j))) ∧
  (∀ s k i, i ∈ (s.task k).ended → Completes (.completionFlag k i) s fun t => (t.task k).flags.testBit i = true) ∧
  (∀ s k, (s.task k).st = .copyBack → (s.task k).cbHeld = false → s.publishFree k = true → s.publishHeld k = [] →
    s.copyBackBad k = [] → (s.task k).disPend = false → (s.task k).held = [] → s.txnWaiting = [] →
    Completes (.publish k) s fun t => (t.task k).st = .idle) ∧
  (∀ s n, s.served n = true → s.readCheck n K.TDS_KEVENTS = (stOK, rNONE) → Completes (.keventsRead n) s fun t =>
    t.ob K.TDS_KEVENTS = 0) ∧
  (∀ s n b, s.tideOn = true → s.tds.swin = true → s.retRound[s.retNext % Nat.max 1 s.retRound.length]? = some (n, b) →
    s.domOn dNV = true → s.domOn (dS n) = true → s.retBase n + b < 448 → s.ns + 3000 ≤ s.windowEndAt →
    s.bdr.inhibit = false →
    Completes (.retBlockSave n b) s fun t =>
      t.ob (K.TMR_RET_SAVES n) = (s.ob (K.TMR_RET_SAVES n) + 1) % 2 ^ 64 ∧
        t.retNext = (s.retNext % Nat.max 1 s.retRound.length + 1) % s.retRound.length)

/-! ### The object dictionary -/

/-- R39, R43: an accepted write of an object that only holds a value stores it, without its reserved bits and its
width's overflow, changes no other object and records OK. R40, R41: a refused write of any object whose refusal leaves
nothing behind changes the session's result and nothing else. R41: the status of several failed checks is that of the
one that comes first in the order of the checks. -/
def Obligations.ObjectWrites : Prop :=
  (∀ s n v, ∀ key ∈ [K.TDS_OFFSET, K.TDS_GUARD, K.DIC_SESSION_IDLE, K.DIC_TXN_TIMEOUT, K.STA_REPEAT_GAP, K.NTM_LATE_LIMIT,
       K.HNW_LOSS_TIDES],
     Takes s n key v → Completes (.objectWrite n (key / 256) (key % 256) (s.obBytes key) v) s fun t =>
       t.ob key = s.valueOf key v ∧ (∀ k, k ≠ key → t.ob k = s.ob k) ∧ (t.ses n).result = resultOf key stOK rNONE 0 ∧
         (∀ a, t.byte a = s.byte a) ∧ t.ctxs = s.ctxs) ∧
  (∀ s n key v st reason, key / 256 ≠ 0x1202 →
     (∀ k ∈ [K.DIC_LOGIN, K.TDS_CMD, K.NTM_OFFSET, K.OLC_CMD, K.BDR_UNLOCK, K.BDR_TXN, K.HLT_TEST_REQ], key ≠ k) →
     Refuses s n key v st reason →
     Completes (.objectWrite n (key / 256) (key % 256) (s.obBytes key) v) s fun t => t = s.setResult n key st reason 0) ∧
  (∀ l : List (Nat × Nat), (∀ e ∈ l, rankOf (firstFail l).1 ≤ rankOf e.1) ∧
     ((firstFail l).1 = stOK ∨ firstFail l ∈ l) ∧
     ((∀ e ∈ l, e.1 = stOK) → firstFail l = (stOK, rNONE)))

/-- R34, R35, R37: a login sets the session's role; a lockout ends; an idle Huatur session closes. -/
def Obligations.LoginAndSessions : Prop :=
  (∀ s n v, 384 ≤ n → Takes s n K.DIC_LOGIN v → Completes (.login n v) s fun t =>
    (t.ses n).role = bits (s.valueOf K.DIC_LOGIN v) 39 32) ∧
  (∀ s path, (mget (fun _ => Path.init) s.dic.paths path).locked = true → Completes (.lockoutEnd path) s fun t =>
    mget (fun _ => Path.init) t.dic.paths path = Path.init) ∧
  (∀ s n, 384 ≤ n → n < 416 → (s.ses n).open_ = true → (s.ses n).txn ≠ .pending → Completes (.sessionIdleClose n) s fun t =>
    t.ses n = Ses.init)

/-- R46, R48, R52: BEGIN opens an empty transaction, a write in it is staged, COMMIT starts the vote, DISCARD and the
timeout empty it. R19, R48, R49, R50, R563: a die that finds nothing against a commit votes yes, one that does not
answer in time has refused, and once every die has voted yes each applies its writes, where the tide stands still on
its commit token, and confirms. -/
def Obligations.Transactions : Prop :=
  (∀ s n, s.served n = true →
     (s.writeCheck n K.DIC_TXN (s.obBytes K.DIC_TXN) 1 = (stOK, rNONE) → Completes (.txnBegin n) s fun t =>
       (t.ses n).txn = .open ∧ (t.ses n).staged = []) ∧
     (s.writeCheck n K.DIC_TXN (s.obBytes K.DIC_TXN) 2 = (stOK, rNONE) → (s.ses n).staged ≠ [] →
       Completes (.txnCommit n) s fun t => (t.ses n).txn = .voting ∧ (t.ses n).staged = (s.ses n).staged) ∧
     (s.writeCheck n K.DIC_TXN (s.obBytes K.DIC_TXN) 3 = (stOK, rNONE) → (s.ses n).txn = .open →
       Completes (.txnDiscard n) s fun t => (t.ses n).txn = .idle ∧ (t.ses n).staged = [] ∧ t.objs = s.objs) ∧
     ((s.ses n).txn = .open → Completes (.txnExpired n) s fun t => (t.ses n).txn = .failed ∧ (t.ses n).staged = []) ∧
     (∀ v, (s.ses n).txn = .open → s.writeCheck n K.TDS_OFFSET 4 v = (stOK, rNONE) →
       Completes (.objectWrite n 0x2001 2 4 v) s fun t => t.objs = s.objs ∧
         (t.ses n).staged = (s.ses n).staged ++ [{ idx := 0x2001, sub := 2, width := 4, v := v }])) ∧
  (∀ s n d,
     (s.voteDue n d = true → s.dieAnswers d = true → s.voteNo n d = none → (s.ses n).no = [] →
       Completes (.dieVote n d) s fun t => d ∈ (t.ses n).yes ∧ ((t.ses n).txn = .voting ∨ (t.ses n).txn = .pending)) ∧
     (s.voteDue n d = true → (s.ses n).dies = [d] → Completes (.handshakeTimeout 3 n d) s fun t =>
       (t.ses n).txn = .failed ∧ (t.ses n).staged = []) ∧
     exec (.handshakeTimeout 4 n d) s = exec (.confirmLost d) s ∧
     ((s.ses n).txn = .pending → d ∈ (s.ses n).dies → d ∉ (s.ses n).applied → (s.ses n).slack = false → s.txnWaiting = [] →
       Completes (.txnApply n d) s fun t => d ∈ (t.ses n).applied ∧
         ∀ v, d = 0 → (s.ses n).staged = [{ idx := 0x2001, sub := 2, width := 4, v := v }] → s.replicates = false →
           t.ob K.TDS_OFFSET = s.valueOf K.TDS_OFFSET v) ∧
     ((s.ses n).txn = .pending → d ∈ (s.ses n).applied → d ∉ (s.ses n).confirmed → s.dieAnswers d = true →
       Completes (.applyConfirm n d) s fun t =>
       if ∀ k ∈ (s.ses n).dies, k = d ∨ k ∈ (s.ses n).confirmed then (t.ses n).txn = .done ∧ (t.ses n).staged = []
       else d ∈ (t.ses n).confirmed))

/-- R55, R56: DOM_OPEN opens a transfer of the object and direction it names; an aperture write stages bytes; COMMIT
of a write gives the object its bytes, the reserved ones as 0, and ABANDON leaves every object as it was. -/
def Obligations.DomainTransfers : Prop :=
  ∀ s n, s.served n = true →
    (∀ v u, u = s.valueOf K.DIC_DOM_OPEN v →
      s.writeCheck n K.DIC_DOM_OPEN (s.obBytes K.DIC_DOM_OPEN) v = (stOK, rNONE) →
      (s.domCheck n (domKey u) (decide (domDir u = 2))).1 = stOK → (domDir u = 1 ∨ domDir u = 2) →
      Completes (.domOpen n v) s fun t => ∃ x, (t.ses n).dom = some x ∧ x.key = domKey u ∧ x.write = decide (domDir u = 2) ∧
        x.wr = []) ∧
    (∀ a w v x, s.apCheck n a w true = stOK → (s.ses n).dom = some x →
      Completes (.domApertureAccess n true a w v) s fun t => ∃ y, (t.ses n).dom = some y ∧ y.key = x.key ∧
        ∀ i < w, mget (fun _ => none) y.wr ((s.ses n).domOff + a + i) = some (BitVec.ofNat 8 (v / 256 ^ i))) ∧
    (∀ a w v x, s.apCheck n a w false = stOK → (s.ses n).dom = some x →
      Completes (.domApertureAccess n false a w v) s fun t => (t.ses n).dom = some x ∧ t.doms = s.doms ∧
        (t.ses n).result % 256 = if (s.xferBytes n x).length ≤ (s.ses n).domOff + a then stRANGE else stOK) ∧
    (∀ x k b, s.writeCheck n K.DIC_DOM_CLOSE (s.obBytes K.DIC_DOM_CLOSE) 1 = (stOK, rNONE) → (s.ses n).dom = some x →
      x.write = true → k < 256 → x.key = K.TSK_SECTIONS k → whole x.wr = some b → (s.xferCommit n x.key x.wr).1 = stOK →
      Completes (.domCloseCommit n) s fun t => (t.ses n).dom = none ∧
        (t.dom (K.TSK_SECTIONS k)).length = b.length / 32 * 32 ∧
        ∀ i < b.length / 32, ∀ j < 32, (t.dom (K.TSK_SECTIONS k))[32 * i + j]? = if j < 28 then b[32 * i + j]? else some 0) ∧
    (∀ x, s.writeCheck n K.DIC_DOM_CLOSE (s.obBytes K.DIC_DOM_CLOSE) 2 = (stOK, rNONE) → (s.ses n).dom = some x →
      Completes (.domCloseAbandon n) s fun t => (t.ses n).dom = none ∧ t.doms = s.doms ∧ t.objs = s.objs)

/-- R57: a request to the OEM range enters the queue, task 0 takes the oldest, and an answer or the timeout takes it
off. -/
def Obligations.OemRequests : Prop :=
  (∀ s n idx sub w v, 0x6000 ≤ idx → idx ≤ 0x7FFF → sub < 256 → s.served n = true → s.oemCheck n w = (stOK, rNONE) →
    Completes (.oemRequest n idx sub w v) s fun t => ∃ q, t.dic.oem = s.dic.oem ++ [q] ∧ q.ses = n ∧ q.idx = idx ∧ q.sub = sub ∧
      q.write = w ∧ q.taken = false ∧ q.role = s.roleOf n) ∧
  (∀ s r, s.served 0 = true →
    s.writeCheck 0 K.DIC_DOM_OPEN (s.obBytes K.DIC_DOM_OPEN) (0x1104 * 2 ^ 32 + 2 * 2 ^ 24 + 2 ^ 16) = (stOK, rNONE) →
    (s.domCheck 0 K.DIC_OEM_REQ false).1 = stOK → s.dic.oem.find? (fun q => !q.taken) = some r →
    Completes .oemReqTake s fun t => ∃ q ∈ t.dic.oem, q.tag = r.tag ∧ q.taken = true) ∧
  (∀ s r tag st d, s.dic.oem.find? (fun q => decide (q.tag = tag) && q.taken) = some r →
    Completes (.oemAnswer tag st d) s fun t => ∀ q ∈ t.dic.oem, q.tag ≠ tag) ∧
  (∀ s r tag, s.dic.oem.find? (fun q => decide (q.tag = tag)) = some r → Completes (.oemTimeout tag) s fun t =>
    (∀ q ∈ t.dic.oem, q.tag ≠ tag) ∧
      (r.ses < 384 → (t.ses r.ses).result = resultOf (r.idx * 256 + r.sub) stBUSY rOEM_TIMEOUT 0))

/-- A frame passes the checks of its port (R263, R291, R292, R300): the port runs, and s0 is the state after they have counted
it. -/
def Arrives (s : State) (fr : Rx) (acyclic : Bool) (s0 : State) : Prop :=
  s.portRuns fr.port = true ∧ s.ingress fr acyclic = (s0, true)

/-- A SERVICE_REQ frame to the controller with an operation and a TAG passes the checks of its port (R287). -/
structure Requests (s : State) (fr : Rx) (op tag : Nat) (s0 : State) : Prop where
  arrives : Arrives s fr true s0
  service : s0.isService fr 5 = true
  target : rxTarget fr = 0x8000
  fields : rxOp fr = op ∧ rxTag fr = tag

/-- A request of session m finds it open, and is not a repetition of its last one (R288): s1 is the state with its TAG kept. -/
structure Serves (s : State) (fr : Rx) (op m tag : Nat) (s1 : State) : Prop where
  session : m < 32 ∧ rxSession fr = m
  frame : ∃ s0, Requests s fr op tag s0 ∧ (s0.ses (384 + m)).open_ = true ∧ (s0.ses (384 + m)).lastTag ≠ some tag ∧
    s1 = s0.modSes (384 + m) (fun x => { x with lastTag := some tag, idleAt := s0.ntm.mono })

/-- R37, R287, R288: a service OPEN takes the lowest closed session for its source, CLOSE ends it, READ and WRITE
reach the dictionary in it, and the two domain requests use its transfer; the TAG of each is kept. Every field is what
the frame's body holds in network byte order, DATA of a WRITE little-endian (R5). -/
def Obligations.ServiceRequests : Prop :=
  (∀ s s0 fr tag n, Requests s fr 1 tag s0 → s0.openAgain (rxSource fr) tag = none → s0.sesFree = some n →
    Completes (.serviceOpen fr tag) s fun t =>
      (t.ses n).open_ = true ∧ (t.ses n).path = rxSource fr ∧ (t.ses n).role = 0 ∧ (t.ses n).lastTag = some tag) ∧
  (∀ s s1 fr m tag, Serves s fr 2 m tag s1 → (s1.ses (384 + m)).txn ≠ .pending →
    Completes (.serviceClose fr m tag) s fun t => t.ses (384 + m) = Ses.init) ∧
  (∀ s s1 fr m tag, Serves s fr 3 m tag s1 → rxIndex fr = K.TDS_TIDE_START / 256 → rxSub fr = K.TDS_TIDE_START % 256 →
    s1.served (384 + m) = true → s1.readCheck (384 + m) K.TDS_TIDE_START = (stOK, rNONE) →
    Completes (.serviceRead fr m tag (K.TDS_TIDE_START / 256) (K.TDS_TIDE_START % 256)) s fun t =>
      (t.ses (384 + m)).lastTag = some tag ∧ (t.ses (384 + m)).result = resultOf K.TDS_TIDE_START stOK rNONE 0 ∧
        t.objs = s1.objs) ∧
  (∀ s s1 fr m tag v, Serves s fr 4 m tag s1 → rxIndex fr = K.TDS_OFFSET / 256 → rxSub fr = K.TDS_OFFSET % 256 → rxSlot fr = v →
    s1.served (384 + m) = true → s1.writeCheck (384 + m) K.TDS_OFFSET 8 v = (stOK, rNONE) →
    (s1.ses (384 + m)).txn ≠ .open → s1.replicates = false →
    Completes (.serviceWrite fr m tag (K.TDS_OFFSET / 256) (K.TDS_OFFSET % 256) v) s fun t =>
      (t.ses (384 + m)).lastTag = some tag ∧ t.ob K.TDS_OFFSET = s1.valueOf K.TDS_OFFSET v) ∧
  (∀ s s1 fr m tag off len, Serves s fr 5 m tag s1 → rxOffset fr = off → rxDlen fr = len →
    s1.svcDomStatus (384 + m) len false = stOK →
    Completes (.serviceDomRead fr m tag off len) s fun t =>
      (t.ses (384 + m)).domOff = off ∧ (t.ses (384 + m)).dom = (s1.ses (384 + m)).dom) ∧
  (∀ s s1 fr m tag off data x, Serves s fr 6 m tag s1 → rxOffset fr = off → rxData fr = data →
    s1.svcDomStatus (384 + m) data.length true = stOK →
    off + data.length ≤ domMax → (s1.ses (384 + m)).dom = some x →
    Completes (.serviceDomWrite fr m tag off data) s fun t =>
      ∃ y, (t.ses (384 + m)).dom = some y ∧ y.key = x.key ∧
        ∀ i < data.length, mget (fun _ => none) y.wr (off + i) = data[i]?)

/-! ### Online change and the start sequence -/

/-- R234, R237, R238, R242, R244: each accepted command of OLC.CMD takes the unit to the state its rule names. -/
def Obligations.ChangeCommands : Prop :=
  ∀ s n,
    (Takes s n K.OLC_CMD 1 → Completes (.olcLoad n) s fun t => t.olc.st = .loading ∧ t.olc.written = [] ∧ t.dom K.OLC_HASH = []) ∧
    (Takes s n K.OLC_CMD 2 → Completes (.olcLoadDone n) s fun t => t.olc.st = .loaded) ∧
    (Takes s n K.OLC_CMD 3 → Completes (.olcVerify n) s fun t => t.olc.st = .verifying) ∧
    (Takes s n K.OLC_CMD 4 → Completes (.olcPrepare n) s fun t =>
      t.olc.st = .verified ∧ t.olc.asker = some n ∧ ∀ d ∈ s.strands, d ∈ t.olc.ask) ∧
    (Takes s n K.OLC_CMD 5 → Completes (.olcCommit n) s fun t =>
      t.olc.st = .committing ∧ t.olc.retreat = false ∧ (t.olc.point = true ↔ s.tds.st = .stopped)) ∧
    (Takes s n K.OLC_CMD 6 → (s.olc.st ≠ .committing ∨ s.olc.point = false) → Completes (.olcAbort n) s fun t =>
      t.olc.st = .idle ∧ t.olc.retreatOk = false) ∧
    (Takes s n K.OLC_CMD 7 → Completes (.olcRelease n) s fun t =>
      t.olc.st = .idle ∧ t.olc.retreatOk = false ∧ t.olc.prevObjs = []) ∧
    (Takes s n K.OLC_CMD 8 → Completes (.olcRetreat n) s fun t => t.olc.st = .retreating ∧ t.olc.retreat = true)

/-- R236, R237, R239, R240, R241, R243: the checks of VERIFY end, the last vote prepares, a window without a quiescent
cut goes back, a Strand's banks change places once, its confirmation or its loss is noted, and the completed change is
committed. R242, R244, R245, R246: the partners of a pair agree on the cut of a change: the standby's vote, the commit
token, the missing token, the forwarded PREPARE and the discard token. -/
def Obligations.ChangeEvents : Prop :=
  ((∀ s, s.olc.st = .verifying → Completes .verifyDone s fun t =>
     t.olc.st = if s.verifyReason s.loadedImage = 0 then .verified else .loaded) ∧
   (∀ s d, s.olc.st = .verified → s.olc.ask = [d] → s.olc.no = [] → d ≠ 0 → Completes (.prepareVote d true) s fun t =>
     t.olc.ask = [] ∧ t.olc.st = if s.strandVote d = 0 then .prepared else .verified) ∧
   (∀ s, s.olc.seeking = true → s.olc.cand = none → s.ob K.OLC_COMMIT_WINDOW ≤ s.olc.tested → Completes .noQuiesce s fun t =>
     t.olc.st = if s.olc.retreat then .committed else .prepared) ∧
   (∀ s n, (s.olc.st = .committing ∨ s.olc.st = .retreating) → s.olc.point = true → s.strandFitted n = true →
     n ∉ s.olc.confirmed → n ∉ s.olc.lost →
     (s.strandUp n = true → n ∉ s.olc.switched → s.slackOk = true → s.commitFits = true →
       Completes (.bankSwitch n) s fun t => n ∈ t.olc.switched ∧ t.olc.active.testBit n = !s.olc.active.testBit n ∧
         ∀ m, m ≠ n → t.olc.active.testBit m = s.olc.active.testBit m) ∧
     (n ∈ s.olc.switched → s.linkUp n = true → Completes (.bankConfirm n) s fun t => n ∈ t.olc.confirmed) ∧
     Completes (.confirmLost n) s (fun t => n ∈ t.olc.lost)) ∧
   (∀ s, s.olc.st = .committing → s.olc.moved = true → s.olc.retreat = false → s.slackOk = true → Completes .olcCompletion s fun t =>
     t.olc.st = .committed ∧ t.olc.moved = false) ∧
   (∀ s, s.olc.st = .retreating → s.olc.moved = true → s.olc.retreat = true → s.slackOk = true → Completes .olcCompletion s fun t =>
     t.olc.st = .verified ∧ t.olc.moved = false)) ∧
  ((∀ s tide, s.red.role = .standby → s.moored = true → s.olc.mayFollow = true →
     (s.olc.cand = some tide → Completes (.cutTideReceive tide) s fun t =>
       t.olc.voted = true ∧ t.tds.hold = true ∧ t.red.msgs = s.red.msgs ++ [.vote tide true]) ∧
     (s.olc.cand ≠ some tide → Completes (.cutTideReceive tide) s fun t => t.red.msgs = s.red.msgs ++ [.vote tide false])) ∧
   (∀ s tide, s.olc.seeking = true → s.olc.cand = some tide →
     Completes (.standbyVoteReceive tide true) s (fun t => t.olc.point = true ∧ t.ob K.OLC_COMMIT_AT = s.ob K.TDS_TIDE) ∧
     Completes (.standbyVoteReceive tide false) s (fun t => t.olc.point = false ∧ t.olc.cand = none) ∧
     Completes .standbyVoteLate s (fun t => t.olc.point = false ∧ t.olc.cand = none)) ∧
   (∀ s tide, s.red.role = .standby → s.olc.voted = true →
     Completes (.partnerCommitToken tide) s (fun t => t.olc.point = true ∧ t.olc.token = some tide ∧
       t.olc.st = (if s.olc.st = .committed then .retreating else .committing) ∧ (t.olc.retreat = true ↔ s.olc.st = .committed)) ∧
     Completes .commitTokenMissing s (fun t => t.olc.voted = false ∧ t.olc.cand = none)) ∧
   (∀ s h, s.red.role = .standby → (s.olc.st = .verified ∨ s.olc.st = .prepared) → s.dom K.OLC_HASH = h → Completes (.partnerPrepareReceive h) s fun t =>
     t.olc.ask = s.strands ∧ t.olc.asker = none) ∧
   (∀ s, s.red.role = .standby → s.olc.point = false → s.olc.st ≠ .committed → Completes .partnerDiscardToken s fun t =>
     t.olc.st = .idle ∧ t.olc.cand = none))

/-- R247, R248, R251, R254, R255, R259, R318: the start sequence begins with what the self-test and the flashes gave,
waits for time, is marked OK, and is commanded, where no transaction waits for the tide to stop; a key is provisioned
once. -/
def Obligations.StartSequence : Prop :=
  (∀ s b f0 f1, s.str.step = 1 → Completes (.resetRelease b f0 f1) s fun t =>
    t.str.bistOk = b ∧ t.str.flash0 = f0 ∧ t.str.flash1 = f1 ∧ t.pwr.inReset = false) ∧
  (∀ s, s.str.step = 8 → s.str.service = false → s.txnWaiting = [] →
    (s.keeperRuns = false → Completes .timeWaitExpiry s fun t => t.str.service = true ∧ t.str.reason = 3) ∧
    (s.keeperRuns = true → Completes .timeWaitExpiry s fun t => t.str.notime = true)) ∧
  (∀ s a l, s.str.step = 12 → s.str.service = false → s.tds.st = .running → s.str.recs = a :: l → a.result = 0 →
    Completes .startConfirm s fun t => t.str.recs = { a with result := 1 } :: l) ∧
  (∀ s n, s.txnWaiting = [] →
    (Takes s n K.NTM_LOCK 0 → Completes (.ntmLockWrite n 0) s fun t => t.ob K.NTM_LOCK = 0) ∧
    (Takes s n K.NTM_LOCK 1 → s.str.step ≠ 8 → Completes (.ntmLockWrite n 1) s fun t => t.ob K.NTM_LOCK = 1) ∧
    (Takes s n K.NTM_LOCK 1 → s.str.step = 8 → s.str.service = false → Completes (.ntmLockWrite n 1) s fun t => t.str.step ≠ 8) ∧
    (Takes s n K.STR_CMD 1 → Completes (.strColdNext n) s fun t => t.str.coldNext = true ∧ t.str.recs = s.str.recs) ∧
    (Takes s n K.STR_CMD 2 → Completes (.strRestartCold n) s fun t => ∃ a l, t.str.recs = a :: l ∧ a.typ = 1) ∧
    (Takes s n K.STR_CMD 3 → Completes (.strRestartWarm n) s fun t => ∃ a l, t.str.recs = a :: l ∧ (a.typ = 1 ∨ a.typ = 2)) ∧
    (Takes s n K.STR_CMD 4 → Completes (.strClearFails n) s fun t => ∀ a ∈ t.str.recs, a.result ≠ 2) ∧
    (∀ data, Delivers s n K.SEC_PROVISION data → leAt data 0 1 = 1 → Completes (.secProvision n data) s fun t =>
      t.str.keyBoot = slice data 1 32 ∧ t.str.fuses.testBit 1 = true ∧ t.str.keyProg = s.str.keyProg))

/-! ### Field network and network time -/

/-- R142, R264, R274 to R277, R295: the ebb trains leave once a tide, the schedule of an armed tide names its first
ebb point on every trunk and goes to the group address, the first segment of an enabled station in its tide is
accepted, and returned slack segments are noted. R263, R264, R266, R273, R281, R291: the partner's frames go on with
every field of their own, the first copy of an event is kept and fires its slot, and the switch answers ARP and ICMP
for its own address. -/
def Obligations.FieldFrames : Prop :=
  ((∀ s, s.inEbb = true → s.domOn dNW = true → s.hnw.ebbSent = false → Completes .ebbTrainLaunch s fun t =>
     t.hnw.ebbSent = true) ∧
   (∀ s p, s.tds.st = .armed → s.domOn dNW = true → s.grantHeld = true → p ∈ s.trunks → Completes .armedSchedule s fun t =>
     ∃ f ∈ t.queue p, f.kind = .schedule ∧ f.typ = 3 ∧ f.dst = s.ob K.HNW_GROUP_MAC % 2 ^ 48 ∧ f.point = s.tds.nextEbb ∧
       f.tide = s.ob K.TDS_TIDE_START) ∧
   (∀ s s0 fr body g, Arrives s fr false s0 → s0.isType fr 1 = true → rxSegs fr body = [g] → s0.ownFrame (rxHeader fr) = true →
     s0.tideOn = true → g.done = true → s0.staEn g.station = true → s0.staPort g.station = s0.trunkOf fr.port →
     (s0.stn g.station).accepted = false → s0.tds.inputDone = false → s0.tds.flooded = false →
     (s0.stn g.station).st = .operational →
     Completes (.ebbFrameReceive fr body) s fun t =>
       (t.stn g.station).accepted = true ∧ (t.stn g.station).status = g.status ∧ (t.stn g.station).miss = 0) ∧
   (∀ s s0 fr body g, Arrives s fr false s0 → s0.isType fr 2 = true → rxSegs fr body = [g] → s0.ownFrame (rxHeader fr) = true →
     s0.staEn g.station = true → Completes (.slackFrameReceive fr body) s fun t =>
       (t.stn g.station).outSeen = true ∧ (t.stn g.station).outDone = ((s0.stn g.station).outDone || g.done))) ∧
  ((∀ s s0 fr cls body, cls = transitClass fr body → Arrives s fr (decide (cls ≠ 1)) s0 → s0.inPair = true → fr.port < 16 →
     s0.ofPartner fr = true →
     Completes (.transitFrame fr cls body) s fun t => ∃ f, t.queue (s0.transitPort fr.port) =
       s0.queue (s0.transitPort fr.port) ++ [f] ∧ f.kind = .transit ∧ f.cls = cls ∧ f.dst = fr.dst ∧ f.src = fr.src ∧ f.etype = fr.etype ∧
       f.body = (if fr.etype = 0x88F7 then body else fr.hdr ++ body) ∧ f.vtag = (if fr.vid = none then s0.vtag else fr.vid) ∧
       f.pair = (rxHeader fr).pair ∧ f.partner = (rxHeader fr).partner ∧ f.grant = (rxHeader fr).grant) ∧
   (∀ s s0 fr body n q, Arrives s fr true s0 → s0.isType fr 4 = true → (rxHeader fr).pair = s0.ob K.HNW_PAIR_ID →
     n = beAt body 0 2 % 4096 → q = beAt body 2 2 → s0.staEn n = true → s0.staPort n = s0.trunkOf fr.port →
     mget (fun _ => 0) s0.hnw.evseq n ≠ q % 65536 + 1 →
     Completes (.eventFrame fr body) s fun t =>
       t.ob (K.HST_EVENT_DATA n) = leAt body 12 8 % 2 ^ 64 ∧ t.ob (K.HST_EVENT_STAMP n) = beAt body 4 8 % 2 ^ 64 ∧
         mget (fun _ => 0) t.hnw.evseq n = q % 65536 + 1 ∧
         ((s0.ob (K.HST_CFG n)).testBit 8 = true → s0.red.role ≠ .standby →
           t.tds.trigQ = s0.tds.trigQ ++ [(2, s0.ob (K.HST_CFG n) % 256)])) ∧
   (∀ s s0 fr ip, Arrives s fr true s0 → 16 ≤ fr.port → s0.ob K.HNW_IP ≠ 0 →
     (fr.etype = 0x0806 → Completes (.arpRequest fr (s0.ob K.HNW_IP) ip) s fun t => ∃ f, t.queue fr.port = s0.queue fr.port ++ [f] ∧
       f.kind = .arp ∧ f.dst = fr.src % 2 ^ 48 ∧ f.body = s0.arpBytes fr.src ip) ∧
     (∀ data, fr.etype = 0x0800 → Completes (.icmpEcho fr (s0.ob K.HNW_IP) ip data) s fun t =>
       ∃ f, t.queue fr.port = s0.queue fr.port ++ [f] ∧ f.kind = .icmp ∧ f.dst = s0.peerOf fr (some ip) % 2 ^ 48 ∧
         f.body = s0.ipBytes 1 ip (echoBytes data))))

/-- R286, R289, R290, R298, R554: requests to stations are kept under a number of their own until a response, a
timeout or the partner ends them; SCAN and CONFIGURE run and end; a probe asks a lost station; a port's link is noted.
-/
def Obligations.StationRequests : Prop :=
  (∀ s s0 fr n ses tag idx sub off data, Arrives s fr true s0 → s0.isService fr 5 = true → 16 ≤ fr.port →
    routeSays fr ses tag idx sub off data = true → reservedReq (rxTarget fr) (rxOp fr) = false → rxTarget fr = n → n < 4096 →
    s0.routesFull = false →
    Completes (.serviceRoute fr ses tag idx sub off data) s fun t => ∃ r, t.hnw.routes = s0.hnw.routes ++ [r] ∧
      r.rid = s0.hnw.nextRid ∧ r.num = n ∧ r.byPos = false ∧ r.tag = tag ∧ r.ses = ses ∧ r.op = rxOp fr ∧ r.idx = idx ∧ r.sub = sub ∧
      r.off = off ∧ r.data = data ∧ r.eng = fr.port ∧ r.use = 0 ∧
      (s0.staEn n = true → ∃ f ∈ t.queue (s0.staPort n), f.kind = .service ∧ f.typ = 5 ∧
        f.body = svcBytes n ses (rxOp fr) (r.rid % 65536) 0 0 (idx * 256 + sub) off data)) ∧
  (∀ s s0 fr r st reason d, Arrives s fr true s0 → s0.isService fr 6 = true → responseSays fr r.rid st reason d = true → s0.findRoute r.rid = some r → r.use = 0 →
    Completes (.serviceResponse fr r.rid st reason d) s fun t => (∀ q ∈ t.hnw.routes, q.rid ≠ r.rid) ∧
      ∃ f, t.queue r.eng = s0.queue r.eng ++ [f] ∧ f.tag = r.tag ∧ f.dst = r.peer.mac % 2 ^ 48 ∧
        f.body = r.rspBytes st reason d) ∧
  (∀ s r, s.findRoute r.rid = some r →
    (r.use = 0 → Completes (.routeTimeout r.rid) s fun t => (∀ q ∈ t.hnw.routes, q.rid ≠ r.rid) ∧
      ∃ f, t.queue r.eng = s.queue r.eng ++ [f] ∧ f.body = r.rspBytes stBUSY rOEM_TIMEOUT []) ∧
    (r.use = 1 → Completes (.routeTimeout r.rid) s fun t => ∀ x ∈ t.hnw.scans, x.port ≠ r.port)) ∧
  (∀ s src tag port pos ses op idx sub off data, s.inPair = true → s.redId = 0 → s.domOn dNW = true → s.routesFull = false →
    Completes (.relayedServiceRequest src tag port pos ses op idx sub off data) s fun t => ∃ r,
      t.hnw.routes = s.hnw.routes ++ [r] ∧ r.num = pos ∧ r.port = port ∧ r.use = 4 ∧ r.byPos = true ∧ r.data = data) ∧
  (∀ s r st reason d, s.hnw.relayed.find? (fun q => decide (q.rid = r.rid)) = some r → r.use = 0 →
    Completes (.relayedServiceResponse r.rid st reason d) s fun t => (∀ q ∈ t.hnw.relayed, q.rid ≠ r.rid) ∧
      ∃ f, t.queue r.eng = s.queue r.eng ++ [f] ∧ f.body = r.rspBytes st reason d) ∧
  (∀ s n, Takes s n K.HNW_CMD 1 → Completes (.hnwScan n) s fun t => t.hnw.cmd = 1 ∧ t.dom K.HNW_SCAN = []) ∧
  (∀ s n, Takes s n K.HNW_CMD 2 → Completes (.hnwConfigure n) s fun t => t.hnw.cmd = 1) ∧
  (∀ s p, Completes (.scanNoAnswer p) s fun t => ∀ x ∈ t.hnw.scans, x.port ≠ p) ∧
  (∀ s, s.hnw.cmd = 1 → s.hnw.scans = [] → s.hnw.conf = [] → s.hnw.confAt = [] → Completes .hnwCmdDone s fun t =>
    t.hnw.cmd = if s.hnw.mism then 3 else 2) ∧
  (∀ s n, s.staEn n = true → (s.stn n).st = .lost → s.relays = false → s.routesFull = false → Completes (.positionProbe n) s fun t =>
    ∃ r, t.hnw.routes = s.hnw.routes ++ [r] ∧ r.use = 3 ∧ r.num = s.staPos n ∧ r.port = s.staPort n) ∧
  (∀ s p b r0 r1, p < 18 → s.domOn dNW = true → Completes (.portLinkChange p b r0 r1) s fun t =>
    t.hnw.up.testBit p = b ∧ ∀ q, q ≠ p → t.hnw.up.testBit q = s.hnw.up.testBit q)

/-- R266, R268, R270, R293, R320, R321, R324, R326: a port's first ready frame is launched with its number, TIDE and
GRANT as they are then, and counted; one whose time is over is dropped and counted; and a gate list that waits for its
cycle replaces the one in force. -/
def Obligations.Launches : Prop :=
  (∀ s p f, s.portRuns p = true → s.busyEnd p ≤ s.ntm.mono → ((s.dropMissed p).gateDropOne p 2).gateDropOne p 3 = s →
    s.nextFrame p = some f → f.kind = .service → f.cls = 3 → f.stamp = false → s.img.copying = false →
    Completes (.frameLaunch p) s fun t =>
      (let g := mget (fun _ => TxF.init) t.hnw.lastTx p
       g.kind = .service ∧ g.dst = f.dst ∧ g.body = f.body ∧ g.tide = s.ob K.TDS_TIDE ∧ g.grant = s.grantHeld ∧
         (∀ k, f.seqOf = some k → g.seq = mget (fun _ => 0) s.hnw.seqs k ∧
           mget (fun _ => 0) t.hnw.seqs k = (mget (fun _ => 0) s.hnw.seqs k + 1) % 65536) ∧ g.wire = s.wireBytes g) ∧
      t.queue p = dropFrame f (s.queue p) ∧
      t.ob (K.HNW_TX_FRAMES (p + 1)) = (s.ob (K.HNW_TX_FRAMES (p + 1)) + 1) % 2 ^ 64) ∧
  (∀ s p f l, s.domOn dNW = true → s.ntm.steps = [] → s.queue p = [f] → f.cls ≠ 1 → f.launch = some l → p < 18 →
    l + s.ob K.NTM_LATE_LIMIT + 1 < 2 ^ 64 → s.clockNs + (l + s.ob K.NTM_LATE_LIMIT + 1 - s.ns) < nsWrap →
    Completes (.launchMiss p) s fun t => t.queue p = [] ∧
      t.ob (K.NTM_LAUNCH_MISS (p + 1)) = (s.ob (K.NTM_LAUNCH_MISS (p + 1)) + 1) % 2 ^ 64) ∧
  (∀ s p, s.domOn dNW = true → s.ntm.steps = [] → s.gated p = false → (s.gate p).pending = true → p < 18 →
    (s.gate p).swapAt < 2 ^ 64 → s.clockNs + ((s.gate p).swapAt - s.ns) < nsWrap →
    Completes (.gateChange p) s fun t => (t.gate p).pending = false ∧ (t.gate p).oper = (s.gateNext p).oper ∧
      (t.gate p).base = (s.gateNext p).base ∧ (t.gate p).cycle = (s.gateNext p).cycle) ∧
  (∀ s n p v, p < 18 → Takes s n (K.NTM_GCL_CFG (p + 1)) v → (s.valueOf (K.NTM_GCL_CFG (p + 1)) v).testBit 1 = true →
    Completes (.gclActivate n p v) s fun t => (t.gate p).pending = true ∧ (t.ob (K.NTM_GCL_CFG (p + 1))).testBit 1 = false ∧
      (t.gate p).oper = (s.gate p).oper)

/-- R18, R302 to R306: a token sets every reached die's count; NTM.INCR and SET change the clock as they say; the step
of an OFFSET or an OFFSET_FORCE waits for the next tick, and a step of 0 is nothing; a read of NTM.NSEC latches the
seconds for its session. R310 to R313: a received PTP frame is queued with its stamp, 64 at most; reads take the
oldest frame and the oldest transmit stamp; a submitted frame without a launch time enters its port's queue. -/
def Obligations.NetworkTime : Prop :=
  ((∀ s n, n ∈ s.strands → s.domOn (dS n) = true → s.linkUp n = true → Completes .timeToken s fun t =>
     t.dieUs n = t.us ∧ t.ntm.tok = t.ns / 1000 + 1) ∧
   (∀ s n v, Takes s n K.NTM_INCR v → Completes (.ntmIncrWrite n v) s fun t =>
     t.ob K.NTM_INCR = s.valueOf K.NTM_INCR v ∧ t.ntm = s.ntm) ∧
   (∀ s n v, v < 2 ^ 64 →
     (Takes s n K.NTM_OFFSET v → Completes (.ntmOffset n v) s fun t =>
       t.clockNs = s.clockNs ∧ t.ntm.steps = if v = 0 then s.ntm.steps else s.ntm.steps ++ [v]) ∧
     (Takes s n K.NTM_OFFSET_FORCE v → Completes (.ntmOffsetForce n v) s fun t =>
       t.clockNs = s.clockNs ∧ t.ntm.steps = if v = 0 then s.ntm.steps else s.ntm.steps ++ [v])) ∧
   (∀ s n data, Delivers s n K.NTM_SET data → Completes (.ntmSet n data) s fun t =>
     t.ntm.sec = leAt data 0 6 ∧ t.ntm.nsec = leAt data 6 4 ∧ t.us = leAt data 0 6 * 1000000 + leAt data 6 4 / 1000) ∧
   (∀ s n, s.served n = true → s.readCheck n K.NTM_NSEC = (stOK, rNONE) → Completes (.ntmNsecRead n) s fun t =>
     (t.ses n).sec = s.ntm.sec)) ∧
  ((∀ s s0 fr b, Arrives s fr true s0 → fr.etype = 0x88F7 → s0.ntm.rx.length < 64 → Completes (.ptpReceive fr b) s fun t =>
     ∃ r, t.ntm.rx = s0.ntm.rx ++ [r] ∧ r.frame = b.take 512 ∧ r.port = fr.port ∧
       r.sec * 1000000000 + r.nsec = s0.ingressNs fr.port) ∧
   (∀ s s0 fr b, Arrives s fr true s0 → fr.etype = 0x88F7 → 64 ≤ s0.ntm.rx.length → Completes (.ptpReceive fr b) s fun t =>
     t.ntm.rx = s0.ntm.rx ∧ t.ob K.NTM_PTP_DROPS = (s0.ob K.NTM_PTP_DROPS + 1) % 2 ^ 64) ∧
   (∀ s n r l, Opens s n K.NTM_PTP_RX → s.ntm.rx = r :: l → Completes (.ptpRxRead n) s fun t =>
     t.ntm.rx = l ∧ ∃ x, (t.ses n).dom = some x ∧ x.cap = some r.bytes) ∧
   (∀ s n r l, Opens s n K.NTM_TX_STAMP → s.ntm.stamps = r :: l → Completes (.txStampRead n) s fun t =>
     t.ntm.stamps = l ∧ ∃ x, (t.ses n).dom = some x ∧ x.cap = some r.bytes) ∧
   (∀ s n data, Delivers s n K.NTM_PTP_TX data → (leAt data 1 1).testBit 2 = false → Completes (.ptpTxSubmit n data) s fun t =>
     ∃ f, t.queue (leAt data 0 1) = s.queue (leAt data 0 1) ++ [f] ∧ f.kind = .ptp ∧ f.body = data.drop 16 ∧ f.launch = none ∧
       f.cls = if ptpType (data.drop 16) < 4 then 2 else 3))

/-! ### The pair and the Lighthouse -/

/-- R333, R334, R335: a status message goes out with the state it reports; a good one brings its link up, makes the
peer present and sends a joining partner of an active peer to UNSYNCED; a peer judged absent is gone; a link goes
down, whatever the other does, and its lanes train again. That it is TRAINING until the next good message is the
model's reading (log 123). -/
def Obligations.MooringLinks : Prop :=
  (∀ s, s.moored = true → Completes .mooringStatusSend s fun t => t.red.mine = some s.myStatus ∧ t.red.sent = [] ∧ t.red.msgs = []) ∧
  (∀ s link m, s.moored = true → link < 2 → s.mismatch m = 0 → Completes (.mooringStatusReceive link m) s fun t =>
    t.red.peer = true ∧ t.red.peerSt = m ∧ t.linkState link = 2 ∧
      (s.red.role = .joining → m.role = 5 → s.autoResync = false → t.red.role = .unsynced)) ∧
  (∀ s, s.inPair = true → Completes .peerAbsent s fun t => t.red.peer = false ∧
    (s.red.peer = true → s.red.role = .resync → t.red.role = .unsynced ∧ t.red.reason = 5)) ∧
  (∀ s link, s.moored = true → link < 2 → Completes (.mooringLinkDown link) s fun t =>
    t.linkState link = 0 ∧ t.linkState (1 - link) = s.linkState (1 - link)) ∧
  (∀ s link n, s.moored = true → link < 2 → n ≠ 0 → s.linkState link = 0 → Completes (.mooringRetrain link n) s fun t =>
    t.linkState link = 1 ∧ mget (fun _ => 0) t.red.lanes link = min 2 n)

/-- R336, R337, R338, R340, R341: the standby agrees to a digest that equals its own, the active partner notes AGREED,
a partition replaces the standby's, a dictated input is taken, a write waits for the flood start, and output digests
that differ are a divergence. -/
def Obligations.PairExchange : Prop :=
  (∀ s tide parts, s.moored = true → s.red.role = .standby → tide = s.ob K.TDS_TIDE → s.red.digSent = some tide →
    s.tds.flooded = false → Completes (.digestReceive tide s.inDigest parts) s fun t => t.red.agreedSent = some tide) ∧
  (∀ s tide, s.moored = true → s.red.role = .active → tide = s.ob K.TDS_TIDE → Completes (.agreedReceive tide) s fun t =>
    t.tds.agreed = true) ∧
  (∀ s tide p data, s.moored = true → s.red.role = .standby → tide = s.ob K.TDS_TIDE → s.tds.flooded = false → p < 128 →
    Completes (.partitionReceive tide p data) s fun t => ∀ a, t.byte a =
      if mAsm + 4096 * p ≤ a ∧ a < mAsm + 4096 * p + 4096 then data.getD (a - (mAsm + 4096 * p)) 0 else s.byte a) ∧
  (∀ s c, s.moored = true → s.red.role = .standby → Completes (.dictationReceive (.ebbCount c)) s
    fun t => t.ob K.CAL_EBB_COUNT = c ∧ ∃ l, t.red.dictated = l ++ [{ at_ := s.ntm.mono, ev := .ebbCount c }]) ∧
  (∀ s m, s.moored = true → s.red.role = .standby → s.tideStopped = false → Completes (.replicatedWriteReceive m) s
    fun t => t.red.repl = s.red.repl ++ [m]) ∧
  (∀ s tide a b ps qs, s.moored = true → s.red.role = .standby → s.red.myOut = some (tide, a, ps) →
    s.red.changeTide ≠ some tide → s.red.swap ≠ some tide → s.red.lateTide ≠ some tide →
    (a ≠ b → Completes (.outputDigestReceive tide b qs) s fun t =>
      t.ob K.RED_DIVERGENCES = (s.ob K.RED_DIVERGENCES + 1) % 2 ^ 64 ∧ t.ob K.RED_LAST_DIV = tide ∧
        (s.divPol = 1 → s.autoResync = false → t.red.role = .unsynced ∧ t.red.reason = 4)) ∧
    (a = b → ps = qs → Completes (.outputDigestReceive tide b qs) s fun t => t.objs = s.objs ∧ t.red.role = .standby))

/-- R335, R355, R357, R358: LEAVE takes the partner OFF, RESYNC begins a resynchronisation, SWITCHOVER and a drill
that nothing postpones send a swap token for two tides ahead. R355, R356, R357, R358: passes count up and end where
what is left fits the slack window or all passes are used, and the active partner sends each pass but the final one
the blocks it finds dirty; data of a pass is stored; the standby keeps a swap token; 20 µs after the slack point the
switchover is decided; the drill timer and the return hold-off run out. -/
def Obligations.PairCommands : Prop :=
  (∀ s n,
     (Takes s n K.RED_CMD 1 → Completes (.redLeave n) s fun t => t.red.role = .off ∧ t.red.grant = false ∧ t.red.claim = false) ∧
     (Takes s n K.RED_CMD 2 → Completes (.redResync n) s fun t => t.red.role = .resync ∧ t.red.pass = 0) ∧
     (Takes s n K.RED_CMD 3 → Completes (.redSwitchover n) s fun t =>
       t.red.swap = some ((s.ob K.TDS_TIDE + 2) % 2 ^ 32)) ∧
     (Takes s n K.RED_CMD 4 →
       (s.swapFree = true → Completes (.redDrill n) s fun t => t.red.swap = some ((s.ob K.TDS_TIDE + 2) % 2 ^ 32)) ∧
       (s.swapFree = false → Completes (.redDrill n) s fun t => t.red.swapWant = true ∧
         t.ob K.RED_SWAP_DEFERRED = (s.ob K.RED_SWAP_DEFERRED + 1) % 2 ^ 64))) ∧
  ((∀ s left, s.moored = true → s.red.role = .resync → s.red.finalWait = false →
     (s.finalFits left = true → Completes (.resyncPassEnd left) s fun t => t.red.finalWait = true) ∧
     (s.finalFits left = false → s.ob K.RED_RESYNC_PASSES ≤ s.red.pass + 1 → Completes (.resyncPassEnd left) s fun t =>
       t.red.role = .unsynced ∧ t.red.reason = 6) ∧
     (s.finalFits left = false → s.red.pass + 1 < s.ob K.RED_RESYNC_PASSES → Completes (.resyncPassEnd left) s fun t =>
       t.red.pass = s.red.pass + 1 ∧ t.red.role = .resync)) ∧
   (∀ s left, s.moored = true → s.red.role = .active → s.red.peer = true → s.red.peerSt.role = 3 → s.red.finalWait = false →
     (s.finalFits s.dirtyBlocks.length = true → Completes (.resyncPassEnd left) s fun t =>
       t.red.finalWait = true ∧ t.red.msgs = s.red.msgs ∧ t.red.role = .active) ∧
     (s.finalFits s.dirtyBlocks.length = false → s.red.pass + 1 < s.ob K.RED_RESYNC_PASSES →
       Completes (.resyncPassEnd left) s fun t =>
         t.red.msgs = s.red.msgs ++ [.pass (s.red.pass + 1) (s.blockData s.dirtyBlocks)] ∧ t.red.finalWait = false ∧
           t.red.passMem = s.mem ∧ t.red.role = .active)) ∧
   (∀ s b data, s.moored = true → s.red.role = .resync → s.syncs b = true → Completes (.resyncDataReceive (.mem b data)) s fun t =>
     ∀ a, t.byte a = if 4096 * b ≤ a ∧ a < 4096 * b + 4096 then data.getD (a - 4096 * b) 0 else s.byte a) ∧
   (∀ s n, s.moored = true → s.red.role = .resync → s.red.finalWait = true → s.str.service = false → Completes (.resyncDataReceive (.tide n)) s
     fun t => t.red.role = .standby ∧ t.tds.st = .running ∧ t.ob K.TDS_TIDE64 = n) ∧
   (∀ s tide, s.moored = true → s.red.role = .standby → Completes (.swapTokenReceive tide) s fun t =>
     t.red.swap = some (tide % 2 ^ 32)) ∧
   (∀ s, s.red.giving = true →
     (s.red.grant = false → s.red.role = .active → Completes .switchoverDecide s fun t =>
       t.red.role = .standby ∧ t.red.giving = false ∧ t.red.swap = none ∧
         t.ob K.RED_SWITCHOVERS = (s.ob K.RED_SWITCHOVERS + 1) % 2 ^ 64) ∧
     (s.red.grant = true → Completes .switchoverDecide s fun t =>
       t.red.giving = false ∧ t.red.role = s.red.role ∧ t.ob K.RED_SWAP_FAILS = (s.ob K.RED_SWAP_FAILS + 1) % 2 ^ 64)) ∧
   (∀ s e, s.inPair = true → s.red.drillAt = some e → s.red.role = .active → s.prefMismatch = false →
     s.swapFree = true → Completes .drillTimer s fun t => t.red.swap = some ((s.ob K.TDS_TIDE + 2) % 2 ^ 32) ∧
       (s.ob K.RED_DRILL_INTERVAL ≠ 0 → t.red.drillAt = some (t.ntm.mono + s.ob K.RED_DRILL_INTERVAL * 3600000000000))) ∧
   (∀ s, s.red.role = .standby → Completes .returnHoldoffExpiry s fun t => t.red.holdoff = none) ∧
   (∀ s e, s.red.holdoff = some e → s.red.role = .active → s.prefMismatch = false → s.swapFree = true →
     Completes .returnHoldoffExpiry s fun t => t.red.holdoff = none ∧ t.red.swap = some ((s.ob K.TDS_TIDE + 2) % 2 ^ 32)))

/-! ### Breakwater -/

/-- R364, R365, R366, R367, R369, R370, R372, R381: an edge accepted after FILTER samples at its level changes its
input's level and enters the latch and the log; a C1 report gives the levels, the limits and the voltages; the end of
a settling time comes at its instant; a supply change and a configuration message do what they name (CLEAR_OVL over C0
as an item is the model's choice, log 125); a read of the edge log takes and empties it. -/
def Obligations.FieldInputs : Prop :=
  (∀ s n up stamp, s.logicRuns = true → s.fieldRuns = true → n < 16 → s.fio.filt.testBit n ≠ up →
    s.runHolds n up (stamp % 2 ^ 64) = true → Completes (.inputEdgeAccept n up stamp) s
    fun t => t.fio.filt.testBit n = up ∧ (∀ m, m ≠ n → t.fio.filt.testBit m = s.fio.filt.testBit m) ∧
      (if up then t.fio.rise else t.fio.fall).testBit n = true ∧
      (s.red.role ≠ .standby → s.fio.log.length < 128 → t.fio.log = s.fio.log ++ [(stamp % 2 ^ 64, n, up)]) ∧
      (s.red.role ≠ .standby → 128 ≤ s.fio.log.length → t.fio.log = s.fio.log ∧
        t.ob K.FIO_EDGE_DROPS = (s.ob K.FIO_EDGE_DROPS + 1) % 2 ^ 64)) ∧
  (∀ s r, s.logicRuns = true → s.fieldRuns = true → s.linkUp 7 = true → Completes (.c1Status r) s fun t =>
    t.fio.raw = r.couplerIn % 65536 ∧ t.fio.limit = r.limit % 65536 ∧
      ∀ n < 16, mget (fun _ => 0) t.fio.volt n = r.volt.getD n 0 ∧
        (r.limit.testBit n = false → mget (fun _ => 0) t.fio.limitAt n = 0)) ∧
  (∀ s n, s.fieldRuns = true → Completes (.diagSettleEnd n) s fun t =>
    mget (fun _ => 0) t.fio.settle n = 0 ∧ mget (fun _ => 0) s.fio.settle n ≤ t.ntm.mono ∧
      ∀ m, m ≠ n → mget (fun _ => 0) t.fio.settle m = mget (fun _ => 0) s.fio.settle m) ∧
  (∀ s b, s.bwFitted = true →
    Completes (.fieldSupplyChange 0 b) s (fun t => t.fio.la = b ∧ t.fio.lb = s.fio.lb ∧
      (s.fio.la = true → b = false → s.fio.lb = false → t.fio.fstate = 3 ∧ t.fio.cmd = 0)) ∧
    Completes (.fieldSupplyChange 1 b) s (fun t => t.fio.lb = b ∧ t.fio.la = s.fio.la ∧
      (s.fio.lb = true → b = false → s.fio.la = false → t.fio.fstate = 3 ∧ t.fio.cmd = 0))) ∧
  (∀ s i v, s.fieldRuns = true → i ∈ s.fio.cfgPend → Completes (.fieldConfigMessage i v) s fun t =>
    if i = 5 then t.fio.off = 0 ∧ 5 ∉ t.fio.cfgPend ∧ t.fio.fieldCfg = s.fio.fieldCfg
    else t.fieldItem i = some v ∧ (v = s.ob (fioItemKey i) → i ∉ t.fio.cfgPend) ∧
      ∀ j, j ≠ i → t.fieldItem j = s.fieldItem j) ∧
  (∀ s n, Opens s n K.FIO_EDGE_LOG → Completes (.edgeLogRead n) s fun t =>
    t.fio.log = [] ∧ ∃ x, (t.ses n).dom = some x ∧ x.cap = some (s.fio.log.map edgeBytes).flatten)

/-- R373, R374, R375: a REFRESH received in RUN commands what the couplers show, PARK takes the field side to PARKED
with every output off, RECOVER prepares it to leave SAFE (which PARK does not), and silence takes it to SAFE with each
channel in its safe state. The commands of FIO.CMD send over C0 what the next messages then do there. R377, R378:
FIO.OVL_TIME in current limit, or an overtemperature, switches off the whole set of a conducting channel, which the
next C1 report has counted; cooling ends the thermal state; a retry 100 ms after the switch-off switches the set on
again. -/
def Obligations.FieldOutputs : Prop :=
  ((∀ s, s.c0Is 1 = true → s.fio.fstate = 1 → Completes .fieldRefresh s fun t =>
     t.fio.fstate = 1 ∧ t.fio.cmd = s.latchOut ∧ t.fio.c0 = s.fio.c0.drop 1 ∧ t.fio.refAt = s.ntm.mono) ∧
   (∀ s, s.c0Is 2 = true → Completes .fieldPark s fun t => t.fio.c0 = s.fio.c0.drop 1 ∧
     (s.fio.fstate = 0 ∨ s.fio.fstate = 1 → t.fio.fstate = 0 ∧ t.fio.cmd = 0) ∧
     (s.fio.fstate = 2 → t.fio.fstate = 2 ∧ t.fio.cmd = s.fio.cmd)) ∧
   (∀ s, s.c0Is 3 = true → s.fio.fstate = 2 → Completes .fieldRecover s fun t =>
     t.fio.recovered = true ∧ t.fio.fstate = 2 ∧ t.fio.c0 = s.fio.c0.drop 1) ∧
   (∀ s, s.bwFitted = true → s.fio.fstate = 1 → s.c0Is 2 = false → Completes .silenceExpiry s fun t => t.fio.fstate = 2 ∧
     (∀ n < 16, t.fio.cmd.testBit n =
       if bits (s.fieldVal (16 + n)) 3 2 = 0 then false
       else if bits (s.fieldVal (16 + n)) 3 2 = 1 then true else s.fioApplied.testBit n) ∧
     t.fio.safeDue = s.fio.safeDue + 1 ∧ s.fio.refAt + s.fieldVal 1 * 1000 ≤ t.ntm.mono) ∧
   (∀ s r, s.logicRuns = true → s.fieldRuns = true → s.linkUp 7 = true → s.fio.safeDue = 1 → s.fio.ovlDue = [] →
     Completes (.c1Status r) s fun t => t.fio.rep.fstate = s.fio.fstate ∧ t.fio.safeDue = 0 ∧
       t.ob K.FIO_SAFE_ENTRIES = (s.ob K.FIO_SAFE_ENTRIES + 1) % 2 ^ 64) ∧
   (∀ s n,
     (Takes s n K.FIO_CMD 1 → s.domOn dFL = true → Completes (.fioPark n) s fun t =>
       t.fio.holdPark = true ∧ t.fio.couplers = 0 ∧ t.fio.c0 = s.fio.c0 ++ [2]) ∧
     (Takes s n K.FIO_CMD 2 → Completes (.fioRecover n) s fun t =>
       t.fio.holdPark = false ∧ (s.fio.rep.fstate = 2 → t.fio.c0 = s.fio.c0 ++ [3])) ∧
     (Takes s n K.FIO_CMD 3 → Completes (.fioClearOvl n) s fun t =>
       (s.fio.rep.fstate ≠ 3 → 5 ∈ t.fio.cfgPend) ∧ t.fio.off = s.fio.off))) ∧
  ((∀ s n, s.conducts n = true → mget (fun _ => 0) s.fio.limitAt n ≠ 0 → Completes (.ovlSwitchOff n) s fun t =>
     (∀ m < 16, t.fio.off.testBit m = (s.fio.off.testBit m || decide (fioLead (s.fieldVal 2) m = fioLead (s.fieldVal 2) n))) ∧
       t.fio.ovlDue = s.fio.ovlDue ++ [(n, 1)] ∧ mget (fun _ => 0) s.fio.limitAt n + s.fieldVal 4 * 1000 ≤ t.ntm.mono + 1) ∧
   (∀ s n, s.conducts n = true → Completes (.thermalShutdown n) s fun t => t.fio.ovlDue = s.fio.ovlDue ++ [(n, 2)] ∧
     ∀ m < 16, fioLead (s.fieldVal 2) m = fioLead (s.fieldVal 2) n →
       t.fio.off.testBit m = true ∧ t.fio.thermal.testBit m = true) ∧
   (∀ s r n c, s.logicRuns = true → s.fieldRuns = true → s.linkUp 7 = true → s.fio.safeDue = 0 → s.fio.ovlDue = [(n, c)] →
     Completes (.c1Status r) s fun t => t.fio.ovlDue = [] ∧
       t.ob (K.FIO_OVL_COUNT (n + 1)) = (s.ob (K.FIO_OVL_COUNT (n + 1)) + 1) % 2 ^ 64) ∧
   (∀ s n, s.fieldRuns = true → s.fio.thermal.testBit n = true → Completes (.thermalRelease n) s fun t =>
     t.fio.thermal.testBit n = false ∧
       (s.ovlRetries = false → t.fio.off = s.fio.off)) ∧
   (∀ s n, s.fieldRuns = true → s.ovlRetries = true → n < 16 → s.fio.off.testBit n = true →
     mget (fun _ => 0) s.fio.offAt n ≠ 0 → Completes (.ovlRetry n) s fun t => t.fio.off.testBit n = false ∧
       mget (fun _ => 0) s.fio.offAt n + 100000000 ≤ t.ntm.mono + 1))

/-! ### Message bus controllers -/

/-- R389, R391, R392, R393: a received data frame that no rule matches goes by NOMATCH to the end of FIFO 0 as its
element; a POP copies the oldest element of its source to the read window and frees it; the read of the window's last
word frees a locked one. R397, R398, R399: requested buffers become pending and cancelled ones complete; a start of
frame takes the buffer that wins, and the end of its attempt completes it or tries again. A standby's buffers wait for
the dictated completion (log entry 107). -/
def Obligations.BusFrames : Prop :=
  ((∀ s k f stamp, k < 4 → (s.mb k).mode = .run → f.res = false → f.remote = false → s.sdoTakes k f = false →
     s.red.role ≠ .standby → s.ruleOf k f.ext f.id = none → cfgNomatch (s.mbCfg k) = 0 → (s.mb k).fifo0.length < 64 →
     Completes (.canFrameReceive k f stamp) s fun t =>
       (t.mb k).fifo0 = (s.mb k).fifo0 ++ [elemOf f stamp 255] ∧ (t.mb k).fifo1 = (s.mb k).fifo1 ∧
         (t.mb k).ded = (s.mb k).ded ∧
         t.ob (K.MBC_RX_FRAMES (k + 1)) = (s.ob (K.MBC_RX_FRAMES (k + 1)) + 1) % 2 ^ 64) ∧
   (∀ s n v, ∀ k < 4, v < 0x22 → Takes s n (K.MBC_RD_POP (k + 1)) v → cfgLock (s.mbCfg k) = false →
     Completes (.rdPop n k v) s fun t => (t.mb k).win = (s.mb k).oldest v ∧ (t.mb k).winUnread = true ∧
       (v = 0x20 → (t.mb k).fifo0 = (s.mb k).fifo0.drop 1)) ∧
   (∀ s n v, ∀ k < 4, v < 0x22 → Takes s n (K.MBC_RD_POP (k + 1)) v → cfgLock (s.mbCfg k) = true →
     Completes (.rdPop n k v) s fun t => (t.mb k).win = (s.mb k).oldest v ∧ (t.mb k).locked = some v ∧
       (t.mb k).fifo0 = (s.mb k).fifo0 ∧ (t.mb k).fifo1 = (s.mb k).fifo1 ∧ (t.mb k).ded = (s.mb k).ded) ∧
   (∀ s n x, ∀ k < 4, (s.mb k).win = some x → x.len ≤ 64 → (s.mb k).winUnread = true → (s.mb k).locked = some 0x20 →
     s.served n = true → s.readCheck n ((0x3810 + x.lastWord) * 256 + (k + 1)) = (stOK, rNONE) →
     Completes (.rdLastWordRead n k) s fun t => (t.mb k).locked = none ∧ (t.mb k).winUnread = false ∧
       (t.mb k).fifo0 = (s.mb k).fifo0.drop 1)) ∧
  (∀ s n, ∀ k < 4,
     (∀ v < 8, Takes s n (K.MBC_TX_REQ (k + 1)) v → Completes (.txReq n k v) s fun t =>
       ∀ b < 3, ((t.mb k).buf b).pend = (((s.mb k).buf b).pend || v.testBit b)) ∧
     (∀ v < 8, Takes s n (K.MBC_TX_CANCEL (k + 1)) v → (s.mb k).cur = none →
       (s.red.role ≠ .standby → Completes (.txCancel n k v) s fun t => ∀ b < 3,
         ((t.mb k).buf b).pend = (((s.mb k).buf b).pend && !v.testBit b) ∧ (v.testBit b = true → ((t.mb k).buf b).result = 2)) ∧
       (s.red.role = .standby → Completes (.txCancel n k v) s fun t => ∀ b < 3, ((t.mb k).buf b).pend = ((s.mb k).buf b).pend)) ∧
     (s.txMay k = true → Completes (.txStartOfFrame k) s fun t =>
       (t.mb k).cur = s.txChoice k ∧ (t.mb k).curAt = s.ns) ∧
     (∀ b < 3, (s.mb k).cur = some b → (s.mb k).stopping = false → (s.mb k).tec ≤ 255 → cfgTest (s.mbCfg k) ≠ 2 →
       (Completes (.txAttemptEnd k .success) s fun t =>
         ((t.mb k).buf b).pend = false ∧ ((t.mb k).buf b).result = 1 ∧ (t.mb k).cur = none ∧
           (t.mb k).tec = (s.mb k).tec - 1 ∧
           t.ob (K.MBC_TX_FRAMES (k + 1)) = (s.ob (K.MBC_TX_FRAMES (k + 1)) + 1) % 2 ^ 64) ∧
       (((s.mb k).buf b).late = false → cfgCompat (s.mbCfg k) = true → Completes (.txAttemptEnd k .arbLost) s fun t =>
         ((t.mb k).buf b).pend = ((s.mb k).buf b).pend ∧ (t.mb k).cur = none ∧
           t.ob (K.MBC_ARB_LOST (k + 1)) = (s.ob (K.MBC_ARB_LOST (k + 1)) + 1) % 2 ^ 64)))

/-- R387, R394: each accepted command of MBC.CMD takes the controller to the mode its rule names, an idle bus or 128
idle sequences to RUN (BUS_OFF where the transmit error count stands above 255), and UNLOCK leaves the locked frame
where it is. That a standby's pending buffers wait for the dictated completions of R402 is the model's reading (log
entry 107). R400, R401: a segment that no transfer awaits is answered by the abort 0504 0001h, a client's abort ends
the transfer in hand, and a transfer that waits too long ends with an abort. -/
def Obligations.BusControl : Prop :=
  (∀ s n, ∀ k < 4,
     (Takes s n (K.MBC_CMD (k + 1)) 1 → Completes (.mbcStart n k) s fun t =>
       (t.mb k).starting = true ∧ (t.mb k).mode = (s.mb k).mode) ∧
     (Takes s n (K.MBC_CMD (k + 1)) 2 → (s.mb k).cur = none → Completes (.mbcStop n k) s fun t =>
       (t.mb k).mode = .config ∧ (t.mb k).starting = false ∧
         (s.red.role ≠ .standby → ∀ b < 3, ((t.mb k).buf b).pend = false ∧
           (((s.mb k).buf b).pend = true → ((t.mb k).buf b).result = 2)) ∧
         (s.red.role = .standby → ∀ b < 3, ((t.mb k).buf b).pend = ((s.mb k).buf b).pend)) ∧
     (Takes s n (K.MBC_CMD (k + 1)) 2 → (s.mb k).cur ≠ none → Completes (.mbcStop n k) s fun t =>
       (t.mb k).stopping = true ∧ (t.mb k).mode = (s.mb k).mode) ∧
     (Takes s n (K.MBC_CMD (k + 1)) 3 → Completes (.mbcRecover n k) s fun t => (t.mb k).mode = .recovering) ∧
     (Takes s n (K.MBC_CMD (k + 1)) 4 → Completes (.mbcUnlock n k) s fun t =>
       (t.mb k).locked = none ∧ (t.mb k).ded = (s.mb k).ded ∧ (t.mb k).fifo0 = (s.mb k).fifo0 ∧ (t.mb k).fifo1 = (s.mb k).fifo1) ∧
     ((s.mb k).starting = true → (s.mb k).mode = .config → (s.mb k).tec ≤ 255 → Completes (.busIdleDetect k) s fun t =>
       (t.mb k).mode = .run ∧ (t.mb k).starting = false) ∧
     ((s.mb k).starting = true → (s.mb k).mode = .config → 255 < (s.mb k).tec → cfgAutoRecover (s.mbCfg k) = false →
       Completes (.busIdleDetect k) s fun t => (t.mb k).mode = .busOff ∧
         t.ob (K.MBC_BUS_OFFS (k + 1)) = (s.ob (K.MBC_BUS_OFFS (k + 1)) + 1) % 2 ^ 64) ∧
     ((s.mb k).mode = .recovering → Completes (.busRecovered k) s fun t =>
       (t.mb k).mode = .run ∧ (t.mb k).tec = 0 ∧ (t.mb k).recCnt = 0) ∧
     ∀ lec, (s.mb k).mode = .run → 1 ≤ lec → lec ≤ 6 → Completes (.canRxError k lec) s fun t =>
       (t.mb k).lec = lec ∧ Nat.min 255 ((s.mb k).recCnt + 1) ≤ (t.mb k).recCnt ∧ t.ob (K.MBC_ERRORS (k + 1)) = (s.ob (K.MBC_ERRORS (k + 1)) + 1) % 2 ^ 64) ∧
  (∀ s, ∀ k < 4, (s.mb k).mode = .run → (s.ob (K.MBC_SDO (k + 1))).testBit 7 = true →
     bits (s.ob (K.MBC_SDO (k + 1))) 6 0 ≠ 0 → s.inPair = false →
     (∀ d, d.length = 8 → bits (leAt d 0 1) 7 5 = 0 → (s.mb k).sdo = none → (s.mb k).rsp = [] →
       Completes (.sdoRequest k d) s fun t => ∃ b, (t.mb k).rsp = [b] ∧ leAt b 0 1 = 0x80 ∧ leAt b 4 4 = 0x05040001) ∧
     (∀ d, d.length = 8 → bits (leAt d 0 1) 7 5 = 4 → Completes (.sdoRequest k d) s fun t =>
       (t.mb k).sdo = none ∧ (t.mb k).rsp = (s.mb k).rsp) ∧
     (∀ x, (s.mb k).sdo = some x → Completes (.sdoTimeout k) s fun t => (t.mb k).sdo = none))

/-! ### The DMA engine -/

/-- R421 to R425: each accepted command takes the channel to the state that its rule names; at a MOVE, a STOP is taken
at once or where the MOVE ends, and a pause that drains may meet an error. -/
def Obligations.DmaCommands : Prop :=
  ∀ s n, ∀ c < 32,
    (Takes s n (K.DMA_CMD (c + 1)) 1 → Completes (.dmaStart n c) s fun t =>
      (t.ch c).st = .running ∧ (t.ch c).pc = s.ob (K.DMA_PROG (c + 1)) ∧ (t.ch c).sp = 0 ∧ (t.ch c).dp = 0 ∧
        (t.ch c).rem = 0 ∧ (t.ch c).err = 0 ∧ t.ob (K.DMA_MOVES (c + 1)) = 0 ∧
        (t.ch c).rd = (s.ses n).bdrRead ∧ (t.ch c).wr = (s.ses n).bdrWrite) ∧
    (Takes s n (K.DMA_CMD (c + 1)) 2 →
      ((s.ch c).st = .running → (s.ch c).fin = .none → (s.ch c).rem = 0 → s.dmaAtMove c = false →
        Completes (.dmaStop n c) s fun t => (t.ch c).st = .stopped) ∧
      ((s.ch c).st = .running → Completes (.dmaStop n c) s fun t =>
        (t.ch c).st = .stopped ∨ ((t.ch c).st = .running ∧ (t.ch c).stopReq = true)) ∧
      ((s.ch c).st = .waiting ∨ (s.ch c).st = .paused → Completes (.dmaStop n c) s fun t => (t.ch c).st = .stopped) ∧
      ((s.ch c).st = .done → Completes (.dmaStop n c) s fun t => (t.ch c).st = .done ∧ (t.ch c).abortIgn = true)) ∧
    (Takes s n (K.DMA_CMD (c + 1)) 3 → Completes (.dmaPause n c) s fun t => (t.ch c).st = .pausing) ∧
    (Takes s n (K.DMA_CMD (c + 1)) 4 → (s.ch c).waitPaused = false → (s.ch c).errCode ≠ dmTimeout →
      Completes (.dmaResume n c) s fun t => (t.ch c).st = .running ∧ (t.ch c).pc = (s.ch c).pc ∧ (t.ch c).sp = (s.ch c).sp ∧
        (t.ch c).dp = (s.ch c).dp ∧ (t.ch c).rem = (s.ch c).rem) ∧
    (Takes s n (K.DMA_CMD (c + 1)) 5 → (s.ch c).st ≠ .done → Completes (.dmaAbort n c) s fun t =>
      (t.ch c).st = .halted ∧ (t.ch c).errCode = dmAborted) ∧
    (Takes s n (K.DMA_CMD (c + 1)) 6 → Completes (.dmaClear n c) s fun t => (t.ch c).st = .idle) ∧
    ((s.ch c).st = .pausing → (s.ch c).fin = .none → (s.ch c).stopReq = false →
      (s.dmaAtMove c = false → Completes (.dmaPauseDrained c) s fun t => (t.ch c).st = .paused) ∧
      (s.dmaAtMove c = true → Completes (.dmaPauseDrained c) s fun t =>
        (t.ch c).st = .paused ∨ ((t.ch c).st = .halted ∧ (t.ch c).errCode ≠ 0)))

/-- Channel c issues an instruction: it runs, domain DM is on, and the bytes at its PC are the instruction, with no double-bit
error. -/
def DmaIssues (s : State) (c : Nat) (i : DmaIns) : Prop :=
  (s.ch c).ready = true ∧ s.domOn dDM = true ∧ s.dmaFetch c = some i ∧ s.dmaFetchEcc c = false ∧ (s.ch c).stopReq = false

/-- R414, R418, R426: a MOVE of one access of any width from Headland memory to its global data copies the bytes,
changes no other byte, steps SP and DP as its instruction says, and goes on; a misaligned source halts the channel
with ALIGN before any byte is written. R415, R416, R417: LOOP counts down and goes back or on; WAIT waits, a flag or a
time releases it, and its TIMEOUT halts it where that comes first; FENCE, SIGNAL and END complete at their read-back;
an event flag set by a session releases who waits for it or stays set. -/
def Obligations.DmaPrograms : Prop :=
  (∀ s c w a b ss ds, c < 32 → w ∈ [1, 2, 4, 8, 16] → DmaIssues s c (.move w w false false w a b ss ds) →
     (s.ch c).rem = 0 → s.domMem dHC = true → 0x20000000 ≤ a → a + w ≤ 0x21000000 → 0x20200000 ≤ b → b + w ≤ 0x21000000 →
     b % w = 0 →
     (a % w = 0 → s.eccOf (mHead + (a - 0x20000000)) w ≠ 2 →
       Completes (.dmaMove c) s fun t =>
         (∀ i < w, t.byte (mHead + (b - 0x20000000) + i) = s.byte (mHead + (a - 0x20000000) + i)) ∧
           (∀ k, (k < mHead + (b - 0x20000000) ∨ mHead + (b - 0x20000000) + w ≤ k) → t.byte k = s.byte k) ∧
           (t.ch c).sp = addS a ss ∧ (t.ch c).dp = addS b ds ∧ (t.ch c).rem = 0 ∧ (t.ch c).pc = (s.ch c).pc + 24 ∧
           (t.ch c).st = .running) ∧
     (a % w ≠ 0 → Completes (.dmaMove c) s fun t =>
       (t.ch c).st = .halted ∧ (t.ch c).errCode = dmAlign ∧ ∀ k, t.byte k = s.byte k)) ∧
  ((∀ s c back n sa da, c < 32 → DmaIssues s c (.loop 0 back n sa da) → s.ob (K.DMA_PROG (c + 1)) + back ≤ (s.ch c).pc →
     Completes (.dmaLoop c) s fun t =>
     (t.ch c).lc0 = (if (s.ch c).lc0 = 0 then n else (s.ch c).lc0) - 1 ∧
       (t.ch c).pc = if (t.ch c).lc0 = 0 then (s.ch c).pc + 16 else (s.ch c).pc - back) ∧
   (∀ s c kind arg lim at_, c < 32 → DmaIssues s c (.wait kind arg lim at_) → kind ≠ 0 → Completes (.dmaWait c) s fun t =>
     (t.ch c).st = .waiting ∧ (t.ch c).pc = (s.ch c).pc) ∧
   (∀ s c kind arg lim at_, c < 32 → (s.ch c).st = .waiting → s.dmaWaitOf c = some (kind, arg, lim, at_) →
     (kind = 2 → (lim = 0 ∨ at_.toNat + s.ntm.mono ≤ (s.ch c).waitMono + lim * 1000 + s.ns) →
       Completes (.dmaWaitRelease c) s fun t => (t.ch c).st = .running ∧ (t.ch c).pc = (s.ch c).pc + 16) ∧
     (kind = 2 → lim ≠ 0 → (s.ch c).waitMono + lim * 1000 + s.ns < at_.toNat + s.ntm.mono →
       Completes (.dmaWaitTimeout c) s fun t => (t.ch c).st = .halted ∧ (t.ch c).errCode = dmTimeout) ∧
     (kind = 0 → arg < 32 → (lim = 0 ∨ s.ntm.mono ≤ (s.ch c).waitMono + lim * 1000) →
       (s.ob K.DMA_EVENTS).testBit arg = true → Completes (.dmaWaitRelease c) s fun t =>
       (t.ch c).st = .running ∧ (t.ch c).pc = (s.ch c).pc + 16 ∧ (t.ob K.DMA_EVENTS).testBit arg = false) ∧
     (kind < 2 → lim ≠ 0 → Completes (.dmaWaitTimeout c) s fun t => (t.ch c).st = .halted ∧ (t.ch c).errCode = dmTimeout ∧
       t.ob K.DMA_HALTS = (s.ob K.DMA_HALTS + 1) % 2 ^ 64)) ∧
   (∀ s c, c < 32 →
     (∀ n, DmaIssues s c (.signal n) → Completes (.dmaSignal c) s fun t => (t.ch c).fin = .signal n ∧ (t.ch c).st = .running) ∧
     (DmaIssues s c .fence → Completes (.dmaFence c) s fun t => (t.ch c).fin = .fence ∧ (t.ch c).st = .running) ∧
     (DmaIssues s c .fin → Completes (.dmaEnd c) s fun t => (t.ch c).fin = .fin ∧ (t.ch c).st = .running) ∧
     ((s.ch c).st = .running → (s.ch c).stopReq = false →
       ((s.ch c).fin = .fin → Completes (.dmaReadbackDone c) s fun t => (t.ch c).st = .done ∧ (t.ch c).fin = .none) ∧
       ((s.ch c).fin = .fence → Completes (.dmaReadbackDone c) s fun t =>
         (t.ch c).st = .running ∧ (t.ch c).fin = .none ∧ (t.ch c).pc = (s.ch c).pc + 8)) ∧
     ((s.ch c).st = .pausing → (s.ch c).stopReq = true → (s.ch c).fin = .fin → Completes (.dmaReadbackDone c) s fun t =>
       (t.ch c).st = .stopped) ∧
     ((s.ch c).st = .pausing → (s.ch c).stopReq = false → (s.ch c).fin = .fence → Completes (.dmaReadbackDone c) s fun t =>
       (t.ch c).st = .paused ∧ (t.ch c).pc = (s.ch c).pc + 8)) ∧
   (∀ s n e, e < 32 → Takes s n K.DMA_EVENT_SET (2 ^ e) → (∀ c < 32, s.dmaWaits c 0 e = false) →
     Completes (.dmaEventSet n (2 ^ e)) s fun t => (t.ob K.DMA_EVENTS).testBit e = true))

/-! ### Bedrock -/

/-- R438, R439, R440: BEGIN gives the session the transaction, COMMIT marks a journal slot that holds what it staged,
DISCARD ends it, and a marked slot's bytes reach their places before its mark is cleared. R433, R434, R437, R445:
UNLOCK opens a region to its session and LOCK closes regions again; the end of a lockout clears its count; INHIBIT
follows its pin; the wear counts are saved as a transaction of the device's own, unless INHIBIT holds. R442, R443,
R444: where no commit is being applied, a read of a dual-copy record captures the copy that the read rule chooses, and
a write goes to the other copy, which is then valid and holds the data. -/
def Obligations.BedrockWrites : Prop :=
  ((∀ s n,
     (Takes s n K.BDR_TXN 1 → Completes (.bdrTxnBegin n) s fun t =>
       t.bdr.owner = some n ∧ t.bdr.staged = [] ∧ t.bdr.failed = false) ∧
     (Takes s n K.BDR_TXN 2 → Completes (.bdrTxnCommit n) s fun t =>
       t.bdr.owner = none ∧ t.bdr.staged = [] ∧ t.bdr.next = (s.bdr.next + 1) % 8 ∧
         t.slot s.bdr.next = { marked := true, used := true, bytes := s.bdr.staged }) ∧
     (Takes s n K.BDR_TXN 3 → Completes (.bdrTxnDiscard n) s fun t => t.bdr.owner = none ∧ t.bdr.slots = s.bdr.slots)) ∧
   (∀ s k, s.applying = some k → mwf (fun _ => none) (s.slot k).bytes = true → Completes .bdrCommitApplied s fun t =>
     t.slot k = Slot.init ∧ t.ob K.BDR_TXN_COMMITS = (s.ob K.BDR_TXN_COMMITS + 1) % 2 ^ 64 ∧
       ∀ a, t.byte a = if a < mBed then s.byte a else (mget (fun _ => none) (s.slot k).bytes (a - mBed)).getD (s.byte a))) ∧
  ((∀ s n v,
     (Takes s n K.BDR_UNLOCK v → Completes (.bdrUnlock n v) s fun t =>
       (if (s.valueOf K.BDR_UNLOCK v).testBit 39 then (t.ses n).bdrWrite else (t.ses n).bdrRead).testBit
         (bits (s.valueOf K.BDR_UNLOCK v) 34 32) = true) ∧
     (Takes s n K.BDR_LOCK v → Completes (.bdrLock n v) s fun t => ∀ r < 7,
       (t.ses n).bdrRead.testBit r = ((s.ses n).bdrRead.testBit r && !(s.valueOf K.BDR_LOCK v).testBit r) ∧
         (t.ses n).bdrWrite.testBit r = ((s.ses n).bdrWrite.testBit r && !(s.valueOf K.BDR_LOCK v).testBit (8 + r)))) ∧
   (∀ s r, (s.regionPath r).locked = true → Completes (.regionLockoutEnd r) s fun t => t.regionPath r = Path.init) ∧
   (∀ s b, Completes (.inhibitChange b) s fun t => t = { s with bdr := { s.bdr with inhibit := b } }) ∧
   (∀ s, s.domOn dNV = true →
     (s.bdr.inhibit = false → Completes .wearSave s fun t => t.bdr.wearSaved = t.bdr.wear ∧ t.applying = none ∧
       (s.applying = none → t.bdr.next = (s.bdr.next + 1) % 8 ∧
         t.ob K.BDR_TXN_COMMITS = (s.ob K.BDR_TXN_COMMITS + 1) % 2 ^ 64)) ∧
     (s.bdr.inhibit = true → Completes .wearSave s fun t => t.bdr.wearSaved = s.bdr.wearSaved ∧
       t.ob K.BDR_INHIBITED = (s.ob K.BDR_INHIBITED + 1) % 2 ^ 64))) ∧
  (∀ s n v a b, s.applying = none → v = s.ob (K.BDR_REC_DESC ((s.ses n).recSel + 1)) → a = s.readCopy (descA v) → b = s.readCopy (descB v) →
     (Opens s n K.BDR_REC_DATA →
       ((chooseCopy a b).1 = 1 → Completes (.recDataRead n) s fun t =>
         ∃ x, (t.ses n).dom = some x ∧ x.cap = some a.data) ∧
       ((chooseCopy a b).1 = 2 → Completes (.recDataRead n) s fun t =>
         ∃ x, (t.ses n).dom = some x ∧ x.cap = some b.data)) ∧
     ∀ data, Delivers s n K.BDR_REC_DATA data → data.length = 4 * descWords v → descWords v ≤ 1020 →
       ((chooseCopy a b).1 = 1 → Completes (.recDataWrite n data) s fun t =>
         t.readCopy (descB v) = { valid := true, seq := (a.seq + 1) % 2 ^ 32, data := data }) ∧
       ((chooseCopy a b).1 = 0 → Completes (.recDataWrite n data) s fun t =>
         t.readCopy (descA v) = { valid := true, seq := 1, data := data }))

/-! ### The calendar and the reserve cell -/

/-- R454, R455: the date that the converter gives for any count the calendar can hold gives back that count. -/
def Obligations.ConverterInverse : Prop :=
  ∀ c ≤ calMax, dateTicks (ticksDate c) = (c : Int)

/-- R451, R452, R453, R454, R455, R457, R458: a tick takes exactly one update of the count; writes of COUNT and SHIFT
wait for it; the armed alarms that the count then has reached fire at it, once; the converter gives ticks for a date
and a date for ticks. R453, R460, R463, R466: SUPPLY_ON asserts the supply at once and SUPPLY_OFF waits for the tick,
which an assertion beats; WAKE asserts it, counts, and ends SLEEP with a package reset of its own cause; a loss of
backup power ends a test; power-up of BK starts the count anew. -/
def Obligations.CalendarAndSupply : Prop :=
  ((∀ s,
     (∀ v, s.cal.wr = some v → Completes .calTick s fun t => t.cal.count = v ∧ t.cal.wr = none ∧ t.cal.valid = true ∧
       t.cal.shift = 0) ∧
     (s.cal.wr = none → s.cal.shift = 0 → Completes .calTick s fun t => t.cal.count = min calMax (s.cal.count + 1)) ∧
     (s.cal.wr = none → 0 < s.cal.shift → s.cal.shiftPhase = 7 → Completes .calTick s fun t =>
       t.cal.count = min calMax (s.cal.count + 2) ∧ t.cal.shift = s.cal.shift - 1) ∧
     (s.cal.wr = none → s.cal.shift < 0 → s.cal.shiftPhase = 7 → Completes .calTick s fun t =>
       t.cal.count = s.cal.count ∧ t.cal.shift = s.cal.shift + 1) ∧
     (∀ k < 2, s.alarmReached s.cal.update.count k = false → Completes .calTick s fun t =>
       t.ob (K.CAL_ALARM_CTL (k + 1)) = s.ob (K.CAL_ALARM_CTL (k + 1))) ∧
     (s.cal.shift = 0 → s.cal.shiftPhase = 8 → Completes .shiftEnd s fun t => t.cal.shifting = false) ∧
     (s.cal.count = calMax → s.cal.end_ = false → Completes .calEnd s fun t => t.cal.end_ = true)) ∧
   (∀ s n v,
     (Takes s n K.CAL_COUNT v → Completes (.calCountWrite n v) s fun t =>
       t.cal.wr = some (s.valueOf K.CAL_COUNT v) ∧ t.cal.count = s.cal.count) ∧
     (Takes s n K.CAL_SHIFT v → s.valueOf K.CAL_SHIFT v ≠ 0 → Completes (.calShiftWrite n v) s fun t =>
       t.cal.shift = toS 16 (s.valueOf K.CAL_SHIFT v)) ∧
     (Takes s n K.CAL_CONV_DATE v → Completes (.convDateWrite n v) s fun t =>
       (t.ses n).convTicks = (dateTicks (s.valueOf K.CAL_CONV_DATE v)).toNat) ∧
     (Takes s n K.CAL_CONV_TICKS v → Completes (.convTicksWrite n v) s fun t =>
       (t.ses n).convDate = ticksDate (s.valueOf K.CAL_CONV_TICKS v))) ∧
   (∀ s n k v, k < 2 → Takes s n (K.CAL_ALARM_CTL (k + 1)) v → (s.valueOf (K.CAL_ALARM_CTL (k + 1)) v).testBit 0 = true →
     Completes (.alarmArm n k v) s fun t =>
       t.ob (K.CAL_ALARM_CTL (k + 1)) = s.valueOf (K.CAL_ALARM_CTL (k + 1)) v % 4) ∧
   (∀ s, ∀ k < 2, ∀ c ∈ [Instr.calTick, .alarmFire k], s.alarmReached s.cal.update.count k = true → s.pwr.sleeping = false →
     Completes c s fun t => t.cal.count = s.cal.update.count ∧
       (t.ob (K.CAL_ALARM_CTL (k + 1))).testBit 0 = false ∧ (t.ob (K.CAL_ALARM_CTL (k + 1))).testBit 2 = true ∧
       (t.ob (K.CAL_ALARM_CTL (k + 1))).testBit 3 = decide (t.cal.count ≠ s.ob (K.CAL_ALARM (k + 1))) ∧
       ((s.ob (K.CAL_ALARM_CTL (k + 1))).testBit 1 = true → t.cal.supply = true))) ∧
  ((∀ s n,
     (Takes s n K.CAL_CMD 1 → Completes (.calSupplyOn n) s fun t => t.cal.supply = true ∧ t.cal.asserted = true) ∧
     (Takes s n K.CAL_CMD 2 → Completes (.calSupplyOff n) s fun t => t.cal.supply = s.cal.supply ∧ t.cal.offReq = true)) ∧
   (∀ s, s.cal.offReq = true → s.cal.asserted = false →
     (∀ k < 2, bits (s.ob (K.CAL_ALARM_CTL (k + 1))) 1 0 ≠ 3) →
     Completes .calTick s fun t => t.cal.supply = false ∧ t.cal.offReq = false) ∧
   (∀ s,
     (s.pwr.sleeping = false → Completes .wake s fun t => t.cal.supply = true ∧
       t.ob K.CAL_WAKES = (s.ob K.CAL_WAKES + 1) % 2 ^ 64) ∧
     (s.pwr.sleeping = true → s.pwr.inReset = false → Completes .wake s fun t => t.cal.supply = true ∧
       t.pwr.inReset = true ∧ t.ob K.PWR_RESET_CAUSE = 2 ^ 5)) ∧
   (∀ s, Completes (.backupSupplyChange false) s (fun t => t.cal.onCell = true ∧ t.rsv.testing = false) ∧
     Completes (.backupSupplyChange true) s (fun t => t.cal.onCell = false ∧ t.rsv = s.rsv)) ∧
   (∀ s ident, Completes (.bkPowerUp ident) s fun t => t.cal = State.reset.cal ∧ t.rsv.memory = ident ∧
     t.rsv.present = decide (ident.length = 128)))

/-- R461, R462, R463: a test begins and counts, ends with the values it computes where they are plausible, or is
aborted; a reread takes up the identity; each minute adds stress, and each day saves it. -/
def Obligations.ReserveCell : Prop :=
  (∀ s n,
    (Takes s n K.RSV_CMD 1 → Completes (.rsvTest n) s fun t =>
      t.rsv.testing = true ∧ t.ob K.RSV_TESTS = (s.ob K.RSV_TESTS + 1) % 2 ^ 64) ∧
    (Takes s n K.RSV_CMD 2 → s.rsv.memory.length = 128 → Completes (.rsvReread n) s fun t =>
      t.rsv.present = true ∧ t.rsv.ident = s.rsv.memory)) ∧
  (∀ s, bits (s.ob K.RSV_TEST_CFG) 31 16 ≠ 0 → s.rsv.present = true → s.cal.onCell = false → s.rsv.testing = false →
    Completes .rsvTestInterval s fun t => t.rsv.testing = true) ∧
  (∀ s d1 d2 i e c, s.rsv.testing = true → i = bits (s.ob K.RSV_TEST_CFG) 15 0 → e = d1 / i → c = 990000 * i / d2 →
    (d2 ≠ 0 → plausible c s.rsv.capRated = true → plausible e s.rsv.esrRated = true → Completes (.rsvTestEnd d1 d2) s fun t =>
      t.rsv.testing = false ∧ t.rsv.last = 1 ∧ t.ob K.RSV_CAP = c ∧ t.ob K.RSV_ESR = e) ∧
    (plausible c s.rsv.capRated = false ∨ plausible e s.rsv.esrRated = false → Completes (.rsvTestEnd d1 d2) s fun t =>
      t.rsv.testing = false ∧ t.rsv.last = 3 ∧ t.ob K.RSV_CAP = s.ob K.RSV_CAP ∧ t.ob K.RSV_ESR = s.ob K.RSV_ESR)) ∧
  (∀ s, s.rsv.testing = true → Completes .rsvTestAbort s fun t => t.rsv.testing = false ∧ t.rsv.last = 2 ∧
    t.ob K.RSV_ABORTS = (s.ob K.RSV_ABORTS + 1) % 2 ^ 64) ∧
  (∀ s a v, s.rsv.present = true → Completes (.stressUpdate a v) s fun t => t.ob K.RSV_VOLT = ofS 16 v ∧
    t.rsv.stress = min (2 ^ 64 - 1) (s.rsv.stress + stressRate (s.rsv.stressExp a v))) ∧
  (∀ s, s.rsv.present = true → Completes .stressSave s fun t => t.rsv.stress = s.rsv.stress ∧
    t.rsv.best.hours = s.rsv.hours ∧ t.rsv.daily.getLast? = some s.rsv.stress)

/-! ### Watchdogs, check-in and clocks -/

/-- R469, R470, R471, R472, R474: an accepted write of a watchdog's registers restarts its count, and LOCK once set
with EN holds; a valid key in the open window restarts it and reads ACCEPTED, a wrong key counts and reads BADKEY; an
expiry counts, restarts the count, and asserts FAULT_N where POL says so. R475, R476: a watched clock that stops is
LOST and takes its watchdog's action, one that comes back is restored; a fabric clock's loss is noted for its die.
R477, R478, R479: a write of a task's period abandons the period in hand; an arrival counts for its task or is stray;
at a boundary each slot that ends with no arrival counts a miss and begins anew. -/
def Obligations.Supervision : Prop :=
  (∀ s n k v, k < 25 →
     (Takes s n (K.WDG_PERIOD (k + 1)) v → Completes (.wdgCfgWrite n k true v) s fun t =>
       t.ob (K.WDG_PERIOD (k + 1)) = s.valueOf (K.WDG_PERIOD (k + 1)) v ∧ (s.wdgEn k = true → t.wdgCount k = 0)) ∧
     (Takes s n (K.WDG_CFG (k + 1)) v → Completes (.wdgCfgWrite n k false v) s fun t =>
       t.wdgCount k = 0 ∧
       (s.wdgEn k = false ∨ (s.wdgCfg k).testBit 3 = false → t.ob (K.WDG_CFG (k + 1)) = s.valueOf (K.WDG_CFG (k + 1)) v) ∧
       (s.wdgEn k = true → (s.wdgCfg k).testBit 3 = true → (t.wdgCfg k).testBit 3 = true)) ∧
     (Takes s n (K.WDG_KEY (k + 1)) v → s.txnWaiting = [] →
       (s.valueOf (K.WDG_KEY (k + 1)) v = 0xA5C3 → s.wdgOpen k = true → Completes (.wdgKey n k v) s fun t =>
         t.wdgCount k = 0 ∧ (t.wd k).last = 1) ∧
       (s.valueOf (K.WDG_KEY (k + 1)) v ≠ 0xA5C3 → (s.wdgCfg k).testBit 4 = false → Completes (.wdgKey n k v) s fun t =>
         (t.wd k).last = 3 ∧ t.ob (K.WDG_BADKEY (k + 1)) = (s.ob (K.WDG_BADKEY (k + 1)) + 1) % 2 ^ 64)) ∧
     (s.wdgWatched k = true → s.wdgEn k = true → (s.wd k).lost = false → s.wdgPol k ≤ 1 → s.txnWaiting = [] →
       Completes (.wdgExpiry k) s fun t =>
       t.ob (K.WDG_EXPIRIES (k + 1)) = (s.ob (K.WDG_EXPIRIES (k + 1)) + 1) % 2 ^ 64 ∧ (t.wd k).last = 5 ∧ t.wdgCount k = 0 ∧
         (s.wdgPol k = 1 → t.flt.out = true))) ∧
  ((∀ s k, s.wdgWatched k = true → s.wdgPol k ≤ 1 →
     ((s.wd k).lost = false → s.txnWaiting = [] → Completes (.clockLoss k) s fun t => (t.wd k).lost = true ∧
       t.ob (K.WDG_EXPIRIES (k + 1)) = (s.ob (K.WDG_EXPIRIES (k + 1)) + 1) % 2 ^ 64) ∧
     ((s.wd k).lost = true → Completes (.clockRestored k) s fun t => (t.wd k).lost = false ∧ t.flt.queue.length =
       s.flt.queue.length + 1)) ∧
   (∀ s d, d < 8 → s.fabricWatched (0x20 + d) = true →
     (s.txnWaiting = [] → Completes (.clockLoss (0x20 + d)) s fun t => t.pwr.fabricLost.testBit d = true) ∧
     Completes (.clockRestored (0x20 + d)) s (fun t => t.pwr.fabricLost.testBit d = false))) ∧
  ((∀ s n k v, 1 ≤ k → k < 256 → Takes s n (K.WDG_CHK_PERIOD k) v → Completes (.chkPeriodWrite n k v) s fun t =>
     t.chkPeriod k = s.valueOf (K.WDG_CHK_PERIOD k) v ∧ mget (fun _ => 0) t.chk.count k = 0) ∧
   (∀ s k d l, s.chk.queue = (k, d) :: l →
     (k ≠ 0 → s.chkPeriod k ≠ 0 → (∀ d, s.chkDue = some d → s.us < d) → Completes .checkinArrival s fun t => t.chk.queue = l ∧
       mget (fun _ => 0) t.chk.count k = mget (fun _ => 0) s.chk.count k + 1) ∧
     (k = 0 ∨ s.chkPeriod k = 0 → Completes .checkinArrival s fun t => t.chk.queue = l ∧ t.chk.count = s.chk.count ∧
       t.ob K.WDG_CHK_STRAY = (s.ob K.WDG_CHK_STRAY + 1) % 2 ^ 64)) ∧
   (∀ s d, s.chkDue = some d → s.ntm.steps = [] → d * 1000 < 2 ^ 64 → s.clockNs + d * 1000 < nsWrap →
     (d ≤ s.us ∨ s.ns < d * 1000) → mwf (fun _ => 0) s.chk.due = true →
     (∀ e ∈ s.chk.due, e.1 < 256) → (s.ob K.WDG_CHK_CFG).testBit 0 = false → Completes .checkinPeriodEnd s fun t =>
       ∀ e ∈ s.chk.due, e.2 = d → mget (fun _ => 0) t.chk.count e.1 = 0 ∧
         (mget (fun _ => 0) s.chk.count e.1 = 0 →
           t.ob (K.WDG_CHK_MISSES e.1) = (s.ob (K.WDG_CHK_MISSES e.1) + 1) % 2 ^ 64)))

/-! ### The fault collector -/

/-- R483, R484, R486: the collector takes the record at the front: one that meets an open fold of its class and key
joins it, and one that meets none opens a fold; a fold closes at its instant. R15, R489, R491, R492: the gap's end
makes what waited as one notification; CLEAR_OUT releases FAULT_N (which an assertion of the same clock keeps), FLUSH
closes every open fold, RAISE sends a record of its class; a die's link goes down and comes up with a record. -/
def Obligations.FaultCollector : Prop :=
  ((∀ s r l f, s.flt.queue = r :: l → s.txnWaiting = [] → (∀ g ∈ s.openFolds, s.ns < g.close) → r.cls < 256 →
     s.openFolds.find? (fun g => decide (g.cls = r.cls) && decide (g.key = r.key)) = some f →
     Completes .rawRecord s fun t => t.flt.queue = l ∧ f.join r s.ns ∈ t.flt.log ∧
       t.ob K.FLT_RECORDS = (s.ob K.FLT_RECORDS + 1) % 2 ^ 64 ∧ t.ob K.FLT_FOLDED = (s.ob K.FLT_FOLDED + 1) % 2 ^ 64) ∧
   (∀ s r l, s.flt.queue = r :: l → s.openFolds = [] → r.cls < 256 → s.txnWaiting = [] → s.ob (K.FLT_POLICY r.cls) = 0 →
     s.ob K.FLT_FOLD_WINDOW ≠ 0 → Completes .rawRecord s fun t => t.flt.queue = l ∧
       ∃ f m, t.flt.log = f :: m ∧ f.cls = r.cls ∧ f.key = r.key ∧ f.count = 1 ∧ f.isOpen = true ∧ f.first = s.ns ∧
         f.seq = (s.ob K.FLT_LOG_SEQ + 1) % 2 ^ 32 ∧ t.ob K.FLT_LOG_SEQ = f.seq) ∧
   (∀ s f, s.openFolds = [f] → s.ntm.steps = [] → s.ns < f.close → f.close < 2 ^ 64 → s.clockNs + f.close < nsWrap →
     Completes .foldClose s fun t =>
     ∀ g ∈ t.flt.log, g.isOpen = false)) ∧
  ((∀ s, s.flt.waiting ≠ 0 → Completes .notifyGapEnd s fun t => t.flt.waiting = 0 ∧
     t.flt.notified = some t.ntm.mono ∧ (t.ob K.TDS_KEVENTS).testBit 1 = true ∧
       t.ob K.FLT_NOTIFY_MERGED = (s.ob K.FLT_NOTIFY_MERGED + (s.flt.waiting - 1)) % 2 ^ 64) ∧
   (∀ s n,
     (Takes s n K.FLT_CMD 1 → Completes (.fltClearOut n) s fun t => t.flt.log = s.flt.log ∧
       t.flt.out = (s.flt.out && s.inClock s.flt.outAt) ∧ t.flt.outKept = t.flt.out ∧ (s.flt.outAt = none → t.flt.out = false)) ∧
     (Takes s n K.FLT_CMD 2 → Completes (.fltFlush n) s fun t => ∀ g ∈ t.flt.log, g.isOpen = false) ∧
     (∀ v, Takes s n K.FLT_RAISE v → Completes (.fltRaise n v) s fun t => ∃ r, t.flt.queue = s.flt.queue ++ [r] ∧
       r.cls = bits (s.valueOf K.FLT_RAISE v) 39 32 ∧ r.detail = bits (s.valueOf K.FLT_RAISE v) 31 0 % 2 ^ 32)) ∧
   (∀ s d, s.dieLink d = true →
     (s.linkUp d = true → Completes (.linkDown d) s fun t => t.linkUp d = false ∧
       ∀ m, m ≠ d → t.linkUp m = s.linkUp m) ∧
     Completes (.dieLinkRetrained d) s (fun t => t.linkUp d = true)))

/-! ### Counters, Strata, tidemarks and health -/

/-- R499: at its end a bandwidth window gives its sums to the objects of every port, a frame whose last byte has yet
to pass counting in the next, and a write of its length starts one anew. R500 to R506: a read of STA.RECORD captures
the cursor's record and moves the cursor past it; FREEZE stops recording, THAW and the end of STA.FREEZE_MAX resume
it; a sample raised by software opens a record of its class. R507, R509, R512: a tidemark fired by software, by TMK_IN
or by time begins a snapshot where none collects; an island's section and a die's acknowledgement enter it; released
buffers are free; TMK_OUT ends. -/
def Obligations.Observation : Prop :=
  ((∀ s d, s.pmc.bw.due = d → s.ntm.steps = [] → d * 1000 < 2 ^ 64 → s.clockNs + d * 1000 < nsWrap →
     (d ≤ s.us ∨ s.ns < d * 1000) → Completes .bwWindowEnd s fun t =>
     t.ob K.PMC_BW_END = d ∧ t.pmc.bw.rx = [] ∧ t.pmc.bw.sent = s.pmc.bw.sent.filter (fun e => decide (d ≤ e.1)) ∧
       ∀ p < 18, t.ob (K.PMC_BW_RX (p + 1)) = mget (fun _ => 0) s.pmc.bw.rx p ∧
         t.ob (K.PMC_BW_TX (p + 1)) = s.pmc.bw.txBefore d p) ∧
   (∀ s n v, Takes s n K.PMC_BW_WINDOW v → Completes (.bwWindowWrite n v) s fun t =>
     t.ob K.PMC_BW_WINDOW = s.valueOf K.PMC_BW_WINDOW v ∧ t.pmc.bw.rx = [] ∧
       (∀ e ∈ t.pmc.bw.sent, s.us ≤ e.1) ∧
       t.pmc.bw.due = nextMultiple (s.valueOf K.PMC_BW_WINDOW v) s.us)) ∧
  ((∀ s n r, Opens s n K.STA_RECORD → s.strataAt (s.ses n).cursor = some r → Completes (.staRecordRead n) s fun t =>
     (t.ses n).cursor = (r.seq + 1) % 2 ^ 32 ∧ ∃ x, (t.ses n).dom = some x ∧ x.cap = some r.bytes) ∧
   (∀ s n,
     (Takes s n K.STA_CMD 1 → Completes (.staFreeze n) s fun t => t.sta.frozen = true ∧ t.sta.recs = s.sta.recs) ∧
     (Takes s n K.STA_CMD 2 → Completes (.staThaw n) s fun t => t.sta.frozen = false) ∧
     (∀ v, Takes s n K.STA_RAISE v → (s.ob (K.STA_GROUP_CFG 7)).testBit 31 = true → s.sta.frozen = false →
       (s.ses n).raiseClass < 256 → s.newestRec (0x600 + (s.ses n).raiseClass) 0 = none → Completes (.staRaise n v) s fun t =>
         ∃ r l, t.sta.recs = r :: l ∧ r.cls = 0x600 + (s.ses n).raiseClass ∧ r.count = 1 ∧
           r.min = toS 64 (s.valueOf K.STA_RAISE v) ∧ r.max = r.min ∧ t.sta.newest = (s.sta.newest + 1) % 2 ^ 32)) ∧
   (∀ s, s.sta.frozen = true → Completes .freezeMaxExpiry s fun t => t.sta.frozen = false ∧ t.sta.expired = true)) ∧
  ((∀ s, s.snp.busy = none → (s.ob K.SNP_CFG).testBit 2 = false →
     (∀ n, Takes s n K.SNP_CMD 1 → Completes (.snpFire n) s fun t => t.snp.busy = some s.lowBuf ∧
       t.ob K.SNP_FIRED = (s.ob K.SNP_FIRED + 1) % 2 ^ 64 ∧ t.ob K.SNP_SEQ = (s.ob K.SNP_SEQ + 1) % 2 ^ 32) ∧
     ((s.ob K.SNP_CFG).testBit 0 = true → Completes .tmkInEdge s fun t => t.snp.busy = some s.lowBuf ∧
       t.ob K.SNP_FIRED = (s.ob K.SNP_FIRED + 1) % 2 ^ 64) ∧
     (s.ob K.SNP_AT ≠ 0 → s.ntm.steps = [] → s.ob K.SNP_AT < 2 ^ 64 → s.clockNs + s.ob K.SNP_AT < nsWrap →
       Completes .snpAtReached s fun t => t.snp.busy = some s.lowBuf ∧
       t.ob K.SNP_AT = 0 ∧ t.ob K.SNP_FIRED = (s.ob K.SNP_FIRED + 1) % 2 ^ 64)) ∧
   (∀ s b x d, s.snp.busy = some b → s.snap b = some x → x.waits d = true → s.linkUp d = true →
     (∀ i, (x.sections.any fun c => decide (c.die = d) && decide (c.island = i)) = false → Completes (.tidemarkLatch d i) s
       fun t => ∃ y c, t.snap b = some y ∧ y.sections = x.sections ++ [c] ∧ c.die = d ∧ c.island = i) ∧
     Completes (.tidemarkAck d) s (fun t => ∃ y, t.snap b = some y ∧ y.acked.testBit d = true ∧
       (y.held = true ↔ t.snp.busy = none ∨ x.held = true))) ∧
   (∀ s n,
     (∀ b, Takes s n K.SNP_CMD 2 → s.bufOf (s.ses n).snpSel = some b → Completes (.snpRelease n) s fun t =>
       t.snap b = none ∧ ∀ c, c ≠ b → t.snap c = s.snap c) ∧
     (Takes s n K.SNP_CMD 3 → Completes (.snpReleaseAll n) s fun t => ∀ b < 4, ∀ x, t.snap b = some x → x.held = false)) ∧
   (∀ s, Completes .tmkOutEnd s fun t => t = { s with snp := { s.snp with tmkOut := false } }))

/-- R501, R513, R514, R515: temperatures, ages and days are taken for every fitted die whose domain is on; a test that
is accepted runs, and each slice counts down, passes at the last one, or ends the test with the address that failed.
-/
def Obligations.HealthMonitor : Prop :=
  (∀ s l d, d ∈ s.livedDies → Completes (.tempSample l) s fun t => t.ob (K.HLT_TEMP (d + 1)) = ofS 32 (l.getD d 0)) ∧
  (∀ s l d, d ∈ s.livedDies → Completes (.ageMeasure l) s fun t => t.ob (K.HLT_AGE (d + 1)) = l.getD d 0) ∧
  (∀ s d, d ∈ s.livedDies → Completes .lifeSample s fun t =>
    (mget (fun _ => []) t.hlt.ages (d + 1)).head? = some (s.ob (K.HLT_AGE (d + 1))) ∧
      t.hlt.wearDays.head? = some s.wearTop.2) ∧
  (∀ s n v u, u = s.valueOf K.HLT_TEST_REQ v → Takes s n K.HLT_TEST_REQ v → Completes (.hltTestReq n v) s fun t =>
    t.hlt.running = true ∧ t.hlt.kind = bits u 15 8 ∧ t.hlt.target = bits u 7 0) ∧
  (∀ s, s.hlt.running = true → s.sliceFits = true → s.domOn (dieDomain s.hlt.target) = true →
    (s.hlt.kind ≠ 3 ∨ s.olc.st = .idle) →
    (1 < s.hlt.left → Completes (.healthTestSlice none) s fun t => t.hlt.running = true ∧ t.hlt.left = s.hlt.left - 1) ∧
    (s.hlt.left ≤ 1 → Completes (.healthTestSlice none) s fun t => t.hlt.running = false ∧ t.hlt.result = 1) ∧
    ∀ a, Completes (.healthTestSlice (some a)) s fun t => t.hlt.running = false ∧ t.hlt.result = 2 ∧
      (s.hlt.kind = 1 → t.ob K.HLT_TEST_FADDR = a % 2 ^ 32))

/-! ### Power, clocks and resets -/

/-- R522, R523: OFF of a domain that is ON drains it, and it then goes off once the channels concerned have drained
and the writes accepted before are made; a drain that does not end is refused with DRAIN; ON of one that is off ramps
it up. R525, R527, R533, R534: outside a reset each source of a package reset asserts it and leaves its own bit in
PWR.RESET_CAUSE; a reset keeps the bytes of Bedrock and of the tidemark buffers, the calendar and the reserve cell,
and stops the tide; a power-up of AO, which PORST_N and a brownout of VDD_AO are too, also clears the collector; SLEEP
goes down with the supply kept. R530, R531, R532, R557: a core clock takes its frequency; a loss of the reference or
of the port clock is noted, the port clock's takes every field, engineering and mooring link down, and each ends when
the clock is back. The debug port's IDCODE holds the part and the maker, and DEBUG_OFF leaves BYPASS and IDCODE. -/
def Obligations.PowerAndReset : Prop :=
  ((∀ s n d, d < 16 →
     (Takes s n (K.PWR_DOMAIN_CMD d) 2 → s.domSt d = .on → Completes (.pwrDomainOff n d) s fun t => t.domSt d = .draining ∧
       ∀ e, e ≠ d → t.domSt e = s.domSt e) ∧
     (Takes s n (K.PWR_DOMAIN_CMD d) 1 → s.domSt d = .off → Completes (.pwrDomainOn n d) s fun t => t.domSt d = .ramping)) ∧
   (∀ s d,
     (s.domSt d = .draining → s.pdDraining d = false → s.pdWrites d = false → Completes (.pdDrained d) s fun t => t.domSt d = .goingOff) ∧
     (s.domSt d = .draining → s.pdDraining d = true → Completes (.pdDrainTimeout d) s fun t => t.domSt d = .on ∧ t.pwrReason d = 8 ∧
       t.ob K.PWR_PD_REFUSALS = (s.ob K.PWR_PD_REFUSALS + 1) % 2 ^ 64) ∧
     (s.domSt d = .goingOff → Completes (.domainOffDone d) s fun t => t.domSt d = .off) ∧
     (s.domSt d = .ramping → Completes (.domainOnDone d) s fun t => t.domSt d = .on))) ∧
  (∀ s, s.pwr.inReset = false → s.applying = none →
     (∀ c k, (c, k) ∈ [(Instr.resetPin false, 1), (.debugReset, 6)] ++ (List.range 7).map (fun r => (.brownout (r + 1), 4)) →
       s.pwr.sleeping = false →
       s.str.fuses.testBit 3 = false → s.domOn dMB = true → Completes c s fun t =>
         t.pwr.inReset = true ∧ t.ob K.PWR_RESET_CAUSE = 2 ^ k ∧ t.cal = s.cal ∧ t.rsv = s.rsv ∧ t.tds.st = .stopped ∧
           ∀ a, a / 2 ^ 32 = 0x51 ∨ s.inSnapshots a = true → t.byte a = s.byte a) ∧
     (∀ n, Takes s n K.PWR_CMD 1 → Completes (.pwrReset n) s fun t =>
       t.pwr.inReset = true ∧ t.ob K.PWR_RESET_CAUSE = 2 ^ 3 ∧ t.cal = s.cal ∧ t.tds.st = .stopped) ∧
     (∀ n, Takes s n K.PWR_CMD 2 → Completes (.pwrSleep n) s fun t => t.pwr.sleeping = true ∧ t.cal = s.cal ∧
       ∀ d ∈ [dHC, dNV, dNW, dRL, dMB, dDM], t.domSt d = .off) ∧
     (∀ c ∈ [Instr.powerOn, .resetPin true, .brownout 0], Completes c s fun t =>
       t.pwr.inReset = true ∧ t.cal = s.cal ∧ t.flt = State.reset.flt ∧ ∀ a, a / 2 ^ 32 = 0x51 → t.byte a = s.byte a)) ∧
  ((∀ s n k v, 1 ≤ k → k ≤ 6 → Takes s n (K.PWR_CORE_FREQ k) v → Completes (.coreFreqWrite n k v) s fun t =>
     t.ob (K.PWR_CORE_FREQ k) = s.valueOf (K.PWR_CORE_FREQ k) v) ∧
   (∀ s, s.pwr.refLost = false → Completes .refclkLoss s fun t => t.pwr.refLost = true ∧
     t.ob K.PWR_REF_LOSSES = (s.ob K.PWR_REF_LOSSES + 1) % 2 ^ 64) ∧
   (∀ s, Completes .refclkRestored s fun t => t = { s with pwr := { s.pwr with refLost := false } }) ∧
   (∀ s, s.pwr.sdLost = false → Completes .sdclkLoss s fun t => t.pwr.sdLost = true ∧ t.hnw.up = 0 ∧ t.linkState 0 = 0 ∧
     t.linkState 1 = 0) ∧
   (∀ s, Completes .sdclkRestored s fun t => t = { s with pwr := { s.pwr with sdLost := false } }) ∧
   (∀ s : State, s.idcode % 2 = 1 ∧ bits s.idcode 11 1 = 0x2B6 ∧ bits s.idcode 27 12 = s.part.code % 2 ^ 16 ∧
     ∀ i, s.tapHas i = true ↔ s.str.fuses.testBit 3 = false ∨ i = .bypass ∨ i = .idcode))

/-! ### Frames -/

/-- What events leave alone: those of the calendar and the reserve cell change the calendar, the cell, objects and
fault records only, but for an alarm's trigger of R458; those of the message bus, of DMA programs, of Breakwater, of
the mooring links and the Lighthouse, of the watchdogs, of health, of the clocks and of Bedrock each only the parts
that the clause names. Where a clause does not name memory, no byte of it changes. What accepted commands leave alone:
one of the message bus, of Bedrock, of the calendar, of Strata or of Breakwater writes its result to its session and
otherwise changes its own block only. -/
def Obligations.EventAndCommandFrames : Prop :=
  ((∀ s t, s.pwr.sleeping = false → exec .calTick s = .next t →
     t = { s with cal := t.cal, objs := t.objs, tds := t.tds, red := t.red }) ∧
   (∀ s t, ∀ c ∈ [Instr.shiftEnd, .calEnd, .rsvTestInterval, .rsvTestAbort, .stressSave], exec c s = .next t →
     t = { s with cal := t.cal, rsv := t.rsv, objs := t.objs, flt := t.flt }) ∧
   (∀ s t a v, exec (.rsvTestEnd a v) s = .next t → t = { s with rsv := t.rsv, objs := t.objs, flt := t.flt }) ∧
   (∀ s t a v, exec (.stressUpdate a v) s = .next t → t = { s with rsv := t.rsv, objs := t.objs, flt := t.flt }) ∧
   (∀ s t k lec, ∀ c ∈ [Instr.busRecovered k, .canRxError k lec, .txStartOfFrame k], exec c s = .next t →
     t = { s with mbc := t.mbc, objs := t.objs, fresh := t.fresh }) ∧
   (∀ s t k, exec (.busIdleDetect k) s = .next t →
     t = { s with mbc := t.mbc, objs := t.objs, flt := t.flt, red := { s.red with sent := t.red.sent } }) ∧
   (∀ s t k, ∀ c ∈ [Instr.dmaLoop k, .dmaWait k, .dmaSignal k, .dmaFence k, .dmaEnd k], exec c s = .next t →
     t = { s with dma := t.dma, objs := t.objs, flt := t.flt }) ∧
   (∀ s t n b, ∀ c ∈ [Instr.fieldSupplyChange n b, .fieldConfigMessage n 0, .fieldRefresh, .fieldPark, .fieldRecover,
       .thermalShutdown n, .thermalRelease n], exec c s = .next t →
     t = { s with fio := t.fio, objs := t.objs, flt := t.flt }) ∧
   (∀ s t n, ∀ c ∈ [Instr.diagSettleEnd n, .ovlSwitchOff n, .ovlRetry n, .silenceExpiry], exec c s = .next t →
     t = { s with fio := t.fio, ntm := t.ntm, objs := t.objs, fresh := t.fresh }) ∧
   (∀ s t r, exec (.c1Status r) s = .next t → t = { s with fio := t.fio, objs := t.objs, flt := t.flt }) ∧
   (∀ s t, ∀ c ∈ [Instr.drillTimer, .returnHoldoffExpiry], exec c s = .next t →
     t = { s with red := t.red, ntm := t.ntm, objs := t.objs, fresh := t.fresh }) ∧
   (∀ s t l n tide, ∀ c ∈ [Instr.mooringStatusSend, .mooringLinkDown l, .mooringRetrain l n, .swapTokenReceive tide, .witnessStart, .witnessHbTimeout l, .witnessHbReturn l, .witnessClaimAccept l true, .witnessGrantDrive,
       .witnessFault], exec c s = .next t →
     t = { s with red := t.red, objs := t.objs, flt := t.flt }) ∧
   (∀ s t k, exec (.clockRestored k) s = .next t → t = { s with wdg := t.wdg, pwr := t.pwr, red := t.red, flt := t.flt }) ∧
   (∀ s t, exec .checkinArrival s = .next t → t = { s with chk := t.chk, objs := t.objs, doms := t.doms, flt := t.flt }) ∧
   (∀ s t, exec .freezeMaxExpiry s = .next t → t = { s with sta := t.sta, ntm := t.ntm, objs := t.objs, fresh := t.fresh }) ∧
   (∀ s t l, exec (.ageMeasure l) s = .next t →
     t = { s with objs := t.objs, str := t.str, bdr := t.bdr, mem := t.mem, fresh := t.fresh }) ∧
   (∀ s t l, exec (.tempSample l) s = .next t → t = { s with sta := t.sta, objs := t.objs }) ∧
   (∀ s t, exec .lifeSample s = .next t → t = { s with hlt := t.hlt, sta := t.sta, objs := t.objs }) ∧
   (∀ s t, ∀ c ∈ [Instr.refclkLoss, .refclkRestored, .sdclkRestored], exec c s = .next t → t = { s with pwr := t.pwr, objs := t.objs }) ∧
   (∀ s t, exec .sdclkLoss s = .next t → t = { s with pwr := t.pwr, hnw := t.hnw, red := t.red, flt := t.flt }) ∧
   (∀ s t d, ∀ c ∈ [Instr.pdDrainTimeout d, .domainOffDone d], exec c s = .next t →
     t = { s with pwr := t.pwr, dma := t.dma, ntm := t.ntm, objs := t.objs, fresh := t.fresh }) ∧
   (∀ s t, exec .wearSave s = .next t →
     t = { s with bdr := t.bdr, objs := t.objs, mem := t.mem, fresh := t.fresh }) ∧
   (∀ s t, exec .bdrCommitApplied s = .next t → t = { s with bdr := t.bdr, objs := t.objs, mem := t.mem })) ∧
  ((∀ s t n k, Takes s n (K.MBC_CMD (k + 1)) 1 → exec (.mbcStart n k) s = .next t → t = { s with sess := t.sess, mbc := t.mbc }) ∧
   (∀ s t n k, Takes s n (K.MBC_CMD (k + 1)) 4 → exec (.mbcUnlock n k) s = .next t → t = { s with sess := t.sess, mbc := t.mbc }) ∧
   (∀ s t n k v, Takes s n (K.MBC_TX_REQ (k + 1)) v → exec (.txReq n k v) s = .next t →
     t = { s with sess := t.sess, mbc := t.mbc }) ∧
   (∀ s t n, Takes s n K.BDR_TXN 1 → exec (.bdrTxnBegin n) s = .next t → t = { s with sess := t.sess, bdr := t.bdr }) ∧
   (∀ s t n v, Takes s n K.BDR_UNLOCK v → exec (.bdrUnlock n v) s = .next t → t = { s with sess := t.sess }) ∧
   (∀ s t n v, Takes s n K.BDR_LOCK v → exec (.bdrLock n v) s = .next t → t = { s with sess := t.sess }) ∧
   (∀ s t n v, Takes s n K.CAL_COUNT v → exec (.calCountWrite n v) s = .next t → t = { s with sess := t.sess, cal := t.cal }) ∧
   (∀ s t n, Takes s n K.CAL_CMD 1 → exec (.calSupplyOn n) s = .next t → t = { s with sess := t.sess, cal := t.cal }) ∧
   (∀ s t n, Takes s n K.STA_CMD 1 → exec (.staFreeze n) s = .next t → t = { s with sess := t.sess, sta := t.sta }) ∧
   (∀ s t n, Takes s n K.FLT_CMD 1 → exec (.fltClearOut n) s = .next t → t = { s with sess := t.sess, flt := t.flt }) ∧
   (∀ s t n, Takes s n K.FIO_CMD 3 → exec (.fioClearOvl n) s = .next t → t = { s with sess := t.sess, fio := t.fio }) ∧
   (∀ s t n c, Takes s n (K.DMA_CMD (c + 1)) 3 → exec (.dmaPause n c) s = .next t → t = { s with sess := t.sess, dma := t.dma }))

/-! ### The machine as a whole -/

/-- A step takes the command at the front of the queue and runs it with the queue's rest. -/
def Obligations.StepRunsFrontCommand : Prop :=
  ∀ c s, step (s.withPending c) = exec c s

/-- R301, R302, R305, and the model's choice of log entry 1 that an empty queue is a tick: with no command waiting, a
step adds NTM.INCR to the fraction and the nanoseconds and 4 ns to elapsed time, and then an accepted step of the
clock, which is counted; it changes no memory. -/
def Obligations.IdleStepTicks : Prop :=
  ∀ s, s.pending = [] →
    (s.ntm.steps = [] → ∃ t, step s = .next t ∧ t.pending = [] ∧ t.mem = s.mem ∧ t.ntm.mono = s.ntm.mono + 4 ∧
      t.clockNs * 2 ^ 32 + t.ntm.frac =
        (s.clockNs * 2 ^ 32 + s.ntm.frac + s.ob K.NTM_INCR) % (nsWrap * 2 ^ 32)) ∧
    (∀ v, s.ntm.steps = [v] → ∃ t, step s = .next t ∧ t.mem = s.mem ∧ t.ntm.steps = [] ∧ t.ntm.mono = s.ntm.mono + 4 ∧
      t.ntm.frac = (s.ntm.frac + s.ob K.NTM_INCR) % 2 ^ 32 ∧
      (t.clockNs : Int) = (s.clockNs + (s.ntm.frac + s.ob K.NTM_INCR) / 2 ^ 32 + toS 64 v) % nsWrap ∧
      t.ob K.NTM_STEPS = (s.ob K.NTM_STEPS + 1) % 2 ^ 64)

/-- R5: bytes stored from an address on are read back there, and no other byte changes; a number stored least
significant byte first is read back. -/
def Obligations.MemoryReadAfterWrite : Prop :=
  (∀ (s : State) a b k, (s.putBytes a b).byte k = if a ≤ k ∧ k < a + b.length then b.getD (k - a) 0 else s.byte k) ∧
  (∀ (s : State) a n v, (s.wr a n v).rd a n = v % 256 ^ n)

/-- What reset leaves: tide stopped, role OFF, no grant, no force, controllers in CONFIG, channels IDLE, every object
at its default, the network clock at 0, and memory as SRAM is written at power-up. At reset, memory is in its
canonical form, and the Lighthouse drives VALID to nobody. -/
def Obligations.ResetLeaves : Prop :=
  (State.reset.tds.st = .stopped ∧ State.reset.red.role = .off ∧ State.reset.red.grant = false ∧
     (∀ n, (State.reset.force n).en = false) ∧ (∀ k, (State.reset.mb k).mode = .config) ∧
     (∀ k, (State.reset.ch k).st = .idle) ∧ (∀ k, State.reset.ob k = objDefault k) ∧ State.reset.ns = 0 ∧
     (∀ a, State.reset.byte a = 0) ∧ State.reset.pending = []) ∧
  (Memory.wf State.reset.mem = true ∧
     ¬ (State.reset.red.wit.pairA = .valid ∧ State.reset.red.wit.pairB = .valid))

/-- Every step keeps memory in its canonical form: keys rise, and no entry is what an unlisted byte reads as. -/
def Obligations.StepsKeepMemoryCanonical : Prop :=
  ∀ s t, Memory.wf s.mem = true → step s = .next t → Memory.wf t.mem = true

/-- R347, R349: from any state in which the Lighthouse does not drive VALID to both partners, no step of any kind
makes it do so. -/
def Obligations.LighthouseNeverDrivesBoth : Prop :=
  ∀ s t, ¬ (s.red.wit.pairA = .valid ∧ s.red.wit.pairB = .valid) → step s = .next t →
    ¬ (t.red.wit.pairA = .valid ∧ t.red.wit.pairB = .valid)

/-- R335, R345, R346: a pair that reads VALID gives a joining partner that no mismatch bars, without an active peer,
the grant and makes it active; while the peer has the grant it is fenced; a pair that reads DENIED takes the grant
away. R347, R348, R349: the Lighthouse starts, follows heartbeats and claims, and HOLDER is what the table of R347
gives; it drives VALID to HOLDER alone, and INVALID to both once its copies disagree. R347: the holder of the grant
passes to the other partner only where the other is alive and claims it, and stays where it is as long as its holder
is alive and claims. -/
def Obligations.InterlockAndWitness : Prop :=
  (∀ s, s.redMode = 1 → s.inPair = true →
     (s.red.pair ≠ .valid → (s.red.peer = false ∨ s.red.peerSt.grant = false) →
       ((s.red.role = .joining ∧ (s.red.peer = false ∨ s.red.peerSt.role ≠ 5) ∧ s.red.reason ≠ 1 ∧ s.red.reason ≠ 2) ∨
         s.red.role = .standby) →
       Completes (.grantPairChange true false) s fun t =>
         t.red.pair = .valid ∧ t.red.grant = true ∧ t.red.role = .active) ∧
     (s.red.pair ≠ .valid → s.red.peer = true → s.red.peerSt.grant = true →
       Completes (.grantPairChange true false) s fun t =>
         t.red.pair = .valid ∧ t.red.grant = false ∧ t.red.fenced = true) ∧
     (s.red.pair ≠ .denied → Completes (.grantPairChange false true) s fun t =>
       t.red.pair = .denied ∧ t.red.grant = false)) ∧
  ((∀ s, s.witnesses = true → s.red.wit.started = false → Completes .witnessStart s fun t =>
     t.red.wit.started = true) ∧
   (∀ s p, s.witnesses = true → s.red.wit.started = true → s.red.wit.fault = false →
     Completes (.witnessHbTimeout p) s (fun t =>
       t.red.wit.aliveA = (s.red.wit.aliveA && decide (p ≠ 0)) ∧ t.red.wit.aliveB = (s.red.wit.aliveB && decide (p ≠ 1)) ∧
         t.red.wit.holder = ({ t.red.wit with holder := s.red.wit.holder } : Wit).next s.redPref) ∧
     Completes (.witnessHbReturn p) s (fun t =>
       t.red.wit.aliveA = (s.red.wit.aliveA || decide (p = 0)) ∧ t.red.wit.aliveB = (s.red.wit.aliveB || decide (p = 1)) ∧
         t.red.wit.holder = ({ t.red.wit with holder := s.red.wit.holder } : Wit).next s.redPref) ∧
     ∀ b, Completes (.witnessClaimAccept p b) s (fun t =>
       t.red.wit.claimA = (if p = 0 then b else s.red.wit.claimA) ∧ t.red.wit.claimB = (if p = 1 then b else s.red.wit.claimB) ∧
         t.red.wit.holder = ({ t.red.wit with holder := s.red.wit.holder } : Wit).next s.redPref)) ∧
   (∀ s, s.witnesses = true → s.red.wit.move = true → s.red.wit.fault = false → Completes .witnessGrantDrive s fun t =>
     (t.red.wit.pairA = .valid ↔ s.red.wit.holder = .a) ∧ (t.red.wit.pairB = .valid ↔ s.red.wit.holder = .b)) ∧
   (∀ s, s.witnesses = true → s.red.wit.fault = false → Completes .witnessFault s fun t =>
     t.red.wit.fault = true ∧ t.red.wit.pairA = .invalid ∧ t.red.wit.pairB = .invalid)) ∧
  (∀ (w : Wit) pref, (w.holder ≠ .none → w.asks w.holder = true → w.next pref = w.holder) ∧
     (w.next pref ≠ w.holder → w.asks (w.next pref) = true))
end

