-- ==== Sys2Proof/Laws/Memory.lean ====
section
/-! SUPPORT. The laws of sparse maps and of memory: what a read gives after a write, and that every operation keeps the
canonical form. -/

namespace Sys2Proof.Machine

variable {α : Type}

/-! ### Reads after writes of a sparse map -/

theorem mget_merase (d : Nat → α) (m : SMap α) (k j : Nat) : mget d (merase m k) j = if j = k then d j else mget d m j := by
  induction m with
  | nil => simp [merase, mget]
  | cons c t ih =>
    obtain ⟨c, v⟩ := c
    by_cases hc : c = k
    · subst hc; simp only [merase, if_pos, ih, mget]
      by_cases hj : j = c
      · simp [hj]
      · simp [hj, Ne.symm hj]
    · simp only [merase, if_neg hc, mget, ih]
      by_cases hj : c = j
      · subst hj; simp [hc]
      · simp [hj]

theorem mget_minsert (d : Nat → α) (m : SMap α) (k : Nat) (v : α) (j : Nat) :
    mget d (minsert m k v) j = if j = k then v else mget d m j := by
  induction m with
  | nil =>
    by_cases hj : j = k
    · simp [minsert, mget, hj]
    · simp [minsert, mget, hj, Ne.symm hj]
  | cons c t ih =>
    obtain ⟨c, w⟩ := c
    unfold minsert
    split
    · by_cases hj : j = k
      · simp [mget, hj]
      · simp [mget, hj, Ne.symm hj]
    · split
      · rename_i h; subst h
        by_cases hj : j = c
        · simp [mget, hj]
        · simp [mget, hj, Ne.symm hj]
      · simp only [mget, ih]
        rename_i h
        by_cases hj : c = j
        · subst hj; simp [h]
        · simp [hj]

/-- A value put under a key is read there, and every other key reads as before. -/
theorem mget_mput [DecidableEq α] (d : Nat → α) (m : SMap α) (k : Nat) (v : α) (j : Nat) :
    mget d (mput d m k v) j = if j = k then v else mget d m j := by
  unfold mput
  split
  · rename_i h; rw [mget_merase]; split
    · rename_i hj; rw [hj, h]
    · rfl
  · exact mget_minsert d m k v j

theorem mget_mput_self [DecidableEq α] (d : Nat → α) (m : SMap α) (k : Nat) (v : α) : mget d (mput d m k v) k = v := by
  rw [mget_mput, if_pos rfl]

theorem mget_mput_ne [DecidableEq α] (d : Nat → α) (m : SMap α) (k : Nat) (v : α) {j : Nat} (h : j ≠ k) :
    mget d (mput d m k v) j = mget d m j := by
  rw [mget_mput, if_neg h]

/-! ### The canonical form -/

theorem mwfFrom_mono [DecidableEq α] {d : Nat → α} {lo lo' : Nat} {m : SMap α} (h : mwfFrom d lo m = true) (hl : lo' ≤ lo) :
    mwfFrom d lo' m = true := by
  cases m with
  | nil => rfl
  | cons c t =>
    obtain ⟨k, v⟩ := c
    simp only [mwfFrom, Bool.and_eq_true, decide_eq_true_eq] at h ⊢
    exact ⟨⟨Nat.le_trans hl h.1.1, h.1.2⟩, h.2⟩

theorem mwfFrom_merase [DecidableEq α] {d : Nat → α} {m : SMap α} {lo : Nat} (k : Nat) (h : mwfFrom d lo m = true) :
    mwfFrom d lo (merase m k) = true := by
  induction m generalizing lo with
  | nil => rfl
  | cons c t ih =>
    obtain ⟨c, v⟩ := c
    simp only [mwfFrom, Bool.and_eq_true, decide_eq_true_eq] at h
    unfold merase
    split
    · exact mwfFrom_mono (ih h.2) (by omega)
    · simp only [mwfFrom, Bool.and_eq_true, decide_eq_true_eq]
      exact ⟨h.1, ih h.2⟩

theorem mwfFrom_minsert [DecidableEq α] {d : Nat → α} {m : SMap α} {lo k : Nat} {v : α} (h : mwfFrom d lo m = true)
    (hk : lo ≤ k) (hv : v ≠ d k) : mwfFrom d lo (minsert m k v) = true := by
  induction m generalizing lo with
  | nil => simp [minsert, mwfFrom, hk, hv]
  | cons c t ih =>
    obtain ⟨c, w⟩ := c
    simp only [mwfFrom, Bool.and_eq_true, decide_eq_true_eq] at h
    unfold minsert
    split
    · simp only [mwfFrom, Bool.and_eq_true, decide_eq_true_eq]
      exact ⟨⟨hk, hv⟩, ⟨by omega, h.1.2⟩, h.2⟩
    · split
      · rename_i hc; subst hc
        simp only [mwfFrom, Bool.and_eq_true, decide_eq_true_eq]
        exact ⟨⟨hk, hv⟩, h.2⟩
      · simp only [mwfFrom, Bool.and_eq_true, decide_eq_true_eq]
        exact ⟨h.1, ih h.2 (by omega)⟩

/-- Putting a value keeps a sparse map in its canonical form. -/
theorem mwf_mput [DecidableEq α] {d : Nat → α} {m : SMap α} (k : Nat) (v : α) (h : mwf d m = true) :
    mwf d (mput d m k v) = true := by
  unfold mput
  split
  · exact mwfFrom_merase k h
  · rename_i hv; exact mwfFrom_minsert h (Nat.zero_le _) hv

theorem mwfFrom_filter [DecidableEq α] {d : Nat → α} {m : SMap α} {lo : Nat} (p : Nat × α → Bool) (h : mwfFrom d lo m = true) :
    mwfFrom d lo (m.filter p) = true := by
  induction m generalizing lo with
  | nil => rfl
  | cons c t ih =>
    obtain ⟨c, v⟩ := c
    simp only [mwfFrom, Bool.and_eq_true, decide_eq_true_eq] at h
    rw [List.filter_cons]
    split
    · simp only [mwfFrom, Bool.and_eq_true, decide_eq_true_eq]
      exact ⟨h.1, ih h.2⟩
    · exact mwfFrom_mono (ih h.2) (by omega)

/-- Leaving entries out keeps a sparse map in its canonical form. -/
theorem mwf_filter [DecidableEq α] {d : Nat → α} {m : SMap α} (p : Nat × α → Bool) (h : mwf d m = true) :
    mwf d (m.filter p) = true := mwfFrom_filter p h

/-- Two maps in canonical form that read alike everywhere are the same list, entry by entry. -/
theorem mwfFrom_ext [DecidableEq α] {d : Nat → α} {m n : SMap α} {lo : Nat} (hm : mwfFrom d lo m = true)
    (hn : mwfFrom d lo n = true) (h : ∀ k, mget d m k = mget d n k) : m = n := by
  have low : ∀ (l : SMap α) (b k : Nat), mwfFrom d b l = true → k < b → mget d l k = d k := by
    intro l
    induction l with
    | nil => intros; rfl
    | cons c t ih =>
      intro b k hl hk
      obtain ⟨c, v⟩ := c
      simp only [mwfFrom, Bool.and_eq_true, decide_eq_true_eq] at hl
      have : c ≠ k := by omega
      simp only [mget, if_neg this]
      exact ih _ _ hl.2 (by omega)
  induction m generalizing n lo with
  | nil =>
    cases n with
    | nil => rfl
    | cons c t =>
      obtain ⟨c, v⟩ := c
      simp only [mwfFrom, Bool.and_eq_true, decide_eq_true_eq] at hn
      exact absurd (by simpa [mget] using (h c).symm) hn.1.2
  | cons a t ih =>
    obtain ⟨a, w⟩ := a
    simp only [mwfFrom, Bool.and_eq_true, decide_eq_true_eq] at hm
    cases n with
    | nil => exact absurd (by simpa [mget] using h a) hm.1.2
    | cons c u =>
      obtain ⟨c, v⟩ := c
      simp only [mwfFrom, Bool.and_eq_true, decide_eq_true_eq] at hn
      have hac : a = c := by
        rcases Nat.lt_trichotomy a c with hlt | heq | hgt
        · have ha := h a
          simp only [mget, if_pos, if_neg (Nat.ne_of_gt hlt)] at ha
          rw [low u (c + 1) a hn.2 (by omega)] at ha
          exact absurd ha hm.1.2
        · exact heq
        · have hc := h c
          simp only [mget, if_pos, if_neg (Nat.ne_of_gt hgt)] at hc
          rw [low t (a + 1) c hm.2 (by omega)] at hc
          exact absurd hc.symm hn.1.2
      subst hac
      have hv : w = v := by simpa [mget] using h a
      subst hv
      have ht : t = u := ih hm.2 hn.2 (fun k => by
        by_cases hk : a = k
        · subst hk; rw [low t (a + 1) a hm.2 (by omega), low u (a + 1) a hn.2 (by omega)]
        · simpa [mget, hk] using h k)
      rw [ht]

/-! ### Memory -/

/-- A byte stored is read there, and every other byte reads as before. -/
theorem State.byte_setByte (s : State) (a : Nat) (v : Byte) (k : Nat) :
    (s.setByte a v).byte k = if k = a then v else s.byte k := mget_mput _ _ _ _ _

theorem State.setByte_wf {s : State} (a : Nat) (v : Byte) (h : Memory.wf s.mem = true) :
    Memory.wf (s.setByte a v).mem = true := mwf_mput a v h

theorem State.putBytes_wf {s : State} (a : Nat) (b : List Byte) (h : Memory.wf s.mem = true) :
    Memory.wf (s.putBytes a b).mem = true := by
  induction b generalizing s a with
  | nil => exact h
  | cons c t ih => exact ih _ (State.setByte_wf a c h)

theorem State.wr_wf {s : State} (a n v : Nat) (h : Memory.wf s.mem = true) : Memory.wf (s.wr a n v).mem = true :=
  State.putBytes_wf a _ h

theorem State.clearMem_wf {s : State} (a n : Nat) (h : Memory.wf s.mem = true) : Memory.wf (s.clearMem a n).mem = true :=
  mwf_filter _ h

theorem State.blit_wf {s : State} (src dst n : Nat) (h : Memory.wf s.mem = true) : Memory.wf (s.blit src dst n).mem = true := by
  unfold State.blit
  have fold : ∀ (l : List Host.Cell) (u : State), Memory.wf u.mem = true →
      Memory.wf (l.foldl (fun s c => s.setByte (dst + (c.1 - src)) c.2) u).mem = true := by
    intro l
    induction l with
    | nil => intro u hu; exact hu
    | cons c t ih => intro u hu; exact ih _ (State.setByte_wf _ _ hu)
  exact fold _ _ (State.clearMem_wf dst n h)

/-- Reset's memory is in its canonical form. -/
theorem State.reset_wf : Memory.wf State.reset.mem = true := rfl

/-- A byte below the stored range reads as before. -/
theorem State.byte_putBytes_lt (s : State) (a : Nat) (b : List Byte) {k : Nat} (h : k < a) : (s.putBytes a b).byte k = s.byte k := by
  induction b generalizing s a with
  | nil => rfl
  | cons c t ih =>
    rw [State.putBytes, ih _ _ (by omega), State.byte_setByte, if_neg (by omega)]

/-! ### Objects and tables -/

theorem State.ob_setOb (s : State) (k v j : Nat) : (s.setOb k v).ob j = if j = k then v else s.ob j := mget_mput _ _ _ _ _
theorem State.dom_setDom (s : State) (k : Nat) (b : List Byte) (j : Nat) :
    (s.setDom k b).dom j = if j = k then b else s.dom j := mget_mput _ _ _ _ _
theorem State.ses_setSes (s : State) (k : Nat) (x : Ses) (j : Nat) :
    (s.setSes k x).ses j = if j = k then x else s.ses j := mget_mput _ _ _ _ _
theorem State.ctx_setCtx (s : State) (k : Nat) (x : Ctx) (j : Nat) :
    (s.setCtx k x).ctx j = if j = k then x else s.ctx j := mget_mput _ _ _ _ _
theorem State.core_setCore (s : State) (k : Nat) (x : CoreSt) (j : Nat) :
    (s.setCore k x).core j = if j = k then x else s.core j := mget_mput _ _ _ _ _
theorem State.task_setTask (s : State) (k : Nat) (x : Task) (j : Nat) :
    (s.setTask k x).task j = if j = k then x else s.task j := mget_mput _ _ _ _ _
theorem State.stn_setStn (s : State) (k : Nat) (x : Sta) (j : Nat) :
    (s.setStn k x).stn j = if j = k then x else s.stn j := mget_mput _ _ _ _ _
theorem State.mb_setMb (s : State) (k : Nat) (x : Mbc) (j : Nat) :
    (s.setMb k x).mb j = if j = k then x else s.mb j := mget_mput _ _ _ _ _
theorem State.ch_setCh (s : State) (k : Nat) (x : Dma) (j : Nat) :
    (s.setCh k x).ch j = if j = k then x else s.ch j := mget_mput _ _ _ _ _
theorem State.wd_setWd (s : State) (k : Nat) (x : Wdg) (j : Nat) :
    (s.setWd k x).wd j = if j = k then x else s.wd j := mget_mput _ _ _ _ _
theorem State.owner_setOwner (s : State) (k v j : Nat) :
    (s.setOwner k v).owner j = if j = k then v else s.owner j := mget_mput _ _ _ _ _
theorem State.domSt_setDomSt (s : State) (k : Nat) (x : DomSt) (j : Nat) :
    (s.setDomSt k x).domSt j = if j = k then x else s.domSt j := mget_mput _ _ _ _ _

end Sys2Proof.Machine
end

