-- ==== Sys2Proof/Laws/State.lean ====
section
/-! SUPPORT. What each update of one part of State leaves in every other part: one lemma a field and update. -/

namespace Sys2Proof.Machine

set_option Elab.async false

variable (s : State)

/-! ### setByte -/

@[simp] theorem State.setByte_part (a : Nat) (v : Byte) : (s.setByte a v).part = s.part := rfl
@[simp] theorem State.setByte_objs (a : Nat) (v : Byte) : (s.setByte a v).objs = s.objs := rfl
@[simp] theorem State.setByte_doms (a : Nat) (v : Byte) : (s.setByte a v).doms = s.doms := rfl
@[simp] theorem State.setByte_ecc (a : Nat) (v : Byte) : (s.setByte a v).ecc = s.ecc := rfl
@[simp] theorem State.setByte_owners (a : Nat) (v : Byte) : (s.setByte a v).owners = s.owners := rfl
@[simp] theorem State.setByte_sess (a : Nat) (v : Byte) : (s.setByte a v).sess = s.sess := rfl
@[simp] theorem State.setByte_dic (a : Nat) (v : Byte) : (s.setByte a v).dic = s.dic := rfl
@[simp] theorem State.setByte_ctxs (a : Nat) (v : Byte) : (s.setByte a v).ctxs = s.ctxs := rfl
@[simp] theorem State.setByte_cores (a : Nat) (v : Byte) : (s.setByte a v).cores = s.cores := rfl
@[simp] theorem State.setByte_tds (a : Nat) (v : Byte) : (s.setByte a v).tds = s.tds := rfl
@[simp] theorem State.setByte_tasks (a : Nat) (v : Byte) : (s.setByte a v).tasks = s.tasks := rfl
@[simp] theorem State.setByte_img (a : Nat) (v : Byte) : (s.setByte a v).img = s.img := rfl
@[simp] theorem State.setByte_retAt (a : Nat) (v : Byte) : (s.setByte a v).retAt = s.retAt := rfl
@[simp] theorem State.setByte_retNext (a : Nat) (v : Byte) : (s.setByte a v).retNext = s.retNext := rfl
@[simp] theorem State.setByte_olc (a : Nat) (v : Byte) : (s.setByte a v).olc = s.olc := rfl
@[simp] theorem State.setByte_str (a : Nat) (v : Byte) : (s.setByte a v).str = s.str := rfl
@[simp] theorem State.setByte_hnw (a : Nat) (v : Byte) : (s.setByte a v).hnw = s.hnw := rfl
@[simp] theorem State.setByte_ntm (a : Nat) (v : Byte) : (s.setByte a v).ntm = s.ntm := rfl
@[simp] theorem State.setByte_red (a : Nat) (v : Byte) : (s.setByte a v).red = s.red := rfl
@[simp] theorem State.setByte_fio (a : Nat) (v : Byte) : (s.setByte a v).fio = s.fio := rfl
@[simp] theorem State.setByte_mbc (a : Nat) (v : Byte) : (s.setByte a v).mbc = s.mbc := rfl
@[simp] theorem State.setByte_dma (a : Nat) (v : Byte) : (s.setByte a v).dma = s.dma := rfl
@[simp] theorem State.setByte_bdr (a : Nat) (v : Byte) : (s.setByte a v).bdr = s.bdr := rfl
@[simp] theorem State.setByte_cal (a : Nat) (v : Byte) : (s.setByte a v).cal = s.cal := rfl
@[simp] theorem State.setByte_rsv (a : Nat) (v : Byte) : (s.setByte a v).rsv = s.rsv := rfl
@[simp] theorem State.setByte_wdg (a : Nat) (v : Byte) : (s.setByte a v).wdg = s.wdg := rfl
@[simp] theorem State.setByte_chk (a : Nat) (v : Byte) : (s.setByte a v).chk = s.chk := rfl
@[simp] theorem State.setByte_flt (a : Nat) (v : Byte) : (s.setByte a v).flt = s.flt := rfl
@[simp] theorem State.setByte_sta (a : Nat) (v : Byte) : (s.setByte a v).sta = s.sta := rfl
@[simp] theorem State.setByte_snp (a : Nat) (v : Byte) : (s.setByte a v).snp = s.snp := rfl
@[simp] theorem State.setByte_hlt (a : Nat) (v : Byte) : (s.setByte a v).hlt = s.hlt := rfl
@[simp] theorem State.setByte_pmc (a : Nat) (v : Byte) : (s.setByte a v).pmc = s.pmc := rfl
@[simp] theorem State.setByte_pwr (a : Nat) (v : Byte) : (s.setByte a v).pwr = s.pwr := rfl
@[simp] theorem State.setByte_fresh (a : Nat) (v : Byte) : (s.setByte a v).fresh = s.fresh := rfl
@[simp] theorem State.setByte_pending (a : Nat) (v : Byte) : (s.setByte a v).pending = s.pending := rfl

/-! ### setOb -/

@[simp] theorem State.setOb_part (k v : Nat) : (s.setOb k v).part = s.part := rfl
@[simp] theorem State.setOb_doms (k v : Nat) : (s.setOb k v).doms = s.doms := rfl
@[simp] theorem State.setOb_mem (k v : Nat) : (s.setOb k v).mem = s.mem := rfl
@[simp] theorem State.setOb_ecc (k v : Nat) : (s.setOb k v).ecc = s.ecc := rfl
@[simp] theorem State.setOb_owners (k v : Nat) : (s.setOb k v).owners = s.owners := rfl
@[simp] theorem State.setOb_sess (k v : Nat) : (s.setOb k v).sess = s.sess := rfl
@[simp] theorem State.setOb_dic (k v : Nat) : (s.setOb k v).dic = s.dic := rfl
@[simp] theorem State.setOb_ctxs (k v : Nat) : (s.setOb k v).ctxs = s.ctxs := rfl
@[simp] theorem State.setOb_cores (k v : Nat) : (s.setOb k v).cores = s.cores := rfl
@[simp] theorem State.setOb_tds (k v : Nat) : (s.setOb k v).tds = s.tds := rfl
@[simp] theorem State.setOb_tasks (k v : Nat) : (s.setOb k v).tasks = s.tasks := rfl
@[simp] theorem State.setOb_img (k v : Nat) : (s.setOb k v).img = s.img := rfl
@[simp] theorem State.setOb_retAt (k v : Nat) : (s.setOb k v).retAt = s.retAt := rfl
@[simp] theorem State.setOb_retNext (k v : Nat) : (s.setOb k v).retNext = s.retNext := rfl
@[simp] theorem State.setOb_olc (k v : Nat) : (s.setOb k v).olc = s.olc := rfl
@[simp] theorem State.setOb_str (k v : Nat) : (s.setOb k v).str = s.str := rfl
@[simp] theorem State.setOb_hnw (k v : Nat) : (s.setOb k v).hnw = s.hnw := rfl
@[simp] theorem State.setOb_ntm (k v : Nat) : (s.setOb k v).ntm = s.ntm := rfl
@[simp] theorem State.setOb_red (k v : Nat) : (s.setOb k v).red = s.red := rfl
@[simp] theorem State.setOb_fio (k v : Nat) : (s.setOb k v).fio = s.fio := rfl
@[simp] theorem State.setOb_mbc (k v : Nat) : (s.setOb k v).mbc = s.mbc := rfl
@[simp] theorem State.setOb_dma (k v : Nat) : (s.setOb k v).dma = s.dma := rfl
@[simp] theorem State.setOb_bdr (k v : Nat) : (s.setOb k v).bdr = s.bdr := rfl
@[simp] theorem State.setOb_cal (k v : Nat) : (s.setOb k v).cal = s.cal := rfl
@[simp] theorem State.setOb_rsv (k v : Nat) : (s.setOb k v).rsv = s.rsv := rfl
@[simp] theorem State.setOb_wdg (k v : Nat) : (s.setOb k v).wdg = s.wdg := rfl
@[simp] theorem State.setOb_chk (k v : Nat) : (s.setOb k v).chk = s.chk := rfl
@[simp] theorem State.setOb_flt (k v : Nat) : (s.setOb k v).flt = s.flt := rfl
@[simp] theorem State.setOb_sta (k v : Nat) : (s.setOb k v).sta = s.sta := rfl
@[simp] theorem State.setOb_snp (k v : Nat) : (s.setOb k v).snp = s.snp := rfl
@[simp] theorem State.setOb_hlt (k v : Nat) : (s.setOb k v).hlt = s.hlt := rfl
@[simp] theorem State.setOb_pmc (k v : Nat) : (s.setOb k v).pmc = s.pmc := rfl
@[simp] theorem State.setOb_pwr (k v : Nat) : (s.setOb k v).pwr = s.pwr := rfl
@[simp] theorem State.setOb_fresh (k v : Nat) : (s.setOb k v).fresh = s.fresh := rfl
@[simp] theorem State.setOb_pending (k v : Nat) : (s.setOb k v).pending = s.pending := rfl

/-! ### setDom -/

@[simp] theorem State.setDom_part (k : Nat) (b : List Byte) : (s.setDom k b).part = s.part := rfl
@[simp] theorem State.setDom_objs (k : Nat) (b : List Byte) : (s.setDom k b).objs = s.objs := rfl
@[simp] theorem State.setDom_mem (k : Nat) (b : List Byte) : (s.setDom k b).mem = s.mem := rfl
@[simp] theorem State.setDom_ecc (k : Nat) (b : List Byte) : (s.setDom k b).ecc = s.ecc := rfl
@[simp] theorem State.setDom_owners (k : Nat) (b : List Byte) : (s.setDom k b).owners = s.owners := rfl
@[simp] theorem State.setDom_sess (k : Nat) (b : List Byte) : (s.setDom k b).sess = s.sess := rfl
@[simp] theorem State.setDom_dic (k : Nat) (b : List Byte) : (s.setDom k b).dic = s.dic := rfl
@[simp] theorem State.setDom_ctxs (k : Nat) (b : List Byte) : (s.setDom k b).ctxs = s.ctxs := rfl
@[simp] theorem State.setDom_cores (k : Nat) (b : List Byte) : (s.setDom k b).cores = s.cores := rfl
@[simp] theorem State.setDom_tds (k : Nat) (b : List Byte) : (s.setDom k b).tds = s.tds := rfl
@[simp] theorem State.setDom_tasks (k : Nat) (b : List Byte) : (s.setDom k b).tasks = s.tasks := rfl
@[simp] theorem State.setDom_img (k : Nat) (b : List Byte) : (s.setDom k b).img = s.img := rfl
@[simp] theorem State.setDom_retAt (k : Nat) (b : List Byte) : (s.setDom k b).retAt = s.retAt := rfl
@[simp] theorem State.setDom_retNext (k : Nat) (b : List Byte) : (s.setDom k b).retNext = s.retNext := rfl
@[simp] theorem State.setDom_olc (k : Nat) (b : List Byte) : (s.setDom k b).olc = s.olc := rfl
@[simp] theorem State.setDom_str (k : Nat) (b : List Byte) : (s.setDom k b).str = s.str := rfl
@[simp] theorem State.setDom_hnw (k : Nat) (b : List Byte) : (s.setDom k b).hnw = s.hnw := rfl
@[simp] theorem State.setDom_ntm (k : Nat) (b : List Byte) : (s.setDom k b).ntm = s.ntm := rfl
@[simp] theorem State.setDom_red (k : Nat) (b : List Byte) : (s.setDom k b).red = s.red := rfl
@[simp] theorem State.setDom_fio (k : Nat) (b : List Byte) : (s.setDom k b).fio = s.fio := rfl
@[simp] theorem State.setDom_mbc (k : Nat) (b : List Byte) : (s.setDom k b).mbc = s.mbc := rfl
@[simp] theorem State.setDom_dma (k : Nat) (b : List Byte) : (s.setDom k b).dma = s.dma := rfl
@[simp] theorem State.setDom_bdr (k : Nat) (b : List Byte) : (s.setDom k b).bdr = s.bdr := rfl
@[simp] theorem State.setDom_cal (k : Nat) (b : List Byte) : (s.setDom k b).cal = s.cal := rfl
@[simp] theorem State.setDom_rsv (k : Nat) (b : List Byte) : (s.setDom k b).rsv = s.rsv := rfl
@[simp] theorem State.setDom_wdg (k : Nat) (b : List Byte) : (s.setDom k b).wdg = s.wdg := rfl
@[simp] theorem State.setDom_chk (k : Nat) (b : List Byte) : (s.setDom k b).chk = s.chk := rfl
@[simp] theorem State.setDom_flt (k : Nat) (b : List Byte) : (s.setDom k b).flt = s.flt := rfl
@[simp] theorem State.setDom_sta (k : Nat) (b : List Byte) : (s.setDom k b).sta = s.sta := rfl
@[simp] theorem State.setDom_snp (k : Nat) (b : List Byte) : (s.setDom k b).snp = s.snp := rfl
@[simp] theorem State.setDom_hlt (k : Nat) (b : List Byte) : (s.setDom k b).hlt = s.hlt := rfl
@[simp] theorem State.setDom_pmc (k : Nat) (b : List Byte) : (s.setDom k b).pmc = s.pmc := rfl
@[simp] theorem State.setDom_pwr (k : Nat) (b : List Byte) : (s.setDom k b).pwr = s.pwr := rfl
@[simp] theorem State.setDom_fresh (k : Nat) (b : List Byte) : (s.setDom k b).fresh = s.fresh := rfl
@[simp] theorem State.setDom_pending (k : Nat) (b : List Byte) : (s.setDom k b).pending = s.pending := rfl

/-! ### setSes -/

@[simp] theorem State.setSes_part (n : Nat) (x : Ses) : (s.setSes n x).part = s.part := rfl
@[simp] theorem State.setSes_objs (n : Nat) (x : Ses) : (s.setSes n x).objs = s.objs := rfl
@[simp] theorem State.setSes_doms (n : Nat) (x : Ses) : (s.setSes n x).doms = s.doms := rfl
@[simp] theorem State.setSes_mem (n : Nat) (x : Ses) : (s.setSes n x).mem = s.mem := rfl
@[simp] theorem State.setSes_ecc (n : Nat) (x : Ses) : (s.setSes n x).ecc = s.ecc := rfl
@[simp] theorem State.setSes_owners (n : Nat) (x : Ses) : (s.setSes n x).owners = s.owners := rfl
@[simp] theorem State.setSes_dic (n : Nat) (x : Ses) : (s.setSes n x).dic = s.dic := rfl
@[simp] theorem State.setSes_ctxs (n : Nat) (x : Ses) : (s.setSes n x).ctxs = s.ctxs := rfl
@[simp] theorem State.setSes_cores (n : Nat) (x : Ses) : (s.setSes n x).cores = s.cores := rfl
@[simp] theorem State.setSes_tds (n : Nat) (x : Ses) : (s.setSes n x).tds = s.tds := rfl
@[simp] theorem State.setSes_tasks (n : Nat) (x : Ses) : (s.setSes n x).tasks = s.tasks := rfl
@[simp] theorem State.setSes_img (n : Nat) (x : Ses) : (s.setSes n x).img = s.img := rfl
@[simp] theorem State.setSes_retAt (n : Nat) (x : Ses) : (s.setSes n x).retAt = s.retAt := rfl
@[simp] theorem State.setSes_retNext (n : Nat) (x : Ses) : (s.setSes n x).retNext = s.retNext := rfl
@[simp] theorem State.setSes_olc (n : Nat) (x : Ses) : (s.setSes n x).olc = s.olc := rfl
@[simp] theorem State.setSes_str (n : Nat) (x : Ses) : (s.setSes n x).str = s.str := rfl
@[simp] theorem State.setSes_hnw (n : Nat) (x : Ses) : (s.setSes n x).hnw = s.hnw := rfl
@[simp] theorem State.setSes_ntm (n : Nat) (x : Ses) : (s.setSes n x).ntm = s.ntm := rfl
@[simp] theorem State.setSes_red (n : Nat) (x : Ses) : (s.setSes n x).red = s.red := rfl
@[simp] theorem State.setSes_fio (n : Nat) (x : Ses) : (s.setSes n x).fio = s.fio := rfl
@[simp] theorem State.setSes_mbc (n : Nat) (x : Ses) : (s.setSes n x).mbc = s.mbc := rfl
@[simp] theorem State.setSes_dma (n : Nat) (x : Ses) : (s.setSes n x).dma = s.dma := rfl
@[simp] theorem State.setSes_bdr (n : Nat) (x : Ses) : (s.setSes n x).bdr = s.bdr := rfl
@[simp] theorem State.setSes_cal (n : Nat) (x : Ses) : (s.setSes n x).cal = s.cal := rfl
@[simp] theorem State.setSes_rsv (n : Nat) (x : Ses) : (s.setSes n x).rsv = s.rsv := rfl
@[simp] theorem State.setSes_wdg (n : Nat) (x : Ses) : (s.setSes n x).wdg = s.wdg := rfl
@[simp] theorem State.setSes_chk (n : Nat) (x : Ses) : (s.setSes n x).chk = s.chk := rfl
@[simp] theorem State.setSes_flt (n : Nat) (x : Ses) : (s.setSes n x).flt = s.flt := rfl
@[simp] theorem State.setSes_sta (n : Nat) (x : Ses) : (s.setSes n x).sta = s.sta := rfl
@[simp] theorem State.setSes_snp (n : Nat) (x : Ses) : (s.setSes n x).snp = s.snp := rfl
@[simp] theorem State.setSes_hlt (n : Nat) (x : Ses) : (s.setSes n x).hlt = s.hlt := rfl
@[simp] theorem State.setSes_pmc (n : Nat) (x : Ses) : (s.setSes n x).pmc = s.pmc := rfl
@[simp] theorem State.setSes_pwr (n : Nat) (x : Ses) : (s.setSes n x).pwr = s.pwr := rfl
@[simp] theorem State.setSes_fresh (n : Nat) (x : Ses) : (s.setSes n x).fresh = s.fresh := rfl
@[simp] theorem State.setSes_pending (n : Nat) (x : Ses) : (s.setSes n x).pending = s.pending := rfl

/-! ### setCtx -/

@[simp] theorem State.setCtx_part (n : Nat) (x : Ctx) : (s.setCtx n x).part = s.part := rfl
@[simp] theorem State.setCtx_objs (n : Nat) (x : Ctx) : (s.setCtx n x).objs = s.objs := rfl
@[simp] theorem State.setCtx_doms (n : Nat) (x : Ctx) : (s.setCtx n x).doms = s.doms := rfl
@[simp] theorem State.setCtx_mem (n : Nat) (x : Ctx) : (s.setCtx n x).mem = s.mem := rfl
@[simp] theorem State.setCtx_ecc (n : Nat) (x : Ctx) : (s.setCtx n x).ecc = s.ecc := rfl
@[simp] theorem State.setCtx_owners (n : Nat) (x : Ctx) : (s.setCtx n x).owners = s.owners := rfl
@[simp] theorem State.setCtx_sess (n : Nat) (x : Ctx) : (s.setCtx n x).sess = s.sess := rfl
@[simp] theorem State.setCtx_dic (n : Nat) (x : Ctx) : (s.setCtx n x).dic = s.dic := rfl
@[simp] theorem State.setCtx_cores (n : Nat) (x : Ctx) : (s.setCtx n x).cores = s.cores := rfl
@[simp] theorem State.setCtx_tds (n : Nat) (x : Ctx) : (s.setCtx n x).tds = s.tds := rfl
@[simp] theorem State.setCtx_tasks (n : Nat) (x : Ctx) : (s.setCtx n x).tasks = s.tasks := rfl
@[simp] theorem State.setCtx_img (n : Nat) (x : Ctx) : (s.setCtx n x).img = s.img := rfl
@[simp] theorem State.setCtx_retAt (n : Nat) (x : Ctx) : (s.setCtx n x).retAt = s.retAt := rfl
@[simp] theorem State.setCtx_retNext (n : Nat) (x : Ctx) : (s.setCtx n x).retNext = s.retNext := rfl
@[simp] theorem State.setCtx_olc (n : Nat) (x : Ctx) : (s.setCtx n x).olc = s.olc := rfl
@[simp] theorem State.setCtx_str (n : Nat) (x : Ctx) : (s.setCtx n x).str = s.str := rfl
@[simp] theorem State.setCtx_hnw (n : Nat) (x : Ctx) : (s.setCtx n x).hnw = s.hnw := rfl
@[simp] theorem State.setCtx_ntm (n : Nat) (x : Ctx) : (s.setCtx n x).ntm = s.ntm := rfl
@[simp] theorem State.setCtx_red (n : Nat) (x : Ctx) : (s.setCtx n x).red = s.red := rfl
@[simp] theorem State.setCtx_fio (n : Nat) (x : Ctx) : (s.setCtx n x).fio = s.fio := rfl
@[simp] theorem State.setCtx_mbc (n : Nat) (x : Ctx) : (s.setCtx n x).mbc = s.mbc := rfl
@[simp] theorem State.setCtx_dma (n : Nat) (x : Ctx) : (s.setCtx n x).dma = s.dma := rfl
@[simp] theorem State.setCtx_bdr (n : Nat) (x : Ctx) : (s.setCtx n x).bdr = s.bdr := rfl
@[simp] theorem State.setCtx_cal (n : Nat) (x : Ctx) : (s.setCtx n x).cal = s.cal := rfl
@[simp] theorem State.setCtx_rsv (n : Nat) (x : Ctx) : (s.setCtx n x).rsv = s.rsv := rfl
@[simp] theorem State.setCtx_wdg (n : Nat) (x : Ctx) : (s.setCtx n x).wdg = s.wdg := rfl
@[simp] theorem State.setCtx_chk (n : Nat) (x : Ctx) : (s.setCtx n x).chk = s.chk := rfl
@[simp] theorem State.setCtx_flt (n : Nat) (x : Ctx) : (s.setCtx n x).flt = s.flt := rfl
@[simp] theorem State.setCtx_sta (n : Nat) (x : Ctx) : (s.setCtx n x).sta = s.sta := rfl
@[simp] theorem State.setCtx_snp (n : Nat) (x : Ctx) : (s.setCtx n x).snp = s.snp := rfl
@[simp] theorem State.setCtx_hlt (n : Nat) (x : Ctx) : (s.setCtx n x).hlt = s.hlt := rfl
@[simp] theorem State.setCtx_pmc (n : Nat) (x : Ctx) : (s.setCtx n x).pmc = s.pmc := rfl
@[simp] theorem State.setCtx_pwr (n : Nat) (x : Ctx) : (s.setCtx n x).pwr = s.pwr := rfl
@[simp] theorem State.setCtx_fresh (n : Nat) (x : Ctx) : (s.setCtx n x).fresh = s.fresh := rfl
@[simp] theorem State.setCtx_pending (n : Nat) (x : Ctx) : (s.setCtx n x).pending = s.pending := rfl

/-! ### setCore -/

@[simp] theorem State.setCore_part (n : Nat) (x : CoreSt) : (s.setCore n x).part = s.part := rfl
@[simp] theorem State.setCore_objs (n : Nat) (x : CoreSt) : (s.setCore n x).objs = s.objs := rfl
@[simp] theorem State.setCore_doms (n : Nat) (x : CoreSt) : (s.setCore n x).doms = s.doms := rfl
@[simp] theorem State.setCore_mem (n : Nat) (x : CoreSt) : (s.setCore n x).mem = s.mem := rfl
@[simp] theorem State.setCore_ecc (n : Nat) (x : CoreSt) : (s.setCore n x).ecc = s.ecc := rfl
@[simp] theorem State.setCore_owners (n : Nat) (x : CoreSt) : (s.setCore n x).owners = s.owners := rfl
@[simp] theorem State.setCore_sess (n : Nat) (x : CoreSt) : (s.setCore n x).sess = s.sess := rfl
@[simp] theorem State.setCore_dic (n : Nat) (x : CoreSt) : (s.setCore n x).dic = s.dic := rfl
@[simp] theorem State.setCore_ctxs (n : Nat) (x : CoreSt) : (s.setCore n x).ctxs = s.ctxs := rfl
@[simp] theorem State.setCore_tds (n : Nat) (x : CoreSt) : (s.setCore n x).tds = s.tds := rfl
@[simp] theorem State.setCore_tasks (n : Nat) (x : CoreSt) : (s.setCore n x).tasks = s.tasks := rfl
@[simp] theorem State.setCore_img (n : Nat) (x : CoreSt) : (s.setCore n x).img = s.img := rfl
@[simp] theorem State.setCore_retAt (n : Nat) (x : CoreSt) : (s.setCore n x).retAt = s.retAt := rfl
@[simp] theorem State.setCore_retNext (n : Nat) (x : CoreSt) : (s.setCore n x).retNext = s.retNext := rfl
@[simp] theorem State.setCore_olc (n : Nat) (x : CoreSt) : (s.setCore n x).olc = s.olc := rfl
@[simp] theorem State.setCore_str (n : Nat) (x : CoreSt) : (s.setCore n x).str = s.str := rfl
@[simp] theorem State.setCore_hnw (n : Nat) (x : CoreSt) : (s.setCore n x).hnw = s.hnw := rfl
@[simp] theorem State.setCore_ntm (n : Nat) (x : CoreSt) : (s.setCore n x).ntm = s.ntm := rfl
@[simp] theorem State.setCore_red (n : Nat) (x : CoreSt) : (s.setCore n x).red = s.red := rfl
@[simp] theorem State.setCore_fio (n : Nat) (x : CoreSt) : (s.setCore n x).fio = s.fio := rfl
@[simp] theorem State.setCore_mbc (n : Nat) (x : CoreSt) : (s.setCore n x).mbc = s.mbc := rfl
@[simp] theorem State.setCore_dma (n : Nat) (x : CoreSt) : (s.setCore n x).dma = s.dma := rfl
@[simp] theorem State.setCore_bdr (n : Nat) (x : CoreSt) : (s.setCore n x).bdr = s.bdr := rfl
@[simp] theorem State.setCore_cal (n : Nat) (x : CoreSt) : (s.setCore n x).cal = s.cal := rfl
@[simp] theorem State.setCore_rsv (n : Nat) (x : CoreSt) : (s.setCore n x).rsv = s.rsv := rfl
@[simp] theorem State.setCore_wdg (n : Nat) (x : CoreSt) : (s.setCore n x).wdg = s.wdg := rfl
@[simp] theorem State.setCore_chk (n : Nat) (x : CoreSt) : (s.setCore n x).chk = s.chk := rfl
@[simp] theorem State.setCore_flt (n : Nat) (x : CoreSt) : (s.setCore n x).flt = s.flt := rfl
@[simp] theorem State.setCore_sta (n : Nat) (x : CoreSt) : (s.setCore n x).sta = s.sta := rfl
@[simp] theorem State.setCore_snp (n : Nat) (x : CoreSt) : (s.setCore n x).snp = s.snp := rfl
@[simp] theorem State.setCore_hlt (n : Nat) (x : CoreSt) : (s.setCore n x).hlt = s.hlt := rfl
@[simp] theorem State.setCore_pmc (n : Nat) (x : CoreSt) : (s.setCore n x).pmc = s.pmc := rfl
@[simp] theorem State.setCore_pwr (n : Nat) (x : CoreSt) : (s.setCore n x).pwr = s.pwr := rfl
@[simp] theorem State.setCore_fresh (n : Nat) (x : CoreSt) : (s.setCore n x).fresh = s.fresh := rfl
@[simp] theorem State.setCore_pending (n : Nat) (x : CoreSt) : (s.setCore n x).pending = s.pending := rfl

/-! ### setTask -/

@[simp] theorem State.setTask_part (n : Nat) (x : Task) : (s.setTask n x).part = s.part := rfl
@[simp] theorem State.setTask_objs (n : Nat) (x : Task) : (s.setTask n x).objs = s.objs := rfl
@[simp] theorem State.setTask_doms (n : Nat) (x : Task) : (s.setTask n x).doms = s.doms := rfl
@[simp] theorem State.setTask_mem (n : Nat) (x : Task) : (s.setTask n x).mem = s.mem := rfl
@[simp] theorem State.setTask_ecc (n : Nat) (x : Task) : (s.setTask n x).ecc = s.ecc := rfl
@[simp] theorem State.setTask_owners (n : Nat) (x : Task) : (s.setTask n x).owners = s.owners := rfl
@[simp] theorem State.setTask_sess (n : Nat) (x : Task) : (s.setTask n x).sess = s.sess := rfl
@[simp] theorem State.setTask_dic (n : Nat) (x : Task) : (s.setTask n x).dic = s.dic := rfl
@[simp] theorem State.setTask_ctxs (n : Nat) (x : Task) : (s.setTask n x).ctxs = s.ctxs := rfl
@[simp] theorem State.setTask_cores (n : Nat) (x : Task) : (s.setTask n x).cores = s.cores := rfl
@[simp] theorem State.setTask_tds (n : Nat) (x : Task) : (s.setTask n x).tds = s.tds := rfl
@[simp] theorem State.setTask_img (n : Nat) (x : Task) : (s.setTask n x).img = s.img := rfl
@[simp] theorem State.setTask_retAt (n : Nat) (x : Task) : (s.setTask n x).retAt = s.retAt := rfl
@[simp] theorem State.setTask_retNext (n : Nat) (x : Task) : (s.setTask n x).retNext = s.retNext := rfl
@[simp] theorem State.setTask_olc (n : Nat) (x : Task) : (s.setTask n x).olc = s.olc := rfl
@[simp] theorem State.setTask_str (n : Nat) (x : Task) : (s.setTask n x).str = s.str := rfl
@[simp] theorem State.setTask_hnw (n : Nat) (x : Task) : (s.setTask n x).hnw = s.hnw := rfl
@[simp] theorem State.setTask_ntm (n : Nat) (x : Task) : (s.setTask n x).ntm = s.ntm := rfl
@[simp] theorem State.setTask_red (n : Nat) (x : Task) : (s.setTask n x).red = s.red := rfl
@[simp] theorem State.setTask_fio (n : Nat) (x : Task) : (s.setTask n x).fio = s.fio := rfl
@[simp] theorem State.setTask_mbc (n : Nat) (x : Task) : (s.setTask n x).mbc = s.mbc := rfl
@[simp] theorem State.setTask_dma (n : Nat) (x : Task) : (s.setTask n x).dma = s.dma := rfl
@[simp] theorem State.setTask_bdr (n : Nat) (x : Task) : (s.setTask n x).bdr = s.bdr := rfl
@[simp] theorem State.setTask_cal (n : Nat) (x : Task) : (s.setTask n x).cal = s.cal := rfl
@[simp] theorem State.setTask_rsv (n : Nat) (x : Task) : (s.setTask n x).rsv = s.rsv := rfl
@[simp] theorem State.setTask_wdg (n : Nat) (x : Task) : (s.setTask n x).wdg = s.wdg := rfl
@[simp] theorem State.setTask_chk (n : Nat) (x : Task) : (s.setTask n x).chk = s.chk := rfl
@[simp] theorem State.setTask_flt (n : Nat) (x : Task) : (s.setTask n x).flt = s.flt := rfl
@[simp] theorem State.setTask_sta (n : Nat) (x : Task) : (s.setTask n x).sta = s.sta := rfl
@[simp] theorem State.setTask_snp (n : Nat) (x : Task) : (s.setTask n x).snp = s.snp := rfl
@[simp] theorem State.setTask_hlt (n : Nat) (x : Task) : (s.setTask n x).hlt = s.hlt := rfl
@[simp] theorem State.setTask_pmc (n : Nat) (x : Task) : (s.setTask n x).pmc = s.pmc := rfl
@[simp] theorem State.setTask_pwr (n : Nat) (x : Task) : (s.setTask n x).pwr = s.pwr := rfl
@[simp] theorem State.setTask_fresh (n : Nat) (x : Task) : (s.setTask n x).fresh = s.fresh := rfl
@[simp] theorem State.setTask_pending (n : Nat) (x : Task) : (s.setTask n x).pending = s.pending := rfl

/-! ### setStn -/

@[simp] theorem State.setStn_part (n : Nat) (x : Sta) : (s.setStn n x).part = s.part := rfl
@[simp] theorem State.setStn_objs (n : Nat) (x : Sta) : (s.setStn n x).objs = s.objs := rfl
@[simp] theorem State.setStn_doms (n : Nat) (x : Sta) : (s.setStn n x).doms = s.doms := rfl
@[simp] theorem State.setStn_mem (n : Nat) (x : Sta) : (s.setStn n x).mem = s.mem := rfl
@[simp] theorem State.setStn_ecc (n : Nat) (x : Sta) : (s.setStn n x).ecc = s.ecc := rfl
@[simp] theorem State.setStn_owners (n : Nat) (x : Sta) : (s.setStn n x).owners = s.owners := rfl
@[simp] theorem State.setStn_sess (n : Nat) (x : Sta) : (s.setStn n x).sess = s.sess := rfl
@[simp] theorem State.setStn_dic (n : Nat) (x : Sta) : (s.setStn n x).dic = s.dic := rfl
@[simp] theorem State.setStn_ctxs (n : Nat) (x : Sta) : (s.setStn n x).ctxs = s.ctxs := rfl
@[simp] theorem State.setStn_cores (n : Nat) (x : Sta) : (s.setStn n x).cores = s.cores := rfl
@[simp] theorem State.setStn_tds (n : Nat) (x : Sta) : (s.setStn n x).tds = s.tds := rfl
@[simp] theorem State.setStn_tasks (n : Nat) (x : Sta) : (s.setStn n x).tasks = s.tasks := rfl
@[simp] theorem State.setStn_img (n : Nat) (x : Sta) : (s.setStn n x).img = s.img := rfl
@[simp] theorem State.setStn_retAt (n : Nat) (x : Sta) : (s.setStn n x).retAt = s.retAt := rfl
@[simp] theorem State.setStn_retNext (n : Nat) (x : Sta) : (s.setStn n x).retNext = s.retNext := rfl
@[simp] theorem State.setStn_olc (n : Nat) (x : Sta) : (s.setStn n x).olc = s.olc := rfl
@[simp] theorem State.setStn_str (n : Nat) (x : Sta) : (s.setStn n x).str = s.str := rfl
@[simp] theorem State.setStn_ntm (n : Nat) (x : Sta) : (s.setStn n x).ntm = s.ntm := rfl
@[simp] theorem State.setStn_red (n : Nat) (x : Sta) : (s.setStn n x).red = s.red := rfl
@[simp] theorem State.setStn_fio (n : Nat) (x : Sta) : (s.setStn n x).fio = s.fio := rfl
@[simp] theorem State.setStn_mbc (n : Nat) (x : Sta) : (s.setStn n x).mbc = s.mbc := rfl
@[simp] theorem State.setStn_dma (n : Nat) (x : Sta) : (s.setStn n x).dma = s.dma := rfl
@[simp] theorem State.setStn_bdr (n : Nat) (x : Sta) : (s.setStn n x).bdr = s.bdr := rfl
@[simp] theorem State.setStn_cal (n : Nat) (x : Sta) : (s.setStn n x).cal = s.cal := rfl
@[simp] theorem State.setStn_rsv (n : Nat) (x : Sta) : (s.setStn n x).rsv = s.rsv := rfl
@[simp] theorem State.setStn_wdg (n : Nat) (x : Sta) : (s.setStn n x).wdg = s.wdg := rfl
@[simp] theorem State.setStn_chk (n : Nat) (x : Sta) : (s.setStn n x).chk = s.chk := rfl
@[simp] theorem State.setStn_flt (n : Nat) (x : Sta) : (s.setStn n x).flt = s.flt := rfl
@[simp] theorem State.setStn_sta (n : Nat) (x : Sta) : (s.setStn n x).sta = s.sta := rfl
@[simp] theorem State.setStn_snp (n : Nat) (x : Sta) : (s.setStn n x).snp = s.snp := rfl
@[simp] theorem State.setStn_hlt (n : Nat) (x : Sta) : (s.setStn n x).hlt = s.hlt := rfl
@[simp] theorem State.setStn_pmc (n : Nat) (x : Sta) : (s.setStn n x).pmc = s.pmc := rfl
@[simp] theorem State.setStn_pwr (n : Nat) (x : Sta) : (s.setStn n x).pwr = s.pwr := rfl
@[simp] theorem State.setStn_fresh (n : Nat) (x : Sta) : (s.setStn n x).fresh = s.fresh := rfl
@[simp] theorem State.setStn_pending (n : Nat) (x : Sta) : (s.setStn n x).pending = s.pending := rfl

/-! ### setMb -/

@[simp] theorem State.setMb_part (n : Nat) (x : Mbc) : (s.setMb n x).part = s.part := rfl
@[simp] theorem State.setMb_objs (n : Nat) (x : Mbc) : (s.setMb n x).objs = s.objs := rfl
@[simp] theorem State.setMb_doms (n : Nat) (x : Mbc) : (s.setMb n x).doms = s.doms := rfl
@[simp] theorem State.setMb_mem (n : Nat) (x : Mbc) : (s.setMb n x).mem = s.mem := rfl
@[simp] theorem State.setMb_ecc (n : Nat) (x : Mbc) : (s.setMb n x).ecc = s.ecc := rfl
@[simp] theorem State.setMb_owners (n : Nat) (x : Mbc) : (s.setMb n x).owners = s.owners := rfl
@[simp] theorem State.setMb_sess (n : Nat) (x : Mbc) : (s.setMb n x).sess = s.sess := rfl
@[simp] theorem State.setMb_dic (n : Nat) (x : Mbc) : (s.setMb n x).dic = s.dic := rfl
@[simp] theorem State.setMb_ctxs (n : Nat) (x : Mbc) : (s.setMb n x).ctxs = s.ctxs := rfl
@[simp] theorem State.setMb_cores (n : Nat) (x : Mbc) : (s.setMb n x).cores = s.cores := rfl
@[simp] theorem State.setMb_tds (n : Nat) (x : Mbc) : (s.setMb n x).tds = s.tds := rfl
@[simp] theorem State.setMb_tasks (n : Nat) (x : Mbc) : (s.setMb n x).tasks = s.tasks := rfl
@[simp] theorem State.setMb_img (n : Nat) (x : Mbc) : (s.setMb n x).img = s.img := rfl
@[simp] theorem State.setMb_retAt (n : Nat) (x : Mbc) : (s.setMb n x).retAt = s.retAt := rfl
@[simp] theorem State.setMb_retNext (n : Nat) (x : Mbc) : (s.setMb n x).retNext = s.retNext := rfl
@[simp] theorem State.setMb_olc (n : Nat) (x : Mbc) : (s.setMb n x).olc = s.olc := rfl
@[simp] theorem State.setMb_str (n : Nat) (x : Mbc) : (s.setMb n x).str = s.str := rfl
@[simp] theorem State.setMb_hnw (n : Nat) (x : Mbc) : (s.setMb n x).hnw = s.hnw := rfl
@[simp] theorem State.setMb_ntm (n : Nat) (x : Mbc) : (s.setMb n x).ntm = s.ntm := rfl
@[simp] theorem State.setMb_red (n : Nat) (x : Mbc) : (s.setMb n x).red = s.red := rfl
@[simp] theorem State.setMb_fio (n : Nat) (x : Mbc) : (s.setMb n x).fio = s.fio := rfl
@[simp] theorem State.setMb_dma (n : Nat) (x : Mbc) : (s.setMb n x).dma = s.dma := rfl
@[simp] theorem State.setMb_bdr (n : Nat) (x : Mbc) : (s.setMb n x).bdr = s.bdr := rfl
@[simp] theorem State.setMb_cal (n : Nat) (x : Mbc) : (s.setMb n x).cal = s.cal := rfl
@[simp] theorem State.setMb_rsv (n : Nat) (x : Mbc) : (s.setMb n x).rsv = s.rsv := rfl
@[simp] theorem State.setMb_wdg (n : Nat) (x : Mbc) : (s.setMb n x).wdg = s.wdg := rfl
@[simp] theorem State.setMb_chk (n : Nat) (x : Mbc) : (s.setMb n x).chk = s.chk := rfl
@[simp] theorem State.setMb_flt (n : Nat) (x : Mbc) : (s.setMb n x).flt = s.flt := rfl
@[simp] theorem State.setMb_sta (n : Nat) (x : Mbc) : (s.setMb n x).sta = s.sta := rfl
@[simp] theorem State.setMb_snp (n : Nat) (x : Mbc) : (s.setMb n x).snp = s.snp := rfl
@[simp] theorem State.setMb_hlt (n : Nat) (x : Mbc) : (s.setMb n x).hlt = s.hlt := rfl
@[simp] theorem State.setMb_pmc (n : Nat) (x : Mbc) : (s.setMb n x).pmc = s.pmc := rfl
@[simp] theorem State.setMb_pwr (n : Nat) (x : Mbc) : (s.setMb n x).pwr = s.pwr := rfl
@[simp] theorem State.setMb_fresh (n : Nat) (x : Mbc) : (s.setMb n x).fresh = s.fresh := rfl
@[simp] theorem State.setMb_pending (n : Nat) (x : Mbc) : (s.setMb n x).pending = s.pending := rfl

/-! ### setCh -/

@[simp] theorem State.setCh_part (n : Nat) (x : Dma) : (s.setCh n x).part = s.part := rfl
@[simp] theorem State.setCh_objs (n : Nat) (x : Dma) : (s.setCh n x).objs = s.objs := rfl
@[simp] theorem State.setCh_doms (n : Nat) (x : Dma) : (s.setCh n x).doms = s.doms := rfl
@[simp] theorem State.setCh_mem (n : Nat) (x : Dma) : (s.setCh n x).mem = s.mem := rfl
@[simp] theorem State.setCh_ecc (n : Nat) (x : Dma) : (s.setCh n x).ecc = s.ecc := rfl
@[simp] theorem State.setCh_owners (n : Nat) (x : Dma) : (s.setCh n x).owners = s.owners := rfl
@[simp] theorem State.setCh_sess (n : Nat) (x : Dma) : (s.setCh n x).sess = s.sess := rfl
@[simp] theorem State.setCh_dic (n : Nat) (x : Dma) : (s.setCh n x).dic = s.dic := rfl
@[simp] theorem State.setCh_ctxs (n : Nat) (x : Dma) : (s.setCh n x).ctxs = s.ctxs := rfl
@[simp] theorem State.setCh_cores (n : Nat) (x : Dma) : (s.setCh n x).cores = s.cores := rfl
@[simp] theorem State.setCh_tds (n : Nat) (x : Dma) : (s.setCh n x).tds = s.tds := rfl
@[simp] theorem State.setCh_tasks (n : Nat) (x : Dma) : (s.setCh n x).tasks = s.tasks := rfl
@[simp] theorem State.setCh_img (n : Nat) (x : Dma) : (s.setCh n x).img = s.img := rfl
@[simp] theorem State.setCh_retAt (n : Nat) (x : Dma) : (s.setCh n x).retAt = s.retAt := rfl
@[simp] theorem State.setCh_retNext (n : Nat) (x : Dma) : (s.setCh n x).retNext = s.retNext := rfl
@[simp] theorem State.setCh_olc (n : Nat) (x : Dma) : (s.setCh n x).olc = s.olc := rfl
@[simp] theorem State.setCh_str (n : Nat) (x : Dma) : (s.setCh n x).str = s.str := rfl
@[simp] theorem State.setCh_hnw (n : Nat) (x : Dma) : (s.setCh n x).hnw = s.hnw := rfl
@[simp] theorem State.setCh_ntm (n : Nat) (x : Dma) : (s.setCh n x).ntm = s.ntm := rfl
@[simp] theorem State.setCh_red (n : Nat) (x : Dma) : (s.setCh n x).red = s.red := rfl
@[simp] theorem State.setCh_fio (n : Nat) (x : Dma) : (s.setCh n x).fio = s.fio := rfl
@[simp] theorem State.setCh_mbc (n : Nat) (x : Dma) : (s.setCh n x).mbc = s.mbc := rfl
@[simp] theorem State.setCh_bdr (n : Nat) (x : Dma) : (s.setCh n x).bdr = s.bdr := rfl
@[simp] theorem State.setCh_cal (n : Nat) (x : Dma) : (s.setCh n x).cal = s.cal := rfl
@[simp] theorem State.setCh_rsv (n : Nat) (x : Dma) : (s.setCh n x).rsv = s.rsv := rfl
@[simp] theorem State.setCh_wdg (n : Nat) (x : Dma) : (s.setCh n x).wdg = s.wdg := rfl
@[simp] theorem State.setCh_chk (n : Nat) (x : Dma) : (s.setCh n x).chk = s.chk := rfl
@[simp] theorem State.setCh_flt (n : Nat) (x : Dma) : (s.setCh n x).flt = s.flt := rfl
@[simp] theorem State.setCh_sta (n : Nat) (x : Dma) : (s.setCh n x).sta = s.sta := rfl
@[simp] theorem State.setCh_snp (n : Nat) (x : Dma) : (s.setCh n x).snp = s.snp := rfl
@[simp] theorem State.setCh_hlt (n : Nat) (x : Dma) : (s.setCh n x).hlt = s.hlt := rfl
@[simp] theorem State.setCh_pmc (n : Nat) (x : Dma) : (s.setCh n x).pmc = s.pmc := rfl
@[simp] theorem State.setCh_pwr (n : Nat) (x : Dma) : (s.setCh n x).pwr = s.pwr := rfl
@[simp] theorem State.setCh_fresh (n : Nat) (x : Dma) : (s.setCh n x).fresh = s.fresh := rfl
@[simp] theorem State.setCh_pending (n : Nat) (x : Dma) : (s.setCh n x).pending = s.pending := rfl

/-! ### setWd -/

@[simp] theorem State.setWd_part (n : Nat) (x : Wdg) : (s.setWd n x).part = s.part := rfl
@[simp] theorem State.setWd_objs (n : Nat) (x : Wdg) : (s.setWd n x).objs = s.objs := rfl
@[simp] theorem State.setWd_doms (n : Nat) (x : Wdg) : (s.setWd n x).doms = s.doms := rfl
@[simp] theorem State.setWd_mem (n : Nat) (x : Wdg) : (s.setWd n x).mem = s.mem := rfl
@[simp] theorem State.setWd_ecc (n : Nat) (x : Wdg) : (s.setWd n x).ecc = s.ecc := rfl
@[simp] theorem State.setWd_owners (n : Nat) (x : Wdg) : (s.setWd n x).owners = s.owners := rfl
@[simp] theorem State.setWd_sess (n : Nat) (x : Wdg) : (s.setWd n x).sess = s.sess := rfl
@[simp] theorem State.setWd_dic (n : Nat) (x : Wdg) : (s.setWd n x).dic = s.dic := rfl
@[simp] theorem State.setWd_ctxs (n : Nat) (x : Wdg) : (s.setWd n x).ctxs = s.ctxs := rfl
@[simp] theorem State.setWd_cores (n : Nat) (x : Wdg) : (s.setWd n x).cores = s.cores := rfl
@[simp] theorem State.setWd_tds (n : Nat) (x : Wdg) : (s.setWd n x).tds = s.tds := rfl
@[simp] theorem State.setWd_tasks (n : Nat) (x : Wdg) : (s.setWd n x).tasks = s.tasks := rfl
@[simp] theorem State.setWd_img (n : Nat) (x : Wdg) : (s.setWd n x).img = s.img := rfl
@[simp] theorem State.setWd_retAt (n : Nat) (x : Wdg) : (s.setWd n x).retAt = s.retAt := rfl
@[simp] theorem State.setWd_retNext (n : Nat) (x : Wdg) : (s.setWd n x).retNext = s.retNext := rfl
@[simp] theorem State.setWd_olc (n : Nat) (x : Wdg) : (s.setWd n x).olc = s.olc := rfl
@[simp] theorem State.setWd_str (n : Nat) (x : Wdg) : (s.setWd n x).str = s.str := rfl
@[simp] theorem State.setWd_hnw (n : Nat) (x : Wdg) : (s.setWd n x).hnw = s.hnw := rfl
@[simp] theorem State.setWd_ntm (n : Nat) (x : Wdg) : (s.setWd n x).ntm = s.ntm := rfl
@[simp] theorem State.setWd_red (n : Nat) (x : Wdg) : (s.setWd n x).red = s.red := rfl
@[simp] theorem State.setWd_fio (n : Nat) (x : Wdg) : (s.setWd n x).fio = s.fio := rfl
@[simp] theorem State.setWd_mbc (n : Nat) (x : Wdg) : (s.setWd n x).mbc = s.mbc := rfl
@[simp] theorem State.setWd_dma (n : Nat) (x : Wdg) : (s.setWd n x).dma = s.dma := rfl
@[simp] theorem State.setWd_bdr (n : Nat) (x : Wdg) : (s.setWd n x).bdr = s.bdr := rfl
@[simp] theorem State.setWd_cal (n : Nat) (x : Wdg) : (s.setWd n x).cal = s.cal := rfl
@[simp] theorem State.setWd_rsv (n : Nat) (x : Wdg) : (s.setWd n x).rsv = s.rsv := rfl
@[simp] theorem State.setWd_chk (n : Nat) (x : Wdg) : (s.setWd n x).chk = s.chk := rfl
@[simp] theorem State.setWd_flt (n : Nat) (x : Wdg) : (s.setWd n x).flt = s.flt := rfl
@[simp] theorem State.setWd_sta (n : Nat) (x : Wdg) : (s.setWd n x).sta = s.sta := rfl
@[simp] theorem State.setWd_snp (n : Nat) (x : Wdg) : (s.setWd n x).snp = s.snp := rfl
@[simp] theorem State.setWd_hlt (n : Nat) (x : Wdg) : (s.setWd n x).hlt = s.hlt := rfl
@[simp] theorem State.setWd_pmc (n : Nat) (x : Wdg) : (s.setWd n x).pmc = s.pmc := rfl
@[simp] theorem State.setWd_pwr (n : Nat) (x : Wdg) : (s.setWd n x).pwr = s.pwr := rfl
@[simp] theorem State.setWd_fresh (n : Nat) (x : Wdg) : (s.setWd n x).fresh = s.fresh := rfl
@[simp] theorem State.setWd_pending (n : Nat) (x : Wdg) : (s.setWd n x).pending = s.pending := rfl

/-! ### setOwner -/

@[simp] theorem State.setOwner_part (k v : Nat) : (s.setOwner k v).part = s.part := rfl
@[simp] theorem State.setOwner_objs (k v : Nat) : (s.setOwner k v).objs = s.objs := rfl
@[simp] theorem State.setOwner_doms (k v : Nat) : (s.setOwner k v).doms = s.doms := rfl
@[simp] theorem State.setOwner_mem (k v : Nat) : (s.setOwner k v).mem = s.mem := rfl
@[simp] theorem State.setOwner_ecc (k v : Nat) : (s.setOwner k v).ecc = s.ecc := rfl
@[simp] theorem State.setOwner_sess (k v : Nat) : (s.setOwner k v).sess = s.sess := rfl
@[simp] theorem State.setOwner_dic (k v : Nat) : (s.setOwner k v).dic = s.dic := rfl
@[simp] theorem State.setOwner_ctxs (k v : Nat) : (s.setOwner k v).ctxs = s.ctxs := rfl
@[simp] theorem State.setOwner_cores (k v : Nat) : (s.setOwner k v).cores = s.cores := rfl
@[simp] theorem State.setOwner_tds (k v : Nat) : (s.setOwner k v).tds = s.tds := rfl
@[simp] theorem State.setOwner_tasks (k v : Nat) : (s.setOwner k v).tasks = s.tasks := rfl
@[simp] theorem State.setOwner_img (k v : Nat) : (s.setOwner k v).img = s.img := rfl
@[simp] theorem State.setOwner_retAt (k v : Nat) : (s.setOwner k v).retAt = s.retAt := rfl
@[simp] theorem State.setOwner_retNext (k v : Nat) : (s.setOwner k v).retNext = s.retNext := rfl
@[simp] theorem State.setOwner_olc (k v : Nat) : (s.setOwner k v).olc = s.olc := rfl
@[simp] theorem State.setOwner_str (k v : Nat) : (s.setOwner k v).str = s.str := rfl
@[simp] theorem State.setOwner_hnw (k v : Nat) : (s.setOwner k v).hnw = s.hnw := rfl
@[simp] theorem State.setOwner_ntm (k v : Nat) : (s.setOwner k v).ntm = s.ntm := rfl
@[simp] theorem State.setOwner_red (k v : Nat) : (s.setOwner k v).red = s.red := rfl
@[simp] theorem State.setOwner_fio (k v : Nat) : (s.setOwner k v).fio = s.fio := rfl
@[simp] theorem State.setOwner_mbc (k v : Nat) : (s.setOwner k v).mbc = s.mbc := rfl
@[simp] theorem State.setOwner_dma (k v : Nat) : (s.setOwner k v).dma = s.dma := rfl
@[simp] theorem State.setOwner_bdr (k v : Nat) : (s.setOwner k v).bdr = s.bdr := rfl
@[simp] theorem State.setOwner_cal (k v : Nat) : (s.setOwner k v).cal = s.cal := rfl
@[simp] theorem State.setOwner_rsv (k v : Nat) : (s.setOwner k v).rsv = s.rsv := rfl
@[simp] theorem State.setOwner_wdg (k v : Nat) : (s.setOwner k v).wdg = s.wdg := rfl
@[simp] theorem State.setOwner_chk (k v : Nat) : (s.setOwner k v).chk = s.chk := rfl
@[simp] theorem State.setOwner_flt (k v : Nat) : (s.setOwner k v).flt = s.flt := rfl
@[simp] theorem State.setOwner_sta (k v : Nat) : (s.setOwner k v).sta = s.sta := rfl
@[simp] theorem State.setOwner_snp (k v : Nat) : (s.setOwner k v).snp = s.snp := rfl
@[simp] theorem State.setOwner_hlt (k v : Nat) : (s.setOwner k v).hlt = s.hlt := rfl
@[simp] theorem State.setOwner_pmc (k v : Nat) : (s.setOwner k v).pmc = s.pmc := rfl
@[simp] theorem State.setOwner_pwr (k v : Nat) : (s.setOwner k v).pwr = s.pwr := rfl
@[simp] theorem State.setOwner_fresh (k v : Nat) : (s.setOwner k v).fresh = s.fresh := rfl
@[simp] theorem State.setOwner_pending (k v : Nat) : (s.setOwner k v).pending = s.pending := rfl

/-! ### setDomSt -/

@[simp] theorem State.setDomSt_part (n : Nat) (x : DomSt) : (s.setDomSt n x).part = s.part := rfl
@[simp] theorem State.setDomSt_objs (n : Nat) (x : DomSt) : (s.setDomSt n x).objs = s.objs := rfl
@[simp] theorem State.setDomSt_doms (n : Nat) (x : DomSt) : (s.setDomSt n x).doms = s.doms := rfl
@[simp] theorem State.setDomSt_mem (n : Nat) (x : DomSt) : (s.setDomSt n x).mem = s.mem := rfl
@[simp] theorem State.setDomSt_ecc (n : Nat) (x : DomSt) : (s.setDomSt n x).ecc = s.ecc := rfl
@[simp] theorem State.setDomSt_owners (n : Nat) (x : DomSt) : (s.setDomSt n x).owners = s.owners := rfl
@[simp] theorem State.setDomSt_sess (n : Nat) (x : DomSt) : (s.setDomSt n x).sess = s.sess := rfl
@[simp] theorem State.setDomSt_dic (n : Nat) (x : DomSt) : (s.setDomSt n x).dic = s.dic := rfl
@[simp] theorem State.setDomSt_ctxs (n : Nat) (x : DomSt) : (s.setDomSt n x).ctxs = s.ctxs := rfl
@[simp] theorem State.setDomSt_cores (n : Nat) (x : DomSt) : (s.setDomSt n x).cores = s.cores := rfl
@[simp] theorem State.setDomSt_tds (n : Nat) (x : DomSt) : (s.setDomSt n x).tds = s.tds := rfl
@[simp] theorem State.setDomSt_tasks (n : Nat) (x : DomSt) : (s.setDomSt n x).tasks = s.tasks := rfl
@[simp] theorem State.setDomSt_img (n : Nat) (x : DomSt) : (s.setDomSt n x).img = s.img := rfl
@[simp] theorem State.setDomSt_retAt (n : Nat) (x : DomSt) : (s.setDomSt n x).retAt = s.retAt := rfl
@[simp] theorem State.setDomSt_retNext (n : Nat) (x : DomSt) : (s.setDomSt n x).retNext = s.retNext := rfl
@[simp] theorem State.setDomSt_olc (n : Nat) (x : DomSt) : (s.setDomSt n x).olc = s.olc := rfl
@[simp] theorem State.setDomSt_str (n : Nat) (x : DomSt) : (s.setDomSt n x).str = s.str := rfl
@[simp] theorem State.setDomSt_hnw (n : Nat) (x : DomSt) : (s.setDomSt n x).hnw = s.hnw := rfl
@[simp] theorem State.setDomSt_ntm (n : Nat) (x : DomSt) : (s.setDomSt n x).ntm = s.ntm := rfl
@[simp] theorem State.setDomSt_red (n : Nat) (x : DomSt) : (s.setDomSt n x).red = s.red := rfl
@[simp] theorem State.setDomSt_fio (n : Nat) (x : DomSt) : (s.setDomSt n x).fio = s.fio := rfl
@[simp] theorem State.setDomSt_mbc (n : Nat) (x : DomSt) : (s.setDomSt n x).mbc = s.mbc := rfl
@[simp] theorem State.setDomSt_dma (n : Nat) (x : DomSt) : (s.setDomSt n x).dma = s.dma := rfl
@[simp] theorem State.setDomSt_bdr (n : Nat) (x : DomSt) : (s.setDomSt n x).bdr = s.bdr := rfl
@[simp] theorem State.setDomSt_cal (n : Nat) (x : DomSt) : (s.setDomSt n x).cal = s.cal := rfl
@[simp] theorem State.setDomSt_rsv (n : Nat) (x : DomSt) : (s.setDomSt n x).rsv = s.rsv := rfl
@[simp] theorem State.setDomSt_wdg (n : Nat) (x : DomSt) : (s.setDomSt n x).wdg = s.wdg := rfl
@[simp] theorem State.setDomSt_chk (n : Nat) (x : DomSt) : (s.setDomSt n x).chk = s.chk := rfl
@[simp] theorem State.setDomSt_flt (n : Nat) (x : DomSt) : (s.setDomSt n x).flt = s.flt := rfl
@[simp] theorem State.setDomSt_sta (n : Nat) (x : DomSt) : (s.setDomSt n x).sta = s.sta := rfl
@[simp] theorem State.setDomSt_snp (n : Nat) (x : DomSt) : (s.setDomSt n x).snp = s.snp := rfl
@[simp] theorem State.setDomSt_hlt (n : Nat) (x : DomSt) : (s.setDomSt n x).hlt = s.hlt := rfl
@[simp] theorem State.setDomSt_pmc (n : Nat) (x : DomSt) : (s.setDomSt n x).pmc = s.pmc := rfl
@[simp] theorem State.setDomSt_fresh (n : Nat) (x : DomSt) : (s.setDomSt n x).fresh = s.fresh := rfl
@[simp] theorem State.setDomSt_pending (n : Nat) (x : DomSt) : (s.setDomSt n x).pending = s.pending := rfl

/-! ### draw -/

@[simp] theorem State.draw_part : (s.draw).part = s.part := rfl
@[simp] theorem State.draw_objs : (s.draw).objs = s.objs := rfl
@[simp] theorem State.draw_doms : (s.draw).doms = s.doms := rfl
@[simp] theorem State.draw_mem : (s.draw).mem = s.mem := rfl
@[simp] theorem State.draw_ecc : (s.draw).ecc = s.ecc := rfl
@[simp] theorem State.draw_owners : (s.draw).owners = s.owners := rfl
@[simp] theorem State.draw_sess : (s.draw).sess = s.sess := rfl
@[simp] theorem State.draw_dic : (s.draw).dic = s.dic := rfl
@[simp] theorem State.draw_ctxs : (s.draw).ctxs = s.ctxs := rfl
@[simp] theorem State.draw_cores : (s.draw).cores = s.cores := rfl
@[simp] theorem State.draw_tds : (s.draw).tds = s.tds := rfl
@[simp] theorem State.draw_tasks : (s.draw).tasks = s.tasks := rfl
@[simp] theorem State.draw_img : (s.draw).img = s.img := rfl
@[simp] theorem State.draw_retAt : (s.draw).retAt = s.retAt := rfl
@[simp] theorem State.draw_retNext : (s.draw).retNext = s.retNext := rfl
@[simp] theorem State.draw_olc : (s.draw).olc = s.olc := rfl
@[simp] theorem State.draw_str : (s.draw).str = s.str := rfl
@[simp] theorem State.draw_hnw : (s.draw).hnw = s.hnw := rfl
@[simp] theorem State.draw_ntm : (s.draw).ntm = s.ntm := rfl
@[simp] theorem State.draw_red : (s.draw).red = s.red := rfl
@[simp] theorem State.draw_fio : (s.draw).fio = s.fio := rfl
@[simp] theorem State.draw_mbc : (s.draw).mbc = s.mbc := rfl
@[simp] theorem State.draw_dma : (s.draw).dma = s.dma := rfl
@[simp] theorem State.draw_bdr : (s.draw).bdr = s.bdr := rfl
@[simp] theorem State.draw_cal : (s.draw).cal = s.cal := rfl
@[simp] theorem State.draw_rsv : (s.draw).rsv = s.rsv := rfl
@[simp] theorem State.draw_wdg : (s.draw).wdg = s.wdg := rfl
@[simp] theorem State.draw_chk : (s.draw).chk = s.chk := rfl
@[simp] theorem State.draw_flt : (s.draw).flt = s.flt := rfl
@[simp] theorem State.draw_sta : (s.draw).sta = s.sta := rfl
@[simp] theorem State.draw_snp : (s.draw).snp = s.snp := rfl
@[simp] theorem State.draw_hlt : (s.draw).hlt = s.hlt := rfl
@[simp] theorem State.draw_pmc : (s.draw).pmc = s.pmc := rfl
@[simp] theorem State.draw_pwr : (s.draw).pwr = s.pwr := rfl
@[simp] theorem State.draw_pending : (s.draw).pending = s.pending := rfl

/-! ### setBdr -/

@[simp] theorem State.setBdr_part (f : Bdr → Bdr) : (s.setBdr f).part = s.part := rfl
@[simp] theorem State.setBdr_objs (f : Bdr → Bdr) : (s.setBdr f).objs = s.objs := rfl
@[simp] theorem State.setBdr_doms (f : Bdr → Bdr) : (s.setBdr f).doms = s.doms := rfl
@[simp] theorem State.setBdr_mem (f : Bdr → Bdr) : (s.setBdr f).mem = s.mem := rfl
@[simp] theorem State.setBdr_ecc (f : Bdr → Bdr) : (s.setBdr f).ecc = s.ecc := rfl
@[simp] theorem State.setBdr_owners (f : Bdr → Bdr) : (s.setBdr f).owners = s.owners := rfl
@[simp] theorem State.setBdr_sess (f : Bdr → Bdr) : (s.setBdr f).sess = s.sess := rfl
@[simp] theorem State.setBdr_dic (f : Bdr → Bdr) : (s.setBdr f).dic = s.dic := rfl
@[simp] theorem State.setBdr_ctxs (f : Bdr → Bdr) : (s.setBdr f).ctxs = s.ctxs := rfl
@[simp] theorem State.setBdr_cores (f : Bdr → Bdr) : (s.setBdr f).cores = s.cores := rfl
@[simp] theorem State.setBdr_tds (f : Bdr → Bdr) : (s.setBdr f).tds = s.tds := rfl
@[simp] theorem State.setBdr_tasks (f : Bdr → Bdr) : (s.setBdr f).tasks = s.tasks := rfl
@[simp] theorem State.setBdr_img (f : Bdr → Bdr) : (s.setBdr f).img = s.img := rfl
@[simp] theorem State.setBdr_retAt (f : Bdr → Bdr) : (s.setBdr f).retAt = s.retAt := rfl
@[simp] theorem State.setBdr_retNext (f : Bdr → Bdr) : (s.setBdr f).retNext = s.retNext := rfl
@[simp] theorem State.setBdr_olc (f : Bdr → Bdr) : (s.setBdr f).olc = s.olc := rfl
@[simp] theorem State.setBdr_str (f : Bdr → Bdr) : (s.setBdr f).str = s.str := rfl
@[simp] theorem State.setBdr_hnw (f : Bdr → Bdr) : (s.setBdr f).hnw = s.hnw := rfl
@[simp] theorem State.setBdr_ntm (f : Bdr → Bdr) : (s.setBdr f).ntm = s.ntm := rfl
@[simp] theorem State.setBdr_red (f : Bdr → Bdr) : (s.setBdr f).red = s.red := rfl
@[simp] theorem State.setBdr_fio (f : Bdr → Bdr) : (s.setBdr f).fio = s.fio := rfl
@[simp] theorem State.setBdr_mbc (f : Bdr → Bdr) : (s.setBdr f).mbc = s.mbc := rfl
@[simp] theorem State.setBdr_dma (f : Bdr → Bdr) : (s.setBdr f).dma = s.dma := rfl
@[simp] theorem State.setBdr_bdr (f : Bdr → Bdr) : (s.setBdr f).bdr = f s.bdr := rfl
@[simp] theorem State.setBdr_cal (f : Bdr → Bdr) : (s.setBdr f).cal = s.cal := rfl
@[simp] theorem State.setBdr_rsv (f : Bdr → Bdr) : (s.setBdr f).rsv = s.rsv := rfl
@[simp] theorem State.setBdr_wdg (f : Bdr → Bdr) : (s.setBdr f).wdg = s.wdg := rfl
@[simp] theorem State.setBdr_chk (f : Bdr → Bdr) : (s.setBdr f).chk = s.chk := rfl
@[simp] theorem State.setBdr_flt (f : Bdr → Bdr) : (s.setBdr f).flt = s.flt := rfl
@[simp] theorem State.setBdr_sta (f : Bdr → Bdr) : (s.setBdr f).sta = s.sta := rfl
@[simp] theorem State.setBdr_snp (f : Bdr → Bdr) : (s.setBdr f).snp = s.snp := rfl
@[simp] theorem State.setBdr_hlt (f : Bdr → Bdr) : (s.setBdr f).hlt = s.hlt := rfl
@[simp] theorem State.setBdr_pmc (f : Bdr → Bdr) : (s.setBdr f).pmc = s.pmc := rfl
@[simp] theorem State.setBdr_pwr (f : Bdr → Bdr) : (s.setBdr f).pwr = s.pwr := rfl
@[simp] theorem State.setBdr_fresh (f : Bdr → Bdr) : (s.setBdr f).fresh = s.fresh := rfl
@[simp] theorem State.setBdr_pending (f : Bdr → Bdr) : (s.setBdr f).pending = s.pending := rfl

/-! ### setCal -/

@[simp] theorem State.setCal_part (f : Cal → Cal) : (s.setCal f).part = s.part := rfl
@[simp] theorem State.setCal_objs (f : Cal → Cal) : (s.setCal f).objs = s.objs := rfl
@[simp] theorem State.setCal_doms (f : Cal → Cal) : (s.setCal f).doms = s.doms := rfl
@[simp] theorem State.setCal_mem (f : Cal → Cal) : (s.setCal f).mem = s.mem := rfl
@[simp] theorem State.setCal_ecc (f : Cal → Cal) : (s.setCal f).ecc = s.ecc := rfl
@[simp] theorem State.setCal_owners (f : Cal → Cal) : (s.setCal f).owners = s.owners := rfl
@[simp] theorem State.setCal_sess (f : Cal → Cal) : (s.setCal f).sess = s.sess := rfl
@[simp] theorem State.setCal_dic (f : Cal → Cal) : (s.setCal f).dic = s.dic := rfl
@[simp] theorem State.setCal_ctxs (f : Cal → Cal) : (s.setCal f).ctxs = s.ctxs := rfl
@[simp] theorem State.setCal_cores (f : Cal → Cal) : (s.setCal f).cores = s.cores := rfl
@[simp] theorem State.setCal_tds (f : Cal → Cal) : (s.setCal f).tds = s.tds := rfl
@[simp] theorem State.setCal_tasks (f : Cal → Cal) : (s.setCal f).tasks = s.tasks := rfl
@[simp] theorem State.setCal_img (f : Cal → Cal) : (s.setCal f).img = s.img := rfl
@[simp] theorem State.setCal_retAt (f : Cal → Cal) : (s.setCal f).retAt = s.retAt := rfl
@[simp] theorem State.setCal_retNext (f : Cal → Cal) : (s.setCal f).retNext = s.retNext := rfl
@[simp] theorem State.setCal_olc (f : Cal → Cal) : (s.setCal f).olc = s.olc := rfl
@[simp] theorem State.setCal_str (f : Cal → Cal) : (s.setCal f).str = s.str := rfl
@[simp] theorem State.setCal_hnw (f : Cal → Cal) : (s.setCal f).hnw = s.hnw := rfl
@[simp] theorem State.setCal_ntm (f : Cal → Cal) : (s.setCal f).ntm = s.ntm := rfl
@[simp] theorem State.setCal_red (f : Cal → Cal) : (s.setCal f).red = s.red := rfl
@[simp] theorem State.setCal_fio (f : Cal → Cal) : (s.setCal f).fio = s.fio := rfl
@[simp] theorem State.setCal_mbc (f : Cal → Cal) : (s.setCal f).mbc = s.mbc := rfl
@[simp] theorem State.setCal_dma (f : Cal → Cal) : (s.setCal f).dma = s.dma := rfl
@[simp] theorem State.setCal_bdr (f : Cal → Cal) : (s.setCal f).bdr = s.bdr := rfl
@[simp] theorem State.setCal_cal (f : Cal → Cal) : (s.setCal f).cal = f s.cal := rfl
@[simp] theorem State.setCal_rsv (f : Cal → Cal) : (s.setCal f).rsv = s.rsv := rfl
@[simp] theorem State.setCal_wdg (f : Cal → Cal) : (s.setCal f).wdg = s.wdg := rfl
@[simp] theorem State.setCal_chk (f : Cal → Cal) : (s.setCal f).chk = s.chk := rfl
@[simp] theorem State.setCal_flt (f : Cal → Cal) : (s.setCal f).flt = s.flt := rfl
@[simp] theorem State.setCal_sta (f : Cal → Cal) : (s.setCal f).sta = s.sta := rfl
@[simp] theorem State.setCal_snp (f : Cal → Cal) : (s.setCal f).snp = s.snp := rfl
@[simp] theorem State.setCal_hlt (f : Cal → Cal) : (s.setCal f).hlt = s.hlt := rfl
@[simp] theorem State.setCal_pmc (f : Cal → Cal) : (s.setCal f).pmc = s.pmc := rfl
@[simp] theorem State.setCal_pwr (f : Cal → Cal) : (s.setCal f).pwr = s.pwr := rfl
@[simp] theorem State.setCal_fresh (f : Cal → Cal) : (s.setCal f).fresh = s.fresh := rfl
@[simp] theorem State.setCal_pending (f : Cal → Cal) : (s.setCal f).pending = s.pending := rfl

/-! ### setRsv -/

@[simp] theorem State.setRsv_part (f : Rsv → Rsv) : (s.setRsv f).part = s.part := rfl
@[simp] theorem State.setRsv_objs (f : Rsv → Rsv) : (s.setRsv f).objs = s.objs := rfl
@[simp] theorem State.setRsv_doms (f : Rsv → Rsv) : (s.setRsv f).doms = s.doms := rfl
@[simp] theorem State.setRsv_mem (f : Rsv → Rsv) : (s.setRsv f).mem = s.mem := rfl
@[simp] theorem State.setRsv_ecc (f : Rsv → Rsv) : (s.setRsv f).ecc = s.ecc := rfl
@[simp] theorem State.setRsv_owners (f : Rsv → Rsv) : (s.setRsv f).owners = s.owners := rfl
@[simp] theorem State.setRsv_sess (f : Rsv → Rsv) : (s.setRsv f).sess = s.sess := rfl
@[simp] theorem State.setRsv_dic (f : Rsv → Rsv) : (s.setRsv f).dic = s.dic := rfl
@[simp] theorem State.setRsv_ctxs (f : Rsv → Rsv) : (s.setRsv f).ctxs = s.ctxs := rfl
@[simp] theorem State.setRsv_cores (f : Rsv → Rsv) : (s.setRsv f).cores = s.cores := rfl
@[simp] theorem State.setRsv_tds (f : Rsv → Rsv) : (s.setRsv f).tds = s.tds := rfl
@[simp] theorem State.setRsv_tasks (f : Rsv → Rsv) : (s.setRsv f).tasks = s.tasks := rfl
@[simp] theorem State.setRsv_img (f : Rsv → Rsv) : (s.setRsv f).img = s.img := rfl
@[simp] theorem State.setRsv_retAt (f : Rsv → Rsv) : (s.setRsv f).retAt = s.retAt := rfl
@[simp] theorem State.setRsv_retNext (f : Rsv → Rsv) : (s.setRsv f).retNext = s.retNext := rfl
@[simp] theorem State.setRsv_olc (f : Rsv → Rsv) : (s.setRsv f).olc = s.olc := rfl
@[simp] theorem State.setRsv_str (f : Rsv → Rsv) : (s.setRsv f).str = s.str := rfl
@[simp] theorem State.setRsv_hnw (f : Rsv → Rsv) : (s.setRsv f).hnw = s.hnw := rfl
@[simp] theorem State.setRsv_ntm (f : Rsv → Rsv) : (s.setRsv f).ntm = s.ntm := rfl
@[simp] theorem State.setRsv_red (f : Rsv → Rsv) : (s.setRsv f).red = s.red := rfl
@[simp] theorem State.setRsv_fio (f : Rsv → Rsv) : (s.setRsv f).fio = s.fio := rfl
@[simp] theorem State.setRsv_mbc (f : Rsv → Rsv) : (s.setRsv f).mbc = s.mbc := rfl
@[simp] theorem State.setRsv_dma (f : Rsv → Rsv) : (s.setRsv f).dma = s.dma := rfl
@[simp] theorem State.setRsv_bdr (f : Rsv → Rsv) : (s.setRsv f).bdr = s.bdr := rfl
@[simp] theorem State.setRsv_cal (f : Rsv → Rsv) : (s.setRsv f).cal = s.cal := rfl
@[simp] theorem State.setRsv_rsv (f : Rsv → Rsv) : (s.setRsv f).rsv = f s.rsv := rfl
@[simp] theorem State.setRsv_wdg (f : Rsv → Rsv) : (s.setRsv f).wdg = s.wdg := rfl
@[simp] theorem State.setRsv_chk (f : Rsv → Rsv) : (s.setRsv f).chk = s.chk := rfl
@[simp] theorem State.setRsv_flt (f : Rsv → Rsv) : (s.setRsv f).flt = s.flt := rfl
@[simp] theorem State.setRsv_sta (f : Rsv → Rsv) : (s.setRsv f).sta = s.sta := rfl
@[simp] theorem State.setRsv_snp (f : Rsv → Rsv) : (s.setRsv f).snp = s.snp := rfl
@[simp] theorem State.setRsv_hlt (f : Rsv → Rsv) : (s.setRsv f).hlt = s.hlt := rfl
@[simp] theorem State.setRsv_pmc (f : Rsv → Rsv) : (s.setRsv f).pmc = s.pmc := rfl
@[simp] theorem State.setRsv_pwr (f : Rsv → Rsv) : (s.setRsv f).pwr = s.pwr := rfl
@[simp] theorem State.setRsv_fresh (f : Rsv → Rsv) : (s.setRsv f).fresh = s.fresh := rfl
@[simp] theorem State.setRsv_pending (f : Rsv → Rsv) : (s.setRsv f).pending = s.pending := rfl

/-! ### setFio -/

@[simp] theorem State.setFio_part (f : Fio → Fio) : (s.setFio f).part = s.part := rfl
@[simp] theorem State.setFio_objs (f : Fio → Fio) : (s.setFio f).objs = s.objs := rfl
@[simp] theorem State.setFio_doms (f : Fio → Fio) : (s.setFio f).doms = s.doms := rfl
@[simp] theorem State.setFio_mem (f : Fio → Fio) : (s.setFio f).mem = s.mem := rfl
@[simp] theorem State.setFio_ecc (f : Fio → Fio) : (s.setFio f).ecc = s.ecc := rfl
@[simp] theorem State.setFio_owners (f : Fio → Fio) : (s.setFio f).owners = s.owners := rfl
@[simp] theorem State.setFio_sess (f : Fio → Fio) : (s.setFio f).sess = s.sess := rfl
@[simp] theorem State.setFio_dic (f : Fio → Fio) : (s.setFio f).dic = s.dic := rfl
@[simp] theorem State.setFio_ctxs (f : Fio → Fio) : (s.setFio f).ctxs = s.ctxs := rfl
@[simp] theorem State.setFio_cores (f : Fio → Fio) : (s.setFio f).cores = s.cores := rfl
@[simp] theorem State.setFio_tds (f : Fio → Fio) : (s.setFio f).tds = s.tds := rfl
@[simp] theorem State.setFio_tasks (f : Fio → Fio) : (s.setFio f).tasks = s.tasks := rfl
@[simp] theorem State.setFio_img (f : Fio → Fio) : (s.setFio f).img = s.img := rfl
@[simp] theorem State.setFio_retAt (f : Fio → Fio) : (s.setFio f).retAt = s.retAt := rfl
@[simp] theorem State.setFio_retNext (f : Fio → Fio) : (s.setFio f).retNext = s.retNext := rfl
@[simp] theorem State.setFio_olc (f : Fio → Fio) : (s.setFio f).olc = s.olc := rfl
@[simp] theorem State.setFio_str (f : Fio → Fio) : (s.setFio f).str = s.str := rfl
@[simp] theorem State.setFio_hnw (f : Fio → Fio) : (s.setFio f).hnw = s.hnw := rfl
@[simp] theorem State.setFio_ntm (f : Fio → Fio) : (s.setFio f).ntm = s.ntm := rfl
@[simp] theorem State.setFio_red (f : Fio → Fio) : (s.setFio f).red = s.red := rfl
@[simp] theorem State.setFio_fio (f : Fio → Fio) : (s.setFio f).fio = f s.fio := rfl
@[simp] theorem State.setFio_mbc (f : Fio → Fio) : (s.setFio f).mbc = s.mbc := rfl
@[simp] theorem State.setFio_dma (f : Fio → Fio) : (s.setFio f).dma = s.dma := rfl
@[simp] theorem State.setFio_bdr (f : Fio → Fio) : (s.setFio f).bdr = s.bdr := rfl
@[simp] theorem State.setFio_cal (f : Fio → Fio) : (s.setFio f).cal = s.cal := rfl
@[simp] theorem State.setFio_rsv (f : Fio → Fio) : (s.setFio f).rsv = s.rsv := rfl
@[simp] theorem State.setFio_wdg (f : Fio → Fio) : (s.setFio f).wdg = s.wdg := rfl
@[simp] theorem State.setFio_chk (f : Fio → Fio) : (s.setFio f).chk = s.chk := rfl
@[simp] theorem State.setFio_flt (f : Fio → Fio) : (s.setFio f).flt = s.flt := rfl
@[simp] theorem State.setFio_sta (f : Fio → Fio) : (s.setFio f).sta = s.sta := rfl
@[simp] theorem State.setFio_snp (f : Fio → Fio) : (s.setFio f).snp = s.snp := rfl
@[simp] theorem State.setFio_hlt (f : Fio → Fio) : (s.setFio f).hlt = s.hlt := rfl
@[simp] theorem State.setFio_pmc (f : Fio → Fio) : (s.setFio f).pmc = s.pmc := rfl
@[simp] theorem State.setFio_pwr (f : Fio → Fio) : (s.setFio f).pwr = s.pwr := rfl
@[simp] theorem State.setFio_fresh (f : Fio → Fio) : (s.setFio f).fresh = s.fresh := rfl
@[simp] theorem State.setFio_pending (f : Fio → Fio) : (s.setFio f).pending = s.pending := rfl

/-! ### setHnw -/

@[simp] theorem State.setHnw_part (f : Hnw → Hnw) : (s.setHnw f).part = s.part := rfl
@[simp] theorem State.setHnw_objs (f : Hnw → Hnw) : (s.setHnw f).objs = s.objs := rfl
@[simp] theorem State.setHnw_doms (f : Hnw → Hnw) : (s.setHnw f).doms = s.doms := rfl
@[simp] theorem State.setHnw_mem (f : Hnw → Hnw) : (s.setHnw f).mem = s.mem := rfl
@[simp] theorem State.setHnw_ecc (f : Hnw → Hnw) : (s.setHnw f).ecc = s.ecc := rfl
@[simp] theorem State.setHnw_owners (f : Hnw → Hnw) : (s.setHnw f).owners = s.owners := rfl
@[simp] theorem State.setHnw_sess (f : Hnw → Hnw) : (s.setHnw f).sess = s.sess := rfl
@[simp] theorem State.setHnw_dic (f : Hnw → Hnw) : (s.setHnw f).dic = s.dic := rfl
@[simp] theorem State.setHnw_ctxs (f : Hnw → Hnw) : (s.setHnw f).ctxs = s.ctxs := rfl
@[simp] theorem State.setHnw_cores (f : Hnw → Hnw) : (s.setHnw f).cores = s.cores := rfl
@[simp] theorem State.setHnw_tds (f : Hnw → Hnw) : (s.setHnw f).tds = s.tds := rfl
@[simp] theorem State.setHnw_tasks (f : Hnw → Hnw) : (s.setHnw f).tasks = s.tasks := rfl
@[simp] theorem State.setHnw_img (f : Hnw → Hnw) : (s.setHnw f).img = s.img := rfl
@[simp] theorem State.setHnw_retAt (f : Hnw → Hnw) : (s.setHnw f).retAt = s.retAt := rfl
@[simp] theorem State.setHnw_retNext (f : Hnw → Hnw) : (s.setHnw f).retNext = s.retNext := rfl
@[simp] theorem State.setHnw_olc (f : Hnw → Hnw) : (s.setHnw f).olc = s.olc := rfl
@[simp] theorem State.setHnw_str (f : Hnw → Hnw) : (s.setHnw f).str = s.str := rfl
@[simp] theorem State.setHnw_hnw (f : Hnw → Hnw) : (s.setHnw f).hnw = f s.hnw := rfl
@[simp] theorem State.setHnw_ntm (f : Hnw → Hnw) : (s.setHnw f).ntm = s.ntm := rfl
@[simp] theorem State.setHnw_red (f : Hnw → Hnw) : (s.setHnw f).red = s.red := rfl
@[simp] theorem State.setHnw_fio (f : Hnw → Hnw) : (s.setHnw f).fio = s.fio := rfl
@[simp] theorem State.setHnw_mbc (f : Hnw → Hnw) : (s.setHnw f).mbc = s.mbc := rfl
@[simp] theorem State.setHnw_dma (f : Hnw → Hnw) : (s.setHnw f).dma = s.dma := rfl
@[simp] theorem State.setHnw_bdr (f : Hnw → Hnw) : (s.setHnw f).bdr = s.bdr := rfl
@[simp] theorem State.setHnw_cal (f : Hnw → Hnw) : (s.setHnw f).cal = s.cal := rfl
@[simp] theorem State.setHnw_rsv (f : Hnw → Hnw) : (s.setHnw f).rsv = s.rsv := rfl
@[simp] theorem State.setHnw_wdg (f : Hnw → Hnw) : (s.setHnw f).wdg = s.wdg := rfl
@[simp] theorem State.setHnw_chk (f : Hnw → Hnw) : (s.setHnw f).chk = s.chk := rfl
@[simp] theorem State.setHnw_flt (f : Hnw → Hnw) : (s.setHnw f).flt = s.flt := rfl
@[simp] theorem State.setHnw_sta (f : Hnw → Hnw) : (s.setHnw f).sta = s.sta := rfl
@[simp] theorem State.setHnw_snp (f : Hnw → Hnw) : (s.setHnw f).snp = s.snp := rfl
@[simp] theorem State.setHnw_hlt (f : Hnw → Hnw) : (s.setHnw f).hlt = s.hlt := rfl
@[simp] theorem State.setHnw_pmc (f : Hnw → Hnw) : (s.setHnw f).pmc = s.pmc := rfl
@[simp] theorem State.setHnw_pwr (f : Hnw → Hnw) : (s.setHnw f).pwr = s.pwr := rfl
@[simp] theorem State.setHnw_fresh (f : Hnw → Hnw) : (s.setHnw f).fresh = s.fresh := rfl
@[simp] theorem State.setHnw_pending (f : Hnw → Hnw) : (s.setHnw f).pending = s.pending := rfl

/-! ### setImg -/

@[simp] theorem State.setImg_part (f : Img → Img) : (s.setImg f).part = s.part := rfl
@[simp] theorem State.setImg_objs (f : Img → Img) : (s.setImg f).objs = s.objs := rfl
@[simp] theorem State.setImg_doms (f : Img → Img) : (s.setImg f).doms = s.doms := rfl
@[simp] theorem State.setImg_mem (f : Img → Img) : (s.setImg f).mem = s.mem := rfl
@[simp] theorem State.setImg_ecc (f : Img → Img) : (s.setImg f).ecc = s.ecc := rfl
@[simp] theorem State.setImg_owners (f : Img → Img) : (s.setImg f).owners = s.owners := rfl
@[simp] theorem State.setImg_sess (f : Img → Img) : (s.setImg f).sess = s.sess := rfl
@[simp] theorem State.setImg_dic (f : Img → Img) : (s.setImg f).dic = s.dic := rfl
@[simp] theorem State.setImg_ctxs (f : Img → Img) : (s.setImg f).ctxs = s.ctxs := rfl
@[simp] theorem State.setImg_cores (f : Img → Img) : (s.setImg f).cores = s.cores := rfl
@[simp] theorem State.setImg_tds (f : Img → Img) : (s.setImg f).tds = s.tds := rfl
@[simp] theorem State.setImg_tasks (f : Img → Img) : (s.setImg f).tasks = s.tasks := rfl
@[simp] theorem State.setImg_img (f : Img → Img) : (s.setImg f).img = f s.img := rfl
@[simp] theorem State.setImg_retAt (f : Img → Img) : (s.setImg f).retAt = s.retAt := rfl
@[simp] theorem State.setImg_retNext (f : Img → Img) : (s.setImg f).retNext = s.retNext := rfl
@[simp] theorem State.setImg_olc (f : Img → Img) : (s.setImg f).olc = s.olc := rfl
@[simp] theorem State.setImg_str (f : Img → Img) : (s.setImg f).str = s.str := rfl
@[simp] theorem State.setImg_hnw (f : Img → Img) : (s.setImg f).hnw = s.hnw := rfl
@[simp] theorem State.setImg_ntm (f : Img → Img) : (s.setImg f).ntm = s.ntm := rfl
@[simp] theorem State.setImg_red (f : Img → Img) : (s.setImg f).red = s.red := rfl
@[simp] theorem State.setImg_fio (f : Img → Img) : (s.setImg f).fio = s.fio := rfl
@[simp] theorem State.setImg_mbc (f : Img → Img) : (s.setImg f).mbc = s.mbc := rfl
@[simp] theorem State.setImg_dma (f : Img → Img) : (s.setImg f).dma = s.dma := rfl
@[simp] theorem State.setImg_bdr (f : Img → Img) : (s.setImg f).bdr = s.bdr := rfl
@[simp] theorem State.setImg_cal (f : Img → Img) : (s.setImg f).cal = s.cal := rfl
@[simp] theorem State.setImg_rsv (f : Img → Img) : (s.setImg f).rsv = s.rsv := rfl
@[simp] theorem State.setImg_wdg (f : Img → Img) : (s.setImg f).wdg = s.wdg := rfl
@[simp] theorem State.setImg_chk (f : Img → Img) : (s.setImg f).chk = s.chk := rfl
@[simp] theorem State.setImg_flt (f : Img → Img) : (s.setImg f).flt = s.flt := rfl
@[simp] theorem State.setImg_sta (f : Img → Img) : (s.setImg f).sta = s.sta := rfl
@[simp] theorem State.setImg_snp (f : Img → Img) : (s.setImg f).snp = s.snp := rfl
@[simp] theorem State.setImg_hlt (f : Img → Img) : (s.setImg f).hlt = s.hlt := rfl
@[simp] theorem State.setImg_pmc (f : Img → Img) : (s.setImg f).pmc = s.pmc := rfl
@[simp] theorem State.setImg_pwr (f : Img → Img) : (s.setImg f).pwr = s.pwr := rfl
@[simp] theorem State.setImg_fresh (f : Img → Img) : (s.setImg f).fresh = s.fresh := rfl
@[simp] theorem State.setImg_pending (f : Img → Img) : (s.setImg f).pending = s.pending := rfl

/-! ### setNtm -/

@[simp] theorem State.setNtm_part (f : Ntm → Ntm) : (s.setNtm f).part = s.part := rfl
@[simp] theorem State.setNtm_objs (f : Ntm → Ntm) : (s.setNtm f).objs = s.objs := rfl
@[simp] theorem State.setNtm_doms (f : Ntm → Ntm) : (s.setNtm f).doms = s.doms := rfl
@[simp] theorem State.setNtm_mem (f : Ntm → Ntm) : (s.setNtm f).mem = s.mem := rfl
@[simp] theorem State.setNtm_ecc (f : Ntm → Ntm) : (s.setNtm f).ecc = s.ecc := rfl
@[simp] theorem State.setNtm_owners (f : Ntm → Ntm) : (s.setNtm f).owners = s.owners := rfl
@[simp] theorem State.setNtm_sess (f : Ntm → Ntm) : (s.setNtm f).sess = s.sess := rfl
@[simp] theorem State.setNtm_dic (f : Ntm → Ntm) : (s.setNtm f).dic = s.dic := rfl
@[simp] theorem State.setNtm_ctxs (f : Ntm → Ntm) : (s.setNtm f).ctxs = s.ctxs := rfl
@[simp] theorem State.setNtm_cores (f : Ntm → Ntm) : (s.setNtm f).cores = s.cores := rfl
@[simp] theorem State.setNtm_tds (f : Ntm → Ntm) : (s.setNtm f).tds = s.tds := rfl
@[simp] theorem State.setNtm_tasks (f : Ntm → Ntm) : (s.setNtm f).tasks = s.tasks := rfl
@[simp] theorem State.setNtm_img (f : Ntm → Ntm) : (s.setNtm f).img = s.img := rfl
@[simp] theorem State.setNtm_retAt (f : Ntm → Ntm) : (s.setNtm f).retAt = s.retAt := rfl
@[simp] theorem State.setNtm_retNext (f : Ntm → Ntm) : (s.setNtm f).retNext = s.retNext := rfl
@[simp] theorem State.setNtm_olc (f : Ntm → Ntm) : (s.setNtm f).olc = s.olc := rfl
@[simp] theorem State.setNtm_str (f : Ntm → Ntm) : (s.setNtm f).str = s.str := rfl
@[simp] theorem State.setNtm_hnw (f : Ntm → Ntm) : (s.setNtm f).hnw = s.hnw := rfl
@[simp] theorem State.setNtm_ntm (f : Ntm → Ntm) : (s.setNtm f).ntm = f s.ntm := rfl
@[simp] theorem State.setNtm_red (f : Ntm → Ntm) : (s.setNtm f).red = s.red := rfl
@[simp] theorem State.setNtm_fio (f : Ntm → Ntm) : (s.setNtm f).fio = s.fio := rfl
@[simp] theorem State.setNtm_mbc (f : Ntm → Ntm) : (s.setNtm f).mbc = s.mbc := rfl
@[simp] theorem State.setNtm_dma (f : Ntm → Ntm) : (s.setNtm f).dma = s.dma := rfl
@[simp] theorem State.setNtm_bdr (f : Ntm → Ntm) : (s.setNtm f).bdr = s.bdr := rfl
@[simp] theorem State.setNtm_cal (f : Ntm → Ntm) : (s.setNtm f).cal = s.cal := rfl
@[simp] theorem State.setNtm_rsv (f : Ntm → Ntm) : (s.setNtm f).rsv = s.rsv := rfl
@[simp] theorem State.setNtm_wdg (f : Ntm → Ntm) : (s.setNtm f).wdg = s.wdg := rfl
@[simp] theorem State.setNtm_chk (f : Ntm → Ntm) : (s.setNtm f).chk = s.chk := rfl
@[simp] theorem State.setNtm_flt (f : Ntm → Ntm) : (s.setNtm f).flt = s.flt := rfl
@[simp] theorem State.setNtm_sta (f : Ntm → Ntm) : (s.setNtm f).sta = s.sta := rfl
@[simp] theorem State.setNtm_snp (f : Ntm → Ntm) : (s.setNtm f).snp = s.snp := rfl
@[simp] theorem State.setNtm_hlt (f : Ntm → Ntm) : (s.setNtm f).hlt = s.hlt := rfl
@[simp] theorem State.setNtm_pmc (f : Ntm → Ntm) : (s.setNtm f).pmc = s.pmc := rfl
@[simp] theorem State.setNtm_pwr (f : Ntm → Ntm) : (s.setNtm f).pwr = s.pwr := rfl
@[simp] theorem State.setNtm_fresh (f : Ntm → Ntm) : (s.setNtm f).fresh = s.fresh := rfl
@[simp] theorem State.setNtm_pending (f : Ntm → Ntm) : (s.setNtm f).pending = s.pending := rfl

/-! ### setSta -/

@[simp] theorem State.setSta_part (f : Sta2 → Sta2) : (s.setSta f).part = s.part := rfl
@[simp] theorem State.setSta_objs (f : Sta2 → Sta2) : (s.setSta f).objs = s.objs := rfl
@[simp] theorem State.setSta_doms (f : Sta2 → Sta2) : (s.setSta f).doms = s.doms := rfl
@[simp] theorem State.setSta_mem (f : Sta2 → Sta2) : (s.setSta f).mem = s.mem := rfl
@[simp] theorem State.setSta_ecc (f : Sta2 → Sta2) : (s.setSta f).ecc = s.ecc := rfl
@[simp] theorem State.setSta_owners (f : Sta2 → Sta2) : (s.setSta f).owners = s.owners := rfl
@[simp] theorem State.setSta_sess (f : Sta2 → Sta2) : (s.setSta f).sess = s.sess := rfl
@[simp] theorem State.setSta_dic (f : Sta2 → Sta2) : (s.setSta f).dic = s.dic := rfl
@[simp] theorem State.setSta_ctxs (f : Sta2 → Sta2) : (s.setSta f).ctxs = s.ctxs := rfl
@[simp] theorem State.setSta_cores (f : Sta2 → Sta2) : (s.setSta f).cores = s.cores := rfl
@[simp] theorem State.setSta_tds (f : Sta2 → Sta2) : (s.setSta f).tds = s.tds := rfl
@[simp] theorem State.setSta_tasks (f : Sta2 → Sta2) : (s.setSta f).tasks = s.tasks := rfl
@[simp] theorem State.setSta_img (f : Sta2 → Sta2) : (s.setSta f).img = s.img := rfl
@[simp] theorem State.setSta_retAt (f : Sta2 → Sta2) : (s.setSta f).retAt = s.retAt := rfl
@[simp] theorem State.setSta_retNext (f : Sta2 → Sta2) : (s.setSta f).retNext = s.retNext := rfl
@[simp] theorem State.setSta_olc (f : Sta2 → Sta2) : (s.setSta f).olc = s.olc := rfl
@[simp] theorem State.setSta_str (f : Sta2 → Sta2) : (s.setSta f).str = s.str := rfl
@[simp] theorem State.setSta_hnw (f : Sta2 → Sta2) : (s.setSta f).hnw = s.hnw := rfl
@[simp] theorem State.setSta_ntm (f : Sta2 → Sta2) : (s.setSta f).ntm = s.ntm := rfl
@[simp] theorem State.setSta_red (f : Sta2 → Sta2) : (s.setSta f).red = s.red := rfl
@[simp] theorem State.setSta_fio (f : Sta2 → Sta2) : (s.setSta f).fio = s.fio := rfl
@[simp] theorem State.setSta_mbc (f : Sta2 → Sta2) : (s.setSta f).mbc = s.mbc := rfl
@[simp] theorem State.setSta_dma (f : Sta2 → Sta2) : (s.setSta f).dma = s.dma := rfl
@[simp] theorem State.setSta_bdr (f : Sta2 → Sta2) : (s.setSta f).bdr = s.bdr := rfl
@[simp] theorem State.setSta_cal (f : Sta2 → Sta2) : (s.setSta f).cal = s.cal := rfl
@[simp] theorem State.setSta_rsv (f : Sta2 → Sta2) : (s.setSta f).rsv = s.rsv := rfl
@[simp] theorem State.setSta_wdg (f : Sta2 → Sta2) : (s.setSta f).wdg = s.wdg := rfl
@[simp] theorem State.setSta_chk (f : Sta2 → Sta2) : (s.setSta f).chk = s.chk := rfl
@[simp] theorem State.setSta_flt (f : Sta2 → Sta2) : (s.setSta f).flt = s.flt := rfl
@[simp] theorem State.setSta_sta (f : Sta2 → Sta2) : (s.setSta f).sta = f s.sta := rfl
@[simp] theorem State.setSta_snp (f : Sta2 → Sta2) : (s.setSta f).snp = s.snp := rfl
@[simp] theorem State.setSta_hlt (f : Sta2 → Sta2) : (s.setSta f).hlt = s.hlt := rfl
@[simp] theorem State.setSta_pmc (f : Sta2 → Sta2) : (s.setSta f).pmc = s.pmc := rfl
@[simp] theorem State.setSta_pwr (f : Sta2 → Sta2) : (s.setSta f).pwr = s.pwr := rfl
@[simp] theorem State.setSta_fresh (f : Sta2 → Sta2) : (s.setSta f).fresh = s.fresh := rfl
@[simp] theorem State.setSta_pending (f : Sta2 → Sta2) : (s.setSta f).pending = s.pending := rfl

/-! ### setSnp -/

@[simp] theorem State.setSnp_part (f : Snp → Snp) : (s.setSnp f).part = s.part := rfl
@[simp] theorem State.setSnp_objs (f : Snp → Snp) : (s.setSnp f).objs = s.objs := rfl
@[simp] theorem State.setSnp_doms (f : Snp → Snp) : (s.setSnp f).doms = s.doms := rfl
@[simp] theorem State.setSnp_mem (f : Snp → Snp) : (s.setSnp f).mem = s.mem := rfl
@[simp] theorem State.setSnp_ecc (f : Snp → Snp) : (s.setSnp f).ecc = s.ecc := rfl
@[simp] theorem State.setSnp_owners (f : Snp → Snp) : (s.setSnp f).owners = s.owners := rfl
@[simp] theorem State.setSnp_sess (f : Snp → Snp) : (s.setSnp f).sess = s.sess := rfl
@[simp] theorem State.setSnp_dic (f : Snp → Snp) : (s.setSnp f).dic = s.dic := rfl
@[simp] theorem State.setSnp_ctxs (f : Snp → Snp) : (s.setSnp f).ctxs = s.ctxs := rfl
@[simp] theorem State.setSnp_cores (f : Snp → Snp) : (s.setSnp f).cores = s.cores := rfl
@[simp] theorem State.setSnp_tds (f : Snp → Snp) : (s.setSnp f).tds = s.tds := rfl
@[simp] theorem State.setSnp_tasks (f : Snp → Snp) : (s.setSnp f).tasks = s.tasks := rfl
@[simp] theorem State.setSnp_img (f : Snp → Snp) : (s.setSnp f).img = s.img := rfl
@[simp] theorem State.setSnp_retAt (f : Snp → Snp) : (s.setSnp f).retAt = s.retAt := rfl
@[simp] theorem State.setSnp_retNext (f : Snp → Snp) : (s.setSnp f).retNext = s.retNext := rfl
@[simp] theorem State.setSnp_olc (f : Snp → Snp) : (s.setSnp f).olc = s.olc := rfl
@[simp] theorem State.setSnp_str (f : Snp → Snp) : (s.setSnp f).str = s.str := rfl
@[simp] theorem State.setSnp_hnw (f : Snp → Snp) : (s.setSnp f).hnw = s.hnw := rfl
@[simp] theorem State.setSnp_ntm (f : Snp → Snp) : (s.setSnp f).ntm = s.ntm := rfl
@[simp] theorem State.setSnp_red (f : Snp → Snp) : (s.setSnp f).red = s.red := rfl
@[simp] theorem State.setSnp_fio (f : Snp → Snp) : (s.setSnp f).fio = s.fio := rfl
@[simp] theorem State.setSnp_mbc (f : Snp → Snp) : (s.setSnp f).mbc = s.mbc := rfl
@[simp] theorem State.setSnp_dma (f : Snp → Snp) : (s.setSnp f).dma = s.dma := rfl
@[simp] theorem State.setSnp_bdr (f : Snp → Snp) : (s.setSnp f).bdr = s.bdr := rfl
@[simp] theorem State.setSnp_cal (f : Snp → Snp) : (s.setSnp f).cal = s.cal := rfl
@[simp] theorem State.setSnp_rsv (f : Snp → Snp) : (s.setSnp f).rsv = s.rsv := rfl
@[simp] theorem State.setSnp_wdg (f : Snp → Snp) : (s.setSnp f).wdg = s.wdg := rfl
@[simp] theorem State.setSnp_chk (f : Snp → Snp) : (s.setSnp f).chk = s.chk := rfl
@[simp] theorem State.setSnp_flt (f : Snp → Snp) : (s.setSnp f).flt = s.flt := rfl
@[simp] theorem State.setSnp_sta (f : Snp → Snp) : (s.setSnp f).sta = s.sta := rfl
@[simp] theorem State.setSnp_snp (f : Snp → Snp) : (s.setSnp f).snp = f s.snp := rfl
@[simp] theorem State.setSnp_hlt (f : Snp → Snp) : (s.setSnp f).hlt = s.hlt := rfl
@[simp] theorem State.setSnp_pmc (f : Snp → Snp) : (s.setSnp f).pmc = s.pmc := rfl
@[simp] theorem State.setSnp_pwr (f : Snp → Snp) : (s.setSnp f).pwr = s.pwr := rfl
@[simp] theorem State.setSnp_fresh (f : Snp → Snp) : (s.setSnp f).fresh = s.fresh := rfl
@[simp] theorem State.setSnp_pending (f : Snp → Snp) : (s.setSnp f).pending = s.pending := rfl

/-! ### setHlt -/

@[simp] theorem State.setHlt_part (f : Hlt → Hlt) : (s.setHlt f).part = s.part := rfl
@[simp] theorem State.setHlt_objs (f : Hlt → Hlt) : (s.setHlt f).objs = s.objs := rfl
@[simp] theorem State.setHlt_doms (f : Hlt → Hlt) : (s.setHlt f).doms = s.doms := rfl
@[simp] theorem State.setHlt_mem (f : Hlt → Hlt) : (s.setHlt f).mem = s.mem := rfl
@[simp] theorem State.setHlt_ecc (f : Hlt → Hlt) : (s.setHlt f).ecc = s.ecc := rfl
@[simp] theorem State.setHlt_owners (f : Hlt → Hlt) : (s.setHlt f).owners = s.owners := rfl
@[simp] theorem State.setHlt_sess (f : Hlt → Hlt) : (s.setHlt f).sess = s.sess := rfl
@[simp] theorem State.setHlt_dic (f : Hlt → Hlt) : (s.setHlt f).dic = s.dic := rfl
@[simp] theorem State.setHlt_ctxs (f : Hlt → Hlt) : (s.setHlt f).ctxs = s.ctxs := rfl
@[simp] theorem State.setHlt_cores (f : Hlt → Hlt) : (s.setHlt f).cores = s.cores := rfl
@[simp] theorem State.setHlt_tds (f : Hlt → Hlt) : (s.setHlt f).tds = s.tds := rfl
@[simp] theorem State.setHlt_tasks (f : Hlt → Hlt) : (s.setHlt f).tasks = s.tasks := rfl
@[simp] theorem State.setHlt_img (f : Hlt → Hlt) : (s.setHlt f).img = s.img := rfl
@[simp] theorem State.setHlt_retAt (f : Hlt → Hlt) : (s.setHlt f).retAt = s.retAt := rfl
@[simp] theorem State.setHlt_retNext (f : Hlt → Hlt) : (s.setHlt f).retNext = s.retNext := rfl
@[simp] theorem State.setHlt_olc (f : Hlt → Hlt) : (s.setHlt f).olc = s.olc := rfl
@[simp] theorem State.setHlt_str (f : Hlt → Hlt) : (s.setHlt f).str = s.str := rfl
@[simp] theorem State.setHlt_hnw (f : Hlt → Hlt) : (s.setHlt f).hnw = s.hnw := rfl
@[simp] theorem State.setHlt_ntm (f : Hlt → Hlt) : (s.setHlt f).ntm = s.ntm := rfl
@[simp] theorem State.setHlt_red (f : Hlt → Hlt) : (s.setHlt f).red = s.red := rfl
@[simp] theorem State.setHlt_fio (f : Hlt → Hlt) : (s.setHlt f).fio = s.fio := rfl
@[simp] theorem State.setHlt_mbc (f : Hlt → Hlt) : (s.setHlt f).mbc = s.mbc := rfl
@[simp] theorem State.setHlt_dma (f : Hlt → Hlt) : (s.setHlt f).dma = s.dma := rfl
@[simp] theorem State.setHlt_bdr (f : Hlt → Hlt) : (s.setHlt f).bdr = s.bdr := rfl
@[simp] theorem State.setHlt_cal (f : Hlt → Hlt) : (s.setHlt f).cal = s.cal := rfl
@[simp] theorem State.setHlt_rsv (f : Hlt → Hlt) : (s.setHlt f).rsv = s.rsv := rfl
@[simp] theorem State.setHlt_wdg (f : Hlt → Hlt) : (s.setHlt f).wdg = s.wdg := rfl
@[simp] theorem State.setHlt_chk (f : Hlt → Hlt) : (s.setHlt f).chk = s.chk := rfl
@[simp] theorem State.setHlt_flt (f : Hlt → Hlt) : (s.setHlt f).flt = s.flt := rfl
@[simp] theorem State.setHlt_sta (f : Hlt → Hlt) : (s.setHlt f).sta = s.sta := rfl
@[simp] theorem State.setHlt_snp (f : Hlt → Hlt) : (s.setHlt f).snp = s.snp := rfl
@[simp] theorem State.setHlt_hlt (f : Hlt → Hlt) : (s.setHlt f).hlt = f s.hlt := rfl
@[simp] theorem State.setHlt_pmc (f : Hlt → Hlt) : (s.setHlt f).pmc = s.pmc := rfl
@[simp] theorem State.setHlt_pwr (f : Hlt → Hlt) : (s.setHlt f).pwr = s.pwr := rfl
@[simp] theorem State.setHlt_fresh (f : Hlt → Hlt) : (s.setHlt f).fresh = s.fresh := rfl
@[simp] theorem State.setHlt_pending (f : Hlt → Hlt) : (s.setHlt f).pending = s.pending := rfl

/-! ### setOlc -/

@[simp] theorem State.setOlc_part (f : Olc → Olc) : (s.setOlc f).part = s.part := rfl
@[simp] theorem State.setOlc_objs (f : Olc → Olc) : (s.setOlc f).objs = s.objs := rfl
@[simp] theorem State.setOlc_doms (f : Olc → Olc) : (s.setOlc f).doms = s.doms := rfl
@[simp] theorem State.setOlc_mem (f : Olc → Olc) : (s.setOlc f).mem = s.mem := rfl
@[simp] theorem State.setOlc_ecc (f : Olc → Olc) : (s.setOlc f).ecc = s.ecc := rfl
@[simp] theorem State.setOlc_owners (f : Olc → Olc) : (s.setOlc f).owners = s.owners := rfl
@[simp] theorem State.setOlc_sess (f : Olc → Olc) : (s.setOlc f).sess = s.sess := rfl
@[simp] theorem State.setOlc_dic (f : Olc → Olc) : (s.setOlc f).dic = s.dic := rfl
@[simp] theorem State.setOlc_ctxs (f : Olc → Olc) : (s.setOlc f).ctxs = s.ctxs := rfl
@[simp] theorem State.setOlc_cores (f : Olc → Olc) : (s.setOlc f).cores = s.cores := rfl
@[simp] theorem State.setOlc_tds (f : Olc → Olc) : (s.setOlc f).tds = s.tds := rfl
@[simp] theorem State.setOlc_tasks (f : Olc → Olc) : (s.setOlc f).tasks = s.tasks := rfl
@[simp] theorem State.setOlc_img (f : Olc → Olc) : (s.setOlc f).img = s.img := rfl
@[simp] theorem State.setOlc_retAt (f : Olc → Olc) : (s.setOlc f).retAt = s.retAt := rfl
@[simp] theorem State.setOlc_retNext (f : Olc → Olc) : (s.setOlc f).retNext = s.retNext := rfl
@[simp] theorem State.setOlc_olc (f : Olc → Olc) : (s.setOlc f).olc = f s.olc := rfl
@[simp] theorem State.setOlc_str (f : Olc → Olc) : (s.setOlc f).str = s.str := rfl
@[simp] theorem State.setOlc_hnw (f : Olc → Olc) : (s.setOlc f).hnw = s.hnw := rfl
@[simp] theorem State.setOlc_ntm (f : Olc → Olc) : (s.setOlc f).ntm = s.ntm := rfl
@[simp] theorem State.setOlc_red (f : Olc → Olc) : (s.setOlc f).red = s.red := rfl
@[simp] theorem State.setOlc_fio (f : Olc → Olc) : (s.setOlc f).fio = s.fio := rfl
@[simp] theorem State.setOlc_mbc (f : Olc → Olc) : (s.setOlc f).mbc = s.mbc := rfl
@[simp] theorem State.setOlc_dma (f : Olc → Olc) : (s.setOlc f).dma = s.dma := rfl
@[simp] theorem State.setOlc_bdr (f : Olc → Olc) : (s.setOlc f).bdr = s.bdr := rfl
@[simp] theorem State.setOlc_cal (f : Olc → Olc) : (s.setOlc f).cal = s.cal := rfl
@[simp] theorem State.setOlc_rsv (f : Olc → Olc) : (s.setOlc f).rsv = s.rsv := rfl
@[simp] theorem State.setOlc_wdg (f : Olc → Olc) : (s.setOlc f).wdg = s.wdg := rfl
@[simp] theorem State.setOlc_chk (f : Olc → Olc) : (s.setOlc f).chk = s.chk := rfl
@[simp] theorem State.setOlc_flt (f : Olc → Olc) : (s.setOlc f).flt = s.flt := rfl
@[simp] theorem State.setOlc_sta (f : Olc → Olc) : (s.setOlc f).sta = s.sta := rfl
@[simp] theorem State.setOlc_snp (f : Olc → Olc) : (s.setOlc f).snp = s.snp := rfl
@[simp] theorem State.setOlc_hlt (f : Olc → Olc) : (s.setOlc f).hlt = s.hlt := rfl
@[simp] theorem State.setOlc_pmc (f : Olc → Olc) : (s.setOlc f).pmc = s.pmc := rfl
@[simp] theorem State.setOlc_pwr (f : Olc → Olc) : (s.setOlc f).pwr = s.pwr := rfl
@[simp] theorem State.setOlc_fresh (f : Olc → Olc) : (s.setOlc f).fresh = s.fresh := rfl
@[simp] theorem State.setOlc_pending (f : Olc → Olc) : (s.setOlc f).pending = s.pending := rfl

/-! ### setRed -/

@[simp] theorem State.setRed_part (f : Red → Red) : (s.setRed f).part = s.part := rfl
@[simp] theorem State.setRed_objs (f : Red → Red) : (s.setRed f).objs = s.objs := rfl
@[simp] theorem State.setRed_doms (f : Red → Red) : (s.setRed f).doms = s.doms := rfl
@[simp] theorem State.setRed_mem (f : Red → Red) : (s.setRed f).mem = s.mem := rfl
@[simp] theorem State.setRed_ecc (f : Red → Red) : (s.setRed f).ecc = s.ecc := rfl
@[simp] theorem State.setRed_owners (f : Red → Red) : (s.setRed f).owners = s.owners := rfl
@[simp] theorem State.setRed_sess (f : Red → Red) : (s.setRed f).sess = s.sess := rfl
@[simp] theorem State.setRed_dic (f : Red → Red) : (s.setRed f).dic = s.dic := rfl
@[simp] theorem State.setRed_ctxs (f : Red → Red) : (s.setRed f).ctxs = s.ctxs := rfl
@[simp] theorem State.setRed_cores (f : Red → Red) : (s.setRed f).cores = s.cores := rfl
@[simp] theorem State.setRed_tds (f : Red → Red) : (s.setRed f).tds = s.tds := rfl
@[simp] theorem State.setRed_tasks (f : Red → Red) : (s.setRed f).tasks = s.tasks := rfl
@[simp] theorem State.setRed_img (f : Red → Red) : (s.setRed f).img = s.img := rfl
@[simp] theorem State.setRed_retAt (f : Red → Red) : (s.setRed f).retAt = s.retAt := rfl
@[simp] theorem State.setRed_retNext (f : Red → Red) : (s.setRed f).retNext = s.retNext := rfl
@[simp] theorem State.setRed_olc (f : Red → Red) : (s.setRed f).olc = s.olc := rfl
@[simp] theorem State.setRed_str (f : Red → Red) : (s.setRed f).str = s.str := rfl
@[simp] theorem State.setRed_hnw (f : Red → Red) : (s.setRed f).hnw = s.hnw := rfl
@[simp] theorem State.setRed_ntm (f : Red → Red) : (s.setRed f).ntm = s.ntm := rfl
@[simp] theorem State.setRed_red (f : Red → Red) : (s.setRed f).red = f s.red := rfl
@[simp] theorem State.setRed_fio (f : Red → Red) : (s.setRed f).fio = s.fio := rfl
@[simp] theorem State.setRed_mbc (f : Red → Red) : (s.setRed f).mbc = s.mbc := rfl
@[simp] theorem State.setRed_dma (f : Red → Red) : (s.setRed f).dma = s.dma := rfl
@[simp] theorem State.setRed_bdr (f : Red → Red) : (s.setRed f).bdr = s.bdr := rfl
@[simp] theorem State.setRed_cal (f : Red → Red) : (s.setRed f).cal = s.cal := rfl
@[simp] theorem State.setRed_rsv (f : Red → Red) : (s.setRed f).rsv = s.rsv := rfl
@[simp] theorem State.setRed_wdg (f : Red → Red) : (s.setRed f).wdg = s.wdg := rfl
@[simp] theorem State.setRed_chk (f : Red → Red) : (s.setRed f).chk = s.chk := rfl
@[simp] theorem State.setRed_flt (f : Red → Red) : (s.setRed f).flt = s.flt := rfl
@[simp] theorem State.setRed_sta (f : Red → Red) : (s.setRed f).sta = s.sta := rfl
@[simp] theorem State.setRed_snp (f : Red → Red) : (s.setRed f).snp = s.snp := rfl
@[simp] theorem State.setRed_hlt (f : Red → Red) : (s.setRed f).hlt = s.hlt := rfl
@[simp] theorem State.setRed_pmc (f : Red → Red) : (s.setRed f).pmc = s.pmc := rfl
@[simp] theorem State.setRed_pwr (f : Red → Red) : (s.setRed f).pwr = s.pwr := rfl
@[simp] theorem State.setRed_fresh (f : Red → Red) : (s.setRed f).fresh = s.fresh := rfl
@[simp] theorem State.setRed_pending (f : Red → Red) : (s.setRed f).pending = s.pending := rfl

/-! ### setPwr -/

@[simp] theorem State.setPwr_part (f : Pwr → Pwr) : (s.setPwr f).part = s.part := rfl
@[simp] theorem State.setPwr_objs (f : Pwr → Pwr) : (s.setPwr f).objs = s.objs := rfl
@[simp] theorem State.setPwr_doms (f : Pwr → Pwr) : (s.setPwr f).doms = s.doms := rfl
@[simp] theorem State.setPwr_mem (f : Pwr → Pwr) : (s.setPwr f).mem = s.mem := rfl
@[simp] theorem State.setPwr_ecc (f : Pwr → Pwr) : (s.setPwr f).ecc = s.ecc := rfl
@[simp] theorem State.setPwr_owners (f : Pwr → Pwr) : (s.setPwr f).owners = s.owners := rfl
@[simp] theorem State.setPwr_sess (f : Pwr → Pwr) : (s.setPwr f).sess = s.sess := rfl
@[simp] theorem State.setPwr_dic (f : Pwr → Pwr) : (s.setPwr f).dic = s.dic := rfl
@[simp] theorem State.setPwr_ctxs (f : Pwr → Pwr) : (s.setPwr f).ctxs = s.ctxs := rfl
@[simp] theorem State.setPwr_cores (f : Pwr → Pwr) : (s.setPwr f).cores = s.cores := rfl
@[simp] theorem State.setPwr_tds (f : Pwr → Pwr) : (s.setPwr f).tds = s.tds := rfl
@[simp] theorem State.setPwr_tasks (f : Pwr → Pwr) : (s.setPwr f).tasks = s.tasks := rfl
@[simp] theorem State.setPwr_img (f : Pwr → Pwr) : (s.setPwr f).img = s.img := rfl
@[simp] theorem State.setPwr_retAt (f : Pwr → Pwr) : (s.setPwr f).retAt = s.retAt := rfl
@[simp] theorem State.setPwr_retNext (f : Pwr → Pwr) : (s.setPwr f).retNext = s.retNext := rfl
@[simp] theorem State.setPwr_olc (f : Pwr → Pwr) : (s.setPwr f).olc = s.olc := rfl
@[simp] theorem State.setPwr_str (f : Pwr → Pwr) : (s.setPwr f).str = s.str := rfl
@[simp] theorem State.setPwr_hnw (f : Pwr → Pwr) : (s.setPwr f).hnw = s.hnw := rfl
@[simp] theorem State.setPwr_ntm (f : Pwr → Pwr) : (s.setPwr f).ntm = s.ntm := rfl
@[simp] theorem State.setPwr_red (f : Pwr → Pwr) : (s.setPwr f).red = s.red := rfl
@[simp] theorem State.setPwr_fio (f : Pwr → Pwr) : (s.setPwr f).fio = s.fio := rfl
@[simp] theorem State.setPwr_mbc (f : Pwr → Pwr) : (s.setPwr f).mbc = s.mbc := rfl
@[simp] theorem State.setPwr_dma (f : Pwr → Pwr) : (s.setPwr f).dma = s.dma := rfl
@[simp] theorem State.setPwr_bdr (f : Pwr → Pwr) : (s.setPwr f).bdr = s.bdr := rfl
@[simp] theorem State.setPwr_cal (f : Pwr → Pwr) : (s.setPwr f).cal = s.cal := rfl
@[simp] theorem State.setPwr_rsv (f : Pwr → Pwr) : (s.setPwr f).rsv = s.rsv := rfl
@[simp] theorem State.setPwr_wdg (f : Pwr → Pwr) : (s.setPwr f).wdg = s.wdg := rfl
@[simp] theorem State.setPwr_chk (f : Pwr → Pwr) : (s.setPwr f).chk = s.chk := rfl
@[simp] theorem State.setPwr_flt (f : Pwr → Pwr) : (s.setPwr f).flt = s.flt := rfl
@[simp] theorem State.setPwr_sta (f : Pwr → Pwr) : (s.setPwr f).sta = s.sta := rfl
@[simp] theorem State.setPwr_snp (f : Pwr → Pwr) : (s.setPwr f).snp = s.snp := rfl
@[simp] theorem State.setPwr_hlt (f : Pwr → Pwr) : (s.setPwr f).hlt = s.hlt := rfl
@[simp] theorem State.setPwr_pmc (f : Pwr → Pwr) : (s.setPwr f).pmc = s.pmc := rfl
@[simp] theorem State.setPwr_pwr (f : Pwr → Pwr) : (s.setPwr f).pwr = f s.pwr := rfl
@[simp] theorem State.setPwr_fresh (f : Pwr → Pwr) : (s.setPwr f).fresh = s.fresh := rfl
@[simp] theorem State.setPwr_pending (f : Pwr → Pwr) : (s.setPwr f).pending = s.pending := rfl

/-! ### setTds -/

@[simp] theorem State.setTds_part (f : Tds → Tds) : (s.setTds f).part = s.part := rfl
@[simp] theorem State.setTds_objs (f : Tds → Tds) : (s.setTds f).objs = s.objs := rfl
@[simp] theorem State.setTds_doms (f : Tds → Tds) : (s.setTds f).doms = s.doms := rfl
@[simp] theorem State.setTds_mem (f : Tds → Tds) : (s.setTds f).mem = s.mem := rfl
@[simp] theorem State.setTds_ecc (f : Tds → Tds) : (s.setTds f).ecc = s.ecc := rfl
@[simp] theorem State.setTds_owners (f : Tds → Tds) : (s.setTds f).owners = s.owners := rfl
@[simp] theorem State.setTds_sess (f : Tds → Tds) : (s.setTds f).sess = s.sess := rfl
@[simp] theorem State.setTds_dic (f : Tds → Tds) : (s.setTds f).dic = s.dic := rfl
@[simp] theorem State.setTds_ctxs (f : Tds → Tds) : (s.setTds f).ctxs = s.ctxs := rfl
@[simp] theorem State.setTds_cores (f : Tds → Tds) : (s.setTds f).cores = s.cores := rfl
@[simp] theorem State.setTds_tds (f : Tds → Tds) : (s.setTds f).tds = f s.tds := rfl
@[simp] theorem State.setTds_tasks (f : Tds → Tds) : (s.setTds f).tasks = s.tasks := rfl
@[simp] theorem State.setTds_img (f : Tds → Tds) : (s.setTds f).img = s.img := rfl
@[simp] theorem State.setTds_retAt (f : Tds → Tds) : (s.setTds f).retAt = s.retAt := rfl
@[simp] theorem State.setTds_retNext (f : Tds → Tds) : (s.setTds f).retNext = s.retNext := rfl
@[simp] theorem State.setTds_olc (f : Tds → Tds) : (s.setTds f).olc = s.olc := rfl
@[simp] theorem State.setTds_str (f : Tds → Tds) : (s.setTds f).str = s.str := rfl
@[simp] theorem State.setTds_hnw (f : Tds → Tds) : (s.setTds f).hnw = s.hnw := rfl
@[simp] theorem State.setTds_ntm (f : Tds → Tds) : (s.setTds f).ntm = s.ntm := rfl
@[simp] theorem State.setTds_red (f : Tds → Tds) : (s.setTds f).red = s.red := rfl
@[simp] theorem State.setTds_fio (f : Tds → Tds) : (s.setTds f).fio = s.fio := rfl
@[simp] theorem State.setTds_mbc (f : Tds → Tds) : (s.setTds f).mbc = s.mbc := rfl
@[simp] theorem State.setTds_dma (f : Tds → Tds) : (s.setTds f).dma = s.dma := rfl
@[simp] theorem State.setTds_bdr (f : Tds → Tds) : (s.setTds f).bdr = s.bdr := rfl
@[simp] theorem State.setTds_cal (f : Tds → Tds) : (s.setTds f).cal = s.cal := rfl
@[simp] theorem State.setTds_rsv (f : Tds → Tds) : (s.setTds f).rsv = s.rsv := rfl
@[simp] theorem State.setTds_wdg (f : Tds → Tds) : (s.setTds f).wdg = s.wdg := rfl
@[simp] theorem State.setTds_chk (f : Tds → Tds) : (s.setTds f).chk = s.chk := rfl
@[simp] theorem State.setTds_flt (f : Tds → Tds) : (s.setTds f).flt = s.flt := rfl
@[simp] theorem State.setTds_sta (f : Tds → Tds) : (s.setTds f).sta = s.sta := rfl
@[simp] theorem State.setTds_snp (f : Tds → Tds) : (s.setTds f).snp = s.snp := rfl
@[simp] theorem State.setTds_hlt (f : Tds → Tds) : (s.setTds f).hlt = s.hlt := rfl
@[simp] theorem State.setTds_pmc (f : Tds → Tds) : (s.setTds f).pmc = s.pmc := rfl
@[simp] theorem State.setTds_pwr (f : Tds → Tds) : (s.setTds f).pwr = s.pwr := rfl
@[simp] theorem State.setTds_fresh (f : Tds → Tds) : (s.setTds f).fresh = s.fresh := rfl
@[simp] theorem State.setTds_pending (f : Tds → Tds) : (s.setTds f).pending = s.pending := rfl

/-! ### setStr -/

@[simp] theorem State.setStr_part (f : Str → Str) : (s.setStr f).part = s.part := rfl
@[simp] theorem State.setStr_objs (f : Str → Str) : (s.setStr f).objs = s.objs := rfl
@[simp] theorem State.setStr_doms (f : Str → Str) : (s.setStr f).doms = s.doms := rfl
@[simp] theorem State.setStr_mem (f : Str → Str) : (s.setStr f).mem = s.mem := rfl
@[simp] theorem State.setStr_ecc (f : Str → Str) : (s.setStr f).ecc = s.ecc := rfl
@[simp] theorem State.setStr_owners (f : Str → Str) : (s.setStr f).owners = s.owners := rfl
@[simp] theorem State.setStr_sess (f : Str → Str) : (s.setStr f).sess = s.sess := rfl
@[simp] theorem State.setStr_dic (f : Str → Str) : (s.setStr f).dic = s.dic := rfl
@[simp] theorem State.setStr_ctxs (f : Str → Str) : (s.setStr f).ctxs = s.ctxs := rfl
@[simp] theorem State.setStr_cores (f : Str → Str) : (s.setStr f).cores = s.cores := rfl
@[simp] theorem State.setStr_tds (f : Str → Str) : (s.setStr f).tds = s.tds := rfl
@[simp] theorem State.setStr_tasks (f : Str → Str) : (s.setStr f).tasks = s.tasks := rfl
@[simp] theorem State.setStr_img (f : Str → Str) : (s.setStr f).img = s.img := rfl
@[simp] theorem State.setStr_retAt (f : Str → Str) : (s.setStr f).retAt = s.retAt := rfl
@[simp] theorem State.setStr_retNext (f : Str → Str) : (s.setStr f).retNext = s.retNext := rfl
@[simp] theorem State.setStr_olc (f : Str → Str) : (s.setStr f).olc = s.olc := rfl
@[simp] theorem State.setStr_str (f : Str → Str) : (s.setStr f).str = f s.str := rfl
@[simp] theorem State.setStr_hnw (f : Str → Str) : (s.setStr f).hnw = s.hnw := rfl
@[simp] theorem State.setStr_ntm (f : Str → Str) : (s.setStr f).ntm = s.ntm := rfl
@[simp] theorem State.setStr_red (f : Str → Str) : (s.setStr f).red = s.red := rfl
@[simp] theorem State.setStr_fio (f : Str → Str) : (s.setStr f).fio = s.fio := rfl
@[simp] theorem State.setStr_mbc (f : Str → Str) : (s.setStr f).mbc = s.mbc := rfl
@[simp] theorem State.setStr_dma (f : Str → Str) : (s.setStr f).dma = s.dma := rfl
@[simp] theorem State.setStr_bdr (f : Str → Str) : (s.setStr f).bdr = s.bdr := rfl
@[simp] theorem State.setStr_cal (f : Str → Str) : (s.setStr f).cal = s.cal := rfl
@[simp] theorem State.setStr_rsv (f : Str → Str) : (s.setStr f).rsv = s.rsv := rfl
@[simp] theorem State.setStr_wdg (f : Str → Str) : (s.setStr f).wdg = s.wdg := rfl
@[simp] theorem State.setStr_chk (f : Str → Str) : (s.setStr f).chk = s.chk := rfl
@[simp] theorem State.setStr_flt (f : Str → Str) : (s.setStr f).flt = s.flt := rfl
@[simp] theorem State.setStr_sta (f : Str → Str) : (s.setStr f).sta = s.sta := rfl
@[simp] theorem State.setStr_snp (f : Str → Str) : (s.setStr f).snp = s.snp := rfl
@[simp] theorem State.setStr_hlt (f : Str → Str) : (s.setStr f).hlt = s.hlt := rfl
@[simp] theorem State.setStr_pmc (f : Str → Str) : (s.setStr f).pmc = s.pmc := rfl
@[simp] theorem State.setStr_pwr (f : Str → Str) : (s.setStr f).pwr = s.pwr := rfl
@[simp] theorem State.setStr_fresh (f : Str → Str) : (s.setStr f).fresh = s.fresh := rfl
@[simp] theorem State.setStr_pending (f : Str → Str) : (s.setStr f).pending = s.pending := rfl

/-! ### setChk -/

@[simp] theorem State.setChk_part (f : Chk → Chk) : (s.setChk f).part = s.part := rfl
@[simp] theorem State.setChk_objs (f : Chk → Chk) : (s.setChk f).objs = s.objs := rfl
@[simp] theorem State.setChk_doms (f : Chk → Chk) : (s.setChk f).doms = s.doms := rfl
@[simp] theorem State.setChk_mem (f : Chk → Chk) : (s.setChk f).mem = s.mem := rfl
@[simp] theorem State.setChk_ecc (f : Chk → Chk) : (s.setChk f).ecc = s.ecc := rfl
@[simp] theorem State.setChk_owners (f : Chk → Chk) : (s.setChk f).owners = s.owners := rfl
@[simp] theorem State.setChk_sess (f : Chk → Chk) : (s.setChk f).sess = s.sess := rfl
@[simp] theorem State.setChk_dic (f : Chk → Chk) : (s.setChk f).dic = s.dic := rfl
@[simp] theorem State.setChk_ctxs (f : Chk → Chk) : (s.setChk f).ctxs = s.ctxs := rfl
@[simp] theorem State.setChk_cores (f : Chk → Chk) : (s.setChk f).cores = s.cores := rfl
@[simp] theorem State.setChk_tds (f : Chk → Chk) : (s.setChk f).tds = s.tds := rfl
@[simp] theorem State.setChk_tasks (f : Chk → Chk) : (s.setChk f).tasks = s.tasks := rfl
@[simp] theorem State.setChk_img (f : Chk → Chk) : (s.setChk f).img = s.img := rfl
@[simp] theorem State.setChk_retAt (f : Chk → Chk) : (s.setChk f).retAt = s.retAt := rfl
@[simp] theorem State.setChk_retNext (f : Chk → Chk) : (s.setChk f).retNext = s.retNext := rfl
@[simp] theorem State.setChk_olc (f : Chk → Chk) : (s.setChk f).olc = s.olc := rfl
@[simp] theorem State.setChk_str (f : Chk → Chk) : (s.setChk f).str = s.str := rfl
@[simp] theorem State.setChk_hnw (f : Chk → Chk) : (s.setChk f).hnw = s.hnw := rfl
@[simp] theorem State.setChk_ntm (f : Chk → Chk) : (s.setChk f).ntm = s.ntm := rfl
@[simp] theorem State.setChk_red (f : Chk → Chk) : (s.setChk f).red = s.red := rfl
@[simp] theorem State.setChk_fio (f : Chk → Chk) : (s.setChk f).fio = s.fio := rfl
@[simp] theorem State.setChk_mbc (f : Chk → Chk) : (s.setChk f).mbc = s.mbc := rfl
@[simp] theorem State.setChk_dma (f : Chk → Chk) : (s.setChk f).dma = s.dma := rfl
@[simp] theorem State.setChk_bdr (f : Chk → Chk) : (s.setChk f).bdr = s.bdr := rfl
@[simp] theorem State.setChk_cal (f : Chk → Chk) : (s.setChk f).cal = s.cal := rfl
@[simp] theorem State.setChk_rsv (f : Chk → Chk) : (s.setChk f).rsv = s.rsv := rfl
@[simp] theorem State.setChk_wdg (f : Chk → Chk) : (s.setChk f).wdg = s.wdg := rfl
@[simp] theorem State.setChk_chk (f : Chk → Chk) : (s.setChk f).chk = f s.chk := rfl
@[simp] theorem State.setChk_flt (f : Chk → Chk) : (s.setChk f).flt = s.flt := rfl
@[simp] theorem State.setChk_sta (f : Chk → Chk) : (s.setChk f).sta = s.sta := rfl
@[simp] theorem State.setChk_snp (f : Chk → Chk) : (s.setChk f).snp = s.snp := rfl
@[simp] theorem State.setChk_hlt (f : Chk → Chk) : (s.setChk f).hlt = s.hlt := rfl
@[simp] theorem State.setChk_pmc (f : Chk → Chk) : (s.setChk f).pmc = s.pmc := rfl
@[simp] theorem State.setChk_pwr (f : Chk → Chk) : (s.setChk f).pwr = s.pwr := rfl
@[simp] theorem State.setChk_fresh (f : Chk → Chk) : (s.setChk f).fresh = s.fresh := rfl
@[simp] theorem State.setChk_pending (f : Chk → Chk) : (s.setChk f).pending = s.pending := rfl

/-! ### setFlt -/

@[simp] theorem State.setFlt_part (f : Flt → Flt) : (s.setFlt f).part = s.part := rfl
@[simp] theorem State.setFlt_objs (f : Flt → Flt) : (s.setFlt f).objs = s.objs := rfl
@[simp] theorem State.setFlt_doms (f : Flt → Flt) : (s.setFlt f).doms = s.doms := rfl
@[simp] theorem State.setFlt_mem (f : Flt → Flt) : (s.setFlt f).mem = s.mem := rfl
@[simp] theorem State.setFlt_ecc (f : Flt → Flt) : (s.setFlt f).ecc = s.ecc := rfl
@[simp] theorem State.setFlt_owners (f : Flt → Flt) : (s.setFlt f).owners = s.owners := rfl
@[simp] theorem State.setFlt_sess (f : Flt → Flt) : (s.setFlt f).sess = s.sess := rfl
@[simp] theorem State.setFlt_dic (f : Flt → Flt) : (s.setFlt f).dic = s.dic := rfl
@[simp] theorem State.setFlt_ctxs (f : Flt → Flt) : (s.setFlt f).ctxs = s.ctxs := rfl
@[simp] theorem State.setFlt_cores (f : Flt → Flt) : (s.setFlt f).cores = s.cores := rfl
@[simp] theorem State.setFlt_tds (f : Flt → Flt) : (s.setFlt f).tds = s.tds := rfl
@[simp] theorem State.setFlt_tasks (f : Flt → Flt) : (s.setFlt f).tasks = s.tasks := rfl
@[simp] theorem State.setFlt_img (f : Flt → Flt) : (s.setFlt f).img = s.img := rfl
@[simp] theorem State.setFlt_retAt (f : Flt → Flt) : (s.setFlt f).retAt = s.retAt := rfl
@[simp] theorem State.setFlt_retNext (f : Flt → Flt) : (s.setFlt f).retNext = s.retNext := rfl
@[simp] theorem State.setFlt_olc (f : Flt → Flt) : (s.setFlt f).olc = s.olc := rfl
@[simp] theorem State.setFlt_str (f : Flt → Flt) : (s.setFlt f).str = s.str := rfl
@[simp] theorem State.setFlt_hnw (f : Flt → Flt) : (s.setFlt f).hnw = s.hnw := rfl
@[simp] theorem State.setFlt_ntm (f : Flt → Flt) : (s.setFlt f).ntm = s.ntm := rfl
@[simp] theorem State.setFlt_red (f : Flt → Flt) : (s.setFlt f).red = s.red := rfl
@[simp] theorem State.setFlt_fio (f : Flt → Flt) : (s.setFlt f).fio = s.fio := rfl
@[simp] theorem State.setFlt_mbc (f : Flt → Flt) : (s.setFlt f).mbc = s.mbc := rfl
@[simp] theorem State.setFlt_dma (f : Flt → Flt) : (s.setFlt f).dma = s.dma := rfl
@[simp] theorem State.setFlt_bdr (f : Flt → Flt) : (s.setFlt f).bdr = s.bdr := rfl
@[simp] theorem State.setFlt_cal (f : Flt → Flt) : (s.setFlt f).cal = s.cal := rfl
@[simp] theorem State.setFlt_rsv (f : Flt → Flt) : (s.setFlt f).rsv = s.rsv := rfl
@[simp] theorem State.setFlt_wdg (f : Flt → Flt) : (s.setFlt f).wdg = s.wdg := rfl
@[simp] theorem State.setFlt_chk (f : Flt → Flt) : (s.setFlt f).chk = s.chk := rfl
@[simp] theorem State.setFlt_flt (f : Flt → Flt) : (s.setFlt f).flt = f s.flt := rfl
@[simp] theorem State.setFlt_sta (f : Flt → Flt) : (s.setFlt f).sta = s.sta := rfl
@[simp] theorem State.setFlt_snp (f : Flt → Flt) : (s.setFlt f).snp = s.snp := rfl
@[simp] theorem State.setFlt_hlt (f : Flt → Flt) : (s.setFlt f).hlt = s.hlt := rfl
@[simp] theorem State.setFlt_pmc (f : Flt → Flt) : (s.setFlt f).pmc = s.pmc := rfl
@[simp] theorem State.setFlt_pwr (f : Flt → Flt) : (s.setFlt f).pwr = s.pwr := rfl
@[simp] theorem State.setFlt_fresh (f : Flt → Flt) : (s.setFlt f).fresh = s.fresh := rfl
@[simp] theorem State.setFlt_pending (f : Flt → Flt) : (s.setFlt f).pending = s.pending := rfl

end Sys2Proof.Machine
end

