-- ==== Sys2Proof/Laws/Requests.lean ====
section
/-! SUPPORT. What a write of the dictionary does where it is taken and where it is refused, and what an instruction does where it
is issued: the two operations that most commands go through. -/

namespace Sys2Proof.Machine

/-! ### Writes of the dictionary -/

/-- The state in which an accepted write takes effect: its result is recorded, except that OLC.CMD PREPARE reports later, and
transactions that stage the object are in conflict. -/
def State.accepted (s : State) (n key u : Nat) : State :=
  (if key = K.OLC_CMD ∧ u = 4 then s else s.setResult n key stOK rNONE 0).noteWrite key

theorem State.setResult_txn (s : State) (n key st reason dies : Nat) :
    ((s.setResult n key st reason dies).ses n).txn = (s.ses n).txn := by
  simp [State.setResult, State.ses_setSes]

theorem State.accepted_red (s : State) (n key u : Nat) : (s.accepted n key u).red = s.red := by
  unfold State.accepted
  split <;> rfl

theorem State.accepted_part (s : State) (n key u : Nat) : (s.accepted n key u).part = s.part := by
  unfold State.accepted
  split <;> rfl

theorem State.accepted_mem (s : State) (n key u : Nat) : (s.accepted n key u).mem = s.mem := by
  unfold State.accepted
  split <;> rfl

theorem State.accepted_objs (s : State) (n key u : Nat) : (s.accepted n key u).objs = s.objs := by
  unfold State.accepted
  split <;> rfl

/-- A write that is taken takes effect in the state that its acceptance leaves; OLC.CMD then answers, and a write that can stop the
tide lets the transactions that waited apply. DIC.TXN, DIC.DOM_OPEN and DIC.DOM_CLOSE have operations of their own. -/
theorem State.setCmd_of_takes {s : State} {n key v : Nat} (h : Takes s n key v) (hoem : isOem (key / 256) = false)
    (hdesc : isTypeDesc key = false) (hap : key / 256 ≠ 0x1180) (htxn : key ≠ K.DIC_TXN) (hopen : key ≠ K.DIC_DOM_OPEN)
    (hclose : key ≠ K.DIC_DOM_CLOSE) :
    s.setCmd n key v = (((s.accepted n key (s.valueOf key v)).applyOb n key (s.valueOf key v)).when (decide (key = K.OLC_CMD))
      State.olcReply).when (stopsTide key) State.txnSettle := by
  have hp := h.passes
  have hw : (if (0 : Nat) = 0 then s.obBytes key else 0) = s.obBytes key := rfl
  unfold State.setCmd State.dictWrite
  rw [h.served, hoem, hdesc]
  simp only [Bool.not_true, Bool.false_eq_true, if_false, if_neg hap, if_true, hp, ne_eq, not_true, if_neg htxn,
    if_neg hopen, if_neg hclose]
  have htx : (s.ses n).txn ≠ .open := h.direct
  have hs := h.single
  have hr : ¬ ((s.replicates && s.isReplicated key) = true) := fun hx => Bool.false_ne_true (hs.symm.trans hx)
  unfold State.accepted
  split
  · rename_i hc
    rw [if_pos ⟨hc.1, hc.2.1⟩]
    unfold State.applyWrite
    dsimp only
    rw [if_neg]
    exact hr
  · rename_i hc
    have hc' : ¬ (key = K.OLC_CMD ∧ s.valueOf key v = 4) := fun hx => hc ⟨hx.1, hx.2, htx⟩
    rw [if_neg (by rw [State.setResult_txn]; exact htx), if_neg hc']
    unfold State.applyWrite
    dsimp only
    rw [if_neg]
    exact hr

/-- The same for a write that cannot stop the tide. -/
theorem State.setCmd_of_takes_plain {s : State} {n key v : Nat} (h : Takes s n key v) (hoem : isOem (key / 256) = false)
    (hdesc : isTypeDesc key = false) (hap : key / 256 ≠ 0x1180) (htxn : key ≠ K.DIC_TXN) (hopen : key ≠ K.DIC_DOM_OPEN)
    (hclose : key ≠ K.DIC_DOM_CLOSE) (hstop : stopsTide key = false) :
    s.setCmd n key v = ((s.accepted n key (s.valueOf key v)).applyOb n key (s.valueOf key v)).when (decide (key = K.OLC_CMD))
      State.olcReply := by
  rw [State.setCmd_of_takes h hoem hdesc hap htxn hopen hclose, hstop]
  rfl

/-- A refused write records its status, and beside it only what the object's own check notes. -/
theorem State.setCmd_of_refuses {s : State} {n key v st reason : Nat} (h : Refuses s n key v st reason) :
    s.setCmd n key v = ((s.when (decide (s.ownCheck n key (s.valueOf key v) = (st, reason))) fun s =>
      s.refusedNote n key (s.valueOf key v) st reason).setResult n key st reason 0) := by
  unfold State.setCmd State.dictWrite
  rw [h.served, h.plain.1, h.plain.2.1]
  simp only [Bool.not_true, Bool.false_eq_true, if_false, if_neg h.plain.2.2, if_true, h.fails, if_pos h.bad]
  rfl

/-! ### Instructions -/

theorem State.ctx_running {s : State} {c g : Nat} (h : s.issuer c = some g) : (s.ctx g).cs = .running := by
  unfold State.issuer at h
  split at h
  · cases h
  · have := List.find?_some h
    simpa using this

/-- No legal instruction is longer than 15 bytes. -/
theorem Form.length_of_legal {f : Form} {e : Enc} (h : f.legal e = true) : f.length e ≤ 15 := by
  unfold Form.legal at h
  simp only [Bool.and_eq_true, decide_eq_true_eq] at h
  exact h.2

/-- The bytes of an instruction that is legal here are judged to be it. -/
theorem Ctx.judge_self {x : Ctx} {f : Form} {e : Enc} (h : f.legal e = true) (hb : x.bracketBad e = false) :
    x.judge f e (f, e) = some true := by
  unfold Ctx.judge
  rw [if_neg (by rw [h, hb]; simp), if_pos rfl]

/-- An instruction that is issued does what its body says, and PC, the bracket and the traps follow from it. -/
theorem State.issue_of_issues {s s1 : State} {c g : Nat} {e : Enc} {f : Form} {x : Ctx} (h : Issues s c e f g s1 x)
    (body : State → Nat → Ctx → Word → Res) :
    s.issue c e f body = match body s1 g x (x.nextPc f e) with
      | .fault code detail addr => s1.faulted g code detail x.pc (BitVec.ofNat 32 addr) x.pc
      | .counted u code detail addr => u.faulted g code detail x.pc (BitVec.ofNat 32 addr) x.pc
      | .next u next raised swt => u.complete g e (e.npb && !x.rep) x.pc next raised swt
      | .again u => if (u.ctx g).cs = .free then u else u.modCtx g fun y => y.after e (e.npb && !x.rep) false x.pc x.pc 0
      | .hold u => u := by
  obtain ⟨b, hb⟩ := h.fetched
  have hbr : s.bracketEnd g = s := by
    unfold State.bracketEnd
    dsimp only
    rw [if_neg]
    rintro ⟨h1, h2⟩
    rcases h.room with h3 | h3
    · rw [h3] at h1; cases h1
    · omega
  have hx := h.regs
  have hl : (s1.core c).flight.filter (fun f => f.heldFor g) = [] := by
    rw [List.filter_eq_nil_iff]
    intro a ha hc
    rw [h.settled a ha] at hc
    cases hc
  have hd : ∀ t : State, s1.dropHeld t c g = t := fun t => by unfold State.dropHeld; rw [if_pos hl]
  have hk : ∀ t : State, s1.keepHeld t c g = t := fun t => by unfold State.keepHeld; dsimp only; rw [hl, if_pos rfl]
  unfold State.issue
  rw [h.running]
  dsimp only
  rw [if_neg (by rw [h.waits, h.answered]; simp), hbr, if_neg (by rw [State.ctx_running h.running]; simp), ← hx, h.coded]
  dsimp only
  rw [show Nat.min 15 (f.length e) = f.length e from Nat.min_eq_right (Form.length_of_legal h.legal), hb, Ctx.judge_self h.legal h.bracket]
  dsimp only
  simp only [hd, hk]
  rfl

/-- The end of an instruction that raises no trap and does not free its context. -/
theorem State.complete_of_no_trap {s : State} {g : Nat} {e : Enc} {opens : Bool} {pc next : Word} {raised : Nat}
    (hcs : (s.ctx g).cs ≠ .free) (ht : ((s.ctx g).after e opens true pc next raised).trapOf raised = none) :
    s.complete g e opens pc next raised none =
      if e.npe then (s.modCtx g fun x => x.after e opens true pc next raised).resched (g / 16)
      else s.modCtx g fun x => x.after e opens true pc next raised := by
  unfold State.complete
  rw [if_neg hcs]
  have hm : ((s.modCtx g fun x => x.after e opens true pc next raised).ctx g) = (s.ctx g).after e opens true pc next raised := by
    simp [State.modCtx, State.ctx_setCtx]
  dsimp only
  rw [hm, ht]

end Sys2Proof.Machine
end

