-- ==== Sys2Proof/Laws/SoundBase.lean ====
section
/-! SUPPORT. What every shared operation keeps: memory in its canonical form, and a Lighthouse that does not drive VALID to
both partners. The predicate, and the rules by which it passes through a definition. -/

namespace Sys2Proof.Machine

/-- A memory in canonical form, beside a witness that does not drive VALID to both partners. -/
structure SoundAt (m : List Host.Cell) (w : Wit) : Prop where
  mem : Memory.wf m = true
  wit : ¬ (w.pairA = .valid ∧ w.pairB = .valid)

/-- Memory is in its canonical form, and the Lighthouse does not drive VALID to both partners. -/
@[irreducible] def State.Sound (s : State) : Prop := SoundAt s.mem s.red.wit

theorem State.sound_iff (s : State) :
    s.Sound ↔ Memory.wf s.mem = true ∧ ¬ (s.red.wit.pairA = .valid ∧ s.red.wit.pairB = .valid) := by
  unfold State.Sound
  exact ⟨fun h => ⟨h.mem, h.wit⟩, fun h => ⟨h.1, h.2⟩⟩

theorem State.Sound.out {s : State} (h : s.Sound) : SoundAt s.mem s.red.wit := by
  unfold State.Sound at h
  exact h

/-- Whatever an operation changes, the memory and the witness apart, Sound stays. -/
theorem State.Sound.same {s t : State} (h : s.Sound) (hm : t.mem = s.mem) (hw : t.red.wit = s.red.wit) : t.Sound := by
  rw [State.sound_iff] at *
  rw [hm, hw]
  exact h

theorem State.sound_mk {part objs doms mem ecc owners sess dic ctxs cores tds tasks img retAt retNext olc str hnw ntm red fio mbc
    dma bdr cal rsv wdg chk flt sta snp hlt pmc pwr fresh pending} :
    State.Sound ⟨part, objs, doms, mem, ecc, owners, sess, dic, ctxs, cores, tds, tasks, img, retAt, retNext, olc, str, hnw, ntm, red,
      fio, mbc, dma, bdr, cal, rsv, wdg, chk, flt, sta, snp, hlt, pmc, pwr, fresh, pending⟩ = SoundAt mem red.wit := by
  unfold State.Sound
  rfl

/-! ### Through a definition's cases -/

theorem cut_goal {P Q : Prop} (h : P) (k : P → Q) : Q := k h

theorem ite_sound0 {c : Prop} [Decidable c] {a b : State} (ha : a.Sound) (hb : b.Sound) : (if c then a else b).Sound := by
  split <;> assumption

theorem State.when_sound {s : State} (c : Bool) (f : State → State) (h : s.Sound) (hf : (f s).Sound) : (s.when c f).Sound := by
  unfold State.when
  split <;> assumption

theorem State.foldl_sound {α : Type} (l : List α) (f : State → α → State) (hf : ∀ u x, State.Sound u → (f u x).Sound) {s : State}
    (h : s.Sound) : (l.foldl f s).Sound := by
  induction l generalizing s with
  | nil => exact h
  | cons x t ih => exact ih (hf _ _ h)

theorem foldl_sound1 {α β : Type} (l : List α) (f : State × β → α → State × β) {p : State × β} (h : p.1.Sound)
    (hf : ∀ p x, State.Sound p.1 → (f p x).1.Sound) : (l.foldl f p).1.Sound := by
  induction l generalizing p with
  | nil => exact h
  | cons x t ih => exact ih (hf _ _ h)

theorem State.each_sound {α : Type} {s : State} (l : List α) (f : State → α → State) (h : s.Sound)
    (hf : ∀ u x, State.Sound u → (f u x).Sound) : (s.each l f).Sound := State.foldl_sound l f hf h

theorem sound_of_eq {β : Type} {e : State × β} {s : State} {b : β} (h : e = (s, b)) (he : e.1.Sound) : s.Sound := by
  rw [h] at he
  exact he

/-! ### Memory and the witness -/

theorem State.setByte_sound {s : State} (a : Nat) (v : Byte) (h : s.Sound) : (s.setByte a v).Sound := by
  rw [State.sound_iff] at *
  exact ⟨State.setByte_wf a v h.1, h.2⟩

theorem State.putBytes_sound {s : State} (a : Nat) (b : List Byte) (h : s.Sound) : (s.putBytes a b).Sound := by
  induction b generalizing s a with
  | nil => exact h
  | cons c t ih => exact ih _ (State.setByte_sound a c h)

theorem State.wr_sound {s : State} (a n v : Nat) (h : s.Sound) : (s.wr a n v).Sound := State.putBytes_sound a _ h

theorem State.clearMem_sound {s : State} (a n : Nat) (h : s.Sound) : (s.clearMem a n).Sound := by
  rw [State.sound_iff] at *
  exact ⟨State.clearMem_wf a n h.1, h.2⟩

theorem State.setRed_sound {s : State} (f : Red → Red) (h : s.Sound) (hf : (f s.red).wit = s.red.wit) : (s.setRed f).Sound :=
  h.same rfl hf

end Sys2Proof.Machine
end

