-- ==== Sys2Proof/Laws/SoundTide.lean ====
section
/-! SUPPORT. Each operation of the tide, the image, time, Bedrock and Breakwater keeps memory canonical, and the
Lighthouse from driving VALID to both partners. -/

namespace Sys2Proof.Machine

set_option Elab.async false

theorem State.blit_sound (s : State) (src dst n : Nat) (h0 : s.Sound) : State.Sound (State.blit s src dst n) := by
  unfold State.blit
  repeat' first
    | with_reducible assumption | intro _ | (extract_lets +onlyGivenNames u; clear_value u)
    | with_reducible apply State.setByte_sound | with_reducible apply State.clearMem_sound
    | with_reducible apply State.foldl_sound

theorem State.eccClear_sound (s : State) (key n : Nat) (h0 : s.Sound) : State.Sound (State.eccClear s key n) := by
  unfold State.eccClear
  repeat' first
    | with_reducible assumption | intro _ | with_reducible apply ite_sound0 | simp only [State.sound_mk]
    | with_reducible apply State.Sound.out

theorem State.setOb_sound (s : State) (key v : Nat) (h0 : s.Sound) : State.Sound (State.setOb s key v) := h0.same rfl rfl

theorem State.addOb_sound (s : State) (key n : Nat) (h0 : s.Sound) : State.Sound (State.addOb s key n) := h0.same rfl rfl

theorem State.incOb_sound (s : State) (key : Nat) (h0 : s.Sound) : State.Sound (State.incOb s key) := h0.same rfl rfl

theorem State.countCorr_sound (s : State) (c key n : Nat) (h0 : s.Sound) : State.Sound (State.countCorr s c key n) := by
  unfold State.countCorr
  repeat' first
    | with_reducible assumption | intro _ | with_reducible apply ite_sound0 | with_reducible apply State.addOb_sound

theorem State.strandCorr_sound (s : State) (n key len : Nat) (h0 : s.Sound) : State.Sound (State.strandCorr s n key len) := by
  unfold State.strandCorr
  repeat' first
    | with_reducible assumption | intro _ | with_reducible apply State.countCorr_sound

theorem State.setDom_sound (s : State) (key : Nat) (b : List Sys2Proof.Byte) (h0 : s.Sound) : State.Sound (State.setDom s key b) := h0.same rfl rfl

theorem State.setSes_sound (s : State) (n : Nat) (x : Ses) (h0 : s.Sound) : State.Sound (State.setSes s n x) := h0.same rfl rfl

theorem State.setCtx_sound (s : State) (g : Nat) (x : Ctx) (h0 : s.Sound) : State.Sound (State.setCtx s g x) := h0.same rfl rfl

theorem State.setCore_sound (s : State) (c : Nat) (x : CoreSt) (h0 : s.Sound) : State.Sound (State.setCore s c x) := h0.same rfl rfl

theorem State.setTask_sound (s : State) (t : Nat) (x : Task) (h0 : s.Sound) : State.Sound (State.setTask s t x) := h0.same rfl rfl

theorem State.setStn_sound (s : State) (n : Nat) (x : Sta) (h0 : s.Sound) : State.Sound (State.setStn s n x) := h0.same rfl rfl

theorem State.setMb_sound (s : State) (k : Nat) (x : Mbc) (h0 : s.Sound) : State.Sound (State.setMb s k x) := h0.same rfl rfl

theorem State.setCh_sound (s : State) (k : Nat) (x : Dma) (h0 : s.Sound) : State.Sound (State.setCh s k x) := h0.same rfl rfl

theorem State.setWd_sound (s : State) (n : Nat) (x : Wdg) (h0 : s.Sound) : State.Sound (State.setWd s n x) := h0.same rfl rfl

theorem State.setOwner_sound (s : State) (line v : Nat) (h0 : s.Sound) : State.Sound (State.setOwner s line v) := h0.same rfl rfl

theorem State.setDomSt_sound (s : State) (d : Nat) (x : DomSt) (h0 : s.Sound) : State.Sound (State.setDomSt s d x) := h0.same rfl rfl

theorem State.draw_sound (s : State) (h0 : s.Sound) : State.Sound (State.draw s) := h0.same rfl rfl

theorem State.raise_sound (s : State) (cls key src root detail extra : Nat) (h0 : s.Sound) : State.Sound (State.raise s cls key src root detail extra) := h0.same rfl rfl

theorem State.raiseSt_sound (s : State) (cls src : Nat) (up : Bool) (detail : Nat) (h0 : s.Sound) : State.Sound (State.raiseSt s cls src up detail) := h0.same rfl rfl

theorem State.sample_sound (s : State) (cls key : Nat) (v : Int) (h0 : s.Sound) : State.Sound (State.sample s cls key v) := by
  unfold State.sample
  repeat' first
    | with_reducible assumption | intro _
    | (extract_lets +onlyGivenNames u; refine cut_goal (P := State.Sound u) ?_ fun _ => ?_; (on_goal 2 => clear_value u); (on_goal 1 => (unfold u; clear u)))
    | (extract_lets +onlyGivenNames u; clear_value u) | with_reducible apply ite_sound0
    | with_reducible apply State.incOb_sound | simp only [State.sound_mk] | with_reducible apply State.Sound.out | dsimp only
    | split

theorem State.modTask_sound (s : State) (t : Nat) (f : Task → Task) (h0 : s.Sound) : State.Sound (State.modTask s t f) := h0.same rfl rfl

theorem State.modCtx_sound (s : State) (g : Nat) (f : Ctx → Ctx) (h0 : s.Sound) : State.Sound (State.modCtx s g f) := h0.same rfl rfl

theorem State.resched_sound (s : State) (c : Nat) (h0 : s.Sound) : State.Sound (State.resched s c) := by
  unfold State.resched
  repeat' first
    | with_reducible assumption | intro _ | with_reducible apply ite_sound0 | with_reducible apply State.modCtx_sound
    | simp only [State.sound_mk] | with_reducible apply State.Sound.out | dsimp only | split

theorem State.keeperWake_sound (s : State) (h0 : s.Sound) : State.Sound (State.keeperWake s) := by
  unfold State.keeperWake
  repeat' first
    | with_reducible assumption | intro _ | with_reducible apply ite_sound0 | with_reducible apply State.resched_sound
    | with_reducible apply State.modCtx_sound

theorem State.kevent_sound (s : State) (n : Nat) (h0 : s.Sound) : State.Sound (State.kevent s n) := by
  unfold State.kevent
  repeat' first
    | with_reducible assumption | intro _ | with_reducible apply State.keeperWake_sound
    | with_reducible apply State.setOb_sound

theorem State.setTds_sound (s : State) (f : Tds → Tds) (h0 : s.Sound) : State.Sound (State.setTds s f) := h0.same rfl rfl

theorem State.toTide_sound (s : State) (st : TideSt) (h0 : s.Sound) : State.Sound (State.toTide s st) := by
  unfold State.toTide
  repeat' first
    | with_reducible assumption | intro _ | with_reducible apply ite_sound0 | with_reducible apply State.kevent_sound
    | with_reducible apply State.setTds_sound

theorem State.reschedAll_sound (s : State) (h0 : s.Sound) : State.Sound (State.reschedAll s) := by
  unfold State.reschedAll
  repeat' first
    | with_reducible assumption | intro _ | with_reducible apply State.each_sound | with_reducible apply State.resched_sound

theorem State.modCore_sound (s : State) (c : Nat) (f : CoreSt → CoreSt) (h0 : s.Sound) : State.Sound (State.modCore s c f) := h0.same rfl rfl

theorem State.loadsDone_sound (s : State) (g : Nat) (h0 : s.Sound) : State.Sound (State.loadsDone s g) := by
  unfold State.loadsDone
  repeat' first
    | with_reducible assumption | intro _ | with_reducible apply ite_sound0 | with_reducible apply State.modCtx_sound

theorem State.setBdr_sound (s : State) (f : Bdr → Bdr) (h0 : s.Sound) : State.Sound (State.setBdr s f) := h0.same rfl rfl

theorem State.wear_sound (s : State) (page n : Nat) (h0 : s.Sound) : State.Sound (State.wear s page n) := h0.same rfl rfl

theorem State.wearLines_sound (s : State) (off n : Nat) (h0 : s.Sound) : State.Sound (State.wearLines s off n) := by
  unfold State.wearLines
  repeat' first
    | with_reducible assumption | intro _ | with_reducible apply State.each_sound | with_reducible apply State.wear_sound

theorem State.setSlot_sound (s : State) (k : Nat) (x : Slot) (h0 : s.Sound) : State.Sound (State.setSlot s k x) := h0.same rfl rfl

theorem State.applyBytes_sound (s : State) (m : Sys2Proof.SMap (Option Sys2Proof.Byte)) (h0 : s.Sound) : State.Sound (State.applyBytes s m) := by
  unfold State.applyBytes
  repeat' first
    | with_reducible assumption | intro _
    | (extract_lets +onlyGivenNames u; refine cut_goal (P := State.Sound u) ?_ fun _ => ?_; (on_goal 2 => clear_value u); (on_goal 1 => (unfold u; clear u)))
    | with_reducible apply State.each_sound | with_reducible apply State.setByte_sound | with_reducible apply State.wear_sound
    | simp only [State.sound_mk] | with_reducible apply State.Sound.out | dsimp only | split

theorem State.applySlot_sound (s : State) (k : Nat) (h0 : s.Sound) : State.Sound (State.applySlot s k) := by
  unfold State.applySlot
  repeat' first
    | with_reducible assumption | intro _ | with_reducible apply State.setSlot_sound | with_reducible apply State.wear_sound
    | with_reducible apply State.applyBytes_sound

theorem State.finishApply_sound (s : State) (h0 : s.Sound) : State.Sound (State.finishApply s) := by
  unfold State.finishApply
  repeat' first
    | with_reducible assumption | intro _ | with_reducible apply State.incOb_sound | with_reducible apply State.applySlot_sound
    | simp only [State.sound_mk] | with_reducible apply State.Sound.out | dsimp only | split

theorem State.journal_sound (s : State) (m : Sys2Proof.SMap (Option Sys2Proof.Byte)) (h0 : s.Sound) : State.Sound (State.journal s m) := by
  unfold State.journal
  repeat' first
    | with_reducible assumption | intro _
    | (extract_lets +onlyGivenNames u; refine cut_goal (P := State.Sound u) ?_ fun _ => ?_; (on_goal 2 => clear_value u); (on_goal 1 => (unfold u; clear u)))
    | (extract_lets +onlyGivenNames u; clear_value u) | with_reducible apply State.finishApply_sound
    | with_reducible apply State.wear_sound | with_reducible apply State.setBdr_sound
    | with_reducible apply State.setSlot_sound

theorem State.bedTxn_sound (s : State) (m : Sys2Proof.SMap (Option Sys2Proof.Byte)) (h0 : s.Sound) : State.Sound (State.bedTxn s m).1 := by
  unfold State.bedTxn
  repeat' first
    | with_reducible assumption | intro _ | with_reducible apply ite_sound0 | with_reducible apply State.incOb_sound
    | with_reducible apply State.finishApply_sound | with_reducible apply State.journal_sound | split

theorem State.forceRange_sound (s : State) (area off n dst : Nat) (h0 : s.Sound) : State.Sound (State.forceRange s area off n dst) := by
  unfold State.forceRange
  repeat' first
    | with_reducible assumption | intro _ | (extract_lets +onlyGivenNames u; clear_value u) | with_reducible apply ite_sound0
    | with_reducible apply State.each_sound | with_reducible apply State.setByte_sound

theorem State.setImg_sound (s : State) (f : Img → Img) (h0 : s.Sound) : State.Sound (State.setImg s f) := h0.same rfl rfl

theorem State.orphanRise_sound (s : State) (before : Nat) (h0 : s.Sound) : State.Sound (State.orphanRise s before) := by
  unfold State.orphanRise
  repeat' first
    | with_reducible assumption | intro _ | with_reducible apply State.when_sound | with_reducible apply State.raise_sound

theorem State.orphanAll_sound (s : State) (h0 : s.Sound) : State.Sound (State.orphanAll s) := by
  unfold State.orphanAll
  repeat' first
    | with_reducible assumption | intro _ | (extract_lets +onlyGivenNames u; clear_value u)
    | with_reducible apply State.orphanRise_sound | with_reducible apply State.setImg_sound

theorem State.saveLine_sound (s : State) (l : Nat) (h0 : s.Sound) : State.Sound (State.saveLine s l) := by
  unfold State.saveLine
  repeat' first
    | with_reducible assumption | intro _ | with_reducible apply ite_sound0 | with_reducible apply State.setImg_sound
    | with_reducible apply State.blit_sound

theorem State.copyProgress_sound (s : State) (h0 : s.Sound) : State.Sound (State.copyProgress s) := by
  unfold State.copyProgress
  repeat' first
    | with_reducible assumption | intro _ | (extract_lets +onlyGivenNames u; clear_value u) | with_reducible apply ite_sound0
    | with_reducible apply State.setImg_sound | with_reducible apply State.each_sound
    | with_reducible apply State.saveLine_sound

theorem State.markLine_sound (s : State) (l : Nat) (h0 : s.Sound) : State.Sound (State.markLine s l) := by
  unfold State.markLine
  repeat' first
    | with_reducible assumption | intro _ | with_reducible apply ite_sound0 | with_reducible apply State.setImg_sound

theorem State.landWrite_sound (s : State) (off : Nat) (b : List Sys2Proof.Byte) (h0 : s.Sound) : State.Sound (State.landWrite s off b) := by
  unfold State.landWrite
  repeat' first
    | with_reducible assumption | intro _
    | (extract_lets +onlyGivenNames u; refine cut_goal (P := State.Sound u) ?_ fun _ => ?_; (on_goal 2 => clear_value u); (on_goal 1 => (unfold u; clear u)))
    | (extract_lets +onlyGivenNames u; clear_value u) | with_reducible apply State.each_sound
    | with_reducible apply State.saveLine_sound | with_reducible apply State.putBytes_sound
    | with_reducible apply State.forceRange_sound | with_reducible apply State.markLine_sound

theorem State.hold_sound (s : State) (e : Option Nat × HeldOp) (h0 : s.Sound) : State.Sound (State.hold s e) := h0.same rfl rfl

theorem State.holdPlace_sound (s : State) (e : Option Nat × HeldOp) (h0 : s.Sound) : State.Sound (State.holdPlace s e).1 := by
  unfold State.holdPlace
  repeat' first
    | with_reducible assumption | intro _ | with_reducible apply_assumption | with_reducible apply State.setTds_sound
    | with_reducible apply foldl_sound1 | simp only [State.sound_mk] | with_reducible apply State.Sound.out | dsimp only
    | split

theorem State.devTxn_sound (s : State) (first pages : Nat) (f : State → State) (h : s.Sound)
    (hf : ∀ u, State.Sound u → (f u).Sound) : State.Sound (s.devTxn first pages f) := by
  unfold State.devTxn
  split
  · exact h
  · split
    · exact State.incOb_sound _ _ h
    · extract_lets u data
      have hu : u.Sound := State.finishApply_sound _ h
      clear_value u data
      with_reducible refine hf _ (State.draw_sound _ ?_)
      repeat' first
        | with_reducible assumption | with_reducible apply State.wear_sound | with_reducible apply State.finishApply_sound
        | with_reducible apply State.journal_sound

theorem State.devRecord_sound (s : State) (f : State → State) (h : s.Sound)
    (hf : ∀ u, State.Sound u → (f u).Sound) : State.Sound (s.devRecord f) := State.devTxn_sound _ _ _ _ h hf

theorem State.retainForceTable_sound (s : State) (h0 : s.Sound) : State.Sound (State.retainForceTable s) := by
  unfold State.retainForceTable
  repeat' first
    | with_reducible assumption | intro _ | (extract_lets +onlyGivenNames u; clear_value u) | with_reducible apply ite_sound0
    | with_reducible apply State.devTxn_sound | simp only [State.sound_mk] | with_reducible apply State.Sound.out

theorem State.landForce_sound (s : State) (c : Sys2Proof.FChange) (h0 : s.Sound) : State.Sound (State.landForce s c) := by
  unfold State.landForce
  repeat' first
    | with_reducible assumption | intro _
    | (extract_lets +onlyGivenNames u; refine cut_goal (P := State.Sound u) ?_ fun _ => ?_; (on_goal 2 => clear_value u); (on_goal 1 => (unfold u; clear u)))
    | (extract_lets +onlyGivenNames u; clear_value u) | with_reducible apply ite_sound0 | with_reducible apply State.each_sound
    | with_reducible apply State.saveLine_sound | with_reducible apply State.setImg_sound
    | with_reducible apply State.setOb_sound | with_reducible apply State.setByte_sound
    | with_reducible apply State.retainForceTable_sound | with_reducible apply State.orphanRise_sound
    | with_reducible apply State.markLine_sound | simp only [State.sound_mk] | with_reducible apply State.Sound.out
    | dsimp only | split

theorem State.countHold_sound (s : State) (n : Nat) (h0 : s.Sound) : State.Sound (State.countHold s n) := h0.same rfl rfl

theorem State.imgWrite_sound (s : State) (off : Nat) (b : List Sys2Proof.Byte) (h0 : s.Sound) : State.Sound (State.imgWrite s off b) := by
  unfold State.imgWrite
  repeat' first
    | with_reducible assumption | intro _
    | (extract_lets +onlyGivenNames u; refine cut_goal (P := State.Sound u) ?_ fun _ => ?_; (on_goal 2 => clear_value u); (on_goal 1 => (unfold u; clear u)))
    | (extract_lets +onlyGivenNames u; clear_value u) | with_reducible apply ite_sound0
    | with_reducible apply State.copyProgress_sound | with_reducible apply State.landWrite_sound
    | with_reducible apply State.countHold_sound | with_reducible apply State.hold_sound

theorem State.imgForce_sound (s : State) (c : Sys2Proof.FChange) (h0 : s.Sound) : State.Sound (State.imgForce s c) := by
  unfold State.imgForce
  repeat' first
    | with_reducible assumption | intro _
    | (extract_lets +onlyGivenNames u; refine cut_goal (P := State.Sound u) ?_ fun _ => ?_; (on_goal 2 => clear_value u); (on_goal 1 => (unfold u; clear u)))
    | (extract_lets +onlyGivenNames u; clear_value u) | with_reducible apply ite_sound0
    | with_reducible apply State.copyProgress_sound | with_reducible apply State.landForce_sound
    | with_reducible apply State.countHold_sound | with_reducible apply State.hold_sound

theorem State.landHeldForce_sound (s : State) (e : Option Nat × HeldOp) (h0 : s.Sound) : State.Sound (State.landHeldForce s e) := by
  unfold State.landHeldForce
  split
  · split
    · extract_lets p
      have hp : p.1.Sound := State.holdPlace_sound _ _ h0
      clear_value p
      split
      · exact State.landForce_sound _ _ hp
      · exact State.hold_sound _ _ hp
    · exact State.hold_sound _ _ h0
  · exact State.hold_sound _ _ h0

theorem State.pumpForces_sound (s : State) (h0 : s.Sound) : State.Sound (State.pumpForces s) := by
  unfold State.pumpForces
  repeat' first
    | with_reducible assumption | intro _
    | (extract_lets +onlyGivenNames u; refine cut_goal (P := State.Sound u) ?_ fun _ => ?_; (on_goal 2 => clear_value u); (on_goal 1 => (unfold u; clear u)))
    | (extract_lets +onlyGivenNames u; clear_value u) | with_reducible apply State.each_sound
    | with_reducible apply State.setImg_sound | with_reducible apply State.landHeldForce_sound
    | with_reducible apply State.setTds_sound | with_reducible apply State.imgForce_sound

theorem State.forceChange_sound (s : State) (c : Sys2Proof.FChange) (h0 : s.Sound) : State.Sound (State.forceChange s c) := by
  unfold State.forceChange
  repeat' first
    | with_reducible assumption | intro _ | with_reducible apply State.pumpForces_sound
    | with_reducible apply State.setTds_sound

theorem State.invalidate_sound (s : State) (strand off n : Nat) (writer : Option Nat) (h0 : s.Sound) : State.Sound (State.invalidate s strand off n writer) := by
  unfold State.invalidate
  repeat' first
    | with_reducible assumption | intro _ | (extract_lets +onlyGivenNames u; clear_value u) | with_reducible apply ite_sound0
    | with_reducible apply State.each_sound | with_reducible apply State.setCore_sound

theorem State.seqBegin_sound (s : State) (k : Nat) (h0 : s.Sound) : State.Sound (State.seqBegin s k) := by
  unfold State.seqBegin
  repeat' first
    | with_reducible assumption | intro _ | (extract_lets +onlyGivenNames u; clear_value u)
    | with_reducible apply State.draw_sound | with_reducible apply State.setOb_sound | with_reducible apply State.setCh_sound

theorem State.seqMove_sound (s : State) (k src dst n : Nat) (h0 : s.Sound) : State.Sound (State.seqMove s k src dst n) := by
  unfold State.seqMove
  repeat' first
    | with_reducible assumption | intro _ | (extract_lets +onlyGivenNames u; clear_value u)
    | with_reducible apply State.incOb_sound | with_reducible apply State.addOb_sound | with_reducible apply State.setCh_sound

theorem State.seqStop_sound (s : State) (k src dst n : Nat) (e : CopyErr) (h0 : s.Sound) : State.Sound (State.seqStop s k src dst n e) := by
  unfold State.seqStop
  repeat' first
    | with_reducible assumption | intro _ | (extract_lets +onlyGivenNames u; clear_value u)
    | with_reducible apply State.addOb_sound | with_reducible apply State.setCh_sound

theorem State.seqEnd_sound (s : State) (k : Nat) (h0 : s.Sound) : State.Sound (State.seqEnd s k) := by
  unfold State.seqEnd
  repeat' first
    | with_reducible assumption | intro _ | (extract_lets +onlyGivenNames u; clear_value u) | with_reducible apply ite_sound0
    | with_reducible apply State.setCh_sound

theorem State.seqLine_sound (s : State) (k src dst n : Nat) (h0 : s.Sound) : State.Sound (State.seqLine s k src dst n) := by
  unfold State.seqLine
  repeat' first
    | with_reducible assumption | intro _ | with_reducible apply State.seqEnd_sound | with_reducible apply State.seqMove_sound
    | with_reducible apply State.seqBegin_sound

theorem State.chanHalt_sound (s : State) (k : Nat) (e : CopyErr) (h0 : s.Sound) : State.Sound (State.chanHalt s k e) := h0.same rfl rfl

theorem State.copyOld_sound (s : State) (e : ListEntry) (dst m : Nat) (old : List (Nat × List Sys2Proof.Byte)) (h0 : s.Sound) : State.Sound (State.copyOld s e dst m old) := by
  unfold State.copyOld
  repeat' first
    | with_reducible assumption | intro _ | with_reducible apply ite_sound0 | with_reducible apply State.each_sound
    | with_reducible apply State.putBytes_sound

theorem State.copyInEntry_sound (s : State) (n : Nat) (old : List (Nat × List Sys2Proof.Byte)) (e : ListEntry) (m : Nat) (h0 : s.Sound) : State.Sound (State.copyInEntry s n old e m) := by
  unfold State.copyInEntry
  repeat' first
    | with_reducible assumption | intro _
    | (extract_lets +onlyGivenNames u; refine cut_goal (P := State.Sound u) ?_ fun _ => ?_; (on_goal 2 => clear_value u); (on_goal 1 => (unfold u; clear u)))
    | (extract_lets +onlyGivenNames u; clear_value u) | with_reducible apply State.copyOld_sound
    | with_reducible apply State.blit_sound | with_reducible apply State.invalidate_sound
    | with_reducible apply State.eccClear_sound | with_reducible apply State.forceRange_sound

theorem State.copyInSec_sound (s : State) (t i : Nat) (old : List (Nat × List Sys2Proof.Byte)) (h0 : s.Sound) : State.Sound (State.copyInSec s t i old).1 := by
  unfold State.copyInSec
  extract_lets n r
  have hr : r.1.Sound := by
    refine foldl_sound1 _ _ (State.seqBegin_sound _ _ h0) (fun p e hp => ?_)
    split
    · exact hp
    · split
      · exact State.seqStop_sound _ _ _ _ _ _ (State.copyInEntry_sound _ _ _ _ _ hp)
      · exact State.seqMove_sound _ _ _ _ _ (State.copyInEntry_sound _ _ _ _ _ hp)
  clear_value r n
  exact State.seqEnd_sound _ _ hr

theorem State.copyBackRun_sound (s : State) (t i : Nat) (h0 : s.Sound) : State.Sound (State.copyBackRun s t i).1 := by
  unfold State.copyBackRun
  repeat' first
    | with_reducible assumption | intro _
    | (extract_lets +onlyGivenNames u; refine cut_goal (P := State.Sound u) ?_ fun _ => ?_; (on_goal 2 => clear_value u); (on_goal 1 => (unfold u; clear u)))
    | (extract_lets +onlyGivenNames u; refine cut_goal (P := State.Sound u.1) ?_ fun _ => ?_; (on_goal 2 => clear_value u); (on_goal 1 => (unfold u; clear u)))
    | (extract_lets +onlyGivenNames u; clear_value u) | with_reducible apply_assumption
    | with_reducible apply State.strandCorr_sound | with_reducible apply State.seqStop_sound
    | with_reducible apply State.seqMove_sound | with_reducible apply State.seqBegin_sound
    | with_reducible apply State.seqEnd_sound | with_reducible apply State.foldl_sound | with_reducible apply foldl_sound1
    | simp only [State.sound_mk] | with_reducible apply State.Sound.out | dsimp only | split

theorem State.copyBackReach_sound (s : State) (t : Nat) (h0 : s.Sound) : State.Sound (State.copyBackReach s t) := by
  unfold State.copyBackReach
  repeat' first
    | with_reducible assumption | intro _ | with_reducible apply State.each_sound | with_reducible apply State.saveLine_sound

theorem State.copyBackAll_sound (s : State) (t : Nat) (h0 : s.Sound) : State.Sound (State.copyBackAll s t) := by
  unfold State.copyBackAll
  repeat' first
    | with_reducible assumption | intro _
    | (extract_lets +onlyGivenNames u; refine cut_goal (P := State.Sound u) ?_ fun _ => ?_; (on_goal 2 => clear_value u); (on_goal 1 => (unfold u; clear u)))
    | (extract_lets +onlyGivenNames u; clear_value u) | with_reducible apply State.each_sound
    | with_reducible apply State.saveLine_sound | with_reducible apply State.forceRange_sound
    | with_reducible apply State.blit_sound | with_reducible apply State.markLine_sound

theorem State.setNtm_sound (s : State) (f : Ntm → Ntm) (h0 : s.Sound) : State.Sound (State.setNtm s f) := h0.same rfl rfl

theorem State.setGate_sound (s : State) (p : Nat) (g : Gate) (h0 : s.Sound) : State.Sound (State.setGate s p g) := h0.same rfl rfl

theorem State.gateNow_sound (s : State) (p : Nat) (h0 : s.Sound) : State.Sound (State.gateNow s p) := h0.same rfl rfl

theorem State.gatesNow_sound (s : State) (h0 : s.Sound) : State.Sound (State.gatesNow s) := by
  unfold State.gatesNow
  repeat' first
    | with_reducible assumption | intro _ | with_reducible apply State.each_sound | with_reducible apply State.gateNow_sound

theorem State.setNs_sound (s : State) (n : Nat) (h0 : s.Sound) : State.Sound (State.setNs s n) := h0.same rfl rfl

theorem State.thrCount_sound (s : State) (m0 m1 n : Nat) (h0 : s.Sound) : State.Sound (State.thrCount s m0 m1 n) := by
  unfold State.thrCount
  repeat' first
    | with_reducible assumption | intro _ | (extract_lets +onlyGivenNames u; clear_value u) | with_reducible apply ite_sound0
    | with_reducible apply State.addOb_sound | with_reducible apply State.draw_sound

theorem State.elapse_sound (s : State) (m : Nat) (h0 : s.Sound) : State.Sound (State.elapse s m) := by
  unfold State.elapse
  repeat' first
    | with_reducible assumption | intro _
    | (extract_lets +onlyGivenNames u; refine cut_goal (P := State.Sound u) ?_ fun _ => ?_; (on_goal 2 => clear_value u); (on_goal 1 => (unfold u; clear u)))
    | (extract_lets +onlyGivenNames u; clear_value u) | with_reducible apply State.each_sound
    | with_reducible apply State.thrCount_sound | simp only [State.sound_mk] | with_reducible apply State.Sound.out

theorem State.advance_sound (s : State) (dt : Nat) (h0 : s.Sound) : State.Sound (State.advance s dt) := by
  unfold State.advance
  repeat' first
    | with_reducible assumption | intro _ | with_reducible apply State.elapse_sound | with_reducible apply State.setNs_sound

theorem State.stepTime_sound (s : State) (d : Int) (h0 : s.Sound) : State.Sound (State.stepTime s d) := h0.same rfl rfl

theorem State.takeSteps_sound (s : State) (h0 : s.Sound) : State.Sound (State.takeSteps s) := by
  unfold State.takeSteps
  repeat' first
    | with_reducible assumption | intro _ | (extract_lets +onlyGivenNames u; clear_value u) | with_reducible apply ite_sound0
    | with_reducible apply State.gatesNow_sound | with_reducible apply State.each_sound
    | with_reducible apply State.setNtm_sound | with_reducible apply State.stepTime_sound

theorem State.tick_sound (s : State) (h0 : s.Sound) : State.Sound (State.tick s) := by
  unfold State.tick
  repeat' first
    | with_reducible assumption | intro _
    | (extract_lets +onlyGivenNames u; refine cut_goal (P := State.Sound u) ?_ fun _ => ?_; (on_goal 2 => clear_value u); (on_goal 1 => (unfold u; clear u)))
    | (extract_lets +onlyGivenNames u; clear_value u) | with_reducible apply State.elapse_sound
    | with_reducible apply State.setNs_sound | with_reducible apply State.takeSteps_sound | simp only [State.sound_mk]
    | with_reducible apply State.Sound.out

theorem State.begin_sound (s : State) (h : s.Sound) : s.begin_.Sound := by
  unfold State.begin_
  split
  · exact h
  · exact State.tick_sound _ h

theorem State.reach_sound (s : State) (t : Nat) (h0 : s.Sound) : State.Sound (State.reach s t) := by
  unfold State.reach
  have hb := State.begin_sound s h0
  split
  · extract_lets u
    replace hb : u.Sound := hb
    clear_value u
    split
    · exact State.advance_sound _ _ hb
    · exact hb
  · exact h0

theorem State.reachMono_sound (s : State) (t : Nat) (h0 : s.Sound) : State.Sound (State.reachMono s t) := by
  unfold State.reachMono
  have hb := State.begin_sound s h0
  split
  · extract_lets u
    replace hb : u.Sound := hb
    clear_value u
    split
    · exact State.advance_sound _ _ hb
    · exact hb
  · exact h0

theorem State.duesAnew_sound (s : State) (h0 : s.Sound) : State.Sound (State.duesAnew s) := h0.same rfl rfl

theorem State.sendToken_sound (s : State) (h0 : s.Sound) : State.Sound (State.sendToken s) := by
  unfold State.sendToken
  repeat' first
    | with_reducible assumption | intro _
    | (extract_lets +onlyGivenNames u; refine cut_goal (P := State.Sound u) ?_ fun _ => ?_; (on_goal 2 => clear_value u); (on_goal 1 => (unfold u; clear u)))
    | (extract_lets +onlyGivenNames u; clear_value u) | with_reducible apply ite_sound0 | with_reducible apply State.each_sound
    | with_reducible apply State.when_sound | simp only [State.sound_mk] | with_reducible apply State.Sound.out

theorem State.setCell_sound (s : State) (a : Nat) (x : Cell) (h0 : s.Sound) : State.Sound (State.setCell s a x) := by
  unfold State.setCell
  repeat' first
    | with_reducible assumption | intro _ | with_reducible apply State.wr_sound

theorem State.countBadKind_sound (s : State) (n : Nat) (h0 : s.Sound) : State.Sound (State.countBadKind s n) := h0.same rfl rfl

theorem State.rebaseVisit_sound (p : State × Rebase) (c : Nat) (h : p.1.Sound) : (State.rebaseVisit p c).1.Sound := by
  unfold State.rebaseVisit
  extract_lets r at_ a x now
  have hc : State.Sound (p.1.setCell a { x with stamp := sub32 now x.elapsed }) := State.setCell_sound _ _ _ h
  clear_value r at_ a x now
  split
  · exact h
  · dsimp only
    exact State.when_sound _ _ h hc

theorem State.rebaseTo_sound (s : State) (n : Nat) (h0 : s.Sound) : State.Sound (State.rebaseTo s n) := by
  unfold State.rebaseTo
  split
  · exact h0
  · extract_lets p
    have hp : p.1.Sound := foldl_sound1 _ _ h0 (fun q c hq => State.rebaseVisit_sound q c hq)
    clear_value p
    exact hp.same rfl rfl

theorem State.rebaseEnd_sound (s : State) (n : Nat) (h0 : s.Sound) : State.Sound (State.rebaseEnd s n) := by
  unfold State.rebaseEnd
  repeat' first
    | with_reducible assumption | intro _ | with_reducible apply ite_sound0 | with_reducible apply State.reach_sound
    | with_reducible apply State.rebaseTo_sound | simp only [State.sound_mk] | with_reducible apply State.Sound.out
    | dsimp only | split

theorem State.reachUs_sound (s : State) (u : Nat) (h0 : s.Sound) : State.Sound (State.reachUs s u) := by
  unfold State.reachUs
  repeat' first
    | with_reducible assumption | intro _ | with_reducible apply ite_sound0 | with_reducible apply State.reach_sound

theorem State.bwEnd_sound (s : State) (h0 : s.Sound) : State.Sound (State.bwEnd s) := by
  unfold State.bwEnd
  repeat' first
    | with_reducible assumption | intro _
    | (extract_lets +onlyGivenNames u; refine cut_goal (P := State.Sound u) ?_ fun _ => ?_; (on_goal 2 => clear_value u); (on_goal 1 => (unfold u; clear u)))
    | (extract_lets +onlyGivenNames u; clear_value u) | with_reducible apply ite_sound0
    | with_reducible apply State.reachUs_sound | with_reducible apply State.each_sound | with_reducible apply State.setOb_sound
    | simp only [State.sound_mk] | with_reducible apply State.Sound.out

theorem State.bwPast_sound (s : State) (h0 : s.Sound) : State.Sound (State.bwPast s) := by
  unfold State.bwPast
  repeat' first
    | with_reducible assumption | intro _ | with_reducible apply ite_sound0 | with_reducible apply State.bwEnd_sound

theorem State.bedDrop_sound (s : State) (who : Nat → Bool) (h0 : s.Sound) : State.Sound (State.bedDrop s who) := by
  unfold State.bedDrop
  repeat' first
    | with_reducible assumption | intro _
    | (extract_lets +onlyGivenNames u; refine cut_goal (P := State.Sound u) ?_ fun _ => ?_; (on_goal 2 => clear_value u); (on_goal 1 => (unfold u; clear u)))
    | (extract_lets +onlyGivenNames u; clear_value u) | with_reducible apply ite_sound0
    | with_reducible apply State.incOb_sound | simp only [State.sound_mk] | with_reducible apply State.Sound.out | dsimp only
    | split

theorem State.haltTaskAt_sound (s : State) (t : Nat) (h0 : s.Sound) : State.Sound (State.haltTaskAt s t) := by
  unfold State.haltTaskAt
  repeat' first
    | with_reducible assumption | intro _ | (extract_lets +onlyGivenNames u; clear_value u) | with_reducible apply ite_sound0
    | with_reducible apply State.kevent_sound | with_reducible apply State.modTask_sound
    | with_reducible apply State.bedDrop_sound

theorem State.haltContexts_sound (s : State) (h0 : s.Sound) : State.Sound (State.haltContexts s) := by
  unfold State.haltContexts
  repeat' first
    | with_reducible assumption | intro _ | with_reducible apply State.each_sound | with_reducible apply State.modCtx_sound

theorem State.tideHalt_sound (s : State) (h0 : s.Sound) : State.Sound (State.tideHalt s) := by
  unfold State.tideHalt
  repeat' first
    | with_reducible assumption | intro _
    | (extract_lets +onlyGivenNames u; refine cut_goal (P := State.Sound u) ?_ fun _ => ?_; (on_goal 2 => clear_value u); (on_goal 1 => (unfold u; clear u)))
    | with_reducible apply ite_sound0 | with_reducible apply State.haltContexts_sound | with_reducible apply State.each_sound
    | with_reducible apply State.haltTaskAt_sound | with_reducible apply State.setTds_sound
    | with_reducible apply State.pumpForces_sound | with_reducible apply State.reschedAll_sound
    | with_reducible apply State.toTide_sound

theorem State.tideSettle_sound (s : State) (h0 : s.Sound) : State.Sound (State.tideSettle s) := by
  unfold State.tideSettle
  repeat' first
    | with_reducible assumption | intro _ | with_reducible apply ite_sound0 | with_reducible apply State.toTide_sound
    | with_reducible apply State.setTds_sound

theorem State.taskHalt_sound (s : State) (t sec : Nat) (h0 : s.Sound) : State.Sound (State.taskHalt s t sec) := by
  unfold State.taskHalt
  repeat' first
    | with_reducible assumption | intro _
    | (extract_lets +onlyGivenNames u; refine cut_goal (P := State.Sound u) ?_ fun _ => ?_; (on_goal 2 => clear_value u); (on_goal 1 => (unfold u; clear u)))
    | (extract_lets +onlyGivenNames u; clear_value u) | with_reducible apply ite_sound0
    | with_reducible apply State.bedDrop_sound | with_reducible apply State.modTask_sound
    | with_reducible apply State.incOb_sound | with_reducible apply State.kevent_sound
    | with_reducible apply State.tideHalt_sound | with_reducible apply State.tideSettle_sound

theorem State.faultRecord_sound (s : State) (g task code detail : Nat) (fpc faddr : Sys2Proof.Word) (h0 : s.Sound) : State.Sound (State.faultRecord s g task code detail fpc faddr) := by
  unfold State.faultRecord
  repeat' first
    | with_reducible assumption | intro _
    | (extract_lets +onlyGivenNames u; refine cut_goal (P := State.Sound u) ?_ fun _ => ?_; (on_goal 2 => clear_value u); (on_goal 1 => (unfold u; clear u)))
    | (extract_lets +onlyGivenNames u; clear_value u) | with_reducible apply State.setOb_sound
    | with_reducible apply State.raise_sound | with_reducible apply State.incOb_sound

theorem State.taskFault_sound (s : State) (g code detail : Nat) (fpc faddr pc : Sys2Proof.Word) (h0 : s.Sound) : State.Sound (State.taskFault s g code detail fpc faddr pc) := by
  unfold State.taskFault
  repeat' first
    | with_reducible assumption | intro _
    | (extract_lets +onlyGivenNames u; refine cut_goal (P := State.Sound u) ?_ fun _ => ?_; (on_goal 2 => clear_value u); (on_goal 1 => (unfold u; clear u)))
    | (extract_lets +onlyGivenNames u; clear_value u) | with_reducible apply ite_sound0
    | with_reducible apply State.faultRecord_sound | with_reducible apply State.resched_sound
    | with_reducible apply State.setCtx_sound | with_reducible apply State.raise_sound
    | with_reducible apply State.taskHalt_sound

theorem State.tideStart_sound (s : State) (h0 : s.Sound) : State.Sound (State.tideStart s) := by
  unfold State.tideStart
  repeat' first
    | with_reducible assumption | intro _
    | (extract_lets +onlyGivenNames u; refine cut_goal (P := State.Sound u) ?_ fun _ => ?_; (on_goal 2 => clear_value u); (on_goal 1 => (unfold u; clear u)))
    | (extract_lets +onlyGivenNames u; clear_value u) | with_reducible apply ite_sound0
    | with_reducible apply State.setOb_sound | with_reducible apply State.each_sound | with_reducible apply State.modCtx_sound
    | with_reducible apply State.setTask_sound | with_reducible apply State.orphanAll_sound
    | with_reducible apply State.countBadKind_sound | with_reducible apply State.setTds_sound
    | with_reducible apply State.draw_sound | with_reducible apply State.reschedAll_sound
    | with_reducible apply State.toTide_sound

theorem State.tideStop_sound (s : State) (h0 : s.Sound) : State.Sound (State.tideStop s) := by
  unfold State.tideStop
  repeat' first
    | with_reducible assumption | intro _ | with_reducible apply State.toTide_sound
    | with_reducible apply State.tideSettle_sound | with_reducible apply State.setTds_sound | simp only [State.sound_mk]
    | with_reducible apply State.Sound.out | dsimp only | split

theorem State.tideClear_sound (s : State) (h0 : s.Sound) : State.Sound (State.tideClear s) := by
  unfold State.tideClear
  repeat' first
    | with_reducible assumption | intro _ | with_reducible apply ite_sound0 | with_reducible apply State.toTide_sound

theorem State.secReady_sound (s : State) (t i : Nat) (h0 : s.Sound) : State.Sound (State.secReady s t i) := by
  unfold State.secReady
  repeat' first
    | with_reducible assumption | intro _
    | (extract_lets +onlyGivenNames u; refine cut_goal (P := State.Sound u) ?_ fun _ => ?_; (on_goal 2 => clear_value u); (on_goal 1 => (unfold u; clear u)))
    | (extract_lets +onlyGivenNames u; clear_value u) | with_reducible apply ite_sound0
    | with_reducible apply State.modCtx_sound | with_reducible apply State.modTask_sound
    | with_reducible apply State.resched_sound

theorem State.openGates_sound (s : State) (t : Nat) (h0 : s.Sound) : State.Sound (State.openGates s t) := by
  unfold State.openGates
  repeat' first
    | with_reducible assumption | intro _ | with_reducible apply ite_sound0 | with_reducible apply State.each_sound
    | with_reducible apply State.secReady_sound

theorem State.dropFlights_sound (s : State) (g : Nat) (h0 : s.Sound) : State.Sound (State.dropFlights s g) := by
  unfold State.dropFlights
  repeat' first
    | with_reducible assumption | intro _ | (extract_lets +onlyGivenNames u; clear_value u) | with_reducible apply ite_sound0
    | with_reducible apply State.setCore_sound

theorem State.takeAt_sound (s : State) (t cause delay : Nat) (h0 : s.Sound) : State.Sound (State.takeAt s t cause delay) := by
  unfold State.takeAt
  repeat' first
    | with_reducible assumption | intro _
    | (extract_lets +onlyGivenNames u; refine cut_goal (P := State.Sound u) ?_ fun _ => ?_; (on_goal 2 => clear_value u); (on_goal 1 => (unfold u; clear u)))
    | (extract_lets +onlyGivenNames u; clear_value u) | with_reducible apply ite_sound0
    | with_reducible apply State.incOb_sound | with_reducible apply State.setOb_sound | with_reducible apply State.setTds_sound
    | with_reducible apply State.modTask_sound | with_reducible apply State.each_sound
    | with_reducible apply State.setSes_sound | with_reducible apply State.modCtx_sound
    | with_reducible apply State.dropFlights_sound | with_reducible apply State.openGates_sound
    | with_reducible apply State.sample_sound

theorem State.takeRelease_sound (s : State) (t cause : Nat) (h0 : s.Sound) : State.Sound (State.takeRelease s t cause) := by
  unfold State.takeRelease
  repeat' first
    | with_reducible assumption | intro _ | with_reducible apply State.takeAt_sound | with_reducible apply State.draw_sound

theorem State.abandonTask_sound (s : State) (t : Nat) (h0 : s.Sound) : State.Sound (State.abandonTask s t) := by
  unfold State.abandonTask
  repeat' first
    | with_reducible assumption | intro _
    | (extract_lets +onlyGivenNames u; refine cut_goal (P := State.Sound u) ?_ fun _ => ?_; (on_goal 2 => clear_value u); (on_goal 1 => (unfold u; clear u)))
    | (extract_lets +onlyGivenNames u; clear_value u) | with_reducible apply ite_sound0 | with_reducible apply State.each_sound
    | with_reducible apply State.modCtx_sound | with_reducible apply State.modTask_sound
    | with_reducible apply State.setTds_sound | with_reducible apply State.pumpForces_sound
    | with_reducible apply State.resched_sound

theorem State.overrun_sound (s : State) (t : Nat) (h0 : s.Sound) : State.Sound (State.overrun s t) := h0.same rfl rfl

theorem State.restart_sound (s : State) (t cause : Nat) (h0 : s.Sound) : State.Sound (State.restart s t cause) := by
  unfold State.restart
  repeat' first
    | with_reducible assumption | intro _
    | (extract_lets +onlyGivenNames u; refine cut_goal (P := State.Sound u) ?_ fun _ => ?_; (on_goal 2 => clear_value u); (on_goal 1 => (unfold u; clear u)))
    | with_reducible apply ite_sound0 | with_reducible apply State.abandonTask_sound
    | with_reducible apply State.takeRelease_sound

theorem State.release_sound (s : State) (cause t : Nat) (h0 : s.Sound) : State.Sound (State.release s cause t) := by
  unfold State.release
  repeat' first
    | with_reducible assumption | intro _
    | (extract_lets +onlyGivenNames u; refine cut_goal (P := State.Sound u) ?_ fun _ => ?_; (on_goal 2 => clear_value u); (on_goal 1 => (unfold u; clear u)))
    | (extract_lets +onlyGivenNames u; clear_value u) | with_reducible apply ite_sound0
    | with_reducible apply State.takeRelease_sound | with_reducible apply State.restart_sound
    | with_reducible apply State.overrun_sound | with_reducible apply State.modTask_sound | simp only [State.sound_mk]
    | with_reducible apply State.Sound.out | dsimp only | split

theorem State.releaseAll_sound (s : State) (cause : Nat) (l : List Nat) (h0 : s.Sound) : State.Sound (State.releaseAll s cause l) := by
  unfold State.releaseAll
  repeat' first
    | with_reducible assumption | intro _ | with_reducible apply State.each_sound | with_reducible apply State.release_sound

theorem State.fire_sound (s : State) (cls num : Nat) (h0 : s.Sound) : State.Sound (State.fire s cls num) := by
  unfold State.fire
  split
  · exact h0.same rfl rfl
  · exact State.setTds_sound _ _ h0

theorem State.copyHalt_sound (s : State) (t i : Nat) (e : CopyErr) (h0 : s.Sound) : State.Sound (State.copyHalt s t i e) := by
  unfold State.copyHalt
  repeat' first
    | with_reducible assumption | intro _
    | (extract_lets +onlyGivenNames u; refine cut_goal (P := State.Sound u) ?_ fun _ => ?_; (on_goal 2 => clear_value u); (on_goal 1 => (unfold u; clear u)))
    | (extract_lets +onlyGivenNames u; clear_value u) | with_reducible apply State.chanHalt_sound
    | with_reducible apply State.modCtx_sound | with_reducible apply State.resched_sound
    | with_reducible apply State.taskHalt_sound

theorem State.copyBackIf_sound (s : State) (t : Nat) (h0 : s.Sound) : State.Sound (State.copyBackIf s t) := by
  unfold State.copyBackIf
  repeat' first
    | with_reducible assumption | intro _
    | (extract_lets +onlyGivenNames u; refine cut_goal (P := State.Sound u) ?_ fun _ => ?_; (on_goal 2 => clear_value u); (on_goal 1 => (unfold u; clear u)))
    | with_reducible apply ite_sound0 | with_reducible apply State.setTds_sound | with_reducible apply State.modTask_sound
    | with_reducible apply State.copyBackReach_sound | with_reducible apply State.copyProgress_sound

theorem State.setFlag_sound (s : State) (t i : Nat) (h0 : s.Sound) : State.Sound (State.setFlag s t i) := by
  unfold State.setFlag
  repeat' first
    | with_reducible assumption | intro _
    | (extract_lets +onlyGivenNames u; refine cut_goal (P := State.Sound u) ?_ fun _ => ?_; (on_goal 2 => clear_value u); (on_goal 1 => (unfold u; clear u)))
    | with_reducible apply State.modTask_sound | with_reducible apply State.copyBackIf_sound
    | with_reducible apply State.openGates_sound

theorem State.sharing_sound (s : State) (line t i : Nat) (h0 : s.Sound) : State.Sound (State.sharing s line t i) := by
  unfold State.sharing
  repeat' first
    | with_reducible assumption | intro _
    | (extract_lets +onlyGivenNames u; refine cut_goal (P := State.Sound u) ?_ fun _ => ?_; (on_goal 2 => clear_value u); (on_goal 1 => (unfold u; clear u)))
    | (extract_lets +onlyGivenNames u; clear_value u) | with_reducible apply ite_sound0
    | with_reducible apply State.incOb_sound | with_reducible apply State.setOb_sound | with_reducible apply State.raise_sound
    | with_reducible apply State.setTds_sound

theorem State.sharingBack_sound (s : State) (t : Nat) (h0 : s.Sound) : State.Sound (State.sharingBack s t) := by
  unfold State.sharingBack
  repeat' first
    | with_reducible assumption | intro _ | with_reducible apply ite_sound0 | with_reducible apply State.each_sound
    | with_reducible apply State.sharing_sound

theorem State.publishEnd_sound (s : State) (t : Nat) (h0 : s.Sound) : State.Sound (State.publishEnd s t) := by
  unfold State.publishEnd
  repeat' first
    | with_reducible assumption | intro _
    | (extract_lets +onlyGivenNames u; refine cut_goal (P := State.Sound u) ?_ fun _ => ?_; (on_goal 2 => clear_value u); (on_goal 1 => (unfold u; clear u)))
    | (extract_lets +onlyGivenNames u; clear_value u) | with_reducible apply ite_sound0
    | with_reducible apply State.setOb_sound | with_reducible apply State.when_sound | with_reducible apply State.incOb_sound
    | with_reducible apply State.sample_sound | with_reducible apply State.setTask_sound
    | with_reducible apply State.takeAt_sound | with_reducible apply State.tideSettle_sound | simp only [State.sound_mk]
    | with_reducible apply State.Sound.out | dsimp only | split

theorem State.landPublish_sound (s : State) (t : Nat) (h0 : s.Sound) : State.Sound (State.landPublish s t) := by
  unfold State.landPublish
  repeat' first
    | with_reducible assumption | intro _ | with_reducible apply ite_sound0 | with_reducible apply State.each_sound
    | with_reducible apply State.copyBackRun_sound | with_reducible apply State.publishEnd_sound
    | with_reducible apply State.copyBackAll_sound | with_reducible apply State.sharingBack_sound
    | with_reducible apply State.modTask_sound | with_reducible apply State.copyHalt_sound

theorem State.landHeldPublish_sound (s : State) (e : Option Nat × HeldOp) (t : Nat) (h0 : s.Sound) : State.Sound (State.landHeldPublish s e t) := by
  unfold State.landHeldPublish
  repeat' first
    | with_reducible assumption | intro _
    | (extract_lets +onlyGivenNames u; refine cut_goal (P := State.Sound u.1) ?_ fun _ => ?_; (on_goal 2 => clear_value u); (on_goal 1 => (unfold u; clear u)))
    | with_reducible apply_assumption | with_reducible apply ite_sound0 | with_reducible apply State.holdPlace_sound
    | with_reducible apply State.landPublish_sound | with_reducible apply State.copyBackAll_sound
    | with_reducible apply State.sharingBack_sound | with_reducible apply State.hold_sound

theorem State.landHeldOp_sound (s : State) (e : Option Nat × HeldOp) (h0 : s.Sound) : State.Sound (State.landHeldOp s e) := by
  unfold State.landHeldOp
  repeat' first
    | with_reducible assumption | intro _ | with_reducible apply ite_sound0 | with_reducible apply State.landWrite_sound
    | with_reducible apply State.hold_sound | with_reducible apply State.landHeldForce_sound
    | with_reducible apply State.landHeldPublish_sound | simp only [State.sound_mk] | with_reducible apply State.Sound.out
    | dsimp only | split

theorem State.landHeld_sound (s : State) (h0 : s.Sound) : State.Sound (State.landHeld s) := by
  unfold State.landHeld
  repeat' first
    | with_reducible assumption | intro _ | (extract_lets +onlyGivenNames u; clear_value u)
    | with_reducible apply State.each_sound | with_reducible apply State.setImg_sound
    | with_reducible apply State.landHeldOp_sound

theorem State.copyInEnd_sound (s : State) (t i : Nat) (old : List (Nat × List Sys2Proof.Byte)) (h0 : s.Sound) : State.Sound (State.copyInEnd s t i old) := by
  unfold State.copyInEnd
  repeat' first
    | with_reducible assumption | intro _
    | (extract_lets +onlyGivenNames u; refine cut_goal (P := State.Sound u) ?_ fun _ => ?_; (on_goal 2 => clear_value u); (on_goal 1 => (unfold u; clear u)))
    | (extract_lets +onlyGivenNames u; refine cut_goal (P := State.Sound u.1) ?_ fun _ => ?_; (on_goal 2 => clear_value u); (on_goal 1 => (unfold u; clear u)))
    | (extract_lets +onlyGivenNames u; clear_value u) | with_reducible apply_assumption
    | with_reducible apply State.copyInSec_sound | with_reducible apply State.setTds_sound
    | with_reducible apply State.landHeld_sound | with_reducible apply State.pumpForces_sound
    | with_reducible apply State.copyHalt_sound | with_reducible apply State.openGates_sound
    | with_reducible apply State.modTask_sound | simp only [State.sound_mk] | with_reducible apply State.Sound.out | dsimp only
    | with_reducible refine sound_of_eq (by assumption) ?_ | split

theorem State.publishNow_sound (s : State) (t : Nat) (h0 : s.Sound) : State.Sound (State.publishNow s t) := by
  unfold State.publishNow
  repeat' first
    | with_reducible assumption | intro _
    | (extract_lets +onlyGivenNames u; refine cut_goal (P := State.Sound u) ?_ fun _ => ?_; (on_goal 2 => clear_value u); (on_goal 1 => (unfold u; clear u)))
    | (extract_lets +onlyGivenNames u; clear_value u) | with_reducible apply ite_sound0
    | with_reducible apply State.copyProgress_sound | with_reducible apply State.landPublish_sound
    | with_reducible apply State.modTask_sound | with_reducible apply State.countHold_sound
    | with_reducible apply State.hold_sound | with_reducible apply State.landHeld_sound

theorem State.tskCmd_sound (s : State) (t v : Nat) (h0 : s.Sound) : State.Sound (State.tskCmd s t v) := by
  unfold State.tskCmd
  repeat' first
    | with_reducible assumption | intro _
    | (extract_lets +onlyGivenNames u; refine cut_goal (P := State.Sound u) ?_ fun _ => ?_; (on_goal 2 => clear_value u); (on_goal 1 => (unfold u; clear u)))
    | (extract_lets +onlyGivenNames u; clear_value u) | with_reducible apply ite_sound0
    | with_reducible apply State.setTask_sound | with_reducible apply State.tideSettle_sound
    | with_reducible apply State.each_sound | with_reducible apply State.modCtx_sound
    | with_reducible apply State.modTask_sound | with_reducible apply State.resched_sound
    | with_reducible apply State.copyBackIf_sound | with_reducible apply State.openGates_sound
    | with_reducible apply State.abandonTask_sound | with_reducible apply State.release_sound | simp only [State.sound_mk]
    | with_reducible apply State.Sound.out | dsimp only | split

theorem State.bedStore_sound (s : State) (q : BedReq) (off : Nat) (b : List Sys2Proof.Byte) (h0 : s.Sound) : State.Sound (State.bedStore s q off b).1 := by
  unfold State.bedStore
  repeat' first
    | with_reducible assumption | intro _ | (extract_lets +onlyGivenNames u; clear_value u) | with_reducible apply ite_sound0
    | with_reducible apply State.setBdr_sound | with_reducible apply State.incOb_sound | with_reducible apply State.when_sound
    | with_reducible apply State.putBytes_sound | with_reducible apply State.wearLines_sound | simp only [State.sound_mk]
    | with_reducible apply State.Sound.out | dsimp only | split

theorem State.bedWrite_sound (s : State) (q : BedReq) (off : Nat) (b : List Sys2Proof.Byte) (h0 : s.Sound) : State.Sound (State.bedWrite s q off b).1 := by
  unfold State.bedWrite
  repeat' first
    | with_reducible assumption | intro _ | with_reducible apply ite_sound0 | with_reducible apply State.bedStore_sound
    | with_reducible apply foldl_sound1 | with_reducible refine sound_of_eq (by assumption) ?_ | split

theorem State.recoverJournal_sound (s : State) (h0 : s.Sound) : State.Sound (State.recoverJournal s) := by
  unfold State.recoverJournal
  repeat' first
    | with_reducible assumption | intro _ | (extract_lets +onlyGivenNames u; clear_value u) | with_reducible apply ite_sound0
    | with_reducible apply State.each_sound | with_reducible apply State.incOb_sound
    | with_reducible apply State.applySlot_sound | with_reducible apply State.setSlot_sound

theorem State.bdrTxn_sound (s : State) (n v : Nat) (h0 : s.Sound) : State.Sound (State.bdrTxn s n v) := by
  unfold State.bdrTxn
  repeat' first
    | with_reducible assumption | intro _ | with_reducible apply State.setBdr_sound | with_reducible apply State.journal_sound
    | with_reducible apply State.bedDrop_sound | simp only [State.sound_mk] | with_reducible apply State.Sound.out | dsimp only
    | split

theorem State.bdrTxnLost_sound (s : State) (h0 : s.Sound) : State.Sound (State.bdrTxnLost s) := by
  unfold State.bdrTxnLost
  repeat' first
    | with_reducible assumption | intro _ | with_reducible apply State.setBdr_sound

theorem State.setRegionPath_sound (s : State) (r : Nat) (x : Path) (h0 : s.Sound) : State.Sound (State.setRegionPath s r x) := h0.same rfl rfl

theorem State.unlockFail_sound (s : State) (v : Nat) (h0 : s.Sound) : State.Sound (State.unlockFail s v) := by
  unfold State.unlockFail
  repeat' first
    | with_reducible assumption | intro _
    | (extract_lets +onlyGivenNames u; refine cut_goal (P := State.Sound u) ?_ fun _ => ?_; (on_goal 2 => clear_value u); (on_goal 1 => (unfold u; clear u)))
    | (extract_lets +onlyGivenNames u; clear_value u) | with_reducible apply ite_sound0
    | with_reducible apply State.setRegionPath_sound | with_reducible apply State.incOb_sound
    | with_reducible apply State.when_sound | with_reducible apply State.raise_sound

theorem State.unlock_sound (s : State) (n v : Nat) (h0 : s.Sound) : State.Sound (State.unlock s n v) := h0.same rfl rfl

theorem State.lockRegions_sound (s : State) (n v : Nat) (h0 : s.Sound) : State.Sound (State.lockRegions s n v) := h0.same rfl rfl

theorem State.recRead_sound (s : State) (n : Nat) (h0 : s.Sound) : State.Sound (State.recRead s n).1 := by
  unfold State.recRead
  repeat' first
    | with_reducible assumption | intro _
    | (extract_lets +onlyGivenNames u; refine cut_goal (P := State.Sound u) ?_ fun _ => ?_; (on_goal 2 => clear_value u); (on_goal 1 => (unfold u; clear u)))
    | (extract_lets +onlyGivenNames u; clear_value u) | with_reducible apply_assumption | with_reducible apply ite_sound0
    | with_reducible apply State.finishApply_sound | with_reducible apply State.setSes_sound
    | with_reducible apply State.when_sound | with_reducible apply State.incOb_sound | with_reducible apply State.setBdr_sound
    | with_reducible apply State.raise_sound

theorem State.recWrite_sound (s : State) (n : Nat) (data : List Sys2Proof.Byte) (h0 : s.Sound) : State.Sound (State.recWrite s n data) := by
  unfold State.recWrite
  repeat' first
    | with_reducible assumption | intro _
    | (extract_lets +onlyGivenNames u; refine cut_goal (P := State.Sound u) ?_ fun _ => ?_; (on_goal 2 => clear_value u); (on_goal 1 => (unfold u; clear u)))
    | (extract_lets +onlyGivenNames u; clear_value u) | with_reducible apply ite_sound0
    | with_reducible apply State.finishApply_sound | with_reducible apply State.wear_sound
    | with_reducible apply State.wearLines_sound | with_reducible apply State.putBytes_sound
    | with_reducible apply State.setBdr_sound | with_reducible apply State.setSes_sound

theorem State.sramWrite_sound (s : State) (key : Nat) (b : List Sys2Proof.Byte) (h0 : s.Sound) : State.Sound (State.sramWrite s key b) := by
  unfold State.sramWrite
  repeat' first
    | with_reducible assumption | intro _ | with_reducible apply State.eccClear_sound
    | with_reducible apply State.putBytes_sound

theorem State.fabricCorr_sound (s : State) (task0 : Bool) (addr n : Nat) (h0 : s.Sound) : State.Sound (State.fabricCorr s task0 addr n) := by
  unfold State.fabricCorr
  repeat' first
    | with_reducible assumption | intro _ | with_reducible apply State.strandCorr_sound | simp only [State.sound_mk]
    | with_reducible apply State.Sound.out | dsimp only | split

theorem State.headWrite_sound (s : State) (off : Nat) (b : List Sys2Proof.Byte) (h0 : s.Sound) : State.Sound (State.headWrite s off b) := by
  unfold State.headWrite
  repeat' first
    | with_reducible assumption | intro _ | with_reducible apply ite_sound0 | with_reducible apply State.eccClear_sound
    | with_reducible apply State.imgWrite_sound | with_reducible apply State.sramWrite_sound

theorem State.dataWrite_sound (s : State) (n off : Nat) (b : List Sys2Proof.Byte) (writer : Option Nat) (h0 : s.Sound) : State.Sound (State.dataWrite s n off b writer) := by
  unfold State.dataWrite
  repeat' first
    | with_reducible assumption | intro _ | with_reducible apply State.invalidate_sound
    | with_reducible apply State.sramWrite_sound

theorem State.bankWrite_sound (s : State) (n off : Nat) (b : List Sys2Proof.Byte) (h0 : s.Sound) : State.Sound (State.bankWrite s n off b) := by
  unfold State.bankWrite
  repeat' first
    | with_reducible assumption | intro _
    | (extract_lets +onlyGivenNames u; refine cut_goal (P := State.Sound u) ?_ fun _ => ?_; (on_goal 2 => clear_value u); (on_goal 1 => (unfold u; clear u)))
    | (extract_lets +onlyGivenNames u; clear_value u) | with_reducible apply ite_sound0
    | with_reducible apply State.sramWrite_sound | simp only [State.sound_mk] | with_reducible apply State.Sound.out

theorem State.fabricWrite_sound (s : State) (q : BedReq) (task0 : Bool) (writer : Option Nat) (addr : Nat) (b : List Sys2Proof.Byte) (h0 : s.Sound) : State.Sound (State.fabricWrite s q task0 writer addr b).1 := by
  unfold State.fabricWrite
  repeat' first
    | with_reducible assumption | intro _ | with_reducible apply_assumption | with_reducible apply ite_sound0
    | with_reducible apply State.headWrite_sound | with_reducible apply State.bedWrite_sound
    | with_reducible apply State.finishApply_sound | with_reducible apply State.dataWrite_sound
    | with_reducible apply State.bankWrite_sound | with_reducible apply foldl_sound1 | simp only [State.sound_mk]
    | with_reducible apply State.Sound.out | dsimp only | with_reducible refine sound_of_eq (by assumption) ?_ | split

theorem State.bedMove_sound (y0 : Nat) (y1 : State) (y2 : Nat) (y3 : List Sys2Proof.Byte) (h0 : y1.Sound) : State.Sound (State.bedMove y0 y1 y2 y3).1 := by
  induction y0 generalizing y1 y2 y3 with
  | zero => exact h0
  | succ f ih =>
    unfold State.bedMove
    split
    · exact h0
    · extract_lets n
      clear_value n
      have hb := fun m => State.bedTxn_sound y1 m h0
      split
      · rename_i heq
        exact ih _ _ _ (sound_of_eq heq (hb _))
      · exact hb _

theorem State.moveWrite_sound (s : State) (addr : Nat) (b : List Sys2Proof.Byte) (h0 : s.Sound) : State.Sound (State.moveWrite s addr b).1 := by
  unfold State.moveWrite
  split
  · exact h0
  · split
    · dsimp only
      with_reducible exact State.headWrite_sound _ _ _ h0
    · split
      · with_reducible exact State.bedMove_sound _ _ _ _ h0
      · dsimp only
        with_reducible exact State.dataWrite_sound _ _ _ _ _ h0

theorem State.mapMove_sound (s : State) (im : List Sys2Proof.Byte) (e : MapEntry) (h0 : s.Sound) : State.Sound (State.mapMove s im e).1 := by
  unfold State.mapMove
  extract_lets os ns put init
  have hp : ∀ u l, State.Sound u → (put u l).1.Sound := fun u l hu => State.putBytes_sound _ _ hu
  clear_value put init ns os
  split
  · exact hp _ _ h0
  · exact hp _ _ h0
  · split
    · with_reducible exact State.moveWrite_sound _ _ _ h0
    · exact h0
  · split
    · with_reducible exact State.moveWrite_sound _ _ _ h0
    · exact h0
  · exact h0

theorem State.relocOne_sound (s : State) (e : Nat × Nat) (h0 : s.Sound) : State.Sound (State.relocOne s e).1 := by
  unfold State.relocOne
  repeat' first
    | with_reducible assumption | intro _ | with_reducible apply_assumption | with_reducible apply State.moveWrite_sound
    | with_reducible apply foldl_sound1 | simp only [State.sound_mk] | with_reducible apply State.Sound.out | dsimp only
    | with_reducible refine sound_of_eq (by assumption) ?_ | split

theorem State.edgeInit_sound (s : State) (e : EdgeInit) (h0 : s.Sound) : State.Sound (State.edgeInit s e) := by
  unfold State.edgeInit
  repeat' first
    | with_reducible assumption | intro _
    | (extract_lets +onlyGivenNames u; refine cut_goal (P := State.Sound u) ?_ fun _ => ?_; (on_goal 2 => clear_value u); (on_goal 1 => (unfold u; clear u)))
    | (extract_lets +onlyGivenNames u; clear_value u) | with_reducible apply ite_sound0
    | with_reducible apply State.finishApply_sound | with_reducible apply State.moveWrite_sound
    | with_reducible apply State.foldl_sound | simp only [State.sound_mk] | with_reducible apply State.Sound.out | dsimp only
    | with_reducible refine sound_of_eq (by assumption) ?_ | split

theorem State.applyTables_sound (s : State) (im : List Sys2Proof.Byte) (h0 : s.Sound) : State.Sound (State.applyTables s im) := by
  unfold State.applyTables
  repeat' first
    | with_reducible assumption | intro _
    | (extract_lets +onlyGivenNames u; refine cut_goal (P := State.Sound u) ?_ fun _ => ?_; (on_goal 2 => clear_value u); (on_goal 1 => (unfold u; clear u)))
    | (extract_lets +onlyGivenNames u; clear_value u) | with_reducible apply ite_sound0 | with_reducible apply State.each_sound
    | with_reducible apply State.setOb_sound | with_reducible apply State.setDom_sound
    | with_reducible apply State.setOwner_sound | simp only [State.sound_mk] | with_reducible apply State.Sound.out

theorem State.keepTables_sound (s : State) (h0 : s.Sound) : State.Sound (State.keepTables s) := h0.same rfl rfl

theorem State.restoreTables_sound (s : State) (h0 : s.Sound) : State.Sound (State.restoreTables s) := by
  unfold State.restoreTables
  repeat' first
    | with_reducible assumption | intro _
    | (extract_lets +onlyGivenNames u; refine cut_goal (P := State.Sound u) ?_ fun _ => ?_; (on_goal 2 => clear_value u); (on_goal 1 => (unfold u; clear u)))
    | (extract_lets +onlyGivenNames u; clear_value u) | with_reducible apply State.each_sound
    | with_reducible apply State.setOb_sound | with_reducible apply State.setDom_sound | simp only [State.sound_mk]
    | with_reducible apply State.Sound.out

theorem State.setFio_sound (s : State) (f : Fio → Fio) (h0 : s.Sound) : State.Sound (State.setFio s f) := h0.same rfl rfl

theorem State.fioSend_sound (s : State) (i : Nat) (h0 : s.Sound) : State.Sound (State.fioSend s i) := by
  unfold State.fioSend
  repeat' first
    | with_reducible assumption | intro _ | with_reducible apply ite_sound0 | with_reducible apply State.setFio_sound

theorem State.fioCommand_sound (s : State) (v : Nat) (h0 : s.Sound) : State.Sound (State.fioCommand s v) := h0.same rfl rfl

theorem State.refreshOff_sound (s : State) (v : Nat) (h0 : s.Sound) : State.Sound (State.refreshOff s v) := by
  unfold State.refreshOff
  repeat' first
    | with_reducible assumption | intro _ | (extract_lets +onlyGivenNames u; clear_value u) | with_reducible apply ite_sound0
    | with_reducible apply State.setFio_sound

theorem State.fieldRefresh_sound (s : State) (h0 : s.Sound) : State.Sound (State.fieldRefresh s) := by
  unfold State.fieldRefresh
  repeat' first
    | with_reducible assumption | intro _
    | (extract_lets +onlyGivenNames u; refine cut_goal (P := State.Sound u) ?_ fun _ => ?_; (on_goal 2 => clear_value u); (on_goal 1 => (unfold u; clear u)))
    | (extract_lets +onlyGivenNames u; refine cut_goal (P := ∀ s, State.Sound s → State.Sound (u s)) ?_ fun _ => ?_; (on_goal 2 => clear_value u); (on_goal 1 => (unfold u; clear u)))
    | (extract_lets +onlyGivenNames u; clear_value u) | with_reducible apply_assumption | with_reducible apply ite_sound0
    | with_reducible apply State.setFio_sound | with_reducible apply State.fioCommand_sound
    | with_reducible apply State.refreshOff_sound | simp only [State.sound_mk] | with_reducible apply State.Sound.out
    | dsimp only | split

theorem State.fieldPark_sound (s : State) (h0 : s.Sound) : State.Sound (State.fieldPark s) := by
  unfold State.fieldPark
  repeat' first
    | with_reducible assumption | intro _
    | (extract_lets +onlyGivenNames u; refine cut_goal (P := State.Sound u) ?_ fun _ => ?_; (on_goal 2 => clear_value u); (on_goal 1 => (unfold u; clear u)))
    | with_reducible apply ite_sound0 | with_reducible apply State.setFio_sound | with_reducible apply State.fioCommand_sound

theorem State.fieldRecover_sound (s : State) (h0 : s.Sound) : State.Sound (State.fieldRecover s) := by
  unfold State.fieldRecover
  repeat' first
    | with_reducible assumption | intro _
    | (extract_lets +onlyGivenNames u; refine cut_goal (P := State.Sound u) ?_ fun _ => ?_; (on_goal 2 => clear_value u); (on_goal 1 => (unfold u; clear u)))
    | with_reducible apply ite_sound0 | with_reducible apply State.setFio_sound

theorem State.takeReport_sound (s : State) (h0 : s.Sound) : State.Sound (State.takeReport s) := by
  unfold State.takeReport
  repeat' first
    | with_reducible assumption | intro _
    | (extract_lets +onlyGivenNames u; refine cut_goal (P := State.Sound u) ?_ fun _ => ?_; (on_goal 2 => clear_value u); (on_goal 1 => (unfold u; clear u)))
    | (extract_lets +onlyGivenNames u; clear_value u) | with_reducible apply State.setFio_sound
    | with_reducible apply State.when_sound | with_reducible apply State.raiseSt_sound | with_reducible apply State.each_sound
    | with_reducible apply State.raise_sound | with_reducible apply State.incOb_sound

theorem State.fieldSafe_sound (s : State) (h0 : s.Sound) : State.Sound (State.fieldSafe s) := by
  unfold State.fieldSafe
  repeat' first
    | with_reducible assumption | intro _ | (extract_lets +onlyGivenNames u; clear_value u)
    | with_reducible apply State.setFio_sound | with_reducible apply State.fioCommand_sound

theorem State.sendPark_sound (s : State) (h0 : s.Sound) : State.Sound (State.sendPark s) := by
  unfold State.sendPark
  repeat' first
    | with_reducible assumption | intro _ | with_reducible apply ite_sound0 | with_reducible apply State.setFio_sound

theorem State.fioPark_sound (s : State) (h0 : s.Sound) : State.Sound (State.fioPark s) := by
  unfold State.fioPark
  repeat' first
    | with_reducible assumption | intro _ | with_reducible apply ite_sound0 | with_reducible apply State.setFio_sound
    | with_reducible apply State.sendPark_sound

theorem State.fioRecover_sound (s : State) (h0 : s.Sound) : State.Sound (State.fioRecover s) := h0.same rfl rfl

theorem State.fioClearOvl_sound (s : State) (h0 : s.Sound) : State.Sound (State.fioClearOvl s) := by
  unfold State.fioClearOvl
  repeat' first
    | with_reducible assumption | intro _ | with_reducible apply State.fioSend_sound

theorem State.fioRefresh_sound (s : State) (grant : Bool) (h0 : s.Sound) : State.Sound (State.fioRefresh s grant) := by
  unfold State.fioRefresh
  repeat' first
    | with_reducible assumption | intro _ | with_reducible apply ite_sound0 | with_reducible apply State.setFio_sound

theorem State.outLineRead_sound (s : State) (k : Nat) (h0 : s.Sound) : State.Sound (State.outLineRead s k) := by
  unfold State.outLineRead
  repeat' first
    | with_reducible assumption | intro _ | with_reducible apply ite_sound0 | with_reducible apply State.setFio_sound
    | with_reducible apply State.chanHalt_sound | with_reducible apply State.seqStop_sound
    | with_reducible apply State.seqBegin_sound | with_reducible apply State.seqLine_sound | simp only [State.sound_mk]
    | with_reducible apply State.Sound.out | dsimp only | split

theorem State.ovlOff_sound (s : State) (n cause : Nat) (h0 : s.Sound) : State.Sound (State.ovlOff s n cause) := by
  unfold State.ovlOff
  repeat' first
    | with_reducible assumption | intro _ | (extract_lets +onlyGivenNames u; clear_value u) | with_reducible apply ite_sound0
    | with_reducible apply State.setFio_sound

theorem State.ovlBack_sound (s : State) (n : Nat) (h0 : s.Sound) : State.Sound (State.ovlBack s n) := h0.same rfl rfl

theorem State.judge_sound (s : State) (noTest quiet : Bool) (n : Nat) (h0 : s.Sound) : State.Sound (State.judge s noTest quiet n) := by
  unfold State.judge
  repeat' first
    | with_reducible assumption | intro _
    | (extract_lets +onlyGivenNames u; refine cut_goal (P := State.Sound u) ?_ fun _ => ?_; (on_goal 2 => clear_value u); (on_goal 1 => (unfold u; clear u)))
    | (extract_lets +onlyGivenNames u; clear_value u) | with_reducible apply ite_sound0
    | with_reducible apply State.setFio_sound | with_reducible apply State.when_sound | with_reducible apply State.raise_sound
    | with_reducible apply State.incOb_sound

theorem State.couplerCheck_sound (s : State) (out : Bool) (n : Nat) (bad : Bool) (h0 : s.Sound) : State.Sound (State.couplerCheck s out n bad) := by
  unfold State.couplerCheck
  repeat' first
    | with_reducible assumption | intro _
    | (extract_lets +onlyGivenNames u; refine cut_goal (P := State.Sound u) ?_ fun _ => ?_; (on_goal 2 => clear_value u); (on_goal 1 => (unfold u; clear u)))
    | (extract_lets +onlyGivenNames u; clear_value u) | with_reducible apply ite_sound0
    | with_reducible apply State.setFio_sound | with_reducible apply State.when_sound | with_reducible apply State.raise_sound
    | with_reducible apply State.incOb_sound

theorem State.limitSince_sound (s : State) (r : Sys2Proof.C1) (h0 : s.Sound) : State.Sound (State.limitSince s r) := by
  unfold State.limitSince
  repeat' first
    | with_reducible assumption | intro _ | with_reducible apply ite_sound0 | with_reducible apply State.setFio_sound

theorem State.c1_sound (s : State) (r : Sys2Proof.C1) (noTest quiet : Bool) (h0 : s.Sound) : State.Sound (State.c1 s r noTest quiet) := by
  unfold State.c1
  repeat' first
    | with_reducible assumption | intro _
    | (extract_lets +onlyGivenNames u; refine cut_goal (P := State.Sound u) ?_ fun _ => ?_; (on_goal 2 => clear_value u); (on_goal 1 => (unfold u; clear u)))
    | with_reducible apply State.when_sound | with_reducible apply State.setFio_sound | with_reducible apply State.each_sound
    | with_reducible apply State.couplerCheck_sound | with_reducible apply State.takeReport_sound
    | with_reducible apply State.judge_sound

theorem State.latchLine_sound (s : State) (h0 : s.Sound) : State.Sound (State.latchLine s) := h0.same rfl rfl

theorem State.putLine_sound (s : State) (b : List Sys2Proof.Byte) (h0 : s.Sound) : State.Sound (State.putLine s b) := by
  unfold State.putLine
  repeat' first
    | with_reducible assumption | intro _
    | (extract_lets +onlyGivenNames u; refine cut_goal (P := State.Sound u) ?_ fun _ => ?_; (on_goal 2 => clear_value u); (on_goal 1 => (unfold u; clear u)))
    | (extract_lets +onlyGivenNames u; clear_value u) | with_reducible apply ite_sound0
    | with_reducible apply State.putBytes_sound | with_reducible apply State.setImg_sound

theorem State.logEdge_sound (s : State) (n : Nat) (rising : Bool) (stamp : Nat) (h0 : s.Sound) : State.Sound (State.logEdge s n rising stamp) := by
  unfold State.logEdge
  repeat' first
    | with_reducible assumption | intro _
    | (extract_lets +onlyGivenNames u; refine cut_goal (P := State.Sound u) ?_ fun _ => ?_; (on_goal 2 => clear_value u); (on_goal 1 => (unfold u; clear u)))
    | with_reducible apply ite_sound0 | with_reducible apply State.setOb_sound | with_reducible apply State.incOb_sound
    | with_reducible apply State.setFio_sound

theorem State.runsAnew_sound (s : State) (l : List Nat) (h0 : s.Sound) : State.Sound (State.runsAnew s l) := by
  unfold State.runsAnew
  repeat' first
    | with_reducible assumption | intro _ | with_reducible apply State.setFio_sound

theorem State.supplyChange_sound (s : State) (grp : Nat) (present : Bool) (h0 : s.Sound) : State.Sound (State.supplyChange s grp present) := by
  unfold State.supplyChange
  repeat' first
    | with_reducible assumption | intro _
    | (extract_lets +onlyGivenNames u; refine cut_goal (P := State.Sound u) ?_ fun _ => ?_; (on_goal 2 => clear_value u); (on_goal 1 => (unfold u; clear u)))
    | (extract_lets +onlyGivenNames u; clear_value u) | with_reducible apply ite_sound0
    | with_reducible apply State.setFio_sound | with_reducible apply State.when_sound
    | with_reducible apply State.takeReport_sound | with_reducible apply State.runsAnew_sound

theorem State.fieldConfig_sound (s : State) (i v : Nat) (h0 : s.Sound) : State.Sound (State.fieldConfig s i v) := by
  unfold State.fieldConfig
  repeat' first
    | with_reducible assumption | intro _ | with_reducible apply ite_sound0 | with_reducible apply State.setFio_sound

end Sys2Proof.Machine
end

