-- ==== Sys2Proof/Laws/SoundNet.lean ====
section
/-! SUPPORT. Each operation of network time, the calendar, the field network and the message buses keeps memory canonical, and the
Lighthouse from driving VALID to both partners. -/

namespace Sys2Proof.Machine

set_option Elab.async false

theorem State.reclaim_sound (s : State) (h0 : s.Sound) : State.Sound (State.reclaim s) := h0.same rfl rfl

theorem State.moorSend_sound (s : State) (m : MoorMsg) (h0 : s.Sound) : State.Sound (State.moorSend s m) := by
  unfold State.moorSend
  repeat' first
    | with_reducible assumption | intro _ | with_reducible apply ite_sound0 | with_reducible refine State.setRed_sound _ ?_ rfl

theorem State.dictate_sound (s : State) (d : Sys2Proof.Dict) (h0 : s.Sound) : State.Sound (State.dictate s d) := by
  unfold State.dictate
  repeat' first
    | with_reducible assumption | intro _ | with_reducible apply ite_sound0 | with_reducible refine State.setRed_sound _ ?_ rfl

theorem State.keepOwn_sound (s : State) (d : Sys2Proof.Dict) (h0 : s.Sound) : State.Sound (State.keepOwn s d) := h0.same rfl rfl

theorem State.offsetRefused_sound (s : State) (v : Nat) (h0 : s.Sound) : State.Sound (State.offsetRefused s v) := h0.same rfl rfl

theorem State.ptpQueue_sound (s : State) (p len : Nat) (f : List Sys2Proof.Byte) (h0 : s.Sound) : State.Sound (State.ptpQueue s p len f) := by
  unfold State.ptpQueue
  repeat' first
    | with_reducible assumption | intro _
    | (extract_lets +onlyGivenNames u; refine cut_goal (P := State.Sound u) ?_ fun _ => ?_; (on_goal 2 => clear_value u); (on_goal 1 => (unfold u; clear u)))
    | (extract_lets +onlyGivenNames u; clear_value u) | with_reducible apply ite_sound0 | with_reducible apply State.when_sound
    | with_reducible apply State.setOb_sound | with_reducible apply State.incOb_sound | with_reducible apply State.setNtm_sound

theorem State.stampQueue_sound (s : State) (p tag t : Nat) (h0 : s.Sound) : State.Sound (State.stampQueue s p tag t) := by
  unfold State.stampQueue
  repeat' first
    | with_reducible assumption | intro _ | with_reducible apply ite_sound0 | with_reducible apply State.incOb_sound
    | with_reducible apply State.setNtm_sound

theorem State.gclCfgApply_sound (s : State) (p v : Nat) (h0 : s.Sound) : State.Sound (State.gclCfgApply s p v) := by
  unfold State.gclCfgApply
  repeat' first
    | with_reducible assumption | intro _
    | (extract_lets +onlyGivenNames u; refine cut_goal (P := State.Sound u) ?_ fun _ => ?_; (on_goal 2 => clear_value u); (on_goal 1 => (unfold u; clear u)))
    | (extract_lets +onlyGivenNames u; clear_value u) | with_reducible apply ite_sound0
    | with_reducible apply State.setOb_sound | with_reducible apply State.setGate_sound
    | with_reducible apply State.gateNow_sound

theorem State.gclSwap_sound (s : State) (p : Nat) (h0 : s.Sound) : State.Sound (State.gclSwap s p) := h0.same rfl rfl

theorem State.gateChange_sound (s : State) (p : Nat) (h0 : s.Sound) : State.Sound (State.gateChange s p) := by
  unfold State.gateChange
  repeat' first
    | with_reducible assumption | intro _
    | (extract_lets +onlyGivenNames u; refine cut_goal (P := State.Sound u) ?_ fun _ => ?_; (on_goal 2 => clear_value u); (on_goal 1 => (unfold u; clear u)))
    | (extract_lets +onlyGivenNames u; clear_value u) | with_reducible apply ite_sound0
    | with_reducible apply State.reach_sound | with_reducible apply State.when_sound | with_reducible apply State.gclSwap_sound
    | with_reducible apply State.setGate_sound

theorem State.offsetApply_sound (s : State) (v : Nat) (h0 : s.Sound) : State.Sound (State.offsetApply s v) := by
  unfold State.offsetApply
  repeat' first
    | with_reducible assumption | intro _ | with_reducible apply ite_sound0 | with_reducible apply State.setNtm_sound

theorem State.ntmSetApply_sound (s : State) (b : List Sys2Proof.Byte) (h0 : s.Sound) : State.Sound (State.ntmSetApply s b) := by
  unfold State.ntmSetApply
  repeat' first
    | with_reducible assumption | intro _ | (extract_lets +onlyGivenNames u; clear_value u)
    | with_reducible apply State.duesAnew_sound | with_reducible apply State.gatesNow_sound
    | with_reducible apply State.setNtm_sound

theorem State.setCal_sound (s : State) (f : Cal → Cal) (h0 : s.Sound) : State.Sound (State.setCal s f) := h0.same rfl rfl

theorem State.setRsv_sound (s : State) (f : Rsv → Rsv) (h0 : s.Sound) : State.Sound (State.setRsv s f) := h0.same rfl rfl

theorem State.alarmFire_sound (s : State) (n : Nat) (h0 : s.Sound) : State.Sound (State.alarmFire s n) := by
  unfold State.alarmFire
  repeat' first
    | with_reducible assumption | intro _
    | (extract_lets +onlyGivenNames u; refine cut_goal (P := State.Sound u) ?_ fun _ => ?_; (on_goal 2 => clear_value u); (on_goal 1 => (unfold u; clear u)))
    | (extract_lets +onlyGivenNames u; clear_value u) | with_reducible apply State.setOb_sound
    | with_reducible apply State.when_sound | with_reducible apply State.setCal_sound | with_reducible apply State.fire_sound

theorem State.rsvReadId_sound (s : State) (adopt : Bool) (h0 : s.Sound) : State.Sound (State.rsvReadId s adopt) := by
  unfold State.rsvReadId
  repeat' first
    | with_reducible assumption | intro _ | (extract_lets +onlyGivenNames u; clear_value u) | with_reducible apply ite_sound0
    | with_reducible apply State.setRsv_sound | with_reducible apply State.raise_sound

theorem State.rsvEol_sound (s : State) (h0 : s.Sound) : State.Sound (State.rsvEol s) := by
  unfold State.rsvEol
  repeat' first
    | with_reducible assumption | intro _ | with_reducible apply ite_sound0 | with_reducible apply State.raise_sound
    | with_reducible apply State.setRsv_sound

theorem State.rsvTestStart_sound (s : State) (h0 : s.Sound) : State.Sound (State.rsvTestStart s) := by
  unfold State.rsvTestStart
  repeat' first
    | with_reducible assumption | intro _ | with_reducible apply State.incOb_sound | with_reducible apply State.setRsv_sound
    | with_reducible apply State.rsvReadId_sound

theorem State.rsvAbort_sound (s : State) (h0 : s.Sound) : State.Sound (State.rsvAbort s) := by
  unfold State.rsvAbort
  repeat' first
    | with_reducible assumption | intro _ | (extract_lets +onlyGivenNames u; clear_value u) | with_reducible apply ite_sound0
    | with_reducible apply State.incOb_sound | with_reducible apply State.setRsv_sound

theorem State.rsvTestDone_sound (s : State) (dv1 dv2 : Nat) (h0 : s.Sound) : State.Sound (State.rsvTestDone s dv1 dv2) := by
  unfold State.rsvTestDone
  repeat' first
    | with_reducible assumption | intro _
    | (extract_lets +onlyGivenNames u; refine cut_goal (P := State.Sound u) ?_ fun _ => ?_; (on_goal 2 => clear_value u); (on_goal 1 => (unfold u; clear u)))
    | (extract_lets +onlyGivenNames u; clear_value u) | with_reducible apply ite_sound0
    | with_reducible apply State.setRsv_sound | with_reducible apply State.when_sound | with_reducible apply State.setOb_sound
    | with_reducible apply State.rsvEol_sound

theorem State.stressMinute_sound (s : State) (tempC volt : Int) (h0 : s.Sound) : State.Sound (State.stressMinute s tempC volt) := by
  unfold State.stressMinute
  repeat' first
    | with_reducible assumption | intro _
    | (extract_lets +onlyGivenNames u; refine cut_goal (P := State.Sound u) ?_ fun _ => ?_; (on_goal 2 => clear_value u); (on_goal 1 => (unfold u; clear u)))
    | with_reducible apply ite_sound0 | with_reducible apply State.setOb_sound | with_reducible apply State.rsvEol_sound
    | with_reducible apply State.setRsv_sound

theorem State.stressDaily_sound (s : State) (h0 : s.Sound) : State.Sound (State.stressDaily s) := by
  unfold State.stressDaily
  repeat' first
    | with_reducible assumption | intro _ | with_reducible apply ite_sound0 | with_reducible apply State.setRsv_sound

theorem State.bkObjects_sound (s : State) (h0 : s.Sound) : State.Sound (State.bkObjects s) := by
  unfold State.bkObjects
  repeat' first
    | with_reducible assumption | intro _
    | (extract_lets +onlyGivenNames u; refine cut_goal (P := State.Sound u) ?_ fun _ => ?_; (on_goal 2 => clear_value u); (on_goal 1 => (unfold u; clear u)))
    | (extract_lets +onlyGivenNames u; clear_value u) | with_reducible apply State.each_sound
    | with_reducible apply State.setSes_sound | simp only [State.sound_mk] | with_reducible apply State.Sound.out

theorem State.bkStart_sound (s : State) (ident : List Sys2Proof.Byte) (h0 : s.Sound) : State.Sound (State.bkStart s ident) := by
  unfold State.bkStart
  repeat' first
    | with_reducible assumption | intro _
    | (extract_lets +onlyGivenNames u; refine cut_goal (P := State.Sound u) ?_ fun _ => ?_; (on_goal 2 => clear_value u); (on_goal 1 => (unfold u; clear u)))
    | (extract_lets +onlyGivenNames u; clear_value u) | with_reducible apply State.bkObjects_sound
    | with_reducible apply State.rsvReadId_sound | simp only [State.sound_mk] | with_reducible apply State.Sound.out

theorem State.setHnw_sound (s : State) (f : Hnw → Hnw) (h0 : s.Sound) : State.Sound (State.setHnw s f) := h0.same rfl rfl

theorem State.modStn_sound (s : State) (n : Nat) (f : Sta → Sta) (h0 : s.Sound) : State.Sound (State.modStn s n f) := h0.same rfl rfl

theorem State.fioOverlap_sound (s : State) (h0 : s.Sound) : State.Sound (State.fioOverlap s) := by
  unfold State.fioOverlap
  repeat' first
    | with_reducible assumption | intro _
    | (extract_lets +onlyGivenNames u; refine cut_goal (P := State.Sound u) ?_ fun _ => ?_; (on_goal 2 => clear_value u); (on_goal 1 => (unfold u; clear u)))
    | (extract_lets +onlyGivenNames u; clear_value u) | with_reducible apply ite_sound0
    | with_reducible apply State.setFio_sound | with_reducible apply State.when_sound | with_reducible apply State.raise_sound

theorem State.setQueue_sound (s : State) (p : Nat) (l : List TxF) (h0 : s.Sound) : State.Sound (State.setQueue s p l) := h0.same rfl rfl

theorem State.enqueue_sound (s : State) (p : Nat) (f : TxF) (h0 : s.Sound) : State.Sound (State.enqueue s p f) := h0.same rfl rfl

theorem State.takeSeq_sound (s : State) (k : Nat) (h0 : s.Sound) : State.Sound (State.takeSeq s k).1 := h0.same rfl rfl

theorem State.numberFrame_sound (s : State) (p : Nat) (f : TxF) (h0 : s.Sound) : State.Sound (State.numberFrame s p f).1 := by
  unfold State.numberFrame
  repeat' first
    | with_reducible assumption | intro _ | with_reducible apply_assumption | with_reducible apply ite_sound0
    | with_reducible apply State.takeSeq_sound | with_reducible apply State.each_sound
    | with_reducible apply State.setQueue_sound | with_reducible apply foldl_sound1 | simp only [State.sound_mk]
    | with_reducible apply State.Sound.out | dsimp only | with_reducible refine sound_of_eq (by assumption) ?_ | split

theorem State.sendTrainFrame_sound (s : State) (trunk : Nat) (f : TxF) (h0 : s.Sound) : State.Sound (State.sendTrainFrame s trunk f) := by
  unfold State.sendTrainFrame
  repeat' first
    | with_reducible assumption | intro _ | (extract_lets +onlyGivenNames u; clear_value u)
    | with_reducible apply State.each_sound | with_reducible apply State.enqueue_sound

theorem State.sendFrames_sound (s : State) (trunk : Nat) (kind : FKind) (len : Nat → Nat) (launch point : Nat) (frames : List (List Nat)) (from_ : Nat) (h0 : s.Sound) : State.Sound (State.sendFrames s trunk kind len launch point frames from_) := by
  unfold State.sendFrames
  repeat' first
    | with_reducible assumption | intro _ | (extract_lets +onlyGivenNames u; clear_value u)
    | with_reducible apply State.each_sound | with_reducible apply State.sendTrainFrame_sound

theorem State.ebbTrains_sound (s : State) (h0 : s.Sound) : State.Sound (State.ebbTrains s) := by
  unfold State.ebbTrains
  repeat' first
    | with_reducible assumption | intro _ | (extract_lets +onlyGivenNames u; clear_value u)
    | with_reducible apply State.each_sound | with_reducible apply State.sendFrames_sound

theorem State.sendSchedule_sound (s : State) (p : Nat) (behind : Option Nat) (h0 : s.Sound) : State.Sound (State.sendSchedule s p behind) := by
  unfold State.sendSchedule
  repeat' first
    | with_reducible assumption | intro _ | (extract_lets +onlyGivenNames u; clear_value u) | with_reducible apply ite_sound0
    | with_reducible apply State.sendTrainFrame_sound

theorem State.schedules_sound (s : State) (h0 : s.Sound) : State.Sound (State.schedules s) := by
  unfold State.schedules
  repeat' first
    | with_reducible assumption | intro _ | with_reducible apply ite_sound0 | with_reducible apply State.each_sound
    | with_reducible apply State.sendSchedule_sound

theorem State.slackTrains_sound (s : State) (h0 : s.Sound) : State.Sound (State.slackTrains s) := by
  unfold State.slackTrains
  repeat' first
    | with_reducible assumption | intro _
    | (extract_lets +onlyGivenNames u; refine cut_goal (P := State.Sound u) ?_ fun _ => ?_; (on_goal 2 => clear_value u); (on_goal 1 => (unfold u; clear u)))
    | (extract_lets +onlyGivenNames u; clear_value u) | with_reducible apply ite_sound0
    | with_reducible apply State.setHnw_sound | with_reducible apply State.each_sound
    | with_reducible apply State.sendSchedule_sound | with_reducible apply State.sendFrames_sound

theorem State.takeover_sound (s : State) (done : List Nat) (h0 : s.Sound) : State.Sound (State.takeover s done).1 := by
  unfold State.takeover
  repeat' first
    | with_reducible assumption | intro _
    | (extract_lets +onlyGivenNames u; refine cut_goal (P := State.Sound u) ?_ fun _ => ?_; (on_goal 2 => clear_value u); (on_goal 1 => (unfold u; clear u)))
    | (extract_lets +onlyGivenNames u; clear_value u) | with_reducible apply_assumption | with_reducible apply ite_sound0
    | with_reducible apply State.sendSchedule_sound | with_reducible apply State.sendFrames_sound
    | with_reducible apply State.foldl_sound | with_reducible apply foldl_sound1 | split

theorem State.gateDropOne_sound (s : State) (p cls : Nat) (h0 : s.Sound) : State.Sound (State.gateDropOne s p cls) := by
  unfold State.gateDropOne
  repeat' first
    | with_reducible assumption | intro _ | with_reducible apply State.incOb_sound | with_reducible apply State.setQueue_sound
    | simp only [State.sound_mk] | with_reducible apply State.Sound.out | dsimp only | split

theorem State.sendFrame_sound (s : State) (p : Nat) (f : TxF) (h0 : s.Sound) : State.Sound (State.sendFrame s p f) := by
  unfold State.sendFrame
  repeat' first
    | with_reducible assumption | intro _
    | (extract_lets +onlyGivenNames u; refine cut_goal (P := State.Sound u) ?_ fun _ => ?_; (on_goal 2 => clear_value u); (on_goal 1 => (unfold u; clear u)))
    | (extract_lets +onlyGivenNames u; refine cut_goal (P := State.Sound u.1) ?_ fun _ => ?_; (on_goal 2 => clear_value u); (on_goal 1 => (unfold u; clear u)))
    | (extract_lets +onlyGivenNames u; clear_value u) | with_reducible apply_assumption | with_reducible apply ite_sound0
    | with_reducible apply State.copyProgress_sound | with_reducible apply State.setQueue_sound
    | with_reducible apply State.incOb_sound | with_reducible apply State.numberFrame_sound
    | with_reducible apply State.setHnw_sound | with_reducible apply State.bwPast_sound | with_reducible apply State.when_sound
    | with_reducible apply State.draw_sound | with_reducible apply State.stampQueue_sound | simp only [State.sound_mk]
    | with_reducible apply State.Sound.out

theorem State.dropMissed_sound (s : State) (p : Nat) (h0 : s.Sound) : State.Sound (State.dropMissed s p) := by
  unfold State.dropMissed
  repeat' first
    | with_reducible assumption | intro _ | with_reducible apply ite_sound0 | with_reducible apply State.each_sound
    | with_reducible apply State.incOb_sound | with_reducible apply State.setQueue_sound | simp only [State.sound_mk]
    | with_reducible apply State.Sound.out | dsimp only | split

theorem State.launchReady_sound (s : State) (p : Nat) (h0 : s.Sound) : State.Sound (State.launchReady s p) := by
  unfold State.launchReady
  repeat' first
    | with_reducible assumption | intro _
    | (extract_lets +onlyGivenNames u; refine cut_goal (P := State.Sound u) ?_ fun _ => ?_; (on_goal 2 => clear_value u); (on_goal 1 => (unfold u; clear u)))
    | with_reducible apply State.dropMissed_sound | with_reducible apply State.sendFrame_sound | simp only [State.sound_mk]
    | with_reducible apply State.Sound.out | dsimp only | split

theorem State.launchNext_sound (s : State) (p : Nat) (h0 : s.Sound) : State.Sound (State.launchNext s p) := by
  unfold State.launchNext
  repeat' first
    | with_reducible assumption | intro _
    | (extract_lets +onlyGivenNames u; refine cut_goal (P := State.Sound u) ?_ fun _ => ?_; (on_goal 2 => clear_value u); (on_goal 1 => (unfold u; clear u)))
    | with_reducible apply ite_sound0 | with_reducible apply State.reachMono_sound
    | with_reducible apply State.gateDropOne_sound | with_reducible apply State.dropMissed_sound
    | with_reducible apply State.sendFrame_sound | with_reducible apply State.launchReady_sound
    | with_reducible apply State.reach_sound | with_reducible apply State.foldl_sound | simp only [State.sound_mk]
    | with_reducible apply State.Sound.out | dsimp only | split

theorem State.launchMiss_sound (s : State) (p : Nat) (h0 : s.Sound) : State.Sound (State.launchMiss s p) := by
  unfold State.launchMiss
  repeat' first
    | with_reducible assumption | intro _ | (extract_lets +onlyGivenNames u; clear_value u)
    | with_reducible apply State.dropMissed_sound | with_reducible apply State.reach_sound
    | with_reducible apply State.foldl_sound | simp only [State.sound_mk] | with_reducible apply State.Sound.out | dsimp only
    | split

theorem State.ingress_sound (s : State) (fr : Sys2Proof.Rx) (acyclic : Bool) (h0 : s.Sound) : State.Sound (State.ingress s fr acyclic).1 := by
  unfold State.ingress
  repeat' first
    | with_reducible assumption | intro _
    | (extract_lets +onlyGivenNames u; refine cut_goal (P := State.Sound u) ?_ fun _ => ?_; (on_goal 2 => clear_value u); (on_goal 1 => (unfold u; clear u)))
    | (extract_lets +onlyGivenNames u; clear_value u) | with_reducible apply_assumption
    | with_reducible apply State.bwPast_sound | with_reducible apply State.incOb_sound | with_reducible apply State.when_sound
    | with_reducible apply foldl_sound1 | simp only [State.sound_mk] | with_reducible apply State.Sound.out

theorem State.svcFrame_sound (s : State) (port : Nat) (peer : Peer) (tag : Nat) (body : List Sys2Proof.Byte) (h0 : s.Sound) : State.Sound (State.svcFrame s port peer tag body) := h0.same rfl rfl

theorem State.ringSeen_sound (s : State) (port : Nat) (y2 : Sys2Proof.Hdr) (h0 : s.Sound) : State.Sound (State.ringSeen s port y2) := by
  unfold State.ringSeen
  repeat' first
    | with_reducible assumption | intro _ | (extract_lets +onlyGivenNames u; clear_value u) | with_reducible apply ite_sound0
    | with_reducible apply State.setHnw_sound

theorem State.ringTell_sound (s : State) (k : Nat) (h0 : s.Sound) : State.Sound (State.ringTell s k) := by
  unfold State.ringTell
  repeat' first
    | with_reducible assumption | intro _
    | (extract_lets +onlyGivenNames u; refine cut_goal (P := State.Sound u) ?_ fun _ => ?_; (on_goal 2 => clear_value u); (on_goal 1 => (unfold u; clear u)))
    | (extract_lets +onlyGivenNames u; clear_value u) | with_reducible apply ite_sound0
    | with_reducible apply State.setHnw_sound | with_reducible apply State.raise_sound

theorem State.ringsTell_sound (s : State) (h0 : s.Sound) : State.Sound (State.ringsTell s) := by
  unfold State.ringsTell
  repeat' first
    | with_reducible assumption | intro _ | with_reducible apply State.each_sound | with_reducible apply State.ringTell_sound

theorem State.pendLines_sound (s : State) (off n : Nat) (h0 : s.Sound) : State.Sound (State.pendLines s off n) := h0.same rfl rfl

theorem State.stationBack_sound (s : State) (n : Nat) (h0 : s.Sound) : State.Sound (State.stationBack s n) := h0.same rfl rfl

theorem State.ebbSeg_sound (s : State) (port : Nat) (own : Bool) (g : Sys2Proof.Seg) (h0 : s.Sound) : State.Sound (State.ebbSeg s port own g) := by
  unfold State.ebbSeg
  repeat' first
    | with_reducible assumption | intro _
    | (extract_lets +onlyGivenNames u; refine cut_goal (P := State.Sound u) ?_ fun _ => ?_; (on_goal 2 => clear_value u); (on_goal 1 => (unfold u; clear u)))
    | (extract_lets +onlyGivenNames u; clear_value u) | with_reducible apply ite_sound0
    | with_reducible apply State.incOb_sound | with_reducible apply State.putBytes_sound
    | with_reducible apply State.pendLines_sound | with_reducible apply State.modStn_sound
    | with_reducible apply State.setHnw_sound | with_reducible apply State.when_sound
    | with_reducible apply State.stationBack_sound | with_reducible apply State.raise_sound

theorem State.slackSeg_sound (s : State) (g : Sys2Proof.Seg) (h0 : s.Sound) : State.Sound (State.slackSeg s g) := by
  unfold State.slackSeg
  repeat' first
    | with_reducible assumption | intro _ | with_reducible apply ite_sound0 | with_reducible apply State.modStn_sound

theorem State.outMisses_sound (s : State) (h0 : s.Sound) : State.Sound (State.outMisses s) := by
  unfold State.outMisses
  repeat' first
    | with_reducible assumption | intro _
    | (extract_lets +onlyGivenNames u; refine cut_goal (P := State.Sound u) ?_ fun _ => ?_; (on_goal 2 => clear_value u); (on_goal 1 => (unfold u; clear u)))
    | (extract_lets +onlyGivenNames u; clear_value u) | with_reducible apply State.each_sound
    | with_reducible apply State.when_sound | with_reducible apply State.incOb_sound | with_reducible apply State.modStn_sound

theorem State.ebbSamples_sound (s : State) (h0 : s.Sound) : State.Sound (State.ebbSamples s) := by
  unfold State.ebbSamples
  repeat' first
    | with_reducible assumption | intro _ | (extract_lets +onlyGivenNames u; clear_value u)
    | with_reducible apply State.each_sound | with_reducible apply State.setHnw_sound | with_reducible apply State.sample_sound

theorem State.deadline_sound (s : State) (h0 : s.Sound) : State.Sound (State.deadline s) := by
  unfold State.deadline
  repeat' first
    | with_reducible assumption | intro _
    | (extract_lets +onlyGivenNames u; refine cut_goal (P := State.Sound u) ?_ fun _ => ?_; (on_goal 2 => clear_value u); (on_goal 1 => (unfold u; clear u)))
    | (extract_lets +onlyGivenNames u; clear_value u) | with_reducible apply State.each_sound
    | with_reducible apply State.modStn_sound | with_reducible apply State.incOb_sound | with_reducible apply State.raise_sound

theorem State.stageBitmap_sound (s : State) (h0 : s.Sound) : State.Sound (State.stageBitmap s) := by
  unfold State.stageBitmap
  repeat' first
    | with_reducible assumption | intro _ | (extract_lets +onlyGivenNames u; clear_value u) | with_reducible apply ite_sound0
    | with_reducible apply State.pendLines_sound | with_reducible apply State.putBytes_sound

theorem State.floodBitmap_sound (s : State) (h0 : s.Sound) : State.Sound (State.floodBitmap s) := by
  unfold State.floodBitmap
  repeat' first
    | with_reducible assumption | intro _ | with_reducible apply State.setDom_sound

theorem State.sendService_sound (s : State) (r : Route) (h0 : s.Sound) : State.Sound (State.sendService s r) := by
  unfold State.sendService
  repeat' first
    | with_reducible assumption | intro _ | (extract_lets +onlyGivenNames u; clear_value u) | with_reducible apply ite_sound0
    | with_reducible apply State.each_sound | with_reducible apply State.enqueue_sound

theorem State.route_sound (s : State) (r : Route) (out : Bool) (h0 : s.Sound) : State.Sound (State.route s r out) := by
  unfold State.route
  repeat' first
    | with_reducible assumption | intro _
    | (extract_lets +onlyGivenNames u; refine cut_goal (P := State.Sound u) ?_ fun _ => ?_; (on_goal 2 => clear_value u); (on_goal 1 => (unfold u; clear u)))
    | (extract_lets +onlyGivenNames u; clear_value u) | with_reducible apply ite_sound0
    | with_reducible apply State.setHnw_sound | with_reducible apply State.sendService_sound

theorem State.answer_sound (s : State) (r : Route) (status reason : Nat) (data : List Sys2Proof.Byte) (h0 : s.Sound) : State.Sound (State.answer s r status reason data) := by
  unfold State.answer
  repeat' first
    | with_reducible assumption | intro _
    | (extract_lets +onlyGivenNames u; refine cut_goal (P := State.Sound u) ?_ fun _ => ?_; (on_goal 2 => clear_value u); (on_goal 1 => (unfold u; clear u)))
    | with_reducible apply ite_sound0 | with_reducible apply State.setHnw_sound | with_reducible apply State.svcFrame_sound

theorem State.endRoute_sound (s : State) (rid : Nat) (h0 : s.Sound) : State.Sound (State.endRoute s rid) := h0.same rfl rfl

theorem State.scanEnd_sound (s : State) (p : Nat) (h0 : s.Sound) : State.Sound (State.scanEnd s p) := h0.same rfl rfl

theorem State.scanAsk_sound (s : State) (x : Scan) (h0 : s.Sound) : State.Sound (State.scanAsk s x) := by
  unfold State.scanAsk
  repeat' first
    | with_reducible assumption | intro _ | with_reducible apply ite_sound0 | with_reducible apply State.scanEnd_sound
    | with_reducible apply State.route_sound

theorem State.scanStart_sound (s : State) (h0 : s.Sound) : State.Sound (State.scanStart s) := by
  unfold State.scanStart
  repeat' first
    | with_reducible assumption | intro _
    | (extract_lets +onlyGivenNames u; refine cut_goal (P := State.Sound u) ?_ fun _ => ?_; (on_goal 2 => clear_value u); (on_goal 1 => (unfold u; clear u)))
    | (extract_lets +onlyGivenNames u; clear_value u) | with_reducible apply State.setDom_sound
    | with_reducible apply State.setHnw_sound | with_reducible apply State.each_sound
    | with_reducible apply State.scanAsk_sound

theorem State.scanStep_sound (s : State) (p v : Nat) (h0 : s.Sound) : State.Sound (State.scanStep s p v) := by
  unfold State.scanStep
  split
  · exact h0
  · rename_i x _
    have hp : ∀ (u : State) (y : Scan), u.Sound →
        State.Sound ((u.setHnw fun h => { h with scans := h.scans.map fun z => if z.port = p then y else z }).scanAsk y) :=
      fun u y hu => State.scanAsk_sound _ _ (State.setHnw_sound _ _ hu)
    have hq : ∀ u : State, u.Sound → State.Sound (match u.staAt p x.pos with
        | some n => u.setOb (K.HST_IDENT n) (x.vendor * 2 ^ 32 + x.product)
        | none => u) := by
      intro u hu
      split
      · exact State.setOb_sound _ _ _ hu
      · exact hu
    split
    · exact hp _ _ h0
    · exact hp _ _ h0
    · exact hp _ _ (hq _ (State.setDom_sound _ _ _ h0))

theorem State.confAsk_sound (s : State) (x : Conf) (h0 : s.Sound) : State.Sound (State.confAsk s x) := by
  unfold State.confAsk
  repeat' first
    | with_reducible assumption | intro _ | with_reducible apply ite_sound0 | with_reducible apply State.setHnw_sound
    | with_reducible apply State.route_sound

theorem State.confNext_sound (s : State) (h0 : s.Sound) : State.Sound (State.confNext s) := by
  unfold State.confNext
  repeat' first
    | with_reducible assumption | intro _ | with_reducible apply State.confAsk_sound | with_reducible apply State.setHnw_sound
    | simp only [State.sound_mk] | with_reducible apply State.Sound.out | dsimp only | split

theorem State.autoConf_sound (s : State) (h0 : s.Sound) : State.Sound (State.autoConf s) := by
  unfold State.autoConf
  repeat' first
    | with_reducible assumption | intro _ | (extract_lets +onlyGivenNames u; clear_value u) | with_reducible apply ite_sound0
    | with_reducible apply State.confNext_sound | with_reducible apply State.setHnw_sound

theorem State.configureStart_sound (s : State) (h0 : s.Sound) : State.Sound (State.configureStart s) := by
  unfold State.configureStart
  repeat' first
    | with_reducible assumption | intro _ | with_reducible apply State.confNext_sound | with_reducible apply State.setHnw_sound

theorem State.confLeave_sound (s : State) (h0 : s.Sound) : State.Sound (State.confLeave s) := by
  unfold State.confLeave
  repeat' first
    | with_reducible assumption | intro _ | with_reducible apply State.confNext_sound | with_reducible apply State.setHnw_sound

theorem State.confStep_sound (s : State) (v : Nat) (h0 : s.Sound) : State.Sound (State.confStep s v) := by
  unfold State.confStep
  repeat' first
    | with_reducible assumption | intro _
    | (extract_lets +onlyGivenNames u; refine cut_goal (P := ∀ s y, State.Sound s → State.Sound (u s y)) ?_ fun _ => ?_; (on_goal 2 => clear_value u); (on_goal 1 => (unfold u; clear u)))
    | with_reducible apply_assumption | with_reducible apply ite_sound0 | with_reducible apply State.confAsk_sound
    | with_reducible apply State.setHnw_sound | with_reducible apply State.setOb_sound
    | with_reducible apply State.confLeave_sound | with_reducible apply State.modStn_sound | simp only [State.sound_mk]
    | with_reducible apply State.Sound.out | dsimp only | split

theorem State.hnwDone_sound (s : State) (h0 : s.Sound) : State.Sound (State.hnwDone s) := by
  unfold State.hnwDone
  repeat' first
    | with_reducible assumption | intro _ | with_reducible apply ite_sound0 | with_reducible apply State.setHnw_sound

theorem State.probeAnswer_sound (s : State) (n v : Nat) (h0 : s.Sound) : State.Sound (State.probeAnswer s n v) := by
  unfold State.probeAnswer
  repeat' first
    | with_reducible assumption | intro _ | with_reducible apply ite_sound0 | with_reducible apply State.autoConf_sound
    | with_reducible apply State.stationBack_sound | with_reducible apply State.modStn_sound

theorem State.respond_sound (s : State) (r : Route) (status reason : Nat) (data : List Sys2Proof.Byte) (h0 : s.Sound) : State.Sound (State.respond s r status reason data) := by
  unfold State.respond
  repeat' first
    | with_reducible assumption | intro _
    | (extract_lets +onlyGivenNames u; refine cut_goal (P := State.Sound u) ?_ fun _ => ?_; (on_goal 2 => clear_value u); (on_goal 1 => (unfold u; clear u)))
    | (extract_lets +onlyGivenNames u; clear_value u) | with_reducible apply ite_sound0
    | with_reducible apply State.endRoute_sound | with_reducible apply State.scanStep_sound
    | with_reducible apply State.confStep_sound | with_reducible apply State.confLeave_sound
    | with_reducible apply State.probeAnswer_sound | with_reducible apply State.answer_sound | simp only [State.sound_mk]
    | with_reducible apply State.Sound.out | dsimp only | split

theorem State.unanswered_sound (s : State) (r : Route) (h0 : s.Sound) : State.Sound (State.unanswered s r) := by
  unfold State.unanswered
  repeat' first
    | with_reducible assumption | intro _ | with_reducible apply State.scanEnd_sound
    | with_reducible apply State.endRoute_sound | with_reducible apply State.respond_sound | simp only [State.sound_mk]
    | with_reducible apply State.Sound.out | dsimp only | split

theorem State.probe_sound (s : State) (n : Nat) (h0 : s.Sound) : State.Sound (State.probe s n) := by
  unfold State.probe
  repeat' first
    | with_reducible assumption | intro _ | with_reducible apply ite_sound0 | with_reducible apply State.route_sound

theorem State.modMb_sound (s : State) (k : Nat) (f : Mbc → Mbc) (h0 : s.Sound) : State.Sound (State.modMb s k f) := h0.same rfl rfl

theorem State.dictateTx_sound (s : State) (k b stamp : Nat) (h0 : s.Sound) : State.Sound (State.dictateTx s k b stamp) := by
  unfold State.dictateTx
  repeat' first
    | with_reducible assumption | intro _ | (extract_lets +onlyGivenNames u; clear_value u)
    | with_reducible apply State.dictate_sound

theorem State.mbComplete_sound (s : State) (k result cause : Nat) (h0 : s.Sound) : State.Sound (State.mbComplete s k result cause) := by
  unfold State.mbComplete
  repeat' first
    | with_reducible assumption | intro _ | (extract_lets +onlyGivenNames u; clear_value u) | with_reducible apply ite_sound0
    | with_reducible apply State.modMb_sound | with_reducible apply State.each_sound
    | with_reducible apply State.dictateTx_sound

theorem State.busOff_sound (s : State) (k : Nat) (h0 : s.Sound) : State.Sound (State.busOff s k) := by
  unfold State.busOff
  repeat' first
    | with_reducible assumption | intro _
    | (extract_lets +onlyGivenNames u; refine cut_goal (P := State.Sound u) ?_ fun _ => ?_; (on_goal 2 => clear_value u); (on_goal 1 => (unfold u; clear u)))
    | with_reducible apply State.mbComplete_sound | with_reducible apply State.modMb_sound
    | with_reducible apply State.raise_sound | with_reducible apply State.incOb_sound | with_reducible apply State.when_sound

theorem State.busOffCheck_sound (s : State) (k : Nat) (h0 : s.Sound) : State.Sound (State.busOffCheck s k) := by
  unfold State.busOffCheck
  repeat' first
    | with_reducible assumption | intro _ | with_reducible apply ite_sound0 | with_reducible apply State.busOff_sound

theorem State.mbStop_sound (s : State) (k : Nat) (h0 : s.Sound) : State.Sound (State.mbStop s k) := by
  unfold State.mbStop
  repeat' first
    | with_reducible assumption | intro _ | with_reducible apply State.modMb_sound
    | with_reducible apply State.mbComplete_sound

theorem State.mbStopCmd_sound (s : State) (k : Nat) (h0 : s.Sound) : State.Sound (State.mbStopCmd s k) := by
  unfold State.mbStopCmd
  repeat' first
    | with_reducible assumption | intro _ | with_reducible apply ite_sound0 | with_reducible apply State.modMb_sound
    | with_reducible apply State.mbStop_sound

theorem State.canStore_sound (s : State) (k target : Nat) (x : Elem) (h0 : s.Sound) : State.Sound (State.canStore s k target x).1 := by
  have hm : ∀ g, State.Sound (s.modMb k g) := fun g => State.modMb_sound _ _ _ h0
  have hl : ∀ u : State, u.Sound → State.Sound (u.incOb (K.MBC_RX_LOST (k + 1))) := fun u hu => State.incOb_sound _ _ hu
  unfold State.canStore
  dsimp only
  repeat' split
  · exact hl _ h0
  · exact State.setOb_sound _ _ _ (hl _ (hm _))
  · exact State.modMb_sound s k (fun m => m.setDed target (some x)) h0
  · exact State.modMb_sound s k (fun m => m.setFifo (target - 32) ((s.mb k).fifo (target - 32) ++ [x])) h0
  · exact hl _ (hm _)
  · exact hl _ h0

theorem State.canFilter_sound (s : State) (k : Nat) (f : Sys2Proof.CanFrame) (stamp : Nat) (h0 : s.Sound) : State.Sound (State.canFilter s k f stamp) := by
  unfold State.canFilter
  repeat' first
    | with_reducible assumption | intro _ | with_reducible apply ite_sound0 | with_reducible apply State.incOb_sound
    | with_reducible apply State.canStore_sound | with_reducible apply State.dictate_sound
    | with_reducible apply State.fire_sound

theorem State.rxError_sound (s : State) (k lec : Nat) (h0 : s.Sound) : State.Sound (State.rxError s k lec) := h0.same rfl rfl

theorem State.canReceive_sound (s : State) (k : Nat) (f : Sys2Proof.CanFrame) (stamp : Nat) (h0 : s.Sound) : State.Sound (State.canReceive s k f stamp) := by
  unfold State.canReceive
  repeat' first
    | with_reducible assumption | intro _
    | (extract_lets +onlyGivenNames u; refine cut_goal (P := State.Sound u) ?_ fun _ => ?_; (on_goal 2 => clear_value u); (on_goal 1 => (unfold u; clear u)))
    | with_reducible apply ite_sound0 | with_reducible apply State.incOb_sound | with_reducible apply State.rxError_sound
    | with_reducible apply State.modMb_sound | with_reducible apply State.keepOwn_sound
    | with_reducible apply State.canFilter_sound

theorem State.pop_sound (s : State) (k v : Nat) (h0 : s.Sound) : State.Sound (State.pop s k v) := by
  unfold State.pop
  repeat' first
    | with_reducible assumption | intro _
    | (extract_lets +onlyGivenNames u; refine cut_goal (P := State.Sound u) ?_ fun _ => ?_; (on_goal 2 => clear_value u); (on_goal 1 => (unfold u; clear u)))
    | (extract_lets +onlyGivenNames u; clear_value u) | with_reducible apply ite_sound0 | with_reducible apply State.when_sound
    | with_reducible apply State.incOb_sound | with_reducible apply State.setOb_sound | with_reducible apply State.setMb_sound

theorem State.lastWordRead_sound (s : State) (k : Nat) (h0 : s.Sound) : State.Sound (State.lastWordRead s k) := h0.same rfl rfl

theorem State.rdRead_sound (s : State) (k i : Nat) (h0 : s.Sound) : State.Sound (State.rdRead s k i) := by
  unfold State.rdRead
  repeat' first
    | with_reducible assumption | intro _ | with_reducible apply ite_sound0 | with_reducible apply State.lastWordRead_sound
    | simp only [State.sound_mk] | with_reducible apply State.Sound.out | dsimp only | split

theorem State.txReq_sound (s : State) (k v : Nat) (h0 : s.Sound) : State.Sound (State.txReq s k v) := h0.same rfl rfl

theorem State.txCancel_sound (s : State) (k v : Nat) (h0 : s.Sound) : State.Sound (State.txCancel s k v) := by
  unfold State.txCancel
  repeat' first
    | with_reducible assumption | intro _
    | (extract_lets +onlyGivenNames u; refine cut_goal (P := State.Sound u) ?_ fun _ => ?_; (on_goal 2 => clear_value u); (on_goal 1 => (unfold u; clear u)))
    | (extract_lets +onlyGivenNames u; clear_value u) | with_reducible apply ite_sound0
    | with_reducible apply State.modMb_sound | with_reducible apply State.each_sound
    | with_reducible apply State.dictateTx_sound

theorem State.txStart_sound (s : State) (k : Nat) (h0 : s.Sound) : State.Sound (State.txStart s k) := by
  unfold State.txStart
  repeat' first
    | with_reducible assumption | intro _ | with_reducible apply ite_sound0 | with_reducible apply State.modMb_sound

theorem State.txStamp_sound (s : State) (k b stamp : Nat) (h0 : s.Sound) : State.Sound (State.txStamp s k b stamp) := h0.same rfl rfl

theorem State.txSuccess_sound (s : State) (k b : Nat) (h0 : s.Sound) : State.Sound (State.txSuccess s k b) := by
  unfold State.txSuccess
  repeat' first
    | with_reducible assumption | intro _
    | (extract_lets +onlyGivenNames u; refine cut_goal (P := State.Sound u) ?_ fun _ => ?_; (on_goal 2 => clear_value u); (on_goal 1 => (unfold u; clear u)))
    | (extract_lets +onlyGivenNames u; clear_value u) | with_reducible apply ite_sound0
    | with_reducible apply State.incOb_sound | with_reducible apply State.modMb_sound
    | with_reducible apply State.dictateTx_sound | with_reducible apply State.txStamp_sound
    | with_reducible apply State.when_sound | with_reducible apply State.canReceive_sound

theorem State.txFail_sound (s : State) (k b cause : Nat) (h0 : s.Sound) : State.Sound (State.txFail s k b cause) := by
  unfold State.txFail
  repeat' first
    | with_reducible assumption | intro _
    | (extract_lets +onlyGivenNames u; refine cut_goal (P := State.Sound u) ?_ fun _ => ?_; (on_goal 2 => clear_value u); (on_goal 1 => (unfold u; clear u)))
    | (extract_lets +onlyGivenNames u; clear_value u) | with_reducible apply ite_sound0
    | with_reducible apply State.modMb_sound | with_reducible apply State.dictateTx_sound

theorem State.txEnd_sound (s : State) (k : Nat) (r : Sys2Proof.TxEnd) (h0 : s.Sound) : State.Sound (State.txEnd s k r) := by
  unfold State.txEnd
  repeat' first
    | with_reducible assumption | intro _
    | (extract_lets +onlyGivenNames u; refine cut_goal (P := State.Sound u) ?_ fun _ => ?_; (on_goal 2 => clear_value u); (on_goal 1 => (unfold u; clear u)))
    | with_reducible apply ite_sound0 | with_reducible apply State.txSuccess_sound | with_reducible apply State.txFail_sound
    | with_reducible apply State.incOb_sound | with_reducible apply State.draw_sound | with_reducible apply State.modMb_sound
    | with_reducible apply State.busOffCheck_sound | with_reducible apply State.mbStop_sound | simp only [State.sound_mk]
    | with_reducible apply State.Sound.out | dsimp only | split

theorem State.txDictated_sound (s : State) (k b result cause stamp : Nat) (h0 : s.Sound) : State.Sound (State.txDictated s k b result cause stamp) := by
  unfold State.txDictated
  repeat' first
    | with_reducible assumption | intro _
    | (extract_lets +onlyGivenNames u; refine cut_goal (P := State.Sound u) ?_ fun _ => ?_; (on_goal 2 => clear_value u); (on_goal 1 => (unfold u; clear u)))
    | (extract_lets +onlyGivenNames u; clear_value u) | with_reducible apply ite_sound0
    | with_reducible apply State.modMb_sound | with_reducible apply State.txStamp_sound

theorem State.mbEnded_sound (s : State) (h0 : s.Sound) : State.Sound (State.mbEnded s) := by
  unfold State.mbEnded
  repeat' first
    | with_reducible assumption | intro _ | with_reducible apply ite_sound0 | with_reducible apply State.each_sound
    | with_reducible apply State.modMb_sound

end Sys2Proof.Machine
end

