-- ==== Sys2Proof/Laws/SoundPair.lean ====
section
/-! SUPPORT. Each operation of the pair, the witness and DMA keeps memory canonical, and the
Lighthouse from driving VALID to both partners. -/

namespace Sys2Proof.Machine

set_option Elab.async false

theorem State.reHoldoff_sound (s : State) (h0 : s.Sound) : State.Sound (State.reHoldoff s) := h0.same rfl rfl

theorem State.drillArm_sound (s : State) (h0 : s.Sound) : State.Sound (State.drillArm s) := by
  unfold State.drillArm
  repeat' first
    | with_reducible assumption | intro _ | with_reducible apply ite_sound0 | with_reducible refine State.setRed_sound _ ?_ rfl

theorem State.setRole_sound (s : State) (x : Role) (reason : Nat) (h0 : s.Sound) : State.Sound (State.setRole s x reason) := h0.same rfl rfl

theorem State.startResync_sound (s : State) (h0 : s.Sound) : State.Sound (State.startResync s) := by
  unfold State.startResync
  repeat' first
    | with_reducible assumption | intro _ | with_reducible apply State.setRole_sound
    | with_reducible refine State.setRed_sound _ ?_ rfl

theorem State.maybeResync_sound (s : State) (h0 : s.Sound) : State.Sound (State.maybeResync s) := by
  unfold State.maybeResync
  repeat' first
    | with_reducible assumption | intro _ | with_reducible apply ite_sound0 | with_reducible apply State.startResync_sound

theorem State.passSend_sound (s : State) (n : Nat) (data : List Sys2Proof.Resync) (h0 : s.Sound) : State.Sound (State.passSend s n data) := by
  unfold State.passSend
  repeat' first
    | with_reducible assumption | intro _ | with_reducible refine State.setRed_sound _ ?_ rfl
    | with_reducible apply State.moorSend_sound

theorem State.passBegin_sound (s : State) (h0 : s.Sound) : State.Sound (State.passBegin s) := by
  unfold State.passBegin
  repeat' first
    | with_reducible assumption | intro _ | with_reducible apply ite_sound0 | with_reducible apply State.draw_sound
    | with_reducible refine State.setRed_sound _ ?_ rfl | with_reducible apply State.passSend_sound

theorem State.finalSend_sound (s : State) (h0 : s.Sound) : State.Sound (State.finalSend s) := by
  unfold State.finalSend
  repeat' first
    | with_reducible assumption | intro _ | with_reducible apply State.passSend_sound

theorem State.toUnsynced_sound (s : State) (reason : Nat) (h0 : s.Sound) : State.Sound (State.toUnsynced s reason) := by
  unfold State.toUnsynced
  repeat' first
    | with_reducible assumption | intro _ | with_reducible apply State.maybeResync_sound
    | with_reducible apply State.setRole_sound | with_reducible refine State.setRed_sound _ ?_ rfl

theorem State.noteDictated_sound (s : State) (d : Sys2Proof.Dict) (h0 : s.Sound) : State.Sound (State.noteDictated s d) := h0.same rfl rfl

theorem State.decideTrigger_sound (s : State) (cause cls num : Nat) (h0 : s.Sound) : State.Sound (State.decideTrigger s cause cls num) := by
  unfold State.decideTrigger
  repeat' first
    | with_reducible assumption | intro _ | with_reducible apply ite_sound0 | with_reducible apply State.setTds_sound
    | with_reducible apply State.dictate_sound | with_reducible apply State.releaseAll_sound

theorem State.releaseHeld_sound (s : State) (count : Bool) (h0 : s.Sound) : State.Sound (State.releaseHeld s count) := by
  unfold State.releaseHeld
  repeat' first
    | with_reducible assumption | intro _
    | (extract_lets +onlyGivenNames u; refine cut_goal (P := State.Sound u) ?_ fun _ => ?_; (on_goal 2 => clear_value u); (on_goal 1 => (unfold u; clear u)))
    | (extract_lets +onlyGivenNames u; clear_value u) | with_reducible apply ite_sound0
    | with_reducible apply State.setTds_sound | with_reducible apply State.each_sound
    | with_reducible apply State.decideTrigger_sound | with_reducible apply State.incOb_sound

theorem State.takeDictated_sound (s : State) (d : Sys2Proof.Dict) (h0 : s.Sound) : State.Sound (State.takeDictated s d) := by
  unfold State.takeDictated
  repeat' first
    | with_reducible assumption | intro _
    | (extract_lets +onlyGivenNames u; refine cut_goal (P := State.Sound u) ?_ fun _ => ?_; (on_goal 2 => clear_value u); (on_goal 1 => (unfold u; clear u)))
    | with_reducible apply State.noteDictated_sound | with_reducible apply State.putLine_sound
    | with_reducible apply State.setFio_sound | with_reducible apply State.logEdge_sound
    | with_reducible apply State.canFilter_sound | with_reducible apply State.txDictated_sound
    | with_reducible apply State.setOb_sound | with_reducible apply State.decideTrigger_sound | simp only [State.sound_mk]
    | with_reducible apply State.Sound.out | dsimp only | split

theorem State.ownUnmatched_sound (s : State) (h0 : s.Sound) : State.Sound (State.ownUnmatched s) := by
  unfold State.ownUnmatched
  repeat' first
    | with_reducible assumption | intro _
    | (extract_lets +onlyGivenNames u; refine cut_goal (P := State.Sound u) ?_ fun _ => ?_; (on_goal 2 => clear_value u); (on_goal 1 => (unfold u; clear u)))
    | (extract_lets +onlyGivenNames u; clear_value u) | with_reducible refine State.setRed_sound _ ?_ rfl
    | with_reducible apply State.each_sound | with_reducible apply State.decideTrigger_sound
    | with_reducible apply State.canFilter_sound | simp only [State.sound_mk] | with_reducible apply State.Sound.out
    | dsimp only | split

theorem State.changeLost_sound (s : State) (h0 : s.Sound) : State.Sound (State.changeLost s) := by
  unfold State.changeLost
  repeat' first
    | with_reducible assumption | intro _ | (extract_lets +onlyGivenNames u; clear_value u) | with_reducible apply ite_sound0
    | with_reducible apply State.releaseHeld_sound | simp only [State.sound_mk] | with_reducible apply State.Sound.out

theorem State.lateRefresh_sound (s : State) (h0 : s.Sound) : State.Sound (State.lateRefresh s) := by
  unfold State.lateRefresh
  repeat' first
    | with_reducible assumption | intro _ | with_reducible apply State.fioRefresh_sound
    | with_reducible apply State.reach_sound

theorem State.becomeActive_sound (s : State) (h0 : s.Sound) : State.Sound (State.becomeActive s) := by
  unfold State.becomeActive
  repeat' first
    | with_reducible assumption | intro _
    | (extract_lets +onlyGivenNames u; refine cut_goal (P := State.Sound u) ?_ fun _ => ?_; (on_goal 2 => clear_value u); (on_goal 1 => (unfold u; clear u)))
    | (extract_lets +onlyGivenNames u; clear_value u) | with_reducible apply ite_sound0
    | with_reducible apply State.ownUnmatched_sound | with_reducible apply State.mbEnded_sound
    | with_reducible apply State.changeLost_sound | with_reducible refine State.setRed_sound _ ?_ rfl
    | with_reducible apply State.setRole_sound | with_reducible apply State.incOb_sound
    | with_reducible apply State.takeover_sound | with_reducible apply State.setOb_sound
    | with_reducible apply State.lateRefresh_sound | simp only [State.sound_mk] | with_reducible apply State.Sound.out
    | dsimp only | with_reducible refine sound_of_eq (by assumption) ?_ | split

theorem State.joinGrant_sound (s : State) (h0 : s.Sound) : State.Sound (State.joinGrant s) := by
  unfold State.joinGrant
  repeat' first
    | with_reducible assumption | intro _ | with_reducible apply ite_sound0 | with_reducible apply State.setRole_sound

theorem State.gainGrant_sound (s : State) (h0 : s.Sound) : State.Sound (State.gainGrant s) := by
  unfold State.gainGrant
  repeat' first
    | with_reducible assumption | intro _
    | (extract_lets +onlyGivenNames u; refine cut_goal (P := State.Sound u) ?_ fun _ => ?_; (on_goal 2 => clear_value u); (on_goal 1 => (unfold u; clear u)))
    | with_reducible refine State.setRed_sound _ ?_ rfl | with_reducible apply State.reclaim_sound
    | with_reducible apply State.becomeActive_sound | with_reducible apply State.joinGrant_sound | simp only [State.sound_mk]
    | with_reducible apply State.Sound.out | dsimp only | split

theorem State.loseGrant_sound (s : State) (h0 : s.Sound) : State.Sound (State.loseGrant s) := by
  unfold State.loseGrant
  repeat' first
    | with_reducible assumption | intro _
    | (extract_lets +onlyGivenNames u; refine cut_goal (P := State.Sound u) ?_ fun _ => ?_; (on_goal 2 => clear_value u); (on_goal 1 => (unfold u; clear u)))
    | (extract_lets +onlyGivenNames u; clear_value u) | with_reducible apply ite_sound0
    | with_reducible apply State.sendPark_sound | with_reducible refine State.setRed_sound _ ?_ rfl
    | with_reducible apply State.setRole_sound | with_reducible apply State.toUnsynced_sound
    | with_reducible apply State.reclaim_sound

theorem State.unfence_sound (s : State) (h0 : s.Sound) : State.Sound (State.unfence s) := by
  unfold State.unfence
  repeat' first
    | with_reducible assumption | intro _ | with_reducible apply ite_sound0 | with_reducible apply State.gainGrant_sound

theorem State.thaw_sound (s : State) (h0 : s.Sound) : State.Sound (State.thaw s) := by
  unfold State.thaw
  repeat' first
    | with_reducible assumption | intro _ | with_reducible apply ite_sound0 | with_reducible apply State.loseGrant_sound

theorem State.pairAccept_sound (s : State) (p : PairSt) (h0 : s.Sound) : State.Sound (State.pairAccept s p) := by
  unfold State.pairAccept
  repeat' first
    | with_reducible assumption | intro _
    | (extract_lets +onlyGivenNames u; refine cut_goal (P := State.Sound u) ?_ fun _ => ?_; (on_goal 2 => clear_value u); (on_goal 1 => (unfold u; clear u)))
    | (extract_lets +onlyGivenNames u; clear_value u) | with_reducible apply ite_sound0
    | with_reducible refine State.setRed_sound _ ?_ rfl | with_reducible apply State.raise_sound
    | with_reducible apply State.reclaim_sound | with_reducible apply State.loseGrant_sound
    | with_reducible apply State.gainGrant_sound | with_reducible apply State.thaw_sound | simp only [State.sound_mk]
    | with_reducible apply State.Sound.out | dsimp only | split

theorem State.mooringTrained_sound (s : State) (link lanes : Nat) (h0 : s.Sound) : State.Sound (State.mooringTrained s link lanes) := by
  unfold State.mooringTrained
  repeat' first
    | with_reducible assumption | intro _ | with_reducible apply ite_sound0 | with_reducible refine State.setRed_sound _ ?_ rfl

theorem State.mooringUp_sound (s : State) (link lanes : Nat) (h0 : s.Sound) : State.Sound (State.mooringUp s link lanes) := by
  unfold State.mooringUp
  repeat' first
    | with_reducible assumption | intro _
    | (extract_lets +onlyGivenNames u; refine cut_goal (P := State.Sound u) ?_ fun _ => ?_; (on_goal 2 => clear_value u); (on_goal 1 => (unfold u; clear u)))
    | (extract_lets +onlyGivenNames u; clear_value u) | with_reducible apply ite_sound0
    | with_reducible refine State.setRed_sound _ ?_ rfl | with_reducible apply State.when_sound
    | with_reducible apply State.raiseSt_sound

theorem State.mooringDown_sound (s : State) (link : Nat) (h0 : s.Sound) : State.Sound (State.mooringDown s link) := by
  unfold State.mooringDown
  repeat' first
    | with_reducible assumption | intro _ | with_reducible apply ite_sound0 | with_reducible refine State.setRed_sound _ ?_ rfl
    | with_reducible apply State.when_sound | with_reducible apply State.raiseSt_sound

theorem State.statusReceive_sound (s : State) (m : Sys2Proof.Status) (h0 : s.Sound) : State.Sound (State.statusReceive s m) := by
  unfold State.statusReceive
  repeat' first
    | with_reducible assumption | intro _
    | (extract_lets +onlyGivenNames u; refine cut_goal (P := State.Sound u) ?_ fun _ => ?_; (on_goal 2 => clear_value u); (on_goal 1 => (unfold u; clear u)))
    | (extract_lets +onlyGivenNames u; clear_value u) | with_reducible apply ite_sound0
    | with_reducible apply State.reclaim_sound | with_reducible refine State.setRed_sound _ ?_ rfl
    | with_reducible apply State.when_sound | with_reducible apply State.reHoldoff_sound
    | with_reducible apply State.passBegin_sound | with_reducible apply State.setRole_sound
    | with_reducible apply State.unfence_sound | with_reducible apply State.thaw_sound
    | with_reducible apply State.toUnsynced_sound | with_reducible apply State.joinGrant_sound

theorem State.peerAbsent_sound (s : State) (h0 : s.Sound) : State.Sound (State.peerAbsent s) := by
  unfold State.peerAbsent
  repeat' first
    | with_reducible assumption | intro _
    | (extract_lets +onlyGivenNames u; refine cut_goal (P := State.Sound u) ?_ fun _ => ?_; (on_goal 2 => clear_value u); (on_goal 1 => (unfold u; clear u)))
    | with_reducible apply ite_sound0 | with_reducible refine State.setRed_sound _ ?_ rfl
    | with_reducible apply State.when_sound | with_reducible apply State.raise_sound
    | with_reducible apply State.toUnsynced_sound | with_reducible apply State.reclaim_sound
    | with_reducible apply State.joinGrant_sound | with_reducible apply State.unfence_sound
    | with_reducible apply State.thaw_sound

theorem State.redLeave_sound (s : State) (h0 : s.Sound) : State.Sound (State.redLeave s) := by
  unfold State.redLeave
  repeat' first
    | with_reducible assumption | intro _
    | (extract_lets +onlyGivenNames u; refine cut_goal (P := State.Sound u) ?_ fun _ => ?_; (on_goal 2 => clear_value u); (on_goal 1 => (unfold u; clear u)))
    | with_reducible apply State.when_sound | with_reducible refine State.setRed_sound _ ?_ rfl
    | with_reducible apply State.sendPark_sound | with_reducible apply State.setRole_sound

theorem State.agreeSend_sound (s : State) (h0 : s.Sound) : State.Sound (State.agreeSend s) := by
  unfold State.agreeSend
  repeat' first
    | with_reducible assumption | intro _ | with_reducible apply ite_sound0 | with_reducible refine State.setRed_sound _ ?_ rfl
    | with_reducible apply State.addOb_sound | with_reducible apply State.each_sound
    | with_reducible apply State.moorSend_sound | simp only [State.sound_mk] | with_reducible apply State.Sound.out
    | dsimp only | split

theorem State.agreeCheck_sound (s : State) (h0 : s.Sound) : State.Sound (State.agreeCheck s) := by
  unfold State.agreeCheck
  repeat' first
    | with_reducible assumption | intro _ | with_reducible apply ite_sound0 | with_reducible apply State.moorSend_sound
    | with_reducible refine State.setRed_sound _ ?_ rfl | simp only [State.sound_mk] | with_reducible apply State.Sound.out
    | dsimp only | split

theorem State.inputComplete_sound (s : State) (h0 : s.Sound) : State.Sound (State.inputComplete s) := by
  unfold State.inputComplete
  repeat' first
    | with_reducible assumption | intro _
    | (extract_lets +onlyGivenNames u; refine cut_goal (P := State.Sound u) ?_ fun _ => ?_; (on_goal 2 => clear_value u); (on_goal 1 => (unfold u; clear u)))
    | (extract_lets +onlyGivenNames u; clear_value u) | with_reducible apply ite_sound0
    | with_reducible apply State.setTds_sound | with_reducible apply State.stageBitmap_sound
    | with_reducible apply State.moorSend_sound | with_reducible apply State.agreeCheck_sound
    | with_reducible apply State.agreeSend_sound | with_reducible refine State.setRed_sound _ ?_ rfl

theorem State.inputCheck_sound (s : State) (h0 : s.Sound) : State.Sound (State.inputCheck s) := by
  unfold State.inputCheck
  repeat' first
    | with_reducible assumption | intro _ | with_reducible apply ite_sound0 | with_reducible apply State.inputComplete_sound

theorem State.digestReceive_sound (s : State) (t image : Nat) (parts : List Nat) (h0 : s.Sound) : State.Sound (State.digestReceive s t image parts) := by
  unfold State.digestReceive
  repeat' first
    | with_reducible assumption | intro _ | with_reducible apply ite_sound0 | with_reducible apply State.agreeCheck_sound
    | with_reducible apply State.agreeSend_sound | with_reducible refine State.setRed_sound _ ?_ rfl

theorem State.partReceive_sound (s : State) (t part : Nat) (data : List Sys2Proof.Byte) (h0 : s.Sound) : State.Sound (State.partReceive s t part data) := by
  unfold State.partReceive
  repeat' first
    | with_reducible assumption | intro _ | with_reducible apply ite_sound0 | with_reducible apply State.agreeCheck_sound
    | with_reducible apply State.pendLines_sound | with_reducible apply State.putBytes_sound

theorem State.agreeLate_sound (s : State) (h0 : s.Sound) : State.Sound (State.agreeLate s) := by
  unfold State.agreeLate
  repeat' first
    | with_reducible assumption | intro _
    | (extract_lets +onlyGivenNames u; refine cut_goal (P := State.Sound u) ?_ fun _ => ?_; (on_goal 2 => clear_value u); (on_goal 1 => (unfold u; clear u)))
    | with_reducible apply ite_sound0 | with_reducible refine State.setRed_sound _ ?_ rfl
    | with_reducible apply State.toUnsynced_sound | with_reducible apply State.incOb_sound

theorem State.divergence_sound (s : State) (t : Nat) (parts : List Nat) (kind : Nat) (h0 : s.Sound) : State.Sound (State.divergence s t parts kind) := h0.same rfl rfl

theorem State.divPolicy_sound (s : State) (h0 : s.Sound) : State.Sound (State.divPolicy s) := by
  unfold State.divPolicy
  repeat' first
    | with_reducible assumption | intro _
    | (extract_lets +onlyGivenNames u; refine cut_goal (P := State.Sound u) ?_ fun _ => ?_; (on_goal 2 => clear_value u); (on_goal 1 => (unfold u; clear u)))
    | with_reducible apply ite_sound0 | with_reducible apply State.toUnsynced_sound
    | with_reducible apply State.startResync_sound | simp only [State.sound_mk] | with_reducible apply State.Sound.out
    | dsimp only | split

theorem State.compareOut_sound (s : State) (h0 : s.Sound) : State.Sound (State.compareOut s) := by
  unfold State.compareOut
  repeat' first
    | with_reducible assumption | intro _
    | (extract_lets +onlyGivenNames u; refine cut_goal (P := State.Sound u) ?_ fun _ => ?_; (on_goal 2 => clear_value u); (on_goal 1 => (unfold u; clear u)))
    | with_reducible apply ite_sound0 | with_reducible refine State.setRed_sound _ ?_ rfl
    | with_reducible apply State.divPolicy_sound | with_reducible apply State.divergence_sound | simp only [State.sound_mk]
    | with_reducible apply State.Sound.out | dsimp only | split

theorem State.outDigestSend_sound (s : State) (h0 : s.Sound) : State.Sound (State.outDigestSend s) := by
  unfold State.outDigestSend
  repeat' first
    | with_reducible assumption | intro _
    | (extract_lets +onlyGivenNames u; refine cut_goal (P := State.Sound u) ?_ fun _ => ?_; (on_goal 2 => clear_value u); (on_goal 1 => (unfold u; clear u)))
    | (extract_lets +onlyGivenNames u; clear_value u) | with_reducible apply ite_sound0
    | with_reducible apply State.moorSend_sound | with_reducible apply State.compareOut_sound
    | with_reducible refine State.setRed_sound _ ?_ rfl

theorem State.outDigestReceive_sound (s : State) (t image : Nat) (parts : List Nat) (h0 : s.Sound) : State.Sound (State.outDigestReceive s t image parts) := by
  unfold State.outDigestReceive
  repeat' first
    | with_reducible assumption | intro _ | with_reducible apply ite_sound0 | with_reducible apply State.compareOut_sound
    | with_reducible refine State.setRed_sound _ ?_ rfl

theorem State.swapStart_sound (s : State) (h0 : s.Sound) : State.Sound (State.swapStart s) := by
  unfold State.swapStart
  repeat' first
    | with_reducible assumption | intro _ | (extract_lets +onlyGivenNames u; clear_value u)
    | with_reducible apply State.moorSend_sound | with_reducible refine State.setRed_sound _ ?_ rfl

theorem State.drill_sound (s : State) (h0 : s.Sound) : State.Sound (State.drill s) := by
  unfold State.drill
  repeat' first
    | with_reducible assumption | intro _ | with_reducible apply ite_sound0 | with_reducible apply State.swapStart_sound
    | with_reducible apply State.incOb_sound | with_reducible refine State.setRed_sound _ ?_ rfl

theorem State.redCmd_sound (s : State) (v : Nat) (h0 : s.Sound) : State.Sound (State.redCmd s v) := by
  unfold State.redCmd
  repeat' first
    | with_reducible assumption | intro _ | with_reducible apply State.redLeave_sound
    | with_reducible apply State.startResync_sound | with_reducible apply State.swapStart_sound
    | with_reducible apply State.drill_sound | simp only [State.sound_mk] | with_reducible apply State.Sound.out | dsimp only
    | split

theorem State.swapToken_sound (s : State) (t : Nat) (h0 : s.Sound) : State.Sound (State.swapToken s t) := by
  unfold State.swapToken
  repeat' first
    | with_reducible assumption | intro _ | with_reducible apply ite_sound0 | with_reducible refine State.setRed_sound _ ?_ rfl

theorem State.swapGive_sound (s : State) (h0 : s.Sound) : State.Sound (State.swapGive s) := by
  unfold State.swapGive
  repeat' first
    | with_reducible assumption | intro _
    | (extract_lets +onlyGivenNames u; refine cut_goal (P := State.Sound u) ?_ fun _ => ?_; (on_goal 2 => clear_value u); (on_goal 1 => (unfold u; clear u)))
    | with_reducible apply ite_sound0 | with_reducible apply State.reachMono_sound | with_reducible apply State.reclaim_sound
    | with_reducible refine State.setRed_sound _ ?_ rfl

theorem State.swapClaim_sound (s : State) (h0 : s.Sound) : State.Sound (State.swapClaim s) := by
  unfold State.swapClaim
  repeat' first
    | with_reducible assumption | intro _ | (extract_lets +onlyGivenNames u; clear_value u) | with_reducible apply ite_sound0
    | with_reducible apply State.swapGive_sound | with_reducible apply State.reclaim_sound
    | with_reducible refine State.setRed_sound _ ?_ rfl

theorem State.switchoverDecide_sound (s : State) (h0 : s.Sound) : State.Sound (State.switchoverDecide s) := by
  unfold State.switchoverDecide
  repeat' first
    | with_reducible assumption | intro _
    | (extract_lets +onlyGivenNames u; refine cut_goal (P := State.Sound u) ?_ fun _ => ?_; (on_goal 2 => clear_value u); (on_goal 1 => (unfold u; clear u)))
    | with_reducible apply ite_sound0 | with_reducible refine State.setRed_sound _ ?_ rfl
    | with_reducible apply State.reclaim_sound | with_reducible apply State.incOb_sound
    | with_reducible apply State.setRole_sound | with_reducible apply State.when_sound

theorem State.swapRetry_sound (s : State) (h0 : s.Sound) : State.Sound (State.swapRetry s) := by
  unfold State.swapRetry
  repeat' first
    | with_reducible assumption | intro _ | with_reducible apply ite_sound0 | with_reducible apply State.drill_sound

theorem State.holdoffEnd_sound (s : State) (h0 : s.Sound) : State.Sound (State.holdoffEnd s) := by
  unfold State.holdoffEnd
  repeat' first
    | with_reducible assumption | intro _ | with_reducible apply ite_sound0 | with_reducible refine State.setRed_sound _ ?_ rfl
    | with_reducible apply State.reachMono_sound | with_reducible apply State.drill_sound | simp only [State.sound_mk]
    | with_reducible apply State.Sound.out | dsimp only | split

theorem State.drillDue_sound (s : State) (h0 : s.Sound) : State.Sound (State.drillDue s) := by
  unfold State.drillDue
  repeat' first
    | with_reducible assumption | intro _ | with_reducible apply State.drill_sound | with_reducible apply State.drillArm_sound
    | with_reducible apply State.reachMono_sound | simp only [State.sound_mk] | with_reducible apply State.Sound.out
    | dsimp only | split

theorem State.passEnd_sound (s : State) (left : Nat) (h0 : s.Sound) : State.Sound (State.passEnd s left) := by
  unfold State.passEnd
  repeat' first
    | with_reducible assumption | intro _
    | (extract_lets +onlyGivenNames u; refine cut_goal (P := State.Sound u) ?_ fun _ => ?_; (on_goal 2 => clear_value u); (on_goal 1 => (unfold u; clear u)))
    | (extract_lets +onlyGivenNames u; clear_value u) | with_reducible apply ite_sound0
    | with_reducible refine State.setRed_sound _ ?_ rfl | with_reducible apply State.setRole_sound
    | with_reducible apply State.passSend_sound

theorem State.joinTide_sound (s : State) (tide64 : Nat) (h0 : s.Sound) : State.Sound (State.joinTide s tide64) := by
  unfold State.joinTide
  repeat' first
    | with_reducible assumption | intro _
    | (extract_lets +onlyGivenNames u; refine cut_goal (P := State.Sound u) ?_ fun _ => ?_; (on_goal 2 => clear_value u); (on_goal 1 => (unfold u; clear u)))
    | with_reducible apply State.setOb_sound | with_reducible apply State.setTds_sound
    | with_reducible apply State.setRole_sound | with_reducible refine State.setRed_sound _ ?_ rfl
    | with_reducible apply State.toTide_sound

theorem State.resyncData_sound (s : State) (x : Sys2Proof.Resync) (h0 : s.Sound) : State.Sound (State.resyncData s x) := by
  unfold State.resyncData
  repeat' first
    | with_reducible assumption | intro _ | (extract_lets +onlyGivenNames u; clear_value u) | with_reducible apply ite_sound0
    | with_reducible apply State.putBytes_sound | with_reducible apply State.setOb_sound
    | with_reducible apply State.setDom_sound | with_reducible apply State.retainForceTable_sound
    | with_reducible apply State.orphanRise_sound | with_reducible apply State.setImg_sound
    | with_reducible apply State.setOwner_sound | with_reducible apply State.modTask_sound
    | with_reducible apply State.joinTide_sound | simp only [State.sound_mk] | with_reducible apply State.Sound.out
    | dsimp only | split

theorem Wit.drive_single (w : Wit) : ¬ (w.drive.pairA = .valid ∧ w.drive.pairB = .valid) := by
  unfold Wit.drive
  cases w.holder <;> simp

theorem State.setWit_sound (s : State) (f : Wit → Wit) (h : s.Sound)
    (hf : ¬ ((f s.red.wit).pairA = .valid ∧ (f s.red.wit).pairB = .valid)) : State.Sound (s.setWit f) := by
  rw [State.sound_iff] at *
  exact ⟨h.1, hf⟩

theorem State.witEval_sound (s : State) (h0 : s.Sound) : State.Sound (State.witEval s) := by
  unfold State.witEval
  extract_lets w h u
  split
  · exact h0
  · split
    · exact h0
    · have hu : u.Sound := State.incOb_sound _ _ h0
      clear_value u
      split
      · exact State.setWit_sound _ _ hu (Wit.drive_single _)
      · exact State.setWit_sound _ _ hu (by simp)

theorem State.witStart_sound (s : State) (h0 : s.Sound) : State.Sound (State.witStart s) := by
  unfold State.witStart
  split
  · exact State.witEval_sound _ (State.setWit_sound _ _ h0 (Wit.drive_single _))
  · exact h0

theorem State.witDrive_sound (s : State) (h0 : s.Sound) : State.Sound (State.witDrive s) := by
  unfold State.witDrive
  split
  · exact State.setWit_sound _ _ h0 (Wit.drive_single _)
  · exact h0

theorem State.witFault_sound (s : State) (h0 : s.Sound) : State.Sound (State.witFault s) := by
  unfold State.witFault
  split
  · exact State.raise_sound _ _ _ _ _ _ _ (State.setWit_sound _ _ h0 (by simp))
  · exact h0

theorem State.witBoot_sound (s : State) (h0 : s.Sound) : State.Sound (State.witBoot s) := by
  unfold State.witBoot
  rw [State.sound_iff] at *
  repeat' split
  · exact ⟨h0.1, by simp [State.setRed, State.reset]⟩
  · exact ⟨h0.1, by simp [State.setRed, State.reset]⟩
  · exact h0

theorem State.bwXcheck_sound (s : State) (h0 : s.Sound) : State.Sound (State.bwXcheck s) := by
  unfold State.bwXcheck
  repeat' first
    | with_reducible assumption | intro _ | (extract_lets +onlyGivenNames u; clear_value u) | with_reducible apply ite_sound0
    | with_reducible apply State.each_sound | with_reducible apply State.raise_sound | with_reducible apply State.incOb_sound

theorem State.modCh_sound (s : State) (k : Nat) (f : Dma → Dma) (h0 : s.Sound) : State.Sound (State.modCh s k f) := h0.same rfl rfl

theorem State.dmaHalt_sound (s : State) (k code faddr dies : Nat) (h0 : s.Sound) : State.Sound (State.dmaHalt s k code faddr dies) := h0.same rfl rfl

theorem State.dmaBoundary_sound (s : State) (k : Nat) (h0 : s.Sound) : State.Sound (State.dmaBoundary s k) := h0.same rfl rfl

theorem State.stream_sound (k sw dw : Nat) (sstep dstep : Int) (count y6 : Nat) (y7 : State) (y8 : Stream) (h0 : y7.Sound) : State.Sound (State.stream k sw dw sstep dstep count y6 y7 y8).1 := by
  induction y6 generalizing y7 y8 with
  | zero => exact h0
  | succ f ih =>
    unfold State.stream
    split
    · exact h0
    · split
      · split
        · exact h0
        · extract_lets q
          clear_value q
          split
          · rename_i heq; exact sound_of_eq heq (State.fabricWrite_sound _ _ _ _ _ _ h0)
          · rename_i heq
            exact ih _ _ (State.addOb_sound _ _ _ (sound_of_eq heq (State.fabricWrite_sound _ _ _ _ _ _ h0)))
      · split
        · exact h0
        · split
          · exact h0
          · exact h0
          · exact ih _ _ (State.fabricCorr_sound _ _ _ _ h0)

theorem State.lostWrite_sound (s : State) (addr : Nat) (b : List Sys2Proof.Byte) (h0 : s.Sound) : State.Sound (State.lostWrite s addr b) := by
  unfold State.lostWrite
  repeat' first
    | with_reducible assumption | intro _ | (extract_lets +onlyGivenNames u; clear_value u) | with_reducible apply ite_sound0
    | with_reducible apply State.dataWrite_sound

theorem State.dmaTail_sound (k sw dw : Nat) (sstep dstep : Int) (count y6 : Nat) (y7 : State) (y8 : Stream) (h0 : y7.Sound) : State.Sound (State.dmaTail k sw dw sstep dstep count y6 y7 y8) := by
  induction y6 generalizing y7 y8 with
  | zero => exact h0
  | succ f ih =>
    unfold State.dmaTail
    split
    · split
      · exact h0
      · exact ih _ _ (State.addOb_sound _ _ _ (State.lostWrite_sound _ _ _ h0))
    · exact h0

theorem State.dmaMoveErr_sound (s : State) (k sw dw : Nat) (sstep dstep : Int) (count : Nat) (ins : List Sys2Proof.Byte) (y : Stream) (e : Nat × Nat × Nat) (h0 : s.Sound) : State.Sound (State.dmaMoveErr s k sw dw sstep dstep count ins y e) := by
  unfold State.dmaMoveErr
  repeat' first
    | with_reducible assumption | intro _
    | (extract_lets +onlyGivenNames u; refine cut_goal (P := State.Sound u) ?_ fun _ => ?_; (on_goal 2 => clear_value u); (on_goal 1 => (unfold u; clear u)))
    | with_reducible apply State.when_sound | with_reducible apply State.draw_sound | with_reducible apply State.dmaTail_sound
    | with_reducible apply State.dmaHalt_sound | with_reducible apply State.modCh_sound

theorem State.dmaMoveGo_sound (s : State) (k sw dw : Nat) (skeep dkeep : Bool) (count src dst : Nat) (sstep dstep : Int) (h0 : s.Sound) : State.Sound (State.dmaMoveGo s k sw dw skeep dkeep count src dst sstep dstep) := by
  unfold State.dmaMoveGo
  extract_lets ins
  clear_value ins
  have hs := State.stream_sound k sw dw sstep dstep count (2 * count + 2) s ((s.ch k).moveAt skeep dkeep count src dst) h0
  split
  · rename_i heq
    exact State.addOb_sound _ _ _ (State.modCh_sound _ _ _ (sound_of_eq heq hs))
  · rename_i heq
    exact State.dmaMoveErr_sound _ _ _ _ _ _ _ _ _ _ (sound_of_eq heq hs)

theorem State.dmaPart_sound (s : State) (k : Nat) (pause : Bool) (h0 : s.Sound) : State.Sound (State.dmaPart s k pause) := by
  unfold State.dmaPart
  split
  · split
    · extract_lets ins x u lim v
      have hv : v.Sound := State.draw_sound _ h0
      clear_value v lim u x ins
      split
      · exact hv
      · have hs := fun c k sw dw ss ds l => State.stream_sound k sw dw ss ds l c v x hv
        split
        · rename_i heq
          have ht := sound_of_eq heq (hs _ _ _ _ _ _ _)
          split
          · exact State.dmaMoveErr_sound _ _ _ _ _ _ _ _ _ _ ht
          · exact State.modCh_sound _ _ _ ht
        · rename_i heq
          exact State.modCh_sound _ _ _ (sound_of_eq heq (hs _ _ _ _ _ _ _))
    · exact h0
  · exact h0

theorem State.dmaIns_sound (s : State) (k : Nat) (f : DmaIns → Option State) (h : s.Sound)
    (hf : ∀ i t, f i = some t → t.Sound) : State.Sound (s.dmaIns k f) := by
  unfold State.dmaIns
  split
  · exact h
  · split
    · exact State.dmaHalt_sound _ _ _ _ _ h
    · split
      · exact State.dmaHalt_sound _ _ _ _ _ h
      · split
        · exact State.dmaHalt_sound _ _ _ _ _ h
        · split
          · rename_i heq; exact State.dmaBoundary_sound _ _ (hf _ _ heq)
          · exact h

theorem State.dmaMove_sound (s : State) (k : Nat) (h0 : s.Sound) : State.Sound (State.dmaMove s k) := by
  unfold State.dmaMove
  refine State.dmaIns_sound _ _ _ h0 (fun i t e => ?_)
  split at e
  · cases e; exact State.dmaMoveGo_sound _ _ _ _ _ _ _ _ _ _ _ h0
  · cases e

theorem State.dmaLoop_sound (s : State) (k : Nat) (h0 : s.Sound) : State.Sound (State.dmaLoop s k) := by
  unfold State.dmaLoop
  refine State.dmaIns_sound _ _ _ h0 (fun i t e => ?_)
  split at e
  · dsimp only at e
    split at e
    · cases e; exact State.dmaHalt_sound _ _ _ _ _ h0
    · cases e; exact State.setCh_sound _ _ _ h0
  · cases e

theorem State.dmaPass_sound (s : State) (k : Nat) (h0 : s.Sound) : State.Sound (State.dmaPass s k) := h0.same rfl rfl

theorem State.dmaTimeUp_sound (s : State) (k lim : Nat) (h0 : s.Sound) : State.Sound (State.dmaTimeUp s k lim) := by
  unfold State.dmaTimeUp
  repeat' first
    | with_reducible assumption | intro _ | with_reducible apply State.dmaHalt_sound
    | with_reducible apply State.reachMono_sound

theorem State.dmaExpire_sound (s : State) (k : Nat) (h0 : s.Sound) : State.Sound (State.dmaExpire s k) := by
  unfold State.dmaExpire
  repeat' first
    | with_reducible assumption | intro _ | with_reducible apply ite_sound0 | with_reducible apply State.dmaTimeUp_sound

theorem State.dmaExpireAll_sound (s : State) (kind arg : Nat) (h0 : s.Sound) : State.Sound (State.dmaExpireAll s kind arg) := by
  unfold State.dmaExpireAll
  repeat' first
    | with_reducible assumption | intro _ | with_reducible apply State.each_sound | with_reducible apply State.dmaExpire_sound

theorem State.dmaEvent_sound (s : State) (n : Nat) (h0 : s.Sound) : State.Sound (State.dmaEvent s n) := by
  unfold State.dmaEvent
  repeat' first
    | with_reducible assumption | intro _
    | (extract_lets +onlyGivenNames u; refine cut_goal (P := State.Sound u) ?_ fun _ => ?_; (on_goal 2 => clear_value u); (on_goal 1 => (unfold u; clear u)))
    | (extract_lets +onlyGivenNames u; clear_value u) | with_reducible apply ite_sound0
    | with_reducible apply State.dmaExpireAll_sound | with_reducible apply State.setOb_sound
    | with_reducible apply State.each_sound | with_reducible apply State.dmaPass_sound

theorem State.dmaPhase_sound (s : State) (arg : Nat) (h0 : s.Sound) : State.Sound (State.dmaPhase s arg) := by
  unfold State.dmaPhase
  repeat' first
    | with_reducible assumption | intro _
    | (extract_lets +onlyGivenNames u; refine cut_goal (P := State.Sound u) ?_ fun _ => ?_; (on_goal 2 => clear_value u); (on_goal 1 => (unfold u; clear u)))
    | with_reducible apply State.dmaExpireAll_sound | with_reducible apply State.each_sound
    | with_reducible apply State.dmaPass_sound

theorem State.dmaTakeFlag_sound (s : State) (k : Nat) (h0 : s.Sound) : State.Sound (State.dmaTakeFlag s k) := by
  unfold State.dmaTakeFlag
  repeat' first
    | with_reducible assumption | intro _ | with_reducible apply ite_sound0 | with_reducible apply State.dmaExpire_sound
    | with_reducible apply State.dmaPass_sound | with_reducible apply State.setOb_sound | simp only [State.sound_mk]
    | with_reducible apply State.Sound.out | dsimp only | split

theorem State.dmaEnterWait_sound (s : State) (k : Nat) (h0 : s.Sound) : State.Sound (State.dmaEnterWait s k) := by
  unfold State.dmaEnterWait
  repeat' first
    | with_reducible assumption | intro _ | (extract_lets +onlyGivenNames u; clear_value u)
    | with_reducible apply State.dmaTakeFlag_sound | with_reducible apply State.modCh_sound

theorem State.dmaWait_sound (s : State) (k : Nat) (h0 : s.Sound) : State.Sound (State.dmaWait s k) := by
  unfold State.dmaWait
  refine State.dmaIns_sound _ _ _ h0 (fun i t e => ?_)
  split at e
  · cases e; exact State.dmaEnterWait_sound _ _ h0
  · cases e

theorem State.dmaTimeWait_sound (s : State) (k lim until_ : Nat) (h0 : s.Sound) : State.Sound (State.dmaTimeWait s k lim until_) := by
  unfold State.dmaTimeWait
  repeat' first
    | with_reducible assumption | intro _ | with_reducible apply ite_sound0 | with_reducible apply State.dmaTimeUp_sound
    | with_reducible apply State.dmaPass_sound | with_reducible apply State.reach_sound

theorem State.dmaWaitRelease_sound (s : State) (k : Nat) (h0 : s.Sound) : State.Sound (State.dmaWaitRelease s k) := by
  unfold State.dmaWaitRelease
  repeat' first
    | with_reducible assumption | intro _ | with_reducible apply ite_sound0 | with_reducible apply State.dmaTimeWait_sound
    | with_reducible apply State.dmaTakeFlag_sound | simp only [State.sound_mk] | with_reducible apply State.Sound.out
    | dsimp only | split

theorem State.dmaWaitTimeout_sound (s : State) (k : Nat) (h0 : s.Sound) : State.Sound (State.dmaWaitTimeout s k) := by
  unfold State.dmaWaitTimeout
  repeat' first
    | with_reducible assumption | intro _ | with_reducible apply ite_sound0 | with_reducible apply State.dmaTimeWait_sound
    | with_reducible apply State.dmaTimeUp_sound | simp only [State.sound_mk] | with_reducible apply State.Sound.out
    | dsimp only | split

theorem State.dmaFin_sound (s : State) (k : Nat) (want : DmaIns → Bool) (h0 : s.Sound) : State.Sound (State.dmaFin s k want) := by
  unfold State.dmaFin
  refine State.dmaIns_sound _ _ _ h0 (fun i t e => ?_)
  split at e
  · cases e; exact State.modCh_sound _ _ _ h0
  · cases e

theorem State.dmaLinkLost_sound (s : State) (die : Nat) (h0 : s.Sound) : State.Sound (State.dmaLinkLost s die) := by
  unfold State.dmaLinkLost
  repeat' first
    | with_reducible assumption | intro _ | with_reducible apply State.each_sound | with_reducible apply State.dmaHalt_sound

theorem State.dmaReadback_sound (s : State) (k : Nat) (h0 : s.Sound) : State.Sound (State.dmaReadback s k) := by
  unfold State.dmaReadback
  repeat' first
    | with_reducible assumption | intro _
    | (extract_lets +onlyGivenNames u; refine cut_goal (P := State.Sound u) ?_ fun _ => ?_; (on_goal 2 => clear_value u); (on_goal 1 => (unfold u; clear u)))
    | (extract_lets +onlyGivenNames u; clear_value u) | with_reducible apply ite_sound0
    | with_reducible apply State.setCh_sound | with_reducible apply State.when_sound
    | with_reducible apply State.dmaEvent_sound | with_reducible apply State.fire_sound | simp only [State.sound_mk]
    | with_reducible apply State.Sound.out | dsimp only | split

theorem State.dmaStart_sound (s : State) (k ses : Nat) (h0 : s.Sound) : State.Sound (State.dmaStart s k ses) := h0.same rfl rfl

theorem State.dmaStop_sound (s : State) (k : Nat) (h0 : s.Sound) : State.Sound (State.dmaStop s k) := by
  unfold State.dmaStop
  repeat' first
    | with_reducible assumption | intro _
    | (extract_lets +onlyGivenNames u; refine cut_goal (P := State.Sound u) ?_ fun _ => ?_; (on_goal 2 => clear_value u); (on_goal 1 => (unfold u; clear u)))
    | (extract_lets +onlyGivenNames u; clear_value u) | with_reducible apply ite_sound0 | with_reducible apply State.when_sound
    | with_reducible apply State.draw_sound | with_reducible apply State.modCh_sound

theorem State.dmaPause_sound (s : State) (k : Nat) (h0 : s.Sound) : State.Sound (State.dmaPause s k) := h0.same rfl rfl

theorem State.dmaDrained_sound (s : State) (k : Nat) (h0 : s.Sound) : State.Sound (State.dmaDrained s k) := by
  unfold State.dmaDrained
  repeat' first
    | with_reducible assumption | intro _
    | (extract_lets +onlyGivenNames u; refine cut_goal (P := State.Sound u) ?_ fun _ => ?_; (on_goal 2 => clear_value u); (on_goal 1 => (unfold u; clear u)))
    | with_reducible apply ite_sound0 | with_reducible apply State.dmaReadback_sound | with_reducible apply State.dmaPart_sound
    | with_reducible apply State.modCh_sound

theorem State.dmaResume_sound (s : State) (k : Nat) (h0 : s.Sound) : State.Sound (State.dmaResume s k) := by
  unfold State.dmaResume
  repeat' first
    | with_reducible assumption | intro _
    | (extract_lets +onlyGivenNames u; refine cut_goal (P := State.Sound u) ?_ fun _ => ?_; (on_goal 2 => clear_value u); (on_goal 1 => (unfold u; clear u)))
    | (extract_lets +onlyGivenNames u; clear_value u) | with_reducible apply ite_sound0
    | with_reducible apply State.setCh_sound | with_reducible apply State.dmaEnterWait_sound
    | with_reducible apply State.dmaTakeFlag_sound

theorem State.dmaAbort_sound (s : State) (k : Nat) (h0 : s.Sound) : State.Sound (State.dmaAbort s k) := by
  unfold State.dmaAbort
  repeat' first
    | with_reducible assumption | intro _ | with_reducible apply ite_sound0 | with_reducible apply State.modCh_sound
    | with_reducible apply State.dmaPart_sound

theorem State.dmaCmd_sound (s : State) (k ses v : Nat) (h0 : s.Sound) : State.Sound (State.dmaCmd s k ses v) := by
  unfold State.dmaCmd
  repeat' first
    | with_reducible assumption | intro _ | with_reducible apply State.dmaExpire_sound
    | with_reducible apply State.dmaStart_sound | with_reducible apply State.dmaStop_sound
    | with_reducible apply State.dmaPause_sound | with_reducible apply State.dmaResume_sound
    | with_reducible apply State.dmaAbort_sound | with_reducible apply State.modCh_sound | simp only [State.sound_mk]
    | with_reducible apply State.Sound.out | dsimp only | split

theorem State.dmaPdPause_sound (s : State) (dom : Nat) (h0 : s.Sound) : State.Sound (State.dmaPdPause s dom) := by
  unfold State.dmaPdPause
  repeat' first
    | with_reducible assumption | intro _ | with_reducible apply State.each_sound | with_reducible apply State.modCh_sound

theorem State.dmaPdRefuse_sound (s : State) (dom : Nat) (h0 : s.Sound) : State.Sound (State.dmaPdRefuse s dom) := by
  unfold State.dmaPdRefuse
  repeat' first
    | with_reducible assumption | intro _
    | (extract_lets +onlyGivenNames u; refine cut_goal (P := State.Sound u) ?_ fun _ => ?_; (on_goal 2 => clear_value u); (on_goal 1 => (unfold u; clear u)))
    | with_reducible apply ite_sound0 | with_reducible apply State.each_sound | with_reducible apply State.modCh_sound
    | with_reducible apply State.incOb_sound

end Sys2Proof.Machine
end

