-- ==== Sys2Proof/Laws/SoundSystem.lean ====
section
/-! SUPPORT. Each operation of online change, resets, starts, observation and supervision keeps memory canonical, and the
Lighthouse from driving VALID to both partners. -/

namespace Sys2Proof.Machine

set_option Elab.async false

theorem State.setOlc_sound (s : State) (f : Olc → Olc) (h0 : s.Sound) : State.Sound (State.setOlc s f) := h0.same rfl rfl

theorem State.setResult_sound (s : State) (n key st reason dies : Nat) (h0 : s.Sound) : State.Sound (State.setResult s n key st reason dies) := h0.same rfl rfl

theorem State.olcResult_sound (s : State) (st reason detail dies : Nat) (h0 : s.Sound) : State.Sound (State.olcResult s st reason detail dies) := h0.same rfl rfl

theorem State.olcLoad_sound (s : State) (h0 : s.Sound) : State.Sound (State.olcLoad s) := by
  unfold State.olcLoad
  repeat' first
    | with_reducible assumption | intro _
    | (extract_lets +onlyGivenNames u; refine cut_goal (P := State.Sound u) ?_ fun _ => ?_; (on_goal 2 => clear_value u); (on_goal 1 => (unfold u; clear u)))
    | with_reducible apply State.each_sound | with_reducible apply State.clearMem_sound
    | with_reducible apply State.setDom_sound | with_reducible apply State.setOlc_sound

theorem State.imageClose_sound (s : State) (b : List (Nat × Sys2Proof.Byte)) (h0 : s.Sound) : State.Sound (State.imageClose s b).1 := by
  unfold State.imageClose
  extract_lets put first s1 lim dir s2 rest hd s3 done bad
  have hp : ∀ (g : List Byte) (u : State) (e : Nat × Byte), u.Sound → State.Sound (put g u e) := by
    intro g u e hu
    unfold put
    extract_lets v
    refine State.setOlc_sound _ _ ?_
    unfold v
    split
    · exact State.setByte_sound _ _ hu
    · exact hu
  clear_value put
  have h1 : s1.Sound := State.foldl_sound _ _ (fun u x hu => hp _ _ _ hu) h0
  clear_value s1
  have h2 : s2.Sound := State.foldl_sound _ _ (fun u x hu => hp _ _ _ hu) h1
  clear_value s2
  have h3 : s3.Sound := State.foldl_sound _ _ (fun u x hu => hp _ _ _ hu) h2
  clear_value s3 bad
  split
  · exact h2
  · split
    · dsimp only
      split
      · exact State.olcResult_sound _ _ _ _ _ h3
      · exact h3
    · exact h0

theorem State.placed_sound (s : State) (im : List Sys2Proof.Byte) (h0 : s.Sound) : State.Sound (State.placed s im) := by
  unfold State.placed
  repeat' first
    | with_reducible assumption | intro _ | with_reducible apply State.setOlc_sound
    | with_reducible apply State.applyTables_sound

theorem State.verifyDone_sound (s : State) (h0 : s.Sound) : State.Sound (State.verifyDone s) := by
  unfold State.verifyDone
  repeat' first
    | with_reducible assumption | intro _
    | (extract_lets +onlyGivenNames u; refine cut_goal (P := State.Sound u) ?_ fun _ => ?_; (on_goal 2 => clear_value u); (on_goal 1 => (unfold u; clear u)))
    | (extract_lets +onlyGivenNames u; clear_value u) | with_reducible apply ite_sound0
    | with_reducible apply State.setDom_sound | with_reducible apply State.setOlc_sound
    | with_reducible apply State.olcResult_sound

theorem State.askVotes_sound (s : State) (ses : Option Nat) (partner : Bool) (h0 : s.Sound) : State.Sound (State.askVotes s ses partner) := by
  unfold State.askVotes
  repeat' first
    | with_reducible assumption | intro _ | with_reducible apply ite_sound0 | with_reducible apply State.when_sound
    | with_reducible apply State.setOlc_sound | with_reducible apply State.moorSend_sound

theorem State.prepareEnd_sound (s : State) (h0 : s.Sound) : State.Sound (State.prepareEnd s) := by
  unfold State.prepareEnd
  repeat' first
    | with_reducible assumption | intro _
    | (extract_lets +onlyGivenNames u; refine cut_goal (P := State.Sound u) ?_ fun _ => ?_; (on_goal 2 => clear_value u); (on_goal 1 => (unfold u; clear u)))
    | (extract_lets +onlyGivenNames u; clear_value u) | with_reducible apply ite_sound0 | with_reducible apply State.when_sound
    | with_reducible apply State.moorSend_sound | with_reducible apply State.setOlc_sound
    | with_reducible apply State.olcResult_sound | with_reducible apply State.setResult_sound
    | with_reducible apply State.foldl_sound | simp only [State.sound_mk] | with_reducible apply State.Sound.out | dsimp only
    | split

theorem State.prepareTake_sound (s : State) (die k : Nat) (h0 : s.Sound) : State.Sound (State.prepareTake s die k) := by
  unfold State.prepareTake
  repeat' first
    | with_reducible assumption | intro _
    | (extract_lets +onlyGivenNames u; refine cut_goal (P := State.Sound u) ?_ fun _ => ?_; (on_goal 2 => clear_value u); (on_goal 1 => (unfold u; clear u)))
    | with_reducible apply ite_sound0 | with_reducible apply State.setOlc_sound | with_reducible apply State.prepareEnd_sound

theorem State.prepareVote_sound (s : State) (die : Nat) (yes : Bool) (h0 : s.Sound) : State.Sound (State.prepareVote s die yes) := by
  unfold State.prepareVote
  repeat' first
    | with_reducible assumption | intro _ | with_reducible apply ite_sound0 | with_reducible apply State.setOlc_sound
    | with_reducible apply State.prepareTake_sound

theorem State.partnerPrepare_sound (s : State) (hash : List Sys2Proof.Byte) (h0 : s.Sound) : State.Sound (State.partnerPrepare s hash) := by
  unfold State.partnerPrepare
  repeat' first
    | with_reducible assumption | intro _ | with_reducible apply ite_sound0 | with_reducible apply State.askVotes_sound
    | with_reducible apply State.setOlc_sound | with_reducible apply State.moorSend_sound

theorem State.commitPoint_sound (s : State) (h0 : s.Sound) : State.Sound (State.commitPoint s) := by
  unfold State.commitPoint
  repeat' first
    | with_reducible assumption | intro _ | with_reducible apply State.when_sound | with_reducible apply State.setOb_sound
    | with_reducible apply State.setOlc_sound | with_reducible apply State.moorSend_sound

theorem State.beginCommit_sound (s : State) (back : Bool) (h0 : s.Sound) : State.Sound (State.beginCommit s back) := by
  unfold State.beginCommit
  repeat' first
    | with_reducible assumption | intro _
    | (extract_lets +onlyGivenNames u; refine cut_goal (P := State.Sound u) ?_ fun _ => ?_; (on_goal 2 => clear_value u); (on_goal 1 => (unfold u; clear u)))
    | (extract_lets +onlyGivenNames u; clear_value u) | with_reducible apply ite_sound0
    | with_reducible apply State.setOb_sound | with_reducible apply State.setOlc_sound
    | with_reducible apply State.olcResult_sound | with_reducible apply State.commitPoint_sound

theorem State.cutTest_sound (s : State) (h0 : s.Sound) : State.Sound (State.cutTest s) := by
  unfold State.cutTest
  repeat' first
    | with_reducible assumption | intro _
    | (extract_lets +onlyGivenNames u; refine cut_goal (P := State.Sound u) ?_ fun _ => ?_; (on_goal 2 => clear_value u); (on_goal 1 => (unfold u; clear u)))
    | (extract_lets +onlyGivenNames u; clear_value u) | with_reducible apply ite_sound0
    | with_reducible apply State.setOlc_sound | with_reducible apply State.setTds_sound
    | with_reducible apply State.moorSend_sound | with_reducible apply State.commitPoint_sound

theorem State.passCut_sound (s : State) (h0 : s.Sound) : State.Sound (State.passCut s) := by
  unfold State.passCut
  repeat' first
    | with_reducible assumption | intro _ | with_reducible apply State.releaseHeld_sound
    | with_reducible apply State.setOlc_sound

theorem State.noQuiesce_sound (s : State) (h0 : s.Sound) : State.Sound (State.noQuiesce s) := by
  unfold State.noQuiesce
  repeat' first
    | with_reducible assumption | intro _ | with_reducible apply ite_sound0 | with_reducible apply State.setOlc_sound
    | with_reducible apply State.olcResult_sound

theorem State.standbyVote_sound (s : State) (t : Nat) (yes : Bool) (h0 : s.Sound) : State.Sound (State.standbyVote s t yes) := by
  unfold State.standbyVote
  repeat' first
    | with_reducible assumption | intro _ | with_reducible apply ite_sound0 | with_reducible apply State.commitPoint_sound
    | with_reducible apply State.passCut_sound

theorem State.standbyLate_sound (s : State) (h0 : s.Sound) : State.Sound (State.standbyLate s) := by
  unfold State.standbyLate
  repeat' first
    | with_reducible assumption | intro _ | with_reducible apply ite_sound0 | with_reducible apply State.incOb_sound
    | with_reducible apply State.passCut_sound

theorem State.cutTide_sound (s : State) (t : Nat) (h0 : s.Sound) : State.Sound (State.cutTide s t) := by
  unfold State.cutTide
  repeat' first
    | with_reducible assumption | intro _ | with_reducible apply ite_sound0 | with_reducible apply State.moorSend_sound
    | with_reducible apply State.setTds_sound | with_reducible apply State.setOlc_sound

theorem State.partnerToken_sound (s : State) (t : Nat) (h0 : s.Sound) : State.Sound (State.partnerToken s t) := by
  unfold State.partnerToken
  repeat' first
    | with_reducible assumption | intro _ | with_reducible apply ite_sound0 | with_reducible apply State.commitPoint_sound
    | with_reducible apply State.setOlc_sound

theorem State.tokenMissing_sound (s : State) (h0 : s.Sound) : State.Sound (State.tokenMissing s) := by
  unfold State.tokenMissing
  repeat' first
    | with_reducible assumption | intro _
    | (extract_lets +onlyGivenNames u; refine cut_goal (P := State.Sound u) ?_ fun _ => ?_; (on_goal 2 => clear_value u); (on_goal 1 => (unfold u; clear u)))
    | with_reducible apply ite_sound0 | with_reducible apply State.setTds_sound | with_reducible apply State.setOlc_sound
    | with_reducible apply State.toUnsynced_sound | with_reducible apply State.divergence_sound
    | with_reducible apply State.startResync_sound

theorem State.partnerDiscard_sound (s : State) (h0 : s.Sound) : State.Sound (State.partnerDiscard s) := by
  unfold State.partnerDiscard
  repeat' first
    | with_reducible assumption | intro _ | with_reducible apply ite_sound0 | with_reducible apply State.releaseHeld_sound
    | with_reducible apply State.setOlc_sound

theorem State.bankSwitch_sound (s : State) (n : Nat) (h0 : s.Sound) : State.Sound (State.bankSwitch s n) := by
  unfold State.bankSwitch
  repeat' first
    | with_reducible assumption | intro _
    | (extract_lets +onlyGivenNames u; refine cut_goal (P := State.Sound u) ?_ fun _ => ?_; (on_goal 2 => clear_value u); (on_goal 1 => (unfold u; clear u)))
    | (extract_lets +onlyGivenNames u; clear_value u) | with_reducible apply ite_sound0
    | with_reducible apply State.setOlc_sound | with_reducible apply State.each_sound
    | with_reducible apply State.setCore_sound

theorem State.strandLost_sound (s : State) (n : Nat) (h0 : s.Sound) : State.Sound (State.strandLost s n) := h0.same rfl rfl

theorem State.moveHalt_sound (s : State) (e : CopyErr) (l : List Nat) (h0 : s.Sound) : State.Sound (State.moveHalt s e l) := by
  unfold State.moveHalt
  repeat' first
    | with_reducible assumption | intro _ | (extract_lets +onlyGivenNames u; clear_value u) | with_reducible apply ite_sound0
    | with_reducible apply State.each_sound | with_reducible apply State.chanHalt_sound
    | with_reducible apply State.strandLost_sound

theorem State.moveOne_sound (im : List Sys2Proof.Byte) (s : State) (e : MapEntry) (h0 : s.Sound) : State.Sound (State.moveOne im s e) := by
  unfold State.moveOne
  repeat' first
    | with_reducible assumption | intro _
    | (extract_lets +onlyGivenNames u; refine cut_goal (P := State.Sound u) ?_ fun _ => ?_; (on_goal 2 => clear_value u); (on_goal 1 => (unfold u; clear u)))
    | (extract_lets +onlyGivenNames u; refine cut_goal (P := State.Sound u.1) ?_ fun _ => ?_; (on_goal 2 => clear_value u); (on_goal 1 => (unfold u; clear u)))
    | with_reducible apply_assumption | with_reducible apply ite_sound0 | with_reducible apply State.mapMove_sound
    | with_reducible apply State.moveHalt_sound | with_reducible apply State.seqStop_sound
    | with_reducible apply State.each_sound | with_reducible apply State.strandCorr_sound
    | with_reducible apply State.seqMove_sound | simp only [State.sound_mk] | with_reducible apply State.Sound.out | dsimp only
    | with_reducible refine sound_of_eq (by assumption) ?_ | split

theorem State.relocMove_sound (s : State) (e : Nat × Nat) (h0 : s.Sound) : State.Sound (State.relocMove s e) := by
  unfold State.relocMove
  repeat' first
    | with_reducible assumption | intro _
    | (extract_lets +onlyGivenNames u; refine cut_goal (P := State.Sound u.1) ?_ fun _ => ?_; (on_goal 2 => clear_value u); (on_goal 1 => (unfold u; clear u)))
    | with_reducible apply_assumption | with_reducible apply ite_sound0 | with_reducible apply State.moveHalt_sound
    | with_reducible apply State.seqStop_sound | with_reducible apply State.relocOne_sound
    | with_reducible apply State.fabricCorr_sound | with_reducible apply State.seqMove_sound | simp only [State.sound_mk]
    | with_reducible apply State.Sound.out | dsimp only | with_reducible refine sound_of_eq (by assumption) ?_ | split

theorem State.olcMoves_sound (s : State) (h0 : s.Sound) : State.Sound (State.olcMoves s) := by
  unfold State.olcMoves
  repeat' first
    | with_reducible assumption | intro _
    | (extract_lets +onlyGivenNames u; refine cut_goal (P := State.Sound u) ?_ fun _ => ?_; (on_goal 2 => clear_value u); (on_goal 1 => (unfold u; clear u)))
    | (extract_lets +onlyGivenNames u; clear_value u) | with_reducible apply State.each_sound
    | with_reducible apply State.seqBegin_sound | with_reducible apply State.finishApply_sound
    | with_reducible apply State.moveOne_sound | with_reducible apply State.relocMove_sound
    | with_reducible apply State.setOlc_sound | with_reducible apply State.seqEnd_sound

theorem State.confirmCheck_sound (s : State) (h0 : s.Sound) : State.Sound (State.confirmCheck s) := by
  unfold State.confirmCheck
  repeat' first
    | with_reducible assumption | intro _ | with_reducible apply ite_sound0 | with_reducible apply State.olcMoves_sound

theorem State.bankConfirm_sound (s : State) (n : Nat) (h0 : s.Sound) : State.Sound (State.bankConfirm s n) := by
  unfold State.bankConfirm
  repeat' first
    | with_reducible assumption | intro _ | with_reducible apply ite_sound0 | with_reducible apply State.confirmCheck_sound
    | with_reducible apply State.setOlc_sound

theorem State.confirmLost_sound (s : State) (n : Nat) (h0 : s.Sound) : State.Sound (State.confirmLost s n) := by
  unfold State.confirmLost
  repeat' first
    | with_reducible assumption | intro _ | with_reducible apply ite_sound0 | with_reducible apply State.confirmCheck_sound
    | with_reducible apply State.strandLost_sound

theorem State.tasksAnew_sound (s : State) (h0 : s.Sound) : State.Sound (State.tasksAnew s) := by
  unfold State.tasksAnew
  repeat' first
    | with_reducible assumption | intro _
    | (extract_lets +onlyGivenNames u; refine cut_goal (P := State.Sound u) ?_ fun _ => ?_; (on_goal 2 => clear_value u); (on_goal 1 => (unfold u; clear u)))
    | (extract_lets +onlyGivenNames u; clear_value u) | with_reducible apply ite_sound0 | with_reducible apply State.each_sound
    | with_reducible apply State.modCtx_sound | with_reducible apply State.setTask_sound

theorem State.disableLost_sound (s : State) (h0 : s.Sound) : State.Sound (State.disableLost s) := by
  unfold State.disableLost
  repeat' first
    | with_reducible assumption | intro _ | (extract_lets +onlyGivenNames u; clear_value u)
    | with_reducible apply State.setOlc_sound | with_reducible apply State.each_sound
    | with_reducible apply State.modTask_sound

theorem State.tablesForward_sound (s : State) (im : List Sys2Proof.Byte) (map : List MapEntry) (h0 : s.Sound) : State.Sound (State.tablesForward s im map) := by
  unfold State.tablesForward
  repeat' first
    | with_reducible assumption | intro _
    | (extract_lets +onlyGivenNames u; refine cut_goal (P := State.Sound u) ?_ fun _ => ?_; (on_goal 2 => clear_value u); (on_goal 1 => (unfold u; clear u)))
    | (extract_lets +onlyGivenNames u; clear_value u) | with_reducible apply State.applyTables_sound
    | with_reducible apply State.keepTables_sound | with_reducible apply State.setOlc_sound
    | with_reducible apply State.setDom_sound | with_reducible apply State.devRecord_sound | simp only [State.sound_mk]
    | with_reducible apply State.Sound.out

theorem State.tablesBack_sound (s : State) (h0 : s.Sound) : State.Sound (State.tablesBack s) := by
  unfold State.tablesBack
  repeat' first
    | with_reducible assumption | intro _
    | (extract_lets +onlyGivenNames u; refine cut_goal (P := State.Sound u) ?_ fun _ => ?_; (on_goal 2 => clear_value u); (on_goal 1 => (unfold u; clear u)))
    | (extract_lets +onlyGivenNames u; clear_value u) | with_reducible apply State.setDom_sound
    | with_reducible apply State.restoreTables_sound | with_reducible apply State.setOlc_sound
    | with_reducible apply State.devRecord_sound | simp only [State.sound_mk] | with_reducible apply State.Sound.out

theorem State.olcFinish_sound (s : State) (im : List Sys2Proof.Byte) (map : List MapEntry) (back : Bool) (h0 : s.Sound) : State.Sound (State.olcFinish s im map back) := h0.same rfl rfl

theorem State.olcComplete_sound (s : State) (h0 : s.Sound) : State.Sound (State.olcComplete s) := by
  unfold State.olcComplete
  repeat' first
    | with_reducible assumption | intro _
    | (extract_lets +onlyGivenNames u; refine cut_goal (P := State.Sound u) ?_ fun _ => ?_; (on_goal 2 => clear_value u); (on_goal 1 => (unfold u; clear u)))
    | (extract_lets +onlyGivenNames u; clear_value u) | with_reducible apply ite_sound0
    | with_reducible apply State.tablesBack_sound | with_reducible apply State.tablesForward_sound
    | with_reducible apply State.orphanAll_sound | with_reducible apply State.disableLost_sound
    | with_reducible apply State.tasksAnew_sound | with_reducible apply State.releaseHeld_sound
    | with_reducible apply State.olcFinish_sound | with_reducible apply State.incOb_sound

theorem State.edgeInitsOf_sound (s : State) (t : Nat) (h0 : s.Sound) : State.Sound (State.edgeInitsOf s t) := by
  unfold State.edgeInitsOf
  repeat' first
    | with_reducible assumption | intro _ | (extract_lets +onlyGivenNames u; clear_value u) | with_reducible apply ite_sound0
    | with_reducible apply State.setOlc_sound | with_reducible apply State.each_sound
    | with_reducible apply State.edgeInit_sound

theorem State.askerAborted_sound (s : State) (h0 : s.Sound) : State.Sound (State.askerAborted s) := by
  unfold State.askerAborted
  repeat' first
    | with_reducible assumption | intro _ | with_reducible apply State.setResult_sound | simp only [State.sound_mk]
    | with_reducible apply State.Sound.out | dsimp only | split

theorem State.olcAbort_sound (s : State) (h0 : s.Sound) : State.Sound (State.olcAbort s) := by
  unfold State.olcAbort
  repeat' first
    | with_reducible assumption | intro _ | with_reducible apply ite_sound0 | with_reducible apply State.setOlc_sound
    | with_reducible apply State.when_sound | with_reducible apply State.releaseHeld_sound
    | with_reducible apply State.olcResult_sound | with_reducible apply State.askerAborted_sound
    | with_reducible apply State.moorSend_sound

theorem State.olcRelease_sound (s : State) (h0 : s.Sound) : State.Sound (State.olcRelease s) := h0.same rfl rfl

theorem State.olcCmd_sound (s : State) (ses v : Nat) (h0 : s.Sound) : State.Sound (State.olcCmd s ses v) := by
  unfold State.olcCmd
  repeat' first
    | with_reducible assumption | intro _ | with_reducible apply State.olcLoad_sound
    | with_reducible apply State.olcResult_sound | with_reducible apply State.setOlc_sound
    | with_reducible apply State.askVotes_sound | with_reducible apply State.beginCommit_sound
    | with_reducible apply State.olcAbort_sound | with_reducible apply State.olcRelease_sound | simp only [State.sound_mk]
    | with_reducible apply State.Sound.out | dsimp only | split

theorem State.olcRefused_sound (s : State) (v : Nat) (h0 : s.Sound) : State.Sound (State.olcRefused s v) := by
  unfold State.olcRefused
  repeat' first
    | with_reducible assumption | intro _
    | (extract_lets +onlyGivenNames u; refine cut_goal (P := State.Sound u) ?_ fun _ => ?_; (on_goal 2 => clear_value u); (on_goal 1 => (unfold u; clear u)))
    | (extract_lets +onlyGivenNames u; clear_value u) | with_reducible apply ite_sound0
    | with_reducible apply State.setOb_sound | with_reducible apply State.olcResult_sound

theorem State.setPwr_sound (s : State) (f : Pwr → Pwr) (h0 : s.Sound) : State.Sound (State.setPwr s f) := h0.same rfl rfl

theorem State.dropObjs_sound (s : State) (gone : Nat → Bool) (h0 : s.Sound) : State.Sound (State.dropObjs s gone) := h0.same rfl rfl

theorem State.clearStrand_sound (s : State) (n : Nat) (h0 : s.Sound) : State.Sound (State.clearStrand s n) := by
  rw [State.sound_iff] at *
  exact ⟨mwf_filter _ h0.1, h0.2⟩

theorem State.domClear_sound (s : State) (d : Nat) (h0 : s.Sound) : State.Sound (State.domClear s d) := by
  unfold State.domClear
  extract_lets u
  have hu : u.Sound := State.dropObjs_sound _ _ h0
  clear_value u
  repeat' split
  · exact State.clearStrand_sound _ _ hu
  · exact hu.same rfl rfl
  · rw [State.sound_iff] at *
    exact ⟨mwf_filter _ hu.1, hu.2⟩
  · rw [State.sound_iff] at *
    exact ⟨hu.1, by simp [State.reset]⟩
  · exact hu.same rfl rfl
  · exact hu.same rfl rfl
  · exact hu.same rfl rfl
  · exact hu

theorem State.rebuilt_sound (s : State) (h0 : s.Sound) : State.Sound (State.rebuilt s) := by
  rw [State.sound_iff] at *
  exact ⟨mwf_filter _ h0.1, by simp [State.rebuilt, State.reset]⟩

theorem State.packageReset_sound (s : State) (cause : Nat) (h0 : s.Sound) : State.Sound (State.packageReset s cause) := by
  unfold State.packageReset
  repeat' first
    | with_reducible assumption | intro _ | with_reducible apply ite_sound0 | with_reducible apply State.setOb_sound
    | with_reducible apply State.incOb_sound | with_reducible apply State.duesAnew_sound
    | with_reducible apply State.rebuilt_sound | with_reducible apply State.finishApply_sound

theorem State.powerUpAO_sound (s : State) (h0 : s.Sound) : State.Sound (State.powerUpAO s) := by
  have hr := State.rebuilt_sound _ (State.finishApply_sound _ h0)
  rw [State.sound_iff] at *
  exact ⟨mwf_filter _ hr.1, hr.2⟩

theorem State.setPwrReason_sound (s : State) (d r : Nat) (h0 : s.Sound) : State.Sound (State.setPwrReason s d r) := h0.same rfl rfl

theorem State.offRefused_sound (s : State) (d : Nat) (h0 : s.Sound) : State.Sound (State.offRefused s d) := h0.same rfl rfl

theorem State.domCmd_sound (s : State) (d v : Nat) (h0 : s.Sound) : State.Sound (State.domCmd s d v) := by
  unfold State.domCmd
  repeat' first
    | with_reducible assumption | intro _ | with_reducible apply ite_sound0 | with_reducible apply State.setDomSt_sound
    | with_reducible apply State.dmaPdPause_sound | simp only [State.sound_mk] | with_reducible apply State.Sound.out
    | dsimp only | split

theorem State.pdDrained_sound (s : State) (d : Nat) (h0 : s.Sound) : State.Sound (State.pdDrained s d) := by
  unfold State.pdDrained
  repeat' first
    | with_reducible assumption | intro _ | with_reducible apply ite_sound0 | with_reducible apply State.domClear_sound
    | with_reducible apply State.setDomSt_sound

theorem State.pdTimeout_sound (s : State) (d : Nat) (h0 : s.Sound) : State.Sound (State.pdTimeout s d) := by
  unfold State.pdTimeout
  repeat' first
    | with_reducible assumption | intro _ | with_reducible apply ite_sound0 | with_reducible apply State.reachMono_sound | with_reducible apply State.incOb_sound
    | with_reducible apply State.setPwrReason_sound | with_reducible apply State.setDomSt_sound
    | with_reducible apply State.dmaPdRefuse_sound

theorem State.domOff_sound (s : State) (d : Nat) (h0 : s.Sound) : State.Sound (State.domOff s d) := by
  unfold State.domOff
  repeat' first
    | with_reducible assumption | intro _ | with_reducible apply ite_sound0 | with_reducible apply State.reachMono_sound | with_reducible apply State.setDomSt_sound

theorem State.domOnDone_sound (s : State) (d : Nat) (h0 : s.Sound) : State.Sound (State.domOnDone s d) := by
  unfold State.domOnDone
  repeat' first
    | with_reducible assumption | intro _
    | (extract_lets +onlyGivenNames u; refine cut_goal (P := State.Sound u) ?_ fun _ => ?_; (on_goal 2 => clear_value u); (on_goal 1 => (unfold u; clear u)))
    | with_reducible apply ite_sound0 | with_reducible apply State.reachMono_sound | with_reducible apply State.setDomSt_sound | with_reducible apply State.setPwr_sound
    | with_reducible apply State.setFio_sound

theorem State.sleep_sound (s : State) (h0 : s.Sound) : State.Sound (State.sleep s) := by
  unfold State.sleep
  extract_lets a b order d r
  have ha : a.Sound := State.fioPark_sound _ h0
  clear_value a
  have hb : b.Sound := State.when_sound _ _ ha (State.fieldPark_sound _ ha)
  clear_value b
  have hd : d.Sound := State.each_sound _ _ hb (fun u x hu => State.setDomSt_sound _ _ _ (State.domClear_sound _ _ (State.finishApply_sound _ hu)))
  clear_value d
  have hr : r.Sound := State.rebuilt_sound _ hd
  clear_value r
  refine State.duesAnew_sound _ ?_
  rw [State.sound_iff] at *
  exact ⟨mwf_filter _ hr.1, hd.2⟩

theorem State.wakeUp_sound (s : State) (h0 : s.Sound) : State.Sound (State.wakeUp s) := by
  unfold State.wakeUp
  repeat' first
    | with_reducible assumption | intro _ | with_reducible apply ite_sound0 | with_reducible apply State.packageReset_sound

theorem State.setStr_sound (s : State) (f : Str → Str) (h0 : s.Sound) : State.Sound (State.setStr s f) := h0.same rfl rfl

theorem State.readStartCfg_sound (s : State) (h0 : s.Sound) : State.Sound (State.readStartCfg s) := h0.same rfl rfl

theorem State.retain_sound (s : State) (key : Nat) (h0 : s.Sound) : State.Sound (State.retain s key) := by
  unfold State.retain
  repeat' first
    | with_reducible assumption | intro _ | with_reducible apply ite_sound0 | with_reducible apply State.devRecord_sound
    | with_reducible apply State.setStr_sound

theorem State.retainDom_sound (s : State) (key : Nat) (h0 : s.Sound) : State.Sound (State.retainDom s key) := by
  unfold State.retainDom
  repeat' first
    | with_reducible assumption | intro _ | with_reducible apply ite_sound0 | with_reducible apply State.devRecord_sound
    | with_reducible apply State.setStr_sound

theorem State.keepOb_sound (s : State) (key v : Nat) (h0 : s.Sound) : State.Sound (State.keepOb s key v) := by
  unfold State.keepOb
  repeat' first
    | with_reducible assumption | intro _ | with_reducible apply State.retain_sound | with_reducible apply State.setOb_sound

theorem State.modAttempt_sound (s : State) (f : Attempt → Attempt) (h0 : s.Sound) : State.Sound (State.modAttempt s f) := by
  unfold State.modAttempt
  repeat' first
    | with_reducible assumption | intro _ | with_reducible apply State.setStr_sound
    | with_reducible apply State.devRecord_sound

theorem State.atStep_sound (s : State) (n : Nat) (h0 : s.Sound) : State.Sound (State.atStep s n) := by
  unfold State.atStep
  repeat' first
    | with_reducible assumption | intro _ | with_reducible apply State.modAttempt_sound
    | with_reducible apply State.setStr_sound

theorem State.serviceStop_sound (s : State) (h0 : s.Sound) : State.Sound (State.serviceStop s) := by
  unfold State.serviceStop
  repeat' first
    | with_reducible assumption | intro _
    | (extract_lets +onlyGivenNames u; refine cut_goal (P := State.Sound u) ?_ fun _ => ?_; (on_goal 2 => clear_value u); (on_goal 1 => (unfold u; clear u)))
    | (extract_lets +onlyGivenNames u; clear_value u) | with_reducible apply State.toTide_sound
    | with_reducible apply State.each_sound | with_reducible apply State.modCtx_sound | simp only [State.sound_mk]
    | with_reducible apply State.Sound.out

theorem State.toService_sound (s : State) (reason : Nat) (h0 : s.Sound) : State.Sound (State.toService s reason) := by
  unfold State.toService
  repeat' first
    | with_reducible assumption | intro _ | with_reducible apply State.serviceStop_sound
    | with_reducible apply State.modAttempt_sound | with_reducible apply State.setStr_sound

theorem State.startPower_sound (s : State) (h0 : s.Sound) : State.Sound (State.startPower s) := by
  unfold State.startPower
  repeat' first
    | with_reducible assumption | intro _
    | (extract_lets +onlyGivenNames u; refine cut_goal (P := State.Sound u) ?_ fun _ => ?_; (on_goal 2 => clear_value u); (on_goal 1 => (unfold u; clear u)))
    | with_reducible apply State.setPwr_sound | with_reducible apply State.setStr_sound
    | with_reducible apply State.witBoot_sound | with_reducible apply State.readStartCfg_sound
    | with_reducible apply State.recoverJournal_sound

theorem State.startRecord_sound (s : State) (typ : Nat) (h0 : s.Sound) : State.Sound (State.startRecord s typ) := by
  unfold State.startRecord
  repeat' first
    | with_reducible assumption | intro _
    | (extract_lets +onlyGivenNames u; refine cut_goal (P := State.Sound u) ?_ fun _ => ?_; (on_goal 2 => clear_value u); (on_goal 1 => (unfold u; clear u)))
    | with_reducible apply ite_sound0 | with_reducible apply State.devRecord_sound | with_reducible apply State.setOb_sound
    | with_reducible apply State.incOb_sound | with_reducible apply State.setStr_sound

theorem State.startLimit_sound (s : State) (h0 : s.Sound) : State.Sound (State.startLimit s) := by
  unfold State.startLimit
  repeat' first
    | with_reducible assumption | intro _ | with_reducible apply ite_sound0 | with_reducible apply State.modAttempt_sound
    | with_reducible apply State.setStr_sound | with_reducible apply State.toService_sound

theorem State.placeImage_sound (s : State) (b : List Sys2Proof.Byte) (h0 : s.Sound) : State.Sound (State.placeImage s b) := by
  unfold State.placeImage
  repeat' first
    | with_reducible assumption | intro _
    | (extract_lets +onlyGivenNames u; refine cut_goal (P := State.Sound u) ?_ fun _ => ?_; (on_goal 2 => clear_value u); (on_goal 1 => (unfold u; clear u)))
    | (extract_lets +onlyGivenNames u; clear_value u) | with_reducible apply ite_sound0 | with_reducible apply State.each_sound
    | with_reducible apply State.putBytes_sound | with_reducible apply State.clearMem_sound
    | with_reducible apply State.setOlc_sound | with_reducible apply State.foldl_sound

theorem State.releaseKeeper_sound (s : State) (h0 : s.Sound) : State.Sound (State.releaseKeeper s) := by
  unfold State.releaseKeeper
  repeat' first
    | with_reducible assumption | intro _ | (extract_lets +onlyGivenNames u; clear_value u)
    | with_reducible apply State.setStr_sound | with_reducible apply State.resched_sound
    | with_reducible apply State.setCtx_sound

theorem State.startImage_sound (s : State) (h0 : s.Sound) : State.Sound (State.startImage s) := by
  unfold State.startImage
  repeat' first
    | with_reducible assumption | intro _
    | (extract_lets +onlyGivenNames u; refine cut_goal (P := State.Sound u) ?_ fun _ => ?_; (on_goal 2 => clear_value u); (on_goal 1 => (unfold u; clear u)))
    | (extract_lets +onlyGivenNames u; clear_value u) | with_reducible apply ite_sound0
    | with_reducible apply State.atStep_sound | with_reducible apply State.setOb_sound | with_reducible apply State.addOb_sound
    | with_reducible apply State.when_sound | with_reducible apply State.placeImage_sound
    | with_reducible apply State.toService_sound | with_reducible apply State.setDom_sound
    | with_reducible apply State.devRecord_sound | with_reducible apply State.modAttempt_sound
    | with_reducible apply State.applyTables_sound | with_reducible apply State.setOlc_sound
    | with_reducible apply State.releaseKeeper_sound

theorem State.initCells_sound (s : State) (b : List Sys2Proof.Byte) (n : Nat) (h0 : s.Sound) : State.Sound (State.initCells s b n) := by
  unfold State.initCells
  repeat' first
    | with_reducible assumption | intro _ | (extract_lets +onlyGivenNames u; clear_value u) | with_reducible apply ite_sound0
    | with_reducible apply State.each_sound | with_reducible apply State.clearMem_sound
    | with_reducible apply State.putBytes_sound

theorem State.warmCell_sound (s : State) (a mode : Nat) (h0 : s.Sound) : State.Sound (State.warmCell s a mode) := by
  unfold State.warmCell
  repeat' first
    | with_reducible assumption | intro _ | (extract_lets +onlyGivenNames u; clear_value u) | with_reducible apply ite_sound0
    | with_reducible apply State.setCell_sound

theorem State.restoreTimers_sound (s : State) (n : Nat) (h0 : s.Sound) : State.Sound (State.restoreTimers s n) := by
  unfold State.restoreTimers
  repeat' first
    | with_reducible assumption | intro _
    | (extract_lets +onlyGivenNames u; refine cut_goal (P := State.Sound u) ?_ fun _ => ?_; (on_goal 2 => clear_value u); (on_goal 1 => (unfold u; clear u)))
    | (extract_lets +onlyGivenNames u; clear_value u) | with_reducible apply ite_sound0 | with_reducible apply State.blit_sound
    | with_reducible apply State.each_sound | with_reducible apply State.warmCell_sound

theorem State.startEdges_sound (s : State) (warm : Bool) (h0 : s.Sound) : State.Sound (State.startEdges s warm) := h0.same rfl rfl

theorem State.retainWarm_sound (s : State) (h0 : s.Sound) : State.Sound (State.retainWarm s) := by
  unfold State.retainWarm
  repeat' first
    | with_reducible assumption | intro _
    | (extract_lets +onlyGivenNames u; refine cut_goal (P := State.Sound u) ?_ fun _ => ?_; (on_goal 2 => clear_value u); (on_goal 1 => (unfold u; clear u)))
    | with_reducible apply State.each_sound | with_reducible apply State.setOb_sound | with_reducible apply State.setDom_sound
    | with_reducible apply State.setImg_sound | with_reducible apply State.startEdges_sound
    | with_reducible apply State.restoreTimers_sound | with_reducible apply State.initCells_sound | simp only [State.sound_mk]
    | with_reducible apply State.Sound.out

theorem State.retainCold_sound (s : State) (h0 : s.Sound) : State.Sound (State.retainCold s) := by
  unfold State.retainCold
  repeat' first
    | with_reducible assumption | intro _
    | (extract_lets +onlyGivenNames u; refine cut_goal (P := State.Sound u) ?_ fun _ => ?_; (on_goal 2 => clear_value u); (on_goal 1 => (unfold u; clear u)))
    | with_reducible apply State.setImg_sound | with_reducible apply State.startEdges_sound
    | with_reducible apply State.each_sound | with_reducible apply State.initCells_sound
    | with_reducible apply State.setStr_sound | simp only [State.sound_mk] | with_reducible apply State.Sound.out

theorem State.startRetain_sound (s : State) (h0 : s.Sound) : State.Sound (State.startRetain s) := by
  unfold State.startRetain
  repeat' first
    | with_reducible assumption | intro _
    | (extract_lets +onlyGivenNames u; refine cut_goal (P := State.Sound u) ?_ fun _ => ?_; (on_goal 2 => clear_value u); (on_goal 1 => (unfold u; clear u)))
    | with_reducible apply ite_sound0 | with_reducible apply State.atStep_sound | with_reducible apply State.retainCold_sound
    | with_reducible apply State.retainWarm_sound | with_reducible apply State.modAttempt_sound
    | with_reducible apply State.setStr_sound | with_reducible apply State.toService_sound

theorem State.startTide_sound (s : State) (h0 : s.Sound) : State.Sound (State.startTide s) := by
  unfold State.startTide
  repeat' first
    | with_reducible assumption | intro _
    | (extract_lets +onlyGivenNames u; refine cut_goal (P := State.Sound u) ?_ fun _ => ?_; (on_goal 2 => clear_value u); (on_goal 1 => (unfold u; clear u)))
    | with_reducible apply ite_sound0 | with_reducible apply State.atStep_sound | with_reducible apply State.fioOverlap_sound
    | with_reducible apply State.tideStart_sound | with_reducible apply State.setOb_sound

theorem State.startPair_sound (s : State) (h0 : s.Sound) : State.Sound (State.startPair s) := by
  unfold State.startPair
  repeat' first
    | with_reducible assumption | intro _ | with_reducible apply ite_sound0 | with_reducible apply State.startTide_sound

theorem State.startJoin_sound (s : State) (h0 : s.Sound) : State.Sound (State.startJoin s) := by
  unfold State.startJoin
  repeat' first
    | with_reducible assumption | intro _
    | (extract_lets +onlyGivenNames u; refine cut_goal (P := State.Sound u) ?_ fun _ => ?_; (on_goal 2 => clear_value u); (on_goal 1 => (unfold u; clear u)))
    | with_reducible apply ite_sound0 | with_reducible apply State.atStep_sound | with_reducible apply State.startPair_sound
    | with_reducible apply State.drillArm_sound | with_reducible apply State.joinGrant_sound
    | with_reducible apply State.when_sound | with_reducible apply State.setRole_sound
    | with_reducible apply State.startTide_sound

theorem State.startGoOn_sound (s : State) (h0 : s.Sound) : State.Sound (State.startGoOn s) := by
  unfold State.startGoOn
  repeat' first
    | with_reducible assumption | intro _
    | (extract_lets +onlyGivenNames u; refine cut_goal (P := State.Sound u) ?_ fun _ => ?_; (on_goal 2 => clear_value u); (on_goal 1 => (unfold u; clear u)))
    | with_reducible apply ite_sound0 | with_reducible apply State.startRetain_sound
    | with_reducible apply State.startJoin_sound

theorem State.startRun_sound (s : State) (cold : Bool) (h0 : s.Sound) : State.Sound (State.startRun s cold) := by
  unfold State.startRun
  repeat' first
    | with_reducible assumption | intro _
    | (extract_lets +onlyGivenNames u; refine cut_goal (P := State.Sound u) ?_ fun _ => ?_; (on_goal 2 => clear_value u); (on_goal 1 => (unfold u; clear u)))
    | with_reducible apply ite_sound0 | with_reducible apply State.startPower_sound
    | with_reducible apply State.startLimit_sound | with_reducible apply State.startRecord_sound
    | with_reducible apply State.atStep_sound | with_reducible apply State.toService_sound
    | with_reducible apply State.startImage_sound | with_reducible apply State.startGoOn_sound

theorem State.timeLocked_sound (s : State) (h0 : s.Sound) : State.Sound (State.timeLocked s) := by
  unfold State.timeLocked
  repeat' first
    | with_reducible assumption | intro _ | with_reducible apply ite_sound0 | with_reducible apply State.startGoOn_sound

theorem State.timeExpired_sound (s : State) (h0 : s.Sound) : State.Sound (State.timeExpired s) := by
  unfold State.timeExpired
  repeat' first
    | with_reducible assumption | intro _ | with_reducible apply ite_sound0 | with_reducible apply State.startGoOn_sound
    | with_reducible apply State.setStr_sound | with_reducible apply State.toService_sound

theorem State.startConfirm_sound (s : State) (h0 : s.Sound) : State.Sound (State.startConfirm s) := by
  unfold State.startConfirm
  repeat' first
    | with_reducible assumption | intro _ | with_reducible apply ite_sound0 | with_reducible apply State.modAttempt_sound
    | with_reducible apply State.reachMono_sound

theorem State.stopAll_sound (s : State) (h0 : s.Sound) : State.Sound (State.stopAll s) := h0.same rfl rfl

theorem State.strCmd_sound (s : State) (v : Nat) (h0 : s.Sound) : State.Sound (State.strCmd s v) := by
  unfold State.strCmd
  repeat' first
    | with_reducible assumption | intro _ | with_reducible apply ite_sound0 | with_reducible apply State.setStr_sound
    | with_reducible apply State.startRun_sound | with_reducible apply State.stopAll_sound | simp only [State.sound_mk]
    | with_reducible apply State.Sound.out | dsimp only | split

theorem State.provision_sound (s : State) (b : List Sys2Proof.Byte) (h0 : s.Sound) : State.Sound (State.provision s b) := h0.same rfl rfl

theorem State.bwWindow_sound (s : State) (v : Nat) (h0 : s.Sound) : State.Sound (State.bwWindow s v) := h0.same rfl rfl

theorem State.strataRead_sound (s : State) (n : Nat) (h0 : s.Sound) : State.Sound (State.strataRead s n).1 := by
  unfold State.strataRead
  repeat' first
    | with_reducible assumption | intro _ | (extract_lets +onlyGivenNames u; clear_value u) | with_reducible apply_assumption
    | with_reducible apply State.setSes_sound | with_reducible apply State.setResult_sound | with_reducible apply foldl_sound1
    | simp only [State.sound_mk] | with_reducible apply State.Sound.out | dsimp only | split

theorem State.setSta_sound (s : State) (f : Sta2 → Sta2) (h0 : s.Sound) : State.Sound (State.setSta s f) := h0.same rfl rfl

theorem State.strataFreeze_sound (s : State) (h0 : s.Sound) : State.Sound (State.strataFreeze s) := h0.same rfl rfl

theorem State.strataThaw_sound (s : State) (h0 : s.Sound) : State.Sound (State.strataThaw s) := by
  unfold State.strataThaw
  repeat' first
    | with_reducible assumption | intro _ | with_reducible apply ite_sound0 | with_reducible apply State.setSta_sound

theorem State.freezeEnd_sound (s : State) (h0 : s.Sound) : State.Sound (State.freezeEnd s) := by
  unfold State.freezeEnd
  repeat' first
    | with_reducible assumption | intro _ | with_reducible apply ite_sound0 | with_reducible apply State.setSta_sound
    | with_reducible apply State.strataThaw_sound | with_reducible apply State.reachMono_sound

theorem State.setSnp_sound (s : State) (f : Snp → Snp) (h0 : s.Sound) : State.Sound (State.setSnp s f) := h0.same rfl rfl

theorem State.setSnap_sound (s : State) (b : Nat) (x : Option Snap) (h0 : s.Sound) : State.Sound (State.setSnap s b x) := h0.same rfl rfl

theorem State.putSnap_sound (s : State) (b : Nat) (x : Snap) (h0 : s.Sound) : State.Sound (State.putSnap s b x) := by
  unfold State.putSnap
  repeat' first
    | with_reducible assumption | intro _ | with_reducible apply State.sramWrite_sound
    | with_reducible apply State.setSnap_sound

theorem State.tidemarkStart_sound (s : State) (source cls fold : Nat) (h0 : s.Sound) : State.Sound (State.tidemarkStart s source cls fold) := by
  unfold State.tidemarkStart
  repeat' first
    | with_reducible assumption | intro _
    | (extract_lets +onlyGivenNames u; refine cut_goal (P := State.Sound u) ?_ fun _ => ?_; (on_goal 2 => clear_value u); (on_goal 1 => (unfold u; clear u)))
    | (extract_lets +onlyGivenNames u; clear_value u) | with_reducible apply State.incOb_sound
    | with_reducible apply State.setOb_sound | with_reducible apply State.setSnp_sound
    | with_reducible apply State.putSnap_sound

theorem State.tidemark_sound (s : State) (source cls fold : Nat) (h0 : s.Sound) : State.Sound (State.tidemark s source cls fold) := by
  unfold State.tidemark
  repeat' first
    | with_reducible assumption | intro _
    | (extract_lets +onlyGivenNames u; refine cut_goal (P := State.Sound u) ?_ fun _ => ?_; (on_goal 2 => clear_value u); (on_goal 1 => (unfold u; clear u)))
    | with_reducible apply ite_sound0 | with_reducible apply State.incOb_sound | with_reducible apply State.putSnap_sound
    | with_reducible apply State.tidemarkStart_sound | simp only [State.sound_mk] | with_reducible apply State.Sound.out
    | dsimp only | split

theorem State.snapCheck_sound (s : State) (b : Nat) (h0 : s.Sound) : State.Sound (State.snapCheck s b) := by
  unfold State.snapCheck
  repeat' first
    | with_reducible assumption | intro _ | with_reducible apply ite_sound0 | with_reducible apply State.setSnp_sound
    | with_reducible apply State.putSnap_sound | with_reducible apply State.when_sound | with_reducible apply State.incOb_sound
    | simp only [State.sound_mk] | with_reducible apply State.Sound.out | dsimp only | split

theorem State.tidemarkAck_sound (s : State) (die : Nat) (h0 : s.Sound) : State.Sound (State.tidemarkAck s die) := by
  unfold State.tidemarkAck
  repeat' first
    | with_reducible assumption | intro _ | with_reducible apply ite_sound0 | with_reducible apply State.snapCheck_sound
    | with_reducible apply State.putSnap_sound | simp only [State.sound_mk] | with_reducible apply State.Sound.out | dsimp only
    | split

theorem State.tidemarkLost_sound (s : State) (die : Nat) (h0 : s.Sound) : State.Sound (State.tidemarkLost s die) := by
  unfold State.tidemarkLost
  repeat' first
    | with_reducible assumption | intro _ | with_reducible apply ite_sound0 | with_reducible apply State.snapCheck_sound
    | with_reducible apply State.putSnap_sound | with_reducible apply State.raise_sound | simp only [State.sound_mk]
    | with_reducible apply State.Sound.out | dsimp only | split

theorem State.sectionIn_sound (s : State) (die island : Nat) (content : List Sys2Proof.Byte) (h0 : s.Sound) : State.Sound (State.sectionIn s die island content) := by
  unfold State.sectionIn
  repeat' first
    | with_reducible assumption | intro _ | with_reducible apply ite_sound0 | with_reducible apply State.putSnap_sound
    | simp only [State.sound_mk] | with_reducible apply State.Sound.out | dsimp only | split

theorem State.freeBuf_sound (s : State) (b : Nat) (h0 : s.Sound) : State.Sound (State.freeBuf s b) := by
  unfold State.freeBuf
  repeat' first
    | with_reducible assumption | intro _ | with_reducible apply ite_sound0 | with_reducible apply State.setSnap_sound
    | simp only [State.sound_mk] | with_reducible apply State.Sound.out | dsimp only | split

theorem State.snpRelease_sound (s : State) (n : Nat) (h0 : s.Sound) : State.Sound (State.snpRelease s n) := by
  unfold State.snpRelease
  repeat' first
    | with_reducible assumption | intro _ | with_reducible apply State.freeBuf_sound | simp only [State.sound_mk]
    | with_reducible apply State.Sound.out | dsimp only | split

theorem State.snpReleaseAll_sound (s : State) (h0 : s.Sound) : State.Sound (State.snpReleaseAll s) := by
  unfold State.snpReleaseAll
  repeat' first
    | with_reducible assumption | intro _ | with_reducible apply State.each_sound | with_reducible apply State.freeBuf_sound

theorem State.snpAt_sound (s : State) (h0 : s.Sound) : State.Sound (State.snpAt s) := by
  unfold State.snpAt
  repeat' first
    | with_reducible assumption | intro _
    | (extract_lets +onlyGivenNames u; refine cut_goal (P := State.Sound u) ?_ fun _ => ?_; (on_goal 2 => clear_value u); (on_goal 1 => (unfold u; clear u)))
    | (extract_lets +onlyGivenNames u; clear_value u) | with_reducible apply ite_sound0
    | with_reducible apply State.reach_sound | with_reducible apply State.tidemark_sound
    | with_reducible apply State.setOb_sound

theorem State.setHlt_sound (s : State) (f : Hlt → Hlt) (h0 : s.Sound) : State.Sound (State.setHlt s f) := h0.same rfl rfl

theorem State.temps_sound (s : State) (l : List Int) (h0 : s.Sound) : State.Sound (State.temps s l) := by
  unfold State.temps
  repeat' first
    | with_reducible assumption | intro _ | with_reducible apply State.each_sound | with_reducible apply State.sample_sound
    | with_reducible apply State.setOb_sound

theorem State.agesMeasured_sound (s : State) (l : List Nat) (h0 : s.Sound) : State.Sound (State.agesMeasured s l) := by
  unfold State.agesMeasured
  repeat' first
    | with_reducible assumption | intro _ | with_reducible apply State.each_sound | with_reducible apply State.keepOb_sound

theorem State.lifeDay_sound (s : State) (h0 : s.Sound) : State.Sound (State.lifeDay s) := by
  unfold State.lifeDay
  repeat' first
    | with_reducible assumption | intro _
    | (extract_lets +onlyGivenNames u; refine cut_goal (P := State.Sound u) ?_ fun _ => ?_; (on_goal 2 => clear_value u); (on_goal 1 => (unfold u; clear u)))
    | with_reducible apply State.each_sound | with_reducible apply State.setHlt_sound | with_reducible apply State.sample_sound

theorem State.testRefused_sound (s : State) (v : Nat) (h0 : s.Sound) : State.Sound (State.testRefused s v) := h0.same rfl rfl

theorem State.testStart_sound (s : State) (v : Nat) (h0 : s.Sound) : State.Sound (State.testStart s v) := h0.same rfl rfl

theorem State.testEnd_sound (s : State) (r : Nat) (h0 : s.Sound) : State.Sound (State.testEnd s r) := by
  unfold State.testEnd
  repeat' first
    | with_reducible assumption | intro _ | (extract_lets +onlyGivenNames u; clear_value u)
    | with_reducible apply State.sample_sound | with_reducible apply State.incOb_sound
    | with_reducible apply State.setHlt_sound

theorem State.scrubbed_sound (s : State) (die slice : Nat) (h0 : s.Sound) : State.Sound (State.scrubbed s die slice) := by
  unfold State.scrubbed
  repeat' first
    | with_reducible assumption | intro _
    | (extract_lets +onlyGivenNames u; refine cut_goal (P := State.Sound u) ?_ fun _ => ?_; (on_goal 2 => clear_value u); (on_goal 1 => (unfold u; clear u)))
    | (extract_lets +onlyGivenNames u; clear_value u) | with_reducible apply ite_sound0
    | with_reducible apply State.addOb_sound | simp only [State.sound_mk] | with_reducible apply State.Sound.out

theorem State.sliceDo_sound (s : State) (h0 : s.Sound) : State.Sound (State.sliceDo s) := by
  unfold State.sliceDo
  repeat' first
    | with_reducible assumption | intro _ | (extract_lets +onlyGivenNames u; clear_value u)
    | with_reducible apply State.scrubbed_sound | with_reducible apply State.eccClear_sound
    | with_reducible apply State.clearMem_sound | simp only [State.sound_mk] | with_reducible apply State.Sound.out
    | dsimp only | split

theorem State.testSlice_sound (s : State) (failAt : Option Nat) (h0 : s.Sound) : State.Sound (State.testSlice s failAt) := by
  unfold State.testSlice
  repeat' first
    | with_reducible assumption | intro _
    | (extract_lets +onlyGivenNames u; refine cut_goal (P := State.Sound u) ?_ fun _ => ?_; (on_goal 2 => clear_value u); (on_goal 1 => (unfold u; clear u)))
    | (extract_lets +onlyGivenNames u; clear_value u) | with_reducible apply ite_sound0
    | with_reducible apply State.testEnd_sound | with_reducible apply State.sliceDo_sound
    | with_reducible apply State.when_sound | with_reducible apply State.setOb_sound
    | with_reducible apply State.clearMem_sound | with_reducible apply State.setHlt_sound | simp only [State.sound_mk]
    | with_reducible apply State.Sound.out | dsimp only | split

theorem State.wdgRestart_sound (s : State) (n : Nat) (h0 : s.Sound) : State.Sound (State.wdgRestart s n) := h0.same rfl rfl

theorem State.wdgLast_sound (s : State) (n e : Nat) (h0 : s.Sound) : State.Sound (State.wdgLast s n e) := h0.same rfl rfl

theorem State.assertOut_sound (s : State) (h0 : s.Sound) : State.Sound (State.assertOut s) := h0.same rfl rfl

theorem State.coreReset_sound (s : State) (c : Nat) (h0 : s.Sound) : State.Sound (State.coreReset s c) := by
  unfold State.coreReset
  repeat' first
    | with_reducible assumption | intro _
    | (extract_lets +onlyGivenNames u; refine cut_goal (P := State.Sound u) ?_ fun _ => ?_; (on_goal 2 => clear_value u); (on_goal 1 => (unfold u; clear u)))
    | (extract_lets +onlyGivenNames u; clear_value u) | with_reducible apply State.setCore_sound
    | with_reducible apply State.each_sound | with_reducible apply State.modCtx_sound
    | with_reducible apply State.taskHalt_sound

theorem State.islandBack_sound (s : State) (n : Nat) (h0 : s.Sound) : State.Sound (State.islandBack s n) := by
  unfold State.islandBack
  repeat' first
    | with_reducible assumption | intro _ | (extract_lets +onlyGivenNames u; clear_value u) | with_reducible apply ite_sound0
    | with_reducible apply State.raiseSt_sound | with_reducible apply State.setWd_sound

theorem State.wdgAct_sound (s : State) (n : Nat) (h0 : s.Sound) : State.Sound (State.wdgAct s n) := by
  unfold State.wdgAct
  repeat' first
    | with_reducible assumption | intro _ | with_reducible apply ite_sound0 | with_reducible apply State.assertOut_sound
    | with_reducible apply State.islandBack_sound | with_reducible apply State.packageReset_sound
    | with_reducible apply State.coreReset_sound | simp only [State.sound_mk] | with_reducible apply State.Sound.out
    | dsimp only | split

theorem State.wdgExpire_sound (s : State) (n : Nat) (h0 : s.Sound) : State.Sound (State.wdgExpire s n) := by
  unfold State.wdgExpire
  repeat' first
    | with_reducible assumption | intro _
    | (extract_lets +onlyGivenNames u; refine cut_goal (P := State.Sound u) ?_ fun _ => ?_; (on_goal 2 => clear_value u); (on_goal 1 => (unfold u; clear u)))
    | with_reducible apply State.incOb_sound | with_reducible apply State.raise_sound | with_reducible apply State.wdgAct_sound
    | with_reducible apply State.wdgLast_sound | with_reducible apply State.wdgRestart_sound

theorem State.wdgDue_sound (s : State) (n : Nat) (h0 : s.Sound) : State.Sound (State.wdgDue s n) := by
  unfold State.wdgDue
  repeat' first
    | with_reducible assumption | intro _ | with_reducible apply ite_sound0 | with_reducible apply State.wdgExpire_sound
    | with_reducible apply State.reachMono_sound

theorem State.wdgViolation_sound (s : State) (n k : Nat) (h0 : s.Sound) : State.Sound (State.wdgViolation s n k) := by
  unfold State.wdgViolation
  repeat' first
    | with_reducible assumption | intro _
    | (extract_lets +onlyGivenNames u; refine cut_goal (P := State.Sound u) ?_ fun _ => ?_; (on_goal 2 => clear_value u); (on_goal 1 => (unfold u; clear u)))
    | with_reducible apply ite_sound0 | with_reducible apply State.incOb_sound | with_reducible apply State.wdgLast_sound
    | with_reducible apply State.raise_sound | with_reducible apply State.wdgAct_sound
    | with_reducible apply State.wdgRestart_sound

theorem State.wdgKey_sound (s : State) (n v : Nat) (h0 : s.Sound) : State.Sound (State.wdgKey s n v) := by
  unfold State.wdgKey
  repeat' first
    | with_reducible assumption | intro _
    | (extract_lets +onlyGivenNames u; refine cut_goal (P := State.Sound u) ?_ fun _ => ?_; (on_goal 2 => clear_value u); (on_goal 1 => (unfold u; clear u)))
    | with_reducible apply ite_sound0 | with_reducible apply State.wdgViolation_sound
    | with_reducible apply State.wdgLast_sound | with_reducible apply State.wdgRestart_sound
    | with_reducible apply State.incOb_sound | with_reducible apply State.wdgExpire_sound
    | with_reducible apply State.raise_sound

theorem State.wdgCfgApply_sound (s : State) (n : Nat) (period : Bool) (v : Nat) (h0 : s.Sound) : State.Sound (State.wdgCfgApply s n period v) := by
  unfold State.wdgCfgApply
  repeat' first
    | with_reducible assumption | intro _
    | (extract_lets +onlyGivenNames u; refine cut_goal (P := State.Sound u) ?_ fun _ => ?_; (on_goal 2 => clear_value u); (on_goal 1 => (unfold u; clear u)))
    | (extract_lets +onlyGivenNames u; clear_value u) | with_reducible apply ite_sound0
    | with_reducible apply State.setOb_sound | with_reducible apply State.wdgRestart_sound

theorem State.clockLost_sound (s : State) (k : Nat) (h0 : s.Sound) : State.Sound (State.clockLost s k) := by
  unfold State.clockLost
  repeat' first
    | with_reducible assumption | intro _
    | (extract_lets +onlyGivenNames u; refine cut_goal (P := State.Sound u) ?_ fun _ => ?_; (on_goal 2 => clear_value u); (on_goal 1 => (unfold u; clear u)))
    | (extract_lets +onlyGivenNames u; clear_value u) | with_reducible apply ite_sound0
    | with_reducible apply State.setWd_sound | with_reducible apply State.wdgExpire_sound
    | with_reducible apply State.raiseSt_sound | with_reducible apply State.reclaim_sound
    | with_reducible apply State.setPwr_sound

theorem State.clockBack_sound (s : State) (k : Nat) (h0 : s.Sound) : State.Sound (State.clockBack s k) := by
  unfold State.clockBack
  repeat' first
    | with_reducible assumption | intro _ | with_reducible apply ite_sound0 | with_reducible apply State.islandBack_sound
    | with_reducible apply State.reclaim_sound | with_reducible apply State.raiseSt_sound
    | with_reducible apply State.setPwr_sound

theorem State.setChk_sound (s : State) (f : Chk → Chk) (h0 : s.Sound) : State.Sound (State.setChk s f) := h0.same rfl rfl

theorem State.chkPeriodSet_sound (s : State) (t v : Nat) (h0 : s.Sound) : State.Sound (State.chkPeriodSet s t v) := h0.same rfl rfl

theorem State.chkJudge_sound (s : State) (l : List Nat) (h0 : s.Sound) : State.Sound (State.chkJudge s l) := by
  unfold State.chkJudge
  repeat' first
    | with_reducible assumption | intro _
    | (extract_lets +onlyGivenNames u; refine cut_goal (P := State.Sound u) ?_ fun _ => ?_; (on_goal 2 => clear_value u); (on_goal 1 => (unfold u; clear u)))
    | (extract_lets +onlyGivenNames u; clear_value u) | with_reducible apply ite_sound0 | with_reducible apply State.each_sound
    | with_reducible apply State.incOb_sound | with_reducible apply State.addOb_sound | with_reducible apply State.raise_sound
    | with_reducible apply State.setDom_sound

theorem State.chkEnd_sound (s : State) (h0 : s.Sound) : State.Sound (State.chkEnd s) := by
  unfold State.chkEnd
  repeat' first
    | with_reducible assumption | intro _ | with_reducible apply ite_sound0 | with_reducible apply State.reachUs_sound
    | with_reducible apply State.chkJudge_sound | with_reducible apply State.each_sound
    | with_reducible apply State.setChk_sound | simp only [State.sound_mk] | with_reducible apply State.Sound.out | dsimp only
    | split

theorem State.chkPast_sound (s : State) (h0 : s.Sound) : State.Sound (State.chkPast s) := by
  unfold State.chkPast
  repeat' first
    | with_reducible assumption | intro _ | with_reducible apply ite_sound0 | with_reducible apply State.each_sound
    | with_reducible apply State.chkEnd_sound | simp only [State.sound_mk] | with_reducible apply State.Sound.out | dsimp only
    | split

theorem State.checkIn_sound (s : State) (t : Nat) (h0 : s.Sound) : State.Sound (State.checkIn s t) := by
  unfold State.checkIn
  repeat' first
    | with_reducible assumption | intro _ | with_reducible apply ite_sound0 | with_reducible apply State.incOb_sound
    | with_reducible apply State.setChk_sound | with_reducible apply State.chkPast_sound

theorem State.setFlt_sound (s : State) (f : Flt → Flt) (h0 : s.Sound) : State.Sound (State.setFlt s f) := h0.same rfl rfl

theorem State.putFold_sound (s : State) (f : Fold) (h0 : s.Sound) : State.Sound (State.putFold s f) := h0.same rfl rfl

theorem State.foldEnd_sound (s : State) (f : Fold) (early : Bool) (h0 : s.Sound) : State.Sound (State.foldEnd s f early) := by
  unfold State.foldEnd
  repeat' first
    | with_reducible assumption | intro _
    | (extract_lets +onlyGivenNames u; refine cut_goal (P := State.Sound u) ?_ fun _ => ?_; (on_goal 2 => clear_value u); (on_goal 1 => (unfold u; clear u)))
    | with_reducible apply State.when_sound | with_reducible apply State.putFold_sound | with_reducible apply State.incOb_sound
    | with_reducible apply State.sample_sound

theorem State.foldsDue_sound (s : State) (h0 : s.Sound) : State.Sound (State.foldsDue s) := by
  unfold State.foldsDue
  repeat' first
    | with_reducible assumption | intro _ | with_reducible apply State.each_sound | with_reducible apply State.foldEnd_sound

theorem State.foldClose_sound (s : State) (h0 : s.Sound) : State.Sound (State.foldClose s) := by
  unfold State.foldClose
  repeat' first
    | with_reducible assumption | intro _ | with_reducible apply State.foldsDue_sound | with_reducible apply State.reach_sound
    | simp only [State.sound_mk] | with_reducible apply State.Sound.out | dsimp only | split

theorem State.notifyNow_sound (s : State) (h0 : s.Sound) : State.Sound (State.notifyNow s) := by
  unfold State.notifyNow
  repeat' first
    | with_reducible assumption | intro _ | with_reducible apply State.kevent_sound | with_reducible apply State.setFlt_sound

theorem State.notify_sound (s : State) (h0 : s.Sound) : State.Sound (State.notify s) := by
  unfold State.notify
  repeat' first
    | with_reducible assumption | intro _ | with_reducible apply ite_sound0 | with_reducible apply State.notifyNow_sound
    | with_reducible apply State.setFlt_sound

theorem State.notifyEnd_sound (s : State) (h0 : s.Sound) : State.Sound (State.notifyEnd s) := by
  unfold State.notifyEnd
  repeat' first
    | with_reducible assumption | intro _
    | (extract_lets +onlyGivenNames u; refine cut_goal (P := State.Sound u) ?_ fun _ => ?_; (on_goal 2 => clear_value u); (on_goal 1 => (unfold u; clear u)))
    | with_reducible apply ite_sound0 | with_reducible apply State.reachMono_sound | with_reducible apply State.addOb_sound
    | with_reducible apply State.notifyNow_sound | with_reducible apply State.setFlt_sound

theorem State.linkBack_sound (s : State) (die : Nat) (h0 : s.Sound) : State.Sound (State.linkBack s die) := by
  unfold State.linkBack
  repeat' first
    | with_reducible assumption | intro _ | with_reducible apply ite_sound0 | with_reducible apply State.raiseSt_sound
    | with_reducible apply State.setPwr_sound

theorem State.policy_sound (s : State) (f : Fold) (h0 : s.Sound) : State.Sound (State.policy s f) := by
  unfold State.policy
  repeat' first
    | with_reducible assumption | intro _
    | (extract_lets +onlyGivenNames u; refine cut_goal (P := State.Sound u) ?_ fun _ => ?_; (on_goal 2 => clear_value u); (on_goal 1 => (unfold u; clear u)))
    | (extract_lets +onlyGivenNames u; clear_value u) | with_reducible apply State.when_sound
    | with_reducible apply State.notify_sound | with_reducible apply State.assertOut_sound
    | with_reducible apply State.tidemark_sound | with_reducible apply State.reclaim_sound
    | with_reducible refine State.setRed_sound _ ?_ rfl | with_reducible apply State.fioPark_sound
    | with_reducible apply State.tideHalt_sound | with_reducible apply State.linkBack_sound

theorem State.foldRoom_sound (s : State) (h0 : s.Sound) : State.Sound (State.foldRoom s) := by
  unfold State.foldRoom
  repeat' first
    | with_reducible assumption | intro _
    | (extract_lets +onlyGivenNames u; refine cut_goal (P := State.Sound u) ?_ fun _ => ?_; (on_goal 2 => clear_value u); (on_goal 1 => (unfold u; clear u)))
    | with_reducible apply State.when_sound | with_reducible apply State.foldEnd_sound | simp only [State.sound_mk]
    | with_reducible apply State.Sound.out | dsimp only | split

theorem State.foldOpen_sound (s : State) (r : Raw) (h0 : s.Sound) : State.Sound (State.foldOpen s r) := by
  unfold State.foldOpen
  repeat' first
    | with_reducible assumption | intro _
    | (extract_lets +onlyGivenNames u; refine cut_goal (P := State.Sound u) ?_ fun _ => ?_; (on_goal 2 => clear_value u); (on_goal 1 => (unfold u; clear u)))
    | (extract_lets +onlyGivenNames u; clear_value u) | with_reducible apply ite_sound0
    | with_reducible apply State.foldRoom_sound | with_reducible apply State.setFlt_sound
    | with_reducible apply State.setOb_sound | with_reducible apply State.policy_sound
    | with_reducible apply State.foldEnd_sound

theorem State.acceptRaw_sound (s : State) (h0 : s.Sound) : State.Sound (State.acceptRaw s) := by
  unfold State.acceptRaw
  repeat' first
    | with_reducible assumption | intro _ | with_reducible apply State.foldsDue_sound | with_reducible apply State.setFlt_sound
    | with_reducible apply State.incOb_sound | with_reducible apply State.putFold_sound
    | with_reducible apply State.foldOpen_sound | simp only [State.sound_mk] | with_reducible apply State.Sound.out
    | dsimp only | split

theorem State.clearOut_sound (s : State) (h0 : s.Sound) : State.Sound (State.clearOut s) := h0.same rfl rfl

theorem State.fltFlush_sound (s : State) (h0 : s.Sound) : State.Sound (State.fltFlush s) := by
  unfold State.fltFlush
  repeat' first
    | with_reducible assumption | intro _ | with_reducible apply State.each_sound | with_reducible apply State.foldEnd_sound

theorem State.fltRaise_sound (s : State) (v : Nat) (h0 : s.Sound) : State.Sound (State.fltRaise s v) := h0.same rfl rfl

end Sys2Proof.Machine
end

