-- ==== Sys2Proof/Laws/SoundDict.lean ====
section
/-! SUPPORT. Each operation of the dictionary, transactions, and the events of the tide keeps memory canonical, and the
Lighthouse from driving VALID to both partners. -/

namespace Sys2Proof.Machine

set_option Elab.async false

theorem State.modSes_sound (s : State) (n : Nat) (f : Ses → Ses) (h0 : s.Sound) : State.Sound (State.modSes s n f) := h0.same rfl rfl

theorem State.svcSend_sound (s : State) (n : Nat) (q : Svc) (data : List Sys2Proof.Byte) (h0 : s.Sound) : State.Sound (State.svcSend s n q data) := h0.same rfl rfl

theorem State.svcDone_sound (s : State) (n key : Nat) (data : List Sys2Proof.Byte) (h0 : s.Sound) : State.Sound (State.svcDone s n key data) := by
  unfold State.svcDone
  repeat' first
    | with_reducible assumption | intro _ | with_reducible apply State.svcSend_sound | with_reducible apply State.modSes_sound
    | simp only [State.sound_mk] | with_reducible apply State.Sound.out | dsimp only | split

theorem State.sdoSend_sound (s : State) (k : Nat) (d : List Sys2Proof.Byte) (h0 : s.Sound) : State.Sound (State.sdoSend s k d) := h0.same rfl rfl

theorem State.sdoAbort_sound (s : State) (k key code : Nat) (h0 : s.Sound) : State.Sound (State.sdoAbort s k key code) := h0.same rfl rfl

theorem State.sdoUp_sound (s : State) (k key : Nat) (data : List Sys2Proof.Byte) (h0 : s.Sound) : State.Sound (State.sdoUp s k key data) := by
  unfold State.sdoUp
  repeat' first
    | with_reducible assumption | intro _ | with_reducible apply ite_sound0 | with_reducible apply State.sdoSend_sound
    | with_reducible apply State.modMb_sound

theorem State.sdoDone_sound (s : State) (n key : Nat) (data : List Sys2Proof.Byte) (h0 : s.Sound) : State.Sound (State.sdoDone s n key data) := by
  unfold State.sdoDone
  repeat' first
    | with_reducible assumption | intro _
    | (extract_lets +onlyGivenNames u; refine cut_goal (P := State.Sound u) ?_ fun _ => ?_; (on_goal 2 => clear_value u); (on_goal 1 => (unfold u; clear u)))
    | (extract_lets +onlyGivenNames u; clear_value u) | with_reducible apply ite_sound0
    | with_reducible apply State.modMb_sound | with_reducible apply State.sdoAbort_sound
    | with_reducible apply State.sdoSend_sound | with_reducible apply State.sdoUp_sound | simp only [State.sound_mk]
    | with_reducible apply State.Sound.out | dsimp only | split

theorem State.reply_sound (s : State) (n key : Nat) (data : List Sys2Proof.Byte) (h0 : s.Sound) : State.Sound (State.reply s n key data) := by
  unfold State.reply
  repeat' first
    | with_reducible assumption | intro _ | with_reducible apply ite_sound0 | with_reducible apply State.svcDone_sound
    | with_reducible apply State.sdoDone_sound

theorem State.olcReply_sound (s : State) (h0 : s.Sound) : State.Sound (State.olcReply s) := by
  unfold State.olcReply
  repeat' first
    | with_reducible assumption | intro _ | with_reducible apply ite_sound0 | with_reducible apply State.each_sound
    | with_reducible apply State.reply_sound

theorem State.store_sound (s : State) (key v : Nat) (h0 : s.Sound) : State.Sound (State.store s key v) := by
  unfold State.store
  repeat' first
    | with_reducible assumption | intro _ | with_reducible apply State.retain_sound | with_reducible apply State.setOb_sound

theorem State.replSend_sound (s : State) (m : Repl) (f : State → State) (h : s.Sound) (hf : ∀ u, State.Sound u → (f u).Sound) :
    State.Sound (s.replSend m f) := by
  unfold State.replSend
  extract_lets u
  have hu : u.Sound := State.setRed_sound _ h rfl
  clear_value u
  split
  · exact hf _ hu
  · exact State.setRed_sound _ hu rfl

theorem State.forceReq_sound (s : State) (c : Sys2Proof.FChange) (h0 : s.Sound) : State.Sound (State.forceReq s c) := by
  unfold State.forceReq
  split
  · exact State.replSend_sound _ _ _ h0 (fun u hu => State.forceChange_sound _ _ hu)
  · exact State.forceChange_sound _ _ h0

theorem State.forceCmd_sound (s : State) (n v : Nat) (h0 : s.Sound) : State.Sound (State.forceCmd s n v) := by
  unfold State.forceCmd
  repeat' first
    | with_reducible assumption | intro _ | (extract_lets +onlyGivenNames u; clear_value u)
    | with_reducible apply State.forceReq_sound | with_reducible apply State.modSes_sound | simp only [State.sound_mk]
    | with_reducible apply State.Sound.out | dsimp only | split

theorem State.cpuCtl_sound (s : State) (c v : Nat) (h0 : s.Sound) : State.Sound (State.cpuCtl s c v) := h0.same rfl rfl

theorem State.tdsCmd_sound (s : State) (v : Nat) (h0 : s.Sound) : State.Sound (State.tdsCmd s v) := by
  unfold State.tdsCmd
  repeat' first
    | with_reducible assumption | intro _ | with_reducible apply State.fioOverlap_sound
    | with_reducible apply State.tideStart_sound | with_reducible apply State.tideStop_sound
    | with_reducible apply State.tideHalt_sound | with_reducible apply State.tideClear_sound | simp only [State.sound_mk]
    | with_reducible apply State.Sound.out | dsimp only | split

theorem State.pwrCmd_sound (s : State) (v : Nat) (h0 : s.Sound) : State.Sound (State.pwrCmd s v) := by
  unfold State.pwrCmd
  repeat' first
    | with_reducible assumption | intro _ | with_reducible apply ite_sound0 | with_reducible apply State.packageReset_sound
    | with_reducible apply State.sleep_sound

theorem State.calShift_sound (s : State) (v : Nat) (h0 : s.Sound) : State.Sound (State.calShift s v) := by
  unfold State.calShift
  repeat' first
    | with_reducible assumption | intro _ | with_reducible apply ite_sound0 | with_reducible apply State.setCal_sound

theorem State.calCmd_sound (s : State) (v : Nat) (h0 : s.Sound) : State.Sound (State.calCmd s v) := by
  unfold State.calCmd
  repeat' first
    | with_reducible assumption | intro _ | with_reducible apply ite_sound0 | with_reducible apply State.setCal_sound

theorem State.mbcCmd_sound (s : State) (k v : Nat) (h0 : s.Sound) : State.Sound (State.mbcCmd s k v) := by
  unfold State.mbcCmd
  repeat' first
    | with_reducible assumption | intro _ | with_reducible apply State.modMb_sound | with_reducible apply State.mbStopCmd_sound
    | simp only [State.sound_mk] | with_reducible apply State.Sound.out | dsimp only | split

theorem State.fioStore_sound (s : State) (key v : Nat) (h0 : s.Sound) : State.Sound (State.fioStore s key v) := by
  unfold State.fioStore
  repeat' first
    | with_reducible assumption | intro _
    | (extract_lets +onlyGivenNames u; refine cut_goal (P := State.Sound u) ?_ fun _ => ?_; (on_goal 2 => clear_value u); (on_goal 1 => (unfold u; clear u)))
    | with_reducible apply State.store_sound | with_reducible apply State.fioSend_sound | simp only [State.sound_mk]
    | with_reducible apply State.Sound.out | dsimp only | split

theorem State.applyNtm_sound (s : State) (idx sub key v : Nat) (h0 : s.Sound) : State.Sound (State.applyNtm s idx sub key v) := by
  unfold State.applyNtm
  repeat' first
    | with_reducible assumption | intro _
    | (extract_lets +onlyGivenNames u; refine cut_goal (P := State.Sound u) ?_ fun _ => ?_; (on_goal 2 => clear_value u); (on_goal 1 => (unfold u; clear u)))
    | with_reducible apply ite_sound0 | with_reducible apply State.offsetApply_sound | with_reducible apply State.setOb_sound
    | with_reducible apply State.timeLocked_sound | with_reducible apply State.gclCfgApply_sound
    | with_reducible apply State.store_sound | simp only [State.sound_mk] | with_reducible apply State.Sound.out | dsimp only
    | split

theorem State.applyMbc_sound (s : State) (idx k key v : Nat) (h0 : s.Sound) : State.Sound (State.applyMbc s idx k key v) := by
  unfold State.applyMbc
  repeat' first
    | with_reducible assumption | intro _ | with_reducible apply State.mbcCmd_sound | with_reducible apply State.pop_sound
    | with_reducible apply State.txReq_sound | with_reducible apply State.txCancel_sound
    | with_reducible apply State.store_sound | simp only [State.sound_mk] | with_reducible apply State.Sound.out | dsimp only
    | split

theorem State.applyBdr_sound (s : State) (n idx sub key v : Nat) (h0 : s.Sound) : State.Sound (State.applyBdr s n idx sub key v) := by
  unfold State.applyBdr
  repeat' first
    | with_reducible assumption | intro _ | with_reducible apply State.bdrTxn_sound | with_reducible apply State.unlock_sound
    | with_reducible apply State.lockRegions_sound | with_reducible apply State.modSes_sound
    | with_reducible apply State.store_sound | simp only [State.sound_mk] | with_reducible apply State.Sound.out | dsimp only
    | split

theorem State.applyCal_sound (s : State) (n idx sub key v : Nat) (h0 : s.Sound) : State.Sound (State.applyCal s n idx sub key v) := by
  unfold State.applyCal
  repeat' first
    | with_reducible assumption | intro _ | (extract_lets +onlyGivenNames u; clear_value u) | with_reducible apply ite_sound0
    | with_reducible apply State.calCmd_sound | with_reducible apply State.setCal_sound
    | with_reducible apply State.calShift_sound | with_reducible apply State.modSes_sound
    | with_reducible apply State.setOb_sound | with_reducible apply State.rsvTestStart_sound
    | with_reducible apply State.rsvReadId_sound | with_reducible apply State.store_sound | simp only [State.sound_mk]
    | with_reducible apply State.Sound.out | dsimp only | split

theorem State.applyObs_sound (s : State) (n idx sub key v : Nat) (h0 : s.Sound) : State.Sound (State.applyObs s n idx sub key v) := by
  unfold State.applyObs
  repeat' first
    | with_reducible assumption | intro _ | with_reducible apply ite_sound0 | with_reducible apply State.wdgCfgApply_sound
    | with_reducible apply State.wdgKey_sound | with_reducible apply State.chkPeriodSet_sound
    | with_reducible apply State.clearOut_sound | with_reducible apply State.fltFlush_sound
    | with_reducible apply State.fltRaise_sound | with_reducible apply State.store_sound
    | with_reducible apply State.strataFreeze_sound | with_reducible apply State.strataThaw_sound
    | with_reducible apply State.modSes_sound | with_reducible apply State.sample_sound
    | with_reducible apply State.bwWindow_sound | with_reducible apply State.tidemark_sound
    | with_reducible apply State.snpRelease_sound | with_reducible apply State.snpReleaseAll_sound
    | with_reducible apply State.testStart_sound | simp only [State.sound_mk] | with_reducible apply State.Sound.out
    | dsimp only | split

theorem State.applyTide_sound (s : State) (n idx sub key v : Nat) (h0 : s.Sound) : State.Sound (State.applyTide s n idx sub key v) := by
  unfold State.applyTide
  repeat' first
    | with_reducible assumption | intro _ | with_reducible apply State.tdsCmd_sound | with_reducible apply State.tskCmd_sound
    | with_reducible apply State.forceReq_sound | with_reducible apply State.modSes_sound
    | with_reducible apply State.forceCmd_sound | with_reducible apply State.olcCmd_sound
    | with_reducible apply State.cpuCtl_sound | with_reducible apply State.store_sound | simp only [State.sound_mk]
    | with_reducible apply State.Sound.out | dsimp only | split

theorem State.applyNet_sound (s : State) (idx sub key v : Nat) (h0 : s.Sound) : State.Sound (State.applyNet s idx sub key v) := by
  unfold State.applyNet
  repeat' first
    | with_reducible assumption | intro _ | with_reducible apply ite_sound0 | with_reducible apply State.autoConf_sound
    | with_reducible apply State.store_sound | with_reducible apply State.scanStart_sound
    | with_reducible apply State.configureStart_sound | with_reducible apply State.redCmd_sound
    | with_reducible apply State.maybeResync_sound | with_reducible apply State.drillArm_sound
    | with_reducible apply State.runsAnew_sound | with_reducible apply State.fioPark_sound
    | with_reducible apply State.fioRecover_sound | with_reducible apply State.fioClearOvl_sound
    | with_reducible apply State.modStn_sound | with_reducible apply State.fioStore_sound | simp only [State.sound_mk]
    | with_reducible apply State.Sound.out | dsimp only | split

theorem State.applyOb_sound (s : State) (n key v : Nat) (h0 : s.Sound) : State.Sound (State.applyOb s n key v) := by
  unfold State.applyOb
  repeat' first
    | with_reducible assumption | intro _ | (extract_lets +onlyGivenNames u; clear_value u) | with_reducible apply ite_sound0
    | with_reducible apply State.modSes_sound | with_reducible apply State.store_sound
    | with_reducible apply State.pwrCmd_sound | with_reducible apply State.domCmd_sound
    | with_reducible apply State.strCmd_sound | with_reducible apply State.applyTide_sound
    | with_reducible apply State.applyNtm_sound | with_reducible apply State.applyMbc_sound
    | with_reducible apply State.dmaCmd_sound | with_reducible apply State.each_sound
    | with_reducible apply State.dmaEvent_sound | with_reducible apply State.applyBdr_sound
    | with_reducible apply State.applyCal_sound | with_reducible apply State.applyObs_sound
    | with_reducible apply State.applyNet_sound | simp only [State.sound_mk] | with_reducible apply State.Sound.out
    | dsimp only | split

theorem State.loginFail_sound (s : State) (n : Nat) (h0 : s.Sound) : State.Sound (State.loginFail s n) := by
  unfold State.loginFail
  repeat' first
    | with_reducible assumption | intro _
    | (extract_lets +onlyGivenNames u; refine cut_goal (P := State.Sound u) ?_ fun _ => ?_; (on_goal 2 => clear_value u); (on_goal 1 => (unfold u; clear u)))
    | (extract_lets +onlyGivenNames u; clear_value u) | with_reducible apply ite_sound0
    | with_reducible apply State.incOb_sound | with_reducible apply State.when_sound | with_reducible apply State.raise_sound
    | simp only [State.sound_mk] | with_reducible apply State.Sound.out

theorem State.refusedNote_sound (s : State) (n key v st reason : Nat) (h0 : s.Sound) : State.Sound (State.refusedNote s n key v st reason) := by
  unfold State.refusedNote
  repeat' first
    | with_reducible assumption | intro _ | with_reducible apply ite_sound0 | with_reducible apply State.loginFail_sound
    | with_reducible apply State.setOb_sound | with_reducible apply State.offsetRefused_sound
    | with_reducible apply State.olcRefused_sound | with_reducible apply State.offRefused_sound
    | with_reducible apply State.unlockFail_sound | with_reducible apply State.bdrTxnLost_sound
    | with_reducible apply State.testRefused_sound

theorem State.ptpTx_sound (s : State) (b : List Sys2Proof.Byte) (h0 : s.Sound) : State.Sound (State.ptpTx s b) := by
  unfold State.ptpTx
  repeat' first
    | with_reducible assumption | intro _ | (extract_lets +onlyGivenNames u; clear_value u) | with_reducible apply ite_sound0
    | with_reducible apply State.incOb_sound | with_reducible apply State.enqueue_sound

theorem State.oemAnswer_sound (s : State) (tag status data : Nat) (h0 : s.Sound) : State.Sound (State.oemAnswer s tag status data) := by
  unfold State.oemAnswer
  repeat' first
    | with_reducible assumption | intro _
    | (extract_lets +onlyGivenNames u; refine cut_goal (P := State.Sound u) ?_ fun _ => ?_; (on_goal 2 => clear_value u); (on_goal 1 => (unfold u; clear u)))
    | (extract_lets +onlyGivenNames u; clear_value u) | with_reducible apply ite_sound0
    | with_reducible apply State.setResult_sound | with_reducible apply State.reply_sound
    | with_reducible apply State.loadsDone_sound | with_reducible apply State.modCore_sound | simp only [State.sound_mk]
    | with_reducible apply State.Sound.out | dsimp only | split

theorem State.applyBytes2_sound (s : State) (n key : Nat) (b : List Sys2Proof.Byte) (h0 : s.Sound) : State.Sound (State.applyBytes2 s n key b) := by
  have hk : ∀ (u : State) (c : List Byte), u.Sound → State.Sound (u.setDom key c) := fun u c hu => State.setDom_sound _ _ _ hu
  have hr : ∀ (u : State) (c : List Byte), u.Sound → State.Sound ((u.setDom key c).retainDom key) :=
    fun u c hu => State.retainDom_sound _ _ (hk u c hu)
  unfold State.applyBytes2
  extract_lets idx sub keep
  have hp : ∀ u : State, u.Sound → State.Sound (keep u) := fun u hu => hr u b hu
  clear_value idx sub keep
  split
  · split
    · exact State.oemAnswer_sound _ _ _ _ h0
    · exact h0
  · exact State.provision_sound _ _ h0
  · exact State.foldl_sound _ _ (fun u x hu => State.setOwner_sound _ _ _ hu) h0
  · exact hk _ _ h0
  · exact hk _ _ h0
  · exact State.forceReq_sound _ _ h0
  · exact State.sramWrite_sound _ _ _ h0
  · exact State.ntmSetApply_sound _ _ h0
  · exact State.ptpTx_sound _ _ h0
  · exact hr _ _ h0
  · exact hr _ _ h0
  · exact hk _ _ h0
  · exact hk _ _ h0
  · exact hk _ _ h0
  · exact State.recWrite_sound _ _ _ h0
  · split
    · exact State.modCtx_sound _ _ _ h0
    · exact hp _ h0

theorem State.xferCommit_sound (s : State) (n key : Nat) (wr : Sys2Proof.SMap (Option Sys2Proof.Byte)) (h0 : s.Sound) : State.Sound (State.xferCommit s n key wr).2 := by
  unfold State.xferCommit
  repeat' first
    | with_reducible assumption | intro _ | (extract_lets +onlyGivenNames u; clear_value u) | with_reducible apply ite_sound0
    | with_reducible apply State.imageClose_sound | with_reducible apply State.when_sound
    | with_reducible apply State.incOb_sound | with_reducible apply State.applyBytes2_sound | simp only [State.sound_mk]
    | with_reducible apply State.Sound.out | dsimp only | with_reducible refine sound_of_eq (by assumption) ?_ | split

theorem State.oemEnter_sound (s : State) (n key : Nat) (write : Bool) (v : Nat) (h0 : s.Sound) : State.Sound (State.oemEnter s n key write v) := by
  unfold State.oemEnter
  repeat' first
    | with_reducible assumption | intro _ | (extract_lets +onlyGivenNames u; clear_value u) | with_reducible apply ite_sound0
    | with_reducible apply State.setResult_sound | with_reducible apply State.kevent_sound | simp only [State.sound_mk]
    | with_reducible apply State.Sound.out

theorem State.oemTake_sound (s : State) (h0 : s.Sound) : State.Sound (State.oemTake s).1 := by
  unfold State.oemTake
  repeat' first
    | with_reducible assumption | intro _ | (extract_lets +onlyGivenNames u; clear_value u) | with_reducible apply_assumption
    | with_reducible apply ite_sound0 | with_reducible apply foldl_sound1 | simp only [State.sound_mk]
    | with_reducible apply State.Sound.out | dsimp only | split

theorem State.oemExpire_sound (s : State) (tag : Nat) (h0 : s.Sound) : State.Sound (State.oemExpire s tag) := by
  unfold State.oemExpire
  repeat' first
    | with_reducible assumption | intro _ | (extract_lets +onlyGivenNames u; clear_value u) | with_reducible apply ite_sound0
    | with_reducible apply State.reachMono_sound | with_reducible apply State.reply_sound
    | with_reducible apply State.setResult_sound | with_reducible apply State.loadsDone_sound
    | with_reducible apply State.modCore_sound | simp only [State.sound_mk] | with_reducible apply State.Sound.out | dsimp only
    | split

theorem State.domCapture_sound (s : State) (n key : Nat) (h0 : s.Sound) : State.Sound (State.domCapture s n key).1 := by
  unfold State.domCapture
  repeat' split
  all_goals first
    | exact h0
    | (rename_i heq; exact sound_of_eq heq (State.strataRead_sound _ _ h0))
    | (rename_i heq; exact sound_of_eq heq (State.oemTake_sound _ h0))
    | exact State.setResult_sound _ _ _ _ _ _ h0
    | exact State.setNtm_sound _ (fun t => { t with rx := _ }) h0
    | exact State.setNtm_sound _ (fun t => { t with stamps := _ }) h0
    | exact State.setFio_sound _ (fun f => { f with log := [] }) h0
    | (rename_i heq; exact sound_of_eq heq (State.recRead_sound _ _ h0))
    | (rename_i heq; exact State.setResult_sound _ _ _ _ _ _ (sound_of_eq heq (State.recRead_sound _ _ h0)))

theorem State.domOpen_sound (s : State) (n v : Nat) (h0 : s.Sound) : State.Sound (State.domOpen s n v) := by
  unfold State.domOpen
  repeat' first
    | with_reducible assumption | intro _
    | (extract_lets +onlyGivenNames u; refine cut_goal (P := State.Sound u) ?_ fun _ => ?_; (on_goal 2 => clear_value u); (on_goal 1 => (unfold u; clear u)))
    | (extract_lets +onlyGivenNames u; clear_value u) | with_reducible apply ite_sound0
    | with_reducible apply State.setResult_sound | with_reducible apply State.domCapture_sound
    | with_reducible apply State.modSes_sound | simp only [State.sound_mk] | with_reducible apply State.Sound.out | dsimp only
    | with_reducible refine sound_of_eq (by assumption) ?_ | split

theorem State.xferPut_sound (s : State) (n at_ : Nat) (b : List Sys2Proof.Byte) (h0 : s.Sound) : State.Sound (State.xferPut s n at_ b) := h0.same rfl rfl

theorem State.apWrite_sound (s : State) (n a width v : Nat) (h0 : s.Sound) : State.Sound (State.apWrite s n a width v) := by
  unfold State.apWrite
  repeat' first
    | with_reducible assumption | intro _
    | (extract_lets +onlyGivenNames u; refine cut_goal (P := State.Sound u) ?_ fun _ => ?_; (on_goal 2 => clear_value u); (on_goal 1 => (unfold u; clear u)))
    | (extract_lets +onlyGivenNames u; clear_value u) | with_reducible apply ite_sound0
    | with_reducible apply State.setResult_sound | with_reducible apply State.xferPut_sound

theorem State.apRead_sound (s : State) (n a width : Nat) (h0 : s.Sound) : State.Sound (State.apRead s n a width).1 := by
  unfold State.apRead
  repeat' first
    | with_reducible assumption | intro _ | (extract_lets +onlyGivenNames u; clear_value u) | with_reducible apply ite_sound0
    | with_reducible apply State.setResult_sound | simp only [State.sound_mk] | with_reducible apply State.Sound.out
    | dsimp only | split

theorem State.domClose_sound (s : State) (n v : Nat) (h0 : s.Sound) : State.Sound (State.domClose s n v) := by
  unfold State.domClose
  repeat' first
    | with_reducible assumption | intro _ | with_reducible apply ite_sound0 | with_reducible apply State.setResult_sound
    | with_reducible apply State.xferCommit_sound | with_reducible apply State.modSes_sound | simp only [State.sound_mk]
    | with_reducible apply State.Sound.out | dsimp only | with_reducible refine sound_of_eq (by assumption) ?_ | split

theorem State.noteWrite_sound (s : State) (key : Nat) (h0 : s.Sound) : State.Sound (State.noteWrite s key) := h0.same rfl rfl

theorem State.applyWrite_sound (s : State) (n key v : Nat) (h0 : s.Sound) : State.Sound (State.applyWrite s n key v) := by
  unfold State.applyWrite
  extract_lets u
  have hu : u.Sound := State.noteWrite_sound _ _ h0
  clear_value u
  split
  · exact State.replSend_sound _ _ _ hu (fun x hx => State.applyOb_sound _ _ _ _ hx)
  · exact State.applyOb_sound _ _ _ _ hu

theorem State.txnBegin_sound (s : State) (n : Nat) (h0 : s.Sound) : State.Sound (State.txnBegin s n) := h0.same rfl rfl

theorem State.txnCommit_sound (s : State) (n : Nat) (h0 : s.Sound) : State.Sound (State.txnCommit s n) := by
  unfold State.txnCommit
  repeat' first
    | with_reducible assumption | intro _ | with_reducible apply ite_sound0 | with_reducible apply State.modSes_sound
    | with_reducible apply State.setResult_sound

theorem State.txnDiscard_sound (s : State) (n : Nat) (h0 : s.Sound) : State.Sound (State.txnDiscard s n) := by
  unfold State.txnDiscard
  repeat' first
    | with_reducible assumption | intro _
    | (extract_lets +onlyGivenNames u; refine cut_goal (P := State.Sound u) ?_ fun _ => ?_; (on_goal 2 => clear_value u); (on_goal 1 => (unfold u; clear u)))
    | with_reducible apply State.modSes_sound | with_reducible apply State.setResult_sound
    | with_reducible apply State.reply_sound | simp only [State.sound_mk] | with_reducible apply State.Sound.out | dsimp only
    | split

theorem State.txnCmd_sound (s : State) (n v : Nat) (h0 : s.Sound) : State.Sound (State.txnCmd s n v) := by
  unfold State.txnCmd
  repeat' first
    | with_reducible assumption | intro _ | with_reducible apply State.txnBegin_sound
    | with_reducible apply State.txnCommit_sound | with_reducible apply State.txnDiscard_sound | simp only [State.sound_mk]
    | with_reducible apply State.Sound.out | dsimp only | split

theorem State.preview_sound (s : State) (n : Nat) (w : Staged) (h0 : s.Sound) : State.Sound (State.preview s n w) := by
  unfold State.preview
  repeat' first
    | with_reducible assumption | intro _ | (extract_lets +onlyGivenNames u; clear_value u) | with_reducible apply ite_sound0
    | with_reducible apply State.applyOb_sound | with_reducible apply State.setImg_sound
    | with_reducible apply State.setOb_sound

theorem State.voteState_sound (after before : State) (w : Staged) (h0 : after.Sound) (h1 : before.Sound) : State.Sound (State.voteState after before w) := by
  unfold State.voteState
  repeat' first
    | with_reducible assumption | intro _ | with_reducible apply ite_sound0 | simp only [State.sound_mk]
    | with_reducible apply State.Sound.out

theorem State.txnDecide_sound (s : State) (n : Nat) (h0 : s.Sound) : State.Sound (State.txnDecide s n) := by
  unfold State.txnDecide
  repeat' first
    | with_reducible assumption | intro _ | (extract_lets +onlyGivenNames u; clear_value u) | with_reducible apply ite_sound0
    | with_reducible apply State.reply_sound | with_reducible apply State.modSes_sound
    | with_reducible apply State.setResult_sound | simp only [State.sound_mk] | with_reducible apply State.Sound.out
    | dsimp only | split

theorem State.dieVote_sound (s : State) (n die : Nat) (h0 : s.Sound) : State.Sound (State.dieVote s n die) := by
  unfold State.dieVote
  repeat' first
    | with_reducible assumption | intro _
    | (extract_lets +onlyGivenNames u; refine cut_goal (P := State.Sound u) ?_ fun _ => ?_; (on_goal 2 => clear_value u); (on_goal 1 => (unfold u; clear u)))
    | with_reducible apply ite_sound0 | with_reducible apply State.modSes_sound | with_reducible apply State.txnDecide_sound
    | simp only [State.sound_mk] | with_reducible apply State.Sound.out | dsimp only | split

theorem State.txnTimeout_sound (s : State) (n die : Nat) (h0 : s.Sound) : State.Sound (State.txnTimeout s n die) := by
  unfold State.txnTimeout
  repeat' first
    | with_reducible assumption | intro _
    | (extract_lets +onlyGivenNames u; refine cut_goal (P := State.Sound u) ?_ fun _ => ?_; (on_goal 2 => clear_value u); (on_goal 1 => (unfold u; clear u)))
    | (extract_lets +onlyGivenNames u; clear_value u) | with_reducible apply ite_sound0
    | with_reducible apply State.raise_sound | with_reducible apply State.reachMono_sound
    | with_reducible apply State.txnDecide_sound | with_reducible apply State.modSes_sound

theorem State.dieApply_sound (s : State) (n die : Nat) (h0 : s.Sound) : State.Sound (State.dieApply s n die) := by
  unfold State.dieApply
  repeat' first
    | with_reducible assumption | intro _ | (extract_lets +onlyGivenNames u; clear_value u) | with_reducible apply ite_sound0
    | with_reducible apply State.modSes_sound | with_reducible apply State.each_sound
    | with_reducible apply State.applyWrite_sound

theorem State.txnApplyAll_sound (s : State) (h0 : s.Sound) : State.Sound (State.txnApplyAll s) := by
  unfold State.txnApplyAll
  repeat' first
    | with_reducible assumption | intro _ | with_reducible apply State.each_sound | with_reducible apply State.dieApply_sound

theorem State.txnSlack_sound (s : State) (change : Bool) (h0 : s.Sound) : State.Sound (State.txnSlack s change) := by
  unfold State.txnSlack
  repeat' first
    | with_reducible assumption | intro _ | with_reducible apply ite_sound0 | with_reducible apply State.txnApplyAll_sound

theorem State.txnSettle_sound (s : State) (h0 : s.Sound) : State.Sound (State.txnSettle s) := by
  unfold State.txnSettle
  repeat' first
    | with_reducible assumption | intro _ | with_reducible apply ite_sound0 | with_reducible apply State.txnApplyAll_sound

theorem State.txnApply_sound (s : State) (n die : Nat) (h0 : s.Sound) : State.Sound (State.txnApply s n die) := by
  unfold State.txnApply
  repeat' first
    | with_reducible assumption | intro _ | with_reducible apply ite_sound0 | with_reducible apply State.txnSettle_sound
    | with_reducible apply State.dieApply_sound

theorem State.txnConfirm_sound (s : State) (n die : Nat) (h0 : s.Sound) : State.Sound (State.txnConfirm s n die) := by
  unfold State.txnConfirm
  repeat' first
    | with_reducible assumption | intro _ | (extract_lets +onlyGivenNames u; clear_value u) | with_reducible apply ite_sound0
    | with_reducible apply State.modSes_sound

theorem State.txnExpire_sound (s : State) (n : Nat) (h0 : s.Sound) : State.Sound (State.txnExpire s n) := by
  unfold State.txnExpire
  repeat' first
    | with_reducible assumption | intro _
    | (extract_lets +onlyGivenNames u; refine cut_goal (P := State.Sound u) ?_ fun _ => ?_; (on_goal 2 => clear_value u); (on_goal 1 => (unfold u; clear u)))
    | with_reducible apply ite_sound0 | with_reducible apply State.reachMono_sound | with_reducible apply State.modSes_sound
    | with_reducible apply State.setResult_sound

theorem State.dictWrite_sound (s : State) (n key off width v : Nat) (h0 : s.Sound) : State.Sound (State.dictWrite s n key off width v) := by
  unfold State.dictWrite
  repeat' first
    | with_reducible assumption | intro _
    | (extract_lets +onlyGivenNames u; refine cut_goal (P := State.Sound u) ?_ fun _ => ?_; (on_goal 2 => clear_value u); (on_goal 1 => (unfold u; clear u)))
    | (extract_lets +onlyGivenNames u; clear_value u) | with_reducible apply ite_sound0
    | with_reducible apply State.oemEnter_sound | with_reducible apply State.setResult_sound
    | with_reducible apply State.apWrite_sound | with_reducible apply State.when_sound
    | with_reducible apply State.refusedNote_sound | with_reducible apply State.txnCmd_sound
    | with_reducible apply State.domOpen_sound | with_reducible apply State.domClose_sound
    | with_reducible apply State.modSes_sound | with_reducible apply State.applyWrite_sound
    | with_reducible apply State.olcReply_sound | with_reducible apply State.txnSettle_sound

theorem State.readEffect_sound (s : State) (n key : Nat) (h0 : s.Sound) : State.Sound (State.readEffect s n key) := by
  unfold State.readEffect
  repeat' first
    | with_reducible assumption | intro _ | with_reducible apply ite_sound0 | with_reducible apply State.setOb_sound
    | with_reducible apply State.modSes_sound | with_reducible apply State.rdRead_sound

theorem State.dictRead_sound (s : State) (n key : Nat) (h0 : s.Sound) : State.Sound (State.dictRead s n key).1 := by
  unfold State.dictRead
  repeat' first
    | with_reducible assumption | intro _ | with_reducible apply ite_sound0 | with_reducible apply State.oemEnter_sound
    | with_reducible apply State.setResult_sound | with_reducible apply State.apRead_sound
    | with_reducible apply State.readEffect_sound | simp only [State.sound_mk] | with_reducible apply State.Sound.out
    | dsimp only | split

theorem State.sesClose_sound (s : State) (n : Nat) (h0 : s.Sound) : State.Sound (State.sesClose s n) := by
  unfold State.sesClose
  repeat' first
    | with_reducible assumption | intro _
    | (extract_lets +onlyGivenNames u; refine cut_goal (P := State.Sound u) ?_ fun _ => ?_; (on_goal 2 => clear_value u); (on_goal 1 => (unfold u; clear u)))
    | (extract_lets +onlyGivenNames u; clear_value u) | with_reducible apply ite_sound0
    | with_reducible apply State.bedDrop_sound | with_reducible apply State.setSes_sound | simp only [State.sound_mk]
    | with_reducible apply State.Sound.out

theorem State.sesIdle_sound (s : State) (n : Nat) (h0 : s.Sound) : State.Sound (State.sesIdle s n) := by
  unfold State.sesIdle
  repeat' first
    | with_reducible assumption | intro _ | with_reducible apply ite_sound0 | with_reducible apply State.sesClose_sound
    | with_reducible apply State.reachMono_sound

theorem State.lockoutEnd_sound (s : State) (path : Nat) (h0 : s.Sound) : State.Sound (State.lockoutEnd s path) := by
  have key : ∀ (u : State) (d : Dic), u.Sound → State.Sound { u with dic := d } := fun u d hu => hu.same rfl rfl
  unfold State.lockoutEnd
  by_cases hp : (mget (fun _ => Path.init) s.dic.paths path).locked = true
  · rw [if_pos hp]
    exact key _ _ (State.reachMono_sound _ _ h0)
  · rw [if_neg hp]
    exact h0

theorem State.settleEdges_sound (s : State) (h0 : s.Sound) : State.Sound (State.settleEdges s) := by
  unfold State.settleEdges
  repeat' first
    | with_reducible assumption | intro _ | with_reducible apply ite_sound0 | with_reducible apply State.each_sound
    | with_reducible apply State.openGates_sound | with_reducible apply State.edgeInitsOf_sound

theorem State.ebbLatch_sound (s : State) (h0 : s.Sound) : State.Sound (State.ebbLatch s) := by
  unfold State.ebbLatch
  repeat' first
    | with_reducible assumption | intro _
    | (extract_lets +onlyGivenNames u; refine cut_goal (P := State.Sound u) ?_ fun _ => ?_; (on_goal 2 => clear_value u); (on_goal 1 => (unfold u; clear u)))
    | with_reducible apply ite_sound0 | with_reducible apply State.latchLine_sound | with_reducible apply State.seqLine_sound
    | with_reducible apply State.dictate_sound | with_reducible apply State.putLine_sound

theorem State.ebbCalendar_sound (s : State) (h0 : s.Sound) : State.Sound (State.ebbCalendar s) := by
  unfold State.ebbCalendar
  repeat' first
    | with_reducible assumption | intro _ | with_reducible apply ite_sound0 | with_reducible apply State.dictate_sound
    | with_reducible apply State.setOb_sound

theorem State.stopEnd_sound (s : State) (h0 : s.Sound) : State.Sound (State.stopEnd s) := by
  unfold State.stopEnd
  repeat' first
    | with_reducible assumption | intro _
    | (extract_lets +onlyGivenNames u; refine cut_goal (P := State.Sound u) ?_ fun _ => ?_; (on_goal 2 => clear_value u); (on_goal 1 => (unfold u; clear u)))
    | with_reducible apply State.each_sound | with_reducible apply State.haltContexts_sound
    | with_reducible apply State.haltTaskAt_sound | with_reducible apply State.setTds_sound
    | with_reducible apply State.publishNow_sound | with_reducible apply State.pumpForces_sound
    | with_reducible apply State.reschedAll_sound | with_reducible apply State.toTide_sound

theorem State.ebbBegin_sound (s : State) (h0 : s.Sound) : State.Sound (State.ebbBegin s) := by
  unfold State.ebbBegin
  repeat' first
    | with_reducible assumption | intro _
    | (extract_lets +onlyGivenNames u; refine cut_goal (P := State.Sound u) ?_ fun _ => ?_; (on_goal 2 => clear_value u); (on_goal 1 => (unfold u; clear u)))
    | (extract_lets +onlyGivenNames u; clear_value u) | with_reducible apply ite_sound0
    | with_reducible apply State.outMisses_sound | with_reducible apply State.when_sound
    | with_reducible apply State.bwXcheck_sound | with_reducible apply State.setTds_sound
    | with_reducible apply State.setOb_sound | with_reducible apply State.setOlc_sound
    | with_reducible apply State.toTide_sound | with_reducible apply State.kevent_sound
    | with_reducible refine State.setRed_sound _ ?_ rfl | with_reducible apply State.setHnw_sound
    | with_reducible apply State.inputCheck_sound | with_reducible apply State.pumpForces_sound
    | with_reducible apply State.dmaPhase_sound | with_reducible apply State.swapRetry_sound
    | with_reducible apply State.ebbLatch_sound | with_reducible apply State.ebbCalendar_sound

theorem State.ebbPoint_sound (s : State) (h0 : s.Sound) : State.Sound (State.ebbPoint s) := by
  unfold State.ebbPoint
  repeat' first
    | with_reducible assumption | intro _
    | (extract_lets +onlyGivenNames u; refine cut_goal (P := State.Sound u) ?_ fun _ => ?_; (on_goal 2 => clear_value u); (on_goal 1 => (unfold u; clear u)))
    | with_reducible apply ite_sound0 | with_reducible apply State.reach_sound | with_reducible apply State.setTds_sound
    | with_reducible apply State.stopEnd_sound | with_reducible apply State.ebbBegin_sound

theorem State.inDeadline_sound (s : State) (h0 : s.Sound) : State.Sound (State.inDeadline s) := by
  unfold State.inDeadline
  repeat' first
    | with_reducible assumption | intro _
    | (extract_lets +onlyGivenNames u; refine cut_goal (P := State.Sound u) ?_ fun _ => ?_; (on_goal 2 => clear_value u); (on_goal 1 => (unfold u; clear u)))
    | with_reducible apply ite_sound0 | with_reducible apply State.ringsTell_sound
    | with_reducible apply State.ebbSamples_sound | with_reducible apply State.reach_sound
    | with_reducible apply State.inputComplete_sound | with_reducible apply State.deadline_sound

theorem State.replApply_sound (s : State) (m : Sys2Proof.Repl) (h0 : s.Sound) : State.Sound (State.replApply s m) := by
  unfold State.replApply
  repeat' first
    | with_reducible assumption | intro _ | with_reducible apply State.applyOb_sound
    | with_reducible apply State.forceChange_sound | simp only [State.sound_mk] | with_reducible apply State.Sound.out
    | dsimp only | split

theorem State.replAll_sound (s : State) (h0 : s.Sound) : State.Sound (State.replAll s) := by
  unfold State.replAll
  repeat' first
    | with_reducible assumption | intro _ | (extract_lets +onlyGivenNames u; clear_value u)
    | with_reducible apply State.each_sound | with_reducible refine State.setRed_sound _ ?_ rfl
    | with_reducible apply State.replApply_sound

theorem State.mergeInput_sound (s : State) (h0 : s.Sound) : State.Sound (State.mergeInput s) := by
  unfold State.mergeInput
  repeat' first
    | with_reducible assumption | intro _
    | (extract_lets +onlyGivenNames u; refine cut_goal (P := State.Sound u) ?_ fun _ => ?_; (on_goal 2 => clear_value u); (on_goal 1 => (unfold u; clear u)))
    | (extract_lets +onlyGivenNames u; clear_value u) | with_reducible apply ite_sound0
    | with_reducible apply State.setTds_sound | with_reducible apply State.setImg_sound | with_reducible apply State.each_sound
    | with_reducible apply State.blit_sound

theorem State.floodBegin_sound (s : State) (h0 : s.Sound) : State.Sound (State.floodBegin s) := by
  unfold State.floodBegin
  repeat' first
    | with_reducible assumption | intro _
    | (extract_lets +onlyGivenNames u; refine cut_goal (P := State.Sound u) ?_ fun _ => ?_; (on_goal 2 => clear_value u); (on_goal 1 => (unfold u; clear u)))
    | (extract_lets +onlyGivenNames u; clear_value u) | with_reducible apply State.setTds_sound
    | with_reducible apply State.ringsTell_sound | with_reducible apply State.when_sound
    | with_reducible apply State.setOb_sound | with_reducible apply State.incOb_sound
    | with_reducible apply State.replAll_sound | with_reducible apply State.floodBitmap_sound
    | with_reducible apply State.mergeInput_sound | with_reducible apply State.sample_sound
    | with_reducible apply State.releaseAll_sound | with_reducible apply State.settleEdges_sound
    | with_reducible apply State.pumpForces_sound | with_reducible apply State.dmaPhase_sound

theorem State.floodStart_sound (s : State) (h0 : s.Sound) : State.Sound (State.floodStart s) := by
  unfold State.floodStart
  repeat' first
    | with_reducible assumption | intro _ | with_reducible apply ite_sound0 | with_reducible apply State.floodBegin_sound
    | with_reducible apply State.reach_sound

theorem State.floodLatest_sound (s : State) (h0 : s.Sound) : State.Sound (State.floodLatest s) := by
  unfold State.floodLatest
  repeat' first
    | with_reducible assumption | intro _ | with_reducible apply ite_sound0 | with_reducible apply State.floodBegin_sound
    | with_reducible apply State.agreeLate_sound | with_reducible apply State.reach_sound

theorem State.triggerNext_sound (s : State) (h0 : s.Sound) : State.Sound (State.triggerNext s) := by
  unfold State.triggerNext
  repeat' first
    | with_reducible assumption | intro _ | with_reducible apply ite_sound0 | with_reducible apply State.setTds_sound
    | with_reducible apply State.settleEdges_sound | with_reducible apply State.decideTrigger_sound
    | simp only [State.sound_mk] | with_reducible apply State.Sound.out | dsimp only | split

theorem State.copyInDone_sound (s : State) (t i : Nat) (h0 : s.Sound) : State.Sound (State.copyInDone s t i) := by
  unfold State.copyInDone
  repeat' first
    | with_reducible assumption | intro _ | with_reducible apply State.settleEdges_sound
    | with_reducible apply State.copyInEnd_sound | simp only [State.sound_mk] | with_reducible apply State.Sound.out
    | dsimp only | split

theorem State.cutLine_sound (s : State) (h0 : s.Sound) : State.Sound (State.cutLine s) := by
  unfold State.cutLine
  repeat' first
    | with_reducible assumption | intro _ | (extract_lets +onlyGivenNames u; clear_value u) | with_reducible apply ite_sound0
    | with_reducible apply State.outLineRead_sound

theorem State.resyncFinal_sound (s : State) (h0 : s.Sound) : State.Sound (State.resyncFinal s) := by
  unfold State.resyncFinal
  repeat' first
    | with_reducible assumption | intro _ | with_reducible apply ite_sound0 | with_reducible apply State.setTds_sound

theorem State.cut_sound (s : State) (h0 : s.Sound) : State.Sound (State.cut s) := by
  unfold State.cut
  repeat' first
    | with_reducible assumption | intro _
    | (extract_lets +onlyGivenNames u; refine cut_goal (P := State.Sound u) ?_ fun _ => ?_; (on_goal 2 => clear_value u); (on_goal 1 => (unfold u; clear u)))
    | (extract_lets +onlyGivenNames u; clear_value u) | with_reducible apply ite_sound0
    | with_reducible apply State.reach_sound | with_reducible apply State.copyProgress_sound
    | with_reducible apply State.setOb_sound | with_reducible apply State.addOb_sound | with_reducible apply State.setTds_sound
    | with_reducible apply State.setImg_sound | with_reducible apply State.draw_sound
    | with_reducible apply State.dmaPhase_sound | with_reducible apply State.resyncFinal_sound
    | with_reducible apply State.cutTest_sound | with_reducible apply State.cutLine_sound

theorem State.cutCopyEnd_sound (s : State) (h0 : s.Sound) : State.Sound (State.cutCopyEnd s) := by
  unfold State.cutCopyEnd
  repeat' first
    | with_reducible assumption | intro _
    | (extract_lets +onlyGivenNames u; refine cut_goal (P := State.Sound u) ?_ fun _ => ?_; (on_goal 2 => clear_value u); (on_goal 1 => (unfold u; clear u)))
    | (extract_lets +onlyGivenNames u; clear_value u) | with_reducible apply ite_sound0
    | with_reducible apply State.copyProgress_sound | with_reducible apply State.reach_sound
    | with_reducible apply State.setOb_sound | with_reducible apply State.setImg_sound
    | with_reducible apply State.sample_sound | with_reducible apply State.settleEdges_sound
    | with_reducible apply State.landHeld_sound | with_reducible apply State.outDigestSend_sound

theorem State.windowClose_sound (s : State) (h0 : s.Sound) : State.Sound (State.windowClose s) := by
  unfold State.windowClose
  repeat' first
    | with_reducible assumption | intro _ | with_reducible apply ite_sound0 | with_reducible apply State.setImg_sound
    | with_reducible apply State.settleEdges_sound | with_reducible apply State.landHeld_sound

theorem State.launch_sound (s : State) (h0 : s.Sound) : State.Sound (State.launch s) := by
  unfold State.launch
  repeat' first
    | with_reducible assumption | intro _
    | (extract_lets +onlyGivenNames u; refine cut_goal (P := State.Sound u) ?_ fun _ => ?_; (on_goal 2 => clear_value u); (on_goal 1 => (unfold u; clear u)))
    | with_reducible apply ite_sound0 | with_reducible apply State.setTds_sound | with_reducible apply State.reach_sound
    | with_reducible apply State.dmaPhase_sound | with_reducible apply State.slackTrains_sound

theorem State.slackRefresh_sound (s : State) (h0 : s.Sound) : State.Sound (State.slackRefresh s) := by
  unfold State.slackRefresh
  repeat' first
    | with_reducible assumption | intro _ | with_reducible apply ite_sound0 | with_reducible apply State.lateRefresh_sound
    | with_reducible apply State.fioRefresh_sound

theorem State.slackPoint_sound (s : State) (h0 : s.Sound) : State.Sound (State.slackPoint s) := by
  unfold State.slackPoint
  repeat' first
    | with_reducible assumption | intro _
    | (extract_lets +onlyGivenNames u; refine cut_goal (P := State.Sound u) ?_ fun _ => ?_; (on_goal 2 => clear_value u); (on_goal 1 => (unfold u; clear u)))
    | with_reducible apply ite_sound0 | with_reducible apply State.setTds_sound | with_reducible apply State.reach_sound
    | with_reducible apply State.pumpForces_sound | with_reducible apply State.dmaPhase_sound
    | with_reducible apply State.confirmCheck_sound | with_reducible apply State.swapClaim_sound
    | with_reducible apply State.slackRefresh_sound | with_reducible apply State.txnSettle_sound
    | with_reducible apply State.txnSlack_sound

theorem State.slackEnd_sound (s : State) (h0 : s.Sound) : State.Sound (State.slackEnd s) := by
  have key : ∀ u : State, u.Sound → State.Sound (((if u.red.role = .active ∧ u.red.finalWait = true ∧ u.tds.hold = true ∧
      u.olc.point = false ∧ u.olc.cand = none then
        (u.finalSend.setRed fun r => { r with finalWait := false, pass := 0 }).releaseHeld false
      else u).dmaPhase 5).settleEdges) := by
    intro u hu
    refine State.settleEdges_sound _ (State.dmaPhase_sound _ _ (ite_sound0 ?_ hu))
    exact State.releaseHeld_sound _ _ (State.setRed_sound _ (State.finalSend_sound _ hu) rfl)
  unfold State.slackEnd
  by_cases hc : (s.tideOn && s.tds.swin) = true
  · rw [if_pos hc]
    exact key _ (State.setTds_sound _ _ (State.reach_sound _ _ h0))
  · rw [if_neg hc]
    exact h0

theorem State.retSave_sound (s : State) (n b : Nat) (h0 : s.Sound) : State.Sound (State.retSave s n b) := by
  unfold State.retSave
  repeat' first
    | with_reducible assumption | intro _
    | (extract_lets +onlyGivenNames u; refine cut_goal (P := State.Sound u) ?_ fun _ => ?_; (on_goal 2 => clear_value u); (on_goal 1 => (unfold u; clear u)))
    | (extract_lets +onlyGivenNames u; refine cut_goal (P := ∀ s, State.Sound s → State.Sound (u s)) ?_ fun _ => ?_; (on_goal 2 => clear_value u); (on_goal 1 => (unfold u; clear u)))
    | (extract_lets +onlyGivenNames u; clear_value u) | with_reducible apply_assumption | with_reducible apply ite_sound0
    | with_reducible apply State.incOb_sound | with_reducible apply State.bedTxn_sound | simp only [State.sound_mk]
    | with_reducible apply State.Sound.out

theorem State.setCmd_sound (s : State) (n key v : Nat) (h0 : s.Sound) : State.Sound (State.setCmd s n key v) := by
  unfold State.setCmd
  repeat' first
    | with_reducible assumption | intro _ | with_reducible apply State.dictWrite_sound

theorem State.putDomain_sound (s : State) (n key : Nat) (data : List Sys2Proof.Byte) (h0 : s.Sound) : State.Sound (State.putDomain s n key data) := by
  unfold State.putDomain
  repeat' first
    | with_reducible assumption | intro _
    | (extract_lets +onlyGivenNames u; refine cut_goal (P := State.Sound u) ?_ fun _ => ?_; (on_goal 2 => clear_value u); (on_goal 1 => (unfold u; clear u)))
    | with_reducible apply ite_sound0 | with_reducible apply State.setCmd_sound | with_reducible apply State.xferPut_sound
    | simp only [State.sound_mk] | with_reducible apply State.Sound.out | dsimp only | split

theorem State.openDomain_sound (s : State) (n key : Nat) (h0 : s.Sound) : State.Sound (State.openDomain s n key) := by
  unfold State.openDomain
  repeat' first
    | with_reducible assumption | intro _ | with_reducible apply State.setCmd_sound

end Sys2Proof.Machine
end

