-- ==== Sys2Proof/Laws/SoundCore.lean ====
section
/-! SUPPORT. Each operation of SDO servers, a core and its instructions, and the rows of the field network keeps memory canonical, and the
Lighthouse from driving VALID to both partners. -/

namespace Sys2Proof.Machine

set_option Elab.async false

theorem State.alarmRun_sound (s : State) (n : Nat) (h0 : s.Sound) : State.Sound (State.alarmRun s n) := by
  unfold State.alarmRun
  repeat' first
    | with_reducible assumption | intro _ | with_reducible apply ite_sound0 | with_reducible apply State.wakeUp_sound
    | with_reducible apply State.alarmFire_sound

theorem State.calTick_sound (s : State) (h0 : s.Sound) : State.Sound (State.calTick s) := by
  unfold State.calTick
  repeat' first
    | with_reducible assumption | intro _ | with_reducible apply State.setCal_sound | with_reducible apply State.each_sound
    | with_reducible apply State.alarmRun_sound

theorem State.sdoClear_sound (s : State) (k : Nat) (h0 : s.Sound) : State.Sound (State.sdoClear s k) := h0.same rfl rfl

theorem State.sdoStop_sound (s : State) (k key code : Nat) (h0 : s.Sound) : State.Sound (State.sdoStop s k key code) := h0.same rfl rfl

theorem State.sdoAfter_sound (s s' : State) (k key : Nat) (ack : Option (List Byte)) (v : Nat) (ok : State → State) (h : s'.Sound)
    (hf : ∀ u, State.Sound u → (ok u).Sound) : State.Sound (s.sdoAfter s' k key ack v ok) := by
  unfold State.sdoAfter
  extract_lets n st
  split
  · exact State.modMb_sound _ _ _ h
  · split
    · exact State.sdoStop_sound _ _ _ _ h
    · exact hf _ h

theorem State.sdoStore_sound (s : State) (k key : Nat) (b ack : List Sys2Proof.Byte) (h0 : s.Sound) : State.Sound (State.sdoStore s k key b ack) := by
  unfold State.sdoStore
  extract_lets n ok w
  have hf : ∀ u, State.Sound u → (ok u).Sound := fun u hu => State.sdoSend_sound _ _ _ hu
  clear_value ok w n
  split
  · exact State.sdoAfter_sound _ _ _ _ _ _ _ (State.setCmd_sound _ _ _ _ (State.xferPut_sound _ _ _ _ h0)) hf
  · exact State.sdoAfter_sound _ _ _ _ _ _ _ (State.dictWrite_sound _ _ _ _ _ _ h0) hf

theorem State.sdoOpenDown_sound (s : State) (k key : Nat) (h0 : s.Sound) : State.Sound (State.sdoOpenDown s k key) := by
  unfold State.sdoOpenDown
  repeat' first
    | with_reducible assumption | intro _ | with_reducible apply ite_sound0 | with_reducible apply State.setCmd_sound

theorem State.sdoSegment_sound (s : State) (k cmd : Nat) (down : Bool) (f : SdoXfer → State) (h : s.Sound)
    (hf : ∀ x, State.Sound (f x)) : State.Sound (s.sdoSegment k cmd down f) := by
  unfold State.sdoSegment
  split
  · exact State.sdoStop_sound _ _ _ _ h
  · repeat' split
    all_goals first | exact State.sdoStop_sound _ _ _ _ h | exact hf _

theorem State.sdoDown_sound (s : State) (k key cmd : Nat) (d : List Sys2Proof.Byte) (h0 : s.Sound) : State.Sound (State.sdoDown s k key cmd d) := by
  unfold State.sdoDown
  extract_lets o
  have ho : o.Sound := State.sdoOpenDown_sound _ _ _ h0
  clear_value o
  split
  · exact State.sdoStop_sound _ _ _ _ ho
  · split
    · exact State.sdoStore_sound _ _ _ _ _ ho
    · exact State.sdoSend_sound _ _ _ (State.modMb_sound _ _ _ ho)

theorem State.sdoDownSeg_sound (s : State) (k : Nat) (x : SdoXfer) (cmd : Nat) (d : List Sys2Proof.Byte) (h0 : s.Sound) : State.Sound (State.sdoDownSeg s k x cmd d) := by
  unfold State.sdoDownSeg
  extract_lets y next
  have hn : next.Sound := State.modMb_sound _ _ _ h0
  clear_value next y
  split
  · exact State.sdoStore_sound _ _ _ _ _ (State.modMb_sound _ _ _ h0)
  · exact State.sdoSend_sound _ _ _ hn

theorem State.sdoUpload_sound (s : State) (k key : Nat) (h0 : s.Sound) : State.Sound (State.sdoUpload s k key) := by
  unfold State.sdoUpload
  extract_lets n
  clear_value n
  split
  · refine State.sdoAfter_sound _ _ _ _ _ _ _ (State.openDomain_sound _ _ _ h0) (fun u hu => ?_)
    extract_lets b v
    have hv : v.Sound := by
      unfold v
      split
      · exact State.modSes_sound _ _ _ hu
      · exact hu
    clear_value v b
    exact State.sdoUp_sound _ _ _ _ hv
  · split
    rename_i heq
    refine State.sdoAfter_sound _ _ _ _ _ _ _ (sound_of_eq heq (State.dictRead_sound _ _ _ h0)) (fun u hu => ?_)
    extract_lets w
    exact State.sdoUp_sound _ _ _ _ hu

theorem State.sdoUpSeg_sound (s : State) (k : Nat) (x : SdoXfer) (h0 : s.Sound) : State.Sound (State.sdoUpSeg s k x) := by
  unfold State.sdoUpSeg
  repeat' first
    | with_reducible assumption | intro _
    | (extract_lets +onlyGivenNames u; refine cut_goal (P := State.Sound u) ?_ fun _ => ?_; (on_goal 2 => clear_value u); (on_goal 1 => (unfold u; clear u)))
    | (extract_lets +onlyGivenNames u; clear_value u) | with_reducible apply ite_sound0
    | with_reducible apply State.sdoClear_sound | with_reducible apply State.modMb_sound
    | with_reducible apply State.sdoSend_sound

theorem State.sdoServe_sound (s : State) (k : Nat) (d : List Sys2Proof.Byte) (h0 : s.Sound) : State.Sound (State.sdoServe s k d) := by
  unfold State.sdoServe
  extract_lets cmd key
  clear_value cmd key
  split
  · exact State.sdoSegment_sound _ _ _ _ _ h0 (fun x => State.sdoDownSeg_sound _ _ _ _ _ h0)
  · exact State.sdoDown_sound _ _ _ _ _ (State.sdoClear_sound _ _ h0)
  · exact State.sdoUpload_sound _ _ _ (State.sdoClear_sound _ _ h0)
  · exact State.sdoSegment_sound _ _ _ _ _ h0 (fun x => State.sdoUpSeg_sound _ _ _ h0)
  · exact State.sdoClear_sound _ _ h0
  · exact State.sdoStop_sound _ _ _ _ h0

theorem State.canArrive_sound (s : State) (k : Nat) (f : Sys2Proof.CanFrame) (stamp : Nat) (h0 : s.Sound) : State.Sound (State.canArrive s k f stamp) := by
  unfold State.canArrive
  repeat' first
    | with_reducible assumption | intro _
    | (extract_lets +onlyGivenNames u; refine cut_goal (P := State.Sound u) ?_ fun _ => ?_; (on_goal 2 => clear_value u); (on_goal 1 => (unfold u; clear u)))
    | (extract_lets +onlyGivenNames u; clear_value u) | with_reducible apply ite_sound0
    | with_reducible apply State.canReceive_sound | with_reducible apply State.sdoServe_sound

theorem State.cacheHit_sound (s : State) (c kind line : Nat) (l : List Nat) (h0 : s.Sound) : State.Sound (State.cacheHit s c kind line l).1 := by
  unfold State.cacheHit
  repeat' first
    | with_reducible assumption | intro _ | with_reducible apply ite_sound0 | with_reducible apply State.modCore_sound
    | with_reducible apply State.incOb_sound | with_reducible apply foldl_sound1 | split

theorem State.lineIn_sound (s : State) (c kind line key : Nat) (h0 : s.Sound) : State.Sound (State.lineIn s c kind line key) := by
  unfold State.lineIn
  repeat' first
    | with_reducible assumption | intro _
    | (extract_lets +onlyGivenNames u; refine cut_goal (P := State.Sound u) ?_ fun _ => ?_; (on_goal 2 => clear_value u); (on_goal 1 => (unfold u; clear u)))
    | (extract_lets +onlyGivenNames u; clear_value u) | with_reducible apply ite_sound0
    | with_reducible apply State.countCorr_sound | with_reducible apply State.modCore_sound

theorem State.cacheTouch_sound (s : State) (c line key : Nat) (bitpipe : Bool) (h0 : s.Sound) : State.Sound (State.cacheTouch s c line key bitpipe).1 := by
  unfold State.cacheTouch
  repeat' first
    | with_reducible assumption | intro _ | (extract_lets +onlyGivenNames u; clear_value u) | with_reducible apply ite_sound0
    | with_reducible apply State.cacheHit_sound | with_reducible apply State.lineIn_sound
    | with_reducible apply State.modCore_sound | with_reducible apply State.draw_sound | simp only [State.sound_mk]
    | with_reducible apply State.Sound.out | dsimp only | split

theorem State.icacheTouch_sound (s : State) (c line : Nat) (key : Option Nat) (h0 : s.Sound) : State.Sound (State.icacheTouch s c line key).1 := by
  unfold State.icacheTouch
  repeat' first
    | with_reducible assumption | intro _ | with_reducible apply ite_sound0 | with_reducible apply State.cacheHit_sound
    | with_reducible apply State.modCore_sound | with_reducible apply State.lineIn_sound
    | with_reducible apply State.draw_sound | simp only [State.sound_mk] | with_reducible apply State.Sound.out | dsimp only
    | split

theorem State.coreSram_sound (s : State) (c key n : Nat) (h0 : s.Sound) : State.Sound (State.coreSram s c key n).1 := by
  unfold State.coreSram
  repeat' first
    | with_reducible assumption | intro _ | with_reducible apply State.countCorr_sound

theorem State.fetchBytes_sound (s : State) (c addr n : Nat) (h0 : s.Sound) : State.Sound (State.fetchBytes s c addr n).1 := by
  unfold State.fetchBytes
  extract_lets lines bank go
  have hg : go.1.Sound := by
    refine foldl_sound1 _ _ h0 (fun p x hp => ?_)
    exact State.icacheTouch_sound _ _ _ _ hp
  clear_value go bank lines
  repeat' split
  · exact h0
  · exact hg
  · exact hg
  · exact h0

theorem State.bufStore_sound (s : State) (g addr : Nat) (b : List Sys2Proof.Byte) (h0 : s.Sound) : State.Sound (State.bufStore s g addr b) := by
  unfold State.bufStore
  repeat' first
    | with_reducible assumption | intro _
    | (extract_lets +onlyGivenNames u; refine cut_goal (P := State.Sound u) ?_ fun _ => ?_; (on_goal 2 => clear_value u); (on_goal 1 => (unfold u; clear u)))
    | (extract_lets +onlyGivenNames u; clear_value u) | with_reducible apply ite_sound0
    | with_reducible apply State.setCore_sound | with_reducible apply State.modCtx_sound

theorem State.wbRun_sound (s : State) (c word : Nat) (first : Bool) (r : List WbByte) (h0 : s.Sound) : State.Sound (State.wbRun s c word first r).1 := by
  unfold State.wbRun
  repeat' first
    | with_reducible assumption | intro _ | (extract_lets +onlyGivenNames u; clear_value u) | with_reducible apply ite_sound0
    | with_reducible apply State.dataWrite_sound | with_reducible apply State.fabricWrite_sound | simp only [State.sound_mk]
    | with_reducible apply State.Sound.out | dsimp only | split

theorem State.wbWrite_sound (s : State) (c : Nat) (e : WbEntry) (h0 : s.Sound) : State.Sound (State.wbWrite s c e).1 := by
  unfold State.wbWrite
  repeat' first
    | with_reducible assumption | intro _ | with_reducible apply_assumption | with_reducible apply State.wbRun_sound
    | with_reducible apply State.each_sound | with_reducible apply State.sharing_sound | with_reducible apply foldl_sound1
    | simp only [State.sound_mk] | with_reducible apply State.Sound.out | dsimp only
    | with_reducible refine sound_of_eq (by assumption) ?_ | split

theorem State.wbRoom_sound (s : State) (g : Nat) (h0 : s.Sound) : State.Sound (State.wbRoom s g) := by
  unfold State.wbRoom
  repeat' first
    | with_reducible assumption | intro _ | (extract_lets +onlyGivenNames u; clear_value u) | with_reducible apply ite_sound0
    | with_reducible apply State.modCtx_sound | with_reducible apply State.setCore_sound

theorem State.faulted_sound (s : State) (g code detail : Nat) (fpc faddr pc : Sys2Proof.Word) (h0 : s.Sound) : State.Sound (State.faulted s g code detail fpc faddr pc) := by
  unfold State.faulted
  repeat' first
    | with_reducible assumption | intro _ | with_reducible apply State.txnSettle_sound
    | with_reducible apply State.taskFault_sound

theorem State.storeGoesOn_sound (s : State) (g : Nat) (h0 : s.Sound) : State.Sound (State.storeGoesOn s g) := by
  unfold State.storeGoesOn
  repeat' first
    | with_reducible assumption | intro _
    | (extract_lets +onlyGivenNames u; refine cut_goal (P := State.Sound u) ?_ fun _ => ?_; (on_goal 2 => clear_value u); (on_goal 1 => (unfold u; clear u)))
    | (extract_lets +onlyGivenNames u; clear_value u) | with_reducible apply ite_sound0
    | with_reducible apply State.wbRoom_sound | with_reducible apply State.each_sound | with_reducible apply State.modCtx_sound
    | with_reducible apply State.faulted_sound

theorem State.delayedFault_sound (s : State) (g task : Nat) (pc : Sys2Proof.Word) (addr : Nat) (h0 : s.Sound) : State.Sound (State.delayedFault s g task pc addr) := by
  unfold State.delayedFault
  repeat' first
    | with_reducible assumption | intro _
    | (extract_lets +onlyGivenNames u; refine cut_goal (P := State.Sound u) ?_ fun _ => ?_; (on_goal 2 => clear_value u); (on_goal 1 => (unfold u; clear u)))
    | (extract_lets +onlyGivenNames u; clear_value u) | with_reducible apply ite_sound0
    | with_reducible apply State.modCtx_sound | with_reducible apply State.faultRecord_sound
    | with_reducible apply State.storeGoesOn_sound | with_reducible apply State.faulted_sound

theorem State.wbFailed_sound (s : State) (e : WbEntry) (h0 : s.Sound) : State.Sound (State.wbFailed s e) := by
  unfold State.wbFailed
  repeat' first
    | with_reducible assumption | intro _ | (extract_lets +onlyGivenNames u; clear_value u)
    | with_reducible apply State.each_sound | with_reducible apply State.delayedFault_sound

theorem State.drainOne_sound (s : State) (c : Nat) (h0 : s.Sound) : State.Sound (State.drainOne s c) := by
  unfold State.drainOne
  repeat' first
    | with_reducible assumption | intro _ | with_reducible apply ite_sound0 | with_reducible apply State.copyProgress_sound
    | with_reducible apply State.countHold_sound | with_reducible apply State.modCore_sound
    | with_reducible apply State.wbWrite_sound | with_reducible apply State.wbFailed_sound | simp only [State.sound_mk]
    | with_reducible apply State.Sound.out | dsimp only | with_reducible refine sound_of_eq (by assumption) ?_ | split

theorem State.drainN_sound (s : State) (c y2 : Nat) (h0 : s.Sound) : State.Sound (State.drainN s c y2) := by
  induction y2 generalizing s with
  | zero => exact h0
  | succ n ih => exact ih _ (State.drainOne_sound _ _ h0)

theorem State.drainAll_sound (s : State) (c : Nat) (h0 : s.Sound) : State.Sound (State.drainAll s c) := by
  unfold State.drainAll
  repeat' first
    | with_reducible assumption | intro _ | with_reducible apply State.drainN_sound

theorem State.readPiece_sound (s : State) (c g addr n : Nat) (bitpipe : Bool) (h0 : s.Sound) : State.Sound (State.readPiece s c g addr n bitpipe).1 := by
  unfold State.readPiece
  repeat' first
    | with_reducible assumption | intro _ | (extract_lets +onlyGivenNames u; clear_value u) | with_reducible apply ite_sound0
    | with_reducible apply State.coreSram_sound | with_reducible apply State.cacheTouch_sound
    | with_reducible apply State.rebaseTo_sound | with_reducible apply State.countCorr_sound | simp only [State.sound_mk]
    | with_reducible apply State.Sound.out | dsimp only | split

theorem State.landFlight_sound (s : State) (f : Flight) (h0 : s.Sound) : State.Sound (State.landFlight s f) := h0.same rfl rfl

theorem State.landCtx_sound (s : State) (g : Nat) (h0 : s.Sound) : State.Sound (State.landCtx s g) := by
  unfold State.landCtx
  repeat' first
    | with_reducible assumption | intro _ | (extract_lets +onlyGivenNames u; clear_value u) | with_reducible apply ite_sound0
    | with_reducible apply State.modCore_sound | with_reducible apply State.each_sound
    | with_reducible apply State.landFlight_sound

theorem State.landOne_sound (s : State) (c : Nat) (h0 : s.Sound) : State.Sound (State.landOne s c) := by
  unfold State.landOne
  repeat' first
    | with_reducible assumption | intro _ | with_reducible apply State.loadsDone_sound
    | with_reducible apply State.modCore_sound | with_reducible apply State.landFlight_sound | simp only [State.sound_mk]
    | with_reducible apply State.Sound.out | dsimp only | split

theorem State.flightLost_sound (s : State) (f : Flight) (h0 : s.Sound) : State.Sound (State.flightLost s f) := by
  unfold State.flightLost
  repeat' first
    | with_reducible assumption | intro _
    | (extract_lets +onlyGivenNames u; refine cut_goal (P := State.Sound u) ?_ fun _ => ?_; (on_goal 2 => clear_value u); (on_goal 1 => (unfold u; clear u)))
    | (extract_lets +onlyGivenNames u; clear_value u) | with_reducible apply ite_sound0
    | with_reducible apply State.modCore_sound | with_reducible apply State.faulted_sound
    | with_reducible apply State.modCtx_sound

theorem State.linkLost_sound (s : State) (die : Nat) (h0 : s.Sound) : State.Sound (State.linkLost s die) := by
  unfold State.linkLost
  repeat' first
    | with_reducible assumption | intro _
    | (extract_lets +onlyGivenNames u; refine cut_goal (P := State.Sound u) ?_ fun _ => ?_; (on_goal 2 => clear_value u); (on_goal 1 => (unfold u; clear u)))
    | (extract_lets +onlyGivenNames u; clear_value u) | with_reducible apply State.dmaLinkLost_sound
    | with_reducible apply State.each_sound | with_reducible apply State.raiseSt_sound
    | with_reducible apply State.flightLost_sound | simp only [State.sound_mk] | with_reducible apply State.Sound.out

theorem State.oemHold_sound (s : State) (c g addr tag : Nat) (h0 : s.Sound) : State.Sound (State.oemHold s c g addr tag) := h0.same rfl rfl

theorem State.bracketEnd_sound (s : State) (g : Nat) (h0 : s.Sound) : State.Sound (State.bracketEnd s g) := by
  unfold State.bracketEnd
  repeat' first
    | with_reducible assumption | intro _
    | (extract_lets +onlyGivenNames u; refine cut_goal (P := State.Sound u) ?_ fun _ => ?_; (on_goal 2 => clear_value u); (on_goal 1 => (unfold u; clear u)))
    | (extract_lets +onlyGivenNames u; clear_value u) | with_reducible apply ite_sound0
    | with_reducible apply State.modCtx_sound | with_reducible apply State.faulted_sound
    | with_reducible apply State.resched_sound

theorem State.complete_sound (s : State) (g : Nat) (e : Sys2Proof.Enc) (opens : Bool) (pc next : Sys2Proof.Word) (raised : Nat) (swtrap : Option Nat) (h0 : s.Sound) : State.Sound (State.complete s g e opens pc next raised swtrap) := by
  unfold State.complete
  repeat' first
    | with_reducible assumption | intro _
    | (extract_lets +onlyGivenNames u; refine cut_goal (P := State.Sound u) ?_ fun _ => ?_; (on_goal 2 => clear_value u); (on_goal 1 => (unfold u; clear u)))
    | with_reducible apply ite_sound0 | with_reducible apply State.modCtx_sound | with_reducible apply State.faulted_sound
    | with_reducible apply State.resched_sound | simp only [State.sound_mk] | with_reducible apply State.Sound.out | dsimp only
    | split

theorem State.keepHeld_sound (was s : State) (c g : Nat) (h0 : was.Sound) (h1 : s.Sound) : State.Sound (State.keepHeld was s c g) := by
  unfold State.keepHeld
  repeat' first
    | with_reducible assumption | intro _ | (extract_lets +onlyGivenNames u; clear_value u) | with_reducible apply ite_sound0
    | with_reducible apply State.modCore_sound

theorem State.dropHeld_sound (was s : State) (c g : Nat) (h0 : was.Sound) (h1 : s.Sound) : State.Sound (State.dropHeld was s c g) := by
  unfold State.dropHeld
  repeat' first
    | with_reducible assumption | intro _ | with_reducible apply ite_sound0 | with_reducible apply State.modCore_sound

/-- The state that a load answers with is sound. -/
def LdAns.Sound : LdAns → Prop
  | .ok s _ _ => s.Sound
  | .oem s _ => s.Sound
  | .fault _ _ => True
  | .hold s => s.Sound

/-- The state that a store answers with is sound. -/
def StAns.Sound : StAns → Prop
  | .ok s => s.Sound
  | .fault _ _ => True
  | .hold s => s.Sound

/-- The state that an instruction answers with is sound. -/
def Res.Sound : Res → Prop
  | .fault _ _ _ => True
  | .counted s _ _ _ => s.Sound
  | .next s _ _ _ => s.Sound
  | .again s => s.Sound
  | .hold s => s.Sound

theorem State.readPieces_sound (s : State) (c g : Nat) (bitpipe : Bool) (l : List (Nat × Nat)) (h : s.Sound) :
    (s.readPieces c g bitpipe l).Sound := by
  unfold State.readPieces
  extract_lets r
  have hr : r.1.Sound := foldl_sound1 _ _ h (fun p x hp => State.readPiece_sound _ _ _ _ _ _ hp)
  clear_value r
  repeat' split
  · trivial
  · trivial
  · exact hr

theorem State.dictLoad_sound (s : State) (g idx sub off n : Nat) (h : s.Sound) : (s.dictLoad g idx sub off n).Sound := by
  unfold State.dictLoad
  extract_lets key k u
  have hu : u.Sound := State.oemEnter_sound _ _ _ _ _ h
  clear_value u k key
  split
  · exact State.setCore_sound _ _ _ h
  · split
    · exact h
    · split
      · split
        · exact hu
        · exact hu
      · split
        · split
          rename_i he
          exact sound_of_eq he (State.apRead_sound _ _ _ _ h)
        · split
          · split
            exact State.setResult_sound _ _ _ _ _ _ h
          · split
            rename_i he
            exact sound_of_eq he (State.dictRead_sound _ _ _ h)

theorem State.coreLoad_sound (s : State) (c g addr n : Nat) (bitpipe : Bool) (h : s.Sound) : (s.coreLoad c g addr n bitpipe).Sound := by
  unfold State.coreLoad
  extract_lets w keys buf far wait u
  have hu : u.Sound := by
    unfold u
    split
    · exact State.drainN_sound _ _ _ h
    · exact h
  clear_value u wait far buf keys w
  split
  · split
    · exact State.dictLoad_sound _ _ _ _ _ _ h
    · trivial
  · have hp := State.readPieces_sound u c g bitpipe (pieces addr n) hu
    split
    · trivial
    · split
      · exact h
      · split
        · exact hu
        · split
          · rename_i heq; rw [heq] at hp; exact hp
          · exact hp

theorem State.coreStore_sound (s : State) (c g addr : Nat) (b : List Byte) (h : s.Sound) : (s.coreStore c g addr b).Sound := by
  unfold State.coreStore
  split
  · trivial
  · split
    · split
      · trivial
      · split
        · exact h
        · exact State.dictWrite_sound _ _ _ _ _ _ h
    · exact State.sramWrite_sound _ _ _ (State.rebaseTo_sound _ _ h)
    · exact State.bufStore_sound _ _ _ _ h

theorem State.issue_sound (s : State) (c : Nat) (e : Sys2Proof.Enc) (f : Form) (body : State → Nat → Ctx → Word → Res) (h : s.Sound)
    (hf : ∀ u g x n, State.Sound u → (body u g x n).Sound) : State.Sound (s.issue c e f body) := by
  unfold State.issue
  split
  · exact h
  · rename_i g _
    split
    · exact h
    · extract_lets a b x pc code len opens
      have ha : a.Sound := State.bracketEnd_sound _ _ h
      have hb : b.Sound := State.landCtx_sound _ _ ha
      clear_value x b pc code len opens
      have hft := State.fetchBytes_sound b c pc.toNat len hb
      split
      · exact ha
      · split
        · exact State.faulted_sound _ _ _ _ _ _ _ hb
        · exact State.faulted_sound _ _ _ _ _ _ _ hb
        · rename_i heq _
          exact State.faulted_sound _ _ _ _ _ _ _ (sound_of_eq heq hft)
        · exact hb
        · rename_i u _ heq _
          have hu := sound_of_eq heq hft
          have hx := hf u g x (pc + BitVec.ofNat 32 (f.length e)) hu
          split
          · exact State.faulted_sound _ _ _ _ _ _ _ (State.dropHeld_sound _ _ _ _ hu hu)
          · rename_i he; rw [he] at hx; exact State.faulted_sound _ _ _ _ _ _ _ (State.dropHeld_sound _ _ _ _ hu hx)
          · rename_i he; rw [he] at hx; exact State.complete_sound _ _ _ _ _ _ _ _ (State.dropHeld_sound _ _ _ _ hu hx)
          · rename_i he; rw [he] at hx
            split
            · exact hx
            · exact State.modCtx_sound _ _ _ (State.dropHeld_sound _ _ _ _ hu hx)
          · rename_i he; rw [he] at hx; exact State.keepHeld_sound _ _ _ _ hu hx

theorem State.result_sound (s : State) (g : Nat) (e : Sys2Proof.Enc) (next : Word) (v raised : Nat) (h : s.Sound) :
    (s.result g e next v raised).Sound := State.modCtx_sound _ _ _ h

theorem State.fresult_sound (s : State) (g n : Nat) (next : Word) (r : Nat × Nat) (h : s.Sound) :
    (s.fresult g n next r).Sound := State.modCtx_sound _ _ _ h

theorem State.storeRes_sound (s : State) (c g addr : Nat) (b : List Byte) (next : Word) (post : Ctx → Ctx) (h : s.Sound) :
    (s.storeRes c g addr b next post).Sound := by
  unfold State.storeRes
  have hc := State.coreStore_sound s c g addr b h
  split
  · trivial
  · rename_i he; rw [he] at hc; exact hc
  · rename_i he; rw [he] at hc; exact State.modCtx_sound _ _ _ hc

theorem State.loadTo_sound (s : State) (c g addr n dst : Nat) (wide bitpipe : Bool) (next : Word) (ext : Nat) (post : Ctx → Ctx)
    (h : s.Sound) : (s.loadTo c g addr n dst wide bitpipe next ext post).Sound := by
  unfold State.loadTo
  extract_lets x
  clear_value x
  have hc := State.coreLoad_sound s c g addr n bitpipe h
  split
  · trivial
  · rename_i he; rw [he] at hc; exact hc
  · rename_i he; rw [he] at hc
    extract_lets u v
    have hu : u.Sound := State.modCtx_sound _ _ _ hc
    clear_value u v
    split
    · exact State.modCore_sound _ _ _ hu
    · exact State.modCtx_sound _ _ _ hu
  · rename_i he; rw [he] at hc; exact State.modCore_sound _ _ _ (State.modCtx_sound _ _ _ hc)

theorem State.blockNext_sound (s : State) (g : Nat) (e : Sys2Proof.Enc) (next : Word) (h : s.Sound) : (s.blockNext g e next).Sound := by
  unfold State.blockNext
  extract_lets u
  have hu : u.Sound := State.modCtx_sound _ _ _ h
  clear_value u
  split
  · exact hu
  · exact hu

theorem State.seekBlock_sound (s : State) (g : Nat) (e : Sys2Proof.Enc) (next : Word) (stop : Bool) (h : s.Sound) :
    (s.seekBlock g e next stop).Sound := by
  unfold State.seekBlock
  extract_lets done u
  have hd : ∀ x v, State.Sound x → (done x v).Sound := fun x v hx => State.modCtx_sound _ _ _ hx
  have hu : u.Sound := State.modCtx_sound _ _ _ h
  clear_value u done
  repeat' split
  · exact hd _ _ h
  · exact hu
  · exact hd _ _ hu

theorem State.bitRead_sound (s : State) (c g a : Nat) (k : State → Byte → Res) (h : s.Sound)
    (hk : ∀ u b, State.Sound u → (k u b).Sound) : (s.bitRead c g a k).Sound := by
  unfold State.bitRead
  have hc := State.coreLoad_sound s c g a 1 true h
  split
  · trivial
  · rename_i he; rw [he] at hc; exact hc
  · rename_i he; rw [he] at hc; exact State.oemHold_sound _ _ _ _ _ hc
  · rename_i he; rw [he] at hc; exact hk _ _ hc

theorem State.gather_sound (s : State) (c g base : Nat) (d : List Byte) (h : s.Sound) : (s.gather c g base d).1.Sound := by
  unfold State.gather
  have fold : ∀ (l : List Nat) (f : LdAns × Nat → Nat → LdAns × Nat) (p : LdAns × Nat), (∀ q x, q.1.Sound → (f q x).1.Sound) →
      p.1.Sound → (l.foldl f p).1.Sound := by
    intro l f
    induction l with
    | nil => intro p _ hp; exact hp
    | cons x t ih => intro p hf hp; exact ih _ hf (hf _ _ hp)
  refine fold _ _ _ (fun q x hq => ?_) h
  extract_lets e a
  clear_value e a
  obtain ⟨r, v⟩ := q
  split
  · exact hq
  · cases r with
    | ok u b far =>
      have hc := State.coreLoad_sound u c g a 1 true hq
      dsimp only
      split
      · rename_i hl; rw [hl] at hc; exact hc
      · exact hc
    | fault code detail =>
      dsimp only
      split
      · split <;> trivial
      · trivial
    | hold u => exact hq
    | oem u t => exact hq

theorem State.compareWords_sound (s : State) (c g a d : Nat) (k : State → Bool → Res) (h : s.Sound)
    (hk : ∀ u b, State.Sound u → (k u b).Sound) : (s.compareWords c g a d k).Sound := by
  unfold State.compareWords
  have hc := State.coreLoad_sound s c g a 4 false h
  split
  · trivial
  split
  · trivial
  split
  · repeat' split
    all_goals trivial
  · rename_i he; rw [he] at hc; exact hc
  · rename_i he; rw [he] at hc; exact State.oemHold_sound _ _ _ _ _ hc
  · rename_i u _ _ he; rw [he] at hc
    have hd := State.coreLoad_sound u c g d 4 false hc
    split
    · trivial
    · rename_i he; rw [he] at hd; exact hd
    · rename_i he; rw [he] at hd; exact State.oemHold_sound _ _ _ _ _ hd
    · rename_i he; rw [he] at hd; exact hk _ _ hd

theorem State.exchange_sound (s : State) (c g a ra : Nat) (next : Word) (h : s.Sound) : (s.exchange c g a ra next).Sound := by
  unfold State.exchange
  extract_lets x ok u
  have hu : u.Sound := State.drainAll_sound _ _ h
  clear_value x ok u
  have hp := State.readPieces_sound u c g false [(a, 4)] hu
  split
  · trivial
  · split
    · trivial
    · split
      · exact hu
      · split
        · trivial
        · rename_i he; rw [he] at hp; exact hp
        · rename_i he; rw [he] at hp; exact hp
        · rename_i he; rw [he] at hp
          exact State.modCtx_sound _ _ _ (State.drainAll_sound _ _ (State.bufStore_sound _ _ _ _ hp))

theorem State.cellAt_fault (s : State) (c g a align detail : Nat) {r : Res} (he : s.cellAt c g a align detail = .inl r) : r.Sound := by
  unfold State.cellAt at he
  split at he
  · cases he; trivial
  · split at he
    · dsimp only at he
      split at he
      · cases he; trivial
      · cases he
    · cases he; trivial

theorem State.cellAt_sound (s : State) (c g a align detail : Nat) {u : State} {k : Nat} (h : s.Sound)
    (he : s.cellAt c g a align detail = .inr (u, k)) : u.Sound := by
  unfold State.cellAt at he
  split at he
  · cases he
  · split at he
    · dsimp only at he
      split at he
      · cases he
      · cases he; exact State.countCorr_sound _ _ _ _ (State.rebaseTo_sound _ _ h)
    · cases he

theorem State.count64_sound (s : State) (c g a ra : Nat) (next : Word) (h : s.Sound) : (s.count64 c g a ra next).Sound := by
  unfold State.count64
  extract_lets x done q t
  have hd : ∀ (v : State) (x y : Nat), v.Sound → (done v x y).Sound := fun v x y hv => State.modCtx_sound _ _ _ hv
  have ht : t.Sound := State.finishApply_sound _ h
  clear_value done x q t
  split
  · trivial
  · split
    · split
      · rename_i he; exact State.cellAt_fault _ _ _ _ _ _ he
      · rename_i v k he
        have hv := State.cellAt_sound _ _ _ _ _ _ h he
        extract_lets old new u
        have hu : u.Sound := ite_sound0 hv (State.sramWrite_sound _ _ _ (State.sramWrite_sound _ _ _ hv))
        clear_value u
        exact hd _ _ _ hu
    · split
      · trivial
      · extract_lets old new m
        clear_value m new old
        split
        · exact hd _ _ _ ht
        · have hs := State.bedTxn_sound t m ht
          generalize t.bedTxn m = r at hs ⊢
          obtain ⟨v, ok⟩ := r
          dsimp only at hs ⊢
          split
          · exact hd _ _ _ hs
          · trivial
    · trivial

theorem State.bitOp_sound (s : State) (c : Nat) (e : Sys2Proof.Enc) (f : Form) (body : State → Nat → Ctx → Word → Nat → Byte → Res)
    (h : s.Sound) (hf : ∀ u g x n a b, State.Sound u → (body u g x n a b).Sound) : State.Sound (s.bitOp c e f body) :=
  State.issue_sound _ _ _ _ _ h (fun u g x n hu => State.bitRead_sound _ _ _ _ _ hu (fun v b hv => hf _ _ _ _ _ _ hv))

theorem State.alu_sound (s : State) (c : Nat) (e : Sys2Proof.Enc) (f : Form) (op : Nat → Nat → Nat → Nat × Nat) (h0 : s.Sound) : State.Sound (State.alu s c e f op) := by
  exact State.issue_sound _ _ _ _ _ h0 (fun u g x n hu => State.result_sound _ _ _ _ _ _ hu)

theorem State.aluPlain_sound (s : State) (c : Nat) (e : Sys2Proof.Enc) (f : Form) (op : Nat → Nat → Nat → Nat) (h0 : s.Sound) : State.Sound (State.aluPlain s c e f op) := by
  unfold State.aluPlain
  repeat' first
    | with_reducible assumption | intro _ | with_reducible apply State.alu_sound

theorem State.unary_sound (s : State) (c : Nat) (e : Sys2Proof.Enc) (f : Form) (op : Nat → Nat → Nat) (h0 : s.Sound) : State.Sound (State.unary s c e f op) := by
  exact State.issue_sound _ _ _ _ _ h0 (fun u g x n hu => State.result_sound _ _ _ _ _ _ hu)

theorem State.compare_sound (s : State) (c : Nat) (e : Sys2Proof.Enc) (f : Form) (op : Nat → Nat → Nat → Bool) (h0 : s.Sound) : State.Sound (State.compare s c e f op) := by
  unfold State.compare
  repeat' first
    | with_reducible assumption | intro _ | with_reducible apply State.aluPlain_sound

theorem State.loadEa_sound (s : State) (c : Nat) (e : Sys2Proof.Enc) (f : Form) (n dst : Nat) (wide : Bool) (ext : Nat) (h0 : s.Sound) : State.Sound (State.loadEa s c e f n dst wide ext) := by
  refine State.issue_sound _ _ _ _ _ h0 (fun u g x n hu => ?_)
  split
  · trivial
  · exact State.loadTo_sound _ _ _ _ _ _ _ _ _ _ _ hu

theorem State.storeEa_sound (s : State) (c : Nat) (e : Sys2Proof.Enc) (f : Form) (n : Nat) (value : Ctx → Nat) (h0 : s.Sound) : State.Sound (State.storeEa s c e f n value) := by
  refine State.issue_sound _ _ _ _ _ h0 (fun u g x n hu => ?_)
  split
  · trivial
  · exact State.storeRes_sound _ _ _ _ _ _ _ hu

theorem State.branch_sound (s : State) (c : Nat) (e : Sys2Proof.Enc) (f : Form) (cond : Ctx → Bool) (post : Ctx → Ctx) (h0 : s.Sound) : State.Sound (State.branch s c e f cond post) := by
  exact State.issue_sound _ _ _ _ _ h0 (fun u g x n hu => State.modCtx_sound _ _ _ hu)

theorem State.float2_sound (s : State) (c : Nat) (e : Sys2Proof.Enc) (f : Form) (op : Fmt → Nat → FVal → FVal → Nat × Nat) (h0 : s.Sound) : State.Sound (State.float2 s c e f op) := by
  exact State.issue_sound _ _ _ _ _ h0 (fun u g x n hu => State.fresult_sound _ _ _ _ _ hu)

theorem State.floatBits_sound (s : State) (c : Nat) (e : Sys2Proof.Enc) (f : Form) (op : Fmt → Nat → Nat) (h0 : s.Sound) : State.Sound (State.floatBits s c e f op) := by
  exact State.issue_sound _ _ _ _ _ h0 (fun u g x n hu => State.fresult_sound _ _ _ _ _ hu)

theorem State.fcompare_sound (s : State) (c : Nat) (e : Sys2Proof.Enc) (f : Form) (quiet : Bool) (op : FVal → FVal → Bool) (h0 : s.Sound) : State.Sound (State.fcompare s c e f quiet op) := by
  exact State.issue_sound _ _ _ _ _ h0 (fun u g x n hu => State.modCtx_sound _ _ _ hu)

theorem State.moveBlock_sound (s : State) (c : Nat) (e : Sys2Proof.Enc) (f : Form) (n : Nat) (fill : Bool) (h0 : s.Sound) : State.Sound (State.moveBlock s c e f n fill) := by
  refine State.issue_sound _ _ _ _ _ h0 (fun u g x m hu => ?_)
  dsimp only
  split
  · exact hu
  · split
    · trivial
    · rename_i d _
      have hp : ∀ (v : State) (b : List Byte), v.Sound → Res.Sound (match v.coreStore c g d b with
          | .fault code detail => Res.fault code detail d
          | .hold s => .hold s
          | .ok s => s.blockNext g e m) := by
        intro v b hv
        have hc := State.coreStore_sound v c g d b hv
        split
        · trivial
        · rename_i he; rw [he] at hc; exact hc
        · rename_i he; rw [he] at hc; exact State.blockNext_sound _ _ _ _ hc
      split
      · exact hp _ _ hu
      · split
        · trivial
        have hc := State.coreLoad_sound u c g (x.sp 21) n false hu
        split
        · trivial
        · rename_i he; rw [he] at hc; exact hc
        · rename_i he; rw [he] at hc; exact State.oemHold_sound _ _ _ _ _ hc
        · rename_i he; rw [he] at hc; exact hp _ _ hc

theorem State.bitLogic_sound (s : State) (c : Nat) (e : Sys2Proof.Enc) (f : Form) (op : Bool → Bool → Bool) (h0 : s.Sound) : State.Sound (State.bitLogic s c e f op) := by
  exact State.bitOp_sound _ _ _ _ _ h0 (fun u g x n a b hu => State.modCtx_sound _ _ _ hu)

theorem State.bitStore_sound (s : State) (c : Nat) (e : Sys2Proof.Enc) (f : Form) (h0 : s.Sound) : State.Sound (State.bitStore s c e f) := by
  exact State.bitOp_sound _ _ _ _ _ h0 (fun u g x n a b hu => State.storeRes_sound _ _ _ _ _ _ _ hu)

theorem State.bitForce_sound (s : State) (c : Nat) (e : Sys2Proof.Enc) (f : Form) (value : Bool) (h0 : s.Sound) : State.Sound (State.bitForce s c e f value) := by
  refine State.issue_sound _ _ _ _ _ h0 (fun u g x n hu => ?_)
  split
  · exact hu
  · exact State.bitRead_sound _ _ _ _ _ hu (fun v b hv => State.storeRes_sound _ _ _ _ _ _ _ hv)

theorem State.edgeOp_sound (s : State) (c : Nat) (e : Sys2Proof.Enc) (f : Form) (rising : Bool) (h0 : s.Sound) : State.Sound (State.edgeOp s c e f rising) := by
  refine State.bitOp_sound _ _ _ _ _ h0 (fun u g x n a b hu => ?_)
  dsimp only
  split
  · exact State.modCtx_sound _ _ _ hu
  · exact State.storeRes_sound _ _ _ _ _ _ _ hu

theorem State.timerOp_sound (s : State) (c : Nat) (e : Sys2Proof.Enc) (f : Form) (eval : Cell → Bool → Nat → Cell) (h0 : s.Sound) : State.Sound (State.timerOp s c e f eval) := by
  refine State.issue_sound _ _ _ _ _ h0 (fun u g x n hu => ?_)
  split
  · rename_i he; exact State.cellAt_fault _ _ _ _ _ _ he
  · rename_i he
    exact State.modCtx_sound _ _ _ (State.setCell_sound _ _ _ (State.cellAt_sound _ _ _ _ _ _ hu he))

theorem State.endDone_sound (s : State) (g : Nat) (h0 : s.Sound) : State.Sound (State.endDone s g) := by
  unfold State.endDone
  repeat' first
    | with_reducible assumption | intro _
    | (extract_lets +onlyGivenNames u; refine cut_goal (P := State.Sound u) ?_ fun _ => ?_; (on_goal 2 => clear_value u); (on_goal 1 => (unfold u; clear u)))
    | (extract_lets +onlyGivenNames u; clear_value u) | with_reducible apply ite_sound0
    | with_reducible apply State.bedDrop_sound | with_reducible apply State.resched_sound
    | with_reducible apply State.modCtx_sound | with_reducible apply State.modTask_sound

theorem State.drainAck_sound (s : State) (g : Nat) (h0 : s.Sound) : State.Sound (State.drainAck s g) := by
  unfold State.drainAck
  repeat' first
    | with_reducible assumption | intro _ | (extract_lets +onlyGivenNames u; clear_value u) | with_reducible apply ite_sound0
    | with_reducible apply State.modCtx_sound | with_reducible apply State.loadsDone_sound
    | with_reducible apply State.endDone_sound | simp only [State.sound_mk] | with_reducible apply State.Sound.out | dsimp only
    | split

theorem State.edgeAccept_sound (s : State) (n : Nat) (rising : Bool) (stamp : Nat) (h0 : s.Sound) : State.Sound (State.edgeAccept s n rising stamp) := by
  unfold State.edgeAccept
  repeat' first
    | with_reducible assumption | intro _ | with_reducible apply ite_sound0 | with_reducible apply State.setFio_sound
    | with_reducible apply State.reachUs_sound | with_reducible apply State.dictate_sound
    | with_reducible apply State.logEdge_sound | with_reducible apply State.when_sound | with_reducible apply State.fire_sound

theorem State.cooled_sound (s : State) (n : Nat) (h0 : s.Sound) : State.Sound (State.cooled s n) := by
  unfold State.cooled
  repeat' first
    | with_reducible assumption | intro _
    | (extract_lets +onlyGivenNames u; refine cut_goal (P := State.Sound u) ?_ fun _ => ?_; (on_goal 2 => clear_value u); (on_goal 1 => (unfold u; clear u)))
    | (extract_lets +onlyGivenNames u; clear_value u) | with_reducible apply ite_sound0
    | with_reducible apply State.setFio_sound | with_reducible apply State.ovlBack_sound

theorem State.ebbTrainsNow_sound (s : State) (h0 : s.Sound) : State.Sound (State.ebbTrainsNow s) := by
  unfold State.ebbTrainsNow
  repeat' first
    | with_reducible assumption | intro _ | with_reducible apply ite_sound0 | with_reducible apply State.setHnw_sound
    | with_reducible apply State.ebbTrains_sound | with_reducible apply State.reach_sound

theorem State.routeRequest_sound (s : State) (r : Route) (target : Nat) (h0 : s.Sound) : State.Sound (State.routeRequest s r target) := by
  unfold State.routeRequest
  repeat' first
    | with_reducible assumption | intro _ | with_reducible apply ite_sound0 | with_reducible apply State.answer_sound
    | with_reducible apply State.route_sound

theorem State.svcOpen_sound (s : State) (path : Nat) (q : Svc) (h0 : s.Sound) : State.Sound (State.svcOpen s path q) := by
  unfold State.svcOpen
  repeat' first
    | with_reducible assumption | intro _ | (extract_lets +onlyGivenNames u; clear_value u)
    | with_reducible apply State.svcFrame_sound | with_reducible apply State.svcSend_sound
    | with_reducible apply State.setSes_sound | simp only [State.sound_mk] | with_reducible apply State.Sound.out | dsimp only
    | split

theorem State.svcAnswer_sound (s y1 : State) (n : Nat) (q : Svc) (data : List Sys2Proof.Byte) (h0 : s.Sound) (h1 : y1.Sound) : State.Sound (State.svcAnswer s y1 n q data) := by
  unfold State.svcAnswer
  repeat' first
    | with_reducible assumption | intro _ | with_reducible apply ite_sound0 | with_reducible apply State.modSes_sound
    | with_reducible apply State.svcSend_sound

theorem State.arrive_sound (s : State) (fr : Rx) (acyclic : Bool) (f : State → State) (h : s.Sound)
    (hf : ∀ u, State.Sound u → (f u).Sound) : State.Sound (s.arrive fr acyclic f) := by
  unfold State.arrive
  split
  · split
    rename_i heq
    have hs := sound_of_eq heq (State.ingress_sound _ _ _ h)
    split
    · exact hf _ hs
    · exact hs
  · exact h
theorem State.ipAnswer_sound (s : State) (fr : Rx) (etype ip : Nat) (kind : FKind) (dst : State → Nat)
    (body : State → List Byte) (h : s.Sound) : State.Sound (s.ipAnswer fr etype ip kind dst body) := by
  unfold State.ipAnswer
  refine State.arrive_sound _ _ _ _ h (fun u hu => ?_)
  split
  · exact State.draw_sound _ (State.enqueue_sound _ _ _ hu)
  · exact hu

theorem State.svcEnter_sound (s : State) (num : Nat) (q : Svc) (serve : State → Nat → State) (h : s.Sound)
    (hf : ∀ u n, State.Sound u → (serve u n).Sound) : State.Sound (s.svcEnter num q serve) := by
  unfold State.svcEnter
  extract_lets n x
  split
  · exact State.svcFrame_sound _ _ _ _ _ h
  · split
    · split
      · exact h
      · exact State.svcFrame_sound _ _ _ _ _ h
    · exact hf _ _ (State.modSes_sound _ _ _ h)

theorem State.toController_sound (s : State) (fr : Rx) (q : Svc) (serve : State → State) (h : s.Sound)
    (hf : ∀ u, State.Sound u → (serve u).Sound) : State.Sound (s.toController fr q serve) := by
  unfold State.toController
  refine State.arrive_sound _ _ _ _ h (fun u hu => ?_)
  repeat' split
  · exact hu
  · exact State.svcFrame_sound _ _ _ _ _ hu
  · exact hf _ hu

theorem State.svcRequest_sound (s : State) (fr : Rx) (same : Bool) (serve : State → Svc → State) (h : s.Sound)
    (hf : ∀ u q, State.Sound u → (serve u q).Sound) : State.Sound (s.svcRequest fr same serve) := by
  unfold State.svcRequest
  split
  · exact State.toController_sound _ _ _ _ h fun u hu => hf _ _ hu
  · exact h

end Sys2Proof.Machine
end

