-- ==== Sys2Proof/WellFormed.lean ====
section
/-! DEFINITION. Well-formed commands: every operand lies in the range of the field, number or object it stands for.
The machine gives a meaning to every command; a command that is not well formed is one no sender can send. -/

namespace Sys2Proof

/-- lo ≤ n ≤ hi. -/
def between (lo hi n : Nat) : Bool := decide (lo ≤ n) && decide (n ≤ hi)

/-- Access widths in bytes (R38). -/
def widthOk (w : Nat) : Bool := w == 1 || w == 2 || w == 4 || w == 8

/-- Fields of an instruction as fetched (R75–R79). -/
def Enc.wf (e : Enc) : Bool :=
  e.pfx.all (fun p => decide (p < 256)) && decide (e.rb < 32) && decide (e.ra < 32) && decide (e.am < 8) &&
    decide (e.disp < 2 ^ 32) && decide (e.imm < 2 ^ 32)

/-- A received frame's fields (R263, R264, R268, R287, R291). -/
def Rx.wf (r : Rx) : Bool :=
  decide (r.port < 18) && decide (r.etype < 65536) && decide (r.dst < 2 ^ 48) && decide (r.src < 2 ^ 48) &&
    (r.hdr == [] || r.hdr.length == 24) && (r.svc == [] || decide (20 ≤ r.svc.length)) && r.ip.isSome == (r.etype == 0x0800) &&
    (r.udp.isNone || r.ip.isSome)

/-- A CAN frame's fields (R386, R389). -/
def CanFrame.wf (f : CanFrame) : Bool :=
  decide (f.id < if f.ext then 2 ^ 29 else 2 ^ 11) && decide (f.dlc < 16) && decide (f.data.length ≤ 64)

/-- A mooring status message's fields (R333). -/
def Status.wf (m : Status) : Bool :=
  decide (m.role < 7) && decide (m.pair < 3) && decide (m.tide < 2 ^ 32) && decide (m.done.length = 16) &&
    decide (m.part < 256) && decide (m.fitted < 65536)

/-- A dictated input's fields (R338). -/
def Dict.wf : Dict → Bool
  | .inputLine b => decide (b.length = 64)
  | .edge n _ _ => decide (n < 16)
  | .can k f _ => decide (k < 4) && f.wf
  | .txDone k b _ _ _ => decide (k < 4) && decide (b < 3)
  | .ebbCount _ => true
  | .release c n _ _ => decide (c < 256) && decide (n < 256)

/-- The end of an attempt: an error is one of the six that LEC names (R398, R404). -/
def TxEnd.wf : TxEnd → Bool
  | .error lec => decide (1 ≤ lec) && decide (lec ≤ 6)
  | _ => true

/-- A C1 report's fields (R364). -/
def C1.wf (r : C1) : Bool :=
  decide (r.rawIn < 2 ^ 16) && decide (r.couplerIn < 2 ^ 16) && decide (r.outSeen < 2 ^ 16) &&
    decide (r.volt.length = 16) && decide (r.limit < 2 ^ 16)

/-- A replicated command's fields (R340). -/
def Repl.wf : Repl → Bool
  | .write i b v => decide (i < 65536) && decide (b < 256) && decide (v < 2 ^ 64)
  | .force _ => true

/-- A block of resynchronisation data (R356). -/
def Resync.wf : Resync → Bool
  | .mem k d => decide (k < 2 ^ 27) && decide (d.length = 4096)
  | .obj i b v => decide (i < 65536) && decide (b < 256) && decide (v < 2 ^ 64)
  | .dom i b _ => decide (i < 65536) && decide (b < 256)
  | .forces _ => true
  | .owner l v => decide (l < 16384) && decide (v < 65536)
  | .task t _ => decide (t < 256)
  | .tide t => decide (t < 2 ^ 64)

/-- Every operand lies in the range its rule gives it. -/
def Instr.wf : Instr → Bool
  | .objectWrite ses idx sub_ width v => decide (ses < 420) && decide (idx < 65536) && decide (sub_ < 256) && widthOk width && decide (v < 2 ^ 64)
  | .login ses v => decide (ses < 420) && decide (v < 2 ^ 64)
  | .lockoutEnd _ => true
  | .sessionIdleClose ses => decide (ses < 420)
  | .txnBegin ses => decide (ses < 420)
  | .txnCommit ses => decide (ses < 420)
  | .txnDiscard ses => decide (ses < 420)
  | .dieVote ses die => decide (ses < 420) && decide (die < 8)
  | .handshakeTimeout kind ses die => between 1 4 kind && decide (ses < 420) && decide (die < 8)
  | .txnApply ses die => decide (ses < 420) && decide (die < 8)
  | .applyConfirm ses die => decide (ses < 420) && decide (die < 8)
  | .txnExpired ses => decide (ses < 420)
  | .domOpen ses v => decide (ses < 420) && decide (v < 2 ^ 64)
  | .domApertureAccess ses _ at_ width v => decide (ses < 420) && decide (at_ < 2048) && widthOk width && decide (v < 2 ^ 64)
  | .domCloseCommit ses => decide (ses < 420)
  | .domCloseAbandon ses => decide (ses < 420)
  | .oemRequest ses idx sub_ _ v => decide (ses < 420) && decide (idx < 65536) && decide (sub_ < 256) && decide (v < 2 ^ 64)
  | .oemReqTake => true
  | .oemAnswer tag status data => decide (tag < 2 ^ 32) && decide (status < 256) && decide (data < 2 ^ 64)
  | .oemTimeout tag => decide (tag < 2 ^ 32)
  | .serviceOpen fr tag => fr.wf && decide (tag < 65536)
  | .serviceClose fr ses tag => fr.wf && decide (ses < 256) && decide (tag < 65536)
  | .serviceRead fr ses tag idx sub_ => fr.wf && decide (ses < 256) && decide (tag < 65536) && decide (idx < 65536) && decide (sub_ < 256)
  | .serviceWrite fr ses tag idx sub_ v => fr.wf && decide (ses < 256) && decide (tag < 65536) && decide (idx < 65536) && decide (sub_ < 256) && decide (v < 2 ^ 64)
  | .serviceDomRead fr ses tag off len => fr.wf && decide (ses < 256) && decide (tag < 65536) && decide (off < 2 ^ 32) && decide (len < 2 ^ 16)
  | .serviceDomWrite fr ses tag off _ => fr.wf && decide (ses < 256) && decide (tag < 65536) && decide (off < 2 ^ 32)
  | .ld c e => decide (c < 24) && e.wf
  | .st c e => decide (c < 24) && e.wf
  | .mov c e => decide (c < 24) && e.wf
  | .add c e => decide (c < 24) && e.wf
  | .ldx c e => decide (c < 24) && e.wf
  | .stx c e => decide (c < 24) && e.wf
  | .bnz c e => decide (c < 24) && e.wf
  | .sub c e => decide (c < 24) && e.wf
  | .neg c e => decide (c < 24) && e.wf
  | .mul c e => decide (c < 24) && e.wf
  | .mulh c e => decide (c < 24) && e.wf
  | .div c e => decide (c < 24) && e.wf
  | .divu c e => decide (c < 24) && e.wf
  | .rem c e => decide (c < 24) && e.wf
  | .remu c e => decide (c < 24) && e.wf
  | .and c e => decide (c < 24) && e.wf
  | .or c e => decide (c < 24) && e.wf
  | .xor c e => decide (c < 24) && e.wf
  | .andn c e => decide (c < 24) && e.wf
  | .not c e => decide (c < 24) && e.wf
  | .shl c e => decide (c < 24) && e.wf
  | .shr c e => decide (c < 24) && e.wf
  | .sar c e => decide (c < 24) && e.wf
  | .adds c e => decide (c < 24) && e.wf
  | .subs c e => decide (c < 24) && e.wf
  | .abs c e => decide (c < 24) && e.wf
  | .abss c e => decide (c < 24) && e.wf
  | .min c e => decide (c < 24) && e.wf
  | .max c e => decide (c < 24) && e.wf
  | .rol c e => decide (c < 24) && e.wf
  | .ror c e => decide (c < 24) && e.wf
  | .ceq c e => decide (c < 24) && e.wf
  | .clt c e => decide (c < 24) && e.wf
  | .cle c e => decide (c < 24) && e.wf
  | .cltu c e => decide (c < 24) && e.wf
  | .cleu c e => decide (c < 24) && e.wf
  | .tst c e => decide (c < 24) && e.wf
  | .cova c e => decide (c < 24) && e.wf
  | .covs c e => decide (c < 24) && e.wf
  | .ldb c e => decide (c < 24) && e.wf
  | .ldbu c e => decide (c < 24) && e.wf
  | .ldh c e => decide (c < 24) && e.wf
  | .ldhu c e => decide (c < 24) && e.wf
  | .stb c e => decide (c < 24) && e.wf
  | .sth c e => decide (c < 24) && e.wf
  | .lea c e => decide (c < 24) && e.wf
  | .xchg c e => decide (c < 24) && e.wf
  | .bz c e => decide (c < 24) && e.wf
  | .br c e => decide (c < 24) && e.wf
  | .call c e => decide (c < 24) && e.wf
  | .ret c e => decide (c < 24) && e.wf
  | .dbnz c e => decide (c < 24) && e.wf
  | .swtrap c e => decide (c < 24) && e.wf
  | .fadd c e => decide (c < 24) && e.wf
  | .fsub c e => decide (c < 24) && e.wf
  | .fmul c e => decide (c < 24) && e.wf
  | .fdiv c e => decide (c < 24) && e.wf
  | .fsqrt c e => decide (c < 24) && e.wf
  | .fmov c e => decide (c < 24) && e.wf
  | .fneg c e => decide (c < 24) && e.wf
  | .fabs c e => decide (c < 24) && e.wf
  | .fceq c e => decide (c < 24) && e.wf
  | .fclt c e => decide (c < 24) && e.wf
  | .fcle c e => decide (c < 24) && e.wf
  | .ftoi c e => decide (c < 24) && e.wf
  | .itof c e => decide (c < 24) && e.wf
  | .fcvt c e => decide (c < 24) && e.wf
  | .fld c e => decide (c < 24) && e.wf
  | .fst c e => decide (c < 24) && e.wf
  | .movb c e => decide (c < 24) && e.wf
  | .movh c e => decide (c < 24) && e.wf
  | .movw c e => decide (c < 24) && e.wf
  | .fillw c e => decide (c < 24) && e.wf
  | .scanw c e => decide (c < 24) && e.wf
  | .cmpw c e => decide (c < 24) && e.wf
  | .bld c e => decide (c < 24) && e.wf
  | .bst c e => decide (c < 24) && e.wf
  | .bset c e => decide (c < 24) && e.wf
  | .brst c e => decide (c < 24) && e.wf
  | .band c e => decide (c < 24) && e.wf
  | .bor c e => decide (c < 24) && e.wf
  | .bandn c e => decide (c < 24) && e.wf
  | .born c e => decide (c < 24) && e.wf
  | .gatb c e => decide (c < 24) && e.wf
  | .rung c e => decide (c < 24) && e.wf
  | .edgr c e => decide (c < 24) && e.wf
  | .edgf c e => decide (c < 24) && e.wf
  | .ton c e => decide (c < 24) && e.wf
  | .tof c e => decide (c < 24) && e.wf
  | .tp c e => decide (c < 24) && e.wf
  | .trst c e => decide (c < 24) && e.wf
  | .trd c e => decide (c < 24) && e.wf
  | .cnt64 c e => decide (c < 24) && e.wf
  | .syncW c e => decide (c < 24) && e.wf
  | .fence c e => decide (c < 24) && e.wf
  | .mfs c e => decide (c < 24) && e.wf
  | .mts c e => decide (c < 24) && e.wf
  | .nop c e => decide (c < 24) && e.wf
  | .endSection c e => decide (c < 24) && e.wf
  | .chkin c e => decide (c < 24) && e.wf
  | .signal c e => decide (c < 24) && e.wf
  | .bracketLimit c => decide (c < 24)
  | .loadDataReturn c => decide (c < 24)
  | .writeBufferRoom c => decide (c < 24)
  | .writeBufferDrain c => decide (c < 24)
  | .drainAck c ctx => decide (c < 24) && decide (ctx < 16)
  | .cpuCtlWrite ses c v => decide (ses < 420) && decide (c < 24) && decide (v < 2 ^ 64)
  | .tdsStart ses => decide (ses < 420)
  | .tdsStop ses => decide (ses < 420)
  | .tdsHalt ses => decide (ses < 420)
  | .tdsClear ses => decide (ses < 420)
  | .rebaseDone strand => between 1 6 strand
  | .ebbPoint => true
  | .inDeadline => true
  | .floodStart => true
  | .floodLatestReached => true
  | .trigger => true
  | .copyInDone t sec => decide (t < 256) && decide (sec < 16)
  | .completionFlag t sec => decide (t < 256) && decide (sec < 16)
  | .publish t => decide (t < 256)
  | .tskEnable ses t => decide (ses < 420) && decide (t < 256)
  | .tskDisable ses t => decide (ses < 420) && decide (t < 256)
  | .tskResume ses t => decide (ses < 420) && decide (t < 256)
  | .tskAbandon ses t => decide (ses < 420) && decide (t < 256)
  | .tskRelease ses t => decide (ses < 420) && decide (t < 256)
  | .keventsRead ses => decide (ses < 420)
  | .cut => true
  | .cutCopyEnd => true
  | .transmitWindowClose => true
  | .launch => true
  | .slackPoint => true
  | .slackWindowEnd => true
  | .forceSet ses => decide (ses < 420)
  | .forceClear ses => decide (ses < 420)
  | .forceRead ses => decide (ses < 420)
  | .forceClearAll ses => decide (ses < 420)
  | .imgCtlWrite ses v => decide (ses < 420) && decide (v < 2 ^ 64)
  | .retBlockSave strand block => between 1 6 strand && decide (block < 65536)
  | .olcLoad ses => decide (ses < 420)
  | .olcLoadDone ses => decide (ses < 420)
  | .olcVerify ses => decide (ses < 420)
  | .verifyDone => true
  | .olcPrepare ses => decide (ses < 420)
  | .prepareVote die _ => decide (die < 7)
  | .olcCommit ses => decide (ses < 420)
  | .olcAbort ses => decide (ses < 420)
  | .olcRelease ses => decide (ses < 420)
  | .olcRetreat ses => decide (ses < 420)
  | .noQuiesce => true
  | .bankSwitch strand => between 1 6 strand
  | .bankConfirm strand => between 1 6 strand
  | .confirmLost strand => between 1 6 strand
  | .olcCompletion => true
  | .cutTideReceive tide => decide (tide < 2 ^ 32)
  | .standbyVoteReceive tide _ => decide (tide < 2 ^ 32)
  | .standbyVoteLate => true
  | .partnerCommitToken tide => decide (tide < 2 ^ 32)
  | .commitTokenMissing => true
  | .resetRelease _ _ _ => true
  | .timeWaitExpiry => true
  | .ntmLockWrite ses v => decide (ses < 420) && decide (v < 2 ^ 64)
  | .startConfirm => true
  | .strColdNext ses => decide (ses < 420)
  | .strRestartCold ses => decide (ses < 420)
  | .strRestartWarm ses => decide (ses < 420)
  | .strClearFails ses => decide (ses < 420)
  | .secProvision ses _ => decide (ses < 420)
  | .ebbTrainLaunch => true
  | .armedSchedule => true
  | .ebbFrameReceive fr body => fr.wf && decide (body.length ≤ 1476)
  | .slackFrameReceive fr body => fr.wf && decide (body.length ≤ 1476)
  | .transitFrame fr cls body => fr.wf && decide (cls < 4) && decide (body.length ≤ 1518)
  | .eventFrame fr body => fr.wf && decide (body.length = 20)
  | .serviceRoute fr ses tag idx sub_ off data => fr.wf && decide (ses < 256) && decide (tag < 65536) && decide (idx < 65536) && decide (sub_ < 256) && decide (off < 2 ^ 32) && decide (data.length ≤ 1024)
  | .serviceResponse fr _ status reason data => fr.wf && decide (status < 256) && decide (reason < 256) && decide (data.length ≤ 1024)
  | .routeTimeout _ => true
  | .relayedServiceRequest _ tag port pos ses op idx sub_ off data => decide (tag < 65536) && decide (port < 16) && decide (pos < 4096) && decide (ses < 256) && decide (op < 256) && decide (idx < 65536) && decide (sub_ < 256) && decide (off < 2 ^ 32) && decide (data.length ≤ 1024)
  | .arpRequest fr ip src => fr.wf && decide (ip < 2 ^ 32) && decide (src < 2 ^ 32)
  | .icmpEcho fr ip src data => fr.wf && decide (ip < 2 ^ 32) && decide (src < 2 ^ 32) && decide (data.length ≤ 1480)
  | .hnwScan ses => decide (ses < 420)
  | .hnwConfigure ses => decide (ses < 420)
  | .hnwCmdDone => true
  | .positionProbe station => decide (station < 4096)
  | .portLinkChange port _ reg0 reg1 => decide (port < 18) && decide (reg0 < 65536) && decide (reg1 < 65536)
  | .timeToken => true
  | .ntmIncrWrite ses v => decide (ses < 420) && decide (v < 2 ^ 64)
  | .ntmSet ses _ => decide (ses < 420)
  | .ntmOffset ses v => decide (ses < 420) && decide (v < 2 ^ 64)
  | .ntmOffsetForce ses v => decide (ses < 420) && decide (v < 2 ^ 64)
  | .ntmNsecRead ses => decide (ses < 420)
  | .ptpReceive fr frame => fr.wf && decide (frame.length ≤ 512)
  | .ptpRxRead ses => decide (ses < 420)
  | .ptpTxSubmit ses _ => decide (ses < 420)
  | .txStampRead ses => decide (ses < 420)
  | .frameLaunch port => decide (port < 18)
  | .launchMiss port => decide (port < 18)
  | .gateChange port => decide (port < 18)
  | .gclActivate ses port v => decide (ses < 420) && decide (port < 18) && decide (v < 2 ^ 64)
  | .mooringStatusSend => true
  | .mooringStatusReceive link m => decide (link < 2) && m.wf
  | .peerAbsent => true
  | .mooringLinkDown link => decide (link < 2)
  | .mooringRetrain link lanes => decide (link < 2) && decide (lanes < 16)
  | .digestReceive tide image parts => decide (tide < 2 ^ 32) && decide (image < 2 ^ 32) && decide (parts.length = 128)
  | .partitionReceive tide part data => decide (tide < 2 ^ 32) && decide (part < 128) && decide (data.length = 4096)
  | .agreedReceive tide => decide (tide < 2 ^ 32)
  | .dictationReceive d => d.wf
  | .replicatedWriteReceive m => m.wf
  | .outputDigestReceive tide image parts => decide (tide < 2 ^ 32) && decide (image < 2 ^ 32) && decide (parts.length = 128)
  | .grantPairChange _ _ => true
  | .witnessStart => true
  | .witnessHbTimeout p => decide (p < 2)
  | .witnessClaimAccept p _ => decide (p < 2)
  | .witnessGrantDrive => true
  | .witnessFault => true
  | .redLeave ses => decide (ses < 420)
  | .redResync ses => decide (ses < 420)
  | .redSwitchover ses => decide (ses < 420)
  | .redDrill ses => decide (ses < 420)
  | .resyncPassEnd _ => true
  | .swapTokenReceive tide => decide (tide < 2 ^ 32)
  | .switchoverDecide => true
  | .drillTimer => true
  | .returnHoldoffExpiry => true
  | .inputEdgeAccept n _ stamp => decide (n < 16) && decide (stamp < 2 ^ 64)
  | .c1Status r => r.wf
  | .diagSettleEnd n => decide (n < 16)
  | .fieldSupplyChange grp _ => decide (grp < 2)
  | .fieldConfigMessage item v => decide (item < 32) && decide (v < 2 ^ 64)
  | .fieldRefresh => true
  | .fieldPark => true
  | .fieldRecover => true
  | .silenceExpiry => true
  | .fioPark ses => decide (ses < 420)
  | .fioRecover ses => decide (ses < 420)
  | .fioClearOvl ses => decide (ses < 420)
  | .ovlSwitchOff n => decide (n < 16)
  | .thermalShutdown n => decide (n < 16)
  | .thermalRelease n => decide (n < 16)
  | .ovlRetry n => decide (n < 16)
  | .edgeLogRead ses => decide (ses < 420)
  | .mbcStart ses k => decide (ses < 420) && decide (k < 4)
  | .busIdleDetect k => decide (k < 4)
  | .mbcStop ses k => decide (ses < 420) && decide (k < 4)
  | .mbcRecover ses k => decide (ses < 420) && decide (k < 4)
  | .busRecovered k => decide (k < 4)
  | .mbcUnlock ses k => decide (ses < 420) && decide (k < 4)
  | .canFrameReceive k f stamp => decide (k < 4) && f.wf && decide (stamp < 2 ^ 64)
  | .sdoRequest k data => decide (k < 4) && decide (data.length = 8)
  | .sdoTimeout k => decide (k < 4)
  | .rdPop ses k v => decide (ses < 420) && decide (k < 4) && decide (v < 2 ^ 64)
  | .rdLastWordRead ses k => decide (ses < 420) && decide (k < 4)
  | .txReq ses k v => decide (ses < 420) && decide (k < 4) && decide (v < 2 ^ 64)
  | .txCancel ses k v => decide (ses < 420) && decide (k < 4) && decide (v < 2 ^ 64)
  | .txStartOfFrame k => decide (k < 4)
  | .txAttemptEnd k r => decide (k < 4) && r.wf
  | .dmaStart ses ch => decide (ses < 420) && decide (ch < 32)
  | .dmaStop ses ch => decide (ses < 420) && decide (ch < 32)
  | .dmaPause ses ch => decide (ses < 420) && decide (ch < 32)
  | .dmaResume ses ch => decide (ses < 420) && decide (ch < 32)
  | .dmaAbort ses ch => decide (ses < 420) && decide (ch < 32)
  | .dmaClear ses ch => decide (ses < 420) && decide (ch < 32)
  | .dmaMove ch => decide (ch < 32)
  | .dmaLoop ch => decide (ch < 32)
  | .dmaWait ch => decide (ch < 32)
  | .dmaSignal ch => decide (ch < 32)
  | .dmaFence ch => decide (ch < 32)
  | .dmaEnd ch => decide (ch < 32)
  | .dmaReadbackDone ch => decide (ch < 32)
  | .dmaWaitRelease ch => decide (ch < 32)
  | .dmaWaitTimeout ch => decide (ch < 32)
  | .dmaPauseDrained ch => decide (ch < 32)
  | .dmaEventSet ses v => decide (ses < 420) && decide (v < 2 ^ 64)
  | .bdrTxnBegin ses => decide (ses < 420)
  | .bdrTxnCommit ses => decide (ses < 420)
  | .bdrTxnDiscard ses => decide (ses < 420)
  | .bdrCommitApplied => true
  | .bdrUnlock ses v => decide (ses < 420) && decide (v < 2 ^ 64)
  | .bdrLock ses v => decide (ses < 420) && decide (v < 2 ^ 64)
  | .recDataRead ses => decide (ses < 420)
  | .recDataWrite ses _ => decide (ses < 420)
  | .inhibitChange _ => true
  | .wearSave => true
  | .bkPowerUp ident => (decide (ident.length = 128) || decide (ident.length = 0))
  | .calCountWrite ses v => decide (ses < 420) && decide (v < 2 ^ 64)
  | .calShiftWrite ses v => decide (ses < 420) && decide (v < 2 ^ 64)
  | .shiftEnd => true
  | .calEnd => true
  | .convDateWrite ses v => decide (ses < 420) && decide (v < 2 ^ 64)
  | .convTicksWrite ses v => decide (ses < 420) && decide (v < 2 ^ 64)
  | .alarmArm ses n v => decide (ses < 420) && decide (n < 2) && decide (v < 2 ^ 64)
  | .alarmFire n => decide (n < 2)
  | .calSupplyOn ses => decide (ses < 420)
  | .calSupplyOff ses => decide (ses < 420)
  | .wake => true
  | .rsvTest ses => decide (ses < 420)
  | .rsvReread ses => decide (ses < 420)
  | .rsvTestInterval => true
  | .rsvTestEnd _ _ => true
  | .rsvTestAbort => true
  | .stressUpdate _ _ => true
  | .stressSave => true
  | .wdgKey ses n v => decide (ses < 420) && decide (n < 25) && decide (v < 2 ^ 64)
  | .wdgCfgWrite ses n _ v => decide (ses < 420) && decide (n < 25) && decide (v < 2 ^ 64)
  | .wdgExpiry n => decide (n < 25)
  | .clockLoss k => decide (k < 40)
  | .clockRestored k => decide (k < 40)
  | .chkPeriodWrite ses n v => decide (ses < 420) && between 1 255 n && decide (v < 2 ^ 64)
  | .checkinArrival => true
  | .checkinPeriodEnd => true
  | .rawRecord => true
  | .foldClose => true
  | .notifyGapEnd => true
  | .fltClearOut ses => decide (ses < 420)
  | .fltFlush ses => decide (ses < 420)
  | .fltRaise ses v => decide (ses < 420) && decide (v < 2 ^ 64)
  | .linkDown die => decide (die < 8)
  | .bwWindowEnd => true
  | .bwWindowWrite ses v => decide (ses < 420) && decide (v < 2 ^ 64)
  | .tempSample _ => true
  | .lifeSample => true
  | .staRecordRead ses => decide (ses < 420)
  | .staFreeze ses => decide (ses < 420)
  | .staThaw ses => decide (ses < 420)
  | .freezeMaxExpiry => true
  | .staRaise ses v => decide (ses < 420) && decide (v < 2 ^ 64)
  | .snpFire ses => decide (ses < 420)
  | .snpRelease ses => decide (ses < 420)
  | .snpReleaseAll ses => decide (ses < 420)
  | .tmkInEdge => true
  | .snpAtReached => true
  | .tidemarkLatch die island => decide (die < 8) && decide (island < 256)
  | .tidemarkAck die => decide (die < 8)
  | .tmkOutEnd => true
  | .hltTestReq ses v => decide (ses < 420) && decide (v < 2 ^ 64)
  | .healthTestSlice _ => true
  | .ageMeasure _ => true
  | .pwrDomainOff ses d => decide (ses < 420) && between 1 15 d
  | .pdDrained d => between 1 15 d
  | .pdDrainTimeout d => between 1 15 d
  | .domainOffDone d => between 1 15 d
  | .pwrDomainOn ses d => decide (ses < 420) && between 1 15 d
  | .domainOnDone d => between 1 15 d
  | .pwrReset ses => decide (ses < 420)
  | .pwrSleep ses => decide (ses < 420)
  | .coreFreqWrite ses n v => decide (ses < 420) && between 1 6 n && decide (v < 2 ^ 64)
  | .powerOn => true
  | .resetPin _ => true
  | .debugReset => true
  | .brownout rail => decide (rail < 9)
  | .refclkLoss => true
  | .sdclkLoss => true
  | .dieLinkRetrained die => decide (die < 8)
  | .regionLockoutEnd r => decide (r < 7)
  | .calTick => true
  | .backupSupplyChange _ => true
  | .refclkRestored => true
  | .sdclkRestored => true
  | .witnessHbReturn p => decide (p < 2)
  | .scanNoAnswer port => decide (port < 18)
  | .relayedServiceResponse _ status reason data => decide (status < 256) && decide (reason < 256) && decide (data.length ≤ 1024)
  | .resyncDataReceive x => x.wf
  | .partnerPrepareReceive hash => decide (hash.length = 32)
  | .partnerDiscardToken => true
  | .canRxError k lec => decide (k < 4) && decide (1 ≤ lec) && decide (lec ≤ 6)

end Sys2Proof
end

