-- ==== Sys2Proof/Tests/Slice0.lean ====
section
/-! SUPPORT. Tests. For each statement a state and operands that meet its hypotheses together, for each check of
WellFormed a command that it refuses, and worked examples of the spec. -/

namespace Sys2Proof.Tests

set_option Elab.async false

open Sys2Proof Sys2Proof.Machine

/-! ### The hypotheses of statements as tests -/

def takesB (s : State) (n key v : Nat) : Bool :=
  s.served n && decide (s.writeCheck n key (s.obBytes key) v = (stOK, rNONE)) && decide ((s.ses n).txn ≠ .open) &&
    !(s.replicates && s.isReplicated key)

theorem takes_of {s : State} {n key v : Nat} (h : takesB s n key v = true) : Takes s n key v := by
  simp only [takesB, Bool.and_eq_true, decide_eq_true_eq, Bool.not_eq_true'] at h
  exact ⟨h.1.1.1, h.1.1.2, h.1.2, h.2⟩

theorem takes_all {s : State} {n : Nat} {l : List (Nat × Nat)} (h : (l.all fun p => takesB s n p.1 p.2) = true) :
    ∀ p ∈ l, Takes s n p.1 p.2 := fun p hp => takes_of (List.all_eq_true.mp h p hp)

def refusesB (s : State) (n key v st reason : Nat) : Bool :=
  s.served n && !isOem (key / 256) && !isTypeDesc key && decide (key / 256 ≠ 0x1180) &&
    decide (s.writeCheck n key (s.obBytes key) v = (st, reason)) && decide (st ≠ stOK)

theorem refuses_of {s : State} {n key v st reason : Nat} (h : refusesB s n key v st reason = true) :
    Refuses s n key v st reason := by
  simp only [refusesB, Bool.and_eq_true, decide_eq_true_eq, Bool.not_eq_true'] at h
  exact ⟨h.1.1.1.1.1, ⟨h.1.1.1.1.2, h.1.1.1.2, h.1.1.2⟩, h.1.2, h.2⟩

def opensB (s : State) (n key : Nat) : Bool :=
  s.served n && decide (s.writeCheck n K.DIC_DOM_OPEN (s.obBytes K.DIC_DOM_OPEN)
    (key / 256 * 2 ^ 32 + key % 256 * 2 ^ 24 + 2 ^ 16) = (stOK, rNONE)) && decide ((s.domCheck n key false).1 = stOK)

theorem opens_of {s : State} {n key : Nat} (h : opensB s n key = true) : Opens s n key := by
  simp only [opensB, Bool.and_eq_true, decide_eq_true_eq] at h
  exact ⟨h.1.1, h.1.2, h.2⟩

def deliversB (s : State) (n key : Nat) (data : List Byte) : Bool :=
  s.served n && decide (s.writeCheck n K.DIC_DOM_OPEN (s.obBytes K.DIC_DOM_OPEN)
    (key / 256 * 2 ^ 32 + key % 256 * 2 ^ 24 + 2 * 2 ^ 16) = (stOK, rNONE)) && decide ((s.domCheck n key true).1 = stOK) &&
    decide ((s.filled n key data).writeCheck n K.DIC_DOM_CLOSE ((s.filled n key data).obBytes K.DIC_DOM_CLOSE) 1 = (stOK, rNONE)) &&
    (match ((s.filled n key data).ses n).dom with
      | none => true
      | some x => decide (((s.filled n key data).xferCommit n key x.wr).1 = stOK) && decide (whole x.wr = some data))

theorem delivers_of {s : State} {n key : Nat} {data : List Byte} (h : deliversB s n key data = true) :
    Delivers s n key data := by
  simp only [deliversB, Bool.and_eq_true, decide_eq_true_eq] at h
  refine ⟨h.1.1.1.1, h.1.1.1.2, h.1.1.2, h.1.2, ?_, ?_⟩ <;> intro x hx <;> have h2 := h.2 <;>
    simp only [hx, Bool.and_eq_true, decide_eq_true_eq] at h2
  · exact h2.1
  · exact h2.2

/-! ### States to start from -/

/-- A device without a partner, with an open service session of role Integrator. -/
def base : State := State.reset.setSes 384 { Ses.init with open_ := true, role := 3 }

/-- base with the tide in a state. -/
def tideIn (st : TideSt) : State := { base with tds := { base.tds with st := st } }

/-- A tide that runs, at an instant given by what is done. -/
def running : State := tideIn .running

/-- running with task 5 in use in a state: cyclic, one section, in context 1 of core 0. -/
def tasked (st : TaskSt) : State :=
  ((running.setOb (K.TSK_CFG 5) 0x4000).setDom (K.TSK_SECTIONS 5) ([0, 1] ++ List.replicate 30 0)).setTask 5 { Task.init with st := st }

/-- A tide in its ebb, with its input complete where told so. -/
def ebbing (done : Bool) : State := { running with tds := { running.tds with inputDone := done } }

/-- A tide after its flood start, and after its cut, launch and slack point as told. -/
def flooded (cut launched slacked swin : Bool) : State :=
  { running with tds := { running.tds with
    inputDone := true
    flooded := true
    phase := 1
    cutDone := cut
    launched := launched
    slacked := slacked
    swin := swin } }

/-- base with another operating state of the image store. -/
def imaged (s : State) (f : Img → Img) : State := { s with img := f s.img }

/-- base with other values in the session of index 384. -/
def asked (s : State) (f : Ses → Ses) : State := s.setSes 384 (f (s.ses 384))

/-- A device whose port 0 is a line and whose engineering ports run, with station 3 at position 1 of the line, EVEN set and
slot 7. -/
def netted (s : State) : State :=
  ((((s.setOb (K.HNW_PORT_CFG 1) 10).setOb (K.HNW_PORT_CFG 17) 8).setOb (K.HNW_PORT_CFG 18) 8).setOb (K.HST_CFG 3)
    (2 ^ 31 + 2 ^ 12 + 2 ^ 8 + 7))

/-- The header of a frame of a TYPE, with bits of its second byte, TIDE, PAIR, and COUNT of its body (R268). -/
def header (typ flags tide pair count : Nat) : List Byte :=
  beBytes 1 (16 + typ) ++ beBytes 1 flags ++ beBytes 2 0 ++ beBytes 4 tide ++ beBytes 1 pair ++ beBytes 1 0 ++ beBytes 2 0 ++
    beBytes 8 0 ++ beBytes 2 0 ++ beBytes 2 count

/-- A good frame on a port with a header. -/
def frameHdr (port : Nat) (hdr : List Byte) : Rx :=
  { port := port, dst := 1, src := 2, etype := 34997, vid := none, fcsOk := true, lenOk := true, hdr := hdr, bytes := 100
    ip := none, udp := none, svc := [] }

/-- A good Huatur frame on a port. -/
def frameOn (port : Nat) : Rx := frameHdr port (header 4 0 0 0 0)

def arrivesB (s : State) (fr : Rx) (acyclic : Bool) : Bool := s.portRuns fr.port && (s.ingress fr acyclic).2

theorem arrives_of {s : State} {fr : Rx} {acyclic : Bool} (h : arrivesB s fr acyclic = true) :
    Arrives s fr acyclic (s.ingress fr acyclic).1 := by
  simp only [arrivesB, Bool.and_eq_true] at h
  exact ⟨h.1, by rw [← h.2]⟩

/-! ### Voxrax cores -/

/-- An instruction's fields. -/
def enc (pfx : List Nat) (ra rb am disp imm : Nat) : Enc :=
  { pfx := pfx, ra := ra, rb := rb, am := am, disp := disp, imm := imm }

/-- Core 0 runs context 1 of task 1 at 1000h, with these general and special registers. -/
def coreS (gr sp : List (Nat × Nat)) : State :=
  State.reset.setCtx 1 (sp.foldl (fun x p => x.setSp p.1 p.2)
    (gr.foldl (fun x p => x.setG p.1 (BitVec.ofNat 32 p.2)) { Ctx.init with cs := .running, task := 1, pc := 0x1000#32 }))

/-- The state with the bytes of an instruction of this opcode at 1000h of Strand 1's active bank. -/
def coded (s : State) (op : Nat) (e : Enc) : State := s.putBytes (mBankA 1 + 0x1000) ((formOf op).bytes e)

def fetchedS (s : State) (c : Nat) (e : Enc) (f : Form) (g : Nat) : State × RdAns :=
  (s.landCtx g).fetchBytes c ((s.landCtx g).ctx g).pc.toNat (f.length e)

def issuesB (s : State) (c : Nat) (e : Enc) (f : Form) (g : Nat) : Bool :=
  decide (s.issuer c = some g) && decide ((s.ctx g).wait = .none) && !s.flightHolds g e &&
    (!(s.ctx g).npOpen || decide ((s.ctx g).npcnt < 64)) &&
    (match (fetchedS s c e f g).2 with | .ok _ => true | _ => false) &&
    decide (parse ((s.landCtx g).codeBytes c ((s.landCtx g).ctx g).pc.toNat) = (f, e)) &&
    (((fetchedS s c e f g).1.core c).flight.all fun a => !a.heldFor g) && f.legal e && !((s.landCtx g).ctx g).bracketBad e

theorem issues_of {s : State} {c : Nat} {e : Enc} {f : Form} {g : Nat} (h : issuesB s c e f g = true) :
    Issues s c e f g (fetchedS s c e f g).1 ((s.landCtx g).ctx g) := by
  simp only [issuesB, Bool.and_eq_true, decide_eq_true_eq, Bool.not_eq_true', Bool.or_eq_true, List.all_eq_true] at h
  refine ⟨h.1.1.1.1.1.1.1.1, h.1.1.1.1.1.1.1.2, h.1.1.1.1.1.1.2, h.1.1.1.1.1.2, rfl, ?_, h.1.1.1.2, h.1.1.2, h.1.2, h.2⟩
  have h2 := h.1.1.1.1.2
  rcases hf : fetchedS s c e f g with ⟨s1, r⟩
  rw [hf] at h2
  cases r with
  | ok b => exact ⟨b, hf⟩
  | bus d => simp at h2
  | ecc => simp at h2

/-- An instruction of this opcode at 1000h of context 1 of core 0 issues. -/
def issuesAt (s : State) (op : Nat) (e : Enc) : Bool := issuesB (coded s op e) 0 e (formOf op) 1

/-- The state that it runs in. -/
abbrev afterA (s : State) (op : Nat) (e : Enc) : State := (fetchedS (coded s op e) 0 e (formOf op) 1).1

theorem issues_at {s : State} {op : Nat} {e : Enc} (h : issuesAt s op e = true) :
    Issues (coded s op e) 0 e (formOf op) 1 (afterA s op e) (((coded s op e).landCtx 1).ctx 1) := issues_of h

def ownB (s : State) (c g a n off : Nat) : Bool :=
  decide (s.coreWhere c a (decide ((s.ctx g).task = 0)) = .own off) && decide (off + n ≤ 0x400000) &&
    decide (∀ i < n, (s.core c).buffered (mData (strandOf c) + off + i) = none) &&
    decide (s.eccOf (mData (strandOf c) + off) n < 2)

theorem own_of {s : State} {c g a n off : Nat} (h : ownB s c g a n off = true) : OwnBytes s c g a n off := by
  simp only [ownB, Bool.and_eq_true, decide_eq_true_eq] at h
  exact ⟨h.1.1.1, h.1.1.2, h.1.2, h.2⟩

def buffersB (s : State) (c g a n : Nat) : Bool :=
  !s.alignBad c a n &&
    (match s.coreWhere c a (decide ((s.ctx g).task = 0)) with
    | .dict _ _ _ => false
    | .timer _ => false
    | _ => true) && decide ((s.core c).wbuf.length ≤ 6)

theorem buffers_of {s : State} {c g a n : Nat} (h : buffersB s c g a n = true) : Buffers s c g a n := by
  simp only [buffersB, Bool.and_eq_true, decide_eq_true_eq, Bool.not_eq_true'] at h
  refine ⟨h.1.1, ?_, h.2⟩
  intro w hw
  have h1 := h.1.2
  rw [hw] at h1
  cases w <;> simp_all

/-- Registers of the witnesses: operands, a pair, addresses of own SRAM, and the stack. -/
def regsA : List (Nat × Nat) :=
  [(2, 0xFFFFFFFF), (3, 0x7FFFFFFF), (4, 0), (5, 5), (6, 0x10000100), (8, 0x103FFFF8), (31, 0x10000200)]

def coreA : State := coreS regsA [(7, 0x10000000), (8, 0x10400000)]

/-- Context 1 as an instruction finds it. -/
abbrev ctxA (s : State) : Ctx := (s.landCtx 1).ctx 1

theorem witness_integer :
    (integerRows.all fun r => issuesAt coreA r.2.1 (enc [] 2 5 0 0 0)) = true ∧
      (unaryRows.all fun r => issuesAt coreA r.2.1 (enc [] 2 3 0 0 0)) = true ∧
      issuesAt coreA 0x40 (enc [] 2 0 3 0 0xFFFFFFFF) = true ∧
      (compareRows.all fun r => issuesAt coreA r.2.1 (enc [] 2 4 1 0 5)) = true := by
  decide +kernel

theorem witness_division :
    (divisionRows.all fun r => issuesAt coreA r.2.1 (enc [] 2 5 0 0 0) && issuesAt coreA r.2.1 (enc [] 2 4 0 0 0)) = true ∧
      (ctxA coreA).opY (formOf 0xE080) (enc [] 2 5 0 0 0) ≠ 0 ∧
      (ctxA coreA).opY (formOf 0xE080) (enc [] 2 4 0 0 0) = 0 ∧ ((ctxA coreA).sp 2).testBit 0 = false ∧
      ((ctxA (coreS regsA [(2, 1)])).sp 2).testBit 0 = true ∧ (ctxA (coreS regsA [(2, 1)])).task ≠ 0 ∧
      issuesAt (coreS regsA [(2, 1)]) 0xE080 (enc [] 2 4 0 0 0) = true ∧ (coreS regsA [(2, 1)]).txnWaiting = [] := by
  decide +kernel

/-- Task 0 with KFV set and the DZ trap enabled, and operands at the most negative value. -/
def keeperDz : State :=
  coded (State.reset.setCtx 0
    ({ Ctx.init with cs := .running, task := 0, pc := 0x1000#32 }.setG 2 (BitVec.ofNat 32 0xFFFFFFFF) |>.setSp 2 1 |>.setSp 9 0x2000))
    0xE080 (enc [] 2 4 0 0 0)

theorem witness_division_of_keeper :
    issuesB keeperDz 0 (enc [] 2 4 0 0 0) (formOf 0xE080) 0 = true ∧
      ((keeperDz.landCtx 0).ctx 0).opY (formOf 0xE080) (enc [] 2 4 0 0 0) = 0 ∧ keeperDz.txnWaiting = [] ∧
      ((keeperDz.landCtx 0).ctx 0).task = 0 ∧ ((keeperDz.landCtx 0).ctx 0).sreg 9 ≠ 0 ∧
      ((keeperDz.landCtx 0).ctx 0).finfo = 0 := by
  decide +kernel

theorem witness_division_corners :
    issuesAt (coreS [(2, 0x80000000), (3, 0xFFFFFFFF)] []) 0xE040 (enc [] 2 3 0 0 0) = true ∧
      (ctxA (coreS [(2, 0x80000000), (3, 0xFFFFFFFF)] [])).opX (enc [] 2 3 0 0 0) = ofS 32 (minS 32) ∧
      (ctxA (coreS [(2, 0x80000000), (3, 0xFFFFFFFF)] [])).opY (formOf 0xE040) (enc [] 2 3 0 0 0) = 2 ^ 32 - 1 ∧
      issuesAt (coreS [(2, 0x80000000)] []) 0xE060 (enc [] 2 2 0 0 0) = true ∧
      (ctxA (coreS [(2, 0x80000000)] [])).opX (enc [] 2 2 0 0 0) = 0x80000000 ∧
      (ctxA (coreS [(2, 0x80000000)] [])).opY (formOf 0xE060) (enc [] 2 2 0 0 0) = 0x80000000 ∧
      issuesAt (coreS [(2, 0x80000000)] []) 0xE020 (enc [] 2 2 0 0 0) = true ∧
      (ctxA (coreS [(2, 0x80000000)] [])).rdG false 2 = ofS 32 (minS 32) := by
  decide +kernel

theorem witness_illegal :
    let s := coded coreA 0xEC80 (enc [] 7 0 0 0 0)
    let f := formOf 0xEC80
    let d := enc [] 7 0 0 0 0
    s.issuer 0 = some 1 ∧ (s.ctx 1).wait = .none ∧ s.flightHolds 1 (enc [] 2 5 0 0 0) = false ∧ (s.ctx 1).npOpen = false ∧
      parse ((s.landCtx 1).codeBytes 0 (ctxA s).pc.toNat) = (f, d) ∧ f.legal d = false ∧
      (match ((s.landCtx 1).fetchBytes 0 (ctxA s).pc.toNat (Nat.min 15 (f.length d))).2 with | .ok _ => true | _ => false) = true ∧
      (ctxA s).task ≠ 0 ∧ s.txnWaiting = [] := by
  decide +kernel

theorem witness_encodings :
    (formOf 0x60).legal (enc [0xF8] 2 4 3 0 0xFFFFFFFF) = true ∧ (0 : Nat) < 256 ^ dispLen 3 ∧
      0xFFFFFFFF < 256 ^ (formOf 0x60).immLen 3 ∧ (formOf 0x00).legal (enc [] 31 30 7 0xFFFFFFFF 0) = true ∧
      0xFFFFFFFF < 256 ^ dispLen 7 ∧ 0 < 256 ^ (formOf 0x00).immLen 7 ∧ (0x60, 0x00) ∈ [(0x60, 0x00)] := by
  decide +kernel

theorem witness_loads :
    (loadRows.all fun r => issuesAt coreA r.2.1 (enc [] 2 8 4 0 0)) = true ∧ issuesAt coreA 0xE7C0 (enc [] 2 8 4 0 0) = true ∧
      (ctxA coreA).locate (enc [] 2 8 4 0 0) ((ctxA coreA).ea (enc [] 2 8 4 0 0)) 4 = some 0x103FFFF8 ∧
      OwnBytes (afterA coreA 0x00 (enc [] 2 8 4 0 0)) 0 1 0x103FFFF8 4 0x3FFFF8 ∧
      issuesAt coreA 0x80 (enc [] 2 8 4 0 0) = true ∧
      issuesAt coreA 0xE7C0 (enc [] 2 0 3 0 0x3F800000) = true :=
  ⟨by decide +kernel, by decide +kernel, by decide +kernel, own_of (by decide +kernel), by decide +kernel, by decide +kernel⟩

theorem witness_stores :
    (storeRows.all fun r => issuesAt coreA r.2.1 (enc [] 2 8 4 0 0)) = true ∧
      (ctxA coreA).locate (enc [] 2 8 4 0 0) ((ctxA coreA).ea (enc [] 2 8 4 0 0)) 4 = some 0x103FFFF8 ∧
      Buffers (afterA coreA 0x20 (enc [] 2 8 4 0 0)) 0 1 0x103FFFF8 4 :=
  ⟨by decide +kernel, by decide +kernel, buffers_of (by decide +kernel)⟩

theorem witness_address_and_exchange :
    issuesAt coreA 0xE4C0 (enc [] 2 8 4 0 0) = true ∧ issuesAt coreA 0xE4E0 (enc [] 2 8 4 0 0) = true ∧
      (ctxA coreA).locate (enc [] 2 8 4 0 0) ((ctxA coreA).ea (enc [] 2 8 4 0 0)) 4 = some 0x103FFFF8 ∧
      OwnBytes (afterA coreA 0xE4E0 (enc [] 2 8 4 0 0)) 0 1 0x103FFFF8 4 0x3FFFF8 ∧
      ((afterA coreA 0xE4E0 (enc [] 2 8 4 0 0)).core 0).wbuf = [] :=
  ⟨by decide +kernel, by decide +kernel, by decide +kernel, own_of (by decide +kernel), by decide +kernel⟩

theorem witness_branches :
    issuesAt coreA 0xC0 (enc [] 2 6 4 0 0) = true ∧ issuesAt coreA 0xE500 (enc [] 4 6 4 0 0) = true ∧
      issuesAt coreA 0xE520 (enc [] 0 6 4 0 0) = true ∧ issuesAt coreA 0xE580 (enc [] 5 6 4 0 0) = true := by
  decide +kernel

theorem witness_call_return_trap :
    (issuesAt coreA 0xE540 (enc [] 0 6 4 0 0) = true ∧
        0x100001FC = (((ctxA coreA).gr 31).toNat + 2 ^ 32 - 4) % 2 ^ 32 ∧ (ctxA coreA).sp 7 ≤ 0x100001FC ∧
        0x100001FC + 4 ≤ (ctxA coreA).sp 8 ∧ ((ctxA coreA).gr 31).toNat % 4 = 0 ∧
        Buffers (afterA coreA 0xE540 (enc [] 0 6 4 0 0)) 0 1 0x100001FC 4) ∧
      (issuesAt coreA 0xE560 (enc [] 0 0 0 0 0) = true ∧
        OwnBytes (afterA coreA 0xE560 (enc [] 0 0 0 0 0)) 0 1 ((ctxA coreA).gr 31).toNat 4 0x200) ∧
      (issuesAt coreA 0xE5A0 (enc [] 0 0 0 0 0xFF) = true ∧ (ctxA coreA).task ≠ 0 ∧ coreA.txnWaiting = []) :=
  ⟨⟨by decide +kernel, by decide +kernel, by decide +kernel, by decide +kernel, by decide +kernel, buffers_of (by decide +kernel)⟩,
    ⟨by decide +kernel, own_of (by decide +kernel)⟩, by decide +kernel⟩

theorem witness_float :
    (floatRows.all fun r => issuesAt coreA r.2.1 (enc [] 2 3 0 0 0)) = true ∧
      ([0xE680, 0xE6A0, 0xE6C0, 0xE6E0, 0xE7A0, 0xE760, 0xE780].all fun o => issuesAt coreA o (enc [] 2 3 0 0 0)) = true ∧
      (fcompareRows.all fun r => issuesAt coreA r.2.1 (enc [] 2 3 1 0 4)) = true ∧ (∀ v < 64, (ctxA coreA).trapOf v = none) := by
  decide +kernel

/-- The context of coreA with a block instruction's operands: BCNT 2, BSRC 10000100h, BDST 10000300h. -/
def coreB : State := coreS regsA [(20, 2), (21, 0x10000100), (22, 0x10000300), (23, 0x00040004)]

/-- The same where the words differ in their last byte. -/
def coreB1 : State := coreB.putBytes (mData 1 + 0x303) [1]

theorem witness_blocks :
    ((moveRows.all fun r => issuesAt coreB r.2.1 (enc [] 0 0 0 0 0) && issuesAt coreB r.2.1 (enc [0xF9] 0 0 0 0 0)) = true ∧
        (ctxA coreB).sp 20 ≠ 0 ∧ (ctxA coreB).locate (enc [] 0 0 0 0 0) ((ctxA coreB).sp 22) 4 = some 0x10000300 ∧
        OwnBytes (afterA coreB 0xE840 (enc [] 0 0 0 0 0)) 0 1 ((ctxA coreB).sp 21) 4 0x100 ∧
        Buffers (afterA coreB 0xE840 (enc [] 0 0 0 0 0)) 0 1 0x10000300 4) ∧
      (issuesAt coreB 0xE860 (enc [] 5 0 0 0 0) = true ∧ Buffers (afterA coreB 0xE860 (enc [] 5 0 0 0 0)) 0 1 0x10000300 4) ∧
      (issuesAt coreB 0xE880 (enc [] 5 4 0 0 0) = true ∧
        (ctxA coreB).locate (enc [] 5 4 0 0 0) ((ctxA coreB).sp 21) 4 = some 0x10000100 ∧
        OwnBytes (afterA coreB 0xE880 (enc [] 5 4 0 0 0)) 0 1 0x10000100 4 0x100 ∧
        leNat (coreB.bytesAt (mData 1 + 0x100) 4) = ((ctxA coreB).gr 4).toNat) ∧
      (issuesAt coreB1 0xE8A0 (enc [] 5 0 0 0 0) = true ∧
        OwnBytes (afterA coreB1 0xE8A0 (enc [] 5 0 0 0 0)) 0 1 0x10000100 4 0x100 ∧
        OwnBytes (afterA coreB1 0xE8A0 (enc [] 5 0 0 0 0)) 0 1 0x10000300 4 0x300 ∧
        coreB1.bytesAt (mData 1 + 0x100) 4 ≠ coreB1.bytesAt (mData 1 + 0x300) 4 ∧
        coreB.bytesAt (mData 1 + 0x100) 4 = coreB.bytesAt (mData 1 + 0x300) 4) ∧
      ((ctxA coreA).sp 20 = 0 ∧ (moveRows.all fun r => issuesAt coreA r.2.1 (enc [] 0 0 0 0 0)) = true ∧
        ([0xE860, 0xE8A0].all fun o => issuesAt coreA o (enc [] 5 0 0 0 0)) = true ∧ issuesAt coreA 0xE880 (enc [] 5 4 0 0 0) = true) :=
  ⟨⟨by decide +kernel, by decide +kernel, by decide +kernel, own_of (by decide +kernel), buffers_of (by decide +kernel)⟩,
    ⟨by decide +kernel, buffers_of (by decide +kernel)⟩, ⟨by decide +kernel, by decide +kernel, own_of (by decide +kernel), by decide +kernel⟩,
    ⟨by decide +kernel, own_of (by decide +kernel), own_of (by decide +kernel), by decide +kernel⟩, by decide +kernel⟩

/-- coreA with a byte at 10000100h. -/
def bitted (b : Byte) : State := coreA.putBytes (mData 1 + 0x100) [b]

theorem witness_bits :
    (∀ op ∈ [0xE900, 0xE980, 0xE9A0, 0xE9C0, 0xE9E0, 0xE920, 0xE940, 0xE960, 0xEA40, 0xEA60],
        AtBit (coded (bitted 0x80) op (enc [] 5 6 4 0 7)) 0 (enc [] 5 6 4 0 7) op 1 (afterA (bitted 0x80) op (enc [] 5 6 4 0 7))
          (ctxA (coded (bitted 0x80) op (enc [] 5 6 4 0 7))) 0x80#8) ∧
      ((ctxA coreA).gr 5 ≠ 0 ∧ (ctxA coreA).gr 4 = 0) := by
  refine ⟨?_, by decide +kernel⟩
  intro op hop
  simp only [List.mem_cons, List.not_mem_nil, or_false] at hop
  rcases hop with rfl | rfl | rfl | rfl | rfl | rfl | rfl | rfl | rfl | rfl <;>
    exact ⟨issues_at (by decide +kernel), ⟨0x100, own_of (by decide +kernel), by decide +kernel⟩, buffers_of (by decide +kernel)⟩

/-- The bytes that an answer carries. -/
def okB (p : State × RdAns) : Bool := match p.2 with | .ok _ => true | _ => false

theorem witness_gather_and_rung :
    (issuesAt coreA 0xEA20 (enc [] 5 6 0 0 1) = true ∧
        okB ((afterA coreA 0xEA20 (enc [] 5 6 0 0 1)).fetchBytes 0
          (tableAt ((ctxA coreA).nextPc (formOf 0xEA20) (enc [] 5 6 0 0 1)) 8 16 1) 8) = true) ∧
      (issuesAt coreA 0xEA00 (enc [] 5 6 4 0 0xC001) = true ∧
        okB ((afterA coreA 0xEA00 (enc [] 5 6 4 0 0xC001)).fetchBytes 0
          (tableAt ((ctxA coreA).nextPc (formOf 0xEA00) (enc [] 5 6 4 0 0xC001)) 16 14 0xC001) 16) = true ∧
        ∀ k < 8, (leAt (List.replicate 16 0) (2 * k) 2).testBit 15 = false) := by
  decide +kernel

/-- Core 0 with a timer cell of PRESET 100 at 10800020h and its status and STAMP. -/
def timed (status : Nat) : State :=
  (coreS [(5, 1), (6, 0x10800020)] []).putBytes (mTimer 1 + 0x20) (leBytes 4 100 ++ leBytes 4 0 ++ leBytes 4 status ++ leBytes 4 0)

theorem witness_timers :
    (∀ p ∈ [(0xEB00, 16), (0xEB20, 16), (0xEB40, 16), (0xEB80, 16), (0xEBA0, 32)], ∀ ra ∈ [5, 4],
        AtCell (coded (timed 0) p.1 (enc [] ra 6 4 0 0)) 0 (enc [] ra 6 4 0 0) p.1 1 (afterA (timed 0) p.1 (enc [] ra 6 4 0 0))
          (ctxA (coded (timed 0) p.1 (enc [] ra 6 4 0 0))) (mTimer 1 + 0x20) p.2) ∧
      issuesAt (timed 0) 0xEB60 (enc [] 0 6 4 0 0) = true ∧
      ((ctxA (timed 0)).gr 5 ≠ 0 ∧ (ctxA (timed 0)).gr 4 = 0) ∧
      ((timed 0).rd (mTimer 1 + 0x20 + 8) 4 % 8 = 0 ∧ (timed 0).rd (mTimer 1 + 0x20) 4 ≠ 0) ∧
      (timed 2).rd (mTimer 1 + 0x20 + 8) 4 % 4 = 2 ∧ (timed 1).rd (mTimer 1 + 0x20 + 8) 4 % 4 = 1 := by
  refine ⟨?_, by decide +kernel⟩
  intro p hp ra hra
  simp only [List.mem_cons, List.not_mem_nil, or_false] at hp hra
  rcases hp with rfl | rfl | rfl | rfl | rfl <;> rcases hra with rfl | rfl <;>
    exact ⟨issues_at (by decide +kernel), by decide +kernel, ⟨0x20, by decide +kernel, by decide +kernel⟩, by decide +kernel,
      by decide +kernel⟩

theorem witness_system :
    ([0xEC00, 0xEC20, 0xEC80, 0xECA0, 0xECC0].all fun o => issuesAt coreA o (enc [] 0 0 0 0 0)) = true ∧
      ([0, 1, 2, 3, 4, 7, 12, 24, 25].all fun n => issuesAt coreA 0xEC40 (enc [] 5 n 0 0 0)) = true ∧
      ([0, 1, 2, 3, 7, 12, 23, 25].all fun n => issuesAt coreA 0xEC60 (enc [] 5 n 0 0 0)) = true ∧
      (ctxA coreA).task ≠ 0 ∧ coreA.txnWaiting = [] ∧
      (issuesAt coreA 0xECE0 (enc [] 0 0 0 0 0xEF) = true ∧ coreA.red.role ≠ .standby) := by
  decide +kernel

/-- coreA with other values in core 0 and in context 1. -/
def coreW (f : CoreSt → CoreSt) (x : Ctx → Ctx) : State := (coreA.setCore 0 (f CoreSt.init)).modCtx 1 x

/-- A byte in the write buffer, the last of an aligned word of own SRAM. -/
def stByte : WbByte := { off := 7, val := 9, ctx := 1, addr := 0x10000107, pc := 0, task := 1, sec := 0 }

/-- Its entry. -/
def stEntry : WbEntry := { word := (mData 1 + 0x100) / 8, bytes := [stByte], begun := false }

/-- A load in flight. -/
def flying : Flight := { ctx := 1, dst := 5, wide := false, val := 7, pc := 0, addr := 0x10000100, n := 4, ext := 0, tag := none, before := [] }

theorem witness_core_events :
    (let s := coreW id fun x => { x with npOpen := true, npcnt := 64 }
     s.running 0 = some 1 ∧ (s.ctx 1).npOpen = true ∧ 64 ≤ (s.ctx 1).npcnt ∧ (s.ctx 1).wait = .none ∧ ((s.ctx 1).sp 2).testBit 1 = false) ∧
      (((coreW (fun k => { k with flight := [flying] }) id).core 0).flight = [flying] ∧ flying.tag = none ∧ flying.dst < 32) ∧
      (let s := coreW (fun k => { k with wbuf := List.replicate 7 { word := 1, bytes := [], begun := false } })
        fun x => { x with wait := .store, stall := [stEntry] }
       s.running 0 = some 1 ∧ (s.ctx 1).wait = .store ∧ (s.ctx 1).stall = [stEntry] ∧ (s.ctx 1).late = [] ∧ (s.core 0).wbuf.length < 8 ∧
        ∀ w' ∈ (s.core 0).wbuf, w'.word ≠ stEntry.word) ∧
      (((coreW (fun k => { k with wbuf := [stEntry] }) id).core 0).wbuf = [stEntry] ∧ stByte.off < 8 ∧ coreA.img.copying = false ∧
        (stEntry.word * 8 + stByte.off) / 2 ^ 32 = 0x30 + strandOf 0 ∧ strandOf 0 < 16) ∧
      (((coreW id fun x => { x with wait := .sync }).core 0).wbuf = [] ∧ coreA.linkUp (strandOf 0) = true ∧
        ((coreW id fun x => { x with wait := .sync }).ctx (16 * 0 + 1)).wait = .sync) ∧
      (Takes base 384 (K.CPU_CTL 1) 0 ∧ Takes base 384 (K.CPU_CTL 24) 3) :=
  ⟨by decide +kernel, by decide +kernel, by decide +kernel, by decide +kernel, by decide +kernel, takes_of (by decide),
    takes_of (by decide)⟩

/-! ### Tides, tasks and the process image -/

theorem witness_tide_commands :
    Takes base 384 K.TDS_CMD 1 ∧ Takes (tideIn .armed) 384 K.TDS_CMD 2 ∧ Takes running 384 K.TDS_CMD 2 ∧
      Takes running 384 K.TDS_CMD 3 ∧ Takes (tideIn .halted) 384 K.TDS_CMD 4 ∧
      Refuses base 384 K.TDS_CMD 2 stSTATE rNONE ∧ Refuses running 384 K.TDS_CMD 1 stSTATE rNONE ∧
      base.txnWaiting = [] ∧ running.txnWaiting = [] ∧ (tideIn .armed).txnWaiting = [] ∧ (tideIn .halted).txnWaiting = [] :=
  ⟨takes_of (by decide), takes_of (by decide), takes_of (by decide), takes_of (by decide), takes_of (by decide),
    refuses_of (by decide), refuses_of (by decide), by decide⟩

theorem witness_task_commands :
    Takes (tasked .disabled) 384 (K.TSK_CMD 5) 1 ∧ Takes (tasked .idle) 384 (K.TSK_CMD 5) 2 ∧
      Takes (tasked .active) 384 (K.TSK_CMD 255) 2 ∧ Takes (tasked .halted) 384 (K.TSK_CMD 5) 3 ∧
      (tasked .halted).allFlags 5 = false ∧ Takes (tasked .halted) 384 (K.TSK_CMD 5) 4 ∧
      Takes (tasked .idle) 384 (K.TSK_CMD 5) 5 ∧ (tasked .idle).tskUsed 5 = true ∧
      ∀ st ∈ [TaskSt.disabled, .idle, .active, .halted], (tasked st).txnWaiting = [] ∧ ((tasked st).task 5).disPend = false :=
  ⟨takes_of (by decide), takes_of (by decide), takes_of (by decide), takes_of (by decide), by decide,
    takes_of (by decide), takes_of (by decide), by decide, by decide⟩

/-- A session that has written an input bit's key and value for force 7. -/
def forcer : State := asked base fun x => { x with forceSel := 7, forceKey := 2 ^ 30 + 8 * 16, forceVal := 1 }

/-- The same in the active partner of a pair that runs. -/
def pairForcer : State :=
  asked { running with red := { running.red with role := .active, peer := true, peerSt := { running.red.peerSt with role := 4 } } }
    fun x => { x with forceSel := 7, forceKey := 2 ^ 30 + 8 * 16, forceVal := 1 }

theorem witness_force_commands :
    Takes forcer 384 K.IMG_FORCE_CMD 1 ∧ Takes forcer 384 K.IMG_FORCE_CMD 2 ∧ Takes forcer 384 K.IMG_FORCE_CMD 3 ∧
      Takes forcer 384 K.IMG_FORCE_CMD 4 ∧ Takes forcer 384 K.IMG_CTL 0 ∧ Takes forcer 384 K.IMG_CTL 1 ∧
      (forcer.tds.copyIns = [] ∧ forcer.tds.forceQ = [] ∧ forcer.img.txw = false ∧ forcer.img.copying = false ∧
        forcer.img.cutWait = false ∧ forcer.img.cutNext = [] ∧ forcer.img.held = [] ∧ forcer.replicates = false) ∧
      (pairForcer.replicates = true ∧ pairForcer.tideStopped = false ∧ Takes pairForcer 384 K.IMG_FORCE_CMD 1) :=
  ⟨takes_of (by decide), takes_of (by decide), takes_of (by decide), takes_of (by decide), takes_of (by decide),
    takes_of (by decide), by decide, by decide, by decide, takes_of (by decide)⟩

/-- An armed tide before its first ebb point. -/
def armed : State := { tideIn .armed with tds := { (tideIn .armed).tds with first := true, nextEbb := 500000 } }

theorem witness_tide_instants :
    (armed.tds.st = .armed ∧ armed.tds.first = true) ∧
      ((flooded true true true false).tideOn = true ∧ (flooded true true true false).tds.slacked = true ∧
        (flooded true true true false).tds.swin = false ∧ (flooded true true true false).tds.first = false ∧
        (flooded true true true false).tds.st = .running) ∧
      (let s := { flooded true true true false with tds := { (flooded true true true false).tds with st := .stopping, stopEbbs := 1 } }
       s.tds.slacked = true ∧ s.tds.swin = false ∧ s.tds.st = .stopping ∧ s.tds.stopEbbs = 1 ∧ s.usedTasks = [] ∧ s.txnWaiting = []) ∧
      ((ebbing false).inEbb = true ∧ (ebbing false).tds.inputDone = false) ∧
      ((ebbing true).inEbb = true ∧ (ebbing true).tds.rebase = [] ∧ (ebbing true).tds.inputDone = true ∧
        (ebbing true).agreementDone = true ∧ (ebbing true).red.repl = []) := by
  decide +kernel

theorem witness_cut_to_slack :
    ((flooded false false false false).tideOn = true ∧ (flooded false false false false).tds.flooded = true ∧
        (flooded false false false false).tds.cutDone = false) ∧
      (let s := imaged running fun m => { m with copying := true }
       s.img.copying = true ∧ s.img.cutNext = [] ∧ s.img.held = [] ∧ s.txnWaiting = []) ∧
      (let s := imaged running fun m => { m with txw := true }
       s.windowOver = true ∧ s.img.held = [] ∧ s.txnWaiting = []) ∧
      (imaged running fun m => { m with txw := true, cutWait := true }).windowOver = true ∧
      ((flooded true false false false).tideOn = true ∧ (flooded true false false false).tds.cutDone = true ∧
        (flooded true false false false).tds.launched = false) ∧
      ((flooded true true false false).tideOn = true ∧ (flooded true true false false).tds.launched = true ∧
        (flooded true true false false).tds.slacked = false ∧ (flooded true true false false).txnWaiting = []) ∧
      ((flooded true true true true).tideOn = true ∧ (flooded true true true true).tds.swin = true) := by
  decide +kernel

/-- A tide whose task 5 has a copy-in at the front of its channel. -/
def copying : State :=
  { tasked .copyIn with tds := { (tasked .copyIn).tds with copyIns := [{ task := 5, sec := 0, seq := 1, old := [] }] } }

/-- A slack window in which block 0 of Strand 1 is the next to be saved. -/
def saving : State := { (flooded true true true true).setOb (K.TMR_CTL 1) 0x100 with retNext := 0 }

theorem witness_task_events :
    ({ running with tds := { running.tds with trigQ := [(6, 3)] } }.tds.trigQ = [(6, 3)]) ∧
      ((match copying.copyInFront 5 0 with
          | some p => decide ((copying.copyInSec 5 0 p.old).2 = none) && decide (p.old = [])
          | none => false) = true ∧ copying.img.held = [] ∧ copying.tds.forceQ = [] ∧ copying.txnWaiting = [] ∧
        copying.forcesOn = [] ∧ copying.olc.edgeInits = [] ∧ Memory.wf copying.mem = true) ∧
      (0 ∈ (((tasked .active).setTask 5 { Task.init with st := .active, ended := [0] }).task 5).ended) ∧
      (((tasked .copyBack).task 5).st = .copyBack ∧ (tasked .copyBack).publishFree 5 = true ∧
        (tasked .copyBack).publishHeld 5 = [] ∧ ((tasked .copyBack).task 5).cbHeld = false ∧
        (tasked .copyBack).copyBackBad 5 = [] ∧ ((tasked .copyBack).task 5).disPend = false ∧
        ((tasked .copyBack).task 5).held = [] ∧ (tasked .copyBack).txnWaiting = []) ∧
      (running.served 384 = true ∧ running.readCheck 384 K.TDS_KEVENTS = (stOK, rNONE)) ∧
      (saving.retRound[saving.retNext % Nat.max 1 saving.retRound.length]? = some (1, 0) ∧ saving.domOn dNV = true ∧
        saving.domOn (dS 1) = true ∧ saving.retBase 1 + 0 < 448 ∧ saving.ns + 3000 ≤ saving.windowEndAt ∧
        saving.bdr.inhibit = false) := by
  decide +kernel

/-! ### The object dictionary -/

theorem witness_object_writes :
    (∀ p ∈ [(K.TDS_OFFSET, 0), (K.TDS_GUARD, 5000), (K.DIC_SESSION_IDLE, 60), (K.DIC_TXN_TIMEOUT, 10000), (K.STA_REPEAT_GAP, 1000),
      (K.NTM_LATE_LIMIT, 1000), (K.HNW_LOSS_TIDES, 3)], Takes base 384 p.1 p.2) ∧
      Refuses base 384 K.TDS_OFFSET 1000000 stRANGE rNONE :=
  ⟨takes_all (by decide), refuses_of (by decide +kernel)⟩

/-- A device that keeps a key for role 2. -/
def keyed : State := base.setOb (K.DIC_LOGIN + 2) 0x1234

/-- A device with a locked path. -/
def lockedOut : State := { base with dic := { base.dic with paths := [(9, { fails := [5], locked := true })] } }

theorem witness_sessions :
    Takes keyed 384 K.DIC_LOGIN (2 * 2 ^ 32 + 0x1234) ∧ (mget (fun _ => Path.init) lockedOut.dic.paths 9).locked = true ∧
      ((base.ses 384).open_ = true ∧ (base.ses 384).txn ≠ .pending) :=
  ⟨takes_of (by decide), rfl, by decide⟩

/-- The session of base with a transaction in a state that has staged one write of TDS.OFFSET. -/
def staged (t : TxnSt) : State :=
  asked base fun x => { x with txn := t, staged := [{ idx := 0x2001, sub := 2, width := 4, v := 8 }], dies := [0], order := 1 }

theorem witness_transactions :
    (base.served 384 = true ∧ base.writeCheck 384 K.DIC_TXN (base.obBytes K.DIC_TXN) 1 = (stOK, rNONE)) ∧
      ((staged .open).writeCheck 384 K.DIC_TXN ((staged .open).obBytes K.DIC_TXN) 2 = (stOK, rNONE) ∧
        ((staged .open).ses 384).staged ≠ []) ∧
      ((staged .open).writeCheck 384 K.DIC_TXN ((staged .open).obBytes K.DIC_TXN) 3 = (stOK, rNONE) ∧
        ((staged .open).ses 384).txn = .open) ∧
      (staged .open).writeCheck 384 K.TDS_OFFSET 4 8 = (stOK, rNONE) ∧
      ((staged .voting).voteDue 384 0 = true ∧ (staged .voting).dieAnswers 0 = true ∧
        (staged .voting).voteNo 384 0 = none ∧ ((staged .voting).ses 384).no = [] ∧
        ((staged .voting).ses 384).dies = [0]) ∧
      (((staged .pending).ses 384).txn = .pending ∧ 0 ∈ ((staged .pending).ses 384).dies ∧
        0 ∉ ((staged .pending).ses 384).applied ∧ ((staged .pending).ses 384).slack = false ∧
        (staged .pending).txnWaiting = [] ∧ (staged .pending).replicates = false ∧ ((staged .pending).ses 384).staged = [{ idx := 0x2001, sub := 2, width := 4, v := 8 }]) ∧
      (0 ∈ ((asked (staged .pending) fun x => { x with applied := [0] }).ses 384).applied ∧
        (asked (staged .pending) fun x => { x with applied := [0] }).dieAnswers 0 = true) := by
  decide +kernel

/-- A session with a transfer of TSK.SECTIONS of task 5 open. -/
def moving (write : Bool) (wr : List Byte) : State :=
  asked (base.setDom (K.TSK_SECTIONS 5) (List.replicate 32 7)) fun x =>
    { x with dom := some { key := K.TSK_SECTIONS 5, write := write, cap := none, wr := stageBytes [] 0 wr } }

/-- The value of DIC.DOM_OPEN for TSK.SECTIONS of task 5. -/
def openSections (dir : Nat) : Nat := 0x2105 * 2 ^ 32 + 5 * 2 ^ 24 + dir * 2 ^ 16

theorem witness_domain_transfers :
    (∀ dir ∈ [1, 2], base.writeCheck 384 K.DIC_DOM_OPEN (base.obBytes K.DIC_DOM_OPEN) (openSections dir) = (stOK, rNONE) ∧
      (base.domCheck 384 (domKey (openSections dir)) (decide (dir = 2))).1 = stOK ∧ domDir (openSections dir) = dir ∧
        base.valueOf K.DIC_DOM_OPEN (openSections dir) = openSections dir) ∧
      ((moving true []).apCheck 384 2040 8 true = stOK ∧ (moving false []).apCheck 384 0 1 false = stOK) ∧
      ((moving true (List.replicate 32 9)).writeCheck 384 K.DIC_DOM_CLOSE
          ((moving true (List.replicate 32 9)).obBytes K.DIC_DOM_CLOSE) 1 = (stOK, rNONE) ∧
        whole (stageBytes [] 0 (List.replicate 32 (9 : Byte))) = some (List.replicate 32 9) ∧
        ((moving true (List.replicate 32 9)).xferCommit 384 (K.TSK_SECTIONS 5)
          (stageBytes [] 0 (List.replicate 32 9))).1 = stOK) ∧
      (moving false []).writeCheck 384 K.DIC_DOM_CLOSE ((moving false []).obBytes K.DIC_DOM_CLOSE) 2 = (stOK, rNONE) := by
  decide +kernel

/-- A device whose keeper runs, with a request in the OEM queue that is taken or not. -/
def oemed (l : List OemReq) : State :=
  ({ base with str := { base.str with keeper := true }, dic := { base.dic with oem := l } }).setCtx 0 { Ctx.init with cs := .running }

def oemReq (taken : Bool) : OemReq :=
  { tag := 3, ses := 384, role := 0, idx := 0x6000, sub := 1, write := false, v := 0, taken := taken, at_ := 0 }

theorem witness_oem_requests :
    ((oemed []).served 384 = true ∧ (oemed []).oemCheck 384 true = (stOK, rNONE) ∧ (oemed []).oemCheck 384 false = (stOK, rNONE)) ∧
      ((oemed [oemReq false]).served 0 = true ∧
        (oemed [oemReq false]).writeCheck 0 K.DIC_DOM_OPEN ((oemed [oemReq false]).obBytes K.DIC_DOM_OPEN)
          (0x1104 * 2 ^ 32 + 2 * 2 ^ 24 + 2 ^ 16) = (stOK, rNONE) ∧
        ((oemed [oemReq false]).domCheck 0 K.DIC_OEM_REQ false).1 = stOK ∧
        (oemed [oemReq false]).dic.oem.find? (fun q => !q.taken) = some (oemReq false)) ∧
      (oemed [oemReq true]).dic.oem.find? (fun q => decide (q.tag = 3) && q.taken) = some (oemReq true) ∧
      (oemed [oemReq true]).dic.oem.find? (fun q => decide (q.tag = 3)) = some (oemReq true) := by
  decide +kernel

/-- A device on the network. -/
def online : State := netted base

/-- The body of a service request with its fields (R287). -/
def svcBody (target ses op tag idx sub off : Nat) (data : List Byte) : List Byte :=
  beBytes 2 target ++ beBytes 1 ses ++ beBytes 1 op ++ beBytes 2 tag ++ [0, 0] ++ beBytes 2 idx ++ beBytes 1 sub ++ [0] ++
    beBytes 4 off ++ beBytes 2 data.length ++ [0, 0] ++ data

/-- A good service request of session 0 to the controller, with TAG 1. -/
def serviceReq (op key off : Nat) (data : List Byte) : Rx :=
  { frameHdr 16 (header 5 0 0 0 0) with svc := svcBody 0x8000 0 op 1 (key / 256) (key % 256) off data }

def requestsB (s : State) (fr : Rx) (op : Nat) : Bool :=
  arrivesB s fr true && (s.ingress fr true).1.isService fr 5 && decide (rxTarget fr = 0x8000) && decide (rxOp fr = op) &&
    decide (rxTag fr = 1)

/-- The state after a frame has arrived, and with its TAG kept in the session that it uses. -/
def arrived (s : State) (fr : Rx) : State := (s.ingress fr true).1
def tagged (s : State) (fr : Rx) : State :=
  (arrived s fr).modSes 384 fun x => { x with lastTag := some 1, idleAt := (arrived s fr).ntm.mono }

theorem requests_of {s : State} {fr : Rx} {op : Nat} (h : requestsB s fr op = true) : Requests s fr op 1 (arrived s fr) := by
  simp only [requestsB, Bool.and_eq_true, decide_eq_true_eq] at h
  exact ⟨arrives_of h.1.1.1.1, h.1.1.1.2, h.1.1.2, h.1.2, h.2⟩

theorem serves_of {s : State} {fr : Rx} {op : Nat} (h : (requestsB s fr op && decide (rxSession fr = 0) &&
    ((arrived s fr).ses 384).open_ && decide (((arrived s fr).ses 384).lastTag ≠ some 1)) = true) :
    Serves s fr op 0 1 (tagged s fr) := by
  simp only [Bool.and_eq_true, decide_eq_true_eq] at h
  exact ⟨⟨by decide, h.1.1.2⟩, arrived s fr, requests_of h.1.1.1, h.1.2, h.2, rfl⟩

/-- online with a read or write transfer open in its session. -/
def onlineMoving (write : Bool) : State := netted (moving write [])

def openReq : Rx := serviceReq 1 0 0 []
def closeReq : Rx := serviceReq 2 0 0 []
def readReq : Rx := serviceReq 3 K.TDS_TIDE_START 0 []
def writeReq : Rx := serviceReq 4 K.TDS_OFFSET 0 (leBytes 8 8)

/-- A read of 1024 bytes: a request's DLEN counts no bytes of its own then. -/
def domReadReq : Rx :=
  let svc := beBytes 2 0x8000 ++ beBytes 1 0 ++ beBytes 1 5 ++ beBytes 2 1 ++ List.replicate 6 0 ++ beBytes 4 0 ++ beBytes 2 1024 ++ [0, 0]
  { frameHdr 16 (header 5 0 0 0 0) with svc := svc }

def domWriteReq : Rx := serviceReq 6 0 0 [7]

theorem witness_service_requests :
    (Requests online openReq 1 1 (arrived online openReq) ∧ (arrived online openReq).openAgain (rxSource openReq) 1 = none ∧
        (arrived online openReq).sesFree = some 385) ∧
      (Serves online closeReq 2 0 1 (tagged online closeReq) ∧ ((tagged online closeReq).ses 384).txn ≠ .pending) ∧
      (Serves online readReq 3 0 1 (tagged online readReq) ∧ rxIndex readReq = K.TDS_TIDE_START / 256 ∧
        rxSub readReq = K.TDS_TIDE_START % 256 ∧ (tagged online readReq).served 384 = true ∧
        (tagged online readReq).readCheck 384 K.TDS_TIDE_START = (stOK, rNONE)) ∧
      (Serves online writeReq 4 0 1 (tagged online writeReq) ∧ rxIndex writeReq = K.TDS_OFFSET / 256 ∧
        rxSub writeReq = K.TDS_OFFSET % 256 ∧ rxSlot writeReq = 8 ∧ (tagged online writeReq).served 384 = true ∧
        ((tagged online writeReq).ses 384).txn ≠ .open ∧
        (tagged online writeReq).writeCheck 384 K.TDS_OFFSET 8 8 = (stOK, rNONE) ∧ (tagged online writeReq).replicates = false) ∧
      (Serves (onlineMoving false) domReadReq 5 0 1 (tagged (onlineMoving false) domReadReq) ∧ rxOffset domReadReq = 0 ∧
        rxDlen domReadReq = 1024 ∧ (tagged (onlineMoving false) domReadReq).svcDomStatus 384 1024 false = stOK) ∧
      (Serves (onlineMoving true) domWriteReq 6 0 1 (tagged (onlineMoving true) domWriteReq) ∧ rxOffset domWriteReq = 0 ∧
        rxData domWriteReq = [7] ∧ (tagged (onlineMoving true) domWriteReq).svcDomStatus 384 1 true = stOK ∧ 0 + 1 ≤ domMax ∧
        ((tagged (onlineMoving true) domWriteReq).ses 384).dom.isSome = true) :=
  ⟨⟨requests_of (by decide +kernel), by decide +kernel⟩, ⟨serves_of (by decide +kernel), by decide +kernel⟩,
    ⟨serves_of (by decide +kernel), by decide +kernel⟩, ⟨serves_of (by decide +kernel), by decide +kernel⟩,
    ⟨serves_of (by decide +kernel), by decide +kernel⟩, ⟨serves_of (by decide +kernel), by decide +kernel⟩⟩

/-! ### Online change and the start sequence -/

/-- base with the online change unit in a state. -/
def olced (st : OlcSt) : State := { base with olc := { base.olc with st := st, written := [(0, 64)] } }

theorem witness_change_commands :
    Takes (olced .idle) 384 K.OLC_CMD 1 ∧ Takes (olced .loading) 384 K.OLC_CMD 2 ∧ Takes (olced .loaded) 384 K.OLC_CMD 3 ∧
      Takes (olced .verified) 384 K.OLC_CMD 4 ∧ Takes (olced .prepared) 384 K.OLC_CMD 5 ∧
      (Takes (olced .prepared) 384 K.OLC_CMD 6 ∧ (olced .prepared).olc.st ≠ .committing) ∧
      Takes (olced .committed) 384 K.OLC_CMD 7 ∧
      Takes { olced .committed with olc := { (olced .committed).olc with retreatOk := true } } 384 K.OLC_CMD 8 :=
  ⟨takes_of (by decide), takes_of (by decide +kernel), takes_of (by decide), takes_of (by decide), takes_of (by decide),
    ⟨takes_of (by decide), by decide⟩, takes_of (by decide), takes_of (by decide)⟩

/-- The unit with other operating state. -/
def olcWith (s : State) (f : Olc → Olc) : State := { s with olc := f s.olc }

theorem witness_change_events :
    ((olced .verifying).olc.st = .verifying) ∧
      ((olcWith (olced .verified) fun o => { o with ask := [1] }).olc.ask = [1] ∧
        (olcWith (olced .verified) fun o => { o with ask := [1] }).olc.no = []) ∧
      ((olcWith (olced .committing) fun o => { o with tested := 65535 }).olc.seeking = true ∧
        (olced .committing).olc.cand = none ∧
        (olcWith (olced .committing) fun o => { o with tested := 65535 }).ob K.OLC_COMMIT_WINDOW ≤ 65535) ∧
      ((olcWith (olced .committing) fun o => { o with point := true }).strandFitted 1 = true ∧
        (olcWith (olced .committing) fun o => { o with point := true }).strandUp 1 = true ∧
        (olcWith (olced .committing) fun o => { o with point := true }).slackOk = true ∧
        (olcWith (olced .committing) fun o => { o with point := true }).commitFits = true ∧ base.linkUp 1 = true) ∧
      (1 ∈ (olcWith (olced .committing) fun o => { o with point := true, switched := [1] }).olc.switched) ∧
      ((olcWith (olced .committing) fun o => { o with moved := true }).olc.moved = true ∧ (olced .committing).olc.retreat = false ∧
        (olcWith (olced .committing) fun o => { o with moved := true }).slackOk = true) ∧
      ((olcWith (olced .retreating) fun o => { o with moved := true, retreat := true }).olc.retreat = true ∧
        (olcWith (olced .retreating) fun o => { o with moved := true, retreat := true }).slackOk = true) := by
  decide

/-- A standby, or another role, of a pair. -/
def paired (role : Role) : State :=
  { base.setOb K.RED_CFG 1024 with red := { base.red with role := role, peer := true } }

theorem witness_change_in_pair :
    ((olcWith (paired .standby) fun o => { o with st := .prepared, cand := some 4 }).red.role = .standby ∧
        (olcWith (paired .standby) fun o => { o with st := .prepared, cand := some 4 }).olc.cand = some 4 ∧
        (olcWith (paired .standby) fun o => { o with st := .prepared, cand := some 4 }).moored = true ∧
        (olcWith (paired .standby) fun o => { o with st := .prepared, cand := some 4 }).olc.mayFollow = true) ∧
      ((olcWith (paired .active) fun o => { o with st := .committing, cand := some 4 }).olc.seeking = true) ∧
      ((olcWith (paired .standby) fun o => { o with voted := true }).olc.voted = true ∧
        (olcWith (paired .standby) fun o => { o with voted := true, st := .committed }).olc.st = .committed) ∧
      ((olcWith (paired .standby) fun o => { o with st := .verified }).dom K.OLC_HASH = []) ∧
      ((olcWith (paired .standby) fun o => { o with st := .verified }).olc.point = false) := by
  decide

/-- A start sequence at a step, its newest record pending. -/
def starting (step : Nat) : State :=
  { tideIn .running with str := { base.str with
    step := step
    recs := [{ secs := 0, typ := 1, result := 0, step := 0, reason := 0, hash := [] }, { secs := 0, typ := 1, result := 2, step := 4, reason := 1, hash := [] }] } }

/-- Bytes that provision a boot key. -/
def bootKey : List Byte := 1 :: List.replicate 32 0xA5

/-- A device in service mode. -/
def inService : State := { base with str := { base.str with service := true } }

theorem witness_start_sequence :
    ((starting 1).str.step = 1) ∧
      ((starting 8).str.step = 8 ∧ (starting 8).str.service = false ∧ (starting 8).txnWaiting = [] ∧ (starting 12).txnWaiting = [] ∧ (starting 8).keeperRuns = false) ∧
      (({ starting 8 with str := { (starting 8).str with keeper := true } }.setCtx 0 { Ctx.init with cs := .running }).keeperRuns = true) ∧
      ((starting 12).tds.st = .running) ∧
      (Takes (starting 12) 384 K.NTM_LOCK 0 ∧ Takes (starting 12) 384 K.NTM_LOCK 1 ∧ Takes (starting 12) 384 K.STR_CMD 1 ∧
        Takes (starting 8) 384 K.NTM_LOCK 1 ∧ Takes (starting 12) 384 K.STR_CMD 2 ∧ Takes (starting 12) 384 K.STR_CMD 3 ∧ Takes (starting 12) 384 K.STR_CMD 4) ∧
      Delivers inService 384 K.SEC_PROVISION bootKey ∧ leAt bootKey 0 1 = 1 :=
  ⟨rfl, by decide, by decide, rfl, ⟨takes_of (by decide), takes_of (by decide), takes_of (by decide), takes_of (by decide),
    takes_of (by decide), takes_of (by decide), takes_of (by decide)⟩, delivers_of (by decide), by decide⟩

/-! ### Field network and network time -/

/-- The running device on the network, in its ebb. -/
def atSea : State := (netted { ebbing false with hnw := { base.hnw with sta := [(3, { Sta.init with st := .operational })] } })

/-- One segment of station 3 with DONE set (R271), and its frame of a TYPE. -/
def segment3 : List Byte := [128, 3, 0, 0, 0, 0, 0, 0]
def cyclic3 (typ : Nat) : Rx := frameHdr 0 (header typ 144 0 1 1)

/-- A partner that hears a frame of its partner. -/
def pairNet : State := netted (paired .active)

/-- The body of an event of station 3 with sequence number 65535. -/
def event3 : List Byte := [0, 3, 255, 255] ++ List.replicate 8 0 ++ List.replicate 8 1
def eventOf3 : Rx := frameHdr 0 (header 4 0 0 1 0)

theorem witness_cyclic_frames :
    (atSea.inEbb = true ∧ atSea.domOn dNW = true ∧ atSea.hnw.ebbSent = false) ∧
      ((netted armed).tds.st = .armed ∧ (netted armed).domOn dNW = true ∧ (netted armed).grantHeld = true ∧
        0 ∈ (netted armed).trunks) ∧
      (Arrives atSea (cyclic3 1) false (atSea.ingress (cyclic3 1) false).1 ∧
        (let s0 := (atSea.ingress (cyclic3 1) false).1
         s0.isType (cyclic3 1) 1 = true ∧ ((rxSegs (cyclic3 1) segment3).map fun g => (g.station, g.done)) = [(3, true)] ∧
          s0.ownFrame (rxHeader (cyclic3 1)) = true ∧ s0.tideOn = true ∧ s0.staEn 3 = true ∧
          s0.staPort 3 = s0.trunkOf 0 ∧ (s0.stn 3).accepted = false ∧ s0.tds.inputDone = false ∧ s0.tds.flooded = false ∧
          (s0.stn 3).st = .operational)) ∧
      (Arrives atSea (cyclic3 2) false (atSea.ingress (cyclic3 2) false).1 ∧
        (let s0 := (atSea.ingress (cyclic3 2) false).1
         s0.isType (cyclic3 2) 2 = true ∧ s0.ownFrame (rxHeader (cyclic3 2)) = true ∧ s0.staEn 3 = true)) :=
  ⟨by decide +kernel, by decide +kernel, ⟨arrives_of (by decide +kernel), by decide +kernel⟩,
    ⟨arrives_of (by decide +kernel), by decide +kernel⟩⟩

/-- An event frame of the other partner of the pair, partner B. -/
def transitEvent : Rx := frameHdr 0 (header 4 64 0 1 0)

/-- A frame of EtherType 0806h or 0800h at an engineering port. -/
def answered (ty : Nat) : Rx :=
  { frameOn 16 with
    etype := ty
    ip := if ty = 0x0800 then some { fragment := false, options := false, hdrOk := true, broadcast := false } else none }

theorem witness_other_frames :
    (Arrives pairNet transitEvent true (pairNet.ingress transitEvent true).1 ∧ 3 = transitClass transitEvent [] ∧
        (pairNet.ingress transitEvent true).1.inPair = true ∧ transitEvent.port < 16 ∧
        (pairNet.ingress transitEvent true).1.ofPartner transitEvent = true) ∧
      (Arrives atSea eventOf3 true (atSea.ingress eventOf3 true).1 ∧
        (let s0 := (atSea.ingress eventOf3 true).1
         s0.isType eventOf3 4 = true ∧ (rxHeader eventOf3).pair = s0.ob K.HNW_PAIR_ID ∧ beAt event3 0 2 % 4096 = 3 ∧
          beAt event3 2 2 = 65535 ∧ s0.staEn 3 = true ∧ s0.staPort 3 = s0.trunkOf 0 ∧
          mget (fun _ => 0) s0.hnw.evseq 3 ≠ 65535 % 65536 + 1 ∧ (s0.ob (K.HST_CFG 3)).testBit 8 = true ∧ s0.red.role ≠ .standby)) ∧
      (∀ ty ∈ [0x0806, 0x0800],
        Arrives (online.setOb K.HNW_IP 5) (answered ty) true ((online.setOb K.HNW_IP 5).ingress (answered ty) true).1 ∧
          ((online.setOb K.HNW_IP 5).ingress (answered ty) true).1.ob K.HNW_IP ≠ 0) := by
  refine ⟨⟨arrives_of (by decide +kernel), by decide +kernel⟩, ⟨arrives_of (by decide +kernel), by decide +kernel⟩, ?_⟩
  intro ty h
  simp only [List.mem_cons, List.not_mem_nil, or_false] at h
  rcases h with rfl | rfl <;> exact ⟨arrives_of (by decide +kernel), by decide +kernel⟩

/-- A request that is kept. -/
def kept (use_ : Nat) : Route :=
  { rid := 4, src := 1, peer := { mac := 2, udp := none }, eng := 16, tag := 9, use := use_, port := 0, byPos := false, num := 3
    ses := 0, op := 3, idx := 0x1000, sub := 1, off := 0, data := [] }

/-- The device with requests kept, and station 3 lost. -/
def asking (l : List Route) : State :=
  netted { base with hnw := { base.hnw with routes := l, relayed := l, sta := [(3, { Sta.init with st := .lost })] } }

/-- A service request to station 3, and a station's response. -/
def toStation : Rx := { frameHdr 16 (header 5 0 0 0 0) with svc := svcBody 3 0 3 9 0x1000 1 0 [] }
def fromStation : Rx :=
  { frameHdr 0 (header 6 0 0 0 0) with svc := beBytes 2 3 ++ [0, 3] ++ beBytes 2 4 ++ [0, 0] ++ List.replicate 12 0 }

theorem witness_station_requests :
    (Arrives (asking []) toStation true ((asking []).ingress toStation true).1 ∧
        (let s0 := ((asking []).ingress toStation true).1
         s0.isService toStation 5 = true ∧ 16 ≤ toStation.port ∧ routeSays toStation 0 9 0x1000 1 0 [] = true ∧
          reservedReq (rxTarget toStation) (rxOp toStation) = false ∧ rxTarget toStation = 3 ∧
          s0.staEn 3 = true ∧ s0.routesFull = false)) ∧
      (Arrives (asking [kept 0]) fromStation true ((asking [kept 0]).ingress fromStation true).1 ∧
        ((asking [kept 0]).ingress fromStation true).1.isService fromStation 6 = true ∧ responseSays fromStation 4 0 0 [] = true ∧
        ((asking [kept 0]).ingress fromStation true).1.findRoute 4 = some (kept 0)) ∧
      (asking [kept 0]).findRoute 4 = some (kept 0) ∧ (asking [kept 1]).findRoute 4 = some (kept 1) ∧
      (pairNet.inPair = true ∧ pairNet.redId = 0 ∧ pairNet.domOn dNW = true ∧ pairNet.routesFull = false) ∧
      (asking [kept 0]).hnw.relayed.find? (fun q => decide (q.rid = 4)) = some (kept 0) ∧
      (Takes online 384 K.HNW_CMD 1 ∧ Takes online 384 K.HNW_CMD 2) ∧
      ({ online with hnw := { online.hnw with cmd := 1 } }.hnw.cmd = 1 ∧ online.hnw.scans = [] ∧ online.hnw.conf = [] ∧
        online.hnw.confAt = []) ∧
      ((asking []).staEn 3 = true ∧ ((asking []).stn 3).st = .lost ∧ (asking []).relays = false ∧ (asking []).routesFull = false) ∧
      online.domOn dNW = true :=
  ⟨⟨arrives_of (by decide +kernel), by decide +kernel⟩, ⟨arrives_of (by decide +kernel), by decide +kernel⟩, by decide +kernel,
    by decide +kernel, by decide +kernel, by decide +kernel, ⟨takes_of (by decide), takes_of (by decide)⟩, by decide +kernel,
    by decide +kernel, by decide +kernel⟩

/-- A frame that waits at a port. -/
def waiting (cls : Nat) (launch : Option Nat) : TxF := { TxF.init with kind := .service, cls := cls, launch := launch }

/-- The device with frames waiting at port 17. -/
def sending (l : List TxF) : State := { online with hnw := { online.hnw with txq := [(17, l)] } }

theorem witness_launches :
    (let s := sending [waiting 3 none]
     s.portRuns 17 = true ∧ s.busyEnd 17 ≤ s.ntm.mono ∧ ((s.dropMissed 17).gateDropOne 17 2).gateDropOne 17 3 = s ∧
      s.nextFrame 17 = some (waiting 3 none) ∧ (waiting 3 none).stamp = false ∧ s.img.copying = false) ∧
      (let s := sending [waiting 2 (some 5)]
       s.domOn dNW = true ∧ s.ntm.steps = [] ∧ s.queue 17 = [waiting 2 (some 5)] ∧ 5 + s.ob K.NTM_LATE_LIMIT + 1 < 2 ^ 64 ∧
        s.clockNs + (5 + s.ob K.NTM_LATE_LIMIT + 1 - s.ns) < nsWrap) ∧
      (let s := online.setGate 17 { Gate.init with pending := true, swapAt := 1000 }
       s.domOn dNW = true ∧ s.ntm.steps = [] ∧ s.gated 17 = false ∧ (s.gate 17).pending = true ∧ (s.gate 17).swapAt < 2 ^ 64 ∧
        s.clockNs + ((s.gate 17).swapAt - s.ns) < nsWrap) ∧
      (Takes online 384 (K.NTM_GCL_CFG 18) (2 ^ 16 + 3) ∧ (online.valueOf (K.NTM_GCL_CFG 18) (2 ^ 16 + 3)).testBit 1 = true) :=
  ⟨by decide +kernel, by decide +kernel, by decide +kernel, ⟨takes_of (by decide), by decide⟩⟩

/-- Bytes of NTM.SET: 5 s and 7 ns. -/
def setting : List Byte := leBytes 6 5 ++ leBytes 4 7

/-- A PTP frame in the form NTM.PTP_TX takes, for port 17. -/
def submitted : List Byte := [17, 0, 0, 0, 0, 0, 0, 0] ++ List.replicate 34 0

/-- A received PTP frame. -/
def ptpFrame : Rx := { frameOn 0 with etype := 0x88F7, hdr := [] }

/-- The device with PTP records and stamps queued. -/
def heard (n : Nat) : State :=
  { online with ntm := { online.ntm with
    rx := List.replicate n { port := 0, stepgen := 0, len := 64, sec := 0, nsec := 0, frame := [] }
    stamps := List.replicate n { tag := 1, stepgen := 0, port := 0, sec := 0, nsec := 0 } } }

theorem witness_network_time :
    (1 ∈ online.strands ∧ online.domOn (dS 1) = true ∧ online.linkUp 1 = true) ∧
      Takes online 384 K.NTM_INCR 0x400000000 ∧ Takes online 384 K.NTM_OFFSET 5 ∧
      Takes { online with ntm := { online.ntm with sec := 1 } } 384 K.NTM_OFFSET_FORCE (2 ^ 64 - 1) ∧
      Delivers online 384 K.NTM_SET setting ∧
      (online.served 384 = true ∧ online.readCheck 384 K.NTM_NSEC = (stOK, rNONE)) ∧
      (Arrives (heard 63) ptpFrame true ((heard 63).ingress ptpFrame true).1 ∧
        ((heard 63).ingress ptpFrame true).1.ntm.rx.length < 64) ∧
      (Arrives (heard 64) ptpFrame true ((heard 64).ingress ptpFrame true).1 ∧
        64 ≤ ((heard 64).ingress ptpFrame true).1.ntm.rx.length) ∧
      Opens (heard 1) 384 K.NTM_PTP_RX ∧ Opens (heard 1) 384 K.NTM_TX_STAMP ∧
      (Delivers online 384 K.NTM_PTP_TX submitted ∧ (leAt submitted 1 1).testBit 2 = false) :=
  ⟨by decide, takes_of (by decide), takes_of (by decide), takes_of (by decide +kernel), delivers_of (by decide), by decide,
    ⟨arrives_of (by decide), by decide⟩, ⟨arrives_of (by decide), by decide⟩, opens_of (by decide), opens_of (by decide),
    ⟨delivers_of (by decide), by decide⟩⟩

/-! ### The pair, the Lighthouse and Breakwater -/

/-- A partner of a pair with other values. -/
def mate (role : Role) (f : Red → Red) : State := { paired role with red := f (paired role).red }

/-- The status message of the other partner, in a role. -/
def peerSays (role : Nat) (grant : Bool) : Status :=
  { (paired .standby).myStatus with id := 1, role := role, grant := grant }

theorem witness_mooring_links :
    (paired .standby).moored = true ∧
      ((paired .joining).moored = true ∧ (paired .joining).mismatch (peerSays 5 true) = 0 ∧ (paired .joining).autoResync = false) ∧
      ((mate .resync id).inPair = true ∧ (mate .resync id).red.peer = true) ∧
      ((mate .active fun r => { r with linkSt := [(0, 2), (1, 2)] }).moored = true ∧
        (mate .active fun r => { r with linkSt := [(0, 2), (1, 2)] }).linkState (1 - 0) = 2) ∧
      (paired .active).linkState 1 = 0 := by
  decide

/-- A partner whose tide runs and whose digests are sent. -/
def agreeing (role : Role) : State :=
  { mate role fun r => { r with digSent := some 0, myOut := some (0, 7, []) } with tds := running.tds }

theorem witness_pair_exchange :
    ((agreeing .standby).moored = true ∧ (agreeing .standby).ob K.TDS_TIDE = 0 ∧ (agreeing .standby).red.digSent = some 0 ∧
        (agreeing .standby).tds.flooded = false ∧ (agreeing .standby).tideStopped = false) ∧
      ((agreeing .active).moored = true ∧ (agreeing .active).ob K.TDS_TIDE = 0) ∧
      ((agreeing .standby).red.myOut = some (0, 7, []) ∧ (agreeing .standby).red.changeTide ≠ some 0 ∧ (agreeing .standby).red.swap ≠ some 0 ∧
        (agreeing .standby).red.lateTide ≠ some 0 ∧ (agreeing .standby).divPol = 0) ∧
      ((agreeing .standby).setOb K.RED_CFG (1024 + 32)).divPol = 1 ∧
      ((agreeing .standby).setOb K.RED_CFG (1024 + 32)).autoResync = false := by
  decide

theorem witness_grant_changes :
    (let s := mate .standby fun r => { r with pair := .denied, peer := false }
     s.redMode = 1 ∧ s.inPair = true ∧ s.red.pair ≠ .valid ∧ s.red.peer = false) ∧
      (let s := mate .joining fun r => { r with pair := .denied, peer := false }
       s.redMode = 1 ∧ s.inPair = true ∧ s.red.pair ≠ .valid ∧ s.red.role = .joining ∧ s.red.reason ≠ 1 ∧ s.red.reason ≠ 2) ∧
      (let s := mate .standby fun r => { r with pair := .denied, peerSt := peerSays 5 true }
       s.redMode = 1 ∧ s.inPair = true ∧ s.red.pair ≠ .valid ∧ s.red.peer = true ∧ s.red.peerSt.grant = true) ∧
      (let s := mate .active fun r => { r with pair := .valid, grant := true }
       s.redMode = 1 ∧ s.inPair = true ∧ s.red.pair ≠ .denied) := by
  decide

/-- A Lighthouse. -/
def lighthouse (f : Wit → Wit) : State :=
  { base.setOb K.RED_CFG 2048 with red := { base.red with role := .witness, wit := f base.red.wit } }

theorem witness_witness_commands :
    ((lighthouse fun w => { w with started := false }).witnesses = true ∧
        (lighthouse fun w => { w with started := false }).red.wit.started = false) ∧
      ((lighthouse fun w => { w with started := true }).witnesses = true ∧
        (lighthouse fun w => { w with started := true }).red.wit.started = true ∧
        (lighthouse fun w => { w with started := true }).red.wit.fault = false) ∧
      (lighthouse fun w => { w with started := true, move := true, holder := .b }).red.wit.move = true := by
  decide

/-- An active partner whose peer stands by. -/
def leading : State := mate .active fun r => { r with peerSt := peerSays 4 false }

theorem witness_pair_commands :
    Takes leading 384 K.RED_CMD 1 ∧
      Takes (mate .unsynced fun r => { r with peerSt := peerSays 5 true }) 384 K.RED_CMD 2 ∧
      Takes leading 384 K.RED_CMD 3 ∧ (Takes leading 384 K.RED_CMD 4 ∧ leading.swapFree = true) ∧
      (Takes (mate .active fun r => { r with peer := false }) 384 K.RED_CMD 4 ∧
        (mate .active fun r => { r with peer := false }).swapFree = false) :=
  ⟨takes_of (by decide), takes_of (by decide), takes_of (by decide), ⟨takes_of (by decide), by decide⟩,
    ⟨takes_of (by decide), by decide⟩⟩

/-- A partner in resynchronisation that has used some passes. -/
def resyncing (pass : Nat) (final : Bool) : State := mate .resync fun r => { r with pass := pass, finalWait := final }

theorem witness_resync_and_switchover :
    ((resyncing 0 false).moored = true ∧ (resyncing 0 false).finalFits 0 = true) ∧
      ((resyncing 15 false).finalFits 100000 = false ∧ (resyncing 15 false).ob K.RED_RESYNC_PASSES ≤ 15 + 1) ∧
      ((resyncing 0 false).finalFits 100000 = false ∧ 0 + 1 < (resyncing 0 false).ob K.RED_RESYNC_PASSES) ∧
      ((resyncing 1 true).moored = true ∧ (resyncing 1 true).red.finalWait = true ∧ (resyncing 1 true).str.service = false) ∧
      (let s := mate .active fun r => { r with peerSt := peerSays 3 false }
       s.moored = true ∧ s.red.role = .active ∧ s.red.peer = true ∧ s.red.peerSt.role = 3 ∧ s.red.finalWait = false ∧
        s.finalFits 0 = true ∧ s.finalFits 100000 = false ∧ s.red.pass + 1 < s.ob K.RED_RESYNC_PASSES) ∧
      (resyncing 0 false).syncs (mHead / 4096) = true ∧
      ((mate .active fun r => { r with giving := true }).red.grant = false ∧
        (mate .active fun r => { r with giving := true }).red.giving = true) ∧
      ((mate .active fun r => { r with giving := true, grant := true }).red.grant = true) ∧
      (let s := { leading.setOb K.RED_DRILL_INTERVAL 1 with red := { leading.red with drillAt := some 9, holdoff := some 5 } }
       s.inPair = true ∧ s.red.drillAt = some 9 ∧ s.ob K.RED_DRILL_INTERVAL ≠ 0 ∧ s.red.role = .active ∧ s.prefMismatch = false ∧
        s.swapFree = true ∧ s.red.holdoff = some 5) ∧
      (mate .standby fun r => { r with holdoff := some 5 }).red.role = .standby := by
  decide

/-- base with the field side supplied and in a state, its configuration acknowledged. -/
def field (st : Nat) (f : Fio → Fio) : State :=
  { base with fio := f { base.fio with
    fstate := st
    la := true
    fieldCfg := fioItems.map fun i => (i, 1) } }

/-- OVL_RETRY at the field side. -/
def retrying (f : Fio → Fio) : State :=
  field 1 fun x => f { x with fieldCfg := mput (fun _ => 0) x.fieldCfg 0 2 }

/-- The field side in RUN with its edge log full. -/
def logged : State := field 1 fun f => { f with log := List.replicate 128 (0, 0, true) }

/-- Supplied by L+B alone. -/
def supplyB : State := field 1 fun f => { f with la := false, lb := true }

/-- A configuration item, and CLEAR_OVL, on their way. -/
def sent : State := field 1 fun f => { f with cfgPend := [16, 5] }

theorem witness_field_inputs :
    ((field 1 id).logicRuns = true ∧ (field 1 id).fieldRuns = true ∧ (field 1 id).fio.filt.testBit 3 ≠ true ∧
        (field 1 id).runHolds 3 true (5 % 2 ^ 64) = true ∧ base.red.role ≠ .standby ∧ base.fio.log.length < 128) ∧
      (logged.logicRuns = true ∧ logged.fieldRuns = true ∧ logged.fio.filt.testBit 15 ≠ true ∧
        logged.runHolds 15 true (5 % 2 ^ 64) = true ∧ 128 ≤ logged.fio.log.length) ∧
      (field 1 id).linkUp 7 = true ∧
      ((field 1 id).bwFitted = true ∧ (field 1 id).fio.la = true ∧ (field 1 id).fio.lb = false) ∧
      (supplyB.fio.lb = true ∧ supplyB.fio.la = false) ∧
      (sent.fieldRuns = true ∧ 16 ∈ sent.fio.cfgPend ∧ sent.ob (fioItemKey 16) = 2 ∧ 5 ∈ sent.fio.cfgPend) ∧
      Opens base 384 K.FIO_EDGE_LOG :=
  ⟨by decide, by decide +kernel, by decide, by decide, by decide, by decide, opens_of (by decide)⟩

theorem witness_field_outputs :
    ((field 1 fun f => { f with c0 := [1] }).c0Is 1 = true) ∧
      ((field 1 fun f => { f with c0 := [2] }).c0Is 2 = true ∧ (field 2 fun f => { f with c0 := [2] }).c0Is 2 = true) ∧
      ((field 2 fun f => { f with c0 := [3] }).c0Is 3 = true ∧ (field 2 fun f => { f with c0 := [3] }).fio.fstate = 2) ∧
      ((field 1 id).bwFitted = true ∧ (field 1 id).fio.fstate = 1 ∧ (field 1 id).c0Is 2 = false) ∧
      ((field 2 fun f => { f with safeDue := 1 }).fio.safeDue = 1 ∧ (field 2 fun f => { f with safeDue := 1 }).fio.ovlDue = []) ∧
      (Takes (field 1 id) 384 K.FIO_CMD 1 ∧ (field 1 id).domOn dFL = true ∧
        Takes (field 2 fun f => { f with rep := { f.rep with fstate := 2 } }) 384 K.FIO_CMD 2 ∧ Takes (field 1 id) 384 K.FIO_CMD 3) :=
  ⟨by decide, by decide, by decide, by decide, by decide, takes_of (by decide), by decide, takes_of (by decide), takes_of (by decide)⟩

/-- Channel 3 conducts, in current limit. -/
def limited : State := field 1 fun f => { f with cmd := 8, limitAt := [(3, 7)] }

/-- Its set is switched off, with OVL_RETRY. -/
def offRetry : State := retrying fun f => { f with off := 8, cmd := 8, offAt := [(3, 7)] }

theorem witness_field_protection :
    (limited.conducts 3 = true ∧ mget (fun _ => 0) limited.fio.limitAt 3 ≠ 0) ∧
      ((field 1 fun f => { f with ovlDue := [(3, 1)] }).fio.safeDue = 0 ∧
        (field 1 fun f => { f with ovlDue := [(3, 1)] }).fio.ovlDue = [(3, 1)]) ∧
      ((field 1 fun f => { f with thermal := 8 }).fieldRuns = true ∧
        (field 1 fun f => { f with thermal := 8 }).fio.thermal.testBit 3 = true ∧
        (field 1 fun f => { f with thermal := 8 }).ovlRetries = false) ∧
      (offRetry.fieldRuns = true ∧ offRetry.ovlRetries = true ∧ offRetry.fio.off.testBit 3 = true ∧
        mget (fun _ => 0) offRetry.fio.offAt 3 ≠ 0) := by
  decide

/-! ### Message bus and DMA -/

/-- base with other values in message bus controller 1. -/
def bussed (f : Mbc → Mbc) : State := base.setMb 1 (f Mbc.init)

/-- The controller in RUN. -/
def onBus (f : Mbc → Mbc) : State := bussed fun m => f { m with mode := .run }

/-- An element of 64 bytes. -/
def elem : Elem := { stamp := 5, id := 6, form := 64 * 2 ^ 16, data := List.replicate 64 7 }

theorem witness_bus_modes :
    Takes (bussed id) 384 (K.MBC_CMD 2) 1 ∧
      (Takes (onBus id) 384 (K.MBC_CMD 2) 2 ∧ ((onBus id).mb 1).cur = none) ∧
      (Takes (onBus fun m => { m with cur := some 0 }) 384 (K.MBC_CMD 2) 2 ∧
        ((onBus fun m => { m with cur := some 0 }).mb 1).cur ≠ none) ∧
      Takes (bussed fun m => { m with mode := .busOff }) 384 (K.MBC_CMD 2) 3 ∧ Takes (onBus id) 384 (K.MBC_CMD 2) 4 ∧
      (((bussed fun m => { m with starting := true }).mb 1).starting = true ∧
        ((bussed fun m => { m with starting := true }).mb 1).mode = .config) ∧
      ((bussed fun m => { m with mode := .recovering }).mb 1).mode = .recovering ∧ ((onBus id).mb 1).mode = .run :=
  ⟨takes_of (by decide), ⟨takes_of (by decide), by decide⟩, ⟨takes_of (by decide), by decide⟩, takes_of (by decide),
    takes_of (by decide), by decide, by decide, by decide⟩

/-- The controller of a standby. -/
def onBusStandby (f : Mbc → Mbc) : State := { onBus f with red := { base.red with role := .standby } }

theorem witness_bus_of_standby :
    (Takes (onBusStandby id) 384 (K.MBC_CMD 2) 2 ∧ ((onBusStandby id).mb 1).cur = none ∧ (onBusStandby id).red.role = .standby) ∧
      Takes (onBusStandby fun m => { m with tx := [(0, { TxBuf.init with pend := true })] }) 384 (K.MBC_TX_CANCEL 2) 1 :=
  ⟨⟨takes_of (by decide), by decide⟩, takes_of (by decide)⟩

/-- A data frame on the bus. -/
def frame : CanFrame :=
  { ext := false, id := 0x123, remote := false, fd := false, switch := false, passive := false, dlc := 2, data := [1, 2], res := false }

/-- The controller with a frame in FIFO 0, its read window locked to it or not. -/
def popping (cfg : Nat) (f : Mbc → Mbc) : State :=
  (onBus fun m => f { m with fifo0 := [elem, elem] }).setOb (K.MBC_CFG 2) cfg

theorem witness_bus_receive :
    (((onBus id).mb 1).mode = .run ∧ frame.res = false ∧ frame.remote = false ∧ (onBus id).sdoTakes 1 frame = false ∧
        (onBus id).red.role ≠ .standby ∧ (onBus id).ruleOf 1 frame.ext frame.id = none ∧ cfgNomatch ((onBus id).mbCfg 1) = 0 ∧
        ((onBus id).mb 1).fifo0.length < 64) ∧
      (Takes (popping 0 id) 384 (K.MBC_RD_POP 2) 0x20 ∧ cfgLock ((popping 0 id).mbCfg 1) = false) ∧
      (Takes (popping 4096 id) 384 (K.MBC_RD_POP 2) 0x20 ∧ cfgLock ((popping 4096 id).mbCfg 1) = true) ∧
      (let s := popping 4096 fun m => { m with win := some elem, winUnread := true, locked := some 0x20 }
       (s.mb 1).win = some elem ∧ elem.len ≤ 64 ∧ (s.mb 1).winUnread = true ∧ (s.mb 1).locked = some 0x20 ∧
        s.served 384 = true ∧ s.readCheck 384 ((0x3810 + elem.lastWord) * 256 + 2) = (stOK, rNONE)) :=
  ⟨by decide +kernel, ⟨takes_of (by decide), by decide⟩, ⟨takes_of (by decide), by decide⟩, by decide⟩

/-- The controller with transmit buffer 0 pending. -/
def transmitting (f : Mbc → Mbc) : State :=
  onBus fun m => f { m with tx := [(0, { TxBuf.init with pend := true })] }

theorem witness_bus_transmit :
    Takes (onBus id) 384 (K.MBC_TX_REQ 2) 7 ∧
      (Takes (transmitting id) 384 (K.MBC_TX_CANCEL 2) 1 ∧ ((transmitting id).mb 1).cur = none) ∧
      (transmitting id).txMay 1 = true ∧
      (let s := transmitting fun m => { m with cur := some 0 }
       (s.mb 1).cur = some 0 ∧ (s.mb 1).stopping = false ∧ (s.mb 1).tec ≤ 255 ∧ cfgTest (s.mbCfg 1) ≠ 2) ∧
      (let s := (transmitting fun m => { m with cur := some 0 }).setOb (K.MBC_CFG 2) (2 ^ 18)
       ((s.mb 1).buf 0).late = false ∧ cfgCompat (s.mbCfg 1) = true) :=
  ⟨takes_of (by decide), ⟨takes_of (by decide), by decide⟩, by decide, by decide, by decide⟩

/-- The controller's SDO server enabled as node 5, with a transfer in hand. -/
def serving (x : Option SdoXfer) : State :=
  (onBus fun m => { m with sdo := x }).setOb (K.MBC_SDO 2) (1000 * 2 ^ 16 + 128 + 5)

theorem witness_bus_sdo :
    (((serving none).mb 1).mode = .run ∧ ((serving none).ob (K.MBC_SDO 2)).testBit 7 = true ∧
        bits ((serving none).ob (K.MBC_SDO 2)) 6 0 ≠ 0 ∧ (serving none).inPair = false) ∧
      ((List.replicate 8 0 : List Byte).length = 8 ∧ bits (leAt (List.replicate 8 0) 0 1) 7 5 = 0 ∧
        ((serving none).mb 1).sdo = none ∧ ((serving none).mb 1).rsp = []) ∧
      ((0x80 :: List.replicate 7 0 : List Byte).length = 8 ∧ bits (leAt (0x80 :: List.replicate 7 0) 0 1) 7 5 = 4) ∧
      ((serving (some { key := 0x100001, down := true, toggle := false, data := [] })).mb 1).sdo =
        some { key := 0x100001, down := true, toggle := false, data := [] } := by
  decide

/-- base with other values in DMA channel 9, its PC at 2000 0000h. -/
def channel (f : Dma → Dma) : State := base.setCh 9 (f { Dma.init with pc := 0x20000000 })

theorem witness_dma_commands :
    Takes (channel id) 384 (K.DMA_CMD 10) 1 ∧
      (Takes (channel fun d => { d with st := .running }) 384 (K.DMA_CMD 10) 2 ∧
        ((channel fun d => { d with st := .running }).ch 9).fin = .none ∧ ((channel fun d => { d with st := .running }).ch 9).rem = 0 ∧
        (channel fun d => { d with st := .running }).dmaAtMove 9 = false) ∧
      Takes (channel fun d => { d with st := .waiting }) 384 (K.DMA_CMD 10) 2 ∧
      Takes (channel fun d => { d with st := .paused }) 384 (K.DMA_CMD 10) 2 ∧
      Takes (channel fun d => { d with st := .done }) 384 (K.DMA_CMD 10) 2 ∧
      Takes (channel fun d => { d with st := .running }) 384 (K.DMA_CMD 10) 3 ∧
      (Takes (channel fun d => { d with st := .paused }) 384 (K.DMA_CMD 10) 4 ∧
        ((channel fun d => { d with st := .paused }).ch 9).waitPaused = false ∧
        ((channel fun d => { d with st := .paused }).ch 9).errCode ≠ dmTimeout) ∧
      (Takes (channel fun d => { d with st := .running }) 384 (K.DMA_CMD 10) 5) ∧
      Takes (channel fun d => { d with st := .halted }) 384 (K.DMA_CMD 10) 6 ∧
      ((channel fun d => { d with st := .pausing }).ch 9).st = .pausing ∧
      ((channel fun d => { d with st := .pausing }).ch 9).fin = .none ∧ ((channel fun d => { d with st := .pausing }).ch 9).stopReq = false ∧
      (channel fun d => { d with st := .pausing }).dmaAtMove 9 = false ∧
      ((channel fun d => { d with st := .pausing }).putBytes mHead ([0x10000000, 1, 0x20000000, 0x20200000, 0x00100010, 0].flatMap
        (leBytes 4))).dmaAtMove 9 = true :=
  ⟨takes_of (by decide), ⟨takes_of (by decide), by decide +kernel⟩, takes_of (by decide), takes_of (by decide), takes_of (by decide),
    takes_of (by decide), ⟨takes_of (by decide), by decide⟩, takes_of (by decide), takes_of (by decide), by decide +kernel⟩

/-- Channel 9 running, with the words of an instruction at its PC. -/
def program (st : DmaSt) (w : List Nat) : State :=
  (channel fun d => { d with st := st }).putBytes mHead (w.flatMap (leBytes 4))

theorem witness_dma_moves :
    (DmaIssues (program .running [0x10000000 + 4 * 2 ^ 25 + 4 * 2 ^ 22, 16, 0x20000000, 0x20FFFFF0, 0x00100010, 0]) 9
        (.move 16 16 false false 16 0x20000000 0x20FFFFF0 16 16) ∧
      (program .running [0x10000000 + 4 * 2 ^ 25 + 4 * 2 ^ 22, 16, 0x20000000, 0x20FFFFF0, 0x00100010, 0]).eccOf mHead 16 ≠ 2) ∧
      DmaIssues (program .running [0x10000000, 1, 0x20000000, 0x20200000, 0x00100010, 0]) 9
        (.move 1 1 false false 1 0x20000000 0x20200000 16 16) ∧
      DmaIssues (program .running [0x10000000 + 1 * 2 ^ 25 + 1 * 2 ^ 22, 2, 0x20000001, 0x20200000, 0x00100010, 0]) 9
        (.move 2 2 false false 2 0x20000001 0x20200000 16 16) :=
  ⟨⟨⟨by decide, by decide, by decide +kernel, by decide⟩, by decide +kernel⟩, ⟨by decide, by decide, by decide +kernel, by decide⟩,
    ⟨by decide, by decide, by decide +kernel, by decide⟩⟩

/-- Channel 9 in an instruction's completion. -/
def finishing (f : DmaFin) : State := channel fun d => { d with st := .running, fin := f }

theorem witness_dma_programs :
    (DmaIssues ((program .running [0x20000008, 3, 0, 0]).modCh 9 fun d => { d with pc := 0x20000000 }) 9 (.loop 0 8 3 0 0)) ∧
      (let s := ((channel fun d => { d with st := .running, pc := 0x20000008 }).putBytes (mHead + 8)
          ([0x20000008, 3, 0, 0].flatMap (leBytes 4))).setOb (K.DMA_PROG 10) 0x20000000
       DmaIssues s 9 (.loop 0 8 3 0 0) ∧ s.ob (K.DMA_PROG (9 + 1)) + 8 ≤ (s.ch 9).pc) ∧
      (DmaIssues (program .running [0x32000000, 0, 100, 0]) 9 (.wait 2 0 0 100)) ∧
      (program .waiting [0x32000000, 0, 100, 0]).dmaWaitOf 9 = some (2, 0, 0, 100) ∧
      (program .waiting [0x32000000, 7, 100000, 0]).dmaWaitOf 9 = some (2, 0, 7, 100000) ∧
      (((program .waiting [0x32000000, 7, 100000, 0]).ch 9).waitMono + 7 * 1000 - (program .waiting [0x32000000, 7, 100000, 0]).ntm.mono <
        100000 - (program .waiting [0x32000000, 7, 100000, 0]).ns) ∧
      (program .waiting [0x30000005, 0, 0, 0]).dmaWaitOf 9 = some (0, 5, 0, 0) ∧
      (((program .waiting [0x30000005, 0, 0, 0]).setOb K.DMA_EVENTS 32).ob K.DMA_EVENTS).testBit 5 = true ∧
      (program .waiting [0x32000000, 7, 100, 0]).dmaWaitOf 9 = some (2, 0, 7, 100) ∧
      DmaIssues (program .running [0x4000001F, 0]) 9 (.signal 31) ∧ DmaIssues (program .running [0x50000000, 0]) 9 .fence ∧
      DmaIssues (program .running [0x60000000, 0]) 9 .fin ∧
      (((finishing .fin).ch 9).fin = .fin ∧ ((finishing .fence).ch 9).fin = .fence ∧ ((finishing .fence).ch 9).stopReq = false) ∧
      (Takes base 384 K.DMA_EVENT_SET (2 ^ 31) ∧ ∀ c < 32, base.dmaWaits c 0 31 = false) :=
  ⟨⟨by decide, by decide, by decide +kernel, by decide⟩, ⟨⟨by decide, by decide, by decide +kernel, by decide⟩, by decide⟩,
    ⟨by decide, by decide, by decide +kernel, by decide⟩, by decide +kernel, by decide +kernel, by decide +kernel, by decide +kernel, by decide, by decide +kernel,
    ⟨by decide, by decide, by decide +kernel, by decide⟩, ⟨by decide, by decide, by decide +kernel, by decide⟩,
    ⟨by decide, by decide, by decide +kernel, by decide⟩, by decide, ⟨takes_of (by decide +kernel), by decide⟩⟩

/-! ### Bedrock, the calendar and the reserve cell -/

/-- base with other values in Bedrock's operating state. -/
def stored (f : Bdr → Bdr) : State := { base with bdr := f base.bdr }

theorem witness_bedrock_transactions :
    Takes base 384 K.BDR_TXN 1 ∧
      Takes (stored fun b => { b with owner := some 384, staged := [(5, some 7)] }) 384 K.BDR_TXN 2 ∧
      Takes (stored fun b => { b with owner := some 384 }) 384 K.BDR_TXN 3 ∧
      ((stored fun b => { b with slots := [(7, { marked := true, used := true, bytes := [(5, some 7)] })] }).applying = some 7 ∧
        mwf (fun _ => none) ((stored fun b =>
          { b with slots := [(7, { marked := true, used := true, bytes := [(5, some 7)] })] }).slot 7).bytes = true) :=
  ⟨takes_of (by decide), takes_of (by decide), takes_of (by decide), by decide⟩

theorem witness_bedrock_access :
    (Takes (base.setOb (K.BDR_RPW 7) 9) 384 K.BDR_UNLOCK (6 * 2 ^ 32 + 9) ∧
        Takes (base.setOb (K.BDR_WPW 7) 9) 384 K.BDR_UNLOCK (2 ^ 39 + 6 * 2 ^ 32 + 9)) ∧
      Takes base 384 K.BDR_LOCK 0x7F7F ∧
      ((stored fun b => { b with pwFails := [(6, { fails := [0], locked := true })] }).regionPath 6).locked = true ∧
      (base.domOn dNV = true ∧ base.bdr.inhibit = false ∧ (stored fun b => { b with inhibit := true }).bdr.inhibit = true) :=
  ⟨⟨takes_of (by decide), takes_of (by decide +kernel)⟩, takes_of (by decide), by decide, by decide⟩

/-- base with region 0 over pages 0–3 and record 0 of one word, its copies at offsets 0 and 64. -/
def recorded : State := (base.setOb (K.BDR_REGION 1) (3 * 2 ^ 16)).setOb (K.BDR_REC_DESC 1) (1 * 2 ^ 42 + 4 * 2 ^ 17)

theorem witness_dual_copy_records :
    (chooseCopy (recorded.readCopy 0) (recorded.readCopy 64)).1 = 0 ∧ recorded.applying = none ∧ Delivers recorded 384 K.BDR_REC_DATA [1, 2, 3, 4] ∧
      descWords (recorded.ob (K.BDR_REC_DESC 1)) = 1 ∧
      (let s := recorded.recWrite 384 [1, 2, 3, 4]
       (chooseCopy (s.readCopy 0) (s.readCopy 64)).1 = 1 ∧ Opens s 384 K.BDR_REC_DATA ∧
        Delivers s 384 K.BDR_REC_DATA [5, 6, 7, 8]) ∧
      (let s := (recorded.recWrite 384 [1, 2, 3, 4]).recWrite 384 [5, 6, 7, 8]
       (chooseCopy (s.readCopy 0) (s.readCopy 64)).1 = 2 ∧ Opens s 384 K.BDR_REC_DATA) :=
  ⟨by decide +kernel, by decide, delivers_of (by decide +kernel), by decide, ⟨by decide +kernel, opens_of (by decide +kernel),
    delivers_of (by decide +kernel)⟩, ⟨by decide +kernel, opens_of (by decide +kernel)⟩⟩

/-- base with other values in the calendar. -/
def dated (f : Cal → Cal) : State := { base with cal := f base.cal }

theorem witness_calendar_count :
    ((dated fun c => { c with wr := some 5 }).cal.wr = some 5 ∧ (base.cal.wr = none ∧ base.cal.shift = 0)) ∧
      (let s := dated fun c => { c with shift := 1, shiftPhase := 7 }
       s.cal.wr = none ∧ 0 < s.cal.shift ∧ s.cal.shiftPhase = 7) ∧
      (let s := dated fun c => { c with shift := -1, shiftPhase := 7 }
       s.cal.wr = none ∧ s.cal.shift < 0 ∧ s.cal.shiftPhase = 7) ∧
      (let s := dated fun c => { c with shiftPhase := 8 }
       s.cal.shift = 0 ∧ s.cal.shiftPhase = 8) ∧
      ((dated fun c => { c with count := calMax }).cal.count = calMax ∧ (dated fun c => { c with count := calMax }).cal.end_ = false) ∧
      (Takes base 384 K.CAL_COUNT 5 ∧ (Takes base 384 K.CAL_SHIFT 5 ∧ base.valueOf K.CAL_SHIFT 5 ≠ 0) ∧
        Takes base 384 K.CAL_CONV_DATE (2026 * 2 ^ 48 + 2 ^ 44 + 2 ^ 39) ∧ Takes base 384 K.CAL_CONV_TICKS 5) ∧
      (Takes base 384 (K.CAL_ALARM_CTL 2) 3 ∧ (base.valueOf (K.CAL_ALARM_CTL 2) 3).testBit 0 = true) ∧
      (let s := ((dated fun c => { c with count := 8 }).setOb (K.CAL_ALARM_CTL 2) 3).setOb (K.CAL_ALARM 2) 9
       s.alarmReached s.cal.update.count 1 = true ∧ s.pwr.sleeping = false ∧ s.alarmReached s.cal.update.count 0 = false) :=
  ⟨by decide, by decide, by decide, by decide, by decide, ⟨takes_of (by decide), ⟨takes_of (by decide), by decide⟩,
    takes_of (by decide), takes_of (by decide)⟩, ⟨takes_of (by decide), by decide⟩, by decide⟩

theorem witness_backup_supply :
    (Takes base 384 K.CAL_CMD 1 ∧ Takes base 384 K.CAL_CMD 2) ∧
      (let s := dated fun c => { c with offReq := true, supply := true }
       s.cal.offReq = true ∧ s.cal.asserted = false ∧ ∀ k < 2, bits (s.ob (K.CAL_ALARM_CTL (k + 1))) 1 0 ≠ 3) ∧
      base.pwr.sleeping = false ∧
      (let s := { base with pwr := { base.pwr with sleeping := true } }
       s.pwr.sleeping = true ∧ s.pwr.inReset = false) :=
  ⟨⟨takes_of (by decide), takes_of (by decide)⟩, by decide, by decide, by decide⟩

/-- base with a cell of rated values 1000 and 1000, and other values of the cell. -/
def celled (f : Rsv → Rsv) : State :=
  { base with rsv := f { base.rsv with
    memory := List.replicate 128 1
    present := true
    ident := patch (List.replicate 128 1) 20 (leBytes 4 1000 ++ leBytes 4 1000) } }

theorem witness_reserve_cell :
    (Takes (celled id) 384 K.RSV_CMD 1 ∧ Takes (celled id) 384 K.RSV_CMD 2 ∧ (celled id).rsv.memory.length = 128) ∧
      (let s := (celled id).setOb K.RSV_TEST_CFG (24 * 2 ^ 16 + 100)
       bits (s.ob K.RSV_TEST_CFG) 31 16 ≠ 0 ∧ s.rsv.present = true ∧ s.cal.onCell = false ∧ s.rsv.testing = false) ∧
      (let s := (celled fun r => { r with testing := true }).setOb K.RSV_TEST_CFG (24 * 2 ^ 16 + 100)
       s.rsv.testing = true ∧ bits (s.ob K.RSV_TEST_CFG) 15 0 = 100 ∧ plausible (990000 * 100 / 99000) s.rsv.capRated = true ∧
        plausible (100000 / 100) s.rsv.esrRated = true ∧ plausible (990000 * 100 / 1) s.rsv.capRated = false) :=
  ⟨⟨takes_of (by decide +kernel), takes_of (by decide +kernel), by decide +kernel⟩, by decide +kernel, by decide +kernel⟩

/-! ### Supervision, observation and health -/

/-- base with the system watchdog set, and other values of it. -/
def watched (cfg : Nat) (f : Wdg → Wdg) : State :=
  (((base.setOb (K.WDG_CFG 25) cfg).setOb (K.WDG_PERIOD 25) (100 * 2 ^ 32)).setWd 24 (f Wdg.init))

theorem witness_watchdogs :
    Takes (watched 0 id) 384 (K.WDG_PERIOD 25) (200 * 2 ^ 32) ∧ Takes (watched 1 id) 384 (K.WDG_CFG 25) 3 ∧
      (Takes (watched 9 id) 384 (K.WDG_CFG 25) 1 ∧ (watched 9 id).wdgEn 24 = true ∧ ((watched 9 id).wdgCfg 24).testBit 3 = true) ∧
      (Takes (watched 1 id) 384 (K.WDG_KEY 25) 0xA5C3 ∧ (watched 1 id).valueOf (K.WDG_KEY 25) 0xA5C3 = 0xA5C3 ∧
        (watched 1 id).wdgOpen 24 = true ∧ (watched 1 id).txnWaiting = []) ∧
      (Takes (watched 1 id) 384 (K.WDG_KEY 25) 7 ∧ (watched 1 id).valueOf (K.WDG_KEY 25) 7 ≠ 0xA5C3 ∧
        ((watched 1 id).wdgCfg 24).testBit 4 = false) ∧
      ((watched 3 id).wdgWatched 24 = true ∧ (watched 3 id).wdgEn 24 = true ∧ ((watched 3 id).wd 24).lost = false ∧
        (watched 3 id).wdgPol 24 = 1 ∧ (watched 3 id).txnWaiting = []) :=
  ⟨takes_of (by decide), takes_of (by decide), ⟨takes_of (by decide), by decide⟩, ⟨takes_of (by decide), by decide, by decide⟩,
    ⟨takes_of (by decide), by decide, by decide⟩, by decide⟩

theorem witness_clock_monitors :
    ((watched 1 id).wdgWatched 24 = true ∧ (watched 1 id).wdgPol 24 ≤ 1 ∧ ((watched 1 id).wd 24).lost = false) ∧
      ((watched 1 fun w => { w with lost := true }).wdgWatched 24 = true ∧
        ((watched 1 fun w => { w with lost := true }).wd 24).lost = true) ∧
      base.fabricWatched (0x20 + 7) = true := by
  decide

/-- base with check-in slots in use. -/
def checked (q : List (Nat × Nat)) : State :=
  { ((base.setOb (K.WDG_CHK_PERIOD 3) 1000).setOb (K.WDG_CHK_PERIOD 255) 1000).setOb K.WDG_CHK_CFG 0 with
    chk := { base.chk with queue := q, due := [(3, 1000), (255, 1000)], count := [(3, 1)] } }

theorem witness_task_check_in :
    (Takes base 384 (K.WDG_CHK_PERIOD 1) 1000 ∧ Takes base 384 (K.WDG_CHK_PERIOD 255) 1000) ∧
      ((checked [(3, 1)]).chk.queue = [(3, 1)] ∧ (checked [(3, 1)]).chkPeriod 3 ≠ 0 ∧ (checked [(3, 1)]).chkDue = some 1000 ∧ (checked [(3, 1)]).us < 1000) ∧
      ((checked [(0, 1)]).chk.queue = [(0, 1)] ∧ (checked [(7, 1)]).chk.queue = [(7, 1)] ∧ (checked [(7, 1)]).chkPeriod 7 = 0) ∧
      ((checked []).chkDue = some 1000 ∧ (checked []).ntm.steps = [] ∧ (checked []).clockNs + 1000 * 1000 < nsWrap ∧
        (checked []).ns < 1000 * 1000 ∧
        mwf (fun _ => 0) (checked []).chk.due = true ∧ (∀ e ∈ (checked []).chk.due, e.1 < 256) ∧
        ((checked []).ob K.WDG_CHK_CFG).testBit 0 = false) :=
  ⟨⟨takes_of (by decide), takes_of (by decide)⟩, by decide, by decide, by decide⟩

/-- A raw record, and a fold that it may join. -/
def raw : Raw := { cls := 0x20, key := 3, src := 3, root := 0, detail := 0, extra := 0 }
def fold : Fold :=
  { seq := 1, cls := 0x20, isOpen := true, multi := false, early := false, sat := false, key := 3, count := 1, src := 3,
    root := 0, detail := 0, extra := 0, first := 0, last := 0, close := 5000 }

/-- base with records queued and folds in the log. -/
def collecting (q : List Raw) (l : List Fold) : State :=
  { base.setOb (K.FLT_POLICY 0x20) 0 with flt := { base.flt with queue := q, log := l } }

theorem witness_fault_folds :
    ((collecting [raw] [fold]).flt.queue = [raw] ∧ (collecting [raw] [fold]).txnWaiting = [] ∧ (collecting [raw] []).txnWaiting = [] ∧
        (∀ g ∈ (collecting [raw] [fold]).openFolds, (collecting [raw] [fold]).ns < g.close) ∧
        (collecting [raw] [fold]).openFolds.find? (fun g => decide (g.cls = raw.cls) && decide (g.key = raw.key)) = some fold) ∧
      ((collecting [raw] []).flt.queue = [raw] ∧ (collecting [raw] []).openFolds = [] ∧
        (collecting [raw] []).ob (K.FLT_POLICY raw.cls) = 0 ∧ (collecting [raw] []).ob K.FLT_FOLD_WINDOW ≠ 0) ∧
      ((collecting [] [fold]).openFolds = [fold] ∧ (collecting [] [fold]).ns < fold.close ∧ (collecting [] [fold]).ntm.steps = [] ∧
        (collecting [] [fold]).clockNs + fold.close < nsWrap) := by
  decide

theorem witness_fault_commands :
    ({ base with flt := { base.flt with waiting := 3 } }.flt.waiting ≠ 0) ∧
      (Takes base 384 K.FLT_CMD 1 ∧ Takes base 384 K.FLT_CMD 2 ∧ Takes base 384 K.FLT_RAISE (0xF3 * 2 ^ 32 + 7)) ∧
      (base.dieLink 7 = true ∧ base.linkUp 7 = true) :=
  ⟨by decide, ⟨takes_of (by decide), takes_of (by decide), takes_of (by decide)⟩, by decide⟩

/-- base with a bandwidth window that ends at 1000 µs. -/
def counting : State := { base with pmc := { base.pmc with bw := { rx := [(0, 5), (17, 9)], sent := [(900, 17, 6), (1001, 17, 7)], due := 1000 } } }

theorem witness_bandwidth_windows :
    (counting.pmc.bw.due = 1000 ∧ counting.ntm.steps = [] ∧ counting.clockNs + 1000 * 1000 < nsWrap ∧ counting.ns < 1000 * 1000) ∧ Takes base 384 K.PMC_BW_WINDOW 1000 :=
  ⟨by decide, takes_of (by decide)⟩

/-- A record of Strata. -/
def strata : SRec :=
  { seq := 9, cls := 0x601, key := 0, isOpen := true, gap := false, sat := false, shift := 0, first := 0, last := 0, count := 1,
    min := 5, max := 5, sum := 5, hist := [], missed := false }

/-- base with that record, a session that reads from it on, and the group of software samples enabled. -/
def recording (frozen : Bool) : State :=
  asked ({ base with sta := { base.sta with recs := [strata], newest := 9, frozen := frozen } }.setOb (K.STA_GROUP_CFG 7) (2 ^ 31 + 10))
    fun x => { x with cursor := 9, raiseClass := 2 }

theorem witness_strata_records :
    (Opens (recording false) 384 K.STA_RECORD ∧ (recording false).strataAt ((recording false).ses 384).cursor = some strata) ∧
      (Takes (recording false) 384 K.STA_CMD 1 ∧ Takes (recording true) 384 K.STA_CMD 2) ∧
      (Takes (recording false) 384 K.STA_RAISE 77 ∧ ((recording false).ob (K.STA_GROUP_CFG 7)).testBit 31 = true ∧
        (recording false).sta.frozen = false ∧ ((recording false).ses 384).raiseClass = 2 ∧
        (recording false).newestRec (0x600 + 2) 0 = none) ∧
      (recording true).sta.frozen = true :=
  ⟨⟨opens_of (by decide), by decide⟩, ⟨takes_of (by decide), takes_of (by decide)⟩, ⟨takes_of (by decide), by decide⟩, by decide⟩

/-- A snapshot that waits for dies 0 and 1, and one that is held. -/
def snapshot (held : Bool) : Snap :=
  { seq := 4, source := 2, merged := false, incomplete := false, cls := 0, stamp := 0, expect := 3, acked := if held then 3 else 1,
    gone := 0, tide64 := 0, fold := 0, held := held, sections := [] }

/-- base with it in buffer 3. -/
def snapped (held : Bool) : State :=
  asked { base with snp := { base.snp with
    bufs := [(3, some (snapshot held))]
    busy := if held then none else some 3 } } fun x => { x with snpSel := 4 }

theorem witness_tidemarks :
    (base.snp.busy = none ∧ (base.ob K.SNP_CFG).testBit 2 = false ∧ Takes base 384 K.SNP_CMD 1) ∧
      ((base.setOb K.SNP_CFG 1).ob K.SNP_CFG).testBit 0 = true ∧
      ((base.setOb K.SNP_AT 5).ob K.SNP_AT ≠ 0 ∧ (base.setOb K.SNP_AT 5).ob K.SNP_AT < 2 ^ 64 ∧ (base.setOb K.SNP_AT 5).ntm.steps = [] ∧
        (base.setOb K.SNP_AT 5).clockNs + (base.setOb K.SNP_AT 5).ob K.SNP_AT < nsWrap) ∧
      ((snapped false).snp.busy = some 3 ∧ (snapped false).snap 3 = some (snapshot false) ∧ (snapshot false).waits 1 = true ∧
        (snapped false).linkUp 1 = true ∧
        ((snapshot false).sections.any fun c => decide (c.die = 1) && decide (c.island = 0)) = false) ∧
      (Takes (snapped true) 384 K.SNP_CMD 2 ∧ (snapped true).bufOf ((snapped true).ses 384).snpSel = some 3) ∧
      Takes (snapped true) 384 K.SNP_CMD 3 :=
  ⟨⟨by decide, by decide, takes_of (by decide)⟩, by decide, by decide, by decide, ⟨takes_of (by decide), by decide⟩,
    takes_of (by decide)⟩

/-- base with a health test in progress. -/
def testing (kind target left : Nat) : State :=
  { base with hlt := { base.hlt with running := true, kind := kind, target := target, left := left } }

theorem witness_health_monitor :
    (0 ∈ base.livedDies ∧ 7 ∈ base.livedDies) ∧
      (Takes (base.setOb K.TDS_PERIOD 1000000) 384 K.HLT_TEST_REQ (3 * 256 + 1)) ∧
      ((testing 3 1 64).hlt.running = true ∧ (testing 3 1 64).sliceFits = true ∧
        (testing 3 1 64).domOn (dieDomain (testing 3 1 64).hlt.target) = true ∧ (testing 3 1 64).olc.st = .idle) ∧
      (1 < (testing 3 1 64).hlt.left ∧ (testing 3 1 1).hlt.left ≤ 1) ∧
      ((testing 1 0 1).hlt.kind = 1 ∧ (testing 1 0 1).hlt.running = true ∧ (testing 1 0 1).sliceFits = true ∧
        (testing 1 0 1).domOn (dieDomain 0) = true) :=
  ⟨by decide, takes_of (by decide), by decide, by decide, by decide⟩

/-! ### Power, clocks and resets -/

/-- base with a domain in a state. -/
def powered (d : Nat) (st : DomSt) : State := base.setDomSt d st

/-- base past start step 2, so that domains may go down. -/
def awake : State := { base with str := { base.str with step := 13 } }

theorem witness_power_domains :
    (Takes awake 384 (K.PWR_DOMAIN_CMD dMB) 2 ∧ awake.domSt dMB = .on) ∧
      (Takes (powered dMB .off) 384 (K.PWR_DOMAIN_CMD dMB) 1 ∧ (powered dMB .off).domSt dMB = .off) ∧
      ((powered dMB .draining).domSt dMB = .draining ∧ (powered dMB .draining).pdDraining dMB = false ∧
        (powered dMB .draining).pdWrites dMB = false) ∧
      ((powered dMB .draining).setCh 8 { (base.ch 8) with st := .pausing, pwrFor := [dMB] }).pdDraining dMB = true ∧
      (powered dMB .goingOff).domSt dMB = .goingOff ∧ (powered dMB .ramping).domSt dMB = .ramping :=
  ⟨⟨takes_of (by decide), by decide⟩, ⟨takes_of (by decide), by decide⟩, by decide, by decide, by decide, by decide⟩

theorem witness_package_resets :
    (base.pwr.inReset = false ∧ base.applying = none ∧ base.pwr.sleeping = false ∧ base.str.fuses.testBit 3 = false ∧
        base.domOn dMB = true) ∧
      Takes base 384 K.PWR_CMD 1 ∧ Takes base 384 K.PWR_CMD 2 :=
  ⟨by decide, takes_of (by decide), takes_of (by decide)⟩

theorem witness_clocks :
    (Takes awake 384 (K.PWR_CORE_FREQ 1) 1000 ∧ Takes awake 384 (K.PWR_CORE_FREQ 6) 1000) ∧
      (base.pwr.refLost = false ∧ base.pwr.sdLost = false) :=
  ⟨⟨takes_of (by decide), takes_of (by decide)⟩, by decide⟩

/-! ### Frames -/

theorem witness_event_frames :
    (base.pwr.sleeping = false ∧ ∃ t, exec .calTick base = .next t) ∧ (∃ t, exec (.dmaFence 0) base = .next t) ∧ (∃ t, exec .refclkLoss base = .next t) :=
  ⟨⟨rfl, _, rfl⟩, ⟨_, rfl⟩, ⟨_, rfl⟩⟩

theorem witness_command_frames :
    (Takes base 384 K.CAL_CMD 1 ∧ ∃ t, exec (.calSupplyOn 384) base = .next t) ∧
      (Takes base 384 K.FLT_CMD 1 ∧ ∃ t, exec (.fltClearOut 384) base = .next t) :=
  ⟨⟨takes_of (by decide), ⟨_, rfl⟩⟩, ⟨takes_of (by decide), ⟨_, rfl⟩⟩⟩

/-! ### The machine as a whole -/

theorem witness_idle_step :
    State.reset.pending = [] ∧ State.reset.ntm.steps = [] ∧ ({ base with ntm := { base.ntm with steps := [5] } }).pending = [] := ⟨rfl, rfl, rfl⟩

theorem witness_invariants :
    Memory.wf State.reset.mem = true ∧ step (State.reset.withPending .tmkOutEnd) = .next State.reset := ⟨by decide, rfl⟩

theorem witness_holder : (Wit.next { State.reset.red.wit with holder := .a, aliveA := true, claimA := true } 0 = .a) := by decide

/-! ### Worked examples of the spec -/

/-- The command completes, and p holds of the next state. -/
def answersB (o : Host.Outcome State Fault Refusal) (p : State → Bool) : Bool :=
  match o with
  | .next t => p t
  | _ => false

/-- Two encodings of R81: LD with MEM32 is 6 bytes, and with three prefixes and MEM16 7 bytes; GATB, RUNG and BST of R130's
example are 5, 5 and 6 bytes. -/
theorem test_lengths :
    (formOf 0x00).length (enc [] 5 0 7 0x10002000 0) = 6 ∧ (formOf 0x00).length (enc [0xFA, 0xF1, 0xF8] 8 4 6 0x100 0) = 7 ∧
      (formOf 0xEA00).length (enc [] 2 20 4 0 0x01F8) = 5 ∧ (formOf 0xEA20).length (enc [] 1 2 0 0 0x03F1) = 5 ∧
      (formOf 0xE920).length (enc [] 1 20 6 0x80A 3) = 6 := by
  decide

/-- The two addresses of R84: modulo through pair 0, and bit-reversed through pair 1. -/
theorem test_addresses :
    (let x := ctxA (coreS [(4, 0x100040F8)] [(12, 0x10004000), (16, 0x100)])
     x.locate (enc [0xF0] 1 4 5 0x10 0) (x.ea (enc [0xF0] 1 4 5 0x10 0)) 4 = some 0x10004008) ∧
      (let x := ctxA (coreS [(4, 0x10008000)] [(13, 0x10008000), (17, 0x40)])
       x.locate (enc [0xF5] 1 4 5 0x0C 0) (x.ea (enc [0xF5] 1 4 5 0x0C 0)) 4 = some 0x10008030) := by
  decide +kernel

/-- R51: 2010:03 lies at E100 8018h. -/
theorem test_dictionary_slot : State.reset.coreWhere 0 0xE1008018 false = .dict 0x2010 3 0 := by decide +kernel

/-- The bit tables of R130's example: their addresses, and the rung's result for START alone and with STOP. -/
theorem test_rung_example :
    tableAt 0x200A#32 16 14 0x01F8 = 0x3F80 ∧ tableAt 0x200F#32 8 16 0x03F1 = 0x3F90 ∧
      rungEval 0x19 0x6E 0x01 true = true ∧ rungEval 0x19 0x6E 0x10 true = true ∧ rungEval 0x19 0x6E 0x23 true = false ∧
      rungEval 0x19 0x6E 0x01 false = false := by
  decide

/-- The watchdog of R474's example: OPEN 500, LIMIT 1000, FAULT_OUT, at a count. -/
def dog (count : Nat) : State :=
  { (base.setOb (K.WDG_CFG 11) 3).setOb (K.WDG_PERIOD 11) (1000 * 2 ^ 32 + 500) with ntm := { base.ntm with mono := count * 1000 } }

theorem test_watchdog_example :
    ((dog 499).wdgKey 10 0xA5C3).ob (K.WDG_EARLY 11) = 1 ∧ ((dog 499).wdgKey 10 0xA5C3).wdgCount 10 = 499 ∧
      ((dog 500).wdgKey 10 0xA5C3).wdgCount 10 = 0 ∧ ((dog 0).wdgKey 10 0xA5C3).ob (K.WDG_EARLY 11) = 1 ∧
      ((dog 700).wdgKey 10 0xA5C4).ob (K.WDG_BADKEY 11) = 1 ∧ ((dog 700).wdgKey 10 0xA5C4).wdgCount 10 = 700 ∧
      ((dog 1000).wdgKey 10 0xA5C3).ob (K.WDG_LATE 11) = 1 ∧ ((dog 1000).wdgKey 10 0xA5C3).ob (K.WDG_EXPIRIES 11) = 1 ∧
      ((dog 1000).wdgKey 10 0xA5C3).flt.out = true ∧ (((dog 1000).wdgKey 10 0xA5C3).wd 10).last = 5 := by
  decide +kernel

/-- The date of R459's example, and the alarm that its doubled tick carries the count past: it fires with SKIPPED. -/
theorem test_alarm_example :
    dateTicks (2025 * 2 ^ 48 + 3 * 2 ^ 44 + 3 * 2 ^ 39) = 0x17ABD6C00000 ∧
      (let s := ((dated fun c => { c with count := 0x17ABD6BFFFFF, shift := 4, shiftPhase := 7 }).setOb (K.CAL_ALARM_CTL 1) 1).setOb
        (K.CAL_ALARM 1) 0x17ABD6C00000
       answersB (execCalTick s) (fun t => decide (t.cal.count = 0x17ABD6C00001) &&
         decide (t.ob (K.CAL_ALARM_CTL 1) = 12)) = true) := by
  decide +kernel

/-- R111: the quotients of the corners. -/
theorem test_division_corners :
    quotient true true 32 0x80000000 0xFFFFFFFF = 0x80000000 ∧ quotient false true 32 0x80000000 0xFFFFFFFF = 0 ∧
      quotient true true 32 0xFFFFFFF9 2 = 0xFFFFFFFD ∧ quotient false true 32 0xFFFFFFF9 2 = 0xFFFFFFFF ∧
      quotientZero true true 32 0xFFFFFFFF = 0x80000000 ∧ quotientZero true false 32 7 = 0xFFFFFFFF := by
  decide

/-- Cell 40 of R213's example at now of its Strand: PRESET 10,000, RUN, STAMP 2,000,150. -/
def cell40 (us : Nat) : State :=
  { (coreS [(5, 1), (6, 0x10800280)] []).putBytes (mTimer 1 + 0x280)
      (leBytes 4 10000 ++ leBytes 4 0 ++ leBytes 4 2 ++ leBytes 4 2000150) with
    ntm := { State.reset.ntm with die := [(1, us)] } }

/-- TON r5, [r6]. -/
def tonR5 : Enc := enc [] 5 6 4 0 0

theorem test_timer_example :
    answersB (execTon 0 tonR5 (coded (cell40 2008450) 0xEB00 tonR5))
        (fun t => decide (t.rd (mTimer 1 + 0x284) 4 = 8300) && decide ((t.ctx 1).gr 5 = 0)) = true ∧
      answersB (execTon 0 tonR5 (coded (cell40 2012150) 0xEB00 tonR5))
        (fun t => decide (t.rd (mTimer 1 + 0x284) 4 = 10000) && decide ((t.ctx 1).gr 5 = 1)) = true := by
  decide +kernel

/-! ### Well-formed commands: for each check a command that it refuses -/

def e0 : Enc := enc [] 0 0 0 0 0

theorem smoke_wf_accepts :
    ([.objectWrite 384 0x2010 3 4 7, .ld 0 e0, .ebbFrameReceive (frameOn 0) [], .canFrameReceive 0 frame 0,
      .mooringStatusReceive 0 (peerSays 5 true), .bkPowerUp [], .pwrDomainOn 384 15, .retBlockSave 6 0] : List Instr).all Instr.wf = true := by
  decide +kernel

theorem smoke_wf_instructions :
    ([.ld 24 e0, .ld 0 { e0 with pfx := [256] }, .ld 0 { e0 with rb := 32 }, .ld 0 { e0 with ra := 32 }, .ld 0 { e0 with am := 8 },
      .ld 0 { e0 with disp := 2 ^ 32 }, .ld 0 { e0 with imm := 2 ^ 32 }, .bracketLimit 24, .drainAck 0 16,
      .cpuCtlWrite 384 0 (2 ^ 64)] : List Instr).all (fun i => !i.wf) = true := by
  decide +kernel

theorem smoke_wf_dictionary :
    ([.objectWrite 420 0 0 1 0, .objectWrite 0 65536 0 1 0, .objectWrite 0 0 256 1 0, .objectWrite 0 0 0 3 0, .objectWrite 0 0 0 8 (2 ^ 64),
      .dieVote 0 8, .handshakeTimeout 5 0 0, .handshakeTimeout 0 0 0, .domApertureAccess 0 true 2048 1 0, .oemAnswer (2 ^ 32) 0 0,
      .oemAnswer 0 256 0, .oemAnswer 0 0 (2 ^ 64), .serviceOpen (frameOn 18) 0, .serviceOpen (frameOn 0) 65536,
      .serviceClose (frameOn 0) 256 0, .serviceDomRead (frameOn 0) 0 0 (2 ^ 32) 0, .serviceDomRead (frameOn 0) 0 0 0 (2 ^ 16),
      .rebaseDone 0, .rebaseDone 7, .copyInDone 256 0, .copyInDone 0 16, .retBlockSave 1 65536, .prepareVote 7 true,
      .cutTideReceive (2 ^ 32), .partnerPrepareReceive []] : List Instr).all (fun i => !i.wf) = true := by
  decide +kernel

theorem smoke_wf_network :
    ([.arpRequest { frameOn 0 with etype := 65536 } 0 0, .arpRequest { frameOn 0 with port := 18 } 0 0, .arpRequest (frameOn 0) (2 ^ 32) 0,
      .arpRequest (frameOn 0) 0 (2 ^ 32), .arpRequest { frameOn 0 with dst := 2 ^ 48 } 0 0,
      .arpRequest { frameOn 0 with src := 2 ^ 48 } 0 0, .arpRequest { frameOn 0 with hdr := [0] } 0 0,
      .arpRequest { frameOn 0 with svc := [0] } 0 0, .arpRequest { frameOn 0 with ip := (answered 0x0800).ip } 0 0,
      .icmpEcho (frameOn 0) 0 0 (List.replicate 1481 0), .ebbFrameReceive (frameOn 0) (List.replicate 1477 0),
      .slackFrameReceive (frameOn 0) (List.replicate 1477 0), .transitFrame (frameOn 0) 4 [],
      .transitFrame (frameOn 0) 0 (List.replicate 1519 0), .eventFrame (frameOn 0) [],
      .serviceRoute (frameOn 0) 256 0 0 0 0 [], .serviceRoute (frameOn 0) 0 65536 0 0 0 [],
      .serviceRoute (frameOn 0) 0 0 65536 0 0 [], .serviceRoute (frameOn 0) 0 0 0 256 0 [],
      .serviceRoute (frameOn 0) 0 0 0 0 (2 ^ 32) [], .serviceRoute (frameOn 0) 0 0 0 0 0 (List.replicate 1025 0),
      .serviceResponse (frameOn 0) 0 256 0 [], .serviceResponse (frameOn 0) 0 0 256 [],
      .serviceResponse (frameOn 0) 0 0 0 (List.replicate 1025 0), .relayedServiceRequest 0 65536 0 0 0 0 0 0 0 [],
      .relayedServiceRequest 0 0 16 0 0 0 0 0 0 [], .relayedServiceRequest 0 0 0 4096 0 0 0 0 0 [],
      .relayedServiceRequest 0 0 0 0 256 0 0 0 0 [], .relayedServiceRequest 0 0 0 0 0 256 0 0 0 [],
      .relayedServiceRequest 0 0 0 0 0 0 65536 0 0 [], .relayedServiceRequest 0 0 0 0 0 0 0 256 0 [],
      .relayedServiceRequest 0 0 0 0 0 0 0 0 (2 ^ 32) [], .relayedServiceRequest 0 0 0 0 0 0 0 0 0 (List.replicate 1025 0), .portLinkChange 18 true 0 0, .portLinkChange 0 true 65536 0,
      .portLinkChange 0 true 0 65536, .ptpReceive (frameOn 0) (List.replicate 513 0)] : List Instr).all (fun i => !i.wf) = true := by
  decide +kernel

theorem smoke_wf_pair_and_field :
    ([.mooringStatusReceive 2 (peerSays 5 true), .mooringStatusReceive 0 { peerSays 5 true with role := 7 },
      .mooringStatusReceive 0 { peerSays 5 true with pair := 3 }, .mooringStatusReceive 0 { peerSays 5 true with tide := 2 ^ 32 },
      .mooringStatusReceive 0 { peerSays 5 true with done := [] }, .mooringStatusReceive 0 { peerSays 5 true with part := 256 },
      .mooringStatusReceive 0 { peerSays 5 true with fitted := 65536 }, .mooringRetrain 0 16, .digestReceive 0 (2 ^ 32) (List.replicate 128 0),
      .digestReceive 0 0 [], .partitionReceive 0 128 (List.replicate 4096 0), .partitionReceive 0 0 [],
      .dictationReceive (.inputLine []), .dictationReceive (.edge 16 true 0), .dictationReceive (.can 4 frame 0),
      .dictationReceive (.txDone 4 0 0 0 0), .dictationReceive (.txDone 0 3 0 0 0), .dictationReceive (.release 256 0 0 0),
      .dictationReceive (.release 0 256 0 0), .replicatedWriteReceive (.write 65536 0 0), .replicatedWriteReceive (.write 0 256 0),
      .replicatedWriteReceive (.write 0 0 (2 ^ 64)), .resyncDataReceive (.mem (2 ^ 27) (List.replicate 4096 0)),
      .resyncDataReceive (.mem 0 []), .resyncDataReceive (.obj 65536 0 0), .resyncDataReceive (.dom 0 256 []),
      .resyncDataReceive (.owner 16384 0), .resyncDataReceive (.owner 0 65536), .resyncDataReceive (.task 256 true),
      .resyncDataReceive (.tide (2 ^ 64)), .witnessHbTimeout 2, .inputEdgeAccept 16 true 0, .inputEdgeAccept 0 true (2 ^ 64),
      .c1Status { rawIn := 2 ^ 16, couplerIn := 0, outSeen := 0, volt := List.replicate 16 0, limit := 0 },
      .c1Status { rawIn := 0, couplerIn := 2 ^ 16, outSeen := 0, volt := List.replicate 16 0, limit := 0 },
      .c1Status { rawIn := 0, couplerIn := 0, outSeen := 2 ^ 16, volt := List.replicate 16 0, limit := 0 },
      .c1Status { rawIn := 0, couplerIn := 0, outSeen := 0, volt := [], limit := 0 },
      .c1Status { rawIn := 0, couplerIn := 0, outSeen := 0, volt := List.replicate 16 0, limit := 2 ^ 16 },
      .fieldSupplyChange 2 true, .fieldConfigMessage 32 0] : List Instr).all (fun i => !i.wf) = true := by
  decide +kernel

theorem smoke_wf_others :
    ([.mbcStart 0 4, .canFrameReceive 0 { frame with id := 2 ^ 11 } 0, .canFrameReceive 0 { frame with ext := true, id := 2 ^ 29 } 0,
      .canFrameReceive 0 { frame with dlc := 16 } 0, .canFrameReceive 0 { frame with data := List.replicate 65 0 } 0,
      .canRxError 0 7, .sdoRequest 0 [], .dmaStart 0 32, .regionLockoutEnd 7, .bkPowerUp [0], .alarmFire 2, .wdgExpiry 25,
      .clockLoss 40, .chkPeriodWrite 0 0 0, .chkPeriodWrite 0 256 0, .tidemarkLatch 0 256, .pwrDomainOff 0 0, .pwrDomainOff 0 16,
      .coreFreqWrite 0 0 0, .coreFreqWrite 0 7 0, .brownout 9] : List Instr).all (fun i => !i.wf) = true := by
  decide +kernel

end Sys2Proof.Tests
end

section
/-! SUPPORT. Registers of a context under the writes that instructions make (R65, R67): what a read returns after a write, and what the
write leaves alone. -/

namespace Sys2Proof.Machine

theorem Ctx.gr_setG (x : Ctx) (n : Nat) (v : Word) (r : Nat) :
    (x.setG n v).gr r = if r = 0 then 0 else if r = n then v else x.gr r := by
  unfold Ctx.setG Ctx.gr
  by_cases hr : r = 0
  · simp [hr]
  · by_cases hn : n = 0
    · simp [hr, hn]
    · simp [hr, hn, mget_mput]

/-- The contexts differ in general registers at most. -/
def Ctx.SameButGeneral (y x : Ctx) : Prop := y = { x with g := y.g }

theorem Ctx.SameButGeneral.fr {x y : Ctx} (h : y.SameButGeneral x) (r : Nat) : y.fr r = x.fr r := by rw [h]; rfl
theorem Ctx.SameButGeneral.sreg {x y : Ctx} (h : y.SameButGeneral x) (r : Nat) : y.sreg r = x.sreg r := by rw [h]; rfl
theorem Ctx.SameButGeneral.cs {x y : Ctx} (h : y.SameButGeneral x) : y.cs = x.cs := by rw [h]
theorem Ctx.SameButGeneral.task {x y : Ctx} (h : y.SameButGeneral x) : y.task = x.task := by rw [h]
theorem Ctx.SameButGeneral.finfo {x y : Ctx} (h : y.SameButGeneral x) : y.finfo = x.finfo := by rw [h]
theorem Ctx.SameButGeneral.npcnt {x y : Ctx} (h : y.SameButGeneral x) : y.npcnt = x.npcnt := by rw [h]

theorem Ctx.sameButGeneral_setG (x : Ctx) (n : Nat) (v : Word) : (x.setG n v).SameButGeneral x := by
  unfold Ctx.SameButGeneral Ctx.setG
  split <;> rfl

/-- A result written to a register or a pair is what grAfter says of every general register (R65, R77). -/
theorem Ctx.gr_wrG (x : Ctx) (wide : Bool) (n v r : Nat) : (x.wrG wide n v).gr r = x.grAfter wide n v r := by
  have hlo : (BitVec.ofNat 64 v).extractLsb' 0 32 = BitVec.ofNat 32 v := by
    apply BitVec.eq_of_toNat_eq
    simp [BitVec.extractLsb'_toNat]
  have hhi : (BitVec.ofNat 64 v).extractLsb' 32 32 = BitVec.ofNat 32 (v / 2 ^ 32) := by
    apply BitVec.eq_of_toNat_eq
    simp only [BitVec.extractLsb'_toNat, BitVec.toNat_ofNat, Nat.shiftRight_eq_div_pow]
    omega
  cases wide with
  | false => simp [Ctx.wrG, Ctx.gr_setG, Ctx.grAfter]
  | true =>
    simp only [Ctx.wrG, if_true, Ctx.setPair, Ctx.gr_setG, Ctx.grAfter, hlo, hhi, true_and]
    by_cases h0 : r = 0
    · simp [h0]
    · by_cases hn : r = n
      · subst hn
        simp [h0]
      · simp [h0, hn]

theorem Ctx.gr_setG_eq_grAfter (x : Ctx) (n v r : Nat) : (x.setG n (BitVec.ofNat 32 v)).gr r = x.grAfter false n v r :=
  Ctx.gr_wrG x false n v r

theorem Ctx.sameButGeneral_wrG (x : Ctx) (wide : Bool) (n v : Nat) : (x.wrG wide n v).SameButGeneral x := by
  unfold Ctx.wrG Ctx.setPair
  split
  · unfold Ctx.SameButGeneral
    rw [Ctx.sameButGeneral_setG _ (n + 1), Ctx.sameButGeneral_setG x]
  · exact Ctx.sameButGeneral_setG x _ _

theorem Ctx.sreg_stick (x : Ctx) (m r : Nat) :
    (x.stick m).sreg r = if r = 1 then x.sreg 1 ||| BitVec.ofNat 32 m else x.sreg r := mget_mput _ _ _ _ _

/-- No STATUS bit raised calls for no trap (R96). -/
theorem Ctx.trapOf_zero (x : Ctx) : x.trapOf 0 = none := by
  simp [Ctx.trapOf, bit]

theorem Ctx.trapOf_congr {x y : Ctx} (h : x.sreg 2 = y.sreg 2) (raised : Nat) : x.trapOf raised = y.trapOf raised := by
  unfold Ctx.trapOf Ctx.sp
  rw [h]

/-! ### The end of an instruction -/

theorem Ctx.gr_after (x : Ctx) (e : Enc) (opens last : Bool) (pc next : Word) (raised r : Nat) :
    (x.after e opens last pc next raised).gr r = x.gr r := rfl

theorem Ctx.sreg_after (x : Ctx) (e : Enc) (opens last : Bool) (pc next : Word) (raised r : Nat) :
    (x.after e opens last pc next raised).sreg r = if r = 1 then x.sreg 1 ||| BitVec.ofNat 32 raised else x.sreg r :=
  Ctx.sreg_stick x raised r

theorem Ctx.trapOf_after (x : Ctx) (e : Enc) (opens last : Bool) (pc next : Word) (raised : Nat) :
    (x.after e opens last pc next raised).trapOf raised = x.trapOf raised :=
  Ctx.trapOf_congr (by rw [Ctx.sreg_after, if_neg (by decide)]) raised

theorem Ctx.cs_after (x : Ctx) (e : Enc) (opens last : Bool) (pc next : Word) (raised : Nat) :
    (x.after e opens last pc next raised).cs = x.cs := rfl

theorem Ctx.gr_fullBracket (x : Ctx) (r : Nat) : x.fullBracket.gr r = x.gr r := by
  unfold Ctx.fullBracket
  split <;> rfl

theorem Ctx.sreg_fullBracket_of_ne (x : Ctx) {r : Nat} (hr : r ≠ 1) : x.fullBracket.sreg r = x.sreg r := by
  unfold Ctx.fullBracket
  split
  · exact (Ctx.sreg_stick x flBX r).trans (if_neg hr)
  · rfl

/-- A bracket that is not full leaves the context as it is (R72). -/
theorem Ctx.fullBracket_of_lt {x : Ctx} (h : x.npcnt < 64) : x.fullBracket = x := by
  unfold Ctx.fullBracket
  rw [if_neg (by omega)]

theorem Ctx.status_bit_fullBracket {x : Ctx} {i : Nat} (h : (x.sreg 1).getLsbD i = true) :
    (x.fullBracket.sreg 1).getLsbD i = true := by
  unfold Ctx.fullBracket
  split
  · change ((x.stick flBX).sreg 1).getLsbD i = true
    rw [Ctx.sreg_stick, if_pos rfl, BitVec.getLsbD_or, h, Bool.true_or]
  · exact h

theorem Ctx.npcnt_after_le (x : Ctx) (e : Enc) (opens last : Bool) (pc next : Word) (raised : Nat) :
    (x.after e opens last pc next raised).npcnt ≤ x.npcnt + 1 := by
  simp only [Ctx.after]
  split
  · exact Nat.le_refl _
  · exact Nat.zero_le _

theorem Ctx.cs_fullBracket (x : Ctx) : x.fullBracket.cs = x.cs := by unfold Ctx.fullBracket; split <;> rfl
theorem Ctx.task_fullBracket (x : Ctx) : x.fullBracket.task = x.task := by unfold Ctx.fullBracket; split <;> rfl
theorem Ctx.finfo_fullBracket (x : Ctx) : x.fullBracket.finfo = x.finfo := by unfold Ctx.fullBracket; split <;> rfl

/-- The contexts differ in CSTATE at most. -/
def Ctx.SameButState (x y : Ctx) : Prop := x = { y with cs := x.cs }

theorem Ctx.SameButState.refl (x : Ctx) : x.SameButState x := rfl

theorem Ctx.SameButState.trans {x y z : Ctx} (h : x.SameButState y) (k : y.SameButState z) : x.SameButState z := by
  unfold Ctx.SameButState at *
  rw [h, k]

theorem Ctx.SameButState.gr {x y : Ctx} (h : x.SameButState y) (r : Nat) : x.gr r = y.gr r := by rw [h]; rfl
theorem Ctx.SameButState.fr {x y : Ctx} (h : x.SameButState y) (r : Nat) : x.fr r = y.fr r := by rw [h]; rfl
theorem Ctx.SameButState.sreg {x y : Ctx} (h : x.SameButState y) (r : Nat) : x.sreg r = y.sreg r := by rw [h]; rfl
theorem Ctx.SameButState.pc {x y : Ctx} (h : x.SameButState y) : x.pc = y.pc := by rw [h]
theorem Ctx.SameButState.finfo {x y : Ctx} (h : x.SameButState y) : x.finfo = y.finfo := by rw [h]
theorem Ctx.SameButState.fpc {x y : Ctx} (h : x.SameButState y) : x.fpc = y.fpc := by rw [h]

/-! ### Contexts of a state -/

theorem State.ctx_modCtx (s : State) (g : Nat) (f : Ctx → Ctx) (h : Nat) :
    (s.modCtx g f).ctx h = if h = g then f (s.ctx g) else s.ctx h := State.ctx_setCtx s g _ h

theorem State.ctx_modCtx_self (s : State) (g : Nat) (f : Ctx → Ctx) : (s.modCtx g f).ctx g = f (s.ctx g) := by
  rw [State.ctx_modCtx, if_pos rfl]

theorem State.ctx_modCtx_of_ne (s : State) (f : Ctx → Ctx) {g h : Nat} (hn : h ≠ g) : (s.modCtx g f).ctx h = s.ctx h := by
  rw [State.ctx_modCtx, if_neg hn]

theorem State.ctx_of_ctxs {s t : State} (h : t.ctxs = s.ctxs) (g : Nat) : t.ctx g = s.ctx g := by
  unfold State.ctx
  rw [h]

theorem State.byte_of_mem {s t : State} (h : t.mem = s.mem) (a : Nat) : t.byte a = s.byte a := by
  unfold State.byte
  rw [h]

theorem State.ob_of_objs {s t : State} (h : t.objs = s.objs) (k : Nat) : t.ob k = s.ob k := by
  unfold State.ob
  rw [h]

/-- Taking up another context changes CSTATEs alone (R69, R152). -/
theorem State.ctx_resched (s : State) (c h : Nat) : ((s.resched c).ctx h).SameButState (s.ctx h) := by
  have one : ∀ (u : State) (b : Nat) (st : CState), ((u.modCtx b fun x => { x with cs := st }).ctx h).SameButState (u.ctx h) := by
    intro u b st
    rw [State.ctx_modCtx]
    split
    · rename_i hb; subst hb; rfl
    · rfl
  unfold State.resched
  split
  · exact one _ _ _
  · split
    · exact (one _ _ _).trans (one _ _ _)
    · exact .refl _
  · exact .refl _

theorem State.resched_mem (s : State) (c : Nat) : (s.resched c).mem = s.mem := by
  unfold State.resched
  repeat' split
  all_goals rfl

theorem State.resched_objs (s : State) (c : Nat) : (s.resched c).objs = s.objs := by
  unfold State.resched
  repeat' split
  all_goals rfl

/-- What taking up another context can change: CSTATEs. -/
structure State.Rescheduled (u t : State) : Prop where
  ctx : ∀ k, (t.ctx k).SameButState (u.ctx k)
  mem : t.mem = u.mem
  objs : t.objs = u.objs

theorem State.rescheduled_ite (u : State) (b : Bool) (c : Nat) : u.Rescheduled (if b then u.resched c else u) := by
  cases b with
  | true => exact ⟨State.ctx_resched u c, State.resched_mem u c, State.resched_objs u c⟩
  | false => exact ⟨fun _ => .refl _, rfl, rfl⟩

theorem State.resched_sess (s : State) (c : Nat) : (s.resched c).sess = s.sess := by
  unfold State.resched
  repeat' split
  all_goals rfl

end Sys2Proof.Machine
end

section
/-! SUPPORT. What a core's reads leave as it was (R63, R88–R90), and what an issued instruction that only writes general registers does
(R97): the two rules that the instructions of rows 0xE0 to 0xEA go through. -/

namespace Sys2Proof.Machine

/-! ### Reads through a core's caches -/

/-- What a read by core c leaves as it was: everything but what its caches hold, the draws of free values, and its count of
corrected errors. -/
structure State.Reads (s : State) (c : Nat) (t : State) : Prop where
  ctxs : t.ctxs = s.ctxs
  sess : t.sess = s.sess
  mem : t.mem = s.mem
  ecc : t.ecc = s.ecc
  objects : ∀ k, k ≠ K.CPU_ECC_CORR (c + 1) → t.ob k = s.ob k
  wbuf : (t.core c).wbuf = (s.core c).wbuf

theorem State.Reads.refl (s : State) (c : Nat) : s.Reads c s := ⟨rfl, rfl, rfl, rfl, fun _ _ => rfl, rfl⟩

theorem State.Reads.trans {s t u : State} {c : Nat} (h : s.Reads c t) (k : t.Reads c u) : s.Reads c u :=
  ⟨k.ctxs.trans h.ctxs, k.sess.trans h.sess, k.mem.trans h.mem, k.ecc.trans h.ecc,
    fun n hn => (k.objects n hn).trans (h.objects n hn), k.wbuf.trans h.wbuf⟩

theorem State.Reads.ctx {s t : State} {c : Nat} (h : s.Reads c t) (g : Nat) : t.ctx g = s.ctx g := State.ctx_of_ctxs h.ctxs g

theorem State.Reads.byte {s t : State} {c : Nat} (h : s.Reads c t) (a : Nat) : t.byte a = s.byte a := State.byte_of_mem h.mem a

theorem State.Reads.eccOf {s t : State} {c : Nat} (h : s.Reads c t) (key n : Nat) : t.eccOf key n = s.eccOf key n := by
  unfold State.eccOf
  rw [h.ecc]

theorem State.Reads.modCore {s t : State} {c : Nat} (h : s.Reads c t) {f : CoreSt → CoreSt} (hf : ∀ k, (f k).wbuf = k.wbuf) :
    s.Reads c (t.modCore c f) := by
  refine h.trans ⟨rfl, rfl, rfl, rfl, fun _ _ => rfl, ?_⟩
  rw [State.modCore, State.core_setCore, if_pos rfl, hf]

theorem State.Reads.draw {s t : State} {c : Nat} (h : s.Reads c t) : s.Reads c t.draw :=
  h.trans ⟨rfl, rfl, rfl, rfl, fun _ _ => rfl, rfl⟩

theorem State.reads_addEcc (s : State) (c n : Nat) : s.Reads c (s.addOb (K.CPU_ECC_CORR (c + 1)) n) :=
  ⟨rfl, rfl, rfl, rfl, fun k hk => by rw [State.addOb, State.ob_setOb, if_neg hk], rfl⟩

theorem State.reads_countCorr (s : State) (c key n : Nat) : s.Reads c (s.countCorr c key n) := by
  unfold State.countCorr
  split
  · exact State.reads_addEcc s c _
  · exact .refl s c

theorem State.reads_cacheHit (s : State) (c kind line : Nat) (l : List Nat) : s.Reads c (s.cacheHit c kind line l).1 := by
  unfold State.cacheHit
  split
  · split
    · dsimp only
      exact (State.reads_addEcc s c 1).modCore fun _ => rfl
    · exact .refl s c
  · split
    · exact .refl s c
    · dsimp only
      exact (State.Reads.refl s c).modCore fun _ => rfl

theorem State.reads_lineIn (s : State) (c kind line key : Nat) : s.Reads c (s.lineIn c kind line key) := by
  unfold State.lineIn
  have hc := State.reads_countCorr s c key 64
  dsimp only
  split
  · exact hc
  · exact hc.modCore fun _ => rfl

theorem State.reads_icacheTouch (s : State) (c line : Nat) (key : Option Nat) : s.Reads c (s.icacheTouch c line key).1 := by
  unfold State.icacheTouch
  have hh := State.reads_cacheHit s c 0 line (s.core c).icache
  generalize s.cacheHit c 0 line (s.core c).icache = p at hh
  obtain ⟨t, hit⟩ := p
  dsimp only
  split
  · dsimp only
    exact hh.modCore fun _ => rfl
  · dsimp only
    refine .draw (.modCore ?_ fun _ => rfl)
    cases key with
    | none => exact hh
    | some k => exact hh.trans (State.reads_lineIn t c 0 line k)

theorem State.reads_cacheTouch (s : State) (c line key : Nat) (bitpipe : Bool) : s.Reads c (s.cacheTouch c line key bitpipe).1 := by
  unfold State.cacheTouch
  dsimp only
  split
  · split
    · exact .refl s c
    · have hh := State.reads_cacheHit s c 2 line (s.core c).bcache
      generalize s.cacheHit c 2 line (s.core c).bcache = p at hh
      obtain ⟨t, hit⟩ := p
      dsimp only
      refine .modCore ?_ fun _ => rfl
      cases hit with
      | true => exact hh
      | false => exact hh.trans (State.reads_lineIn t c 2 line key)
  · split
    · exact .refl s c
    · have hh := State.reads_cacheHit s c 1 line (s.core c).dcache
      generalize s.cacheHit c 1 line (s.core c).dcache = p at hh
      obtain ⟨t, hit⟩ := p
      cases hit with
      | true =>
        simp only [if_true]
        exact hh.modCore fun _ => rfl
      | false =>
        dsimp only [Bool.false_eq_true, if_false]
        exact .draw (.modCore (hh.trans (State.reads_lineIn t c 1 line key)) fun _ => rfl)

theorem State.reads_fetchBytes (s : State) (c addr n : Nat) : s.Reads c (s.fetchBytes c addr n).1 := by
  unfold State.fetchBytes
  extract_lets lines bank go
  have hgo : s.Reads c go.1 := by
    have fold : ∀ (l : List Nat) (p : State × Bool), s.Reads c p.1 → s.Reads c (l.foldl (fun (p : State × Bool) l =>
        let (s, h) := p.1.icacheTouch c l (if l < 0x400000 then some (bank + l) else none)
        (s, p.2 && h)) p).1 := by
      intro l
      induction l with
      | nil => intro p hp; exact hp
      | cons a t ih => intro p hp; exact ih _ (hp.trans (State.reads_icacheTouch _ c _ _))
    exact fold lines (s, true) (.refl s c)
  repeat' split
  · exact .refl s c
  · exact hgo
  · exact hgo
  · exact .refl s c

/-! ### Loads that return before an instruction -/

/-- What the loads of context g leave when they return: the other contexts, and of context g all but its registers. -/
structure State.Lands (s : State) (g : Nat) (t : State) : Prop where
  others : ∀ h, h ≠ g → t.ctx h = s.ctx h
  cs : (t.ctx g).cs = (s.ctx g).cs
  sess : t.sess = s.sess
  mem : t.mem = s.mem
  objs : t.objs = s.objs

theorem State.Lands.refl (s : State) (g : Nat) : s.Lands g s := ⟨fun _ _ => rfl, rfl, rfl, rfl, rfl⟩

theorem State.Lands.trans {s t u : State} {g : Nat} (h : s.Lands g t) (k : t.Lands g u) : s.Lands g u :=
  ⟨fun n hn => (k.others n hn).trans (h.others n hn), k.cs.trans h.cs, k.sess.trans h.sess, k.mem.trans h.mem,
    k.objs.trans h.objs⟩

theorem Ctx.cs_setDst (x : Ctx) (dst : Nat) (wide : Bool) (v : Nat) : (x.setDst dst wide v).cs = x.cs := by
  unfold Ctx.setDst
  split
  · exact (Ctx.sameButGeneral_wrG x wide dst v).cs
  · rfl

theorem State.lands_landFlight (s : State) (f : Flight) : s.Lands f.ctx (s.landFlight f) := by
  refine ⟨fun h hn => State.ctx_modCtx_of_ne s _ hn, ?_, rfl, rfl, rfl⟩
  rw [State.landFlight, State.ctx_modCtx_self, Ctx.cs_setDst]

theorem State.lands_landCtx (s : State) (g : Nat) : s.Lands g (s.landCtx g) := by
  unfold State.landCtx
  extract_lets c mine l
  have fold : ∀ (l : List Flight) (u : State), (∀ f ∈ l, f.ctx = g) → s.Lands g u → s.Lands g (u.each l State.landFlight) := by
    intro l
    induction l with
    | nil => intro u _ hu; exact hu
    | cons f t ih =>
      intro u hl hu
      have hf : u.Lands g (u.landFlight f) := hl f (by simp) ▸ State.lands_landFlight u f
      exact ih _ (fun a ha => hl a (by simp [ha])) (hu.trans hf)
  have hl : ∀ f ∈ l, f.ctx = g := fun f hf => by
    have := List.of_mem_filter hf
    simp only [mine, Bool.and_eq_true, decide_eq_true_eq] at this
    exact this.1.1
  split
  · exact .refl s g
  · exact (fold l s hl (.refl s g)).trans ⟨fun _ _ => rfl, rfl, rfl, rfl, rfl⟩

/-! ### The state an issued instruction runs in -/

section
variable {s s1 : State} {c g : Nat} {e : Enc} {f : Form} {x : Ctx}

theorem Issues.reads (h : Issues s c e f g s1 x) : (s.landCtx g).Reads c s1 := by
  obtain ⟨b, hb⟩ := h.fetched
  have := State.reads_fetchBytes (s.landCtx g) c x.pc.toNat (f.length e)
  rwa [hb] at this

theorem Issues.ctx_self (h : Issues s c e f g s1 x) : s1.ctx g = x := (h.reads.ctx g).trans h.regs.symm

theorem Issues.ctx_others (h : Issues s c e f g s1 x) {k : Nat} (hk : k ≠ g) : s1.ctx k = s.ctx k :=
  (h.reads.ctx k).trans ((State.lands_landCtx s g).others k hk)

theorem Issues.cs_running (h : Issues s c e f g s1 x) : x.cs = .running := by
  rw [h.regs, (State.lands_landCtx s g).cs]
  exact State.ctx_running h.running

theorem Issues.byte (h : Issues s c e f g s1 x) (a : Nat) : s1.byte a = s.byte a :=
  (h.reads.byte a).trans (State.byte_of_mem (State.lands_landCtx s g).mem a)

theorem Issues.objects (h : Issues s c e f g s1 x) (k : Nat) (hk : k ≠ K.CPU_ECC_CORR (c + 1)) : s1.ob k = s.ob k :=
  (h.reads.objects k hk).trans (State.ob_of_objs (State.lands_landCtx s g).objs k)

theorem Issues.sess (h : Issues s c e f g s1 x) : s1.sess = s.sess := h.reads.sess.trans (State.lands_landCtx s g).sess

/-- An issued instruction that writes w's general registers and raises no trap leaves those registers, the STATUS bits it raised and
the next PC, and nothing else. -/
theorem Issues.completes_write (h : Issues s c e f g s1 x) {i : Instr} {body : State → Nat → Ctx → Word → Res}
    (hi : exec i s = .next (s.issue c e f body)) {s2 : State} (hr : s1.Reads c s2) {w : Ctx → Ctx} {raised : Nat}
    (hb : body s1 g x (x.nextPc f e) = .next (s2.modCtx g w) (x.nextPc f e) raised none)
    (hw : (w x).SameButGeneral x) (ht : x.trapOf raised = none) :
    Completes i s fun t => RegsOnly s c g x (w x).gr t ∧ (t.ctx g).sreg 1 = x.sreg 1 ||| BitVec.ofNat 32 raised ∧
      (t.ctx g).pc = x.nextPc f e := by
  set y := (w x).after e (e.npb && !x.rep) true x.pc (x.nextPc f e) raised with hy
  set u := (s2.modCtx g w).modCtx g fun z => z.after e (e.npb && !x.rep) true x.pc (x.nextPc f e) raised with hu
  have hself : (s2.modCtx g w).ctx g = w x := by rw [State.ctx_modCtx_self, hr.ctx, h.ctx_self]
  have hend : (s2.modCtx g w).complete g e (e.npb && !x.rep) x.pc (x.nextPc f e) raised none =
      if e.npe then u.resched (g / 16) else u := by
    refine State.complete_of_no_trap ?_ ?_
    · rw [hself, hw.cs, h.cs_running]
      decide
    · rw [hself, Ctx.trapOf_after, Ctx.trapOf_congr (hw.sreg 2), ht]
  have hfin := State.rescheduled_ite u e.npe (g / 16)
  refine ⟨if e.npe then u.resched (g / 16) else u, ?_, ?_⟩
  · rw [hi, State.issue_of_issues h, hb]
    exact congrArg _ hend
  · generalize (if e.npe then u.resched (g / 16) else u) = t at hfin
    have hown : (t.ctx g).SameButState y := by
      have := hfin.ctx g
      rwa [hu, State.ctx_modCtx_self, hself] at this
    have hothers : ∀ k, k ≠ g → (t.ctx k).SameButState (s.ctx k) := fun k hk => by
      have := hfin.ctx k
      rwa [hu, State.ctx_modCtx_of_ne _ _ hk, State.ctx_modCtx_of_ne _ _ hk, hr.ctx, h.ctx_others hk] at this
    have hsr : ∀ r, (t.ctx g).sreg r = if r = 1 then x.sreg 1 ||| BitVec.ofNat 32 raised else x.sreg r := fun r => by
      rw [hown.sreg, hy, Ctx.sreg_after, hw.sreg, hw.sreg]
    exact ⟨{
        general := hown.gr
        float := fun r => (hown.fr r).trans (hw.fr r)
        special := fun r hr1 => (hsr r).trans (if_neg hr1)
        others := fun k hk r => ⟨(hothers k hk).gr r, (hothers k hk).fr r, (hothers k hk).sreg r⟩
        memory := fun a => (State.byte_of_mem hfin.mem a).trans ((hr.byte a).trans (h.byte a))
        objects := fun k hk => (State.ob_of_objs hfin.objs k).trans ((hr.objects k hk).trans (h.objects k hk)) },
      hsr 1, hown.pc⟩

end

end Sys2Proof.Machine
end

section
/-! SUPPORT. Integer arithmetic of R108 to R114 on numbers below 2^w against two's complement: the model's own operations, each
equal to the bit-vector or integer operation that its rule names. -/

namespace Sys2Proof.Machine

/-! ### Two's complement -/

theorem ofS_eq_ofInt (w : Nat) (i : Int) : ofS w i = (BitVec.ofInt w i).toNat := (BitVec.toNat_ofInt i).symm

theorem toS_eq_toInt {w : Nat} (hw : 0 < w) (v : Nat) : toS w v = (BitVec.ofNat w v).toInt := by
  have h2 : 2 ^ w = 2 * 2 ^ (w - 1) := by rw [← pow_succ', Nat.sub_add_cancel hw]
  rw [BitVec.toInt_eq_toNat_cond, BitVec.toNat_ofNat, toS]
  by_cases h : 2 ^ (w - 1) ≤ v % 2 ^ w
  · rw [if_pos h, if_neg (by omega)]
  · rw [if_neg h, if_pos (by omega)]

theorem ofS_lt (w : Nat) (i : Int) : ofS w i < 2 ^ w := by
  rw [ofS_eq_ofInt]
  exact (BitVec.ofInt w i).isLt

theorem ofS_natCast (w n : Nat) : ofS w (n : Int) = n % 2 ^ w := by
  rw [ofS_eq_ofInt, BitVec.ofInt_natCast, BitVec.toNat_ofNat]

theorem ofS_toS {w x : Nat} (hw : 0 < w) (hx : x < 2 ^ w) : ofS w (toS w x) = x := by
  rw [toS_eq_toInt hw, ofS_eq_ofInt, BitVec.ofInt_toInt, BitVec.toNat_ofNat, Nat.mod_eq_of_lt hx]

theorem toS_inj {w x y : Nat} (hw : 0 < w) (hx : x < 2 ^ w) (hy : y < 2 ^ w) (h : toS w x = toS w y) : x = y := by
  rw [← ofS_toS hw hx, h, ofS_toS hw hy]

theorem toS_zero (w : Nat) : toS w 0 = 0 := by
  simp [toS]

theorem toS_eq_zero {w x : Nat} (hw : 0 < w) (hx : x < 2 ^ w) : toS w x = 0 ↔ x = 0 :=
  ⟨fun h => toS_inj hw hx (Nat.two_pow_pos w) (h.trans (toS_zero w).symm), fun h => h ▸ toS_zero w⟩

theorem minS_le_toS {w : Nat} (hw : 0 < w) (x : Nat) : minS w ≤ toS w x := by
  rw [toS_eq_toInt hw, minS]
  push_cast
  exact BitVec.le_toInt _

theorem toS_le_maxS {w : Nat} (hw : 0 < w) (x : Nat) : toS w x ≤ maxS w := by
  rw [toS_eq_toInt hw, maxS]
  push_cast
  have := (BitVec.toInt_lt (x := BitVec.ofNat w x))
  omega

theorem minS_le_maxS (w : Nat) : minS w ≤ maxS w := by
  unfold minS maxS
  have := Nat.two_pow_pos (w - 1)
  omega

/-- An integer survives two's complement of width w where it lies in the signed range, and only there. -/
theorem toS_ofS_eq_iff {w : Nat} (hw : 0 < w) (i : Int) : toS w (ofS w i) = i ↔ minS w ≤ i ∧ i ≤ maxS w := by
  constructor
  · intro h
    exact ⟨h ▸ minS_le_toS hw _, h ▸ toS_le_maxS hw _⟩
  · rintro ⟨hl, hh⟩
    unfold minS at hl
    unfold maxS at hh
    push_cast at hl hh
    rw [toS_eq_toInt hw, ofS_eq_ofInt, BitVec.ofNat_toNat, BitVec.setWidth_eq]
    exact BitVec.toInt_ofInt_eq_self hw hl (by omega)

/-- The most negative value is its own negative. -/
theorem ofS_neg_minS {w : Nat} (hw : 0 < w) : ofS w (-minS w) = ofS w (minS w) := by
  have h2 : ((2 ^ w : Nat) : Int) = 2 * (2 ^ (w - 1) : Nat) := by
    rw [← Nat.sub_add_cancel hw, pow_succ]
    push_cast
    omega
  unfold ofS minS
  rw [h2]
  congr 1
  rw [neg_neg, ← Int.add_mul_emod_self_left (-((2 ^ (w - 1) : Nat) : Int)) (2 * (2 ^ (w - 1) : Nat)) 1]
  congr 1
  omega

/-! ### Sums and differences -/

theorem addW_eq_ofS (w x y : Nat) : addW w x y = ofS w ((x : Int) + y) := by
  rw [← Nat.cast_add, ofS_natCast, addW]

theorem subW_eq_ofS (w x y : Nat) : subW w x y = ofS w ((x : Int) - y) := by
  have hy : y % 2 ^ w < 2 ^ w := Nat.mod_lt _ (Nat.two_pow_pos w)
  have hi : (((x + 2 ^ w - y % 2 ^ w : Nat) : Int)) % ((2 ^ w : Nat) : Int) = ((x : Int) - y) % ((2 ^ w : Nat) : Int) := by
    rw [Nat.cast_sub (by omega), Nat.cast_add, Int.natCast_mod, Int.sub_emod, Int.add_emod_right, Int.emod_emod,
      ← Int.sub_emod]
  rw [subW, ← ofS_natCast, ofS, ofS, ← hi]

theorem clampTo_eq_max_min {lo hi : Int} (h : lo ≤ hi) (v : Int) : clampTo lo hi v = max lo (min hi v) := by
  unfold clampTo
  split <;> [skip; split] <;> omega

theorem clampW_eq_ofS (w : Nat) (i : Int) : clampW w i = ofS w (max (minS w) (min (maxS w) i)) := by
  rw [clampW, clampTo_eq_max_min (minS_le_maxS w)]

theorem ovf_eq_decide {w : Nat} (hw : 0 < w) (i : Int) : ovf w i = decide (toS w (ofS w i) ≠ i) := by
  rw [ovf, ← Bool.decide_or, decide_eq_decide, Ne, toS_ofS_eq_iff hw]
  omega

theorem ite_eq_ofS_min {w x y : Nat} (hw : 0 < w) (hx : x < 2 ^ w) (hy : y < 2 ^ w) :
    (if toS w y < toS w x then y else x) = ofS w (min (toS w x) (toS w y)) := by
  split
  · rw [min_eq_right (by omega), ofS_toS hw hy]
  · rw [min_eq_left (by omega), ofS_toS hw hx]

theorem ite_eq_ofS_max {w x y : Nat} (hw : 0 < w) (hx : x < 2 ^ w) (hy : y < 2 ^ w) :
    (if toS w x < toS w y then y else x) = ofS w (max (toS w x) (toS w y)) := by
  split
  · rw [max_eq_right (by omega), ofS_toS hw hy]
  · rw [max_eq_left (by omega), ofS_toS hw hx]

theorem maxS_nonneg (w : Nat) : 0 ≤ maxS w := by
  unfold maxS
  have := Nat.two_pow_pos (w - 1)
  omega

/-- A magnitude is clamped from above alone. -/
theorem clampW_natAbs (w : Nat) (i : Int) : clampW w i.natAbs = ofS w (min (maxS w) |i|) := by
  have hm : minS w ≤ 0 := by
    have := Nat.two_pow_pos (w - 1)
    unfold minS
    omega
  have hi : 0 ≤ min (maxS w) |i| := le_min (maxS_nonneg w) (abs_nonneg i)
  rw [clampW_eq_ofS, Int.natCast_natAbs, max_eq_right (hm.trans hi)]

/-! ### Logic and shifts -/

theorem toNat_ofNat_of_lt {w x : Nat} (hx : x < 2 ^ w) : (BitVec.ofNat w x).toNat = x := by
  rw [BitVec.toNat_ofNat, Nat.mod_eq_of_lt hx]

theorem and_eq_toNat {w x y : Nat} (hx : x < 2 ^ w) (hy : y < 2 ^ w) : x &&& y = (BitVec.ofNat w x &&& BitVec.ofNat w y).toNat := by
  rw [BitVec.toNat_and, toNat_ofNat_of_lt hx, toNat_ofNat_of_lt hy]

theorem or_eq_toNat {w x y : Nat} (hx : x < 2 ^ w) (hy : y < 2 ^ w) : x ||| y = (BitVec.ofNat w x ||| BitVec.ofNat w y).toNat := by
  rw [BitVec.toNat_or, toNat_ofNat_of_lt hx, toNat_ofNat_of_lt hy]

theorem xor_eq_toNat {w x y : Nat} (hx : x < 2 ^ w) (hy : y < 2 ^ w) : x ^^^ y = (BitVec.ofNat w x ^^^ BitVec.ofNat w y).toNat := by
  rw [BitVec.toNat_xor, toNat_ofNat_of_lt hx, toNat_ofNat_of_lt hy]

theorem not_eq_toNat (w y : Nat) : 2 ^ w - 1 - y % 2 ^ w = (~~~BitVec.ofNat w y).toNat := by
  rw [BitVec.toNat_not, BitVec.toNat_ofNat]

theorem shlW_eq_toNat (w x y : Nat) : shlW w x y = (BitVec.ofNat w x <<< y).toNat := by
  rw [shlW, BitVec.toNat_shiftLeft, BitVec.toNat_ofNat, Nat.shiftLeft_eq, Nat.mod_mul_mod]
  split
  · rename_i h
    exact (Nat.mod_eq_zero_of_dvd (Dvd.dvd.mul_left (pow_dvd_pow 2 h) x)).symm
  · rfl

theorem shrW_eq_toNat {w x : Nat} (hx : x < 2 ^ w) (y : Nat) : shrW w x y = (BitVec.ofNat w x >>> y).toNat := by
  rw [shrW, BitVec.toNat_ushiftRight, toNat_ofNat_of_lt hx, Nat.shiftRight_eq_div_pow]
  split
  · rename_i h
    exact (Nat.div_eq_of_lt (hx.trans_le (Nat.pow_le_pow_right (by decide) h))).symm
  · rfl

/-- Past the width an arithmetic shift leaves the sign alone. -/
theorem toS_div_two_pow_of_le {w y : Nat} (hw : 0 < w) (h : w ≤ y) (x : Nat) :
    toS w x / (2 ^ (w - 1) : Nat) = toS w x / (2 ^ y : Nat) := by
  have hl := minS_le_toS hw x
  have hh := toS_le_maxS hw x
  have hp : 2 ^ (w - 1) ≤ 2 ^ y := Nat.pow_le_pow_right (by decide) (by omega)
  have hpos := Nat.two_pow_pos (w - 1)
  unfold minS at hl
  unfold maxS at hh
  generalize 2 ^ (w - 1) = p at *
  generalize 2 ^ y = q at *
  by_cases h0 : 0 ≤ toS w x
  · rw [Int.ediv_eq_zero_of_lt h0 (by omega), Int.ediv_eq_zero_of_lt h0 (by omega)]
  · have neg : ∀ r : Nat, p ≤ r → toS w x / (r : Int) = -1 := fun r hr => by
      rw [Int.ediv_eq_iff_of_pos (by omega)]
      omega
    rw [neg p le_rfl, neg q hp]

theorem sarW_eq_toNat {w : Nat} (hw : 0 < w) (x y : Nat) : sarW w x y = ((BitVec.ofNat w x).sshiftRight y).toNat := by
  rw [sarW, BitVec.sshiftRight, ofS_eq_ofInt, ← toS_eq_toInt hw, Int.shiftRight_eq_div_pow]
  split
  · rename_i h
    rw [toS_div_two_pow_of_le hw h]
  · rfl

theorem andn_eq_toNat {w x : Nat} (hx : x < 2 ^ w) (y : Nat) :
    x &&& (2 ^ w - 1 - y % 2 ^ w) = (BitVec.ofNat w x &&& ~~~BitVec.ofNat w y).toNat := by
  rw [BitVec.toNat_and, ← not_eq_toNat, toNat_ofNat_of_lt hx]

theorem decide_and_ne_zero {w x y : Nat} (hx : x < 2 ^ w) (hy : y < 2 ^ w) :
    decide (x &&& y ≠ 0) = decide (BitVec.ofNat w x &&& BitVec.ofNat w y ≠ 0) := by
  rw [decide_eq_decide, Ne, Ne, ← BitVec.toNat_inj, ← and_eq_toNat hx hy]
  rfl

/-! ### Rotations -/

/-- The two parts of a rotation do not overlap. -/
theorem rotate_parts {w x j k : Nat} (hx : x < 2 ^ w) (h : j + k = w) :
    (x * 2 ^ k + x / 2 ^ j) % 2 ^ w = x * 2 ^ k % 2 ^ w ||| x / 2 ^ j := by
  have hw : 2 ^ w = 2 ^ j * 2 ^ k := by rw [← pow_add, h]
  have hlo : x / 2 ^ j < 2 ^ k := Nat.div_lt_of_lt_mul (hw ▸ hx)
  have hhi : x * 2 ^ k % 2 ^ w = (x % 2 ^ j) <<< k := by rw [hw, Nat.mul_mod_mul_right, Nat.shiftLeft_eq]
  have hj : x % 2 ^ j + 1 ≤ 2 ^ j := Nat.mod_lt _ (Nat.two_pow_pos j)
  rw [Nat.add_mod, Nat.mod_eq_of_lt (a := x / 2 ^ j) (hlo.trans_le (Nat.pow_le_pow_right (by decide) (by omega))), hhi,
    ← Nat.shiftLeft_add_eq_or_of_lt hlo, Nat.mod_eq_of_lt]
  calc (x % 2 ^ j) <<< k + x / 2 ^ j < (x % 2 ^ j) * 2 ^ k + 2 ^ k := by rw [Nat.shiftLeft_eq]; omega
    _ = (x % 2 ^ j + 1) * 2 ^ k := by ring
    _ ≤ 2 ^ w := hw ▸ Nat.mul_le_mul_right _ hj

theorem rolW_eq_toNat {w x : Nat} (hw : 0 < w) (hx : x < 2 ^ w) (y : Nat) : rolW w x y = ((BitVec.ofNat w x).rotateLeft y).toNat := by
  have hk : y % w < w := Nat.mod_lt _ hw
  rw [BitVec.toNat_rotateLeft, toNat_ofNat_of_lt hx, Nat.shiftLeft_eq, Nat.shiftRight_eq_div_pow, rolW]
  exact rotate_parts hx (by omega)

theorem rorW_eq_toNat {w x : Nat} (hw : 0 < w) (hx : x < 2 ^ w) (y : Nat) : rorW w x y = ((BitVec.ofNat w x).rotateRight y).toNat := by
  have hk : y % w < w := Nat.mod_lt _ hw
  rw [BitVec.toNat_rotateRight, toNat_ofNat_of_lt hx, Nat.shiftLeft_eq, Nat.shiftRight_eq_div_pow, rorW, rolW]
  by_cases h0 : y % w = 0
  · rw [h0, Nat.sub_zero, Nat.mod_self, pow_zero, Nat.mul_one, Nat.div_one, Nat.sub_zero, Nat.div_eq_of_lt hx, Nat.add_zero,
      Nat.mod_eq_of_lt hx, Nat.mul_mod_left, Nat.or_zero]
  · rw [Nat.mod_eq_of_lt (show w - y % w < w by omega), Nat.lor_comm]
    rw [show w - (w - y % w) = y % w by omega]
    exact rotate_parts hx (by omega)

/-! ### Operands -/

theorem width_pos (e : Enc) : 0 < e.w := by
  unfold Enc.w
  split <;> decide

theorem Ctx.rdG_lt (x : Ctx) (e : Enc) (n : Nat) : x.rdG e.wide n < 2 ^ e.w := by
  unfold Ctx.rdG Enc.w
  split
  · exact (x.pair n).isLt
  · exact (x.gr n).isLt

theorem Form.immOf_lt (f : Form) (e : Enc) : f.immOf e < 2 ^ e.w := by
  have h8 : 2 ^ 8 ≤ 2 ^ e.w := Nat.pow_le_pow_right (by decide) (by unfold Enc.w; split <;> decide)
  unfold Form.immOf
  split
  · exact ofS_lt _ _
  · split
    · exact (Nat.mod_lt _ (by decide)).trans_le h8
    · exact ofS_lt _ _

theorem Ctx.opX_lt (x : Ctx) (e : Enc) : x.opX e < 2 ^ e.w := by
  unfold Ctx.opX
  split <;> exact x.rdG_lt e _

theorem Ctx.opY_lt (x : Ctx) (f : Form) (e : Enc) : x.opY f e < 2 ^ e.w := by
  unfold Ctx.opY
  split
  · exact x.rdG_lt e _
  · exact x.rdG_lt e _
  · exact f.immOf_lt e

/-- An instruction that the table does not mark W is illegal under WIDE (R80). -/
theorem Form.w_of_legal {f : Form} {e : Enc} (h : f.legal e = true) (hf : f.wide = false) : e.w = 32 := by
  have hp : f.pfxOk e = true := by
    unfold Form.legal at h
    simp only [Bool.and_eq_true] at h
    exact h.1.1.1.1.1.1
  have hw : e.wide = false := by
    unfold Form.pfxOk at hp
    simp only [Bool.and_eq_true, Bool.or_eq_true, hf, Bool.false_eq_true, or_false, Bool.not_eq_true'] at hp
    exact hp.1.2
  rw [Enc.w, hw]
  rfl

end Sys2Proof.Machine
end

section
/-! SUPPORT. O1: each row of the integer, unary and compare tables is an ALU or unary instruction whose operation gives the row's
result. -/

namespace Sys2Proof.Machine

/-! ### Rows of the tables -/

/-- The row's instruction is the ALU form with this operation, which sets no STATUS bit and gives the row's result on operands of the
instruction's width. -/
structure Computes (r : AluRow) (op : Nat → Nat → Nat → Nat) : Prop where
  run : ∀ c e s, exec (r.1 c e) s = .next (s.aluPlain c e (formOf r.2.1) op)
  result : ∀ e x y, (formOf r.2.1).legal e = true → x < 2 ^ e.w → y < 2 ^ e.w → op e.w x y = r.2.2 e.w x y

theorem integerRows_compute : ∀ r ∈ integerRows, ∃ op, Computes r op := by
  simp only [integerRows, List.forall_mem_cons, List.not_mem_nil, false_implies, implies_true, and_true]
  refine ⟨⟨_, fun _ _ _ => rfl, ?add⟩, ⟨_, fun _ _ _ => rfl, ?sub⟩, ⟨_, fun _ _ _ => rfl, ?mul⟩,
    ⟨_, fun _ _ _ => rfl, ?mulh⟩, ⟨_, fun _ _ _ => rfl, ?and⟩, ⟨_, fun _ _ _ => rfl, ?or⟩, ⟨_, fun _ _ _ => rfl, ?xor⟩,
    ⟨_, fun _ _ _ => rfl, ?andn⟩, ⟨_, fun _ _ _ => rfl, ?shl⟩, ⟨_, fun _ _ _ => rfl, ?shr⟩, ⟨_, fun _ _ _ => rfl, ?sar⟩,
    ⟨_, fun _ _ _ => rfl, ?adds⟩, ⟨_, fun _ _ _ => rfl, ?subs⟩, ⟨_, fun _ _ _ => rfl, ?min⟩, ⟨_, fun _ _ _ => rfl, ?max⟩,
    ⟨_, fun _ _ _ => rfl, ?rol⟩, ⟨_, fun _ _ _ => rfl, ?ror⟩⟩
  all_goals intro e x y hl hx hy
  case add => exact addW_eq_ofS e.w x y
  case sub => exact subW_eq_ofS e.w x y
  case mul => exact (ofS_natCast e.w (x * y)).symm.trans (by rw [Nat.cast_mul])
  case mulh =>
    rw [Form.w_of_legal hl rfl]
    rfl
  case and => exact and_eq_toNat hx hy
  case or => exact or_eq_toNat hx hy
  case xor => exact xor_eq_toNat hx hy
  case andn => exact andn_eq_toNat hx y
  case shl => exact shlW_eq_toNat e.w x y
  case shr => exact shrW_eq_toNat hx y
  case sar => exact sarW_eq_toNat (width_pos e) x y
  case adds => exact clampW_eq_ofS e.w _
  case subs => exact clampW_eq_ofS e.w _
  case min => exact ite_eq_ofS_min (width_pos e) hx hy
  case max => exact ite_eq_ofS_max (width_pos e) hx hy
  case rol => exact rolW_eq_toNat (width_pos e) hx y
  case ror => exact rorW_eq_toNat (width_pos e) hx y

/-- A compare is the ALU form that gives 1 or 0. -/
theorem compareRows_compute :
    ∀ r ∈ compareRows, ∃ op, Computes (r.1, r.2.1, fun w x y => if r.2.2 w x y then 1 else 0) op := by
  have holds : ∀ {p q : Bool}, p = q → b2n p = if q then 1 else 0 := fun h => h ▸ rfl
  simp only [compareRows, List.forall_mem_cons, List.not_mem_nil, false_implies, implies_true, and_true]
  refine ⟨⟨_, fun _ _ _ => rfl, ?ceq⟩, ⟨_, fun _ _ _ => rfl, ?clt⟩, ⟨_, fun _ _ _ => rfl, ?cle⟩,
    ⟨_, fun _ _ _ => rfl, ?cltu⟩, ⟨_, fun _ _ _ => rfl, ?cleu⟩, ⟨_, fun _ _ _ => rfl, ?tst⟩,
    ⟨_, fun _ _ _ => rfl, ?cova⟩, ⟨_, fun _ _ _ => rfl, ?covs⟩⟩
  all_goals intro e x y _ hx hy
  case ceq | clt | cle | cltu | cleu => exact holds rfl
  case tst => exact holds (decide_and_ne_zero hx hy)
  case cova => exact holds (ovf_eq_decide (width_pos e) _)
  case covs => exact holds (ovf_eq_decide (width_pos e) _)

/-- The row's instruction is the unary form with this operation, which gives the row's result on an operand of its width. -/
structure ComputesUnary (r : (Nat → Enc → Instr) × Nat × (Nat → Nat → Nat)) (op : Nat → Nat → Nat) : Prop where
  run : ∀ c e s, exec (r.1 c e) s = .next (s.unary c e (formOf r.2.1) op)
  result : ∀ w y, 0 < w → y < 2 ^ w → op w y = r.2.2 w y

theorem unaryRows_compute : ∀ r ∈ unaryRows, ∃ op, ComputesUnary r op := by
  simp only [unaryRows, List.forall_mem_cons, List.not_mem_nil, false_implies, implies_true, and_true]
  refine ⟨⟨_, fun _ _ _ => rfl, ?neg⟩, ⟨_, fun _ _ _ => rfl, ?not⟩, ⟨_, fun _ _ _ => rfl, ?abs⟩,
    ⟨_, fun _ _ _ => rfl, ?abss⟩⟩
  all_goals intro w y hw hy
  case neg =>
    rw [subW_eq_ofS]
    simp
  case not => exact not_eq_toNat w y
  case abs => rw [Int.natCast_natAbs]
  case abss => exact clampW_natAbs w _

/-! ### What they leave -/

section
variable {s s1 : State} {c g : Nat} {e : Enc} {f : Form} {x : Ctx}

/-- An instruction that puts a result into ra (R104), raising no trap, leaves it there and sets the STATUS bits raised. -/
theorem Issues.completes_result (h : Issues s c e f g s1 x) {i : Instr} {body : State → Nat → Ctx → Word → Res}
    (hi : exec i s = .next (s.issue c e f body)) {v raised : Nat}
    (hb : body s1 g x (x.nextPc f e) = s1.result g e (x.nextPc f e) v raised) (ht : x.trapOf raised = none) :
    Completes i s fun t => RegsOnly s c g x (x.grAfter e.wide e.ra v) t ∧
      (t.ctx g).sreg 1 = x.sreg 1 ||| BitVec.ofNat 32 raised ∧ (t.ctx g).pc = x.nextPc f e := by
  have hw : (x.wrG e.wide e.ra v).gr = x.grAfter e.wide e.ra v := funext (Ctx.gr_wrG x e.wide e.ra v)
  have := h.completes_write hi (.refl s1 c) hb (Ctx.sameButGeneral_wrG x e.wide e.ra v) ht
  rwa [hw] at this

/-- The same for a result that raises no STATUS bit: STATUS stays. -/
theorem Issues.completes_plain (h : Issues s c e f g s1 x) {i : Instr} {body : State → Nat → Ctx → Word → Res}
    (hi : exec i s = .next (s.issue c e f body)) {v : Nat}
    (hb : body s1 g x (x.nextPc f e) = s1.result g e (x.nextPc f e) v 0) :
    Completes i s fun t => RegsOnly s c g x (x.grAfter e.wide e.ra v) t ∧
      (t.ctx g).sreg 1 = x.sreg 1 ∧ (t.ctx g).pc = x.nextPc f e := by
  have := h.completes_result hi hb x.trapOf_zero
  rwa [show x.sreg 1 ||| BitVec.ofNat 32 0 = x.sreg 1 from BitVec.or_zero] at this

theorem State.aluPlain_eq_issue (s : State) (c : Nat) (e : Enc) (f : Form) (op : Nat → Nat → Nat → Nat) :
    s.aluPlain c e f op = s.issue c e f fun s g x next => s.result g e next (op e.w (x.opX e) (x.opY f e)) 0 := rfl

theorem Issues.completes_alu {r : AluRow} {op : Nat → Nat → Nat → Nat} (hr : Computes r op)
    (h : Issues s c e (formOf r.2.1) g s1 x) :
    Completes (r.1 c e) s fun t =>
      RegsOnly s c g x (x.grAfter e.wide e.ra (r.2.2 e.w (x.opX e) (x.opY (formOf r.2.1) e))) t ∧
        (t.ctx g).sreg 1 = x.sreg 1 ∧ (t.ctx g).pc = x.nextPc (formOf r.2.1) e := by
  rw [← hr.result e _ _ h.legal (x.opX_lt e) (x.opY_lt _ e)]
  exact h.completes_plain ((hr.run c e s).trans (congrArg _ (State.aluPlain_eq_issue s c e _ op))) rfl

theorem Issues.completes_unary {r : (Nat → Enc → Instr) × Nat × (Nat → Nat → Nat)} {op : Nat → Nat → Nat}
    (hr : ComputesUnary r op) (h : Issues s c e (formOf r.2.1) g s1 x) :
    Completes (r.1 c e) s fun t =>
      RegsOnly s c g x (x.grAfter e.wide e.ra (r.2.2 e.w (x.rdG e.wide e.rb))) t ∧
        (t.ctx g).sreg 1 = x.sreg 1 ∧ (t.ctx g).pc = x.nextPc (formOf r.2.1) e := by
  rw [← hr.result e.w _ (width_pos e) (x.rdG_lt e e.rb)]
  exact h.completes_plain (hr.run c e s) rfl

end

/-- Settles O1: every row's operation is the rule's, and an issued instruction that raises no STATUS bit writes its result alone. -/
theorem integerResults : Obligations.IntegerResults := by
  unfold Obligations.IntegerResults
  refine ⟨⟨fun r hr s c e g s1 x h => ?_, fun r hr s c e g s1 x h => ?_, fun s c e g s1 x h => ?_⟩, fun r hr s c e g s1 x h => ?_⟩
  · obtain ⟨op, hop⟩ := integerRows_compute r hr
    exact h.completes_alu hop
  · obtain ⟨op, hop⟩ := unaryRows_compute r hr
    exact h.completes_unary hop
  · exact h.completes_plain rfl rfl
  · obtain ⟨op, hop⟩ := compareRows_compute r hr
    exact h.completes_alu hop

end Sys2Proof.Machine
end

section
/-! SUPPORT. What a fault or trap leaves of the context that took it (R96, R97, R99): a halt of its task or of the tide (R145, R165)
changes no halted context and no session. -/

namespace Sys2Proof.Machine

/-! ### Operations that touch no context and no session -/

/-- The contexts and the sessions. -/
def State.actors (s : State) : SMap Ctx × SMap Ses := (s.ctxs, s.sess)

theorem State.ctxs_of_actors {s t : State} (h : t.actors = s.actors) : t.ctxs = s.ctxs := congrArg Prod.fst h
theorem State.sess_of_actors {s t : State} (h : t.actors = s.actors) : t.sess = s.sess := congrArg Prod.snd h

theorem State.each_actors {α : Type} (s : State) (l : List α) {f : State → α → State} (hf : ∀ u a, (f u a).actors = u.actors) :
    (s.each l f).actors = s.actors := by
  unfold State.each
  induction l generalizing s with
  | nil => rfl
  | cons a t ih => exact (ih (f s a)).trans (hf s a)

theorem State.when_actors (s : State) (c : Bool) {f : State → State} (hf : (f s).actors = s.actors) :
    (s.when c f).actors = s.actors := by
  unfold State.when
  split
  · exact hf
  · rfl

@[simp] theorem State.setOb_actors (s : State) (k v : Nat) : (s.setOb k v).actors = s.actors := rfl
@[simp] theorem State.addOb_actors (s : State) (k n : Nat) : (s.addOb k n).actors = s.actors := State.setOb_actors s k _
@[simp] theorem State.incOb_actors (s : State) (k : Nat) : (s.incOb k).actors = s.actors := State.addOb_actors s k 1
@[simp] theorem State.setByte_actors (s : State) (a : Nat) (b : Byte) : (s.setByte a b).actors = s.actors := rfl
@[simp] theorem State.clearMem_actors (s : State) (a n : Nat) : (s.clearMem a n).actors = s.actors := rfl
@[simp] theorem State.setImg_actors (s : State) (f : Img → Img) : (s.setImg f).actors = s.actors := rfl
@[simp] theorem State.setTds_actors (s : State) (f : Tds → Tds) : (s.setTds f).actors = s.actors := rfl
@[simp] theorem State.modTask_actors (s : State) (t : Nat) (f : Task → Task) : (s.modTask t f).actors = s.actors := rfl
@[simp] theorem State.wear_actors (s : State) (p n : Nat) : (s.wear p n).actors = s.actors := rfl
@[simp] theorem State.setSlot_actors (s : State) (k : Nat) (x : Slot) : (s.setSlot k x).actors = s.actors := rfl
@[simp] theorem State.setBdr_actors (s : State) (f : Bdr → Bdr) : (s.setBdr f).actors = s.actors := rfl
@[simp] theorem State.draw_actors (s : State) : s.draw.actors = s.actors := rfl
@[simp] theorem State.raise_actors (s : State) (cls key src root detail extra : Nat) :
    (s.raise cls key src root detail extra).actors = s.actors := rfl
@[simp] theorem State.hold_actors (s : State) (e : Option Nat × HeldOp) : (s.hold e).actors = s.actors := rfl
@[simp] theorem State.countHold_actors (s : State) (n : Nat) : (s.countHold n).actors = s.actors := State.addOb_actors s _ n
@[simp] theorem State.faultRecord_actors (s : State) (g task code detail : Nat) (fpc faddr : Word) :
    (s.faultRecord g task code detail fpc faddr).actors = s.actors := by
  unfold State.faultRecord
  extract_lets core hi s1 s2 s3
  clear_value hi
  exact (State.raise_actors _ _ _ _ _ _ _).trans ((State.incOb_actors s3 _).trans ((State.setOb_actors s2 _ _).trans
    ((State.setOb_actors s1 _ _).trans (State.setOb_actors s _ _))))

@[simp] theorem State.bedDrop_actors (s : State) (who : Nat → Bool) : (s.bedDrop who).actors = s.actors := by
  unfold State.bedDrop
  split
  · split
    · rw [← State.incOb_actors s K.BDR_TXN_DISCARDS]
      rfl
    · rfl
  · rfl

@[simp] theorem State.blit_actors (s : State) (src dst n : Nat) : (s.blit src dst n).actors = s.actors :=
  (State.each_actors _ _ fun u _ => State.setByte_actors u _ _).trans (State.clearMem_actors s dst n)

@[simp] theorem State.saveLine_actors (s : State) (l : Nat) : (s.saveLine l).actors = s.actors := by
  unfold State.saveLine
  split
  · simp
  · rfl

@[simp] theorem State.markLine_actors (s : State) (l : Nat) : (s.markLine l).actors = s.actors := by
  unfold State.markLine
  split <;> rfl

@[simp] theorem State.copyProgress_actors (s : State) : s.copyProgress.actors = s.actors := by
  unfold State.copyProgress
  split
  · extract_lets n
    exact (State.setImg_actors _ _).trans (State.each_actors s _ State.saveLine_actors)
  · rfl

@[simp] theorem State.orphanRise_actors (s : State) (n : Nat) : (s.orphanRise n).actors = s.actors := State.when_actors s _ rfl

@[simp] theorem State.applyBytes_actors (s : State) (m : SMap (Option Byte)) : (s.applyBytes m).actors = s.actors := by
  have stores : ∀ u : State, (u.each m fun s e => match e.2 with | some b => s.setByte (mBed + e.1) b | none => s).actors = u.actors :=
    fun u => State.each_actors u m fun u a => by
      split <;> rfl
  exact (State.each_actors _ _ fun u l => State.wear_actors u _ _).trans (stores s)

@[simp] theorem State.finishApply_actors (s : State) : s.finishApply.actors = s.actors := by
  unfold State.finishApply State.applySlot
  split
  · simp
  · rfl

@[simp] theorem State.journal_actors (s : State) (m : SMap (Option Byte)) : (s.journal m).actors = s.actors := by
  simp [State.journal]

theorem State.devTxn_actors (s : State) (first pages : Nat) {f : State → State} (hf : ∀ u, (f u).actors = u.actors) :
    (s.devTxn first pages f).actors = s.actors := by
  unfold State.devTxn
  split
  · rfl
  · split
    · rfl
    · dsimp only
      rw [hf]
      simp

@[simp] theorem State.retainForceTable_actors (s : State) : s.retainForceTable.actors = s.actors := by
  unfold State.retainForceTable
  split
  · rfl
  · exact State.devTxn_actors s 464 32 fun _ => rfl

@[simp] theorem State.landForce_actors (s : State) (c : FChange) : (s.landForce c).actors = s.actors := by
  unfold State.landForce
  extract_lets n tg ls t zero s1 s2 s3 s4
  have h3 : s3.actors = s.actors := by
    have h2 : s2.actors = s.actors := State.each_actors s ls fun u l => State.saveLine_actors u l
    cases c <;> exact h2
  have h4 : s4.actors = s3.actors := State.each_actors _ _ fun u i => by
    dsimp only
    split
    · rfl
    · exact State.each_actors _ _ fun u j => State.setByte_actors u _ _
  rw [State.retainForceTable_actors, State.orphanRise_actors, State.each_actors _ _ fun u l => State.markLine_actors u l, h4, h3]

@[simp] theorem State.imgForce_actors (s : State) (c : FChange) : (s.imgForce c).actors = s.actors := by
  unfold State.imgForce
  dsimp only
  split <;> simp

theorem State.holdPlace_actors (s : State) (e : Option Nat × HeldOp) : (s.holdPlace e).1.actors = s.actors := by
  unfold State.holdPlace
  split <;> rfl

theorem State.landHeldForce_actors (s : State) (e : Option Nat × HeldOp) : (s.landHeldForce e).actors = s.actors := by
  unfold State.landHeldForce
  split
  · split
    · dsimp only
      split <;> simp [State.holdPlace_actors]
    · rfl
  · rfl

theorem State.pumpForces_actors (s : State) : s.pumpForces.actors = s.actors := by
  unfold State.pumpForces
  dsimp only
  rw [State.each_actors _ _ State.imgForce_actors, State.setTds_actors, State.each_actors _ _ State.landHeldForce_actors,
    State.setImg_actors]

/-! ### Operations that leave a halted context alone -/

/-- No session changes, and context g does not where it is HALTED. -/
structure State.Rests (s : State) (g : Nat) (t : State) : Prop where
  sess : t.sess = s.sess
  ctx : (s.ctx g).cs = .halted → t.ctx g = s.ctx g

theorem State.Rests.refl (s : State) (g : Nat) : s.Rests g s := ⟨rfl, fun _ => rfl⟩

theorem State.Rests.trans {s t u : State} {g : Nat} (h : s.Rests g t) (k : t.Rests g u) : s.Rests g u :=
  ⟨k.sess.trans h.sess, fun hc => (k.ctx (by rw [h.ctx hc, hc])).trans (h.ctx hc)⟩

theorem State.Rests.of_actors {s t : State} {g : Nat} (h : t.actors = s.actors) : s.Rests g t :=
  ⟨State.sess_of_actors h, fun _ => State.ctx_of_ctxs (State.ctxs_of_actors h) g⟩

theorem State.Rests.each {α : Type} {s : State} {g : Nat} (l : List α) {f : State → α → State}
    (hf : ∀ (u : State) a, u.Rests g (f u a)) : s.Rests g (s.each l f) := by
  unfold State.each
  induction l generalizing s with
  | nil => exact .refl s g
  | cons a t ih => exact (hf s a).trans ih

/-- A change of a context that is not HALTED. -/
theorem State.rests_modCtx (s : State) (g : Nat) {b : Nat} {f : Ctx → Ctx} (hb : (s.ctx b).cs ≠ .halted) :
    s.Rests g (s.modCtx b f) := by
  refine ⟨rfl, fun hc => State.ctx_modCtx_of_ne s f ?_⟩
  rintro rfl
  exact hb hc

theorem State.cs_of_running {s : State} {c r : Nat} (h : s.running c = some r) : (s.ctx r).cs = .running := by
  simpa using List.find?_some h

/-- The context that R152 names is READY or PREEMPTED. -/
theorem State.cs_of_bestCtx {s : State} {c b : Nat} (h : s.bestCtx c = some b) :
    (s.ctx b).cs = .ready ∨ (s.ctx b).cs = .preempted := by
  have choose : ∀ (l : List Nat) (a : Option Nat), (l.foldl (fun b g => match b with
      | none => some g
      | some h => if s.before g h then some g else some h) a) = some b → a = some b ∨ b ∈ l := by
    intro l
    induction l with
    | nil => exact fun a ha => .inl ha
    | cons d t ih =>
      intro a ha
      rcases ih _ ha with hd | hd
      · cases a with
        | none => exact .inr (by simp_all)
        | some k =>
          dsimp only at hd
          split at hd
          · exact .inr (by simp_all)
          · exact .inl hd
      · exact .inr (List.mem_cons_of_mem d hd)
  rcases choose _ none h with hn | hm
  · cases hn
  · simpa using List.of_mem_filter hm

theorem State.rests_resched (s : State) (g c : Nat) : s.Rests g (s.resched c) := by
  have best : ∀ {b : Nat}, s.bestCtx c = some b → (s.ctx b).cs ≠ .halted := fun hb hc => by
    rcases State.cs_of_bestCtx hb with h | h <;> rw [h] at hc <;> cases hc
  unfold State.resched
  split
  · rename_i b _ hb
    exact State.rests_modCtx s g (best hb)
  · rename_i r b hr hb
    split
    · refine (State.rests_modCtx s g (b := r) (by rw [State.cs_of_running hr]; decide)).trans (State.rests_modCtx _ g ?_)
      rw [State.ctx_modCtx]
      split
      · exact fun hc => by cases hc
      · exact best hb
    · exact .refl s g
  · exact .refl s g

theorem State.rests_kevent (s : State) (g n : Nat) : s.Rests g (s.kevent n) := by
  unfold State.kevent
  refine .trans (.of_actors (State.setOb_actors s K.TDS_KEVENTS (putBit (s.ob K.TDS_KEVENTS) n true))) ?_
  unfold State.keeperWake
  split
  · rename_i h
    exact (State.rests_modCtx _ g (by rw [h.2.1]; decide)).trans (State.rests_resched _ g 0)
  · exact .refl _ g

theorem State.rests_toTide (s : State) (g : Nat) (st : TideSt) : s.Rests g (s.toTide st) := by
  unfold State.toTide
  split
  · exact .refl s g
  · exact (State.Rests.of_actors (State.setTds_actors s _)).trans (State.rests_kevent _ g _)

theorem State.rests_haltTaskAt (s : State) (g t : Nat) : s.Rests g (s.haltTaskAt t) := by
  unfold State.haltTaskAt
  dsimp only
  split
  · exact (State.Rests.of_actors (by simp)).trans (State.rests_kevent _ g _)
  · exact State.Rests.of_actors (by simp)

theorem State.rests_haltContexts (s : State) (g : Nat) : s.Rests g s.haltContexts := by
  have others : ∀ (l : List Nat) (u : State), g ∉ l → (u.each l fun s h => s.modCtx h Ctx.haltAfter).ctx g = u.ctx g := by
    intro l
    induction l with
    | nil => exact fun _ _ => rfl
    | cons a t ih =>
      intro u hl
      rw [List.mem_cons, not_or] at hl
      exact (ih _ hl.2).trans (State.ctx_modCtx_of_ne u _ hl.1)
  have sess : ∀ (l : List Nat) (u : State), (u.each l fun s h => s.modCtx h Ctx.haltAfter).sess = u.sess := by
    intro l
    induction l with
    | nil => exact fun _ => rfl
    | cons a t ih => exact fun u => ih (u.modCtx a Ctx.haltAfter)
  exact ⟨sess _ s, fun hc => others _ s (by simp [hc])⟩

theorem State.rests_tideHalt (s : State) (g : Nat) : s.Rests g s.tideHalt := by
  unfold State.tideHalt
  split
  · refine .trans ?_ (.of_actors (State.pumpForces_actors _))
    refine .trans ?_ (.each _ fun u c => State.rests_resched u g c)
    refine .trans ?_ (State.rests_toTide _ g _)
    refine .trans ?_ (.of_actors (State.setTds_actors _ _))
    exact (State.rests_haltContexts s g).trans (.each _ fun u t => State.rests_haltTaskAt u g t)
  · exact .refl s g

theorem State.rests_tideSettle (s : State) (g : Nat) : s.Rests g s.tideSettle := by
  unfold State.tideSettle
  split
  · exact (State.Rests.of_actors (State.setTds_actors s _)).trans (State.rests_toTide _ g _)
  · exact .refl s g

theorem State.rests_taskHalt (s : State) (g t sec : Nat) : s.Rests g (s.taskHalt t sec) := by
  unfold State.taskHalt
  extract_lets k s1 s2 s3 s4
  have h3 : s.Rests g s3 := .of_actors (show s1.actors = s.actors from State.bedDrop_actors s _)
  have h4 : s3.Rests g s4 := by
    unfold s4
    split
    · exact .refl s3 g
    · exact State.rests_kevent s3 g _
  split
  · exact (h3.trans h4).trans (State.rests_tideHalt s4 g)
  · exact (h3.trans h4).trans (State.rests_tideSettle s4 g)

/-! ### A fault or trap -/

theorem State.txnWaiting_of_sess {s t : State} (h : t.sess = s.sess) : t.txnWaiting = s.txnWaiting := by
  unfold State.txnWaiting
  rw [h]

theorem State.txnSettle_of_none {s : State} (h : s.txnWaiting = []) : s.txnSettle = s := by
  unfold State.txnSettle State.txnApplyAll
  rw [h]
  split <;> rfl

/-- A running context that continues at KFV after a fault or trap: task 0 with KFV set and no fault before (R99). -/
def Ctx.Continues (x : Ctx) : Prop := x.task = 0 ∧ x.sreg 9 ≠ 0 ∧ x.finfo = 0

/-- What a fault or trap makes of a running context x, as y (R73, R97, R99): registers stay, FINFO and FPC say what happened, and
it continues at KFV or has halted at next. -/
structure Ctx.Faulted (x : Ctx) (code detail : Nat) (fpc next : Word) (y : Ctx) : Prop where
  general : ∀ r, y.gr r = x.gr r
  special : ∀ r, y.sreg r = x.sreg r
  finfo : y.finfo = BitVec.ofNat 32 (code * 2 ^ 24 + detail * 2 ^ 16)
  fpc : y.fpc = fpc
  continues : x.Continues → y.pc = x.sreg 9
  halts : ¬ x.Continues → y.pc = next ∧ y.cs = .halted

/-- A context that a fault lets continue: it stands at KFV, its bracket closed and nothing waited for. -/
def Ctx.resumed (x : Ctx) (code detail : Nat) (fpc faddr : Word) : Ctx :=
  { x.withFault code detail fpc faddr with
    pc := x.sreg 9, npOpen := false, npcnt := 0, wait := .none, stall := [], rep := false }

/-- A context that a fault halts. -/
def Ctx.stopped (x : Ctx) (code detail : Nat) (fpc faddr next : Word) : Ctx :=
  { x.withFault code detail fpc faddr with pc := next }.halt

/-- FINFO's value named: a numeral of that size is not for the kernel to compute with. -/
theorem Ctx.withFault_eq (x : Ctx) (code detail : Nat) (fpc faddr : Word) :
    ∃ w, w = BitVec.ofNat 32 (code * 2 ^ 24 + detail * 2 ^ 16) ∧
      x.withFault code detail fpc faddr = { x with finfo := w, fpc := fpc, faddr := faddr } := ⟨_, rfl, rfl⟩

theorem Ctx.faulted_resumed {x : Ctx} (hc : x.Continues) (code detail : Nat) (fpc faddr next : Word) {y : Ctx}
    (hy : y.SameButState (x.resumed code detail fpc faddr)) : x.Faulted code detail fpc next y := by
  obtain ⟨w, hw, he⟩ := x.withFault_eq code detail fpc faddr
  unfold Ctx.resumed at hy
  rw [he] at hy
  exact ⟨hy.gr, hy.sreg, hy.finfo.trans hw, hy.fpc, fun _ => hy.pc, fun hn => absurd hc hn⟩

theorem Ctx.faulted_stopped {x : Ctx} (hc : ¬ x.Continues) (code detail : Nat) (fpc faddr next : Word) :
    x.Faulted code detail fpc next (x.stopped code detail fpc faddr next) := by
  obtain ⟨w, hw, he⟩ := x.withFault_eq code detail fpc faddr
  unfold Ctx.stopped
  rw [he]
  exact ⟨fun _ => rfl, fun _ => rfl, hw, rfl, fun h => absurd h hc, fun _ => ⟨rfl, rfl⟩⟩

/-- The test by which a fault lets a running context continue. -/
theorem Ctx.continues_iff {x : Ctx} (hcs : x.cs = .running) : x.Continues ↔
    (decide (x.task = 0) && decide (x.sreg 9 ≠ 0) && decide (x.finfo = 0) && decide (x.cs ≠ .halted)) = true := by
  simp [Ctx.Continues, hcs, and_assoc]

/-- What a fault of a running context leaves: no session changes, and the context is resumed or stopped. -/
theorem State.taskFault_ctx {s : State} {g : Nat} (hcs : (s.ctx g).cs = .running) (code detail : Nat) (fpc faddr next : Word) :
    (s.taskFault g code detail fpc faddr next).sess = s.sess ∧
      (s.ctx g).Faulted code detail fpc next ((s.taskFault g code detail fpc faddr next).ctx g) := by
  have h0 := State.sess_of_actors (State.faultRecord_actors s g (s.ctx g).task code detail fpc faddr)
  unfold State.taskFault
  dsimp only
  generalize s.faultRecord g (s.ctx g).task code detail fpc faddr = s0 at h0 ⊢
  by_cases hc : (s.ctx g).Continues
  · rw [if_pos ((Ctx.continues_iff hcs).1 hc)]
    refine ⟨(State.resched_sess _ _).trans ((State.setCtx_sess s0 g _).trans h0),
      Ctx.faulted_resumed hc code detail fpc faddr next ?_⟩
    have := State.ctx_resched (s0.setCtx g ((s.ctx g).resumed code detail fpc faddr)) (g / 16) g
    rwa [State.ctx_setCtx, if_pos rfl] at this
  · rw [if_neg fun h => hc ((Ctx.continues_iff hcs).2 h)]
    set s1 := s0.setCtx g ((s.ctx g).stopped code detail fpc faddr next) with h1
    have hrest : ∀ n f, s1.Rests g ((((if (s.ctx g).task = 0 then s1.raise 2 0 0 0 n f else s1).taskHalt (s.ctx g).task
        (s.ctx g).sec)).resched (g / 16)) := fun n f => by
      refine .trans ?_ ((State.rests_taskHalt _ g _ _).trans (State.rests_resched _ g _))
      split
      · exact .of_actors (State.raise_actors s1 _ _ _ _ _ _)
      · exact .refl s1 g
    have hs1 : s1.ctx g = (s.ctx g).stopped code detail fpc faddr next := (State.ctx_setCtx s0 g _ g).trans (if_pos rfl)
    refine ⟨(hrest _ _).sess.trans ((State.setCtx_sess s0 g _).trans h0), ?_⟩
    have hctx := (hrest (code * 2 ^ 24 + (s.ctx g).task * 2 ^ 16 + g % 16 * 2 ^ 12 + detail) fpc.toNat).ctx (by rw [hs1]; rfl)
    rw [hs1] at hctx
    exact hctx ▸ Ctx.faulted_stopped hc code detail fpc faddr next

/-- The same with what the fault brings with it, where no transaction waits for the tide to stop (R50). -/
theorem State.faulted_ctx {s : State} {g : Nat} (hq : s.txnWaiting = []) (hcs : (s.ctx g).cs = .running) (code detail : Nat)
    (fpc faddr next : Word) :
    (s.ctx g).Faulted code detail fpc next ((s.faulted g code detail fpc faddr next).ctx g) := by
  obtain ⟨hs, hf⟩ := State.taskFault_ctx hcs code detail fpc faddr next
  rwa [State.faulted, State.txnSettle_of_none ((State.txnWaiting_of_sess hs).trans hq)]

end Sys2Proof.Machine
end

section
/-! SUPPORT. O2: the division of R111 and the DZ trap that follows it (R96, R97, R99). -/

namespace Sys2Proof.Machine

/-! ### Instructions that take a trap -/

/-- The end of an instruction that raises a trap of its own and does not free its context. -/
theorem State.complete_of_trap {s : State} {g : Nat} {e : Enc} {opens : Bool} {pc next : Word} {raised code detail : Nat}
    (hcs : (s.ctx g).cs ≠ .free) (ht : ((s.ctx g).after e opens true pc next raised).trapOf raised = some (code, detail)) :
    s.complete g e opens pc next raised none =
      ((s.modCtx g fun x => x.after e opens true pc next raised).modCtx g Ctx.fullBracket).faulted g code detail pc 0 next := by
  unfold State.complete
  rw [if_neg hcs]
  dsimp only
  rw [State.ctx_modCtx_self, ht]

/-- What an instruction that takes a trap after its effect makes of context x, as y (R96, R97, R99): the registers written, the
STATUS bits raised, which the 64th instruction of a bracket adds BX to, and FINFO, FPC and the place where it goes on or has halted. -/
structure Ctx.Trapped (x : Ctx) (gr : Nat → Word) (raised code detail : Nat) (next : Word) (y : Ctx) : Prop where
  general : ∀ r, y.gr r = gr r
  raises : ∀ i, (x.sreg 1 ||| BitVec.ofNat 32 raised).getLsbD i = true → (y.sreg 1).getLsbD i = true
  status : x.npcnt < 63 → y.sreg 1 = x.sreg 1 ||| BitVec.ofNat 32 raised
  finfo : y.finfo = BitVec.ofNat 32 (code * 2 ^ 24 + detail * 2 ^ 16)
  fpc : y.fpc = x.pc
  continues : x.Continues → y.pc = x.sreg 9
  halts : ¬ x.Continues → y.pc = next ∧ y.cs = .halted

section
variable {s s1 : State} {c g : Nat} {e : Enc} {f : Form} {x : Ctx}

/-- An issued instruction that writes general registers alone and raises a trap takes it with its effect done. -/
theorem Issues.completes_trap (h : Issues s c e f g s1 x) (hq : s.txnWaiting = []) {i : Instr}
    {body : State → Nat → Ctx → Word → Res} (hi : exec i s = .next (s.issue c e f body))
    {w : Ctx → Ctx} {raised code detail : Nat}
    (hb : body s1 g x (x.nextPc f e) = .next (s1.modCtx g w) (x.nextPc f e) raised none)
    (hw : (w x).SameButGeneral x) (ht : x.trapOf raised = some (code, detail)) :
    Completes i s fun t => x.Trapped (w x).gr raised code detail (x.nextPc f e) (t.ctx g) := by
  set y := (w x).after e (e.npb && !x.rep) true x.pc (x.nextPc f e) raised with hy
  set u := ((s1.modCtx g w).modCtx g fun z => z.after e (e.npb && !x.rep) true x.pc (x.nextPc f e) raised).modCtx g Ctx.fullBracket
    with hu
  have hself : (s1.modCtx g w).ctx g = w x := by rw [State.ctx_modCtx_self, h.ctx_self]
  have hend : (s1.modCtx g w).complete g e (e.npb && !x.rep) x.pc (x.nextPc f e) raised none =
      u.faulted g code detail x.pc 0 (x.nextPc f e) := by
    refine State.complete_of_trap ?_ ?_
    · rw [hself, hw.cs, h.cs_running]
      decide
    · rw [hself, Ctx.trapOf_after, Ctx.trapOf_congr (hw.sreg 2), ht]
  have hctx : u.ctx g = y.fullBracket := by rw [hu, State.ctx_modCtx_self, State.ctx_modCtx_self, hself]
  have hrun : (u.ctx g).cs = .running := by rw [hctx, Ctx.cs_fullBracket, hy, Ctx.cs_after, hw.cs, h.cs_running]
  have hquiet : u.txnWaiting = [] := (State.txnWaiting_of_sess h.sess).trans hq
  have hf := State.faulted_ctx hquiet hrun code detail x.pc 0 (x.nextPc f e)
  rw [hctx] at hf
  have hsr : ∀ r, y.sreg r = if r = 1 then x.sreg 1 ||| BitVec.ofNat 32 raised else x.sreg r := fun r => by
    rw [hy, Ctx.sreg_after, hw.sreg, hw.sreg]
  have hkfv : y.fullBracket.sreg 9 = x.sreg 9 := by
    rw [Ctx.sreg_fullBracket_of_ne _ (by decide), hsr, if_neg (by decide)]
  have hcont : y.fullBracket.Continues ↔ x.Continues := by
    unfold Ctx.Continues
    rw [hkfv, Ctx.task_fullBracket, Ctx.finfo_fullBracket, ← hw.task, ← hw.finfo]
    rfl
  have hcount : y.npcnt ≤ x.npcnt + 1 := hw.npcnt ▸ Ctx.npcnt_after_le (w x) e _ true x.pc _ raised
  refine ⟨u.faulted g code detail x.pc 0 (x.nextPc f e), ?_, ?_⟩
  · rw [hi, State.issue_of_issues h, hb]
    exact congrArg _ hend
  · exact {
      general := fun r => (hf.general r).trans (Ctx.gr_fullBracket y r)
      raises := fun k hk => by
        rw [hf.special]
        exact Ctx.status_bit_fullBracket (by rwa [hsr, if_pos rfl])
      status := fun hn => by rw [hf.special, Ctx.fullBracket_of_lt (by omega), hsr, if_pos rfl]
      finfo := hf.finfo
      fpc := hf.fpc
      continues := fun hc => (hf.continues (hcont.2 hc)).trans hkfv
      halts := fun hc => hf.halts fun hd => hc (hcont.1 hd) }

end

/-! ### Division -/

theorem divS_zero {w x : Nat} (hw : 0 < w) (hx : x < 2 ^ w) : divS w x 0 = (quotientZero true true w x, x, flDIV) := by
  have h0 : toS w x = 0 ↔ x = 0 := toS_eq_zero hw hx
  unfold divS quotientZero
  rw [toS_zero]
  simp only [if_true, Bool.true_eq_false, if_false, Nat.mod_eq_of_lt hx, h0]
  by_cases hz : x = 0
  · simp [hz, ofS]
  · have hne : toS w x ≠ 0 := fun h => hz (h0.1 h)
    by_cases hp : 0 < toS w x
    · simp [hz, hp, not_lt_of_gt hp]
    · simp [hz, hp, show toS w x < 0 by omega]

/-- Where the divisor is not 0 the quotient is truncated and the remainder has the dividend's sign; the quotient of min by −1 wraps
to min as its two's complement does. -/
theorem divS_of_ne_zero {w x y : Nat} (hw : 0 < w) (hy : y < 2 ^ w) (h : y ≠ 0) :
    divS w x y = (ofS w ((toS w x).tdiv (toS w y)), ofS w ((toS w x).tmod (toS w y)), 0) := by
  have hb : toS w y ≠ 0 := fun hz => h ((toS_eq_zero hw hy).1 hz)
  unfold divS
  dsimp only
  rw [if_neg hb]
  split
  · rename_i hc
    rw [hc.1, hc.2, Int.tdiv_neg, Int.tdiv_one, ofS_neg_minS hw, Int.tmod_neg, Int.tmod_one]
    rfl
  · rfl

/-- The row's instruction is the ALU form with this operation, which on operands of its width gives the row's result, with DZ raised
where the divisor is 0. -/
structure Divides (r : (Nat → Enc → Instr) × Nat × Bool × Bool) (op : Nat → Nat → Nat → Nat × Nat) : Prop where
  run : ∀ c e s, exec (r.1 c e) s = .next (s.alu c e (formOf r.2.1) op)
  result : ∀ w x y, 0 < w → y < 2 ^ w → y ≠ 0 → op w x y = (quotient r.2.2.1 r.2.2.2 w x y, 0)
  zero : ∀ w x, 0 < w → x < 2 ^ w → op w x 0 = (quotientZero r.2.2.1 r.2.2.2 w x, flDIV)

theorem divisionRows_divide : ∀ r ∈ divisionRows, ∃ op, Divides r op := by
  simp only [divisionRows, List.forall_mem_cons, List.not_mem_nil, false_implies, implies_true, and_true]
  refine ⟨⟨_, fun _ _ _ => rfl, fun w x y hw hy h => ?div, fun w x hw hx => ?div0⟩,
    ⟨_, fun _ _ _ => rfl, fun w x y hw hy h => ?divu, fun w x hw hx => rfl⟩,
    ⟨_, fun _ _ _ => rfl, fun w x y hw hy h => ?rem, fun w x hw hx => ?rem0⟩,
    ⟨_, fun _ _ _ => rfl, fun w x y hw hy h => ?remu, fun w x hw hx => rfl⟩⟩
  case div =>
    dsimp only
    rw [divS_of_ne_zero hw hy h]
    rfl
  case div0 =>
    dsimp only
    rw [divS_zero hw hx]
  case divu =>
    dsimp only [divU]
    rw [if_neg h]
    rfl
  case rem =>
    dsimp only
    rw [divS_of_ne_zero hw hy h]
    rfl
  case rem0 =>
    dsimp only
    rw [divS_zero hw hx]
    rfl
  case remu =>
    dsimp only [divU]
    rw [if_neg h]
    rfl

/-- DZ raised calls for the DZ trap where TRAPMASK.DZ is 1, and for none where it is 0. -/
theorem Ctx.trapOf_flDIV (x : Ctx) : x.trapOf flDIV = if (x.sp 2).testBit 0 = true then some (fDz, 0) else none := by
  have hbit : bit (flDIV &&& x.sp 2) 0 = (x.sp 2).testBit 0 := by
    rw [bit, Nat.testBit_and]
    rfl
  have hfp : flDIV &&& x.sp 2 &&& 0x7C = 0 := by
    rw [Nat.and_comm flDIV, Nat.and_assoc]
    exact Nat.and_zero _
  unfold Ctx.trapOf
  dsimp only
  rw [hbit, hfp]
  rfl

theorem State.alu_eq_issue (s : State) (c : Nat) (e : Enc) (f : Form) (op : Nat → Nat → Nat → Nat × Nat) :
    s.alu c e f op = s.issue c e f fun s g x next =>
      s.result g e next (op e.w (x.opX e) (x.opY f e)).1 (op e.w (x.opX e) (x.opY f e)).2 := rfl

section
variable {s s1 : State} {c g : Nat} {e : Enc} {x : Ctx} {r : (Nat → Enc → Instr) × Nat × Bool × Bool}
  {op : Nat → Nat → Nat → Nat × Nat}

theorem Divides.exec_eq (hr : Divides r op) (s : State) (c : Nat) (e : Enc) : exec (r.1 c e) s =
    .next (s.issue c e (formOf r.2.1) fun s g x next =>
      s.result g e next (op e.w (x.opX e) (x.opY (formOf r.2.1) e)).1 (op e.w (x.opX e) (x.opY (formOf r.2.1) e)).2) :=
  (hr.run c e s).trans (congrArg _ (State.alu_eq_issue s c e _ op))

theorem Issues.completes_division (hr : Divides r op) (h : Issues s c e (formOf r.2.1) g s1 x) (hy : x.opY (formOf r.2.1) e ≠ 0) :
    Completes (r.1 c e) s fun t =>
      RegsOnly s c g x (x.grAfter e.wide e.ra (quotient r.2.2.1 r.2.2.2 e.w (x.opX e) (x.opY (formOf r.2.1) e))) t ∧
        (t.ctx g).sreg 1 = x.sreg 1 ∧ (t.ctx g).pc = x.nextPc (formOf r.2.1) e := by
  refine h.completes_plain (hr.exec_eq s c e) ?_
  rw [hr.result e.w _ _ (width_pos e) (x.opY_lt _ e) hy]

theorem Issues.completes_division_by_zero (hr : Divides r op) (h : Issues s c e (formOf r.2.1) g s1 x)
    (hy : x.opY (formOf r.2.1) e = 0) (hm : (x.sp 2).testBit 0 = false) :
    Completes (r.1 c e) s fun t =>
      RegsOnly s c g x (x.grAfter e.wide e.ra (quotientZero r.2.2.1 r.2.2.2 e.w (x.opX e))) t ∧
        (t.ctx g).sreg 1 = x.sreg 1 ||| 1 ∧ (t.ctx g).pc = x.nextPc (formOf r.2.1) e := by
  refine h.completes_result (hr.exec_eq s c e) (raised := flDIV) ?_ (by rw [Ctx.trapOf_flDIV, hm]; rfl)
  rw [hy, hr.zero e.w _ (width_pos e) (x.opX_lt e)]

theorem Issues.completes_division_trap (hr : Divides r op) (h : Issues s c e (formOf r.2.1) g s1 x) (hq : s.txnWaiting = [])
    (hy : x.opY (formOf r.2.1) e = 0) (hm : (x.sp 2).testBit 0 = true) :
    Completes (r.1 c e) s fun t =>
      x.Trapped (x.grAfter e.wide e.ra (quotientZero r.2.2.1 r.2.2.2 e.w (x.opX e))) flDIV fDz 0 (x.nextPc (formOf r.2.1) e)
        (t.ctx g) := by
  have hw : (x.wrG e.wide e.ra (quotientZero r.2.2.1 r.2.2.2 e.w (x.opX e))).gr =
      x.grAfter e.wide e.ra (quotientZero r.2.2.1 r.2.2.2 e.w (x.opX e)) := funext (Ctx.gr_wrG x e.wide e.ra _)
  rw [← hw]
  refine h.completes_trap hq (hr.exec_eq s c e) (w := fun y => y.wrG e.wide e.ra (quotientZero r.2.2.1 r.2.2.2 e.w (x.opX e))) ?_
    (Ctx.sameButGeneral_wrG x e.wide e.ra _) (by rw [Ctx.trapOf_flDIV, hm]; rfl)
  rw [hy, hr.zero e.w _ (width_pos e) (x.opX_lt e)]
  rfl

end

/-! ### The corners of R111 -/

theorem ofS_minS {w : Nat} (hw : 0 < w) : ofS w (minS w) = 2 ^ (w - 1) := by
  have hlt : 2 ^ (w - 1) < 2 ^ w := Nat.pow_lt_pow_right (by decide) (by omega)
  rw [← ofS_neg_minS hw, minS, neg_neg, ofS_natCast, Nat.mod_eq_of_lt hlt]

/-- NEG of the most negative value gives it back. -/
theorem ofS_neg_ofS_minS {w : Nat} (hw : 0 < w) : ofS w (-(ofS w (minS w) : Nat)) = ofS w (minS w) := by
  rw [ofS_minS hw]
  exact ofS_minS hw

/-- MUL of the most negative value by −1 gives it back. -/
theorem ofS_minS_mul_neg_one {w : Nat} (hw : 0 < w) : ofS w ((ofS w (minS w) : Nat) * ((2 ^ w - 1 : Nat) : Int)) = ofS w (minS w) := by
  have hsplit : ((2 ^ (w - 1) : Nat) : Int) * ((2 ^ w - 1 : Nat) : Int) = minS w + (2 ^ w : Nat) * (2 ^ (w - 1) : Nat) := by
    rw [Nat.cast_sub (Nat.two_pow_pos w), minS]
    push_cast
    ring
  rw [ofS_minS hw, hsplit, ofS, Int.add_mul_emod_self_left, ← ofS, ofS_minS hw]

/-- Settles O2: each row's operation is R111's, an instruction without a trap writes its result, and one with a trap takes it with
the result written; the corners are results of O1. -/
theorem divisionResults : Obligations.DivisionResults := by
  unfold Obligations.DivisionResults
  obtain ⟨⟨alu, unary, -⟩, -⟩ := integerResults
  refine ⟨fun r hr s c e g s1 x h => ?_, fun r hr s c e g s1 x h hq hy hm => ?_, fun s c e g s1 x =>
    ⟨fun h hb => ?neg, fun h hx hy => ?mul, fun h hx hy => ?mulh⟩⟩
  · obtain ⟨op, hop⟩ := divisionRows_divide r hr
    exact ⟨h.completes_division hop, h.completes_division_by_zero hop⟩
  · obtain ⟨op, hop⟩ := divisionRows_divide r hr
    obtain ⟨t, ht, hp⟩ := h.completes_division_trap hop hq hy hm
    refine ⟨t, ht, hp.general, hp.raises 0 ?_, hp.status, hp.finfo, hp.fpc, fun h0 => hp.halts fun hc => h0 hc.1,
      fun h0 h9 hf => hp.continues ⟨h0, h9, hf⟩⟩
    rw [BitVec.getLsbD_or, show (BitVec.ofNat 32 flDIV).getLsbD 0 = true from rfl, Bool.or_true]
  case neg =>
    obtain ⟨t, ht, hregs, -⟩ := unary (.neg, 0xE020, fun w y => ofS w (-(y : Int))) (by simp [unaryRows]) s c e g s1 x h
    refine ⟨t, ht, fun n => (hregs.general n).trans (congrArg (x.grAfter e.wide e.ra · n) ?_)⟩
    rw [hb]
    exact ofS_neg_ofS_minS (width_pos e)
  case mul =>
    obtain ⟨t, ht, hregs, -⟩ := alu (.mul, 0xE040, fun w x y => ofS w ((x : Int) * y)) (by simp [integerRows]) s c e g s1 x h
    refine ⟨t, ht, fun n => (hregs.general n).trans (congrArg (x.grAfter e.wide e.ra · n) ?_)⟩
    rw [hx, hy]
    exact ofS_minS_mul_neg_one (width_pos e)
  case mulh =>
    obtain ⟨t, ht, hregs, -⟩ := alu (.mulh, 0xE060, fun _ x y => ofS 32 (toS 32 x * toS 32 y / 2 ^ 32)) (by simp [integerRows])
      s c e g s1 x h
    refine ⟨t, ht, fun n => (hregs.general n).trans (congrArg (x.grAfter e.wide e.ra · n) ?_)⟩
    rw [hx, hy]
    change ofS 32 (toS 32 0x80000000 * toS 32 0x80000000 / 2 ^ 32) = 0x40000000
    decide

end Sys2Proof.Machine
end

section
/-! SUPPORT. O13: loads of bytes of own SRAM through the bit unit, the gather of R127 and R128, and the contact network of R129. -/

namespace Sys2Proof.Machine

/-! ### Bytes of own SRAM -/

theorem State.coreWhere_own_iff (s : State) (c a off : Nat) (task0 : Bool) :
    s.coreWhere c a task0 = .own off ↔ 0x10000000 ≤ a ∧ a < 0x10400000 ∧ off = a - 0x10000000 := by
  unfold State.coreWhere
  by_cases h : 0x10000000 ≤ a ∧ a < 0x10400000
  · rw [if_neg (by omega), if_pos h]
    simp [h, eq_comm]
  · refine ⟨fun hw => ?_, fun hw => absurd ⟨hw.1, hw.2.1⟩ h⟩
    rw [if_neg h] at hw
    repeat' split at hw
    all_goals cases hw

theorem OwnBytes.congr {s t : State} {c g a n off : Nat} (h : OwnBytes s c g a n off) (hr : s.Reads c t) : OwnBytes t c g a n off := by
  refine ⟨?_, h.room, fun i hi => ?_, ?_⟩
  · rw [State.coreWhere_own_iff]
    exact (State.coreWhere_own_iff s c a off _).1 h.own
  · have := h.drained i hi
    unfold CoreSt.buffered at this ⊢
    rwa [hr.wbuf]
  · rw [hr.eccOf]
    exact h.sound

/-- A byte of own SRAM that no store waits for and no double-bit error strikes is read through the bit unit. -/
theorem State.readPiece_own {s : State} {c g a off : Nat} (h : OwnBytes s c g a 1 off) :
    ∃ t, s.readPiece c g a 1 true = (t, .ok [s.byte (mData (strandOf c) + off)]) ∧ s.Reads c t := by
  have hb : s.bytesAt (mData (strandOf c) + off) 1 = [s.byte (mData (strandOf c) + off)] := by
    simp [State.bytesAt]
  have hecc : s.eccOf (mData (strandOf c) + off) 1 ≠ 2 := Nat.ne_of_lt h.sound
  have hread := State.reads_cacheTouch s c (off / 64 * 64) (mData (strandOf c) + off / 64 * 64) true
  unfold State.readPiece
  dsimp only
  rw [h.own]
  dsimp only
  rw [if_neg (Nat.not_lt.2 h.room)]
  generalize s.cacheTouch c (off / 64 * 64) (mData (strandOf c) + off / 64 * 64) true = p at hread ⊢
  obtain ⟨t, cached⟩ := p
  cases cached with
  | true =>
    have hgood : ((List.range 1).any fun i => t.badByte c 2 (off / 64 * 64) (mData (strandOf c) + off + i)) = false := by
      have : t.eccOf (mData (strandOf c) + off) 1 ≠ 2 := by rwa [hread.eccOf]
      simp [State.badByte, this]
    refine ⟨t, ?_, hread⟩
    simp only [if_true, hgood, Bool.false_eq_true, if_false, hb]
  | false =>
    refine ⟨s.countCorr c (mData (strandOf c) + off) 1, ?_, State.reads_countCorr s c _ 1⟩
    simp only [Bool.false_eq_true, if_false, State.coreSram, State.sramRead, if_neg hecc, hb]

/-- The byte that an address of own SRAM names for the write buffer. -/
theorem State.busKey_own {s : State} {c g a n off : Nat} (h : OwnBytes s c g a n off) :
    s.busKey c (a % 2 ^ 32) = mData (strandOf c) + off := by
  obtain ⟨hlo, hhi, hoff⟩ := (State.coreWhere_own_iff s c a off _).1 h.own
  rw [Nat.mod_eq_of_lt (by omega), State.busKey]
  rw [if_pos ⟨hlo, hhi⟩, hoff]

/-- The same byte, loaded by an instruction (R63, R92). -/
theorem State.coreLoad_own {s : State} {c g a off : Nat} (h : OwnBytes s c g a 1 off) (hcs : (s.ctx g).cs = .running) :
    ∃ t, s.coreLoad c g a 1 true = .ok t [s.byte (mData (strandOf c) + off)] false ∧ s.Reads c t := by
  obtain ⟨t, hread, hr⟩ := State.readPiece_own h
  have halign : s.alignBad c a 1 = false := by simp [State.alignBad, Nat.mod_one]
  have hbuf : (s.core c).buffered (s.busKey c (a % 2 ^ 32)) = none := by
    rw [State.busKey_own h]
    simpa using h.drained 0 Nat.one_pos
  have hstruck : s.struck s g = false := by simp [State.struck, hcs]
  have hpieces : s.readPieces c g true (pieces a 1) = .ok t [s.byte (mData (strandOf c) + off)] false := by
    simp [State.readPieces, pieces, Nat.mod_one, hread]
  refine ⟨t, ?_, hr⟩
  unfold State.coreLoad
  rw [h.own]
  simp [halign, hbuf, hstruck, hpieces, Where.isFar, -Nat.reducePow]

/-! ### Gathering -/

/-- What holds at first and is kept by each step of a fold over 0 to n − 1 holds at its end. -/
theorem foldl_range_induction {α : Type} {f : α → Nat → α} {a : α} (P : Nat → α → Prop) (n : Nat) (h0 : P 0 a)
    (hs : ∀ k < n, ∀ p, P k p → P (k + 1) (f p k)) : P n ((List.range n).foldl f a) := by
  induction n with
  | zero => exact h0
  | succ n ih =>
    rw [List.range_succ, List.foldl_append]
    exact hs n (Nat.lt_succ_self n) _ (ih fun k hk => hs k (Nat.lt_succ_of_lt hk))

/-- The number whose bit k is b k, for k below n. -/
def bitSum (b : Nat → Bool) : Nat → Nat
  | 0 => 0
  | n + 1 => bitSum b n + 2 ^ n * b2n (b n)

theorem bitSum_lt (b : Nat → Bool) (n : Nat) : bitSum b n < 2 ^ n := by
  induction n with
  | zero => exact Nat.one_pos
  | succ n ih =>
    have : b2n (b n) ≤ 1 := by unfold b2n; split <;> decide
    calc bitSum b n + 2 ^ n * b2n (b n) < 2 ^ n + 2 ^ n * 1 := Nat.add_lt_add_of_lt_of_le ih (Nat.mul_le_mul_left _ this)
      _ = 2 ^ (n + 1) := by ring

theorem testBit_bitSum (b : Nat → Bool) {n i : Nat} (hi : i < n) : (bitSum b n).testBit i = b i := by
  induction n with
  | zero => omega
  | succ n ih =>
    rw [bitSum, Nat.add_comm, Nat.testBit_two_pow_mul_add _ (bitSum_lt b n)]
    split
    · exact ih ‹_›
    · rw [show i = n by omega, Nat.sub_self]
      unfold b2n
      cases b n <;> rfl

/-- The bit that entry k of a descriptor names (R127): 0 where it is not VALID, and else bit BIT of the byte at the offset that off gives
for the entry in the core's own data SRAM. -/
def State.entryBit (s : State) (c : Nat) (d : List Byte) (off : Nat → Nat) (k : Nat) : Bool :=
  (leAt d (2 * k) 2).testBit 15 && (s.byte (mData (strandOf c) + off k)).toNat.testBit (leAt d (2 * k) 2 % 8)

/-- A gather that has come to entry k (R127): no fault and no wait so far, the bits of the entries before it, and state s but for what
their reads leave. -/
def State.Gathered (s : State) (c : Nat) (d : List Byte) (off : Nat → Nat) (k : Nat) (p : LdAns × Nat) : Prop :=
  ∃ t b far, p = (LdAns.ok t b far, bitSum (s.entryBit c d off) k) ∧ s.Reads c t

/-- A gather whose valid entries name bytes of own SRAM gives their bits (R127, R128). -/
theorem State.gather_own {s : State} {c g base : Nat} {d : List Byte} {off : Nat → Nat} (hcs : (s.ctx g).cs = .running)
    (h : ∀ k < 8, (leAt d (2 * k) 2).testBit 15 = true → OwnBytes s c g ((base + leAt d (2 * k) 2 % 2 ^ 15 / 8) % 2 ^ 32) 1 (off k)) :
    s.Gathered c d off 8 (s.gather c g base d) := by
  unfold State.gather
  refine foldl_range_induction (s.Gathered c d off) 8 ⟨s, [], false, rfl, .refl s c⟩ ?_
  rintro k hk _ ⟨t, b, far, rfl, hr⟩
  dsimp only
  split
  · rename_i hv
    have hbit : s.entryBit c d off k = false := by
      rw [State.entryBit, show (leAt d (2 * k) 2).testBit 15 = false from hv, Bool.false_and]
    exact ⟨t, b, far, by rw [bitSum, hbit]; rfl, hr⟩
  · rename_i hv
    have hvalid : (leAt d (2 * k) 2).testBit 15 = true := by simpa [bit] using hv
    have hoffset : bits (leAt d (2 * k) 2) 14 3 = leAt d (2 * k) 2 % 2 ^ 15 / 8 := by
      unfold bits
      omega
    obtain ⟨u, hu, hru⟩ := State.coreLoad_own ((h k hk hvalid).congr hr) (by rw [hr.ctx]; exact hcs)
    rw [hoffset, hu]
    refine ⟨u, [], false, ?_, hr.trans hru⟩
    rw [bitSum, State.entryBit, hvalid, hr.byte]
    rfl

/-! ### A byte lane of a register -/

/-- A byte put into lane l of a register: that lane holds it, and the others are as they were. -/
theorem getLsbD_lane {old v l i : Nat} (hv : v < 2 ^ 8) (hi : i < 32) :
    (BitVec.ofNat 32 (old - bits old (8 * l + 7) (8 * l) * 2 ^ (8 * l) + v * 2 ^ (8 * l))).getLsbD i =
      if i / 8 = l then v.testBit (i % 8) else old.testBit i := by
  set p := 2 ^ (8 * l) with hp
  have hlow : old % p < p := Nat.mod_lt _ (Nat.two_pow_pos _)
  have hold : p * (2 ^ 8 * (old / p / 2 ^ 8) + old / p % 2 ^ 8) + old % p = old := by
    rw [Nat.div_add_mod, Nat.div_add_mod]
  have hbits : bits old (8 * l + 7) (8 * l) = old / p % 2 ^ 8 := by
    unfold bits
    rw [show 8 * l + 7 + 1 - 8 * l = 8 by omega]
  have hnew : old - bits old (8 * l + 7) (8 * l) * p + v * p = p * (2 ^ 8 * (old / p / 2 ^ 8) + v) + old % p := by
    rw [hbits]
    generalize old / p / 2 ^ 8 = q, old / p % 2 ^ 8 = m, old % p = lo at hold
    rw [← hold, show p * (2 ^ 8 * q + m) + lo = p * (2 ^ 8 * q) + lo + m * p by ring, Nat.add_sub_cancel]
    ring
  rw [BitVec.getLsbD_ofNat, hnew, decide_eq_true hi, Bool.true_and, hp, Nat.testBit_two_pow_mul_add _ hlow]
  by_cases hl : i / 8 = l
  · rw [if_neg (by omega), if_pos hl, Nat.testBit_two_pow_mul_add _ hv, if_pos (by omega), show i - 8 * l = i % 8 by omega]
  · rw [if_neg hl]
    conv_rhs => rw [← hold, hp, Nat.testBit_two_pow_mul_add _ hlow]
    split
    · rfl
    · have h8 : ¬ i - 8 * l < 8 := by omega
      rw [Nat.testBit_two_pow_mul_add _ hv, Nat.testBit_two_pow_mul_add _ (Nat.mod_lt _ (by decide)), if_neg h8, if_neg h8]

/-! ### The two instructions -/

/-- Settles O13: RUNG's table is read over the fetch path and its result is the network's; GATB's bytes are read one by one from own
SRAM, and its lane alone changes. -/
theorem gatherAndRung : Obligations.GatherAndRung := by
  unfold Obligations.GatherAndRung
  refine ⟨fun s c e g s1 s2 x d h hd => ?_, fun s c e g s1 s2 x d off h hd hown => ?_⟩
  · have hr : s1.Reads c s2 := by
      have := State.reads_fetchBytes s1 c (tableAt (x.nextPc (formOf 0xEA20) e) 8 16 e.imm) 8
      rwa [hd] at this
    set v := if rungEval (leAt d 0 4) (leAt d 4 4) (x.gr e.rb).toNat (decide (x.gr e.ra ≠ 0)) then 1 else 0 with hv
    obtain ⟨t, ht, hregs, -, hpc⟩ := h.completes_write (i := .rung c e) rfl hr (w := fun y => y.setG e.ra (BitVec.ofNat 32 v))
      (raised := 0) (by dsimp only; rw [hd]; rfl) (Ctx.sameButGeneral_setG x _ _) x.trapOf_zero
    exact ⟨t, ht, fun n => (hregs.general n).trans (Ctx.gr_setG_eq_grAfter x _ _ n), hregs.memory, hpc⟩
  · have hr : s1.Reads c s2 := by
      have := State.reads_fetchBytes s1 c (tableAt (x.nextPc (formOf 0xEA00) e) 16 14 e.imm) 16
      rwa [hd] at this
    have hcs : (s2.ctx g).cs = .running := by
      rw [hr.ctx, h.ctx_self]
      exact h.cs_running
    obtain ⟨u, b, far, hu, hru⟩ := State.gather_own hcs fun k hk hv => (hown k hk hv).congr hr
    set v := bitSum (s2.entryBit c d off) 8 with hv
    set l := bits e.imm 15 14 with hl
    set w := BitVec.ofNat 32 ((x.gr e.ra).toNat - bits (x.gr e.ra).toNat (8 * l + 7) (8 * l) * 2 ^ (8 * l) + v * 2 ^ (8 * l)) with hw
    obtain ⟨t, ht, hregs, -, hpc⟩ := h.completes_write (i := .gatb c e) rfl (hr.trans hru) (w := fun y => y.setG e.ra w) (raised := 0)
      (by dsimp only; rw [hd]; dsimp only; rw [hu]) (Ctx.sameButGeneral_setG x _ _) x.trapOf_zero
    refine ⟨t, ht, fun n hn => ?_, fun i hi h0 => ?_, hregs.memory, hpc⟩
    · rw [hregs.general, Ctx.gr_setG, if_neg hn]
      split
      · rename_i hz
        rw [hz]
        rfl
      · rfl
    · rw [hregs.general, Ctx.gr_setG, if_neg h0, if_pos rfl, hw, getLsbD_lane (bitSum_lt _ 8) hi,
        testBit_bitSum _ (Nat.mod_lt i (by decide)), State.entryBit, hr.byte, h.byte]
      rfl

end Sys2Proof.Machine
end

section
/-! SUPPORT. Numbers as little-endian bytes and back, and bytes of memory after a store (R5): O56. -/

namespace Sys2Proof.Machine

@[simp] theorem length_leBytes (n v : Nat) : (leBytes n v).length = n := by
  induction n generalizing v with
  | zero => rfl
  | succ n ih => rw [leBytes, List.length_cons, ih]

/-- A number stored in n bytes reads as its n low bytes. -/
theorem leNat_leBytes (n v : Nat) : leNat (leBytes n v) = v % 256 ^ n := by
  induction n generalizing v with
  | zero => rw [Nat.pow_zero, Nat.mod_one]; rfl
  | succ n ih =>
    rw [leBytes, leNat, ih, BitVec.toNat_ofNat, Nat.pow_succ' (m := 256), Nat.mod_mul (x := v)]

theorem getD_leBytes {n i : Nat} (v : Nat) (d : Byte) (h : i < n) : (leBytes n v).getD i d = BitVec.ofNat 8 (v / 256 ^ i) := by
  induction n generalizing v i with
  | zero => omega
  | succ n ih =>
    cases i with
    | zero => rw [Nat.pow_zero, Nat.div_one]; rfl
    | succ i => rw [leBytes, List.getD_cons_succ, ih _ (by omega), Nat.div_div_eq_div_mul, Nat.pow_succ']

theorem getElem?_leBytes (n v i : Nat) : (leBytes n v)[i]? = if i < n then some (BitVec.ofNat 8 (v / 256 ^ i)) else none := by
  split
  · rename_i h
    rw [← getD_leBytes v 0 h, List.getD_eq_getElem?_getD, List.getElem?_eq_getElem (by rwa [length_leBytes])]
    rfl
  · rw [List.getElem?_eq_none (by rw [length_leBytes]; omega)]

/-- The bytes between a head and a tail are the slice at the head's length. -/
theorem slice_middle (a b c : List Byte) : slice (a ++ b ++ c) a.length b.length = b := by
  unfold slice
  rw [List.append_assoc, List.drop_left, List.take_left]
  simp

theorem leAt_middle (a c : List Byte) (n v : Nat) : leAt (a ++ leBytes n v ++ c) a.length n = v % 256 ^ n := by
  have := slice_middle a (leBytes n v) c
  rw [length_leBytes] at this
  rw [leAt, this, leNat_leBytes]

/-! ### Memory -/

/-- Bytes stored from an address on are read back there, and every other byte reads as before. -/
theorem State.byte_putBytes (s : State) (a : Nat) (b : List Byte) (k : Nat) :
    (s.putBytes a b).byte k = if a ≤ k ∧ k < a + b.length then b.getD (k - a) 0 else s.byte k := by
  induction b generalizing s a with
  | nil => rw [if_neg (by simp only [List.length_nil]; omega)]; rfl
  | cons c t ih =>
    rw [State.putBytes, ih, State.byte_setByte, List.length_cons]
    by_cases hk : k = a
    · subst hk
      rw [if_neg (by omega), if_pos rfl, if_pos (by omega), Nat.sub_self, List.getD_cons_zero]
    · rw [if_neg hk]
      by_cases h : a + 1 ≤ k ∧ k < a + 1 + t.length
      · rw [if_pos h, if_pos (by omega), show k - a = (k - (a + 1)) + 1 by omega, List.getD_cons_succ]
      · rw [if_neg h, if_neg (by omega)]

@[simp] theorem State.length_bytesAt (s : State) (a n : Nat) : (s.bytesAt a n).length = n := by
  unfold State.bytesAt
  rw [List.length_map, List.length_range]

theorem State.getElem?_bytesAt (s : State) (a n i : Nat) : (s.bytesAt a n)[i]? = if i < n then some (s.byte (a + i)) else none := by
  unfold State.bytesAt
  rw [List.getElem?_map]
  split
  · rw [List.getElem?_range ‹_›]; rfl
  · rw [List.getElem?_eq_none (by rw [List.length_range]; omega)]; rfl

theorem State.bytesAt_congr {s t : State} {a b n : Nat} (h : ∀ i < n, t.byte (b + i) = s.byte (a + i)) : t.bytesAt b n = s.bytesAt a n := by
  unfold State.bytesAt
  exact List.map_congr_left fun i hi => h i (List.mem_range.1 hi)

/-- The bytes just stored, as a list. -/
theorem State.bytesAt_putBytes (s : State) (a : Nat) (b : List Byte) : (s.putBytes a b).bytesAt a b.length = b := by
  refine List.ext_getElem? fun i => ?_
  rw [State.getElem?_bytesAt]
  split
  · rw [State.byte_putBytes, if_pos (by omega), Nat.add_sub_cancel_left, List.getD_eq_getElem?_getD,
      List.getElem?_eq_getElem ‹_›]
    rfl
  · rw [List.getElem?_eq_none (by omega)]

theorem State.rd_wr (s : State) (a n v : Nat) : (s.wr a n v).rd a n = v % 256 ^ n := by
  have h := State.bytesAt_putBytes s a (leBytes n v)
  rw [length_leBytes] at h
  rw [State.rd, State.wr, h, leNat_leBytes]

/-- Settles O56. -/
theorem memoryReadAfterWrite : Obligations.MemoryReadAfterWrite := by
  unfold Obligations.MemoryReadAfterWrite
  exact ⟨State.byte_putBytes, State.rd_wr⟩

end Sys2Proof.Machine
end

section
/-! SUPPORT. O4: the bytes of a legal encoding are read back (R75, R78, R79). -/

namespace Sys2Proof.Machine

/-! ### What legality says of the fields -/

theorem pfxClass_range {b : Nat} (h : (pfxClass b).isSome = true) : 0xF0 ≤ b ∧ b < 256 := by
  unfold pfxClass at h
  repeat' split at h
  all_goals first | omega | cases h

theorem Use.lt_of_ok {u : Use} {pair : Bool} {r : Nat} (h : u.ok pair r = true) : r < 32 := by
  cases u <;> simp [Use.ok] at h <;> omega

/-- The ranges of a legal encoding's fields: prefixes are prefix bytes, registers have five bits, and the mode is one of the form's. -/
structure Form.Ranges (f : Form) (e : Enc) : Prop where
  prefixes : ∀ b ∈ e.pfx, 0xF0 ≤ b ∧ b < 256
  mode : e.am ∈ f.ams
  ra : e.ra < 32
  rb : e.rb < 32

theorem Form.ranges_of_legal {f : Form} {e : Enc} (h : f.legal e = true) : f.Ranges e := by
  unfold Form.legal at h
  simp only [Bool.and_eq_true, decide_eq_true_eq] at h
  obtain ⟨⟨⟨⟨⟨⟨hpfx, ham⟩, hra⟩, hrb⟩, -⟩, -⟩, -⟩ := h
  unfold Form.pfxOk at hpfx
  simp only [Bool.and_eq_true, List.all_eq_true, List.mem_map] at hpfx
  obtain ⟨⟨⟨⟨hall, -⟩, -⟩, -⟩, -⟩ := hpfx
  refine ⟨fun b hb => pfxClass_range (hall _ ⟨b, hb, rfl⟩), by simpa using ham, Use.lt_of_ok hra, ?_⟩
  repeat' split at hrb
  · simpa using hrb
  · exact Use.lt_of_ok hrb
  · exact Use.lt_of_ok hrb

/-! ### The opcode -/

/-- An opcode of the table: one byte below 0xE0, or two, with the five bits of rb 0 (R78). -/
def OpOk (op : Nat) : Prop := (op < 0xE0 ∨ 0xE000 ≤ op ∧ op < 0xED00) ∧ op % 32 = 0

/-- The bytes of an opcode with its rb. -/
def opBytes (op rb : Nat) : List Byte :=
  if op < 256 then [BitVec.ofNat 8 (op + rb)] else [BitVec.ofNat 8 (op / 256), BitVec.ofNat 8 (op % 256 + rb)]

theorem opOf_opBytes {op rb : Nat} (h : OpOk op) (hrb : rb < 32) (t : List Byte) : opOf (opBytes op rb ++ t) = (op, rb, t) := by
  obtain ⟨hop, h32⟩ := h
  unfold opBytes
  rcases hop with h1 | h1
  · rw [if_pos (by omega)]
    have hb : (BitVec.ofNat 8 (op + rb)).toNat = op + rb := by
      rw [BitVec.toNat_ofNat]
      omega
    simp only [List.cons_append, List.nil_append, opOf, hb]
    rw [if_pos (by omega), show (op + rb) / 32 * 32 = op by omega, show (op + rb) % 32 = rb by omega]
  · rw [if_neg (by omega)]
    have ha : (BitVec.ofNat 8 (op / 256)).toNat = op / 256 := by
      rw [BitVec.toNat_ofNat]
      omega
    have hb : (BitVec.ofNat 8 (op % 256 + rb)).toNat = op % 256 + rb := by
      rw [BitVec.toNat_ofNat]
      omega
    simp only [List.cons_append, List.nil_append, opOf, ha, List.headD_cons, List.tail_cons, hb]
    rw [if_neg (by omega), show op / 256 * 256 + (op % 256 + rb) / 32 * 32 = op by omega, show (op % 256 + rb) % 32 = rb by omega]

theorem opBytes_head {op : Nat} (h : OpOk op) {rb : Nat} (hrb : rb < 32) : ∃ b t, opBytes op rb = b :: t ∧ b.toNat < 0xF0 := by
  obtain ⟨hop, h32⟩ := h
  unfold opBytes
  split
  · refine ⟨_, _, rfl, ?_⟩
    rw [BitVec.toNat_ofNat]
    omega
  · refine ⟨_, _, rfl, ?_⟩
    rw [BitVec.toNat_ofNat]
    omega

/-- Prefix bytes end where the opcode begins (R76). -/
theorem takeWhile_prefixes {p : List Nat} (hp : ∀ b ∈ p, 0xF0 ≤ b ∧ b < 256) {b : Byte} (hb : b.toNat < 0xF0) (t : List Byte) :
    ((p.map (BitVec.ofNat 8) ++ b :: t).takeWhile fun b => decide (0xF0 ≤ b.toNat)).map BitVec.toNat = p := by
  induction p with
  | nil =>
    rw [List.map_nil, List.nil_append, List.takeWhile_cons_of_neg (by simpa using hb)]
    rfl
  | cons a p ih =>
    have ha := hp a (by simp)
    have hval : (BitVec.ofNat 8 a).toNat = a := by rw [BitVec.toNat_ofNat]; omega
    rw [List.map_cons, List.cons_append, List.takeWhile_cons_of_pos (by rw [hval]; simpa using ha.1), List.map_cons, hval,
      ih fun c hc => hp c (by simp [hc])]

theorem coreRows_forms : ∀ r ∈ coreRows, OpOk r.2 ∧ ∀ a ∈ (formOf r.2).ams, a < 8 := by
  unfold OpOk
  decide

/-! ### The whole instruction -/

theorem Form.bytes_eq (f : Form) (e : Enc) : f.bytes e = e.pfx.map (BitVec.ofNat 8) ++
    (opBytes f.op e.rb ++ ([BitVec.ofNat 8 (8 * e.ra + e.am)] ++ leBytes (dispLen e.am) e.disp ++ leBytes (f.immLen e.am) e.imm)) := by
  unfold Form.bytes opBytes
  simp only [List.append_assoc]

theorem Form.length_bytes (f : Form) (e : Enc) : (f.bytes e).length = f.length e := by
  rw [Form.bytes_eq]
  unfold opBytes Form.length
  split <;> simp only [List.length_append, List.length_map, List.length_cons, List.length_nil, length_leBytes] <;> omega

/-- Bytes that begin with a legal encoding are read as it, whatever follows. -/
theorem parse_bytes {op : Nat} {e : Enc} (hop : OpOk op) (hf : (formOf op).Ranges e) (ham : e.am < 8)
    (hd : e.disp < 256 ^ dispLen e.am) (hi : e.imm < 256 ^ (formOf op).immLen e.am) (l : List Byte) :
    parse ((formOf op).bytes e ++ l) = (formOf op, e) := by
  have hra := hf.ra
  set rest := [BitVec.ofNat 8 (8 * e.ra + e.am)] ++ leBytes (dispLen e.am) e.disp ++ leBytes ((formOf op).immLen e.am) e.imm with hrest
  obtain ⟨b, t, hb, hb0⟩ := opBytes_head hop hf.rb
  have hall : (formOf op).bytes e ++ l = e.pfx.map (BitVec.ofNat 8) ++ b :: (t ++ (rest ++ l)) := by
    rw [Form.bytes_eq, show (formOf op).op = op from rfl, hb]
    simp only [hrest, List.append_assoc, List.cons_append]
  have hpfx := takeWhile_prefixes hf.prefixes hb0 (t ++ (rest ++ l))
  have hdrop : (e.pfx.map (BitVec.ofNat 8) ++ b :: (t ++ (rest ++ l))).drop e.pfx.length = opBytes op e.rb ++ (rest ++ l) := by
    rw [List.drop_left' (List.length_map ..), hb]
    rfl
  have hhead : ((rest ++ l).headD 0).toNat = 8 * e.ra + e.am := by
    change (BitVec.ofNat 8 (8 * e.ra + e.am)).toNat = _
    rw [BitVec.toNat_ofNat]
    omega
  have hdisp : leAt (rest ++ l) 1 (dispLen e.am) = e.disp := by
    have := leAt_middle [BitVec.ofNat 8 (8 * e.ra + e.am)] (leBytes ((formOf op).immLen e.am) e.imm ++ l) (dispLen e.am) e.disp
    rw [Nat.mod_eq_of_lt hd] at this
    rw [hrest, List.append_assoc]
    exact this
  have himm : leAt (rest ++ l) (1 + dispLen e.am) ((formOf op).immLen e.am) = e.imm := by
    have := leAt_middle ([BitVec.ofNat 8 (8 * e.ra + e.am)] ++ leBytes (dispLen e.am) e.disp) l ((formOf op).immLen e.am) e.imm
    rw [Nat.mod_eq_of_lt hi, List.length_append, length_leBytes] at this
    exact this
  unfold parse
  dsimp only
  rw [hall, hpfx, hdrop, opOf_opBytes hop hf.rb]
  dsimp only
  rw [hhead, show (8 * e.ra + e.am) % 8 = e.am by omega, show (8 * e.ra + e.am) / 8 = e.ra by omega, hdisp, himm]

/-- Settles O4: prefixes end at the opcode, the opcode gives the form, and the form gives the lengths of the rest. -/
theorem encodingsReadBack : Obligations.EncodingsReadBack := by
  unfold Obligations.EncodingsReadBack
  intro r hr e l hlegal hd hi
  obtain ⟨hop, hams⟩ := coreRows_forms r hr
  have hf := Form.ranges_of_legal hlegal
  exact ⟨parse_bytes hop hf (hams _ hf.mode) hd hi l, Form.length_bytes _ _⟩

end Sys2Proof.Machine
end

section
/-! SUPPORT. The passing of time (R301, R305, R207): what it changes of the clock, and what it leaves alone. -/

namespace Sys2Proof.Machine

theorem State.ob_addOb (s : State) (k n j : Nat) : (s.addOb k n).ob j = if j = k then (s.ob k + n) % 2 ^ 64 else s.ob j :=
  State.ob_setOb _ _ _ _

theorem State.ob_addOb_self (s : State) (k n : Nat) : (s.addOb k n).ob k = (s.ob k + n) % 2 ^ 64 := (s.ob_addOb k n k).trans (if_pos rfl)

theorem State.ob_addOb_ne (s : State) {k j : Nat} (n : Nat) (h : j ≠ k) : (s.addOb k n).ob j = s.ob j := (s.ob_addOb k n j).trans (if_neg h)

theorem State.ob_incOb_self (s : State) (k : Nat) : (s.incOb k).ob k = (s.ob k + 1) % 2 ^ 64 := s.ob_addOb_self k 1

theorem State.ob_incOb_ne (s : State) {k j : Nat} (h : j ≠ k) : (s.incOb k).ob j = s.ob j := s.ob_addOb_ne 1 h

theorem State.ob_setOb_self (s : State) (k v : Nat) : (s.setOb k v).ob k = v := (s.ob_setOb k v k).trans (if_pos rfl)

theorem State.ob_setOb_ne (s : State) {k j : Nat} (v : Nat) (h : j ≠ k) : (s.setOb k v).ob j = s.ob j :=
  (s.ob_setOb k v j).trans (if_neg h)

/-- The objects that count while time passes: NTM.STEPS and the threshold counters (R305, R497). -/
def timeKey (k : Nat) : Bool := decide (k = K.NTM_STEPS) || (decide (K.PMC_THR 1 ≤ k) && decide (k ≤ K.PMC_THR 16))

/-- What the passing of time can change: the clock, the objects that count, and the draws of free values. -/
structure State.Passes (s t : State) : Prop where
  frame : t = { s with ntm := t.ntm, objs := t.objs, fresh := t.fresh }
  objects : ∀ k, timeKey k = false → t.ob k = s.ob k
  queues : t.ntm.rx = s.ntm.rx ∧ t.ntm.stamps = s.ntm.stamps
  dies : t.ntm.die = s.ntm.die ∧ t.ntm.tok = s.ntm.tok
  usec : s.us ≤ t.us

theorem State.Passes.refl (s : State) : s.Passes s := ⟨rfl, fun _ _ => rfl, ⟨rfl, rfl⟩, ⟨rfl, rfl⟩, Nat.le_refl _⟩

theorem State.Passes.trans {s t u : State} (h : s.Passes t) (k : t.Passes u) : s.Passes u := by
  refine ⟨?_, fun n hn => (k.objects n hn).trans (h.objects n hn), ⟨k.queues.1.trans h.queues.1, k.queues.2.trans h.queues.2⟩,
    ⟨k.dies.1.trans h.dies.1, k.dies.2.trans h.dies.2⟩, h.usec.trans k.usec⟩
  rw [k.frame, h.frame]

theorem State.Passes.each {α : Type} {s : State} (l : List α) {f : State → α → State} (hf : ∀ (u : State) a, a ∈ l → u.Passes (f u a)) :
    s.Passes (s.each l f) := by
  unfold State.each
  induction l generalizing s with
  | nil => exact .refl s
  | cons a t ih => exact (hf s a (by simp)).trans (ih fun u b hb => hf u b (by simp [hb]))

/-- A counter that counts while time passes. -/
theorem State.passes_addOb (s : State) {k : Nat} (hk : timeKey k = true) (n : Nat) : s.Passes (s.addOb k n) := by
  refine ⟨rfl, fun j hj => ?_, ⟨rfl, rfl⟩, ⟨rfl, rfl⟩, Nat.le_refl _⟩
  rw [State.addOb, State.ob_setOb, if_neg]
  rintro rfl
  rw [hk] at hj
  cases hj

theorem State.passes_draw (s : State) : s.Passes s.draw := ⟨rfl, fun _ _ => rfl, ⟨rfl, rfl⟩, ⟨rfl, rfl⟩, Nat.le_refl _⟩

theorem State.passes_thrCount (s : State) (m0 m1 : Nat) {n : Nat} (h1 : 1 ≤ n) (h2 : n ≤ 16) :
    s.Passes (s.thrCount m0 m1 n) ∧ (s.thrCount m0 m1 n).ntm = s.ntm := by
  have hk : timeKey (K.PMC_THR n) = true := by
    unfold timeKey K.PMC_THR
    simp only [Bool.or_eq_true, Bool.and_eq_true, decide_eq_true_eq]
    omega
  unfold State.thrCount
  extract_lets cfg src target f clocks
  split
  · split
    · split
      · exact ⟨.refl s, rfl⟩
      · exact ⟨s.passes_draw.trans (s.draw.passes_addOb hk _), rfl⟩
    · split
      · exact ⟨s.passes_addOb hk _, rfl⟩
      · exact ⟨.refl s, rfl⟩
  · exact ⟨.refl s, rfl⟩

theorem State.each_thrCount (l : List Nat) (hl : ∀ n ∈ l, 1 ≤ n ∧ n ≤ 16) (s : State) (m : Nat) :
    s.Passes (s.each l fun s n => s.thrCount s.ntm.mono m n) ∧ (s.each l fun s n => s.thrCount s.ntm.mono m n).ntm = s.ntm := by
  unfold State.each
  induction l generalizing s with
  | nil => exact ⟨.refl s, rfl⟩
  | cons a t ih =>
    obtain ⟨h1, h2⟩ := s.passes_thrCount s.ntm.mono m (hl a (by simp)).1 (hl a (by simp)).2
    obtain ⟨h3, h4⟩ := ih (fun n hn => hl n (by simp [hn])) (s.thrCount s.ntm.mono m a)
    exact ⟨h1.trans h3, h4.trans h2⟩

/-- Elapsed time changes elapsed time alone, beside the threshold counters. -/
theorem State.passes_elapse (s : State) (m : Nat) : s.Passes (s.elapse m) ∧ (s.elapse m).ntm = { s.ntm with mono := m } := by
  unfold State.elapse
  obtain ⟨hp, hn⟩ := State.each_thrCount ((List.range 16).map (· + 1)) (by decide) s m
  generalize (s.each ((List.range 16).map (· + 1)) fun s n => s.thrCount s.ntm.mono m n) = t at hp hn
  refine ⟨hp.trans ⟨rfl, fun _ _ => rfl, ⟨rfl, rfl⟩, ⟨rfl, rfl⟩, Nat.le_refl _⟩, ?_⟩
  dsimp only
  rw [hn]

theorem State.clockNs_setNs (s : State) (n : Nat) : (s.setNs n).clockNs = n % nsWrap := by
  unfold State.setNs State.clockNs
  dsimp only
  omega

theorem State.setNs_ntm (s : State) (n : Nat) : (s.setNs n).ntm = { s.ntm with
    sec := n % nsWrap / 1000000000, nsec := n % nsWrap % 1000000000, usec := Nat.max s.ntm.usec (n % nsWrap / 1000) } := rfl

theorem State.passes_setNs (s : State) (n : Nat) : s.Passes (s.setNs n) :=
  ⟨rfl, fun _ _ => rfl, ⟨rfl, rfl⟩, ⟨rfl, rfl⟩, Nat.le_max_left _ _⟩

theorem State.passes_advance (s : State) (dt : Nat) : s.Passes (s.advance dt) :=
  (s.passes_setNs _).trans (State.passes_elapse _ _).1

theorem State.clockNs_of_ntm {s t : State} (h : t.ntm.sec = s.ntm.sec ∧ t.ntm.nsec = s.ntm.nsec) : t.clockNs = s.clockNs := by
  unfold State.clockNs
  rw [h.1, h.2]

theorem State.clockNs_advance (s : State) (dt : Nat) : (s.advance dt).clockNs = (s.clockNs + dt) % nsWrap := by
  unfold State.advance
  rw [State.clockNs_of_ntm (s := s.setNs (s.clockNs + dt)), State.clockNs_setNs]
  rw [(State.passes_elapse _ _).2]
  exact ⟨rfl, rfl⟩

theorem State.mono_advance (s : State) (dt : Nat) : (s.advance dt).ntm.mono = s.ntm.mono + dt := by
  unfold State.advance
  rw [(State.passes_elapse _ _).2]

theorem State.us_advance (s : State) (dt : Nat) : (s.advance dt).us = Nat.max s.us ((s.clockNs + dt) % nsWrap / 1000) := by
  unfold State.advance State.us
  rw [(State.passes_elapse _ _).2, State.setNs_ntm]

theorem State.steps_advance (s : State) (dt : Nat) : (s.advance dt).ntm.steps = s.ntm.steps := by
  unfold State.advance
  rw [(State.passes_elapse _ _).2, State.setNs_ntm]

/-! ### Steps of the clock -/

theorem State.passes_gateNow (s : State) (p : Nat) : s.Passes (s.gateNow p) ∧
    (s.gateNow p).ntm = { s.ntm with gates := (s.gateNow p).ntm.gates } := ⟨⟨rfl, fun _ _ => rfl, ⟨rfl, rfl⟩, ⟨rfl, rfl⟩, Nat.le_refl _⟩, rfl⟩

theorem State.passes_gatesNow (s : State) : s.Passes s.gatesNow ∧
    s.gatesNow.ntm = { s.ntm with gates := s.gatesNow.ntm.gates } ∧ s.gatesNow.objs = s.objs := by
  unfold State.gatesNow State.each
  generalize s.ntm.gates.map Prod.fst = l
  induction l generalizing s with
  | nil => exact ⟨.refl s, rfl, rfl⟩
  | cons p t ih =>
    obtain ⟨h1, h2⟩ := s.passes_gateNow p
    obtain ⟨h3, h4, h5⟩ := ih (s.gateNow p)
    refine ⟨h1.trans h3, ?_, h5⟩
    rw [List.foldl_cons, h4, h2]

theorem State.passes_stepTime (s : State) (d : Int) : s.Passes (s.stepTime d) :=
  (s.passes_setNs _).trans (State.passes_addOb _ (by decide) 1)

theorem State.passes_takeSteps (s : State) : s.Passes s.takeSteps := by
  unfold State.takeSteps
  split
  · exact .refl s
  · have h0 : s.Passes (s.setNtm fun n => { n with steps := [] }) := ⟨rfl, fun _ _ => rfl, ⟨rfl, rfl⟩, ⟨rfl, rfl⟩, Nat.le_refl _⟩
    exact (h0.trans (.each _ fun u v _ => u.passes_stepTime _)).trans (State.passes_gatesNow _).1

/-- The state of a tick before the accepted steps are added. -/
def State.ticked (s : State) : State :=
  let f := s.ntm.frac + s.ob K.NTM_INCR
  ((s.setNs (s.clockNs + f / 2 ^ 32)).elapse (s.ntm.mono + 4)).setNtm fun n => { n with frac := f % 2 ^ 32 }

theorem State.tick_eq (s : State) : s.tick = s.ticked.takeSteps := rfl

theorem State.passes_ticked (s : State) : s.Passes s.ticked := by
  refine ((s.passes_setNs (s.clockNs + (s.ntm.frac + s.ob K.NTM_INCR) / 2 ^ 32)).trans
    (State.passes_elapse _ (s.ntm.mono + 4)).1).trans ?_
  exact ⟨rfl, fun _ _ => rfl, ⟨rfl, rfl⟩, ⟨rfl, rfl⟩, Nat.le_refl _⟩

theorem State.passes_tick (s : State) : s.Passes s.tick := by
  rw [State.tick_eq]
  exact s.passes_ticked.trans (State.passes_takeSteps _)

theorem State.passes_begin (s : State) : s.Passes s.begin_ := by
  unfold State.begin_
  split
  · exact .refl s
  · exact s.passes_tick

/-- Moving on to an instant of network time leaves everything but time. -/
theorem State.passes_reach (s : State) (t : Nat) : s.Passes (s.reach t) := by
  unfold State.reach
  split
  · dsimp only
    split
    · exact s.passes_begin.trans (State.passes_advance _ _)
    · exact s.passes_begin
  · exact .refl s

/-- Moving on to an instant of elapsed time leaves everything but time, and gets there. -/
theorem State.passes_reachMono (s : State) (t : Nat) : s.Passes (s.reachMono t) := by
  unfold State.reachMono
  split
  · dsimp only
    split
    · exact s.passes_begin.trans (State.passes_advance _ _)
    · exact s.passes_begin
  · exact .refl s

theorem State.le_mono_reachMono (s : State) (t : Nat) : t ≤ (s.reachMono t).ntm.mono := by
  unfold State.reachMono
  split
  · dsimp only
    split
    · rw [State.mono_advance]
      omega
    · omega
  · omega

theorem State.begin_of_nil {s : State} (h : s.ntm.steps = []) : s.begin_ = s := by
  unfold State.begin_
  rw [h]
  rfl

/-- With no step waiting and no wrap ahead, an instant to come is reached exactly (R301). -/
theorem State.clockNs_reach {s : State} {t : Nat} (h : s.ntm.steps = []) (ht : s.ns < t) (hw : s.clockNs + (t - s.ns) < nsWrap) :
    (s.reach t).clockNs = s.clockNs + (t - s.ns) := by
  unfold State.reach
  rw [if_pos ht]
  dsimp only
  rw [State.begin_of_nil h, if_pos ht, State.clockNs_advance, Nat.mod_eq_of_lt hw]

theorem State.ns_reach {s : State} {t : Nat} (h : s.ntm.steps = []) (ht : s.ns < t) (ht64 : t < 2 ^ 64)
    (hw : s.clockNs + (t - s.ns) < nsWrap) : (s.reach t).ns = t := by
  rw [State.ns, State.clockNs_reach h ht hw]
  unfold State.ns at *
  omega

theorem State.reach_of_le {s : State} {t : Nat} (ht : t ≤ s.ns) : s.reach t = s := by
  unfold State.reach
  rw [if_neg (by omega)]

/-- The same instant is reached whether it is to come or has passed. -/
theorem State.le_ns_reach {s : State} {t : Nat} (h : s.ntm.steps = []) (ht64 : t < 2 ^ 64) (hw : s.clockNs + (t - s.ns) < nsWrap) :
    t ≤ (s.reach t).ns := by
  by_cases ht : s.ns < t
  · rw [State.ns_reach h ht ht64 hw]
  · rw [State.reach_of_le (by omega)]
    omega

theorem State.reach_of_nil {s : State} (h : s.ntm.steps = []) (t : Nat) :
    s.reach t = if s.ns < t then s.advance (t - s.ns) else s := by
  unfold State.reach
  rw [State.begin_of_nil h]
  by_cases ht : s.ns < t
  · simp only [if_pos ht]
  · simp only [if_neg ht]

theorem State.steps_reach {s : State} (t : Nat) (h : s.ntm.steps = []) : (s.reach t).ntm.steps = [] := by
  rw [State.reach_of_nil h]
  split
  · rw [State.steps_advance, h]
  · exact h

/-! ### A tick -/

theorem State.ticked_ntm (s : State) : s.ticked.ntm =
    { (s.setNs (s.clockNs + (s.ntm.frac + s.ob K.NTM_INCR) / 2 ^ 32)).ntm with
      mono := s.ntm.mono + 4, frac := (s.ntm.frac + s.ob K.NTM_INCR) % 2 ^ 32 } := by
  unfold State.ticked State.setNtm
  dsimp only
  rw [(State.passes_elapse _ _).2]

theorem State.clockNs_ticked (s : State) : s.ticked.clockNs = (s.clockNs + (s.ntm.frac + s.ob K.NTM_INCR) / 2 ^ 32) % nsWrap := by
  rw [State.clockNs_of_ntm (s := s.setNs (s.clockNs + (s.ntm.frac + s.ob K.NTM_INCR) / 2 ^ 32)), State.clockNs_setNs]
  rw [State.ticked_ntm]
  exact ⟨rfl, rfl⟩

theorem State.takeSteps_of_nil {s : State} (h : s.ntm.steps = []) : s.takeSteps = s := by
  unfold State.takeSteps
  rw [h]
  rfl

theorem State.steps_ticked (s : State) : s.ticked.ntm.steps = s.ntm.steps := by
  rw [State.ticked_ntm, State.setNs_ntm]

/-- NTM.STEPS is no threshold counter: elapsed time leaves it. -/
theorem State.ob_steps_thrCount (s : State) (m0 m1 : Nat) {n : Nat} (h : 1 ≤ n ∧ n ≤ 16) :
    (s.thrCount m0 m1 n).ob K.NTM_STEPS = s.ob K.NTM_STEPS := by
  have hk : K.NTM_STEPS ≠ K.PMC_THR n := by unfold K.NTM_STEPS K.PMC_THR; omega
  unfold State.thrCount
  extract_lets cfg src target f clocks
  repeat' split
  · rfl
  · exact State.ob_addOb_ne s.draw _ hk
  · exact State.ob_addOb_ne s _ hk
  · rfl
  · rfl

theorem State.ob_setNs (s : State) (n k : Nat) : (s.setNs n).ob k = s.ob k := State.ob_of_objs rfl k

theorem State.ob_steps_elapse (s : State) (m : Nat) : (s.elapse m).ob K.NTM_STEPS = s.ob K.NTM_STEPS := by
  have fold : ∀ (l : List Nat), (∀ n ∈ l, 1 ≤ n ∧ n ≤ 16) → ∀ u : State,
      (u.each l fun s n => s.thrCount s.ntm.mono m n).ob K.NTM_STEPS = u.ob K.NTM_STEPS := by
    intro l
    induction l with
    | nil => intro _ u; rfl
    | cons a t ih =>
      intro hl u
      exact (ih (fun n hn => hl n (by simp [hn])) _).trans (u.ob_steps_thrCount _ m (hl a (by simp)))
  exact fold ((List.range 16).map (· + 1)) (by decide) s

theorem State.ob_steps_ticked (s : State) : s.ticked.ob K.NTM_STEPS = s.ob K.NTM_STEPS := by
  unfold State.ticked
  dsimp only
  exact (State.ob_steps_elapse _ _).trans (State.ob_setNs s _ _)

theorem State.takeSteps_single {s : State} {v : Nat} (h : s.ntm.steps = [v]) : s.takeSteps =
    ((s.setNtm fun n => { n with steps := [] }).stepTime (toS 64 v)).gatesNow := by
  unfold State.takeSteps
  rw [h]
  rfl

/-- Settles O55: a tick counts elapsed time and the fraction, and takes the steps that wait. -/
theorem idleStepTicks : Obligations.IdleStepTicks := by
  unfold Obligations.IdleStepTicks
  intro s hp
  have hstep : step s = .next s.tick := by unfold step; rw [hp]
  have hpend : s.tick.pending = [] := by rw [s.passes_tick.frame]; exact hp
  have hmem : s.tick.mem = s.mem := by rw [s.passes_tick.frame]
  refine ⟨fun hs => ⟨s.tick, hstep, hpend, hmem, ?_⟩, fun v hs => ⟨s.tick, hstep, hmem, ?_⟩⟩
  · have ht : s.tick = s.ticked := State.takeSteps_of_nil (s := s.ticked) (by rw [State.steps_ticked, hs])
    rw [ht, State.clockNs_ticked, State.ticked_ntm]
    refine ⟨rfl, ?_⟩
    dsimp only
    have hsplit : ∀ a b w : Nat, (a + b / 2 ^ 32) % w * 2 ^ 32 + b % 2 ^ 32 = (a * 2 ^ 32 + b) % (w * 2 ^ 32) := by
      intro a b w
      rw [Nat.mul_comm w, Nat.mod_mul (x := a * 2 ^ 32 + b)]
      rw [show (a * 2 ^ 32 + b) % 2 ^ 32 = b % 2 ^ 32 by omega, show (a * 2 ^ 32 + b) / 2 ^ 32 = a + b / 2 ^ 32 by omega]
      omega
    rw [hsplit]
    ring_nf
  · have ht : s.tick = ((s.ticked.setNtm fun n => { n with steps := [] }).stepTime (toS 64 v)).gatesNow :=
      State.takeSteps_single (s := s.ticked) (by rw [State.steps_ticked, hs])
    set u := (s.ticked.setNtm fun n => { n with steps := [] }) with hu
    obtain ⟨-, hg, hobjs⟩ := (u.stepTime (toS 64 v)).passes_gatesNow
    have hclock : u.clockNs = s.ticked.clockNs := rfl
    have hntm : (u.stepTime (toS 64 v)).ntm = (u.setNs (((u.clockNs : Int) + toS 64 v) % (nsWrap : Int)).toNat).ntm := rfl
    have hnn : (0 : Int) < nsWrap := by unfold nsWrap; norm_num
    rw [ht]
    refine ⟨?_, ?_, ?_, ?_, ?_⟩
    · rw [hg, hntm]
      rfl
    · rw [hg, hntm]
      change s.ticked.ntm.mono = _
      rw [State.ticked_ntm]
    · rw [hg, hntm]
      change s.ticked.ntm.frac = _
      rw [State.ticked_ntm]
    · rw [State.clockNs_of_ntm (s := u.stepTime (toS 64 v)) (by rw [hg]; exact ⟨rfl, rfl⟩),
        State.clockNs_of_ntm (s := u.setNs (((u.clockNs : Int) + toS 64 v) % (nsWrap : Int)).toNat) (by rw [hntm]; exact ⟨rfl, rfl⟩),
        State.clockNs_setNs, hclock, State.clockNs_ticked]
      have hcast : (s.clockNs : Int) + ((s.ntm.frac : Int) + (s.ob K.NTM_INCR : Int)) / 2 ^ 32 =
          ((s.clockNs + (s.ntm.frac + s.ob K.NTM_INCR) / 2 ^ 32 : Nat) : Int) := by push_cast; rfl
      rw [hcast]
      generalize s.clockNs + (s.ntm.frac + s.ob K.NTM_INCR) / 2 ^ 32 = a
      rw [Int.natCast_emod, Int.toNat_of_nonneg (Int.emod_nonneg _ hnn.ne'), Int.emod_emod, Int.natCast_emod, Int.emod_add_emod]
    · rw [State.ob_of_objs hobjs]
      unfold State.stepTime
      rw [State.ob_incOb_self, State.ob_setNs, show u.ob K.NTM_STEPS = s.ticked.ob K.NTM_STEPS from rfl, State.ob_steps_ticked]

end Sys2Proof.Machine
end

section
/-! SUPPORT. O45: the date converter of R454 and R455 gives back every count. -/

namespace Sys2Proof.Machine

/-- Days of a year. -/
def yearDays (y : Nat) : Nat := if leapYear y then 366 else 365

/-- The first day of a year follows the last one of the year before. -/
theorem daysFromEpoch_succ (y : Nat) : daysFromEpoch ((y : Int) + 1) 1 = daysFromEpoch y 1 + yearDays y := by
  have hleap : leapYear y = true ↔ (y : Int) % 4 = 0 ∧ ((y : Int) % 100 ≠ 0 ∨ (y : Int) % 400 = 0) := by
    simp [leapYear]
  have hdays : (yearDays y : Int) = if (y : Int) % 4 = 0 ∧ ((y : Int) % 100 ≠ 0 ∨ (y : Int) % 400 = 0) then 366 else 365 := by
    unfold yearDays
    by_cases h : leapYear y = true
    · rw [if_pos h, if_pos (hleap.1 h)]; rfl
    · rw [if_neg h, if_neg fun k => h (hleap.2 k)]; rfl
  rw [hdays]
  unfold daysFromEpoch
  simp only [Nat.sub_self, monthStart]
  split <;> omega

/-- The year of a day: days are counted off whole years while fuel lasts. -/
theorem yearOf_spec {f y d : Nat} (h : d < 365 * f) :
    daysFromEpoch (yearOf f y d).1 1 + (yearOf f y d).2 = daysFromEpoch y 1 + d ∧
      (yearOf f y d).2 < yearDays (yearOf f y d).1 ∧ (yearOf f y d).1 ≤ y + f := by
  induction f generalizing y d with
  | zero => omega
  | succ f ih =>
    have hlen : 365 ≤ yearDays y := by
      unfold yearDays
      split <;> omega
    unfold yearOf
    dsimp only
    change _ ∧ _ at *
    rw [show (if leapYear (y : Int) = true then 366 else 365) = yearDays y from rfl]
    by_cases hd : d < yearDays y
    · rw [if_pos hd]
      exact ⟨rfl, hd, by omega⟩
    · rw [if_neg hd]
      obtain ⟨hsum, hlt, hle⟩ := ih (y := y + 1) (d := d - yearDays y) (by omega)
      have hs := daysFromEpoch_succ y
      push_cast at hsum
      exact ⟨by omega, hlt, by omega⟩

/-- The month of a day of the year. -/
def monthOf (leap : Bool) (d : Nat) : Nat :=
  ((List.range 13).filter fun k => decide (1 ≤ k) && decide (monthStart leap (k - 1) ≤ d)).length

theorem monthOf_spec (leap : Bool) {d : Nat} (h : d < 366) : 1 ≤ monthOf leap d ∧ monthOf leap d ≤ 12 ∧
    monthStart leap (monthOf leap d - 1) ≤ d ∧ (d < (if leap then 366 else 365) → d < monthStart leap (monthOf leap d - 1) + 31) := by
  revert leap d
  decide +kernel

/-- A date packed into the fields of CAL.CONV_DATE. -/
def packDate (y m dom hour min sec wd sub : Nat) : Nat :=
  y * 2 ^ 48 + m * 2 ^ 44 + dom * 2 ^ 39 + hour * 2 ^ 34 + min * 2 ^ 28 + sec * 2 ^ 22 + wd * 2 ^ 19 + sub

/-- Ticks of a date in normal form. -/
theorem dateTicks_packDate {y m dom hour min sec wd sub : Nat} (hy : y < 2 ^ 16) (hm : 1 ≤ m ∧ m ≤ 12) (hdom : dom < 32)
    (hh : hour < 24) (hmin : min < 60) (hsec : sec < 60) (hwd : wd < 7) (hsub : sub < 32768) :
    dateTicks (packDate y m dom hour min sec wd sub) =
      (((daysFromEpoch y m + dom - 1) * 86400 + hour * 3600 + min * 60 + sec) * 32768 + sub : Int) := by
  set v := packDate y m dom hour min sec wd sub with hv
  unfold packDate at hv
  have b1 : bits v 63 48 = y := by unfold bits; omega
  have b2 : bits v 47 44 = m := by unfold bits; omega
  have b3 : bits v 43 39 = dom := by unfold bits; omega
  have b4 : bits v 38 34 = hour := by unfold bits; omega
  have b5 : bits v 33 28 = min := by unfold bits; omega
  have b6 : bits v 27 22 = sec := by unfold bits; omega
  have b7 : bits v 14 0 = sub := by unfold bits; omega
  unfold dateTicks
  rw [b1, b2, b3, b4, b5, b6, b7]
  simp only [if_neg (show ¬ m = 0 by omega), if_neg (show ¬ 12 < m by omega)]

theorem daysFromEpoch_month (y : Int) (m : Nat) : daysFromEpoch y m = daysFromEpoch y 1 + monthStart (leapYear y) (m - 1) := by
  unfold daysFromEpoch
  simp only [Nat.sub_self, monthStart]
  omega

theorem ticksDate_eq (t : Nat) : ticksDate t =
    packDate (yearOf 140 2000 (t / 32768 / 86400)).1
      (monthOf (leapYear (yearOf 140 2000 (t / 32768 / 86400)).1) (yearOf 140 2000 (t / 32768 / 86400)).2)
      ((yearOf 140 2000 (t / 32768 / 86400)).2 - monthStart (leapYear (yearOf 140 2000 (t / 32768 / 86400)).1)
        (monthOf (leapYear (yearOf 140 2000 (t / 32768 / 86400)).1) (yearOf 140 2000 (t / 32768 / 86400)).2 - 1) + 1)
      (t / 32768 % 86400 / 3600) (t / 32768 % 86400 / 60 % 60) (t / 32768 % 86400 % 60) ((t / 32768 / 86400 + 5) % 7)
      (t % 32768) := rfl

/-- Settles O45: the year and month found for a day are those the day lies in, and the fields hold them. -/
theorem converterInverse : Obligations.ConverterInverse := by
  unfold Obligations.ConverterInverse calMax
  intro c hc
  rw [ticksDate_eq]
  obtain ⟨hday, hlt, hle⟩ := yearOf_spec (f := 140) (y := 2000) (d := c / 32768 / 86400) (by omega)
  generalize hp : yearOf 140 2000 (c / 32768 / 86400) = p at hday hlt hle
  obtain ⟨y, d⟩ := p
  dsimp only at hday hlt hle ⊢
  have hd : d < 366 := by
    unfold yearDays at hlt
    split at hlt <;> omega
  obtain ⟨hm1, hm12, hstart, hend⟩ := monthOf_spec (leapYear y) hd
  have hend' := hend hlt
  rw [dateTicks_packDate (by omega) ⟨hm1, hm12⟩ (by omega) (by omega) (by omega) (by omega) (by omega) (by omega),
    daysFromEpoch_month]
  have h0 : daysFromEpoch ((2000 : Nat) : Int) 1 = 0 := by decide
  rw [h0] at hday
  generalize daysFromEpoch (y : Int) 1 = e at hday ⊢
  generalize monthStart (leapYear y) (monthOf (leapYear y) d - 1) = ms at hstart hend' ⊢
  push_cast [Nat.cast_sub hstart]
  omega

end Sys2Proof.Machine
end

section
/-! SUPPORT. O54 and O57: what a step does with the queue, and what reset leaves. -/

namespace Sys2Proof.Machine

/-- Settles O54. -/
theorem stepRunsFrontCommand : Obligations.StepRunsFrontCommand := by
  unfold Obligations.StepRunsFrontCommand
  exact fun _ _ => rfl

/-- Settles O57: every part of State.reset holds no entry, and so reads as its default. -/
theorem resetLeaves : Obligations.ResetLeaves := by
  unfold Obligations.ResetLeaves
  refine ⟨⟨rfl, rfl, rfl, fun _ => rfl, fun _ => rfl, fun _ => rfl, fun _ => rfl, rfl, fun _ => rfl, rfl⟩, State.reset_wf, ?_⟩
  rintro ⟨h, -⟩
  cases h

end Sys2Proof.Machine
end

section
/-! SUPPORT. O3: an ILLEGAL fault of a task whose FPOL halts the tide lands the force changes that waited for copy-ins (R145, R165,
R196), and these write bytes of Q. -/

namespace Sys2Proof.Machine

open Sys2Proof.Tests

/-- Task 1, whose FPOL is HALT_TIDE, stands at an illegal encoding of core 0; a force of byte 0 of Q waits behind a copy-in of task 2. -/
def forceWaiting : State :=
  let s := ((coded coreA 0xEC80 (enc [] 7 0 0 0 0)).setOb (K.TSK_CFG 1) (2 * 2 ^ 28)).setOb K.IMG_CTL 1
  { s with tds := { s.tds with
    st := .running
    copyIns := [{ task := 2, sec := 0, seq := 0, old := [] }]
    forceQ := [(1, .set 0 (2 ^ 30 + 2 ^ 27) 0xFF)] } }

/-- The state once the illegal bytes are fetched. -/
def forceFetched : State × RdAns := (forceWaiting.landCtx 1).fetchBytes 0 ((forceWaiting.landCtx 1).ctx 1).pc.toNat 3

/-- What NOP of core 0 leaves. -/
def forceLanded : Option State :=
  match exec (.nop 0 (enc [] 0 0 0 0 0)) forceWaiting with
  | .next t => some t
  | _ => none

/-- The fault lands the force: byte 0 of Q changes. -/
theorem byte_forceLanded : forceWaiting.byte (mHead + 0x80000) = 0 ∧
    forceLanded.map (fun t => t.byte (mHead + 0x80000)) = some 0xFF := by
  decide +kernel

/-- The illegal bytes are fetched without an error. -/
theorem forceFetched_ok : ∃ b, forceFetched = (forceFetched.1, .ok b) := by
  have h : (match forceFetched.2 with | .ok _ => true | _ => false) = true := by decide +kernel
  rcases hf : forceFetched with ⟨s1, r⟩
  rw [hf] at h
  cases r with
  | ok b => exact ⟨b, rfl⟩
  | bus d => cases h
  | ecc => cases h

/-- Refutes O3: the fault halts the tide, the copy-in ends, and the force that waited for it writes a byte of memory. -/
theorem not_illegalEncodingFaults : ¬ Obligations.IllegalEncodingFaults := by
  unfold Obligations.IllegalEncodingFaults
  intro h
  obtain ⟨b, hb⟩ := forceFetched_ok
  obtain ⟨t, ht, -, hmem, -⟩ := h (.nop, 0xEC80) (by simp [coreRows]) forceWaiting 0 (enc [] 0 0 0 0 0) 1 forceFetched.1
    ((forceWaiting.landCtx 1).ctx 1) (formOf 0xEC80) (enc [] 7 0 0 0 0) b (by decide +kernel) (by decide +kernel) (by decide +kernel)
    (.inl (by decide +kernel)) rfl (by decide +kernel) (by decide +kernel) hb (by decide +kernel) (by decide +kernel)
  obtain ⟨h0, h1⟩ := byte_forceLanded
  have hl : forceLanded = some t := by
    unfold forceLanded
    rw [ht]
  rw [hl, Option.map_some, hmem, h0] at h1
  cases h1

end Sys2Proof.Machine
end


section
/-! SUPPORT. What an operation leaves as it was. `State.Stays t fs s` says that t differs from s at most in the parts of fs,
with memory canonical where it was, and a Lighthouse that drives VALID to both partners only where it did; and the rules
by which it passes through a definition. -/

namespace Sys2Proof.Machine

/-- The parts of a state: its fields, and those of the pair's field that rules name. -/
inductive Field where
  | part | objs | doms | mem | ecc | owners | sess | dic | ctxs | cores | tds | tasks | img | retAt | retNext | olc | str | hnw
  | ntm | role | pair | grant | link | sent | msgs | own | repl | wit | red | fio | mbc | dma | bdr | cal | rsv | wdg | chk | flt
  | sta | snp | hlt | pmc | pwr | fresh | pending
  deriving DecidableEq, Repr

/-- Every part, in the order of the state's fields. -/
def Field.all : List Field :=
  [.part, .objs, .doms, .mem, .ecc, .owners, .sess, .dic, .ctxs, .cores, .tds, .tasks, .img, .retAt, .retNext, .olc, .str, .hnw,
    .ntm, .role, .pair, .grant, .link, .sent, .msgs, .own, .repl, .wit, .red, .fio, .mbc, .dma, .bdr, .cal, .rsv, .wdg, .chk,
    .flt, .sta, .snp, .hlt, .pmc, .pwr, .fresh, .pending]

/-- The pair's field without the parts that have a name of their own. -/
@[reducible] def Red.rest (r : Red) : Red :=
  { r with
    role := .off
    reason := 0
    pair := .invalid
    grant := false
    frozen := false
    fenced := false
    linkSt := []
    lanes := []
    wasDown := 0
    sent := []
    msgs := []
    own := []
    dictated := []
    repl := []
    replSent := []
    wit := State.reset.red.wit }

/-- A part is the same in both states. -/
@[reducible] def Field.Same (s t : State) : Field → Prop
  | .part => t.part = s.part
  | .objs => t.objs = s.objs
  | .doms => t.doms = s.doms
  | .mem => t.mem = s.mem
  | .ecc => t.ecc = s.ecc
  | .owners => t.owners = s.owners
  | .sess => t.sess = s.sess
  | .dic => t.dic = s.dic
  | .ctxs => t.ctxs = s.ctxs
  | .cores => t.cores = s.cores
  | .tds => t.tds = s.tds
  | .tasks => t.tasks = s.tasks
  | .img => t.img = s.img
  | .retAt => t.retAt = s.retAt
  | .retNext => t.retNext = s.retNext
  | .olc => t.olc = s.olc
  | .str => t.str = s.str
  | .hnw => t.hnw = s.hnw
  | .ntm => t.ntm = s.ntm
  | .role => (t.red.role, t.red.reason) = (s.red.role, s.red.reason)
  | .pair => t.red.pair = s.red.pair
  | .grant => (t.red.grant, t.red.frozen, t.red.fenced) = (s.red.grant, s.red.frozen, s.red.fenced)
  | .link => (t.red.linkSt, t.red.lanes, t.red.wasDown) = (s.red.linkSt, s.red.lanes, s.red.wasDown)
  | .sent => t.red.sent = s.red.sent
  | .msgs => t.red.msgs = s.red.msgs
  | .own => (t.red.own, t.red.dictated) = (s.red.own, s.red.dictated)
  | .repl => (t.red.repl, t.red.replSent) = (s.red.repl, s.red.replSent)
  | .wit => t.red.wit = s.red.wit
  | .red => t.red.rest = s.red.rest
  | .fio => t.fio = s.fio
  | .mbc => t.mbc = s.mbc
  | .dma => t.dma = s.dma
  | .bdr => t.bdr = s.bdr
  | .cal => t.cal = s.cal
  | .rsv => t.rsv = s.rsv
  | .wdg => t.wdg = s.wdg
  | .chk => t.chk = s.chk
  | .flt => t.flt = s.flt
  | .sta => t.sta = s.sta
  | .snp => t.snp = s.snp
  | .hlt => t.hlt = s.hlt
  | .pmc => t.pmc = s.pmc
  | .pwr => t.pwr = s.pwr
  | .fresh => t.fresh = s.fresh
  | .pending => t.pending = s.pending

theorem Field.Same.refl (s : State) (f : Field) : f.Same s s := by
  cases f <;> rfl

theorem Field.Same.trans {r s t : State} {f : Field} (h : f.Same s t) (h0 : f.Same r s) : f.Same r t := by
  cases f <;> exact Eq.trans h h0

/-- t differs from s at most in the parts of fs, keeps memory canonical, and keeps the Lighthouse from driving both. -/
structure State.Stays (t : State) (fs : List Field) (s : State) : Prop where
  same : ∀ f, f ∈ fs ∨ f.Same s t
  canonical : Memory.wf s.mem = true → Memory.wf t.mem = true
  drives : ¬ (s.red.wit.pairA = .valid ∧ s.red.wit.pairB = .valid) → ¬ (t.red.wit.pairA = .valid ∧ t.red.wit.pairB = .valid)

variable {fs : List Field} {s₀ : State}

theorem State.Stays.refl (s : State) (fs : List Field) : s.Stays fs s :=
  ⟨fun f => .inr (.refl s f), id, id⟩

/-- One change after another, of parts that fs holds. -/
theorem State.Stays.put {s t : State} (h : s.Stays fs s₀) (hs : ∀ f, f ∈ fs ∨ f.Same s t) (hm : t.mem = s.mem)
    (hw : t.red.wit = s.red.wit) : t.Stays fs s₀ where
  same f := (hs f).elim .inl fun ht => (h.same f).imp_right ht.trans
  canonical hc := hm ▸ h.canonical hc
  drives hd := hw ▸ h.drives hd

theorem Field.within {a b : List Field} (h : b ⊆ fs) (d : a ⊆ b) : a ⊆ fs := List.Subset.trans d h

theorem Field.mem_of {f : Field} {b : List Field} (h : b ⊆ fs) (d : f ∈ b) : f ∈ fs := h d

theorem Field.mem_all (f : Field) : f ∈ Field.all := by
  cases f <;> decide

/-- A change of one part that fs holds. -/
theorem State.Stays.alter {s t : State} (h : s.Stays fs s₀) (g : Field) (hM : [g] ⊆ fs) (hs : ∀ f, f ≠ g → f.Same s t)
    (hm : t.mem = s.mem) (hw : t.red.wit = s.red.wit) : t.Stays fs s₀ :=
  h.put (fun f => if hf : f = g then .inl (hf ▸ hM (List.mem_singleton_self g)) else .inr (hs f hf)) hm hw

/-! ### One field changed -/

theorem State.with_objs {s : State} (x : SMap Nat) (h : s.Stays fs s₀) (hM : [.objs] ⊆ fs) :
    State.Stays { s with objs := x } fs s₀ :=
  h.alter .objs hM (fun f hf => by cases f <;> first | rfl | exact absurd rfl hf) rfl rfl

theorem State.with_doms {s : State} (x : SMap (List Byte)) (h : s.Stays fs s₀) (hM : [.doms] ⊆ fs) :
    State.Stays { s with doms := x } fs s₀ :=
  h.alter .doms hM (fun f hf => by cases f <;> first | rfl | exact absurd rfl hf) rfl rfl

theorem State.with_ecc {s : State} (x : SMap Nat) (h : s.Stays fs s₀) (hM : [.ecc] ⊆ fs) :
    State.Stays { s with ecc := x } fs s₀ :=
  h.alter .ecc hM (fun f hf => by cases f <;> first | rfl | exact absurd rfl hf) rfl rfl

theorem State.with_owners {s : State} (x : SMap Nat) (h : s.Stays fs s₀) (hM : [.owners] ⊆ fs) :
    State.Stays { s with owners := x } fs s₀ :=
  h.alter .owners hM (fun f hf => by cases f <;> first | rfl | exact absurd rfl hf) rfl rfl

theorem State.with_sess {s : State} (x : SMap Ses) (h : s.Stays fs s₀) (hM : [.sess] ⊆ fs) :
    State.Stays { s with sess := x } fs s₀ :=
  h.alter .sess hM (fun f hf => by cases f <;> first | rfl | exact absurd rfl hf) rfl rfl

theorem State.with_dic {s : State} (x : Dic) (h : s.Stays fs s₀) (hM : [.dic] ⊆ fs) :
    State.Stays { s with dic := x } fs s₀ :=
  h.alter .dic hM (fun f hf => by cases f <;> first | rfl | exact absurd rfl hf) rfl rfl

theorem State.with_ctxs {s : State} (x : SMap Ctx) (h : s.Stays fs s₀) (hM : [.ctxs] ⊆ fs) :
    State.Stays { s with ctxs := x } fs s₀ :=
  h.alter .ctxs hM (fun f hf => by cases f <;> first | rfl | exact absurd rfl hf) rfl rfl

theorem State.with_cores {s : State} (x : SMap CoreSt) (h : s.Stays fs s₀) (hM : [.cores] ⊆ fs) :
    State.Stays { s with cores := x } fs s₀ :=
  h.alter .cores hM (fun f hf => by cases f <;> first | rfl | exact absurd rfl hf) rfl rfl

theorem State.with_tds {s : State} (x : Tds) (h : s.Stays fs s₀) (hM : [.tds] ⊆ fs) :
    State.Stays { s with tds := x } fs s₀ :=
  h.alter .tds hM (fun f hf => by cases f <;> first | rfl | exact absurd rfl hf) rfl rfl

theorem State.with_tasks {s : State} (x : SMap Task) (h : s.Stays fs s₀) (hM : [.tasks] ⊆ fs) :
    State.Stays { s with tasks := x } fs s₀ :=
  h.alter .tasks hM (fun f hf => by cases f <;> first | rfl | exact absurd rfl hf) rfl rfl

theorem State.with_img {s : State} (x : Img) (h : s.Stays fs s₀) (hM : [.img] ⊆ fs) :
    State.Stays { s with img := x } fs s₀ :=
  h.alter .img hM (fun f hf => by cases f <;> first | rfl | exact absurd rfl hf) rfl rfl

theorem State.with_retAt {s : State} (x : SMap Nat) (h : s.Stays fs s₀) (hM : [.retAt] ⊆ fs) :
    State.Stays { s with retAt := x } fs s₀ :=
  h.alter .retAt hM (fun f hf => by cases f <;> first | rfl | exact absurd rfl hf) rfl rfl

theorem State.with_retNext {s : State} (x : Nat) (h : s.Stays fs s₀) (hM : [.retNext] ⊆ fs) :
    State.Stays { s with retNext := x } fs s₀ :=
  h.alter .retNext hM (fun f hf => by cases f <;> first | rfl | exact absurd rfl hf) rfl rfl

theorem State.with_olc {s : State} (x : Olc) (h : s.Stays fs s₀) (hM : [.olc] ⊆ fs) :
    State.Stays { s with olc := x } fs s₀ :=
  h.alter .olc hM (fun f hf => by cases f <;> first | rfl | exact absurd rfl hf) rfl rfl

theorem State.with_str {s : State} (x : Str) (h : s.Stays fs s₀) (hM : [.str] ⊆ fs) :
    State.Stays { s with str := x } fs s₀ :=
  h.alter .str hM (fun f hf => by cases f <;> first | rfl | exact absurd rfl hf) rfl rfl

theorem State.with_hnw {s : State} (x : Hnw) (h : s.Stays fs s₀) (hM : [.hnw] ⊆ fs) :
    State.Stays { s with hnw := x } fs s₀ :=
  h.alter .hnw hM (fun f hf => by cases f <;> first | rfl | exact absurd rfl hf) rfl rfl

theorem State.with_ntm {s : State} (x : Ntm) (h : s.Stays fs s₀) (hM : [.ntm] ⊆ fs) :
    State.Stays { s with ntm := x } fs s₀ :=
  h.alter .ntm hM (fun f hf => by cases f <;> first | rfl | exact absurd rfl hf) rfl rfl

theorem State.with_fio {s : State} (x : Fio) (h : s.Stays fs s₀) (hM : [.fio] ⊆ fs) :
    State.Stays { s with fio := x } fs s₀ :=
  h.alter .fio hM (fun f hf => by cases f <;> first | rfl | exact absurd rfl hf) rfl rfl

theorem State.with_mbc {s : State} (x : SMap Mbc) (h : s.Stays fs s₀) (hM : [.mbc] ⊆ fs) :
    State.Stays { s with mbc := x } fs s₀ :=
  h.alter .mbc hM (fun f hf => by cases f <;> first | rfl | exact absurd rfl hf) rfl rfl

theorem State.with_dma {s : State} (x : SMap Dma) (h : s.Stays fs s₀) (hM : [.dma] ⊆ fs) :
    State.Stays { s with dma := x } fs s₀ :=
  h.alter .dma hM (fun f hf => by cases f <;> first | rfl | exact absurd rfl hf) rfl rfl

theorem State.with_bdr {s : State} (x : Bdr) (h : s.Stays fs s₀) (hM : [.bdr] ⊆ fs) :
    State.Stays { s with bdr := x } fs s₀ :=
  h.alter .bdr hM (fun f hf => by cases f <;> first | rfl | exact absurd rfl hf) rfl rfl

theorem State.with_cal {s : State} (x : Cal) (h : s.Stays fs s₀) (hM : [.cal] ⊆ fs) :
    State.Stays { s with cal := x } fs s₀ :=
  h.alter .cal hM (fun f hf => by cases f <;> first | rfl | exact absurd rfl hf) rfl rfl

theorem State.with_rsv {s : State} (x : Rsv) (h : s.Stays fs s₀) (hM : [.rsv] ⊆ fs) :
    State.Stays { s with rsv := x } fs s₀ :=
  h.alter .rsv hM (fun f hf => by cases f <;> first | rfl | exact absurd rfl hf) rfl rfl

theorem State.with_wdg {s : State} (x : SMap Wdg) (h : s.Stays fs s₀) (hM : [.wdg] ⊆ fs) :
    State.Stays { s with wdg := x } fs s₀ :=
  h.alter .wdg hM (fun f hf => by cases f <;> first | rfl | exact absurd rfl hf) rfl rfl

theorem State.with_chk {s : State} (x : Chk) (h : s.Stays fs s₀) (hM : [.chk] ⊆ fs) :
    State.Stays { s with chk := x } fs s₀ :=
  h.alter .chk hM (fun f hf => by cases f <;> first | rfl | exact absurd rfl hf) rfl rfl

theorem State.with_flt {s : State} (x : Flt) (h : s.Stays fs s₀) (hM : [.flt] ⊆ fs) :
    State.Stays { s with flt := x } fs s₀ :=
  h.alter .flt hM (fun f hf => by cases f <;> first | rfl | exact absurd rfl hf) rfl rfl

theorem State.with_sta {s : State} (x : Sta2) (h : s.Stays fs s₀) (hM : [.sta] ⊆ fs) :
    State.Stays { s with sta := x } fs s₀ :=
  h.alter .sta hM (fun f hf => by cases f <;> first | rfl | exact absurd rfl hf) rfl rfl

theorem State.with_snp {s : State} (x : Snp) (h : s.Stays fs s₀) (hM : [.snp] ⊆ fs) :
    State.Stays { s with snp := x } fs s₀ :=
  h.alter .snp hM (fun f hf => by cases f <;> first | rfl | exact absurd rfl hf) rfl rfl

theorem State.with_hlt {s : State} (x : Hlt) (h : s.Stays fs s₀) (hM : [.hlt] ⊆ fs) :
    State.Stays { s with hlt := x } fs s₀ :=
  h.alter .hlt hM (fun f hf => by cases f <;> first | rfl | exact absurd rfl hf) rfl rfl

theorem State.with_pmc {s : State} (x : Pmc) (h : s.Stays fs s₀) (hM : [.pmc] ⊆ fs) :
    State.Stays { s with pmc := x } fs s₀ :=
  h.alter .pmc hM (fun f hf => by cases f <;> first | rfl | exact absurd rfl hf) rfl rfl

theorem State.with_pwr {s : State} (x : Pwr) (h : s.Stays fs s₀) (hM : [.pwr] ⊆ fs) :
    State.Stays { s with pwr := x } fs s₀ :=
  h.alter .pwr hM (fun f hf => by cases f <;> first | rfl | exact absurd rfl hf) rfl rfl

theorem State.with_fresh {s : State} (x : Nat) (h : s.Stays fs s₀) (hM : [.fresh] ⊆ fs) :
    State.Stays { s with fresh := x } fs s₀ :=
  h.alter .fresh hM (fun f hf => by cases f <;> first | rfl | exact absurd rfl hf) rfl rfl

theorem State.with_pending {s : State} (x : List Instr) (h : s.Stays fs s₀) (hM : [.pending] ⊆ fs) :
    State.Stays { s with pending := x } fs s₀ :=
  h.alter .pending hM (fun f hf => by cases f <;> first | rfl | exact absurd rfl hf) rfl rfl

/-! ### Two fields changed -/

theorem State.with_cal_rsv {s : State} (x : Cal) (y : Rsv) (h : s.Stays fs s₀) (hM : [.cal, .rsv] ⊆ fs) :
    State.Stays { s with cal := x, rsv := y } fs s₀ :=
  State.with_rsv (s := { s with cal := x }) y (State.with_cal x h (Field.within hM (by decide))) (Field.within hM (by decide))

theorem State.with_objs_doms {s : State} (x : SMap Nat) (y : SMap (List Byte)) (h : s.Stays fs s₀) (hM : [.objs, .doms] ⊆ fs) :
    State.Stays { s with objs := x, doms := y } fs s₀ :=
  State.with_doms (s := { s with objs := x }) y (State.with_objs x h (Field.within hM (by decide))) (Field.within hM (by decide))

theorem State.with_chk_pwr {s : State} (x : Chk) (y : Pwr) (h : s.Stays fs s₀) (hM : [.chk, .pwr] ⊆ fs) :
    State.Stays { s with chk := x, pwr := y } fs s₀ :=
  State.with_pwr (s := { s with chk := x }) y (State.with_chk x h (Field.within hM (by decide))) (Field.within hM (by decide))

theorem State.with_tds_tasks {s : State} (x : SMap Task) (y : Tds) (h : s.Stays fs s₀) (hM : [.tds, .tasks] ⊆ fs) :
    State.Stays { s with tasks := x, tds := y } fs s₀ :=
  State.with_tds (s := { s with tasks := x }) y (State.with_tasks x h (Field.within hM (by decide))) (Field.within hM (by decide))

theorem State.with_chk_pmc {s : State} (x : Chk) (y : Pmc) (h : s.Stays fs s₀) (hM : [.chk, .pmc] ⊆ fs) :
    State.Stays { s with chk := x, pmc := y } fs s₀ :=
  State.with_pmc (s := { s with chk := x }) y (State.with_chk x h (Field.within hM (by decide))) (Field.within hM (by decide))

/-! ### Through a definition's cases -/

theorem ite_stays {c : Prop} [Decidable c] {a b : State} (ha : a.Stays fs s₀) (hb : b.Stays fs s₀) :
    (if c then a else b).Stays fs s₀ := by
  split <;> assumption

theorem State.when_stays {s : State} (c : Bool) (f : State → State) (h : s.Stays fs s₀) (hf : (f s).Stays fs s₀) :
    (s.when c f).Stays fs s₀ := by
  unfold State.when
  split <;> assumption

theorem State.foldl_stays {α : Type} (xs : List α) (f : State → α → State)
    (hf : ∀ u x, State.Stays u fs s₀ → (f u x).Stays fs s₀) {s : State} (h : s.Stays fs s₀) : (xs.foldl f s).Stays fs s₀ := by
  induction xs generalizing s with
  | nil => exact h
  | cons x t ih => exact ih (hf _ _ h)

theorem foldl_stays1 {α β : Type} (xs : List α) (f : State × β → α → State × β) {p : State × β} (h : p.1.Stays fs s₀)
    (hf : ∀ p x, State.Stays p.1 fs s₀ → (f p x).1.Stays fs s₀) : (xs.foldl f p).1.Stays fs s₀ := by
  induction xs generalizing p with
  | nil => exact h
  | cons x t ih => exact ih (hf _ _ h)

theorem State.each_stays {α : Type} {s : State} (xs : List α) (f : State → α → State) (h : s.Stays fs s₀)
    (hf : ∀ u x, State.Stays u fs s₀ → (f u x).Stays fs s₀) : (s.each xs f).Stays fs s₀ := State.foldl_stays xs f hf h

theorem stays_of_eq {β : Type} {e : State × β} {s : State} {b : β} (h : e = (s, b)) (he : e.1.Stays fs s₀) : s.Stays fs s₀ := by
  rw [h] at he
  exact he

/-! ### Memory and the pair's field -/

theorem State.setByte_stays {s : State} (a : Nat) (v : Byte) (h : s.Stays fs s₀) (hM : [.mem] ⊆ fs) : (s.setByte a v).Stays fs s₀ where
  same f := (h.same f).elim .inl fun hf => by cases f <;> first | exact .inl (hM (by decide)) | exact .inr hf
  canonical hc := State.setByte_wf a v (h.canonical hc)
  drives := h.drives

theorem State.putBytes_stays {s : State} (a : Nat) (b : List Byte) (h : s.Stays fs s₀) (hM : [.mem] ⊆ fs) :
    (s.putBytes a b).Stays fs s₀ := by
  induction b generalizing s a with
  | nil => exact h
  | cons c t ih => exact ih _ (State.setByte_stays a c h hM)

theorem State.wr_stays {s : State} (a n v : Nat) (h : s.Stays fs s₀) (hM : [.mem] ⊆ fs) : (s.wr a n v).Stays fs s₀ :=
  State.putBytes_stays a _ h hM

theorem State.clearMem_stays {s : State} (a n : Nat) (h : s.Stays fs s₀) (hM : [.mem] ⊆ fs) : (s.clearMem a n).Stays fs s₀ where
  same f := (h.same f).elim .inl fun hf => by cases f <;> first | exact .inl (hM (by decide)) | exact .inr hf
  canonical hc := State.clearMem_wf a n (h.canonical hc)
  drives := h.drives

/-- The parts of the pair's field are the same in r and r', but for those of fs. -/
@[reducible] def Red.Keeps (fs : List Field) (r r' : Red) : Prop :=
  (.role ∈ fs ∨ (r'.role, r'.reason) = (r.role, r.reason)) ∧ (.pair ∈ fs ∨ r'.pair = r.pair) ∧
  (.grant ∈ fs ∨ (r'.grant, r'.frozen, r'.fenced) = (r.grant, r.frozen, r.fenced)) ∧
  (.link ∈ fs ∨ (r'.linkSt, r'.lanes, r'.wasDown) = (r.linkSt, r.lanes, r.wasDown)) ∧ (.sent ∈ fs ∨ r'.sent = r.sent) ∧
  (.msgs ∈ fs ∨ r'.msgs = r.msgs) ∧ (.own ∈ fs ∨ (r'.own, r'.dictated) = (r.own, r.dictated)) ∧
  (.repl ∈ fs ∨ (r'.repl, r'.replSent) = (r.repl, r.replSent)) ∧ (.red ∈ fs ∨ r'.rest = r.rest)

/-- A change of the pair's field that leaves the Lighthouse alone. -/
theorem State.setRed_stays {s : State} (g : Red → Red) (h : s.Stays fs s₀) (hg : Red.Keeps fs s.red (g s.red))
    (hw : (g s.red).wit = s.red.wit) : (s.setRed g).Stays fs s₀ := by
  obtain ⟨role, pair, grant, link, sent, msgs, own, repl, red⟩ := hg
  refine h.put (fun f => ?_) rfl hw
  cases f <;> first | assumption | exact .inr hw | exact .inr rfl

end Sys2Proof.Machine
end


section
/-! SUPPORT. What each operation of the tide, the image, time, Bedrock and Breakwater leaves as it was. -/

namespace Sys2Proof.Machine

variable {fs : List Field} {s₀ : State}

theorem State.blit_stays (s : State) (src dst n : Nat) (h0 : s.Stays fs s₀) (hM : [.mem] ⊆ fs) :
    State.Stays (State.blit s src dst n) fs s₀ := by
  unfold State.blit
  repeat' first
    | with_reducible assumption | with_reducible exact List.Subset.trans (by decide) hM | intro _ | (extract_lets +onlyGivenNames u; clear_value u)
    | with_reducible apply State.setByte_stays | with_reducible apply State.clearMem_stays
    | with_reducible apply State.foldl_stays

theorem State.eccClear_stays (s : State) (key n : Nat) (h0 : s.Stays fs s₀) (hM : [.ecc] ⊆ fs) :
    State.Stays (State.eccClear s key n) fs s₀ := by
  unfold State.eccClear
  repeat' first
    | with_reducible assumption | with_reducible exact List.Subset.trans (by decide) hM | intro _ | with_reducible apply ite_stays
    | with_reducible apply State.with_ecc

theorem State.setOb_stays (s : State) (key v : Nat) (h0 : s.Stays fs s₀) (hM : [.objs] ⊆ fs) :
    State.Stays (State.setOb s key v) fs s₀ :=
  State.with_objs _ h0 hM

theorem State.addOb_stays (s : State) (key n : Nat) (h0 : s.Stays fs s₀) (hM : [.objs] ⊆ fs) :
    State.Stays (State.addOb s key n) fs s₀ :=
  State.with_objs _ h0 hM

theorem State.incOb_stays (s : State) (key : Nat) (h0 : s.Stays fs s₀) (hM : [.objs] ⊆ fs) :
    State.Stays (State.incOb s key) fs s₀ :=
  State.with_objs _ h0 hM

theorem State.countCorr_stays (s : State) (c key n : Nat) (h0 : s.Stays fs s₀) (hM : [.objs] ⊆ fs) :
    State.Stays (State.countCorr s c key n) fs s₀ := by
  unfold State.countCorr
  repeat' first
    | with_reducible assumption | with_reducible exact List.Subset.trans (by decide) hM | intro _ | with_reducible apply ite_stays | with_reducible apply State.addOb_stays

theorem State.strandCorr_stays (s : State) (n key len : Nat) (h0 : s.Stays fs s₀) (hM : [.objs] ⊆ fs) :
    State.Stays (State.strandCorr s n key len) fs s₀ := by
  unfold State.strandCorr
  repeat' first
    | with_reducible assumption | with_reducible exact List.Subset.trans (by decide) hM | intro _ | with_reducible apply State.countCorr_stays

theorem State.setDom_stays (s : State) (key : Nat) (b : List Sys2Proof.Byte) (h0 : s.Stays fs s₀) (hM : [.doms] ⊆ fs) :
    State.Stays (State.setDom s key b) fs s₀ :=
  State.with_doms _ h0 hM

theorem State.setSes_stays (s : State) (n : Nat) (x : Ses) (h0 : s.Stays fs s₀) (hM : [.sess] ⊆ fs) :
    State.Stays (State.setSes s n x) fs s₀ :=
  State.with_sess _ h0 hM

theorem State.setCtx_stays (s : State) (g : Nat) (x : Ctx) (h0 : s.Stays fs s₀) (hM : [.ctxs] ⊆ fs) :
    State.Stays (State.setCtx s g x) fs s₀ :=
  State.with_ctxs _ h0 hM

theorem State.setCore_stays (s : State) (c : Nat) (x : CoreSt) (h0 : s.Stays fs s₀) (hM : [.cores] ⊆ fs) :
    State.Stays (State.setCore s c x) fs s₀ :=
  State.with_cores _ h0 hM

theorem State.setTask_stays (s : State) (t : Nat) (x : Task) (h0 : s.Stays fs s₀) (hM : [.tasks] ⊆ fs) :
    State.Stays (State.setTask s t x) fs s₀ :=
  State.with_tasks _ h0 hM

theorem State.setStn_stays (s : State) (n : Nat) (x : Sta) (h0 : s.Stays fs s₀) (hM : [.hnw] ⊆ fs) :
    State.Stays (State.setStn s n x) fs s₀ :=
  State.with_hnw _ h0 hM

theorem State.setMb_stays (s : State) (k : Nat) (x : Mbc) (h0 : s.Stays fs s₀) (hM : [.mbc] ⊆ fs) :
    State.Stays (State.setMb s k x) fs s₀ :=
  State.with_mbc _ h0 hM

theorem State.setCh_stays (s : State) (k : Nat) (x : Dma) (h0 : s.Stays fs s₀) (hM : [.dma] ⊆ fs) :
    State.Stays (State.setCh s k x) fs s₀ :=
  State.with_dma _ h0 hM

theorem State.setWd_stays (s : State) (n : Nat) (x : Wdg) (h0 : s.Stays fs s₀) (hM : [.wdg] ⊆ fs) :
    State.Stays (State.setWd s n x) fs s₀ :=
  State.with_wdg _ h0 hM

theorem State.setOwner_stays (s : State) (line v : Nat) (h0 : s.Stays fs s₀) (hM : [.owners] ⊆ fs) :
    State.Stays (State.setOwner s line v) fs s₀ :=
  State.with_owners _ h0 hM

theorem State.setDomSt_stays (s : State) (d : Nat) (x : DomSt) (h0 : s.Stays fs s₀) (hM : [.pwr] ⊆ fs) :
    State.Stays (State.setDomSt s d x) fs s₀ :=
  State.with_pwr _ h0 hM

theorem State.draw_stays (s : State) (h0 : s.Stays fs s₀) (hM : [.fresh] ⊆ fs) :
    State.Stays (State.draw s) fs s₀ :=
  State.with_fresh _ h0 hM

theorem State.raise_stays (s : State) (cls key src root detail extra : Nat) (h0 : s.Stays fs s₀) (hM : [.flt] ⊆ fs) :
    State.Stays (State.raise s cls key src root detail extra) fs s₀ :=
  State.with_flt _ h0 hM

theorem State.raiseSt_stays (s : State) (cls src : Nat) (up : Bool) (detail : Nat) (h0 : s.Stays fs s₀) (hM : [.flt] ⊆ fs) :
    State.Stays (State.raiseSt s cls src up detail) fs s₀ :=
  State.with_flt _ h0 hM

theorem State.sample_stays (s : State) (cls key : Nat) (v : Int) (h0 : s.Stays fs s₀) (hM : [.objs, .sta] ⊆ fs) :
    State.Stays (State.sample s cls key v) fs s₀ := by
  unfold State.sample
  repeat' first
    | with_reducible assumption | with_reducible exact List.Subset.trans (by decide) hM | intro _
    | (extract_lets +onlyGivenNames u; refine cut_goal (P := State.Stays u fs s₀) ?_ fun _ => ?_; (on_goal 2 => clear_value u); (on_goal 1 => (unfold u; clear u)))
    | (extract_lets +onlyGivenNames u; clear_value u) | with_reducible apply ite_stays
    | with_reducible apply State.incOb_stays   | dsimp only
    | split
    | with_reducible apply State.with_sta

theorem State.modTask_stays (s : State) (t : Nat) (f : Task → Task) (h0 : s.Stays fs s₀) (hM : [.tasks] ⊆ fs) :
    State.Stays (State.modTask s t f) fs s₀ :=
  State.with_tasks _ h0 hM

theorem State.modCtx_stays (s : State) (g : Nat) (f : Ctx → Ctx) (h0 : s.Stays fs s₀) (hM : [.ctxs] ⊆ fs) :
    State.Stays (State.modCtx s g f) fs s₀ :=
  State.with_ctxs _ h0 hM

theorem State.resched_stays (s : State) (c : Nat) (h0 : s.Stays fs s₀) (hM : [.ctxs] ⊆ fs) :
    State.Stays (State.resched s c) fs s₀ := by
  unfold State.resched
  repeat' first
    | with_reducible assumption | with_reducible exact List.Subset.trans (by decide) hM | intro _ | with_reducible apply ite_stays | with_reducible apply State.modCtx_stays
      | dsimp only | split

theorem State.keeperWake_stays (s : State) (h0 : s.Stays fs s₀) (hM : [.ctxs] ⊆ fs) :
    State.Stays (State.keeperWake s) fs s₀ := by
  unfold State.keeperWake
  repeat' first
    | with_reducible assumption | with_reducible exact List.Subset.trans (by decide) hM | intro _ | with_reducible apply ite_stays | with_reducible apply State.resched_stays
    | with_reducible apply State.modCtx_stays

theorem State.kevent_stays (s : State) (n : Nat) (h0 : s.Stays fs s₀) (hM : [.objs, .ctxs] ⊆ fs) :
    State.Stays (State.kevent s n) fs s₀ := by
  unfold State.kevent
  repeat' first
    | with_reducible assumption | with_reducible exact List.Subset.trans (by decide) hM | intro _ | with_reducible apply State.keeperWake_stays
    | with_reducible apply State.setOb_stays

theorem State.setTds_stays (s : State) (f : Tds → Tds) (h0 : s.Stays fs s₀) (hM : [.tds] ⊆ fs) :
    State.Stays (State.setTds s f) fs s₀ :=
  State.with_tds _ h0 hM

theorem State.toTide_stays (s : State) (st : TideSt) (h0 : s.Stays fs s₀) (hM : [.objs, .ctxs, .tds] ⊆ fs) :
    State.Stays (State.toTide s st) fs s₀ := by
  unfold State.toTide
  repeat' first
    | with_reducible assumption | with_reducible exact List.Subset.trans (by decide) hM | intro _ | with_reducible apply ite_stays | with_reducible apply State.kevent_stays
    | with_reducible apply State.setTds_stays

theorem State.reschedAll_stays (s : State) (h0 : s.Stays fs s₀) (hM : [.ctxs] ⊆ fs) :
    State.Stays (State.reschedAll s) fs s₀ := by
  unfold State.reschedAll
  repeat' first
    | with_reducible assumption | with_reducible exact List.Subset.trans (by decide) hM | intro _ | with_reducible apply State.each_stays | with_reducible apply State.resched_stays

theorem State.modCore_stays (s : State) (c : Nat) (f : CoreSt → CoreSt) (h0 : s.Stays fs s₀) (hM : [.cores] ⊆ fs) :
    State.Stays (State.modCore s c f) fs s₀ :=
  State.with_cores _ h0 hM

theorem State.loadsDone_stays (s : State) (g : Nat) (h0 : s.Stays fs s₀) (hM : [.ctxs] ⊆ fs) :
    State.Stays (State.loadsDone s g) fs s₀ := by
  unfold State.loadsDone
  repeat' first
    | with_reducible assumption | with_reducible exact List.Subset.trans (by decide) hM | intro _ | with_reducible apply ite_stays | with_reducible apply State.modCtx_stays

theorem State.setBdr_stays (s : State) (f : Bdr → Bdr) (h0 : s.Stays fs s₀) (hM : [.bdr] ⊆ fs) :
    State.Stays (State.setBdr s f) fs s₀ :=
  State.with_bdr _ h0 hM

theorem State.wear_stays (s : State) (page n : Nat) (h0 : s.Stays fs s₀) (hM : [.bdr] ⊆ fs) :
    State.Stays (State.wear s page n) fs s₀ :=
  State.with_bdr _ h0 hM

theorem State.wearLines_stays (s : State) (off n : Nat) (h0 : s.Stays fs s₀) (hM : [.bdr] ⊆ fs) :
    State.Stays (State.wearLines s off n) fs s₀ := by
  unfold State.wearLines
  repeat' first
    | with_reducible assumption | with_reducible exact List.Subset.trans (by decide) hM | intro _ | with_reducible apply State.each_stays | with_reducible apply State.wear_stays

theorem State.setSlot_stays (s : State) (k : Nat) (x : Slot) (h0 : s.Stays fs s₀) (hM : [.bdr] ⊆ fs) :
    State.Stays (State.setSlot s k x) fs s₀ :=
  State.with_bdr _ h0 hM

theorem State.applyBytes_stays (s : State) (m : Sys2Proof.SMap (Option Sys2Proof.Byte)) (h0 : s.Stays fs s₀) (hM : [.mem, .bdr] ⊆ fs) :
    State.Stays (State.applyBytes s m) fs s₀ := by
  unfold State.applyBytes
  repeat' first
    | with_reducible assumption | with_reducible exact List.Subset.trans (by decide) hM | intro _
    | (extract_lets +onlyGivenNames u; refine cut_goal (P := State.Stays u fs s₀) ?_ fun _ => ?_; (on_goal 2 => clear_value u); (on_goal 1 => (unfold u; clear u)))
    | with_reducible apply State.each_stays | with_reducible apply State.setByte_stays | with_reducible apply State.wear_stays
      | dsimp only | split

theorem State.applySlot_stays (s : State) (k : Nat) (h0 : s.Stays fs s₀) (hM : [.mem, .bdr] ⊆ fs) :
    State.Stays (State.applySlot s k) fs s₀ := by
  unfold State.applySlot
  repeat' first
    | with_reducible assumption | with_reducible exact List.Subset.trans (by decide) hM | intro _ | with_reducible apply State.setSlot_stays | with_reducible apply State.wear_stays
    | with_reducible apply State.applyBytes_stays

theorem State.finishApply_stays (s : State) (h0 : s.Stays fs s₀) (hM : [.objs, .mem, .bdr] ⊆ fs) :
    State.Stays (State.finishApply s) fs s₀ := by
  unfold State.finishApply
  repeat' first
    | with_reducible assumption | with_reducible exact List.Subset.trans (by decide) hM | intro _ | with_reducible apply State.incOb_stays | with_reducible apply State.applySlot_stays
      | dsimp only | split

theorem State.journal_stays (s : State) (m : Sys2Proof.SMap (Option Sys2Proof.Byte)) (h0 : s.Stays fs s₀) (hM : [.objs, .mem, .bdr] ⊆ fs) :
    State.Stays (State.journal s m) fs s₀ := by
  unfold State.journal
  repeat' first
    | with_reducible assumption | with_reducible exact List.Subset.trans (by decide) hM | intro _
    | (extract_lets +onlyGivenNames u; refine cut_goal (P := State.Stays u fs s₀) ?_ fun _ => ?_; (on_goal 2 => clear_value u); (on_goal 1 => (unfold u; clear u)))
    | (extract_lets +onlyGivenNames u; clear_value u) | with_reducible apply State.finishApply_stays
    | with_reducible apply State.wear_stays | with_reducible apply State.setBdr_stays
    | with_reducible apply State.setSlot_stays

theorem State.bedTxn_stays (s : State) (m : Sys2Proof.SMap (Option Sys2Proof.Byte)) (h0 : s.Stays fs s₀) (hM : [.objs, .mem, .bdr] ⊆ fs) :
    State.Stays (State.bedTxn s m).1 fs s₀ := by
  unfold State.bedTxn
  repeat' first
    | with_reducible assumption | with_reducible exact List.Subset.trans (by decide) hM | intro _ | with_reducible apply ite_stays | with_reducible apply State.incOb_stays
    | with_reducible apply State.finishApply_stays | with_reducible apply State.journal_stays | split

theorem State.forceRange_stays (s : State) (area off n dst : Nat) (h0 : s.Stays fs s₀) (hM : [.mem] ⊆ fs) :
    State.Stays (State.forceRange s area off n dst) fs s₀ := by
  unfold State.forceRange
  repeat' first
    | with_reducible assumption | with_reducible exact List.Subset.trans (by decide) hM | intro _ | (extract_lets +onlyGivenNames u; clear_value u) | with_reducible apply ite_stays
    | with_reducible apply State.each_stays | with_reducible apply State.setByte_stays

theorem State.setImg_stays (s : State) (f : Img → Img) (h0 : s.Stays fs s₀) (hM : [.img] ⊆ fs) :
    State.Stays (State.setImg s f) fs s₀ :=
  State.with_img _ h0 hM

theorem State.orphanRise_stays (s : State) (before : Nat) (h0 : s.Stays fs s₀) (hM : [.flt] ⊆ fs) :
    State.Stays (State.orphanRise s before) fs s₀ := by
  unfold State.orphanRise
  repeat' first
    | with_reducible assumption | with_reducible exact List.Subset.trans (by decide) hM | intro _ | with_reducible apply State.when_stays | with_reducible apply State.raise_stays

theorem State.orphanAll_stays (s : State) (h0 : s.Stays fs s₀) (hM : [.img, .flt] ⊆ fs) :
    State.Stays (State.orphanAll s) fs s₀ := by
  unfold State.orphanAll
  repeat' first
    | with_reducible assumption | with_reducible exact List.Subset.trans (by decide) hM | intro _ | (extract_lets +onlyGivenNames u; clear_value u)
    | with_reducible apply State.orphanRise_stays | with_reducible apply State.setImg_stays

theorem State.saveLine_stays (s : State) (l : Nat) (h0 : s.Stays fs s₀) (hM : [.mem, .img] ⊆ fs) :
    State.Stays (State.saveLine s l) fs s₀ := by
  unfold State.saveLine
  repeat' first
    | with_reducible assumption | with_reducible exact List.Subset.trans (by decide) hM | intro _ | with_reducible apply ite_stays | with_reducible apply State.setImg_stays
    | with_reducible apply State.blit_stays

theorem State.copyProgress_stays (s : State) (h0 : s.Stays fs s₀) (hM : [.mem, .img] ⊆ fs) :
    State.Stays (State.copyProgress s) fs s₀ := by
  unfold State.copyProgress
  repeat' first
    | with_reducible assumption | with_reducible exact List.Subset.trans (by decide) hM | intro _ | (extract_lets +onlyGivenNames u; clear_value u) | with_reducible apply ite_stays
    | with_reducible apply State.setImg_stays | with_reducible apply State.each_stays
    | with_reducible apply State.saveLine_stays

theorem State.markLine_stays (s : State) (l : Nat) (h0 : s.Stays fs s₀) (hM : [.img] ⊆ fs) :
    State.Stays (State.markLine s l) fs s₀ := by
  unfold State.markLine
  repeat' first
    | with_reducible assumption | with_reducible exact List.Subset.trans (by decide) hM | intro _ | with_reducible apply ite_stays | with_reducible apply State.setImg_stays

theorem State.landWrite_stays (s : State) (off : Nat) (b : List Sys2Proof.Byte) (h0 : s.Stays fs s₀) (hM : [.mem, .img] ⊆ fs) :
    State.Stays (State.landWrite s off b) fs s₀ := by
  unfold State.landWrite
  repeat' first
    | with_reducible assumption | with_reducible exact List.Subset.trans (by decide) hM | intro _
    | (extract_lets +onlyGivenNames u; refine cut_goal (P := State.Stays u fs s₀) ?_ fun _ => ?_; (on_goal 2 => clear_value u); (on_goal 1 => (unfold u; clear u)))
    | (extract_lets +onlyGivenNames u; clear_value u) | with_reducible apply State.each_stays
    | with_reducible apply State.saveLine_stays | with_reducible apply State.putBytes_stays
    | with_reducible apply State.forceRange_stays | with_reducible apply State.markLine_stays

theorem State.hold_stays (s : State) (e : Option Nat × HeldOp) (h0 : s.Stays fs s₀) (hM : [.img] ⊆ fs) :
    State.Stays (State.hold s e) fs s₀ :=
  State.with_img _ h0 hM

theorem State.holdPlace_stays (s : State) (e : Option Nat × HeldOp) (h0 : s.Stays fs s₀) (hM : [.tds] ⊆ fs) :
    State.Stays (State.holdPlace s e).1 fs s₀ := by
  unfold State.holdPlace
  repeat' first
    | with_reducible assumption | with_reducible exact List.Subset.trans (by decide) hM | intro _ | with_reducible apply_assumption | with_reducible apply State.setTds_stays
    | with_reducible apply foldl_stays1   | dsimp only
    | split

theorem State.devTxn_stays (s : State) (first pages : Nat) (f : State → State) (h : s.Stays fs s₀)
    (hf : ∀ u, State.Stays u fs s₀ → (f u).Stays fs s₀) (hM : [.objs, .mem, .bdr, .fresh] ⊆ fs) :
    State.Stays (s.devTxn first pages f) fs s₀ := by
  unfold State.devTxn
  split
  · exact h
  · split
    · exact State.incOb_stays _ _ h (Field.within hM (by decide))
    · extract_lets u data
      have hu : u.Stays fs s₀ := State.finishApply_stays _ h (Field.within hM (by decide))
      clear_value u data
      with_reducible refine hf _ (State.draw_stays _ ?_ (Field.within hM (by decide)))
      repeat' first
        | with_reducible assumption | with_reducible exact List.Subset.trans (by decide) hM | with_reducible apply State.wear_stays | with_reducible apply State.finishApply_stays
        | with_reducible apply State.journal_stays

theorem State.devRecord_stays (s : State) (f : State → State) (h : s.Stays fs s₀)
    (hf : ∀ u, State.Stays u fs s₀ → (f u).Stays fs s₀) (hM : [.objs, .mem, .bdr, .fresh] ⊆ fs) :
    State.Stays (s.devRecord f) fs s₀ := State.devTxn_stays _ _ _ _ h hf (Field.within hM (by decide))

theorem State.retainForceTable_stays (s : State) (h0 : s.Stays fs s₀) (hM : [.objs, .mem, .str, .bdr, .fresh] ⊆ fs) :
    State.Stays (State.retainForceTable s) fs s₀ := by
  unfold State.retainForceTable
  repeat' first
    | with_reducible assumption | with_reducible exact List.Subset.trans (by decide) hM | intro _ | (extract_lets +onlyGivenNames u; clear_value u) | with_reducible apply ite_stays
    | with_reducible apply State.devTxn_stays
    | with_reducible apply State.with_str

theorem State.landForce_stays (s : State) (c : Sys2Proof.FChange) (h0 : s.Stays fs s₀) (hM : [.objs, .mem, .img, .str, .bdr, .flt, .fresh] ⊆ fs) :
    State.Stays (State.landForce s c) fs s₀ := by
  unfold State.landForce
  repeat' first
    | with_reducible assumption | with_reducible exact List.Subset.trans (by decide) hM | intro _
    | (extract_lets +onlyGivenNames u; refine cut_goal (P := State.Stays u fs s₀) ?_ fun _ => ?_; (on_goal 2 => clear_value u); (on_goal 1 => (unfold u; clear u)))
    | (extract_lets +onlyGivenNames u; clear_value u) | with_reducible apply ite_stays | with_reducible apply State.each_stays
    | with_reducible apply State.saveLine_stays | with_reducible apply State.setImg_stays
    | with_reducible apply State.setOb_stays | with_reducible apply State.setByte_stays
    | with_reducible apply State.retainForceTable_stays | with_reducible apply State.orphanRise_stays
    | with_reducible apply State.markLine_stays  
    | dsimp only | split

theorem State.countHold_stays (s : State) (n : Nat) (h0 : s.Stays fs s₀) (hM : [.objs] ⊆ fs) :
    State.Stays (State.countHold s n) fs s₀ :=
  State.with_objs _ h0 hM

theorem State.imgWrite_stays (s : State) (off : Nat) (b : List Sys2Proof.Byte) (h0 : s.Stays fs s₀) (hM : [.objs, .mem, .img] ⊆ fs) :
    State.Stays (State.imgWrite s off b) fs s₀ := by
  unfold State.imgWrite
  repeat' first
    | with_reducible assumption | with_reducible exact List.Subset.trans (by decide) hM | intro _
    | (extract_lets +onlyGivenNames u; refine cut_goal (P := State.Stays u fs s₀) ?_ fun _ => ?_; (on_goal 2 => clear_value u); (on_goal 1 => (unfold u; clear u)))
    | (extract_lets +onlyGivenNames u; clear_value u) | with_reducible apply ite_stays
    | with_reducible apply State.copyProgress_stays | with_reducible apply State.landWrite_stays
    | with_reducible apply State.countHold_stays | with_reducible apply State.hold_stays

theorem State.imgForce_stays (s : State) (c : Sys2Proof.FChange) (h0 : s.Stays fs s₀) (hM : [.objs, .mem, .img, .str, .bdr, .flt, .fresh] ⊆ fs) :
    State.Stays (State.imgForce s c) fs s₀ := by
  unfold State.imgForce
  repeat' first
    | with_reducible assumption | with_reducible exact List.Subset.trans (by decide) hM | intro _
    | (extract_lets +onlyGivenNames u; refine cut_goal (P := State.Stays u fs s₀) ?_ fun _ => ?_; (on_goal 2 => clear_value u); (on_goal 1 => (unfold u; clear u)))
    | (extract_lets +onlyGivenNames u; clear_value u) | with_reducible apply ite_stays
    | with_reducible apply State.copyProgress_stays | with_reducible apply State.landForce_stays
    | with_reducible apply State.countHold_stays | with_reducible apply State.hold_stays

theorem State.landHeldForce_stays (s : State) (e : Option Nat × HeldOp) (h0 : s.Stays fs s₀) (hM : [.objs, .mem, .tds, .img, .str, .bdr, .flt, .fresh] ⊆ fs) :
    State.Stays (State.landHeldForce s e) fs s₀ := by
  unfold State.landHeldForce
  split
  · split
    · extract_lets p
      have hp : p.1.Stays fs s₀ := State.holdPlace_stays _ _ h0 (Field.within hM (by decide))
      clear_value p
      split
      · exact State.landForce_stays _ _ hp (Field.within hM (by decide))
      · exact State.hold_stays _ _ hp (Field.within hM (by decide))
    · exact State.hold_stays _ _ h0 (Field.within hM (by decide))
  · exact State.hold_stays _ _ h0 (Field.within hM (by decide))

theorem State.pumpForces_stays (s : State) (h0 : s.Stays fs s₀) (hM : [.objs, .mem, .tds, .img, .str, .bdr, .flt, .fresh] ⊆ fs) :
    State.Stays (State.pumpForces s) fs s₀ := by
  unfold State.pumpForces
  repeat' first
    | with_reducible assumption | with_reducible exact List.Subset.trans (by decide) hM | intro _
    | (extract_lets +onlyGivenNames u; refine cut_goal (P := State.Stays u fs s₀) ?_ fun _ => ?_; (on_goal 2 => clear_value u); (on_goal 1 => (unfold u; clear u)))
    | (extract_lets +onlyGivenNames u; clear_value u) | with_reducible apply State.each_stays
    | with_reducible apply State.setImg_stays | with_reducible apply State.landHeldForce_stays
    | with_reducible apply State.setTds_stays | with_reducible apply State.imgForce_stays

theorem State.forceChange_stays (s : State) (c : Sys2Proof.FChange) (h0 : s.Stays fs s₀) (hM : [.objs, .mem, .tds, .img, .str, .bdr, .flt, .fresh] ⊆ fs) :
    State.Stays (State.forceChange s c) fs s₀ := by
  unfold State.forceChange
  repeat' first
    | with_reducible assumption | with_reducible exact List.Subset.trans (by decide) hM | intro _ | with_reducible apply State.pumpForces_stays
    | with_reducible apply State.setTds_stays

theorem State.invalidate_stays (s : State) (strand off n : Nat) (writer : Option Nat) (h0 : s.Stays fs s₀) (hM : [.cores] ⊆ fs) :
    State.Stays (State.invalidate s strand off n writer) fs s₀ := by
  unfold State.invalidate
  repeat' first
    | with_reducible assumption | with_reducible exact List.Subset.trans (by decide) hM | intro _ | (extract_lets +onlyGivenNames u; clear_value u) | with_reducible apply ite_stays
    | with_reducible apply State.each_stays | with_reducible apply State.setCore_stays

theorem State.seqBegin_stays (s : State) (k : Nat) (h0 : s.Stays fs s₀) (hM : [.objs, .dma, .fresh] ⊆ fs) :
    State.Stays (State.seqBegin s k) fs s₀ := by
  unfold State.seqBegin
  repeat' first
    | with_reducible assumption | with_reducible exact List.Subset.trans (by decide) hM | intro _ | (extract_lets +onlyGivenNames u; clear_value u)
    | with_reducible apply State.draw_stays | with_reducible apply State.setOb_stays | with_reducible apply State.setCh_stays

theorem State.seqMove_stays (s : State) (k src dst n : Nat) (h0 : s.Stays fs s₀) (hM : [.objs, .dma] ⊆ fs) :
    State.Stays (State.seqMove s k src dst n) fs s₀ := by
  unfold State.seqMove
  repeat' first
    | with_reducible assumption | with_reducible exact List.Subset.trans (by decide) hM | intro _ | (extract_lets +onlyGivenNames u; clear_value u)
    | with_reducible apply State.incOb_stays | with_reducible apply State.addOb_stays | with_reducible apply State.setCh_stays

theorem State.seqStop_stays (s : State) (k src dst n : Nat) (e : CopyErr) (h0 : s.Stays fs s₀) (hM : [.objs, .dma] ⊆ fs) :
    State.Stays (State.seqStop s k src dst n e) fs s₀ := by
  unfold State.seqStop
  repeat' first
    | with_reducible assumption | with_reducible exact List.Subset.trans (by decide) hM | intro _ | (extract_lets +onlyGivenNames u; clear_value u)
    | with_reducible apply State.addOb_stays | with_reducible apply State.setCh_stays

theorem State.seqEnd_stays (s : State) (k : Nat) (h0 : s.Stays fs s₀) (hM : [.dma] ⊆ fs) :
    State.Stays (State.seqEnd s k) fs s₀ := by
  unfold State.seqEnd
  repeat' first
    | with_reducible assumption | with_reducible exact List.Subset.trans (by decide) hM | intro _ | (extract_lets +onlyGivenNames u; clear_value u) | with_reducible apply ite_stays
    | with_reducible apply State.setCh_stays

theorem State.seqLine_stays (s : State) (k src dst n : Nat) (h0 : s.Stays fs s₀) (hM : [.objs, .dma, .fresh] ⊆ fs) :
    State.Stays (State.seqLine s k src dst n) fs s₀ := by
  unfold State.seqLine
  repeat' first
    | with_reducible assumption | with_reducible exact List.Subset.trans (by decide) hM | intro _ | with_reducible apply State.seqEnd_stays | with_reducible apply State.seqMove_stays
    | with_reducible apply State.seqBegin_stays

theorem State.chanHalt_stays (s : State) (k : Nat) (e : CopyErr) (h0 : s.Stays fs s₀) (hM : [.objs, .dma, .flt] ⊆ fs) :
    State.Stays (State.chanHalt s k e) fs s₀ := by
  unfold State.chanHalt
  repeat' first
    | with_reducible assumption | with_reducible exact List.Subset.trans (by decide) hM | intro _
    | (extract_lets +onlyGivenNames u; clear_value u) | with_reducible apply State.incOb_stays
    | with_reducible apply State.raise_stays | with_reducible apply State.setCh_stays

theorem State.copyOld_stays (s : State) (e : ListEntry) (dst m : Nat) (old : List (Nat × List Sys2Proof.Byte)) (h0 : s.Stays fs s₀) (hM : [.mem] ⊆ fs) :
    State.Stays (State.copyOld s e dst m old) fs s₀ := by
  unfold State.copyOld
  repeat' first
    | with_reducible assumption | with_reducible exact List.Subset.trans (by decide) hM | intro _ | with_reducible apply ite_stays | with_reducible apply State.each_stays
    | with_reducible apply State.putBytes_stays

theorem State.copyInEntry_stays (s : State) (n : Nat) (old : List (Nat × List Sys2Proof.Byte)) (e : ListEntry) (m : Nat) (h0 : s.Stays fs s₀) (hM : [.mem, .ecc, .cores] ⊆ fs) :
    State.Stays (State.copyInEntry s n old e m) fs s₀ := by
  unfold State.copyInEntry
  repeat' first
    | with_reducible assumption | with_reducible exact List.Subset.trans (by decide) hM | intro _
    | (extract_lets +onlyGivenNames u; refine cut_goal (P := State.Stays u fs s₀) ?_ fun _ => ?_; (on_goal 2 => clear_value u); (on_goal 1 => (unfold u; clear u)))
    | (extract_lets +onlyGivenNames u; clear_value u) | with_reducible apply State.copyOld_stays
    | with_reducible apply State.blit_stays | with_reducible apply State.invalidate_stays
    | with_reducible apply State.eccClear_stays | with_reducible apply State.forceRange_stays

theorem State.copyInSec_stays (s : State) (t i : Nat) (old : List (Nat × List Sys2Proof.Byte)) (h0 : s.Stays fs s₀) (hM : [.objs, .mem, .ecc, .cores, .dma, .fresh] ⊆ fs) :
    State.Stays (State.copyInSec s t i old).1 fs s₀ := by
  unfold State.copyInSec
  extract_lets n r
  have hr : r.1.Stays fs s₀ := by
    refine foldl_stays1 _ _ (State.seqBegin_stays _ _ h0 (Field.within hM (by decide))) (fun p e hp => ?_)
    split
    · exact hp
    · split
      · exact State.seqStop_stays _ _ _ _ _ _ (State.copyInEntry_stays _ _ _ _ _ hp (Field.within hM (by decide))) (Field.within hM (by decide))
      · exact State.seqMove_stays _ _ _ _ _ (State.copyInEntry_stays _ _ _ _ _ hp (Field.within hM (by decide))) (Field.within hM (by decide))
  clear_value r n
  exact State.seqEnd_stays _ _ hr (Field.within hM (by decide))

theorem State.copyBackRun_stays (s : State) (t i : Nat) (h0 : s.Stays fs s₀) (hM : [.objs, .dma, .fresh] ⊆ fs) :
    State.Stays (State.copyBackRun s t i).1 fs s₀ := by
  unfold State.copyBackRun
  repeat' first
    | with_reducible assumption | with_reducible exact List.Subset.trans (by decide) hM | intro _
    | (extract_lets +onlyGivenNames u; refine cut_goal (P := State.Stays u fs s₀) ?_ fun _ => ?_; (on_goal 2 => clear_value u); (on_goal 1 => (unfold u; clear u)))
    | (extract_lets +onlyGivenNames u; refine cut_goal (P := State.Stays u.1 fs s₀) ?_ fun _ => ?_; (on_goal 2 => clear_value u); (on_goal 1 => (unfold u; clear u)))
    | (extract_lets +onlyGivenNames u; clear_value u) | with_reducible apply_assumption
    | with_reducible apply State.strandCorr_stays | with_reducible apply State.seqStop_stays
    | with_reducible apply State.seqMove_stays | with_reducible apply State.seqBegin_stays
    | with_reducible apply State.seqEnd_stays | with_reducible apply State.foldl_stays | with_reducible apply foldl_stays1
      | dsimp only | split

theorem State.copyBackReach_stays (s : State) (t : Nat) (h0 : s.Stays fs s₀) (hM : [.mem, .img] ⊆ fs) :
    State.Stays (State.copyBackReach s t) fs s₀ := by
  unfold State.copyBackReach
  repeat' first
    | with_reducible assumption | with_reducible exact List.Subset.trans (by decide) hM | intro _ | with_reducible apply State.each_stays | with_reducible apply State.saveLine_stays

theorem State.copyBackAll_stays (s : State) (t : Nat) (h0 : s.Stays fs s₀) (hM : [.mem, .img] ⊆ fs) :
    State.Stays (State.copyBackAll s t) fs s₀ := by
  unfold State.copyBackAll
  repeat' first
    | with_reducible assumption | with_reducible exact List.Subset.trans (by decide) hM | intro _
    | (extract_lets +onlyGivenNames u; refine cut_goal (P := State.Stays u fs s₀) ?_ fun _ => ?_; (on_goal 2 => clear_value u); (on_goal 1 => (unfold u; clear u)))
    | (extract_lets +onlyGivenNames u; clear_value u) | with_reducible apply State.each_stays
    | with_reducible apply State.saveLine_stays | with_reducible apply State.forceRange_stays
    | with_reducible apply State.blit_stays | with_reducible apply State.markLine_stays

theorem State.setNtm_stays (s : State) (f : Ntm → Ntm) (h0 : s.Stays fs s₀) (hM : [.ntm] ⊆ fs) :
    State.Stays (State.setNtm s f) fs s₀ :=
  State.with_ntm _ h0 hM

theorem State.setGate_stays (s : State) (p : Nat) (g : Gate) (h0 : s.Stays fs s₀) (hM : [.ntm] ⊆ fs) :
    State.Stays (State.setGate s p g) fs s₀ :=
  State.with_ntm _ h0 hM

theorem State.gateNow_stays (s : State) (p : Nat) (h0 : s.Stays fs s₀) (hM : [.ntm] ⊆ fs) :
    State.Stays (State.gateNow s p) fs s₀ :=
  State.with_ntm _ h0 hM

theorem State.gatesNow_stays (s : State) (h0 : s.Stays fs s₀) (hM : [.ntm] ⊆ fs) :
    State.Stays (State.gatesNow s) fs s₀ := by
  unfold State.gatesNow
  repeat' first
    | with_reducible assumption | with_reducible exact List.Subset.trans (by decide) hM | intro _ | with_reducible apply State.each_stays | with_reducible apply State.gateNow_stays

theorem State.setNs_stays (s : State) (n : Nat) (h0 : s.Stays fs s₀) (hM : [.ntm] ⊆ fs) :
    State.Stays (State.setNs s n) fs s₀ :=
  State.with_ntm _ h0 hM

theorem State.thrCount_stays (s : State) (m0 m1 n : Nat) (h0 : s.Stays fs s₀) (hM : [.objs, .fresh] ⊆ fs) :
    State.Stays (State.thrCount s m0 m1 n) fs s₀ := by
  unfold State.thrCount
  repeat' first
    | with_reducible assumption | with_reducible exact List.Subset.trans (by decide) hM | intro _ | (extract_lets +onlyGivenNames u; clear_value u) | with_reducible apply ite_stays
    | with_reducible apply State.addOb_stays | with_reducible apply State.draw_stays

theorem State.elapse_stays (s : State) (m : Nat) (h0 : s.Stays fs s₀) (hM : [.objs, .ntm, .fresh] ⊆ fs) :
    State.Stays (State.elapse s m) fs s₀ := by
  unfold State.elapse
  repeat' first
    | with_reducible assumption | with_reducible exact List.Subset.trans (by decide) hM | intro _
    | (extract_lets +onlyGivenNames u; refine cut_goal (P := State.Stays u fs s₀) ?_ fun _ => ?_; (on_goal 2 => clear_value u); (on_goal 1 => (unfold u; clear u)))
    | (extract_lets +onlyGivenNames u; clear_value u) | with_reducible apply State.each_stays
    | with_reducible apply State.thrCount_stays
    | with_reducible apply State.with_ntm

theorem State.advance_stays (s : State) (dt : Nat) (h0 : s.Stays fs s₀) (hM : [.objs, .ntm, .fresh] ⊆ fs) :
    State.Stays (State.advance s dt) fs s₀ := by
  unfold State.advance
  repeat' first
    | with_reducible assumption | with_reducible exact List.Subset.trans (by decide) hM | intro _ | with_reducible apply State.elapse_stays | with_reducible apply State.setNs_stays

theorem State.stepTime_stays (s : State) (d : Int) (h0 : s.Stays fs s₀) (hM : [.objs, .ntm] ⊆ fs) :
    State.Stays (State.stepTime s d) fs s₀ := by
  unfold State.stepTime
  repeat' first
    | with_reducible assumption | with_reducible exact List.Subset.trans (by decide) hM | intro _
    | with_reducible apply State.incOb_stays | with_reducible apply State.setNs_stays

theorem State.takeSteps_stays (s : State) (h0 : s.Stays fs s₀) (hM : [.objs, .ntm] ⊆ fs) :
    State.Stays (State.takeSteps s) fs s₀ := by
  unfold State.takeSteps
  repeat' first
    | with_reducible assumption | with_reducible exact List.Subset.trans (by decide) hM | intro _ | (extract_lets +onlyGivenNames u; clear_value u) | with_reducible apply ite_stays
    | with_reducible apply State.gatesNow_stays | with_reducible apply State.each_stays
    | with_reducible apply State.setNtm_stays | with_reducible apply State.stepTime_stays

theorem State.tick_stays (s : State) (h0 : s.Stays fs s₀) (hM : [.objs, .ntm, .fresh] ⊆ fs) :
    State.Stays (State.tick s) fs s₀ := by
  unfold State.tick
  repeat' first
    | with_reducible assumption | with_reducible exact List.Subset.trans (by decide) hM | intro _
    | (extract_lets +onlyGivenNames u; refine cut_goal (P := State.Stays u fs s₀) ?_ fun _ => ?_; (on_goal 2 => clear_value u); (on_goal 1 => (unfold u; clear u)))
    | (extract_lets +onlyGivenNames u; clear_value u) | with_reducible apply State.elapse_stays
    | with_reducible apply State.setNs_stays | with_reducible apply State.takeSteps_stays
    | with_reducible apply State.with_ntm

theorem State.begin_stays (s : State) (h : s.Stays fs s₀) (hM : [.objs, .ntm, .fresh] ⊆ fs) :
    s.begin_.Stays fs s₀ := by
  unfold State.begin_
  split
  · exact h
  · exact State.tick_stays _ h (Field.within hM (by decide))

theorem State.reach_stays (s : State) (t : Nat) (h0 : s.Stays fs s₀) (hM : [.objs, .ntm, .fresh] ⊆ fs) :
    State.Stays (State.reach s t) fs s₀ := by
  unfold State.reach
  have hb := State.begin_stays s h0 (Field.within hM (by decide))
  split
  · extract_lets u
    replace hb : u.Stays fs s₀ := hb
    clear_value u
    split
    · exact State.advance_stays _ _ hb (Field.within hM (by decide))
    · exact hb
  · exact h0

theorem State.reachMono_stays (s : State) (t : Nat) (h0 : s.Stays fs s₀) (hM : [.objs, .ntm, .fresh] ⊆ fs) :
    State.Stays (State.reachMono s t) fs s₀ := by
  unfold State.reachMono
  have hb := State.begin_stays s h0 (Field.within hM (by decide))
  split
  · extract_lets u
    replace hb : u.Stays fs s₀ := hb
    clear_value u
    split
    · exact State.advance_stays _ _ hb (Field.within hM (by decide))
    · exact hb
  · exact h0

theorem State.duesAnew_stays (s : State) (h0 : s.Stays fs s₀) (hM : [.chk, .pmc] ⊆ fs) :
    State.Stays (State.duesAnew s) fs s₀ :=
  h0.put (fun f => by cases f <;> first | exact .inl (hM (by decide)) | exact .inr rfl) rfl rfl

theorem State.sendToken_stays (s : State) (h0 : s.Stays fs s₀) (hM : [.ntm] ⊆ fs) :
    State.Stays (State.sendToken s) fs s₀ := by
  unfold State.sendToken
  repeat' first
    | with_reducible assumption | with_reducible exact List.Subset.trans (by decide) hM | intro _
    | (extract_lets +onlyGivenNames u; refine cut_goal (P := State.Stays u fs s₀) ?_ fun _ => ?_; (on_goal 2 => clear_value u); (on_goal 1 => (unfold u; clear u)))
    | (extract_lets +onlyGivenNames u; clear_value u) | with_reducible apply ite_stays | with_reducible apply State.each_stays
    | with_reducible apply State.when_stays
    | with_reducible apply State.with_ntm

theorem State.setCell_stays (s : State) (a : Nat) (x : Cell) (h0 : s.Stays fs s₀) (hM : [.mem] ⊆ fs) :
    State.Stays (State.setCell s a x) fs s₀ := by
  unfold State.setCell
  repeat' first
    | with_reducible assumption | with_reducible exact List.Subset.trans (by decide) hM | intro _ | with_reducible apply State.wr_stays

theorem State.countBadKind_stays (s : State) (n : Nat) (h0 : s.Stays fs s₀) (hM : [.objs] ⊆ fs) :
    State.Stays (State.countBadKind s n) fs s₀ :=
  State.with_objs _ h0 hM

theorem State.rebaseVisit_stays (p : State × Rebase) (c : Nat) (h : p.1.Stays fs s₀) (hM : [.mem] ⊆ fs) :
    (State.rebaseVisit p c).1.Stays fs s₀ := by
  unfold State.rebaseVisit
  extract_lets r at_ a x now
  have hc : State.Stays (p.1.setCell a { x with stamp := sub32 now x.elapsed }) fs s₀ := State.setCell_stays _ _ _ h (Field.within hM (by decide))
  clear_value r at_ a x now
  split
  · exact h
  · dsimp only
    exact State.when_stays _ _ h hc

theorem State.rebaseTo_stays (s : State) (n : Nat) (h0 : s.Stays fs s₀) (hM : [.mem, .tds] ⊆ fs) :
    State.Stays (State.rebaseTo s n) fs s₀ := by
  unfold State.rebaseTo
  split
  · exact h0
  · extract_lets p
    have hp : p.1.Stays fs s₀ := foldl_stays1 _ _ h0 (fun q c hq => State.rebaseVisit_stays q c hq (Field.within hM (by decide)))
    clear_value p
    exact State.with_tds _ hp (Field.within hM (by decide))

theorem State.rebaseEnd_stays (s : State) (n : Nat) (h0 : s.Stays fs s₀) (hM : [.objs, .mem, .tds, .ntm, .fresh] ⊆ fs) :
    State.Stays (State.rebaseEnd s n) fs s₀ := by
  unfold State.rebaseEnd
  repeat' first
    | with_reducible assumption | with_reducible exact List.Subset.trans (by decide) hM | intro _ | with_reducible apply ite_stays | with_reducible apply State.reach_stays
    | with_reducible apply State.rebaseTo_stays  
    | dsimp only | split
    | with_reducible apply State.with_tds

theorem State.reachUs_stays (s : State) (u : Nat) (h0 : s.Stays fs s₀) (hM : [.objs, .ntm, .fresh] ⊆ fs) :
    State.Stays (State.reachUs s u) fs s₀ := by
  unfold State.reachUs
  repeat' first
    | with_reducible assumption | with_reducible exact List.Subset.trans (by decide) hM | intro _ | with_reducible apply ite_stays | with_reducible apply State.reach_stays

theorem State.bwEnd_stays (s : State) (h0 : s.Stays fs s₀) (hM : [.objs, .ntm, .pmc, .fresh] ⊆ fs) :
    State.Stays (State.bwEnd s) fs s₀ := by
  unfold State.bwEnd
  repeat' first
    | with_reducible assumption | with_reducible exact List.Subset.trans (by decide) hM | intro _
    | (extract_lets +onlyGivenNames u; refine cut_goal (P := State.Stays u fs s₀) ?_ fun _ => ?_; (on_goal 2 => clear_value u); (on_goal 1 => (unfold u; clear u)))
    | (extract_lets +onlyGivenNames u; clear_value u) | with_reducible apply ite_stays
    | with_reducible apply State.reachUs_stays | with_reducible apply State.each_stays | with_reducible apply State.setOb_stays
    | with_reducible apply State.with_pmc

theorem State.bwPast_stays (s : State) (h0 : s.Stays fs s₀) (hM : [.objs, .ntm, .pmc, .fresh] ⊆ fs) :
    State.Stays (State.bwPast s) fs s₀ := by
  unfold State.bwPast
  repeat' first
    | with_reducible assumption | with_reducible exact List.Subset.trans (by decide) hM | intro _ | with_reducible apply ite_stays | with_reducible apply State.bwEnd_stays

theorem State.bedDrop_stays (s : State) (who : Nat → Bool) (h0 : s.Stays fs s₀) (hM : [.objs, .bdr] ⊆ fs) :
    State.Stays (State.bedDrop s who) fs s₀ := by
  unfold State.bedDrop
  repeat' first
    | with_reducible assumption | with_reducible exact List.Subset.trans (by decide) hM | intro _
    | (extract_lets +onlyGivenNames u; refine cut_goal (P := State.Stays u fs s₀) ?_ fun _ => ?_; (on_goal 2 => clear_value u); (on_goal 1 => (unfold u; clear u)))
    | (extract_lets +onlyGivenNames u; clear_value u) | with_reducible apply ite_stays
    | with_reducible apply State.incOb_stays   | dsimp only
    | split
    | with_reducible apply State.with_bdr

theorem State.haltTaskAt_stays (s : State) (t : Nat) (h0 : s.Stays fs s₀) (hM : [.objs, .ctxs, .tasks, .bdr] ⊆ fs) :
    State.Stays (State.haltTaskAt s t) fs s₀ := by
  unfold State.haltTaskAt
  repeat' first
    | with_reducible assumption | with_reducible exact List.Subset.trans (by decide) hM | intro _ | (extract_lets +onlyGivenNames u; clear_value u) | with_reducible apply ite_stays
    | with_reducible apply State.kevent_stays | with_reducible apply State.modTask_stays
    | with_reducible apply State.bedDrop_stays

theorem State.haltContexts_stays (s : State) (h0 : s.Stays fs s₀) (hM : [.ctxs] ⊆ fs) :
    State.Stays (State.haltContexts s) fs s₀ := by
  unfold State.haltContexts
  repeat' first
    | with_reducible assumption | with_reducible exact List.Subset.trans (by decide) hM | intro _ | with_reducible apply State.each_stays | with_reducible apply State.modCtx_stays

theorem State.tideHalt_stays (s : State) (h0 : s.Stays fs s₀) (hM : [.objs, .mem, .ctxs, .tds, .tasks, .img, .str, .bdr, .flt, .fresh] ⊆ fs) :
    State.Stays (State.tideHalt s) fs s₀ := by
  unfold State.tideHalt
  repeat' first
    | with_reducible assumption | with_reducible exact List.Subset.trans (by decide) hM | intro _
    | (extract_lets +onlyGivenNames u; refine cut_goal (P := State.Stays u fs s₀) ?_ fun _ => ?_; (on_goal 2 => clear_value u); (on_goal 1 => (unfold u; clear u)))
    | with_reducible apply ite_stays | with_reducible apply State.haltContexts_stays | with_reducible apply State.each_stays
    | with_reducible apply State.haltTaskAt_stays | with_reducible apply State.setTds_stays
    | with_reducible apply State.pumpForces_stays | with_reducible apply State.reschedAll_stays
    | with_reducible apply State.toTide_stays

theorem State.tideSettle_stays (s : State) (h0 : s.Stays fs s₀) (hM : [.objs, .ctxs, .tds] ⊆ fs) :
    State.Stays (State.tideSettle s) fs s₀ := by
  unfold State.tideSettle
  repeat' first
    | with_reducible assumption | with_reducible exact List.Subset.trans (by decide) hM | intro _ | with_reducible apply ite_stays | with_reducible apply State.toTide_stays
    | with_reducible apply State.setTds_stays

theorem State.taskHalt_stays (s : State) (t sec : Nat) (h0 : s.Stays fs s₀) (hM : [.objs, .mem, .ctxs, .tds, .tasks, .img, .str, .bdr, .flt, .fresh] ⊆ fs) :
    State.Stays (State.taskHalt s t sec) fs s₀ := by
  unfold State.taskHalt
  repeat' first
    | with_reducible assumption | with_reducible exact List.Subset.trans (by decide) hM | intro _
    | (extract_lets +onlyGivenNames u; refine cut_goal (P := State.Stays u fs s₀) ?_ fun _ => ?_; (on_goal 2 => clear_value u); (on_goal 1 => (unfold u; clear u)))
    | (extract_lets +onlyGivenNames u; clear_value u) | with_reducible apply ite_stays
    | with_reducible apply State.bedDrop_stays | with_reducible apply State.modTask_stays
    | with_reducible apply State.incOb_stays | with_reducible apply State.kevent_stays
    | with_reducible apply State.tideHalt_stays | with_reducible apply State.tideSettle_stays

theorem State.faultRecord_stays (s : State) (g task code detail : Nat) (fpc faddr : Sys2Proof.Word) (h0 : s.Stays fs s₀) (hM : [.objs, .flt] ⊆ fs) :
    State.Stays (State.faultRecord s g task code detail fpc faddr) fs s₀ := by
  unfold State.faultRecord
  repeat' first
    | with_reducible assumption | with_reducible exact List.Subset.trans (by decide) hM | intro _
    | (extract_lets +onlyGivenNames u; refine cut_goal (P := State.Stays u fs s₀) ?_ fun _ => ?_; (on_goal 2 => clear_value u); (on_goal 1 => (unfold u; clear u)))
    | (extract_lets +onlyGivenNames u; clear_value u) | with_reducible apply State.setOb_stays
    | with_reducible apply State.raise_stays | with_reducible apply State.incOb_stays

theorem State.taskFault_stays (s : State) (g code detail : Nat) (fpc faddr pc : Sys2Proof.Word) (h0 : s.Stays fs s₀) (hM : [.objs, .mem, .ctxs, .tds, .tasks, .img, .str, .bdr, .flt, .fresh] ⊆ fs) :
    State.Stays (State.taskFault s g code detail fpc faddr pc) fs s₀ := by
  unfold State.taskFault
  repeat' first
    | with_reducible assumption | with_reducible exact List.Subset.trans (by decide) hM | intro _
    | (extract_lets +onlyGivenNames u; refine cut_goal (P := State.Stays u fs s₀) ?_ fun _ => ?_; (on_goal 2 => clear_value u); (on_goal 1 => (unfold u; clear u)))
    | (extract_lets +onlyGivenNames u; clear_value u) | with_reducible apply ite_stays
    | with_reducible apply State.faultRecord_stays | with_reducible apply State.resched_stays
    | with_reducible apply State.setCtx_stays | with_reducible apply State.raise_stays
    | with_reducible apply State.taskHalt_stays

theorem State.tideStart_stays (s : State) (h0 : s.Stays fs s₀) (hM : [.objs, .ctxs, .tds, .tasks, .img, .flt, .fresh] ⊆ fs) :
    State.Stays (State.tideStart s) fs s₀ := by
  unfold State.tideStart
  repeat' first
    | with_reducible assumption | with_reducible exact List.Subset.trans (by decide) hM | intro _
    | (extract_lets +onlyGivenNames u; refine cut_goal (P := State.Stays u fs s₀) ?_ fun _ => ?_; (on_goal 2 => clear_value u); (on_goal 1 => (unfold u; clear u)))
    | (extract_lets +onlyGivenNames u; clear_value u) | with_reducible apply ite_stays
    | with_reducible apply State.setOb_stays | with_reducible apply State.each_stays | with_reducible apply State.modCtx_stays
    | with_reducible apply State.setTask_stays | with_reducible apply State.orphanAll_stays
    | with_reducible apply State.countBadKind_stays | with_reducible apply State.setTds_stays
    | with_reducible apply State.draw_stays | with_reducible apply State.reschedAll_stays
    | with_reducible apply State.toTide_stays

theorem State.tideStop_stays (s : State) (h0 : s.Stays fs s₀) (hM : [.objs, .ctxs, .tds] ⊆ fs) :
    State.Stays (State.tideStop s) fs s₀ := by
  unfold State.tideStop
  repeat' first
    | with_reducible assumption | with_reducible exact List.Subset.trans (by decide) hM | intro _ | with_reducible apply State.toTide_stays
    | with_reducible apply State.tideSettle_stays | with_reducible apply State.setTds_stays 
     | dsimp only | split

theorem State.tideClear_stays (s : State) (h0 : s.Stays fs s₀) (hM : [.objs, .ctxs, .tds] ⊆ fs) :
    State.Stays (State.tideClear s) fs s₀ := by
  unfold State.tideClear
  repeat' first
    | with_reducible assumption | with_reducible exact List.Subset.trans (by decide) hM | intro _ | with_reducible apply ite_stays | with_reducible apply State.toTide_stays

theorem State.secReady_stays (s : State) (t i : Nat) (h0 : s.Stays fs s₀) (hM : [.ctxs, .tasks] ⊆ fs) :
    State.Stays (State.secReady s t i) fs s₀ := by
  unfold State.secReady
  repeat' first
    | with_reducible assumption | with_reducible exact List.Subset.trans (by decide) hM | intro _
    | (extract_lets +onlyGivenNames u; refine cut_goal (P := State.Stays u fs s₀) ?_ fun _ => ?_; (on_goal 2 => clear_value u); (on_goal 1 => (unfold u; clear u)))
    | (extract_lets +onlyGivenNames u; clear_value u) | with_reducible apply ite_stays
    | with_reducible apply State.modCtx_stays | with_reducible apply State.modTask_stays
    | with_reducible apply State.resched_stays

theorem State.openGates_stays (s : State) (t : Nat) (h0 : s.Stays fs s₀) (hM : [.objs, .mem, .ctxs, .tds, .tasks, .img, .str, .bdr, .flt, .fresh] ⊆ fs) :
    State.Stays (State.openGates s t) fs s₀ := by
  unfold State.openGates
  repeat' first
    | with_reducible assumption | with_reducible exact List.Subset.trans (by decide) hM | intro _ | with_reducible apply ite_stays | with_reducible apply State.each_stays
    | with_reducible apply State.secReady_stays

theorem State.dropFlights_stays (s : State) (g : Nat) (h0 : s.Stays fs s₀) (hM : [.cores] ⊆ fs) :
    State.Stays (State.dropFlights s g) fs s₀ := by
  unfold State.dropFlights
  repeat' first
    | with_reducible assumption | with_reducible exact List.Subset.trans (by decide) hM | intro _ | (extract_lets +onlyGivenNames u; clear_value u) | with_reducible apply ite_stays
    | with_reducible apply State.setCore_stays

theorem State.takeAt_stays (s : State) (t cause delay : Nat) (h0 : s.Stays fs s₀) (hM : [.objs, .mem, .sess, .ctxs, .cores, .tds, .tasks, .img, .str, .bdr, .flt, .sta, .fresh] ⊆ fs) :
    State.Stays (State.takeAt s t cause delay) fs s₀ := by
  unfold State.takeAt
  repeat' first
    | with_reducible assumption | with_reducible exact List.Subset.trans (by decide) hM | intro _
    | (extract_lets +onlyGivenNames u; refine cut_goal (P := State.Stays u fs s₀) ?_ fun _ => ?_; (on_goal 2 => clear_value u); (on_goal 1 => (unfold u; clear u)))
    | (extract_lets +onlyGivenNames u; clear_value u) | with_reducible apply ite_stays
    | with_reducible apply State.incOb_stays | with_reducible apply State.setOb_stays | with_reducible apply State.setTds_stays
    | with_reducible apply State.modTask_stays | with_reducible apply State.each_stays
    | with_reducible apply State.setSes_stays | with_reducible apply State.modCtx_stays
    | with_reducible apply State.dropFlights_stays | with_reducible apply State.openGates_stays
    | with_reducible apply State.sample_stays

theorem State.takeRelease_stays (s : State) (t cause : Nat) (h0 : s.Stays fs s₀) (hM : [.objs, .mem, .sess, .ctxs, .cores, .tds, .tasks, .img, .str, .bdr, .flt, .sta, .fresh] ⊆ fs) :
    State.Stays (State.takeRelease s t cause) fs s₀ := by
  unfold State.takeRelease
  repeat' first
    | with_reducible assumption | with_reducible exact List.Subset.trans (by decide) hM | intro _ | with_reducible apply State.takeAt_stays | with_reducible apply State.draw_stays

theorem State.abandonTask_stays (s : State) (t : Nat) (h0 : s.Stays fs s₀) (hM : [.objs, .mem, .ctxs, .tds, .tasks, .img, .str, .bdr, .flt, .fresh] ⊆ fs) :
    State.Stays (State.abandonTask s t) fs s₀ := by
  unfold State.abandonTask
  repeat' first
    | with_reducible assumption | with_reducible exact List.Subset.trans (by decide) hM | intro _
    | (extract_lets +onlyGivenNames u; refine cut_goal (P := State.Stays u fs s₀) ?_ fun _ => ?_; (on_goal 2 => clear_value u); (on_goal 1 => (unfold u; clear u)))
    | (extract_lets +onlyGivenNames u; clear_value u) | with_reducible apply ite_stays | with_reducible apply State.each_stays
    | with_reducible apply State.modCtx_stays | with_reducible apply State.modTask_stays
    | with_reducible apply State.setTds_stays | with_reducible apply State.pumpForces_stays
    | with_reducible apply State.resched_stays

theorem State.overrun_stays (s : State) (t : Nat) (h0 : s.Stays fs s₀) (hM : [.objs, .flt] ⊆ fs) :
    State.Stays (State.overrun s t) fs s₀ := by
  unfold State.overrun
  repeat' first
    | with_reducible assumption | with_reducible exact List.Subset.trans (by decide) hM | intro _
    | with_reducible apply State.incOb_stays | with_reducible apply State.raise_stays

theorem State.restart_stays (s : State) (t cause : Nat) (h0 : s.Stays fs s₀) (hM : [.objs, .mem, .sess, .ctxs, .cores, .tds, .tasks, .img, .str, .bdr, .flt, .sta, .fresh] ⊆ fs) :
    State.Stays (State.restart s t cause) fs s₀ := by
  unfold State.restart
  repeat' first
    | with_reducible assumption | with_reducible exact List.Subset.trans (by decide) hM | intro _
    | (extract_lets +onlyGivenNames u; refine cut_goal (P := State.Stays u fs s₀) ?_ fun _ => ?_; (on_goal 2 => clear_value u); (on_goal 1 => (unfold u; clear u)))
    | with_reducible apply ite_stays | with_reducible apply State.abandonTask_stays
    | with_reducible apply State.takeRelease_stays

theorem State.release_stays (s : State) (cause t : Nat) (h0 : s.Stays fs s₀) (hM : [.objs, .mem, .sess, .ctxs, .cores, .tds, .tasks, .img, .str, .bdr, .flt, .sta, .fresh] ⊆ fs) :
    State.Stays (State.release s cause t) fs s₀ := by
  unfold State.release
  repeat' first
    | with_reducible assumption | with_reducible exact List.Subset.trans (by decide) hM | intro _
    | (extract_lets +onlyGivenNames u; refine cut_goal (P := State.Stays u fs s₀) ?_ fun _ => ?_; (on_goal 2 => clear_value u); (on_goal 1 => (unfold u; clear u)))
    | (extract_lets +onlyGivenNames u; clear_value u) | with_reducible apply ite_stays
    | with_reducible apply State.takeRelease_stays | with_reducible apply State.restart_stays
    | with_reducible apply State.overrun_stays | with_reducible apply State.modTask_stays 
     | dsimp only | split

theorem State.releaseAll_stays (s : State) (cause : Nat) (l : List Nat) (h0 : s.Stays fs s₀) (hM : [.objs, .mem, .sess, .ctxs, .cores, .tds, .tasks, .img, .str, .bdr, .flt, .sta, .fresh] ⊆ fs) :
    State.Stays (State.releaseAll s cause l) fs s₀ := by
  unfold State.releaseAll
  repeat' first
    | with_reducible assumption | with_reducible exact List.Subset.trans (by decide) hM | intro _ | with_reducible apply State.each_stays | with_reducible apply State.release_stays

theorem State.fire_stays (s : State) (cls num : Nat) (h0 : s.Stays fs s₀) (hM : [.tds, .own] ⊆ fs) :
    State.Stays (State.fire s cls num) fs s₀ := by
  unfold State.fire
  split
  · exact State.setRed_stays (fun r => { r with
      own := r.own ++ [{ at_ := s.ntm.mono, ev := .release cls num (s.ob K.TDS_TIDE) 0 }] }) h0
      ⟨.inr rfl, .inr rfl, .inr rfl, .inr rfl, .inr rfl, .inr rfl, .inl (hM (by decide)), .inr rfl, .inr rfl⟩ rfl
  · exact State.setTds_stays _ _ h0 (Field.within hM (by decide))

theorem State.copyHalt_stays (s : State) (t i : Nat) (e : CopyErr) (h0 : s.Stays fs s₀) (hM : [.objs, .mem, .ctxs, .tds, .tasks, .img, .str, .dma, .bdr, .flt, .fresh] ⊆ fs) :
    State.Stays (State.copyHalt s t i e) fs s₀ := by
  unfold State.copyHalt
  repeat' first
    | with_reducible assumption | with_reducible exact List.Subset.trans (by decide) hM | intro _
    | (extract_lets +onlyGivenNames u; refine cut_goal (P := State.Stays u fs s₀) ?_ fun _ => ?_; (on_goal 2 => clear_value u); (on_goal 1 => (unfold u; clear u)))
    | (extract_lets +onlyGivenNames u; clear_value u) | with_reducible apply State.chanHalt_stays
    | with_reducible apply State.modCtx_stays | with_reducible apply State.resched_stays
    | with_reducible apply State.taskHalt_stays

theorem State.copyBackIf_stays (s : State) (t : Nat) (h0 : s.Stays fs s₀) (hM : [.mem, .tds, .tasks, .img] ⊆ fs) :
    State.Stays (State.copyBackIf s t) fs s₀ := by
  unfold State.copyBackIf
  repeat' first
    | with_reducible assumption | with_reducible exact List.Subset.trans (by decide) hM | intro _
    | (extract_lets +onlyGivenNames u; refine cut_goal (P := State.Stays u fs s₀) ?_ fun _ => ?_; (on_goal 2 => clear_value u); (on_goal 1 => (unfold u; clear u)))
    | with_reducible apply ite_stays | with_reducible apply State.setTds_stays | with_reducible apply State.modTask_stays
    | with_reducible apply State.copyBackReach_stays | with_reducible apply State.copyProgress_stays

theorem State.setFlag_stays (s : State) (t i : Nat) (h0 : s.Stays fs s₀) (hM : [.objs, .mem, .ctxs, .tds, .tasks, .img, .str, .bdr, .flt, .fresh] ⊆ fs) :
    State.Stays (State.setFlag s t i) fs s₀ := by
  unfold State.setFlag
  repeat' first
    | with_reducible assumption | with_reducible exact List.Subset.trans (by decide) hM | intro _
    | (extract_lets +onlyGivenNames u; refine cut_goal (P := State.Stays u fs s₀) ?_ fun _ => ?_; (on_goal 2 => clear_value u); (on_goal 1 => (unfold u; clear u)))
    | with_reducible apply State.modTask_stays | with_reducible apply State.copyBackIf_stays
    | with_reducible apply State.openGates_stays

theorem State.sharing_stays (s : State) (line t i : Nat) (h0 : s.Stays fs s₀) (hM : [.objs, .tds, .flt] ⊆ fs) :
    State.Stays (State.sharing s line t i) fs s₀ := by
  unfold State.sharing
  repeat' first
    | with_reducible assumption | with_reducible exact List.Subset.trans (by decide) hM | intro _
    | (extract_lets +onlyGivenNames u; refine cut_goal (P := State.Stays u fs s₀) ?_ fun _ => ?_; (on_goal 2 => clear_value u); (on_goal 1 => (unfold u; clear u)))
    | (extract_lets +onlyGivenNames u; clear_value u) | with_reducible apply ite_stays
    | with_reducible apply State.incOb_stays | with_reducible apply State.setOb_stays | with_reducible apply State.raise_stays
    | with_reducible apply State.setTds_stays

theorem State.sharingBack_stays (s : State) (t : Nat) (h0 : s.Stays fs s₀) (hM : [.objs, .tds, .flt] ⊆ fs) :
    State.Stays (State.sharingBack s t) fs s₀ := by
  unfold State.sharingBack
  repeat' first
    | with_reducible assumption | with_reducible exact List.Subset.trans (by decide) hM | intro _ | with_reducible apply ite_stays | with_reducible apply State.each_stays
    | with_reducible apply State.sharing_stays

theorem State.publishEnd_stays (s : State) (t : Nat) (h0 : s.Stays fs s₀) (hM : [.objs, .mem, .sess, .ctxs, .cores, .tds, .tasks, .img, .str, .bdr, .flt, .sta, .fresh] ⊆ fs) :
    State.Stays (State.publishEnd s t) fs s₀ := by
  unfold State.publishEnd
  repeat' first
    | with_reducible assumption | with_reducible exact List.Subset.trans (by decide) hM | intro _
    | (extract_lets +onlyGivenNames u; refine cut_goal (P := State.Stays u fs s₀) ?_ fun _ => ?_; (on_goal 2 => clear_value u); (on_goal 1 => (unfold u; clear u)))
    | (extract_lets +onlyGivenNames u; clear_value u) | with_reducible apply ite_stays
    | with_reducible apply State.setOb_stays | with_reducible apply State.when_stays | with_reducible apply State.incOb_stays
    | with_reducible apply State.sample_stays | with_reducible apply State.setTask_stays
    | with_reducible apply State.takeAt_stays | with_reducible apply State.tideSettle_stays 
     | dsimp only | split

theorem State.landPublish_stays (s : State) (t : Nat) (h0 : s.Stays fs s₀) (hM : [.objs, .mem, .sess, .ctxs, .cores, .tds, .tasks, .img, .str, .dma, .bdr, .flt, .sta, .fresh] ⊆ fs) :
    State.Stays (State.landPublish s t) fs s₀ := by
  unfold State.landPublish
  repeat' first
    | with_reducible assumption | with_reducible exact List.Subset.trans (by decide) hM | intro _ | with_reducible apply ite_stays | with_reducible apply State.each_stays
    | with_reducible apply State.copyBackRun_stays | with_reducible apply State.publishEnd_stays
    | with_reducible apply State.copyBackAll_stays | with_reducible apply State.sharingBack_stays
    | with_reducible apply State.modTask_stays | with_reducible apply State.copyHalt_stays

theorem State.landHeldPublish_stays (s : State) (e : Option Nat × HeldOp) (t : Nat) (h0 : s.Stays fs s₀) (hM : [.objs, .mem, .sess, .ctxs, .cores, .tds, .tasks, .img, .str, .dma, .bdr, .flt, .sta, .fresh] ⊆ fs) :
    State.Stays (State.landHeldPublish s e t) fs s₀ := by
  unfold State.landHeldPublish
  repeat' first
    | with_reducible assumption | with_reducible exact List.Subset.trans (by decide) hM | intro _
    | (extract_lets +onlyGivenNames u; refine cut_goal (P := State.Stays u.1 fs s₀) ?_ fun _ => ?_; (on_goal 2 => clear_value u); (on_goal 1 => (unfold u; clear u)))
    | with_reducible apply_assumption | with_reducible apply ite_stays | with_reducible apply State.holdPlace_stays
    | with_reducible apply State.landPublish_stays | with_reducible apply State.copyBackAll_stays
    | with_reducible apply State.sharingBack_stays | with_reducible apply State.hold_stays

theorem State.landHeldOp_stays (s : State) (e : Option Nat × HeldOp) (h0 : s.Stays fs s₀) (hM : [.objs, .mem, .sess, .ctxs, .cores, .tds, .tasks, .img, .str, .dma, .bdr, .flt, .sta, .fresh] ⊆ fs) :
    State.Stays (State.landHeldOp s e) fs s₀ := by
  unfold State.landHeldOp
  repeat' first
    | with_reducible assumption | with_reducible exact List.Subset.trans (by decide) hM | intro _ | with_reducible apply ite_stays | with_reducible apply State.landWrite_stays
    | with_reducible apply State.hold_stays | with_reducible apply State.landHeldForce_stays
    | with_reducible apply State.landHeldPublish_stays  
    | dsimp only | split

theorem State.landHeld_stays (s : State) (h0 : s.Stays fs s₀) (hM : [.objs, .mem, .sess, .ctxs, .cores, .tds, .tasks, .img, .str, .dma, .bdr, .flt, .sta, .fresh] ⊆ fs) :
    State.Stays (State.landHeld s) fs s₀ := by
  unfold State.landHeld
  repeat' first
    | with_reducible assumption | with_reducible exact List.Subset.trans (by decide) hM | intro _ | (extract_lets +onlyGivenNames u; clear_value u)
    | with_reducible apply State.each_stays | with_reducible apply State.setImg_stays
    | with_reducible apply State.landHeldOp_stays

theorem State.copyInEnd_stays (s : State) (t i : Nat) (old : List (Nat × List Sys2Proof.Byte)) (h0 : s.Stays fs s₀) (hM : [.objs, .mem, .ecc, .sess, .ctxs, .cores, .tds, .tasks, .img, .olc, .str, .dma, .bdr, .flt, .sta, .fresh] ⊆ fs) :
    State.Stays (State.copyInEnd s t i old) fs s₀ := by
  unfold State.copyInEnd
  repeat' first
    | with_reducible assumption | with_reducible exact List.Subset.trans (by decide) hM | intro _
    | (extract_lets +onlyGivenNames u; refine cut_goal (P := State.Stays u fs s₀) ?_ fun _ => ?_; (on_goal 2 => clear_value u); (on_goal 1 => (unfold u; clear u)))
    | (extract_lets +onlyGivenNames u; refine cut_goal (P := State.Stays u.1 fs s₀) ?_ fun _ => ?_; (on_goal 2 => clear_value u); (on_goal 1 => (unfold u; clear u)))
    | (extract_lets +onlyGivenNames u; clear_value u) | with_reducible apply_assumption
    | with_reducible apply State.copyInSec_stays | with_reducible apply State.setTds_stays
    | with_reducible apply State.landHeld_stays | with_reducible apply State.pumpForces_stays
    | with_reducible apply State.copyHalt_stays | with_reducible apply State.openGates_stays
    | with_reducible apply State.modTask_stays   | dsimp only
    | with_reducible refine stays_of_eq (by assumption) ?_ | split
    | with_reducible apply State.with_olc

theorem State.publishNow_stays (s : State) (t : Nat) (h0 : s.Stays fs s₀) (hM : [.objs, .mem, .sess, .ctxs, .cores, .tds, .tasks, .img, .str, .dma, .bdr, .flt, .sta, .fresh] ⊆ fs) :
    State.Stays (State.publishNow s t) fs s₀ := by
  unfold State.publishNow
  repeat' first
    | with_reducible assumption | with_reducible exact List.Subset.trans (by decide) hM | intro _
    | (extract_lets +onlyGivenNames u; refine cut_goal (P := State.Stays u fs s₀) ?_ fun _ => ?_; (on_goal 2 => clear_value u); (on_goal 1 => (unfold u; clear u)))
    | (extract_lets +onlyGivenNames u; clear_value u) | with_reducible apply ite_stays
    | with_reducible apply State.copyProgress_stays | with_reducible apply State.landPublish_stays
    | with_reducible apply State.modTask_stays | with_reducible apply State.countHold_stays
    | with_reducible apply State.hold_stays | with_reducible apply State.landHeld_stays

theorem State.tskCmd_stays (s : State) (t v : Nat) (h0 : s.Stays fs s₀) (hM : [.objs, .mem, .sess, .ctxs, .cores, .tds, .tasks, .img, .str, .bdr, .flt, .sta, .fresh] ⊆ fs) :
    State.Stays (State.tskCmd s t v) fs s₀ := by
  unfold State.tskCmd
  repeat' first
    | with_reducible assumption | with_reducible exact List.Subset.trans (by decide) hM | intro _
    | (extract_lets +onlyGivenNames u; refine cut_goal (P := State.Stays u fs s₀) ?_ fun _ => ?_; (on_goal 2 => clear_value u); (on_goal 1 => (unfold u; clear u)))
    | (extract_lets +onlyGivenNames u; clear_value u) | with_reducible apply ite_stays
    | with_reducible apply State.setTask_stays | with_reducible apply State.tideSettle_stays
    | with_reducible apply State.each_stays | with_reducible apply State.modCtx_stays
    | with_reducible apply State.modTask_stays | with_reducible apply State.resched_stays
    | with_reducible apply State.copyBackIf_stays | with_reducible apply State.openGates_stays
    | with_reducible apply State.abandonTask_stays | with_reducible apply State.release_stays 
     | dsimp only | split

theorem State.bedStore_stays (s : State) (q : BedReq) (off : Nat) (b : List Sys2Proof.Byte) (h0 : s.Stays fs s₀) (hM : [.objs, .mem, .bdr] ⊆ fs) :
    State.Stays (State.bedStore s q off b).1 fs s₀ := by
  unfold State.bedStore
  repeat' first
    | with_reducible assumption | with_reducible exact List.Subset.trans (by decide) hM | intro _ | (extract_lets +onlyGivenNames u; clear_value u) | with_reducible apply ite_stays
    | with_reducible apply State.setBdr_stays | with_reducible apply State.incOb_stays | with_reducible apply State.when_stays
    | with_reducible apply State.putBytes_stays | with_reducible apply State.wearLines_stays 
     | dsimp only | split

theorem State.bedWrite_stays (s : State) (q : BedReq) (off : Nat) (b : List Sys2Proof.Byte) (h0 : s.Stays fs s₀) (hM : [.objs, .mem, .bdr] ⊆ fs) :
    State.Stays (State.bedWrite s q off b).1 fs s₀ := by
  unfold State.bedWrite
  repeat' first
    | with_reducible assumption | with_reducible exact List.Subset.trans (by decide) hM | intro _ | with_reducible apply ite_stays | with_reducible apply State.bedStore_stays
    | with_reducible apply foldl_stays1 | with_reducible refine stays_of_eq (by assumption) ?_ | split

theorem State.recoverJournal_stays (s : State) (h0 : s.Stays fs s₀) (hM : [.objs, .mem, .bdr] ⊆ fs) :
    State.Stays (State.recoverJournal s) fs s₀ := by
  unfold State.recoverJournal
  repeat' first
    | with_reducible assumption | with_reducible exact List.Subset.trans (by decide) hM | intro _ | (extract_lets +onlyGivenNames u; clear_value u) | with_reducible apply ite_stays
    | with_reducible apply State.each_stays | with_reducible apply State.incOb_stays
    | with_reducible apply State.applySlot_stays | with_reducible apply State.setSlot_stays

theorem State.bdrTxn_stays (s : State) (n v : Nat) (h0 : s.Stays fs s₀) (hM : [.objs, .mem, .bdr] ⊆ fs) :
    State.Stays (State.bdrTxn s n v) fs s₀ := by
  unfold State.bdrTxn
  repeat' first
    | with_reducible assumption | with_reducible exact List.Subset.trans (by decide) hM | intro _ | with_reducible apply State.setBdr_stays | with_reducible apply State.journal_stays
    | with_reducible apply State.bedDrop_stays   | dsimp only
    | split

theorem State.bdrTxnLost_stays (s : State) (h0 : s.Stays fs s₀) (hM : [.bdr] ⊆ fs) :
    State.Stays (State.bdrTxnLost s) fs s₀ := by
  unfold State.bdrTxnLost
  repeat' first
    | with_reducible assumption | with_reducible exact List.Subset.trans (by decide) hM | intro _ | with_reducible apply State.setBdr_stays

theorem State.setRegionPath_stays (s : State) (r : Nat) (x : Path) (h0 : s.Stays fs s₀) (hM : [.bdr] ⊆ fs) :
    State.Stays (State.setRegionPath s r x) fs s₀ :=
  State.with_bdr _ h0 hM

theorem State.unlockFail_stays (s : State) (v : Nat) (h0 : s.Stays fs s₀) (hM : [.objs, .bdr, .flt] ⊆ fs) :
    State.Stays (State.unlockFail s v) fs s₀ := by
  unfold State.unlockFail
  repeat' first
    | with_reducible assumption | with_reducible exact List.Subset.trans (by decide) hM | intro _
    | (extract_lets +onlyGivenNames u; refine cut_goal (P := State.Stays u fs s₀) ?_ fun _ => ?_; (on_goal 2 => clear_value u); (on_goal 1 => (unfold u; clear u)))
    | (extract_lets +onlyGivenNames u; clear_value u) | with_reducible apply ite_stays
    | with_reducible apply State.setRegionPath_stays | with_reducible apply State.incOb_stays
    | with_reducible apply State.when_stays | with_reducible apply State.raise_stays

theorem State.unlock_stays (s : State) (n v : Nat) (h0 : s.Stays fs s₀) (hM : [.sess] ⊆ fs) :
    State.Stays (State.unlock s n v) fs s₀ :=
  State.with_sess _ h0 hM

theorem State.lockRegions_stays (s : State) (n v : Nat) (h0 : s.Stays fs s₀) (hM : [.sess] ⊆ fs) :
    State.Stays (State.lockRegions s n v) fs s₀ :=
  State.with_sess _ h0 hM

theorem State.recRead_stays (s : State) (n : Nat) (h0 : s.Stays fs s₀) (hM : [.objs, .mem, .sess, .bdr, .flt] ⊆ fs) :
    State.Stays (State.recRead s n).1 fs s₀ := by
  unfold State.recRead
  repeat' first
    | with_reducible assumption | with_reducible exact List.Subset.trans (by decide) hM | intro _
    | (extract_lets +onlyGivenNames u; refine cut_goal (P := State.Stays u fs s₀) ?_ fun _ => ?_; (on_goal 2 => clear_value u); (on_goal 1 => (unfold u; clear u)))
    | (extract_lets +onlyGivenNames u; clear_value u) | with_reducible apply_assumption | with_reducible apply ite_stays
    | with_reducible apply State.finishApply_stays | with_reducible apply State.setSes_stays
    | with_reducible apply State.when_stays | with_reducible apply State.incOb_stays | with_reducible apply State.setBdr_stays
    | with_reducible apply State.raise_stays

theorem State.recWrite_stays (s : State) (n : Nat) (data : List Sys2Proof.Byte) (h0 : s.Stays fs s₀) (hM : [.objs, .mem, .sess, .bdr] ⊆ fs) :
    State.Stays (State.recWrite s n data) fs s₀ := by
  unfold State.recWrite
  repeat' first
    | with_reducible assumption | with_reducible exact List.Subset.trans (by decide) hM | intro _
    | (extract_lets +onlyGivenNames u; refine cut_goal (P := State.Stays u fs s₀) ?_ fun _ => ?_; (on_goal 2 => clear_value u); (on_goal 1 => (unfold u; clear u)))
    | (extract_lets +onlyGivenNames u; clear_value u) | with_reducible apply ite_stays
    | with_reducible apply State.finishApply_stays | with_reducible apply State.wear_stays
    | with_reducible apply State.wearLines_stays | with_reducible apply State.putBytes_stays
    | with_reducible apply State.setBdr_stays | with_reducible apply State.setSes_stays

theorem State.sramWrite_stays (s : State) (key : Nat) (b : List Sys2Proof.Byte) (h0 : s.Stays fs s₀) (hM : [.mem, .ecc] ⊆ fs) :
    State.Stays (State.sramWrite s key b) fs s₀ := by
  unfold State.sramWrite
  repeat' first
    | with_reducible assumption | with_reducible exact List.Subset.trans (by decide) hM | intro _ | with_reducible apply State.eccClear_stays
    | with_reducible apply State.putBytes_stays

theorem State.fabricCorr_stays (s : State) (task0 : Bool) (addr n : Nat) (h0 : s.Stays fs s₀) (hM : [.objs] ⊆ fs) :
    State.Stays (State.fabricCorr s task0 addr n) fs s₀ := by
  unfold State.fabricCorr
  repeat' first
    | with_reducible assumption | with_reducible exact List.Subset.trans (by decide) hM | intro _ | with_reducible apply State.strandCorr_stays 
     | dsimp only | split

theorem State.headWrite_stays (s : State) (off : Nat) (b : List Sys2Proof.Byte) (h0 : s.Stays fs s₀) (hM : [.objs, .mem, .ecc, .img] ⊆ fs) :
    State.Stays (State.headWrite s off b) fs s₀ := by
  unfold State.headWrite
  repeat' first
    | with_reducible assumption | with_reducible exact List.Subset.trans (by decide) hM | intro _ | with_reducible apply ite_stays | with_reducible apply State.eccClear_stays
    | with_reducible apply State.imgWrite_stays | with_reducible apply State.sramWrite_stays

theorem State.dataWrite_stays (s : State) (n off : Nat) (b : List Sys2Proof.Byte) (writer : Option Nat) (h0 : s.Stays fs s₀) (hM : [.mem, .ecc, .cores] ⊆ fs) :
    State.Stays (State.dataWrite s n off b writer) fs s₀ := by
  unfold State.dataWrite
  repeat' first
    | with_reducible assumption | with_reducible exact List.Subset.trans (by decide) hM | intro _ | with_reducible apply State.invalidate_stays
    | with_reducible apply State.sramWrite_stays

theorem State.bankWrite_stays (s : State) (n off : Nat) (b : List Sys2Proof.Byte) (h0 : s.Stays fs s₀) (hM : [.mem, .ecc, .olc] ⊆ fs) :
    State.Stays (State.bankWrite s n off b) fs s₀ := by
  unfold State.bankWrite
  repeat' first
    | with_reducible assumption | with_reducible exact List.Subset.trans (by decide) hM | intro _
    | (extract_lets +onlyGivenNames u; refine cut_goal (P := State.Stays u fs s₀) ?_ fun _ => ?_; (on_goal 2 => clear_value u); (on_goal 1 => (unfold u; clear u)))
    | (extract_lets +onlyGivenNames u; clear_value u) | with_reducible apply ite_stays
    | with_reducible apply State.sramWrite_stays
    | with_reducible apply State.with_olc

theorem State.fabricWrite_stays (s : State) (q : BedReq) (task0 : Bool) (writer : Option Nat) (addr : Nat) (b : List Sys2Proof.Byte) (h0 : s.Stays fs s₀) (hM : [.objs, .mem, .ecc, .cores, .img, .olc, .bdr] ⊆ fs) :
    State.Stays (State.fabricWrite s q task0 writer addr b).1 fs s₀ := by
  unfold State.fabricWrite
  repeat' first
    | with_reducible assumption | with_reducible exact List.Subset.trans (by decide) hM | intro _ | with_reducible apply_assumption | with_reducible apply ite_stays
    | with_reducible apply State.headWrite_stays | with_reducible apply State.bedWrite_stays
    | with_reducible apply State.finishApply_stays | with_reducible apply State.dataWrite_stays
    | with_reducible apply State.bankWrite_stays | with_reducible apply foldl_stays1 
     | dsimp only | with_reducible refine stays_of_eq (by assumption) ?_ | split

theorem State.bedMove_stays (y0 : Nat) (y1 : State) (y2 : Nat) (y3 : List Sys2Proof.Byte) (h0 : y1.Stays fs s₀) (hM : [.objs, .mem, .bdr] ⊆ fs) :
    State.Stays (State.bedMove y0 y1 y2 y3).1 fs s₀ := by
  induction y0 generalizing y1 y2 y3 with
  | zero => exact h0
  | succ f ih =>
    unfold State.bedMove
    split
    · exact h0
    · extract_lets n
      clear_value n
      have hb := fun m => State.bedTxn_stays y1 m h0 (Field.within hM (by decide))
      split
      · rename_i heq
        exact ih _ _ _ (stays_of_eq heq (hb _))
      · exact hb _

theorem State.moveWrite_stays (s : State) (addr : Nat) (b : List Sys2Proof.Byte) (h0 : s.Stays fs s₀) (hM : [.objs, .mem, .ecc, .cores, .img, .bdr] ⊆ fs) :
    State.Stays (State.moveWrite s addr b).1 fs s₀ := by
  unfold State.moveWrite
  split
  · exact h0
  · split
    · dsimp only
      with_reducible exact State.headWrite_stays _ _ _ h0 (Field.within hM (by decide))
    · split
      · with_reducible exact State.bedMove_stays _ _ _ _ h0 (Field.within hM (by decide))
      · dsimp only
        with_reducible exact State.dataWrite_stays _ _ _ _ _ h0 (Field.within hM (by decide))

theorem State.mapMove_stays (s : State) (im : List Sys2Proof.Byte) (e : MapEntry) (h0 : s.Stays fs s₀) (hM : [.objs, .mem, .ecc, .cores, .img, .bdr] ⊆ fs) :
    State.Stays (State.mapMove s im e).1 fs s₀ := by
  unfold State.mapMove
  extract_lets os ns put init
  have hp : ∀ u l, State.Stays u fs s₀ → (put u l).1.Stays fs s₀ := fun u l hu => State.putBytes_stays _ _ hu (Field.within hM (by decide))
  clear_value put init ns os
  split
  · exact hp _ _ h0
  · exact hp _ _ h0
  · split
    · with_reducible exact State.moveWrite_stays _ _ _ h0 (Field.within hM (by decide))
    · exact h0
  · split
    · with_reducible exact State.moveWrite_stays _ _ _ h0 (Field.within hM (by decide))
    · exact h0
  · exact h0

theorem State.relocOne_stays (s : State) (e : Nat × Nat) (h0 : s.Stays fs s₀) (hM : [.objs, .mem, .ecc, .cores, .img, .bdr] ⊆ fs) :
    State.Stays (State.relocOne s e).1 fs s₀ := by
  unfold State.relocOne
  repeat' first
    | with_reducible assumption | with_reducible exact List.Subset.trans (by decide) hM | intro _ | with_reducible apply_assumption | with_reducible apply State.moveWrite_stays
    | with_reducible apply foldl_stays1   | dsimp only
    | with_reducible refine stays_of_eq (by assumption) ?_ | split

theorem State.edgeInit_stays (s : State) (e : EdgeInit) (h0 : s.Stays fs s₀) (hM : [.objs, .mem, .ecc, .cores, .img, .bdr] ⊆ fs) :
    State.Stays (State.edgeInit s e) fs s₀ := by
  unfold State.edgeInit
  repeat' first
    | with_reducible assumption | with_reducible exact List.Subset.trans (by decide) hM | intro _
    | (extract_lets +onlyGivenNames u; refine cut_goal (P := State.Stays u fs s₀) ?_ fun _ => ?_; (on_goal 2 => clear_value u); (on_goal 1 => (unfold u; clear u)))
    | (extract_lets +onlyGivenNames u; clear_value u) | with_reducible apply ite_stays
    | with_reducible apply State.finishApply_stays | with_reducible apply State.moveWrite_stays
    | with_reducible apply State.foldl_stays   | dsimp only
    | with_reducible refine stays_of_eq (by assumption) ?_ | split

theorem State.applyTables_stays (s : State) (im : List Sys2Proof.Byte) (h0 : s.Stays fs s₀) (hM : [.objs, .doms, .owners] ⊆ fs) :
    State.Stays (State.applyTables s im) fs s₀ := by
  unfold State.applyTables
  repeat' first
    | with_reducible assumption | with_reducible exact List.Subset.trans (by decide) hM | intro _
    | (extract_lets +onlyGivenNames u; refine cut_goal (P := State.Stays u fs s₀) ?_ fun _ => ?_; (on_goal 2 => clear_value u); (on_goal 1 => (unfold u; clear u)))
    | (extract_lets +onlyGivenNames u; clear_value u) | with_reducible apply ite_stays | with_reducible apply State.each_stays
    | with_reducible apply State.setOb_stays | with_reducible apply State.setDom_stays
    | with_reducible apply State.setOwner_stays
    | with_reducible apply State.with_owners

theorem State.keepTables_stays (s : State) (h0 : s.Stays fs s₀) (hM : [.olc] ⊆ fs) :
    State.Stays (State.keepTables s) fs s₀ :=
  State.with_olc _ h0 hM

theorem State.restoreTables_stays (s : State) (h0 : s.Stays fs s₀) (hM : [.objs, .doms, .owners] ⊆ fs) :
    State.Stays (State.restoreTables s) fs s₀ := by
  unfold State.restoreTables
  repeat' first
    | with_reducible assumption | with_reducible exact List.Subset.trans (by decide) hM | intro _
    | (extract_lets +onlyGivenNames u; refine cut_goal (P := State.Stays u fs s₀) ?_ fun _ => ?_; (on_goal 2 => clear_value u); (on_goal 1 => (unfold u; clear u)))
    | (extract_lets +onlyGivenNames u; clear_value u) | with_reducible apply State.each_stays
    | with_reducible apply State.setOb_stays | with_reducible apply State.setDom_stays
    | with_reducible apply State.with_owners

theorem State.setFio_stays (s : State) (f : Fio → Fio) (h0 : s.Stays fs s₀) (hM : [.fio] ⊆ fs) :
    State.Stays (State.setFio s f) fs s₀ :=
  State.with_fio _ h0 hM

theorem State.fioSend_stays (s : State) (i : Nat) (h0 : s.Stays fs s₀) (hM : [.fio] ⊆ fs) :
    State.Stays (State.fioSend s i) fs s₀ := by
  unfold State.fioSend
  repeat' first
    | with_reducible assumption | with_reducible exact List.Subset.trans (by decide) hM | intro _ | with_reducible apply ite_stays | with_reducible apply State.setFio_stays

theorem State.fioCommand_stays (s : State) (v : Nat) (h0 : s.Stays fs s₀) (hM : [.fio] ⊆ fs) :
    State.Stays (State.fioCommand s v) fs s₀ :=
  State.with_fio _ h0 hM

theorem State.refreshOff_stays (s : State) (v : Nat) (h0 : s.Stays fs s₀) (hM : [.fio] ⊆ fs) :
    State.Stays (State.refreshOff s v) fs s₀ := by
  unfold State.refreshOff
  repeat' first
    | with_reducible assumption | with_reducible exact List.Subset.trans (by decide) hM | intro _ | (extract_lets +onlyGivenNames u; clear_value u) | with_reducible apply ite_stays
    | with_reducible apply State.setFio_stays

theorem State.fieldRefresh_stays (s : State) (h0 : s.Stays fs s₀) (hM : [.fio] ⊆ fs) :
    State.Stays (State.fieldRefresh s) fs s₀ := by
  unfold State.fieldRefresh
  repeat' first
    | with_reducible assumption | with_reducible exact List.Subset.trans (by decide) hM | intro _
    | (extract_lets +onlyGivenNames u; refine cut_goal (P := State.Stays u fs s₀) ?_ fun _ => ?_; (on_goal 2 => clear_value u); (on_goal 1 => (unfold u; clear u)))
    | (extract_lets +onlyGivenNames u; refine cut_goal (P := ∀ s, State.Stays s fs s₀ → State.Stays (u s) fs s₀) ?_ fun _ => ?_; (on_goal 2 => clear_value u); (on_goal 1 => (unfold u; clear u)))
    | (extract_lets +onlyGivenNames u; clear_value u) | with_reducible apply_assumption | with_reducible apply ite_stays
    | with_reducible apply State.setFio_stays | with_reducible apply State.fioCommand_stays
    | with_reducible apply State.refreshOff_stays  
    | dsimp only | split

theorem State.fieldPark_stays (s : State) (h0 : s.Stays fs s₀) (hM : [.fio] ⊆ fs) :
    State.Stays (State.fieldPark s) fs s₀ := by
  unfold State.fieldPark
  repeat' first
    | with_reducible assumption | with_reducible exact List.Subset.trans (by decide) hM | intro _
    | (extract_lets +onlyGivenNames u; refine cut_goal (P := State.Stays u fs s₀) ?_ fun _ => ?_; (on_goal 2 => clear_value u); (on_goal 1 => (unfold u; clear u)))
    | with_reducible apply ite_stays | with_reducible apply State.setFio_stays | with_reducible apply State.fioCommand_stays

theorem State.fieldRecover_stays (s : State) (h0 : s.Stays fs s₀) (hM : [.fio] ⊆ fs) :
    State.Stays (State.fieldRecover s) fs s₀ := by
  unfold State.fieldRecover
  repeat' first
    | with_reducible assumption | with_reducible exact List.Subset.trans (by decide) hM | intro _
    | (extract_lets +onlyGivenNames u; refine cut_goal (P := State.Stays u fs s₀) ?_ fun _ => ?_; (on_goal 2 => clear_value u); (on_goal 1 => (unfold u; clear u)))
    | with_reducible apply ite_stays | with_reducible apply State.setFio_stays

theorem State.takeReport_stays (s : State) (h0 : s.Stays fs s₀) (hM : [.objs, .fio, .flt] ⊆ fs) :
    State.Stays (State.takeReport s) fs s₀ := by
  unfold State.takeReport
  repeat' first
    | with_reducible assumption | with_reducible exact List.Subset.trans (by decide) hM | intro _
    | (extract_lets +onlyGivenNames u; refine cut_goal (P := State.Stays u fs s₀) ?_ fun _ => ?_; (on_goal 2 => clear_value u); (on_goal 1 => (unfold u; clear u)))
    | (extract_lets +onlyGivenNames u; clear_value u) | with_reducible apply State.setFio_stays
    | with_reducible apply State.when_stays | with_reducible apply State.raiseSt_stays | with_reducible apply State.each_stays
    | with_reducible apply State.raise_stays | with_reducible apply State.incOb_stays

theorem State.fieldSafe_stays (s : State) (h0 : s.Stays fs s₀) (hM : [.fio] ⊆ fs) :
    State.Stays (State.fieldSafe s) fs s₀ := by
  unfold State.fieldSafe
  repeat' first
    | with_reducible assumption | with_reducible exact List.Subset.trans (by decide) hM | intro _ | (extract_lets +onlyGivenNames u; clear_value u)
    | with_reducible apply State.setFio_stays | with_reducible apply State.fioCommand_stays

theorem State.sendPark_stays (s : State) (h0 : s.Stays fs s₀) (hM : [.fio] ⊆ fs) :
    State.Stays (State.sendPark s) fs s₀ := by
  unfold State.sendPark
  repeat' first
    | with_reducible assumption | with_reducible exact List.Subset.trans (by decide) hM | intro _ | with_reducible apply ite_stays | with_reducible apply State.setFio_stays

theorem State.fioPark_stays (s : State) (h0 : s.Stays fs s₀) (hM : [.fio] ⊆ fs) :
    State.Stays (State.fioPark s) fs s₀ := by
  unfold State.fioPark
  repeat' first
    | with_reducible assumption | with_reducible exact List.Subset.trans (by decide) hM | intro _ | with_reducible apply ite_stays | with_reducible apply State.setFio_stays
    | with_reducible apply State.sendPark_stays

theorem State.fioRecover_stays (s : State) (h0 : s.Stays fs s₀) (hM : [.fio] ⊆ fs) :
    State.Stays (State.fioRecover s) fs s₀ :=
  State.with_fio _ h0 hM

theorem State.fioClearOvl_stays (s : State) (h0 : s.Stays fs s₀) (hM : [.fio] ⊆ fs) :
    State.Stays (State.fioClearOvl s) fs s₀ := by
  unfold State.fioClearOvl
  repeat' first
    | with_reducible assumption | with_reducible exact List.Subset.trans (by decide) hM | intro _ | with_reducible apply State.fioSend_stays

theorem State.fioRefresh_stays (s : State) (grant : Bool) (h0 : s.Stays fs s₀) (hM : [.fio] ⊆ fs) :
    State.Stays (State.fioRefresh s grant) fs s₀ := by
  unfold State.fioRefresh
  repeat' first
    | with_reducible assumption | with_reducible exact List.Subset.trans (by decide) hM | intro _ | with_reducible apply ite_stays | with_reducible apply State.setFio_stays

theorem State.outLineRead_stays (s : State) (k : Nat) (h0 : s.Stays fs s₀) (hM : [.objs, .fio, .dma, .flt, .fresh] ⊆ fs) :
    State.Stays (State.outLineRead s k) fs s₀ := by
  unfold State.outLineRead
  repeat' first
    | with_reducible assumption | with_reducible exact List.Subset.trans (by decide) hM | intro _ | with_reducible apply ite_stays | with_reducible apply State.setFio_stays
    | with_reducible apply State.chanHalt_stays | with_reducible apply State.seqStop_stays
    | with_reducible apply State.seqBegin_stays | with_reducible apply State.seqLine_stays 
     | dsimp only | split

theorem State.ovlOff_stays (s : State) (n cause : Nat) (h0 : s.Stays fs s₀) (hM : [.fio] ⊆ fs) :
    State.Stays (State.ovlOff s n cause) fs s₀ := by
  unfold State.ovlOff
  repeat' first
    | with_reducible assumption | with_reducible exact List.Subset.trans (by decide) hM | intro _ | (extract_lets +onlyGivenNames u; clear_value u) | with_reducible apply ite_stays
    | with_reducible apply State.setFio_stays

theorem State.ovlBack_stays (s : State) (n : Nat) (h0 : s.Stays fs s₀) (hM : [.fio] ⊆ fs) :
    State.Stays (State.ovlBack s n) fs s₀ :=
  State.with_fio _ h0 hM

theorem State.judge_stays (s : State) (noTest quiet : Bool) (n : Nat) (h0 : s.Stays fs s₀) (hM : [.objs, .fio, .flt] ⊆ fs) :
    State.Stays (State.judge s noTest quiet n) fs s₀ := by
  unfold State.judge
  repeat' first
    | with_reducible assumption | with_reducible exact List.Subset.trans (by decide) hM | intro _
    | (extract_lets +onlyGivenNames u; refine cut_goal (P := State.Stays u fs s₀) ?_ fun _ => ?_; (on_goal 2 => clear_value u); (on_goal 1 => (unfold u; clear u)))
    | (extract_lets +onlyGivenNames u; clear_value u) | with_reducible apply ite_stays
    | with_reducible apply State.setFio_stays | with_reducible apply State.when_stays | with_reducible apply State.raise_stays
    | with_reducible apply State.incOb_stays

theorem State.couplerCheck_stays (s : State) (out : Bool) (n : Nat) (bad : Bool) (h0 : s.Stays fs s₀) (hM : [.objs, .fio, .flt] ⊆ fs) :
    State.Stays (State.couplerCheck s out n bad) fs s₀ := by
  unfold State.couplerCheck
  repeat' first
    | with_reducible assumption | with_reducible exact List.Subset.trans (by decide) hM | intro _
    | (extract_lets +onlyGivenNames u; refine cut_goal (P := State.Stays u fs s₀) ?_ fun _ => ?_; (on_goal 2 => clear_value u); (on_goal 1 => (unfold u; clear u)))
    | (extract_lets +onlyGivenNames u; clear_value u) | with_reducible apply ite_stays
    | with_reducible apply State.setFio_stays | with_reducible apply State.when_stays | with_reducible apply State.raise_stays
    | with_reducible apply State.incOb_stays

theorem State.limitSince_stays (s : State) (r : Sys2Proof.C1) (h0 : s.Stays fs s₀) (hM : [.fio] ⊆ fs) :
    State.Stays (State.limitSince s r) fs s₀ := by
  unfold State.limitSince
  repeat' first
    | with_reducible assumption | with_reducible exact List.Subset.trans (by decide) hM | intro _ | with_reducible apply ite_stays | with_reducible apply State.setFio_stays

theorem State.c1_stays (s : State) (r : Sys2Proof.C1) (noTest quiet : Bool) (h0 : s.Stays fs s₀) (hM : [.objs, .fio, .flt] ⊆ fs) :
    State.Stays (State.c1 s r noTest quiet) fs s₀ := by
  unfold State.c1
  repeat' first
    | with_reducible assumption | with_reducible exact List.Subset.trans (by decide) hM | intro _
    | (extract_lets +onlyGivenNames u; refine cut_goal (P := State.Stays u fs s₀) ?_ fun _ => ?_; (on_goal 2 => clear_value u); (on_goal 1 => (unfold u; clear u)))
    | with_reducible apply State.when_stays | with_reducible apply State.setFio_stays | with_reducible apply State.each_stays
    | with_reducible apply State.couplerCheck_stays | with_reducible apply State.takeReport_stays
    | with_reducible apply State.judge_stays

theorem State.latchLine_stays (s : State) (h0 : s.Stays fs s₀) (hM : [.fio] ⊆ fs) :
    State.Stays (State.latchLine s) fs s₀ :=
  State.with_fio _ h0 hM

theorem State.putLine_stays (s : State) (b : List Sys2Proof.Byte) (h0 : s.Stays fs s₀) (hM : [.mem, .img] ⊆ fs) :
    State.Stays (State.putLine s b) fs s₀ := by
  unfold State.putLine
  repeat' first
    | with_reducible assumption | with_reducible exact List.Subset.trans (by decide) hM | intro _
    | (extract_lets +onlyGivenNames u; refine cut_goal (P := State.Stays u fs s₀) ?_ fun _ => ?_; (on_goal 2 => clear_value u); (on_goal 1 => (unfold u; clear u)))
    | (extract_lets +onlyGivenNames u; clear_value u) | with_reducible apply ite_stays
    | with_reducible apply State.putBytes_stays | with_reducible apply State.setImg_stays

theorem State.logEdge_stays (s : State) (n : Nat) (rising : Bool) (stamp : Nat) (h0 : s.Stays fs s₀) (hM : [.objs, .fio] ⊆ fs) :
    State.Stays (State.logEdge s n rising stamp) fs s₀ := by
  unfold State.logEdge
  repeat' first
    | with_reducible assumption | with_reducible exact List.Subset.trans (by decide) hM | intro _
    | (extract_lets +onlyGivenNames u; refine cut_goal (P := State.Stays u fs s₀) ?_ fun _ => ?_; (on_goal 2 => clear_value u); (on_goal 1 => (unfold u; clear u)))
    | with_reducible apply ite_stays | with_reducible apply State.setOb_stays | with_reducible apply State.incOb_stays
    | with_reducible apply State.setFio_stays

theorem State.runsAnew_stays (s : State) (l : List Nat) (h0 : s.Stays fs s₀) (hM : [.fio] ⊆ fs) :
    State.Stays (State.runsAnew s l) fs s₀ := by
  unfold State.runsAnew
  repeat' first
    | with_reducible assumption | with_reducible exact List.Subset.trans (by decide) hM | intro _ | with_reducible apply State.setFio_stays

theorem State.supplyChange_stays (s : State) (grp : Nat) (present : Bool) (h0 : s.Stays fs s₀) (hM : [.objs, .fio, .flt] ⊆ fs) :
    State.Stays (State.supplyChange s grp present) fs s₀ := by
  unfold State.supplyChange
  repeat' first
    | with_reducible assumption | with_reducible exact List.Subset.trans (by decide) hM | intro _
    | (extract_lets +onlyGivenNames u; refine cut_goal (P := State.Stays u fs s₀) ?_ fun _ => ?_; (on_goal 2 => clear_value u); (on_goal 1 => (unfold u; clear u)))
    | (extract_lets +onlyGivenNames u; clear_value u) | with_reducible apply ite_stays
    | with_reducible apply State.setFio_stays | with_reducible apply State.when_stays
    | with_reducible apply State.takeReport_stays | with_reducible apply State.runsAnew_stays

theorem State.fieldConfig_stays (s : State) (i v : Nat) (h0 : s.Stays fs s₀) (hM : [.fio] ⊆ fs) :
    State.Stays (State.fieldConfig s i v) fs s₀ := by
  unfold State.fieldConfig
  repeat' first
    | with_reducible assumption | with_reducible exact List.Subset.trans (by decide) hM | intro _ | with_reducible apply ite_stays | with_reducible apply State.setFio_stays

end Sys2Proof.Machine
end


section
/-! SUPPORT. What each operation of network time, the calendar, the field network and the message buses leaves as it was. -/

namespace Sys2Proof.Machine

variable {fs : List Field} {s₀ : State}

theorem State.reclaim_stays (s : State) (h0 : s.Stays fs s₀) (hM : [.red] ⊆ fs) :
    State.Stays (State.reclaim s) fs s₀ := by
  unfold State.reclaim
  repeat' first
    | with_reducible assumption | with_reducible exact List.Subset.trans (by decide) hM | intro _
    | with_reducible refine State.setRed_stays _ ?_ (by refine ⟨?_, ?_, ?_, ?_, ?_, ?_, ?_, ?_, ?_⟩ <;> first | exact .inr rfl | exact .inl (Field.mem_of hM (by decide))) rfl

theorem State.moorSend_stays (s : State) (m : MoorMsg) (h0 : s.Stays fs s₀) (hM : [.msgs] ⊆ fs) :
    State.Stays (State.moorSend s m) fs s₀ := by
  unfold State.moorSend
  repeat' first
    | with_reducible assumption | with_reducible exact List.Subset.trans (by decide) hM | intro _ | with_reducible apply ite_stays | with_reducible refine State.setRed_stays _ ?_ (by refine ⟨?_, ?_, ?_, ?_, ?_, ?_, ?_, ?_, ?_⟩ <;> first | exact .inr rfl | exact .inl (Field.mem_of hM (by decide))) rfl

theorem State.dictate_stays (s : State) (d : Sys2Proof.Dict) (h0 : s.Stays fs s₀) (hM : [.sent] ⊆ fs) :
    State.Stays (State.dictate s d) fs s₀ := by
  unfold State.dictate
  repeat' first
    | with_reducible assumption | with_reducible exact List.Subset.trans (by decide) hM | intro _ | with_reducible apply ite_stays | with_reducible refine State.setRed_stays _ ?_ (by refine ⟨?_, ?_, ?_, ?_, ?_, ?_, ?_, ?_, ?_⟩ <;> first | exact .inr rfl | exact .inl (Field.mem_of hM (by decide))) rfl

theorem State.keepOwn_stays (s : State) (d : Sys2Proof.Dict) (h0 : s.Stays fs s₀) (hM : [.own] ⊆ fs) :
    State.Stays (State.keepOwn s d) fs s₀ := by
  unfold State.keepOwn
  repeat' first
    | with_reducible assumption | with_reducible exact List.Subset.trans (by decide) hM | intro _
    | with_reducible refine State.setRed_stays _ ?_ (by refine ⟨?_, ?_, ?_, ?_, ?_, ?_, ?_, ?_, ?_⟩ <;> first | exact .inr rfl | exact .inl (Field.mem_of hM (by decide))) rfl

theorem State.offsetRefused_stays (s : State) (v : Nat) (h0 : s.Stays fs s₀) (hM : [.objs, .flt] ⊆ fs) :
    State.Stays (State.offsetRefused s v) fs s₀ := by
  unfold State.offsetRefused
  repeat' first
    | with_reducible assumption | with_reducible exact List.Subset.trans (by decide) hM | intro _
    | with_reducible apply State.incOb_stays | with_reducible apply State.raise_stays
    | with_reducible apply State.setOb_stays

theorem State.ptpQueue_stays (s : State) (p len : Nat) (f : List Sys2Proof.Byte) (h0 : s.Stays fs s₀) (hM : [.objs, .ntm] ⊆ fs) :
    State.Stays (State.ptpQueue s p len f) fs s₀ := by
  unfold State.ptpQueue
  repeat' first
    | with_reducible assumption | with_reducible exact List.Subset.trans (by decide) hM | intro _
    | (extract_lets +onlyGivenNames u; refine cut_goal (P := State.Stays u fs s₀) ?_ fun _ => ?_; (on_goal 2 => clear_value u); (on_goal 1 => (unfold u; clear u)))
    | (extract_lets +onlyGivenNames u; clear_value u) | with_reducible apply ite_stays | with_reducible apply State.when_stays
    | with_reducible apply State.setOb_stays | with_reducible apply State.incOb_stays | with_reducible apply State.setNtm_stays

theorem State.stampQueue_stays (s : State) (p tag t : Nat) (h0 : s.Stays fs s₀) (hM : [.objs, .ntm] ⊆ fs) :
    State.Stays (State.stampQueue s p tag t) fs s₀ := by
  unfold State.stampQueue
  repeat' first
    | with_reducible assumption | with_reducible exact List.Subset.trans (by decide) hM | intro _ | with_reducible apply ite_stays | with_reducible apply State.incOb_stays
    | with_reducible apply State.setNtm_stays

theorem State.gclCfgApply_stays (s : State) (p v : Nat) (h0 : s.Stays fs s₀) (hM : [.objs, .ntm] ⊆ fs) :
    State.Stays (State.gclCfgApply s p v) fs s₀ := by
  unfold State.gclCfgApply
  repeat' first
    | with_reducible assumption | with_reducible exact List.Subset.trans (by decide) hM | intro _
    | (extract_lets +onlyGivenNames u; refine cut_goal (P := State.Stays u fs s₀) ?_ fun _ => ?_; (on_goal 2 => clear_value u); (on_goal 1 => (unfold u; clear u)))
    | (extract_lets +onlyGivenNames u; clear_value u) | with_reducible apply ite_stays
    | with_reducible apply State.setOb_stays | with_reducible apply State.setGate_stays
    | with_reducible apply State.gateNow_stays

theorem State.gclSwap_stays (s : State) (p : Nat) (h0 : s.Stays fs s₀) (hM : [.ntm] ⊆ fs) :
    State.Stays (State.gclSwap s p) fs s₀ :=
  State.with_ntm _ h0 hM

theorem State.gateChange_stays (s : State) (p : Nat) (h0 : s.Stays fs s₀) (hM : [.objs, .ntm, .fresh] ⊆ fs) :
    State.Stays (State.gateChange s p) fs s₀ := by
  unfold State.gateChange
  repeat' first
    | with_reducible assumption | with_reducible exact List.Subset.trans (by decide) hM | intro _
    | (extract_lets +onlyGivenNames u; refine cut_goal (P := State.Stays u fs s₀) ?_ fun _ => ?_; (on_goal 2 => clear_value u); (on_goal 1 => (unfold u; clear u)))
    | (extract_lets +onlyGivenNames u; clear_value u) | with_reducible apply ite_stays
    | with_reducible apply State.reach_stays | with_reducible apply State.when_stays | with_reducible apply State.gclSwap_stays
    | with_reducible apply State.setGate_stays

theorem State.offsetApply_stays (s : State) (v : Nat) (h0 : s.Stays fs s₀) (hM : [.ntm] ⊆ fs) :
    State.Stays (State.offsetApply s v) fs s₀ := by
  unfold State.offsetApply
  repeat' first
    | with_reducible assumption | with_reducible exact List.Subset.trans (by decide) hM | intro _ | with_reducible apply ite_stays | with_reducible apply State.setNtm_stays

theorem State.ntmSetApply_stays (s : State) (b : List Sys2Proof.Byte) (h0 : s.Stays fs s₀) (hM : [.ntm, .chk, .pmc] ⊆ fs) :
    State.Stays (State.ntmSetApply s b) fs s₀ := by
  unfold State.ntmSetApply
  repeat' first
    | with_reducible assumption | with_reducible exact List.Subset.trans (by decide) hM | intro _ | (extract_lets +onlyGivenNames u; clear_value u)
    | with_reducible apply State.duesAnew_stays | with_reducible apply State.gatesNow_stays
    | with_reducible apply State.setNtm_stays

theorem State.setCal_stays (s : State) (f : Cal → Cal) (h0 : s.Stays fs s₀) (hM : [.cal] ⊆ fs) :
    State.Stays (State.setCal s f) fs s₀ :=
  State.with_cal _ h0 hM

theorem State.setRsv_stays (s : State) (f : Rsv → Rsv) (h0 : s.Stays fs s₀) (hM : [.rsv] ⊆ fs) :
    State.Stays (State.setRsv s f) fs s₀ :=
  State.with_rsv _ h0 hM

theorem State.alarmFire_stays (s : State) (n : Nat) (h0 : s.Stays fs s₀) (hM : [.objs, .tds, .own, .cal] ⊆ fs) :
    State.Stays (State.alarmFire s n) fs s₀ := by
  unfold State.alarmFire
  repeat' first
    | with_reducible assumption | with_reducible exact List.Subset.trans (by decide) hM | intro _
    | (extract_lets +onlyGivenNames u; refine cut_goal (P := State.Stays u fs s₀) ?_ fun _ => ?_; (on_goal 2 => clear_value u); (on_goal 1 => (unfold u; clear u)))
    | (extract_lets +onlyGivenNames u; clear_value u) | with_reducible apply State.setOb_stays
    | with_reducible apply State.when_stays | with_reducible apply State.setCal_stays | with_reducible apply State.fire_stays

theorem State.rsvReadId_stays (s : State) (adopt : Bool) (h0 : s.Stays fs s₀) (hM : [.rsv, .flt] ⊆ fs) :
    State.Stays (State.rsvReadId s adopt) fs s₀ := by
  unfold State.rsvReadId
  repeat' first
    | with_reducible assumption | with_reducible exact List.Subset.trans (by decide) hM | intro _ | (extract_lets +onlyGivenNames u; clear_value u) | with_reducible apply ite_stays
    | with_reducible apply State.setRsv_stays | with_reducible apply State.raise_stays

theorem State.rsvEol_stays (s : State) (h0 : s.Stays fs s₀) (hM : [.rsv, .flt] ⊆ fs) :
    State.Stays (State.rsvEol s) fs s₀ := by
  unfold State.rsvEol
  repeat' first
    | with_reducible assumption | with_reducible exact List.Subset.trans (by decide) hM | intro _ | with_reducible apply ite_stays | with_reducible apply State.raise_stays
    | with_reducible apply State.setRsv_stays

theorem State.rsvTestStart_stays (s : State) (h0 : s.Stays fs s₀) (hM : [.objs, .rsv, .flt] ⊆ fs) :
    State.Stays (State.rsvTestStart s) fs s₀ := by
  unfold State.rsvTestStart
  repeat' first
    | with_reducible assumption | with_reducible exact List.Subset.trans (by decide) hM | intro _ | with_reducible apply State.incOb_stays | with_reducible apply State.setRsv_stays
    | with_reducible apply State.rsvReadId_stays

theorem State.rsvAbort_stays (s : State) (h0 : s.Stays fs s₀) (hM : [.objs, .rsv] ⊆ fs) :
    State.Stays (State.rsvAbort s) fs s₀ := by
  unfold State.rsvAbort
  repeat' first
    | with_reducible assumption | with_reducible exact List.Subset.trans (by decide) hM | intro _ | (extract_lets +onlyGivenNames u; clear_value u) | with_reducible apply ite_stays
    | with_reducible apply State.incOb_stays | with_reducible apply State.setRsv_stays

theorem State.rsvTestDone_stays (s : State) (dv1 dv2 : Nat) (h0 : s.Stays fs s₀) (hM : [.objs, .rsv, .flt] ⊆ fs) :
    State.Stays (State.rsvTestDone s dv1 dv2) fs s₀ := by
  unfold State.rsvTestDone
  repeat' first
    | with_reducible assumption | with_reducible exact List.Subset.trans (by decide) hM | intro _
    | (extract_lets +onlyGivenNames u; refine cut_goal (P := State.Stays u fs s₀) ?_ fun _ => ?_; (on_goal 2 => clear_value u); (on_goal 1 => (unfold u; clear u)))
    | (extract_lets +onlyGivenNames u; clear_value u) | with_reducible apply ite_stays
    | with_reducible apply State.setRsv_stays | with_reducible apply State.when_stays | with_reducible apply State.setOb_stays
    | with_reducible apply State.rsvEol_stays

theorem State.stressMinute_stays (s : State) (tempC volt : Int) (h0 : s.Stays fs s₀) (hM : [.objs, .rsv, .flt] ⊆ fs) :
    State.Stays (State.stressMinute s tempC volt) fs s₀ := by
  unfold State.stressMinute
  repeat' first
    | with_reducible assumption | with_reducible exact List.Subset.trans (by decide) hM | intro _
    | (extract_lets +onlyGivenNames u; refine cut_goal (P := State.Stays u fs s₀) ?_ fun _ => ?_; (on_goal 2 => clear_value u); (on_goal 1 => (unfold u; clear u)))
    | with_reducible apply ite_stays | with_reducible apply State.setOb_stays | with_reducible apply State.rsvEol_stays
    | with_reducible apply State.setRsv_stays

theorem State.stressDaily_stays (s : State) (h0 : s.Stays fs s₀) (hM : [.rsv] ⊆ fs) :
    State.Stays (State.stressDaily s) fs s₀ := by
  unfold State.stressDaily
  repeat' first
    | with_reducible assumption | with_reducible exact List.Subset.trans (by decide) hM | intro _ | with_reducible apply ite_stays | with_reducible apply State.setRsv_stays

theorem State.bkObjects_stays (s : State) (h0 : s.Stays fs s₀) (hM : [.objs, .sess] ⊆ fs) :
    State.Stays (State.bkObjects s) fs s₀ := by
  unfold State.bkObjects
  repeat' first
    | with_reducible assumption | with_reducible exact List.Subset.trans (by decide) hM | intro _
    | (extract_lets +onlyGivenNames u; refine cut_goal (P := State.Stays u fs s₀) ?_ fun _ => ?_; (on_goal 2 => clear_value u); (on_goal 1 => (unfold u; clear u)))
    | (extract_lets +onlyGivenNames u; clear_value u) | with_reducible apply State.each_stays
    | with_reducible apply State.setSes_stays
    | with_reducible apply State.with_objs

theorem State.bkStart_stays (s : State) (ident : List Sys2Proof.Byte) (h0 : s.Stays fs s₀) (hM : [.objs, .sess, .cal, .rsv, .flt] ⊆ fs) :
    State.Stays (State.bkStart s ident) fs s₀ := by
  unfold State.bkStart
  repeat' first
    | with_reducible assumption | with_reducible exact List.Subset.trans (by decide) hM | intro _
    | (extract_lets +onlyGivenNames u; refine cut_goal (P := State.Stays u fs s₀) ?_ fun _ => ?_; (on_goal 2 => clear_value u); (on_goal 1 => (unfold u; clear u)))
    | (extract_lets +onlyGivenNames u; clear_value u) | with_reducible apply State.bkObjects_stays
    | with_reducible apply State.rsvReadId_stays
    | with_reducible apply State.with_cal_rsv

theorem State.setHnw_stays (s : State) (f : Hnw → Hnw) (h0 : s.Stays fs s₀) (hM : [.hnw] ⊆ fs) :
    State.Stays (State.setHnw s f) fs s₀ :=
  State.with_hnw _ h0 hM

theorem State.modStn_stays (s : State) (n : Nat) (f : Sta → Sta) (h0 : s.Stays fs s₀) (hM : [.hnw] ⊆ fs) :
    State.Stays (State.modStn s n f) fs s₀ :=
  State.with_hnw _ h0 hM

theorem State.fioOverlap_stays (s : State) (h0 : s.Stays fs s₀) (hM : [.fio, .flt] ⊆ fs) :
    State.Stays (State.fioOverlap s) fs s₀ := by
  unfold State.fioOverlap
  repeat' first
    | with_reducible assumption | with_reducible exact List.Subset.trans (by decide) hM | intro _
    | (extract_lets +onlyGivenNames u; refine cut_goal (P := State.Stays u fs s₀) ?_ fun _ => ?_; (on_goal 2 => clear_value u); (on_goal 1 => (unfold u; clear u)))
    | (extract_lets +onlyGivenNames u; clear_value u) | with_reducible apply ite_stays
    | with_reducible apply State.setFio_stays | with_reducible apply State.when_stays | with_reducible apply State.raise_stays

theorem State.setQueue_stays (s : State) (p : Nat) (l : List TxF) (h0 : s.Stays fs s₀) (hM : [.hnw] ⊆ fs) :
    State.Stays (State.setQueue s p l) fs s₀ :=
  State.with_hnw _ h0 hM

theorem State.enqueue_stays (s : State) (p : Nat) (f : TxF) (h0 : s.Stays fs s₀) (hM : [.hnw] ⊆ fs) :
    State.Stays (State.enqueue s p f) fs s₀ :=
  State.with_hnw _ h0 hM

theorem State.takeSeq_stays (s : State) (k : Nat) (h0 : s.Stays fs s₀) (hM : [.hnw] ⊆ fs) :
    State.Stays (State.takeSeq s k).1 fs s₀ :=
  State.with_hnw _ h0 hM

theorem State.numberFrame_stays (s : State) (p : Nat) (f : TxF) (h0 : s.Stays fs s₀) (hM : [.hnw] ⊆ fs) :
    State.Stays (State.numberFrame s p f).1 fs s₀ := by
  unfold State.numberFrame
  repeat' first
    | with_reducible assumption | with_reducible exact List.Subset.trans (by decide) hM | intro _ | with_reducible apply_assumption | with_reducible apply ite_stays
    | with_reducible apply State.takeSeq_stays | with_reducible apply State.each_stays
    | with_reducible apply State.setQueue_stays | with_reducible apply foldl_stays1 
     | dsimp only | with_reducible refine stays_of_eq (by assumption) ?_ | split

theorem State.sendTrainFrame_stays (s : State) (trunk : Nat) (f : TxF) (h0 : s.Stays fs s₀) (hM : [.objs, .tds, .hnw, .ntm, .dma, .flt, .fresh] ⊆ fs) :
    State.Stays (State.sendTrainFrame s trunk f) fs s₀ := by
  unfold State.sendTrainFrame
  repeat' first
    | with_reducible assumption | with_reducible exact List.Subset.trans (by decide) hM | intro _ | (extract_lets +onlyGivenNames u; clear_value u)
    | with_reducible apply State.each_stays | with_reducible apply State.enqueue_stays

theorem State.sendFrames_stays (s : State) (trunk : Nat) (kind : FKind) (len : Nat → Nat) (launch point : Nat) (frames : List (List Nat)) (from_ : Nat) (h0 : s.Stays fs s₀) (hM : [.objs, .tds, .hnw, .ntm, .dma, .flt, .fresh] ⊆ fs) :
    State.Stays (State.sendFrames s trunk kind len launch point frames from_) fs s₀ := by
  unfold State.sendFrames
  repeat' first
    | with_reducible assumption | with_reducible exact List.Subset.trans (by decide) hM | intro _ | (extract_lets +onlyGivenNames u; clear_value u)
    | with_reducible apply State.each_stays | with_reducible apply State.sendTrainFrame_stays

theorem State.ebbTrains_stays (s : State) (h0 : s.Stays fs s₀) (hM : [.objs, .tds, .hnw, .ntm, .dma, .flt, .fresh] ⊆ fs) :
    State.Stays (State.ebbTrains s) fs s₀ := by
  unfold State.ebbTrains
  repeat' first
    | with_reducible assumption | with_reducible exact List.Subset.trans (by decide) hM | intro _ | (extract_lets +onlyGivenNames u; clear_value u)
    | with_reducible apply State.each_stays | with_reducible apply State.sendFrames_stays

theorem State.sendSchedule_stays (s : State) (p : Nat) (behind : Option Nat) (h0 : s.Stays fs s₀) (hM : [.objs, .tds, .hnw, .ntm, .dma, .flt, .fresh] ⊆ fs) :
    State.Stays (State.sendSchedule s p behind) fs s₀ := by
  unfold State.sendSchedule
  repeat' first
    | with_reducible assumption | with_reducible exact List.Subset.trans (by decide) hM | intro _ | (extract_lets +onlyGivenNames u; clear_value u) | with_reducible apply ite_stays
    | with_reducible apply State.sendTrainFrame_stays

theorem State.schedules_stays (s : State) (h0 : s.Stays fs s₀) (hM : [.objs, .tds, .hnw, .ntm, .dma, .flt, .fresh] ⊆ fs) :
    State.Stays (State.schedules s) fs s₀ := by
  unfold State.schedules
  repeat' first
    | with_reducible assumption | with_reducible exact List.Subset.trans (by decide) hM | intro _ | with_reducible apply ite_stays | with_reducible apply State.each_stays
    | with_reducible apply State.sendSchedule_stays

theorem State.slackTrains_stays (s : State) (h0 : s.Stays fs s₀) (hM : [.objs, .tds, .hnw, .ntm, .dma, .flt, .fresh] ⊆ fs) :
    State.Stays (State.slackTrains s) fs s₀ := by
  unfold State.slackTrains
  repeat' first
    | with_reducible assumption | with_reducible exact List.Subset.trans (by decide) hM | intro _
    | (extract_lets +onlyGivenNames u; refine cut_goal (P := State.Stays u fs s₀) ?_ fun _ => ?_; (on_goal 2 => clear_value u); (on_goal 1 => (unfold u; clear u)))
    | (extract_lets +onlyGivenNames u; clear_value u) | with_reducible apply ite_stays
    | with_reducible apply State.setHnw_stays | with_reducible apply State.each_stays
    | with_reducible apply State.sendSchedule_stays | with_reducible apply State.sendFrames_stays

theorem State.takeover_stays (s : State) (done : List Nat) (h0 : s.Stays fs s₀) (hM : [.objs, .tds, .hnw, .ntm, .dma, .flt, .fresh] ⊆ fs) :
    State.Stays (State.takeover s done).1 fs s₀ := by
  unfold State.takeover
  repeat' first
    | with_reducible assumption | with_reducible exact List.Subset.trans (by decide) hM | intro _
    | (extract_lets +onlyGivenNames u; refine cut_goal (P := State.Stays u fs s₀) ?_ fun _ => ?_; (on_goal 2 => clear_value u); (on_goal 1 => (unfold u; clear u)))
    | (extract_lets +onlyGivenNames u; clear_value u) | with_reducible apply_assumption | with_reducible apply ite_stays
    | with_reducible apply State.sendSchedule_stays | with_reducible apply State.sendFrames_stays
    | with_reducible apply State.foldl_stays | with_reducible apply foldl_stays1 | split

theorem State.gateDropOne_stays (s : State) (p cls : Nat) (h0 : s.Stays fs s₀) (hM : [.objs, .hnw] ⊆ fs) :
    State.Stays (State.gateDropOne s p cls) fs s₀ := by
  unfold State.gateDropOne
  repeat' first
    | with_reducible assumption | with_reducible exact List.Subset.trans (by decide) hM | intro _ | with_reducible apply State.incOb_stays | with_reducible apply State.setQueue_stays
      | dsimp only | split

theorem State.sendFrame_stays (s : State) (p : Nat) (f : TxF) (h0 : s.Stays fs s₀) (hM : [.objs, .mem, .img, .hnw, .ntm, .pmc, .fresh] ⊆ fs) :
    State.Stays (State.sendFrame s p f) fs s₀ := by
  unfold State.sendFrame
  repeat' first
    | with_reducible assumption | with_reducible exact List.Subset.trans (by decide) hM | intro _
    | (extract_lets +onlyGivenNames u; refine cut_goal (P := State.Stays u fs s₀) ?_ fun _ => ?_; (on_goal 2 => clear_value u); (on_goal 1 => (unfold u; clear u)))
    | (extract_lets +onlyGivenNames u; refine cut_goal (P := State.Stays u.1 fs s₀) ?_ fun _ => ?_; (on_goal 2 => clear_value u); (on_goal 1 => (unfold u; clear u)))
    | (extract_lets +onlyGivenNames u; clear_value u) | with_reducible apply_assumption | with_reducible apply ite_stays
    | with_reducible apply State.copyProgress_stays | with_reducible apply State.setQueue_stays
    | with_reducible apply State.incOb_stays | with_reducible apply State.numberFrame_stays
    | with_reducible apply State.setHnw_stays | with_reducible apply State.bwPast_stays | with_reducible apply State.when_stays
    | with_reducible apply State.draw_stays | with_reducible apply State.stampQueue_stays
    | with_reducible apply State.with_pmc

theorem State.dropMissed_stays (s : State) (p : Nat) (h0 : s.Stays fs s₀) (hM : [.objs, .hnw] ⊆ fs) :
    State.Stays (State.dropMissed s p) fs s₀ := by
  unfold State.dropMissed
  repeat' first
    | with_reducible assumption | with_reducible exact List.Subset.trans (by decide) hM | intro _ | with_reducible apply ite_stays | with_reducible apply State.each_stays
    | with_reducible apply State.incOb_stays | with_reducible apply State.setQueue_stays 
     | dsimp only | split

theorem State.launchReady_stays (s : State) (p : Nat) (h0 : s.Stays fs s₀) (hM : [.objs, .mem, .img, .hnw, .ntm, .pmc, .fresh] ⊆ fs) :
    State.Stays (State.launchReady s p) fs s₀ := by
  unfold State.launchReady
  repeat' first
    | with_reducible assumption | with_reducible exact List.Subset.trans (by decide) hM | intro _
    | (extract_lets +onlyGivenNames u; refine cut_goal (P := State.Stays u fs s₀) ?_ fun _ => ?_; (on_goal 2 => clear_value u); (on_goal 1 => (unfold u; clear u)))
    | with_reducible apply State.dropMissed_stays | with_reducible apply State.sendFrame_stays 
     | dsimp only | split

theorem State.launchNext_stays (s : State) (p : Nat) (h0 : s.Stays fs s₀) (hM : [.objs, .mem, .tds, .img, .hnw, .ntm, .dma, .flt, .pmc, .fresh] ⊆ fs) :
    State.Stays (State.launchNext s p) fs s₀ := by
  unfold State.launchNext
  repeat' first
    | with_reducible assumption | with_reducible exact List.Subset.trans (by decide) hM | intro _
    | (extract_lets +onlyGivenNames u; refine cut_goal (P := State.Stays u fs s₀) ?_ fun _ => ?_; (on_goal 2 => clear_value u); (on_goal 1 => (unfold u; clear u)))
    | with_reducible apply ite_stays | with_reducible apply State.reachMono_stays
    | with_reducible apply State.gateDropOne_stays | with_reducible apply State.dropMissed_stays
    | with_reducible apply State.sendFrame_stays | with_reducible apply State.launchReady_stays
    | with_reducible apply State.reach_stays | with_reducible apply State.foldl_stays 
     | dsimp only | split

theorem State.launchMiss_stays (s : State) (p : Nat) (h0 : s.Stays fs s₀) (hM : [.objs, .hnw, .ntm, .fresh] ⊆ fs) :
    State.Stays (State.launchMiss s p) fs s₀ := by
  unfold State.launchMiss
  repeat' first
    | with_reducible assumption | with_reducible exact List.Subset.trans (by decide) hM | intro _ | (extract_lets +onlyGivenNames u; clear_value u)
    | with_reducible apply State.dropMissed_stays | with_reducible apply State.reach_stays
    | with_reducible apply State.foldl_stays   | dsimp only
    | split

theorem State.ingress_stays (s : State) (fr : Sys2Proof.Rx) (acyclic : Bool) (h0 : s.Stays fs s₀) (hM : [.objs, .ntm, .pmc, .fresh] ⊆ fs) :
    State.Stays (State.ingress s fr acyclic).1 fs s₀ := by
  unfold State.ingress
  repeat' first
    | with_reducible assumption | with_reducible exact List.Subset.trans (by decide) hM | intro _
    | (extract_lets +onlyGivenNames u; refine cut_goal (P := State.Stays u fs s₀) ?_ fun _ => ?_; (on_goal 2 => clear_value u); (on_goal 1 => (unfold u; clear u)))
    | (extract_lets +onlyGivenNames u; clear_value u) | with_reducible apply_assumption
    | with_reducible apply State.bwPast_stays | with_reducible apply State.incOb_stays | with_reducible apply State.when_stays
    | with_reducible apply foldl_stays1
    | with_reducible apply State.with_pmc

theorem State.svcFrame_stays (s : State) (port : Nat) (peer : Peer) (tag : Nat) (body : List Sys2Proof.Byte) (h0 : s.Stays fs s₀) (hM : [.hnw] ⊆ fs) :
    State.Stays (State.svcFrame s port peer tag body) fs s₀ :=
  State.with_hnw _ h0 hM

theorem State.ringSeen_stays (s : State) (port : Nat) (y2 : Sys2Proof.Hdr) (h0 : s.Stays fs s₀) (hM : [.hnw] ⊆ fs) :
    State.Stays (State.ringSeen s port y2) fs s₀ := by
  unfold State.ringSeen
  repeat' first
    | with_reducible assumption | with_reducible exact List.Subset.trans (by decide) hM | intro _ | (extract_lets +onlyGivenNames u; clear_value u) | with_reducible apply ite_stays
    | with_reducible apply State.setHnw_stays

theorem State.ringTell_stays (s : State) (k : Nat) (h0 : s.Stays fs s₀) (hM : [.hnw, .flt] ⊆ fs) :
    State.Stays (State.ringTell s k) fs s₀ := by
  unfold State.ringTell
  repeat' first
    | with_reducible assumption | with_reducible exact List.Subset.trans (by decide) hM | intro _
    | (extract_lets +onlyGivenNames u; refine cut_goal (P := State.Stays u fs s₀) ?_ fun _ => ?_; (on_goal 2 => clear_value u); (on_goal 1 => (unfold u; clear u)))
    | (extract_lets +onlyGivenNames u; clear_value u) | with_reducible apply ite_stays
    | with_reducible apply State.setHnw_stays | with_reducible apply State.raise_stays

theorem State.ringsTell_stays (s : State) (h0 : s.Stays fs s₀) (hM : [.hnw, .flt] ⊆ fs) :
    State.Stays (State.ringsTell s) fs s₀ := by
  unfold State.ringsTell
  repeat' first
    | with_reducible assumption | with_reducible exact List.Subset.trans (by decide) hM | intro _ | with_reducible apply State.each_stays | with_reducible apply State.ringTell_stays

theorem State.pendLines_stays (s : State) (off n : Nat) (h0 : s.Stays fs s₀) (hM : [.img] ⊆ fs) :
    State.Stays (State.pendLines s off n) fs s₀ :=
  State.with_img _ h0 hM

theorem State.stationBack_stays (s : State) (n : Nat) (h0 : s.Stays fs s₀) (hM : [.flt] ⊆ fs) :
    State.Stays (State.stationBack s n) fs s₀ :=
  State.with_flt _ h0 hM

theorem State.ebbSeg_stays (s : State) (port : Nat) (own : Bool) (g : Sys2Proof.Seg) (h0 : s.Stays fs s₀) (hM : [.objs, .mem, .img, .hnw, .flt, .sta] ⊆ fs) :
    State.Stays (State.ebbSeg s port own g) fs s₀ := by
  unfold State.ebbSeg
  repeat' first
    | with_reducible assumption | with_reducible exact List.Subset.trans (by decide) hM | intro _
    | (extract_lets +onlyGivenNames u; refine cut_goal (P := State.Stays u fs s₀) ?_ fun _ => ?_; (on_goal 2 => clear_value u); (on_goal 1 => (unfold u; clear u)))
    | (extract_lets +onlyGivenNames u; clear_value u) | with_reducible apply ite_stays
    | with_reducible apply State.incOb_stays | with_reducible apply State.putBytes_stays
    | with_reducible apply State.pendLines_stays | with_reducible apply State.modStn_stays
    | with_reducible apply State.setHnw_stays | with_reducible apply State.when_stays
    | with_reducible apply State.stationBack_stays | with_reducible apply State.raise_stays

theorem State.slackSeg_stays (s : State) (g : Sys2Proof.Seg) (h0 : s.Stays fs s₀) (hM : [.hnw, .sta] ⊆ fs) :
    State.Stays (State.slackSeg s g) fs s₀ := by
  unfold State.slackSeg
  repeat' first
    | with_reducible assumption | with_reducible exact List.Subset.trans (by decide) hM | intro _ | with_reducible apply ite_stays | with_reducible apply State.modStn_stays

theorem State.outMisses_stays (s : State) (h0 : s.Stays fs s₀) (hM : [.objs, .hnw, .sta] ⊆ fs) :
    State.Stays (State.outMisses s) fs s₀ := by
  unfold State.outMisses
  repeat' first
    | with_reducible assumption | with_reducible exact List.Subset.trans (by decide) hM | intro _
    | (extract_lets +onlyGivenNames u; refine cut_goal (P := State.Stays u fs s₀) ?_ fun _ => ?_; (on_goal 2 => clear_value u); (on_goal 1 => (unfold u; clear u)))
    | (extract_lets +onlyGivenNames u; clear_value u) | with_reducible apply State.each_stays
    | with_reducible apply State.when_stays | with_reducible apply State.incOb_stays | with_reducible apply State.modStn_stays

theorem State.ebbSamples_stays (s : State) (h0 : s.Stays fs s₀) (hM : [.objs, .hnw, .sta] ⊆ fs) :
    State.Stays (State.ebbSamples s) fs s₀ := by
  unfold State.ebbSamples
  repeat' first
    | with_reducible assumption | with_reducible exact List.Subset.trans (by decide) hM | intro _ | (extract_lets +onlyGivenNames u; clear_value u)
    | with_reducible apply State.each_stays | with_reducible apply State.setHnw_stays | with_reducible apply State.sample_stays

theorem State.deadline_stays (s : State) (h0 : s.Stays fs s₀) (hM : [.objs, .hnw, .flt, .sta] ⊆ fs) :
    State.Stays (State.deadline s) fs s₀ := by
  unfold State.deadline
  repeat' first
    | with_reducible assumption | with_reducible exact List.Subset.trans (by decide) hM | intro _
    | (extract_lets +onlyGivenNames u; refine cut_goal (P := State.Stays u fs s₀) ?_ fun _ => ?_; (on_goal 2 => clear_value u); (on_goal 1 => (unfold u; clear u)))
    | (extract_lets +onlyGivenNames u; clear_value u) | with_reducible apply State.each_stays
    | with_reducible apply State.modStn_stays | with_reducible apply State.incOb_stays | with_reducible apply State.raise_stays

theorem State.stageBitmap_stays (s : State) (h0 : s.Stays fs s₀) (hM : [.mem, .img] ⊆ fs) :
    State.Stays (State.stageBitmap s) fs s₀ := by
  unfold State.stageBitmap
  repeat' first
    | with_reducible assumption | with_reducible exact List.Subset.trans (by decide) hM | intro _ | (extract_lets +onlyGivenNames u; clear_value u) | with_reducible apply ite_stays
    | with_reducible apply State.pendLines_stays | with_reducible apply State.putBytes_stays

theorem State.floodBitmap_stays (s : State) (h0 : s.Stays fs s₀) (hM : [.doms] ⊆ fs) :
    State.Stays (State.floodBitmap s) fs s₀ := by
  unfold State.floodBitmap
  repeat' first
    | with_reducible assumption | with_reducible exact List.Subset.trans (by decide) hM | intro _ | with_reducible apply State.setDom_stays

theorem State.sendService_stays (s : State) (r : Route) (h0 : s.Stays fs s₀) (hM : [.hnw] ⊆ fs) :
    State.Stays (State.sendService s r) fs s₀ := by
  unfold State.sendService
  repeat' first
    | with_reducible assumption | with_reducible exact List.Subset.trans (by decide) hM | intro _ | (extract_lets +onlyGivenNames u; clear_value u) | with_reducible apply ite_stays
    | with_reducible apply State.each_stays | with_reducible apply State.enqueue_stays

theorem State.route_stays (s : State) (r : Route) (out : Bool) (h0 : s.Stays fs s₀) (hM : [.hnw] ⊆ fs) :
    State.Stays (State.route s r out) fs s₀ := by
  unfold State.route
  repeat' first
    | with_reducible assumption | with_reducible exact List.Subset.trans (by decide) hM | intro _
    | (extract_lets +onlyGivenNames u; refine cut_goal (P := State.Stays u fs s₀) ?_ fun _ => ?_; (on_goal 2 => clear_value u); (on_goal 1 => (unfold u; clear u)))
    | (extract_lets +onlyGivenNames u; clear_value u) | with_reducible apply ite_stays
    | with_reducible apply State.setHnw_stays | with_reducible apply State.sendService_stays

theorem State.answer_stays (s : State) (r : Route) (status reason : Nat) (data : List Sys2Proof.Byte) (h0 : s.Stays fs s₀) (hM : [.hnw] ⊆ fs) :
    State.Stays (State.answer s r status reason data) fs s₀ := by
  unfold State.answer
  repeat' first
    | with_reducible assumption | with_reducible exact List.Subset.trans (by decide) hM | intro _
    | (extract_lets +onlyGivenNames u; refine cut_goal (P := State.Stays u fs s₀) ?_ fun _ => ?_; (on_goal 2 => clear_value u); (on_goal 1 => (unfold u; clear u)))
    | with_reducible apply ite_stays | with_reducible apply State.setHnw_stays | with_reducible apply State.svcFrame_stays

theorem State.endRoute_stays (s : State) (rid : Nat) (h0 : s.Stays fs s₀) (hM : [.hnw] ⊆ fs) :
    State.Stays (State.endRoute s rid) fs s₀ :=
  State.with_hnw _ h0 hM

theorem State.scanEnd_stays (s : State) (p : Nat) (h0 : s.Stays fs s₀) (hM : [.hnw] ⊆ fs) :
    State.Stays (State.scanEnd s p) fs s₀ :=
  State.with_hnw _ h0 hM

theorem State.scanAsk_stays (s : State) (x : Scan) (h0 : s.Stays fs s₀) (hM : [.hnw] ⊆ fs) :
    State.Stays (State.scanAsk s x) fs s₀ := by
  unfold State.scanAsk
  repeat' first
    | with_reducible assumption | with_reducible exact List.Subset.trans (by decide) hM | intro _ | with_reducible apply ite_stays | with_reducible apply State.scanEnd_stays
    | with_reducible apply State.route_stays

theorem State.scanStart_stays (s : State) (h0 : s.Stays fs s₀) (hM : [.doms, .hnw] ⊆ fs) :
    State.Stays (State.scanStart s) fs s₀ := by
  unfold State.scanStart
  repeat' first
    | with_reducible assumption | with_reducible exact List.Subset.trans (by decide) hM | intro _
    | (extract_lets +onlyGivenNames u; refine cut_goal (P := State.Stays u fs s₀) ?_ fun _ => ?_; (on_goal 2 => clear_value u); (on_goal 1 => (unfold u; clear u)))
    | (extract_lets +onlyGivenNames u; clear_value u) | with_reducible apply State.setDom_stays
    | with_reducible apply State.setHnw_stays | with_reducible apply State.each_stays
    | with_reducible apply State.scanAsk_stays

theorem State.scanStep_stays (s : State) (p v : Nat) (h0 : s.Stays fs s₀) (hM : [.objs, .doms, .hnw] ⊆ fs) :
    State.Stays (State.scanStep s p v) fs s₀ := by
  unfold State.scanStep
  split
  · exact h0
  · rename_i x _
    have hp : ∀ (u : State) (y : Scan), u.Stays fs s₀ →
        State.Stays ((u.setHnw fun h => { h with scans := h.scans.map fun z => if z.port = p then y else z }).scanAsk y) fs s₀ :=
      fun u y hu => State.scanAsk_stays _ _ (State.setHnw_stays _ _ hu (Field.within hM (by decide))) (Field.within hM (by decide))
    have hq : ∀ u : State, u.Stays fs s₀ → State.Stays (match u.staAt p x.pos with
        | some n => u.setOb (K.HST_IDENT n) (x.vendor * 2 ^ 32 + x.product)
        | none => u) fs s₀ := by
      intro u hu
      split
      · exact State.setOb_stays _ _ _ hu (Field.within hM (by decide))
      · exact hu
    split
    · exact hp _ _ h0
    · exact hp _ _ h0
    · exact hp _ _ (hq _ (State.setDom_stays _ _ _ h0 (Field.within hM (by decide))))

theorem State.confAsk_stays (s : State) (x : Conf) (h0 : s.Stays fs s₀) (hM : [.hnw] ⊆ fs) :
    State.Stays (State.confAsk s x) fs s₀ := by
  unfold State.confAsk
  repeat' first
    | with_reducible assumption | with_reducible exact List.Subset.trans (by decide) hM | intro _ | with_reducible apply ite_stays | with_reducible apply State.setHnw_stays
    | with_reducible apply State.route_stays

theorem State.confNext_stays (s : State) (h0 : s.Stays fs s₀) (hM : [.hnw] ⊆ fs) :
    State.Stays (State.confNext s) fs s₀ := by
  unfold State.confNext
  repeat' first
    | with_reducible assumption | with_reducible exact List.Subset.trans (by decide) hM | intro _ | with_reducible apply State.confAsk_stays | with_reducible apply State.setHnw_stays
      | dsimp only | split

theorem State.autoConf_stays (s : State) (h0 : s.Stays fs s₀) (hM : [.hnw] ⊆ fs) :
    State.Stays (State.autoConf s) fs s₀ := by
  unfold State.autoConf
  repeat' first
    | with_reducible assumption | with_reducible exact List.Subset.trans (by decide) hM | intro _ | (extract_lets +onlyGivenNames u; clear_value u) | with_reducible apply ite_stays
    | with_reducible apply State.confNext_stays | with_reducible apply State.setHnw_stays

theorem State.configureStart_stays (s : State) (h0 : s.Stays fs s₀) (hM : [.hnw] ⊆ fs) :
    State.Stays (State.configureStart s) fs s₀ := by
  unfold State.configureStart
  repeat' first
    | with_reducible assumption | with_reducible exact List.Subset.trans (by decide) hM | intro _ | with_reducible apply State.confNext_stays | with_reducible apply State.setHnw_stays

theorem State.confLeave_stays (s : State) (h0 : s.Stays fs s₀) (hM : [.hnw] ⊆ fs) :
    State.Stays (State.confLeave s) fs s₀ := by
  unfold State.confLeave
  repeat' first
    | with_reducible assumption | with_reducible exact List.Subset.trans (by decide) hM | intro _ | with_reducible apply State.confNext_stays | with_reducible apply State.setHnw_stays

theorem State.confStep_stays (s : State) (v : Nat) (h0 : s.Stays fs s₀) (hM : [.objs, .hnw, .sta] ⊆ fs) :
    State.Stays (State.confStep s v) fs s₀ := by
  unfold State.confStep
  repeat' first
    | with_reducible assumption | with_reducible exact List.Subset.trans (by decide) hM | intro _
    | (extract_lets +onlyGivenNames u; refine cut_goal (P := ∀ s y, State.Stays s fs s₀ → State.Stays (u s y) fs s₀) ?_ fun _ => ?_; (on_goal 2 => clear_value u); (on_goal 1 => (unfold u; clear u)))
    | with_reducible apply_assumption | with_reducible apply ite_stays | with_reducible apply State.confAsk_stays
    | with_reducible apply State.setHnw_stays | with_reducible apply State.setOb_stays
    | with_reducible apply State.confLeave_stays | with_reducible apply State.modStn_stays 
     | dsimp only | split

theorem State.hnwDone_stays (s : State) (h0 : s.Stays fs s₀) (hM : [.hnw] ⊆ fs) :
    State.Stays (State.hnwDone s) fs s₀ := by
  unfold State.hnwDone
  repeat' first
    | with_reducible assumption | with_reducible exact List.Subset.trans (by decide) hM | intro _ | with_reducible apply ite_stays | with_reducible apply State.setHnw_stays

theorem State.probeAnswer_stays (s : State) (n v : Nat) (h0 : s.Stays fs s₀) (hM : [.hnw, .flt, .sta] ⊆ fs) :
    State.Stays (State.probeAnswer s n v) fs s₀ := by
  unfold State.probeAnswer
  repeat' first
    | with_reducible assumption | with_reducible exact List.Subset.trans (by decide) hM | intro _ | with_reducible apply ite_stays | with_reducible apply State.autoConf_stays
    | with_reducible apply State.stationBack_stays | with_reducible apply State.modStn_stays

theorem State.respond_stays (s : State) (r : Route) (status reason : Nat) (data : List Sys2Proof.Byte) (h0 : s.Stays fs s₀) (hM : [.objs, .doms, .hnw, .flt, .sta] ⊆ fs) :
    State.Stays (State.respond s r status reason data) fs s₀ := by
  unfold State.respond
  repeat' first
    | with_reducible assumption | with_reducible exact List.Subset.trans (by decide) hM | intro _
    | (extract_lets +onlyGivenNames u; refine cut_goal (P := State.Stays u fs s₀) ?_ fun _ => ?_; (on_goal 2 => clear_value u); (on_goal 1 => (unfold u; clear u)))
    | (extract_lets +onlyGivenNames u; clear_value u) | with_reducible apply ite_stays
    | with_reducible apply State.endRoute_stays | with_reducible apply State.scanStep_stays
    | with_reducible apply State.confStep_stays | with_reducible apply State.confLeave_stays
    | with_reducible apply State.probeAnswer_stays | with_reducible apply State.answer_stays 
     | dsimp only | split

theorem State.unanswered_stays (s : State) (r : Route) (h0 : s.Stays fs s₀) (hM : [.objs, .doms, .hnw, .flt, .sta] ⊆ fs) :
    State.Stays (State.unanswered s r) fs s₀ := by
  unfold State.unanswered
  repeat' first
    | with_reducible assumption | with_reducible exact List.Subset.trans (by decide) hM | intro _ | with_reducible apply State.scanEnd_stays
    | with_reducible apply State.endRoute_stays | with_reducible apply State.respond_stays 
     | dsimp only | split

theorem State.probe_stays (s : State) (n : Nat) (h0 : s.Stays fs s₀) (hM : [.hnw] ⊆ fs) :
    State.Stays (State.probe s n) fs s₀ := by
  unfold State.probe
  repeat' first
    | with_reducible assumption | with_reducible exact List.Subset.trans (by decide) hM | intro _ | with_reducible apply ite_stays | with_reducible apply State.route_stays

theorem State.modMb_stays (s : State) (k : Nat) (f : Mbc → Mbc) (h0 : s.Stays fs s₀) (hM : [.mbc] ⊆ fs) :
    State.Stays (State.modMb s k f) fs s₀ :=
  State.with_mbc _ h0 hM

theorem State.dictateTx_stays (s : State) (k b stamp : Nat) (h0 : s.Stays fs s₀) (hM : [.ctxs, .sent] ⊆ fs) :
    State.Stays (State.dictateTx s k b stamp) fs s₀ := by
  unfold State.dictateTx
  repeat' first
    | with_reducible assumption | with_reducible exact List.Subset.trans (by decide) hM | intro _ | (extract_lets +onlyGivenNames u; clear_value u)
    | with_reducible apply State.dictate_stays

theorem State.mbComplete_stays (s : State) (k result cause : Nat) (h0 : s.Stays fs s₀) (hM : [.ctxs, .sent, .mbc] ⊆ fs) :
    State.Stays (State.mbComplete s k result cause) fs s₀ := by
  unfold State.mbComplete
  repeat' first
    | with_reducible assumption | with_reducible exact List.Subset.trans (by decide) hM | intro _ | (extract_lets +onlyGivenNames u; clear_value u) | with_reducible apply ite_stays
    | with_reducible apply State.modMb_stays | with_reducible apply State.each_stays
    | with_reducible apply State.dictateTx_stays

theorem State.busOff_stays (s : State) (k : Nat) (h0 : s.Stays fs s₀) (hM : [.objs, .ctxs, .sent, .mbc, .flt] ⊆ fs) :
    State.Stays (State.busOff s k) fs s₀ := by
  unfold State.busOff
  repeat' first
    | with_reducible assumption | with_reducible exact List.Subset.trans (by decide) hM | intro _
    | (extract_lets +onlyGivenNames u; refine cut_goal (P := State.Stays u fs s₀) ?_ fun _ => ?_; (on_goal 2 => clear_value u); (on_goal 1 => (unfold u; clear u)))
    | with_reducible apply State.mbComplete_stays | with_reducible apply State.modMb_stays
    | with_reducible apply State.raise_stays | with_reducible apply State.incOb_stays | with_reducible apply State.when_stays

theorem State.busOffCheck_stays (s : State) (k : Nat) (h0 : s.Stays fs s₀) (hM : [.objs, .ctxs, .sent, .mbc, .flt] ⊆ fs) :
    State.Stays (State.busOffCheck s k) fs s₀ := by
  unfold State.busOffCheck
  repeat' first
    | with_reducible assumption | with_reducible exact List.Subset.trans (by decide) hM | intro _ | with_reducible apply ite_stays | with_reducible apply State.busOff_stays

theorem State.mbStop_stays (s : State) (k : Nat) (h0 : s.Stays fs s₀) (hM : [.ctxs, .sent, .mbc] ⊆ fs) :
    State.Stays (State.mbStop s k) fs s₀ := by
  unfold State.mbStop
  repeat' first
    | with_reducible assumption | with_reducible exact List.Subset.trans (by decide) hM | intro _ | with_reducible apply State.modMb_stays
    | with_reducible apply State.mbComplete_stays

theorem State.mbStopCmd_stays (s : State) (k : Nat) (h0 : s.Stays fs s₀) (hM : [.ctxs, .sent, .mbc] ⊆ fs) :
    State.Stays (State.mbStopCmd s k) fs s₀ := by
  unfold State.mbStopCmd
  repeat' first
    | with_reducible assumption | with_reducible exact List.Subset.trans (by decide) hM | intro _ | with_reducible apply ite_stays | with_reducible apply State.modMb_stays
    | with_reducible apply State.mbStop_stays

theorem State.canStore_stays (s : State) (k target : Nat) (x : Elem) (h0 : s.Stays fs s₀) (hM : [.objs, .mbc] ⊆ fs) :
    State.Stays (State.canStore s k target x).1 fs s₀ := by
  have hm : ∀ g, State.Stays (s.modMb k g) fs s₀ := fun g => State.modMb_stays _ _ _ h0 (Field.within hM (by decide))
  have hl : ∀ u : State, u.Stays fs s₀ → State.Stays (u.incOb (K.MBC_RX_LOST (k + 1))) fs s₀ := fun u hu => State.incOb_stays _ _ hu (Field.within hM (by decide))
  unfold State.canStore
  dsimp only
  repeat' split
  · exact hl _ h0
  · exact State.setOb_stays _ _ _ (hl _ (hm _)) (Field.within hM (by decide))
  · exact State.modMb_stays s k (fun m => m.setDed target (some x)) h0 (Field.within hM (by decide))
  · exact State.modMb_stays s k (fun m => m.setFifo (target - 32) ((s.mb k).fifo (target - 32) ++ [x])) h0 (Field.within hM (by decide))
  · exact hl _ (hm _)
  · exact hl _ h0

theorem State.canFilter_stays (s : State) (k : Nat) (f : Sys2Proof.CanFrame) (stamp : Nat) (h0 : s.Stays fs s₀) (hM : [.objs, .tds, .sent, .own, .mbc] ⊆ fs) :
    State.Stays (State.canFilter s k f stamp) fs s₀ := by
  unfold State.canFilter
  repeat' first
    | with_reducible assumption | with_reducible exact List.Subset.trans (by decide) hM | intro _ | with_reducible apply ite_stays | with_reducible apply State.incOb_stays
    | with_reducible apply State.canStore_stays | with_reducible apply State.dictate_stays
    | with_reducible apply State.fire_stays

theorem State.rxError_stays (s : State) (k lec : Nat) (h0 : s.Stays fs s₀) (hM : [.objs, .mbc, .fresh] ⊆ fs) :
    State.Stays (State.rxError s k lec) fs s₀ := by
  unfold State.rxError
  repeat' first
    | with_reducible assumption | with_reducible exact List.Subset.trans (by decide) hM | intro _
    | with_reducible apply State.draw_stays | with_reducible apply State.incOb_stays
    | with_reducible apply State.modMb_stays

theorem State.canReceive_stays (s : State) (k : Nat) (f : Sys2Proof.CanFrame) (stamp : Nat) (h0 : s.Stays fs s₀) (hM : [.objs, .tds, .sent, .own, .mbc, .fresh] ⊆ fs) :
    State.Stays (State.canReceive s k f stamp) fs s₀ := by
  unfold State.canReceive
  repeat' first
    | with_reducible assumption | with_reducible exact List.Subset.trans (by decide) hM | intro _
    | (extract_lets +onlyGivenNames u; refine cut_goal (P := State.Stays u fs s₀) ?_ fun _ => ?_; (on_goal 2 => clear_value u); (on_goal 1 => (unfold u; clear u)))
    | with_reducible apply ite_stays | with_reducible apply State.incOb_stays | with_reducible apply State.rxError_stays
    | with_reducible apply State.modMb_stays | with_reducible apply State.keepOwn_stays
    | with_reducible apply State.canFilter_stays

theorem State.pop_stays (s : State) (k v : Nat) (h0 : s.Stays fs s₀) (hM : [.objs, .mbc] ⊆ fs) :
    State.Stays (State.pop s k v) fs s₀ := by
  unfold State.pop
  repeat' first
    | with_reducible assumption | with_reducible exact List.Subset.trans (by decide) hM | intro _
    | (extract_lets +onlyGivenNames u; refine cut_goal (P := State.Stays u fs s₀) ?_ fun _ => ?_; (on_goal 2 => clear_value u); (on_goal 1 => (unfold u; clear u)))
    | (extract_lets +onlyGivenNames u; clear_value u) | with_reducible apply ite_stays | with_reducible apply State.when_stays
    | with_reducible apply State.incOb_stays | with_reducible apply State.setOb_stays | with_reducible apply State.setMb_stays

theorem State.lastWordRead_stays (s : State) (k : Nat) (h0 : s.Stays fs s₀) (hM : [.mbc] ⊆ fs) :
    State.Stays (State.lastWordRead s k) fs s₀ :=
  State.with_mbc _ h0 hM

theorem State.rdRead_stays (s : State) (k i : Nat) (h0 : s.Stays fs s₀) (hM : [.mbc] ⊆ fs) :
    State.Stays (State.rdRead s k i) fs s₀ := by
  unfold State.rdRead
  repeat' first
    | with_reducible assumption | with_reducible exact List.Subset.trans (by decide) hM | intro _ | with_reducible apply ite_stays | with_reducible apply State.lastWordRead_stays
      | dsimp only | split

theorem State.txReq_stays (s : State) (k v : Nat) (h0 : s.Stays fs s₀) (hM : [.mbc] ⊆ fs) :
    State.Stays (State.txReq s k v) fs s₀ :=
  State.with_mbc _ h0 hM

theorem State.txCancel_stays (s : State) (k v : Nat) (h0 : s.Stays fs s₀) (hM : [.ctxs, .sent, .mbc] ⊆ fs) :
    State.Stays (State.txCancel s k v) fs s₀ := by
  unfold State.txCancel
  repeat' first
    | with_reducible assumption | with_reducible exact List.Subset.trans (by decide) hM | intro _
    | (extract_lets +onlyGivenNames u; refine cut_goal (P := State.Stays u fs s₀) ?_ fun _ => ?_; (on_goal 2 => clear_value u); (on_goal 1 => (unfold u; clear u)))
    | (extract_lets +onlyGivenNames u; clear_value u) | with_reducible apply ite_stays
    | with_reducible apply State.modMb_stays | with_reducible apply State.each_stays
    | with_reducible apply State.dictateTx_stays

theorem State.txStart_stays (s : State) (k : Nat) (h0 : s.Stays fs s₀) (hM : [.mbc] ⊆ fs) :
    State.Stays (State.txStart s k) fs s₀ := by
  unfold State.txStart
  repeat' first
    | with_reducible assumption | with_reducible exact List.Subset.trans (by decide) hM | intro _ | with_reducible apply ite_stays | with_reducible apply State.modMb_stays

theorem State.txStamp_stays (s : State) (k b stamp : Nat) (h0 : s.Stays fs s₀) (hM : [.doms] ⊆ fs) :
    State.Stays (State.txStamp s k b stamp) fs s₀ :=
  State.with_doms _ h0 hM

theorem State.txSuccess_stays (s : State) (k b : Nat) (h0 : s.Stays fs s₀) (hM : [.objs, .doms, .ctxs, .tds, .sent, .own, .mbc, .fresh] ⊆ fs) :
    State.Stays (State.txSuccess s k b) fs s₀ := by
  unfold State.txSuccess
  repeat' first
    | with_reducible assumption | with_reducible exact List.Subset.trans (by decide) hM | intro _
    | (extract_lets +onlyGivenNames u; refine cut_goal (P := State.Stays u fs s₀) ?_ fun _ => ?_; (on_goal 2 => clear_value u); (on_goal 1 => (unfold u; clear u)))
    | (extract_lets +onlyGivenNames u; clear_value u) | with_reducible apply ite_stays
    | with_reducible apply State.incOb_stays | with_reducible apply State.modMb_stays
    | with_reducible apply State.dictateTx_stays | with_reducible apply State.txStamp_stays
    | with_reducible apply State.when_stays | with_reducible apply State.canReceive_stays

theorem State.txFail_stays (s : State) (k b cause : Nat) (h0 : s.Stays fs s₀) (hM : [.ctxs, .sent, .mbc] ⊆ fs) :
    State.Stays (State.txFail s k b cause) fs s₀ := by
  unfold State.txFail
  repeat' first
    | with_reducible assumption | with_reducible exact List.Subset.trans (by decide) hM | intro _
    | (extract_lets +onlyGivenNames u; refine cut_goal (P := State.Stays u fs s₀) ?_ fun _ => ?_; (on_goal 2 => clear_value u); (on_goal 1 => (unfold u; clear u)))
    | (extract_lets +onlyGivenNames u; clear_value u) | with_reducible apply ite_stays
    | with_reducible apply State.modMb_stays | with_reducible apply State.dictateTx_stays

theorem State.txEnd_stays (s : State) (k : Nat) (r : Sys2Proof.TxEnd) (h0 : s.Stays fs s₀) (hM : [.objs, .doms, .ctxs, .tds, .sent, .own, .mbc, .flt, .fresh] ⊆ fs) :
    State.Stays (State.txEnd s k r) fs s₀ := by
  unfold State.txEnd
  repeat' first
    | with_reducible assumption | with_reducible exact List.Subset.trans (by decide) hM | intro _
    | (extract_lets +onlyGivenNames u; refine cut_goal (P := State.Stays u fs s₀) ?_ fun _ => ?_; (on_goal 2 => clear_value u); (on_goal 1 => (unfold u; clear u)))
    | with_reducible apply ite_stays | with_reducible apply State.txSuccess_stays | with_reducible apply State.txFail_stays
    | with_reducible apply State.incOb_stays | with_reducible apply State.draw_stays | with_reducible apply State.modMb_stays
    | with_reducible apply State.busOffCheck_stays | with_reducible apply State.mbStop_stays 
     | dsimp only | split

theorem State.txDictated_stays (s : State) (k b result cause stamp : Nat) (h0 : s.Stays fs s₀) (hM : [.doms, .mbc] ⊆ fs) :
    State.Stays (State.txDictated s k b result cause stamp) fs s₀ := by
  unfold State.txDictated
  repeat' first
    | with_reducible assumption | with_reducible exact List.Subset.trans (by decide) hM | intro _
    | (extract_lets +onlyGivenNames u; refine cut_goal (P := State.Stays u fs s₀) ?_ fun _ => ?_; (on_goal 2 => clear_value u); (on_goal 1 => (unfold u; clear u)))
    | (extract_lets +onlyGivenNames u; clear_value u) | with_reducible apply ite_stays
    | with_reducible apply State.modMb_stays | with_reducible apply State.txStamp_stays

theorem State.mbEnded_stays (s : State) (h0 : s.Stays fs s₀) (hM : [.mbc] ⊆ fs) :
    State.Stays (State.mbEnded s) fs s₀ := by
  unfold State.mbEnded
  repeat' first
    | with_reducible assumption | with_reducible exact List.Subset.trans (by decide) hM | intro _ | with_reducible apply ite_stays | with_reducible apply State.each_stays
    | with_reducible apply State.modMb_stays

end Sys2Proof.Machine
end


section
/-! SUPPORT. What each operation of the pair, the witness and DMA leaves as it was. -/

namespace Sys2Proof.Machine

variable {fs : List Field} {s₀ : State}

theorem State.reHoldoff_stays (s : State) (h0 : s.Stays fs s₀) (hM : [.red] ⊆ fs) :
    State.Stays (State.reHoldoff s) fs s₀ := by
  unfold State.reHoldoff
  repeat' first
    | with_reducible assumption | with_reducible exact List.Subset.trans (by decide) hM | intro _
    | with_reducible apply ite_stays
    | with_reducible refine State.setRed_stays _ ?_ (by refine ⟨?_, ?_, ?_, ?_, ?_, ?_, ?_, ?_, ?_⟩ <;> first | exact .inr rfl | exact .inl (Field.mem_of hM (by decide))) rfl

theorem State.drillArm_stays (s : State) (h0 : s.Stays fs s₀) (hM : [.red] ⊆ fs) :
    State.Stays (State.drillArm s) fs s₀ := by
  unfold State.drillArm
  repeat' first
    | with_reducible assumption | with_reducible exact List.Subset.trans (by decide) hM | intro _ | with_reducible apply ite_stays | with_reducible refine State.setRed_stays _ ?_ (by refine ⟨?_, ?_, ?_, ?_, ?_, ?_, ?_, ?_, ?_⟩ <;> first | exact .inr rfl | exact .inl (Field.mem_of hM (by decide))) rfl

theorem State.setRole_stays (s : State) (x : Role) (reason : Nat) (h0 : s.Stays fs s₀) (hM : [.role, .red] ⊆ fs) :
    State.Stays (State.setRole s x reason) fs s₀ := by
  unfold State.setRole
  repeat' first
    | with_reducible assumption | with_reducible exact List.Subset.trans (by decide) hM | intro _
    | with_reducible apply State.reHoldoff_stays | with_reducible apply State.reclaim_stays
    | with_reducible refine State.setRed_stays _ ?_ (by refine ⟨?_, ?_, ?_, ?_, ?_, ?_, ?_, ?_, ?_⟩ <;> first | exact .inr rfl | exact .inl (Field.mem_of hM (by decide))) rfl

theorem State.startResync_stays (s : State) (h0 : s.Stays fs s₀) (hM : [.role, .red] ⊆ fs) :
    State.Stays (State.startResync s) fs s₀ := by
  unfold State.startResync
  repeat' first
    | with_reducible assumption | with_reducible exact List.Subset.trans (by decide) hM | intro _ | with_reducible apply State.setRole_stays
    | with_reducible refine State.setRed_stays _ ?_ (by refine ⟨?_, ?_, ?_, ?_, ?_, ?_, ?_, ?_, ?_⟩ <;> first | exact .inr rfl | exact .inl (Field.mem_of hM (by decide))) rfl

theorem State.maybeResync_stays (s : State) (h0 : s.Stays fs s₀) (hM : [.role, .red] ⊆ fs) :
    State.Stays (State.maybeResync s) fs s₀ := by
  unfold State.maybeResync
  repeat' first
    | with_reducible assumption | with_reducible exact List.Subset.trans (by decide) hM | intro _ | with_reducible apply ite_stays | with_reducible apply State.startResync_stays

theorem State.passSend_stays (s : State) (n : Nat) (data : List Sys2Proof.Resync) (h0 : s.Stays fs s₀) (hM : [.msgs, .red] ⊆ fs) :
    State.Stays (State.passSend s n data) fs s₀ := by
  unfold State.passSend
  repeat' first
    | with_reducible assumption | with_reducible exact List.Subset.trans (by decide) hM | intro _ | with_reducible refine State.setRed_stays _ ?_ (by refine ⟨?_, ?_, ?_, ?_, ?_, ?_, ?_, ?_, ?_⟩ <;> first | exact .inr rfl | exact .inl (Field.mem_of hM (by decide))) rfl
    | with_reducible apply State.moorSend_stays

theorem State.passBegin_stays (s : State) (h0 : s.Stays fs s₀) (hM : [.msgs, .red, .fresh] ⊆ fs) :
    State.Stays (State.passBegin s) fs s₀ := by
  unfold State.passBegin
  repeat' first
    | with_reducible assumption | with_reducible exact List.Subset.trans (by decide) hM | intro _ | with_reducible apply ite_stays | with_reducible apply State.draw_stays
    | with_reducible refine State.setRed_stays _ ?_ (by refine ⟨?_, ?_, ?_, ?_, ?_, ?_, ?_, ?_, ?_⟩ <;> first | exact .inr rfl | exact .inl (Field.mem_of hM (by decide))) rfl | with_reducible apply State.passSend_stays

theorem State.finalSend_stays (s : State) (h0 : s.Stays fs s₀) (hM : [.msgs, .red] ⊆ fs) :
    State.Stays (State.finalSend s) fs s₀ := by
  unfold State.finalSend
  repeat' first
    | with_reducible assumption | with_reducible exact List.Subset.trans (by decide) hM | intro _ | with_reducible apply State.passSend_stays

theorem State.toUnsynced_stays (s : State) (reason : Nat) (h0 : s.Stays fs s₀) (hM : [.role, .red] ⊆ fs) :
    State.Stays (State.toUnsynced s reason) fs s₀ := by
  unfold State.toUnsynced
  repeat' first
    | with_reducible assumption | with_reducible exact List.Subset.trans (by decide) hM | intro _ | with_reducible apply State.maybeResync_stays
    | with_reducible apply State.setRole_stays | with_reducible refine State.setRed_stays _ ?_ (by refine ⟨?_, ?_, ?_, ?_, ?_, ?_, ?_, ?_, ?_⟩ <;> first | exact .inr rfl | exact .inl (Field.mem_of hM (by decide))) rfl

theorem State.noteDictated_stays (s : State) (d : Sys2Proof.Dict) (h0 : s.Stays fs s₀) (hM : [.own] ⊆ fs) :
    State.Stays (State.noteDictated s d) fs s₀ := by
  unfold State.noteDictated
  repeat' first
    | with_reducible assumption | with_reducible exact List.Subset.trans (by decide) hM | intro _
    | with_reducible refine State.setRed_stays _ ?_ (by refine ⟨?_, ?_, ?_, ?_, ?_, ?_, ?_, ?_, ?_⟩ <;> first | exact .inr rfl | exact .inl (Field.mem_of hM (by decide))) rfl

theorem State.decideTrigger_stays (s : State) (cause cls num : Nat) (h0 : s.Stays fs s₀) (hM : [.objs, .mem, .sess, .ctxs, .cores, .tds, .tasks, .img, .str, .sent, .bdr, .flt, .sta, .fresh] ⊆ fs) :
    State.Stays (State.decideTrigger s cause cls num) fs s₀ := by
  unfold State.decideTrigger
  repeat' first
    | with_reducible assumption | with_reducible exact List.Subset.trans (by decide) hM | intro _ | with_reducible apply ite_stays | with_reducible apply State.setTds_stays
    | with_reducible apply State.dictate_stays | with_reducible apply State.releaseAll_stays

theorem State.releaseHeld_stays (s : State) (count : Bool) (h0 : s.Stays fs s₀) (hM : [.objs, .mem, .sess, .ctxs, .cores, .tds, .tasks, .img, .str, .sent, .bdr, .flt, .sta, .fresh] ⊆ fs) :
    State.Stays (State.releaseHeld s count) fs s₀ := by
  unfold State.releaseHeld
  repeat' first
    | with_reducible assumption | with_reducible exact List.Subset.trans (by decide) hM | intro _
    | (extract_lets +onlyGivenNames u; refine cut_goal (P := State.Stays u fs s₀) ?_ fun _ => ?_; (on_goal 2 => clear_value u); (on_goal 1 => (unfold u; clear u)))
    | (extract_lets +onlyGivenNames u; clear_value u) | with_reducible apply ite_stays
    | with_reducible apply State.setTds_stays | with_reducible apply State.each_stays
    | with_reducible apply State.decideTrigger_stays | with_reducible apply State.incOb_stays

theorem State.takeDictated_stays (s : State) (d : Sys2Proof.Dict) (h0 : s.Stays fs s₀) (hM : [.objs, .doms, .mem, .sess, .ctxs, .cores, .tds, .tasks, .img, .str, .sent, .own, .fio, .mbc, .bdr, .flt, .sta, .fresh] ⊆ fs) :
    State.Stays (State.takeDictated s d) fs s₀ := by
  unfold State.takeDictated
  repeat' first
    | with_reducible assumption | with_reducible exact List.Subset.trans (by decide) hM | intro _
    | (extract_lets +onlyGivenNames u; refine cut_goal (P := State.Stays u fs s₀) ?_ fun _ => ?_; (on_goal 2 => clear_value u); (on_goal 1 => (unfold u; clear u)))
    | with_reducible apply State.noteDictated_stays | with_reducible apply State.putLine_stays
    | with_reducible apply State.setFio_stays | with_reducible apply State.logEdge_stays
    | with_reducible apply State.canFilter_stays | with_reducible apply State.txDictated_stays
    | with_reducible apply State.setOb_stays | with_reducible apply State.decideTrigger_stays 
     | dsimp only | split

theorem State.ownUnmatched_stays (s : State) (h0 : s.Stays fs s₀) (hM : [.objs, .mem, .sess, .ctxs, .cores, .tds, .tasks, .img, .str, .sent, .own, .mbc, .bdr, .flt, .sta, .fresh] ⊆ fs) :
    State.Stays (State.ownUnmatched s) fs s₀ := by
  unfold State.ownUnmatched
  repeat' first
    | with_reducible assumption | with_reducible exact List.Subset.trans (by decide) hM | intro _
    | (extract_lets +onlyGivenNames u; refine cut_goal (P := State.Stays u fs s₀) ?_ fun _ => ?_; (on_goal 2 => clear_value u); (on_goal 1 => (unfold u; clear u)))
    | (extract_lets +onlyGivenNames u; clear_value u) | with_reducible refine State.setRed_stays _ ?_ (by refine ⟨?_, ?_, ?_, ?_, ?_, ?_, ?_, ?_, ?_⟩ <;> first | exact .inr rfl | exact .inl (Field.mem_of hM (by decide))) rfl
    | with_reducible apply State.each_stays | with_reducible apply State.decideTrigger_stays
    | with_reducible apply State.canFilter_stays  
    | dsimp only | split

theorem State.changeLost_stays (s : State) (h0 : s.Stays fs s₀) (hM : [.objs, .mem, .sess, .ctxs, .cores, .tds, .tasks, .img, .olc, .str, .sent, .bdr, .flt, .sta, .fresh] ⊆ fs) :
    State.Stays (State.changeLost s) fs s₀ := by
  unfold State.changeLost
  repeat' first
    | with_reducible assumption | with_reducible exact List.Subset.trans (by decide) hM | intro _ | (extract_lets +onlyGivenNames u; clear_value u) | with_reducible apply ite_stays
    | with_reducible apply State.releaseHeld_stays
    | with_reducible apply State.with_olc

theorem State.lateRefresh_stays (s : State) (h0 : s.Stays fs s₀) (hM : [.objs, .ntm, .fio, .fresh] ⊆ fs) :
    State.Stays (State.lateRefresh s) fs s₀ := by
  unfold State.lateRefresh
  repeat' first
    | with_reducible assumption | with_reducible exact List.Subset.trans (by decide) hM | intro _ | with_reducible apply State.fioRefresh_stays
    | with_reducible apply State.reach_stays

theorem State.becomeActive_stays (s : State) (h0 : s.Stays fs s₀) (hM : [.objs, .mem, .sess, .ctxs, .cores, .tds, .tasks, .img, .olc, .str, .hnw, .ntm, .role, .sent, .own, .red, .fio, .mbc, .dma, .bdr, .flt, .sta, .fresh] ⊆ fs) :
    State.Stays (State.becomeActive s) fs s₀ := by
  unfold State.becomeActive
  repeat' first
    | with_reducible assumption | with_reducible exact List.Subset.trans (by decide) hM | intro _
    | (extract_lets +onlyGivenNames u; refine cut_goal (P := State.Stays u fs s₀) ?_ fun _ => ?_; (on_goal 2 => clear_value u); (on_goal 1 => (unfold u; clear u)))
    | (extract_lets +onlyGivenNames u; clear_value u) | with_reducible apply ite_stays
    | with_reducible apply State.ownUnmatched_stays | with_reducible apply State.mbEnded_stays
    | with_reducible apply State.changeLost_stays | with_reducible refine State.setRed_stays _ ?_ (by refine ⟨?_, ?_, ?_, ?_, ?_, ?_, ?_, ?_, ?_⟩ <;> first | exact .inr rfl | exact .inl (Field.mem_of hM (by decide))) rfl
    | with_reducible apply State.setRole_stays | with_reducible apply State.incOb_stays
    | with_reducible apply State.takeover_stays | with_reducible apply State.setOb_stays
    | with_reducible apply State.lateRefresh_stays  
    | dsimp only | with_reducible refine stays_of_eq (by assumption) ?_ | split

theorem State.joinGrant_stays (s : State) (h0 : s.Stays fs s₀) (hM : [.role, .red] ⊆ fs) :
    State.Stays (State.joinGrant s) fs s₀ := by
  unfold State.joinGrant
  repeat' first
    | with_reducible assumption | with_reducible exact List.Subset.trans (by decide) hM | intro _ | with_reducible apply ite_stays | with_reducible apply State.setRole_stays

theorem State.gainGrant_stays (s : State) (h0 : s.Stays fs s₀) (hM : [.objs, .mem, .sess, .ctxs, .cores, .tds, .tasks, .img, .olc, .str, .hnw, .ntm, .role, .grant, .sent, .own, .red, .fio, .mbc, .dma, .bdr, .flt, .sta, .fresh] ⊆ fs) :
    State.Stays (State.gainGrant s) fs s₀ := by
  unfold State.gainGrant
  repeat' first
    | with_reducible assumption | with_reducible exact List.Subset.trans (by decide) hM | intro _
    | (extract_lets +onlyGivenNames u; refine cut_goal (P := State.Stays u fs s₀) ?_ fun _ => ?_; (on_goal 2 => clear_value u); (on_goal 1 => (unfold u; clear u)))
    | with_reducible refine State.setRed_stays _ ?_ (by refine ⟨?_, ?_, ?_, ?_, ?_, ?_, ?_, ?_, ?_⟩ <;> first | exact .inr rfl | exact .inl (Field.mem_of hM (by decide))) rfl | with_reducible apply State.reclaim_stays
    | with_reducible apply State.becomeActive_stays | with_reducible apply State.joinGrant_stays 
     | dsimp only | split

theorem State.loseGrant_stays (s : State) (h0 : s.Stays fs s₀) (hM : [.role, .grant, .red, .fio] ⊆ fs) :
    State.Stays (State.loseGrant s) fs s₀ := by
  unfold State.loseGrant
  repeat' first
    | with_reducible assumption | with_reducible exact List.Subset.trans (by decide) hM | intro _
    | (extract_lets +onlyGivenNames u; refine cut_goal (P := State.Stays u fs s₀) ?_ fun _ => ?_; (on_goal 2 => clear_value u); (on_goal 1 => (unfold u; clear u)))
    | (extract_lets +onlyGivenNames u; clear_value u) | with_reducible apply ite_stays
    | with_reducible apply State.sendPark_stays | with_reducible refine State.setRed_stays _ ?_ (by refine ⟨?_, ?_, ?_, ?_, ?_, ?_, ?_, ?_, ?_⟩ <;> first | exact .inr rfl | exact .inl (Field.mem_of hM (by decide))) rfl
    | with_reducible apply State.setRole_stays | with_reducible apply State.toUnsynced_stays
    | with_reducible apply State.reclaim_stays

theorem State.unfence_stays (s : State) (h0 : s.Stays fs s₀) (hM : [.objs, .mem, .sess, .ctxs, .cores, .tds, .tasks, .img, .olc, .str, .hnw, .ntm, .role, .grant, .sent, .own, .red, .fio, .mbc, .dma, .bdr, .flt, .sta, .fresh] ⊆ fs) :
    State.Stays (State.unfence s) fs s₀ := by
  unfold State.unfence
  repeat' first
    | with_reducible assumption | with_reducible exact List.Subset.trans (by decide) hM | intro _ | with_reducible apply ite_stays | with_reducible apply State.gainGrant_stays

theorem State.thaw_stays (s : State) (h0 : s.Stays fs s₀) (hM : [.role, .grant, .red, .fio] ⊆ fs) :
    State.Stays (State.thaw s) fs s₀ := by
  unfold State.thaw
  repeat' first
    | with_reducible assumption | with_reducible exact List.Subset.trans (by decide) hM | intro _ | with_reducible apply ite_stays | with_reducible apply State.loseGrant_stays

theorem State.pairAccept_stays (s : State) (p : PairSt) (h0 : s.Stays fs s₀) (hM : [.objs, .mem, .sess, .ctxs, .cores, .tds, .tasks, .img, .olc, .str, .hnw, .ntm, .role, .pair, .grant, .sent, .own, .red, .fio, .mbc, .dma, .bdr, .flt, .sta, .fresh] ⊆ fs) :
    State.Stays (State.pairAccept s p) fs s₀ := by
  unfold State.pairAccept
  repeat' first
    | with_reducible assumption | with_reducible exact List.Subset.trans (by decide) hM | intro _
    | (extract_lets +onlyGivenNames u; refine cut_goal (P := State.Stays u fs s₀) ?_ fun _ => ?_; (on_goal 2 => clear_value u); (on_goal 1 => (unfold u; clear u)))
    | (extract_lets +onlyGivenNames u; clear_value u) | with_reducible apply ite_stays
    | with_reducible refine State.setRed_stays _ ?_ (by refine ⟨?_, ?_, ?_, ?_, ?_, ?_, ?_, ?_, ?_⟩ <;> first | exact .inr rfl | exact .inl (Field.mem_of hM (by decide))) rfl | with_reducible apply State.raise_stays
    | with_reducible apply State.reclaim_stays | with_reducible apply State.loseGrant_stays
    | with_reducible apply State.gainGrant_stays | with_reducible apply State.thaw_stays 
     | dsimp only | split

theorem State.mooringTrained_stays (s : State) (link lanes : Nat) (h0 : s.Stays fs s₀) (hM : [.link] ⊆ fs) :
    State.Stays (State.mooringTrained s link lanes) fs s₀ := by
  unfold State.mooringTrained
  repeat' first
    | with_reducible assumption | with_reducible exact List.Subset.trans (by decide) hM | intro _ | with_reducible apply ite_stays | with_reducible refine State.setRed_stays _ ?_ (by refine ⟨?_, ?_, ?_, ?_, ?_, ?_, ?_, ?_, ?_⟩ <;> first | exact .inr rfl | exact .inl (Field.mem_of hM (by decide))) rfl

theorem State.mooringUp_stays (s : State) (link lanes : Nat) (h0 : s.Stays fs s₀) (hM : [.link, .flt] ⊆ fs) :
    State.Stays (State.mooringUp s link lanes) fs s₀ := by
  unfold State.mooringUp
  repeat' first
    | with_reducible assumption | with_reducible exact List.Subset.trans (by decide) hM | intro _
    | (extract_lets +onlyGivenNames u; refine cut_goal (P := State.Stays u fs s₀) ?_ fun _ => ?_; (on_goal 2 => clear_value u); (on_goal 1 => (unfold u; clear u)))
    | (extract_lets +onlyGivenNames u; clear_value u) | with_reducible apply ite_stays
    | with_reducible refine State.setRed_stays _ ?_ (by refine ⟨?_, ?_, ?_, ?_, ?_, ?_, ?_, ?_, ?_⟩ <;> first | exact .inr rfl | exact .inl (Field.mem_of hM (by decide))) rfl | with_reducible apply State.when_stays
    | with_reducible apply State.raiseSt_stays

theorem State.mooringDown_stays (s : State) (link : Nat) (h0 : s.Stays fs s₀) (hM : [.link, .flt] ⊆ fs) :
    State.Stays (State.mooringDown s link) fs s₀ := by
  unfold State.mooringDown
  repeat' first
    | with_reducible assumption | with_reducible exact List.Subset.trans (by decide) hM | intro _ | with_reducible apply ite_stays | with_reducible refine State.setRed_stays _ ?_ (by refine ⟨?_, ?_, ?_, ?_, ?_, ?_, ?_, ?_, ?_⟩ <;> first | exact .inr rfl | exact .inl (Field.mem_of hM (by decide))) rfl
    | with_reducible apply State.when_stays | with_reducible apply State.raiseSt_stays

theorem State.statusReceive_stays (s : State) (m : Sys2Proof.Status) (h0 : s.Stays fs s₀) (hM : [.objs, .mem, .sess, .ctxs, .cores, .tds, .tasks, .img, .olc, .str, .hnw, .ntm, .role, .grant, .sent, .msgs, .own, .red, .fio, .mbc, .dma, .bdr, .flt, .sta, .fresh] ⊆ fs) :
    State.Stays (State.statusReceive s m) fs s₀ := by
  unfold State.statusReceive
  repeat' first
    | with_reducible assumption | with_reducible exact List.Subset.trans (by decide) hM | intro _
    | (extract_lets +onlyGivenNames u; refine cut_goal (P := State.Stays u fs s₀) ?_ fun _ => ?_; (on_goal 2 => clear_value u); (on_goal 1 => (unfold u; clear u)))
    | (extract_lets +onlyGivenNames u; clear_value u) | with_reducible apply ite_stays
    | with_reducible apply State.reclaim_stays | with_reducible refine State.setRed_stays _ ?_ (by refine ⟨?_, ?_, ?_, ?_, ?_, ?_, ?_, ?_, ?_⟩ <;> first | exact .inr rfl | exact .inl (Field.mem_of hM (by decide))) rfl
    | with_reducible apply State.when_stays | with_reducible apply State.reHoldoff_stays
    | with_reducible apply State.passBegin_stays | with_reducible apply State.setRole_stays
    | with_reducible apply State.unfence_stays | with_reducible apply State.thaw_stays
    | with_reducible apply State.toUnsynced_stays | with_reducible apply State.joinGrant_stays

theorem State.peerAbsent_stays (s : State) (h0 : s.Stays fs s₀) (hM : [.objs, .mem, .sess, .ctxs, .cores, .tds, .tasks, .img, .olc, .str, .hnw, .ntm, .role, .grant, .sent, .own, .red, .fio, .mbc, .dma, .bdr, .flt, .sta, .fresh] ⊆ fs) :
    State.Stays (State.peerAbsent s) fs s₀ := by
  unfold State.peerAbsent
  repeat' first
    | with_reducible assumption | with_reducible exact List.Subset.trans (by decide) hM | intro _
    | (extract_lets +onlyGivenNames u; refine cut_goal (P := State.Stays u fs s₀) ?_ fun _ => ?_; (on_goal 2 => clear_value u); (on_goal 1 => (unfold u; clear u)))
    | with_reducible apply ite_stays | with_reducible refine State.setRed_stays _ ?_ (by refine ⟨?_, ?_, ?_, ?_, ?_, ?_, ?_, ?_, ?_⟩ <;> first | exact .inr rfl | exact .inl (Field.mem_of hM (by decide))) rfl
    | with_reducible apply State.when_stays | with_reducible apply State.raise_stays
    | with_reducible apply State.toUnsynced_stays | with_reducible apply State.reclaim_stays
    | with_reducible apply State.joinGrant_stays | with_reducible apply State.unfence_stays
    | with_reducible apply State.thaw_stays

theorem State.redLeave_stays (s : State) (h0 : s.Stays fs s₀) (hM : [.role, .grant, .red, .fio] ⊆ fs) :
    State.Stays (State.redLeave s) fs s₀ := by
  unfold State.redLeave
  repeat' first
    | with_reducible assumption | with_reducible exact List.Subset.trans (by decide) hM | intro _
    | (extract_lets +onlyGivenNames u; refine cut_goal (P := State.Stays u fs s₀) ?_ fun _ => ?_; (on_goal 2 => clear_value u); (on_goal 1 => (unfold u; clear u)))
    | with_reducible apply State.when_stays | with_reducible refine State.setRed_stays _ ?_ (by refine ⟨?_, ?_, ?_, ?_, ?_, ?_, ?_, ?_, ?_⟩ <;> first | exact .inr rfl | exact .inl (Field.mem_of hM (by decide))) rfl
    | with_reducible apply State.sendPark_stays | with_reducible apply State.setRole_stays

theorem State.agreeSend_stays (s : State) (h0 : s.Stays fs s₀) (hM : [.objs, .msgs, .red] ⊆ fs) :
    State.Stays (State.agreeSend s) fs s₀ := by
  unfold State.agreeSend
  repeat' first
    | with_reducible assumption | with_reducible exact List.Subset.trans (by decide) hM | intro _ | with_reducible apply ite_stays | with_reducible refine State.setRed_stays _ ?_ (by refine ⟨?_, ?_, ?_, ?_, ?_, ?_, ?_, ?_, ?_⟩ <;> first | exact .inr rfl | exact .inl (Field.mem_of hM (by decide))) rfl
    | with_reducible apply State.addOb_stays | with_reducible apply State.each_stays
    | with_reducible apply State.moorSend_stays  
    | dsimp only | split

theorem State.agreeCheck_stays (s : State) (h0 : s.Stays fs s₀) (hM : [.msgs, .red] ⊆ fs) :
    State.Stays (State.agreeCheck s) fs s₀ := by
  unfold State.agreeCheck
  repeat' first
    | with_reducible assumption | with_reducible exact List.Subset.trans (by decide) hM | intro _ | with_reducible apply ite_stays | with_reducible apply State.moorSend_stays
    | with_reducible refine State.setRed_stays _ ?_ (by refine ⟨?_, ?_, ?_, ?_, ?_, ?_, ?_, ?_, ?_⟩ <;> first | exact .inr rfl | exact .inl (Field.mem_of hM (by decide))) rfl  
    | dsimp only | split

theorem State.inputComplete_stays (s : State) (h0 : s.Stays fs s₀) (hM : [.objs, .mem, .tds, .img, .msgs, .red] ⊆ fs) :
    State.Stays (State.inputComplete s) fs s₀ := by
  unfold State.inputComplete
  repeat' first
    | with_reducible assumption | with_reducible exact List.Subset.trans (by decide) hM | intro _
    | (extract_lets +onlyGivenNames u; refine cut_goal (P := State.Stays u fs s₀) ?_ fun _ => ?_; (on_goal 2 => clear_value u); (on_goal 1 => (unfold u; clear u)))
    | (extract_lets +onlyGivenNames u; clear_value u) | with_reducible apply ite_stays
    | with_reducible apply State.setTds_stays | with_reducible apply State.stageBitmap_stays
    | with_reducible apply State.moorSend_stays | with_reducible apply State.agreeCheck_stays
    | with_reducible apply State.agreeSend_stays | with_reducible refine State.setRed_stays _ ?_ (by refine ⟨?_, ?_, ?_, ?_, ?_, ?_, ?_, ?_, ?_⟩ <;> first | exact .inr rfl | exact .inl (Field.mem_of hM (by decide))) rfl

theorem State.inputCheck_stays (s : State) (h0 : s.Stays fs s₀) (hM : [.objs, .mem, .tds, .img, .msgs, .red] ⊆ fs) :
    State.Stays (State.inputCheck s) fs s₀ := by
  unfold State.inputCheck
  repeat' first
    | with_reducible assumption | with_reducible exact List.Subset.trans (by decide) hM | intro _ | with_reducible apply ite_stays | with_reducible apply State.inputComplete_stays

theorem State.digestReceive_stays (s : State) (t image : Nat) (parts : List Nat) (h0 : s.Stays fs s₀) (hM : [.objs, .msgs, .red] ⊆ fs) :
    State.Stays (State.digestReceive s t image parts) fs s₀ := by
  unfold State.digestReceive
  repeat' first
    | with_reducible assumption | with_reducible exact List.Subset.trans (by decide) hM | intro _ | with_reducible apply ite_stays | with_reducible apply State.agreeCheck_stays
    | with_reducible apply State.agreeSend_stays | with_reducible refine State.setRed_stays _ ?_ (by refine ⟨?_, ?_, ?_, ?_, ?_, ?_, ?_, ?_, ?_⟩ <;> first | exact .inr rfl | exact .inl (Field.mem_of hM (by decide))) rfl

theorem State.partReceive_stays (s : State) (t part : Nat) (data : List Sys2Proof.Byte) (h0 : s.Stays fs s₀) (hM : [.mem, .img, .msgs, .red] ⊆ fs) :
    State.Stays (State.partReceive s t part data) fs s₀ := by
  unfold State.partReceive
  repeat' first
    | with_reducible assumption | with_reducible exact List.Subset.trans (by decide) hM | intro _ | with_reducible apply ite_stays | with_reducible apply State.agreeCheck_stays
    | with_reducible apply State.pendLines_stays | with_reducible apply State.putBytes_stays

theorem State.agreeLate_stays (s : State) (h0 : s.Stays fs s₀) (hM : [.objs, .role, .red] ⊆ fs) :
    State.Stays (State.agreeLate s) fs s₀ := by
  unfold State.agreeLate
  repeat' first
    | with_reducible assumption | with_reducible exact List.Subset.trans (by decide) hM | intro _
    | (extract_lets +onlyGivenNames u; refine cut_goal (P := State.Stays u fs s₀) ?_ fun _ => ?_; (on_goal 2 => clear_value u); (on_goal 1 => (unfold u; clear u)))
    | with_reducible apply ite_stays | with_reducible refine State.setRed_stays _ ?_ (by refine ⟨?_, ?_, ?_, ?_, ?_, ?_, ?_, ?_, ?_⟩ <;> first | exact .inr rfl | exact .inl (Field.mem_of hM (by decide))) rfl
    | with_reducible apply State.toUnsynced_stays | with_reducible apply State.incOb_stays

theorem State.divergence_stays (s : State) (t : Nat) (parts : List Nat) (kind : Nat) (h0 : s.Stays fs s₀) (hM : [.objs, .doms, .red, .flt] ⊆ fs) :
    State.Stays (State.divergence s t parts kind) fs s₀ := by
  unfold State.divergence
  repeat' first
    | with_reducible assumption | with_reducible exact List.Subset.trans (by decide) hM | intro _
    | (extract_lets +onlyGivenNames u; refine cut_goal (P := State.Stays u fs s₀) ?_ fun _ => ?_; (on_goal 2 => clear_value u); (on_goal 1 => (unfold u; clear u)))
    | (extract_lets +onlyGivenNames u; clear_value u) | with_reducible apply State.incOb_stays
    | with_reducible apply State.raise_stays | with_reducible apply State.reHoldoff_stays
    | with_reducible apply State.setDom_stays | with_reducible apply State.setOb_stays
    | with_reducible refine State.setRed_stays _ ?_ (by refine ⟨?_, ?_, ?_, ?_, ?_, ?_, ?_, ?_, ?_⟩ <;> first | exact .inr rfl | exact .inl (Field.mem_of hM (by decide))) rfl

theorem State.divPolicy_stays (s : State) (h0 : s.Stays fs s₀) (hM : [.role, .red] ⊆ fs) :
    State.Stays (State.divPolicy s) fs s₀ := by
  unfold State.divPolicy
  repeat' first
    | with_reducible assumption | with_reducible exact List.Subset.trans (by decide) hM | intro _
    | (extract_lets +onlyGivenNames u; refine cut_goal (P := State.Stays u fs s₀) ?_ fun _ => ?_; (on_goal 2 => clear_value u); (on_goal 1 => (unfold u; clear u)))
    | with_reducible apply ite_stays | with_reducible apply State.toUnsynced_stays
    | with_reducible apply State.startResync_stays  
    | dsimp only | split

theorem State.compareOut_stays (s : State) (h0 : s.Stays fs s₀) (hM : [.objs, .doms, .role, .red, .flt] ⊆ fs) :
    State.Stays (State.compareOut s) fs s₀ := by
  unfold State.compareOut
  repeat' first
    | with_reducible assumption | with_reducible exact List.Subset.trans (by decide) hM | intro _
    | (extract_lets +onlyGivenNames u; refine cut_goal (P := State.Stays u fs s₀) ?_ fun _ => ?_; (on_goal 2 => clear_value u); (on_goal 1 => (unfold u; clear u)))
    | with_reducible apply ite_stays | with_reducible refine State.setRed_stays _ ?_ (by refine ⟨?_, ?_, ?_, ?_, ?_, ?_, ?_, ?_, ?_⟩ <;> first | exact .inr rfl | exact .inl (Field.mem_of hM (by decide))) rfl
    | with_reducible apply State.divPolicy_stays | with_reducible apply State.divergence_stays 
     | dsimp only | split

theorem State.outDigestSend_stays (s : State) (h0 : s.Stays fs s₀) (hM : [.objs, .doms, .role, .msgs, .red, .flt] ⊆ fs) :
    State.Stays (State.outDigestSend s) fs s₀ := by
  unfold State.outDigestSend
  repeat' first
    | with_reducible assumption | with_reducible exact List.Subset.trans (by decide) hM | intro _
    | (extract_lets +onlyGivenNames u; refine cut_goal (P := State.Stays u fs s₀) ?_ fun _ => ?_; (on_goal 2 => clear_value u); (on_goal 1 => (unfold u; clear u)))
    | (extract_lets +onlyGivenNames u; clear_value u) | with_reducible apply ite_stays
    | with_reducible apply State.moorSend_stays | with_reducible apply State.compareOut_stays
    | with_reducible refine State.setRed_stays _ ?_ (by refine ⟨?_, ?_, ?_, ?_, ?_, ?_, ?_, ?_, ?_⟩ <;> first | exact .inr rfl | exact .inl (Field.mem_of hM (by decide))) rfl

theorem State.outDigestReceive_stays (s : State) (t image : Nat) (parts : List Nat) (h0 : s.Stays fs s₀) (hM : [.objs, .doms, .role, .red, .flt] ⊆ fs) :
    State.Stays (State.outDigestReceive s t image parts) fs s₀ := by
  unfold State.outDigestReceive
  repeat' first
    | with_reducible assumption | with_reducible exact List.Subset.trans (by decide) hM | intro _ | with_reducible apply ite_stays | with_reducible apply State.compareOut_stays
    | with_reducible refine State.setRed_stays _ ?_ (by refine ⟨?_, ?_, ?_, ?_, ?_, ?_, ?_, ?_, ?_⟩ <;> first | exact .inr rfl | exact .inl (Field.mem_of hM (by decide))) rfl

theorem State.swapStart_stays (s : State) (h0 : s.Stays fs s₀) (hM : [.msgs, .red] ⊆ fs) :
    State.Stays (State.swapStart s) fs s₀ := by
  unfold State.swapStart
  repeat' first
    | with_reducible assumption | with_reducible exact List.Subset.trans (by decide) hM | intro _ | (extract_lets +onlyGivenNames u; clear_value u)
    | with_reducible apply State.moorSend_stays | with_reducible refine State.setRed_stays _ ?_ (by refine ⟨?_, ?_, ?_, ?_, ?_, ?_, ?_, ?_, ?_⟩ <;> first | exact .inr rfl | exact .inl (Field.mem_of hM (by decide))) rfl

theorem State.drill_stays (s : State) (h0 : s.Stays fs s₀) (hM : [.objs, .msgs, .red] ⊆ fs) :
    State.Stays (State.drill s) fs s₀ := by
  unfold State.drill
  repeat' first
    | with_reducible assumption | with_reducible exact List.Subset.trans (by decide) hM | intro _ | with_reducible apply ite_stays | with_reducible apply State.swapStart_stays
    | with_reducible apply State.incOb_stays | with_reducible refine State.setRed_stays _ ?_ (by refine ⟨?_, ?_, ?_, ?_, ?_, ?_, ?_, ?_, ?_⟩ <;> first | exact .inr rfl | exact .inl (Field.mem_of hM (by decide))) rfl

theorem State.redCmd_stays (s : State) (v : Nat) (h0 : s.Stays fs s₀) (hM : [.objs, .role, .grant, .msgs, .red, .fio] ⊆ fs) :
    State.Stays (State.redCmd s v) fs s₀ := by
  unfold State.redCmd
  repeat' first
    | with_reducible assumption | with_reducible exact List.Subset.trans (by decide) hM | intro _ | with_reducible apply State.redLeave_stays
    | with_reducible apply State.startResync_stays | with_reducible apply State.swapStart_stays
    | with_reducible apply State.drill_stays   | dsimp only
    | split

theorem State.swapToken_stays (s : State) (t : Nat) (h0 : s.Stays fs s₀) (hM : [.red] ⊆ fs) :
    State.Stays (State.swapToken s t) fs s₀ := by
  unfold State.swapToken
  repeat' first
    | with_reducible assumption | with_reducible exact List.Subset.trans (by decide) hM | intro _ | with_reducible apply ite_stays | with_reducible refine State.setRed_stays _ ?_ (by refine ⟨?_, ?_, ?_, ?_, ?_, ?_, ?_, ?_, ?_⟩ <;> first | exact .inr rfl | exact .inl (Field.mem_of hM (by decide))) rfl

theorem State.swapGive_stays (s : State) (h0 : s.Stays fs s₀) (hM : [.objs, .ntm, .red, .fresh] ⊆ fs) :
    State.Stays (State.swapGive s) fs s₀ := by
  unfold State.swapGive
  repeat' first
    | with_reducible assumption | with_reducible exact List.Subset.trans (by decide) hM | intro _
    | (extract_lets +onlyGivenNames u; refine cut_goal (P := State.Stays u fs s₀) ?_ fun _ => ?_; (on_goal 2 => clear_value u); (on_goal 1 => (unfold u; clear u)))
    | with_reducible apply ite_stays | with_reducible apply State.reachMono_stays | with_reducible apply State.reclaim_stays
    | with_reducible refine State.setRed_stays _ ?_ (by refine ⟨?_, ?_, ?_, ?_, ?_, ?_, ?_, ?_, ?_⟩ <;> first | exact .inr rfl | exact .inl (Field.mem_of hM (by decide))) rfl

theorem State.swapClaim_stays (s : State) (h0 : s.Stays fs s₀) (hM : [.objs, .ntm, .red, .fresh] ⊆ fs) :
    State.Stays (State.swapClaim s) fs s₀ := by
  unfold State.swapClaim
  repeat' first
    | with_reducible assumption | with_reducible exact List.Subset.trans (by decide) hM | intro _ | (extract_lets +onlyGivenNames u; clear_value u) | with_reducible apply ite_stays
    | with_reducible apply State.swapGive_stays | with_reducible apply State.reclaim_stays
    | with_reducible refine State.setRed_stays _ ?_ (by refine ⟨?_, ?_, ?_, ?_, ?_, ?_, ?_, ?_, ?_⟩ <;> first | exact .inr rfl | exact .inl (Field.mem_of hM (by decide))) rfl

theorem State.switchoverDecide_stays (s : State) (h0 : s.Stays fs s₀) (hM : [.objs, .role, .red] ⊆ fs) :
    State.Stays (State.switchoverDecide s) fs s₀ := by
  unfold State.switchoverDecide
  repeat' first
    | with_reducible assumption | with_reducible exact List.Subset.trans (by decide) hM | intro _
    | (extract_lets +onlyGivenNames u; refine cut_goal (P := State.Stays u fs s₀) ?_ fun _ => ?_; (on_goal 2 => clear_value u); (on_goal 1 => (unfold u; clear u)))
    | with_reducible apply ite_stays | with_reducible refine State.setRed_stays _ ?_ (by refine ⟨?_, ?_, ?_, ?_, ?_, ?_, ?_, ?_, ?_⟩ <;> first | exact .inr rfl | exact .inl (Field.mem_of hM (by decide))) rfl
    | with_reducible apply State.reclaim_stays | with_reducible apply State.incOb_stays
    | with_reducible apply State.setRole_stays | with_reducible apply State.when_stays

theorem State.swapRetry_stays (s : State) (h0 : s.Stays fs s₀) (hM : [.objs, .msgs, .red] ⊆ fs) :
    State.Stays (State.swapRetry s) fs s₀ := by
  unfold State.swapRetry
  repeat' first
    | with_reducible assumption | with_reducible exact List.Subset.trans (by decide) hM | intro _ | with_reducible apply ite_stays | with_reducible apply State.drill_stays

theorem State.holdoffEnd_stays (s : State) (h0 : s.Stays fs s₀) (hM : [.objs, .ntm, .msgs, .red, .fresh] ⊆ fs) :
    State.Stays (State.holdoffEnd s) fs s₀ := by
  unfold State.holdoffEnd
  repeat' first
    | with_reducible assumption | with_reducible exact List.Subset.trans (by decide) hM | intro _ | with_reducible apply ite_stays | with_reducible refine State.setRed_stays _ ?_ (by refine ⟨?_, ?_, ?_, ?_, ?_, ?_, ?_, ?_, ?_⟩ <;> first | exact .inr rfl | exact .inl (Field.mem_of hM (by decide))) rfl
    | with_reducible apply State.reachMono_stays | with_reducible apply State.drill_stays 
     | dsimp only | split

theorem State.drillDue_stays (s : State) (h0 : s.Stays fs s₀) (hM : [.objs, .ntm, .msgs, .red, .fresh] ⊆ fs) :
    State.Stays (State.drillDue s) fs s₀ := by
  unfold State.drillDue
  repeat' first
    | with_reducible assumption | with_reducible exact List.Subset.trans (by decide) hM | intro _ | with_reducible apply State.drill_stays | with_reducible apply State.drillArm_stays
    | with_reducible apply State.reachMono_stays  
    | dsimp only | split

theorem State.passEnd_stays (s : State) (left : Nat) (h0 : s.Stays fs s₀) (hM : [.role, .msgs, .red] ⊆ fs) :
    State.Stays (State.passEnd s left) fs s₀ := by
  unfold State.passEnd
  repeat' first
    | with_reducible assumption | with_reducible exact List.Subset.trans (by decide) hM | intro _
    | (extract_lets +onlyGivenNames u; refine cut_goal (P := State.Stays u fs s₀) ?_ fun _ => ?_; (on_goal 2 => clear_value u); (on_goal 1 => (unfold u; clear u)))
    | (extract_lets +onlyGivenNames u; clear_value u) | with_reducible apply ite_stays
    | with_reducible refine State.setRed_stays _ ?_ (by refine ⟨?_, ?_, ?_, ?_, ?_, ?_, ?_, ?_, ?_⟩ <;> first | exact .inr rfl | exact .inl (Field.mem_of hM (by decide))) rfl | with_reducible apply State.setRole_stays
    | with_reducible apply State.passSend_stays

theorem State.joinTide_stays (s : State) (tide64 : Nat) (h0 : s.Stays fs s₀) (hM : [.objs, .ctxs, .tds, .role, .red] ⊆ fs) :
    State.Stays (State.joinTide s tide64) fs s₀ := by
  unfold State.joinTide
  repeat' first
    | with_reducible assumption | with_reducible exact List.Subset.trans (by decide) hM | intro _
    | (extract_lets +onlyGivenNames u; refine cut_goal (P := State.Stays u fs s₀) ?_ fun _ => ?_; (on_goal 2 => clear_value u); (on_goal 1 => (unfold u; clear u)))
    | with_reducible apply State.setOb_stays | with_reducible apply State.setTds_stays
    | with_reducible apply State.setRole_stays | with_reducible refine State.setRed_stays _ ?_ (by refine ⟨?_, ?_, ?_, ?_, ?_, ?_, ?_, ?_, ?_⟩ <;> first | exact .inr rfl | exact .inl (Field.mem_of hM (by decide))) rfl
    | with_reducible apply State.toTide_stays

theorem State.resyncData_stays (s : State) (x : Sys2Proof.Resync) (h0 : s.Stays fs s₀) (hM : [.objs, .doms, .mem, .owners, .ctxs, .tds, .tasks, .img, .olc, .str, .role, .red, .bdr, .flt, .fresh] ⊆ fs) :
    State.Stays (State.resyncData s x) fs s₀ := by
  unfold State.resyncData
  repeat' first
    | with_reducible assumption | with_reducible exact List.Subset.trans (by decide) hM | intro _ | (extract_lets +onlyGivenNames u; clear_value u) | with_reducible apply ite_stays
    | with_reducible apply State.putBytes_stays | with_reducible apply State.setOb_stays
    | with_reducible apply State.setDom_stays | with_reducible apply State.retainForceTable_stays
    | with_reducible apply State.orphanRise_stays | with_reducible apply State.setImg_stays
    | with_reducible apply State.setOwner_stays | with_reducible apply State.modTask_stays
    | with_reducible apply State.joinTide_stays  
    | dsimp only | split
    | with_reducible apply State.with_olc
    | with_reducible apply State.with_str

theorem State.setWit_stays (s : State) (f : Wit → Wit) (h : s.Stays fs s₀)
    (hf : ¬ ((f s.red.wit).pairA = .valid ∧ (f s.red.wit).pairB = .valid)) (hM : [.wit] ⊆ fs) :
    State.Stays (s.setWit f) fs s₀ where
  same g := (h.same g).elim .inl fun hg => by cases g <;> first | exact .inl (hM (by decide)) | exact .inr hg
  canonical := h.canonical
  drives _ := hf

theorem State.witEval_stays (s : State) (h0 : s.Stays fs s₀) (hM : [.objs, .wit] ⊆ fs) :
    State.Stays (State.witEval s) fs s₀ := by
  unfold State.witEval
  extract_lets w h u
  split
  · exact h0
  · split
    · exact h0
    · have hu : u.Stays fs s₀ := State.incOb_stays _ _ h0 (Field.within hM (by decide))
      clear_value u
      split
      · exact State.setWit_stays _ _ hu (Wit.drive_single _) (Field.within hM (by decide))
      · exact State.setWit_stays _ _ hu (by simp) (Field.within hM (by decide))

theorem State.witStart_stays (s : State) (h0 : s.Stays fs s₀) (hM : [.objs, .wit] ⊆ fs) :
    State.Stays (State.witStart s) fs s₀ := by
  unfold State.witStart
  split
  · exact State.witEval_stays _ (State.setWit_stays _ _ h0 (Wit.drive_single _) (Field.within hM (by decide))) (Field.within hM (by decide))
  · exact h0

theorem State.witDrive_stays (s : State) (h0 : s.Stays fs s₀) (hM : [.wit] ⊆ fs) :
    State.Stays (State.witDrive s) fs s₀ := by
  unfold State.witDrive
  split
  · exact State.setWit_stays _ _ h0 (Wit.drive_single _) (Field.within hM (by decide))
  · exact h0

theorem State.witFault_stays (s : State) (h0 : s.Stays fs s₀) (hM : [.wit, .flt] ⊆ fs) :
    State.Stays (State.witFault s) fs s₀ := by
  unfold State.witFault
  split
  · exact State.raise_stays _ _ _ _ _ _ _ (State.setWit_stays _ _ h0 (by simp) (Field.within hM (by decide))) (Field.within hM (by decide))
  · exact h0

/-- The pair's field written anew, with a Lighthouse that drives nothing. -/
theorem State.setRed_stays_wit {s : State} (g : Red → Red) (h : s.Stays fs s₀)
    (hw : ¬ ((g s.red).wit.pairA = .valid ∧ (g s.red).wit.pairB = .valid))
    (hM : [.role, .pair, .grant, .link, .sent, .msgs, .own, .repl, .wit, .red] ⊆ fs) : (s.setRed g).Stays fs s₀ where
  same f := (h.same f).elim .inl fun hf => by cases f <;> first | exact .inl (hM (by decide)) | exact .inr hf
  canonical := h.canonical
  drives _ := hw

theorem State.witBoot_stays (s : State) (h0 : s.Stays fs s₀)
    (hM : [.role, .pair, .grant, .link, .sent, .msgs, .own, .repl, .wit, .red] ⊆ fs) : State.Stays (State.witBoot s) fs s₀ := by
  unfold State.witBoot
  repeat' split
  · exact State.setRed_stays_wit _ h0 (by simp [State.reset]) hM
  · exact State.setRed_stays_wit _ h0 (by simp [State.reset]) hM
  · exact h0

theorem State.bwXcheck_stays (s : State) (h0 : s.Stays fs s₀) (hM : [.objs, .flt] ⊆ fs) :
    State.Stays (State.bwXcheck s) fs s₀ := by
  unfold State.bwXcheck
  repeat' first
    | with_reducible assumption | with_reducible exact List.Subset.trans (by decide) hM | intro _ | (extract_lets +onlyGivenNames u; clear_value u) | with_reducible apply ite_stays
    | with_reducible apply State.each_stays | with_reducible apply State.raise_stays | with_reducible apply State.incOb_stays

theorem State.modCh_stays (s : State) (k : Nat) (f : Dma → Dma) (h0 : s.Stays fs s₀) (hM : [.dma] ⊆ fs) :
    State.Stays (State.modCh s k f) fs s₀ :=
  State.with_dma _ h0 hM

theorem State.dmaHalt_stays (s : State) (k code faddr dies : Nat) (h0 : s.Stays fs s₀) (hM : [.objs, .dma, .flt] ⊆ fs) :
    State.Stays (State.dmaHalt s k code faddr dies) fs s₀ := by
  unfold State.dmaHalt
  repeat' first
    | with_reducible assumption | with_reducible exact List.Subset.trans (by decide) hM | intro _
    | (extract_lets +onlyGivenNames u; refine cut_goal (P := State.Stays u fs s₀) ?_ fun _ => ?_; (on_goal 2 => clear_value u); (on_goal 1 => (unfold u; clear u)))
    | (extract_lets +onlyGivenNames u; clear_value u) | with_reducible apply State.incOb_stays
    | with_reducible apply State.modCh_stays | with_reducible apply State.raise_stays

theorem State.dmaBoundary_stays (s : State) (k : Nat) (h0 : s.Stays fs s₀) (hM : [.dma] ⊆ fs) :
    State.Stays (State.dmaBoundary s k) fs s₀ :=
  State.with_dma _ h0 hM

theorem State.stream_stays (k sw dw : Nat) (sstep dstep : Int) (count y6 : Nat) (y7 : State) (y8 : Stream) (h0 : y7.Stays fs s₀) (hM : [.objs, .mem, .ecc, .cores, .img, .olc, .bdr] ⊆ fs) :
    State.Stays (State.stream k sw dw sstep dstep count y6 y7 y8).1 fs s₀ := by
  induction y6 generalizing y7 y8 with
  | zero => exact h0
  | succ f ih =>
    unfold State.stream
    split
    · exact h0
    · split
      · split
        · exact h0
        · extract_lets q
          clear_value q
          split
          · rename_i heq; exact stays_of_eq heq (State.fabricWrite_stays _ _ _ _ _ _ h0 (Field.within hM (by decide)))
          · rename_i heq
            exact ih _ _ (State.addOb_stays _ _ _ (stays_of_eq heq (State.fabricWrite_stays _ _ _ _ _ _ h0 (Field.within hM (by decide)))) (Field.within hM (by decide)))
      · split
        · exact h0
        · split
          · exact h0
          · exact h0
          · exact ih _ _ (State.fabricCorr_stays _ _ _ _ h0 (Field.within hM (by decide)))

theorem State.lostWrite_stays (s : State) (addr : Nat) (b : List Sys2Proof.Byte) (h0 : s.Stays fs s₀) (hM : [.mem, .ecc, .cores] ⊆ fs) :
    State.Stays (State.lostWrite s addr b) fs s₀ := by
  unfold State.lostWrite
  repeat' first
    | with_reducible assumption | with_reducible exact List.Subset.trans (by decide) hM | intro _ | (extract_lets +onlyGivenNames u; clear_value u) | with_reducible apply ite_stays
    | with_reducible apply State.dataWrite_stays

theorem State.dmaTail_stays (k sw dw : Nat) (sstep dstep : Int) (count y6 : Nat) (y7 : State) (y8 : Stream) (h0 : y7.Stays fs s₀) (hM : [.objs, .mem, .ecc, .cores, .img] ⊆ fs) :
    State.Stays (State.dmaTail k sw dw sstep dstep count y6 y7 y8) fs s₀ := by
  induction y6 generalizing y7 y8 with
  | zero => exact h0
  | succ f ih =>
    unfold State.dmaTail
    split
    · split
      · exact h0
      · exact ih _ _ (State.addOb_stays _ _ _ (State.lostWrite_stays _ _ _ h0 (Field.within hM (by decide))) (Field.within hM (by decide)))
    · exact h0

theorem State.dmaMoveErr_stays (s : State) (k sw dw : Nat) (sstep dstep : Int) (count : Nat) (ins : List Sys2Proof.Byte) (y : Stream) (e : Nat × Nat × Nat) (h0 : s.Stays fs s₀) (hM : [.objs, .mem, .ecc, .cores, .img, .dma, .flt, .fresh] ⊆ fs) :
    State.Stays (State.dmaMoveErr s k sw dw sstep dstep count ins y e) fs s₀ := by
  unfold State.dmaMoveErr
  repeat' first
    | with_reducible assumption | with_reducible exact List.Subset.trans (by decide) hM | intro _
    | (extract_lets +onlyGivenNames u; refine cut_goal (P := State.Stays u fs s₀) ?_ fun _ => ?_; (on_goal 2 => clear_value u); (on_goal 1 => (unfold u; clear u)))
    | with_reducible apply State.when_stays | with_reducible apply State.draw_stays | with_reducible apply State.dmaTail_stays
    | with_reducible apply State.dmaHalt_stays | with_reducible apply State.modCh_stays

theorem State.dmaMoveGo_stays (s : State) (k sw dw : Nat) (skeep dkeep : Bool) (count src dst : Nat) (sstep dstep : Int) (h0 : s.Stays fs s₀) (hM : [.objs, .mem, .ecc, .cores, .img, .olc, .dma, .bdr, .flt, .fresh] ⊆ fs) :
    State.Stays (State.dmaMoveGo s k sw dw skeep dkeep count src dst sstep dstep) fs s₀ := by
  unfold State.dmaMoveGo
  extract_lets ins
  clear_value ins
  have hs := State.stream_stays k sw dw sstep dstep count (2 * count + 2) s ((s.ch k).moveAt skeep dkeep count src dst) h0 (Field.within hM (by decide))
  split
  · rename_i heq
    exact State.addOb_stays _ _ _ (State.modCh_stays _ _ _ (stays_of_eq heq hs) (Field.within hM (by decide))) (Field.within hM (by decide))
  · rename_i heq
    exact State.dmaMoveErr_stays _ _ _ _ _ _ _ _ _ _ (stays_of_eq heq hs) (Field.within hM (by decide))

theorem State.dmaPart_stays (s : State) (k : Nat) (pause : Bool) (h0 : s.Stays fs s₀) (hM : [.objs, .mem, .ecc, .cores, .img, .olc, .dma, .bdr, .flt, .fresh] ⊆ fs) :
    State.Stays (State.dmaPart s k pause) fs s₀ := by
  unfold State.dmaPart
  split
  · split
    · extract_lets ins x u lim v
      have hv : v.Stays fs s₀ := State.draw_stays _ h0 (Field.within hM (by decide))
      clear_value v lim u x ins
      split
      · exact hv
      · have hs := fun c k sw dw ss ds l => State.stream_stays k sw dw ss ds l c v x hv (Field.within hM (by decide))
        split
        · rename_i heq
          have ht := stays_of_eq heq (hs _ _ _ _ _ _ _)
          split
          · exact State.dmaMoveErr_stays _ _ _ _ _ _ _ _ _ _ ht (Field.within hM (by decide))
          · exact State.modCh_stays _ _ _ ht (Field.within hM (by decide))
        · rename_i heq
          exact State.modCh_stays _ _ _ (stays_of_eq heq (hs _ _ _ _ _ _ _)) (Field.within hM (by decide))
    · exact h0
  · exact h0

theorem State.dmaIns_stays (s : State) (k : Nat) (f : DmaIns → Option State) (h : s.Stays fs s₀)
    (hf : ∀ i t, f i = some t → t.Stays fs s₀) (hM : [.objs, .dma, .flt] ⊆ fs) :
    State.Stays (s.dmaIns k f) fs s₀ := by
  unfold State.dmaIns
  split
  · exact h
  · split
    · exact State.dmaHalt_stays _ _ _ _ _ h (Field.within hM (by decide))
    · split
      · exact State.dmaHalt_stays _ _ _ _ _ h (Field.within hM (by decide))
      · split
        · exact State.dmaHalt_stays _ _ _ _ _ h (Field.within hM (by decide))
        · split
          · rename_i heq; exact State.dmaBoundary_stays _ _ (hf _ _ heq) (Field.within hM (by decide))
          · exact h

theorem State.dmaMove_stays (s : State) (k : Nat) (h0 : s.Stays fs s₀) (hM : [.objs, .mem, .ecc, .cores, .img, .olc, .dma, .bdr, .flt, .fresh] ⊆ fs) :
    State.Stays (State.dmaMove s k) fs s₀ := by
  unfold State.dmaMove
  refine State.dmaIns_stays _ _ _ h0 (fun i t e => ?_) (Field.within hM (by decide))
  split at e
  · cases e; exact State.dmaMoveGo_stays _ _ _ _ _ _ _ _ _ _ _ h0 (Field.within hM (by decide))
  · cases e

theorem State.dmaLoop_stays (s : State) (k : Nat) (h0 : s.Stays fs s₀) (hM : [.objs, .dma, .flt] ⊆ fs) :
    State.Stays (State.dmaLoop s k) fs s₀ := by
  unfold State.dmaLoop
  refine State.dmaIns_stays _ _ _ h0 (fun i t e => ?_) (Field.within hM (by decide))
  split at e
  · dsimp only at e
    split at e
    · cases e; exact State.dmaHalt_stays _ _ _ _ _ h0 (Field.within hM (by decide))
    · cases e; exact State.setCh_stays _ _ _ h0 (Field.within hM (by decide))
  · cases e

theorem State.dmaPass_stays (s : State) (k : Nat) (h0 : s.Stays fs s₀) (hM : [.dma] ⊆ fs) :
    State.Stays (State.dmaPass s k) fs s₀ :=
  State.with_dma _ h0 hM

theorem State.dmaTimeUp_stays (s : State) (k lim : Nat) (h0 : s.Stays fs s₀) (hM : [.objs, .ntm, .dma, .flt, .fresh] ⊆ fs) :
    State.Stays (State.dmaTimeUp s k lim) fs s₀ := by
  unfold State.dmaTimeUp
  repeat' first
    | with_reducible assumption | with_reducible exact List.Subset.trans (by decide) hM | intro _ | with_reducible apply State.dmaHalt_stays
    | with_reducible apply State.reachMono_stays

theorem State.dmaExpire_stays (s : State) (k : Nat) (h0 : s.Stays fs s₀) (hM : [.objs, .ntm, .dma, .flt, .fresh] ⊆ fs) :
    State.Stays (State.dmaExpire s k) fs s₀ := by
  unfold State.dmaExpire
  repeat' first
    | with_reducible assumption | with_reducible exact List.Subset.trans (by decide) hM | intro _ | with_reducible apply ite_stays | with_reducible apply State.dmaTimeUp_stays

theorem State.dmaExpireAll_stays (s : State) (kind arg : Nat) (h0 : s.Stays fs s₀) (hM : [.objs, .ntm, .dma, .flt, .fresh] ⊆ fs) :
    State.Stays (State.dmaExpireAll s kind arg) fs s₀ := by
  unfold State.dmaExpireAll
  repeat' first
    | with_reducible assumption | with_reducible exact List.Subset.trans (by decide) hM | intro _ | with_reducible apply State.each_stays | with_reducible apply State.dmaExpire_stays

theorem State.dmaEvent_stays (s : State) (n : Nat) (h0 : s.Stays fs s₀) (hM : [.objs, .ntm, .dma, .flt, .fresh] ⊆ fs) :
    State.Stays (State.dmaEvent s n) fs s₀ := by
  unfold State.dmaEvent
  repeat' first
    | with_reducible assumption | with_reducible exact List.Subset.trans (by decide) hM | intro _
    | (extract_lets +onlyGivenNames u; refine cut_goal (P := State.Stays u fs s₀) ?_ fun _ => ?_; (on_goal 2 => clear_value u); (on_goal 1 => (unfold u; clear u)))
    | (extract_lets +onlyGivenNames u; clear_value u) | with_reducible apply ite_stays
    | with_reducible apply State.dmaExpireAll_stays | with_reducible apply State.setOb_stays
    | with_reducible apply State.each_stays | with_reducible apply State.dmaPass_stays

theorem State.dmaPhase_stays (s : State) (arg : Nat) (h0 : s.Stays fs s₀) (hM : [.objs, .ntm, .dma, .flt, .fresh] ⊆ fs) :
    State.Stays (State.dmaPhase s arg) fs s₀ := by
  unfold State.dmaPhase
  repeat' first
    | with_reducible assumption | with_reducible exact List.Subset.trans (by decide) hM | intro _
    | (extract_lets +onlyGivenNames u; refine cut_goal (P := State.Stays u fs s₀) ?_ fun _ => ?_; (on_goal 2 => clear_value u); (on_goal 1 => (unfold u; clear u)))
    | with_reducible apply State.dmaExpireAll_stays | with_reducible apply State.each_stays
    | with_reducible apply State.dmaPass_stays

theorem State.dmaTakeFlag_stays (s : State) (k : Nat) (h0 : s.Stays fs s₀) (hM : [.objs, .ntm, .dma, .flt, .fresh] ⊆ fs) :
    State.Stays (State.dmaTakeFlag s k) fs s₀ := by
  unfold State.dmaTakeFlag
  repeat' first
    | with_reducible assumption | with_reducible exact List.Subset.trans (by decide) hM | intro _ | with_reducible apply ite_stays | with_reducible apply State.dmaExpire_stays
    | with_reducible apply State.dmaPass_stays | with_reducible apply State.setOb_stays 
     | dsimp only | split

theorem State.dmaEnterWait_stays (s : State) (k : Nat) (h0 : s.Stays fs s₀) (hM : [.objs, .ntm, .dma, .flt, .fresh] ⊆ fs) :
    State.Stays (State.dmaEnterWait s k) fs s₀ := by
  unfold State.dmaEnterWait
  repeat' first
    | with_reducible assumption | with_reducible exact List.Subset.trans (by decide) hM | intro _ | (extract_lets +onlyGivenNames u; clear_value u)
    | with_reducible apply State.dmaTakeFlag_stays | with_reducible apply State.modCh_stays

theorem State.dmaWait_stays (s : State) (k : Nat) (h0 : s.Stays fs s₀) (hM : [.objs, .ntm, .dma, .flt, .fresh] ⊆ fs) :
    State.Stays (State.dmaWait s k) fs s₀ := by
  unfold State.dmaWait
  refine State.dmaIns_stays _ _ _ h0 (fun i t e => ?_) (Field.within hM (by decide))
  split at e
  · cases e; exact State.dmaEnterWait_stays _ _ h0 (Field.within hM (by decide))
  · cases e

theorem State.dmaTimeWait_stays (s : State) (k lim until_ : Nat) (h0 : s.Stays fs s₀) (hM : [.objs, .ntm, .dma, .flt, .fresh] ⊆ fs) :
    State.Stays (State.dmaTimeWait s k lim until_) fs s₀ := by
  unfold State.dmaTimeWait
  repeat' first
    | with_reducible assumption | with_reducible exact List.Subset.trans (by decide) hM | intro _ | with_reducible apply ite_stays | with_reducible apply State.dmaTimeUp_stays
    | with_reducible apply State.dmaPass_stays | with_reducible apply State.reach_stays

theorem State.dmaWaitRelease_stays (s : State) (k : Nat) (h0 : s.Stays fs s₀) (hM : [.objs, .ntm, .dma, .flt, .fresh] ⊆ fs) :
    State.Stays (State.dmaWaitRelease s k) fs s₀ := by
  unfold State.dmaWaitRelease
  repeat' first
    | with_reducible assumption | with_reducible exact List.Subset.trans (by decide) hM | intro _ | with_reducible apply ite_stays | with_reducible apply State.dmaTimeWait_stays
    | with_reducible apply State.dmaTakeFlag_stays  
    | dsimp only | split

theorem State.dmaWaitTimeout_stays (s : State) (k : Nat) (h0 : s.Stays fs s₀) (hM : [.objs, .ntm, .dma, .flt, .fresh] ⊆ fs) :
    State.Stays (State.dmaWaitTimeout s k) fs s₀ := by
  unfold State.dmaWaitTimeout
  repeat' first
    | with_reducible assumption | with_reducible exact List.Subset.trans (by decide) hM | intro _ | with_reducible apply ite_stays | with_reducible apply State.dmaTimeWait_stays
    | with_reducible apply State.dmaTimeUp_stays  
    | dsimp only | split

theorem State.dmaFin_stays (s : State) (k : Nat) (want : DmaIns → Bool) (h0 : s.Stays fs s₀) (hM : [.objs, .dma, .flt] ⊆ fs) :
    State.Stays (State.dmaFin s k want) fs s₀ := by
  unfold State.dmaFin
  refine State.dmaIns_stays _ _ _ h0 (fun i t e => ?_) (Field.within hM (by decide))
  split at e
  · cases e; exact State.modCh_stays _ _ _ h0 (Field.within hM (by decide))
  · cases e

theorem State.dmaLinkLost_stays (s : State) (die : Nat) (h0 : s.Stays fs s₀) (hM : [.objs, .dma, .flt] ⊆ fs) :
    State.Stays (State.dmaLinkLost s die) fs s₀ := by
  unfold State.dmaLinkLost
  repeat' first
    | with_reducible assumption | with_reducible exact List.Subset.trans (by decide) hM | intro _ | with_reducible apply State.each_stays | with_reducible apply State.dmaHalt_stays

theorem State.dmaReadback_stays (s : State) (k : Nat) (h0 : s.Stays fs s₀) (hM : [.objs, .tds, .ntm, .own, .dma, .flt, .fresh] ⊆ fs) :
    State.Stays (State.dmaReadback s k) fs s₀ := by
  unfold State.dmaReadback
  repeat' first
    | with_reducible assumption | with_reducible exact List.Subset.trans (by decide) hM | intro _
    | (extract_lets +onlyGivenNames u; refine cut_goal (P := State.Stays u fs s₀) ?_ fun _ => ?_; (on_goal 2 => clear_value u); (on_goal 1 => (unfold u; clear u)))
    | (extract_lets +onlyGivenNames u; clear_value u) | with_reducible apply ite_stays
    | with_reducible apply State.setCh_stays | with_reducible apply State.when_stays
    | with_reducible apply State.dmaEvent_stays | with_reducible apply State.fire_stays 
     | dsimp only | split

theorem State.dmaStart_stays (s : State) (k ses : Nat) (h0 : s.Stays fs s₀) (hM : [.objs, .dma] ⊆ fs) :
    State.Stays (State.dmaStart s k ses) fs s₀ := by
  unfold State.dmaStart
  repeat' first
    | with_reducible assumption | with_reducible exact List.Subset.trans (by decide) hM | intro _
    | (extract_lets +onlyGivenNames u; clear_value u) | with_reducible apply State.setCh_stays
    | with_reducible apply State.setOb_stays

theorem State.dmaStop_stays (s : State) (k : Nat) (h0 : s.Stays fs s₀) (hM : [.objs, .mem, .ecc, .cores, .img, .olc, .dma, .bdr, .flt, .fresh] ⊆ fs) :
    State.Stays (State.dmaStop s k) fs s₀ := by
  unfold State.dmaStop
  repeat' first
    | with_reducible assumption | with_reducible exact List.Subset.trans (by decide) hM | intro _
    | (extract_lets +onlyGivenNames u; refine cut_goal (P := State.Stays u fs s₀) ?_ fun _ => ?_; (on_goal 2 => clear_value u); (on_goal 1 => (unfold u; clear u)))
    | (extract_lets +onlyGivenNames u; clear_value u) | with_reducible apply ite_stays | with_reducible apply State.when_stays
    | with_reducible apply State.draw_stays | with_reducible apply State.modCh_stays

theorem State.dmaPause_stays (s : State) (k : Nat) (h0 : s.Stays fs s₀) (hM : [.dma] ⊆ fs) :
    State.Stays (State.dmaPause s k) fs s₀ :=
  State.with_dma _ h0 hM

theorem State.dmaDrained_stays (s : State) (k : Nat) (h0 : s.Stays fs s₀) (hM : [.objs, .mem, .ecc, .cores, .tds, .img, .olc, .ntm, .own, .dma, .bdr, .flt, .fresh] ⊆ fs) :
    State.Stays (State.dmaDrained s k) fs s₀ := by
  unfold State.dmaDrained
  repeat' first
    | with_reducible assumption | with_reducible exact List.Subset.trans (by decide) hM | intro _
    | (extract_lets +onlyGivenNames u; refine cut_goal (P := State.Stays u fs s₀) ?_ fun _ => ?_; (on_goal 2 => clear_value u); (on_goal 1 => (unfold u; clear u)))
    | with_reducible apply ite_stays | with_reducible apply State.dmaReadback_stays | with_reducible apply State.dmaPart_stays
    | with_reducible apply State.modCh_stays

theorem State.dmaResume_stays (s : State) (k : Nat) (h0 : s.Stays fs s₀) (hM : [.objs, .ntm, .dma, .flt, .fresh] ⊆ fs) :
    State.Stays (State.dmaResume s k) fs s₀ := by
  unfold State.dmaResume
  repeat' first
    | with_reducible assumption | with_reducible exact List.Subset.trans (by decide) hM | intro _
    | (extract_lets +onlyGivenNames u; refine cut_goal (P := State.Stays u fs s₀) ?_ fun _ => ?_; (on_goal 2 => clear_value u); (on_goal 1 => (unfold u; clear u)))
    | (extract_lets +onlyGivenNames u; clear_value u) | with_reducible apply ite_stays
    | with_reducible apply State.setCh_stays | with_reducible apply State.dmaEnterWait_stays
    | with_reducible apply State.dmaTakeFlag_stays

theorem State.dmaAbort_stays (s : State) (k : Nat) (h0 : s.Stays fs s₀) (hM : [.objs, .mem, .ecc, .cores, .img, .olc, .dma, .bdr, .flt, .fresh] ⊆ fs) :
    State.Stays (State.dmaAbort s k) fs s₀ := by
  unfold State.dmaAbort
  repeat' first
    | with_reducible assumption | with_reducible exact List.Subset.trans (by decide) hM | intro _ | with_reducible apply ite_stays | with_reducible apply State.modCh_stays
    | with_reducible apply State.dmaPart_stays

theorem State.dmaCmd_stays (s : State) (k ses v : Nat) (h0 : s.Stays fs s₀) (hM : [.objs, .mem, .ecc, .cores, .img, .olc, .ntm, .dma, .bdr, .flt, .fresh] ⊆ fs) :
    State.Stays (State.dmaCmd s k ses v) fs s₀ := by
  unfold State.dmaCmd
  repeat' first
    | with_reducible assumption | with_reducible exact List.Subset.trans (by decide) hM | intro _ | with_reducible apply State.dmaExpire_stays
    | with_reducible apply State.dmaStart_stays | with_reducible apply State.dmaStop_stays
    | with_reducible apply State.dmaPause_stays | with_reducible apply State.dmaResume_stays
    | with_reducible apply State.dmaAbort_stays | with_reducible apply State.modCh_stays 
     | dsimp only | split

theorem State.dmaPdPause_stays (s : State) (dom : Nat) (h0 : s.Stays fs s₀) (hM : [.dma] ⊆ fs) :
    State.Stays (State.dmaPdPause s dom) fs s₀ := by
  unfold State.dmaPdPause
  repeat' first
    | with_reducible assumption | with_reducible exact List.Subset.trans (by decide) hM | intro _ | with_reducible apply State.each_stays | with_reducible apply State.modCh_stays

theorem State.dmaPdRefuse_stays (s : State) (dom : Nat) (h0 : s.Stays fs s₀) (hM : [.objs, .dma] ⊆ fs) :
    State.Stays (State.dmaPdRefuse s dom) fs s₀ := by
  unfold State.dmaPdRefuse
  repeat' first
    | with_reducible assumption | with_reducible exact List.Subset.trans (by decide) hM | intro _
    | (extract_lets +onlyGivenNames u; refine cut_goal (P := State.Stays u fs s₀) ?_ fun _ => ?_; (on_goal 2 => clear_value u); (on_goal 1 => (unfold u; clear u)))
    | with_reducible apply ite_stays | with_reducible apply State.each_stays | with_reducible apply State.modCh_stays
    | with_reducible apply State.incOb_stays

end Sys2Proof.Machine
end


section
/-! SUPPORT. What each operation of online change, resets, starts, observation and supervision leaves as it was. -/

namespace Sys2Proof.Machine

variable {fs : List Field} {s₀ : State}

theorem State.setOlc_stays (s : State) (f : Olc → Olc) (h0 : s.Stays fs s₀) (hM : [.olc] ⊆ fs) :
    State.Stays (State.setOlc s f) fs s₀ :=
  State.with_olc _ h0 hM

theorem State.setResult_stays (s : State) (n key st reason dies : Nat) (h0 : s.Stays fs s₀) (hM : [.sess] ⊆ fs) :
    State.Stays (State.setResult s n key st reason dies) fs s₀ :=
  State.with_sess _ h0 hM

theorem State.olcResult_stays (s : State) (st reason detail dies : Nat) (h0 : s.Stays fs s₀) (hM : [.olc] ⊆ fs) :
    State.Stays (State.olcResult s st reason detail dies) fs s₀ :=
  State.with_olc _ h0 hM

theorem State.olcLoad_stays (s : State) (h0 : s.Stays fs s₀) (hM : [.doms, .mem, .olc] ⊆ fs) :
    State.Stays (State.olcLoad s) fs s₀ := by
  unfold State.olcLoad
  repeat' first
    | with_reducible assumption | with_reducible exact List.Subset.trans (by decide) hM | intro _
    | (extract_lets +onlyGivenNames u; refine cut_goal (P := State.Stays u fs s₀) ?_ fun _ => ?_; (on_goal 2 => clear_value u); (on_goal 1 => (unfold u; clear u)))
    | with_reducible apply State.each_stays | with_reducible apply State.clearMem_stays
    | with_reducible apply State.setDom_stays | with_reducible apply State.setOlc_stays

theorem State.imageClose_stays (s : State) (b : List (Nat × Sys2Proof.Byte)) (h0 : s.Stays fs s₀) (hM : [.mem, .olc] ⊆ fs) :
    State.Stays (State.imageClose s b).1 fs s₀ := by
  unfold State.imageClose
  extract_lets put first s1 lim dir s2 rest hd s3 done bad
  have hp : ∀ (g : List Byte) (u : State) (e : Nat × Byte), u.Stays fs s₀ → State.Stays (put g u e) fs s₀ := by
    intro g u e hu
    unfold put
    extract_lets v
    refine State.setOlc_stays _ _ ?_ (Field.within hM (by decide))
    unfold v
    split
    · exact State.setByte_stays _ _ hu (Field.within hM (by decide))
    · exact hu
  clear_value put
  have h1 : s1.Stays fs s₀ := State.foldl_stays _ _ (fun u x hu => hp _ _ _ hu) h0
  clear_value s1
  have h2 : s2.Stays fs s₀ := State.foldl_stays _ _ (fun u x hu => hp _ _ _ hu) h1
  clear_value s2
  have h3 : s3.Stays fs s₀ := State.foldl_stays _ _ (fun u x hu => hp _ _ _ hu) h2
  clear_value s3 bad
  split
  · exact h2
  · split
    · dsimp only
      split
      · exact State.olcResult_stays _ _ _ _ _ h3 (Field.within hM (by decide))
      · exact h3
    · exact h0

theorem State.placed_stays (s : State) (im : List Sys2Proof.Byte) (h0 : s.Stays fs s₀) (hM : [.objs, .doms, .owners, .olc] ⊆ fs) :
    State.Stays (State.placed s im) fs s₀ := by
  unfold State.placed
  repeat' first
    | with_reducible assumption | with_reducible exact List.Subset.trans (by decide) hM | intro _ | with_reducible apply State.setOlc_stays
    | with_reducible apply State.applyTables_stays

theorem State.verifyDone_stays (s : State) (h0 : s.Stays fs s₀) (hM : [.doms, .olc] ⊆ fs) :
    State.Stays (State.verifyDone s) fs s₀ := by
  unfold State.verifyDone
  repeat' first
    | with_reducible assumption | with_reducible exact List.Subset.trans (by decide) hM | intro _
    | (extract_lets +onlyGivenNames u; refine cut_goal (P := State.Stays u fs s₀) ?_ fun _ => ?_; (on_goal 2 => clear_value u); (on_goal 1 => (unfold u; clear u)))
    | (extract_lets +onlyGivenNames u; clear_value u) | with_reducible apply ite_stays
    | with_reducible apply State.setDom_stays | with_reducible apply State.setOlc_stays
    | with_reducible apply State.olcResult_stays

theorem State.askVotes_stays (s : State) (ses : Option Nat) (partner : Bool) (h0 : s.Stays fs s₀) (hM : [.olc, .msgs] ⊆ fs) :
    State.Stays (State.askVotes s ses partner) fs s₀ := by
  unfold State.askVotes
  repeat' first
    | with_reducible assumption | with_reducible exact List.Subset.trans (by decide) hM | intro _ | with_reducible apply ite_stays | with_reducible apply State.when_stays
    | with_reducible apply State.setOlc_stays | with_reducible apply State.moorSend_stays

theorem State.prepareEnd_stays (s : State) (h0 : s.Stays fs s₀) (hM : [.sess, .olc, .msgs] ⊆ fs) :
    State.Stays (State.prepareEnd s) fs s₀ := by
  unfold State.prepareEnd
  repeat' first
    | with_reducible assumption | with_reducible exact List.Subset.trans (by decide) hM | intro _
    | (extract_lets +onlyGivenNames u; refine cut_goal (P := State.Stays u fs s₀) ?_ fun _ => ?_; (on_goal 2 => clear_value u); (on_goal 1 => (unfold u; clear u)))
    | (extract_lets +onlyGivenNames u; clear_value u) | with_reducible apply ite_stays | with_reducible apply State.when_stays
    | with_reducible apply State.moorSend_stays | with_reducible apply State.setOlc_stays
    | with_reducible apply State.olcResult_stays | with_reducible apply State.setResult_stays
    | with_reducible apply State.foldl_stays   | dsimp only
    | split

theorem State.prepareTake_stays (s : State) (die k : Nat) (h0 : s.Stays fs s₀) (hM : [.sess, .olc, .msgs] ⊆ fs) :
    State.Stays (State.prepareTake s die k) fs s₀ := by
  unfold State.prepareTake
  repeat' first
    | with_reducible assumption | with_reducible exact List.Subset.trans (by decide) hM | intro _
    | (extract_lets +onlyGivenNames u; refine cut_goal (P := State.Stays u fs s₀) ?_ fun _ => ?_; (on_goal 2 => clear_value u); (on_goal 1 => (unfold u; clear u)))
    | with_reducible apply ite_stays | with_reducible apply State.setOlc_stays | with_reducible apply State.prepareEnd_stays

theorem State.prepareVote_stays (s : State) (die : Nat) (yes : Bool) (h0 : s.Stays fs s₀) (hM : [.sess, .olc, .msgs] ⊆ fs) :
    State.Stays (State.prepareVote s die yes) fs s₀ := by
  unfold State.prepareVote
  repeat' first
    | with_reducible assumption | with_reducible exact List.Subset.trans (by decide) hM | intro _ | with_reducible apply ite_stays | with_reducible apply State.setOlc_stays
    | with_reducible apply State.prepareTake_stays

theorem State.partnerPrepare_stays (s : State) (hash : List Sys2Proof.Byte) (h0 : s.Stays fs s₀) (hM : [.olc, .msgs] ⊆ fs) :
    State.Stays (State.partnerPrepare s hash) fs s₀ := by
  unfold State.partnerPrepare
  repeat' first
    | with_reducible assumption | with_reducible exact List.Subset.trans (by decide) hM | intro _ | with_reducible apply ite_stays | with_reducible apply State.askVotes_stays
    | with_reducible apply State.setOlc_stays | with_reducible apply State.moorSend_stays

theorem State.commitPoint_stays (s : State) (h0 : s.Stays fs s₀) (hM : [.objs, .olc, .msgs] ⊆ fs) :
    State.Stays (State.commitPoint s) fs s₀ := by
  unfold State.commitPoint
  repeat' first
    | with_reducible assumption | with_reducible exact List.Subset.trans (by decide) hM | intro _ | with_reducible apply State.when_stays | with_reducible apply State.setOb_stays
    | with_reducible apply State.setOlc_stays | with_reducible apply State.moorSend_stays

theorem State.beginCommit_stays (s : State) (back : Bool) (h0 : s.Stays fs s₀) (hM : [.objs, .olc, .msgs] ⊆ fs) :
    State.Stays (State.beginCommit s back) fs s₀ := by
  unfold State.beginCommit
  repeat' first
    | with_reducible assumption | with_reducible exact List.Subset.trans (by decide) hM | intro _
    | (extract_lets +onlyGivenNames u; refine cut_goal (P := State.Stays u fs s₀) ?_ fun _ => ?_; (on_goal 2 => clear_value u); (on_goal 1 => (unfold u; clear u)))
    | (extract_lets +onlyGivenNames u; clear_value u) | with_reducible apply ite_stays
    | with_reducible apply State.setOb_stays | with_reducible apply State.setOlc_stays
    | with_reducible apply State.olcResult_stays | with_reducible apply State.commitPoint_stays

theorem State.cutTest_stays (s : State) (h0 : s.Stays fs s₀) (hM : [.objs, .tds, .olc, .msgs] ⊆ fs) :
    State.Stays (State.cutTest s) fs s₀ := by
  unfold State.cutTest
  repeat' first
    | with_reducible assumption | with_reducible exact List.Subset.trans (by decide) hM | intro _
    | (extract_lets +onlyGivenNames u; refine cut_goal (P := State.Stays u fs s₀) ?_ fun _ => ?_; (on_goal 2 => clear_value u); (on_goal 1 => (unfold u; clear u)))
    | (extract_lets +onlyGivenNames u; clear_value u) | with_reducible apply ite_stays
    | with_reducible apply State.setOlc_stays | with_reducible apply State.setTds_stays
    | with_reducible apply State.moorSend_stays | with_reducible apply State.commitPoint_stays

theorem State.passCut_stays (s : State) (h0 : s.Stays fs s₀) (hM : [.objs, .mem, .sess, .ctxs, .cores, .tds, .tasks, .img, .olc, .str, .sent, .bdr, .flt, .sta, .fresh] ⊆ fs) :
    State.Stays (State.passCut s) fs s₀ := by
  unfold State.passCut
  repeat' first
    | with_reducible assumption | with_reducible exact List.Subset.trans (by decide) hM | intro _ | with_reducible apply State.releaseHeld_stays
    | with_reducible apply State.setOlc_stays

theorem State.noQuiesce_stays (s : State) (h0 : s.Stays fs s₀) (hM : [.olc] ⊆ fs) :
    State.Stays (State.noQuiesce s) fs s₀ := by
  unfold State.noQuiesce
  repeat' first
    | with_reducible assumption | with_reducible exact List.Subset.trans (by decide) hM | intro _ | with_reducible apply ite_stays | with_reducible apply State.setOlc_stays
    | with_reducible apply State.olcResult_stays

theorem State.standbyVote_stays (s : State) (t : Nat) (yes : Bool) (h0 : s.Stays fs s₀) (hM : [.objs, .mem, .sess, .ctxs, .cores, .tds, .tasks, .img, .olc, .str, .sent, .msgs, .bdr, .flt, .sta, .fresh] ⊆ fs) :
    State.Stays (State.standbyVote s t yes) fs s₀ := by
  unfold State.standbyVote
  repeat' first
    | with_reducible assumption | with_reducible exact List.Subset.trans (by decide) hM | intro _ | with_reducible apply ite_stays | with_reducible apply State.commitPoint_stays
    | with_reducible apply State.passCut_stays

theorem State.standbyLate_stays (s : State) (h0 : s.Stays fs s₀) (hM : [.objs, .mem, .sess, .ctxs, .cores, .tds, .tasks, .img, .olc, .str, .sent, .bdr, .flt, .sta, .fresh] ⊆ fs) :
    State.Stays (State.standbyLate s) fs s₀ := by
  unfold State.standbyLate
  repeat' first
    | with_reducible assumption | with_reducible exact List.Subset.trans (by decide) hM | intro _ | with_reducible apply ite_stays | with_reducible apply State.incOb_stays
    | with_reducible apply State.passCut_stays

theorem State.cutTide_stays (s : State) (t : Nat) (h0 : s.Stays fs s₀) (hM : [.tds, .olc, .msgs] ⊆ fs) :
    State.Stays (State.cutTide s t) fs s₀ := by
  unfold State.cutTide
  repeat' first
    | with_reducible assumption | with_reducible exact List.Subset.trans (by decide) hM | intro _ | with_reducible apply ite_stays | with_reducible apply State.moorSend_stays
    | with_reducible apply State.setTds_stays | with_reducible apply State.setOlc_stays

theorem State.partnerToken_stays (s : State) (t : Nat) (h0 : s.Stays fs s₀) (hM : [.objs, .olc, .msgs] ⊆ fs) :
    State.Stays (State.partnerToken s t) fs s₀ := by
  unfold State.partnerToken
  repeat' first
    | with_reducible assumption | with_reducible exact List.Subset.trans (by decide) hM | intro _ | with_reducible apply ite_stays | with_reducible apply State.commitPoint_stays
    | with_reducible apply State.setOlc_stays

theorem State.tokenMissing_stays (s : State) (h0 : s.Stays fs s₀) (hM : [.objs, .doms, .tds, .olc, .role, .red, .flt] ⊆ fs) :
    State.Stays (State.tokenMissing s) fs s₀ := by
  unfold State.tokenMissing
  repeat' first
    | with_reducible assumption | with_reducible exact List.Subset.trans (by decide) hM | intro _
    | (extract_lets +onlyGivenNames u; refine cut_goal (P := State.Stays u fs s₀) ?_ fun _ => ?_; (on_goal 2 => clear_value u); (on_goal 1 => (unfold u; clear u)))
    | with_reducible apply ite_stays | with_reducible apply State.setTds_stays | with_reducible apply State.setOlc_stays
    | with_reducible apply State.toUnsynced_stays | with_reducible apply State.divergence_stays
    | with_reducible apply State.startResync_stays

theorem State.partnerDiscard_stays (s : State) (h0 : s.Stays fs s₀) (hM : [.objs, .mem, .sess, .ctxs, .cores, .tds, .tasks, .img, .olc, .str, .sent, .bdr, .flt, .sta, .fresh] ⊆ fs) :
    State.Stays (State.partnerDiscard s) fs s₀ := by
  unfold State.partnerDiscard
  repeat' first
    | with_reducible assumption | with_reducible exact List.Subset.trans (by decide) hM | intro _ | with_reducible apply ite_stays | with_reducible apply State.releaseHeld_stays
    | with_reducible apply State.setOlc_stays

theorem State.bankSwitch_stays (s : State) (n : Nat) (h0 : s.Stays fs s₀) (hM : [.cores, .olc] ⊆ fs) :
    State.Stays (State.bankSwitch s n) fs s₀ := by
  unfold State.bankSwitch
  repeat' first
    | with_reducible assumption | with_reducible exact List.Subset.trans (by decide) hM | intro _
    | (extract_lets +onlyGivenNames u; refine cut_goal (P := State.Stays u fs s₀) ?_ fun _ => ?_; (on_goal 2 => clear_value u); (on_goal 1 => (unfold u; clear u)))
    | (extract_lets +onlyGivenNames u; clear_value u) | with_reducible apply ite_stays
    | with_reducible apply State.setOlc_stays | with_reducible apply State.each_stays
    | with_reducible apply State.setCore_stays

theorem State.strandLost_stays (s : State) (n : Nat) (h0 : s.Stays fs s₀) (hM : [.olc, .flt] ⊆ fs) :
    State.Stays (State.strandLost s n) fs s₀ := by
  unfold State.strandLost
  repeat' first
    | with_reducible assumption | with_reducible exact List.Subset.trans (by decide) hM | intro _
    | with_reducible apply State.raise_stays | with_reducible apply State.setOlc_stays

theorem State.moveHalt_stays (s : State) (e : CopyErr) (l : List Nat) (h0 : s.Stays fs s₀) (hM : [.objs, .olc, .dma, .flt] ⊆ fs) :
    State.Stays (State.moveHalt s e l) fs s₀ := by
  unfold State.moveHalt
  repeat' first
    | with_reducible assumption | with_reducible exact List.Subset.trans (by decide) hM | intro _ | (extract_lets +onlyGivenNames u; clear_value u) | with_reducible apply ite_stays
    | with_reducible apply State.each_stays | with_reducible apply State.chanHalt_stays
    | with_reducible apply State.strandLost_stays

theorem State.moveOne_stays (im : List Sys2Proof.Byte) (s : State) (e : MapEntry) (h0 : s.Stays fs s₀) (hM : [.objs, .mem, .ecc, .cores, .img, .olc, .dma, .bdr, .flt] ⊆ fs) :
    State.Stays (State.moveOne im s e) fs s₀ := by
  unfold State.moveOne
  repeat' first
    | with_reducible assumption | with_reducible exact List.Subset.trans (by decide) hM | intro _
    | (extract_lets +onlyGivenNames u; refine cut_goal (P := State.Stays u fs s₀) ?_ fun _ => ?_; (on_goal 2 => clear_value u); (on_goal 1 => (unfold u; clear u)))
    | (extract_lets +onlyGivenNames u; refine cut_goal (P := State.Stays u.1 fs s₀) ?_ fun _ => ?_; (on_goal 2 => clear_value u); (on_goal 1 => (unfold u; clear u)))
    | with_reducible apply_assumption | with_reducible apply ite_stays | with_reducible apply State.mapMove_stays
    | with_reducible apply State.moveHalt_stays | with_reducible apply State.seqStop_stays
    | with_reducible apply State.each_stays | with_reducible apply State.strandCorr_stays
    | with_reducible apply State.seqMove_stays   | dsimp only
    | with_reducible refine stays_of_eq (by assumption) ?_ | split

theorem State.relocMove_stays (s : State) (e : Nat × Nat) (h0 : s.Stays fs s₀) (hM : [.objs, .mem, .ecc, .cores, .img, .olc, .dma, .bdr, .flt] ⊆ fs) :
    State.Stays (State.relocMove s e) fs s₀ := by
  unfold State.relocMove
  repeat' first
    | with_reducible assumption | with_reducible exact List.Subset.trans (by decide) hM | intro _
    | (extract_lets +onlyGivenNames u; refine cut_goal (P := State.Stays u.1 fs s₀) ?_ fun _ => ?_; (on_goal 2 => clear_value u); (on_goal 1 => (unfold u; clear u)))
    | with_reducible apply_assumption | with_reducible apply ite_stays | with_reducible apply State.moveHalt_stays
    | with_reducible apply State.seqStop_stays | with_reducible apply State.relocOne_stays
    | with_reducible apply State.fabricCorr_stays | with_reducible apply State.seqMove_stays 
     | dsimp only | with_reducible refine stays_of_eq (by assumption) ?_ | split

theorem State.olcMoves_stays (s : State) (h0 : s.Stays fs s₀) (hM : [.objs, .mem, .ecc, .cores, .img, .olc, .dma, .bdr, .flt, .fresh] ⊆ fs) :
    State.Stays (State.olcMoves s) fs s₀ := by
  unfold State.olcMoves
  repeat' first
    | with_reducible assumption | with_reducible exact List.Subset.trans (by decide) hM | intro _
    | (extract_lets +onlyGivenNames u; refine cut_goal (P := State.Stays u fs s₀) ?_ fun _ => ?_; (on_goal 2 => clear_value u); (on_goal 1 => (unfold u; clear u)))
    | (extract_lets +onlyGivenNames u; clear_value u) | with_reducible apply State.each_stays
    | with_reducible apply State.seqBegin_stays | with_reducible apply State.finishApply_stays
    | with_reducible apply State.moveOne_stays | with_reducible apply State.relocMove_stays
    | with_reducible apply State.setOlc_stays | with_reducible apply State.seqEnd_stays

theorem State.confirmCheck_stays (s : State) (h0 : s.Stays fs s₀) (hM : [.objs, .mem, .ecc, .cores, .img, .olc, .dma, .bdr, .flt, .fresh] ⊆ fs) :
    State.Stays (State.confirmCheck s) fs s₀ := by
  unfold State.confirmCheck
  repeat' first
    | with_reducible assumption | with_reducible exact List.Subset.trans (by decide) hM | intro _ | with_reducible apply ite_stays | with_reducible apply State.olcMoves_stays

theorem State.bankConfirm_stays (s : State) (n : Nat) (h0 : s.Stays fs s₀) (hM : [.objs, .mem, .ecc, .cores, .img, .olc, .dma, .bdr, .flt, .fresh] ⊆ fs) :
    State.Stays (State.bankConfirm s n) fs s₀ := by
  unfold State.bankConfirm
  repeat' first
    | with_reducible assumption | with_reducible exact List.Subset.trans (by decide) hM | intro _ | with_reducible apply ite_stays | with_reducible apply State.confirmCheck_stays
    | with_reducible apply State.setOlc_stays

theorem State.confirmLost_stays (s : State) (n : Nat) (h0 : s.Stays fs s₀) (hM : [.objs, .mem, .ecc, .cores, .img, .olc, .dma, .bdr, .flt, .fresh] ⊆ fs) :
    State.Stays (State.confirmLost s n) fs s₀ := by
  unfold State.confirmLost
  repeat' first
    | with_reducible assumption | with_reducible exact List.Subset.trans (by decide) hM | intro _ | with_reducible apply ite_stays | with_reducible apply State.confirmCheck_stays
    | with_reducible apply State.strandLost_stays

theorem State.tasksAnew_stays (s : State) (h0 : s.Stays fs s₀) (hM : [.ctxs, .tasks] ⊆ fs) :
    State.Stays (State.tasksAnew s) fs s₀ := by
  unfold State.tasksAnew
  repeat' first
    | with_reducible assumption | with_reducible exact List.Subset.trans (by decide) hM | intro _
    | (extract_lets +onlyGivenNames u; refine cut_goal (P := State.Stays u fs s₀) ?_ fun _ => ?_; (on_goal 2 => clear_value u); (on_goal 1 => (unfold u; clear u)))
    | (extract_lets +onlyGivenNames u; clear_value u) | with_reducible apply ite_stays | with_reducible apply State.each_stays
    | with_reducible apply State.modCtx_stays | with_reducible apply State.setTask_stays

theorem State.disableLost_stays (s : State) (h0 : s.Stays fs s₀) (hM : [.tasks, .olc] ⊆ fs) :
    State.Stays (State.disableLost s) fs s₀ := by
  unfold State.disableLost
  repeat' first
    | with_reducible assumption | with_reducible exact List.Subset.trans (by decide) hM | intro _ | (extract_lets +onlyGivenNames u; clear_value u)
    | with_reducible apply State.setOlc_stays | with_reducible apply State.each_stays
    | with_reducible apply State.modTask_stays

theorem State.tablesForward_stays (s : State) (im : List Sys2Proof.Byte) (map : List MapEntry) (h0 : s.Stays fs s₀) (hM : [.objs, .doms, .mem, .owners, .olc, .str, .bdr, .fresh] ⊆ fs) :
    State.Stays (State.tablesForward s im map) fs s₀ := by
  unfold State.tablesForward
  repeat' first
    | with_reducible assumption | with_reducible exact List.Subset.trans (by decide) hM | intro _
    | (extract_lets +onlyGivenNames u; refine cut_goal (P := State.Stays u fs s₀) ?_ fun _ => ?_; (on_goal 2 => clear_value u); (on_goal 1 => (unfold u; clear u)))
    | (extract_lets +onlyGivenNames u; clear_value u) | with_reducible apply State.applyTables_stays
    | with_reducible apply State.keepTables_stays | with_reducible apply State.setOlc_stays
    | with_reducible apply State.setDom_stays | with_reducible apply State.devRecord_stays
    | with_reducible apply State.with_str

theorem State.tablesBack_stays (s : State) (h0 : s.Stays fs s₀) (hM : [.objs, .doms, .mem, .owners, .olc, .str, .bdr, .fresh] ⊆ fs) :
    State.Stays (State.tablesBack s) fs s₀ := by
  unfold State.tablesBack
  repeat' first
    | with_reducible assumption | with_reducible exact List.Subset.trans (by decide) hM | intro _
    | (extract_lets +onlyGivenNames u; refine cut_goal (P := State.Stays u fs s₀) ?_ fun _ => ?_; (on_goal 2 => clear_value u); (on_goal 1 => (unfold u; clear u)))
    | (extract_lets +onlyGivenNames u; clear_value u) | with_reducible apply State.setDom_stays
    | with_reducible apply State.restoreTables_stays | with_reducible apply State.setOlc_stays
    | with_reducible apply State.devRecord_stays
    | with_reducible apply State.with_str

theorem State.olcFinish_stays (s : State) (im : List Sys2Proof.Byte) (map : List MapEntry) (back : Bool) (h0 : s.Stays fs s₀) (hM : [.olc] ⊆ fs) :
    State.Stays (State.olcFinish s im map back) fs s₀ :=
  State.with_olc _ h0 hM

theorem State.olcComplete_stays (s : State) (h0 : s.Stays fs s₀) (hM : [.objs, .doms, .mem, .owners, .sess, .ctxs, .cores, .tds, .tasks, .img, .olc, .str, .sent, .bdr, .flt, .sta, .fresh] ⊆ fs) :
    State.Stays (State.olcComplete s) fs s₀ := by
  unfold State.olcComplete
  repeat' first
    | with_reducible assumption | with_reducible exact List.Subset.trans (by decide) hM | intro _
    | (extract_lets +onlyGivenNames u; refine cut_goal (P := State.Stays u fs s₀) ?_ fun _ => ?_; (on_goal 2 => clear_value u); (on_goal 1 => (unfold u; clear u)))
    | (extract_lets +onlyGivenNames u; clear_value u) | with_reducible apply ite_stays
    | with_reducible apply State.tablesBack_stays | with_reducible apply State.tablesForward_stays
    | with_reducible apply State.orphanAll_stays | with_reducible apply State.disableLost_stays
    | with_reducible apply State.tasksAnew_stays | with_reducible apply State.releaseHeld_stays
    | with_reducible apply State.olcFinish_stays | with_reducible apply State.incOb_stays

theorem State.edgeInitsOf_stays (s : State) (t : Nat) (h0 : s.Stays fs s₀) (hM : [.objs, .mem, .ecc, .cores, .img, .olc, .bdr] ⊆ fs) :
    State.Stays (State.edgeInitsOf s t) fs s₀ := by
  unfold State.edgeInitsOf
  repeat' first
    | with_reducible assumption | with_reducible exact List.Subset.trans (by decide) hM | intro _ | (extract_lets +onlyGivenNames u; clear_value u) | with_reducible apply ite_stays
    | with_reducible apply State.setOlc_stays | with_reducible apply State.each_stays
    | with_reducible apply State.edgeInit_stays

theorem State.askerAborted_stays (s : State) (h0 : s.Stays fs s₀) (hM : [.sess] ⊆ fs) :
    State.Stays (State.askerAborted s) fs s₀ := by
  unfold State.askerAborted
  repeat' first
    | with_reducible assumption | with_reducible exact List.Subset.trans (by decide) hM | intro _ | with_reducible apply State.setResult_stays 
     | dsimp only | split

theorem State.olcAbort_stays (s : State) (h0 : s.Stays fs s₀) (hM : [.objs, .mem, .sess, .ctxs, .cores, .tds, .tasks, .img, .olc, .str, .sent, .msgs, .bdr, .flt, .sta, .fresh] ⊆ fs) :
    State.Stays (State.olcAbort s) fs s₀ := by
  unfold State.olcAbort
  repeat' first
    | with_reducible assumption | with_reducible exact List.Subset.trans (by decide) hM | intro _ | with_reducible apply ite_stays | with_reducible apply State.setOlc_stays
    | with_reducible apply State.when_stays | with_reducible apply State.releaseHeld_stays
    | with_reducible apply State.olcResult_stays | with_reducible apply State.askerAborted_stays
    | with_reducible apply State.moorSend_stays

theorem State.olcRelease_stays (s : State) (h0 : s.Stays fs s₀) (hM : [.olc] ⊆ fs) :
    State.Stays (State.olcRelease s) fs s₀ := by
  unfold State.olcRelease
  repeat' first
    | with_reducible assumption | with_reducible exact List.Subset.trans (by decide) hM | intro _
    | with_reducible apply State.olcResult_stays | with_reducible apply State.setOlc_stays

theorem State.olcCmd_stays (s : State) (ses v : Nat) (h0 : s.Stays fs s₀) (hM : [.objs, .doms, .mem, .sess, .ctxs, .cores, .tds, .tasks, .img, .olc, .str, .sent, .msgs, .bdr, .flt, .sta, .fresh] ⊆ fs) :
    State.Stays (State.olcCmd s ses v) fs s₀ := by
  unfold State.olcCmd
  repeat' first
    | with_reducible assumption | with_reducible exact List.Subset.trans (by decide) hM | intro _ | with_reducible apply State.olcLoad_stays
    | with_reducible apply State.olcResult_stays | with_reducible apply State.setOlc_stays
    | with_reducible apply State.askVotes_stays | with_reducible apply State.beginCommit_stays
    | with_reducible apply State.olcAbort_stays | with_reducible apply State.olcRelease_stays 
     | dsimp only | split

theorem State.olcRefused_stays (s : State) (v : Nat) (h0 : s.Stays fs s₀) (hM : [.objs, .olc] ⊆ fs) :
    State.Stays (State.olcRefused s v) fs s₀ := by
  unfold State.olcRefused
  repeat' first
    | with_reducible assumption | with_reducible exact List.Subset.trans (by decide) hM | intro _
    | (extract_lets +onlyGivenNames u; refine cut_goal (P := State.Stays u fs s₀) ?_ fun _ => ?_; (on_goal 2 => clear_value u); (on_goal 1 => (unfold u; clear u)))
    | (extract_lets +onlyGivenNames u; clear_value u) | with_reducible apply ite_stays
    | with_reducible apply State.setOb_stays | with_reducible apply State.olcResult_stays

theorem State.setPwr_stays (s : State) (f : Pwr → Pwr) (h0 : s.Stays fs s₀) (hM : [.pwr] ⊆ fs) :
    State.Stays (State.setPwr s f) fs s₀ :=
  State.with_pwr _ h0 hM

theorem State.dropObjs_stays (s : State) (gone : Nat → Bool) (h0 : s.Stays fs s₀) (hM : [.objs, .doms] ⊆ fs) :
    State.Stays (State.dropObjs s gone) fs s₀ :=
  State.with_objs_doms _ _ h0 hM

theorem State.clearStrand_stays (s : State) (n : Nat) (h0 : s.Stays fs s₀)
    (hM : [.mem, .ecc, .ctxs, .cores, .retAt, .olc, .wdg] ⊆ fs) : State.Stays (State.clearStrand s n) fs s₀ where
  same f := (h0.same f).elim .inl fun hf => by cases f <;> first | exact .inl (hM (by decide)) | exact .inr hf
  canonical hc := mwf_filter _ (h0.canonical hc)
  drives := h0.drives

/-- What a domain that goes off loses: the field network's state and packet buffers. -/
theorem State.lostNw_stays {s : State} (p : Host.Cell → Bool) (x : Hnw) (h : s.Stays fs s₀) (hM : [.mem, .hnw] ⊆ fs) :
    State.Stays { s with mem := s.mem.filter p, hnw := x } fs s₀ where
  same f := (h.same f).elim .inl fun hf => by cases f <;> first | exact .inl (hM (by decide)) | exact .inr hf
  canonical hc := mwf_filter _ (h.canonical hc)
  drives := h.drives

theorem State.domClear_stays (s : State) (d : Nat) (h0 : s.Stays fs s₀) (hM : [.objs, .doms, .mem, .ecc, .ctxs, .cores, .retAt, .olc, .hnw, .role, .pair, .grant, .link, .sent, .msgs, .own, .repl, .wit, .red, .fio, .mbc, .dma, .bdr, .wdg] ⊆ fs) :
    State.Stays (State.domClear s d) fs s₀ := by
  unfold State.domClear
  extract_lets u
  have hu : u.Stays fs s₀ := State.dropObjs_stays _ _ h0 (Field.within hM (by decide))
  clear_value u
  repeat' split
  · exact State.clearStrand_stays _ _ hu (Field.within hM (by decide))
  · exact State.with_bdr _ hu (Field.within hM (by decide))
  · exact State.lostNw_stays _ _ hu (Field.within hM (by decide))
  · exact State.setRed_stays_wit (fun _ => State.reset.red) hu (by simp [State.reset]) (Field.within hM (by decide))
  · exact State.with_mbc _ hu (Field.within hM (by decide))
  · exact State.with_dma _ hu (Field.within hM (by decide))
  · exact State.with_fio _ hu (Field.within hM (by decide))
  · exact hu

theorem State.rebuilt_stays (s : State) (h0 : s.Stays fs s₀) (hM : Field.all ⊆ fs) : State.Stays (State.rebuilt s) fs s₀ where
  same f := .inl (hM (Field.mem_all f))
  canonical hc := mwf_filter _ (h0.canonical hc)
  drives _ := by simp [State.rebuilt, State.reset]

theorem State.packageReset_stays (s : State) (cause : Nat) (h0 : s.Stays fs s₀) (hM : Field.all ⊆ fs) :
    State.Stays (State.packageReset s cause) fs s₀ := by
  unfold State.packageReset
  repeat' first
    | with_reducible assumption | with_reducible exact List.Subset.trans (by decide) hM | intro _ | with_reducible apply ite_stays | with_reducible apply State.setOb_stays
    | with_reducible apply State.incOb_stays | with_reducible apply State.duesAnew_stays
    | with_reducible apply State.rebuilt_stays | with_reducible apply State.finishApply_stays

theorem State.powerUpAO_stays (s : State) (h0 : s.Stays fs s₀) (hM : Field.all ⊆ fs) : State.Stays (State.powerUpAO s) fs s₀ :=
  have hr := State.rebuilt_stays _ (State.finishApply_stays _ h0 (Field.within hM (by decide))) hM
  { same := fun f => .inl (hM (Field.mem_all f))
    canonical := fun hc => mwf_filter _ (hr.canonical hc)
    drives := hr.drives }

theorem State.setPwrReason_stays (s : State) (d r : Nat) (h0 : s.Stays fs s₀) (hM : [.pwr] ⊆ fs) :
    State.Stays (State.setPwrReason s d r) fs s₀ :=
  State.with_pwr _ h0 hM

theorem State.offRefused_stays (s : State) (d : Nat) (h0 : s.Stays fs s₀) (hM : [.objs, .pwr] ⊆ fs) :
    State.Stays (State.offRefused s d) fs s₀ := by
  unfold State.offRefused
  repeat' first
    | with_reducible assumption | with_reducible exact List.Subset.trans (by decide) hM | intro _
    | with_reducible apply State.incOb_stays | with_reducible apply State.setPwrReason_stays

theorem State.domCmd_stays (s : State) (d v : Nat) (h0 : s.Stays fs s₀) (hM : [.dma, .pwr] ⊆ fs) :
    State.Stays (State.domCmd s d v) fs s₀ := by
  unfold State.domCmd
  repeat' first
    | with_reducible assumption | with_reducible exact List.Subset.trans (by decide) hM | intro _ | with_reducible apply ite_stays | with_reducible apply State.setDomSt_stays
    | with_reducible apply State.dmaPdPause_stays  
    | dsimp only | split

theorem State.pdDrained_stays (s : State) (d : Nat) (h0 : s.Stays fs s₀) (hM : [.objs, .doms, .mem, .ecc, .ctxs, .cores, .retAt, .olc, .hnw, .role, .pair, .grant, .link, .sent, .msgs, .own, .repl, .wit, .red, .fio, .mbc, .dma, .bdr, .wdg, .pwr] ⊆ fs) :
    State.Stays (State.pdDrained s d) fs s₀ := by
  unfold State.pdDrained
  repeat' first
    | with_reducible assumption | with_reducible exact List.Subset.trans (by decide) hM | intro _ | with_reducible apply ite_stays | with_reducible apply State.domClear_stays
    | with_reducible apply State.setDomSt_stays

theorem State.pdTimeout_stays (s : State) (d : Nat) (h0 : s.Stays fs s₀) (hM : [.objs, .ntm, .dma, .pwr, .fresh] ⊆ fs) :
    State.Stays (State.pdTimeout s d) fs s₀ := by
  unfold State.pdTimeout
  repeat' first
    | with_reducible assumption | with_reducible exact List.Subset.trans (by decide) hM | intro _ | with_reducible apply ite_stays | with_reducible apply State.reachMono_stays | with_reducible apply State.incOb_stays
    | with_reducible apply State.setPwrReason_stays | with_reducible apply State.setDomSt_stays
    | with_reducible apply State.dmaPdRefuse_stays

theorem State.domOff_stays (s : State) (d : Nat) (h0 : s.Stays fs s₀) (hM : [.objs, .ntm, .pwr, .fresh] ⊆ fs) :
    State.Stays (State.domOff s d) fs s₀ := by
  unfold State.domOff
  repeat' first
    | with_reducible assumption | with_reducible exact List.Subset.trans (by decide) hM | intro _ | with_reducible apply ite_stays | with_reducible apply State.reachMono_stays | with_reducible apply State.setDomSt_stays

theorem State.domOnDone_stays (s : State) (d : Nat) (h0 : s.Stays fs s₀) (hM : [.objs, .ntm, .fio, .pwr, .fresh] ⊆ fs) :
    State.Stays (State.domOnDone s d) fs s₀ := by
  unfold State.domOnDone
  repeat' first
    | with_reducible assumption | with_reducible exact List.Subset.trans (by decide) hM | intro _
    | (extract_lets +onlyGivenNames u; refine cut_goal (P := State.Stays u fs s₀) ?_ fun _ => ?_; (on_goal 2 => clear_value u); (on_goal 1 => (unfold u; clear u)))
    | with_reducible apply ite_stays | with_reducible apply State.reachMono_stays | with_reducible apply State.setDomSt_stays | with_reducible apply State.setPwr_stays
    | with_reducible apply State.setFio_stays

theorem State.sleep_stays (s : State) (h0 : s.Stays fs s₀) (hM : Field.all ⊆ fs) :
    State.Stays (State.sleep s) fs s₀ := by
  unfold State.sleep
  extract_lets a b order d r
  have ha : a.Stays fs s₀ := State.fioPark_stays _ h0 (Field.within hM (by decide))
  clear_value a
  have hb : b.Stays fs s₀ := State.when_stays _ _ ha (State.fieldPark_stays _ ha (Field.within hM (by decide)))
  clear_value b
  have hd : d.Stays fs s₀ := State.each_stays _ _ hb (fun u x hu => State.setDomSt_stays _ _ _ (State.domClear_stays _ _ (State.finishApply_stays _ hu (Field.within hM (by decide))) (Field.within hM (by decide))) (Field.within hM (by decide)))
  clear_value d
  have hr : r.Stays fs s₀ := State.rebuilt_stays _ hd (Field.within hM (by decide))
  clear_value r
  refine State.duesAnew_stays _ ?_ (Field.within hM (by decide))
  exact { same := fun f => .inl (hM (Field.mem_all f))
          canonical := fun hc => mwf_filter _ (hr.canonical hc)
          drives := hd.drives }

theorem State.wakeUp_stays (s : State) (h0 : s.Stays fs s₀) (hM : Field.all ⊆ fs) :
    State.Stays (State.wakeUp s) fs s₀ := by
  unfold State.wakeUp
  repeat' first
    | with_reducible assumption | with_reducible exact List.Subset.trans (by decide) hM | intro _ | with_reducible apply ite_stays | with_reducible apply State.packageReset_stays

theorem State.setStr_stays (s : State) (f : Str → Str) (h0 : s.Stays fs s₀) (hM : [.str] ⊆ fs) :
    State.Stays (State.setStr s f) fs s₀ :=
  State.with_str _ h0 hM

theorem State.readStartCfg_stays (s : State) (h0 : s.Stays fs s₀) (hM : [.objs] ⊆ fs) :
    State.Stays (State.readStartCfg s) fs s₀ := by
  unfold State.readStartCfg
  repeat' first
    | with_reducible assumption | with_reducible exact List.Subset.trans (by decide) hM | intro _
    | with_reducible apply ite_stays | with_reducible apply State.each_stays | with_reducible apply State.setOb_stays

theorem State.retain_stays (s : State) (key : Nat) (h0 : s.Stays fs s₀) (hM : [.objs, .mem, .str, .bdr, .fresh] ⊆ fs) :
    State.Stays (State.retain s key) fs s₀ := by
  unfold State.retain
  repeat' first
    | with_reducible assumption | with_reducible exact List.Subset.trans (by decide) hM | intro _ | with_reducible apply ite_stays | with_reducible apply State.devRecord_stays
    | with_reducible apply State.setStr_stays

theorem State.retainDom_stays (s : State) (key : Nat) (h0 : s.Stays fs s₀) (hM : [.objs, .mem, .str, .bdr, .fresh] ⊆ fs) :
    State.Stays (State.retainDom s key) fs s₀ := by
  unfold State.retainDom
  repeat' first
    | with_reducible assumption | with_reducible exact List.Subset.trans (by decide) hM | intro _ | with_reducible apply ite_stays | with_reducible apply State.devRecord_stays
    | with_reducible apply State.setStr_stays

theorem State.keepOb_stays (s : State) (key v : Nat) (h0 : s.Stays fs s₀) (hM : [.objs, .mem, .str, .bdr, .fresh] ⊆ fs) :
    State.Stays (State.keepOb s key v) fs s₀ := by
  unfold State.keepOb
  repeat' first
    | with_reducible assumption | with_reducible exact List.Subset.trans (by decide) hM | intro _ | with_reducible apply State.retain_stays | with_reducible apply State.setOb_stays

theorem State.modAttempt_stays (s : State) (f : Attempt → Attempt) (h0 : s.Stays fs s₀) (hM : [.objs, .mem, .str, .bdr, .fresh] ⊆ fs) :
    State.Stays (State.modAttempt s f) fs s₀ := by
  unfold State.modAttempt
  repeat' first
    | with_reducible assumption | with_reducible exact List.Subset.trans (by decide) hM | intro _ | with_reducible apply State.setStr_stays
    | with_reducible apply State.devRecord_stays

theorem State.atStep_stays (s : State) (n : Nat) (h0 : s.Stays fs s₀) (hM : [.objs, .mem, .str, .bdr, .fresh] ⊆ fs) :
    State.Stays (State.atStep s n) fs s₀ := by
  unfold State.atStep
  repeat' first
    | with_reducible assumption | with_reducible exact List.Subset.trans (by decide) hM | intro _ | with_reducible apply State.modAttempt_stays
    | with_reducible apply State.setStr_stays

theorem State.serviceStop_stays (s : State) (h0 : s.Stays fs s₀) (hM : [.objs, .ctxs, .tds, .tasks] ⊆ fs) :
    State.Stays (State.serviceStop s) fs s₀ := by
  unfold State.serviceStop
  repeat' first
    | with_reducible assumption | with_reducible exact List.Subset.trans (by decide) hM | intro _
    | (extract_lets +onlyGivenNames u; refine cut_goal (P := State.Stays u fs s₀) ?_ fun _ => ?_; (on_goal 2 => clear_value u); (on_goal 1 => (unfold u; clear u)))
    | (extract_lets +onlyGivenNames u; clear_value u) | with_reducible apply State.toTide_stays
    | with_reducible apply State.each_stays | with_reducible apply State.modCtx_stays
    | with_reducible apply State.with_tds_tasks

theorem State.toService_stays (s : State) (reason : Nat) (h0 : s.Stays fs s₀) (hM : [.objs, .mem, .ctxs, .tds, .tasks, .str, .bdr, .fresh] ⊆ fs) :
    State.Stays (State.toService s reason) fs s₀ := by
  unfold State.toService
  repeat' first
    | with_reducible assumption | with_reducible exact List.Subset.trans (by decide) hM | intro _ | with_reducible apply State.serviceStop_stays
    | with_reducible apply State.modAttempt_stays | with_reducible apply State.setStr_stays

theorem State.startPower_stays (s : State) (h0 : s.Stays fs s₀) (hM : [.objs, .mem, .str, .role, .pair, .grant, .link, .sent, .msgs, .own, .repl, .wit, .red, .bdr, .pwr] ⊆ fs) :
    State.Stays (State.startPower s) fs s₀ := by
  unfold State.startPower
  repeat' first
    | with_reducible assumption | with_reducible exact List.Subset.trans (by decide) hM | intro _
    | (extract_lets +onlyGivenNames u; refine cut_goal (P := State.Stays u fs s₀) ?_ fun _ => ?_; (on_goal 2 => clear_value u); (on_goal 1 => (unfold u; clear u)))
    | with_reducible apply State.setPwr_stays | with_reducible apply State.setStr_stays
    | with_reducible apply State.witBoot_stays | with_reducible apply State.readStartCfg_stays
    | with_reducible apply State.recoverJournal_stays

theorem State.startRecord_stays (s : State) (typ : Nat) (h0 : s.Stays fs s₀) (hM : [.objs, .mem, .ctxs, .str, .bdr, .fresh] ⊆ fs) :
    State.Stays (State.startRecord s typ) fs s₀ := by
  unfold State.startRecord
  repeat' first
    | with_reducible assumption | with_reducible exact List.Subset.trans (by decide) hM | intro _
    | (extract_lets +onlyGivenNames u; refine cut_goal (P := State.Stays u fs s₀) ?_ fun _ => ?_; (on_goal 2 => clear_value u); (on_goal 1 => (unfold u; clear u)))
    | with_reducible apply ite_stays | with_reducible apply State.devRecord_stays | with_reducible apply State.setOb_stays
    | with_reducible apply State.incOb_stays | with_reducible apply State.setStr_stays

theorem State.startLimit_stays (s : State) (h0 : s.Stays fs s₀) (hM : [.objs, .mem, .ctxs, .tds, .tasks, .str, .bdr, .fresh] ⊆ fs) :
    State.Stays (State.startLimit s) fs s₀ := by
  unfold State.startLimit
  repeat' first
    | with_reducible assumption | with_reducible exact List.Subset.trans (by decide) hM | intro _ | with_reducible apply ite_stays | with_reducible apply State.modAttempt_stays
    | with_reducible apply State.setStr_stays | with_reducible apply State.toService_stays

theorem State.placeImage_stays (s : State) (b : List Sys2Proof.Byte) (h0 : s.Stays fs s₀) (hM : [.mem, .olc] ⊆ fs) :
    State.Stays (State.placeImage s b) fs s₀ := by
  unfold State.placeImage
  repeat' first
    | with_reducible assumption | with_reducible exact List.Subset.trans (by decide) hM | intro _
    | (extract_lets +onlyGivenNames u; refine cut_goal (P := State.Stays u fs s₀) ?_ fun _ => ?_; (on_goal 2 => clear_value u); (on_goal 1 => (unfold u; clear u)))
    | (extract_lets +onlyGivenNames u; clear_value u) | with_reducible apply ite_stays | with_reducible apply State.each_stays
    | with_reducible apply State.putBytes_stays | with_reducible apply State.clearMem_stays
    | with_reducible apply State.setOlc_stays | with_reducible apply State.foldl_stays

theorem State.releaseKeeper_stays (s : State) (h0 : s.Stays fs s₀) (hM : [.ctxs, .str] ⊆ fs) :
    State.Stays (State.releaseKeeper s) fs s₀ := by
  unfold State.releaseKeeper
  repeat' first
    | with_reducible assumption | with_reducible exact List.Subset.trans (by decide) hM | intro _ | (extract_lets +onlyGivenNames u; clear_value u)
    | with_reducible apply State.setStr_stays | with_reducible apply State.resched_stays
    | with_reducible apply State.setCtx_stays

theorem State.startImage_stays (s : State) (h0 : s.Stays fs s₀) (hM : [.objs, .doms, .mem, .owners, .ctxs, .tds, .tasks, .olc, .str, .bdr, .fresh] ⊆ fs) :
    State.Stays (State.startImage s) fs s₀ := by
  unfold State.startImage
  repeat' first
    | with_reducible assumption | with_reducible exact List.Subset.trans (by decide) hM | intro _
    | (extract_lets +onlyGivenNames u; refine cut_goal (P := State.Stays u fs s₀) ?_ fun _ => ?_; (on_goal 2 => clear_value u); (on_goal 1 => (unfold u; clear u)))
    | (extract_lets +onlyGivenNames u; clear_value u) | with_reducible apply ite_stays
    | with_reducible apply State.atStep_stays | with_reducible apply State.setOb_stays | with_reducible apply State.addOb_stays
    | with_reducible apply State.when_stays | with_reducible apply State.placeImage_stays
    | with_reducible apply State.toService_stays | with_reducible apply State.setDom_stays
    | with_reducible apply State.devRecord_stays | with_reducible apply State.modAttempt_stays
    | with_reducible apply State.applyTables_stays | with_reducible apply State.setOlc_stays
    | with_reducible apply State.releaseKeeper_stays

theorem State.initCells_stays (s : State) (b : List Sys2Proof.Byte) (n : Nat) (h0 : s.Stays fs s₀) (hM : [.mem] ⊆ fs) :
    State.Stays (State.initCells s b n) fs s₀ := by
  unfold State.initCells
  repeat' first
    | with_reducible assumption | with_reducible exact List.Subset.trans (by decide) hM | intro _ | (extract_lets +onlyGivenNames u; clear_value u) | with_reducible apply ite_stays
    | with_reducible apply State.each_stays | with_reducible apply State.clearMem_stays
    | with_reducible apply State.putBytes_stays

theorem State.warmCell_stays (s : State) (a mode : Nat) (h0 : s.Stays fs s₀) (hM : [.mem] ⊆ fs) :
    State.Stays (State.warmCell s a mode) fs s₀ := by
  unfold State.warmCell
  repeat' first
    | with_reducible assumption | with_reducible exact List.Subset.trans (by decide) hM | intro _ | (extract_lets +onlyGivenNames u; clear_value u) | with_reducible apply ite_stays
    | with_reducible apply State.setCell_stays

theorem State.restoreTimers_stays (s : State) (n : Nat) (h0 : s.Stays fs s₀) (hM : [.mem] ⊆ fs) :
    State.Stays (State.restoreTimers s n) fs s₀ := by
  unfold State.restoreTimers
  repeat' first
    | with_reducible assumption | with_reducible exact List.Subset.trans (by decide) hM | intro _
    | (extract_lets +onlyGivenNames u; refine cut_goal (P := State.Stays u fs s₀) ?_ fun _ => ?_; (on_goal 2 => clear_value u); (on_goal 1 => (unfold u; clear u)))
    | (extract_lets +onlyGivenNames u; clear_value u) | with_reducible apply ite_stays | with_reducible apply State.blit_stays
    | with_reducible apply State.each_stays | with_reducible apply State.warmCell_stays

theorem State.startEdges_stays (s : State) (warm : Bool) (h0 : s.Stays fs s₀) (hM : [.olc] ⊆ fs) :
    State.Stays (State.startEdges s warm) fs s₀ :=
  State.with_olc _ h0 hM

theorem State.retainWarm_stays (s : State) (h0 : s.Stays fs s₀) (hM : [.objs, .doms, .mem, .img, .olc] ⊆ fs) :
    State.Stays (State.retainWarm s) fs s₀ := by
  unfold State.retainWarm
  repeat' first
    | with_reducible assumption | with_reducible exact List.Subset.trans (by decide) hM | intro _
    | (extract_lets +onlyGivenNames u; refine cut_goal (P := State.Stays u fs s₀) ?_ fun _ => ?_; (on_goal 2 => clear_value u); (on_goal 1 => (unfold u; clear u)))
    | with_reducible apply State.each_stays | with_reducible apply State.setOb_stays | with_reducible apply State.setDom_stays
    | with_reducible apply State.setImg_stays | with_reducible apply State.startEdges_stays
    | with_reducible apply State.restoreTimers_stays | with_reducible apply State.initCells_stays
    | with_reducible apply State.with_objs_doms

theorem State.retainCold_stays (s : State) (h0 : s.Stays fs s₀) (hM : [.objs, .doms, .mem, .img, .olc, .str] ⊆ fs) :
    State.Stays (State.retainCold s) fs s₀ := by
  unfold State.retainCold
  repeat' first
    | with_reducible assumption | with_reducible exact List.Subset.trans (by decide) hM | intro _
    | (extract_lets +onlyGivenNames u; refine cut_goal (P := State.Stays u fs s₀) ?_ fun _ => ?_; (on_goal 2 => clear_value u); (on_goal 1 => (unfold u; clear u)))
    | with_reducible apply State.setImg_stays | with_reducible apply State.startEdges_stays
    | with_reducible apply State.each_stays | with_reducible apply State.initCells_stays
    | with_reducible apply State.setStr_stays
    | with_reducible apply State.with_objs_doms

theorem State.startRetain_stays (s : State) (h0 : s.Stays fs s₀) (hM : [.objs, .doms, .mem, .ctxs, .tds, .tasks, .img, .olc, .str, .bdr, .fresh] ⊆ fs) :
    State.Stays (State.startRetain s) fs s₀ := by
  unfold State.startRetain
  repeat' first
    | with_reducible assumption | with_reducible exact List.Subset.trans (by decide) hM | intro _
    | (extract_lets +onlyGivenNames u; refine cut_goal (P := State.Stays u fs s₀) ?_ fun _ => ?_; (on_goal 2 => clear_value u); (on_goal 1 => (unfold u; clear u)))
    | with_reducible apply ite_stays | with_reducible apply State.atStep_stays | with_reducible apply State.retainCold_stays
    | with_reducible apply State.retainWarm_stays | with_reducible apply State.modAttempt_stays
    | with_reducible apply State.setStr_stays | with_reducible apply State.toService_stays

theorem State.startTide_stays (s : State) (h0 : s.Stays fs s₀) (hM : [.objs, .mem, .ctxs, .tds, .tasks, .img, .str, .fio, .bdr, .flt, .fresh] ⊆ fs) :
    State.Stays (State.startTide s) fs s₀ := by
  unfold State.startTide
  repeat' first
    | with_reducible assumption | with_reducible exact List.Subset.trans (by decide) hM | intro _
    | (extract_lets +onlyGivenNames u; refine cut_goal (P := State.Stays u fs s₀) ?_ fun _ => ?_; (on_goal 2 => clear_value u); (on_goal 1 => (unfold u; clear u)))
    | with_reducible apply ite_stays | with_reducible apply State.atStep_stays | with_reducible apply State.fioOverlap_stays
    | with_reducible apply State.tideStart_stays | with_reducible apply State.setOb_stays

theorem State.startPair_stays (s : State) (h0 : s.Stays fs s₀) (hM : [.objs, .mem, .ctxs, .tds, .tasks, .img, .str, .fio, .bdr, .flt, .fresh] ⊆ fs) :
    State.Stays (State.startPair s) fs s₀ := by
  unfold State.startPair
  repeat' first
    | with_reducible assumption | with_reducible exact List.Subset.trans (by decide) hM | intro _ | with_reducible apply ite_stays | with_reducible apply State.startTide_stays

theorem State.startJoin_stays (s : State) (h0 : s.Stays fs s₀) (hM : [.objs, .mem, .ctxs, .tds, .tasks, .img, .str, .role, .red, .fio, .bdr, .flt, .fresh] ⊆ fs) :
    State.Stays (State.startJoin s) fs s₀ := by
  unfold State.startJoin
  repeat' first
    | with_reducible assumption | with_reducible exact List.Subset.trans (by decide) hM | intro _
    | (extract_lets +onlyGivenNames u; refine cut_goal (P := State.Stays u fs s₀) ?_ fun _ => ?_; (on_goal 2 => clear_value u); (on_goal 1 => (unfold u; clear u)))
    | with_reducible apply ite_stays | with_reducible apply State.atStep_stays | with_reducible apply State.startPair_stays
    | with_reducible apply State.drillArm_stays | with_reducible apply State.joinGrant_stays
    | with_reducible apply State.when_stays | with_reducible apply State.setRole_stays
    | with_reducible apply State.startTide_stays

theorem State.startGoOn_stays (s : State) (h0 : s.Stays fs s₀) (hM : [.objs, .doms, .mem, .ctxs, .tds, .tasks, .img, .olc, .str, .role, .red, .fio, .bdr, .flt, .fresh] ⊆ fs) :
    State.Stays (State.startGoOn s) fs s₀ := by
  unfold State.startGoOn
  repeat' first
    | with_reducible assumption | with_reducible exact List.Subset.trans (by decide) hM | intro _
    | (extract_lets +onlyGivenNames u; refine cut_goal (P := State.Stays u fs s₀) ?_ fun _ => ?_; (on_goal 2 => clear_value u); (on_goal 1 => (unfold u; clear u)))
    | with_reducible apply ite_stays | with_reducible apply State.startRetain_stays
    | with_reducible apply State.startJoin_stays

theorem State.startRun_stays (s : State) (cold : Bool) (h0 : s.Stays fs s₀) (hM : [.objs, .doms, .mem, .owners, .ctxs, .tds, .tasks, .img, .olc, .str, .role, .pair, .grant, .link, .sent, .msgs, .own, .repl, .wit, .red, .fio, .bdr, .flt, .pwr, .fresh] ⊆ fs) :
    State.Stays (State.startRun s cold) fs s₀ := by
  unfold State.startRun
  repeat' first
    | with_reducible assumption | with_reducible exact List.Subset.trans (by decide) hM | intro _
    | (extract_lets +onlyGivenNames u; refine cut_goal (P := State.Stays u fs s₀) ?_ fun _ => ?_; (on_goal 2 => clear_value u); (on_goal 1 => (unfold u; clear u)))
    | with_reducible apply ite_stays | with_reducible apply State.startPower_stays
    | with_reducible apply State.startLimit_stays | with_reducible apply State.startRecord_stays
    | with_reducible apply State.atStep_stays | with_reducible apply State.toService_stays
    | with_reducible apply State.startImage_stays | with_reducible apply State.startGoOn_stays

theorem State.timeLocked_stays (s : State) (h0 : s.Stays fs s₀) (hM : [.objs, .doms, .mem, .ctxs, .tds, .tasks, .img, .olc, .str, .role, .red, .fio, .bdr, .flt, .fresh] ⊆ fs) :
    State.Stays (State.timeLocked s) fs s₀ := by
  unfold State.timeLocked
  repeat' first
    | with_reducible assumption | with_reducible exact List.Subset.trans (by decide) hM | intro _ | with_reducible apply ite_stays | with_reducible apply State.startGoOn_stays

theorem State.timeExpired_stays (s : State) (h0 : s.Stays fs s₀) (hM : [.objs, .doms, .mem, .ctxs, .tds, .tasks, .img, .olc, .str, .role, .red, .fio, .bdr, .flt, .fresh] ⊆ fs) :
    State.Stays (State.timeExpired s) fs s₀ := by
  unfold State.timeExpired
  repeat' first
    | with_reducible assumption | with_reducible exact List.Subset.trans (by decide) hM | intro _ | with_reducible apply ite_stays | with_reducible apply State.startGoOn_stays
    | with_reducible apply State.setStr_stays | with_reducible apply State.toService_stays

theorem State.startConfirm_stays (s : State) (h0 : s.Stays fs s₀) (hM : [.objs, .mem, .ctxs, .str, .ntm, .bdr, .fresh] ⊆ fs) :
    State.Stays (State.startConfirm s) fs s₀ := by
  unfold State.startConfirm
  repeat' first
    | with_reducible assumption | with_reducible exact List.Subset.trans (by decide) hM | intro _ | with_reducible apply ite_stays | with_reducible apply State.modAttempt_stays
    | with_reducible apply State.reachMono_stays

theorem State.stopAll_stays (s : State) (h0 : s.Stays fs s₀) (hM : [.ctxs, .cores, .tds, .tasks, .img, .olc] ⊆ fs) :
    State.Stays (State.stopAll s) fs s₀ :=
  h0.put (fun f => by cases f <;> first | exact .inl (hM (by decide)) | exact .inr rfl) rfl rfl

theorem State.strCmd_stays (s : State) (v : Nat) (h0 : s.Stays fs s₀) (hM : [.objs, .doms, .mem, .owners, .ctxs, .cores, .tds, .tasks, .img, .olc, .str, .role, .pair, .grant, .link, .sent, .msgs, .own, .repl, .wit, .red, .fio, .bdr, .flt, .pwr, .fresh] ⊆ fs) :
    State.Stays (State.strCmd s v) fs s₀ := by
  unfold State.strCmd
  repeat' first
    | with_reducible assumption | with_reducible exact List.Subset.trans (by decide) hM | intro _ | with_reducible apply ite_stays | with_reducible apply State.setStr_stays
    | with_reducible apply State.startRun_stays | with_reducible apply State.stopAll_stays 
     | dsimp only | split

theorem State.provision_stays (s : State) (b : List Sys2Proof.Byte) (h0 : s.Stays fs s₀) (hM : [.str] ⊆ fs) :
    State.Stays (State.provision s b) fs s₀ :=
  State.with_str _ h0 hM

theorem State.bwWindow_stays (s : State) (v : Nat) (h0 : s.Stays fs s₀) (hM : [.objs, .pmc] ⊆ fs) :
    State.Stays (State.bwWindow s v) fs s₀ := by
  unfold State.bwWindow
  repeat' first
    | with_reducible assumption | with_reducible exact List.Subset.trans (by decide) hM | intro _
    | (extract_lets +onlyGivenNames u; refine cut_goal (P := State.Stays u fs s₀) ?_ fun _ => ?_; (on_goal 2 => clear_value u); (on_goal 1 => (unfold u; clear u)))
    | (extract_lets +onlyGivenNames u; clear_value u) | with_reducible apply State.setOb_stays | dsimp only | split
    | with_reducible apply State.with_pmc

theorem State.strataRead_stays (s : State) (n : Nat) (h0 : s.Stays fs s₀) (hM : [.sess] ⊆ fs) :
    State.Stays (State.strataRead s n).1 fs s₀ := by
  unfold State.strataRead
  repeat' first
    | with_reducible assumption | with_reducible exact List.Subset.trans (by decide) hM | intro _ | (extract_lets +onlyGivenNames u; clear_value u) | with_reducible apply_assumption
    | with_reducible apply State.setSes_stays | with_reducible apply State.setResult_stays | with_reducible apply foldl_stays1
      | dsimp only | split

theorem State.setSta_stays (s : State) (f : Sta2 → Sta2) (h0 : s.Stays fs s₀) (hM : [.sta] ⊆ fs) :
    State.Stays (State.setSta s f) fs s₀ :=
  State.with_sta _ h0 hM

theorem State.strataFreeze_stays (s : State) (h0 : s.Stays fs s₀) (hM : [.sta] ⊆ fs) :
    State.Stays (State.strataFreeze s) fs s₀ :=
  State.with_sta _ h0 hM

theorem State.strataThaw_stays (s : State) (h0 : s.Stays fs s₀) (hM : [.sta] ⊆ fs) :
    State.Stays (State.strataThaw s) fs s₀ := by
  unfold State.strataThaw
  repeat' first
    | with_reducible assumption | with_reducible exact List.Subset.trans (by decide) hM | intro _ | with_reducible apply ite_stays | with_reducible apply State.setSta_stays

theorem State.freezeEnd_stays (s : State) (h0 : s.Stays fs s₀) (hM : [.objs, .ntm, .sta, .fresh] ⊆ fs) :
    State.Stays (State.freezeEnd s) fs s₀ := by
  unfold State.freezeEnd
  repeat' first
    | with_reducible assumption | with_reducible exact List.Subset.trans (by decide) hM | intro _ | with_reducible apply ite_stays | with_reducible apply State.setSta_stays
    | with_reducible apply State.strataThaw_stays | with_reducible apply State.reachMono_stays

theorem State.setSnp_stays (s : State) (f : Snp → Snp) (h0 : s.Stays fs s₀) (hM : [.snp] ⊆ fs) :
    State.Stays (State.setSnp s f) fs s₀ :=
  State.with_snp _ h0 hM

theorem State.setSnap_stays (s : State) (b : Nat) (x : Option Snap) (h0 : s.Stays fs s₀) (hM : [.snp] ⊆ fs) :
    State.Stays (State.setSnap s b x) fs s₀ :=
  State.with_snp _ h0 hM

theorem State.putSnap_stays (s : State) (b : Nat) (x : Snap) (h0 : s.Stays fs s₀) (hM : [.mem, .ecc, .snp] ⊆ fs) :
    State.Stays (State.putSnap s b x) fs s₀ := by
  unfold State.putSnap
  repeat' first
    | with_reducible assumption | with_reducible exact List.Subset.trans (by decide) hM | intro _ | with_reducible apply State.sramWrite_stays
    | with_reducible apply State.setSnap_stays

theorem State.tidemarkStart_stays (s : State) (source cls fold : Nat) (h0 : s.Stays fs s₀) (hM : [.objs, .mem, .ecc, .snp] ⊆ fs) :
    State.Stays (State.tidemarkStart s source cls fold) fs s₀ := by
  unfold State.tidemarkStart
  repeat' first
    | with_reducible assumption | with_reducible exact List.Subset.trans (by decide) hM | intro _
    | (extract_lets +onlyGivenNames u; refine cut_goal (P := State.Stays u fs s₀) ?_ fun _ => ?_; (on_goal 2 => clear_value u); (on_goal 1 => (unfold u; clear u)))
    | (extract_lets +onlyGivenNames u; clear_value u) | with_reducible apply State.incOb_stays
    | with_reducible apply State.setOb_stays | with_reducible apply State.setSnp_stays
    | with_reducible apply State.putSnap_stays

theorem State.tidemark_stays (s : State) (source cls fold : Nat) (h0 : s.Stays fs s₀) (hM : [.objs, .mem, .ecc, .snp] ⊆ fs) :
    State.Stays (State.tidemark s source cls fold) fs s₀ := by
  unfold State.tidemark
  repeat' first
    | with_reducible assumption | with_reducible exact List.Subset.trans (by decide) hM | intro _
    | (extract_lets +onlyGivenNames u; refine cut_goal (P := State.Stays u fs s₀) ?_ fun _ => ?_; (on_goal 2 => clear_value u); (on_goal 1 => (unfold u; clear u)))
    | with_reducible apply ite_stays | with_reducible apply State.incOb_stays | with_reducible apply State.putSnap_stays
    | with_reducible apply State.tidemarkStart_stays  
    | dsimp only | split

theorem State.snapCheck_stays (s : State) (b : Nat) (h0 : s.Stays fs s₀) (hM : [.objs, .mem, .ecc, .snp] ⊆ fs) :
    State.Stays (State.snapCheck s b) fs s₀ := by
  unfold State.snapCheck
  repeat' first
    | with_reducible assumption | with_reducible exact List.Subset.trans (by decide) hM | intro _ | with_reducible apply ite_stays | with_reducible apply State.setSnp_stays
    | with_reducible apply State.putSnap_stays | with_reducible apply State.when_stays | with_reducible apply State.incOb_stays
      | dsimp only | split

theorem State.tidemarkAck_stays (s : State) (die : Nat) (h0 : s.Stays fs s₀) (hM : [.objs, .mem, .ecc, .snp] ⊆ fs) :
    State.Stays (State.tidemarkAck s die) fs s₀ := by
  unfold State.tidemarkAck
  repeat' first
    | with_reducible assumption | with_reducible exact List.Subset.trans (by decide) hM | intro _ | with_reducible apply ite_stays | with_reducible apply State.snapCheck_stays
    | with_reducible apply State.putSnap_stays   | dsimp only
    | split

theorem State.tidemarkLost_stays (s : State) (die : Nat) (h0 : s.Stays fs s₀) (hM : [.objs, .mem, .ecc, .flt, .snp] ⊆ fs) :
    State.Stays (State.tidemarkLost s die) fs s₀ := by
  unfold State.tidemarkLost
  repeat' first
    | with_reducible assumption | with_reducible exact List.Subset.trans (by decide) hM | intro _ | with_reducible apply ite_stays | with_reducible apply State.snapCheck_stays
    | with_reducible apply State.putSnap_stays | with_reducible apply State.raise_stays 
     | dsimp only | split

theorem State.sectionIn_stays (s : State) (die island : Nat) (content : List Sys2Proof.Byte) (h0 : s.Stays fs s₀) (hM : [.mem, .ecc, .snp] ⊆ fs) :
    State.Stays (State.sectionIn s die island content) fs s₀ := by
  unfold State.sectionIn
  repeat' first
    | with_reducible assumption | with_reducible exact List.Subset.trans (by decide) hM | intro _ | with_reducible apply ite_stays | with_reducible apply State.putSnap_stays
      | dsimp only | split

theorem State.freeBuf_stays (s : State) (b : Nat) (h0 : s.Stays fs s₀) (hM : [.snp] ⊆ fs) :
    State.Stays (State.freeBuf s b) fs s₀ := by
  unfold State.freeBuf
  repeat' first
    | with_reducible assumption | with_reducible exact List.Subset.trans (by decide) hM | intro _ | with_reducible apply ite_stays | with_reducible apply State.setSnap_stays
      | dsimp only | split

theorem State.snpRelease_stays (s : State) (n : Nat) (h0 : s.Stays fs s₀) (hM : [.snp] ⊆ fs) :
    State.Stays (State.snpRelease s n) fs s₀ := by
  unfold State.snpRelease
  repeat' first
    | with_reducible assumption | with_reducible exact List.Subset.trans (by decide) hM | intro _ | with_reducible apply State.freeBuf_stays 
     | dsimp only | split

theorem State.snpReleaseAll_stays (s : State) (h0 : s.Stays fs s₀) (hM : [.snp] ⊆ fs) :
    State.Stays (State.snpReleaseAll s) fs s₀ := by
  unfold State.snpReleaseAll
  repeat' first
    | with_reducible assumption | with_reducible exact List.Subset.trans (by decide) hM | intro _ | with_reducible apply State.each_stays | with_reducible apply State.freeBuf_stays

theorem State.snpAt_stays (s : State) (h0 : s.Stays fs s₀) (hM : [.objs, .mem, .ecc, .ntm, .snp, .fresh] ⊆ fs) :
    State.Stays (State.snpAt s) fs s₀ := by
  unfold State.snpAt
  repeat' first
    | with_reducible assumption | with_reducible exact List.Subset.trans (by decide) hM | intro _
    | (extract_lets +onlyGivenNames u; refine cut_goal (P := State.Stays u fs s₀) ?_ fun _ => ?_; (on_goal 2 => clear_value u); (on_goal 1 => (unfold u; clear u)))
    | (extract_lets +onlyGivenNames u; clear_value u) | with_reducible apply ite_stays
    | with_reducible apply State.reach_stays | with_reducible apply State.tidemark_stays
    | with_reducible apply State.setOb_stays

theorem State.setHlt_stays (s : State) (f : Hlt → Hlt) (h0 : s.Stays fs s₀) (hM : [.hlt] ⊆ fs) :
    State.Stays (State.setHlt s f) fs s₀ :=
  State.with_hlt _ h0 hM

theorem State.temps_stays (s : State) (l : List Int) (h0 : s.Stays fs s₀) (hM : [.objs, .sta] ⊆ fs) :
    State.Stays (State.temps s l) fs s₀ := by
  unfold State.temps
  repeat' first
    | with_reducible assumption | with_reducible exact List.Subset.trans (by decide) hM | intro _ | with_reducible apply State.each_stays | with_reducible apply State.sample_stays
    | with_reducible apply State.setOb_stays

theorem State.agesMeasured_stays (s : State) (l : List Nat) (h0 : s.Stays fs s₀) (hM : [.objs, .mem, .str, .bdr, .fresh] ⊆ fs) :
    State.Stays (State.agesMeasured s l) fs s₀ := by
  unfold State.agesMeasured
  repeat' first
    | with_reducible assumption | with_reducible exact List.Subset.trans (by decide) hM | intro _ | with_reducible apply State.each_stays | with_reducible apply State.keepOb_stays

theorem State.lifeDay_stays (s : State) (h0 : s.Stays fs s₀) (hM : [.objs, .sta, .hlt] ⊆ fs) :
    State.Stays (State.lifeDay s) fs s₀ := by
  unfold State.lifeDay
  repeat' first
    | with_reducible assumption | with_reducible exact List.Subset.trans (by decide) hM | intro _
    | (extract_lets +onlyGivenNames u; refine cut_goal (P := State.Stays u fs s₀) ?_ fun _ => ?_; (on_goal 2 => clear_value u); (on_goal 1 => (unfold u; clear u)))
    | with_reducible apply State.each_stays | with_reducible apply State.setHlt_stays | with_reducible apply State.sample_stays

theorem State.testRefused_stays (s : State) (v : Nat) (h0 : s.Stays fs s₀) (hM : [.hlt] ⊆ fs) :
    State.Stays (State.testRefused s v) fs s₀ :=
  State.with_hlt _ h0 hM

theorem State.testStart_stays (s : State) (v : Nat) (h0 : s.Stays fs s₀) (hM : [.hlt] ⊆ fs) :
    State.Stays (State.testStart s v) fs s₀ :=
  State.with_hlt _ h0 hM

theorem State.testEnd_stays (s : State) (r : Nat) (h0 : s.Stays fs s₀) (hM : [.objs, .sta, .hlt] ⊆ fs) :
    State.Stays (State.testEnd s r) fs s₀ := by
  unfold State.testEnd
  repeat' first
    | with_reducible assumption | with_reducible exact List.Subset.trans (by decide) hM | intro _ | (extract_lets +onlyGivenNames u; clear_value u)
    | with_reducible apply State.sample_stays | with_reducible apply State.incOb_stays
    | with_reducible apply State.setHlt_stays

theorem State.scrubbed_stays (s : State) (die slice : Nat) (h0 : s.Stays fs s₀) (hM : [.objs, .ecc] ⊆ fs) :
    State.Stays (State.scrubbed s die slice) fs s₀ := by
  unfold State.scrubbed
  repeat' first
    | with_reducible assumption | with_reducible exact List.Subset.trans (by decide) hM | intro _
    | (extract_lets +onlyGivenNames u; refine cut_goal (P := State.Stays u fs s₀) ?_ fun _ => ?_; (on_goal 2 => clear_value u); (on_goal 1 => (unfold u; clear u)))
    | (extract_lets +onlyGivenNames u; clear_value u) | with_reducible apply ite_stays
    | with_reducible apply State.addOb_stays
    | with_reducible apply State.with_ecc

theorem State.sliceDo_stays (s : State) (h0 : s.Stays fs s₀) (hM : [.objs, .mem, .ecc] ⊆ fs) :
    State.Stays (State.sliceDo s) fs s₀ := by
  unfold State.sliceDo
  repeat' first
    | with_reducible assumption | with_reducible exact List.Subset.trans (by decide) hM | intro _ | (extract_lets +onlyGivenNames u; clear_value u)
    | with_reducible apply State.scrubbed_stays | with_reducible apply State.eccClear_stays
    | with_reducible apply State.clearMem_stays  
    | dsimp only | split

theorem State.testSlice_stays (s : State) (failAt : Option Nat) (h0 : s.Stays fs s₀) (hM : [.objs, .mem, .ecc, .sta, .hlt] ⊆ fs) :
    State.Stays (State.testSlice s failAt) fs s₀ := by
  unfold State.testSlice
  repeat' first
    | with_reducible assumption | with_reducible exact List.Subset.trans (by decide) hM | intro _
    | (extract_lets +onlyGivenNames u; refine cut_goal (P := State.Stays u fs s₀) ?_ fun _ => ?_; (on_goal 2 => clear_value u); (on_goal 1 => (unfold u; clear u)))
    | (extract_lets +onlyGivenNames u; clear_value u) | with_reducible apply ite_stays
    | with_reducible apply State.testEnd_stays | with_reducible apply State.sliceDo_stays
    | with_reducible apply State.when_stays | with_reducible apply State.setOb_stays
    | with_reducible apply State.clearMem_stays | with_reducible apply State.setHlt_stays 
     | dsimp only | split

theorem State.wdgRestart_stays (s : State) (n : Nat) (h0 : s.Stays fs s₀) (hM : [.wdg] ⊆ fs) :
    State.Stays (State.wdgRestart s n) fs s₀ :=
  State.with_wdg _ h0 hM

theorem State.wdgLast_stays (s : State) (n e : Nat) (h0 : s.Stays fs s₀) (hM : [.wdg] ⊆ fs) :
    State.Stays (State.wdgLast s n e) fs s₀ :=
  State.with_wdg _ h0 hM

theorem State.assertOut_stays (s : State) (h0 : s.Stays fs s₀) (hM : [.flt] ⊆ fs) :
    State.Stays (State.assertOut s) fs s₀ :=
  State.with_flt _ h0 hM

theorem State.coreReset_stays (s : State) (c : Nat) (h0 : s.Stays fs s₀) (hM : [.objs, .mem, .ctxs, .cores, .tds, .tasks, .img, .str, .bdr, .flt, .fresh] ⊆ fs) :
    State.Stays (State.coreReset s c) fs s₀ := by
  unfold State.coreReset
  repeat' first
    | with_reducible assumption | with_reducible exact List.Subset.trans (by decide) hM | intro _
    | (extract_lets +onlyGivenNames u; refine cut_goal (P := State.Stays u fs s₀) ?_ fun _ => ?_; (on_goal 2 => clear_value u); (on_goal 1 => (unfold u; clear u)))
    | (extract_lets +onlyGivenNames u; clear_value u) | with_reducible apply State.setCore_stays
    | with_reducible apply State.each_stays | with_reducible apply State.modCtx_stays
    | with_reducible apply State.taskHalt_stays

theorem State.islandBack_stays (s : State) (n : Nat) (h0 : s.Stays fs s₀) (hM : [.wdg, .flt] ⊆ fs) :
    State.Stays (State.islandBack s n) fs s₀ := by
  unfold State.islandBack
  repeat' first
    | with_reducible assumption | with_reducible exact List.Subset.trans (by decide) hM | intro _ | (extract_lets +onlyGivenNames u; clear_value u) | with_reducible apply ite_stays
    | with_reducible apply State.raiseSt_stays | with_reducible apply State.setWd_stays

theorem State.wdgAct_stays (s : State) (n : Nat) (h0 : s.Stays fs s₀) (hM : Field.all ⊆ fs) :
    State.Stays (State.wdgAct s n) fs s₀ := by
  unfold State.wdgAct
  repeat' first
    | with_reducible assumption | with_reducible exact List.Subset.trans (by decide) hM | intro _ | with_reducible apply ite_stays | with_reducible apply State.assertOut_stays
    | with_reducible apply State.islandBack_stays | with_reducible apply State.packageReset_stays
    | with_reducible apply State.coreReset_stays  
    | dsimp only | split

theorem State.wdgExpire_stays (s : State) (n : Nat) (h0 : s.Stays fs s₀) (hM : Field.all ⊆ fs) :
    State.Stays (State.wdgExpire s n) fs s₀ := by
  unfold State.wdgExpire
  repeat' first
    | with_reducible assumption | with_reducible exact List.Subset.trans (by decide) hM | intro _
    | (extract_lets +onlyGivenNames u; refine cut_goal (P := State.Stays u fs s₀) ?_ fun _ => ?_; (on_goal 2 => clear_value u); (on_goal 1 => (unfold u; clear u)))
    | with_reducible apply State.incOb_stays | with_reducible apply State.raise_stays | with_reducible apply State.wdgAct_stays
    | with_reducible apply State.wdgLast_stays | with_reducible apply State.wdgRestart_stays

theorem State.wdgDue_stays (s : State) (n : Nat) (h0 : s.Stays fs s₀) (hM : Field.all ⊆ fs) :
    State.Stays (State.wdgDue s n) fs s₀ := by
  unfold State.wdgDue
  repeat' first
    | with_reducible assumption | with_reducible exact List.Subset.trans (by decide) hM | intro _ | with_reducible apply ite_stays | with_reducible apply State.wdgExpire_stays
    | with_reducible apply State.reachMono_stays

theorem State.wdgViolation_stays (s : State) (n k : Nat) (h0 : s.Stays fs s₀) (hM : Field.all ⊆ fs) :
    State.Stays (State.wdgViolation s n k) fs s₀ := by
  unfold State.wdgViolation
  repeat' first
    | with_reducible assumption | with_reducible exact List.Subset.trans (by decide) hM | intro _
    | (extract_lets +onlyGivenNames u; refine cut_goal (P := State.Stays u fs s₀) ?_ fun _ => ?_; (on_goal 2 => clear_value u); (on_goal 1 => (unfold u; clear u)))
    | with_reducible apply ite_stays | with_reducible apply State.incOb_stays | with_reducible apply State.wdgLast_stays
    | with_reducible apply State.raise_stays | with_reducible apply State.wdgAct_stays
    | with_reducible apply State.wdgRestart_stays

theorem State.wdgKey_stays (s : State) (n v : Nat) (h0 : s.Stays fs s₀) (hM : Field.all ⊆ fs) :
    State.Stays (State.wdgKey s n v) fs s₀ := by
  unfold State.wdgKey
  repeat' first
    | with_reducible assumption | with_reducible exact List.Subset.trans (by decide) hM | intro _
    | (extract_lets +onlyGivenNames u; refine cut_goal (P := State.Stays u fs s₀) ?_ fun _ => ?_; (on_goal 2 => clear_value u); (on_goal 1 => (unfold u; clear u)))
    | with_reducible apply ite_stays | with_reducible apply State.wdgViolation_stays
    | with_reducible apply State.wdgLast_stays | with_reducible apply State.wdgRestart_stays
    | with_reducible apply State.incOb_stays | with_reducible apply State.wdgExpire_stays
    | with_reducible apply State.raise_stays

theorem State.wdgCfgApply_stays (s : State) (n : Nat) (period : Bool) (v : Nat) (h0 : s.Stays fs s₀) (hM : [.objs, .wdg] ⊆ fs) :
    State.Stays (State.wdgCfgApply s n period v) fs s₀ := by
  unfold State.wdgCfgApply
  repeat' first
    | with_reducible assumption | with_reducible exact List.Subset.trans (by decide) hM | intro _
    | (extract_lets +onlyGivenNames u; refine cut_goal (P := State.Stays u fs s₀) ?_ fun _ => ?_; (on_goal 2 => clear_value u); (on_goal 1 => (unfold u; clear u)))
    | (extract_lets +onlyGivenNames u; clear_value u) | with_reducible apply ite_stays
    | with_reducible apply State.setOb_stays | with_reducible apply State.wdgRestart_stays

theorem State.clockLost_stays (s : State) (k : Nat) (h0 : s.Stays fs s₀) (hM : Field.all ⊆ fs) :
    State.Stays (State.clockLost s k) fs s₀ := by
  unfold State.clockLost
  repeat' first
    | with_reducible assumption | with_reducible exact List.Subset.trans (by decide) hM | intro _
    | (extract_lets +onlyGivenNames u; refine cut_goal (P := State.Stays u fs s₀) ?_ fun _ => ?_; (on_goal 2 => clear_value u); (on_goal 1 => (unfold u; clear u)))
    | (extract_lets +onlyGivenNames u; clear_value u) | with_reducible apply ite_stays
    | with_reducible apply State.setWd_stays | with_reducible apply State.wdgExpire_stays
    | with_reducible apply State.raiseSt_stays | with_reducible apply State.reclaim_stays
    | with_reducible apply State.setPwr_stays

theorem State.clockBack_stays (s : State) (k : Nat) (h0 : s.Stays fs s₀) (hM : [.red, .wdg, .flt, .pwr] ⊆ fs) :
    State.Stays (State.clockBack s k) fs s₀ := by
  unfold State.clockBack
  repeat' first
    | with_reducible assumption | with_reducible exact List.Subset.trans (by decide) hM | intro _ | with_reducible apply ite_stays | with_reducible apply State.islandBack_stays
    | with_reducible apply State.reclaim_stays | with_reducible apply State.raiseSt_stays
    | with_reducible apply State.setPwr_stays

theorem State.setChk_stays (s : State) (f : Chk → Chk) (h0 : s.Stays fs s₀) (hM : [.chk] ⊆ fs) :
    State.Stays (State.setChk s f) fs s₀ :=
  State.with_chk _ h0 hM

theorem State.chkPeriodSet_stays (s : State) (t v : Nat) (h0 : s.Stays fs s₀) (hM : [.objs, .chk] ⊆ fs) :
    State.Stays (State.chkPeriodSet s t v) fs s₀ := by
  unfold State.chkPeriodSet
  repeat' first
    | with_reducible assumption | with_reducible exact List.Subset.trans (by decide) hM | intro _
    | with_reducible apply ite_stays | with_reducible apply State.setChk_stays | with_reducible apply State.setOb_stays

theorem State.chkJudge_stays (s : State) (l : List Nat) (h0 : s.Stays fs s₀) (hM : [.objs, .doms, .flt] ⊆ fs) :
    State.Stays (State.chkJudge s l) fs s₀ := by
  unfold State.chkJudge
  repeat' first
    | with_reducible assumption | with_reducible exact List.Subset.trans (by decide) hM | intro _
    | (extract_lets +onlyGivenNames u; refine cut_goal (P := State.Stays u fs s₀) ?_ fun _ => ?_; (on_goal 2 => clear_value u); (on_goal 1 => (unfold u; clear u)))
    | (extract_lets +onlyGivenNames u; clear_value u) | with_reducible apply ite_stays | with_reducible apply State.each_stays
    | with_reducible apply State.incOb_stays | with_reducible apply State.addOb_stays | with_reducible apply State.raise_stays
    | with_reducible apply State.setDom_stays

theorem State.chkEnd_stays (s : State) (h0 : s.Stays fs s₀) (hM : [.objs, .doms, .ntm, .chk, .flt, .fresh] ⊆ fs) :
    State.Stays (State.chkEnd s) fs s₀ := by
  unfold State.chkEnd
  repeat' first
    | with_reducible assumption | with_reducible exact List.Subset.trans (by decide) hM | intro _ | with_reducible apply ite_stays | with_reducible apply State.reachUs_stays
    | with_reducible apply State.chkJudge_stays | with_reducible apply State.each_stays
    | with_reducible apply State.setChk_stays   | dsimp only
    | split

theorem State.chkPast_stays (s : State) (h0 : s.Stays fs s₀) (hM : [.objs, .doms, .ntm, .chk, .flt, .fresh] ⊆ fs) :
    State.Stays (State.chkPast s) fs s₀ := by
  unfold State.chkPast
  repeat' first
    | with_reducible assumption | with_reducible exact List.Subset.trans (by decide) hM | intro _ | with_reducible apply ite_stays | with_reducible apply State.each_stays
    | with_reducible apply State.chkEnd_stays   | dsimp only
    | split

theorem State.checkIn_stays (s : State) (t : Nat) (h0 : s.Stays fs s₀) (hM : [.objs, .doms, .ntm, .chk, .flt, .fresh] ⊆ fs) :
    State.Stays (State.checkIn s t) fs s₀ := by
  unfold State.checkIn
  repeat' first
    | with_reducible assumption | with_reducible exact List.Subset.trans (by decide) hM | intro _ | with_reducible apply ite_stays | with_reducible apply State.incOb_stays
    | with_reducible apply State.setChk_stays | with_reducible apply State.chkPast_stays

theorem State.setFlt_stays (s : State) (f : Flt → Flt) (h0 : s.Stays fs s₀) (hM : [.flt] ⊆ fs) :
    State.Stays (State.setFlt s f) fs s₀ :=
  State.with_flt _ h0 hM

theorem State.putFold_stays (s : State) (f : Fold) (h0 : s.Stays fs s₀) (hM : [.flt] ⊆ fs) :
    State.Stays (State.putFold s f) fs s₀ :=
  State.with_flt _ h0 hM

theorem State.foldEnd_stays (s : State) (f : Fold) (early : Bool) (h0 : s.Stays fs s₀) (hM : [.objs, .flt, .sta] ⊆ fs) :
    State.Stays (State.foldEnd s f early) fs s₀ := by
  unfold State.foldEnd
  repeat' first
    | with_reducible assumption | with_reducible exact List.Subset.trans (by decide) hM | intro _
    | (extract_lets +onlyGivenNames u; refine cut_goal (P := State.Stays u fs s₀) ?_ fun _ => ?_; (on_goal 2 => clear_value u); (on_goal 1 => (unfold u; clear u)))
    | with_reducible apply State.when_stays | with_reducible apply State.putFold_stays | with_reducible apply State.incOb_stays
    | with_reducible apply State.sample_stays

theorem State.foldsDue_stays (s : State) (h0 : s.Stays fs s₀) (hM : [.objs, .flt, .sta] ⊆ fs) :
    State.Stays (State.foldsDue s) fs s₀ := by
  unfold State.foldsDue
  repeat' first
    | with_reducible assumption | with_reducible exact List.Subset.trans (by decide) hM | intro _ | with_reducible apply State.each_stays | with_reducible apply State.foldEnd_stays

theorem State.foldClose_stays (s : State) (h0 : s.Stays fs s₀) (hM : [.objs, .ntm, .flt, .sta, .fresh] ⊆ fs) :
    State.Stays (State.foldClose s) fs s₀ := by
  unfold State.foldClose
  repeat' first
    | with_reducible assumption | with_reducible exact List.Subset.trans (by decide) hM | intro _ | with_reducible apply State.foldsDue_stays | with_reducible apply State.reach_stays
      | dsimp only | split

theorem State.notifyNow_stays (s : State) (h0 : s.Stays fs s₀) (hM : [.objs, .ctxs, .flt] ⊆ fs) :
    State.Stays (State.notifyNow s) fs s₀ := by
  unfold State.notifyNow
  repeat' first
    | with_reducible assumption | with_reducible exact List.Subset.trans (by decide) hM | intro _ | with_reducible apply State.kevent_stays | with_reducible apply State.setFlt_stays

theorem State.notify_stays (s : State) (h0 : s.Stays fs s₀) (hM : [.objs, .ctxs, .flt] ⊆ fs) :
    State.Stays (State.notify s) fs s₀ := by
  unfold State.notify
  repeat' first
    | with_reducible assumption | with_reducible exact List.Subset.trans (by decide) hM | intro _ | with_reducible apply ite_stays | with_reducible apply State.notifyNow_stays
    | with_reducible apply State.setFlt_stays

theorem State.notifyEnd_stays (s : State) (h0 : s.Stays fs s₀) (hM : [.objs, .ctxs, .ntm, .flt, .fresh] ⊆ fs) :
    State.Stays (State.notifyEnd s) fs s₀ := by
  unfold State.notifyEnd
  repeat' first
    | with_reducible assumption | with_reducible exact List.Subset.trans (by decide) hM | intro _
    | (extract_lets +onlyGivenNames u; refine cut_goal (P := State.Stays u fs s₀) ?_ fun _ => ?_; (on_goal 2 => clear_value u); (on_goal 1 => (unfold u; clear u)))
    | with_reducible apply ite_stays | with_reducible apply State.reachMono_stays | with_reducible apply State.addOb_stays
    | with_reducible apply State.notifyNow_stays | with_reducible apply State.setFlt_stays

theorem State.linkBack_stays (s : State) (die : Nat) (h0 : s.Stays fs s₀) (hM : [.flt, .pwr] ⊆ fs) :
    State.Stays (State.linkBack s die) fs s₀ := by
  unfold State.linkBack
  repeat' first
    | with_reducible assumption | with_reducible exact List.Subset.trans (by decide) hM | intro _ | with_reducible apply ite_stays | with_reducible apply State.raiseSt_stays
    | with_reducible apply State.setPwr_stays

theorem State.policy_stays (s : State) (f : Fold) (h0 : s.Stays fs s₀) (hM : [.objs, .mem, .ecc, .ctxs, .tds, .tasks, .img, .str, .red, .fio, .bdr, .flt, .snp, .pwr, .fresh] ⊆ fs) :
    State.Stays (State.policy s f) fs s₀ := by
  unfold State.policy
  repeat' first
    | with_reducible assumption | with_reducible exact List.Subset.trans (by decide) hM | intro _
    | (extract_lets +onlyGivenNames u; refine cut_goal (P := State.Stays u fs s₀) ?_ fun _ => ?_; (on_goal 2 => clear_value u); (on_goal 1 => (unfold u; clear u)))
    | (extract_lets +onlyGivenNames u; clear_value u) | with_reducible apply State.when_stays
    | with_reducible apply State.notify_stays | with_reducible apply State.assertOut_stays
    | with_reducible apply State.tidemark_stays | with_reducible apply State.reclaim_stays
    | with_reducible refine State.setRed_stays _ ?_ (by refine ⟨?_, ?_, ?_, ?_, ?_, ?_, ?_, ?_, ?_⟩ <;> first | exact .inr rfl | exact .inl (Field.mem_of hM (by decide))) rfl | with_reducible apply State.fioPark_stays
    | with_reducible apply State.tideHalt_stays | with_reducible apply State.linkBack_stays

theorem State.foldRoom_stays (s : State) (h0 : s.Stays fs s₀) (hM : [.objs, .flt, .sta] ⊆ fs) :
    State.Stays (State.foldRoom s) fs s₀ := by
  unfold State.foldRoom
  repeat' first
    | with_reducible assumption | with_reducible exact List.Subset.trans (by decide) hM | intro _
    | (extract_lets +onlyGivenNames u; refine cut_goal (P := State.Stays u fs s₀) ?_ fun _ => ?_; (on_goal 2 => clear_value u); (on_goal 1 => (unfold u; clear u)))
    | with_reducible apply State.when_stays | with_reducible apply State.foldEnd_stays 
     | dsimp only | split

theorem State.foldOpen_stays (s : State) (r : Raw) (h0 : s.Stays fs s₀) (hM : [.objs, .mem, .ecc, .ctxs, .tds, .tasks, .img, .str, .red, .fio, .bdr, .flt, .sta, .snp, .pwr, .fresh] ⊆ fs) :
    State.Stays (State.foldOpen s r) fs s₀ := by
  unfold State.foldOpen
  repeat' first
    | with_reducible assumption | with_reducible exact List.Subset.trans (by decide) hM | intro _
    | (extract_lets +onlyGivenNames u; refine cut_goal (P := State.Stays u fs s₀) ?_ fun _ => ?_; (on_goal 2 => clear_value u); (on_goal 1 => (unfold u; clear u)))
    | (extract_lets +onlyGivenNames u; clear_value u) | with_reducible apply ite_stays
    | with_reducible apply State.foldRoom_stays | with_reducible apply State.setFlt_stays
    | with_reducible apply State.setOb_stays | with_reducible apply State.policy_stays
    | with_reducible apply State.foldEnd_stays

theorem State.acceptRaw_stays (s : State) (h0 : s.Stays fs s₀) (hM : [.objs, .mem, .ecc, .ctxs, .tds, .tasks, .img, .str, .red, .fio, .bdr, .flt, .sta, .snp, .pwr, .fresh] ⊆ fs) :
    State.Stays (State.acceptRaw s) fs s₀ := by
  unfold State.acceptRaw
  repeat' first
    | with_reducible assumption | with_reducible exact List.Subset.trans (by decide) hM | intro _ | with_reducible apply State.foldsDue_stays | with_reducible apply State.setFlt_stays
    | with_reducible apply State.incOb_stays | with_reducible apply State.putFold_stays
    | with_reducible apply State.foldOpen_stays  
    | dsimp only | split

theorem State.clearOut_stays (s : State) (h0 : s.Stays fs s₀) (hM : [.flt] ⊆ fs) :
    State.Stays (State.clearOut s) fs s₀ :=
  State.with_flt _ h0 hM

theorem State.fltFlush_stays (s : State) (h0 : s.Stays fs s₀) (hM : [.objs, .flt, .sta] ⊆ fs) :
    State.Stays (State.fltFlush s) fs s₀ := by
  unfold State.fltFlush
  repeat' first
    | with_reducible assumption | with_reducible exact List.Subset.trans (by decide) hM | intro _ | with_reducible apply State.each_stays | with_reducible apply State.foldEnd_stays

theorem State.fltRaise_stays (s : State) (v : Nat) (h0 : s.Stays fs s₀) (hM : [.flt] ⊆ fs) :
    State.Stays (State.fltRaise s v) fs s₀ :=
  State.with_flt _ h0 hM

end Sys2Proof.Machine
end


section
/-! SUPPORT. What each operation of the dictionary, transactions, and the events of the tide leaves as it was. -/

namespace Sys2Proof.Machine

variable {fs : List Field} {s₀ : State}

theorem State.modSes_stays (s : State) (n : Nat) (f : Ses → Ses) (h0 : s.Stays fs s₀) (hM : [.sess] ⊆ fs) :
    State.Stays (State.modSes s n f) fs s₀ :=
  State.with_sess _ h0 hM

theorem State.svcSend_stays (s : State) (n : Nat) (q : Svc) (data : List Sys2Proof.Byte) (h0 : s.Stays fs s₀) (hM : [.sess, .hnw] ⊆ fs) :
    State.Stays (State.svcSend s n q data) fs s₀ := by
  unfold State.svcSend
  repeat' first
    | with_reducible assumption | with_reducible exact List.Subset.trans (by decide) hM | intro _
    | (extract_lets +onlyGivenNames u; clear_value u) | with_reducible apply State.modSes_stays
    | with_reducible apply State.svcFrame_stays

theorem State.svcDone_stays (s : State) (n key : Nat) (data : List Sys2Proof.Byte) (h0 : s.Stays fs s₀) (hM : [.sess, .hnw] ⊆ fs) :
    State.Stays (State.svcDone s n key data) fs s₀ := by
  unfold State.svcDone
  repeat' first
    | with_reducible assumption | with_reducible exact List.Subset.trans (by decide) hM | intro _ | with_reducible apply State.svcSend_stays | with_reducible apply State.modSes_stays
      | dsimp only | split

theorem State.sdoSend_stays (s : State) (k : Nat) (d : List Sys2Proof.Byte) (h0 : s.Stays fs s₀) (hM : [.mbc] ⊆ fs) :
    State.Stays (State.sdoSend s k d) fs s₀ :=
  State.with_mbc _ h0 hM

theorem State.sdoAbort_stays (s : State) (k key code : Nat) (h0 : s.Stays fs s₀) (hM : [.mbc] ⊆ fs) :
    State.Stays (State.sdoAbort s k key code) fs s₀ := by
  unfold State.sdoAbort
  repeat' first
    | with_reducible assumption | with_reducible exact List.Subset.trans (by decide) hM | intro _
    | with_reducible apply State.modMb_stays | with_reducible apply State.sdoSend_stays

theorem State.sdoUp_stays (s : State) (k key : Nat) (data : List Sys2Proof.Byte) (h0 : s.Stays fs s₀) (hM : [.mbc] ⊆ fs) :
    State.Stays (State.sdoUp s k key data) fs s₀ := by
  unfold State.sdoUp
  repeat' first
    | with_reducible assumption | with_reducible exact List.Subset.trans (by decide) hM | intro _ | with_reducible apply ite_stays | with_reducible apply State.sdoSend_stays
    | with_reducible apply State.modMb_stays

theorem State.sdoDone_stays (s : State) (n key : Nat) (data : List Sys2Proof.Byte) (h0 : s.Stays fs s₀) (hM : [.ctxs, .mbc] ⊆ fs) :
    State.Stays (State.sdoDone s n key data) fs s₀ := by
  unfold State.sdoDone
  repeat' first
    | with_reducible assumption | with_reducible exact List.Subset.trans (by decide) hM | intro _
    | (extract_lets +onlyGivenNames u; refine cut_goal (P := State.Stays u fs s₀) ?_ fun _ => ?_; (on_goal 2 => clear_value u); (on_goal 1 => (unfold u; clear u)))
    | (extract_lets +onlyGivenNames u; clear_value u) | with_reducible apply ite_stays
    | with_reducible apply State.modMb_stays | with_reducible apply State.sdoAbort_stays
    | with_reducible apply State.sdoSend_stays | with_reducible apply State.sdoUp_stays 
     | dsimp only | split

theorem State.reply_stays (s : State) (n key : Nat) (data : List Sys2Proof.Byte) (h0 : s.Stays fs s₀) (hM : [.sess, .ctxs, .hnw, .mbc] ⊆ fs) :
    State.Stays (State.reply s n key data) fs s₀ := by
  unfold State.reply
  repeat' first
    | with_reducible assumption | with_reducible exact List.Subset.trans (by decide) hM | intro _ | with_reducible apply ite_stays | with_reducible apply State.svcDone_stays
    | with_reducible apply State.sdoDone_stays

theorem State.olcReply_stays (s : State) (h0 : s.Stays fs s₀) (hM : [.sess, .ctxs, .hnw, .mbc] ⊆ fs) :
    State.Stays (State.olcReply s) fs s₀ := by
  unfold State.olcReply
  repeat' first
    | with_reducible assumption | with_reducible exact List.Subset.trans (by decide) hM | intro _ | with_reducible apply ite_stays | with_reducible apply State.each_stays
    | with_reducible apply State.reply_stays

theorem State.store_stays (s : State) (key v : Nat) (h0 : s.Stays fs s₀) (hM : [.objs, .mem, .str, .bdr, .fresh] ⊆ fs) :
    State.Stays (State.store s key v) fs s₀ := by
  unfold State.store
  repeat' first
    | with_reducible assumption | with_reducible exact List.Subset.trans (by decide) hM | intro _ | with_reducible apply State.retain_stays | with_reducible apply State.setOb_stays

theorem State.replSend_stays (s : State) (m : Repl) (f : State → State) (h : s.Stays fs s₀) (hf : ∀ u, State.Stays u fs s₀ → (f u).Stays fs s₀) (hM : [.repl] ⊆ fs) :
    State.Stays (s.replSend m f) fs s₀ := by
  unfold State.replSend
  extract_lets u
  have hu : u.Stays fs s₀ := State.setRed_stays (fun r => { r with replSent := r.replSent ++ [m] }) h
    (by refine ⟨?_, ?_, ?_, ?_, ?_, ?_, ?_, ?_, ?_⟩ <;> first | exact .inr rfl | exact .inl (Field.mem_of hM (by decide))) rfl
  clear_value u
  split
  · exact hf _ hu
  · exact State.setRed_stays (fun r => { r with repl := r.repl ++ [m] }) hu
      (by refine ⟨?_, ?_, ?_, ?_, ?_, ?_, ?_, ?_, ?_⟩ <;> first | exact .inr rfl | exact .inl (Field.mem_of hM (by decide))) rfl

theorem State.forceReq_stays (s : State) (c : Sys2Proof.FChange) (h0 : s.Stays fs s₀) (hM : [.objs, .mem, .tds, .img, .str, .repl, .bdr, .flt, .fresh] ⊆ fs) :
    State.Stays (State.forceReq s c) fs s₀ := by
  unfold State.forceReq
  split
  · exact State.replSend_stays _ _ _ h0 (fun u hu => State.forceChange_stays _ _ hu (Field.within hM (by decide))) (Field.within hM (by decide))
  · exact State.forceChange_stays _ _ h0 (Field.within hM (by decide))

theorem State.forceCmd_stays (s : State) (n v : Nat) (h0 : s.Stays fs s₀) (hM : [.objs, .mem, .sess, .tds, .img, .str, .repl, .bdr, .flt, .fresh] ⊆ fs) :
    State.Stays (State.forceCmd s n v) fs s₀ := by
  unfold State.forceCmd
  repeat' first
    | with_reducible assumption | with_reducible exact List.Subset.trans (by decide) hM | intro _ | (extract_lets +onlyGivenNames u; clear_value u)
    | with_reducible apply State.forceReq_stays | with_reducible apply State.modSes_stays 
     | dsimp only | split

theorem State.cpuCtl_stays (s : State) (c v : Nat) (h0 : s.Stays fs s₀) (hM : [.objs, .cores] ⊆ fs) :
    State.Stays (State.cpuCtl s c v) fs s₀ := by
  unfold State.cpuCtl
  repeat' first
    | with_reducible assumption | with_reducible exact List.Subset.trans (by decide) hM | intro _
    | (extract_lets +onlyGivenNames u; clear_value u) | with_reducible apply ite_stays
    | with_reducible apply State.setCore_stays | with_reducible apply State.setOb_stays

theorem State.tdsCmd_stays (s : State) (v : Nat) (h0 : s.Stays fs s₀) (hM : [.objs, .mem, .ctxs, .tds, .tasks, .img, .str, .fio, .bdr, .flt, .fresh] ⊆ fs) :
    State.Stays (State.tdsCmd s v) fs s₀ := by
  unfold State.tdsCmd
  repeat' first
    | with_reducible assumption | with_reducible exact List.Subset.trans (by decide) hM | intro _ | with_reducible apply State.fioOverlap_stays
    | with_reducible apply State.tideStart_stays | with_reducible apply State.tideStop_stays
    | with_reducible apply State.tideHalt_stays | with_reducible apply State.tideClear_stays 
     | dsimp only | split

theorem State.pwrCmd_stays (s : State) (v : Nat) (h0 : s.Stays fs s₀) (hM : Field.all ⊆ fs) :
    State.Stays (State.pwrCmd s v) fs s₀ := by
  unfold State.pwrCmd
  repeat' first
    | with_reducible assumption | with_reducible exact List.Subset.trans (by decide) hM | intro _ | with_reducible apply ite_stays | with_reducible apply State.packageReset_stays
    | with_reducible apply State.sleep_stays

theorem State.calShift_stays (s : State) (v : Nat) (h0 : s.Stays fs s₀) (hM : [.cal] ⊆ fs) :
    State.Stays (State.calShift s v) fs s₀ := by
  unfold State.calShift
  repeat' first
    | with_reducible assumption | with_reducible exact List.Subset.trans (by decide) hM | intro _ | with_reducible apply ite_stays | with_reducible apply State.setCal_stays

theorem State.calCmd_stays (s : State) (v : Nat) (h0 : s.Stays fs s₀) (hM : [.cal] ⊆ fs) :
    State.Stays (State.calCmd s v) fs s₀ := by
  unfold State.calCmd
  repeat' first
    | with_reducible assumption | with_reducible exact List.Subset.trans (by decide) hM | intro _ | with_reducible apply ite_stays | with_reducible apply State.setCal_stays

theorem State.mbcCmd_stays (s : State) (k v : Nat) (h0 : s.Stays fs s₀) (hM : [.sess, .ctxs, .sent, .mbc] ⊆ fs) :
    State.Stays (State.mbcCmd s k v) fs s₀ := by
  unfold State.mbcCmd
  repeat' first
    | with_reducible assumption | with_reducible exact List.Subset.trans (by decide) hM | intro _ | with_reducible apply State.modMb_stays | with_reducible apply State.mbStopCmd_stays
      | dsimp only | split

theorem State.fioStore_stays (s : State) (key v : Nat) (h0 : s.Stays fs s₀) (hM : [.objs, .mem, .str, .fio, .bdr, .fresh] ⊆ fs) :
    State.Stays (State.fioStore s key v) fs s₀ := by
  unfold State.fioStore
  repeat' first
    | with_reducible assumption | with_reducible exact List.Subset.trans (by decide) hM | intro _
    | (extract_lets +onlyGivenNames u; refine cut_goal (P := State.Stays u fs s₀) ?_ fun _ => ?_; (on_goal 2 => clear_value u); (on_goal 1 => (unfold u; clear u)))
    | with_reducible apply State.store_stays | with_reducible apply State.fioSend_stays 
     | dsimp only | split

theorem State.applyNtm_stays (s : State) (idx sub key v : Nat) (h0 : s.Stays fs s₀) (hM : [.objs, .doms, .mem, .ctxs, .tds, .tasks, .img, .olc, .str, .ntm, .role, .red, .fio, .bdr, .flt, .fresh] ⊆ fs) :
    State.Stays (State.applyNtm s idx sub key v) fs s₀ := by
  unfold State.applyNtm
  repeat' first
    | with_reducible assumption | with_reducible exact List.Subset.trans (by decide) hM | intro _
    | (extract_lets +onlyGivenNames u; refine cut_goal (P := State.Stays u fs s₀) ?_ fun _ => ?_; (on_goal 2 => clear_value u); (on_goal 1 => (unfold u; clear u)))
    | with_reducible apply ite_stays | with_reducible apply State.offsetApply_stays | with_reducible apply State.setOb_stays
    | with_reducible apply State.timeLocked_stays | with_reducible apply State.gclCfgApply_stays
    | with_reducible apply State.store_stays   | dsimp only
    | split

theorem State.applyMbc_stays (s : State) (idx k key v : Nat) (h0 : s.Stays fs s₀) (hM : [.objs, .mem, .sess, .ctxs, .str, .sent, .mbc, .bdr, .fresh] ⊆ fs) :
    State.Stays (State.applyMbc s idx k key v) fs s₀ := by
  unfold State.applyMbc
  repeat' first
    | with_reducible assumption | with_reducible exact List.Subset.trans (by decide) hM | intro _ | with_reducible apply State.mbcCmd_stays | with_reducible apply State.pop_stays
    | with_reducible apply State.txReq_stays | with_reducible apply State.txCancel_stays
    | with_reducible apply State.store_stays   | dsimp only
    | split

theorem State.applyBdr_stays (s : State) (n idx sub key v : Nat) (h0 : s.Stays fs s₀) (hM : [.objs, .mem, .sess, .str, .bdr, .fresh] ⊆ fs) :
    State.Stays (State.applyBdr s n idx sub key v) fs s₀ := by
  unfold State.applyBdr
  repeat' first
    | with_reducible assumption | with_reducible exact List.Subset.trans (by decide) hM | intro _ | with_reducible apply State.bdrTxn_stays | with_reducible apply State.unlock_stays
    | with_reducible apply State.lockRegions_stays | with_reducible apply State.modSes_stays
    | with_reducible apply State.store_stays   | dsimp only
    | split

theorem State.applyCal_stays (s : State) (n idx sub key v : Nat) (h0 : s.Stays fs s₀) (hM : [.objs, .mem, .sess, .str, .bdr, .cal, .rsv, .flt, .fresh] ⊆ fs) :
    State.Stays (State.applyCal s n idx sub key v) fs s₀ := by
  unfold State.applyCal
  repeat' first
    | with_reducible assumption | with_reducible exact List.Subset.trans (by decide) hM | intro _ | (extract_lets +onlyGivenNames u; clear_value u) | with_reducible apply ite_stays
    | with_reducible apply State.calCmd_stays | with_reducible apply State.setCal_stays
    | with_reducible apply State.calShift_stays | with_reducible apply State.modSes_stays
    | with_reducible apply State.setOb_stays | with_reducible apply State.rsvTestStart_stays
    | with_reducible apply State.rsvReadId_stays | with_reducible apply State.store_stays 
     | dsimp only | split

theorem State.applyObs_stays (s : State) (n idx sub key v : Nat) (h0 : s.Stays fs s₀) (hM : Field.all ⊆ fs) :
    State.Stays (State.applyObs s n idx sub key v) fs s₀ := by
  unfold State.applyObs
  repeat' first
    | with_reducible assumption | with_reducible exact List.Subset.trans (by decide) hM | intro _ | with_reducible apply ite_stays | with_reducible apply State.wdgCfgApply_stays
    | with_reducible apply State.wdgKey_stays | with_reducible apply State.chkPeriodSet_stays
    | with_reducible apply State.clearOut_stays | with_reducible apply State.fltFlush_stays
    | with_reducible apply State.fltRaise_stays | with_reducible apply State.store_stays
    | with_reducible apply State.strataFreeze_stays | with_reducible apply State.strataThaw_stays
    | with_reducible apply State.modSes_stays | with_reducible apply State.sample_stays
    | with_reducible apply State.bwWindow_stays | with_reducible apply State.tidemark_stays
    | with_reducible apply State.snpRelease_stays | with_reducible apply State.snpReleaseAll_stays
    | with_reducible apply State.testStart_stays  
    | dsimp only | split

theorem State.applyTide_stays (s : State) (n idx sub key v : Nat) (h0 : s.Stays fs s₀) (hM : [.objs, .doms, .mem, .sess, .ctxs, .cores, .tds, .tasks, .img, .olc, .str, .sent, .msgs, .repl, .fio, .bdr, .flt, .sta, .fresh] ⊆ fs) :
    State.Stays (State.applyTide s n idx sub key v) fs s₀ := by
  unfold State.applyTide
  repeat' first
    | with_reducible assumption | with_reducible exact List.Subset.trans (by decide) hM | intro _ | with_reducible apply State.tdsCmd_stays | with_reducible apply State.tskCmd_stays
    | with_reducible apply State.forceReq_stays | with_reducible apply State.modSes_stays
    | with_reducible apply State.forceCmd_stays | with_reducible apply State.olcCmd_stays
    | with_reducible apply State.cpuCtl_stays | with_reducible apply State.store_stays 
     | dsimp only | split

theorem State.applyNet_stays (s : State) (idx sub key v : Nat) (h0 : s.Stays fs s₀) (hM : [.objs, .doms, .mem, .str, .hnw, .role, .grant, .msgs, .red, .fio, .bdr, .sta, .fresh] ⊆ fs) :
    State.Stays (State.applyNet s idx sub key v) fs s₀ := by
  unfold State.applyNet
  repeat' first
    | with_reducible assumption | with_reducible exact List.Subset.trans (by decide) hM | intro _ | with_reducible apply ite_stays | with_reducible apply State.autoConf_stays
    | with_reducible apply State.store_stays | with_reducible apply State.scanStart_stays
    | with_reducible apply State.configureStart_stays | with_reducible apply State.redCmd_stays
    | with_reducible apply State.maybeResync_stays | with_reducible apply State.drillArm_stays
    | with_reducible apply State.runsAnew_stays | with_reducible apply State.fioPark_stays
    | with_reducible apply State.fioRecover_stays | with_reducible apply State.fioClearOvl_stays
    | with_reducible apply State.modStn_stays | with_reducible apply State.fioStore_stays 
     | dsimp only | split

theorem State.applyOb_stays (s : State) (n key v : Nat) (h0 : s.Stays fs s₀) (hM : Field.all ⊆ fs) :
    State.Stays (State.applyOb s n key v) fs s₀ := by
  unfold State.applyOb
  repeat' first
    | with_reducible assumption | with_reducible exact List.Subset.trans (by decide) hM | intro _ | (extract_lets +onlyGivenNames u; clear_value u) | with_reducible apply ite_stays
    | with_reducible apply State.modSes_stays | with_reducible apply State.store_stays
    | with_reducible apply State.pwrCmd_stays | with_reducible apply State.domCmd_stays
    | with_reducible apply State.strCmd_stays | with_reducible apply State.applyTide_stays
    | with_reducible apply State.applyNtm_stays | with_reducible apply State.applyMbc_stays
    | with_reducible apply State.dmaCmd_stays | with_reducible apply State.each_stays
    | with_reducible apply State.dmaEvent_stays | with_reducible apply State.applyBdr_stays
    | with_reducible apply State.applyCal_stays | with_reducible apply State.applyObs_stays
    | with_reducible apply State.applyNet_stays  
    | dsimp only | split

theorem State.loginFail_stays (s : State) (n : Nat) (h0 : s.Stays fs s₀) (hM : [.objs, .dic, .flt] ⊆ fs) :
    State.Stays (State.loginFail s n) fs s₀ := by
  unfold State.loginFail
  repeat' first
    | with_reducible assumption | with_reducible exact List.Subset.trans (by decide) hM | intro _
    | (extract_lets +onlyGivenNames u; refine cut_goal (P := State.Stays u fs s₀) ?_ fun _ => ?_; (on_goal 2 => clear_value u); (on_goal 1 => (unfold u; clear u)))
    | (extract_lets +onlyGivenNames u; clear_value u) | with_reducible apply ite_stays
    | with_reducible apply State.incOb_stays | with_reducible apply State.when_stays | with_reducible apply State.raise_stays
    | with_reducible apply State.with_dic

theorem State.refusedNote_stays (s : State) (n key v st reason : Nat) (h0 : s.Stays fs s₀) (hM : [.objs, .dic, .olc, .bdr, .flt, .hlt, .pwr] ⊆ fs) :
    State.Stays (State.refusedNote s n key v st reason) fs s₀ := by
  unfold State.refusedNote
  repeat' first
    | with_reducible assumption | with_reducible exact List.Subset.trans (by decide) hM | intro _ | with_reducible apply ite_stays | with_reducible apply State.loginFail_stays
    | with_reducible apply State.setOb_stays | with_reducible apply State.offsetRefused_stays
    | with_reducible apply State.olcRefused_stays | with_reducible apply State.offRefused_stays
    | with_reducible apply State.unlockFail_stays | with_reducible apply State.bdrTxnLost_stays
    | with_reducible apply State.testRefused_stays

theorem State.ptpTx_stays (s : State) (b : List Sys2Proof.Byte) (h0 : s.Stays fs s₀) (hM : [.objs, .hnw] ⊆ fs) :
    State.Stays (State.ptpTx s b) fs s₀ := by
  unfold State.ptpTx
  repeat' first
    | with_reducible assumption | with_reducible exact List.Subset.trans (by decide) hM | intro _ | (extract_lets +onlyGivenNames u; clear_value u) | with_reducible apply ite_stays
    | with_reducible apply State.incOb_stays | with_reducible apply State.enqueue_stays

theorem State.oemAnswer_stays (s : State) (tag status data : Nat) (h0 : s.Stays fs s₀) (hM : [.sess, .dic, .ctxs, .cores, .hnw, .mbc] ⊆ fs) :
    State.Stays (State.oemAnswer s tag status data) fs s₀ := by
  unfold State.oemAnswer
  repeat' first
    | with_reducible assumption | with_reducible exact List.Subset.trans (by decide) hM | intro _
    | (extract_lets +onlyGivenNames u; refine cut_goal (P := State.Stays u fs s₀) ?_ fun _ => ?_; (on_goal 2 => clear_value u); (on_goal 1 => (unfold u; clear u)))
    | (extract_lets +onlyGivenNames u; clear_value u) | with_reducible apply ite_stays
    | with_reducible apply State.setResult_stays | with_reducible apply State.reply_stays
    | with_reducible apply State.loadsDone_stays | with_reducible apply State.modCore_stays 
     | dsimp only | split
    | with_reducible apply State.with_dic

theorem State.applyBytes2_stays (s : State) (n key : Nat) (b : List Sys2Proof.Byte) (h0 : s.Stays fs s₀) (hM : [.objs, .doms, .mem, .ecc, .owners, .sess, .dic, .ctxs, .cores, .tds, .img, .str, .hnw, .ntm, .repl, .mbc, .bdr, .chk, .flt, .pmc, .fresh] ⊆ fs) :
    State.Stays (State.applyBytes2 s n key b) fs s₀ := by
  have hk : ∀ (u : State) (c : List Byte), u.Stays fs s₀ → State.Stays (u.setDom key c) fs s₀ := fun u c hu => State.setDom_stays _ _ _ hu (Field.within hM (by decide))
  have hr : ∀ (u : State) (c : List Byte), u.Stays fs s₀ → State.Stays ((u.setDom key c).retainDom key) fs s₀ :=
    fun u c hu => State.retainDom_stays _ _ (hk u c hu) (Field.within hM (by decide))
  unfold State.applyBytes2
  extract_lets idx sub keep
  have hp : ∀ u : State, u.Stays fs s₀ → State.Stays (keep u) fs s₀ := fun u hu => hr u b hu
  clear_value idx sub keep
  split
  · split
    · exact State.oemAnswer_stays _ _ _ _ h0 (Field.within hM (by decide))
    · exact h0
  · exact State.provision_stays _ _ h0 (Field.within hM (by decide))
  · exact State.foldl_stays _ _ (fun u x hu => State.setOwner_stays _ _ _ hu (Field.within hM (by decide))) h0
  · exact hk _ _ h0
  · exact hk _ _ h0
  · exact State.forceReq_stays _ _ h0 (Field.within hM (by decide))
  · exact State.sramWrite_stays _ _ _ h0 (Field.within hM (by decide))
  · exact State.ntmSetApply_stays _ _ h0 (Field.within hM (by decide))
  · exact State.ptpTx_stays _ _ h0 (Field.within hM (by decide))
  · exact hr _ _ h0
  · exact hr _ _ h0
  · exact hk _ _ h0
  · exact hk _ _ h0
  · exact hk _ _ h0
  · exact State.recWrite_stays _ _ _ h0 (Field.within hM (by decide))
  · split
    · exact State.modCtx_stays _ _ _ h0 (Field.within hM (by decide))
    · exact hp _ h0

theorem State.xferCommit_stays (s : State) (n key : Nat) (wr : Sys2Proof.SMap (Option Sys2Proof.Byte)) (h0 : s.Stays fs s₀) (hM : [.objs, .doms, .mem, .ecc, .owners, .sess, .dic, .ctxs, .cores, .tds, .img, .olc, .str, .hnw, .ntm, .repl, .mbc, .bdr, .chk, .flt, .pmc, .fresh] ⊆ fs) :
    State.Stays (State.xferCommit s n key wr).2 fs s₀ := by
  unfold State.xferCommit
  repeat' first
    | with_reducible assumption | with_reducible exact List.Subset.trans (by decide) hM | intro _ | (extract_lets +onlyGivenNames u; clear_value u) | with_reducible apply ite_stays
    | with_reducible apply State.imageClose_stays | with_reducible apply State.when_stays
    | with_reducible apply State.incOb_stays | with_reducible apply State.applyBytes2_stays 
     | dsimp only | with_reducible refine stays_of_eq (by assumption) ?_ | split

theorem State.oemEnter_stays (s : State) (n key : Nat) (write : Bool) (v : Nat) (h0 : s.Stays fs s₀) (hM : [.objs, .sess, .dic, .ctxs] ⊆ fs) :
    State.Stays (State.oemEnter s n key write v) fs s₀ := by
  unfold State.oemEnter
  repeat' first
    | with_reducible assumption | with_reducible exact List.Subset.trans (by decide) hM | intro _ | (extract_lets +onlyGivenNames u; clear_value u) | with_reducible apply ite_stays
    | with_reducible apply State.setResult_stays | with_reducible apply State.kevent_stays
    | with_reducible apply State.with_dic

theorem State.oemTake_stays (s : State) (h0 : s.Stays fs s₀) (hM : [.dic] ⊆ fs) :
    State.Stays (State.oemTake s).1 fs s₀ := by
  unfold State.oemTake
  repeat' first
    | with_reducible assumption | with_reducible exact List.Subset.trans (by decide) hM | intro _ | (extract_lets +onlyGivenNames u; clear_value u) | with_reducible apply_assumption
    | with_reducible apply ite_stays | with_reducible apply foldl_stays1 
     | dsimp only | split
    | with_reducible apply State.with_dic

theorem State.oemExpire_stays (s : State) (tag : Nat) (h0 : s.Stays fs s₀) (hM : [.objs, .sess, .dic, .ctxs, .cores, .hnw, .ntm, .mbc, .fresh] ⊆ fs) :
    State.Stays (State.oemExpire s tag) fs s₀ := by
  unfold State.oemExpire
  repeat' first
    | with_reducible assumption | with_reducible exact List.Subset.trans (by decide) hM | intro _ | (extract_lets +onlyGivenNames u; clear_value u) | with_reducible apply ite_stays
    | with_reducible apply State.reachMono_stays | with_reducible apply State.reply_stays
    | with_reducible apply State.setResult_stays | with_reducible apply State.loadsDone_stays
    | with_reducible apply State.modCore_stays   | dsimp only
    | split
    | with_reducible apply State.with_dic

theorem State.domCapture_stays (s : State) (n key : Nat) (h0 : s.Stays fs s₀) (hM : [.objs, .mem, .sess, .dic, .ntm, .fio, .bdr, .flt] ⊆ fs) :
    State.Stays (State.domCapture s n key).1 fs s₀ := by
  unfold State.domCapture
  repeat' split
  all_goals first
    | exact h0
    | (rename_i heq; exact stays_of_eq heq (State.strataRead_stays _ _ h0 (Field.within hM (by decide))))
    | (rename_i heq; exact stays_of_eq heq (State.oemTake_stays _ h0 (Field.within hM (by decide))))
    | exact State.setResult_stays _ _ _ _ _ _ h0 (Field.within hM (by decide))
    | exact State.setNtm_stays _ (fun t => { t with rx := _ }) h0 (Field.within hM (by decide))
    | exact State.setNtm_stays _ (fun t => { t with stamps := _ }) h0 (Field.within hM (by decide))
    | exact State.setFio_stays _ (fun f => { f with log := [] }) h0 (Field.within hM (by decide))
    | (rename_i heq; exact stays_of_eq heq (State.recRead_stays _ _ h0 (Field.within hM (by decide))))
    | (rename_i heq; exact State.setResult_stays _ _ _ _ _ _ (stays_of_eq heq (State.recRead_stays _ _ h0 (Field.within hM (by decide)))) (Field.within hM (by decide)))

theorem State.domOpen_stays (s : State) (n v : Nat) (h0 : s.Stays fs s₀) (hM : [.objs, .mem, .sess, .dic, .ntm, .fio, .bdr, .flt] ⊆ fs) :
    State.Stays (State.domOpen s n v) fs s₀ := by
  unfold State.domOpen
  repeat' first
    | with_reducible assumption | with_reducible exact List.Subset.trans (by decide) hM | intro _
    | (extract_lets +onlyGivenNames u; refine cut_goal (P := State.Stays u fs s₀) ?_ fun _ => ?_; (on_goal 2 => clear_value u); (on_goal 1 => (unfold u; clear u)))
    | (extract_lets +onlyGivenNames u; clear_value u) | with_reducible apply ite_stays
    | with_reducible apply State.setResult_stays | with_reducible apply State.domCapture_stays
    | with_reducible apply State.modSes_stays   | dsimp only
    | with_reducible refine stays_of_eq (by assumption) ?_ | split

theorem State.xferPut_stays (s : State) (n at_ : Nat) (b : List Sys2Proof.Byte) (h0 : s.Stays fs s₀) (hM : [.mem, .sess] ⊆ fs) :
    State.Stays (State.xferPut s n at_ b) fs s₀ := by
  unfold State.xferPut
  repeat' first
    | with_reducible assumption | with_reducible exact List.Subset.trans (by decide) hM | intro _
    | with_reducible apply State.foldl_stays | with_reducible apply State.modSes_stays

theorem State.apWrite_stays (s : State) (n a width v : Nat) (h0 : s.Stays fs s₀) (hM : [.objs, .mem, .sess, .ntm, .pwr, .fresh] ⊆ fs) :
    State.Stays (State.apWrite s n a width v) fs s₀ := by
  unfold State.apWrite
  repeat' first
    | with_reducible assumption | with_reducible exact List.Subset.trans (by decide) hM | intro _
    | (extract_lets +onlyGivenNames u; refine cut_goal (P := State.Stays u fs s₀) ?_ fun _ => ?_; (on_goal 2 => clear_value u); (on_goal 1 => (unfold u; clear u)))
    | (extract_lets +onlyGivenNames u; clear_value u) | with_reducible apply ite_stays
    | with_reducible apply State.setResult_stays | with_reducible apply State.xferPut_stays

theorem State.apRead_stays (s : State) (n a width : Nat) (h0 : s.Stays fs s₀) (hM : [.objs, .sess, .ntm, .pwr, .fresh] ⊆ fs) :
    State.Stays (State.apRead s n a width).1 fs s₀ := by
  unfold State.apRead
  repeat' first
    | with_reducible assumption | with_reducible exact List.Subset.trans (by decide) hM | intro _ | (extract_lets +onlyGivenNames u; clear_value u) | with_reducible apply ite_stays
    | with_reducible apply State.setResult_stays  
    | dsimp only | split

theorem State.domClose_stays (s : State) (n v : Nat) (h0 : s.Stays fs s₀) (hM : [.objs, .doms, .mem, .ecc, .owners, .sess, .dic, .ctxs, .cores, .tds, .img, .olc, .str, .hnw, .ntm, .repl, .mbc, .bdr, .chk, .flt, .pmc, .fresh] ⊆ fs) :
    State.Stays (State.domClose s n v) fs s₀ := by
  unfold State.domClose
  repeat' first
    | with_reducible assumption | with_reducible exact List.Subset.trans (by decide) hM | intro _ | with_reducible apply ite_stays | with_reducible apply State.setResult_stays
    | with_reducible apply State.xferCommit_stays | with_reducible apply State.modSes_stays 
     | dsimp only | with_reducible refine stays_of_eq (by assumption) ?_ | split

theorem State.noteWrite_stays (s : State) (key : Nat) (h0 : s.Stays fs s₀) (hM : [.sess] ⊆ fs) :
    State.Stays (State.noteWrite s key) fs s₀ :=
  State.with_sess _ h0 hM

theorem State.applyWrite_stays (s : State) (n key v : Nat) (h0 : s.Stays fs s₀) (hM : Field.all ⊆ fs) :
    State.Stays (State.applyWrite s n key v) fs s₀ := by
  unfold State.applyWrite
  extract_lets u
  have hu : u.Stays fs s₀ := State.noteWrite_stays _ _ h0 (Field.within hM (by decide))
  clear_value u
  split
  · exact State.replSend_stays _ _ _ hu (fun x hx => State.applyOb_stays _ _ _ _ hx (Field.within hM (by decide))) (Field.within hM (by decide))
  · exact State.applyOb_stays _ _ _ _ hu (Field.within hM (by decide))

theorem State.txnBegin_stays (s : State) (n : Nat) (h0 : s.Stays fs s₀) (hM : [.sess] ⊆ fs) :
    State.Stays (State.txnBegin s n) fs s₀ := by
  unfold State.txnBegin
  repeat' first
    | with_reducible assumption | with_reducible exact List.Subset.trans (by decide) hM | intro _
    | with_reducible apply State.modSes_stays | with_reducible apply State.setResult_stays

theorem State.txnCommit_stays (s : State) (n : Nat) (h0 : s.Stays fs s₀) (hM : [.sess] ⊆ fs) :
    State.Stays (State.txnCommit s n) fs s₀ := by
  unfold State.txnCommit
  repeat' first
    | with_reducible assumption | with_reducible exact List.Subset.trans (by decide) hM | intro _ | with_reducible apply ite_stays | with_reducible apply State.modSes_stays
    | with_reducible apply State.setResult_stays

theorem State.txnDiscard_stays (s : State) (n : Nat) (h0 : s.Stays fs s₀) (hM : [.sess, .ctxs, .hnw, .mbc] ⊆ fs) :
    State.Stays (State.txnDiscard s n) fs s₀ := by
  unfold State.txnDiscard
  repeat' first
    | with_reducible assumption | with_reducible exact List.Subset.trans (by decide) hM | intro _
    | (extract_lets +onlyGivenNames u; refine cut_goal (P := State.Stays u fs s₀) ?_ fun _ => ?_; (on_goal 2 => clear_value u); (on_goal 1 => (unfold u; clear u)))
    | with_reducible apply State.modSes_stays | with_reducible apply State.setResult_stays
    | with_reducible apply State.reply_stays   | dsimp only
    | split

theorem State.txnCmd_stays (s : State) (n v : Nat) (h0 : s.Stays fs s₀) (hM : [.sess, .ctxs, .hnw, .mbc] ⊆ fs) :
    State.Stays (State.txnCmd s n v) fs s₀ := by
  unfold State.txnCmd
  repeat' first
    | with_reducible assumption | with_reducible exact List.Subset.trans (by decide) hM | intro _ | with_reducible apply State.txnBegin_stays
    | with_reducible apply State.txnCommit_stays | with_reducible apply State.txnDiscard_stays 
     | dsimp only | split

theorem State.preview_stays (s : State) (n : Nat) (w : Staged) (h0 : s.Stays fs s₀) (hM : Field.all ⊆ fs) :
    State.Stays (State.preview s n w) fs s₀ := by
  unfold State.preview
  repeat' first
    | with_reducible assumption | with_reducible exact List.Subset.trans (by decide) hM | intro _ | (extract_lets +onlyGivenNames u; clear_value u) | with_reducible apply ite_stays
    | with_reducible apply State.applyOb_stays | with_reducible apply State.setImg_stays
    | with_reducible apply State.setOb_stays

theorem State.voteState_stays (after before : State) (w : Staged) (h0 : after.Stays fs s₀) (h1 : before.Stays fs s₀) (hM : [.sess] ⊆ fs) :
    State.Stays (State.voteState after before w) fs s₀ := by
  unfold State.voteState
  repeat' first
    | with_reducible assumption | with_reducible exact List.Subset.trans (by decide) hM | intro _ | with_reducible apply ite_stays
    | with_reducible apply State.with_sess

theorem State.txnDecide_stays (s : State) (n : Nat) (h0 : s.Stays fs s₀) (hM : [.sess, .ctxs, .hnw, .mbc] ⊆ fs) :
    State.Stays (State.txnDecide s n) fs s₀ := by
  unfold State.txnDecide
  repeat' first
    | with_reducible assumption | with_reducible exact List.Subset.trans (by decide) hM | intro _ | (extract_lets +onlyGivenNames u; clear_value u) | with_reducible apply ite_stays
    | with_reducible apply State.reply_stays | with_reducible apply State.modSes_stays
    | with_reducible apply State.setResult_stays  
    | dsimp only | split

theorem State.dieVote_stays (s : State) (n die : Nat) (h0 : s.Stays fs s₀) (hM : [.sess, .ctxs, .hnw, .mbc] ⊆ fs) :
    State.Stays (State.dieVote s n die) fs s₀ := by
  unfold State.dieVote
  repeat' first
    | with_reducible assumption | with_reducible exact List.Subset.trans (by decide) hM | intro _
    | (extract_lets +onlyGivenNames u; refine cut_goal (P := State.Stays u fs s₀) ?_ fun _ => ?_; (on_goal 2 => clear_value u); (on_goal 1 => (unfold u; clear u)))
    | with_reducible apply ite_stays | with_reducible apply State.modSes_stays | with_reducible apply State.txnDecide_stays
      | dsimp only | split

theorem State.txnTimeout_stays (s : State) (n die : Nat) (h0 : s.Stays fs s₀) (hM : [.objs, .sess, .ctxs, .hnw, .ntm, .mbc, .flt, .fresh] ⊆ fs) :
    State.Stays (State.txnTimeout s n die) fs s₀ := by
  unfold State.txnTimeout
  repeat' first
    | with_reducible assumption | with_reducible exact List.Subset.trans (by decide) hM | intro _
    | (extract_lets +onlyGivenNames u; refine cut_goal (P := State.Stays u fs s₀) ?_ fun _ => ?_; (on_goal 2 => clear_value u); (on_goal 1 => (unfold u; clear u)))
    | (extract_lets +onlyGivenNames u; clear_value u) | with_reducible apply ite_stays
    | with_reducible apply State.raise_stays | with_reducible apply State.reachMono_stays
    | with_reducible apply State.txnDecide_stays | with_reducible apply State.modSes_stays

theorem State.dieApply_stays (s : State) (n die : Nat) (h0 : s.Stays fs s₀) (hM : Field.all ⊆ fs) :
    State.Stays (State.dieApply s n die) fs s₀ := by
  unfold State.dieApply
  repeat' first
    | with_reducible assumption | with_reducible exact List.Subset.trans (by decide) hM | intro _ | (extract_lets +onlyGivenNames u; clear_value u) | with_reducible apply ite_stays
    | with_reducible apply State.modSes_stays | with_reducible apply State.each_stays
    | with_reducible apply State.applyWrite_stays

theorem State.txnApplyAll_stays (s : State) (h0 : s.Stays fs s₀) (hM : Field.all ⊆ fs) :
    State.Stays (State.txnApplyAll s) fs s₀ := by
  unfold State.txnApplyAll
  repeat' first
    | with_reducible assumption | with_reducible exact List.Subset.trans (by decide) hM | intro _ | with_reducible apply State.each_stays | with_reducible apply State.dieApply_stays

theorem State.txnSlack_stays (s : State) (change : Bool) (h0 : s.Stays fs s₀) (hM : Field.all ⊆ fs) :
    State.Stays (State.txnSlack s change) fs s₀ := by
  unfold State.txnSlack
  repeat' first
    | with_reducible assumption | with_reducible exact List.Subset.trans (by decide) hM | intro _ | with_reducible apply ite_stays | with_reducible apply State.txnApplyAll_stays

theorem State.txnSettle_stays (s : State) (h0 : s.Stays fs s₀) (hM : Field.all ⊆ fs) :
    State.Stays (State.txnSettle s) fs s₀ := by
  unfold State.txnSettle
  repeat' first
    | with_reducible assumption | with_reducible exact List.Subset.trans (by decide) hM | intro _ | with_reducible apply ite_stays | with_reducible apply State.txnApplyAll_stays

theorem State.txnApply_stays (s : State) (n die : Nat) (h0 : s.Stays fs s₀) (hM : Field.all ⊆ fs) :
    State.Stays (State.txnApply s n die) fs s₀ := by
  unfold State.txnApply
  repeat' first
    | with_reducible assumption | with_reducible exact List.Subset.trans (by decide) hM | intro _ | with_reducible apply ite_stays | with_reducible apply State.txnSettle_stays
    | with_reducible apply State.dieApply_stays

theorem State.txnConfirm_stays (s : State) (n die : Nat) (h0 : s.Stays fs s₀) (hM : [.sess] ⊆ fs) :
    State.Stays (State.txnConfirm s n die) fs s₀ := by
  unfold State.txnConfirm
  repeat' first
    | with_reducible assumption | with_reducible exact List.Subset.trans (by decide) hM | intro _ | (extract_lets +onlyGivenNames u; clear_value u) | with_reducible apply ite_stays
    | with_reducible apply State.modSes_stays

theorem State.txnExpire_stays (s : State) (n : Nat) (h0 : s.Stays fs s₀) (hM : [.objs, .sess, .ntm, .fresh] ⊆ fs) :
    State.Stays (State.txnExpire s n) fs s₀ := by
  unfold State.txnExpire
  repeat' first
    | with_reducible assumption | with_reducible exact List.Subset.trans (by decide) hM | intro _
    | (extract_lets +onlyGivenNames u; refine cut_goal (P := State.Stays u fs s₀) ?_ fun _ => ?_; (on_goal 2 => clear_value u); (on_goal 1 => (unfold u; clear u)))
    | with_reducible apply ite_stays | with_reducible apply State.reachMono_stays | with_reducible apply State.modSes_stays
    | with_reducible apply State.setResult_stays

theorem State.dictWrite_stays (s : State) (n key off width v : Nat) (h0 : s.Stays fs s₀) (hM : Field.all ⊆ fs) :
    State.Stays (State.dictWrite s n key off width v) fs s₀ := by
  unfold State.dictWrite
  repeat' first
    | with_reducible assumption | with_reducible exact List.Subset.trans (by decide) hM | intro _
    | (extract_lets +onlyGivenNames u; refine cut_goal (P := State.Stays u fs s₀) ?_ fun _ => ?_; (on_goal 2 => clear_value u); (on_goal 1 => (unfold u; clear u)))
    | (extract_lets +onlyGivenNames u; clear_value u) | with_reducible apply ite_stays
    | with_reducible apply State.oemEnter_stays | with_reducible apply State.setResult_stays
    | with_reducible apply State.apWrite_stays | with_reducible apply State.when_stays
    | with_reducible apply State.refusedNote_stays | with_reducible apply State.txnCmd_stays
    | with_reducible apply State.domOpen_stays | with_reducible apply State.domClose_stays
    | with_reducible apply State.modSes_stays | with_reducible apply State.applyWrite_stays
    | with_reducible apply State.olcReply_stays | with_reducible apply State.txnSettle_stays

theorem State.readEffect_stays (s : State) (n key : Nat) (h0 : s.Stays fs s₀) (hM : [.objs, .sess, .mbc] ⊆ fs) :
    State.Stays (State.readEffect s n key) fs s₀ := by
  unfold State.readEffect
  repeat' first
    | with_reducible assumption | with_reducible exact List.Subset.trans (by decide) hM | intro _ | with_reducible apply ite_stays | with_reducible apply State.setOb_stays
    | with_reducible apply State.modSes_stays | with_reducible apply State.rdRead_stays

theorem State.dictRead_stays (s : State) (n key : Nat) (h0 : s.Stays fs s₀) (hM : [.objs, .sess, .dic, .ctxs, .ntm, .mbc, .pwr, .fresh] ⊆ fs) :
    State.Stays (State.dictRead s n key).1 fs s₀ := by
  unfold State.dictRead
  repeat' first
    | with_reducible assumption | with_reducible exact List.Subset.trans (by decide) hM | intro _ | with_reducible apply ite_stays | with_reducible apply State.oemEnter_stays
    | with_reducible apply State.setResult_stays | with_reducible apply State.apRead_stays
    | with_reducible apply State.readEffect_stays  
    | dsimp only | split

theorem State.sesClose_stays (s : State) (n : Nat) (h0 : s.Stays fs s₀) (hM : [.objs, .sess, .dic, .bdr] ⊆ fs) :
    State.Stays (State.sesClose s n) fs s₀ := by
  unfold State.sesClose
  repeat' first
    | with_reducible assumption | with_reducible exact List.Subset.trans (by decide) hM | intro _
    | (extract_lets +onlyGivenNames u; refine cut_goal (P := State.Stays u fs s₀) ?_ fun _ => ?_; (on_goal 2 => clear_value u); (on_goal 1 => (unfold u; clear u)))
    | (extract_lets +onlyGivenNames u; clear_value u) | with_reducible apply ite_stays
    | with_reducible apply State.bedDrop_stays | with_reducible apply State.setSes_stays
    | with_reducible apply State.with_dic

theorem State.sesIdle_stays (s : State) (n : Nat) (h0 : s.Stays fs s₀) (hM : [.objs, .sess, .dic, .ntm, .bdr, .fresh] ⊆ fs) :
    State.Stays (State.sesIdle s n) fs s₀ := by
  unfold State.sesIdle
  repeat' first
    | with_reducible assumption | with_reducible exact List.Subset.trans (by decide) hM | intro _ | with_reducible apply ite_stays | with_reducible apply State.sesClose_stays
    | with_reducible apply State.reachMono_stays

theorem State.lockoutEnd_stays (s : State) (path : Nat) (h0 : s.Stays fs s₀) (hM : [.objs, .dic, .ntm, .fresh] ⊆ fs) :
    State.Stays (State.lockoutEnd s path) fs s₀ := by
  unfold State.lockoutEnd
  repeat' first
    | with_reducible assumption | with_reducible exact List.Subset.trans (by decide) hM | intro _
    | (extract_lets +onlyGivenNames u; refine cut_goal (P := State.Stays u fs s₀) ?_ fun _ => ?_; (on_goal 2 => clear_value u); (on_goal 1 => (unfold u; clear u)))
    | (extract_lets +onlyGivenNames u; clear_value u) | with_reducible apply ite_stays
    | with_reducible apply State.reachMono_stays | dsimp only | split | with_reducible apply State.with_dic

theorem State.settleEdges_stays (s : State) (h0 : s.Stays fs s₀) (hM : [.objs, .mem, .ecc, .ctxs, .cores, .tds, .tasks, .img, .olc, .str, .bdr, .flt, .fresh] ⊆ fs) :
    State.Stays (State.settleEdges s) fs s₀ := by
  unfold State.settleEdges
  repeat' first
    | with_reducible assumption | with_reducible exact List.Subset.trans (by decide) hM | intro _ | with_reducible apply ite_stays | with_reducible apply State.each_stays
    | with_reducible apply State.openGates_stays | with_reducible apply State.edgeInitsOf_stays

theorem State.ebbLatch_stays (s : State) (h0 : s.Stays fs s₀) (hM : [.objs, .mem, .img, .sent, .fio, .dma, .fresh] ⊆ fs) :
    State.Stays (State.ebbLatch s) fs s₀ := by
  unfold State.ebbLatch
  repeat' first
    | with_reducible assumption | with_reducible exact List.Subset.trans (by decide) hM | intro _
    | (extract_lets +onlyGivenNames u; refine cut_goal (P := State.Stays u fs s₀) ?_ fun _ => ?_; (on_goal 2 => clear_value u); (on_goal 1 => (unfold u; clear u)))
    | with_reducible apply ite_stays | with_reducible apply State.latchLine_stays | with_reducible apply State.seqLine_stays
    | with_reducible apply State.dictate_stays | with_reducible apply State.putLine_stays

theorem State.ebbCalendar_stays (s : State) (h0 : s.Stays fs s₀) (hM : [.objs, .sent] ⊆ fs) :
    State.Stays (State.ebbCalendar s) fs s₀ := by
  unfold State.ebbCalendar
  repeat' first
    | with_reducible assumption | with_reducible exact List.Subset.trans (by decide) hM | intro _ | with_reducible apply ite_stays | with_reducible apply State.dictate_stays
    | with_reducible apply State.setOb_stays

theorem State.stopEnd_stays (s : State) (h0 : s.Stays fs s₀) (hM : [.objs, .mem, .sess, .ctxs, .cores, .tds, .tasks, .img, .str, .dma, .bdr, .flt, .sta, .fresh] ⊆ fs) :
    State.Stays (State.stopEnd s) fs s₀ := by
  unfold State.stopEnd
  repeat' first
    | with_reducible assumption | with_reducible exact List.Subset.trans (by decide) hM | intro _
    | (extract_lets +onlyGivenNames u; refine cut_goal (P := State.Stays u fs s₀) ?_ fun _ => ?_; (on_goal 2 => clear_value u); (on_goal 1 => (unfold u; clear u)))
    | with_reducible apply State.each_stays | with_reducible apply State.haltContexts_stays
    | with_reducible apply State.haltTaskAt_stays | with_reducible apply State.setTds_stays
    | with_reducible apply State.publishNow_stays | with_reducible apply State.pumpForces_stays
    | with_reducible apply State.reschedAll_stays | with_reducible apply State.toTide_stays

theorem State.ebbBegin_stays (s : State) (h0 : s.Stays fs s₀) (hM : [.objs, .mem, .ctxs, .tds, .img, .olc, .str, .hnw, .ntm, .sent, .msgs, .red, .fio, .dma, .bdr, .flt, .sta, .fresh] ⊆ fs) :
    State.Stays (State.ebbBegin s) fs s₀ := by
  unfold State.ebbBegin
  repeat' first
    | with_reducible assumption | with_reducible exact List.Subset.trans (by decide) hM | intro _
    | (extract_lets +onlyGivenNames u; refine cut_goal (P := State.Stays u fs s₀) ?_ fun _ => ?_; (on_goal 2 => clear_value u); (on_goal 1 => (unfold u; clear u)))
    | (extract_lets +onlyGivenNames u; clear_value u) | with_reducible apply ite_stays
    | with_reducible apply State.outMisses_stays | with_reducible apply State.when_stays
    | with_reducible apply State.bwXcheck_stays | with_reducible apply State.setTds_stays
    | with_reducible apply State.setOb_stays | with_reducible apply State.setOlc_stays
    | with_reducible apply State.toTide_stays | with_reducible apply State.kevent_stays
    | with_reducible refine State.setRed_stays _ ?_ (by refine ⟨?_, ?_, ?_, ?_, ?_, ?_, ?_, ?_, ?_⟩ <;> first | exact .inr rfl | exact .inl (Field.mem_of hM (by decide))) rfl | with_reducible apply State.setHnw_stays
    | with_reducible apply State.inputCheck_stays | with_reducible apply State.pumpForces_stays
    | with_reducible apply State.dmaPhase_stays | with_reducible apply State.swapRetry_stays
    | with_reducible apply State.ebbLatch_stays | with_reducible apply State.ebbCalendar_stays

theorem State.ebbPoint_stays (s : State) (h0 : s.Stays fs s₀) (hM : [.objs, .mem, .sess, .ctxs, .cores, .tds, .tasks, .img, .olc, .str, .hnw, .ntm, .sent, .msgs, .red, .fio, .dma, .bdr, .flt, .sta, .fresh] ⊆ fs) :
    State.Stays (State.ebbPoint s) fs s₀ := by
  unfold State.ebbPoint
  repeat' first
    | with_reducible assumption | with_reducible exact List.Subset.trans (by decide) hM | intro _
    | (extract_lets +onlyGivenNames u; refine cut_goal (P := State.Stays u fs s₀) ?_ fun _ => ?_; (on_goal 2 => clear_value u); (on_goal 1 => (unfold u; clear u)))
    | with_reducible apply ite_stays | with_reducible apply State.reach_stays | with_reducible apply State.setTds_stays
    | with_reducible apply State.stopEnd_stays | with_reducible apply State.ebbBegin_stays

theorem State.inDeadline_stays (s : State) (h0 : s.Stays fs s₀) (hM : [.objs, .mem, .tds, .img, .hnw, .ntm, .msgs, .red, .flt, .sta, .fresh] ⊆ fs) :
    State.Stays (State.inDeadline s) fs s₀ := by
  unfold State.inDeadline
  repeat' first
    | with_reducible assumption | with_reducible exact List.Subset.trans (by decide) hM | intro _
    | (extract_lets +onlyGivenNames u; refine cut_goal (P := State.Stays u fs s₀) ?_ fun _ => ?_; (on_goal 2 => clear_value u); (on_goal 1 => (unfold u; clear u)))
    | with_reducible apply ite_stays | with_reducible apply State.ringsTell_stays
    | with_reducible apply State.ebbSamples_stays | with_reducible apply State.reach_stays
    | with_reducible apply State.inputComplete_stays | with_reducible apply State.deadline_stays

theorem State.replApply_stays (s : State) (m : Sys2Proof.Repl) (h0 : s.Stays fs s₀) (hM : Field.all ⊆ fs) :
    State.Stays (State.replApply s m) fs s₀ := by
  unfold State.replApply
  repeat' first
    | with_reducible assumption | with_reducible exact List.Subset.trans (by decide) hM | intro _ | with_reducible apply State.applyOb_stays
    | with_reducible apply State.forceChange_stays  
    | dsimp only | split

theorem State.replAll_stays (s : State) (h0 : s.Stays fs s₀) (hM : Field.all ⊆ fs) :
    State.Stays (State.replAll s) fs s₀ := by
  unfold State.replAll
  repeat' first
    | with_reducible assumption | with_reducible exact List.Subset.trans (by decide) hM | intro _ | (extract_lets +onlyGivenNames u; clear_value u)
    | with_reducible apply State.each_stays | with_reducible refine State.setRed_stays _ ?_ (by refine ⟨?_, ?_, ?_, ?_, ?_, ?_, ?_, ?_, ?_⟩ <;> first | exact .inr rfl | exact .inl (Field.mem_of hM (by decide))) rfl
    | with_reducible apply State.replApply_stays

theorem State.mergeInput_stays (s : State) (h0 : s.Stays fs s₀) (hM : [.mem, .tds, .img] ⊆ fs) :
    State.Stays (State.mergeInput s) fs s₀ := by
  unfold State.mergeInput
  repeat' first
    | with_reducible assumption | with_reducible exact List.Subset.trans (by decide) hM | intro _
    | (extract_lets +onlyGivenNames u; refine cut_goal (P := State.Stays u fs s₀) ?_ fun _ => ?_; (on_goal 2 => clear_value u); (on_goal 1 => (unfold u; clear u)))
    | (extract_lets +onlyGivenNames u; clear_value u) | with_reducible apply ite_stays
    | with_reducible apply State.setTds_stays | with_reducible apply State.setImg_stays | with_reducible apply State.each_stays
    | with_reducible apply State.blit_stays

theorem State.floodBegin_stays (s : State) (h0 : s.Stays fs s₀) (hM : Field.all ⊆ fs) :
    State.Stays (State.floodBegin s) fs s₀ := by
  unfold State.floodBegin
  repeat' first
    | with_reducible assumption | with_reducible exact List.Subset.trans (by decide) hM | intro _
    | (extract_lets +onlyGivenNames u; refine cut_goal (P := State.Stays u fs s₀) ?_ fun _ => ?_; (on_goal 2 => clear_value u); (on_goal 1 => (unfold u; clear u)))
    | (extract_lets +onlyGivenNames u; clear_value u) | with_reducible apply State.setTds_stays
    | with_reducible apply State.ringsTell_stays | with_reducible apply State.when_stays
    | with_reducible apply State.setOb_stays | with_reducible apply State.incOb_stays
    | with_reducible apply State.replAll_stays | with_reducible apply State.floodBitmap_stays
    | with_reducible apply State.mergeInput_stays | with_reducible apply State.sample_stays
    | with_reducible apply State.releaseAll_stays | with_reducible apply State.settleEdges_stays
    | with_reducible apply State.pumpForces_stays | with_reducible apply State.dmaPhase_stays

theorem State.floodStart_stays (s : State) (h0 : s.Stays fs s₀) (hM : Field.all ⊆ fs) :
    State.Stays (State.floodStart s) fs s₀ := by
  unfold State.floodStart
  repeat' first
    | with_reducible assumption | with_reducible exact List.Subset.trans (by decide) hM | intro _ | with_reducible apply ite_stays | with_reducible apply State.floodBegin_stays
    | with_reducible apply State.reach_stays

theorem State.floodLatest_stays (s : State) (h0 : s.Stays fs s₀) (hM : Field.all ⊆ fs) :
    State.Stays (State.floodLatest s) fs s₀ := by
  unfold State.floodLatest
  repeat' first
    | with_reducible assumption | with_reducible exact List.Subset.trans (by decide) hM | intro _ | with_reducible apply ite_stays | with_reducible apply State.floodBegin_stays
    | with_reducible apply State.agreeLate_stays | with_reducible apply State.reach_stays

theorem State.triggerNext_stays (s : State) (h0 : s.Stays fs s₀) (hM : [.objs, .mem, .ecc, .sess, .ctxs, .cores, .tds, .tasks, .img, .olc, .str, .sent, .bdr, .flt, .sta, .fresh] ⊆ fs) :
    State.Stays (State.triggerNext s) fs s₀ := by
  unfold State.triggerNext
  repeat' first
    | with_reducible assumption | with_reducible exact List.Subset.trans (by decide) hM | intro _ | with_reducible apply ite_stays | with_reducible apply State.setTds_stays
    | with_reducible apply State.settleEdges_stays | with_reducible apply State.decideTrigger_stays
      | dsimp only | split

theorem State.copyInDone_stays (s : State) (t i : Nat) (h0 : s.Stays fs s₀) (hM : [.objs, .mem, .ecc, .sess, .ctxs, .cores, .tds, .tasks, .img, .olc, .str, .dma, .bdr, .flt, .sta, .fresh] ⊆ fs) :
    State.Stays (State.copyInDone s t i) fs s₀ := by
  unfold State.copyInDone
  repeat' first
    | with_reducible assumption | with_reducible exact List.Subset.trans (by decide) hM | intro _ | with_reducible apply State.settleEdges_stays
    | with_reducible apply State.copyInEnd_stays  
    | dsimp only | split

theorem State.cutLine_stays (s : State) (h0 : s.Stays fs s₀) (hM : [.objs, .fio, .dma, .flt, .fresh] ⊆ fs) :
    State.Stays (State.cutLine s) fs s₀ := by
  unfold State.cutLine
  repeat' first
    | with_reducible assumption | with_reducible exact List.Subset.trans (by decide) hM | intro _ | (extract_lets +onlyGivenNames u; clear_value u) | with_reducible apply ite_stays
    | with_reducible apply State.outLineRead_stays

theorem State.resyncFinal_stays (s : State) (h0 : s.Stays fs s₀) (hM : [.tds] ⊆ fs) :
    State.Stays (State.resyncFinal s) fs s₀ := by
  unfold State.resyncFinal
  repeat' first
    | with_reducible assumption | with_reducible exact List.Subset.trans (by decide) hM | intro _ | with_reducible apply ite_stays | with_reducible apply State.setTds_stays

theorem State.cut_stays (s : State) (h0 : s.Stays fs s₀) (hM : [.objs, .mem, .tds, .img, .olc, .ntm, .msgs, .fio, .dma, .flt, .fresh] ⊆ fs) :
    State.Stays (State.cut s) fs s₀ := by
  unfold State.cut
  repeat' first
    | with_reducible assumption | with_reducible exact List.Subset.trans (by decide) hM | intro _
    | (extract_lets +onlyGivenNames u; refine cut_goal (P := State.Stays u fs s₀) ?_ fun _ => ?_; (on_goal 2 => clear_value u); (on_goal 1 => (unfold u; clear u)))
    | (extract_lets +onlyGivenNames u; clear_value u) | with_reducible apply ite_stays
    | with_reducible apply State.reach_stays | with_reducible apply State.copyProgress_stays
    | with_reducible apply State.setOb_stays | with_reducible apply State.addOb_stays | with_reducible apply State.setTds_stays
    | with_reducible apply State.setImg_stays | with_reducible apply State.draw_stays
    | with_reducible apply State.dmaPhase_stays | with_reducible apply State.resyncFinal_stays
    | with_reducible apply State.cutTest_stays | with_reducible apply State.cutLine_stays

theorem State.cutCopyEnd_stays (s : State) (h0 : s.Stays fs s₀) (hM : [.objs, .doms, .mem, .ecc, .sess, .ctxs, .cores, .tds, .tasks, .img, .olc, .str, .ntm, .role, .msgs, .red, .dma, .bdr, .flt, .sta, .fresh] ⊆ fs) :
    State.Stays (State.cutCopyEnd s) fs s₀ := by
  unfold State.cutCopyEnd
  repeat' first
    | with_reducible assumption | with_reducible exact List.Subset.trans (by decide) hM | intro _
    | (extract_lets +onlyGivenNames u; refine cut_goal (P := State.Stays u fs s₀) ?_ fun _ => ?_; (on_goal 2 => clear_value u); (on_goal 1 => (unfold u; clear u)))
    | (extract_lets +onlyGivenNames u; clear_value u) | with_reducible apply ite_stays
    | with_reducible apply State.copyProgress_stays | with_reducible apply State.reach_stays
    | with_reducible apply State.setOb_stays | with_reducible apply State.setImg_stays
    | with_reducible apply State.sample_stays | with_reducible apply State.settleEdges_stays
    | with_reducible apply State.landHeld_stays | with_reducible apply State.outDigestSend_stays

theorem State.windowClose_stays (s : State) (h0 : s.Stays fs s₀) (hM : [.objs, .mem, .ecc, .sess, .ctxs, .cores, .tds, .tasks, .img, .olc, .str, .dma, .bdr, .flt, .sta, .fresh] ⊆ fs) :
    State.Stays (State.windowClose s) fs s₀ := by
  unfold State.windowClose
  repeat' first
    | with_reducible assumption | with_reducible exact List.Subset.trans (by decide) hM | intro _ | with_reducible apply ite_stays | with_reducible apply State.setImg_stays
    | with_reducible apply State.settleEdges_stays | with_reducible apply State.landHeld_stays

theorem State.launch_stays (s : State) (h0 : s.Stays fs s₀) (hM : [.objs, .tds, .hnw, .ntm, .dma, .flt, .fresh] ⊆ fs) :
    State.Stays (State.launch s) fs s₀ := by
  unfold State.launch
  repeat' first
    | with_reducible assumption | with_reducible exact List.Subset.trans (by decide) hM | intro _
    | (extract_lets +onlyGivenNames u; refine cut_goal (P := State.Stays u fs s₀) ?_ fun _ => ?_; (on_goal 2 => clear_value u); (on_goal 1 => (unfold u; clear u)))
    | with_reducible apply ite_stays | with_reducible apply State.setTds_stays | with_reducible apply State.reach_stays
    | with_reducible apply State.dmaPhase_stays | with_reducible apply State.slackTrains_stays

theorem State.slackRefresh_stays (s : State) (h0 : s.Stays fs s₀) (hM : [.objs, .ntm, .fio, .fresh] ⊆ fs) :
    State.Stays (State.slackRefresh s) fs s₀ := by
  unfold State.slackRefresh
  repeat' first
    | with_reducible assumption | with_reducible exact List.Subset.trans (by decide) hM | intro _ | with_reducible apply ite_stays | with_reducible apply State.lateRefresh_stays
    | with_reducible apply State.fioRefresh_stays

theorem State.slackPoint_stays (s : State) (h0 : s.Stays fs s₀) (hM : Field.all ⊆ fs) :
    State.Stays (State.slackPoint s) fs s₀ := by
  unfold State.slackPoint
  repeat' first
    | with_reducible assumption | with_reducible exact List.Subset.trans (by decide) hM | intro _
    | (extract_lets +onlyGivenNames u; refine cut_goal (P := State.Stays u fs s₀) ?_ fun _ => ?_; (on_goal 2 => clear_value u); (on_goal 1 => (unfold u; clear u)))
    | with_reducible apply ite_stays | with_reducible apply State.setTds_stays | with_reducible apply State.reach_stays
    | with_reducible apply State.pumpForces_stays | with_reducible apply State.dmaPhase_stays
    | with_reducible apply State.confirmCheck_stays | with_reducible apply State.swapClaim_stays
    | with_reducible apply State.slackRefresh_stays | with_reducible apply State.txnSettle_stays
    | with_reducible apply State.txnSlack_stays

theorem State.slackEnd_stays (s : State) (h0 : s.Stays fs s₀) (hM : [.objs, .mem, .ecc, .sess, .ctxs, .cores, .tds, .tasks, .img, .olc, .str, .ntm, .sent, .msgs, .red, .dma, .bdr, .flt, .sta, .fresh] ⊆ fs) :
    State.Stays (State.slackEnd s) fs s₀ := by
  have key : ∀ u : State, u.Stays fs s₀ → State.Stays (((if u.red.role = .active ∧ u.red.finalWait = true ∧ u.tds.hold = true ∧
      u.olc.point = false ∧ u.olc.cand = none then
        (u.finalSend.setRed fun r => { r with finalWait := false, pass := 0 }).releaseHeld false
      else u).dmaPhase 5).settleEdges) fs s₀ := by
    intro u hu
    refine State.settleEdges_stays _ (State.dmaPhase_stays _ _ (ite_stays ?_ hu) (Field.within hM (by decide))) (Field.within hM (by decide))
    exact State.releaseHeld_stays _ _ (State.setRed_stays (fun r => { r with finalWait := false, pass := 0 })
      (State.finalSend_stays _ hu (Field.within hM (by decide))) (by refine ⟨?_, ?_, ?_, ?_, ?_, ?_, ?_, ?_, ?_⟩ <;> first | exact .inr rfl | exact .inl (Field.mem_of hM (by decide))) rfl) (Field.within hM (by decide))
  unfold State.slackEnd
  by_cases hc : (s.tideOn && s.tds.swin) = true
  · rw [if_pos hc]
    exact key _ (State.setTds_stays _ _ (State.reach_stays _ _ h0 (Field.within hM (by decide))) (Field.within hM (by decide)))
  · rw [if_neg hc]
    exact h0

theorem State.retSave_stays (s : State) (n b : Nat) (h0 : s.Stays fs s₀) (hM : [.objs, .mem, .retAt, .retNext, .bdr] ⊆ fs) :
    State.Stays (State.retSave s n b) fs s₀ := by
  unfold State.retSave
  repeat' first
    | with_reducible assumption | with_reducible exact List.Subset.trans (by decide) hM | intro _
    | (extract_lets +onlyGivenNames u; refine cut_goal (P := State.Stays u fs s₀) ?_ fun _ => ?_; (on_goal 2 => clear_value u); (on_goal 1 => (unfold u; clear u)))
    | (extract_lets +onlyGivenNames u; refine cut_goal (P := ∀ s, State.Stays s fs s₀ → State.Stays (u s) fs s₀) ?_ fun _ => ?_; (on_goal 2 => clear_value u); (on_goal 1 => (unfold u; clear u)))
    | (extract_lets +onlyGivenNames u; clear_value u) | with_reducible apply_assumption | with_reducible apply ite_stays
    | with_reducible apply State.incOb_stays | with_reducible apply State.bedTxn_stays
    | with_reducible apply State.with_retAt
    | with_reducible apply State.with_retNext

theorem State.setCmd_stays (s : State) (n key v : Nat) (h0 : s.Stays fs s₀) (hM : Field.all ⊆ fs) :
    State.Stays (State.setCmd s n key v) fs s₀ := by
  unfold State.setCmd
  repeat' first
    | with_reducible assumption | with_reducible exact List.Subset.trans (by decide) hM | intro _ | with_reducible apply State.dictWrite_stays

theorem State.putDomain_stays (s : State) (n key : Nat) (data : List Sys2Proof.Byte) (h0 : s.Stays fs s₀) (hM : Field.all ⊆ fs) :
    State.Stays (State.putDomain s n key data) fs s₀ := by
  unfold State.putDomain
  repeat' first
    | with_reducible assumption | with_reducible exact List.Subset.trans (by decide) hM | intro _
    | (extract_lets +onlyGivenNames u; refine cut_goal (P := State.Stays u fs s₀) ?_ fun _ => ?_; (on_goal 2 => clear_value u); (on_goal 1 => (unfold u; clear u)))
    | with_reducible apply ite_stays | with_reducible apply State.setCmd_stays | with_reducible apply State.xferPut_stays
      | dsimp only | split

theorem State.openDomain_stays (s : State) (n key : Nat) (h0 : s.Stays fs s₀) (hM : Field.all ⊆ fs) :
    State.Stays (State.openDomain s n key) fs s₀ := by
  unfold State.openDomain
  repeat' first
    | with_reducible assumption | with_reducible exact List.Subset.trans (by decide) hM | intro _ | with_reducible apply State.setCmd_stays

end Sys2Proof.Machine
end


section
/-! SUPPORT. What each operation of SDO servers, a core and its instructions, and the rows of the field network leaves as it was. -/

namespace Sys2Proof.Machine

variable {fs : List Field} {s₀ : State}

theorem State.alarmRun_stays (s : State) (n : Nat) (h0 : s.Stays fs s₀) (hM : Field.all ⊆ fs) :
    State.Stays (State.alarmRun s n) fs s₀ := by
  unfold State.alarmRun
  repeat' first
    | with_reducible assumption | with_reducible exact List.Subset.trans (by decide) hM | intro _ | with_reducible apply ite_stays | with_reducible apply State.wakeUp_stays
    | with_reducible apply State.alarmFire_stays

theorem State.calTick_stays (s : State) (h0 : s.Stays fs s₀) (hM : Field.all ⊆ fs) :
    State.Stays (State.calTick s) fs s₀ := by
  unfold State.calTick
  repeat' first
    | with_reducible assumption | with_reducible exact List.Subset.trans (by decide) hM | intro _ | with_reducible apply State.setCal_stays | with_reducible apply State.each_stays
    | with_reducible apply State.alarmRun_stays

theorem State.sdoClear_stays (s : State) (k : Nat) (h0 : s.Stays fs s₀) (hM : [.sess, .mbc] ⊆ fs) :
    State.Stays (State.sdoClear s k) fs s₀ := by
  unfold State.sdoClear
  repeat' first
    | with_reducible assumption | with_reducible exact List.Subset.trans (by decide) hM | intro _
    | with_reducible apply State.modMb_stays | with_reducible apply State.modSes_stays

theorem State.sdoStop_stays (s : State) (k key code : Nat) (h0 : s.Stays fs s₀) (hM : [.sess, .mbc] ⊆ fs) :
    State.Stays (State.sdoStop s k key code) fs s₀ := by
  unfold State.sdoStop
  repeat' first
    | with_reducible assumption | with_reducible exact List.Subset.trans (by decide) hM | intro _
    | with_reducible apply State.sdoAbort_stays | with_reducible apply State.sdoClear_stays

theorem State.sdoAfter_stays (s s' : State) (k key : Nat) (ack : Option (List Byte)) (v : Nat) (ok : State → State) (h : s'.Stays fs s₀)
    (hf : ∀ u, State.Stays u fs s₀ → (ok u).Stays fs s₀) (hM : [.sess, .mbc] ⊆ fs) :
    State.Stays (s.sdoAfter s' k key ack v ok) fs s₀ := by
  unfold State.sdoAfter
  extract_lets n st
  split
  · exact State.modMb_stays _ _ _ h (Field.within hM (by decide))
  · split
    · exact State.sdoStop_stays _ _ _ _ h (Field.within hM (by decide))
    · exact hf _ h

theorem State.sdoStore_stays (s : State) (k key : Nat) (b ack : List Sys2Proof.Byte) (h0 : s.Stays fs s₀) (hM : Field.all ⊆ fs) :
    State.Stays (State.sdoStore s k key b ack) fs s₀ := by
  unfold State.sdoStore
  extract_lets n ok w
  have hf : ∀ u, State.Stays u fs s₀ → (ok u).Stays fs s₀ := fun u hu => State.sdoSend_stays _ _ _ hu (Field.within hM (by decide))
  clear_value ok w n
  split
  · exact State.sdoAfter_stays _ _ _ _ _ _ _ (State.setCmd_stays _ _ _ _ (State.xferPut_stays _ _ _ _ h0 (Field.within hM (by decide))) (Field.within hM (by decide))) hf (Field.within hM (by decide))
  · exact State.sdoAfter_stays _ _ _ _ _ _ _ (State.dictWrite_stays _ _ _ _ _ _ h0 (Field.within hM (by decide))) hf (Field.within hM (by decide))

theorem State.sdoOpenDown_stays (s : State) (k key : Nat) (h0 : s.Stays fs s₀) (hM : Field.all ⊆ fs) :
    State.Stays (State.sdoOpenDown s k key) fs s₀ := by
  unfold State.sdoOpenDown
  repeat' first
    | with_reducible assumption | with_reducible exact List.Subset.trans (by decide) hM | intro _ | with_reducible apply ite_stays | with_reducible apply State.setCmd_stays

theorem State.sdoSegment_stays (s : State) (k cmd : Nat) (down : Bool) (f : SdoXfer → State) (h : s.Stays fs s₀)
    (hf : ∀ x, State.Stays (f x) fs s₀) (hM : [.sess, .mbc] ⊆ fs) :
    State.Stays (s.sdoSegment k cmd down f) fs s₀ := by
  unfold State.sdoSegment
  split
  · exact State.sdoStop_stays _ _ _ _ h (Field.within hM (by decide))
  · repeat' split
    all_goals first | exact State.sdoStop_stays _ _ _ _ h (Field.within hM (by decide)) | exact hf _

theorem State.sdoDown_stays (s : State) (k key cmd : Nat) (d : List Sys2Proof.Byte) (h0 : s.Stays fs s₀) (hM : Field.all ⊆ fs) :
    State.Stays (State.sdoDown s k key cmd d) fs s₀ := by
  unfold State.sdoDown
  extract_lets o
  have ho : o.Stays fs s₀ := State.sdoOpenDown_stays _ _ _ h0 (Field.within hM (by decide))
  clear_value o
  split
  · exact State.sdoStop_stays _ _ _ _ ho (Field.within hM (by decide))
  · split
    · exact State.sdoStore_stays _ _ _ _ _ ho (Field.within hM (by decide))
    · exact State.sdoSend_stays _ _ _ (State.modMb_stays _ _ _ ho (Field.within hM (by decide))) (Field.within hM (by decide))

theorem State.sdoDownSeg_stays (s : State) (k : Nat) (x : SdoXfer) (cmd : Nat) (d : List Sys2Proof.Byte) (h0 : s.Stays fs s₀) (hM : Field.all ⊆ fs) :
    State.Stays (State.sdoDownSeg s k x cmd d) fs s₀ := by
  unfold State.sdoDownSeg
  extract_lets y next
  have hn : next.Stays fs s₀ := State.modMb_stays _ _ _ h0 (Field.within hM (by decide))
  clear_value next y
  split
  · exact State.sdoStore_stays _ _ _ _ _ (State.modMb_stays _ _ _ h0 (Field.within hM (by decide))) (Field.within hM (by decide))
  · exact State.sdoSend_stays _ _ _ hn (Field.within hM (by decide))

theorem State.sdoUpload_stays (s : State) (k key : Nat) (h0 : s.Stays fs s₀) (hM : Field.all ⊆ fs) :
    State.Stays (State.sdoUpload s k key) fs s₀ := by
  unfold State.sdoUpload
  extract_lets n
  clear_value n
  split
  · refine State.sdoAfter_stays _ _ _ _ _ _ _ (State.openDomain_stays _ _ _ h0 (Field.within hM (by decide))) (fun u hu => ?_) (Field.within hM (by decide))
    extract_lets b v
    have hv : v.Stays fs s₀ := by
      unfold v
      split
      · exact State.modSes_stays _ _ _ hu (Field.within hM (by decide))
      · exact hu
    clear_value v b
    exact State.sdoUp_stays _ _ _ _ hv (Field.within hM (by decide))
  · split
    rename_i heq
    refine State.sdoAfter_stays _ _ _ _ _ _ _ (stays_of_eq heq (State.dictRead_stays _ _ _ h0 (Field.within hM (by decide)))) (fun u hu => ?_) (Field.within hM (by decide))
    extract_lets w
    exact State.sdoUp_stays _ _ _ _ hu (Field.within hM (by decide))

theorem State.sdoUpSeg_stays (s : State) (k : Nat) (x : SdoXfer) (h0 : s.Stays fs s₀) (hM : [.sess, .mbc] ⊆ fs) :
    State.Stays (State.sdoUpSeg s k x) fs s₀ := by
  unfold State.sdoUpSeg
  repeat' first
    | with_reducible assumption | with_reducible exact List.Subset.trans (by decide) hM | intro _
    | (extract_lets +onlyGivenNames u; refine cut_goal (P := State.Stays u fs s₀) ?_ fun _ => ?_; (on_goal 2 => clear_value u); (on_goal 1 => (unfold u; clear u)))
    | (extract_lets +onlyGivenNames u; clear_value u) | with_reducible apply ite_stays
    | with_reducible apply State.sdoClear_stays | with_reducible apply State.modMb_stays
    | with_reducible apply State.sdoSend_stays

theorem State.sdoServe_stays (s : State) (k : Nat) (d : List Sys2Proof.Byte) (h0 : s.Stays fs s₀) (hM : Field.all ⊆ fs) :
    State.Stays (State.sdoServe s k d) fs s₀ := by
  unfold State.sdoServe
  extract_lets cmd key
  clear_value cmd key
  split
  · exact State.sdoSegment_stays _ _ _ _ _ h0 (fun x => State.sdoDownSeg_stays _ _ _ _ _ h0 (Field.within hM (by decide))) (Field.within hM (by decide))
  · exact State.sdoDown_stays _ _ _ _ _ (State.sdoClear_stays _ _ h0 (Field.within hM (by decide))) (Field.within hM (by decide))
  · exact State.sdoUpload_stays _ _ _ (State.sdoClear_stays _ _ h0 (Field.within hM (by decide))) (Field.within hM (by decide))
  · exact State.sdoSegment_stays _ _ _ _ _ h0 (fun x => State.sdoUpSeg_stays _ _ _ h0 (Field.within hM (by decide))) (Field.within hM (by decide))
  · exact State.sdoClear_stays _ _ h0 (Field.within hM (by decide))
  · exact State.sdoStop_stays _ _ _ _ h0 (Field.within hM (by decide))

theorem State.canArrive_stays (s : State) (k : Nat) (f : Sys2Proof.CanFrame) (stamp : Nat) (h0 : s.Stays fs s₀) (hM : Field.all ⊆ fs) :
    State.Stays (State.canArrive s k f stamp) fs s₀ := by
  unfold State.canArrive
  repeat' first
    | with_reducible assumption | with_reducible exact List.Subset.trans (by decide) hM | intro _
    | (extract_lets +onlyGivenNames u; refine cut_goal (P := State.Stays u fs s₀) ?_ fun _ => ?_; (on_goal 2 => clear_value u); (on_goal 1 => (unfold u; clear u)))
    | (extract_lets +onlyGivenNames u; clear_value u) | with_reducible apply ite_stays
    | with_reducible apply State.canReceive_stays | with_reducible apply State.sdoServe_stays

theorem State.cacheHit_stays (s : State) (c kind line : Nat) (l : List Nat) (h0 : s.Stays fs s₀) (hM : [.objs, .cores] ⊆ fs) :
    State.Stays (State.cacheHit s c kind line l).1 fs s₀ := by
  unfold State.cacheHit
  repeat' first
    | with_reducible assumption | with_reducible exact List.Subset.trans (by decide) hM | intro _ | with_reducible apply ite_stays | with_reducible apply State.modCore_stays
    | with_reducible apply State.incOb_stays | with_reducible apply foldl_stays1 | split

theorem State.lineIn_stays (s : State) (c kind line key : Nat) (h0 : s.Stays fs s₀) (hM : [.objs, .cores] ⊆ fs) :
    State.Stays (State.lineIn s c kind line key) fs s₀ := by
  unfold State.lineIn
  repeat' first
    | with_reducible assumption | with_reducible exact List.Subset.trans (by decide) hM | intro _
    | (extract_lets +onlyGivenNames u; refine cut_goal (P := State.Stays u fs s₀) ?_ fun _ => ?_; (on_goal 2 => clear_value u); (on_goal 1 => (unfold u; clear u)))
    | (extract_lets +onlyGivenNames u; clear_value u) | with_reducible apply ite_stays
    | with_reducible apply State.countCorr_stays | with_reducible apply State.modCore_stays

theorem State.cacheTouch_stays (s : State) (c line key : Nat) (bitpipe : Bool) (h0 : s.Stays fs s₀) (hM : [.objs, .cores, .fresh] ⊆ fs) :
    State.Stays (State.cacheTouch s c line key bitpipe).1 fs s₀ := by
  unfold State.cacheTouch
  repeat' first
    | with_reducible assumption | with_reducible exact List.Subset.trans (by decide) hM | intro _ | (extract_lets +onlyGivenNames u; clear_value u) | with_reducible apply ite_stays
    | with_reducible apply State.cacheHit_stays | with_reducible apply State.lineIn_stays
    | with_reducible apply State.modCore_stays | with_reducible apply State.draw_stays 
     | dsimp only | split

theorem State.icacheTouch_stays (s : State) (c line : Nat) (key : Option Nat) (h0 : s.Stays fs s₀) (hM : [.objs, .cores, .fresh] ⊆ fs) :
    State.Stays (State.icacheTouch s c line key).1 fs s₀ := by
  unfold State.icacheTouch
  repeat' first
    | with_reducible assumption | with_reducible exact List.Subset.trans (by decide) hM | intro _ | with_reducible apply ite_stays | with_reducible apply State.cacheHit_stays
    | with_reducible apply State.modCore_stays | with_reducible apply State.lineIn_stays
    | with_reducible apply State.draw_stays   | dsimp only
    | split

theorem State.coreSram_stays (s : State) (c key n : Nat) (h0 : s.Stays fs s₀) (hM : [.objs] ⊆ fs) :
    State.Stays (State.coreSram s c key n).1 fs s₀ := by
  unfold State.coreSram
  repeat' first
    | with_reducible assumption | with_reducible exact List.Subset.trans (by decide) hM | intro _ | with_reducible apply State.countCorr_stays

theorem State.fetchBytes_stays (s : State) (c addr n : Nat) (h0 : s.Stays fs s₀) (hM : [.objs, .cores, .fresh] ⊆ fs) :
    State.Stays (State.fetchBytes s c addr n).1 fs s₀ := by
  unfold State.fetchBytes
  extract_lets lines bank go
  have hg : go.1.Stays fs s₀ := by
    refine foldl_stays1 _ _ h0 (fun p x hp => ?_)
    exact State.icacheTouch_stays _ _ _ _ hp (Field.within hM (by decide))
  clear_value go bank lines
  repeat' split
  · exact h0
  · exact hg
  · exact hg
  · exact h0

theorem State.bufStore_stays (s : State) (g addr : Nat) (b : List Sys2Proof.Byte) (h0 : s.Stays fs s₀) (hM : [.ctxs, .cores] ⊆ fs) :
    State.Stays (State.bufStore s g addr b) fs s₀ := by
  unfold State.bufStore
  repeat' first
    | with_reducible assumption | with_reducible exact List.Subset.trans (by decide) hM | intro _
    | (extract_lets +onlyGivenNames u; refine cut_goal (P := State.Stays u fs s₀) ?_ fun _ => ?_; (on_goal 2 => clear_value u); (on_goal 1 => (unfold u; clear u)))
    | (extract_lets +onlyGivenNames u; clear_value u) | with_reducible apply ite_stays
    | with_reducible apply State.setCore_stays | with_reducible apply State.modCtx_stays

theorem State.wbRun_stays (s : State) (c word : Nat) (first : Bool) (r : List WbByte) (h0 : s.Stays fs s₀) (hM : [.objs, .mem, .ecc, .cores, .img, .olc, .bdr] ⊆ fs) :
    State.Stays (State.wbRun s c word first r).1 fs s₀ := by
  unfold State.wbRun
  repeat' first
    | with_reducible assumption | with_reducible exact List.Subset.trans (by decide) hM | intro _ | (extract_lets +onlyGivenNames u; clear_value u) | with_reducible apply ite_stays
    | with_reducible apply State.dataWrite_stays | with_reducible apply State.fabricWrite_stays 
     | dsimp only | split

theorem State.wbWrite_stays (s : State) (c : Nat) (e : WbEntry) (h0 : s.Stays fs s₀) (hM : [.objs, .mem, .ecc, .cores, .tds, .img, .olc, .bdr, .flt] ⊆ fs) :
    State.Stays (State.wbWrite s c e).1 fs s₀ := by
  unfold State.wbWrite
  repeat' first
    | with_reducible assumption | with_reducible exact List.Subset.trans (by decide) hM | intro _ | with_reducible apply_assumption | with_reducible apply State.wbRun_stays
    | with_reducible apply State.each_stays | with_reducible apply State.sharing_stays | with_reducible apply foldl_stays1
      | dsimp only
    | with_reducible refine stays_of_eq (by assumption) ?_ | split

theorem State.wbRoom_stays (s : State) (g : Nat) (h0 : s.Stays fs s₀) (hM : [.ctxs, .cores] ⊆ fs) :
    State.Stays (State.wbRoom s g) fs s₀ := by
  unfold State.wbRoom
  repeat' first
    | with_reducible assumption | with_reducible exact List.Subset.trans (by decide) hM | intro _ | (extract_lets +onlyGivenNames u; clear_value u) | with_reducible apply ite_stays
    | with_reducible apply State.modCtx_stays | with_reducible apply State.setCore_stays

theorem State.faulted_stays (s : State) (g code detail : Nat) (fpc faddr pc : Sys2Proof.Word) (h0 : s.Stays fs s₀) (hM : Field.all ⊆ fs) :
    State.Stays (State.faulted s g code detail fpc faddr pc) fs s₀ := by
  unfold State.faulted
  repeat' first
    | with_reducible assumption | with_reducible exact List.Subset.trans (by decide) hM | intro _ | with_reducible apply State.txnSettle_stays
    | with_reducible apply State.taskFault_stays

theorem State.storeGoesOn_stays (s : State) (g : Nat) (h0 : s.Stays fs s₀) (hM : Field.all ⊆ fs) :
    State.Stays (State.storeGoesOn s g) fs s₀ := by
  unfold State.storeGoesOn
  repeat' first
    | with_reducible assumption | with_reducible exact List.Subset.trans (by decide) hM | intro _
    | (extract_lets +onlyGivenNames u; refine cut_goal (P := State.Stays u fs s₀) ?_ fun _ => ?_; (on_goal 2 => clear_value u); (on_goal 1 => (unfold u; clear u)))
    | (extract_lets +onlyGivenNames u; clear_value u) | with_reducible apply ite_stays
    | with_reducible apply State.wbRoom_stays | with_reducible apply State.each_stays | with_reducible apply State.modCtx_stays
    | with_reducible apply State.faulted_stays

theorem State.delayedFault_stays (s : State) (g task : Nat) (pc : Sys2Proof.Word) (addr : Nat) (h0 : s.Stays fs s₀) (hM : Field.all ⊆ fs) :
    State.Stays (State.delayedFault s g task pc addr) fs s₀ := by
  unfold State.delayedFault
  repeat' first
    | with_reducible assumption | with_reducible exact List.Subset.trans (by decide) hM | intro _
    | (extract_lets +onlyGivenNames u; refine cut_goal (P := State.Stays u fs s₀) ?_ fun _ => ?_; (on_goal 2 => clear_value u); (on_goal 1 => (unfold u; clear u)))
    | (extract_lets +onlyGivenNames u; clear_value u) | with_reducible apply ite_stays
    | with_reducible apply State.modCtx_stays | with_reducible apply State.faultRecord_stays
    | with_reducible apply State.storeGoesOn_stays | with_reducible apply State.faulted_stays

theorem State.wbFailed_stays (s : State) (e : WbEntry) (h0 : s.Stays fs s₀) (hM : Field.all ⊆ fs) :
    State.Stays (State.wbFailed s e) fs s₀ := by
  unfold State.wbFailed
  repeat' first
    | with_reducible assumption | with_reducible exact List.Subset.trans (by decide) hM | intro _ | (extract_lets +onlyGivenNames u; clear_value u)
    | with_reducible apply State.each_stays | with_reducible apply State.delayedFault_stays

theorem State.drainOne_stays (s : State) (c : Nat) (h0 : s.Stays fs s₀) (hM : Field.all ⊆ fs) :
    State.Stays (State.drainOne s c) fs s₀ := by
  unfold State.drainOne
  repeat' first
    | with_reducible assumption | with_reducible exact List.Subset.trans (by decide) hM | intro _ | with_reducible apply ite_stays | with_reducible apply State.copyProgress_stays
    | with_reducible apply State.countHold_stays | with_reducible apply State.modCore_stays
    | with_reducible apply State.wbWrite_stays | with_reducible apply State.wbFailed_stays 
     | dsimp only | with_reducible refine stays_of_eq (by assumption) ?_ | split

theorem State.drainN_stays (s : State) (c y2 : Nat) (h0 : s.Stays fs s₀) (hM : Field.all ⊆ fs) :
    State.Stays (State.drainN s c y2) fs s₀ := by
  induction y2 generalizing s with
  | zero => exact h0
  | succ n ih => exact ih _ (State.drainOne_stays _ _ h0 (Field.within hM (by decide)))

theorem State.drainAll_stays (s : State) (c : Nat) (h0 : s.Stays fs s₀) (hM : Field.all ⊆ fs) :
    State.Stays (State.drainAll s c) fs s₀ := by
  unfold State.drainAll
  repeat' first
    | with_reducible assumption | with_reducible exact List.Subset.trans (by decide) hM | intro _ | with_reducible apply State.drainN_stays

theorem State.readPiece_stays (s : State) (c g addr n : Nat) (bitpipe : Bool) (h0 : s.Stays fs s₀) (hM : [.objs, .mem, .cores, .tds, .fresh] ⊆ fs) :
    State.Stays (State.readPiece s c g addr n bitpipe).1 fs s₀ := by
  unfold State.readPiece
  repeat' first
    | with_reducible assumption | with_reducible exact List.Subset.trans (by decide) hM | intro _ | (extract_lets +onlyGivenNames u; clear_value u) | with_reducible apply ite_stays
    | with_reducible apply State.coreSram_stays | with_reducible apply State.cacheTouch_stays
    | with_reducible apply State.rebaseTo_stays | with_reducible apply State.countCorr_stays 
     | dsimp only | split

theorem State.landFlight_stays (s : State) (f : Flight) (h0 : s.Stays fs s₀) (hM : [.ctxs] ⊆ fs) :
    State.Stays (State.landFlight s f) fs s₀ :=
  State.with_ctxs _ h0 hM

theorem State.landCtx_stays (s : State) (g : Nat) (h0 : s.Stays fs s₀) (hM : [.ctxs, .cores] ⊆ fs) :
    State.Stays (State.landCtx s g) fs s₀ := by
  unfold State.landCtx
  repeat' first
    | with_reducible assumption | with_reducible exact List.Subset.trans (by decide) hM | intro _ | (extract_lets +onlyGivenNames u; clear_value u) | with_reducible apply ite_stays
    | with_reducible apply State.modCore_stays | with_reducible apply State.each_stays
    | with_reducible apply State.landFlight_stays

theorem State.landOne_stays (s : State) (c : Nat) (h0 : s.Stays fs s₀) (hM : [.ctxs, .cores] ⊆ fs) :
    State.Stays (State.landOne s c) fs s₀ := by
  unfold State.landOne
  repeat' first
    | with_reducible assumption | with_reducible exact List.Subset.trans (by decide) hM | intro _ | with_reducible apply State.loadsDone_stays
    | with_reducible apply State.modCore_stays | with_reducible apply State.landFlight_stays 
     | dsimp only | split

theorem State.flightLost_stays (s : State) (f : Flight) (h0 : s.Stays fs s₀) (hM : Field.all ⊆ fs) :
    State.Stays (State.flightLost s f) fs s₀ := by
  unfold State.flightLost
  repeat' first
    | with_reducible assumption | with_reducible exact List.Subset.trans (by decide) hM | intro _
    | (extract_lets +onlyGivenNames u; refine cut_goal (P := State.Stays u fs s₀) ?_ fun _ => ?_; (on_goal 2 => clear_value u); (on_goal 1 => (unfold u; clear u)))
    | (extract_lets +onlyGivenNames u; clear_value u) | with_reducible apply ite_stays
    | with_reducible apply State.modCore_stays | with_reducible apply State.faulted_stays
    | with_reducible apply State.modCtx_stays

theorem State.linkLost_stays (s : State) (die : Nat) (h0 : s.Stays fs s₀) (hM : Field.all ⊆ fs) :
    State.Stays (State.linkLost s die) fs s₀ := by
  unfold State.linkLost
  repeat' first
    | with_reducible assumption | with_reducible exact List.Subset.trans (by decide) hM | intro _
    | (extract_lets +onlyGivenNames u; refine cut_goal (P := State.Stays u fs s₀) ?_ fun _ => ?_; (on_goal 2 => clear_value u); (on_goal 1 => (unfold u; clear u)))
    | (extract_lets +onlyGivenNames u; clear_value u) | with_reducible apply State.dmaLinkLost_stays
    | with_reducible apply State.each_stays | with_reducible apply State.raiseSt_stays
    | with_reducible apply State.flightLost_stays
    | with_reducible apply State.with_chk_pwr

theorem State.oemHold_stays (s : State) (c g addr tag : Nat) (h0 : s.Stays fs s₀) (hM : [.cores] ⊆ fs) :
    State.Stays (State.oemHold s c g addr tag) fs s₀ :=
  State.with_cores _ h0 hM

theorem State.bracketEnd_stays (s : State) (g : Nat) (h0 : s.Stays fs s₀) (hM : Field.all ⊆ fs) :
    State.Stays (State.bracketEnd s g) fs s₀ := by
  unfold State.bracketEnd
  repeat' first
    | with_reducible assumption | with_reducible exact List.Subset.trans (by decide) hM | intro _
    | (extract_lets +onlyGivenNames u; refine cut_goal (P := State.Stays u fs s₀) ?_ fun _ => ?_; (on_goal 2 => clear_value u); (on_goal 1 => (unfold u; clear u)))
    | (extract_lets +onlyGivenNames u; clear_value u) | with_reducible apply ite_stays
    | with_reducible apply State.modCtx_stays | with_reducible apply State.faulted_stays
    | with_reducible apply State.resched_stays

theorem State.complete_stays (s : State) (g : Nat) (e : Sys2Proof.Enc) (opens : Bool) (pc next : Sys2Proof.Word) (raised : Nat) (swtrap : Option Nat) (h0 : s.Stays fs s₀) (hM : Field.all ⊆ fs) :
    State.Stays (State.complete s g e opens pc next raised swtrap) fs s₀ := by
  unfold State.complete
  repeat' first
    | with_reducible assumption | with_reducible exact List.Subset.trans (by decide) hM | intro _
    | (extract_lets +onlyGivenNames u; refine cut_goal (P := State.Stays u fs s₀) ?_ fun _ => ?_; (on_goal 2 => clear_value u); (on_goal 1 => (unfold u; clear u)))
    | with_reducible apply ite_stays | with_reducible apply State.modCtx_stays | with_reducible apply State.faulted_stays
    | with_reducible apply State.resched_stays   | dsimp only
    | split

theorem State.keepHeld_stays (was s : State) (c g : Nat) (h0 : was.Stays fs s₀) (h1 : s.Stays fs s₀) (hM : [.cores] ⊆ fs) :
    State.Stays (State.keepHeld was s c g) fs s₀ := by
  unfold State.keepHeld
  repeat' first
    | with_reducible assumption | with_reducible exact List.Subset.trans (by decide) hM | intro _ | (extract_lets +onlyGivenNames u; clear_value u) | with_reducible apply ite_stays
    | with_reducible apply State.modCore_stays

theorem State.dropHeld_stays (was s : State) (c g : Nat) (h0 : was.Stays fs s₀) (h1 : s.Stays fs s₀) (hM : [.cores] ⊆ fs) :
    State.Stays (State.dropHeld was s c g) fs s₀ := by
  unfold State.dropHeld
  repeat' first
    | with_reducible assumption | with_reducible exact List.Subset.trans (by decide) hM | intro _ | with_reducible apply ite_stays | with_reducible apply State.modCore_stays

/-- The state that a load answers with differs from s₀ at most in the parts of fs. -/
def LdAns.Stays (x : LdAns) (fs : List Field) (s₀ : State) : Prop :=
  match x with
  | .ok s _ _ => s.Stays fs s₀
  | .oem s _ => s.Stays fs s₀
  | .fault _ _ => True
  | .hold s => s.Stays fs s₀

/-- The state that a store answers with differs from s₀ at most in the parts of fs. -/
def StAns.Stays (x : StAns) (fs : List Field) (s₀ : State) : Prop :=
  match x with
  | .ok s => s.Stays fs s₀
  | .fault _ _ => True
  | .hold s => s.Stays fs s₀

/-- The state that an instruction answers with differs from s₀ at most in the parts of fs. -/
def Res.Stays (x : Res) (fs : List Field) (s₀ : State) : Prop :=
  match x with
  | .fault _ _ _ => True
  | .counted s _ _ _ => s.Stays fs s₀
  | .next s _ _ _ => s.Stays fs s₀
  | .again s => s.Stays fs s₀
  | .hold s => s.Stays fs s₀

theorem State.readPieces_stays (s : State) (c g : Nat) (bitpipe : Bool) (l : List (Nat × Nat)) (h : s.Stays fs s₀) (hM : [.objs, .mem, .cores, .tds, .fresh] ⊆ fs) :
    (s.readPieces c g bitpipe l).Stays fs s₀ := by
  unfold State.readPieces
  extract_lets r
  have hr : r.1.Stays fs s₀ := foldl_stays1 _ _ h (fun p x hp => State.readPiece_stays _ _ _ _ _ _ hp (Field.within hM (by decide)))
  clear_value r
  repeat' split
  · trivial
  · trivial
  · exact hr

theorem State.dictLoad_stays (s : State) (g idx sub off n : Nat) (h : s.Stays fs s₀) (hM : [.objs, .sess, .dic, .ctxs, .cores, .ntm, .mbc, .pwr, .fresh] ⊆ fs) :
    (s.dictLoad g idx sub off n).Stays fs s₀ := by
  unfold State.dictLoad
  extract_lets key k u
  have hu : u.Stays fs s₀ := State.oemEnter_stays _ _ _ _ _ h (Field.within hM (by decide))
  clear_value u k key
  split
  · exact State.setCore_stays _ _ _ h (Field.within hM (by decide))
  · split
    · exact h
    · split
      · split
        · exact hu
        · exact hu
      · split
        · split
          rename_i he
          exact stays_of_eq he (State.apRead_stays _ _ _ _ h (Field.within hM (by decide)))
        · split
          · split
            exact State.setResult_stays _ _ _ _ _ _ h (Field.within hM (by decide))
          · split
            rename_i he
            exact stays_of_eq he (State.dictRead_stays _ _ _ h (Field.within hM (by decide)))

theorem State.coreLoad_stays (s : State) (c g addr n : Nat) (bitpipe : Bool) (h : s.Stays fs s₀) (hM : Field.all ⊆ fs) :
    (s.coreLoad c g addr n bitpipe).Stays fs s₀ := by
  unfold State.coreLoad
  extract_lets w keys buf far wait u
  have hu : u.Stays fs s₀ := by
    unfold u
    split
    · exact State.drainN_stays _ _ _ h (Field.within hM (by decide))
    · exact h
  clear_value u wait far buf keys w
  split
  · split
    · exact State.dictLoad_stays _ _ _ _ _ _ h (Field.within hM (by decide))
    · trivial
  · have hp := State.readPieces_stays u c g bitpipe (pieces addr n) hu (Field.within hM (by decide))
    split
    · trivial
    · split
      · exact h
      · split
        · exact hu
        · split
          · rename_i heq; rw [heq] at hp; exact hp
          · exact hp

theorem State.coreStore_stays (s : State) (c g addr : Nat) (b : List Byte) (h : s.Stays fs s₀) (hM : Field.all ⊆ fs) :
    (s.coreStore c g addr b).Stays fs s₀ := by
  unfold State.coreStore
  split
  · trivial
  · split
    · split
      · trivial
      · split
        · exact h
        · exact State.dictWrite_stays _ _ _ _ _ _ h (Field.within hM (by decide))
    · exact State.sramWrite_stays _ _ _ (State.rebaseTo_stays _ _ h (Field.within hM (by decide))) (Field.within hM (by decide))
    · exact State.bufStore_stays _ _ _ _ h (Field.within hM (by decide))

theorem State.issue_stays (s : State) (c : Nat) (e : Sys2Proof.Enc) (f : Form) (body : State → Nat → Ctx → Word → Res) (h : s.Stays fs s₀)
    (hf : ∀ u g x n, State.Stays u fs s₀ → (body u g x n).Stays fs s₀) (hM : Field.all ⊆ fs) :
    State.Stays (s.issue c e f body) fs s₀ := by
  unfold State.issue
  split
  · exact h
  · rename_i g _
    split
    · exact h
    · extract_lets a b x pc code len opens
      have ha : a.Stays fs s₀ := State.bracketEnd_stays _ _ h (Field.within hM (by decide))
      have hb : b.Stays fs s₀ := State.landCtx_stays _ _ ha (Field.within hM (by decide))
      clear_value x b pc code len opens
      have hft := State.fetchBytes_stays b c pc.toNat len hb (Field.within hM (by decide))
      split
      · exact ha
      · split
        · exact State.faulted_stays _ _ _ _ _ _ _ hb (Field.within hM (by decide))
        · exact State.faulted_stays _ _ _ _ _ _ _ hb (Field.within hM (by decide))
        · rename_i heq _
          exact State.faulted_stays _ _ _ _ _ _ _ (stays_of_eq heq hft) (Field.within hM (by decide))
        · exact hb
        · rename_i u _ heq _
          have hu := stays_of_eq heq hft
          have hx := hf u g x (pc + BitVec.ofNat 32 (f.length e)) hu
          split
          · exact State.faulted_stays _ _ _ _ _ _ _ (State.dropHeld_stays _ _ _ _ hu hu (Field.within hM (by decide))) (Field.within hM (by decide))
          · rename_i he; rw [he] at hx; exact State.faulted_stays _ _ _ _ _ _ _ (State.dropHeld_stays _ _ _ _ hu hx (Field.within hM (by decide))) (Field.within hM (by decide))
          · rename_i he; rw [he] at hx; exact State.complete_stays _ _ _ _ _ _ _ _ (State.dropHeld_stays _ _ _ _ hu hx (Field.within hM (by decide))) (Field.within hM (by decide))
          · rename_i he; rw [he] at hx
            split
            · exact hx
            · exact State.modCtx_stays _ _ _ (State.dropHeld_stays _ _ _ _ hu hx (Field.within hM (by decide))) (Field.within hM (by decide))
          · rename_i he; rw [he] at hx; exact State.keepHeld_stays _ _ _ _ hu hx (Field.within hM (by decide))

theorem State.result_stays (s : State) (g : Nat) (e : Sys2Proof.Enc) (next : Word) (v raised : Nat) (h : s.Stays fs s₀) (hM : [.ctxs] ⊆ fs) :
    (s.result g e next v raised).Stays fs s₀ := State.modCtx_stays _ _ _ h (Field.within hM (by decide))

theorem State.fresult_stays (s : State) (g n : Nat) (next : Word) (r : Nat × Nat) (h : s.Stays fs s₀) (hM : [.ctxs] ⊆ fs) :
    (s.fresult g n next r).Stays fs s₀ := State.modCtx_stays _ _ _ h (Field.within hM (by decide))

theorem State.storeRes_stays (s : State) (c g addr : Nat) (b : List Byte) (next : Word) (post : Ctx → Ctx) (h : s.Stays fs s₀) (hM : Field.all ⊆ fs) :
    (s.storeRes c g addr b next post).Stays fs s₀ := by
  unfold State.storeRes
  have hc := State.coreStore_stays s c g addr b h (Field.within hM (by decide))
  split
  · trivial
  · rename_i he; rw [he] at hc; exact hc
  · rename_i he; rw [he] at hc; exact State.modCtx_stays _ _ _ hc (Field.within hM (by decide))

theorem State.loadTo_stays (s : State) (c g addr n dst : Nat) (wide bitpipe : Bool) (next : Word) (ext : Nat) (post : Ctx → Ctx)
    (h : s.Stays fs s₀) (hM : Field.all ⊆ fs) :
    (s.loadTo c g addr n dst wide bitpipe next ext post).Stays fs s₀ := by
  unfold State.loadTo
  extract_lets x
  clear_value x
  have hc := State.coreLoad_stays s c g addr n bitpipe h (Field.within hM (by decide))
  split
  · trivial
  · rename_i he; rw [he] at hc; exact hc
  · rename_i he; rw [he] at hc
    extract_lets u v
    have hu : u.Stays fs s₀ := State.modCtx_stays _ _ _ hc (Field.within hM (by decide))
    clear_value u v
    split
    · exact State.modCore_stays _ _ _ hu (Field.within hM (by decide))
    · exact State.modCtx_stays _ _ _ hu (Field.within hM (by decide))
  · rename_i he; rw [he] at hc; exact State.modCore_stays _ _ _ (State.modCtx_stays _ _ _ hc (Field.within hM (by decide))) (Field.within hM (by decide))

theorem State.blockNext_stays (s : State) (g : Nat) (e : Sys2Proof.Enc) (next : Word) (h : s.Stays fs s₀) (hM : [.ctxs] ⊆ fs) :
    (s.blockNext g e next).Stays fs s₀ := by
  unfold State.blockNext
  extract_lets u
  have hu : u.Stays fs s₀ := State.modCtx_stays _ _ _ h (Field.within hM (by decide))
  clear_value u
  split
  · exact hu
  · exact hu

theorem State.seekBlock_stays (s : State) (g : Nat) (e : Sys2Proof.Enc) (next : Word) (stop : Bool) (h : s.Stays fs s₀) (hM : [.ctxs] ⊆ fs) :
    (s.seekBlock g e next stop).Stays fs s₀ := by
  unfold State.seekBlock
  extract_lets done u
  have hd : ∀ x v, State.Stays x fs s₀ → (done x v).Stays fs s₀ := fun x v hx => State.modCtx_stays _ _ _ hx (Field.within hM (by decide))
  have hu : u.Stays fs s₀ := State.modCtx_stays _ _ _ h (Field.within hM (by decide))
  clear_value u done
  repeat' split
  · exact hd _ _ h
  · exact hu
  · exact hd _ _ hu

theorem State.bitRead_stays (s : State) (c g a : Nat) (k : State → Byte → Res) (h : s.Stays fs s₀)
    (hk : ∀ u b, State.Stays u fs s₀ → (k u b).Stays fs s₀) (hM : Field.all ⊆ fs) :
    (s.bitRead c g a k).Stays fs s₀ := by
  unfold State.bitRead
  have hc := State.coreLoad_stays s c g a 1 true h (Field.within hM (by decide))
  split
  · trivial
  · rename_i he; rw [he] at hc; exact hc
  · rename_i he; rw [he] at hc; exact State.oemHold_stays _ _ _ _ _ hc (Field.within hM (by decide))
  · rename_i he; rw [he] at hc; exact hk _ _ hc

theorem State.gather_stays (s : State) (c g base : Nat) (d : List Byte) (h : s.Stays fs s₀) (hM : Field.all ⊆ fs) :
    (s.gather c g base d).1.Stays fs s₀ := by
  unfold State.gather
  have fold : ∀ (l : List Nat) (f : LdAns × Nat → Nat → LdAns × Nat) (p : LdAns × Nat), (∀ q x, q.1.Stays fs s₀ → (f q x).1.Stays fs s₀) →
      p.1.Stays fs s₀ → (l.foldl f p).1.Stays fs s₀ := by
    intro l f
    induction l with
    | nil => intro p _ hp; exact hp
    | cons x t ih => intro p hf hp; exact ih _ hf (hf _ _ hp)
  refine fold _ _ _ (fun q x hq => ?_) h
  extract_lets e a
  clear_value e a
  obtain ⟨r, v⟩ := q
  split
  · exact hq
  · cases r with
    | ok u b far =>
      have hc := State.coreLoad_stays u c g a 1 true hq (Field.within hM (by decide))
      dsimp only
      split
      · rename_i hl; rw [hl] at hc; exact hc
      · exact hc
    | fault code detail =>
      dsimp only
      split
      · split <;> trivial
      · trivial
    | hold u => exact hq
    | oem u t => exact hq

theorem State.compareWords_stays (s : State) (c g a d : Nat) (k : State → Bool → Res) (h : s.Stays fs s₀)
    (hk : ∀ u b, State.Stays u fs s₀ → (k u b).Stays fs s₀) (hM : Field.all ⊆ fs) :
    (s.compareWords c g a d k).Stays fs s₀ := by
  unfold State.compareWords
  have hc := State.coreLoad_stays s c g a 4 false h (Field.within hM (by decide))
  split
  · trivial
  split
  · trivial
  split
  · repeat' split
    all_goals trivial
  · rename_i he; rw [he] at hc; exact hc
  · rename_i he; rw [he] at hc; exact State.oemHold_stays _ _ _ _ _ hc (Field.within hM (by decide))
  · rename_i u _ _ he; rw [he] at hc
    have hd := State.coreLoad_stays u c g d 4 false hc (Field.within hM (by decide))
    split
    · trivial
    · rename_i he; rw [he] at hd; exact hd
    · rename_i he; rw [he] at hd; exact State.oemHold_stays _ _ _ _ _ hd (Field.within hM (by decide))
    · rename_i he; rw [he] at hd; exact hk _ _ hd

theorem State.exchange_stays (s : State) (c g a ra : Nat) (next : Word) (h : s.Stays fs s₀) (hM : Field.all ⊆ fs) :
    (s.exchange c g a ra next).Stays fs s₀ := by
  unfold State.exchange
  extract_lets x ok u
  have hu : u.Stays fs s₀ := State.drainAll_stays _ _ h (Field.within hM (by decide))
  clear_value x ok u
  have hp := State.readPieces_stays u c g false [(a, 4)] hu (Field.within hM (by decide))
  split
  · trivial
  · split
    · trivial
    · split
      · exact hu
      · split
        · trivial
        · rename_i he; rw [he] at hp; exact hp
        · rename_i he; rw [he] at hp; exact hp
        · rename_i he; rw [he] at hp
          exact State.modCtx_stays _ _ _ (State.drainAll_stays _ _ (State.bufStore_stays _ _ _ _ hp (Field.within hM (by decide))) (Field.within hM (by decide))) (Field.within hM (by decide))

theorem State.cellAt_fault_stays (s : State) (c g a align detail : Nat) {r : Res} (he : s.cellAt c g a align detail = .inl r) :
    r.Stays fs s₀ := by
  unfold State.cellAt at he
  split at he
  · cases he; trivial
  · split at he
    · dsimp only at he
      split at he
      · cases he; trivial
      · cases he
    · cases he; trivial

theorem State.cellAt_stays (s : State) (c g a align detail : Nat) {u : State} {k : Nat} (h : s.Stays fs s₀)
    (he : s.cellAt c g a align detail = .inr (u, k)) (hM : [.objs, .mem, .tds] ⊆ fs) :
    u.Stays fs s₀ := by
  unfold State.cellAt at he
  split at he
  · cases he
  · split at he
    · dsimp only at he
      split at he
      · cases he
      · cases he; exact State.countCorr_stays _ _ _ _ (State.rebaseTo_stays _ _ h (Field.within hM (by decide))) (Field.within hM (by decide))
    · cases he

theorem State.count64_stays (s : State) (c g a ra : Nat) (next : Word) (h : s.Stays fs s₀) (hM : [.objs, .mem, .ecc, .ctxs, .tds, .bdr] ⊆ fs) :
    (s.count64 c g a ra next).Stays fs s₀ := by
  unfold State.count64
  extract_lets x done q t
  have hd : ∀ (v : State) (x y : Nat), v.Stays fs s₀ → (done v x y).Stays fs s₀ := fun v x y hv => State.modCtx_stays _ _ _ hv (Field.within hM (by decide))
  have ht : t.Stays fs s₀ := State.finishApply_stays _ h (Field.within hM (by decide))
  clear_value done x q t
  split
  · trivial
  · split
    · split
      · rename_i he; exact State.cellAt_fault_stays _ _ _ _ _ _ he
      · rename_i v k he
        have hv := State.cellAt_stays _ _ _ _ _ _ h he (Field.within hM (by decide))
        extract_lets old new u
        have hu : u.Stays fs s₀ := ite_stays hv (State.sramWrite_stays _ _ _ (State.sramWrite_stays _ _ _ hv (Field.within hM (by decide))) (Field.within hM (by decide)))
        clear_value u
        exact hd _ _ _ hu
    · split
      · trivial
      · extract_lets old new m
        clear_value m new old
        split
        · exact hd _ _ _ ht
        · have hs := State.bedTxn_stays t m ht (Field.within hM (by decide))
          generalize t.bedTxn m = r at hs ⊢
          obtain ⟨v, ok⟩ := r
          dsimp only at hs ⊢
          split
          · exact hd _ _ _ hs
          · trivial
    · trivial

theorem State.bitOp_stays (s : State) (c : Nat) (e : Sys2Proof.Enc) (f : Form) (body : State → Nat → Ctx → Word → Nat → Byte → Res)
    (h : s.Stays fs s₀) (hf : ∀ u g x n a b, State.Stays u fs s₀ → (body u g x n a b).Stays fs s₀) (hM : Field.all ⊆ fs) :
    State.Stays (s.bitOp c e f body) fs s₀ :=
  State.issue_stays _ _ _ _ _ h (fun u g x n hu => State.bitRead_stays _ _ _ _ _ hu (fun v b hv => hf _ _ _ _ _ _ hv) (Field.within hM (by decide))) (Field.within hM (by decide))

theorem State.alu_stays (s : State) (c : Nat) (e : Sys2Proof.Enc) (f : Form) (op : Nat → Nat → Nat → Nat × Nat) (h0 : s.Stays fs s₀) (hM : Field.all ⊆ fs) :
    State.Stays (State.alu s c e f op) fs s₀ := by
  exact State.issue_stays _ _ _ _ _ h0 (fun u g x n hu => State.result_stays _ _ _ _ _ _ hu (Field.within hM (by decide))) (Field.within hM (by decide))

theorem State.aluPlain_stays (s : State) (c : Nat) (e : Sys2Proof.Enc) (f : Form) (op : Nat → Nat → Nat → Nat) (h0 : s.Stays fs s₀) (hM : Field.all ⊆ fs) :
    State.Stays (State.aluPlain s c e f op) fs s₀ := by
  unfold State.aluPlain
  repeat' first
    | with_reducible assumption | with_reducible exact List.Subset.trans (by decide) hM | intro _ | with_reducible apply State.alu_stays

theorem State.unary_stays (s : State) (c : Nat) (e : Sys2Proof.Enc) (f : Form) (op : Nat → Nat → Nat) (h0 : s.Stays fs s₀) (hM : Field.all ⊆ fs) :
    State.Stays (State.unary s c e f op) fs s₀ := by
  exact State.issue_stays _ _ _ _ _ h0 (fun u g x n hu => State.result_stays _ _ _ _ _ _ hu (Field.within hM (by decide))) (Field.within hM (by decide))

theorem State.compare_stays (s : State) (c : Nat) (e : Sys2Proof.Enc) (f : Form) (op : Nat → Nat → Nat → Bool) (h0 : s.Stays fs s₀) (hM : Field.all ⊆ fs) :
    State.Stays (State.compare s c e f op) fs s₀ := by
  unfold State.compare
  repeat' first
    | with_reducible assumption | with_reducible exact List.Subset.trans (by decide) hM | intro _ | with_reducible apply State.aluPlain_stays

theorem State.loadEa_stays (s : State) (c : Nat) (e : Sys2Proof.Enc) (f : Form) (n dst : Nat) (wide : Bool) (ext : Nat) (h0 : s.Stays fs s₀) (hM : Field.all ⊆ fs) :
    State.Stays (State.loadEa s c e f n dst wide ext) fs s₀ := by
  refine State.issue_stays _ _ _ _ _ h0 (fun u g x n hu => ?_) (Field.within hM (by decide))
  split
  · trivial
  · exact State.loadTo_stays _ _ _ _ _ _ _ _ _ _ _ hu (Field.within hM (by decide))

theorem State.storeEa_stays (s : State) (c : Nat) (e : Sys2Proof.Enc) (f : Form) (n : Nat) (value : Ctx → Nat) (h0 : s.Stays fs s₀) (hM : Field.all ⊆ fs) :
    State.Stays (State.storeEa s c e f n value) fs s₀ := by
  refine State.issue_stays _ _ _ _ _ h0 (fun u g x n hu => ?_) (Field.within hM (by decide))
  split
  · trivial
  · exact State.storeRes_stays _ _ _ _ _ _ _ hu (Field.within hM (by decide))

theorem State.branch_stays (s : State) (c : Nat) (e : Sys2Proof.Enc) (f : Form) (cond : Ctx → Bool) (post : Ctx → Ctx) (h0 : s.Stays fs s₀) (hM : Field.all ⊆ fs) :
    State.Stays (State.branch s c e f cond post) fs s₀ := by
  exact State.issue_stays _ _ _ _ _ h0 (fun u g x n hu => State.modCtx_stays _ _ _ hu (Field.within hM (by decide))) (Field.within hM (by decide))

theorem State.float2_stays (s : State) (c : Nat) (e : Sys2Proof.Enc) (f : Form) (op : Fmt → Nat → FVal → FVal → Nat × Nat) (h0 : s.Stays fs s₀) (hM : Field.all ⊆ fs) :
    State.Stays (State.float2 s c e f op) fs s₀ := by
  exact State.issue_stays _ _ _ _ _ h0 (fun u g x n hu => State.fresult_stays _ _ _ _ _ hu (Field.within hM (by decide))) (Field.within hM (by decide))

theorem State.floatBits_stays (s : State) (c : Nat) (e : Sys2Proof.Enc) (f : Form) (op : Fmt → Nat → Nat) (h0 : s.Stays fs s₀) (hM : Field.all ⊆ fs) :
    State.Stays (State.floatBits s c e f op) fs s₀ := by
  exact State.issue_stays _ _ _ _ _ h0 (fun u g x n hu => State.fresult_stays _ _ _ _ _ hu (Field.within hM (by decide))) (Field.within hM (by decide))

theorem State.fcompare_stays (s : State) (c : Nat) (e : Sys2Proof.Enc) (f : Form) (quiet : Bool) (op : FVal → FVal → Bool) (h0 : s.Stays fs s₀) (hM : Field.all ⊆ fs) :
    State.Stays (State.fcompare s c e f quiet op) fs s₀ := by
  exact State.issue_stays _ _ _ _ _ h0 (fun u g x n hu => State.modCtx_stays _ _ _ hu (Field.within hM (by decide))) (Field.within hM (by decide))

theorem State.moveBlock_stays (s : State) (c : Nat) (e : Sys2Proof.Enc) (f : Form) (n : Nat) (fill : Bool) (h0 : s.Stays fs s₀) (hM : Field.all ⊆ fs) :
    State.Stays (State.moveBlock s c e f n fill) fs s₀ := by
  refine State.issue_stays _ _ _ _ _ h0 (fun u g x m hu => ?_) (Field.within hM (by decide))
  dsimp only
  split
  · exact hu
  · split
    · trivial
    · rename_i d _
      have hp : ∀ (v : State) (b : List Byte), v.Stays fs s₀ → Res.Stays (match v.coreStore c g d b with
          | .fault code detail => Res.fault code detail d
          | .hold s => .hold s
          | .ok s => s.blockNext g e m) fs s₀ := by
        intro v b hv
        have hc := State.coreStore_stays v c g d b hv (Field.within hM (by decide))
        split
        · trivial
        · rename_i he; rw [he] at hc; exact hc
        · rename_i he; rw [he] at hc; exact State.blockNext_stays _ _ _ _ hc (Field.within hM (by decide))
      split
      · exact hp _ _ hu
      · split
        · trivial
        have hc := State.coreLoad_stays u c g (x.sp 21) n false hu (Field.within hM (by decide))
        split
        · trivial
        · rename_i he; rw [he] at hc; exact hc
        · rename_i he; rw [he] at hc; exact State.oemHold_stays _ _ _ _ _ hc (Field.within hM (by decide))
        · rename_i he; rw [he] at hc; exact hp _ _ hc

theorem State.bitLogic_stays (s : State) (c : Nat) (e : Sys2Proof.Enc) (f : Form) (op : Bool → Bool → Bool) (h0 : s.Stays fs s₀) (hM : Field.all ⊆ fs) :
    State.Stays (State.bitLogic s c e f op) fs s₀ := by
  exact State.bitOp_stays _ _ _ _ _ h0 (fun u g x n a b hu => State.modCtx_stays _ _ _ hu (Field.within hM (by decide))) (Field.within hM (by decide))

theorem State.bitStore_stays (s : State) (c : Nat) (e : Sys2Proof.Enc) (f : Form) (h0 : s.Stays fs s₀) (hM : Field.all ⊆ fs) :
    State.Stays (State.bitStore s c e f) fs s₀ := by
  exact State.bitOp_stays _ _ _ _ _ h0 (fun u g x n a b hu => State.storeRes_stays _ _ _ _ _ _ _ hu (Field.within hM (by decide))) (Field.within hM (by decide))

theorem State.bitForce_stays (s : State) (c : Nat) (e : Sys2Proof.Enc) (f : Form) (value : Bool) (h0 : s.Stays fs s₀) (hM : Field.all ⊆ fs) :
    State.Stays (State.bitForce s c e f value) fs s₀ := by
  refine State.issue_stays _ _ _ _ _ h0 (fun u g x n hu => ?_) (Field.within hM (by decide))
  split
  · exact hu
  · exact State.bitRead_stays _ _ _ _ _ hu (fun v b hv => State.storeRes_stays _ _ _ _ _ _ _ hv (Field.within hM (by decide))) (Field.within hM (by decide))

theorem State.edgeOp_stays (s : State) (c : Nat) (e : Sys2Proof.Enc) (f : Form) (rising : Bool) (h0 : s.Stays fs s₀) (hM : Field.all ⊆ fs) :
    State.Stays (State.edgeOp s c e f rising) fs s₀ := by
  refine State.bitOp_stays _ _ _ _ _ h0 (fun u g x n a b hu => ?_) (Field.within hM (by decide))
  dsimp only
  split
  · exact State.modCtx_stays _ _ _ hu (Field.within hM (by decide))
  · exact State.storeRes_stays _ _ _ _ _ _ _ hu (Field.within hM (by decide))

theorem State.timerOp_stays (s : State) (c : Nat) (e : Sys2Proof.Enc) (f : Form) (eval : Cell → Bool → Nat → Cell) (h0 : s.Stays fs s₀) (hM : Field.all ⊆ fs) :
    State.Stays (State.timerOp s c e f eval) fs s₀ := by
  refine State.issue_stays _ _ _ _ _ h0 (fun u g x n hu => ?_) (Field.within hM (by decide))
  split
  · rename_i he; exact State.cellAt_fault_stays _ _ _ _ _ _ he
  · rename_i he
    exact State.modCtx_stays _ _ _ (State.setCell_stays _ _ _ (State.cellAt_stays _ _ _ _ _ _ hu he (Field.within hM (by decide))) (Field.within hM (by decide))) (Field.within hM (by decide))

theorem State.endDone_stays (s : State) (g : Nat) (h0 : s.Stays fs s₀) (hM : [.objs, .ctxs, .tasks, .bdr] ⊆ fs) :
    State.Stays (State.endDone s g) fs s₀ := by
  unfold State.endDone
  repeat' first
    | with_reducible assumption | with_reducible exact List.Subset.trans (by decide) hM | intro _
    | (extract_lets +onlyGivenNames u; refine cut_goal (P := State.Stays u fs s₀) ?_ fun _ => ?_; (on_goal 2 => clear_value u); (on_goal 1 => (unfold u; clear u)))
    | (extract_lets +onlyGivenNames u; clear_value u) | with_reducible apply ite_stays
    | with_reducible apply State.bedDrop_stays | with_reducible apply State.resched_stays
    | with_reducible apply State.modCtx_stays | with_reducible apply State.modTask_stays

theorem State.drainAck_stays (s : State) (g : Nat) (h0 : s.Stays fs s₀) (hM : [.objs, .ctxs, .tasks, .bdr] ⊆ fs) :
    State.Stays (State.drainAck s g) fs s₀ := by
  unfold State.drainAck
  repeat' first
    | with_reducible assumption | with_reducible exact List.Subset.trans (by decide) hM | intro _ | (extract_lets +onlyGivenNames u; clear_value u) | with_reducible apply ite_stays
    | with_reducible apply State.modCtx_stays | with_reducible apply State.loadsDone_stays
    | with_reducible apply State.endDone_stays   | dsimp only
    | split

theorem State.edgeAccept_stays (s : State) (n : Nat) (rising : Bool) (stamp : Nat) (h0 : s.Stays fs s₀) (hM : [.objs, .tds, .ntm, .sent, .own, .fio, .fresh] ⊆ fs) :
    State.Stays (State.edgeAccept s n rising stamp) fs s₀ := by
  unfold State.edgeAccept
  repeat' first
    | with_reducible assumption | with_reducible exact List.Subset.trans (by decide) hM | intro _ | with_reducible apply ite_stays | with_reducible apply State.setFio_stays
    | with_reducible apply State.reachUs_stays | with_reducible apply State.dictate_stays
    | with_reducible apply State.logEdge_stays | with_reducible apply State.when_stays | with_reducible apply State.fire_stays

theorem State.cooled_stays (s : State) (n : Nat) (h0 : s.Stays fs s₀) (hM : [.fio] ⊆ fs) :
    State.Stays (State.cooled s n) fs s₀ := by
  unfold State.cooled
  repeat' first
    | with_reducible assumption | with_reducible exact List.Subset.trans (by decide) hM | intro _
    | (extract_lets +onlyGivenNames u; refine cut_goal (P := State.Stays u fs s₀) ?_ fun _ => ?_; (on_goal 2 => clear_value u); (on_goal 1 => (unfold u; clear u)))
    | (extract_lets +onlyGivenNames u; clear_value u) | with_reducible apply ite_stays
    | with_reducible apply State.setFio_stays | with_reducible apply State.ovlBack_stays

theorem State.ebbTrainsNow_stays (s : State) (h0 : s.Stays fs s₀) (hM : [.objs, .tds, .hnw, .ntm, .dma, .flt, .fresh] ⊆ fs) :
    State.Stays (State.ebbTrainsNow s) fs s₀ := by
  unfold State.ebbTrainsNow
  repeat' first
    | with_reducible assumption | with_reducible exact List.Subset.trans (by decide) hM | intro _ | with_reducible apply ite_stays | with_reducible apply State.setHnw_stays
    | with_reducible apply State.ebbTrains_stays | with_reducible apply State.reach_stays

theorem State.routeRequest_stays (s : State) (r : Route) (target : Nat) (h0 : s.Stays fs s₀) (hM : [.hnw] ⊆ fs) :
    State.Stays (State.routeRequest s r target) fs s₀ := by
  unfold State.routeRequest
  repeat' first
    | with_reducible assumption | with_reducible exact List.Subset.trans (by decide) hM | intro _ | with_reducible apply ite_stays | with_reducible apply State.answer_stays
    | with_reducible apply State.route_stays

theorem State.svcOpen_stays (s : State) (path : Nat) (q : Svc) (h0 : s.Stays fs s₀) (hM : [.sess, .hnw] ⊆ fs) :
    State.Stays (State.svcOpen s path q) fs s₀ := by
  unfold State.svcOpen
  repeat' first
    | with_reducible assumption | with_reducible exact List.Subset.trans (by decide) hM | intro _ | (extract_lets +onlyGivenNames u; clear_value u)
    | with_reducible apply State.svcFrame_stays | with_reducible apply State.svcSend_stays
    | with_reducible apply State.setSes_stays   | dsimp only
    | split

theorem State.svcAnswer_stays (s y1 : State) (n : Nat) (q : Svc) (data : List Sys2Proof.Byte) (h0 : s.Stays fs s₀) (h1 : y1.Stays fs s₀) (hM : [.sess, .hnw] ⊆ fs) :
    State.Stays (State.svcAnswer s y1 n q data) fs s₀ := by
  unfold State.svcAnswer
  repeat' first
    | with_reducible assumption | with_reducible exact List.Subset.trans (by decide) hM | intro _ | with_reducible apply ite_stays | with_reducible apply State.modSes_stays
    | with_reducible apply State.svcSend_stays

theorem State.arrive_stays (s : State) (fr : Rx) (acyclic : Bool) (f : State → State) (h : s.Stays fs s₀)
    (hf : ∀ u, State.Stays u fs s₀ → (f u).Stays fs s₀) (hM : [.objs, .ntm, .pmc, .fresh] ⊆ fs) :
    State.Stays (s.arrive fr acyclic f) fs s₀ := by
  unfold State.arrive
  split
  · split
    rename_i heq
    have hs := stays_of_eq heq (State.ingress_stays _ _ _ h (Field.within hM (by decide)))
    split
    · exact hf _ hs
    · exact hs
  · exact h

theorem State.ipAnswer_stays (s : State) (fr : Rx) (etype ip : Nat) (kind : FKind) (dst : State → Nat)
    (body : State → List Byte) (h : s.Stays fs s₀) (hM : [.objs, .hnw, .ntm, .pmc, .fresh] ⊆ fs) :
    State.Stays (s.ipAnswer fr etype ip kind dst body) fs s₀ := by
  unfold State.ipAnswer
  refine State.arrive_stays _ _ _ _ h (fun u hu => ?_) (Field.within hM (by decide))
  split
  · exact State.draw_stays _ (State.enqueue_stays _ _ _ hu (Field.within hM (by decide))) (Field.within hM (by decide))
  · exact hu

theorem State.svcEnter_stays (s : State) (num : Nat) (q : Svc) (serve : State → Nat → State) (h : s.Stays fs s₀)
    (hf : ∀ u n, State.Stays u fs s₀ → (serve u n).Stays fs s₀) (hM : [.sess, .hnw] ⊆ fs) :
    State.Stays (s.svcEnter num q serve) fs s₀ := by
  unfold State.svcEnter
  extract_lets n x
  split
  · exact State.svcFrame_stays _ _ _ _ _ h (Field.within hM (by decide))
  · split
    · split
      · exact h
      · exact State.svcFrame_stays _ _ _ _ _ h (Field.within hM (by decide))
    · exact hf _ _ (State.modSes_stays _ _ _ h (Field.within hM (by decide)))

theorem State.toController_stays (s : State) (fr : Rx) (q : Svc) (serve : State → State) (h : s.Stays fs s₀)
    (hf : ∀ u, State.Stays u fs s₀ → (serve u).Stays fs s₀) (hM : [.objs, .hnw, .ntm, .pmc, .fresh] ⊆ fs) :
    State.Stays (s.toController fr q serve) fs s₀ := by
  unfold State.toController
  refine State.arrive_stays _ _ _ _ h (fun u hu => ?_) (Field.within hM (by decide))
  repeat' split
  · exact hu
  · exact State.svcFrame_stays _ _ _ _ _ hu (Field.within hM (by decide))
  · exact hf _ hu

theorem State.svcRequest_stays (s : State) (fr : Rx) (same : Bool) (serve : State → Svc → State) (h : s.Stays fs s₀)
    (hf : ∀ u q, State.Stays u fs s₀ → (serve u q).Stays fs s₀) (hM : [.objs, .hnw, .ntm, .pmc, .fresh] ⊆ fs) :
    State.Stays (s.svcRequest fr same serve) fs s₀ := by
  unfold State.svcRequest
  split
  · exact State.toController_stays _ _ _ _ h (fun u hu => hf _ _ hu) (Field.within hM (by decide))
  · exact h

end Sys2Proof.Machine
end


section
/-! SUPPORT. What each command leaves as it was, where it is not one write of a command object. -/

namespace Sys2Proof.Machine

variable {fs : List Field} {s₀ : State}

/-- The next state differs from s₀ at most in the parts of fs. -/
def Outcome.Stays (x : Host.Outcome State Fault Refusal) (fs : List Field) (s₀ : State) : Prop :=
  match x with
  | .next t => t.Stays fs s₀
  | _ => True

theorem execBdrCommitApplied_stays (s : State) (h0 : s.Stays fs s₀) (hM : [.objs, .mem, .bdr] ⊆ fs) :
    Outcome.Stays (execBdrCommitApplied s) fs s₀ := by
  unfold execBdrCommitApplied
  change State.Stays _ fs s₀
  repeat' first
    | with_reducible assumption | with_reducible exact List.Subset.trans (by decide) hM | intro _
    | with_reducible apply State.finishApply_stays

theorem execRecDataRead_stays (ses : Nat) (s : State) (h0 : s.Stays fs s₀) (hM : Field.all ⊆ fs) :
    Outcome.Stays (execRecDataRead ses s) fs s₀ := by
  unfold execRecDataRead
  change State.Stays _ fs s₀
  repeat' first
    | with_reducible assumption | with_reducible exact List.Subset.trans (by decide) hM | intro _
    | with_reducible apply State.openDomain_stays

theorem execRecDataWrite_stays (ses : Nat) (data : List Sys2Proof.Byte) (s : State) (h0 : s.Stays fs s₀) (hM : Field.all ⊆ fs) :
    Outcome.Stays (execRecDataWrite ses data s) fs s₀ := by
  unfold execRecDataWrite
  change State.Stays _ fs s₀
  repeat' first
    | with_reducible assumption | with_reducible exact List.Subset.trans (by decide) hM | intro _
    | with_reducible apply State.putDomain_stays

theorem execInhibitChange_stays (level : Bool) (s : State) (h0 : s.Stays fs s₀) (hM : [.bdr] ⊆ fs) :
    Outcome.Stays (execInhibitChange level s) fs s₀ := by
  unfold execInhibitChange
  change State.Stays _ fs s₀
  repeat' first
    | with_reducible assumption | with_reducible exact List.Subset.trans (by decide) hM | intro _
    | with_reducible apply State.setBdr_stays

theorem execWearSave_stays (s : State) (h0 : s.Stays fs s₀) (hM : [.objs, .mem, .bdr, .fresh] ⊆ fs) :
    Outcome.Stays (execWearSave s) fs s₀ := by
  unfold execWearSave
  change State.Stays _ fs s₀
  repeat' first
    | with_reducible assumption | with_reducible exact List.Subset.trans (by decide) hM | intro _
    | with_reducible apply State.devRecord_stays | with_reducible apply State.setBdr_stays

theorem execRegionLockoutEnd_stays (r : Nat) (s : State) (h0 : s.Stays fs s₀) (hM : [.objs, .ntm, .bdr, .fresh] ⊆ fs) :
    Outcome.Stays (execRegionLockoutEnd r s) fs s₀ := by
  unfold execRegionLockoutEnd
  change State.Stays _ fs s₀
  repeat' first
    | with_reducible assumption | with_reducible exact List.Subset.trans (by decide) hM | intro _
    | (extract_lets +onlyGivenNames u; clear_value u) | with_reducible apply ite_stays
    | with_reducible apply State.reachMono_stays | with_reducible apply State.setRegionPath_stays

theorem execBkPowerUp_stays (ident : List Sys2Proof.Byte) (s : State) (h0 : s.Stays fs s₀) (hM : [.objs, .sess, .cal, .rsv, .flt] ⊆ fs) :
    Outcome.Stays (execBkPowerUp ident s) fs s₀ := by
  unfold execBkPowerUp
  change State.Stays _ fs s₀
  repeat' first
    | with_reducible assumption | with_reducible exact List.Subset.trans (by decide) hM | intro _
    | with_reducible apply State.bkStart_stays

theorem execCalTick_stays (s : State) (h0 : s.Stays fs s₀) (hM : Field.all ⊆ fs) :
    Outcome.Stays (execCalTick s) fs s₀ := by
  unfold execCalTick
  change State.Stays _ fs s₀
  repeat' first
    | with_reducible assumption | with_reducible exact List.Subset.trans (by decide) hM | intro _
    | with_reducible apply State.calTick_stays

theorem execShiftEnd_stays (s : State) (h0 : s.Stays fs s₀) (hM : [.cal] ⊆ fs) :
    Outcome.Stays (execShiftEnd s) fs s₀ := by
  unfold execShiftEnd
  change State.Stays _ fs s₀
  repeat' first
    | with_reducible assumption | with_reducible exact List.Subset.trans (by decide) hM | intro _
    | with_reducible apply ite_stays | with_reducible apply State.setCal_stays

theorem execCalEnd_stays (s : State) (h0 : s.Stays fs s₀) (hM : [.cal, .flt] ⊆ fs) :
    Outcome.Stays (execCalEnd s) fs s₀ := by
  unfold execCalEnd
  change State.Stays _ fs s₀
  repeat' first
    | with_reducible assumption | with_reducible exact List.Subset.trans (by decide) hM | intro _
    | with_reducible apply ite_stays | with_reducible apply State.raise_stays | with_reducible apply State.setCal_stays

theorem execAlarmFire_stays (n : Nat) (s : State) (h0 : s.Stays fs s₀) (hM : Field.all ⊆ fs) :
    Outcome.Stays (execAlarmFire n s) fs s₀ := by
  unfold execAlarmFire
  change State.Stays _ fs s₀
  repeat' first
    | with_reducible assumption | with_reducible exact List.Subset.trans (by decide) hM | intro _
    | with_reducible apply ite_stays | with_reducible apply State.calTick_stays

theorem execWake_stays (s : State) (h0 : s.Stays fs s₀) (hM : Field.all ⊆ fs) :
    Outcome.Stays (execWake s) fs s₀ := by
  unfold execWake
  change State.Stays _ fs s₀
  repeat' first
    | with_reducible assumption | with_reducible exact List.Subset.trans (by decide) hM | intro _
    | with_reducible apply State.incOb_stays | with_reducible apply State.setCal_stays | with_reducible apply State.wakeUp_stays

theorem execBackupSupplyChange_stays (present : Bool) (s : State) (h0 : s.Stays fs s₀) (hM : [.objs, .cal, .rsv] ⊆ fs) :
    Outcome.Stays (execBackupSupplyChange present s) fs s₀ := by
  unfold execBackupSupplyChange
  change State.Stays _ fs s₀
  repeat' first
    | with_reducible assumption | with_reducible exact List.Subset.trans (by decide) hM | intro _
    | (extract_lets +onlyGivenNames u; refine cut_goal (P := State.Stays u fs s₀) ?_ fun _ => ?_; (on_goal 2 => clear_value u); (on_goal 1 => (unfold u; clear u)))
    | (extract_lets +onlyGivenNames u; clear_value u) | with_reducible apply ite_stays
    | with_reducible apply State.rsvAbort_stays | with_reducible apply State.setCal_stays

theorem execRsvTestInterval_stays (s : State) (h0 : s.Stays fs s₀) (hM : [.objs, .rsv, .flt] ⊆ fs) :
    Outcome.Stays (execRsvTestInterval s) fs s₀ := by
  unfold execRsvTestInterval
  change State.Stays _ fs s₀
  repeat' first
    | with_reducible assumption | with_reducible exact List.Subset.trans (by decide) hM | intro _
    | with_reducible apply ite_stays | with_reducible apply State.rsvTestStart_stays

theorem execRsvTestEnd_stays (dv1 dv2 : Nat) (s : State) (h0 : s.Stays fs s₀) (hM : [.objs, .rsv, .flt] ⊆ fs) :
    Outcome.Stays (execRsvTestEnd dv1 dv2 s) fs s₀ := by
  unfold execRsvTestEnd
  change State.Stays _ fs s₀
  repeat' first
    | with_reducible assumption | with_reducible exact List.Subset.trans (by decide) hM | intro _
    | with_reducible apply State.rsvTestDone_stays

theorem execRsvTestAbort_stays (s : State) (h0 : s.Stays fs s₀) (hM : [.objs, .cal, .rsv] ⊆ fs) :
    Outcome.Stays (execRsvTestAbort s) fs s₀ := by
  unfold execRsvTestAbort
  change State.Stays _ fs s₀
  repeat' first
    | with_reducible assumption | with_reducible exact List.Subset.trans (by decide) hM | intro _
    | with_reducible apply ite_stays | with_reducible apply State.rsvAbort_stays | with_reducible apply State.setCal_stays

theorem execStressUpdate_stays (tempC volt : Int) (s : State) (h0 : s.Stays fs s₀) (hM : [.objs, .rsv, .flt] ⊆ fs) :
    Outcome.Stays (execStressUpdate tempC volt s) fs s₀ := by
  unfold execStressUpdate
  change State.Stays _ fs s₀
  repeat' first
    | with_reducible assumption | with_reducible exact List.Subset.trans (by decide) hM | intro _
    | with_reducible apply State.stressMinute_stays

theorem execStressSave_stays (s : State) (h0 : s.Stays fs s₀) (hM : [.rsv] ⊆ fs) :
    Outcome.Stays (execStressSave s) fs s₀ := by
  unfold execStressSave
  change State.Stays _ fs s₀
  repeat' first
    | with_reducible assumption | with_reducible exact List.Subset.trans (by decide) hM | intro _
    | with_reducible apply State.stressDaily_stays

theorem execBusIdleDetect_stays (k : Nat) (s : State) (h0 : s.Stays fs s₀) (hM : [.objs, .ctxs, .sent, .mbc, .flt] ⊆ fs) :
    Outcome.Stays (execBusIdleDetect k s) fs s₀ := by
  unfold execBusIdleDetect
  change State.Stays _ fs s₀
  repeat' first
    | with_reducible assumption | with_reducible exact List.Subset.trans (by decide) hM | intro _
    | with_reducible apply ite_stays | with_reducible apply State.busOffCheck_stays | with_reducible apply State.modMb_stays

theorem execBusRecovered_stays (k : Nat) (s : State) (h0 : s.Stays fs s₀) (hM : [.mbc] ⊆ fs) :
    Outcome.Stays (execBusRecovered k s) fs s₀ := by
  unfold execBusRecovered
  change State.Stays _ fs s₀
  repeat' first
    | with_reducible assumption | with_reducible exact List.Subset.trans (by decide) hM | intro _
    | with_reducible apply ite_stays | with_reducible apply State.modMb_stays

theorem execCanFrameReceive_stays (k : Nat) (f : CanFrame) (stamp : Nat) (s : State) (h0 : s.Stays fs s₀) (hM : Field.all ⊆ fs) :
    Outcome.Stays (execCanFrameReceive k f stamp s) fs s₀ := by
  unfold execCanFrameReceive
  change State.Stays _ fs s₀
  repeat' first
    | with_reducible assumption | with_reducible exact List.Subset.trans (by decide) hM | intro _
    | with_reducible apply State.canArrive_stays

theorem execCanRxError_stays (k lec : Nat) (s : State) (h0 : s.Stays fs s₀) (hM : [.objs, .mbc, .fresh] ⊆ fs) :
    Outcome.Stays (execCanRxError k lec s) fs s₀ := by
  unfold execCanRxError
  change State.Stays _ fs s₀
  repeat' first
    | with_reducible assumption | with_reducible exact List.Subset.trans (by decide) hM | intro _
    | with_reducible apply ite_stays | with_reducible apply State.rxError_stays

theorem execSdoRequest_stays (k : Nat) (data : List Sys2Proof.Byte) (s : State) (h0 : s.Stays fs s₀) (hM : Field.all ⊆ fs) :
    Outcome.Stays (execSdoRequest k data s) fs s₀ := by
  unfold execSdoRequest
  change State.Stays _ fs s₀
  repeat' first
    | with_reducible assumption | with_reducible exact List.Subset.trans (by decide) hM | intro _
    | with_reducible apply State.canArrive_stays

theorem execSdoTimeout_stays (k : Nat) (s : State) (h0 : s.Stays fs s₀) (hM : [.objs, .sess, .ntm, .mbc, .fresh] ⊆ fs) :
    Outcome.Stays (execSdoTimeout k s) fs s₀ := by
  unfold execSdoTimeout
  change State.Stays _ fs s₀
  repeat' first
    | with_reducible assumption | with_reducible exact List.Subset.trans (by decide) hM | intro _
    | with_reducible apply State.reachMono_stays | with_reducible apply State.sdoStop_stays | dsimp only | split

theorem execRdLastWordRead_stays (ses k : Nat) (s : State) (h0 : s.Stays fs s₀) (hM : [.objs, .sess, .dic, .ctxs, .ntm, .mbc, .pwr, .fresh] ⊆ fs) :
    Outcome.Stays (execRdLastWordRead ses k s) fs s₀ := by
  unfold execRdLastWordRead
  change State.Stays _ fs s₀
  repeat' first
    | with_reducible assumption | with_reducible exact List.Subset.trans (by decide) hM | intro _
    | with_reducible apply State.dictRead_stays | dsimp only | split

theorem execTxStartOfFrame_stays (k : Nat) (s : State) (h0 : s.Stays fs s₀) (hM : [.mbc] ⊆ fs) :
    Outcome.Stays (execTxStartOfFrame k s) fs s₀ := by
  unfold execTxStartOfFrame
  change State.Stays _ fs s₀
  repeat' first
    | with_reducible assumption | with_reducible exact List.Subset.trans (by decide) hM | intro _
    | with_reducible apply State.txStart_stays

theorem execTxAttemptEnd_stays (k : Nat) (r : TxEnd) (s : State) (h0 : s.Stays fs s₀) (hM : Field.all ⊆ fs) :
    Outcome.Stays (execTxAttemptEnd k r s) fs s₀ := by
  unfold execTxAttemptEnd
  change State.Stays _ fs s₀
  repeat' first
    | with_reducible assumption | with_reducible exact List.Subset.trans (by decide) hM | intro _
    | (extract_lets +onlyGivenNames u; refine cut_goal (P := State.Stays u fs s₀) ?_ fun _ => ?_; (on_goal 2 => clear_value u); (on_goal 1 => (unfold u; clear u)))
    | (extract_lets +onlyGivenNames u; clear_value u) | with_reducible apply ite_stays
    | with_reducible apply State.sdoServe_stays | with_reducible apply State.txEnd_stays | dsimp only | split

theorem execVerifyDone_stays (s : State) (h0 : s.Stays fs s₀) (hM : [.doms, .olc] ⊆ fs) :
    Outcome.Stays (execVerifyDone s) fs s₀ := by
  unfold execVerifyDone
  change State.Stays _ fs s₀
  repeat' first
    | with_reducible assumption | with_reducible exact List.Subset.trans (by decide) hM | intro _
    | with_reducible apply State.verifyDone_stays

theorem execPrepareVote_stays (die : Nat) (yes : Bool) (s : State) (h0 : s.Stays fs s₀) (hM : [.sess, .ctxs, .olc, .hnw, .msgs, .mbc] ⊆ fs) :
    Outcome.Stays (execPrepareVote die yes s) fs s₀ := by
  unfold execPrepareVote
  change State.Stays _ fs s₀
  repeat' first
    | with_reducible assumption | with_reducible exact List.Subset.trans (by decide) hM | intro _
    | with_reducible apply State.olcReply_stays | with_reducible apply State.prepareVote_stays

theorem execNoQuiesce_stays (s : State) (h0 : s.Stays fs s₀) (hM : [.olc] ⊆ fs) :
    Outcome.Stays (execNoQuiesce s) fs s₀ := by
  unfold execNoQuiesce
  change State.Stays _ fs s₀
  repeat' first
    | with_reducible assumption | with_reducible exact List.Subset.trans (by decide) hM | intro _
    | with_reducible apply State.noQuiesce_stays

theorem execBankSwitch_stays (strand : Nat) (s : State) (h0 : s.Stays fs s₀) (hM : [.cores, .olc] ⊆ fs) :
    Outcome.Stays (execBankSwitch strand s) fs s₀ := by
  unfold execBankSwitch
  change State.Stays _ fs s₀
  repeat' first
    | with_reducible assumption | with_reducible exact List.Subset.trans (by decide) hM | intro _
    | with_reducible apply State.bankSwitch_stays

theorem execBankConfirm_stays (strand : Nat) (s : State) (h0 : s.Stays fs s₀) (hM : [.objs, .mem, .ecc, .cores, .img, .olc, .dma, .bdr, .flt, .fresh] ⊆ fs) :
    Outcome.Stays (execBankConfirm strand s) fs s₀ := by
  unfold execBankConfirm
  change State.Stays _ fs s₀
  repeat' first
    | with_reducible assumption | with_reducible exact List.Subset.trans (by decide) hM | intro _
    | with_reducible apply State.bankConfirm_stays

theorem execConfirmLost_stays (strand : Nat) (s : State) (h0 : s.Stays fs s₀) (hM : [.objs, .mem, .ecc, .cores, .img, .olc, .dma, .bdr, .flt, .fresh] ⊆ fs) :
    Outcome.Stays (execConfirmLost strand s) fs s₀ := by
  unfold execConfirmLost
  change State.Stays _ fs s₀
  repeat' first
    | with_reducible assumption | with_reducible exact List.Subset.trans (by decide) hM | intro _
    | with_reducible apply State.confirmLost_stays

theorem execOlcCompletion_stays (s : State) (h0 : s.Stays fs s₀) (hM : [.objs, .doms, .mem, .ecc, .owners, .sess, .ctxs, .cores, .tds, .tasks, .img, .olc, .str, .sent, .bdr, .flt, .sta, .fresh] ⊆ fs) :
    Outcome.Stays (execOlcCompletion s) fs s₀ := by
  unfold execOlcCompletion
  change State.Stays _ fs s₀
  repeat' first
    | with_reducible assumption | with_reducible exact List.Subset.trans (by decide) hM | intro _
    | with_reducible apply State.olcComplete_stays | with_reducible apply State.settleEdges_stays

theorem execCutTideReceive_stays (tide : Nat) (s : State) (h0 : s.Stays fs s₀) (hM : [.tds, .olc, .msgs] ⊆ fs) :
    Outcome.Stays (execCutTideReceive tide s) fs s₀ := by
  unfold execCutTideReceive
  change State.Stays _ fs s₀
  repeat' first
    | with_reducible assumption | with_reducible exact List.Subset.trans (by decide) hM | intro _
    | with_reducible apply State.cutTide_stays

theorem execStandbyVoteReceive_stays (tide : Nat) (yes : Bool) (s : State) (h0 : s.Stays fs s₀) (hM : [.objs, .mem, .ecc, .sess, .ctxs, .cores, .tds, .tasks, .img, .olc, .str, .sent, .msgs, .bdr, .flt, .sta, .fresh] ⊆ fs) :
    Outcome.Stays (execStandbyVoteReceive tide yes s) fs s₀ := by
  unfold execStandbyVoteReceive
  change State.Stays _ fs s₀
  repeat' first
    | with_reducible assumption | with_reducible exact List.Subset.trans (by decide) hM | intro _
    | with_reducible apply State.settleEdges_stays | with_reducible apply State.standbyVote_stays

theorem execStandbyVoteLate_stays (s : State) (h0 : s.Stays fs s₀) (hM : [.objs, .mem, .ecc, .sess, .ctxs, .cores, .tds, .tasks, .img, .olc, .str, .sent, .bdr, .flt, .sta, .fresh] ⊆ fs) :
    Outcome.Stays (execStandbyVoteLate s) fs s₀ := by
  unfold execStandbyVoteLate
  change State.Stays _ fs s₀
  repeat' first
    | with_reducible assumption | with_reducible exact List.Subset.trans (by decide) hM | intro _
    | with_reducible apply State.settleEdges_stays | with_reducible apply State.standbyLate_stays

theorem execPartnerCommitToken_stays (tide : Nat) (s : State) (h0 : s.Stays fs s₀) (hM : [.objs, .olc, .msgs] ⊆ fs) :
    Outcome.Stays (execPartnerCommitToken tide s) fs s₀ := by
  unfold execPartnerCommitToken
  change State.Stays _ fs s₀
  repeat' first
    | with_reducible assumption | with_reducible exact List.Subset.trans (by decide) hM | intro _
    | with_reducible apply State.partnerToken_stays

theorem execCommitTokenMissing_stays (s : State) (h0 : s.Stays fs s₀) (hM : [.objs, .doms, .tds, .olc, .role, .red, .flt] ⊆ fs) :
    Outcome.Stays (execCommitTokenMissing s) fs s₀ := by
  unfold execCommitTokenMissing
  change State.Stays _ fs s₀
  repeat' first
    | with_reducible assumption | with_reducible exact List.Subset.trans (by decide) hM | intro _
    | with_reducible apply State.tokenMissing_stays

theorem execPartnerPrepareReceive_stays (hash : List Sys2Proof.Byte) (s : State) (h0 : s.Stays fs s₀) (hM : [.olc, .msgs] ⊆ fs) :
    Outcome.Stays (execPartnerPrepareReceive hash s) fs s₀ := by
  unfold execPartnerPrepareReceive
  change State.Stays _ fs s₀
  repeat' first
    | with_reducible assumption | with_reducible exact List.Subset.trans (by decide) hM | intro _
    | with_reducible apply State.partnerPrepare_stays

theorem execPartnerDiscardToken_stays (s : State) (h0 : s.Stays fs s₀) (hM : [.objs, .mem, .ecc, .sess, .ctxs, .cores, .tds, .tasks, .img, .olc, .str, .sent, .bdr, .flt, .sta, .fresh] ⊆ fs) :
    Outcome.Stays (execPartnerDiscardToken s) fs s₀ := by
  unfold execPartnerDiscardToken
  change State.Stays _ fs s₀
  repeat' first
    | with_reducible assumption | with_reducible exact List.Subset.trans (by decide) hM | intro _
    | with_reducible apply State.partnerDiscard_stays | with_reducible apply State.settleEdges_stays

theorem execResetRelease_stays (bistOk : Bool) (flash0 flash1 : List Sys2Proof.Byte) (s : State) (h0 : s.Stays fs s₀) (hM : [.objs, .doms, .mem, .owners, .ctxs, .tds, .tasks, .img, .olc, .str, .role, .pair, .grant, .link, .sent, .msgs, .own, .repl, .wit, .red, .fio, .bdr, .flt, .pwr, .fresh] ⊆ fs) :
    Outcome.Stays (execResetRelease bistOk flash0 flash1 s) fs s₀ := by
  unfold execResetRelease
  change State.Stays _ fs s₀
  repeat' first
    | with_reducible assumption | with_reducible exact List.Subset.trans (by decide) hM | intro _
    | with_reducible apply ite_stays | with_reducible apply State.setStr_stays | with_reducible apply State.startRun_stays

theorem execTimeWaitExpiry_stays (s : State) (h0 : s.Stays fs s₀) (hM : Field.all ⊆ fs) :
    Outcome.Stays (execTimeWaitExpiry s) fs s₀ := by
  unfold execTimeWaitExpiry
  change State.Stays _ fs s₀
  repeat' first
    | with_reducible assumption | with_reducible exact List.Subset.trans (by decide) hM | intro _
    | with_reducible apply State.timeExpired_stays | with_reducible apply State.txnSettle_stays

theorem execStartConfirm_stays (s : State) (h0 : s.Stays fs s₀) (hM : [.objs, .mem, .ctxs, .str, .ntm, .bdr, .fresh] ⊆ fs) :
    Outcome.Stays (execStartConfirm s) fs s₀ := by
  unfold execStartConfirm
  change State.Stays _ fs s₀
  repeat' first
    | with_reducible assumption | with_reducible exact List.Subset.trans (by decide) hM | intro _
    | with_reducible apply State.startConfirm_stays

theorem execSecProvision_stays (ses : Nat) (data : List Sys2Proof.Byte) (s : State) (h0 : s.Stays fs s₀) (hM : Field.all ⊆ fs) :
    Outcome.Stays (execSecProvision ses data s) fs s₀ := by
  unfold execSecProvision
  change State.Stays _ fs s₀
  repeat' first
    | with_reducible assumption | with_reducible exact List.Subset.trans (by decide) hM | intro _
    | with_reducible apply State.putDomain_stays

theorem execBracketLimit_stays (c : Nat) (s : State) (h0 : s.Stays fs s₀) (hM : Field.all ⊆ fs) :
    Outcome.Stays (execBracketLimit c s) fs s₀ := by
  unfold execBracketLimit
  change State.Stays _ fs s₀
  repeat' first
    | with_reducible assumption | with_reducible exact List.Subset.trans (by decide) hM | intro _
    | with_reducible apply State.bracketEnd_stays | dsimp only | split

theorem execLoadDataReturn_stays (c : Nat) (s : State) (h0 : s.Stays fs s₀) (hM : [.ctxs, .cores] ⊆ fs) :
    Outcome.Stays (execLoadDataReturn c s) fs s₀ := by
  unfold execLoadDataReturn
  change State.Stays _ fs s₀
  repeat' first
    | with_reducible assumption | with_reducible exact List.Subset.trans (by decide) hM | intro _
    | with_reducible apply State.landOne_stays

theorem execWriteBufferRoom_stays (c : Nat) (s : State) (h0 : s.Stays fs s₀) (hM : Field.all ⊆ fs) :
    Outcome.Stays (execWriteBufferRoom c s) fs s₀ := by
  unfold execWriteBufferRoom
  change State.Stays _ fs s₀
  repeat' first
    | with_reducible assumption | with_reducible exact List.Subset.trans (by decide) hM | intro _
    | with_reducible apply ite_stays | with_reducible apply State.resched_stays | with_reducible apply State.storeGoesOn_stays
    | dsimp only | split

theorem execWriteBufferDrain_stays (c : Nat) (s : State) (h0 : s.Stays fs s₀) (hM : Field.all ⊆ fs) :
    Outcome.Stays (execWriteBufferDrain c s) fs s₀ := by
  unfold execWriteBufferDrain
  change State.Stays _ fs s₀
  repeat' first
    | with_reducible assumption | with_reducible exact List.Subset.trans (by decide) hM | intro _
    | with_reducible apply State.drainOne_stays

theorem execDrainAck_stays (c ctx : Nat) (s : State) (h0 : s.Stays fs s₀) (hM : [.objs, .ctxs, .tasks, .bdr] ⊆ fs) :
    Outcome.Stays (execDrainAck c ctx s) fs s₀ := by
  unfold execDrainAck
  change State.Stays _ fs s₀
  repeat' first
    | with_reducible assumption | with_reducible exact List.Subset.trans (by decide) hM | intro _
    | with_reducible apply State.drainAck_stays

theorem execObjectWrite_stays (ses idx sub width v : Nat) (s : State) (h0 : s.Stays fs s₀) (hM : Field.all ⊆ fs) :
    Outcome.Stays (execObjectWrite ses idx sub width v s) fs s₀ := by
  unfold execObjectWrite
  change State.Stays _ fs s₀
  repeat' first
    | with_reducible assumption | with_reducible exact List.Subset.trans (by decide) hM | intro _
    | with_reducible apply State.dictWrite_stays

theorem execLockoutEnd_stays (path : Nat) (s : State) (h0 : s.Stays fs s₀) (hM : [.objs, .dic, .ntm, .fresh] ⊆ fs) :
    Outcome.Stays (execLockoutEnd path s) fs s₀ := by
  unfold execLockoutEnd
  change State.Stays _ fs s₀
  repeat' first
    | with_reducible assumption | with_reducible exact List.Subset.trans (by decide) hM | intro _
    | with_reducible apply State.lockoutEnd_stays

theorem execSessionIdleClose_stays (ses : Nat) (s : State) (h0 : s.Stays fs s₀) (hM : [.objs, .sess, .dic, .ntm, .bdr, .fresh] ⊆ fs) :
    Outcome.Stays (execSessionIdleClose ses s) fs s₀ := by
  unfold execSessionIdleClose
  change State.Stays _ fs s₀
  repeat' first
    | with_reducible assumption | with_reducible exact List.Subset.trans (by decide) hM | intro _
    | with_reducible apply State.sesIdle_stays

theorem execDieVote_stays (ses die : Nat) (s : State) (h0 : s.Stays fs s₀) (hM : [.sess, .ctxs, .hnw, .mbc] ⊆ fs) :
    Outcome.Stays (execDieVote ses die s) fs s₀ := by
  unfold execDieVote
  change State.Stays _ fs s₀
  repeat' first
    | with_reducible assumption | with_reducible exact List.Subset.trans (by decide) hM | intro _
    | with_reducible apply State.dieVote_stays

theorem execHandshakeTimeout_stays (kind ses die : Nat) (s : State) (h0 : s.Stays fs s₀) (hM : [.objs, .mem, .ecc, .sess, .ctxs, .cores, .img, .olc, .hnw, .ntm, .msgs, .mbc, .dma, .bdr, .flt, .snp, .fresh] ⊆ fs) :
    Outcome.Stays (execHandshakeTimeout kind ses die s) fs s₀ := by
  unfold execHandshakeTimeout
  change State.Stays _ fs s₀
  repeat' first
    | with_reducible assumption | with_reducible exact List.Subset.trans (by decide) hM | intro _
    | with_reducible apply ite_stays | with_reducible apply State.confirmLost_stays | with_reducible apply State.olcReply_stays
    | with_reducible apply State.prepareTake_stays | with_reducible apply State.raise_stays
    | with_reducible apply State.tidemarkLost_stays | with_reducible apply State.txnTimeout_stays

theorem execTxnApply_stays (ses die : Nat) (s : State) (h0 : s.Stays fs s₀) (hM : Field.all ⊆ fs) :
    Outcome.Stays (execTxnApply ses die s) fs s₀ := by
  unfold execTxnApply
  change State.Stays _ fs s₀
  repeat' first
    | with_reducible assumption | with_reducible exact List.Subset.trans (by decide) hM | intro _
    | with_reducible apply State.txnApply_stays

theorem execApplyConfirm_stays (ses die : Nat) (s : State) (h0 : s.Stays fs s₀) (hM : [.sess] ⊆ fs) :
    Outcome.Stays (execApplyConfirm ses die s) fs s₀ := by
  unfold execApplyConfirm
  change State.Stays _ fs s₀
  repeat' first
    | with_reducible assumption | with_reducible exact List.Subset.trans (by decide) hM | intro _
    | with_reducible apply State.txnConfirm_stays

theorem execTxnExpired_stays (ses : Nat) (s : State) (h0 : s.Stays fs s₀) (hM : [.objs, .sess, .ntm, .fresh] ⊆ fs) :
    Outcome.Stays (execTxnExpired ses s) fs s₀ := by
  unfold execTxnExpired
  change State.Stays _ fs s₀
  repeat' first
    | with_reducible assumption | with_reducible exact List.Subset.trans (by decide) hM | intro _
    | with_reducible apply State.txnExpire_stays

theorem execDomApertureAccess_stays (ses : Nat) (write : Bool) (at_ width v : Nat) (s : State) (h0 : s.Stays fs s₀) (hM : [.objs, .mem, .sess, .ntm, .pwr, .fresh] ⊆ fs) :
    Outcome.Stays (execDomApertureAccess ses write at_ width v s) fs s₀ := by
  unfold execDomApertureAccess
  change State.Stays _ fs s₀
  repeat' first
    | with_reducible assumption | with_reducible exact List.Subset.trans (by decide) hM | intro _
    | with_reducible apply ite_stays | with_reducible apply State.apRead_stays | with_reducible apply State.apWrite_stays

theorem execOemRequest_stays (ses idx sub : Nat) (write : Bool) (v : Nat) (s : State) (h0 : s.Stays fs s₀) (hM : [.objs, .sess, .dic, .ctxs] ⊆ fs) :
    Outcome.Stays (execOemRequest ses idx sub write v s) fs s₀ := by
  unfold execOemRequest
  change State.Stays _ fs s₀
  repeat' first
    | with_reducible assumption | with_reducible exact List.Subset.trans (by decide) hM | intro _
    | with_reducible apply ite_stays | with_reducible apply State.oemEnter_stays

theorem execOemReqTake_stays (s : State) (h0 : s.Stays fs s₀) (hM : Field.all ⊆ fs) :
    Outcome.Stays (execOemReqTake s) fs s₀ := by
  unfold execOemReqTake
  change State.Stays _ fs s₀
  repeat' first
    | with_reducible assumption | with_reducible exact List.Subset.trans (by decide) hM | intro _
    | with_reducible apply State.openDomain_stays

theorem execOemAnswer_stays (tag status data : Nat) (s : State) (h0 : s.Stays fs s₀) (hM : [.sess, .dic, .ctxs, .cores, .hnw, .mbc] ⊆ fs) :
    Outcome.Stays (execOemAnswer tag status data s) fs s₀ := by
  unfold execOemAnswer
  change State.Stays _ fs s₀
  repeat' first
    | with_reducible assumption | with_reducible exact List.Subset.trans (by decide) hM | intro _
    | with_reducible apply State.oemAnswer_stays

theorem execOemTimeout_stays (tag : Nat) (s : State) (h0 : s.Stays fs s₀) (hM : [.objs, .sess, .dic, .ctxs, .cores, .hnw, .ntm, .mbc, .fresh] ⊆ fs) :
    Outcome.Stays (execOemTimeout tag s) fs s₀ := by
  unfold execOemTimeout
  change State.Stays _ fs s₀
  repeat' first
    | with_reducible assumption | with_reducible exact List.Subset.trans (by decide) hM | intro _
    | with_reducible apply State.oemExpire_stays

theorem execDmaMove_stays (ch : Nat) (s : State) (h0 : s.Stays fs s₀) (hM : [.objs, .mem, .ecc, .cores, .img, .olc, .dma, .bdr, .flt, .fresh] ⊆ fs) :
    Outcome.Stays (execDmaMove ch s) fs s₀ := by
  unfold execDmaMove
  change State.Stays _ fs s₀
  repeat' first
    | with_reducible assumption | with_reducible exact List.Subset.trans (by decide) hM | intro _
    | with_reducible apply State.dmaMove_stays

theorem execDmaLoop_stays (ch : Nat) (s : State) (h0 : s.Stays fs s₀) (hM : [.objs, .dma, .flt] ⊆ fs) :
    Outcome.Stays (execDmaLoop ch s) fs s₀ := by
  unfold execDmaLoop
  change State.Stays _ fs s₀
  repeat' first
    | with_reducible assumption | with_reducible exact List.Subset.trans (by decide) hM | intro _
    | with_reducible apply State.dmaLoop_stays

theorem execDmaWait_stays (ch : Nat) (s : State) (h0 : s.Stays fs s₀) (hM : [.objs, .ntm, .dma, .flt, .fresh] ⊆ fs) :
    Outcome.Stays (execDmaWait ch s) fs s₀ := by
  unfold execDmaWait
  change State.Stays _ fs s₀
  repeat' first
    | with_reducible assumption | with_reducible exact List.Subset.trans (by decide) hM | intro _
    | with_reducible apply State.dmaWait_stays

theorem execDmaSignal_stays (ch : Nat) (s : State) (h0 : s.Stays fs s₀) (hM : [.objs, .dma, .flt] ⊆ fs) :
    Outcome.Stays (execDmaSignal ch s) fs s₀ := by
  unfold execDmaSignal
  change State.Stays _ fs s₀
  repeat' first
    | with_reducible assumption | with_reducible exact List.Subset.trans (by decide) hM | intro _
    | with_reducible apply State.dmaFin_stays

theorem execDmaFence_stays (ch : Nat) (s : State) (h0 : s.Stays fs s₀) (hM : [.objs, .dma, .flt] ⊆ fs) :
    Outcome.Stays (execDmaFence ch s) fs s₀ := by
  unfold execDmaFence
  change State.Stays _ fs s₀
  repeat' first
    | with_reducible assumption | with_reducible exact List.Subset.trans (by decide) hM | intro _
    | with_reducible apply State.dmaFin_stays

theorem execDmaEnd_stays (ch : Nat) (s : State) (h0 : s.Stays fs s₀) (hM : [.objs, .dma, .flt] ⊆ fs) :
    Outcome.Stays (execDmaEnd ch s) fs s₀ := by
  unfold execDmaEnd
  change State.Stays _ fs s₀
  repeat' first
    | with_reducible assumption | with_reducible exact List.Subset.trans (by decide) hM | intro _
    | with_reducible apply State.dmaFin_stays

theorem execDmaReadbackDone_stays (ch : Nat) (s : State) (h0 : s.Stays fs s₀) (hM : [.objs, .tds, .ntm, .own, .dma, .flt, .fresh] ⊆ fs) :
    Outcome.Stays (execDmaReadbackDone ch s) fs s₀ := by
  unfold execDmaReadbackDone
  change State.Stays _ fs s₀
  repeat' first
    | with_reducible assumption | with_reducible exact List.Subset.trans (by decide) hM | intro _
    | with_reducible apply State.dmaReadback_stays

theorem execDmaWaitRelease_stays (ch : Nat) (s : State) (h0 : s.Stays fs s₀) (hM : [.objs, .ntm, .dma, .flt, .fresh] ⊆ fs) :
    Outcome.Stays (execDmaWaitRelease ch s) fs s₀ := by
  unfold execDmaWaitRelease
  change State.Stays _ fs s₀
  repeat' first
    | with_reducible assumption | with_reducible exact List.Subset.trans (by decide) hM | intro _
    | with_reducible apply State.dmaWaitRelease_stays

theorem execDmaWaitTimeout_stays (ch : Nat) (s : State) (h0 : s.Stays fs s₀) (hM : [.objs, .ntm, .dma, .flt, .fresh] ⊆ fs) :
    Outcome.Stays (execDmaWaitTimeout ch s) fs s₀ := by
  unfold execDmaWaitTimeout
  change State.Stays _ fs s₀
  repeat' first
    | with_reducible assumption | with_reducible exact List.Subset.trans (by decide) hM | intro _
    | with_reducible apply State.dmaWaitTimeout_stays

theorem execDmaPauseDrained_stays (ch : Nat) (s : State) (h0 : s.Stays fs s₀) (hM : [.objs, .mem, .ecc, .cores, .tds, .img, .olc, .ntm, .own, .dma, .bdr, .flt, .fresh] ⊆ fs) :
    Outcome.Stays (execDmaPauseDrained ch s) fs s₀ := by
  unfold execDmaPauseDrained
  change State.Stays _ fs s₀
  repeat' first
    | with_reducible assumption | with_reducible exact List.Subset.trans (by decide) hM | intro _
    | with_reducible apply State.dmaDrained_stays

theorem execInputEdgeAccept_stays (n : Nat) (rising : Bool) (stamp : Nat) (s : State) (h0 : s.Stays fs s₀) (hM : [.objs, .tds, .ntm, .sent, .own, .fio, .fresh] ⊆ fs) :
    Outcome.Stays (execInputEdgeAccept n rising stamp s) fs s₀ := by
  unfold execInputEdgeAccept
  change State.Stays _ fs s₀
  repeat' first
    | with_reducible assumption | with_reducible exact List.Subset.trans (by decide) hM | intro _
    | with_reducible apply State.edgeAccept_stays

theorem execC1Status_stays (r : C1) (s : State) (h0 : s.Stays fs s₀) (hM : [.objs, .fio, .flt] ⊆ fs) :
    Outcome.Stays (execC1Status r s) fs s₀ := by
  unfold execC1Status
  change State.Stays _ fs s₀
  repeat' first
    | with_reducible assumption | with_reducible exact List.Subset.trans (by decide) hM | intro _
    | (extract_lets +onlyGivenNames u; refine cut_goal (P := State.Stays u fs s₀) ?_ fun _ => ?_; (on_goal 2 => clear_value u); (on_goal 1 => (unfold u; clear u)))
    | (extract_lets +onlyGivenNames u; clear_value u) | with_reducible apply ite_stays | with_reducible apply State.c1_stays
    | with_reducible apply State.limitSince_stays

theorem execDiagSettleEnd_stays (n : Nat) (s : State) (h0 : s.Stays fs s₀) (hM : [.objs, .ntm, .fio, .fresh] ⊆ fs) :
    Outcome.Stays (execDiagSettleEnd n s) fs s₀ := by
  unfold execDiagSettleEnd
  change State.Stays _ fs s₀
  repeat' first
    | with_reducible assumption | with_reducible exact List.Subset.trans (by decide) hM | intro _
    | with_reducible apply ite_stays | with_reducible apply State.reachMono_stays | with_reducible apply State.setFio_stays

theorem execFieldSupplyChange_stays (grp : Nat) (present : Bool) (s : State) (h0 : s.Stays fs s₀) (hM : [.objs, .fio, .flt] ⊆ fs) :
    Outcome.Stays (execFieldSupplyChange grp present s) fs s₀ := by
  unfold execFieldSupplyChange
  change State.Stays _ fs s₀
  repeat' first
    | with_reducible assumption | with_reducible exact List.Subset.trans (by decide) hM | intro _
    | with_reducible apply ite_stays | with_reducible apply State.supplyChange_stays

theorem execFieldConfigMessage_stays (item v : Nat) (s : State) (h0 : s.Stays fs s₀) (hM : [.fio] ⊆ fs) :
    Outcome.Stays (execFieldConfigMessage item v s) fs s₀ := by
  unfold execFieldConfigMessage
  change State.Stays _ fs s₀
  repeat' first
    | with_reducible assumption | with_reducible exact List.Subset.trans (by decide) hM | intro _
    | with_reducible apply ite_stays | with_reducible apply State.fieldConfig_stays

theorem execFieldRefresh_stays (s : State) (h0 : s.Stays fs s₀) (hM : [.fio] ⊆ fs) :
    Outcome.Stays (execFieldRefresh s) fs s₀ := by
  unfold execFieldRefresh
  change State.Stays _ fs s₀
  repeat' first
    | with_reducible assumption | with_reducible exact List.Subset.trans (by decide) hM | intro _
    | with_reducible apply ite_stays | with_reducible apply State.fieldRefresh_stays

theorem execFieldPark_stays (s : State) (h0 : s.Stays fs s₀) (hM : [.fio] ⊆ fs) :
    Outcome.Stays (execFieldPark s) fs s₀ := by
  unfold execFieldPark
  change State.Stays _ fs s₀
  repeat' first
    | with_reducible assumption | with_reducible exact List.Subset.trans (by decide) hM | intro _
    | with_reducible apply ite_stays | with_reducible apply State.fieldPark_stays

theorem execFieldRecover_stays (s : State) (h0 : s.Stays fs s₀) (hM : [.fio] ⊆ fs) :
    Outcome.Stays (execFieldRecover s) fs s₀ := by
  unfold execFieldRecover
  change State.Stays _ fs s₀
  repeat' first
    | with_reducible assumption | with_reducible exact List.Subset.trans (by decide) hM | intro _
    | with_reducible apply ite_stays | with_reducible apply State.fieldRecover_stays

theorem execSilenceExpiry_stays (s : State) (h0 : s.Stays fs s₀) (hM : [.objs, .ntm, .fio, .fresh] ⊆ fs) :
    Outcome.Stays (execSilenceExpiry s) fs s₀ := by
  unfold execSilenceExpiry
  change State.Stays _ fs s₀
  repeat' first
    | with_reducible assumption | with_reducible exact List.Subset.trans (by decide) hM | intro _
    | (extract_lets +onlyGivenNames u; refine cut_goal (P := State.Stays u fs s₀) ?_ fun _ => ?_; (on_goal 2 => clear_value u); (on_goal 1 => (unfold u; clear u)))
    | (extract_lets +onlyGivenNames u; clear_value u) | with_reducible apply ite_stays
    | with_reducible apply State.fieldPark_stays | with_reducible apply State.fieldSafe_stays
    | with_reducible apply State.reachMono_stays

theorem execOvlSwitchOff_stays (n : Nat) (s : State) (h0 : s.Stays fs s₀) (hM : [.objs, .ntm, .fio, .fresh] ⊆ fs) :
    Outcome.Stays (execOvlSwitchOff n s) fs s₀ := by
  unfold execOvlSwitchOff
  change State.Stays _ fs s₀
  repeat' first
    | with_reducible assumption | with_reducible exact List.Subset.trans (by decide) hM | intro _
    | with_reducible apply ite_stays | with_reducible apply State.ovlOff_stays | with_reducible apply State.reachMono_stays
    | dsimp only | split

theorem execThermalShutdown_stays (n : Nat) (s : State) (h0 : s.Stays fs s₀) (hM : [.fio] ⊆ fs) :
    Outcome.Stays (execThermalShutdown n s) fs s₀ := by
  unfold execThermalShutdown
  change State.Stays _ fs s₀
  repeat' first
    | with_reducible assumption | with_reducible exact List.Subset.trans (by decide) hM | intro _
    | with_reducible apply ite_stays | with_reducible apply State.ovlOff_stays

theorem execThermalRelease_stays (n : Nat) (s : State) (h0 : s.Stays fs s₀) (hM : [.fio] ⊆ fs) :
    Outcome.Stays (execThermalRelease n s) fs s₀ := by
  unfold execThermalRelease
  change State.Stays _ fs s₀
  repeat' first
    | with_reducible assumption | with_reducible exact List.Subset.trans (by decide) hM | intro _
    | with_reducible apply ite_stays | with_reducible apply State.cooled_stays

theorem execOvlRetry_stays (n : Nat) (s : State) (h0 : s.Stays fs s₀) (hM : [.objs, .ntm, .fio, .fresh] ⊆ fs) :
    Outcome.Stays (execOvlRetry n s) fs s₀ := by
  unfold execOvlRetry
  change State.Stays _ fs s₀
  repeat' first
    | with_reducible assumption | with_reducible exact List.Subset.trans (by decide) hM | intro _
    | with_reducible apply ite_stays | with_reducible apply State.ovlBack_stays | with_reducible apply State.reachMono_stays
    | dsimp only | split

theorem execEdgeLogRead_stays (ses : Nat) (s : State) (h0 : s.Stays fs s₀) (hM : Field.all ⊆ fs) :
    Outcome.Stays (execEdgeLogRead ses s) fs s₀ := by
  unfold execEdgeLogRead
  change State.Stays _ fs s₀
  repeat' first
    | with_reducible assumption | with_reducible exact List.Subset.trans (by decide) hM | intro _
    | with_reducible apply State.openDomain_stays

theorem execEbbTrainLaunch_stays (s : State) (h0 : s.Stays fs s₀) (hM : [.objs, .tds, .hnw, .ntm, .dma, .flt, .fresh] ⊆ fs) :
    Outcome.Stays (execEbbTrainLaunch s) fs s₀ := by
  unfold execEbbTrainLaunch
  change State.Stays _ fs s₀
  repeat' first
    | with_reducible assumption | with_reducible exact List.Subset.trans (by decide) hM | intro _
    | with_reducible apply State.ebbTrainsNow_stays

theorem execArmedSchedule_stays (s : State) (h0 : s.Stays fs s₀) (hM : [.objs, .tds, .hnw, .ntm, .dma, .flt, .fresh] ⊆ fs) :
    Outcome.Stays (execArmedSchedule s) fs s₀ := by
  unfold execArmedSchedule
  change State.Stays _ fs s₀
  repeat' first
    | with_reducible assumption | with_reducible exact List.Subset.trans (by decide) hM | intro _
    | with_reducible apply ite_stays | with_reducible apply State.schedules_stays

theorem execEbbFrameReceive_stays (fr : Rx) (body : List Sys2Proof.Byte) (s : State) (h0 : s.Stays fs s₀) (hM : [.objs, .mem, .tds, .img, .hnw, .ntm, .msgs, .red, .flt, .sta, .pmc, .fresh] ⊆ fs) :
    Outcome.Stays (execEbbFrameReceive fr body s) fs s₀ := by
  unfold execEbbFrameReceive
  change State.Stays _ fs s₀
  repeat' first
    | with_reducible assumption | with_reducible exact List.Subset.trans (by decide) hM | intro _
    | (extract_lets +onlyGivenNames u; refine cut_goal (P := State.Stays u fs s₀) ?_ fun _ => ?_; (on_goal 2 => clear_value u); (on_goal 1 => (unfold u; clear u)))
    | (extract_lets +onlyGivenNames u; clear_value u) | with_reducible apply ite_stays | with_reducible apply State.each_stays
    | with_reducible apply State.when_stays | with_reducible apply State.addOb_stays | with_reducible apply State.arrive_stays
    | with_reducible apply State.ebbSeg_stays | with_reducible apply State.ingress_stays
    | with_reducible apply State.inputCheck_stays | with_reducible apply State.ringSeen_stays

theorem execSlackFrameReceive_stays (fr : Rx) (body : List Sys2Proof.Byte) (s : State) (h0 : s.Stays fs s₀) (hM : [.objs, .hnw, .ntm, .sta, .pmc, .fresh] ⊆ fs) :
    Outcome.Stays (execSlackFrameReceive fr body s) fs s₀ := by
  unfold execSlackFrameReceive
  change State.Stays _ fs s₀
  repeat' first
    | with_reducible assumption | with_reducible exact List.Subset.trans (by decide) hM | intro _
    | (extract_lets +onlyGivenNames u; refine cut_goal (P := State.Stays u fs s₀) ?_ fun _ => ?_; (on_goal 2 => clear_value u); (on_goal 1 => (unfold u; clear u)))
    | (extract_lets +onlyGivenNames u; clear_value u) | with_reducible apply ite_stays | with_reducible apply State.each_stays
    | with_reducible apply State.when_stays | with_reducible apply State.arrive_stays | with_reducible apply State.ringSeen_stays
    | with_reducible apply State.slackSeg_stays

theorem execTransitFrame_stays (fr : Rx) (cls : Nat) (body : List Sys2Proof.Byte) (s : State) (h0 : s.Stays fs s₀) (hM : [.objs, .hnw, .ntm, .pmc, .fresh] ⊆ fs) :
    Outcome.Stays (execTransitFrame fr cls body s) fs s₀ := by
  unfold execTransitFrame
  change State.Stays _ fs s₀
  repeat' first
    | with_reducible assumption | with_reducible exact List.Subset.trans (by decide) hM | intro _
    | (extract_lets +onlyGivenNames u; refine cut_goal (P := State.Stays u fs s₀) ?_ fun _ => ?_; (on_goal 2 => clear_value u); (on_goal 1 => (unfold u; clear u)))
    | (extract_lets +onlyGivenNames u; clear_value u) | with_reducible apply ite_stays | with_reducible apply State.when_stays
    | with_reducible apply State.arrive_stays | with_reducible apply State.enqueue_stays
    | with_reducible apply State.ptpQueue_stays

theorem execEventFrame_stays (fr : Rx) (body : List Sys2Proof.Byte) (s : State) (h0 : s.Stays fs s₀) (hM : [.objs, .tds, .hnw, .ntm, .own, .pmc, .fresh] ⊆ fs) :
    Outcome.Stays (execEventFrame fr body s) fs s₀ := by
  unfold execEventFrame
  change State.Stays _ fs s₀
  repeat' first
    | with_reducible assumption | with_reducible exact List.Subset.trans (by decide) hM | intro _
    | (extract_lets +onlyGivenNames u; refine cut_goal (P := State.Stays u fs s₀) ?_ fun _ => ?_; (on_goal 2 => clear_value u); (on_goal 1 => (unfold u; clear u)))
    | (extract_lets +onlyGivenNames u; clear_value u) | with_reducible apply ite_stays | with_reducible apply State.when_stays
    | with_reducible apply State.arrive_stays | with_reducible apply State.fire_stays | with_reducible apply State.setHnw_stays
    | with_reducible apply State.setOb_stays

theorem execServiceRoute_stays (fr : Rx) (ses tag idx sub off : Nat) (data : List Sys2Proof.Byte) (s : State) (h0 : s.Stays fs s₀) (hM : [.objs, .hnw, .ntm, .pmc, .fresh] ⊆ fs) :
    Outcome.Stays (execServiceRoute fr ses tag idx sub off data s) fs s₀ := by
  unfold execServiceRoute
  change State.Stays _ fs s₀
  repeat' first
    | with_reducible assumption | with_reducible exact List.Subset.trans (by decide) hM | intro _
    | (extract_lets +onlyGivenNames u; clear_value u) | with_reducible apply ite_stays | with_reducible apply State.arrive_stays
    | with_reducible apply State.routeRequest_stays

theorem execServiceResponse_stays (fr : Rx) (rid status reason : Nat) (data : List Sys2Proof.Byte) (s : State) (h0 : s.Stays fs s₀) (hM : [.objs, .doms, .hnw, .ntm, .flt, .sta, .pmc, .fresh] ⊆ fs) :
    Outcome.Stays (execServiceResponse fr rid status reason data s) fs s₀ := by
  unfold execServiceResponse
  change State.Stays _ fs s₀
  repeat' first
    | with_reducible assumption | with_reducible exact List.Subset.trans (by decide) hM | intro _
    | with_reducible apply ite_stays | with_reducible apply State.arrive_stays | with_reducible apply State.respond_stays
    | dsimp only | split

theorem execRouteTimeout_stays (rid : Nat) (s : State) (h0 : s.Stays fs s₀) (hM : [.objs, .doms, .hnw, .flt, .sta] ⊆ fs) :
    Outcome.Stays (execRouteTimeout rid s) fs s₀ := by
  unfold execRouteTimeout
  change State.Stays _ fs s₀
  repeat' first
    | with_reducible assumption | with_reducible exact List.Subset.trans (by decide) hM | intro _
    | with_reducible apply State.unanswered_stays | dsimp only | split

theorem execRelayedServiceRequest_stays (src tag port pos ses op idx sub off : Nat) (data : List Sys2Proof.Byte) (s : State) (h0 : s.Stays fs s₀) (hM : [.hnw] ⊆ fs) :
    Outcome.Stays (execRelayedServiceRequest src tag port pos ses op idx sub off data s) fs s₀ := by
  unfold execRelayedServiceRequest
  change State.Stays _ fs s₀
  repeat' first
    | with_reducible assumption | with_reducible exact List.Subset.trans (by decide) hM | intro _
    | (extract_lets +onlyGivenNames u; clear_value u) | with_reducible apply ite_stays | with_reducible apply State.answer_stays
    | with_reducible apply State.route_stays

theorem execRelayedServiceResponse_stays (rid status reason : Nat) (data : List Sys2Proof.Byte) (s : State) (h0 : s.Stays fs s₀) (hM : [.objs, .doms, .hnw, .flt, .sta] ⊆ fs) :
    Outcome.Stays (execRelayedServiceResponse rid status reason data s) fs s₀ := by
  unfold execRelayedServiceResponse
  change State.Stays _ fs s₀
  repeat' first
    | with_reducible assumption | with_reducible exact List.Subset.trans (by decide) hM | intro _
    | with_reducible apply State.respond_stays | dsimp only | split

theorem execScanNoAnswer_stays (port : Nat) (s : State) (h0 : s.Stays fs s₀) (hM : [.hnw] ⊆ fs) :
    Outcome.Stays (execScanNoAnswer port s) fs s₀ := by
  unfold execScanNoAnswer
  change State.Stays _ fs s₀
  repeat' first
    | with_reducible assumption | with_reducible exact List.Subset.trans (by decide) hM | intro _
    | with_reducible apply State.scanEnd_stays

theorem execHnwCmdDone_stays (s : State) (h0 : s.Stays fs s₀) (hM : [.hnw] ⊆ fs) :
    Outcome.Stays (execHnwCmdDone s) fs s₀ := by
  unfold execHnwCmdDone
  change State.Stays _ fs s₀
  repeat' first
    | with_reducible assumption | with_reducible exact List.Subset.trans (by decide) hM | intro _
    | with_reducible apply State.hnwDone_stays

theorem execPositionProbe_stays (station : Nat) (s : State) (h0 : s.Stays fs s₀) (hM : [.hnw] ⊆ fs) :
    Outcome.Stays (execPositionProbe station s) fs s₀ := by
  unfold execPositionProbe
  change State.Stays _ fs s₀
  repeat' first
    | with_reducible assumption | with_reducible exact List.Subset.trans (by decide) hM | intro _
    | with_reducible apply State.probe_stays

theorem execArpRequest_stays (fr : Rx) (ip srcIp : Nat) (s : State) (h0 : s.Stays fs s₀) (hM : [.objs, .hnw, .ntm, .pmc, .fresh] ⊆ fs) :
    Outcome.Stays (execArpRequest fr ip srcIp s) fs s₀ := by
  unfold execArpRequest
  change State.Stays _ fs s₀
  repeat' first
    | with_reducible assumption | with_reducible exact List.Subset.trans (by decide) hM | intro _
    | with_reducible apply State.ipAnswer_stays

theorem execIcmpEcho_stays (fr : Rx) (ip srcIp : Nat) (data : List Sys2Proof.Byte) (s : State) (h0 : s.Stays fs s₀) (hM : [.objs, .hnw, .ntm, .pmc, .fresh] ⊆ fs) :
    Outcome.Stays (execIcmpEcho fr ip srcIp data s) fs s₀ := by
  unfold execIcmpEcho
  change State.Stays _ fs s₀
  repeat' first
    | with_reducible assumption | with_reducible exact List.Subset.trans (by decide) hM | intro _
    | with_reducible apply State.ipAnswer_stays

theorem execPortLinkChange_stays (port : Nat) (up : Bool) (reg0 reg1 : Nat) (s : State) (h0 : s.Stays fs s₀) (hM : [.hnw] ⊆ fs) :
    Outcome.Stays (execPortLinkChange port up reg0 reg1 s) fs s₀ := by
  unfold execPortLinkChange
  change State.Stays _ fs s₀
  repeat' first
    | with_reducible assumption | with_reducible exact List.Subset.trans (by decide) hM | intro _
    | with_reducible apply ite_stays | with_reducible apply State.setHnw_stays

theorem execTimeToken_stays (s : State) (h0 : s.Stays fs s₀) (hM : [.objs, .ntm, .fresh] ⊆ fs) :
    Outcome.Stays (execTimeToken s) fs s₀ := by
  unfold execTimeToken
  change State.Stays _ fs s₀
  repeat' first
    | with_reducible assumption | with_reducible exact List.Subset.trans (by decide) hM | intro _
    | with_reducible apply State.reach_stays | with_reducible apply State.sendToken_stays

theorem execNtmSet_stays (ses : Nat) (data : List Sys2Proof.Byte) (s : State) (h0 : s.Stays fs s₀) (hM : Field.all ⊆ fs) :
    Outcome.Stays (execNtmSet ses data s) fs s₀ := by
  unfold execNtmSet
  change State.Stays _ fs s₀
  repeat' first
    | with_reducible assumption | with_reducible exact List.Subset.trans (by decide) hM | intro _
    | with_reducible apply State.putDomain_stays

theorem execNtmNsecRead_stays (ses : Nat) (s : State) (h0 : s.Stays fs s₀) (hM : [.objs, .sess, .dic, .ctxs, .ntm, .mbc, .pwr, .fresh] ⊆ fs) :
    Outcome.Stays (execNtmNsecRead ses s) fs s₀ := by
  unfold execNtmNsecRead
  change State.Stays _ fs s₀
  repeat' first
    | with_reducible assumption | with_reducible exact List.Subset.trans (by decide) hM | intro _
    | with_reducible apply State.dictRead_stays

theorem execPtpReceive_stays (fr : Rx) (frame : List Sys2Proof.Byte) (s : State) (h0 : s.Stays fs s₀) (hM : [.objs, .ntm, .pmc, .fresh] ⊆ fs) :
    Outcome.Stays (execPtpReceive fr frame s) fs s₀ := by
  unfold execPtpReceive
  change State.Stays _ fs s₀
  repeat' first
    | with_reducible assumption | with_reducible exact List.Subset.trans (by decide) hM | intro _
    | with_reducible apply ite_stays | with_reducible apply State.arrive_stays | with_reducible apply State.ptpQueue_stays

theorem execPtpRxRead_stays (ses : Nat) (s : State) (h0 : s.Stays fs s₀) (hM : Field.all ⊆ fs) :
    Outcome.Stays (execPtpRxRead ses s) fs s₀ := by
  unfold execPtpRxRead
  change State.Stays _ fs s₀
  repeat' first
    | with_reducible assumption | with_reducible exact List.Subset.trans (by decide) hM | intro _
    | with_reducible apply State.openDomain_stays

theorem execPtpTxSubmit_stays (ses : Nat) (data : List Sys2Proof.Byte) (s : State) (h0 : s.Stays fs s₀) (hM : Field.all ⊆ fs) :
    Outcome.Stays (execPtpTxSubmit ses data s) fs s₀ := by
  unfold execPtpTxSubmit
  change State.Stays _ fs s₀
  repeat' first
    | with_reducible assumption | with_reducible exact List.Subset.trans (by decide) hM | intro _
    | with_reducible apply State.putDomain_stays

theorem execTxStampRead_stays (ses : Nat) (s : State) (h0 : s.Stays fs s₀) (hM : Field.all ⊆ fs) :
    Outcome.Stays (execTxStampRead ses s) fs s₀ := by
  unfold execTxStampRead
  change State.Stays _ fs s₀
  repeat' first
    | with_reducible assumption | with_reducible exact List.Subset.trans (by decide) hM | intro _
    | with_reducible apply State.openDomain_stays

theorem execFrameLaunch_stays (port : Nat) (s : State) (h0 : s.Stays fs s₀) (hM : [.objs, .mem, .tds, .img, .hnw, .ntm, .red, .dma, .flt, .pmc, .fresh] ⊆ fs) :
    Outcome.Stays (execFrameLaunch port s) fs s₀ := by
  unfold execFrameLaunch
  change State.Stays _ fs s₀
  repeat' first
    | with_reducible assumption | with_reducible exact List.Subset.trans (by decide) hM | intro _
    | with_reducible apply ite_stays | with_reducible apply State.launchNext_stays | with_reducible apply State.swapGive_stays

theorem execLaunchMiss_stays (port : Nat) (s : State) (h0 : s.Stays fs s₀) (hM : [.objs, .hnw, .ntm, .fresh] ⊆ fs) :
    Outcome.Stays (execLaunchMiss port s) fs s₀ := by
  unfold execLaunchMiss
  change State.Stays _ fs s₀
  repeat' first
    | with_reducible assumption | with_reducible exact List.Subset.trans (by decide) hM | intro _
    | with_reducible apply ite_stays | with_reducible apply State.launchMiss_stays

theorem execGateChange_stays (port : Nat) (s : State) (h0 : s.Stays fs s₀) (hM : [.objs, .ntm, .fresh] ⊆ fs) :
    Outcome.Stays (execGateChange port s) fs s₀ := by
  unfold execGateChange
  change State.Stays _ fs s₀
  repeat' first
    | with_reducible assumption | with_reducible exact List.Subset.trans (by decide) hM | intro _
    | with_reducible apply ite_stays | with_reducible apply State.gateChange_stays

theorem execPdDrained_stays (d : Nat) (s : State) (h0 : s.Stays fs s₀) (hM : [.objs, .doms, .mem, .ecc, .ctxs, .cores, .retAt, .olc, .hnw, .role, .pair, .grant, .link, .sent, .msgs, .own, .repl, .wit, .red, .fio, .mbc, .dma, .bdr, .wdg, .pwr] ⊆ fs) :
    Outcome.Stays (execPdDrained d s) fs s₀ := by
  unfold execPdDrained
  change State.Stays _ fs s₀
  repeat' first
    | with_reducible assumption | with_reducible exact List.Subset.trans (by decide) hM | intro _
    | with_reducible apply State.pdDrained_stays

theorem execPdDrainTimeout_stays (d : Nat) (s : State) (h0 : s.Stays fs s₀) (hM : [.objs, .ntm, .dma, .pwr, .fresh] ⊆ fs) :
    Outcome.Stays (execPdDrainTimeout d s) fs s₀ := by
  unfold execPdDrainTimeout
  change State.Stays _ fs s₀
  repeat' first
    | with_reducible assumption | with_reducible exact List.Subset.trans (by decide) hM | intro _
    | with_reducible apply State.pdTimeout_stays

theorem execDomainOffDone_stays (d : Nat) (s : State) (h0 : s.Stays fs s₀) (hM : [.objs, .ntm, .pwr, .fresh] ⊆ fs) :
    Outcome.Stays (execDomainOffDone d s) fs s₀ := by
  unfold execDomainOffDone
  change State.Stays _ fs s₀
  repeat' first
    | with_reducible assumption | with_reducible exact List.Subset.trans (by decide) hM | intro _
    | with_reducible apply State.domOff_stays

theorem execDomainOnDone_stays (d : Nat) (s : State) (h0 : s.Stays fs s₀) (hM : [.objs, .ntm, .fio, .pwr, .fresh] ⊆ fs) :
    Outcome.Stays (execDomainOnDone d s) fs s₀ := by
  unfold execDomainOnDone
  change State.Stays _ fs s₀
  repeat' first
    | with_reducible assumption | with_reducible exact List.Subset.trans (by decide) hM | intro _
    | with_reducible apply State.domOnDone_stays

theorem execPowerOn_stays (s : State) (h0 : s.Stays fs s₀) (hM : Field.all ⊆ fs) :
    Outcome.Stays (execPowerOn s) fs s₀ := by
  unfold execPowerOn
  change State.Stays _ fs s₀
  repeat' first
    | with_reducible assumption | with_reducible exact List.Subset.trans (by decide) hM | intro _
    | with_reducible apply State.powerUpAO_stays

theorem execResetPin_stays (porst : Bool) (s : State) (h0 : s.Stays fs s₀) (hM : Field.all ⊆ fs) :
    Outcome.Stays (execResetPin porst s) fs s₀ := by
  unfold execResetPin
  change State.Stays _ fs s₀
  repeat' first
    | with_reducible assumption | with_reducible exact List.Subset.trans (by decide) hM | intro _
    | (extract_lets +onlyGivenNames u; refine cut_goal (P := State.Stays u fs s₀) ?_ fun _ => ?_; (on_goal 2 => clear_value u); (on_goal 1 => (unfold u; clear u)))
    | (extract_lets +onlyGivenNames u; clear_value u) | with_reducible apply ite_stays | with_reducible apply State.when_stays
    | with_reducible apply State.packageReset_stays | with_reducible apply State.powerUpAO_stays

theorem execDebugReset_stays (s : State) (h0 : s.Stays fs s₀) (hM : Field.all ⊆ fs) :
    Outcome.Stays (execDebugReset s) fs s₀ := by
  unfold execDebugReset
  change State.Stays _ fs s₀
  repeat' first
    | with_reducible assumption | with_reducible exact List.Subset.trans (by decide) hM | intro _
    | with_reducible apply ite_stays | with_reducible apply State.packageReset_stays

theorem execBrownout_stays (rail : Nat) (s : State) (h0 : s.Stays fs s₀) (hM : Field.all ⊆ fs) :
    Outcome.Stays (execBrownout rail s) fs s₀ := by
  unfold execBrownout
  change State.Stays _ fs s₀
  repeat' first
    | with_reducible assumption | with_reducible exact List.Subset.trans (by decide) hM | intro _
    | with_reducible apply ite_stays | with_reducible apply State.packageReset_stays | with_reducible apply State.powerUpAO_stays
    | with_reducible apply State.setPwr_stays

theorem execRefclkLoss_stays (s : State) (h0 : s.Stays fs s₀) (hM : [.objs, .pwr] ⊆ fs) :
    Outcome.Stays (execRefclkLoss s) fs s₀ := by
  unfold execRefclkLoss
  change State.Stays _ fs s₀
  repeat' first
    | with_reducible assumption | with_reducible exact List.Subset.trans (by decide) hM | intro _
    | with_reducible apply ite_stays | with_reducible apply State.incOb_stays | with_reducible apply State.setPwr_stays

theorem execRefclkRestored_stays (s : State) (h0 : s.Stays fs s₀) (hM : [.pwr] ⊆ fs) :
    Outcome.Stays (execRefclkRestored s) fs s₀ := by
  unfold execRefclkRestored
  change State.Stays _ fs s₀
  repeat' first
    | with_reducible assumption | with_reducible exact List.Subset.trans (by decide) hM | intro _
    | with_reducible apply State.setPwr_stays

theorem execSdclkLoss_stays (s : State) (h0 : s.Stays fs s₀) (hM : [.hnw, .link, .flt, .pwr] ⊆ fs) :
    Outcome.Stays (execSdclkLoss s) fs s₀ := by
  unfold execSdclkLoss
  change State.Stays _ fs s₀
  repeat' first
    | with_reducible assumption | with_reducible exact List.Subset.trans (by decide) hM | intro _
    | (extract_lets +onlyGivenNames u; refine cut_goal (P := State.Stays u fs s₀) ?_ fun _ => ?_; (on_goal 2 => clear_value u); (on_goal 1 => (unfold u; clear u)))
    | (extract_lets +onlyGivenNames u; clear_value u) | with_reducible apply ite_stays
    | with_reducible apply State.mooringDown_stays | with_reducible apply State.setHnw_stays
    | with_reducible apply State.setPwr_stays

theorem execSdclkRestored_stays (s : State) (h0 : s.Stays fs s₀) (hM : [.pwr] ⊆ fs) :
    Outcome.Stays (execSdclkRestored s) fs s₀ := by
  unfold execSdclkRestored
  change State.Stays _ fs s₀
  repeat' first
    | with_reducible assumption | with_reducible exact List.Subset.trans (by decide) hM | intro _
    | with_reducible apply State.setPwr_stays

theorem execServiceOpen_stays (fr : Rx) (tag : Nat) (s : State) (h0 : s.Stays fs s₀) (hM : [.objs, .sess, .hnw, .ntm, .pmc, .fresh] ⊆ fs) :
    Outcome.Stays (execServiceOpen fr tag s) fs s₀ := by
  unfold execServiceOpen
  change State.Stays _ fs s₀
  repeat' first
    | with_reducible assumption | with_reducible exact List.Subset.trans (by decide) hM | intro _
    | with_reducible apply State.svcOpen_stays | with_reducible apply State.svcRequest_stays

theorem execServiceClose_stays (fr : Rx) (ses tag : Nat) (s : State) (h0 : s.Stays fs s₀) (hM : [.objs, .sess, .dic, .hnw, .ntm, .bdr, .pmc, .fresh] ⊆ fs) :
    Outcome.Stays (execServiceClose fr ses tag s) fs s₀ := by
  unfold execServiceClose
  change State.Stays _ fs s₀
  repeat' first
    | with_reducible assumption | with_reducible exact List.Subset.trans (by decide) hM | intro _
    | with_reducible apply State.modSes_stays | with_reducible apply State.sesClose_stays
    | with_reducible apply State.svcEnter_stays | with_reducible apply State.svcRequest_stays
    | with_reducible apply State.svcSend_stays

theorem execServiceRead_stays (fr : Rx) (ses tag idx sub : Nat) (s : State) (h0 : s.Stays fs s₀) (hM : [.objs, .sess, .dic, .ctxs, .hnw, .ntm, .mbc, .pmc, .pwr, .fresh] ⊆ fs) :
    Outcome.Stays (execServiceRead fr ses tag idx sub s) fs s₀ := by
  unfold execServiceRead
  change State.Stays _ fs s₀
  repeat' first
    | with_reducible assumption | with_reducible exact List.Subset.trans (by decide) hM | intro _
    | (extract_lets +onlyGivenNames u; clear_value u) | with_reducible apply State.dictRead_stays
    | with_reducible apply State.svcAnswer_stays | with_reducible apply State.svcEnter_stays
    | with_reducible apply State.svcRequest_stays

theorem execServiceWrite_stays (fr : Rx) (ses tag idx sub v : Nat) (s : State) (h0 : s.Stays fs s₀) (hM : Field.all ⊆ fs) :
    Outcome.Stays (execServiceWrite fr ses tag idx sub v s) fs s₀ := by
  unfold execServiceWrite
  change State.Stays _ fs s₀
  repeat' first
    | with_reducible assumption | with_reducible exact List.Subset.trans (by decide) hM | intro _
    | with_reducible apply State.dictWrite_stays | with_reducible apply State.svcAnswer_stays
    | with_reducible apply State.svcEnter_stays | with_reducible apply State.svcRequest_stays

theorem execServiceDomRead_stays (fr : Rx) (ses tag off len : Nat) (s : State) (h0 : s.Stays fs s₀) (hM : [.objs, .sess, .hnw, .ntm, .pmc, .fresh] ⊆ fs) :
    Outcome.Stays (execServiceDomRead fr ses tag off len s) fs s₀ := by
  unfold execServiceDomRead
  change State.Stays _ fs s₀
  repeat' first
    | with_reducible assumption | with_reducible exact List.Subset.trans (by decide) hM | intro _
    | (extract_lets +onlyGivenNames u; refine cut_goal (P := State.Stays u fs s₀) ?_ fun _ => ?_; (on_goal 2 => clear_value u); (on_goal 1 => (unfold u; clear u)))
    | (extract_lets +onlyGivenNames u; clear_value u) | with_reducible apply ite_stays | with_reducible apply State.modSes_stays
    | with_reducible apply State.setResult_stays | with_reducible apply State.svcEnter_stays
    | with_reducible apply State.svcRequest_stays | with_reducible apply State.svcSend_stays

theorem execServiceDomWrite_stays (fr : Rx) (ses tag off : Nat) (data : List Sys2Proof.Byte) (s : State) (h0 : s.Stays fs s₀) (hM : [.objs, .mem, .sess, .hnw, .ntm, .pmc, .fresh] ⊆ fs) :
    Outcome.Stays (execServiceDomWrite fr ses tag off data s) fs s₀ := by
  unfold execServiceDomWrite
  change State.Stays _ fs s₀
  repeat' first
    | with_reducible assumption | with_reducible exact List.Subset.trans (by decide) hM | intro _
    | (extract_lets +onlyGivenNames u; refine cut_goal (P := State.Stays u fs s₀) ?_ fun _ => ?_; (on_goal 2 => clear_value u); (on_goal 1 => (unfold u; clear u)))
    | (extract_lets +onlyGivenNames u; clear_value u) | with_reducible apply ite_stays | with_reducible apply State.modSes_stays
    | with_reducible apply State.setResult_stays | with_reducible apply State.svcEnter_stays
    | with_reducible apply State.svcRequest_stays | with_reducible apply State.svcSend_stays
    | with_reducible apply State.xferPut_stays

theorem execMooringStatusSend_stays (s : State) (h0 : s.Stays fs s₀) (hM : [.sent, .msgs, .repl, .red] ⊆ fs) :
    Outcome.Stays (execMooringStatusSend s) fs s₀ := by
  unfold execMooringStatusSend
  change State.Stays _ fs s₀
  repeat' first
    | with_reducible assumption | with_reducible exact List.Subset.trans (by decide) hM | intro _
    | with_reducible apply ite_stays
    | with_reducible refine State.setRed_stays _ ?_ (by refine ⟨?_, ?_, ?_, ?_, ?_, ?_, ?_, ?_, ?_⟩ <;> first | exact .inr rfl | exact .inl (Field.mem_of hM (by decide))) rfl

theorem execMooringStatusReceive_stays (link : Nat) (m : Status) (s : State) (h0 : s.Stays fs s₀) (hM : [.objs, .mem, .sess, .ctxs, .cores, .tds, .tasks, .img, .olc, .str, .hnw, .ntm, .role, .grant, .link, .sent, .msgs, .own, .red, .fio, .mbc, .dma, .bdr, .flt, .sta, .fresh] ⊆ fs) :
    Outcome.Stays (execMooringStatusReceive link m s) fs s₀ := by
  unfold execMooringStatusReceive
  change State.Stays _ fs s₀
  repeat' first
    | with_reducible assumption | with_reducible exact List.Subset.trans (by decide) hM | intro _
    | with_reducible apply ite_stays | with_reducible apply State.maybeResync_stays | with_reducible apply State.mooringUp_stays
    | with_reducible apply State.startPair_stays | with_reducible apply State.statusReceive_stays

theorem execPeerAbsent_stays (s : State) (h0 : s.Stays fs s₀) (hM : [.objs, .mem, .sess, .ctxs, .cores, .tds, .tasks, .img, .olc, .str, .hnw, .ntm, .role, .grant, .sent, .own, .red, .fio, .mbc, .dma, .bdr, .flt, .sta, .fresh] ⊆ fs) :
    Outcome.Stays (execPeerAbsent s) fs s₀ := by
  unfold execPeerAbsent
  change State.Stays _ fs s₀
  repeat' first
    | with_reducible assumption | with_reducible exact List.Subset.trans (by decide) hM | intro _
    | with_reducible apply ite_stays | with_reducible apply State.peerAbsent_stays | with_reducible apply State.startPair_stays

theorem execMooringLinkDown_stays (link : Nat) (s : State) (h0 : s.Stays fs s₀) (hM : [.link, .flt] ⊆ fs) :
    Outcome.Stays (execMooringLinkDown link s) fs s₀ := by
  unfold execMooringLinkDown
  change State.Stays _ fs s₀
  repeat' first
    | with_reducible assumption | with_reducible exact List.Subset.trans (by decide) hM | intro _
    | with_reducible apply ite_stays | with_reducible apply State.mooringDown_stays

theorem execMooringRetrain_stays (link lanes : Nat) (s : State) (h0 : s.Stays fs s₀) (hM : [.link] ⊆ fs) :
    Outcome.Stays (execMooringRetrain link lanes s) fs s₀ := by
  unfold execMooringRetrain
  change State.Stays _ fs s₀
  repeat' first
    | with_reducible assumption | with_reducible exact List.Subset.trans (by decide) hM | intro _
    | with_reducible apply ite_stays | with_reducible apply State.mooringTrained_stays

theorem execDigestReceive_stays (tide image : Nat) (parts : List Nat) (s : State) (h0 : s.Stays fs s₀) (hM : [.objs, .msgs, .red] ⊆ fs) :
    Outcome.Stays (execDigestReceive tide image parts s) fs s₀ := by
  unfold execDigestReceive
  change State.Stays _ fs s₀
  repeat' first
    | with_reducible assumption | with_reducible exact List.Subset.trans (by decide) hM | intro _
    | with_reducible apply ite_stays | with_reducible apply State.digestReceive_stays

theorem execPartitionReceive_stays (tide part : Nat) (data : List Sys2Proof.Byte) (s : State) (h0 : s.Stays fs s₀) (hM : [.mem, .img, .msgs, .red] ⊆ fs) :
    Outcome.Stays (execPartitionReceive tide part data s) fs s₀ := by
  unfold execPartitionReceive
  change State.Stays _ fs s₀
  repeat' first
    | with_reducible assumption | with_reducible exact List.Subset.trans (by decide) hM | intro _
    | with_reducible apply ite_stays | with_reducible apply State.partReceive_stays

theorem execAgreedReceive_stays (tide : Nat) (s : State) (h0 : s.Stays fs s₀) (hM : [.tds] ⊆ fs) :
    Outcome.Stays (execAgreedReceive tide s) fs s₀ := by
  unfold execAgreedReceive
  change State.Stays _ fs s₀
  repeat' first
    | with_reducible assumption | with_reducible exact List.Subset.trans (by decide) hM | intro _
    | with_reducible apply ite_stays | with_reducible apply State.setTds_stays

theorem execDictationReceive_stays (d : Dict) (s : State) (h0 : s.Stays fs s₀) (hM : [.objs, .doms, .mem, .ecc, .sess, .ctxs, .cores, .tds, .tasks, .img, .olc, .str, .sent, .own, .fio, .mbc, .bdr, .flt, .sta, .fresh] ⊆ fs) :
    Outcome.Stays (execDictationReceive d s) fs s₀ := by
  unfold execDictationReceive
  change State.Stays _ fs s₀
  repeat' first
    | with_reducible assumption | with_reducible exact List.Subset.trans (by decide) hM | intro _
    | with_reducible apply ite_stays | with_reducible apply State.settleEdges_stays
    | with_reducible apply State.takeDictated_stays

theorem execReplicatedWriteReceive_stays (m : Repl) (s : State) (h0 : s.Stays fs s₀) (hM : Field.all ⊆ fs) :
    Outcome.Stays (execReplicatedWriteReceive m s) fs s₀ := by
  unfold execReplicatedWriteReceive
  change State.Stays _ fs s₀
  repeat' first
    | with_reducible assumption | with_reducible exact List.Subset.trans (by decide) hM | intro _
    | with_reducible apply ite_stays | with_reducible apply State.replApply_stays
    | with_reducible refine State.setRed_stays _ ?_ (by refine ⟨?_, ?_, ?_, ?_, ?_, ?_, ?_, ?_, ?_⟩ <;> first | exact .inr rfl | exact .inl (Field.mem_of hM (by decide))) rfl

theorem execOutputDigestReceive_stays (tide image : Nat) (parts : List Nat) (s : State) (h0 : s.Stays fs s₀) (hM : [.objs, .doms, .role, .red, .flt] ⊆ fs) :
    Outcome.Stays (execOutputDigestReceive tide image parts s) fs s₀ := by
  unfold execOutputDigestReceive
  change State.Stays _ fs s₀
  repeat' first
    | with_reducible assumption | with_reducible exact List.Subset.trans (by decide) hM | intro _
    | with_reducible apply ite_stays | with_reducible apply State.outDigestReceive_stays

theorem execGrantPairChange_stays (grant grantN : Bool) (s : State) (h0 : s.Stays fs s₀) (hM : [.objs, .mem, .sess, .ctxs, .cores, .tds, .tasks, .img, .olc, .str, .hnw, .ntm, .role, .pair, .grant, .sent, .own, .red, .fio, .mbc, .dma, .bdr, .flt, .sta, .fresh] ⊆ fs) :
    Outcome.Stays (execGrantPairChange grant grantN s) fs s₀ := by
  unfold execGrantPairChange
  change State.Stays _ fs s₀
  repeat' first
    | with_reducible assumption | with_reducible exact List.Subset.trans (by decide) hM | intro _
    | with_reducible apply State.pairAccept_stays | with_reducible apply State.startPair_stays

theorem execWitnessStart_stays (s : State) (h0 : s.Stays fs s₀) (hM : [.objs, .wit] ⊆ fs) :
    Outcome.Stays (execWitnessStart s) fs s₀ := by
  unfold execWitnessStart
  change State.Stays _ fs s₀
  repeat' first
    | with_reducible assumption | with_reducible exact List.Subset.trans (by decide) hM | intro _
    | with_reducible apply State.witStart_stays

/-- A change of the Lighthouse that leaves what it drives. -/
theorem State.setWit_stays_pairs (s : State) (f : Wit → Wit) (h : s.Stays fs s₀) (ha : (f s.red.wit).pairA = s.red.wit.pairA)
    (hb : (f s.red.wit).pairB = s.red.wit.pairB) (hM : [.wit] ⊆ fs) : State.Stays (s.setWit f) fs s₀ where
  same g := (h.same g).elim .inl fun hg => by cases g <;> first | exact .inl (hM (by decide)) | exact .inr hg
  canonical := h.canonical
  drives hd := by
    change ¬ ((f s.red.wit).pairA = .valid ∧ (f s.red.wit).pairB = .valid)
    rw [ha, hb]
    exact h.drives hd

theorem execWitnessHbTimeout_stays (p : Nat) (s : State) (h0 : s.Stays fs s₀) (hM : [.objs, .wit] ⊆ fs) :
    Outcome.Stays (execWitnessHbTimeout p s) fs s₀ := by
  unfold execWitnessHbTimeout
  exact ite_stays (State.witEval_stays _ (State.setWit_stays_pairs _ _ h0 rfl rfl (Field.within hM (by decide))) hM) h0

theorem execWitnessHbReturn_stays (p : Nat) (s : State) (h0 : s.Stays fs s₀) (hM : [.objs, .wit] ⊆ fs) :
    Outcome.Stays (execWitnessHbReturn p s) fs s₀ := by
  unfold execWitnessHbReturn
  exact ite_stays (State.witEval_stays _ (State.setWit_stays_pairs _ _ h0 rfl rfl (Field.within hM (by decide))) hM) h0

theorem execWitnessClaimAccept_stays (p : Nat) (level : Bool) (s : State) (h0 : s.Stays fs s₀) (hM : [.objs, .wit] ⊆ fs) :
    Outcome.Stays (execWitnessClaimAccept p level s) fs s₀ := by
  unfold execWitnessClaimAccept
  exact ite_stays (State.witEval_stays _ (State.setWit_stays_pairs _ _ h0 rfl rfl (Field.within hM (by decide))) hM) h0

theorem execWitnessGrantDrive_stays (s : State) (h0 : s.Stays fs s₀) (hM : [.wit] ⊆ fs) :
    Outcome.Stays (execWitnessGrantDrive s) fs s₀ := by
  unfold execWitnessGrantDrive
  change State.Stays _ fs s₀
  repeat' first
    | with_reducible assumption | with_reducible exact List.Subset.trans (by decide) hM | intro _
    | with_reducible apply ite_stays | with_reducible apply State.witDrive_stays

theorem execWitnessFault_stays (s : State) (h0 : s.Stays fs s₀) (hM : [.wit, .flt] ⊆ fs) :
    Outcome.Stays (execWitnessFault s) fs s₀ := by
  unfold execWitnessFault
  change State.Stays _ fs s₀
  repeat' first
    | with_reducible assumption | with_reducible exact List.Subset.trans (by decide) hM | intro _
    | with_reducible apply State.witFault_stays

theorem execResyncPassEnd_stays (left : Nat) (s : State) (h0 : s.Stays fs s₀) (hM : [.role, .msgs, .red] ⊆ fs) :
    Outcome.Stays (execResyncPassEnd left s) fs s₀ := by
  unfold execResyncPassEnd
  change State.Stays _ fs s₀
  repeat' first
    | with_reducible assumption | with_reducible exact List.Subset.trans (by decide) hM | intro _
    | with_reducible apply ite_stays | with_reducible apply State.passEnd_stays

theorem execResyncDataReceive_stays (x : Resync) (s : State) (h0 : s.Stays fs s₀) (hM : [.objs, .doms, .mem, .owners, .ctxs, .tds, .tasks, .img, .olc, .str, .role, .red, .bdr, .flt, .fresh] ⊆ fs) :
    Outcome.Stays (execResyncDataReceive x s) fs s₀ := by
  unfold execResyncDataReceive
  change State.Stays _ fs s₀
  repeat' first
    | with_reducible assumption | with_reducible exact List.Subset.trans (by decide) hM | intro _
    | with_reducible apply ite_stays | with_reducible apply State.resyncData_stays

theorem execSwapTokenReceive_stays (tide : Nat) (s : State) (h0 : s.Stays fs s₀) (hM : [.red] ⊆ fs) :
    Outcome.Stays (execSwapTokenReceive tide s) fs s₀ := by
  unfold execSwapTokenReceive
  change State.Stays _ fs s₀
  repeat' first
    | with_reducible assumption | with_reducible exact List.Subset.trans (by decide) hM | intro _
    | with_reducible apply ite_stays | with_reducible apply State.swapToken_stays

theorem execSwitchoverDecide_stays (s : State) (h0 : s.Stays fs s₀) (hM : [.objs, .ntm, .role, .red, .fresh] ⊆ fs) :
    Outcome.Stays (execSwitchoverDecide s) fs s₀ := by
  unfold execSwitchoverDecide
  change State.Stays _ fs s₀
  repeat' first
    | with_reducible assumption | with_reducible exact List.Subset.trans (by decide) hM | intro _
    | with_reducible apply ite_stays | with_reducible apply State.reach_stays | with_reducible apply State.switchoverDecide_stays

theorem execDrillTimer_stays (s : State) (h0 : s.Stays fs s₀) (hM : [.objs, .ntm, .msgs, .red, .fresh] ⊆ fs) :
    Outcome.Stays (execDrillTimer s) fs s₀ := by
  unfold execDrillTimer
  change State.Stays _ fs s₀
  repeat' first
    | with_reducible assumption | with_reducible exact List.Subset.trans (by decide) hM | intro _
    | with_reducible apply ite_stays | with_reducible apply State.drillDue_stays

theorem execReturnHoldoffExpiry_stays (s : State) (h0 : s.Stays fs s₀) (hM : [.objs, .ntm, .msgs, .red, .fresh] ⊆ fs) :
    Outcome.Stays (execReturnHoldoffExpiry s) fs s₀ := by
  unfold execReturnHoldoffExpiry
  change State.Stays _ fs s₀
  repeat' first
    | with_reducible assumption | with_reducible exact List.Subset.trans (by decide) hM | intro _
    | with_reducible apply ite_stays | with_reducible apply State.holdoffEnd_stays

theorem execRebaseDone_stays (strand : Nat) (s : State) (h0 : s.Stays fs s₀) (hM : [.objs, .mem, .tds, .ntm, .fresh] ⊆ fs) :
    Outcome.Stays (execRebaseDone strand s) fs s₀ := by
  unfold execRebaseDone
  change State.Stays _ fs s₀
  repeat' first
    | with_reducible assumption | with_reducible exact List.Subset.trans (by decide) hM | intro _
    | with_reducible apply State.rebaseEnd_stays

theorem execEbbPoint_stays (s : State) (h0 : s.Stays fs s₀) (hM : Field.all ⊆ fs) :
    Outcome.Stays (execEbbPoint s) fs s₀ := by
  unfold execEbbPoint
  change State.Stays _ fs s₀
  repeat' first
    | with_reducible assumption | with_reducible exact List.Subset.trans (by decide) hM | intro _
    | with_reducible apply State.ebbPoint_stays | with_reducible apply State.txnSettle_stays

theorem execInDeadline_stays (s : State) (h0 : s.Stays fs s₀) (hM : [.objs, .mem, .tds, .img, .hnw, .ntm, .msgs, .red, .flt, .sta, .fresh] ⊆ fs) :
    Outcome.Stays (execInDeadline s) fs s₀ := by
  unfold execInDeadline
  change State.Stays _ fs s₀
  repeat' first
    | with_reducible assumption | with_reducible exact List.Subset.trans (by decide) hM | intro _
    | with_reducible apply State.inDeadline_stays

theorem execFloodStart_stays (s : State) (h0 : s.Stays fs s₀) (hM : Field.all ⊆ fs) :
    Outcome.Stays (execFloodStart s) fs s₀ := by
  unfold execFloodStart
  change State.Stays _ fs s₀
  repeat' first
    | with_reducible assumption | with_reducible exact List.Subset.trans (by decide) hM | intro _
    | with_reducible apply State.floodStart_stays | with_reducible apply State.txnSettle_stays

theorem execFloodLatestReached_stays (s : State) (h0 : s.Stays fs s₀) (hM : Field.all ⊆ fs) :
    Outcome.Stays (execFloodLatestReached s) fs s₀ := by
  unfold execFloodLatestReached
  change State.Stays _ fs s₀
  repeat' first
    | with_reducible assumption | with_reducible exact List.Subset.trans (by decide) hM | intro _
    | with_reducible apply State.floodLatest_stays | with_reducible apply State.txnSettle_stays

theorem execTrigger_stays (s : State) (h0 : s.Stays fs s₀) (hM : [.objs, .mem, .ecc, .sess, .ctxs, .cores, .tds, .tasks, .img, .olc, .str, .sent, .bdr, .flt, .sta, .fresh] ⊆ fs) :
    Outcome.Stays (execTrigger s) fs s₀ := by
  unfold execTrigger
  change State.Stays _ fs s₀
  repeat' first
    | with_reducible assumption | with_reducible exact List.Subset.trans (by decide) hM | intro _
    | with_reducible apply State.triggerNext_stays

theorem execCopyInDone_stays (t sec : Nat) (s : State) (h0 : s.Stays fs s₀) (hM : Field.all ⊆ fs) :
    Outcome.Stays (execCopyInDone t sec s) fs s₀ := by
  unfold execCopyInDone
  change State.Stays _ fs s₀
  repeat' first
    | with_reducible assumption | with_reducible exact List.Subset.trans (by decide) hM | intro _
    | with_reducible apply State.copyInDone_stays | with_reducible apply State.txnSettle_stays

theorem execCompletionFlag_stays (t sec : Nat) (s : State) (h0 : s.Stays fs s₀) (hM : [.objs, .mem, .ctxs, .tds, .tasks, .img, .str, .bdr, .flt, .fresh] ⊆ fs) :
    Outcome.Stays (execCompletionFlag t sec s) fs s₀ := by
  unfold execCompletionFlag
  change State.Stays _ fs s₀
  repeat' first
    | with_reducible assumption | with_reducible exact List.Subset.trans (by decide) hM | intro _
    | with_reducible apply ite_stays | with_reducible apply State.setFlag_stays

theorem execPublish_stays (t : Nat) (s : State) (h0 : s.Stays fs s₀) (hM : Field.all ⊆ fs) :
    Outcome.Stays (execPublish t s) fs s₀ := by
  unfold execPublish
  change State.Stays _ fs s₀
  repeat' first
    | with_reducible assumption | with_reducible exact List.Subset.trans (by decide) hM | intro _
    | with_reducible apply State.publishNow_stays | with_reducible apply State.settleEdges_stays
    | with_reducible apply State.txnSettle_stays

theorem execKeventsRead_stays (ses : Nat) (s : State) (h0 : s.Stays fs s₀) (hM : [.objs, .sess, .dic, .ctxs, .ntm, .mbc, .pwr, .fresh] ⊆ fs) :
    Outcome.Stays (execKeventsRead ses s) fs s₀ := by
  unfold execKeventsRead
  change State.Stays _ fs s₀
  repeat' first
    | with_reducible assumption | with_reducible exact List.Subset.trans (by decide) hM | intro _
    | with_reducible apply State.dictRead_stays

theorem execCut_stays (s : State) (h0 : s.Stays fs s₀) (hM : [.objs, .mem, .tds, .img, .olc, .ntm, .msgs, .fio, .dma, .flt, .fresh] ⊆ fs) :
    Outcome.Stays (execCut s) fs s₀ := by
  unfold execCut
  change State.Stays _ fs s₀
  repeat' first
    | with_reducible assumption | with_reducible exact List.Subset.trans (by decide) hM | intro _
    | with_reducible apply State.cut_stays

theorem execCutCopyEnd_stays (s : State) (h0 : s.Stays fs s₀) (hM : Field.all ⊆ fs) :
    Outcome.Stays (execCutCopyEnd s) fs s₀ := by
  unfold execCutCopyEnd
  change State.Stays _ fs s₀
  repeat' first
    | with_reducible assumption | with_reducible exact List.Subset.trans (by decide) hM | intro _
    | with_reducible apply State.cutCopyEnd_stays | with_reducible apply State.txnSettle_stays

theorem execTransmitWindowClose_stays (s : State) (h0 : s.Stays fs s₀) (hM : Field.all ⊆ fs) :
    Outcome.Stays (execTransmitWindowClose s) fs s₀ := by
  unfold execTransmitWindowClose
  change State.Stays _ fs s₀
  repeat' first
    | with_reducible assumption | with_reducible exact List.Subset.trans (by decide) hM | intro _
    | with_reducible apply State.txnSettle_stays | with_reducible apply State.windowClose_stays

theorem execLaunch_stays (s : State) (h0 : s.Stays fs s₀) (hM : [.objs, .tds, .hnw, .ntm, .dma, .flt, .fresh] ⊆ fs) :
    Outcome.Stays (execLaunch s) fs s₀ := by
  unfold execLaunch
  change State.Stays _ fs s₀
  repeat' first
    | with_reducible assumption | with_reducible exact List.Subset.trans (by decide) hM | intro _
    | with_reducible apply State.launch_stays

theorem execSlackPoint_stays (s : State) (h0 : s.Stays fs s₀) (hM : Field.all ⊆ fs) :
    Outcome.Stays (execSlackPoint s) fs s₀ := by
  unfold execSlackPoint
  change State.Stays _ fs s₀
  repeat' first
    | with_reducible assumption | with_reducible exact List.Subset.trans (by decide) hM | intro _
    | with_reducible apply State.slackPoint_stays

theorem execSlackWindowEnd_stays (s : State) (h0 : s.Stays fs s₀) (hM : [.objs, .mem, .ecc, .sess, .ctxs, .cores, .tds, .tasks, .img, .olc, .str, .ntm, .sent, .msgs, .red, .dma, .bdr, .flt, .sta, .fresh] ⊆ fs) :
    Outcome.Stays (execSlackWindowEnd s) fs s₀ := by
  unfold execSlackWindowEnd
  change State.Stays _ fs s₀
  repeat' first
    | with_reducible assumption | with_reducible exact List.Subset.trans (by decide) hM | intro _
    | with_reducible apply State.slackEnd_stays

theorem execRetBlockSave_stays (strand block : Nat) (s : State) (h0 : s.Stays fs s₀) (hM : [.objs, .mem, .retAt, .retNext, .bdr] ⊆ fs) :
    Outcome.Stays (execRetBlockSave strand block s) fs s₀ := by
  unfold execRetBlockSave
  change State.Stays _ fs s₀
  repeat' first
    | with_reducible assumption | with_reducible exact List.Subset.trans (by decide) hM | intro _
    | with_reducible apply State.retSave_stays

theorem execBld_stays (c : Nat) (e : Enc) (s : State) (h0 : s.Stays fs s₀) (hM : Field.all ⊆ fs) :
    Outcome.Stays (execBld c e s) fs s₀ := by
  unfold execBld
  change State.Stays _ fs s₀
  repeat' first
    | with_reducible assumption | with_reducible exact List.Subset.trans (by decide) hM | intro _
    | with_reducible apply State.bitLogic_stays

theorem execBst_stays (c : Nat) (e : Enc) (s : State) (h0 : s.Stays fs s₀) (hM : Field.all ⊆ fs) :
    Outcome.Stays (execBst c e s) fs s₀ := by
  unfold execBst
  change State.Stays _ fs s₀
  repeat' first
    | with_reducible assumption | with_reducible exact List.Subset.trans (by decide) hM | intro _
    | with_reducible apply State.bitStore_stays

theorem execBset_stays (c : Nat) (e : Enc) (s : State) (h0 : s.Stays fs s₀) (hM : Field.all ⊆ fs) :
    Outcome.Stays (execBset c e s) fs s₀ := by
  unfold execBset
  change State.Stays _ fs s₀
  repeat' first
    | with_reducible assumption | with_reducible exact List.Subset.trans (by decide) hM | intro _
    | with_reducible apply State.bitForce_stays

theorem execBrst_stays (c : Nat) (e : Enc) (s : State) (h0 : s.Stays fs s₀) (hM : Field.all ⊆ fs) :
    Outcome.Stays (execBrst c e s) fs s₀ := by
  unfold execBrst
  change State.Stays _ fs s₀
  repeat' first
    | with_reducible assumption | with_reducible exact List.Subset.trans (by decide) hM | intro _
    | with_reducible apply State.bitForce_stays

theorem execBand_stays (c : Nat) (e : Enc) (s : State) (h0 : s.Stays fs s₀) (hM : Field.all ⊆ fs) :
    Outcome.Stays (execBand c e s) fs s₀ := by
  unfold execBand
  change State.Stays _ fs s₀
  repeat' first
    | with_reducible assumption | with_reducible exact List.Subset.trans (by decide) hM | intro _
    | with_reducible apply State.bitLogic_stays

theorem execBor_stays (c : Nat) (e : Enc) (s : State) (h0 : s.Stays fs s₀) (hM : Field.all ⊆ fs) :
    Outcome.Stays (execBor c e s) fs s₀ := by
  unfold execBor
  change State.Stays _ fs s₀
  repeat' first
    | with_reducible assumption | with_reducible exact List.Subset.trans (by decide) hM | intro _
    | with_reducible apply State.bitLogic_stays

theorem execBandn_stays (c : Nat) (e : Enc) (s : State) (h0 : s.Stays fs s₀) (hM : Field.all ⊆ fs) :
    Outcome.Stays (execBandn c e s) fs s₀ := by
  unfold execBandn
  change State.Stays _ fs s₀
  repeat' first
    | with_reducible assumption | with_reducible exact List.Subset.trans (by decide) hM | intro _
    | with_reducible apply State.bitLogic_stays

theorem execBorn_stays (c : Nat) (e : Enc) (s : State) (h0 : s.Stays fs s₀) (hM : Field.all ⊆ fs) :
    Outcome.Stays (execBorn c e s) fs s₀ := by
  unfold execBorn
  change State.Stays _ fs s₀
  repeat' first
    | with_reducible assumption | with_reducible exact List.Subset.trans (by decide) hM | intro _
    | with_reducible apply State.bitLogic_stays

theorem execEdgr_stays (c : Nat) (e : Enc) (s : State) (h0 : s.Stays fs s₀) (hM : Field.all ⊆ fs) :
    Outcome.Stays (execEdgr c e s) fs s₀ := by
  unfold execEdgr
  change State.Stays _ fs s₀
  repeat' first
    | with_reducible assumption | with_reducible exact List.Subset.trans (by decide) hM | intro _
    | with_reducible apply State.edgeOp_stays

theorem execEdgf_stays (c : Nat) (e : Enc) (s : State) (h0 : s.Stays fs s₀) (hM : Field.all ⊆ fs) :
    Outcome.Stays (execEdgf c e s) fs s₀ := by
  unfold execEdgf
  change State.Stays _ fs s₀
  repeat' first
    | with_reducible assumption | with_reducible exact List.Subset.trans (by decide) hM | intro _
    | with_reducible apply State.edgeOp_stays

theorem execMovb_stays (c : Nat) (e : Enc) (s : State) (h0 : s.Stays fs s₀) (hM : Field.all ⊆ fs) :
    Outcome.Stays (execMovb c e s) fs s₀ := by
  unfold execMovb
  change State.Stays _ fs s₀
  repeat' first
    | with_reducible assumption | with_reducible exact List.Subset.trans (by decide) hM | intro _
    | with_reducible apply State.moveBlock_stays

theorem execMovh_stays (c : Nat) (e : Enc) (s : State) (h0 : s.Stays fs s₀) (hM : Field.all ⊆ fs) :
    Outcome.Stays (execMovh c e s) fs s₀ := by
  unfold execMovh
  change State.Stays _ fs s₀
  repeat' first
    | with_reducible assumption | with_reducible exact List.Subset.trans (by decide) hM | intro _
    | with_reducible apply State.moveBlock_stays

theorem execMovw_stays (c : Nat) (e : Enc) (s : State) (h0 : s.Stays fs s₀) (hM : Field.all ⊆ fs) :
    Outcome.Stays (execMovw c e s) fs s₀ := by
  unfold execMovw
  change State.Stays _ fs s₀
  repeat' first
    | with_reducible assumption | with_reducible exact List.Subset.trans (by decide) hM | intro _
    | with_reducible apply State.moveBlock_stays

theorem execFillw_stays (c : Nat) (e : Enc) (s : State) (h0 : s.Stays fs s₀) (hM : Field.all ⊆ fs) :
    Outcome.Stays (execFillw c e s) fs s₀ := by
  unfold execFillw
  change State.Stays _ fs s₀
  repeat' first
    | with_reducible assumption | with_reducible exact List.Subset.trans (by decide) hM | intro _
    | with_reducible apply State.moveBlock_stays

theorem execBnz_stays (c : Nat) (e : Enc) (s : State) (h0 : s.Stays fs s₀) (hM : Field.all ⊆ fs) :
    Outcome.Stays (execBnz c e s) fs s₀ := by
  unfold execBnz
  change State.Stays _ fs s₀
  repeat' first
    | with_reducible assumption | with_reducible exact List.Subset.trans (by decide) hM | intro _
    | with_reducible apply State.branch_stays

theorem execBz_stays (c : Nat) (e : Enc) (s : State) (h0 : s.Stays fs s₀) (hM : Field.all ⊆ fs) :
    Outcome.Stays (execBz c e s) fs s₀ := by
  unfold execBz
  change State.Stays _ fs s₀
  repeat' first
    | with_reducible assumption | with_reducible exact List.Subset.trans (by decide) hM | intro _
    | with_reducible apply State.branch_stays

theorem execBr_stays (c : Nat) (e : Enc) (s : State) (h0 : s.Stays fs s₀) (hM : Field.all ⊆ fs) :
    Outcome.Stays (execBr c e s) fs s₀ := by
  unfold execBr
  change State.Stays _ fs s₀
  repeat' first
    | with_reducible assumption | with_reducible exact List.Subset.trans (by decide) hM | intro _
    | with_reducible apply State.branch_stays

theorem execDbnz_stays (c : Nat) (e : Enc) (s : State) (h0 : s.Stays fs s₀) (hM : Field.all ⊆ fs) :
    Outcome.Stays (execDbnz c e s) fs s₀ := by
  unfold execDbnz
  change State.Stays _ fs s₀
  repeat' first
    | with_reducible assumption | with_reducible exact List.Subset.trans (by decide) hM | intro _
    | with_reducible apply State.branch_stays

theorem execFadd_stays (c : Nat) (e : Enc) (s : State) (h0 : s.Stays fs s₀) (hM : Field.all ⊆ fs) :
    Outcome.Stays (execFadd c e s) fs s₀ := by
  unfold execFadd
  change State.Stays _ fs s₀
  repeat' first
    | with_reducible assumption | with_reducible exact List.Subset.trans (by decide) hM | intro _
    | with_reducible apply State.float2_stays

theorem execFsub_stays (c : Nat) (e : Enc) (s : State) (h0 : s.Stays fs s₀) (hM : Field.all ⊆ fs) :
    Outcome.Stays (execFsub c e s) fs s₀ := by
  unfold execFsub
  change State.Stays _ fs s₀
  repeat' first
    | with_reducible assumption | with_reducible exact List.Subset.trans (by decide) hM | intro _
    | with_reducible apply State.float2_stays

theorem execFmul_stays (c : Nat) (e : Enc) (s : State) (h0 : s.Stays fs s₀) (hM : Field.all ⊆ fs) :
    Outcome.Stays (execFmul c e s) fs s₀ := by
  unfold execFmul
  change State.Stays _ fs s₀
  repeat' first
    | with_reducible assumption | with_reducible exact List.Subset.trans (by decide) hM | intro _
    | with_reducible apply State.float2_stays

theorem execFdiv_stays (c : Nat) (e : Enc) (s : State) (h0 : s.Stays fs s₀) (hM : Field.all ⊆ fs) :
    Outcome.Stays (execFdiv c e s) fs s₀ := by
  unfold execFdiv
  change State.Stays _ fs s₀
  repeat' first
    | with_reducible assumption | with_reducible exact List.Subset.trans (by decide) hM | intro _
    | with_reducible apply State.float2_stays

theorem execFmov_stays (c : Nat) (e : Enc) (s : State) (h0 : s.Stays fs s₀) (hM : Field.all ⊆ fs) :
    Outcome.Stays (execFmov c e s) fs s₀ := by
  unfold execFmov
  change State.Stays _ fs s₀
  repeat' first
    | with_reducible assumption | with_reducible exact List.Subset.trans (by decide) hM | intro _
    | with_reducible apply State.floatBits_stays

theorem execFneg_stays (c : Nat) (e : Enc) (s : State) (h0 : s.Stays fs s₀) (hM : Field.all ⊆ fs) :
    Outcome.Stays (execFneg c e s) fs s₀ := by
  unfold execFneg
  change State.Stays _ fs s₀
  repeat' first
    | with_reducible assumption | with_reducible exact List.Subset.trans (by decide) hM | intro _
    | with_reducible apply State.floatBits_stays

theorem execFabs_stays (c : Nat) (e : Enc) (s : State) (h0 : s.Stays fs s₀) (hM : Field.all ⊆ fs) :
    Outcome.Stays (execFabs c e s) fs s₀ := by
  unfold execFabs
  change State.Stays _ fs s₀
  repeat' first
    | with_reducible assumption | with_reducible exact List.Subset.trans (by decide) hM | intro _
    | with_reducible apply State.floatBits_stays

theorem execFceq_stays (c : Nat) (e : Enc) (s : State) (h0 : s.Stays fs s₀) (hM : Field.all ⊆ fs) :
    Outcome.Stays (execFceq c e s) fs s₀ := by
  unfold execFceq
  change State.Stays _ fs s₀
  repeat' first
    | with_reducible assumption | with_reducible exact List.Subset.trans (by decide) hM | intro _
    | with_reducible apply State.fcompare_stays

theorem execFclt_stays (c : Nat) (e : Enc) (s : State) (h0 : s.Stays fs s₀) (hM : Field.all ⊆ fs) :
    Outcome.Stays (execFclt c e s) fs s₀ := by
  unfold execFclt
  change State.Stays _ fs s₀
  repeat' first
    | with_reducible assumption | with_reducible exact List.Subset.trans (by decide) hM | intro _
    | with_reducible apply State.fcompare_stays

theorem execFcle_stays (c : Nat) (e : Enc) (s : State) (h0 : s.Stays fs s₀) (hM : Field.all ⊆ fs) :
    Outcome.Stays (execFcle c e s) fs s₀ := by
  unfold execFcle
  change State.Stays _ fs s₀
  repeat' first
    | with_reducible assumption | with_reducible exact List.Subset.trans (by decide) hM | intro _
    | with_reducible apply State.fcompare_stays

theorem execFld_stays (c : Nat) (e : Enc) (s : State) (h0 : s.Stays fs s₀) (hM : Field.all ⊆ fs) :
    Outcome.Stays (execFld c e s) fs s₀ := by
  unfold execFld
  change State.Stays _ fs s₀
  repeat' first
    | with_reducible assumption | with_reducible exact List.Subset.trans (by decide) hM | intro _
    | with_reducible apply ite_stays | with_reducible apply State.fresult_stays | with_reducible apply State.issue_stays
    | with_reducible apply State.loadEa_stays

theorem execFst_stays (c : Nat) (e : Enc) (s : State) (h0 : s.Stays fs s₀) (hM : Field.all ⊆ fs) :
    Outcome.Stays (execFst c e s) fs s₀ := by
  unfold execFst
  change State.Stays _ fs s₀
  repeat' first
    | with_reducible assumption | with_reducible exact List.Subset.trans (by decide) hM | intro _
    | with_reducible apply State.storeEa_stays

theorem execAdd_stays (c : Nat) (e : Enc) (s : State) (h0 : s.Stays fs s₀) (hM : Field.all ⊆ fs) :
    Outcome.Stays (execAdd c e s) fs s₀ := by
  unfold execAdd
  change State.Stays _ fs s₀
  repeat' first
    | with_reducible assumption | with_reducible exact List.Subset.trans (by decide) hM | intro _
    | with_reducible apply State.aluPlain_stays

theorem execSub_stays (c : Nat) (e : Enc) (s : State) (h0 : s.Stays fs s₀) (hM : Field.all ⊆ fs) :
    Outcome.Stays (execSub c e s) fs s₀ := by
  unfold execSub
  change State.Stays _ fs s₀
  repeat' first
    | with_reducible assumption | with_reducible exact List.Subset.trans (by decide) hM | intro _
    | with_reducible apply State.aluPlain_stays

theorem execNeg_stays (c : Nat) (e : Enc) (s : State) (h0 : s.Stays fs s₀) (hM : Field.all ⊆ fs) :
    Outcome.Stays (execNeg c e s) fs s₀ := by
  unfold execNeg
  change State.Stays _ fs s₀
  repeat' first
    | with_reducible assumption | with_reducible exact List.Subset.trans (by decide) hM | intro _
    | with_reducible apply State.unary_stays

theorem execMul_stays (c : Nat) (e : Enc) (s : State) (h0 : s.Stays fs s₀) (hM : Field.all ⊆ fs) :
    Outcome.Stays (execMul c e s) fs s₀ := by
  unfold execMul
  change State.Stays _ fs s₀
  repeat' first
    | with_reducible assumption | with_reducible exact List.Subset.trans (by decide) hM | intro _
    | with_reducible apply State.aluPlain_stays

theorem execMulh_stays (c : Nat) (e : Enc) (s : State) (h0 : s.Stays fs s₀) (hM : Field.all ⊆ fs) :
    Outcome.Stays (execMulh c e s) fs s₀ := by
  unfold execMulh
  change State.Stays _ fs s₀
  repeat' first
    | with_reducible assumption | with_reducible exact List.Subset.trans (by decide) hM | intro _
    | with_reducible apply State.aluPlain_stays

theorem execDiv_stays (c : Nat) (e : Enc) (s : State) (h0 : s.Stays fs s₀) (hM : Field.all ⊆ fs) :
    Outcome.Stays (execDiv c e s) fs s₀ := by
  unfold execDiv
  change State.Stays _ fs s₀
  repeat' first
    | with_reducible assumption | with_reducible exact List.Subset.trans (by decide) hM | intro _
    | with_reducible apply State.alu_stays

theorem execDivu_stays (c : Nat) (e : Enc) (s : State) (h0 : s.Stays fs s₀) (hM : Field.all ⊆ fs) :
    Outcome.Stays (execDivu c e s) fs s₀ := by
  unfold execDivu
  change State.Stays _ fs s₀
  repeat' first
    | with_reducible assumption | with_reducible exact List.Subset.trans (by decide) hM | intro _
    | with_reducible apply State.alu_stays

theorem execRem_stays (c : Nat) (e : Enc) (s : State) (h0 : s.Stays fs s₀) (hM : Field.all ⊆ fs) :
    Outcome.Stays (execRem c e s) fs s₀ := by
  unfold execRem
  change State.Stays _ fs s₀
  repeat' first
    | with_reducible assumption | with_reducible exact List.Subset.trans (by decide) hM | intro _
    | with_reducible apply State.alu_stays

theorem execRemu_stays (c : Nat) (e : Enc) (s : State) (h0 : s.Stays fs s₀) (hM : Field.all ⊆ fs) :
    Outcome.Stays (execRemu c e s) fs s₀ := by
  unfold execRemu
  change State.Stays _ fs s₀
  repeat' first
    | with_reducible assumption | with_reducible exact List.Subset.trans (by decide) hM | intro _
    | with_reducible apply State.alu_stays

theorem execAnd_stays (c : Nat) (e : Enc) (s : State) (h0 : s.Stays fs s₀) (hM : Field.all ⊆ fs) :
    Outcome.Stays (execAnd c e s) fs s₀ := by
  unfold execAnd
  change State.Stays _ fs s₀
  repeat' first
    | with_reducible assumption | with_reducible exact List.Subset.trans (by decide) hM | intro _
    | with_reducible apply State.aluPlain_stays

theorem execOr_stays (c : Nat) (e : Enc) (s : State) (h0 : s.Stays fs s₀) (hM : Field.all ⊆ fs) :
    Outcome.Stays (execOr c e s) fs s₀ := by
  unfold execOr
  change State.Stays _ fs s₀
  repeat' first
    | with_reducible assumption | with_reducible exact List.Subset.trans (by decide) hM | intro _
    | with_reducible apply State.aluPlain_stays

theorem execXor_stays (c : Nat) (e : Enc) (s : State) (h0 : s.Stays fs s₀) (hM : Field.all ⊆ fs) :
    Outcome.Stays (execXor c e s) fs s₀ := by
  unfold execXor
  change State.Stays _ fs s₀
  repeat' first
    | with_reducible assumption | with_reducible exact List.Subset.trans (by decide) hM | intro _
    | with_reducible apply State.aluPlain_stays

theorem execAndn_stays (c : Nat) (e : Enc) (s : State) (h0 : s.Stays fs s₀) (hM : Field.all ⊆ fs) :
    Outcome.Stays (execAndn c e s) fs s₀ := by
  unfold execAndn
  change State.Stays _ fs s₀
  repeat' first
    | with_reducible assumption | with_reducible exact List.Subset.trans (by decide) hM | intro _
    | with_reducible apply State.aluPlain_stays

theorem execNot_stays (c : Nat) (e : Enc) (s : State) (h0 : s.Stays fs s₀) (hM : Field.all ⊆ fs) :
    Outcome.Stays (execNot c e s) fs s₀ := by
  unfold execNot
  change State.Stays _ fs s₀
  repeat' first
    | with_reducible assumption | with_reducible exact List.Subset.trans (by decide) hM | intro _
    | with_reducible apply State.unary_stays

theorem execShl_stays (c : Nat) (e : Enc) (s : State) (h0 : s.Stays fs s₀) (hM : Field.all ⊆ fs) :
    Outcome.Stays (execShl c e s) fs s₀ := by
  unfold execShl
  change State.Stays _ fs s₀
  repeat' first
    | with_reducible assumption | with_reducible exact List.Subset.trans (by decide) hM | intro _
    | with_reducible apply State.aluPlain_stays

theorem execShr_stays (c : Nat) (e : Enc) (s : State) (h0 : s.Stays fs s₀) (hM : Field.all ⊆ fs) :
    Outcome.Stays (execShr c e s) fs s₀ := by
  unfold execShr
  change State.Stays _ fs s₀
  repeat' first
    | with_reducible assumption | with_reducible exact List.Subset.trans (by decide) hM | intro _
    | with_reducible apply State.aluPlain_stays

theorem execSar_stays (c : Nat) (e : Enc) (s : State) (h0 : s.Stays fs s₀) (hM : Field.all ⊆ fs) :
    Outcome.Stays (execSar c e s) fs s₀ := by
  unfold execSar
  change State.Stays _ fs s₀
  repeat' first
    | with_reducible assumption | with_reducible exact List.Subset.trans (by decide) hM | intro _
    | with_reducible apply State.aluPlain_stays

theorem execAdds_stays (c : Nat) (e : Enc) (s : State) (h0 : s.Stays fs s₀) (hM : Field.all ⊆ fs) :
    Outcome.Stays (execAdds c e s) fs s₀ := by
  unfold execAdds
  change State.Stays _ fs s₀
  repeat' first
    | with_reducible assumption | with_reducible exact List.Subset.trans (by decide) hM | intro _
    | with_reducible apply State.aluPlain_stays

theorem execSubs_stays (c : Nat) (e : Enc) (s : State) (h0 : s.Stays fs s₀) (hM : Field.all ⊆ fs) :
    Outcome.Stays (execSubs c e s) fs s₀ := by
  unfold execSubs
  change State.Stays _ fs s₀
  repeat' first
    | with_reducible assumption | with_reducible exact List.Subset.trans (by decide) hM | intro _
    | with_reducible apply State.aluPlain_stays

theorem execAbs_stays (c : Nat) (e : Enc) (s : State) (h0 : s.Stays fs s₀) (hM : Field.all ⊆ fs) :
    Outcome.Stays (execAbs c e s) fs s₀ := by
  unfold execAbs
  change State.Stays _ fs s₀
  repeat' first
    | with_reducible assumption | with_reducible exact List.Subset.trans (by decide) hM | intro _
    | with_reducible apply State.unary_stays

theorem execAbss_stays (c : Nat) (e : Enc) (s : State) (h0 : s.Stays fs s₀) (hM : Field.all ⊆ fs) :
    Outcome.Stays (execAbss c e s) fs s₀ := by
  unfold execAbss
  change State.Stays _ fs s₀
  repeat' first
    | with_reducible assumption | with_reducible exact List.Subset.trans (by decide) hM | intro _
    | with_reducible apply State.unary_stays

theorem execMin_stays (c : Nat) (e : Enc) (s : State) (h0 : s.Stays fs s₀) (hM : Field.all ⊆ fs) :
    Outcome.Stays (execMin c e s) fs s₀ := by
  unfold execMin
  change State.Stays _ fs s₀
  repeat' first
    | with_reducible assumption | with_reducible exact List.Subset.trans (by decide) hM | intro _
    | with_reducible apply ite_stays | with_reducible apply State.aluPlain_stays

theorem execMax_stays (c : Nat) (e : Enc) (s : State) (h0 : s.Stays fs s₀) (hM : Field.all ⊆ fs) :
    Outcome.Stays (execMax c e s) fs s₀ := by
  unfold execMax
  change State.Stays _ fs s₀
  repeat' first
    | with_reducible assumption | with_reducible exact List.Subset.trans (by decide) hM | intro _
    | with_reducible apply ite_stays | with_reducible apply State.aluPlain_stays

theorem execRol_stays (c : Nat) (e : Enc) (s : State) (h0 : s.Stays fs s₀) (hM : Field.all ⊆ fs) :
    Outcome.Stays (execRol c e s) fs s₀ := by
  unfold execRol
  change State.Stays _ fs s₀
  repeat' first
    | with_reducible assumption | with_reducible exact List.Subset.trans (by decide) hM | intro _
    | with_reducible apply State.aluPlain_stays

theorem execRor_stays (c : Nat) (e : Enc) (s : State) (h0 : s.Stays fs s₀) (hM : Field.all ⊆ fs) :
    Outcome.Stays (execRor c e s) fs s₀ := by
  unfold execRor
  change State.Stays _ fs s₀
  repeat' first
    | with_reducible assumption | with_reducible exact List.Subset.trans (by decide) hM | intro _
    | with_reducible apply State.aluPlain_stays

theorem execCeq_stays (c : Nat) (e : Enc) (s : State) (h0 : s.Stays fs s₀) (hM : Field.all ⊆ fs) :
    Outcome.Stays (execCeq c e s) fs s₀ := by
  unfold execCeq
  change State.Stays _ fs s₀
  repeat' first
    | with_reducible assumption | with_reducible exact List.Subset.trans (by decide) hM | intro _
    | with_reducible apply State.compare_stays

theorem execClt_stays (c : Nat) (e : Enc) (s : State) (h0 : s.Stays fs s₀) (hM : Field.all ⊆ fs) :
    Outcome.Stays (execClt c e s) fs s₀ := by
  unfold execClt
  change State.Stays _ fs s₀
  repeat' first
    | with_reducible assumption | with_reducible exact List.Subset.trans (by decide) hM | intro _
    | with_reducible apply State.compare_stays

theorem execCle_stays (c : Nat) (e : Enc) (s : State) (h0 : s.Stays fs s₀) (hM : Field.all ⊆ fs) :
    Outcome.Stays (execCle c e s) fs s₀ := by
  unfold execCle
  change State.Stays _ fs s₀
  repeat' first
    | with_reducible assumption | with_reducible exact List.Subset.trans (by decide) hM | intro _
    | with_reducible apply State.compare_stays

theorem execCltu_stays (c : Nat) (e : Enc) (s : State) (h0 : s.Stays fs s₀) (hM : Field.all ⊆ fs) :
    Outcome.Stays (execCltu c e s) fs s₀ := by
  unfold execCltu
  change State.Stays _ fs s₀
  repeat' first
    | with_reducible assumption | with_reducible exact List.Subset.trans (by decide) hM | intro _
    | with_reducible apply State.compare_stays

theorem execCleu_stays (c : Nat) (e : Enc) (s : State) (h0 : s.Stays fs s₀) (hM : Field.all ⊆ fs) :
    Outcome.Stays (execCleu c e s) fs s₀ := by
  unfold execCleu
  change State.Stays _ fs s₀
  repeat' first
    | with_reducible assumption | with_reducible exact List.Subset.trans (by decide) hM | intro _
    | with_reducible apply State.compare_stays

theorem execTst_stays (c : Nat) (e : Enc) (s : State) (h0 : s.Stays fs s₀) (hM : Field.all ⊆ fs) :
    Outcome.Stays (execTst c e s) fs s₀ := by
  unfold execTst
  change State.Stays _ fs s₀
  repeat' first
    | with_reducible assumption | with_reducible exact List.Subset.trans (by decide) hM | intro _
    | with_reducible apply State.compare_stays

theorem execCova_stays (c : Nat) (e : Enc) (s : State) (h0 : s.Stays fs s₀) (hM : Field.all ⊆ fs) :
    Outcome.Stays (execCova c e s) fs s₀ := by
  unfold execCova
  change State.Stays _ fs s₀
  repeat' first
    | with_reducible assumption | with_reducible exact List.Subset.trans (by decide) hM | intro _
    | with_reducible apply State.compare_stays

theorem execCovs_stays (c : Nat) (e : Enc) (s : State) (h0 : s.Stays fs s₀) (hM : Field.all ⊆ fs) :
    Outcome.Stays (execCovs c e s) fs s₀ := by
  unfold execCovs
  change State.Stays _ fs s₀
  repeat' first
    | with_reducible assumption | with_reducible exact List.Subset.trans (by decide) hM | intro _
    | with_reducible apply State.compare_stays

theorem execLd_stays (c : Nat) (e : Enc) (s : State) (h0 : s.Stays fs s₀) (hM : Field.all ⊆ fs) :
    Outcome.Stays (execLd c e s) fs s₀ := by
  unfold execLd
  change State.Stays _ fs s₀
  repeat' first
    | with_reducible assumption | with_reducible exact List.Subset.trans (by decide) hM | intro _
    | with_reducible apply State.loadEa_stays

theorem execSt_stays (c : Nat) (e : Enc) (s : State) (h0 : s.Stays fs s₀) (hM : Field.all ⊆ fs) :
    Outcome.Stays (execSt c e s) fs s₀ := by
  unfold execSt
  change State.Stays _ fs s₀
  repeat' first
    | with_reducible assumption | with_reducible exact List.Subset.trans (by decide) hM | intro _
    | with_reducible apply State.storeEa_stays

theorem execLdb_stays (c : Nat) (e : Enc) (s : State) (h0 : s.Stays fs s₀) (hM : Field.all ⊆ fs) :
    Outcome.Stays (execLdb c e s) fs s₀ := by
  unfold execLdb
  change State.Stays _ fs s₀
  repeat' first
    | with_reducible assumption | with_reducible exact List.Subset.trans (by decide) hM | intro _
    | with_reducible apply State.loadEa_stays

theorem execLdbu_stays (c : Nat) (e : Enc) (s : State) (h0 : s.Stays fs s₀) (hM : Field.all ⊆ fs) :
    Outcome.Stays (execLdbu c e s) fs s₀ := by
  unfold execLdbu
  change State.Stays _ fs s₀
  repeat' first
    | with_reducible assumption | with_reducible exact List.Subset.trans (by decide) hM | intro _
    | with_reducible apply State.loadEa_stays

theorem execLdh_stays (c : Nat) (e : Enc) (s : State) (h0 : s.Stays fs s₀) (hM : Field.all ⊆ fs) :
    Outcome.Stays (execLdh c e s) fs s₀ := by
  unfold execLdh
  change State.Stays _ fs s₀
  repeat' first
    | with_reducible assumption | with_reducible exact List.Subset.trans (by decide) hM | intro _
    | with_reducible apply State.loadEa_stays

theorem execLdhu_stays (c : Nat) (e : Enc) (s : State) (h0 : s.Stays fs s₀) (hM : Field.all ⊆ fs) :
    Outcome.Stays (execLdhu c e s) fs s₀ := by
  unfold execLdhu
  change State.Stays _ fs s₀
  repeat' first
    | with_reducible assumption | with_reducible exact List.Subset.trans (by decide) hM | intro _
    | with_reducible apply State.loadEa_stays

theorem execStb_stays (c : Nat) (e : Enc) (s : State) (h0 : s.Stays fs s₀) (hM : Field.all ⊆ fs) :
    Outcome.Stays (execStb c e s) fs s₀ := by
  unfold execStb
  change State.Stays _ fs s₀
  repeat' first
    | with_reducible assumption | with_reducible exact List.Subset.trans (by decide) hM | intro _
    | with_reducible apply State.storeEa_stays

theorem execSth_stays (c : Nat) (e : Enc) (s : State) (h0 : s.Stays fs s₀) (hM : Field.all ⊆ fs) :
    Outcome.Stays (execSth c e s) fs s₀ := by
  unfold execSth
  change State.Stays _ fs s₀
  repeat' first
    | with_reducible assumption | with_reducible exact List.Subset.trans (by decide) hM | intro _
    | with_reducible apply State.storeEa_stays

theorem execTon_stays (c : Nat) (e : Enc) (s : State) (h0 : s.Stays fs s₀) (hM : Field.all ⊆ fs) :
    Outcome.Stays (execTon c e s) fs s₀ := by
  unfold execTon
  change State.Stays _ fs s₀
  repeat' first
    | with_reducible assumption | with_reducible exact List.Subset.trans (by decide) hM | intro _
    | with_reducible apply State.timerOp_stays

theorem execTof_stays (c : Nat) (e : Enc) (s : State) (h0 : s.Stays fs s₀) (hM : Field.all ⊆ fs) :
    Outcome.Stays (execTof c e s) fs s₀ := by
  unfold execTof
  change State.Stays _ fs s₀
  repeat' first
    | with_reducible assumption | with_reducible exact List.Subset.trans (by decide) hM | intro _
    | with_reducible apply State.timerOp_stays

theorem execTp_stays (c : Nat) (e : Enc) (s : State) (h0 : s.Stays fs s₀) (hM : Field.all ⊆ fs) :
    Outcome.Stays (execTp c e s) fs s₀ := by
  unfold execTp
  change State.Stays _ fs s₀
  repeat' first
    | with_reducible assumption | with_reducible exact List.Subset.trans (by decide) hM | intro _
    | with_reducible apply State.timerOp_stays

theorem execWdgExpiry_stays (n : Nat) (s : State) (h0 : s.Stays fs s₀) (hM : Field.all ⊆ fs) :
    Outcome.Stays (execWdgExpiry n s) fs s₀ := by
  unfold execWdgExpiry
  change State.Stays _ fs s₀
  repeat' first
    | with_reducible assumption | with_reducible exact List.Subset.trans (by decide) hM | intro _
    | with_reducible apply ite_stays | with_reducible apply State.txnSettle_stays | with_reducible apply State.wdgDue_stays

theorem execClockLoss_stays (k : Nat) (s : State) (h0 : s.Stays fs s₀) (hM : Field.all ⊆ fs) :
    Outcome.Stays (execClockLoss k s) fs s₀ := by
  unfold execClockLoss
  change State.Stays _ fs s₀
  repeat' first
    | with_reducible assumption | with_reducible exact List.Subset.trans (by decide) hM | intro _
    | with_reducible apply State.clockLost_stays | with_reducible apply State.txnSettle_stays

theorem execClockRestored_stays (k : Nat) (s : State) (h0 : s.Stays fs s₀) (hM : [.red, .wdg, .flt, .pwr] ⊆ fs) :
    Outcome.Stays (execClockRestored k s) fs s₀ := by
  unfold execClockRestored
  change State.Stays _ fs s₀
  repeat' first
    | with_reducible assumption | with_reducible exact List.Subset.trans (by decide) hM | intro _
    | with_reducible apply State.clockBack_stays

theorem execCheckinArrival_stays (s : State) (h0 : s.Stays fs s₀) (hM : [.objs, .doms, .ntm, .chk, .flt, .fresh] ⊆ fs) :
    Outcome.Stays (execCheckinArrival s) fs s₀ := by
  unfold execCheckinArrival
  change State.Stays _ fs s₀
  repeat' first
    | with_reducible assumption | with_reducible exact List.Subset.trans (by decide) hM | intro _
    | with_reducible apply State.checkIn_stays | with_reducible apply State.setChk_stays | dsimp only | split

theorem execCheckinPeriodEnd_stays (s : State) (h0 : s.Stays fs s₀) (hM : [.objs, .doms, .ntm, .chk, .flt, .fresh] ⊆ fs) :
    Outcome.Stays (execCheckinPeriodEnd s) fs s₀ := by
  unfold execCheckinPeriodEnd
  change State.Stays _ fs s₀
  repeat' first
    | with_reducible assumption | with_reducible exact List.Subset.trans (by decide) hM | intro _
    | with_reducible apply State.chkEnd_stays

theorem execRawRecord_stays (s : State) (h0 : s.Stays fs s₀) (hM : Field.all ⊆ fs) :
    Outcome.Stays (execRawRecord s) fs s₀ := by
  unfold execRawRecord
  change State.Stays _ fs s₀
  repeat' first
    | with_reducible assumption | with_reducible exact List.Subset.trans (by decide) hM | intro _
    | with_reducible apply State.acceptRaw_stays | with_reducible apply State.txnSettle_stays

theorem execFoldClose_stays (s : State) (h0 : s.Stays fs s₀) (hM : [.objs, .ntm, .flt, .sta, .fresh] ⊆ fs) :
    Outcome.Stays (execFoldClose s) fs s₀ := by
  unfold execFoldClose
  change State.Stays _ fs s₀
  repeat' first
    | with_reducible assumption | with_reducible exact List.Subset.trans (by decide) hM | intro _
    | with_reducible apply State.foldClose_stays

theorem execNotifyGapEnd_stays (s : State) (h0 : s.Stays fs s₀) (hM : [.objs, .ctxs, .ntm, .flt, .fresh] ⊆ fs) :
    Outcome.Stays (execNotifyGapEnd s) fs s₀ := by
  unfold execNotifyGapEnd
  change State.Stays _ fs s₀
  repeat' first
    | with_reducible assumption | with_reducible exact List.Subset.trans (by decide) hM | intro _
    | with_reducible apply State.notifyEnd_stays

theorem execLinkDown_stays (die : Nat) (s : State) (h0 : s.Stays fs s₀) (hM : Field.all ⊆ fs) :
    Outcome.Stays (execLinkDown die s) fs s₀ := by
  unfold execLinkDown
  change State.Stays _ fs s₀
  repeat' first
    | with_reducible assumption | with_reducible exact List.Subset.trans (by decide) hM | intro _
    | with_reducible apply ite_stays | with_reducible apply State.linkLost_stays

theorem execDieLinkRetrained_stays (die : Nat) (s : State) (h0 : s.Stays fs s₀) (hM : [.flt, .pwr] ⊆ fs) :
    Outcome.Stays (execDieLinkRetrained die s) fs s₀ := by
  unfold execDieLinkRetrained
  change State.Stays _ fs s₀
  repeat' first
    | with_reducible assumption | with_reducible exact List.Subset.trans (by decide) hM | intro _
    | with_reducible apply ite_stays | with_reducible apply State.linkBack_stays

theorem execBwWindowEnd_stays (s : State) (h0 : s.Stays fs s₀) (hM : [.objs, .ntm, .pmc, .fresh] ⊆ fs) :
    Outcome.Stays (execBwWindowEnd s) fs s₀ := by
  unfold execBwWindowEnd
  change State.Stays _ fs s₀
  repeat' first
    | with_reducible assumption | with_reducible exact List.Subset.trans (by decide) hM | intro _
    | with_reducible apply State.bwEnd_stays

theorem execStaRecordRead_stays (ses : Nat) (s : State) (h0 : s.Stays fs s₀) (hM : Field.all ⊆ fs) :
    Outcome.Stays (execStaRecordRead ses s) fs s₀ := by
  unfold execStaRecordRead
  change State.Stays _ fs s₀
  repeat' first
    | with_reducible assumption | with_reducible exact List.Subset.trans (by decide) hM | intro _
    | with_reducible apply State.openDomain_stays

theorem execFreezeMaxExpiry_stays (s : State) (h0 : s.Stays fs s₀) (hM : [.objs, .ntm, .sta, .fresh] ⊆ fs) :
    Outcome.Stays (execFreezeMaxExpiry s) fs s₀ := by
  unfold execFreezeMaxExpiry
  change State.Stays _ fs s₀
  repeat' first
    | with_reducible assumption | with_reducible exact List.Subset.trans (by decide) hM | intro _
    | with_reducible apply State.freezeEnd_stays

theorem execTmkInEdge_stays (s : State) (h0 : s.Stays fs s₀) (hM : [.objs, .mem, .ecc, .snp] ⊆ fs) :
    Outcome.Stays (execTmkInEdge s) fs s₀ := by
  unfold execTmkInEdge
  change State.Stays _ fs s₀
  repeat' first
    | with_reducible assumption | with_reducible exact List.Subset.trans (by decide) hM | intro _
    | with_reducible apply ite_stays | with_reducible apply State.tidemark_stays

theorem execSnpAtReached_stays (s : State) (h0 : s.Stays fs s₀) (hM : [.objs, .mem, .ecc, .ntm, .snp, .fresh] ⊆ fs) :
    Outcome.Stays (execSnpAtReached s) fs s₀ := by
  unfold execSnpAtReached
  change State.Stays _ fs s₀
  repeat' first
    | with_reducible assumption | with_reducible exact List.Subset.trans (by decide) hM | intro _
    | with_reducible apply State.snpAt_stays

theorem execTidemarkLatch_stays (die island : Nat) (s : State) (h0 : s.Stays fs s₀) (hM : [.mem, .ecc, .snp] ⊆ fs) :
    Outcome.Stays (execTidemarkLatch die island s) fs s₀ := by
  unfold execTidemarkLatch
  change State.Stays _ fs s₀
  repeat' first
    | with_reducible assumption | with_reducible exact List.Subset.trans (by decide) hM | intro _
    | with_reducible apply State.sectionIn_stays

theorem execTidemarkAck_stays (die : Nat) (s : State) (h0 : s.Stays fs s₀) (hM : [.objs, .mem, .ecc, .snp] ⊆ fs) :
    Outcome.Stays (execTidemarkAck die s) fs s₀ := by
  unfold execTidemarkAck
  change State.Stays _ fs s₀
  repeat' first
    | with_reducible assumption | with_reducible exact List.Subset.trans (by decide) hM | intro _
    | with_reducible apply State.tidemarkAck_stays

theorem execTmkOutEnd_stays (s : State) (h0 : s.Stays fs s₀) (hM : [.snp] ⊆ fs) :
    Outcome.Stays (execTmkOutEnd s) fs s₀ := by
  unfold execTmkOutEnd
  change State.Stays _ fs s₀
  repeat' first
    | with_reducible assumption | with_reducible exact List.Subset.trans (by decide) hM | intro _
    | with_reducible apply State.setSnp_stays

theorem execTempSample_stays (temps : List Int) (s : State) (h0 : s.Stays fs s₀) (hM : [.objs, .sta] ⊆ fs) :
    Outcome.Stays (execTempSample temps s) fs s₀ := by
  unfold execTempSample
  change State.Stays _ fs s₀
  repeat' first
    | with_reducible assumption | with_reducible exact List.Subset.trans (by decide) hM | intro _
    | with_reducible apply State.temps_stays

theorem execLifeSample_stays (s : State) (h0 : s.Stays fs s₀) (hM : [.objs, .sta, .hlt] ⊆ fs) :
    Outcome.Stays (execLifeSample s) fs s₀ := by
  unfold execLifeSample
  change State.Stays _ fs s₀
  repeat' first
    | with_reducible assumption | with_reducible exact List.Subset.trans (by decide) hM | intro _
    | with_reducible apply State.lifeDay_stays

theorem execHealthTestSlice_stays (failAt : Option Nat) (s : State) (h0 : s.Stays fs s₀) (hM : [.objs, .mem, .ecc, .sta, .hlt] ⊆ fs) :
    Outcome.Stays (execHealthTestSlice failAt s) fs s₀ := by
  unfold execHealthTestSlice
  change State.Stays _ fs s₀
  repeat' first
    | with_reducible assumption | with_reducible exact List.Subset.trans (by decide) hM | intro _
    | with_reducible apply State.testSlice_stays

theorem execAgeMeasure_stays (ages : List Nat) (s : State) (h0 : s.Stays fs s₀) (hM : [.objs, .mem, .str, .bdr, .fresh] ⊆ fs) :
    Outcome.Stays (execAgeMeasure ages s) fs s₀ := by
  unfold execAgeMeasure
  change State.Stays _ fs s₀
  repeat' first
    | with_reducible assumption | with_reducible exact List.Subset.trans (by decide) hM | intro _
    | with_reducible apply State.agesMeasured_stays

end Sys2Proof.Machine
end


section
/-! SUPPORT. What each instruction of a core leaves as it was, and every command: it keeps memory canonical, and the Lighthouse from
driving VALID to both partners. -/

namespace Sys2Proof.Machine

section

variable {fs : List Field} {s₀ : State}

theorem execGatb_stays (c : Nat) (e : Enc) (s : State) (h0 : s.Stays fs s₀) (hM : Field.all ⊆ fs) :
    Outcome.Stays (execGatb c e s) fs s₀ := by
  refine State.issue_stays _ _ _ _ _ h0 (fun u g x n hu => ?_) hM
  dsimp only
  have hf := State.fetchBytes_stays u c (tableAt n 16 14 e.imm) 16 hu (Field.within hM (by decide))
  split
  · trivial
  · trivial
  · rename_i v d he
    have hv := stays_of_eq he hf
    have hg := State.gather_stays v c g (x.ea e) d hv hM
    split
    · rename_i hl; rw [hl] at hg; exact State.modCtx_stays _ _ _ hg (Field.within hM (by decide))
    · trivial
    · rename_i hl; rw [hl] at hg; exact hg
    · rename_i hl; rw [hl] at hg; exact State.oemHold_stays _ _ _ _ _ hg (Field.within hM (by decide))

theorem execRung_stays (c : Nat) (e : Enc) (s : State) (h0 : s.Stays fs s₀) (hM : Field.all ⊆ fs) :
    Outcome.Stays (execRung c e s) fs s₀ := by
  refine State.issue_stays _ _ _ _ _ h0 (fun u g x n hu => ?_) hM
  dsimp only
  have hf := State.fetchBytes_stays u c (tableAt n 8 16 e.imm) 8 hu (Field.within hM (by decide))
  split
  · trivial
  · trivial
  · rename_i v d he
    have hv := stays_of_eq he hf
    exact State.modCtx_stays _ _ _ hv (Field.within hM (by decide))

theorem execScanw_stays (c : Nat) (e : Enc) (s : State) (h0 : s.Stays fs s₀) (hM : Field.all ⊆ fs) :
    Outcome.Stays (execScanw c e s) fs s₀ := by
  refine State.issue_stays _ _ _ _ _ h0 (fun u g x n hu => ?_) hM
  split
  · exact State.modCtx_stays _ _ _ hu (Field.within hM (by decide))
  · split
    · trivial
    · rename_i a _
      have hc := State.coreLoad_stays u c g a 4 false hu hM
      split
      · trivial
      · rename_i he; rw [he] at hc; exact hc
      · rename_i he; rw [he] at hc; exact State.oemHold_stays _ _ _ _ _ hc (Field.within hM (by decide))
      · rename_i he; rw [he] at hc; exact State.seekBlock_stays _ _ _ _ _ hc (Field.within hM (by decide))

theorem execCmpw_stays (c : Nat) (e : Enc) (s : State) (h0 : s.Stays fs s₀) (hM : Field.all ⊆ fs) :
    Outcome.Stays (execCmpw c e s) fs s₀ := by
  refine State.issue_stays _ _ _ _ _ h0 (fun u g x n hu => ?_) hM
  split
  · exact State.modCtx_stays _ _ _ hu (Field.within hM (by decide))
  · split
    · trivial
    · exact State.compareWords_stays _ _ _ _ _ _ hu (fun v b hv => State.seekBlock_stays _ _ _ _ _ hv (Field.within hM (by decide))) hM

theorem execCall_stays (c : Nat) (e : Enc) (s : State) (h0 : s.Stays fs s₀) (hM : Field.all ⊆ fs) :
    Outcome.Stays (execCall c e s) fs s₀ := by
  refine State.issue_stays _ _ _ _ _ h0 (fun u g x n hu => ?_) hM
  dsimp only
  obtain ⟨a, ha⟩ : ∃ a, a = ((x.gr 31).toNat + 2 ^ 32 - 4) % 2 ^ 32 := ⟨_, rfl⟩
  rw [← ha]
  split
  · trivial
  · have hc := State.coreStore_stays u c g a (leBytes 4 n.toNat) hu hM
    split
    · trivial
    · rename_i he; rw [he] at hc; exact hc
    · rename_i he; rw [he] at hc; exact State.modCtx_stays _ _ _ hc (Field.within hM (by decide))

theorem execRet_stays (c : Nat) (e : Enc) (s : State) (h0 : s.Stays fs s₀) (hM : Field.all ⊆ fs) :
    Outcome.Stays (execRet c e s) fs s₀ := by
  refine State.issue_stays _ _ _ _ _ h0 (fun u g x n hu => ?_) hM
  dsimp only
  split
  · trivial
  · have hc := State.coreLoad_stays u c g (x.gr 31).toNat 4 false hu hM
    split
    · trivial
    · rename_i he; rw [he] at hc; exact hc
    · rename_i he; rw [he] at hc; exact State.oemHold_stays _ _ _ _ _ hc (Field.within hM (by decide))
    · rename_i he; rw [he] at hc; exact State.modCtx_stays _ _ _ hc (Field.within hM (by decide))

theorem execSwtrap_stays (c : Nat) (e : Enc) (s : State) (h0 : s.Stays fs s₀) (hM : Field.all ⊆ fs) :
    Outcome.Stays (execSwtrap c e s) fs s₀ :=
  State.issue_stays _ _ _ _ _ h0 (fun _ _ _ _ hu => hu) hM

theorem execFsqrt_stays (c : Nat) (e : Enc) (s : State) (h0 : s.Stays fs s₀) (hM : Field.all ⊆ fs) :
    Outcome.Stays (execFsqrt c e s) fs s₀ :=
  State.issue_stays _ _ _ _ _ h0 (fun u g x n hu => State.fresult_stays _ _ _ _ _ hu (Field.within hM (by decide))) hM

theorem execFtoi_stays (c : Nat) (e : Enc) (s : State) (h0 : s.Stays fs s₀) (hM : Field.all ⊆ fs) :
    Outcome.Stays (execFtoi c e s) fs s₀ :=
  State.issue_stays _ _ _ _ _ h0 (fun u g x n hu => State.modCtx_stays _ _ _ hu (Field.within hM (by decide))) hM

theorem execItof_stays (c : Nat) (e : Enc) (s : State) (h0 : s.Stays fs s₀) (hM : Field.all ⊆ fs) :
    Outcome.Stays (execItof c e s) fs s₀ :=
  State.issue_stays _ _ _ _ _ h0 (fun u g x n hu => State.fresult_stays _ _ _ _ _ hu (Field.within hM (by decide))) hM

theorem execFcvt_stays (c : Nat) (e : Enc) (s : State) (h0 : s.Stays fs s₀) (hM : Field.all ⊆ fs) :
    Outcome.Stays (execFcvt c e s) fs s₀ :=
  State.issue_stays _ _ _ _ _ h0 (fun u g x n hu => State.fresult_stays _ _ _ _ _ hu (Field.within hM (by decide))) hM

theorem execMov_stays (c : Nat) (e : Enc) (s : State) (h0 : s.Stays fs s₀) (hM : Field.all ⊆ fs) :
    Outcome.Stays (execMov c e s) fs s₀ :=
  State.issue_stays _ _ _ _ _ h0 (fun u g x n hu => State.result_stays _ _ _ _ _ _ hu (Field.within hM (by decide))) hM

theorem execLdx_stays (c : Nat) (e : Enc) (s : State) (h0 : s.Stays fs s₀) (hM : Field.all ⊆ fs) :
    Outcome.Stays (execLdx c e s) fs s₀ := by
  refine State.issue_stays _ _ _ _ _ h0 (fun u g x n hu => ?_) hM
  dsimp only
  split
  · trivial
  · exact State.loadTo_stays _ _ _ _ _ _ _ _ _ _ _ hu hM

theorem execStx_stays (c : Nat) (e : Enc) (s : State) (h0 : s.Stays fs s₀) (hM : Field.all ⊆ fs) :
    Outcome.Stays (execStx c e s) fs s₀ := by
  refine State.issue_stays _ _ _ _ _ h0 (fun u g x n hu => ?_) hM
  dsimp only
  split
  · trivial
  · exact State.storeRes_stays _ _ _ _ _ _ _ hu hM

theorem execLea_stays (c : Nat) (e : Enc) (s : State) (h0 : s.Stays fs s₀) (hM : Field.all ⊆ fs) :
    Outcome.Stays (execLea c e s) fs s₀ := by
  refine State.issue_stays _ _ _ _ _ h0 (fun u g x n hu => ?_) hM
  split
  · trivial
  · exact State.result_stays _ _ _ _ _ _ hu (Field.within hM (by decide))

theorem execXchg_stays (c : Nat) (e : Enc) (s : State) (h0 : s.Stays fs s₀) (hM : Field.all ⊆ fs) :
    Outcome.Stays (execXchg c e s) fs s₀ := by
  refine State.issue_stays _ _ _ _ _ h0 (fun u g x n hu => ?_) hM
  split
  · trivial
  · exact State.exchange_stays _ _ _ _ _ _ hu hM

theorem execSyncW_stays (c : Nat) (e : Enc) (s : State) (h0 : s.Stays fs s₀) (hM : Field.all ⊆ fs) :
    Outcome.Stays (execSyncW c e s) fs s₀ :=
  State.issue_stays _ _ _ _ _ h0 (fun u g x n hu => State.modCtx_stays _ _ _ hu (Field.within hM (by decide))) hM

theorem execFence_stays (c : Nat) (e : Enc) (s : State) (h0 : s.Stays fs s₀) (hM : Field.all ⊆ fs) :
    Outcome.Stays (execFence c e s) fs s₀ :=
  State.issue_stays _ _ _ _ _ h0 (fun u g x n hu => State.modCtx_stays _ _ _ hu (Field.within hM (by decide))) hM

theorem execMfs_stays (c : Nat) (e : Enc) (s : State) (h0 : s.Stays fs s₀) (hM : Field.all ⊆ fs) :
    Outcome.Stays (execMfs c e s) fs s₀ := by
  refine State.issue_stays _ _ _ _ _ h0 (fun u g x n hu => ?_) hM
  dsimp only
  split
  · trivial
  · exact State.modCtx_stays _ _ _ hu (Field.within hM (by decide))

theorem execMts_stays (c : Nat) (e : Enc) (s : State) (h0 : s.Stays fs s₀) (hM : Field.all ⊆ fs) :
    Outcome.Stays (execMts c e s) fs s₀ := by
  refine State.issue_stays _ _ _ _ _ h0 (fun u g x n hu => ?_) hM
  split
  · trivial
  · exact State.modCtx_stays _ _ _ hu (Field.within hM (by decide))

theorem execNop_stays (c : Nat) (e : Enc) (s : State) (h0 : s.Stays fs s₀) (hM : Field.all ⊆ fs) :
    Outcome.Stays (execNop c e s) fs s₀ :=
  State.issue_stays _ _ _ _ _ h0 (fun _ _ _ _ hu => hu) hM

theorem execEndSection_stays (c : Nat) (e : Enc) (s : State) (h0 : s.Stays fs s₀) (hM : Field.all ⊆ fs) :
    Outcome.Stays (execEndSection c e s) fs s₀ :=
  State.issue_stays _ _ _ _ _ h0 (fun u g x n hu => State.modCtx_stays _ _ _ hu (Field.within hM (by decide))) hM

theorem execChkin_stays (c : Nat) (e : Enc) (s : State) (h0 : s.Stays fs s₀) (hM : Field.all ⊆ fs) :
    Outcome.Stays (execChkin c e s) fs s₀ := by
  refine State.issue_stays _ _ _ _ _ h0 (fun u g x n hu => ?_) hM
  exact State.when_stays _ _ hu (State.with_chk _ hu (Field.within hM (by decide)))

theorem execSignal_stays (c : Nat) (e : Enc) (s : State) (h0 : s.Stays fs s₀) (hM : Field.all ⊆ fs) :
    Outcome.Stays (execSignal c e s) fs s₀ := by
  refine State.issue_stays _ _ _ _ _ h0 (fun u g x n hu => ?_) hM
  split
  · trivial
  · exact State.when_stays _ _ hu (State.fire_stays _ _ _ hu (Field.within hM (by decide)))

theorem execTrst_stays (c : Nat) (e : Enc) (s : State) (h0 : s.Stays fs s₀) (hM : Field.all ⊆ fs) :
    Outcome.Stays (execTrst c e s) fs s₀ := by
  refine State.issue_stays _ _ _ _ _ h0 (fun u g x n hu => ?_) hM
  dsimp only
  split
  · rename_i he; exact State.cellAt_fault_stays _ _ _ _ _ _ he
  · rename_i he; exact State.setCell_stays _ _ _ (State.cellAt_stays _ _ _ _ _ _ hu he (Field.within hM (by decide))) (Field.within hM (by decide))

theorem execTrd_stays (c : Nat) (e : Enc) (s : State) (h0 : s.Stays fs s₀) (hM : Field.all ⊆ fs) :
    Outcome.Stays (execTrd c e s) fs s₀ := by
  refine State.issue_stays _ _ _ _ _ h0 (fun u g x n hu => ?_) hM
  dsimp only
  split
  · rename_i he; exact State.cellAt_fault_stays _ _ _ _ _ _ he
  · rename_i he; exact State.modCtx_stays _ _ _ (State.cellAt_stays _ _ _ _ _ _ hu he (Field.within hM (by decide))) (Field.within hM (by decide))

theorem execCnt64_stays (c : Nat) (e : Enc) (s : State) (h0 : s.Stays fs s₀) (hM : Field.all ⊆ fs) :
    Outcome.Stays (execCnt64 c e s) fs s₀ :=
  State.issue_stays _ _ _ _ _ h0 (fun u g x n hu => State.count64_stays _ _ _ _ _ _ hu (Field.within hM (by decide))) hM

/-- Each command, row by row. -/
theorem exec_stays (i : Instr) {s : State} (h0 : s.Stays fs s₀) (hM : Field.all ⊆ fs) : Outcome.Stays (exec i s) fs s₀ :=
  match i with
  | .objectWrite _ _ _ _ _ => execObjectWrite_stays _ _ _ _ _ _ h0 hM
  | .login _ _ => State.setCmd_stays _ _ _ _ h0 hM
  | .lockoutEnd _ => execLockoutEnd_stays _ _ h0 (Field.within hM (by decide))
  | .sessionIdleClose _ => execSessionIdleClose_stays _ _ h0 (Field.within hM (by decide))
  | .txnBegin _ => State.setCmd_stays _ _ _ _ h0 hM
  | .txnCommit _ => State.setCmd_stays _ _ _ _ h0 hM
  | .txnDiscard _ => State.setCmd_stays _ _ _ _ h0 hM
  | .dieVote _ _ => execDieVote_stays _ _ _ h0 (Field.within hM (by decide))
  | .handshakeTimeout _ _ _ => execHandshakeTimeout_stays _ _ _ _ h0 (Field.within hM (by decide))
  | .txnApply _ _ => execTxnApply_stays _ _ _ h0 hM
  | .applyConfirm _ _ => execApplyConfirm_stays _ _ _ h0 (Field.within hM (by decide))
  | .txnExpired _ => execTxnExpired_stays _ _ h0 (Field.within hM (by decide))
  | .domOpen _ _ => State.setCmd_stays _ _ _ _ h0 hM
  | .domApertureAccess _ _ _ _ _ => execDomApertureAccess_stays _ _ _ _ _ _ h0 (Field.within hM (by decide))
  | .domCloseCommit _ => State.setCmd_stays _ _ _ _ h0 hM
  | .domCloseAbandon _ => State.setCmd_stays _ _ _ _ h0 hM
  | .oemRequest _ _ _ _ _ => execOemRequest_stays _ _ _ _ _ _ h0 (Field.within hM (by decide))
  | .oemReqTake => execOemReqTake_stays _ h0 hM
  | .oemAnswer _ _ _ => execOemAnswer_stays _ _ _ _ h0 (Field.within hM (by decide))
  | .oemTimeout _ => execOemTimeout_stays _ _ h0 (Field.within hM (by decide))
  | .serviceOpen _ _ => execServiceOpen_stays _ _ _ h0 (Field.within hM (by decide))
  | .serviceClose _ _ _ => execServiceClose_stays _ _ _ _ h0 (Field.within hM (by decide))
  | .serviceRead _ _ _ _ _ => execServiceRead_stays _ _ _ _ _ _ h0 (Field.within hM (by decide))
  | .serviceWrite _ _ _ _ _ _ => execServiceWrite_stays _ _ _ _ _ _ _ h0 hM
  | .serviceDomRead _ _ _ _ _ => execServiceDomRead_stays _ _ _ _ _ _ h0 (Field.within hM (by decide))
  | .serviceDomWrite _ _ _ _ _ => execServiceDomWrite_stays _ _ _ _ _ _ h0 (Field.within hM (by decide))
  | .ld _ _ => execLd_stays _ _ _ h0 hM
  | .st _ _ => execSt_stays _ _ _ h0 hM
  | .mov _ _ => execMov_stays _ _ _ h0 hM
  | .add _ _ => execAdd_stays _ _ _ h0 hM
  | .ldx _ _ => execLdx_stays _ _ _ h0 hM
  | .stx _ _ => execStx_stays _ _ _ h0 hM
  | .bnz _ _ => execBnz_stays _ _ _ h0 hM
  | .sub _ _ => execSub_stays _ _ _ h0 hM
  | .neg _ _ => execNeg_stays _ _ _ h0 hM
  | .mul _ _ => execMul_stays _ _ _ h0 hM
  | .mulh _ _ => execMulh_stays _ _ _ h0 hM
  | .div _ _ => execDiv_stays _ _ _ h0 hM
  | .divu _ _ => execDivu_stays _ _ _ h0 hM
  | .rem _ _ => execRem_stays _ _ _ h0 hM
  | .remu _ _ => execRemu_stays _ _ _ h0 hM
  | .and _ _ => execAnd_stays _ _ _ h0 hM
  | .or _ _ => execOr_stays _ _ _ h0 hM
  | .xor _ _ => execXor_stays _ _ _ h0 hM
  | .andn _ _ => execAndn_stays _ _ _ h0 hM
  | .not _ _ => execNot_stays _ _ _ h0 hM
  | .shl _ _ => execShl_stays _ _ _ h0 hM
  | .shr _ _ => execShr_stays _ _ _ h0 hM
  | .sar _ _ => execSar_stays _ _ _ h0 hM
  | .adds _ _ => execAdds_stays _ _ _ h0 hM
  | .subs _ _ => execSubs_stays _ _ _ h0 hM
  | .abs _ _ => execAbs_stays _ _ _ h0 hM
  | .abss _ _ => execAbss_stays _ _ _ h0 hM
  | .min _ _ => execMin_stays _ _ _ h0 hM
  | .max _ _ => execMax_stays _ _ _ h0 hM
  | .rol _ _ => execRol_stays _ _ _ h0 hM
  | .ror _ _ => execRor_stays _ _ _ h0 hM
  | .ceq _ _ => execCeq_stays _ _ _ h0 hM
  | .clt _ _ => execClt_stays _ _ _ h0 hM
  | .cle _ _ => execCle_stays _ _ _ h0 hM
  | .cltu _ _ => execCltu_stays _ _ _ h0 hM
  | .cleu _ _ => execCleu_stays _ _ _ h0 hM
  | .tst _ _ => execTst_stays _ _ _ h0 hM
  | .cova _ _ => execCova_stays _ _ _ h0 hM
  | .covs _ _ => execCovs_stays _ _ _ h0 hM
  | .ldb _ _ => execLdb_stays _ _ _ h0 hM
  | .ldbu _ _ => execLdbu_stays _ _ _ h0 hM
  | .ldh _ _ => execLdh_stays _ _ _ h0 hM
  | .ldhu _ _ => execLdhu_stays _ _ _ h0 hM
  | .stb _ _ => execStb_stays _ _ _ h0 hM
  | .sth _ _ => execSth_stays _ _ _ h0 hM
  | .lea _ _ => execLea_stays _ _ _ h0 hM
  | .xchg _ _ => execXchg_stays _ _ _ h0 hM
  | .bz _ _ => execBz_stays _ _ _ h0 hM
  | .br _ _ => execBr_stays _ _ _ h0 hM
  | .call _ _ => execCall_stays _ _ _ h0 hM
  | .ret _ _ => execRet_stays _ _ _ h0 hM
  | .dbnz _ _ => execDbnz_stays _ _ _ h0 hM
  | .swtrap _ _ => execSwtrap_stays _ _ _ h0 hM
  | .fadd _ _ => execFadd_stays _ _ _ h0 hM
  | .fsub _ _ => execFsub_stays _ _ _ h0 hM
  | .fmul _ _ => execFmul_stays _ _ _ h0 hM
  | .fdiv _ _ => execFdiv_stays _ _ _ h0 hM
  | .fsqrt _ _ => execFsqrt_stays _ _ _ h0 hM
  | .fmov _ _ => execFmov_stays _ _ _ h0 hM
  | .fneg _ _ => execFneg_stays _ _ _ h0 hM
  | .fabs _ _ => execFabs_stays _ _ _ h0 hM
  | .fceq _ _ => execFceq_stays _ _ _ h0 hM
  | .fclt _ _ => execFclt_stays _ _ _ h0 hM
  | .fcle _ _ => execFcle_stays _ _ _ h0 hM
  | .ftoi _ _ => execFtoi_stays _ _ _ h0 hM
  | .itof _ _ => execItof_stays _ _ _ h0 hM
  | .fcvt _ _ => execFcvt_stays _ _ _ h0 hM
  | .fld _ _ => execFld_stays _ _ _ h0 hM
  | .fst _ _ => execFst_stays _ _ _ h0 hM
  | .movb _ _ => execMovb_stays _ _ _ h0 hM
  | .movh _ _ => execMovh_stays _ _ _ h0 hM
  | .movw _ _ => execMovw_stays _ _ _ h0 hM
  | .fillw _ _ => execFillw_stays _ _ _ h0 hM
  | .scanw _ _ => execScanw_stays _ _ _ h0 hM
  | .cmpw _ _ => execCmpw_stays _ _ _ h0 hM
  | .bld _ _ => execBld_stays _ _ _ h0 hM
  | .bst _ _ => execBst_stays _ _ _ h0 hM
  | .bset _ _ => execBset_stays _ _ _ h0 hM
  | .brst _ _ => execBrst_stays _ _ _ h0 hM
  | .band _ _ => execBand_stays _ _ _ h0 hM
  | .bor _ _ => execBor_stays _ _ _ h0 hM
  | .bandn _ _ => execBandn_stays _ _ _ h0 hM
  | .born _ _ => execBorn_stays _ _ _ h0 hM
  | .gatb _ _ => execGatb_stays _ _ _ h0 hM
  | .rung _ _ => execRung_stays _ _ _ h0 hM
  | .edgr _ _ => execEdgr_stays _ _ _ h0 hM
  | .edgf _ _ => execEdgf_stays _ _ _ h0 hM
  | .ton _ _ => execTon_stays _ _ _ h0 hM
  | .tof _ _ => execTof_stays _ _ _ h0 hM
  | .tp _ _ => execTp_stays _ _ _ h0 hM
  | .trst _ _ => execTrst_stays _ _ _ h0 hM
  | .trd _ _ => execTrd_stays _ _ _ h0 hM
  | .cnt64 _ _ => execCnt64_stays _ _ _ h0 hM
  | .syncW _ _ => execSyncW_stays _ _ _ h0 hM
  | .fence _ _ => execFence_stays _ _ _ h0 hM
  | .mfs _ _ => execMfs_stays _ _ _ h0 hM
  | .mts _ _ => execMts_stays _ _ _ h0 hM
  | .nop _ _ => execNop_stays _ _ _ h0 hM
  | .endSection _ _ => execEndSection_stays _ _ _ h0 hM
  | .chkin _ _ => execChkin_stays _ _ _ h0 hM
  | .signal _ _ => execSignal_stays _ _ _ h0 hM
  | .bracketLimit _ => execBracketLimit_stays _ _ h0 hM
  | .loadDataReturn _ => execLoadDataReturn_stays _ _ h0 (Field.within hM (by decide))
  | .writeBufferRoom _ => execWriteBufferRoom_stays _ _ h0 hM
  | .writeBufferDrain _ => execWriteBufferDrain_stays _ _ h0 hM
  | .drainAck _ _ => execDrainAck_stays _ _ _ h0 (Field.within hM (by decide))
  | .cpuCtlWrite _ _ _ => State.setCmd_stays _ _ _ _ h0 hM
  | .tdsStart _ => State.setCmd_stays _ _ _ _ h0 hM
  | .tdsStop _ => State.setCmd_stays _ _ _ _ h0 hM
  | .tdsHalt _ => State.setCmd_stays _ _ _ _ h0 hM
  | .tdsClear _ => State.setCmd_stays _ _ _ _ h0 hM
  | .rebaseDone _ => execRebaseDone_stays _ _ h0 (Field.within hM (by decide))
  | .ebbPoint => execEbbPoint_stays _ h0 hM
  | .inDeadline => execInDeadline_stays _ h0 (Field.within hM (by decide))
  | .floodStart => execFloodStart_stays _ h0 hM
  | .floodLatestReached => execFloodLatestReached_stays _ h0 hM
  | .trigger => execTrigger_stays _ h0 (Field.within hM (by decide))
  | .copyInDone _ _ => execCopyInDone_stays _ _ _ h0 hM
  | .completionFlag _ _ => execCompletionFlag_stays _ _ _ h0 (Field.within hM (by decide))
  | .publish _ => execPublish_stays _ _ h0 hM
  | .tskEnable _ _ => State.setCmd_stays _ _ _ _ h0 hM
  | .tskDisable _ _ => State.setCmd_stays _ _ _ _ h0 hM
  | .tskResume _ _ => State.setCmd_stays _ _ _ _ h0 hM
  | .tskAbandon _ _ => State.setCmd_stays _ _ _ _ h0 hM
  | .tskRelease _ _ => State.setCmd_stays _ _ _ _ h0 hM
  | .keventsRead _ => execKeventsRead_stays _ _ h0 (Field.within hM (by decide))
  | .cut => execCut_stays _ h0 (Field.within hM (by decide))
  | .cutCopyEnd => execCutCopyEnd_stays _ h0 hM
  | .transmitWindowClose => execTransmitWindowClose_stays _ h0 hM
  | .launch => execLaunch_stays _ h0 (Field.within hM (by decide))
  | .slackPoint => execSlackPoint_stays _ h0 hM
  | .slackWindowEnd => execSlackWindowEnd_stays _ h0 (Field.within hM (by decide))
  | .forceSet _ => State.setCmd_stays _ _ _ _ h0 hM
  | .forceClear _ => State.setCmd_stays _ _ _ _ h0 hM
  | .forceRead _ => State.setCmd_stays _ _ _ _ h0 hM
  | .forceClearAll _ => State.setCmd_stays _ _ _ _ h0 hM
  | .imgCtlWrite _ _ => State.setCmd_stays _ _ _ _ h0 hM
  | .retBlockSave _ _ => execRetBlockSave_stays _ _ _ h0 (Field.within hM (by decide))
  | .olcLoad _ => State.setCmd_stays _ _ _ _ h0 hM
  | .olcLoadDone _ => State.setCmd_stays _ _ _ _ h0 hM
  | .olcVerify _ => State.setCmd_stays _ _ _ _ h0 hM
  | .verifyDone => execVerifyDone_stays _ h0 (Field.within hM (by decide))
  | .olcPrepare _ => State.setCmd_stays _ _ _ _ h0 hM
  | .prepareVote _ _ => execPrepareVote_stays _ _ _ h0 (Field.within hM (by decide))
  | .olcCommit _ => State.setCmd_stays _ _ _ _ h0 hM
  | .olcAbort _ => State.setCmd_stays _ _ _ _ h0 hM
  | .olcRelease _ => State.setCmd_stays _ _ _ _ h0 hM
  | .olcRetreat _ => State.setCmd_stays _ _ _ _ h0 hM
  | .noQuiesce => execNoQuiesce_stays _ h0 (Field.within hM (by decide))
  | .bankSwitch _ => execBankSwitch_stays _ _ h0 (Field.within hM (by decide))
  | .bankConfirm _ => execBankConfirm_stays _ _ h0 (Field.within hM (by decide))
  | .confirmLost _ => execConfirmLost_stays _ _ h0 (Field.within hM (by decide))
  | .olcCompletion => execOlcCompletion_stays _ h0 (Field.within hM (by decide))
  | .cutTideReceive _ => execCutTideReceive_stays _ _ h0 (Field.within hM (by decide))
  | .standbyVoteReceive _ _ => execStandbyVoteReceive_stays _ _ _ h0 (Field.within hM (by decide))
  | .standbyVoteLate => execStandbyVoteLate_stays _ h0 (Field.within hM (by decide))
  | .partnerCommitToken _ => execPartnerCommitToken_stays _ _ h0 (Field.within hM (by decide))
  | .commitTokenMissing => execCommitTokenMissing_stays _ h0 (Field.within hM (by decide))
  | .resetRelease _ _ _ => execResetRelease_stays _ _ _ _ h0 (Field.within hM (by decide))
  | .timeWaitExpiry => execTimeWaitExpiry_stays _ h0 hM
  | .ntmLockWrite _ _ => State.setCmd_stays _ _ _ _ h0 hM
  | .startConfirm => execStartConfirm_stays _ h0 (Field.within hM (by decide))
  | .strColdNext _ => State.setCmd_stays _ _ _ _ h0 hM
  | .strRestartCold _ => State.setCmd_stays _ _ _ _ h0 hM
  | .strRestartWarm _ => State.setCmd_stays _ _ _ _ h0 hM
  | .strClearFails _ => State.setCmd_stays _ _ _ _ h0 hM
  | .secProvision _ _ => execSecProvision_stays _ _ _ h0 hM
  | .ebbTrainLaunch => execEbbTrainLaunch_stays _ h0 (Field.within hM (by decide))
  | .armedSchedule => execArmedSchedule_stays _ h0 (Field.within hM (by decide))
  | .ebbFrameReceive _ _ => execEbbFrameReceive_stays _ _ _ h0 (Field.within hM (by decide))
  | .slackFrameReceive _ _ => execSlackFrameReceive_stays _ _ _ h0 (Field.within hM (by decide))
  | .transitFrame _ _ _ => execTransitFrame_stays _ _ _ _ h0 (Field.within hM (by decide))
  | .eventFrame _ _ => execEventFrame_stays _ _ _ h0 (Field.within hM (by decide))
  | .serviceRoute _ _ _ _ _ _ _ => execServiceRoute_stays _ _ _ _ _ _ _ _ h0 (Field.within hM (by decide))
  | .serviceResponse _ _ _ _ _ => execServiceResponse_stays _ _ _ _ _ _ h0 (Field.within hM (by decide))
  | .routeTimeout _ => execRouteTimeout_stays _ _ h0 (Field.within hM (by decide))
  | .relayedServiceRequest _ _ _ _ _ _ _ _ _ _ => execRelayedServiceRequest_stays _ _ _ _ _ _ _ _ _ _ _ h0 (Field.within hM (by decide))
  | .arpRequest _ _ _ => execArpRequest_stays _ _ _ _ h0 (Field.within hM (by decide))
  | .icmpEcho _ _ _ _ => execIcmpEcho_stays _ _ _ _ _ h0 (Field.within hM (by decide))
  | .hnwScan _ => State.setCmd_stays _ _ _ _ h0 hM
  | .hnwConfigure _ => State.setCmd_stays _ _ _ _ h0 hM
  | .hnwCmdDone => execHnwCmdDone_stays _ h0 (Field.within hM (by decide))
  | .positionProbe _ => execPositionProbe_stays _ _ h0 (Field.within hM (by decide))
  | .portLinkChange _ _ _ _ => execPortLinkChange_stays _ _ _ _ _ h0 (Field.within hM (by decide))
  | .timeToken => execTimeToken_stays _ h0 (Field.within hM (by decide))
  | .ntmIncrWrite _ _ => State.setCmd_stays _ _ _ _ h0 hM
  | .ntmSet _ _ => execNtmSet_stays _ _ _ h0 hM
  | .ntmOffset _ _ => State.setCmd_stays _ _ _ _ h0 hM
  | .ntmOffsetForce _ _ => State.setCmd_stays _ _ _ _ h0 hM
  | .ntmNsecRead _ => execNtmNsecRead_stays _ _ h0 (Field.within hM (by decide))
  | .ptpReceive _ _ => execPtpReceive_stays _ _ _ h0 (Field.within hM (by decide))
  | .ptpRxRead _ => execPtpRxRead_stays _ _ h0 hM
  | .ptpTxSubmit _ _ => execPtpTxSubmit_stays _ _ _ h0 hM
  | .txStampRead _ => execTxStampRead_stays _ _ h0 hM
  | .frameLaunch _ => execFrameLaunch_stays _ _ h0 (Field.within hM (by decide))
  | .launchMiss _ => execLaunchMiss_stays _ _ h0 (Field.within hM (by decide))
  | .gateChange _ => execGateChange_stays _ _ h0 (Field.within hM (by decide))
  | .gclActivate _ _ _ => State.setCmd_stays _ _ _ _ h0 hM
  | .mooringStatusSend => execMooringStatusSend_stays _ h0 (Field.within hM (by decide))
  | .mooringStatusReceive _ _ => execMooringStatusReceive_stays _ _ _ h0 (Field.within hM (by decide))
  | .peerAbsent => execPeerAbsent_stays _ h0 (Field.within hM (by decide))
  | .mooringLinkDown _ => execMooringLinkDown_stays _ _ h0 (Field.within hM (by decide))
  | .mooringRetrain _ _ => execMooringRetrain_stays _ _ _ h0 (Field.within hM (by decide))
  | .digestReceive _ _ _ => execDigestReceive_stays _ _ _ _ h0 (Field.within hM (by decide))
  | .partitionReceive _ _ _ => execPartitionReceive_stays _ _ _ _ h0 (Field.within hM (by decide))
  | .agreedReceive _ => execAgreedReceive_stays _ _ h0 (Field.within hM (by decide))
  | .dictationReceive _ => execDictationReceive_stays _ _ h0 (Field.within hM (by decide))
  | .replicatedWriteReceive _ => execReplicatedWriteReceive_stays _ _ h0 hM
  | .outputDigestReceive _ _ _ => execOutputDigestReceive_stays _ _ _ _ h0 (Field.within hM (by decide))
  | .grantPairChange _ _ => execGrantPairChange_stays _ _ _ h0 (Field.within hM (by decide))
  | .witnessStart => execWitnessStart_stays _ h0 (Field.within hM (by decide))
  | .witnessHbTimeout _ => execWitnessHbTimeout_stays _ _ h0 (Field.within hM (by decide))
  | .witnessClaimAccept _ _ => execWitnessClaimAccept_stays _ _ _ h0 (Field.within hM (by decide))
  | .witnessGrantDrive => execWitnessGrantDrive_stays _ h0 (Field.within hM (by decide))
  | .witnessFault => execWitnessFault_stays _ h0 (Field.within hM (by decide))
  | .redLeave _ => State.setCmd_stays _ _ _ _ h0 hM
  | .redResync _ => State.setCmd_stays _ _ _ _ h0 hM
  | .redSwitchover _ => State.setCmd_stays _ _ _ _ h0 hM
  | .redDrill _ => State.setCmd_stays _ _ _ _ h0 hM
  | .resyncPassEnd _ => execResyncPassEnd_stays _ _ h0 (Field.within hM (by decide))
  | .swapTokenReceive _ => execSwapTokenReceive_stays _ _ h0 (Field.within hM (by decide))
  | .switchoverDecide => execSwitchoverDecide_stays _ h0 (Field.within hM (by decide))
  | .drillTimer => execDrillTimer_stays _ h0 (Field.within hM (by decide))
  | .returnHoldoffExpiry => execReturnHoldoffExpiry_stays _ h0 (Field.within hM (by decide))
  | .inputEdgeAccept _ _ _ => execInputEdgeAccept_stays _ _ _ _ h0 (Field.within hM (by decide))
  | .c1Status _ => execC1Status_stays _ _ h0 (Field.within hM (by decide))
  | .diagSettleEnd _ => execDiagSettleEnd_stays _ _ h0 (Field.within hM (by decide))
  | .fieldSupplyChange _ _ => execFieldSupplyChange_stays _ _ _ h0 (Field.within hM (by decide))
  | .fieldConfigMessage _ _ => execFieldConfigMessage_stays _ _ _ h0 (Field.within hM (by decide))
  | .fieldRefresh => execFieldRefresh_stays _ h0 (Field.within hM (by decide))
  | .fieldPark => execFieldPark_stays _ h0 (Field.within hM (by decide))
  | .fieldRecover => execFieldRecover_stays _ h0 (Field.within hM (by decide))
  | .silenceExpiry => execSilenceExpiry_stays _ h0 (Field.within hM (by decide))
  | .fioPark _ => State.setCmd_stays _ _ _ _ h0 hM
  | .fioRecover _ => State.setCmd_stays _ _ _ _ h0 hM
  | .fioClearOvl _ => State.setCmd_stays _ _ _ _ h0 hM
  | .ovlSwitchOff _ => execOvlSwitchOff_stays _ _ h0 (Field.within hM (by decide))
  | .thermalShutdown _ => execThermalShutdown_stays _ _ h0 (Field.within hM (by decide))
  | .thermalRelease _ => execThermalRelease_stays _ _ h0 (Field.within hM (by decide))
  | .ovlRetry _ => execOvlRetry_stays _ _ h0 (Field.within hM (by decide))
  | .edgeLogRead _ => execEdgeLogRead_stays _ _ h0 hM
  | .mbcStart _ _ => State.setCmd_stays _ _ _ _ h0 hM
  | .busIdleDetect _ => execBusIdleDetect_stays _ _ h0 (Field.within hM (by decide))
  | .mbcStop _ _ => State.setCmd_stays _ _ _ _ h0 hM
  | .mbcRecover _ _ => State.setCmd_stays _ _ _ _ h0 hM
  | .busRecovered _ => execBusRecovered_stays _ _ h0 (Field.within hM (by decide))
  | .mbcUnlock _ _ => State.setCmd_stays _ _ _ _ h0 hM
  | .canFrameReceive _ _ _ => execCanFrameReceive_stays _ _ _ _ h0 hM
  | .sdoRequest _ _ => execSdoRequest_stays _ _ _ h0 hM
  | .sdoTimeout _ => execSdoTimeout_stays _ _ h0 (Field.within hM (by decide))
  | .rdPop _ _ _ => State.setCmd_stays _ _ _ _ h0 hM
  | .rdLastWordRead _ _ => execRdLastWordRead_stays _ _ _ h0 (Field.within hM (by decide))
  | .txReq _ _ _ => State.setCmd_stays _ _ _ _ h0 hM
  | .txCancel _ _ _ => State.setCmd_stays _ _ _ _ h0 hM
  | .txStartOfFrame _ => execTxStartOfFrame_stays _ _ h0 (Field.within hM (by decide))
  | .txAttemptEnd _ _ => execTxAttemptEnd_stays _ _ _ h0 hM
  | .dmaStart _ _ => State.setCmd_stays _ _ _ _ h0 hM
  | .dmaStop _ _ => State.setCmd_stays _ _ _ _ h0 hM
  | .dmaPause _ _ => State.setCmd_stays _ _ _ _ h0 hM
  | .dmaResume _ _ => State.setCmd_stays _ _ _ _ h0 hM
  | .dmaAbort _ _ => State.setCmd_stays _ _ _ _ h0 hM
  | .dmaClear _ _ => State.setCmd_stays _ _ _ _ h0 hM
  | .dmaMove _ => execDmaMove_stays _ _ h0 (Field.within hM (by decide))
  | .dmaLoop _ => execDmaLoop_stays _ _ h0 (Field.within hM (by decide))
  | .dmaWait _ => execDmaWait_stays _ _ h0 (Field.within hM (by decide))
  | .dmaSignal _ => execDmaSignal_stays _ _ h0 (Field.within hM (by decide))
  | .dmaFence _ => execDmaFence_stays _ _ h0 (Field.within hM (by decide))
  | .dmaEnd _ => execDmaEnd_stays _ _ h0 (Field.within hM (by decide))
  | .dmaReadbackDone _ => execDmaReadbackDone_stays _ _ h0 (Field.within hM (by decide))
  | .dmaWaitRelease _ => execDmaWaitRelease_stays _ _ h0 (Field.within hM (by decide))
  | .dmaWaitTimeout _ => execDmaWaitTimeout_stays _ _ h0 (Field.within hM (by decide))
  | .dmaPauseDrained _ => execDmaPauseDrained_stays _ _ h0 (Field.within hM (by decide))
  | .dmaEventSet _ _ => State.setCmd_stays _ _ _ _ h0 hM
  | .bdrTxnBegin _ => State.setCmd_stays _ _ _ _ h0 hM
  | .bdrTxnCommit _ => State.setCmd_stays _ _ _ _ h0 hM
  | .bdrTxnDiscard _ => State.setCmd_stays _ _ _ _ h0 hM
  | .bdrCommitApplied => execBdrCommitApplied_stays _ h0 (Field.within hM (by decide))
  | .bdrUnlock _ _ => State.setCmd_stays _ _ _ _ h0 hM
  | .bdrLock _ _ => State.setCmd_stays _ _ _ _ h0 hM
  | .recDataRead _ => execRecDataRead_stays _ _ h0 hM
  | .recDataWrite _ _ => execRecDataWrite_stays _ _ _ h0 hM
  | .inhibitChange _ => execInhibitChange_stays _ _ h0 (Field.within hM (by decide))
  | .wearSave => execWearSave_stays _ h0 (Field.within hM (by decide))
  | .bkPowerUp _ => execBkPowerUp_stays _ _ h0 (Field.within hM (by decide))
  | .calCountWrite _ _ => State.setCmd_stays _ _ _ _ h0 hM
  | .calShiftWrite _ _ => State.setCmd_stays _ _ _ _ h0 hM
  | .shiftEnd => execShiftEnd_stays _ h0 (Field.within hM (by decide))
  | .calEnd => execCalEnd_stays _ h0 (Field.within hM (by decide))
  | .convDateWrite _ _ => State.setCmd_stays _ _ _ _ h0 hM
  | .convTicksWrite _ _ => State.setCmd_stays _ _ _ _ h0 hM
  | .alarmArm _ _ _ => State.setCmd_stays _ _ _ _ h0 hM
  | .alarmFire _ => execAlarmFire_stays _ _ h0 hM
  | .calSupplyOn _ => State.setCmd_stays _ _ _ _ h0 hM
  | .calSupplyOff _ => State.setCmd_stays _ _ _ _ h0 hM
  | .wake => execWake_stays _ h0 hM
  | .rsvTest _ => State.setCmd_stays _ _ _ _ h0 hM
  | .rsvReread _ => State.setCmd_stays _ _ _ _ h0 hM
  | .rsvTestInterval => execRsvTestInterval_stays _ h0 (Field.within hM (by decide))
  | .rsvTestEnd _ _ => execRsvTestEnd_stays _ _ _ h0 (Field.within hM (by decide))
  | .rsvTestAbort => execRsvTestAbort_stays _ h0 (Field.within hM (by decide))
  | .stressUpdate _ _ => execStressUpdate_stays _ _ _ h0 (Field.within hM (by decide))
  | .stressSave => execStressSave_stays _ h0 (Field.within hM (by decide))
  | .wdgKey _ _ _ => State.setCmd_stays _ _ _ _ h0 hM
  | .wdgCfgWrite _ _ _ _ => State.setCmd_stays _ _ _ _ h0 hM
  | .wdgExpiry _ => execWdgExpiry_stays _ _ h0 hM
  | .clockLoss _ => execClockLoss_stays _ _ h0 hM
  | .clockRestored _ => execClockRestored_stays _ _ h0 (Field.within hM (by decide))
  | .chkPeriodWrite _ _ _ => State.setCmd_stays _ _ _ _ h0 hM
  | .checkinArrival => execCheckinArrival_stays _ h0 (Field.within hM (by decide))
  | .checkinPeriodEnd => execCheckinPeriodEnd_stays _ h0 (Field.within hM (by decide))
  | .rawRecord => execRawRecord_stays _ h0 hM
  | .foldClose => execFoldClose_stays _ h0 (Field.within hM (by decide))
  | .notifyGapEnd => execNotifyGapEnd_stays _ h0 (Field.within hM (by decide))
  | .fltClearOut _ => State.setCmd_stays _ _ _ _ h0 hM
  | .fltFlush _ => State.setCmd_stays _ _ _ _ h0 hM
  | .fltRaise _ _ => State.setCmd_stays _ _ _ _ h0 hM
  | .linkDown _ => execLinkDown_stays _ _ h0 hM
  | .bwWindowEnd => execBwWindowEnd_stays _ h0 (Field.within hM (by decide))
  | .bwWindowWrite _ _ => State.setCmd_stays _ _ _ _ h0 hM
  | .tempSample _ => execTempSample_stays _ _ h0 (Field.within hM (by decide))
  | .lifeSample => execLifeSample_stays _ h0 (Field.within hM (by decide))
  | .staRecordRead _ => execStaRecordRead_stays _ _ h0 hM
  | .staFreeze _ => State.setCmd_stays _ _ _ _ h0 hM
  | .staThaw _ => State.setCmd_stays _ _ _ _ h0 hM
  | .freezeMaxExpiry => execFreezeMaxExpiry_stays _ h0 (Field.within hM (by decide))
  | .staRaise _ _ => State.setCmd_stays _ _ _ _ h0 hM
  | .snpFire _ => State.setCmd_stays _ _ _ _ h0 hM
  | .snpRelease _ => State.setCmd_stays _ _ _ _ h0 hM
  | .snpReleaseAll _ => State.setCmd_stays _ _ _ _ h0 hM
  | .tmkInEdge => execTmkInEdge_stays _ h0 (Field.within hM (by decide))
  | .snpAtReached => execSnpAtReached_stays _ h0 (Field.within hM (by decide))
  | .tidemarkLatch _ _ => execTidemarkLatch_stays _ _ _ h0 (Field.within hM (by decide))
  | .tidemarkAck _ => execTidemarkAck_stays _ _ h0 (Field.within hM (by decide))
  | .tmkOutEnd => execTmkOutEnd_stays _ h0 (Field.within hM (by decide))
  | .hltTestReq _ _ => State.setCmd_stays _ _ _ _ h0 hM
  | .healthTestSlice _ => execHealthTestSlice_stays _ _ h0 (Field.within hM (by decide))
  | .ageMeasure _ => execAgeMeasure_stays _ _ h0 (Field.within hM (by decide))
  | .pwrDomainOff _ _ => State.setCmd_stays _ _ _ _ h0 hM
  | .pdDrained _ => execPdDrained_stays _ _ h0 (Field.within hM (by decide))
  | .pdDrainTimeout _ => execPdDrainTimeout_stays _ _ h0 (Field.within hM (by decide))
  | .domainOffDone _ => execDomainOffDone_stays _ _ h0 (Field.within hM (by decide))
  | .pwrDomainOn _ _ => State.setCmd_stays _ _ _ _ h0 hM
  | .domainOnDone _ => execDomainOnDone_stays _ _ h0 (Field.within hM (by decide))
  | .pwrReset _ => State.setCmd_stays _ _ _ _ h0 hM
  | .pwrSleep _ => State.setCmd_stays _ _ _ _ h0 hM
  | .coreFreqWrite _ _ _ => State.setCmd_stays _ _ _ _ h0 hM
  | .powerOn => execPowerOn_stays _ h0 hM
  | .resetPin _ => execResetPin_stays _ _ h0 hM
  | .debugReset => execDebugReset_stays _ h0 hM
  | .brownout _ => execBrownout_stays _ _ h0 hM
  | .refclkLoss => execRefclkLoss_stays _ h0 (Field.within hM (by decide))
  | .sdclkLoss => execSdclkLoss_stays _ h0 (Field.within hM (by decide))
  | .dieLinkRetrained _ => execDieLinkRetrained_stays _ _ h0 (Field.within hM (by decide))
  | .regionLockoutEnd _ => execRegionLockoutEnd_stays _ _ h0 (Field.within hM (by decide))
  | .calTick => execCalTick_stays _ h0 hM
  | .backupSupplyChange _ => execBackupSupplyChange_stays _ _ h0 (Field.within hM (by decide))
  | .refclkRestored => execRefclkRestored_stays _ h0 (Field.within hM (by decide))
  | .sdclkRestored => execSdclkRestored_stays _ h0 (Field.within hM (by decide))
  | .witnessHbReturn _ => execWitnessHbReturn_stays _ _ h0 (Field.within hM (by decide))
  | .scanNoAnswer _ => execScanNoAnswer_stays _ _ h0 (Field.within hM (by decide))
  | .relayedServiceResponse _ _ _ _ => execRelayedServiceResponse_stays _ _ _ _ _ h0 (Field.within hM (by decide))
  | .resyncDataReceive _ => execResyncDataReceive_stays _ _ h0 (Field.within hM (by decide))
  | .partnerPrepareReceive _ => execPartnerPrepareReceive_stays _ _ h0 (Field.within hM (by decide))
  | .partnerDiscardToken => execPartnerDiscardToken_stays _ h0 (Field.within hM (by decide))
  | .canRxError _ _ => execCanRxError_stays _ _ _ h0 (Field.within hM (by decide))

end

end Sys2Proof.Machine
end


section
/-! PROOF. The invariants of every step: memory canonical, and a Lighthouse that drives VALID to one partner at most. -/

namespace Sys2Proof.Machine

theorem step_stays {s t : State} (h : step s = .next t) : t.Stays Field.all s := by
  unfold step at h
  split at h
  · cases h
    exact State.tick_stays _ (.refl s _) (by decide)
  · next c rest _ =>
    have hx := exec_stays c (State.with_pending rest (.refl s Field.all) (by decide)) (List.Subset.refl _)
    rw [h] at hx
    exact hx

/-- Settles O58: every operation that writes memory keeps it canonical, whatever the rest of the state. -/
theorem stepsKeepMemoryCanonical : Obligations.StepsKeepMemoryCanonical := by
  unfold Obligations.StepsKeepMemoryCanonical
  exact fun _ _ hs h => (step_stays h).canonical hs

/-- Settles O59: the Lighthouse is driven by Wit.drive, which names one holder, or drives VALID to nobody. -/
theorem lighthouseNeverDrivesBoth : Obligations.LighthouseNeverDrivesBoth := by
  unfold Obligations.LighthouseNeverDrivesBoth
  exact fun _ _ hs h => (step_stays h).drives hs

end Sys2Proof.Machine
end


section
/-! PROOF. The interlock: the grant as a partner takes it from its pair, and as the Lighthouse gives it (R335, R345 to R349). -/

namespace Sys2Proof.Machine

theorem State.Stays.keeps {s t : State} {fs : List Field} (h : t.Stays fs s) (f : Field) (hf : f ∉ fs) : f.Same s t :=
  (h.same f).resolve_left hf

/-! ### The grant, at a partner -/

/-- What a partner that becomes active changes once it has taken its role. -/
def afterActive : List Field :=
  [.objs, .mem, .sess, .ctxs, .cores, .tds, .tasks, .img, .olc, .str, .hnw, .ntm, .sent, .own, .red, .fio, .mbc, .dma, .bdr, .flt,
    .sta, .fresh]

theorem State.becomeActive_after (s : State) : s.becomeActive.Stays afterActive (s.setRole .active 0) := by
  have h0 := State.Stays.refl (s.setRole .active 0) afterActive
  have hM : afterActive ⊆ afterActive := List.Subset.refl _
  unfold State.becomeActive
  generalize s.setRole .active 0 = a at h0 ⊢
  repeat' first
    | with_reducible assumption | with_reducible exact List.Subset.trans (by decide) hM | intro _
    | (extract_lets +onlyGivenNames u; refine cut_goal (P := State.Stays u afterActive a) ?_ fun _ => ?_; (on_goal 2 => clear_value u); (on_goal 1 => (unfold u; clear u)))
    | (extract_lets +onlyGivenNames u; clear_value u) | with_reducible apply ite_stays
    | with_reducible apply State.changeLost_stays | with_reducible apply State.mbEnded_stays
    | with_reducible apply State.ownUnmatched_stays | with_reducible apply State.incOb_stays
    | with_reducible apply State.takeover_stays | with_reducible apply State.setOb_stays
    | with_reducible apply State.lateRefresh_stays
    | with_reducible refine State.setRed_stays _ ?_ (by refine ⟨?_, ?_, ?_, ?_, ?_, ?_, ?_, ?_, ?_⟩ <;> first | exact .inr rfl | exact .inl (Field.mem_of hM (by decide))) rfl
    | dsimp only | with_reducible refine stays_of_eq (by assumption) ?_ | split

theorem State.loseGrant_grant (s : State) : s.loseGrant.red.grant = false := by
  unfold State.loseGrant
  split
  · assumption
  · extract_lets planned u
    have hu : u.red.grant = false := by
      have hs := State.sendPark_stays _ (.refl (s.setRed fun r => { r with
        grant := false
        frozen := false
        changeTide := if r.role = .active then some (s.ob K.TDS_TIDE) else r.changeTide }) [.fio]) (List.Subset.refl _)
      exact congrArg Prod.fst (hs.keeps .grant (by decide))
    clear_value u planned
    have hk : ∀ v : State, v.Stays [.role, .red] u → v.red.grant = false := fun v hv =>
      (congrArg Prod.fst (hv.keeps .grant (by decide))).trans hu
    repeat' split
    · exact hk _ (State.setRole_stays _ _ _ (.refl u _) (by decide))
    · exact hk _ (State.toUnsynced_stays _ _ (.refl u _) (by decide))
    · exact hk _ (State.reclaim_stays _ (.refl u _) (by decide))

theorem State.startPair_red (s : State) : s.startPair.red.role = s.red.role ∧ s.startPair.red.pair = s.red.pair ∧
    s.startPair.red.grant = s.red.grant ∧ s.startPair.red.fenced = s.red.fenced := by
  have h := State.startPair_stays _ (.refl s afterActive) (by decide)
  have hr := h.keeps .role (by decide)
  have hg := h.keeps .grant (by decide)
  exact ⟨congrArg Prod.fst hr, h.keeps .pair (by decide), congrArg Prod.fst hg, congrArg (·.2.2) hg⟩

/-- What follows a partner's taking of the active role leaves role, pair and grant. -/
theorem State.active_of_stays {s t : State} (h : t.Stays afterActive (s.setRole .active 0)) (hp : s.red.pair = .valid)
    (hg : s.red.grant = true) : t.red.pair = .valid ∧ t.red.grant = true ∧ t.red.role = .active := by
  have hr := h.keeps .role (by decide)
  have hq := h.keeps .grant (by decide)
  have hk : t.red.pair = s.red.pair := h.keeps .pair (by decide)
  exact ⟨hk.trans hp, (congrArg Prod.fst hq).trans hg, congrArg Prod.fst hr⟩

theorem State.gainGrant_active (s : State) (hp : s.red.pair = .valid)
    (hr : (s.red.role = .joining ∧ (s.red.peer = false ∨ s.red.peerSt.role ≠ 5) ∧ s.red.reason ≠ 1 ∧ s.red.reason ≠ 2) ∨
      s.red.role = .standby) :
    s.gainGrant.red.pair = .valid ∧ s.gainGrant.red.grant = true ∧ s.gainGrant.red.role = .active := by
  unfold State.gainGrant
  extract_lets u
  have hu : u.red.pair = .valid := hp
  have hg : u.red.grant = true := rfl
  obtain ⟨hj, hpeer, h1, h2⟩ | hs := hr
  · have hj' : u.red.role = .joining := hj
    have hc : (u.red.peer && decide (u.red.peerSt.role = 5)) = false := by
      have hpeer' : u.red.peer = false ∨ u.red.peerSt.role ≠ 5 := hpeer
      obtain h | h := hpeer' <;> simp [h]
    have hjoin : u.joinGrant = u.setRole .active 0 := if_pos ⟨hj', hg, hc, h1, h2⟩
    rw [hj', hjoin]
    exact State.active_of_stays (State.reclaim_stays _ (.refl _ _) (by decide)) hu hg
  · have hs' : u.red.role = .standby := hs
    rw [hs']
    exact State.active_of_stays (State.reclaim_stays _ (State.becomeActive_after u) (by decide)) hu hg

theorem State.grantPair_gains {s : State} (hm : s.redMode = 1) (hv : s.red.pair ≠ .valid)
    (hpeer : s.red.peer = false ∨ s.red.peerSt.grant = false)
    (hr : (s.red.role = .joining ∧ (s.red.peer = false ∨ s.red.peerSt.role ≠ 5) ∧ s.red.reason ≠ 1 ∧ s.red.reason ≠ 2) ∨
      s.red.role = .standby) :
    Completes (.grantPairChange true false) s fun t => t.red.pair = .valid ∧ t.red.grant = true ∧ t.red.role = .active := by
  refine ⟨_, rfl, ?_⟩
  have hacc : s.pairAccept .valid = (s.setRed fun r => { r with pair := .valid }).gainGrant := by
    have hn : ¬ (s.redMode ≠ 1 ∨ s.red.pair = .valid) := by simp [hm, hv]
    have hg : ¬ (s.red.peer && s.red.peerSt.grant) = true := by obtain h | h := hpeer <;> simp [h]
    exact (if_neg hn).trans (if_neg hg)
  obtain ⟨hrole, hpair, hgrant, -⟩ := State.startPair_red (s.pairAccept .valid)
  have h := State.gainGrant_active (s.setRed fun r => { r with pair := .valid }) rfl hr
  rw [← hacc, ← hrole, ← hpair, ← hgrant] at h
  exact h

theorem State.grantPair_fences {s : State} (hm : s.redMode = 1) (hv : s.red.pair ≠ .valid) (hp : s.red.peer = true)
    (hg : s.red.peerSt.grant = true) :
    Completes (.grantPairChange true false) s fun t => t.red.pair = .valid ∧ t.red.grant = false ∧ t.red.fenced = true := by
  refine ⟨_, rfl, ?_⟩
  obtain ⟨-, hpair, hgrant, hfenced⟩ := State.startPair_red (s.pairAccept .valid)
  let u := (s.setRed fun r => { r with pair := .valid }).loseGrant
  have hacc : s.pairAccept .valid = ((u.setRed fun r => { r with fenced := true }).reclaim).raise 0x13 0xFFFF 0xFFFF 0
      (s.ob K.TDS_TIDE) 0 := by
    have hn : ¬ (s.redMode ≠ 1 ∨ s.red.pair = .valid) := by simp [hm, hv]
    have hc : (s.red.peer && s.red.peerSt.grant) = true := by simp [hp, hg]
    exact (if_neg hn).trans (if_pos hc)
  have hu : u.red.pair = .valid :=
    (State.loseGrant_stays _ (.refl (s.setRed fun r => { r with pair := .valid }) [.role, .grant, .red, .fio]) (by decide)).keeps
      .pair (by decide)
  have hk : u.red.grant = false := State.loseGrant_grant _
  clear_value u
  rw [hacc] at hpair hgrant hfenced
  have h := State.raise_stays _ 0x13 0xFFFF 0xFFFF 0 (s.ob K.TDS_TIDE) 0
    (State.reclaim_stays _ (.refl (u.setRed fun r => { r with fenced := true }) [.red, .flt]) (by decide)) (by decide)
  have hq := h.keeps .grant (by decide)
  have hpr : _ = u.red.pair := h.keeps .pair (by decide)
  have hgr : _ = u.red.grant := congrArg Prod.fst hq
  rw [← hacc] at hpair hgrant hfenced hpr hgr hq
  exact ⟨hpair.trans (hpr.trans hu), hgrant.trans (hgr.trans hk), hfenced.trans (congrArg (·.2.2) hq)⟩

theorem State.grantPair_denied {s : State} (hm : s.redMode = 1) (hv : s.red.pair ≠ .denied) :
    Completes (.grantPairChange false true) s fun t => t.red.pair = .denied ∧ t.red.grant = false := by
  refine ⟨_, rfl, ?_⟩
  obtain ⟨-, hpair, hgrant, -⟩ := State.startPair_red (s.pairAccept .denied)
  let u := (s.setRed fun r => { r with pair := .denied }).setRed fun r => { r with fenced := false }
  have hacc : s.pairAccept .denied = u.loseGrant := if_neg (by simp [hm, hv])
  have hk : u.loseGrant.red.pair = u.red.pair :=
    (State.loseGrant_stays _ (.refl u [.role, .grant, .red, .fio]) (by decide)).keeps .pair (by decide)
  rw [hacc] at hpair hgrant
  rw [← hacc] at hpair hgrant hk
  exact ⟨hpair.trans hk, hgrant.trans (hacc ▸ State.loseGrant_grant u)⟩

/-! ### The Lighthouse -/

theorem State.redMode_of_witnesses {s : State} (h : s.witnesses = true) : s.redMode = 2 ∧ s.red.role = .witness := by
  simpa [State.witnesses] using h

theorem State.redMode_setWit (s : State) (f : Wit → Wit) : (s.setWit f).redMode = s.redMode := rfl

/-- HOLDER after the table has been followed, in what else the Lighthouse holds then (R347). -/
theorem State.witEval_wit {s : State} (hm : s.redMode = 2) (hs : s.red.wit.started = true) (hf : s.red.wit.fault = false) :
    s.witEval.red.wit.holder = s.red.wit.next s.redPref ∧ s.witEval.red.wit.aliveA = s.red.wit.aliveA ∧
      s.witEval.red.wit.aliveB = s.red.wit.aliveB ∧ s.witEval.red.wit.claimA = s.red.wit.claimA ∧
      s.witEval.red.wit.claimB = s.red.wit.claimB := by
  have hn : ¬ (s.redMode ≠ 2 ∨ s.red.wit.started = false ∨ s.red.wit.fault = true) := by simp [hm, hs, hf]
  unfold State.witEval
  rw [if_neg hn]
  dsimp only
  split
  · next h => exact ⟨h.symm, rfl, rfl, rfl, rfl⟩
  · split <;> exact ⟨rfl, rfl, rfl, rfl, rfl⟩

/-- The next HOLDER takes from the Lighthouse who holds, who is alive and who claims. -/
theorem Wit.next_congr {v w : Wit} (pref : Nat) (hh : v.holder = w.holder) (ha : v.aliveA = w.aliveA) (hb : v.aliveB = w.aliveB)
    (hca : v.claimA = w.claimA) (hcb : v.claimB = w.claimB) : v.next pref = w.next pref := by
  have hl : v.alive = w.alive := by funext h; cases h <;> simp [Wit.alive, ha, hb]
  have hc : v.claims = w.claims := by funext h; cases h <;> simp [Wit.claims, hca, hcb]
  unfold Wit.next Wit.asks
  rw [hh, hl, hc]

/-- A change that sets who is alive and who claims, and HOLDER after it. -/
theorem State.setWit_witEval {s : State} (f : Wit → Wit) (hm : s.redMode = 2) (hs : s.red.wit.started = true)
    (hf : s.red.wit.fault = false) (hk : ∀ w, (f w).started = w.started ∧ (f w).fault = w.fault ∧ (f w).holder = w.holder) :
    let t := (s.setWit f).witEval
    t.red.wit.aliveA = (f s.red.wit).aliveA ∧ t.red.wit.aliveB = (f s.red.wit).aliveB ∧
      t.red.wit.claimA = (f s.red.wit).claimA ∧ t.red.wit.claimB = (f s.red.wit).claimB ∧
      t.red.wit.holder = ({ t.red.wit with holder := s.red.wit.holder } : Wit).next s.redPref := by
  obtain ⟨h1, h2, h3⟩ := hk s.red.wit
  obtain ⟨hh, ha, hb, hca, hcb⟩ := State.witEval_wit (s := s.setWit f) hm (h1.trans hs) (h2.trans hf)
  exact ⟨ha, hb, hca, hcb, hh.trans (Wit.next_congr _ h3 ha.symm hb.symm hca.symm hcb.symm)⟩

theorem State.witEval_started {s : State} (h : s.red.wit.started = true) : s.witEval.red.wit.started = true := by
  unfold State.witEval
  dsimp only
  repeat' split
  all_goals exact h

theorem Wit.drive_valid (w : Wit) :
    (w.drive.pairA = .valid ↔ w.holder = .a) ∧ (w.drive.pairB = .valid ↔ w.holder = .b) := by
  unfold Wit.drive
  cases w.holder <;> simp

theorem Wit.next_of_asks (w : Wit) (pref : Nat) (hn : w.holder ≠ .none) (ha : w.asks w.holder = true) :
    w.next pref = w.holder := by
  unfold Wit.next
  unfold Wit.asks at ha
  cases hh : w.holder with
  | none => exact absurd hh hn
  | a | b =>
    rw [hh] at ha
    exact if_pos ha

theorem Wit.asks_of_next (w : Wit) (pref : Nat) (hc : w.next pref ≠ w.holder) : w.asks (w.next pref) = true := by
  unfold Wit.next at *
  cases hh : w.holder with
  | none =>
    rw [hh] at hc
    revert hc
    dsimp only
    cases ha : w.asks .a <;> cases hb : w.asks .b <;> simp [ha, hb]
    split <;> exact fun _ => by assumption
  | a | b =>
    rw [hh] at hc
    revert hc
    dsimp only
    split
    · exact fun h => absurd rfl h
    · split
      · exact fun _ => by assumption
      · exact fun h => absurd rfl h

/-- Settles O60. -/
theorem interlockAndWitness : Obligations.InterlockAndWitness := by
  unfold Obligations.InterlockAndWitness
  refine ⟨fun s hm _ => ⟨fun hv hp hr => State.grantPair_gains hm hv hp hr, fun hv hp hg => State.grantPair_fences hm hv hp hg,
    fun hv => State.grantPair_denied hm hv⟩, ⟨?_, ?_, ?_, ?_⟩, fun w pref => ⟨w.next_of_asks pref, w.asks_of_next pref⟩⟩
  · intro s hw hs
    obtain ⟨hm, hr⟩ := State.redMode_of_witnesses hw
    refine ⟨_, rfl, ?_⟩
    unfold State.witStart
    rw [if_pos ⟨hm, hr, hs⟩]
    exact State.witEval_started rfl
  · intro s p hw hs hf
    obtain ⟨hm, -⟩ := State.redMode_of_witnesses hw
    refine ⟨⟨_, rfl, ?_⟩, ⟨_, rfl, ?_⟩, fun b => ⟨_, rfl, ?_⟩⟩ <;> rw [if_pos hw]
    · obtain ⟨ha, hb, -, -, hh⟩ := State.setWit_witEval (fun w => { w with
        aliveA := w.aliveA && decide (p ≠ 0)
        aliveB := w.aliveB && decide (p ≠ 1) }) hm hs hf fun _ => ⟨rfl, rfl, rfl⟩
      exact ⟨ha, hb, hh⟩
    · obtain ⟨ha, hb, -, -, hh⟩ := State.setWit_witEval (fun w => { w with
        aliveA := w.aliveA || decide (p = 0)
        aliveB := w.aliveB || decide (p = 1) }) hm hs hf fun _ => ⟨rfl, rfl, rfl⟩
      exact ⟨ha, hb, hh⟩
    · obtain ⟨-, -, hca, hcb, hh⟩ := State.setWit_witEval (fun w => { w with
        claimA := if p = 0 then b else w.claimA
        claimB := if p = 1 then b else w.claimB }) hm hs hf fun _ => ⟨rfl, rfl, rfl⟩
      exact ⟨hca, hcb, hh⟩
  · intro s hw hmv hf
    refine ⟨_, rfl, ?_⟩
    rw [if_pos hw]
    have hd : s.witDrive = s.setWit Wit.drive := if_pos (by simp [hmv, hf])
    rw [hd]
    exact Wit.drive_valid _
  · intro s hw hf
    obtain ⟨hm, hr⟩ := State.redMode_of_witnesses hw
    refine ⟨_, rfl, ?_⟩
    unfold State.witFault
    rw [if_pos ⟨hm, hr, hf⟩]
    exact ⟨rfl, rfl, rfl⟩

end Sys2Proof.Machine
end


section
/-! PROOF. What events and accepted commands leave alone: refuted, since DMA.CMD's number of a channel is not bounded there. -/

namespace Sys2Proof.Machine

/-- The channel whose DMA.CMD would have the number of STA.REPEAT_GAP: objects are numbered on from DMA.CMD's by one each. -/
def pastChannel : Nat := K.STA_REPEAT_GAP - K.DMA_CMD 1

theorem dmaCmd_pastChannel : K.DMA_CMD (pastChannel + 1) = K.STA_REPEAT_GAP := by decide

theorem dmaPause_pastChannel : (Sys2Proof.Tests.base.setCmd 384 K.STA_REPEAT_GAP 3).ob K.STA_REPEAT_GAP ≠
    Sys2Proof.Tests.base.ob K.STA_REPEAT_GAP := by decide +kernel

/-- Refutes O53: its last clause takes any channel number, so that a PAUSE of channel 0x180102 is an accepted write of 3 to
STA.REPEAT_GAP, which changes that object. -/
theorem not_eventAndCommandFrames : ¬ Obligations.EventAndCommandFrames := by
  unfold Obligations.EventAndCommandFrames
  rintro ⟨-, -, -, -, -, -, -, -, -, -, -, -, hpause⟩
  have ht : Takes Sys2Proof.Tests.base 384 (K.DMA_CMD (pastChannel + 1)) 3 := by
    rw [dmaCmd_pastChannel]
    exact Sys2Proof.Tests.takes_of (by decide +kernel)
  have h := hpause _ _ 384 pastChannel ht rfl
  rw [dmaCmd_pastChannel] at h
  have ho := congrArg State.objs h
  exact dmaPause_pastChannel (State.ob_of_objs ho _)

end Sys2Proof.Machine
end


section
/-! SUPPORT. Accepted commands: what acceptance leaves, and objects through the operations that follow. -/

namespace Sys2Proof.Machine

/-! ### Transactions that wait for the tide to stop -/

theorem State.sess_of_stays {s t : State} {fs : List Field} (h : t.Stays fs s) (hf : Field.sess ∉ fs) : t.sess = s.sess :=
  h.keeps .sess hf

/-- No session waits with writes to be applied where the tide stops. -/
structure State.NoneWaits (s : State) : Prop where
  none : ∀ e ∈ s.sess, (decide (e.2.txn = .pending) && e.2.slack) = false

theorem foldl_snoc_ne_nil {α : Type} (f : List α → α → List α) (hf : ∀ l e, f l e ≠ []) (l : List α) (x : α) (a : List α) :
    (x :: l).foldl f a ≠ [] := by
  induction l generalizing x a with
  | nil => exact hf a x
  | cons y l ih => exact ih y (f a x)

theorem State.txnWaiting_nil_iff (s : State) : s.txnWaiting = [] ↔ s.NoneWaits := by
  unfold State.txnWaiting
  dsimp only
  rw [List.map_eq_nil_iff]
  cases hl : s.sess.filter fun e => decide (e.2.txn = .pending) && e.2.slack with
  | nil =>
    refine iff_of_true rfl ⟨fun e he => ?_⟩
    have := List.filter_eq_nil_iff.1 hl e he
    simpa using this
  | cons x l =>
    refine iff_of_false ?_ ?_
    · rw [List.map_cons]
      exact foldl_snoc_ne_nil _ (fun l e => by simp) _ _ _
    · intro h
      have hx : x ∈ s.sess.filter fun e => decide (e.2.txn = .pending) && e.2.slack := hl ▸ List.mem_cons_self
      obtain ⟨hm, hp⟩ := List.mem_filter.1 hx
      exact Bool.false_ne_true ((h.none x hm).symm.trans hp)

theorem mem_of_mem_minsert {α : Type} {m : SMap α} {k : Nat} {v : α} {e : Nat × α} (h : e ∈ minsert m k v) :
    e = (k, v) ∨ e ∈ m := by
  induction m with
  | nil => exact .inl (List.mem_singleton.1 h)
  | cons c t ih =>
    unfold minsert at h
    split at h
    · exact (List.mem_cons.1 h)
    · split at h
      · exact (List.mem_cons.1 h).imp_right (List.mem_cons_of_mem _)
      · rcases List.mem_cons.1 h with rfl | h
        · exact .inr List.mem_cons_self
        · exact (ih h).imp_right (List.mem_cons_of_mem _)

theorem mem_of_mem_merase {α : Type} {m : SMap α} {k : Nat} {e : Nat × α} (h : e ∈ merase m k) : e ∈ m := by
  induction m with
  | nil => exact h
  | cons c t ih =>
    unfold merase at h
    split at h
    · exact List.mem_cons_of_mem _ (ih h)
    · rcases List.mem_cons.1 h with rfl | h
      · exact List.mem_cons_self
      · exact List.mem_cons_of_mem _ (ih h)

theorem mem_of_mem_mput {α : Type} [DecidableEq α] {d : Nat → α} {m : SMap α} {k : Nat} {v : α} {e : Nat × α}
    (h : e ∈ mput d m k v) : e = (k, v) ∨ e ∈ m := by
  unfold mput at h
  split at h
  · exact .inr (mem_of_mem_merase h)
  · exact mem_of_mem_minsert h

theorem mget_mem {α : Type} (d : Nat → α) (m : SMap α) (k : Nat) : mget d m k = d k ∨ ∃ j, (j, mget d m k) ∈ m := by
  induction m with
  | nil => exact .inl rfl
  | cons c t ih =>
    unfold mget
    split
    · exact .inr ⟨c.1, List.mem_cons_self⟩
    · exact ih.imp_right fun ⟨j, hj⟩ => ⟨j, List.mem_cons_of_mem _ hj⟩

theorem State.NoneWaits.ses {s : State} (h : s.NoneWaits) (n : Nat) : (decide ((s.ses n).txn = .pending) && (s.ses n).slack) = false := by
  rcases mget_mem (fun _ => Ses.init) s.sess n with hd | ⟨j, hj⟩
  · unfold State.ses; rw [hd]; rfl
  · exact h.none _ hj

theorem State.NoneWaits.setSes {s : State} (h : s.NoneWaits) {n : Nat} {x : Ses}
    (hx : (decide (x.txn = .pending) && x.slack) = false) : (s.setSes n x).NoneWaits := by
  refine ⟨fun e he => ?_⟩
  rcases mem_of_mem_mput (d := fun _ => Ses.init) (m := s.sess) (k := n) (v := x) he with rfl | he
  · exact hx
  · exact h.none e he

theorem State.NoneWaits.noteWrite {s : State} (h : s.NoneWaits) (key : Nat) : (s.noteWrite key).NoneWaits := by
  refine ⟨fun e he => ?_⟩
  obtain ⟨a, ha, rfl⟩ := List.mem_map.1 he
  split <;> exact h.none a ha

theorem State.NoneWaits.accepted {s : State} (h : s.NoneWaits) (n key u : Nat) : (s.accepted n key u).NoneWaits := by
  unfold State.accepted
  refine State.NoneWaits.noteWrite ?_ key
  split
  · exact h
  · exact h.setSes (h.ses n)

theorem State.NoneWaits.of_sess {s t : State} (h : s.NoneWaits) (ht : t.sess = s.sess) : t.NoneWaits := by
  refine ⟨?_⟩
  rw [ht]
  exact h.none

theorem State.NoneWaits.settle {s : State} (h : s.NoneWaits) : s.txnSettle = s :=
  State.txnSettle_of_none ((State.txnWaiting_nil_iff s).2 h)

/-! ### Writes that are taken -/

/-- A command that answers t, which is u, leaves what holds of u. -/
theorem completes_of {i : Instr} {s t u : State} {P : State → Prop} (h : exec i s = Host.Outcome.next t) (he : t = u) (hP : P u) :
    Completes i s P := ⟨t, h, he ▸ hP⟩

theorem firstFail_rank (l : List (Nat × Nat)) (a : Nat × Nat) :
    (∀ b ∈ l, rankOf (l.foldl (fun a b => if rankOf b.1 < rankOf a.1 then b else a) a).1 ≤ rankOf b.1) ∧
      rankOf (l.foldl (fun a b => if rankOf b.1 < rankOf a.1 then b else a) a).1 ≤ rankOf a.1 := by
  induction l generalizing a with
  | nil => exact ⟨fun b hb => absurd hb List.not_mem_nil, Nat.le_refl _⟩
  | cons c l ih =>
    obtain ⟨h1, h2⟩ := ih (if rankOf c.1 < rankOf a.1 then c else a)
    have hc : rankOf (if rankOf c.1 < rankOf a.1 then c else a).1 ≤ rankOf c.1 ∧
        rankOf (if rankOf c.1 < rankOf a.1 then c else a).1 ≤ rankOf a.1 := by
      split <;> omega
    refine ⟨fun b hb => ?_, h2.trans hc.2⟩
    rcases List.mem_cons.1 hb with rfl | hb
    · exact h2.trans hc.1
    · exact h1 b hb

/-- A check that passes has no failing part. -/
theorem rank_of_firstFail_ok {l : List (Nat × Nat)} {r : Nat} (h : firstFail l = (stOK, r)) {b : Nat × Nat} (hb : b ∈ l) :
    rankOf stOK ≤ rankOf b.1 := by
  have := (firstFail_rank l (stOK, rNONE)).1 b hb
  unfold firstFail at h
  rwa [h] at this

/-- The object of a write that is taken has a row, and the value is taken as the row says. -/
theorem Takes.row {s : State} {n key v : Nat} (h : Takes s n key v) : ∃ r, s.rowOf key = some r := by
  cases hr : s.rowOf key with
  | some r => exact ⟨r, rfl⟩
  | none =>
    have hp := h.passes
    unfold State.writeCheck at hp
    rw [hr] at hp
    have hst : stNOOBJ = stOK := congrArg Prod.fst hp
    exact absurd hst (by decide)

theorem State.objRow_of_rowOf {s : State} {key : Nat} {r : ObjRow} (h : s.rowOf key = some r) : objRow key = some r := by
  unfold State.rowOf at h
  split at h
  · exact h
  · cases h

theorem Takes.valueOf {s : State} {n key v : Nat} (h : Takes s n key v) {r : ObjRow} (hr : objRow key = some r) :
    s.valueOf key v = r.value v := by
  obtain ⟨r', hr'⟩ := h.row
  have : r' = r := Option.some.inj ((State.objRow_of_rowOf hr').symm.trans hr)
  unfold State.valueOf
  rw [hr', this]

theorem Takes.value_eq {s : State} {n key v w : Nat} (h : Takes s n key v) (hr : (objRow key).map (·.value v) = some w) :
    s.valueOf key v = w := by
  obtain ⟨r, hr', hw⟩ := Option.map_eq_some_iff.1 hr
  exact (h.valueOf hr').trans hw

theorem ok_of_rank {c : Prop} [Decidable c] {st : Nat} (h : rankOf stOK ≤ rankOf (if c then stOK else st))
    (hst : rankOf st < rankOf stOK) : c := by
  by_contra hc
  rw [if_neg hc] at h
  omega

/-- No check of the object itself fails in a write that is taken. -/
theorem Takes.own {s : State} {n key v : Nat} (h : Takes s n key v) :
    rankOf stOK ≤ rankOf (s.ownCheck n key (s.valueOf key v)).1 := by
  obtain ⟨r, hr⟩ := h.row
  have hp := h.passes
  unfold State.writeCheck at hp
  unfold State.valueOf
  rw [hr] at hp ⊢
  dsimp only at hp ⊢
  generalize s.ownCheck n key (r.value v) = own at hp ⊢
  refine rank_of_firstFail_ok hp (b := own) ?_
  simp only [List.mem_cons, true_or, or_true]

/-- The index of an object that a write reaches by itself: no OEM range, type description or aperture, and no command of the
dictionary's own block. -/
def plainIndex (i : Nat) : Bool :=
  decide (0xFF < i) && !isOem i && decide (i ≠ 0x1180) && decide (i / 256 ≠ 0x11)

/-- A write that is taken, of an object other than OLC.CMD. -/
theorem State.setCmd_of_index {s : State} {n key v i u : Nat} (h : Takes s n key v) (hk : key / 256 = i)
    (hi : plainIndex i = true) (ho : i ≠ 0x2400) (hu : s.valueOf key v = u) :
    s.setCmd n key v = ((s.accepted n key u).applyOb n key u).when (stopsTide key) State.txnSettle := by
  simp only [plainIndex, Bool.and_eq_true, decide_eq_true_eq, Bool.not_eq_true'] at hi
  obtain ⟨⟨⟨hlow, hoem⟩, hap⟩, hdic⟩ := hi
  have hne : ∀ c : Nat, c / 256 ≠ i → key ≠ c := fun c hc he => hc (he ▸ hk)
  have hc : ∀ c : Nat, c / 256 / 256 = 0x11 → key ≠ c := fun c hc => hne c fun he => hdic (he ▸ hc)
  rw [State.setCmd_of_takes h (by rw [hk]; exact hoem) (by rw [isTypeDesc, hk]; simp; omega) (by rw [hk]; exact hap)
    (hc _ (by decide)) (hc _ (by decide)) (hc _ (by decide)), hu,
    decide_eq_false (hne K.OLC_CMD fun he => ho (he.symm.trans (by decide)))]
  rfl

/-- The same where the write cannot stop the tide. -/
theorem State.setCmd_of_index_plain {s : State} {n key v i u : Nat} (h : Takes s n key v) (hk : key / 256 = i)
    (hi : plainIndex i = true) (ho : i ≠ 0x2400) (hu : s.valueOf key v = u) (hs : stopsTide key = false) :
    s.setCmd n key v = (s.accepted n key u).applyOb n key u := by
  rw [State.setCmd_of_index h hk hi ho hu, hs]
  rfl

/-- The same where the write leaves the sessions, and no transaction waits for the tide to stop. -/
theorem State.setCmd_of_index_quiet {s : State} {n key v i u : Nat} (h : Takes s n key v) (hk : key / 256 = i)
    (hi : plainIndex i = true) (ho : i ≠ 0x2400) (hu : s.valueOf key v = u)
    (hq : ((s.accepted n key u).applyOb n key u).NoneWaits) :
    s.setCmd n key v = (s.accepted n key u).applyOb n key u := by
  rw [State.setCmd_of_index h hk hi ho hu, State.when, hq.settle, ite_self]

/-! ### Changes made in turn -/

theorem State.each_induct {α : Type} {f : State → α → State} (P : State → Prop) {s : State} {l : List α} (h0 : P s)
    (hs : ∀ u, ∀ a ∈ l, P u → P (f u a)) : P (s.each l f) := by
  induction l generalizing s with
  | nil => exact h0
  | cons a l ih => exact ih (hs s a List.mem_cons_self h0) fun u b hb => hs u b (List.mem_cons_of_mem _ hb)

end Sys2Proof.Machine
end


section
/-! SUPPORT. What operations leave of the transactions that wait for the tide to stop: none of those that a write or a fault comes
to makes one wait. -/

namespace Sys2Proof.Machine

theorem State.NoneWaits.ite {c : Prop} [Decidable c] {s t : State} (hs : s.NoneWaits) (ht : t.NoneWaits) :
    (if c then s else t).NoneWaits := by
  split
  · exact hs
  · exact ht

theorem State.NoneWaits.each {α : Type} {s : State} (h : s.NoneWaits) (l : List α) (f : State → α → State)
    (hf : ∀ u a, State.NoneWaits u → (f u a).NoneWaits) : (s.each l f).NoneWaits :=
  State.each_induct State.NoneWaits h fun u a _ hu => hf u a hu

theorem State.NoneWaits.when {s : State} (h : s.NoneWaits) (c : Bool) (f : State → State) (hf : ∀ u, State.NoneWaits u → (f u).NoneWaits) :
    (s.when c f).NoneWaits := by
  unfold State.when
  exact .ite (hf s h) h

theorem State.NoneWaits.modSes {s : State} (h : s.NoneWaits) (n : Nat) {f : Ses → Ses}
    (hf : ∀ x, (f x).txn = x.txn ∧ (f x).slack = x.slack) : (s.modSes n f).NoneWaits := by
  refine h.setSes ?_
  rw [(hf _).1, (hf _).2]
  exact h.ses n

/-! ### What releases and their ends leave of the sessions -/

theorem State.openGates_each (s : State) (t : Nat) : (s.openGates t).Stays [.ctxs, .tasks] s := by
  unfold State.openGates
  split
  · exact .refl s _
  · exact State.each_stays _ _ (.refl s _) fun u i hu => State.secReady_stays u t i hu (by decide)

theorem State.NoneWaits.takeAt {s : State} (h : s.NoneWaits) (t cause delay : Nat) : (s.takeAt t cause delay).NoneWaits := by
  unfold State.takeAt
  extract_lets seq s1 s2 s3 s4 s5 s6
  have h4 : s4.NoneWaits := h.of_sess rfl
  clear_value s4
  have h5 : s5.NoneWaits := State.each_induct State.NoneWaits h4 fun u i _ hu => by
    extract_lets g _ u1
    have h1 : u1.NoneWaits := by
      change State.NoneWaits (if _ then _ else _)
      split
      · exact hu
      · exact hu.setSes (hu.ses g)
    clear_value u1
    exact h1.of_sess ((State.dropFlights_stays _ g (.refl u1 _) (List.Subset.refl _)).keeps .sess (by decide))
  clear_value s5
  have h6 : s6.NoneWaits := h5.of_sess rfl
  clear_value s6
  refine (h6.of_sess ?_).of_sess ((State.openGates_each _ t).keeps .sess (by decide))
  exact (State.sample_stays _ _ _ _ (.refl s6 _) (List.Subset.refl _)).keeps .sess (by decide)

theorem State.NoneWaits.rebuilt (s : State) : s.rebuilt.NoneWaits := ⟨fun _ he => absurd he List.not_mem_nil⟩

theorem State.NoneWaits.replSend {s : State} (h : s.NoneWaits) (m : Repl) (f : State → State)
    (hf : ∀ u, State.NoneWaits u → (f u).NoneWaits) : (s.replSend m f).NoneWaits := by
  unfold State.replSend
  exact .ite (hf _ (h.of_sess rfl)) (h.of_sess rfl)

theorem State.NoneWaits.packageReset {s : State} (h : s.NoneWaits) (cause : Nat) : (s.packageReset cause).NoneWaits := by
  unfold State.packageReset
  split
  · exact h.of_sess rfl
  · refine State.NoneWaits.of_sess (State.NoneWaits.rebuilt s.finishApply) ?_
    exact (State.setOb_stays _ _ _ (State.incOb_stays _ _ (State.duesAnew_stays _ (.refl s.finishApply.rebuilt
      [.objs, .chk, .pmc]) (by decide)) (by decide)) (by decide)).keeps .sess (by decide)

theorem State.NoneWaits.sleep (s : State) : s.sleep.NoneWaits := by
  unfold State.sleep
  extract_lets
  exact State.NoneWaits.of_sess (s := State.reset) ⟨fun e he => absurd he List.not_mem_nil⟩
    ((State.duesAnew_stays _ (.refl _ _) (List.Subset.refl _)).keeps .sess (by decide))

theorem State.NoneWaits.pwrCmd {s : State} (h : s.NoneWaits) (v : Nat) : (s.pwrCmd v).NoneWaits := by
  unfold State.pwrCmd
  repeat' first
    | with_reducible assumption
    | intro _
    | with_reducible apply State.NoneWaits.ite
    | with_reducible apply State.NoneWaits.packageReset
    | with_reducible exact State.NoneWaits.sleep _

theorem State.NoneWaits.takeRelease {s : State} (h : s.NoneWaits) (t cause : Nat) : (s.takeRelease t cause).NoneWaits := by
  unfold State.takeRelease
  repeat' first
    | with_reducible assumption
    | intro _
    | with_reducible refine State.NoneWaits.of_sess ?_ ((State.draw_stays _ (.refl _ _) (List.Subset.refl _)).keeps .sess (by decide))
    | with_reducible apply State.NoneWaits.takeAt

theorem State.NoneWaits.restart {s : State} (h : s.NoneWaits) (t cause : Nat) : (s.restart t cause).NoneWaits := by
  unfold State.restart
  repeat' first
    | with_reducible assumption
    | intro _
    | (extract_lets +onlyGivenNames u; refine cut_goal (P := State.NoneWaits u) ?_ fun _ => ?_; (on_goal 2 => clear_value u); (on_goal 1 => (unfold u; clear u)))
    | (extract_lets +onlyGivenNames u; clear_value u)
    | with_reducible apply State.NoneWaits.ite
    | with_reducible refine State.NoneWaits.of_sess ?_ ((State.abandonTask_stays _ _ (.refl _ _) (List.Subset.refl _)).keeps .sess (by decide))
    | with_reducible apply State.NoneWaits.takeRelease

theorem State.NoneWaits.release {s : State} (h : s.NoneWaits) (cause t : Nat) : (s.release cause t).NoneWaits := by
  unfold State.release
  repeat' first
    | with_reducible assumption
    | intro _
    | (extract_lets +onlyGivenNames u; refine cut_goal (P := State.NoneWaits u) ?_ fun _ => ?_; (on_goal 2 => clear_value u); (on_goal 1 => (unfold u; clear u)))
    | (extract_lets +onlyGivenNames u; clear_value u)
    | with_reducible apply State.NoneWaits.ite
    | with_reducible apply State.NoneWaits.takeRelease
    | with_reducible apply State.NoneWaits.restart
    | with_reducible refine State.NoneWaits.of_sess ?_ ((State.overrun_stays _ _ (.refl _ _) (List.Subset.refl _)).keeps .sess (by decide))
    | with_reducible refine State.NoneWaits.of_sess ?_ ((State.modTask_stays _ _ _ (.refl _ _) (List.Subset.refl _)).keeps .sess (by decide))
    | dsimp only
    | split

theorem State.NoneWaits.tskCmd {s : State} (h : s.NoneWaits) (t v : Nat) : (s.tskCmd t v).NoneWaits := by
  unfold State.tskCmd
  repeat' first
    | with_reducible assumption
    | intro _
    | (extract_lets +onlyGivenNames u; refine cut_goal (P := State.NoneWaits u) ?_ fun _ => ?_; (on_goal 2 => clear_value u); (on_goal 1 => (unfold u; clear u)))
    | (extract_lets +onlyGivenNames u; clear_value u)
    | with_reducible apply State.NoneWaits.ite
    | with_reducible apply State.NoneWaits.each
    | with_reducible refine State.NoneWaits.of_sess ?_ ((State.setTask_stays _ _ _ (.refl _ _) (List.Subset.refl _)).keeps .sess (by decide))
    | with_reducible refine State.NoneWaits.of_sess ?_ ((State.tideSettle_stays _ (.refl _ _) (List.Subset.refl _)).keeps .sess (by decide))
    | with_reducible refine State.NoneWaits.of_sess ?_ ((State.modCtx_stays _ _ _ (.refl _ _) (List.Subset.refl _)).keeps .sess (by decide))
    | with_reducible refine State.NoneWaits.of_sess ?_ ((State.modTask_stays _ _ _ (.refl _ _) (List.Subset.refl _)).keeps .sess (by decide))
    | with_reducible refine State.NoneWaits.of_sess ?_ ((State.resched_stays _ _ (.refl _ _) (List.Subset.refl _)).keeps .sess (by decide))
    | with_reducible refine State.NoneWaits.of_sess ?_ ((State.openGates_stays _ _ (.refl _ _) (List.Subset.refl _)).keeps .sess (by decide))
    | with_reducible refine State.NoneWaits.of_sess ?_ ((State.copyBackIf_stays _ _ (.refl _ _) (List.Subset.refl _)).keeps .sess (by decide))
    | with_reducible refine State.NoneWaits.of_sess ?_ ((State.abandonTask_stays _ _ (.refl _ _) (List.Subset.refl _)).keeps .sess (by decide))
    | with_reducible apply State.NoneWaits.release
    | dsimp only
    | split

theorem State.NoneWaits.forceCmd {s : State} (h : s.NoneWaits) (n v : Nat) : (s.forceCmd n v).NoneWaits := by
  unfold State.forceCmd
  repeat' first
    | with_reducible assumption
    | intro _
    | (extract_lets +onlyGivenNames u; clear_value u)
    | with_reducible refine State.NoneWaits.of_sess ?_ ((State.forceReq_stays _ _ (.refl _ _) (List.Subset.refl _)).keeps .sess (by decide))
    | with_reducible refine State.NoneWaits.modSes ?_ _ (fun _ => ⟨rfl, rfl⟩)
    | dsimp only
    | split

theorem State.NoneWaits.setResult {s : State} (h : s.NoneWaits) (n key st reason dies : Nat) :
    (s.setResult n key st reason dies).NoneWaits := h.setSes (h.ses n)

theorem State.NoneWaits.askerAborted {s : State} (h : s.NoneWaits) : (s.askerAborted ).NoneWaits := by
  unfold State.askerAborted
  repeat' first
    | with_reducible assumption
    | intro _
    | with_reducible apply State.NoneWaits.setResult
    | dsimp only
    | split

theorem State.NoneWaits.releaseAll {s : State} (h : s.NoneWaits) (cause : Nat) (l : List Nat) : (s.releaseAll cause l).NoneWaits := by
  unfold State.releaseAll
  repeat' first
    | with_reducible assumption
    | intro _
    | with_reducible apply State.NoneWaits.each
    | with_reducible apply State.NoneWaits.release

theorem State.NoneWaits.decideTrigger {s : State} (h : s.NoneWaits) (cause cls num : Nat) : (s.decideTrigger cause cls num).NoneWaits := by
  unfold State.decideTrigger
  repeat' first
    | with_reducible assumption
    | intro _
    | with_reducible apply State.NoneWaits.ite
    | with_reducible refine State.NoneWaits.of_sess ?_ ((State.setTds_stays _ _ (.refl _ _) (List.Subset.refl _)).keeps .sess (by decide))
    | with_reducible apply State.NoneWaits.releaseAll
    | with_reducible refine State.NoneWaits.of_sess ?_ ((State.dictate_stays _ _ (.refl _ _) (List.Subset.refl _)).keeps .sess (by decide))

theorem State.NoneWaits.releaseHeld {s : State} (h : s.NoneWaits) (count : Bool) : (s.releaseHeld count).NoneWaits := by
  unfold State.releaseHeld
  repeat' first
    | with_reducible assumption
    | intro _
    | (extract_lets +onlyGivenNames u; refine cut_goal (P := State.NoneWaits u) ?_ fun _ => ?_; (on_goal 2 => clear_value u); (on_goal 1 => (unfold u; clear u)))
    | (extract_lets +onlyGivenNames u; clear_value u)
    | with_reducible apply State.NoneWaits.ite
    | with_reducible apply State.NoneWaits.each
    | with_reducible refine State.NoneWaits.of_sess ?_ ((State.setTds_stays _ _ (.refl _ _) (List.Subset.refl _)).keeps .sess (by decide))
    | with_reducible refine State.NoneWaits.of_sess ?_ ((State.incOb_stays _ _ (.refl _ _) (List.Subset.refl _)).keeps .sess (by decide))
    | with_reducible apply State.NoneWaits.decideTrigger

theorem State.NoneWaits.olcAbort {s : State} (h : s.NoneWaits) : (s.olcAbort ).NoneWaits := by
  unfold State.olcAbort
  repeat' first
    | with_reducible assumption
    | intro _
    | with_reducible apply State.NoneWaits.ite
    | with_reducible apply State.NoneWaits.when
    | with_reducible refine State.NoneWaits.of_sess ?_ ((State.setOlc_stays _ _ (.refl _ _) (List.Subset.refl _)).keeps .sess (by decide))
    | with_reducible apply State.NoneWaits.askerAborted
    | with_reducible refine State.NoneWaits.of_sess ?_ ((State.olcResult_stays _ _ _ _ _ (.refl _ _) (List.Subset.refl _)).keeps .sess (by decide))
    | with_reducible apply State.NoneWaits.releaseHeld
    | with_reducible refine State.NoneWaits.of_sess ?_ ((State.moorSend_stays _ _ (.refl _ _) (List.Subset.refl _)).keeps .sess (by decide))

theorem State.NoneWaits.olcCmd {s : State} (h : s.NoneWaits) (ses v : Nat) : (s.olcCmd ses v).NoneWaits := by
  unfold State.olcCmd
  repeat' first
    | with_reducible assumption
    | intro _
    | with_reducible refine State.NoneWaits.of_sess ?_ ((State.olcResult_stays _ _ _ _ _ (.refl _ _) (List.Subset.refl _)).keeps .sess (by decide))
    | with_reducible refine State.NoneWaits.of_sess ?_ ((State.olcLoad_stays _ (.refl _ _) (List.Subset.refl _)).keeps .sess (by decide))
    | with_reducible refine State.NoneWaits.of_sess ?_ ((State.setOlc_stays _ _ (.refl _ _) (List.Subset.refl _)).keeps .sess (by decide))
    | with_reducible refine State.NoneWaits.of_sess ?_ ((State.askVotes_stays _ _ _ (.refl _ _) (List.Subset.refl _)).keeps .sess (by decide))
    | with_reducible refine State.NoneWaits.of_sess ?_ ((State.beginCommit_stays _ _ (.refl _ _) (List.Subset.refl _)).keeps .sess (by decide))
    | with_reducible apply State.NoneWaits.olcAbort
    | with_reducible refine State.NoneWaits.of_sess ?_ ((State.olcRelease_stays _ (.refl _ _) (List.Subset.refl _)).keeps .sess (by decide))
    | dsimp only
    | split

theorem State.NoneWaits.applyTide {s : State} (h : s.NoneWaits) (n idx sub key v : Nat) : (s.applyTide n idx sub key v).NoneWaits := by
  unfold State.applyTide
  repeat' first
    | with_reducible assumption
    | intro _
    | with_reducible refine State.NoneWaits.of_sess ?_ ((State.tdsCmd_stays _ _ (.refl _ _) (List.Subset.refl _)).keeps .sess (by decide))
    | with_reducible apply State.NoneWaits.tskCmd
    | with_reducible refine State.NoneWaits.of_sess ?_ ((State.forceReq_stays _ _ (.refl _ _) (List.Subset.refl _)).keeps .sess (by decide))
    | with_reducible refine State.NoneWaits.modSes ?_ _ (fun _ => ⟨rfl, rfl⟩)
    | with_reducible apply State.NoneWaits.forceCmd
    | with_reducible apply State.NoneWaits.olcCmd
    | with_reducible refine State.NoneWaits.of_sess ?_ ((State.cpuCtl_stays _ _ _ (.refl _ _) (List.Subset.refl _)).keeps .sess (by decide))
    | with_reducible refine State.NoneWaits.of_sess ?_ ((State.store_stays _ _ _ (.refl _ _) (List.Subset.refl _)).keeps .sess (by decide))
    | dsimp only
    | split

theorem State.NoneWaits.unlock {s : State} (h : s.NoneWaits) (n v : Nat) : (s.unlock n v).NoneWaits := by
  unfold State.unlock
  refine h.setSes ?_
  split <;> exact h.ses n

theorem State.NoneWaits.mbcCmd {s : State} (h : s.NoneWaits) (k v : Nat) : (s.mbcCmd k v).NoneWaits := by
  unfold State.mbcCmd
  repeat' first
    | with_reducible assumption
    | intro _
    | with_reducible refine State.NoneWaits.of_sess ?_ ((State.modMb_stays _ _ _ (.refl _ _) (List.Subset.refl _)).keeps .sess (by decide))
    | with_reducible refine State.NoneWaits.of_sess ?_ ((State.mbStopCmd_stays _ _ (.refl _ _) (List.Subset.refl _)).keeps .sess (by decide))
    | with_reducible apply State.NoneWaits.unlock
    | dsimp only
    | split

theorem State.NoneWaits.applyMbc {s : State} (h : s.NoneWaits) (idx k key v : Nat) : (s.applyMbc idx k key v).NoneWaits := by
  unfold State.applyMbc
  repeat' first
    | with_reducible assumption
    | intro _
    | with_reducible apply State.NoneWaits.mbcCmd
    | with_reducible refine State.NoneWaits.of_sess ?_ ((State.pop_stays _ _ _ (.refl _ _) (List.Subset.refl _)).keeps .sess (by decide))
    | with_reducible refine State.NoneWaits.of_sess ?_ ((State.txReq_stays _ _ _ (.refl _ _) (List.Subset.refl _)).keeps .sess (by decide))
    | with_reducible refine State.NoneWaits.of_sess ?_ ((State.txCancel_stays _ _ _ (.refl _ _) (List.Subset.refl _)).keeps .sess (by decide))
    | with_reducible refine State.NoneWaits.of_sess ?_ ((State.store_stays _ _ _ (.refl _ _) (List.Subset.refl _)).keeps .sess (by decide))
    | dsimp only
    | split

theorem State.NoneWaits.lockRegions {s : State} (h : s.NoneWaits) (n v : Nat) : (s.lockRegions n v).NoneWaits :=
  h.setSes (h.ses n)

theorem State.NoneWaits.applyBdr {s : State} (h : s.NoneWaits) (n idx sub key v : Nat) : (s.applyBdr n idx sub key v).NoneWaits := by
  unfold State.applyBdr
  repeat' first
    | with_reducible assumption
    | intro _
    | with_reducible refine State.NoneWaits.of_sess ?_ ((State.bdrTxn_stays _ _ _ (.refl _ _) (List.Subset.refl _)).keeps .sess (by decide))
    | with_reducible apply State.NoneWaits.unlock
    | with_reducible apply State.NoneWaits.lockRegions
    | with_reducible refine State.NoneWaits.modSes ?_ _ (fun _ => ⟨rfl, rfl⟩)
    | with_reducible refine State.NoneWaits.of_sess ?_ ((State.store_stays _ _ _ (.refl _ _) (List.Subset.refl _)).keeps .sess (by decide))
    | dsimp only
    | split

theorem State.NoneWaits.applyCal {s : State} (h : s.NoneWaits) (n idx sub key v : Nat) : (s.applyCal n idx sub key v).NoneWaits := by
  unfold State.applyCal
  repeat' first
    | with_reducible assumption
    | intro _
    | (extract_lets +onlyGivenNames u; clear_value u)
    | with_reducible apply State.NoneWaits.ite
    | with_reducible refine State.NoneWaits.of_sess ?_ ((State.calCmd_stays _ _ (.refl _ _) (List.Subset.refl _)).keeps .sess (by decide))
    | with_reducible refine State.NoneWaits.of_sess ?_ ((State.setCal_stays _ _ (.refl _ _) (List.Subset.refl _)).keeps .sess (by decide))
    | with_reducible refine State.NoneWaits.of_sess ?_ ((State.calShift_stays _ _ (.refl _ _) (List.Subset.refl _)).keeps .sess (by decide))
    | with_reducible refine State.NoneWaits.modSes ?_ _ (fun _ => ⟨rfl, rfl⟩)
    | with_reducible refine State.NoneWaits.of_sess ?_ ((State.setOb_stays _ _ _ (.refl _ _) (List.Subset.refl _)).keeps .sess (by decide))
    | with_reducible refine State.NoneWaits.of_sess ?_ ((State.rsvTestStart_stays _ (.refl _ _) (List.Subset.refl _)).keeps .sess (by decide))
    | with_reducible refine State.NoneWaits.of_sess ?_ ((State.rsvReadId_stays _ _ (.refl _ _) (List.Subset.refl _)).keeps .sess (by decide))
    | with_reducible refine State.NoneWaits.of_sess ?_ ((State.store_stays _ _ _ (.refl _ _) (List.Subset.refl _)).keeps .sess (by decide))
    | dsimp only
    | split

theorem State.NoneWaits.wdgAct {s : State} (h : s.NoneWaits) (n : Nat) : (s.wdgAct n).NoneWaits := by
  unfold State.wdgAct
  repeat' first
    | with_reducible assumption
    | intro _
    | with_reducible apply State.NoneWaits.ite
    | with_reducible refine State.NoneWaits.of_sess ?_ ((State.assertOut_stays _ (.refl _ _) (List.Subset.refl _)).keeps .sess (by decide))
    | with_reducible apply State.NoneWaits.packageReset
    | with_reducible refine State.NoneWaits.of_sess ?_ ((State.coreReset_stays _ _ (.refl _ _) (List.Subset.refl _)).keeps .sess (by decide))
    | with_reducible refine State.NoneWaits.of_sess ?_ ((State.islandBack_stays _ _ (.refl _ _) (List.Subset.refl _)).keeps .sess (by decide))
    | dsimp only
    | split

theorem State.NoneWaits.wdgViolation {s : State} (h : s.NoneWaits) (n k : Nat) : (s.wdgViolation n k).NoneWaits := by
  unfold State.wdgViolation
  repeat' first
    | with_reducible assumption
    | intro _
    | (extract_lets +onlyGivenNames u; refine cut_goal (P := State.NoneWaits u) ?_ fun _ => ?_; (on_goal 2 => clear_value u); (on_goal 1 => (unfold u; clear u)))
    | (extract_lets +onlyGivenNames u; clear_value u)
    | with_reducible apply State.NoneWaits.ite
    | with_reducible refine State.NoneWaits.of_sess ?_ ((State.incOb_stays _ _ (.refl _ _) (List.Subset.refl _)).keeps .sess (by decide))
    | with_reducible refine State.NoneWaits.of_sess ?_ ((State.raise_stays _ _ _ _ _ _ _ (.refl _ _) (List.Subset.refl _)).keeps .sess (by decide))
    | with_reducible refine State.NoneWaits.of_sess ?_ ((State.wdgLast_stays _ _ _ (.refl _ _) (List.Subset.refl _)).keeps .sess (by decide))
    | with_reducible refine State.NoneWaits.of_sess ?_ ((State.wdgRestart_stays _ _ (.refl _ _) (List.Subset.refl _)).keeps .sess (by decide))
    | with_reducible apply State.NoneWaits.wdgAct

theorem State.NoneWaits.wdgExpire {s : State} (h : s.NoneWaits) (n : Nat) : (s.wdgExpire n).NoneWaits := by
  unfold State.wdgExpire
  repeat' first
    | with_reducible assumption
    | intro _
    | (extract_lets +onlyGivenNames u; refine cut_goal (P := State.NoneWaits u) ?_ fun _ => ?_; (on_goal 2 => clear_value u); (on_goal 1 => (unfold u; clear u)))
    | (extract_lets +onlyGivenNames u; clear_value u)
    | with_reducible refine State.NoneWaits.of_sess ?_ ((State.incOb_stays _ _ (.refl _ _) (List.Subset.refl _)).keeps .sess (by decide))
    | with_reducible refine State.NoneWaits.of_sess ?_ ((State.raise_stays _ _ _ _ _ _ _ (.refl _ _) (List.Subset.refl _)).keeps .sess (by decide))
    | with_reducible refine State.NoneWaits.of_sess ?_ ((State.wdgRestart_stays _ _ (.refl _ _) (List.Subset.refl _)).keeps .sess (by decide))
    | with_reducible refine State.NoneWaits.of_sess ?_ ((State.wdgLast_stays _ _ _ (.refl _ _) (List.Subset.refl _)).keeps .sess (by decide))
    | with_reducible apply State.NoneWaits.wdgAct

theorem State.NoneWaits.wdgKey {s : State} (h : s.NoneWaits) (n v : Nat) : (s.wdgKey n v).NoneWaits := by
  unfold State.wdgKey
  repeat' first
    | with_reducible assumption
    | intro _
    | (extract_lets +onlyGivenNames u; refine cut_goal (P := State.NoneWaits u) ?_ fun _ => ?_; (on_goal 2 => clear_value u); (on_goal 1 => (unfold u; clear u)))
    | (extract_lets +onlyGivenNames u; clear_value u)
    | with_reducible apply State.NoneWaits.ite
    | with_reducible apply State.NoneWaits.wdgViolation
    | with_reducible refine State.NoneWaits.of_sess ?_ ((State.wdgRestart_stays _ _ (.refl _ _) (List.Subset.refl _)).keeps .sess (by decide))
    | with_reducible refine State.NoneWaits.of_sess ?_ ((State.wdgLast_stays _ _ _ (.refl _ _) (List.Subset.refl _)).keeps .sess (by decide))
    | with_reducible refine State.NoneWaits.of_sess ?_ ((State.incOb_stays _ _ (.refl _ _) (List.Subset.refl _)).keeps .sess (by decide))
    | with_reducible refine State.NoneWaits.of_sess ?_ ((State.raise_stays _ _ _ _ _ _ _ (.refl _ _) (List.Subset.refl _)).keeps .sess (by decide))
    | with_reducible apply State.NoneWaits.wdgExpire

theorem State.NoneWaits.applyObs {s : State} (h : s.NoneWaits) (n idx sub key v : Nat) : (s.applyObs n idx sub key v).NoneWaits := by
  unfold State.applyObs
  repeat' first
    | with_reducible assumption
    | intro _
    | with_reducible apply State.NoneWaits.ite
    | with_reducible refine State.NoneWaits.of_sess ?_ ((State.wdgCfgApply_stays _ _ _ _ (.refl _ _) (List.Subset.refl _)).keeps .sess (by decide))
    | with_reducible apply State.NoneWaits.wdgKey
    | with_reducible refine State.NoneWaits.of_sess ?_ ((State.chkPeriodSet_stays _ _ _ (.refl _ _) (List.Subset.refl _)).keeps .sess (by decide))
    | with_reducible refine State.NoneWaits.of_sess ?_ ((State.clearOut_stays _ (.refl _ _) (List.Subset.refl _)).keeps .sess (by decide))
    | with_reducible refine State.NoneWaits.of_sess ?_ ((State.fltFlush_stays _ (.refl _ _) (List.Subset.refl _)).keeps .sess (by decide))
    | with_reducible refine State.NoneWaits.of_sess ?_ ((State.fltRaise_stays _ _ (.refl _ _) (List.Subset.refl _)).keeps .sess (by decide))
    | with_reducible refine State.NoneWaits.of_sess ?_ ((State.store_stays _ _ _ (.refl _ _) (List.Subset.refl _)).keeps .sess (by decide))
    | with_reducible refine State.NoneWaits.of_sess ?_ ((State.strataFreeze_stays _ (.refl _ _) (List.Subset.refl _)).keeps .sess (by decide))
    | with_reducible refine State.NoneWaits.of_sess ?_ ((State.strataThaw_stays _ (.refl _ _) (List.Subset.refl _)).keeps .sess (by decide))
    | with_reducible refine State.NoneWaits.modSes ?_ _ (fun _ => ⟨rfl, rfl⟩)
    | with_reducible refine State.NoneWaits.of_sess ?_ ((State.sample_stays _ _ _ _ (.refl _ _) (List.Subset.refl _)).keeps .sess (by decide))
    | with_reducible refine State.NoneWaits.of_sess ?_ ((State.bwWindow_stays _ _ (.refl _ _) (List.Subset.refl _)).keeps .sess (by decide))
    | with_reducible refine State.NoneWaits.of_sess ?_ ((State.tidemark_stays _ _ _ _ (.refl _ _) (List.Subset.refl _)).keeps .sess (by decide))
    | with_reducible refine State.NoneWaits.of_sess ?_ ((State.snpRelease_stays _ _ (.refl _ _) (List.Subset.refl _)).keeps .sess (by decide))
    | with_reducible refine State.NoneWaits.of_sess ?_ ((State.snpReleaseAll_stays _ (.refl _ _) (List.Subset.refl _)).keeps .sess (by decide))
    | with_reducible refine State.NoneWaits.of_sess ?_ ((State.testStart_stays _ _ (.refl _ _) (List.Subset.refl _)).keeps .sess (by decide))
    | dsimp only
    | split

theorem State.NoneWaits.applyOb {s : State} (h : s.NoneWaits) (n key v : Nat) : (s.applyOb n key v).NoneWaits := by
  unfold State.applyOb
  repeat' first
    | with_reducible assumption
    | intro _
    | (extract_lets +onlyGivenNames u; clear_value u)
    | with_reducible apply State.NoneWaits.ite
    | with_reducible apply State.NoneWaits.each
    | with_reducible refine State.NoneWaits.modSes ?_ _ (fun _ => ⟨rfl, rfl⟩)
    | with_reducible refine State.NoneWaits.of_sess ?_ ((State.store_stays _ _ _ (.refl _ _) (List.Subset.refl _)).keeps .sess (by decide))
    | with_reducible apply State.NoneWaits.pwrCmd
    | with_reducible refine State.NoneWaits.of_sess ?_ ((State.domCmd_stays _ _ _ (.refl _ _) (List.Subset.refl _)).keeps .sess (by decide))
    | with_reducible refine State.NoneWaits.of_sess ?_ ((State.strCmd_stays _ _ (.refl _ _) (List.Subset.refl _)).keeps .sess (by decide))
    | with_reducible apply State.NoneWaits.applyTide
    | with_reducible refine State.NoneWaits.of_sess ?_ ((State.applyNtm_stays _ _ _ _ _ (.refl _ _) (List.Subset.refl _)).keeps .sess (by decide))
    | with_reducible apply State.NoneWaits.applyMbc
    | with_reducible refine State.NoneWaits.of_sess ?_ ((State.dmaCmd_stays _ _ _ _ (.refl _ _) (List.Subset.refl _)).keeps .sess (by decide))
    | with_reducible refine State.NoneWaits.of_sess ?_ ((State.dmaEvent_stays _ _ (.refl _ _) (List.Subset.refl _)).keeps .sess (by decide))
    | with_reducible apply State.NoneWaits.applyBdr
    | with_reducible apply State.NoneWaits.applyCal
    | with_reducible apply State.NoneWaits.applyObs
    | with_reducible refine State.NoneWaits.of_sess ?_ ((State.applyNet_stays _ _ _ _ _ (.refl _ _) (List.Subset.refl _)).keeps .sess (by decide))
    | dsimp only
    | split

theorem State.NoneWaits.applyWrite {s : State} (h : s.NoneWaits) (n key v : Nat) : (s.applyWrite n key v).NoneWaits := by
  unfold State.applyWrite
  repeat' first
    | with_reducible assumption
    | intro _
    | (extract_lets +onlyGivenNames u; refine cut_goal (P := State.NoneWaits u) ?_ fun _ => ?_; (on_goal 2 => clear_value u); (on_goal 1 => (unfold u; clear u)))
    | (extract_lets +onlyGivenNames u; clear_value u)
    | with_reducible apply State.NoneWaits.ite
    | with_reducible apply State.NoneWaits.noteWrite
    | with_reducible apply State.NoneWaits.replSend
    | with_reducible apply State.NoneWaits.applyOb

theorem State.NoneWaits.acceptRaw {s : State} (h : s.NoneWaits) : (s.acceptRaw ).NoneWaits := by
  unfold State.acceptRaw
  repeat' first
    | with_reducible assumption
    | intro _
    | (extract_lets +onlyGivenNames u; clear_value u)
    | with_reducible refine State.NoneWaits.of_sess ?_ ((State.setFlt_stays _ _ (.refl _ _) (List.Subset.refl _)).keeps .sess (by decide))
    | with_reducible refine State.NoneWaits.of_sess ?_ ((State.foldsDue_stays _ (.refl _ _) (List.Subset.refl _)).keeps .sess (by decide))
    | with_reducible refine State.NoneWaits.of_sess ?_ ((State.incOb_stays _ _ (.refl _ _) (List.Subset.refl _)).keeps .sess (by decide))
    | with_reducible refine State.NoneWaits.of_sess ?_ ((State.putFold_stays _ _ (.refl _ _) (List.Subset.refl _)).keeps .sess (by decide))
    | with_reducible refine State.NoneWaits.of_sess ?_ ((State.foldOpen_stays _ _ (.refl _ _) (List.Subset.refl _)).keeps .sess (by decide))
    | dsimp only
    | split

theorem State.NoneWaits.wdgDue {s : State} (h : s.NoneWaits) (n : Nat) : (s.wdgDue n).NoneWaits := by
  unfold State.wdgDue
  repeat' first
    | with_reducible assumption
    | intro _
    | with_reducible apply State.NoneWaits.ite
    | with_reducible refine State.NoneWaits.of_sess ?_ ((State.reachMono_stays _ _ (.refl _ _) (List.Subset.refl _)).keeps .sess (by decide))
    | with_reducible apply State.NoneWaits.wdgExpire

theorem State.NoneWaits.clockLost {s : State} (h : s.NoneWaits) (k : Nat) : (s.clockLost k).NoneWaits := by
  unfold State.clockLost
  repeat' first
    | with_reducible assumption
    | intro _
    | (extract_lets +onlyGivenNames u; refine cut_goal (P := State.NoneWaits u) ?_ fun _ => ?_; (on_goal 2 => clear_value u); (on_goal 1 => (unfold u; clear u)))
    | (extract_lets +onlyGivenNames u; clear_value u)
    | with_reducible apply State.NoneWaits.ite
    | with_reducible refine State.NoneWaits.of_sess ?_ ((State.setWd_stays _ _ _ (.refl _ _) (List.Subset.refl _)).keeps .sess (by decide))
    | with_reducible refine State.NoneWaits.of_sess ?_ ((State.raiseSt_stays _ _ _ _ _ (.refl _ _) (List.Subset.refl _)).keeps .sess (by decide))
    | with_reducible apply State.NoneWaits.wdgExpire
    | with_reducible refine State.NoneWaits.of_sess ?_ ((State.setPwr_stays _ _ (.refl _ _) (List.Subset.refl _)).keeps .sess (by decide))
    | with_reducible refine State.NoneWaits.of_sess ?_ ((State.reclaim_stays _ (.refl _ _) (List.Subset.refl _)).keeps .sess (by decide))

theorem State.NoneWaits.timeExpired {s : State} (h : s.NoneWaits) : (s.timeExpired ).NoneWaits := by
  unfold State.timeExpired
  repeat' first
    | with_reducible assumption
    | intro _
    | with_reducible apply State.NoneWaits.ite
    | with_reducible refine State.NoneWaits.of_sess ?_ ((State.setStr_stays _ _ (.refl _ _) (List.Subset.refl _)).keeps .sess (by decide))
    | with_reducible refine State.NoneWaits.of_sess ?_ ((State.startGoOn_stays _ (.refl _ _) (List.Subset.refl _)).keeps .sess (by decide))
    | with_reducible refine State.NoneWaits.of_sess ?_ ((State.toService_stays _ _ (.refl _ _) (List.Subset.refl _)).keeps .sess (by decide))

end Sys2Proof.Machine
end


section
/-! PROOF. Commands of the tide (R145) and of tasks (R166). -/

namespace Sys2Proof.Machine

/-! ### What acceptance leaves -/

theorem State.accepted_stays' (s : State) (n key u : Nat) : (s.accepted n key u).Stays [.sess] s := by
  unfold State.accepted
  refine State.noteWrite_stays _ _ ?_ (List.Subset.refl _)
  split
  · exact .refl s _
  · exact State.setResult_stays _ _ _ _ _ _ (.refl s _) (List.Subset.refl _)

theorem State.accepted_tds (s : State) (n key u : Nat) : (s.accepted n key u).tds = s.tds :=
  (s.accepted_stays' n key u).keeps .tds (by decide)

theorem State.accepted_tasks (s : State) (n key u : Nat) : (s.accepted n key u).tasks = s.tasks :=
  (s.accepted_stays' n key u).keeps .tasks (by decide)

theorem State.task_of_tasks {s t : State} (h : t.tasks = s.tasks) (k : Nat) : t.task k = s.task k := by
  unfold State.task
  rw [h]

theorem State.toTide_tds (s : State) (st : TideSt) : (s.toTide st).tds = if s.tds.st = st then s.tds else
    { s.tds with st := st, runSince := if st = .running then s.ntm.mono else s.tds.runSince } := by
  unfold State.toTide
  split
  · rfl
  · exact (State.kevent_stays _ _ (.refl _ _) (List.Subset.refl _)).keeps .tds (by decide)

theorem State.toTide_st (s : State) (st : TideSt) : (s.toTide st).tds.st = st := by
  rw [State.toTide_tds]
  split <;> simp_all

/-! ### Forces that land leave the tide -/

/-- The sequencer without the order of its releases and the changes of the force table that wait. -/
@[reducible] def Tds.course (t : Tds) : Tds := { t with seq := 0, forceQ := [] }

theorem Tds.of_course {t u : Tds} (h : t.course = u.course) : t.st = u.st ∧ t.copyIns = u.copyIns := by
  have h1 : t.course.st = u.course.st := congrArg Tds.st h
  have h2 : t.course.copyIns = u.course.copyIns := congrArg Tds.copyIns h
  exact ⟨h1, h2⟩

theorem State.landHeldForce_course (s : State) (e : Option Nat × HeldOp) : (s.landHeldForce e).tds.course = s.tds.course := by
  have hl : ∀ (u : State) c, (u.landForce c).tds = u.tds := fun u c =>
    (State.landForce_stays u c (.refl u _) (List.Subset.refl _)).keeps .tds (by decide)
  unfold State.landHeldForce
  split
  · split
    · have hp : ∀ e', (s.holdPlace e').1.tds.course = s.tds.course := fun e' => by
        unfold State.holdPlace
        split <;> rfl
      dsimp only
      split
      · rw [hl]
        exact hp _
      · exact hp _
    · rfl
  · rfl

theorem State.pumpForces_course (s : State) : s.pumpForces.tds.course = s.tds.course := by
  unfold State.pumpForces
  dsimp only
  refine State.each_induct (fun u => u.tds.course = s.tds.course) ?_ fun u c _ hu => ?_
  · exact State.each_induct (fun u => u.tds.course = s.tds.course) rfl fun u e _ hu => (u.landHeldForce_course e).trans hu
  · have : (u.imgForce c).tds = u.tds := (State.imgForce_stays u c (.refl u _) (List.Subset.refl _)).keeps .tds (by decide)
    rw [this]
    exact hu

/-! ### Commands of the tide -/

theorem tideCmd_value : ∀ v < 8, (objRow K.TDS_CMD).map (·.value v) = some v := by decide

/-- TDS.CMD, taken: the command has its effect, and no transaction waited for it. -/
theorem State.setCmd_tide {s : State} {n v : Nat} (h : Takes s n K.TDS_CMD v) (hq : s.txnWaiting = []) (hv : v < 8) :
    s.setCmd n K.TDS_CMD v = (s.accepted n K.TDS_CMD v).tdsCmd v := by
  have hu : s.valueOf K.TDS_CMD v = v := h.value_eq (tideCmd_value v hv)
  refine State.setCmd_of_index_quiet h (i := 0x2000) (by decide) (by decide) (by decide) hu ?_
  refine (((State.txnWaiting_nil_iff s).1 hq).accepted n K.TDS_CMD v).of_sess ?_
  exact (State.tdsCmd_stays _ v (.refl _ _) (List.Subset.refl _)).keeps .sess (by decide)

theorem Takes.tdsCmdCheck {s : State} {n v : Nat} (h : Takes s n K.TDS_CMD v) (hv : v < 8) : rankOf stOK ≤ rankOf (s.tdsCmdCheck v) := by
  have hu : s.valueOf K.TDS_CMD v = v := h.value_eq (tideCmd_value v hv)
  have := h.own
  rwa [hu] at this

theorem State.fioOverlap_tds (s : State) : s.fioOverlap.tds = s.tds :=
  (State.fioOverlap_stays s (.refl s _) (List.Subset.refl _)).keeps .tds (by decide)

theorem State.reschedAll_tds (s : State) : s.reschedAll.tds = s.tds :=
  (State.reschedAll_stays s (.refl s _) (List.Subset.refl _)).keeps .tds (by decide)

theorem State.tideStart_tds (s : State) : s.tideStart.tds.st = .armed ∧ s.tideStart.tds.first = true := by
  unfold State.tideStart
  extract_lets _ _ _ _ _ _ u
  rw [State.reschedAll_tds]
  have hu : u.tds.first = true := rfl
  clear_value u
  refine ⟨u.toTide_st .armed, ?_⟩
  rw [State.toTide_tds]
  split <;> exact hu

/-- The object that says why a START was refused is touched by START alone. -/
theorem State.tideStart_err (s : State) : s.tideStart.ob K.TDS_START_ERR = 0 := by
  have keep : ∀ {fs : List Field} {u t : State}, t.Stays fs u → Field.objs ∉ fs → u.ob K.TDS_START_ERR = 0 →
      t.ob K.TDS_START_ERR = 0 := fun h hf h0 => (State.ob_of_objs (h.keeps .objs hf) _).trans h0
  unfold State.tideStart
  extract_lets s1 s2 s3 s4 s5 _ s6
  refine keep (State.reschedAll_stays _ (.refl _ _) (List.Subset.refl _)) (by decide) ?_
  have h1 : s1.ob K.TDS_START_ERR = 0 := State.ob_setOb_self _ _ _
  have h2 : s2.ob K.TDS_START_ERR = 0 := State.each_induct (fun u => u.ob K.TDS_START_ERR = 0) h1 fun u g _ hu => by
    split <;> exact hu
  clear_value s1
  have h3 : s3.ob K.TDS_START_ERR = 0 := State.each_induct (fun u => u.ob K.TDS_START_ERR = 0) h2 fun u g _ hu => hu
  clear_value s2
  have h4 : s4.ob K.TDS_START_ERR = 0 := keep (State.orphanAll_stays _ (.refl _ _) (List.Subset.refl _)) (by decide) h3
  clear_value s3
  have h5 : s5.ob K.TDS_START_ERR = 0 := State.each_induct (fun u => u.ob K.TDS_START_ERR = 0) h4 fun u k hk hu => by
    have hk : k < 7 := List.mem_range.1 (List.mem_filter.1 hk).1
    refine (State.ob_setOb_ne _ _ ?_).trans hu
    unfold K.TDS_START_ERR K.TMR_BAD_KIND
    omega
  clear_value s5
  have h6 : s6.ob K.TDS_START_ERR = 0 := (State.ob_of_objs (s := s5) rfl _).trans h5
  clear_value s6
  unfold State.toTide
  split
  · exact h6
  · unfold State.kevent
    refine keep (State.keeperWake_stays _ (.refl _ _) (List.Subset.refl _)) (by decide) ?_
    exact (State.ob_setOb_ne _ _ (by decide)).trans h6

theorem State.tideHalt_tds {s : State} (h : s.tds.st = .running ∨ s.tds.st = .stopping) :
    s.tideHalt.tds.st = .halted ∧ s.tideHalt.tds.copyIns = [] := by
  unfold State.tideHalt
  rw [if_pos h]
  extract_lets _ _ u
  have hu : u.tds.copyIns = [] := rfl
  clear_value u
  have hc := State.pumpForces_course ((u.toTide .halted).reschedAll)
  rw [State.reschedAll_tds] at hc
  obtain ⟨h1, h2⟩ := Tds.of_course hc
  refine ⟨h1.trans (u.toTide_st .halted), h2.trans ?_⟩
  rw [State.toTide_tds]
  split <;> exact hu

theorem State.tideSettle_tds (s : State) (h : s.tds.st = .stopping) :
    (s.tideSettle.tds.st = .stopping ∨ s.tideSettle.tds.st = .stopped) ∧ s.tideSettle.tds.stopEbbs = s.tds.stopEbbs := by
  unfold State.tideSettle
  split
  · refine ⟨.inr (State.toTide_st _ _), ?_⟩
    rw [State.toTide_tds]
    split <;> rfl
  · exact ⟨.inl h, rfl⟩

/-- Settles O17. -/
theorem tideCommands : Obligations.TideCommands := by
  unfold Obligations.TideCommands
  refine ⟨fun s n hq => ⟨?_, ?_, ?_, ?_, ?_⟩, ?_⟩
  · intro h
    refine ⟨_, rfl, ?_⟩
    rw [State.setCmd_tide h hq (by decide)]
    obtain ⟨h1, h2⟩ := (s.accepted n K.TDS_CMD 1).tideStart_tds
    have h3 := (s.accepted n K.TDS_CMD 1).tideStart_err
    change ((s.accepted n K.TDS_CMD 1).tideStart.fioOverlap).tds.st = .armed ∧
      ((s.accepted n K.TDS_CMD 1).tideStart.fioOverlap).tds.first = true ∧
      ((s.accepted n K.TDS_CMD 1).tideStart.fioOverlap).ob K.TDS_START_ERR = 0
    generalize (s.accepted n K.TDS_CMD 1).tideStart = u at h1 h2 h3 ⊢
    rw [State.fioOverlap_tds]
    refine ⟨h1, h2, ?_⟩
    exact (State.ob_of_objs ((State.fioOverlap_stays u (.refl u _) (List.Subset.refl _)).keeps .objs (by decide)) _).trans h3
  · intro h hst
    refine ⟨_, rfl, ?_⟩
    rw [State.setCmd_tide h hq (by decide)]
    change (s.accepted n K.TDS_CMD 2).tideStop.tds.st = .stopped
    have ha : (s.accepted n K.TDS_CMD 2).tds.st = .armed := (congrArg Tds.st (s.accepted_tds n K.TDS_CMD 2)).trans hst
    unfold State.tideStop
    rw [ha]
    exact State.toTide_st _ _
  · intro h hst
    refine ⟨_, rfl, ?_⟩
    rw [State.setCmd_tide h hq (by decide)]
    change ((s.accepted n K.TDS_CMD 2).tideStop.tds.st = .stopping ∨ _) ∧ _
    have ha : (s.accepted n K.TDS_CMD 2).tds.st = .running := (congrArg Tds.st (s.accepted_tds n K.TDS_CMD 2)).trans hst
    change ((s.accepted n K.TDS_CMD 2).tideStop.tds.st = .stopping ∨ (s.accepted n K.TDS_CMD 2).tideStop.tds.st = .stopped) ∧
      (s.accepted n K.TDS_CMD 2).tideStop.tds.stopEbbs = 0
    unfold State.tideStop
    rw [ha]
    obtain ⟨h1, h2⟩ := State.tideSettle_tds _
      (State.toTide_st ((s.accepted n K.TDS_CMD 2).setTds fun t => { t with stopEbbs := 0 }) .stopping)
    refine ⟨h1, h2.trans ?_⟩
    rw [State.toTide_tds]
    split <;> rfl
  · intro h
    refine ⟨_, rfl, ?_⟩
    rw [State.setCmd_tide h hq (by decide)]
    refine State.tideHalt_tds ?_
    rw [State.accepted_tds]
    exact ok_of_rank (h.tdsCmdCheck (by decide)) (by decide)
  · intro h
    refine ⟨_, rfl, ?_⟩
    rw [State.setCmd_tide h hq (by decide)]
    change (s.accepted n K.TDS_CMD 4).tideClear.tds.st = .stopped
    unfold State.tideClear
    rw [State.accepted_tds]
    rw [if_pos (ok_of_rank (h.tdsCmdCheck (by decide)) (by decide))]
    exact State.toTide_st _ _
  · intro s n v c hc h
    have hx : exec c s = .next (s.setCmd n K.TDS_CMD v) := by
      simp only [List.mem_cons, Prod.mk.injEq, List.not_mem_nil, or_false] at hc
      obtain ⟨rfl, rfl⟩ | ⟨rfl, rfl⟩ | ⟨rfl, rfl⟩ | ⟨rfl, rfl⟩ := hc <;> rfl
    refine ⟨_, hx, ?_⟩
    rw [State.setCmd_of_refuses h]
    have hn : s.refusedNote n K.TDS_CMD (s.valueOf K.TDS_CMD v) stSTATE rNONE = s := by
      unfold State.refusedNote
      rw [if_neg (by decide), if_neg (fun hx => absurd hx.2.2 (by decide)), if_neg (by decide), if_neg (by decide),
        if_neg (fun hx => absurd hx.1 (by decide)), if_neg (by decide), if_neg (fun hx => absurd hx.1 (by decide)),
        if_neg (fun hx => absurd hx.1 (by decide))]
    unfold State.when
    dsimp only
    rw [hn, ite_self]

end Sys2Proof.Machine
end


section
/-! PROOF. Commands of tasks (R166). -/

namespace Sys2Proof.Machine

theorem tskCmd_value : ∀ k < 256, ∀ v < 8, (objRow (K.TSK_CMD k)).map (·.value v) = some v := by decide +kernel

theorem K.TSK_CMD_div {k : Nat} (hk : k < 256) : K.TSK_CMD k / 256 = 0x2107 := by
  unfold K.TSK_CMD
  omega

theorem K.TSK_CMD_mod {k : Nat} (hk : k < 256) : K.TSK_CMD k % 256 = k := by
  unfold K.TSK_CMD
  omega

theorem State.applyOb_tsk (s : State) (n v : Nat) {k : Nat} (hk : k < 256) : s.applyOb n (K.TSK_CMD k) v = s.tskCmd k v := by
  unfold State.applyOb
  rw [K.TSK_CMD_div hk, K.TSK_CMD_mod hk]
  rfl

theorem State.tskCmd_disable (s : State) (t : Nat) : s.tskCmd t 2 =
    if (s.task t).st = .idle then (s.setTask t { s.task t with st := .disabled }).tideSettle
    else if (s.task t).st = .disabled then s
    else s.setTask t { s.task t with held := [], disPend := true } := rfl

/-- TSK.CMD, taken: the command has its effect, and no transaction waited for it. -/
theorem State.setCmd_task {s : State} {n k v : Nat} (h : Takes s n (K.TSK_CMD k) v) (hk : k < 256) (hq : s.txnWaiting = [])
    (hv : v ∈ [1, 2, 3, 4, 5]) :
    s.setCmd n (K.TSK_CMD k) v = (s.accepted n (K.TSK_CMD k) v).tskCmd k v := by
  have hb : v < 8 := (by decide : ∀ w ∈ [1, 2, 3, 4, 5], w < 8) v hv
  rw [State.setCmd_of_index_quiet h (K.TSK_CMD_div hk) (by decide) (by decide) (h.value_eq (tskCmd_value k hk v hb)),
    State.applyOb_tsk _ _ _ hk]
  rw [State.applyOb_tsk _ _ _ hk]
  refine State.NoneWaits.tskCmd (((State.txnWaiting_nil_iff s).1 hq).accepted n _ v) k v

/-! ### The task after a command -/

theorem State.task_setTask_self (s : State) (k : Nat) (x : Task) : (s.setTask k x).task k = x :=
  (State.task_setTask s k x k).trans (if_pos rfl)

theorem State.task_of_stays {s t : State} {fs : List Field} (h : t.Stays fs s) (hf : Field.tasks ∉ fs) (k : Nat) :
    t.task k = s.task k := State.task_of_tasks (h.keeps .tasks hf) k

theorem State.task_secReady (s : State) (t i : Nat) (h : (s.task t).st = .copyIn ∨ (s.task t).st = .active) :
    (((s.secReady t i).task t).st = .copyIn ∨ ((s.secReady t i).task t).st = .active) ∧
      ((s.task t).st = .active → ((s.secReady t i).task t).st = .active) ∧
      ((s.secReady t i).task t).flags = (s.task t).flags := by
  unfold State.secReady
  extract_lets g s1 s2
  split
  · have h1 : s1.task t = s.task t := rfl
    clear_value s1
    have h2 : (s2.task t).flags = (s.task t).flags ∧ ((s2.task t).st = .active ∨ s2.task t = s.task t) := by
      change ((if _ then _ else _ : State).task t).flags = _ ∧ (((if _ then _ else _ : State).task t).st = _ ∨ (if _ then _ else _ : State).task t = _)
      split
      · rw [State.modTask, State.task_setTask_self, h1]
        exact ⟨rfl, .inl rfl⟩
      · exact ⟨congrArg Task.flags h1, .inr h1⟩
    clear_value s2
    rw [State.task_of_stays (State.resched_stays s2 _ (.refl s2 _) (List.Subset.refl _)) (by decide)]
    obtain ⟨hf, ha | he⟩ := h2
    · exact ⟨.inr ha, fun _ => ha, hf⟩
    · rw [he]
      exact ⟨h, id, rfl⟩
  · exact ⟨h, id, rfl⟩

/-- Opening the gates makes a task active, or leaves it. -/
theorem State.task_openGates (s : State) (t : Nat) (h : (s.task t).st = .copyIn ∨ (s.task t).st = .active) :
    (((s.openGates t).task t).st = .copyIn ∨ ((s.openGates t).task t).st = .active) ∧
      ((s.task t).st = .active → ((s.openGates t).task t).st = .active) ∧
      ((s.openGates t).task t).flags = (s.task t).flags := by
  unfold State.openGates
  split
  · exact ⟨h, id, rfl⟩
  · refine State.each_induct (fun u => ((u.task t).st = .copyIn ∨ (u.task t).st = .active) ∧
      ((s.task t).st = .active → (u.task t).st = .active) ∧ (u.task t).flags = (s.task t).flags) ⟨h, id, rfl⟩ fun u i _ hu => ?_
    obtain ⟨h1, h2, h3⟩ := hu
    obtain ⟨r1, r2, r3⟩ := u.task_secReady t i h1
    exact ⟨r1, fun ha => r2 (h2 ha), r3.trans h3⟩

theorem State.allFlags_of {s t : State} {k : Nat} (ho : t.objs = s.objs) (hf : (t.task k).flags = (s.task k).flags) :
    t.allFlags k = s.allFlags k := by
  unfold State.allFlags State.secs State.tskNsec State.tskCfg
  rw [hf, State.ob_of_objs ho]

theorem State.copyBackIf_of_open {s : State} {t : Nat} (h : s.allFlags t = false) : s.copyBackIf t = s :=
  if_neg fun hx => Bool.false_ne_true (h.symm.trans hx.1)

/-- RESUME leaves the task active where not all its sections had ended. -/
theorem State.task_resume (s : State) (t : Nat) (h : s.allFlags t = false) : ((s.tskCmd t 3).task t).st = .active := by
  unfold State.tskCmd
  extract_lets _ s1 s2 s3
  have h1 : s1.Stays [.ctxs] s := State.each_stays _ _ (.refl s _) fun u i hu => by
    extract_lets g
    exact ite_stays (State.modCtx_stays _ _ _ hu (List.Subset.refl _)) hu
  have h3 : s3.Stays [.ctxs] s2 := State.each_stays _ _ (.refl s2 _) fun u i hu =>
    State.resched_stays u _ hu (List.Subset.refl _)
  have h2 : s2.task t = { s1.task t with st := .active, tideHalt := false } := State.task_setTask_self _ _ _
  have hs1 : s1.task t = s.task t := State.task_of_stays h1 (by decide) t
  have ho : s3.objs = s.objs := (h3.keeps .objs (by decide)).trans (h1.keeps .objs (by decide))
  have hs3 : s3.task t = s2.task t := State.task_of_stays h3 (by decide) t
  clear_value s3
  have hst : (s3.task t).st = .active := by rw [hs3, h2]
  have hfl : (s3.task t).flags = (s.task t).flags := by rw [hs3, h2, hs1]
  obtain ⟨-, ha, hf⟩ := s3.task_openGates t (.inr hst)
  have hall : (s3.openGates t).allFlags t = false :=
    (State.allFlags_of (((State.openGates_each s3 t).keeps .objs (by decide)).trans ho) (hf.trans hfl)).trans h
  change (((s3.openGates t).copyBackIf t).task t).st = .active
  rw [State.copyBackIf_of_open hall]
  exact ha hst

theorem State.task_tideSettle (s : State) (k : Nat) : s.tideSettle.task k = s.task k :=
  State.task_of_stays (State.tideSettle_stays s (.refl s _) (List.Subset.refl _)) (by decide) k

theorem State.task_abandonTask (s : State) (t : Nat) : ((s.abandonTask t).task t).flags = 0 ∧
    ((s.abandonTask t).task t).st = if (s.task t).disPend then .disabled else .idle := by
  unfold State.abandonTask
  extract_lets s1 s2 s3
  have h1 : s1.Stays [.ctxs] s := State.each_stays _ _ (.refl s _) fun u i hu => by
    extract_lets g
    exact ite_stays (State.modCtx_stays _ _ _ hu (List.Subset.refl _)) hu
  have hs1 : s1.task t = s.task t := State.task_of_stays h1 (by decide) t
  have h3 : s3.task t = { s1.task t with
      st := if (s1.task t).disPend then .disabled else .idle
      flags := 0
      held := []
      disPend := false
      inDone := []
      ended := []
      cbHeld := false
      tideHalt := false } := State.task_setTask_self _ _ _
  clear_value s3
  have h4 : ∀ l : List Nat, (s3.each l fun s i => s.resched (s.secEntry t i).core).Stays [.ctxs] s3 := fun l =>
    State.each_stays _ _ (.refl s3 _) fun u i hu => State.resched_stays u _ hu (List.Subset.refl _)
  rw [State.task_of_stays (State.pumpForces_stays _ (.refl _ _) (List.Subset.refl _)) (by decide),
    State.task_of_stays (h4 _) (by decide), h3, hs1]
  exact ⟨rfl, rfl⟩

/-- A sample counts itself as missed where Strata are frozen, and touches no other object. -/
theorem State.sample_ob (s : State) (cls key : Nat) (v : Int) {j : Nat} (hj : j ≠ K.STA_MISSED) :
    (s.sample cls key v).ob j = s.ob j := by
  have hm : (s.incOb K.STA_MISSED).ob j = s.ob j := State.ob_setOb_ne _ _ hj
  unfold State.sample
  dsimp only
  split
  · rfl
  · split
    · split
      · split
        · exact hm
        · exact hm
      · exact hm
    · split <;> rfl

/-- A release that is taken is counted, and the task waits for its inputs or is active. -/
theorem State.takeAt_task (s : State) {t : Nat} (ht : t < 256) (cause delay : Nat) :
    (s.takeAt t cause delay).ob (K.TSK_RELEASES t) = (s.ob (K.TSK_RELEASES t) + 1) % 2 ^ 64 ∧
      (((s.takeAt t cause delay).task t).st = .copyIn ∨ ((s.takeAt t cause delay).task t).st = .active) := by
  unfold State.takeAt
  extract_lets seq s1 s2 s3 s4 s5 s6
  have h1 : s1.ob (K.TSK_RELEASES t) = (s.ob (K.TSK_RELEASES t) + 1) % 2 ^ 64 := State.ob_setOb_self _ _ _
  clear_value s1
  have h2 : s2.ob (K.TSK_RELEASES t) = s1.ob (K.TSK_RELEASES t) := State.ob_setOb_ne _ _ (by
    unfold K.TSK_RELEASES K.TSK_LAST_RELEASE; omega)
  clear_value s2
  have h4 : s4.objs = s2.objs := rfl
  have h4t : (s4.task t).st = .copyIn := congrArg Task.st (State.task_setTask_self _ _ _)
  clear_value s4
  have h5 : s5.Stays [.sess, .ctxs, .cores] s4 := State.each_stays _ _ (.refl s4 _) fun u i hu => by
    extract_lets g _ u1
    have h1 : u1.Stays [.sess, .ctxs, .cores] s4 := ite_stays hu (State.setSes_stays _ _ _ hu (by decide))
    clear_value u1
    exact State.modCtx_stays _ _ _ (State.dropFlights_stays _ _ h1 (by decide)) (by decide)
  clear_value s5
  have h6o : s6.objs = s5.objs := rfl
  have h6t : s6.tasks = s5.tasks := rfl
  clear_value s6
  have hs : ∀ a b (c : Int), (s6.sample a b c).tasks = s6.tasks := fun a b c =>
    (State.sample_stays _ a b c (.refl s6 _) (List.Subset.refl _)).keeps .tasks (by decide)
  have hst : ∀ a b c, ((s6.sample a b c).task t).st = .copyIn := fun a b c => by
    rw [State.task_of_tasks ((hs a b c).trans (h6t.trans (h5.keeps .tasks (by decide)))), h4t]
  refine ⟨?_, (State.task_openGates _ t (.inl (hst _ _ _))).1⟩
  have hso : ∀ a b (c : Int), (s6.sample a b c).ob (K.TSK_RELEASES t) = s6.ob (K.TSK_RELEASES t) := fun a b c => by
    exact State.sample_ob s6 a b c (by unfold K.TSK_RELEASES K.STA_MISSED; omega)
  rw [State.ob_of_objs ((State.openGates_each _ t).keeps .objs (by decide)), hso,
    State.ob_of_objs (h6o.trans ((h5.keeps .objs (by decide)).trans h4)), h2, h1]

/-- Settles O18. -/
theorem taskCommands : Obligations.TaskCommands := by
  unfold Obligations.TaskCommands
  intro s n k hk hq
  have hat : ∀ v, (s.accepted n (K.TSK_CMD k) v).task k = s.task k := fun v => State.task_of_tasks (s.accepted_tasks n _ v) k
  refine ⟨?_, ?_, ?_, ?_, ?_, ?_⟩
  · intro h hst
    refine ⟨_, rfl, ?_⟩
    rw [State.setCmd_task h hk hq (by decide)]
    have ha := hat 1
    generalize s.accepted n (K.TSK_CMD k) 1 = a at ha ⊢
    change ((a.setTask k _).task k).st = _ ∧ ((a.setTask k _).task k).disPend = _
    rw [State.task_setTask_self, ha, hst]
    exact ⟨rfl, rfl⟩
  · intro h hst
    refine ⟨_, rfl, ?_⟩
    rw [State.setCmd_task h hk hq (by decide)]
    have ha := hat 2
    generalize s.accepted n (K.TSK_CMD k) 2 = a at ha ⊢
    dsimp only
    rw [State.tskCmd_disable, ha, if_pos hst, State.task_tideSettle, State.task_setTask_self]
  · intro h hst
    refine ⟨_, rfl, ?_⟩
    rw [State.setCmd_task h hk hq (by decide)]
    have ha := hat 2
    generalize s.accepted n (K.TSK_CMD k) 2 = a at ha ⊢
    dsimp only
    rw [State.tskCmd_disable, ha, if_neg (by rw [hst]; decide), if_neg (by rw [hst]; decide), State.task_setTask_self]
    exact ⟨hst, rfl, rfl⟩
  · intro h hf
    refine ⟨_, rfl, ?_⟩
    rw [State.setCmd_task h hk hq (by decide)]
    refine State.task_resume _ k ?_
    rwa [State.allFlags_of (State.accepted_objs s n _ 3) (congrArg Task.flags (hat 3))]
  · intro h hd
    refine ⟨_, rfl, ?_⟩
    rw [State.setCmd_task h hk hq (by decide)]
    have ha := hat 4
    generalize s.accepted n (K.TSK_CMD k) 4 = a at ha ⊢
    change ((a.abandonTask k).tideSettle.task k).st = _ ∧ ((a.abandonTask k).tideSettle.task k).flags = _
    obtain ⟨h1, h2⟩ := a.task_abandonTask k
    rw [State.task_tideSettle, h1, h2, ha, hd]
    exact ⟨rfl, rfl⟩
  · intro h hst hu
    refine ⟨_, rfl, ?_⟩
    rw [State.setCmd_task h hk hq (by decide)]
    have ha := hat 5
    have ho := State.accepted_objs s n (K.TSK_CMD k) 5
    generalize s.accepted n (K.TSK_CMD k) 5 = a at ha ho ⊢
    change (a.release a.ns k).ob _ = _ ∧ (((a.release a.ns k).task k).st = _ ∨ ((a.release a.ns k).task k).st = _)
    have hua : a.tskUsed k = true := by
      unfold State.tskUsed State.tskKind State.tskCfg at hu ⊢
      rwa [State.ob_of_objs ho]
    unfold State.release
    dsimp only
    rw [if_neg (by rw [hua]; decide), ha, hst, ← State.ob_of_objs ho]
    exact State.takeAt_task a.draw hk _ _

end Sys2Proof.Machine
end


section
/-! PROOF. Commands of the force table (R196, R198, R203, R340). -/

namespace Sys2Proof.Machine

/-! ### Sessions after acceptance -/

theorem mget_map {α : Type} (d : Nat → α) (g : α → α) (hd : ∀ k, g (d k) = d k) (m : SMap α) (k : Nat) :
    mget d (m.map fun e => (e.1, g e.2)) k = g (mget d m k) := by
  induction m with
  | nil => exact (hd k).symm
  | cons c t ih =>
    simp only [List.map_cons, mget]
    split
    · rfl
    · exact ih

/-- What a write that reaches the dictionary notes in a session that stages the object. -/
def Ses.noted (key : Nat) (x : Ses) : Ses :=
  if (x.txn = .open ∨ x.txn = .voting) ∧ (x.staged.any fun w => decide (w.key = key)) then { x with conflict := x.conflict ++ [key] }
  else x

theorem State.ses_noteWrite (s : State) (key m : Nat) : (s.noteWrite key).ses m = (s.ses m).noted key := by
  have hm : (s.noteWrite key).sess = s.sess.map fun e => (e.1, e.2.noted key) := by
    unfold State.noteWrite
    refine List.map_congr_left fun e _ => ?_
    unfold Ses.noted
    split <;> rfl
  unfold State.ses
  rw [hm]
  exact mget_map (fun _ => Ses.init) (Ses.noted key) (fun _ => rfl) _ _

/-- Acceptance changes a session's result and its conflicts only. -/
theorem State.ses_accepted (s : State) (n key u m : Nat) :
    ∃ r c, (s.accepted n key u).ses m = { s.ses m with result := r, conflict := c } := by
  have hn : ∀ x : Ses, ∃ c, x.noted key = { x with conflict := c } := fun x => by
    unfold Ses.noted
    split
    · exact ⟨_, rfl⟩
    · exact ⟨_, rfl⟩
  unfold State.accepted
  rw [State.ses_noteWrite]
  split
  · obtain ⟨c, hc⟩ := hn (s.ses m)
    exact ⟨_, c, hc⟩
  · obtain ⟨c, hc⟩ := hn ((s.setResult n key stOK rNONE 0).ses m)
    rw [hc]
    unfold State.setResult
    rw [State.ses_setSes]
    split
    · rename_i he
      subst he
      exact ⟨_, c, rfl⟩
    · exact ⟨_, c, rfl⟩

/-! ### Forces that land at once -/

/-- No change of the force table waits, and no line of the image is held. -/
structure State.ForcesFree (s : State) : Prop where
  copies : s.tds.copyIns = []
  queue : s.tds.forceQ = []
  window : s.img.txw = false
  copying : s.img.copying = false
  waiting : s.img.cutWait = false
  next : s.img.cutNext = []
  held : s.img.held = []

theorem State.ForcesFree.lineHeld {s : State} (h : s.ForcesFree) (l : Nat) : s.lineHeld l = false := by
  unfold State.lineHeld
  rw [h.window, h.copying, h.waiting, h.next, h.held]
  rfl

theorem State.ForcesFree.imgForce {s : State} (h : s.ForcesFree) (c : FChange) : s.imgForce c = s.landForce c := by
  unfold State.imgForce State.copyProgress State.forceWaits
  rw [h.copying]
  dsimp only
  rw [if_neg Bool.false_ne_true, h.held]
  have hl : s.lineHeld = fun _ => false := funext h.lineHeld
  rw [hl, List.filter_false]
  rfl

/-- A change of the force table lands at once where nothing waits or is held. -/
theorem State.ForcesFree.forceChange {s : State} (h : s.ForcesFree) (c : FChange) :
    ∃ u : State, u.img = s.img ∧ u.objs = s.objs ∧ s.forceChange c = u.landForce c := by
  set q : State := (s.setTds fun t => { t with forceQ := t.forceQ ++ [(t.seq, c)], seq := t.seq + 1 }) with hq
  set u : State := ((q.setImg fun m => { m with held := [] }).setTds fun t => { t with forceQ := t.forceQ.drop 1 }) with hu
  have hi : u.img = s.img := by
    change { s.img with held := [] } = s.img
    rw [← h.held]
  refine ⟨u, hi, rfl, ?_⟩
  have hfree : u.ForcesFree := by
    refine ⟨h.copies, ?_, ?_, ?_, ?_, ?_, ?_⟩
    · change (s.tds.forceQ ++ [(s.tds.seq, c)]).drop 1 = []
      rw [h.queue]
      rfl
    · rw [hi]; exact h.window
    · rw [hi]; exact h.copying
    · rw [hi]; exact h.waiting
    · rw [hi]; exact h.next
    · rw [hi]; exact h.held
  rw [← hfree.imgForce]
  change q.pumpForces = u.imgForce c
  have hh : q.img.held = [] := h.held
  have hf : q.tds.forceQ = [(s.tds.seq, c)] := by
    change s.tds.forceQ ++ [(s.tds.seq, c)] = _
    rw [h.queue]
    rfl
  have hc : ∀ e, (q.setImg fun m => { m with held := [] }).copiesDone e = true := fun e => by
    change q.tds.copyIns.all _ = true
    have : q.tds.copyIns = [] := h.copies
    rw [this]
    rfl
  unfold State.pumpForces
  rw [hh]
  change State.each ((q.setImg fun m => { m with held := [] }).setTds fun t => { t with
      forceQ := t.forceQ.drop (q.tds.forceQ.takeWhile fun e => (q.setImg fun m => { m with held := [] }).copiesDone e.1).length })
    ((q.tds.forceQ.take (q.tds.forceQ.takeWhile fun e => (q.setImg fun m => { m with held := [] }).copiesDone e.1).length).map
      Prod.snd) State.imgForce = _
  rw [hf]
  simp only [List.takeWhile, hc]
  rfl

/-! ### What a change leaves in the table -/

theorem State.devTxn_ob (s : State) (first pages : Nat) {f : State → State} (hf : ∀ u, (f u).objs = u.objs) {j : Nat}
    (h1 : j ≠ K.BDR_INHIBITED) (h2 : j ≠ K.BDR_TXN_COMMITS) : (s.devTxn first pages f).ob j = s.ob j := by
  have hfin : ∀ u : State, u.finishApply.ob j = u.ob j := fun u => by
    unfold State.finishApply
    split
    · refine (State.ob_setOb_ne _ _ h2).trans (State.ob_of_objs ?_ _)
      exact (State.applySlot_stays _ _ (.refl u _) (List.Subset.refl _)).keeps .objs (by decide)
    · rfl
  have hj : ∀ (u : State) m, (u.journal m).ob j = u.ob j := fun u m => by
    unfold State.journal
    extract_lets v k w
    have hv : v.ob j = u.ob j := hfin u
    clear_value v
    have hw : w.objs = v.objs := rfl
    clear_value w
    exact (State.ob_of_objs (s := w) rfl j).trans ((State.ob_of_objs hw j).trans hv)
  unfold State.devTxn
  split
  · rfl
  · split
    · exact State.ob_setOb_ne _ _ h1
    · extract_lets u data
      have hu : u.ob j = s.ob j := hfin s
      clear_value u data
      have hd : ∀ (v : State) p q, (((v.wear p 1).wear q 1).draw).objs = v.objs := fun _ _ _ => rfl
      rw [State.ob_of_objs (hf _), State.ob_of_objs (hd _ _ _), hfin, hj, hu]

theorem State.retainForceTable_ob (s : State) {j : Nat} (h1 : j ≠ K.BDR_INHIBITED) (h2 : j ≠ K.BDR_TXN_COMMITS) :
    s.retainForceTable.ob j = s.ob j := by
  unfold State.retainForceTable
  split
  · rfl
  · refine State.devTxn_ob s 464 32 (fun u => ?_) h1 h2
    rfl

/-- A change that lands makes the table what forceTable says, and FORCE_EN what it carries. -/
theorem State.landForce_img (s : State) (c : FChange) :
    (s.landForce c).img.forces = s.forceTable c ∧ (s.landForce c).img.orphan0 = (s.noForceAfter c).orphan ∧
      ∀ b, c = .enable b → (s.landForce c).ob K.IMG_CTL = b2n b := by
  unfold State.landForce
  extract_lets k tg ls t zero s1 s2 s3 s4
  have h2 : s2.img.forces = t ∧ s2.img.orphan0 = zero := ⟨rfl, rfl⟩
  clear_value s2
  have h3 : s3.img = s2.img ∧ ∀ b, c = .enable b → s3.ob K.IMG_CTL = b2n b := by
    cases c with
    | enable b => exact ⟨rfl, fun b' he => by cases he; exact State.ob_setOb_self s2 _ _⟩
    | set _ _ _ | clear _ | clearAll | table _ => exact ⟨rfl, fun _ he => by cases he⟩
  clear_value s3
  have h4 : s4.Stays [.mem] s3 := by
    refine State.each_stays _ _ (.refl s3 _) fun u i hu => ?_
    extract_lets f
    exact ite_stays hu (State.each_stays _ _ hu fun v j hv => State.setByte_stays _ _ hv (List.Subset.refl _))
  have h4i := h4.keeps .img (by decide)
  have h4o := h4.keeps .objs (by decide)
  clear_value s4
  set s5 := s4.each ls State.markLine
  have h5 : s5.objs = s4.objs ∧ s5.img.forces = s4.img.forces ∧ s5.img.orphan0 = s4.img.orphan0 := by
    refine State.each_induct (fun u => u.objs = s4.objs ∧ u.img.forces = s4.img.forces ∧ u.img.orphan0 = s4.img.orphan0)
      ⟨rfl, rfl, rfl⟩ fun u l _ hu => ?_
    unfold State.markLine
    split <;> exact hu
  clear_value s5
  have h6 := State.orphanRise_stays s5 k (.refl s5 _) (List.Subset.refl _)
  have h6i := h6.keeps .img (by decide)
  have h6o := h6.keeps .objs (by decide)
  generalize s5.orphanRise k = s6 at h6i h6o ⊢
  have h7 := (State.retainForceTable_stays s6 (.refl s6 _) (List.Subset.refl _)).keeps .img (by decide)
  refine ⟨?_, ?_, fun b hb => ?_⟩
  · rw [h7, h6i, h5.2.1, h4i, h3.1, h2.1]
  · rw [h7, h6i, h5.2.2, h4i, h3.1, h2.2]
  · rw [State.retainForceTable_ob _ (by decide) (by decide), State.ob_of_objs (h6o.trans (h5.1.trans h4o)), h3.2 b hb]

/-- A change that a write asks for lands at once where nothing waits or is held, and no partner is to take it. -/
theorem State.ForcesFree.forceReq {s : State} (h : s.ForcesFree) (hr : s.replicates = false) (c : FChange) :
    ∃ u : State, u.img = s.img ∧ (s.forceReq c).img.forces = u.forceTable c ∧
      (s.forceReq c).img.orphan0 = (u.noForceAfter c).orphan ∧ ∀ b, c = .enable b → (s.forceReq c).ob K.IMG_CTL = b2n b := by
  obtain ⟨u, hi, ho, he⟩ := h.forceChange c
  refine ⟨u, hi, ?_⟩
  unfold State.forceReq
  rw [hr, if_neg Bool.false_ne_true, he]
  exact u.landForce_img c

theorem State.force_of_img {s t : State} (h : t.img = s.img) (m : Nat) : t.force m = s.force m := by
  unfold State.force State.noForce
  rw [h]

/-- A table read at an entry, where the value of an entry never written is noForce's. -/
theorem State.force_eq {t : State} {f : SMap Force} {z : Bool} (hf : t.img.forces = f) (hz : t.img.orphan0 = z) (m : Nat) :
    t.force m = mget (fun _ => { Force.init with orphan := z }) f m := by
  unfold State.force State.noForce
  rw [hf, hz]

theorem State.ForcesFree.force_set {s : State} (h : s.ForcesFree) (hr : s.replicates = false) (n k v : Nat) :
    ((s.forceReq (.set n k v)).force n).en = true ∧ ((s.forceReq (.set n k v)).force n).key = k &&& forceKeyMask ∧
      ((s.forceReq (.set n k v)).force n).val = v ∧ ∀ m, m ≠ n → (s.forceReq (.set n k v)).force m = s.force m := by
  obtain ⟨u, hi, hf, hz, -⟩ := h.forceReq hr (.set n k v)
  have hg := fun m => State.force_eq hf hz m
  have hn : ({ Force.init with orphan := (u.noForceAfter (.set n k v)).orphan } : Force) = u.noForce := rfl
  refine ⟨?_, ?_, ?_, fun m hm => ?_⟩
  · rw [hg, hn]; exact congrArg Force.en (mget_mput_self _ _ _ _)
  · rw [hg, hn]; exact congrArg Force.key (mget_mput_self _ _ _ _)
  · rw [hg, hn]; exact congrArg Force.val (mget_mput_self _ _ _ _)
  · rw [hg, hn]
    exact (mget_mput_ne _ _ _ _ hm).trans (State.force_of_img hi m)

theorem State.ForcesFree.force_clear {s : State} (h : s.ForcesFree) (hr : s.replicates = false) (n : Nat) :
    ((s.forceReq (.clear n)).force n).en = false ∧ ∀ m, m ≠ n → (s.forceReq (.clear n)).force m = s.force m := by
  obtain ⟨u, hi, hf, hz, -⟩ := h.forceReq hr (.clear n)
  have hg := fun m => State.force_eq hf hz m
  have hn : ({ Force.init with orphan := (u.noForceAfter (.clear n)).orphan } : Force) = u.noForce := rfl
  refine ⟨?_, fun m hm => ?_⟩
  · rw [hg, hn]; exact congrArg Force.en (mget_mput_self _ _ _ _)
  · rw [hg, hn]
    exact (mget_mput_ne _ _ _ _ hm).trans (State.force_of_img hi m)

theorem State.ForcesFree.force_clearAll {s : State} (h : s.ForcesFree) (hr : s.replicates = false) (m : Nat) :
    ((s.forceReq .clearAll).force m).en = false := by
  obtain ⟨u, hi, hf, hz, -⟩ := h.forceReq hr .clearAll
  rw [State.force_eq hf hz m]
  rcases mget_mem (fun _ => { Force.init with orphan := (u.noForceAfter .clearAll).orphan }) (u.forceTable .clearAll) m with
    he | ⟨j, hj⟩
  · rw [he]; rfl
  · obtain ⟨e, -, he⟩ := List.mem_map.1 (List.mem_filter.1 hj).1
    rw [← (Prod.mk.inj he).2]

theorem State.accepted_img (s : State) (n key u : Nat) : (s.accepted n key u).img = s.img :=
  (s.accepted_stays' n key u).keeps .img (by decide)

theorem State.ForcesFree.accepted {s : State} (h : s.ForcesFree) (n key u : Nat) : (s.accepted n key u).ForcesFree := by
  have ht := s.accepted_tds n key u
  have hi := s.accepted_img n key u
  exact ⟨ht ▸ h.copies, ht ▸ h.queue, hi ▸ h.window, hi ▸ h.copying, hi ▸ h.waiting, hi ▸ h.next, hi ▸ h.held⟩

theorem forceCmd_value : ∀ v < 5, (objRow K.IMG_FORCE_CMD).map (·.value v) = some v := by decide

/-- IMG.FORCE_CMD, taken. -/
theorem State.setCmd_force {s : State} {n v : Nat} (h : Takes s n K.IMG_FORCE_CMD v) (hv : v < 5) :
    s.setCmd n K.IMG_FORCE_CMD v = (s.accepted n K.IMG_FORCE_CMD v).forceCmd n v :=
  State.setCmd_of_index_plain h (i := 0x2202) (by decide) (by decide) (by decide) (h.value_eq (forceCmd_value v hv)) (by decide)

theorem State.accepted_replicates (s : State) (n key u : Nat) : (s.accepted n key u).replicates = s.replicates := by
  unfold State.replicates State.peerStandby
  rw [State.accepted_red]

/-- Settles O19. -/
theorem forceCommands : Obligations.ForceCommands := by
  unfold Obligations.ForceCommands
  have hses : ∀ (s : State) n v, ((s.accepted n K.IMG_FORCE_CMD v).ses n).forceSel = (s.ses n).forceSel ∧
      ((s.accepted n K.IMG_FORCE_CMD v).ses n).forceKey = (s.ses n).forceKey ∧
      ((s.accepted n K.IMG_FORCE_CMD v).ses n).forceVal = (s.ses n).forceVal := fun s n v => by
    obtain ⟨r, c, h⟩ := s.ses_accepted n K.IMG_FORCE_CMD v n
    rw [h]
    exact ⟨rfl, rfl, rfl⟩
  have hforce : ∀ (s : State) n key v m, (s.accepted n key v).force m = s.force m := fun s n key v m =>
    State.force_of_img (s.accepted_img n key v) m
  refine ⟨?_, ?_, ?_⟩
  · intro s n h1 h2 h3 h4 h5 h6 h7 hr
    have hfree : s.ForcesFree := ⟨h1, h2, h3, h4, h5, h6, h7⟩
    refine ⟨?_, ?_, ?_, ?_⟩
    · intro h
      refine completes_of rfl (State.setCmd_force h (by decide)) ?_
      obtain ⟨e1, e2, e3⟩ := hses s n 1
      have hr' := (s.accepted_replicates n K.IMG_FORCE_CMD 1).trans hr
      have hf := hfree.accepted n K.IMG_FORCE_CMD 1
      have hs := hforce s n K.IMG_FORCE_CMD 1
      generalize s.accepted n K.IMG_FORCE_CMD 1 = a at e1 e2 e3 hr' hf hs ⊢
      have hc : a.forceCmd n 1 = a.forceReq (.set (s.ses n).forceSel (s.ses n).forceKey (s.ses n).forceVal) := by
        rw [← e1, ← e2, ← e3]
        rfl
      rw [hc]
      obtain ⟨q1, q2, q3, q4⟩ := hf.force_set hr' (s.ses n).forceSel (s.ses n).forceKey (s.ses n).forceVal
      exact ⟨q1, q2, q3, fun m hm => (q4 m hm).trans (hs m)⟩
    · intro h
      refine completes_of rfl (State.setCmd_force h (by decide)) ?_
      obtain ⟨e1, -, -⟩ := hses s n 2
      have hr' := (s.accepted_replicates n K.IMG_FORCE_CMD 2).trans hr
      have hf := hfree.accepted n K.IMG_FORCE_CMD 2
      have hs := hforce s n K.IMG_FORCE_CMD 2
      generalize s.accepted n K.IMG_FORCE_CMD 2 = a at e1 hr' hf hs ⊢
      have hc : a.forceCmd n 2 = a.forceReq (.clear (s.ses n).forceSel) := by
        rw [← e1]
        rfl
      rw [hc]
      obtain ⟨q1, q2⟩ := hf.force_clear hr' (s.ses n).forceSel
      exact ⟨q1, fun m hm => (q2 m hm).trans (hs m)⟩
    · intro h
      refine completes_of rfl (State.setCmd_force h (by decide)) ?_
      exact (hfree.accepted n K.IMG_FORCE_CMD 4).force_clearAll ((s.accepted_replicates n K.IMG_FORCE_CMD 4).trans hr)
    · intro v hv h
      have hval : ∀ v < 2, (objRow K.IMG_CTL).map (·.value v) = some v := by decide
      refine completes_of rfl (State.setCmd_of_index_plain h (i := 0x2200) (by decide) (by decide) (by decide)
        (h.value_eq (hval v hv)) (by decide)) ?_
      obtain ⟨-, -, -, -, hb⟩ := (hfree.accepted n K.IMG_CTL v).forceReq ((s.accepted_replicates n K.IMG_CTL v).trans hr)
        (.enable (bit v 0))
      exact (hb _ rfl).trans ((by decide : ∀ v < 2, b2n (bit v 0) = v) v hv)
  · intro s n h
    refine completes_of rfl (State.setCmd_force h (by decide)) ?_
    obtain ⟨e1, -, -⟩ := hses s n 3
    have hs := hforce s n K.IMG_FORCE_CMD 3
    generalize s.accepted n K.IMG_FORCE_CMD 3 = a at e1 hs ⊢
    have hx : (a.forceCmd n 3).ses n = { a.ses n with
        forceKey := (a.force (a.ses n).forceSel).key
        forceVal := (a.force (a.ses n).forceSel).val } := (State.ses_setSes a n _ n).trans (if_pos rfl)
    rw [hx, e1, hs]
    exact ⟨rfl, rfl⟩
  · intro s n hr ht h
    refine completes_of rfl (State.setCmd_force h (by decide)) ?_
    obtain ⟨e1, e2, e3⟩ := hses s n 1
    have hr' := (s.accepted_replicates n K.IMG_FORCE_CMD 1).trans hr
    have hs := hforce s n K.IMG_FORCE_CMD 1
    have htd := s.accepted_tds n K.IMG_FORCE_CMD 1
    have hred := s.accepted_red n K.IMG_FORCE_CMD 1
    generalize s.accepted n K.IMG_FORCE_CMD 1 = a at e1 e2 e3 hr' hs htd hred ⊢
    have hst : a.tideStopped = false := by
      unfold State.tideStopped at ht ⊢
      rwa [htd]
    have hc : a.forceCmd n 1 = a.forceReq (.set (s.ses n).forceSel (s.ses n).forceKey (s.ses n).forceVal) := by
      rw [← e1, ← e2, ← e3]
      rfl
    rw [hc]
    generalize FChange.set (s.ses n).forceSel (s.ses n).forceKey (s.ses n).forceVal = c
    unfold State.forceReq
    rw [hr', if_pos rfl]
    unfold State.replSend
    have hst' : (a.setRed fun r => { r with replSent := r.replSent ++ [.force c] }).tideStopped = false := hst
    dsimp only
    rw [hst', if_neg Bool.false_ne_true]
    refine ⟨?_, fun m => hs m⟩
    change a.red.repl ++ [.force c] = _
    rw [hred]

end Sys2Proof.Machine
end


section
/-! PROOF. Writes of objects (R39 to R41, R43), logins and the ends of sessions (R34, R35, R37). -/

namespace Sys2Proof.Machine

/-! ### The order of the checks -/

theorem firstFail_mem (l : List (Nat × Nat)) (a : Nat × Nat) :
    l.foldl (fun a b => if rankOf b.1 < rankOf a.1 then b else a) a = a ∨
      l.foldl (fun a b => if rankOf b.1 < rankOf a.1 then b else a) a ∈ l := by
  induction l generalizing a with
  | nil => exact .inl rfl
  | cons c l ih =>
    rw [List.foldl_cons]
    split
    · rcases ih c with h | h
      · exact .inr (List.mem_cons.2 (.inl h))
      · exact .inr (List.mem_cons_of_mem _ h)
    · exact (ih a).imp_right (List.mem_cons_of_mem _)

/-- Where nothing fails, the check is OK without a reason. -/
theorem firstFail_of_ok {l : List (Nat × Nat)} (h : ∀ e ∈ l, e.1 = stOK) : firstFail l = (stOK, rNONE) := by
  unfold firstFail
  induction l with
  | nil => rfl
  | cons c l ih =>
    rw [List.foldl_cons, if_neg (by rw [h c List.mem_cons_self]; exact Nat.lt_irrefl _)]
    exact ih fun e he => h e (List.mem_cons_of_mem _ he)

theorem State.ses_of_sess {s t : State} (h : t.sess = s.sess) (n : Nat) : t.ses n = s.ses n := by
  unfold State.ses
  rw [h]

/-! ### Objects that only hold a value -/

theorem State.store_of_plain (s : State) {key : Nat} (v : Nat) (h : isRetained key = false) : s.store key v = s.setOb key v := by
  unfold State.store State.retain
  rw [if_pos h]

/-- What a write that is accepted and only stores its value does. -/
theorem State.objectWrite_stores {s : State} {n key v : Nat} (h : Takes s n key v)
    (hi : plainIndex (key / 256) = true ∨ key = K.DIC_SESSION_IDLE ∨ key = K.DIC_TXN_TIMEOUT) (hs : stopsTide key = false)
    (ho : key / 256 ≠ 0x2400) (hk : ∀ (u : State) w, u.applyOb n key w = u.setOb key w) :
    Completes (.objectWrite n (key / 256) (key % 256) (s.obBytes key) v) s fun t =>
      t.ob key = s.valueOf key v ∧ (∀ k, k ≠ key → t.ob k = s.ob k) ∧ (t.ses n).result = resultOf key stOK rNONE 0 ∧
        (∀ a, t.byte a = s.byte a) ∧ t.ctxs = s.ctxs := by
  have hset : s.setCmd n key v = (s.accepted n key (s.valueOf key v)).setOb key (s.valueOf key v) := by
    rw [← hk]
    rcases hi with hi | rfl | rfl
    · exact State.setCmd_of_index_plain h rfl hi ho rfl hs
    · exact (State.setCmd_of_takes_plain h (by decide) (by decide) (by decide) (by decide) (by decide) (by decide) hs)
    · exact (State.setCmd_of_takes_plain h (by decide) (by decide) (by decide) (by decide) (by decide) (by decide) hs)
  refine completes_of (t := s.setCmd n key v) ?_ hset ?_
  · change Host.Outcome.next (s.dictWrite n (key / 256 * 256 + key % 256) 0 (s.obBytes key) v) = _
    rw [Nat.div_add_mod' key 256]
    rfl
  · have hobjs := State.accepted_objs s n key (s.valueOf key v)
    have hmem := State.accepted_mem s n key (s.valueOf key v)
    have hctx := (s.accepted_stays' n key (s.valueOf key v)).keeps .ctxs (by decide)
    have hses : ((s.accepted n key (s.valueOf key v)).ses n).result = resultOf key stOK rNONE 0 := by
      unfold State.accepted
      rw [if_neg fun (hc : key = K.OLC_CMD ∧ _) => ho (by rw [hc.1]; decide), State.ses_noteWrite]
      have hr : ((s.setResult n key stOK rNONE 0).ses n).result = resultOf key stOK rNONE 0 :=
        congrArg Ses.result ((State.ses_setSes s n _ n).trans (if_pos rfl))
      unfold Ses.noted
      split <;> exact hr
    generalize s.accepted n key (s.valueOf key v) = a at hobjs hmem hctx hses ⊢
    refine ⟨State.ob_setOb_self _ _ _, fun k hne => ?_, hses, fun x => State.byte_of_mem hmem x, hctx⟩
    exact (State.ob_setOb_ne _ _ hne).trans (State.ob_of_objs hobjs k)

/-- A refused write leaves its result alone, where its object notes nothing of a refusal. -/
theorem State.refusedNote_self (s : State) {n key v st reason : Nat} (hi : key / 256 ≠ 0x1202)
    (hk : ∀ k ∈ [K.DIC_LOGIN, K.TDS_CMD, K.NTM_OFFSET, K.OLC_CMD, K.BDR_UNLOCK, K.BDR_TXN, K.HLT_TEST_REQ], key ≠ k) :
    s.refusedNote n key v st reason = s := by
  unfold State.refusedNote
  rw [if_neg (hk _ (by simp)), if_neg fun h => hk _ (by simp) h.1, if_neg (hk _ (by simp)), if_neg (hk _ (by simp)),
    if_neg fun h => hi h.1, if_neg (hk _ (by simp)), if_neg fun h => hk _ (by simp) h.1, if_neg fun h => hk _ (by simp) h.1]

/-- Settles O22. -/
theorem objectWrites : Obligations.ObjectWrites := by
  unfold Obligations.ObjectWrites
  refine ⟨?_, ?_, ?_⟩
  · intro s n v key hkey h
    have hp : ∀ k ∈ [K.TDS_OFFSET, K.TDS_GUARD, K.DIC_SESSION_IDLE, K.DIC_TXN_TIMEOUT, K.STA_REPEAT_GAP, K.NTM_LATE_LIMIT,
        K.HNW_LOSS_TIDES], (plainIndex (k / 256) = true ∨ k = K.DIC_SESSION_IDLE ∨ k = K.DIC_TXN_TIMEOUT) ∧
          stopsTide k = false ∧ k / 256 ≠ 0x2400 ∧ isRetained k = false := by decide +kernel
    obtain ⟨h1, h2, h3, h4⟩ := hp key hkey
    refine State.objectWrite_stores h h1 h2 h3 fun u w => ?_
    rw [← State.store_of_plain u w h4]
    simp only [List.mem_cons, List.not_mem_nil, or_false] at hkey
    obtain rfl | rfl | rfl | rfl | rfl | rfl | rfl := hkey <;> rfl
  · intro s n key v st reason hi hk h
    refine completes_of (t := s.setCmd n key v) ?_ (State.setCmd_of_refuses h) ?_
    · change Host.Outcome.next (s.dictWrite n (key / 256 * 256 + key % 256) 0 (s.obBytes key) v) = _
      rw [Nat.div_add_mod' key 256]
      rfl
    · unfold State.when
      dsimp only
      rw [State.refusedNote_self s hi hk, ite_self]
  · intro l
    exact ⟨(firstFail_rank l _).1, (firstFail_mem l _).imp (congrArg Prod.fst) id, firstFail_of_ok⟩

/-- Settles O23. -/
theorem loginAndSessions : Obligations.LoginAndSessions := by
  unfold Obligations.LoginAndSessions
  refine ⟨?_, ?_, ?_⟩
  · intro s n v hn h
    refine completes_of rfl (State.setCmd_of_takes_plain h (by decide) (by decide) (by decide) (by decide) (by decide) (by decide)
      (by decide)) ?_
    generalize s.valueOf K.DIC_LOGIN v = u
    generalize s.accepted n K.DIC_LOGIN u = a
    have hl : a.applyOb n K.DIC_LOGIN u = a.modSes n fun x => { x with role := bits u 39 32 } := if_pos hn
    rw [hl]
    exact congrArg Ses.role ((State.ses_setSes a n _ n).trans (if_pos rfl))
  · intro s path hl
    refine ⟨_, rfl, ?_⟩
    unfold State.lockoutEnd
    dsimp only
    rw [if_pos hl]
    dsimp only
    exact mget_mput_self (fun _ => Path.init) _ _ _
  · intro s n h1 h2 ho ht
    refine ⟨_, rfl, ?_⟩
    unfold State.sesIdle
    rw [if_pos ⟨h1, h2, ho⟩]
    have hs : ∀ t, (s.reachMono t).ses n = s.ses n := fun t =>
      State.ses_of_sess ((State.reachMono_stays s t (.refl s _) (List.Subset.refl _)).keeps .sess (by decide)) n
    unfold State.sesClose
    extract_lets x u v
    rw [if_neg (by rw [show x = s.ses n from hs _]; exact ht)]
    dsimp only
    rw [State.ses_setSes, if_pos rfl]

end Sys2Proof.Machine
end


section
/-! PROOF. Transactions of the dictionary, and the handshakes of a commit (R46, R48 to R50, R52, R563). -/

namespace Sys2Proof.Machine

/-! ### A session after what happens in it -/

theorem State.ses_modSes_self (s : State) (n : Nat) (f : Ses → Ses) : (s.modSes n f).ses n = f (s.ses n) :=
  (State.ses_setSes s n _ n).trans (if_pos rfl)

theorem State.ses_modSes (s : State) (n : Nat) (f : Ses → Ses) (m : Nat) :
    (s.modSes n f).ses m = if m = n then f (s.ses n) else s.ses m := State.ses_setSes s n _ m

theorem State.ses_setResult_self (s : State) (n key st reason dies : Nat) :
    (s.setResult n key st reason dies).ses n = { s.ses n with result := resultOf key st reason dies } :=
  (State.ses_setSes s n _ n).trans (if_pos rfl)

theorem State.ob_modSes (s : State) (n : Nat) (f : Ses → Ses) (j : Nat) : (s.modSes n f).ob j = s.ob j := rfl

theorem State.each_singleton {α : Type} (s : State) (a : α) (f : State → α → State) : s.each [a] f = f s a := rfl

/-- A reply that leaves changes what a session has due and its latest response only. -/
theorem State.ses_reply (s : State) (n key : Nat) (data : List Byte) (m : Nat) :
    ∃ d r, (s.reply n key data).ses m = { s.ses m with due := d, rsp := r } := by
  have hsame : ∀ {t : State} {fs : List Field}, t.Stays fs s → Field.sess ∉ fs → ∃ d r, t.ses m = { s.ses m with due := d, rsp := r } :=
    fun h hf => ⟨_, _, State.ses_of_sess (h.keeps .sess hf) m⟩
  unfold State.reply
  split
  · exact ⟨_, _, rfl⟩
  · split
    · unfold State.svcDone
      split
      · exact ⟨_, _, rfl⟩
      · rename_i q _
        unfold State.svcSend
        extract_lets b
        rw [State.ses_of_sess ((State.svcFrame_stays _ q.port q.peer q.tag b (.refl _ _) (List.Subset.refl _)).keeps .sess (by decide)),
          State.ses_modSes, State.ses_modSes, State.ses_modSes]
        by_cases hm : m = n
        · subst hm
          simp only [if_true]
          exact ⟨_, _, rfl⟩
        · rw [if_neg hm, if_neg hm]
          exact ⟨_, _, rfl⟩
    · exact hsame (State.sdoDone_stays s n key data (.refl s _) (List.Subset.refl _)) (by decide)

/-! ### Votes -/

theorem State.txnDecide_yes {s : State} {n d : Nat} (hno : (s.ses n).no = []) (hy : d ∈ (s.ses n).yes) (ht : (s.ses n).txn = .voting) :
    d ∈ ((s.txnDecide n).ses n).yes ∧ (((s.txnDecide n).ses n).txn = .voting ∨ ((s.txnDecide n).ses n).txn = .pending) := by
  unfold State.txnDecide
  dsimp only
  rw [hno]
  split
  · obtain ⟨e, r, h⟩ := State.ses_reply ((s.setResult n K.DIC_TXN stOK rNONE 0).modSes n fun x => { x with
        txn := .pending
        slack := !s.tideStopped }) n K.DIC_TXN [] n
    rw [h, State.ses_modSes_self, State.ses_setResult_self]
    exact ⟨hy, .inr rfl⟩
  · exact ⟨hy, .inl ht⟩

/-- One refusal, where every die has voted, ends the transaction. -/
theorem State.txnDecide_no {s : State} {n : Nat} (hno : (s.ses n).no ≠ [])
    (hall : ((s.ses n).dies.all fun d => (s.ses n).yes.contains d || (s.ses n).no.any fun e => decide (e.1 = d)) = true) :
    ((s.txnDecide n).ses n).txn = .failed ∧ ((s.txnDecide n).ses n).staged = [] := by
  unfold State.txnDecide
  dsimp only
  rw [if_pos hall]
  split
  · contradiction
  · generalize firstNo (s.ses n).no = f
    obtain ⟨e, r, h⟩ := State.ses_reply ((s.setResult n f.2.2 stCOMMIT f.2.1 (maskOf ((s.ses n).no.map Prod.fst))).modSes n
      fun x => x.endTxn .failed) n K.DIC_TXN [] n
    rw [h, State.ses_modSes_self]
    exact ⟨rfl, rfl⟩

theorem State.dieVote_yes {s : State} {n d : Nat} (hd : s.voteDue n d = true) (ha : s.dieAnswers d = true)
    (hv : s.voteNo n d = none) (hno : (s.ses n).no = []) :
    d ∈ ((s.dieVote n d).ses n).yes ∧ (((s.dieVote n d).ses n).txn = .voting ∨ ((s.dieVote n d).ses n).txn = .pending) := by
  have ht : (s.ses n).txn = .voting := by
    unfold State.voteDue at hd
    simp only [Bool.and_eq_true, decide_eq_true_eq] at hd
    exact hd.1.1.1.1
  unfold State.dieVote
  rw [if_pos (by rw [hd, ha]; rfl), hv]
  have hs := s.ses_modSes_self n fun x => { x with yes := x.yes ++ [d] }
  refine State.txnDecide_yes ?_ ?_ ?_ <;> rw [hs]
  · exact hno
  · exact List.mem_append_right _ List.mem_cons_self
  · exact ht

theorem State.txnTimeout_fails {s : State} {n d : Nat} (hd : s.voteDue n d = true) (hs : (s.ses n).dies = [d]) :
    ((s.txnTimeout n d).ses n).txn = .failed ∧ ((s.txnTimeout n d).ses n).staged = [] := by
  unfold State.txnTimeout
  rw [if_pos hd]
  extract_lets u key off
  have hu : u.ses n = s.ses n := State.ses_of_sess
    ((State.raise_stays _ _ _ _ _ _ _ (State.reachMono_stays s _ (.refl s [.objs, .ntm, .fresh, .flt]) (by decide)) (by decide)).keeps
      .sess (by decide)) n
  clear_value u key
  have hw := u.ses_modSes_self n fun x => { x with no := x.no ++ [(d, if off then rDOMAIN_OFF else rTIMEOUT, key)] }
  refine State.txnDecide_no ?_ ?_ <;> rw [hw]
  · simp
  · dsimp only
    rw [hu, hs]
    simp

/-! ### Applying and confirming -/

theorem State.dieApply_eq {s : State} {n d : Nat} (ht : (s.ses n).txn = .pending) (hd : d ∈ (s.ses n).dies)
    (ha : d ∉ (s.ses n).applied) :
    s.dieApply n d = (s.each ((s.ses n).staged.filter fun w => decide (dieOf w.key = d)) fun s w =>
      s.applyWrite n w.key (s.valueOf w.key w.v)).modSes n fun x => { x with applied := x.applied ++ [d], slack := false } :=
  if_pos ⟨ht, by simpa using hd, by simpa using ha⟩

theorem State.txnApply_eq {s : State} {n d : Nat} (ht : (s.ses n).txn = .pending) (hd : d ∈ (s.ses n).dies)
    (ha : d ∉ (s.ses n).applied) (hs : (s.ses n).slack = false) (hq : s.txnWaiting = []) :
    s.txnApply n d = (s.each ((s.ses n).staged.filter fun w => decide (dieOf w.key = d)) fun s w =>
      s.applyWrite n w.key (s.valueOf w.key w.v)).modSes n fun x => { x with applied := x.applied ++ [d], slack := false } := by
  unfold State.txnApply
  rw [hs, if_neg Bool.false_ne_true, State.dieApply_eq ht hd ha]
  refine State.NoneWaits.settle ?_
  refine State.NoneWaits.setSes ?_ (by simp)
  exact ((State.txnWaiting_nil_iff s).1 hq).each _ _ fun u w hu => hu.applyWrite n w.key _

theorem State.applyWrite_offset {s : State} (hr : s.replicates = false) (n v : Nat) :
    (s.applyWrite n K.TDS_OFFSET v).ob K.TDS_OFFSET = v := by
  unfold State.applyWrite
  extract_lets u
  have hu : u.replicates = false := hr
  clear_value u
  rw [hu, Bool.false_and, if_neg Bool.false_ne_true]
  have hk : u.applyOb n K.TDS_OFFSET v = u.setOb K.TDS_OFFSET v := State.store_of_plain (key := K.TDS_OFFSET) u v (by decide +kernel)
  rw [hk]
  exact State.ob_setOb_self _ _ _

theorem State.txnConfirm_eq {s : State} {n d : Nat} (ht : (s.ses n).txn = .pending) (ha : d ∈ (s.ses n).applied)
    (hc : d ∉ (s.ses n).confirmed) (hd : s.dieAnswers d = true) :
    (s.txnConfirm n d).ses n = if (s.ses n).dies.all ((s.ses n).confirmed ++ [d]).contains then (s.ses n).endTxn .done
      else { s.ses n with confirmed := (s.ses n).confirmed ++ [d] } := by
  unfold State.txnConfirm
  dsimp only
  rw [if_pos ⟨ht, by simpa using ha, by simpa using hc, hd⟩, State.ses_modSes_self]

/-! ### Commands of a transaction -/

/-- DIC.TXN, with its write served and passing every check. -/
theorem State.setCmd_txn {s : State} {n v : Nat} (hs : s.served n = true)
    (hw : s.writeCheck n K.DIC_TXN (s.obBytes K.DIC_TXN) v = (stOK, rNONE)) :
    s.setCmd n K.DIC_TXN v = s.txnCmd n (s.valueOf K.DIC_TXN v) := by
  unfold State.setCmd State.dictWrite
  rw [hs]
  have h1 : isOem (K.DIC_TXN / 256) = false := by decide
  have h2 : isTypeDesc K.DIC_TXN = false := by decide
  have h3 : K.DIC_TXN / 256 ≠ 0x1180 := by decide
  simp only [Bool.not_true, Bool.false_eq_true, if_false, h1, h2, if_neg h3, if_true, hw, ne_eq, not_true]

theorem State.row_of_writeCheck {s : State} {n key w v : Nat} (h : s.writeCheck n key w v = (stOK, rNONE)) :
    ∃ r, s.rowOf key = some r := by
  cases hr : s.rowOf key with
  | some r => exact ⟨r, rfl⟩
  | none =>
    unfold State.writeCheck at h
    rw [hr] at h
    have hst : stNOOBJ = stOK := congrArg Prod.fst h
    exact absurd hst (by decide)

theorem State.value_of_writeCheck {s : State} {n key w v u : Nat} (h : s.writeCheck n key w v = (stOK, rNONE))
    (hr : (objRow key).map (·.value v) = some u) : s.valueOf key v = u := by
  obtain ⟨r, hr'⟩ := State.row_of_writeCheck h
  have ho := State.objRow_of_rowOf hr'
  unfold State.valueOf
  rw [hr']
  rw [ho] at hr
  exact Option.some.inj hr

theorem txnCmd_value : ∀ v < 4, (objRow K.DIC_TXN).map (·.value v) = some v := by decide

theorem State.setCmd_txnCmd {s : State} {n v : Nat} (hs : s.served n = true)
    (hw : s.writeCheck n K.DIC_TXN (s.obBytes K.DIC_TXN) v = (stOK, rNONE)) (hv : v < 4) :
    s.setCmd n K.DIC_TXN v = s.txnCmd n v := by
  rw [State.setCmd_txn hs hw, State.value_of_writeCheck hw (txnCmd_value v hv)]

theorem stagedOffset_key (v : Nat) : Staged.key { idx := 0x2001, sub := 2, width := 4, v := v } = K.TDS_OFFSET := by
  have hk : 0x2001 * 256 + 2 = K.TDS_OFFSET := by decide
  unfold Staged.key
  exact hk

/-- Settles O24. -/
theorem transactions : Obligations.Transactions := by
  unfold Obligations.Transactions
  refine ⟨fun s n hs => ⟨?_, ?_, ?_, ?_, ?_⟩, fun s n d => ⟨?_, ?_, ?_, ?_, ?_⟩⟩
  · intro hw
    refine completes_of rfl (State.setCmd_txnCmd hs hw (by decide)) ?_
    change ((State.txnBegin s n).ses n).txn = _ ∧ ((State.txnBegin s n).ses n).staged = _
    unfold State.txnBegin
    rw [State.ses_modSes_self]
    exact ⟨rfl, rfl⟩
  · intro hw hst
    refine completes_of rfl (State.setCmd_txnCmd hs hw (by decide)) ?_
    change ((State.txnCommit s n).ses n).txn = _ ∧ ((State.txnCommit s n).ses n).staged = _
    unfold State.txnCommit
    rw [if_neg hst, State.ses_modSes_self]
    exact ⟨rfl, rfl⟩
  · intro hw ho
    refine completes_of rfl (State.setCmd_txnCmd hs hw (by decide)) ?_
    change ((State.txnDiscard s n).ses n).txn = _ ∧ ((State.txnDiscard s n).ses n).staged = _ ∧ (State.txnDiscard s n).objs = _
    unfold State.txnDiscard
    rw [ho]
    dsimp only
    rw [State.ses_modSes_self]
    exact ⟨rfl, rfl, rfl⟩
  · intro ho
    refine ⟨_, rfl, ?_⟩
    unfold State.txnExpire
    rw [if_pos ho]
    dsimp only
    rw [State.ses_modSes_self]
    exact ⟨rfl, rfl⟩
  · intro v ho hw
    refine ⟨_, rfl, ?_⟩
    have h1 : isOem (K.TDS_OFFSET / 256) = false := by decide
    have h2 : isTypeDesc K.TDS_OFFSET = false := by decide
    have h3 : K.TDS_OFFSET / 256 ≠ 0x1180 := by decide
    have h4 : ¬ (K.TDS_OFFSET = K.OLC_CMD ∧ s.valueOf K.TDS_OFFSET v = 4 ∧ (s.ses n).txn ≠ .open) := fun h => h.2.2 ho
    have he : s.dictWrite n K.TDS_OFFSET 0 4 v = (s.setResult n K.TDS_OFFSET stOK rNONE 0).modSes n fun x => { x with
        staged := x.staged ++ [{ idx := 0x2001, sub := 2, width := 4, v := v }] } := by
      unfold State.dictWrite
      rw [hs]
      simp only [Bool.not_true, Bool.false_eq_true, if_false, h1, h2, if_neg h3, if_true, hw, ne_eq, not_true]
      rw [if_neg (by decide), if_neg (by decide), if_neg (by decide), if_neg h4, if_pos (by rw [State.setResult_txn]; exact ho)]
      rfl
    change (s.dictWrite n K.TDS_OFFSET 0 4 v).objs = _ ∧ ((s.dictWrite n K.TDS_OFFSET 0 4 v).ses n).staged = _
    rw [he, State.ses_modSes_self, State.ses_setResult_self]
    exact ⟨rfl, rfl⟩
  · exact fun h1 h2 h3 h4 => ⟨_, rfl, State.dieVote_yes h1 h2 h3 h4⟩
  · exact fun h1 h2 => ⟨_, rfl, State.txnTimeout_fails h1 h2⟩
  · rfl
  · intro h1 h2 h3 h4 h5
    refine completes_of rfl (State.txnApply_eq h1 h2 h3 h4 h5) ⟨?_, ?_⟩
    · rw [State.ses_modSes_self]
      exact List.mem_append_right _ List.mem_cons_self
    · intro v hd hst hr
      subst hd
      have hf : (s.ses n).staged.filter (fun w => decide (dieOf w.key = 0)) = [{ idx := 0x2001, sub := 2, width := 4, v := v }] := by
        rw [hst]
        exact List.filter_cons_of_pos (by rw [stagedOffset_key]; decide)
      rw [hf, State.ob_modSes, State.each_singleton, stagedOffset_key]
      exact State.applyWrite_offset hr n _
  · intro h1 h2 h3 h4
    refine ⟨_, rfl, ?_⟩
    dsimp only
    rw [State.txnConfirm_eq h1 h2 h3 h4]
    have hiff : ((s.ses n).dies.all ((s.ses n).confirmed ++ [d]).contains = true) ↔
        ∀ k ∈ (s.ses n).dies, k = d ∨ k ∈ (s.ses n).confirmed := by
      simp [List.all_eq_true, or_comm]
    by_cases hc : ∀ k ∈ (s.ses n).dies, k = d ∨ k ∈ (s.ses n).confirmed
    · rw [if_pos hc, if_pos (hiff.2 hc)]
      exact ⟨rfl, rfl⟩
    · rw [if_neg hc, if_neg fun h => hc (hiff.1 h)]
      exact List.mem_append_right _ List.mem_cons_self

end Sys2Proof.Machine
end


section
/-! PROOF. Domain transfers through the aperture (R55, R56). -/

namespace Sys2Proof.Machine

/-! ### Bytes staged in a transfer -/

/-- Bytes put one after another into a sparse map are read at their places. -/
theorem mget_staged (l : List Byte) (m : SMap (Option Byte)) (a k j : Nat) :
    mget (fun _ => none) ((l.zipIdx k).foldl (fun m e => mput (fun _ => none) m (a + e.2) (some e.1)) m) j =
      if a + k ≤ j ∧ j < a + k + l.length then l[j - (a + k)]? else mget (fun _ => none) m j := by
  induction l generalizing m k with
  | nil =>
    rw [if_neg (by rw [List.length_nil]; omega)]
    rfl
  | cons c l ih =>
    rw [List.zipIdx_cons, List.foldl_cons, ih, mget_mput]
    simp only [List.length_cons]
    by_cases h0 : j = a + k
    · subst h0
      rw [if_neg (by omega), if_pos rfl, if_pos (by omega), Nat.sub_self]
      rfl
    · by_cases h1 : a + (k + 1) ≤ j ∧ j < a + (k + 1) + l.length
      · rw [if_pos h1, if_pos (by omega), show j - (a + k) = (j - (a + (k + 1))) + 1 by omega, List.getElem?_cons_succ]
      · rw [if_neg h1, if_neg h0, if_neg (by omega)]

theorem State.dom_xferPut {s : State} {n at_ : Nat} {b : List Byte} {x : Xfer} (h : (s.ses n).dom = some x) :
    ((s.xferPut n at_ b).ses n).dom = some { x with
      wr := b.zipIdx.foldl (fun m e => mput (fun _ => none) m (at_ + e.2) (some e.1)) x.wr } := by
  unfold State.xferPut
  rw [State.ses_modSes_self, h]
  rfl

/-! ### Sections of a task, as a domain write leaves them -/

/-- The sections of a task as a domain write keeps them: each of 32 bytes, the last four reserved. -/
def keptSections (b : List Byte) : List Byte := (List.range (b.length / 32)).flatMap fun i => slice b (32 * i) 28 ++ [0, 0, 0, 0]

theorem flatMap_range_length (f : Nat → List Byte) (k n : Nat) (hf : ∀ i < n, (f i).length = k) :
    ((List.range n).flatMap f).length = n * k := by
  induction n with
  | zero => simp
  | succ n ih =>
    rw [List.range_succ, List.flatMap_append, List.length_append, ih fun i hi => hf i (Nat.lt_succ_of_lt hi)]
    simp [hf n (Nat.lt_succ_self n), Nat.succ_mul]

theorem flatMap_range_getElem? (f : Nat → List Byte) (k n : Nat) (hf : ∀ i < n, (f i).length = k) {i j : Nat} (hi : i < n)
    (hj : j < k) : ((List.range n).flatMap f)[k * i + j]? = (f i)[j]? := by
  induction n with
  | zero => exact absurd hi (Nat.not_lt_zero i)
  | succ n ih =>
    have hl := flatMap_range_length f k n fun i hi => hf i (Nat.lt_succ_of_lt hi)
    rw [List.range_succ, List.flatMap_append]
    by_cases h : i < n
    · rw [List.getElem?_append_left, ih (fun i hi => hf i (Nat.lt_succ_of_lt hi)) h]
      rw [hl, Nat.mul_comm k i]
      calc i * k + j < i * k + k := by omega
        _ = (i + 1) * k := (Nat.succ_mul i k).symm
        _ ≤ n * k := Nat.mul_le_mul_right k h
    · have : i = n := by omega
      subst this
      rw [List.getElem?_append_right (by rw [hl, Nat.mul_comm]; omega), hl]
      simp [Nat.mul_comm k i]

theorem length_slice (b : List Byte) (a n : Nat) : (slice b a n).length = n := by
  simp only [slice, List.length_append, List.length_take, List.length_drop, List.length_replicate]
  omega

theorem getElem?_slice {b : List Byte} {a n j : Nat} (hj : j < n) (hb : a + n ≤ b.length) : (slice b a n)[j]? = b[a + j]? := by
  unfold slice
  dsimp only
  rw [List.getElem?_append_left (by rw [List.length_take, List.length_drop]; omega), List.getElem?_take, if_pos hj,
    List.getElem?_drop]

theorem keptSection_length (b : List Byte) (i : Nat) : (slice b (32 * i) 28 ++ [(0 : Byte), 0, 0, 0]).length = 32 := by
  rw [List.length_append, length_slice]
  rfl

theorem keptSections_length (b : List Byte) : (keptSections b).length = b.length / 32 * 32 :=
  flatMap_range_length _ 32 _ fun i _ => keptSection_length b i

theorem keptSections_getElem? {b : List Byte} {i j : Nat} (hi : i < b.length / 32) (hj : j < 32) :
    (keptSections b)[32 * i + j]? = if j < 28 then b[32 * i + j]? else some 0 := by
  unfold keptSections
  rw [flatMap_range_getElem? _ 32 _ (fun i _ => keptSection_length b i) hi hj]
  have hl := length_slice b (32 * i) 28
  by_cases h : j < 28
  · rw [List.getElem?_append_left (by omega), if_pos h, getElem?_slice h (by omega)]
  · rw [List.getElem?_append_right (by omega), hl, if_neg h]
    have hd : ∀ k < 4, ([0, 0, 0, 0] : List Byte)[k]? = some 0 := by decide
    exact hd _ (by omega)

/-! ### The commands of a transfer -/

theorem domClose_value : ∀ v < 4, (objRow K.DIC_DOM_CLOSE).map (·.value v) = some v := by decide

theorem State.setCmd_domOpen {s : State} {n v : Nat} (hs : s.served n = true)
    (hw : s.writeCheck n K.DIC_DOM_OPEN (s.obBytes K.DIC_DOM_OPEN) v = (stOK, rNONE)) :
    s.setCmd n K.DIC_DOM_OPEN v = s.domOpen n (s.valueOf K.DIC_DOM_OPEN v) := by
  have h1 : isOem (K.DIC_DOM_OPEN / 256) = false := by decide
  have h2 : isTypeDesc K.DIC_DOM_OPEN = false := by decide
  have h3 : K.DIC_DOM_OPEN / 256 ≠ 0x1180 := by decide
  unfold State.setCmd State.dictWrite
  rw [hs]
  simp only [Bool.not_true, Bool.false_eq_true, if_false, h1, h2, if_neg h3, if_true, hw, ne_eq, not_true]
  rw [if_neg (by decide)]

theorem State.setCmd_domClose {s : State} {n v : Nat} (hs : s.served n = true)
    (hw : s.writeCheck n K.DIC_DOM_CLOSE (s.obBytes K.DIC_DOM_CLOSE) v = (stOK, rNONE)) (hv : v < 4) :
    s.setCmd n K.DIC_DOM_CLOSE v = s.domClose n v := by
  have h1 : isOem (K.DIC_DOM_CLOSE / 256) = false := by decide
  have h2 : isTypeDesc K.DIC_DOM_CLOSE = false := by decide
  have h3 : K.DIC_DOM_CLOSE / 256 ≠ 0x1180 := by decide
  unfold State.setCmd State.dictWrite
  rw [hs]
  simp only [Bool.not_true, Bool.false_eq_true, if_false, h1, h2, if_neg h3, if_true, hw, ne_eq, not_true]
  rw [if_neg (by decide), if_neg (by decide), State.value_of_writeCheck hw (domClose_value v hv)]

/-- What a transfer that opens has captured, with the state that it leaves. -/
def State.openCapture (s : State) (n key : Nat) (write : Bool) : State × Option (List Byte) :=
  if write then (s.setResult n K.DIC_DOM_OPEN stOK rNONE 0, none) else (s.setResult n K.DIC_DOM_OPEN stOK rNONE 0).domCapture n key

/-- An open that nothing refuses. -/
theorem State.domOpen_eq {s : State} {n v : Nat} (hc : (s.domCheck n (domKey v) (decide (domDir v = 2))).1 = stOK)
    (hd : domDir v = 1 ∨ domDir v = 2) :
    s.domOpen n v = (s.openCapture n (domKey v) (decide (domDir v = 2))).1.modSes n fun x => { x with dom := some {
      key := domKey v
      write := decide (domDir v = 2)
      cap := (s.openCapture n (domKey v) (decide (domDir v = 2))).2
      wr := [] } } := by
  have hf : firstFail [s.domCheck n (domKey v) (decide (domDir v = 2)), failIf (decide (domDir v = 0) || decide (2 < domDir v)) stRESERVED] =
      (stOK, rNONE) := by
    refine firstFail_of_ok fun e he => ?_
    simp only [List.mem_cons, List.not_mem_nil, or_false] at he
    obtain rfl | rfl := he
    · exact hc
    · obtain h | h := hd <;> rw [h] <;> rfl
  unfold State.domOpen
  dsimp only
  rw [hf]
  rw [if_neg (by decide)]
  rfl

theorem State.domOpen_opens {s : State} {n v : Nat} (hc : (s.domCheck n (domKey v) (decide (domDir v = 2))).1 = stOK)
    (hd : domDir v = 1 ∨ domDir v = 2) :
    ∃ x, ((s.domOpen n v).ses n).dom = some x ∧ x.key = domKey v ∧ x.write = decide (domDir v = 2) ∧ x.wr = [] := by
  rw [State.domOpen_eq hc hd, State.ses_modSes_self]
  exact ⟨_, rfl, rfl, rfl, rfl⟩

theorem State.apWrite_stages {s : State} {n a w v : Nat} {x : Xfer} (hc : s.apCheck n a w true = stOK)
    (hx : (s.ses n).dom = some x) : ∃ y, ((s.apWrite n a w v).ses n).dom = some y ∧ y.key = x.key ∧
      ∀ i < w, mget (fun _ => none) y.wr ((s.ses n).domOff + a + i) = some (BitVec.ofNat 8 (v / 256 ^ i)) := by
  have he : s.apWrite n a w v = (s.setResult n (0x118000 + a / 8 % 256) stOK rNONE 0).xferPut n
      (((s.setResult n (0x118000 + a / 8 % 256) stOK rNONE 0).ses n).domOff + a) (leBytes w v) := by
    unfold State.apWrite
    dsimp only
    rw [hc, if_neg (fun h => h rfl)]
  rw [he]
  have hu := State.ses_setResult_self s n (0x118000 + a / 8 % 256) stOK rNONE 0
  generalize s.setResult n (0x118000 + a / 8 % 256) stOK rNONE 0 = u at hu ⊢
  have hux : (u.ses n).dom = some x := by rw [hu]; exact hx
  have huo : (u.ses n).domOff = (s.ses n).domOff := by rw [hu]
  refine ⟨_, State.dom_xferPut hux, rfl, fun i hi => ?_⟩
  have hb := length_leBytes w v
  dsimp only
  rw [huo, mget_staged, if_pos (by omega), Nat.add_zero, Nat.add_sub_cancel_left, getElem?_leBytes, if_pos hi]

theorem resultOf_mod (key : Nat) {st : Nat} (reason dies : Nat) (h : st < 256) : resultOf key st reason dies % 256 = st := by
  unfold resultOf
  omega

theorem State.apRead_result {s : State} {n a w : Nat} {x : Xfer} (hc : s.apCheck n a w false = stOK)
    (hx : (s.ses n).dom = some x) : ((s.apRead n a w).1.ses n).dom = some x ∧ (s.apRead n a w).1.doms = s.doms ∧
      ((s.apRead n a w).1.ses n).result % 256 = if (s.xferBytes n x).length ≤ (s.ses n).domOff + a then stRANGE else stOK := by
  unfold State.apRead
  extract_lets key st b at_
  have hst : st = stOK := hc
  have hb : b = s.xferBytes n x := by
    unfold b
    rw [hx]
  rw [if_neg (fun h => h hst)]
  dsimp only
  rw [State.ses_setResult_self]
  refine ⟨hx, rfl, ?_⟩
  dsimp only
  rw [hb, resultOf_mod _ _ _ (by split <;> decide)]

/-- What an accepted close of a write of a task's sections leaves in the object. -/
theorem State.xferCommit_sections {s : State} {n k : Nat} {wr : SMap (Option Byte)} {b : List Byte} (hk : k < 256)
    (hw : whole wr = some b) (hok : (s.xferCommit n (K.TSK_SECTIONS k) wr).1 = stOK) :
    (s.xferCommit n (K.TSK_SECTIONS k) wr).2.dom (K.TSK_SECTIONS k) = keptSections b := by
  have hidx : K.TSK_SECTIONS k / 256 = 0x2105 := by unfold K.TSK_SECTIONS; omega
  have happly : ∀ u : State, u.applyBytes2 n (K.TSK_SECTIONS k) b = u.setDom (K.TSK_SECTIONS k) (keptSections b) := fun u => by
    unfold State.applyBytes2
    rw [hidx]
    rfl
  have hne : K.TSK_SECTIONS k ≠ K.OLC_IMAGE := by unfold K.TSK_SECTIONS K.OLC_IMAGE; omega
  unfold State.xferCommit at hok ⊢
  split at hok
  · exact absurd (show stNOOBJ = stOK from hok) (by decide)
  · rw [if_neg hne, hw] at hok ⊢
    split at hok
    · exact absurd (show stSTATE = stOK from hok) (by decide)
    · rename_i hc
      rw [if_neg hc]
      dsimp only at hok ⊢
      split at hok
      · contradiction
      · rename_i hst
        rw [if_neg hst, happly, State.dom_setDom, if_pos rfl]

/-- Settles O25. -/
theorem domainTransfers : Obligations.DomainTransfers := by
  unfold Obligations.DomainTransfers
  refine fun s n hs => ⟨?_, ?_, ?_, ?_, ?_⟩
  · intro v u hu hw hc hd
    subst hu
    refine completes_of rfl (State.setCmd_domOpen hs hw) ?_
    exact State.domOpen_opens hc hd
  · intro a w v x hc hx
    have he : (if !s.served n then s else if true then s.apWrite n a w v else (s.apRead n a w).1) = s.apWrite n a w v := by
      rw [hs, Bool.not_true, if_neg Bool.false_ne_true, if_pos rfl]
    refine completes_of rfl he ?_
    exact State.apWrite_stages hc hx
  · intro a w v x hc hx
    have he : (if !s.served n then s else if false then s.apWrite n a w v else (s.apRead n a w).1) = (s.apRead n a w).1 := by
      rw [hs, Bool.not_true, if_neg Bool.false_ne_true, if_neg Bool.false_ne_true]
    refine completes_of rfl he ?_
    exact State.apRead_result hc hx
  · intro x k b hw hx hwr hk hkey hb hok
    refine completes_of rfl (State.setCmd_domClose hs hw (by decide)) ?_
    rw [hkey] at hok
    have hd := State.xferCommit_sections hk hb hok
    have hclose : s.domClose n 1 = ((s.xferCommit n (K.TSK_SECTIONS k) x.wr).2.setResult n K.DIC_DOM_CLOSE stOK rNONE 0).modSes n
        fun x => { x with dom := none } := by
      unfold State.domClose
      rw [hx]
      dsimp only
      have hc : 1 = 1 ∧ x.write = true := ⟨rfl, hwr⟩
      rw [if_pos hc, hkey, hok, if_pos rfl]
    rw [hclose]
    generalize (s.xferCommit n (K.TSK_SECTIONS k) x.wr).2 = u at hd ⊢
    have hdom : ((u.setResult n K.DIC_DOM_CLOSE stOK rNONE 0).modSes n fun x => { x with dom := none }).dom (K.TSK_SECTIONS k) =
        keptSections b := hd
    rw [State.ses_modSes_self, hdom]
    exact ⟨rfl, keptSections_length b, fun i hi j hj => keptSections_getElem? hi hj⟩
  · intro x hw hx
    refine completes_of rfl (State.setCmd_domClose hs hw (by decide)) ?_
    have hclose : s.domClose n 2 = (s.setResult n K.DIC_DOM_CLOSE stOK rNONE 0).modSes n fun x => { x with dom := none } := by
      unfold State.domClose
      rw [hx]
      rfl
    rw [hclose, State.ses_modSes_self]
    exact ⟨rfl, rfl, rfl⟩

end Sys2Proof.Machine
end


section
/-! PROOF. Requests to the OEM range (R57). -/

namespace Sys2Proof.Machine

theorem State.oemEnter_dic {s : State} {n key : Nat} {w : Bool} {v : Nat} (h : s.oemCheck n w = (stOK, rNONE)) :
    (s.oemEnter n key w v).dic.oem = s.dic.oem ++ [{
      tag := s.dic.oemTag
      ses := n
      role := s.roleOf n
      idx := key / 256
      sub := key % 256
      write := w
      v := v % 2 ^ 64
      taken := false
      at_ := s.ntm.mono }] := by
  unfold State.oemEnter
  rw [h]
  dsimp only
  rw [if_neg (fun h => h rfl), (State.kevent_stays _ _ (.refl _ _) (List.Subset.refl _)).keeps .dic (by decide)]

/-- A take of the oldest request that none has taken marks it. -/
theorem State.oemTake_dic {s : State} {r : OemReq} (h : s.dic.oem.find? (fun q => !q.taken) = some r) :
    ∃ q ∈ s.oemTake.1.dic.oem, q.tag = r.tag ∧ q.taken = true := by
  unfold State.oemTake
  rw [h]
  refine ⟨{ r with taken := true }, ?_, rfl, rfl⟩
  exact List.mem_map.2 ⟨r, List.mem_of_find?_eq_some h, if_pos rfl⟩

theorem State.domCapture_oem (s : State) (n : Nat) : (s.domCapture n K.DIC_OEM_REQ).1 = s.oemTake.1 := by
  unfold State.domCapture
  rw [if_neg (by decide), if_pos rfl]

theorem oemOpen_value : (objRow K.DIC_DOM_OPEN).map (·.value (0x1104 * 2 ^ 32 + 2 * 2 ^ 24 + 2 ^ 16)) =
    some (0x1104 * 2 ^ 32 + 2 * 2 ^ 24 + 2 ^ 16) := by decide

theorem State.domOpen_oem {s : State} {r : OemReq} (hc : (s.domCheck 0 K.DIC_OEM_REQ false).1 = stOK)
    (h : s.dic.oem.find? (fun q => !q.taken) = some r) :
    ∃ q ∈ (s.domOpen 0 (0x1104 * 2 ^ 32 + 2 * 2 ^ 24 + 2 ^ 16)).dic.oem, q.tag = r.tag ∧ q.taken = true := by
  have hk : domKey (0x1104 * 2 ^ 32 + 2 * 2 ^ 24 + 2 ^ 16) = K.DIC_OEM_REQ := by decide
  have hd : domDir (0x1104 * 2 ^ 32 + 2 * 2 ^ 24 + 2 ^ 16) = 1 := by decide
  generalize 0x1104 * 2 ^ 32 + 2 * 2 ^ 24 + 2 ^ 16 = u at hk hd ⊢
  have hw : decide (domDir u = 2) = false := by rw [hd]; rfl
  rw [State.domOpen_eq (by rw [hk, hw]; exact hc) (.inl hd), hk, hw]
  have ht := State.oemTake_dic (s := s.setResult 0 K.DIC_DOM_OPEN stOK rNONE 0) h
  rw [← State.domCapture_oem _ 0] at ht
  exact ht

theorem mem_filter_tag {l : List OemReq} {tag : Nat} {q : OemReq} (h : q ∈ l.filter fun q => decide (q.tag ≠ tag)) : q.tag ≠ tag :=
  of_decide_eq_true (List.mem_filter.1 h).2

/-- The state without the requests of a tag. -/
def State.withoutOem (s : State) (tag : Nat) : State :=
  { s with dic := { s.dic with oem := s.dic.oem.filter fun q => decide (q.tag ≠ tag) } }

theorem State.oemAnswer_dic {s : State} {r : OemReq} {tag st d : Nat}
    (h : s.dic.oem.find? (fun q => decide (q.tag = tag) && q.taken) = some r) :
    (s.oemAnswer tag st d).dic.oem = s.dic.oem.filter fun q => decide (q.tag ≠ tag) := by
  have hs : (s.oemAnswer tag st d).Stays [.sess, .ctxs, .hnw, .mbc, .cores] (s.withoutOem tag) := by
    unfold State.oemAnswer
    rw [h]
    change State.Stays (ite _ _ _) _ _
    have hr : ∀ k v l, (((s.withoutOem tag).setResult r.ses k v rNONE 0).reply r.ses k l).Stays [.sess, .ctxs, .hnw, .mbc, .cores]
        (s.withoutOem tag) := fun k v l => State.reply_stays _ _ _ _ (State.setResult_stays _ _ _ _ _ _ (.refl _ _) (by decide)) (by decide)
    exact ite_stays (State.loadsDone_stays _ _ (State.modCore_stays _ _ _ (hr _ _ _) (by decide)) (by decide)) (hr _ _ _)
  exact congrArg Dic.oem (hs.keeps .dic (by decide))

theorem State.oemExpire_dic {s : State} {r : OemReq} {tag : Nat} (h : s.dic.oem.find? (fun q => decide (q.tag = tag)) = some r) :
    (s.oemExpire tag).dic.oem = s.dic.oem.filter (fun q => decide (q.tag ≠ tag)) ∧
      (r.ses < 384 → ((s.oemExpire tag).ses r.ses).result = resultOf (r.idx * 256 + r.sub) stBUSY rOEM_TIMEOUT 0) := by
  obtain ⟨t, ht⟩ : ∃ t, t = r.at_ + s.ob K.DIC_OEM_TIMEOUT * 1000 := ⟨_, rfl⟩
  have hu : (s.reachMono t).dic = s.dic := (State.reachMono_stays s t (.refl s _) (List.Subset.refl _)).keeps .dic (by decide)
  have hv : ((s.reachMono t).withoutOem tag).dic.oem = s.dic.oem.filter fun q => decide (q.tag ≠ tag) := by
    rw [← hu]
    rfl
  obtain ⟨w, hw⟩ : ∃ w, w = ((((s.reachMono t).withoutOem tag).setResult r.ses (r.idx * 256 + r.sub) stBUSY rOEM_TIMEOUT 0).reply
      r.ses (r.idx * 256 + r.sub) []) := ⟨_, rfl⟩
  have hwd : w.dic = ((s.reachMono t).withoutOem tag).dic := hw ▸ (State.reply_stays _ _ _ _ (State.setResult_stays _ _ _ _ _ _ (.refl _
    [.sess, .ctxs, .hnw, .mbc]) (by decide)) (by decide)).keeps .dic (by decide)
  have hres : r.ses < 384 → (w.ses r.ses).result = resultOf (r.idx * 256 + r.sub) stBUSY rOEM_TIMEOUT 0 := fun hr => by
    rw [hw]
    unfold State.reply
    rw [if_pos hr, State.ses_setResult_self]
  have hs : (s.oemExpire tag).Stays [.cores, .ctxs] w := by
    unfold State.oemExpire
    rw [h]
    dsimp only
    rw [← ht]
    change State.Stays (if r.ses < 384 then _ else ((((s.reachMono t).withoutOem tag).setResult r.ses (r.idx * 256 + r.sub) stBUSY
      rOEM_TIMEOUT 0).reply r.ses (r.idx * 256 + r.sub) [])) _ _
    rw [← hw]
    refine ite_stays ?_ (.refl w _)
    change State.Stays ((State.modCore (((((s.reachMono t).withoutOem tag).setResult r.ses (r.idx * 256 + r.sub) stBUSY
      rOEM_TIMEOUT 0).reply r.ses (r.idx * 256 + r.sub) [])) _ _).loadsDone _) _ _
    rw [← hw]
    exact State.loadsDone_stays _ _ (State.modCore_stays _ _ _ (.refl w _) (by decide)) (by decide)
  refine ⟨?_, fun hr => ?_⟩
  · rw [hs.keeps .dic (by decide), hwd, hv]
  · rw [State.ses_of_sess (hs.keeps .sess (by decide)), hres hr]

/-- Settles O26. -/
theorem oemRequests : Obligations.OemRequests := by
  unfold Obligations.OemRequests
  refine ⟨?_, ?_, ?_, ?_⟩
  · intro s n idx sub w v h1 h2 h3 hs hc
    have he : (if isOem idx && s.served n then s.oemEnter n (idx * 256 + sub) w v else s) = s.oemEnter n (idx * 256 + sub) w v := by
      refine if_pos ?_
      rw [hs]
      simp [isOem, h1, h2]
    refine completes_of rfl he ⟨_, State.oemEnter_dic hc, rfl, ?_, ?_, rfl, rfl, rfl⟩
    · dsimp only; omega
    · dsimp only; omega
  · intro s r hs hw hc h
    have hw' : s.writeCheck 0 K.DIC_DOM_OPEN (s.obBytes K.DIC_DOM_OPEN) (K.DIC_OEM_REQ / 256 * 2 ^ 32 + K.DIC_OEM_REQ % 256 * 2 ^ 24 + 2 ^ 16) =
      (stOK, rNONE) := hw
    refine completes_of rfl (State.setCmd_domOpen hs hw') ?_
    have hv : s.valueOf K.DIC_DOM_OPEN (K.DIC_OEM_REQ / 256 * 2 ^ 32 + K.DIC_OEM_REQ % 256 * 2 ^ 24 + 2 ^ 16) =
      0x1104 * 2 ^ 32 + 2 * 2 ^ 24 + 2 ^ 16 := State.value_of_writeCheck hw oemOpen_value
    rw [hv]
    exact State.domOpen_oem hc h
  · intro s r tag st d h
    refine ⟨_, rfl, fun q hq => ?_⟩
    rw [State.oemAnswer_dic h] at hq
    exact mem_filter_tag hq
  · intro s r tag h
    obtain ⟨h1, h2⟩ := State.oemExpire_dic h
    refine ⟨_, rfl, fun q hq => ?_, h2⟩
    rw [h1] at hq
    exact mem_filter_tag hq

end Sys2Proof.Machine
end


section
/-! PROOF. Service requests (R37, R287, R288). -/

namespace Sys2Proof.Machine

/-! ### The frame of a request, and its response -/

theorem State.svcSend_ses (s : State) (n : Nat) (q : Svc) (data : List Byte) :
    ∃ b, (s.svcSend n q data).ses n = { s.ses n with rsp := b } := by
  unfold State.svcSend
  dsimp only
  rw [State.ses_of_sess ((State.svcFrame_stays _ q.port q.peer q.tag _ (.refl _ _) (List.Subset.refl _)).keeps .sess (by decide)),
    State.ses_modSes_self]
  exact ⟨_, rfl⟩

theorem State.svcSend_objs (s : State) (n : Nat) (q : Svc) (data : List Byte) : (s.svcSend n q data).objs = s.objs :=
  (State.svcSend_stays s n q data (.refl s _) (List.Subset.refl _)).keeps .objs (by decide)

/-- An answer changes what a session has due and its latest response only. -/
theorem State.svcAnswer_ses (s t : State) (n : Nat) (q : Svc) (data : List Byte) :
    (∃ d b, (s.svcAnswer t n q data).ses n = { t.ses n with due := d, rsp := b }) ∧ (s.svcAnswer t n q data).objs = t.objs := by
  unfold State.svcAnswer
  split
  · rw [State.ses_modSes_self]
    exact ⟨⟨_, _, rfl⟩, rfl⟩
  · obtain ⟨b, h⟩ := State.svcSend_ses t n q data
    exact ⟨⟨_, b, h⟩, State.svcSend_objs t n q data⟩

/-- A request that its port takes is served. -/
theorem requests_served {s s0 : State} {fr : Rx} {op tag : Nat} (h : Requests s fr op tag s0) {same : Bool} (hs : same = true)
    (serve : State → Svc → State) : s.svcRequest fr same serve = serve s0 (s.svcOf fr) := by
  obtain ⟨hrun, hin⟩ := h.arrives
  unfold State.svcRequest State.toController State.arrive
  rw [hs, if_pos rfl, if_pos hrun, hin]
  dsimp only
  have hb : decide (bits (rxTarget fr) 15 14 < 2) = false := by
    rw [h.target]
    decide
  rw [if_pos rfl, h.service, hb, if_neg (by decide), if_neg (fun hn => hn h.target)]

theorem serves_says {s s1 : State} {fr : Rx} {op m tag : Nat} (h : Serves s fr op m tag s1) : svcSays fr op m tag = true := by
  obtain ⟨s0, hr, -⟩ := h.frame
  unfold svcSays
  rw [hr.fields.1, hr.fields.2, h.session.2]
  simp

/-- A request of an open session that does not repeat its last one is served, with its TAG kept. -/
theorem serves_served {s s1 : State} {fr : Rx} {op m tag : Nat} (h : Serves s fr op m tag s1) {same : Bool} (hs : same = true)
    (serve : Svc → State → Nat → State) :
    s.svcRequest fr same (fun s q => s.svcEnter m q (serve q)) = serve (s.svcOf fr) s1 (384 + m) := by
  obtain ⟨s0, hr, ho, hl, he⟩ := h.frame
  rw [requests_served hr hs]
  have ht : (s.svcOf fr).tag = tag := hr.fields.2
  have hm := h.session.1
  unfold State.svcEnter
  dsimp only
  rw [if_neg (by rw [ho]; simp; omega), ht, if_neg hl, he]

theorem serves_lastTag {s s1 : State} {fr : Rx} {op m tag : Nat} (h : Serves s fr op m tag s1) :
    (s1.ses (384 + m)).lastTag = some tag := by
  obtain ⟨s0, -, -, -, he⟩ := h.frame
  rw [he, State.ses_modSes_self]

theorem State.sesClose_ses {s : State} {n : Nat} (h : (s.ses n).txn ≠ .pending) : (s.sesClose n).ses n = Ses.init := by
  unfold State.sesClose
  dsimp only
  rw [if_neg h, State.ses_setSes, if_pos rfl]

/-! ### Reads and writes -/

theorem State.dictRead_tideStart {s : State} {n : Nat} (hs : s.served n = true) (hc : s.readCheck n K.TDS_TIDE_START = (stOK, rNONE)) :
    (s.dictRead n K.TDS_TIDE_START).1 = s.setResult n K.TDS_TIDE_START stOK rNONE 0 := by
  have h1 : isOem (K.TDS_TIDE_START / 256) = false := by decide
  have h2 : isTypeDesc K.TDS_TIDE_START = false := by decide
  have h3 : K.TDS_TIDE_START / 256 ≠ 0x1180 := by decide
  have he : s.readEffect n K.TDS_TIDE_START = s := by
    unfold State.readEffect
    rw [if_neg (by decide), if_neg (by decide), if_neg (by decide)]
  unfold State.dictRead
  rw [hs, h1, h2, hc]
  simp only [Bool.not_true, Bool.false_eq_true, if_false, if_neg h3, ne_eq, not_true, he]

/-- A write of TDS.OFFSET that is taken, of the whole slot. -/
theorem State.dictWrite_offset {s : State} {n v : Nat} (hs : s.served n = true)
    (hc : s.writeCheck n K.TDS_OFFSET 8 v = (stOK, rNONE)) (ho : (s.ses n).txn ≠ .open) (hr : s.replicates = false) :
    (s.dictWrite n K.TDS_OFFSET 0 8 v).ob K.TDS_OFFSET = s.valueOf K.TDS_OFFSET v ∧
      ((s.dictWrite n K.TDS_OFFSET 0 8 v).ses n).lastTag = (s.ses n).lastTag := by
  have h1 : isOem (K.TDS_OFFSET / 256) = false := by decide
  have h2 : isTypeDesc K.TDS_OFFSET = false := by decide
  have h3 : K.TDS_OFFSET / 256 ≠ 0x1180 := by decide
  have h4 : decide (K.TDS_OFFSET = K.OLC_CMD) = false := by decide
  have h5 : stopsTide K.TDS_OFFSET = false := by decide
  have h6 : (K.TDS_OFFSET = K.OLC_CMD) = False := by simp [K.TDS_OFFSET, K.OLC_CMD]
  have hset : ∀ (u : State) w, u.applyOb n K.TDS_OFFSET w = u.setOb K.TDS_OFFSET w := fun u w =>
    State.store_of_plain (key := K.TDS_OFFSET) u w (by decide +kernel)
  have he : s.dictWrite n K.TDS_OFFSET 0 8 v = (s.accepted n K.TDS_OFFSET (s.valueOf K.TDS_OFFSET v)).setOb K.TDS_OFFSET
      (s.valueOf K.TDS_OFFSET v) := by
    unfold State.dictWrite
    rw [hs]
    simp only [Bool.not_true, Bool.false_eq_true, if_false, h1, h2, if_neg h3, if_true, hc, ne_eq, not_true, h4, h5]
    rw [if_neg (by decide), if_neg (by decide), if_neg (by decide)]
    have h7 : ¬ ((s.setResult n K.TDS_OFFSET stOK rNONE 0).ses n).txn = .open := by
      rw [State.setResult_txn]
      exact ho
    simp only [h6, false_and, if_false, if_neg h7, State.when, Bool.false_eq_true]
    unfold State.applyWrite State.accepted
    have hr' : ((s.setResult n K.TDS_OFFSET stOK rNONE 0).noteWrite K.TDS_OFFSET).replicates = false := hr
    simp only [h6, false_and, if_false]
    rw [hr', Bool.false_and, if_neg Bool.false_ne_true, hset]
  rw [he]
  obtain ⟨r, c, hx⟩ := s.ses_accepted n K.TDS_OFFSET (s.valueOf K.TDS_OFFSET v) n
  refine ⟨State.ob_setOb_self _ _ _, ?_⟩
  rw [State.ses_of_sess (State.setOb_sess _ _ _), hx]

theorem State.svcOf_key (s : State) {fr : Rx} {key : Nat} (hi : rxIndex fr = key / 256) (hs : rxSub fr = key % 256) :
    (s.svcOf fr).key = key := by
  unfold State.svcOf
  rw [hi, hs]
  exact Nat.div_add_mod' key 256

/-- Settles O27. -/
theorem serviceRequests : Obligations.ServiceRequests := by
  unfold Obligations.ServiceRequests
  refine ⟨?_, ?_, ?_, ?_, ?_, ?_⟩
  · intro s s0 fr tag n h ha hf
    have hq : (s.svcOf fr).tag = tag := h.fields.2
    refine completes_of rfl (requests_served h (by rw [h.fields.1, h.fields.2]; simp) _) ?_
    unfold State.svcOpen
    dsimp only
    rw [hq, ha, hf]
    dsimp only
    obtain ⟨b, hb⟩ := State.svcSend_ses (s0.setSes n { Ses.init with
        open_ := true
        path := rxSource fr
        lastTag := some tag
        idleAt := s0.ntm.mono }) n (s.svcOf fr) []
    rw [hb, State.ses_setSes, if_pos rfl]
    exact ⟨rfl, rfl, rfl, rfl⟩
  · intro s s1 fr m tag h ht
    refine completes_of rfl (serves_served h (serves_says h) _) ?_
    refine State.sesClose_ses ?_
    obtain ⟨b, hb⟩ := State.svcSend_ses (s1.modSes (384 + m) fun x => { x with result := 0 }) (384 + m) (s.svcOf fr) []
    rw [hb, State.ses_modSes_self]
    exact ht
  · intro s s1 fr m tag h hi hs hsv hc
    refine completes_of rfl (serves_served h (by rw [serves_says h, hi, hs]; simp) _) ?_
    dsimp only
    rw [s.svcOf_key hi hs]
    obtain ⟨⟨d, b, hx⟩, ho⟩ := State.svcAnswer_ses s1 (s1.dictRead (384 + m) K.TDS_TIDE_START).1 (384 + m) (s.svcOf fr)
      (leBytes 8 (s1.dictRead (384 + m) K.TDS_TIDE_START).2)
    rw [hx, ho, State.dictRead_tideStart hsv hc, State.ses_setResult_self]
    exact ⟨(serves_lastTag h), rfl, rfl⟩
  · intro s s1 fr m tag v h hi hs hv hsv hc ho hr
    refine completes_of rfl (serves_served h (by rw [serves_says h, hi, hs, hv]; simp) _) ?_
    rw [s.svcOf_key hi hs]
    obtain ⟨⟨d, b, hx⟩, hob⟩ := State.svcAnswer_ses s1 (s1.dictWrite (384 + m) K.TDS_OFFSET 0 8 v) (384 + m) (s.svcOf fr) []
    obtain ⟨h1, h2⟩ := State.dictWrite_offset hsv hc ho hr
    rw [hx, State.ob_of_objs hob]
    exact ⟨h2.trans (serves_lastTag h), h1⟩
  · intro s s1 fr m tag off len h ho hl hst
    refine completes_of rfl (serves_served h (by rw [serves_says h, ho, hl]; simp) _) ?_
    dsimp only
    rw [hst, if_neg (fun h => h rfl)]
    have hall : ∀ st b, ((((s1.modSes (384 + m) fun x => { x with domOff := off }).setResult (384 + m) (K.DIC_DOM_APERTURE 0) st rNONE
        0).svcSend (384 + m) (s.svcOf fr) b).ses (384 + m)).domOff = off ∧ ((((s1.modSes (384 + m) fun x => { x with
          domOff := off }).setResult (384 + m) (K.DIC_DOM_APERTURE 0) st rNONE 0).svcSend (384 + m) (s.svcOf fr) b).ses (384 + m)).dom =
            (s1.ses (384 + m)).dom := fun st b => by
      obtain ⟨r, hb⟩ := State.svcSend_ses ((s1.modSes (384 + m) fun x => { x with domOff := off }).setResult (384 + m)
        (K.DIC_DOM_APERTURE 0) st rNONE 0) (384 + m) (s.svcOf fr) b
      rw [hb, State.ses_setResult_self, State.ses_modSes_self]
      exact ⟨rfl, rfl⟩
    exact hall _ _
  · intro s s1 fr m tag off data x h ho hd hst hmax hx
    refine completes_of rfl (serves_served h (by rw [serves_says h, ho, hd]; simp) _) ?_
    dsimp only
    have hfit : ¬ (stOK = stOK ∧ domMax < off + data.length) := fun hn => absurd hn.2 (Nat.not_lt.2 hmax)
    rw [hst, if_neg hfit, if_neg (fun h => h rfl)]
    obtain ⟨r, hb⟩ := State.svcSend_ses (((s1.setResult (384 + m) (K.DIC_DOM_APERTURE 0) stOK rNONE 0).modSes (384 + m) fun x =>
      { x with domOff := off }).xferPut (384 + m) off data) (384 + m) (s.svcOf fr) []
    have hdom : (((s1.setResult (384 + m) (K.DIC_DOM_APERTURE 0) stOK rNONE 0).modSes (384 + m) fun x =>
      { x with domOff := off }).ses (384 + m)).dom = some x := by
      rw [State.ses_modSes_self, State.ses_setResult_self]
      exact hx
    rw [hb]
    refine ⟨_, State.dom_xferPut hdom, rfl, fun i hi => ?_⟩
    dsimp only
    rw [mget_staged, if_pos (by omega), Nat.add_zero, Nat.add_sub_cancel_left]

end Sys2Proof.Machine
end


section
/-! PROOF. Commands of an online change (R234, R237, R238, R242, R244). -/

namespace Sys2Proof.Machine

theorem olcCmd_value : ∀ v < 9, (objRow K.OLC_CMD).map (·.value v) = some v := by decide

/-- OLC.CMD, taken: the command has its effect and its answer leaves. -/
theorem State.setCmd_olc {s : State} {n v : Nat} (h : Takes s n K.OLC_CMD v) (hv : v < 9) :
    s.setCmd n K.OLC_CMD v = ((s.accepted n K.OLC_CMD v).olcCmd n v).olcReply := by
  have hu : s.valueOf K.OLC_CMD v = v := h.value_eq (olcCmd_value v hv)
  rw [State.setCmd_of_takes_plain h (by decide) (by decide) (by decide) (by decide) (by decide) (by decide) (by decide), hu]
  rfl

theorem Takes.olcCheck {s : State} {n v : Nat} (h : Takes s n K.OLC_CMD v) (hv : v < 9) :
    rankOf stOK ≤ rankOf (s.olcCmdCheck v).1 := by
  have hu : s.valueOf K.OLC_CMD v = v := h.value_eq (olcCmd_value v hv)
  have := h.own
  rwa [hu] at this

theorem State.dom_of_doms {s t : State} (h : t.doms = s.doms) (k : Nat) : t.dom k = s.dom k := by
  unfold State.dom
  rw [h]

theorem State.olcReply_olc (s : State) : s.olcReply.olc = s.olc :=
  (State.olcReply_stays s (.refl s _) (List.Subset.refl _)).keeps .olc (by decide)

theorem State.accepted_olc (s : State) (n key u : Nat) : (s.accepted n key u).olc = s.olc :=
  (s.accepted_stays' n key u).keeps .olc (by decide)

theorem State.moorSend_olc (s : State) (m : MoorMsg) : (s.moorSend m).olc = s.olc :=
  (State.moorSend_stays s m (.refl s _) (List.Subset.refl _)).keeps .olc (by decide)

theorem State.when_moorSend_olc (s : State) (c : Bool) (m : MoorMsg) : (s.when c fun s => s.moorSend m).olc = s.olc := by
  unfold State.when
  split
  · exact s.moorSend_olc m
  · rfl

theorem State.strands_of_part {s t : State} (h : t.part = s.part) : t.strands = s.strands := by
  unfold State.strands State.strandFitted
  rw [h]

theorem State.askVotes_olc (s : State) (ses : Option Nat) (p : Bool) : (s.askVotes ses p).olc = { s.olc with
    ask := (if p then [0] else []) ++ s.strands
    yes := []
    no := []
    asker := ses } := State.when_moorSend_olc _ _ _

theorem State.commitPoint_olc (s : State) : s.commitPoint.olc = { s.olc with point := true } := State.when_moorSend_olc _ _ _

theorem State.beginCommit_olc (s : State) (back : Bool) : (s.beginCommit back).olc.st = (if back then .retreating else .committing) ∧
    (s.beginCommit back).olc.retreat = back ∧ ((s.beginCommit back).olc.point = true ↔ s.tds.st = .stopped) := by
  unfold State.beginCommit
  extract_lets u now w
  have hw : w.olc.st = (if back then .retreating else .committing) ∧ w.olc.retreat = back ∧ w.olc.point = false := ⟨rfl, rfl, rfl⟩
  have hn : now = decide (s.tds.st = .stopped) := rfl
  clear_value now w u
  obtain ⟨h1, h2, h3⟩ := hw
  by_cases hst : s.tds.st = .stopped
  · rw [hn, if_pos (decide_eq_true hst), State.commitPoint_olc]
    exact ⟨h1, h2, iff_of_true rfl hst⟩
  · rw [hn, if_neg (by simpa using hst)]
    exact ⟨h1, h2, iff_of_false (by rw [h3]; decide) hst⟩

/-- An ABORT before the commit point leaves no change in hand. -/
theorem State.olcAbort_olc {s : State} (h : s.olc.st ≠ .committing ∨ s.olc.point = false) :
    s.olcAbort.olc.st = .idle ∧ s.olcAbort.olc.retreatOk = false := by
  have hc : ¬ (s.olc.st = .committing ∧ s.olc.point = true) := fun hx => h.elim (fun hn => hn hx.1) fun hp => by simp [hp] at hx
  unfold State.olcAbort
  rw [if_neg hc, State.when_moorSend_olc, (State.releaseHeld_stays _ _ (.refl _ _) (List.Subset.refl _)).keeps .olc (by decide)]
  exact ⟨rfl, rfl⟩

/-- Settles O28. -/
theorem changeCommands : Obligations.ChangeCommands := by
  unfold Obligations.ChangeCommands
  intro s n
  refine ⟨?_, ?_, ?_, ?_, ?_, ?_, ?_, ?_⟩
  · intro h
    refine completes_of rfl (State.setCmd_olc h (by decide)) ?_
    rw [State.olcReply_olc, State.dom_of_doms ((State.olcReply_stays _ (.refl _ _) (List.Subset.refl _)).keeps .doms (by decide))]
    generalize s.accepted n K.OLC_CMD 1 = a
    change (State.olcLoad _).olc.st = _ ∧ (State.olcLoad _).olc.written = _ ∧ (State.olcLoad _).dom _ = _
    unfold State.olcLoad
    rw [State.dom_setDom, if_pos rfl]
    exact ⟨rfl, rfl, rfl⟩
  · intro h
    refine completes_of rfl (State.setCmd_olc h (by decide)) ?_
    rw [State.olcReply_olc]
    rfl
  · intro h
    refine completes_of rfl (State.setCmd_olc h (by decide)) ?_
    rw [State.olcReply_olc]
    rfl
  · intro h
    have hst : s.olc.st = .verified := by
      have hc := h.olcCheck (by decide)
      by_contra hn
      have he : s.olcCmdCheck 4 = (stSTATE, 0) := if_pos (.inl hn)
      rw [he] at hc
      revert hc
      decide
    refine completes_of rfl (State.setCmd_olc h (by decide)) ?_
    rw [State.olcReply_olc]
    have ho := s.accepted_olc n K.OLC_CMD 4
    have hp := s.accepted_part n K.OLC_CMD 4
    generalize s.accepted n K.OLC_CMD 4 = a at ho hp ⊢
    change (a.askVotes (some n) a.peerStandby).olc.st = _ ∧ (a.askVotes (some n) a.peerStandby).olc.asker = _ ∧
      ∀ d ∈ s.strands, d ∈ (a.askVotes (some n) a.peerStandby).olc.ask
    rw [State.askVotes_olc, ← State.strands_of_part hp]
    exact ⟨(congrArg Olc.st ho).trans hst, rfl, fun d hd => List.mem_append_right _ hd⟩
  · intro h
    refine completes_of rfl (State.setCmd_olc h (by decide)) ?_
    rw [State.olcReply_olc, ← s.accepted_tds n K.OLC_CMD 5]
    exact State.beginCommit_olc _ false
  · intro h hc
    refine completes_of rfl (State.setCmd_olc h (by decide)) ?_
    rw [State.olcReply_olc]
    refine State.olcAbort_olc ?_
    rwa [State.accepted_olc]
  · intro h
    refine completes_of rfl (State.setCmd_olc h (by decide)) ?_
    rw [State.olcReply_olc]
    exact ⟨rfl, rfl, rfl⟩
  · intro h
    refine completes_of rfl (State.setCmd_olc h (by decide)) ?_
    rw [State.olcReply_olc]
    obtain ⟨h1, h2, -⟩ := State.beginCommit_olc (s.accepted n K.OLC_CMD 8) true
    exact ⟨h1, h2⟩

end Sys2Proof.Machine
end


section
/-! SUPPORT. Single bits of numbers, and the objects that EDGE_INIT entries and opened gates touch. -/

namespace Sys2Proof.Machine

/-! ### Bits -/

theorem testBit_add_two_pow_of_clear {x n m : Nat} (h : x.testBit n = false) (hm : m ≠ n) :
    (x + 2 ^ n).testBit m = x.testBit m := by
  rcases Nat.lt_or_gt_of_ne hm with hlt | hgt
  · rw [Nat.add_comm, Nat.testBit_two_pow_add_gt hlt]
  · obtain ⟨k, rfl⟩ : ∃ k, m = k + (n + 1) := ⟨m - (n + 1), by omega⟩
    have he : (x / 2 ^ n) % 2 = 0 := by
      rw [Nat.testBit_eq_decide_div_mod_eq, decide_eq_false_iff_not] at h
      omega
    have hd : (x + 2 ^ n) / 2 ^ (n + 1) = x / 2 ^ (n + 1) := by
      rw [pow_succ, ← Nat.div_div_eq_div_mul, ← Nat.div_div_eq_div_mul, Nat.add_div_right _ (Nat.two_pow_pos n)]
      omega
    rw [Nat.testBit_add, Nat.testBit_add, hd]

theorem testBit_putBit_self (v n : Nat) (b : Bool) : (putBit v n b).testBit n = b := by
  unfold putBit
  split
  next h => exact h
  next h =>
    cases b with
    | true =>
      rw [if_pos rfl, Nat.add_comm, Nat.testBit_two_pow_add_eq]
      simpa using h
    | false =>
      have hv : v.testBit n = true := by simpa using h
      obtain ⟨y, rfl⟩ := Nat.exists_eq_add_of_le (Nat.ge_two_pow_of_testBit hv)
      rw [if_neg Bool.false_ne_true, Nat.add_sub_cancel_left]
      rw [Nat.testBit_two_pow_add_eq] at hv
      simpa using hv

theorem testBit_putBit_ne (v : Nat) {n m : Nat} (b : Bool) (hm : m ≠ n) : (putBit v n b).testBit m = v.testBit m := by
  unfold putBit
  split
  · rfl
  next h =>
    cases b with
    | true => exact testBit_add_two_pow_of_clear (by simpa using h) hm
    | false =>
      have hv : v.testBit n = true := by simpa using h
      obtain ⟨y, rfl⟩ := Nat.exists_eq_add_of_le (Nat.ge_two_pow_of_testBit hv)
      rw [Nat.testBit_two_pow_add_eq] at hv
      have hy : y.testBit n = false := by simpa using hv
      rw [if_neg Bool.false_ne_true, Nat.add_sub_cancel_left, Nat.add_comm, testBit_add_two_pow_of_clear hy hm]

/-! ### Objects that the end of a change's moves touches -/

section
variable {j : Nat} (h1 : j ≠ K.BDR_INHIBITED) (h2 : j ≠ K.BDR_TXN_COMMITS)

include h2 in
theorem State.finishApply_ob (s : State) : s.finishApply.ob j = s.ob j := by
  unfold State.finishApply
  split
  · refine (State.ob_setOb_ne _ _ h2).trans (State.ob_of_objs ?_ _)
    exact (State.applySlot_stays _ _ (.refl s _) (List.Subset.refl _)).keeps .objs (by decide)
  · rfl

include h2 in
theorem State.journal_ob (s : State) (m : SMap (Option Byte)) : (s.journal m).ob j = s.ob j := by
  unfold State.journal
  extract_lets v k w
  have hv : v.ob j = s.ob j := s.finishApply_ob h2
  clear_value v
  have hw : w.objs = v.objs := rfl
  clear_value w
  exact (State.ob_of_objs (s := w) rfl j).trans ((State.ob_of_objs hw j).trans hv)

include h1 h2 in
theorem State.bedTxn_ob (s : State) (m : SMap (Option Byte)) : (s.bedTxn m).1.ob j = s.ob j := by
  unfold State.bedTxn
  split
  · exact State.ob_setOb_ne _ _ h1
  · exact (State.finishApply_ob h2 _).trans (State.journal_ob h2 s m)

include h1 h2 in
theorem State.bedMove_ob : ∀ (f : Nat) (s : State) (off : Nat) (b : List Byte), (State.bedMove f s off b).1.ob j = s.ob j
  | 0, _, _, _ => rfl
  | f + 1, s, off, b => by
    unfold State.bedMove
    split
    · rfl
    · have hb := s.bedTxn_ob h1 h2 (stageBytes [] off (b.take (4096 - off % 64)))
      dsimp only
      split
      next u hu =>
        rw [hu] at hb
        exact (State.bedMove_ob f u _ _).trans hb
      next => exact hb

variable (h3 : j ≠ K.IMG_OVERWRITE_HELD)

include h3 in
theorem State.imgWrite_ob (s : State) (off : Nat) (b : List Byte) : (s.imgWrite off b).ob j = s.ob j := by
  have hc : s.copyProgress.ob j = s.ob j :=
    State.ob_of_objs ((State.copyProgress_stays s (.refl s _) (List.Subset.refl _)).keeps .objs (by decide)) j
  unfold State.imgWrite
  extract_lets u bad
  change u.ob j = s.ob j at hc
  clear_value u
  split
  · exact (State.ob_of_objs ((State.landWrite_stays u _ _ (.refl u _) (List.Subset.refl _)).keeps .objs (by decide)) j).trans hc
  · exact (State.ob_setOb_ne _ _ h3).trans hc

include h3 in
theorem State.headWrite_ob (s : State) (off : Nat) (b : List Byte) : (s.headWrite off b).ob j = s.ob j := by
  unfold State.headWrite
  split
  · have he : ∀ (u : State) k n, (u.eccClear k n).objs = u.objs := fun u k n =>
      (State.eccClear_stays u k n (.refl u _) (List.Subset.refl _)).keeps .objs (by decide)
    rw [State.ob_of_objs (he _ _ _), State.imgWrite_ob h3]
  · have hw : ∀ k, (s.sramWrite k b).objs = s.objs := fun k =>
      (State.sramWrite_stays s k b (.refl s _) (List.Subset.refl _)).keeps .objs (by decide)
    rw [State.ob_of_objs (hw _)]

theorem State.dataWrite_ob (s : State) (n off : Nat) (b : List Byte) (w : Option Nat) : (s.dataWrite n off b w).ob j = s.ob j :=
  State.ob_of_objs ((State.dataWrite_stays s n off b w (.refl s _) (List.Subset.refl _)).keeps .objs (by decide)) j

include h1 h2 h3 in
theorem State.moveWrite_ob (s : State) (addr : Nat) (b : List Byte) : (s.moveWrite addr b).1.ob j = s.ob j := by
  unfold State.moveWrite
  split
  · rfl
  · split
    · rw [State.headWrite_ob h3]
    · split
      · rw [State.bedMove_ob h1 h2]
      · rw [State.dataWrite_ob]

include h1 h2 h3 in
theorem State.edgeInit_ob (s : State) (e : EdgeInit) : (s.edgeInit e).ob j = s.ob j := by
  unfold State.edgeInit
  extract_lets off area cur v
  split
  · exact (State.moveWrite_ob h1 h2 h3 _ _ _).trans (s.finishApply_ob h2)
  · rfl

include h1 h2 h3 in
theorem State.edgeInitsOf_ob (s : State) (t : Nat) : (s.edgeInitsOf t).ob j = s.ob j := by
  unfold State.edgeInitsOf
  extract_lets l
  split
  · rfl
  · refine (State.ob_of_objs (s := s.each l State.edgeInit) rfl j).trans ?_
    exact State.each_induct (fun u => u.ob j = s.ob j) rfl fun u e _ hu => (State.edgeInit_ob h1 h2 h3 u e).trans hu

include h1 h2 h3 in
theorem State.settleEdges_ob (s : State) : s.settleEdges.ob j = s.ob j := by
  unfold State.settleEdges
  refine State.each_induct (fun u => u.ob j = s.ob j) rfl fun u t _ hu => ?_
  split
  · refine (State.ob_of_objs ((State.openGates_each _ t).keeps .objs (by decide)) j).trans ?_
    exact (State.edgeInitsOf_ob h1 h2 h3 u t).trans hu
  · exact hu
end

end Sys2Proof.Machine
end


section
/-! PROOF. What happens in an online change, on one device and in a pair (R236 to R246). -/

namespace Sys2Proof.Machine

/-! ### Moves of a change and the Strands it has lost -/

/-- Confirmations are kept, and no Strand that was lost is found again. -/
structure State.KeepsAnswers (t s : State) : Prop where
  confirmed : t.olc.confirmed = s.olc.confirmed
  lost : s.olc.lost ⊆ t.olc.lost

theorem State.KeepsAnswers.refl (s : State) : s.KeepsAnswers s := ⟨rfl, List.Subset.refl _⟩

theorem State.KeepsAnswers.trans {s t u : State} (h : t.KeepsAnswers s) (h' : u.KeepsAnswers t) : u.KeepsAnswers s :=
  ⟨h'.confirmed.trans h.confirmed, List.Subset.trans h.lost h'.lost⟩

theorem State.KeepsAnswers.of_stays {s t u : State} {fs : List Field} (h : t.KeepsAnswers s) (hu : u.Stays fs t)
    (hf : Field.olc ∉ fs) : u.KeepsAnswers s := by
  have he := hu.keeps .olc hf
  exact h.trans ⟨congrArg Olc.confirmed he, by rw [he]; exact List.Subset.refl _⟩

theorem State.strandLost_keepsAnswers (s : State) (n : Nat) : (s.strandLost n).KeepsAnswers s := by
  refine State.KeepsAnswers.of_stays (t := s.setOlc fun o => { o with
    lost := o.lost ++ [n]
    dies := putBit o.dies n true
    reason := olCONFIRM
    status := Config.olcStatus olCONFIRM }) ?_ (State.raise_stays _ _ _ _ _ _ _ (.refl _ _) (List.Subset.refl _)) (by decide)
  exact ⟨rfl, List.subset_append_left _ _⟩

theorem State.mem_lost_strandLost (s : State) (n : Nat) : n ∈ (s.strandLost n).olc.lost := by
  have h : (s.strandLost n).olc.lost = s.olc.lost ++ [n] := congrArg Olc.lost
    ((State.raise_stays (s.setOlc fun o => { o with
      lost := o.lost ++ [n]
      dies := putBit o.dies n true
      reason := olCONFIRM
      status := Config.olcStatus olCONFIRM }) _ _ _ _ _ _ (.refl _ _) (List.Subset.refl _)).keeps .olc (by decide))
  rw [h]
  exact List.mem_append_right _ List.mem_cons_self

theorem State.moveHalt_keepsAnswers (s : State) (e : CopyErr) (l : List Nat) : (s.moveHalt e l).KeepsAnswers s := by
  unfold State.moveHalt
  extract_lets l
  exact State.each_induct (fun u => u.KeepsAnswers s)
    (.of_stays (.refl s) (State.chanHalt_stays s 6 e (.refl s _) (List.Subset.refl _)) (by decide))
    fun u n _ hu => hu.trans (u.strandLost_keepsAnswers n)

theorem State.moveOne_keepsAnswers (im : List Byte) (s : State) (e : MapEntry) : (State.moveOne im s e).KeepsAnswers s := by
  have hmap : ∀ (u : State) e, (u.mapMove im e).1.KeepsAnswers u := fun u e =>
    .of_stays (.refl u) (State.mapMove_stays u im e (.refl u _) (List.Subset.refl _)) (by decide)
  unfold State.moveOne
  split
  · exact .refl s
  · split
    · extract_lets part u
      have hu : u.KeepsAnswers s := by
        change State.KeepsAnswers (if _ then _ else _) s
        split
        · exact .refl s
        · exact hmap s _
      clear_value u
      refine State.KeepsAnswers.trans ?_ (State.moveHalt_keepsAnswers _ _ _)
      exact hu.of_stays (State.seqStop_stays u _ _ _ _ _ (.refl u _) (List.Subset.refl _)) (by decide)
    · extract_lets u r
      have hu : u.Stays [.objs] s := State.each_stays _ _ (.refl s _) fun v x hv =>
        ite_stays (State.strandCorr_stays v _ _ _ hv (List.Subset.refl _)) hv
      have hr : r.1.KeepsAnswers s := (State.KeepsAnswers.of_stays (.refl s) hu (by decide)).trans (hmap u e)
      clear_value r
      split
      · exact hr.of_stays (State.seqMove_stays r.1 _ _ _ _ (.refl _ _) (List.Subset.refl _)) (by decide)
      · exact hr.trans (State.moveHalt_keepsAnswers _ _ _)

theorem State.relocMove_keepsAnswers (s : State) (e : Nat × Nat) : (s.relocMove e).KeepsAnswers s := by
  unfold State.relocMove
  split
  · exact .refl s
  · split
    · refine State.KeepsAnswers.trans ?_ (State.moveHalt_keepsAnswers _ _ _)
      exact .of_stays (.refl s) (State.seqStop_stays s _ _ _ _ _ (.refl s _) (List.Subset.refl _)) (by decide)
    · extract_lets r
      have hr : r.1.Stays [.objs, .mem, .ecc, .cores, .img, .bdr] s :=
        State.relocOne_stays _ e (State.fabricCorr_stays s _ _ _ (.refl s _) (by decide)) (List.Subset.refl _)
      have hk : r.1.KeepsAnswers s := .of_stays (.refl s) hr (by decide)
      clear_value r
      split
      · exact hk.of_stays (State.seqMove_stays r.1 _ _ _ _ (.refl _ _) (List.Subset.refl _)) (by decide)
      · exact hk.trans (State.moveHalt_keepsAnswers _ _ _)

theorem State.olcMoves_keepsAnswers (s : State) : s.olcMoves.KeepsAnswers s := by
  unfold State.olcMoves
  extract_lets im map rel u
  have hb : (s.finishApply.seqBegin 6).KeepsAnswers s :=
    .of_stays (fs := [.objs, .mem, .bdr, .dma, .fresh]) (.refl s)
      (State.seqBegin_stays _ _ (State.finishApply_stays s (.refl s _) (by decide)) (by decide)) (by decide)
  have hu : u.KeepsAnswers s := State.each_induct (fun v => v.KeepsAnswers s)
    (State.each_induct (fun v => v.KeepsAnswers s) hb fun v e _ hv => hv.trans (State.moveOne_keepsAnswers im v e))
    fun v e _ hv => hv.trans (v.relocMove_keepsAnswers e)
  clear_value u
  have he := hu.of_stays (State.seqEnd_stays u 6 (.refl u _) (List.Subset.refl _)) (by decide)
  exact ⟨he.confirmed, he.lost⟩

theorem State.confirmCheck_keepsAnswers (s : State) : s.confirmCheck.KeepsAnswers s := by
  unfold State.confirmCheck
  split
  · exact s.olcMoves_keepsAnswers
  · exact .refl s

/-! ### Votes and the completed change -/

/-- The last vote prepares the change where no die is against it. -/
theorem State.prepareEnd_olc (s : State) : s.prepareEnd.olc.ask = s.olc.ask ∧
    s.prepareEnd.olc.st = if s.olc.no = [] then .prepared else s.olc.st := by
  unfold State.prepareEnd
  extract_lets no u v dies k w
  have hu : u.olc = s.olc := State.when_moorSend_olc _ _ _
  clear_value u
  split
  · rw [← hu]
    cases u.olc.asker <;> exact ⟨rfl, rfl⟩
  · rw [← hu]
    cases u.olc.asker <;> exact ⟨rfl, rfl⟩

theorem State.prepareVote_last {s : State} {d : Nat} (hst : s.olc.st = .verified) (hask : s.olc.ask = [d]) (hno : s.olc.no = [])
    (hd : d ≠ 0) : (s.prepareVote d true).olc.ask = [] ∧
      (s.prepareVote d true).olc.st = if s.strandVote d = 0 then .prepared else .verified := by
  unfold State.prepareVote
  rw [if_neg (fun h => hd h.2.1), if_neg hd]
  generalize s.strandVote d = k
  unfold State.prepareTake
  rw [if_pos ⟨hst, by rw [hask]; simp⟩]
  extract_lets u
  have hu : u.olc.ask = [] := by
    change List.filter _ s.olc.ask = []
    rw [hask]
    simp
  have hn : u.olc.no = if k = 0 then [] else [(d, k)] := by
    change (if k = 0 then s.olc.no else s.olc.no ++ [(d, k)]) = _
    rw [hno]
    rfl
  have hs : u.olc.st = .verified := hst
  clear_value u
  rw [if_pos hu]
  obtain ⟨h1, h2⟩ := u.prepareEnd_olc
  refine ⟨h1.trans hu, h2.trans ?_⟩
  rw [hn, hs]
  by_cases hk : k = 0
  · rw [if_pos hk, if_pos hk, if_pos rfl]
  · rw [if_neg hk, if_neg hk, if_neg (List.cons_ne_nil _ _)]

theorem State.settleEdges_olc (s : State) : s.settleEdges.olc.st = s.olc.st ∧ s.settleEdges.olc.moved = s.olc.moved ∧
    s.settleEdges.olc.point = s.olc.point ∧ s.settleEdges.olc.cand = s.olc.cand := by
  unfold State.settleEdges
  refine State.each_induct (fun u => u.olc.st = s.olc.st ∧ u.olc.moved = s.olc.moved ∧ u.olc.point = s.olc.point ∧
    u.olc.cand = s.olc.cand) ⟨rfl, rfl, rfl, rfl⟩ fun u t _ hu => ?_
  split
  · rw [(State.openGates_each _ t).keeps .olc (by decide)]
    unfold State.edgeInitsOf
    extract_lets l
    split
    · exact hu
    · have he : (u.each l State.edgeInit).olc = u.olc := (State.each_stays
        (fs := [.objs, .mem, .ecc, .cores, .img, .bdr]) _ _ (.refl u _) fun v e hv =>
          State.edgeInit_stays v e hv (by decide)).keeps .olc (by decide)
      generalize u.each l State.edgeInit = v at he
      obtain ⟨h1, h2, h3, h4⟩ := hu
      exact ⟨(congrArg Olc.st he).trans h1, (congrArg Olc.moved he).trans h2, (congrArg Olc.point he).trans h3,
        (congrArg Olc.cand he).trans h4⟩
  · exact hu

theorem State.releaseHeld_olc (s : State) (c : Bool) : (s.releaseHeld c).olc = s.olc :=
  (State.releaseHeld_stays s c (.refl s _) (List.Subset.refl _)).keeps .olc (by decide)

theorem State.olcComplete_olc {s : State} (hst : s.olc.st = .committing ∨ s.olc.st = .retreating) (hm : s.olc.moved = true)
    (hsl : s.slackOk = true) : s.olcComplete.olc.st = (if s.olc.retreat then .verified else .committed) ∧
      s.olcComplete.olc.moved = false := by
  unfold State.olcComplete
  rw [if_pos ⟨hst, hm, hsl⟩]
  extract_lets im back map u v
  clear_value v
  rw [State.releaseHeld_olc]
  exact ⟨rfl, rfl⟩

theorem State.bankSwitch_olc {s : State} {n : Nat} (hst : s.olc.st = .committing ∨ s.olc.st = .retreating)
    (hp : s.olc.point = true) (hf : s.strandFitted n = true) (hup : s.strandUp n = true) (hsw : n ∉ s.olc.switched)
    (hsl : s.slackOk = true) (hfit : s.commitFits = true) :
    (s.bankSwitch n).olc.switched = s.olc.switched ++ [n] ∧
      (s.bankSwitch n).olc.active = putBit s.olc.active n (!bit s.olc.active n) := by
  unfold State.bankSwitch
  rw [if_pos ⟨hst, hp, hf, hup, by simpa using hsw, hsl, hfit⟩]
  extract_lets u
  have hk : ∀ l : List Nat, (u.each l fun s m =>
      let c := 4 * (n - 1) + m
      if (s.core c).icache = [] then s else s.setCore c { s.core c with icache := [] }).Stays [.cores] u := fun l =>
    State.each_stays _ _ (.refl u _) fun v m hv => by
      extract_lets c
      exact ite_stays hv (State.setCore_stays v _ _ hv (List.Subset.refl _))
  rw [(hk _).keeps .olc (by decide)]
  exact ⟨rfl, rfl⟩

/-! ### The change in a pair -/

theorem State.moorSend_msgs {s : State} (hm : s.moored = true) (m : MoorMsg) : (s.moorSend m).red.msgs = s.red.msgs ++ [m] := by
  unfold State.moorSend
  rw [if_pos hm]
  rfl

theorem State.commitPoint_ob (s : State) : s.commitPoint.ob K.OLC_COMMIT_AT = s.ob K.TDS_TIDE := by
  unfold State.commitPoint
  have hw : ∀ (c : Bool) (u : State) (m : State → MoorMsg), (u.when c fun s => s.moorSend (m s)).objs = u.objs := fun c u m => by
    unfold State.when
    split
    · exact (State.moorSend_stays u _ (.refl u _) (List.Subset.refl _)).keeps .objs (by decide)
    · rfl
  rw [State.ob_of_objs (hw _ _ _), State.ob_setOb_self]

theorem State.passCut_olc (s : State) : s.passCut.olc = { s.olc with cand := none } := State.releaseHeld_olc _ _

theorem Olc.point_of_seeking {o : Olc} (h : o.seeking = true) : o.point = false := by
  unfold Olc.seeking at h
  rw [Bool.and_eq_true] at h
  simpa using h.2

/-- Settles O29: the moves of a change keep what the Strands confirmed and what was lost, and the edges settled at the end of
a window change neither its state nor OLC.COMMIT_AT. -/
theorem changeEvents : Obligations.ChangeEvents := by
  unfold Obligations.ChangeEvents
  refine ⟨⟨?_, ?_, ?_, ?_, ?_, ?_⟩, ?_, ?_, ?_, ?_, ?_⟩
  · intro s h
    refine completes_of rfl rfl ?_
    unfold State.verifyDone
    rw [if_neg (fun hn => hn h)]
    extract_lets im r u
    clear_value u
    change _ = if r = 0 then _ else _
    split <;> rfl
  · intro s d hst hask hno hd
    refine completes_of rfl rfl ?_
    rw [State.olcReply_olc]
    exact State.prepareVote_last hst hask hno hd
  · intro s hs hc hw
    refine completes_of rfl rfl ?_
    unfold State.noQuiesce
    rw [if_pos ⟨hs, hc, hw⟩]
    rfl
  · intro s n hst hp hf hc hl
    refine ⟨fun hup hsw hsl hfit => ?_, fun hsw hlk => ?_, ?_⟩
    · refine completes_of rfl rfl ?_
      obtain ⟨h1, h2⟩ := State.bankSwitch_olc hst hp hf hup hsw hsl hfit
      rw [h1, h2]
      exact ⟨List.mem_append_right _ List.mem_cons_self, testBit_putBit_self _ _ _, fun m hm => testBit_putBit_ne _ _ hm⟩
    · refine completes_of rfl rfl ?_
      unfold State.bankConfirm
      rw [if_pos ⟨hlk, by simpa using hsw, by simpa using hc, by simpa using hl⟩, (State.confirmCheck_keepsAnswers _).confirmed]
      exact List.mem_append_right _ List.mem_cons_self
    · refine completes_of rfl rfl ?_
      unfold State.confirmLost
      rw [if_pos ⟨hst, hp, hf, by simpa using hc, by simpa using hl⟩]
      exact (State.confirmCheck_keepsAnswers _).lost (s.mem_lost_strandLost n)
  · intro s hst hm hr hsl
    refine completes_of rfl rfl ?_
    obtain ⟨h1, h2⟩ := State.olcComplete_olc (.inl hst) hm hsl
    obtain ⟨e1, e2, -⟩ := s.olcComplete.settleEdges_olc
    rw [e1, e2, h1, h2, hr]
    exact ⟨rfl, rfl⟩
  · intro s hst hm hr hsl
    refine completes_of rfl rfl ?_
    obtain ⟨h1, h2⟩ := State.olcComplete_olc (.inr hst) hm hsl
    obtain ⟨e1, e2, -⟩ := s.olcComplete.settleEdges_olc
    rw [e1, e2, h1, h2, hr]
    exact ⟨rfl, rfl⟩
  · intro s tide hr hm hf
    constructor
    · intro hc
      refine completes_of rfl rfl ?_
      unfold State.cutTide
      rw [if_neg (fun hn => hn hr), if_pos ⟨hf, hc⟩, State.moorSend_olc,
        (State.moorSend_stays _ _ (.refl _ _) (List.Subset.refl _)).keeps .tds (by decide)]
      refine ⟨rfl, rfl, State.moorSend_msgs ?_ _⟩
      exact hm
    · intro hc
      refine completes_of rfl rfl ?_
      unfold State.cutTide
      rw [if_neg (fun hn => hn hr), if_neg (fun hx => hc hx.2)]
      exact State.moorSend_msgs hm _
  · intro s tide hs hc
    have hp := Olc.point_of_seeking hs
    refine ⟨?_, ?_, ?_⟩
    · refine completes_of rfl rfl ?_
      rw [s.standbyVote tide true |>.settleEdges_olc.2.2.1, State.settleEdges_ob (by decide) (by decide) (by decide)]
      unfold State.standbyVote
      rw [if_pos ⟨hs, hc⟩, if_pos rfl, State.commitPoint_olc]
      exact ⟨rfl, s.commitPoint_ob⟩
    · refine completes_of rfl rfl ?_
      obtain ⟨-, -, e3, e4⟩ := (s.standbyVote tide false).settleEdges_olc
      rw [e3, e4]
      unfold State.standbyVote
      rw [if_pos ⟨hs, hc⟩, if_neg Bool.false_ne_true, State.passCut_olc]
      exact ⟨hp, rfl⟩
    · refine completes_of rfl rfl ?_
      obtain ⟨-, -, e3, e4⟩ := s.standbyLate.settleEdges_olc
      rw [e3, e4]
      unfold State.standbyLate
      rw [if_pos (by rw [hs, hc]; rfl)]
      change s.passCut.olc.point = false ∧ s.passCut.olc.cand = none
      rw [State.passCut_olc]
      exact ⟨hp, rfl⟩
  · intro s tide hr hv
    constructor
    · refine completes_of rfl rfl ?_
      unfold State.partnerToken
      rw [if_pos ⟨hr, .inl hv⟩, State.commitPoint_olc]
      exact ⟨rfl, rfl, rfl, decide_eq_true_iff⟩
    · refine completes_of rfl rfl ?_
      unfold State.tokenMissing
      rw [if_pos ⟨hr, hv⟩]
      extract_lets u v
      have hu : u.olc.voted = false ∧ u.olc.cand = none := ⟨rfl, rfl⟩
      have hd : (u.divergence (u.ob K.TDS_TIDE) [] 2).Stays [.objs, .doms, .role, .red, .flt] u :=
        State.divergence_stays u _ _ _ (.refl u _) (by decide)
      have hv : v.olc = u.olc := (State.toUnsynced_stays _ _ hd (by decide)).keeps .olc (by decide)
      clear_value u v
      rw [← hv] at hu
      split
      · rwa [(State.startResync_stays v (.refl v _) (List.Subset.refl _)).keeps .olc (by decide)]
      · exact hu
  · intro s h hr hst hh
    refine completes_of rfl rfl ?_
    unfold State.partnerPrepare
    rw [if_neg (fun hn => hn hr), if_pos ⟨hst, hh⟩, State.askVotes_olc]
    exact ⟨rfl, rfl⟩
  · intro s hr hp hst
    refine completes_of rfl rfl ?_
    obtain ⟨e1, -, -, e4⟩ := s.partnerDiscard.settleEdges_olc
    rw [e1, e4]
    unfold State.partnerDiscard
    rw [if_pos ⟨hr, hp, hst⟩, State.releaseHeld_olc]
    exact ⟨rfl, rfl⟩

end Sys2Proof.Machine
end


section
/-! PROOF. The start sequence and its commands (R247, R248, R251, R254, R255, R259, R318). -/

namespace Sys2Proof.Machine

/-! ### What a start keeps of its unit -/

/-- What the steps of a start keep: the result of the self-test, the flashes, NOTIME, that the newest attempt has its type or
is cold, and that step m has not begun. -/
structure Str.Goes (m : Nat) (x y : Str) : Prop where
  bist : y.bistOk = x.bistOk
  flash0 : y.flash0 = x.flash0
  flash1 : y.flash1 = x.flash1
  notime : y.notime = x.notime
  newest : ∀ a l, x.recs = a :: l → ∃ b k, y.recs = b :: k ∧ (b.typ = a.typ ∨ b.typ = 1)
  notStep : x.step ≠ m → y.step ≠ m

theorem Str.Goes.refl (m : Nat) (x : Str) : x.Goes m x := ⟨rfl, rfl, rfl, rfl, fun a l h => ⟨a, l, h, .inl rfl⟩, id⟩

theorem Str.Goes.trans {m : Nat} {x y z : Str} (h : x.Goes m y) (h' : y.Goes m z) : x.Goes m z := by
  refine ⟨h'.bist.trans h.bist, h'.flash0.trans h.flash0, h'.flash1.trans h.flash1, h'.notime.trans h.notime, fun a l ha => ?_,
    fun hs => h'.notStep (h.notStep hs)⟩
  obtain ⟨b, k, hb, ht⟩ := h.newest a l ha
  obtain ⟨c, j, hc, ht'⟩ := h'.newest b k hb
  refine ⟨c, j, hc, ht'.elim (fun e => ?_) .inr⟩
  rw [e]
  exact ht

theorem Str.Goes.of_stays {m : Nat} {x : Str} {s t : State} {fs : List Field} (h : x.Goes m s.str) (ht : t.Stays fs s)
    (hf : Field.str ∉ fs) : x.Goes m t.str := by
  rwa [ht.keeps .str hf]

/-- Every part but the unit of the start. -/
def Field.offStr : List Field := Field.all.filter fun f => f ≠ .str

theorem Str.Goes.off {m : Nat} {x : Str} {s t : State} (h : x.Goes m s.str) (ht : t.Stays Field.offStr s) : x.Goes m t.str :=
  h.of_stays ht (by decide)

theorem State.devRecord_id_stays (s : State) : (s.devRecord fun s => s).Stays [.objs, .mem, .bdr, .fresh] s :=
  State.devRecord_stays s (fun s => s) (.refl s _) (fun _ h => h) (List.Subset.refl _)

theorem State.modAttempt_goes (s : State) {f : Attempt → Attempt} (hf : ∀ a, (f a).typ = a.typ ∨ (f a).typ = 1) (m : Nat) :
    s.str.Goes m (s.modAttempt f).str := by
  unfold State.modAttempt
  have hd := s.devRecord_id_stays.keeps .str (by decide)
  generalize s.devRecord (fun s => s) = u at hd
  rw [← hd]
  refine ⟨rfl, rfl, rfl, rfl, fun a l ha => ⟨f a, l, ?_, hf a⟩, id⟩
  change (match u.str.recs with | [] => [] | x :: t => f x :: t) = _
  rw [ha]

theorem State.atStep_goes (s : State) {n m : Nat} (h : n ≠ m) : s.str.Goes m (s.atStep n).str := by
  refine Str.Goes.trans ?_ (State.modAttempt_goes (s.setStr fun r => { r with step := n }) (f := fun a => { a with step := n })
    (fun a => .inl rfl) m)
  exact ⟨rfl, rfl, rfl, rfl, fun a l ha => ⟨a, l, ha, .inl rfl⟩, fun _ => h⟩

theorem State.modAttempt_step (s : State) (f : Attempt → Attempt) : (s.modAttempt f).str.step = s.str.step := by
  unfold State.modAttempt
  have hd := s.devRecord_id_stays.keeps .str (by decide)
  generalize s.devRecord (fun s => s) = u at hd
  rw [← hd]
  rfl

theorem State.toService_goes (s : State) (r m : Nat) : s.str.Goes m (s.toService r).str := by
  unfold State.toService
  refine Str.Goes.of_stays ?_ (State.serviceStop_stays _ (.refl _ _) (List.Subset.refl _)) (by decide)
  refine Str.Goes.trans ?_ (State.modAttempt_goes _ ?_ m)
  · exact ⟨rfl, rfl, rfl, rfl, fun a l ha => ⟨a, l, ha, .inl rfl⟩, id⟩
  · exact fun a => .inl rfl

theorem State.toService_str (s : State) (r : Nat) : (s.toService r).str.service = true ∧ (s.toService r).str.reason = r := by
  unfold State.toService
  rw [(State.serviceStop_stays _ (.refl _ _) (List.Subset.refl _)).keeps .str (by decide)]
  unfold State.modAttempt
  have hd := (s.setStr fun x => { x with service := true, reason := r, keeper := false }).devRecord_id_stays.keeps .str (by decide)
  generalize State.devRecord _ (fun s => s) = u at hd
  change u.str.service = true ∧ u.str.reason = r
  rw [hd]
  exact ⟨rfl, rfl⟩

theorem State.startLimit_goes (s : State) (m : Nat) : s.str.Goes m s.startLimit.str := by
  unfold State.startLimit
  split
  · split
    · refine Str.Goes.trans ?_ (State.modAttempt_goes _ (fun a => .inr rfl) m)
      exact ⟨rfl, rfl, rfl, rfl, fun a l ha => ⟨a, l, ha, .inl rfl⟩, id⟩
    · exact s.toService_goes 5 m
  · exact .refl m _

theorem State.releaseKeeper_goes (s : State) (m : Nat) : s.str.Goes m s.releaseKeeper.str := by
  unfold State.releaseKeeper
  have hr : ((s.setCtx 0 { Ctx.init with cs := .ready, relSeq := s.tds.seq }).resched 0).Stays [.ctxs] s :=
    State.resched_stays _ _ (State.setCtx_stays s _ _ (.refl s _) (by decide)) (by decide)
  have he := hr.keeps .str (by decide)
  generalize (s.setCtx 0 { Ctx.init with cs := .ready, relSeq := s.tds.seq }).resched 0 = u at he
  rw [← he]
  exact ⟨rfl, rfl, rfl, rfl, fun a l ha => ⟨a, l, ha, .inl rfl⟩, id⟩

theorem State.startImage_goes (s : State) {m : Nat} (hm : 8 < m ∨ m < 5) : s.str.Goes m s.startImage.str := by
  unfold State.startImage
  extract_lets u p q second n fails v w b skip w1 w2 w3 w4 w5
  have hu : s.str.Goes m u.str := s.atStep_goes (by omega)
  clear_value p q second n fails
  have hv : v.Stays Field.offStr u := State.setOb_stays _ _ _ (State.addOb_stays u _ _ (.refl u _) (by decide)) (by decide)
  have hp : State.Stays (v.placeImage (u.flash 1)) Field.offStr u := State.placeImage_stays v _ hv (by decide)
  have hw : w.Stays Field.offStr u := by
    change State.Stays (State.when _ _ _) _ _
    unfold State.when
    exact ite_stays (State.placeImage_stays _ _ hp (by decide)) hp
  have hwg : s.str.Goes m w.str := hu.off hw
  clear_value u v w skip
  split
  · exact (hwg.trans (w.atStep_goes (by omega))).trans (State.toService_goes _ _ _)
  · have h1 : s.str.Goes m w1.str :=
      (hwg.trans (w.atStep_goes (n := 6) (by omega))).off (State.setOb_stays _ _ _ (.refl _ _) (by decide))
    have h2 : s.str.Goes m w2.str := by
      refine h1.off ?_
      change State.Stays (if _ then _ else _) _ _
      refine ite_stays (.refl w1 _) (State.setDom_stays _ _ _ ?_ (by decide))
      exact State.devRecord_stays w1 (fun s => s) (.refl w1 _) (fun _ h => h) (by decide)
    have h3 : s.str.Goes m w3.str := h2.trans (State.modAttempt_goes w2 (f := fun a => { a with hash := (imHash b).take 8 })
      (fun a => .inl rfl) m)
    have h4 : s.str.Goes m w4.str :=
      (h3.trans (w3.atStep_goes (n := 7) (by omega))).off (State.applyTables_stays _ _ (.refl _ _) (by decide))
    have h5 : s.str.Goes m w5.str := h4.off (State.setOlc_stays w4 _ (.refl w4 _) (by decide))
    clear_value w1 w2 w3 w4 w5
    refine Str.Goes.trans ?_ (State.atStep_goes _ (by omega))
    refine Str.Goes.trans (h5.off (State.setDom_stays _ _ _ ?_ (by decide))) (State.releaseKeeper_goes _ m)
    exact State.devRecord_stays w5 (fun s => s) (.refl w5 _) (fun _ h => h) (by decide)

theorem State.retainCold_goes (s : State) (m : Nat) : s.str.Goes m s.retainCold.str := by
  unfold State.retainCold
  extract_lets u v w
  have hw : w.str = s.str := by
    have he : (v.each v.strands fun s n => s.initCells s.bootImage n).Stays [.mem] v :=
      State.each_stays _ _ (.refl v _) fun z n hz => State.initCells_stays z _ _ hz (List.Subset.refl _)
    exact ((State.startEdges_stays _ _ (.refl _ _) (List.Subset.refl _)).keeps .str (by decide)).trans
      ((he.keeps .str (by decide)).trans rfl)
  clear_value w
  rw [← hw]
  exact ⟨rfl, rfl, rfl, rfl, fun a l ha => ⟨a, l, ha, .inl rfl⟩, id⟩

/-- Step 9 of a start, as it goes on from its beginning. -/
theorem State.startRetain_goes (s : State) (m : Nat) : (s.atStep 9).str.Goes m s.startRetain.str := by
  unfold State.startRetain
  extract_lets u
  split
  · exact u.retainCold_goes m
  · split
    · exact (Str.Goes.refl m u.str).off (State.retainWarm_stays u (.refl u _) (by decide))
    · split
      · refine Str.Goes.trans (Str.Goes.trans ?_ (State.modAttempt_goes _ (fun a => .inr rfl) m)) (State.retainCold_goes _ m)
        exact ⟨rfl, rfl, rfl, rfl, fun a l ha => ⟨a, l, ha, .inl rfl⟩, id⟩
      · exact u.toService_goes 4 m

theorem State.startTide_goes (s : State) {m : Nat} (hm : m < 9) : s.str.Goes m s.startTide.str := by
  unfold State.startTide
  extract_lets u v
  have hu : s.str.Goes m u.str := s.atStep_goes (by omega)
  have hv : s.str.Goes m v.str := by
    refine hu.off ?_
    change State.Stays (if _ then _ else _) _ _
    refine ite_stays (ite_stays ?_ ?_) (.refl u _)
    · exact State.fioOverlap_stays _ (State.tideStart_stays u (.refl u _) (by decide)) (by decide)
    · exact State.setOb_stays _ _ _ (.refl u _) (by decide)
  clear_value u v
  exact hv.trans (v.atStep_goes (by omega))

theorem State.startPair_goes (s : State) {m : Nat} (hm : m < 9) : s.str.Goes m s.startPair.str := by
  unfold State.startPair
  split
  · exact s.startTide_goes hm
  · exact .refl m _

theorem State.startJoin_goes (s : State) {m : Nat} (hm : m < 9) : s.str.Goes m s.startJoin.str := by
  unfold State.startJoin
  extract_lets u
  have hu : s.str.Goes m u.str := s.atStep_goes (by omega)
  clear_value u
  split
  · refine Str.Goes.trans (hu.off ?_) (State.startPair_goes _ hm)
    refine State.drillArm_stays _ (State.joinGrant_stays _ ?_ (by decide)) (by decide)
    unfold State.when
    exact ite_stays (State.setRole_stays u _ _ (.refl u _) (by decide)) (.refl u _)
  · exact hu.trans (u.startTide_goes hm)

/-- Steps 9 and on, as they go on from the beginning of step 9. -/
theorem State.startGoOn_goes (s : State) {m : Nat} (hm : m < 9) : (s.atStep 9).str.Goes m s.startGoOn.str := by
  unfold State.startGoOn
  extract_lets u
  have hu : (s.atStep 9).str.Goes m u.str := s.startRetain_goes m
  clear_value u
  split
  · exact hu
  · exact hu.trans (u.startJoin_goes hm)

/-! ### A start from step 1 -/

/-- A start that its limit lets go on ends after its first wait. -/
def State.startRest (s : State) : State :=
  if s.str.service then s
  else
    let s := if s.str.typ = 1 then s.atStep 4 else s
    if s.str.typ = 1 ∧ s.str.bistOk = false then s.toService 1
    else
      let s := s.startImage
      if s.str.service then s
      else if s.ob K.NTM_LOCK = 1 then s.startGoOn else s

theorem State.startRun_eq (s : State) (cold : Bool) :
    s.startRun cold = (s.startPower.startRecord (s.startPower.startType cold)).startLimit.startRest := rfl

theorem State.startRest_goes (s : State) : s.str.Goes 0 s.startRest.str := by
  unfold State.startRest
  extract_lets u v
  have hu : s.str.Goes 0 u.str := by
    change Str.Goes 0 s.str (State.str (if _ then _ else _))
    split
    · exact s.atStep_goes (by decide)
    · exact .refl 0 _
  have hv : s.str.Goes 0 v.str := hu.trans (u.startImage_goes (.inr (by decide)))
  clear_value u v
  split
  · exact .refl 0 _
  · split
    · exact hu.trans (u.toService_goes 1 0)
    · split
      · exact hv
      · split
        · exact (hv.trans (v.atStep_goes (by decide))).trans (v.startGoOn_goes (by decide))
        · exact hv

theorem State.startPower_str (s : State) : s.startPower.str = { s.str with
    service := false
    notime := false
    reason := 0
    keeper := false } := by
  unfold State.startPower
  extract_lets u v
  have hv : v.str = { s.str with
    service := false
    notime := false
    reason := 0
    keeper := false } := rfl
  clear_value v
  rw [← hv]
  exact (State.witBoot_stays _ (State.readStartCfg_stays _ (State.recoverJournal_stays v (.refl v Field.offStr) (by decide))
    (by decide)) (by decide)).keeps .str (by decide)

theorem State.startPower_pwr (s : State) : s.startPower.pwr.inReset = false := by
  unfold State.startPower
  extract_lets u v
  have hv : v.pwr.inReset = false := rfl
  clear_value v
  rw [(State.witBoot_stays _ (State.readStartCfg_stays _ (State.recoverJournal_stays v (.refl v (Field.all.filter fun f => f ≠ .pwr))
    (by decide)) (by decide)) (by decide)).keeps .pwr (by decide)]
  exact hv

theorem State.startRecord_str (s : State) (typ : Nat) : (s.startRecord typ).str.bistOk = s.str.bistOk ∧
    (s.startRecord typ).str.flash0 = s.str.flash0 ∧ (s.startRecord typ).str.flash1 = s.str.flash1 ∧
    ∃ a l, (s.startRecord typ).str.recs = a :: l ∧ a.typ = typ := by
  unfold State.startRecord
  extract_lets u v
  have hu : u.str = s.str := by
    exact (State.devRecord_stays _ (fun s => s) (State.setOb_stays _ _ _ (State.incOb_stays s _ (.refl s Field.offStr) (by decide))
      (by decide)) (fun _ h => h) (by decide)).keeps .str (by decide)
  clear_value u
  rw [← hu]
  exact ⟨rfl, rfl, rfl, _, _, rfl, rfl⟩

/-- A start keeps what it was given, and its newest attempt has the type that it begins with, or is cold. -/
theorem State.startRun_str (s : State) (cold : Bool) : (s.startRun cold).str.bistOk = s.str.bistOk ∧
    (s.startRun cold).str.flash0 = s.str.flash0 ∧ (s.startRun cold).str.flash1 = s.str.flash1 ∧
    ∃ a l, (s.startRun cold).str.recs = a :: l ∧ (a.typ = s.startPower.startType cold ∨ a.typ = 1) := by
  rw [State.startRun_eq]
  obtain ⟨h1, h2, h3, a, l, ha, ht⟩ := s.startPower.startRecord_str (s.startPower.startType cold)
  have hp := s.startPower_str
  generalize s.startPower.startRecord (s.startPower.startType cold) = u at h1 h2 h3 ha
  have hg := (u.startLimit_goes 0).trans u.startLimit.startRest_goes
  obtain ⟨b, k, hb, hbt⟩ := hg.newest a l ha
  rw [ht] at hbt
  rw [hp] at h1 h2 h3
  exact ⟨hg.bist.trans h1, hg.flash0.trans h2, hg.flash1.trans h3, b, k, hb, hbt⟩

theorem State.startRun_pwr (s : State) (cold : Bool) : (s.startRun cold).pwr.inReset = false := by
  have hp := s.startPower_pwr
  unfold State.startRun
  extract_lets u v w x
  change u.pwr.inReset = false at hp
  have hv : v.Stays (Field.all.filter fun f => f ≠ .pwr) u :=
    State.startLimit_stays _ (State.startRecord_stays u _ (.refl u _) (by decide)) (by decide)
  have hw : w.Stays (Field.all.filter fun f => f ≠ .pwr) u := by
    change State.Stays (if _ then _ else _) _ _
    exact ite_stays (State.atStep_stays v 4 hv (by decide)) hv
  have hx : x.Stays (Field.all.filter fun f => f ≠ .pwr) u := State.startImage_stays w hw (by decide)
  clear_value u v w x
  rw [← hp]
  refine congrArg Pwr.inReset (State.Stays.keeps ?_ .pwr (by decide : Field.pwr ∉ Field.all.filter fun f => f ≠ .pwr))
  refine ite_stays hv (ite_stays (State.toService_stays w 1 hw (by decide)) (ite_stays hx (ite_stays ?_ hx)))
  exact State.startGoOn_stays x hx (by decide)

end Sys2Proof.Machine
end


section
/-! SUPPORT. Domain writes that are taken whole, and the commands of a start. -/

namespace Sys2Proof.Machine

/-! ### Domain writes -/

/-- The value of DIC.DOM_OPEN that opens a write transfer of an object. -/
@[reducible] def openWrite (key : Nat) : Nat := key / 256 * 2 ^ 32 + key % 256 * 2 ^ 24 + 2 * 2 ^ 16

/-- DIC.DOM_OPEN has no reserved bit where it opens a write of the object, and names it. -/
structure OpensWrite (key : Nat) : Prop where
  value : (objRow K.DIC_DOM_OPEN).map (·.value (openWrite key)) = some (openWrite key)
  names : domKey (openWrite key) = key
  writes : domDir (openWrite key) = 2

section
variable {s : State} {n key : Nat} {data : List Byte} (h : Delivers s n key data) (hk : OpensWrite key)
include h hk

theorem State.filled_eq : s.filled n key data = ((s.setResult n K.DIC_DOM_OPEN stOK rNONE 0).modSes n fun x => { x with dom := some {
      key := key
      write := true
      cap := none
      wr := [] } }).xferPut n 0 data := by
  obtain ⟨hv, hn, hd⟩ := hk
  have hu : s.valueOf K.DIC_DOM_OPEN (openWrite key) = openWrite key := State.value_of_writeCheck h.passes hv
  unfold State.filled
  rw [State.setCmd_domOpen h.served h.passes, hu]
  have hw : decide (domDir (openWrite key) = 2) = true := decide_eq_true hd
  have ho : (s.domCheck n (domKey (openWrite key)) (decide (domDir (openWrite key) = 2))).1 = stOK := by
    rw [hn, hw]
    exact h.allowed
  rw [State.domOpen_eq ho (.inr hd), hn, hw]
  rfl

theorem State.filled_stays : (s.filled n key data).Stays [.sess] s := by
  rw [State.filled_eq h hk]
  exact State.modSes_stays _ n _ (State.modSes_stays _ n _ (State.setResult_stays s n _ _ _ _ (.refl s _) (by decide)) (by decide))
    (by decide)

theorem State.filled_dom : ∃ x, ((s.filled n key data).ses n).dom = some x ∧ x.key = key ∧ x.write = true := by
  rw [State.filled_eq h hk]
  have hd : (((s.setResult n K.DIC_DOM_OPEN stOK rNONE 0).modSes n fun x => { x with dom := some {
      key := key
      write := true
      cap := none
      wr := [] } }).ses n).dom = some {
      key := key
      write := true
      cap := none
      wr := [] } := congrArg Ses.dom (State.ses_modSes_self _ n _)
  exact ⟨_, State.dom_xferPut hd, rfl, rfl⟩

theorem State.filled_served : (s.filled n key data).served n = true := by
  have hs := h.served
  rw [State.filled_eq h hk]
  have he : ∃ d r, (((s.setResult n K.DIC_DOM_OPEN stOK rNONE 0).modSes n fun x => { x with dom := some {
      key := key
      write := true
      cap := none
      wr := [] } }).xferPut n 0 data).ses n = { s.ses n with dom := d, result := r } := by
    unfold State.xferPut
    rw [State.ses_modSes_self, State.ses_modSes_self, State.ses_setResult_self]
    exact ⟨_, _, rfl⟩
  obtain ⟨d, r, he⟩ := he
  unfold State.served State.sesAlive State.sesWaits at hs ⊢
  rw [he]
  exact hs

/-- A domain write taken whole leaves what its bytes make of the object, and an answer in the session. -/
theorem State.putDomain_of_delivers (hi : key ≠ K.OLC_IMAGE) : s.putDomain n key data =
    (((s.filled n key data).applyBytes2 n key data).setResult n K.DIC_DOM_CLOSE stOK rNONE 0).modSes n
      fun x => { x with dom := none } := by
  obtain ⟨x, hx, hkey, hwr⟩ := State.filled_dom h hk
  have htaken := h.taken x hx
  have hwhole := h.whole_ x hx
  have hcommit : (s.filled n key data).xferCommit n key x.wr = (stOK, (s.filled n key data).applyBytes2 n key data) := by
    unfold State.xferCommit at htaken ⊢
    split at htaken
    · exact absurd (show stNOOBJ = stOK from htaken) (by decide)
    · rw [if_neg hi, hwhole] at htaken ⊢
      split at htaken
      · exact absurd (show stSTATE = stOK from htaken) (by decide)
      next hc =>
        rw [if_neg hc]
        dsimp only at htaken ⊢
        split at htaken
        · contradiction
        next hst => rw [if_neg hst]
  have hput : s.putDomain n key data = match ((s.setCmd n K.DIC_DOM_OPEN (openWrite key)).ses n).dom with
    | some x => if x.key = key ∧ x.write = true then (s.filled n key data).setCmd n K.DIC_DOM_CLOSE 1
      else s.setCmd n K.DIC_DOM_OPEN (openWrite key)
    | none => s.setCmd n K.DIC_DOM_OPEN (openWrite key) := rfl
  obtain ⟨hv, hn, hd⟩ := hk
  have hu : s.valueOf K.DIC_DOM_OPEN (openWrite key) = openWrite key := State.value_of_writeCheck h.passes hv
  have hw : decide (domDir (openWrite key) = 2) = true := decide_eq_true hd
  have ho : (s.domCheck n (domKey (openWrite key)) (decide (domDir (openWrite key) = 2))).1 = stOK := by
    rw [hn, hw]
    exact h.allowed
  obtain ⟨y, hy, hyk, hyw, -⟩ := State.domOpen_opens ho (.inr hd)
  have hopen : s.setCmd n K.DIC_DOM_OPEN (openWrite key) = s.domOpen n (openWrite key) := by
    rw [State.setCmd_domOpen h.served h.passes, hu]
  rw [← hopen] at hy
  rw [hput, hy]
  dsimp only
  rw [hyk, hyw, hn, hd, if_pos ⟨rfl, by decide⟩]
  rw [State.setCmd_domClose (State.filled_served h ⟨hv, hn, hd⟩) h.closes (by decide)]
  unfold State.domClose
  rw [hx]
  dsimp only
  have hc : 1 = 1 ∧ x.write = true := ⟨rfl, hwr⟩
  rw [hkey, hcommit, if_pos hc, if_pos rfl]
end

/-! ### Commands of a start -/

theorem strCmd_value : ∀ v < 5, (objRow K.STR_CMD).map (·.value v) = some v := by decide

theorem lock_value : ∀ v < 2, (objRow K.NTM_LOCK).map (·.value v) = some v := by decide

/-- STR.CMD, taken where no transaction waits. -/
theorem State.setCmd_start {s : State} {n v : Nat} (h : Takes s n K.STR_CMD v) (hq : s.txnWaiting = []) (hv : v < 5) :
    s.setCmd n K.STR_CMD v = (s.accepted n K.STR_CMD v).strCmd v := by
  have hu : s.valueOf K.STR_CMD v = v := h.value_eq (strCmd_value v hv)
  refine State.setCmd_of_index_quiet h (i := 0x1300) (by decide) (by decide) (by decide) hu ?_
  refine (((State.txnWaiting_nil_iff s).1 hq).accepted n K.STR_CMD v).of_sess ?_
  exact (State.strCmd_stays _ v (.refl _ _) (List.Subset.refl _)).keeps .sess (by decide)

theorem State.applyNtm_lock (s : State) (key v : Nat) :
    s.applyNtm 0x3201 6 key v = if v = 1 then (s.setOb key v).timeLocked else s.setOb key v := rfl

/-- NTM.LOCK, taken where no transaction waits. -/
theorem State.setCmd_lock {s : State} {n v : Nat} (h : Takes s n K.NTM_LOCK v) (hq : s.txnWaiting = []) (hv : v < 2) :
    s.setCmd n K.NTM_LOCK v = (s.accepted n K.NTM_LOCK v).applyNtm 0x3201 6 K.NTM_LOCK v := by
  have hu : s.valueOf K.NTM_LOCK v = v := h.value_eq (lock_value v hv)
  have he : ((s.accepted n K.NTM_LOCK v).applyOb n K.NTM_LOCK v) = (s.accepted n K.NTM_LOCK v).applyNtm 0x3201 6 K.NTM_LOCK v := by
    have hi : K.NTM_LOCK / 256 = 0x3201 := by decide
    have hs : K.NTM_LOCK % 256 = 6 := by decide
    unfold State.applyOb
    generalize K.NTM_LOCK = key at hi hs
    simp only [hi, hs]
  rw [← he]
  refine State.setCmd_of_index_quiet h (i := 0x3201) (by decide) (by decide) (by decide) hu ?_
  rw [he]
  refine (((State.txnWaiting_nil_iff s).1 hq).accepted n K.NTM_LOCK v).of_sess ?_
  exact (State.applyNtm_stays _ _ _ _ _ (.refl _ _) (List.Subset.refl _)).keeps .sess (by decide)

theorem State.accepted_str (s : State) (n key u : Nat) : (s.accepted n key u).str = s.str :=
  (s.accepted_stays' n key u).keeps .str (by decide)

theorem State.startType_range (s : State) (c : Bool) : s.startType c = 1 ∨ s.startType c = 2 := by
  unfold State.startType
  split
  · exact .inl rfl
  · exact .inr rfl

theorem State.startType_cold (s : State) : s.startType true = 1 := rfl

theorem opensWrite_provision : OpensWrite K.SEC_PROVISION := ⟨by decide, by decide, by decide⟩

theorem State.modAttempt_recs {s : State} {a : Attempt} {l : List Attempt} (f : Attempt → Attempt) (h : s.str.recs = a :: l) :
    (s.modAttempt f).str.recs = f a :: l := by
  unfold State.modAttempt
  have hd := s.devRecord_id_stays.keeps .str (by decide)
  generalize s.devRecord (fun s => s) = v at hd
  change (match v.str.recs with | [] => [] | x :: t => f x :: t) = _
  rw [hd, h]

theorem State.startConfirm_recs {s : State} {a : Attempt} {l : List Attempt} (hst : s.str.step = 12)
    (hsv : s.str.service = false) (htd : s.tds.st = .running) (hr : s.str.recs = a :: l) (ha : a.result = 0) :
    s.startConfirm.str.recs = { a with result := 1 } :: l := by
  have hm : ∀ at_, (s.reachMono at_).str = s.str := fun at_ =>
    (State.reachMono_stays s at_ (.refl s _) (List.Subset.refl _)).keeps .str (by decide)
  unfold State.startConfirm
  rw [if_pos ⟨hst, hsv, htd⟩, State.modAttempt_recs _ ((congrArg Str.recs (hm _)).trans hr), ha]
  rfl

/-- Settles O30: what a start keeps of its unit is carried through all its steps (`Str.Goes`). -/
theorem startSequence : Obligations.StartSequence := by
  unfold Obligations.StartSequence
  refine ⟨?_, ?_, ?_, ?_⟩
  · intro s b f0 f1 hs
    refine completes_of rfl (if_pos hs) ?_
    obtain ⟨h1, h2, h3, -⟩ := State.startRun_str (s.setStr fun r => { r with
      bistOk := b
      flash0 := f0
      flash1 := f1 }) false
    exact ⟨h1, h2, h3, State.startRun_pwr _ false⟩
  · intro s hst hsv hq
    have hnw := ((State.txnWaiting_nil_iff s).1 hq).timeExpired.settle
    constructor
    · intro hk
      refine completes_of rfl hnw ?_
      unfold State.timeExpired
      rw [if_pos ⟨hst, hsv⟩, if_neg (by rw [hk]; exact Bool.false_ne_true)]
      exact s.toService_str 3
    · intro hk
      refine completes_of rfl hnw ?_
      unfold State.timeExpired
      rw [if_pos ⟨hst, hsv⟩, if_pos hk]
      have hn := (State.atStep_goes (s.setStr fun r => { r with notime := true }) (n := 9) (m := 0) (by decide)).notime
      exact ((State.startGoOn_goes (s.setStr fun r => { r with notime := true }) (m := 0) (by decide)).notime.trans hn).trans rfl
  · intro s a l hst hsv htd hr ha
    refine completes_of rfl rfl ?_
    exact State.startConfirm_recs hst hsv htd hr ha
  · intro s n hq
    refine ⟨?_, ?_, ?_, ?_, ?_, ?_, ?_, ?_⟩
    · intro h
      refine completes_of rfl (State.setCmd_lock h hq (by decide)) ?_
      rw [State.applyNtm_lock, if_neg (by decide), State.ob_setOb_self]
    · intro h hst
      refine completes_of rfl (State.setCmd_lock h hq (by decide)) ?_
      rw [State.applyNtm_lock, if_pos rfl]
      unfold State.timeLocked
      rw [if_neg (fun hx => hst ((congrArg Str.step (s.accepted_str n K.NTM_LOCK 1)).symm.trans hx.1)), State.ob_setOb_self]
    · intro h hst hsv
      refine completes_of rfl (State.setCmd_lock h hq (by decide)) ?_
      have ha := s.accepted_str n K.NTM_LOCK 1
      generalize s.accepted n K.NTM_LOCK 1 = u at ha
      rw [State.applyNtm_lock, if_pos rfl]
      unfold State.timeLocked
      rw [if_pos ⟨(congrArg Str.step ha).trans hst, (congrArg Str.service ha).trans hsv⟩]
      refine (State.startGoOn_goes (u.setOb K.NTM_LOCK 1) (m := 8) (by decide)).notStep ?_
      unfold State.atStep
      rw [State.modAttempt_step]
      exact (by decide : 9 ≠ 8)
    · intro h
      refine completes_of rfl (State.setCmd_start h hq (by decide)) ?_
      have ha := congrArg Str.recs (s.accepted_str n K.STR_CMD 1)
      exact ⟨rfl, ha⟩
    · intro h
      refine completes_of rfl (State.setCmd_start h hq (by decide)) ?_
      obtain ⟨-, -, -, a, l, ha, ht⟩ := (s.accepted n K.STR_CMD 2).stopAll.startRun_str true
      rw [State.startType_cold, or_self] at ht
      exact ⟨a, l, ha, ht⟩
    · intro h
      refine completes_of rfl (State.setCmd_start h hq (by decide)) ?_
      obtain ⟨-, -, -, a, l, ha, ht⟩ := (s.accepted n K.STR_CMD 3).stopAll.startRun_str false
      exact ⟨a, l, ha, ht.elim (fun e => by rw [e]; exact State.startType_range _ _) .inl⟩
    · intro h
      refine completes_of rfl (State.setCmd_start h hq (by decide)) ?_
      intro a ha
      change a ∈ (List.map (fun a => if a.result = 2 then { a with result := 5 } else a) _ : List Attempt) at ha
      obtain ⟨b, -, rfl⟩ := List.mem_map.1 ha
      split
      · exact (by decide : 5 ≠ 2)
      · assumption
    · intro data h ht
      refine completes_of rfl (State.putDomain_of_delivers h opensWrite_provision (by decide)) ?_
      have hs := (State.filled_stays h opensWrite_provision).keeps .str (by decide)
      generalize s.filled n K.SEC_PROVISION data = u at hs
      change (u.provision data).str.keyBoot = _ ∧ (u.provision data).str.fuses.testBit 1 = true ∧ (u.provision data).str.keyProg = _
      unfold State.provision
      extract_lets t
      have ht' : t = 1 := ht
      clear_value t
      subst ht'
      have hp := congrArg Str.keyProg hs
      exact ⟨rfl, testBit_putBit_self _ _ _, hp⟩

end Sys2Proof.Machine
end


section
/-! PROOF. Mooring links and their status messages (R333, R334, R335). -/

namespace Sys2Proof.Machine

/-! ### What a partner holds of its peer -/

/-- The peer is as present as before, and its latest status is the same. -/
structure State.SamePeer (s t : State) : Prop where
  peer : t.red.peer = s.red.peer
  status : t.red.peerSt = s.red.peerSt

theorem State.SamePeer.refl (s : State) : s.SamePeer s := ⟨rfl, rfl⟩

theorem State.SamePeer.trans {s t u : State} (h : s.SamePeer t) (k : t.SamePeer u) : s.SamePeer u :=
  ⟨k.peer.trans h.peer, k.status.trans h.status⟩

theorem State.samePeer_of_stays {s t : State} {fs : List Field} (h : t.Stays fs s) (hf : Field.red ∉ fs) : s.SamePeer t := by
  have he : t.red.rest = s.red.rest := h.keeps .red hf
  have hp := congrArg Red.peer he
  have hs := congrArg Red.peerSt he
  exact ⟨hp, hs⟩

theorem State.SamePeer.ite {s t u : State} {c : Prop} [Decidable c] (ht : s.SamePeer t) (hu : s.SamePeer u) :
    s.SamePeer (if c then t else u) := by
  split
  · exact ht
  · exact hu

theorem State.samePeer_when {s t : State} {f : State → State} (h : s.SamePeer t) (c : Bool) (hf : ∀ u : State, u.SamePeer (f u)) :
    s.SamePeer (t.when c f) := .ite (h.trans (hf t)) h

theorem State.samePeer_setRole (s : State) (x : Role) (n : Nat) : s.SamePeer (s.setRole x n) := ⟨rfl, rfl⟩

theorem State.samePeer_maybeResync (s : State) : s.SamePeer s.maybeResync := .ite ⟨rfl, rfl⟩ ⟨rfl, rfl⟩

theorem State.samePeer_toUnsynced (s : State) (n : Nat) : s.SamePeer (s.toUnsynced n) :=
  State.SamePeer.trans (t := (s.setRed fun r => { r with giving := false, taking := false, swapDue := false, swap := none }).setRole
    .unsynced n) ⟨rfl, rfl⟩ (State.samePeer_maybeResync _)

theorem State.samePeer_joinGrant (s : State) : s.SamePeer s.joinGrant := .ite ⟨rfl, rfl⟩ ⟨rfl, rfl⟩

theorem State.samePeer_reclaim (s : State) : s.SamePeer s.reclaim := ⟨rfl, rfl⟩

theorem State.samePeer_moorSend (s : State) (m : MoorMsg) : s.SamePeer (s.moorSend m) := .ite ⟨rfl, rfl⟩ ⟨rfl, rfl⟩

theorem State.samePeer_passBegin (s : State) : s.SamePeer s.passBegin := by
  unfold State.passBegin
  split
  · extract_lets u
    have hu : s.SamePeer u := ⟨rfl, rfl⟩
    exact (hu.trans (u.samePeer_moorSend _)).trans ⟨rfl, rfl⟩
  · exact .refl s

theorem State.samePeer_becomeActive (s : State) : s.SamePeer s.becomeActive := by
  have hown : ∀ u : State, u.SamePeer u.ownUnmatched := fun u => by
    unfold State.ownUnmatched
    extract_lets seen l v
    have hv : u.SamePeer v := ⟨rfl, rfl⟩
    refine State.each_induct (fun w => u.SamePeer w) hv fun w o _ hw => hw.trans ?_
    split
    · exact State.samePeer_of_stays (State.decideTrigger_stays w _ _ _ (.refl w _) (List.Subset.refl _)) (by decide)
    · exact State.samePeer_of_stays (State.canFilter_stays w _ _ _ (.refl w _) (List.Subset.refl _)) (by decide)
    · exact .refl w
  unfold State.becomeActive
  extract_lets planned u
  have hu : s.SamePeer u := by
    refine State.SamePeer.trans ?_ (hown _)
    refine State.SamePeer.trans ?_ (State.samePeer_of_stays (State.mbEnded_stays _ (.refl _ _) (List.Subset.refl _)) (by decide))
    refine State.SamePeer.trans ?_ (State.samePeer_of_stays (State.changeLost_stays _ (.refl _ _) (List.Subset.refl _)) (by decide))
    exact ⟨rfl, rfl⟩
  clear_value u
  split
  · exact hu
  · rename_i v _
    have hv : s.SamePeer v := hu.trans (State.samePeer_of_stays (State.incOb_stays u _ (.refl u _) (List.Subset.refl _)) (by decide))
    clear_value v
    have hp : ∀ p : State × Nat, s.SamePeer p.1 → s.SamePeer (
        let w := (p.1.setOb K.RED_LAST_FAILOVER p.2).setRed fun r => { r with shift := p.2 }
        if w.slackPassed then w.lateRefresh else w) := fun p hw => by
      extract_lets w
      have hw' : s.SamePeer w := hw.trans ⟨rfl, rfl⟩
      clear_value w
      exact .ite (hw'.trans (State.samePeer_of_stays (State.lateRefresh_stays w (.refl w _) (List.Subset.refl _)) (by decide))) hw'
    refine hp (if v.tds.launched then v.takeover v.red.peerSt.done else (v, 0)) ?_
    split
    · exact hv.trans (State.samePeer_of_stays (State.takeover_stays v _ (.refl v _) (List.Subset.refl _)) (by decide))
    · exact hv

theorem State.samePeer_gainGrant (s : State) : s.SamePeer s.gainGrant := by
  unfold State.gainGrant
  extract_lets u
  have hu : s.SamePeer u := ⟨rfl, rfl⟩
  clear_value u
  split
  · exact (hu.trans u.samePeer_becomeActive).trans (State.samePeer_reclaim _)
  · exact (hu.trans u.samePeer_joinGrant).trans (State.samePeer_reclaim _)

theorem State.samePeer_loseGrant (s : State) : s.SamePeer s.loseGrant := by
  unfold State.loseGrant
  split
  · exact .refl s
  · extract_lets planned u
    have hu : s.SamePeer u := by
      refine State.SamePeer.trans ?_ (State.samePeer_of_stays (State.sendPark_stays _ (.refl _ _) (List.Subset.refl _)) (by decide))
      exact ⟨rfl, rfl⟩
    clear_value u
    exact .ite (.ite (hu.trans (u.samePeer_setRole _ _)) (hu.trans (u.samePeer_toUnsynced 0))) (hu.trans u.samePeer_reclaim)

theorem State.samePeer_thaw (s : State) : s.SamePeer s.thaw := .ite s.samePeer_loseGrant (.refl s)

theorem State.samePeer_unfence (s : State) : s.SamePeer s.unfence := .ite s.samePeer_gainGrant (.refl s)

theorem State.samePeer_startPair (s : State) : s.SamePeer s.startPair :=
  State.samePeer_of_stays (State.startPair_stays s (.refl s _) (List.Subset.refl _)) (by decide)

/-! ### A partner in UNSYNCED stays there -/

/-- Role and reason are the same, and so is every object. -/
structure State.SameRole (s t : State) : Prop where
  role : t.red.role = s.red.role
  reason : t.red.reason = s.red.reason
  objs : t.objs = s.objs

theorem State.SameRole.refl (s : State) : s.SameRole s := ⟨rfl, rfl, rfl⟩

theorem State.SameRole.trans {s t u : State} (h : s.SameRole t) (k : t.SameRole u) : s.SameRole u :=
  ⟨k.role.trans h.role, k.reason.trans h.reason, k.objs.trans h.objs⟩

theorem State.sameRole_of_stays {s t : State} {fs : List Field} (h : t.Stays fs s) (hf : Field.role ∉ fs) (ho : Field.objs ∉ fs) :
    s.SameRole t := by
  have he : (t.red.role, t.red.reason) = (s.red.role, s.red.reason) := h.keeps .role hf
  exact ⟨congrArg Prod.fst he, congrArg Prod.snd he, h.keeps .objs ho⟩

theorem State.sameRole_reclaim (s : State) : s.SameRole s.reclaim := ⟨rfl, rfl, rfl⟩

theorem State.joinGrant_of_role {s : State} (h : s.red.role ≠ .joining) : s.joinGrant = s := if_neg fun hx => h hx.1

theorem State.sameRole_gainGrant {s : State} (h : s.red.role = .unsynced) : s.SameRole s.gainGrant := by
  unfold State.gainGrant
  extract_lets u
  have hu : u.red.role = .unsynced := h
  have hs : s.SameRole u := ⟨rfl, rfl, rfl⟩
  clear_value u
  rw [hu]
  dsimp only
  rw [State.joinGrant_of_role (by rw [hu]; decide)]
  exact hs.trans u.sameRole_reclaim

theorem State.sameRole_loseGrant {s : State} (h : s.red.role = .unsynced) : s.SameRole s.loseGrant := by
  unfold State.loseGrant
  split
  · exact .refl s
  · extract_lets planned u
    have hu : s.SameRole u := by
      refine State.SameRole.trans ?_
        (State.sameRole_of_stays (State.sendPark_stays _ (.refl _ _) (List.Subset.refl _)) (by decide) (by decide))
      exact ⟨rfl, rfl, rfl⟩
    clear_value u
    rw [if_neg (by rw [hu.role, h]; decide)]
    exact hu.trans u.sameRole_reclaim

theorem State.sameRole_thaw {s : State} (h : s.red.role = .unsynced) : s.SameRole s.thaw := by
  unfold State.thaw
  split
  · exact State.sameRole_loseGrant h
  · exact .refl s

theorem State.sameRole_unfence {s : State} (h : s.red.role = .unsynced) : s.SameRole s.unfence := by
  unfold State.unfence
  split
  · exact State.sameRole_gainGrant h
  · exact .refl s

theorem State.modAttempt_ob (s : State) (f : Attempt → Attempt) {j : Nat} (h1 : j ≠ K.BDR_INHIBITED) (h2 : j ≠ K.BDR_TXN_COMMITS) :
    (s.modAttempt f).ob j = s.ob j :=
  State.devTxn_ob s 496 16 (f := fun u => u) (fun _ => rfl) h1 h2

theorem State.atStep_ob (s : State) (n : Nat) {j : Nat} (h1 : j ≠ K.BDR_INHIBITED) (h2 : j ≠ K.BDR_TXN_COMMITS) :
    (s.atStep n).ob j = s.ob j := (State.modAttempt_ob _ _ h1 h2).trans rfl

/-- A partner in UNSYNCED begins no tide at the end of step 10. -/
theorem State.startPair_ob {s : State} (h : s.red.role = .unsynced) {j : Nat} (h1 : j ≠ K.BDR_INHIBITED)
    (h2 : j ≠ K.BDR_TXN_COMMITS) : s.startPair.ob j = s.ob j := by
  unfold State.startPair
  split
  · unfold State.startTide
    extract_lets u v
    have hr : u.red.role = .unsynced :=
      (congrArg Prod.fst ((State.atStep_stays s 11 (.refl s _) (List.Subset.refl _)).keeps .role (by decide))).trans h
    have hu : u.ob j = s.ob j := s.atStep_ob 11 h1 h2
    have hv : v = u := if_neg fun hx => by
      have hm := hx.2.1
      unfold State.mayStart at hm
      rw [hr] at hm
      simp at hm
    rw [State.atStep_ob _ _ h1 h2, hv, hu]
  · rfl

theorem State.startPair_role (s : State) : s.startPair.red.role = s.red.role ∧ s.startPair.red.reason = s.red.reason := by
  have h : (s.startPair.red.role, s.startPair.red.reason) = (s.red.role, s.red.reason) :=
    (State.startPair_stays s (.refl s _) (List.Subset.refl _)).keeps .role (by decide)
  exact ⟨congrArg Prod.fst h, congrArg Prod.snd h⟩

/-! ### Messages of status -/

theorem State.linkState_set {t : State} {m : SMap Nat} {link v : Nat} (h : t.red.linkSt = mput (fun _ => 0) m link v) :
    t.linkState link = v := by
  unfold State.linkState
  rw [h, mget_mput_self]

theorem State.linkState_set_ne {s t : State} {link v l : Nat} (h : t.red.linkSt = mput (fun _ => 0) s.red.linkSt link v)
    (hl : l ≠ link) : t.linkState l = s.linkState l := by
  unfold State.linkState
  rw [h, mget_mput_ne _ _ _ _ hl]

theorem State.mooringUp_link (s : State) (link lanes : Nat) : (s.mooringUp link lanes).linkState link = 2 := by
  unfold State.mooringUp
  split
  · assumption
  · extract_lets back u
    have hu : u.linkState link = 2 := State.linkState_set rfl
    clear_value u
    unfold State.when
    split
    · exact (congrArg (fun x : SMap Nat × SMap Nat × Nat => mget (fun _ => 0) x.1 link)
        ((State.raiseSt_stays u _ _ _ _ (.refl u _) (List.Subset.refl _)).keeps .link (by decide))).trans hu
    · exact hu

theorem State.linkState_of_stays {s t : State} {fs : List Field} (h : t.Stays fs s) (hf : Field.link ∉ fs) (link : Nat) :
    t.linkState link = s.linkState link :=
  congrArg (fun x : SMap Nat × SMap Nat × Nat => mget (fun _ => 0) x.1 link) (h.keeps .link hf)

/-- A status message as the partner takes it. -/
theorem State.statusReceive_peer {s : State} {m : Status} (hp : s.inPair = true) (hs : s.red.stop = false)
    (hm : s.mismatch m = 0) : (s.statusReceive m).red.peer = true ∧ (s.statusReceive m).red.peerSt = m ∧
      (s.red.role = .joining → m.role = 5 → (s.statusReceive m).red.role = .unsynced ∧ (s.statusReceive m).objs = s.objs) := by
  unfold State.statusReceive
  rw [if_neg (by rw [hp, hs]; decide)]
  extract_lets bad began moved u1 u2 u3 u4 u5 u6 u7 u8 u9
  have hbad : bad = 0 := hm
  rw [if_neg (fun h => h hbad)]
  have h1 : u1.red.peer = true ∧ u1.red.peerSt = m := ⟨rfl, rfl⟩
  have h1r : u1.red.role = s.red.role ∧ u1.objs = s.objs := ⟨rfl, rfl⟩
  clear_value u1 bad began moved
  have h2 : u1.SamePeer u2 := State.samePeer_when (.refl u1) _ fun _ => ⟨rfl, rfl⟩
  have h2r : u2.red.role = u1.red.role ∧ u2.objs = u1.objs := by
    unfold u2 State.when
    split <;> exact ⟨rfl, rfl⟩
  clear_value u2
  have h3 : u2.SamePeer u3 := State.samePeer_when (.refl u2) _ State.samePeer_passBegin
  have h3r : s.red.role = .joining → u3 = u2 := fun hj => by
    unfold u3 State.when
    split
    · exact if_neg fun ha => by
        rw [h2r.1, h1r.1, hj] at ha
        exact absurd ha (by decide)
    · rfl
  clear_value u3
  have h4 : u3.SamePeer u4 := .ite ⟨rfl, rfl⟩ (.refl u3)
  have h4r : u4.red.role = u3.red.role ∧ u4.objs = u3.objs := by
    unfold u4
    split <;> exact ⟨rfl, rfl⟩
  clear_value u4
  have h5 : u4.SamePeer u5 := .ite ⟨rfl, rfl⟩ (.refl u4)
  have h5r : u5.red.role = u4.red.role ∧ u5.objs = u4.objs := by
    unfold u5
    split <;> exact ⟨rfl, rfl⟩
  clear_value u5
  have h6 : u5.SamePeer u6 := .ite (u5.samePeer_setRole _ _) (.refl u5)
  have h6r : u5.red.role = .joining → m.role = 5 → u6 = u5.setRole .unsynced u5.red.reason := fun hj hr => if_pos ⟨hj, hr⟩
  clear_value u6
  have h7 : u6.SamePeer u7 := u6.samePeer_unfence
  have h8 : u7.SamePeer u8 := u7.samePeer_thaw
  have h9 : u8.SamePeer u9 := .ite (u8.samePeer_toUnsynced 5) (.refl u8)
  have hpeer : u1.SamePeer u9.joinGrant.reclaim :=
    (((((((h2.trans h3).trans h4).trans h5).trans h6).trans h7).trans h8).trans h9).trans
      (u9.samePeer_joinGrant.trans (State.samePeer_reclaim _))
  refine ⟨hpeer.peer.trans h1.1, hpeer.status.trans h1.2, fun hj hr => ?_⟩
  have e3 := h3r hj
  have hj5 : u5.red.role = .joining := by rw [h5r.1, h4r.1, e3, h2r.1, h1r.1, hj]
  have e6 := h6r hj5 hr
  have r6 : u6.red.role = .unsynced := by
    rw [e6]
    rfl
  have o6 : u6.objs = s.objs := by
    rw [e6]
    change u5.objs = _
    rw [h5r.2, h4r.2, e3, h2r.2, h1r.2]
  have s7 : u6.SameRole u7 := State.sameRole_unfence r6
  have s8 : u7.SameRole u8 := State.sameRole_thaw (s7.role.trans r6)
  have r8 : u8.red.role = .unsynced := s8.role.trans (s7.role.trans r6)
  have e9 : u9 = u8 := if_neg fun h => by
    rw [r8] at h
    exact absurd h.1 (by decide)
  rw [e9, State.joinGrant_of_role (by rw [r8]; decide)]
  exact ⟨r8, s8.objs.trans (s7.objs.trans o6)⟩

theorem State.moored_parts {s : State} (h : s.moored = true) : s.inPair = true ∧ s.red.stop = false := by
  unfold State.moored at h
  rw [Bool.and_eq_true, Bool.and_eq_true] at h
  exact ⟨h.1.1, by simpa using h.2⟩

theorem State.maybeResync_of_manual {s : State} (h : s.autoResync = false) : s.maybeResync = s := by
  unfold State.maybeResync
  rw [h]
  rfl

theorem State.autoResync_of_ob {s t : State} (h : t.ob K.RED_CFG = s.ob K.RED_CFG) : t.autoResync = s.autoResync :=
  congrArg (fun v => bit v 2) h

theorem State.mooringDown_links (s : State) {link : Nat} (hl : link < 2) : (s.mooringDown link).linkState link = 0 ∧
    (s.mooringDown link).linkState (1 - link) = s.linkState (1 - link) := by
  unfold State.mooringDown
  split
  next h => exact ⟨h, rfl⟩
  next h =>
    extract_lets up u
    have hu : u.linkState link = 0 ∧ u.linkState (1 - link) = s.linkState (1 - link) :=
      ⟨State.linkState_set rfl, State.linkState_set_ne (link := link) (v := 0) rfl (by omega)⟩
    clear_value u
    unfold State.when
    split
    · have hk := State.linkState_of_stays (State.raiseSt_stays u 0x11 link false 0 (.refl u _) (List.Subset.refl _)) (by decide)
      rwa [hk, hk]
    · exact hu

/-- A peer judged absent is gone, and ends a resynchronisation. -/
theorem State.peerAbsent_role {s : State} (hp : s.red.peer = true) (hr : s.red.role = .resync) :
    s.peerAbsent.red.role = .unsynced ∧ s.peerAbsent.red.reason = 5 := by
  unfold State.peerAbsent
  rw [if_neg (by rw [hp]; decide)]
  extract_lets u v w
  have hv : v.red.role = .resync ∧ v.red.peer = false := by
    have hst : v.Stays [.flt] u := by
      unfold v State.when
      exact ite_stays (State.raise_stays u _ _ _ _ _ _ (.refl u _) (List.Subset.refl _)) (.refl u _)
    exact ⟨(congrArg Prod.fst (hst.keeps .role (by decide))).trans hr, (State.samePeer_of_stays hst (by decide)).peer⟩
  have hw : w.red.role = .unsynced ∧ w.red.reason = 5 := by
    have he : w = v.toUnsynced 5 := if_pos hv.1
    rw [he]
    unfold State.toUnsynced State.maybeResync
    rw [if_neg]
    · exact ⟨rfl, rfl⟩
    · intro hc
      rw [Bool.and_eq_true, decide_eq_true_eq] at hc
      have hcheck := hc.2
      unfold State.resyncCheck at hcheck
      rw [if_neg] at hcheck
      · exact absurd hcheck (by decide)
      · exact fun hx => absurd (hx.2.2.1.symm.trans hv.2) (by decide)
  clear_value u v w
  have h1 := State.sameRole_thaw hw.1
  have h2 := State.sameRole_unfence (h1.role.trans hw.1)
  have h3 := h1.trans h2
  have hrole := h3.role.trans hw.1
  rw [State.joinGrant_of_role (by rw [hrole]; decide)]
  exact ⟨hrole, h3.reason.trans hw.2⟩

theorem State.peerAbsent_peer (s : State) : s.peerAbsent.red.peer = false := by
  unfold State.peerAbsent
  split
  · assumption
  · extract_lets u v w
    have hv : u.SamePeer v := State.samePeer_when (.refl u) _ fun x =>
      State.samePeer_of_stays (State.raise_stays x _ _ _ _ _ _ (.refl x _) (List.Subset.refl _)) (by decide)
    have hw : u.SamePeer w := .ite (hv.trans (v.samePeer_toUnsynced 5)) hv
    have hall := (((hw.trans w.samePeer_thaw).trans w.thaw.samePeer_unfence).trans (State.samePeer_joinGrant _)).trans
      (State.samePeer_reclaim _)
    exact hall.peer

/-- Settles O35. -/
theorem mooringLinks : Obligations.MooringLinks := by
  unfold Obligations.MooringLinks
  refine ⟨?_, ?_, ?_, ?_, ?_⟩
  · intro s hm
    refine completes_of rfl (if_pos hm) ?_
    exact ⟨rfl, rfl, rfl⟩
  · intro s link m hm hl hmis
    refine completes_of rfl (if_pos (by rw [hm, decide_eq_true hl]; rfl)) ?_
    obtain ⟨hp, hst⟩ := State.moored_parts hm
    have hup := State.mooringUp_stays s link 2 (.refl s _) (List.Subset.refl _)
    have hlink := s.mooringUp_link link 2
    have hsame := State.sameRole_of_stays hup (by decide) (by decide)
    have hstop : (s.mooringUp link 2).red.stop = false := (congrArg Red.stop (hup.keeps .red (by decide))).trans hst
    have hpart : (s.mooringUp link 2).part = s.part := hup.keeps .part (by decide)
    generalize s.mooringUp link 2 = u at hlink hsame hstop hpart
    have hin : u.inPair = true := by
      unfold State.inPair at hp ⊢
      rwa [hsame.role]
    have hmm : u.mismatch m = 0 := by
      rw [← hmis]
      unfold State.mismatch State.redId
      rw [hpart, State.ob_of_objs hsame.objs, State.ob_of_objs hsame.objs]
    obtain ⟨h1, h2, h3⟩ := State.statusReceive_peer hin hstop hmm
    have hl2 := State.linkState_of_stays (State.statusReceive_stays u m (.refl u _) (List.Subset.refl _)) (by decide) link
    generalize u.statusReceive m = v at h1 h2 h3 hl2
    have hsp := v.samePeer_startPair.trans v.startPair.samePeer_maybeResync
    have hlk : v.startPair.maybeResync.linkState link = v.linkState link :=
      (State.linkState_of_stays (State.maybeResync_stays _ (.refl _ _) (List.Subset.refl _)) (by decide) link).trans
        (State.linkState_of_stays (State.startPair_stays v (.refl v _) (List.Subset.refl _)) (by decide) link)
    refine ⟨hsp.peer.trans h1, hsp.status.trans h2, hlk.trans (hl2.trans hlink), fun hj hr hauto => ?_⟩
    obtain ⟨hu, ho⟩ := h3 (hsame.role.trans hj) hr
    have hcfg : v.startPair.ob K.RED_CFG = s.ob K.RED_CFG := by
      rw [State.startPair_ob hu (by decide) (by decide), State.ob_of_objs ho, State.ob_of_objs hsame.objs]
    rw [State.maybeResync_of_manual ((State.autoResync_of_ob hcfg).trans hauto), v.startPair_role.1]
    exact hu
  · intro s hp
    refine completes_of rfl (if_pos hp) ?_
    refine ⟨(State.samePeer_startPair _).peer.trans s.peerAbsent_peer, fun hpeer hr => ?_⟩
    rw [s.peerAbsent.startPair_role.1, s.peerAbsent.startPair_role.2]
    exact State.peerAbsent_role hpeer hr
  · intro s link hm hl
    refine completes_of rfl (if_pos (by rw [hm, decide_eq_true hl]; rfl)) ?_
    exact s.mooringDown_links hl
  · intro s link n hm hl hn hd
    refine completes_of rfl (if_pos (by rw [hm, decide_eq_true hl, decide_eq_true hn]; rfl)) ?_
    unfold State.mooringTrained
    rw [if_pos hd]
    exact ⟨State.linkState_set rfl, mget_mput_self (fun _ => 0) s.red.lanes link _⟩

end Sys2Proof.Machine
end


section
/-! PROOF. What the partners of a pair exchange in a tide (R336, R337, R338, R340, R341). -/

namespace Sys2Proof.Machine

theorem getD_slice (b : List Byte) {n i : Nat} (hi : i < n) : (slice b 0 n).getD i 0 = b.getD i 0 := by
  unfold slice
  extract_lets t
  have ht : t = b.take n := by
    unfold t
    rw [List.drop_zero]
  rw [ht, List.getD_eq_getElem?_getD, List.getD_eq_getElem?_getD, List.getElem?_append, List.length_take]
  split
  · rw [List.getElem?_take, if_pos hi]
  next h =>
    have hb : b.length ≤ i := by omega
    rw [List.getElem?_replicate, List.getElem?_eq_none hb]
    split <;> rfl

theorem State.byte_of_stays {s t : State} {fs : List Field} (h : t.Stays fs s) (hf : Field.mem ∉ fs) (a : Nat) : t.byte a = s.byte a :=
  congrArg (fun m => mget (fun _ => (0 : Byte)) m a) (h.keeps .mem hf)

/-- What a standby finds where its digest equals the active partner's. -/
theorem State.digestReceive_agrees {s : State} {parts : List Nat} {tide : Nat} (hp : s.inPair = true) (hr : s.red.role = .standby)
    (ht : tide = s.ob K.TDS_TIDE) (hd : s.red.digSent = some tide) (hf : s.tds.flooded = false) :
    (s.digestReceive tide s.inDigest parts).red.agreedSent = some tide := by
  unfold State.digestReceive
  rw [if_pos hp]
  have hsend : (s.setRed fun r => { r with peerDig := some (tide, s.inDigest, parts) }).agreeSend =
      s.setRed fun r => { r with peerDig := some (tide, s.inDigest, parts) } := by
    unfold State.agreeSend
    exact if_neg fun hx => absurd (hx.1.symm.trans hr) (by decide)
  rw [hsend]
  have hpeer : (s.setRed fun r => { r with peerDig := some (tide, s.inDigest, parts) }).red.peerDig =
      some (tide, s.inDigest, parts) := rfl
  have hin : (s.setRed fun r => { r with peerDig := some (tide, s.inDigest, parts) }).inDigest = s.inDigest := rfl
  have hc : (s.setRed fun r => { r with peerDig := some (tide, s.inDigest, parts) }).red.role = .standby ∧
      tide = (s.setRed fun r => { r with peerDig := some (tide, s.inDigest, parts) }).ob K.TDS_TIDE ∧
      (s.setRed fun r => { r with peerDig := some (tide, s.inDigest, parts) }).red.digSent = some tide ∧
      (s.setRed fun r => { r with peerDig := some (tide, s.inDigest, parts) }).tds.flooded = false ∧
      (s.setRed fun r => { r with peerDig := some (tide, s.inDigest, parts) }).inDigest = s.inDigest := ⟨hr, ht, hd, hf, hin⟩
  generalize (s.setRed fun r => { r with peerDig := some (tide, s.inDigest, parts) }) = u at hpeer hc
  unfold State.agreeCheck
  rw [hpeer]
  dsimp only
  rw [if_pos hc]
  unfold State.moorSend
  split <;> rfl

theorem differing_self (l : List Nat) : differing l l = [] := by
  unfold differing
  rw [List.filter_eq_nil_iff]
  intro p _
  simp

/-- Output digests of a tide that no change excuses. -/
theorem State.compareOut_eq {s : State} {tide a b : Nat} {ps qs : List Nat} (hm : s.red.myOut = some (tide, a, ps))
    (ho : s.red.outDig = some (tide, b, qs)) (hr : s.red.role = .standby) (hc : s.red.changeTide ≠ some tide)
    (hs : s.red.swap ≠ some tide) (hl : s.red.lateTide ≠ some tide) :
    s.compareOut = if a = b ∧ differing ps qs = [] then s.setRed fun r => { r with outDig := none, myOut := none }
      else ((s.setRed fun r => { r with outDig := none, myOut := none }).divergence tide (differing ps qs) 1).divPolicy := by
  unfold State.compareOut
  rw [hm, ho]
  dsimp only
  rw [if_pos rfl]
  by_cases h : a = b ∧ differing ps qs = []
  · rw [if_pos h]
    exact if_pos (.inr (.inr (.inr h)))
  · rw [if_neg h]
    refine (if_neg ?_).trans (if_pos (.inl hr))
    exact fun hx => hx.elim hc fun hx => hx.elim hs fun hx => hx.elim hl h

/-- A divergence is counted and named. -/
theorem State.divergence_ob (s : State) (t : Nat) (parts : List Nat) (kind : Nat) :
    (s.divergence t parts kind).ob K.RED_DIVERGENCES = (s.ob K.RED_DIVERGENCES + 1) % 2 ^ 64 ∧
      (s.divergence t parts kind).ob K.RED_LAST_DIV = t ∧ (s.divergence t parts kind).ob K.RED_CFG = s.ob K.RED_CFG ∧
      (s.divergence t parts kind).red.role = s.red.role := by
  have hobj : (s.divergence t parts kind).objs = ((s.incOb K.RED_DIVERGENCES).setOb K.RED_LAST_DIV t).objs := by
    unfold State.divergence
    extract_lets u v w
    have hw : w.objs = u.objs := rfl
    change _ = u.objs
    clear_value u v w
    exact ((State.reHoldoff_stays _ (State.raise_stays w _ _ _ _ _ _ (.refl w [.red, .flt]) (by decide)) (by decide)).keeps .objs
      (by decide)).trans hw
  refine ⟨?_, ?_, ?_, ?_⟩
  · rw [State.ob_of_objs hobj, State.ob_setOb_ne _ _ (by decide), State.ob_incOb_self]
  · rw [State.ob_of_objs hobj, State.ob_setOb_self]
  · rw [State.ob_of_objs hobj, State.ob_setOb_ne _ _ (by decide), State.ob_incOb_ne _ (by decide)]
  · exact congrArg Prod.fst ((State.divergence_stays s t parts kind (.refl s [.objs, .doms, .red, .flt]) (by decide)).keeps .role
      (by decide))

theorem State.toUnsynced_role {s : State} (n : Nat) (h : s.autoResync = false) :
    (s.toUnsynced n).red.role = .unsynced ∧ (s.toUnsynced n).red.reason = n := by
  unfold State.toUnsynced
  have hm : ((s.setRed fun r => { r with giving := false, taking := false, swapDue := false, swap := none }).setRole .unsynced
      n).maybeResync = (s.setRed fun r => { r with giving := false, taking := false, swapDue := false, swap := none }).setRole
      .unsynced n := State.maybeResync_of_manual h
  rw [hm]
  exact ⟨rfl, rfl⟩

/-- Settles O36. -/
theorem pairExchange : Obligations.PairExchange := by
  unfold Obligations.PairExchange
  refine ⟨?_, ?_, ?_, ?_, ?_, ?_⟩
  · intro s tide parts hm hr ht hd hf
    refine completes_of rfl (if_pos hm) ?_
    exact State.digestReceive_agrees (State.moored_parts hm).1 hr ht hd hf
  · intro s tide hm hr ht
    refine completes_of rfl (if_pos (by rw [hm, decide_eq_true hr, decide_eq_true ht]; rfl)) ?_
    rfl
  · intro s tide p data hm hr ht hf hp
    refine completes_of rfl (if_pos hm) ?_
    intro a
    unfold State.partReceive
    rw [if_pos ⟨hr, ht, hf, hp⟩]
    have hst : ((((s.putBytes (mAsm + 4096 * p) (slice data 0 4096)).pendLines (4096 * p) 4096).agreeCheck).Stays
        [.msgs, .red, .img] (s.putBytes (mAsm + 4096 * p) (slice data 0 4096))) :=
      State.agreeCheck_stays _ (State.pendLines_stays _ _ _ (.refl _ _) (by decide)) (by decide)
    rw [State.byte_of_stays hst (by decide), State.byte_putBytes, length_slice]
    split
    next h => rw [getD_slice _ (by omega)]
    · rfl
  · intro s c hm hr
    refine completes_of rfl (if_pos (by rw [hm, decide_eq_true hr]; rfl)) ?_
    have hown : ((s.takeDictated (.ebbCount c)).settleEdges.red.own, (s.takeDictated (.ebbCount c)).settleEdges.red.dictated) =
        ((s.takeDictated (.ebbCount c)).red.own, (s.takeDictated (.ebbCount c)).red.dictated) :=
      (State.settleEdges_stays _ (.refl _ _) (List.Subset.refl _)).keeps .own (by decide)
    refine ⟨?_, _, congrArg Prod.snd hown⟩
    rw [State.settleEdges_ob (by decide) (by decide) (by decide)]
    exact State.ob_setOb_self _ _ _
  · intro s m hm hr hs
    refine completes_of rfl (if_pos (by rw [hm, decide_eq_true hr]; rfl)) ?_
    rw [if_neg (by rw [hs]; decide)]
    rfl
  · intro s tide a b ps qs hm hr hmy hc hs hl
    have hout : (if s.moored then s.outDigestReceive tide b qs else s) = (s.setRed fun r => { r with outDig := some (tide, b, qs) }).compareOut :=
      (if_pos hm).trans (if_pos (State.moored_parts hm).1)
    have hcmp := State.compareOut_eq (s := s.setRed fun r => { r with outDig := some (tide, b, qs) }) hmy rfl hr hc hs hl
    constructor
    · intro hab
      refine completes_of rfl (hout.trans hcmp) ?_
      rw [if_neg (fun h => hab h.1)]
      generalize differing ps qs = l
      have hd := State.divergence_ob ((s.setRed fun r => { r with outDig := some (tide, b, qs) }).setRed fun r =>
        { r with outDig := none, myOut := none }) tide l 1
      generalize State.divergence _ tide l 1 = u at hd
      obtain ⟨h1, h2, h3, h4⟩ := hd
      have hob := (State.divPolicy_stays u (.refl u _) (List.Subset.refl _)).keeps .objs (by decide)
      rw [State.ob_of_objs hob, State.ob_of_objs hob]
      refine ⟨h1, h2, fun hpol hauto => ?_⟩
      unfold State.divPolicy
      have hpol' : u.divPol = 1 := (congrArg (fun v => bits v 6 5) h3).trans hpol
      rw [if_neg (fun hn => hn (h4.trans hr)), hpol']
      exact State.toUnsynced_role 4 ((State.autoResync_of_ob h3).trans hauto)
    · intro hab hpq
      refine completes_of rfl (hout.trans hcmp) ?_
      rw [if_pos ⟨hab, hpq ▸ differing_self ps⟩]
      exact ⟨rfl, hr⟩

end Sys2Proof.Machine
end


section
/-! PROOF. Commands of a pair, resynchronisation and switchovers (R335, R355 to R358). -/

namespace Sys2Proof.Machine

theorem redCmd_value : ∀ v < 5, (objRow K.RED_CMD).map (·.value v) = some v := by decide

theorem State.applyOb_red (s : State) (n v : Nat) : s.applyOb n K.RED_CMD v = s.redCmd v := by
  have hi : K.RED_CMD / 256 = 0x3400 := by decide
  have hs : K.RED_CMD % 256 = 2 := by decide
  unfold State.applyOb
  generalize K.RED_CMD = key at hi hs
  simp only [hi, hs]
  rfl

theorem State.setCmd_red {s : State} {n v : Nat} (h : Takes s n K.RED_CMD v) (hv : v < 5) :
    s.setCmd n K.RED_CMD v = (s.accepted n K.RED_CMD v).redCmd v := by
  have hu : s.valueOf K.RED_CMD v = v := h.value_eq (redCmd_value v hv)
  rw [State.setCmd_of_index_plain h (i := 0x3400) (by decide) (by decide) (by decide) hu (by decide), State.applyOb_red]

theorem Takes.redCmdCheck {s : State} {n v : Nat} (h : Takes s n K.RED_CMD v) (hv : v < 5) : rankOf stOK ≤ rankOf (s.redCmdCheck v) := by
  have hu : s.valueOf K.RED_CMD v = v := h.value_eq (redCmd_value v hv)
  have := h.own
  rwa [hu] at this

theorem State.accepted_ob (s : State) (n key u j : Nat) : (s.accepted n key u).ob j = s.ob j :=
  State.ob_of_objs ((s.accepted_stays' n key u).keeps .objs (by decide)) j

/-! ### Swap tokens -/

theorem State.moorSend_keepsSwap (s : State) (m : MoorMsg) : (s.moorSend m).red.swap = s.red.swap ∧
    (s.moorSend m).red.holdoff = s.red.holdoff ∧ (s.moorSend m).red.drillAt = s.red.drillAt ∧ (s.moorSend m).ntm = s.ntm := by
  unfold State.moorSend
  split <;> exact ⟨rfl, rfl, rfl, rfl⟩

theorem State.swapStart_red (s : State) : s.swapStart.red.swap = some ((s.ob K.TDS_TIDE + 2) % 2 ^ 32) ∧
    s.swapStart.red.holdoff = s.red.holdoff ∧ s.swapStart.red.drillAt = s.red.drillAt ∧ s.swapStart.ntm = s.ntm :=
  State.moorSend_keepsSwap _ _

theorem State.drill_of_free {s : State} (hr : s.red.role = .active) (hp : s.prefMismatch = false) (hf : s.swapFree = true) :
    s.drill = s.swapStart := by
  unfold State.drill
  rw [if_neg (fun h => h.elim (fun hn => hn hr) fun ht => by rw [hp] at ht; exact Bool.false_ne_true ht), if_pos hf]

/-- Whether a swap may start depends on the pair, the change and the objects alone. -/
theorem State.swapFree_of {s t : State} (hr : t.red = s.red) (ho : t.olc = s.olc) (hb : t.ob K.TDS_TIDE = s.ob K.TDS_TIDE) :
    t.swapFree = s.swapFree := by
  unfold State.swapFree State.peerStandby State.divRecent
  rw [hr, ho, hb]

theorem State.prefMismatch_of {s t : State} (hr : t.red = s.red) (hb : t.ob K.RED_CFG = s.ob K.RED_CFG) :
    t.prefMismatch = s.prefMismatch := by
  unfold State.prefMismatch State.redPref
  rw [hr, hb]

theorem State.Passes.red {s t : State} (h : s.Passes t) : t.red = s.red := by
  rw [h.frame]

theorem State.Passes.olc {s t : State} (h : s.Passes t) : t.olc = s.olc := by
  rw [h.frame]

theorem State.red_of_accepted (s : State) (n key u : Nat) : (s.accepted n key u).red = s.red := State.accepted_red s n key u

/-! ### Passes of a resynchronisation -/

theorem State.passEnd_resync {s : State} (left : Nat) (hr : s.red.role = .resync) (hw : s.red.finalWait = false) :
    s.passEnd left = if s.finalFits left then s.setRed fun r => { r with pass := r.pass + 1, finalWait := true }
      else if s.ob K.RED_RESYNC_PASSES ≤ s.red.pass + 1 then (s.setRed fun r => { r with pass := 0 }).setRole .unsynced 6
      else s.setRed fun r => { r with pass := r.pass + 1 } := by
  have hd : decide (s.red.role = .resync) = true := decide_eq_true hr
  unfold State.passEnd
  dsimp only
  rw [hd, hw]
  simp only [Bool.not_true, Bool.false_and, Bool.false_eq_true, if_false, if_true]

theorem State.passEnd_active {s : State} (left : Nat) (hr : s.red.role = .active) (hp : s.red.peer = true)
    (hps : s.red.peerSt.role = 3) (hw : s.red.finalWait = false) :
    s.passEnd left = if s.finalFits s.dirtyBlocks.length then s.setRed fun r => { r with pass := r.pass + 1, finalWait := true }
      else if s.ob K.RED_RESYNC_PASSES ≤ s.red.pass + 1 then s.setRed fun r => { r with pass := 0 }
      else (s.passSend (s.red.pass + 1) (s.blockData s.dirtyBlocks)).setRed fun r => { r with pass := r.pass + 1 } := by
  have hd : decide (s.red.role = .resync) = false := by
    rw [hr]
    rfl
  have ha : decide (s.red.role = .active) = true := decide_eq_true hr
  have h3 : decide (s.red.peerSt.role = 3) = true := decide_eq_true hps
  unfold State.passEnd
  dsimp only
  rw [hd, ha, hp, h3, hw]
  simp only [Bool.not_false, Bool.and_true, Bool.not_true, Bool.and_false, Bool.false_eq_true, if_false]

theorem State.toTide_ob (s : State) (st : TideSt) {j : Nat} (hj : j ≠ K.TDS_KEVENTS) : (s.toTide st).ob j = s.ob j := by
  unfold State.toTide
  split
  · rfl
  · unfold State.kevent
    refine (State.ob_of_objs ((State.keeperWake_stays _ (.refl _ _) (List.Subset.refl _)).keeps .objs (by decide)) j).trans ?_
    exact State.ob_setOb_ne _ _ hj

theorem State.joinTide_state (s : State) (n : Nat) : (s.joinTide n).red.role = .standby ∧ (s.joinTide n).tds.st = .running ∧
    (s.joinTide n).ob K.TDS_TIDE64 = n := by
  unfold State.joinTide
  extract_lets u v
  have hu : u.ob K.TDS_TIDE64 = n := by
    unfold u
    rw [State.ob_setOb_ne _ _ (by decide), State.ob_setOb_self]
  have hv : v.objs = u.objs := rfl
  clear_value v u
  have hr : ∀ (w : State) x k, (w.setRole x k).tds = w.tds := fun _ _ _ => rfl
  have ho : ∀ (w : State) x k, (w.setRole x k).objs = w.objs := fun _ _ _ => rfl
  refine ⟨rfl, ?_, ?_⟩
  · rw [hr]
    exact v.toTide_st .running
  · rw [State.ob_of_objs (ho _ _ _)]
    refine Eq.trans ?_ ((v.toTide_ob .running (by decide)).trans ((State.ob_of_objs hv _).trans hu))
    rfl

/-- Settles O37. -/
theorem pairCommands : Obligations.PairCommands := by
  unfold Obligations.PairCommands
  refine ⟨?_, ?_, ?_, ?_, ?_, ?_, ?_, ?_, ?_, ?_⟩
  · intro s n
    refine ⟨?_, ?_, ?_, ?_⟩
    · intro h
      refine completes_of rfl (State.setCmd_red h (by decide)) ?_
      change (State.redLeave _).red.role = _ ∧ (State.redLeave _).red.grant = _ ∧ (State.redLeave _).red.claim = _
      unfold State.redLeave
      extract_lets u
      have hg : u.red.grant = false := by
        unfold u State.when
        split
        · exact Eq.trans (congrArg Prod.fst ((State.sendPark_stays _ (.refl _ _) (List.Subset.refl _)).keeps .grant (by decide))) rfl
        · rfl
      clear_value u
      refine ⟨rfl, hg, ?_⟩
      change (!u.red.stop && ((u.red.grant && !u.red.giving) || (decide (Role.off = .standby) && (!u.red.peer || u.red.taking)) ||
        (decide (Role.off = .joining) && !(u.red.peer && decide (u.red.peerSt.role = 5)) && decide (0 ≠ 1) && decide (0 ≠ 2)))) = false
      rw [hg]
      simp
    · intro h
      refine completes_of rfl (State.setCmd_red h (by decide)) ?_
      exact ⟨rfl, rfl⟩
    · intro h
      refine completes_of rfl (State.setCmd_red h (by decide)) ?_
      have hob := s.accepted_ob n K.RED_CMD 3 K.TDS_TIDE
      generalize s.accepted n K.RED_CMD 3 = u at hob
      rw [← hob]
      exact u.swapStart_red.1
    · intro h
      have hck := h.redCmdCheck (by decide)
      have hcond : ¬ (s.red.role ≠ .active ∨ s.prefMismatch = true) := fun hx => by
        have he : s.redCmdCheck 4 = stSTATE := if_pos hx
        rw [he] at hck
        exact absurd hck (by decide)
      have hrole : s.red.role = .active := by
        by_contra hn
        exact hcond (.inl hn)
      have hpref : s.prefMismatch = false := by
        by_contra hn
        exact hcond (.inr (by simpa using hn))
      have hob := s.accepted_ob n K.RED_CMD 4
      have hred := State.accepted_red s n K.RED_CMD 4
      have holc := s.accepted_olc n K.RED_CMD 4
      have hset := State.setCmd_red h (by decide)
      generalize s.accepted n K.RED_CMD 4 = u at hob hred holc hset
      have hr' : u.red.role = .active := (congrArg Red.role hred).trans hrole
      have hp' : u.prefMismatch = false := (State.prefMismatch_of hred (hob _)).trans hpref
      have hfree := State.swapFree_of hred holc (hob _)
      constructor
      · intro hf
        refine completes_of rfl (hset.trans (State.drill_of_free hr' hp' (hfree.trans hf))) ?_
        rw [← hob]
        exact u.swapStart_red.1
      · intro hf
        refine completes_of rfl hset ?_
        have hd : u.redCmd 4 = (u.setRed fun r => { r with swapWant := true }).incOb K.RED_SWAP_DEFERRED := by
          change u.drill = _
          unfold State.drill
          rw [if_neg (fun hx => hx.elim (fun hn => hn hr') fun ht => by rw [hp'] at ht; exact Bool.false_ne_true ht),
            if_neg (by rw [hfree, hf]; exact Bool.false_ne_true)]
        rw [hd, State.ob_incOb_self]
        refine ⟨rfl, ?_⟩
        rw [← hob]
        rfl
  · intro s left hm hr hw
    have he := State.passEnd_resync left hr hw
    have hx : (if s.moored then s.passEnd left else s) = s.passEnd left := if_pos hm
    refine ⟨?_, ?_, ?_⟩
    · intro hf
      refine completes_of rfl (hx.trans (he.trans (if_pos hf))) ?_
      rfl
    · intro hf hp
      refine completes_of rfl (hx.trans (he.trans ((if_neg (by rw [hf]; exact Bool.false_ne_true)).trans (if_pos hp)))) ?_
      exact ⟨rfl, rfl⟩
    · intro hf hp
      refine completes_of rfl (hx.trans (he.trans ((if_neg (by rw [hf]; exact Bool.false_ne_true)).trans
        (if_neg (by omega))))) ?_
      exact ⟨rfl, hr⟩
  · intro s left hm hr hp hps hw
    have he := State.passEnd_active left hr hp hps hw
    have hx : (if s.moored then s.passEnd left else s) = s.passEnd left := if_pos hm
    constructor
    · intro hf
      refine completes_of rfl (hx.trans (he.trans (if_pos hf))) ?_
      exact ⟨rfl, rfl, hr⟩
    · intro hf hpass
      refine completes_of rfl (hx.trans (he.trans ((if_neg (by rw [hf]; exact Bool.false_ne_true)).trans
        (if_neg (by omega))))) ?_
      unfold State.passSend
      have hsend : s.moorSend (.pass (s.red.pass + 1) (s.blockData s.dirtyBlocks)) =
          s.setRed fun r => { r with msgs := r.msgs ++ [.pass (s.red.pass + 1) (s.blockData s.dirtyBlocks)] } := if_pos hm
      rw [hsend]
      exact ⟨rfl, hw, rfl, hr⟩
  · intro s b data hm hr hs
    refine completes_of rfl (if_pos hm) ?_
    intro a
    unfold State.resyncData
    rw [if_neg (fun hn => hn hr)]
    dsimp only
    rw [if_pos hs, State.byte_putBytes, length_slice]
    split
    next h => rw [getD_slice _ (by omega)]
    · rfl
  · intro s n hm hr hw hsv
    refine completes_of rfl (if_pos hm) ?_
    have he : s.resyncData (.tide n) = s.joinTide n := (if_neg (fun hn => hn hr)).trans (if_pos ⟨hw, hsv⟩)
    rw [he]
    exact s.joinTide_state n
  · intro s tide hm hr
    refine completes_of rfl (if_pos hm) ?_
    unfold State.swapToken
    rw [if_pos hr]
    rfl
  · intro s hg
    have hp := State.passes_reach s (s.phaseAt K.TDS_SLACK_PT + 20000)
    obtain ⟨u, hu⟩ : ∃ u, u = s.reach (s.phaseAt K.TDS_SLACK_PT + 20000) := ⟨_, rfl⟩
    have hx : (if s.red.giving || s.red.taking || s.red.swapDue then (s.reach (s.phaseAt K.TDS_SLACK_PT + 20000)).switchoverDecide
        else s) = u.switchoverDecide := (if_pos (by rw [hg]; rfl)).trans (by rw [hu])
    rw [← hu] at hp
    have hred := hp.red
    have hc : (u.red.giving || u.red.swapDue) = true := by rw [hred, hg]; rfl
    constructor
    · intro hgr hr
      refine completes_of rfl hx ?_
      have he : u.switchoverDecide = ((u.setRed fun r => { r with giving := false, swapDue := false, swap := none }).setRole
          .standby 0).incOb K.RED_SWITCHOVERS := by
        unfold State.switchoverDecide
        rw [if_pos hc, if_neg (by rw [hred, hgr]; exact Bool.false_ne_true)]
        exact congrArg (fun v : State => v.incOb K.RED_SWITCHOVERS) (if_pos ((congrArg Red.role hred).trans hr))
      rw [he, State.ob_incOb_self]
      refine ⟨rfl, rfl, rfl, ?_⟩
      rw [← hp.objects _ (by decide)]
      rfl
    · intro hgr
      refine completes_of rfl hx ?_
      have he : u.switchoverDecide = ((u.setRed fun r =>
          { r with giving := false, swapDue := false, swap := none, mute := none, reason := 9 }).incOb K.RED_SWAP_FAILS).reclaim := by
        unfold State.switchoverDecide
        rw [if_pos hc, if_pos (by rw [hred, hgr])]
      rw [he]
      have hrole := congrArg Red.role hred
      refine ⟨rfl, hrole, ?_⟩
      have ho : ∀ w : State, w.reclaim.objs = w.objs := fun _ => rfl
      rw [State.ob_of_objs (ho _), State.ob_incOb_self, ← hp.objects _ (by decide)]
      rfl
  · intro s e hin hd hr hpref hf
    refine completes_of rfl (if_pos hin) ?_
    unfold State.drillDue
    rw [hd]
    dsimp only
    have hp := State.passes_reachMono s e
    generalize s.reachMono e = u at hp
    have hred := hp.red
    have hu : u.drillArm.drill = u.drillArm.swapStart := by
      refine State.drill_of_free ((congrArg Red.role hred).trans hr) ?_ ?_
      · exact (State.prefMismatch_of hred (hp.objects _ (by decide))).trans hpref
      · exact (State.swapFree_of hred hp.olc (hp.objects _ (by decide))).trans hf
    rw [hu]
    obtain ⟨h1, -, h3, h4⟩ := u.drillArm.swapStart_red
    have ho : u.drillArm.objs = u.objs := rfl
    rw [h1, h3, h4, State.ob_of_objs ho, hp.objects _ (by decide)]
    refine ⟨rfl, fun hi => ?_⟩
    have hint : u.ob K.RED_DRILL_INTERVAL = s.ob K.RED_DRILL_INTERVAL := hp.objects _ (by decide)
    unfold State.drillArm
    rw [hint, if_neg hi]
    rfl
  · intro s hr
    have hin : s.inPair = true := by
      unfold State.inPair
      rw [hr]
      rfl
    refine completes_of rfl (if_pos hin) ?_
    unfold State.holdoffEnd
    split
    · assumption
    next t ht =>
      have hred := (State.passes_reachMono s t).red
      generalize s.reachMono t = u at hred
      dsimp only
      have hrole := (congrArg Red.role hred).trans hr
      rw [if_neg]
      · rfl
      · exact fun ha => absurd (ha.symm.trans hrole) (by decide)
  · intro s e he hr hpref hf
    have hin : s.inPair = true := by
      unfold State.inPair
      rw [hr]
      rfl
    refine completes_of rfl (if_pos hin) ?_
    unfold State.holdoffEnd
    rw [he]
    dsimp only
    have hp := State.passes_reachMono s e
    generalize s.reachMono e = u at hp
    have hred := hp.red
    have hrole := (congrArg Red.role hred).trans hr
    have hact : (u.setRed fun r => { r with holdoff := none }).red.role = .active := hrole
    have hu : (u.setRed fun r => { r with holdoff := none }).drill = (u.setRed fun r => { r with holdoff := none }).swapStart := by
      have hpref' := (State.prefMismatch_of hred (hp.objects _ (by decide))).trans hpref
      have hfree' := (State.swapFree_of hred hp.olc (hp.objects _ (by decide))).trans hf
      exact State.drill_of_free hact hpref' hfree'
    rw [if_pos hact, hu]
    obtain ⟨h1, h2, -, -⟩ := (u.setRed fun r => { r with holdoff := none }).swapStart_red
    rw [h1, h2, ← hp.objects K.TDS_TIDE (by decide)]
    exact ⟨rfl, rfl⟩

end Sys2Proof.Machine
end


section
/-! PROOF. Inputs of Breakwater, their log and configuration (R364 to R372, R381). -/

namespace Sys2Proof.Machine

/-! ### Maps filled key by key -/

theorem mget_foldl_mput_of_notMem {α : Type} [DecidableEq α] (d : Nat → α) (g : SMap α → Nat → α) {k : Nat} {l : List Nat} (hk : k ∉ l)
    (m : SMap α) : mget d (l.foldl (fun m n => mput d m n (g m n)) m) k = mget d m k := by
  induction l generalizing m with
  | nil => rfl
  | cons a l ih =>
    rw [List.foldl_cons, ih (fun h => hk (List.mem_cons_of_mem _ h)),
      mget_mput_ne _ _ _ _ (fun h => hk (by rw [h]; exact List.mem_cons_self))]

theorem mget_foldl_mput_of_mem {α : Type} [DecidableEq α] (d : Nat → α) {g : SMap α → Nat → α} {k : Nat} {v : α} (hg : ∀ m, g m k = v)
    {l : List Nat} (hk : k ∈ l) (m : SMap α) : mget d (l.foldl (fun m n => mput d m n (g m n)) m) k = v := by
  induction l generalizing m with
  | nil => exact absurd hk List.not_mem_nil
  | cons a l ih =>
    rw [List.foldl_cons]
    by_cases h : k ∈ l
    · exact ih h _
    · have ha : k = a := (List.mem_cons.1 hk).resolve_right h
      subst ha
      rw [mget_foldl_mput_of_notMem d g h, mget_mput_self, hg]

/-! ### What reports leave -/

/-- The supplies, states, commands and levels that a report does not change. -/
structure State.SameSignals (s t : State) : Prop where
  la : t.fio.la = s.fio.la
  lb : t.fio.lb = s.fio.lb
  fstate : t.fio.fstate = s.fio.fstate
  cmd : t.fio.cmd = s.fio.cmd
  raw : t.fio.raw = s.fio.raw
  limit : t.fio.limit = s.fio.limit
  volt : t.fio.volt = s.fio.volt
  limitAt : t.fio.limitAt = s.fio.limitAt

theorem State.SameSignals.refl (s : State) : s.SameSignals s := ⟨rfl, rfl, rfl, rfl, rfl, rfl, rfl, rfl⟩

theorem State.SameSignals.trans {s t u : State} (h : s.SameSignals t) (k : t.SameSignals u) : s.SameSignals u :=
  ⟨k.la.trans h.la, k.lb.trans h.lb, k.fstate.trans h.fstate, k.cmd.trans h.cmd, k.raw.trans h.raw, k.limit.trans h.limit,
    k.volt.trans h.volt, k.limitAt.trans h.limitAt⟩

theorem State.sameSignals_of_fio {s t : State} (h : t.fio = s.fio) : s.SameSignals t := by
  constructor <;> rw [h]

theorem State.sameSignals_when {s t : State} (h : s.SameSignals t) (c : Bool) {f : State → State}
    (hf : ∀ u : State, u.SameSignals (f u)) : s.SameSignals (t.when c f) := by
  unfold State.when
  split
  · exact h.trans (hf t)
  · exact h

theorem State.sameSignals_each {α : Type} {s t : State} (h : s.SameSignals t) (l : List α) {f : State → α → State}
    (hf : ∀ u a, State.SameSignals u (f u a)) : s.SameSignals (t.each l f) :=
  State.each_induct (fun u => s.SameSignals u) h fun u a _ hu => hu.trans (hf u a)

theorem State.fio_raise (s : State) (cls key src root detail extra : Nat) : (s.raise cls key src root detail extra).fio = s.fio := rfl

theorem State.takeReport_same (s : State) : s.SameSignals s.takeReport := by
  unfold State.takeReport
  extract_lets was now u v w x
  have hu : s.SameSignals u := ⟨rfl, rfl, rfl, rfl, rfl, rfl, rfl, rfl⟩
  have hv : s.SameSignals v := State.sameSignals_when hu _ fun _ => State.sameSignals_of_fio rfl
  have hw : s.SameSignals w := State.sameSignals_when hv _ fun _ => State.sameSignals_of_fio rfl
  have hx : s.SameSignals x := State.sameSignals_each hw _ fun y n => ?_
  · refine State.sameSignals_each hx _ fun y e => ?_
    exact State.sameSignals_of_fio rfl
  · exact State.sameSignals_of_fio rfl

theorem State.judge_same (s : State) (a b : Bool) (n : Nat) : s.SameSignals (s.judge a b n) := by
  unfold State.judge
  split
  · exact .refl s
  · extract_lets on
    split
    extract_lets u v
    have hu : s.SameSignals u := ⟨rfl, rfl, rfl, rfl, rfl, rfl, rfl, rfl⟩
    have hv : s.SameSignals v := State.sameSignals_when hu _ fun _ => State.sameSignals_of_fio rfl
    refine State.sameSignals_when hv _ fun x => ?_
    dsimp only
    split
    · exact State.sameSignals_of_fio rfl
    · exact State.sameSignals_of_fio rfl

theorem State.couplerCheck_same (s : State) (out : Bool) (n : Nat) (bad : Bool) : s.SameSignals (s.couplerCheck out n bad) := by
  unfold State.couplerCheck
  extract_lets m c c' m' k u
  have hu : s.SameSignals u := ⟨rfl, rfl, rfl, rfl, rfl, rfl, rfl, rfl⟩
  exact State.sameSignals_when hu _ fun _ => State.sameSignals_of_fio rfl

/-- What a C1 report says of levels, limits and voltages is taken as it stands. -/
theorem State.c1_signals (s : State) (r : Sys2Proof.C1) (a b : Bool) : (s.c1 r a b).fio.raw = r.couplerIn % 65536 ∧
    (s.c1 r a b).fio.limit = r.limit % 65536 ∧
    (s.c1 r a b).fio.volt = (List.range 16).foldl (fun m n => mput (fun _ => 0) m n (r.volt.getD n 0)) [] ∧
    (s.c1 r a b).fio.limitAt = s.fio.limitAt := by
  unfold State.c1
  extract_lets u v w x
  have hu : s.SameSignals u := State.sameSignals_when (.refl s) _ fun _ => ⟨rfl, rfl, rfl, rfl, rfl, rfl, rfl, rfl⟩
  have hv : s.SameSignals v := State.sameSignals_each hu _ fun _ _ => State.couplerCheck_same _ _ _ _
  have hw : s.SameSignals w := State.sameSignals_each hv _ fun _ _ => State.couplerCheck_same _ _ _ _
  have hx : x.fio.raw = r.couplerIn % 65536 ∧ x.fio.limit = r.limit % 65536 ∧
    x.fio.volt = (List.range 16).foldl (fun m n => mput (fun _ => 0) m n (r.volt.getD n 0)) [] ∧
    x.fio.limitAt = w.fio.limitAt := by
    simp only [x, State.setFio, and_self]
  clear_value u v w x
  have hy := State.sameSignals_each x.takeReport_same (List.range 16) fun y n => y.judge_same a b n
  obtain ⟨h1, h2, h3, h4⟩ := hx
  exact ⟨hy.raw.trans h1, hy.limit.trans h2, hy.volt.trans h3, hy.limitAt.trans (h4.trans hw.limitAt)⟩

/-! ### Accepted edges -/

theorem State.passes_reachUs (s : State) (u : Nat) : s.Passes (s.reachUs u) := by
  unfold State.reachUs
  split
  · exact State.passes_reach _ _
  · exact .refl s

theorem State.Passes.fio {s t : State} (h : s.Passes t) : t.fio = s.fio := by
  rw [h.frame]

/-- The log of edges after one more. -/
theorem State.logEdge_log (s : State) {n : Nat} (hn : n < 16) (up : Bool) (stamp : Nat) :
    (s.fio.log.length < 128 → (s.logEdge n up stamp).fio.log = s.fio.log ++ [(stamp, n, up)]) ∧
    (128 ≤ s.fio.log.length → (s.logEdge n up stamp).fio.log = s.fio.log ∧
      (s.logEdge n up stamp).ob K.FIO_EDGE_DROPS = (s.ob K.FIO_EDGE_DROPS + 1) % 2 ^ 64) ∧
    (s.logEdge n up stamp).fio.filt = s.fio.filt ∧ (s.logEdge n up stamp).fio.rise = s.fio.rise ∧
      (s.logEdge n up stamp).fio.fall = s.fio.fall := by
  have hk : K.FIO_EDGE_DROPS ≠ if up then K.FIO_LAST_RISE (n + 1) else K.FIO_LAST_FALL (n + 1) := by
    unfold K.FIO_EDGE_DROPS K.FIO_LAST_RISE K.FIO_LAST_FALL
    split <;> omega
  unfold State.logEdge
  extract_lets u
  have hu : u.fio = s.fio := rfl
  have ho : u.ob K.FIO_EDGE_DROPS = s.ob K.FIO_EDGE_DROPS := State.ob_setOb_ne _ _ hk
  clear_value u
  rw [← hu]
  split
  next h =>
    refine ⟨fun hl => absurd hl (by omega), fun _ => ⟨rfl, ?_⟩, rfl, rfl, rfl⟩
    rw [State.ob_incOb_self, ho]
  next h => exact ⟨fun _ => rfl, fun hl => absurd hl h, rfl, rfl, rfl⟩

/-- An edge that is accepted. -/
theorem State.edgeAccept_fio {s : State} {n stamp : Nat} {up : Bool} (hl : s.logicRuns = true) (hf : s.fieldRuns = true) (hn : n < 16)
    (hb : s.fio.filt.testBit n ≠ up) (hr : s.runHolds n up stamp = true) :
    (s.edgeAccept n up stamp).fio.filt = putBit s.fio.filt n up ∧
    (s.edgeAccept n up stamp).fio.rise = (if up then putBit s.fio.rise n true else s.fio.rise) ∧
    (s.edgeAccept n up stamp).fio.fall = (if up then s.fio.fall else putBit s.fio.fall n true) ∧
    (s.red.role ≠ .standby → s.fio.log.length < 128 → (s.edgeAccept n up stamp).fio.log = s.fio.log ++ [(stamp, n, up)]) ∧
    (s.red.role ≠ .standby → 128 ≤ s.fio.log.length → (s.edgeAccept n up stamp).fio.log = s.fio.log ∧
      (s.edgeAccept n up stamp).ob K.FIO_EDGE_DROPS = (s.ob K.FIO_EDGE_DROPS + 1) % 2 ^ 64) := by
  have hbit : (bit s.fio.filt n != up) = true := by
    rw [bne_iff_ne]
    exact hb
  unfold State.edgeAccept
  rw [if_pos (by rw [hl, hf, decide_eq_true hn, hbit, hr]; rfl)]
  extract_lets last u v
  have hp := s.passes_reachUs last
  have hu : u.fio.filt = putBit s.fio.filt n up ∧ u.fio.rise = (if up then putBit s.fio.rise n true else s.fio.rise) ∧
      u.fio.fall = (if up then s.fio.fall else putBit s.fio.fall n true) ∧ u.fio.log = s.fio.log := by
    rw [← hp.fio]
    exact ⟨rfl, rfl, rfl, rfl⟩
  have huo : u.ob K.FIO_EDGE_DROPS = s.ob K.FIO_EDGE_DROPS := Eq.trans rfl (hp.objects _ (by decide))
  have hur : u.red = s.red := Eq.trans rfl hp.red
  clear_value u
  have hfire : (v.when (s.edgeSel n up) fun s => s.fire 1 n).Stays [.tds, .own] v := by
    unfold State.when
    exact ite_stays (State.fire_stays v 1 n (.refl v _) (List.Subset.refl _)) (.refl v _)
  have hwhen : ∀ c, (v.when c fun s => s.fire 1 n).Stays [.tds, .own] v := fun c => by
    unfold State.when
    exact ite_stays (State.fire_stays v 1 n (.refl v _) (List.Subset.refl _)) (.refl v _)
  rw [(hwhen _).keeps .fio (by decide), State.ob_of_objs ((hwhen _).keeps .objs (by decide))]
  obtain ⟨h1, h2, h3, h4⟩ := hu
  have hlog := u.logEdge_log hn up stamp
  have hd : ∀ x, ((u.logEdge n up stamp).dictate x).fio = (u.logEdge n up stamp).fio ∧
      ((u.logEdge n up stamp).dictate x).objs = (u.logEdge n up stamp).objs := fun x => by
    have hst := State.dictate_stays _ x (.refl (u.logEdge n up stamp) _) (List.Subset.refl _)
    exact ⟨hst.keeps .fio (by decide), hst.keeps .objs (by decide)⟩
  obtain ⟨l1, l2, l3, l4, l5⟩ := hlog
  by_cases hrole : u.red.role = .standby
  · have hv : v = u := if_pos hrole
    rw [hv]
    rw [hur] at hrole
    exact ⟨h1, h2, h3, fun hn => absurd hrole hn, fun hn => absurd hrole hn⟩
  · have hv : v = (u.logEdge n up stamp).dictate (.edge n up stamp) := if_neg hrole
    rw [hv, (hd _).1, State.ob_of_objs (hd _).2]
    rw [h4] at l1 l2
    exact ⟨l3.trans h1, l4.trans h2, l5.trans h3, fun _ hl => l1 hl, fun _ hl => ⟨(l2 hl).1, (l2 hl).2.trans (by rw [huo])⟩⟩

/-! ### Supplies and configuration -/

/-- The field side as the loss of both supplies leaves it, with the report that then falls due. -/
theorem State.unpowered_signals (s : State) (f : Fio → Fio) (hf : (f s.fio).fstate = 3 ∧ (f s.fio).cmd = 0 ∧
    (f s.fio).la = s.fio.la ∧ (f s.fio).lb = s.fio.lb) :
    ((s.setFio f).when (s.domOn dFL) State.takeReport).fio.fstate = 3 ∧
    ((s.setFio f).when (s.domOn dFL) State.takeReport).fio.cmd = 0 ∧
    ((s.setFio f).when (s.domOn dFL) State.takeReport).fio.la = s.fio.la ∧
    ((s.setFio f).when (s.domOn dFL) State.takeReport).fio.lb = s.fio.lb := by
  have h := State.sameSignals_when (.refl (s.setFio f)) (s.domOn dFL) State.takeReport_same
  obtain ⟨h1, h2, h3, h4⟩ := hf
  exact ⟨h.fstate.trans h1, h.cmd.trans h2, h.la.trans h3, h.lb.trans h4⟩

/-- What a change of one supply does once the supplies have their new levels. -/
def State.supplySettle (s : State) : State :=
  if !s.fio.la && !s.fio.lb then
    let s := s.setFio fun f => { f with
      fstate := 3, fieldCfg := [], cfgPend := [], cmd := 0, recovered := false, limit := 0, thermal := 0, off := 0, offSeen0 := 0,
      settle := [], wb := 0, ext := 0, volt := [], raw := 0, filt := 0, c0 := [], limitAt := [], offAt := [], upNew := false,
      safeDue := 0, ovlDue := [] }
    s.when (s.domOn dFL) State.takeReport
  else if s.fio.fstate = 3 then
    (s.setFio fun f => { f with fstate := 0, cmd := 0, upNew := true }).runsAnew (List.range 16)
  else s

theorem State.supplyChange_eq (s : State) (g : Nat) (b : Bool) :
    s.supplyChange g b = if (if g = 0 then s.fio.la else s.fio.lb) = b then s
      else (s.setFio fun f => if g = 0 then { f with la := b } else { f with lb := b }).supplySettle := rfl

theorem State.supplySettle_signals (s : State) : s.supplySettle.fio.la = s.fio.la ∧ s.supplySettle.fio.lb = s.fio.lb ∧
    (s.fio.la = false → s.fio.lb = false → s.supplySettle.fio.fstate = 3 ∧ s.supplySettle.fio.cmd = 0) := by
  unfold State.supplySettle
  split
  next h =>
    obtain ⟨h1, h2, h3, h4⟩ := s.unpowered_signals (fun f => { f with
      fstate := 3, fieldCfg := [], cfgPend := [], cmd := 0, recovered := false, limit := 0, thermal := 0, off := 0, offSeen0 := 0,
      settle := [], wb := 0, ext := 0, volt := [], raw := 0, filt := 0, c0 := [], limitAt := [], offAt := [], upNew := false,
      safeDue := 0, ovlDue := [] }) ⟨rfl, rfl, rfl, rfl⟩
    exact ⟨h3, h4, fun _ _ => ⟨h1, h2⟩⟩
  next h =>
    have hn : s.fio.la = false → s.fio.lb = false → False := fun ha hb => h (by rw [ha, hb]; rfl)
    split
    · exact ⟨rfl, rfl, fun ha hb => (hn ha hb).elim⟩
    · exact ⟨rfl, rfl, fun ha hb => (hn ha hb).elim⟩

/-- A configuration item that the field side takes. -/
theorem State.fieldConfig_item {s : State} {i v : Nat} (hf : s.fio.fstate ≠ 3) (hi : i ≠ 5) :
    (s.fieldConfig i v).fieldItem i = some v ∧ (v = s.ob (fioItemKey i) → i ∉ (s.fieldConfig i v).fio.cfgPend) ∧
      ∀ j, j ≠ i → (s.fieldConfig i v).fieldItem j = s.fieldItem j := by
  unfold State.fieldConfig
  rw [if_neg hf, if_neg hi]
  refine ⟨?_, fun hv hm => ?_, fun j hj => ?_⟩
  · unfold State.fieldItem
    dsimp only [State.setFio]
    rw [mget_mput_self]
  · dsimp only [State.setFio] at hm
    rw [if_pos hv, List.mem_filter] at hm
    simp at hm
  · unfold State.fieldItem
    dsimp only [State.setFio]
    rw [mget_mput_ne _ _ _ _ hj]

/-! ### Reads of domains -/

/-- The value of DIC.DOM_OPEN that opens a read transfer of an object. -/
@[reducible] def openRead (key : Nat) : Nat := key / 256 * 2 ^ 32 + key % 256 * 2 ^ 24 + 2 ^ 16

/-- DIC.DOM_OPEN has no reserved bit where it opens a read of the object, and names it. -/
structure OpensRead (key : Nat) : Prop where
  value : (objRow K.DIC_DOM_OPEN).map (·.value (openRead key)) = some (openRead key)
  names : domKey (openRead key) = key
  reads : domDir (openRead key) = 1

/-- A read transfer that opens holds what the object's capture gives. -/
theorem State.openDomain_of_opens {s : State} {n key : Nat} (h : Opens s n key) (hk : OpensRead key) :
    s.openDomain n key = ((s.setResult n K.DIC_DOM_OPEN stOK rNONE 0).domCapture n key).1.modSes n fun x => { x with dom := some {
      key := key
      write := false
      cap := ((s.setResult n K.DIC_DOM_OPEN stOK rNONE 0).domCapture n key).2
      wr := [] } } := by
  obtain ⟨hv, hn, hd⟩ := hk
  have hu : s.valueOf K.DIC_DOM_OPEN (openRead key) = openRead key := State.value_of_writeCheck h.passes hv
  have hw : decide (domDir (openRead key) = 2) = false := decide_eq_false (by rw [hd]; decide)
  have ho : (s.domCheck n (domKey (openRead key)) (decide (domDir (openRead key) = 2))).1 = stOK := by
    rw [hn, hw]
    exact h.allowed
  change s.setCmd n K.DIC_DOM_OPEN (openRead key) = _
  rw [State.setCmd_domOpen h.served h.passes, hu, State.domOpen_eq ho (.inl hd), hn, hw]
  rfl

theorem opensRead_edgeLog : OpensRead K.FIO_EDGE_LOG := ⟨by decide, by decide, by decide⟩

/-- Settles O38. -/
theorem fieldInputs : Obligations.FieldInputs := by
  unfold Obligations.FieldInputs
  refine ⟨?_, ?_, ?_, ?_, ?_, ?_⟩
  · intro s n up stamp hl hf hn hb hr
    refine completes_of rfl rfl ?_
    obtain ⟨h1, h2, h3, h4, h5⟩ := State.edgeAccept_fio hl hf hn hb hr
    refine ⟨?_, fun m hm => ?_, ?_, h4, h5⟩
    · rw [h1, testBit_putBit_self]
    · rw [h1, testBit_putBit_ne _ _ hm]
    · rw [h2, h3]
      cases up
      · exact testBit_putBit_self _ _ _
      · exact testBit_putBit_self _ _ _
  · intro s r hl hf hlk
    have hif : (if s.fieldRuns then (let s := s.limitSince r
        if s.logicRuns && s.linkUp 7 then s.c1 r s.wiredStandby s.wiredStandby else s) else s) =
        (s.limitSince r).c1 r (s.limitSince r).wiredStandby (s.limitSince r).wiredStandby := by
      rw [if_pos hf]
      have hc : ((s.limitSince r).logicRuns && (s.limitSince r).linkUp 7) = true := by
        change (s.logicRuns && s.linkUp 7) = true
        rw [hl, hlk]
        rfl
      exact if_pos hc
    refine completes_of rfl hif ?_
    obtain ⟨h1, h2, h3, h4⟩ := (s.limitSince r).c1_signals r (s.limitSince r).wiredStandby (s.limitSince r).wiredStandby
    refine ⟨h1, h2, fun n hn => ⟨?_, fun hb => ?_⟩⟩
    · rw [h3]
      exact mget_foldl_mput_of_mem (fun _ => 0) (g := fun _ n => r.volt.getD n 0) (fun _ => rfl) (List.mem_range.2 hn) []
    · rw [h4]
      refine mget_foldl_mput_of_mem (fun _ => 0) (g := fun m n => if !bit r.limit n then 0
        else if mget (fun _ => 0) m n = 0 then s.ntm.mono + 1 else mget (fun _ => 0) m n) (fun m => ?_) (List.mem_range.2 hn) _
      have hbit : bit r.limit n = false := hb
      rw [hbit]
      rfl
  · intro s n hf
    refine completes_of rfl (if_pos hf) ?_
    have hle := s.le_mono_reachMono (mget (fun _ => 0) s.fio.settle n)
    have hfio := (s.passes_reachMono (mget (fun _ => 0) s.fio.settle n)).fio
    generalize s.reachMono _ = u at hle hfio
    rw [← hfio] at hle ⊢
    exact ⟨mget_mput_self (fun _ => 0) u.fio.settle n 0, hle, fun m hm => mget_mput_ne (fun _ => 0) u.fio.settle n 0 hm⟩
  · intro s b hf
    constructor
    · refine completes_of rfl (if_pos (by rw [hf]; rfl)) ?_
      have hwas : (if 0 = 0 then s.fio.la else s.fio.lb) = s.fio.la := if_pos rfl
      rw [State.supplyChange_eq, hwas]
      split
      next h => exact ⟨h, rfl, fun ha hb _ => absurd (ha.symm.trans (h.trans hb)) (by decide)⟩
      next h =>
        obtain ⟨h1, h2, h3⟩ := (s.setFio fun f => if 0 = 0 then { f with la := b } else { f with lb := b }).supplySettle_signals
        exact ⟨h1, h2, fun _ hb hlb => h3 hb hlb⟩
    · refine completes_of rfl (if_pos (by rw [hf]; rfl)) ?_
      have hwas : (if 1 = 0 then s.fio.la else s.fio.lb) = s.fio.lb := if_neg (by decide)
      rw [State.supplyChange_eq, hwas]
      split
      next h => exact ⟨h, rfl, fun ha hb _ => absurd (ha.symm.trans (h.trans hb)) (by decide)⟩
      next h =>
        obtain ⟨h1, h2, h3⟩ := (s.setFio fun f => if 1 = 0 then { f with la := b } else { f with lb := b }).supplySettle_signals
        exact ⟨h2, h1, fun _ hb hla => h3 hla hb⟩
  · intro s i v hf hi
    have hst : s.fio.fstate ≠ 3 := by
      unfold State.fieldRuns at hf
      rw [Bool.and_eq_true, decide_eq_true_eq] at hf
      exact hf.2
    refine completes_of rfl (if_pos (by rw [hf]; simpa using hi)) ?_
    split
    next h =>
      subst h
      unfold State.fieldConfig
      rw [if_neg hst, if_pos rfl]
      refine ⟨rfl, fun hm => ?_, rfl⟩
      dsimp only [State.setFio] at hm
      rw [List.mem_filter] at hm
      simp at hm
    next h => exact State.fieldConfig_item hst h
  · intro s n h
    refine completes_of rfl (State.openDomain_of_opens h opensRead_edgeLog) ?_
    have hcap : ∀ u : State, u.domCapture n K.FIO_EDGE_LOG = (u.setFio fun f => { f with log := [] }, some (u.fio.log.map edgeBytes).flatten) :=
      fun u => rfl
    rw [hcap, State.ses_modSes_self]
    exact ⟨rfl, _, rfl, rfl⟩

end Sys2Proof.Machine
end


section
/-! PROOF. Outputs of Breakwater: refuted, since the channel of a switch-off to be reported is not bounded there. -/

namespace Sys2Proof.Machine

/-- A C1 report that measures 10 V on channel 0 and reports nothing else. -/
def tenVolts : Sys2Proof.C1 :=
  { couplerIn := 0
    rawIn := 0
    outSeen := 0
    limit := 0
    volt := [10000] }

/-- The field side in RUN with a switch-off of a channel 512 to report. -/
def pastOutputs : State := Sys2Proof.Tests.field 1 fun f => { f with ovlDue := [(512, 1)] }

/-- FIO.OVL_COUNT of channel 513 would have the number of FIO.EXT_COUNT of channel 1. -/
theorem ovlCount_pastOutputs : K.FIO_OVL_COUNT (512 + 1) = K.FIO_EXT_COUNT 1 := by decide

theorem ovlCount_twice : ((pastOutputs.limitSince tenVolts).c1 tenVolts (pastOutputs.limitSince tenVolts).wiredStandby
    (pastOutputs.limitSince tenVolts).wiredStandby).ob (K.FIO_OVL_COUNT (512 + 1)) = 2 := by decide +kernel

/-- Refutes O39: a switch-off of channel 512 that waits for its report is counted at the object that channel 0's external
voltage is counted at, so that one C1 report counts there twice. -/
theorem not_fieldOutputs : ¬ Obligations.FieldOutputs := by
  unfold Obligations.FieldOutputs
  rintro ⟨-, -, -, hcount, -⟩
  obtain ⟨t, ht, -, hob⟩ := hcount pastOutputs tenVolts 512 1 (by decide +kernel) (by decide +kernel) (by decide +kernel) rfl rfl
  have hexec : exec (.c1Status tenVolts) pastOutputs = .next ((pastOutputs.limitSince tenVolts).c1 tenVolts
      (pastOutputs.limitSince tenVolts).wiredStandby (pastOutputs.limitSince tenVolts).wiredStandby) := by
    refine congrArg Host.Outcome.next ((if_pos ?_).trans (if_pos ?_))
    · decide +kernel
    · decide +kernel
  have he : t = (pastOutputs.limitSince tenVolts).c1 tenVolts (pastOutputs.limitSince tenVolts).wiredStandby
      (pastOutputs.limitSince tenVolts).wiredStandby := Host.Outcome.next.inj (ht.symm.trans hexec)
  have hzero : pastOutputs.ob (K.FIO_OVL_COUNT (512 + 1)) = 0 := by decide +kernel
  rw [he, ovlCount_twice, hzero] at hob
  exact absurd hob (by decide)

end Sys2Proof.Machine
end


section
/-! SUPPORT. The message bus controllers: writes of their commands, their buffers, and their completions. -/

namespace Sys2Proof.Machine

/-! ### Commands -/

theorem stopsTide_of_index {key i : Nat} (hk : key / 256 = i)
    (hi : i ≠ 0x2000 ∧ i ≠ 0x2107 ∧ i ≠ 0x5002 ∧ i ≠ 0x1300 ∧ i ≠ 0x3201) : stopsTide key = false := by
  obtain ⟨h1, h2, h3, h4, h5⟩ := hi
  have hne : ∀ c j, c / 256 = j → i ≠ j → key ≠ c := fun c j hc hj he => hj (by rw [← hk, he, hc])
  unfold stopsTide
  rw [hk, decide_eq_false (hne K.TDS_CMD _ (by decide) h1), decide_eq_false h2, decide_eq_false h3,
    decide_eq_false (hne K.STR_CMD _ (by decide) h4), decide_eq_false (hne K.NTM_LOCK _ (by decide) h5)]
  rfl

/-- A command of a message bus controller, taken. -/
theorem State.setCmd_bus {s : State} {n key v k i : Nat} (h : Takes s n key v) (hk : key / 256 = i) (hs : key % 256 = k + 1)
    (hi : i = 0x3801 ∨ i = 0x380A ∨ i = 0x3823 ∨ i = 0x3824) (hv : (objRow key).map (·.value v) = some v) :
    s.setCmd n key v = (s.accepted n key v).applyMbc i k key v := by
  have hu : s.valueOf key v = v := h.value_eq hv
  have hp : plainIndex i = true := by
    obtain rfl | rfl | rfl | rfl := hi <;> decide
  have h38 : i / 256 = 0x38 := by omega
  rw [State.setCmd_of_index_plain h hk hp (by omega) hu (stopsTide_of_index hk (by omega))]
  unfold State.applyOb
  simp only [hk, hs, h38]
  rfl

theorem mbcCmd_value : ∀ k < 4, ∀ v < 5, (objRow (K.MBC_CMD (k + 1))).map (·.value v) = some v := by decide

theorem rdPop_value : ∀ k < 4, ∀ v < 0x22, (objRow (K.MBC_RD_POP (k + 1))).map (·.value v) = some v := by decide

theorem txReq_value : ∀ k < 4, ∀ v < 8, (objRow (K.MBC_TX_REQ (k + 1))).map (·.value v) = some v := by decide

theorem txCancel_value : ∀ k < 4, ∀ v < 8, (objRow (K.MBC_TX_CANCEL (k + 1))).map (·.value v) = some v := by decide

/-! ### Controllers of the state -/

theorem State.mb_modMb (s : State) (k : Nat) (f : Mbc → Mbc) : (s.modMb k f).mb k = f (s.mb k) := mget_mput_self _ _ _ _

theorem State.mb_of_mbc {s t : State} (h : t.mbc = s.mbc) (k : Nat) : t.mb k = s.mb k := by
  unfold State.mb
  rw [h]

theorem State.mb_of_stays {s t : State} {fs : List Field} (h : t.Stays fs s) (hf : Field.mbc ∉ fs) (k : Nat) : t.mb k = s.mb k :=
  State.mb_of_mbc (h.keeps .mbc hf) k

theorem State.accepted_mb (s : State) (n key u k : Nat) : (s.accepted n key u).mb k = s.mb k :=
  State.mb_of_stays (s.accepted_stays' n key u) (by decide) k

/-! ### Buffers -/

theorem Mbc.buf_setBuf (m : Mbc) (b : Nat) (x : TxBuf) (c : Nat) : (m.setBuf b x).buf c = if c = b then x else m.buf c :=
  mget_mput _ _ _ _ _

theorem mget_filter {α : Type} (d : Nat → α) (p : Nat → Bool) {k : Nat} (hk : p k = true) (m : SMap α) :
    mget d (m.filter fun e => p e.1) k = mget d m k := by
  induction m with
  | nil => rfl
  | cons e t ih =>
    obtain ⟨j, v⟩ := e
    rw [List.filter_cons]
    by_cases hj : j = k
    · subst hj
      rw [if_pos hk]
      unfold mget
      rw [if_pos rfl, if_pos rfl]
    · have hr : mget d ((j, v) :: t) k = mget d t k := if_neg hj
      rw [hr]
      split
      · exact (if_neg hj).trans ih
      · exact ih

/-- Buffers set one by one, each from what it held: a step that F describes, as long as Q holds. -/
theorem Mbc.buf_foldl {g : Mbc → Nat → Mbc} {F : Nat → TxBuf → TxBuf} (Q : Mbc → Prop)
    (hg : ∀ m b, Q m → Q (g m b) ∧ ∀ c, (g m b).buf c = if c = b then F b (m.buf b) else m.buf c) {l : List Nat} (hl : l.Nodup)
    {m : Mbc} (hm : Q m) (c : Nat) : Q (l.foldl g m) ∧ (l.foldl g m).buf c = if c ∈ l then F c (m.buf c) else m.buf c := by
  induction l generalizing m with
  | nil => exact ⟨hm, rfl⟩
  | cons b l ih =>
    obtain ⟨hb, hnd⟩ := List.nodup_cons.1 hl
    obtain ⟨hq, hstep⟩ := hg m b hm
    obtain ⟨h1, h2⟩ := ih hnd hq
    rw [List.foldl_cons]
    refine ⟨h1, h2.trans ?_⟩
    rw [hstep]
    by_cases hc : c = b
    · subst hc
      rw [if_neg hb, if_pos rfl, if_pos List.mem_cons_self]
    · rw [if_neg hc]
      by_cases hm : c ∈ l
      · rw [if_pos hm, if_pos (List.mem_cons_of_mem _ hm)]
      · rw [if_neg hm, if_neg (fun h => (List.mem_cons.1 h).elim hc hm)]

/-- The buffers that wait are marked as ended. -/
theorem Mbc.buf_endAll (m : Mbc) {l : List Nat} (hl : l.Nodup) (c : Nat) :
    ((m.endAll l).buf c).pend = (m.buf c).pend := by
  have h := (Mbc.buf_foldl (g := fun m b => if (m.buf b).pend then m.setBuf b { m.buf b with ended := true } else m)
    (F := fun _ x => if x.pend then { x with ended := true } else x) (fun _ => True) (fun m b _ => ⟨trivial, fun c => ?_⟩) hl trivial
    (m := m) c).2
  · have he : (m.endAll l).buf c = if c ∈ l then (if (m.buf c).pend then { m.buf c with ended := true } else m.buf c) else m.buf c := h
    rw [he]
    split
    · split <;> rfl
    · rfl
  · dsimp only
    split
    · rw [Mbc.buf_setBuf]
    · split
      next hc => rw [hc]
      · rfl

/-- The buffers that are completed. -/
theorem Mbc.buf_completeAll (m : Mbc) (result cause : Nat) {c : Nat} (hc : c < 3) :
    (m.completeAll result cause).buf c =
      if (m.buf c).pend then { m.buf c with pend := false, result := result, cause := cause } else m.buf c := by
  unfold Mbc.completeAll
  extract_lets n
  have hn : n.buf c = if c ∈ List.range 3 then (if (m.buf c).pend then { m.buf c with pend := false, result := result, cause := cause }
      else m.buf c) else m.buf c := by
    refine (Mbc.buf_foldl (F := fun _ x => if x.pend then { x with pend := false, result := result, cause := cause } else x)
      (fun _ => True) (fun m b _ => ⟨trivial, fun c => ?_⟩) List.nodup_range trivial (m := m) c).2
    dsimp only
    split
    · rw [Mbc.buf_setBuf]
    · split
      next hc => rw [hc]
      · rfl
  rw [if_pos (List.mem_range.2 hc)] at hn
  rw [← hn]
  exact mget_filter (fun _ => TxBuf.init) (fun j => decide (j ≠ 3)) (by simp; omega) n.tx

end Sys2Proof.Machine
end


section
/-! PROOF. Frames that the message bus controllers receive and send (R389 to R399). -/

namespace Sys2Proof.Machine

/-! ### Receiving -/

/-- A data frame that no rule matches goes to the end of FIFO 0. -/
theorem State.canFilter_nomatch {s : State} {k stamp : Nat} {f : CanFrame} (hr : f.remote = false) (hn : s.ruleOf k f.ext f.id = none)
    (hc : cfgNomatch (s.mbCfg k) = 0) (hl : (s.mb k).fifo0.length < 64) :
    (s.canFilter k f stamp).mb k = (s.mb k).setFifo 0 ((s.mb k).fifo0 ++ [elemOf f stamp 255]) ∧
      (s.canFilter k f stamp).objs = s.objs := by
  have hstore : s.canStore k 0x20 (elemOf f stamp 255) =
      (s.modMb k fun m => m.setFifo 0 ((s.mb k).fifo0 ++ [elemOf f stamp 255]), true) := by
    unfold State.canStore
    dsimp only
    rw [if_neg (by decide)]
    exact if_pos hl
  have hfilter : s.canFilter k f stamp =
      ((s.modMb k fun m => m.setFifo 0 ((s.mb k).fifo0 ++ [elemOf f stamp 255])).fire 3 (canTrigger k 0x20)).dictate
        (.can k f stamp) := by
    unfold State.canFilter
    rw [hr, hn]
    simp only [Bool.false_and, Bool.false_eq_true, if_false]
    rw [if_pos hc, if_neg (by decide), hstore]
    rfl
  have hst : ((((s.modMb k fun m => m.setFifo 0 ((s.mb k).fifo0 ++ [elemOf f stamp 255])).fire 3 (canTrigger k 0x20)).dictate
      (.can k f stamp))).Stays [.tds, .own, .sent] (s.modMb k fun m => m.setFifo 0 ((s.mb k).fifo0 ++ [elemOf f stamp 255])) :=
    State.dictate_stays _ _ (State.fire_stays _ 3 _ (.refl _ _) (by decide)) (by decide)
  rw [hfilter]
  exact ⟨(State.mb_of_stays hst (by decide) k).trans (State.mb_modMb _ _ _), hst.keeps .objs (by decide)⟩

theorem State.canArrive_nomatch {s : State} {k stamp : Nat} {f : CanFrame} (hk : k < 4) (hm : (s.mb k).mode = .run)
    (hres : f.res = false) (hr : f.remote = false) (hs : s.sdoTakes k f = false) (hrole : s.red.role ≠ .standby)
    (hn : s.ruleOf k f.ext f.id = none) (hc : cfgNomatch (s.mbCfg k) = 0) (hl : (s.mb k).fifo0.length < 64) :
    ∃ m, (s.canArrive k f stamp).mb k = m ∧ m.fifo0 = (s.mb k).fifo0 ++ [elemOf f stamp 255] ∧ m.fifo1 = (s.mb k).fifo1 ∧
      m.ded = (s.mb k).ded ∧ (s.canArrive k f stamp).ob (K.MBC_RX_FRAMES (k + 1)) = (s.ob (K.MBC_RX_FRAMES (k + 1)) + 1) % 2 ^ 64 := by
  unfold State.canArrive
  dsimp only
  rw [hs, Bool.and_false, if_neg Bool.false_ne_true, if_pos hk]
  unfold State.canReceive
  rw [if_neg (fun hx => hx hm), hres, Bool.and_false, if_neg Bool.false_ne_true]
  extract_lets u
  have hmb : u.mb k = { s.mb k with recCnt := if 127 < (s.mb k).recCnt then 127 else (s.mb k).recCnt - 1 } := State.mb_modMb _ _ _
  have hob : ∀ j, j ≠ K.MBC_RX_FRAMES (k + 1) → u.ob j = s.ob j := fun j hj => State.ob_incOb_ne s hj
  have hown : u.ob (K.MBC_RX_FRAMES (k + 1)) = (s.ob (K.MBC_RX_FRAMES (k + 1)) + 1) % 2 ^ 64 := State.ob_incOb_self _ _
  have hred : u.red = s.red := rfl
  have hdom : u.doms = s.doms := rfl
  clear_value u
  have hsdo : u.sdoTakes k f = false := by
    rw [← hs]
    unfold State.sdoTakes State.sdoQuiet State.inPair
    rw [hob _ (by unfold K.MBC_SDO K.MBC_RX_FRAMES; omega), hred]
  have hcfg : u.mbCfg k = s.mbCfg k := hob _ (by unfold K.MBC_CFG K.MBC_RX_FRAMES; omega)
  have hrule : u.ruleOf k f.ext f.id = none := by
    rw [← hn]
    unfold State.ruleOf
    rw [State.dom_of_doms hdom]
  rw [hsdo, if_neg Bool.false_ne_true, hred, if_neg hrole]
  obtain ⟨h1, h2⟩ := State.canFilter_nomatch (stamp := stamp) hr hrule (by rw [hcfg]; exact hc) (by rw [hmb]; exact hl)
  refine ⟨_, h1, ?_, ?_, ?_, ?_⟩
  · rw [hmb]
    rfl
  · rw [hmb]
    rfl
  · rw [hmb]
    rfl
  · rw [State.ob_of_objs h2, hown]

/-! ### The read window -/

theorem State.pop_copy {s : State} {k v : Nat} (h : cfgLock (s.mbCfg k) = false) :
    (s.pop k v).mb k = { (s.mb k).free v with win := (s.mb k).oldest v, winUnread := true } := by
  unfold State.pop
  extract_lets m lock u w
  have hl : lock = false := h
  rw [hl, if_neg Bool.false_ne_true]
  exact (State.mb_setMb _ _ _ _).trans (if_pos rfl)

theorem State.pop_lock {s : State} {k v : Nat} (h : cfgLock (s.mbCfg k) = true) :
    (s.pop k v).mb k = { s.mb k with win := (s.mb k).oldest v, winUnread := true, locked := some v } := by
  unfold State.pop
  extract_lets m lock u w
  have hl : lock = true := h
  rw [hl, if_pos rfl]
  exact (State.mb_setMb _ _ _ _).trans (if_pos rfl)

/-- A read of the window word that ends the frame. -/
theorem State.dictRead_window {s : State} {n k i : Nat} (hk : k < 4) (hi : i < 10) (hs : s.served n = true)
    (hc : s.readCheck n ((0x3810 + i) * 256 + (k + 1)) = (stOK, rNONE)) :
    (s.dictRead n ((0x3810 + i) * 256 + (k + 1))).1 = (s.rdRead k i).setResult n ((0x3810 + i) * 256 + (k + 1)) stOK rNONE 0 := by
  obtain ⟨key, hkey⟩ : ∃ key, key = (0x3810 + i) * 256 + (k + 1) := ⟨_, rfl⟩
  rw [← hkey] at hc ⊢
  have hidx : key / 256 = 0x3810 + i := by omega
  have hsub : key % 256 = k + 1 := by omega
  have h1 : isOem (key / 256) = false := by
    rw [hidx]
    unfold isOem
    simp
    omega
  have h2 : isTypeDesc key = false := by
    unfold isTypeDesc
    rw [hidx, decide_eq_false (by omega : ¬ 0x3810 + i ≤ 0xFF)]
    simp
  have he : s.readEffect n key = s.rdRead k i := by
    unfold State.readEffect
    rw [if_neg (by unfold K.TDS_KEVENTS; omega), if_neg (by unfold K.NTM_NSEC; omega), hidx, hsub, if_pos (by omega),
      Nat.add_sub_cancel, Nat.add_sub_cancel_left]
  unfold State.dictRead
  rw [hs, h1, h2, hc, he]
  simp only [Bool.not_true, Bool.false_eq_true, if_false, ne_eq, not_true]
  rw [if_neg (by omega)]

theorem Elem.lastWord_lt {x : Elem} (h : x.len ≤ 64) : x.lastWord < 10 := by
  unfold Elem.lastWord
  omega

/-- The last word of a locked frame of FIFO 0 is read. -/
theorem State.rdRead_last {s : State} {k : Nat} {x : Elem} (hw : (s.mb k).win = some x) (hu : (s.mb k).winUnread = true)
    (hl : (s.mb k).locked = some 0x20) : (s.rdRead k x.lastWord).mb k = { (s.mb k).free 0x20 with locked := none, winUnread := false } := by
  unfold State.rdRead
  rw [hw]
  dsimp only
  rw [if_pos ⟨rfl, hu⟩]
  unfold State.lastWordRead
  rw [State.mb_modMb, hl]

/-! ### Transmission -/

theorem State.txReq_pend (s : State) (k v : Nat) {b : Nat} (hb : b < 3) :
    (((s.txReq k v).mb k).buf b).pend = (((s.mb k).buf b).pend || v.testBit b) := by
  unfold State.txReq
  rw [State.mb_modMb]
  have h := (Mbc.buf_foldl (g := fun m b => if bit v b then m.setBuf b { TxBuf.init with pend := true } else m)
    (F := fun b x => if bit v b then { TxBuf.init with pend := true } else x) (fun _ => True) (fun m b _ => ⟨trivial, fun c => by
      dsimp only
      split
      · rw [Mbc.buf_setBuf]
      · split
        next hc => rw [hc]
        · rfl⟩) (l := txBits) (by decide) trivial (m := s.mb k) b).2
  have hmem : b ∈ txBits := by
    unfold txBits
    simp
    omega
  rw [h, if_pos hmem]
  unfold bit
  cases v.testBit b <;> simp

theorem mem_txBits {b : Nat} (hb : b < 3) : b ∈ txBits := by
  unfold txBits
  simp
  omega

/-- Buffers of a controller that are cancelled, or marked where their start of frame has passed. -/
def Mbc.cancel (m : Mbc) (l : List Nat) : Mbc :=
  l.foldl (fun m b =>
    let x := m.buf b
    if m.cur = some b then m.setBuf b { x with late := true }
    else m.setBuf b { x with pend := false, result := 2, late := false }) m

theorem Mbc.buf_cancel {m : Mbc} (hm : m.cur = none) {l : List Nat} (hl : l.Nodup) (b : Nat) :
    (m.cancel l).buf b = if b ∈ l then { m.buf b with pend := false, result := 2, late := false } else m.buf b :=
  (Mbc.buf_foldl (F := fun _ x => { x with pend := false, result := 2, late := false }) (fun m => m.cur = none) (fun m b hm => by
    dsimp only
    rw [if_neg (by rw [hm]; simp)]
    exact ⟨hm, fun c => Mbc.buf_setBuf _ _ _ _⟩) hl hm b).2

theorem State.txCancel_eq {s : State} (k v : Nat) (hr : s.red.role ≠ .standby) : s.txCancel k v =
    (s.modMb k fun m => m.cancel (txBits.filter fun b => bit v b)).each ((txBits.filter fun b => bit v b).filter fun b =>
      !(((s.modMb k fun m => m.cancel (txBits.filter fun b => bit v b)).mb k).buf b).pend) fun s b => s.dictateTx k b 0 := if_neg hr

/-- A buffer that is cancelled with no frame in progress, or left. -/
theorem State.txCancel_buf {s : State} {k v b : Nat} (hb : b < 3) (hc : (s.mb k).cur = none) (hr : s.red.role ≠ .standby) :
    ((s.txCancel k v).mb k).buf b = if v.testBit b then { (s.mb k).buf b with pend := false, result := 2, late := false }
      else (s.mb k).buf b := by
  rw [State.txCancel_eq k v hr]
  obtain ⟨u, hu⟩ : ∃ u, u = s.modMb k fun m => m.cancel (txBits.filter fun b => bit v b) := ⟨_, rfl⟩
  have hst : ∀ l : List Nat, (u.each l fun s b => s.dictateTx k b 0).Stays [.ctxs, .sent] u := fun l =>
    State.each_stays _ _ (.refl u _) fun w c hw => State.dictateTx_stays w k c 0 hw (List.Subset.refl _)
  rw [← hu, State.mb_of_stays (hst _) (by decide), hu, State.mb_modMb, Mbc.buf_cancel hc (List.Nodup.filter _ (by decide))]
  have hmem : b ∈ (txBits.filter fun b => bit v b) ↔ v.testBit b = true := by
    rw [List.mem_filter]
    exact ⟨fun hx => hx.2, fun hx => ⟨mem_txBits hb, hx⟩⟩
  by_cases hv : v.testBit b = true
  · rw [if_pos (hmem.2 hv), if_pos hv]
  · rw [if_neg (fun hx => hv (hmem.1 hx)), if_neg hv]

theorem State.txCancel_standby {s : State} (k v : Nat) {b : Nat} (hr : s.red.role = .standby) :
    (((s.txCancel k v).mb k).buf b).pend = ((s.mb k).buf b).pend := by
  unfold State.txCancel
  extract_lets hit
  rw [if_pos hr, State.mb_modMb]
  exact Mbc.buf_endAll _ (List.Nodup.filter _ (by decide)) b

theorem State.txSuccess_mb {s : State} {k b : Nat} (hb : b < 3) (htest : cfgTest (s.mbCfg k) ≠ 2) :
    (s.txSuccess k b).mb k = ({ s.mb k with tec := (s.mb k).tec - 1, cur := none } : Mbc).setBuf b
      { (s.mb k).buf b with pend := false, result := 1 } ∧
    (s.txSuccess k b).objs = (s.incOb (K.MBC_TX_FRAMES (k + 1))).objs := by
  have hb3 : b ≠ 3 := by omega
  obtain ⟨u, hu⟩ : ∃ u, u = ((s.incOb (K.MBC_TX_FRAMES (k + 1))).modMb k fun m => { m with tec := m.tec - 1, cur := none }).modMb k
    fun m => m.setBuf b { m.buf b with pend := false, result := 1 } := ⟨_, rfl⟩
  have hmb : u.mb k = ({ s.mb k with tec := (s.mb k).tec - 1, cur := none } : Mbc).setBuf b
      { (s.mb k).buf b with pend := false, result := 1 } := by
    rw [hu, State.mb_modMb, State.mb_modMb]
    rfl
  have hob : u.objs = (s.incOb (K.MBC_TX_FRAMES (k + 1))).objs := by
    rw [hu]
    rfl
  have hst : ((u.txStamp k b (s.mb k).curAt).dictateTx k b (s.mb k).curAt).Stays [.doms, .ctxs, .sent] u :=
    State.dictateTx_stays _ _ _ _ (State.txStamp_stays u _ _ _ (.refl u _) (by decide)) (by decide)
  have hcfg : ((u.txStamp k b (s.mb k).curAt).dictateTx k b (s.mb k).curAt).mbCfg k = s.mbCfg k := by
    unfold State.mbCfg
    rw [State.ob_of_objs (hst.keeps .objs (by decide)), State.ob_of_objs hob,
      State.ob_incOb_ne _ (by unfold K.MBC_CFG K.MBC_TX_FRAMES; omega)]
  have he : s.txSuccess k b = (u.txStamp k b (s.mb k).curAt).dictateTx k b (s.mb k).curAt := by
    unfold State.txSuccess
    dsimp only
    rw [if_neg hb3, if_neg hb3, ← hu, hcfg, decide_eq_false htest]
    rfl
  rw [he]
  exact ⟨(State.mb_of_stays hst (by decide) k).trans hmb, (hst.keeps .objs (by decide)).trans hob⟩

/-- The end of an attempt, where nothing stops the controller. -/
theorem State.txEnd_after {s u : State} {k : Nat} (hc : (u.mb k).cur = none) (hs : (u.mb k).stopping = false) (ht : (u.mb k).tec ≤ 255) :
    (if (u.mb k).cur.isSome then u
      else
        let stop := (u.mb k).stopping
        let s := u.busOffCheck k
        if stop then s.mbStop k else s) = u := by
  rw [hc, if_neg (by decide)]
  dsimp only
  rw [hs, if_neg Bool.false_ne_true]
  exact if_neg (by omega)

/-- A successful attempt of a buffer, without internal loopback. -/
theorem State.txEnd_success {s : State} {k b : Nat} (hb : b < 3) (hcur : (s.mb k).cur = some b) (hstop : (s.mb k).stopping = false)
    (htec : (s.mb k).tec ≤ 255) (htest : cfgTest (s.mbCfg k) ≠ 2) : s.txEnd k .success = s.txSuccess k b := by
  obtain ⟨hmb, -⟩ := State.txSuccess_mb (s := s) (k := k) hb htest
  unfold State.txEnd
  rw [hcur]
  dsimp only
  refine State.txEnd_after (s := s) ?_ ?_ ?_
  · rw [hmb]
    rfl
  · rw [hmb]
    exact hstop
  · rw [hmb]
    change (s.mb k).tec - 1 ≤ 255
    omega

/-- A lost arbitration of a buffer that is not to be cancelled and tries again. -/
theorem State.txEnd_lost {s : State} {k b : Nat} (hb : b < 3) (hcur : (s.mb k).cur = some b) (hstop : (s.mb k).stopping = false)
    (htec : (s.mb k).tec ≤ 255) (hlate : ((s.mb k).buf b).late = false) (hc : cfgCompat (s.mbCfg k) = true) :
    s.txEnd k .arbLost = ((s.incOb (K.MBC_ARB_LOST (k + 1))).modMb k fun m => { m with cur := none }).modMb k fun m =>
      m.setBuf b { (s.mb k).buf b with fails := ((s.mb k).buf b).fails + 1 } := by
  have hcfg : (s.incOb (K.MBC_ARB_LOST (k + 1))).mbCfg k = s.mbCfg k :=
    State.ob_incOb_ne _ (by unfold K.MBC_CFG K.MBC_ARB_LOST; omega)
  have hbuf : (s.incOb (K.MBC_ARB_LOST (k + 1))).mb k = s.mb k := rfl
  have hfail : (s.incOb (K.MBC_ARB_LOST (k + 1))).txFail k b 1 =
      ((s.incOb (K.MBC_ARB_LOST (k + 1))).modMb k fun m => { m with cur := none }).modMb k fun m =>
        m.setBuf b { (s.mb k).buf b with fails := ((s.mb k).buf b).fails + 1 } := by
    unfold State.txFail
    dsimp only
    rw [hcfg, hbuf, if_neg (by omega), hlate, hc]
    rfl
  unfold State.txEnd
  rw [hcur]
  dsimp only
  rw [hfail]
  refine State.txEnd_after (s := s) ?_ ?_ ?_
  · rw [State.mb_modMb, State.mb_modMb]
    rfl
  · rw [State.mb_modMb, State.mb_modMb]
    exact hstop
  · rw [State.mb_modMb, State.mb_modMb]
    exact htec

theorem State.loopRequest_of_test {s : State} {k : Nat} (r : TxEnd) (h : cfgTest (s.mbCfg k) ≠ 2) : s.loopRequest k r = none := by
  unfold State.loopRequest
  split
  · exact if_neg fun hx => h hx.2.1
  · rfl

/-- Settles O40. -/
theorem busFrames : Obligations.BusFrames := by
  unfold Obligations.BusFrames
  refine ⟨⟨?_, ?_, ?_, ?_⟩, ?_⟩
  · intro s k f stamp hk hm hres hr hs hrole hn hc hl
    refine completes_of rfl rfl ?_
    obtain ⟨m, hmb, h0, h1, hd, hob⟩ := State.canArrive_nomatch (stamp := stamp) hk hm hres hr hs hrole hn hc hl
    rw [hmb]
    exact ⟨h0, h1, hd, hob⟩
  · intro s n v k hk hv h hlock
    refine completes_of rfl (State.setCmd_bus h (i := 0x380A) (k := k) (by unfold K.MBC_RD_POP; omega)
      (by unfold K.MBC_RD_POP; omega) (by decide) (rdPop_value k hk v hv)) ?_
    have hmb := s.accepted_mb n (K.MBC_RD_POP (k + 1)) v k
    have hcfg := (congrArg cfgLock (s.accepted_ob n (K.MBC_RD_POP (k + 1)) v (K.MBC_CFG (k + 1)))).trans hlock
    have hp := State.pop_copy (v := v) hcfg
    rw [hmb] at hp
    change ((State.pop _ k v).mb k).win = _ ∧ ((State.pop _ k v).mb k).winUnread = true ∧
      (_ → ((State.pop _ k v).mb k).fifo0 = _)
    rw [hp]
    refine ⟨rfl, rfl, fun h20 => ?_⟩
    rw [h20]
    rfl
  · intro s n v k hk hv h hlock
    refine completes_of rfl (State.setCmd_bus h (i := 0x380A) (k := k) (by unfold K.MBC_RD_POP; omega)
      (by unfold K.MBC_RD_POP; omega) (by decide) (rdPop_value k hk v hv)) ?_
    have hmb := s.accepted_mb n (K.MBC_RD_POP (k + 1)) v k
    have hcfg := (congrArg cfgLock (s.accepted_ob n (K.MBC_RD_POP (k + 1)) v (K.MBC_CFG (k + 1)))).trans hlock
    have hp := State.pop_lock (v := v) hcfg
    rw [hmb] at hp
    change ((State.pop _ k v).mb k).win = _ ∧ ((State.pop _ k v).mb k).locked = _ ∧ ((State.pop _ k v).mb k).fifo0 = _ ∧
      ((State.pop _ k v).mb k).fifo1 = _ ∧ ((State.pop _ k v).mb k).ded = _
    rw [hp]
    exact ⟨rfl, rfl, rfl, rfl, rfl⟩
  · intro s n x k hk hw hlen hu hl hs hc
    have hexec : (match (s.mb k).win with
        | none => s
        | some x => (s.dictRead n ((0x3810 + x.lastWord) * 256 + (k + 1))).1) =
        (s.rdRead k x.lastWord).setResult n ((0x3810 + x.lastWord) * 256 + (k + 1)) stOK rNONE 0 := by
      rw [hw]
      exact State.dictRead_window hk (Elem.lastWord_lt hlen) hs hc
    refine completes_of rfl hexec ?_
    have hmb : ((s.rdRead k x.lastWord).setResult n ((0x3810 + x.lastWord) * 256 + (k + 1)) stOK rNONE 0).mb k =
        { (s.mb k).free 0x20 with locked := none, winUnread := false } :=
      (State.mb_of_stays (State.setResult_stays _ n _ _ _ _ (.refl _ _) (List.Subset.refl _)) (by decide) k).trans
        (State.rdRead_last hw hu hl)
    rw [hmb]
    exact ⟨rfl, rfl, rfl⟩
  · intro s n k hk
    refine ⟨?_, ?_, ?_, ?_⟩
    · intro v hv h
      refine completes_of rfl (State.setCmd_bus h (i := 0x3823) (k := k) (by unfold K.MBC_TX_REQ; omega)
        (by unfold K.MBC_TX_REQ; omega) (by decide) (txReq_value k hk v hv)) ?_
      intro b hb
      rw [← s.accepted_mb n (K.MBC_TX_REQ (k + 1)) v k]
      exact State.txReq_pend _ k v hb
    · intro v hv h hcur
      have hset := State.setCmd_bus h (i := 0x3824) (k := k) (by unfold K.MBC_TX_CANCEL; omega)
        (by unfold K.MBC_TX_CANCEL; omega) (by decide) (txCancel_value k hk v hv)
      have hmb := s.accepted_mb n (K.MBC_TX_CANCEL (k + 1)) v k
      have hred := State.accepted_red s n (K.MBC_TX_CANCEL (k + 1)) v
      generalize s.accepted n (K.MBC_TX_CANCEL (k + 1)) v = u at hset hmb hred
      rw [← hmb] at hcur ⊢
      constructor
      · intro hr
        refine completes_of rfl hset ?_
        intro b hb
        have hbuf := State.txCancel_buf (v := v) hb hcur (by rw [hred]; exact hr)
        change (((u.txCancel k v).mb k).buf b).pend = _ ∧ (_ → (((u.txCancel k v).mb k).buf b).result = 2)
        rw [hbuf]
        cases v.testBit b
        · exact ⟨(Bool.and_true _).symm, fun hx => absurd hx Bool.false_ne_true⟩
        · exact ⟨(Bool.and_false _).symm, fun _ => rfl⟩
      · intro hr
        refine completes_of rfl hset ?_
        intro b _
        exact State.txCancel_standby k v (by rw [hred]; exact hr)
    · intro hmay
      refine completes_of rfl (if_pos hmay) ?_
      rw [State.mb_modMb]
      exact ⟨rfl, rfl⟩
    · intro b hb hcur hstop htec htest
      have hloop : ∀ r, (match s.loopRequest k r with
          | some d => (let t := s.txEnd k r; if (t.mb k).mode = .run then t.sdoServe k d else t)
          | none => s.txEnd k r) = s.txEnd k r := fun r => by
        rw [State.loopRequest_of_test r htest]
      constructor
      · refine completes_of rfl ((hloop .success).trans (State.txEnd_success hb hcur hstop htec htest)) ?_
        obtain ⟨hmb, hob⟩ := State.txSuccess_mb (s := s) (k := k) hb htest
        rw [hmb, State.ob_of_objs hob, State.ob_incOb_self, Mbc.buf_setBuf, if_pos rfl]
        exact ⟨rfl, rfl, rfl, rfl, rfl⟩
      · intro hlate hcompat
        refine completes_of rfl ((hloop .arbLost).trans (State.txEnd_lost hb hcur hstop htec hlate hcompat)) ?_
        rw [State.mb_modMb, State.mb_modMb, Mbc.buf_setBuf, if_pos rfl]
        exact ⟨rfl, rfl, State.ob_incOb_self _ _⟩

end Sys2Proof.Machine
end


section
/-! PROOF. Modes of the message bus controllers, and their SDO servers (R387, R394, R400, R401). -/

namespace Sys2Proof.Machine

/-! ### Modes -/

/-- STOP with no frame in progress: CONFIG, and the buffers completed as the partner's role has it. -/
theorem State.mbStop_mb (s : State) (k : Nat) : ((s.mbStop k).mb k).mode = .config ∧ ((s.mbStop k).mb k).starting = false ∧
    (s.red.role ≠ .standby → ∀ b < 3, (((s.mbStop k).mb k).buf b).pend = false ∧
      (((s.mb k).buf b).pend = true → (((s.mbStop k).mb k).buf b).result = 2)) ∧
    (s.red.role = .standby → ∀ b < 3, (((s.mbStop k).mb k).buf b).pend = ((s.mb k).buf b).pend) := by
  unfold State.mbStop
  rw [State.mb_modMb]
  refine ⟨rfl, rfl, fun hr b hb => ?_, fun hr b hb => ?_⟩
  · have hmb : (s.mbComplete k 2 0).mb k = (s.mb k).completeAll 2 0 := by
      unfold State.mbComplete
      rw [if_neg hr]
      dsimp only
      have hst : ∀ l : List Nat, ((s.modMb k fun m => m.completeAll 2 0).each l fun s b => s.dictateTx k b 0).Stays [.ctxs, .sent]
          (s.modMb k fun m => m.completeAll 2 0) := fun l =>
        State.each_stays _ _ (.refl _ _) fun w c hw => State.dictateTx_stays w k c 0 hw (List.Subset.refl _)
      rw [State.mb_of_stays (hst _) (by decide), State.mb_modMb]
    rw [hmb]
    have hbuf := (s.mb k).buf_completeAll 2 0 hb
    change (((s.mb k).completeAll 2 0).buf b).pend = false ∧ (_ → (((s.mb k).completeAll 2 0).buf b).result = 2)
    rw [hbuf]
    split
    · exact ⟨rfl, fun _ => rfl⟩
    next h => exact ⟨by simpa using h, fun hp => absurd hp h⟩
  · have hmb : (s.mbComplete k 2 0).mb k = { (s.mb k).endAll [0, 1, 2] with
        rsp := []
        cur := none
        tx := ((s.mb k).endAll [0, 1, 2]).tx.filter fun e => e.1 ≠ 3 } := by
      unfold State.mbComplete
      rw [if_pos hr, State.mb_modMb]
    rw [hmb]
    have hf := mget_filter (fun _ => TxBuf.init) (fun j => decide (j ≠ 3)) (k := b) (by simp; omega) ((s.mb k).endAll [0, 1, 2]).tx
    refine Eq.trans (congrArg TxBuf.pend hf) ?_
    exact (s.mb k).buf_endAll (by decide) b

/-- A controller whose transmit error count stands above 255 goes to BUS_OFF. -/
theorem State.busOff_mode (s : State) {k : Nat} (h : cfgAutoRecover (s.mbCfg k) = false) : ((s.busOff k).mb k).mode = .busOff ∧
    (s.busOff k).ob (K.MBC_BUS_OFFS (k + 1)) = (s.ob (K.MBC_BUS_OFFS (k + 1)) + 1) % 2 ^ 64 := by
  unfold State.busOff
  extract_lets u v w
  have hu : u.objs = s.objs := (State.mbComplete_stays s k 3 3 (.refl s _) (List.Subset.refl _)).keeps .objs (by decide)
  clear_value u
  have hv : v.objs = u.objs := rfl
  have hvm : (v.mb k).mode = .busOff := by
    unfold v
    rw [State.mb_modMb]
  clear_value v
  have hw : w.mb k = v.mb k := rfl
  have hwo : w.ob (K.MBC_BUS_OFFS (k + 1)) = (v.ob (K.MBC_BUS_OFFS (k + 1)) + 1) % 2 ^ 64 := State.ob_incOb_self _ _
  have hcfg : w.mbCfg k = v.mbCfg k := State.ob_incOb_ne v (by unfold K.MBC_CFG K.MBC_BUS_OFFS; omega)
  clear_value w
  have hcs : v.mbCfg k = s.mbCfg k := State.ob_of_objs (hv.trans hu) _
  unfold State.when
  rw [hcfg, hcs, h, if_neg Bool.false_ne_true, hw, hwo, State.ob_of_objs (hv.trans hu)]
  exact ⟨hvm, rfl⟩

/-! ### SDO servers -/

theorem State.sdoFrame_taken {s : State} {k : Nat} (d : List Byte) (he : (s.ob (K.MBC_SDO (k + 1))).testBit 7 = true)
    (hn : bits (s.ob (K.MBC_SDO (k + 1))) 6 0 ≠ 0) (hp : s.inPair = false) : s.sdoTakes k (s.sdoFrame k d) = true := by
  have hq : s.sdoQuiet = false := by
    unfold State.sdoQuiet
    rw [hp]
    rfl
  have hb : bit (s.ob (K.MBC_SDO (k + 1))) 7 = true := he
  unfold State.sdoTakes
  dsimp only [State.sdoFrame]
  rw [hb, decide_eq_true hn, hq]
  simp

theorem slice_all {d : List Byte} {n : Nat} (h : d.length = n) : slice d 0 n = d := by
  unfold slice
  dsimp only
  rw [List.drop_zero, List.take_of_length_le (by omega), h, Nat.sub_self, List.replicate_zero, List.append_nil]

/-- A request to the server reaches it, with the frame counted. -/
theorem State.sdoRequest_eq {s : State} {k : Nat} {d : List Byte} (hk : k < 4) (hm : (s.mb k).mode = .run)
    (he : (s.ob (K.MBC_SDO (k + 1))).testBit 7 = true) (hn : bits (s.ob (K.MBC_SDO (k + 1))) 6 0 ≠ 0) (hp : s.inPair = false)
    (hd : d.length = 8) : ∃ u : State, s.canArrive k (s.sdoFrame k d) s.ns = u.sdoServe k d ∧
      u.mb k = { s.mb k with recCnt := if 127 < (s.mb k).recCnt then 127 else (s.mb k).recCnt - 1 } := by
  have ht := State.sdoFrame_taken d he hn hp
  obtain ⟨u, hu⟩ : ∃ u, u = (s.incOb (K.MBC_RX_FRAMES (k + 1))).modMb k fun m => { m with
    recCnt := if 127 < m.recCnt then 127 else m.recCnt - 1 } := ⟨_, rfl⟩
  have hob : u.ob (K.MBC_SDO (k + 1)) = s.ob (K.MBC_SDO (k + 1)) := by
    rw [hu]
    exact State.ob_incOb_ne s (by unfold K.MBC_SDO K.MBC_RX_FRAMES; omega)
  have hfr : u.sdoTakes k (s.sdoFrame k d) = true := by
    rw [← ht]
    unfold State.sdoTakes State.sdoQuiet State.inPair
    rw [hob, hu]
    rfl
  have hrec : s.canReceive k (s.sdoFrame k d) s.ns = u := by
    unfold State.canReceive
    rw [if_neg (fun hx => hx hm)]
    have hfd : ((s.sdoFrame k d).fd && (s.sdoFrame k d).res) = false := rfl
    rw [hfd, if_neg Bool.false_ne_true]
    dsimp only
    rw [← hu]
    exact if_pos hfr
  refine ⟨u, ?_, ?_⟩
  · unfold State.canArrive
    dsimp only
    rw [ht, decide_eq_true hk, decide_eq_true hm, if_pos hk, hrec, if_pos (by decide)]
    have hdata : (s.sdoFrame k d).data = d := slice_all hd
    rw [hdata]
  · rw [hu, State.mb_modMb]
    rfl

theorem State.sdoClear_mb (s : State) (k : Nat) : (s.sdoClear k).mb k = { s.mb k with sdo := none, sdoWait := none } := by
  unfold State.sdoClear
  exact (State.mb_of_stays (State.modSes_stays _ _ _ (.refl _ _) (List.Subset.refl _)) (by decide) k).trans (State.mb_modMb _ _ _)

/-- The eight bytes of an abort. -/
def abortBytes (key code : Nat) : List Byte := slice ([0x80] ++ sdoMux key ++ leBytes 4 code) 0 8

theorem State.sdoStop_mb (s : State) (k key code : Nat) : (s.sdoStop k key code).mb k = { s.mb k with
    sdo := none
    sdoWait := none
    rsp := (s.mb k).rsp ++ [abortBytes key code] } := by
  unfold State.sdoStop State.sdoAbort State.sdoSend
  rw [State.mb_modMb, State.mb_modMb, State.sdoClear_mb]
  rfl

theorem abortBytes_noTransfer : leAt (abortBytes 0 0x05040001) 0 1 = 0x80 ∧ leAt (abortBytes 0 0x05040001) 4 4 = 0x05040001 := by
  decide

/-- Settles O41. -/
theorem busControl : Obligations.BusControl := by
  unfold Obligations.BusControl
  refine ⟨?_, ?_⟩
  · intro s n k hk
    have hset : ∀ v < 5, Takes s n (K.MBC_CMD (k + 1)) v →
        s.setCmd n (K.MBC_CMD (k + 1)) v = (s.accepted n (K.MBC_CMD (k + 1)) v).mbcCmd k v := fun v hv h =>
      State.setCmd_bus h (i := 0x3801) (k := k) (by unfold K.MBC_CMD; omega) (by unfold K.MBC_CMD; omega) (by decide)
        (mbcCmd_value k hk v hv)
    have hmb : ∀ v, (s.accepted n (K.MBC_CMD (k + 1)) v).mb k = s.mb k := fun v => s.accepted_mb n _ v k
    have hred : ∀ v, (s.accepted n (K.MBC_CMD (k + 1)) v).red = s.red := fun v => State.accepted_red s n _ v
    refine ⟨?_, ?_, ?_, ?_, ?_, ?_, ?_, ?_, ?_⟩
    · intro h
      refine completes_of rfl (hset 1 (by decide) h) ?_
      rw [← hmb 1]
      generalize s.accepted n (K.MBC_CMD (k + 1)) 1 = u
      change ((State.modMb u k _).mb k).starting = true ∧ ((State.modMb u k _).mb k).mode = _
      rw [State.mb_modMb]
      exact ⟨rfl, rfl⟩
    · intro h hc
      have hmb2 := hmb 2
      have hred2 := hred 2
      have hset2 := hset 2 (by decide) h
      generalize s.accepted n (K.MBC_CMD (k + 1)) 2 = u at hmb2 hred2 hset2
      have hstop : u.mbcCmd k 2 = u.mbStop k := if_neg (by rw [hmb2, hc]; decide)
      refine completes_of rfl (hset2.trans hstop) ?_
      rw [← hmb2, ← hred2]
      exact u.mbStop_mb k
    · intro h hc
      have hmb2 := hmb 2
      have hset2 := hset 2 (by decide) h
      generalize s.accepted n (K.MBC_CMD (k + 1)) 2 = u at hmb2 hset2
      have hstop : u.mbcCmd k 2 = u.modMb k fun m => { m with stopping := true } :=
        if_pos (by rw [hmb2]; exact Option.isSome_iff_ne_none.2 hc)
      refine completes_of rfl (hset2.trans hstop) ?_
      rw [State.mb_modMb, ← hmb2]
      exact ⟨rfl, rfl⟩
    · intro h
      refine completes_of rfl (hset 3 (by decide) h) ?_
      generalize s.accepted n (K.MBC_CMD (k + 1)) 3 = u
      change ((State.modMb u k _).mb k).mode = _
      rw [State.mb_modMb]
    · intro h
      refine completes_of rfl (hset 4 (by decide) h) ?_
      rw [← hmb 4]
      generalize s.accepted n (K.MBC_CMD (k + 1)) 4 = u
      change ((State.modMb u k Mbc.unlock).mb k).locked = none ∧ ((State.modMb u k Mbc.unlock).mb k).ded = _ ∧
        ((State.modMb u k Mbc.unlock).mb k).fifo0 = _ ∧ ((State.modMb u k Mbc.unlock).mb k).fifo1 = _
      rw [State.mb_modMb]
      exact ⟨rfl, rfl, rfl, rfl⟩
    · intro hs hm ht
      obtain ⟨u, hu⟩ : ∃ u, u = s.modMb k fun m => { m with starting := false, mode := .run } := ⟨_, rfl⟩
      have hum : u.mb k = { s.mb k with starting := false, mode := .run } := by
        rw [hu, State.mb_modMb]
      refine completes_of rfl ((if_pos ⟨hs, hm⟩).trans (if_neg (by rw [← hu, hum]; exact Nat.not_lt.2 ht))) ?_
      rw [← hu, hum]
      exact ⟨rfl, rfl⟩
    · intro hs hm ht hrec
      obtain ⟨u, hu⟩ : ∃ u, u = s.modMb k fun m => { m with starting := false, mode := .run } := ⟨_, rfl⟩
      have hum : u.mb k = { s.mb k with starting := false, mode := .run } := by
        rw [hu, State.mb_modMb]
      refine completes_of rfl ((if_pos ⟨hs, hm⟩).trans (if_pos (by rw [← hu, hum]; exact ht))) ?_
      rw [← hu]
      have huo : u.objs = s.objs := by
        rw [hu]
        rfl
      have hb := u.busOff_mode (k := k) ((congrArg cfgAutoRecover (State.ob_of_objs huo _)).trans hrec)
      rwa [State.ob_of_objs huo] at hb
    · intro hm
      refine completes_of rfl (if_pos hm) ?_
      rw [State.mb_modMb]
      exact ⟨rfl, rfl, rfl⟩
    · intro lec hm h1 h6
      refine completes_of rfl (if_pos ⟨hm, by unfold lecOk; simp; omega⟩) ?_
      have hmb : (s.rxError k lec).mb k = { s.mb k with
          lec := lec
          recCnt := Nat.min 255 ((s.mb k).recCnt + 1 + 8 * Config.busMore s.fresh) } :=
        Eq.trans (State.mb_modMb (s.incOb (K.MBC_ERRORS (k + 1))) k fun m => { m with
          lec := lec
          recCnt := Nat.min 255 (m.recCnt + 1 + 8 * Config.busMore s.fresh) }) rfl
      rw [hmb]
      refine ⟨rfl, ?_, State.ob_incOb_self s _⟩
      exact Nat.le_min.2 ⟨Nat.min_le_left _ _, (Nat.min_le_right _ _).trans (Nat.le_add_right _ _)⟩
  · intro s k hk hm he hn hp
    refine ⟨?_, ?_, ?_⟩
    · intro d hd hcmd hsdo hrsp
      obtain ⟨u, hu, hum⟩ := State.sdoRequest_eq hk hm he hn hp hd
      have hserve : u.sdoServe k d = u.sdoStop k 0 0x05040001 := by
        unfold State.sdoServe
        dsimp only
        rw [hcmd]
        have hs : (u.mb k).sdo = none := by
          rw [hum]
          exact hsdo
        change u.sdoSegment k _ true _ = _
        unfold State.sdoSegment
        rw [hs]
      refine completes_of rfl (hu.trans hserve) ?_
      rw [State.sdoStop_mb, hum]
      refine ⟨abortBytes 0 0x05040001, ?_, abortBytes_noTransfer⟩
      dsimp only
      rw [hrsp]
      rfl
    · intro d hd hcmd
      obtain ⟨u, hu, hum⟩ := State.sdoRequest_eq hk hm he hn hp hd
      have hserve : u.sdoServe k d = u.sdoClear k := by
        unfold State.sdoServe
        dsimp only
        rw [hcmd]
        rfl
      refine completes_of rfl (hu.trans hserve) ?_
      rw [State.sdoClear_mb, hum]
      exact ⟨rfl, rfl⟩
    · intro x hx
      have hexec : (match (s.mb k).sdo with
          | none => s
          | some x => (s.reachMono ((s.mb k).sdoAt + bits (s.ob (K.MBC_SDO (k + 1))) 31 16 * 1000000)).sdoStop k x.key 0x05040000) =
          (s.reachMono ((s.mb k).sdoAt + bits (s.ob (K.MBC_SDO (k + 1))) 31 16 * 1000000)).sdoStop k x.key 0x05040000 := by
        rw [hx]
      refine completes_of rfl hexec ?_
      rw [State.sdoStop_mb]

end Sys2Proof.Machine
end


section
/-! PROOF. Commands of DMA channels: refuted, since a channel whose TIMEOUT expired before now is judged as halted by it, and a
RESUME takes it into its WAIT again. -/

namespace Sys2Proof.Machine

/-- Channel 9 in a WAIT for event flag 0 with a TIMEOUT of 1 µs, which began 2 µs ago. -/
def expiredWait : State :=
  { Sys2Proof.Tests.channel fun d => { d with
      st := .waiting
      ins := [3 * 2 ^ 28, 1, 0, 0].flatMap (leBytes 4) } with
    ntm := { Sys2Proof.Tests.base.ntm with mono := 2000 } }

/-- The TIMEOUT halts the channel, and the RESUME that finds it halted so lets it wait anew. -/
theorem dmaResume_expiredWait : ((expiredWait.setCmd 384 (K.DMA_CMD 10) 4).ch 9).st = .waiting := by decide +kernel

/-- Refutes O42: a channel that waits, its TIMEOUT expired, takes a RESUME, which leaves it waiting, not running. -/
theorem not_dmaCommands : ¬ Obligations.DmaCommands := by
  unfold Obligations.DmaCommands
  intro h
  obtain ⟨-, -, -, hresume, -⟩ := h expiredWait 384 9 (by decide)
  obtain ⟨t, ht, hst, -⟩ := hresume (Sys2Proof.Tests.takes_of (by decide +kernel)) (by decide +kernel) (by decide +kernel)
  have hexec : exec (.dmaResume 384 9) expiredWait = .next (expiredWait.setCmd 384 (K.DMA_CMD 10) 4) := rfl
  rw [← Host.Outcome.next.inj (hexec.symm.trans ht), dmaResume_expiredWait] at hst
  cases hst

end Sys2Proof.Machine
end


section
/-! SUPPORT. What a package reset keeps of the objects, of the calendar and of the reserve cell (R533, R534), and accepted writes of
their objects. -/

namespace Sys2Proof.Machine

/-! ### A package reset -/

/-- An object that a package reset keeps: of the always-on and the backup domain, and every counter. -/
def keptObject (k : Nat) : Bool :=
  ((blockDomain k = dAO || blockDomain k = dBK) && !(k / 65536 = 0x50 && k % 256 = 0x19 && decide (k / 256 ≤ 0x5008))) || isCounter k

theorem State.rebuilt_ob (s : State) {j : Nat} (hj : keptObject j = true) : s.rebuilt.ob j = s.ob j :=
  mget_filter objDefault keptObject hj s.objs

theorem keptObject_of_calendar {j : Nat} (hj : j / 65536 = 0x3D) : keptObject j = true := by
  unfold keptObject blockDomain
  simp [hj]

/-- An object of the calendar outlives a reset and the journal slot that the reset completes. -/
theorem State.packageReset_ob (s : State) (cause : Nat) {j : Nat} (hj : j / 65536 = 0x3D) : (s.packageReset cause).ob j = s.ob j := by
  have hne : ∀ c, c / 65536 ≠ 0x3D → j ≠ c := fun c hc he => hc (he ▸ hj)
  unfold State.packageReset
  split
  · exact State.ob_setOb_ne _ _ (hne _ (by decide))
  · refine (State.ob_setOb_ne _ _ (hne _ (by decide))).trans ((State.ob_incOb_ne _ (hne _ (by decide))).trans ?_)
    refine Eq.trans ?_ (s.finishApply_ob (hne _ (by decide)))
    exact (State.ob_of_objs rfl j).trans (State.rebuilt_ob _ (keptObject_of_calendar hj))

theorem State.packageReset_cal (s : State) (cause : Nat) : (s.packageReset cause).cal = s.cal := by
  unfold State.packageReset
  split
  · rfl
  · exact (State.finishApply_stays s (.refl s _) (List.Subset.refl _)).keeps .cal (by decide)

theorem State.wakeUp_ob (s : State) {j : Nat} (hj : j / 65536 = 0x3D) : s.wakeUp.ob j = s.ob j := by
  unfold State.wakeUp
  split
  · exact s.packageReset_ob 5 hj
  · rfl

theorem State.wakeUp_cal (s : State) : s.wakeUp.cal = s.cal := by
  unfold State.wakeUp
  split
  · exact s.packageReset_cal 5
  · rfl

/-! ### Accepted writes of the calendar and the reserve cell -/

/-- A write of an object of the calendar or of the reserve cell, taken. -/
theorem State.setCmd_backup {s : State} {n key v i u : Nat} (h : Takes s n key v) (hk : key / 256 = i)
    (hi : i / 256 = 0x3D ∨ i / 256 = 0x3E) (hu : s.valueOf key v = u) :
    s.setCmd n key v = (s.accepted n key u).applyCal n i (key % 256) key u := by
  have hp : plainIndex i = true := by
    have h1 : isOem i = false := by
      unfold isOem
      rw [decide_eq_false (by omega)]
      rfl
    have h2 : ¬ i / 256 = 0x11 := by omega
    have h3 : i ≠ 0x1180 := by omega
    unfold plainIndex
    rw [h1]
    simp [h2, h3]
    omega
  rw [State.setCmd_of_index_plain h hk hp (by omega) hu (stopsTide_of_index hk (by omega))]
  unfold State.applyOb
  obtain hi | hi := hi <;> simp only [hk, hi]

theorem State.accepted_cal (s : State) (n key u : Nat) : (s.accepted n key u).cal = s.cal :=
  (s.accepted_stays' n key u).keeps .cal (by decide)

theorem State.accepted_rsv (s : State) (n key u : Nat) : (s.accepted n key u).rsv = s.rsv :=
  (s.accepted_stays' n key u).keeps .rsv (by decide)

end Sys2Proof.Machine
end


section
/-! PROOF. The calendar, its alarms, and the supply that it switches (R451–R458, R460, R463, R466). -/

namespace Sys2Proof.Machine

/-! ### Alarms at a tick -/

theorem calAlarmCtl_key (k : Nat) (hk : k < 2) : K.CAL_ALARM_CTL (k + 1) / 65536 = 0x3D ∧ K.CAL_ALARM (k + 1) / 65536 = 0x3D := by
  unfold K.CAL_ALARM_CTL K.CAL_ALARM
  omega

theorem State.when_fire_stays (c : Bool) (s : State) (cls num : Nat) : (s.when c fun u => u.fire cls num).Stays [.tds, .red, .own] s := by
  unfold State.when
  split
  · exact State.fire_stays s cls num (.refl s _) (by decide)
  · exact .refl s _

theorem State.alarmFire_cal (s : State) (n : Nat) :
    (s.alarmFire n).cal = if bit (s.ob (K.CAL_ALARM_CTL (n + 1))) 1 then s.cal.assert else s.cal := by
  unfold State.alarmFire
  extract_lets ctl v hc u w
  have hw : w.cal = if bit ctl 1 then s.cal.assert else s.cal := by
    unfold w State.when
    split <;> rfl
  clear_value w
  refine Eq.trans ?_ hw
  exact (State.when_fire_stays hc w 0x05 n).keeps .cal (by decide)

theorem State.alarmFire_ob (s : State) (n j : Nat) : (s.alarmFire n).ob j = (s.setOb (K.CAL_ALARM_CTL (n + 1))
    (putBit (putBit (putBit (putBit (s.ob (K.CAL_ALARM_CTL (n + 1))) 0 false) 2 true) 3
      (decide (s.cal.count ≠ s.ob (K.CAL_ALARM (n + 1))))) 4 (!s.domOn dHC))).ob j := by
  unfold State.alarmFire
  extract_lets ctl v hc u w
  have hw : w.objs = u.objs := by
    unfold w State.when
    split <;> rfl
  clear_value w
  exact State.ob_of_objs (((State.when_fire_stays hc w 0x05 n).keeps .objs (by decide)).trans hw) j

theorem State.alarmRun_of_not {s : State} {n : Nat} (h : s.alarmReached s.cal.count n = false) : s.alarmRun n = s := by
  unfold State.alarmRun
  rw [h, if_neg Bool.false_ne_true]

theorem State.alarmRun_cal (s : State) (n : Nat) : (s.alarmRun n).cal =
    if s.alarmReached s.cal.count n = true ∧ bit (s.ob (K.CAL_ALARM_CTL (n + 1))) 1 = true then s.cal.assert else s.cal := by
  unfold State.alarmRun
  by_cases hr : s.alarmReached s.cal.count n = true
  · rw [if_pos hr, State.wakeUp_cal, State.alarmFire_cal]
    simp only [hr, true_and]
  · rw [if_neg hr, if_neg fun h => hr h.1]

/-- An alarm asserts the supply or leaves the calendar as it is. -/
theorem State.alarmRun_cases (s : State) (n : Nat) : (s.alarmRun n).cal = s.cal ∨ (s.alarmRun n).cal = s.cal.assert := by
  rw [State.alarmRun_cal]
  split
  · exact .inr rfl
  · exact .inl rfl

/-- An alarm writes no object of the calendar but its own control. -/
theorem State.alarmRun_ob_ne (s : State) (n : Nat) {j : Nat} (hj : j / 65536 = 0x3D) (hn : j ≠ K.CAL_ALARM_CTL (n + 1)) :
    (s.alarmRun n).ob j = s.ob j := by
  unfold State.alarmRun
  split
  · rw [State.wakeUp_ob _ hj, State.alarmFire_ob, State.ob_setOb_ne _ _ hn]
  · rfl

theorem State.alarmReached_congr {s t : State} {n : Nat} (c : Nat) (h : t.ob (K.CAL_ALARM_CTL (n + 1)) = s.ob (K.CAL_ALARM_CTL (n + 1)))
    (ha : t.ob (K.CAL_ALARM (n + 1)) = s.ob (K.CAL_ALARM (n + 1))) : t.alarmReached c n = s.alarmReached c n := by
  unfold State.alarmReached
  rw [h, ha]

/-- The control of an alarm that fires: no longer armed, FIRED, and LATE where the count is past its value. -/
theorem State.alarmRun_ctl {s : State} {n : Nat} (hn : n < 2) (h : s.alarmReached s.cal.count n = true) :
    ((s.alarmRun n).ob (K.CAL_ALARM_CTL (n + 1))).testBit 0 = false ∧
      ((s.alarmRun n).ob (K.CAL_ALARM_CTL (n + 1))).testBit 2 = true ∧
      ((s.alarmRun n).ob (K.CAL_ALARM_CTL (n + 1))).testBit 3 = decide (s.cal.count ≠ s.ob (K.CAL_ALARM (n + 1))) := by
  unfold State.alarmRun
  rw [if_pos h, State.wakeUp_ob _ (calAlarmCtl_key n hn).1, State.alarmFire_ob, State.ob_setOb_self]
  refine ⟨?_, ?_, ?_⟩
  · rw [testBit_putBit_ne _ _ (by decide), testBit_putBit_ne _ _ (by decide), testBit_putBit_ne _ _ (by decide), testBit_putBit_self]
  · rw [testBit_putBit_ne _ _ (by decide), testBit_putBit_ne _ _ (by decide), testBit_putBit_self]
  · rw [testBit_putBit_ne _ _ (by decide), testBit_putBit_self]

/-! ### A tick -/

/-- The state in which a tick's alarms run. -/
def State.counted (s : State) : State := s.setCal Cal.update

theorem State.counted_reached (s : State) (k : Nat) : s.counted.alarmReached s.counted.cal.count k = s.alarmReached s.cal.update.count k :=
  State.alarmReached_congr (s := s) _ rfl rfl

theorem State.calTick_cal (s : State) : s.calTick.cal = ((s.counted.alarmRun 0).alarmRun 1).cal.supplyTick := rfl

theorem State.calTick_ob (s : State) (j : Nat) : s.calTick.ob j = ((s.counted.alarmRun 0).alarmRun 1).ob j := State.ob_of_objs rfl j

/-- A tick leaves the calendar updated, its supply asserted by an alarm or not. -/
theorem State.calTick_cases (s : State) : s.calTick.cal = s.cal.update.supplyTick ∨ s.calTick.cal = s.cal.update.assert.supplyTick := by
  have hc : s.counted.cal = s.cal.update := rfl
  rw [State.calTick_cal]
  obtain h1 | h1 := (s.counted.alarmRun 0).alarmRun_cases 1 <;> obtain h0 | h0 := s.counted.alarmRun_cases 0 <;> rw [h1, h0, hc]
  · exact .inl rfl
  · exact .inr rfl
  · exact .inr rfl
  · exact .inr rfl

/-- What alarm 0 does at a tick does not bear on alarm 1. -/
theorem State.reached_one (s : State) :
    (s.counted.alarmRun 0).alarmReached (s.counted.alarmRun 0).cal.count 1 = s.alarmReached s.cal.update.count 1 := by
  have hcount : (s.counted.alarmRun 0).cal.count = s.cal.update.count := by
    obtain h | h := s.counted.alarmRun_cases 0 <;> rw [h] <;> rfl
  rw [hcount]
  exact State.alarmReached_congr _ (State.alarmRun_ob_ne _ 0 (by decide) (by decide)) (State.alarmRun_ob_ne _ 0 (by decide) (by decide))

theorem State.calTick_quiet {s : State} {k : Nat} (hk : k < 2) (h : s.alarmReached s.cal.update.count k = false) :
    s.calTick.ob (K.CAL_ALARM_CTL (k + 1)) = s.ob (K.CAL_ALARM_CTL (k + 1)) := by
  rw [State.calTick_ob]
  obtain rfl | rfl : k = 0 ∨ k = 1 := by omega
  · rw [State.alarmRun_ob_ne _ 1 (by decide) (by decide), State.alarmRun_of_not ((s.counted_reached 0).trans h)]
    rfl
  · rw [State.alarmRun_of_not (s.reached_one.trans h), State.alarmRun_ob_ne _ 0 (by decide) (by decide)]
    rfl

/-- A tick at which an alarm is reached. -/
theorem State.calTick_fires {s : State} {k : Nat} (hk : k < 2) (h : s.alarmReached s.cal.update.count k = true) :
    s.calTick.cal.count = s.cal.update.count ∧ (s.calTick.ob (K.CAL_ALARM_CTL (k + 1))).testBit 0 = false ∧
      (s.calTick.ob (K.CAL_ALARM_CTL (k + 1))).testBit 2 = true ∧
      (s.calTick.ob (K.CAL_ALARM_CTL (k + 1))).testBit 3 = decide (s.calTick.cal.count ≠ s.ob (K.CAL_ALARM (k + 1))) ∧
      ((s.ob (K.CAL_ALARM_CTL (k + 1))).testBit 1 = true → s.calTick.cal.supply = true) := by
  have hcount : s.calTick.cal.count = s.cal.update.count := by
    obtain h | h := s.calTick_cases <;> rw [h] <;> rfl
  have hassert : ∀ c : Cal, c.supply = true → c.asserted = true → c.supplyTick.supply = true := fun c hs ha => by
    unfold Cal.supplyTick
    rw [hs, ha]
    simp
  refine ⟨hcount, ?_⟩
  rw [hcount, State.calTick_ob, State.calTick_cal]
  obtain rfl | rfl : k = 0 ∨ k = 1 := by omega
  · have hr : s.counted.alarmReached s.counted.cal.count 0 = true := (s.counted_reached 0).trans h
    obtain ⟨h0, h2, h3⟩ := State.alarmRun_ctl (by decide) hr
    rw [State.alarmRun_ob_ne _ 1 (by decide) (by decide)]
    refine ⟨h0, h2, h3, fun hb => ?_⟩
    have hc : (s.counted.alarmRun 0).cal = s.counted.cal.assert := (State.alarmRun_cal _ 0).trans (if_pos ⟨hr, hb⟩)
    obtain h1 | h1 := (s.counted.alarmRun 0).alarmRun_cases 1 <;> rw [h1, hc] <;> exact hassert _ rfl rfl
  · have hr := s.reached_one.trans h
    obtain ⟨h0, h2, h3⟩ := State.alarmRun_ctl (by decide) hr
    refine ⟨h0, h2, h3.trans ?_, fun hb => ?_⟩
    · have hc : (s.counted.alarmRun 0).cal.count = s.cal.update.count := by
        obtain h | h := s.counted.alarmRun_cases 0 <;> rw [h] <;> rfl
      rw [hc, State.alarmRun_ob_ne _ 0 (by decide) (by decide)]
      rfl
    · have hb' : bit ((s.counted.alarmRun 0).ob (K.CAL_ALARM_CTL (1 + 1))) 1 = true := by
        rw [State.alarmRun_ob_ne _ 0 (by decide) (by decide)]
        exact hb
      rw [State.alarmRun_cal, if_pos ⟨hr, hb'⟩]
      exact hassert _ rfl rfl

/-- A tick at which no alarm may assert the supply. -/
theorem State.calTick_of_none {s : State} (h : ∀ k < 2, bits (s.ob (K.CAL_ALARM_CTL (k + 1))) 1 0 ≠ 3) :
    s.calTick.cal = s.cal.update.supplyTick := by
  have hno : ∀ v : Nat, bits v 1 0 ≠ 3 → ¬ (v.testBit 0 = true ∧ v.testBit 1 = true) := fun v hv hb => by
    refine hv ?_
    have h0 := hb.1
    have h1 := hb.2
    rw [Nat.testBit_eq_decide_div_mod_eq, decide_eq_true_eq] at h0 h1
    unfold bits
    omega
  have hrun : ∀ (u : State) (n : Nat), bits (u.ob (K.CAL_ALARM_CTL (n + 1))) 1 0 ≠ 3 → (u.alarmRun n).cal = u.cal := fun u n hu => by
    refine (u.alarmRun_cal n).trans (if_neg fun hb => hno _ hu ⟨?_, hb.2⟩)
    have := hb.1
    unfold State.alarmReached at this
    exact (Bool.and_eq_true_iff.1 this).1
  have h1 : bits ((s.counted.alarmRun 0).ob (K.CAL_ALARM_CTL (1 + 1))) 1 0 ≠ 3 := by
    rw [State.alarmRun_ob_ne _ 0 (by decide) (by decide)]
    exact h 1 (by decide)
  rw [State.calTick_cal, hrun _ 1 h1, hrun s.counted 0 (h 0 (by decide))]
  rfl

/-! ### The count's update -/

theorem Cal.update_of_write {c : Cal} {v : Nat} (h : c.wr = some v) :
    c.update.count = v ∧ c.update.wr = none ∧ c.update.valid = true ∧ c.update.shift = 0 := by
  unfold Cal.update
  rw [h]
  exact ⟨rfl, rfl, rfl, rfl⟩

theorem Cal.update_of_rest {c : Cal} (h : c.wr = none) (hs : c.shift = 0) : c.update.count = min calMax (c.count + 1) := by
  unfold Cal.update
  rw [h]
  dsimp only
  rw [if_neg fun hc => hc.1 hs]

theorem Cal.update_of_shift {c : Cal} (h : c.wr = none) (hs : c.shift ≠ 0) (hp : c.shiftPhase = 7) :
    c.update.count = (if 0 < c.shift then min calMax (c.count + 2) else c.count) ∧
      c.update.shift = if 0 < c.shift then c.shift - 1 else c.shift + 1 := by
  unfold Cal.update
  rw [h]
  dsimp only
  rw [if_pos ⟨hs, hp⟩]
  exact ⟨rfl, rfl⟩

theorem State.calTick_count (s : State) : s.calTick.cal.count = s.cal.update.count ∧ s.calTick.cal.wr = s.cal.update.wr ∧
    s.calTick.cal.valid = s.cal.update.valid ∧ s.calTick.cal.shift = s.cal.update.shift := by
  obtain h | h := s.calTick_cases <;> rw [h] <;> exact ⟨rfl, rfl, rfl, rfl⟩

/-! ### Writes -/

theorem calCmd_value : ∀ v < 3, (objRow K.CAL_CMD).map (·.value v) = some v := by decide

theorem alarmCtlWrite_of_arm {old v : Nat} (h : v.testBit 0 = true) : alarmCtlWrite old v = v % 4 := if_pos h

theorem calShift_cal (s : State) {v : Nat} (h : v ≠ 0) : (s.calShift v).cal.shift = toS 16 v := by
  unfold State.calShift
  rw [if_neg h]
  rfl

/-! ### The supply -/

theorem Rsv.saveStress_rest (r : Rsv) (x : Stress) : (r.saveStress x).testing = r.testing ∧ (r.saveStress x).last = r.last ∧
    (r.saveStress x).stress = r.stress ∧ (r.saveStress x).daily = r.daily := by
  unfold Rsv.saveStress
  extract_lets y
  split <;> exact ⟨rfl, rfl, rfl, rfl⟩

theorem State.rsvAbort_rsv (s : State) : s.rsvAbort.rsv.testing = false := by
  unfold State.rsvAbort
  split
  · extract_lets secs
    exact (Rsv.saveStress_rest _ _).1
  next h => simpa using h

theorem State.rsvAbort_cal (s : State) : s.rsvAbort.cal = s.cal :=
  (State.rsvAbort_stays s (.refl s _) (List.Subset.refl _)).keeps .cal (by decide)

theorem State.rsvReadId_memory (s : State) (adopt : Bool) : (s.rsvReadId adopt).rsv.memory = s.rsv.memory ∧
    (s.rsvReadId adopt).rsv.present = decide (s.rsv.memory.length = 128) := by
  unfold State.rsvReadId
  extract_lets m bad
  split
  next h =>
    rw [decide_eq_true h]
    cases adopt <;> exact ⟨rfl, rfl⟩
  next h =>
    rw [decide_eq_false h]
    exact ⟨rfl, rfl⟩

/-- Settles O46: the tick's update and its alarms in turn, the accepted writes, and the supply's events. -/
theorem calendarAndSupply : Obligations.CalendarAndSupply := by
  unfold Obligations.CalendarAndSupply
  refine ⟨⟨fun s => ⟨?_, ?_, ?_, ?_, ?_, ?_, ?_⟩, fun s n v => ⟨?_, ?_, ?_, ?_⟩, ?_, ?_⟩, fun s n => ⟨?_, ?_⟩, ?_, fun s => ⟨?_, ?_⟩,
    fun s => ⟨?_, ?_⟩, ?_⟩
  · intro v hv
    obtain ⟨h1, h2, h3, h4⟩ := s.calTick_count
    obtain ⟨u1, u2, u3, u4⟩ := Cal.update_of_write hv
    exact completes_of rfl rfl ⟨h1.trans u1, h2.trans u2, h3.trans u3, h4.trans u4⟩
  · intro hw hs
    exact completes_of rfl rfl (s.calTick_count.1.trans (Cal.update_of_rest hw hs))
  · intro hw hs hp
    obtain ⟨h1, -, -, h4⟩ := s.calTick_count
    obtain ⟨u1, u4⟩ := Cal.update_of_shift hw hs.ne' hp
    exact completes_of rfl rfl ⟨h1.trans (u1.trans (if_pos hs)), h4.trans (u4.trans (if_pos hs))⟩
  · intro hw hs hp
    obtain ⟨h1, -, -, h4⟩ := s.calTick_count
    obtain ⟨u1, u4⟩ := Cal.update_of_shift hw hs.ne hp
    exact completes_of rfl rfl ⟨h1.trans (u1.trans (if_neg hs.not_gt)), h4.trans (u4.trans (if_neg hs.not_gt))⟩
  · intro k hk hr
    exact completes_of rfl rfl (State.calTick_quiet hk hr)
  · intro hs hp
    refine completes_of (u := s.setCal fun c => { c with shiftPhase := 0 }) rfl (if_pos ⟨hs, hp⟩) ?_
    change (decide (s.cal.shift ≠ 0) || false) = false
    simp [hs]
  · intro hc he
    exact completes_of rfl (if_pos ⟨hc, he⟩) rfl
  · intro h
    refine completes_of rfl (State.setCmd_backup h rfl (.inl rfl) rfl) ⟨rfl, ?_⟩
    have hc := congrArg Cal.count (s.accepted_cal n K.CAL_COUNT (s.valueOf K.CAL_COUNT v))
    exact hc
  · intro h hv
    exact completes_of rfl (State.setCmd_backup h rfl (.inl rfl) rfl) (calShift_cal _ hv)
  · intro h
    refine completes_of rfl (State.setCmd_backup h rfl (.inl rfl) rfl) ?_
    exact congrArg Ses.convTicks (State.ses_modSes_self _ n _)
  · intro h
    refine completes_of rfl (State.setCmd_backup h rfl (.inl rfl) rfl) ?_
    exact congrArg Ses.convDate (State.ses_modSes_self _ n _)
  · intro s n k v hk h hv
    refine completes_of rfl (State.setCmd_backup (i := 0x3D04) h (by unfold K.CAL_ALARM_CTL; omega) (.inl rfl) rfl) ?_
    exact (State.ob_setOb_self _ _ _).trans (alarmCtlWrite_of_arm hv)
  · intro s k hk c hc hr _
    have hexec : exec c s = .next s.calTick := by
      simp only [List.mem_cons, List.not_mem_nil, or_false] at hc
      obtain rfl | rfl := hc
      · rfl
      · exact congrArg Host.Outcome.next (if_pos hr)
    exact completes_of hexec rfl (State.calTick_fires hk hr)
  · intro h
    exact completes_of rfl (State.setCmd_backup h rfl (.inl rfl) (h.value_eq (calCmd_value 1 (by decide)))) ⟨rfl, rfl⟩
  · intro h
    refine completes_of rfl (State.setCmd_backup h rfl (.inl rfl) (h.value_eq (calCmd_value 2 (by decide)))) ⟨?_, rfl⟩
    have hc := congrArg Cal.supply (s.accepted_cal n K.CAL_CMD 2)
    exact hc
  · intro s ho ha hn
    have hu : s.cal.update.offReq = true ∧ s.cal.update.asserted = false := by
      unfold Cal.update
      split
      · exact ⟨ho, ha⟩
      · split <;> exact ⟨ho, ha⟩
    refine completes_of rfl rfl ?_
    rw [State.calTick_of_none hn]
    unfold Cal.supplyTick
    dsimp only
    rw [hu.1, hu.2]
    exact ⟨by simp, rfl⟩
  · intro hs
    refine completes_of rfl (if_neg (by rw [Bool.not_eq_true]; exact hs)) ⟨rfl, ?_⟩
    exact State.ob_incOb_self _ _
  · intro hs hr
    refine completes_of rfl (if_pos hs) ⟨?_, ?_, ?_⟩
    · rw [State.packageReset_cal]
      rfl
    · unfold State.packageReset
      rw [if_neg (by rw [Bool.not_eq_true]; exact hr)]
      rfl
    · unfold State.packageReset
      rw [if_neg (by rw [Bool.not_eq_true]; exact hr)]
      exact State.ob_setOb_self _ _ _
  · refine completes_of rfl rfl ⟨?_, State.rsvAbort_rsv _⟩
    exact congrArg Cal.onCell (State.rsvAbort_cal _)
  · exact completes_of rfl rfl ⟨rfl, rfl⟩
  · intro s ident
    refine completes_of rfl rfl ⟨?_, State.rsvReadId_memory _ true⟩
    exact (State.rsvReadId_stays _ true (.refl _ _) (List.Subset.refl _)).keeps .cal (by decide)

end Sys2Proof.Machine
end


section
/-! PROOF. The reserve cell: its tests, identity and stress (R461, R462, R463). -/

namespace Sys2Proof.Machine

theorem rsvCmd_value : ∀ v < 3, (objRow K.RSV_CMD).map (·.value v) = some v := by decide

theorem State.rsvReadId_objs (s : State) (adopt : Bool) : (s.rsvReadId adopt).objs = s.objs :=
  (State.rsvReadId_stays s adopt (.refl s _) (List.Subset.refl _)).keeps .objs (by decide)

theorem State.rsvTestStart_rsv (s : State) : s.rsvTestStart.rsv.testing = true ∧
    s.rsvTestStart.ob K.RSV_TESTS = (s.ob K.RSV_TESTS + 1) % 2 ^ 64 := by
  refine ⟨rfl, (State.ob_incOb_self _ _).trans ?_⟩
  exact congrArg (fun x => (x + 1) % 2 ^ 64) (State.ob_of_objs (s.rsvReadId_objs false) K.RSV_TESTS)

/-- A reread of an identity memory that answers. -/
theorem State.rsvReadId_taken {s : State} (h : s.rsv.memory.length = 128) (adopt : Bool) :
    (s.rsvReadId adopt).rsv.present = true ∧ (s.rsvReadId adopt).rsv.ident = s.rsv.memory := by
  unfold State.rsvReadId
  extract_lets m bad
  rw [if_pos h]
  cases adopt <;> exact ⟨rfl, rfl⟩

/-- Reaching the end of life is noted beside the cell's tests and its stress. -/
theorem State.rsvEol_rsv (s : State) : s.rsvEol.rsv.testing = s.rsv.testing ∧ s.rsvEol.rsv.last = s.rsv.last ∧
    s.rsvEol.rsv.stress = s.rsv.stress ∧ s.rsvEol.objs = s.objs := by
  unfold State.rsvEol
  split <;> exact ⟨rfl, rfl, rfl, rfl⟩

/-! ### A test's end -/

/-- The state of a test at its end, before what the test gave is saved. -/
def State.measured (s : State) (ok : Bool) (cap esr : Nat) : State :=
  (s.setRsv fun r => { r with testing := false, last := if ok then 1 else 3 }).when ok fun s =>
    ((s.setOb K.RSV_CAP cap).setOb K.RSV_ESR esr).setRsv fun r =>
      { r with history := keepLast 8 (r.history ++ [(s.cal.count / 32768, cap, esr)]) }

/-- A test's end: what it measured is taken where it is plausible, and the stress copy is saved. -/
theorem State.rsvTestDone_measured {s : State} {d1 d2 i e c : Nat} (ht : s.rsv.testing = true)
    (hi : i = bits (s.ob K.RSV_TEST_CFG) 15 0) (he : e = d1 / i) (hc : c = 990000 * i / d2) {ok : Bool}
    (hok : (decide (d2 ≠ 0) && plausible c s.rsv.capRated && plausible e s.rsv.esrRated) = ok) :
    (s.rsvTestDone d1 d2).rsv.testing = (s.measured ok c e).rsv.testing ∧ (s.rsvTestDone d1 d2).rsv.last = (s.measured ok c e).rsv.last ∧
      ∀ k, (s.rsvTestDone d1 d2).ob k = (s.measured ok c e).ob k := by
  subst hok hc he hi
  unfold State.rsvTestDone
  rw [if_neg (by rw [ht]; decide)]
  extract_lets i esr cap secs ok old u v w
  obtain ⟨h1, h2, -, h4⟩ := w.rsvEol_rsv
  obtain ⟨r1, r2, -, -⟩ := v.rsv.saveStress_rest { old with
    hours := v.rsv.hours, tests := (old.tests + 1) % 2 ^ 32, cap := if ok then cap % 2 ^ 32 else old.cap,
    esr := if ok then esr % 2 ^ 32 else old.esr, at_ := secs % 2 ^ 32 }
  exact ⟨h1.trans r1, h2.trans r2, fun k => State.ob_of_objs h4 k⟩

theorem State.measured_good (s : State) (c e : Nat) : (s.measured true c e).ob K.RSV_CAP = c ∧ (s.measured true c e).ob K.RSV_ESR = e :=
  ⟨(State.ob_setOb_ne ((s.setRsv fun r => { r with testing := false, last := 1 }).setOb K.RSV_CAP c) e (by decide)).trans
    (State.ob_setOb_self _ _ _), State.ob_setOb_self ((s.setRsv fun r => { r with testing := false, last := 1 }).setOb K.RSV_CAP c) _ e⟩

/-! ### The stress copies -/

theorem seqNewer_succ (n : Nat) : seqNewer ((n + 1) % 2 ^ 32) n = true ∧ seqNewer n ((n + 1) % 2 ^ 32) = false ∧ n ≠ (n + 1) % 2 ^ 32 := by
  unfold seqNewer sub32
  refine ⟨?_, ?_, by omega⟩
  · simp only [Bool.and_eq_true, decide_eq_true_eq]
    omega
  · simp only [Bool.and_eq_false_iff, decide_eq_false_iff_not]
    omega

/-- A stress copy that is saved is the copy in use from then on. -/
theorem Rsv.best_saveStress (r : Rsv) (x : Stress) : (r.saveStress x).best = { x with seq := (r.best.seq + 1) % 2 ^ 32, ok := true } := by
  unfold Rsv.saveStress
  extract_lets y
  split
  next h =>
    have hb : r.best = r.a := if_pos h
    obtain ⟨-, h2, h3⟩ := seqNewer_succ r.a.seq
    have hu : Rsv.useA { r with b := y, memory := patch r.memory 96 y.bytes } = false := by
      have hy : y.seq = (r.a.seq + 1) % 2 ^ 32 := by rw [← hb]
      change (r.a.ok && (!true || decide (r.a.seq = y.seq) || seqNewer r.a.seq y.seq)) = false
      rw [hy, h2, decide_eq_false h3]
      simp
    exact (if_neg (ne_true_of_eq_false hu)).trans (if_pos rfl)
  next h =>
    have hu : Rsv.useA { r with a := y, memory := patch r.memory 64 y.bytes } = true := by
      change (true && (!r.b.ok || decide (y.seq = r.b.seq) || seqNewer y.seq r.b.seq)) = true
      cases hb : r.b.ok
      · rfl
      · have hbest : r.best = r.b := (if_neg h).trans (if_pos hb)
        have hy : y.seq = (r.b.seq + 1) % 2 ^ 32 := by rw [← hbest]
        rw [hy, (seqNewer_succ r.b.seq).1]
        simp
    exact if_pos hu

theorem getLast?_keepLast {α : Type} {n : Nat} (hn : 0 < n) (l : List α) (x : α) : (keepLast n (l ++ [x])).getLast? = some x := by
  unfold keepLast
  rw [List.length_append, List.length_singleton, List.drop_append_of_le_length (by omega), List.getLast?_append]
  rfl

/-- Settles O47: a case for each command and event of the reserve cell. -/
theorem reserveCell : Obligations.ReserveCell := by
  unfold Obligations.ReserveCell
  refine ⟨fun s n => ⟨?_, ?_⟩, ?_, fun s d1 d2 i e c ht hi he hc => ⟨?_, ?_⟩, ?_, ?_, ?_⟩
  · intro h
    refine completes_of rfl (State.setCmd_backup h rfl (.inr rfl) (h.value_eq (rsvCmd_value 1 (by decide)))) ?_
    obtain ⟨h1, h2⟩ := (s.accepted n K.RSV_CMD 1).rsvTestStart_rsv
    rw [State.accepted_ob] at h2
    exact ⟨h1, h2⟩
  · intro h hm
    refine completes_of rfl (State.setCmd_backup h rfl (.inr rfl) (h.value_eq (rsvCmd_value 2 (by decide)))) ?_
    have hr := s.accepted_rsv n K.RSV_CMD 2
    have := State.rsvReadId_taken (s := s.accepted n K.RSV_CMD 2) (by rw [hr]; exact hm) true
    rw [hr] at this
    exact this
  · intro s hi hp ho ht
    exact completes_of rfl (if_pos (by rw [hp, ho, ht, decide_eq_true hi]; rfl)) rfl
  · intro hd hpc hpe
    obtain ⟨h1, h2, h3⟩ := State.rsvTestDone_measured ht hi he hc (ok := true) (by rw [hpc, hpe, decide_eq_true hd]; rfl)
    obtain ⟨m1, m2⟩ := s.measured_good c e
    exact completes_of rfl rfl ⟨h1.trans rfl, h2.trans rfl, (h3 _).trans m1, (h3 _).trans m2⟩
  · intro hp
    have hok : (decide (d2 ≠ 0) && plausible c s.rsv.capRated && plausible e s.rsv.esrRated) = false := by
      obtain hp | hp := hp <;> rw [hp] <;> simp
    obtain ⟨h1, h2, h3⟩ := State.rsvTestDone_measured ht hi he hc hok
    exact completes_of rfl rfl ⟨h1.trans rfl, h2.trans rfl, h3 _, h3 _⟩
  · intro s ht
    refine completes_of (u := (s.setCal fun c => { c with onCell := true }).rsvAbort) rfl (if_pos ht) ?_
    unfold State.rsvAbort
    rw [if_pos (by exact ht)]
    obtain ⟨h1, h2, -, -⟩ := Rsv.saveStress_rest { s.rsv with testing := false, last := 2 } { s.rsv.best with
      hours := s.rsv.hours, tests := (s.rsv.best.tests + 1) % 2 ^ 32, at_ := s.cal.count / 32768 % 2 ^ 32 }
    exact ⟨h1, h2, State.ob_incOb_self _ _⟩
  · intro s a v hp
    refine completes_of rfl rfl ?_
    unfold State.stressMinute
    extract_lets u
    rw [if_pos (by exact hp)]
    obtain ⟨-, -, h3, h4⟩ := (u.setRsv fun r => { r with
      stress := Nat.min (2 ^ 64 - 1) (r.stress + stressRate (r.stressExp a v)) }).rsvEol_rsv
    exact ⟨(State.ob_of_objs h4 _).trans (State.ob_setOb_self _ _ _), h3⟩
  · intro s hp
    refine completes_of rfl rfl ?_
    unfold State.stressDaily
    rw [if_pos hp]
    obtain ⟨-, -, h3, h4⟩ := Rsv.saveStress_rest { s.rsv with daily := keepLast 31 (s.rsv.daily ++ [s.rsv.stress]) }
      { s.rsv.best with hours := s.rsv.hours }
    have h5 := Rsv.best_saveStress { s.rsv with daily := keepLast 31 (s.rsv.daily ++ [s.rsv.stress]) }
      { s.rsv.best with hours := s.rsv.hours }
    refine ⟨h3, congrArg Stress.hours h5, ?_⟩
    exact (congrArg List.getLast? h4).trans (getLast?_keepLast (by decide) _ _)

end Sys2Proof.Machine
end


section
/-! PROOF. Temperatures, ages, days, and the self-tests (R501, R513, R514, R515). -/

namespace Sys2Proof.Machine

/-! ### Accepted writes of supervision and observation -/

/-- A write of an object of supervision or observation, taken. -/
theorem State.setCmd_observed {s : State} {n key v i u : Nat} (h : Takes s n key v) (hk : key / 256 = i)
    (hi : 0x50 ≤ i / 256 ∧ i / 256 ≤ 0x55) (hu : s.valueOf key v = u) :
    s.setCmd n key v = ((s.accepted n key u).applyObs n i (key % 256) key u).when (stopsTide key) State.txnSettle := by
  have hp : plainIndex i = true := by
    have h1 : isOem i = false := by
      unfold isOem
      rw [decide_eq_false (by omega)]
      rfl
    have h2 : ¬ i / 256 = 0x11 := by omega
    have h3 : i ≠ 0x1180 := by omega
    unfold plainIndex
    rw [h1]
    simp [h2, h3]
    omega
  rw [State.setCmd_of_index h hk hp (by omega) hu]
  have hc : i / 256 = 0x50 ∨ i / 256 = 0x51 ∨ i / 256 = 0x52 ∨ i / 256 = 0x53 ∨ i / 256 = 0x54 ∨ i / 256 = 0x55 := by omega
  unfold State.applyOb
  obtain hc | hc | hc | hc | hc | hc := hc <;> simp only [hk, hc]

/-- The same where the object cannot stop the tide. -/
theorem State.setCmd_observed_plain {s : State} {n key v i u : Nat} (h : Takes s n key v) (hk : key / 256 = i)
    (hi : 0x50 ≤ i / 256 ∧ i / 256 ≤ 0x55) (ho : i ≠ 0x5002) (hu : s.valueOf key v = u) :
    s.setCmd n key v = (s.accepted n key u).applyObs n i (key % 256) key u := by
  rw [State.setCmd_observed h hk hi hu, stopsTide_of_index hk (by omega)]
  exact if_neg Bool.false_ne_true

/-! ### Changes in turn, each to a part of its own -/

/-- Of changes in turn, what the one of a gives is not touched by the others; it may rest on what all of them keep. -/
theorem State.each_reads {α β : Type} {f : State → α → State} (g : State → β) (I : State → Prop) {w : β} {a : α} {l : List α} {s : State}
    (ha : a ∈ l) (hI : I s) (hs : ∀ u, I u → g (f u a) = w) (hf : ∀ u b, I u → I (f u b))
    (hk : ∀ u, ∀ b ∈ l, b ≠ a → g (f u b) = g u) : g (s.each l f) = w := by
  induction l generalizing s with
  | nil => cases ha
  | cons b l ih =>
    by_cases hl : a ∈ l
    · exact ih hl (hf s b hI) fun u c hc => hk u c (List.mem_cons_of_mem _ hc)
    · have hb : a = b := (List.mem_cons.1 ha).resolve_right hl
      subst hb
      refine State.each_induct (fun u => g u = w) (s := f s a) (l := l) (hs s hI) fun u c hc hu => ?_
      exact (hk u c (List.mem_cons_of_mem _ hc) fun he => hl (he ▸ hc)).trans hu

/-! ### Samples taken on every die -/

theorem State.keepOb_ob (s : State) (key v : Nat) {j : Nat} (h1 : j ≠ K.BDR_INHIBITED) (h2 : j ≠ K.BDR_TXN_COMMITS) :
    (s.keepOb key v).ob j = (s.setOb key v).ob j := by
  unfold State.keepOb State.retain
  split
  · rfl
  · refine State.devTxn_ob _ _ _ (fun u => ?_) h1 h2
    rfl

theorem State.temps_ob {s : State} {l : List Int} {d : Nat} (hd : d ∈ s.livedDies) :
    (s.temps l).ob (K.HLT_TEMP (d + 1)) = ofS 32 (l.getD d 0) := by
  unfold State.temps
  refine State.each_reads (fun u => u.ob (K.HLT_TEMP (d + 1))) (fun _ => True) hd trivial (fun u _ => ?_) (fun _ _ _ => trivial)
    fun u e he hne => ?_
  · exact (State.sample_ob _ _ _ _ (by unfold K.HLT_TEMP K.STA_MISSED; omega)).trans (State.ob_setOb_self _ _ _)
  · exact (State.sample_ob _ _ _ _ (by unfold K.HLT_TEMP K.STA_MISSED; omega)).trans
      (State.ob_setOb_ne _ _ (by unfold K.HLT_TEMP; omega))

theorem State.agesMeasured_ob {s : State} {l : List Nat} {d : Nat} (hd : d ∈ s.livedDies) :
    (s.agesMeasured l).ob (K.HLT_AGE (d + 1)) = l.getD d 0 := by
  have hne : K.HLT_AGE (d + 1) ≠ K.BDR_INHIBITED ∧ K.HLT_AGE (d + 1) ≠ K.BDR_TXN_COMMITS := by
    unfold K.HLT_AGE K.BDR_INHIBITED K.BDR_TXN_COMMITS
    omega
  unfold State.agesMeasured
  refine State.each_reads (fun u => u.ob (K.HLT_AGE (d + 1))) (fun _ => True) hd trivial (fun u _ => ?_) (fun _ _ _ => trivial)
    fun u e he hn => ?_
  · exact (State.keepOb_ob _ _ _ hne.1 hne.2).trans (State.ob_setOb_self _ _ _)
  · exact (State.keepOb_ob _ _ _ hne.1 hne.2).trans (State.ob_setOb_ne _ _ (by unfold K.HLT_AGE; omega))

theorem State.each_sample_hlt (s : State) (l : List Nat) (c : State → Nat → Nat) (v : State → Nat → Int) :
    (s.each l fun u i => u.sample (c u i) 0 (v u i)).hlt = s.hlt :=
  (State.each_stays _ _ (.refl s [.objs, .sta]) fun u i hu => State.sample_stays u _ _ _ hu (List.Subset.refl _)).keeps .hlt (by decide)

/-- A day's record of the ages, latest first. -/
theorem State.lifeDay_hlt {s : State} {d : Nat} (hd : d ∈ s.livedDies) :
    (mget (fun _ => []) s.lifeDay.hlt.ages (d + 1)).head? = some (s.ob (K.HLT_AGE (d + 1))) ∧
      s.lifeDay.hlt.wearDays.head? = some s.wearTop.2 := by
  unfold State.lifeDay
  extract_lets u w
  have hages : (mget (fun _ => []) u.hlt.ages (d + 1)).head? = some (s.ob (K.HLT_AGE (d + 1))) := by
    refine State.each_reads (fun v => (mget (fun _ => []) v.hlt.ages (d + 1)).head?) (fun v => v.objs = s.objs) hd rfl
      (fun v hv => ?_) (fun v e hv => hv) fun v e he hne => ?_
    · have h := mget_mput_self (fun _ => []) v.hlt.ages (d + 1)
        ((v.ob (K.HLT_AGE (d + 1)) :: mget (fun _ => []) v.hlt.ages (d + 1)).take 31)
      exact (congrArg List.head? h).trans (congrArg some (State.ob_of_objs hv _))
    · have h := mget_mput_ne (fun _ => []) v.hlt.ages (e + 1)
        ((v.ob (K.HLT_AGE (e + 1)) :: mget (fun _ => []) v.hlt.ages (e + 1)).take 31) (j := d + 1) (by omega)
      exact congrArg List.head? h
  have hwear : u.wearTop = s.wearTop := by
    have hb : u.bdr = s.bdr := State.each_induct (fun v => v.bdr = s.bdr) rfl fun v e _ hv => hv
    unfold State.wearTop State.wearOf
    rw [hb]
  have hhlt : (w.each w.lifeItems fun s i => s.sample (0x0510 + i - 1) 0 (s.life i)).hlt = w.hlt :=
    w.each_sample_hlt _ (fun _ i => 0x0510 + i - 1) fun v i => v.life i
  rw [hhlt]
  refine ⟨hages, ?_⟩
  rw [← hwear]
  rfl

/-! ### Test slices -/

theorem State.testEnd_hlt (s : State) (r : Nat) : (s.testEnd r).hlt = { s.hlt with running := false, left := 0, result := r } := by
  unfold State.testEnd
  extract_lets k
  exact (State.sample_stays _ _ _ _ (.refl _ _) (List.Subset.refl _)).keeps .hlt (by decide)

theorem State.testEnd_faddr (s : State) (r : Nat) : (s.testEnd r).ob K.HLT_TEST_FADDR = s.ob K.HLT_TEST_FADDR := by
  unfold State.testEnd
  extract_lets k
  exact (State.sample_ob _ _ _ _ (by decide)).trans ((State.ob_incOb_ne _ (by decide)).trans (State.ob_of_objs rfl _))

theorem State.sliceDo_hlt (s : State) : s.sliceDo.hlt = s.hlt :=
  (State.sliceDo_stays s (.refl s _) (List.Subset.refl _)).keeps .hlt (by decide)

/-- A slice that may run works on its memory, and then fails, passes or goes on. -/
theorem State.testSlice_of_fits {s : State} (hr : s.hlt.running = true) (hf : s.sliceFits = true)
    (hd : s.domOn (dieDomain s.hlt.target) = true) (ho : s.hlt.kind ≠ 3 ∨ s.olc.st = .idle) (f : Option Nat) :
    s.testSlice f = match f with
      | some a => ((s.sliceDo.when (decide (s.hlt.kind = 1) || decide (s.hlt.kind = 3)) fun u =>
          u.setOb K.HLT_TEST_FADDR (a % 2 ^ 32)).when (decide (s.hlt.kind = 3)) fun u =>
            u.clearMem (u.altBank s.hlt.target) 0x400000).testEnd 2
      | none => if s.hlt.left ≤ 1 then s.sliceDo.testEnd 1 else s.sliceDo.setHlt fun h => { h with left := h.left - 1 } := by
  have hg : ¬ ((!s.hlt.running || !s.sliceFits) = true) := by
    rw [hr, hf]
    decide
  have hb : ¬ ((!s.domOn (dieDomain s.hlt.target) || (decide (s.hlt.kind = 3) && decide (s.olc.st ≠ .idle))) = true) := by
    rw [hd]
    obtain ho | ho := ho <;> simp [ho]
  refine ((if_neg hg).trans (if_neg hb)).trans ?_
  cases f <;> rfl

/-- Settles O51: the samples of every die, the request, and the slices. -/
theorem healthMonitor : Obligations.HealthMonitor := by
  unfold Obligations.HealthMonitor
  refine ⟨fun s l d hd => completes_of rfl rfl (State.temps_ob hd), fun s l d hd => completes_of rfl rfl (State.agesMeasured_ob hd),
    fun s d hd => completes_of rfl rfl (State.lifeDay_hlt hd), ?_, ?_⟩
  · intro s n v u hu h
    refine completes_of rfl (State.setCmd_observed_plain h rfl (by decide) (by decide) hu.symm) ⟨rfl, rfl, rfl⟩
  · intro s hr hf hd ho
    refine ⟨fun hl => ?_, fun hl => ?_, fun a => ?_⟩
    · refine completes_of rfl ((State.testSlice_of_fits hr hf hd ho none).trans (if_neg hl.not_ge)) ⟨?_, ?_⟩
      · exact (congrArg Hlt.running s.sliceDo_hlt).trans hr
      · exact congrArg (fun h => h.left - 1) s.sliceDo_hlt
    · refine completes_of rfl ((State.testSlice_of_fits hr hf hd ho none).trans (if_pos hl)) ?_
      rw [State.testEnd_hlt]
      exact ⟨rfl, rfl⟩
    · refine completes_of rfl (State.testSlice_of_fits hr hf hd ho (some a)) ?_
      dsimp only
      rw [State.testEnd_hlt, State.testEnd_faddr]
      refine ⟨rfl, rfl, fun hk => ?_⟩
      unfold State.when
      rw [hk]
      exact State.ob_setOb_self _ _ _

end Sys2Proof.Machine
end


section
/-! PROOF. Bedrock: refuted, since a record of the device's own finds the commits of several slots under way where the state holds
more marks than it completes. -/

namespace Sys2Proof.Machine

/-- Four journal slots marked before the one that the next transaction takes. -/
def fourMarks : State :=
  Sys2Proof.Tests.stored fun b => { b with
    slots := (List.range 4).map fun k => (k, { marked := true, used := true, bytes := [] })
    next := 4 }

theorem wearSave_fourMarks : (fourMarks.devRecord fun s => s.setBdr fun b => { b with wearSaved := b.wear }).applying = some 3 := by
  decide +kernel

/-- Refutes O44: saving the wear counts completes three commits, and a fourth is being applied afterwards. -/
theorem not_bedrockWrites : ¬ Obligations.BedrockWrites := by
  unfold Obligations.BedrockWrites
  rintro ⟨-, ⟨-, -, -, hwear⟩, -⟩
  obtain ⟨t, ht, -, happlying, -⟩ := (hwear fourMarks (by decide +kernel)).1 rfl
  rw [← Host.Outcome.next.inj (show _ = _ from ht), wearSave_fourMarks] at happlying
  cases happlying

end Sys2Proof.Machine
end


section
/-! PROOF. Network time, its requests, and the queues of PTP frames (R18, R302–R306, R310–R313). -/

namespace Sys2Proof.Machine

/-! ### Time tokens -/

theorem State.dieUs_sendToken {s : State} {n : Nat} (hn : n ∈ s.strands) (hd : s.domOn (dS n) = true) (hl : s.linkUp n = true) :
    s.sendToken.dieUs n = s.sendToken.us ∧ s.sendToken.ntm.tok = s.sendToken.ns / 1000 + 1 := by
  unfold State.sendToken
  extract_lets u v
  have hu : u.us = s.us ∧ u.dieUs n = s.us := by
    have hkeep : ∀ w : State, ∀ m, (w.domOn (dS n) = s.domOn (dS n) ∧ w.linkUp n = s.linkUp n ∧ w.us = s.us) →
        ∀ x, x = (if (w.domOn (dS m) && w.linkUp m) = true then
          { w with ntm := { w.ntm with die := mput (fun _ => 0) w.ntm.die m w.us } } else w) →
        x.domOn (dS n) = s.domOn (dS n) ∧ x.linkUp n = s.linkUp n ∧ x.us = s.us := by
      intro w m hw x hx
      rw [hx]
      split <;> exact hw
    refine ⟨(State.each_induct (fun w => w.domOn (dS n) = s.domOn (dS n) ∧ w.linkUp n = s.linkUp n ∧ w.us = s.us) ⟨rfl, rfl, rfl⟩
      fun w m _ hw => hkeep w m hw _ rfl).2.2, ?_⟩
    refine State.each_reads (fun w => w.dieUs n) (fun w => w.domOn (dS n) = s.domOn (dS n) ∧ w.linkUp n = s.linkUp n ∧ w.us = s.us)
      hn ⟨rfl, rfl, rfl⟩ (fun w hw => ?_) (fun w m hw => hkeep w m hw _ rfl) fun w m hm hne => ?_
    · dsimp only
      rw [hw.1, hw.2.1, hd, hl]
      exact (mget_mput_self (fun _ => 0) w.ntm.die n w.us).trans hw.2.2
    · dsimp only
      split
      · exact mget_mput_ne (fun _ => 0) w.ntm.die m w.us (Ne.symm hne)
      · rfl
  have hv : v.us = s.us ∧ v.dieUs n = s.us := by
    have h7 : n ≠ 7 := fun he => by
      subst he
      unfold State.strands at hn
      simp at hn
    unfold v State.when
    split
    · exact ⟨hu.1, (mget_mput_ne (fun _ => 0) u.ntm.die 7 u.us h7).trans hu.2⟩
    · exact hu
  exact ⟨hv.2.trans hv.1.symm, rfl⟩

theorem State.Passes.strands {s t : State} (h : s.Passes t) (n : Nat) : t.strands = s.strands ∧ t.domOn n = s.domOn n ∧
    t.linkUp n = s.linkUp n := by
  rw [h.frame]
  exact ⟨rfl, rfl, rfl⟩

/-! ### Steps and settings -/

/-- A write of an object of network time that cannot stop the tide, taken. -/
theorem State.setCmd_time {s : State} {n key v i u : Nat} (h : Takes s n key v) (hk : key / 256 = i) (hi : i / 256 = 0x32)
    (ht : stopsTide key = false) (hu : s.valueOf key v = u) :
    s.setCmd n key v = (s.accepted n key u).applyNtm i (key % 256) key u := by
  have hp : plainIndex i = true := by
    have h1 : isOem i = false := by
      unfold isOem
      rw [decide_eq_false (by omega)]
      rfl
    have h2 : ¬ i / 256 = 0x11 := by omega
    have h3 : i ≠ 0x1180 := by omega
    unfold plainIndex
    rw [h1]
    simp [h2, h3]
    omega
  rw [State.setCmd_of_index_plain h hk hp (by omega) hu ht]
  unfold State.applyOb
  simp only [hk, hi]

theorem ObjRow.value_of_full {r : ObjRow} {v : Nat} (hb : r.ty.bits = 64) (hm : r.mask = 2 ^ 64 - 1) (hv : v < 2 ^ 64) : r.value v = v := by
  unfold ObjRow.value
  rw [hb, hm, Nat.and_two_pow_sub_one_eq_mod, Nat.mod_mod, Nat.mod_eq_of_lt hv]

theorem offset_rows : ∀ key ∈ [K.NTM_OFFSET, K.NTM_OFFSET_FORCE], ∃ r, objRow key = some r ∧ r.ty.bits = 64 ∧ r.mask = 2 ^ 64 - 1 := by
  intro key hk
  simp only [List.mem_cons, List.not_mem_nil, or_false] at hk
  obtain rfl | rfl := hk <;> exact ⟨_, rfl, rfl, rfl⟩

theorem offset_value {key v : Nat} (hk : key ∈ [K.NTM_OFFSET, K.NTM_OFFSET_FORCE]) (hv : v < 2 ^ 64) :
    (objRow key).map (·.value v) = some v := by
  obtain ⟨r, hr, hb, hm⟩ := offset_rows key hk
  rw [hr]
  exact congrArg some (ObjRow.value_of_full hb hm hv)

/-- A step that is accepted waits for the next tick. -/
theorem State.offsetApply_ntm (s : State) {v : Nat} (hv : v < 2 ^ 64) :
    (s.offsetApply v).ntm = { s.ntm with steps := if v = 0 then s.ntm.steps else s.ntm.steps ++ [v] } := by
  unfold State.offsetApply
  by_cases h : v = 0
  · rw [if_pos ((toS_eq_zero (by decide) hv).2 h), if_pos h]
  · rw [if_neg fun he => h ((toS_eq_zero (by decide) hv).1 he), if_neg h, ← Nat.mod_eq_of_lt hv]
    rw [Nat.mod_mod]
    rfl

theorem State.accepted_ntm (s : State) (n key u : Nat) : (s.accepted n key u).ntm = s.ntm :=
  (s.accepted_stays' n key u).keeps .ntm (by decide)

theorem State.offset_taken {s : State} {n key v i : Nat} (h : Takes s n key v) (hkey : key ∈ [K.NTM_OFFSET, K.NTM_OFFSET_FORCE])
    (hk : key / 256 = 0x3201) (hi : key % 256 = i) (hi' : i = 2 ∨ i = 3) (ht : stopsTide key = false) (hv : v < 2 ^ 64) :
    (s.setCmd n key v).ntm = { s.ntm with steps := if v = 0 then s.ntm.steps else s.ntm.steps ++ [v] } := by
  rw [State.setCmd_time h hk rfl ht (h.value_eq (offset_value hkey hv)), hi]
  have ha : (s.accepted n key v).applyNtm 0x3201 i key v = (s.accepted n key v).offsetApply v := by
    obtain rfl | rfl := hi' <;> rfl
  rw [ha, State.offsetApply_ntm _ hv, State.accepted_ntm]

theorem State.ntmSetApply_ntm (s : State) (b : List Byte) : (s.ntmSetApply b).ntm.sec = leAt b 0 6 ∧
    (s.ntmSetApply b).ntm.nsec = leAt b 6 4 ∧ (s.ntmSetApply b).us = leAt b 0 6 * 1000000 + leAt b 6 4 / 1000 := by
  unfold State.ntmSetApply
  extract_lets sec nsec
  obtain ⟨-, h, -⟩ := (s.setNtm fun t => { t with
    sec := sec
    nsec := nsec
    frac := 0
    usec := sec * 1000000 + nsec / 1000
    steps := [] }).passes_gatesNow
  exact ⟨(congrArg Ntm.sec h).trans rfl, (congrArg Ntm.nsec h).trans rfl, (congrArg Ntm.usec h).trans rfl⟩

theorem State.store_ob (s : State) (key v : Nat) {j : Nat} (h1 : j ≠ K.BDR_INHIBITED) (h2 : j ≠ K.BDR_TXN_COMMITS) :
    (s.store key v).ob j = (s.setOb key v).ob j := s.keepOb_ob key v h1 h2

theorem State.dictRead_nsec {s : State} {n : Nat} (hs : s.served n = true) (hr : s.readCheck n K.NTM_NSEC = (stOK, rNONE)) :
    (s.dictRead n K.NTM_NSEC).1 = (s.readEffect n K.NTM_NSEC).setResult n K.NTM_NSEC stOK rNONE 0 := by
  unfold State.dictRead
  rw [hs, hr]
  rfl

/-! ### Queues of PTP frames -/

theorem State.ptpQueue_full {s : State} {p len : Nat} {f : List Byte} (h : 64 ≤ s.ntm.rx.length) :
    (s.ptpQueue p len f).ntm.rx = s.ntm.rx ∧ (s.ptpQueue p len f).ob K.NTM_PTP_DROPS = (s.ob K.NTM_PTP_DROPS + 1) % 2 ^ 64 := by
  unfold State.ptpQueue
  extract_lets u
  have hu : u.ntm = s.ntm ∧ u.ob K.NTM_PTP_DROPS = s.ob K.NTM_PTP_DROPS := by
    unfold u State.when
    split
    · exact ⟨rfl, State.ob_setOb_ne _ _ (by unfold K.NTM_PTP_DROPS K.NTM_LAST_SYNC; omega)⟩
    · exact ⟨rfl, rfl⟩
  clear_value u
  rw [if_pos (by rw [hu.1]; exact h)]
  refine ⟨?_, ?_⟩
  · have hrx := congrArg Ntm.rx hu.1
    exact hrx
  · rw [State.ob_incOb_self, hu.2]

theorem State.ptpQueue_room {s : State} {p len : Nat} {f : List Byte} (h : s.ntm.rx.length < 64) :
    ∃ r, (s.ptpQueue p len f).ntm.rx = s.ntm.rx ++ [r] ∧ r.frame = f.take 512 ∧ r.port = p ∧
      r.sec * 1000000000 + r.nsec = s.ingressNs p := by
  unfold State.ptpQueue
  extract_lets u t
  have hu : u.ntm = s.ntm ∧ u.ob (K.NTM_PORT_LAT (p + 1)) = s.ob (K.NTM_PORT_LAT (p + 1)) := by
    unfold u State.when
    split
    · exact ⟨rfl, State.ob_setOb_ne _ _ (by unfold K.NTM_PORT_LAT K.NTM_LAST_SYNC; omega)⟩
    · exact ⟨rfl, rfl⟩
  have ht : t = s.ingressNs p := by
    unfold t State.ingressNs State.clockNs
    rw [hu.1, hu.2]
  clear_value u t
  rw [if_neg (by rw [hu.1]; omega)]
  refine ⟨_, congrArg (· ++ _) (congrArg Ntm.rx hu.1), rfl, rfl, ?_⟩
  rw [← ht]
  exact Nat.div_add_mod' t 1000000000

theorem State.ptpTx_queue {s : State} {b : List Byte} (h : (leAt b 1 1).testBit 2 = false) :
    ∃ f, (s.ptpTx b).queue (leAt b 0 1) = s.queue (leAt b 0 1) ++ [f] ∧ f.kind = .ptp ∧ f.body = b.drop 16 ∧ f.launch = none ∧
      f.cls = if ptpType (b.drop 16) < 4 then 2 else 3 := by
  have hb : bit (leAt b 1 1) 2 = false := h
  unfold State.ptpTx
  extract_lets p fl f l
  rw [if_neg fun hc => Bool.false_ne_true (hb.symm.trans hc.1)]
  refine ⟨_, mget_mput_self _ _ _ _, rfl, rfl, ?_, rfl⟩
  exact if_neg (by rw [show bit fl 2 = false from hb]; exact Bool.false_ne_true)

theorem opensRead_ptpRx : OpensRead K.NTM_PTP_RX := ⟨by decide, by decide, by decide⟩
theorem opensRead_txStamp : OpensRead K.NTM_TX_STAMP := ⟨by decide, by decide, by decide⟩
theorem opensWrite_ntmSet : OpensWrite K.NTM_SET := ⟨by decide, by decide, by decide⟩
theorem opensWrite_ptpTx : OpensWrite K.NTM_PTP_TX := ⟨by decide, by decide, by decide⟩

theorem State.domCapture_ptpRx {s : State} {n : Nat} {r : PtpRec} {l : List PtpRec} (h : s.ntm.rx = r :: l) :
    s.domCapture n K.NTM_PTP_RX = (s.setNtm fun t => { t with rx := l }, some r.bytes) := by
  unfold State.domCapture
  rw [if_neg (by decide), if_neg (by decide), if_pos rfl, h]

theorem State.domCapture_txStamp {s : State} {n : Nat} {r : Stamp} {l : List Stamp} (h : s.ntm.stamps = r :: l) :
    s.domCapture n K.NTM_TX_STAMP = (s.setNtm fun t => { t with stamps := l }, some r.bytes) := by
  unfold State.domCapture
  rw [if_neg (by decide), if_neg (by decide), if_neg (by decide), if_pos rfl, h]

theorem exec_ptpReceive {s s0 : State} {fr : Rx} {b : List Byte} (h : Arrives s fr true s0) (he : fr.etype = 0x88F7) :
    exec (.ptpReceive fr b) s = .next (s0.ptpQueue fr.port (fr.bytes - 4) b) := by
  have ha : s.arrive fr true (fun s => if fr.etype = 0x88F7 then s.ptpQueue fr.port (fr.bytes - 4) b else s) =
      s0.ptpQueue fr.port (fr.bytes - 4) b := by
    unfold State.arrive
    rw [if_pos h.1, h.2]
    dsimp only
    rw [if_pos rfl, if_pos he]
  exact congrArg Host.Outcome.next ha

/-- Settles O34: tokens, steps, settings and reads of the clock, and the queues of PTP frames. -/
theorem networkTime : Obligations.NetworkTime := by
  unfold Obligations.NetworkTime
  refine ⟨⟨?_, ?_, fun s n v hv => ⟨fun h => ?_, fun h => ?_⟩, ?_, ?_⟩, ?_, ?_, ?_, ?_, ?_⟩
  · intro s n hn hd hl
    obtain ⟨h1, -, h3⟩ := (s.passes_reach s.tokenDue).strands n
    obtain ⟨-, h2, -⟩ := (s.passes_reach s.tokenDue).strands (dS n)
    exact completes_of rfl rfl (State.dieUs_sendToken (h1 ▸ hn) (h2.trans hd) (h3.trans hl))
  · intro s n v h
    refine completes_of rfl (State.setCmd_time h rfl rfl (by decide) rfl) ⟨?_, ?_⟩
    · exact (State.store_ob _ _ _ (by decide) (by decide)).trans (State.ob_setOb_self _ _ _)
    · refine Eq.trans ?_ (s.accepted_ntm n K.NTM_INCR (s.valueOf K.NTM_INCR v))
      exact (State.store_stays _ _ _ (.refl _ _) (List.Subset.refl _)).keeps .ntm (by decide)
  · have hn := State.offset_taken h (by simp) rfl rfl (.inl rfl) (by decide) hv
    have hsec := congrArg Ntm.sec hn
    have hnsec := congrArg Ntm.nsec hn
    exact completes_of rfl rfl ⟨State.clockNs_of_ntm ⟨hsec, hnsec⟩, congrArg Ntm.steps hn⟩
  · have hn := State.offset_taken h (by simp) rfl rfl (.inr rfl) (by decide) hv
    have hsec := congrArg Ntm.sec hn
    have hnsec := congrArg Ntm.nsec hn
    exact completes_of rfl rfl ⟨State.clockNs_of_ntm ⟨hsec, hnsec⟩, congrArg Ntm.steps hn⟩
  · intro s n data h
    refine completes_of rfl (State.putDomain_of_delivers h opensWrite_ntmSet (by decide)) ?_
    exact State.ntmSetApply_ntm (s.filled n K.NTM_SET data) data
  · intro s n hs hr
    refine completes_of rfl (State.dictRead_nsec hs hr) ?_
    rw [State.ses_setResult_self]
    have he : s.readEffect n K.NTM_NSEC = s.modSes n fun x => { x with sec := s.ntm.sec } := by
      unfold State.readEffect
      rw [if_neg (by decide), if_pos rfl]
    rw [he, State.ses_modSes_self]
  · intro s s0 fr b h he hr
    exact completes_of (exec_ptpReceive h he) rfl (State.ptpQueue_room hr)
  · intro s s0 fr b h he hr
    exact completes_of (exec_ptpReceive h he) rfl (State.ptpQueue_full hr)
  · intro s n r l h hr
    refine completes_of rfl (State.openDomain_of_opens h opensRead_ptpRx) ?_
    rw [State.domCapture_ptpRx (s := s.setResult n K.DIC_DOM_OPEN stOK rNONE 0) hr, State.ses_modSes_self]
    exact ⟨rfl, _, rfl, rfl⟩
  · intro s n r l h hr
    refine completes_of rfl (State.openDomain_of_opens h opensRead_txStamp) ?_
    rw [State.domCapture_txStamp (s := s.setResult n K.DIC_DOM_OPEN stOK rNONE 0) hr, State.ses_modSes_self]
    exact ⟨rfl, _, rfl, rfl⟩
  · intro s n data h hb
    refine completes_of rfl (State.putDomain_of_delivers h opensWrite_ptpTx (by decide)) ?_
    have hq : (s.filled n K.NTM_PTP_TX data).hnw = s.hnw := (State.filled_stays h opensWrite_ptpTx).keeps .hnw (by decide)
    obtain ⟨f, hf, hrest⟩ := State.ptpTx_queue (s := s.filled n K.NTM_PTP_TX data) hb
    refine ⟨f, hf.trans ?_, hrest⟩
    unfold State.queue
    rw [hq]

end Sys2Proof.Machine
end


section
/-! PROOF. Watchdogs, clock monitors and task check-in (R469–R472, R474–R479). -/

namespace Sys2Proof.Machine

/-! ### Watchdogs -/

theorem State.wd_setWd_self (s : State) (k : Nat) (x : Wdg) : (s.setWd k x).wd k = x := (s.wd_setWd k x k).trans (if_pos rfl)

theorem State.wdgRestart_wd (s : State) (k : Nat) : (s.wdgRestart k).wd k = { s.wd k with zero := s.ntm.mono, froze := 0 } :=
  s.wd_setWd_self k _

theorem State.wdgLast_wd (s : State) (k e : Nat) : (s.wdgLast k e).wd k = { s.wd k with last := e } := s.wd_setWd_self k _

/-- A watchdog that has restarted now counts 0. -/
theorem State.wdgCount_of_restarted {s : State} {k : Nat} (hz : (s.wd k).zero = s.ntm.mono) (hf : (s.wd k).froze = 0) : s.wdgCount k = 0 := by
  unfold State.wdgCount
  rw [hz, hf, Nat.sub_self]
  split
  · rfl
  · split <;> rfl

theorem State.wdgCount_restart (s : State) (k : Nat) : (s.wdgRestart k).wdgCount k = 0 := by
  refine State.wdgCount_of_restarted ?_ ?_ <;> rw [State.wdgRestart_wd] <;> rfl

theorem State.wdgEn_of_ob {s t : State} {k : Nat} (h : t.ob (K.WDG_CFG (k + 1)) = s.ob (K.WDG_CFG (k + 1))) :
    t.wdgCfg k = s.wdgCfg k ∧ t.wdgEn k = s.wdgEn k ∧ t.wdgPol k = s.wdgPol k := by
  unfold State.wdgEn State.wdgPol State.wdgCfg
  rw [h]
  exact ⟨rfl, rfl, rfl⟩

/-- A write of a watchdog's PERIOD. -/
theorem State.wdgCfgApply_period (s : State) (k v : Nat) : (s.wdgCfgApply k true v).ob (K.WDG_PERIOD (k + 1)) = v ∧
    (s.wdgEn k = true → (s.wdgCfgApply k true v).wdgCount k = 0) := by
  unfold State.wdgCfgApply
  extract_lets was locked u
  have hu : u.ob (K.WDG_PERIOD (k + 1)) = v := State.ob_setOb_self _ _ _
  refine ⟨?_, fun he => ?_⟩
  · split
    · exact hu
    · exact hu
  · rw [if_pos (by rw [show was = true from he]; rfl)]
    exact u.wdgCount_restart k

/-- A write of a watchdog's CFG; a LOCK that holds is kept. -/
theorem State.wdgCfgApply_cfg (s : State) (k v : Nat) : (s.wdgCfgApply k false v).wdgCount k = 0 ∧
    (s.wdgCfgApply k false v).ob (K.WDG_CFG (k + 1)) = if (s.wdgEn k && bit (s.wdgCfg k) 3) = true then putBit v 3 true else v := by
  unfold State.wdgCfgApply
  extract_lets was locked u
  have hu : u.ob (K.WDG_CFG (k + 1)) = if locked = true then putBit v 3 true else v := State.ob_setOb_self _ _ _
  split
  · exact ⟨u.wdgCount_restart k, hu⟩
  next h =>
    refine ⟨?_, hu⟩
    have he : u.wdgEn k = false := by
      cases hx : u.wdgEn k
      · rfl
      · exact absurd (by rw [hx, Bool.or_true]) h
    unfold State.wdgCount
    rw [he]
    rfl

theorem State.wdgKey_good {s : State} {k : Nat} (h : s.wdgOpen k = true) :
    (s.wdgKey k 0xA5C3).wdgCount k = 0 ∧ ((s.wdgKey k 0xA5C3).wd k).last = 1 := by
  unfold State.wdgOpen at h
  simp only [Bool.and_eq_true, decide_eq_true_eq] at h
  obtain ⟨⟨-, h1⟩, h2⟩ := h
  unfold State.wdgKey
  rw [if_neg (by decide), if_neg (by omega), if_pos h2]
  refine ⟨State.wdgCount_of_restarted ?_ ?_, ?_⟩ <;> rw [State.wdgLast_wd]
  · exact congrArg Wdg.zero (s.wdgRestart_wd k)
  · exact congrArg Wdg.froze (s.wdgRestart_wd k)

theorem State.wdgKey_bad {s : State} {k v : Nat} (hv : v ≠ 0xA5C3) (hb : bit (s.wdgCfg k) 4 = false) :
    ((s.wdgKey k v).wd k).last = 3 ∧ (s.wdgKey k v).ob (K.WDG_BADKEY (k + 1)) = (s.ob (K.WDG_BADKEY (k + 1)) + 1) % 2 ^ 64 := by
  unfold State.wdgKey
  rw [if_pos hv]
  unfold State.wdgViolation
  extract_lets u w
  have hw : w.ob (K.WDG_CFG (k + 1)) = s.ob (K.WDG_CFG (k + 1)) :=
    State.ob_incOb_ne (k := K.WDG_BADKEY (k + 1)) s (by unfold K.WDG_CFG K.WDG_BADKEY; omega)
  rw [(State.wdgEn_of_ob hw).1, hb, if_neg Bool.false_ne_true]
  refine ⟨?_, State.ob_incOb_self s _⟩
  unfold w
  rw [State.wdgLast_wd]

/-- An expiry under a POL that resets nothing. -/
theorem State.wdgExpire_of_pol {s : State} {k : Nat} (hp : s.wdgPol k ≤ 1) :
    (s.wdgExpire k).ob (K.WDG_EXPIRIES (k + 1)) = (s.ob (K.WDG_EXPIRIES (k + 1)) + 1) % 2 ^ 64 ∧ ((s.wdgExpire k).wd k).last = 5 ∧
      (s.wdgExpire k).wdgCount k = 0 ∧ ((s.wdgExpire k).wd k).lost = (s.wd k).lost ∧ (s.wdgPol k = 1 → (s.wdgExpire k).flt.out = true) ∧
      (s.wdgExpire k).sess = s.sess := by
  unfold State.wdgExpire
  extract_lets u w
  have hpol : ((w.wdgRestart k).wdgLast k 5).wdgPol k = s.wdgPol k := by
    have ho : ((w.wdgRestart k).wdgLast k 5).ob (K.WDG_CFG (k + 1)) = s.ob (K.WDG_CFG (k + 1)) :=
      State.ob_incOb_ne s (by unfold K.WDG_CFG K.WDG_EXPIRIES; omega)
    exact (State.wdgEn_of_ob ho).2.2
  have hob : ((w.wdgRestart k).wdgLast k 5).ob (K.WDG_EXPIRIES (k + 1)) = (s.ob (K.WDG_EXPIRIES (k + 1)) + 1) % 2 ^ 64 :=
    State.ob_incOb_self s _
  have hwd : ((w.wdgRestart k).wdgLast k 5).wd k = { w.wd k with zero := w.ntm.mono, froze := 0, last := 5 } := by
    rw [State.wdgLast_wd, State.wdgRestart_wd]
  have hlost : (w.wd k).lost = (s.wd k).lost := rfl
  have hmono : ((w.wdgRestart k).wdgLast k 5).ntm.mono = w.ntm.mono := rfl
  have hsess : ((w.wdgRestart k).wdgLast k 5).sess = s.sess := rfl
  generalize (w.wdgRestart k).wdgLast k 5 = x at *
  have hact : x.wdgAct k = x ∨ x.wdgAct k = x.assertOut := by
    unfold State.wdgAct
    split
    · exact .inr rfl
    next h => omega
    · exact .inl rfl
  have hcount : x.wdgCount k = 0 := State.wdgCount_of_restarted (by rw [hwd, hmono]) (by rw [hwd])
  have hrest : (x.wdgAct k).ob (K.WDG_EXPIRIES (k + 1)) = x.ob (K.WDG_EXPIRIES (k + 1)) ∧ (x.wdgAct k).wd k = x.wd k ∧
      (x.wdgAct k).wdgCount k = x.wdgCount k ∧ (x.wdgAct k).sess = x.sess := by
    obtain h | h := hact <;> rw [h] <;> exact ⟨rfl, rfl, rfl, rfl⟩
  obtain ⟨r1, r2, r3, r4⟩ := hrest
  refine ⟨r1.trans hob, by rw [r2, hwd], r3.trans hcount, ?_, fun h1 => ?_, r4.trans hsess⟩
  · rw [r2, hwd]
    exact hlost
  · unfold State.wdgAct
    rw [hpol, h1]
    rfl

theorem State.Passes.wdg {s t : State} (h : s.Passes t) : t.wdg = s.wdg ∧ t.sess = s.sess := by
  rw [h.frame]
  exact ⟨rfl, rfl⟩

theorem timeKey_wdg {k : Nat} (hk : k / 65536 = 0x50) : timeKey k = false := by
  unfold timeKey K.NTM_STEPS K.PMC_THR
  simp
  omega

theorem wdgKeys {k : Nat} (hk : k < 25) : K.WDG_CFG (k + 1) / 65536 = 0x50 ∧ K.WDG_EXPIRIES (k + 1) / 65536 = 0x50 := by
  unfold K.WDG_CFG K.WDG_EXPIRIES
  omega

theorem State.lt_of_wdgWatched {s : State} {k : Nat} (h : s.wdgWatched k = true) : k < 25 := by
  unfold State.wdgWatched wdgSys at h
  simp only [Bool.or_eq_true, Bool.and_eq_true, decide_eq_true_eq] at h
  omega

/-- The count of a watchdog reaches LIMIT. -/
theorem State.wdgDue_expires {s : State} {k : Nat} (hk : k < 25) (he : s.wdgEn k = true) (hl : (s.wd k).lost = false) (hp : s.wdgPol k ≤ 1) :
    (s.wdgDue k).ob (K.WDG_EXPIRIES (k + 1)) = (s.ob (K.WDG_EXPIRIES (k + 1)) + 1) % 2 ^ 64 ∧ ((s.wdgDue k).wd k).last = 5 ∧
      (s.wdgDue k).wdgCount k = 0 ∧ (s.wdgPol k = 1 → (s.wdgDue k).flt.out = true) ∧ (s.wdgDue k).sess = s.sess := by
  unfold State.wdgDue
  rw [if_pos (by rw [he, hl]; rfl)]
  have hpass := s.passes_reachMono ((s.wd k).zero + s.wdgLimit k * 1000)
  generalize s.reachMono ((s.wd k).zero + s.wdgLimit k * 1000) = u at hpass
  obtain ⟨-, -, h3⟩ := State.wdgEn_of_ob (hpass.objects _ (timeKey_wdg (wdgKeys hk).1))
  obtain ⟨e1, e2, e3, -, e5, e6⟩ := State.wdgExpire_of_pol (s := u) (k := k) (by rw [h3]; exact hp)
  rw [hpass.objects _ (timeKey_wdg (wdgKeys hk).2)] at e1
  exact ⟨e1, e2, e3, fun h1 => e5 (h3.trans h1), e6.trans hpass.wdg.2⟩

/-! ### Clocks -/

theorem State.clockLost_island {s : State} {k : Nat} (hw : s.wdgWatched k = true) (hl : (s.wd k).lost = false) (hp : s.wdgPol k ≤ 1) :
    ((s.clockLost k).wd k).lost = true ∧
      (s.clockLost k).ob (K.WDG_EXPIRIES (k + 1)) = (s.ob (K.WDG_EXPIRIES (k + 1)) + 1) % 2 ^ 64 ∧ (s.clockLost k).sess = s.sess := by
  unfold State.clockLost
  rw [if_pos (by rw [hw, hl]; rfl)]
  extract_lets c x u
  have hu : ((u.raiseSt 0x32 k false 0).wd k).lost = true :=
    congrArg Wdg.lost (s.wd_setWd_self k { s.wd k with lost := true, froze := c })
  obtain ⟨e1, -, -, e4, -, e6⟩ := State.wdgExpire_of_pol (s := u.raiseSt 0x32 k false 0) (k := k) hp
  exact ⟨e4.trans hu, e1, e6⟩

theorem State.clockBack_island {s : State} {k : Nat} (hw : s.wdgWatched k = true) (hl : (s.wd k).lost = true) :
    ((s.clockBack k).wd k).lost = false ∧ (s.clockBack k).flt.queue.length = s.flt.queue.length + 1 := by
  unfold State.clockBack
  rw [if_pos (by rw [hw, hl]; rfl)]
  unfold State.islandBack
  rw [if_pos hl]
  refine ⟨?_, ?_⟩
  · exact congrArg Wdg.lost (s.wd_setWd_self k { s.wd k with lost := false, zero := s.ntm.mono - (s.wd k).froze * 1000 })
  · exact List.length_append

theorem State.wdgWatched_fabric (s : State) (d : Nat) : s.wdgWatched (0x20 + d) = false := by
  cases h : s.wdgWatched (0x20 + d)
  · rfl
  · exact absurd (State.lt_of_wdgWatched h) (by omega)

theorem State.clockLost_fabric {s : State} {d : Nat} (hf : s.fabricWatched (0x20 + d) = true) :
    (s.clockLost (0x20 + d)).pwr.fabricLost.testBit d = true ∧ (s.clockLost (0x20 + d)).sess = s.sess := by
  unfold State.clockLost
  rw [State.wdgWatched_fabric, hf, Bool.false_and, if_neg Bool.false_ne_true, Nat.add_sub_cancel_left]
  by_cases hb : bit s.pwr.fabricLost d = true
  · rw [hb, if_neg (by decide)]
    exact ⟨hb, rfl⟩
  · rw [Bool.not_eq_true] at hb
    rw [hb, if_pos (by decide)]
    exact ⟨testBit_putBit_self _ _ _, rfl⟩

theorem State.clockBack_fabric {s : State} {d : Nat} (hf : s.fabricWatched (0x20 + d) = true) :
    (s.clockBack (0x20 + d)).pwr.fabricLost.testBit d = false := by
  unfold State.clockBack
  rw [State.wdgWatched_fabric, hf, Bool.false_and, if_neg Bool.false_ne_true, Nat.add_sub_cancel_left]
  by_cases hb : bit s.pwr.fabricLost d = true
  · rw [hb, if_pos (by decide)]
    exact testBit_putBit_self _ _ _
  · rw [Bool.not_eq_true] at hb
    rw [hb, if_neg (by decide)]
    exact hb

/-! ### Time up to a microsecond count -/

/-- Time passes up to a count of µs that lies ahead or has come. -/
theorem State.le_us_reachUs {s : State} {d : Nat} (hst : s.ntm.steps = []) (hw : s.clockNs + d * 1000 < nsWrap)
    (hd : d ≤ s.us ∨ s.ns < d * 1000) : d ≤ (s.reachUs d).us := by
  unfold State.reachUs
  by_cases hu : s.us < d
  · rw [if_pos hu]
    have hlt : s.ns < d * 1000 := hd.resolve_left (by omega)
    unfold State.reach
    rw [if_pos hlt]
    dsimp only
    rw [State.begin_of_nil hst, if_pos hlt, State.us_advance, Nat.mod_eq_of_lt (by omega)]
    have hns : s.ns ≤ s.clockNs := Nat.mod_le _ _
    have : d ≤ (s.clockNs + (d * 1000 - s.ns)) / 1000 := by omega
    exact this.trans (Nat.le_max_right _ _)
  · rw [if_neg hu]
    omega

/-! ### Check-in -/

theorem le_of_mem_mwfFrom {α : Type} [DecidableEq α] {d : Nat → α} {m : SMap α} {lo : Nat} (h : mwfFrom d lo m = true) :
    ∀ e ∈ m, lo ≤ e.1 := by
  induction m generalizing lo with
  | nil => intro e he; cases he
  | cons a m ih =>
    simp only [mwfFrom, Bool.and_eq_true, decide_eq_true_eq] at h
    intro e he
    obtain rfl | he := List.mem_cons.1 he
    · exact h.1.1
    · exact (Nat.le_succ_of_le h.1.1).trans (ih h.2 e he)

/-- The keys of a map in its canonical form differ. -/
theorem nodup_keys_of_mwf {α : Type} [DecidableEq α] {d : Nat → α} {m : SMap α} (h : mwf d m = true) : (m.map Prod.fst).Nodup := by
  unfold mwf at h
  generalize 0 = lo at h
  induction m generalizing lo with
  | nil => exact List.nodup_nil
  | cons a m ih =>
    simp only [mwfFrom, Bool.and_eq_true, decide_eq_true_eq] at h
    rw [List.map_cons, List.nodup_cons]
    refine ⟨fun hmem => ?_, ih _ h.2⟩
    obtain ⟨e, he, hk⟩ := List.mem_map.1 hmem
    have := le_of_mem_mwfFrom h.2 e he
    omega

/-- Counters each counted once. -/
theorem State.ob_each_incOb {key : Nat → Nat} (hinj : ∀ a b, key a = key b → a = b) {a : Nat} {l : List Nat} (hl : l.Nodup) (ha : a ∈ l)
    (s : State) : (s.each l fun u t => u.incOb (key t)).ob (key a) = (s.ob (key a) + 1) % 2 ^ 64 := by
  induction l generalizing s with
  | nil => cases ha
  | cons b l ih =>
    rw [List.nodup_cons] at hl
    obtain rfl | hal := List.mem_cons.1 ha
    · refine State.each_induct (fun u => u.ob (key a) = (s.ob (key a) + 1) % 2 ^ 64) (s := s.incOb (key a)) (l := l)
        (State.ob_incOb_self s _) fun u c hc hu => ?_
      exact (State.ob_incOb_ne u fun he => hl.1 ((hinj a c he).symm ▸ hc)).trans hu
    · refine (ih hl.2 hal (s.incOb (key b))).trans ?_
      rw [State.ob_incOb_ne s fun he => hl.1 (hinj a b he ▸ hal)]

theorem State.chkPast_of_before {s : State} (h : ∀ d, s.chkDue = some d → s.us < d) : s.chkPast = s := by
  unfold State.chkPast
  refine State.each_induct (fun u => u = s) rfl fun u e _ hu => ?_
  subst hu
  split
  next d hd => exact if_neg (by have := h d hd; omega)
  · rfl

/-- Slots of which some end with no arrival: a miss is counted for each. -/
theorem State.chkJudge_misses {s : State} {l : List Nat} (hl : l.Nodup) (hb : ∀ t ∈ l, t < 256) {t : Nat} (ht : t ∈ l)
    (hc : mget (fun _ => 0) s.chk.count t = 0) :
    (s.chkJudge l).ob (K.WDG_CHK_MISSES t) = (s.ob (K.WDG_CHK_MISSES t) + 1) % 2 ^ 64 := by
  unfold State.chkJudge
  extract_lets k missed dup dups u w
  have hmem : t ∈ missed := List.mem_filter.2 ⟨ht, decide_eq_true hc⟩
  have hu : u.ob (K.WDG_CHK_MISSES t) = (s.ob (K.WDG_CHK_MISSES t) + 1) % 2 ^ 64 :=
    State.ob_each_incOb (fun a b h => by unfold K.WDG_CHK_MISSES at h; omega) (hl.sublist List.filter_sublist) hmem s
  have hw : w.ob (K.WDG_CHK_MISSES t) = u.ob (K.WDG_CHK_MISSES t) := by
    have htb := hb t ht
    refine State.each_induct (fun v => v.ob (K.WDG_CHK_MISSES t) = u.ob (K.WDG_CHK_MISSES t)) rfl fun v c hc hv => ?_
    exact (State.ob_addOb_ne v _ (by unfold K.WDG_CHK_MISSES K.WDG_CHK_DUPS; omega)).trans hv
  split
  · exact hw.trans hu
  · exact hw.trans hu

/-- A boundary of check-in that comes. -/
theorem State.chkEnd_judged {s : State} {d : Nat} (hd : s.chkDue = some d) (hst : s.ntm.steps = []) (hw : s.clockNs + d * 1000 < nsWrap)
    (hr : d ≤ s.us ∨ s.ns < d * 1000) (hm : mwf (fun _ => 0) s.chk.due = true) (hb : ∀ e ∈ s.chk.due, e.1 < 256)
    (hcfg : bit (s.ob K.WDG_CHK_CFG) 0 = false) {e : Nat × Nat} (he : e ∈ s.chk.due) (hed : e.2 = d) :
    mget (fun _ => 0) s.chkEnd.chk.count e.1 = 0 ∧ (mget (fun _ => 0) s.chk.count e.1 = 0 →
      s.chkEnd.ob (K.WDG_CHK_MISSES e.1) = (s.ob (K.WDG_CHK_MISSES e.1) + 1) % 2 ^ 64) := by
  unfold State.chkEnd
  rw [hd]
  dsimp only
  have hpass := s.passes_reachUs d
  have hus := State.le_us_reachUs hst hw hr
  generalize s.reachUs d = u at hpass hus
  have hchk : u.chk = s.chk := by rw [hpass.frame]
  have hcfg' : bit (u.ob K.WDG_CHK_CFG) 0 = false := by rw [hpass.objects _ (by decide)]; exact hcfg
  rw [if_neg hus.not_gt, hcfg', Bool.false_and, if_neg Bool.false_ne_true, hchk]
  obtain ⟨l, hl⟩ : ∃ l, l = (s.chk.due.filter fun e => decide (e.2 = d)).map Prod.fst := ⟨_, rfl⟩
  rw [← hl]
  have hsub : l.Sublist (s.chk.due.map Prod.fst) := by
    rw [hl]
    exact List.Sublist.map _ List.filter_sublist
  have hmem : e.1 ∈ l := by
    rw [hl]
    exact List.mem_map_of_mem (List.mem_filter.2 ⟨he, decide_eq_true hed⟩)
  have hlb : ∀ t ∈ l, t < 256 := fun t ht => by
    obtain ⟨x, hx, rfl⟩ := List.mem_map.1 (hsub.subset ht)
    exact hb x hx
  refine ⟨?_, fun hc => ?_⟩
  · refine State.each_reads (fun v => mget (fun _ => 0) v.chk.count e.1) (fun _ => True) hmem trivial (fun v _ => ?_)
      (fun _ _ _ => trivial) fun v t ht hne => ?_
    · exact mget_mput_self (fun _ => 0) v.chk.count e.1 0
    · exact mget_mput_ne (fun _ => 0) v.chk.count t 0 (Ne.symm hne)
  · have hk : (u.chkJudge l).ob (K.WDG_CHK_MISSES e.1) = (s.ob (K.WDG_CHK_MISSES e.1) + 1) % 2 ^ 64 := by
      rw [State.chkJudge_misses ((nodup_keys_of_mwf hm).sublist hsub) hlb hmem (by rw [hchk]; exact hc), hpass.objects _ ?_]
      have := hb e he
      exact timeKey_wdg (by unfold K.WDG_CHK_MISSES; omega)
    exact State.each_induct (fun v => v.ob (K.WDG_CHK_MISSES e.1) = _) hk fun v t _ hv => hv

theorem State.setCmd_period {s : State} {n k v : Nat} (hk : k < 25) (h : Takes s n (K.WDG_PERIOD (k + 1)) v) :
    s.setCmd n (K.WDG_PERIOD (k + 1)) v = (s.accepted n (K.WDG_PERIOD (k + 1)) (s.valueOf (K.WDG_PERIOD (k + 1)) v)).wdgCfgApply k true
      (s.valueOf (K.WDG_PERIOD (k + 1)) v) := by
  have hs : K.WDG_PERIOD (k + 1) % 256 = k + 1 := by unfold K.WDG_PERIOD; omega
  rw [State.setCmd_observed_plain (i := 0x5001) h (by unfold K.WDG_PERIOD; omega) (by decide) (by decide) rfl, hs]
  rfl

theorem State.setCmd_wdgCfg {s : State} {n k v : Nat} (hk : k < 25) (h : Takes s n (K.WDG_CFG (k + 1)) v) :
    s.setCmd n (K.WDG_CFG (k + 1)) v = (s.accepted n (K.WDG_CFG (k + 1)) (s.valueOf (K.WDG_CFG (k + 1)) v)).wdgCfgApply k false
      (s.valueOf (K.WDG_CFG (k + 1)) v) := by
  have hs : K.WDG_CFG (k + 1) % 256 = k + 1 := by unfold K.WDG_CFG; omega
  rw [State.setCmd_observed_plain (i := 0x5000) h (by unfold K.WDG_CFG; omega) (by decide) (by decide) rfl, hs]
  rfl

theorem State.setCmd_wdgKey {s : State} {n k v : Nat} (hk : k < 25) (h : Takes s n (K.WDG_KEY (k + 1)) v) (hq : s.txnWaiting = []) :
    s.setCmd n (K.WDG_KEY (k + 1)) v = (s.accepted n (K.WDG_KEY (k + 1)) (s.valueOf (K.WDG_KEY (k + 1)) v)).wdgKey k
      (s.valueOf (K.WDG_KEY (k + 1)) v) := by
  have hs : K.WDG_KEY (k + 1) % 256 = k + 1 := by unfold K.WDG_KEY; omega
  rw [State.setCmd_observed (i := 0x5002) h (by unfold K.WDG_KEY; omega) (by decide) rfl, hs]
  have hn := (((State.txnWaiting_nil_iff s).1 hq).accepted n (K.WDG_KEY (k + 1)) (s.valueOf (K.WDG_KEY (k + 1)) v)).wdgKey k
    (s.valueOf (K.WDG_KEY (k + 1)) v)
  unfold State.when
  split
  · exact hn.settle
  · rfl

theorem State.setCmd_chkPeriod {s : State} {n k v : Nat} (hk : k < 256) (h : Takes s n (K.WDG_CHK_PERIOD k) v) :
    s.setCmd n (K.WDG_CHK_PERIOD k) v = (s.accepted n (K.WDG_CHK_PERIOD k) (s.valueOf (K.WDG_CHK_PERIOD k) v)).chkPeriodSet k
      (s.valueOf (K.WDG_CHK_PERIOD k) v) := by
  have hs : K.WDG_CHK_PERIOD k % 256 = k := by unfold K.WDG_CHK_PERIOD; omega
  rw [State.setCmd_observed_plain (i := 0x5010) h (by unfold K.WDG_CHK_PERIOD; omega) (by decide) (by decide) rfl, hs]
  rfl

/-- An accepted write leaves the watchdogs as they are until its effect. -/
theorem State.accepted_watch (s : State) (n key u k : Nat) : (s.accepted n key u).wdgCfg k = s.wdgCfg k ∧
    (s.accepted n key u).wdgEn k = s.wdgEn k ∧ (s.accepted n key u).wdgOpen k = s.wdgOpen k := by
  obtain ⟨h1, h2, -⟩ := State.wdgEn_of_ob (k := k) (s.accepted_ob n key u (K.WDG_CFG (k + 1)))
  have hwd : (s.accepted n key u).wd k = s.wd k :=
    congrArg (fun m => mget (fun _ => Wdg.init) m k) ((s.accepted_stays' n key u).keeps .wdg (by decide))
  refine ⟨h1, h2, ?_⟩
  unfold State.wdgOpen State.wdgCount State.wdgOpenAt State.wdgLimit
  rw [h2, hwd, s.accepted_ob, s.accepted_ntm]

/-- Settles O48: the writes and events of a watchdog, the clocks, and the check-ins. -/
theorem supervision : Obligations.Supervision := by
  unfold Obligations.Supervision
  refine ⟨fun s n k v hk => ⟨fun h => ?_, fun h => ?_, fun h hq => ⟨fun hv ho => ?_, fun hv hb => ?_⟩, fun hw he hl hp hq => ?_⟩,
    ⟨fun s k hw hp => ⟨fun hl hq => ?_, fun hl => ?_⟩, fun s d hd hf => ⟨fun hq => ?_, ?_⟩⟩, fun s n k v h1 hk h => ?_,
    fun s k d l hl => ⟨fun hk hp hd => ?_, fun hk => ?_⟩, ?_⟩
  · obtain ⟨h1, h2⟩ := (s.accepted n (K.WDG_PERIOD (k + 1)) (s.valueOf (K.WDG_PERIOD (k + 1)) v)).wdgCfgApply_period k
      (s.valueOf (K.WDG_PERIOD (k + 1)) v)
    exact completes_of rfl (State.setCmd_period hk h) ⟨h1, fun he => h2 ((s.accepted_watch n _ _ k).2.1.trans he)⟩
  · refine completes_of rfl (State.setCmd_wdgCfg hk h) ?_
    obtain ⟨hcount, hob⟩ := (s.accepted n (K.WDG_CFG (k + 1)) (s.valueOf (K.WDG_CFG (k + 1)) v)).wdgCfgApply_cfg k
      (s.valueOf (K.WDG_CFG (k + 1)) v)
    obtain ⟨a1, a2, -⟩ := s.accepted_watch n (K.WDG_CFG (k + 1)) (s.valueOf (K.WDG_CFG (k + 1)) v) k
    rw [a1, a2] at hob
    refine ⟨hcount, fun hno => hob.trans (if_neg fun hc => ?_), fun he hb => ?_⟩
    · rw [Bool.and_eq_true] at hc
      obtain hno | hno := hno
      · exact Bool.false_ne_true (hno.symm.trans hc.1)
      · exact Bool.false_ne_true (hno.symm.trans hc.2)
    · have hset := hob.trans (if_pos (by rw [Bool.and_eq_true]; exact ⟨he, hb⟩))
      exact (congrArg (fun x => x.testBit 3) hset).trans (testBit_putBit_self _ _ _)
  · refine completes_of rfl (State.setCmd_wdgKey hk h hq) ?_
    rw [hv]
    exact State.wdgKey_good ((s.accepted_watch n _ _ k).2.2.trans ho)
  · obtain ⟨h1, h2⟩ := State.wdgKey_bad (s := s.accepted n (K.WDG_KEY (k + 1)) (s.valueOf (K.WDG_KEY (k + 1)) v)) hv
      (by rw [(s.accepted_watch n _ _ k).1]; exact hb)
    rw [s.accepted_ob] at h2
    exact completes_of rfl (State.setCmd_wdgKey hk h hq) ⟨h1, h2⟩
  · obtain ⟨e1, e2, e3, e4, e5⟩ := State.wdgDue_expires hk he hl hp
    have hsettle : (if s.wdgWatched k = true then s.wdgDue k else s).txnSettle = s.wdgDue k := by
      rw [if_pos hw]
      exact (((State.txnWaiting_nil_iff s).1 hq).of_sess e5).settle
    exact completes_of rfl hsettle ⟨e1, e2, e3, e4⟩
  · obtain ⟨e1, e2, e3⟩ := State.clockLost_island hw hl hp
    exact completes_of rfl (((State.txnWaiting_nil_iff s).1 hq).of_sess e3).settle ⟨e1, e2⟩
  · exact completes_of rfl rfl (State.clockBack_island hw hl)
  · obtain ⟨e1, e2⟩ := State.clockLost_fabric hf
    exact completes_of rfl (((State.txnWaiting_nil_iff s).1 hq).of_sess e2).settle e1
  · exact completes_of rfl rfl (State.clockBack_fabric hf)
  · exact completes_of rfl (State.setCmd_chkPeriod hk h) ⟨State.ob_setOb_self _ _ _, mget_mput_self (fun _ => 0) _ k 0⟩
  · obtain ⟨u, hu⟩ : ∃ u, u = s.setChk fun c => { c with queue := l } := ⟨_, rfl⟩
    have hp' : u.chkPeriod k = s.chkPeriod k := by rw [hu]; rfl
    have hpast : u.chkPast = u := State.chkPast_of_before (by rw [hu]; exact hd)
    have hexec : exec .checkinArrival s = .next (u.checkIn k) := by
      rw [hu]
      exact congrArg Host.Outcome.next (by rw [hl])
    have hin : u.checkIn k = u.setChk fun c => { c with count := mput (fun _ => 0) c.count k (mget (fun _ => 0) c.count k + 1) } := by
      unfold State.checkIn
      rw [if_neg (by rw [hp']; omega), hpast]
    refine completes_of hexec hin ⟨by rw [hu]; rfl, ?_⟩
    rw [hu]
    have hone := mget_mput_self (fun _ => 0) s.chk.count k (mget (fun _ => 0) s.chk.count k + 1)
    exact hone
  · obtain ⟨u, hu⟩ : ∃ u, u = s.setChk fun c => { c with queue := l } := ⟨_, rfl⟩
    have hexec : exec .checkinArrival s = .next (u.checkIn k) := by
      rw [hu]
      exact congrArg Host.Outcome.next (by rw [hl])
    have hin : u.checkIn k = u.incOb K.WDG_CHK_STRAY := by
      unfold State.checkIn
      rw [if_pos (by rw [hu]; exact hk)]
    refine completes_of hexec hin ?_
    rw [hu]
    exact ⟨rfl, rfl, State.ob_incOb_self _ _⟩
  · intro s d hd hst _ hw hr hm hb hcfg
    exact completes_of rfl rfl fun e he hed => State.chkEnd_judged hd hst hw hr hm hb hcfg he hed

end Sys2Proof.Machine
end


section
/-! PROOF. The fault collector and the links between dies: refuted, since the fault of a load that a link loses settles a transaction
that waits for the tide to stop, and what it staged may reset the package. -/

namespace Sys2Proof.Machine

open Sys2Proof.Tests

/-- A load of core 0 in flight, the tide stopped, and a transaction still waiting for that with PWR.CMD RESET staged. -/
def resetWaiting : State :=
  asked { coreW (fun k => { k with flight := [flying] }) id with tds := { coreA.tds with st := .stopped } } fun x => { x with
    txn := .pending
    slack := true
    staged := [{ idx := 0x1200, sub := 2, width := 4, v := 1 }]
    dies := [0]
    order := 1 }

theorem linkUp_resetWaiting : (resetWaiting.linkLost 1).linkUp 1 = true := by decide +kernel

/-- Refutes O49: the link of die 1 goes down, the load's fault applies the staged reset, and the reset brings every link up. -/
theorem not_faultCollector : ¬ Obligations.FaultCollector := by
  unfold Obligations.FaultCollector
  rintro ⟨-, -, -, hlink⟩
  obtain ⟨t, ht, hdown, -⟩ := (hlink resetWaiting 1 (by decide +kernel)).1 (by decide +kernel)
  have hexec : exec (.linkDown 1) resetWaiting = .next (resetWaiting.linkLost 1) :=
    congrArg Host.Outcome.next (if_pos (by decide +kernel))
  rw [← Host.Outcome.next.inj (hexec.symm.trans ht), linkUp_resetWaiting] at hdown
  cases hdown

end Sys2Proof.Machine
end


section
/-! PROOF. Bandwidth windows, Strata and tidemarks (R499–R509, R512). -/

namespace Sys2Proof.Machine

/-! ### Accepted writes -/

theorem State.setCmd_observed_at {s : State} {n key v i sub u : Nat} (h : Takes s n key v) (hk : key / 256 = i) (hs : key % 256 = sub)
    (hi : 0x50 ≤ i / 256 ∧ i / 256 ≤ 0x55) (ho : i ≠ 0x5002) (hu : s.valueOf key v = u) :
    s.setCmd n key v = (s.accepted n key u).applyObs n i sub key u := by
  rw [State.setCmd_observed_plain h hk hi ho hu, hs]

theorem State.setCmd_bwWindow {s : State} {n v : Nat} (h : Takes s n K.PMC_BW_WINDOW v) : s.setCmd n K.PMC_BW_WINDOW v =
    (s.accepted n K.PMC_BW_WINDOW (s.valueOf K.PMC_BW_WINDOW v)).bwWindow (s.valueOf K.PMC_BW_WINDOW v) :=
  State.setCmd_observed_at (i := 0x5305) (sub := 1) h (by decide) (by decide) (by decide) (by decide) rfl

theorem State.setCmd_staCmd {s : State} {n v : Nat} (h : Takes s n K.STA_CMD v) (hv : (objRow K.STA_CMD).map (·.value v) = some v) :
    s.setCmd n K.STA_CMD v =
    if v = 1 then (s.accepted n K.STA_CMD v).strataFreeze else (s.accepted n K.STA_CMD v).strataThaw :=
  State.setCmd_observed_at (i := 0x5200) (sub := 2) h (by decide) (by decide) (by decide) (by decide) (h.value_eq hv)

theorem State.setCmd_staRaise {s : State} {n v : Nat} (h : Takes s n K.STA_RAISE v) : s.setCmd n K.STA_RAISE v =
    (s.accepted n K.STA_RAISE (s.valueOf K.STA_RAISE v)).sample
      (0x600 + ((s.accepted n K.STA_RAISE (s.valueOf K.STA_RAISE v)).ses n).raiseClass) 0 (toS 64 (s.valueOf K.STA_RAISE v)) :=
  State.setCmd_observed_at (i := 0x5204) (sub := 2) h (by decide) (by decide) (by decide) (by decide) rfl

theorem State.setCmd_snp {s : State} {n v : Nat} (h : Takes s n K.SNP_CMD v) (hv : (objRow K.SNP_CMD).map (·.value v) = some v) :
    s.setCmd n K.SNP_CMD v =
    if v = 1 then (s.accepted n K.SNP_CMD v).tidemark 2 0 0 else if v = 2 then (s.accepted n K.SNP_CMD v).snpRelease n
    else (s.accepted n K.SNP_CMD v).snpReleaseAll :=
  State.setCmd_observed_at (i := 0x5400) (sub := 2) h (by decide) (by decide) (by decide) (by decide) (h.value_eq hv)
/-! ### Bandwidth windows -/

theorem State.Passes.pmc {s t : State} (h : s.Passes t) : t.pmc = s.pmc ∧ t.sta = s.sta ∧ t.snp = s.snp := by
  rw [h.frame]
  exact ⟨rfl, rfl, rfl⟩

/-- The objects of every port at a window's end. -/
theorem State.bwPorts_ob (s : State) (w : Bw) {p : Nat} (hp : p < 18) :
    (s.each (List.range 18) fun s p => (s.setOb (K.PMC_BW_RX (p + 1)) (mget (fun _ => 0) w.rx p)).setOb (K.PMC_BW_TX (p + 1))
      (w.txBefore w.due p)).ob (K.PMC_BW_RX (p + 1)) = mget (fun _ => 0) w.rx p ∧
    (s.each (List.range 18) fun s p => (s.setOb (K.PMC_BW_RX (p + 1)) (mget (fun _ => 0) w.rx p)).setOb (K.PMC_BW_TX (p + 1))
      (w.txBefore w.due p)).ob (K.PMC_BW_TX (p + 1)) = w.txBefore w.due p := by
  have hmem : p ∈ List.range 18 := List.mem_range.2 hp
  constructor
  · refine State.each_reads (fun u => u.ob (K.PMC_BW_RX (p + 1))) (fun _ => True) hmem trivial (fun u _ => ?_) (fun _ _ _ => trivial)
      fun u q hq hne => ?_
    · exact (State.ob_setOb_ne _ _ (by unfold K.PMC_BW_RX K.PMC_BW_TX; omega)).trans (State.ob_setOb_self _ _ _)
    · have hq18 := List.mem_range.1 hq
      exact (State.ob_setOb_ne _ _ (by unfold K.PMC_BW_RX K.PMC_BW_TX; omega)).trans
        (State.ob_setOb_ne _ _ (by unfold K.PMC_BW_RX; omega))
  · refine State.each_reads (fun u => u.ob (K.PMC_BW_TX (p + 1))) (fun _ => True) hmem trivial (fun u _ => ?_) (fun _ _ _ => trivial)
      fun u q hq hne => ?_
    · exact State.ob_setOb_self _ _ _
    · have hq18 := List.mem_range.1 hq
      exact (State.ob_setOb_ne _ _ (by unfold K.PMC_BW_TX; omega)).trans
        (State.ob_setOb_ne _ _ (by unfold K.PMC_BW_RX K.PMC_BW_TX; omega))

theorem State.bwEnd_sums {s : State} {d : Nat} (hd : s.pmc.bw.due = d) (hst : s.ntm.steps = []) (hw : s.clockNs + d * 1000 < nsWrap)
    (hr : d ≤ s.us ∨ s.ns < d * 1000) : s.bwEnd.ob K.PMC_BW_END = d ∧ s.bwEnd.pmc.bw.rx = [] ∧
      s.bwEnd.pmc.bw.sent = s.pmc.bw.sent.filter (fun e => decide (d ≤ e.1)) ∧
      ∀ p < 18, s.bwEnd.ob (K.PMC_BW_RX (p + 1)) = mget (fun _ => 0) s.pmc.bw.rx p ∧
        s.bwEnd.ob (K.PMC_BW_TX (p + 1)) = s.pmc.bw.txBefore d p := by
  unfold State.bwEnd
  rw [hd]
  have hpass := s.passes_reachUs d
  have hus := State.le_us_reachUs hst hw hr
  generalize s.reachUs d = u at hpass hus
  obtain ⟨hpmc, -, -⟩ := hpass.pmc
  have hdue : u.pmc.bw.due = d := by rw [hpmc]; exact hd
  have hbw : u.pmc.bw = s.pmc.bw := congrArg Pmc.bw hpmc
  dsimp only
  rw [if_neg (by rw [hdue]; exact hus.not_gt), hdue, hbw]
  obtain ⟨x, hx⟩ : ∃ x, x = u.each (List.range 18) fun s' p =>
    (s'.setOb (K.PMC_BW_RX (p + 1)) (mget (fun _ => 0) s.pmc.bw.rx p)).setOb (K.PMC_BW_TX (p + 1)) (s.pmc.bw.txBefore d p) := ⟨_, rfl⟩
  rw [← hx]
  refine ⟨State.ob_setOb_self x _ _, rfl, rfl, fun p hp => ?_⟩
  obtain ⟨h1, h2⟩ := u.bwPorts_ob s.pmc.bw hp
  rw [hd, ← hx] at h1 h2
  exact ⟨(State.ob_setOb_ne x _ (by unfold K.PMC_BW_RX K.PMC_BW_END; omega)).trans h1,
    (State.ob_setOb_ne x _ (by unfold K.PMC_BW_TX K.PMC_BW_END; omega)).trans h2⟩

/-! ### Strata -/

theorem opensRead_strata : OpensRead K.STA_RECORD := ⟨by decide, by decide, by decide⟩

theorem State.domCapture_strata {s : State} {n : Nat} {r : SRec} (h : s.strataAt (s.ses n).cursor = some r) :
    s.domCapture n K.STA_RECORD =
      (s.setSes n { s.ses n with cursor := (r.seq + 1) % 2 ^ 32, gap := r.seq - (s.ses n).cursor }, some r.bytes) := by
  unfold State.domCapture State.strataRead
  rw [if_pos rfl]
  dsimp only
  rw [h]

theorem State.sample_opens {s : State} {cls : Nat} {v : Int} (hg : bit (s.ob (K.STA_GROUP_CFG (cls / 256 + 1))) 31 = true)
    (hf : s.sta.frozen = false) (hn : s.newestRec cls 0 = none) : ∃ r l, (s.sample cls 0 v).sta.recs = r :: l ∧ r.cls = cls ∧
      r.count = 1 ∧ r.min = v ∧ r.max = r.min ∧ (s.sample cls 0 v).sta.newest = (s.sta.newest + 1) % 2 ^ 32 := by
  unfold State.sample
  dsimp only
  rw [hg, hn, hf, if_neg (by decide), if_neg Bool.false_ne_true]
  exact ⟨_, _, rfl, rfl, rfl, rfl, rfl, rfl⟩

theorem State.strataThaw_frozen (s : State) : s.strataThaw.sta.frozen = false := by
  unfold State.strataThaw
  split
  · rfl
  next h => simpa using h

theorem State.freezeEnd_sta {s : State} (h : s.sta.frozen = true) : s.freezeEnd.sta.frozen = false ∧ s.freezeEnd.sta.expired = true := by
  obtain ⟨u, hu⟩ : ∃ u : State, s.freezeEnd = u.strataThaw.setSta fun t => { t with expired := true } := ⟨_, if_pos h⟩
  rw [hu]
  exact ⟨u.strataThaw_frozen, rfl⟩

theorem staCmd_value : ∀ v < 3, (objRow K.STA_CMD).map (·.value v) = some v := by decide
theorem snpCmd_value : ∀ v < 4, (objRow K.SNP_CMD).map (·.value v) = some v := by decide

/-! ### Tidemarks -/

theorem State.snap_putSnap (s : State) (b c : Nat) (x : Snap) : (s.putSnap b x).snap c = (if c = b then some x else s.snap c) ∧
    (s.putSnap b x).snp.busy = s.snp.busy ∧ (s.putSnap b x).objs = s.objs := by
  have hs := State.sramWrite_stays (s.setSnap b (some x)) (s.snapBase b) x.bytes (.refl _ _) (List.Subset.refl _)
  have hsnp : (s.putSnap b x).snp = (s.setSnap b (some x)).snp := hs.keeps .snp (by decide)
  have hbusy := congrArg Snp.busy hsnp
  refine ⟨?_, hbusy, hs.keeps .objs (by decide)⟩
  have hget := mget_mput (fun _ => none) s.snp.bufs b (some x) c
  exact (congrArg (fun p : Snp => mget (fun _ => none) p.bufs c) hsnp).trans hget

theorem State.lowBuf_congr {s t : State} (h : t.snp = s.snp) : t.lowBuf = s.lowBuf := by
  unfold State.lowBuf State.bufRank State.snap
  rw [h]

/-- A tidemark that finds no snapshot collecting, and need not be refused, begins one in the buffer of the lowest SEQ. -/
theorem State.tidemark_begins {s : State} (src cls fold : Nat) (hb : s.snp.busy = none) (hc : bit (s.ob K.SNP_CFG) 2 = false) :
    (s.tidemark src cls fold).snp.busy = some s.lowBuf ∧
      (s.tidemark src cls fold).ob K.SNP_FIRED = (s.ob K.SNP_FIRED + 1) % 2 ^ 64 ∧
      (s.tidemark src cls fold).ob K.SNP_SEQ = (s.ob K.SNP_SEQ + 1) % 2 ^ 32 ∧
      (s.tidemark src cls fold).ob K.SNP_AT = s.ob K.SNP_AT := by
  have hstart : s.tidemark src cls fold = s.tidemarkStart src cls fold := by
    unfold State.tidemark
    rw [hb]
    dsimp only
    rw [hc, Bool.false_and, if_neg Bool.false_ne_true]
  rw [hstart]
  unfold State.tidemarkStart
  extract_lets seq b x u v
  obtain ⟨-, h2, h3⟩ := v.snap_putSnap b b x
  have hbusy : v.snp.busy = some b := rfl
  have hv : v.objs = u.objs := rfl
  have hfired : u.ob K.SNP_FIRED = (s.ob K.SNP_FIRED + 1) % 2 ^ 64 := by
    unfold u
    rw [State.ob_incOb_self, State.ob_setOb_ne _ _ (by decide)]
  have hseq : u.ob K.SNP_SEQ = seq := by
    unfold u
    rw [State.ob_incOb_ne _ (by decide), State.ob_setOb_self]
  have hat : u.ob K.SNP_AT = s.ob K.SNP_AT := by
    unfold u
    rw [State.ob_incOb_ne _ (by decide), State.ob_setOb_ne _ _ (by decide)]
  clear_value v u
  have ho := State.ob_of_objs (h3.trans hv)
  exact ⟨h2.trans hbusy, (ho _).trans hfired, (ho _).trans hseq, (ho _).trans hat⟩

theorem State.when_incOb_snp (s : State) (c : Bool) (k : Nat) : (s.when c fun u => u.incOb k).snp = s.snp := by
  cases c
  · rfl
  · exact (State.incOb_stays s k (.refl s _) (List.Subset.refl _)).keeps .snp (by decide)

theorem State.snapCheck_eq {s : State} {b : Nat} {x : Snap} (hs : s.snap b = some x) : s.snapCheck b =
    if x.acked ||| x.gone = x.expect then
      ((s.putSnap b { x with held := true }).setSnp fun p => { p with busy := none }).when x.incomplete fun s => s.incOb K.SNP_INCOMPLETE
    else s := by
  unfold State.snapCheck
  rw [hs]

/-- The check for completeness: the snapshot is held, and none collects any more, or nothing changes. -/
theorem State.snapCheck_held {s : State} {b : Nat} {x : Snap} (hs : s.snap b = some x) (hb : s.snp.busy = some b) :
    ∃ y, (s.snapCheck b).snap b = some y ∧ y.acked = x.acked ∧ (y.held = true ↔ (s.snapCheck b).snp.busy = none ∨ x.held = true) := by
  rw [State.snapCheck_eq hs]
  by_cases hc : x.acked ||| x.gone = x.expect
  · rw [if_pos hc]
    obtain ⟨h1, -, -⟩ := s.snap_putSnap b b { x with held := true }
    rw [if_pos rfl] at h1
    generalize s.putSnap b { x with held := true } = u at h1
    have hsnp := (u.setSnp fun p => { p with busy := none }).when_incOb_snp x.incomplete K.SNP_INCOMPLETE
    generalize (u.setSnp fun p => { p with busy := none }).when x.incomplete (fun s => s.incOb K.SNP_INCOMPLETE) = v at hsnp
    refine ⟨{ x with held := true }, ?_, rfl, iff_of_true rfl (.inl ?_)⟩
    · unfold State.snap
      rw [hsnp]
      exact h1
    · rw [hsnp]
      rfl
  · rw [if_neg hc]
    refine ⟨x, hs, rfl, ?_⟩
    rw [hb]
    simp

theorem State.freeBuf_snap (s : State) (b c : Nat) : (s.freeBuf b).snap c = s.snap c ∨ (c = b ∧ (s.freeBuf b).snap c = none) := by
  unfold State.freeBuf
  split
  · split
    · by_cases hc : c = b
      · subst hc
        exact .inr ⟨rfl, mget_mput_self (fun _ => none) s.snp.bufs c none⟩
      · exact .inl (mget_mput_ne (fun _ => none) s.snp.bufs b none hc)
    · exact .inl rfl
  · exact .inl rfl

theorem State.freeBuf_held (s : State) (b : Nat) : ∀ x, (s.freeBuf b).snap b = some x → x.held = false := by
  intro x hx
  unfold State.freeBuf at hx
  split at hx
  next y hy =>
    split at hx
    · have hnone := mget_mput_self (fun _ => none) s.snp.bufs b (none : Option Snap)
      exact absurd (hnone.symm.trans hx) (by simp)
    next hh =>
      rw [hy] at hx
      cases hx
      simpa using hh
  next hn =>
    rw [hn] at hx
    cases hx

/-- RELEASE_ALL leaves no held snapshot. -/
theorem State.snpReleaseAll_held (s : State) {b : Nat} (hb : b < 4) : ∀ x, s.snpReleaseAll.snap b = some x → x.held = false := by
  have key : ∀ (l : List Nat) (u : State), b ∈ l ∨ (∀ x, u.snap b = some x → x.held = false) →
      ∀ x, (u.each l State.freeBuf).snap b = some x → x.held = false := by
    intro l
    induction l with
    | nil => exact fun u h => h.resolve_left List.not_mem_nil
    | cons c l ih =>
      intro u h
      refine ih (u.freeBuf c) ?_
      by_cases hc : b = c
      · subst hc
        exact .inr (u.freeBuf_held b)
      · obtain hm | hu := h
        · exact .inl ((List.mem_cons.1 hm).resolve_left hc)
        · refine .inr fun x hx => hu x ?_
          obtain h1 | ⟨h1, -⟩ := u.freeBuf_snap c b
          · exact h1.symm.trans hx
          · exact absurd h1 hc
  exact key _ s (.inl (List.mem_range.2 hb))

theorem State.held_of_bufOf {s : State} {seq b : Nat} (h : s.bufOf seq = some b) : ∃ x, s.snap b = some x ∧ x.held = true := by
  have hf := List.find?_some h
  split at hf
  next x hx => exact ⟨x, hx, (Bool.and_eq_true_iff.1 hf).1⟩
  · cases hf

theorem State.sectionIn_eq {s : State} {b d i : Nat} {x : Snap} (hb : s.snp.busy = some b) (hx : s.snap b = some x) (hw : x.waits d = true)
    (hl : s.linkUp d = true) (hi : (x.sections.any fun c => decide (c.die = d) && decide (c.island = i)) = false) (content : List Byte) :
    s.sectionIn d i content = s.putSnap b { x with sections := x.sections ++ [{ die := d, island := i, bytes := content }] } := by
  unfold State.sectionIn
  rw [hb]
  dsimp only
  rw [hx]
  dsimp only
  rw [hw, hl, hi]
  rfl

/-- RELEASE of a snapshot that is held. -/
theorem State.snpRelease_snap {s : State} {n b : Nat} (h : s.bufOf (s.ses n).snpSel = some b) :
    (s.snpRelease n).snap b = none ∧ ∀ c, c ≠ b → (s.snpRelease n).snap c = s.snap c := by
  obtain ⟨x, hx, hh⟩ := State.held_of_bufOf h
  have hrel : s.snpRelease n = s.setSnap b none := by
    unfold State.snpRelease State.freeBuf
    rw [h]
    dsimp only
    rw [hx]
    exact if_pos hh
  rw [hrel]
  exact ⟨mget_mput_self (fun _ => none) s.snp.bufs b none, fun c hc => mget_mput_ne (fun _ => none) s.snp.bufs b none hc⟩

/-- Settles O50: the windows, the records, and the snapshots. -/
theorem observation : Obligations.Observation := by
  unfold Obligations.Observation
  refine ⟨⟨?_, ?_⟩, ⟨?_, fun s n => ⟨?_, ?_, ?_⟩, ?_⟩, fun s hb hc => ⟨?_, ?_, ?_⟩, fun s b x d hb hx hw hl => ⟨?_, ?_⟩,
    fun s n => ⟨?_, ?_⟩, ?_⟩
  · intro s d hd hst _ hw hr
    exact completes_of rfl rfl (State.bwEnd_sums hd hst hw hr)
  · intro s n v h
    refine completes_of rfl (State.setCmd_bwWindow h) ⟨State.ob_setOb_self _ _ _, rfl, ?_, ?_⟩
    · intro e he
      have hus : (s.accepted n K.PMC_BW_WINDOW (s.valueOf K.PMC_BW_WINDOW v)).us = s.us := congrArg Ntm.usec (s.accepted_ntm n _ _)
      have := (List.mem_filter.1 he).2
      rw [← hus]
      exact of_decide_eq_true this
    · exact congrArg (fun t : Ntm => nextMultiple (s.valueOf K.PMC_BW_WINDOW v) t.usec) (s.accepted_ntm n _ _)
  · intro s n r h hr
    refine completes_of rfl (State.openDomain_of_opens h opensRead_strata) ?_
    have hses := s.ses_setResult_self n K.DIC_DOM_OPEN stOK rNONE 0
    have hr' : (s.setResult n K.DIC_DOM_OPEN stOK rNONE 0).strataAt ((s.setResult n K.DIC_DOM_OPEN stOK rNONE 0).ses n).cursor = some r := by
      rw [hses]
      exact hr
    rw [State.domCapture_strata hr', State.ses_modSes_self, State.ses_setSes, if_pos rfl]
    exact ⟨rfl, _, rfl, rfl⟩
  · intro h
    refine completes_of rfl ((State.setCmd_staCmd h (staCmd_value 1 (by decide))).trans (if_pos rfl)) ⟨rfl, ?_⟩
    have hsta : (s.accepted n K.STA_CMD 1).sta = s.sta := (s.accepted_stays' n K.STA_CMD 1).keeps .sta (by decide)
    have hrecs := congrArg Sta2.recs hsta
    exact hrecs
  · intro h
    exact completes_of rfl ((State.setCmd_staCmd h (staCmd_value 2 (by decide))).trans (if_neg (by decide)))
      (State.strataThaw_frozen _)
  · intro v h hg hf hrc hn
    refine completes_of rfl (State.setCmd_staRaise h) ?_
    obtain ⟨r, c, hses⟩ := s.ses_accepted n K.STA_RAISE (s.valueOf K.STA_RAISE v) n
    have hsta : (s.accepted n K.STA_RAISE (s.valueOf K.STA_RAISE v)).sta = s.sta := (s.accepted_stays' n K.STA_RAISE _).keeps .sta (by decide)
    have hob := s.accepted_ob n K.STA_RAISE (s.valueOf K.STA_RAISE v)
    obtain ⟨u, hu⟩ : ∃ u, u = s.accepted n K.STA_RAISE (s.valueOf K.STA_RAISE v) := ⟨_, rfl⟩
    rw [← hu] at hses hsta hob ⊢
    have hclass : (u.ses n).raiseClass = (s.ses n).raiseClass := by rw [hses]
    have hgroup : (0x600 + (s.ses n).raiseClass) / 256 + 1 = 7 := by omega
    have := State.sample_opens (s := u) (cls := 0x600 + (s.ses n).raiseClass) (v := toS 64 (s.valueOf K.STA_RAISE v))
      (by rw [hgroup, hob]; exact hg) (by rw [hsta]; exact hf) (by unfold State.newestRec; rw [hsta]; exact hn)
    rw [hsta] at this
    obtain ⟨q, l, h1, h2, h3, h4, h5, h6⟩ := this
    rw [hclass]
    exact ⟨q, l, h1, h2, h3, h4, h5, h6⟩
  · intro s hf
    exact completes_of rfl rfl (State.freezeEnd_sta hf)
  · intro n h
    refine completes_of rfl ((State.setCmd_snp h (snpCmd_value 1 (by decide))).trans (if_pos rfl)) ?_
    have hsnp : (s.accepted n K.SNP_CMD 1).snp = s.snp := (s.accepted_stays' n K.SNP_CMD 1).keeps .snp (by decide)
    have hob := s.accepted_ob n K.SNP_CMD 1
    obtain ⟨u, hu⟩ : ∃ u, u = s.accepted n K.SNP_CMD 1 := ⟨_, rfl⟩
    rw [← hu] at hsnp hob ⊢
    obtain ⟨h1, h2, h3, -⟩ := State.tidemark_begins (s := u) 2 0 0 (by rw [hsnp]; exact hb) (by rw [hob]; exact hc)
    rw [hob] at h2 h3
    rw [State.lowBuf_congr hsnp] at h1
    exact ⟨h1, h2, h3⟩
  · intro hi
    obtain ⟨h1, h2, -, -⟩ := State.tidemark_begins (s := s) 3 0 0 hb hc
    exact completes_of rfl (if_pos hi) ⟨h1, h2⟩
  · intro ha hst h64 hw
    have hpass := s.passes_reach (s.ob K.SNP_AT)
    have hns := State.le_ns_reach hst h64 (show s.clockNs + (s.ob K.SNP_AT - s.ns) < nsWrap by omega)
    obtain ⟨u, hu⟩ : ∃ u, u = s.reach (s.ob K.SNP_AT) := ⟨_, rfl⟩
    rw [← hu] at hpass hns
    obtain ⟨-, -, hsnp⟩ := hpass.pmc
    have hexec : exec .snpAtReached s = .next ((u.setOb K.SNP_AT 0).tidemark 4 0 0) := by
      rw [hu]
      exact congrArg Host.Outcome.next (if_neg (by rw [← hu]; omega))
    obtain ⟨h1, h2, -, h4⟩ := State.tidemark_begins (s := u.setOb K.SNP_AT 0) 4 0 0 (by rw [← hb]; exact congrArg Snp.busy hsnp)
      (by rw [State.ob_setOb_ne _ _ (by decide), hpass.objects _ (by decide)]; exact hc)
    rw [State.ob_setOb_ne _ _ (by decide), hpass.objects _ (by decide)] at h2
    rw [State.ob_setOb_self] at h4
    rw [State.lowBuf_congr (t := s) (s := u.setOb K.SNP_AT 0) hsnp.symm] at *
    exact completes_of hexec rfl ⟨h1, h4, h2⟩
  · intro i hi
    obtain ⟨c, hc⟩ : ∃ c : Section, c = { die := d, island := i, bytes := Config.sectionBytes d i (s.islandValues d i) } := ⟨_, rfl⟩
    have hin : s.sectionIn d i (Config.sectionBytes d i (s.islandValues d i)) = s.putSnap b { x with sections := x.sections ++ [c] } := by
      rw [hc]
      exact State.sectionIn_eq hb hx hw hl hi _
    refine completes_of rfl hin ⟨{ x with sections := x.sections ++ [c] }, c, ?_, rfl, by rw [hc], by rw [hc]⟩
    exact (s.snap_putSnap b b _).1.trans (if_pos rfl)
  · have hack : s.tidemarkAck d = (s.putSnap b { x with acked := putBit x.acked d true }).snapCheck b := by
      unfold State.tidemarkAck
      rw [hb]
      dsimp only
      rw [hx]
      dsimp only
      rw [hw, hl]
      rfl
    obtain ⟨h1, h2, -⟩ := s.snap_putSnap b b { x with acked := putBit x.acked d true }
    obtain ⟨y, hy, ha, hh⟩ := State.snapCheck_held (h1.trans (if_pos rfl)) (h2.trans hb)
    refine completes_of rfl hack ⟨y, hy, ?_, hh⟩
    rw [ha]
    exact testBit_putBit_self _ _ _
  · intro b h hb
    refine completes_of rfl ((State.setCmd_snp h (snpCmd_value 2 (by decide))).trans ((if_neg (by decide)).trans (if_pos rfl))) ?_
    obtain ⟨r, c, hses⟩ := s.ses_accepted n K.SNP_CMD 2 n
    have hsnp : (s.accepted n K.SNP_CMD 2).snp = s.snp := (s.accepted_stays' n K.SNP_CMD 2).keeps .snp (by decide)
    obtain ⟨u, hu⟩ : ∃ u, u = s.accepted n K.SNP_CMD 2 := ⟨_, rfl⟩
    rw [← hu] at hses hsnp ⊢
    have hsel : (u.ses n).snpSel = (s.ses n).snpSel := by rw [hses]
    have hsnap : ∀ c, u.snap c = s.snap c := fun c => by
      unfold State.snap
      rw [hsnp]
    obtain ⟨h1, h2⟩ := State.snpRelease_snap (s := u) (n := n) (b := b) (by
      rw [hsel]
      unfold State.bufOf
      simp only [hsnap]
      exact hb)
    exact ⟨h1, fun c hc => (h2 c hc).trans (hsnap c)⟩
  · intro h
    exact completes_of rfl ((State.setCmd_snp h (snpCmd_value 3 (by decide))).trans ((if_neg (by decide)).trans (if_neg (by decide))))
      fun b hb => State.snpReleaseAll_held _ hb
  · exact fun s => completes_of rfl rfl rfl

end Sys2Proof.Machine
end


section
/-! SUPPORT. How an issued instruction ends, whatever its body did (R87, R97): the registers of its context, and what of the machine
its end leaves alone. -/

namespace Sys2Proof.Machine

/-! ### What a body does -/

/-- A body made y of context g, and left every other context as it was. -/
structure State.Acts (s : State) (g : Nat) (y : Ctx) (v : State) : Prop where
  self : v.ctx g = y
  others : ∀ k, k ≠ g → v.ctx k = s.ctx k

theorem State.Acts.refl (s : State) (g : Nat) : s.Acts g (s.ctx g) s := ⟨rfl, fun _ _ => rfl⟩

theorem State.Acts.of_ctxs {s u v : State} {g : Nat} {y : Ctx} (h : s.Acts g y u) (hc : v.ctxs = u.ctxs) : s.Acts g y v :=
  ⟨(State.ctx_of_ctxs hc g).trans h.self, fun k hk => (State.ctx_of_ctxs hc k).trans (h.others k hk)⟩

theorem State.Acts.modCtx {s v : State} {g : Nat} {y : Ctx} (h : s.Acts g y v) (w : Ctx → Ctx) : s.Acts g (w y) (v.modCtx g w) :=
  ⟨(State.ctx_modCtx_self v g w).trans (congrArg w h.self), fun k hk => (State.ctx_modCtx_of_ne v w hk).trans (h.others k hk)⟩

/-- A body changed no byte of memory and no object but core c's count of corrected errors. -/
structure State.Spares (s : State) (c : Nat) (v : State) : Prop where
  mem : v.mem = s.mem
  objects : ∀ k, k ≠ K.CPU_ECC_CORR (c + 1) → v.ob k = s.ob k

theorem State.Spares.refl (s : State) (c : Nat) : s.Spares c s := ⟨rfl, fun _ _ => rfl⟩

theorem State.Spares.trans {s u v : State} {c : Nat} (h : s.Spares c u) (k : u.Spares c v) : s.Spares c v :=
  ⟨k.mem.trans h.mem, fun n hn => (k.objects n hn).trans (h.objects n hn)⟩

theorem State.Spares.of_eq {s u v : State} {c : Nat} (h : s.Spares c u) (hm : v.mem = u.mem) (ho : v.objs = u.objs) : s.Spares c v :=
  h.trans ⟨hm, fun k _ => State.ob_of_objs ho k⟩

theorem State.Spares.modCtx {s v : State} {c : Nat} (h : s.Spares c v) (g : Nat) (w : Ctx → Ctx) : s.Spares c (v.modCtx g w) :=
  h.of_eq rfl rfl

theorem State.Reads.acts {s t : State} {c : Nat} (h : s.Reads c t) (g : Nat) : s.Acts g (s.ctx g) t :=
  (State.Acts.refl s g).of_ctxs h.ctxs

theorem State.Reads.spares {s t : State} {c : Nat} (h : s.Reads c t) : s.Spares c t := ⟨h.mem, h.objects⟩

/-! ### What the end of an instruction leaves -/

/-- The contexts' registers of every context but g. -/
def State.OthersAs (s : State) (g : Nat) (t : State) : Prop :=
  ∀ h, h ≠ g → ∀ r, (t.ctx h).gr r = (s.ctx h).gr r ∧ (t.ctx h).fr r = (s.ctx h).fr r ∧ (t.ctx h).sreg r = (s.ctx h).sreg r

/-- State t ends an instruction of context g whose body left state v, with context y: the STATUS bits raised, PC, and what was left. -/
structure State.Ended (s v : State) (g : Nat) (y : Ctx) (pc : Word) (raised : Nat) (t : State) : Prop where
  general : ∀ r, (t.ctx g).gr r = y.gr r
  float : ∀ r, (t.ctx g).fr r = y.fr r
  special : ∀ r, r ≠ 1 → (t.ctx g).sreg r = y.sreg r
  status : (t.ctx g).sreg 1 = y.sreg 1 ||| BitVec.ofNat 32 raised
  pc : (t.ctx g).pc = pc
  wait : (t.ctx g).wait = y.wait
  others : s.OthersAs g t
  stays : t.Stays [.ctxs] v

theorem Ctx.SameButState.wait {x y : Ctx} (h : x.SameButState y) : x.wait = y.wait := by rw [h]

section
variable {s s1 : State} {c g : Nat} {e : Enc} {f : Form} {x : Ctx}

theorem Issues.core_eq (h : Issues s c e f g s1 x) : g / 16 = c ∧ ∃ n < 16, g = 16 * c + n := by
  have hr := h.running
  unfold State.issuer at hr
  split at hr
  · cases hr
  · have hm := List.mem_of_find?_eq_some hr
    obtain ⟨n, hn, rfl⟩ := List.mem_map.1 hm
    exact ⟨by have := List.mem_range.1 hn; omega, n, List.mem_range.1 hn, rfl⟩

theorem Issues.stays (h : Issues s c e f g s1 x) : s1.Stays [.ctxs, .cores, .objs, .fresh] s := by
  obtain ⟨b, hb⟩ := h.fetched
  have := State.fetchBytes_stays (s.landCtx g) c x.pc.toNat (f.length e)
    (State.landCtx_stays s g (.refl s [.ctxs, .cores, .objs, .fresh]) (by decide)) (by decide)
  rwa [hb] at this

/-- The end of an instruction or of an iteration, which leaves in context g what after says and may take up another context. -/
theorem Issues.ended (h : Issues s c e f g s1 x) {v t : State} {y : Ctx} (ha : s1.Acts g y v) {opens last : Bool} {pc0 pc : Word}
    {raised : Nat} (hown : (t.ctx g).SameButState (y.after e opens last pc0 pc raised))
    (hothers : ∀ k, k ≠ g → (t.ctx k).SameButState (v.ctx k)) (hs : t.Stays [.ctxs] v) : s.Ended v g y pc raised t where
  general := hown.gr
  float := hown.fr
  special r hr := (hown.sreg r).trans ((Ctx.sreg_after y e opens last pc0 pc raised r).trans (if_neg hr))
  status := (hown.sreg 1).trans ((Ctx.sreg_after y e opens last pc0 pc raised 1).trans (if_pos rfl))
  pc := hown.pc
  wait := hown.wait
  others k hk r := by
    have hk' := hothers k hk
    rw [ha.others k hk, h.ctx_others hk] at hk'
    exact ⟨hk'.gr r, hk'.fr r, hk'.sreg r⟩
  stays := hs

/-- An issued instruction that completes without a trap ends as its body left its context. -/
theorem Issues.completes_ended (h : Issues s c e f g s1 x) {i : Instr} {body : State → Nat → Ctx → Word → Res}
    (hi : exec i s = .next (s.issue c e f body)) {v : State} {y : Ctx} (ha : s1.Acts g y v) {pc : Word} {raised : Nat}
    (hb : body s1 g x (x.nextPc f e) = .next v pc raised none) (hcs : y.cs = .running) (ht : y.trapOf raised = none) :
    Completes i s fun t => s.Ended v g y pc raised t := by
  obtain ⟨u, hu⟩ : ∃ u, u = v.modCtx g fun z => z.after e (e.npb && !x.rep) true x.pc pc raised := ⟨_, rfl⟩
  have hself : u.ctx g = y.after e (e.npb && !x.rep) true x.pc pc raised := by
    rw [hu, State.ctx_modCtx_self, ha.self]
  have hend : v.complete g e (e.npb && !x.rep) x.pc pc raised none = if e.npe then u.resched (g / 16) else u := by
    rw [hu]
    refine State.complete_of_no_trap ?_ ?_
    · rw [ha.self, hcs]
      decide
    · rw [ha.self, Ctx.trapOf_after, ht]
  have hfin := State.rescheduled_ite u e.npe (g / 16)
  have hstay : (if e.npe then u.resched (g / 16) else u).Stays [.ctxs] v := by
    have h0 : u.Stays [.ctxs] v := by
      rw [hu]
      exact State.modCtx_stays v g _ (.refl v _) (List.Subset.refl _)
    split
    · exact State.resched_stays u _ h0 (List.Subset.refl _)
    · exact h0
  refine ⟨_, ?_, h.ended (t := if e.npe then u.resched (g / 16) else u) ha (by rw [← hself]; exact hfin.ctx g) (fun k hk => ?_) hstay⟩
  · rw [hi, State.issue_of_issues h, hb]
    exact congrArg _ hend
  · have := hfin.ctx k
    rwa [hu, State.ctx_modCtx_of_ne _ _ hk, ← hu] at this

/-- An iteration with more to come leaves PC at the instruction (R87). -/
theorem Issues.completes_again (h : Issues s c e f g s1 x) {i : Instr} {body : State → Nat → Ctx → Word → Res}
    (hi : exec i s = .next (s.issue c e f body)) {v : State} {y : Ctx} (ha : s1.Acts g y v)
    (hb : body s1 g x (x.nextPc f e) = .again v) (hcs : y.cs = .running) :
    Completes i s fun t => s.Ended v g y x.pc 0 t := by
  have hown : ((v.modCtx g fun z => z.after e (e.npb && !x.rep) false x.pc x.pc 0).ctx g).SameButState
      (y.after e (e.npb && !x.rep) false x.pc x.pc 0) := by
    rw [State.ctx_modCtx_self, ha.self]
    exact .refl _
  refine ⟨v.modCtx g fun z => z.after e (e.npb && !x.rep) false x.pc x.pc 0, ?_, h.ended ha hown (fun k hk => ?_)
    (State.modCtx_stays v g _ (.refl v _) (List.Subset.refl _))⟩
  · rw [hi, State.issue_of_issues h, hb]
    refine congrArg _ (if_neg ?_)
    rw [ha.self, hcs]
    decide
  · rw [State.ctx_modCtx_of_ne _ _ hk]
    exact .refl _

theorem State.Ended.mem {v t : State} {y : Ctx} {pc : Word} {raised : Nat} (h : s.Ended v g y pc raised t) : t.mem = v.mem :=
  h.stays.keeps .mem (by decide)

theorem State.Ended.objs {v t : State} {y : Ctx} {pc : Word} {raised : Nat} (h : s.Ended v g y pc raised t) : t.objs = v.objs :=
  h.stays.keeps .objs (by decide)

theorem State.Ended.core {v t : State} {y : Ctx} {pc : Word} {raised : Nat} (h : s.Ended v g y pc raised t) (k : Nat) :
    t.core k = v.core k := by
  have hc : t.cores = v.cores := h.stays.keeps .cores (by decide)
  unfold State.core
  rw [hc]

theorem Issues.byte_of_ended (h : Issues s c e f g s1 x) {v t : State} {y : Ctx} {pc : Word} {raised : Nat} (hs : s1.Spares c v)
    (he : s.Ended v g y pc raised t) (a : Nat) : t.byte a = s.byte a :=
  (State.byte_of_mem (he.mem.trans hs.mem) a).trans (h.byte a)

theorem Issues.ob_of_ended (h : Issues s c e f g s1 x) {v t : State} {y : Ctx} {pc : Word} {raised : Nat} (hs : s1.Spares c v)
    (he : s.Ended v g y pc raised t) (k : Nat) (hk : k ≠ K.CPU_ECC_CORR (c + 1)) : t.ob k = s.ob k :=
  (State.ob_of_objs he.objs k).trans ((hs.objects k hk).trans (h.objects k hk))

/-- An instruction whose body changed general registers alone. -/
theorem Issues.regsOnly (h : Issues s c e f g s1 x) {v t : State} {y : Ctx} {pc : Word} {raised : Nat} (hs : s1.Spares c v)
    (he : s.Ended v g y pc raised t) (hy : y.SameButGeneral x) : RegsOnly s c g x y.gr t where
  general := he.general
  float r := (he.float r).trans (hy.fr r)
  special r hr := (he.special r hr).trans (hy.sreg r)
  others := he.others
  memory := h.byte_of_ended hs he
  objects := h.ob_of_ended hs he

/-- An instruction whose body changed floating-point registers alone. -/
theorem Issues.floatOnly (h : Issues s c e f g s1 x) {v t : State} {y : Ctx} {pc : Word} {raised : Nat} (hs : s1.Spares c v)
    (he : s.Ended v g y pc raised t) (hg : ∀ r, y.gr r = x.gr r) (hr : ∀ r, y.sreg r = x.sreg r) : FloatOnly s c g x y.fr t where
  general r := (he.general r).trans (hg r)
  float := he.float
  special r hr1 := (he.special r hr1).trans (hr r)
  others := he.others
  memory := h.byte_of_ended hs he
  objects := h.ob_of_ended hs he

theorem Issues.acts (h : Issues s c e f g s1 x) : s1.Acts g x s1 := h.ctx_self ▸ State.Acts.refl s1 g

theorem Issues.acts_reads (h : Issues s c e f g s1 x) {s2 : State} (hr : s1.Reads c s2) : s1.Acts g x s2 :=
  h.ctx_self ▸ hr.acts g

end

theorem Ctx.SameButGeneral.refl (x : Ctx) : x.SameButGeneral x := rfl

theorem Ctx.SameButGeneral.trans {x y z : Ctx} (h : x.SameButGeneral y) (k : y.SameButGeneral z) : x.SameButGeneral z := by
  unfold Ctx.SameButGeneral at *
  rw [h, k]

end Sys2Proof.Machine
end


section
/-! PROOF. Floating-point instructions (R118–R121). -/

namespace Sys2Proof.Machine

theorem Ctx.fr_setF (x : Ctx) (n : Nat) (v : DWord) : (x.setF n v).fr = fun r => if r = n then v else x.fr r :=
  funext fun r => mget_mput _ _ _ _ r

section
variable {s s1 : State} {c g : Nat} {e : Enc} {f : Form} {x : Ctx}

/-- An instruction that puts a result into fa, raising no trap. -/
theorem Issues.completes_float (h : Issues s c e f g s1 x) {i : Instr} {body : State → Nat → Ctx → Word → Res}
    (hi : exec i s = .next (s.issue c e f body)) {r : Nat × Nat} (hb : body s1 g x (x.nextPc f e) = s1.fresult g e.ra (x.nextPc f e) r)
    (ht : x.trapOf r.2 = none) :
    Completes i s fun t => FloatOnly s c g x (fun n => if n = e.ra then BitVec.ofNat 64 r.1 else x.fr n) t ∧
      (t.ctx g).sreg 1 = x.sreg 1 ||| BitVec.ofNat 32 r.2 ∧ (t.ctx g).pc = x.nextPc f e := by
  have ha := h.acts.modCtx fun y => y.setF e.ra (BitVec.ofNat 64 r.1)
  obtain ⟨t, hx, he⟩ := h.completes_ended hi ha hb h.cs_running ht
  refine ⟨t, hx, ?_, he.status, he.pc⟩
  rw [← Ctx.fr_setF]
  exact h.floatOnly ((State.Spares.refl s1 c).modCtx g _) he (fun _ => rfl) fun _ => rfl

/-- A change of fb's bits raises no flag (R120). -/
theorem Issues.completes_floatBits (h : Issues s c e f g s1 x) {i : Instr} {op : Fmt → Nat → Nat}
    (hi : exec i s = .next (s.floatBits c e f op)) {v : DWord} (hv : BitVec.ofNat 64 (op (fmtOf e) (x.fr e.rb).toNat) = v) :
    Completes i s fun t => FloatOnly s c g x (fun n => if n = e.ra then v else x.fr n) t ∧
      (t.ctx g).sreg 1 = x.sreg 1 ∧ (t.ctx g).pc = x.nextPc f e := by
  obtain ⟨t, hx, ho, hs, hp⟩ := h.completes_float (r := (op (fmtOf e) (x.fr e.rb).toNat, 0)) hi rfl x.trapOf_zero
  rw [← hv]
  exact ⟨t, hx, ho, hs.trans BitVec.or_zero, hp⟩

/-- An instruction that puts a 32-bit result into ra, raising no trap. -/
theorem Issues.completes_word (h : Issues s c e f g s1 x) {i : Instr} {body : State → Nat → Ctx → Word → Res}
    (hi : exec i s = .next (s.issue c e f body)) {s2 : State} (hr : s1.Reads c s2) {v raised : Nat}
    (hb : body s1 g x (x.nextPc f e) = .next (s2.modCtx g fun y => y.setG e.ra (BitVec.ofNat 32 v)) (x.nextPc f e) raised none)
    (ht : x.trapOf raised = none) :
    Completes i s fun t => RegsOnly s c g x (x.grAfter false e.ra v) t ∧ (t.ctx g).sreg 1 = x.sreg 1 ||| BitVec.ofNat 32 raised ∧
      (t.ctx g).pc = x.nextPc f e := by
  have := h.completes_write hi hr hb (Ctx.sameButGeneral_setG x e.ra (BitVec.ofNat 32 v)) ht
  rwa [show (x.setG e.ra (BitVec.ofNat 32 v)).gr = x.grAfter false e.ra v from funext (Ctx.gr_setG_eq_grAfter x e.ra v)] at this

end

/-! ### Bits of a value -/

/-- Bit n of a number below 2^(n+1) turned round. -/
theorem putBit_not (u n : Nat) : putBit u n (!u.testBit n) = u ^^^ 2 ^ n := by
  refine Nat.eq_of_testBit_eq fun i => ?_
  by_cases hi : i = n
  · subst hi
    rw [testBit_putBit_self, Nat.testBit_xor, Nat.testBit_two_pow_self, Bool.xor_true]
  · rw [testBit_putBit_ne _ _ hi, Nat.testBit_xor, Nat.testBit_two_pow_of_ne (Ne.symm hi), Bool.xor_false]

theorem putBit_false_mod (v n : Nat) : putBit (v % 2 ^ (n + 1)) n false = v % 2 ^ n := by
  refine Nat.eq_of_testBit_eq fun i => ?_
  by_cases hi : i = n
  · subst hi
    rw [testBit_putBit_self, Nat.testBit_mod_two_pow]
    simp
  · rw [testBit_putBit_ne _ _ hi, Nat.testBit_mod_two_pow, Nat.testBit_mod_two_pow]
    congr 1
    rw [decide_eq_decide]
    omega

theorem fneg_bits (wide : Bool) (v : DWord) (m : Fmt) (hm : m.p + m.w = if wide then 64 else 32) :
    BitVec.ofNat 64 (putBit (v.toNat % 2 ^ (m.p + m.w)) (m.p + m.w - 1) (!(v.toNat % 2 ^ (m.p + m.w)).testBit (m.p + m.w - 1))) =
      if wide then v ^^^ (1 <<< 63) else (v.setWidth 32 ^^^ (1 <<< 31)).setWidth 64 := by
  rw [putBit_not, hm]
  refine BitVec.eq_of_toNat_eq ?_
  cases wide with
  | true =>
    rw [if_pos rfl, if_pos rfl, BitVec.toNat_ofNat, BitVec.toNat_xor, Nat.mod_eq_of_lt (a := v.toNat) v.isLt]
    exact Nat.mod_eq_of_lt (Nat.xor_lt_two_pow v.isLt (by decide))
  | false =>
    rw [if_neg Bool.false_ne_true, if_neg Bool.false_ne_true, BitVec.toNat_ofNat, BitVec.toNat_setWidth, BitVec.toNat_xor,
      BitVec.toNat_setWidth]
    rfl

theorem fabs_bits (wide : Bool) (v : DWord) (m : Fmt) (hm : m.p + m.w = if wide then 64 else 32) :
    BitVec.ofNat 64 (putBit (v.toNat % 2 ^ (m.p + m.w)) (m.p + m.w - 1) false) =
      if wide then (v.setWidth 63).setWidth 64 else (v.setWidth 31).setWidth 64 := by
  refine BitVec.eq_of_toNat_eq ?_
  rw [hm]
  cases wide with
  | true =>
    have := putBit_false_mod v.toNat 63
    rw [if_pos rfl, if_pos rfl, this, BitVec.toNat_ofNat, BitVec.toNat_setWidth, BitVec.toNat_setWidth]
  | false =>
    have := putBit_false_mod v.toNat 31
    rw [if_neg Bool.false_ne_true, if_neg Bool.false_ne_true, this, BitVec.toNat_ofNat, BitVec.toNat_setWidth, BitVec.toNat_setWidth]

theorem fmtOf_width (e : Enc) : (fmtOf e).p + (fmtOf e).w = if e.wide then 64 else 32 := by
  unfold fmtOf
  cases e.wide <;> rfl

/-- Settles O9: each instruction ends with its operation's value in fa and its flags in STATUS. -/
theorem floatResults : Obligations.FloatResults := by
  unfold Obligations.FloatResults
  refine ⟨fun r hr s c e g s1 x v h hv ht => ?_, fun s c e g s1 x v h hv ht => ?_, fun s c e g s1 x v h hv ht => ?_,
    fun s c e g s1 x v h hv ht => ?_, fun s c e g s1 x h => ?_, fun s c e g s1 x h => ?_, fun s c e g s1 x h => ?_⟩
  · simp only [floatRows, List.mem_cons, List.not_mem_nil, or_false] at hr
    obtain rfl | rfl | rfl | rfl := hr
    all_goals subst hv; exact h.completes_float rfl rfl ht
  · subst hv
    exact h.completes_float rfl rfl ht
  · subst hv
    exact h.completes_float rfl rfl ht
  · subst hv
    exact h.completes_float rfl rfl ht
  · exact h.completes_floatBits rfl (BitVec.ofNat_toNat _ _ |>.trans (BitVec.setWidth_eq _))
  · exact h.completes_floatBits rfl (fneg_bits e.wide (x.fr e.rb) (fmtOf e) (fmtOf_width e))
  · exact h.completes_floatBits rfl (fabs_bits e.wide (x.fr e.rb) (fmtOf e) (fmtOf_width e))

/-- Settles O10: each instruction ends with its condition or its integer in ra and its flags in STATUS. -/
theorem floatToInteger : Obligations.FloatToInteger := by
  unfold Obligations.FloatToInteger
  refine ⟨fun r hr s c e g s1 x nv h hv ht => ?_, fun s c e g s1 x v h hv ht => ?_⟩
  · simp only [fcompareRows, List.mem_cons, List.not_mem_nil, or_false] at hr
    obtain rfl | rfl | rfl := hr
    all_goals subst hv; exact h.completes_word rfl (.refl s1 c) rfl ht
  · subst hv
    exact h.completes_word rfl (.refl s1 c) rfl ht

end Sys2Proof.Machine
end


section
/-! SUPPORT. What a core reads of its own data SRAM, whatever its width and alignment (R63, R92, R95). -/

namespace Sys2Proof.Machine

/-! ### Errors in a range -/

theorem foldl_max_le {α : Type} (l : List α) (p : α → Prop) [DecidablePred p] (v : α → Nat) (a m : Nat) :
    l.foldl (fun a e => if p e then Nat.max a (v e) else a) a ≤ m ↔ a ≤ m ∧ ∀ e ∈ l, p e → v e ≤ m := by
  induction l generalizing a with
  | nil => simp
  | cons e t ih =>
    rw [List.foldl_cons, ih, List.forall_mem_cons]
    by_cases hp : p e
    · rw [if_pos hp, show Nat.max a (v e) = max a (v e) from rfl, max_le_iff, and_assoc]
      simp [hp]
    · simp [hp]

theorem State.eccOf_le_iff (s : State) (key n m : Nat) :
    s.eccOf key n ≤ m ↔ ∀ e ∈ s.ecc, key ≤ e.1 ∧ e.1 < key + n → e.2 ≤ m :=
  (foldl_max_le s.ecc (fun e => key ≤ e.1 ∧ e.1 < key + n) (fun e => e.2) 0 m).trans (and_iff_right (Nat.zero_le m))

/-- A part of a range has no worse error than the range. -/
theorem State.eccOf_part {s : State} {key n m : Nat} (h : s.eccOf key n ≤ m) {j k : Nat} (hj : j + k ≤ n) : s.eccOf (key + j) k ≤ m := by
  rw [State.eccOf_le_iff] at h ⊢
  exact fun e he hk => h e he (by omega)

/-- Part of a range of own SRAM. -/
theorem OwnBytes.part {s : State} {c g a n off : Nat} (h : OwnBytes s c g a n off) {j k : Nat} (hj : j + k ≤ n) (hk : 0 < k) :
    OwnBytes s c g (a + j) k (off + j) := by
  obtain ⟨hlo, hhi, hoff⟩ := (State.coreWhere_own_iff s c a off _).1 h.own
  have hroom := h.room
  refine ⟨(State.coreWhere_own_iff s c _ _ _).2 (by omega), by omega, fun i hi => ?_, ?_⟩
  · have := h.drained (j + i) (by omega)
    rwa [show mData (strandOf c) + off + (j + i) = mData (strandOf c) + (off + j) + i by omega] at this
  · have := State.eccOf_part (Nat.le_of_lt_succ h.sound) hj
    rw [Nat.add_assoc] at this
    exact Nat.lt_succ_of_le this

theorem State.bytesAt_append (s : State) (a m n : Nat) : s.bytesAt a (m + n) = s.bytesAt a m ++ s.bytesAt (a + m) n := by
  unfold State.bytesAt
  rw [List.range_add, List.map_append, List.map_map]
  congr 1
  exact List.map_congr_left fun i _ => congrArg s.byte (Nat.add_assoc a m i).symm

/-! ### One piece -/

/-- What a read of own SRAM answers: the bytes, in a state that differs in caches, objects and draws alone. -/
structure State.Loads (s : State) (c : Nat) (t : State) : Prop where
  reads : s.Reads c t
  stays : t.Stays [.objs, .cores, .fresh] s

theorem State.Loads.refl (s : State) (c : Nat) : s.Loads c s := ⟨.refl s c, .refl s _⟩

/-- Bytes of own SRAM that no store waits for and no double-bit error strikes are read as they are. -/
theorem State.readPiece_bytes {s : State} {c g a n off : Nat} (h : OwnBytes s c g a n off) (bitpipe : Bool) :
    ∃ t, s.readPiece c g a n bitpipe = (t, .ok (s.bytesAt (mData (strandOf c) + off) n)) ∧ s.Reads c t ∧
      ∀ {u fs}, s.Stays fs u → [Field.objs, .cores, .fresh] ⊆ fs → t.Stays fs u := by
  have hecc : s.eccOf (mData (strandOf c) + off) n ≠ 2 := Nat.ne_of_lt h.sound
  have hread := State.reads_cacheTouch s c (off / 64 * 64) (mData (strandOf c) + off / 64 * 64) bitpipe
  have hstay : ∀ {u fs}, s.Stays fs u → [Field.objs, .cores, .fresh] ⊆ fs →
      (s.cacheTouch c (off / 64 * 64) (mData (strandOf c) + off / 64 * 64) bitpipe).1.Stays fs u :=
    fun h0 hM => State.cacheTouch_stays s c _ _ bitpipe h0 hM
  unfold State.readPiece
  dsimp only
  rw [h.own]
  dsimp only
  rw [if_neg (Nat.not_lt.2 h.room)]
  generalize s.cacheTouch c (off / 64 * 64) (mData (strandOf c) + off / 64 * 64) bitpipe = p at hread hstay ⊢
  obtain ⟨t, cached⟩ := p
  cases cached with
  | true =>
    have hgood : ((List.range n).any fun i => t.badByte c (if bitpipe then 2 else 1) (off / 64 * 64) (mData (strandOf c) + off + i)) = false := by
      rw [List.any_eq_false]
      intro i hi
      have hi' := State.eccOf_part (Nat.le_of_lt_succ h.sound) (j := i) (k := 1) (Nat.succ_le_of_lt (List.mem_range.1 hi))
      have : t.eccOf (mData (strandOf c) + off + i) 1 ≠ 2 := by
        rw [hread.eccOf]
        omega
      simp [State.badByte, this]
    refine ⟨t, ?_, hread, fun h0 hM => hstay h0 hM⟩
    simp only [if_true, hgood, Bool.false_eq_true, if_false]
  | false =>
    refine ⟨s.countCorr c (mData (strandOf c) + off) n, ?_, State.reads_countCorr s c _ n, fun h0 hM =>
      State.countCorr_stays s c _ n h0 (List.Subset.trans (by decide : [Field.objs] ⊆ [Field.objs, .cores, .fresh]) hM)⟩
    simp only [Bool.false_eq_true, if_false, State.coreSram, State.sramRead, if_neg hecc]

/-! ### A load -/

/-- An access that is not aligned is two pieces. -/
theorem State.readPieces_bytes {s : State} {c g a n off : Nat} (h : OwnBytes s c g a n off) (hn : 0 < n) (bitpipe : Bool) :
    ∃ t, s.readPieces c g bitpipe (pieces a n) = .ok t (s.bytesAt (mData (strandOf c) + off) n) false ∧ s.Loads c t := by
  obtain ⟨hlo, hhi, hoff⟩ := (State.coreWhere_own_iff s c a off _).1 h.own
  unfold pieces
  by_cases hal : a % n = 0
  · obtain ⟨t, ht, hr, hs⟩ := State.readPiece_bytes h bitpipe
    rw [if_pos hal]
    exact ⟨t, by simp [State.readPieces, ht], hr, hs (.refl s _) (List.Subset.refl _)⟩
  · have hlt := Nat.mod_lt a hn
    have hroom := h.room
    obtain ⟨t, ht, hr, hs⟩ := State.readPiece_bytes (h.part (j := 0) (k := n - a % n) (by omega) (by omega)) bitpipe
    obtain ⟨u, hu, hru, hsu⟩ := State.readPiece_bytes ((h.part (j := n - a % n) (k := a % n) (by omega) (by omega)).congr hr) bitpipe
    have hnext : (a + n - a % n) % 2 ^ 32 = a + (n - a % n) := by
      rw [Nat.mod_eq_of_lt (by omega)]
      omega
    have hbytes : t.bytesAt (mData (strandOf c) + (off + (n - a % n))) (a % n) =
        s.bytesAt (mData (strandOf c) + (off + (n - a % n))) (a % n) := State.bytesAt_congr fun i _ => hr.byte _
    rw [Nat.add_zero, Nat.add_zero] at ht
    have hall : s.bytesAt (mData (strandOf c) + off) n = s.bytesAt (mData (strandOf c) + off) (n - a % n) ++
        s.bytesAt (mData (strandOf c) + (off + (n - a % n))) (a % n) := by
      rw [← Nat.add_assoc, ← State.bytesAt_append, Nat.sub_add_cancel hlt.le]
    rw [if_neg hal, hnext, hall, ← hbytes]
    exact ⟨u, by simp [State.readPieces, ht, hu], hr.trans hru, hsu (hs (.refl s _) (List.Subset.refl _)) (List.Subset.refl _)⟩

/-- A load of own SRAM answers its bytes at once. -/
theorem State.coreLoad_bytes {s : State} {c g a n off : Nat} (h : OwnBytes s c g a n off) (hn : 0 < n) (hcs : (s.ctx g).cs = .running)
    (bitpipe : Bool) :
    ∃ t, s.coreLoad c g a n bitpipe = .ok t (s.bytesAt (mData (strandOf c) + off) n) false ∧ s.Loads c t := by
  obtain ⟨t, hread, hr⟩ := State.readPieces_bytes h hn bitpipe
  obtain ⟨hlo, hhi, hoff⟩ := (State.coreWhere_own_iff s c a off _).1 h.own
  have hown : ∀ z, s.coreWhere c a z = .own off := fun z => (State.coreWhere_own_iff s c a off z).2 ⟨hlo, hhi, hoff⟩
  have halign : s.alignBad c a n = false := by
    have hnot : ¬ (0x30000000 ≤ a ∧ a < 0x30200000) := by omega
    unfold State.alignBad
    rw [hown, decide_eq_false hnot]
    dsimp only
    rw [Bool.or_false, Bool.and_false]
  have hbuf : ∀ i < n, (s.core c).buffered (s.busKey c ((a + i) % 2 ^ 32)) = none := fun i hi => by
    have hp := h.part (j := i) (k := 1) hi Nat.one_pos
    have := hp.drained 0 Nat.one_pos
    rw [Nat.add_zero] at this
    rwa [State.busKey_own hp]
  have hnone : ∀ k ∈ ((List.range n).map fun i => s.busKey c ((a + i) % 2 ^ 32)), (s.core c).buffered k = none := by
    rintro k hk
    obtain ⟨i, hi, rfl⟩ := List.mem_map.1 hk
    exact hbuf i (List.mem_range.1 hi)
  have hany : ((((List.range n).map fun i => s.busKey c ((a + i) % 2 ^ 32)).map (s.core c).buffered).any Option.isSome) = false := by
    rw [List.any_map, List.any_eq_false]
    exact fun k hk => by simp [hnone k hk]
  have hall : ((((List.range n).map fun i => s.busKey c ((a + i) % 2 ^ 32)).map (s.core c).buffered).all Option.isSome) = false := by
    rw [List.all_eq_false]
    refine ⟨none, List.mem_map.2 ⟨_, List.mem_map.2 ⟨0, List.mem_range.2 hn, rfl⟩, hbuf 0 hn⟩, by simp⟩
  have hkept : (((List.range n).map fun i => s.busKey c ((a + i) % 2 ^ 32)).any fun k => ((s.core c).buffered k).isSome) = false := by
    rw [List.any_eq_false]
    exact fun k hk => by simp [hnone k hk]
  have hstruck : s.struck s g = false := by simp [State.struck, hcs]
  refine ⟨t, ?_, hr⟩
  unfold State.coreLoad
  rw [h.own]
  dsimp only
  rw [halign, if_neg Bool.false_ne_true, hall, if_neg Bool.false_ne_true, hany, if_neg Bool.false_ne_true, hkept, hstruck,
    Bool.or_false, if_neg Bool.false_ne_true, hread]
  rfl

end Sys2Proof.Machine
end


section
/-! SUPPORT. The write buffer: what it holds of a byte after an entry is put and after a store has entered (R91, R92). -/

namespace Sys2Proof.Machine

/-- The byte at an offset of an entry. -/
def WbEntry.at (e : WbEntry) (off : Nat) : Option Byte := (e.bytes.find? fun b => decide (b.off = off)).map WbByte.val

/-- What an entry holds of a byte. -/
def WbEntry.holds (key : Nat) (e : WbEntry) : Option Byte := if e.word = key / 8 then e.at (key % 8) else none

theorem CoreSt.buffered_eq (k : CoreSt) (key : Nat) : k.buffered key = k.wbuf.reverse.findSome? (WbEntry.holds key) := rfl

/-- Entry x with the bytes of e merged into it, where it is one for e's word that has not begun to drain. -/
def WbEntry.merged (e x : WbEntry) : WbEntry :=
  if x.word = e.word ∧ x.begun = false then
    { x with bytes := (x.bytes.filter fun b => !(e.bytes.any fun d => decide (d.off = b.off))) ++ e.bytes }
  else x

/-- Merged bytes come before the ones that they replace. -/
theorem WbEntry.at_merged {e x : WbEntry} (hw : x.word = e.word) (hb : x.begun = false) (off : Nat) :
    (e.merged x).at off = (e.at off).or (x.at off) := by
  unfold WbEntry.merged WbEntry.at
  rw [if_pos ⟨hw, hb⟩]
  dsimp only
  rw [List.find?_append, List.find?_filter]
  cases hf : e.bytes.find? fun b => decide (b.off = off) with
  | some b =>
    have hm := List.mem_of_find?_eq_some hf
    have ho : b.off = off := by simpa using List.find?_some hf
    have hnone : (x.bytes.find? fun a => decide ((!e.bytes.any fun d => decide (d.off = a.off)) = true ∧ decide (a.off = off) = true)) =
        none := by
      rw [List.find?_eq_none]
      intro a _ ha
      rw [decide_eq_true_eq, Bool.not_eq_true', List.any_eq_false, decide_eq_true_eq] at ha
      exact ha.1 b hm (by rw [decide_eq_true_eq, ho, ha.2])
    rw [hnone]
    rfl
  | none =>
    have hsame : (fun a : WbByte => decide ((!e.bytes.any fun d => decide (d.off = a.off)) = true ∧ decide (a.off = off) = true)) =
        fun a => decide (a.off = off) := by
      funext a
      rw [decide_eq_decide, decide_eq_true_eq, and_iff_right_iff_imp]
      intro ha
      rw [List.find?_eq_none] at hf
      rw [Bool.not_eq_true', List.any_eq_false]
      exact fun d hd => ha ▸ hf d hd
    rw [hsame]
    cases x.bytes.find? fun a => decide (a.off = off) <;> rfl

theorem WbEntry.word_merged (e x : WbEntry) : (e.merged x).word = x.word := by
  unfold WbEntry.merged
  split <;> rfl

/-- An entry that does not hold a byte changes what another holds of it neither. -/
theorem WbEntry.holds_merged_of_none {e : WbEntry} {key : Nat} (h : e.holds key = none) (x : WbEntry) :
    (e.merged x).holds key = x.holds key := by
  unfold WbEntry.holds at h ⊢
  rw [WbEntry.word_merged]
  split
  · rename_i hx
    by_cases hm : x.word = e.word ∧ x.begun = false
    · rw [if_pos (hm.1 ▸ hx)] at h
      rw [WbEntry.at_merged hm.1 hm.2, h, Option.none_or]
    · unfold WbEntry.merged
      rw [if_neg hm]
  · rfl

/-- What the newest entry of a word holds, once e has merged into it. -/
theorem findSome_merged {e : WbEntry} {key : Nat} {v : Byte} (h : e.holds key = some v) (l : List WbEntry)
    (hl : ∃ x, l.find? (fun x => decide (x.word = e.word)) = some x ∧ x.begun = false) :
    (l.map e.merged).findSome? (WbEntry.holds key) = some v := by
  have hw : e.word = key / 8 := by
    unfold WbEntry.holds at h
    split at h
    · assumption
    · cases h
  have hat : e.at (key % 8) = some v := by
    unfold WbEntry.holds at h
    rwa [if_pos hw] at h
  induction l with
  | nil => obtain ⟨x, hx, -⟩ := hl; cases hx
  | cons y t ih =>
    obtain ⟨x, hx, hb⟩ := hl
    rw [List.map_cons, List.findSome?_cons]
    by_cases hy : y.word = e.word
    · rw [List.find?_cons_of_pos (by simpa using hy)] at hx
      cases hx
      have : (e.merged y).holds key = some v := by
        unfold WbEntry.holds
        rw [WbEntry.word_merged, if_pos (hy.trans hw), WbEntry.at_merged hy hb, hat]
        rfl
      rw [this]
    · rw [List.find?_cons_of_neg (by simpa using hy)] at hx
      have : (e.merged y).holds key = none := by
        unfold WbEntry.holds
        rw [WbEntry.word_merged, if_neg fun h => hy (h.trans hw.symm)]
      rw [this]
      exact ih ⟨x, hx, hb⟩

/-- An entry put into the write buffer is what is buffered of its bytes; of the others nothing changes. -/
theorem CoreSt.buffered_wbPut {k k' : CoreSt} {e : WbEntry} (h : k.wbPut e = some k') (key : Nat) :
    k'.buffered key = (e.holds key).or (k.buffered key) := by
  unfold CoreSt.wbPut at h
  split at h
  · rename_i hm
    cases h
    rw [CoreSt.buffered_eq, CoreSt.buffered_eq]
    change ((k.wbuf.map e.merged).reverse.findSome? (WbEntry.holds key)) = _
    rw [← List.map_reverse]
    cases he : e.holds key with
    | none =>
      rw [List.findSome?_map, Option.none_or]
      exact congrArg (fun F => List.findSome? F k.wbuf.reverse) (funext (WbEntry.holds_merged_of_none he))
    | some v =>
      refine findSome_merged he _ ?_
      unfold CoreSt.merges at hm
      split at hm
      · rename_i x hx
        exact ⟨x, hx, by simpa using hm⟩
      · cases hm
  · split at h
    · cases h
      rw [CoreSt.buffered_eq, CoreSt.buffered_eq]
      dsimp only
      rw [List.reverse_append, List.reverse_singleton, List.singleton_append, List.findSome?_cons]
      cases e.holds key <;> rfl
    · cases h

theorem CoreSt.length_wbPut {k k' : CoreSt} {e : WbEntry} (h : k.wbPut e = some k') : k'.wbuf.length ≤ k.wbuf.length + 1 := by
  unfold CoreSt.wbPut at h
  repeat' split at h
  · cases h
    rw [List.length_map]
    omega
  · cases h
    rw [List.length_append]
    rfl
  · cases h

theorem CoreSt.wbPut_of_lt {k : CoreSt} {e : WbEntry} (h : k.wbuf.length < 8) : ∃ k', k.wbPut e = some k' := by
  unfold CoreSt.wbPut
  split
  · exact ⟨_, rfl⟩
  · exact ⟨_, rfl⟩

/-- Entries for which there is room all enter. A byte that one of them holds, all that hold it with one value, is then buffered. -/
theorem CoreSt.wbFill_of_room (l : List WbEntry) (k : CoreSt) (h : k.wbuf.length + l.length ≤ 8) :
    (k.wbFill l).2 = [] ∧ ∀ key v, (∀ e ∈ l, e.holds key = none ∨ e.holds key = some v) →
      ((∃ e ∈ l, e.holds key = some v) ∨ k.buffered key = some v) → (k.wbFill l).1.buffered key = some v := by
  induction l generalizing k with
  | nil => exact ⟨rfl, fun key v _ hv => hv.resolve_left fun ⟨e, he, _⟩ => nomatch he⟩
  | cons e t ih =>
    rw [List.length_cons] at h
    obtain ⟨k', hk⟩ := CoreSt.wbPut_of_lt (k := k) (e := e) (by omega)
    have hlen := CoreSt.length_wbPut hk
    obtain ⟨hrest, hheld⟩ := ih k' (by omega)
    have heq : k.wbFill (e :: t) = k'.wbFill t := by
      rw [CoreSt.wbFill, hk]
    rw [heq]
    refine ⟨hrest, fun key v hall hv => hheld key v (fun x hx => hall x (List.mem_cons_of_mem e hx)) ?_⟩
    rw [CoreSt.buffered_wbPut hk]
    rcases hall e List.mem_cons_self with he | he
    · rw [he, Option.none_or]
      rcases hv with ⟨x, hx, hxv⟩ | hv
      · rcases List.mem_cons.1 hx with rfl | hx
        · rw [he] at hxv; cases hxv
        · exact .inl ⟨x, hx, hxv⟩
      · exact .inr hv
    · exact .inr (by rw [he]; rfl)

/-! ### The entries of a store -/

theorem wbEntries_mem (l : List (Nat × WbByte)) : ∀ e ∈ wbEntries l, ∀ b ∈ e.bytes, (e.word, b) ∈ l := by
  induction l with
  | nil => exact fun e he => nomatch he
  | cons p t ih =>
    obtain ⟨w, b⟩ := p
    intro e he d hd
    unfold wbEntries at he
    split at he
    · rename_i e0 l0 h0
      split at he
      · rename_i hw
        rcases List.mem_cons.1 he with rfl | he
        · rcases List.mem_cons.1 hd with rfl | hd
          · exact hw ▸ List.mem_cons_self
          · exact List.mem_cons_of_mem _ (ih e0 (h0 ▸ List.mem_cons_self) d hd)
        · exact List.mem_cons_of_mem _ (ih e (h0 ▸ List.mem_cons_of_mem _ he) d hd)
      · rcases List.mem_cons.1 he with rfl | he
        · rw [List.mem_singleton.1 hd]
          exact List.mem_cons_self
        · exact List.mem_cons_of_mem _ (ih e (h0 ▸ he) d hd)
    · rw [List.mem_singleton.1 he] at hd ⊢
      rw [List.mem_singleton.1 hd]
      exact List.mem_cons_self

theorem mem_wbEntries (l : List (Nat × WbByte)) : ∀ p ∈ l, ∃ e ∈ wbEntries l, e.word = p.1 ∧ p.2 ∈ e.bytes := by
  induction l with
  | nil => exact fun p hp => nomatch hp
  | cons q t ih =>
    obtain ⟨w, b⟩ := q
    intro p hp
    unfold wbEntries
    split
    · rename_i e0 l0 h0
      have hin : ∀ p ∈ t, ∃ e ∈ e0 :: l0, e.word = p.1 ∧ p.2 ∈ e.bytes := fun p hp => h0 ▸ ih p hp
      split
      · rename_i hw
        rcases List.mem_cons.1 hp with rfl | hp
        · exact ⟨_, List.mem_cons_self, hw, List.mem_cons_self⟩
        · obtain ⟨e, he, hew, heb⟩ := hin p hp
          rcases List.mem_cons.1 he with rfl | he
          · exact ⟨_, List.mem_cons_self, hew, List.mem_cons_of_mem _ heb⟩
          · exact ⟨e, List.mem_cons_of_mem _ he, hew, heb⟩
      · rcases List.mem_cons.1 hp with rfl | hp
        · exact ⟨_, List.mem_cons_self, rfl, List.mem_cons_self⟩
        · obtain ⟨e, he, hew, heb⟩ := hin p hp
          exact ⟨e, List.mem_cons_of_mem _ he, hew, heb⟩
    · rename_i h0
      rcases List.mem_cons.1 hp with rfl | hp
      · exact ⟨_, List.mem_cons_self, rfl, List.mem_cons_self⟩
      · obtain ⟨e, he, -, -⟩ := ih p hp
        rw [h0] at he
        cases he

theorem head_wbEntries (p : Nat × WbByte) (t : List (Nat × WbByte)) : ∃ e l, wbEntries (p :: t) = e :: l ∧ e.word = p.1 := by
  unfold wbEntries
  split
  · split
    · rename_i hw
      exact ⟨_, _, rfl, hw⟩
    · exact ⟨_, _, rfl, rfl⟩
  · exact ⟨_, _, rfl, rfl⟩

/-- Neighbouring bytes of one word share an entry. -/
theorem length_wbEntries_same (w : Nat) (l1 l2 : List (Nat × WbByte)) (h : ∀ p ∈ l1, p.1 = w) :
    (wbEntries (l1 ++ l2)).length ≤ (wbEntries l2).length + 1 := by
  induction l1 with
  | nil => exact Nat.le_succ _
  | cons p t ih =>
    obtain ⟨v, b⟩ := p
    have hv : v = w := h _ List.mem_cons_self
    have ht := ih fun p hp => h p (List.mem_cons_of_mem _ hp)
    rw [List.cons_append]
    cases t with
    | nil =>
      rw [List.nil_append, wbEntries]
      split
      · rename_i h0
        rw [h0]
        split <;> simp
      · simp
    | cons q t =>
      obtain ⟨e, l, he, hew⟩ := head_wbEntries q (t ++ l2)
      have hq : q.1 = w := h q (by simp)
      rw [List.cons_append] at ht ⊢
      rw [wbEntries, he]
      rw [he] at ht
      dsimp only
      rw [if_pos (hew.trans (hq.trans hv.symm))]
      exact ht

/-! ### A store -/

theorem memBase_mod (n : Nat) : memBase n % 8 = 0 := by
  unfold memBase
  omega

/-- An address and the byte that it names stand at one place in their words. -/
theorem State.busKey_mod (s : State) (c a : Nat) : s.busKey c a % 8 = a % 8 := by
  have h1 := memBase_mod 0x60
  have h2 : ∀ n, mData n % 8 = 0 := fun n => memBase_mod _
  have h3 := h2 (strandOf c)
  have h4 := h2 ((a - 0x40000000) / 0x1000000)
  unfold State.busKey
  dsimp only
  repeat' split
  all_goals omega

/-- Addresses of one word name bytes of one word. -/
theorem State.busKey_word (s : State) (c : Nat) {a b : Nat} (h : a / 8 = b / 8) : s.busKey c a / 8 = s.busKey c b / 8 := by
  have h1 := memBase_mod 0x60
  have h2 : ∀ n, mData n % 8 = 0 := fun n => memBase_mod _
  have h3 := h2 (strandOf c)
  have h4 := h2 ((b - 0x40000000) / 0x1000000)
  have hn : (a - 0x40000000) / 0x1000000 = (b - 0x40000000) / 0x1000000 := by omega
  have hown : (0x10000000 ≤ a ∧ a < 0x10400000) ↔ (0x10000000 ≤ b ∧ b < 0x10400000) := by omega
  have hfar : (0x41000000 ≤ a ∧ a < 0x47000000 ∧ a % 0x1000000 < 0x400000) ↔
      (0x41000000 ≤ b ∧ b < 0x47000000 ∧ b % 0x1000000 < 0x400000) := by omega
  unfold State.busKey
  dsimp only
  rw [hn]
  by_cases ho : 0x10000000 ≤ b ∧ b < 0x10400000
  · rw [if_pos ho, if_pos (hown.2 ho)]
    omega
  · rw [if_neg ho, if_neg fun h => ho (hown.1 h)]
    by_cases hf : 0x41000000 ≤ b ∧ b < 0x47000000 ∧ b % 0x1000000 < 0x400000 ∧
        ((b - 0x40000000) / 0x1000000 ≠ strandOf c ∨ s.linkUp ((b - 0x40000000) / 0x1000000) = true)
    · obtain ⟨f1, f2, f3, f4⟩ := hf
      obtain ⟨k1, k2, k3⟩ := hfar.2 ⟨f1, f2, f3⟩
      rw [if_pos ⟨k1, k2, k3, f4⟩, if_pos ⟨f1, f2, f3, f4⟩]
      omega
    · rw [if_neg fun ⟨k1, k2, k3, k4⟩ => hf (let ⟨f1, f2, f3⟩ := hfar.1 ⟨k1, k2, k3⟩; ⟨f1, f2, f3, k4⟩), if_neg hf]
      omega

/-- What a store of context g puts into the write buffer for the byte v at i past its address: the byte's word, and the byte. -/
def State.storeByte (s : State) (g addr i : Nat) (v : Byte) : Nat × WbByte :=
  (s.busKey (g / 16) ((addr + i) % 2 ^ 32) / 8,
    { off := s.busKey (g / 16) ((addr + i) % 2 ^ 32) % 8, val := v, ctx := g, addr := (addr + i) % 2 ^ 32, pc := (s.ctx g).pc,
      task := (s.ctx g).task, sec := (s.ctx g).sec })

def State.storeBytes (s : State) (g addr : Nat) (b : List Byte) : List (Nat × WbByte) :=
  b.zipIdx.map fun e => s.storeByte g addr e.2 e.1

theorem State.mem_storeBytes {s : State} {g addr : Nat} {b : List Byte} {p : Nat × WbByte} (h : p ∈ s.storeBytes g addr b) :
    ∃ i, ∃ hi : i < b.length, p = s.storeByte g addr i b[i] := by
  obtain ⟨⟨v, i⟩, he, rfl⟩ := List.mem_map.1 h
  obtain ⟨hi, hv⟩ := List.mem_zipIdx' he
  exact ⟨i, hi, congrArg (s.storeByte g addr i) hv⟩

theorem State.storeByte_mem {s : State} {g addr : Nat} {b : List Byte} {i : Nat} (hi : i < b.length) :
    s.storeByte g addr i b[i] ∈ s.storeBytes g addr b :=
  List.mem_map.2 ⟨(b[i], i), List.mem_zipIdx_iff_getElem?.2 (List.getElem?_eq_getElem hi), rfl⟩

theorem State.getElem_storeBytes (s : State) (g addr : Nat) (b : List Byte) {i : Nat} (hi : i < (s.storeBytes g addr b).length) :
    ((s.storeBytes g addr b)[i]).1 = s.busKey (g / 16) ((addr + i) % 2 ^ 32) / 8 := by
  simp [State.storeBytes, State.storeByte]

/-- A store of 8 bytes at most makes two entries at most. -/
theorem State.length_entries_le (s : State) (g addr : Nat) {b : List Byte} (hb : b.length ≤ 8) :
    (wbEntries (s.storeBytes g addr b)).length ≤ 2 := by
  have hl : (s.storeBytes g addr b).length = b.length := by simp [State.storeBytes]
  have same : ∀ i j, (addr + i) / 8 = (addr + j) / 8 →
      s.busKey (g / 16) ((addr + i) % 2 ^ 32) / 8 = s.busKey (g / 16) ((addr + j) % 2 ^ 32) / 8 := fun i j h =>
    State.busKey_word s _ (by omega)
  have h1 := length_wbEntries_same (s.busKey (g / 16) ((addr + 0) % 2 ^ 32) / 8) ((s.storeBytes g addr b).take (8 - addr % 8))
    ((s.storeBytes g addr b).drop (8 - addr % 8)) fun p hp => by
      obtain ⟨i, hi, rfl⟩ := List.mem_take_iff_getElem.1 hp
      rw [State.getElem_storeBytes]
      exact same i 0 (by omega)
  have h2 := length_wbEntries_same (s.busKey (g / 16) ((addr + (8 - addr % 8)) % 2 ^ 32) / 8)
    ((s.storeBytes g addr b).drop (8 - addr % 8)) [] fun p hp => by
      obtain ⟨i, hi, rfl⟩ := List.mem_drop_iff_getElem.1 hp
      rw [State.getElem_storeBytes]
      exact same _ _ (by omega)
  rw [List.take_append_drop] at h1
  rw [List.append_nil] at h2
  exact h1.trans (Nat.succ_le_succ h2)

/-- Only the store's byte at i stands at its place. -/
theorem State.holds_entry {s : State} {g addr : Nat} {b : List Byte} (hb : b.length ≤ 8) {i : Nat} (hi : i < b.length) {e : WbEntry}
    (he : e ∈ wbEntries (s.storeBytes g addr b)) :
    e.holds (s.busKey (g / 16) ((addr + i) % 2 ^ 32)) = none ∨ e.holds (s.busKey (g / 16) ((addr + i) % 2 ^ 32)) = some b[i] := by
  unfold WbEntry.holds WbEntry.at
  split
  · cases hf : e.bytes.find? fun d => decide (d.off = s.busKey (g / 16) ((addr + i) % 2 ^ 32) % 8) with
    | none => exact .inl rfl
    | some d =>
      have hoff : d.off = s.busKey (g / 16) ((addr + i) % 2 ^ 32) % 8 := by simpa using List.find?_some hf
      obtain ⟨j, hj, hp⟩ := State.mem_storeBytes (wbEntries_mem _ e he d (List.mem_of_find?_eq_some hf))
      have hd : d = (s.storeByte g addr j b[j]).2 := congrArg Prod.snd hp
      have hj' : d.off = s.busKey (g / 16) ((addr + j) % 2 ^ 32) % 8 := congrArg WbByte.off hd
      rw [hj', State.busKey_mod, State.busKey_mod] at hoff
      have : j = i := by omega
      subst this
      exact .inr (congrArg some (congrArg WbByte.val hd))
  · exact .inl rfl

theorem State.entry_holds {s : State} {g addr : Nat} {b : List Byte} (hb : b.length ≤ 8) {i : Nat} (hi : i < b.length) :
    ∃ e ∈ wbEntries (s.storeBytes g addr b), e.holds (s.busKey (g / 16) ((addr + i) % 2 ^ 32)) = some b[i] := by
  obtain ⟨e, he, hw, hm⟩ := mem_wbEntries _ _ (State.storeByte_mem (s := s) (g := g) (addr := addr) hi)
  refine ⟨e, he, (State.holds_entry hb hi he).resolve_left fun hn => ?_⟩
  unfold WbEntry.holds WbEntry.at at hn
  have hw' : e.word = s.busKey (g / 16) ((addr + i) % 2 ^ 32) / 8 := hw
  rw [if_pos hw', Option.map_eq_none_iff, List.find?_eq_none] at hn
  exact hn _ hm (decide_eq_true rfl)

/-- A store for which the buffer has room changes the core's write buffer alone, which then holds its bytes. -/
theorem State.bufStore_of_room {s : State} {c g addr : Nat} {b : List Byte} (hg : g / 16 = c) (hb : b.length ≤ 8)
    (hroom : (s.core c).wbuf.length ≤ 6) :
    ∃ k, s.bufStore g addr b = s.setCore c k ∧
      ∀ i, ∀ hi : i < b.length, k.buffered (s.busKey c ((addr + i) % 2 ^ 32)) = some b[i] := by
  have hlen := State.length_entries_le s g addr hb
  obtain ⟨hall, hheld⟩ := CoreSt.wbFill_of_room (wbEntries (s.storeBytes g addr b)) (s.core c) (by omega)
  subst hg
  refine ⟨((s.core (g / 16)).wbFill (wbEntries (s.storeBytes g addr b))).1, if_pos hall, fun i hi => ?_⟩
  exact hheld _ _ (fun e he => State.holds_entry hb hi he) (.inl (State.entry_holds hb hi))

theorem State.coreStore_of_buffers {s : State} {c g addr : Nat} {b : List Byte} (h : Buffers s c g addr b.length) :
    s.coreStore c g addr b = .ok (s.bufStore g addr b) := by
  unfold State.coreStore
  rw [h.aligned, if_neg Bool.false_ne_true]
  obtain ⟨hd, ht⟩ := h.place _ rfl
  split
  · rename_i i j k hw
    exact absurd hw (hd i j k)
  · rename_i k hw
    exact absurd hw (ht k)
  · rfl

theorem length_leBytes_le {n : Nat} (hn : n ≤ 8) (v : Nat) : (leBytes n v).length ≤ 8 := (length_leBytes n v).trans_le hn

/-- A store of a number enters the write buffer. -/
theorem State.coreStore_number {s : State} {c g a n : Nat} (hg : g / 16 = c) (hn : n ≤ 8) (h : Buffers s c g a n) (v : Nat) :
    ∃ k, s.coreStore c g a (leBytes n v) = .ok (s.setCore c k) ∧ Buffered (s.setCore c k) c a n v := by
  have hlen := length_leBytes n v
  obtain ⟨k, hk, hb⟩ := State.bufStore_of_room (addr := a) hg (length_leBytes_le hn v) h.room
  refine ⟨k, by rw [State.coreStore_of_buffers (by rwa [hlen]), hk], fun i hi => ?_⟩
  have hget := hb i (by rwa [hlen])
  have hval : (leBytes n v)[i]'(by rwa [hlen]) = BitVec.ofNat 8 (v / 256 ^ i) := by
    have := getElem?_leBytes n v i
    rw [if_pos hi, List.getElem?_eq_getElem (by rwa [hlen])] at this
    exact Option.some.inj this
  rw [State.core_setCore, if_pos rfl, ← hval]
  exact hget

end Sys2Proof.Machine
end


section
/-! PROOF. Loads and stores, LEA and XCHG, branches and calls (R81, R85, R108, R109, R115–R117, R119). -/

namespace Sys2Proof.Machine

/-! ### Forms -/

/-- An instruction that the table does not mark W has no WIDE (R80). -/
theorem Form.narrow_of_legal {f : Form} {e : Enc} (h : f.legal e = true) (hf : f.wide = false) : e.wide = false := by
  have := Form.w_of_legal h hf
  unfold Enc.w at this
  cases hw : e.wide with
  | false => rfl
  | true => rw [hw] at this; cases this

theorem Form.fp_of_legal {f : Form} {e : Enc} (h : f.legal e = true) (hf : f.ra = .fp) : e.ra < 16 := by
  unfold Form.legal at h
  simp only [Bool.and_eq_true, hf] at h
  obtain ⟨⟨⟨⟨⟨⟨-, -⟩, hra⟩, -⟩, -⟩, -⟩, -⟩ := h
  simpa [Use.ok] using hra

theorem wideBytes_pos (e : Enc) : 0 < wideBytes e := by
  unfold wideBytes
  split <;> decide

theorem wideBytes_le (e : Enc) : wideBytes e ≤ 8 := by
  unfold wideBytes
  split <;> decide

theorem Ctx.setDst_of_lt {dst : Nat} (h : dst < 32) (x : Ctx) (wide : Bool) (v : Nat) : x.setDst dst wide v = x.wrG wide dst v := if_pos h

section
variable {s s1 : State} {c g : Nat} {e : Enc} {f : Form} {x : Ctx}

theorem Issues.bytesAt (h : Issues s c e f g s1 x) (a n : Nat) : s1.bytesAt a n = s.bytesAt a n :=
  State.bytesAt_congr fun i _ => h.byte (a + i)

theorem Issues.cs_self (h : Issues s c e f g s1 x) : (s1.ctx g).cs = .running := h.ctx_self ▸ h.cs_running

/-! ### Loads -/

/-- A load of own SRAM into a destination completes at once. -/
theorem Issues.loadTo_own (h : Issues s c e f g s1 x) {a n off : Nat} (ho : OwnBytes s1 c g a n off) (hn : 0 < n) (dst : Nat)
    (wide bitpipe : Bool) (next : Word) (ext : Nat) (post : Ctx → Ctx) :
    ∃ t, s1.Loads c t ∧ s1.loadTo c g a n dst wide bitpipe next ext post = .next ((t.modCtx g post).modCtx g fun y =>
      y.setDst dst wide (extend ext (leNat (s.bytesAt (mData (strandOf c) + off) n)))) next 0 none := by
  obtain ⟨t, ht, hl⟩ := State.coreLoad_bytes ho hn h.cs_self bitpipe
  refine ⟨t, hl, ?_⟩
  unfold State.loadTo
  dsimp only
  rw [ht, h.bytesAt]
  rfl

/-- A load of own SRAM to a general register. -/
theorem Issues.completes_load (h : Issues s c e f g s1 x) {i : Instr} {body : State → Nat → Ctx → Word → Res}
    (hi : exec i s = .next (s.issue c e f body)) {a n off ext : Nat} {post : Ctx → Ctx}
    (hb : body s1 g x (x.nextPc f e) = s1.loadTo c g a n e.ra e.wide false (x.nextPc f e) ext post)
    (ho : OwnBytes s1 c g a n off) (hn : 0 < n) (hp : (post x).SameButGeneral x) :
    Completes i s fun t => RegsOnly s c g x ((post x).grAfter e.wide e.ra
      (extend ext (leNat (s.bytesAt (mData (strandOf c) + off) n)))) t ∧ (t.ctx g).pc = x.nextPc f e := by
  obtain ⟨t, hl, hto⟩ := h.loadTo_own ho hn e.ra e.wide false (x.nextPc f e) ext post
  obtain ⟨v, hv⟩ : ∃ v, v = extend ext (leNat (s.bytesAt (mData (strandOf c) + off) n)) := ⟨_, rfl⟩
  rw [← hv] at hto ⊢
  have hra := (Form.ranges_of_legal h.legal).ra
  have hdst : (post x).setDst e.ra e.wide v = (post x).wrG e.wide e.ra v := Ctx.setDst_of_lt hra _ _ _
  have hy : ((post x).setDst e.ra e.wide v).SameButGeneral x := by
    rw [hdst]
    exact (Ctx.sameButGeneral_wrG _ _ _ _).trans hp
  obtain ⟨u, hu, he⟩ := h.completes_ended hi (((h.acts_reads hl.reads).modCtx post).modCtx fun y => y.setDst e.ra e.wide v)
    (hb.trans hto) (hy.cs.trans h.cs_running) (Ctx.trapOf_zero _)
  refine ⟨u, hu, ?_, he.pc⟩
  have := h.regsOnly ((hl.reads.spares.modCtx g post).modCtx g _) he hy
  rwa [hdst, show ((post x).wrG e.wide e.ra v).gr = (post x).grAfter e.wide e.ra v from funext (Ctx.gr_wrG _ _ _ _)] at this

/-- The same from EA. -/
theorem Issues.completes_loadEa (h : Issues s c e f g s1 x) {i : Instr} {n ext a off : Nat} {wide : Bool}
    (hi : exec i s = .next (s.loadEa c e f n e.ra wide ext)) (hw : wide = e.wide) (hl : x.locate e (x.ea e) n = some a)
    (ho : OwnBytes s1 c g a n off) (hn : 0 < n) :
    Completes i s fun t => RegsOnly s c g x (x.grAfter e.wide e.ra
      (extend ext (leNat (s.bytesAt (mData (strandOf c) + off) n)))) t ∧ (t.ctx g).pc = x.nextPc f e := by
  subst hw
  exact h.completes_load (post := id) hi (by rw [hl]) ho hn (.refl x)

end

/-- Settles O5: each row is a load from EA with the row's width and extension, LDX one with rb stepped first, and FLD one to fa. -/
theorem loadResults : Obligations.LoadResults := by
  unfold Obligations.LoadResults
  refine ⟨fun r hr s c e g s1 x a off h hl ho => ?_, fun s c e g s1 x a off h hl ho => ?_, fun s c e g s1 x a off h hm hl ho => ?_,
    fun s c e g s1 x h hm hw => ?_⟩
  · simp only [loadRows, List.mem_cons, List.not_mem_nil, or_false] at hr
    obtain rfl | rfl | rfl | rfl | rfl := hr
    · exact h.completes_loadEa (ext := 0) rfl rfl hl ho (wideBytes_pos e)
    · exact h.completes_loadEa (ext := 8) rfl (Form.narrow_of_legal h.legal rfl).symm hl ho Nat.one_pos
    · exact h.completes_loadEa (ext := 0) rfl (Form.narrow_of_legal h.legal rfl).symm hl ho Nat.one_pos
    · exact h.completes_loadEa (ext := 16) rfl (Form.narrow_of_legal h.legal rfl).symm hl ho Nat.two_pos
    · exact h.completes_loadEa (ext := 0) rfl (Form.narrow_of_legal h.legal rfl).symm hl ho Nat.two_pos
  · exact h.completes_load (i := .ldx c e) (ext := 0) (post := Ctx.wrPost e (x.postRb e)) rfl (by dsimp only; rw [hl]) ho
      (wideBytes_pos e) (Ctx.sameButGeneral_setG x _ _)
  · have hra := Form.fp_of_legal h.legal rfl
    obtain ⟨t, hr, hto⟩ := h.loadTo_own ho (wideBytes_pos e) (32 + e.ra % 16) false false (x.nextPc (formOf 0xE7C0) e) 0 id
    have hexec : exec (.fld c e) s = .next (s.loadEa c e (formOf 0xE7C0) (wideBytes e) (32 + e.ra % 16) false 0) :=
      congrArg _ (if_neg hm)
    have hdst : ∀ v, x.setDst (32 + e.ra % 16) false v = x.setF e.ra (BitVec.ofNat 64 v) := fun v => by
      unfold Ctx.setDst
      rw [if_neg (by omega), Nat.add_sub_cancel_left, Nat.mod_eq_of_lt hra]
    obtain ⟨v, hv⟩ : ∃ v, v = leNat (s.bytesAt (mData (strandOf c) + off) (wideBytes e)) := ⟨_, rfl⟩
    have hext : extend 0 (leNat (s.bytesAt (mData (strandOf c) + off) (wideBytes e))) = v := hv.symm
    rw [hext] at hto
    have hact := ((h.acts_reads hr.reads).modCtx id).modCtx fun y => y.setDst (32 + e.ra % 16) false v
    rw [id, hdst] at hact
    obtain ⟨u, hu, he⟩ := h.completes_ended hexec hact (by rw [hl]; exact hto) h.cs_running (Ctx.trapOf_zero _)
    refine ⟨u, hu, ?_, he.pc⟩
    rw [← hv, ← Ctx.fr_setF]
    exact h.floatOnly ((hr.reads.spares.modCtx g id).modCtx g _) he (fun _ => rfl) fun _ => rfl
  · have hexec : exec (.fld c e) s = .next (s.issue c e (formOf 0xE7C0) fun s g x next =>
        s.fresult g e.ra next (if e.wide then f64.convert x.rm (f32.decode (e.imm % 2 ^ 32)) else (e.imm % 2 ^ 32, 0))) :=
      congrArg _ (if_pos hm)
    have hval : (if e.wide then f64.convert x.rm (f32.decode (e.imm % 2 ^ 32)) else (e.imm % 2 ^ 32, 0)) = (e.imm % 2 ^ 32, 0) :=
      if_neg (by rw [hw]; exact Bool.false_ne_true)
    obtain ⟨t, ht, ho, -, hp⟩ := h.completes_float (r := (e.imm % 2 ^ 32, 0)) hexec (by rw [hval]) x.trapOf_zero
    exact ⟨t, ht, ho, hp⟩

/-! ### Stores -/

section
variable {s s1 : State} {c g : Nat} {e : Enc} {f : Form} {x : Ctx}

theorem State.busKey_of_pwr {s t : State} (h : t.pwr = s.pwr) (c a : Nat) : t.busKey c a = s.busKey c a := by
  unfold State.busKey State.linkUp
  rw [h]

/-- What the write buffer holds stays buffered while the core and the links do. -/
theorem Buffered.congr {u t : State} {a n v : Nat} (h : Buffered u c a n v) (hc : t.core c = u.core c) (hp : t.pwr = u.pwr) :
    Buffered t c a n v := fun i hi => by
  rw [hc, State.busKey_of_pwr hp]
  exact h i hi

/-- A store of a number that enters the write buffer of the core, in a state that reads of the instruction have left. -/
theorem Issues.completes_store (h : Issues s c e f g s1 x) {i : Instr} {body : State → Nat → Ctx → Word → Res}
    (hi : exec i s = .next (s.issue c e f body)) {s2 : State} (hr : s1.Reads c s2) {a n v : Nat} (hn : n ≤ 8) (hs : Buffers s2 c g a n)
    {post : Ctx → Ctx} {pc : Word}
    (hb : ∀ u, s2.coreStore c g a (leBytes n v) = .ok u → body s1 g x (x.nextPc f e) = .next (u.modCtx g post) pc 0 none)
    (hp : (post x).SameButGeneral x) :
    Completes i s fun t => RegsOnly s c g x (post x).gr t ∧ Buffered t c a n v ∧ (t.ctx g).pc = pc := by
  obtain ⟨k, hk, hbuf⟩ := State.coreStore_number h.core_eq.1 hn hs v
  have hact : s1.Acts g (post x) ((s2.setCore c k).modCtx g post) :=
    ((h.acts_reads hr).of_ctxs (v := s2.setCore c k) rfl).modCtx post
  obtain ⟨t, ht, he⟩ := h.completes_ended hi hact (hb _ hk) (hp.cs.trans h.cs_running) (Ctx.trapOf_zero _)
  have hpwr : t.pwr = ((s2.setCore c k).modCtx g post).pwr := he.stays.keeps .pwr (by decide)
  exact ⟨t, ht, h.regsOnly ((hr.spares.of_eq (v := s2.setCore c k) rfl rfl).modCtx g post) he hp, hbuf.congr (he.core c) hpwr, he.pc⟩

theorem Issues.completes_storeEa (h : Issues s c e f g s1 x) {i : Instr} {n a : Nat} {value : Ctx → Nat}
    (hi : exec i s = .next (s.storeEa c e f n value)) (hl : x.locate e (x.ea e) n = some a) (hn : n ≤ 8) (hs : Buffers s1 c g a n) :
    Completes i s fun t => RegsOnly s c g x x.gr t ∧ Buffered t c a n (value x) ∧ (t.ctx g).pc = x.nextPc f e := by
  refine h.completes_store (post := id) hi (.refl s1 c) hn hs (fun u hu => ?_) (.refl x)
  rw [hl]
  dsimp only
  rw [State.storeRes, hu]

end

/-- Settles O6: each row is a store to EA, and STX one with rb stepped after it. -/
theorem storesEnterBuffer : Obligations.StoresEnterBuffer := by
  unfold Obligations.StoresEnterBuffer
  refine ⟨fun r hr s c e g s1 x a h hl hs => ?_, fun s c e g s1 x a h hl hs => ?_⟩
  · simp only [storeRows, List.mem_cons, List.not_mem_nil, or_false] at hr
    obtain rfl | rfl | rfl | rfl := hr
    · exact h.completes_storeEa rfl hl (wideBytes_le e) hs
    · exact h.completes_storeEa (n := 1) rfl hl (by decide) hs
    · exact h.completes_storeEa (n := 2) rfl hl (by decide) hs
    · exact h.completes_storeEa rfl hl (wideBytes_le e) hs
  · refine h.completes_store (i := .stx c e) (post := Ctx.wrPost e (x.postRb e)) rfl (.refl s1 c) (wideBytes_le e) hs (fun u hu => ?_)
      (Ctx.sameButGeneral_setG x _ _)
    dsimp only
    rw [hl]
    dsimp only
    rw [State.storeRes, hu]

/-! ### XCHG -/

/-- A cut's copy under way (R564): line 0 of Q, whose first byte is 1, is due. -/
def cutCopied : State :=
  { Sys2Proof.Tests.coreA.setByte (mHead + 0x80000) 1 with
    ntm := { Sys2Proof.Tests.coreA.ntm with mono := 100, nsec := 100 }
    img := { Sys2Proof.Tests.coreA.img with copying := true, cutLines := [0], dirty := [0] } }

theorem xchg_cutCopied : ∃ u, exec (.xchg 0 (Sys2Proof.Tests.enc [] 2 8 4 0 0))
    (Sys2Proof.Tests.coded cutCopied 0xE4E0 (Sys2Proof.Tests.enc [] 2 8 4 0 0)) = .next u ∧ u.byte mFrame = 1 :=
  ⟨_, rfl, by decide +kernel⟩

/-- Refutes O7: where a cut's copy is under way, the drain of XCHG's own store saves a line of Q in the frame image. -/
theorem not_addressAndExchange : ¬ Obligations.AddressAndExchange := by
  unfold Obligations.AddressAndExchange
  rintro ⟨-, hxchg⟩
  have hissue : Sys2Proof.Tests.issuesAt cutCopied 0xE4E0 (Sys2Proof.Tests.enc [] 2 8 4 0 0) = true := by decide +kernel
  obtain ⟨t, ht, -, hbytes, -⟩ := hxchg _ _ _ _ _ _ 0x103FFFF8 0x3FFFF8 (Sys2Proof.Tests.issues_at hissue) (by decide +kernel) (by decide)
    (Sys2Proof.Tests.own_of (by decide +kernel)) (by decide +kernel)
  obtain ⟨u, hu, hone⟩ := xchg_cutCopied
  rw [show u = t from Host.Outcome.next.inj (hu.symm.trans ht), hbytes, if_neg (by decide)] at hone
  exact absurd hone (by decide +kernel)

end Sys2Proof.Machine
end


section
/-! PROOF. Branches, calls and SWTRAP (R81, R85, R96, R117). -/

namespace Sys2Proof.Machine

section
variable {s s1 : State} {c g : Nat} {e : Enc} {f : Form} {x : Ctx}

/-- An instruction that changes general registers alone and goes on at pc. -/
theorem Issues.completes_goto (h : Issues s c e f g s1 x) {i : Instr} {body : State → Nat → Ctx → Word → Res}
    (hi : exec i s = .next (s.issue c e f body)) {s2 : State} (hr : s1.Reads c s2) {post : Ctx → Ctx} {pc : Word}
    (hb : body s1 g x (x.nextPc f e) = .next (s2.modCtx g post) pc 0 none) (hp : (post x).SameButGeneral x) :
    Completes i s fun t => RegsOnly s c g x (post x).gr t ∧ (t.ctx g).pc = pc := by
  obtain ⟨t, ht, he⟩ := h.completes_ended hi ((h.acts_reads hr).modCtx post) hb (hp.cs.trans h.cs_running) (Ctx.trapOf_zero _)
  exact ⟨t, ht, h.regsOnly (hr.spares.modCtx g post) he hp, he.pc⟩

theorem Issues.completes_branch (h : Issues s c e f g s1 x) {i : Instr} {cond : Ctx → Bool} {post : Ctx → Ctx}
    (hi : exec i s = .next (s.branch c e f cond post)) (hp : (post x).SameButGeneral x) :
    Completes i s fun t => RegsOnly s c g x (post x).gr t ∧
      (t.ctx g).pc = if cond x then x.target e (x.nextPc f e) else x.nextPc f e :=
  h.completes_goto hi (.refl s1 c) rfl hp

/-- The stack's checks pass for a word between its limits (R85). -/
theorem Ctx.stackCheck_none {x : Ctx} {sp a : Nat} (hlo : x.sp 7 ≤ a) (hhi : a + 4 ≤ x.sp 8) (hal : sp % 4 = 0) :
    x.stackCheck sp a = none := by
  unfold Ctx.stackCheck
  rw [if_neg (by omega), if_neg (by omega)]

/-- An instruction of a task other than 0 that takes the SWTRAP trap halts with its effect done. -/
theorem Issues.completes_swtrap (h : Issues s c e f g s1 x) (hq : s.txnWaiting = []) {i : Instr}
    {body : State → Nat → Ctx → Word → Res} (hi : exec i s = .next (s.issue c e f body)) {pc : Word} {v : Nat}
    (hb : body s1 g x (x.nextPc f e) = .next s1 pc 0 (some v)) (h0 : x.task ≠ 0) :
    Completes i s fun t => (∀ n, (t.ctx g).gr n = x.gr n) ∧ (t.ctx g).finfo = BitVec.ofNat 32 (fSwtrap * 2 ^ 24 + v * 2 ^ 16) ∧
      (t.ctx g).fpc = x.pc ∧ (t.ctx g).pc = pc ∧ (t.ctx g).cs = .halted := by
  set y := x.after e (e.npb && !x.rep) true x.pc pc 0 with hy
  set u := (s1.modCtx g fun z => z.after e (e.npb && !x.rep) true x.pc pc 0).modCtx g Ctx.fullBracket with hu
  have hctx : u.ctx g = y.fullBracket := by rw [hu, State.ctx_modCtx_self, State.ctx_modCtx_self, h.ctx_self]
  have hrun : (u.ctx g).cs = .running := by rw [hctx, Ctx.cs_fullBracket, hy, Ctx.cs_after, h.cs_running]
  have hquiet : u.txnWaiting = [] := (State.txnWaiting_of_sess h.sess).trans hq
  have hend : s1.complete g e (e.npb && !x.rep) x.pc pc 0 (some v) = u.faulted g fSwtrap v x.pc 0 pc := by
    unfold State.complete
    rw [if_neg (by rw [h.cs_self]; decide)]
  have hf := State.faulted_ctx hquiet hrun fSwtrap v x.pc 0 pc
  rw [hctx] at hf
  have hhalt := hf.halts fun hc => h0 (by
    have := hc.1
    rwa [Ctx.task_fullBracket] at this)
  refine ⟨u.faulted g fSwtrap v x.pc 0 pc, ?_, fun n => (hf.general n).trans (Ctx.gr_fullBracket y n), hf.finfo, hf.fpc, hhalt.1, hhalt.2⟩
  rw [hi, State.issue_of_issues h, hb]
  exact congrArg _ hend

end

theorem Ctx.gr_setG_sub_one (x : Ctx) (n : Nat) : (x.setG n (x.gr n - 1)).gr = x.grAfter false n ((x.gr n).toNat + (2 ^ 32 - 1)) := by
  have hv : x.gr n - 1 = BitVec.ofNat 32 ((x.gr n).toNat + (2 ^ 32 - 1)) := by
    refine BitVec.eq_of_toNat_eq ?_
    rw [BitVec.toNat_sub, BitVec.toNat_ofNat, Nat.add_comm]
    rfl
  rw [hv]
  exact funext (Ctx.gr_setG_eq_grAfter x n _)

/-- Settles O8: a branch goes where its condition says, CALL and RET use the word of the stack, and SWTRAP traps. -/
theorem branchesAndCalls : Obligations.BranchesAndCalls := by
  unfold Obligations.BranchesAndCalls
  refine ⟨⟨fun s c e g s1 x h => ?_, fun s c e g s1 x h => ?_, fun s c e g s1 x h => ?_, fun s c e g s1 x h => ?_⟩,
    fun s c e g s1 x a h ha hlo hhi hal hs => ?_, fun s c e g s1 x off h hlo hhi hal ho => ?_, fun s c e g s1 x h h0 hq => ?_⟩
  · obtain ⟨t, ht, hr, hp⟩ := h.completes_branch (i := .bnz c e) (post := id) rfl (.refl x)
    exact ⟨t, ht, hr, by simpa only [decide_eq_true_eq] using hp⟩
  · obtain ⟨t, ht, hr, hp⟩ := h.completes_branch (i := .bz c e) (post := id) rfl (.refl x)
    exact ⟨t, ht, hr, by simpa only [decide_eq_true_eq] using hp⟩
  · obtain ⟨t, ht, hr, hp⟩ := h.completes_branch (i := .br c e) (post := id) rfl (.refl x)
    exact ⟨t, ht, hr, hp⟩
  · obtain ⟨t, ht, hr, hp⟩ := h.completes_branch (i := .dbnz c e) (post := fun y => y.setG e.ra (y.gr e.ra - 1)) rfl
      (Ctx.sameButGeneral_setG x _ _)
    have hone : x.gr e.ra - 1 ≠ 0 ↔ x.gr e.ra ≠ 1 := by rw [Ne, Ne, sub_eq_zero]
    rw [Ctx.gr_setG_sub_one] at hr
    exact ⟨t, ht, hr, by simpa only [decide_eq_true_eq, hone] using hp⟩
  · obtain ⟨t, ht, hr, hb, hp⟩ := h.completes_store (i := .call c e) (post := fun y => y.setG 31 (BitVec.ofNat 32 a)) rfl (.refl s1 c)
      (n := 4) (v := (x.nextPc (formOf 0xE540) e).toNat) (by decide) hs (fun u hu => by
        dsimp only
        rw [← ha, Ctx.stackCheck_none hlo hhi hal]
        dsimp only
        rw [hu]) (Ctx.sameButGeneral_setG x _ _)
    rw [show (x.setG 31 (BitVec.ofNat 32 a)).gr = x.grAfter false 31 a from funext (Ctx.gr_setG_eq_grAfter x 31 a)] at hr
    exact ⟨t, ht, hr, hb, hp⟩
  · obtain ⟨u, hu, hl⟩ := State.coreLoad_bytes ho (by decide) h.cs_self false
    rw [h.bytesAt] at hu
    obtain ⟨t, ht, hr, hp⟩ := h.completes_goto (i := .ret c e)
      (post := fun y => y.setG 31 (BitVec.ofNat 32 ((x.gr 31).toNat + 4))) rfl hl.reads (by
        dsimp only
        rw [Ctx.stackCheck_none hlo hhi hal]
        dsimp only
        rw [hu]) (Ctx.sameButGeneral_setG x _ _)
    rw [show (x.setG 31 (BitVec.ofNat 32 ((x.gr 31).toNat + 4))).gr = x.grAfter false 31 ((x.gr 31).toNat + 4) from
      funext (Ctx.gr_setG_eq_grAfter x 31 _)] at hr
    exact ⟨t, ht, hr, hp⟩
  · exact h.completes_swtrap (i := .swtrap c e) hq rfl rfl h0

end Sys2Proof.Machine
end


section
/-! PROOF. Block instructions and bit instructions (R86, R87, R122–R125, R130). -/

namespace Sys2Proof.Machine

/-! ### What an iteration steps -/

theorem Ctx.sreg_setSp (x : Ctx) (n v r : Nat) : (x.setSp n v).sreg r = if r = n then BitVec.ofNat 32 v else x.sreg r := mget_mput _ _ _ _ _

theorem Ctx.sreg_stepBlock_of_ne (x : Ctx) {r : Nat} (h0 : r ≠ 20) (h1 : r ≠ 21) (h2 : r ≠ 22) : x.stepBlock.sreg r = x.sreg r := by
  unfold Ctx.stepBlock
  rw [Ctx.sreg_setSp, if_neg h0, Ctx.sreg_setSp, if_neg h2, Ctx.sreg_setSp, if_neg h1]

theorem Ctx.sp_lt (x : Ctx) (n : Nat) : x.sp n < 2 ^ 32 := (x.sreg n).isLt

theorem Ctx.sp_setSp_of_lt (x : Ctx) {n v : Nat} (hv : v < 2 ^ 32) : (x.setSp n v).sp n = v := by
  unfold Ctx.sp
  rw [Ctx.sreg_setSp, if_pos rfl, BitVec.toNat_ofNat, Nat.mod_eq_of_lt hv]

theorem Ctx.sp_setSp_of_ne (x : Ctx) {n r : Nat} (v : Nat) (h : r ≠ n) : (x.setSp n v).sp r = x.sp r := by
  unfold Ctx.sp
  rw [Ctx.sreg_setSp, if_neg h]

theorem Ctx.count_stepBlock (x : Ctx) : x.stepBlock.sp 20 = x.sp 20 - 1 :=
  Ctx.sp_setSp_of_lt _ ((Nat.sub_le _ _).trans_lt (x.sp_lt 20))

theorem Ctx.src_stepBlock (x : Ctx) : x.stepBlock.sp 21 = (x.sp 21 + sext 16 32 (x.sp 23 % 2 ^ 16)) % 2 ^ 32 := by
  unfold Ctx.stepBlock
  dsimp only
  rw [Ctx.sp_setSp_of_ne _ _ (by decide), Ctx.sp_setSp_of_ne _ _ (by decide), Ctx.sp_setSp_of_lt _ (Nat.mod_lt _ (by decide)),
    show bits (x.sp 23) 15 0 = x.sp 23 % 2 ^ 16 from congrArg (· % 2 ^ 16) (Nat.div_one _)]

theorem Ctx.dst_stepBlock (x : Ctx) : x.stepBlock.sp 22 = (x.sp 22 + sext 16 32 (x.sp 23 / 2 ^ 16)) % 2 ^ 32 := by
  have hlt := x.sp_lt 23
  have hbits : bits (x.sp 23) 31 16 = x.sp 23 / 2 ^ 16 := Nat.mod_eq_of_lt (by omega)
  unfold Ctx.stepBlock
  dsimp only
  rw [Ctx.sp_setSp_of_ne _ _ (by decide), Ctx.sp_setSp_of_lt _ (Nat.mod_lt _ (by decide)), hbits]

section
variable {s s1 : State} {c g : Nat} {e : Enc} {f : Form} {x : Ctx}

/-- An iteration that stepped the block registers and changed general registers alone beside them. -/
theorem Issues.stepped (h : Issues s c e f g s1 x) {v t : State} {y : Ctx} {pc : Word} {raised : Nat} (hs : s1.Spares c v)
    (he : s.Ended v g y pc raised t) (hy : y.SameButGeneral x.stepBlock) : Stepped s g x y.gr t := by
  have hsreg : ∀ r, r ≠ 1 → (t.ctx g).sreg r = x.stepBlock.sreg r := fun r hr => (he.special r hr).trans (hy.sreg r)
  have hsp : ∀ r, r ≠ 1 → (t.ctx g).sp r = x.stepBlock.sp r := fun r hr => congrArg BitVec.toNat (hsreg r hr)
  exact {
    general := he.general
    float := fun r => (he.float r).trans (hy.fr r)
    count := (hsp 20 (by decide)).trans x.count_stepBlock
    src := (hsp 21 (by decide)).trans x.src_stepBlock
    dst := (hsp 22 (by decide)).trans x.dst_stepBlock
    special := fun r h1 h20 h21 h22 => (hsreg r h1).trans (x.sreg_stepBlock_of_ne h20 h21 h22)
    others := he.others
    memory := h.byte_of_ended hs he }

theorem Ctx.more_stepBlock {x : Ctx} (h : x.sp 20 ≠ 0) : x.stepBlock.sp 20 ≠ 0 ↔ x.sp 20 ≠ 1 := by
  rw [Ctx.count_stepBlock]
  omega

/-- After an iteration of a move or fill (R86, R87). -/
theorem Issues.completes_blockNext (h : Issues s c e f g s1 x) {i : Instr} {body : State → Nat → Ctx → Word → Res}
    (hi : exec i s = .next (s.issue c e f body)) {v : State} (ha : s1.Acts g x v) (hs : s1.Spares c v) (hc : x.sp 20 ≠ 0)
    (hb : body s1 g x (x.nextPc f e) = v.blockNext g e (x.nextPc f e)) :
    Completes i s fun t => Stepped s g x x.gr t ∧ (t.ctx g).pc = x.pcStep f e ∧ t.core c = v.core c ∧ t.pwr = v.pwr := by
  have hact := ha.modCtx Ctx.stepBlock
  have hmore : (e.rpt = true ∧ ((v.modCtx g Ctx.stepBlock).ctx g).sp 20 ≠ 0) ↔ e.rpt = true ∧ x.sp 20 ≠ 1 := by
    rw [hact.self]
    exact and_congr_right' (Ctx.more_stepBlock hc)
  have finish : ∀ {pc : Word} {t : State}, s.Ended (v.modCtx g Ctx.stepBlock) g x.stepBlock pc 0 t → pc = x.pcStep f e →
      Stepped s g x x.gr t ∧ (t.ctx g).pc = x.pcStep f e ∧ t.core c = v.core c ∧ t.pwr = v.pwr := fun {pc t} he hpc =>
    ⟨h.stepped (y := x.stepBlock) (hs.modCtx g _) he (.refl _), he.pc.trans hpc, he.core c, he.stays.keeps .pwr (by decide)⟩
  unfold State.blockNext at hb
  dsimp only at hb
  by_cases hr : e.rpt = true ∧ x.sp 20 ≠ 1
  · rw [if_pos (hmore.2 hr)] at hb
    obtain ⟨t, ht, he⟩ := h.completes_again hi hact hb h.cs_running
    exact ⟨t, ht, finish he (if_pos hr).symm⟩
  · rw [if_neg fun hn => hr (hmore.1 hn)] at hb
    obtain ⟨t, ht, he⟩ := h.completes_ended hi hact hb h.cs_running (Ctx.trapOf_zero _)
    exact ⟨t, ht, finish he (if_neg hr).symm⟩

/-- After an iteration of a scan or compare (R123). -/
theorem Issues.completes_seek (h : Issues s c e f g s1 x) {i : Instr} {body : State → Nat → Ctx → Word → Res}
    (hi : exec i s = .next (s.issue c e f body)) {v : State} (hr : s1.Reads c v) (hc : x.sp 20 ≠ 0) {stop : Bool}
    (hb : body s1 g x (x.nextPc f e) = v.seekBlock g e (x.nextPc f e) stop) :
    Completes i s fun t =>
      if stop = true then RegsOnly s c g x (x.grAfter false e.ra 1) t ∧ (t.ctx g).pc = x.nextPc f e
      else Stepped s g x (if e.rpt = true ∧ x.sp 20 ≠ 1 then x.gr else x.grAfter false e.ra 0) t ∧ (t.ctx g).pc = x.pcStep f e := by
  have ha := h.acts_reads hr
  unfold State.seekBlock at hb
  dsimp only at hb
  cases stop with
  | true =>
    obtain ⟨t, ht, hregs, hpc⟩ := h.completes_goto hi hr (post := fun y => y.setG e.ra (BitVec.ofNat 32 1)) hb
      (Ctx.sameButGeneral_setG x _ _)
    rw [show (x.setG e.ra (BitVec.ofNat 32 1)).gr = x.grAfter false e.ra 1 from funext (Ctx.gr_setG_eq_grAfter x _ 1)] at hregs
    exact ⟨t, ht, hregs, hpc⟩
  | false =>
    have hact := ha.modCtx Ctx.stepBlock
    have hmore : (e.rpt = true ∧ ((v.modCtx g Ctx.stepBlock).ctx g).sp 20 ≠ 0) ↔ e.rpt = true ∧ x.sp 20 ≠ 1 := by
      rw [hact.self]
      exact and_congr_right' (Ctx.more_stepBlock hc)
    rw [if_neg Bool.false_ne_true] at hb
    by_cases hrep : e.rpt = true ∧ x.sp 20 ≠ 1
    · rw [if_pos (hmore.2 hrep)] at hb
      obtain ⟨t, ht, he⟩ := h.completes_again hi hact hb h.cs_running
      refine ⟨t, ht, ?_⟩
      dsimp only
      rw [if_neg Bool.false_ne_true, if_pos hrep]
      exact ⟨h.stepped (y := x.stepBlock) (hr.spares.modCtx g _) he (.refl _), he.pc.trans (if_pos hrep).symm⟩
    · rw [if_neg fun hn => hrep (hmore.1 hn)] at hb
      obtain ⟨t, ht, he⟩ := h.completes_ended hi (hact.modCtx fun y => y.setG e.ra (BitVec.ofNat 32 0)) hb
        ((Ctx.sameButGeneral_setG x.stepBlock _ _).cs.trans h.cs_running) (Ctx.trapOf_zero _)
      refine ⟨t, ht, ?_⟩
      dsimp only
      rw [if_neg Bool.false_ne_true, if_neg hrep]
      have hgr : (x.stepBlock.setG e.ra (BitVec.ofNat 32 0)).gr = x.grAfter false e.ra 0 :=
        funext (Ctx.gr_setG_eq_grAfter x.stepBlock _ 0)
      exact ⟨hgr ▸ h.stepped ((hr.spares.modCtx g _).modCtx g _) he (Ctx.sameButGeneral_setG _ _ _), he.pc.trans (if_neg hrep).symm⟩

end

/-! ### Where a store enters after a read -/

/-- What a core's address reaches depends on the links and the domains alone. -/
theorem State.coreWhere_congr {s t : State} (hp : t.part = s.part) (hw : t.pwr = s.pwr) (c a : Nat) (z : Bool) :
    t.coreWhere c a z = s.coreWhere c a z := by
  unfold State.coreWhere State.place State.strandUp State.domMem State.domFitted State.domSt State.strandFitted State.bwFitted State.linkUp
  rw [hp, hw]

theorem Buffers.congr {s t : State} {c g a n : Nat} (h : Buffers s c g a n) (hl : s.Loads c t) : Buffers t c g a n := by
  have hwhere := State.coreWhere_congr (hl.stays.keeps .part (by decide)) (hl.stays.keeps .pwr (by decide)) c a
  refine ⟨?_, fun w hw => h.place w ?_, ?_⟩
  · have := h.aligned
    unfold State.alignBad at this ⊢
    rwa [hwhere]
  · rwa [hwhere, hl.reads.ctx] at hw
  · rw [hl.reads.wbuf]
    exact h.room

theorem State.Loads.trans {s t u : State} {c : Nat} (h : s.Loads c t) (k : t.Loads c u) : s.Loads c u where
  reads := h.reads.trans k.reads
  stays := {
    same := fun f => (k.stays.same f).elim .inl fun hk => (h.stays.same f).imp_right fun hh => Field.Same.trans hk hh
    canonical := fun hc => k.stays.canonical (h.stays.canonical hc)
    drives := fun hd => k.stays.drives (h.stays.drives hd) }

theorem leBytes_leNat_bytesAt (s : State) (a n : Nat) : leBytes n (leNat (s.bytesAt a n)) = s.bytesAt a n := by
  have h : ∀ l : List Byte, leBytes l.length (leNat l) = l := by
    intro l
    induction l with
    | nil => rfl
    | cons b t ih =>
      have hb := b.isLt
      rw [List.length_cons, leBytes, leNat]
      congr 1
      · refine BitVec.eq_of_toNat_eq ?_
        rw [BitVec.toNat_ofNat]
        omega
      · rw [show (b.toNat + 256 * leNat t) / 256 = leNat t by omega]
        exact ih
  have := h (s.bytesAt a n)
  rwa [State.length_bytesAt] at this

/-- Own SRAM raises no ALIGN (R95). -/
theorem OwnBytes.aligned {s : State} {c g a n off : Nat} (h : OwnBytes s c g a n off) (m : Nat) : s.alignBad c a m = false := by
  obtain ⟨hlo, hhi, hoff⟩ := (State.coreWhere_own_iff s c a off _).1 h.own
  have hnot : ¬ (0x30000000 ≤ a ∧ a < 0x30200000) := by omega
  unfold State.alignBad
  rw [(State.coreWhere_own_iff s c a off false).2 ⟨hlo, hhi, hoff⟩, decide_eq_false hnot]
  dsimp only
  rw [Bool.or_false, Bool.and_false]

section
variable {s s1 : State} {c g : Nat} {e : Enc} {f : Form} {x : Ctx}

/-- An iteration that stores a number. -/
theorem Issues.completes_blockStore (h : Issues s c e f g s1 x) {i : Instr} {body : State → Nat → Ctx → Word → Res}
    (hi : exec i s = .next (s.issue c e f body)) {s2 : State} (hl : s1.Loads c s2) (hc : x.sp 20 ≠ 0) {d n v : Nat} (hn : n ≤ 8)
    (hs : Buffers s1 c g d n)
    (hb : ∀ u, s2.coreStore c g d (leBytes n v) = .ok u → body s1 g x (x.nextPc f e) = u.blockNext g e (x.nextPc f e)) :
    Completes i s fun t => Stepped s g x x.gr t ∧ (t.ctx g).pc = x.pcStep f e ∧ Buffered t c d n v := by
  obtain ⟨k, hk, hbuf⟩ := State.coreStore_number h.core_eq.1 hn (hs.congr hl) v
  obtain ⟨t, ht, hst, hpc, hcore, hpwr⟩ := h.completes_blockNext hi ((h.acts_reads hl.reads).of_ctxs (v := s2.setCore c k) rfl)
    (hl.reads.spares.of_eq rfl rfl) hc (hb _ hk)
  exact ⟨t, ht, hst, hpc, hbuf.congr hcore hpwr⟩

/-- One iteration of a move from own SRAM. -/
theorem Issues.completes_move (h : Issues s c e f g s1 x) {i : Instr} {n d off : Nat} (hi : exec i s = .next (s.moveBlock c e f n false))
    (hn : 0 < n ∧ n ≤ 8) (hc : x.sp 20 ≠ 0) (hd : x.locate e (x.sp 22) n = some d) (ho : OwnBytes s1 c g (x.sp 21) n off)
    (hs : Buffers s1 c g d n) :
    Completes i s fun t => Stepped s g x x.gr t ∧ (t.ctx g).pc = x.pcStep f e ∧
      Buffered t c d n (leNat (s.bytesAt (mData (strandOf c) + off) n)) := by
  obtain ⟨u, hu, hl⟩ := State.coreLoad_bytes ho hn.1 h.cs_self false
  refine h.completes_blockStore hi hl hc hn.2 hs fun w hw => ?_
  rw [← h.bytesAt, leBytes_leNat_bytesAt] at hw
  dsimp only
  rw [if_neg hc, hd]
  dsimp only
  rw [if_neg Bool.false_ne_true, if_neg (by rw [hs.aligned]; simp), hu]
  dsimp only
  rw [hw]

/-- A block instruction that finds BCNT 0 only goes on (R87). -/
theorem Issues.completes_noMove (h : Issues s c e f g s1 x) {i : Instr} {n : Nat} {fill : Bool}
    (hi : exec i s = .next (s.moveBlock c e f n fill)) (hc : x.sp 20 = 0) :
    Completes i s fun t => RegsOnly s c g x x.gr t ∧ (t.ctx g).pc = x.nextPc f e := by
  obtain ⟨t, ht, he⟩ := h.completes_ended hi h.acts (by dsimp only; rw [if_pos hc]) h.cs_running (Ctx.trapOf_zero _)
  exact ⟨t, ht, h.regsOnly (.refl s1 c) he (.refl x), he.pc⟩

/-- An instruction that puts a result into ra and goes on. -/
theorem Issues.completes_put (h : Issues s c e f g s1 x) {i : Instr} {body : State → Nat → Ctx → Word → Res}
    (hi : exec i s = .next (s.issue c e f body)) {s2 : State} (hr : s1.Reads c s2) {w : Ctx → Word} {v : Nat}
    (hw : w x = BitVec.ofNat 32 v)
    (hb : body s1 g x (x.nextPc f e) = .next (s2.modCtx g fun y => y.setG e.ra (w y)) (x.nextPc f e) 0 none) :
    Completes i s fun t => RegsOnly s c g x (x.grAfter false e.ra v) t ∧ (t.ctx g).pc = x.nextPc f e := by
  have := h.completes_goto hi hr hb (Ctx.sameButGeneral_setG x e.ra (w x))
  rwa [hw, show (x.setG e.ra (BitVec.ofNat 32 v)).gr = x.grAfter false e.ra v from funext (Ctx.gr_setG_eq_grAfter x e.ra v)] at this

end

/-- Settles O11: an iteration reads and stores what its row says and steps the block registers. -/
theorem blockInstructions : Obligations.BlockInstructions := by
  unfold Obligations.BlockInstructions
  refine ⟨⟨fun r hr s c e g s1 x d off h hc hd ho hs => ?_, fun s c e g s1 x d h hc hd hs => ?_,
      fun s c e g s1 x a off h hc ha ho => ?_, fun s c e g s1 x d off off' h hc hd ho ho' => ?_⟩,
    fun r hr s c e g s1 x h hc => ?_, fun s c e g s1 x h hc => ?_, fun s c e g s1 x h hc => ?_, fun s c e g s1 x h hc => ?_⟩
  · simp only [moveRows, List.mem_cons, List.not_mem_nil, or_false] at hr
    obtain rfl | rfl | rfl := hr
    · exact h.completes_move (n := 1) rfl (by decide) hc hd ho hs
    · exact h.completes_move (n := 2) rfl (by decide) hc hd ho hs
    · exact h.completes_move (n := wideBytes e) rfl ⟨wideBytes_pos e, wideBytes_le e⟩ hc hd ho hs
  · refine h.completes_blockStore (i := .fillw c e) rfl (.refl s1 c) hc (wideBytes_le e) hs fun w hw => ?_
    dsimp only
    rw [if_neg hc, hd]
    dsimp only
    rw [if_pos rfl, hw]
  · obtain ⟨u, hu, hl⟩ := State.coreLoad_bytes ho (by decide) h.cs_self false
    rw [h.bytesAt] at hu
    obtain ⟨t, ht, hp⟩ := h.completes_seek (i := .scanw c e) rfl hl.reads hc
      (stop := decide (leNat (s.bytesAt (mData (strandOf c) + off) 4) = (x.gr e.rb).toNat)) (by
        rw [if_neg hc, ha]
        dsimp only
        rw [hu])
    exact ⟨t, ht, by simpa only [decide_eq_true_eq] using hp⟩
  · obtain ⟨u, hu, hl⟩ := State.coreLoad_bytes ho (by decide) h.cs_self false
    obtain ⟨u', hu', hl'⟩ := State.coreLoad_bytes (ho'.congr hl.reads) (by decide) (by rw [hl.reads.ctx]; exact h.cs_self) false
    rw [h.bytesAt] at hu
    rw [State.bytesAt_congr (s := s) fun i _ => (hl.reads.byte _).trans (h.byte _)] at hu'
    obtain ⟨t, ht, hp⟩ := h.completes_seek (i := .cmpw c e) rfl (hl.trans hl').reads hc
      (stop := decide (s.bytesAt (mData (strandOf c) + off) 4 ≠ s.bytesAt (mData (strandOf c) + off') 4)) (by
        rw [if_neg hc, hd]
        dsimp only
        rw [State.compareWords, ho.aligned, if_neg Bool.false_ne_true, ho'.aligned, if_neg Bool.false_ne_true, hu]
        dsimp only
        rw [hu'])
    exact ⟨t, ht, by simpa only [decide_eq_true_eq] using hp⟩
  · simp only [moveRows, List.mem_cons, List.not_mem_nil, or_false] at hr
    obtain rfl | rfl | rfl := hr
    all_goals exact h.completes_noMove rfl hc
  · exact h.completes_noMove rfl hc
  · exact h.completes_put (i := .scanw c e) (w := fun _ => 0) rfl (.refl s1 c) rfl (by rw [if_pos hc])
  · exact h.completes_put (i := .cmpw c e) (w := fun _ => 0) rfl (.refl s1 c) rfl (by rw [if_pos hc])

end Sys2Proof.Machine
end


section
/-! PROOF. Bit instructions and edges (R124, R125, R130). -/

namespace Sys2Proof.Machine

/-- The byte that a bit store writes. -/
theorem withBit_eq (b : Byte) (n : Nat) (v : Bool) : [withBit b n v] = leBytes 1 (bitPut b n v) := by
  have hbit : ∀ i < 8, (putBit b.toNat n v).testBit i = (bitPut b n v).testBit i := fun i hi => by
    have hself : (bitPut b n v).testBit i = if i = n then v else b.toNat.testBit i := by
      cases v with
      | true =>
        unfold bitPut
        rw [if_pos rfl, Nat.testBit_or, Nat.testBit_two_pow]
        by_cases h : i = n
        · simp [h]
        · simp [h, Ne.symm h]
      | false =>
        unfold bitPut
        rw [if_neg Bool.false_ne_true, BitVec.testBit_toNat, BitVec.getLsbD_and, BitVec.getLsbD_not, BitVec.getLsbD_ofNat,
          Nat.testBit_two_pow, ← BitVec.testBit_toNat]
        by_cases h : i = n
        · rw [if_pos h, decide_eq_true h.symm, decide_eq_true hi, Bool.and_self, Bool.not_true, Bool.and_false, Bool.and_false]
        · rw [if_neg h, decide_eq_false (Ne.symm h), decide_eq_true hi, Bool.true_and, Bool.true_and, Bool.not_false, Bool.and_true]
    rw [hself]
    by_cases h : i = n
    · rw [if_pos h, h, testBit_putBit_self]
    · rw [if_neg h, testBit_putBit_ne _ _ h]
  refine congrArg (· :: []) (BitVec.eq_of_getLsbD_eq fun i hi => ?_)
  rw [withBit, BitVec.getLsbD_ofNat, BitVec.getLsbD_ofNat, hbit i hi]

section
variable {s s1 : State} {c g : Nat} {e : Enc} {f : Form} {x : Ctx} {b : Byte}

theorem State.wbuf_landCtx (s : State) (g : Nat) (c : Nat) : ((s.landCtx g).core c).wbuf = (s.core c).wbuf := by
  have hcores : ∀ (l : List Flight) (u : State), (u.each l State.landFlight).core c = u.core c := by
    intro l
    induction l with
    | nil => exact fun _ => rfl
    | cons f t ih => exact fun u => ih (u.landFlight f)
  unfold State.landCtx
  dsimp only
  split
  · rfl
  · rw [State.modCore, State.core_setCore]
    split
    · rename_i hc
      subst hc
      dsimp only
      rw [hcores]
    · rw [hcores]

theorem Issues.wbuf (h : Issues s c e f g s1 x) : (s1.core c).wbuf = (s.core c).wbuf :=
  h.reads.wbuf.trans (State.wbuf_landCtx s g c)

theorem State.bytesAt_one (s : State) (a : Nat) : s.bytesAt a 1 = [s.byte a] := by
  simp [State.bytesAt]

/-- The instruction's operand is a bit of byte b of own SRAM, which a store may enter the write buffer for. -/
structure Issues.BitAt (h : Issues s c e f g s1 x) (b : Byte) : Prop where
  own : ∃ off, OwnBytes s1 c g (x.ea e) 1 off ∧ b = s.byte (mData (strandOf c) + off)
  room : Buffers s1 c g (x.ea e) 1

variable {h : Issues s c e f g s1 x}

/-- The byte of the bit operand, read through the bit unit. -/
theorem Issues.BitAt.read (hb : h.BitAt b) : ∃ t, s1.Loads c t ∧ ∀ k : State → Byte → Res, s1.bitRead c g (x.ea e) k = k t b := by
  obtain ⟨off, ho, hv⟩ := hb.own
  obtain ⟨t, ht, hl⟩ := State.coreLoad_bytes ho Nat.one_pos h.cs_self true
  rw [h.bytesAt, State.bytesAt_one, ← hv] at ht
  exact ⟨t, hl, fun k => by rw [State.bitRead, ht]; rfl⟩

/-- A bit instruction that combines ra with the bit. -/
theorem Issues.BitAt.completes_logic (hat : h.BitAt b) {i : Instr} {p : Bool → Bool → Bool}
    (hi : exec i s = .next (s.bitLogic c e f p)) :
    Completes i s fun t =>
      RegsOnly s c g x (x.grAfter false e.ra (if p (decide (x.gr e.ra ≠ 0)) (b.toNat.testBit e.imm) then 1 else 0)) t ∧
        (t.ctx g).pc = x.nextPc f e := by
  obtain ⟨t, hl, hk⟩ := hat.read
  have hbody : exec i s = .next (s.issue c e f fun s g x next => s.bitRead c g (x.ea e) fun s b => .next (s.modCtx g fun x =>
    x.setG e.ra (BitVec.ofNat 32 (b2n (p (decide (x.gr e.ra ≠ 0)) (b.toNat.testBit e.imm))))) next 0 none) := hi
  exact h.completes_put hbody hl.reads (w := fun y => BitVec.ofNat 32 (b2n (p (decide (y.gr e.ra ≠ 0)) (b.toNat.testBit e.imm))))
    (v := b2n (p (decide (x.gr e.ra ≠ 0)) (b.toNat.testBit e.imm))) rfl (hk _)

/-- A bit instruction that writes its bit, registers changed beside it as post says. -/
theorem Issues.BitAt.completes_write (hat : h.BitAt b) {i : Instr} {body : State → Nat → Ctx → Word → Res}
    (hi : exec i s = .next (s.issue c e f body)) {v : Bool} {post : Ctx → Ctx}
    (hb : ∀ t, (∀ k : State → Byte → Res, s1.bitRead c g (x.ea e) k = k t b) →
      body s1 g x (x.nextPc f e) = t.storeRes c g (x.ea e) [withBit b e.imm v] (x.nextPc f e) post)
    (hp : (post x).SameButGeneral x) :
    Completes i s fun t => RegsOnly s c g x (post x).gr t ∧ (t.ctx g).pc = x.nextPc f e ∧
      Buffered t c (x.ea e) 1 (bitPut b e.imm v) := by
  obtain ⟨u, hl, hk⟩ := hat.read
  obtain ⟨t, ht, hr, hbuf, hpc⟩ := h.completes_store hi hl.reads (by decide) (hat.room.congr hl) (fun w hw => by
    rw [hb u hk, State.storeRes, withBit_eq, hw]) hp
  exact ⟨t, ht, hr, hpc, hbuf⟩

/-- A bit instruction that reads its bit at most and writes registers alone. -/
theorem Issues.completes_quiet (h : Issues s c e f g s1 x) {i : Instr} {body : State → Nat → Ctx → Word → Res}
    (hi : exec i s = .next (s.issue c e f body)) {s2 : State} (hr : s1.Reads c s2) {post : Ctx → Ctx}
    (hb : body s1 g x (x.nextPc f e) = .next (s2.modCtx g post) (x.nextPc f e) 0 none)
    (hp : (post x).SameButGeneral x) :
    Completes i s fun t => RegsOnly s c g x (post x).gr t ∧ (t.ctx g).pc = x.nextPc f e ∧
      (t.core c).wbuf = (s.core c).wbuf := by
  obtain ⟨t, ht, he⟩ := h.completes_ended hi ((h.acts_reads hr).modCtx post) hb (hp.cs.trans h.cs_running)
    (Ctx.trapOf_zero _)
  refine ⟨t, ht, h.regsOnly (hr.spares.modCtx g post) he hp, he.pc, ?_⟩
  rw [he.core]
  exact hr.wbuf.trans h.wbuf

/-- BSET and BRST make no access where ra is 0. -/
theorem Issues.BitAt.completes_force (hat : h.BitAt b) {i : Instr} {v : Bool}
    (hi : exec i s = .next (s.bitForce c e f v)) :
    Completes i s fun t => RegsOnly s c g x x.gr t ∧ (t.ctx g).pc = x.nextPc f e ∧
      if x.gr e.ra = 0 then (t.core c).wbuf = (s.core c).wbuf else Buffered t c (x.ea e) 1 (bitPut b e.imm v) := by
  have hbody : exec i s = .next (s.issue c e f fun s g x next => if x.gr e.ra = 0 then .next s next 0 none
    else s.bitRead c g (x.ea e) fun s b => s.storeRes c g (x.ea e) [withBit b e.imm v] next id) := hi
  by_cases h0 : x.gr e.ra = 0
  · obtain ⟨t, ht, he⟩ := h.completes_ended hbody h.acts (if_pos h0) h.cs_running (Ctx.trapOf_zero _)
    refine ⟨t, ht, h.regsOnly (.refl s1 c) he (.refl x), he.pc, ?_⟩
    rw [if_pos h0, he.core]
    exact h.wbuf
  · obtain ⟨t, ht, hr, hpc, hbuf⟩ := hat.completes_write hbody (v := v) (post := id)
      (fun t hk => (if_neg h0).trans (hk _)) (.refl x)
    exact ⟨t, ht, hr, hpc, by rwa [if_neg h0]⟩

/-- An edge: the result goes to ra, and the bit is written where it changes. -/
theorem Issues.BitAt.completes_edge (hat : h.BitAt b) {i : Instr} {rising : Bool}
    (hi : exec i s = .next (s.edgeOp c e f rising)) {v : Nat}
    (hv : b2n (if rising then decide (x.gr e.ra ≠ 0) && !b.toNat.testBit e.imm else !decide (x.gr e.ra ≠ 0) && b.toNat.testBit e.imm) = v) :
    Completes i s fun t => RegsOnly s c g x (x.grAfter false e.ra v) t ∧ (t.ctx g).pc = x.nextPc f e ∧
      if decide (x.gr e.ra ≠ 0) = b.toNat.testBit e.imm then (t.core c).wbuf = (s.core c).wbuf
      else Buffered t c (x.ea e) 1 (bitPut b e.imm (decide (x.gr e.ra ≠ 0))) := by
  have hbody : exec i s = .next (s.issue c e f fun s g x next => s.bitRead c g (x.ea e) fun s b =>
    if decide (x.gr e.ra ≠ 0) = b.toNat.testBit e.imm then
      .next (s.modCtx g fun y => y.setG e.ra (BitVec.ofNat 32 (b2n (if rising then decide (x.gr e.ra ≠ 0) && !b.toNat.testBit e.imm
        else !decide (x.gr e.ra ≠ 0) && b.toNat.testBit e.imm)))) next 0 none
    else s.storeRes c g (x.ea e) [withBit b e.imm (decide (x.gr e.ra ≠ 0))] next fun y => y.setG e.ra (BitVec.ofNat 32 (b2n
      (if rising then decide (x.gr e.ra ≠ 0) && !b.toNat.testBit e.imm else !decide (x.gr e.ra ≠ 0) && b.toNat.testBit e.imm)))) := hi
  have hp := Ctx.sameButGeneral_setG x e.ra (BitVec.ofNat 32 v)
  have hgr : (x.setG e.ra (BitVec.ofNat 32 v)).gr = x.grAfter false e.ra v := funext (Ctx.gr_setG_eq_grAfter x e.ra v)
  by_cases hc : decide (x.gr e.ra ≠ 0) = b.toNat.testBit e.imm
  · obtain ⟨u, hl, hk⟩ := hat.read
    obtain ⟨t, ht, hr, hpc, hbuf⟩ := h.completes_quiet hbody hl.reads (post := fun y => y.setG e.ra (BitVec.ofNat 32 v)) (by
      rw [hk]
      rw [if_pos hc, hv]) hp
    rw [hgr] at hr
    exact ⟨t, ht, hr, hpc, by rwa [if_pos hc]⟩
  · obtain ⟨t, ht, hr, hpc, hbuf⟩ := hat.completes_write hbody (v := decide (x.gr e.ra ≠ 0))
      (post := fun y => y.setG e.ra (BitVec.ofNat 32 v)) (fun t hk => by
        rw [hk]
        rw [if_neg hc, hv]) hp
    rw [hgr] at hr
    exact ⟨t, ht, hr, hpc, by rwa [if_neg hc]⟩

end

/-- Settles O12: a bit instruction reads its byte through the bit unit, and one that writes puts the byte with its bit into the buffer. -/
theorem bitResults : Obligations.BitResults := by
  unfold Obligations.BitResults
  refine ⟨fun r hr s c e g s1 x b ⟨h, ho, hroom⟩ => ?_, fun s c e g s1 x b ⟨h, ho, hroom⟩ => ?_, fun s c e g s1 x b ⟨h, ho, hroom⟩ => ?_, fun s c e g s1 x b ⟨h, ho, hroom⟩ => ?_,
    fun s c e g s1 x b ⟨h, ho, hroom⟩ => ?_, fun s c e g s1 x b ⟨h, ho, hroom⟩ => ?_⟩
  · simp only [bitRows, List.mem_cons, List.not_mem_nil, or_false] at hr
    obtain rfl | rfl | rfl | rfl | rfl := hr
    all_goals exact (Issues.BitAt.mk (h := h) ho hroom).completes_logic rfl
  · have hbody : exec (.bst c e) s = .next (s.issue c e (formOf 0xE920) fun s g x next => s.bitRead c g (x.ea e) fun s b =>
      s.storeRes c g (x.ea e) [withBit b e.imm (decide (x.gr e.ra ≠ 0))] next id) := rfl
    exact (Issues.BitAt.mk (h := h) ho hroom).completes_write (post := id) hbody (fun t hk => hk _) (.refl x)
  · exact (Issues.BitAt.mk (h := h) ho hroom).completes_force (i := .bset c e) rfl
  · exact (Issues.BitAt.mk (h := h) ho hroom).completes_force (i := .brst c e) rfl
  · refine (Issues.BitAt.mk (h := h) ho hroom).completes_edge (i := .edgr c e) rfl ?_
    cases b.toNat.testBit e.imm <;> by_cases h0 : x.gr e.ra = 0 <;> simp [h0, b2n]
  · refine (Issues.BitAt.mk (h := h) ho hroom).completes_edge (i := .edgf c e) rfl ?_
    cases b.toNat.testBit e.imm <;> by_cases h0 : x.gr e.ra = 0 <;> simp [h0, b2n]

end Sys2Proof.Machine
end


section
/-! PROOF. System instructions (R15, R66, R93, R135, R136). -/

namespace Sys2Proof.Machine

section
variable {s s1 : State} {c g : Nat} {e : Enc} {f : Form} {x : Ctx}

/-- An instruction whose body left the registers alone. -/
theorem Issues.regsOnly_same (h : Issues s c e f g s1 x) {v t : State} {y : Ctx} {pc : Word} {raised : Nat} (hs : s1.Spares c v)
    (he : s.Ended v g y pc raised t) (hg : ∀ r, y.gr r = x.gr r) (hf : ∀ r, y.fr r = x.fr r) (hr : ∀ r, y.sreg r = x.sreg r) :
    RegsOnly s c g x x.gr t where
  general r := (he.general r).trans (hg r)
  float r := (he.float r).trans (hf r)
  special r hr1 := (he.special r hr1).trans (hr r)
  others := he.others
  memory := h.byte_of_ended hs he
  objects := h.ob_of_ended hs he

/-- An instruction that leaves its context waiting. -/
theorem Issues.completes_wait (h : Issues s c e f g s1 x) {i : Instr} {w : Wait}
    (hi : exec i s = .next (s.issue c e f fun s g _ next => .next (s.modCtx g fun y => { y with wait := w }) next 0 none)) :
    Completes i s fun t => (t.ctx g).wait = w ∧ (t.ctx g).pc = x.nextPc f e ∧ RegsOnly s c g x x.gr t := by
  obtain ⟨t, ht, he⟩ := h.completes_ended hi (h.acts.modCtx fun y => { y with wait := w }) rfl h.cs_running (Ctx.trapOf_zero _)
  exact ⟨t, ht, he.wait, he.pc, h.regsOnly_same ((State.Spares.refl s1 c).modCtx g _) he (fun _ => rfl) (fun _ => rfl) fun _ => rfl⟩

/-- An instruction that changes no context, no memory and no object. -/
theorem Issues.completes_beside (h : Issues s c e f g s1 x) {i : Instr} {body : State → Nat → Ctx → Word → Res}
    (hi : exec i s = .next (s.issue c e f body)) {v : State} (hb : body s1 g x (x.nextPc f e) = .next v (x.nextPc f e) 0 none)
    (hv : v.ctxs = s1.ctxs ∧ v.mem = s1.mem ∧ v.objs = s1.objs) :
    Completes i s fun t => (t.ctx g).pc = x.nextPc f e ∧ RegsOnly s c g x x.gr t ∧ t.Stays [.ctxs] v := by
  obtain ⟨t, ht, he⟩ := h.completes_ended hi (h.acts.of_ctxs hv.1) hb h.cs_running (Ctx.trapOf_zero _)
  exact ⟨t, ht, he.pc, h.regsOnly ((State.Spares.refl s1 c).of_eq hv.2.1 hv.2.2) he (.refl x), he.stays⟩

theorem Issues.linkUp (h : Issues s c e f g s1 x) (n : Nat) : s1.linkUp n = s.linkUp n := by
  have hp : s1.pwr = s.pwr := h.stays.keeps .pwr (by decide)
  unfold State.linkUp
  rw [hp]

/-! ### MFS and MTS -/

/-- MFS of a register that the task may read. -/
theorem Issues.completes_mfs (h : Issues s c e (formOf 0xEC40) g s1 x) {v : Nat} (hr : spReadable (decide (x.task = 0)) e.rb = true)
    (hv : s1.spValue g e.rb = v) : Completes (.mfs c e) s fun t => ∀ r, (t.ctx g).gr r = x.grAfter false e.ra v r := by
  have hi : exec (.mfs c e) s = .next (s.issue c e (formOf 0xEC40) fun s g x next =>
    if spReadable (decide (x.task = 0)) e.rb = false then .fault fPriv 0 0
    else .next (s.modCtx g fun y => (if e.rb = 24 then y.setSp 25 (s.dieUs (strandOf c) / 2 ^ 32) else y).setG e.ra
      (BitVec.ofNat 32 (s.spValue g e.rb))) next 0 none) := rfl
  have hcs : ∀ n, ((if e.rb = 24 then x.setSp 25 n else x).setG e.ra (BitVec.ofNat 32 (s1.spValue g e.rb))).cs = .running := fun n => by
    rw [(Ctx.sameButGeneral_setG _ _ _).cs]
    split
    · exact h.cs_running
    · exact h.cs_running
  obtain ⟨t, ht, he⟩ := h.completes_ended hi (h.acts.modCtx _) (if_neg (by rw [hr]; exact Bool.noConfusion)) (hcs _) (Ctx.trapOf_zero _)
  refine ⟨t, ht, fun r => (he.general r).trans ?_⟩
  rw [hv, Ctx.gr_setG_eq_grAfter]
  split
  · rfl
  · rfl

/-- MTS of a register that the task may write. -/
theorem Issues.completes_mts (h : Issues s c e (formOf 0xEC60) g s1 x) (hw : spWritable (decide (x.task = 0)) e.rb = true)
    (hcs : (x.putSp e.rb (x.gr e.ra).toNat).cs = x.cs) (hgr : (x.putSp e.rb (x.gr e.ra).toNat).gr = x.gr) :
    Completes (.mts c e) s fun t => (∀ r, (t.ctx g).gr r = x.gr r) ∧
      (∀ r, r ≠ 1 → (t.ctx g).sreg r = (x.putSp e.rb (x.gr e.ra).toNat).sreg r) ∧
      (t.ctx g).sreg 1 = (x.putSp e.rb (x.gr e.ra).toNat).sreg 1 := by
  have hi : exec (.mts c e) s = .next (s.issue c e (formOf 0xEC60) fun s g x next =>
    if spWritable (decide (x.task = 0)) e.rb = false then .fault fPriv 0 0
    else .next (s.modCtx g fun y => y.putSp e.rb (x.gr e.ra).toNat) next 0 none) := rfl
  obtain ⟨t, ht, he⟩ := h.completes_ended hi (h.acts.modCtx fun y => y.putSp e.rb (x.gr e.ra).toNat)
    (if_neg (by rw [hw]; exact Bool.noConfusion)) (hcs.trans h.cs_running) (Ctx.trapOf_zero _)
  exact ⟨t, ht, fun r => (he.general r).trans (congrFun hgr r), he.special, he.status.trans BitVec.or_zero⟩

/-- A fault of a task other than 0 halts its context. -/
theorem Issues.completes_fault (h : Issues s c e f g s1 x) (hq : s.txnWaiting = []) {i : Instr}
    {body : State → Nat → Ctx → Word → Res} (hi : exec i s = .next (s.issue c e f body)) {code detail addr : Nat}
    (hb : body s1 g x (x.nextPc f e) = .fault code detail addr) (h0 : x.task ≠ 0) :
    Completes i s fun t => (t.ctx g).finfo = BitVec.ofNat 32 (code * 2 ^ 24 + detail * 2 ^ 16) ∧ (t.ctx g).cs = .halted := by
  have hquiet : s1.txnWaiting = [] := (State.txnWaiting_of_sess h.sess).trans hq
  have hf := State.faulted_ctx hquiet h.cs_self code detail x.pc (BitVec.ofNat 32 addr) x.pc
  rw [h.ctx_self] at hf
  refine ⟨s1.faulted g code detail x.pc (BitVec.ofNat 32 addr) x.pc, ?_, hf.finfo, (hf.halts fun hc => h0 hc.1).2⟩
  rw [hi, State.issue_of_issues h, hb]

end

/-- The registers that MFS gives as they are held. -/
theorem spValue_held (s : State) (g : Nat) : ∀ n ∈ [1, 2, 3, 7, 8, 12, 13, 14, 15, 16, 17, 18, 19, 20, 21, 22, 23, 25],
    s.spValue g n = ((s.ctx g).sreg n).toNat := by
  simp only [List.forall_mem_cons, List.not_mem_nil, false_implies, implies_true, and_true]
  exact ⟨rfl, rfl, rfl, rfl, rfl, rfl, rfl, rfl, rfl, rfl, rfl, rfl, rfl, rfl, rfl, rfl, rfl, rfl⟩

theorem spReadable_held : ∀ n ∈ [1, 2, 3, 7, 8, 12, 13, 14, 15, 16, 17, 18, 19, 20, 21, 22, 23, 25], ∀ z, spReadable z n = true := by
  decide

theorem spReadable_made : ∀ n ∈ [0, 4, 5, 6, 10, 24], ∀ z, spReadable z n = true := by
  decide

/-- The special registers 12 to 23 take every bit. -/
theorem putSp_block (x : Ctx) (v : Nat) : ∀ n ∈ [12, 13, 14, 15, 16, 17, 18, 19, 20, 21, 22, 23], x.putSp n v = x.setSp n v := by
  simp only [List.forall_mem_cons, List.not_mem_nil, false_implies, implies_true, and_true]
  exact ⟨rfl, rfl, rfl, rfl, rfl, rfl, rfl, rfl, rfl, rfl, rfl, rfl⟩

theorem spWritable_block : ∀ n ∈ [12, 13, 14, 15, 16, 17, 18, 19, 20, 21, 22, 23], ∀ z, spWritable z n = true := by
  decide

theorem not_spWritable : ∀ n ∈ [0, 4, 5, 6, 7, 8, 9, 10, 11, 24, 25], spWritable false n = false := by
  decide

theorem ofNat_and (w : Word) (m : Nat) : BitVec.ofNat 32 (w.toNat &&& m) = w &&& BitVec.ofNat 32 m := by
  refine BitVec.eq_of_toNat_eq ?_
  rw [BitVec.toNat_ofNat, BitVec.toNat_and, BitVec.toNat_ofNat, Nat.and_mod_two_pow, Nat.mod_eq_of_lt w.isLt]

/-- Settles O15: each system instruction does what its row says to its context, its task's check-in or its trigger. -/
theorem systemInstructions : Obligations.SystemInstructions := by
  unfold Obligations.SystemInstructions
  refine ⟨fun s c e g s1 x h => h.completes_wait rfl, fun s c e g s1 x h => h.completes_wait rfl,
    fun s c e g s1 x h => h.completes_wait rfl, fun s c e g s1 x h => ?_, fun s c e g s1 x h => ?_,
    fun s c e g s1 x h => ⟨fun n hn hrb => ?_, fun p hp hrb => ?_⟩, fun s c e g s1 x h => ⟨fun n hn hrb => ?_, fun p hp hrb => ?_,
      fun n hn hrb h0 hq => ?_⟩, fun s c e g s1 x h himm hrole => ?_⟩
  · obtain ⟨t, ht, hpc, hr, -⟩ := h.completes_beside (i := .nop c e) rfl rfl ⟨rfl, rfl, rfl⟩
    exact ⟨t, ht, hpc, hr⟩
  · have hs := h.linkUp (strandOf c)
    have hchk : s1.chk = s.chk := h.stays.keeps .chk (by decide)
    obtain ⟨v, hv⟩ : ∃ v, v = s1.when (s1.linkUp (strandOf c)) fun s =>
      { s with chk := { s.chk with queue := s.chk.queue ++ [(x.task, strandOf c)] } } := ⟨_, rfl⟩
    have hsame : v.ctxs = s1.ctxs ∧ v.mem = s1.mem ∧ v.objs = s1.objs := by
      rw [hv, State.when]
      split
      · exact ⟨rfl, rfl, rfl⟩
      · exact ⟨rfl, rfl, rfl⟩
    have hqueue : v.chk.queue = if s.linkUp (strandOf c) = true then s.chk.queue ++ [(x.task, strandOf c)] else s.chk.queue := by
      rw [hv, State.when, hs, ← hchk]
      split
      · rfl
      · rfl
    obtain ⟨t, ht, hpc, hr, hst⟩ := h.completes_beside (i := .chkin c e) rfl (v := v) (by rw [hv]) hsame
    have htc : t.chk = v.chk := hst.keeps .chk (by decide)
    exact ⟨t, ht, (congrArg Chk.queue htc).trans hqueue, hpc, hr⟩
  · subst hrb
    exact h.completes_mfs (spReadable_held _ hn _) (by rw [spValue_held _ _ _ hn, h.ctx_self])
  · have hg := h.core_eq.1
    simp only [List.mem_cons, List.not_mem_nil, or_false] at hp
    have hread : spReadable (decide (x.task = 0)) e.rb = true := spReadable_made e.rb (by
      rw [hrb]
      obtain rfl | rfl | rfl | rfl | rfl | rfl := hp <;> simp) _
    refine h.completes_mfs hread ?_
    rw [hrb]
    obtain rfl | rfl | rfl | rfl | rfl | rfl := hp
    · exact congrArg (fun y : Ctx => y.pc.toNat) h.ctx_self
    · exact congrArg Ctx.task h.ctx_self
    · rfl
    · exact hg
    · exact congrArg Ctx.npcnt h.ctx_self
    · exact congrArg s1.nowOf hg
  · subst hrb
    have hput := putSp_block x (x.gr e.ra).toNat _ hn
    obtain ⟨t, ht, hgr, hsp, hst⟩ := h.completes_mts (spWritable_block _ hn _) (by rw [hput]; rfl) (by rw [hput]; rfl)
    have h1 : e.rb ≠ 1 := by
      intro h1
      rw [h1] at hn
      exact absurd hn (by decide)
    refine ⟨t, ht, ?_, hgr, fun m hm hm1 => ?_⟩
    · rw [hsp _ h1, hput, Ctx.sreg_setSp, if_pos rfl, BitVec.ofNat_toNat, BitVec.setWidth_eq]
    · rw [hsp _ hm1, hput, Ctx.sreg_setSp, if_neg hm]
  · simp only [List.mem_cons, List.not_mem_nil, or_false] at hp
    obtain rfl | rfl | rfl := hp
    · have hput : x.putSp e.rb (x.gr e.ra).toNat = x.setSp 1 ((x.gr e.ra).toNat &&& statusMask) := by rw [hrb]; rfl
      obtain ⟨t, ht, hgr, hsp, hst⟩ := h.completes_mts (by rw [hrb]; rfl) (by rw [hput]; rfl) (by rw [hput]; rfl)
      refine ⟨t, ht, ?_, hgr⟩
      rw [hst, hput, Ctx.sreg_setSp, if_pos rfl]
      exact ofNat_and _ _
    · have hput : x.putSp e.rb (x.gr e.ra).toNat = x.setSp 2 ((x.gr e.ra).toNat &&& statusMask) := by rw [hrb]; rfl
      obtain ⟨t, ht, hgr, hsp, hst⟩ := h.completes_mts (by rw [hrb]; rfl) (by rw [hput]; rfl) (by rw [hput]; rfl)
      refine ⟨t, ht, ?_, hgr⟩
      rw [hsp 2 (by decide), hput, Ctx.sreg_setSp, if_pos rfl]
      exact ofNat_and _ _
    · have hput : x.putSp e.rb (x.gr e.ra).toNat = x.setSp 3 ((x.gr e.ra).toNat &&& fpcrMask) := by rw [hrb]; rfl
      obtain ⟨t, ht, hgr, hsp, hst⟩ := h.completes_mts (by rw [hrb]; rfl) (by rw [hput]; rfl) (by rw [hput]; rfl)
      refine ⟨t, ht, ?_, hgr⟩
      rw [hsp 3 (by decide), hput, Ctx.sreg_setSp, if_pos rfl]
      exact ofNat_and _ _
  · have hwr : spWritable (decide (x.task = 0)) e.rb = false := by
      rw [decide_eq_false h0, hrb]
      exact not_spWritable n hn
    obtain ⟨t, ht, hf, hcs⟩ := h.completes_fault (i := .mts c e) hq rfl (if_pos hwr) h0
    exact ⟨t, ht, hf, hcs⟩
  · have hs := h.linkUp (strandOf c)
    have htds : s1.tds = s.tds := h.stays.keeps .tds (by decide)
    have hrole1 : s1.red.role = s.red.role := by
      have hr := h.stays.keeps .role (by decide)
      exact congrArg Prod.fst hr
    have himm' : e.imm % 256 = e.imm := Nat.mod_eq_of_lt (by omega)
    obtain ⟨v, hv⟩ : ∃ v, v = s1.when (s1.linkUp (strandOf c)) fun s => s.fire 6 (e.imm % 256) := ⟨_, rfl⟩
    have hfire : s1.fire 6 (e.imm % 256) = s1.setTds fun d => { d with trigQ := d.trigQ ++ [(6, e.imm)] } := by
      unfold State.fire
      rw [if_neg (by rw [hrole1]; exact hrole), himm']
    have hsame : v.ctxs = s1.ctxs ∧ v.mem = s1.mem ∧ v.objs = s1.objs := by
      rw [hv, State.when, hfire]
      split
      · exact ⟨rfl, rfl, rfl⟩
      · exact ⟨rfl, rfl, rfl⟩
    have hqueue : v.tds.trigQ = if s.linkUp (strandOf c) = true then s.tds.trigQ ++ [(6, e.imm)] else s.tds.trigQ := by
      rw [hv, State.when, hfire, hs, ← htds]
      split
      · rfl
      · rfl
    obtain ⟨t, ht, -, hr, hst⟩ := h.completes_beside (i := .signal c e) rfl (v := v)
      ((if_neg (by omega)).trans (by rw [hv])) hsame
    have htt : t.tds = v.tds := hst.keeps .tds (by decide)
    exact ⟨t, ht, hr, (congrArg Tds.trigQ htt).trans hqueue⟩

end Sys2Proof.Machine
end


section
/-! PROOF. Timer cells and CNT64 (R131–R134). -/

namespace Sys2Proof.Machine

/-! ### Numbers in memory -/

theorem leNat_lt (l : List Byte) : leNat l < 256 ^ l.length := by
  induction l with
  | nil => exact Nat.one_pos
  | cons b t ih =>
    have hb := b.isLt
    rw [leNat, List.length_cons, pow_succ]
    omega

theorem State.rd_lt (s : State) (a n : Nat) : s.rd a n < 256 ^ n := by
  have := leNat_lt (s.bytesAt a n)
  rwa [State.length_bytesAt] at this

theorem State.rd_congr {s t : State} (h : t.mem = s.mem) (a n : Nat) : t.rd a n = s.rd a n :=
  congrArg leNat (State.bytesAt_congr fun _ _ => State.byte_of_mem h _)

/-- A number stored elsewhere changes none. -/
theorem State.rd_wr_of_disjoint (s : State) {a n b m : Nat} (v : Nat) (h : b + m ≤ a ∨ a + n ≤ b) : (s.wr a n v).rd b m = s.rd b m := by
  refine congrArg leNat (State.bytesAt_congr fun i hi => ?_)
  rw [State.wr, State.byte_putBytes, length_leBytes, if_neg (by omega)]

/-- What a cell's words read as once it is written. -/
theorem State.rd_setCell (s : State) (k : Nat) (y : Cell) :
    (s.setCell k y).rd k 4 = y.preset % 2 ^ 32 ∧ (s.setCell k y).rd (k + 4) 4 = y.elapsed % 2 ^ 32 ∧
      (s.setCell k y).rd (k + 8) 4 = y.ctrl % 2 ^ 32 ∧ (s.setCell k y).rd (k + 12) 4 = y.stamp % 2 ^ 32 := by
  unfold State.setCell
  refine ⟨?_, ?_, ?_, State.rd_wr _ _ _ _⟩
  · rw [State.rd_wr_of_disjoint _ _ (by omega), State.rd_wr_of_disjoint _ _ (by omega), State.rd_wr_of_disjoint _ _ (by omega)]
    exact State.rd_wr _ _ _ _
  · rw [State.rd_wr_of_disjoint _ _ (by omega), State.rd_wr_of_disjoint _ _ (by omega)]
    exact State.rd_wr _ _ _ _
  · rw [State.rd_wr_of_disjoint _ _ (by omega)]
    exact State.rd_wr _ _ _ _

theorem State.putBytes_rest (s : State) (a : Nat) (b : List Byte) : (s.putBytes a b).ctxs = s.ctxs ∧ (s.putBytes a b).objs = s.objs := by
  induction b generalizing s a with
  | nil => exact ⟨rfl, rfl⟩
  | cons v t ih => exact ih (s.setByte a v) (a + 1)

theorem State.setCell_ctxs (s : State) (k : Nat) (y : Cell) : (s.setCell k y).ctxs = s.ctxs := by
  have h : ∀ (u : State) a n v, (u.wr a n v).ctxs = u.ctxs := fun u a n v => (State.putBytes_rest u a (leBytes n v)).1
  unfold State.setCell
  rw [h, h, h, h]

/-! ### CTRL -/

theorem testBit_ctrlWith (v : Nat) (q run pin : Bool) : (ctrlWith v q run pin).testBit 0 = q ∧ (ctrlWith v q run pin).testBit 1 = run ∧
    (ctrlWith v q run pin).testBit 2 = pin := by
  unfold ctrlWith
  refine ⟨?_, ?_, testBit_putBit_self _ _ _⟩
  · rw [testBit_putBit_ne _ _ (by decide), testBit_putBit_ne _ _ (by decide), testBit_putBit_self]
  · rw [testBit_putBit_ne _ _ (by decide), testBit_putBit_self]

theorem testBit_eq_decide (v i : Nat) : v.testBit i = decide (v / 2 ^ i % 2 = 1) := Nat.testBit_eq_decide_div_mod_eq

theorem mod_eight_eq (v : Nat) : v % 8 = b2n (v.testBit 0) + 2 * b2n (v.testBit 1) + 4 * b2n (v.testBit 2) := by
  rw [testBit_eq_decide, testBit_eq_decide, testBit_eq_decide]
  unfold b2n
  simp only [decide_eq_true_eq]
  repeat' split
  all_goals omega

theorem ctrlWith_mod (v : Nat) (q run pin : Bool) : ctrlWith v q run pin % 8 = b2n q + 2 * b2n run + 4 * b2n pin := by
  obtain ⟨h0, h1, h2⟩ := testBit_ctrlWith v q run pin
  rw [mod_eight_eq, h0, h1, h2]

theorem mod_four_of_eight {v : Nat} {q run pin : Bool} (h : v % 8 = b2n q + 2 * b2n run + 4 * b2n pin) : v % 4 = b2n q + 2 * b2n run := by
  have : b2n q ≤ 1 ∧ b2n run ≤ 1 := by cases q <;> cases run <;> decide
  omega

/-- Q and RUN as the two low bits of CTRL. -/
theorem bits_of_mod_four {v m : Nat} (h : v % 4 = m) : bit v 0 = decide (m % 2 = 1) ∧ bit v 1 = decide (m / 2 % 2 = 1) := by
  unfold bit
  rw [testBit_eq_decide, testBit_eq_decide, decide_eq_decide, decide_eq_decide]
  omega

theorem bits_of_mod_eight {v : Nat} (h : v % 8 = 0) : bit v 0 = false ∧ bit v 1 = false ∧ bit v 2 = false := by
  unfold bit
  rw [testBit_eq_decide, testBit_eq_decide, testBit_eq_decide, decide_eq_false_iff_not, decide_eq_false_iff_not, decide_eq_false_iff_not]
  omega

/-! ### A timer instruction at its cell -/

section
variable {s s1 : State} {c g op k n : Nat} {e : Enc} {x : Ctx}

theorem State.spares_countCorr (s : State) (c key n : Nat) : s.Spares c (s.countCorr c key n) := (State.reads_countCorr s c key n).spares

theorem State.countCorr_ntm (s : State) (c key n : Nat) : (s.countCorr c key n).ntm = s.ntm :=
  (State.countCorr_stays s c key n (.refl s _) (List.Subset.refl _)).keeps .ntm (by decide)

/-- The cell operand: sound, aligned, and with no rebase under way. -/
theorem AtCell.cellAt (h : AtCell s c e op g s1 x k n) (detail : Nat) :
    s1.cellAt c g (x.ea e) n detail = .inr (s1.countCorr c k n, k) := by
  obtain ⟨off, hw, rfl⟩ := h.cell
  have htds : s1.tds = s.tds := h.issues.stays.keeps .tds (by decide)
  have hreb : s1.rebaseTo (strandOf c) = s1 := by
    unfold State.rebaseTo
    rw [htds, List.find?_eq_none.2 fun r hr => by simpa using h.rebased r hr]
  unfold State.cellAt
  rw [if_neg (by rw [h.aligned]; simp), h.issues.ctx_self, hw]
  dsimp only
  rw [if_neg (Nat.ne_of_lt h.sound), hreb]

/-- The state in which the cell is evaluated: its words and the Strand's count are those of the instruction's start. -/
structure AtCell.Same (s s1 : State) (c : Nat) (u : State) : Prop where
  ctxs : u.ctxs = s1.ctxs
  rd : ∀ a n, u.rd a n = s.rd a n
  now : u.nowOf c = s1.nowOf c

theorem AtCell.same (h : AtCell s c e op g s1 x k n) : AtCell.Same s s1 c (s1.countCorr c k n) where
  ctxs := (State.reads_countCorr s1 c k n).ctxs
  rd a m := (State.rd_congr (State.spares_countCorr s1 c k n).mem a m).trans
    (congrArg leNat (h.issues.bytesAt a m))
  now := by
    unfold State.nowOf State.dieUs
    rw [State.countCorr_ntm]

theorem AtCell.Same.cell {u : State} (h : AtCell.Same s s1 c u) (k : Nat) : u.cell k = s.cell k := by
  unfold State.cell
  rw [h.rd, h.rd, h.rd, h.rd]

/-- What a timer leaves: Q in ra, and its cell. -/
structure TimerLeft (g n k : Nat) (y : Cell) (t : State) : Prop where
  gr : n ≠ 0 → (t.ctx g).gr n = BitVec.ofNat 32 (b2n (bit y.ctrl 0))
  zero : n = 0 → (t.ctx g).gr n = 0
  preset : t.rd k 4 = y.preset % 2 ^ 32
  elapsed : t.rd (k + 4) 4 = y.elapsed % 2 ^ 32
  ctrl : t.rd (k + 8) 4 = y.ctrl % 2 ^ 32
  stamp : t.rd (k + 12) 4 = y.stamp % 2 ^ 32

theorem TimerLeft.mod_four {t : State} {y : Cell} {r : Nat} (h : TimerLeft g r k y t) : t.rd (k + 8) 4 % 4 = y.ctrl % 4 := by
  rw [h.ctrl]
  omega

theorem TimerLeft.mod_eight {t : State} {y : Cell} {r : Nat} (h : TimerLeft g r k y t) : t.rd (k + 8) 4 % 8 = y.ctrl % 8 := by
  rw [h.ctrl]
  omega

/-- TON, TOF and TP evaluate their cell at the Strand's now, with IN ra ≠ 0. -/
theorem Issues.completes_timer {f : Form} (h : Issues s c e f g s1 x) {u : State} (hsame : AtCell.Same s s1 c u)
    (hat : s1.cellAt c g (x.ea e) 16 1 = .inr (u, k)) {i : Instr} {eval : Cell → Bool → Nat → Cell}
    (hi : exec i s = .next (s.timerOp c e f eval)) {y : Cell}
    (hy : eval (s.cell k) (decide (x.gr e.ra ≠ 0)) (s1.nowOf c) = y) : Completes i s (TimerLeft g e.ra k y) := by
  unfold State.timerOp at hi
  have hact : s1.Acts g (x.setG e.ra (BitVec.ofNat 32 (b2n (bit y.ctrl 0))))
      ((u.setCell k y).modCtx g fun z => z.setG e.ra (BitVec.ofNat 32 (b2n (bit y.ctrl 0)))) :=
    (h.acts.of_ctxs (v := u.setCell k y) ((State.setCell_ctxs u k y).trans hsame.ctxs)).modCtx
      fun z => z.setG e.ra (BitVec.ofNat 32 (b2n (bit y.ctrl 0)))
  have hcell := State.rd_setCell u k y
  obtain ⟨t, ht, he⟩ := h.completes_ended hi hact (by
    rw [hat]
    dsimp only
    rw [hsame.cell, hsame.now, hy]) ((Ctx.sameButGeneral_setG x _ _).cs.trans h.cs_running) (Ctx.trapOf_zero _)
  have hrd : ∀ a n, t.rd a n = (u.setCell k y).rd a n := State.rd_congr he.mem
  refine ⟨t, ht, fun h0 => ?_, fun h0 => ?_, (hrd _ _).trans hcell.1, (hrd _ _).trans hcell.2.1, (hrd _ _).trans hcell.2.2.1,
    (hrd _ _).trans hcell.2.2.2⟩
  · rw [he.general, Ctx.gr_setG, if_neg h0, if_pos rfl]
  · rw [h0]
    rfl

theorem AtCell.completes_timer (h : AtCell s c e op g s1 x k 16) {i : Instr} {eval : Cell → Bool → Nat → Cell}
    (hi : exec i s = .next (s.timerOp c e (formOf op) eval)) {y : Cell}
    (hy : eval (s.cell k) (decide (x.gr e.ra ≠ 0)) (s1.nowOf c) = y) : Completes i s (TimerLeft g e.ra k y) :=
  h.issues.completes_timer h.same (h.cellAt 1) hi hy

end

/-! ### What the timers make of a cell -/

theorem State.cell_lt (s : State) (k : Nat) : (s.cell k).preset < 2 ^ 32 ∧ (s.cell k).elapsed < 2 ^ 32 ∧ (s.cell k).ctrl < 2 ^ 32 ∧
    (s.cell k).stamp < 2 ^ 32 := ⟨State.rd_lt _ _ 4, State.rd_lt _ _ 4, State.rd_lt _ _ 4, State.rd_lt _ _ 4⟩

theorem State.nowOf_lt (s : State) (c : Nat) : s.nowOf c < 2 ^ 32 := Nat.mod_lt _ (by decide)

/-- TON with IN 0 (R133). -/
theorem tonEval_off (x : Cell) (now : Nat) :
    tonEval x false now = { x with ctrl := ctrlWith x.ctrl false false (bit x.ctrl 2), elapsed := 0 } := rfl

/-- TON with IN 1 from rest. -/
theorem tonEval_start {x : Cell} (hm : x.ctrl % 4 = 0) (hp : x.preset ≠ 0) (now : Nat) :
    tonEval x true now = { x with stamp := now, elapsed := 0, ctrl := ctrlWith x.ctrl false true (bit x.ctrl 2) } := by
  obtain ⟨h0, h1⟩ := bits_of_mod_four hm
  unfold tonEval
  dsimp only
  rw [if_neg (by decide), if_pos ⟨h1, h0⟩, if_neg hp, h0]
  rfl

/-- TON with IN 1 while it runs. -/
theorem tonEval_run {x : Cell} (hm : x.ctrl % 4 = 2) (now : Nat) :
    tonEval x true now = { x with
      elapsed := min x.preset (sub32 now x.stamp)
      ctrl := if min x.preset (sub32 now x.stamp) = x.preset then ctrlWith x.ctrl true false (bit x.ctrl 2) else x.ctrl } := by
  obtain ⟨h0, h1⟩ := bits_of_mod_four hm
  have h1' : bit x.ctrl 1 = true := h1
  unfold tonEval
  dsimp only
  rw [if_neg (by decide), if_neg (by rw [h1']; simp), if_pos h1']

/-- TON with IN 1 once Q is set. -/
theorem tonEval_done {x : Cell} (hm : x.ctrl % 4 = 1) (now : Nat) : tonEval x true now = x := by
  obtain ⟨h0, h1⟩ := bits_of_mod_four hm
  have h0' : bit x.ctrl 0 = true := h0
  have h1' : bit x.ctrl 1 = false := h1
  unfold tonEval
  dsimp only
  rw [if_neg (by decide), if_neg (by rw [h0']; simp), if_neg (by rw [h1']; simp)]

theorem tofEval_on (x : Cell) (now : Nat) :
    tofEval x true now = { x with ctrl := ctrlWith x.ctrl true false (bit x.ctrl 2), elapsed := 0 } := rfl

/-- TOF with IN 0 while Q is set. -/
theorem tofEval_start {x : Cell} (hm : x.ctrl % 4 = 1) (hp : x.preset ≠ 0) (now : Nat) :
    tofEval x false now = { x with stamp := now, elapsed := 0, ctrl := ctrlWith x.ctrl true true (bit x.ctrl 2) } := by
  obtain ⟨h0, h1⟩ := bits_of_mod_four hm
  have h0' : bit x.ctrl 0 = true := h0
  unfold tofEval
  dsimp only
  rw [if_neg Bool.false_ne_true, if_pos ⟨h0', h1⟩, if_neg hp, h0']

/-- TP with IN 1 from rest. -/
theorem tpEval_start {x : Cell} (hm : x.ctrl % 8 = 0) (hp : x.preset ≠ 0) (now : Nat) :
    tpEval x true now = { x with stamp := now, elapsed := 0, ctrl := putBit (ctrlWith x.ctrl true true false) 2 true } := by
  obtain ⟨h0, h1, h2⟩ := bits_of_mod_eight hm
  unfold tpEval
  dsimp only
  rw [h1, h2, if_neg Bool.false_ne_true, if_pos (And.intro rfl rfl), if_pos hp]
  dsimp only
  rw [if_neg (by simp)]

theorem b2n_word {p : Bool} : BitVec.ofNat 32 (b2n p) = 1 ↔ p = true := by
  cases p <;> decide

/-! ### CNT64 -/

theorem State.rd_sramWrite (s : State) (a : Nat) (b : List Byte) (k m : Nat) : (s.sramWrite a b).rd k m = (s.putBytes a b).rd k m := by
  refine State.rd_congr ?_ k m
  unfold State.sramWrite State.eccClear
  split <;> rfl

theorem State.sramWrite_ctxs (s : State) (a : Nat) (b : List Byte) : (s.sramWrite a b).ctxs = s.ctxs := by
  refine Eq.trans ?_ (State.putBytes_rest s a b).1
  unfold State.sramWrite State.eccClear
  split <;> rfl

theorem cntSum_eq (count ra : Nat) : cntSum count ra = ofS 64 (max (-2 ^ 63) (min (2 ^ 63 - 1) (toS 64 count + toS 32 ra))) := by
  have h : int64Min ≤ int64Max := by decide
  rw [cntSum, clampTo_eq_max_min h]
  rfl

/-- The counter pair after CNT64: COUNT holds the sum, and PRESET is as it was. -/
def State.counted64 (u : State) (k now new : Nat) : State :=
  if new = u.rd k 8 then u else (u.sramWrite k (leBytes 8 new)).sramWrite (k + 12) (leBytes 4 now)

theorem State.counted64_spec (u : State) (k now : Nat) {new : Nat} (hn : new < 2 ^ 64) :
    (u.counted64 k now new).rd k 8 = new ∧ (u.counted64 k now new).rd (k + 16) 8 = u.rd (k + 16) 8 ∧
      (u.counted64 k now new).ctxs = u.ctxs := by
  unfold State.counted64
  split
  · rename_i h
    exact ⟨h.symm, rfl, rfl⟩
  · have hfirst : ∀ b m, (u.sramWrite k (leBytes 8 new)).rd b m = (u.wr k 8 new).rd b m := State.rd_sramWrite _ _ _
    have hsecond : ∀ b m, (b + m ≤ k + 12 ∨ k + 12 + 4 ≤ b) →
        ((u.sramWrite k (leBytes 8 new)).sramWrite (k + 12) (leBytes 4 now)).rd b m = (u.sramWrite k (leBytes 8 new)).rd b m :=
      fun b m hb => (State.rd_sramWrite _ _ _ _ _).trans (State.rd_wr_of_disjoint _ _ hb)
    refine ⟨?_, ?_, ?_⟩
    · rw [hsecond _ _ (by omega), hfirst, State.rd_wr]
      exact Nat.mod_eq_of_lt hn
    · rw [hsecond _ _ (by omega), hfirst, State.rd_wr_of_disjoint _ _ (by omega)]
    · rw [State.sramWrite_ctxs, State.sramWrite_ctxs]

section
variable {s s1 : State} {c g op k : Nat} {e : Enc} {x : Ctx}

/-- CNT64 of a pair in the timer array. -/
theorem AtCell.count64 (h : AtCell s c e op g s1 x k 32) (next : Word) :
    ∃ u, AtCell.Same s s1 c u ∧ s1.count64 c g (x.ea e) e.ra next =
      .next ((u.counted64 k (s1.nowOf c) (cntSum (s.rd k 8) (x.gr e.ra).toNat)).modCtx g fun y => y.setG e.ra
        (BitVec.ofNat 32 (b2n (decide (toS 64 (s.rd (k + 16) 8) ≤ toS 64 (cntSum (s.rd k 8) (x.gr e.ra).toNat)))))) next 0 none := by
  obtain ⟨off, hw, -⟩ := h.cell
  have hsame := h.same
  have hat := h.cellAt 1
  obtain ⟨u, hu⟩ : ∃ u, u = s1.countCorr c k 32 := ⟨_, rfl⟩
  rw [← hu] at hsame hat
  refine ⟨u, hsame, ?_⟩
  unfold State.count64
  rw [if_neg (by rw [h.aligned]; simp), h.issues.ctx_self, hw]
  dsimp only
  rw [hat]
  dsimp only
  rw [hsame.rd, hsame.now]
  have hspec := u.counted64_spec k (s1.nowOf c) (new := cntSum (s.rd k 8) (x.gr e.ra).toNat) (ofS_lt 64 _)
  have hold : u.rd k 8 = s.rd k 8 := hsame.rd _ _
  have hpre := hspec.2.1.trans (hsame.rd _ _)
  unfold State.counted64 at hpre ⊢
  rw [hold] at hpre ⊢
  rw [hpre]

theorem AtCell.completes_count (h : AtCell s c e 0xEBA0 g s1 x k 32) (h0 : e.ra ≠ 0) :
    Completes (.cnt64 c e) s fun t => t.rd k 8 = cntSum (s.rd k 8) (x.gr e.ra).toNat ∧
      ((t.ctx g).gr e.ra = 1 ↔ toS 64 (s.rd (k + 16) 8) ≤ toS 64 (t.rd k 8)) := by
  obtain ⟨u, hsame, hcount⟩ := h.count64 (x.nextPc (formOf 0xEBA0) e)
  obtain ⟨new, hnew⟩ : ∃ new, new = cntSum (s.rd k 8) (x.gr e.ra).toNat := ⟨_, rfl⟩
  have hlt : new < 2 ^ 64 := hnew ▸ ofS_lt 64 _
  rw [← hnew] at hcount ⊢
  obtain ⟨hrd, -, hctxs⟩ := u.counted64_spec k (s1.nowOf c) hlt
  have hbody : exec (.cnt64 c e) s =
    .next (s.issue c e (formOf 0xEBA0) fun s g x next => s.count64 c g (x.ea e) e.ra next) := rfl
  obtain ⟨t, ht, he⟩ := h.issues.completes_ended hbody
    ((h.issues.acts.of_ctxs (hctxs.trans hsame.ctxs)).modCtx _) hcount
    ((Ctx.sameButGeneral_setG x _ _).cs.trans h.issues.cs_running) (Ctx.trapOf_zero _)
  have hk : t.rd k 8 = new := (State.rd_congr he.mem k 8).trans hrd
  refine ⟨t, ht, hk, ?_⟩
  rw [hk, he.general, Ctx.gr_setG, if_neg h0, if_pos rfl, b2n_word, decide_eq_true_eq]

/-- TRD of a cell that does not run. -/
theorem AtCell.completes_trd (h : AtCell s c e 0xEB80 g s1 x k 16) (hm : s.rd (k + 8) 4 % 4 < 2) (h0 : e.ra ≠ 0) :
    Completes (.trd c e) s fun t => (t.ctx g).gr e.ra = BitVec.ofNat 32 (s.rd (k + 4) 4) ∧ ∀ a, t.byte a = s.byte a := by
  have hbody : exec (.trd c e) s = .next (s.issue c e (formOf 0xEB80) fun s g x next =>
    match s.cellAt c g (x.ea e) 16 0 with
    | .inl r => r
    | .inr (s, k) => .next (s.modCtx g fun y => y.setG e.ra (BitVec.ofNat 32 (if bit (s.cell k).ctrl 1 then
        Nat.min (s.cell k).preset (sub32 (s.nowOf c) (s.cell k).stamp) else (s.cell k).elapsed))) next 0 none) := rfl
  have hrun : bit (s.cell k).ctrl 1 = false := by
    have : bit (s.cell k).ctrl 1 = decide (s.rd (k + 8) 4 % 4 / 2 % 2 = 1) := (bits_of_mod_four (v := (s.cell k).ctrl) rfl).2
    rw [this, decide_eq_false_iff_not]
    omega
  have hsame := h.same
  have hat := h.cellAt 0
  have hspare := State.spares_countCorr s1 c k 16
  obtain ⟨u, hu⟩ : ∃ u, u = s1.countCorr c k 16 := ⟨_, rfl⟩
  rw [← hu] at hsame hat hspare
  obtain ⟨t, ht, he⟩ := h.issues.completes_ended hbody ((h.issues.acts.of_ctxs hsame.ctxs).modCtx fun y => y.setG e.ra
      (BitVec.ofNat 32 (s.rd (k + 4) 4))) (by
    rw [hat]
    dsimp only
    rw [hsame.cell, hrun, if_neg Bool.false_ne_true]
    rfl) ((Ctx.sameButGeneral_setG x _ _).cs.trans h.issues.cs_running) (Ctx.trapOf_zero _)
  refine ⟨t, ht, ?_, h.issues.byte_of_ended (hspare.modCtx g _) he⟩
  rw [he.general, Ctx.gr_setG, if_neg h0, if_pos rfl]

/-- TRST clears the state bits and ELAPSED. -/
theorem AtCell.completes_trst (h : AtCell s c e 0xEB60 g s1 x k 16) :
    Completes (.trst c e) s fun t => t.rd (k + 4) 4 = 0 ∧ t.rd (k + 8) 4 % 8 = 0 ∧ t.rd k 4 = s.rd k 4 := by
  have hbody : exec (.trst c e) s = .next (s.issue c e (formOf 0xEB60) fun s g x next =>
    match s.cellAt c g (x.ea e) 16 1 with
    | .inl r => r
    | .inr (s, k) => .next (s.setCell k { s.cell k with ctrl := ctrlWith (s.cell k).ctrl false false false, elapsed := 0 }) next 0 none) :=
    rfl
  have hsame := h.same
  have hat := h.cellAt 1
  obtain ⟨u, hu⟩ : ∃ u, u = s1.countCorr c k 16 := ⟨_, rfl⟩
  rw [← hu] at hsame hat
  obtain ⟨y, hy⟩ : ∃ y : Cell, y = { s.cell k with ctrl := ctrlWith (s.cell k).ctrl false false false, elapsed := 0 } := ⟨_, rfl⟩
  obtain ⟨hpre, hel, hct, -⟩ := State.rd_setCell u k y
  obtain ⟨t, ht, he⟩ := h.issues.completes_ended hbody
    (h.issues.acts.of_ctxs (v := u.setCell k y) ((State.setCell_ctxs u k y).trans hsame.ctxs)) (by
      rw [hat]
      dsimp only
      rw [hsame.cell, ← hy]) h.issues.cs_running (Ctx.trapOf_zero _)
  have hrd : ∀ a n, t.rd a n = (u.setCell k y).rd a n := State.rd_congr he.mem
  refine ⟨t, ht, ?_, ?_, ?_⟩
  · rw [hrd, hel, hy]
    rfl
  · rw [hrd, hct, hy, Nat.mod_mod_of_dvd _ (by decide), ctrlWith_mod]
    rfl
  · rw [hrd, hpre, hy]
    exact Nat.mod_eq_of_lt (s.cell_lt k).1

end

/-- Settles O14: a timer's cell is evaluated at the Strand's now, and CNT64 adds ra to COUNT. -/
theorem timerCells : Obligations.TimerCells := by
  unfold Obligations.TimerCells
  refine ⟨fun s c e g s1 x k h => ?_, fun s c e g s1 x k h => ?_, fun s c e g s1 x k h hin hm hp => ?_,
    fun s c e g s1 x k h => h.completes_trst, fun s c e g s1 x k h hm h0 => h.completes_trd hm h0, fun s c e g s1 x k h h0 => ?_⟩
  · obtain ⟨hpre, hel, hct, hst⟩ := s.cell_lt k
    have hnow := s1.nowOf_lt c
    have hon : x.gr e.ra ≠ 0 → e.ra ≠ 0 := fun hin h0 => hin (by rw [h0]; rfl)
    refine ⟨fun hin => ?_, fun hin hm hp => ?_, fun hin hm => ?_, fun hin hm => ?_⟩
    · obtain ⟨t, ht, hl⟩ := h.completes_timer (i := .ton c e) rfl ((congrArg (tonEval _ · _) (decide_eq_false (by simpa using hin))).trans
        (tonEval_off _ _))
      refine ⟨t, ht, ?_, hl.elapsed, hl.preset.trans (Nat.mod_eq_of_lt hpre), ?_⟩
      · by_cases h0 : e.ra = 0
        · exact hl.zero h0
        · rw [hl.gr h0, show bit (ctrlWith (s.cell k).ctrl false false (bit (s.cell k).ctrl 2)) 0 = false from (testBit_ctrlWith _ _ _ _).1]
          rfl
      · rw [hl.mod_four, mod_four_of_eight (ctrlWith_mod _ _ _ _)]
        rfl
    · obtain ⟨t, ht, hl⟩ := h.completes_timer (i := .ton c e) rfl ((congrArg (tonEval _ · _) (decide_eq_true hin)).trans
        (tonEval_start hm hp _))
      refine ⟨t, ht, ?_, hl.elapsed, hl.stamp.trans (Nat.mod_eq_of_lt hnow), ?_⟩
      · rw [hl.gr (hon hin), show bit (ctrlWith (s.cell k).ctrl false true (bit (s.cell k).ctrl 2)) 0 = false from
          (testBit_ctrlWith _ _ _ _).1]
        rfl
      · rw [hl.mod_four, mod_four_of_eight (ctrlWith_mod _ _ _ _)]
        rfl
    · obtain ⟨t, ht, hl⟩ := h.completes_timer (i := .ton c e) rfl ((congrArg (tonEval _ · _) (decide_eq_true hin)).trans
        (tonEval_run hm _))
      obtain ⟨el, hel'⟩ : ∃ el, el = min (s.cell k).preset (sub32 (s1.nowOf c) (s.cell k).stamp) := ⟨_, rfl⟩
      rw [← hel'] at hl
      have hle : el ≤ (s.cell k).preset := hel' ▸ min_le_left _ _
      have helapsed : t.rd (k + 4) 4 = el := hl.elapsed.trans (Nat.mod_eq_of_lt (by dsimp only; omega))
      refine ⟨t, ht, helapsed.trans ?_, ?_⟩
      · rw [hel', sub32, Nat.mod_eq_of_lt (a := (s.cell k).stamp) hst]
        rfl
      · rw [helapsed, hl.gr (hon hin), b2n_word]
        dsimp only
        change _ ↔ el = (s.cell k).preset
        by_cases hq : el = (s.cell k).preset
        · rw [if_pos hq]
          exact iff_of_true (testBit_ctrlWith _ _ _ _).1 hq
        · rw [if_neg hq, (bits_of_mod_four (v := (s.cell k).ctrl) hm).1]
          exact iff_of_false (by decide) hq
    · obtain ⟨t, ht, hl⟩ := h.completes_timer (i := .ton c e) rfl ((congrArg (tonEval _ · _) (decide_eq_true hin)).trans
        (tonEval_done hm _))
      refine ⟨t, ht, ?_, hl.elapsed.trans (Nat.mod_eq_of_lt hel)⟩
      rw [hl.gr (hon hin), (bits_of_mod_four (v := (s.cell k).ctrl) hm).1]
      rfl
  · have hnow := s1.nowOf_lt c
    refine ⟨fun hin => ?_, fun hin h0 hm hp => ?_⟩
    · obtain ⟨t, ht, hl⟩ := h.completes_timer (i := .tof c e) rfl ((congrArg (tofEval _ · _) (decide_eq_true hin)).trans
        (tofEval_on _ _))
      refine ⟨t, ht, ?_, hl.elapsed, ?_⟩
      · rw [hl.gr fun h0 => hin (by rw [h0]; rfl), show bit (ctrlWith (s.cell k).ctrl true false (bit (s.cell k).ctrl 2)) 0 = true from
          (testBit_ctrlWith _ _ _ _).1]
        rfl
      · rw [hl.mod_four, mod_four_of_eight (ctrlWith_mod _ _ _ _)]
        rfl
    · obtain ⟨t, ht, hl⟩ := h.completes_timer (i := .tof c e) rfl ((congrArg (tofEval _ · _) (decide_eq_false (by simpa using hin))).trans
        (tofEval_start hm hp _))
      refine ⟨t, ht, ?_, hl.stamp.trans (Nat.mod_eq_of_lt hnow), ?_⟩
      · rw [hl.gr h0, show bit (ctrlWith (s.cell k).ctrl true true (bit (s.cell k).ctrl 2)) 0 = true from (testBit_ctrlWith _ _ _ _).1]
        rfl
      · rw [hl.mod_four, mod_four_of_eight (ctrlWith_mod _ _ _ _)]
        rfl
  · have hctrl := testBit_ctrlWith (s.cell k).ctrl true true false
    obtain ⟨t, ht, hl⟩ := h.completes_timer (i := .tp c e) rfl ((congrArg (tpEval _ · _) (decide_eq_true hin)).trans
      (tpEval_start hm hp _))
    refine ⟨t, ht, ?_, hl.stamp.trans (Nat.mod_eq_of_lt (s1.nowOf_lt c)), ?_⟩
    · rw [hl.gr fun h0 => hin (by rw [h0]; rfl), show bit (putBit (ctrlWith (s.cell k).ctrl true true false) 2 true) 0 = true from
        (testBit_putBit_ne _ _ (by decide)).trans hctrl.1]
      rfl
    · rw [hl.mod_eight, mod_eight_eq, testBit_putBit_ne _ _ (by decide), testBit_putBit_ne _ _ (by decide), testBit_putBit_self, hctrl.1,
        hctrl.2.1]
      rfl
  · obtain ⟨t, ht, hrd, hq⟩ := h.completes_count h0
    exact ⟨t, ht, hrd.trans (cntSum_eq _ _), hq⟩

end Sys2Proof.Machine
end


section
/-! PROOF. Events of a core, and CPU.CTL (R70, R72, R91, R93, R102). -/

namespace Sys2Proof.Machine

/-! ### Taking up another context -/

/-- A FREE context is not taken up. -/
theorem State.ctx_resched_of_free {s : State} {g : Nat} (h : (s.ctx g).cs = .free) (c : Nat) : (s.resched c).ctx g = s.ctx g := by
  have hbest : ∀ {b : Nat}, s.bestCtx c = some b → g ≠ b := fun hb he => by
    subst he
    rcases State.cs_of_bestCtx hb with hc | hc
    · rw [h] at hc; cases hc
    · rw [h] at hc; cases hc
  have hrun : ∀ {r : Nat}, s.running c = some r → g ≠ r := fun hr he => by
    subst he
    have := State.cs_of_running hr
    rw [h] at this
    cases this
  unfold State.resched
  split
  · rename_i b _ hb
    exact State.ctx_modCtx_of_ne _ _ (hbest hb)
  · rename_i r b hr hb
    split
    · rw [State.ctx_modCtx_of_ne _ _ (hbest hb), State.ctx_modCtx_of_ne _ _ (hrun hr)]
    · rfl
  · rfl

theorem State.core_of_stays {s t : State} {fs : List Field} (h : t.Stays fs s) (hf : .cores ∉ fs) (c : Nat) : t.core c = s.core c := by
  have hc : t.cores = s.cores := h.keeps .cores hf
  unfold State.core
  rw [hc]

theorem State.core_resched (s : State) (c k : Nat) : (s.resched c).core k = s.core k :=
  State.core_of_stays (State.resched_stays s c (.refl s _) (List.Subset.refl _)) (by decide) k

/-! ### The events -/

/-- The 64th instruction of a bracket closes it (R72). -/
theorem State.bracketEnd_full {s : State} {g : Nat} (hopen : (s.ctx g).npOpen = true) (hfull : 64 ≤ (s.ctx g).npcnt)
    (hw : (s.ctx g).wait = .none) (hm : ((s.ctx g).sp 2).testBit 1 = false) :
    (((s.bracketEnd g).ctx g).npOpen = false ∧ ((s.bracketEnd g).ctx g).npcnt = 0) ∧
      ((s.bracketEnd g).ctx g).sreg 1 = (s.ctx g).sreg 1 ||| 2 := by
  obtain ⟨u, hu⟩ : ∃ u, u = s.modCtx g fun x => { x.stick flBX with npOpen := false, npcnt := 0 } := ⟨_, rfl⟩
  have heq : s.bracketEnd g = u.resched (g / 16) := by
    unfold State.bracketEnd
    dsimp only
    rw [if_pos ⟨hopen, hfull, hw⟩, ← hu]
    exact if_neg (by rw [bit, hm]; exact Bool.false_ne_true)
  have hctx : u.ctx g = { (s.ctx g).stick flBX with npOpen := false, npcnt := 0 } := by rw [hu, State.ctx_modCtx_self]
  have hsame := State.ctx_resched u (g / 16) g
  rw [hctx] at hsame
  rw [heq]
  refine ⟨?_, (hsame.sreg 1).trans ((Ctx.sreg_stick (s.ctx g) flBX 1).trans (if_pos rfl))⟩
  rw [hsame]
  exact ⟨rfl, rfl⟩

/-- The oldest load in flight returns (R70). -/
theorem State.landOne_front {s : State} {c : Nat} {f : Flight} {l : List Flight} (hl : (s.core c).flight = f :: l) (ht : f.tag = none)
    (hd : f.dst < 32) (hw : f.wide = false) :
    ((s.landOne c).core c).flight = l ∧ ∀ n, ((s.landOne c).ctx f.ctx).gr n = (s.ctx f.ctx).grAfter false f.dst f.val n := by
  obtain ⟨u, hu⟩ : ∃ u, u = (s.landFlight f).modCore c fun k => { k with flight := k.flight.erase f } := ⟨_, rfl⟩
  have heq : s.landOne c = u.loadsDone f.ctx := by
    unfold State.landOne
    rw [hl, List.find?_cons_of_pos (by rw [ht, decide_eq_true (show f.dst < heldDst by unfold heldDst; omega)]; rfl), hu]
  have hcore : (u.core c).flight = l := by
    have herase : ((s.core c).flight.erase f) = l := by rw [hl, List.erase_cons_head]
    rw [hu, State.modCore, State.core_setCore, if_pos rfl]
    exact herase
  have hctx : u.ctx f.ctx = (s.ctx f.ctx).wrG false f.dst f.val := by
    have : (s.landFlight f).ctx f.ctx = (s.ctx f.ctx).setDst f.dst f.wide f.val := State.ctx_modCtx_self s f.ctx _
    rw [Ctx.setDst_of_lt hd, hw] at this
    rw [hu]
    exact this
  rw [heq]
  have hdone : ((u.loadsDone f.ctx).core c).flight = (u.core c).flight ∧
      ∀ n, ((u.loadsDone f.ctx).ctx f.ctx).gr n = (u.ctx f.ctx).gr n := by
    unfold State.loadsDone
    split
    · refine ⟨rfl, fun n => ?_⟩
      rw [State.ctx_modCtx_self]
      rfl
    · exact ⟨rfl, fun _ => rfl⟩
  exact ⟨hdone.1.trans hcore, fun n => (hdone.2 n).trans (by rw [hctx, Ctx.gr_wrG])⟩

/-- An entry for a word that no entry waits for takes a new place. -/
theorem CoreSt.wbFill_new {k : CoreSt} {w : WbEntry} (hroom : k.wbuf.length < 8) (hnew : ∀ w' ∈ k.wbuf, w'.word ≠ w.word) :
    k.wbFill [w] = ({ k with wbuf := k.wbuf ++ [w] }, []) := by
  have hm : k.merges w.word = false := by
    unfold CoreSt.merges
    rw [List.find?_eq_none.2 fun x hx => by simpa using hnew x (List.mem_reverse.1 hx)]
  have hput : k.wbPut w = some { k with wbuf := k.wbuf ++ [w] } := by
    unfold CoreSt.wbPut
    rw [hm, if_neg Bool.false_ne_true, if_pos hroom]
  rw [CoreSt.wbFill, hput]
  rfl

/-- A stalled store for whose one entry there is room goes on (R91). -/
theorem State.storeGoesOn_new {s : State} {c g : Nat} {w : WbEntry} (hg : g / 16 = c) (hw : (s.ctx g).wait = .store)
    (hst : (s.ctx g).stall = [w]) (hlate : (s.ctx g).late = []) (hroom : (s.core c).wbuf.length < 8)
    (hnew : ∀ w' ∈ (s.core c).wbuf, w'.word ≠ w.word) :
    (((s.storeGoesOn g).ctx g).wait = .none ∧ ((s.storeGoesOn g).ctx g).stall = []) ∧
      ((s.storeGoesOn g).core c).wbuf = (s.core c).wbuf ++ [w] := by
  subst hg
  have hroomEq : s.wbRoom g = (s.setCore (g / 16) { s.core (g / 16) with wbuf := (s.core (g / 16)).wbuf ++ [w] }).modCtx g
      fun x => { x with stall := [], wait := .none } := by
    unfold State.wbRoom
    dsimp only
    rw [if_neg (by rw [hw]; simp), hst, CoreSt.wbFill_new hroom hnew]
    rfl
  have hctx : (s.wbRoom g).ctx g = { s.ctx g with stall := [], wait := .none } := by
    rw [hroomEq, State.ctx_modCtx_self]
    rfl
  have heq : s.storeGoesOn g = s.wbRoom g := by
    unfold State.storeGoesOn
    dsimp only
    exact if_pos (.inr (by rw [hctx]; exact hlate))
  rw [heq, hctx, hroomEq]
  refine ⟨⟨rfl, rfl⟩, ?_⟩
  have hcore : ((s.setCore (g / 16) { s.core (g / 16) with wbuf := (s.core (g / 16)).wbuf ++ [w] }).modCtx g
      fun x => { x with stall := [], wait := .none }).core (g / 16) =
      { s.core (g / 16) with wbuf := (s.core (g / 16)).wbuf ++ [w] } := (State.core_setCore s _ _ _).trans (if_pos rfl)
  rw [hcore]

/-! ### A drain -/

/-- An entry of one byte is one run. -/
theorem wbRuns_single {w : WbEntry} {b : WbByte} (hb : w.bytes = [b]) (ho : b.off < 8) : wbRuns w = [[b]] := by
  have hl : ((List.range 8).filterMap fun o => w.bytes.find? fun b => decide (b.off = o)) = [b] := by
    have hfind : ∀ o, ([b].find? fun b => decide (b.off = o)) = if b.off = o then some b else none := fun o => by
      by_cases h : b.off = o <;> simp [h]
    simp only [hb, hfind]
    generalize b.off = o at ho
    interval_cases o <;> rfl
  unfold wbRuns
  rw [hl]
  rfl

/-- A write of the core's own SRAM leaves its own core as it is (R89). -/
theorem State.core_invalidate (s : State) (strand off n c : Nat) : (s.invalidate strand off n (some c)).core c = s.core c := by
  unfold State.invalidate
  refine State.each_induct (fun u => u.core c = s.core c) rfl fun u m _ hu => ?_
  dsimp only
  split
  · exact hu
  · rename_i hne
    split
    · exact hu
    · rw [State.core_setCore, if_neg fun h => hne (congrArg some h)]
      exact hu

theorem State.invalidate_mem (s : State) (strand off n : Nat) (w : Option Nat) : (s.invalidate strand off n w).mem = s.mem :=
  (State.invalidate_stays s strand off n w (.refl s _) (List.Subset.refl _)).keeps .mem (by decide)

/-- A run that lies in the core's own SRAM reaches it. -/
theorem State.wbRun_own {s : State} {c word : Nat} {b : WbByte} (h : (word * 8 + b.off) / 2 ^ 32 = 0x30 + strandOf c) (first : Bool) :
    s.wbRun c word first [b] = (s.dataWrite (strandOf c) ((word * 8 + b.off) % 2 ^ 32) [b.val] (some c), true) := if_pos h

/-- The oldest entry of one byte of the core's own SRAM drains (R91). -/
theorem State.drainOne_own {s : State} {c : Nat} {w : WbEntry} {l : List WbEntry} {b : WbByte} (hl : (s.core c).wbuf = w :: l)
    (hb : w.bytes = [b]) (ho : b.off < 8) (hcopy : s.img.copying = false) (hk : (w.word * 8 + b.off) / 2 ^ 32 = 0x30 + strandOf c)
    (hc : strandOf c < 16) :
    s.drainOne c = (s.modCore c fun k => { k with wbuf := l }).dataWrite (strandOf c) ((w.word * 8 + b.off) % 2 ^ 32) [b.val] (some c) := by
  have hword : w.word * 8 / 2 ^ 32 ≠ 0x60 := by omega
  have hline : wbQLine w = none := if_neg fun h => hword h.1
  have hmark : wbMarker w = none := if_neg fun h => hword h.1
  have hprog : s.copyProgress = s := by
    unfold State.copyProgress
    rw [hcopy, if_neg Bool.false_ne_true]
  have hheld : s.wbHeld c w = false := by
    unfold State.wbHeld
    rw [hline]
  have hruns := wbRuns_single hb ho
  have hwrite : ∀ u : State, u.wbWrite c w = (u.dataWrite (strandOf c) ((w.word * 8 + b.off) % 2 ^ 32) [b.val] (some c), true) := fun u => by
    unfold State.wbWrite
    rw [hruns, List.find?_cons_of_neg (by rw [State.wbRun_own hk]; simp), List.find?_nil]
    dsimp only
    rw [hmark]
    have heach : (u.each [[b]].zipIdx fun s r => (s.wbRun c w.word (!([[b]].take r.2).any u.plainRun) r.1).1) =
        u.dataWrite (strandOf c) ((w.word * 8 + b.off) % 2 ^ 32) [b.val] (some c) := by
      change (u.wbRun c w.word _ [b]).1 = _
      rw [State.wbRun_own hk]
    exact congrArg (·, true) heach
  unfold State.drainOne
  rw [hl]
  dsimp only
  rw [hprog, hheld, if_neg Bool.false_ne_true, hwrite]
  exact if_pos rfl

/-- A byte written to data SRAM. -/
theorem State.byte_dataWrite (s : State) (n off : Nat) (v : Byte) (w : Option Nat) (a : Nat) :
    (s.dataWrite n off [v] w).byte a = if a = mData n + off then v else s.byte a := by
  have hmem : (s.dataWrite n off [v] w).mem = (s.putBytes (mData n + off) [v]).mem := by
    unfold State.dataWrite
    rw [State.invalidate_mem]
    unfold State.sramWrite State.eccClear
    split <;> rfl
  rw [State.byte_of_mem hmem, State.byte_putBytes, List.length_singleton]
  by_cases h : a = mData n + off
  · rw [if_pos h, if_pos (by omega), h, Nat.sub_self, List.getD_cons_zero]
  · rw [if_neg h, if_neg (by omega)]

theorem State.core_dataWrite (s : State) (n off : Nat) (v : Byte) (c : Nat) : (s.dataWrite n off [v] (some c)).core c = s.core c := by
  unfold State.dataWrite
  rw [State.core_invalidate]
  have hcores : ∀ (u : State) (a : Nat), (u.sramWrite a [v]).cores = u.cores := fun u a => by
    unfold State.sramWrite State.eccClear
    split <;> rfl
  unfold State.core
  rw [hcores]

/-! ### The drain acknowledgement -/

/-- The acknowledgement comes where the buffer is empty and the link is up (R93). -/
theorem State.drainAck_comes {s : State} {c n : Nat} (hn : n < 16) (hbuf : (s.core c).wbuf = []) (hup : s.linkUp (strandOf c) = true) :
    (s.ctx (16 * c + n)).wait = .sync → s.drainAck (16 * c + n % 16) = s.modCtx (16 * c + n) fun x => { x with wait := .none } := by
  intro hw
  have hcore : (16 * c + n) / 16 = c := by omega
  rw [Nat.mod_eq_of_lt hn]
  unfold State.drainAck
  dsimp only
  rw [hcore, if_neg (by rw [hbuf, hup]; simp), hw]

theorem State.drainAck_ends {s : State} {c n : Nat} (hn : n < 16) (hbuf : (s.core c).wbuf = []) (hup : s.linkUp (strandOf c) = true) :
    (s.ctx (16 * c + n)).wait = .endSection → s.drainAck (16 * c + n % 16) = s.endDone (16 * c + n) := by
  intro hw
  have hcore : (16 * c + n) / 16 = c := by omega
  rw [Nat.mod_eq_of_lt hn]
  unfold State.drainAck
  dsimp only
  rw [hcore, if_neg (by rw [hbuf, hup]; simp), hw]

/-- The end of a task's section frees its context and is due for the task (R158). -/
theorem State.endDone_section {s : State} {g : Nat} (h0 : (s.ctx g).task ≠ 0) :
    ((s.endDone g).ctx g).cs = .free ∧
      ((s.endDone g).task (s.ctx g).task).ended = (s.task (s.ctx g).task).ended ++ [(s.ctx g).sec] := by
  have hdrop := State.bedDrop_stays s (fun r => decide (r = g)) (.refl s _) (List.Subset.refl _)
  obtain ⟨u, hu⟩ : ∃ u, u = s.bedDrop fun r => decide (r = g) := ⟨_, rfl⟩
  rw [← hu] at hdrop
  have hctx : u.ctx g = s.ctx g := State.ctx_of_ctxs (hdrop.keeps .ctxs (by decide)) g
  have htasks : u.tasks = s.tasks := hdrop.keeps .tasks (by decide)
  have htask : u.task (s.ctx g).task = s.task (s.ctx g).task := by
    unfold State.task
    rw [htasks]
  obtain ⟨v, hv⟩ : ∃ v, v = (u.modCtx g Ctx.free).modTask (s.ctx g).task fun k => { k with ended := k.ended ++ [(s.ctx g).sec] } := ⟨_, rfl⟩
  have heq : s.endDone g = v.resched (g / 16) := by
    unfold State.endDone
    dsimp only
    rw [← hu, hctx, if_neg h0, hv]
  have hvctx : v.ctx g = (s.ctx g).free := by
    rw [hv, ← hctx]
    exact State.ctx_modCtx_self u g Ctx.free
  have hvtask : v.task (s.ctx g).task = { s.task (s.ctx g).task with ended := (s.task (s.ctx g).task).ended ++ [(s.ctx g).sec] } := by
    have := State.task_setTask (u.modCtx g Ctx.free) (s.ctx g).task
      { u.task (s.ctx g).task with ended := (u.task (s.ctx g).task).ended ++ [(s.ctx g).sec] } (s.ctx g).task
    rw [if_pos rfl, htask] at this
    rw [hv, ← this, ← htask]
    rfl
  have hfree : (v.ctx g).cs = .free := by
    rw [hvctx]
    rfl
  have hres : (v.resched (g / 16)).tasks = v.tasks :=
    (State.resched_stays v (g / 16) (.refl v _) (List.Subset.refl _)).keeps .tasks (by decide)
  have hrtask : (v.resched (g / 16)).task (s.ctx g).task = v.task (s.ctx g).task := by
    unfold State.task
    rw [hres]
  rw [heq, State.ctx_resched_of_free hfree, hrtask, hvtask]
  exact ⟨hfree, rfl⟩

/-! ### CPU.CTL -/

theorem cpuCtl_value : ∀ c < 24, ∀ v < 4, (objRow (K.CPU_CTL (c + 1))).map (·.value v) = some v := by
  decide +kernel

theorem State.setCmd_cpuCtl {s : State} {n c v : Nat} (hc : c < 24) (hv : v < 4) (h : Takes s n (K.CPU_CTL (c + 1)) v) :
    s.setCmd n (K.CPU_CTL (c + 1)) v = (s.accepted n (K.CPU_CTL (c + 1)) v).cpuCtl c v := by
  have hk : K.CPU_CTL (c + 1) / 256 = 0x2801 := by unfold K.CPU_CTL; omega
  have hs : K.CPU_CTL (c + 1) % 256 = c + 1 := by unfold K.CPU_CTL; omega
  rw [State.setCmd_of_index_plain h hk rfl (by decide) (h.value_eq (cpuCtl_value c hc v hv)) (stopsTide_of_index hk (by decide))]
  unfold State.applyOb
  dsimp only
  rw [hk, hs]
  rfl

/-- Settles O16: each event is what its rule says of the context, the core's buffers and memory. -/
theorem coreEvents : Obligations.CoreEvents := by
  unfold Obligations.CoreEvents
  refine ⟨fun s c g hr hopen hfull hw hm => ?_, fun s c f l hl ht hd hw => ?_, fun s c g w hr hg hw hst hlate hroom hnew => ?_,
    fun s c w l b hl hb ho hcopy hk hc => ?_, fun s c n hn hbuf hup hw => ?_, fun s c n x hn hbuf hup hx hw h0 => ?_,
    fun s n c v hc hv h => ?_⟩
  · obtain ⟨⟨h1, h2⟩, h3⟩ := State.bracketEnd_full hopen hfull hw hm
    refine ⟨s.bracketEnd g, ?_, h1, h2, h3⟩
    change Host.Outcome.next (match s.running c with | some g => s.bracketEnd g | none => s) = _
    rw [hr]
  · exact ⟨s.landOne c, rfl, State.landOne_front hl ht hd hw⟩
  · obtain ⟨⟨h1, h2⟩, h3⟩ := State.storeGoesOn_new hg hw hst hlate hroom hnew
    have hsame := State.ctx_resched (s.storeGoesOn g) c g
    refine ⟨(s.storeGoesOn g).resched c, ?_, hsame.wait.trans h1, ?_, (congrArg CoreSt.wbuf (State.core_resched _ c c)).trans h3⟩
    · change Host.Outcome.next (match s.running c with
        | some g => if (s.ctx g).wait = Wait.store then (s.storeGoesOn g).resched c else s
        | none => s) = _
      rw [hr]
      exact congrArg _ (if_pos hw)
    · rw [hsame]
      exact h2
  · refine ⟨_, rfl, ?_⟩
    rw [State.drainOne_own hl hb ho hcopy hk hc]
    refine ⟨?_, fun a => (State.byte_dataWrite _ _ _ _ _ a).trans rfl⟩
    rw [State.core_dataWrite, State.modCore, State.core_setCore, if_pos rfl]
  · have heq := State.drainAck_comes hn hbuf hup hw
    refine completes_of rfl heq ?_
    rw [State.ctx_modCtx_self]
    exact ⟨rfl, rfl⟩
  · subst hx
    exact completes_of rfl (State.drainAck_ends hn hbuf hup hw) (State.endDone_section h0)
  · obtain ⟨u, hu⟩ : ∃ u, u = s.accepted n (K.CPU_CTL (c + 1)) v := ⟨_, rfl⟩
    have heq := State.setCmd_cpuCtl hc hv h
    rw [← hu] at heq
    refine completes_of rfl heq ⟨State.ob_setOb_self u _ _, fun h0 => ?_, fun h1 => ?_⟩
    · unfold State.cpuCtl
      dsimp only
      rw [State.core_setCore, if_pos rfl]
      exact if_neg (by rw [bit, h0]; exact Bool.false_ne_true)
    · unfold State.cpuCtl
      dsimp only
      rw [State.core_setCore, if_pos rfl]
      exact if_neg (by rw [bit, h1]; exact Bool.false_ne_true)

end Sys2Proof.Machine
end


section
/-! PROOF. Launches, missed launches and gate lists (R266–R270, R293, R320–R326). -/

namespace Sys2Proof.Machine

/-! ### A frame takes its number -/

theorem State.Passes.hnw {s t : State} (h : s.Passes t) : t.hnw = s.hnw := by
  rw [h.frame]

theorem State.queue_setQueue_self (s : State) (p : Nat) (l : List TxF) : (s.setQueue p l).queue p = l :=
  mget_mput_self (fun _ => []) s.hnw.txq p l

theorem State.queue_setQueue_ne (s : State) {p q : Nat} (l : List TxF) (h : q ≠ p) : (s.setQueue p l).queue q = s.queue q :=
  mget_mput_ne (fun _ => []) s.hnw.txq p l h

/-- What numbering a frame that leaves a port leaves, and what it sets (R270). -/
structure State.Numbers (s : State) (p : Nat) (f : TxF) (t : State) (g : TxF) : Prop where
  queue : t.queue p = s.queue p
  frame : g = { f with seq := g.seq, seqOf := g.seqOf }
  number : ∀ k, f.seqOf = some k → g.seq = mget (fun _ => 0) s.hnw.seqs k ∧
    mget (fun _ => 0) t.hnw.seqs k = (mget (fun _ => 0) s.hnw.seqs k + 1) % 65536
  rest : t = { s with hnw := t.hnw }

theorem State.numbers_numberFrame (s : State) (p : Nat) (f : TxF) : s.Numbers p f (s.numberFrame p f).1 (s.numberFrame p f).2 := by
  unfold State.numberFrame
  split
  next h => exact ⟨rfl, rfl, fun k hk => absurd (h.symm.trans hk) (Option.some_ne_none k).symm, rfl⟩
  next k h =>
    dsimp only
    have hw : ∀ u : State, u = { s with hnw := u.hnw } ∧ u.queue p = s.queue p ∧ u.hnw.seqs = (s.takeSeq k).1.hnw.seqs →
        ∀ q l, q ≠ p → u.setQueue q l = { s with hnw := (u.setQueue q l).hnw } ∧ (u.setQueue q l).queue p = s.queue p ∧
          (u.setQueue q l).hnw.seqs = (s.takeSeq k).1.hnw.seqs := by
      intro u ⟨h1, h2, h3⟩ q l hq
      refine ⟨?_, (u.queue_setQueue_ne l (Ne.symm hq)).trans h2, h3⟩
      unfold State.setQueue State.setHnw
      rw [h1]
    obtain ⟨h1, h2, h3⟩ := State.each_induct
      (f := fun s' o => if o = p then s' else match (s'.queue o).find? f.twin with
        | some g => s'.setQueue o ((s'.queue o).map fun x => if x = g then { x with seq := (s.takeSeq k).2, seqOf := none } else x)
        | none => s')
      (l := ((s.takeSeq k).1.trunkPorts ((s.takeSeq k).1.trunkOf p)).map Prod.fst)
      (fun u => u = { s with hnw := u.hnw } ∧ u.queue p = s.queue p ∧ u.hnw.seqs = (s.takeSeq k).1.hnw.seqs)
      (s := (s.takeSeq k).1) ⟨rfl, rfl, rfl⟩ fun u o _ hu => by
        split
        · exact hu
        next ho =>
          split
          · exact hw u hu _ _ ho
          · exact hu
    refine ⟨h2, rfl, fun j hj => ?_, h1⟩
    obtain rfl : k = j := Option.some.inj (h.symm.trans hj)
    have hs := congrArg (fun m => mget (fun _ => 0) m k) h3
    exact ⟨rfl, hs.trans (mget_mput_self (fun _ => 0) s.hnw.seqs k _)⟩

/-! ### A frame leaves -/

/-- The bytes of a frame depend on objects and draws alone. -/
theorem State.wireBytes_of_objs {s t : State} (ho : t.objs = s.objs) (hf : t.fresh = s.fresh) (f : TxF) : t.wireBytes f = s.wireBytes f := by
  unfold State.wireBytes State.payload State.udpBytes State.ipBytes State.ob
  rw [ho, hf]

/-- A frame of services as it goes onto the wire. -/
theorem State.outFrame_service (s : State) (p : Nat) {f : TxF} (h : f.kind = .service) :
    (s.outFrame p f).kind = .service ∧ (s.outFrame p f).dst = f.dst ∧ (s.outFrame p f).body = f.body ∧
      (s.outFrame p f).tide = s.ob K.TDS_TIDE ∧ (s.outFrame p f).grant = s.grantHeld ∧ (s.outFrame p f).seq = f.seq ∧
      (s.outFrame p f).wire = s.wireBytes (s.outFrame p f) := by
  unfold State.outFrame
  refine ⟨h, rfl, ?_, ?_, ?_, rfl, rfl⟩
  · dsimp only
    unfold State.egressBody
    rw [if_neg (by rw [h]; rintro ⟨⟨⟩, -⟩), if_neg (by rw [h]; rintro ⟨⟨⟩, -⟩)]
  · dsimp only
    rw [if_pos h]
  · dsimp only
    rw [if_neg (by rw [h]; rintro ⟨⟩)]

theorem State.uncopied_of_service (s : State) {f : TxF} (h : f.kind = .service) : s.uncopied f = false := by
  have hl : s.frameLines f = [] := if_neg (by rw [h]; rintro ⟨⟩)
  unfold State.uncopied
  rw [hl]
  simp

theorem State.ob_bwPast (s : State) {k : Nat} (hk : k / 65536 = 0x30) : s.bwPast.ob k = s.ob k := by
  have ht : timeKey k = false := by
    unfold timeKey K.NTM_STEPS K.PMC_THR
    simp
    omega
  unfold State.bwPast
  split
  · unfold State.bwEnd
    have hr := (s.passes_reachUs s.pmc.bw.due).objects k ht
    generalize s.reachUs s.pmc.bw.due = r at hr
    dsimp only
    split
    · exact hr
    · refine (State.ob_setOb_ne _ _ (by unfold K.PMC_BW_END; omega)).trans ?_
      refine State.each_induct (fun u => u.ob k = s.ob k) hr fun u p hp hu => ?_
      have hp18 := List.mem_range.1 hp
      refine (State.ob_setOb_ne _ _ (by unfold K.PMC_BW_TX; omega)).trans ?_
      exact (State.ob_setOb_ne _ _ (by unfold K.PMC_BW_RX; omega)).trans hu
  · rfl

theorem State.swapGive_keeps (s : State) : s.swapGive.hnw = s.hnw ∧ ∀ k, timeKey k = false → s.swapGive.ob k = s.ob k := by
  refine ⟨(State.swapGive_stays s (.refl s _) (List.Subset.refl _)).keeps .hnw (by decide), fun k hk => ?_⟩
  unfold State.swapGive
  split
  · have hr := (s.passes_reachMono s.framesEnd).objects k hk
    generalize s.reachMono s.framesEnd = r at hr
    exact (State.ob_of_objs (s := r) rfl k).trans hr
  · rfl

/-- The state in which a frame has left its port. -/
def State.gone (s : State) (p : Nat) (f out : TxF) : State :=
  let s := s.setHnw fun h => { h with
    lastTx := mput (fun _ => TxF.init) h.lastTx p out
    busyTo := mput (fun _ => 0) h.busyTo p (s.ntm.mono + s.wireNs p (f.len + 20))
    busyCls := mput (fun _ => 0) h.busyCls p f.cls }
  (s.incOb (K.HNW_TX_FRAMES (p + 1))).bwPast

theorem State.gone_hnw (s : State) (p : Nat) (f out : TxF) : (s.gone p f out).hnw = { s.hnw with
    lastTx := mput (fun _ => TxF.init) s.hnw.lastTx p out
    busyTo := mput (fun _ => 0) s.hnw.busyTo p (s.ntm.mono + s.wireNs p (f.len + 20))
    busyCls := mput (fun _ => 0) s.hnw.busyCls p f.cls } :=
  (State.bwPast_stays _ (.refl _ _) (List.Subset.refl _)).keeps .hnw (by decide)

theorem State.gone_frames (s : State) {p : Nat} (f out : TxF) (hp : p < 18) :
    (s.gone p f out).ob (K.HNW_TX_FRAMES (p + 1)) = (s.ob (K.HNW_TX_FRAMES (p + 1)) + 1) % 2 ^ 64 := by
  unfold State.gone
  extract_lets u
  have hu : u.ob (K.HNW_TX_FRAMES (p + 1)) = s.ob (K.HNW_TX_FRAMES (p + 1)) := State.ob_of_objs (s := s) rfl _
  have hk : K.HNW_TX_FRAMES (p + 1) / 65536 = 0x30 := by
    unfold K.HNW_TX_FRAMES
    omega
  clear_value u
  rw [← hu, ← State.ob_incOb_self u]
  exact State.ob_bwPast _ hk

/-- What a service frame that asks for no stamp leaves behind it as it leaves a port. -/
theorem State.sendFrame_service {s : State} {p : Nat} {f : TxF} (hk : f.kind = .service) (hc : f.cls = 3) (hs : f.stamp = false)
    (hi : s.img.copying = false) :
    ∃ r g, (s.setQueue p (dropFrame f (s.queue p))).Numbers p f r g ∧
      (s.sendFrame p f).hnw = (r.gone p f (r.outFrame p g)).hnw ∧ (s.sendFrame p f).objs = (r.gone p f (r.outFrame p g)).objs := by
  have hcp : s.copyProgress = s := if_neg (by rw [hi]; exact Bool.false_ne_true)
  refine ⟨_, _, State.numbers_numberFrame _ p f, ?_⟩
  unfold State.sendFrame
  rw [hcp]
  extract_lets s1 s0 late r u out v w pm bw x y z a
  have hr : (s.setQueue p (dropFrame f (s.queue p))).numberFrame p f = r := rfl
  have hw : w = u.gone p f out := rfl
  have hz : z = y := if_neg (by rw [hc]; exact Bool.false_ne_true)
  have ha : a = z := if_neg (by rw [hk]; exact Bool.false_ne_true)
  have hy : y.hnw = w.hnw ∧ y.objs = w.objs := by
    unfold y State.when
    split <;> exact ⟨rfl, rfl⟩
  clear_value w
  rw [if_neg (by rw [hk]; simp), if_neg (by rw [hk]; simp), State.uncopied_of_service s1 hk, if_neg Bool.false_ne_true, hs, ha, hz, hr,
    ← hw]
  exact hy

theorem State.launchNext_of_ready {s : State} {p : Nat} {f : TxF} (hb : s.busyEnd p ≤ s.ntm.mono)
    (hd : ((s.dropMissed p).gateDropOne p 2).gateDropOne p 3 = s) (hn : s.nextFrame p = some f) : s.launchNext p = s.sendFrame p f := by
  have hr : s.reachMono (s.busyEnd p) = s := if_neg (by omega)
  unfold State.launchNext
  rw [hr, ite_self]
  dsimp only
  rw [hd, hn]

/-- A ready service frame leaves its port. -/
theorem State.launchNext_service {s : State} {p : Nat} {f : TxF} (hb : s.busyEnd p ≤ s.ntm.mono)
    (hd : ((s.dropMissed p).gateDropOne p 2).gateDropOne p 3 = s) (hn : s.nextFrame p = some f) (hk : f.kind = .service)
    (hc : f.cls = 3) (hs : f.stamp = false) (hi : s.img.copying = false) (hp : p < 18) :
    ∃ g, mget (fun _ => TxF.init) (s.launchNext p).hnw.lastTx p = g ∧
      (g.kind = .service ∧ g.dst = f.dst ∧ g.body = f.body ∧ g.tide = s.ob K.TDS_TIDE ∧ g.grant = s.grantHeld ∧
        (∀ k, f.seqOf = some k → g.seq = mget (fun _ => 0) s.hnw.seqs k ∧
          mget (fun _ => 0) (s.launchNext p).hnw.seqs k = (mget (fun _ => 0) s.hnw.seqs k + 1) % 65536) ∧ g.wire = s.wireBytes g) ∧
      (s.launchNext p).queue p = dropFrame f (s.queue p) ∧
      (s.launchNext p).ob (K.HNW_TX_FRAMES (p + 1)) = (s.ob (K.HNW_TX_FRAMES (p + 1)) + 1) % 2 ^ 64 := by
  rw [State.launchNext_of_ready hb hd hn]
  obtain ⟨r, g, hr, hnw, hobjs⟩ := State.sendFrame_service (p := p) hk hc hs hi
  have hgone := hnw.trans (State.gone_hnw r p f (r.outFrame p g))
  have hrest := hr.rest
  have ho := congrArg State.objs hrest
  have hf := congrArg State.fresh hrest
  dsimp only at ho hf
  change r.objs = s.objs at ho
  change r.fresh = s.fresh at hf
  have hgrant : r.grantHeld = s.grantHeld := by rw [hrest]; rfl
  have hgk : g.kind = .service := by rw [hr.frame]; exact hk
  have hgd : g.dst = f.dst := by rw [hr.frame]
  have hgb : g.body = f.body := by rw [hr.frame]
  obtain ⟨h1, h2, h3, h4, h5, h6, h7⟩ := r.outFrame_service p hgk
  refine ⟨r.outFrame p g, ?_, ⟨h1, h2.trans hgd, h3.trans hgb, h4.trans (State.ob_of_objs ho _), h5.trans hgrant, fun k hk' => ?_,
    h7.trans (State.wireBytes_of_objs ho hf _)⟩, ?_, ?_⟩
  · rw [hgone]
    exact mget_mput_self (fun _ => TxF.init) r.hnw.lastTx p _
  · obtain ⟨n1, n2⟩ := hr.number k hk'
    refine ⟨h6.trans n1, ?_⟩
    rw [hgone]
    exact n2
  · have hq : (s.sendFrame p f).queue p = r.queue p := by
      unfold State.queue
      rw [hgone]
    rw [hq, hr.queue, State.queue_setQueue_self]
  · rw [State.ob_of_objs hobjs, State.gone_frames _ _ _ hp, State.ob_of_objs ho]

/-! ### Missed launches -/

theorem dropFrame_singleton (f : TxF) : dropFrame f [f] = [] := if_pos rfl

theorem State.dropMissed_single {s : State} {p l : Nat} {f : TxF} (hq : s.queue p = [f]) (hm : s.missAt f = some l) (hl : l < s.ns) :
    s.dropMissed p = (s.setQueue p []).incOb (K.NTM_LAUNCH_MISS (p + 1)) := by
  unfold State.dropMissed State.each
  rw [hq, List.foldl_cons, List.foldl_nil, hm]
  dsimp only
  rw [if_pos hl, hq, dropFrame_singleton]

theorem State.missAt_of_launch {s : State} {f : TxF} {l : Nat} (hl : f.launch = some l) (hc : f.cls ≠ 1) :
    s.missAt f = some (l + s.ob K.NTM_LATE_LIMIT) := by
  unfold State.missAt
  rw [hl]
  exact if_neg hc

theorem State.setQueue_incOb (s : State) (p k : Nat) : ((s.setQueue p []).incOb k).queue p = [] ∧
    ((s.setQueue p []).incOb k).ob k = (s.ob k + 1) % 2 ^ 64 :=
  ⟨s.queue_setQueue_self p [], State.ob_incOb_self (s.setQueue p []) k⟩

theorem State.launchMiss_single {s : State} {p l : Nat} {f : TxF} (hst : s.ntm.steps = []) (hq : s.queue p = [f]) (hc : f.cls ≠ 1)
    (hl : f.launch = some l) (hp : p < 18) (h64 : l + s.ob K.NTM_LATE_LIMIT + 1 < 2 ^ 64)
    (hw : s.clockNs + (l + s.ob K.NTM_LATE_LIMIT + 1 - s.ns) < nsWrap) :
    (s.launchMiss p).queue p = [] ∧
      (s.launchMiss p).ob (K.NTM_LAUNCH_MISS (p + 1)) = (s.ob (K.NTM_LAUNCH_MISS (p + 1)) + 1) % 2 ^ 64 := by
  have hm := State.missAt_of_launch (s := s) hl hc
  have he : s.launchMiss p = (s.reach (l + s.ob K.NTM_LATE_LIMIT + 1)).dropMissed p := by
    unfold State.launchMiss
    rw [hq, List.filterMap_cons, hm, List.filterMap_nil]
    dsimp only
    rw [List.foldl_nil]
  have hns := State.le_ns_reach hst h64 hw
  have hpass := s.passes_reach (l + s.ob K.NTM_LATE_LIMIT + 1)
  rw [he]
  generalize s.reach _ = r at hns hpass
  have hrq : r.queue p = [f] := by
    rw [← hq]
    unfold State.queue
    rw [hpass.hnw]
  have hrm : r.missAt f = some (l + s.ob K.NTM_LATE_LIMIT) :=
    (State.missAt_of_launch hl hc).trans (by rw [hpass.objects _ (by decide)])
  have hk : timeKey (K.NTM_LAUNCH_MISS (p + 1)) = false :=
    (by decide : ∀ p < 18, timeKey (K.NTM_LAUNCH_MISS (p + 1)) = false) p hp
  rw [State.dropMissed_single hrq hrm hns]
  obtain ⟨h1, h2⟩ := r.setQueue_incOb p (K.NTM_LAUNCH_MISS (p + 1))
  exact ⟨h1, h2.trans (by rw [hpass.objects _ hk])⟩

/-! ### Gate lists -/

theorem State.gate_setGate_self (s : State) (p : Nat) (g : Gate) : (s.setGate p g).gate p = g :=
  mget_mput_self (fun _ => Gate.init) s.ntm.gates p g

theorem State.gate_reach {s : State} (h : s.ntm.steps = []) (t p : Nat) : (s.reach t).gate p = s.gate p := by
  have hg : ∀ dt, (s.advance dt).ntm.gates = s.ntm.gates := fun dt => by
    unfold State.advance
    rw [(State.passes_elapse _ _).2]
    dsimp only
    rw [State.setNs_ntm]
  unfold State.gate
  rw [State.reach_of_nil h]
  split
  · rw [hg]
  · rfl

theorem State.Passes.gateNext {s t : State} (h : s.Passes t) {p : Nat} (hp : p < 18) :
    (t.gateNext p).oper = (s.gateNext p).oper ∧ (t.gateNext p).base = (s.gateNext p).base ∧
      (t.gateNext p).cycle = (s.gateNext p).cycle := by
  have hd : t.dom (K.NTM_GCL_ADMIN (p + 1)) = s.dom (K.NTM_GCL_ADMIN (p + 1)) := by rw [h.frame]; rfl
  have hk : ∀ p < 18, timeKey (K.NTM_GCL_CFG (p + 1)) = false ∧ timeKey (K.NTM_GCL_BASE (p + 1)) = false ∧
      timeKey (K.NTM_GCL_CYCLE (p + 1)) = false := by decide
  obtain ⟨h1, h2, h3⟩ := hk p hp
  unfold State.gateNext
  dsimp only
  rw [hd, h.objects _ h1, h.objects _ h2, h.objects _ h3]
  exact ⟨rfl, rfl, rfl⟩

theorem State.gate_gateNow (s : State) (p : Nat) : ((s.gateNow p).gate p).pending = (s.gate p).pending ∧
    ((s.gateNow p).gate p).oper = (s.gate p).oper ∧ ((s.gateNow p).gate p).base = (s.gate p).base ∧
      ((s.gateNow p).gate p).cycle = (s.gate p).cycle := by
  unfold State.gateNow
  rw [State.gate_setGate_self]
  exact ⟨rfl, rfl, rfl, rfl⟩

/-- A gate list that waits for its cycle, where none is in force. -/
theorem State.gateChange_pending {s : State} {p : Nat} (hg : s.gated p = false) (hpend : (s.gate p).pending = true) :
    s.gateChange p = ((s.reach (s.gate p).swapAt).when (decide ((s.gate p).swapAt ≤ (s.reach (s.gate p).swapAt).ns))
      fun s => s.gclSwap p).gateNow p := by
  unfold State.gateChange
  dsimp only
  rw [hg, hpend]
  rfl

/-- An accepted write of a gate list's ACTIVATE. -/
theorem State.setCmd_gclCfg {s : State} {n p v : Nat} (hp : p < 18) (h : Takes s n (K.NTM_GCL_CFG (p + 1)) v) :
    s.setCmd n (K.NTM_GCL_CFG (p + 1)) v =
      (s.accepted n (K.NTM_GCL_CFG (p + 1)) (s.valueOf (K.NTM_GCL_CFG (p + 1)) v)).gclCfgApply p (s.valueOf (K.NTM_GCL_CFG (p + 1)) v) := by
  have hk : K.NTM_GCL_CFG (p + 1) / 256 = 0x320A := by
    unfold K.NTM_GCL_CFG
    omega
  have hs : K.NTM_GCL_CFG (p + 1) % 256 = p + 1 := by
    unfold K.NTM_GCL_CFG
    omega
  have ht : stopsTide (K.NTM_GCL_CFG (p + 1)) = false := (by decide : ∀ p < 18, stopsTide (K.NTM_GCL_CFG (p + 1)) = false) p hp
  rw [State.setCmd_time h hk rfl ht rfl, hs]
  rfl

theorem State.gclCfgApply_activate (s : State) {p v : Nat} (hv : v.testBit 1 = true) :
    ((s.gclCfgApply p v).gate p).pending = true ∧ ((s.gclCfgApply p v).ob (K.NTM_GCL_CFG (p + 1))).testBit 1 = false ∧
      ((s.gclCfgApply p v).gate p).oper = (s.gate p).oper := by
  have hb : bit v 1 = true := hv
  unfold State.gclCfgApply
  rw [hb]
  dsimp only
  rw [if_pos rfl]
  obtain ⟨h1, h2, -, -⟩ := State.gate_gateNow ((s.setOb (K.NTM_GCL_CFG (p + 1)) (v % 2 + 2 ^ 16 * bits v 24 16)).setGate p
    { (s.setOb (K.NTM_GCL_CFG (p + 1)) (v % 2 + 2 ^ 16 * bits v 24 16)).gate p with
      pending := true
      swapAt := cycleStart ((s.setOb (K.NTM_GCL_CFG (p + 1)) (v % 2 + 2 ^ 16 * bits v 24 16)).ob (K.NTM_GCL_BASE (p + 1)))
        ((s.setOb (K.NTM_GCL_CFG (p + 1)) (v % 2 + 2 ^ 16 * bits v 24 16)).ob (K.NTM_GCL_CYCLE (p + 1)))
        (s.setOb (K.NTM_GCL_CFG (p + 1)) (v % 2 + 2 ^ 16 * bits v 24 16)).ns }) p
  rw [State.gate_setGate_self] at h1 h2
  refine ⟨h1, ?_, h2⟩
  have ho := s.ob_setOb_self (K.NTM_GCL_CFG (p + 1)) (v % 2 + 2 ^ 16 * bits v 24 16)
  have ht : (v % 2 + 2 ^ 16 * bits v 24 16).testBit 1 = false := by
    rw [Nat.testBit_eq_decide_div_mod_eq]
    simp
    omega
  rw [← ho] at ht
  exact ht

/-- Settles O33: launches, missed launches, and the change of gate lists. -/
theorem launches : Obligations.Launches := by
  unfold Obligations.Launches
  refine ⟨?_, ?_, ?_, ?_⟩
  · intro s p f hr hb hd hn hk hc hs hi
    have hp : p < 18 := by
      unfold State.portRuns at hr
      simp only [Bool.and_eq_true, decide_eq_true_eq] at hr
      exact hr.1.2
    obtain ⟨g, hg, hfields, hq, ho⟩ := State.launchNext_service hb hd hn hk hc hs hi hp
    refine completes_of rfl (if_pos hr) ?_
    obtain ⟨h1, h2⟩ := (s.launchNext p).swapGive_keeps
    have hk18 : timeKey (K.HNW_TX_FRAMES (p + 1)) = false :=
      (by decide : ∀ p < 18, timeKey (K.HNW_TX_FRAMES (p + 1)) = false) p hp
    rw [h2 _ hk18]
    unfold State.queue at hq ⊢
    rw [h1, hg]
    exact ⟨hfields, hq, ho⟩
  · intro s p f l hn hst hq hc hl hp h64 hw
    exact completes_of rfl (if_pos hn) (State.launchMiss_single hst hq hc hl hp h64 hw)
  · intro s p hn hst hg hpend hp h64 hw
    refine completes_of rfl ((if_pos hn).trans (State.gateChange_pending hg hpend)) ?_
    have hgate := State.gate_reach hst (s.gate p).swapAt p
    have hns := State.le_ns_reach hst h64 hw
    have hnext := (s.passes_reach (s.gate p).swapAt).gateNext hp
    generalize s.reach _ = r at hgate hns hnext
    rw [decide_eq_true hns]
    obtain ⟨h1, h2, h3, h4⟩ := (r.gclSwap p).gate_gateNow p
    have hs : (r.gclSwap p).gate p = r.gateNext p := r.gate_setGate_self p _
    rw [hs] at h1 h2 h3 h4
    exact ⟨h1, h2.trans hnext.1, h3.trans hnext.2.1, h4.trans hnext.2.2⟩
  · intro s n p v hp h hv
    refine completes_of rfl (State.setCmd_gclCfg hp h) ?_
    obtain ⟨h1, h2, h3⟩ := State.gclCfgApply_activate (s.accepted n (K.NTM_GCL_CFG (p + 1)) (s.valueOf (K.NTM_GCL_CFG (p + 1)) v))
      (p := p) hv
    refine ⟨h1, h2, h3.trans ?_⟩
    unfold State.gate
    rw [State.accepted_ntm]

end Sys2Proof.Machine
end


section
/-! SUPPORT. Frames that arrive, and changes made in turn (R263, R269, R276). -/

namespace Sys2Proof.Machine

/-- What one of the changes made in turn brings about, and every other keeps. -/
theorem State.each_reaches {α : Type} {f : State → α → State} (I Q : State → Prop) {a : α} {l : List α} {s : State} (ha : a ∈ l)
    (hI : I s) (hs : ∀ u, I u → Q (f u a)) (hf : ∀ u, ∀ b ∈ l, I u → I (f u b)) (hk : ∀ u, ∀ b ∈ l, I u → Q u → Q (f u b)) :
    Q (s.each l f) := by
  induction l generalizing s with
  | nil => cases ha
  | cons b l ih =>
    by_cases hl : a ∈ l
    · exact ih hl (hf s b List.mem_cons_self hI) (fun u c hc => hf u c (List.mem_cons_of_mem _ hc))
        fun u c hc => hk u c (List.mem_cons_of_mem _ hc)
    · have hb : a = b := (List.mem_cons.1 ha).resolve_right hl
      subst hb
      refine (State.each_induct (fun u => I u ∧ Q u) (s := f s a) (l := l) ⟨hf s a List.mem_cons_self hI, hs s hI⟩
        fun u c hc hu => ?_).2
      exact ⟨hf u c (List.mem_cons_of_mem _ hc) hu.1, hk u c (List.mem_cons_of_mem _ hc) hu.1 hu.2⟩

theorem State.arrive_of {s s0 : State} {fr : Rx} {a : Bool} (h : Arrives s fr a s0) (f : State → State) : s.arrive fr a f = f s0 := by
  unfold State.arrive
  rw [if_pos h.1, h.2]
  exact if_pos rfl

/-- A frame of the controller's EtherType that passes has a good header. -/
theorem Arrives.headerOk {s s0 : State} {fr : Rx} {a : Bool} (h : Arrives s fr a s0) (he : fr.etype = s.ob K.HNW_ETHERTYPE) (hp : fr.port < 18) :
    rxHeaderOk fr = true := by
  have hin := h.2
  unfold State.ingress at hin
  extract_lets p u1 pm bw u2 huatur typeOk vlanOk hdrOk ipOk udpOk u3 ok at hin
  have hob : u1.ob K.HNW_ETHERTYPE = s.ob K.HNW_ETHERTYPE :=
    (State.ob_bwPast _ (by decide)).trans (State.ob_incOb_ne _ (by unfold K.HNW_ETHERTYPE K.HNW_RX_FRAMES; omega))
  have hu : huatur = true := decide_eq_true (he.trans hob.symm)
  have hok : ok = true := congrArg Prod.snd hin
  unfold ok at hok
  simp only [Bool.and_eq_true] at hok
  obtain ⟨⟨⟨⟨-, hh⟩, -⟩, -⟩, -⟩ := hok
  unfold hdrOk at hh
  rw [hu] at hh
  exact hh

theorem Arrives.port_lt {s s0 : State} {fr : Rx} {a : Bool} (h : Arrives s fr a s0) : fr.port < 18 := by
  have hr := h.1
  unfold State.portRuns at hr
  simp only [Bool.and_eq_true, decide_eq_true_eq] at hr
  exact hr.1.2

theorem State.queue_enqueue_self (s : State) (p : Nat) (f : TxF) : (s.enqueue p f).queue p = s.queue p ++ [f] :=
  s.queue_setQueue_self p _

theorem State.queue_enqueue_ne (s : State) {p q : Nat} (f : TxF) (h : q ≠ p) : (s.enqueue p f).queue q = s.queue q :=
  s.queue_setQueue_ne _ h

theorem State.mem_queue_enqueue {s : State} {p q : Nat} {f g : TxF} (h : g ∈ s.queue p) : g ∈ (s.enqueue q f).queue p := by
  by_cases he : p = q
  · subst he
    rw [State.queue_enqueue_self]
    exact List.mem_append_left _ h
  · rwa [State.queue_enqueue_ne _ _ he]

/-- A frame put on several ports stands in the queue of each, behind what stood there. -/
theorem State.mem_queue_each {α : Type} {l : List α} {port : α → Nat} {frame : State → α → TxF} {s : State} {p : Nat} {g : TxF}
    (h : g ∈ s.queue p) : g ∈ (s.each l fun u a => u.enqueue (port a) (frame u a)).queue p :=
  State.each_induct (fun u => g ∈ u.queue p) h fun u _ _ hu => u.mem_queue_enqueue hu

theorem State.stn_setStn_self (s : State) (n : Nat) (x : Sta) : (s.setStn n x).stn n = x :=
  mget_mput_self (fun _ => Sta.init) s.hnw.sta n x

theorem State.stn_of_sta {s t : State} (h : t.hnw.sta = s.hnw.sta) (n : Nat) : t.stn n = s.stn n := by
  unfold State.stn
  rw [h]

theorem State.stn_of_hnw {s t : State} (h : t.hnw = s.hnw) (n : Nat) : t.stn n = s.stn n :=
  State.stn_of_sta (congrArg Hnw.sta h) n

theorem State.stn_incOb (s : State) (k n : Nat) : (s.incOb k).stn n = s.stn n := rfl

theorem State.stn_raise (s : State) (c k r m d x n : Nat) : (s.raise c k r m d x).stn n = s.stn n := rfl

theorem State.stn_ebbLast (s : State) (l : Hnw → SMap Nat) (n : Nat) : (s.setHnw fun h => { h with ebbLast := l h }).stn n = s.stn n := rfl

theorem State.each_cons {α : Type} (s : State) (a : α) (l : List α) (f : State → α → State) : s.each (a :: l) f = (f s a).each l f := rfl

theorem State.queue_of_hnw {s t : State} (h : t.hnw = s.hnw) (p : Nat) : t.queue p = s.queue p := by
  unfold State.queue
  rw [h]

/-- Ring states change nothing but ring states (R295). -/
theorem State.ringSeen_frame (s : State) (p : Nat) (h : Hdr) :
    s.ringSeen p h = { s with hnw := (s.ringSeen p h).hnw } ∧ (s.ringSeen p h).hnw.sta = s.hnw.sta := by
  unfold State.ringSeen
  extract_lets t
  split
  · exact ⟨rfl, rfl⟩
  · exact ⟨rfl, rfl⟩

theorem State.when_ringSeen_frame (s : State) (c : Bool) (p : Nat) (h : Hdr) :
    (s.when c fun s => s.ringSeen p h) = { s with hnw := (s.when c fun s => s.ringSeen p h).hnw } ∧
      (s.when c fun s => s.ringSeen p h).hnw.sta = s.hnw.sta := by
  unfold State.when
  split
  · exact s.ringSeen_frame p h
  · exact ⟨rfl, rfl⟩

end Sys2Proof.Machine
end


section
/-! PROOF. Frames of the field network (R142, R263–R266, R273–R281, R291, R295). -/

namespace Sys2Proof.Machine

/-! ### Trains and schedules -/

theorem State.sendTrainFrame_frame (s : State) (p : Nat) (f : TxF) : s.sendTrainFrame p f = { s with hnw := (s.sendTrainFrame p f).hnw } := by
  unfold State.sendTrainFrame
  refine State.each_induct (fun u => u = { s with hnw := u.hnw }) (s := s) rfl fun u pd _ hu => ?_
  unfold State.enqueue State.setQueue State.setHnw
  rw [hu]

theorem State.mem_queue_sendTrainFrame {s : State} {p q : Nat} {f g : TxF} (h : g ∈ s.queue p) : g ∈ (s.sendTrainFrame q f).queue p :=
  State.mem_queue_each h

/-- A train's frame stands in the queue of its trunk's first port. -/
theorem State.sendTrainFrame_queue (s : State) (p : Nat) (f : TxF) : ∃ g ∈ (s.sendTrainFrame p f).queue p, g.kind = f.kind ∧
    g.typ = trainType f.kind ∧ g.dst = s.ob K.HNW_GROUP_MAC % 2 ^ 48 ∧ g.point = f.point ∧ g.tide = f.tide := by
  obtain ⟨l, hl⟩ : ∃ l, s.trunkPorts p = (p, false) :: l := by
    unfold State.trunkPorts
    split
    · exact ⟨_, rfl⟩
    · exact ⟨_, rfl⟩
  unfold State.sendTrainFrame
  extract_lets _ g
  rw [hl]
  refine ⟨{ g with dir := false }, ?_, rfl, rfl, rfl, rfl, rfl⟩
  rw [State.each_cons]
  refine State.mem_queue_each ?_
  rw [State.queue_enqueue_self]
  simp

/-- The schedule of an armed tide on every trunk. -/
theorem State.schedules_armed {s : State} (ha : s.tds.st = .armed) (hg : s.grantHeld = true) {p : Nat} (hp : p ∈ s.trunks) :
    ∃ f ∈ s.schedules.queue p, f.kind = .schedule ∧ f.typ = 3 ∧ f.dst = s.ob K.HNW_GROUP_MAC % 2 ^ 48 ∧ f.point = s.tds.nextEbb ∧
      f.tide = s.ob K.TDS_TIDE_START := by
  unfold State.schedules
  rw [if_pos hg]
  refine State.each_reaches (fun u => u = { s with hnw := u.hnw }) (fun u => ∃ f ∈ u.queue p, f.kind = .schedule ∧ f.typ = 3 ∧
    f.dst = s.ob K.HNW_GROUP_MAC % 2 ^ 48 ∧ f.point = s.tds.nextEbb ∧ f.tide = s.ob K.TDS_TIDE_START) hp rfl (fun u hu => ?_)
    (fun u q _ hu => ?_) fun u q _ _ hq => ?_
  · have ht : u.tds = s.tds := by rw [hu]
    have ho : ∀ k, u.ob k = s.ob k := State.ob_of_objs (by rw [hu])
    unfold State.sendSchedule
    extract_lets armed
    have harm : armed = true := decide_eq_true (by rw [ht]; exact ha)
    obtain ⟨f, hf, h1, h2, h3, h4, h5⟩ := u.sendTrainFrame_queue p { TxF.init with
      cls := 1
      kind := .schedule
      launch := none
      len := u.frameLen 40
      tide := if armed = true then u.ob K.TDS_TIDE_START else (u.ob K.TDS_TIDE + 1) % 2 ^ 32
      point := u.tds.nextEbb
      body := beBytes 4 u.tideP ++ beBytes 4 (u.ob K.TDS_IN_DEADLINE) ++ beBytes 4 (u.ob K.TDS_LAUNCH) ++
        beBytes 4 (u.ob K.TDS_SLACK_PT) }
    refine ⟨f, hf, h1, h2, h3.trans (by rw [ho]), h4.trans (by rw [ht]), h5.trans ?_⟩
    dsimp only
    rw [if_pos harm, ho]
  · refine (u.sendTrainFrame_frame q _).trans ?_
    rw [hu]
    rfl
  · obtain ⟨f, hf, hrest⟩ := hq
    exact ⟨f, State.mem_queue_sendTrainFrame hf, hrest⟩

/-! ### Returned frames -/

/-- The first segment of an enabled station in its tide (R276). -/
theorem State.ebbSeg_first {s : State} {port : Nat} {g : Seg} (hd : g.done = true) (he : s.staEn g.station = true)
    (hp : s.staPort g.station = s.trunkOf port) (ha : (s.stn g.station).accepted = false) (hi : s.tds.inputDone = false)
    (hf : s.tds.flooded = false) :
    ((s.ebbSeg port true g).stn g.station).accepted = true ∧ ((s.ebbSeg port true g).stn g.station).status = g.status ∧
      ((s.ebbSeg port true g).stn g.station).miss = 0 := by
  unfold State.ebbSeg
  extract_lets n len old u v w x y t
  rw [if_neg (by simp [hd, n, he, hp]), if_neg (by rw [ha]; exact Bool.false_ne_true), if_neg (by rw [hi, hf]; exact Bool.false_ne_true)]
  have hw : (w.stn n).accepted = true ∧ (w.stn n).status = g.status ∧ (w.stn n).miss = 0 := by
    unfold w State.modStn
    rw [State.stn_setStn_self]
    exact ⟨rfl, rfl, rfl⟩
  have hx : x.stn n = w.stn n := w.stn_ebbLast (fun h => mput (fun _ => 0) h.ebbLast port (w.ns + 1)) n
  have hy : y.stn n = x.stn n := by
    unfold y State.when
    split
    · exact x.stn_raise 0x0B (x.staPort n) n 0 (x.ob K.TDS_TIDE) (x.staPos n) n
    · rfl
  rw [← hx, ← hy] at hw
  clear_value y
  split
  · split
    · rw [State.stn_incOb]
      exact hw
    · rw [State.stn_raise]
      exact hw
  · exact hw

theorem State.inputCheck_stn (s : State) (n : Nat) : s.inputCheck.stn n = s.stn n :=
  State.stn_of_hnw ((State.inputCheck_stays s (.refl s _) (List.Subset.refl _)).keeps .hnw (by decide)) n

/-! ### Frames of the partner and of events -/

theorem State.ptpQueue_keeps (s : State) {p : Nat} (hp : p < 18) (len : Nat) (b : List Byte) : (s.ptpQueue p len b).hnw = s.hnw ∧
    ∀ k, k / 65536 = 0x30 → (s.ptpQueue p len b).ob k = s.ob k := by
  refine ⟨(State.ptpQueue_stays s p len b (.refl s _) (List.Subset.refl _)).keeps .hnw (by decide), fun k hk => ?_⟩
  unfold State.ptpQueue
  extract_lets u t
  have hu : u.ob k = s.ob k := by
    unfold u State.when
    split
    · exact State.ob_setOb_ne _ _ (by unfold K.NTM_LAST_SYNC; omega)
    · rfl
  clear_value u
  split
  · exact (State.ob_incOb_ne _ (by unfold K.NTM_PTP_DROPS; omega)).trans hu
  · exact hu

theorem State.transitPort_of_cfg {s t : State} {p : Nat} (hp : p < 16) (h : ∀ k, k / 65536 = 0x30 → t.ob k = s.ob k) :
    t.transitPort p = s.transitPort p := by
  have h1 : t.ob (K.HNW_PORT_CFG p) = s.ob (K.HNW_PORT_CFG p) := h _ (by unfold K.HNW_PORT_CFG; omega)
  have h2 : t.ob (K.HNW_PORT_CFG (p + 1)) = s.ob (K.HNW_PORT_CFG (p + 1)) := h _ (by unfold K.HNW_PORT_CFG; omega)
  unfold State.transitPort State.isRing State.topo State.ringSecond
  rw [h1, h2]

theorem State.vtag_of_cfg {s t : State} (h : ∀ k, k / 65536 = 0x30 → t.ob k = s.ob k) : t.vtag = s.vtag := by
  unfold State.vtag
  rw [h _ (by decide)]

theorem State.fire_ob (s : State) (c n k : Nat) : (s.fire c n).ob k = s.ob k := by
  unfold State.fire
  split <;> rfl

theorem State.fire_hnw (s : State) (c n : Nat) : (s.fire c n).hnw = s.hnw := by
  unfold State.fire
  split <;> rfl

theorem State.fire_trigQ {s : State} (h : s.red.role ≠ .standby) (c n : Nat) : (s.fire c n).tds.trigQ = s.tds.trigQ ++ [(c, n)] := by
  unfold State.fire
  rw [if_neg h]
  rfl

/-- The state once an event's value and stamp are taken. -/
def State.evented (s : State) (n seq data stamp : Nat) : State :=
  (((s.setHnw fun x => { x with evseq := mput (fun _ => 0) x.evseq n (seq % 65536 + 1) }).setOb (K.HST_EVENT_DATA n)
    (data % 2 ^ 64)).setOb (K.HST_EVENT_STAMP n) (stamp % 2 ^ 64))

theorem State.evented_ob (s : State) (n seq data stamp : Nat) :
    (s.evented n seq data stamp).ob (K.HST_EVENT_DATA n) = data % 2 ^ 64 ∧
      (s.evented n seq data stamp).ob (K.HST_EVENT_STAMP n) = stamp % 2 ^ 64 ∧
      (s.evented n seq data stamp).ob (K.HST_CFG n) = s.ob (K.HST_CFG n) := by
  unfold State.evented
  refine ⟨?_, State.ob_setOb_self _ _ _, ?_⟩
  · rw [State.ob_setOb_ne _ _ (by unfold K.HST_EVENT_DATA K.HST_EVENT_STAMP; omega)]
    exact State.ob_setOb_self _ _ _
  · rw [State.ob_setOb_ne _ _ (by unfold K.HST_CFG K.HST_EVENT_STAMP; omega),
      State.ob_setOb_ne _ _ (by unfold K.HST_CFG K.HST_EVENT_DATA; omega)]
    exact State.ob_of_objs (s := s) rfl _

theorem State.evented_evseq (s : State) (n seq data stamp : Nat) :
    mget (fun _ => 0) (s.evented n seq data stamp).hnw.evseq n = seq % 65536 + 1 :=
  mget_mput_self (fun _ => 0) s.hnw.evseq n (seq % 65536 + 1)

/-- An event that is taken, and its station's slot. -/
theorem State.event_taken (s : State) (n seq data stamp : Nat) (t : State)
    (ht : t = (s.evented n seq data stamp).when (bit ((s.evented n seq data stamp).ob (K.HST_CFG n)) 8) fun u =>
      u.fire 2 (bits ((s.evented n seq data stamp).ob (K.HST_CFG n)) 7 0)) :
    t.ob (K.HST_EVENT_DATA n) = data % 2 ^ 64 ∧ t.ob (K.HST_EVENT_STAMP n) = stamp % 2 ^ 64 ∧
      mget (fun _ => 0) t.hnw.evseq n = seq % 65536 + 1 ∧
      ((s.ob (K.HST_CFG n)).testBit 8 = true → s.red.role ≠ .standby →
        t.tds.trigQ = s.tds.trigQ ++ [(2, s.ob (K.HST_CFG n) % 256)]) := by
  obtain ⟨h1, h2, h3⟩ := s.evented_ob n seq data stamp
  have h4 := s.evented_evseq n seq data stamp
  have h5 : (s.evented n seq data stamp).red = s.red := rfl
  have h6 : (s.evented n seq data stamp).tds = s.tds := rfl
  rw [h3] at ht
  generalize s.evented n seq data stamp = u at ht h1 h2 h3 h4 h5 h6
  rw [← h5, ← h6]
  have hkeep : (∀ k, t.ob k = u.ob k) ∧ t.hnw = u.hnw := by
    rw [ht, State.when]
    split
    · exact ⟨u.fire_ob _ _, u.fire_hnw _ _⟩
    · exact ⟨fun _ => rfl, rfl⟩
  rw [hkeep.1, hkeep.1, hkeep.2]
  refine ⟨h1, h2, h4, fun hb hr => ?_⟩
  rw [ht, State.when, if_pos (show bit _ 8 = true from hb), State.fire_trigQ hr]
  unfold bits
  simp

/-! ### The engineering ports -/

theorem State.ipAnswer_of_arrives {s s0 : State} {fr : Rx} {etype ip : Nat} {kind : FKind} {dst : State → Nat} {body : State → List Byte}
    (h : Arrives s fr true s0) (hp : 16 ≤ fr.port) (he : fr.etype = etype) (hip : s0.ob K.HNW_IP ≠ 0) (hi : ip = s0.ob K.HNW_IP) :
    ∃ f, (s.ipAnswer fr etype ip kind dst body).queue fr.port = s0.queue fr.port ++ [f] ∧ f.kind = kind ∧ f.dst = dst s0 % 2 ^ 48 ∧
      f.body = body s0 := by
  unfold State.ipAnswer
  rw [State.arrive_of h, if_pos ⟨hp, he, hip, hi⟩]
  exact ⟨_, State.queue_enqueue_self s0 fr.port _, rfl, rfl, rfl⟩

theorem exec_ebbFrameReceive {s s0 : State} {fr : Rx} {body : List Byte} (h : Arrives s fr false s0) (ht : s0.isType fr 1 = true) :
    exec (.ebbFrameReceive fr body) s = .next
      (let t := s0.when (s0.sentHere (rxHeader fr)) fun s => s.ringSeen fr.port (rxHeader fr)
       (t.each (rxSegs fr body) fun s g => s.ebbSeg fr.port (s.ownFrame (rxHeader fr) && s.tideOn) g).inputCheck) := by
  have hs : ¬ (s.portRuns fr.port && s.isType fr 1 && !rxHeaderOk fr) = true := by
    intro hc
    simp only [Bool.and_eq_true, Bool.not_eq_true', State.isType, decide_eq_true_eq] at hc
    obtain ⟨⟨-, he, -⟩, hbad⟩ := hc
    rw [Arrives.headerOk h he (Arrives.port_lt h)] at hbad
    cases hbad
  exact congrArg Host.Outcome.next ((if_neg hs).trans ((State.arrive_of h _).trans (if_pos ht)))

/-- The state in which a frame of the partner is queued again. -/
theorem State.transit_queue {s : State} {fr : Rx} (hport : fr.port < 16) (cls : Nat) (body : List Byte) :
    ∃ f, ((s.when (decide (fr.etype = 0x88F7)) fun s => s.ptpQueue fr.port (fr.bytes - 4) body).enqueue
        ((s.when (decide (fr.etype = 0x88F7)) fun s => s.ptpQueue fr.port (fr.bytes - 4) body).transitPort fr.port)
        ((s.when (decide (fr.etype = 0x88F7)) fun s => s.ptpQueue fr.port (fr.bytes - 4) body).transitTx fr cls body)).queue
        (s.transitPort fr.port) = s.queue (s.transitPort fr.port) ++ [f] ∧ f.kind = .transit ∧ f.cls = cls ∧ f.dst = fr.dst ∧
      f.src = fr.src ∧ f.etype = fr.etype ∧ f.body = (if fr.etype = 0x88F7 then body else fr.hdr ++ body) ∧
      f.vtag = (if fr.vid = none then s.vtag else fr.vid) ∧ f.pair = (rxHeader fr).pair ∧ f.partner = (rxHeader fr).partner ∧
      f.grant = (rxHeader fr).grant := by
  have hu : (s.when (decide (fr.etype = 0x88F7)) fun s => s.ptpQueue fr.port (fr.bytes - 4) body).hnw = s.hnw ∧
      ∀ k, k / 65536 = 0x30 → (s.when (decide (fr.etype = 0x88F7)) fun s => s.ptpQueue fr.port (fr.bytes - 4) body).ob k = s.ob k := by
    unfold State.when
    split
    · exact s.ptpQueue_keeps (by omega) _ body
    · exact ⟨rfl, fun _ _ => rfl⟩
  generalize (s.when (decide (fr.etype = 0x88F7)) fun s => s.ptpQueue fr.port (fr.bytes - 4) body) = u at hu
  obtain ⟨hnw, ho⟩ := hu
  rw [State.transitPort_of_cfg hport ho]
  refine ⟨u.transitTx fr cls body, ?_, rfl, rfl, rfl, rfl, rfl, rfl, ?_, rfl, rfl, rfl⟩
  · rw [State.queue_enqueue_self, State.queue_of_hnw hnw]
  · rw [← State.vtag_of_cfg ho]
    unfold State.transitTx
    dsimp only
    cases hv : fr.vid <;> rfl

/-- Settles O31: the trains, the returned frames, the partner's frames, events, and what the engineering ports answer. -/
theorem fieldFrames : Obligations.FieldFrames := by
  unfold Obligations.FieldFrames
  refine ⟨⟨?_, ?_, ?_, ?_⟩, ?_, ?_, ?_⟩
  · intro s he hn hs
    exact completes_of rfl (if_pos (by rw [he, hn, hs]; rfl)) rfl
  · intro s p ha hn hg hp
    exact completes_of rfl (if_pos ⟨ha, hn⟩) (State.schedules_armed ha hg hp)
  · intro s s0 fr body g h ht hb ho hon hd he hp ha hi hf _
    refine completes_of (exec_ebbFrameReceive h ht) rfl ?_
    obtain ⟨hframe, hsta⟩ := s0.when_ringSeen_frame (s0.sentHere (rxHeader fr)) fr.port (rxHeader fr)
    dsimp only
    generalize (s0.when (s0.sentHere (rxHeader fr)) fun s => s.ringSeen fr.port (rxHeader fr)) = t at hframe hsta
    have hown : (t.ownFrame (rxHeader fr) && t.tideOn) = true := by
      rw [hframe]
      exact (Bool.and_eq_true _ _).mpr ⟨ho, hon⟩
    have htds : t.tds = s0.tds := by rw [hframe]
    have hen : t.staEn g.station = true := by rw [hframe]; exact he
    have hpo : t.staPort g.station = t.trunkOf fr.port := by rw [hframe]; exact hp
    rw [hb, State.each_cons, hown, State.inputCheck_stn]
    exact State.ebbSeg_first hd hen hpo (by rw [State.stn_of_sta hsta]; exact ha) (by rw [htds]; exact hi) (by rw [htds]; exact hf)
  · intro s s0 fr body g h ht hb ho he
    refine completes_of rfl ((State.arrive_of h _).trans (if_pos ht)) ?_
    obtain ⟨hframe, hsta⟩ := s0.when_ringSeen_frame (s0.sentHere (rxHeader fr)) fr.port (rxHeader fr)
    dsimp only
    generalize (s0.when (s0.sentHere (rxHeader fr)) fun s => s.ringSeen fr.port (rxHeader fr)) = t at hframe hsta
    have hown : t.ownFrame (rxHeader fr) = true := by rw [hframe]; exact ho
    have hen : t.staEn g.station = true := by rw [hframe]; exact he
    rw [if_pos hown, hb, State.each_cons]
    unfold State.slackSeg
    rw [if_pos hen]
    unfold State.modStn
    rw [← State.stn_of_sta hsta]
    exact ⟨congrArg Sta.outSeen (t.stn_setStn_self _ _), congrArg Sta.outDone (t.stn_setStn_self _ _)⟩
  · intro s s0 fr cls body hc h hpair hport hof
    refine completes_of rfl ((if_pos hc).trans ((State.arrive_of h _).trans (if_pos (by rw [hpair, hof]; simpa using hport)))) ?_
    exact State.transit_queue hport cls body
  · intro s s0 fr body n q h ht hpair hn hq he hp hseq
    subst hn hq
    refine completes_of rfl ((State.arrive_of h _).trans (if_pos (by simp [ht, hpair, he, hp, hseq]))) ?_
    exact s0.event_taken _ _ _ _ _ rfl
  · intro s s0 fr ip h hp hip
    refine ⟨fun he => ?_, fun data he => ?_⟩
    · exact completes_of rfl rfl (State.ipAnswer_of_arrives h hp he hip rfl)
    · exact completes_of rfl rfl (State.ipAnswer_of_arrives h hp he hip rfl)

end Sys2Proof.Machine
end


section
/-! PROOF. Requests to stations, SCAN and CONFIGURE, and link changes (R286–R290, R298, R554). -/

namespace Sys2Proof.Machine

/-! ### Frames of services -/

theorem State.mem_enqueue_self (s : State) (p : Nat) (f : TxF) : f ∈ (s.enqueue p f).queue p := by
  rw [State.queue_enqueue_self]
  simp

theorem State.routes_enqueue (s : State) (p : Nat) (f : TxF) : (s.enqueue p f).hnw = { s.hnw with txq := (s.enqueue p f).hnw.txq } := rfl

theorem State.sendService_hnw (s : State) (r : Route) : (s.sendService r).hnw = { s.hnw with txq := (s.sendService r).hnw.txq } := by
  unfold State.sendService
  refine State.each_induct (fun u => u.hnw = { s.hnw with txq := u.hnw.txq }) (s := s) rfl fun u pd _ hu => ?_
  rw [State.routes_enqueue]
  dsimp only
  rw [hu]

/-- A request to a station stands in the queue of the station's first port. -/
theorem State.sendService_queue (s : State) {r : Route} (hr : r.byPos = false) : ∃ f ∈ (s.sendService r).queue r.port, f.kind = .service ∧
    f.typ = 5 ∧ f.body = svcBytes r.target r.ses r.op (r.rid % 65536) 0 0 (r.idx * 256 + r.sub) r.off r.data := by
  obtain ⟨l, hl⟩ : ∃ l, s.trunkPorts r.port = (r.port, false) :: l := by
    unfold State.trunkPorts
    split
    · exact ⟨_, rfl⟩
    · exact ⟨_, rfl⟩
  unfold State.sendService
  rw [if_neg (by rw [hr]; exact Bool.false_ne_true), hl, State.each_cons]
  exact ⟨_, State.mem_queue_each (s.mem_enqueue_self r.port _), rfl, rfl, rfl⟩

/-! ### Routes -/

/-- A request that is routed is kept under the next number. -/
theorem State.route_hnw (s : State) (r : Route) (out : Bool) (hr : (r.byPos && s.relays) = false) :
    (s.route r out).hnw = { s.hnw with
      routes := s.hnw.routes ++ [{ r with rid := s.hnw.nextRid }]
      nextRid := s.hnw.nextRid + 1
      txq := (s.route r out).hnw.txq } := by
  unfold State.route
  extract_lets q u
  have hu : (q.byPos && u.relays) = false := hr
  rw [if_neg (by rw [hu]; exact Bool.false_ne_true)]
  split
  · exact u.sendService_hnw q
  · rfl

theorem State.route_cmd (s : State) (r : Route) (out : Bool) : (s.route r out).hnw.cmd = s.hnw.cmd := by
  unfold State.route
  extract_lets q u
  split
  · rfl
  · split
    · have hc := congrArg Hnw.cmd (u.sendService_hnw q)
      exact hc
    · rfl

theorem State.route_queue (s : State) {r : Route} (hr : r.byPos = false) : ∃ f ∈ (s.route r true).queue r.port, f.kind = .service ∧
    f.typ = 5 ∧ f.body = svcBytes r.target r.ses r.op (s.hnw.nextRid % 65536) 0 0 (r.idx * 256 + r.sub) r.off r.data := by
  unfold State.route
  extract_lets q u
  have hq : q.byPos = false := hr
  rw [if_neg (by rw [hq]; exact Bool.false_ne_true), if_pos rfl]
  exact u.sendService_queue hq

/-- What a requester on an engineering port is answered. -/
theorem State.answer_queue (s : State) {r : Route} (hr : r.use = 0) (st reason : Nat) (d : List Byte) :
    ∃ f, (s.answer r st reason d).queue r.eng = s.queue r.eng ++ [f] ∧ f.tag = r.tag ∧ f.dst = r.peer.mac % 2 ^ 48 ∧
      f.body = r.rspBytes st reason d := by
  unfold State.answer
  extract_lets u
  rw [if_pos hr]
  exact ⟨_, State.queue_enqueue_self u r.eng _, rfl, rfl, rfl⟩

theorem State.answer_routes (s : State) (r : Route) (st reason : Nat) (d : List Byte) :
    (s.answer r st reason d).hnw.routes = s.hnw.routes ∧ (s.answer r st reason d).hnw.relayed = s.hnw.relayed := by
  unfold State.answer
  extract_lets u
  split
  · exact ⟨rfl, rfl⟩
  · exact ⟨rfl, rfl⟩

/-- A request that is answered ends. -/
theorem State.respond_ends (s : State) {r : Route} (hr : r.use = 0) (st reason : Nat) (d : List Byte) :
    (∀ q ∈ (s.respond r st reason d).hnw.routes, q.rid ≠ r.rid) ∧ (∀ q ∈ (s.respond r st reason d).hnw.relayed, q.rid ≠ r.rid) ∧
      ∃ f, (s.respond r st reason d).queue r.eng = s.queue r.eng ++ [f] ∧ f.tag = r.tag ∧ f.dst = r.peer.mac % 2 ^ 48 ∧
        f.body = r.rspBytes st reason d := by
  have he : s.respond r st reason d = (s.endRoute r.rid).answer r st reason d := by
    unfold State.respond
    dsimp only
    rw [hr]
    rfl
  obtain ⟨h1, h2⟩ := (s.endRoute r.rid).answer_routes r st reason d
  obtain ⟨f, hf⟩ := (s.endRoute r.rid).answer_queue hr st reason d
  rw [he, h1, h2]
  refine ⟨fun q hq => ?_, fun q hq => ?_, f, hf⟩
  · simpa using (List.mem_filter.1 hq).2
  · simpa using (List.mem_filter.1 hq).2

theorem State.unanswered_zero (s : State) {r : Route} (hr : r.use = 0) : s.unanswered r = s.respond r stBUSY rOEM_TIMEOUT [] := by
  unfold State.unanswered
  rw [hr]
  rfl

theorem State.unanswered_scan (s : State) {r : Route} (hr : r.use = 1) : s.unanswered r = (s.endRoute r.rid).scanEnd r.port := by
  unfold State.unanswered
  rw [hr]
  rfl

theorem State.scanEnd_ports (s : State) (p : Nat) : ∀ x ∈ (s.scanEnd p).hnw.scans, x.port ≠ p := by
  intro x hx
  simpa using (List.mem_filter.1 hx).2

/-! ### SCAN and CONFIGURE -/

theorem State.scanAsk_cmd (s : State) (x : Scan) : (s.scanAsk x).hnw.cmd = s.hnw.cmd := by
  unfold State.scanAsk
  split
  · rfl
  · exact s.route_cmd _ _

theorem State.scanStart_cmd (s : State) : s.scanStart.hnw.cmd = 1 ∧ s.scanStart.dom K.HNW_SCAN = [] := by
  unfold State.scanStart
  extract_lets xs u v
  refine ⟨State.each_induct (fun w => w.hnw.cmd = 1) (s := v) rfl fun w x _ hw => (w.scanAsk_cmd x).trans hw, ?_⟩
  have hd : u.dom K.HNW_SCAN = [] := (s.dom_setDom _ _ _).trans (if_pos rfl)
  refine State.each_induct (fun w => w.dom K.HNW_SCAN = []) (s := v) hd fun w x _ hw => ?_
  exact (State.dom_of_doms ((State.scanAsk_stays w x (.refl w _) (List.Subset.refl _)).keeps .doms (by decide)) _).trans hw

theorem State.confAsk_cmd (s : State) (x : Conf) : (s.confAsk x).hnw.cmd = s.hnw.cmd := by
  unfold State.confAsk
  split
  · rfl
  · exact s.route_cmd _ _

theorem State.confNext_cmd (s : State) : s.confNext.hnw.cmd = s.hnw.cmd := by
  unfold State.confNext
  split
  · exact State.confAsk_cmd _ _
  · rfl
  · rfl

theorem State.setCmd_hnwCmd {s : State} {n v : Nat} (h : Takes s n K.HNW_CMD v) (hv : (objRow K.HNW_CMD).map (·.value v) = some v) :
    s.setCmd n K.HNW_CMD v = if v = 1 then (s.accepted n K.HNW_CMD v).scanStart else (s.accepted n K.HNW_CMD v).configureStart :=
  State.setCmd_of_index_plain (i := 0x3004) h (by decide) (by decide) (by decide) (h.value_eq hv) (by decide)

/-- A position is probed. -/
theorem State.probe_of_lost {s : State} {n : Nat} (hn : s.staEn n = true) (hl : (s.stn n).st = .lost) (hr : s.relays = false)
    (hf : s.routesFull = false) : s.probe n = s.route (ownRoute 3 n (s.staPort n) (s.staPos n) 3 0x1001 1 0) true := by
  unfold State.probe
  rw [hn, hl, hr, hf]
  rfl

theorem State.relays_of_a {s : State} (h : s.redId = 0) : s.relays = false := by
  unfold State.relays
  rw [h]
  simp

/-- A request to a station that is taken. -/
theorem State.routeRequest_station {s : State} {r : Route} {n : Nat} (hn : n < 4096) (hnum : r.num = n) (hb : r.byPos = false)
    (hres : reservedReq n r.op = false) (hf : s.routesFull = false) :
    s.routeRequest r n = s.route { r with port := s.staPort n } (s.staEn n) := by
  have hm : bits n 15 14 = 0 := by
    unfold bits
    simp
    omega
  unfold State.routeRequest State.routeWay
  rw [hres, hm, hb, hf, hnum]
  rfl

/-- Settles O32: the requests to stations, their answers and time limits, SCAN and CONFIGURE, probes and link changes. -/
theorem stationRequests : Obligations.StationRequests := by
  unfold Obligations.StationRequests
  refine ⟨?_, ?_, ?_, ?_, ?_, ?_, ?_, ?_, ?_, ?_, ?_⟩
  · intro s s0 fr n ses tag idx sub off data h hsvc hport hsays hres ht hn hf
    subst ht
    refine completes_of rfl ((if_pos hsays).trans ((State.arrive_of h _).trans (if_pos (by rw [hsvc]; simp [hport])))) ?_
    have hm : bits (rxTarget fr) 15 14 = 0 := by
      unfold bits
      simp
      omega
    have hmod : rxTarget fr % 4096 = rxTarget fr := Nat.mod_eq_of_lt hn
    dsimp only
    rw [State.routeRequest_station hn hmod (decide_eq_false (by rw [hm]; decide)) hres hf]
    refine ⟨_, congrArg Hnw.routes (State.route_hnw _ _ _ ?_), rfl, hmod, ?_, rfl, rfl, rfl, rfl, rfl, rfl, rfl, rfl, rfl, fun hen => ?_⟩
    · dsimp only
      rw [decide_eq_false (by rw [hm]; decide)]
      rfl
    · exact decide_eq_false (by rw [hm]; decide)
    · rw [hen]
      obtain ⟨f, hf, h1, h2, h3⟩ := s0.route_queue (r := { mkRoute 0 (decide (bits (rxTarget fr) 15 14 = 1)) (rxTarget fr % 4096)
        (rxOp fr) tag ses idx sub off data with
          src := rxSource fr
          eng := fr.port
          peer := s0.requester fr
          port := s0.staPort (rxTarget fr) }) (decide_eq_false (by rw [hm]; decide))
      refine ⟨f, hf, h1, h2, h3.trans ?_⟩
      unfold Route.target mkRoute
      dsimp only
      rw [if_neg (by rw [hm]; decide), hmod, hmod, Nat.zero_add]
  · intro s s0 fr r st reason d h hsvc hsays hfind hr
    refine completes_of rfl ((if_pos hsays).trans ((State.arrive_of h _).trans (if_pos hsvc))) ?_
    rw [hfind]
    obtain ⟨h1, -, f, hf⟩ := s0.respond_ends hr st reason d
    exact ⟨h1, f, hf⟩
  · intro s r hfind
    refine ⟨fun hr => ?_, fun hr => ?_⟩
    · refine completes_of rfl (by rw [hfind]) ?_
      dsimp only
      rw [State.unanswered_zero s hr]
      obtain ⟨h1, -, f, hf1, -, -, hf4⟩ := s.respond_ends hr stBUSY rOEM_TIMEOUT []
      exact ⟨h1, f, hf1, hf4⟩
    · refine completes_of rfl (by rw [hfind]) ?_
      dsimp only
      rw [State.unanswered_scan s hr]
      exact State.scanEnd_ports _ _
  · intro s src tag port pos ses op idx sub off data hp hid hn hf
    refine completes_of rfl (if_pos (by rw [hp, hid, hn]; rfl)) ?_
    dsimp only
    rw [if_neg (by rw [hf]; exact Bool.false_ne_true)]
    refine ⟨_, congrArg Hnw.routes (State.route_hnw _ _ _ ?_), rfl, rfl, rfl, rfl, rfl⟩
    rw [State.relays_of_a hid]
    rfl
  · intro s r st reason d hfind hr
    refine completes_of rfl (by rw [hfind]) ?_
    obtain ⟨-, h2, f, hf1, -, -, hf4⟩ := s.respond_ends hr st reason d
    exact ⟨h2, f, hf1, hf4⟩
  · intro s n h
    refine completes_of rfl (State.setCmd_hnwCmd h (by decide)) ?_
    rw [if_pos rfl]
    exact State.scanStart_cmd _
  · intro s n h
    refine completes_of rfl (State.setCmd_hnwCmd h (by decide)) ?_
    rw [if_neg (by decide)]
    exact State.confNext_cmd _
  · intro s p
    exact completes_of rfl rfl (s.scanEnd_ports p)
  · intro s h1 h2 h3 h4
    exact completes_of rfl (if_pos ⟨h1, h2, h3, h4⟩) rfl
  · intro s n hn hl hr hf
    refine completes_of rfl (State.probe_of_lost hn hl hr hf) ?_
    refine ⟨_, congrArg Hnw.routes (State.route_hnw _ _ _ ?_), rfl, rfl, rfl⟩
    rw [hr]
    rfl
  · intro s p b r0 r1 hp hn
    refine completes_of rfl (if_pos ⟨hp, hn⟩) ⟨?_, fun q hq => ?_⟩
    · exact testBit_putBit_self _ _ _
    · exact testBit_putBit_ne _ _ hq

end Sys2Proof.Machine
end


section
/-! PROOF. Power domains, resets and clocks (R522–R534, R557). -/

namespace Sys2Proof.Machine

/-! ### States of domains -/

theorem State.domSt_setDomSt_self (s : State) (d : Nat) (x : DomSt) : (s.setDomSt d x).domSt d = x :=
  mget_mput_self (fun _ => DomSt.on) s.pwr.dom d x

theorem State.domSt_setDomSt_ne (s : State) {d e : Nat} (x : DomSt) (h : e ≠ d) : (s.setDomSt d x).domSt e = s.domSt e :=
  mget_mput_ne (fun _ => DomSt.on) s.pwr.dom d x h

theorem State.domSt_of_pwr {s t : State} (h : t.pwr = s.pwr) (d : Nat) : t.domSt d = s.domSt d := by
  unfold State.domSt
  rw [h]

theorem State.accepted_pwr (s : State) (n key u : Nat) : (s.accepted n key u).pwr = s.pwr :=
  (s.accepted_stays' n key u).keeps .pwr (by decide)

theorem State.setCmd_domain {s : State} {n d v : Nat} (hd : d < 16) (hv : v = 1 ∨ v = 2) (h : Takes s n (K.PWR_DOMAIN_CMD d) v) :
    s.setCmd n (K.PWR_DOMAIN_CMD d) v = (s.accepted n (K.PWR_DOMAIN_CMD d) v).domCmd d v := by
  have hk : K.PWR_DOMAIN_CMD d / 256 = 0x1202 := by
    unfold K.PWR_DOMAIN_CMD
    omega
  have hs : K.PWR_DOMAIN_CMD d % 256 = d := by
    unfold K.PWR_DOMAIN_CMD
    omega
  have hrow : d = 0 ∨ (objRow (K.PWR_DOMAIN_CMD d)).map (·.value v) = some v :=
    (by decide +kernel : ∀ d < 16, ∀ v ∈ [1, 2], d = 0 ∨ (objRow (K.PWR_DOMAIN_CMD d)).map (·.value v) = some v) d hd v
      (by simp [hv])
  have hval : (objRow (K.PWR_DOMAIN_CMD d)).map (·.value v) = some v := hrow.resolve_left fun h0 => by
    obtain ⟨r, hr⟩ := h.row
    have hnone : objRow (K.PWR_DOMAIN_CMD d) = none := by
      rw [h0]
      decide +kernel
    exact Option.some_ne_none r ((State.objRow_of_rowOf hr).symm.trans hnone)
  rw [State.setCmd_of_index_plain h hk (by decide) (by decide) (h.value_eq hval) (stopsTide_of_index hk (by decide))]
  unfold State.applyOb
  have hne : K.PWR_DOMAIN_CMD d ≠ K.PWR_CMD := fun he => absurd (hk.symm.trans (congrArg (· / 256) he)) (by decide)
  simp only [hk, hs, hne, Nat.reduceDiv, if_false, if_true]

theorem State.domCmd_off {s : State} {d : Nat} (h : s.domSt d = .on) :
    (s.domCmd d 2).domSt d = .draining ∧ ∀ e, e ≠ d → (s.domCmd d 2).domSt e = s.domSt e := by
  have he : s.domCmd d 2 = (s.setDomSt d .draining).dmaPdPause d := by
    unfold State.domCmd
    rw [h]
    rfl
  have hp : ((s.setDomSt d .draining).dmaPdPause d).pwr = (s.setDomSt d .draining).pwr :=
    (State.dmaPdPause_stays _ d (.refl _ _) (List.Subset.refl _)).keeps .pwr (by decide)
  rw [he]
  exact ⟨(State.domSt_of_pwr hp d).trans (s.domSt_setDomSt_self d _),
    fun e hne => (State.domSt_of_pwr hp e).trans (s.domSt_setDomSt_ne _ hne)⟩

theorem State.domCmd_on {s : State} {d : Nat} (h : s.domSt d = .off) : (s.domCmd d 1).domSt d = .ramping := by
  have he : s.domCmd d 1 = s.setDomSt d .ramping := by
    unfold State.domCmd
    rw [h]
    rfl
  rw [he, State.domSt_setDomSt_self]

theorem State.domClear_pwr (s : State) (d : Nat) : (s.domClear d).pwr = s.pwr ∧ (s.domClear d).cal = s.cal :=
  ⟨(State.domClear_stays s d (.refl s _) (List.Subset.refl _)).keeps .pwr (by decide),
    (State.domClear_stays s d (.refl s _) (List.Subset.refl _)).keeps .cal (by decide)⟩

theorem State.pdDrained_of {s : State} {d : Nat} (h : s.domSt d = .draining) (hd : s.pdDraining d = false) (hw : s.pdWrites d = false) :
    (s.pdDrained d).domSt d = .goingOff := by
  unfold State.pdDrained
  rw [if_pos ⟨h, hd, hw⟩]
  exact (State.domSt_of_pwr (State.domClear_pwr _ d).1 d).trans (s.domSt_setDomSt_self d _)

theorem State.dmaPdRefuse_ob (s : State) (d : Nat) {k : Nat} (hk : k ≠ K.DMA_PD_REFUSALS) : (s.dmaPdRefuse d).ob k = s.ob k := by
  unfold State.dmaPdRefuse
  extract_lets u
  refine (State.ob_incOb_ne u hk).trans ?_
  exact State.each_induct (fun w => w.ob k = s.ob k) (s := s) rfl fun w a _ hw => hw

theorem State.pdTimeout_of {s : State} {d : Nat} (h : s.domSt d = .draining) (hd : s.pdDraining d = true) :
    (s.pdTimeout d).domSt d = .on ∧ (s.pdTimeout d).pwrReason d = 8 ∧
      (s.pdTimeout d).ob K.PWR_PD_REFUSALS = (s.ob K.PWR_PD_REFUSALS + 1) % 2 ^ 64 := by
  unfold State.pdTimeout
  rw [if_pos ⟨h, hd⟩]
  have hr := (s.passes_reachMono (s.domSince d + s.ob K.DMA_PD_TIMEOUT * 1000)).objects K.PWR_PD_REFUSALS (by decide)
  generalize s.reachMono _ = r at hr
  have hq := (r.dmaPdRefuse_ob d (k := K.PWR_PD_REFUSALS) (by decide)).trans hr
  generalize r.dmaPdRefuse d = q at hq
  have ho : ((q.setDomSt d .on).setPwrReason d 8).ob K.PWR_PD_REFUSALS = q.ob K.PWR_PD_REFUSALS := State.ob_of_objs (s := q) rfl _
  have hdom : ((q.setDomSt d .on).setPwrReason d 8).domSt d = .on := q.domSt_setDomSt_self d .on
  have hreason : ((q.setDomSt d .on).setPwrReason d 8).pwrReason d = 8 :=
    mget_mput_self (fun _ => 0) (q.setDomSt d .on).pwr.reason d 8
  generalize (q.setDomSt d .on).setPwrReason d 8 = u at ho hdom hreason
  refine ⟨hdom, hreason, ?_⟩
  rw [State.ob_incOb_self, ho, hq]

theorem State.domOff_of {s : State} {d : Nat} (h : s.domSt d = .goingOff) : (s.domOff d).domSt d = .off := by
  unfold State.domOff
  rw [if_pos h, State.domSt_setDomSt_self]

theorem State.domOnDone_of {s : State} {d : Nat} (h : s.domSt d = .ramping) : (s.domOnDone d).domSt d = .on := by
  unfold State.domOnDone
  rw [if_pos h]
  extract_lets u
  have hu : u.domSt d = .on := State.domSt_setDomSt_self _ _ _
  clear_value u
  split
  · exact hu
  · split
    · exact hu
    · exact hu

/-! ### Resets -/

theorem State.finishApply_of_none {s : State} (h : s.applying = none) : s.finishApply = s := by
  unfold State.finishApply
  rw [h]

/-- What a package reset leaves that finds no commit being applied (R533). -/
structure State.Resets (s : State) (k : Nat) (t : State) : Prop where
  inReset : t.pwr.inReset = true
  cause : t.ob K.PWR_RESET_CAUSE = 2 ^ k
  backup : t.cal = s.cal ∧ t.rsv = s.rsv
  tide : t.tds.st = .stopped
  bytes : ∀ a, a / 2 ^ 32 = 0x51 ∨ s.inSnapshots a = true → t.byte a = s.byte a

theorem State.rebuilt_byte (s : State) {a : Nat} (h : a / 2 ^ 32 = 0x51 ∨ s.inSnapshots a = true) : s.rebuilt.byte a = s.byte a :=
  mget_filter memDflt (fun a => inBedrock a || s.inSnapshots a) (by
    unfold inBedrock
    obtain h | h := h
    · rw [decide_eq_true h, Bool.true_or]
    · rw [h, Bool.or_true]) s.mem

theorem State.resets_packageReset {s : State} (h : s.pwr.inReset = false) (ha : s.applying = none) (k : Nat) :
    s.Resets k (s.packageReset k) := by
  have he : s.packageReset k = ((s.rebuilt.duesAnew).incOb K.PWR_RESETS).setOb K.PWR_RESET_CAUSE (2 ^ k) := by
    unfold State.packageReset
    rw [if_neg (by rw [h]; exact Bool.false_ne_true), State.finishApply_of_none ha]
  rw [he]
  refine ⟨rfl, State.ob_setOb_self _ _ _, ⟨rfl, rfl⟩, rfl, fun a hb => ?_⟩
  exact s.rebuilt_byte hb

theorem State.resets_setPwr {s t : State} {k : Nat} (h : s.Resets k t) : s.Resets k (t.setPwr fun p => { p with railsOk := false }) :=
  ⟨h.inReset, h.cause, h.backup, h.tide, h.bytes⟩

/-- What a power-up of AO leaves that finds no commit being applied (R528, R533). -/
structure State.PowersUp (s t : State) : Prop where
  inReset : t.pwr.inReset = true
  cal : t.cal = s.cal
  flt : t.flt = State.reset.flt
  bytes : ∀ a, a / 2 ^ 32 = 0x51 → t.byte a = s.byte a

theorem State.powersUp_powerUpAO {s : State} (ha : s.applying = none) : s.PowersUp s.powerUpAO := by
  unfold State.powerUpAO
  rw [State.finishApply_of_none ha]
  refine ⟨rfl, rfl, rfl, fun a hb => ?_⟩
  refine Eq.trans ?_ (s.rebuilt_byte (.inl hb))
  exact mget_filter memDflt inBedrock (decide_eq_true hb) s.rebuilt.mem

theorem State.powersUp_setPwr {s t : State} (h : s.PowersUp t) : s.PowersUp (t.setPwr fun p => { p with railsOk := false }) :=
  ⟨h.inReset, h.cal, h.flt, h.bytes⟩

/-- A further source of a reset that is asserted. -/
theorem State.powersUp_again {s t : State} (h : s.PowersUp t) (k : Nat) : s.PowersUp (t.packageReset k) := by
  unfold State.packageReset
  rw [if_pos h.inReset]
  exact ⟨h.inReset, h.cal, h.flt, h.bytes⟩

theorem State.accepted_applying (s : State) (n key u : Nat) : (s.accepted n key u).applying = s.applying := by
  unfold State.applying State.slot
  rw [(s.accepted_stays' n key u).keeps .bdr (by decide)]

theorem State.setCmd_pwrCmd {s : State} {n v : Nat} (h : Takes s n K.PWR_CMD v) (hv : (objRow K.PWR_CMD).map (·.value v) = some v) :
    s.setCmd n K.PWR_CMD v = if v = 1 then (s.accepted n K.PWR_CMD v).packageReset 3 else (s.accepted n K.PWR_CMD v).sleep :=
  State.setCmd_of_index_plain (i := 0x1200) h (by decide) (by decide) (by decide) (h.value_eq hv) (by decide)

/-! ### SLEEP -/

theorem State.sleep_order_mem (s : State) {d : Nat} (hd : d ∈ [dHC, dNV, dNW, dRL, dMB, dDM]) :
    d ∈ [dFL, dS 6, dS 5, dS 4, dS 3, dS 2, dS 1, dDM, dMB, dRL, dNW, dNV, dHC].filter s.domFitted := by
  have hlist : ∀ d ∈ [dHC, dNV, dNW, dRL, dMB, dDM], d ∈ [dFL, dS 6, dS 5, dS 4, dS 3, dS 2, dS 1, dDM, dMB, dRL, dNW, dNV, dHC] ∧
      ¬ (9 ≤ d ∧ d ≤ 14) ∧ d ≠ 15 ∧ (decide (1 ≤ d) && decide (d ≤ 8)) = true := by decide
  obtain ⟨h1, h2, h3, h4⟩ := hlist d hd
  refine List.mem_filter.2 ⟨h1, ?_⟩
  unfold State.domFitted
  rw [if_neg h2, if_neg h3]
  exact h4

/-- The descent of a domain. -/
theorem State.descend_pwr (s : State) (d : Nat) : (((s.finishApply).domClear d).setDomSt d .off).cal = s.cal ∧
    ∀ e, (((s.finishApply).domClear d).setDomSt d .off).domSt e = if e = d then .off else s.domSt e := by
  have hf := State.finishApply_stays s (.refl s _) (List.Subset.refl _)
  obtain ⟨h1, h2⟩ := s.finishApply.domClear_pwr d
  refine ⟨h2.trans (hf.keeps .cal (by decide)), fun e => ?_⟩
  by_cases he : e = d
  · subst he
    rw [State.domSt_setDomSt_self, if_pos rfl]
  · rw [State.domSt_setDomSt_ne _ _ he, if_neg he]
    exact State.domSt_of_pwr (h1.trans (hf.keeps .pwr (by decide))) e

theorem State.sleep_leaves (s : State) : s.sleep.pwr.sleeping = true ∧ s.sleep.cal = s.cal ∧
    ∀ d ∈ [dHC, dNV, dNW, dRL, dMB, dDM], s.sleep.domSt d = .off := by
  unfold State.sleep
  extract_lets u v order w r
  have hv : v.cal = s.cal := by
    have hu : u.Stays [.fio] s := State.fioPark_stays s (.refl s _) (List.Subset.refl _)
    unfold v State.when
    split
    · exact (State.fieldPark_stays u hu (List.Subset.refl _)).keeps .cal (by decide)
    · exact hu.keeps .cal (by decide)
  have hw : w.cal = s.cal :=
    State.each_induct (fun x => x.cal = s.cal) (s := v) hv fun x d _ hx => (x.descend_pwr d).1.trans hx
  refine ⟨rfl, hw, fun d hd => ?_⟩
  have hoff : w.domSt d = .off := by
    refine State.each_reaches (fun _ => True) (fun x => x.domSt d = .off) (v.sleep_order_mem hd) trivial (fun x _ => ?_)
      (fun _ _ _ _ => trivial) fun x e _ _ hx => ?_
    · rw [(x.descend_pwr d).2, if_pos rfl]
    · rw [(x.descend_pwr e).2, hx, ite_self]
  exact hoff

/-! ### Clocks and the debug port -/

theorem State.mooringDown_link (s : State) (l : Nat) : (s.mooringDown l).linkState l = 0 ∧
    ∀ m, m ≠ l → (s.mooringDown l).linkState m = s.linkState m := by
  unfold State.mooringDown
  split
  next h => exact ⟨h, fun _ _ => rfl⟩
  next h =>
    extract_lets up u
    have hu : u.linkState l = 0 ∧ ∀ m, m ≠ l → u.linkState m = s.linkState m :=
      ⟨State.linkState_set (m := s.red.linkSt) rfl, fun m hm => mget_mput_ne (fun _ => 0) s.red.linkSt l 0 hm⟩
    clear_value u
    unfold State.when
    split
    · exact hu
    · exact hu

theorem State.setCmd_coreFreq {s : State} {n k v : Nat} (h1 : 1 ≤ k) (h6 : k ≤ 6) (h : Takes s n (K.PWR_CORE_FREQ k) v) :
    s.setCmd n (K.PWR_CORE_FREQ k) v = (s.accepted n (K.PWR_CORE_FREQ k) (s.valueOf (K.PWR_CORE_FREQ k) v)).store
      (K.PWR_CORE_FREQ k) (s.valueOf (K.PWR_CORE_FREQ k) v) := by
  have hk : K.PWR_CORE_FREQ k / 256 = 0x1204 := by
    unfold K.PWR_CORE_FREQ
    omega
  rw [State.setCmd_of_index_plain h hk (by decide) (by decide) rfl (stopsTide_of_index hk (by decide))]
  unfold State.applyOb
  have hne : K.PWR_CORE_FREQ k ≠ K.PWR_CMD := fun he => absurd (hk.symm.trans (congrArg (· / 256) he)) (by decide)
  have hi : ¬ 0x1204 = 0x1202 := by decide
  simp only [hk, hne, hi, Nat.reduceDiv, if_false]

theorem idcode_fields (a b : Nat) (hb : b < 2 ^ 16) : (a * 2 ^ 28 + b * 2 ^ 12 + 0x2B6 * 2 + 1) % 2 = 1 ∧
    bits (a * 2 ^ 28 + b * 2 ^ 12 + 0x2B6 * 2 + 1) 11 1 = 0x2B6 ∧ bits (a * 2 ^ 28 + b * 2 ^ 12 + 0x2B6 * 2 + 1) 27 12 = b := by
  unfold bits
  refine ⟨?_, ?_, ?_⟩ <;> simp <;> omega

theorem State.tapHas_iff (s : State) (i : TapIns) : s.tapHas i = true ↔ s.str.fuses.testBit 3 = false ∨ i = .bypass ∨ i = .idcode := by
  unfold State.tapHas bit
  simp [or_assoc]

/-- Settles O52: what domains, resets, SLEEP and lost clocks do, and what the debug port tells. -/
theorem powerAndReset : Obligations.PowerAndReset := by
  unfold Obligations.PowerAndReset
  refine ⟨⟨fun s n d hd => ⟨fun h hs => ?_, fun h hs => ?_⟩, fun s d => ⟨fun h h1 h2 => ?_, fun h h1 => ?_, fun h => ?_, fun h => ?_⟩⟩,
    fun s hin happ => ⟨fun c k hc hsl hf hmb => ?_, fun n h => ?_, fun n h => ?_, fun c hc => ?_⟩, ?_, ?_, ?_, ?_, ?_, ?_⟩
  · have hdom := State.domSt_of_pwr (s.accepted_pwr n (K.PWR_DOMAIN_CMD d) 2)
    obtain ⟨h1, h2⟩ := State.domCmd_off ((hdom d).trans hs)
    exact completes_of rfl (State.setCmd_domain hd (.inr rfl) h) ⟨h1, fun e he => (h2 e he).trans (hdom e)⟩
  · have hdom := State.domSt_of_pwr (s.accepted_pwr n (K.PWR_DOMAIN_CMD d) 1)
    exact completes_of rfl (State.setCmd_domain hd (.inl rfl) h) (State.domCmd_on ((hdom d).trans hs))
  · exact completes_of rfl rfl (State.pdDrained_of h h1 h2)
  · exact completes_of rfl rfl (State.pdTimeout_of h h1)
  · exact completes_of rfl rfl (State.domOff_of h)
  · exact completes_of rfl rfl (State.domOnDone_of h)
  · have hreset : Completes c s fun t => s.Resets k t := by
      have hp := State.resets_packageReset hin happ
      rw [List.mem_append, List.mem_cons, List.mem_singleton, List.mem_map] at hc
      obtain (hc | hc) | ⟨r, hr, hc⟩ := hc
      · obtain ⟨rfl, rfl⟩ := Prod.mk.inj hc
        refine completes_of rfl ?_ (hp 1)
        dsimp only
        rw [hsl]
        rfl
      · obtain ⟨rfl, rfl⟩ := Prod.mk.inj hc
        exact completes_of rfl (if_pos ⟨hf, hmb⟩) (hp 6)
      · obtain ⟨rfl, rfl⟩ := Prod.mk.inj hc
        have hr7 := List.mem_range.1 hr
        refine completes_of rfl (if_neg (by omega)) ?_
        rw [if_neg (by omega)]
        exact State.resets_setPwr (hp 4)
    obtain ⟨t, ht, h⟩ := hreset
    exact ⟨t, ht, h.inReset, h.cause, h.backup.1, h.backup.2, h.tide, h.bytes⟩
  · have hr := State.resets_packageReset (s := s.accepted n K.PWR_CMD 1) ((congrArg Pwr.inReset (s.accepted_pwr _ _ _)).trans hin)
      ((s.accepted_applying _ _ _).trans happ) 3
    refine completes_of rfl ((State.setCmd_pwrCmd h (by decide)).trans (if_pos rfl)) ⟨hr.inReset, hr.cause, ?_, hr.tide⟩
    exact hr.backup.1.trans (s.accepted_cal _ _ _)
  · obtain ⟨h1, h2, h3⟩ := (s.accepted n K.PWR_CMD 2).sleep_leaves
    exact completes_of rfl ((State.setCmd_pwrCmd h (by decide)).trans (if_neg (by decide))) ⟨h1, h2.trans (s.accepted_cal _ _ _), h3⟩
  · have hup : Completes c s fun t => s.PowersUp t := by
      have hp := State.powersUp_powerUpAO happ
      simp only [List.mem_cons, List.not_mem_nil, or_false] at hc
      obtain rfl | rfl | rfl := hc
      · exact completes_of rfl rfl hp
      · refine completes_of rfl rfl ?_
        dsimp only
        rw [if_pos rfl, State.when]
        split
        · exact State.powersUp_again hp 5
        · exact hp
      · refine completes_of rfl (if_neg (by decide)) ?_
        rw [if_pos rfl]
        exact State.powersUp_setPwr hp
    obtain ⟨t, ht, h⟩ := hup
    exact ⟨t, ht, h.inReset, h.cal, h.flt, h.bytes⟩
  · intro s n k v h1 h6 h
    refine completes_of rfl (State.setCmd_coreFreq h1 h6 h) ?_
    refine (State.store_ob _ _ _ ?_ ?_).trans (State.ob_setOb_self _ _ _)
    · unfold K.PWR_CORE_FREQ K.BDR_INHIBITED
      omega
    · unfold K.PWR_CORE_FREQ K.BDR_TXN_COMMITS
      omega
  · intro s h
    refine completes_of rfl (if_neg (by rw [h]; exact Bool.false_ne_true)) ⟨rfl, ?_⟩
    exact State.ob_incOb_self _ _
  · intro s
    exact completes_of rfl rfl rfl
  · intro s h
    refine completes_of rfl (if_neg (by rw [h]; exact Bool.false_ne_true)) ?_
    dsimp only
    obtain ⟨u, hu⟩ : ∃ u, u = (s.setPwr fun p => { p with sdLost := true }).setHnw fun h => { h with up := 0 } := ⟨_, rfl⟩
    rw [← hu]
    have hst : ((u.mooringDown 0).mooringDown 1).Stays [.link, .flt] u :=
      State.mooringDown_stays _ 1 (State.mooringDown_stays u 0 (.refl u _) (List.Subset.refl _)) (List.Subset.refl _)
    refine ⟨?_, ?_, ?_, ((u.mooringDown 0).mooringDown_link 1).1⟩
    · rw [hst.keeps .pwr (by decide), hu]
      rfl
    · rw [hst.keeps .hnw (by decide), hu]
      rfl
    · rw [((u.mooringDown 0).mooringDown_link 1).2 0 (by decide), (u.mooringDown_link 0).1]
  · intro s
    exact completes_of rfl rfl rfl
  · intro s
    obtain ⟨h1, h2, h3⟩ := idcode_fields idcodeStep (s.part.code % 2 ^ 16) (Nat.mod_lt _ (by decide))
    exact ⟨h1, h2, h3, fun i => s.tapHas_iff i⟩

end Sys2Proof.Machine
end
